-- ==== Sys2Proof/Word.lean ====
section
/-!
DEFINITION. The word and byte types. Every register of the device is 32 bits wide (R5).
-/
namespace Sys2Proof

/-- A register, a memory word, an instruction word. -/
abbrev Word := BitVec 32

/-- A byte of memory. -/
abbrev Byte := BitVec 8

end Sys2Proof
end

