-- ==== Sys2Proof/Syntax.lean ====
section
/-!
DEFINITION. The commands of the Klolet 9480 as a block: one constructor per row of spec/opcode_table.json, with the
operands that the row's rule gives the step. Numbers of units are Fin, so that a command never names a unit the
device has not. The rows that the device itself may make due stand first: the compiler builds a value only for the
first 245 constructors of a type, and the order of the constructors means nothing else.
-/
namespace Sys2Proof

/-- The agent that makes an access (R16, R17, R28). -/
inductive Master where
  | core (n : Fin 8)
  | mp
  | dma (c : Fin 64)
  | host
  | debug
  | net
  | engine (e : Fin 96)
deriving DecidableEq, Repr

/-- Sizes of an access: byte, half-word, word (R5). -/
inductive AccSize where
  | byte | half | word
deriving DecidableEq, Repr

/-- The residue check of a stage: agreement, a mismatch that re-execution mends, one that it does not (R105 to
R107). -/
inductive Residue where
  | clean | transient | permanent
deriving DecidableEq, Repr

/-- What ends WATCH (R469). -/
inductive WakeSource where
  /-- WAKE`k` has held this level for 2 µs. -/
  | ball (k : Fin 4) (level : Bool)
  | alarm (a : Fin 4)
  | pennant (g : Fin 1024)
deriving DecidableEq, Repr

/-- A CAN frame (R434). -/
structure CanFrame where
  id : BitVec 29
  ide : Bool
  fdf : Bool
  brs : Bool
  rtr : Bool
  dlc : Fin 16
  data : Vector Byte 64
deriving DecidableEq, Repr

/-- An operation of the test access port: the instruction that takes effect, with the cells that PRELOAD scans in
(R485). -/
inductive JtagOp where
  | reset | bypass | idcode | sample | preload (cells : List Bool) | extest | clamp
deriving DecidableEq, Repr


/-- What the analog stage sees in a conversion (R193, R202): the input and the reference, in nanovolts, and the stage's own
error, in codes. -/
structure Conversion where
  vin : BitVec 64
  vref : Word
  err : BitVec 16
deriving DecidableEq, Repr

/-- A voltage at an analog input, in microvolts (R215). -/
structure InputVoltage where
  ain : Fin 8
  vin : Word
deriving DecidableEq, Repr

/-- The commands of the block: one constructor per row of the operation table. -/
inductive Instr where
  /-- REGISTER_WRITE (R18): A write to a register that has no row of its own, decided by reachability, size and ownership. -/
  | registerWrite (m : Master) (a : Word) (size : AccSize) (v : Word)
  /-- SC_STATUS_WRITE (R4): A write to a sequence-clear status register clears MANY and all flags if its bits [31:24] match SEQ. -/
  | scStatusWrite (m : Master) (a v : Word)
  /-- LL_READ (R4): A read of a low-word register latches the high word into the reading domain's shadow. -/
  | llRead (m : Master) (a : Word)
  /-- XM_FRAME_CFG_WRITE (R27): A write to an exchange frame configuration sets its extent, owner and security and resets its generation. -/
  | xmFrameCfgWrite (m : Master) (f : Fin 1024) (v : Word)
  /-- STAGING_WRITE (R57): A write through a staging alias writes a shadow as an entry of the writer's open epoch. -/
  | stagingWrite (m : Master) (a v : Word)
  /-- EB_DIRECT_WRITE (R73): A direct write to an epoch-bound register sets both copies in a stopped block or is ignored. -/
  | ebDirectWrite (m : Master) (a v : Word)
  /-- LINK_TIMEOUT (R13): An island link handshake times out, ending the access with an error and holding pennants. -/
  | linkTimeout (l : Fin 32)
  /-- LINK_RESET (R446): A link handshake reset completes, judging the fault transient or retiring and rerouting the link. -/
  | linkReset (l : Fin 32) (passed : Bool)
  /-- ISLAND_SYNC (R32): An island's PLL locks and it loads its beat count, setting its sync bit. -/
  | islandSync (n : Fin 16)
  /-- SYNC_LOST (R32): An island detects phase loss or a beat-count mismatch and clears its sync bit. -/
  | syncLost (n : Fin 16)
  /-- TB_RATE_WRITE (R35): A write of the rate trim takes effect, is clamped, or is stored in FREE mode. -/
  | tbRateWrite (m : Master) (v : Word)
  /-- RATE_INCREMENT (R35): Every 100 µs a large rate change advances by another 10 ppm. -/
  | rateIncrement
  /-- TB_STEP_HI_WRITE (R36): A write of the step high word schedules a device-time step at W + 2. -/
  | tbStepHiWrite (m : Master) (v : Word)
  /-- DEVICE_TIME_STEP (R36): At its beat the scheduled step changes D in the timebase and every synchronised island. -/
  | deviceTimeStep
  /-- TB_DISC_WRITE (R37): A write of the discipline mode selects FREE, SOFTWARE or SERVO and applies a stored rate. -/
  | tbDiscWrite (m : Master) (v : Word)
  /-- AS_SYNC_MESSAGE (R37): An 802.1AS sync message lets the servo step or slew device time and advance its state. -/
  | asSyncMessage (offset : BitVec 64) (rate : Word)
  /-- SERVO_HOLDOVER (R37): Three sync intervals pass without a sync message and the servo enters HOLDOVER. -/
  | servoHoldover
  /-- TB_START_GO (R41): A write arms a global start at W + 2, copying the start masks. -/
  | tbStartGo (m : Master) (v : Word)
  /-- TB_START_AT_HI_WRITE (R41): A write arms a global start at the named beat under the late policy. -/
  | tbStartAtHiWrite (m : Master) (v : Word)
  /-- TB_START_CANCEL (R43): A write withdraws a pending global start if it arrives by N − 2. -/
  | tbStartCancel (m : Master) (v : Word)
  /-- GLOBAL_START (R42): At the start beat every selected timer unit of every synchronised island starts at tick 0. -/
  | globalStart
  /-- COUPLING_RELEASE (R44): A master unit's event is released at the slave unit two beats later, or the next tick directly. -/
  | couplingRelease (n : Fin 16) (k : Fin 4)
  /-- CAL_SET_HI_WRITE (R47): A write requests a load of the calendar from the set registers. -/
  | calSetHiWrite (m : Master) (v : Word)
  /-- CALENDAR_LOAD (R47): At the second oscillator edge after the write the calendar loads and TIME_VALID sets. -/
  | calendarLoad
  /-- VBAK_RISE (R47): VBAK rises from below 1.6 V, clearing TIME_VALID and setting VBAK_LOST. -/
  | vbakRise
  /-- OSC_STOP (R47): The 32.768 kHz oscillator stops, clearing TIME_VALID. -/
  | oscStop
  /-- CALENDAR_SECOND (R49): SUB wraps, SECONDS advances, the device-time pair is recorded and the second event fires. -/
  | calendarSecond
  /-- LEAP_OFFSET_CHANGE (R48): SECONDS reaches CAL_LEAP_AT and OFFSET takes NEXT. -/
  | leapOffsetChange
  /-- ALARM_ARM (R52): A write of ARM compares the alarm with the calendar and arms it or treats it as late. -/
  | alarmArm (m : Master) (a : Fin 4) (v : Word)
  /-- ALARM_FIRE (R51): The calendar reaches an armed alarm, which sets its flag, fires, wakes and repeats or disarms. -/
  | alarmFire (a : Fin 4)
  /-- EP_OPEN_READ (R61): A read of EP_OPEN allocates a free slot and a new epoch ID. -/
  | epOpenRead (m : Master)
  /-- EP_STAGE_WRITE (R62): A write of an ID closes an open epoch. -/
  | epStageWrite (m : Master) (v : Word)
  /-- EP_SLOT_AT_HI_WRITE (R63): A write requests a haul-down of the slot's epoch at the named beat. -/
  | epSlotAtHiWrite (m : Master) (slot : Fin 4) (v : Word)
  /-- EP_HAUL_GO_WRITE (R63): A write requests a haul-down of the named epoch at W + 2. -/
  | epHaulGoWrite (m : Master) (v : Word)
  /-- EP_ABANDON_WRITE (R71): A write abandons an open, staged or not-too-late armed epoch. -/
  | epAbandonWrite (m : Master) (v : Word)
  /-- ABANDON_COMPLETE (R71): An abandoning slot has restored its shadows and becomes FREE. -/
  | abandonComplete (slot : Fin 4)
  /-- HAUL_DOWN (R64): At beat N every synchronised island marks the epoch's entries due and AT_BEAT blocks swap. -/
  | haulDown (slot : Fin 4)
  /-- UNSYNC_APPLY (R68): An island that was unsynchronised at N applies its due entries two beats after its sync returns. -/
  | unsyncApply (n : Fin 16)
  /-- SN_COUNT_WRITE (R77): A write of the pair count clears LOADED and withdraws a distribution. -/
  | snCountWrite (m : Master) (v : Word)
  /-- SN_LOAD (R77): A write distributes the address list to the islands and central complex. -/
  | snLoad (m : Master) (v : Word)
  /-- SNAPSHOT_LIST_LOADED (R77): Distribution of the snapshot list completes and LOADED sets. -/
  | snapshotListLoaded
  /-- SN_AT_HI_WRITE (R78): A write arms a snapshot capture at the named beat. -/
  | snAtHiWrite (m : Master) (v : Word)
  /-- SN_GO (R78): A write arms a snapshot capture at W + 2. -/
  | snGo (m : Master) (v : Word)
  /-- SN_CANCEL (R78): A write withdraws a pending capture if it arrives by N − 2. -/
  | snCancel (m : Master) (v : Word)
  /-- SNAPSHOT_CAPTURE (R79): At tick 0 of the capture beat every listed register and word is read. -/
  | snapshotCapture
  /-- SNAPSHOT_FILL_DONE (R79): The captured values reach snapshot memory, DONE sets and the snapshot-done event fires. -/
  | snapshotFillDone
  /-- LE_RUN_WRITE (R93): A write of context enables requests enabling or disabling loop contexts. -/
  | leRunWrite (m : Master) (n : Fin 16) (e : Fin 6) (v : Word)
  /-- CONTEXT_ENABLE (R93): At the first instant no chain is part way through, a requested context becomes enabled. -/
  | contextEnable (n : Fin 16) (m : Fin 6) (c : Fin 8)
  /-- CONTEXT_TRIGGER (R94): A context's trigger pennant fires and the context starts waiting for its inputs. -/
  | contextTrigger (n : Fin 16) (m : Fin 6) (c : Fin 8)
  /-- INPUTS_FRESH (R94): Every awaited input of a waiting context becomes fresh and the context becomes RUNNABLE. -/
  | inputsFresh (n : Fin 16) (m : Fin 6) (c : Fin 8)
  /-- CONTEXT_WAIT_TIMEOUT (R94): A context's inputs are not fresh within TIMEOUT and it returns to IDLE. -/
  | contextWaitTimeout (n : Fin 16) (m : Fin 6) (c : Fin 8)
  /-- OUTPUT_RELEASE (R101): In fixed-phase timing the held outputs are released at trigger instant plus OFFSET. -/
  | outputRelease (n : Fin 16) (m : Fin 6) (c : Fin 8)
  /-- LAT_WRITE (R115): A write to a context's latency register sets MAX to 0. -/
  | latWrite (m : Master) (n : Fin 16) (e : Fin 6) (c : Fin 8) (v : Word)
  /-- IC_LE_SUBST_WRITE (R108): A write designates the island's substitute loop engine. -/
  | icLeSubstWrite (m : Master) (n : Fin 16) (v : Word)
  /-- SUBSTITUTE_SELFTEST (R108): An idle substitute runs its periodic residue self-test and is retired if it fails. -/
  | substituteSelftest (n : Fin 16) (passed : Bool)
  /-- RETIREMENT_COPY_DONE (R109): The substitute completes its copy of a retired engine and resumes its contexts. -/
  | retirementCopyDone (n : Fin 16) (m : Fin 6)
  /-- PERIOD_BOUNDARY (R169): A timer unit's position returns to 0, pending words load and the period event fires. -/
  | periodBoundary (n : Fin 16) (k : Fin 4)
  /-- MID_PERIOD (R169): An UP_DOWN unit reaches its mid-period tick, fires MID and may load widths. -/
  | midPeriod (n : Fin 16) (k : Fin 4)
  /-- CHANNEL_EVENT_POINT (R162): The position equals a channel's event point and its CHj event fires. -/
  | channelEventPoint (n : Fin 16) (k : Fin 4) (j : Fin 6)
  /-- TU_RUN (R171): A write of RUN requests a start in the third tick or a stop at the boundary. -/
  | tuRun (m : Master) (n : Fin 16) (k : Fin 4) (v : Word)
  /-- TU_STOP_NOW (R171): A write of STOP_NOW stops the unit in the next tick. -/
  | tuStopNow (m : Master) (n : Fin 16) (k : Fin 4) (v : Word)
  /-- TU_START (R172): A timer unit starts: applies due entries, loads pending words, sets its phase and fires PERIOD. -/
  | tuStart (n : Fin 16) (k : Fin 4)
  /-- DUTY_LOAD_WRITE (R168): A write to a duty load register sets its pending bit, or is refused from a non-owner. -/
  | dutyLoadWrite (m : Master) (n : Fin 16) (k : Fin 4) (w : Fin 13) (v : Word)
  /-- TRIP_ACTIVE (R176): A trip input becomes active and holds its channels asynchronously. -/
  | tripActive (n : Fin 16) (k : Fin 4) (inp : Fin 8)
  /-- TRIP_LATCH_CLEAR (R178): A write of CLR bits releases latched trip inputs that are inactive. -/
  | tripLatchClear (m : Master) (n : Fin 16) (k : Fin 4) (v : Word)
  /-- SYSTEM_HOLD_RELEASE (R179): A write of SYS releases the system hold if no cause is in force. -/
  | systemHoldRelease (m : Master) (n : Fin 16) (k : Fin 4) (v : Word)
  /-- SAFE_N_ASSERT (R177): SAFE_N goes low and every output takes its safe level. -/
  | safeNAssert
  /-- SAFE_N_DEASSERT (R178): SAFE_N returns high and running units release at their next boundary. -/
  | safeNDeassert
  /-- READBACK_CHECK (R181): An output is read back and compared, after a transition or 2 µs since its last check. -/
  | readbackCheck (n : Fin 16) (k : Fin 4) (o : Fin 12) (level : Bool)
  /-- CAPTURE_EDGE (R184): A filtered input edge is captured with its device-time stamp. -/
  | captureEdge (n : Fin 16) (k : Fin 4) (j : Fin 6) (rise : Bool) (ago : Word)
  /-- CAPTURE_READ (R185): A read of CAP_LO consumes a capture and latches its high and sub words. -/
  | captureRead (m : Master) (n : Fin 16) (k : Fin 4) (j : Fin 6)
  /-- ADC_TRIGGER (R195): A converter trigger arrives and starts its delay or is discarded. -/
  | adcTrigger (n : Fin 16) (c : Fin 2) (inj : Bool)
  /-- TRIGGER_DUE (R197): A converter trigger becomes due after its delay and its sequence starts or is held. -/
  | triggerDue (n : Fin 16) (c : Fin 2) (inj : Bool)
  /-- CONVERSION_DONE (R199): A conversion completes, its result is placed in AC_DATA and copied to latches. -/
  | conversionDone (n : Fin 16) (c : Fin 2) (x : Conversion)
  /-- REFERENCE_CHECK (R205): An idle converter core performs its owed reference check and retries or retires. -/
  | referenceCheck (n : Fin 16) (c : Fin 2) (raw again : BitVec 16)
  /-- TAKEOVER (R206): The paired core takes over the retired core's register set. -/
  | takeover (n : Fin 16) (c : Fin 2)
  /-- CONVERTER_ENABLE (R198): A write of AC_CTRL.EN enables a core or drops its pending sequences. -/
  | converterEnable (m : Master) (n : Fin 16) (c : Fin 2) (v : Word)
  /-- AC_DATA_READ (R199): A read of AC_DATA counts as the result's read, clears NEW and latches the sample instant. -/
  | acDataRead (m : Master) (n : Fin 16) (c : Fin 2)
  /-- CALIBRATION_START (R201): A write of START begins calibration of a disabled core. -/
  | calibrationStart (m : Master) (n : Fin 16) (c : Fin 2) (v : Word)
  /-- CALIBRATION_DONE (R201): Calibration completes, storing factors or setting CAL_FAIL. -/
  | calibrationDone (n : Fin 16) (c : Fin 2) (ok : Bool) (temp : BitVec 16) (gains : Vector Word 4) (lins : Vector Word 8)
  /-- DRIFT_CHECK (R203): Each millisecond the core compares temperature with its calibration temperature. -/
  | driftCheck (n : Fin 16) (c : Fin 2) (temp : BitVec 16)
  /-- SINC3_RESULT (R211): A sinc3 decimation completes and its result is written to SD_DATA. -/
  | sinc3Result (n : Fin 16) (d : Fin 4) (samples : List (Bool × Bool))
  /-- SINC2_RESULT (R213): A sinc2 result completes and is compared with the over-current thresholds. -/
  | sinc2Result (n : Fin 16) (d : Fin 4) (samples : List (Bool × Bool))
  /-- SD_SYNC (R212): A due sync event restarts the decimation count. -/
  | sdSync (n : Fin 16) (d : Fin 4)
  /-- SD_DATA_READ (R211): A read of SD_DATA clears NEW. -/
  | sdDataRead (m : Master) (n : Fin 16) (d : Fin 4)
  /-- SD_CLOCK_LOST (R214): No modulator clock edge for 256 ticks sets CLK_LOST. -/
  | sdClockLost (n : Fin 16) (d : Fin 4)
  /-- SD_SATURATION (R214): Data constant for 64 clocks sets SAT. -/
  | sdSaturation (n : Fin 16) (d : Fin 4)
  /-- COMPARATOR_TRANSITION (R215): A comparator output changes and fires ACTIVE or INACTIVE. -/
  | comparatorTransition (n : Fin 16) (c : Fin 8) (x : InputVoltage)
  /-- BLANKING_EXPIRY (R216): A comparator blanking window ends. -/
  | blankingExpiry (n : Fin 16) (c : Fin 8)
  /-- SETTLING_END (R217): A comparator's settling hold after a swap ends. -/
  | settlingEnd (n : Fin 16) (c : Fin 8) (vin : Word)
  /-- ENCODER_EDGE (R225): An accepted encoder edge changes the count and is tested against the compare point. -/
  | encoderEdge (n : Fin 16) (q : Fin 2) (a b : Bool) (ago : Word)
  /-- ENCODER_INDEX (R228): An accepted index copies the count and may reset it. -/
  | encoderIndex (n : Fin 16) (q : Fin 2)
  /-- EQ_PRESET_WRITE (R229): A write of EQ_PRESET loads the count. -/
  | eqPresetWrite (m : Master) (n : Fin 16) (q : Fin 2) (v : Word)
  /-- SSI_TRIGGER (R230): An SSI frame trigger becomes due and waits for the monoflop. -/
  | ssiTrigger (n : Fin 16) (q : Fin 2) (dataHigh : Bool)
  /-- SSI_TIMEOUT (R230): The data input stays low past TIMEOUT and no frame runs. -/
  | ssiTimeout (n : Fin 16) (q : Fin 2)
  /-- SSI_FRAME_COMPLETE (R231): An SSI frame completes and its position updates the count. -/
  | ssiFrameComplete (n : Fin 16) (q : Fin 2) (frame : BitVec 48)
  /-- COMPARE_ARM (R235): A write of ARM arms the position compare. -/
  | compareArm (m : Master) (n : Fin 16) (q : Fin 2) (v : Word)
  /-- COMPARE_DISARM (R235): A write of DISARM disarms the position compare. -/
  | compareDisarm (m : Master) (n : Fin 16) (q : Fin 2) (v : Word)
  /-- COMPARE_ARM_PENNANT (R235): The arming pennant fires and arms the compare. -/
  | compareArmPennant (n : Fin 16) (q : Fin 2)
  /-- DWELL (R236): No count edge for STILL µs inside the band reports a dwell. -/
  | dwell (n : Fin 16) (q : Fin 2)
  /-- COMPARE_PULSE_END (R237): The compare output pulse of WIDTH ticks ends. -/
  | comparePulseEnd (n : Fin 16) (q : Fin 2)
  /-- MARK_CAPTURE (R241): A mark input captures an edge with count and extrapolated tracked position. -/
  | markCapture (n : Fin 16) (k : Fin 4) (rise : Bool) (ago : Word)
  /-- MARK_READ (R243): A read of MK_POS_LO consumes the capture. -/
  | markRead (m : Master) (n : Fin 16) (k : Fin 4)
  /-- PENNANT_TRANSITION (R256): A selected line changes and an ungated pennant delivers the transition to its consumers. -/
  | pennantTransition (p : Fin 2048) (level fired : Bool)
  /-- EVENT_RECORD_PUSH (R271): A segment pushes a buffered event record to its queue. -/
  | eventRecordPush (seg : Fin 17)
  /-- DEBOUNCE_EXPIRY (R265): A hoist's debounce count reaches N and its output changes. -/
  | debounceExpiry (h : Fin 512)
  /-- FB_FIRE (R262): A write fires the named pennant from software. -/
  | fbFire (m : Master) (v : Word)
  /-- SIGNAL_SET_SWITCH (R269): An ON or OFF control pennant switches a signal set. -/
  | signalSetSwitch (m : Master) (k : Fin 128) (v : Word)
  /-- SIGNAL_SET_ON (R269): A write of ON by the owner turns a signal set ON. -/
  | signalSetOn (k : Fin 128)
  /-- SIGNAL_SET_OFF (R269): A write of OFF by the owner turns a signal set OFF. -/
  | signalSetOff (k : Fin 128)
  /-- STORE_FAULT_DEFERRED (R318): A store's error response arrives and raises a deferred exception. -/
  | storeFaultDeferred (n : Fin 8)
  /-- LOCKSTEP_DISAGREEMENT (R309): A locked pair disagrees, rolls back and re-executes or enters safe halt. -/
  | lockstepDisagreement (pair : Fin 4) (again : Bool)
  /-- SCHEDULER_EVENT (R326): A slot's wake pennant rises and sets PEND. -/
  | schedulerEvent (n : Fin 8) (slot : Fin 256)
  /-- TASK_PREEMPT (R327): A higher-priority READY slot preempts the running slot at an issue boundary. -/
  | taskPreempt (n : Fin 8)
  /-- BANK_SPILL_DONE (R329): The spill engine completes moving a context to its image. -/
  | bankSpillDone (n : Fin 8)
  /-- BANK_FILL_DONE (R329): The spill engine completes filling a context into a bank. -/
  | bankFillDone (n : Fin 8) (bad : Bool)
  /-- SLOT_ENABLE (R328): A write of EN enables or removes a task slot. -/
  | slotEnable (m : Master) (n : Fin 8) (slot : Fin 256) (v : Word)
  /-- SLOT_KICK (R335): A write of KICK sets PEND. -/
  | slotKick (m : Master) (n : Fin 8) (slot : Fin 256) (v : Word)
  /-- SLOT_INIT (R328): A write of INIT initialises a disabled slot's context. -/
  | slotInit (m : Master) (n : Fin 8) (slot : Fin 256) (v : Word)
  /-- SLOT_PIN (R329): A write of PIN keeps a slot resident or is refused. -/
  | slotPin (m : Master) (n : Fin 8) (slot : Fin 256) (v : Word)
  /-- SCH_SPILL_WRITE (R335): A write sets the spill area base or is refused. -/
  | schSpillWrite (m : Master) (n : Fin 8) (v : Word)
  /-- SCH_RELEASE (R325): A domain 0 write returns a safe-halted core to HELD. -/
  | schRelease (m : Master) (n : Fin 8) (v : Word)
  /-- CORE_HOLD (R328): A write of HOLD holds a core or starts it at CC_BOOT in slot 0. -/
  | coreHold (m : Master) (n : Fin 8) (v : Word)
  /-- PAIR_LOCK (R310): A write of LOCK locks or splits a held pair. -/
  | pairLock (m : Master) (n : Fin 8) (v : Word)
  /-- DEBUG_HALT (R188): A core halts under debug and owned timer units freeze. -/
  | debugHalt (who : Fin 9)
  /-- DEBUG_RESUME (R188): A halted core resumes and freezes end. -/
  | debugResume (who : Fin 9)
  /-- SCRUB_READ (R339): The scrubber reads a word, correcting or reporting errors. -/
  | scrubRead (mem : Fin 112) (a : Word) (flips : Fin 3)
  /-- ROW_RETIRE_COPY_DONE (R340): A row's copy into a spare completes and the spare serves it. -/
  | rowRetireCopyDone (mem : Fin 112) (a : Word)
  /-- FLASH_PROGRAM (R342): A PROGRAM command starts programming one code word. -/
  | flashProgram (m : Master) (b : Fin 2)
  /-- FLASH_ERASE (R342): An ERASE command starts erasing one sector. -/
  | flashErase (m : Master) (b : Fin 2)
  /-- FLASH_CLR_INT (R347): A CLR_INT command clears the interrupted-operation record. -/
  | flashClrInt (m : Master) (b : Fin 2)
  /-- FLASH_OPERATION_DONE (R343): A flash operation ends and is verified, setting DONE. -/
  | flashOperationDone (b : Fin 2) (ok : Bool)
  /-- DMA_GO (R353): A write of GO starts an idle or halted channel. -/
  | dmaGo (m : Master) (c : Fin 64) (v : Word)
  /-- DMA_STOP (R353): A write of STOP stops the channel issuing. -/
  | dmaStop (m : Master) (c : Fin 64) (v : Word)
  /-- DMA_TRIGGER (R351): A channel's trigger pennant rises and a line or element moves. -/
  | dmaTrigger (c : Fin 64)
  /-- DMA_RESPONSE (R350): An access response returns, counting elements and firing HALF or FULL. -/
  | dmaResponse (c : Fin 64)
  /-- DRAIN_TIMEOUT (R354): A drain exceeds PW_DRAIN_TIMEOUT and outstanding accesses are abandoned. -/
  | drainTimeout (n : Fin 16)
  /-- QP_PUSH (R364): A read of QP_PUSH pushes the port buffer to the handle's queue. -/
  | qpPush (m : Master) (d p : Fin 16)
  /-- QP_POP (R364): A read of QP_POP pops the oldest entry into the port buffer. -/
  | qpPop (m : Master) (d p : Fin 16)
  /-- QUEUE_CONFIGURE (R362): A write of QM_Qq_CFG configures a queue, reserving cells and advancing its generation. -/
  | queueConfigure (m : Master) (q : Fin 65536) (v : Word)
  /-- QUEUE_OWN (R362): A write of QM_Qq_OWN sets owner and security and resets the queue. -/
  | queueOwn (m : Master) (q : Fin 65536) (v : Word)
  /-- WATERMARK_WRITE (R368): A write of watermarks takes effect from the next cycle. -/
  | watermarkWrite (m : Master) (q : Fin 65536) (v : Word)
  /-- REQUEST_TAKE (R380): Ottar pops a posted packet and checks its header, tag, rights and load. -/
  | requestTake (mb : Fin 1024)
  /-- REQUEST_FRAMING_TIMEOUT (R381): A request queue runs empty mid-packet for 1 ms and is reset. -/
  | requestFramingTimeout (mb : Fin 1024)
  /-- DEADLINE_EXPIRY (R385): A request's deadline passes before execution and it fails EXPIRED. -/
  | deadlineExpiry (mb : Fin 1024)
  /-- RESPONSE_PUSH (R383): Ottar pushes response cells as space allows and fires the mailbox event. -/
  | responsePush (mb : Fin 1024)
  /-- RESPONSE_TIMEOUT (R383): A response cannot complete within 100 ms and its queue is reset. -/
  | responseTimeout (mb : Fin 1024)
  /-- LOAD_UPDATE (R386): Every millisecond MB_LOAD is recomputed. -/
  | loadUpdate (load : Fin 101)
  /-- MP_WATCHDOG (R375): Ottar fails to service the watchdog for 1 ms and the MP resets. -/
  | mpWatchdog
  /-- MP_LOCKSTEP_DISAGREEMENT (R449): The MP lockstep disagrees and recovers or restarts the MP. -/
  | mpLockstepDisagreement (again : Bool)
  /-- RECIPE_STORE_TIMEOUT (R399): An open store sees no RCP_DATA for 10 s and is abandoned. -/
  | recipeStoreTimeout (mb : Fin 1024)
  /-- RECIPE_DIRECT_APPLY (R401): Once a loaded epoch is DONE, Ottar applies DIRECT entries. -/
  | recipeDirectApply
  /-- AUTOSTART_SOURCE_HAUL (R402): The AUTOSTART source pennant rises and Ottar hauls the epoch down. -/
  | autostartSourceHaul
  /-- PORT_SCAN_STEP (R410): A 40 ms scan interval expires and the port tries the next line code. -/
  | portScanStep (p : Fin 4)
  /-- LINK_UP (R435): A port's link comes up. -/
  | linkUp (p : Fin 4)
  /-- LINK_DOWN (R428): A port's link goes down. -/
  | linkDown (p : Fin 4)
  /-- PORT_RETIRE (R428): A port's link stays down too long and it is retired, moving sessions. -/
  | portRetire (p : Fin 4)
  /-- ETH_FRAME_DROP (R411): A frame with an FCS error or foreign type is counted and dropped. -/
  | ethFrameDrop (p : Fin 4) (crc : Bool)
  /-- CYCLE_START (R416): A cycle of the port's grid starts and due cyclic sessions transmit. -/
  | cycleStart (p : Fin 4)
  /-- CYCLE_END_MISS (R418): A cyclic session ends a cycle without an accepted slot and counts a miss. -/
  | cycleEndMiss (ses : Fin 4096)
  /-- CYCLIC_TELEGRAM (R417): A received CYCLIC telegram's slots are accepted into exchange and queues. -/
  | cyclicTelegram (p : Fin 4) (rtag : Option (BitVec 16)) (body : List Byte)
  /-- ACYCLIC_TELEGRAM (R420): A received ACYCLIC telegram is accepted in sequence and delivered by DEST. -/
  | acyclicTelegram (p : Fin 4) (rtag : Option (BitVec 16)) (body : List Byte)
  /-- SCHEDULED_FIRE (R423): At beat N a scheduled FIRE writes FB_FIRE. -/
  | scheduledFire
  /-- SCHEDULED_HAUL (R423): At beat N a scheduled HAUL requests a haul-down. -/
  | scheduledHaul
  /-- SCHEDULED_SNAP (R423): At beat N a scheduled SNAP requests a capture. -/
  | scheduledSnap
  /-- ACK_TELEGRAM (R421): A received ACK releases acknowledged acyclic telegrams. -/
  | ackTelegram (p : Fin 4) (rtag : Option (BitVec 16)) (body : List Byte)
  /-- ACK_TIMEOUT (R421): 500 µs pass without progress and the sender resends go-back-N. -/
  | ackTimeout (ses : Fin 4096)
  /-- DISCOVER_TELEGRAM (R425): A DISCOVER telegram is answered with ANNOUNCE. -/
  | discoverTelegram (p : Fin 4) (body : List Byte)
  /-- JOIN_TELEGRAM (R426): A partner JOIN accepts, rejoins or opens a session. -/
  | joinTelegram (p : Fin 4) (rtag : Option (BitVec 16)) (body : List Byte)
  /-- LEAVE_TELEGRAM (R426): A partner LEAVE closes its session. -/
  | leaveTelegram (p : Fin 4) (rtag : Option (BitVec 16)) (body : List Byte)
  /-- JOIN_RETRY (R426): Every 10 ms an OPENING session resends JOIN. -/
  | joinRetry (ses : Fin 4096)
  /-- HOST_MEMORY_WRITE (R432): A host write TLP is performed as 32-bit accesses in domain 9. -/
  | hostMemoryWrite (win : Fin 3) (off : Word) (whole : Bool) (data : List Word)
  /-- HOST_MEMORY_READ (R432): A host read TLP is performed and completed. -/
  | hostMemoryRead (win : Fin 3) (off : Word) (whole : Bool) (count : Fin 1025)
  /-- MSIX_VECTOR (R433): A vector's pennant rises and an MSI-X message is sent or pended. -/
  | msixVector (v : Fin 64)
  /-- HOST_RESET (R433): PERST_N resets the host port alone. -/
  | hostReset
  /-- HOST_LINK_DOWN (R433): The PCI Express link goes down, losing posted writes. -/
  | hostLinkDown
  /-- CAN_FRAME_RECEIVE (R434): A CAN frame passing a filter is pushed to the receive queue. -/
  | canFrameReceive (k : Fin 4) (frame : CanFrame) (good : Bool) (ago : Word)
  /-- CAN_FRAME_TRANSMIT (R434): A CAN frame from the transmit queue is sent. -/
  | canFrameTransmit (k : Fin 4) (good : Bool)
  /-- UART_RECEIVE (R436): A UART character is received into the FIFO. -/
  | uartReceive (k : Fin 4) (d : BitVec 9) (framing parity : Bool)
  /-- UART_DATA_WRITE (R436): A write of UART_DATA queues a character to send. -/
  | uartDataWrite (m : Master) (k : Fin 4) (v : Word)
  /-- SPI_DATA_WRITE (R436): A write of SPI_DATA queues a frame. -/
  | spiDataWrite (m : Master) (k : Fin 8) (v : Word)
  /-- SPI_PENNANT_START (R436): The SPI start pennant starts a transfer. -/
  | spiPennantStart (k : Fin 8)
  /-- SPI_TRANSFER_DONE (R435): An SPI transfer completes. -/
  | spiTransferDone (k : Fin 8) (rx : Vector Word 32)
  /-- I2C_CMD_WRITE (R436): A write of I2C_CMD starts an I2C transaction. -/
  | i2cCmdWrite (m : Master) (k : Fin 4) (v : Word)
  /-- I2C_DONE (R435): An I2C transaction completes. -/
  | i2cDone (k : Fin 4) (outcome : Fin 4) (rx : List Byte)
  /-- FAULT_REPORT (R453): The collector serves a report, opening or updating a record. -/
  | faultReport (source reporter : Fin 8192) (cause : BitVec 8) (detail : Word)
  /-- FC_ACK (R455): A write of a source acknowledges its record. -/
  | fcAck (m : Master) (v : Word)
  /-- FC_RESTORE (R459): A write of a source starts a restore of that unit. -/
  | fcRestore (m : Master) (v : Word)
  /-- RESTORE_COMPLETE (R459): A restore self-test ends with pass or fail. -/
  | restoreComplete (test : Fin 7)
  /-- FC_RETIRE (R460): A write of a source forces retirement of that unit. -/
  | fcRetire (m : Master) (v : Word)
  /-- CLOCK_FAULT (R447): The crystal or beat PLL fails and the beat runs from the internal oscillator. -/
  | clockFault
  /-- PLL_UNLOCK (R447): An island PLL loses lock and the island's units take a CLOCK hold. -/
  | pllUnlock (n : Fin 16)
  /-- SUPPLY_FAULT (R448): A rail stays outside its window for 1 µs and reports a fault. -/
  | supplyFault (rail : Fin 16) (mv : Word)
  /-- SUPPLY_RECOVERED (R448): A rail stays in its window for 1 ms and the supply condition ends. -/
  | supplyRecovered (rail : Fin 16)
  /-- PW_ISLAND_OFF_WRITE (R466): A write requests powering islands down, deferring or draining. -/
  | pwIslandOffWrite (m : Master) (v : Word)
  /-- ISLAND_POWER_DOWN (R466): After its drain an island is reset and its supply gated. -/
  | islandPowerDown (n : Fin 16)
  /-- PW_ISLAND_ON_WRITE (R467): A write powers islands up and releases their reset. -/
  | pwIslandOnWrite (m : Master) (v : Word)
  /-- PW_ISLAND_RESET_WRITE (R467): A write resets powered islands for 1 µs. -/
  | pwIslandResetWrite (m : Master) (v : Word)
  /-- WATCH_REQUEST (R468): A write of WATCH refuses or runs WATCH entry. -/
  | watchRequest (m : Master) (v : Word)
  /-- WAKE_SOURCE (R469): A wake ball, alarm or pennant acts and wake begins. -/
  | wakeSource (w : WakeSource)
  /-- WAKE_COMPLETE (R471): The device reaches RUN after wake and resumes or reboots. -/
  | wakeComplete (beats : BitVec 64)
  /-- BACKUP_ENTRY (R472): A main rail falls while VBAK holds and the device enters BACKUP. -/
  | backupEntry
  /-- POWER_ON_RESET (R477): Power-on reset resets everything except the VBAK domain. -/
  | powerOnReset (cause : Fin 5) (boot : BitVec 4)
  /-- BOOT_ROM (R480): At reset release the boot ROM selects, verifies and starts a firmware slot or recovery. -/
  | bootRom
  /-- OTTAR_STARTUP (R481): Ottar completes start-up and loads any AUTOSTART recipe. -/
  | ottarStartup
  /-- THERMAL_SAMPLE (R474): A sensor sample updates its threshold levels and CRIT actions. -/
  | thermalSample (sensor : Fin 17) (temp : BitVec 16)
  /-- PW_TEST_WRITE (R486): A write of PW_TEST requests a test-mode change at W + 2. -/
  | pwTestWrite (m : Master) (v : Word)
  /-- TEST_MODE_CHANGE (R486): At beat W + 2 test mode changes device-wide. -/
  | testModeChange
  /-- TRIP_INPUT_INACTIVE (R176): A trip input's source returns to its inactive level, clearing its INPUT bit so that a CYCLE input can release, or a latch can be cleared, at a later boundary. -/
  | tripInputInactive (n : Fin 16) (k : Fin 4) (inp : Fin 8)
  /-- REFERENCE_EDGE (R163): A channel's reference reaches r_on or r_off within a period, changing its outputs after dead time, opening comparator blanking windows, scheduling read-back and giving coupling masters their channel edge. -/
  | referenceEdge (n : Fin 16) (k : Fin 4) (j : Fin 6) (rise : Bool) (fine : Fin 64)
  /-- SD_CLOCK_RESTORED (R214): A modulator clock edge arrives after CLK_LOST and CLK_OK sets again. -/
  | sdClockRestored (n : Fin 16) (d : Fin 4)
  /-- SSI_MONOFLOP_END (R230): The SSI data input goes high while a due frame waits for the monoflop, and the frame starts at tick 0 of the next beat. -/
  | ssiMonoflopEnd (n : Fin 16) (q : Fin 2)
  /-- MP_RESTART_COMPLETE (R375): After an MP reset Ottar runs again, answers TAKEN requests with MP_RESET and serves mailboxes within 40 ms. -/
  | mpRestartComplete
  /-- HOST_LINK_UP (R433): The PCI Express link completes training and HP_LINK.UP, width and speed are set. -/
  | hostLinkUp (lanes speed : Fin 3)
  /-- UART_CHARACTER_SENT (R435): A UART finishes sending a character and, when its FIFO empties, fires its TX_EMPTY line. -/
  | uartCharacterSent (k : Fin 4)
  /-- CLOCK_FAULT_END (R447): The crystal and beat recover from a clock fault, ending the CLOCK hold cause and clearing ACTIVE of the timebase record. -/
  | clockFaultEnd
  /-- WATCH_ENTERED (R468): The last step of WATCH entry completes, islands and central logic fall to retention, and the device sleeps. -/
  | watchEntered
  /-- POR_OUT_RELEASE (R478): POR_OUT_N is released 100 µs after the release of power-on reset. -/
  | porOutRelease
  /-- JTAG_TAP_OPERATION (R485): An IEEE 1149.1 instruction or scan operation on TCK, TMS and TDI acts, and EXTEST and CLAMP drive balls only while RESET_N is low. -/
  | jtagTapOperation (resetLow : Bool) (op : JtagOp)
  /-- CONVERTER_SCALING (R129): Stage 0x10 scales a converter latch into a signal. -/
  | converterScaling (n : Fin 16) (m : Fin 6) (c : Fin 8) (res : Residue)
  /-- SIGMA_DELTA_SCALING (R129): Stage 0x11 scales a demodulator latch into a signal. -/
  | sigmaDeltaScaling (n : Fin 16) (m : Fin 6) (c : Fin 8) (res : Residue)
  /-- ENCODER_DECODE (R129): Stage 0x12 turns an encoder count into a position and velocity. -/
  | encoderDecode (n : Fin 16) (m : Fin 6) (c : Fin 8) (res : Residue)
  /-- SIN_COS_INTERPOLATION (R129): Stage 0x13 interpolates sine and cosine signals into a position. -/
  | sinCosInterpolation (n : Fin 16) (m : Fin 6) (c : Fin 8) (res : Residue)
  /-- RESOLVER_DEMODULATION (R129): Stage 0x14 tracks a resolver angle and speed. -/
  | resolverDemodulation (n : Fin 16) (m : Fin 6) (c : Fin 8) (res : Residue)
  /-- CLARKE (R130): Stage 0x20 computes the Clarke transform. -/
  | clarke (n : Fin 16) (m : Fin 6) (c : Fin 8) (res : Residue)
  /-- INVERSE_CLARKE (R130): Stage 0x21 computes the inverse Clarke transform. -/
  | inverseClarke (n : Fin 16) (m : Fin 6) (c : Fin 8) (res : Residue)
  /-- PARK (R130): Stage 0x22 computes the Park transform. -/
  | park (n : Fin 16) (m : Fin 6) (c : Fin 8) (res : Residue)
  /-- INVERSE_PARK (R130): Stage 0x23 computes the inverse Park transform. -/
  | inversePark (n : Fin 16) (m : Fin 6) (c : Fin 8) (res : Residue)
  /-- SIN_COS (R130): Stage 0x24 computes sine and cosine of an angle. -/
  | sinCos (n : Fin 16) (m : Fin 6) (c : Fin 8) (res : Residue)
  /-- ATAN2 (R130): Stage 0x25 computes atan2 as an angle. -/
  | atan2 (n : Fin 16) (m : Fin 6) (c : Fin 8) (res : Residue)
  /-- MAGNITUDE (R130): Stage 0x26 computes the magnitude of two or three inputs. -/
  | magnitude (n : Fin 16) (m : Fin 6) (c : Fin 8) (res : Residue)
  /-- PI_BACK_CALCULATION (R131): Stage 0x30 runs a PI regulator with back-calculation, optionally in dq form. -/
  | piBackCalculation (n : Fin 16) (m : Fin 6) (c : Fin 8) (res : Residue)
  /-- PID_FILTERED_DERIVATIVE (R131): Stage 0x31 runs a PID regulator with filtered derivative. -/
  | pidFilteredDerivative (n : Fin 16) (m : Fin 6) (c : Fin 8) (res : Residue)
  /-- TWO_DEGREE_OF_FREEDOM_PI (R131): Stage 0x32 runs a two-degree-of-freedom PI regulator. -/
  | twoDegreeOfFreedomPi (n : Fin 16) (m : Fin 6) (c : Fin 8) (res : Residue)
  /-- PROPORTIONAL_RESONANT (R131): Stage 0x33 runs a proportional-resonant regulator. -/
  | proportionalResonant (n : Fin 16) (m : Fin 6) (c : Fin 8) (res : Residue)
  /-- LEAD_LAG (R131): Stage 0x34 runs a lead-lag compensator. -/
  | leadLag (n : Fin 16) (m : Fin 6) (c : Fin 8) (res : Residue)
  /-- FIRST_ORDER_LOW_PASS (R132): Stage 0x40 runs a first-order low-pass filter. -/
  | firstOrderLowPass (n : Fin 16) (m : Fin 6) (c : Fin 8) (res : Residue)
  /-- BIQUAD (R132): Stage 0x41 runs a biquad filter. -/
  | biquad (n : Fin 16) (m : Fin 6) (c : Fin 8) (res : Residue)
  /-- NOTCH (R132): Stage 0x42 runs a notch filter. -/
  | notch (n : Fin 16) (m : Fin 6) (c : Fin 8) (res : Residue)
  /-- MOVING_AVERAGE (R132): Stage 0x43 computes a moving average. -/
  | movingAverage (n : Fin 16) (m : Fin 6) (c : Fin 8) (res : Residue)
  /-- SPEED_OBSERVER (R133): Stage 0x50 estimates speed and position. -/
  | speedObserver (n : Fin 16) (m : Fin 6) (c : Fin 8) (res : Residue)
  /-- FLUX_OBSERVER (R133): Stage 0x51 estimates rotor flux angle and magnitude. -/
  | fluxObserver (n : Fin 16) (m : Fin 6) (c : Fin 8) (res : Residue)
  /-- SYNCHRONOUS_FRAME_PLL (R133): Stage 0x52 runs a synchronous-frame PLL. -/
  | synchronousFramePll (n : Fin 16) (m : Fin 6) (c : Fin 8) (res : Residue)
  /-- SATURATE (R134): Stage 0x60 saturates a signal. -/
  | saturate (n : Fin 16) (m : Fin 6) (c : Fin 8) (res : Residue)
  /-- RATE_LIMIT (R134): Stage 0x61 limits the rate of change of a signal. -/
  | rateLimit (n : Fin 16) (m : Fin 6) (c : Fin 8) (res : Residue)
  /-- CIRCULAR_DQ_LIMIT (R134): Stage 0x62 limits a dq vector to a circle. -/
  | circularDqLimit (n : Fin 16) (m : Fin 6) (c : Fin 8) (res : Residue)
  /-- SINE_TRIANGLE (R135): Stage 0x70 computes sine-triangle duties. -/
  | sineTriangle (n : Fin 16) (m : Fin 6) (c : Fin 8) (res : Residue)
  /-- SPACE_VECTOR (R135): Stage 0x71 computes space-vector duties. -/
  | spaceVector (n : Fin 16) (m : Fin 6) (c : Fin 8) (res : Residue)
  /-- DISCONTINUOUS (R135): Stage 0x72 computes discontinuous PWM duties. -/
  | discontinuous (n : Fin 16) (m : Fin 6) (c : Fin 8) (res : Residue)
  /-- THREE_LEVEL_NPC (R135): Stage 0x73 computes three-level NPC duties. -/
  | threeLevelNpc (n : Fin 16) (m : Fin 6) (c : Fin 8) (res : Residue)
  /-- OVERMODULATION (R135): Stage 0x74 limits a reference to the hexagon. -/
  | overmodulation (n : Fin 16) (m : Fin 6) (c : Fin 8) (res : Residue)
  /-- DEAD_TIME (R136): Stage 0x80 compensates duties for dead time. -/
  | deadTime (n : Fin 16) (m : Fin 6) (c : Fin 8) (res : Residue)
  /-- DC_LINK (R136): Stage 0x81 rescales references for the DC-link voltage. -/
  | dcLink (n : Fin 16) (m : Fin 6) (c : Fin 8) (res : Residue)
  /-- DQ_DECOUPLING (R136): Stage 0x82 adds dq feed-forward decoupling. -/
  | dqDecoupling (n : Fin 16) (m : Fin 6) (c : Fin 8) (res : Residue)
  /-- SHAPER (R143): Stage 0x90 advances a jerk-limited set-point trajectory. -/
  | shaper (n : Fin 16) (m : Fin 6) (c : Fin 8) (res : Residue)
  /-- CAM (R147): Stage 0x91 computes a slave position from a master through a cam table. -/
  | cam (n : Fin 16) (m : Fin 6) (c : Fin 8) (res : Residue)
  /-- GEARING (R152): Stage 0x92 computes an exact geared slave position. -/
  | gearing (n : Fin 16) (m : Fin 6) (c : Fin 8) (res : Residue)
  /-- POSITION_COMPARE_ARM (R239): Stage 0x93 applies position-compare rules to a sampled position. -/
  | positionCompareArm (n : Fin 16) (m : Fin 6) (c : Fin 8) (res : Residue)
  /-- FCS_MPC (R138): Stage 0xA0 evaluates switching candidates in four passes and applies the least cost. -/
  | fcsMpc (n : Fin 16) (m : Fin 6) (c : Fin 8) (res : Residue) (pass : Fin 4)
  /-- RELAY_AUTO_TUNE (R156): Stage 0xA1 passes the regulator output or runs a relay experiment. -/
  | relayAutoTune (n : Fin 16) (m : Fin 6) (c : Fin 8) (res : Residue)
  /-- MOVE (R139): Stage 0xA2 copies words bit for bit. -/
  | move (n : Fin 16) (m : Fin 6) (c : Fin 8) (res : Residue)
  /-- AFFINE (R139): Stage 0xA3 computes an affine law with optional conversion. -/
  | affine (n : Fin 16) (m : Fin 6) (c : Fin 8) (res : Residue)
  /-- TABLE_256_POINT (R139): Stage 0xA4 interpolates a 256-point table. -/
  | table256Point (n : Fin 16) (m : Fin 6) (c : Fin 8) (res : Residue)
  /-- COMPARE_SELECT (R139): Stage 0xA5 compares and selects. -/
  | compareSelect (n : Fin 16) (m : Fin 6) (c : Fin 8) (res : Residue)
  /-- EVENT_EMIT (R139): Stage 0xA6 fires an engine emit event under its mode. -/
  | eventEmit (n : Fin 16) (m : Fin 6) (c : Fin 8) (res : Residue)
  /-- EXCHANGE_TRANSFER (R140): Stage 0xA7 reads or writes an exchange frame in one access. -/
  | exchangeTransfer (n : Fin 16) (m : Fin 6) (c : Fin 8) (res : Residue)
  /-- TIMER_OUTPUT (R141): Stage 0xA8 writes compare words into duty load registers. -/
  | timerOutput (n : Fin 16) (m : Fin 6) (c : Fin 8) (res : Residue)
  /-- ADD (R304): ALU add. -/
  | add (n : Fin 8) (p : Bool) (rd ra rb : Fin 32)
  /-- SUB (R304): ALU subtract. -/
  | sub (n : Fin 8) (p : Bool) (rd ra rb : Fin 32)
  /-- AND (R304): ALU and. -/
  | and (n : Fin 8) (p : Bool) (rd ra rb : Fin 32)
  /-- OR (R304): ALU or. -/
  | or (n : Fin 8) (p : Bool) (rd ra rb : Fin 32)
  /-- XOR (R304): ALU xor. -/
  | xor (n : Fin 8) (p : Bool) (rd ra rb : Fin 32)
  /-- ANDN (R304): ALU and-not. -/
  | andn (n : Fin 8) (p : Bool) (rd ra rb : Fin 32)
  /-- SHL (R304): Shift left by register. -/
  | shl (n : Fin 8) (p : Bool) (rd ra rb : Fin 32)
  /-- SHR (R304): Logical shift right by register. -/
  | shr (n : Fin 8) (p : Bool) (rd ra rb : Fin 32)
  /-- SAR (R304): Arithmetic shift right by register. -/
  | sar (n : Fin 8) (p : Bool) (rd ra rb : Fin 32)
  /-- ROR (R304): Rotate right by register. -/
  | ror (n : Fin 8) (p : Bool) (rd ra rb : Fin 32)
  /-- SHLI (R304): Shift left by immediate. -/
  | shli (n : Fin 8) (p : Bool) (rd ra sh : Fin 32)
  /-- SHRI (R304): Logical shift right by immediate. -/
  | shri (n : Fin 8) (p : Bool) (rd ra sh : Fin 32)
  /-- SARI (R304): Arithmetic shift right by immediate. -/
  | sari (n : Fin 8) (p : Bool) (rd ra sh : Fin 32)
  /-- RORI (R304): Rotate right by immediate. -/
  | rori (n : Fin 8) (p : Bool) (rd ra sh : Fin 32)
  /-- MIN (R304): Signed minimum. -/
  | min (n : Fin 8) (p : Bool) (rd ra rb : Fin 32)
  /-- MAX (R304): Signed maximum. -/
  | max (n : Fin 8) (p : Bool) (rd ra rb : Fin 32)
  /-- MINU (R304): Unsigned minimum. -/
  | minu (n : Fin 8) (p : Bool) (rd ra rb : Fin 32)
  /-- MAXU (R304): Unsigned maximum. -/
  | maxu (n : Fin 8) (p : Bool) (rd ra rb : Fin 32)
  /-- CLZ (R304): Count leading zeros. -/
  | clz (n : Fin 8) (p : Bool) (rd ra : Fin 32)
  /-- POPC (R304): Population count. -/
  | popc (n : Fin 8) (p : Bool) (rd ra : Fin 32)
  /-- BREV (R304): Bit reverse. -/
  | brev (n : Fin 8) (p : Bool) (rd ra : Fin 32)
  /-- BSWAP (R304): Byte swap. -/
  | bswap (n : Fin 8) (p : Bool) (rd ra : Fin 32)
  /-- SEXTB (R304): Sign-extend byte. -/
  | sextb (n : Fin 8) (p : Bool) (rd ra : Fin 32)
  /-- SEXTH (R304): Sign-extend half-word. -/
  | sexth (n : Fin 8) (p : Bool) (rd ra : Fin 32)
  /-- CEQ (R304): Compare equal. -/
  | ceq (n : Fin 8) (p : Bool) (rd ra rb : Fin 32)
  /-- CNE (R304): Compare not equal. -/
  | cne (n : Fin 8) (p : Bool) (rd ra rb : Fin 32)
  /-- CLT (R304): Compare signed less than. -/
  | clt (n : Fin 8) (p : Bool) (rd ra rb : Fin 32)
  /-- CLTU (R304): Compare unsigned less than. -/
  | cltu (n : Fin 8) (p : Bool) (rd ra rb : Fin 32)
  /-- CLE (R304): Compare signed less or equal. -/
  | cle (n : Fin 8) (p : Bool) (rd ra rb : Fin 32)
  /-- CLEU (R304): Compare unsigned less or equal. -/
  | cleu (n : Fin 8) (p : Bool) (rd ra rb : Fin 32)
  /-- ADDSAT (R304): Signed saturating add. -/
  | addsat (n : Fin 8) (p : Bool) (rd ra rb : Fin 32)
  /-- SUBSAT (R304): Signed saturating subtract. -/
  | subsat (n : Fin 8) (p : Bool) (rd ra rb : Fin 32)
  /-- ADDI (R303): Add immediate. -/
  | addi (n : Fin 8) (p : Bool) (rd ra : Fin 32) (imm : BitVec 16)
  /-- ANDI (R303): And with zero-extended immediate. -/
  | andi (n : Fin 8) (p : Bool) (rd ra : Fin 32) (imm : BitVec 16)
  /-- ORI (R303): Or with zero-extended immediate. -/
  | ori (n : Fin 8) (p : Bool) (rd ra : Fin 32) (imm : BitVec 16)
  /-- XORI (R303): Xor with zero-extended immediate. -/
  | xori (n : Fin 8) (p : Bool) (rd ra : Fin 32) (imm : BitVec 16)
  /-- LUI (R303): Load upper immediate. -/
  | lui (n : Fin 8) (p : Bool) (rd : Fin 32) (imm : BitVec 16)
  /-- CMPI (R304): Compare with immediate under COND. -/
  | cmpi (n : Fin 8) (p : Bool) (rd ra : Fin 32) (cond : Fin 8) (imm : BitVec 13)
  /-- MUL (R304): Multiply, low word. -/
  | mul (n : Fin 8) (p : Bool) (rd ra rb : Fin 32)
  /-- MULH (R304): Multiply signed, high word. -/
  | mulh (n : Fin 8) (p : Bool) (rd ra rb : Fin 32)
  /-- MULHU (R304): Multiply unsigned, high word. -/
  | mulhu (n : Fin 8) (p : Bool) (rd ra rb : Fin 32)
  /-- MULHSU (R304): Multiply signed by unsigned, high word. -/
  | mulhsu (n : Fin 8) (p : Bool) (rd ra rb : Fin 32)
  /-- DIV (R279): Signed divide as a long operation. -/
  | div (n : Fin 8) (p : Bool) (rd ra rb : Fin 32)
  /-- DIVU (R279): Unsigned divide as a long operation. -/
  | divu (n : Fin 8) (p : Bool) (rd ra rb : Fin 32)
  /-- REM (R279): Signed remainder as a long operation. -/
  | rem (n : Fin 8) (p : Bool) (rd ra rb : Fin 32)
  /-- REMU (R279): Unsigned remainder as a long operation. -/
  | remu (n : Fin 8) (p : Bool) (rd ra rb : Fin 32)
  /-- FDIV (R304): Floating-point divide as a long operation. -/
  | fdiv (n : Fin 8) (p : Bool) (rd ra rb : Fin 32)
  /-- FSQRT (R304): Floating-point square root as a long operation. -/
  | fsqrt (n : Fin 8) (p : Bool) (rd ra : Fin 32)
  /-- LONG_OPERATION_COMPLETE (R292): A divide, square root or block transfer completes and its interlocks release. -/
  | longOperationComplete (n : Fin 8) (unit : Fin 3)
  /-- FADD (R305): Floating-point add. -/
  | fadd (n : Fin 8) (p : Bool) (rd ra rb : Fin 32)
  /-- FSUB (R305): Floating-point subtract. -/
  | fsub (n : Fin 8) (p : Bool) (rd ra rb : Fin 32)
  /-- FMUL (R305): Floating-point multiply. -/
  | fmul (n : Fin 8) (p : Bool) (rd ra rb : Fin 32)
  /-- FMIN (R305): Floating-point minNum. -/
  | fmin (n : Fin 8) (p : Bool) (rd ra rb : Fin 32)
  /-- FMAX (R305): Floating-point maxNum. -/
  | fmax (n : Fin 8) (p : Bool) (rd ra rb : Fin 32)
  /-- FABS (R305): Floating-point absolute value. -/
  | fabs (n : Fin 8) (p : Bool) (rd ra : Fin 32)
  /-- FNEG (R305): Floating-point negate. -/
  | fneg (n : Fin 8) (p : Bool) (rd ra : Fin 32)
  /-- FCEQ (R305): Floating-point compare equal. -/
  | fceq (n : Fin 8) (p : Bool) (rd ra rb : Fin 32)
  /-- FCLT (R305): Floating-point compare less than. -/
  | fclt (n : Fin 8) (p : Bool) (rd ra rb : Fin 32)
  /-- FCLE (R305): Floating-point compare less or equal. -/
  | fcle (n : Fin 8) (p : Bool) (rd ra rb : Fin 32)
  /-- FCUN (R305): Floating-point compare unordered. -/
  | fcun (n : Fin 8) (p : Bool) (rd ra rb : Fin 32)
  /-- FCVTWS (R305): Convert binary32 to int32. -/
  | fcvtws (n : Fin 8) (p : Bool) (rd ra : Fin 32)
  /-- FCVTWUS (R305): Convert binary32 to uint32. -/
  | fcvtwus (n : Fin 8) (p : Bool) (rd ra : Fin 32)
  /-- FCVTSW (R305): Convert int32 to binary32. -/
  | fcvtsw (n : Fin 8) (p : Bool) (rd ra : Fin 32)
  /-- FCVTSWU (R305): Convert uint32 to binary32. -/
  | fcvtswu (n : Fin 8) (p : Bool) (rd ra : Fin 32)
  /-- FMVGF (R305): Copy bits from f to g register. -/
  | fmvgf (n : Fin 8) (p : Bool) (rd ra : Fin 32)
  /-- FMVFG (R305): Copy bits from g to f register. -/
  | fmvfg (n : Fin 8) (p : Bool) (rd ra : Fin 32)
  /-- FMADD (R305): Fused multiply-add. -/
  | fmadd (n : Fin 8) (p : Bool) (fd fa fb fc : Fin 32)
  /-- FMSUB (R305): Fused multiply-subtract. -/
  | fmsub (n : Fin 8) (p : Bool) (fd fa fb fc : Fin 32)
  /-- FNMSUB (R305): Fused negated multiply-subtract. -/
  | fnmsub (n : Fin 8) (p : Bool) (fd fa fb fc : Fin 32)
  /-- FNMADD (R305): Fused negated multiply-add. -/
  | fnmadd (n : Fin 8) (p : Bool) (fd fa fb fc : Fin 32)
  /-- LD (R306): Load a byte, half-word or word under an addressing mode. -/
  | ld (n : Fin 8) (p : Bool) (rd ra : Fin 32) (am size : Fin 4) (sign : Bool) (f : BitVec 11)
  /-- ST (R306): Store a byte, half-word or word under an addressing mode. -/
  | st (n : Fin 8) (p : Bool) (rd ra : Fin 32) (am size : Fin 4) (sign : Bool) (f : BitVec 11)
  /-- FLD (R306): Load an f register. -/
  | fld (n : Fin 8) (p : Bool) (rd ra : Fin 32) (am size : Fin 4) (sign : Bool) (f : BitVec 11)
  /-- FST (R306): Store an f register. -/
  | fst (n : Fin 8) (p : Bool) (rd ra : Fin 32) (am size : Fin 4) (sign : Bool) (f : BitVec 11)
  /-- LDM (R293): Load multiple registers as a long operation. -/
  | ldm (n : Fin 8) (p : Bool) (ra rm : Fin 32) (dir wb fp : Bool)
  /-- STM (R293): Store multiple registers as a long operation. -/
  | stm (n : Fin 8) (p : Bool) (ra rm : Fin 32) (dir wb fp : Bool)
  /-- BZ (R303): Branch if register zero. -/
  | bz (n : Fin 8) (p : Bool) (ra : Fin 32) (off : BitVec 21)
  /-- BNZ (R303): Branch if register non-zero. -/
  | bnz (n : Fin 8) (p : Bool) (ra : Fin 32) (off : BitVec 21)
  /-- J (R302): Jump. -/
  | j (n : Fin 8) (p : Bool) (off : BitVec 26)
  /-- CALL (R283): Call, pushing the return address on the return stack. -/
  | call (n : Fin 8) (p : Bool) (off : BitVec 26)
  /-- JR (R307): Jump to register. -/
  | jr (n : Fin 8) (p : Bool) (ra : Fin 32)
  /-- CALLR (R283): Call through register. -/
  | callr (n : Fin 8) (p : Bool) (ra : Fin 32)
  /-- RET (R283): Return from the return stack. -/
  | ret (n : Fin 8) (p : Bool)
  /-- RETX (R323): Exception return restoring the frame and re-issuing entries. -/
  | retx (n : Fin 8) (p : Bool)
  /-- MFCR (R307): Move from a control register. -/
  | mfcr (n : Fin 8) (p : Bool) (rd : Fin 32) (cr : BitVec 8)
  /-- MTCR (R296): Move to a control register, waiting for results to land. -/
  | mtcr (n : Fin 8) (p : Bool) (cr : BitVec 8) (ra : Fin 32)
  /-- FENCE (R300): Wait until every earlier access has taken effect. -/
  | fence (n : Fin 8) (p : Bool)
  /-- IFENCE (R301): Synchronise instruction fetch with earlier stores. -/
  | ifence (n : Fin 8) (p : Bool)
  /-- ICINV (R307): Invalidate one instruction-cache line. -/
  | icinv (n : Fin 8) (p : Bool) (ra : Fin 32)
  /-- DCINV (R307): Invalidate one data-cache line. -/
  | dcinv (n : Fin 8) (p : Bool) (ra : Fin 32)
  /-- ICINVALL (R307): Invalidate the whole instruction cache. -/
  | icinvall (n : Fin 8) (p : Bool)
  /-- DCINVALL (R307): Invalidate the whole data cache. -/
  | dcinvall (n : Fin 8) (p : Bool)
  /-- TRAP (R317): Raise a software exception. -/
  | trap (n : Fin 8) (p : Bool) (imm : BitVec 8)
  /-- WAIT (R327): Yield to the scheduler or clear PEND. -/
  | wait (n : Fin 8) (p : Bool)
  /-- MFB (R332): Move a register from the bank window's slot. -/
  | mfb (n : Fin 8) (p : Bool) (rg : Fin 32) (cls : Fin 4) (num : Fin 64)
  /-- MTB (R332): Move a register into the bank window's slot. -/
  | mtb (n : Fin 8) (p : Bool) (rg : Fin 32) (cls : Fin 4) (num : Fin 64)
  /-- SYS_IDENT (R392): Command 0x0101 returns family registers, versions and serial. -/
  | sysIdent (mb : Fin 1024)
  /-- SYS_STATE (R392): Command 0x0102 returns load, faults, AUTOSTART and beat count. -/
  | sysState (mb : Fin 1024)
  /-- SYS_SAFE (R392): Command 0x0103 imposes a COMMAND system hold on timer units. -/
  | sysSafe (mb : Fin 1024)
  /-- SYS_RESET (R392): Command 0x0104 resets islands or the device. -/
  | sysReset (mb : Fin 1024)
  /-- CFG_READ (R393): Command 0x0201 reads words. -/
  | cfgRead (mb : Fin 1024)
  /-- CFG_WRITE (R393): Command 0x0202 writes address and value pairs. -/
  | cfgWrite (mb : Fin 1024)
  /-- CFG_ALLOC (R393): Command 0x0203 allocates resources to a domain. -/
  | cfgAlloc (mb : Fin 1024)
  /-- CFG_FREE (R393): Command 0x0204 returns resources to domain 0. -/
  | cfgFree (mb : Fin 1024)
  /-- CFG_ASSIGN (R393): Command 0x0205 writes an ownership register. -/
  | cfgAssign (mb : Fin 1024)
  /-- CFG_MAILBOX (R393): Command 0x0206 enables or disables a mailbox. -/
  | cfgMailbox (mb : Fin 1024)
  /-- EPOCH_OPEN (R394): Command 0x0301 opens an epoch for the requester. -/
  | epochOpen (mb : Fin 1024)
  /-- EPOCH_STAGE (R394): Command 0x0302 reads back staged islands and closes the epoch. -/
  | epochStage (mb : Fin 1024)
  /-- EPOCH_HAUL (R394): Command 0x0303 requests a haul-down. -/
  | epochHaul (mb : Fin 1024)
  /-- EPOCH_ABANDON (R394): Command 0x0304 abandons an epoch. -/
  | epochAbandon (mb : Fin 1024)
  /-- EPOCH_STATUS (R394): Command 0x0305 returns the four slot states. -/
  | epochStatus (mb : Fin 1024)
  /-- RCP_BEGIN (R399): Command 0x0401 opens a recipe record in the store. -/
  | rcpBegin (mb : Fin 1024)
  /-- RCP_DATA (R395): Command 0x0402 programs record body bytes in order. -/
  | rcpData (mb : Fin 1024) (verify : Bool)
  /-- RCP_COMMIT (R399): Command 0x0403 parses and commits a record with its checksum. -/
  | rcpCommit (mb : Fin 1024) (verify : Bool)
  /-- RCP_LOAD (R401): Command 0x0404 stages a recipe into an epoch and acts on MODE. -/
  | rcpLoad (mb : Fin 1024)
  /-- RCP_HAUL (R395): Command 0x0405 hauls down or abandons a loaded epoch. -/
  | rcpHaul (mb : Fin 1024)
  /-- RCP_LIST (R395): Command 0x0406 lists committed records. -/
  | rcpList (mb : Fin 1024)
  /-- RCP_DELETE (R399): Command 0x0407 commits a tombstone for a recipe. -/
  | rcpDelete (mb : Fin 1024) (verify : Bool)
  /-- CAL_RUN (R396): Command 0x0501 calibrates named converter cores in parallel. -/
  | calRun (mb : Fin 1024)
  /-- CAL_SAVE (R396): Command 0x0502 returns calibration factors. -/
  | calSave (mb : Fin 1024)
  /-- CAL_RESTORE (R396): Command 0x0503 writes calibration factors. -/
  | calRestore (mb : Fin 1024)
  /-- TUNE_START (R155): Command 0x0601 starts a relay auto-tune experiment. -/
  | tuneStart (mb : Fin 1024)
  /-- TUNE_POLL (R396): Every 1 ms Ottar reads S1 and responds once the experiment ends. -/
  | tunePoll (mb : Fin 1024)
  /-- TUNE_CANCEL (R396): Command 0x0602 cancels an experiment. -/
  | tuneCancel (mb : Fin 1024)
  /-- NET_PORT (R396): Command 0x0701 configures an Ethernet port. -/
  | netPort (mb : Fin 1024)
  /-- NET_SESSION_OPEN (R396): Command 0x0702 opens a partner session. -/
  | netSessionOpen (mb : Fin 1024)
  /-- NET_SESSION_CLOSE (R396): Command 0x0703 closes a partner session. -/
  | netSessionClose (mb : Fin 1024)
  /-- NET_GCL (R396): Command 0x0704 loads a port's gate control list and cyclic grid. -/
  | netGcl (mb : Fin 1024)
  /-- NET_STATUS (R396): Command 0x0705 returns port status and counts. -/
  | netStatus (mb : Fin 1024)
  /-- DIAG_FAULTS (R397): Command 0x0801 returns fault records. -/
  | diagFaults (mb : Fin 1024)
  /-- DIAG_ACK (R397): Command 0x0802 acknowledges a fault record. -/
  | diagAck (mb : Fin 1024)
  /-- DIAG_RETIRE (R397): Command 0x0803 forces retirement of an engine or converter. -/
  | diagRetire (mb : Fin 1024)
  /-- DIAG_RESTORE (R397): Command 0x0804 runs a restore of a retired unit. -/
  | diagRestore (mb : Fin 1024)
  /-- DIAG_SNAPSHOT (R390): Command 0x0805 captures a snapshot in domain 0. -/
  | diagSnapshot (mb : Fin 1024)
  /-- DIAG_DRAIN (R397): Command 0x0806 pops cells from a queue. -/
  | diagDrain (mb : Fin 1024)
  /-- FW_BEGIN (R405): Command 0x0901 erases the standby firmware slot. -/
  | fwBegin (mb : Fin 1024) (verify : Bool)
  /-- FW_DATA (R405): Command 0x0902 programs firmware image bytes in order. -/
  | fwData (mb : Fin 1024) (verify : Bool)
  /-- FW_VERIFY (R405): Command 0x0903 checks signature, hash and rollback. -/
  | fwVerify (mb : Fin 1024)
  /-- FW_ACTIVATE (R405): Command 0x0904 programs TRIAL and may reset. -/
  | fwActivate (mb : Fin 1024) (verify : Bool)
  /-- FW_COMMIT (R405): Command 0x0905 commits the trial slot and raises the rollback count. -/
  | fwCommit (mb : Fin 1024) (verify : Bool)
  /-- FW_STATUS (R397): Command 0x0906 returns slot versions and markers. -/
  | fwStatus (mb : Fin 1024)
  /-- TIME_GET (R397): Command 0x0A01 returns calendar and discipline state. -/
  | timeGet (mb : Fin 1024)
  /-- TIME_SET (R397): Command 0x0A02 loads the calendar and UTC offset. -/
  | timeSet (mb : Fin 1024)
  /-- TIME_DISC (R397): Command 0x0A03 sets the discipline mode. -/
  | timeDisc (mb : Fin 1024)
  /-- TIME_ALARM (R397): Command 0x0A04 configures and arms an alarm. -/
  | timeAlarm (mb : Fin 1024)
  /-- SEC_RIGHTS (R397): Command 0x0B01 sets a domain's rights and security. -/
  | secRights (mb : Fin 1024)
  /-- SEC_CHALLENGE (R406): Command 0x0B02 issues a debug unlock nonce. -/
  | secChallenge (mb : Fin 1024)
  /-- SEC_UNLOCK (R406): Command 0x0B03 verifies a signature and unlocks debug. -/
  | secUnlock (mb : Fin 1024)
  /-- SEC_LOCK (R406): Command 0x0B04 relocks debug. -/
  | secLock (mb : Fin 1024)
deriving DecidableEq, Repr

end Sys2Proof
end

