-- ==== Sys2Proof/Decode.lean ====
section
/-!
DEFINITION. Commands by their bits: the command table gives none of its rows bits.
-/
namespace Sys2Proof

/-- The command that a word spells by the table's bits. The table gives no row any. -/
def decodeTableWord (_nbits _w : Nat) : Option Instr := none

end Sys2Proof
end

