-- ==== Sys2Proof/Config.lean ====
section
/-!
DEFINITION. What an implementation fixes and the values the spec leaves open. None of these constants has a body: a
claim that holds of the model holds whatever they are.
-/
namespace Sys2Proof.Config

/-- The n-th value that the spec leaves open; `State.freeCtr` counts how many have been taken (log entry 3). -/
opaque freeWord : Nat → Word

/-- The sine that a loop engine gives for an angle, where it lies within the bound of R130 (log entry 14). -/
opaque sinRaw : Word → Word

/-- The cosine, as `sinRaw`. -/
opaque cosRaw : Word → Word

/-- The angle that a loop engine gives for atan2 of two words, where it lies within the bound of R130. -/
opaque atanRaw : Word → Word → Word

/-- Sign and payload of a NaN that an operation of the loop engines produces (R83). -/
opaque nanBits : Word → Word → Word

/-- A result of a stage that the spec does not state, by stage type, output and operands (log entry 15). -/
opaque openResult : Nat → Nat → Word → Word → Word

/-- SHA-256 of a byte string (R404, R406). -/
opaque sha256 : List Byte → List Byte

/-- ECDSA P-256 verification (R404, R406): public key as x then y, message digest, signature r then s. -/
opaque ecdsaVerifies : List Byte → List Byte → List Byte → Bool

/-- The vendor key, whose SHA-256 stands in OTP (R404). -/
opaque vendorKey : List Byte

/-- The debug key hash in OTP (R406). -/
opaque debugKeyHash : List Byte

/-- The boot ROM's bytes (R28). -/
opaque bootRom : Nat → Byte

/-- The device's serial number (R392). -/
opaque serialNumber : Nat

/-- Yunaweten's PCI vendor ID (R440). -/
opaque pciVendorId : BitVec 16

/-- The version of the resident Ottar (R392). -/
opaque ottarVersion : Word

/-- The JTAG IDCODE's version and manufacturer fields (R485). -/
opaque idcode : Word

/-- Levels that the VDDIO banks latch at power-on reset (R501). -/
opaque ioLevels : BitVec 5

/-- The cores detect underflow after rounding; before it otherwise (R280; log entry 24). -/
opaque tinyAfterRounding : Bool

/-- FCLT and FCLE raise NV on a quiet NaN (R280, R305). -/
opaque compareSignals : Bool

/-- A fused multiply-add of infinity times zero and a quiet NaN raises NV (R280). -/
opaque fmaSignals : Bool

/-- FMIN and FMAX of two zeros of different sign give the first (R280). -/
opaque firstZero : Word → Word → Bool

/-- Number of index bits of BITREV where Mk_LEN holds no element, by Mk_LEN and size (R287). -/
opaque bitrevBits : Nat → Nat → Nat

end Sys2Proof.Config
end

