-- ==== Sys2Proof/Machine/Bits.lean ====
section
/-!
DEFINITION. Bit fields, signed readings and byte order. Bit 0 is the least significant bit, ranges are written
[hi:lo], and multi-byte data is little-endian (R5).
-/
namespace Sys2Proof.Machine

/-- The word whose value is `n` modulo 2^32. -/
def w32 (n : Nat) : Word := BitVec.ofNat 32 n

/-- Bit `i` of a word. -/
def bit (w : Word) (i : Nat) : Bool := w.getLsbD i

/-- Field [hi:lo] of a word, as a number. -/
def fld (w : Word) (hi lo : Nat) : Nat := (w.toNat >>> lo) % 2 ^ (hi + 1 - lo)

/-- Field [hi:lo] of a number. -/
def nfld (n hi lo : Nat) : Nat := (n >>> lo) % 2 ^ (hi + 1 - lo)

/-- The mask with ones in [hi:lo]. -/
def maskW (hi lo : Nat) : Word := w32 ((2 ^ (hi + 1 - lo) - 1) <<< lo)

/-- `w` with field [hi:lo] replaced by `v`. -/
def setFld (w : Word) (hi lo v : Nat) : Word :=
  (w &&& ~~~ maskW hi lo) ||| (w32 ((v % 2 ^ (hi + 1 - lo)) <<< lo))

/-- `w` with bit `i` set to `b`. -/
def setBit (w : Word) (i : Nat) (b : Bool) : Word := setFld w i i (if b then 1 else 0)

/-- A word with one bit set. -/
def bitW (i : Nat) : Word := w32 (2 ^ i)

/-- 1 for true. -/
def b2n (b : Bool) : Nat := if b then 1 else 0

/-- `v` in [hi:lo], zero elsewhere. -/
def at_ (v lo : Nat) : Nat := v <<< lo

/-- The low `n` bits of `v` read as a two's complement number. -/
def sextN (n v : Nat) : Int :=
  let m := v % 2 ^ n
  if m < 2 ^ (n - 1) then m else (m : Int) - 2 ^ n

/-- A word as a two's complement number. -/
def sInt (w : Word) : Int := w.toInt

/-- The word of an integer, modulo 2^32. -/
def wOfInt (i : Int) : Word := BitVec.ofInt 32 i

/-- An integer modulo 2^64. -/
def n64OfInt (i : Int) : Nat := (BitVec.ofInt 64 i).toNat

/-- Low word of a 64-bit value. -/
def lo64 (n : Nat) : Word := w32 n

/-- High word of a 64-bit value. -/
def hi64 (n : Nat) : Word := w32 (n >>> 32)

/-- The 64-bit value of two words (R7). -/
def pair64 (hi lo : Word) : Nat := hi.toNat * 2 ^ 32 + lo.toNat

/-- 64-bit wrap. -/
def wrap64 (n : Nat) : Nat := n % 2 ^ 64

/-- A 64-bit number read as two's complement. -/
def s64 (n : Nat) : Int := sextN 64 n

/-- Saturation of a count at a field's largest value. -/
def satTo (m n : Nat) : Nat := if n ≤ m then n else m

/-- Clamp of an integer. -/
def clampI (lo hi x : Int) : Int := if x < lo then lo else if hi < x then hi else x

/-- The four bytes of a word, little-endian (R5). -/
def bytesOfWord (w : Word) : List Byte :=
  [w.extractLsb' 0 8, w.extractLsb' 8 8, w.extractLsb' 16 8, w.extractLsb' 24 8]

/-- The number of a list of bytes, little-endian (R5). -/
def leNat : List Byte → Nat
  | [] => 0
  | b :: r => b.toNat + 256 * leNat r

/-- The word of up to four bytes, little-endian (R5). -/
def wordOfBytes (l : List Byte) : Word := w32 (leNat l)

/-- The numbers `0 … n-1` for which `p` holds. -/
def indicesWhere (n : Nat) (p : Nat → Bool) : List Nat := (List.range n).filter p

/-- The word whose bit `i` (below 32) is `p i`. -/
def wordOfBits (p : Nat → Bool) : Word :=
  w32 ((List.range 32).foldl (fun a i => a + (if p i then 2 ^ i else 0)) 0)

end Sys2Proof.Machine
end

