-- ==== Sys2Proof/Machine/RegMap.lean ====
section
/-!
DEFINITION. The register map: the address of every register (namespace `R`, the spec's register names) and, block
by block, one row per register with its access code (R4), its reset value and the bits software may write. The
rows follow the register tables of the spec: R1, R20, R21, R27, R54, R80, R114, R116, R190, R221, R223, R245,
R247, R275, R276, R314, R335, R356, R357, R358, R372, R408, R434, R438, R440, R462, R488, R514.
-/
namespace Sys2Proof.Machine

/-- Access codes of R4. `hs` is the high shadow of a wide value. -/
inductive Access where
  | rw | ro | wo | sc | ll | hs | eb | ow
deriving DecidableEq, Repr

/-- One register, or an array of them: first offset in its block, strides and counts (largest stride first), access
code, reset value, and the bits a write can change. -/
structure RegRow where
  off : Nat
  dims : List (Nat × Nat)
  access : Access
  reset : Word
  wmask : Word
deriving DecidableEq, Repr

namespace R
/-- 00, R1. -/
def SYS_FAMILY0 : Nat := 0x5D000010
/-- 00, R1. -/
def SYS_FAMILY1 : Nat := 0x5D000014
/-- 00, R1. -/
def SYS_FAMILY2 : Nat := 0x5D000018
/-- 00, R1. -/
def SYS_FAMILY3 : Nat := 0x5D00001C
/-- 01, R27. -/
def XM_STAMP : Nat := 0x5D001000
/-- 01, R27. -/
def XM_STATUS : Nat := 0x5D001004
/-- 01, R27. -/
def XM_FAULT_ADDR : Nat := 0x5D001008
/-- 01, R27. -/
def XM_FRAME_CFGf (a : Nat) : Nat := 0x5D002000 + 0x8 * a
/-- 01, R27. -/
def XM_FRAME_GENf (a : Nat) : Nat := 0x5D002004 + 0x8 * a
/-- 02, R54. -/
def TB_OWNER : Nat := 0x57000000
/-- 02, R54. -/
def TB_BEAT_LO : Nat := 0x57000010
/-- 02, R54. -/
def TB_BEAT_HI : Nat := 0x57000014
/-- 02, R54. -/
def TB_DT_LO : Nat := 0x57000018
/-- 02, R54. -/
def TB_DT_HI : Nat := 0x5700001C
/-- 02, R54. -/
def TB_STEP_LO : Nat := 0x57000020
/-- 02, R54. -/
def TB_STEP_HI : Nat := 0x57000024
/-- 02, R54. -/
def TB_RATE : Nat := 0x57000028
/-- 02, R54. -/
def TB_DISC : Nat := 0x5700002C
/-- 02, R54. -/
def TB_STATUS : Nat := 0x57000030
/-- 02, R54. -/
def TB_POLICY : Nat := 0x57000034
/-- 02, R54. -/
def TB_START_MASK0 : Nat := 0x57000040
/-- 02, R54. -/
def TB_START_MASK1 : Nat := 0x57000044
/-- 02, R54. -/
def TB_START_GO : Nat := 0x57000048
/-- 02, R54. -/
def TB_START_CANCEL : Nat := 0x5700004C
/-- 02, R54. -/
def TB_START_AT_LO : Nat := 0x57000050
/-- 02, R54. -/
def TB_START_AT_HI : Nat := 0x57000054
/-- 02, R54. -/
def TB_START_STATE : Nat := 0x57000058
/-- 02, R54. -/
def TB_REQ_BEAT_LO : Nat := 0x57000060
/-- 02, R54. -/
def TB_REQ_BEAT_HI : Nat := 0x57000064
/-- 02, R54. -/
def TB_ISLAND_SYNC : Nat := 0x57000068
/-- 02, R54. -/
def CAL_OWNER : Nat := 0x57000400
/-- 02, R54. -/
def CAL_NOW_LO : Nat := 0x57000410
/-- 02, R54. -/
def CAL_NOW_HI : Nat := 0x57000414
/-- 02, R54. -/
def CAL_SET_LO : Nat := 0x57000418
/-- 02, R54. -/
def CAL_SET_HI : Nat := 0x5700041C
/-- 02, R54. -/
def CAL_UTC_OFFSET : Nat := 0x57000420
/-- 02, R54. -/
def CAL_LEAP_AT : Nat := 0x57000424
/-- 02, R54. -/
def CAL_STATUS : Nat := 0x57000428
/-- 02, R54. -/
def CAL_VALID : Nat := 0x5700042C
/-- 02, R54. -/
def CAL_PAIR_DT_LO : Nat := 0x57000430
/-- 02, R54. -/
def CAL_PAIR_DT_HI : Nat := 0x57000434
/-- 02, R54. -/
def CAL_PAIR_SEC : Nat := 0x57000438
/-- 02, R54. -/
def CAL_ALARMa_SEC (a : Nat) : Nat := 0x57000440 + 0x10 * a
/-- 02, R54. -/
def CAL_ALARMa_CTRL (a : Nat) : Nat := 0x57000444 + 0x10 * a
/-- 02, R54. -/
def CAL_ALARMa_INTERVAL (a : Nat) : Nat := 0x57000448 + 0x10 * a
/-- 02, R54. -/
def CAL_BRAMw (a : Nat) : Nat := 0x57001000 + 0x4 * a
/-- 03, R80. -/
def EP_OWNER : Nat := 0x56000000
/-- 03, R80. -/
def EP_OPEN : Nat := 0x56000010
/-- 03, R80. -/
def EP_STAGE : Nat := 0x56000014
/-- 03, R80. -/
def EP_ABANDON : Nat := 0x56000018
/-- 03, R80. -/
def EP_HAUL_GO : Nat := 0x5600001C
/-- 03, R80. -/
def EP_POLICY : Nat := 0x56000020
/-- 03, R80. -/
def EP_STATUS : Nat := 0x56000024
/-- 03, R80. -/
def EP_CONFLICT_ADDR : Nat := 0x56000028
/-- 03, R80. -/
def EP_CONFLICT_INFO : Nat := 0x5600002C
/-- 03, R80. -/
def EP_ERROR_ADDR : Nat := 0x56000030
/-- 03, R80. -/
def EP_SLOTs_STATE (a : Nat) : Nat := 0x56000100 + 0x20 * a
/-- 03, R80. -/
def EP_SLOTs_AT_LO (a : Nat) : Nat := 0x56000104 + 0x20 * a
/-- 03, R80. -/
def EP_SLOTs_AT_HI (a : Nat) : Nat := 0x56000108 + 0x20 * a
/-- 03, R80. -/
def EP_SLOTs_ENTRIES (a : Nat) : Nat := 0x5600010C + 0x20 * a
/-- 03, R80. -/
def EP_SLOTs_RESULT (a : Nat) : Nat := 0x56000110 + 0x20 * a
/-- 03, R80. -/
def EP_SLOTs_PENDING (a : Nat) : Nat := 0x56000114 + 0x20 * a
/-- 03, R80. -/
def SN_OWNER : Nat := 0x56000400
/-- 03, R80. -/
def SN_COUNT : Nat := 0x56000410
/-- 03, R80. -/
def SN_POLICY : Nat := 0x56000414
/-- 03, R80. -/
def SN_AT_LO : Nat := 0x56000418
/-- 03, R80. -/
def SN_AT_HI : Nat := 0x5600041C
/-- 03, R80. -/
def SN_GO : Nat := 0x56000420
/-- 03, R80. -/
def SN_CANCEL : Nat := 0x56000424
/-- 03, R80. -/
def SN_LOAD : Nat := 0x56000428
/-- 03, R80. -/
def SN_STATE : Nat := 0x5600042C
/-- 03, R80. -/
def SN_STATUS : Nat := 0x56000430
/-- 03, R80. -/
def SN_BEAT_LO : Nat := 0x56000434
/-- 03, R80. -/
def SN_BEAT_HI : Nat := 0x56000438
/-- 04, R114. -/
def LE_OWNER (a b : Nat) : Nat := 0x40018000 + 0x1000000 * a + 0x20000 * b
/-- 04, R114. -/
def LE_RUN (a b : Nat) : Nat := 0x40018010 + 0x1000000 * a + 0x20000 * b
/-- 04, R114. -/
def LE_STATE (a b : Nat) : Nat := 0x40018014 + 0x1000000 * a + 0x20000 * b
/-- 04, R114. -/
def LE_STATUS (a b : Nat) : Nat := 0x40018018 + 0x1000000 * a + 0x20000 * b
/-- 04, R114. -/
def LE_TRANSIENTS (a b : Nat) : Nat := 0x4001801C + 0x1000000 * a + 0x20000 * b
/-- 04, R114. -/
def LE_FAULT_INFO (a b : Nat) : Nat := 0x40018020 + 0x1000000 * a + 0x20000 * b
/-- 04, R114. -/
def LE_CTXc_TRIG (a b c : Nat) : Nat := 0x40018100 + 0x1000000 * a + 0x20000 * b + 0x40 * c
/-- 04, R114. -/
def LE_CTXc_CHAIN (a b c : Nat) : Nat := 0x40018104 + 0x1000000 * a + 0x20000 * b + 0x40 * c
/-- 04, R114. -/
def LE_CTXc_TIMING (a b c : Nat) : Nat := 0x40018108 + 0x1000000 * a + 0x20000 * b + 0x40 * c
/-- 04, R114. -/
def LE_CTXc_WAIT (a b c : Nat) : Nat := 0x4001810C + 0x1000000 * a + 0x20000 * b + 0x40 * c
/-- 04, R114. -/
def LE_CTXc_WAIT_AC (a b c : Nat) : Nat := 0x40018110 + 0x1000000 * a + 0x20000 * b + 0x40 * c
/-- 04, R114. -/
def LE_CTXc_STATUS (a b c : Nat) : Nat := 0x40018114 + 0x1000000 * a + 0x20000 * b + 0x40 * c
/-- 04, R114. -/
def LE_CTXc_COUNT (a b c : Nat) : Nat := 0x40018118 + 0x1000000 * a + 0x20000 * b + 0x40 * c
/-- 04, R114. -/
def LE_CTXc_LAT (a b c : Nat) : Nat := 0x4001811C + 0x1000000 * a + 0x20000 * b + 0x40 * c
/-- 04, R114. -/
def LE_CTXc_FIXED (a b c : Nat) : Nat := 0x40018120 + 0x1000000 * a + 0x20000 * b + 0x40 * c
/-- 04, R116. -/
def IC_LE_SUBST (a : Nat) : Nat := 0x40260100 + 0x1000000 * a
/-- 04, R116. -/
def IC_LE_RETIRED (a : Nat) : Nat := 0x40260104 + 0x1000000 * a
/-- 07, R190. -/
def TU_OWNER (a b : Nat) : Nat := 0x40200000 + 0x1000000 * a + 0x1000 * b
/-- 07, R190. -/
def TU_CTRL (a b : Nat) : Nat := 0x40200010 + 0x1000000 * a + 0x1000 * b
/-- 07, R190. -/
def TU_CFG (a b : Nat) : Nat := 0x40200014 + 0x1000000 * a + 0x1000 * b
/-- 07, R190. -/
def TU_PERIOD (a b : Nat) : Nat := 0x40200018 + 0x1000000 * a + 0x1000 * b
/-- 07, R190. -/
def TU_PHASE (a b : Nat) : Nat := 0x4020001C + 0x1000000 * a + 0x1000 * b
/-- 07, R190. -/
def TU_SLAVE (a b : Nat) : Nat := 0x40200020 + 0x1000000 * a + 0x1000 * b
/-- 07, R190. -/
def TU_LOAD (a b : Nat) : Nat := 0x40200024 + 0x1000000 * a + 0x1000 * b
/-- 07, R190. -/
def TU_RB_CFG (a b : Nat) : Nat := 0x40200028 + 0x1000000 * a + 0x1000 * b
/-- 07, R190. -/
def TU_STATUS (a b : Nat) : Nat := 0x4020002C + 0x1000000 * a + 0x1000 * b
/-- 07, R190. -/
def TU_STATE (a b : Nat) : Nat := 0x40200030 + 0x1000000 * a + 0x1000 * b
/-- 07, R190. -/
def TU_CNT (a b : Nat) : Nat := 0x40200034 + 0x1000000 * a + 0x1000 * b
/-- 07, R190. -/
def TU_PCOUNT (a b : Nat) : Nat := 0x40200038 + 0x1000000 * a + 0x1000 * b
/-- 07, R190. -/
def TU_PERIOD_ACT (a b : Nat) : Nat := 0x4020003C + 0x1000000 * a + 0x1000 * b
/-- 07, R190. -/
def TU_DLR_PEND (a b : Nat) : Nat := 0x40200040 + 0x1000000 * a + 0x1000 * b
/-- 07, R190. -/
def TU_MISSED (a b : Nat) : Nat := 0x40200044 + 0x1000000 * a + 0x1000 * b
/-- 07, R190. -/
def TU_RB_STATE (a b : Nat) : Nat := 0x40200048 + 0x1000000 * a + 0x1000 * b
/-- 07, R190. -/
def TU_TRIP_STATE (a b : Nat) : Nat := 0x4020004C + 0x1000000 * a + 0x1000 * b
/-- 07, R190. -/
def TU_TRIP_CLR (a b : Nat) : Nat := 0x40200050 + 0x1000000 * a + 0x1000 * b
/-- 07, R190. -/
def TU_TRIPi_CFG (a b c : Nat) : Nat := 0x40200060 + 0x1000000 * a + 0x1000 * b + 0x4 * c
/-- 07, R190. -/
def TU_DLRw (a b c : Nat) : Nat := 0x40200100 + 0x1000000 * a + 0x1000 * b + 0x4 * c
/-- 07, R190. -/
def TU_CHj_CFG (a b c : Nat) : Nat := 0x40200200 + 0x1000000 * a + 0x1000 * b + 0x40 * c
/-- 07, R190. -/
def TU_CHj_DTA (a b c : Nat) : Nat := 0x40200204 + 0x1000000 * a + 0x1000 * b + 0x40 * c
/-- 07, R190. -/
def TU_CHj_DTB (a b c : Nat) : Nat := 0x40200208 + 0x1000000 * a + 0x1000 * b + 0x40 * c
/-- 07, R190. -/
def TU_CHj_EVT (a b c : Nat) : Nat := 0x4020020C + 0x1000000 * a + 0x1000 * b + 0x40 * c
/-- 07, R190. -/
def TU_CHj_CAP_CFG (a b c : Nat) : Nat := 0x40200210 + 0x1000000 * a + 0x1000 * b + 0x40 * c
/-- 07, R190. -/
def TU_CHj_WIDTH_ACT (a b c : Nat) : Nat := 0x40200214 + 0x1000000 * a + 0x1000 * b + 0x40 * c
/-- 07, R190. -/
def TU_CHj_OFS_ACT (a b c : Nat) : Nat := 0x40200218 + 0x1000000 * a + 0x1000 * b + 0x40 * c
/-- 07, R190. -/
def TU_CHj_CAP_LO (a b c : Nat) : Nat := 0x4020021C + 0x1000000 * a + 0x1000 * b + 0x40 * c
/-- 07, R190. -/
def TU_CHj_CAP_HI (a b c : Nat) : Nat := 0x40200220 + 0x1000000 * a + 0x1000 * b + 0x40 * c
/-- 07, R190. -/
def TU_CHj_CAP_SUB (a b c : Nat) : Nat := 0x40200224 + 0x1000000 * a + 0x1000 * b + 0x40 * c
/-- 08, R221. -/
def AC_OWNER (a b : Nat) : Nat := 0x40210000 + 0x1000000 * a + 0x1000 * b
/-- 08, R221. -/
def AC_CTRL (a b : Nat) : Nat := 0x40210010 + 0x1000000 * a + 0x1000 * b
/-- 08, R221. -/
def AC_MODE (a b : Nat) : Nat := 0x40210014 + 0x1000000 * a + 0x1000 * b
/-- 08, R221. -/
def AC_TRIG (a b : Nat) : Nat := 0x40210018 + 0x1000000 * a + 0x1000 * b
/-- 08, R221. -/
def AC_TRIG_INJ (a b : Nat) : Nat := 0x4021001C + 0x1000000 * a + 0x1000 * b
/-- 08, R221. -/
def AC_STATUS (a b : Nat) : Nat := 0x40210020 + 0x1000000 * a + 0x1000 * b
/-- 08, R221. -/
def AC_STATE (a b : Nat) : Nat := 0x40210024 + 0x1000000 * a + 0x1000 * b
/-- 08, R221. -/
def AC_DATA (a b : Nat) : Nat := 0x40210028 + 0x1000000 * a + 0x1000 * b
/-- 08, R221. -/
def AC_SI_T (a b : Nat) : Nat := 0x4021002C + 0x1000000 * a + 0x1000 * b
/-- 08, R221. -/
def AC_SI_SUB (a b : Nat) : Nat := 0x40210030 + 0x1000000 * a + 0x1000 * b
/-- 08, R221. -/
def AC_CHK (a b : Nat) : Nat := 0x40210034 + 0x1000000 * a + 0x1000 * b
/-- 08, R221. -/
def AC_ENTRYi (a b c : Nat) : Nat := 0x40210040 + 0x1000000 * a + 0x1000 * b + 0x4 * c
/-- 08, R221. -/
def AC_CAL (a b : Nat) : Nat := 0x40210080 + 0x1000000 * a + 0x1000 * b
/-- 08, R221. -/
def AC_CAL_GAINg (a b c : Nat) : Nat := 0x40210084 + 0x1000000 * a + 0x1000 * b + 0x4 * c
/-- 08, R221. -/
def AC_CAL_LINk (a b c : Nat) : Nat := 0x40210094 + 0x1000000 * a + 0x1000 * b + 0x4 * c
/-- 08, R223. -/
def SD_OWNER (a b : Nat) : Nat := 0x40220000 + 0x1000000 * a + 0x400 * b
/-- 08, R223. -/
def SD_CFG (a b : Nat) : Nat := 0x40220010 + 0x1000000 * a + 0x400 * b
/-- 08, R223. -/
def SD_SYNC (a b : Nat) : Nat := 0x40220014 + 0x1000000 * a + 0x400 * b
/-- 08, R223. -/
def SD_OC (a b : Nat) : Nat := 0x40220018 + 0x1000000 * a + 0x400 * b
/-- 08, R223. -/
def SD_STATUS (a b : Nat) : Nat := 0x4022001C + 0x1000000 * a + 0x400 * b
/-- 08, R223. -/
def SD_DATA (a b : Nat) : Nat := 0x40220020 + 0x1000000 * a + 0x400 * b
/-- 08, R223. -/
def SD_FAST (a b : Nat) : Nat := 0x40220024 + 0x1000000 * a + 0x400 * b
/-- 08, R223. -/
def SD_STATE (a b : Nat) : Nat := 0x40220028 + 0x1000000 * a + 0x400 * b
/-- 08, R223. -/
def SD_CLK (a b : Nat) : Nat := 0x40220030 + 0x1000000 * a + 0x400 * b
/-- 08, R223. -/
def CP_OWNER (a b : Nat) : Nat := 0x40230000 + 0x1000000 * a + 0x400 * b
/-- 08, R223. -/
def CP_CFG (a b : Nat) : Nat := 0x40230010 + 0x1000000 * a + 0x400 * b
/-- 08, R223. -/
def CP_THR (a b : Nat) : Nat := 0x40230014 + 0x1000000 * a + 0x400 * b
/-- 08, R223. -/
def CP_STATUS (a b : Nat) : Nat := 0x40230018 + 0x1000000 * a + 0x400 * b
/-- 08, R223. -/
def CP_STATE (a b : Nat) : Nat := 0x4023001C + 0x1000000 * a + 0x400 * b
/-- 09, R245. -/
def EQ_OWNER (a b : Nat) : Nat := 0x40240000 + 0x1000000 * a + 0x400 * b
/-- 09, R245. -/
def EQ_CTRL (a b : Nat) : Nat := 0x40240010 + 0x1000000 * a + 0x400 * b
/-- 09, R245. -/
def EQ_CFG (a b : Nat) : Nat := 0x40240014 + 0x1000000 * a + 0x400 * b
/-- 09, R245. -/
def EQ_SSI (a b : Nat) : Nat := 0x40240018 + 0x1000000 * a + 0x400 * b
/-- 09, R245. -/
def EQ_SSI_CLK (a b : Nat) : Nat := 0x4024001C + 0x1000000 * a + 0x400 * b
/-- 09, R245. -/
def EQ_SSI_TRIG (a b : Nat) : Nat := 0x40240020 + 0x1000000 * a + 0x400 * b
/-- 09, R245. -/
def EQ_PRESET (a b : Nat) : Nat := 0x40240024 + 0x1000000 * a + 0x400 * b
/-- 09, R245. -/
def EQ_STATUS (a b : Nat) : Nat := 0x40240028 + 0x1000000 * a + 0x400 * b
/-- 09, R245. -/
def EQ_COUNT (a b : Nat) : Nat := 0x4024002C + 0x1000000 * a + 0x400 * b
/-- 09, R245. -/
def EQ_INDEX_COUNT (a b : Nat) : Nat := 0x40240030 + 0x1000000 * a + 0x400 * b
/-- 09, R245. -/
def EQ_EDGE_T (a b : Nat) : Nat := 0x40240034 + 0x1000000 * a + 0x400 * b
/-- 09, R245. -/
def EQ_EDGE_PERIOD (a b : Nat) : Nat := 0x40240038 + 0x1000000 * a + 0x400 * b
/-- 09, R245. -/
def EQ_SSI_POS (a b : Nat) : Nat := 0x4024003C + 0x1000000 * a + 0x400 * b
/-- 09, R245. -/
def EQ_SSI_T (a b : Nat) : Nat := 0x40240040 + 0x1000000 * a + 0x400 * b
/-- 09, R245. -/
def EQ_PC_CFG (a b : Nat) : Nat := 0x40240050 + 0x1000000 * a + 0x400 * b
/-- 09, R245. -/
def EQ_PC_POINT (a b : Nat) : Nat := 0x40240054 + 0x1000000 * a + 0x400 * b
/-- 09, R245. -/
def EQ_PC_BAND (a b : Nat) : Nat := 0x40240058 + 0x1000000 * a + 0x400 * b
/-- 09, R245. -/
def EQ_PC_PULSE (a b : Nat) : Nat := 0x4024005C + 0x1000000 * a + 0x400 * b
/-- 09, R245. -/
def EQ_PC_CTRL (a b : Nat) : Nat := 0x40240060 + 0x1000000 * a + 0x400 * b
/-- 09, R245. -/
def EQ_PC_T_LO (a b : Nat) : Nat := 0x40240064 + 0x1000000 * a + 0x400 * b
/-- 09, R245. -/
def EQ_PC_T_HI (a b : Nat) : Nat := 0x40240068 + 0x1000000 * a + 0x400 * b
/-- 09, R245. -/
def EQ_PC_SUB (a b : Nat) : Nat := 0x4024006C + 0x1000000 * a + 0x400 * b
/-- 09, R247. -/
def MK_OWNER (a b : Nat) : Nat := 0x40241000 + 0x1000000 * a + 0x100 * b
/-- 09, R247. -/
def MK_CFG (a b : Nat) : Nat := 0x40241010 + 0x1000000 * a + 0x100 * b
/-- 09, R247. -/
def MK_TRACK (a b : Nat) : Nat := 0x40241014 + 0x1000000 * a + 0x100 * b
/-- 09, R247. -/
def MK_AGE (a b : Nat) : Nat := 0x40241018 + 0x1000000 * a + 0x100 * b
/-- 09, R247. -/
def MK_STATUS (a b : Nat) : Nat := 0x4024101C + 0x1000000 * a + 0x100 * b
/-- 09, R247. -/
def MK_POS_LO (a b : Nat) : Nat := 0x40241020 + 0x1000000 * a + 0x100 * b
/-- 09, R247. -/
def MK_POS_HI (a b : Nat) : Nat := 0x40241024 + 0x1000000 * a + 0x100 * b
/-- 09, R247. -/
def MK_COUNT (a b : Nat) : Nat := 0x40241028 + 0x1000000 * a + 0x100 * b
/-- 09, R247. -/
def MK_T (a b : Nat) : Nat := 0x4024102C + 0x1000000 * a + 0x100 * b
/-- 09, R247. -/
def MK_SUB (a b : Nat) : Nat := 0x40241030 + 0x1000000 * a + 0x100 * b
/-- 10, R275. -/
def FI_OWNER (a : Nat) : Nat := 0x40250000 + 0x1000000 * a
/-- 10, R275. -/
def FI_STATUS (a : Nat) : Nat := 0x40250010 + 0x1000000 * a
/-- 10, R275. -/
def FI_LEVEL0 (a : Nat) : Nat := 0x40250014 + 0x1000000 * a
/-- 10, R275. -/
def FI_LEVEL1 (a : Nat) : Nat := 0x40250018 + 0x1000000 * a
/-- 10, R275. -/
def FI_FAULT_INFO (a : Nat) : Nat := 0x4025001C + 0x1000000 * a
/-- 10, R275. -/
def FI_PNp_OWNER (a b : Nat) : Nat := 0x40251000 + 0x1000000 * a + 0x10 * b
/-- 10, R275. -/
def FI_PNp_CFG (a b : Nat) : Nat := 0x40251004 + 0x1000000 * a + 0x10 * b
/-- 10, R275. -/
def FI_PNp_CTRL (a b : Nat) : Nat := 0x40251008 + 0x1000000 * a + 0x10 * b
/-- 10, R275. -/
def FI_PNp_REC (a b : Nat) : Nat := 0x4025100C + 0x1000000 * a + 0x10 * b
/-- 10, R275. -/
def FI_HSh_OWNER (a b : Nat) : Nat := 0x40252000 + 0x1000000 * a + 0x20 * b
/-- 10, R275. -/
def FI_HSh_CFG (a b : Nat) : Nat := 0x40252004 + 0x1000000 * a + 0x20 * b
/-- 10, R275. -/
def FI_HSh_TRUTH (a b : Nat) : Nat := 0x40252008 + 0x1000000 * a + 0x20 * b
/-- 10, R275. -/
def FI_HSh_IN (a b : Nat) : Nat := 0x4025200C + 0x1000000 * a + 0x20 * b
/-- 10, R275. -/
def FI_HSh_STATE (a b : Nat) : Nat := 0x40252010 + 0x1000000 * a + 0x20 * b
/-- 10, R276. -/
def FB_OWNER : Nat := 0x50000000
/-- 10, R276. -/
def FB_FIRE : Nat := 0x50000010
/-- 10, R276. -/
def FB_STATUS : Nat := 0x50000014
/-- 10, R276. -/
def FB_FAULT_INFO : Nat := 0x50000018
/-- 10, R276. -/
def FB_LEVELk (a : Nat) : Nat := 0x50000100 + 0x4 * a
/-- 10, R276. -/
def FB_PNg_OWNER (a : Nat) : Nat := 0x50010000 + 0x10 * a
/-- 10, R276. -/
def FB_PNg_CFG (a : Nat) : Nat := 0x50010004 + 0x10 * a
/-- 10, R276. -/
def FB_PNg_CTRL (a : Nat) : Nat := 0x50010008 + 0x10 * a
/-- 10, R276. -/
def FB_PNg_REC (a : Nat) : Nat := 0x5001000C + 0x10 * a
/-- 10, R276. -/
def FB_HSh_OWNER (a : Nat) : Nat := 0x50020000 + 0x20 * a
/-- 10, R276. -/
def FB_HSh_CFG (a : Nat) : Nat := 0x50020004 + 0x20 * a
/-- 10, R276. -/
def FB_HSh_TRUTH (a : Nat) : Nat := 0x50020008 + 0x20 * a
/-- 10, R276. -/
def FB_HSh_IN_LO (a : Nat) : Nat := 0x5002000C + 0x20 * a
/-- 10, R276. -/
def FB_HSh_IN_HI (a : Nat) : Nat := 0x50020010 + 0x20 * a
/-- 10, R276. -/
def FB_HSh_STATE (a : Nat) : Nat := 0x50020014 + 0x20 * a
/-- 10, R276. -/
def FB_SSs_OWNER (a : Nat) : Nat := 0x50030000 + 0x20 * a
/-- 10, R276. -/
def FB_SSs_CFG (a : Nat) : Nat := 0x50030004 + 0x20 * a
/-- 10, R276. -/
def FB_SSs_MASK_LO (a : Nat) : Nat := 0x50030008 + 0x20 * a
/-- 10, R276. -/
def FB_SSs_MASK_HI (a : Nat) : Nat := 0x5003000C + 0x20 * a
/-- 10, R276. -/
def FB_SSs_CTRL (a : Nat) : Nat := 0x50030010 + 0x20 * a
/-- 11, R314. -/
def CC_OWNER (a : Nat) : Nat := 0x5D008000 + 0x100 * a
/-- 11, R314. -/
def CC_CTRL (a : Nat) : Nat := 0x5D008010 + 0x100 * a
/-- 11, R314. -/
def CC_BOOT (a : Nat) : Nat := 0x5D008014 + 0x100 * a
/-- 11, R314. -/
def CC_STATE (a : Nat) : Nat := 0x5D008018 + 0x100 * a
/-- 11, R314. -/
def CC_STATUS (a : Nat) : Nat := 0x5D00801C + 0x100 * a
/-- 11, R314. -/
def CC_TRANSIENTS (a : Nat) : Nat := 0x5D008020 + 0x100 * a
/-- 12, R335. -/
def SCH_OWNER (a : Nat) : Nat := 0x5D100000 + 0x10000 * a
/-- 12, R335. -/
def SCH_CTRL (a : Nat) : Nat := 0x5D100010 + 0x10000 * a
/-- 12, R335. -/
def SCH_SPILL (a : Nat) : Nat := 0x5D100014 + 0x10000 * a
/-- 12, R335. -/
def SCH_STATE (a : Nat) : Nat := 0x5D100018 + 0x10000 * a
/-- 12, R335. -/
def SCH_STATUS (a : Nat) : Nat := 0x5D10001C + 0x10000 * a
/-- 12, R335. -/
def SCH_HALT_INFO (a : Nat) : Nat := 0x5D100020 + 0x10000 * a
/-- 12, R335. -/
def SCH_HALT_PC (a : Nat) : Nat := 0x5D100024 + 0x10000 * a
/-- 12, R335. -/
def SCH_RELEASE (a : Nat) : Nat := 0x5D100028 + 0x10000 * a
/-- 12, R335. -/
def SCH_SLOTs_CTRL (a b : Nat) : Nat := 0x5D101000 + 0x10000 * a + 0x10 * b
/-- 12, R335. -/
def SCH_SLOTs_EV (a b : Nat) : Nat := 0x5D101004 + 0x10000 * a + 0x10 * b
/-- 12, R335. -/
def SCH_SLOTs_DOM (a b : Nat) : Nat := 0x5D101008 + 0x10000 * a + 0x10 * b
/-- 12, R335. -/
def SCH_SLOTs_STATE (a b : Nat) : Nat := 0x5D10100C + 0x10000 * a + 0x10 * b
/-- 13, R356. -/
def ME_OWNER : Nat := 0x5D200000
/-- 13, R356. -/
def ME_CTRL : Nat := 0x5D200010
/-- 13, R356. -/
def ME_STATUS : Nat := 0x5D200014
/-- 13, R356. -/
def ME_LAST_ADDR : Nat := 0x5D200018
/-- 13, R356. -/
def ME_LAST_INFO : Nat := 0x5D20001C
/-- 13, R356. -/
def ME_COUNTS : Nat := 0x5D200020
/-- 13, R357. -/
def FL_OWNER : Nat := 0x5C000000
/-- 13, R357. -/
def FL_STATUS : Nat := 0x5C000010
/-- 13, R357. -/
def FL_LOCK : Nat := 0x5C000014
/-- 13, R357. -/
def FL_ECC_ADDR : Nat := 0x5C000018
/-- 13, R357. -/
def FL_ECC_COUNT : Nat := 0x5C00001C
/-- 13, R357. -/
def FL_Bb_ADDR (a : Nat) : Nat := 0x5C000100 + 0x80 * a
/-- 13, R357. -/
def FL_Bb_DATAi (a b : Nat) : Nat := 0x5C000104 + 0x80 * a + 0x4 * b
/-- 13, R357. -/
def FL_Bb_CMD (a : Nat) : Nat := 0x5C000124 + 0x80 * a
/-- 13, R357. -/
def FL_Bb_STATE (a : Nat) : Nat := 0x5C000128 + 0x80 * a
/-- 13, R358. -/
def DMA_OWNER : Nat := 0x52000000
/-- 13, R358. -/
def DMA_ACTIVE0 : Nat := 0x52000010
/-- 13, R358. -/
def DMA_ACTIVE1 : Nat := 0x52000014
/-- 13, R358. -/
def DMA_CHc_OWNER (a : Nat) : Nat := 0x52001000 + 0x40 * a
/-- 13, R358. -/
def DMA_CHc_CFG (a : Nat) : Nat := 0x52001004 + 0x40 * a
/-- 13, R358. -/
def DMA_CHc_SRC (a : Nat) : Nat := 0x52001008 + 0x40 * a
/-- 13, R358. -/
def DMA_CHc_SRC_SHAPE (a : Nat) : Nat := 0x5200100C + 0x40 * a
/-- 13, R358. -/
def DMA_CHc_SRC_STRIDE (a : Nat) : Nat := 0x52001010 + 0x40 * a
/-- 13, R358. -/
def DMA_CHc_DST (a : Nat) : Nat := 0x52001014 + 0x40 * a
/-- 13, R358. -/
def DMA_CHc_DST_SHAPE (a : Nat) : Nat := 0x52001018 + 0x40 * a
/-- 13, R358. -/
def DMA_CHc_DST_STRIDE (a : Nat) : Nat := 0x5200101C + 0x40 * a
/-- 13, R358. -/
def DMA_CHc_NEXT (a : Nat) : Nat := 0x52001020 + 0x40 * a
/-- 13, R358. -/
def DMA_CHc_CTRL (a : Nat) : Nat := 0x52001024 + 0x40 * a
/-- 13, R358. -/
def DMA_CHc_STATUS (a : Nat) : Nat := 0x52001028 + 0x40 * a
/-- 13, R358. -/
def DMA_CHc_ERR (a : Nat) : Nat := 0x5200102C + 0x40 * a
/-- 13, R358. -/
def DMA_CHc_COUNT (a : Nat) : Nat := 0x52001030 + 0x40 * a
/-- 13, R358. -/
def DMA_CHc_DESC (a : Nat) : Nat := 0x52001034 + 0x40 * a
/-- 14, R372. -/
def QM_OWNER : Nat := 0x51000000
/-- 14, R372. -/
def QM_STATUS : Nat := 0x51000010
/-- 14, R372. -/
def QM_FREE : Nat := 0x51000014
/-- 14, R372. -/
def QM_FAULT_INFO : Nat := 0x51000018
/-- 14, R372. -/
def QP_HANDLE (a b : Nat) : Nat := 0x51010000 + 0x1000 * a + 0x100 * b
/-- 14, R372. -/
def QP_PUSH (a b : Nat) : Nat := 0x51010004 + 0x1000 * a + 0x100 * b
/-- 14, R372. -/
def QP_POP (a b : Nat) : Nat := 0x51010008 + 0x1000 * a + 0x100 * b
/-- 14, R372. -/
def QP_DATAi (a b c : Nat) : Nat := 0x51010040 + 0x1000 * a + 0x100 * b + 0x4 * c
/-- 14, R372. -/
def QM_Qq_OWN (a : Nat) : Nat := 0x51200000 + 0x20 * a
/-- 14, R372. -/
def QM_Qq_CFG (a : Nat) : Nat := 0x51200004 + 0x20 * a
/-- 14, R372. -/
def QM_Qq_WM (a : Nat) : Nat := 0x51200008 + 0x20 * a
/-- 14, R372. -/
def QM_Qq_EV (a : Nat) : Nat := 0x5120000C + 0x20 * a
/-- 14, R372. -/
def QM_Qq_STATE (a : Nat) : Nat := 0x51200010 + 0x20 * a
/-- 14, R372. -/
def QM_Qq_COUNT (a : Nat) : Nat := 0x51200014 + 0x20 * a
/-- 15, R408. -/
def MB_OWNER : Nat := 0x5A000000
/-- 15, R408. -/
def MB_STATUS : Nat := 0x5A000010
/-- 15, R408. -/
def MB_LOAD : Nat := 0x5A000014
/-- 15, R408. -/
def MB_MBm_CFG (a : Nat) : Nat := 0x5A001000 + 0x20 * a
/-- 15, R408. -/
def MB_MBm_REQ (a : Nat) : Nat := 0x5A001004 + 0x20 * a
/-- 15, R408. -/
def MB_MBm_RSP (a : Nat) : Nat := 0x5A001008 + 0x20 * a
/-- 15, R408. -/
def MB_MBm_EV (a : Nat) : Nat := 0x5A00100C + 0x20 * a
/-- 15, R408. -/
def MB_MBm_STATE (a : Nat) : Nat := 0x5A001010 + 0x20 * a
/-- 16, R436. -/
def CAN_CTRL (a : Nat) : Nat := 0x55000010 + 0x1000 * a
/-- 16, R436. -/
def CAN_NBT (a : Nat) : Nat := 0x55000014 + 0x1000 * a
/-- 16, R436. -/
def CAN_DBT (a : Nat) : Nat := 0x55000018 + 0x1000 * a
/-- 16, R436. -/
def CAN_RXQ (a : Nat) : Nat := 0x5500001C + 0x1000 * a
/-- 16, R436. -/
def CAN_TXQ (a : Nat) : Nat := 0x55000020 + 0x1000 * a
/-- 16, R436. -/
def CAN_STATUS (a : Nat) : Nat := 0x55000024 + 0x1000 * a
/-- 16, R436. -/
def CAN_ERR (a : Nat) : Nat := 0x55000028 + 0x1000 * a
/-- 16, R436. -/
def CAN_FLTi_ID (a b : Nat) : Nat := 0x55000100 + 0x1000 * a + 0x8 * b
/-- 16, R436. -/
def CAN_FLTi_MASK (a b : Nat) : Nat := 0x55000104 + 0x1000 * a + 0x8 * b
/-- 16, R436. -/
def UART_CTRL (a : Nat) : Nat := 0x55010010 + 0x1000 * a
/-- 16, R436. -/
def UART_DATA (a : Nat) : Nat := 0x55010014 + 0x1000 * a
/-- 16, R436. -/
def UART_STATUS (a : Nat) : Nat := 0x55010018 + 0x1000 * a
/-- 16, R436. -/
def SPI_CTRL (a : Nat) : Nat := 0x55020010 + 0x1000 * a
/-- 16, R436. -/
def SPI_DATA (a : Nat) : Nat := 0x55020014 + 0x1000 * a
/-- 16, R436. -/
def SPI_STATUS (a : Nat) : Nat := 0x55020018 + 0x1000 * a
/-- 16, R436. -/
def I2C_CTRL (a : Nat) : Nat := 0x55030010 + 0x1000 * a
/-- 16, R436. -/
def I2C_CMD (a : Nat) : Nat := 0x55030014 + 0x1000 * a
/-- 16, R436. -/
def I2C_DATA (a : Nat) : Nat := 0x55030018 + 0x1000 * a
/-- 16, R436. -/
def I2C_STATUS (a : Nat) : Nat := 0x5503001C + 0x1000 * a
/-- 16, R438. -/
def NX_OWNER : Nat := 0x53000000
/-- 16, R438. -/
def NX_CFG : Nat := 0x53000010
/-- 16, R438. -/
def NX_STATUS : Nat := 0x53000014
/-- 16, R438. -/
def NX_GROUP_LO : Nat := 0x53000018
/-- 16, R438. -/
def NX_GROUP_HI : Nat := 0x5300001C
/-- 16, R438. -/
def NX_AS_PRIO : Nat := 0x53000020
/-- 16, R438. -/
def NX_PORTp_CFG (a : Nat) : Nat := 0x53000100 + 0x80 * a
/-- 16, R438. -/
def NX_PORTp_ETYPE (a : Nat) : Nat := 0x53000104 + 0x80 * a
/-- 16, R438. -/
def NX_PORTp_TC (a : Nat) : Nat := 0x53000108 + 0x80 * a
/-- 16, R438. -/
def NX_PORTp_CYC_TX (a : Nat) : Nat := 0x5300010C + 0x80 * a
/-- 16, R438. -/
def NX_PORTp_CRC_LIMIT (a : Nat) : Nat := 0x53000110 + 0x80 * a
/-- 16, R438. -/
def NX_PORTp_STATE (a : Nat) : Nat := 0x53000114 + 0x80 * a
/-- 16, R438. -/
def NX_PORTp_RX_FRAMES (a : Nat) : Nat := 0x53000118 + 0x80 * a
/-- 16, R438. -/
def NX_PORTp_TX_FRAMES (a : Nat) : Nat := 0x5300011C + 0x80 * a
/-- 16, R438. -/
def NX_PORTp_ERRS (a : Nat) : Nat := 0x53000120 + 0x80 * a
/-- 16, R438. -/
def NX_Ss_CFG (a : Nat) : Nat := 0x53100000 + 0x20 * a
/-- 16, R438. -/
def NX_Ss_CYCLE (a : Nat) : Nat := 0x53100004 + 0x20 * a
/-- 16, R438. -/
def NX_Ss_SIZE (a : Nat) : Nat := 0x53100008 + 0x20 * a
/-- 16, R438. -/
def NX_Ss_XM (a : Nat) : Nat := 0x5310000C + 0x20 * a
/-- 16, R438. -/
def NX_Ss_EV (a : Nat) : Nat := 0x53100010 + 0x20 * a
/-- 16, R438. -/
def NX_Ss_STATE (a : Nat) : Nat := 0x53100014 + 0x20 * a
/-- 16, R438. -/
def NX_Ss_STATUS (a : Nat) : Nat := 0x53100018 + 0x20 * a
/-- 16, R440. -/
def HP_OWNER : Nat := 0x54000000
/-- 16, R440. -/
def HP_ID : Nat := 0x54000010
/-- 16, R440. -/
def HP_LINK : Nat := 0x54000014
/-- 16, R440. -/
def HP_STATUS : Nat := 0x54000018
/-- 16, R440. -/
def HP_ERR_ADDR : Nat := 0x5400001C
/-- 16, R440. -/
def HP_VECv_CFG (a : Nat) : Nat := 0x54000100 + 0x4 * a
/-- 17, R462. -/
def FC_OWNER : Nat := 0x58000000
/-- 17, R462. -/
def FC_CTRL : Nat := 0x58000010
/-- 17, R462. -/
def FC_STATUS : Nat := 0x58000014
/-- 17, R462. -/
def FC_SUMMARY : Nat := 0x58000018
/-- 17, R462. -/
def FC_LAST : Nat := 0x5800001C
/-- 17, R462. -/
def FC_SEL : Nat := 0x58000020
/-- 17, R462. -/
def FC_NEXT : Nat := 0x58000024
/-- 17, R462. -/
def FC_ACK : Nat := 0x58000028
/-- 17, R462. -/
def FC_RETIRE : Nat := 0x5800002C
/-- 17, R462. -/
def FC_RESTORE : Nat := 0x58000030
/-- 17, R462. -/
def FC_RESTORE_STATE : Nat := 0x58000034
/-- 17, R462. -/
def FC_REC0 : Nat := 0x58000040
/-- 17, R462. -/
def FC_RECi (a : Nat) : Nat := 0x58000044 + 0x4 * a
/-- 18, R488. -/
def PW_OWNER : Nat := 0x59000000
/-- 18, R488. -/
def PW_CTRL : Nat := 0x59000010
/-- 18, R488. -/
def PW_STATE : Nat := 0x59000014
/-- 18, R488. -/
def PW_STATUS : Nat := 0x59000018
/-- 18, R488. -/
def PW_ISLANDS : Nat := 0x5900001C
/-- 18, R488. -/
def PW_ISLAND_ON : Nat := 0x59000020
/-- 18, R488. -/
def PW_ISLAND_OFF : Nat := 0x59000024
/-- 18, R488. -/
def PW_ISLAND_RESET : Nat := 0x59000028
/-- 18, R488. -/
def PW_DRAIN_TIMEOUT : Nat := 0x5900002C
/-- 18, R488. -/
def PW_WAKE_CFG : Nat := 0x59000030
/-- 18, R488. -/
def PW_WAKE_SRC : Nat := 0x59000034
/-- 18, R488. -/
def PW_RESET_CAUSE : Nat := 0x59000038
/-- 18, R488. -/
def PW_BOOT : Nat := 0x5900003C
/-- 18, R488. -/
def PW_TEST : Nat := 0x59000040
/-- 18, R488. -/
def TH_OWNER : Nat := 0x59000400
/-- 18, R488. -/
def TH_STATUS : Nat := 0x59000410
/-- 18, R488. -/
def TH_Ss_CFG (a : Nat) : Nat := 0x59000500 + 0x10 * a
/-- 18, R488. -/
def TH_Ss_THR (a : Nat) : Nat := 0x59000504 + 0x10 * a
/-- 18, R488. -/
def TH_Ss_TEMP (a : Nat) : Nat := 0x59000508 + 0x10 * a
/-- 18, R488. -/
def TH_Ss_STATE (a : Nat) : Nat := 0x5900050C + 0x10 * a
/-- 18, R490. -/
def IC_OWNER (a : Nat) : Nat := 0x40260000 + 0x1000000 * a
/-- 18, R490. -/
def IC_STATE (a : Nat) : Nat := 0x40260010 + 0x1000000 * a
/-- 18, R490. -/
def IC_TEMP (a : Nat) : Nat := 0x40260014 + 0x1000000 * a
/-- 18, R490. -/
def IC_RESETS (a : Nat) : Nat := 0x40260018 + 0x1000000 * a
/-- 19, R514. -/
def PM_OWNER : Nat := 0x5B000000
/-- 19, R514. -/
def PM_STATUS : Nat := 0x5B000010
/-- 19, R514. -/
def PM_IO_LEVEL : Nat := 0x5B000014
/-- 19, R514. -/
def PM_BALLi (a : Nat) : Nat := 0x5B000100 + 0x4 * a
/-- 19, R514. -/
def PM_GPIO_INk (a : Nat) : Nat := 0x5B000200 + 0x4 * a
/-- 19, R514. -/
def PM_GPIO_OUTk (a : Nat) : Nat := 0x5B000210 + 0x4 * a
/-- 19, R514. -/
def PM_GPIO_OEk (a : Nat) : Nat := 0x5B000220 + 0x4 * a
/-- 19, R514. -/
def PM_DIn_OWNER (a : Nat) : Nat := 0x5B001000 + 0x100 * a
/-- 19, R514. -/
def PM_DIn_BALLb (a b : Nat) : Nat := 0x5B001010 + 0x100 * a + 0x4 * b
/-- 01, R20. -/
def SYS_OWNER : Nat := 0x5D000000
/-- 01, R21. -/
def SYS_DOMAIN_SEC : Nat := 0x5D000020
/-- 16, R434. -/
def CAN_OWNER (a : Nat) : Nat := 0x55000000 + 0x1000 * a
/-- 16, R434. -/
def UART_OWNER (a : Nat) : Nat := 0x55010000 + 0x1000 * a
/-- 16, R434. -/
def SPI_OWNER (a : Nat) : Nat := 0x55020000 + 0x1000 * a
/-- 16, R434. -/
def I2C_OWNER (a : Nat) : Nat := 0x55030000 + 0x1000 * a
/-- 16, R434. -/
def XSPI_OWNER : Nat := 0x55040000
end R

/-- Registers of block sys. -/
def rows_sys : List RegRow :=
  [⟨0x10, [], .ro, 0x94801068, 0x00000000⟩,
   ⟨0x14, [], .ro, 0x80000400, 0x00000000⟩,
   ⟨0x18, [], .ro, 0x00000204, 0x00000000⟩,
   ⟨0x1C, [], .ro, 0x00010200, 0x00000000⟩,
   ⟨0x1000, [], .ro, 0x00000000, 0x00000000⟩,
   ⟨0x1004, [], .sc, 0x00000000, 0xFF800007⟩,
   ⟨0x1008, [], .ro, 0x00000000, 0x00000000⟩,
   ⟨0x2000, [(0x8, 1024)], .ow, 0x00000000, 0xFFF03FFF⟩,
   ⟨0x2004, [(0x8, 1024)], .ro, 0x00000000, 0x00000000⟩,
   ⟨0x0, [], .ow, 0x00000010, 0x0000001F⟩,
   ⟨0x20, [], .ow, 0x00000001, 0x0000FFFE⟩]

/-- Registers of block tb. -/
def rows_tb : List RegRow :=
  [⟨0x0, [], .ow, 0x00000010, 0x0000001F⟩,
   ⟨0x10, [], .ll, 0x00000000, 0x00000000⟩,
   ⟨0x14, [], .hs, 0x00000000, 0x00000000⟩,
   ⟨0x18, [], .ll, 0x00000000, 0x00000000⟩,
   ⟨0x1C, [], .hs, 0x00000000, 0x00000000⟩,
   ⟨0x20, [], .ow, 0x00000000, 0xFFFFFFFF⟩,
   ⟨0x24, [], .ow, 0x00000000, 0xFFFFFFFF⟩,
   ⟨0x28, [], .ow, 0x00000000, 0xFFFFFFFF⟩,
   ⟨0x2C, [], .ow, 0x00000000, 0x00000003⟩,
   ⟨0x30, [], .sc, 0x00000000, 0xFF8000FF⟩,
   ⟨0x34, [], .ow, 0x00000000, 0x00000001⟩,
   ⟨0x40, [], .ow, 0x00000000, 0xFFFFFFFF⟩] ++
  [⟨0x44, [], .ow, 0x00000000, 0xFFFFFFFF⟩,
   ⟨0x48, [], .wo, 0x00000000, 0x00000000⟩,
   ⟨0x4C, [], .wo, 0x00000000, 0x00000000⟩,
   ⟨0x50, [], .ow, 0x00000000, 0xFFFFFFFF⟩,
   ⟨0x54, [], .ow, 0x00000000, 0xFFFFFFFF⟩,
   ⟨0x58, [], .ro, 0x00000000, 0x00000000⟩,
   ⟨0x60, [], .ll, 0x00000000, 0x00000000⟩,
   ⟨0x64, [], .hs, 0x00000000, 0x00000000⟩,
   ⟨0x68, [], .ro, 0x00000000, 0x00000000⟩,
   ⟨0x400, [], .ow, 0x00000010, 0x0000001F⟩,
   ⟨0x410, [], .ll, 0x00000000, 0x00000000⟩,
   ⟨0x414, [], .hs, 0x00000000, 0x00000000⟩] ++
  [⟨0x418, [], .ow, 0x00000000, 0xFFFFFFFF⟩,
   ⟨0x41C, [], .ow, 0x00000000, 0x00FF7FFF⟩,
   ⟨0x420, [], .ow, 0x00000000, 0xFFFFFFFF⟩,
   ⟨0x424, [], .ow, 0x00000000, 0xFFFFFFFF⟩,
   ⟨0x428, [], .sc, 0x01000100, 0xFF8007EF⟩,
   ⟨0x42C, [], .ro, 0x00000000, 0x00000000⟩,
   ⟨0x430, [], .ll, 0x00000000, 0x00000000⟩,
   ⟨0x434, [], .hs, 0x00000000, 0x00000000⟩,
   ⟨0x438, [], .hs, 0x00000000, 0x00000000⟩,
   ⟨0x440, [(0x10, 4)], .ow, 0x00000000, 0xFFFFFFFF⟩,
   ⟨0x444, [(0x10, 4)], .ow, 0x00000000, 0xF0007FFF⟩,
   ⟨0x448, [(0x10, 4)], .ow, 0x00000000, 0xFFFFFFFF⟩] ++
  [⟨0x1000, [(0x4, 1024)], .ow, 0x00000000, 0xFFFFFFFF⟩]

/-- Registers of block ep. -/
def rows_ep : List RegRow :=
  [⟨0x0, [], .ow, 0x00000010, 0x0000001F⟩,
   ⟨0x10, [], .ro, 0x00000000, 0x00000000⟩,
   ⟨0x14, [], .wo, 0x00000000, 0x0000FFFF⟩,
   ⟨0x18, [], .wo, 0x00000000, 0x0000FFFF⟩,
   ⟨0x1C, [], .wo, 0x00000000, 0x0000FFFF⟩,
   ⟨0x20, [], .rw, 0x00000000, 0x00000001⟩,
   ⟨0x24, [], .sc, 0x00000000, 0xFF8007FF⟩,
   ⟨0x28, [], .ro, 0x00000000, 0x00000000⟩,
   ⟨0x2C, [], .ro, 0x00000000, 0x00000000⟩,
   ⟨0x30, [], .ro, 0x00000000, 0x00000000⟩,
   ⟨0x100, [(0x20, 4)], .ro, 0x00000000, 0x00000000⟩,
   ⟨0x104, [(0x20, 4)], .ow, 0x00000000, 0xFFFFFFFF⟩] ++
  [⟨0x108, [(0x20, 4)], .ow, 0x00000000, 0xFFFFFFFF⟩,
   ⟨0x10C, [(0x20, 4)], .ro, 0x00000000, 0x00000000⟩,
   ⟨0x110, [(0x20, 4)], .ro, 0x00000000, 0x00000000⟩,
   ⟨0x114, [(0x20, 4)], .ro, 0x00000000, 0x00000000⟩,
   ⟨0x400, [], .ow, 0x00000010, 0x0000001F⟩,
   ⟨0x410, [], .ow, 0x00000000, 0x00003FFF⟩,
   ⟨0x414, [], .ow, 0x00000000, 0x00000001⟩,
   ⟨0x418, [], .ow, 0x00000000, 0xFFFFFFFF⟩,
   ⟨0x41C, [], .ow, 0x00000000, 0xFFFFFFFF⟩,
   ⟨0x420, [], .wo, 0x00000000, 0x00000000⟩,
   ⟨0x424, [], .wo, 0x00000000, 0x00000000⟩,
   ⟨0x428, [], .wo, 0x00000000, 0x00000000⟩] ++
  [⟨0x42C, [], .ro, 0x00000000, 0x00000000⟩,
   ⟨0x430, [], .sc, 0x00000000, 0xFF80007F⟩,
   ⟨0x434, [], .ll, 0x00000000, 0x00000000⟩,
   ⟨0x438, [], .hs, 0x00000000, 0x00000000⟩]

/-- Registers of block le. -/
def rows_le : List RegRow :=
  [⟨0x0, [], .ow, 0x00000010, 0x0000001F⟩,
   ⟨0x10, [], .ow, 0x00000000, 0x000000FF⟩,
   ⟨0x14, [], .ro, 0x00000000, 0x00000000⟩,
   ⟨0x18, [], .sc, 0x00000000, 0xFF80001F⟩,
   ⟨0x1C, [], .ro, 0x00000000, 0x00000000⟩,
   ⟨0x20, [], .ro, 0x00000000, 0x00000000⟩,
   ⟨0x100, [(0x40, 8)], .eb, 0x00000000, 0x000307FF⟩,
   ⟨0x104, [(0x40, 8)], .eb, 0x00000000, 0xFFF3F007⟩,
   ⟨0x108, [(0x40, 8)], .eb, 0x00000096, 0x80000FFF⟩,
   ⟨0x10C, [(0x40, 8)], .eb, 0x00000000, 0xFFF0FFFF⟩,
   ⟨0x110, [(0x40, 8)], .eb, 0x00000000, 0xFFFFFFFF⟩,
   ⟨0x114, [(0x40, 8)], .sc, 0x00000000, 0xFF8000FF⟩] ++
  [⟨0x118, [(0x40, 8)], .ro, 0x00000000, 0x00000000⟩,
   ⟨0x11C, [(0x40, 8)], .rw, 0x00000000, 0x00000000⟩,
   ⟨0x120, [(0x40, 8)], .ro, 0x00000000, 0x00000000⟩]

/-- Registers of block ic. -/
def rows_ic : List RegRow :=
  [⟨0x260100, [], .ow, 0x00000000, 0x80000107⟩,
   ⟨0x260104, [], .ro, 0x00000000, 0x00000000⟩,
   ⟨0x260000, [], .ow, 0x00000010, 0x0000001F⟩,
   ⟨0x260010, [], .ro, 0x00000000, 0x00000000⟩,
   ⟨0x260014, [], .ro, 0x00000000, 0x00000000⟩,
   ⟨0x260018, [], .ro, 0x00000000, 0x00000000⟩]

/-- Registers of block tu. -/
def rows_tu : List RegRow :=
  [⟨0x0, [], .ow, 0x00000010, 0x0000001F⟩,
   ⟨0x10, [], .ow, 0x00000000, 0xC0000001⟩,
   ⟨0x14, [], .eb, 0x00000000, 0x000000DF⟩,
   ⟨0x18, [], .eb, 0x000030D4, 0xFFFFFFFF⟩,
   ⟨0x1C, [], .eb, 0x00000000, 0xFFFFFFFF⟩,
   ⟨0x20, [], .eb, 0x00000000, 0xFF00003F⟩,
   ⟨0x24, [], .eb, 0x00000000, 0x00001FFF⟩,
   ⟨0x28, [], .eb, 0x0FFF0028, 0x8FFFFFFF⟩,
   ⟨0x2C, [], .sc, 0x00000000, 0xFF803FFF⟩,
   ⟨0x30, [], .ro, 0x00000000, 0x00000000⟩,
   ⟨0x34, [], .ro, 0x00000000, 0x00000000⟩,
   ⟨0x38, [], .ro, 0x00000000, 0x00000000⟩] ++
  [⟨0x3C, [], .ro, 0x000030D4, 0x00000000⟩,
   ⟨0x40, [], .ro, 0x00000000, 0x00000000⟩,
   ⟨0x44, [], .ro, 0x00000000, 0x00000000⟩,
   ⟨0x48, [], .ro, 0x00000000, 0x00000000⟩,
   ⟨0x4C, [], .ro, 0x00000000, 0x00000000⟩,
   ⟨0x50, [], .wo, 0x00000000, 0x000001FF⟩,
   ⟨0x60, [(0x4, 8)], .eb, 0x00000000, 0xFFC000FF⟩,
   ⟨0x100, [(0x4, 13)], .ow, 0x00000000, 0xFFFFFFFF⟩,
   ⟨0x200, [(0x40, 6)], .eb, 0x00000A00, 0x00000FBF⟩,
   ⟨0x204, [(0x40, 6)], .eb, 0x00000000, 0x0003FFFF⟩,
   ⟨0x208, [(0x40, 6)], .eb, 0x00000000, 0x0003FFFF⟩,
   ⟨0x20C, [(0x40, 6)], .eb, 0xFFFFFFFF, 0xFFFFFFFF⟩] ++
  [⟨0x210, [(0x40, 6)], .eb, 0x00000000, 0xBFFFFFFF⟩,
   ⟨0x214, [(0x40, 6)], .ro, 0x00000000, 0x00000000⟩,
   ⟨0x218, [(0x40, 6)], .ro, 0x00000000, 0x00000000⟩,
   ⟨0x21C, [(0x40, 6)], .ll, 0x00000000, 0x00000000⟩,
   ⟨0x220, [(0x40, 6)], .hs, 0x00000000, 0x00000000⟩,
   ⟨0x224, [(0x40, 6)], .hs, 0x00000000, 0x00000000⟩]

/-- Registers of block ac. -/
def rows_ac : List RegRow :=
  [⟨0x0, [], .ow, 0x00000010, 0x0000001F⟩,
   ⟨0x10, [], .ow, 0x00000000, 0x80000001⟩,
   ⟨0x14, [], .eb, 0x00400000, 0x00FF03FF⟩,
   ⟨0x18, [], .eb, 0x0000C000, 0xFFFFC3FF⟩,
   ⟨0x1C, [], .eb, 0x0000C000, 0xFFFFC3FF⟩,
   ⟨0x20, [], .sc, 0x00000000, 0xFF800FFF⟩,
   ⟨0x24, [], .ro, 0x00000000, 0x00000000⟩,
   ⟨0x28, [], .ll, 0x00000000, 0x00000000⟩,
   ⟨0x2C, [], .hs, 0x00000000, 0x00000000⟩,
   ⟨0x30, [], .hs, 0x00000000, 0x00000000⟩,
   ⟨0x34, [], .ro, 0x00000000, 0x00000000⟩,
   ⟨0x40, [(0x4, 16)], .eb, 0x80190000, 0x83FF001F⟩] ++
  [⟨0x80, [], .ow, 0x00000000, 0x80000000⟩,
   ⟨0x84, [(0x4, 4)], .ow, 0x00000000, 0xFFFFFFFF⟩,
   ⟨0x94, [(0x4, 8)], .ow, 0x00000000, 0xFFFFFFFF⟩]

/-- Registers of block sd. -/
def rows_sd : List RegRow :=
  [⟨0x0, [], .ow, 0x00000010, 0x0000001F⟩,
   ⟨0x10, [], .eb, 0x003F0F00, 0xEFFF1F00⟩,
   ⟨0x14, [], .eb, 0x0000C000, 0x0000C3FF⟩,
   ⟨0x18, [], .eb, 0x7FFF8000, 0xFFFFFFFF⟩,
   ⟨0x1C, [], .sc, 0x00000000, 0xFF80001F⟩,
   ⟨0x20, [], .ro, 0x00000000, 0x00000000⟩,
   ⟨0x24, [], .ro, 0x00000000, 0x00000000⟩,
   ⟨0x28, [], .ro, 0x00000000, 0x00000000⟩,
   ⟨0x30, [], .eb, 0x00000064, 0xC000007F⟩]

/-- Registers of block cp. -/
def rows_cp : List RegRow :=
  [⟨0x0, [], .ow, 0x00000010, 0x0000001F⟩,
   ⟨0x10, [], .eb, 0x00003F00, 0xE3FFFFF7⟩,
   ⟨0x14, [], .eb, 0x00000FFF, 0x00000FFF⟩,
   ⟨0x18, [], .sc, 0x00000000, 0xFF800007⟩,
   ⟨0x1C, [], .ro, 0x00000000, 0x00000000⟩]

/-- Registers of block eq. -/
def rows_eq : List RegRow :=
  [⟨0x0, [], .ow, 0x00000010, 0x0000001F⟩,
   ⟨0x10, [], .ow, 0x80000000, 0x80000000⟩,
   ⟨0x14, [], .eb, 0x000C0000, 0xFEFFC000⟩,
   ⟨0x18, [], .eb, 0x65904000, 0xFFFFC0FF⟩,
   ⟨0x1C, [], .eb, 0x0000007D, 0x0000FFFF⟩,
   ⟨0x20, [], .eb, 0x61A8C000, 0xFFFFC3FF⟩,
   ⟨0x24, [], .wo, 0x00000000, 0xFFFFFFFF⟩,
   ⟨0x28, [], .sc, 0x00000000, 0xFF8000FF⟩,
   ⟨0x2C, [], .ro, 0x00000000, 0x00000000⟩,
   ⟨0x30, [], .ro, 0x00000000, 0x00000000⟩,
   ⟨0x34, [], .ro, 0x00000000, 0x00000000⟩,
   ⟨0x38, [], .ro, 0x00000000, 0x00000000⟩] ++
  [⟨0x3C, [], .ro, 0x00000000, 0x00000000⟩,
   ⟨0x40, [], .ro, 0x00000000, 0x00000000⟩,
   ⟨0x50, [], .eb, 0x00000000, 0xFC3F0F00⟩,
   ⟨0x54, [], .eb, 0x00000000, 0xFFFFFFFF⟩,
   ⟨0x58, [], .eb, 0x00000000, 0xFFFFFFFF⟩,
   ⟨0x5C, [], .eb, 0x00000001, 0x0000FFFF⟩,
   ⟨0x60, [], .ow, 0x00000000, 0xC0000000⟩,
   ⟨0x64, [], .ll, 0x00000000, 0x00000000⟩,
   ⟨0x68, [], .hs, 0x00000000, 0x00000000⟩,
   ⟨0x6C, [], .hs, 0x00000000, 0x00000000⟩]

/-- Registers of block mk. -/
def rows_mk : List RegRow :=
  [⟨0x0, [], .ow, 0x00000010, 0x0000001F⟩,
   ⟨0x10, [], .eb, 0x00000000, 0xBFFFFFFF⟩,
   ⟨0x14, [], .eb, 0x00000000, 0x80079FFF⟩,
   ⟨0x18, [], .eb, 0x00000000, 0xFFFFFFFF⟩,
   ⟨0x1C, [], .sc, 0x00000000, 0xFF80000F⟩,
   ⟨0x20, [], .ll, 0x00000000, 0x00000000⟩,
   ⟨0x24, [], .hs, 0x00000000, 0x00000000⟩,
   ⟨0x28, [], .hs, 0x00000000, 0x00000000⟩,
   ⟨0x2C, [], .hs, 0x00000000, 0x00000000⟩,
   ⟨0x30, [], .hs, 0x00000000, 0x00000000⟩]

/-- Registers of block fi. -/
def rows_fi : List RegRow :=
  [⟨0x0, [], .ow, 0x00000010, 0x0000001F⟩,
   ⟨0x10, [], .sc, 0x00000000, 0xFF8003FF⟩,
   ⟨0x14, [], .ro, 0x00000000, 0x00000000⟩,
   ⟨0x18, [], .ro, 0x00000000, 0x00000000⟩,
   ⟨0x1C, [], .ro, 0x00000000, 0x00000000⟩,
   ⟨0x1000, [(0x10, 64)], .ow, 0x00000010, 0x0000001F⟩,
   ⟨0x1004, [(0x10, 64)], .eb, 0x80000000, 0xFE0003FF⟩,
   ⟨0x1008, [(0x10, 64)], .ow, 0x00000000, 0x80000000⟩,
   ⟨0x100C, [(0x10, 64)], .ow, 0x00000000, 0xFFFFFFFF⟩,
   ⟨0x2000, [(0x20, 16)], .ow, 0x00000010, 0x0000001F⟩,
   ⟨0x2004, [(0x20, 16)], .eb, 0x00000000, 0xFFFFFC00⟩,
   ⟨0x2008, [(0x20, 16)], .eb, 0x00000000, 0x0000FFFF⟩] ++
  [⟨0x200C, [(0x20, 16)], .eb, 0x80808080, 0xFFFFFFFF⟩,
   ⟨0x2010, [(0x20, 16)], .ro, 0x00000000, 0x00000000⟩]

/-- Registers of block fb. -/
def rows_fb : List RegRow :=
  [⟨0x0, [], .ow, 0x00000010, 0x0000001F⟩,
   ⟨0x10, [], .wo, 0x00000000, 0x800F03FF⟩,
   ⟨0x14, [], .sc, 0x00000000, 0xFF8003FF⟩,
   ⟨0x18, [], .ro, 0x00000000, 0x00000000⟩,
   ⟨0x100, [(0x4, 32)], .ro, 0x00000000, 0x00000000⟩,
   ⟨0x10000, [(0x10, 1024)], .ow, 0x00000010, 0x0000001F⟩,
   ⟨0x10004, [(0x10, 1024)], .eb, 0x80000000, 0xFF001FFF⟩,
   ⟨0x10008, [(0x10, 1024)], .ow, 0x00000000, 0x80000000⟩,
   ⟨0x1000C, [(0x10, 1024)], .ow, 0x00000000, 0xFFFFFFFF⟩,
   ⟨0x20000, [(0x20, 256)], .ow, 0x00000010, 0x0000001F⟩,
   ⟨0x20004, [(0x20, 256)], .eb, 0x00000000, 0xFFFFFC00⟩,
   ⟨0x20008, [(0x20, 256)], .eb, 0x00000000, 0x0000FFFF⟩] ++
  [⟨0x2000C, [(0x20, 256)], .eb, 0x04000400, 0x07FF07FF⟩,
   ⟨0x20010, [(0x20, 256)], .eb, 0x04000400, 0x07FF07FF⟩,
   ⟨0x20014, [(0x20, 256)], .ro, 0x00000000, 0x00000000⟩,
   ⟨0x30000, [(0x20, 128)], .ow, 0x00000010, 0x0000001F⟩,
   ⟨0x30004, [(0x20, 128)], .eb, 0x00000000, 0xDF3FF3FF⟩,
   ⟨0x30008, [(0x20, 128)], .eb, 0x00000000, 0xFFFFFFFF⟩,
   ⟨0x3000C, [(0x20, 128)], .eb, 0x00000000, 0xFFFFFFFF⟩,
   ⟨0x30010, [(0x20, 128)], .ow, 0x00000001, 0xC0000000⟩]

/-- Registers of block cc. -/
def rows_cc : List RegRow :=
  [⟨0x0, [], .ow, 0x00000010, 0x0000001F⟩,
   ⟨0x10, [], .ow, 0xC0000000, 0xC0000000⟩,
   ⟨0x14, [], .ow, 0x00000000, 0xFFFFFFFC⟩,
   ⟨0x18, [], .ro, 0x10000000, 0x00000000⟩,
   ⟨0x1C, [], .sc, 0x00000000, 0xFF80000F⟩,
   ⟨0x20, [], .ro, 0x00000000, 0x00000000⟩]

/-- Registers of block sch. -/
def rows_sch : List RegRow :=
  [⟨0x0, [], .ow, 0x00000010, 0x0000001F⟩,
   ⟨0x10, [], .ow, 0x00000000, 0xC0000000⟩,
   ⟨0x14, [], .ow, 0x000E0000, 0xFFFFFFFF⟩,
   ⟨0x18, [], .ro, 0x00800000, 0x00000000⟩,
   ⟨0x1C, [], .sc, 0x00000000, 0xFF80003F⟩,
   ⟨0x20, [], .ro, 0x00000000, 0x00000000⟩,
   ⟨0x24, [], .ro, 0x00000000, 0x00000000⟩,
   ⟨0x28, [], .wo, 0x00000000, 0x00000000⟩,
   ⟨0x1000, [], .ow, 0x80000000, 0xF000000F⟩,
   ⟨0x1010, [(0x10, 255)], .ow, 0x00000000, 0xF000000F⟩,
   ⟨0x1004, [(0x10, 256)], .ow, 0x00000000, 0x83FF83FF⟩,
   ⟨0x1008, [(0x10, 256)], .ow, 0x00000000, 0x0000000F⟩] ++
  [⟨0x100C, [(0x10, 256)], .ro, 0x00000000, 0x00000000⟩]

/-- Registers of block me. -/
def rows_me : List RegRow :=
  [⟨0x200000, [], .ow, 0x00000010, 0x0000001F⟩,
   ⟨0x200010, [], .ow, 0xC0000000, 0xC0000000⟩,
   ⟨0x200014, [], .sc, 0x00000000, 0xFF80001F⟩,
   ⟨0x200018, [], .ro, 0x00000000, 0x00000000⟩,
   ⟨0x20001C, [], .ro, 0x00000000, 0x00000000⟩,
   ⟨0x200020, [], .ro, 0x00000000, 0x00000000⟩]

/-- Registers of block fl. -/
def rows_fl : List RegRow :=
  [⟨0x0, [], .ow, 0x00000010, 0x0000001F⟩,
   ⟨0x10, [], .sc, 0x00000000, 0xFF8001FF⟩,
   ⟨0x14, [], .ow, 0x00000000, 0xFFFFFFFF⟩,
   ⟨0x18, [], .ro, 0x00000000, 0x00000000⟩,
   ⟨0x1C, [], .ro, 0x00000000, 0x00000000⟩,
   ⟨0x100, [(0x80, 2)], .ow, 0x00000000, 0xFFFFFFFF⟩,
   ⟨0x104, [(0x80, 2), (0x4, 8)], .ow, 0x00000000, 0xFFFFFFFF⟩,
   ⟨0x124, [(0x80, 2)], .wo, 0x00000000, 0xF0000000⟩,
   ⟨0x128, [(0x80, 2)], .ro, 0x00000000, 0x00000000⟩]

/-- Registers of block dma. -/
def rows_dma : List RegRow :=
  [⟨0x0, [], .ow, 0x00000010, 0x0000001F⟩,
   ⟨0x10, [], .ro, 0x00000000, 0x00000000⟩,
   ⟨0x14, [], .ro, 0x00000000, 0x00000000⟩,
   ⟨0x1000, [(0x40, 64)], .ow, 0x00000010, 0x0000001F⟩,
   ⟨0x1004, [(0x40, 64)], .ow, 0x00000000, 0xFF8003FF⟩,
   ⟨0x1008, [(0x40, 64)], .ow, 0x00000000, 0xFFFFFFFF⟩,
   ⟨0x100C, [(0x40, 64)], .ow, 0x00000000, 0xFFFFFFFF⟩,
   ⟨0x1010, [(0x40, 64)], .ow, 0x00000000, 0xFFFFFFFF⟩,
   ⟨0x1014, [(0x40, 64)], .ow, 0x00000000, 0xFFFFFFFF⟩,
   ⟨0x1018, [(0x40, 64)], .ow, 0x00000000, 0xFFFFFFFF⟩,
   ⟨0x101C, [(0x40, 64)], .ow, 0x00000000, 0xFFFFFFFF⟩,
   ⟨0x1020, [(0x40, 64)], .ow, 0x00000000, 0xFFFFFFFF⟩] ++
  [⟨0x1024, [(0x40, 64)], .ow, 0x00000000, 0xC0000000⟩,
   ⟨0x1028, [(0x40, 64)], .sc, 0x00000000, 0xFF8007FF⟩,
   ⟨0x102C, [(0x40, 64)], .ro, 0x00000000, 0x00000000⟩,
   ⟨0x1030, [(0x40, 64)], .ro, 0x00000000, 0x00000000⟩,
   ⟨0x1034, [(0x40, 64)], .ro, 0x00000000, 0x00000000⟩]

/-- Registers of block qm. -/
def rows_qm : List RegRow :=
  [⟨0x0, [], .ow, 0x00000010, 0x0000001F⟩,
   ⟨0x10, [], .sc, 0x00000000, 0xFF80001F⟩,
   ⟨0x14, [], .ro, 0x00020000, 0x00000000⟩,
   ⟨0x18, [], .ro, 0x00000000, 0x00000000⟩,
   ⟨0x10000, [(0x1000, 16), (0x100, 16)], .rw, 0x00000000, 0xFFFFFFFF⟩,
   ⟨0x10004, [(0x1000, 16), (0x100, 16)], .ro, 0x00000000, 0x00000000⟩,
   ⟨0x10008, [(0x1000, 16), (0x100, 16)], .ro, 0x00000000, 0x00000000⟩,
   ⟨0x10040, [(0x1000, 16), (0x100, 16), (0x4, 16)], .rw, 0x00000000, 0xFFFFFFFF⟩,
   ⟨0x200000, [(0x20, 65536)], .ow, 0x00000010, 0x0000001F⟩,
   ⟨0x200004, [(0x20, 65536)], .ow, 0x00000000, 0xCFFF0000⟩,
   ⟨0x200008, [(0x20, 65536)], .ow, 0x00000000, 0x1FFF1FFF⟩,
   ⟨0x20000C, [(0x20, 65536)], .ow, 0x00000000, 0xC000007F⟩] ++
  [⟨0x200010, [(0x20, 65536)], .ro, 0x00004000, 0x00000000⟩,
   ⟨0x200014, [(0x20, 65536)], .ro, 0x00000000, 0x00000000⟩]

/-- Registers of block mb. -/
def rows_mb : List RegRow :=
  [⟨0x0, [], .ow, 0x00000010, 0x0000001F⟩,
   ⟨0x10, [], .sc, 0x00000000, 0xFF80001F⟩,
   ⟨0x14, [], .ro, 0x00000000, 0x00000000⟩,
   ⟨0x1000, [(0x20, 1024)], .ow, 0x00000000, 0xC00F0F0F⟩,
   ⟨0x1004, [(0x20, 1024)], .ro, 0x00000000, 0x00000000⟩,
   ⟨0x1008, [(0x20, 1024)], .ro, 0x00000000, 0x00000000⟩,
   ⟨0x100C, [(0x20, 1024)], .rw, 0x00000000, 0x8000003F⟩,
   ⟨0x1010, [(0x20, 1024)], .ro, 0x00000000, 0x00000000⟩]

/-- Registers of block nx. -/
def rows_nx : List RegRow :=
  [⟨0x0, [], .ow, 0x00000010, 0x0000001F⟩,
   ⟨0x10, [], .ow, 0x800A0000, 0x83FF0FFF⟩,
   ⟨0x14, [], .sc, 0x00000000, 0xFF80003F⟩,
   ⟨0x18, [], .ow, 0x00575903, 0xFFFFFFFF⟩,
   ⟨0x1C, [], .ow, 0x00000000, 0x0000FFFF⟩,
   ⟨0x20, [], .ow, 0x0000F6F8, 0x0000FFFF⟩,
   ⟨0x100, [(0x80, 4)], .ow, 0x0F000000, 0x0F010103⟩,
   ⟨0x104, [(0x80, 4)], .ow, 0x000088B5, 0x0000FFFF⟩,
   ⟨0x108, [(0x80, 4)], .ow, 0x0000C075, 0x8FFFFF77⟩,
   ⟨0x10C, [(0x80, 4)], .ow, 0x00000C80, 0xFFFFFFFF⟩,
   ⟨0x110, [(0x80, 4)], .ow, 0x00000040, 0xFFFFFFFF⟩,
   ⟨0x114, [(0x80, 4)], .ro, 0x00000000, 0x00000000⟩] ++
  [⟨0x118, [(0x80, 4)], .ro, 0x00000000, 0x00000000⟩,
   ⟨0x11C, [(0x80, 4)], .ro, 0x00000000, 0x00000000⟩,
   ⟨0x120, [(0x80, 4)], .ro, 0x00000000, 0x00000000⟩,
   ⟨0x100000, [(0x20, 4096)], .ow, 0x03000000, 0xCFFF0FFF⟩,
   ⟨0x100004, [(0x20, 4096)], .ow, 0x00000000, 0xFFFFFFFF⟩,
   ⟨0x100008, [(0x20, 4096)], .ow, 0x00000000, 0xFFFFFFFF⟩,
   ⟨0x10000C, [(0x20, 4096)], .ow, 0x00000000, 0x83FF83FF⟩,
   ⟨0x100010, [(0x20, 4096)], .ow, 0x00000000, 0xC000007F⟩,
   ⟨0x100014, [(0x20, 4096)], .ro, 0x00000000, 0x00000000⟩,
   ⟨0x100018, [(0x20, 4096)], .sc, 0x00000000, 0xFF80007F⟩]

/-- Registers of block hp. -/
def rows_hp : List RegRow :=
  [⟨0x0, [], .ow, 0x00000010, 0x0000001F⟩,
   ⟨0x10, [], .ro, 0x00000000, 0x00000000⟩,
   ⟨0x14, [], .ro, 0x00000000, 0x00000000⟩,
   ⟨0x18, [], .sc, 0x00000000, 0xFF80000F⟩,
   ⟨0x1C, [], .ro, 0x00000000, 0x00000000⟩,
   ⟨0x100, [(0x4, 64)], .ow, 0x00000000, 0x800003FF⟩]

/-- Registers of block can. -/
def rows_can : List RegRow :=
  [⟨0x10, [], .ow, 0x00000000, 0xF8000000⟩,
   ⟨0x14, [], .ow, 0x00000000, 0xFFFFFFFF⟩,
   ⟨0x18, [], .ow, 0x00000000, 0xFFFFFFFF⟩,
   ⟨0x1C, [], .ow, 0x00000000, 0xFFFFFFFF⟩,
   ⟨0x20, [], .ow, 0x00000000, 0xFFFFFFFF⟩,
   ⟨0x24, [], .sc, 0x00000000, 0xFF80001F⟩,
   ⟨0x28, [], .ro, 0x00000000, 0x00000000⟩,
   ⟨0x100, [(0x8, 32)], .ow, 0x00000000, 0xBFFFFFFF⟩,
   ⟨0x104, [(0x8, 32)], .ow, 0x00000000, 0xFFFFFFFF⟩,
   ⟨0x0, [], .ow, 0x00000010, 0x0000001F⟩]

/-- Registers of block uart. -/
def rows_uart : List RegRow :=
  [⟨0x10, [], .ow, 0x00000000, 0x83EFFFFF⟩,
   ⟨0x14, [], .rw, 0x00000000, 0x000001FF⟩,
   ⟨0x18, [], .sc, 0x00000000, 0xFF800007⟩,
   ⟨0x0, [], .ow, 0x00000010, 0x0000001F⟩]

/-- Registers of block spi. -/
def rows_spi : List RegRow :=
  [⟨0x10, [], .ow, 0x00000000, 0xBFFFF8FF⟩,
   ⟨0x14, [], .rw, 0x00000000, 0xFFFFFFFF⟩,
   ⟨0x18, [], .sc, 0x00000000, 0xFF800003⟩,
   ⟨0x0, [], .ow, 0x00000010, 0x0000001F⟩]

/-- Registers of block i2c. -/
def rows_i2c : List RegRow :=
  [⟨0x10, [], .ow, 0x00000000, 0xF0000000⟩,
   ⟨0x14, [], .wo, 0x00000000, 0xE3FF00FF⟩,
   ⟨0x18, [], .rw, 0x00000000, 0x000000FF⟩,
   ⟨0x1C, [], .sc, 0x00000000, 0xFF80000F⟩,
   ⟨0x0, [], .ow, 0x00000010, 0x0000001F⟩]

/-- Registers of block xspi. -/
def rows_xspi : List RegRow :=
  [⟨0x0, [], .ow, 0x00000010, 0x0000001F⟩]

/-- Registers of block fc. -/
def rows_fc : List RegRow :=
  [⟨0x0, [], .ow, 0x00000010, 0x0000001F⟩,
   ⟨0x10, [], .ow, 0xD00003E8, 0xF000FFFF⟩,
   ⟨0x14, [], .sc, 0x00000000, 0xFF80007F⟩,
   ⟨0x18, [], .ro, 0x00000000, 0x00000000⟩,
   ⟨0x1C, [], .ro, 0x00000000, 0x00000000⟩,
   ⟨0x20, [], .ow, 0x00000000, 0x00001FFF⟩,
   ⟨0x24, [], .ro, 0x00000000, 0x00000000⟩,
   ⟨0x28, [], .wo, 0x00000000, 0x00001FFF⟩,
   ⟨0x2C, [], .wo, 0x00000000, 0x00001FFF⟩,
   ⟨0x30, [], .wo, 0x00000000, 0x00001FFF⟩,
   ⟨0x34, [], .ro, 0x00000000, 0x00000000⟩,
   ⟨0x40, [], .ll, 0x00000000, 0x00000000⟩] ++
  [⟨0x48, [(0x4, 7)], .hs, 0x00000000, 0x00000000⟩]

/-- Registers of block pw. -/
def rows_pw : List RegRow :=
  [⟨0x0, [], .ow, 0x00000010, 0x0000001F⟩,
   ⟨0x10, [], .ow, 0x00000000, 0xC0000000⟩,
   ⟨0x14, [], .ro, 0x00000000, 0x00000000⟩,
   ⟨0x18, [], .sc, 0x00000000, 0xFF8000FF⟩,
   ⟨0x1C, [], .ro, 0x00000000, 0x00000000⟩,
   ⟨0x20, [], .wo, 0x00000000, 0x0000FFFF⟩,
   ⟨0x24, [], .wo, 0x00000000, 0x0000FFFF⟩,
   ⟨0x28, [], .wo, 0x00000000, 0x0000FFFF⟩,
   ⟨0x2C, [], .ow, 0x0000000A, 0x0000FFFF⟩,
   ⟨0x30, [], .ow, 0x00000000, 0x000000FF⟩,
   ⟨0x34, [], .ro, 0x00000000, 0x00000000⟩,
   ⟨0x38, [], .ro, 0x00000001, 0x00000000⟩] ++
  [⟨0x3C, [], .ro, 0x00000000, 0x00000000⟩,
   ⟨0x40, [], .ow, 0x00000000, 0x80000000⟩,
   ⟨0x400, [], .ow, 0x00000010, 0x0000001F⟩,
   ⟨0x410, [], .sc, 0x00000000, 0xFF80000F⟩,
   ⟨0x500, [(0x10, 17)], .ow, 0x80000001, 0x80000003⟩,
   ⟨0x504, [(0x10, 17)], .ow, 0x23C2B8AE, 0xFFFFFFFF⟩,
   ⟨0x508, [(0x10, 17)], .ro, 0x00000000, 0x00000000⟩,
   ⟨0x50C, [(0x10, 17)], .ro, 0x00000000, 0x00000000⟩]

/-- Registers of block pm. The GPIO registers stand at addresses that R514 also gives to balls 64 to 75 (log entry 23). -/
def rows_pm : List RegRow :=
  [⟨0x200, [(0x4, 3)], .ro, 0x00000000, 0x00000000⟩,
   ⟨0x210, [(0x4, 3)], .ow, 0x00000000, 0xFFFFFFFF⟩,
   ⟨0x220, [(0x4, 3)], .ow, 0x00000000, 0xFFFFFFFF⟩,
   ⟨0x0, [], .ow, 0x00000010, 0x0000001F⟩,
   ⟨0x10, [], .sc, 0x00000000, 0xFF800001⟩,
   ⟨0x14, [], .ro, 0x00000000, 0x00000000⟩,
   ⟨0x100, [(0x4, 67)], .ow, 0x00001000, 0x0000F003⟩,
   ⟨0x20C, [(0x4, 9)], .ow, 0x00001001, 0x0000F003⟩,
   ⟨0x1000, [(0x100, 16)], .ow, 0x00000010, 0x0000001F⟩,
   ⟨0x1010, [(0x100, 16), (0x4, 16)], .ow, 0x00000000, 0x0000F3F7⟩]

end Sys2Proof.Machine
end

