-- ==== Sys2Proof/Machine/Locate.lean ====
section
/-!
DEFINITION. From a device address to a block and an offset (R28, R29), and from there to a row of the register map.
-/
namespace Sys2Proof.Machine

/-- A block instance with registers of its own. -/
inductive Blk where
  | sys | tb | ep | fb | me | fl | dma | qm | mb | nx | hp | xspi | fc | pw | pm
  | le (n m : Nat) | ic (n : Nat) | tu (n k : Nat) | ac (n c : Nat) | sd (n d : Nat) | cp (n c : Nat)
  | eq (n q : Nat) | mk (n k : Nat) | fi (n : Nat) | cc (n : Nat) | sch (n : Nat)
  | can (k : Nat) | uart (k : Nat) | spi (k : Nat) | i2c (k : Nat)
deriving DecidableEq, Repr

/-- The island a block lies in, if it lies in one. -/
def Blk.island : Blk → Option Nat
  | .le n _ | .ic n | .tu n _ | .ac n _ | .sd n _ | .cp n _ | .eq n _ | .mk n _ | .fi n => some n
  | _ => none

/-- The block at an offset of an island window (R29), with the offset in the block's map. -/
def locateIsland (n o : Nat) : Option (Blk × Nat) :=
  if o < 0xC0000 then
    let m := o / 0x20000
    let r := o % 0x20000
    if 0x18000 ≤ r ∧ r < 0x19000 then some (.le n m, r - 0x18000) else none
  else if o < 0x200000 then none
  else if o < 0x204000 then some (.tu n ((o - 0x200000) / 0x1000), o % 0x1000)
  else if o < 0x210000 then none
  else if o < 0x212000 then some (.ac n ((o - 0x210000) / 0x1000), o % 0x1000)
  else if o < 0x220000 then none
  else if o < 0x221000 then some (.sd n ((o - 0x220000) / 0x400), o % 0x400)
  else if o < 0x230000 then none
  else if o < 0x232000 then some (.cp n ((o - 0x230000) / 0x400), o % 0x400)
  else if o < 0x240000 then none
  else if o < 0x240800 then some (.eq n ((o - 0x240000) / 0x400), o % 0x400)
  else if o < 0x241000 then none
  else if o < 0x241400 then some (.mk n ((o - 0x241000) / 0x100), o % 0x100)
  else if o < 0x250000 then none
  else if o < 0x260000 then some (.fi n, o - 0x250000)
  else if o < 0x270000 then some (.ic n, o)
  else none

/-- The block at an offset of the SYS slot (R27, R314, R335, R356). -/
def locateSys (o : Nat) : Option (Blk × Nat) :=
  if o < 0x8000 then some (.sys, o)
  else if o < 0x8800 then some (.cc ((o - 0x8000) / 0x100), o % 0x100)
  else if 0x100000 ≤ o ∧ o < 0x180000 then some (.sch ((o - 0x100000) / 0x10000), o % 0x10000)
  else if 0x200000 ≤ o ∧ o < 0x201000 then some (.me, o)
  else none

/-- The block at an offset of the slot of the serial peripherals (R434). -/
def locateSerial (o : Nat) : Option (Blk × Nat) :=
  if o < 0x4000 then some (.can (o / 0x1000), o % 0x1000)
  else if 0x10000 ≤ o ∧ o < 0x14000 then some (.uart ((o - 0x10000) / 0x1000), o % 0x1000)
  else if 0x20000 ≤ o ∧ o < 0x28000 then some (.spi ((o - 0x20000) / 0x1000), o % 0x1000)
  else if 0x30000 ≤ o ∧ o < 0x34000 then some (.i2c ((o - 0x30000) / 0x1000), o % 0x1000)
  else if 0x40000 ≤ o ∧ o < 0x41000 then some (.xspi, o - 0x40000)
  else none

/-- The block and offset of a device address (R28). Staging aliases are not blocks: see `aliasTarget`. -/
def locate (a : Nat) : Option (Blk × Nat) :=
  let slot := a / 0x1000000
  let o := a % 0x1000000
  if 0x40 ≤ slot ∧ slot < 0x50 then locateIsland (slot - 0x40) o
  else match slot with
    | 0x50 => some (.fb, o)
    | 0x51 => some (.qm, o)
    | 0x52 => some (.dma, o)
    | 0x53 => some (.nx, o)
    | 0x54 => some (.hp, o)
    | 0x55 => locateSerial o
    | 0x56 => some (.ep, o)
    | 0x57 => some (.tb, o)
    | 0x58 => some (.fc, o)
    | 0x59 => some (.pw, o)
    | 0x5A => some (.mb, o)
    | 0x5B => some (.pm, o)
    | 0x5C => some (.fl, o)
    | 0x5D => locateSys o
    | _ => none

/-- The register rows of a block. -/
def Blk.rows : Blk → List RegRow
  | .sys => rows_sys | .tb => rows_tb | .ep => rows_ep | .fb => rows_fb | .me => rows_me | .fl => rows_fl
  | .dma => rows_dma | .qm => rows_qm | .mb => rows_mb | .nx => rows_nx | .hp => rows_hp | .xspi => rows_xspi
  | .fc => rows_fc | .pw => rows_pw | .pm => rows_pm | .le _ _ => rows_le | .ic _ => rows_ic | .tu _ _ => rows_tu
  | .ac _ _ => rows_ac | .sd _ _ => rows_sd | .cp _ _ => rows_cp | .eq _ _ => rows_eq | .mk _ _ => rows_mk
  | .fi _ => rows_fi | .cc _ => rows_cc | .sch _ => rows_sch | .can _ => rows_can | .uart _ => rows_uart
  | .spi _ => rows_spi | .i2c _ => rows_i2c

/-- Does distance `x` lie on the grid of the given strides and counts? -/
def onGrid : List (Nat × Nat) → Nat → Bool
  | [], x => x == 0
  | (st, c) :: r, x => decide (x / st < c) && onGrid r (x % st)

/-- Does a row of the map hold offset `o`? -/
def RegRow.holds (r : RegRow) (o : Nat) : Bool := decide (r.off ≤ o) && onGrid r.dims (o - r.off)

/-- The row of the register map at a block's offset. `SD_CLK` exists in SD0 only: the same offset in SD1 to SD3 reads
0 (R223). `WATCH` reads 0 in CP2 to CP7 (R217). -/
def Blk.row (b : Blk) (o : Nat) : Option RegRow :=
  match b, b.rows.find? (fun r => r.holds o) with
  | .sd _ (_ + 1), some r => if o = 0x30 then some { r with access := .ro, reset := 0, wmask := 0 } else some r
  | .cp _ c, some r => if o = 0x10 ∧ 2 ≤ c then some { r with wmask := 0xC3FFFFF7#32 } else some r
  | .cc n, some r =>
    if o = 0x10 ∧ n % 2 = 1 then some { r with reset := 0x80000000#32, wmask := 0x80000000#32 } else some r
  | _, x => x

/-- The row of the register map at a device address. -/
def rowAt (a : Nat) : Option RegRow :=
  match locate a with
  | some (b, o) => b.row o
  | none => none

/-- The reset value of the register at an address; 0 where there is none. -/
def regReset (a : Nat) : Word :=
  match rowAt a with
  | some r => r.reset
  | none => 0#32

/-- The island whose window holds an address (R28). -/
def islandOf (a : Nat) : Option Nat :=
  if 0x40000000 ≤ a ∧ a < 0x50000000 then some ((a - 0x40000000) / 0x1000000) else none

/-- The address whose shadow a staging alias address names (R56): the window must be an island's or the slot of the one
central block with EB registers, FB (R276), and the offset at or above 0x80_0000. -/
def aliasTarget (a : Nat) : Option Nat :=
  if 0x40000000 ≤ a ∧ a < 0x51000000 ∧ 0x800000 ≤ a % 0x1000000 then some (a - 0x800000) else none

/-- The loop engine whose descriptor and parameter memory holds an address, with the word index (R29). -/
def descWord (a : Nat) : Option (Nat × Nat × Nat) :=
  match islandOf a with
  | some n =>
    let o := a % 0x1000000
    if o < 0xC0000 ∧ o % 0x20000 < 0x10000 then some (n, o / 0x20000, o % 0x20000 / 4) else none
  | none => none

/-- The loop engine whose state memory holds an address, with the word index (R29). -/
def stateWord (a : Nat) : Option (Nat × Nat × Nat) :=
  match islandOf a with
  | some n =>
    let o := a % 0x1000000
    if o < 0xC0000 ∧ 0x10000 ≤ o % 0x20000 ∧ o % 0x20000 < 0x18000 then
      some (n, o / 0x20000, (o % 0x20000 - 0x10000) / 4)
    else none
  | none => none

/-- Is the address that of an epoch-bound register or memory word (R56)? -/
def isEB (a : Nat) : Bool :=
  match rowAt a with
  | some r => r.access == .eb
  | none => (descWord a).isSome && a % 4 == 0

end Sys2Proof.Machine
end

