-- ==== Sys2Proof/Machine/Store.lean ====
section
/-!
DEFINITION. Sparse data by key in one canonical form: a list of key and value pairs whose keys rise strictly and which
lists no pair equal to what an unlisted key reads as. What an unlisted key reads as is the argument `d`. Registers,
memories and per-unit records are kept this way, so that equal contents are equal data.
-/
namespace Sys2Proof.Machine

/-- Sparse data by key. -/
abbrev Store (α : Type) := List (Nat × α)

/-- What key `k` reads as. -/
def Store.get {α : Type} (d : Nat → α) (k : Nat) : Store α → α
  | [] => d k
  | (j, v) :: r => if k = j then v else Store.get d k r

/-- The pair for a written key, or nothing where the value is what an unlisted key reads as. -/
def Store.cell {α : Type} [DecidableEq α] (d : Nat → α) (k : Nat) (v : α) : Store α :=
  if v = d k then [] else [(k, v)]

/-- Drop every key for which `p` holds: those keys read as unlisted again. -/
def Store.clear {α : Type} (p : Nat → Bool) (s : Store α) : Store α := s.filter (fun c => !p c.1)

/-- Write `v` at key `k`, keeping the canonical form. -/
def Store.set {α : Type} [DecidableEq α] (d : Nat → α) (k : Nat) (v : α) : Store α → Store α
  | [] => Store.cell d k v
  | (j, u) :: r =>
    if k = j then Store.set d k v r
    else if k < j then Store.cell d k v ++ (j, u) :: Store.clear (fun i => i == k) r
    else (j, u) :: Store.set d k v r

/-- Keys of a store all at least `n` and strictly rising, no pair a default (the canonical form). -/
def Store.wfFrom {α : Type} [DecidableEq α] (d : Nat → α) (n : Nat) : Store α → Bool
  | [] => true
  | (j, v) :: r => decide (n ≤ j) && decide (v ≠ d j) && Store.wfFrom d (j + 1) r

/-- The canonical form. -/
def Store.wf {α : Type} [DecidableEq α] (d : Nat → α) (s : Store α) : Bool := Store.wfFrom d 0 s

end Sys2Proof.Machine
end

