-- ==== Sys2Proof/Machine/State.lean ====
section
/-!
DEFINITION. The state of the block: plain data. Every register value lives in `State.regs` under its device address
(the register map gives what an unlisted address reads as); what the spec gives a block beside its registers lives in
that block's record.
-/
namespace Sys2Proof.Machine
open Sys2Proof

/-- How an access ended in an error response (R5, R13, R18, R28). -/
inductive BusErr where
  /-- A core's own alignment check (R288). -/
  | misaligned
  /-- Not mapped, or not reachable by the master (R28). -/
  | unreachable
  /-- Size or alignment (R5). -/
  | size
  /-- The island is off, in reset or behind a timed-out link (R13), or a transfer and its repeat failed parity (R445). -/
  | islandOff
  /-- Ownership violation (R18). -/
  | ownership
  /-- The block refuses the access by a rule of its own (R77, R79, R335). -/
  | blockRefused
  /-- An uncorrectable word (R50, R338, R341). -/
  | ecc
deriving DecidableEq, Repr

/-- The response of an access. -/
inductive BusResult where
  | data (w : Word)
  | done
  | error (e : BusErr)
deriving DecidableEq, Repr

/-- The last response that left the interconnect, with the master that got it: what the sender of a command sees. -/
structure Reply where
  master : Master
  result : BusResult
deriving DecidableEq, Repr

/-! ### Timebase and calendar (chapter 02) -/

/-- An armed global start (R41, R43). -/
structure StartReq where
  beat : BitVec 64
  mask0 : Word
  mask1 : Word
  /-- Rejected as late: pending but never executed. -/
  rejected : Bool
deriving DecidableEq, Repr

/-- A coupling event on its way to a slave unit 4n + k: release tick on the device's timeline, and whether it is a
falling reference edge (R44, R173). -/
structure Coupling where
  unit : Nat
  atTick : Nat
  fall : Bool
  direct : Bool
deriving DecidableEq, Repr

/-- What the timebase and the calendar hold beside their registers. -/
structure ClockState where
  /-- Beat count B (R33). -/
  beat : BitVec 64
  /-- Tick index within the beat (R31). -/
  tick : Fin 5
  /-- Offset D of device time (R33). -/
  dOfs : BitVec 64
  /-- D of the islands that have not taken the last step (R40). -/
  dIsland : Store (BitVec 64)
  /-- The changes of D, newest first: beat of the change, and what `dOfs` and `dIsland` were before it. -/
  dPast : List (Nat × BitVec 64 × Store (BitVec 64))
  /-- Pending step: beat and value (R36). -/
  step : Option (BitVec 64 × BitVec 64)
  /-- Pending global start. -/
  start : Option StartReq
  /-- Request beat W of each domain's last beat-scheduled write (R38). -/
  reqBeat : Store (BitVec 64)
  /-- Coupling events under way (R44). -/
  couplings : List Coupling
  /-- RATE in force and RATE on the way (R35), in units of 2^-40. -/
  rateNow : Int
  rateGoal : Int
  /-- Beat from which the next increment of a rate change may be applied: 100 µs after the last one (R35). -/
  rateNext : BitVec 64
  /-- Consecutive sync intervals under 100 ns (R37). -/
  syncGood : Nat
  /-- Beat at which the sync bit of each island last returned (R40, R68). -/
  syncAt : Store (BitVec 64)
  /-- The beat runs from the internal oscillator (R447). -/
  clockFault : Bool
  /-- Calendar ERA, SECONDS and SUB (R46). -/
  era : Nat
  seconds : Nat
  sub : Nat
  /-- Oscillator edges left before a calendar load (R47). -/
  loadIn : Option Nat
  /-- Late alarms that fire at the next oscillator edge (R52). -/
  lateAlarms : List (Fin 4)
  /-- Progress of the model's clock towards the next oscillator edge, in units of 2^-48 tick at a RATE of 0 (log entry
  6). -/
  oscAcc : Nat
deriving DecidableEq, Repr

/-! ### Epochs and snapshots (chapter 03) -/

/-- An entry of an epoch: the shadow of one register or memory word (R57). -/
structure Entry where
  slot : Nat
  addr : Nat
  value : Word
  due : Bool
deriving DecidableEq, Repr

/-- What the epoch controller holds beside its registers. -/
structure EpochState where
  /-- ID that the next open issues (R61). -/
  nextId : Nat
  /-- Haul-down beat N of each armed slot. -/
  armedAt : Store (BitVec 64)
  /-- Slots whose last request was made under ASAP (R63). -/
  asap : Store Bool
  /-- Entries of all epochs in the order of their first staging. -/
  entries : List Entry
  /-- Islands that hold due entries until their sync bit has been back for two beats: island and beat (R68). -/
  unsync : List (Nat × BitVec 64)
deriving DecidableEq, Repr

/-- What the snapshot unit holds beside its registers (R77 to R79). -/
structure SnapState where
  /-- A distribution is in progress. -/
  loading : Bool
  /-- Address words are closed to software: from SN_LOAD to the next taken SN_COUNT. -/
  closed : Bool
  /-- The distributed address words. -/
  list : List Word
  /-- Capture beat. -/
  armedAt : BitVec 64
  /-- The pending capture was rejected as late. -/
  rejected : Bool
  /-- Captured values on their way to the memory: pair, value, failed. -/
  captured : List (Nat × Word × Bool)
deriving DecidableEq, Repr

/-! ### Fabric (chapter 10) -/

/-- A pennant's record counters (R270). -/
structure PennantRec where
  seq : Nat
  lost : Nat
deriving DecidableEq, Repr

/-- An event record on its way to its queue (R270). -/
structure EventRecord where
  pennant : Nat
  w0 : Word
  w1 : Word
  w2hi : Word
deriving DecidableEq, Repr

/-- A transition on the resynchronised path (R261): ticks until it is presented, the pennant and its level; `all` where
every consumer of the pennant takes that path. -/
structure LateTransition where
  left : Nat
  pennant : Nat
  level : Bool
  all : Bool
deriving DecidableEq, Repr

/-- What the fabric holds beside its registers. -/
structure FabricState where
  /-- Levels of the level sources, by global source number (R251, R252). -/
  lines : Store Bool
  pennants : Store PennantRec
  /-- Look-up output L of each hoist before the present instant (R264). -/
  lookups : Store Bool
  /-- Event records buffered in each segment (R271): segment 0 to 15, 16 global. -/
  records : Store (List EventRecord)
  /-- Tick, plus 1, of the last OFF that reached each signal set (R269). -/
  lastOff : Store Nat
  late : List LateTransition
  /-- Hoists with a filter whose Q differs from the output: counts of the filter, plus 1 (R265). -/
  counts : Store Nat
  /-- Ticks since the last edge of the 1 MHz count clock (R265). -/
  sleep : Nat
deriving DecidableEq, Repr

/-! ### Exchange memory (chapter 01) -/

/-- An exchange word written in the present cycle (R23): the highest requester port that has written it, every port that
has, and the value and the stamp that it had before the cycle. -/
structure XmWordNow where
  word : Nat
  port : Nat
  writers : List Nat
  value : Word
  stamp : Word
deriving DecidableEq, Repr

/-- A frame written in the present cycle: its generation before the cycle, and each write by requester port, with
whether it covered the first and the last word (R23, R25). -/
structure XmFrameNow where
  frame : Nat
  gen : Nat
  writes : List (Nat × Bool × Bool)
deriving DecidableEq, Repr

/-- What has been written to the exchange memory in the present 0.8 ns cycle (R23). -/
structure XmCycle where
  words : List XmWordNow
  frames : List XmFrameNow
deriving DecidableEq, Repr

/-! ### Interconnect, links, islands, faults (chapters 01, 17, 18) -/

/-- What the parity check finds of transfers on a path of the central interconnect (R445): they pass, they fail once and
their repeat passes, or the repeat fails too. -/
inductive PathState where
  | good | flaky | bad
deriving DecidableEq, Repr

/-- What the check bits of a memory word find (R337, R341): nothing, one wrong bit, more. -/
inductive WordMark where
  | good | flipped | bad
deriving DecidableEq, Repr

/-- A handshake link: 0 to 15 the central links, 16 to 31 the neighbour links (R10, R446). -/
structure LinkRec where
  timedOut : Bool
  retired : Bool
deriving DecidableEq, Repr

/-- Power and reset condition of an island (R464, R466, R467). -/
inductive IslandPhase where
  | off | running | resetting | draining
deriving DecidableEq, Repr

/-- State of the device as a whole (R464, R468, R470). -/
inductive DevPhase where
  | run | entering | watch | waking | backup
deriving DecidableEq, Repr

/-- A record of the fault collector (R455, R456). -/
structure FaultRec where
  acked : Bool
  active : Bool
  isOpen : Bool
  severity : Nat
  cause : Nat
  tally : Nat
  incidents : Nat
  transients : Nat
  firstT : BitVec 64
  lastT : Word
  firstRep : Nat
  lastRep : Nat
  detail : Word
  /-- Beat of the incident's first report, for the coalescing window (R453). -/
  firstBeat : BitVec 64
deriving DecidableEq, Repr

/-- What the fault collector holds beside its registers. -/
structure FaultState where
  recs : Store FaultRec
  /-- FAULT_N is held low from power-on reset until the collector starts (R457). -/
  started : Bool
  /-- Rails outside their window (R448). -/
  rails : List (Fin 16)
  /-- Reports made in WATCH, served at wake (R461). -/
  kept : List Instr
deriving DecidableEq, Repr

/-! ### Timer units (chapter 07) -/

/-- An output of a timer unit, as active or inactive: its level before its last transition, and the instant of that
transition in fine steps of the device's timeline. A transition in the future is a turn-on under dead time (R165,
R166). -/
structure OutRec where
  level : Bool
  edge : Option Nat
deriving DecidableEq, Repr

/-- A channel of a timer unit, beside its registers. -/
structure ChanRec where
  /-- The reference (R163). -/
  ref : Bool
  /-- Width and offset in force, in fine steps (R168). -/
  width : Nat
  ofs : Nat
  /-- Width that placed r_on in this period, in fine steps: a mid-period load moves r_off only under CENTER (R169). -/
  wOn : Nat
  outA : OutRec
  outB : OutRec
  /-- Edges passed by the prescaler (R183). -/
  presc : Nat
  /-- A new level of the input that the filter has not accepted yet, with its instant in fine steps (R183). -/
  filt : Option (Bool × Nat)
  /-- Instant of the last captured edge in fine steps (R185). -/
  lastCap : Option Nat
  /-- The last capture has been consumed (R185). -/
  consumed : Bool
deriving DecidableEq, Repr

/-- A timer unit, beside its registers. -/
structure TuRec where
  /-- Ticks until a start takes place (R171). -/
  startIn : Option Nat
  /-- Stop at the next boundary, stop in the next tick (R171). -/
  stopAtBoundary : Bool
  stopNow : Bool
  /-- The gate of a GATE coupling is open (R173). -/
  gateOpen : Bool
  /-- Outputs still held by a system hold that has been released, until the next boundary (R179). -/
  sysTail : Bool
  /-- Outputs at their safe levels until the first boundary after a wake (R186). -/
  wakeHold : Bool
  /-- A period word loaded at the mid-period tick, for the next boundary (R169). -/
  nextPeriod : Option Nat
  /-- The period last taken into force, before its clamp, and the period that word 12 last loaded (R161). -/
  rawP : Option Nat
  loaded12 : Option Nat
  /-- Instant in fine steps since which the outputs hold their levels, while the gate is closed or the unit is frozen
  (R173, R188). -/
  heldAt : Option Nat
  /-- Tick of an AT_BEAT swap, with TU_CHj_CFG of the channels and TU_CFG before it (R175). -/
  cfgWas : Option (Nat × List Word)
  chans : List ChanRec
  /-- Writer of each duty word: 0 software, m + 1 loop engine m (R180), and the tick of its write (R91). -/
  pendBy : List Nat
  pendAt : List Nat
  /-- Consecutive failed checks per output (R182). -/
  rbFails : List Nat
  /-- Level that each output is driven to, 0 low, 1 high, 2 HIZ, with the tick of its last transition, and the tick of its
  last check (R181). -/
  rbOut : List Nat
  rbEdge : List (Option Nat)
  rbLast : List Nat
  /-- Halted cores that froze the unit; 8 for a device-wide halt (R188). -/
  frozenBy : List Nat
  /-- Why a system hold is in force (R179): retirement copies by engine, safe halts by core plus 16, the island's and the
  central sensor 32 and 33; and engines, plus 48, whose retirement has left the unit without its writer (R180). -/
  causes : List Nat
  /-- Beat of the last coupling event, for merging (R44). -/
  lastCouple : Option (BitVec 64)
deriving DecidableEq, Repr

/-! ### Analog blocks (chapter 08) -/

/-- A register set of a converter core, beside its registers. -/
structure AcRec where
  /-- Due ticks of a regular and an injected trigger in their delay (R195). -/
  dueReg : Option Nat
  dueInj : Option Nat
  /-- Ticks in which the present sequences became due, for their order (R206). -/
  ordReg : Nat
  ordInj : Nat
  /-- Next entry of the injected sequence that runs. -/
  injNext : Nat
  /-- The entry whose slot runs, and whether it is injected (R194). -/
  slot : Option Nat
  slotInj : Bool
  /-- Start of the last slot and the earliest start of the next one, in fine steps. -/
  slotAt : Nat
  freeAt : Nat
  /-- Entry register as the running slot took it (R208). -/
  slotCfg : Word
  /-- The continuous sequence restarts when it ends (R198). -/
  cont : Bool
  /-- CHECK bit of the entry whose result AC_DATA holds (R200). -/
  dataCheck : Bool
  /-- Conversions since the last check, and the beat of the last check (R204). -/
  convs : Nat
  lastCheck : BitVec 64
  /-- The next check converts analog ground (R204). -/
  ground : Bool
  /-- Beats of the check transients of the last second (R205). -/
  window : List (BitVec 64)
  /-- The set is served by the partner core (R206). -/
  hosted : Bool
  /-- The hosted set goes back at the end of its present sequence (R459). -/
  handBack : Bool
  /-- The last calibration has brought every factor within its range (R201). -/
  calOk : Bool
deriving DecidableEq, Repr

/-- A comparator, beside its registers. -/
structure CpRec where
  /-- The decision (R215), and the decision behind the filter, before blanking and settling (R216). -/
  dec : Bool
  raw : Bool
  /-- A decision in the filter, with the tick in which it passes. -/
  filt : Option (Bool × Nat)
  /-- An edge to come that opens the blanking window, and the end of an open window, in fine steps (R216). -/
  blankFrom : Option Nat
  blankEnd : Option Nat
deriving DecidableEq, Repr

/-- A demodulator, beside its registers: the samples that its filters hold, newest first; the tick of a restart of the
sinc3 decimation count; the ticks of the last results (R211 to R213). -/
structure SdRec where
  hist3 : List Bool
  hist2 : List Bool
  due : Option Nat
  last3 : Nat
  last2 : Nat
deriving DecidableEq, Repr

/-! ### Position interfaces (chapter 09) -/

/-- An encoder port, beside its registers. -/
structure EqRec where
  /-- Accepted levels of A and B. -/
  a : Bool
  b : Bool
  /-- Balls whose input stands at the level opposite to the accepted one, with the instant of its change (R226). -/
  filtA : Option Nat
  filtB : Option Nat
  /-- The counts that changes replaced, each with the instant of the change, newest first (R241). -/
  counts : List (Nat × Word)
  /-- Instant of the last accepted edge of A, of B, and of the last count edge, in fine steps. -/
  lastA : Option Nat
  lastB : Option Nat
  lastCount : Option Nat
  /-- Tick of the last accepted count edge, for the dwell (R236). -/
  still : Nat
  /-- An SSI trigger waits for the monoflop since this tick (R230). -/
  ssiWait : Option Nat
  /-- A trigger that has arrived, with the tick in which it is due (R195, R230). -/
  ssiDue : Option Nat
  /-- A frame runs, with the tick in which its clock falls. -/
  ssiRun : Option Nat
  /-- EQ_SSI, EQ_CFG and EQ_SSI_CLK of a frame that a swap met under way (R65). -/
  ssiKeep : Option (Word × Word × Word)
  /-- A first frame has set the count (R231). -/
  ssiFirst : Bool
  /-- The next RESET_NEXT index is still to come (R228). -/
  resetNext : Bool
  /-- Start and end of the compare output's pulse, as ticks (R237). -/
  pulseFrom : Nat
  pulseEnd : Option Nat
deriving DecidableEq, Repr

/-- A mark input, beside its registers: the commits (p0, t0), (p1, t1) of R241, newest first, with t in fine
steps. -/
structure MkRec where
  commits : List (BitVec 64 × Nat)
  /-- An input level in the filter, with the instant of its change (R240). -/
  filt : Option (Bool × Nat)
  presc : Nat
  lastCap : Option Nat
  consumed : Bool
deriving DecidableEq, Repr

/-! ### Loop engines (chapters 04 to 06) -/

/-- State of a context within a trigger (R94). `held` is RUNNING with its chain ended and its outputs held (R101). -/
inductive CtxPhase where
  | idle | waiting | runnable | running | held
deriving DecidableEq, Repr

/-- An output that leaves an engine (R91): words of one exchange access, a duty load word of a timer unit, an emit. -/
inductive OutAct where
  | exchange (word : Nat) (values : List Word)
  | duty (unit word : Nat) (value : Word)
  | emit (e : Nat)
deriving DecidableEq, Repr

/-- A loop context, beside its registers. -/
structure CtxRec where
  phase : CtxPhase
  /-- Tick of the trigger's arrival. -/
  arrival : Nat
  /-- Sample instant of the first awaited result of the core that REF names, as a tick (R99). -/
  sampled : Option Nat
  /-- Inputs that have become fresh since the context left IDLE (R94): tags of both cores, demodulators, contexts. -/
  freshAc : Nat
  freshSd : Nat
  freshCtx : Nat
  /-- Index of the next header within the chain. -/
  stage : Nat
  /-- Passes of the FCS-MPC stage at that header that are done, and the inputs that it has read (R97). -/
  pass : Nat
  kept : List (List Word)
  /-- Imposed fixed-phase timing was caused in the present execution, which does not count for it (R102). -/
  spare : Bool
  /-- The execution runs in fixed-phase timing, and its outputs were discarded (R101). -/
  fixed : Bool
  overrun : Bool
  /-- Outputs held in fixed-phase timing. -/
  outs : List OutAct
  /-- Tick of the last output stage (R101, R115; log entry 98). -/
  lastOut : Option Nat
  /-- Items of encoder ports (0, 1) and mark inputs (2 to 5) taken in this execution (R90, R233). -/
  items : Store (List Word)
  /-- A trigger was discarded or timed out: since the present execution began, and before it (R158). -/
  lost : Bool
  lostBefore : Bool
deriving DecidableEq, Repr

/-- A loop engine, beside its registers and memories. -/
structure LeRec where
  ctxs : List CtxRec
  /-- Converter latches by 16c + e (R89) and sinc3 latches by 32 + d (R90). -/
  latches : Store Word
  /-- Sample instant of the result in each converter latch, as a tick (R89). -/
  latchAt : Store Nat
  /-- Enables that wait for the boundary of R93. -/
  enabling : Nat
  /-- Beats of the transients of the last second (R107). -/
  window : List (BitVec 64)
  /-- The retirement copy to the substitute is in progress (R109). -/
  copying : Bool
  /-- Relays that stand high, by the state word of their tuning stage (R156). -/
  relays : Store Bool
deriving DecidableEq, Repr

/-! ### Power, thermal supervision (chapter 18) -/

/-- A threshold of a sensor: samples in a row that would raise or lower its level, and the tick of its last rise
(R474, R475). -/
structure ThreshRec where
  up : Nat
  down : Nat
  lastRise : Option Nat
deriving DecidableEq, Repr

/-- What the power controller holds beside its registers. -/
structure PowerState where
  /-- Ticks at which islands in reset leave it (R467), and at which the drain of others reaches its limit (R466). -/
  resetEnd : Store Nat
  /-- Islands that power up once their power-down has completed (R467). -/
  powerUp : List Nat
  /-- Pending change of test mode: beat and value (R486). -/
  testAt : Option (BitVec 64 × Bool)
  /-- Thresholds by 3s + t. -/
  thresholds : Store ThreshRec
  /-- Reset release waits for the central sensor: its samples in a row below CRIT - H so far (R476). -/
  thermalHold : Option Nat
  /-- POR_OUT_N is driven low (R478). -/
  porOut : Bool
  /-- Power-on reset has been released and the boot ROM has not yet run. -/
  booting : Bool
  /-- A WATCH without SRAM retention is under way (R471). -/
  coldWake : Bool
  /-- The beat has stopped since the last RUN (R45, R470). -/
  slept : Bool
  /-- Beat and cause of a device reset that Ottar has ordered (R392, R405). -/
  resetAt : Option (BitVec 64 × Nat)
deriving DecidableEq, Repr
/-! ### Control cores (chapters 11 and 12) -/

/-- A register that a result lands in: a g register or an f register. -/
inductive CReg where
  | g (r : Nat)
  | f (r : Nat)
deriving DecidableEq, Repr

/-- A result in flight (R290): visible after `k` further issue cycles. -/
structure Flight where
  reg : CReg
  value : Word
  k : Nat
deriving DecidableEq, Repr

/-- A divide or square root in progress (R292, R320): its word, its operands, its destination, its result and the FPCR
flags that the result raises. -/
structure LongOp where
  word : Word
  a : Word
  b : Word
  dest : CReg
  result : Word
  flags : Word
deriving DecidableEq, Repr

/-- A block transfer in progress (R293, R320): its word, its base, its mask, the next word to transfer and, for a store,
the values of the words. -/
structure BlockOp where
  word : Word
  base : Word
  mask : Word
  next : Nat
  data : List Word
deriving DecidableEq, Repr

/-- The context of a task slot (R278, R325): registers, control registers by number, the program counter, the pending
results, the long operations, and the bases of the frames on its stack (R322). `advanced` says that the cycle of the
next instruction has already begun for the results in flight (R294). -/
structure CoreCtx where
  g : Store Word
  f : Store Word
  cr : Store Word
  pc : Word
  flight : List Flight
  advanced : Bool
  div : Option LongOp
  fpu : Option LongOp
  blk : Option BlockOp
  frames : List Word
deriving DecidableEq, Repr

/-- What an instruction does to memory after it has read its registers: a store of `size` bytes; a load to a register,
with sign extension; the transfer of a block whose mask names g30; the pop of a return address; an exception return. -/
inductive CoreAccess where
  | store (addr : Word) (size : Nat) (value : Word)
  | load (dest : CReg) (addr : Word) (size : Nat) (sign : Bool)
  | block
  | pop (addr : Word)
  | frame
deriving DecidableEq, Repr

/-- The first instruction of a possible pair (R291): the context before it, what it writes, whether it is a load or
store (LDM and STM included) and a long operation, and its access, which waits for its partner. -/
structure PairRec where
  undo : CoreCtx
  writes : List CReg
  mem : Bool
  long : Bool
  held : Option CoreAccess
deriving DecidableEq, Repr

/-- A control core, beside its registers and its TCM. -/
structure CoreRec where
  /-- Contexts by slot. -/
  slots : Store CoreCtx
  /-- Slot in each register bank. -/
  banks : List (Option Nat)
  /-- Order in which slots last ran: a larger number is more recent. -/
  ran : Store Nat
  runs : Nat
  /-- The spill engine's work: filling or spilling, the slot, and the tick of its end (R329). -/
  engine : Option (Bool × Nat × Nat)
  pair : Option PairRec
  /-- Stores that ended in an error, with the cause of the exception (R318). -/
  deferred : List (Word × Nat)
  /-- Domain of the running slot's accesses as taken at its dispatch (R331); 0 the core's own. -/
  dom : Nat
  /-- A permanent lockstep fault that has not been restored (R309). -/
  permanent : Bool
  /-- Beats of the transients of the last second (R309). -/
  window : List (BitVec 64)
  /-- The core is in debug halt; the device-wide halt counts apart (R188). -/
  halted : Bool
  haltedAll : Bool
  /-- Bytes of cacheable memory that another master has changed behind the data cache, with what a line read before
  still holds (R299). -/
  stale : Store (Option Byte)
deriving DecidableEq, Repr
/-! ### Memories, flash, DMA (chapter 13) -/

/-- A RAM macro (R340): the words corrected most recently with their counts, oldest first, the rows it has retired, and
the rows that are being copied, each by the address of its first byte. -/
structure MacroRec where
  tracked : List (Nat × Nat)
  rows : List Nat
  copying : List Nat
deriving DecidableEq, Repr

/-- A code word of flash, beside its bytes: it counts as programmed (R343); its bytes are undefined (R343, R346); what its
check bits find (R341). -/
structure FlashMark where
  programmed : Bool
  undef : Bool
  bits : WordMark
deriving DecidableEq, Repr

/-- An operation of a flash bank in progress: PROGRAM or ERASE, its address, the words to program (R342). -/
structure FlashOp where
  erase : Bool
  addr : Nat
  data : List Word
deriving DecidableEq, Repr

/-- A DMA channel, beside its registers (R348 to R354): elements issued of the present descriptor, elements that the
present trigger still allows (nothing in SOFTWARE), a latched trigger, and STOP under way. -/
structure DmaRec where
  issued : Nat
  allow : Option Nat
  latched : Bool
  stopping : Bool
deriving DecidableEq, Repr

/-! ### Queues (chapter 14) -/

/-- A queue, beside its registers (R359 to R368): its generation, the cells reserved for it in ring order, the ring
position of the oldest entry, and the beat of each entry's push, oldest first. -/
structure QueueRec where
  gen : Nat
  cells : List Nat
  head : Nat
  pushed : List (BitVec 64)
  refused : Nat
  dropped : Nat
deriving DecidableEq, Repr

/-! ### Management processor (chapter 15) -/

/-- The response to a request on its way (R383): its STATUS, the cells still to push, and the beat at which pushing
began. -/
structure MbAnswer where
  status : Nat
  cells : List (List Word)
  since : Option (BitVec 64)
deriving DecidableEq, Repr

/-- A request that Ottar has taken (R380): header fields, payload, the beats of POSTED and TAKEN; once execution has
begun and waits for the device, its phase and what it keeps; its response. -/
structure MbRequest where
  mb : Nat
  tag : Nat
  code : Nat
  flags : Nat
  cls : Nat
  deadline : Nat
  payload : List Word
  posted : BitVec 64
  taken : BitVec 64
  /-- No earlier packet of its queue was still to be taken when it was posted (R384). -/
  bounded : Bool
  phase : Nat
  keep : List Word
  answer : Option MbAnswer
deriving DecidableEq, Repr

/-- A record of the recipe store (R398): its address, its page pairs, its header. -/
structure RecipeRecord where
  addr : Nat
  pairs : Nat
  id : Nat
  seq : Nat
  length : Nat
  flags : Word
  arg : Word
deriving DecidableEq, Repr

/-- An open store of a recipe record (R399): its mailbox, the record, the body bytes that have arrived, those of them that
wait for the rest of their code word, whether a command has failed, whether flash has failed, and the beat of the last
RCP_BEGIN or RCP_DATA. -/
structure RecipeStore where
  mb : Nat
  rcd : RecipeRecord
  got : Nat
  tail : List Word
  failed : Bool
  broken : Bool
  last : BitVec 64
deriving DecidableEq, Repr

/-- A load of a recipe (R401): the mailbox that may name it (none for AUTOSTART), the slot and epoch, the DIRECT
entries with the domain that they act in, and whether the epoch is DONE. -/
structure RecipeLoad where
  mb : Option Nat
  slot : Nat
  epoch : Nat
  actDomain : Nat
  directs : List (Word × Word)
  done : Bool
deriving DecidableEq, Repr

/-- A firmware update under way (R405): the image's length, the bytes that have arrived, those of them that wait for the
rest of their code word. -/
structure FwUpdate where
  length : Nat
  got : Nat
  tail : List Word
  verified : Bool
deriving DecidableEq, Repr

/-- What the management processor holds. -/
structure MpState where
  /-- Ottar runs and serves mailboxes. -/
  serving : Bool
  /-- Ottar has completed its start-up (R481). -/
  started : Bool
  /-- The MP has been reset alone, and Ottar does not run yet (R375). -/
  restarting : Bool
  /-- The boot ROM is in recovery (R480). -/
  recovery : Bool
  /-- Bank that Ottar runs from: false A, true B. -/
  slotB : Bool
  rights : Store Nat
  /-- Beat at which each mailbox last had a request taken. -/
  lastTake : Store (BitVec 64)
  requests : List MbRequest
  /-- Resources allocated by CFG_ALLOC: kind, island, number (R393). -/
  allocated : List (Nat × Nat × Nat)
  /-- The committed records of the recipe store, as Ottar knows them, in ascending address. -/
  records : List RecipeRecord
  stores : List RecipeStore
  loads : List RecipeLoad
  update : Option FwUpdate
  /-- AUTOSTART: 0 none, 1 waiting, 2 hauled, 3 failed; the recipe's ID (R392, R402). -/
  autostart : Nat
  autoId : Word
  /-- Islands whose default measurement runs (R483, R484). -/
  measuring : List Nat
  /-- The nonce with the beat of its issue, failures in a row, end of the refusal period, and the LEVEL of the present
  unlock (R406). -/
  nonce : Option (List Byte × BitVec 64)
  failures : Nat
  barredUntil : Option (BitVec 64)
  unlock : Nat
  /-- Interrupted flash operations that the boot ROM found: bank, OP, address (R347). -/
  cut : List (Nat × Nat × Nat)
  /-- The rollback count in OTP (R404). -/
  rollback : Nat
  /-- Beats of the MP's lockstep transients of the last second (R449). -/
  window : List (BitVec 64)
deriving DecidableEq, Repr

/-! ### Network, host, serial peripherals (chapter 16) -/

/-- An Ethernet port, beside its registers: the port scan runs, the gate control list, base and cycle of the cyclic grid
in ns, the beats of the CRC errors of the last second, and since when the link is down. -/
structure PortRec where
  scanning : Bool
  gates : List Word
  base : BitVec 64
  cycle : Nat
  crc : List (BitVec 64)
  downSince : Option (BitVec 64)
deriving DecidableEq, Repr

/-- A session, beside its registers (R416 to R429). -/
structure SessionRec where
  /-- Its queues: cyclic receive, cyclic transmit, acyclic receive, acyclic transmit. -/
  queues : List Nat
  /-- CYC of the next transmit slot, the last data sent, whether the present cycle has accepted a slot, and whether any
  slot has been accepted since the session opened. -/
  txCyc : Nat
  lastData : List Word
  accepted : Bool
  anyCyc : Bool
  /-- Next ACYCLIC SEQ to send, next expected, telegrams sent and not acknowledged with their SEQ, bodies not yet sent,
  resends without progress. -/
  txSeq : Nat
  rxSeq : Nat
  unacked : List (Nat × List Byte)
  unsent : List (List Byte)
  resends : Nat
  /-- Bytes of the packet that is being received. -/
  inPacket : List Byte
  /-- R-tag of the next telegram sent, and the vector recovery of received ones: sequence, history, first (R429). -/
  txTag : Nat
  rxTag : Nat
  history : BitVec 32
  rxFirst : Bool
deriving DecidableEq, Repr

/-- A scheduled command (R423): the session, ACTION, argument, beat. -/
structure Scheduled where
  action : Nat
  arg : Word
  beat : BitVec 64
  asap : Bool
deriving DecidableEq, Repr

/-- A frame that has left the device (R411, R413, R416): its port, its EtherType, VID and PCP of an 802.1Q tag, whether its
class is express, the device time at which it enters its class, its R-tag, its telegram. -/
structure SentFrame where
  port : Nat
  etype : Nat
  vlan : Option (Nat × Nat)
  express : Bool
  ready : BitVec 64
  rtag : Option Nat
  body : List Byte
deriving DecidableEq, Repr

/-- What the network engine holds beside its registers. -/
structure NetState where
  ports : Store PortRec
  sessions : Store SessionRec
  sched : List Scheduled
  /-- Engine tags in use: tag, session, the partner's TAG (R422). -/
  tags : List (Nat × Nat × Nat)
  /-- Telegrams that the last network command sent. -/
  sent : List SentFrame
  /-- Slave port of 802.1AS: none for BMCA (R413). -/
  asPort : Option Nat
deriving DecidableEq, Repr

/-- What the host port holds beside its registers (R430 to R433): MSI-X table words, pending bits, the words of the last
completion, the last message. -/
structure HostState where
  table : Store Word
  pba : Store Bool
  completion : List Word
  unsupported : Bool
  message : Option (Nat × Word)
deriving DecidableEq, Repr

/-- FIFOs of the serial peripherals (R434, R436), oldest entry first. `run` counts the SPI frames of the transfer in
progress; `cmd` is the I2C transaction in progress. -/
structure SerialRec where
  tx : List Word
  rx : List Word
  run : Nat
  cmd : Option Word
deriving DecidableEq, Repr

/-! ### Test access port (chapters 18, 19) -/

/-- The test access port (R485): the instruction in force, the boundary cells loaded by PRELOAD, the word last captured
for TDO. -/
structure TapState where
  op : JtagOp
  cells : List Bool
  tdo : Word
deriving DecidableEq, Repr

/-- Why a step stops with a fault. No command of this block does: every access the spec refuses ends in an error
response, which is data. The type has one constructor so that the interface is inhabited. -/
inductive Fault where
  /-- Raised by no meaning of the model. Safe: nothing ends in it. -/
  | unused
deriving DecidableEq, Repr

/-- Why a step has no meaning. -/
inductive Refusal where
  /-- Raised by an arm of the dispatch whose command has no meaning in the model yet. Safe: nothing follows from a
  step that does not answer. -/
  | notModelled (mnemonic : String)
deriving DecidableEq, Repr

/-- The state of the block. -/
structure State where
  /-- Commands that wait, first in, first out. -/
  pending : List Instr
  /-- Commands that the device itself has made due, oldest first (log entry 2). -/
  due : List Instr
  /-- Every register value, by device address. -/
  regs : Store Word
  /-- Events of each SC register since its last clear (R4). -/
  scCount : Store Nat
  /-- Registers kept for each domain, by 16 times the address plus the domain: high shadows (R4), XM_STAMP (R22),
  EP_POLICY (R80). -/
  domRegs : Store Word
  /-- All byte-addressed memory (R28). -/
  mem : Store Byte
  /-- Stamps of the exchange words (R22), by word index. -/
  stamps : Store Word
  xmNow : XmCycle
  reply : Option Reply
  /-- Number of free values taken (the model's own; log entry 3). -/
  freeCtr : Nat
  clk : ClockState
  ep : EpochState
  snap : SnapState
  fab : FabricState
  /-- Pulses: ticks that the line of source g (R249), or the firing of pennant p at 8,192 + p (R262), is still at 1. -/
  pulses : Store Nat
  /-- Paths of the central interconnect, by 16 MiB slot of the address map (R445; log entry 93). -/
  paths : Store PathState
  links : Store LinkRec
  islands : Store IslandPhase
  device : DevPhase
  faults : FaultState
  tus : Store TuRec
  acs : Store AcRec
  cps : Store CpRec
  eqs : Store EqRec
  mks : Store MkRec
  /-- The SAFE_N ball is low (R177). -/
  safeN : Bool
  sds : Store SdRec
  les : Store LeRec
  pow : PowerState
  cores : Store CoreRec
  /-- RAM words whose check finds wrong bits, by word address; words of MP SRAM lie above 2^32 (R338; log entry 104). -/
  ecc : Store WordMark
  macros : Store MacroRec
  flash : Store FlashMark
  flashOps : Store (Option FlashOp)
  dmas : Store DmaRec
  queues : Store QueueRec
  mp : MpState
  net : NetState
  host : HostState
  /-- UART k at k, SPI k at 4 + k, I2C k at 12 + k. -/
  serial : Store SerialRec
  tap : TapState
deriving DecidableEq, Repr

/-- What unlisted memory reads as: flash is erased to ones, every other memory is 0 (R24, R85, R86, R342; log entry
5). -/
def memReset (a : Nat) : Byte := if 0x10000000 ≤ a ∧ a < 0x12000000 then 0xFF#8 else 0#8

/-- Unlisted records. -/
def LinkRec.reset : LinkRec := ⟨false, false⟩

/-- A record place that reads 0 (R461). -/
def FaultRec.reset : FaultRec := ⟨false, false, false, 0, 0, 0, 0, 0, 0, 0, 0, 0, 0, 0⟩

def ClockState.reset : ClockState :=
  { beat := 0, tick := 0, dOfs := 0, dIsland := [], dPast := [], step := none, start := none, reqBeat := [], couplings := [],
    rateNow := 0, rateGoal := 0, rateNext := 0, syncGood := 0, syncAt := [], clockFault := false, era := 0, seconds := 0, sub := 0,
    loadIn := none, lateAlarms := [], oscAcc := 0 }

def EpochState.reset : EpochState := ⟨1, [], [], [], []⟩

def SnapState.reset : SnapState := ⟨false, false, [], 0, false, []⟩

/-- FAULT_N is asserted at power-on reset, and central source 388 follows it (R457). -/
def FabricState.reset : FabricState := ⟨[(4484, true)], [], [], [], [], [], [], 0⟩

def FaultState.reset : FaultState := ⟨[], false, [], []⟩

def OutRec.reset : OutRec := ⟨false, none⟩

def ChanRec.reset : ChanRec := ⟨false, 0, 0, 0, .reset, .reset, 0, none, none, true⟩

def TuRec.reset : TuRec :=
  { startIn := none, stopAtBoundary := false, stopNow := false, gateOpen := true, sysTail := false, wakeHold := false,
    nextPeriod := none, rawP := none, loaded12 := none, heldAt := none, cfgWas := none, rbOut := List.replicate 12 2,
    rbEdge := List.replicate 12 none, rbLast := List.replicate 12 0, chans := List.replicate 6 .reset, pendBy := List.replicate 13 0, pendAt := List.replicate 13 0, rbFails := List.replicate 12 0, frozenBy := [], causes := [],
    lastCouple := none }

def AcRec.reset : AcRec :=
  { dueReg := none, dueInj := none, ordReg := 0, ordInj := 0, injNext := 0, slot := none, slotInj := false, slotAt := 0,
    freeAt := 0, slotCfg := 0, cont := false, dataCheck := false, convs := 0, lastCheck := 0, ground := false,
    window := [], hosted := false, handBack := false, calOk := false }

def CpRec.reset : CpRec := ⟨false, false, none, none, none⟩

def SdRec.reset : SdRec := ⟨[], [], none, 0, 0⟩

def EqRec.reset : EqRec :=
  { a := false, b := false, filtA := none, filtB := none, counts := [], lastA := none, lastB := none, lastCount := none, still := 0, ssiWait := none,
    ssiDue := none, ssiRun := none, ssiKeep := none, ssiFirst := false, resetNext := false, pulseFrom := 0,
    pulseEnd := none }

def MkRec.reset : MkRec := ⟨[], none, 0, none, true⟩


def CtxRec.reset : CtxRec :=
  { phase := .idle, arrival := 0, sampled := none, freshAc := 0, freshSd := 0, freshCtx := 0, stage := 0, pass := 0, kept := [],
    spare := false, fixed := false,
    overrun := false, outs := [], lastOut := none, items := [], lost := false,
    lostBefore := false }

def LeRec.reset : LeRec :=
  { ctxs := List.replicate 8 .reset, latches := [], latchAt := [], enabling := 0, window := [], copying := false, relays := [] }

def ThreshRec.reset : ThreshRec := ⟨0, 0, none⟩

def PowerState.reset : PowerState :=
  { resetEnd := [], powerUp := [], testAt := none, thresholds := [], thermalHold := none, porOut := true,
    booting := true, coldWake := false, slept := false, resetAt := none }

/-- Reset values of the control registers (R313, R334). -/
def crReset (c : Nat) : Word := if c = 3 then 0xE0000000#32 else 0#32

/-- The context that INIT gives (R328). -/
def CoreCtx.reset : CoreCtx :=
  { g := [], f := [], cr := [], pc := 0, flight := [], advanced := false, div := none, fpu := none, blk := none,
    frames := [] }

def CoreRec.reset : CoreRec :=
  { slots := [], banks := List.replicate 16 none, ran := [], runs := 0, engine := none, pair := none, deferred := [],
    dom := 0, permanent := false, window := [], halted := false, haltedAll := false, stale := [] }

def MacroRec.reset : MacroRec := ⟨[], [], []⟩

def FlashMark.reset : FlashMark := ⟨false, false, .good⟩

def DmaRec.reset : DmaRec := ⟨0, none, false, false⟩

def QueueRec.reset : QueueRec := ⟨0, [], 0, [], 0, 0⟩

def MpState.reset : MpState :=
  { serving := false, started := false, restarting := false, recovery := false, slotB := false, rights := [], requests := [], allocated := [],
    records := [], stores := [], loads := [], update := none, autostart := 0, autoId := 0, measuring := [], nonce := none, failures := 0,
    barredUntil := none, unlock := 0, cut := [], rollback := 0, window := [], lastTake := [] }

/-- Until the first NET_GCL a port has one entry with all gates open, a cycle of 31,250 ns and base 0 (R412). -/
def PortRec.reset : PortRec := ⟨false, [0xFF007A12#32], 0, 31250, [], none⟩

def SessionRec.reset : SessionRec :=
  { queues := [], txCyc := 0, lastData := [], accepted := false, anyCyc := false, txSeq := 0, rxSeq := 0, unacked := [],
    unsent := [], resends := 0, inPacket := [], txTag := 0, rxTag := 0, history := 0, rxFirst := true }

def NetState.reset : NetState := ⟨[], [], [], [], [], none⟩

def HostState.reset : HostState := ⟨[], [], [], false, none⟩

def SerialRec.reset : SerialRec := ⟨[], [], 0, none⟩

def TapState.reset : TapState := ⟨.reset, [], 0⟩


/-- The block right after power-on reset (R477, R478). -/
def State.reset : State :=
  { pending := [], due := [], regs := [], scCount := [(R.CAL_STATUS, 1)], domRegs := [], mem := [], stamps := [], xmNow := ⟨[], []⟩, reply := none,
    freeCtr := 0, clk := .reset, ep := .reset, snap := .reset, fab := .reset, pulses := [], paths := [], links := [], islands := [], device := .run,
    faults := .reset, tus := [], acs := [], cps := [], eqs := [], mks := [], safeN := false
   , les := [], sds := []
   , pow := .reset
   , cores := []
   , ecc := [], macros := [], flash := [], flashOps := [], dmas := [], queues := [], mp := .reset, net := .reset
   , host := .reset, serial := [], tap := .reset }

end Sys2Proof.Machine
end

