-- ==== Sys2Proof/Machine/Ops.lean ====
section
/-!
DEFINITION. The named operations over the state: registers, status registers (R4), memory (R5), free values, device
time (R33, R34), request beats (R38), reports to the fault collector (R451), and the commands that the device itself
makes due.
-/
namespace Sys2Proof.Machine
open Sys2Proof

/-! ### Registers -/

/-- The stored value of the register at an address. -/
def State.reg (s : State) (a : Nat) : Word := s.regs.get regReset a

/-- Field [hi:lo] of a register. -/
def State.rf (s : State) (a hi lo : Nat) : Nat := fld (s.reg a) hi lo

/-- Bit `i` of a register. -/
def State.rb (s : State) (a i : Nat) : Bool := bit (s.reg a) i

/-- Store a register value. -/
def State.setReg (s : State) (a : Nat) (v : Word) : State := { s with regs := s.regs.set regReset a v }

/-- Replace field [hi:lo] of a register. -/
def State.setRf (s : State) (a hi lo v : Nat) : State := s.setReg a (setFld (s.reg a) hi lo v)

/-- Set or clear one bit of a register. -/
def State.setRb (s : State) (a i : Nat) (b : Bool) : State := s.setReg a (setBit (s.reg a) i b)

/-- Return every register whose address satisfies `p` to its reset value. -/
def State.resetRegs (s : State) (p : Nat → Bool) : State :=
  { s with regs := s.regs.clear p, scCount := s.scCount.clear p, domRegs := s.domRegs.clear (fun k => p (k / 16)) }

/-- A register kept for each domain. -/
def State.domReg (s : State) (a d : Nat) : Word := s.domRegs.get (fun _ => 0#32) (16 * a + d)

def State.setDomReg (s : State) (a d : Nat) (v : Word) : State :=
  { s with domRegs := s.domRegs.set (fun _ => 0#32) (16 * a + d) v }

/-! ### Sequence-clear status (R4) -/

/-- An event that sets flags: SEQ advances by one, and MANY sets once 128 events have occurred since the last
successful clear. An event that sets no flag is no event. -/
def State.flagW (s : State) (a : Nat) (flags : Word) : State :=
  if flags = 0#32 then s
  else
    let r := s.reg a
    let n := s.scCount.get (fun _ => 0) a + 1
    let r := setFld r 31 24 (fld r 31 24 + 1) ||| flags
    let r := if 128 ≤ n then r ||| bitW 23 else r
    { s.setReg a r with scCount := s.scCount.set (fun _ => 0) a n }

/-- An event that sets one flag. -/
def State.flag (s : State) (a i : Nat) : State := s.flagW a (bitW i)

/-- A software write to a status register: it clears MANY and all flags if its SEQ is the present one. -/
def State.scWrite (s : State) (a : Nat) (v : Word) : State :=
  if fld v 31 24 = s.rf a 31 24 then
    { s.setReg a (s.reg a &&& maskW 31 24) with scCount := s.scCount.set (fun _ => 0) a 0 }
  else s

/-! ### Free values -/

/-- Take the next value that the spec leaves open. -/
def State.free (s : State) : Word × State := (Config.freeWord s.freeCtr, { s with freeCtr := s.freeCtr + 1 })

/-- Take a bit that the spec leaves open. -/
def State.freeBit (s : State) : Bool × State := (bit (Config.freeWord s.freeCtr) 0, { s with freeCtr := s.freeCtr + 1 })

/-! ### Memory -/

/-- One byte of memory. -/
def State.byte (s : State) (a : Nat) : Byte := s.mem.get memReset a

/-- Write one byte of memory. -/
def State.setByte (s : State) (a : Nat) (b : Byte) : State := { s with mem := s.mem.set memReset a b }

/-- `n` bytes from an address, as a little-endian number. -/
def State.loadN (s : State) (a n : Nat) : Nat := leNat ((List.range n).map (fun i => s.byte (a + i)))

/-- Write a list of bytes from an address upward. -/
def State.storeBytes (s : State) (a : Nat) : List Byte → State
  | [] => s
  | b :: r => (s.setByte a b).storeBytes (a + 1) r

/-- The word at an address. -/
def State.mword (s : State) (a : Nat) : Word := w32 (s.loadN a 4)

/-- Write a word: a whole word in error is good again (R338). -/
def State.setMword (s : State) (a : Nat) (w : Word) : State :=
  let s := s.storeBytes a (bytesOfWord w)
  { s with ecc := s.ecc.set (fun _ => .good) a .good }

/-- Write words from an address upward. -/
def State.storeWords (s : State) (a : Nat) : List Word → State
  | [] => s
  | w :: r => (s.setMword a w).storeWords (a + 4) r

/-- Return every byte whose address satisfies `p` to what unlisted memory reads as. -/
def State.clearMem (s : State) (p : Nat → Bool) : State := { s with mem := s.mem.clear p, ecc := s.ecc.clear p }

/-! ### Commands that the device makes due -/

/-- Put commands behind those already due. -/
def State.enqueue (s : State) (l : List Instr) : State := { s with due := s.due ++ l }

/-- A report to the fault collector (R451, R452): it waits as a FAULT_REPORT command. -/
def State.report (s : State) (source reporter cause : Nat) (detail : Word) : State :=
  s.enqueue [.faultReport (Fin.ofNat 8192 source) (Fin.ofNat 8192 reporter) (BitVec.ofNat 8 cause) detail]

/-! ### Time (R33, R34, R38) -/

/-- Device time T = 4 B + D of the central complex. -/
def State.devTime (s : State) : BitVec 64 := 4#64 * s.clk.beat + s.clk.dOfs

/-- D of an island: an island that has not taken the last step keeps its old D (R40). -/
def State.dOf (s : State) (n : Nat) : BitVec 64 := s.clk.dIsland.get (fun _ => s.clk.dOfs) n

/-- D of an island during beat `b`: a stamp of an instant before a change of D names the device time of that instant. -/
def State.dAt (s : State) (n b : Nat) : BitVec 64 :=
  match (s.clk.dPast.filter (fun x => decide (b < x.1))).getLast? with
  | some (_, d, l) => l.get (fun _ => d) n
  | none => s.dOf n

/-- Change D of the central complex and the islands. -/
def State.changeD (s : State) (d : BitVec 64) (l : Store (BitVec 64)) : State :=
  if d = s.clk.dOfs ∧ l = s.clk.dIsland then s
  else { s with clk := { s.clk with
    dOfs := d, dIsland := l, dPast := (s.clk.beat.toNat, s.clk.dOfs, s.clk.dIsland) :: s.clk.dPast } }

/-- Device time of an island. -/
def State.islandTime (s : State) (n : Nat) : BitVec 64 := 4#64 * s.clk.beat + s.dOf n

/-- The beat runs: in RUN, while an entry into WATCH waits, and in a wake from an entry that never stopped it; not while
the release of a thermal reset waits (R464, R470, R476). -/
def State.beatRuns (s : State) : Bool :=
  (s.device == .run || s.device == .entering || (s.device == .waking && !s.pow.slept)) && s.pow.thermalHold.isNone

/-- TICK and FINE packed into [8:0] (R34). -/
def State.tickFine (s : State) (fine : Nat) : Nat := s.clk.tick.val * 64 + fine % 64

/-- a at or after b by the serial arithmetic of R53. -/
def serialGe (a b : BitVec 64) : Bool := (a - b).toNat < 2 ^ 63

/-- a after b by serial arithmetic on k bits (R53). -/
def serialAfter (k a b : Nat) : Bool :=
  let d := (a + 2 ^ k - b % 2 ^ k) % 2 ^ k
  decide (0 < d) && decide (d < 2 ^ (k - 1))

/-- Record the request beat W of a domain (R38). -/
def State.request (s : State) (d : Nat) : State :=
  { s with clk := { s.clk with reqBeat := s.clk.reqBeat.set (fun _ => 0#64) d s.clk.beat } }

/-- A request for beat `n` at the present beat is late (R38). -/
def State.isLate (s : State) (n : BitVec 64) : Bool := !serialGe n (s.clk.beat + 2)

/-! ### Domains, security, reachability (R13, R17, R18, R21) -/

/-- Is domain `d` Secure (R21)? Domain 0 always is. -/
def State.domSecure (s : State) (d : Nat) : Bool := d == 0 || s.rb R.SYS_DOMAIN_SEC d

/-- Owning domain in an ownership register (R20). -/
def State.ownerDom (s : State) (a : Nat) : Nat := s.rf a 3 0

/-- SEC bit of an ownership register (R20). -/
def State.ownerSec (s : State) (a : Nat) : Bool := s.rb a 4

/-- Phase of an island. -/
def State.phase (s : State) (n : Nat) : IslandPhase := s.islands.get (fun _ => .off) n

/-- An island that runs: powered and out of reset. -/
def State.islandRuns (s : State) (n : Nat) : Bool := s.phase n == .running || s.phase n == .draining

/-- The link record. -/
def State.link (s : State) (l : Nat) : LinkRec := s.links.get (fun _ => .reset) l

/-- Does the neighbour link from DIn to DI((n+1) mod 16) carry traffic? -/
def State.neighbourUp (s : State) (n : Nat) : Bool := !(s.link (16 + n)).timedOut && !(s.link (16 + n)).retired

/-- Traffic between DIn and the central complex gets through (R10, R13, R446): over the central link, or, where that is
retired, over the neighbour link to the next island and that island's way; at most `k` central links are tried. -/
def State.pathUpIn (s : State) : Nat → Nat → Bool
  | 0, _ => false
  | k + 1, n =>
    if (s.link n).retired then s.neighbourUp n && s.pathUpIn k ((n + 1) % 16) else !(s.link n).timedOut

/-- The way between DIn and the central complex is open. Where all sixteen central links are retired, and where a
retired link would need a retired neighbour link, no way is left (log entry 88). -/
def State.pathUp (s : State) (n : Nat) : Bool := s.pathUpIn 16 n

/-- An island that an access reaches: running, not draining, and its way open (R13, R446, R466). -/
def State.islandReachable (s : State) (n : Nat) : Bool :=
  s.phase n == .running && s.pathUp n

/-- Sync bit of an island (R32). -/
def State.synced (s : State) (n : Nat) : Bool := s.rb R.TB_ISLAND_SYNC n

/-- Islands with their sync bit set. -/
def State.syncedIslands (s : State) : List Nat := indicesWhere 16 s.synced

/-- Is core `n` in a locked pair? -/
def State.locked (s : State) (n : Nat) : Bool := s.rb (R.CC_CTRL (n / 2 * 2)) 30

/-- The core whose context an access of core `n` belongs to: the lower core of a locked pair (R17). -/
def State.leadCore (s : State) (n : Nat) : Nat := if s.locked n then n / 2 * 2 else n

/-- Running slot of a core (`SCH_STATE.SLOT` with its VALID bit). -/
def State.runSlot (s : State) (n : Nat) : Nat := s.rf (R.SCH_STATE n) 31 24

/-- The domain that carries an access of a master (R17). A task to which the scheduler has assigned a domain 12 to 15
carries it (R331). -/
def State.domainOf (s : State) : Master → Nat
  | .core n =>
    let l := s.leadCore n.val
    let t := (s.cores.get (fun _ => .reset) l).dom
    if 12 ≤ t then t else l + 1
  | .mp => 0
  | .dma c => s.ownerDom (R.DMA_CHc_OWNER c.val)
  | .host => 9
  | .net => 10
  | .debug => 11
  | .engine e => s.ownerDom (R.LE_OWNER (e.val / 6) (e.val % 6))

/-- Does software own the resource of ownership register `a`? -/
def State.owns (s : State) (d a : Nat) : Bool := s.ownerDom a == d

/-! ### Parity (R445) -/

/-- The path of the central interconnect to an address: a core's own TCM lies on none. -/
def State.pathTo (s : State) (a : Nat) : PathState :=
  if a < 0x100000 then .good else s.paths.get (fun _ => .good) (a / 0x1000000)

/-- A transfer to address `a` makes access `f`: a transfer that fails its parity check is repeated once, and a second
failure ends the access with R13's error response. Either is reported, by the interconnect as its own reporter. -/
def State.overPath (s : State) (a : Nat) (f : State → BusResult × State) : BusResult × State :=
  match s.pathTo a with
  | .good => f s
  | .flaky => f (s.report 0x1C0 0x1C0 0x12 0#32)
  | .bad => (.error .islandOff, s.report 0x1C0 0x1C0 0x13 0#32)

/-! ### Replies -/

/-- Record the response that a master receives. -/
def State.answer (s : State) (m : Master) (r : BusResult) : State := { s with reply := some ⟨m, r⟩ }

end Sys2Proof.Machine
end

