-- ==== Sys2Proof/Machine/Ecc.lean ====
section
/-!
DEFINITION. Error correction of the RAMs (R336 to R340): words in error, what an access to one does, the scrubbers and
row retirement.
-/
namespace Sys2Proof.Machine
open Sys2Proof

/-- Words of MP SRAM have MP-local addresses: they stand above the 32-bit address map. -/
def mpSram : Nat := 2 ^ 32

/-- MEM code of the RAM that holds an address (R336). -/
def memCode (a : Nat) : Option Nat :=
  if 0x20000000 ≤ a ∧ a < 0x21000000 then some 0
  else if 0x24000000 ≤ a ∧ a < 0x24800000 then some 1
  else if 0x28000000 ≤ a ∧ a < 0x28010000 then some 2
  else if 0x28100000 ≤ a ∧ a < 0x28110000 then some 3
  else if mpSram ≤ a ∧ a < mpSram + 0x200000 then some 4
  else if 0x57001000 ≤ a ∧ a < 0x57002000 then some 5
  else if 0x30000000 ≤ a ∧ a < 0x30800000 then some (8 + (a - 0x30000000) / 0x100000)
  else match descWord a, stateWord a with
    | some (n, m, _), _ => some (16 + 6 * n + m)
    | _, some (n, m, _) => some (16 + 6 * n + m)
    | _, _ => none

/-- Macro of a word: macros hold 256 KiB, a loop engine's memories are one macro. -/
def macroKey (mem a : Nat) : Nat := 64 * mem + (if 16 ≤ mem then 0 else a / 0x40000 % 64)

/-- First byte of the row that holds a word: a row holds 1 KiB. -/
def rowOf (a : Nat) : Nat := a / 1024 * 1024

def State.macroRec (s : State) (k : Nat) : MacroRec := s.macros.get (fun _ => .reset) k

def State.setMacro (s : State) (k : Nat) (r : MacroRec) : State :=
  { s with macros := s.macros.set (fun _ => .reset) k r }

/-- Spare rows left in a macro. -/
def MacroRec.spares (r : MacroRec) : Nat := 8 - r.rows.length - r.copying.length

/-- What the check finds of the word that holds address `a`. -/
def State.eccMark (s : State) (a : Nat) : WordMark := s.ecc.get (fun _ => .good) (a / 4 * 4)

def State.setEcc (s : State) (a : Nat) (x : WordMark) : State :=
  { s with ecc := s.ecc.set (fun _ => .good) (a / 4 * 4) x }

/-- Is the word that holds address `a` in error? -/
def State.eccBad (s : State) (a : Nat) : Bool := s.eccMark a == .bad

/-- A report in ME_LAST_ADDR and ME_LAST_INFO. -/
def State.meLast (s : State) (kind mem a : Nat) : State :=
  (s.setReg R.ME_LAST_ADDR (w32 a)).setReg R.ME_LAST_INFO
    (w32 (at_ kind 30 + at_ mem 16 + (s.macroRec (macroKey mem a)).spares))

/-- Add one to a count of ME_COUNTS: the high half or the low one. -/
def State.meCount (s : State) (high : Bool) : State :=
  if high then s.setRf R.ME_COUNTS 31 16 (satTo 0xFFFF (s.rf R.ME_COUNTS 31 16 + 1))
  else s.setRf R.ME_COUNTS 15 0 (satTo 0xFFFF (s.rf R.ME_COUNTS 15 0 + 1))

/-- A word in error has been found, by an access or by the scrubber: its flag, its count, its fault record. -/
def State.eccFound (s : State) (mem a : Nat) (latent : Bool) : State :=
  let s := ((s.meCount true).meLast (if latent then 2 else 1) mem a).flag R.ME_STATUS (if latent then 2 else 1)
  s.report (0x140 + mem) (0x140 + mem) (if latent then 0x0D else 0x0C) (w32 a)

/-- An access has found a word in error (R338); one of the backup RAM also sets BRAM_ECC (R50). -/
def State.eccAccess (s : State) (a : Nat) : State :=
  match memCode a with
  | some mem =>
    let t := s.eccFound mem (a / 4 * 4) false
    if mem = 5 then t.flag R.CAL_STATUS 10 else t
  | none => s

/-! ### Corrections (R338, R340) -/

/-- Least count among tracked words. -/
def leastCount (l : List (Nat × Nat)) : Nat := l.foldl (fun a e => min a e.2) (l.headD (0, 0)).2

/-- The tracked words after a correction at `a`: a new word replaces, where all 16 entries are in use, the one with the
lowest count. -/
def track (l : List (Nat × Nat)) (a : Nat) : List (Nat × Nat) :=
  if l.any (fun e => e.1 == a) then l.map (fun e => if e.1 = a then (a, e.2 + 1) else e)
  else if l.length < 16 then l ++ [(a, 1)]
  else l.eraseP (fun e => e.2 == leastCount l) ++ [(a, 1)]

/-- A permanent fault of a word (R340): its row is retired, or stays in service. -/
def State.permanentWord (s : State) (mem a : Nat) : State :=
  let k := macroKey mem a
  let r := s.macroRec k
  if r.copying.contains (rowOf a) then s
  else if s.rb R.ME_CTRL 30 && decide (0 < r.spares) then s.setMacro k { r with copying := r.copying ++ [rowOf a] }
  else (s.flag R.ME_STATUS 4).report (0x140 + mem) (0x140 + mem) 0x0F (w32 a)

/-- A word with one wrong bit has been read: it is written back corrected, counted and tracked. -/
def State.eccCorrect (s : State) (mem a : Nat) : State :=
  let k := macroKey mem a
  let r := s.macroRec k
  let l := track r.tracked a
  let s := (((s.setEcc a .good).setMacro k { r with tracked := l }).meCount false).meLast 0 mem a
  let s := s.flag R.ME_STATUS 0
  if l.contains (a, 4) then s.permanentWord mem a else s

/-- An access has read the word that holds address `a`. -/
def State.eccRead (s : State) (a : Nat) : State :=
  if s.eccMark a = .flipped then
    match memCode a with
    | some mem => s.eccCorrect mem (a / 4 * 4)
    | none => s
  else s

/-- Read `n` words from an address upward for what their checks find. -/
def State.eccWalk (s : State) (a n : Nat) : State :=
  if s.ecc = [] then s
  else (List.range n).foldl (fun t i =>
    if t.eccBad (a + 4 * i) then t.eccAccess (a + 4 * i) else t.eccRead (a + 4 * i)) s

/-! ### The scrubber (R339, R340) -/

/-- The scrubber reads a word in which it finds `flips` wrong bits, or which stands in error already. -/
def State.scrub (s : State) (mem a flips : Nat) : State :=
  if flips = 2 ∨ s.eccBad a = true then (s.setEcc a .bad).eccFound mem a true
  else if flips = 1 ∨ s.eccMark a = .flipped then s.eccCorrect mem a
  else s

/-- Address of a word in the store of marks: MP SRAM has addresses of its own. -/
def scrubAddr (mem : Nat) (a : Word) : Nat := (if mem = 4 then mpSram else 0) + a.toNat / 4 * 4

/-- Do the scrubbers of this memory run? -/
def State.scrubs (s : State) (mem : Nat) : Bool :=
  s.rb R.ME_CTRL 31 && s.beatRuns && (decide (mem < 16) || s.islandRuns ((mem - 16) / 6))

/-- SCRUB_READ (R339): the scrubber of a memory reads a word in which `flips` bits are wrong. -/
def execScrubRead (mem : Fin 112) (a : Word) (flips : Fin 3) (s : State) : Host.Outcome State Fault Refusal :=
  let x := scrubAddr mem.val a
  .next (if s.scrubs mem.val && memCode x == some mem.val then s.scrub mem.val x flips.val else s)

/-- ROW_RETIRE_COPY_DONE (R340): the spare serves every address of the row. Words with one wrong bit are copied
corrected, words in error as they are. -/
def State.rowRetired (s : State) (mem a : Nat) : State :=
  let k := macroKey mem a
  let r := s.macroRec k
  if r.copying.contains (rowOf a) then
    let s := { s with ecc := s.ecc.clear (fun x => rowOf x == rowOf a && s.eccMark x == WordMark.flipped) }
    let s := s.setMacro k { tracked := r.tracked.filter (fun e => rowOf e.1 != rowOf a), rows := r.rows ++ [rowOf a],
                            copying := r.copying.erase (rowOf a) }
    ((s.meLast 3 mem a).flag R.ME_STATUS 3).report (0x140 + mem) (0x140 + mem) 0x0E (w32 a)
  else s

def execRowRetireCopyDone (mem : Fin 112) (a : Word) (s : State) : Host.Outcome State Fault Refusal :=
  .next (s.rowRetired mem.val (scrubAddr mem.val a))

end Sys2Proof.Machine
end

