-- ==== Sys2Proof/Machine/Exchange.lean ====
section
/-!
DEFINITION. The exchange memory (R22 to R27): words with stamps, frames with an owner and a generation, the order of the
accesses of one cycle.
-/
namespace Sys2Proof.Machine
open Sys2Proof

/-- Address of exchange word `w`. -/
def xmAddr (w : Nat) : Nat := 0x28000000 + 4 * w

/-- Frame number of a frame configuration register's address. -/
def xmFrameIndex (a : Nat) : Option Nat :=
  if 0x5D002000 ≤ a ∧ a < 0x5D004000 ∧ a % 8 = 0 then some ((a - 0x5D002000) / 8) else none

/-- First word of frame `f`. -/
def State.xmBase (s : State) (f : Nat) : Nat := s.rf (R.XM_FRAME_CFGf f) 13 0

/-- Last word of frame `f`. -/
def State.xmLast (s : State) (f : Nat) : Nat := s.xmBase f + s.rf (R.XM_FRAME_CFGf f) 25 20

/-- Enabled frames: a frame that was never configured is not enabled. -/
def State.xmFrames (s : State) : List Nat :=
  s.regs.filterMap (fun e => match xmFrameIndex e.1 with
    | some f => if bit e.2 31 then some f else none
    | none => none)

/-- The enabled frame that covers word `w`. -/
def State.xmFrameOf (s : State) (w : Nat) : Option Nat :=
  s.xmFrames.find? (fun f => decide (s.xmBase f ≤ w) && decide (w ≤ s.xmLast f))

/-- Owner of word `w`: words outside every enabled frame are owned by domain 0. -/
def State.xmOwner (s : State) (w : Nat) : Nat :=
  match s.xmFrameOf w with
  | some f => s.rf (R.XM_FRAME_CFGf f) 29 26
  | none => 0

/-- Is word `w` Secure? Words outside every enabled frame are Non-secure. -/
def State.xmSecure (s : State) (w : Nat) : Bool :=
  match s.xmFrameOf w with
  | some f => s.rb (R.XM_FRAME_CFGf f) 30
  | none => false

/-- The flag of XM_STATUS that refuses an access of domain `d` to word `w`. -/
def State.xmRefusal (s : State) (d w : Nat) (write : Bool) : Option Nat :=
  if s.xmSecure w && !s.domSecure d then some 2
  else if write && s.xmOwner w != d then some 1
  else none

/-- Report a refused access. -/
def State.xmRefuse (s : State) (w flag : Nat) : State :=
  (s.flag R.XM_STATUS flag).setReg R.XM_FAULT_ADDR (w32 w)

/-- Generation after a write that covers, of a frame, its first word or not and its last word or not (R25). -/
def genAfter (first last : Bool) (g : Nat) : Nat :=
  let odd := g % 2
  (match first, last with
    | true, true => if odd = 1 then g + 1 else g + 2
    | true, false => if odd = 1 then g else g + 1
    | false, false => g
    | false, true => if odd = 1 then g + 1 else g + 2) % 65536

/-- The requester port of a master (R23): an engine's global number, 96 + n for CCn or the lower core of its pair, 104
the MP, 105 DMA, 106 the network engine, 107 the host port. The debug module has no number in R23 and takes the MP's
(DESIGN CHOICE; log entry 92). -/
def State.xmPort (s : State) : Master → Nat
  | .engine e => e.val
  | .core n => 96 + s.leadCore n.val
  | .mp => 104
  | .dma _ => 105
  | .net => 106
  | .host => 107
  | .debug => 104

/-- Port of the snapshot unit (R23). -/
def snapPort : Nat := 108

/-- A write in ascending order of requester port; of one port, the later one is behind the earlier one. -/
def byPort (x : Nat × Bool × Bool) : List (Nat × Bool × Bool) → List (Nat × Bool × Bool)
  | [] => [x]
  | y :: r => if x.1 < y.1 then x :: y :: r else y :: byPort x r

/-- What the present cycle holds of frame `f`. -/
def State.frameNow (s : State) (f : Nat) : XmFrameNow :=
  (s.xmNow.frames.find? (fun x => x.frame == f)).getD ⟨f, s.rf (R.XM_FRAME_GENf f) 15 0, []⟩

/-- The frame's record without frame `f`. -/
def State.dropFrameNow (s : State) (f : Nat) : State :=
  { s with xmNow := { s.xmNow with frames := s.xmNow.frames.filter (fun x => x.frame != f) } }

/-- A write of requester port `port` covers, of frame `f`, its first word or not and its last word or not: the generation
is what the writes of this cycle give in ascending order of port (R23, R25). -/
def State.frameWritten (s : State) (port f : Nat) (first last : Bool) : State :=
  let x := s.frameNow f
  let l := byPort (port, first, last) x.writes
  let s := s.dropFrameNow f
  { s with xmNow := { s.xmNow with frames := s.xmNow.frames ++ [{ x with writes := l }] } }.setReg (R.XM_FRAME_GENf f)
    (w32 (l.foldl (fun g (w : Nat × Bool × Bool) => genAfter w.2.1 w.2.2 g) x.gen))

/-- The words `lo … lo + n - 1` of an access touch a frame: its generation advances once (R25). -/
def State.xmAdvance (s : State) (port lo n : Nat) : State :=
  (s.xmFrames.filter (fun f => decide (s.xmBase f < lo + n) && decide (lo ≤ s.xmLast f))).foldl
    (fun t f => t.frameWritten port f (decide (lo ≤ s.xmBase f)) (decide (s.xmLast f < lo + n))) s

/-- Stamp of an exchange word. -/
def State.xmStamp (s : State) (w : Nat) : Word := s.stamps.get (fun _ => 0#32) w

/-- The present cycle's record of word `w`. -/
def State.wordNow (s : State) (w : Nat) : Option XmWordNow := s.xmNow.words.find? (fun x => x.word == w)

/-- Record a write of the present cycle. -/
def State.noteWord (s : State) (x : XmWordNow) : State :=
  { s with xmNow := { s.xmNow with words := s.xmNow.words.filter (fun y => y.word != x.word) ++ [x] } }

/-- A word takes a value with its stamp: the low word of device time (R22). -/
def State.xmSet (s : State) (w : Nat) (v : Word) : State :=
  let s := s.setMword (xmAddr w) v
  { s with stamps := s.stamps.set (fun _ => 0#32) w (lo64 s.devTime.toNat) }

/-- Requester port `port` writes one exchange word: of the writes of one cycle the word keeps that of the highest
port (R23). -/
def State.xmPut (s : State) (port w : Nat) (v : Word) : State :=
  match s.wordNow w with
  | none => (s.noteWord ⟨w, port, [port], s.mword (xmAddr w), s.xmStamp w⟩).xmSet w v
  | some x =>
    if x.port ≤ port then (s.noteWord { x with port := port, writers := port :: x.writers }).xmSet w v
    else s.noteWord { x with writers := port :: x.writers }

def State.xmPutAll (s : State) (port w : Nat) : List Word → State
  | [] => s
  | v :: r => (s.xmPut port w v).xmPutAll port (w + 1) r

/-- One write access of domain `d` on requester port `port` to consecutive exchange words: refused as a whole if one word
is refused, else all words take the value and the same stamp, and the frames advance. -/
def State.xmWrite (s : State) (d port w : Nat) (vs : List Word) : BusResult × State :=
  match (List.range vs.length).find? (fun i => (s.xmRefusal d (w + i) true).isSome) with
  | some i => (.error .ownership, s.xmRefuse (w + i) ((s.xmRefusal d (w + i) true).getD 1))
  | none => (.done, (s.xmAdvance port w vs.length).xmPutAll port w vs)

/-- Value and stamp that requester port `port` reads of a word (R22, R23): a read and a write of one cycle are ordered
read first. A port reads what it has itself written before (R12). -/
def State.xmSees (s : State) (port w : Nat) : Word × Word :=
  match s.wordNow w with
  | some x => if x.writers.contains port then (s.mword (xmAddr w), s.xmStamp w) else (x.value, x.stamp)
  | none => (s.mword (xmAddr w), s.xmStamp w)

/-- A read of an exchange word by domain `d`: 0 and an error response for a Secure word and a Non-secure domain
(R18). -/
def State.xmRead (s : State) (d port w : Nat) : BusResult × State :=
  match s.xmRefusal d w false with
  | some fl => (.error .ownership, s.xmRefuse w fl)
  | none => if s.eccBad (xmAddr w) then (.error .ecc, s.eccAccess (xmAddr w)) else (.data (s.xmSees port w).1, s.eccRead (xmAddr w))

/-- The read of a master whose port is 32 bits wide also copies the stamp into its domain's XM_STAMP (R22). -/
def State.xmReadStamped (s : State) (d port w : Nat) : BusResult × State :=
  match s.xmRead d port w with
  | (.data v, t) => (.data v, t.setDomReg R.XM_STAMP d (s.xmSees port w).2)
  | x => x

/-- Do two runs of words overlap? -/
def runsMeet (a al b bl : Nat) : Bool := decide (a ≤ bl) && decide (b ≤ al)

/-- A write to `XM_FRAME_CFGf` by domain `d` (R25, R27): domain 0 writes every field, the frame's owner EN, LEN and BASE. -/
def State.xmCfgWrite (s : State) (d f : Nat) (v : Word) : BusResult × State :=
  let a := R.XM_FRAME_CFGf f
  let old := s.reg a
  if d ≠ 0 ∧ fld old 29 26 ≠ d then (.error .ownership, s)
  else
    let mask := if d = 0 then 0xFFF03FFF#32 else 0x83F03FFF#32
    let new := (old &&& ~~~ mask) ||| (v &&& mask)
    let base := fld new 13 0
    let last := base + fld new 25 20
    if 16383 < last then (.done, s.flag R.XM_STATUS 0)
    else if bit new 31 && s.xmFrames.any (fun g => g != f && runsMeet base last (s.xmBase g) (s.xmLast g)) then
      (.done, s.flag R.XM_STATUS 0)
    else (.done, ((s.dropFrameNow f).setReg a new).setReg (R.XM_FRAME_GENf f) 0#32)

end Sys2Proof.Machine
end

