-- ==== Sys2Proof/Machine/Lines.lean ====
section
/-!
DEFINITION. Lines of the bunting (R248 to R258): what a pennant selects, whether it is gated or held, which consumers a
transition reaches, and how a source fires. Pennants are numbered 64n + p for DIn.PNp and 1,024 + g for PNg; hoists as
in R253.
-/
namespace Sys2Proof.Machine
open Sys2Proof

/-! ### Registers of a pennant, a hoist -/

def pnIsGlobal (p : Nat) : Bool := decide (1024 ≤ p)

def pnOwner (p : Nat) : Nat :=
  if p < 1024 then R.FI_PNp_OWNER (p / 64) (p % 64) else R.FB_PNg_OWNER (p - 1024)

def pnCfg (p : Nat) : Nat := if p < 1024 then R.FI_PNp_CFG (p / 64) (p % 64) else R.FB_PNg_CFG (p - 1024)

def pnCtrl (p : Nat) : Nat := if p < 1024 then R.FI_PNp_CTRL (p / 64) (p % 64) else R.FB_PNg_CTRL (p - 1024)

def pnRecReg (p : Nat) : Nat := if p < 1024 then R.FI_PNp_REC (p / 64) (p % 64) else R.FB_PNg_REC (p - 1024)

/-- Status register of the segment of a pennant. -/
def pnStatus (p : Nat) : Nat := if p < 1024 then R.FI_STATUS (p / 64) else R.FB_STATUS

def hsOwner (h : Nat) : Nat := if h < 256 then R.FI_HSh_OWNER (h / 16) (h % 16) else R.FB_HSh_OWNER (h - 256)

def hsCfg (h : Nat) : Nat := if h < 256 then R.FI_HSh_CFG (h / 16) (h % 16) else R.FB_HSh_CFG (h - 256)

def hsTruth (h : Nat) : Nat := if h < 256 then R.FI_HSh_TRUTH (h / 16) (h % 16) else R.FB_HSh_TRUTH (h - 256)

def hsState (h : Nat) : Nat := if h < 256 then R.FI_HSh_STATE (h / 16) (h % 16) else R.FB_HSh_STATE (h - 256)

def hsStatus (h : Nat) : Nat := if h < 256 then R.FI_STATUS (h / 16) else R.FB_STATUS

/-- The pennant whose control register lies at an address. -/
def pnOfCtrl (a : Nat) : Option Nat :=
  if 0x50010008 ≤ a ∧ a < 0x50014000 ∧ (a - 0x50010008) % 16 = 0 then some (1024 + (a - 0x50010008) / 16)
  else match islandOf a with
    | some n =>
      let o := a % 0x1000000
      if 0x251008 ≤ o ∧ o < 0x251400 ∧ (o - 0x251008) % 16 = 0 then some (64 * n + (o - 0x251008) / 16) else none
    | none => none

/-- Enabled pennants, by the enabling bit of their control registers. -/
def State.pennantsOn (s : State) : List Nat :=
  s.regs.filterMap (fun e => if bit e.2 31 then pnOfCtrl e.1 else none)

/-- Level that a pennant presents to its consumers. -/
def State.presented (s : State) (p : Nat) : Bool := s.rb (pnCtrl p) 0

/-- Output of a hoist. -/
def State.hoistOut (s : State) (h : Nat) : Bool := s.rb (hsState h) 31

/-- Level of a source line: that of a level source, or a pulse (R248, R249). -/
def State.sourceLevel (s : State) (g : Nat) : Bool :=
  s.fab.lines.get (fun _ => false) g || s.pulses.get (fun _ => 0) g != 0

/-- A firing of pennant `p` by software is at 1 (R262). -/
def State.firing (s : State) (p : Nat) : Bool := s.pulses.get (fun _ => 0) (8192 + p) != 0

/-- What a pennant carries (R253). -/
inductive Selection where
  | source (g : Nat) | hoist (h : Nat) | pennant (g : Nat) | none
deriving DecidableEq, Repr

def State.selection (s : State) (p : Nat) : Selection :=
  let c := s.reg (pnCfg p)
  let sel := if p < 1024 then fld c 9 0 else fld c 12 0
  match fld c 31 30 with
  | 0 => if p < 1024 then (if sel < 256 then .source (256 * (p / 64) + sel) else .none)
         else if sel < 5120 then .source sel else .none
  | 1 => if p < 1024 then (if sel < 16 then .hoist (16 * (p / 64) + sel) else .none)
         else if sel < 512 then .hoist sel else .none
  | 3 => if p < 1024 then .pennant (1024 + sel) else .none
  | _ => .none

/-- Ownership register that decides whether a source is Secure (R255): that of the block that drives it. -/
def sourceOwner (g : Nat) : Option Nat :=
  if g < 4096 then
    let n := g / 256
    let i := g % 256
    if i < 0x60 then some (R.LE_OWNER n (i / 16))
    else if i < 0xA0 then some (R.TU_OWNER n ((i - 0x60) / 16))
    else if i < 0xB0 then some (R.AC_OWNER n ((i - 0xA0) / 8))
    else if i < 0xC0 then some (R.SD_OWNER n ((i - 0xB0) / 4))
    else if i < 0xD0 then some (R.CP_OWNER n ((i - 0xC0) / 2))
    else if i < 0xE0 then some (R.EQ_OWNER n ((i - 0xD0) / 8))
    else if i < 0xE8 then some (R.MK_OWNER n ((i - 0xE0) / 2))
    else if i < 0xF0 then some (R.CP_OWNER n (i - 0xE8))
    else some (R.PM_DIn_OWNER n)
  else
    let j := g - 4096
    if j < 128 then some (R.DMA_CHc_OWNER (j / 2))
    else if j < 256 then some R.QM_OWNER
    else if j < 320 then some R.MB_OWNER
    else if j = 320 ∨ j = 323 then some R.TB_OWNER
    else if j = 321 then some R.EP_OWNER
    else if j = 322 then some R.SN_OWNER
    else if j < 329 then some R.CAL_OWNER
    else if 336 ≤ j ∧ j < 387 then some R.TH_OWNER
    else if j = 388 ∨ j = 389 then some R.FC_OWNER
    else if 390 ≤ j ∧ j < 403 then some R.PM_OWNER
    else if 416 ≤ j ∧ j < 544 then some R.NX_OWNER
    else if 544 ≤ j ∧ j < 556 then some (R.CAN_OWNER ((j - 544) / 3))
    else if 556 ≤ j ∧ j < 564 then some (R.UART_OWNER ((j - 556) / 2))
    else if 564 ≤ j ∧ j < 572 then some (R.SPI_OWNER (j - 564))
    else if 572 ≤ j ∧ j < 576 then some (R.I2C_OWNER (j - 572))
    else if 576 ≤ j ∧ j < 584 then some (R.SCH_OWNER (j - 576))
    else none

/-- Is the selected line Secure (R255)? -/
def State.selSecure (s : State) : Selection → Bool
  | .source g => match sourceOwner g with
    | some a => s.ownerSec a
    | none => false
  | .hoist h => s.ownerSec (hsOwner h)
  | .pennant p => s.ownerSec (pnOwner p)
  | .none => false

/-- A Non-secure pennant that selects a Secure line carries 0 (R255). -/
def State.selRefused (s : State) (p : Nat) : Bool := !s.ownerSec (pnOwner p) && s.selSecure (s.selection p)

/-- Level of a pennant's selected line, after INV (R253, R255). -/
def State.lineLevel (s : State) (p : Nat) : Bool :=
  let inv := s.rb (pnCfg p) 29
  if s.selRefused p then false
  else match s.selection p with
    | .source g => s.sourceLevel g != inv
    | .hoist h => s.hoistOut h != inv
    | .pennant q => s.presented q != inv
    | .none => false

/-- Level of a pennant that holds no unreachable line: its line ORed with a firing (R253). -/
def State.pnLevel (s : State) (p : Nat) : Bool := s.lineLevel p || s.firing p

/-- Island whose line a pennant selects, for the holding of R272: the island of its source or of an island hoist. -/
def State.selIsland (s : State) (p : Nat) : Option Nat :=
  match s.selection p with
  | .source g => if g < 4096 then some (g / 256) else none
  | .hoist h => if h < 256 then some (h / 16) else none
  | _ => none

/-- The pennant holds an unreachable line (R272): its island does not run, or the link between has timed out. -/
def State.srcHeld (s : State) (p : Nat) : Bool :=
  match s.selIsland p with
  | some n => !s.islandRuns n || (1024 ≤ p && !s.pathUp n)
  | none => match s.selection p with
    | .pennant _ => !s.pathUp (p / 64)
    | _ => false

/-! ### Signal sets (R268) -/

/-- Set whose control register lies at an address. -/
def setOfCtrl (a : Nat) : Option Nat :=
  if 0x50030010 ≤ a ∧ a < 0x50031000 ∧ (a - 0x50030010) % 32 = 0 then some ((a - 0x50030010) / 32) else none

/-- Does set `k` contain pennant `p`? Its owner must own the pennant. -/
def State.setHas (s : State) (k p : Nat) : Bool :=
  let scope := s.rf (R.FB_SSs_CFG k) 28 24
  let i := if p < 1024 then p % 64 else (p - 1024) % 64
  let inScope := if p < 1024 then scope == p / 64 else scope == 16 + (p - 1024) / 64
  let m := if i < 32 then s.rb (R.FB_SSs_MASK_LO k) i else s.rb (R.FB_SSs_MASK_HI k) (i - 32)
  inScope && m && s.ownerDom (R.FB_SSs_OWNER k) == s.ownerDom (pnOwner p)

/-- A pennant is gated while any set that contains it is OFF (R256, R268). Sets are ON at reset. -/
def State.gated (s : State) (p : Nat) : Bool :=
  s.regs.any (fun e => !bit e.2 0 && (match setOfCtrl e.1 with
    | some k => s.setHas k p
    | none => false))

/-! ### Consumers -/

/-- Number of the pennant that an island consumer names: its own island's or a global one. -/
def namedPn (n : Nat) (isGlobal : Bool) (q : Nat) : Option Nat :=
  if isGlobal then some (1024 + q) else if q < 64 then some (64 * n + q) else none

/-- The pennant a trigger field of the AC_TRIG form names (R195). -/
def trigPn (n : Nat) (t : Word) : Option Nat :=
  match fld t 15 14 with
  | 0 => some (64 * n + fld t 5 0)
  | 1 => some (1024 + fld t 9 0)
  | _ => none

/-- The timer unit and event a trigger field of the AC_TRIG form names with KIND 2 (R195). -/
def trigTu (t : Word) : Option (Nat × Nat) :=
  if fld t 15 14 = 2 then some (fld t 5 4, fld t 3 0) else none

/-- A consumer owned by a Non-secure block does not see a Secure pennant (R255). -/
def State.sees (s : State) (consumerOwner p : Nat) : Bool := s.ownerSec consumerOwner || !s.ownerSec (pnOwner p)

/-- Commands of the edge and level consumers whose enabling register stands at address `a` with value `v`, when
pennant `p` rises or falls (R250). -/
def State.consumersAt (s : State) (p : Nat) (rise : Bool) (a : Nat) (v : Word) : List Instr :=
  match locate a with
  | some (.le n m, 0x10) =>
    if rise && s.sees (R.LE_OWNER n m) p then
      ((List.range 8).filter (fun c =>
        let t := s.reg (R.LE_CTXc_TRIG n m c)
        bit v c && namedPn n (bit t 10) (fld t 9 0) == some p)).map
        (fun c => .contextTrigger (Fin.ofNat 16 n) (Fin.ofNat 6 m) (Fin.ofNat 8 c))
    else []
  | some (.ac n c, 0x10) =>
    if rise && bit v 31 && s.sees (R.AC_OWNER n c) p then
      (if trigPn n (s.reg (R.AC_TRIG n c)) == some p then [.adcTrigger (Fin.ofNat 16 n) (Fin.ofNat 2 c) false] else [])
      ++ (if trigPn n (s.reg (R.AC_TRIG_INJ n c)) == some p then
            [.adcTrigger (Fin.ofNat 16 n) (Fin.ofNat 2 c) true] else [])
    else []
  | some (.sd n d, 0x14) =>
    if rise && trigPn n v == some p && s.sees (R.SD_OWNER n d) p then [.sdSync (Fin.ofNat 16 n) (Fin.ofNat 4 d)] else []
  | some (.eq n q, 0x50) =>
    if rise && bit v 26 && p == 64 * n + fld v 21 16 && s.sees (R.EQ_OWNER n q) p then
      [.compareArmPennant (Fin.ofNat 16 n) (Fin.ofNat 2 q)] else []
  | some (.tu n k, o) =>
    if 0x60 ≤ o ∧ o < 0x80 then
      if bit v 31 && decide (0x40 ≤ fld v 7 0) && decide (fld v 7 0 < 0x80) && p == 64 * n + (fld v 7 0 - 0x40)
          && s.sees (R.TU_OWNER n k) p then
        if rise != bit v 30 then [.tripActive (Fin.ofNat 16 n) (Fin.ofNat 4 k) (Fin.ofNat 8 ((o - 0x60) / 4))]
        else [.tripInputInactive (Fin.ofNat 16 n) (Fin.ofNat 4 k) (Fin.ofNat 8 ((o - 0x60) / 4))]
      else []
    else if 0x200 ≤ o ∧ (o - 0x210) % 0x40 = 0 then
      if bit v 31 && p == 64 * n + (fld v 9 0 - 0x40) && decide (0x40 ≤ fld v 9 0)
          && decide (fld v 9 0 < 0x80) && s.sees (R.TU_OWNER n k) p then
        [.captureEdge (Fin.ofNat 16 n) (Fin.ofNat 4 k) (Fin.ofNat 6 ((o - 0x210) / 0x40)) rise 0#32] else []
    else []
  | some (.mk n k, 0x10) =>
    if bit v 31 && p == 64 * n + (fld v 9 0 - 0x40) && decide (0x40 ≤ fld v 9 0)
        && decide (fld v 9 0 < 0x80) && s.sees (R.MK_OWNER n k) p then
      [.markCapture (Fin.ofNat 16 n) (Fin.ofNat 4 k) rise 0#32] else []
  | some (.sch n, o) =>
    if 0x1000 ≤ o ∧ o % 16 = 4 ∧ rise then
      if ((bit v 15 && p == 1024 + fld v 9 0) || (bit v 31 && p == 1024 + fld v 25 16)) && s.sees (R.SCH_OWNER n) p then
        [.schedulerEvent (Fin.ofNat 8 n) (Fin.ofNat 256 ((o - 0x1000) / 16))] else []
    else []
  | some (.dma, o) =>
    if 0x1000 ≤ o ∧ o % 0x40 = 4 ∧ rise ∧ (fld v 27 26 = 1 ∨ fld v 27 26 = 2) ∧ p = 1024 + fld v 9 0 then
      if s.sees (R.DMA_CHc_OWNER ((o - 0x1000) / 0x40)) p then [.dmaTrigger (Fin.ofNat 64 ((o - 0x1000) / 0x40))] else []
    else []
  | some (.spi k, 0x10) =>
    if rise && bit v 31 && bit v 11 && p == 1024 + fld v 21 12 && s.sees (R.SPI_OWNER k) p then
      [.spiPennantStart (Fin.ofNat 8 k)] else []
  | some (.hp, o) =>
    if 0x100 ≤ o ∧ o < 0x200 ∧ rise then
      if bit v 31 && p == 1024 + fld v 9 0 && s.sees R.HP_OWNER p then [.msixVector (Fin.ofNat 64 ((o - 0x100) / 4))] else []
    else []
  | some (.fb, o) =>
    if 0x30000 ≤ o ∧ o % 32 = 4 ∧ rise then
      let k := (o - 0x30000) / 32
      if s.sees (R.FB_SSs_OWNER k) p then
        (if bit v 31 && p == 1024 + fld v 9 0 then [.signalSetOn (Fin.ofNat 128 k)] else [])
        ++ (if bit v 30 && p == 1024 + fld v 21 12 then [.signalSetOff (Fin.ofNat 128 k)] else [])
      else []
    else []
  | _ => []

/-- DETERMINISTIC mode of a core (R30). -/
def State.coreDet (s : State) (n : Nat) : Bool :=
  let c := (s.cores.get (fun _ => CoreRec.reset) n).slots.get (fun _ => CoreCtx.reset) (s.runSlot n)
  bit (c.cr.get crReset 1) 1

/-- A pennant takes the resynchronised path to every consumer (R261). -/
def State.allLate (s : State) (p : Nat) : Bool := s.rb (pnCfg p) 28 || s.rb R.PW_STATE 29

/-- The consumer at `a` alone takes the resynchronised path: the scheduler of a core in DETERMINISTIC mode. -/
def State.detAt (s : State) (a : Nat) : Bool := match locate a with
  | some (.sch n, _) => s.coreDet n
  | _ => false

/-- A transition of pennant `p` reaches the consumer at `a`: signal sets run in WATCH, the rest does not (R273); what a
global pennant carries into an island crosses its link (R272). -/
def State.arrivesAt (s : State) (p a : Nat) : Bool :=
  match locate a with
  | some (.fb, _) => true
  | _ => s.beatRuns && (match islandOf a with
    | some n => decide (p < 1024) || s.pathUp n
    | none => true)

/-- The commands of the consumers of a delivered transition that a test on their addresses selects, in order of device
address. -/
def State.consumers (s : State) (p : Nat) (rise : Bool) (which : Nat → Bool) : List Instr :=
  s.regs.flatMap (fun e => if which e.1 && s.arrivesAt p e.1 then s.consumersAt p rise e.1 e.2 else [])

/-- Commands of the trip inputs, captures and mark inputs of DIn that take a source of the island directly, by its number
in TU_TRIPi_CFG and in the capture registers (R176, R183, R240), when it takes a level. -/
def State.directConsumers (s : State) (n trip cap : Nat) (level : Bool) : List Instr :=
  s.regs.flatMap (fun e => match locate e.1 with
    | some (.tu n' k, o) =>
      if n' = n ∧ bit e.2 31 then
        if 0x60 ≤ o ∧ o < 0x80 then
          if fld e.2 7 0 = trip then
            (if level != bit e.2 30 then [.tripActive (Fin.ofNat 16 n) (Fin.ofNat 4 k) (Fin.ofNat 8 ((o - 0x60) / 4))]
             else [.tripInputInactive (Fin.ofNat 16 n) (Fin.ofNat 4 k) (Fin.ofNat 8 ((o - 0x60) / 4))])
          else []
        else if 0x200 ≤ o ∧ (o - 0x210) % 0x40 = 0 ∧ fld e.2 9 0 = cap then
          [.captureEdge (Fin.ofNat 16 n) (Fin.ofNat 4 k) (Fin.ofNat 6 ((o - 0x210) / 0x40)) level 0#32]
        else []
      else []
    | some (.mk n' k, 0x10) =>
      if n' = n ∧ bit e.2 31 ∧ fld e.2 9 0 = cap then
        [.markCapture (Fin.ofNat 16 n) (Fin.ofNat 4 k) level 0#32] else []
    | _ => [])

/-! ### Triggers of serial frames (R195, R230) -/

def State.eq (s : State) (n q : Nat) : EqRec := s.eqs.get (fun _ => .reset) (2 * n + q)

def State.setEq (s : State) (n q : Nat) (r : EqRec) : State := { s with eqs := s.eqs.set (fun _ => .reset) (2 * n + q) r }

def State.eqMode (s : State) (n q : Nat) : Nat := s.rf (R.EQ_CFG n q) 30 28

/-- A port that runs; it stops with the beat (R244). -/
def State.eqOn (s : State) (n q : Nat) : Bool := s.rb (R.EQ_CTRL n q) 31 && s.islandRuns n && s.beatRuns

/-- A trigger arrives through a source of EQ_SSI_TRIG: it is due `d` ticks later (R195). One that arrives while another is
still to come will find a frame or a wait, and is discarded. -/
def State.ssiArrive (s : State) (n q d : Nat) : State :=
  let r := s.eq n q
  if s.eqMode n q ≠ 5 ∨ s.eqOn n q = false then s
  else if r.ssiDue.isSome then s.flag (R.EQ_STATUS n q) 3
  else s.setEq n q { r with ssiDue := some (s.clk.beat.toNat * 5 + s.clk.tick.val + d) }

/-- A trigger arrives at every port whose EQ_SSI_TRIG names its source. -/
def State.ssiArrivals (s : State) (d : Nat) (named : Nat → Nat → Word → Bool) : State :=
  (s.regs.filterMap (fun e => match locate e.1 with
    | some (.eq n q, 0x20) => if named n q e.2 then some (n, q) else none
    | _ => none)).foldl (fun t u => t.ssiArrive u.1 u.2 d) s

/-- The ports whose trigger is pennant `p`. -/
def State.ssiNames (s : State) (p n q : Nat) (v : Word) : Bool :=
  trigPn n v == some p && s.sees (R.EQ_OWNER n q) p && s.arrivesAt p (R.EQ_SSI_TRIG n q)

/-! ### Firing -/

/-- Pennants that select what `q` holds of, ascending. -/
def State.selecting (s : State) (q : Selection) : List Nat :=
  s.pennantsOn.filter (fun p => s.selection p == q)

/-- A transition of the selected line of pennant `p`, as a command. -/
def transition (p : Nat) (level fired : Bool) : Instr := .pennantTransition (Fin.ofNat 2048 p) level fired

/-- Every pennant that selects source `g` sees its line. -/
def State.tellLine (s : State) (g : Nat) : State :=
  s.enqueue ((s.selecting (.source g)).map (fun p => transition p (s.lineLevel p) false))

/-- An occurrence of a pulse source (R248, R249): its line stands at 1 to the end of the next tick; an occurrence while it
does lengthens the pulse. -/
def State.fire (s : State) (g : Nat) : State :=
  let t := { s with pulses := s.pulses.set (fun _ => 0) g 2 }
  if s.sourceLevel g then t else t.tellLine g

/-- An event of an island source i of DIn (R251). -/
def State.fireIsland (s : State) (n i : Nat) : State := s.fire (256 * n + i)

/-- An event of central source j (R252). -/
def State.fireCentral (s : State) (j : Nat) : State := s.fire (4096 + j)

/-- A level source takes a level (R248). -/
def State.setLine (s : State) (g : Nat) (l : Bool) : State :=
  if s.sourceLevel g = l then s
  else
    { s with fab := { s.fab with lines := s.fab.lines.set (fun _ => false) g l } }.tellLine g

/-- One tick of the pulses: those that have lasted end, and the pennants see it (R249, R262). A held line stays as it is,
so that a firing of its pennant ends at 0. -/
def State.pulsesTick (s : State) : State :=
  let t := { s with pulses := (s.pulses.filter (fun e => decide (1 < e.2))).map (fun e => (e.1, e.2 - 1)) }
  (s.pulses.filter (fun e => decide (e.2 ≤ 1))).foldl (fun u e =>
    if e.1 < 8192 then u.tellLine e.1
    else u.enqueue [transition (e.1 - 8192) (!u.srcHeld (e.1 - 8192) && u.pnLevel (e.1 - 8192)) true]) t

/-- Pennants that are enabled, ungated and not held, and whose line stands at another level than they present: they
deliver the present level (R256, R258, R272). -/
def State.refreshPennants (s : State) : State :=
  s.enqueue ((s.pennantsOn.filter (fun p =>
    s.pnLevel p != s.presented p && !s.gated p && !s.srcHeld p)).map (fun p => transition p (s.pnLevel p) false))

end Sys2Proof.Machine
end

