-- ==== Sys2Proof/Machine/Fabric.lean ====
section
/-!
DEFINITION. The bunting fabric (R256 to R274): delivery of transitions, hoists, loops, signal sets, event records and
software firing.
-/
namespace Sys2Proof.Machine
open Sys2Proof

/-! ### Faults of the fabric -/

/-- Set a flag of a segment's status with its fault information (R277): segment 0 to 15 or 16 for the global one. A global
object has no island. -/
def State.fabFault (s : State) (seg flag obj : Nat) (isGlobal : Bool) (island number : Nat) : State :=
  let info := w32 (at_ flag 28 + at_ obj 26 + at_ (b2n isGlobal) 25 + at_ (if isGlobal then 0 else island % 16) 16 + number % 2048)
  if seg < 16 then (s.flag (R.FI_STATUS seg) flag).setReg (R.FI_FAULT_INFO seg) info
  else (s.flag R.FB_STATUS flag).setReg R.FB_FAULT_INFO info

/-- Segment of a pennant. -/
def pnSeg (p : Nat) : Nat := if p < 1024 then p / 64 else 16

/-- A fault that names a pennant. -/
def State.pnFault (s : State) (p flag : Nat) : State :=
  s.fabFault (pnSeg p) flag 0 (pnIsGlobal p) (p / 64) (if p < 1024 then p % 64 else p - 1024)

/-- A fault that the global segment reports of a pennant. -/
def State.fbPnFault (s : State) (p flag : Nat) : State :=
  s.fabFault 16 flag 0 (pnIsGlobal p) (p / 64) (if p < 1024 then p % 64 else p - 1024)

/-! ### Event records (R270, R271) -/

def State.pnRec (s : State) (p : Nat) : PennantRec := s.fab.pennants.get (fun _ => ⟨0, 0⟩) p

def State.setPnRec (s : State) (p : Nat) (r : PennantRec) : State :=
  { s with fab := { s.fab with pennants := s.fab.pennants.set (fun _ => ⟨0, 0⟩) p r } }

/-- A record of a pennant is lost. -/
def State.recordLost (s : State) (p : Nat) : State :=
  let r := s.pnRec p
  (s.setPnRec p { r with lost := satTo 0xFFFF (r.lost + 1) }).pnFault p 5

def State.recordsOf (s : State) (seg : Nat) : List EventRecord := s.fab.records.get (fun _ => []) seg

def State.setRecords (s : State) (seg : Nat) (l : List EventRecord) : State :=
  { s with fab := { s.fab with records := s.fab.records.set (fun _ => []) seg l } }

/-- Buffer the record of a delivered transition, if the pennant records its kind. The segment sends one record per beat to
its queue (R271). -/
def State.record (s : State) (p : Nat) (level fired : Bool) : State :=
  let c := s.reg (pnCfg p)
  let kinds := fld c 26 25
  if (level && kinds % 2 == 1) || (!level && decide (2 ≤ kinds)) then
    let seg := pnSeg p
    let l := s.recordsOf seg
    if 32 ≤ l.length then s.recordLost p
    else
      let t := if p < 1024 then s.islandTime seg else s.devTime
      let sel := if p < 1024 then fld c 9 0 else fld c 12 0
      let w1 := w32 (at_ (b2n level) 31 + at_ s.clk.tick.val 28 + at_ (b2n fired) 27 + at_ (fld c 31 30) 25 + sel)
      let w2 := w32 (at_ (b2n (pnIsGlobal p)) 31 + (if p < 1024 then at_ (p / 64) 26 + at_ (p % 64) 16
        else at_ (p - 1024) 16))
      s.setRecords seg (l ++ [⟨p, lo64 t.toNat, w1, w2⟩])
  else s

/-! ### Hoists (R263 to R267) -/

/-- The pennant named by input `k` of hoist `h`, or a constant. -/
def State.hoistInput (s : State) (h k : Nat) : Bool ⊕ Nat :=
  if h < 256 then
    let f := fld (s.reg (R.FI_HSh_IN (h / 16) (h % 16))) (8 * k + 7) (8 * k)
    if f < 64 then .inr (64 * (h / 16) + f) else .inl (f == 0x81)
  else
    let r := if k < 2 then s.reg (R.FB_HSh_IN_LO (h - 256)) else s.reg (R.FB_HSh_IN_HI (h - 256))
    let f := if k % 2 = 0 then fld r 10 0 else fld r 26 16
    if f < 1024 then .inr (1024 + f) else .inl (f == 0x401)

/-- Level of input `k`. -/
def State.hoistInLevel (s : State) (h k : Nat) : Bool :=
  match s.hoistInput h k with
  | .inl b => b
  | .inr p => s.presented p && s.sees (hsOwner h) p

/-- Hoists with a register that has been configured; every other hoist has TRUTH 0, so its output stays 0. -/
def State.hoistsSet (s : State) : List Nat :=
  (s.regs.filterMap (fun e =>
    if 0x50020000 ≤ e.1 ∧ e.1 < 0x50022000 then
      (if e.1 % 32 = 0 then none else some (256 + (e.1 - 0x50020000) / 32))
    else match islandOf e.1 with
      | some n =>
        let o := e.1 % 0x1000000
        if 0x252000 ≤ o ∧ o < 0x252200 ∧ o % 32 ≠ 0 then some (16 * n + (o - 0x252000) / 32) else none
      | none => none)).eraseDups

/-- Hoists with an input that names pennant `p`. -/
def State.hoistsNaming (s : State) (p : Nat) : List Nat :=
  s.hoistsSet.filter (fun h => (List.range 4).any (fun k => s.hoistInput h k == .inr p))

/-- Look-up output L (R263). -/
def State.lookup (s : State) (h : Nat) : Bool :=
  s.rb (hsTruth h) ((List.range 4).foldl (fun a k => a + b2n (s.hoistInLevel h k) * 2 ^ k) 0)

/-- L immediately before the present instant. -/
def State.lookupBefore (s : State) (h : Nat) : Bool := s.fab.lookups.get (fun _ => false) h

/-- Flip-flop after an evaluation (R264); `clk` says that the CLK input rises. -/
def hoistQ (cfg : Word) (q before now clk rst : Bool) : Bool :=
  let rst := rst && bit cfg 25
  match fld cfg 31 30 with
  | 0 => now
  | 1 => if rst then false else if clk then before else q
  | 2 => if rst then false else if clk then q != before else q
  | _ => if rst then false else if now then true else q

/-- FILT of a hoist is GLITCH or DEBOUNCE. -/
def hoistFilter (cfg : Word) : Bool := fld cfg 24 23 == 1 || fld cfg 24 23 == 2

/-- Output of a hoist whose Q was `was` and is `q`: 0 in a loop, its old level while the filter works, else Q (R265, R266).
A swap of FILT leaves it unchanged, so it follows Q from Q's next change (R267). -/
def hoistLevel (cfg : Word) (loop out was q : Bool) : Bool :=
  if loop then false else if hoistFilter cfg || q == was then out else q

/-- Counts of a hoist's filter, plus 1; 0 where Q stands at the output level. -/
def State.hoistCount (s : State) (h : Nat) : Nat := s.fab.counts.get (fun _ => 0) h

def State.setHoistCount (s : State) (h k : Nat) : State :=
  { s with fab := { s.fab with counts := s.fab.counts.set (fun _ => 0) h k } }

/-- The filter of a hoist after an evaluation: it counts while Q differs from the output, and a change back ends the
count. -/
def State.noteFilter (s : State) (h : Nat) : State :=
  let st := s.reg (hsState h)
  if hoistFilter (s.reg (hsCfg h)) && bit st 31 != bit st 30 && !bit st 29 then
    (if s.hoistCount h = 0 then s.setHoistCount h 1 else s)
  else s.setHoistCount h 0

/-- Tell the pennants that select a hoist of its output. -/
def State.announceHoist (s : State) (h : Nat) : State :=
  s.enqueue ((s.selecting (.hoist h)).map (fun p => transition p (s.lineLevel p) false))

/-- The output of a hoist takes a level. -/
def State.setHoistOut (s : State) (h : Nat) (l : Bool) : State :=
  if s.hoistOut h = l then s else (s.setRb (hsState h) 31 l).announceHoist h

/-- Evaluate a hoist; `rising` is the pennant whose rise is the present transition, if the hoist sees it (R255). -/
def State.evalHoist (s : State) (h : Nat) (rising : Option Nat) : State :=
  let cfg := s.reg (hsCfg h)
  let st := s.reg (hsState h)
  let now := s.lookup h
  let clk := match rising with
    | some p => s.hoistInput h (fld cfg 29 28) == .inr p && s.sees (hsOwner h) p
    | none => false
  let q := hoistQ cfg (bit st 30) (s.lookupBefore h) now clk (s.hoistInLevel h (fld cfg 27 26))
  let out := hoistLevel cfg (bit st 29) (bit st 31) (bit st 30) q
  let ins := (List.range 4).foldl (fun a k => a + b2n (s.hoistInLevel h k) * 2 ^ k) 0
  let t := s.setReg (hsState h) (w32 (at_ (b2n out) 31 + at_ (b2n q) 30 + at_ (b2n (bit st 29)) 29 + ins))
  let t := { t with fab := { t.fab with lookups := t.fab.lookups.set (fun _ => false) h now } }
  let t := t.noteFilter h
  if out = bit st 31 then t else t.announceHoist h

/-- A hoist that may close a loop: neither D nor T nor DEBOUNCE (R266). -/
def State.combinational (s : State) (h : Nat) : Bool :=
  let cfg := s.reg (hsCfg h)
  !(fld cfg 31 30 == 1 || fld cfg 31 30 == 2) && fld cfg 24 23 != 2

/-- Pennant whose configuration register lies at an address. -/
def pnOfCfg (a : Nat) : Option Nat := pnOfCtrl (a + 4)

/-- Pennants with a configuration of their own. -/
def State.pennantsSet (s : State) : List Nat := s.regs.filterMap (fun e => pnOfCfg e.1)

/-- Hoists one step behind hoist `h` on a path, among the combinational ones up to `top`. -/
def State.hoistNext (s : State) (top h : Nat) : List Nat :=
  let direct := s.pennantsSet.filter (fun p => s.selection p == .hoist h)
  let all := direct ++ s.pennantsSet.filter (fun q => direct.any (fun p => s.selection q == .pennant p))
  s.hoistsSet.filter (fun g => decide (g ≤ top) && s.combinational g &&
    (List.range 4).any (fun k => match s.hoistInput g k with
      | .inr p => all.contains p
      | .inl _ => false))

/-- Hoists reached from a list within a number of steps. -/
def State.hoistReach (s : State) (top : Nat) : Nat → List Nat → List Nat
  | 0, seen => seen
  | f + 1, seen =>
    let new := (seen.flatMap (s.hoistNext top)).filter (fun g => !seen.contains g)
    match new with
    | [] => seen
    | _ => s.hoistReach top f (seen ++ new.eraseDups)

/-- Is hoist `h` the highest-numbered one of a loop (R266)? -/
def State.inLoop (s : State) (h : Nat) : Bool :=
  s.combinational h && (s.hoistReach h 512 (s.hoistNext h h)).contains h

/-- A loop is broken: the output follows Q again, through the filter if there is one. -/
def State.loopBroken (s : State) (h : Nat) : State :=
  if hoistFilter (s.reg (hsCfg h)) then s else s.setHoistOut h (s.rb (hsState h) 30)

/-- The loop check that every change of a selection or a hoist makes, and the evaluation after it. -/
def State.checkLoops (s : State) : State :=
  let t := s.hoistsSet.foldl (fun t h =>
    let l := s.inLoop h
    if l = t.rb (hsState h) 29 then t
    else
      let t := t.setRb (hsState h) 29 l
      if l then t.fabFault (if h < 256 then h / 16 else 16) 6 1 (decide (256 ≤ h)) (h / 16)
        (if h < 256 then h % 16 else h - 256)
      else t.loopBroken h) s
  t.hoistsSet.foldl (fun t h => t.evalHoist h none) t

/-! ### Delivery -/

/-- A transition arrives at the consumers that a test selects: commands, and triggers of serial frames. -/
def State.present (s : State) (p : Nat) (level : Bool) (which : Nat → Bool) : State :=
  let s := s.enqueue (s.consumers p level which)
  if level then s.ssiArrivals 1 (fun n q v => which (R.EQ_SSI_TRIG n q) && s.ssiNames p n q v) else s

/-- A transition takes the resynchronised path (R261): it is presented 3 ticks after the tick of its source (log entry
103), one that comes in the same tick as another of its pennant a tick after that one, so that none is lost. -/
def State.delay (s : State) (p : Nat) (level : Bool) : State :=
  let others := (s.fab.late.filter (fun x => x.pennant == p)).map (fun x => x.left + 1)
  { s with fab := { s.fab with late := s.fab.late ++ [⟨others.foldl max 3, p, level, s.allLate p⟩] } }

/-- One tick of the resynchronised paths. -/
def State.lateTick (s : State) : State :=
  let t := { s with fab := { s.fab with
    late := (s.fab.late.filter (fun x => decide (1 < x.left))).map (fun x => { x with left := x.left - 1 }) } }
  (s.fab.late.filter (fun x => decide (x.left ≤ 1))).foldl (fun u x =>
    u.present x.pennant x.level (fun a => x.all || u.detAt a)) t

/-- Deliver a transition of a pennant to its consumers (R250, R256): the level presented, the record, the consumers, the
importing island pennants, the hoists, an AUTOSTART recipe that waits (R402), and a wake. -/
def State.deliver (s : State) (p : Nat) (level fired : Bool) : State :=
  let s := (s.setRb (pnCtrl p) 0 level).record p level fired
  let s := if s.allLate p then s else s.present p level (fun a => !s.detAt a)
  let s := if s.allLate p || (List.range 8).any s.coreDet then s.delay p level else s
  let s := s.enqueue (((s.selecting (.pennant p)).filter (fun q => !s.selRefused q)).map
    (fun q => transition q (level != s.rb (pnCfg q) 29) fired))
  let s := (s.hoistsNaming p).foldl (fun t h => t.evalHoist h (if level then some p else none)) s
  let s := if level && p == 2047 && s.mp.autostart == 1 then s.enqueue [.autostartSourceHaul] else s
  if level && pnIsGlobal p && s.rb (pnCfg p) 24 && (s.device == .watch || s.device == .entering) then
    s.enqueue [.wakeSource (.pennant (Fin.ofNat 1024 (p - 1024)))]
  else s

/-- The segment of a pennant works: island segments are off in WATCH (R273). -/
def State.segRuns (s : State) (p : Nat) : Bool := pnIsGlobal p || s.beatRuns

/-- Effect of a transition of the selected line of pennant `p`, or of its firing, which is ORed with the line (R253):
delivered unless the pennant is disabled, gated or holds an unreachable line, its segment is off, or it already presents
the level. -/
def State.lineTransition (s : State) (p : Nat) (level fired : Bool) : State :=
  let level := level || s.firing p
  if !s.rb (pnCtrl p) 31 || s.gated p || (s.srcHeld p && !fired) || !s.segRuns p || s.presented p == level then s
  else s.deliver p level fired

/-- Sources that follow a ball: the PWM-capable balls of an island, WAKE0 to WAKE3, GPIO0 to GPIO8 (R251, R252). -/
def ballSource (g : Nat) : Bool :=
  (decide (g < 4096) && decide (0xF0 ≤ g % 256)) || (decide (4096 + 390 ≤ g) && decide (g ≤ 4096 + 402))

/-- A transition of a ball's line: the ball stands at the new level, and every other pennant that selects it sees it. -/
def State.noteBall (s : State) (p : Nat) (level : Bool) : State :=
  match s.selection p with
  | .source g =>
    let l := level != s.rb (pnCfg p) 29
    if !ballSource g || s.sourceLevel g == l then s
    else
      let t := { s with fab := { s.fab with lines := s.fab.lines.set (fun _ => false) g l } }
      t.enqueue (((t.selecting (.source g)).filter (fun q => q != p)).map (fun q => transition q (t.lineLevel q) false))
  | _ => s

/-- PENNANT_TRANSITION (R256). -/
def execPennantTransition (p : Fin 2048) (level fired : Bool) (s : State) : Host.Outcome State Fault Refusal :=
  .next ((if fired then s else s.noteBall p.val level).lineTransition p.val level fired)

/-- The output of a hoist takes the level of Q behind its filter. -/
def State.passFilter (s : State) (h : Nat) : State := (s.setHoistCount h 0).setHoistOut h (s.rb (hsState h) 30)

/-- DEBOUNCE_EXPIRY (R265): the output of a DEBOUNCE hoist takes the level that Q has held for NM1 + 1 counts. -/
def State.debounce (s : State) (h : Nat) : State :=
  let cfg := s.reg (hsCfg h)
  if fld cfg 24 23 = 2 ∧ fld cfg 21 10 + 2 ≤ s.hoistCount h then s.passFilter h else s

/-- One tick of a hoist's filter (R265): GLITCH passes what has lasted 3 ticks and may pass what has lasted 2 (1.6 ns, which
the rule leaves open); DEBOUNCE counts edges of its count clock. Filters of an island stand in WATCH (R273). -/
def State.filterTick (s : State) (h : Nat) (us beat : Bool) : State :=
  let cfg := s.reg (hsCfg h)
  let k := s.hoistCount h
  if h < 256 && !s.beatRuns then s
  else match fld cfg 24 23 with
  | 1 =>
    let s := s.setHoistCount h (k + 1)
    if k = 1 then s
    else if k = 2 then
      let (b, s) := s.freeBit
      if b then s.passFilter h else s
    else s.passFilter h
  | _ =>
    if !(if bit cfg 22 then beat else us) then s
    else
      let s := s.setHoistCount h (k + 1)
      if fld cfg 21 10 + 2 ≤ k + 1 then s.enqueue [.debounceExpiry (Fin.ofNat 512 h)] else s

/-- One tick of every filter at work, and of the 1 MHz count clock, 1,250 ticks (R265). `beat` says that a beat begins. -/
def State.filtersTick (s : State) (beat : Bool) : State :=
  let us := decide (1249 ≤ s.fab.sleep)
  let t := { s with fab := { s.fab with sleep := if us then 0 else s.fab.sleep + 1 } }
  (s.fab.counts.map (fun e => e.1)).foldl (fun u h => u.filterTick h us beat) t

/-- On wake a DEBOUNCE on the beat restarts its count (R273). -/
def State.filtersWake (s : State) : State :=
  (s.fab.counts.map (fun e => e.1)).foldl (fun t h =>
    if t.rb (hsCfg h) 22 then t.setHoistCount h 1 else t) s

def execDebounceExpiry (h : Fin 512) (s : State) : Host.Outcome State Fault Refusal := .next (s.debounce h.val)

/-- A gated or disabled pennant presents 0 with OFF_LOW = 1 (R256). -/
def State.offLow (s : State) (p : Nat) : State :=
  if s.rb (pnCfg p) 27 && s.presented p && (s.gated p || !s.rb (pnCtrl p) 31) then s.deliver p false false else s

/-- Pennants that present 1. -/
def State.pennantsHigh (s : State) : List Nat :=
  s.regs.filterMap (fun e => if bit e.2 0 then pnOfCtrl e.1 else none)

/-- Gated and disabled pennants with OFF_LOW = 1 present 0, whatever has changed (R256, R274). -/
def State.lowerPennants (s : State) : State := s.pennantsHigh.foldl (fun t p => t.offLow p) s

/-- Report the pennants that a change of ownership leaves with a Secure line (R255); `o` is the state before. -/
def State.refusedReport (s o : State) : State :=
  (s.pennantsSet.filter (fun p => s.selRefused p && !o.selRefused p)).foldl (fun t p => t.pnFault p 2) s

/-- A new selection of an unreachable line (R272); `o` is the state before. -/
def State.heldSelection (s o : State) (p : Nat) : State :=
  if s.srcHeld p && (s.selection p != o.selection p || !o.srcHeld p) then s.pnFault p 7 else s

/-- A selection, configuration or enable has changed: refuse a Secure selection (R255), check for loops (R266), and
present the levels that now stand. -/
def State.fabricChanged (s : State) (p : Option Nat) : State :=
  let s := match p with
    | some p => if s.selRefused p then s.pnFault p 2 else s
    | none => s
  s.checkLoops.lowerPennants.refreshPennants

/-- A write to a pennant's control register (R256, R271): enabling restarts its record counters. -/
def State.pnCtrlWrite (s : State) (p : Nat) (v : Word) : State :=
  let was := s.rb (pnCtrl p) 31
  let s := s.setRb (pnCtrl p) 31 (bit v 31)
  if bit v 31 && !was then ((s.setPnRec p ⟨0, 0⟩).fabricChanged (some p))
  else if was && !bit v 31 then s.offLow p
  else s

/-- Report the pennants that come to hold an unreachable line (R272); `o` is the state before, and the pennants of island
`n` itself are lost with it. -/
def State.heldReport (s o : State) (n : Nat) : State :=
  (s.pennantsSet.filter (fun p => s.srcHeld p && !o.srcHeld p && !(decide (p < 1024) && p / 64 == n))).foldl
    (fun t p => t.pnFault p 7) s

/-! ### Signal sets (R268, R269) -/

/-- Does the mask of set `k` name a pennant of another domain (R268)? -/
def State.setForeign (s : State) (k : Nat) : Bool :=
  let scope := s.rf (R.FB_SSs_CFG k) 28 24
  (List.range 64).any (fun i =>
    let p := if scope < 16 then 64 * scope + i else 1024 + 64 * (scope - 16) + i
    (if i < 32 then s.rb (R.FB_SSs_MASK_LO k) i else s.rb (R.FB_SSs_MASK_HI k) (i - 32))
      && s.ownerDom (R.FB_SSs_OWNER k) != s.ownerDom (pnOwner p))

/-- Report foreign members of a set. -/
def State.setCheck (s : State) (k : Nat) : State := if s.setForeign k then s.fabFault 16 3 2 true 0 k else s

/-- Ticks of the device's timeline. -/
def State.absTick (s : State) : Nat := s.clk.beat.toNat * 5 + s.clk.tick.val

/-- Turn a set OFF: members that were not gated are gated from now on. -/
def State.setOff (s : State) (k : Nat) : State :=
  let t := (s.setRb (R.FB_SSs_CTRL k) 0 false).setCheck k
  let t := { t with fab := { t.fab with lastOff := t.fab.lastOff.set (fun _ => 0) k (s.absTick + 1) } }
  (t.pennantsOn.filter (fun p => t.setHas k p)).foldl (fun u p => u.offLow p) t

/-- Turn a set ON, unless an OFF reached it in the same tick: members present their present levels. -/
def State.setOn (s : State) (k : Nat) : State :=
  if s.fab.lastOff.get (fun _ => 0) k = s.absTick + 1 then s.setCheck k
  else ((s.setRb (R.FB_SSs_CTRL k) 0 true).setCheck k).refreshPennants

/-- A write to a set's control register: OFF wins over ON. -/
def State.setCtrlWrite (s : State) (k : Nat) (v : Word) : State :=
  if bit v 30 then s.setOff k else if bit v 31 then s.setOn k else s

/-- SIGNAL_SET_ON (R269): the rise of ON_PN. -/
def execSignalSetOn (k : Fin 128) (s : State) : Host.Outcome State Fault Refusal :=
  .next (if s.rb (R.FB_SSs_CFG k.val) 31 then s.setOn k.val else s)

/-- SIGNAL_SET_OFF (R269): the rise of OFF_PN. -/
def execSignalSetOff (k : Fin 128) (s : State) : Host.Outcome State Fault Refusal :=
  .next (if s.rb (R.FB_SSs_CFG k.val) 30 then s.setOff k.val else s)

/-! ### Firing from software (R262) -/

/-- The pennant that a value of FB_FIRE names. -/
def firedPennant (v : Word) : Option Nat :=
  if bit v 31 then some (1024 + fld v 9 0)
  else if fld v 9 0 < 64 then some (64 * fld v 19 16 + fld v 9 0) else none

/-- Level of a pennant: what it holds of an unreachable line, else its line, ORed with a firing. -/
def State.standsHigh (s : State) (p : Nat) : Bool :=
  if s.srcHeld p then s.presented p || s.firing p else s.pnLevel p

/-- A pulse of 1.6 ns is ORed into pennant `p`; one that overlaps another lengthens it. -/
def State.firePulse (s : State) (p : Nat) : State := { s with pulses := s.pulses.set (fun _ => 0) (8192 + p) 2 }

/-- A write to FB_FIRE by domain `d`. -/
def State.fbFire (s : State) (d : Nat) (v : Word) : BusResult × State :=
  match firedPennant v with
  | none => (.done, s)
  | some p =>
    if !s.owns d (pnOwner p) || (s.ownerSec (pnOwner p) && !s.domSecure d) then (.error .ownership, s.fbPnFault p 1)
    else if !s.rb (pnCtrl p) 31 || s.gated p || (p < 1024 && !s.islandReachable (p / 64)) then (.done, s.fbPnFault p 9)
    else if s.standsHigh p then (.done, (s.firePulse p).fbPnFault p 9)
    else (.done, (s.firePulse p).enqueue [transition p true true])

end Sys2Proof.Machine
end

