-- ==== Sys2Proof/Machine/EpochOps.lean ====
section
/-!
DEFINITION. Epoch entries (R57 to R66): the shadow of a register or memory word, the swap of due entries into the active
copies, and the end of an epoch.
-/
namespace Sys2Proof.Machine
open Sys2Proof

/-- State of a slot: 0 FREE, 1 OPEN, 2 STAGED, 3 ARMED, 4 APPLYING, 5 ABANDONING (R60). -/
def State.slotState (s : State) (i : Nat) : Nat := s.rf (R.EP_SLOTs_STATE i) 18 16

/-- Opener of a slot. -/
def State.slotOpener (s : State) (i : Nat) : Nat := s.rf (R.EP_SLOTs_STATE i) 23 20

/-- Epoch ID in a slot, 0 when FREE. -/
def State.slotId (s : State) (i : Nat) : Nat := s.rf (R.EP_SLOTs_STATE i) 15 0

/-- The slot of the domain's OPEN epoch (R61). -/
def State.openSlot (s : State) (d : Nat) : Option Nat :=
  (List.range 4).find? (fun i => s.slotState i == 1 && s.slotOpener i == d)

/-- The slot that holds an ID; 0 is held by none (R60). -/
def State.slotOfId (s : State) (id : Nat) : Option Nat :=
  (List.range 4).find? (fun i => s.slotState i != 0 && s.slotId i == id && id != 0)

/-- The entry that holds the shadow of an address. -/
def State.entryAt (s : State) (a : Nat) : Option Entry := s.ep.entries.find? (fun e => e.addr == a)

/-- Active copy of an epoch-bound register or memory word. -/
def State.active (s : State) (a : Nat) : Word := if (descWord a).isSome then s.mword a else s.reg a

/-- Write an active copy. -/
def State.setActive (s : State) (a : Nat) (v : Word) : State :=
  if (descWord a).isSome then s.setMword a v else s.setReg a v

/-- Shadow copy: the entry's value, or the active copy when nothing is staged (R56). -/
def State.shadow (s : State) (a : Nat) : Word :=
  match s.entryAt a with
  | some e => e.value
  | none => s.active a

/-- A value as an epoch-bound target takes it: only writable bits change. -/
def State.merge (s : State) (a : Nat) (v : Word) : Word :=
  match rowAt a with
  | some r => (s.active a &&& ~~~ r.wmask) ||| (v &&& r.wmask)
  | none => v

def State.setEntries (s : State) (l : List Entry) : State := { s with ep := { s.ep with entries := l } }

/-- Keep a count field at 0xFFFF (R81). -/
def State.addEntries (s : State) (i : Nat) : State :=
  s.setReg (R.EP_SLOTs_ENTRIES i) (w32 (satTo 0xFFFF (s.rf (R.EP_SLOTs_ENTRIES i) 15 0 + 1)))

/-- Stage a value for a slot (R57): a later write by the same epoch replaces it. -/
def State.stage (s : State) (i a : Nat) (v : Word) : State :=
  let v := s.merge a v
  match s.entryAt a with
  | some _ => s.setEntries (s.ep.entries.map (fun e => if e.addr == a then { e with value := v } else e))
  | none => (s.setEntries (s.ep.entries ++ [⟨i, a, v, false⟩])).addEntries i

/-- Set flags of a slot's result. -/
def State.resultFlag (s : State) (i b : Nat) : State := s.setRb (R.EP_SLOTs_RESULT i) b true

/-- An APPLYING epoch whose last entry has swapped: the slot becomes FREE, DONE sets, "epoch done" fires (R66). Ottar
applies the DIRECT entries of an epoch that it has loaded (R401). -/
def State.finishEpochs (s : State) : State :=
  (List.range 4).foldl (fun t i =>
    if t.slotState i == 4 && !t.ep.entries.any (fun e => e.slot == i) then
      let t := ((t.setReg (R.EP_SLOTs_STATE i) 0#32).resultFlag i 0).fireCentral 321
      if t.mp.loads.any (fun l => l.slot == i && !l.done) then
        let l := t.mp.loads.map (fun l => if l.slot == i && !l.done then { l with done := true } else l)
        { t with mp := { t.mp with loads := l } }.enqueue [.recipeDirectApply]
      else t
    else t) s

/-- Swap the due entries that satisfy `p` into their active copies, together (R64). -/
def State.swap (s : State) (p : Entry → Bool) : State :=
  let sel := fun e : Entry => e.due && p e
  let t := (s.ep.entries.filter sel).foldl (fun t e => t.setActive e.addr e.value) s
  (t.setEntries (s.ep.entries.filter (fun e => !sel e))).finishEpochs

/-- The block whose apply point an entry follows. -/
def entryBlk (a : Nat) : Option Blk :=
  match descWord a with
  | some (n, m, _) => some (.le n m)
  | none => (locate a).map (fun x => x.1)

/-- Does a block hold due entries? -/
def State.dueIn (s : State) (b : Blk) : Bool := s.ep.entries.any (fun e => e.due && entryBlk e.addr == some b)

/-- Swap a block's due entries. -/
def State.swapBlk (s : State) (b : Blk) : State := s.swap (fun e => entryBlk e.addr == some b)

end Sys2Proof.Machine
end

