-- ==== Sys2Proof/Machine/Timers.lean ====
section
/-!
DEFINITION. Timer units (R160 to R189): position and period, references and outputs, duty loads, starts and stops,
couplings, trips, system holds, read-back and captures. Instants are counted in fine steps of the device's timeline:
320 to a beat.
-/
namespace Sys2Proof.Machine
open Sys2Proof

/-! ### Records -/

def State.tu (s : State) (n k : Nat) : TuRec := s.tus.get (fun _ => .reset) (4 * n + k)

def State.setTu (s : State) (n k : Nat) (r : TuRec) : State :=
  { s with tus := s.tus.set (fun _ => .reset) (4 * n + k) r }

def State.chan (s : State) (n k j : Nat) : ChanRec := (s.tu n k).chans.getD j .reset

def State.setChan (s : State) (n k j : Nat) (c : ChanRec) : State :=
  let r := s.tu n k
  s.setTu n k { r with chans := r.chans.set j c }

/-- The present instant in fine steps. -/
def State.nowFine (s : State) : Nat := s.absTick * 64

/-- Device time, TICK and FINE of an instant in an island (R34). -/
def State.stampT (s : State) (n f : Nat) : BitVec 64 := 4#64 * BitVec.ofNat 64 (f / 320) + s.dAt n (f / 320)

def stampTickFine (f : Nat) : Nat := f % 320 / 64 * 64 + f % 64

def State.tuRunning (s : State) (n k : Nat) : Bool := s.rb (R.TU_STATE n k) 31

def State.tuFrozen (s : State) (n k : Nat) : Bool := s.rb (R.TU_STATE n k) 30

def State.tuMode (s : State) (n k : Nat) : Nat := s.rf (R.TU_CFG n k) 1 0

/-- P in force (R161). -/
def State.tuP (s : State) (n k : Nat) : Nat := (s.reg (R.TU_PERIOD_ACT n k)).toNat

def State.tuPos (s : State) (n k : Nat) : Nat := (s.reg (R.TU_CNT n k)).toNat

/-! ### Coupling and events (R162, R173) -/

/-- Number of a unit's event in a coupling's EVT field. -/
def evtOfEvent (e : Nat) : Option Nat := if e = 0 then some 0 else if e = 1 then some 1 else if e = 3 then some 2 else none

/-- Units with an active coupling to unit `u` for EVT `x`. -/
def State.slavesOf (s : State) (u x : Nat) : List Nat :=
  s.regs.filterMap (fun e => match locate e.1 with
    | some (.tu n k, 0x20) =>
      if bit e.2 31 && fld e.2 5 0 == u && fld e.2 27 24 == x && 4 * n + k != u then some (4 * n + k) else none
    | _ => none)

/-- Send a master's event to a slave: at the next tick for DIRECT in the same island, else beat-aligned (R44): at most
one event per beat, a second one sets OVERRUN. -/
def State.couple (s : State) (u : Nat) (fall : Bool) (v : Nat) : State :=
  let n := v / 4
  let k := v % 4
  let direct := s.rb (R.TU_SLAVE n k) 30 && n == u / 4
  let add := fun (t : State) (at_ : Nat) =>
    { t with clk := { t.clk with couplings := t.clk.couplings ++ [⟨v, at_, fall, direct⟩] } }
  if direct then add s (s.absTick + 1)
  else
    let r := s.tu n k
    if r.lastCouple = some s.clk.beat then s.flag (R.TU_STATUS n k) 8
    else add (s.setTu n k { r with lastCouple := some s.clk.beat }) (s.absTick + 10)

/-- Triggers of the island that take a unit's event directly, KIND 2 (R195). -/
def State.directTriggers (s : State) (n k e : Nat) : List Instr :=
  s.regs.flatMap (fun x => match locate x.1 with
    | some (.ac n' c, 0x10) =>
      if n' = n ∧ bit x.2 31 then
        (if trigTu (s.reg (R.AC_TRIG n c)) == some (k, e) then [.adcTrigger (Fin.ofNat 16 n) (Fin.ofNat 2 c) false] else [])
        ++ (if trigTu (s.reg (R.AC_TRIG_INJ n c)) == some (k, e) then
              [.adcTrigger (Fin.ofNat 16 n) (Fin.ofNat 2 c) true] else [])
      else []
    | some (.sd n' d, 0x14) =>
      if n' = n ∧ trigTu x.2 = some (k, e) then [.sdSync (Fin.ofNat 16 n) (Fin.ofNat 4 d)] else []
    | _ => [])

/-- An event of a timer unit (R162): its source fires, direct triggers act, couplings start. -/
def State.fireTu (s : State) (n k e : Nat) : State :=
  let s := (s.fireIsland n (0x60 + 16 * k + e)).enqueue (s.directTriggers n k e)
  let s := s.ssiArrivals 2 (fun n' _ v => n' == n && trigTu v == some (k, e))
  match evtOfEvent e with
  | some x => (s.slavesOf (4 * n + k) x).foldl (fun t v => t.couple (4 * n + k) false v) s
  | none => s

/-! ### References and outputs (R163 to R167) -/

/-- Level of the reference at fine position `x` (R163). `w` is the width in force, `wOn` the one that placed r_on. -/
def refHigh (align p64 w wOn o x : Nat) : Bool :=
  let w := min w p64
  let wOn := min wOn p64
  match align with
  | 0 => decide (x < w)
  | 1 => decide (p64 - w ≤ x)
  | 2 => decide (p64 / 2 - wOn / 2 ≤ x) && decide (x < p64 / 2 + (w + 1) / 2)
  | _ => if w = p64 then true else decide ((x + p64 - o % p64) % p64 < w)

/-- Trip inputs that hold channel `j` with an ACTION. -/
def State.tripHolds (s : State) (n k j action : Nat) : Bool :=
  (List.range 8).any (fun i => s.rb (R.TU_STATE n k) (8 + i) && s.rb (R.TU_TRIPi_CFG n k i) (22 + j)
    && s.rf (R.TU_TRIPi_CFG n k i) 28 28 == action)

/-- Is a system hold, or the rest of one until the boundary, in force (R179)? -/
def State.sysHeld (s : State) (n k : Nat) : Bool := s.rb (R.TU_TRIP_STATE n k) 16 || (s.tu n k).sysTail

/-- TU_CHj_CFG of channel `j`, or, with `j` 6, TU_CFG, as the outputs use it: in the tick of an AT_BEAT swap as it was
before (R175). -/
def State.outCfg (s : State) (n k j : Nat) : Word :=
  let now := if j < 6 then s.reg (R.TU_CHj_CFG n k j) else s.reg (R.TU_CFG n k)
  match (s.tu n k).cfgWas with
  | some (t, l) => if t = s.absTick then l.getD j now else now
  | none => now

/-- Outputs of channel `j` stand at their safe levels (R167, R176, R177, R179, R186, R188). -/
def State.safeHeld (s : State) (n k j : Nat) : Bool :=
  !bit (s.outCfg n k j) 7 || !s.tuRunning n k || fld (s.outCfg n k 6) 1 0 == 3 || s.rb (R.TU_STATE n k) 28
    || s.tripHolds n k j 0 || s.sysHeld n k || (s.tu n k).wakeHold || !s.beatRuns
    || (s.tuFrozen n k && decide (2 ≤ s.rf (R.TU_CFG n k) 7 6))

/-- Add a transition to an output (R165, R166): a turn-on that dead time delays beyond the next turn-off is not
produced; a pulse or gap shorter than 2 ticks is not produced, and the second component says so. -/
def OutRec.push (r : OutRec) (level : Bool) (t : Nat) : OutRec × Bool :=
  match r.edge with
  | none => if r.level = level then (r, false) else (⟨r.level, some t⟩, false)
  | some e =>
    if (!r.level) = level then (r, false)
    else if t ≤ e then (⟨r.level, none⟩, false)
    else if t - e < 128 then (⟨r.level, none⟩, true)
    else (⟨!r.level, some t⟩, false)

/-- Activity of an output at an instant: a transition reaches the ball when the window of 2 ticks has passed (R166). -/
def OutRec.at (r : OutRec) (t : Nat) : Bool :=
  match r.edge with
  | some e => if e + 128 ≤ t then !r.level else r.level
  | none => r.level

/-- A transition that acts on the ball at instant `t`, past the window of R166 (R176); `now` is the present. -/
def OutRec.force (r : OutRec) (level : Bool) (t now : Nat) : OutRec :=
  if t ≤ now || r.at now == level then ⟨level, none⟩ else ⟨r.at now, some (t - 128)⟩

/-- Outputs of a channel whose reference is low: B follows the inverted reference under COMPLEMENT (R165). -/
def ChanRec.low (c : ChanRec) (cfg : Word) : ChanRec :=
  { c with ref := false, outA := .reset, outB := ⟨fld cfg 3 2 == 0, none⟩ }

/-- A change of a channel's reference at instant `t`: outputs A and B follow under OUTB (R165), NARROW reports a
suppressed pulse or gap (R166). -/
def State.refEdge (s : State) (n k j : Nat) (rise : Bool) (t : Nat) : State :=
  let c := s.chan n k j
  if c.ref = rise then s
  else
    let cfg := s.reg (R.TU_CHj_CFG n k j)
    let (a, na, b, nb) := match fld cfg 3 2 with
      | 0 =>
        let (a, na) := c.outA.push rise (if rise then t + s.rf (R.TU_CHj_DTA n k j) 17 0 else t)
        let (b, nb) := c.outB.push (!rise) (if rise then t else t + s.rf (R.TU_CHj_DTB n k j) 17 0)
        (a, na, b, nb)
      | 1 =>
        let (a, na) := c.outA.push rise t
        let (b, nb) := c.outB.push rise t
        (a, na, b, nb)
      | _ =>
        let (a, na) := c.outA.push rise t
        (a, na, OutRec.reset, false)
    let s := s.setChan n k j { c with ref := rise, outA := a, outB := b }
    if na || nb then s.flag (R.TU_STATUS n k) 11 else s

/-- Level of an output at its ball. -/
inductive Pin where
  | low | high | hiz
deriving DecidableEq, Repr

/-- Safe level of a field SAFE_A or SAFE_B (R167). -/
def safePin (v : Nat) : Pin := match v with
  | 0 => .low
  | 1 => .high
  | _ => .hiz

/-- Instant whose pattern the outputs show: the present, or that of a closed gate or a freeze (R173, R188). -/
def State.outFine (s : State) (n k : Nat) : Nat := (s.tu n k).heldAt.getD s.nowFine

/-- Level to which output `o` is driven (R165, R167). -/
def State.tuOut (s : State) (n k o : Nat) : Pin :=
  let j := o / 2
  let cfg := s.outCfg n k j
  if s.safeHeld n k j then safePin (if o % 2 = 0 then fld cfg 9 8 else fld cfg 11 10)
  else
    let c := s.chan n k j
    let act := if o % 2 = 0 then c.outA.at (s.outFine n k) else c.outB.at (s.outFine n k)
    if act != bit cfg (4 + o % 2) then .high else .low

/-- TU_STATE as it reads: UP follows the position (R160) and SAFE_OUT the outputs (R167). -/
def State.tuStateView (s : State) (n k : Nat) : Word :=
  let up := s.tuMode n k == 1 && decide (s.tuPos n k < s.tuP n k / 2)
  let safe := (List.range 12).foldl (fun a o => a + b2n (s.safeHeld n k (o / 2)) * 2 ^ o) 0
  setFld (setBit (s.reg (R.TU_STATE n k)) 29 up) 27 16 safe

/-- A transition that is still to come moves by `d` fine steps with a pattern that was held since `h`. -/
def OutRec.shift (r : OutRec) (h d : Nat) : OutRec :=
  match r.edge with
  | some e => if h < e + 128 then { r with edge := some (e + d) } else r
  | none => r

/-- Outputs hold their levels from the closing of the gate or the freeze, and go on after both (R173, R188). -/
def State.holdOutputs (s : State) (n k : Nat) : State :=
  let r := s.tu n k
  let held := s.tuRunning n k && (!r.gateOpen || s.tuFrozen n k)
  match r.heldAt with
  | none => if held then s.setTu n k { r with heldAt := some s.nowFine } else s
  | some h =>
    if held then s
    else
      let d := s.nowFine - h
      s.setTu n k { r with
        heldAt := none
        chans := r.chans.map (fun c => { c with outA := c.outA.shift h d, outB := c.outB.shift h d }) }

/-- The coupling of a unit is active (R173): enabled, to another unit, with an EVT that names an event. -/
def State.coupled (s : State) (n k : Nat) : Bool :=
  let v := s.reg (R.TU_SLAVE n k)
  let e := fld v 27 24
  bit v 31 && fld v 5 0 != 4 * n + k && e != 3 && decide (e < 10)

/-- The slave advances one count for each release (R173). -/
def State.tuClocked (s : State) (n k : Nat) : Bool := s.coupled n k && s.rf (R.TU_SLAVE n k) 29 28 == 3

/-- Reference edges of channel `j` in tick position `p`, with their fine indexes; those of a CLOCK slave fall in the
release tick, without their fine positions (R173). -/
def State.edgesIn (s : State) (n k j p : Nat) : List Instr :=
  let c := s.chan n k j
  let p64 := 64 * s.tuP n k
  let off := s.tripHolds n k j 1
  let align := s.rf (R.TU_CHj_CFG n k j) 1 0
  let lvl := fun x => !off && refHigh align p64 c.width c.wOn c.ofs x
  let clocked := s.tuClocked n k
  (((if clocked then [0] else List.range 64)).foldl (fun (acc : Bool × List Instr) f =>
    let l := lvl (64 * p + if clocked then 63 else f)
    if l = acc.1 then acc
    else (l, acc.2 ++ [.referenceEdge (Fin.ofNat 16 n) (Fin.ofNat 4 k) (Fin.ofNat 6 j) l (Fin.ofNat 64 f)])) (c.ref, [])).2

/-- Reference edges of every enabled channel in tick position `p`; a unit in CAPTURE mode has none. -/
def State.edgesAt (s : State) (n k p : Nat) : List Instr :=
  if s.tuMode n k = 3 then []
  else ((List.range 6).filter (fun j => s.rb (R.TU_CHj_CFG n k j) 7)).flatMap (fun j => s.edgesIn n k j p)

/-- What falls due in tick position `p` of a running unit: mid-period, channel event points, reference edges; those of the
mid-period tick follow its loads (R169). -/
def State.enterTick (s : State) (n k p : Nat) : State :=
  let fn := Fin.ofNat 16 n
  let fk := Fin.ofNat 4 k
  let isMid := s.tuMode n k = 1 ∧ p = s.tuP n k / 2
  let mid := if isMid then [Instr.midPeriod fn fk] else []
  let evts := if s.tuMode n k = 3 then []
    else ((List.range 6).filter (fun j => (s.reg (R.TU_CHj_EVT n k j)).toNat == p)).map
      (fun j => Instr.channelEventPoint fn fk (Fin.ofNat 6 j))
  s.enqueue (mid ++ evts ++ (if isMid then [] else s.edgesAt n k p))

/-! ### Duty loads (R168 to R170) -/

/-- Fine steps of a width or offset word (R168). -/
def State.dlrFine (s : State) (n k w : Nat) : Nat :=
  let v := (s.reg (R.TU_DLRw n k w)).toNat
  if s.rb (R.TU_CFG n k) 2 then v * 64 else v

/-- Ticks of the period word (R168). -/
def State.dlrTicks (s : State) (n k : Nat) : Nat :=
  let v := (s.reg (R.TU_DLRw n k 12)).toNat
  if s.rb (R.TU_CFG n k) 2 then v else v / 64

/-- The clamp of R161. -/
def clampP (p : Nat) : Nat := if p < 125 then 125 else if 4250000000 < p then 4250000000 else p

/-- Take a period into force; a value out of range is clamped and reported. -/
def State.takeP (s : State) (n k p : Nat) : State :=
  let s := (s.setTu n k { s.tu n k with rawP := some p }).setReg (R.TU_PERIOD_ACT n k) (w32 (clampP p))
  if clampP p = p then s else s.flag (R.TU_STATUS n k) 2

/-- Load one word into the active set. -/
def State.loadWord (s : State) (n k : Nat) (mid : Bool) (w : Nat) : State :=
  if w < 6 then
    let v := s.dlrFine n k w
    let c := s.chan n k w
    (s.setChan n k w { c with width := v, wOn := if mid then c.wOn else v }).setReg (R.TU_CHj_WIDTH_ACT n k w) (w32 v)
  else if w < 12 then
    let v := s.dlrFine n k w
    let c := s.chan n k (w - 6)
    (s.setChan n k (w - 6) { c with ofs := v }).setReg (R.TU_CHj_OFS_ACT n k (w - 6)) (w32 v)
  else
    let p := s.dlrTicks n k
    let s := s.setTu n k { s.tu n k with loaded12 := some p }
    if !s.rb (R.TU_CFG n k) 3 then s
    else if mid then s.setTu n k { s.tu n k with nextPeriod := some p }
    else s.takeP n k p

/-- Load pending words at a load point (R169). -/
def State.loadDuties (s : State) (n k : Nat) (mid : Bool) : State :=
  let pend := s.rf (R.TU_DLR_PEND n k) 12 0
  let group := s.rf (R.TU_LOAD n k) 12 0
  let inGroup := pend &&& group
  let load := (List.range 13).filter (fun w => pend.testBit w && (!group.testBit w || inGroup == group))
  let s := load.foldl (fun t w => (t.loadWord n k mid w).setRb (R.TU_DLR_PEND n k) w false) s
  let s := if inGroup ≠ 0 ∧ inGroup ≠ group then (s.flag (R.TU_STATUS n k) 1).fireTu n k 14 else s
  if load = [] then s else s.fireTu n k 2

/-- A write to a duty load word by domain `d` and writer `by_` (0 software, m + 1 engine m): pending until a load
point; from a domain that does not own the unit it is dropped (R170). Of the writes of several engines in one tick that
of the highest engine stays (R91). -/
def State.dlrWrite (s : State) (d by_ n k w : Nat) (v : Word) : State :=
  if !s.owns d (R.TU_OWNER n k) || (s.ownerSec (R.TU_OWNER n k) && !s.domSecure d) then
    s.flag (R.TU_STATUS n k) 12
  else
    let r := s.tu n k
    if by_ ≠ 0 ∧ by_ < r.pendBy.getD w 0 ∧ r.pendAt.getD w 0 = s.absTick then s
    else
      let s := s.setTu n k { r with pendBy := r.pendBy.set w by_, pendAt := r.pendAt.set w s.absTick }
      (s.setReg (R.TU_DLRw n k w) v).setRb (R.TU_DLR_PEND n k) w true

/-! ### Trips and system holds (R176 to R179) -/

/-- Release at a boundary what may release (R178): inputs that are inactive and not latched, SAFE_N once the ball is
high, the rest of a released system hold, the hold after a wake. -/
def State.releaseAtBoundary (s : State) (n k : Nat) : State :=
  let st := s.reg (R.TU_TRIP_STATE n k)
  let before := s.rf (R.TU_STATE n k) 15 8
  let after := (List.range 8).foldl (fun a i =>
    let keep := before.testBit i && (bit st (8 + i) || (s.rb (R.TU_TRIPi_CFG n k i) 29 && bit st i))
    a + b2n keep * 2 ^ i) 0
  let r := s.tu n k
  let s := (s.setRf (R.TU_STATE n k) 15 8 after).setRb (R.TU_STATE n k) 28 s.safeN
  let s := s.setTu n k { r with sysTail := false, wakeHold := false }
  if before ≠ 0 ∧ after = 0 ∧ bit st 16 = false then s.fireTu n k 5 else s

/-- Begin or extend a system hold for a cause, by its SYS_CAUSE bit (R179). -/
def State.sysHold (s : State) (n k cause : Nat) : State :=
  let held := s.rb (R.TU_TRIP_STATE n k) 16
  let s := if held then s else ((s.flag (R.TU_STATUS n k) 3).fireTu n k 4).setRb (R.TU_TRIP_STATE n k) 16 true
  s.setRb (R.TU_TRIP_STATE n k) cause true

/-- Is a cause in force (R179)? -/
def State.causeInForce (s : State) (n k cause : Nat) : Bool :=
  match cause with
  | 17 => (s.tu n k).causes.any (fun c => decide (c < 16))
  | 18 => s.rf (R.TU_RB_STATE n k) 11 0 != 0
  | 19 => (s.tu n k).causes.any (fun c => decide (16 ≤ c) && decide (c < 32))
  | 21 => !s.synced n || s.clk.clockFault
  | 22 => s.faults.rails != []
  | 23 => ((s.tu n k).causes.contains 32 && s.rb (R.TH_Ss_STATE n) 2)
    || ((s.tu n k).causes.contains 33 && s.rb (R.TH_Ss_STATE 16) 2)
  | _ => false

/-- A release of the system hold by the unit's owner. -/
def State.sysRelease (s : State) (n k : Nat) : State :=
  let st := s.reg (R.TU_TRIP_STATE n k)
  if !bit st 16 then s
  else if (List.range 7).any (fun i => bit st (17 + i) && s.causeInForce n k (17 + i)) then s.flag (R.TU_STATUS n k) 13
  else
    let s := s.setReg (R.TU_TRIP_STATE n k) (setFld st 23 16 0)
    let s := s.setTu n k { s.tu n k with
      sysTail := true, causes := (s.tu n k).causes.filter (fun c => decide (c < 32) || decide (34 ≤ c)) }
    if s.rf (R.TU_STATE n k) 15 8 = 0 then s.fireTu n k 5 else s

/-- A write to TU_TRIP_CLR: latches of inactive inputs clear (R178), SYS releases the system hold. -/
def State.tripClr (s : State) (n k : Nat) (v : Word) : State :=
  let st := s.reg (R.TU_TRIP_STATE n k)
  let lat := (List.range 8).foldl (fun a i => a + b2n (bit st i && !(bit v i && !bit st (8 + i))) * 2 ^ i) 0
  let s := s.setRf (R.TU_TRIP_STATE n k) 7 0 lat
  if bit v 8 then s.sysRelease n k else s

/-- A reference is held low (R176): A becomes inactive at once, and B under COMPLEMENT active after its dead time; the
window of R166 neither delays nor suppresses either. -/
def State.pullChan (s : State) (n k j : Nat) : State :=
  let c := s.chan n k j
  let t := s.nowFine
  let b := match s.rf (R.TU_CHj_CFG n k j) 3 2 with
    | 0 => c.outB.force true (if c.ref then t + s.rf (R.TU_CHj_DTB n k j) 17 0 else t) t
    | 1 => c.outB.force false t t
    | _ => .reset
  s.setChan n k j { c with ref := false, outA := c.outA.force false t t, outB := if c.ref then b else c.outB }

/-- A trip with ACTION OFF pulls references low at once (R176). -/
def State.pullLow (s : State) (n k : Nat) : State :=
  ((List.range 6).filter (fun j => s.tripHolds n k j 1)).foldl (fun t j => t.pullChan n k j) s

/-- Level of a trip source (R176), `none` where SRC names none. -/
def State.tripSource (s : State) (n k src : Nat) : Option Bool :=
  if src < 8 then some (s.rb (R.CP_STATE n src) 31)
  else if 0x10 ≤ src ∧ src < 0x20 then some (s.sourceLevel (256 * n + 0xF0 + (src - 0x10)))
  else if 0x40 ≤ src ∧ src < 0x80 then
    let p := 64 * n + (src - 0x40)
    some (s.presented p && s.sees (R.TU_OWNER n k) p)
  else none

/-- Trip input `i` becomes active (R176, R178); an input whose SRC names none is disabled. -/
def State.tripOn (s : State) (n k i : Nat) : State :=
  let cfg := s.reg (R.TU_TRIPi_CFG n k i)
  if !bit cfg 31 || (s.tripSource n k (fld cfg 7 0)).isNone then s
  else
    let s := s.setRb (R.TU_TRIP_STATE n k) (8 + i) true
    let s := if bit cfg 29 then s.setRb (R.TU_TRIP_STATE n k) i true else s
    if s.rb (R.TU_STATE n k) (8 + i) then s
    else (((s.setRb (R.TU_STATE n k) (8 + i) true).flag (R.TU_STATUS n k) 3).fireTu n k 4).pullLow n k

/-- TRIP_ACTIVE (R176). -/
def execTripActive (n : Fin 16) (k : Fin 4) (i : Fin 8) (s : State) : Host.Outcome State Fault Refusal :=
  .next (s.tripOn n.val k.val i.val)

/-- TRIP_INPUT_INACTIVE (R176): the input shows inactive; what it holds waits for a boundary. -/
def execTripInputInactive (n : Fin 16) (k : Fin 4) (i : Fin 8) (s : State) : Host.Outcome State Fault Refusal :=
  .next (s.setRb (R.TU_TRIP_STATE n.val k.val) (8 + i.val) false)

/-! ### Boundaries, starts and stops (R169 to R174) -/

/-- The period that the source of R161 gives at a boundary: TU_PERIOD, or what word 12 last loaded. A P that stays in
force is not taken again. -/
def State.boundaryP (s : State) (n k : Nat) : State :=
  let r := s.tu n k
  let s := s.setTu n k { r with nextPeriod := none }
  let psrc := s.rb (R.TU_CFG n k) 3
  match if psrc then r.nextPeriod else none with
  | some p => s.takeP n k p
  | none => match if psrc then r.loaded12 else some (s.reg (R.TU_PERIOD n k)).toNat with
    | some p => if r.rawP = some p then s else s.takeP n k p
    | none => s

/-- r_on of every channel follows the width in force at a boundary (R163). -/
def State.freshPeriod (s : State) (n k : Nat) : State :=
  let r := s.tu n k
  s.setTu n k { r with chans := r.chans.map (fun c => { c with wOn := c.width }) }

/-- Enabling a capture channel resets its prescaler count and its capture count (R183, R191). -/
def State.capEnabled (s : State) (n k j : Nat) (was : Bool) : State :=
  if s.rb (R.TU_CHj_CAP_CFG n k j) 31 && !was then
    (s.setChan n k j { s.chan n k j with presc := 0, filt := none }).setRf (R.TU_CHj_CAP_SUB n k j) 31 16 0
  else s

/-- A changed trip configuration: the present level of its source acts from the change. -/
def State.tripChanged (s : State) (n k i : Nat) (old : Word) : State :=
  let cfg := s.reg (R.TU_TRIPi_CFG n k i)
  if cfg = old then s
  else match s.tripSource n k (fld cfg 7 0) with
    | some l =>
      if bit cfg 31 && l != bit cfg 30 then s.tripOn n k i else s.setRb (R.TU_TRIP_STATE n k) (8 + i) false
    | none => s.setRb (R.TU_TRIP_STATE n k) (8 + i) false

/-- What a change of a unit's epoch-bound registers does beside the new values; `o` is the state before. -/
def State.tuChanged (s : State) (n k : Nat) (o : State) : State :=
  let s := (List.range 6).foldl (fun t j => t.capEnabled n k j (o.rb (R.TU_CHj_CAP_CFG n k j) 31)) s
  (List.range 8).foldl (fun t i => t.tripChanged n k i (o.reg (R.TU_TRIPi_CFG n k i))) s

/-- A changed channel setting of a running unit (R175): a channel that becomes enabled takes up the reference from low, and
output B takes from instant `t` the level that a new OUTB gives, a turn-on after its dead time. -/
def State.chanChanged (s : State) (n k j t : Nat) (old : Word) : State :=
  let cfg := s.reg (R.TU_CHj_CFG n k j)
  let c := s.chan n k j
  if cfg = old then s
  else if !bit cfg 7 || !bit old 7 then s.setChan n k j (c.low cfg)
  else
    let want := match fld cfg 3 2 with
      | 0 => !c.ref
      | 1 => c.ref
      | _ => false
    let (b, nb) := c.outB.push want (if want && fld cfg 3 2 == 0 then t + s.rf (R.TU_CHj_DTB n k j) 17 0 else t)
    let s := s.setChan n k j { c with outB := b }
    if nb then s.flag (R.TU_STATUS n k) 11 else s

/-- The same over the six channels; `o` is the state before the swap. -/
def State.chansChanged (s : State) (n k t : Nat) (o : State) : State :=
  if s.tuRunning n k then
    (List.range 6).foldl (fun u j => u.chanChanged n k j t (o.reg (R.TU_CHj_CFG n k j))) s
  else s

/-- Swap a unit's due entries. -/
def State.tuSwap (s : State) (n k : Nat) : State :=
  if s.dueIn (.tu n k) then ((s.swapBlk (.tu n k)).tuChanged n k s).chansChanged n k s.nowFine s else s

/-- References of a unit that starts from rest are low until its first position (R163, R165). -/
def State.restChans (s : State) (n k : Nat) : State :=
  if s.tuRunning n k then s
  else (List.range 6).foldl (fun t j => t.setChan n k j ((t.chan n k j).low (t.reg (R.TU_CHj_CFG n k j)))) s

/-- Stop (R171): the position stays, outputs take their safe levels, due entries apply at once (R74). -/
def State.tuStop (s : State) (n k : Nat) (fires : Bool) : State :=
  let r := s.tu n k
  let s := (s.setRb (R.TU_STATE n k) 31 false).setRb (R.TU_CTRL n k) 31 false
  let s := s.setTu n k { r with
    stopAtBoundary := false, stopNow := false,
    chans := r.chans.map (fun c => { c with ref := false, outA := .reset, outB := .reset }) }
  let s := s.tuSwap n k
  if fires then s.fireTu n k 3 else s

/-- A start of a frozen unit (R172, R188): it takes the new position and stays frozen; it reaches no boundary, loads
nothing and applies no entries. -/
def State.tuStartFrozen (s : State) (n k : Nat) : State :=
  let pos := (s.reg (R.TU_PHASE n k)).toNat % s.tuP n k
  let s := (s.setReg (R.TU_CNT n k) (w32 pos)).setReg (R.TU_PCOUNT n k) 0#32
  let s := (s.setRb (R.TU_STATE n k) 31 true).setRb (R.TU_CTRL n k) 31 true
  s.setTu n k { s.tu n k with startIn := none, stopAtBoundary := false, stopNow := false }

/-- Start or restart (R172). -/
def State.tuStart (s : State) (n k : Nat) : State :=
  if s.tuFrozen n k then s.tuStartFrozen n k
  else
  let s := (s.tuSwap n k).restChans n k
  let s := s.setTu n k { s.tu n k with nextPeriod := none }
  let s := ((s.boundaryP n k).loadDuties n k false).freshPeriod n k
  let pos := (s.reg (R.TU_PHASE n k)).toNat % s.tuP n k
  let s := (s.setReg (R.TU_CNT n k) (w32 pos)).setReg (R.TU_PCOUNT n k) 0#32
  let s := (s.setRb (R.TU_STATE n k) 31 true).setRb (R.TU_CTRL n k) 31 true
  let s := s.setTu n k { s.tu n k with
    startIn := none, stopAtBoundary := false, stopNow := false, gateOpen := true }
  let s := ((s.holdOutputs n k).releaseAtBoundary n k).fireTu n k 0
  s.enterTick n k pos

/-- TU_START (R172): a start from RUN, a global start or a coupling release. -/
def execTuStart (n : Fin 16) (k : Fin 4) (s : State) : Host.Outcome State Fault Refusal :=
  .next (if s.islandRuns n.val then s.tuStart n.val k.val else s)

/-- A unit whose position can advance: running, gate open, not frozen, in an island that runs. -/
def State.tuCounts (s : State) (n k : Nat) : Bool :=
  s.tuRunning n k && !s.tuFrozen n k && (s.tu n k).gateOpen && s.islandRuns n && s.beatRuns

/-- The period boundary of a running unit (R160, R169, R174): a stop or the end of a ONE_SHOT period in its place. -/
def State.boundary (s : State) (n k : Nat) : State :=
  if (s.tu n k).stopAtBoundary || s.tuMode n k == 2 then (s.tuSwap n k).tuStop n k true
  else
    let s := s.tuSwap n k
    let s := ((s.boundaryP n k).loadDuties n k false).freshPeriod n k
    let s := (s.setReg (R.TU_CNT n k) 0#32).setReg (R.TU_PCOUNT n k) (s.reg (R.TU_PCOUNT n k) + 1#32)
    let s := (s.releaseAtBoundary n k).fireTu n k 0
    s.enterTick n k 0

/-- PERIOD_BOUNDARY (R169). -/
def execPeriodBoundary (n : Fin 16) (k : Fin 4) (s : State) : Host.Outcome State Fault Refusal :=
  .next (if s.tuCounts n.val k.val then s.boundary n.val k.val else s)

/-- The mid-period tick (R160, R169). -/
def State.midPeriod (s : State) (n k : Nat) : State :=
  let s := s.fireTu n k 1
  let s := if s.rb (R.TU_CFG n k) 4 then s.loadDuties n k true else s
  s.enqueue (s.edgesAt n k (s.tuPos n k))

/-- MID_PERIOD (R169). -/
def execMidPeriod (n : Fin 16) (k : Fin 4) (s : State) : Host.Outcome State Fault Refusal :=
  .next (if s.tuCounts n.val k.val && s.tuMode n.val k.val == 1 then s.midPeriod n.val k.val else s)

/-- CHANNEL_EVENT_POINT (R162): the position equals TU_CHj_EVT. -/
def execChannelEventPoint (n : Fin 16) (k : Fin 4) (j : Fin 6) (s : State) : Host.Outcome State Fault Refusal :=
  .next (if s.tuCounts n.val k.val && s.tuMode n.val k.val != 3 then s.fireTu n.val k.val (6 + j.val) else s)

/-- Comparators of the island whose blanking follows an edge of output A of a channel (R216). -/
def State.blankers (s : State) (n k j : Nat) (rise : Bool) : List Nat :=
  (List.range 8).filter (fun c =>
    let v := s.reg (R.CP_CFG n c)
    bit v 31 && fld v 13 8 == 6 * k + j && fld v 23 16 != 0 &&
      (match fld v 15 14 with
        | 0 => rise
        | 1 => !rise
        | _ => true))

/-- Open the blanking window of a comparator at an edge (R216), now or when an edge that dead time delays comes; another
edge restarts it. -/
def State.openBlank (s : State) (n c at_ : Nat) : State :=
  let i := 8 * n + c
  let r := s.cps.get (fun _ => CpRec.reset) i
  if s.absTick < at_ / 64 then { s with cps := s.cps.set (fun _ => .reset) i { r with blankFrom := some at_ } }
  else
    { s.setRb (R.CP_STATE n c) 30 true with
      cps := s.cps.set (fun _ => .reset) i
        { r with blankFrom := none, blankEnd := some (at_ + 64 * s.rf (R.CP_CFG n c) 23 16) } }

/-- An edge that was to open a window is not produced. -/
def State.dropBlank (s : State) (n c at_ : Nat) : State :=
  let i := 8 * n + c
  let r := s.cps.get (fun _ => CpRec.reset) i
  if r.blankFrom = some at_ then { s with cps := s.cps.set (fun _ => .reset) i { r with blankFrom := none } } else s

/-- Output A of a channel has gone from record `a` to the present one: its new transition blanks comparators (R216). -/
def State.blankEdge (s : State) (n k j : Nat) (a : OutRec) : State :=
  let b := (s.chan n k j).outA
  let s := match a.edge with
    | some e => if b.edge = none then (List.range 8).foldl (fun t c => t.dropBlank n c e) s else s
    | none => s
  match b.edge with
  | some e => if a = b then s else (s.blankers n k j (!b.level)).foldl (fun t c => t.openBlank n c e) s
  | none => s

/-- REFERENCE_EDGE (R163, R165, R166): outputs follow, couplings on the channel start, comparators blank. -/
def State.referenceEdge (s : State) (n k j : Nat) (rise : Bool) (fine : Nat) : State :=
  if (s.chan n k j).ref = rise then s
  else
    let a := (s.chan n k j).outA
    let s := (s.refEdge n k j rise (s.nowFine + fine)).blankEdge n k j a
    let u := 4 * n + k
    (s.slavesOf u (4 + j)).foldl (fun t v =>
      if rise || t.rf (R.TU_SLAVE (v / 4) (v % 4)) 29 28 == 2 then t.couple u (!rise) v else t) s

def execReferenceEdge (n : Fin 16) (k : Fin 4) (j : Fin 6) (rise : Bool) (fine : Fin 64) (s : State) :
    Host.Outcome State Fault Refusal :=
  .next (if s.tuCounts n.val k.val && s.rb (R.TU_CHj_CFG n.val k.val j.val) 7 && s.tuMode n.val k.val != 3 then
    s.referenceEdge n.val k.val j.val rise fine.val else s)

/-- A write to TU_CTRL (R171). -/
def State.tuCtrlWrite (s : State) (n k : Nat) (v : Word) : State :=
  let s := s.setRb (R.TU_CTRL n k) 0 (bit v 0)
  let r := s.tu n k
  let run := s.tuRunning n k
  if bit v 30 then s.setTu n k { r with startIn := none, stopNow := run }
  else if bit v 31 then
    if run then s.setTu n k { r with stopAtBoundary := false }
    else s.setTu n k { r with startIn := some (r.startIn.getD 3) }
  else s.setTu n k { r with startIn := none, stopAtBoundary := run }

/-- One count of a unit's position: a boundary at the end of the period, else what falls due in the new tick. -/
def State.tuAdvance (s : State) (n k : Nat) : State :=
  let p := s.tuPos n k + 1
  if s.tuP n k ≤ p then s.enqueue [.periodBoundary (Fin.ofNat 16 n) (Fin.ofNat 4 k)]
  else (s.setReg (R.TU_CNT n k) (w32 p)).enterTick n k p

/-- One tick of a unit: a waiting start, a stop in this tick, or one count. -/
def State.tuTick (s : State) (n k : Nat) : State :=
  let r := s.tu n k
  let s := match r.startIn with
    | some (w + 1) =>
      if w = 0 then (s.setTu n k { r with startIn := none }).enqueue [.tuStart (Fin.ofNat 16 n) (Fin.ofNat 4 k)]
      else s.setTu n k { r with startIn := some w }
    | _ => s
  if r.stopNow then s.tuStop n k true
  else if s.tuCounts n k && !s.tuClocked n k then s.tuAdvance n k else s

/-- A coupling event due for a unit. -/
def State.dueCoupling (s : State) (u : Nat) : Option Coupling :=
  s.clk.couplings.find? (fun c => c.unit == u && decide (c.atTick ≤ s.absTick))

/-- COUPLING_RELEASE (R44, R173): the release acts on the slave under ACTION. An island that is not synchronised does
not execute a beat-aligned release. -/
def State.couplingRelease (s : State) (n k : Nat) : State :=
  match s.dueCoupling (4 * n + k) with
  | none => s
  | some c =>
    let s := { s with clk := { s.clk with couplings := s.clk.couplings.erase c } }
    if !c.direct && !s.synced n then s
    else
      let r := s.tu n k
      match s.rf (R.TU_SLAVE n k) 29 28 with
      | 0 => s.tuStart n k
      | 1 => if s.tuRunning n k && !s.tuFrozen n k then s else s.tuStart n k
      | 2 =>
        if s.tuFrozen n k then s
        else
          let open_ := if 4 ≤ s.rf (R.TU_SLAVE n k) 27 24 then !c.fall else !r.gateOpen
          (s.setTu n k { r with gateOpen := open_ }).holdOutputs n k
      | _ => if s.tuCounts n k then s.tuAdvance n k else s

def execCouplingRelease (n : Fin 16) (k : Fin 4) (s : State) : Host.Outcome State Fault Refusal :=
  .next (s.couplingRelease n.val k.val)

/-- After a swap of a unit's registers at AT_BEAT (R175): a new P ends the period where it can, and every width governs
the whole period. A period word loaded at the mid-period tick still waits for the boundary (R169). -/
def State.tuSwapped (s : State) (n k : Nat) : State :=
  if s.tuRunning n k then
    (if s.rb (R.TU_CFG n k) 3 && (s.tu n k).nextPeriod.isSome then s else s.boundaryP n k).freshPeriod n k
  else s

/-- What the outputs use in the tick of an AT_BEAT swap (R175); `o` is the state before. -/
def State.tuCfgWas (s : State) (n k : Nat) (o : State) : State :=
  s.setTu n k { s.tu n k with
    cfgWas := some (s.absTick, (List.range 6).map (fun j => o.reg (R.TU_CHj_CFG n k j)) ++ [o.reg (R.TU_CFG n k)]) }

/-! ### SAFE_N (R177, R178, R458) -/

/-- Units of the device. -/
def allUnits : List (Nat × Nat) := (List.range 64).map (fun u => (u / 4, u % 4))

/-- SAFE_N_ASSERT: every output of every unit of a powered island takes its safe level. -/
def State.safeAssert (s : State) : State :=
  let s := ({ s with safeN := true }.flag R.FC_STATUS 2).setLine (4096 + 387) true
  (allUnits.filter (fun u => s.islandRuns u.1)).foldl
    (fun t u => (t.setRb (R.TU_STATE u.1 u.2) 28 true).flag (R.TU_STATUS u.1 u.2) 4) s

def execSafeNAssert (s : State) : Host.Outcome State Fault Refusal := .next s.safeAssert

/-- SAFE_N_DEASSERT: each running unit is released at its first boundary after this (R178). -/
def State.safeDeassert (s : State) : State := { s with safeN := false }.setLine (4096 + 387) false

def execSafeNDeassert (s : State) : Host.Outcome State Fault Refusal := .next s.safeDeassert

/-! ### Read-back (R181, R182) -/

/-- A ball is assigned to output `o` of a unit (R497). -/
def State.ballAssigned (s : State) (n k o : Nat) : Bool :=
  (List.range 16).any (fun b =>
    let v := s.reg (R.PM_DIn_BALLb n b)
    fld v 2 0 == 1 && fld v 9 8 == k && fld v 7 4 == o)

/-- Code of a level. -/
def Pin.code : Pin → Nat
  | .low => 0
  | .high => 1
  | .hiz => 2

/-- An output's level, with the tick of its last transition. -/
def State.noteOutput (s : State) (n k o : Nat) : State :=
  let r := s.tu n k
  let v := (s.tuOut n k o).code
  if r.rbOut.getD o 2 = v then s
  else s.setTu n k { r with rbOut := r.rbOut.set o v, rbEdge := r.rbEdge.set o (some s.absTick) }

def State.noteOutputs (s : State) (n k : Nat) : State := (List.range 12).foldl (fun t o => t.noteOutput n k o) s

/-- A check of output `o` falls due (R181): DELAY ticks after its last transition, and where 2,500 ticks have passed since
its last check; none within DELAY ticks after a transition. -/
def State.readbackDue (s : State) (n k o : Nat) : Bool :=
  let r := s.tu n k
  let last := r.rbLast.getD o 0
  let old := decide (last + 2500 ≤ s.absTick)
  match r.rbEdge.getD o none with
  | none => old
  | some e =>
    let at_ := e + s.rf (R.TU_RB_CFG n k) 15 0
    decide (at_ ≤ s.absTick) && (decide (last < at_) || old)

/-- A check of output `o` against the level read at its ball. -/
def State.readback (s : State) (n k o : Nat) (level : Bool) : State :=
  let drv := s.tuOut n k o
  if !s.rb (R.TU_RB_CFG n k) (16 + o) || drv == .hiz || !s.ballAssigned n k o || s.rb (R.TU_RB_STATE n k) o
      || !s.readbackDue n k o then s
  else
    let r : TuRec := { s.tu n k with rbLast := (s.tu n k).rbLast.set o s.absTick }
    if (drv == .high) = level then
      (s.setTu n k { r with rbFails := r.rbFails.set o 0 }).setRb (R.TU_RB_STATE n k) (16 + o) false
    else
      let c := r.rbFails.getD o 0 + 1
      let src := 0x60 + 4 * n + k
      let s := s.setTu n k { r with rbFails := r.rbFails.set o c }
      let s := ((s.setRb (R.TU_RB_STATE n k) (16 + o) true).flag (R.TU_STATUS n k) 5).fireTu n k 12
      let s := s.report src src 0x0A (bitW o)
      if c < 3 then s
      else
        let s := ((s.setRb (R.TU_RB_STATE n k) o true).flag (R.TU_STATUS n k) 6).report src src 0x0B (bitW o)
        if s.rb (R.TU_RB_CFG n k) 31 then s.sysHold n k 18 else s

def execReadbackCheck (n : Fin 16) (k : Fin 4) (o : Fin 12) (level : Bool) (s : State) :
    Host.Outcome State Fault Refusal :=
  .next (if s.islandRuns n.val then s.readback n.val k.val o.val level else s)

/-! ### Captures (R183 to R185) -/

/-- Does an EDGE field select an edge (R183)? -/
def edgeSelected (sel : Nat) (rise : Bool) : Bool := match sel with
  | 0 => rise
  | 1 => !rise
  | _ => true

/-- Instant of a captured edge: fine to one step for a ball, exact to the tick for the other sources (R184). -/
def captureInstant (now ago src : Nat) : Nat := if src < 0x10 then now - ago else (now - ago) / 64 * 64

/-- Tick in which a filter of `fn` + 1 samples, one every 2^`rate` ticks, accepts a level that came at fine instant `f`
(R183, R226). -/
def acceptTick (fn rate f : Nat) : Nat := (((f + 63) / 64 + 2 ^ rate - 1) / 2 ^ rate + fn) * 2 ^ rate

/-- The filter of channel `j`'s input accepts by now a level that came at instant `f`. -/
def State.capAccepts (s : State) (n k j f : Nat) : Bool :=
  let cfg := s.reg (R.TU_CHj_CAP_CFG n k j)
  decide (acceptTick (fld cfg 17 12) (fld cfg 21 18) f ≤ s.absTick)

/-- An accepted edge of channel `j`'s input, `ago` fine steps before the present. -/
def State.capture (s : State) (n k j : Nat) (rise : Bool) (ago : Nat) : State :=
  let cfg := s.reg (R.TU_CHj_CAP_CFG n k j)
  if !edgeSelected (fld cfg 11 10) rise then s
  else
    let c := s.chan n k j
    if c.presc < fld cfg 29 22 then s.setChan n k j { c with presc := c.presc + 1 }
    else
      let f := captureInstant s.nowFine ago (fld cfg 9 0)
      let near := match c.lastCap with
        | some l => decide (f < l + 4 * 64)
        | none => false
      if near then (s.setChan n k j { c with presc := 0 }).flag (R.TU_STATUS n k) 10
      else
        let s := if c.consumed then s else s.flag (R.TU_STATUS n k) 9
        let s := s.setChan n k j { c with presc := 0, lastCap := some f, consumed := false }
        let t := s.stampT n f
        let cnt := s.rf (R.TU_CHj_CAP_SUB n k j) 31 16 + 1
        let s := (s.setReg (R.TU_CHj_CAP_LO n k j) (lo64 t.toNat)).setReg (R.TU_CHj_CAP_HI n k j) (hi64 t.toNat)
        let s := s.setReg (R.TU_CHj_CAP_SUB n k j)
          (w32 (at_ (cnt % 65536) 16 + at_ (b2n rise) 9 + stampTickFine f))
        s.fireTu n k (6 + j)

/-- An edge of channel `j`'s input (R183): accepted if it has lasted as long as the filter asks, else it waits in the
filter; the opposite edge ends that wait, and the pulse is ignored. -/
def State.captureEdge (s : State) (n k j : Nat) (rise : Bool) (ago : Nat) : State :=
  let c := s.chan n k j
  let f := s.nowFine - ago
  if !s.rb (R.TU_CHj_CAP_CFG n k j) 31 || s.tuMode n k != 3 then s
  else if s.capAccepts n k j f then (s.setChan n k j { c with filt := none }).capture n k j rise ago
  else match c.filt with
    | some (l, _) => if l = rise then s else s.setChan n k j { c with filt := none }
    | none => s.setChan n k j { c with filt := some (rise, f) }

def execCaptureEdge (n : Fin 16) (k : Fin 4) (j : Fin 6) (rise : Bool) (ago : Word) (s : State) :
    Host.Outcome State Fault Refusal :=
  .next (if s.islandRuns n.val && s.beatRuns then s.captureEdge n.val k.val j.val rise ago.toNat else s)

/-- A read of CAP_LO consumes the capture (R185). -/
def State.consumeCap (s : State) (n k j : Nat) : State := s.setChan n k j { s.chan n k j with consumed := true }

/-! ### WATCH and debug halt (R186, R188) -/

/-- Advance a unit over ΔB beats of WATCH (R186). -/
def State.tuWake (s : State) (n k dB : Nat) : State :=
  let s := s.setTu n k { s.tu n k with wakeHold := true }
  if s.tuRunning n k && (s.tu n k).gateOpen && !s.tuFrozen n k then
    let e := 5 * dB
    let pos := s.tuPos n k
    let p := s.tuP n k
    let kk := (pos + e) / p
    if s.tuMode n k = 2 ∧ 0 < kk then
      let s := (s.setReg (R.TU_MISSED n k) 1#32).setReg (R.TU_PCOUNT n k) (s.reg (R.TU_PCOUNT n k) + 1#32)
      ((s.tuStop n k false).flag (R.TU_STATUS n k) 7).fireTu n k 13
    else
      let evt := s.tuMode n k != 3 && (List.range 6).any (fun j =>
        let v := (s.reg (R.TU_CHj_EVT n k j)).toNat
        decide (v < p) && decide (pos < v) && decide (v ≤ pos + e))
      let s := s.setReg (R.TU_CNT n k) (w32 ((pos + e) % p))
      let s := s.setReg (R.TU_PCOUNT n k) (w32 ((s.reg (R.TU_PCOUNT n k)).toNat + kk))
      let s := s.setReg (R.TU_MISSED n k) (w32 (satTo 0xFFFFFFFF kk))
      if 0 < kk ∨ evt then (s.flag (R.TU_STATUS n k) 7).fireTu n k 13 else s
  else s

/-- A debug halt of a core (8: device-wide) freezes a unit with FREEZE non-zero (R188). -/
def State.tuFreeze (s : State) (n k who : Nat) : State :=
  if s.rf (R.TU_CFG n k) 7 6 = 0 then s
  else
    let r := s.tu n k
    ((s.setTu n k { r with frozenBy := if r.frozenBy.contains who then r.frozenBy else who :: r.frozenBy }).setRb
      (R.TU_STATE n k) 30 true).holdOutputs n k

/-- A freeze ends when no core that began it remains halted. -/
def State.tuUnfreeze (s : State) (n k who : Nat) : State :=
  let r := s.tu n k
  let left := r.frozenBy.filter (fun c => c != who)
  ((s.setTu n k { r with frozenBy := left }).setRb (R.TU_STATE n k) 30 (left != [])).holdOutputs n k

end Sys2Proof.Machine
end

