-- ==== Sys2Proof/Machine/LoopState.lean ====
section
/-!
DEFINITION. Loop contexts as the rest of the device sees them (R89 to R96): records, roles, latches and the freshness
of awaited inputs.
-/
namespace Sys2Proof.Machine
open Sys2Proof

def State.le (s : State) (n m : Nat) : LeRec := s.les.get (fun _ => .reset) (6 * n + m)

def State.setLe (s : State) (n m : Nat) (r : LeRec) : State := { s with les := s.les.set (fun _ => .reset) (6 * n + m) r }

def State.ctx (s : State) (n m c : Nat) : CtxRec := (s.le n m).ctxs.getD c .reset

def State.setCtx (s : State) (n m c : Nat) (x : CtxRec) : State :=
  let r := s.le n m
  s.setLe n m { r with ctxs := r.ctxs.set c x }

/-! ### Roles (R108 to R112) -/

/-- Engine `m` is retired. -/
def State.leRetired (s : State) (n m : Nat) : Bool := s.rb (R.IC_LE_RETIRED n) m

/-- The contexts of engine `m` run on the substitute. -/
def State.leHosted (s : State) (n m : Nat) : Bool := s.rb (R.IC_LE_RETIRED n) (8 + m)

/-- Designated substitute of an island. -/
def State.leSubst (s : State) (n : Nat) : Option Nat :=
  if s.rb (R.IC_LE_SUBST n) 31 then some (s.rf (R.IC_LE_SUBST n) 2 0) else none

/-- The engine whose contexts the substitute hosts. -/
def State.leHostedOne (s : State) (n : Nat) : Option Nat := (List.range 6).find? (s.leHosted n)

/-- The engine whose registers and memories answer in the window of engine `m` (R110). -/
def State.leWindow (s : State) (n m : Nat) : Nat :=
  if s.leSubst n = some m then (s.leHostedOne n).getD m else m

/-- The physical engine that runs the contexts of engine `m`. -/
def State.lePhysical (s : State) (n m : Nat) : Nat := if s.leHosted n m then (s.leSubst n).getD m else m

/-- The contexts of engine `m` can run: it works, or the substitute hosts them. -/
def State.leWorks (s : State) (n m : Nat) : Bool :=
  s.islandRuns n && (!s.leRetired n m || s.leHosted n m) && !(s.leSubst n == some m) && !(s.le n m).copying
    && (s.device == .run || s.device == .entering)

/-- Context `c` of engine `m` is enabled. -/
def State.ctxOn (s : State) (n m c : Nat) : Bool := s.rb (R.LE_RUN n m) c

/-- A context part way through its chain (R93). -/
def State.partWay (s : State) (n m c : Nat) : Bool := (s.ctx n m c).phase == .running

/-- No context of the engine is part way through its chain (R65). -/
def State.leAtBoundary (s : State) (n m : Nat) : Bool := !(List.range 8).any (s.partWay n m)

/-- A context takes imposed fixed-phase timing (R102): 16 executions of it, from a cause; one that is under way does not
count. -/
def State.impose (s : State) (n m c cause : Nat) : State :=
  let x := s.ctx n m c
  (s.setCtx n m c { x with spare := x.phase == .running || x.phase == .held }).setReg (R.LE_CTXc_FIXED n m c)
    (w32 (at_ cause 30 + 16))

/-- Test mode is in force. -/
def State.testMode (s : State) : Bool := s.rb R.PW_STATE 29

/-- A context runs in fixed-phase timing (R102). -/
def State.ctxFixed (s : State) (n m c : Nat) : Bool :=
  s.rb (R.LE_CTXc_TIMING n m c) 31 || s.rf (R.LE_CTXc_FIXED n m c) 4 0 != 0 || s.testMode

/-! ### Freshness (R94) -/

/-- Every awaited input of a context is fresh. -/
def State.ctxFresh (s : State) (n m c : Nat) : Bool :=
  let x := s.ctx n m c
  let w := s.reg (R.LE_CTXc_WAIT n m c)
  let ac := (s.reg (R.LE_CTXc_WAIT_AC n m c)).toNat
  ac &&& x.freshAc == ac && fld w 23 20 &&& x.freshSd == fld w 23 20 && fld w 31 24 &&& x.freshCtx == fld w 31 24

/-- Make INPUTS_FRESH due for a WAITING context whose inputs are all fresh. -/
def State.noteFresh (s : State) (n m c : Nat) : State :=
  if (s.ctx n m c).phase == .waiting && s.ctxFresh n m c then
    s.enqueue [.inputsFresh (Fin.ofNat 16 n) (Fin.ofNat 6 m) (Fin.ofNat 8 c)]
  else s

/-- Core that REF names, if the context awaits a tag of it (R99). -/
def State.ctxRef (s : State) (n m c : Nat) : Option Nat :=
  match s.rf (R.LE_CTXc_TRIG n m c) 17 16 with
  | 1 => if s.rf (R.LE_CTXc_WAIT_AC n m c) 15 0 = 0 then none else some 0
  | 2 => if s.rf (R.LE_CTXc_WAIT_AC n m c) 31 16 = 0 then none else some 1
  | _ => none

/-- Trigger instant of the present execution, as a tick (R99). -/
def State.ctxInstant (s : State) (n m c : Nat) : Nat :=
  let x := s.ctx n m c
  match s.ctxRef n m c with
  | some _ => x.sampled.getD x.arrival
  | none => x.arrival

/-- Contexts of an engine that are enabled and for which `p` holds. -/
def State.ctxsWhere (s : State) (n m : Nat) (p : Nat → Bool) : List Nat :=
  indicesWhere 8 (fun c => s.ctxOn n m c && p c)

/-- A converter result reaches the latches of one engine (R89). The bits above the code are open. The first component
says that the engine copied it. -/
def State.latchEngine (s : State) (n m core tag : Nat) (code : Word) (instant : Nat) : Bool × State :=
  let cs := s.ctxsWhere n m (fun c => s.rb (R.LE_CTXc_WAIT_AC n m c) (16 * core + tag))
  if cs = [] ∨ s.leWorks n m = false then (false, s)
  else
    let (f, s) := s.free
    let r := s.le n m
    let s := s.setLe n m
      { r with latches := r.latches.set (fun _ => 0#32) (16 * core + tag) ((f &&& 0xFFFF0000#32) ||| code)
               latchAt := r.latchAt.set (fun _ => 0) (16 * core + tag) instant }
    (true, (s.ctxsWhere n m (fun _ => true)).foldl (fun t c =>
      let x := t.ctx n m c
      if x.phase == .idle then t
      else
        let x := { x with
          freshAc := x.freshAc ||| 2 ^ (16 * core + tag)
          sampled := if t.ctxRef n m c = some core ∧ x.sampled = none ∧ c ∈ cs then some instant else x.sampled }
        (t.setCtx n m c x).noteFresh n m c) s)

/-- A converter result reaches the latches of the island's engines; says whether one copied it. -/
def State.latchResult (s : State) (n core tag : Nat) (code : Word) (instant : Nat) : Bool × State :=
  (List.range 6).foldl (fun (acc : Bool × State) m =>
    let (b, t) := acc.2.latchEngine n m core tag code instant
    (acc.1 || b, t)) (false, s)

/-- A sinc3 result reaches the latches of one engine (R90). -/
def State.latchSinc (s : State) (n m d : Nat) (v : Word) : Bool × State :=
  let cs := s.ctxsWhere n m (fun c => s.rb (R.LE_CTXc_WAIT n m c) (20 + d))
  if cs = [] ∨ s.leWorks n m = false then (false, s)
  else
    let r := s.le n m
    let s := s.setLe n m { r with latches := r.latches.set (fun _ => 0#32) (32 + d) v }
    (true, (s.ctxsWhere n m (fun _ => true)).foldl (fun t c =>
      let x := t.ctx n m c
      if x.phase == .idle then t else (t.setCtx n m c { x with freshSd := x.freshSd ||| 2 ^ d }).noteFresh n m c) s)

/-- A sinc3 result reaches the latches of the island's engines. -/
def State.latchDemod (s : State) (n d : Nat) (v : Word) : Bool × State :=
  (List.range 6).foldl (fun (acc : Bool × State) m =>
    let (b, t) := acc.2.latchSinc n m d v
    (acc.1 || b, t)) (false, s)

/-- Contexts that await a core's results take imposed fixed-phase timing (R102). -/
def State.imposeAwaiting (s : State) (n core : Nat) : State :=
  (List.range 48).foldl (fun t i =>
    if t.ctxOn n (i / 8) (i % 8) && t.rf (R.LE_CTXc_WAIT_AC n (i / 8) (i % 8)) (16 * core + 15) (16 * core) != 0 then
      t.impose n (i / 8) (i % 8) 3 else t) s

end Sys2Proof.Machine
end

