-- ==== Sys2Proof/Machine/Analog.lean ====
section
/-!
DEFINITION. Converters, demodulators and comparators (R192 to R219). A converter's register set `c` of island `n` keeps
its number after a takeover; the physical core that serves it is its partner then (R206).
-/
namespace Sys2Proof.Machine
open Sys2Proof

/-! ### Records -/

def State.ac (s : State) (n c : Nat) : AcRec := s.acs.get (fun _ => .reset) (2 * n + c)

def State.setAc (s : State) (n c : Nat) (r : AcRec) : State := { s with acs := s.acs.set (fun _ => .reset) (2 * n + c) r }

def State.cp (s : State) (n c : Nat) : CpRec := s.cps.get (fun _ => .reset) (8 * n + c)

def State.setCp (s : State) (n c : Nat) (r : CpRec) : State := { s with cps := s.cps.set (fun _ => .reset) (8 * n + c) r }

/-- Fire an event of a converter core (R220). -/
def State.fireAc (s : State) (n c e : Nat) : State := s.fireIsland n (0xA0 + 8 * c + e)

/-- Fire an event of a demodulator (R220). -/
def State.fireSd (s : State) (n d e : Nat) : State := s.fireIsland n (0xB0 + 4 * d + e)

/-- ROLE of a converter core: 0 WORKING, 1 HOSTING, 2 RETIRED. -/
def State.acRole (s : State) (n c : Nat) : Nat := s.rf (R.AC_STATE n c) 31 30

/-- The physical core that serves a register set. -/
def State.acCore (s : State) (n c : Nat) : Nat := if (s.ac n c).hosted then 1 - c else c

/-- A register set that converts: its core works, or its partner hosts it. -/
def State.acWorks (s : State) (n c : Nat) : Bool := s.acRole n c != 2 || (s.ac n c).hosted

/-- Register sets that a physical core serves, that of AC0 first. -/
def State.acSets (s : State) (n p : Nat) : List Nat :=
  (List.range 2).filter (fun c => s.acWorks n c && s.acCore n c == p)

/-- REG+INJ sequencing (R196). -/
def State.acReg (s : State) (n c : Nat) : Bool := s.rb (R.AC_MODE n c) 0

/-- Last entry of the SEQ16 or regular sequence. -/
def State.acLast (s : State) (n c : Nat) : Nat :=
  let l := s.rf (R.AC_MODE n c) 7 4
  if s.acReg n c then min l 11 else l

/-- Last entry of the injected sequence. -/
def State.acInjLast (s : State) (n c : Nat) : Nat :=
  12 + s.rf (R.AC_MODE n c) 9 8

/-! ### Conversion codes (R192, R193, R202) -/

/-- Nearest integer to num / den; which way a tie goes is open. -/
def State.roundDiv (s : State) (num : Int) (den : Nat) : Int × State :=
  let q := num / (den : Int)
  let r := num % (den : Int)
  if 2 * r < den then (q, s)
  else if (den : Int) < 2 * r then (q + 1, s)
  else
    let (b, s) := s.freeBit
    (if b then q + 1 else q, s)

/-- The raw offset-binary code of `vin` nanovolts at gain index `g` against a reference of `ref` nanovolts, with the analog
stage's own error in codes, which calibration is there to correct (R193, R202; log entry 100). -/
def State.rawCode (s : State) (diff : Bool) (g : Nat) (vin : Int) (ref : Nat) (err : Int) : Nat × State :=
  let (v, s) := s.roundDiv (vin * 2 ^ g * (if diff then 32768 else 65536)) ref
  let v := if diff then clampI (-32768) 32767 v + 32768 else clampI 0 65535 v
  ((clampI 0 65535 (v + err)).toNat, s)

/-- A raw offset-binary code with the factors of gain index `g` of physical core `p`, within 0 to 65,535 (R202). -/
def State.corrected (s : State) (n p g : Nat) (raw : Nat) : Int × State :=
  let gr := s.reg (R.AC_CAL_GAINg n p g)
  let k := raw / 4096
  let lw := s.reg (R.AC_CAL_LINk n p (k / 2))
  let lin := sextN 16 (if k % 2 = 0 then fld lw 15 0 else fld lw 31 16)
  let ofs := sextN 16 (fld gr 15 0)
  let gain := sextN 16 (fld gr 31 16)
  let (v, s) := s.roundDiv ((16 * raw - ofs - lin) * (2 ^ 20 + gain)) (2 ^ 24)
  (clampI 0 65535 v, s)

/-- Does a channel code name an input (R192)? -/
def acChannel (ch : Nat) : Bool := decide (ch ≤ 0xB) || (decide (0x10 ≤ ch) && decide (ch ≤ 0x12)) || decide (0x18 ≤ ch)

/-- A differential channel. -/
def acDifferential (ch : Nat) : Bool := decide (8 ≤ ch) && decide (ch ≤ 0xB)

/-- Result code of an entry (R192, R202). -/
def State.acCode (s : State) (n p : Nat) (entry : Word) (raw : Nat) : Word × State :=
  let ch := fld entry 4 0
  if acChannel ch then
    let (v, s) := s.corrected n p (fld entry 25 24) raw
    let w := wOfInt v
    (if acDifferential ch then w ^^^ 0x8000#32 else w, s)
  else (0#32, s)

/-! ### Slots and sequences (R194 to R198) -/

/-- Sampling time of an entry in fine steps. -/
def acSt (entry : Word) : Nat := 64 * max 8 (fld entry 23 16)

/-- End of the slot of an entry that starts at `at_` (R194): 30 ns are 2,400 fine steps and 50 ns are 4,000. -/
def acSlotEnd (entry : Word) (at_ : Nat) : Nat := at_ + max (acSt entry + 2400) 4000

def State.acBusy (s : State) (n c : Nat) : Bool := s.rb (R.AC_STATE n c) 28

def State.acInjBusy (s : State) (n c : Nat) : Bool := s.rb (R.AC_STATE n c) 27

/-- Earliest start of a slot of a physical core. -/
def State.acFree (s : State) (n p : Nat) : Nat := (s.acSets n p).foldl (fun a c => max a (s.ac n c).freeAt) 0

/-- Start the slot of entry `i`. -/
def State.acStart (s : State) (n c i : Nat) (inj : Bool) : State :=
  let e := s.reg (R.AC_ENTRYi n c i)
  let at_ := max (s.acFree n (s.acCore n c)) ((if inj then (s.ac n c).ordInj else (s.ac n c).ordReg) * 64)
  let r := s.ac n c
  s.setAc n c { r with slot := some i, slotInj := inj, slotAt := at_, freeAt := acSlotEnd e at_, slotCfg := e }

/-- Mark the SEQ16 or regular sequence as running from entry 0. -/
def State.acBegin (s : State) (n c t : Nat) : State :=
  let r := s.ac n c
  let s := s.setAc n c { r with ordReg := t, cont := s.rb (R.AC_MODE n c) 1 }
  (s.setRb (R.AC_STATE n c) 28 true).setRf (R.AC_STATE n c) 19 16 0

/-- Due entries swap (R208): a slot in progress completes on its old entry. -/
def State.acSwap (s : State) (n c : Nat) : State := if s.dueIn (.ac n c) then s.swapBlk (.ac n c) else s

/-- The apply point of AT_BOUNDARY (R208, R219): no SEQ16 or regular sequence is in progress, and an injected one has
completed on the old values. -/
def State.acAtBoundary (s : State) (n c : Nat) : Bool := !s.acBusy n c && !s.acInjBusy n c

/-- Beats of one second. -/
def secondBeats : Nat := 250000000

/-- Transients of the last second, from their beats: the first of the present window stays until a second has passed. -/
def recent (now : BitVec 64) (l : List (BitVec 64)) : List (BitVec 64) :=
  l.filter (fun b => (now - b).toNat < secondBeats)

/-- A core owes a check (R204): 48 conversions, or 6 µs (1,500 beats) with at least one. -/
def State.checkOwed (s : State) (n p : Nat) : Bool :=
  let r := s.ac n p
  decide (48 ≤ r.convs) || (decide (0 < r.convs) && decide (1500 ≤ (s.clk.beat - r.lastCheck).toNat))

/-- With no sequence in progress due entries swap, and a held trigger or a continuous sequence starts; the restart waits
for a check that the core owes (R204). -/
def State.acSettle (s : State) (n c : Nat) : State :=
  if !s.acAtBoundary n c then s
  else
    let s := s.acSwap n c
    let s := if s.rb (R.AC_MODE n c) 1 then s else s.setAc n c { s.ac n c with cont := false }
    let r := s.ac n c
    if r.slot.isSome then s
    else if s.rb (R.AC_STATE n c) 26 then (s.setRb (R.AC_STATE n c) 26 false).acBegin n c s.absTick
    else if r.cont && s.rb (R.AC_MODE n c) 1 && s.rb (R.AC_CTRL n c) 31 && !s.checkOwed n (s.acCore n c) then
      s.acBegin n c s.absTick
    else s

/-- Of the sets for which `p` holds, the one that became due first. -/
def firstDue (l : List Nat) (p : Nat → Bool) (ord : Nat → Nat) : Option Nat :=
  (l.filter p).foldl (fun a c => match a with
    | none => some c
    | some b => if ord c < ord b then some c else some b) none

/-- Start the next slot of a physical core: injected sequences before regular ones, each kind in the order of becoming
due (R197, R206). -/
def State.acNext (s : State) (n p : Nat) : State :=
  let sets := s.acSets n p
  if sets.any (fun c => (s.ac n c).slot.isSome) then s
  else
    let s := sets.foldl (fun t c => t.acSettle n c) s
    match firstDue sets (s.acInjBusy n) (fun c => (s.ac n c).ordInj) with
    | some c => s.acStart n c (s.ac n c).injNext true
    | none => match firstDue sets (s.acBusy n) (fun c => (s.ac n c).ordReg) with
      | some c => s.acStart n c (s.rf (R.AC_STATE n c) 19 16) false
      | none => s

/-- Can the partner still take over a retired core (R206)? -/
def State.acTakeable (s : State) (n c : Nat) : Bool :=
  s.rb (R.AC_MODE n c) 3 && s.rb (R.AC_MODE n (1 - c)) 3 && s.acRole n (1 - c) == 0 && s.acRole n c == 2
    && !(s.ac n c).hosted

/-- A trigger arrives (R195): it starts its delay, or is discarded. A unit's event taken directly arrives in the tick
after the event tick. -/
def State.adcTrigger (s : State) (n c : Nat) (inj : Bool) : State :=
  let trig := s.reg (if inj then R.AC_TRIG_INJ n c else R.AC_TRIG n c)
  let r := s.ac n c
  if !s.rb (R.AC_CTRL n c) 31 || (inj && !s.acReg n c) || fld trig 15 14 = 3 then s
  else if !s.acWorks n c then (if s.acTakeable n c then s.flag (R.AC_STATUS n c) 11 else s)
  else if !inj && r.cont && s.rb (R.AC_MODE n c) 1 then s
  else if (if inj then r.dueInj.isSome || s.acInjBusy n c
      else r.dueReg.isSome || s.acBusy n c || s.rb (R.AC_STATE n c) 26) then
    s.flag (R.AC_STATUS n c) (if inj then 3 else 2)
  else
    let due := s.absTick + (if fld trig 15 14 = 2 then 1 else 0) + 1 + fld trig 31 16
    s.setAc n c (if inj then { r with dueInj := some due } else { r with dueReg := some due })

/-- A trigger becomes due (R197). -/
def State.triggerDue (s : State) (n c : Nat) (inj : Bool) : State :=
  let r := s.ac n c
  match if inj then r.dueInj else r.dueReg with
  | none => s
  | some t =>
    if s.absTick < t then s
    else if inj then
      let s := s.setAc n c { r with dueInj := none, ordInj := t, injNext := 12 }
      (s.setRb (R.AC_STATE n c) 27 true).acNext n (s.acCore n c)
    else
      let s := s.setAc n c { r with dueReg := none }
      if s.acInjBusy n c then s.setRb (R.AC_STATE n c) 26 true
      else (s.acBegin n c t).acNext n (s.acCore n c)

def execAdcTrigger (n : Fin 16) (c : Fin 2) (inj : Bool) (s : State) : Host.Outcome State Fault Refusal :=
  .next (if s.islandRuns n.val && s.beatRuns then s.adcTrigger n.val c.val inj else s)

def execTriggerDue (n : Fin 16) (c : Fin 2) (inj : Bool) (s : State) : Host.Outcome State Fault Refusal :=
  .next (s.triggerDue n.val c.val inj)

/-! ### Results (R199, R200) -/

/-- Place a result in AC_DATA and offer it to the latches. -/
def State.acResult (s : State) (n c tag : Nat) (inj check : Bool) (code : Word) (si : Nat) : State :=
  let old := s.reg (R.AC_DATA n c)
  let r := s.ac n c
  let ovr := r.dataCheck && bit old 31
  let s := if ovr then (s.flag (R.AC_STATUS n c) 1).fireAc n c 3 else s
  let s := s.setAc n c { r with dataCheck := check }
  let cnt := s.rf (R.AC_SI_SUB n c) 31 16 + 1
  let (copied, s) := s.latchResult n c tag code (si / 64)
  let s := s.setReg (R.AC_DATA n c)
    (w32 (at_ (b2n (!copied)) 31 + at_ (b2n ovr) 30 + at_ (b2n inj) 29 + at_ tag 16) ||| code)
  let s := (s.setReg (R.AC_SI_T n c) (lo64 (s.stampT n si).toNat)).setReg (R.AC_SI_SUB n c)
    (w32 (at_ (cnt % 65536) 16 + stampTickFine si))
  s.fireAc n c 0

/-- What follows the end of a slot in its sequence. -/
def State.acAfter (s : State) (n c i : Nat) (inj : Bool) : State :=
  if inj then
    if !s.acInjBusy n c then s
    else if s.acInjLast n c ≤ i then
      (s.setRb (R.AC_STATE n c) 27 false).fireAc n c 2
    else s.setAc n c { s.ac n c with injNext := i + 1 }
  else if !s.acBusy n c then s
  else if s.acLast n c ≤ i then (s.setRb (R.AC_STATE n c) 28 false).fireAc n c 1
  else s.setRf (R.AC_STATE n c) 19 16 (i + 1)

/-- A hosted set goes back to its restored core between sequences (R459). -/
def State.acHandBack (s : State) (n c : Nat) : State :=
  if (s.ac n c).handBack && !s.acBusy n c && !s.acInjBusy n c then
    let s := s.setAc n c { s.ac n c with hosted := false, handBack := false }
    if s.acRole n (1 - c) = 1 then s.setRf (R.AC_STATE n (1 - c)) 31 30 0 else s
  else s

/-- CONVERSION_DONE (R199): the running slot's conversion of `vin` nanovolts ends. The reference is the internal one of
2.5 V, or with AC_MODE.REF the external pair, at `vref` nanovolts (R193). -/
def State.conversionDone (s : State) (n c : Nat) (vin : Int) (vref : Nat) (err : Int) : State :=
  let r := s.ac n c
  match r.slot with
  | none => s
  | some i =>
    let p := s.acCore n c
    let ref := if s.rb (R.AC_MODE n c) 2 then vref else 2500000000
    let (raw, s) := s.rawCode (acDifferential (fld r.slotCfg 4 0)) (fld r.slotCfg 25 24) vin ref err
    let (code, s) := s.acCode n p r.slotCfg raw
    let s := s.setAc n c { r with slot := none }
    let pr := s.ac n p
    let s := s.setAc n p { pr with convs := pr.convs + 1 }
    let s := s.acResult n c i r.slotInj (bit r.slotCfg 31) code (r.slotAt + acSt r.slotCfg)
    ((s.acAfter n c i r.slotInj).acHandBack n c).acNext n p

def execConversionDone (n : Fin 16) (c : Fin 2) (x : Conversion) (s : State) : Host.Outcome State Fault Refusal :=
  .next (if s.islandRuns n.val && s.beatRuns then s.conversionDone n.val c.val x.vin.toInt x.vref.toNat x.err.toInt
    else s)

/-- A read of AC_DATA is the result's read (R199). -/
def State.acDataRead (s : State) (n c : Nat) : State := s.setRb (R.AC_DATA n c) 31 false

/-- A write to AC_CTRL (R198, R201). Due entries of a core that stops apply at once (R74). -/
def State.acCtrlWrite (s : State) (n c : Nat) (v : Word) : State :=
  let was := s.rb (R.AC_CTRL n c) 31
  if bit v 31 && s.rb (R.AC_CAL n c) 30 then s.flag (R.AC_STATUS n c) 9
  else
    let s := s.setReg (R.AC_CTRL n c) (v &&& 0x80000001#32)
    if bit v 31 then (if was then s else s.setRf (R.AC_SI_SUB n c) 31 16 0)
    else
      let r := s.ac n c
      let s := s.setAc n c { r with dueReg := none, dueInj := none, cont := false }
      ((s.setRf (R.AC_STATE n c) 28 26 0).acSwap n c).acNext n (s.acCore n c)

/-! ### Calibration (R201 to R203) -/

/-- A write to AC_CAL. -/
def State.acCalWrite (s : State) (n c : Nat) (v : Word) : State :=
  if !bit v 31 then s
  else if s.rb (R.AC_CTRL n c) 31 then s.flag (R.AC_STATUS n c) 9
  else ((s.setRb (R.AC_CAL n c) 30 true).setRb (R.AC_STATE n c) 29 true).setAc n c { s.ac n c with calOk := false }

/-- A write to a factor register: refused while the core is enabled; restoring a factor sets VALID. -/
def State.acFactorWrite (s : State) (n c a : Nat) (v : Word) : State :=
  if s.rb (R.AC_CTRL n c) 31 then s.flag (R.AC_STATUS n c) 9 else (s.setReg a v).setRb (R.AC_CAL n c) 29 true

/-- CALIBRATION_DONE. -/
def State.calibrationDone (s : State) (n c : Nat) (ok : Bool) (temp : BitVec 16) (gains lins : List Word) : State :=
  if !s.rb (R.AC_CAL n c) 30 then s
  else
    let s := (s.setRb (R.AC_CAL n c) 30 false).setRb (R.AC_STATE n c) 29 false
    let s := s.setAc n c { s.ac n c with calOk := ok }
    if !ok then s.flag (R.AC_STATUS n c) 8
    else
      let s := (List.range 4).foldl (fun t g => t.setReg (R.AC_CAL_GAINg n c g) (gains.getD g 0)) s
      let s := (List.range 8).foldl (fun t k => t.setReg (R.AC_CAL_LINk n c k) (lins.getD k 0)) s
      ((s.setReg (R.AC_CAL n c) (w32 (2 ^ 29 + temp.toNat))).flag (R.AC_STATUS n c) 7).fireAc n c 5

def execCalibrationDone (n : Fin 16) (c : Fin 2) (ok : Bool) (temp : BitVec 16) (gains : Vector Word 4)
    (lins : Vector Word 8) (s : State) : Host.Outcome State Fault Refusal :=
  .next (s.calibrationDone n.val c.val ok temp gains.toList lins.toList)

/-- DRIFT_CHECK (R203): 20 °C are 320 units of 1/16 °C. -/
def State.driftCheck (s : State) (n c : Nat) (temp : Nat) : State :=
  let d := sextN 16 temp - sextN 16 (s.rf (R.AC_CAL n c) 15 0)
  if s.rb (R.AC_CAL n c) 29 && !s.rb (R.AC_CAL n c) 28 && decide (320 < d.natAbs) then
    ((s.setRb (R.AC_CAL n c) 28 true).flag (R.AC_STATUS n c) 10).fireAc n c 6
  else s

def execDriftCheck (n : Fin 16) (c : Fin 2) (temp : BitVec 16) (s : State) : Host.Outcome State Fault Refusal :=
  .next (if s.islandRuns n.val && s.beatRuns then s.driftCheck n.val c.val temp.toNat else s)

/-! ### Reference checks, retirement, takeover (R204 to R207) -/

/-- Source number of a converter core (R451). -/
def acSource (n c : Nat) : Nat := 0xA0 + 2 * n + c

/-- Retire a core (R206); `forced` says that the fault collector is the reporter (R460). -/
def State.acRetire (s : State) (n c : Nat) (forced : Bool) : State :=
  if s.acRole n c = 2 then s
  else
    let r := s.ac n c
    let rep := if forced then 0x1F0 else acSource n c
    let q := 1 - c
    let s := if s.acRole n q = 2 ∧ ((s.ac n q).hosted ∨ s.acTakeable n q) then
        ((s.setAc n q { s.ac n q with
          hosted := false, handBack := false, dueReg := none, dueInj := none, slot := none, cont := false }).setRf
          (R.AC_STATE n q) 28 26 0).report
          (acSource n q) rep 6 (s.reg (R.AC_CHK n q))
      else s
    let s := s.setAc n c { r with dueReg := none, dueInj := none, slot := none, cont := false }
    let s := s.setReg (R.AC_STATE n c) (setFld (s.reg (R.AC_STATE n c)) 31 26 0x20)
    let s := (s.flag (R.AC_STATUS n c) 5).fireAc n c 4
    s.report (acSource n c) rep (if s.acTakeable n c then 5 else 6) (s.reg (R.AC_CHK n c))

/-- REFERENCE_CHECK (R204, R205): raw codes of the check and, if it fails, of its repeat. -/
def State.referenceCheck (s : State) (n p : Nat) (raw again : Nat) : State :=
  if s.acRole n p = 2 || (s.acSets n p).any (fun c => (s.ac n c).slot.isSome) || !s.checkOwed n p then s
  else
    let r := s.ac n p
    let expect : Int := if r.ground then 0 else 32768
    let tol : Int := 4 * s.rf (R.AC_MODE n p) 23 16
    let (v, s) := s.corrected n p 0 raw
    let (w, s) := s.corrected n p 0 again
    let ok1 := decide ((v - expect).natAbs ≤ tol.toNat)
    let ok2 := decide ((w - expect).natAbs ≤ tol.toNat)
    let err := if ok1 then v - expect else w - expect
    let at_ := max r.freeAt s.nowFine
    let cnt := (s.rf (R.AC_CHK n p) 31 16 + 1) % 65536
    let s := s.setReg (R.AC_CHK n p) (w32 (65536 * cnt + (err % 65536).toNat))
    let s := s.setAc n p { s.ac n p with
      convs := 0, lastCheck := s.clk.beat, ground := !r.ground, freeAt := at_ + (if ok1 then 4000 else 8000) }
    if ok1 then s.acNext n p
    else if ok2 then
      let w := recent s.clk.beat r.window
      let s := s.setAc n p { s.ac n p with window := w ++ [s.clk.beat] }
      let s := (s.setRf (R.AC_STATE n p) 12 8 (min 16 (w.length + 1))).flag (R.AC_STATUS n p) 4
      let s := s.report (acSource n p) (acSource n p) 4 (s.reg (R.AC_CHK n p))
      if 16 ≤ w.length then s.acRetire n p false else s.acNext n p
    else s.acRetire n p false

def execReferenceCheck (n : Fin 16) (c : Fin 2) (raw again : BitVec 16) (s : State) :
    Host.Outcome State Fault Refusal :=
  .next (if s.islandRuns n.val && s.beatRuns && (s.acSets n.val c.val).any (fun k => s.rb (R.AC_CTRL n.val k) 31) then
    s.referenceCheck n.val c.val raw.toNat again.toNat else s)

/-- TAKEOVER (R206): core `c` takes over its retired partner's register set. -/
def State.takeover (s : State) (n c : Nat) : State :=
  if s.acTakeable n (1 - c) then
    let s := s.setAc n (1 - c) { s.ac n (1 - c) with hosted := true }
    ((s.setRf (R.AC_STATE n c) 31 30 1).flag (R.AC_STATUS n c) 6).imposeAwaiting n (1 - c)
  else s

def execTakeover (n : Fin 16) (c : Fin 2) (s : State) : Host.Outcome State Fault Refusal :=
  .next (s.takeover n.val c.val)

/-! ### Demodulators (R210 to R214) -/

def State.sdRec (s : State) (n d : Nat) : SdRec := s.sds.get (fun _ => .reset) (4 * n + d)

def State.setSd (s : State) (n d : Nat) (r : SdRec) : State := { s with sds := s.sds.set (fun _ => .reset) (4 * n + d) r }

def State.sdOn (s : State) (n d : Nat) : Bool := s.islandRuns n && s.beatRuns && s.rb (R.SD_CFG n d) 31

/-- A demodulator whose modulator clock runs or is accepted (R210). -/
def State.sdClocked (s : State) (n d : Nat) : Bool := s.sdOn n d && s.rb (R.SD_CLK n 0) 31

/-- Samples of the data ball, oldest first, from its levels at the rising and the falling edge of each clock period. -/
def State.sdSamples (s : State) (n d : Nat) (l : List (Bool × Bool)) : List Bool :=
  l.map (fun p => if s.rb (R.SD_CFG n d) 30 then p.2 else p.1)

/-- Sums of `n` consecutive values, at the first `m` places. -/
def boxSums (n m : Nat) (l : List Int) : List Int := (List.range m).map (fun i => ((l.drop i).take n).sum)

/-- A 1 reads as +1 and a 0 as -1 (R210). -/
def sampleValue (b : Bool) : Int := if b then 1 else -1

/-- The sinc3 filter of decimation `n` over the samples it holds, newest first (R211). -/
def sinc3Of (n : Nat) (h : List Bool) : Int :=
  (boxSums n 1 (boxSums n n (boxSums n (2 * n - 1) (h.map sampleValue)))).headD 0

/-- The sinc2 filter (R213). -/
def sinc2Of (n : Nat) (h : List Bool) : Int := (boxSums n 1 (boxSums n n (h.map sampleValue))).headD 0

/-- OSR3 and OSR2. -/
def State.osr3 (s : State) (n d : Nat) : Nat := max 16 (s.rf (R.SD_CFG n d) 23 16 + 1)
def State.osr2 (s : State) (n d : Nat) : Nat := max 4 (s.rf (R.SD_CFG n d) 12 8 + 1)

/-- SINC3_RESULT (R211): the raw result, shifted right arithmetically. -/
def State.sinc3 (s : State) (n d : Nat) (raw : Word) : State :=
  let cfg := s.reg (R.SD_CFG n d)
  let v := raw.sshiftRight (fld cfg 27 24)
  let s := if s.rb (R.SD_STATE n d) 31 && bit cfg 29 then s.flag (R.SD_STATUS n d) 1 else s
  let (copied, s) := s.latchDemod n d v
  let s := s.setReg (R.SD_DATA n d) v
  let s := s.setRf (R.SD_STATE n d) 15 0 (s.rf (R.SD_STATE n d) 15 0 + 1)
  (s.setRb (R.SD_STATE n d) 31 (!copied)).fireSd n d 0

/-- Modulator clock period in ticks: 1,250 MHz / DIV as output; at least 50 ticks as input (R210). -/
def State.sdClock (s : State) (n : Nat) : Nat :=
  let v := s.reg (R.SD_CLK n 0)
  if bit v 30 then max 50 (min 125 (fld v 6 0)) else 50

/-- A restart of the decimation count is in force. -/
def State.sdRestarted (s : State) (n d : Nat) : Bool := match (s.sdRec n d).due with
  | some t => decide (t ≤ s.absTick)
  | none => false

/-- `k` clocks after the last result end a sinc3 result: OSR3 of them, or, after a restart of the count, those before it
and OSR3 more (R212); the result comes no sooner than its clocks, and at most 4 ticks behind them (R211). -/
def State.sdWindowOver (s : State) (n d k : Nat) : Bool :=
  let r := s.sdRec n d
  let restarted := s.sdRestarted n d
  let start := if restarted then max r.last3 (r.due.getD 0) else r.last3
  (if restarted then decide (s.osr3 n d ≤ k) else k == s.osr3 n d)
    && decide (start + s.osr3 n d * s.sdClock n ≤ s.absTick + 4)

/-- SINC3_RESULT: the samples since the last result enter the filter, whose state a sync does not clear. -/
def State.sinc3Done (s : State) (n d : Nat) (l : List (Bool × Bool)) : State :=
  let r := s.sdRec n d
  let h := ((s.sdSamples n d l).reverse ++ r.hist3).take 766
  let s := s.setSd n d { r with hist3 := h, last3 := s.absTick, due := if s.sdRestarted n d then none else r.due }
  s.sinc3 n d (wOfInt (sinc3Of (s.osr3 n d) h))

def execSinc3Result (n : Fin 16) (d : Fin 4) (samples : List (Bool × Bool)) (s : State) : Host.Outcome State Fault Refusal :=
  .next (if s.sdClocked n.val d.val && s.sdWindowOver n.val d.val samples.length then s.sinc3Done n.val d.val samples else s)

/-- SINC2_RESULT (R213). -/
def State.sinc2 (s : State) (n d : Nat) (raw : Word) : State :=
  let oc := s.reg (R.SD_OC n d)
  let hi := decide (sextN 16 (fld oc 31 16) < sInt raw)
  let lo := decide (sInt raw < sextN 16 (fld oc 15 0))
  let s := s.setReg (R.SD_FAST n d) raw
  let s := (s.setRb (R.SD_STATE n d) 30 hi).setRb (R.SD_STATE n d) 29 lo
  let s := if hi || lo then s.flag (R.SD_STATUS n d) 2 else s
  let s := if hi then s.fireSd n d 1 else s
  if lo then s.fireSd n d 2 else s

/-- OSR2 clocks after the last one end a sinc2 result. -/
def State.sdFastOver (s : State) (n d k : Nat) : Bool :=
  k == s.osr2 n d && decide ((s.sdRec n d).last2 + s.osr2 n d * s.sdClock n ≤ s.absTick + 4)

/-- SINC2_RESULT: the samples since the last result enter the filter. -/
def State.sinc2Done (s : State) (n d : Nat) (l : List (Bool × Bool)) : State :=
  let r := s.sdRec n d
  let h := ((s.sdSamples n d l).reverse ++ r.hist2).take 63
  (s.setSd n d { r with hist2 := h, last2 := s.absTick }).sinc2 n d (wOfInt (sinc2Of (s.osr2 n d) h))

def execSinc2Result (n : Fin 16) (d : Fin 4) (samples : List (Bool × Bool)) (s : State) : Host.Outcome State Fault Refusal :=
  .next (if s.sdClocked n.val d.val && s.sdFastOver n.val d.val samples.length then s.sinc2Done n.val d.val samples else s)

/-- Restart the decimation count of a demodulator at a tick (R212, R214). -/
def State.sdRestart (s : State) (n d tick : Nat) : State := s.setSd n d { s.sdRec n d with due := some tick }

/-- SD_SYNC (R212): the arrival and due rules of R195 with no delay; the count restarts at the due tick. -/
def execSdSync (n : Fin 16) (d : Fin 4) (s : State) : Host.Outcome State Fault Refusal :=
  .next (if s.sdOn n.val d.val then
    s.sdRestart n.val d.val (s.absTick + (if s.rf (R.SD_SYNC n.val d.val) 15 14 = 2 then 2 else 1)) else s)

/-- A read of SD_DATA (R211). -/
def State.sdDataRead (s : State) (n d : Nat) : State := s.setRb (R.SD_STATE n d) 31 false

/-- SD_CLOCK_LOST (R214). -/
def execSdClockLost (n : Fin 16) (d : Fin 4) (s : State) : Host.Outcome State Fault Refusal :=
  .next (if s.sdOn n.val d.val then
    ((s.setRb (R.SD_STATE n.val d.val) 28 false).flag (R.SD_STATUS n.val d.val) 3).fireSd n.val d.val 3 else s)

/-- SD_SATURATION (R214). -/
def execSdSaturation (n : Fin 16) (d : Fin 4) (s : State) : Host.Outcome State Fault Refusal :=
  .next (if s.sdClocked n.val d.val then (s.flag (R.SD_STATUS n.val d.val) 4).fireSd n.val d.val 3 else s)

/-- SD_CLOCK_RESTORED (R214). -/
def execSdClockRestored (n : Fin 16) (d : Fin 4) (s : State) : Host.Outcome State Fault Refusal :=
  .next (if s.sdClocked n.val d.val then s.setRb (R.SD_STATE n.val d.val) 28 true else s)

/-! ### Comparators (R215 to R217) -/

/-- Commands of what takes comparator `c` directly (R176, R183, R240). -/
def State.cpConsumers (s : State) (n c : Nat) (level : Bool) : List Instr := s.directConsumers n c (0x10 + c) level

/-- The output takes a level (R215): flags, events, the level source, trips and captures. -/
def State.cpOutput (s : State) (n c : Nat) (level : Bool) : State :=
  if s.rb (R.CP_STATE n c) 31 = level then s
  else
    let s := (s.setRb (R.CP_STATE n c) 31 level).flag (R.CP_STATUS n c) (if level then 1 else 2)
    let s := s.fireIsland n (0xC0 + 2 * c + (if level then 0 else 1))
    (s.setLine (256 * n + 0xE8 + c) level).enqueue (s.cpConsumers n c level)

/-- Hysteresis of HYST in microvolts. -/
def cpHyst (h : Nat) : Nat := match h with
  | 0 => 0
  | 1 => 10000
  | 2 => 20000
  | _ => 40000

/-- The decision on `vin` microvolts at the input (R215): between the two levels it stays. -/
def State.cpDecision (s : State) (n c : Nat) (vin : Int) : Bool :=
  let thr : Int := s.rf (R.CP_THR n c) 11 0 * 2500000
  let h : Int := 4096 * cpHyst (s.rf (R.CP_CFG n c) 25 24)
  let v := 4096 * vin
  if s.rb (R.CP_CFG n c) 30 then
    (if v < thr then true else if thr + h < v then false else (s.cp n c).dec)
  else if thr < v then true
  else if v < thr - h then false
  else (s.cp n c).dec

/-- The decision behind the filter changes; blanking and settling hold the output. -/
def State.cpDecide (s : State) (n c : Nat) (d : Bool) : State :=
  let s := s.setCp n c { s.cp n c with raw := d, filt := none }
  if s.rb (R.CP_STATE n c) 30 || s.rb (R.CP_STATE n c) 29 then s else s.cpOutput n c d

/-- COMPARATOR_TRANSITION: input AIN(`ain`) comes to `vin` microvolts. A change of the decision that lasts FILT ticks
passes the filter (R216). A watch comparator in WATCH has neither blanking nor filter (R217). -/
def State.cpTransition (s : State) (n c ain : Nat) (vin : Int) : State :=
  let watch := s.device == .watch
  let cfg := s.reg (R.CP_CFG n c)
  if !bit cfg 31 || fld cfg 2 0 != ain || (watch && !(bit cfg 29 && decide (c < 2))) then s
  else
    let d := s.cpDecision n c vin
    let s := s.setCp n c { s.cp n c with dec := d }
    let r := s.cp n c
    if watch then (s.setCp n c { r with raw := d }).cpOutput n c d
    else if fld cfg 7 4 = 0 then s.cpDecide n c d
    else if d = r.raw then s.setCp n c { r with filt := none }
    else match r.filt with
      | some _ => s
      | none => s.setCp n c { r with filt := some (d, s.absTick + fld cfg 7 4) }

def execComparatorTransition (n : Fin 16) (c : Fin 8) (x : InputVoltage) (s : State) :
    Host.Outcome State Fault Refusal :=
  .next (if s.islandRuns n.val then s.cpTransition n.val c.val x.ain.val (sInt x.vin) else s)

/-- What one tick does to a comparator: a decision passes its filter, a blanking window opens at a delayed edge. -/
def State.cpTick (s : State) (n c : Nat) : State :=
  let r := s.cp n c
  let s := match r.blankFrom with
    | some e => if e / 64 ≤ s.absTick then s.openBlank n c e else s
    | none => s
  match r.filt with
  | some (d, t) => if t ≤ s.absTick then s.cpDecide n c d else s
  | none => s

/-- BLANKING_EXPIRY (R216): the output follows the decision. -/
def State.cpBlankEnd (s : State) (n c : Nat) : State :=
  if !s.rb (R.CP_STATE n c) 30 then s
  else
    let s := (s.setRb (R.CP_STATE n c) 30 false).setCp n c { s.cp n c with blankEnd := none }
    if s.rb (R.CP_STATE n c) 29 || !s.rb (R.CP_CFG n c) 31 then s else s.cpOutput n c (s.cp n c).raw

def execBlankingExpiry (n : Fin 16) (c : Fin 8) (s : State) : Host.Outcome State Fault Refusal :=
  .next (s.cpBlankEnd n.val c.val)

/-- SETTLING_END (R217), with `vin` microvolts at the selected input: the decision under the new settings. -/
def State.cpSettled (s : State) (n c : Nat) (vin : Int) : State :=
  if !s.rb (R.CP_STATE n c) 29 then s
  else
    let d := s.cpDecision n c vin
    let s := (s.setRb (R.CP_STATE n c) 29 false).setCp n c { s.cp n c with dec := d, raw := d, filt := none }
    if s.rb (R.CP_STATE n c) 30 || !s.rb (R.CP_CFG n c) 31 then s else s.cpOutput n c d

def execSettlingEnd (n : Fin 16) (c : Fin 8) (vin : Word) (s : State) : Host.Outcome State Fault Refusal :=
  .next (s.cpSettled n.val c.val (sInt vin))

/-- After a change of a comparator's registers (R217): a new threshold, input or hysteresis settles; a disabled
comparator's output is inactive, without an event of its own, and trip inputs and captures see it inactive. -/
def State.cpChanged (s : State) (n c : Nat) (cfg thr : Word) : State :=
  let now := s.reg (R.CP_CFG n c)
  if !bit now 31 then
    let l := if s.rb (R.CP_STATE n c) 31 then s.cpConsumers n c false else []
    (((s.setRf (R.CP_STATE n c) 31 29 0).setCp n c .reset).setLine (256 * n + 0xE8 + c) false).enqueue l
  else if fld now 2 0 ≠ fld cfg 2 0 ∨ fld now 25 24 ≠ fld cfg 25 24 ∨ s.reg (R.CP_THR n c) ≠ thr then
    s.setRb (R.CP_STATE n c) 29 true
  else s

end Sys2Proof.Machine
end

