-- ==== Sys2Proof/Machine/Position.lean ====
section
/-!
DEFINITION. Encoder ports, position compare and mark inputs (R225 to R243).
-/
namespace Sys2Proof.Machine
open Sys2Proof

def State.mark (s : State) (n k : Nat) : MkRec := s.mks.get (fun _ => .reset) (4 * n + k)

def State.setMk (s : State) (n k : Nat) (r : MkRec) : State := { s with mks := s.mks.set (fun _ => .reset) (4 * n + k) r }

def State.fireEq (s : State) (n q e : Nat) : State := s.fireIsland n (0xD0 + 8 * q + e)

def State.fireMk (s : State) (n k e : Nat) : State := s.fireIsland n (0xE0 + 2 * k + e)

/-- The count takes a value; what it replaces is kept for the marks (R241). -/
def State.setCount (s : State) (n q : Nat) (v : Word) : State :=
  let r := s.eq n q
  (s.setEq n q { r with counts := (s.nowFine, s.reg (R.EQ_COUNT n q)) :: r.counts }).setReg (R.EQ_COUNT n q) v

/-- The count at instant `f`: what the first later change replaced, else the present one. -/
def State.countAt (s : State) (n q f : Nat) : Word :=
  match ((s.eq n q).counts.takeWhile (fun e => decide (f < e.1))).getLast? with
  | some e => e.2
  | none => s.reg (R.EQ_COUNT n q)

/-! ### Position compare (R234 to R238) -/

/-- Distance of the count from the compare point, signed. -/
def State.pcDistance (s : State) (n q : Nat) : Int := sInt (s.reg (R.EQ_COUNT n q) - s.reg (R.EQ_PC_POINT n q))

/-- The count lies inside the band. -/
def State.pcInBand (s : State) (n q : Nat) : Bool :=
  decide ((s.pcDistance n q).natAbs ≤ s.rf (R.EQ_PC_BAND n q) 15 0)

/-- STATE of the compare: 0 DISARMED, 1 ARMED, 2 BAND. -/
def State.pcState (s : State) (n q : Nat) : Nat := s.rf (R.EQ_PC_CTRL n q) 1 0

def State.setPcState (s : State) (n q v : Nat) : State := s.setRf (R.EQ_PC_CTRL n q) 1 0 v

/-- A BAND compare outside its band is ARMED again (R235). -/
def State.pcBandTest (s : State) (n q : Nat) : State :=
  if s.pcState n q = 2 ∧ s.pcInBand n q = false then s.setPcState n q 1 else s

/-- Does a count change from `c` by `d` cross `p` (R234)? -/
def crosses (c p : Word) (d : Int) : Bool :=
  if 0 < d then decide (0 < (p - c).toNat) && decide (((p - c).toNat : Int) ≤ d)
  else if d < 0 then decide (0 < (c - p).toNat) && decide (((c - p).toNat : Int) ≤ -d)
  else false

/-- Does QUAL select a crossing (R234)? -/
def pcQualifies (qual : Nat) (forward : Bool) : Bool := match qual with
  | 1 => forward
  | 2 => !forward
  | _ => true

/-- Pin multiplexing assigns the ball of OUT_BALL to the port's compare output (R497). -/
def State.pcRouted (s : State) (n q : Nat) : Bool :=
  let v := s.reg (R.PM_DIn_BALLb n (s.rf (R.EQ_PC_CFG n q) 11 8))
  fld v 2 0 == 2 && fld v 8 8 == q

/-- A pulse of the compare output, active from the next tick for WIDTH ticks (R237); one with no assigned ball is noted
(R497). -/
def State.pcPulse (s : State) (n q : Nat) : State :=
  let r := s.eq n q
  let s := s.setEq n q { r with
    pulseFrom := if r.pulseEnd.isSome then r.pulseFrom else s.absTick + 1
    pulseEnd := some (s.absTick + 1 + max 1 (s.rf (R.EQ_PC_PULSE n q) 15 0)) }
  if s.pcRouted n q then s else s.flag R.PM_STATUS 0

/-- The compare fires (R237), with the stamp of the crossing. -/
def State.pcFire (s : State) (n q : Nat) (forward : Bool) (t : Nat) (tickFine : Nat) : State :=
  let cfg := s.reg (R.EQ_PC_CFG n q)
  let cnt := (s.rf (R.EQ_PC_SUB n q) 31 16 + 1) % 65536
  let s := (s.setReg (R.EQ_PC_T_LO n q) (lo64 t)).setReg (R.EQ_PC_T_HI n q) (hi64 t)
  let s := s.setReg (R.EQ_PC_SUB n q) (w32 (65536 * cnt + at_ (b2n forward) 9 + tickFine % 512))
  let s := s.setPcState n q (if bit cfg 27 then 2 else 0)
  let s := if bit cfg 31 then s.pcPulse n q else s
  (s.flag (R.EQ_STATUS n q) 5).fireEq n q 1

/-- Test a count change from `c` by `d` against the compare. -/
def State.pcTest (s : State) (n q : Nat) (c : Word) (d : Int) (t tickFine : Nat) : State :=
  match s.pcState n q with
  | 1 =>
    if crosses c (s.reg (R.EQ_PC_POINT n q)) d && pcQualifies (s.rf (R.EQ_PC_CFG n q) 29 28) (decide (0 < d)) then
      s.pcFire n q (decide (0 < d)) t tickFine
    else s
  | 2 => s.pcBandTest n q
  | _ => s

/-- Is the compare output active? It is held inactive while SAFE_N is low (R237). -/
def State.pcOut (s : State) (n q : Nat) : Bool :=
  (s.eq n q).pulseEnd.isSome && decide ((s.eq n q).pulseFrom ≤ s.absTick) && !s.safeN

/-- Level that a ball assigned to a port's compare output drives (R237, R497): active low under OUT_POL, and inactive
where OUT_BALL names another ball. -/
def State.pcBall (s : State) (n q b : Nat) : Bool :=
  (s.pcOut n q && s.rf (R.EQ_PC_CFG n q) 11 8 == b) != s.rb (R.EQ_PC_CFG n q) 30

/-- A write to EQ_PC_CTRL: DISARM wins. -/
def State.pcCtrlWrite (s : State) (n q : Nat) (v : Word) : State :=
  if bit v 30 then s.setPcState n q 0
  else if bit v 31 ∧ s.pcState n q = 0 then s.setPcState n q 1 else s

/-- COMPARE_ARM_PENNANT (R235). -/
def execCompareArmPennant (n : Fin 16) (q : Fin 2) (s : State) : Host.Outcome State Fault Refusal :=
  .next (if s.eqOn n.val q.val && s.rb (R.EQ_PC_CFG n.val q.val) 26 && s.pcState n.val q.val == 0 then
    s.setPcState n.val q.val 1 else s)

/-- A dwell is due (R236): no count edge for STILL µs (1,250 ticks each) inside the band. -/
def State.dwellDue (s : State) (n q : Nat) : Bool :=
  let still := s.rf (R.EQ_PC_BAND n q) 31 16
  s.eqOn n q && (s.pcState n q == 1 || s.pcState n q == 2) && s.pcInBand n q && still != 0
    && !s.rb (R.EQ_PC_CTRL n q) 2 && decide ((s.eq n q).still + 1250 * still ≤ s.absTick)

/-- DWELL (R236). -/
def execDwell (n : Fin 16) (q : Fin 2) (s : State) : Host.Outcome State Fault Refusal :=
  .next (if s.dwellDue n.val q.val then
    ((s.setRb (R.EQ_PC_CTRL n.val q.val) 2 true).flag (R.EQ_STATUS n.val q.val) 6).fireEq n.val q.val 4 else s)

/-- The pulse of the compare output has had its WIDTH ticks. -/
def State.pulseOver (s : State) (n q : Nat) : Bool := match (s.eq n q).pulseEnd with
  | some t => decide (t ≤ s.absTick)
  | none => false

/-- COMPARE_PULSE_END (R237): the output becomes inactive when its time has come. -/
def execComparePulseEnd (n : Fin 16) (q : Fin 2) (s : State) : Host.Outcome State Fault Refusal :=
  .next (if s.pulseOver n.val q.val then s.setEq n.val q.val { s.eq n.val q.val with pulseEnd := none } else s)

/-! ### Counting (R225 to R229) -/

/-- Count change of a mode for accepted levels: before (a0, b0), after (a, b). -/
def countChange (mode : Nat) (a0 b0 a b : Bool) : Int :=
  let dir := fun (p : Bool) => if p then (1 : Int) else -1
  match mode with
  | 0 => if a0 != a then dir (a != b) else if b0 != b then dir (a == b) else 0
  | 1 => if a0 != a then dir (a != b) else 0
  | 2 => if a0 != a ∧ b = false then dir a else 0
  | 3 => if a0 = false ∧ a = true then dir (!b) else 0
  | 4 => (if a0 = false ∧ a = true then 1 else 0) - (if b0 = false ∧ b = true then 1 else 0)
  | _ => 0

/-- A phase error (R226). -/
def State.phaseError (s : State) (n q : Nat) : State := (s.flag (R.EQ_STATUS n q) 1).fireEq n q 3

/-- An accepted count edge of `d`, stamped at fine instant `f`. -/
def State.countEdge (s : State) (n q : Nat) (d : Int) (f : Nat) : State :=
  let r := s.eq n q
  let d := if s.rb (R.EQ_CFG n q) 31 then -d else d
  let c := s.reg (R.EQ_COUNT n q)
  let t := s.stampT n f
  let s := (s.setCount n q (c + wOfInt d)).setReg (R.EQ_EDGE_T n q) (lo64 t.toNat)
  let s := match r.lastCount with
    | none => s
    | some l =>
      let p := min 0x7FFFFFFF (f / 64 - l / 64)
      s.setReg (R.EQ_EDGE_PERIOD n q) (wOfInt (if 0 < d then (p : Int) else -(p : Int)))
  let s := s.setEq n q { s.eq n q with lastCount := some f, still := s.absTick }
  (s.setRb (R.EQ_PC_CTRL n q) 2 false).pcTest n q c d t.toNat (stampTickFine f)

/-- Two edges of one ball closer than 4 ticks. -/
def tooClose (last : Option Nat) (f : Nat) : Bool := match last with
  | some l => decide (f < l + 256)
  | none => false

/-- Is the accepted change of ball A (then of ball B) a count edge in a mode (R225)? -/
def countBalls (mode : Nat) (a0 b0 a b : Bool) : Bool × Bool :=
  let d := countChange mode a0 b0 a b
  if d = 0 then (false, false)
  else match mode with
    | 0 => (a0 != a, b0 != b)
    | 4 => (a && !a0, b && !b0)
    | _ => (true, false)

/-- A frame starts at tick 0 of the next beat (R230). -/
def State.ssiStart (s : State) (n q : Nat) : State :=
  let t := s.islandTime n + 4#64
  (s.setReg (R.EQ_SSI_T n q) (lo64 t.toNat)).setEq n q
    { s.eq n q with ssiWait := none, ssiRun := some (s.absTick + 5 - s.clk.tick.val), ssiKeep := none }

/-- The filter of a port has accepted by now a level that came at instant `f` (R226); the port acts in the tick after
(R237). -/
def State.eqAccepts (s : State) (n q f : Nat) : Bool :=
  let cfg := s.reg (R.EQ_CFG n q)
  decide (acceptTick (fld cfg 23 18) (fld cfg 17 14) f < s.absTick)

/-- A ball's filter after its input stands at `level` since `f`, where `accepted` is the level behind it: the first change
is kept, and a return to the accepted level ends the wait. -/
def filterInput (accepted level : Bool) (filt : Option Nat) (f : Nat) : Option Nat :=
  if level = accepted then none else some (filt.getD f)

/-- New levels of A and B reach the filters. -/
def State.encoderInput (s : State) (n q : Nat) (a b : Bool) (f : Nat) : State :=
  let r := s.eq n q
  s.setEq n q { r with filtA := filterInput r.a a r.filtA f, filtB := filterInput r.b b r.filtB f }

/-- The data input of a port that waits for the monoflop has gone high: the frame starts (R230). -/
def State.ssiData (s : State) (n q : Nat) : State :=
  if s.eqMode n q = 5 ∧ (s.eq n q).ssiWait.isSome ∧ (s.eq n q).b = true then s.ssiStart n q else s

/-- The port accepts new levels of A and B, whose inputs changed at `fa` and `fb`. The spacing of R226 is that of the
accepted count edges of one ball. -/
def State.encoderEdge (s : State) (n q : Nat) (a b : Bool) (fa fb : Nat) : State :=
  let r := s.eq n q
  let mode := s.eqMode n q
  let d := countChange mode r.a r.b a b
  let (ea, eb) := countBalls mode r.a r.b a b
  let s := s.setEq n q { r with a := a, b := b }
  if 5 ≤ mode then s.ssiData n q
  else if mode < 3 ∧ r.a ≠ a ∧ r.b ≠ b then s.phaseError n q
  else if (ea && tooClose r.lastA fa) || (eb && tooClose r.lastB fb) then s.phaseError n q
  else if d = 0 then s
  else
    (s.setEq n q { s.eq n q with
      lastA := if ea then some fa else r.lastA, lastB := if eb then some fb else r.lastB }).countEdge n q d
        (if ea then fa else fb)

/-- A level in a ball's filter passes if it has lasted: whether it does, and its instant. -/
def State.filterOut (s : State) (n q : Nat) (filt : Option Nat) : Bool × Nat := match filt with
  | some f => (s.eqAccepts n q f, f)
  | none => (false, s.nowFine)

/-- What the filters of A and B let pass by now. -/
def State.encoderPass (s : State) (n q : Nat) : State :=
  let r := s.eq n q
  let (pa, fa) := s.filterOut n q r.filtA
  let (pb, fb) := s.filterOut n q r.filtB
  if !pa && !pb then s
  else
    (s.setEq n q { r with filtA := if pa then none else r.filtA, filtB := if pb then none else r.filtB }).encoderEdge n q
      (r.a != pa) (r.b != pb) fa fb

/-- ENCODER_EDGE: the inputs A and B stand at these levels since `ago` fine steps. -/
def execEncoderEdge (n : Fin 16) (q : Fin 2) (a b : Bool) (ago : Word) (s : State) :
    Host.Outcome State Fault Refusal :=
  .next (if s.eqOn n.val q.val then
    (s.encoderInput n.val q.val a b (s.nowFine - ago.toNat)).encoderPass n.val q.val else s)

/-- Load the count without a count edge (R229). -/
def State.loadCount (s : State) (n q : Nat) (v : Word) : State := (s.setCount n q v).pcBandTest n q

/-- ENCODER_INDEX (R228). -/
def State.encoderIndex (s : State) (n q : Nat) : State :=
  let cfg := s.reg (R.EQ_CFG n q)
  let r := s.eq n q
  if 5 ≤ s.eqMode n q || (bit cfg 25 && !(r.a && r.b)) then s
  else
    let s := s.setReg (R.EQ_INDEX_COUNT n q) (s.reg (R.EQ_COUNT n q))
    let s := (s.flag (R.EQ_STATUS n q) 4).fireEq n q 0
    match fld cfg 27 26 with
    | 1 =>
      if r.resetNext then
        ((s.setEq n q { s.eq n q with resetNext := false }).setRb (R.EQ_CTRL n q) 30 true).loadCount n q 0#32
      else s
    | 2 => s.loadCount n q 0#32
    | _ => s

/-- ENCODER_INDEX: the filter of Z has accepted a rise. -/
def execEncoderIndex (n : Fin 16) (q : Fin 2) (s : State) : Host.Outcome State Fault Refusal :=
  .next (if s.eqOn n.val q.val then s.encoderIndex n.val q.val else s)

/-! ### Serial frames (R230, R231) -/

/-- A due trigger, with the level of the data input. -/
def State.ssiTrigger (s : State) (n q : Nat) (high : Bool) : State :=
  let r := s.eq n q
  if s.eqMode n q ≠ 5 then s
  else if r.ssiRun.isSome || r.ssiWait.isSome then s.flag (R.EQ_STATUS n q) 3
  else if high then s.ssiStart n q
  else s.setEq n q { r with ssiWait := some s.absTick }

/-- SSI_TRIGGER: a trigger becomes due. One that had arrived has then come. -/
def execSsiTrigger (n : Fin 16) (q : Fin 2) (dataHigh : Bool) (s : State) : Host.Outcome State Fault Refusal :=
  .next (if s.eqOn n.val q.val then
    (s.setEq n.val q.val { s.eq n.val q.val with ssiDue := none }).ssiTrigger n.val q.val dataHigh else s)

/-- SSI_MONOFLOP_END. -/
def execSsiMonoflopEnd (n : Fin 16) (q : Fin 2) (s : State) : Host.Outcome State Fault Refusal :=
  .next (if s.eqOn n.val q.val && s.eqMode n.val q.val == 5 && (s.eq n.val q.val).ssiWait.isSome then
    s.ssiStart n.val q.val else s)

/-- SSI_TIMEOUT: the data input has stayed low for TIMEOUT ticks. -/
def State.ssiTimeout (s : State) (n q : Nat) : State :=
  match (s.eq n q).ssiWait with
  | none => s
  | some t =>
    if s.absTick < t + s.rf (R.EQ_SSI_TRIG n q) 31 16 then s
    else ((s.setEq n q { s.eq n q with ssiWait := none }).flag (R.EQ_STATUS n q) 2).fireEq n q 3

def execSsiTimeout (n : Fin 16) (q : Fin 2) (s : State) : Host.Outcome State Fault Refusal :=
  .next (if s.eqOn n.val q.val then s.ssiTimeout n.val q.val else s)

/-- Binary number of an `n`-bit Gray code. -/
def grayToBinary (n g : Nat) : Nat := (List.range n).foldl (fun a i => a ^^^ (g >>> i)) 0

/-- Position bits of a frame (R231). -/
def ssiBits (cfg : Word) : Nat :=
  let p := max 1 (fld cfg 25 20)
  if 48 < fld cfg 19 15 + p then 48 - fld cfg 19 15 else p

/-- Position in a frame whose sample k is bit 47 - k. -/
def ssiPosition (cfg : Word) (frame : Nat) : Nat :=
  let p := ssiBits cfg
  let v := (frame >>> (48 - fld cfg 19 15 - p)) % 2 ^ p
  if bit cfg 14 then grayToBinary p v else v

/-- EQ_SSI, EQ_CFG and EQ_SSI_CLK of the frame that runs (R65). -/
def State.ssiRegs (s : State) (n q : Nat) : Word × Word × Word :=
  (s.eq n q).ssiKeep.getD (s.reg (R.EQ_SSI n q), s.reg (R.EQ_CFG n q), s.reg (R.EQ_SSI_CLK n q))

/-- Clock edges of a frame: LEN, at most 48, at least as many as the position needs (R231). -/
def ssiEdges (cfg : Word) : Nat := max (min 48 (fld cfg 31 26)) (fld cfg 19 15 + ssiBits cfg)

/-- Tick of the last sample of a frame whose clock falls in tick `t` (R230). -/
def ssiEnd (cfg clk : Word) (t : Nat) : Nat :=
  let d := max 125 (fld clk 15 0)
  t + d / 2 + (ssiEdges cfg - 1) * d + fld cfg 7 0

/-- The frame that runs has taken its last sample. -/
def State.ssiOver (s : State) (n q : Nat) : Bool := match (s.eq n q).ssiRun with
  | none => false
  | some t =>
    let (cfg, _, clk) := s.ssiRegs n q
    decide (ssiEnd cfg clk t ≤ s.absTick)

/-- SSI_FRAME_COMPLETE (R231), once the last sample is taken. A position of more than 32 bits has no stated place in the registers: the values are
open. The stamp of a compare that a frame fires is open too (R237 stamps a count edge). -/
def State.ssiFrame (s : State) (n q : Nat) (frame : Nat) : State :=
  let r := s.eq n q
  if !s.ssiOver n q then s
  else
    let (cfg, port, _) := s.ssiRegs n q
    let p := ssiBits cfg
    let s := s.setEq n q { r with ssiRun := none, ssiKeep := none, ssiFirst := true }
    if 32 < p then
      let (x, s) := s.free
      let (y, s) := s.free
      (((s.setReg (R.EQ_SSI_POS n q) x).setCount n q y).pcBandTest n q).fireEq n q 2
    else
      let pos := ssiPosition cfg frame
      let old := (s.reg (R.EQ_SSI_POS n q)).toNat
      let s := s.setReg (R.EQ_SSI_POS n q) (w32 pos)
      if !r.ssiFirst then ((s.setCount n q (w32 pos)).pcBandTest n q).fireEq n q 2
      else
        let d := sextN p ((pos + 2 ^ 32 - old % 2 ^ p) % 2 ^ p)
        let d := sInt (wOfInt (if bit port 31 then -d else d))
        let c := s.reg (R.EQ_COUNT n q)
        let s := s.setCount n q (c + wOfInt d)
        let (x, s) := s.free
        let (y, s) := s.free
        let (z, s) := s.free
        (s.pcTest n q c d (pair64 x y) (z.toNat % 512)).fireEq n q 2

def execSsiFrameComplete (n : Fin 16) (q : Fin 2) (frame : BitVec 48) (s : State) : Host.Outcome State Fault Refusal :=
  .next (if s.eqOn n.val q.val then s.ssiFrame n.val q.val frame.toNat else s)

/-- A write to EQ_CTRL (R225, R231). -/
def State.eqCtrlWrite (s : State) (n q : Nat) (v : Word) : State :=
  let was := s.rb (R.EQ_CTRL n q) 31
  let s := s.setRb (R.EQ_CTRL n q) 31 (bit v 31)
  if bit v 31 && !was then s.setEq n q { s.eq n q with ssiFirst := false, ssiRun := none, ssiKeep := none, ssiWait := none, ssiDue := none } else s

/-- A frame that is under way keeps the registers that it began with (R65); `o` is the state before. -/
def State.ssiKept (s o : State) (n q : Nat) : EqRec :=
  let r := s.eq n q
  match r.ssiRun with
  | some t => if t < s.absTick then { r with ssiKeep := some (o.ssiRegs n q) } else r
  | none => r

/-- After a change of a port's registers (R65, R228, R231, R238); `o` is the state before. -/
def State.eqChanged (s o : State) (n q : Nat) : State :=
  let cfg := o.reg (R.EQ_CFG n q)
  let now := s.reg (R.EQ_CFG n q)
  let r := s.ssiKept o n q
  let r := if fld now 27 26 = 1 ∧ fld cfg 27 26 ≠ 1 then { r with resetNext := true } else r
  let r := if fld now 30 28 = 5 ∧ fld cfg 30 28 ≠ 5 then { r with ssiFirst := false } else r
  (s.setEq n q r).pcBandTest n q

/-! ### Mark inputs (R240 to R243) -/

/-- The tracked pair of a mark input: engine and word. -/
def State.mkTracked (s : State) (n k : Nat) : Option (Nat × Nat) :=
  let t := s.reg (R.MK_TRACK n k)
  if bit t 31 ∧ fld t 18 16 < 6 ∧ fld t 12 0 ≤ 8190 then some (fld t 18 16, fld t 12 0) else none

/-- A stage's write that covers words `lo … lo + len - 1` of engine `m`'s state memory commits at trigger instant
`t` (R241). -/
def State.mkCommit (s : State) (n m lo len t : Nat) : State :=
  (List.range 4).foldl (fun u k =>
    match u.mkTracked n k with
    | some (e, w) =>
      if e = m ∧ lo ≤ w ∧ w < lo + len then
        let base := 0x40010000 + 0x1000000 * n + 0x20000 * m + 4 * w
        let p := BitVec.ofNat 64 (pair64 (u.mword (base + 4)) (u.mword base))
        let r := u.mark n k
        let cs := match r.commits with
          | (p1, t1) :: rest => if t1 = t then (p, t) :: rest else [(p, t), (p1, t1)]
          | [] => [(p, t)]
        u.setMk n k { r with commits := cs }
      else u
    | none => u) s

/-- Position extrapolated to an instant (R241). -/
def State.mkPosition (s : State) (p0 p1 : BitVec 64) (t0 t1 tm : Nat) : Nat × State :=
  let (v, s) := s.roundDiv ((p1 - p0).toInt * ((tm : Int) - t1)) (t1 - t0)
  (n64OfInt (p1.toNat + v), s)

/-- Instant of a mark: fine for a ball (R184). -/
def markInstant (f src : Nat) : Nat := if src < 0x10 ∨ (0x18 ≤ src ∧ src < 0x1E) then f else f / 64 * 64

/-- The position part of a capture at instant `f`: extrapolated, or stale (R241, R242). An input that tracks no pair has
no commits (DEDUCED, log entry 51). -/
def State.markPosition (s : State) (n k f : Nat) : State :=
  let stale := fun (s : State) => (s.flag (R.MK_STATUS n k) 3).fireMk n k 1
  match (if s.rb (R.MK_TRACK n k) 31 then (s.mark n k).commits else []) with
  | (p1, t1) :: (p0, t0) :: _ =>
    let age := (s.reg (R.MK_AGE n k)).toNat
    if age ≠ 0 ∧ t1 + 64 * age < f then stale s
    else
      let (p, s) := s.mkPosition p0 p1 t0 t1 f
      ((s.setReg (R.MK_POS_LO n k) (lo64 p)).setReg (R.MK_POS_HI n k) (hi64 p)).fireMk n k 0
  | _ => stale s

/-- A port uses one of its balls 0 A, 1 B, 2 Z: Z is free in SSI mode, and a port that stands or counts nothing uses none
(R225, R240). -/
def State.eqUses (s : State) (n q ball : Nat) : Bool :=
  s.rb (R.EQ_CTRL n q) 31 && (decide (s.eqMode n q < 5) || (s.eqMode n q == 5 && decide (ball < 2)))

/-- A source that a mark input can capture (R240). -/
def State.markSource (s : State) (n src : Nat) : Bool :=
  decide (src < 0x18) || (decide (0x40 ≤ src) && decide (src < 0x80))
    || (decide (src < 0x1E) && !s.eqUses n ((src - 0x18) / 3) ((src - 0x18) % 3))

/-- An accepted edge of a mark input whose source changed at instant `f0` (R240 to R243). -/
def State.markCapture (s : State) (n k : Nat) (rise : Bool) (f0 : Nat) : State :=
  let cfg := s.reg (R.MK_CFG n k)
  if !edgeSelected (fld cfg 11 10) rise then s
  else
    let r := s.mark n k
    if r.presc < fld cfg 29 22 then s.setMk n k { r with presc := r.presc + 1 }
    else
      let f := markInstant f0 (fld cfg 9 0)
      if tooClose r.lastCap f then (s.setMk n k { r with presc := 0 }).flag (R.MK_STATUS n k) 2
      else
        let s := if r.consumed then s else s.flag (R.MK_STATUS n k) 1
        let s := s.setMk n k { r with presc := 0, lastCap := some f, consumed := false }
        let cnt := (s.rf (R.MK_SUB n k) 31 16 + 1) % 65536
        let s := s.setReg (R.MK_T n k) (lo64 (s.stampT n f).toNat)
        let s := s.setReg (R.MK_SUB n k) (w32 (65536 * cnt + at_ (b2n rise) 9 + stampTickFine f))
        let s := s.setReg (R.MK_COUNT n k) (s.countAt n (s.rf (R.MK_TRACK n k) 15 15) f)
        s.markPosition n k f

/-- The filter of a mark input accepts by now a level that came at instant `f` (R183, R240). -/
def State.markAccepts (s : State) (n k f : Nat) : Bool :=
  let cfg := s.reg (R.MK_CFG n k)
  decide (acceptTick (fld cfg 17 12) (fld cfg 21 18) f ≤ s.absTick)

/-- An edge of a mark input's source, at instant `f`: accepted if it has lasted as long as the filter asks, else it waits
in the filter; the opposite edge ends that wait. -/
def State.markEdge (s : State) (n k : Nat) (rise : Bool) (f : Nat) : State :=
  let r := s.mark n k
  if !s.rb (R.MK_CFG n k) 31 || !s.markSource n (s.rf (R.MK_CFG n k) 9 0) then s
  else if s.markAccepts n k f then (s.setMk n k { r with filt := none }).markCapture n k rise f
  else match r.filt with
    | some (l, _) => if l = rise then s else s.setMk n k { r with filt := none }
    | none => s.setMk n k { r with filt := some (rise, f) }

/-- MARK_CAPTURE (R240 to R243): an edge of the source, `ago` fine steps before. -/
def execMarkCapture (n : Fin 16) (k : Fin 4) (rise : Bool) (ago : Word) (s : State) :
    Host.Outcome State Fault Refusal :=
  .next (if s.islandRuns n.val && s.beatRuns then s.markEdge n.val k.val rise (s.nowFine - ago.toNat) else s)

/-- The last capture has been read (R243). -/
def State.mkConsume (s : State) (n k : Nat) : State := s.setMk n k { s.mark n k with consumed := true }

/-- After a change of a mark input's registers: enabling restarts counts (R183, R247), a new track discards commits
(R242). -/
def State.mkChanged (s : State) (n k : Nat) (cfg track : Word) : State :=
  let s := if s.rb (R.MK_CFG n k) 31 && !bit cfg 31 then
    (s.setMk n k { s.mark n k with presc := 0, filt := none }).setRf (R.MK_SUB n k) 31 16 0 else s
  let now := s.reg (R.MK_TRACK n k)
  if (bit now 31 && !bit track 31) || fld now 18 16 != fld track 18 16 || fld now 12 0 != fld track 12 0 then
    s.setMk n k { s.mark n k with commits := [] }
  else s

end Sys2Proof.Machine
end

