-- ==== Sys2Proof/Machine/F32.lean ====
section
/-!
DEFINITION. IEEE 754 binary32 arithmetic: operands as exact numbers, one exact result, one rounding at the end. The
engines round to nearest even, read subnormals as zero and flush subnormal results (R83); the cores add the other
rounding modes and subnormals (R294, R305).
-/
namespace Sys2Proof.Machine
open Sys2Proof

/-- A binary32 operand: a NaN (quiet or signalling), an infinity, or (-1)^neg × m × 2^e. -/
inductive Num where
  | nan (signalling : Bool)
  | inf (neg : Bool)
  | fin (neg : Bool) (m : Nat) (e : Int)
deriving DecidableEq, Repr

/-- Read a word as a binary32 number. -/
def numOf (w : Word) : Num :=
  let s := bit w 31
  let x := fld w 30 23
  let f := fld w 22 0
  if x = 255 then (if f = 0 then .inf s else .nan (!bit w 22))
  else if x = 0 then .fin s f (-149)
  else .fin s (f + 2 ^ 23) ((x : Int) - 150)

/-- Read a word as the engines do: a subnormal is a zero of the same sign (R83). -/
def numZ (w : Word) : Num := if fld w 30 23 = 0 then .fin (bit w 31) 0 0 else numOf w

def fNaN (w : Word) : Bool := fld w 30 23 == 255 && fld w 22 0 != 0

def fFinite (w : Word) : Bool := fld w 30 23 != 255

/-- Number of bits of a natural number. -/
def bitLen (n : Nat) : Nat := if n = 0 then 0 else Nat.log2 n + 1

/-- Rounding modes (R294). -/
inductive RMode where
  | nearest | zero | down | up
deriving DecidableEq, Repr

/-- m × 2^e, plus less than 2^e if `sticky`, to a multiple of 2^(e + sh): the quotient and whether it is inexact. -/
def roundShift (rm : RMode) (neg : Bool) (m : Nat) (sh : Int) (sticky : Bool) : Nat × Bool :=
  if sh ≤ 0 then
    let q := m <<< (-sh).toNat
    let inc := sticky && (match rm with | .up => !neg | .down => neg | _ => false)
    (if inc then q + 1 else q, sticky)
  else
    let k := sh.toNat
    let q := m >>> k
    let r := m % 2 ^ k
    let inexact := r != 0 || sticky
    let inc := match rm with
      | .nearest => decide (2 ^ k < 2 * r) || (2 * r == 2 ^ k && (sticky || q % 2 == 1))
      | .zero => false
      | .down => neg && inexact
      | .up => !neg && inexact
    (if inc then q + 1 else q, inexact)

/-- A rounded result with what the core's flags need (R305). -/
structure FRes where
  word : Word
  inexact : Bool
  overflow : Bool
  /-- Inexact and subnormal before, and after, rounding. -/
  tinyBefore : Bool
  tinyAfter : Bool
deriving DecidableEq, Repr

/-- The word of q × 2^e for q up to 2^24, e at least -149, and q at least 2^23 unless e is -149. -/
def packWord (neg : Bool) (q : Nat) (e : Int) : Word :=
  let mag := if q < 2 ^ 23 then q else (e + 150).toNat * 2 ^ 23 + (q - 2 ^ 23)
  w32 (b2n neg * 2 ^ 31 + mag)

/-- Round m × 2^e (and a sticky rest) to binary32 with subnormals. -/
def roundFull (rm : RMode) (neg : Bool) (m : Nat) (e : Int) (sticky : Bool) : FRes :=
  let l := (bitLen m : Int)
  let sh := max (l - 24) (-149 - e)
  let (q, inexact) := roundShift rm neg m sh sticky
  let (qu, _) := roundShift rm neg m (l - 24) sticky
  let tinyB := inexact && decide (l + e ≤ -126)
  let tinyA := inexact && decide (l + e ≤ -126) && !(l + e == -126 && qu == 2 ^ 24)
  if (2 ^ 24 ≤ q ∧ 104 ≤ e + sh) ∨ 105 ≤ e + sh then
    let big := match rm with
      | .nearest => true
      | .zero => false
      | .down => neg
      | .up => !neg
    ⟨w32 (b2n neg * 2 ^ 31 + (if big then 0x7F800000 else 0x7F7FFFFF)), true, true, false, false⟩
  else ⟨packWord neg q (e + sh), inexact, false, tinyB, tinyA⟩

/-- Round as the engines do: to nearest even with an unbounded exponent, then flush what lies below 2^-126 (R83). -/
def roundZ (neg : Bool) (m : Nat) (e : Int) (sticky : Bool) : Word :=
  if m = 0 then w32 (b2n neg * 2 ^ 31)
  else
    let l := (bitLen m : Int)
    let sh := l - 24
    let (q, _) := roundShift .nearest neg m sh sticky
    if (2 ^ 24 ≤ q ∧ 104 ≤ e + sh) ∨ 105 ≤ e + sh then w32 (b2n neg * 2 ^ 31 + 0x7F800000)
    else if e + sh < -150 ∨ (e + sh = -150 ∧ q < 2 ^ 24) then w32 (b2n neg * 2 ^ 31)
    else if e + sh = -150 then packWord neg (2 ^ 23) (-149)
    else packWord neg q (e + sh)

/-! ### Exact operations -/

/-- Signed mantissas of two finite numbers at a common exponent. -/
def alignTwo (n1 : Bool) (m1 : Nat) (e1 : Int) (n2 : Bool) (m2 : Nat) (e2 : Int) : Int × Int × Int :=
  let e := min e1 e2
  let a : Int := (m1 <<< (e1 - e).toNat : Nat)
  let b : Int := (m2 <<< (e2 - e).toNat : Nat)
  (if n1 then -a else a, if n2 then -b else b, e)

/-- Exact sum of two finite numbers: sign, magnitude, exponent. An exact zero has the sign of both operands, else that
of the rounding mode. -/
def sumExact (rm : RMode) (n1 : Bool) (m1 : Nat) (e1 : Int) (n2 : Bool) (m2 : Nat) (e2 : Int) : Bool × Nat × Int :=
  let (a, b, e) := alignTwo n1 m1 e1 n2 m2 e2
  let t := a + b
  if t = 0 then (if n1 = n2 then n1 else rm == .down, 0, 0)
  else (decide (t < 0), t.natAbs, e)

/-- Integer square root, bit by bit from bit `k`. -/
def isqrtFrom (n : Nat) : Nat → Nat → Nat
  | 0, r => r
  | k + 1, r => isqrtFrom n k (if (r + 2 ^ k) * (r + 2 ^ k) ≤ n then r + 2 ^ k else r)

/-- Integer cube root, bit by bit. -/
def icbrtFrom (n : Nat) : Nat → Nat → Nat
  | 0, r => r
  | k + 1, r => icbrtFrom n k (if (r + 2 ^ k) * (r + 2 ^ k) * (r + 2 ^ k) ≤ n then r + 2 ^ k else r)

/-- Quotient of two finite non-zero magnitudes, with at least 26 bits: quotient, exponent, sticky. -/
def quotExact (m1 : Nat) (e1 : Int) (m2 : Nat) (e2 : Int) : Nat × Int × Bool :=
  let n := m1 <<< 60
  (n / m2, e1 - e2 - 60, n % m2 != 0)

/-- Square root of a finite magnitude: root, exponent, sticky. -/
def rootExact (m : Nat) (e : Int) : Nat × Int × Bool :=
  let m' := if e % 2 = 0 then m <<< 60 else m <<< 61
  let r := isqrtFrom m' 64 0
  (r, (e - e % 2 - 60) / 2, r * r != m')

/-- Cube root of a finite magnitude. -/
def cbrtExact (m : Nat) (e : Int) : Nat × Int × Bool :=
  let k := (e % 3).toNat
  let m' := m <<< (90 + k)
  let r := icbrtFrom m' 48 0
  (r, (e - e % 3 - 90) / 3, r * r * r != m')

/-! ### Arithmetic of the loop engines (R83) -/

/-- A NaN that an operation produces: its sign and payload are open. -/
def zNaN (a b : Word) : Word := 0x7FC00000#32 ||| (Config.nanBits a b &&& 0x803FFFFF#32)

def zInf (neg : Bool) : Word := w32 (b2n neg * 2 ^ 31 + 0x7F800000)

/-- An operand as an operation reads it: a subnormal one is zero of its sign. -/
def zRead (a : Word) : Word := if fld a 30 23 = 0 then a &&& 0x80000000#32 else a

def zNeg (a : Word) : Word := zRead a ^^^ 0x80000000#32

def zAbs (a : Word) : Word := zRead a &&& 0x7FFFFFFF#32

def zAdd (a b : Word) : Word :=
  match numZ a, numZ b with
  | .nan _, _ => zNaN a b
  | _, .nan _ => zNaN a b
  | .inf n, .inf k => if n = k then zInf n else zNaN a b
  | .inf n, _ => zInf n
  | _, .inf n => zInf n
  | .fin n1 m1 e1, .fin n2 m2 e2 =>
    let (n, m, e) := sumExact .nearest n1 m1 e1 n2 m2 e2
    roundZ n m e false

def zSub (a b : Word) : Word := zAdd a (zNeg b)

def zMul (a b : Word) : Word :=
  match numZ a, numZ b with
  | .nan _, _ => zNaN a b
  | _, .nan _ => zNaN a b
  | .inf n, .inf k => zInf (n != k)
  | .inf n, .fin k m _ => if m = 0 then zNaN a b else zInf (n != k)
  | .fin k m _, .inf n => if m = 0 then zNaN a b else zInf (n != k)
  | .fin n1 m1 e1, .fin n2 m2 e2 => roundZ (n1 != n2) (m1 * m2) (e1 + e2) false

def zDiv (a b : Word) : Word :=
  match numZ a, numZ b with
  | .nan _, _ => zNaN a b
  | _, .nan _ => zNaN a b
  | .inf _, .inf _ => zNaN a b
  | .inf n, .fin k _ _ => zInf (n != k)
  | .fin n _ _, .inf k => w32 (b2n (n != k) * 2 ^ 31)
  | .fin n1 m1 e1, .fin n2 m2 e2 =>
    if m2 = 0 then (if m1 = 0 then zNaN a b else zInf (n1 != n2))
    else if m1 = 0 then w32 (b2n (n1 != n2) * 2 ^ 31)
    else
      let (q, e, st) := quotExact m1 e1 m2 e2
      roundZ (n1 != n2) q e st

def zSqrt (a : Word) : Word :=
  match numZ a with
  | .nan _ => zNaN a a
  | .inf n => if n then zNaN a a else zInf false
  | .fin n m e =>
    if m = 0 then w32 (b2n n * 2 ^ 31)
    else if n then zNaN a a
    else
      let (r, x, st) := rootExact m e
      roundZ false r x st

/-- Cube root, rounded to nearest (R144 names the power 1/3). -/
def zCbrt (a : Word) : Word :=
  match numZ a with
  | .nan _ => zNaN a a
  | .inf n => zInf n
  | .fin n m e =>
    if m = 0 then w32 (b2n n * 2 ^ 31)
    else
      let (r, x, st) := cbrtExact m e
      roundZ n r x st

/-- a < b; false with a NaN. -/
def zLt (a b : Word) : Bool :=
  match numZ a, numZ b with
  | .nan _, _ => false
  | _, .nan _ => false
  | .inf n, .inf k => n && !k
  | .inf n, .fin _ _ _ => n
  | .fin _ _ _, .inf k => !k
  | .fin n1 m1 e1, .fin n2 m2 e2 =>
    let (x, y, _) := alignTwo n1 m1 e1 n2 m2 e2
    decide (x < y)

/-- a = b as numbers; false with a NaN. -/
def zEq (a b : Word) : Bool := !fNaN a && !fNaN b && !zLt a b && !zLt b a

def zLe (a b : Word) : Bool := zLt a b || zEq a b

/-- minNum and maxNum of IEEE 754. -/
def zMin (a b : Word) : Word := zRead (if fNaN a then b else if fNaN b then a else if zLt b a then b else a)

def zMax (a b : Word) : Word := zRead (if fNaN a then b else if fNaN b then a else if zLt a b then b else a)

/-- sat(x, lo, hi) (R127): a NaN gives the lower limit. -/
def zSat (x lo hi : Word) : Word := zMin (zMax x lo) hi

/-- Sign: -1, 0 or 1, as a signal; 0 of a NaN. -/
def zSign (a : Word) : Word :=
  if zLt 0#32 a then 0x3F800000#32 else if zLt a 0#32 then 0xBF800000#32 else 0#32

/-! ### Conversions -/

/-- i × 2^e, rounded to a signal. -/
def zOfScaled (i : Int) (e : Int) : Word := if i = 0 then 0#32 else roundZ (decide (i < 0)) i.natAbs e false

/-- A natural number as a signal. -/
def zOfNat (n : Nat) : Word := zOfScaled n 0

/-- A position or a difference of positions in turns (R119). -/
def zOfTurns (p : Int) : Word := zOfScaled p (-32)

/-- A signal times 2^k, rounded to the nearest integer, ties to even; 0 of a non-finite one (R127). -/
def zToScaled (a : Word) (k : Nat) : Int :=
  match numZ a with
  | .fin n m e =>
    let (q, _) := roundShift .nearest n m (-(e + k)) false
    if n then -(q : Int) else q
  | _ => 0

/-- wrap(x): the fractional part of a signal in turns, as an angle. -/
def zToAngle (a : Word) : Word := wOfInt (zToScaled a 32)

/-- Greatest integer not above a finite signal. -/
def zFloor (a : Word) : Int :=
  match numZ a with
  | .fin n m e =>
    let v : Int := if n then -(m : Int) else m
    if 0 ≤ e then v * 2 ^ e.toNat else v / 2 ^ (-e).toNat
  | _ => 0

/-! ### Sine, cosine, arctangent (R130) -/

/-- 2π in units of 2^-64. -/
def twoPi64 : Int := 115904311329233965478

/-- Terms of a sine or cosine series: `t` in units of 2^-64, divided by the next two integers from `k`. -/
def seriesTerms (x2 : Int) : Nat → Nat → Int → Int
  | 0, _, _ => 0
  | f + 1, k, t => t + seriesTerms x2 f (k + 2) (-(t * x2 / 2 ^ 64) / (k * (k + 1)))

/-- Sine of a quarter turn's part `x` (units of 2^-32 turn, at most 2^30), in units of 2^-64. -/
def sinQuarter (x : Nat) : Int :=
  let r := (x : Int) * twoPi64 / 2 ^ 32
  let x2 := r * r / 2 ^ 64
  seriesTerms x2 16 2 r

/-- Exact sine of an angle to some 2^-58, in units of 2^-64. -/
def sinRef (a : Word) : Int :=
  let q := fld a 31 30
  let x := fld a 29 0
  match q with
  | 0 => sinQuarter x
  | 1 => sinQuarter (2 ^ 30 - x)
  | 2 => -sinQuarter x
  | _ => -sinQuarter (2 ^ 30 - x)

/-- A finite signal in units of 2^-64, rounded down. -/
def zTo64 (a : Word) : Int :=
  match numZ a with
  | .fin n m e =>
    let v : Int := if n then -(m : Int) else m
    if -64 ≤ e then v * 2 ^ (e + 64).toNat else v / 2 ^ (-64 - e).toNat
  | _ => 0

/-- 2.4 × 10^-7 in units of 2^-64. -/
def trigBound : Int := 4427218577691

/-- The device's value where it lies within the bound of R130, else the nearest signal. -/
def withinTrig (ref : Int) (raw : Word) : Word :=
  if fFinite raw ∧ (fld raw 30 23 ≠ 0 ∨ fld raw 22 0 = 0) ∧ (zTo64 raw - ref).natAbs ≤ trigBound.toNat then raw
  else zOfScaled ref (-64)

/-- Sine of an angle (R130). -/
def zSin (a : Word) : Word := withinTrig (sinRef a) (Config.sinRaw a)

/-- Cosine of an angle (R130). -/
def zCos (a : Word) : Word := withinTrig (sinRef (a + 0x40000000#32)) (Config.cosRaw a)

/-- Arctangents of 2^-i in units of 2^-64 turn. -/
def atanTable : List Int :=
  [2305843009213693952, 1361218612134873190, 719230530580881038, 365092647525521947, 183254791493294829,
   91716730292036216, 45869556482713130, 22936177926750895, 11468263948075831, 5734153847876408, 2867079658191483,
   1433540170878135] ++
  [716770128161890, 358385069421298, 179192535378193, 89596267772540, 44798133896700, 22399066949654,
   11199533474990, 5599766737515, 2799883368760, 1399941684380, 699970842190, 349985421095] ++
  [174992710548, 87496355274, 43748177637, 21874088818, 10937044409, 5468522205, 2734261102, 1367130551, 683565276,
   341782638, 170891319, 85445659] ++
  [42722830, 21361415, 10680707, 5340354, 2670177, 1335088, 667544, 333772, 166886, 83443, 41722, 20861]

/-- Rotate (x, y) onto the axis; the angle turned, in units of 2^-64 turn. -/
def vectoring : Nat → List Int → Int → Int → Int → Int
  | _, [], _, _, z => z
  | i, t :: r, x, y, z =>
    if y < 0 then vectoring (i + 1) r (x - y / 2 ^ i) (y + x / 2 ^ i) (z - t)
    else vectoring (i + 1) r (x + y / 2 ^ i) (y - x / 2 ^ i) (z + t)

/-- Exact angle of (x, y) with x, y integers not both 0, in units of 2^-64 turn. -/
def angleRef (y x : Int) : Int :=
  let l := max (bitLen x.natAbs) (bitLen y.natAbs)
  let sc := fun (v : Int) => if 96 < l then v / 2 ^ (l - 96) else v * 2 ^ (96 - l)
  let xs := sc x
  let ys := sc y
  if xs < 0 then 2 ^ 63 + vectoring 0 atanTable (-xs) (-ys) 0 else vectoring 0 atanTable xs ys 0

/-- atan2 of two finite signals as an angle, within 16 units of the exact one; atan2(0, 0) is 0 (R130). -/
def zAtan2 (a b : Word) : Word :=
  match numZ a, numZ b with
  | .fin n1 m1 e1, .fin n2 m2 e2 =>
    if m1 = 0 ∧ m2 = 0 then 0#32
    else
      let (y, x, _) := alignTwo n1 m1 e1 n2 m2 e2
      let ref := angleRef y x
      let raw := Config.atanRaw a b
      let d := ((raw.toNat : Int) * 2 ^ 32 - ref + 2 ^ 63) % 2 ^ 64 - 2 ^ 63
      if d.natAbs ≤ 16 * 2 ^ 32 then raw else wOfInt ((ref + 2 ^ 31) / 2 ^ 32)
  | _, _ => 0#32

end Sys2Proof.Machine
end

