-- ==== Sys2Proof/Machine/StageLaws.lean ====
section
/-!
DEFINITION. Laws of the stage library (R117 to R136, R139): what one instance of a stage computes from its inputs,
parameters and state. Each operation of a law is rounded as it stands, from left to right (log entry 16).
-/
namespace Sys2Proof.Machine
open Sys2Proof

/-- What one instance of a stage reads: its number, the header's FLAGS, the words a, b, P, S, and whether its HOLD
condition holds (R126). -/
structure LawIn where
  k : Nat
  flags : Nat
  a : List Word
  b : List Word
  p : List Word
  st : List Word
  hold : Bool
deriving DecidableEq, Repr

/-- What one instance of a stage writes: its outputs, its state, and whether a non-finite value occurred (R127). -/
structure LawOut where
  u : List Word
  st : List Word
  bad : Bool
deriving DecidableEq, Repr

def LawIn.A (x : LawIn) (i : Nat) : Word := x.a.getD i 0
def LawIn.B (x : LawIn) (i : Nat) : Word := x.b.getD i 0
def LawIn.P (x : LawIn) (i : Nat) : Word := x.p.getD i 0
def LawIn.S (x : LawIn) (i : Nat) : Word := x.st.getD i 0

/-- Stage flag `i`. -/
def LawIn.flag (x : LawIn) (i : Nat) : Bool := x.flags.testBit i

/-- Position in words lo, hi (R119), as a 64-bit number. -/
def posOf (lo hi : Word) : BitVec 64 := BitVec.ofNat 64 (pair64 hi lo)

/-- Words of a position. -/
def posWords (p : BitVec 64) : List Word := [lo64 p.toNat, hi64 p.toNat]

/-- Position plus an integer number of 2^-32 turns. -/
def posAdd (p : BitVec 64) (d : Int) : BitVec 64 := p + BitVec.ofInt 64 d

/-- A non-finite signal occurs in a list. -/
def anyBad (l : List Word) : Bool := l.any (fun w => !fFinite w)

/-- A state word keeps its previous value rather than a non-finite one (R127). -/
def keepF (old new : Word) : Word := if fFinite new then new else old

def zOne : Word := 0x3F800000#32
def zHalf : Word := 0x3F000000#32
def zTwo : Word := 0x40000000#32
def zThree : Word := 0x40400000#32
/-- The square root of 3, and its half. -/
def zRoot3 : Word := 0x3FDDB3D7#32
def zHalfRoot3 : Word := 0x3F5DB3D7#32

/-- The integer word that INIT takes. -/
def initDone : Word := 1#32

/-- Root of the sum of two squares. -/
def zHypot (a b : Word) : Word := zSqrt (zAdd (zMul a a) (zMul b b))

/-- An integer quotient num / den rounded to nearest even (R83). -/
def divNearest (num : Int) (den : Nat) : Int :=
  let q := num / (den : Int)
  let r := num % (den : Int)
  if 2 * r < den then q else if (den : Int) < 2 * r then q + 1 else if q % 2 = 0 then q else q + 1

/-- Difference of two angles by serial arithmetic; half a turn reads as plus half a turn (R118). -/
def angleDiff (a b : Word) : Int := if a - b = 0x80000000#32 then 2 ^ 31 else sInt (a - b)

/-! ### Input stages (R129) -/

/-- 0x10: u0 = P0 × (c − P1) on the code of a converter latch. -/
def lawConverterScaling (x : LawIn) : LawOut :=
  let c := if x.flag 8 then sextN 16 (fld (x.A 0) 15 0) else (fld (x.A 0) 15 0 : Int)
  let u := zMul (x.P 0) (zSub (zOfScaled c 0) (x.P 1))
  ⟨[u], [], anyBad [u]⟩

/-- 0x11: the same law on a signed filter result. -/
def lawSigmaDelta (x : LawIn) : LawOut :=
  let u := zMul (x.P 0) (zSub (zOfScaled (sInt (x.A 0)) 0) (x.P 1))
  ⟨[u], [], anyBad [u]⟩

/-- 0x12: encoder decode. A count per turn of 0 leaves the position open. -/
def lawEncoderDecode (x : LawIn) : LawOut :=
  let d := if x.S 3 = 0#32 then 0 else sInt (x.A 0 - x.S 0)
  let n := posAdd (posOf (x.S 1) (x.S 2)) d
  let den := (x.P 0).toNat
  let pos := if den = 0 then
      [Config.openResult 0x12 0 (lo64 n.toNat) (hi64 n.toNat), Config.openResult 0x12 1 (lo64 n.toNat) (hi64 n.toNat)]
    else posWords (BitVec.ofInt 64 (divNearest (n.toInt * 2 ^ 32) den))
  let v := zMul (x.P 1) (zOfScaled d 0)
  ⟨pos ++ [v], x.A 0 :: posWords n ++ [initDone], anyBad [v]⟩

/-- 0x13: sin/cos interpolation. -/
def lawSinCosInterpolation (x : LawIn) : LawOut :=
  let s := zSub (x.A 0) (x.P 1)
  let c := zMul (x.P 3) (zSub (x.A 1) (x.P 2))
  let phi := zAtan2 s c
  let prev := if x.S 3 = 0#32 then phi else x.S 0
  let d := angleDiff phi prev
  let m := posOf (x.S 1) (x.S 2)
  let m := if 0 < d ∧ phi.toNat < prev.toNat then m + 1 else if d < 0 ∧ prev.toNat < phi.toNat then m - 1 else m
  let den := (x.P 0).toNat
  let pos := if den = 0 then [Config.openResult 0x13 0 phi s, Config.openResult 0x13 1 phi c]
    else posWords (BitVec.ofInt 64 (divNearest (m.toInt * 2 ^ 32 + phi.toNat) den))
  let r := zHypot s c
  ⟨pos ++ [r], phi :: posWords m ++ [initDone], anyBad [s, c, r]⟩

/-- 0x14: resolver demodulation. -/
def lawResolver (x : LawIn) : LawOut :=
  let th := x.S 0
  let r := zHypot (x.A 0) (x.A 1)
  let e := zDiv (zSub (zMul (x.A 0) (zCos th)) (zMul (x.A 1) (zSin th))) r
  let w := zAdd (x.S 1) (zMul (x.P 1) e)
  let dth := zMul (zAdd w (zMul (x.P 0) e)) (x.P 2)
  let th' := th + zToAngle dth
  ⟨[th', w, r], [th', keepF (x.S 1) w], anyBad [r, e, w, dth]⟩

/-! ### Transforms (R130) -/

/-- 0x20: Clarke; TWO_IN in flag 0, ZERO in flag 1. -/
def lawClarke (x : LawIn) : LawOut :=
  let a := x.A 0
  let b := x.A 1
  let c := x.A 2
  let al := if x.flag 0 then zRead a else zDiv (zSub (zSub (zMul zTwo a) b) c) zThree
  let be := if x.flag 0 then zDiv (zAdd a (zMul zTwo b)) zRoot3 else zDiv (zSub b c) zRoot3
  let u := [al, be] ++ (if x.flag 1 then [zDiv (zAdd (zAdd a b) c) zThree] else [])
  ⟨u, [], anyBad u⟩

/-- Phase voltages of a vector (inverse Clarke). -/
def phasesOf (al be : Word) : List Word :=
  let h := zDiv (zNeg al) zTwo
  let q := zMul zHalfRoot3 be
  [zRead al, zAdd h q, zSub h q]

/-- 0x21: inverse Clarke. -/
def lawInverseClarke (x : LawIn) : LawOut :=
  let u := phasesOf (x.A 0) (x.A 1)
  ⟨u, [], anyBad u⟩

/-- The electrical angle of Park and inverse Park: P1 × b0 + P0 modulo 2^32; P1 = 0 acts as 1. -/
def parkAngle (x : LawIn) : Word := (if x.P 1 = 0#32 then 1#32 else x.P 1) * x.B 0 + x.P 0

/-- 0x22: Park; SC_OUT in flag 0. -/
def lawPark (x : LawIn) : LawOut :=
  let c := zCos (parkAngle x)
  let s := zSin (parkAngle x)
  let u := [zAdd (zMul (x.A 0) c) (zMul (x.A 1) s), zAdd (zMul (zNeg (x.A 0)) s) (zMul (x.A 1) c)]
    ++ (if x.flag 0 then [c, s] else [])
  ⟨u, [], anyBad u⟩

/-- 0x23: inverse Park. -/
def lawInversePark (x : LawIn) : LawOut :=
  let c := zCos (parkAngle x)
  let s := zSin (parkAngle x)
  let u := [zSub (zMul (x.A 0) c) (zMul (x.A 1) s), zAdd (zMul (x.A 0) s) (zMul (x.A 1) c)]
  ⟨u, [], anyBad u⟩

/-- 0x24: sine and cosine. -/
def lawSinCos (x : LawIn) : LawOut := ⟨[zSin (x.A 0), zCos (x.A 0)], [], false⟩

/-- 0x25: atan2. -/
def lawAtan2 (x : LawIn) : LawOut := ⟨[zAtan2 (x.A 0) (x.B 0)], [], anyBad [x.A 0, x.B 0]⟩

/-- 0x26: magnitude; THREE in flag 0. -/
def lawMagnitude (x : LawIn) : LawOut :=
  let q := zAdd (zMul (x.A 0) (x.A 0)) (zMul (x.A 1) (x.A 1))
  let q := if x.flag 0 then zAdd q (zMul (x.A 2) (x.A 2)) else q
  let u := zSqrt q
  ⟨[u], [], anyBad [q, u]⟩

/-! ### Regulators (R126, R131) -/

/-- State of a regulator after an execution: kept or cleared while it holds (R126). -/
def regState (x : LawIn) (new : List Word) : List Word :=
  if x.hold then (if x.flags.testBit 11 then x.st.map (fun _ => 0#32) else x.st) else new

/-- Set-point minus measurement, or the set-point alone with ERR. -/
def regError (x : LawIn) (meas : Word) : Word := if x.flag 0 then zRead (x.A 0) else zSub (x.A 0) meas

/-- 0x30: PI with back-calculation; DQ in flag 1. The DQ form with LANES other than 1 runs LANES + 1 instances, of which
instance 0 is the d axis and every other one a q axis (DESIGN CHOICE; log entry 102). -/
def lawPi (x : LawIn) : LawOut :=
  let dq := x.flag 1
  let q := dq && x.k != 0
  let o := if q then 5 else 0
  let meas := if q then x.B 1 else x.B 0
  let e := regError x meas
  let v := zAdd (zMul (x.P o) e) (x.S 0)
  let v := if dq then
      (if q then zAdd v (zMul (x.B 2) (zAdd (zMul (x.P 10) (x.B 0)) (x.P 12)))
       else zSub v (zMul (zMul (x.B 2) (x.P 11)) (x.B 1)))
    else v
  let u := zSat v (x.P (o + 3)) (x.P (o + 4))
  let i := zAdd (zAdd (x.S 0) (zMul (x.P (o + 1)) e)) (zMul (x.P (o + 2)) (zSub u v))
  ⟨[u], regState x [keepF (x.S 0) i], anyBad [e, v, u, i]⟩

/-- 0x31: PID with filtered derivative; DERIV_ON_ERROR in flag 0. -/
def lawPid (x : LawIn) : LawOut :=
  let e := regError x (x.B 0)
  let m := if x.flag 0 then e else zRead (x.B 0)
  let prev := if x.S 3 = 0#32 then m else x.S 2
  let d := zAdd (zMul (x.P 3) (x.S 1)) (zMul (x.P 2) (zSub m prev))
  let v := zAdd (zAdd (zMul (x.P 0) e) (x.S 0)) d
  let u := zSat v (x.P 5) (x.P 6)
  let i := zAdd (zAdd (x.S 0) (zMul (x.P 1) e)) (zMul (x.P 4) (zSub u v))
  ⟨[u], regState x [keepF (x.S 0) i, keepF (x.S 1) d, keepF (x.S 2) m, initDone], anyBad [e, m, d, v, u, i]⟩

/-- 0x32: two-degree-of-freedom PI. Its law names b0, with ERR too. -/
def lawTwoDof (x : LawIn) : LawOut :=
  let e := zSub (x.A 0) (x.B 0)
  let v := zAdd (zMul (x.P 0) (zSub (zMul (x.P 1) (x.A 0)) (x.B 0))) (x.S 0)
  let u := zSat v (x.P 4) (x.P 5)
  let i := zAdd (zAdd (x.S 0) (zMul (x.P 2) e)) (zMul (x.P 3) (zSub u v))
  ⟨[u], regState x [keepF (x.S 0) i], anyBad [e, v, u, i]⟩

/-- 0x33: proportional-resonant; FLAGS[1:0] are the number of harmonics less 1, and FLAGS[0] is ERR (log entry 17). -/
def lawResonant (x : LawIn) : LawOut :=
  let h := x.flags % 4 + 1
  let e := regError x (x.B 0)
  let r := fun i => zSub (zSub (zAdd (zAdd (zMul (x.P (3 + 5 * i)) e) (zMul (x.P (4 + 5 * i)) (x.S 0)))
    (zMul (x.P (5 + 5 * i)) (x.S 1))) (zMul (x.P (6 + 5 * i)) (x.S (2 + 2 * i)))) (zMul (x.P (7 + 5 * i)) (x.S (3 + 2 * i)))
  let v := (List.range h).foldl (fun acc i => zAdd acc (r i)) (zMul (x.P 0) e)
  let u := zSat v (x.P 1) (x.P 2)
  let rs := (List.range h).flatMap (fun i =>
    if zEq u v then [keepF (x.S (2 + 2 * i)) (r i), x.S (2 + 2 * i)] else [x.S (2 + 2 * i), x.S (3 + 2 * i)])
  ⟨[u], regState x ([keepF (x.S 0) e, x.S 0] ++ rs), anyBad [e, v, u]⟩

/-- 0x34: lead-lag. -/
def lawLeadLag (x : LawIn) : LawOut :=
  let v := zSub (zAdd (zMul (x.P 0) (x.A 0)) (zMul (x.P 1) (x.S 0))) (zMul (x.P 2) (x.S 1))
  let u := zSat v (x.P 3) (x.P 4)
  ⟨[u], regState x [keepF (x.S 0) (zRead (x.A 0)), keepF (x.S 1) u], anyBad [x.A 0, v, u]⟩

/-! ### Filters (R132) -/

/-- 0x40: first-order low-pass. -/
def lawLowPass (x : LawIn) : LawOut :=
  let y := zAdd (x.S 0) (zMul (x.P 0) (zSub (x.A 0) (x.S 0)))
  ⟨[y], [keepF (x.S 0) y], anyBad [y]⟩

/-- A biquad in transposed direct form II with coefficients b0, b1, b2, a1, a2. -/
def biquad (x : LawIn) (b0 b1 b2 a1 a2 : Word) : LawOut :=
  let u := zAdd (zMul b0 (x.A 0)) (x.S 0)
  let s1 := zAdd (zSub (zMul b1 (x.A 0)) (zMul a1 u)) (x.S 1)
  let s2 := zSub (zMul b2 (x.A 0)) (zMul a2 u)
  ⟨[u], [keepF (x.S 0) s1, keepF (x.S 1) s2], anyBad [u, s1, s2]⟩

/-- 0x41: biquad. -/
def lawBiquad (x : LawIn) : LawOut := biquad x (x.P 0) (x.P 1) (x.P 2) (x.P 3) (x.P 4)

/-- 0x42: notch; TRACK in flag 0. -/
def lawNotch (x : LawIn) : LawOut :=
  let c := if x.flag 0 then x.B 0 else x.P 0
  biquad x (x.P 3) (zMul (zMul (x.P 3) (x.P 2)) c) (zMul (x.P 3) (zMul (x.P 2) (x.P 2))) (zMul (x.P 1) c)
    (zMul (x.P 1) (x.P 1))

/-- 0x43: moving average over N = P0; the sum is taken again from the buffer each time the index wraps. N = 0 leaves
the output open. -/
def lawMovingAverage (x : LawIn) : LawOut :=
  let n := (x.P 0).toNat
  if n = 0 then ⟨[Config.openResult 0x43 0 (x.A 0) 0], x.st, false⟩
  else
    let i := (x.S 1).toNat % n
    let sum := zAdd (zSub (x.S 0) (x.S (2 + i))) (x.A 0)
    let hist := (x.st.drop 2).set i (keepF (x.S (2 + i)) (x.A 0))
    let wrap := decide (i + 1 = n)
    let total := if wrap then (hist.take n).foldl zAdd 0#32 else sum
    let u := zMul (zDiv zOne (zOfNat n)) (if wrap && fFinite (x.A 0) then total else sum)
    ⟨[u], [keepF (x.S 0) total, w32 (if wrap then 0 else i + 1)] ++ hist, anyBad [x.A 0, sum, u]⟩

/-! ### Observers (R133) -/

/-- 0x50: speed observer; FF in flag 0. -/
def lawSpeedObserver (x : LawIn) : LawOut :=
  let p := posOf (x.A 0) (x.A 1)
  if x.S 3 = 0#32 then ⟨0#32 :: posWords p, posWords p ++ [0#32, initDone], false⟩
  else
    let ph := posOf (x.S 0) (x.S 1)
    let w := x.S 2
    let e := zOfTurns (p - ph).toInt
    let inc := zMul (zAdd w (zMul (x.P 0) e)) (x.P 2)
    let ph' := posAdd ph (zToScaled inc 32)
    let w' := zAdd w (zMul (x.P 1) e)
    let w' := if x.flag 0 then zAdd w' (zMul (zMul (x.P 3) (x.B 0)) (x.P 2)) else w'
    ⟨w' :: posWords ph', posWords ph' ++ [keepF w w', initDone], anyBad [inc, w']⟩

/-- 0x51: flux observer. The correction target uses the rotor flux of the stored stator flux; the outputs use that of
the new one. -/
def lawFluxObserver (x : LawIn) : LawOut :=
  let step := fun (ps v i pr mag : Word) =>
    let target := if zEq mag 0#32 then 0#32 else zAdd (zDiv (zMul (x.P 4) pr) mag) (zMul (x.P 3) i)
    zSub (zAdd ps (zMul (x.P 1) (zSub v (zMul (x.P 0) i)))) (zMul (zMul (x.P 1) (x.P 2)) (zSub ps target))
  let ra := zSub (x.S 0) (zMul (x.P 3) (x.A 2))
  let rb := zSub (x.S 1) (zMul (x.P 3) (x.A 3))
  let mag := zHypot ra rb
  let sa := step (x.S 0) (x.A 0) (x.A 2) ra mag
  let sb := step (x.S 1) (x.A 1) (x.A 3) rb mag
  let na := zSub sa (zMul (x.P 3) (x.A 2))
  let nb := zSub sb (zMul (x.P 3) (x.A 3))
  let r := zHypot na nb
  ⟨[zAtan2 nb na, r], [keepF (x.S 0) sa, keepF (x.S 1) sb], anyBad [sa, sb, na, nb, r]⟩

/-- 0x52: synchronous-frame PLL; NORM in flag 0. -/
def lawPll (x : LawIn) : LawOut :=
  let th := x.S 0
  let c := zCos th
  let s := zSin th
  let vd := zAdd (zMul (x.A 0) c) (zMul (x.A 1) s)
  let vq := zAdd (zMul (zNeg (x.A 0)) s) (zMul (x.A 1) c)
  let vq := if x.flag 0 then zDiv vq (zHypot (x.A 0) (x.A 1)) else vq
  let w := zAdd (zAdd (x.P 3) (zMul (x.P 0) vq)) (x.S 1)
  let om := zSat w (x.P 4) (x.P 5)
  let i := if zEq w om then zAdd (x.S 1) (zMul (x.P 1) vq) else x.S 1
  let inc := zMul om (x.P 2)
  let th' := th + zToAngle inc
  ⟨[th', om, vd], [th', keepF (x.S 1) i], anyBad [vd, vq, w, om, i, inc]⟩

/-! ### Limits (R134) -/

def flagWord (b : Bool) : Word := if b then zOne else 0#32

/-- 0x60: saturate; DYN in flag 0, FLAG_OUT in flag 3. -/
def lawSaturate (x : LawIn) : LawOut :=
  let u := if x.flag 0 then zSat (x.A 0) (x.B 0) (x.B 1) else zSat (x.A 0) (x.P 0) (x.P 1)
  ⟨[u] ++ (if x.flag 3 then [flagWord (!zEq u (x.A 0))] else []), [], anyBad [x.A 0, u]⟩

/-- 0x61: rate limit. -/
def lawRateLimit (x : LawIn) : LawOut :=
  let u := if x.S 1 = 0#32 then zRead (x.A 0) else zAdd (x.S 0) (zSat (zSub (x.A 0) (x.S 0)) (zNeg (x.P 0)) (x.P 1))
  ⟨[u], [keepF (x.S 0) u, initDone], anyBad [x.A 0, u]⟩

/-- 0x62: circular dq limit; MODE in flags 1:0, DYN in flag 2, FLAG_OUT in flag 3. -/
def lawCircularLimit (x : LawIn) : LawOut :=
  let l := if x.flag 2 then zMul (x.P 0) (x.B 0) else x.P 0
  let r := zHypot (x.A 0) (x.A 1)
  let rest := fun (u : Word) => zSqrt (zSub (zMul l l) (zMul u u))
  let out := if zLe r l then [zRead (x.A 0), zRead (x.A 1)]
    else match x.flags % 4 with
      | 1 =>
        let d := zSat (x.A 0) (zNeg l) l
        [d, zSat (x.A 1) (zNeg (rest d)) (rest d)]
      | 2 =>
        let q := zSat (x.A 1) (zNeg l) l
        [zSat (x.A 0) (zNeg (rest q)) (rest q), q]
      | _ => [zMul (x.A 0) (zDiv l r), zMul (x.A 1) (zDiv l r)]
  ⟨out ++ (if x.flag 3 then [flagWord (!zLe r l)] else []), [], anyBad (r :: l :: out)⟩

/-! ### Modulation (R135) -/

/-- The DC-link voltage, not below its floor P2. -/
def linkVoltage (x : LawIn) : Word := if zLt (x.B 0) (x.P 2) then x.P 2 else x.B 0

/-- A duty before its clamp. -/
def dutyRaw (num vdc : Word) : Word := zAdd zHalf (zDiv num vdc)

/-- A duty clamped to [P0, P1]. -/
def dutyOf (x : LawIn) (num vdc : Word) : Word := zSat (dutyRaw num vdc) (x.P 0) (x.P 1)

/-- 0x70: sine-triangle. -/
def lawSineTriangle (x : LawIn) : LawOut :=
  let l := [x.A 0, x.A 1, x.A 2]
  let vdc := linkVoltage x
  let u := l.map (fun v => dutyOf x v vdc)
  ⟨u, [], anyBad (u ++ l ++ l.map (fun v => dutyRaw v vdc) ++ [x.B 0])⟩

/-- Greatest and least of three words. -/
def max3 (l : List Word) : Word := zMax (zMax (l.getD 0 0) (l.getD 1 0)) (l.getD 2 0)
def min3 (l : List Word) : Word := zMin (zMin (l.getD 0 0) (l.getD 1 0)) (l.getD 2 0)

/-- Sector of a reference, 1 to 6: sector k spans 60(k−1) to 60k degrees, its lower edge included; the zero vector
lies in sector 1. -/
def sectorOf (al be : Word) : Nat :=
  match numZ al, numZ be with
  | .fin n1 m1 e1, .fin n2 m2 e2 =>
    let (a, b, _) := alignTwo n1 m1 e1 n2 m2 e2
    let d := b * b - 3 * (a * a)
    if 0 ≤ b then
      if b = 0 then (if a < 0 then 4 else 1)
      else if 0 < a ∧ d < 0 then 1
      else if a < 0 ∧ d ≤ 0 then 3 else 2
    else if a < 0 ∧ d < 0 then 4
    else if 0 < a ∧ d ≤ 0 then 6 else 5
  | _, _ => 1

/-- 0x71: space-vector; SECTOR in flag 0. -/
def lawSpaceVector (x : LawIn) : LawOut :=
  let v := phasesOf (x.A 0) (x.A 1)
  let mid := zDiv (zAdd (max3 v) (min3 v)) zTwo
  let vdc := linkVoltage x
  let u := v.map (fun w => dutyOf x (zSub w mid) vdc)
  ⟨u ++ (if x.flag 0 then [zOfNat (sectorOf (x.A 0) (x.A 1))] else []), [],
    anyBad (u ++ v ++ v.map (fun w => dutyRaw (zSub w mid) vdc) ++ [x.B 0])⟩

/-- Of three phases, one of largest magnitude; which of several equal ones is open. -/
def largestPhase (v : List Word) : Nat :=
  let l := (List.range 3).filter (fun i => (List.range 3).all (fun j => zLe (zAbs (v.getD j 0)) (zAbs (v.getD i 0))))
  l.getD ((Config.openResult 0x72 0 (v.getD 0 0) (v.getD 1 0)).toNat % max 1 l.length) 0

/-- 0x72: discontinuous; VARIANT in flag 0. -/
def lawDiscontinuous (x : LawIn) : LawOut :=
  let al := x.A 0
  let be := x.A 1
  let v := phasesOf al be
  let m := largestPhase (if x.flag 0 then
    phasesOf (zAdd (zMul zHalfRoot3 al) (zMul zHalf be)) (zSub (zMul zHalfRoot3 be) (zMul zHalf al)) else v)
  let vdc := linkVoltage x
  let vm := v.getD m 0
  let v0 := zSub (zDiv (zMul (zSign vm) vdc) zTwo) vm
  let u := v.map (fun w => dutyOf x (zAdd w v0) vdc)
  ⟨u, [], anyBad (u ++ v ++ v.map (fun w => dutyRaw (zAdd w v0) vdc) ++ [v0, x.B 0])⟩

/-- 0x73: three-level NPC. -/
def lawNpc (x : LawIn) : LawOut :=
  let v := phasesOf (x.A 0) (x.A 1)
  let vdc := linkVoltage x
  let mid := zDiv (zAdd (max3 v) (min3 v)) zTwo
  let half := zDiv vdc zTwo
  let v0 := zSat (zSub (zNeg mid) (zMul (x.P 3) (x.B 1))) (zSub (zNeg half) (min3 v)) (zSub half (max3 v))
  let rs := v.map (fun w => zDiv (zMul zTwo (zAdd w v0)) vdc)
  let u := rs.flatMap (fun r => [zSat (zMax r 0#32) (x.P 0) (x.P 1), zSat (zMax (zNeg r) 0#32) (x.P 0) (x.P 1)])
  ⟨u, [], anyBad (u ++ v ++ rs ++ [v0, zSub (zNeg mid) (zMul (x.P 3) (x.B 1)), x.B 0, x.B 1])⟩

/-- Unit normal of the hexagon's side in sector k: 30 degrees and every 60 from there. -/
def sideNormal (k : Nat) : Word × Word :=
  match k with
  | 1 => (zHalfRoot3, zHalf)
  | 2 => (0#32, zOne)
  | 3 => (zNeg zHalfRoot3, zHalf)
  | 4 => (zNeg zHalfRoot3, zNeg zHalf)
  | 5 => (0#32, zNeg zOne)
  | _ => (zHalfRoot3, zNeg zHalf)

/-- 0x74: overmodulation. A mode other than 0 and 1 leaves the limited reference open. -/
def lawOvermodulation (x : LawIn) : LawOut :=
  let al := x.A 0
  let be := x.A 1
  let vdc := linkVoltage x
  let v := phasesOf al be
  let span := zSub (max3 v) (min3 v)
  let inside := zLe span vdc
  let (nx, ny) := sideNormal (sectorOf al be)
  let ap := zDiv vdc zRoot3
  let t := zSat (zSub (zMul be nx) (zMul al ny)) (zNeg (zDiv vdc zThree)) (zDiv vdc zThree)
  let out := if inside then [zRead al, zRead be]
    else match (x.P 3).toNat with
      | 0 => [zMul al (zDiv vdc span), zMul be (zDiv vdc span)]
      | 1 => [zSub (zMul ap nx) (zMul t ny), zAdd (zMul ap ny) (zMul t nx)]
      | _ => [Config.openResult 0x74 0 al be, Config.openResult 0x74 1 al be]
  let idx := zDiv (zMul (zHypot al be) zRoot3) vdc
  ⟨out ++ [idx], [], anyBad (out ++ [al, be, idx, x.B 0])⟩

/-! ### Compensation (R136) -/

/-- 0x80: dead-time; TWO_I in flag 0. -/
def lawDeadTime (x : LawIn) : LawOut :=
  let i := [x.B 0, x.B 1, if x.flag 0 then zSub (zNeg (x.B 0)) (x.B 1) else x.B 2]
  let u := (List.range 3).map (fun j =>
    let c := i.getD j 0
    let d := if zLe (x.P 1) (zAbs c) then zMul (x.P 0) (zSign c) else zDiv (zMul (x.P 0) c) (x.P 1)
    zSat (zAdd (x.A j) d) 0#32 zOne)
  ⟨u, [], anyBad (u ++ i ++ [x.A 0, x.A 1, x.A 2])⟩

/-- 0x81: DC-link. -/
def lawDcLink (x : LawIn) : LawOut :=
  let u := zDiv (zMul (x.A 0) (x.P 0)) (zMax (x.B 0) (x.P 1))
  ⟨[u], [], anyBad [u, x.A 0, x.B 0]⟩

/-- 0x82: dq feed-forward decoupling. -/
def lawDecoupling (x : LawIn) : LawOut :=
  let u := [zSub (x.B 0) (zMul (zMul (x.A 2) (x.P 1)) (x.A 1)),
    zAdd (x.B 1) (zMul (x.A 2) (zAdd (zMul (x.P 0) (x.A 0)) (x.P 2)))]
  ⟨u, [], anyBad u⟩

/-! ### Utilities (R139) -/

/-- 0xA2: move. -/
def lawMove (x : LawIn) : LawOut := ⟨[x.A 0], [], false⟩

/-- 0xA3: affine; USE_B in flag 0, CONV in flags 2:1. -/
def lawAffine (x : LawIn) : LawOut :=
  let conv := x.flags / 2 % 4
  let a := match conv with
    | 2 => zOfScaled (x.A 0).toNat (-32)
    | 3 => zOfTurns (posOf (x.A 0) (x.A 1) - posOf (x.B 0) (x.B 1)).toInt
    | _ => x.A 0
  let v := zMul (x.P 0) a
  let v := if x.flag 0 && conv != 3 then zAdd v (zMul (x.P 1) (x.B 0)) else v
  let v := zAdd v (x.P 2)
  ⟨[if conv = 1 then zToAngle v else v], [], anyBad [v]⟩

/-- 0xA4: 256-point table T; CYCLIC in flag 0. -/
def tableLaw (x : LawIn) (t : Nat → Word) : LawOut :=
  if x.flag 0 then
    let i := fld (x.A 0) 31 24
    let f := zOfScaled (fld (x.A 0) 23 0) (-24)
    let n := t ((i + 1) % 256)
    let u := zAdd (t i) (zMul f (zSub n (t i)))
    ⟨[u], [], anyBad [u]⟩
  else
    let r := zMul (zSub (x.A 0) (x.P 1)) (x.P 2)
    let q := zSat r 0#32 (zOfNat 255)
    let i := (zFloor q).toNat
    let u := if i = 255 then t 255
      else zAdd (t i) (zMul (zSub q (zOfNat i)) (zSub (t (i + 1)) (t i)))
    ⟨[u], [], anyBad [x.A 0, r, u]⟩

/-- 0xA5: compare and select; OP in flags 2:0, CONST in flag 3. CONST does not touch min and max. -/
def lawCompareSelect (x : LawIn) : LawOut :=
  let a := x.A 0
  let b := x.B 0
  let sel := fun (c : Bool) => zRead (if x.flag 3 then (if c then x.P 0 else x.P 1) else if c then a else b)
  let u := match x.flags % 8 with
    | 0 => sel (zLt a b)
    | 1 => sel (zLe a b)
    | 2 => sel (zLt b a)
    | 3 => sel (zLe b a)
    | 4 => sel (zEq a b)
    | 5 => sel (!zEq a b)
    | 6 => zMin a b
    | _ => zMax a b
  ⟨[u], [], anyBad [a, b, u]⟩

end Sys2Proof.Machine
end

