-- ==== Sys2Proof/Machine/StageMotion.lean ====
section
/-!
DEFINITION. Laws of the motion, predictive and tuning stages (R137 to R139, R143 to R158, R239).
-/
namespace Sys2Proof.Machine
open Sys2Proof

/-- A decimal constant as a signal. -/
def zRat (num den : Nat) : Word :=
  let (q, e, st) := quotExact num 0 den 0
  roundZ false q e st

/-! ### Shaper (R143 to R146) -/

/-- Largest speed from which an axis stops within `d` (R144). -/
def vstop (amax jmax d : Word) : Word :=
  if zLe d (zDiv (zMul (zMul amax amax) amax) (zMul jmax jmax)) then zCbrt (zMul jmax (zMul d d))
  else
    let a2 := zMul amax amax
    zAdd (zDiv (zNeg a2) (zMul zTwo jmax))
      (zSqrt (zAdd (zDiv (zMul a2 a2) (zMul (zOfNat 4) (zMul jmax jmax))) (zMul (zMul zTwo amax) d)))

/-- A parameter of the shaper that is usable: finite and above zero. -/
def positive (w : Word) : Bool := fFinite w && zLt 0#32 w

/-- A shaper's output: position, velocity, acceleration, flags. -/
def shaperOut (p : BitVec 64) (v a : Word) (flags : Nat) (bad : Bool) : LawOut :=
  ⟨posWords p ++ [v, a], posWords p ++ [v, a, w32 flags], bad⟩

/-- An output p, v, a that equals the target. -/
def shaperAt (vel : Bool) (target : BitVec 64) (a0 : Word) (p : BitVec 64) (v a : Word) : Bool :=
  zEq a 0#32 && (if vel then zEq v a0 else p == target && zEq v 0#32)

/-- LIMITED and AT_TARGET after an execution that gives p, v, a; `at_` says that it landed, or that the output equalled
the target before it. -/
def shaperFlags (vel at_ : Bool) (target : BitVec 64) (a0 : Word) (p : BitVec 64) (v a : Word) : Nat :=
  b2n (!shaperAt vel target a0 p v a) + 4 * b2n at_

/-- 0x90: one execution of the shaper; VEL in flag 0. -/
def lawShaper (x : LawIn) : LawOut :=
  let vel := x.flag 0
  let p := posOf (x.S 0) (x.S 1)
  let v := x.S 2
  let a := x.S 3
  let target := posOf (x.A 0) (x.A 1)
  let vmax := x.P 0
  let amax := x.P 1
  let j := x.P 2
  let ts := x.P 3
  let a0 := if vel && !fFinite (x.A 0) then 0#32 else x.A 0
  let badIn := (vel && !fFinite (x.A 0)) || anyBad [vmax, amax, j, ts]
  let already := shaperAt vel target a0 p v a
  if !(positive vmax && positive amax && positive j && positive ts) then
    shaperOut p v a (8 + shaperFlags vel already target a0 p v a) badIn
  else
    let jt := zMul j ts
    let jtt := zMul jt ts
    let e := zOfTurns (target - p).toInt
    let vgoal := if vel then zSat a0 (zNeg vmax) vmax else zMul (zSign e) (zMin vmax (vstop amax j (zAbs e)))
    let land := if vel then zLe (zAbs (zSub vgoal v)) jtt && zLe (zAbs a) jt
      else zLe (zAbs e) (zMul jtt ts) && zLe (zAbs v) jtt && zLe (zAbs a) jt
    if land then
      let p' := if vel then posAdd p (zToScaled (zMul vgoal ts) 32) else target
      let v' := if vel then vgoal else 0#32
      shaperOut p' v' 0#32 (shaperFlags vel true target a0 p' v' 0#32) badIn
    else
      let vfree := zAdd v (zDiv (zMul a (zAbs a)) (zMul zTwo j))
      let aim := if !zEq a 0#32 && zSign (zSub vgoal vfree) != zSign a then 0#32
        else zMul (zSign (zSub vgoal v)) amax
      let jk := zSat (zDiv (zSub aim a) ts) (zNeg j) j
      let t2 := zMul ts ts
      let a' := zAdd a (zMul jk ts)
      let v' := zAdd (zAdd v (zMul a ts)) (zDiv (zMul jk t2) zTwo)
      let inc := zAdd (zAdd (zMul v ts) (zDiv (zMul a t2) zTwo)) (zDiv (zMul jk (zMul t2 ts)) (zOfNat 6))
      let p' := posAdd p (zToScaled inc 32)
      let v2 := keepF v v'
      let a2 := keepF a a'
      let rev := !zEq v 0#32 && zSign v != zSign vgoal
      let fl := shaperFlags vel already target a0 p' v2 a2 + 2 * b2n rev
      ⟨posWords p' ++ [v', a'], posWords p' ++ [v2, a2, w32 fl], badIn || anyBad [inc, v', a']⟩

/-! ### Cam (R147 to R151) -/

/-- The master cycle as a number of 2^-32 turns, where P2 is usable (R147). -/
def camCycle (p2 : Word) : Option Nat :=
  if positive p2 && zLt p2 (zOfNat 32768) then
    let c := (zToScaled p2 32).toNat
    if c = 0 then none else some c
  else none

/-- Engagement state in S4. -/
def camEngaged (s4 : Word) : Nat := fld s4 2 1

/-- The cam's tracking of its master: origin, cycle count, phase and whether a boundary passed (R147). -/
structure CamTrack where
  origin : BitVec 64
  count : Word
  phase : Word
  boundary : Bool
deriving DecidableEq, Repr

/-- Track the master position with cycle `c`. -/
def camTrack (c : Nat) (st : List Word) (master : BitVec 64) : CamTrack :=
  let fresh := (st.getD 4 0).getLsbD 0 = false
  let o := if fresh then master else posOf (st.getD 0 0) (st.getD 1 0)
  let n := if fresh then 0#32 else st.getD 3 0
  let d := (master - o).toInt
  let k := d / (c : Int)
  ⟨posAdd o (k * c), n + wOfInt k, zOfTurns (d - k * c), k != 0⟩

/-- The curve C(x) and its derivative, by the table (R148). A table of no points leaves them open. -/
def camCurve (n : Nat) (cycle x : Word) (t : Nat → Word) : Word × Word :=
  if n = 0 then (Config.openResult 0x91 0 cycle x, Config.openResult 0x91 1 cycle x)
  else
    let h := zDiv cycle (zOfNat n)
    let u := zDiv x h
    let i := (zFloor u).toNat
    let f := zSub u (zOfNat i)
    let pt := fun (k : Nat) => t (k % n)
    let m := fun (k : Nat) => zDiv (zSub (pt (k + 1)) (pt (k + n - 1))) zTwo
    let f2 := zMul f f
    let f3 := zMul f2 f
    let two := fun (w : Word) => zMul zTwo w
    let three := fun (w : Word) => zMul zThree w
    let six := fun (w : Word) => zMul (zOfNat 6) w
    let c := zAdd (zAdd (zAdd (zMul (zAdd (zSub (two f3) (three f2)) zOne) (pt i))
      (zMul (zAdd (zSub f3 (two f2)) f) (m i)))
      (zMul (zAdd (zMul (zNeg zTwo) f3) (three f2)) (pt (i + 1))))
      (zMul (zSub f3 f2) (m (i + 1)))
    let d := zAdd (zAdd (zAdd (zMul (zSub (six f2) (six f)) (pt i))
      (zMul (zAdd (zSub (three f2) (zMul (zOfNat 4) f)) zOne) (m i)))
      (zMul (zAdd (zMul (zNeg (zOfNat 6)) f2) (six f)) (pt (i + 1))))
      (zMul (zSub (three f2) (two f)) (m (i + 1)))
    (c, zDiv d h)

/-- 0x91: the cam after its tracking, with the parameters in force; `prevO` and S7 give the master's last position and
`o` the present contents of the output words. -/
def camLaw (x : LawIn) (tr : CamTrack) (prevO : BitVec 64) (o : List Word) (t : Nat → Word) : LawOut :=
  let master := posOf (x.A 0) (x.A 1)
  let was := camEngaged (x.S 4)
  let engage := x.flag 0
  let p0 := posOf (o.getD 0 0) (o.getD 1 0)
  let st := fun (travel : Word) (e : Nat) (start : BitVec 64) =>
    posWords tr.origin ++ [travel, tr.count, w32 (1 + 2 * e + 8 * b2n tr.boundary)] ++ posWords start ++ [tr.phase]
  let start := posOf (x.S 5) (x.S 6)
  if !engage then ⟨[], st (x.S 2) 0 start, false⟩
  else
    let (c, c') := camCurve (x.P 1).toNat (x.P 2) tr.phase t
    let lift := zMul (x.P 3) c
    let vel := zMul (x.P 3) c'
    let tout := posAdd (posOf (x.P 5) (x.P 6)) (zToScaled lift 32)
    if was = 2 ∨ (was = 0 ∧ zEq (x.P 4) 0#32) then
      ⟨posWords tout ++ [vel], st (if was = 0 then 0#32 else x.S 2) 2 (if was = 0 then p0 else start),
        anyBad [lift, vel]⟩
    else
      let start := if was = 0 then p0 else start
      let travel := if was = 0 then 0#32
        else zAdd (x.S 2) (zSub (zOfTurns (master - prevO).toInt) (x.S 7))
      let l := zSat (zDiv travel (x.P 4)) 0#32 zOne
      let l2 := zMul l l
      let l3 := zMul l2 l
      let l4 := zMul l3 l
      let l5 := zMul l4 l
      let k := fun (n : Nat) (w : Word) => zMul (zOfNat n) w
      let s := zAdd (zSub (k 10 l3) (k 15 l4)) (k 6 l5)
      let ds := zAdd (zSub (k 30 l2) (k 60 l3)) (k 30 l4)
      let diff := zOfTurns (tout - start).toInt
      let u := posAdd start (zToScaled (zMul s diff) 32)
      let u2 := zAdd (zMul s vel) (zDiv (zMul ds diff) (x.P 4))
      ⟨posWords u ++ [u2], st (keepF (x.S 2) travel) (if zEq l zOne then 2 else 1) start, anyBad [lift, travel, u2]⟩

/-- The cam under an unusable cycle: PARAM, and nothing else (R147). -/
def camParam (x : LawIn) : LawOut :=
  ⟨[], x.st.set 4 ((x.S 4 &&& 7#32) ||| 16#32), anyBad [x.P 2]⟩

/-! ### Gearing (R152) -/

/-- 0x92: gearing. A denominator of 0 leaves the position open. -/
def lawGearing (x : LawIn) : LawOut :=
  let master := posOf (x.A 0) (x.A 1)
  let o := if x.S 3 = 0#32 then master else posOf (x.S 0) (x.S 1)
  let den := (x.P 1).toNat
  let num := sInt (x.P 0) * (master - o).toInt
  if den = 0 then
    ⟨[Config.openResult 0x92 0 (x.A 0) (x.A 1), Config.openResult 0x92 1 (x.A 0) (x.A 1)],
      posWords o ++ [x.S 2, initDone], false⟩
  else
    ⟨posWords (posAdd (posOf (x.P 2) (x.P 3)) (num / (den : Int))),
      posWords o ++ [wOfInt (num % (den : Int)), initDone], false⟩

/-! ### Position-compare arm (R239) -/

/-- Does a change of position from `c` by `d` cross `p`? -/
def crosses64 (c p : BitVec 64) (d : Int) : Bool :=
  if 0 < d then decide (0 < (p - c).toNat) && decide (((p - c).toNat : Int) ≤ d)
  else if d < 0 then decide (0 < (c - p).toNat) && decide (((c - p).toNat : Int) ≤ -d)
  else false

/-- 0x93: the sampled compare. S2 holds 0 before the first execution, 1 ARMED, 2 BAND, 3 DISARMED (log entry 18); the
second component says that it fires. -/
def compareArmLaw (x : LawIn) : LawOut × Bool :=
  let pos := posOf (x.A 0) (x.A 1)
  let pt := posOf (x.P 0) (x.P 1)
  let st := (x.S 2).toNat
  let last := if st = 0 then pos else posOf (x.S 0) (x.S 1)
  let d := (pos - last).toInt
  let inBand := !zLt (x.P 2) (zAbs (zOfTurns (pos - pt).toInt))
  let out := fun (u : Nat) (s : Nat) => (⟨[zOfNat u], posWords pos ++ [w32 s], false⟩ : LawOut)
  match st with
  | 2 => if inBand then (out 2 2, false) else (out 0 1, false)
  | 3 => (out 3 3, false)
  | _ =>
    let qual := match x.flags % 4 with
      | 1 => decide (0 < d)
      | 2 => decide (d < 0)
      | _ => true
    if crosses64 last pt d && qual then (out 1 (if x.flag 2 then 2 else 3), true)
    else if inBand ∧ d = 0 ∧ st ≠ 0 then (out 2 1, false)
    else (out 0 1, false)

/-! ### FCS-MPC (R138) -/

/-- Levels of the three legs of a state, doubled: a two-level leg counts 0 or 2, an NPC leg −1, 0 or 1. -/
def legsOf (variant s : Nat) : List Int :=
  if variant = 2 then [((s % 3 : Nat) : Int) - 1, ((s / 3 % 3 : Nat) : Int) - 1, ((s / 9 % 3 : Nat) : Int) - 1]
  else [2 * ((s % 2 : Nat) : Int), 2 * ((s / 2 % 2 : Nat) : Int), 2 * ((s / 4 % 2 : Nat) : Int)]

/-- Number of states of a variant. -/
def fcsStates (variant : Nat) : Nat := if variant = 2 then 27 else 8

/-- Voltage of a state. -/
def fcsVoltage (variant s : Nat) (vdc : Word) : Word × Word :=
  let l := legsOf variant s
  let la := l.getD 0 0
  let lb := l.getD 1 0
  let lc := l.getD 2 0
  (zDiv (zMul vdc (zOfScaled (2 * la - lb - lc) (-1))) zThree, zDiv (zMul vdc (zOfScaled (lb - lc) (-1))) zRoot3)

/-- Prediction across one period. -/
def fcsPredict (x : LawIn) (variant s : Nat) (i : Word × Word) : Word × Word :=
  let (va, vb) := fcsVoltage variant s (x.B 2)
  (zAdd (zMul (x.P 0) i.1) (zMul (x.P 1) (zSub va (x.A 2))), zAdd (zMul (x.P 0) i.2) (zMul (x.P 1) (zSub vb (x.A 3))))

/-- Applied state of a candidate. -/
def fcsFirst (variant j : Nat) : Nat := if variant = 1 then j / 8 else j

/-- Cost of a candidate, and whether a predicted current exceeds the limit. -/
def fcsCost (x : LawIn) (variant s0 j : Nat) (i1 : Word × Word) : Word × Bool :=
  let s1 := fcsFirst variant j
  let ia := fcsPredict x variant s1 i1
  let ib := if variant = 1 then fcsPredict x variant (j % 8) ia else ia
  let above := zLt (x.P 5) (zHypot ia.1 ia.2) || zLt (x.P 5) (zHypot ib.1 ib.2)
  let ea := zSub (x.B 0) ib.1
  let eb := zSub (x.B 1) ib.2
  let legs := ((legsOf variant s1).zip (legsOf variant s0)).countP (fun p => p.1 != p.2)
  let c := zAdd (zAdd (zMul ea ea) (zMul eb eb)) (zMul (x.P 2) (zOfNat legs))
  if variant = 2 then
    let ph := phasesOf i1.1 i1.2
    let np := ((legsOf 2 s1).zip ph).foldl (fun acc q => if q.1 = 0 then zAdd acc q.2 else acc) 0#32
    (zAdd c (zMul (x.P 3) (zAbs (zAdd (x.A 4) (zMul (x.P 4) np)))), above)
  else (c, above)

/-- The least finite cost, lowest index first. -/
def leastCost (l : List (Nat × Word)) : Option (Nat × Word) :=
  l.foldl (fun acc c => if !fFinite c.2 then acc else match acc with
    | none => some c
    | some b => if zLt c.2 b.2 then some c else some b) none

/-- 0xA0: the whole evaluation; VARIANT in flags 1:0. Without a finite cost the least cost written is open. -/
def lawFcs (x : LawIn) : LawOut :=
  let variant := x.flags % 4
  let s0 := (x.S 0).toNat % fcsStates variant
  let i1 := fcsPredict x variant s0 (x.A 0, x.A 1)
  let n := if variant = 1 then 64 else fcsStates variant
  let costs := (List.range n).map (fun j => (j, fcsCost x variant s0 j i1))
  let all := costs.all (fun c => c.2.2)
  let costs := (costs.filter (fun c => all || !c.2.2)).map (fun c => (c.1, c.2.1))
  let win := leastCost costs
  let s := match win with
    | some (j, _) => fcsFirst variant j
    | none => s0
  let cost := match win with
    | some (_, c) => c
    | none => Config.openResult 0xA0 0 (x.A 0) (x.A 1)
  let legs := legsOf variant s
  let u := if variant = 2 then legs.flatMap (fun l => [flagWord (l == 1), flagWord (l == -1)])
    else legs.map (fun l => flagWord (l == 2))
  ⟨u ++ [cost], [w32 s, match win with | some (j, _) => w32 j | none => x.S 1], win.isNone⟩

/-! ### Relay auto-tune (R154 to R158) -/

/-- π. -/
def zPi : Word := 0x40490FDB#32

/-- A START that R156 refuses. -/
def tuneRefused (x : LawIn) : Bool :=
  zLe (x.P 0) 0#32 || zLt (x.P 1) 0#32 || decide ((x.P 3).toNat < 2) || decide (64 < (x.P 3).toNat) || x.P 4 == 0#32
    || zLe (x.P 5) 0#32 || zLe (x.P 6) 0#32 || decide (2 < fld (x.S 0) 7 4)

/-- S1 with a new state, cause and rule. -/
def tuneStatus (s1 : Word) (state cause rule : Nat) : Word :=
  setFld s1 15 0 (at_ cause 8 + at_ rule 4 + state)

/-- Results at the close: amplitude, Kd, Tu, Ku, Kp, Ki × Ts (R156, R157). -/
def tuneGains (x : LawIn) (amp : Word) (span : Nat) : List Word :=
  let tu := zDiv (zMul (zOfNat span) (x.P 5)) (zOfNat (x.P 3).toNat)
  let ku := zDiv (zMul (zOfNat 4) (x.P 0)) (zMul zPi amp)
  let (kp, ki, kd) := match fld (x.S 1) 7 4 with
    | 0 => (zMul (zRat 45 100) ku, zDiv (zMul (zRat 54 100) ku) tu, 0#32)
    | 1 => (zMul (zRat 6 10) ku, zDiv (zMul (zRat 12 10) ku) tu, zMul (zMul (zRat 75 1000) ku) tu)
    | _ => (zMul (zRat 3125 10000) ku, zDiv (zMul (zRat 142045 1000000) ku) tu, 0#32)
  [amp, kd, tu, ku, kp, zMul ki (x.P 5)]

/-- Results at the close as state words (R127): one that is not finite leaves its word. -/
def tuneKeep (x : LawIn) (l : List Word) : List Word :=
  (List.range l.length).map (fun i => keepF (x.S (6 + i)) (l.getD i 0))

/-- One execution of a running experiment; `first` marks the one that started it, `cancel` a CANCEL command, `lost` a
discarded trigger. -/
def tuneRun (x : LawIn) (relay first cancel lost : Bool) : LawOut × Bool :=
  let a := x.A 0
  let s3 := if first then 0 else (x.S 3).toNat + 1
  let relay := if first then !zLt a 0#32 else relay
  let flip := if relay then zLt a (zNeg (x.P 1)) else zLt (x.P 1) a
  let n := (if first then 0 else (x.S 2).toNat) + b2n flip
  let relay' := relay != flip
  let rising := flip && relay'
  -- the relay's first level was high exactly if it is high now after an even number of switches
  let rises := if relay' == (n % 2 == 0) then n / 2 else (n + 1) / 2
  let goal := 3 + (x.P 3).toNat
  let closes := rising && rises == goal
  let opens := rising && rises == 3
  let s4 := if opens then s3 else if first then 0 else (x.S 4).toNat
  let s5 := if rising then s3 else if first then 0 else (x.S 5).toNat
  let measuring := decide (3 ≤ rises)
  let hi := keepF (x.S 6) (if opens then zRead a else if measuring then zMax (x.S 6) a else x.S 6)
  let lo := keepF (x.S 7) (if opens then zRead a else if measuring then zMin (x.S 7) a else x.S 7)
  let amp := zDiv (zSub hi lo) zTwo
  let cause :=
    if zLt (x.P 6) (zAbs a) then 1
    else if decide ((x.P 4).toNat ≤ s3) && !closes then 2
    else if (decide (4 ≤ n) && decide (8 * s3 < (s3 - s5) * n)) || (closes && zEq amp 0#32) then 3
    else if x.hold then 4
    else if cancel then 5
    else if !fFinite a || !fFinite (x.B 0) then 6
    else if lost then 8 else 0
  let s1 := x.S 1
  let rule := fld s1 7 4
  let head := fun (st : Word) => [x.S 0, st, w32 n, w32 s3, w32 s4, w32 s5]
  let bad := anyBad [a, x.B 0]
  if cause ≠ 0 then (⟨[x.B 0], head (tuneStatus s1 3 cause rule) ++ [hi, lo] ++ x.st.drop 8, bad⟩, relay')
  else if closes then
    let gains := tuneGains x amp (s5 - s4)
    (⟨[x.B 0], head (tuneStatus s1 2 0 rule) ++ tuneKeep x gains, bad || anyBad gains⟩, relay')
  else
    let u := if relay' then zAdd (x.P 2) (x.P 0) else zSub (x.P 2) (x.P 0)
    (⟨[u], head s1 ++ [hi, lo] ++ x.st.drop 8, bad || anyBad [u]⟩, relay')

/-- 0xA1: the relay auto-tune stage with the level of its relay; `lost` says that a trigger was discarded since the
execution began, `lostBefore` that one was since the last execution began. -/
def tuneLaw (x : LawIn) (relay lost lostBefore : Bool) : LawOut × Bool :=
  let s0 := x.S 0
  let s1 := x.S 1
  let newCmd := fld s0 31 16 != fld s1 31 16
  let s1 := if newCmd then setFld s1 31 16 (fld s0 31 16) else s1
  let run := fld s1 3 0 == 1
  let pass := fun (s1 : Word) => ((⟨[x.B 0], x.st.set 1 s1, anyBad [x.B 0]⟩ : LawOut), relay)
  if newCmd && fld s0 3 0 == 1 then
    if tuneRefused x then pass (tuneStatus s1 3 7 (fld s0 7 4))
    else tuneRun { x with st := x.st.set 1 (tuneStatus s1 1 0 (fld s0 7 4)) } relay true false lost
  else if run then tuneRun { x with st := x.st.set 1 s1 } relay false (newCmd && fld s0 3 0 == 2) (lost || lostBefore)
  else pass s1

end Sys2Proof.Machine
end

