-- ==== Sys2Proof/Machine/LoopOps.lean ====
section
/-!
DEFINITION. Executions of loop contexts (R88 to R113, R120 to R123): headers and chain errors, operands, outputs, the end
of a chain, swaps at the engine's boundary, retirement.
-/
namespace Sys2Proof.Machine
open Sys2Proof

/-! ### Memories and headers -/

/-- Address of descriptor and parameter word `i`. -/
def descAddr (n m i : Nat) : Nat := 0x40000000 + 0x1000000 * n + 0x20000 * m + 4 * i

/-- Address of state memory word `i`. -/
def stateAddr (n m i : Nat) : Nat := 0x40010000 + 0x1000000 * n + 0x20000 * m + 4 * i

/-- Active copy of a descriptor and parameter word. -/
def State.desc (s : State) (n m i : Nat) : Word := s.mword (descAddr n m i)

/-- A word of the state memory. -/
def State.stateMem (s : State) (n m i : Nat) : Word := s.mword (stateAddr n m i)

/-- A stage header (R120). -/
structure Hdr where
  typ : Nat
  ver : Nat
  lanes : Nat
  flags : Nat
  inA : Nat
  inB : Nat
  out : Nat
  paramOfs : Nat
  stateOfs : Nat
  paramLen : Nat
deriving DecidableEq, Repr

/-- The header in four words. -/
def hdrOf (w0 w1 w2 w3 : Word) : Hdr :=
  { typ := fld w0 7 0, ver := fld w0 11 8, lanes := fld w0 15 12, flags := fld w0 31 16, inA := fld w1 15 0,
    inB := fld w1 31 16, out := fld w2 15 0, paramOfs := fld w2 31 16, stateOfs := fld w3 23 8, paramLen := fld w3 7 0 }

/-- Header at an index of the active copy. -/
def State.header (s : State) (n m i : Nat) : Hdr :=
  hdrOf (s.desc n m (4 * i)) (s.desc n m (4 * i + 1)) (s.desc n m (4 * i + 2)) (s.desc n m (4 * i + 3))

def Hdr.skip (h : Hdr) : Bool := h.flags.testBit 10
def Hdr.perLane (h : Hdr) : Bool := h.flags.testBit 15
def Hdr.flag (h : Hdr) (i : Nat) : Bool := h.flags.testBit i

/-- What one instance of a stage reads, writes and keeps, in words, and the strides of its inputs (R122). -/
structure Form where
  lanes : Bool
  aW : Nat
  aStride : Nat
  bW : Nat
  bStride : Nat
  oW : Nat
  pW : Nat
  sW : Nat
deriving DecidableEq, Repr

/-- A form with as many words between instances as one reads. -/
def form (lanes : Bool) (a b o p s : Nat) : Form := ⟨lanes, a, a, b, b, o, p, s⟩

/-- Form of a header by the stage tables (R129 to R139); `p0` is its first parameter word. Nothing for a header that
names no stage. A Clarke stage with both TWO_IN and ZERO reads three words per instance: the table gives it two, the law of
ZERO names a third (DESIGN CHOICE; log entry 101). -/
def formOf (h : Hdr) (p0 : Word) : Option Form :=
  let err := h.flag 0
  match h.typ with
  | 0x10 => some { form true 1 0 1 2 0 with aStride := max 1 (h.flags % 256) }
  | 0x11 => some { form true 1 0 1 2 0 with aStride := max 1 (h.flags % 256) }
  | 0x12 => some (form false 1 0 3 2 4)
  | 0x13 => some (form false 2 0 3 4 4)
  | 0x14 => some (form false 2 0 3 3 2)
  | 0x20 => some (form true (if h.flag 0 && !h.flag 1 then 2 else 3) 0 (2 + b2n (h.flag 1)) 0 0)
  | 0x21 => some (form true 2 0 3 0 0)
  | 0x22 => some (form true 2 1 (2 + 2 * b2n (h.flag 0)) 2 0)
  | 0x23 => some (form true 2 1 2 2 0)
  | 0x24 => some (form true 1 0 2 0 0)
  | 0x25 => some (form true 1 1 1 0 0)
  | 0x26 => some (form true (2 + b2n (h.flag 0)) 0 1 0 0)
  | 0x30 => if h.flag 1 then some { form true 1 3 1 13 1 with bStride := 0 }
            else some (form true 1 (b2n (!err)) 1 5 1)
  | 0x31 => some (form true 1 (b2n (!err)) 1 7 4)
  | 0x32 => some (form true 1 1 1 6 1)
  | 0x33 => some (form true 1 1 1 (3 + 5 * (h.flags % 4 + 1)) (2 + 2 * (h.flags % 4 + 1)))
  | 0x34 => some (form true 1 0 1 5 2)
  | 0x40 => some (form true 1 0 1 1 1)
  | 0x41 => some (form true 1 0 1 5 2)
  | 0x42 => some (form true 1 (b2n (h.flag 0)) 1 4 2)
  | 0x43 => some (form true 1 0 1 1 (2 + p0.toNat))
  | 0x50 => some (form false 2 (b2n (h.flag 0)) 3 4 4)
  | 0x51 => some (form false 4 0 2 5 2)
  | 0x52 => some (form false 2 0 3 6 2)
  | 0x60 => some (form true 1 (2 * b2n (h.flag 0)) (1 + b2n (h.flag 3)) 2 0)
  | 0x61 => some (form true 1 0 1 2 2)
  | 0x62 => some (form false 2 (b2n (h.flag 2)) (2 + b2n (h.flag 3)) 1 0)
  | 0x70 => some (form false 3 1 3 3 0)
  | 0x71 => some (form false 2 1 (3 + b2n (h.flag 0)) 3 0)
  | 0x72 => some (form false 2 1 3 3 0)
  | 0x73 => some (form false 2 2 6 4 0)
  | 0x74 => some (form false 2 1 3 4 0)
  | 0x80 => some (form false 3 (if h.flag 0 then 2 else 3) 3 2 0)
  | 0x81 => some { form true 1 1 1 2 0 with bStride := 0 }
  | 0x82 => some (form false 3 2 2 3 0)
  | 0x90 => some (form false (if h.flag 0 then 1 else 2) 0 4 4 5)
  | 0x91 => some (form false 2 0 3 7 8)
  | 0x92 => some (form false 2 0 2 4 4)
  | 0x93 => some (form false 2 0 1 3 3)
  | 0xA0 => if h.flags % 4 = 3 then none else some (form false 5 3 (if h.flags % 4 = 2 then 7 else 4) 6 2)
  | 0xA1 => some (form false 1 1 1 7 12)
  | 0xA2 => some (form true 1 0 1 0 0)
  | 0xA3 => some (form true (if h.flags / 2 % 4 = 3 then 2 else 1)
      (if h.flags / 2 % 4 = 3 then 2 else b2n (h.flag 0)) 1 3 0)
  | 0xA4 => some (form true 1 0 1 3 0)
  | 0xA5 => some (form true 1 1 1 2 0)
  | 0xA6 => some (form false 1 0 0 0 1)
  | 0xA7 => some (form false p0.toNat 0 (p0.toNat + b2n (!h.flag 0)) 2 0)
  | 0xA8 => some (form true 1 0 1 3 0)
  | _ => none

/-- Regions of the operand addresses (R88). -/
inductive Region where
  | state | exchange | converter | demod | encoder | mark | duty
deriving DecidableEq, Repr

/-- Region of an operand address; nothing for a reserved one. -/
def regionOf (a : Nat) : Option Region :=
  if a < 0x2000 then some .state
  else if 0x4000 ≤ a ∧ a < 0x8000 then some .exchange
  else if 0x8000 ≤ a ∧ a < 0x8020 then some .converter
  else if 0x8020 ≤ a ∧ a < 0x8028 then some .demod
  else if 0x8040 ≤ a ∧ a < 0x8060 ∧ a % 16 < 6 then some .encoder
  else if 0x8060 ≤ a ∧ a < 0x8070 then some .mark
  else if 0x9000 ≤ a ∧ a < 0xA000 ∧ (a - 0x9000) % 0x400 < 13 then some .duty
  else none

/-- Operand addresses of all instances: `count` instances, `stride` apart, `w` words each. -/
def operandAddrs (base stride w count : Nat) : List Nat :=
  (List.range count).flatMap (fun k => (List.range w).map (fun i => base + k * stride + i))

/-- All addresses lie in the region of the first, none is reserved, and a duty range stays in one unit (R123). -/
def oneRegion (l : List Nat) : Bool :=
  match l with
  | [] => true
  | a :: _ => match regionOf a with
    | none => false
    | some r => l.all (fun b => regionOf b == some r && (r != .duty || (b - 0x9000) / 0x400 == (a - 0x9000) / 0x400))

/-- May a stage of this type name an input in a region (R123)? -/
def inputAllowed (typ : Nat) : Region → Bool
  | .state | .exchange => true
  | .converter => typ == 0x10 || typ == 0xA2
  | .demod => typ == 0x11 || typ == 0xA2
  | .encoder | .mark => typ == 0x12 || typ == 0xA2 || (decide (0x90 ≤ typ) && decide (typ ≤ 0x93))
  | .duty => false

/-- May a stage name an output in a region (R123)? -/
def outputAllowed (typ : Nat) : Region → Bool
  | .state | .exchange => typ != 0xA8
  | .duty => typ == 0xA8
  | _ => false

/-- Instances of a stage. -/
def Hdr.count (h : Hdr) : Nat := h.lanes + 1

/-- Inputs of a list of addresses are allowed. -/
def inputsOk (typ : Nat) (l : List Nat) : Bool :=
  oneRegion l && (match l.head? with
    | none => true
    | some a => match regionOf a with
      | some r => inputAllowed typ r
      | none => false)

/-- Outputs of a list of addresses are allowed. -/
def outputsOk (typ : Nat) (l : List Nat) : Bool :=
  oneRegion l && (match l.head? with
    | none => true
    | some a => match regionOf a with
      | some r => outputAllowed typ r
      | none => false)

/-- Words of a table that a stage reads: where it begins and how many (R123, R137, R139). -/
def tableExtent (h : Hdr) (p0 p1 : Word) : Nat :=
  if h.typ = 0x91 then p0.toNat + p1.toNat else if h.typ = 0xA4 then p0.toNat + 256 else 0

/-- The chain errors of R98 and R123. -/
def chainError (h : Hdr) (p0 p1 : Word) : Bool :=
  h.ver != 1 || (match formOf h p0 with
    | none => true
    | some f =>
      let c := h.count
      (!f.lanes && h.lanes != 0)
        || (h.paramLen != (if h.perLane then c * f.pW else f.pW))
        || (h.typ == 0x30 && h.flag 1 && h.perLane)
        || (h.paramLen != 0 && decide (16384 < h.paramOfs + h.paramLen))
        || decide (16384 < tableExtent h p0 p1)
        || (f.sW != 0 && decide (8192 < h.stateOfs + c * f.sW))
        || decide (16384 < f.aW) || decide (16384 < f.oW)
        || !inputsOk h.typ (operandAddrs h.inA f.aStride f.aW c)
        || !inputsOk h.typ (operandAddrs h.inB f.bStride f.bW c)
        || !outputsOk h.typ (operandAddrs h.out f.oW f.oW c))

/-- First parameter word of a header's stage: with a block for each instance, the largest of them, which bounds the
table and the state of every instance (R121, R123; log entry 99). -/
def State.headP0 (s : State) (n m : Nat) (h : Hdr) : Word :=
  if h.paramLen = 0 then 0#32
  else if h.perLane then
    w32 ((List.range h.count).foldl (fun a k => max a (s.desc n m (h.paramOfs + k * (h.paramLen / h.count))).toNat) 0)
  else s.desc n m h.paramOfs

/-- A header of the active copy is a chain error. -/
def State.headerBad (s : State) (n m : Nat) (h : Hdr) : Bool :=
  chainError h (s.headP0 n m h) (s.desc n m (h.paramOfs + 1))

/-- Chain of a context: first header index and number of headers. -/
def State.chainOf (s : State) (n m c : Nat) : Nat × Nat :=
  (s.rf (R.LE_CTXc_CHAIN n m c) 31 20, s.rf (R.LE_CTXc_CHAIN n m c) 17 12 + 1)

/-- A header of an output stage: its writes leave the engine (R91, R101). -/
def Hdr.isOutput (h : Hdr) : Bool :=
  !h.skip && (h.typ == 0xA6 || h.typ == 0xA8 || h.typ == 0x93 || (h.typ == 0xA7 && h.flag 0)
    || regionOf h.out == some .exchange)

/-- An output stage stands at or after position `i` of a context's chain. -/
def State.outputsLeft (s : State) (n m c i : Nat) : Bool :=
  let (b, l) := s.chainOf n m c
  (List.range l).any (fun k => decide (i ≤ k) && (s.header n m (b + k)).isOutput)

/-! ### Cams and the engine's swap (R65, R150) -/

/-- Headers of cam stages in the chains of an engine, with their contexts. -/
def State.cams (s : State) (n m : Nat) : List (Nat × Nat) :=
  (List.range 8).flatMap (fun c =>
    let (b, l) := s.chainOf n m c
    ((List.range l).filter (fun k => (s.header n m (b + k)).typ == 0x91)).map (fun k => (c, b + k)))

/-- A context that runs its cams: enabled, or part way through its last execution (R93). -/
def State.ctxLive (s : State) (n m c : Nat) : Bool := s.ctxOn n m c || s.partWay n m c

/-- Shadow of a descriptor word. -/
def State.descShadow (s : State) (n m i : Nat) : Word := s.shadow (descAddr n m i)

/-- A header as the shadows hold it. -/
def State.stagedHeader (s : State) (n m i : Nat) : Hdr :=
  hdrOf (s.descShadow n m (4 * i)) (s.descShadow n m (4 * i + 1)) (s.descShadow n m (4 * i + 2))
    (s.descShadow n m (4 * i + 3))

/-- Word `w` lies in a table that a cam's active or staged P0 and P1 name. -/
def State.camTableHas (s : State) (n m hdr w : Nat) : Bool :=
  let inT := fun (p0 p1 : Word) => decide (p0.toNat ≤ w) && decide (w < p0.toNat + p1.toNat)
  let p := (s.header n m hdr).paramOfs
  let q := (s.stagedHeader n m hdr).paramOfs
  inT (s.desc n m p) (s.desc n m (p + 1)) || inT (s.descShadow n m q) (s.descShadow n m (q + 1))

/-- Word `w` lies in the parameter block of a header. -/
def Hdr.hasParam (h : Hdr) (w : Nat) : Bool := decide (h.paramOfs ≤ w) && decide (w < h.paramOfs + h.paramLen)

/-- Word `w` is one of a cam's own: header, parameters, or a table word that no other cam of the engine names. -/
def State.camOwns (s : State) (n m hdr w : Nat) : Bool :=
  (decide (4 * hdr ≤ w) && decide (w < 4 * hdr + 4))
    || (s.header n m hdr).hasParam w || (s.stagedHeader n m hdr).hasParam w
    || (s.camTableHas n m hdr w
        && !(s.cams n m).any (fun c => c.2 != hdr && s.camTableHas n m c.2 w))

/-- A cam that is CATCHING or ENGAGED: its entries wait for its own boundary. -/
def State.camWaits (s : State) (n m hdr : Nat) : Bool :=
  let e := camEngaged (s.stateMem n m ((s.header n m hdr).stateOfs + 4))
  e == 1 || e == 2

/-- Entry of engine (n, m). -/
def entryOf (n m : Nat) (e : Entry) : Bool := entryBlk e.addr == some (.le n m)

/-- An entry that a cam of the engine holds back. -/
def State.camHeld (s : State) (n m : Nat) (e : Entry) : Bool :=
  match descWord e.addr with
  | some (_, _, w) => (s.cams n m).any (fun c => s.ctxLive n m c.1 && s.camWaits n m c.2 && s.camOwns n m c.2 w)
  | none => false

/-- An entry of a cam whose context is disabled: it applies at once (R74, R150). -/
def State.camFree (s : State) (n m : Nat) (e : Entry) : Bool :=
  match descWord e.addr with
  | some (_, _, w) =>
    let l := (s.cams n m).filter (fun c => s.camOwns n m c.2 w)
    l != [] && l.all (fun c => !s.ctxLive n m c.1)
  | none => false

/-- Due entries of cams in disabled contexts swap, whatever runs beside them. -/
def State.camRelease (s : State) (n m : Nat) : State :=
  if s.ep.entries.any (fun e => e.due && entryOf n m e && s.camFree n m e) then
    s.swap (fun e => entryOf n m e && s.camFree n m e)
  else s

/-- Due entries wait for the engine's boundary: no new chain starts (R113). -/
def State.swapWaits (s : State) (n m : Nat) : Bool :=
  s.ep.entries.any (fun e => e.due && entryOf n m e && !s.camHeld n m e)

/-- At the engine's boundary: due entries swap, then waiting enables become due (R65, R93). A swap can leave a WAITING
context with nothing more to wait for (R94). -/
def State.leBoundary (s : State) (n m : Nat) : State :=
  if (s.le n m).copying then s
  else
    let s := s.camRelease n m
    if !s.leAtBoundary n m then s
    else
    let t := if s.swapWaits n m then
        (List.range 8).foldl (fun t c => t.noteFresh n m c) (s.swap (fun e => entryOf n m e && !s.camHeld n m e))
      else s
    t.enqueue ((indicesWhere 8 (fun c => (t.le n m).enabling.testBit c)).map
      (fun c => .contextEnable (Fin.ofNat 16 n) (Fin.ofNat 6 m) (Fin.ofNat 8 c)))

/-! ### Outputs (R91, R100, R101) -/

/-- Domain in which an engine acts. -/
def State.leDomain (s : State) (n m : Nat) : Nat := s.ownerDom (R.LE_OWNER n m)

/-- An access of an engine to the exchange memory (R10, R13, R445): nothing passes while the island has no way to it. -/
def State.leExchange (s : State) (n : Nat) (f : State → BusResult × State) : BusResult × State :=
  if s.pathUp n then s.overPath 0x28000000 f else (.error .islandOff, s)

/-- Requester port of an engine (R23): the number of the physical one. -/
def State.lePort (s : State) (n m : Nat) : Nat := 6 * n + s.lePhysical n m

/-- One output takes effect. -/
def State.leOutput (s : State) (n m c : Nat) : OutAct → State
  | .exchange w vs =>
    match s.leExchange n (fun t => t.xmWrite (t.leDomain n m) (t.lePort n m) w vs) with
    | (.error .ownership, t) => t.flag (R.LE_CTXc_STATUS n m c) 7
    | (_, t) => t
  | .duty u w v => s.dlrWrite (s.leDomain n m) (m + 1) n u w v
  | .emit e => s.fireIsland n (16 * m + 8 + e)

/-- Outputs of a stage: written at once in natural timing, held in fixed-phase timing, dropped after an overrun. The
tick of a stage's command is that in which its writes complete, with the confirmation of R105 and the write's own ticks
behind it (log entry 98). -/
def State.leOutputs (s : State) (n m c : Nat) (acts : List OutAct) : State :=
  let x := s.ctx n m c
  let s := if acts = [] then s else s.setCtx n m c { x with lastOut := some s.absTick }
  if x.overrun then s
  else if x.fixed then s.setCtx n m c { s.ctx n m c with outs := x.outs ++ acts }
  else acts.foldl (fun t o => t.leOutput n m c o) s

/-! ### The end of an execution (R94, R101, R102, R115) -/

/-- Last and largest latency; an execution without an output write counts to the end of its chain (log entry 98). -/
def State.latency (s : State) (n m c : Nat) : State :=
  let x := s.ctx n m c
  let last := min 0xFFFF (x.lastOut.getD s.absTick - s.ctxInstant n m c)
  let mx := max last (s.rf (R.LE_CTXc_LAT n m c) 31 16)
  s.setReg (R.LE_CTXc_LAT n m c) (w32 (65536 * mx + last))

/-- One execution of imposed fixed-phase timing has passed; in test mode the count holds, and the execution in which the
cause fell does not count (R102). -/
def State.imposedStep (s : State) (n m c : Nat) : State :=
  let r := s.rf (R.LE_CTXc_FIXED n m c) 4 0
  if r = 0 ∨ s.testMode ∨ (s.ctx n m c).spare then s
  else if r = 1 then s.setReg (R.LE_CTXc_FIXED n m c) 0#32
  else s.setRf (R.LE_CTXc_FIXED n m c) 4 0 (r - 1)

/-- An execution has completed; `released` says that its outputs were. -/
def State.complete (s : State) (n m c : Nat) (released : Bool) : State :=
  let s := s.latency n m c
  let s := s.setReg (R.LE_CTXc_COUNT n m c) (s.reg (R.LE_CTXc_COUNT n m c) + 1#32)
  let s := s.imposedStep n m c
  let s := s.setCtx n m c { s.ctx n m c with phase := .idle, outs := [], items := [], lastOut := none, spare := false }
  let s := if released then
    (List.range 8).foldl (fun t d =>
      if t.ctxOn n m d && (t.ctx n m d).phase != .idle then
        (t.setCtx n m d { t.ctx n m d with freshCtx := (t.ctx n m d).freshCtx ||| 2 ^ c }).noteFresh n m d
      else t) (s.fireIsland n (16 * m + c))
  else s
  s.leBoundary n m

/-- The chain of a context has ended: its held outputs wait for their release, or the execution is complete. -/
def State.chainEnd (s : State) (n m c : Nat) : State :=
  let x := s.ctx n m c
  if x.fixed && !x.overrun then (s.setCtx n m c { x with phase := .held }).leBoundary n m
  else s.complete n m c (!x.overrun)

/-- A chain error (R98): the execution ends, and the context is disabled. -/
def State.chainFault (s : State) (n m c : Nat) : State :=
  let s := s.setCtx n m c { s.ctx n m c with phase := .idle, outs := [], items := [], lastOut := none }
  ((s.setRb (R.LE_RUN n m) c false).flag (R.LE_CTXc_STATUS n m c) 0).leBoundary n m

/-- Tick at which held outputs are released (R101). -/
def State.releaseTick (s : State) (n m c : Nat) : Nat :=
  s.ctxInstant n m c + s.rf (R.LE_CTXc_TIMING n m c) 11 0

/-- OUTPUT_RELEASE (R101): outputs whose last stage was in time are released, else they are discarded. -/
def State.outputRelease (s : State) (n m c : Nat) : State :=
  let x := s.ctx n m c
  let inTime := decide (x.lastOut.getD 0 ≤ s.releaseTick n m c)
  let late := fun (t : State) =>
    (t.setCtx n m c { x with overrun := true, outs := [] }).flag (R.LE_CTXc_STATUS n m c) 3
  if s.absTick < s.releaseTick n m c || x.overrun then s
  else match x.phase with
    | .held =>
      if inTime then (x.outs.foldl (fun t o => t.leOutput n m c o) s).complete n m c true
      else (late s).complete n m c false
    | .running =>
      if !x.fixed then s
      else if s.outputsLeft n m c x.stage || !inTime then late s
      else (x.outs.foldl (fun t o => t.leOutput n m c o) s).setCtx n m c { x with fixed := false, outs := [] }
    | .idle => s
    | _ => if s.ctxFixed n m c && (s.ctxRef n m c == none || x.sampled.isSome) && s.outputsLeft n m c 0 then late s else s

def execOutputRelease (n : Fin 16) (m : Fin 6) (c : Fin 8) (s : State) : Host.Outcome State Fault Refusal :=
  .next (s.outputRelease n.val m.val c.val)

/-! ### Triggers, enables (R93 to R95) -/

/-- CONTEXT_TRIGGER (R94, R95, R109). -/
def State.contextTrigger (s : State) (n m c : Nat) : State :=
  let x := s.ctx n m c
  if !s.ctxOn n m c || !s.islandRuns n then s
  else if (s.le n m).copying then (s.flag (R.LE_CTXc_STATUS n m c) 6).setCtx n m c { x with lost := true }
  else if !s.leWorks n m then s
  else if x.phase == .idle then
    (s.setCtx n m c { x with
      phase := .waiting, arrival := s.absTick, sampled := none, freshAc := 0, freshSd := 0, freshCtx := 0,
      overrun := false, outs := [], lastOut := none, stage := 0 }).noteFresh n m c
  else (s.flag (R.LE_CTXc_STATUS n m c) 1).setCtx n m c { x with lost := true }

def execContextTrigger (n : Fin 16) (m : Fin 6) (c : Fin 8) (s : State) : Host.Outcome State Fault Refusal :=
  .next (s.contextTrigger n.val m.val c.val)

/-- INPUTS_FRESH (R94). -/
def execInputsFresh (n : Fin 16) (m : Fin 6) (c : Fin 8) (s : State) : Host.Outcome State Fault Refusal :=
  .next (if (s.ctx n.val m.val c.val).phase == .waiting && s.ctxFresh n.val m.val c.val then
    s.setCtx n.val m.val c.val { s.ctx n.val m.val c.val with phase := .runnable } else s)

/-- A waiting context whose TIMEOUT has passed (R94). -/
def State.timedOut (s : State) (n m c : Nat) : Bool :=
  let t := s.rf (R.LE_CTXc_WAIT n m c) 15 0
  (s.ctx n m c).phase == .waiting && t != 0 && decide ((s.ctx n m c).arrival + t ≤ s.absTick)

/-- CONTEXT_WAIT_TIMEOUT (R94). -/
def execContextWaitTimeout (n : Fin 16) (m : Fin 6) (c : Fin 8) (s : State) : Host.Outcome State Fault Refusal :=
  .next (if s.timedOut n.val m.val c.val && !s.ctxFresh n.val m.val c.val then
    (s.setCtx n.val m.val c.val { s.ctx n.val m.val c.val with phase := .idle, lost := true }).flag
      (R.LE_CTXc_STATUS n.val m.val c.val) 2 else s)

/-- CONTEXT_ENABLE (R93): at a boundary, a requested context is enabled, unless its chain runs past header 4,095. An
execution from before whose outputs are held completes. -/
def State.contextEnable (s : State) (n m c : Nat) : State :=
  let r := s.le n m
  if !r.enabling.testBit c || !s.leAtBoundary n m then s
  else
    let s := s.setLe n m { r with enabling := r.enabling - 2 ^ c }
    let (b, l) := s.chainOf n m c
    if 4096 < b + l then s.flag (R.LE_CTXc_STATUS n m c) 0
    else
      let x := s.ctx n m c
      ((s.setRb (R.LE_RUN n m) c true).setCtx n m c (if x.phase == .held then x else .reset)).impose n m c 1

def execContextEnable (n : Fin 16) (m : Fin 6) (c : Fin 8) (s : State) : Host.Outcome State Fault Refusal :=
  .next (s.contextEnable n.val m.val c.val)

/-- A write to LE_RUN (R93, R108): bits that set wait for the boundary, bits that clear act at once. -/
def State.leRunWrite (s : State) (n m : Nat) (v : Word) : State :=
  if s.leSubst n = some m then s.flag (R.LE_STATUS n m) 3
  else
    let on := s.rf (R.LE_RUN n m) 7 0
    let want := fld v 7 0
    let s := s.setReg (R.LE_RUN n m) (w32 (on &&& want))
    let s := s.setLe n m { s.le n m with enabling := want - (want &&& on) }
    let s := (List.range 8).foldl (fun t c =>
      if on.testBit c && !want.testBit c && ((t.ctx n m c).phase == .waiting || (t.ctx n m c).phase == .runnable) then
        t.setCtx n m c { t.ctx n m c with phase := .idle } else t) s
    s.leBoundary n m

/-! ### Retirement (R107 to R112) -/

/-- Timer units that the enabled contexts of an engine address (R109). -/
def State.leUnits (s : State) (n m : Nat) : List Nat :=
  indicesWhere 4 (fun k => (List.range 8).any (fun c => s.ctxOn n m c &&
    (let (b, l) := s.chainOf n m c
     (List.range l).any (fun i =>
       let h := s.header n m (b + i)
       h.typ == 0xA8 && decide (0x9000 ≤ h.out) && (h.out - 0x9000) / 0x400 == k))))

/-- A unit loses its writing engine (R109, R180): its words pending from the engine are discarded. -/
def State.unitOrphaned (s : State) (n m k : Nat) (hold copy : Bool) : State :=
  let r := s.tu n k
  let s := (List.range 13).foldl (fun t w => if r.pendBy.getD w 0 = m + 1 then t.setRb (R.TU_DLR_PEND n k) w false else t) s
  let s := s.setRb (R.TU_STATE n k) 7 true
  let l := (48 + m) :: (s.tu n k).causes.filter (fun c => c != m && c != 48 + m)
  let s := s.setTu n k { s.tu n k with causes := if copy then m :: l else l }
  if hold then s.sysHold n k 17 else s

/-- A unit whose writing engine `m` runs again (R180). -/
def State.unitAdopted (s : State) (n m k : Nat) : State :=
  let l := (s.tu n k).causes.filter (fun c => c != m && c != 48 + m)
  (s.setTu n k { s.tu n k with causes := l }).setRb (R.TU_STATE n k) 7 (l.any (fun c => decide (48 ≤ c)))

/-- A second fault meets a copy (R461): the copied engine is lost with its substitute. -/
def State.copyAbandoned (s : State) (n m rep : Nat) : State :=
  let s := s.setLe n m { s.le n m with copying := false }
  let s := (s.leUnits n m).foldl (fun t k =>
    (t.setTu n k { t.tu n k with causes := (t.tu n k).causes.filter (fun c => c != m) }).sysHold n k 17) s
  let s := (s.setReg (R.LE_RUN n m) 0#32).flag (R.LE_STATUS n m) 4
  (s.report (6 * n + m) rep 3 (s.reg (R.LE_FAULT_INFO n m))).swap (entryOf n m)

/-- Retire the physical engine that runs the contexts of engine `m` (R109 to R111); `forced` says that the fault
collector is the reporter (R460). -/
def State.leRetire (s : State) (n m : Nat) (forced : Bool) : State :=
  let p := s.lePhysical n m
  if s.leRetired n p then s
  else
    let rep := if forced then 0x1F0 else 6 * n + p
    let s := if s.leSubst n = some p then
        ((List.range 6).filter (fun e => (s.le n e).copying)).foldl (fun t e => t.copyAbandoned n e rep) s
      else s
    let free := match s.leSubst n with
      | some q => q != p && !s.leRetired n q && s.leHostedOne n == none
      | none => false
    let units := s.leUnits n m
    let safe := !free || s.rb (R.IC_LE_SUBST n) 8
    let s := s.setRb (R.IC_LE_RETIRED n) p true
    let s := if p = m then s else s.setRb (R.IC_LE_RETIRED n) (8 + m) false
    let s := s.flag (R.LE_STATUS n m) 2
    let r := s.le n m
    let s := s.setLe n m { r with
      copying := free, enabling := 0,
      ctxs := r.ctxs.map (fun x => { x with phase := .idle, outs := [], items := [], lastOut := none }) }
    let s := units.foldl (fun t k => t.unitOrphaned n m k safe free) s
    let s := s.report (6 * n + p) rep (if free then 2 else 3) (s.reg (R.LE_FAULT_INFO n m))
    if free then s
    else
      let s := (s.setReg (R.LE_RUN n m) 0#32).flag (R.LE_STATUS n m) 4
      s.swap (entryOf n m)

/-- RETIREMENT_COPY_DONE (R109, R110, R459): the substitute hosts the contexts from here on; after a restore they are
back in their own engine. -/
def State.copyDone (s : State) (n m : Nat) : State :=
  let r := s.le n m
  if !r.copying then s
  else
    let units := (List.range 4).filter (fun k => (s.tu n k).causes.contains (48 + m))
    let s := s.setLe n m { r with copying := false, window := [] }
    let s := (s.setRb (R.IC_LE_RETIRED n) (8 + m) (s.leRetired n m)).setReg (R.LE_TRANSIENTS n m) 0#32
    let s := units.foldl (fun t k => t.unitAdopted n m k) s
    let s := (List.range 8).foldl (fun t c => if t.ctxOn n m c then t.impose n m c 3 else t) s
    s.leBoundary n m

def execRetirementCopyDone (n : Fin 16) (m : Fin 6) (s : State) : Host.Outcome State Fault Refusal :=
  .next (s.copyDone n.val m.val)

/-- A retired engine passes its restore (R459): its hosted contexts copy back; without hosting, it starts empty. -/
def State.leRestored (s : State) (n m : Nat) : State :=
  let s := s.setRb (R.IC_LE_RETIRED n) m false
  let r := s.le n m
  if s.leHosted n m then
    let s := s.setLe n m { r with
      copying := true, window := [], enabling := 0,
      ctxs := r.ctxs.map (fun x => { x with phase := .idle, outs := [], items := [], lastOut := none }) }
    (s.leUnits n m).foldl (fun t k => t.unitOrphaned n m k false true) s
  else
    let s := s.clearMem (fun a => decide (descAddr n m 0 ≤ a) && decide (a < stateAddr n m 8192))
    let s := ((s.setReg (R.LE_RUN n m) 0#32).setReg (R.LE_TRANSIENTS n m) 0#32).setLe n m
      { r with window := [], latches := [], latchAt := [], relays := [] }
    ((List.range 4).filter (fun k => (s.tu n k).causes.contains (48 + m))).foldl (fun t k => t.unitAdopted n m k) s

/-- SUBSTITUTE_SELFTEST (R108): an idle substitute that fails is retired, and EN clears. -/
def State.substSelftest (s : State) (n : Nat) (passed : Bool) : State :=
  match s.leSubst n with
  | none => s
  | some m =>
    if passed || (s.leHostedOne n).isSome || (List.range 6).any (fun e => (s.le n e).copying) || s.leRetired n m then s
    else
      let s := (s.setRb (R.IC_LE_RETIRED n) m true).flag (R.LE_STATUS n m) 2
      (s.report (6 * n + m) (6 * n + m) 0x1E (s.reg (R.LE_FAULT_INFO n m))).setRb (R.IC_LE_SUBST n) 31 false

def execSubstituteSelftest (n : Fin 16) (passed : Bool) (s : State) : Host.Outcome State Fault Refusal :=
  .next (if s.islandRuns n.val then s.substSelftest n.val passed else s)

/-- A write to IC_LE_SUBST (R108, R116). -/
def State.leSubstWrite (s : State) (n : Nat) (v : Word) : State :=
  let e := fld v 2 0
  if 6 ≤ e then s
  else
    let hosts := (s.leHostedOne n).isSome || (List.range 6).any (fun m => (s.le n m).copying)
    let busy := bit v 31 && (s.rf (R.LE_RUN n e) 7 0 != 0 || (s.le n e).enabling != 0) && s.leSubst n != some e
    if busy then s
    else if hosts then s.setRb (R.IC_LE_SUBST n) 8 (bit v 8)
    else s.setReg (R.IC_LE_SUBST n) (v &&& 0x80000107#32)

/-! ### Operands (R88 to R90) -/

/-- Items of an encoder port or mark input (R232, R243), taken together at the first read of an execution. -/
def State.takeItems (s : State) (n m c i : Nat) : List Word × State :=
  let x := s.ctx n m c
  match x.items.get (fun _ => []) i with
  | w :: r => (w :: r, s)
  | [] =>
    let l := if i < 2 then
        [s.reg (R.EQ_COUNT n i), s.reg (R.EQ_INDEX_COUNT n i), s.reg (R.EQ_EDGE_T n i), s.reg (R.EQ_EDGE_PERIOD n i),
         s.reg (R.EQ_SSI_POS n i), s.reg (R.EQ_SSI_T n i)]
      else [s.reg (R.MK_POS_LO n (i - 2)), s.reg (R.MK_POS_HI n (i - 2)), s.reg (R.MK_COUNT n (i - 2)), s.reg (R.MK_T n (i - 2))]
    let s := s.setCtx n m c { x with items := x.items.set (fun _ => []) i l }
    (l, if i < 2 then s else s.mkConsume n (i - 2))

/-- Read one operand word. -/
def State.operand (s : State) (n m c a : Nat) : Word × State :=
  match regionOf a with
  | some .state => (s.stateMem n m a, s)
  | some .exchange =>
    match s.leExchange n (fun t => t.xmRead (t.leDomain n m) (t.lePort n m) (a - 0x4000)) with
    | (.data v, t) => (v, t)
    | (_, t) => (0#32, t)
  | some .converter => ((s.le n m).latches.get (fun _ => 0#32) (a - 0x8000), s)
  | some .demod =>
    let d := (a - 0x8020) / 2
    (if a % 2 = 0 then (s.le n m).latches.get (fun _ => 0#32) (32 + d) else s.reg (R.SD_FAST n d), s)
  | some .encoder =>
    let (l, t) := s.takeItems n m c ((a - 0x8040) / 16)
    (l.getD (a % 16) 0, t)
  | some .mark =>
    let (l, t) := s.takeItems n m c (2 + (a - 0x8060) / 4)
    (l.getD (a % 4) 0, t)
  | _ => (0#32, s)

/-- Read consecutive operand words. -/
def State.operands (s : State) (n m c a : Nat) : Nat → List Word × State
  | 0 => ([], s)
  | w + 1 =>
    let (v, t) := s.operand n m c a
    let (l, t) := t.operands n m c (a + 1) w
    (v :: l, t)

/-- Write consecutive state memory words: the commit of a stage (R105, R241). -/
def State.commit (s : State) (n m c i : Nat) (vs : List Word) : State :=
  if vs = [] then s
  else (s.storeWords (stateAddr n m i) vs).mkCommit n m i vs.length (s.ctxInstant n m c * 64)

/-- Write consecutive output words: state memory at once, exchange words as an output. -/
def State.putOut (s : State) (n m c a : Nat) (vs : List Word) : State :=
  if vs = [] then s
  else match regionOf a with
    | some .state => s.commit n m c a vs
    | some .exchange => s.leOutputs n m c [.exchange (a - 0x4000) vs]
    | _ => s

/-- The HOLD condition of a header (R121, R126): the timer unit keeps outputs at safe levels, those of an enabled channel
or all of them. -/
def State.hdrHold (s : State) (n : Nat) (h : Hdr) : Bool :=
  let k := h.flags / 2 ^ 12 % 8
  decide (1 ≤ k) && decide (k ≤ 4) && ((List.range 6).all (s.safeHeld n (k - 1)) ||
    (List.range 6).any (fun j => s.rb (R.TU_CHj_CFG n (k - 1) j) 7 && s.safeHeld n (k - 1) j))

/-- Parameter block of instance `k`. -/
def State.params (s : State) (n m : Nat) (h : Hdr) (f : Form) (k : Nat) : List Word :=
  let base := h.paramOfs + (if h.perLane then k * f.pW else 0)
  (List.range f.pW).map (fun i => s.desc n m (base + i))

/-- State block of instance `k`. -/
def State.stateBlock (s : State) (n m : Nat) (h : Hdr) (f : Form) (k : Nat) : List Word :=
  (List.range f.sW).map (fun i => s.stateMem n m (h.stateOfs + k * f.sW + i))

/-- Read the inputs of all instances from `k` on. -/
def State.gather (s : State) (n m c : Nat) (h : Hdr) (f : Form) : Nat → Nat → List LawIn × State
  | _, 0 => ([], s)
  | k, r + 1 =>
    let (a, t) := s.operands n m c (h.inA + k * f.aStride) f.aW
    let (b, t) := t.operands n m c (h.inB + k * f.bStride) f.bW
    let x : LawIn := ⟨k, h.flags, a, b, t.params n m h f k, t.stateBlock n m h f k, t.hdrHold n h⟩
    let (l, t) := t.gather n m c h f (k + 1) r
    (x :: l, t)

/-- Set NONFINITE. -/
def State.nonfinite (s : State) (n m c : Nat) (b : Bool) : State :=
  if b then s.flag (R.LE_CTXc_STATUS n m c) 5 else s

/-! ### Dispatch (R96, R98, R106) -/

/-- The context whose stage the engine dispatches next: the highest priority, lower numbers first; no new chain while
due entries wait (R96, R113). -/
def State.leChoice (s : State) (n m : Nat) : Option Nat :=
  let waits := s.swapWaits n m
  ((List.range 8).filter (fun c => (s.ctx n m c).phase == .running || ((s.ctx n m c).phase == .runnable && !waits))).foldl
    (fun a c => match a with
      | none => some c
      | some b => if s.rf (R.LE_CTXc_CHAIN n m b) 2 0 < s.rf (R.LE_CTXc_CHAIN n m c) 2 0 then some c else some b) none

/-- The first dispatch of an execution. -/
def State.ctxBegin (s : State) (n m c : Nat) : State :=
  let x := s.ctx n m c
  if x.phase == .runnable then
    s.setCtx n m c { x with phase := .running, stage := 0, pass := 0, kept := [], spare := false, fixed := s.ctxFixed n m c, items := [], lostBefore := x.lost, lost := false }
  else s

/-- What the next dispatch of a context finds after headers that are skipped. -/
inductive Found where
  | stage (i : Nat) (h : Hdr)
  | fault
  | ended
deriving DecidableEq, Repr

/-- Look at the headers from position `i` on; `r` are left. -/
def State.findStage (s : State) (n m base : Nat) : Nat → Nat → Found
  | _, 0 => .ended
  | i, r + 1 =>
    let h := s.header n m (base + i)
    if 4096 ≤ base + i || s.headerBad n m h then .fault
    else if h.skip then s.findStage n m base (i + 1) r
    else .stage i h

/-- What a context's next dispatch finds. -/
def State.nextStage (s : State) (n m c : Nat) : Found :=
  let (b, l) := s.chainOf n m c
  let i := (s.ctx n m c).stage
  s.findStage n m b i (l - i)

/-- After a stage: the chain ends here if only skipped headers follow. -/
def State.stageDone (s : State) (n m c i : Nat) : State :=
  let s := s.setCtx n m c { s.ctx n m c with stage := i + 1, pass := 0, kept := [] }
  match s.nextStage n m c with
  | .ended => s.chainEnd n m c
  | _ => s

/-- Information of a residue mismatch (R107). -/
def faultInfo (typ i c pass : Nat) (permanent : Bool) : Word :=
  w32 (at_ typ 24 + at_ i 16 + at_ (b2n permanent) 15 + at_ c 12 + at_ pass 10)

/-- A permanent fault retires the engine (R107). -/
def State.lePermanent (s : State) (n m c i typ pass : Nat) : State :=
  (s.setReg (R.LE_FAULT_INFO n m) (faultInfo typ i c pass true)).leRetire n m false

/-- A re-execution that passed (R106, R107): the 17th within a second is a permanent fault. -/
def State.leTransient (s : State) (n m c i typ pass : Nat) : State :=
  let r := s.le n m
  let w := recent s.clk.beat r.window
  let p := s.lePhysical n m
  let total := min 0xFFFF (s.rf (R.LE_TRANSIENTS n m) 31 16 + 1)
  let s := s.setReg (R.LE_TRANSIENTS n m) (w32 (65536 * total))
  let s := (s.flag (R.LE_CTXc_STATUS n m c) 4).flag (R.LE_STATUS n m) 1
  let s := (s.report (6 * n + p) (6 * n + p) 1 (faultInfo typ i c pass false)).impose n m c 2
  if 16 ≤ w.length then s.lePermanent n m c i typ pass
  else (s.setLe n m { s.le n m with window := w ++ [s.clk.beat] }).setReg (R.LE_FAULT_INFO n m) (faultInfo typ i c pass false)

/-- Addresses of the engine's memory words that a stage reads: its header at index `j`, its parameters, its state, and
operands in state memory. -/
def State.stageReads (s : State) (n m j : Nat) (h : Hdr) : List Nat :=
  let hdr := (List.range 4).map (fun i => descAddr n m (4 * j + i))
  match formOf h (s.headP0 n m h) with
  | none => hdr
  | some f =>
    hdr ++ (List.range (f.pW * (if h.perLane then h.count else 1))).map (fun i => descAddr n m (h.paramOfs + i))
      ++ (List.range (f.sW * h.count)).map (fun i => stateAddr n m (h.stateOfs + i))
      ++ ((operandAddrs h.inA f.aStride f.aW h.count ++ operandAddrs h.inB f.bStride f.bW h.count).filter
          (fun a => a < 0x2000)).map (fun a => stateAddr n m a)

/-- The first word in error that a stage meets (R338). -/
def State.stageEcc (s : State) (n m j : Nat) (h : Hdr) : Option Nat :=
  if s.ecc = [] then none else (s.stageReads n m j h).find? s.eccBad

/-- A stage has read its words: those with one wrong bit are written back corrected (R338). -/
def State.stageCorrects (s : State) (n m j : Nat) (h : Hdr) : State :=
  if s.ecc = [] then s else (s.stageReads n m j h).foldl State.eccRead s

/-- One stage command (R96 to R98, R105, R106): the engine dispatches the next header of the context. The command is no
occurrence where the engine would dispatch another context, or a stage of another type. `run` is the stage's effect on
its inputs' state, given its position and header; what it commits is lost with a permanent fault. -/
def State.stageCmd (s : State) (typ n m c : Nat) (res : Residue) (pass : Nat) (run : State → Nat → Hdr → State) : State :=
  if !s.leWorks n m || s.leChoice n m != some c then s
  else
    let t := s.ctxBegin n m c
    match t.nextStage n m c with
    | .ended => t.chainEnd n m c
    | .fault => t.chainFault n m c
    | .stage i h =>
      if h.typ ≠ typ then s
      else match t.stageEcc n m ((t.chainOf n m c).1 + i) h with
      | some a => (t.eccAccess a).chainFault n m c
      | none =>
        let t := t.stageCorrects n m ((t.chainOf n m c).1 + i) h
        match res with
        | .clean => run t i h
        | .transient => (run t i h).leTransient n m c i typ pass
        | .permanent => t.lePermanent n m c i typ pass

/-- The effect of a stage whose instances follow one law. -/
def State.lawStage (n m c : Nat) (law : LawIn → LawOut) (s : State) (i : Nat) (h : Hdr) : State :=
  match formOf h (s.headP0 n m h) with
  | none => s
  | some f =>
    let (xs, s) := s.gather n m c h f 0 h.count
    let os := xs.map law
    let s := s.nonfinite n m c (os.any (fun o => o.bad))
    let s := s.commit n m c h.stateOfs (os.flatMap (fun o => o.st))
    let s := s.putOut n m c h.out (os.flatMap (fun o => o.u))
    s.stageDone n m c i

end Sys2Proof.Machine
end

