-- ==== Sys2Proof/Machine/FaultOps.lean ====
section
/-!
DEFINITION. The fault collector's records and FAULT_N (R451 to R457).
-/
namespace Sys2Proof.Machine
open Sys2Proof

/-- Numbers that the table of R451 lists. -/
def sourceListed (x : Nat) : Bool :=
  decide (x < 0xF0) || (decide (0x100 ≤ x) && decide (x ≤ 0x108)) || (decide (0x110 ≤ x) && decide (x ≤ 0x114))
    || x == 0x118 || (decide (0x120 ≤ x) && decide (x < 0x130)) || (decide (0x140 ≤ x) && decide (x ≤ 0x1AF))
    || x == 0x1B0 || x == 0x1B1 || x == 0x1C0 || x == 0x1F0 || decide (0x1000 ≤ x)

/-- Severity of a CAUSE: 1 T, 2 D, 3 U, 0 for a code that R454 does not list. -/
def causeSeverity (c : Nat) : Nat := match c with
  | 0x01 | 0x04 | 0x07 | 0x0A | 0x12 | 0x14 => 1
  | 0x02 | 0x05 | 0x0E | 0x0F | 0x15 | 0x1A | 0x1C | 0x1D | 0x1E => 2
  | 0x03 | 0x06 | 0x08 | 0x09 | 0x0B | 0x0C | 0x0D | 0x10 | 0x11 | 0x13 | 0x16 | 0x17 | 0x18 | 0x19 | 0x1B => 3
  | _ => 0

/-- CAUSEs that set ACTIVE (R455). -/
def causeActive (c : Nat) : Bool :=
  c == 0x16 || c == 0x17 || c == 0x18 || c == 0x19 || c == 0x03 || c == 0x06 || c == 0x08 || c == 0x09 || c == 0x0B
    || c == 0x1B

def State.faultRec (s : State) (x : Nat) : FaultRec := s.faults.recs.get (fun _ => .reset) x

/-- UNRECOVERED of a record (R455). -/
def FaultRec.unrecovered (r : FaultRec) : Bool := r.severity == 3 && r.isOpen && (r.active || !r.acked)

/-- FAULT_N is asserted (R457). -/
def State.faultAsserted (s : State) : Bool :=
  !s.faults.started || s.rb R.FC_CTRL 29
    || s.faults.recs.any (fun e => e.2.unrecovered || (s.rb R.FC_CTRL 30 && e.2.severity == 2 && e.2.isOpen && !e.2.acked))

/-- Central source 388 follows FAULT_N. -/
def State.faultN (s : State) : State := s.setLine (4096 + 388) s.faultAsserted

/-- Store a record: a record that becomes UNRECOVERED says so, and one with ACKED = 1 and ACTIVE = 0 closes. -/
def State.setFaultRec (s : State) (x : Nat) (r : FaultRec) : State :=
  let was := (s.faultRec x).unrecovered
  let r := if r.acked && !r.active then { r with isOpen := false } else r
  let s := { s with faults := { s.faults with recs := s.faults.recs.set (fun _ => .reset) x r } }
  (if r.unrecovered && !was then s.flag R.FC_STATUS 1 else s).faultN

/-- The condition of a record has ended (R455). -/
def State.conditionEnded (s : State) (x : Nat) : State :=
  let r := s.faultRec x
  if r.active then s.setFaultRec x { r with active := false } else s

/-- Coalescing window in beats (R453, R463). -/
def State.faultWindow (s : State) : Nat := 250 * max 1 (s.rf R.FC_CTRL 15 0)

/-- A report begins a new incident (R453). -/
def State.newIncident (s : State) (r : FaultRec) : Bool :=
  !r.isOpen || decide (s.faultWindow ≤ (s.clk.beat - r.firstBeat).toNat)

/-- The record after a report (R453 to R455). -/
def State.reported (s : State) (r : FaultRec) (rep cause : Nat) (detail : Word) : FaultRec :=
  let t := s.devTime
  let sev := causeSeverity cause
  let r := if s.newIncident r then
      { r with
        incidents := satTo 0xFFFF (r.incidents + 1), tally := 1, firstT := t, firstRep := rep, acked := false,
        firstBeat := s.clk.beat, severity := if r.isOpen then r.severity else 0, isOpen := true }
    else { r with tally := satTo 0xFFFFFFFF (r.tally + 1) }
  let r := { r with
    lastT := lo64 t.toNat, lastRep := rep, active := r.active || causeActive cause,
    transients := if sev = 1 then satTo 0xFFFF (r.transients + 1) else r.transients }
  if r.severity ≤ sev then { r with severity := sev, cause := cause, detail := detail } else r

/-- The collector serves a report. -/
def State.serveReport (s : State) (x rep cause : Nat) (detail : Word) : State :=
  if !sourceListed x || !sourceListed rep || causeSeverity cause == 0 then s
  else
    let r := s.faultRec x
    let t := if s.newIncident r then ((s.setReg R.FC_LAST (w32 x)).flag R.FC_STATUS 0).fireCentral 389 else s
    t.setFaultRec x (s.reported r rep cause detail)

/-- FAULT_REPORT (R453): a report made in WATCH is served at wake (R461). -/
def execFaultReport (source reporter : Fin 8192) (cause : BitVec 8) (detail : Word) (s : State) :
    Host.Outcome State Fault Refusal :=
  .next (if s.device == .watch then
      { s with faults := { s.faults with kept := s.faults.kept ++ [.faultReport source reporter cause detail] } }
    else s.serveReport source.val reporter.val cause.toNat detail)

/-- An acknowledgement (R455). -/
def State.acknowledge (s : State) (x : Nat) : State :=
  let r := s.faultRec x
  if r.isOpen then s.setFaultRec x { r with acked := true } else s

/-- The eight words of a record (R456). -/
def State.recordWords (s : State) (x : Nat) : List Word :=
  let r := s.faultRec x
  [w32 (at_ (b2n r.isOpen) 31 + at_ (b2n r.acked) 30 + at_ (b2n r.active) 29 + at_ (b2n r.unrecovered) 28
      + at_ r.severity 24 + at_ (r.cause % 256) 16 + (if r.incidents = 0 then 0 else x % 65536)),
   w32 r.tally, w32 (at_ r.incidents 16 + r.transients), lo64 r.firstT.toNat, r.lastT,
   w32 (at_ r.firstRep 16 + r.lastRep), r.detail, hi64 r.firstT.toNat]

/-- Open records, ascending. -/
def State.openRecords (s : State) : List Nat := s.faults.recs.filterMap (fun e => if e.2.isOpen then some e.1 else none)

/-- FC_SUMMARY (R463). -/
def State.faultSummary (s : State) : Word :=
  w32 (at_ (b2n s.faultAsserted) 31 + at_ s.openRecords.length 16
    + (s.faults.recs.filter (fun e => e.2.unrecovered)).length)

/-- FC_NEXT: the first open record at or above FC_SEL. -/
def State.faultNext (s : State) : Word :=
  match s.openRecords.find? (fun x => decide (s.rf R.FC_SEL 12 0 ≤ x)) with
  | some x => w32 (2 ^ 31 + x)
  | none => 0#32

end Sys2Proof.Machine
end

