-- ==== Sys2Proof/Machine/Timebase.lean ====
section
/-!
DEFINITION. Timebase and calendar (R31 to R55): rate and steps, discipline, global start, island sync, the calendar and
its alarms, and one tick of the clock.
-/
namespace Sys2Proof.Machine
open Sys2Proof

def State.setClk (s : State) (c : ClockState) : State := { s with clk := c }

/-- The device serves commands of its running domains: neither asleep nor in BACKUP (R464). -/
def State.awake (s : State) : Bool := s.device == .run || s.device == .entering

/-! ### Rate (R35, R37) -/

/-- Discipline mode: 3 acts as FREE. -/
def State.discMode (s : State) : Nat :=
  let m := s.rf R.TB_DISC 1 0
  if m = 3 then 0 else m

/-- 10 ppm in units of 2^-40 of the beat frequency. -/
def rateStep : Int := 10995116

/-- Move the rate towards its goal by one increment, 100 µs (25,000 beats) after the last one at the earliest. -/
def State.rateMove (s : State) : State :=
  if s.clk.rateNow ≠ s.clk.rateGoal ∧ serialGe s.clk.beat s.clk.rateNext then
    s.setClk { s.clk with
      rateNow := s.clk.rateNow + clampI (-rateStep) rateStep (s.clk.rateGoal - s.clk.rateNow)
      rateNext := s.clk.beat + 25000 }
  else s

/-- The stored RATE takes effect, clamped at ±200 ppm. -/
def State.rateEffect (s : State) : State :=
  let v := sInt (s.reg R.TB_RATE)
  let c := clampI (-219902326) 219902326 v
  let s := if c = v then s else s.flag R.TB_STATUS 6
  (s.setClk { s.clk with rateGoal := c }).rateMove

/-- A write to TB_RATE: stored only in FREE. -/
def State.rateWrite (s : State) (v : Word) : State :=
  let s := s.setReg R.TB_RATE v
  if s.discMode = 0 then s else s.rateEffect

/-- RATE_INCREMENT (R35): 100 µs have passed since the last increment of a large change. -/
def execRateIncrement (s : State) : Host.Outcome State Fault Refusal := .next s.rateMove

/-- A write to TB_DISC (R37, R55). -/
def State.discWrite (s : State) (v : Word) : State :=
  let old := s.discMode
  let s := s.setRf R.TB_DISC 1 0 (fld v 1 0)
  let new := s.discMode
  let s := if new = 2 then (if old = 2 then s else (s.setRf R.TB_DISC 5 4 1).setClk { s.clk with syncGood := 0 })
    else s.setRf R.TB_DISC 5 4 0
  if new = 0 then (s.setClk { s.clk with rateGoal := 0 }).rateMove
  else if old = 0 then s.rateEffect
  else s

/-! ### Steps (R36, R40) -/

/-- A write to TB_STEP_HI by domain `d` schedules a step at W + 2. -/
def State.stepWrite (s : State) (d : Nat) (v : Word) : State :=
  let s := (s.setReg R.TB_STEP_HI v).request d
  match s.clk.step with
  | some _ => s.flag R.TB_STATUS 0
  | none =>
    let x := pair64 v (s.reg R.TB_STEP_LO &&& ~~~ 3#32)
    s.setClk { s.clk with step := some (s.clk.beat + 2, BitVec.ofNat 64 x) }

/-- The step takes effect: an island that is not synchronised keeps its D until its sync bit returns. -/
def State.stepNow (s : State) (x : BitVec 64) : State :=
  let old := s.clk.dOfs
  let new := old + x
  let ds := (List.range 16).foldl (fun (st : Store (BitVec 64)) n =>
    st.set (fun _ => new) n (if s.synced n then new else s.clk.dIsland.get (fun _ => old) n)) []
  (s.setClk { s.clk with step := none }).changeD new ds

/-- DEVICE_TIME_STEP (R36): the beat of the pending step has come. -/
def execDeviceTimeStep (s : State) : Host.Outcome State Fault Refusal :=
  .next (match s.clk.step with
    | some (n, x) => if serialGe s.clk.beat n then s.stepNow x else s
    | none => s)

/-! ### The servo (R37) -/

/-- An 802.1AS sync message: offset of device time from the grandmaster's in ns, and the rate trim that the servo
derives from offset and rate ratio. -/
def State.syncMessage (s : State) (offset : BitVec 64) (rate : Word) : State :=
  let s := if s.rf R.TB_DISC 5 4 = 3 then (s.setRf R.TB_DISC 5 4 1).setClk { s.clk with syncGood := 0 } else s
  let mag := offset.toInt.natAbs
  let good := if mag < 100 then s.clk.syncGood + 1 else 0
  let s := s.setClk { s.clk with syncGood := min 16 good }
  let acquiring := s.rf R.TB_DISC 5 4 = 1
  let s := if acquiring ∧ 16 ≤ good then s.setRf R.TB_DISC 5 4 2 else s
  if acquiring ∧ 1000 < mag then
    let x := (0#64 - offset).toNat
    (s.setReg R.TB_STEP_LO (lo64 x)).stepWrite 0 (hi64 x)
  else s.rateWrite rate

def execAsSyncMessage (offset : BitVec 64) (rate : Word) (s : State) : Host.Outcome State Fault Refusal :=
  .next (if s.discMode = 2 ∧ s.awake then s.syncMessage offset rate else s)

/-- SERVO_HOLDOVER (R37): three sync intervals without a message. -/
def execServoHoldover (s : State) : Host.Outcome State Fault Refusal :=
  .next (if s.discMode = 2 then (s.setRf R.TB_DISC 5 4 3).setClk { s.clk with syncGood := 0 } else s)

/-! ### Global start (R38 to R43) -/

/-- Arm a start: DONE clears, the masks are copied; a late request is decided by the policy. LATE_EXECUTED of a start
under ASAP sets with the arming write (DESIGN CHOICE; log entry 95). -/
def State.startArm (s : State) (d : Nat) (at_ : Option (BitVec 64)) : State :=
  let s := s.request d
  match s.clk.start with
  | some _ => s.flag R.TB_STATUS 3
  | none =>
    let s := s.setReg R.TB_START_STATE (setFld (s.reg R.TB_START_STATE) 31 30 2)
    let n := at_.getD (s.clk.beat + 2)
    let late := s.isLate n
    let asap := s.rb R.TB_POLICY 0
    let s := if late then s.flag R.TB_STATUS (if asap then 2 else 1) else s
    s.setClk { s.clk with
      start := some ⟨if late && asap then s.clk.beat + 2 else n, s.reg R.TB_START_MASK0, s.reg R.TB_START_MASK1,
        late && !asap⟩ }

/-- A write to TB_START_AT_HI. -/
def State.startAtWrite (s : State) (d : Nat) (v : Word) : State :=
  let s := s.setReg R.TB_START_AT_HI v
  s.startArm d (some (BitVec.ofNat 64 (pair64 v (s.reg R.TB_START_AT_LO))))

/-- A write to TB_START_CANCEL. -/
def State.startCancel (s : State) (d : Nat) : State :=
  let s := s.request d
  match s.clk.start with
  | none => s
  | some r =>
    if r.rejected || serialGe r.beat (s.clk.beat + 2) then
      (s.setClk { s.clk with start := none }).setRb R.TB_START_STATE 31 false
    else s.flag R.TB_STATUS 4

/-- An island that executes what is scheduled for the present beat: synchronised since two beats at least (R40, R68). -/
def State.takesPart (s : State) (n : Nat) : Bool :=
  s.synced n && s.islandRuns n && serialGe s.clk.beat (s.clk.syncAt.get (fun _ => 0#64) n + 2)

/-- Units of an island that a start selects (R41). -/
def startUnits (r : StartReq) (n : Nat) : List Nat :=
  (List.range 4).filter (fun k => bit (if n < 8 then r.mask0 else r.mask1) (4 * (n % 8) + k))

/-- The start executes. -/
def State.startNow (s : State) (r : StartReq) : State :=
  let sel := (List.range 16).filter (fun n => startUnits r n != [])
  let missed := sel.filter (fun n => !s.takesPart n)
  let t := (sel.filter (fun n => s.takesPart n)).foldl
    (fun t n => (startUnits r n).foldl (fun t k => t.tuStart n k) t) (s.setClk { s.clk with start := none })
  let t := t.setReg R.TB_START_STATE (w32 (2 ^ 30 + missed.foldl (fun a n => a + 2 ^ n) 0))
  (if missed = [] then t else t.flag R.TB_STATUS 5).fireCentral 320

/-- GLOBAL_START (R42): the start beat has come. -/
def execGlobalStart (s : State) : Host.Outcome State Fault Refusal :=
  .next (match s.clk.start with
    | some r => if !r.rejected && serialGe s.clk.beat r.beat then s.startNow r else s
    | none => s)

/-! ### Island sync (R32, R40, R68) -/

/-- Entries of executing epochs that an island still holds. -/
def State.heldDue (s : State) (n : Nat) : Bool :=
  s.ep.entries.any (fun e => s.slotState e.slot == 4 && islandOf e.addr == some n && !e.due)

/-- ISLAND_SYNC (R32): the PLL of a running island has locked and the island has loaded its count. -/
def State.islandSync (s : State) (n : Nat) : State :=
  let s := (s.setRb R.TB_ISLAND_SYNC n true).setRf (R.IC_STATE n) 31 30 3
  let s := (s.setClk { s.clk with syncAt := s.clk.syncAt.set (fun _ => 0#64) n s.clk.beat }).changeD s.clk.dOfs
    (s.clk.dIsland.set (fun _ => s.clk.dOfs) n s.clk.dOfs)
  let s := if s.heldDue n then
      { s with ep := { s.ep with unsync := (s.ep.unsync.filter (fun u => u.1 != n)) ++ [(n, s.clk.beat + 2)] } }
    else s
  (s.setRb R.PW_STATE n false).conditionEnded (0xC0 + n)

def execIslandSync (n : Fin 16) (s : State) : Host.Outcome State Fault Refusal :=
  .next (if s.phase n.val == .running && !s.synced n.val && s.device != .watch && s.device != .backup then
    s.islandSync n.val else s)

/-- The island loses its valid count. -/
def State.unsync (s : State) (n : Nat) : State :=
  let s := (s.setRb R.TB_ISLAND_SYNC n false).setRb (R.IC_STATE n) 30 false
  { s with ep := { s.ep with unsync := s.ep.unsync.filter (fun u => u.1 != n) } }

/-- SYNC_LOST (R32). -/
def State.syncLost (s : State) (n : Nat) : State :=
  ((((s.unsync n).flag R.TB_STATUS 7).fireCentral 323).report (0xC0 + n) (0xC0 + n) 0x16 0#32)

def execSyncLost (n : Fin 16) (s : State) : Host.Outcome State Fault Refusal :=
  .next (if s.synced n.val then s.syncLost n.val else s)

/-! ### Calendar (R46 to R52) -/

/-- The 47-bit calendar value. -/
def State.calNow (s : State) : Nat := s.clk.seconds * 32768 + s.clk.sub

/-- Value of alarm `a`. -/
def State.alarmValue (s : State) (a : Nat) : Nat :=
  (s.reg (R.CAL_ALARMa_SEC a)).toNat * 32768 + s.rf (R.CAL_ALARMa_CTRL a) 14 0

/-- Does alarm `a` fire now? -/
def State.alarmDue (s : State) (a : Fin 4) : Bool :=
  s.rb (R.CAL_ALARMa_CTRL a.val) 31 && (s.alarmValue a.val == s.calNow || s.clk.lateAlarms.contains a)

/-- Alarms whose value the calendar has reached, or that were armed late. -/
def State.alarmsDue (s : State) : List (Fin 4) := [0, 1, 2, 3].filter s.alarmDue

/-- What the new calendar value makes due: alarms, and the offset change. -/
def State.calReached (s : State) : State :=
  s.enqueue ((s.alarmsDue.map (fun a => Instr.alarmFire a))
    ++ (if s.reg R.CAL_LEAP_AT != 0#32 && (s.reg R.CAL_LEAP_AT).toNat == s.clk.seconds then [.leapOffsetChange] else []))

/-- One edge of the 32.768 kHz oscillator: SUB advances, or a second ends; a load comes nearer. -/
def State.oscEdge (s : State) : State :=
  let s := if s.clk.sub = 32767 then s.enqueue [.calendarSecond]
    else (s.setClk { s.clk with sub := s.clk.sub + 1 }).calReached
  match s.clk.loadIn with
  | some (k + 1) =>
    let s := s.setClk { s.clk with loadIn := some k }
    if k = 0 then s.enqueue [.calendarLoad] else s
  | _ => s

/-- CALENDAR_SECOND (R46, R49): the edge at which SUB wraps. A wake from WATCH records no pair before the time asleep has
been added to B. -/
def State.calSecond (s : State) : State :=
  let sec := (s.clk.seconds + 1) % 2 ^ 32
  let s := s.setClk { s.clk with
    sub := 0, seconds := sec, era := if sec = 0 then (s.clk.era + 1) % 256 else s.clk.era }
  let s := if s.awake || (s.device == .waking && !s.pow.slept) then
      let t := s.devTime.toNat
      ((s.setReg R.CAL_PAIR_DT_LO (lo64 t)).setReg R.CAL_PAIR_DT_HI (hi64 t)).setReg R.CAL_PAIR_SEC (w32 sec)
    else s
  (if s.device == .backup then s else s.fireCentral 328).calReached

def execCalendarSecond (s : State) : Host.Outcome State Fault Refusal :=
  .next (if s.clk.sub = 32767 then s.calSecond else s)

/-- LEAP_OFFSET_CHANGE (R48). -/
def execLeapOffsetChange (s : State) : Host.Outcome State Fault Refusal :=
  .next (if s.reg R.CAL_LEAP_AT != 0#32 && (s.reg R.CAL_LEAP_AT).toNat == s.clk.seconds then
    (s.setRf R.CAL_UTC_OFFSET 15 0 (s.rf R.CAL_UTC_OFFSET 31 16)).setReg R.CAL_LEAP_AT 0#32 else s)

/-- A write to CAL_SET_HI asks for a load at the second edge (R47). -/
def State.calSetWrite (s : State) (v : Word) : State :=
  let s := s.setReg R.CAL_SET_HI (v &&& 0x00FF7FFF#32)
  s.setClk { s.clk with loadIn := some 2 }

/-- Whole intervals by which a repeating alarm advances to lie in the future, at least one. -/
def alarmSkips (sec sub interval now : Nat) : Nat :=
  let next := (sec + interval) * 32768 + sub
  if serialAfter 47 next now then 1
  else 2 + ((now + 2 ^ 47 - next % 2 ^ 47) % 2 ^ 47) / (interval * 32768)

/-- A repeating alarm whose next value is already past advances into the future without firing, and MISSED sets
(R52). -/
def State.alarmOverdue (s : State) (a : Fin 4) : State :=
  let sec := (s.reg (R.CAL_ALARMa_SEC a.val)).toNat
  let iv := (s.reg (R.CAL_ALARMa_INTERVAL a.val)).toNat
  if s.rb (R.CAL_ALARMa_CTRL a.val) 31 && iv != 0 && !s.clk.lateAlarms.contains a
      && serialAfter 47 s.calNow (s.alarmValue a.val) then
    (s.setReg (R.CAL_ALARMa_SEC a.val)
      (w32 (sec + alarmSkips sec (s.rf (R.CAL_ALARMa_CTRL a.val) 14 0) iv s.calNow * iv))).flag R.CAL_STATUS 7
  else s

/-- CALENDAR_LOAD (R47): repeating alarms that the load leaves behind advance (R52). -/
def State.calLoad (s : State) : State :=
  let h := s.reg R.CAL_SET_HI
  let s := s.setClk { s.clk with
    loadIn := none, seconds := (s.reg R.CAL_SET_LO).toNat, era := fld h 23 16, sub := fld h 14 0 }
  (([0, 1, 2, 3].foldl State.alarmOverdue (s.setRb R.CAL_VALID 0 true))).calReached

def execCalendarLoad (s : State) : Host.Outcome State Fault Refusal :=
  .next (if s.clk.loadIn = some 0 then s.calLoad else s)

/-- The calendar counts from 0 and is not valid. A load that still waits for its second edge is dropped (DESIGN CHOICE; log
entry 96). -/
def State.calLost (s : State) : State :=
  (s.setClk { s.clk with era := 0, seconds := 0, sub := 0, loadIn := none, lateAlarms := [] }).setRb R.CAL_VALID 0 false

/-- Registers kept on VBAK (R47, R54, R347, R489). -/
def vbakReg (a : Nat) : Bool :=
  (decide (R.CAL_UTC_OFFSET ≤ a) && decide (a < R.CAL_PAIR_DT_LO))
  || (decide (R.CAL_ALARMa_SEC 0 ≤ a) && decide (a < R.CAL_BRAMw 1024)) || a == R.PW_RESET_CAUSE
  || (List.range 2).any (fun b => a == R.FL_Bb_ADDR b || a == R.FL_Bb_STATE b)

/-- VBAK_RISE (R47, R54): everything kept on VBAK takes its first value, and the backup RAM holds good words of 0; an
operation that runs keeps its record. -/
def State.vbakRise (s : State) : State :=
  let runs := fun b => (s.flashOps.get (fun _ => none) b).isSome
  let s := (s.resetRegs (fun a => vbakReg a
    && !(List.range 2).any (fun b => runs b && (a == R.FL_Bb_ADDR b || a == R.FL_Bb_STATE b)))).calLost
  { s with
    scCount := s.scCount.set (fun _ => 0) R.CAL_STATUS 1
    ecc := s.ecc.clear (fun a => decide (R.CAL_BRAMw 0 ≤ a) && decide (a < R.CAL_BRAMw 1024)) }

def execVbakRise (s : State) : Host.Outcome State Fault Refusal := .next s.vbakRise

/-- OSC_STOP (R47). -/
def execOscStop (s : State) : Host.Outcome State Fault Refusal := .next (s.calLost.flag R.CAL_STATUS 9)

/-- A write to CAL_ALARMa_CTRL (R52). LATE_EXECUTED of an alarm under ASAP sets with the arming write (DESIGN CHOICE; log
entry 95). -/
def State.alarmArm (s : State) (a : Fin 4) (v : Word) : State :=
  let r := R.CAL_ALARMa_CTRL a.val
  let s := s.setClk { s.clk with lateAlarms := s.clk.lateAlarms.filter (fun b => b != a) }
  let s := s.setReg r (v &&& 0x70007FFF#32)
  if !bit v 31 then s
  else if serialAfter 47 (s.alarmValue a.val) s.calNow then s.setRb r 31 true
  else if bit v 30 then
    ((s.setRb r 31 true).flag R.CAL_STATUS 6).setClk { s.clk with lateAlarms := s.clk.lateAlarms ++ [a] }
  else s.flag R.CAL_STATUS 5

/-- An alarm fires (R51). -/
def State.alarmFire (s : State) (a : Fin 4) : State :=
  let r := R.CAL_ALARMa_CTRL a.val
  let c := s.reg r
  let s := s.setClk { s.clk with lateAlarms := s.clk.lateAlarms.filter (fun b => b != a) }
  let s := s.flag R.CAL_STATUS a.val
  let s := if bit c 28 && s.device != .backup then s.fireCentral (324 + a.val) else s
  let s := if bit c 29 && (s.device == .watch || s.device == .entering) then s.enqueue [.wakeSource (.alarm a)] else s
  let iv := (s.reg (R.CAL_ALARMa_INTERVAL a.val)).toNat
  if iv = 0 then s.setRb r 31 false
  else
    let sec := (s.reg (R.CAL_ALARMa_SEC a.val)).toNat
    let k := alarmSkips sec (fld c 14 0) iv s.calNow
    let s := s.setReg (R.CAL_ALARMa_SEC a.val) (w32 (sec + k * iv))
    if k = 1 then s else s.flag R.CAL_STATUS 7

/-- ALARM_FIRE (R51). -/
def execAlarmFire (a : Fin 4) (s : State) : Host.Outcome State Fault Refusal :=
  .next (if s.alarmDue a then s.alarmFire a else s)

end Sys2Proof.Machine
end

