-- ==== Sys2Proof/Machine/Epochs.lean ====
section
/-!
DEFINITION. The epoch controller (R56 to R74): staging, the life of an epoch, haul-down and the apply points, direct
writes to epoch-bound targets, and what an island reset does to entries.
-/
namespace Sys2Proof.Machine
open Sys2Proof

/-! ### What a change of epoch-bound registers does beside the new values -/

/-- The fabric object whose register lies at an address: 0 pennant, 1 hoist, 2 signal set, with its number. -/
def fabObject (a : Nat) : Nat × Nat :=
  match islandOf a with
  | some n =>
    let o := a % 0x1000000
    if o < 0x252000 then (0, 64 * n + (o - 0x251000) / 16) else (1, 16 * n + (o - 0x252000) / 32)
  | none =>
    let o := a % 0x1000000
    if o < 0x20000 then (0, 1024 + (o - 0x10000) / 16)
    else if o < 0x30000 then (1, 256 + (o - 0x20000) / 32)
    else (2, (o - 0x30000) / 32)

/-- A new configuration of a hoist (R267): a new FF leaves Q, and an unfiltered output with it, at 0; a new filter begins
its count again with the output unchanged. -/
def State.hoistSwapped (s o : State) (h : Nat) : State :=
  let a := hsCfg h
  let s := if o.rf a 31 30 ≠ s.rf a 31 30 then
      let t := s.setRb (hsState h) 30 false
      if hoistFilter (t.reg a) then t else t.setHoistOut h false
    else s
  if o.rf a 24 10 ≠ s.rf a 24 10 then s.setHoistCount h 0 else s

/-- A change at an address of the fabric: a pennant's selection is checked (R255), a set's members (R268), a new FF leaves
Q at 0 (R267), and every line is evaluated anew; `o` is the state before. -/
def State.fabAddrChanged (s : State) (o : State) (a : Nat) : State :=
  match fabObject a with
  | (0, p) => (s.heldSelection o p).fabricChanged (some p)
  | (1, h) => (if a = hsCfg h then s.hoistSwapped o h else s).fabricChanged none
  | (_, k) => (s.setCheck k).lowerPennants.refreshPennants

/-- A change of a block's epoch-bound registers at addresses `l`; `o` is the state before. -/
def State.blkChanged (s : State) (b : Blk) (o : State) (l : List Nat) : State :=
  match b with
  | .tu n k => ((s.tuChanged n k o).chansChanged n k (s.nowFine + 64) o).tuSwapped n k
  | .sd n d => s.sdRestart n d s.absTick
  | .cp n c => s.cpChanged n c (o.reg (R.CP_CFG n c)) (o.reg (R.CP_THR n c))
  | .eq n q => s.eqChanged o n q
  | .mk n k => s.mkChanged n k (o.reg (R.MK_CFG n k)) (o.reg (R.MK_TRACK n k))
  | .fi _ => l.foldl (fun t a => t.fabAddrChanged o a) s
  | .fb => l.foldl (fun t a => t.fabAddrChanged o a) s
  | _ => s

/-! ### Apply points (R64, R65, R74) -/

/-- Addresses of a block's due entries. -/
def State.dueAddrs (s : State) (b : Blk) : List Nat :=
  (s.ep.entries.filter (fun e => e.due && entryBlk e.addr == some b)).map (fun e => e.addr)

/-- Swap a block's due entries now. A timer unit uses the new values from the next tick (R175). -/
def State.swapNow (s : State) (b : Blk) : State :=
  let t := (s.swapBlk b).blkChanged b s (s.dueAddrs b)
  match b with
  | .tu n k => t.tuCfgWas n k s
  | _ => t

/-- Due entries meet a block at beat N: a block whose apply point is AT_BEAT swaps, as does a stopped one; the others
wait for their boundary. A frozen unit loads nothing (R188). An engine whose copy is under way applies them with the
copy, and the epoch reports it (R30). -/
def State.applyBlk (s : State) (b : Blk) : State :=
  if !s.dueIn b then s
  else match b with
  | .tu n k =>
    if s.tuFrozen n k then s
    else if !s.tuRunning n k || !s.rb (R.TU_CTRL n k) 0 then s.swapNow b else s
  | .ac n c => if !s.rb (R.AC_CTRL n c) 0 || s.acAtBoundary n c then s.acSwap n c else s
  | .le n m =>
    if (s.le n m).copying then
      (List.range 4).foldl (fun t i =>
        if t.ep.entries.any (fun e => e.slot == i && e.due && entryOf n m e) then t.resultFlag i 2 else t) s
    else s.leBoundary n m
  | _ => s.swapNow b

/-- Mark entries of executing epochs that satisfy `p` as due, and let each of their blocks meet them. -/
def State.markDue (s : State) (p : Entry → Bool) : State :=
  let sel := fun (e : Entry) => s.slotState e.slot == 4 && !e.due && p e
  let blks := ((s.ep.entries.filter sel).filterMap (fun e => entryBlk e.addr)).eraseDups
  let t := s.setEntries (s.ep.entries.map (fun e => if sel e then { e with due := true } else e))
  (blks.foldl (fun t b => t.applyBlk b) t).finishEpochs

/-! ### The life of an epoch (R60 to R63, R71) -/

/-- Next ID after `i`: 0x0000 is never issued. -/
def idAfter (i : Nat) : Nat := if 65535 ≤ i then 1 else i + 1

/-- The next ID to issue: an ID still held in a slot is skipped; at most four are held. -/
def State.freshId (s : State) : Nat :=
  (List.range 4).foldl (fun i _ => if (s.slotOfId i).isSome then idAfter i else i) s.ep.nextId

/-- A read of EP_OPEN by domain `d` (R61). -/
def State.epOpen (s : State) (d : Nat) : Word × State :=
  if (s.openSlot d).isSome then (0#32, s.flag R.EP_STATUS 5)
  else match (List.range 4).find? (fun i => s.slotState i == 0) with
    | none => (0#32, s.flag R.EP_STATUS 4)
    | some i =>
      let id := s.freshId
      let t := s.setReg (R.EP_SLOTs_STATE i) (w32 (at_ d 20 + at_ 1 16 + id))
      let t := (t.setReg (R.EP_SLOTs_RESULT i) (w32 (at_ id 16))).setReg (R.EP_SLOTs_ENTRIES i) 0#32
      (w32 (2 ^ 31 + at_ i 16 + id), { t with ep := { t.ep with nextId := idAfter id } })

def State.setSlotState (s : State) (i v : Nat) : State := s.setRf (R.EP_SLOTs_STATE i) 18 16 v

/-- A control write of domain `d` that names an epoch by ID (R60): ignored where no slot holds it, refused where another
domain opened it. -/
def State.byId (s : State) (d : Nat) (v : Word) (act : State → Nat → State) : BusResult × State :=
  match s.slotOfId (fld v 15 0) with
  | none => (.done, s)
  | some i => if s.slotOpener i = d then (.done, act s i) else (.error .ownership, s)

/-- EP_STAGE (R62). -/
def State.epStage (s : State) (i : Nat) : State := if s.slotState i = 1 then s.setSlotState i 2 else s

/-- A haul-down request of domain `d` for slot `i` at beat `n`, or at W + 2 (R63, R67). -/
def State.haulRequest (s : State) (d i : Nat) (n : Option (BitVec 64)) : State :=
  let s := s.request d
  let asap := bit (s.domReg R.EP_POLICY d) 0
  match s.slotState i with
  | 1 => s.flag R.EP_STATUS 8
  | 2 =>
    let b := n.getD (s.clk.beat + 2)
    if s.isLate b && !asap then (s.flag R.EP_STATUS 1).resultFlag i 1
    else
      let late := s.isLate b
      let s := if late then (s.flag R.EP_STATUS 2).resultFlag i 2 else s
      let at_ := if late then s.clk.beat + 2 else b
      ({ s with ep := { s.ep with
          armedAt := s.ep.armedAt.set (fun _ => 0#64) i at_
          asap := s.ep.asap.set (fun _ => false) i asap } }).setSlotState i 3
  | 0 => s
  | _ => s.flag R.EP_STATUS 9

/-- A write to EP_SLOTs_AT_HI by domain `d` (R60, R63). -/
def State.slotAtHi (s : State) (d i : Nat) (v : Word) : BusResult × State :=
  if s.slotState i = 0 ∨ s.slotOpener i ≠ d then (.error .ownership, s)
  else
    let s := s.setReg (R.EP_SLOTs_AT_HI i) v
    (.done, s.haulRequest d i (some (BitVec.ofNat 64 (pair64 v (s.reg (R.EP_SLOTs_AT_LO i))))))

/-- A write to EP_SLOTs_AT_LO by domain `d`. -/
def State.slotAtLo (s : State) (d i : Nat) (v : Word) : BusResult × State :=
  if s.slotState i = 0 ∨ s.slotOpener i ≠ d then (.error .ownership, s) else (.done, s.setReg (R.EP_SLOTs_AT_LO i) v)

/-- Discard the entries of a slot: shadows read as the active values again. -/
def State.dropEntries (s : State) (i : Nat) : State := s.setEntries (s.ep.entries.filter (fun e => e.slot != i))

/-- EP_ABANDON (R71) by domain `d`. -/
def State.epAbandon (s : State) (d i : Nat) : State :=
  let s := s.request d
  match s.slotState i with
  | 1 => s.setSlotState i 5
  | 2 => s.setSlotState i 5
  | 3 =>
    if serialGe (s.ep.armedAt.get (fun _ => 0#64) i) (s.clk.beat + 2) then s.setSlotState i 5
    else s.flag R.EP_STATUS 10
  | 4 => s.flag R.EP_STATUS 10
  | _ => s

/-- ABANDON_COMPLETE (R71). Until then the entries stand, and reads of the shadows and CONFLICT still see them (DESIGN
CHOICE; log entry 97). -/
def State.abandonDone (s : State) (i : Nat) : State :=
  if s.slotState i = 5 then ((s.dropEntries i).setReg (R.EP_SLOTs_STATE i) 0#32).resultFlag i 6 else s

def execAbandonComplete (slot : Fin 4) (s : State) : Host.Outcome State Fault Refusal := .next (s.abandonDone slot.val)

/-! ### Haul-down (R64, R68) -/

/-- Does the place of an entry execute at the present beat: the central complex, or an island that takes part? -/
def State.placeTakesPart (s : State) (a : Nat) : Bool :=
  match islandOf a with
  | some n => s.takesPart n
  | none => true

/-- Islands whose sync bit is back, but not yet for two beats, and that hold entries of executing epochs. -/
def State.noteUnsync (s : State) : State :=
  let l := (List.range 16).filter (fun n => s.synced n && !s.takesPart n && s.heldDue n
    && !s.ep.unsync.any (fun u => u.1 == n))
  { s with ep := { s.ep with
      unsync := s.ep.unsync ++ l.map (fun n => (n, s.clk.syncAt.get (fun _ => 0#64) n + 2)) } }

/-- Beat N of an armed epoch. -/
def State.haulDown (s : State) (i : Nat) : State :=
  if s.slotState i = 3 ∧ serialGe s.clk.beat (s.ep.armedAt.get (fun _ => 0#64) i) then
    let s := s.setSlotState i 4
    (s.markDue (fun e => e.slot == i && s.placeTakesPart e.addr)).noteUnsync
  else s

def execHaulDown (slot : Fin 4) (s : State) : Host.Outcome State Fault Refusal := .next (s.haulDown slot.val)

/-- UNSYNC_APPLY (R68): two beats after its sync bit returned, an island applies what it held. -/
def State.unsyncApply (s : State) (n : Nat) : State :=
  if s.synced n && s.ep.unsync.any (fun u => u.1 == n && serialGe s.clk.beat u.2) then
    let s := { s with ep := { s.ep with unsync := s.ep.unsync.filter (fun u => u.1 != n) } }
    let held := (List.range 4).filter (fun i => s.slotState i == 4
      && s.ep.entries.any (fun e => e.slot == i && !e.due && islandOf e.addr == some n))
    let s := held.foldl (fun t i => (t.resultFlag i 2).resultFlag i 4) s
    let s := if held = [] then s else s.flag R.EP_STATUS 3
    s.markDue (fun e => islandOf e.addr == some n)
  else s

def execUnsyncApply (n : Fin 16) (s : State) : Host.Outcome State Fault Refusal := .next (s.unsyncApply n.val)

/-- EP_SLOTs_PENDING (R66): where entries of an executing epoch remain. -/
def State.slotPending (s : State) (i : Nat) : Word :=
  if s.slotState i = 4 then
    wordOfBits (fun b => s.ep.entries.any (fun e => e.slot == i &&
      (match islandOf e.addr with
        | some n => b == n
        | none => b == 16)))
  else 0#32

/-- An island reset discards the island's entries (R69); an epoch that is being abandoned loses them without a report. -/
def State.entriesLost (s : State) (n : Nat) : State :=
  let lost := s.ep.entries.filter (fun e => islandOf e.addr == some n)
  let t := (s.setEntries (s.ep.entries.filter (fun e => islandOf e.addr != some n)))
  let t := (List.range 4).foldl (fun t i =>
    let k := (lost.filter (fun e => e.slot == i)).length
    if k = 0 ∨ s.slotState i = 5 then t
    else
      let t := t.resultFlag i 5
      if s.slotState i = 4 then t
      else t.setReg (R.EP_SLOTs_ENTRIES i) (w32 (t.rf (R.EP_SLOTs_ENTRIES i) 15 0 - k))) t
  t.finishEpochs

/-! ### Staging (R56 to R58) -/

/-- A dropped staging write. -/
def State.stagingError (s : State) (a flag : Nat) : State := (s.flag R.EP_STATUS flag).setReg R.EP_ERROR_ADDR (w32 a)

/-- A staging write of domain `d` at alias address `a` for target `t`, after the checks of R13 and R18. -/
def State.stagingWrite (s : State) (d a t : Nat) (v : Word) : State :=
  match s.openSlot d with
  | none => s.stagingError a 7
  | some i =>
    if !isEB t then s.stagingError a 6
    else match s.entryAt t with
      | some e =>
        if e.slot = i then s.stage i t v
        else ((s.flag R.EP_STATUS 0).setReg R.EP_CONFLICT_ADDR (w32 a)).setReg R.EP_CONFLICT_INFO
          (w32 (at_ d 16 + s.slotId e.slot))
      | none => s.stage i t v

/-! ### Direct writes (R4, R72, R73) -/

/-- Does the holder of an epoch-bound target run (R72, R257)? -/
def State.ebRuns (s : State) (b : Blk) (a : Nat) : Bool :=
  match b with
  | .tu n k => s.tuRunning n k
  | .le n m => s.rf (R.LE_RUN n m) 7 0 != 0
  | .ac n c => s.rb (R.AC_CTRL n c) 31
  | .sd n d => s.rb (R.SD_CFG n d) 31
  | .cp n c => s.rb (R.CP_CFG n c) 31
  | .eq n q => s.rb (R.EQ_CTRL n q) 31
  | .mk n k => s.rb (R.MK_CFG n k) 31
  | .fi _ | .fb =>
    match fabObject a with
    | (0, p) => s.rb (pnCtrl p) 31
    | (1, h) => s.selecting (.hoist h) != []
    | (_, k) => s.pennantsOn.any (fun p => s.setHas k p)
  | _ => false

/-- Report an ignored direct write in the block's status. -/
def State.ebDirect (s : State) (b : Blk) (a : Nat) : State :=
  match b with
  | .tu n k => s.flag (R.TU_STATUS n k) 0
  | .le n m => s.flag (R.LE_STATUS n m) 0
  | .ac n c => s.flag (R.AC_STATUS n c) 0
  | .sd n d => s.flag (R.SD_STATUS n d) 0
  | .cp n c => s.flag (R.CP_STATUS n c) 0
  | .eq n q => s.flag (R.EQ_STATUS n q) 0
  | .mk n k => s.flag (R.MK_STATUS n k) 0
  | .fi _ | .fb =>
    match islandOf a with
    | some n => s.flag (R.FI_STATUS n) 0
    | none => s.flag R.FB_STATUS 0
  | _ => s

/-- A direct write to an epoch-bound register or memory word. -/
def State.ebWrite (s : State) (a : Nat) (v : Word) : State :=
  match entryBlk a with
  | none => s
  | some b =>
    if s.ebRuns b a || (s.entryAt a).isSome then s.ebDirect b a
    else (s.setActive a (s.merge a v)).blkChanged b s [a]

/-- Entries that met a frozen unit apply when the freeze ends (R188). -/
def State.thawUnits (s : State) (o : State) : State :=
  allUnits.foldl (fun t u =>
    if o.tuFrozen u.1 u.2 && !t.tuFrozen u.1 u.2 then t.applyBlk (.tu u.1 u.2) else t) s

end Sys2Proof.Machine
end

