-- ==== Sys2Proof/Machine/Cores.lean ====
section
/-!
DEFINITION. Control cores without their instructions (R278, R308 to R314, R325 to R335): contexts, banks, the scheduler,
hold, lock and split, safe halt, lockstep, debug halt.
-/
namespace Sys2Proof.Machine
open Sys2Proof

/-! ### Records -/

def State.coreRec (s : State) (n : Nat) : CoreRec := s.cores.get (fun _ => .reset) n

def State.setCoreRec (s : State) (n : Nat) (r : CoreRec) : State := { s with cores := s.cores.set (fun _ => .reset) n r }

/-- The context of a slot. -/
def State.slotCtx (s : State) (n i : Nat) : CoreCtx := (s.coreRec n).slots.get (fun _ => .reset) i

def State.setSlotCtx (s : State) (n i : Nat) (c : CoreCtx) : State :=
  let r := s.coreRec n
  s.setCoreRec n { r with slots := r.slots.set (fun _ => .reset) i c }

/-- The running context. -/
def State.core (s : State) (n : Nat) : CoreCtx := s.slotCtx n (s.runSlot n)

def State.setCore (s : State) (n : Nat) (c : CoreCtx) : State := s.setSlotCtx n (s.runSlot n) c

/-! ### Registers of a context (R278, R313, R334) -/

/-- A g register: g0 reads 0. -/
def CoreCtx.gr (c : CoreCtx) (r : Nat) : Word := if r = 0 then 0#32 else c.g.get (fun _ => 0#32) r

def CoreCtx.fr (c : CoreCtx) (r : Nat) : Word := c.f.get (fun _ => 0#32) r

/-- Write a register; a write to g0 is discarded. -/
def CoreCtx.put (c : CoreCtx) (d : CReg) (v : Word) : CoreCtx :=
  match d with
  | .g r => if r = 0 then c else { c with g := c.g.set (fun _ => 0#32) r v }
  | .f r => { c with f := c.f.set (fun _ => 0#32) r v }

/-- A control register as stored. -/
def CoreCtx.crv (c : CoreCtx) (k : Nat) : Word := c.cr.get crReset k

def CoreCtx.setCr (c : CoreCtx) (k : Nat) (v : Word) : CoreCtx := { c with cr := c.cr.set crReset k v }

/-- Numbers of the control registers that R313 and R334 list. -/
def crListed (k : Nat) : Bool :=
  decide (k ≤ 6) || (decide (8 ≤ k) && decide (k ≤ 0x10)) || (decide (0x20 ≤ k) && decide (k ≤ 0x24))

/-- Writable bits of a control register. -/
def crMask (k : Nat) : Word := match k with
  | 0 => 0xE0003F00#32
  | 1 => 3#32
  | 2 => 0x31F#32
  | 3 => 0xE000FFFF#32
  | 9 | 11 | 13 | 15 => 0xFFFFFF#32
  | 0x10 | 0x24 => 0#32
  | 0x20 => 0xFFFFFF00#32
  | 0x21 => 0x8000FF0F#32
  | 0x23 => 0xFF#32
  | _ => 0xFFFFFFFF#32

/-- A write to a control register changes its writable bits. -/
def CoreCtx.writeCr (c : CoreCtx) (k : Nat) (v : Word) : CoreCtx :=
  c.setCr k ((c.crv k &&& ~~~ crMask k) ||| (v &&& crMask k))

def CoreCtx.status (c : CoreCtx) : Word := c.crv 0
def CoreCtx.sup (c : CoreCtx) : Bool := bit c.status 31
def CoreCtx.lockout (c : CoreCtx) : Bool := bit c.status 30
def CoreCtx.fps (c : CoreCtx) : Bool := bit c.status 29
def CoreCtx.det (c : CoreCtx) : Bool := bit (c.crv 1) 1
def CoreCtx.compat (c : CoreCtx) : Bool := bit (c.crv 1) 0
/-- Neither DETERMINISTIC nor COMPAT: pairs issue (R295). -/
def CoreCtx.native (c : CoreCtx) : Bool := !c.det && !c.compat
def CoreCtx.dspLimit (c : CoreCtx) : Word := c.crv 6

/-! ### Results in flight (R290, R294) -/

/-- The results that land when one more issue cycle begins, in the order of issue. -/
def CoreCtx.landOne (c : CoreCtx) : CoreCtx :=
  let c' := (c.flight.filter (fun x => x.k ≤ 1)).foldl (fun c x => c.put x.reg x.value) c
  { c' with flight := (c.flight.filter (fun x => 1 < x.k)).map (fun x => { x with k := x.k - 1 }) }

/-- Every result lands, in the order in which it would. -/
def CoreCtx.landAll (c : CoreCtx) : CoreCtx := c.landOne.landOne.landOne.landOne

/-- The next issue cycle begins for the results in flight, unless an exception or a switch has begun it already. -/
def CoreCtx.nextCycle (c : CoreCtx) : CoreCtx :=
  if c.advanced then { c with advanced := false } else c.landOne

/-- The instant between two issue cycles: the record that an exception or a switch takes (R294). -/
def CoreCtx.betweenCycles (c : CoreCtx) : CoreCtx :=
  if c.compat then { c.landAll with advanced := true }
  else if c.advanced then c else { c.landOne with advanced := true }

/-! ### Run state (R314) -/

/-- CC_STATE.RUN: 0 HELD, 1 RUNNING, 2 IDLE, 3 DEBUG_HALT, 4 SAFE_HALT, 5 RECOVERING. -/
def State.coreRun (s : State) (n : Nat) : Nat := s.rf (R.CC_STATE n) 31 29

def State.setCoreRun (s : State) (n v : Nat) : State := s.setRf (R.CC_STATE n) 31 29 v

/-- The upper core of a locked pair executes with the lower one. -/
def State.upperLocked (s : State) (n : Nat) : Bool := n % 2 == 1 && s.locked n

/-- CC_STATE. UPPER shows while the core is not held. -/
def State.ccStateView (s : State) (n : Nat) : Word :=
  let l := s.leadCore n
  let run := s.coreRun l
  w32 (at_ run 29 + at_ (b2n (s.locked n)) 28 + at_ (b2n (s.upperLocked n && run != 0)) 27
    + at_ (if run = 0 then 0 else fld ((s.core l).crv 1) 1 0) 24)

/-- CC_TRANSIENTS with its WINDOW of the last second. -/
def State.ccTransView (s : State) (n : Nat) : Word :=
  let w := (s.coreRec n).window.filter (fun b => (s.clk.beat - b).toNat < 250000000)
  setFld (s.reg (R.CC_TRANSIENTS n)) 4 0 w.length

/-- Domain of a core: its own, the lower core's in a locked pair (R17). -/
def State.coreDomain (s : State) (n : Nat) : Nat := s.leadCore n + 1

/-- CORE_ID (R313). -/
def State.coreId (s : State) (n : Nat) : Word :=
  w32 (at_ (b2n (s.locked n)) 8 + at_ (s.domainOf (.core (Fin.ofNat 8 n))) 4 + n)

/-! ### Slots (R326) -/

/-- Field STATE as stored: 0 DISABLED, 1 WAITING, 2 preempted or READY, 3 RUNNING. -/
def State.slotSt (s : State) (n i : Nat) : Nat := s.rf (R.SCH_SLOTs_STATE n i) 31 30

def State.setSlotSt (s : State) (n i v : Nat) : State := s.setRf (R.SCH_SLOTs_STATE n i) 31 30 v

def State.slotPend (s : State) (n i : Nat) : Bool := s.rb (R.SCH_SLOTs_STATE n i) 29

def State.slotEn (s : State) (n i : Nat) : Bool := s.rb (R.SCH_SLOTs_CTRL n i) 31

/-- A slot that may run: preempted, or WAITING with an event. -/
def State.slotReady (s : State) (n i : Nat) : Bool := s.slotSt n i == 2 || (s.slotSt n i == 1 && s.slotPend n i)

def State.slotBank (s : State) (n i : Nat) : Option Nat :=
  (List.range 16).find? (fun b => (s.coreRec n).banks.getD b none == some i)

def State.resident (s : State) (n i : Nat) : Bool := (s.slotBank n i).isSome

/-- SCH_SLOTs_STATE. -/
def State.slotStateView (s : State) (n i : Nat) : Word :=
  let v := s.reg (R.SCH_SLOTs_STATE n i)
  let v := if s.slotSt n i = 1 ∧ s.slotReady n i = true then setFld v 31 30 2 else v
  match s.slotBank n i with
  | some b => setFld (setBit v 28 true) 23 20 b
  | none => v

def State.slotPrio (s : State) (n i : Nat) : Nat := s.rf (R.SCH_SLOTs_CTRL n i) 3 0

def State.slotPinned (s : State) (n i : Nat) : Bool := s.rb (R.SCH_SLOTs_CTRL n i) 28

/-- Slots that the map shows with a state of their own, and slot 0. -/
def State.liveSlots (s : State) (n : Nat) : List Nat :=
  (List.range 256).filter (fun i => i == 0 || s.slotEn n i || s.resident n i)

/-- SCH_STATE: the reset value shows while the core is held. -/
def State.schStateView (s : State) (n : Nat) : Word :=
  if s.coreRun n = 0 then s.reg (R.SCH_STATE n)
  else
    let r := s.coreRec n
    let free := (r.banks.filter (fun b => b.isNone)).length
    let v := setFld (s.reg (R.SCH_STATE n)) 20 16 free
    let v := setFld v 4 0 ((List.range 256).filter (fun i => s.slotPinned n i)).length
    setFld (setBit v 23 (s.coreRun n != 2)) 22 21 (match r.engine with
      | none => 0
      | some (true, _) => 2
      | some (false, _) => 1)

/-- An event for a slot (R326): PEND sets, or OVR where it is set already. -/
def State.slotEvent (s : State) (n i : Nat) : State :=
  if !s.slotEn n i then s
  else if s.slotPend n i then (s.setRb (R.SCH_SLOTs_STATE n i) 27 true).flag (R.SCH_STATUS n) 2
  else s.setRb (R.SCH_SLOTs_STATE n i) 29 true

def State.clearPend (s : State) (n i : Nat) : State :=
  (s.setRb (R.SCH_SLOTs_STATE n i) 29 false).setRb (R.SCH_SLOTs_STATE n i) 27 false

/-! ### Dispatch (R327, R328) -/

/-- Slots that the scheduler considers: slot 0 alone until SCH_CTRL.EN. -/
def State.schedulable (s : State) (n i : Nat) : Bool := s.rb (R.SCH_CTRL n) 31 || i == 0

/-- Of the slots that satisfy `p`, the one of highest priority, the lower number first. -/
def State.bestSlot (s : State) (n : Nat) (p : Nat → Bool) : Option Nat :=
  ((s.liveSlots n).filter p).foldl (fun b i => match b with
    | none => some i
    | some j => if s.slotPrio n j < s.slotPrio n i then some i else b) none

/-- The next slot to run. -/
def State.nextSlot (s : State) (n : Nat) : Option Nat :=
  s.bestSlot n (fun i => s.schedulable n i && s.slotReady n i)

/-- Start the spill engine where it has work (R329): a fill into a free bank, or a spill where no bank is free. A pinned
slot is filled before it is READY, as in the worked example of R332 (log entry 61). -/
def State.engineStart (s : State) (n : Nat) : State :=
  let r := s.coreRec n
  if r.engine.isSome then s
  else if r.banks.any (fun b => b.isNone) then
    match (s.bestSlot n (fun i => s.schedulable n i && s.slotReady n i && !s.resident n i)).or
        (s.bestSlot n (fun i => s.slotEn n i && s.slotPinned n i && !s.resident n i)) with
    | some i => s.setCoreRec n { r with engine := some (true, i, s.absTick + 120) }
    | none => s
  else
    let cand := r.banks.filterMap (fun b => match b with
      | some i => if s.slotSt n i == 3 || s.slotPinned n i then none else some i
      | none => none)
    let off := cand.filter (fun i => s.slotSt n i == 0)
    let pick := (if off = [] then cand else off).foldl (fun b i => match b with
      | none => some i
      | some j => if r.ran.get (fun _ => 0) i < r.ran.get (fun _ => 0) j then some i else b) (none : Option Nat)
    match pick with
    | some i => s.setCoreRec n { r with engine := some (false, i, s.absTick + 120) }
    | none => s

/-- Dispatch slot `i`. -/
def State.dispatch (s : State) (n i : Nat) : State :=
  let fresh := s.slotSt n i == 1
  let s := if fresh then
      (s.clearPend n i).setRf (R.SCH_SLOTs_STATE n i) 15 0 (s.rf (R.SCH_SLOTs_STATE n i) 15 0 + 1)
    else s
  let s := ((s.setSlotSt n i 3).setRf (R.SCH_STATE n) 31 24 i).setCoreRun n 1
  let r := s.coreRec n
  let s := if r.deferred = [] then s else s.enqueue [.storeFaultDeferred (Fin.ofNat 8 n)]
  s.setCoreRec n { r with
    dom := s.rf (R.SCH_SLOTs_DOM n i) 3 0, runs := r.runs + 1, ran := r.ran.set (fun _ => 0) i (r.runs + 1) }

/-- An event that falls between the first instruction of a possible pair and its partner falls before the cycle that
they share (R294): the first has not issued. -/
def State.unpair (s : State) (n : Nat) : State :=
  match (s.coreRec n).pair with
  | none => s
  | some p =>
    let t := s.setCore n p.undo
    t.setCoreRec n { t.coreRec n with pair := none }

/-- The running context leaves the pipe between two issue cycles: results in flight are recorded, long operations
become re-issue entries, and PROGRESS names the next word of a block transfer (R294, R320). -/
def State.parkCore (s : State) (n : Nat) : State :=
  let s := s.unpair n
  let c := (s.core n).betweenCycles
  s.setCore n (match c.blk with
    | some b => c.setCr 0 (setFld (c.crv 0) 13 8 b.next)
    | none => c)

/-- Run the best READY slot, or go IDLE; a slot that is not resident waits for its fill. While the bank that ran last
holds LOCKOUT, no other slot is dispatched (R316). -/
def State.runNext (s : State) (n : Nat) : State :=
  let own := s.runSlot n
  let pick := if (s.core n).lockout && s.slotSt n own != 0 then (if s.slotReady n own then some own else none) else s.nextSlot n
  match pick with
  | some i => if s.resident n i then (s.dispatch n i).engineStart n else (s.setCoreRun n 2).engineStart n
  | none => (s.setCoreRun n 2).engineStart n

/-- Does a READY slot of higher priority wait to preempt the running one (R327)? -/
def State.preempts (s : State) (n : Nat) : Option Nat :=
  match s.nextSlot n with
  | some i => if s.slotPrio n (s.runSlot n) < s.slotPrio n i then some i else none
  | none => none

/-- The running slot has been disabled: it leaves at the next issue boundary, as a preemption would (R328). -/
def State.retireSlot (s : State) (n : Nat) : State :=
  let i := s.runSlot n
  if s.coreRun n == 1 && !s.slotEn n i && !(s.core n).lockout then
    (((s.parkCore n).setSlotSt n i 0).clearPend n i).runNext n
  else s

/-- After an event: an idle core dispatches, a running one makes the preemption due. -/
def State.schedule (s : State) (n : Nat) : State :=
  if s.coreRun n = 2 then s.runNext n
  else if s.coreRun n = 1 then
    if !s.slotEn n (s.runSlot n) && !(s.core n).lockout then s.retireSlot n
    else match s.preempts n with
    | some i =>
      let s := s.engineStart n
      if s.resident n i && !(s.core n).lockout then s.enqueue [.taskPreempt (Fin.ofNat 8 n)] else s
    | none => s.engineStart n
  else s

/-- TASK_PREEMPT (R327). -/
def State.taskPreempt (s : State) (n : Nat) : State :=
  if s.coreRun n != 1 || (s.core n).lockout || s.upperLocked n then s
  else match s.preempts n with
    | some i =>
      if s.resident n i then (((s.parkCore n).setSlotSt n (s.runSlot n) 2).dispatch n i).engineStart n else s
    | none => s

def execTaskPreempt (n : Fin 8) (s : State) : Host.Outcome State Fault Refusal := .next (s.taskPreempt n.val)

/-- SCHEDULER_EVENT (R326): a wake pennant of the slot rises at the scheduler. -/
def execSchedulerEvent (n : Fin 8) (slot : Fin 256) (s : State) : Host.Outcome State Fault Refusal :=
  .next (if s.upperLocked n.val then s else (s.slotEvent n.val slot.val).schedule n.val)

/-- First byte of the image of a slot (R329). -/
def State.slotImage (s : State) (n i : Nat) : Nat := 0x30000000 + 0x100000 * n + (s.reg (R.SCH_SPILL n)).toNat + 512 * i

/-- BANK_SPILL_DONE (R329): the image, whose layout the spec does not give, stands in the spill area. -/
def State.spillDone (s : State) (n : Nat) : State :=
  match (s.coreRec n).engine with
  | some (false, i, _) =>
    let r := s.coreRec n
    let base := s.slotImage n i
    let s := s.setCoreRec n { r with
      engine := none, banks := r.banks.map (fun b => if b == some i then none else b) }
    let s := (List.range 128).foldl (fun t w =>
      let (v, t) := t.free
      t.setMword (base + 4 * w) v) s
    (s.engineStart n).schedule n
  | _ => s

def execBankSpillDone (n : Fin 8) (s : State) : Host.Outcome State Fault Refusal := .next (s.spillDone n.val)

/-- BANK_FILL_DONE (R329); `bad` says that the image held an uncorrectable word. -/
def State.fillDone (s : State) (n : Nat) (bad : Bool) : State :=
  match (s.coreRec n).engine with
  | some (true, i, _) =>
    let r := s.coreRec n
    let s := s.eccWalk (s.slotImage n i) 128
    if bad then
      let s := s.setCoreRec n { r with engine := none }
      let s := (((s.setRb (R.SCH_SLOTs_CTRL n i) 31 false).setSlotSt n i 0).clearPend n i).flag (R.SCH_STATUS n) 3
      (s.report (0x100 + n) (0x100 + n) 0x11 0#32).schedule n
    else
      let b := (List.range 16).find? (fun b => (r.banks.getD b none).isNone)
      let s := s.setCoreRec n { r with
        engine := none, banks := match b with
          | some b => r.banks.set b (some i)
          | none => r.banks }
      s.schedule n
  | _ => s

def execBankFillDone (n : Fin 8) (bad : Bool) (s : State) : Host.Outcome State Fault Refusal :=
  .next (s.fillDone n.val bad)

/-! ### Slot registers (R328, R329, R335) -/

/-- INIT: the context of slot `i` (R328). -/
def State.slotInit (s : State) (n i : Nat) : State := s.setSlotCtx n i (CoreCtx.reset.setCr 0 (w32 i))

/-- A write to SCH_SLOTs_CTRL (R328, R329, R335). -/
def State.slotCtrlWrite (s : State) (n i : Nat) (v : Word) : State :=
  let a := R.SCH_SLOTs_CTRL n i
  let was := s.slotEn n i
  let s := if bit v 29 then (if was then s.flag (R.SCH_STATUS n) 0 else s.slotInit n i) else s
  let pins := ((List.range 256).filter (fun j => j != i && s.slotPinned n j)).length
  let refused := bit v 28 && !s.slotPinned n i && decide (14 ≤ pins)
  let s := if refused then s.flag (R.SCH_STATUS n) 1 else s
  let s := s.setReg a (v &&& (if refused then 0x8000000F#32 else 0x9000000F#32))
  let s := if bit v 31 && !was then (if s.slotSt n i == 3 then s else (s.setSlotSt n i 1).clearPend n i)
    else if !bit v 31 && was then
      if s.slotSt n i == 3 then s else (s.setSlotSt n i 0).clearPend n i
    else s
  let s := if bit v 30 then s.slotEvent n i else s
  s.schedule n

/-- A write to SCH_SPILL. -/
def State.spillWrite (s : State) (n : Nat) (v : Word) : State :=
  let a := v.toNat
  if a % 512 ≠ 0 ∨ a < 0x80000 ∨ 0x100000 < a + 0x20000 ∨ (List.range 255).any (fun i => s.slotEn n (i + 1)) = true then
    s.flag (R.SCH_STATUS n) 4
  else s.setReg (R.SCH_SPILL n) v

/-- A write to SCH_CTRL. -/
def State.schCtrlWrite (s : State) (n : Nat) (v : Word) : State :=
  (s.setReg (R.SCH_CTRL n) (v &&& 0xC0000000#32)).schedule n

/-! ### Hold, lock and split (R310, R328) -/

/-- Return a core's scheduler to its reset values (R333). -/
def State.schReset (s : State) (n : Nat) : State :=
  let base := R.SCH_OWNER n
  let own := s.reg base
  let s := s.resetRegs (fun a => decide (base ≤ a) && decide (a < base + 0x10000))
  (s.setReg base own).setCoreRec n { CoreRec.reset with permanent := (s.coreRec n).permanent, window := (s.coreRec n).window }

/-- HOLD release: slot 0 starts at CC_BOOT in supervisor mode (R328). -/
def State.coreStart (s : State) (n : Nat) : State :=
  let s := s.slotInit n 0
  let c := (s.slotCtx n 0).setCr 0 0x80000000#32
  let s := s.setSlotCtx n 0 { c with pc := s.reg (R.CC_BOOT n) &&& ~~~ 3#32 }
  let r := s.coreRec n
  let banks := if s.resident n 0 then r.banks else
    match (List.range 16).find? (fun b => (r.banks.getD b none).isNone) with
    | some b => r.banks.set b (some 0)
    | none => r.banks.set 0 (some 0)
  let s := s.setCoreRec n { r with
    banks := banks, pair := none, deferred := [], halted := false, haltedAll := false, stale := [] }
  if s.slotEn n 0 then (s.setSlotSt n 0 2).dispatch n 0 else (s.setRf (R.SCH_STATE n) 31 24 0).setCoreRun n 2

/-- A halt of a core (0 to 7) or of the device (8) no longer freezes any unit (R188). -/
def State.unfreezeUnits (s : State) (who : Nat) : State :=
  allUnits.foldl (fun t u => if (t.tu u.1 u.2).frozenBy.contains who then t.tuUnfreeze u.1 u.2 who else t) s

/-- Hold a core: its pipe empties; the running slot stays enabled. A debug halt ends with it. -/
def State.coreStop (s : State) (n : Nat) : State :=
  let s := s.unpair n
  let r := s.coreRec n
  let s := if s.slotSt n (s.runSlot n) = 3 then s.setSlotSt n (s.runSlot n) 2 else s
  let s := (s.setCoreRec n { r with pair := none, deferred := [], halted := false, haltedAll := false }).setCoreRun n 0
  if r.halted then s.unfreezeUnits n else s

/-- A pair splits: the upper core's TCM holds what it mirrored (R308, R310). -/
def State.mirrorTcm (s : State) (n : Nat) : State :=
  let lower := fun a => decide (0x30000000 + 0x100000 * n ≤ a) && decide (a < 0x30100000 + 0x100000 * n)
  let t := s.clearMem (fun a => decide (0x100000 ≤ a) && lower (a - 0x100000))
  let t := (s.mem.filter (fun e => lower e.1)).foldl (fun u e => u.setByte (e.1 + 0x100000) e.2) t
  (s.ecc.filter (fun e => lower e.1)).foldl
    (fun u e => { u with ecc := u.ecc.set (fun _ => .good) (e.1 + 0x100000) e.2 }) t

/-- A write to CC_CTRL (R310, R314, R328). -/
def State.ccCtrlWrite (s : State) (n : Nat) (v : Word) : State :=
  let a := R.CC_CTRL n
  let lockChange := n % 2 == 0 && bit v 30 != s.rb a 30
  let held := s.coreRun n == 0 && (s.coreRun (n + 1) == 0 || s.locked n)
  let s := if lockChange then
      if held then
        let s := if bit v 30 then s else s.mirrorTcm n
        ((s.setRb a 30 (bit v 30)).schReset n).schReset (n + 1)
      else s.flag (R.CC_STATUS n) 1
    else s
  if s.upperLocked n || s.coreRun n == 4 then s
  else
    let was := s.rb a 31
    let s := s.setRb a 31 (bit v 31)
    if was && !bit v 31 then s.coreStart n
    else if !was && bit v 31 then s.coreStop n
    else s

/-! ### Safe halt (R325) -/

/-- Units whose owner is the core's domain. -/
def State.ownedUnits (s : State) (n : Nat) : List (Nat × Nat) :=
  allUnits.filter (fun u => s.islandRuns u.1 && s.ownerDom (R.TU_OWNER u.1 u.2) == s.coreDomain n)

/-- Enter safe halt with a cause. -/
def State.safeHalt (s : State) (n cause : Nat) : State :=
  let s := s.unpair n
  let pc := (s.core n).pc
  let s := (s.setCoreRun n 4).flag (R.CC_STATUS n) 0
  let s := ((s.setReg (R.SCH_HALT_INFO n) (w32 cause)).setReg (R.SCH_HALT_PC n) pc).fireCentral (576 + n)
  let s := if cause = 4 then s.report (0x100 + n) (0x100 + n) 0x08 0#32 else s.report (0x100 + n) (0x100 + n) 0x09 pc
  if s.rb (R.SCH_CTRL n) 30 then
    (s.ownedUnits n).foldl (fun t u =>
      let r := t.tu u.1 u.2
      (t.setTu u.1 u.2 { r with causes := (16 + n) :: r.causes.filter (fun c => c != 16 + n) }).sysHold u.1 u.2 19) s
  else s

/-- A write to SCH_RELEASE by domain 0. -/
def State.schRelease (s : State) (n : Nat) : State :=
  if s.coreRun n != 4 then s
  else if (s.coreRec n).permanent then s.flag (R.SCH_STATUS n) 5
  else
    let s := (List.range 255).foldl (fun t i =>
      if t.slotEn n (i + 1) then
        ((t.setRb (R.SCH_SLOTs_CTRL n (i + 1)) 31 false).setSlotSt n (i + 1) 0).clearPend n (i + 1)
      else t) s
    let s := ((s.slotInit n 0).coreStop n).setRb (R.CC_CTRL n) 31 true
    let s := allUnits.foldl (fun t u =>
      let r := t.tu u.1 u.2
      if r.causes.contains (16 + n) then t.setTu u.1 u.2 { r with causes := r.causes.filter (fun c => c != 16 + n) } else t) s
    s.conditionEnded (0x100 + n)

/-! ### Lockstep (R309) -/

/-- LOCKSTEP_DISAGREEMENT: `again` says that the re-execution disagrees too. -/
def State.lockstep (s : State) (n : Nat) (again : Bool) : State :=
  if !s.locked n || (s.coreRun n != 1 && s.coreRun n != 2) then s
  else
    let r := s.coreRec n
    let w := r.window.filter (fun b => (s.clk.beat - b).toNat < 250000000)
    if again || decide (16 ≤ w.length) then
      ((s.setCoreRec n { r with permanent := true }).flag (R.CC_STATUS n) 3).safeHalt n 4
    else
      let s := s.setCoreRec n { r with window := w ++ [s.clk.beat] }
      let s := s.setRf (R.CC_TRANSIENTS n) 31 16 (min 0xFFFF (s.rf (R.CC_TRANSIENTS n) 31 16 + 1))
      (s.flag (R.CC_STATUS n) 2).report (0x100 + n) (0x100 + n) 0x07 0#32

def execLockstepDisagreement (pair : Fin 4) (again : Bool) (s : State) : Host.Outcome State Fault Refusal :=
  .next (s.lockstep (2 * pair.val) again)

def State.corePermanent (s : State) (n : Nat) : Bool := (s.coreRec n).permanent

/-- A pair passes its restore (R459): it stays in safe halt. -/
def State.coreRestored (s : State) (n : Nat) : State :=
  s.setCoreRec n { s.coreRec n with permanent := false, window := [] }

/-! ### Debug halt (R188, R311) -/

/-- A core's accesses carry domain `d` (R188): its own, the domains of both cores of a pair, a task domain of an enabled
slot. -/
def State.coreCarries (s : State) (n d : Nat) : Bool :=
  d == s.coreDomain n || (s.locked n && d == s.coreDomain n + 1)
    || (decide (12 ≤ d) && decide (d < 16)
      && (List.range 256).any (fun i => s.rf (R.SCH_SLOTs_DOM n i) 3 0 == d && s.slotEn n i))

/-- Freeze the units of a core's domains, or every unit for a device-wide halt. -/
def State.freezeUnits (s : State) (who : Nat) : State :=
  (if who < 8 then allUnits.filter (fun u => s.islandRuns u.1 && s.coreCarries who (s.ownerDom (R.TU_OWNER u.1 u.2))) else allUnits.filter (fun u => s.islandRuns u.1)).foldl
    (fun t u => t.tuFreeze u.1 u.2 who) s

/-- One core halts between issue cycles. -/
def State.haltCore (s : State) (n : Nat) (all : Bool) : State :=
  let r := s.coreRec n
  if s.upperLocked n || s.coreRun n == 0 || s.coreRun n == 4 then s
  else
    let idle := s.coreRun n == 2
    let s := s.setCoreRec n (if all then { r with haltedAll := true } else { r with halted := true })
    if s.coreRun n == 3 then s
    else
      let s := if idle then s else s.parkCore n
      s.setCoreRun n 3

/-- A halted core resumes when nothing halts it any more. -/
def State.resumeCore (s : State) (n : Nat) (all : Bool) : State :=
  let r := s.coreRec n
  let r := if all then { r with haltedAll := false } else { r with halted := false }
  let s := s.setCoreRec n r
  if s.coreRun n != 3 || r.halted || r.haltedAll then s
  else if s.slotSt n (s.runSlot n) = 3 then (s.setCoreRun n 1).schedule n
  else s.runNext n

/-- DEBUG_HALT: of one core or pair, or of the device (8). -/
def State.debugHalt (s : State) (who : Nat) : State :=
  if who < 8 then
    if s.upperLocked who || s.coreRun who == 0 || (s.coreRec who).halted then s else (s.haltCore who false).freezeUnits who
  else ((List.range 8).foldl (fun t n => t.haltCore n true) s).freezeUnits 8

/-- DEBUG_RESUME. -/
def State.debugResume (s : State) (who : Nat) : State :=
  if who < 8 then ((s.resumeCore who false)).unfreezeUnits who
  else ((List.range 8).foldl (fun t n => t.resumeCore n true) s).unfreezeUnits 8

/-! ### The data cache behind other masters (R299) -/

/-- Another master changes byte `a`: a line of core `n` may go on holding what it held. -/
def State.markStale (s : State) (n a : Nat) : State :=
  let r := s.coreRec n
  match r.stale.get (fun _ => none) a with
  | none => s.setCoreRec n { r with stale := r.stale.set (fun _ => none) a (some (s.byte a)) }
  | some _ =>
    let (older, t) := s.freeBit
    if older then t else t.setCoreRec n { r with stale := r.stale.set (fun _ => none) a (some (s.byte a)) }

/-- The line of byte `a` holds what memory holds. -/
def State.unstale (s : State) (n : Nat) (p : Nat → Bool) : State :=
  let r := s.coreRec n
  s.setCoreRec n { r with stale := r.stale.clear p }

/-- Bytes are about to change: the writing core's own line follows its store, every other core that runs may keep the
old ones. -/
def State.cachesMiss (s : State) (writer : Option Nat) (l : List Nat) : State :=
  (List.range 8).foldl (fun t n =>
    if t.coreRun n == 0 || t.upperLocked n then t
    else if writer == some n then l.foldl (fun u a => u.unstale n (fun x => x == a)) t
    else l.foldl (fun u a => u.markStale n a) t) s

end Sys2Proof.Machine
end

