-- ==== Sys2Proof/Machine/Flash.lean ====
section
/-!
DEFINITION. Flash and its controller (R341 to R347, R357): code words, operations of the two banks, interrupted
operations.
-/
namespace Sys2Proof.Machine
open Sys2Proof

/-- First byte of the code word that holds an address. -/
def codeWord (a : Nat) : Nat := a / 32 * 32

def State.flashMark (s : State) (a : Nat) : FlashMark := s.flash.get (fun _ => .reset) (codeWord a)

def State.setFlashMark (s : State) (a : Nat) (r : FlashMark) : State :=
  { s with flash := s.flash.set (fun _ => .reset) (codeWord a) r }

/-- Bank of a flash address: 0 A, 1 B. -/
def flashBank (a : Nat) : Nat := if a < 0x11000000 then 0 else 1

/-- The operation of a bank in progress. -/
def State.flashOp (s : State) (b : Nat) : Option FlashOp := s.flashOps.get (fun _ => none) b

def State.setFlashOp (s : State) (b : Nat) (o : Option FlashOp) : State :=
  { s with flashOps := s.flashOps.set (fun _ => none) b o }

def State.flashBusy (s : State) (b : Nat) : Bool := (s.flashOp b).isSome

def State.anyFlashBusy (s : State) : Bool := s.flashBusy 0 || s.flashBusy 1

/-- Steps 3 to 5 of an entry into WATCH have not come: the cores issue, the Ethernet ports and the host port are on
(R468). -/
def State.coresGo (s : State) : Bool := s.device == .run || (s.device == .entering && s.anyFlashBusy)

/-- A code word that reads as it was written. -/
def FlashMark.sound (r : FlashMark) : Bool := !r.undef && r.bits == .good

/-- An uncorrectable read of flash (R341). -/
def State.flashUncorr (s : State) (a : Nat) : State :=
  let s := (s.flag R.FL_STATUS 7).setReg R.FL_ECC_ADDR (w32 (codeWord a))
  let s := s.setRf R.FL_ECC_COUNT 31 16 (satTo 0xFFFF (s.rf R.FL_ECC_COUNT 31 16 + 1))
  s.report (0x1B0 + flashBank a) (0x1B0 + flashBank a) 0x10 (w32 (codeWord a))

/-- A corrected read of flash: the code word keeps its wrong bit (R341). -/
def State.flashCorrected (s : State) (a : Nat) : State :=
  let s := (s.flag R.FL_STATUS 6).setReg R.FL_ECC_ADDR (w32 (codeWord a))
  s.setRf R.FL_ECC_COUNT 15 0 (satTo 0xFFFF (s.rf R.FL_ECC_COUNT 15 0 + 1))

/-- A read of `n` bytes that lie in one code word. A code word left undefined reads with any value, with or without a
reported error (R346); an uncorrectable read ends with an error response (R341). -/
def State.flashRead (s : State) (a n : Nat) : Option Nat × State :=
  if !(s.flashMark a).undef then
    match (s.flashMark a).bits with
    | .good => (some (s.loadN a n), s)
    | .flipped => (some (s.loadN a n), s.flashCorrected a)
    | .bad => (none, s.flashUncorr a)
  else
    let (v, s) := s.free
    let (bad, s) := s.freeBit
    let (fixed, s) := s.freeBit
    if bad then (none, s.flashUncorr a)
    else (some (v.toNat % 2 ^ (8 * n)), if fixed then s.flashCorrected a else s)

/-- A word of flash as the MP copies it: no value where the read fails. -/
def State.flashWord (s : State) (a : Nat) : Option Word × State :=
  match s.flashRead a 4 with
  | (v, t) => (v.map w32, t)

/-- Leave a run of code words undefined. -/
def State.spoil (s : State) (a : Nat) : Nat → State
  | 0 => s
  | n + 1 => (s.setFlashMark a { s.flashMark a with undef := true }).spoil (a + 32) n

/-- A sector has been erased. -/
def State.erased (s : State) (a : Nat) : State :=
  let p := fun x => decide (a ≤ x) && decide (x < a + 0x10000)
  { s.clearMem p with flash := s.flash.clear p }

/-- A code word takes its data. Programming that fails leaves it undefined, and so does programming of a word that an
interrupted operation left undefined. -/
def State.programmed (s : State) (a : Nat) (ws : List Word) (ok : Bool) : State :=
  let undef := (s.flashMark a).undef || !ok
  (s.storeWords a ws).setFlashMark a ⟨true, undef, .good⟩

/-- Why a command of bank `b` is refused (R342, R347): the flag in FL_STATUS. -/
def State.flashRefusal (s : State) (b : Nat) (erase : Bool) (a : Nat) : Option Nat :=
  if s.flashBusy b || s.rb (R.FL_Bb_STATE b) 28 then some 4
  else if a % (if erase then 0x10000 else 32) ≠ 0 ∨ a < 0x10000000 + 0x1000000 * b ∨ 0x11000000 + 0x1000000 * b ≤ a then
    some 3
  else if s.rb R.FL_LOCK (16 * b + a / 0x100000 % 16) then some 2
  else if !erase && (s.flashMark a).programmed then some 1
  else none

/-- A write to FL_Bb_CMD. -/
def State.flashCmd (s : State) (b : Nat) (v : Word) : State :=
  let op := fld v 31 28
  let a := (s.reg (R.FL_Bb_ADDR b)).toNat
  if op = 3 then
    if s.flashBusy b then s.flag R.FL_STATUS 4 else s.setRb (R.FL_Bb_STATE b) 28 false
  else if op = 1 ∨ op = 2 then
    let erase := op == 2
    match s.flashRefusal b erase a with
    | some f => s.flag R.FL_STATUS f
    | none =>
      let data := if erase then [] else (List.range 8).map (fun i => s.reg (R.FL_Bb_DATAi b i))
      let s := if erase then s else s.setFlashMark a { s.flashMark a with programmed := true }
      (s.setReg (R.FL_Bb_STATE b) (w32 (at_ op 30 + 2 ^ 29))).setFlashOp b (some ⟨erase, a, data⟩)
  else s

/-- FLASH_OPERATION_DONE: the operation of bank `b` ends; `ok` says that it passes verification (R342, R343). -/
def State.flashDone (s : State) (b : Nat) (ok : Bool) : State :=
  match s.flashOp b with
  | none => s
  | some o =>
    let s := (s.setFlashOp b none).setRb (R.FL_Bb_STATE b) 29 false
    let s := if o.erase then (if ok then s.erased o.addr else s.spoil o.addr 2048)
      else s.programmed o.addr o.data ok
    s.flagW R.FL_STATUS (if ok then 1#32 else 0x21#32)

/-- A reset or supply loss cuts the operation of bank `b` off (R346, R347). -/
def State.flashCut (s : State) (b : Nat) : State :=
  match s.flashOp b with
  | none => s
  | some o =>
    let s := s.setFlashOp b none
    let s := if o.erase then s.spoil o.addr 2048 else s.spoil (o.addr / 0x2000 * 0x2000) 256
    let s := s.setReg (R.FL_Bb_STATE b) (w32 (at_ (if o.erase then 2 else 1) 30 + 2 ^ 28))
    s.setReg (R.FL_Bb_ADDR b) (w32 o.addr)

/-- A write to FL_LOCK sets bits and clears none. -/
def State.flLockWrite (s : State) (v : Word) : State := s.setReg R.FL_LOCK (s.reg R.FL_LOCK ||| v)

end Sys2Proof.Machine
end

