-- ==== Sys2Proof/Machine/Queues.lean ====
section
/-!
DEFINITION. The queue manager (R359 to R373): queues and their cells, handles and generations, push and pop, watermarks,
ports, and the event records that segments push (R270).
-/
namespace Sys2Proof.Machine
open Sys2Proof

/-! ### Queues and the cell pool (R359, R360) -/

def State.queue (s : State) (q : Nat) : QueueRec := s.queues.get (fun _ => .reset) q

def State.setQueue (s : State) (q : Nat) (r : QueueRec) : State :=
  { s with queues := s.queues.set (fun _ => .reset) q r }

/-- Number of cells in the pool. -/
def cellPool : Nat := 131072

/-- Capacity that a configuration word names. -/
def cfgCapacity (v : Word) : Nat := 2 ^ fld v 27 24

def State.qEnabled (s : State) (q : Nat) : Bool := s.rb (R.QM_Qq_CFG q) 31

def State.qCapacity (s : State) (q : Nat) : Nat := cfgCapacity (s.reg (R.QM_Qq_CFG q))

def State.qDepth (s : State) (q : Nat) : Nat := (s.queue q).pushed.length

/-- Cells reserved by all queues. -/
def State.cellsUsed (s : State) : List Nat := s.queues.flatMap (fun e => e.2.cells)

/-- QM_FREE. -/
def State.freeCells (s : State) : Nat := cellPool - s.cellsUsed.length

/-- The cells that an enable of `n` cells reserves: the lowest free ones (log entry 20). -/
def State.takeCells (s : State) (n : Nat) : List Nat :=
  let used := s.cellsUsed
  ((List.range (n + used.length)).filter (fun c => !used.contains c)).take n

/-- Address of a cell in queue RAM. -/
def cellAddr (c : Nat) : Nat := 0x24000000 + 64 * c

/-- Cell of ring position `i` of a queue. -/
def QueueRec.cellAt (r : QueueRec) (i : Nat) : Nat := r.cells.getD (i % r.cells.length) 0

/-- Words of the entry at distance `i` from the oldest. -/
def State.qEntry (s : State) (q i : Nat) : List Word :=
  let r := s.queue q
  (List.range 16).map (fun k => s.mword (cellAddr (r.cellAt (r.head + i)) + 4 * k))

/-- Does the oldest entry hold a word in error (R369)? The address of the first one. -/
def State.qEntryBad (s : State) (q : Nat) : Option Nat :=
  let r := s.queue q
  if s.ecc = [] then none
  else ((List.range 16).map (fun k => cellAddr (r.cellAt r.head) + 4 * k)).find? s.eccBad

/-! ### Generations (R362) -/

/-- The next generation: every entry is discarded without a count, and the counts clear. -/
def State.qReset (s : State) (q : Nat) : State :=
  let r := s.queue q
  s.setQueue q { gen := (r.gen + 1) % 65536, cells := r.cells, head := 0, pushed := [], refused := 0, dropped := 0 }

/-- A write to QM_Qq_CFG. -/
def State.qCfgWrite (s : State) (q : Nat) (v : Word) : State :=
  let v := v &&& 0xCFFF0000#32
  if 12 < fld v 27 24 then s.flag R.QM_STATUS 2
  else
    let t := s.setQueue q { s.queue q with cells := [] }
    if bit v 31 && decide (t.freeCells < cfgCapacity v) then s.flag R.QM_STATUS 1
    else
      let cells := if bit v 31 then t.takeCells (cfgCapacity v) else []
      (t.setReg (R.QM_Qq_CFG q) v).setQueue q
        { gen := ((s.queue q).gen + 1) % 65536, cells := cells, head := 0, pushed := [], refused := 0, dropped := 0 }

/-- A write to QM_Qq_OWN. -/
def State.qOwnWrite (s : State) (q : Nat) (v : Word) : State := (s.setReg (R.QM_Qq_OWN q) (v &&& 0x1F#32)).qReset q

/-- QM_Qq_STATE. -/
def State.qStateView (s : State) (q : Nat) : Word :=
  let d := s.qDepth q
  w32 (at_ (s.queue q).gen 16 + at_ (b2n (s.qEnabled q && d == s.qCapacity q)) 15 + at_ (b2n (d == 0)) 14 + d)

/-- QM_Qq_COUNT. -/
def State.qCountView (s : State) (q : Nat) : Word := w32 (at_ (s.queue q).refused 16 + (s.queue q).dropped)

/-- Handle of a queue. -/
def State.qHandle (s : State) (q : Nat) : Word := w32 (at_ (s.queue q).gen 16 + q)

/-! ### Watermarks (R368) -/

/-- The depth has gone from `b` to `a` in a cycle. -/
def State.qWatermarks (s : State) (q b a : Nat) : State :=
  let wm := s.reg (R.QM_Qq_WM q)
  let ev := s.reg (R.QM_Qq_EV q)
  let high := bit ev 31 && decide (fld wm 28 16 ≤ a) && decide (b < fld wm 28 16)
  let low := bit ev 30 && decide (a ≤ fld wm 12 0) && decide (fld wm 12 0 < b)
  if b ≠ a ∧ (high || low) = true then s.fireCentral (128 + fld ev 6 0) else s

/-! ### Push and pop (R365 to R367) -/

/-- Codes of a result word. -/
def qOk : Nat := 0
def qEmpty : Nat := 1
def qFull : Nat := 2
def qStale : Nat := 3
def qRefused : Nat := 4
def qCellError : Nat := 5

/-- What one cycle of a queue answers: to the push, its code and whether an entry was dropped; to the pop, its code and
the words that the buffer takes. -/
structure QueueAnswer where
  push : Nat
  dropped : Bool
  pop : Nat
  words : Option (List Word)
deriving DecidableEq, Repr

/-- Store an entry as the newest. -/
def State.qStore (s : State) (q : Nat) (ws : List Word) : State :=
  let r := s.queue q
  (s.storeWords (cellAddr (r.cellAt (r.head + r.pushed.length))) (ws.take 16 ++ List.replicate (16 - ws.length) 0#32)).setQueue q
    { r with pushed := r.pushed ++ [s.clk.beat] }

/-- Remove the oldest entry. -/
def State.qRemove (s : State) (q : Nat) : State :=
  let r := s.queue q
  s.setQueue q { r with head := (r.head + 1) % max 1 r.cells.length, pushed := r.pushed.drop 1 }

/-- The oldest entry leaves: its words, or 16 zeros and CELL_ERROR where a word is in error (R369). -/
def State.qTake (s : State) (q : Nat) : Nat × Option (List Word) × State :=
  match s.qEntryBad q with
  | some a => (qCellError, some (List.replicate 16 0#32), (s.eccAccess a).qRemove q)
  | none => (qOk, some (s.qEntry q 0), (s.eccWalk (cellAddr ((s.queue q).cellAt (s.queue q).head)) 16).qRemove q)

/-- One cycle of a queue: at most one push and one pop, both of which see the depth at its start. -/
def State.qServe (s : State) (q : Nat) (push : Option (List Word)) (pop : Bool) : QueueAnswer × State :=
  let d := s.qDepth q
  let full := d == s.qCapacity q
  let rejects := !s.rb (R.QM_Qq_CFG q) 30
  let (popCode, words, s1) :=
    if !pop then (qOk, none, s) else if d = 0 then (qEmpty, none, s) else s.qTake q
  let (pushCode, dropped, s2) := match push with
    | none => (qOk, false, s1)
    | some ws =>
      if full && rejects then
        (qFull, false, s1.setQueue q { s1.queue q with refused := satTo 0xFFFF ((s1.queue q).refused + 1) })
      else if full && !pop then
        let t := s1.qRemove q
        (qOk, true, (t.setQueue q { t.queue q with dropped := satTo 0xFFFF ((t.queue q).dropped + 1) }).qStore q ws)
      else (qOk, false, s1.qStore q ws)
  (⟨pushCode, dropped, popCode, words⟩, s2.qWatermarks q d (s2.qDepth q))

/-- The result word of an operation. -/
def resultWord (code : Nat) (dropped : Bool) (depth : Nat) : Word :=
  w32 (at_ code 29 + at_ (b2n dropped) 28 + (if code = qStale ∨ code = qRefused then 0 else depth))

/-- Why an operation of domain `d` with a handle is refused (R362, R363). -/
def State.qRefusal (s : State) (d : Nat) (h : Word) (push : Bool) : Option Nat :=
  let q := fld h 15 0
  let cfg := s.reg (R.QM_Qq_CFG q)
  if fld h 31 16 ≠ (s.queue q).gen then some qStale
  else if !bit cfg 31 then some qRefused
  else if s.ownerSec (R.QM_Qq_OWN q) && !s.domSecure d then some qRefused
  else if s.ownerDom (R.QM_Qq_OWN q) = d ∨ (if push then fld cfg 23 20 else fld cfg 19 16) = d then none
  else some qRefused

/-- QM_FAULT_INFO after a failed operation. -/
def State.qFault (s : State) (code d q flag : Nat) : State :=
  (s.setReg R.QM_FAULT_INFO (w32 (at_ code 29 + at_ d 20 + q))).flag R.QM_STATUS flag

/-- A push of domain `d`: code, DROPPED, state. -/
def State.qPush (s : State) (d : Nat) (h : Word) (ws : List Word) : Nat × Bool × State :=
  match s.qRefusal d h true with
  | some c => (c, false, s.qFault c d (fld h 15 0) 0)
  | none =>
    let (a, t) := s.qServe (fld h 15 0) (some ws) false
    (a.push, a.dropped, t)

/-- A pop of domain `d`: code, words where the buffer changes, state. -/
def State.qPop (s : State) (d : Nat) (h : Word) : Nat × Option (List Word) × State :=
  match s.qRefusal d h false with
  | some c => (c, none, s.qFault c d (fld h 15 0) 0)
  | none =>
    let (a, t) := s.qServe (fld h 15 0) none true
    (a.pop, a.words, if a.pop = qCellError then t.qFault qCellError d (fld h 15 0) 3 else t)

/-! ### Ports (R364) -/

/-- The buffer of a port. -/
def State.portBuffer (s : State) (d p : Nat) : List Word := (List.range 16).map (fun i => s.reg (R.QP_DATAi d p i))

def State.setPortBuffer (s : State) (d p : Nat) (ws : List Word) : State :=
  (List.range 16).foldl (fun t i => t.setReg (R.QP_DATAi d p i) (ws.getD i 0#32)) s

/-- A read of QP_PUSH. -/
def State.portPush (s : State) (d p : Nat) : Word × State :=
  let h := s.reg (R.QP_HANDLE d p)
  let (c, dropped, t) := s.qPush d h (s.portBuffer d p)
  (resultWord c dropped (t.qDepth (fld h 15 0)), t)

/-- A read of QP_POP. -/
def State.portPop (s : State) (d p : Nat) : Word × State :=
  let h := s.reg (R.QP_HANDLE d p)
  let (c, ws, t) := s.qPop d h
  (resultWord c false (t.qDepth (fld h 15 0)), match ws with
    | some l => t.setPortBuffer d p l
    | none => t)

/-! ### Event records (R270, R271) -/

/-- A push for a pennant, in its owner's domain; a Non-secure pennant pushes to no Secure queue (R271). -/
def State.pnPush (s : State) (p : Nat) (h : Word) (ws : List Word) : Nat × Bool × State :=
  let d := s.ownerDom (pnOwner p)
  if (s.qRefusal d h true).isNone && s.ownerSec (R.QM_Qq_OWN (fld h 15 0)) && !s.ownerSec (pnOwner p) then
    (qRefused, false, s.qFault qRefused d (fld h 15 0) 0)
  else s.qPush d h ws

/-- EVENT_RECORD_PUSH: the oldest record of a segment goes to its pennant's queue in the pennant's domain, with the
pennant's sequence number; a record that is not taken is lost. -/
def State.pushRecord (s : State) (seg : Nat) : State :=
  match s.recordsOf seg with
  | [] => s
  | e :: r =>
    let s := s.setRecords seg r
    let p := s.pnRec e.pennant
    let ws := [e.w0, e.w1, e.w2hi ||| w32 p.seq, w32 p.lost]
    let h := s.reg (pnRecReg e.pennant)
    let (c, _, t) := s.pnPush e.pennant h ws
    if c = qOk then t.setPnRec e.pennant ⟨(p.seq + 1) % 65536, 0⟩
    else
      let t := t.recordLost e.pennant
      if c = qStale ∨ (c = qRefused ∧ s.qEnabled (fld h 15 0) = true) then t.pnFault e.pennant 4 else t

def execEventRecordPush (seg : Fin 17) (s : State) : Host.Outcome State Fault Refusal := .next (s.pushRecord seg.val)

/-! ### WATCH (R371) -/

/-- Wake without SRAM retention: every enabled queue is reset. -/
def State.queuesLost (s : State) : State :=
  let l := s.regs.filterMap (fun e =>
    if 0x51200004 ≤ e.1 ∧ (e.1 - 0x51200004) % 32 = 0 ∧ e.1 < 0x51400000 ∧ bit e.2 31 = true then
      some ((e.1 - 0x51200004) / 32) else none)
  let t := l.foldl (fun t q => t.qReset q) s
  if l = [] then t else t.flag R.QM_STATUS 4

end Sys2Proof.Machine
end

