-- ==== Sys2Proof/Machine/Serial.lean ====
section
/-!
DEFINITION. The serial peripherals (R434 to R436): CAN, UART, SPI, I2C.
-/
namespace Sys2Proof.Machine
open Sys2Proof

def State.serialRec (s : State) (i : Nat) : SerialRec := s.serial.get (fun _ => .reset) i

def State.setSerial (s : State) (i : Nat) (r : SerialRec) : State :=
  { s with serial := s.serial.set (fun _ => .reset) i r }

/-- A serial event line (R435). -/
def State.fireSerial (s : State) (line : Nat) : State := s.fireCentral (544 + line)

/-- The first entry of a receive FIFO as a read of the data register gives it, with VALID; 0 where it is empty. -/
def SerialRec.front (r : SerialRec) : Word := match r.rx with
  | [] => 0#32
  | w :: _ => w ||| bitW 31

/-- A read of a data register takes the first entry. -/
def State.serialPop (s : State) (i : Nat) : Word × State :=
  let r := s.serialRec i
  (r.front, s.setSerial i { r with rx := r.rx.drop 1 })

/-! ### CAN -/

/-- Data bytes of a frame by its DLC (ISO 11898-1). -/
def canLength (fdf rtr : Bool) (dlc : Nat) : Nat :=
  if rtr && !fdf then 0
  else if dlc ≤ 8 then dlc
  else if !fdf then 8
  else match dlc with
    | 9 => 12 | 10 => 16 | 11 => 20 | 12 => 24 | 13 => 32 | 14 => 48 | _ => 64

/-- Words of bytes, four to a word. -/
def wordsOfBytes (l : List Byte) (n : Nat) : List Word := (List.range n).map (fun i => wordOfBytes ((l.drop (4 * i)).take 4))

/-- Word 0 of a frame's cell. -/
def canWord0 (f : CanFrame) : Word :=
  w32 (f.id.toNat + at_ (b2n f.ide) 29 + at_ (b2n f.fdf) 30 + at_ (b2n f.brs) 31)

/-- The cells of a frame that began at device time `t`. -/
def canCells (f : CanFrame) (t : Word) : List (List Word) :=
  let n := canLength f.fdf f.rtr f.dlc.val
  let d := f.data.toList.take n
  [[canWord0 f, w32 (f.dlc.val + at_ (b2n f.rtr) 4), t] ++ wordsOfBytes (d.take 52) 13]
    ++ (if 52 < n then [wordsOfBytes (d.drop 52) 3 ++ List.replicate 13 0#32] else [])

/-- Does a filter pass a frame's word 0? -/
def State.canPasses (s : State) (k i : Nat) (w : Word) : Bool :=
  let id := s.reg (R.CAN_FLTi_ID k i)
  bit id 31 && ((id ^^^ w) &&& s.reg (R.CAN_FLTi_MASK k i) &&& 0x3FFFFFFF#32) == 0#32

def State.canOn (s : State) (k : Nat) : Bool := s.rb (R.CAN_CTRL k) 31 && s.rf (R.CAN_ERR k) 1 0 != 2 && s.beatRuns

/-- Set the error counters of a controller (ISO 11898-1; log entry 21), with the state and the flags that follow. -/
def State.canErr (s : State) (k re tec : Nat) (flags : Word) : State :=
  let st := if 255 < tec then 2 else if 127 < tec ∨ 127 < re then 1 else 0
  let old := s.rf (R.CAN_ERR k) 1 0
  let s := s.setReg (R.CAN_ERR k) (w32 (at_ (satTo 255 re) 16 + at_ (satTo 255 tec) 8 + st))
  s.flagW (R.CAN_STATUS k) (flags ||| (if st = 1 ∧ old ≠ 1 then bitW 3 else 0#32) ||| (if st = 2 ∧ old ≠ 2 then bitW 4 else 0#32))

/-- Deliver a frame that has ended well to the receive queue. -/
def State.canDeliver (s : State) (k : Nat) (w : Word) (cells : List (List Word)) : State :=
  if (List.range 32).any (fun i => s.canPasses k i w) then
    let (ok, t) := cells.foldl (fun (x : Bool × State) ws =>
      if x.1 then
        let (c, _, t) := x.2.qPush (s.ownerDom (R.CAN_OWNER k)) (s.reg (R.CAN_RXQ k)) ws
        (c == qOk, t)
      else x) (true, s)
    (if ok then t else t.flag (R.CAN_STATUS k) 2).fireSerial (3 * k)
  else s

/-- CAN_FRAME_RECEIVE (R434): a frame on the bus, that began `ago` units of device time before, ended well or not. -/
def State.canReceive (s : State) (k : Nat) (f : CanFrame) (good : Bool) (ago : Word) : State :=
  let re := s.rf (R.CAN_ERR k) 23 16
  let tec := s.rf (R.CAN_ERR k) 15 8
  if !s.canOn k || s.rf (R.CAN_CTRL k) 28 27 == 2 || (f.fdf && !s.rb (R.CAN_CTRL k) 30) then s
  else if !good then (s.canErr k (re + 1) tec (bitW 0)).fireSerial (3 * k + 2)
  else (s.canErr k (if 127 < re then 127 else re - 1) tec 0#32).canDeliver k (canWord0 f)
    (canCells f (lo64 s.devTime.toNat - ago))

def execCanFrameReceive (k : Fin 4) (frame : CanFrame) (good : Bool) (ago : Word) (s : State) :
    Host.Outcome State Fault Refusal := .next (s.canReceive k.val frame good ago)

/-- Pop cells of a transmit queue. -/
def State.canTake (s : State) (k : Nat) : Nat → State
  | 0 => s
  | n + 1 => ((s.qPop (s.ownerDom (R.CAN_OWNER k)) (s.reg (R.CAN_TXQ k))).2.2).canTake k n

/-- CAN_FRAME_TRANSMIT (R434): the controller sends the oldest frame of its transmit queue; a frame that fails stays
there and is sent again. -/
def State.canTransmit (s : State) (k : Nat) (good : Bool) : State :=
  let h := s.reg (R.CAN_TXQ k)
  let q := fld h 15 0
  let ws := s.qEntry q 0
  let w0 := ws.getD 0 0#32
  let n := canLength (bit w0 30) (bit (ws.getD 1 0#32) 4) (fld (ws.getD 1 0#32) 3 0)
  let cells := if 52 < n then 2 else 1
  let re := s.rf (R.CAN_ERR k) 23 16
  let tec := s.rf (R.CAN_ERR k) 15 8
  if !s.canOn k || s.rf (R.CAN_CTRL k) 28 27 == 1 || (s.qRefusal (s.ownerDom (R.CAN_OWNER k)) h false).isSome
      || decide (s.qDepth q < cells) then s
  else if !good then (s.canErr k re (tec + 8) (bitW 1)).fireSerial (3 * k + 2)
  else
    let sent := [ws.take 2 ++ [lo64 s.devTime.toNat] ++ ws.drop 3] ++ (if cells = 2 then [s.qEntry q 1] else [])
    let t := ((s.canTake k cells).canErr k re (tec - 1) 0#32).fireSerial (3 * k + 1)
    if s.rf (R.CAN_CTRL k) 28 27 = 2 then t.canDeliver k w0 sent else t

def execCanFrameTransmit (k : Fin 4) (good : Bool) (s : State) : Host.Outcome State Fault Refusal :=
  .next (s.canTransmit k.val good)

/-- A write to CAN_CTRL: an enable restarts the error counters (log entry 21). -/
def State.canCtrlWrite (s : State) (k : Nat) (v : Word) : State :=
  let was := s.rb (R.CAN_CTRL k) 31
  let s := s.setReg (R.CAN_CTRL k) (v &&& 0xF8000000#32)
  if bit v 31 && !was then s.setReg (R.CAN_ERR k) 0#32 else s

/-! ### UART -/

def State.uartOn (s : State) (k : Nat) : Bool := s.rb (R.UART_CTRL k) 31 && s.beatRuns

/-- UART_RECEIVE (R436). -/
def State.uartReceive (s : State) (k : Nat) (d : BitVec 9) (framing parity : Bool) : State :=
  if !s.uartOn k then s
  else
    let r := s.serialRec k
    let parity := parity && s.rf (R.UART_CTRL k) 23 22 != 0
    let v := d.toNat % 2 ^ (7 + min 2 (s.rf (R.UART_CTRL k) 25 24))
    let flags := (if framing then bitW 1 else 0#32) ||| (if parity then bitW 0 else 0#32)
    if 64 ≤ r.rx.length then s.flagW (R.UART_STATUS k) (flags ||| bitW 2)
    else ((s.setSerial k { r with rx := r.rx ++ [w32 (v + at_ (b2n framing) 9 + at_ (b2n parity) 10)] }).flagW
      (R.UART_STATUS k) flags).fireSerial (12 + 2 * k)

def execUartReceive (k : Fin 4) (d : BitVec 9) (framing parity : Bool) (s : State) : Host.Outcome State Fault Refusal :=
  .next (s.uartReceive k.val d framing parity)

/-- A write to UART_DATA queues a character; with 64 waiting it is discarded (log entry 21). -/
def State.uartWrite (s : State) (k : Nat) (v : Word) : State :=
  let r := s.serialRec k
  if 64 ≤ r.tx.length then s else s.setSerial k { r with tx := r.tx ++ [v &&& 0x1FF#32] }

/-- UART_CHARACTER_SENT (R435): the oldest character has left; when none waits, TX_EMPTY fires. -/
def State.uartSent (s : State) (k : Nat) : State :=
  let r := s.serialRec k
  if !s.uartOn k || r.tx == [] then s
  else
    let t := s.setSerial k { r with tx := r.tx.drop 1 }
    if r.tx.length = 1 then t.fireSerial (13 + 2 * k) else t

def execUartCharacterSent (k : Fin 4) (s : State) : Host.Outcome State Fault Refusal := .next (s.uartSent k.val)

/-! ### SPI -/

def State.spiOn (s : State) (k : Nat) : Bool := s.rb (R.SPI_CTRL k) 31 && s.beatRuns

/-- Begin a transfer of the frames that wait, unless one runs. -/
def State.spiStart (s : State) (k : Nat) : State :=
  let r := s.serialRec (4 + k)
  if s.spiOn k && r.run == 0 then s.setSerial (4 + k) { r with run := r.tx.length } else s

/-- A write to SPI_DATA queues a frame; without START_ON_PENNANT the transfer begins with the first frame and takes in
those queued while it runs. With 32 frames waiting, the frame is discarded (log entry 21). -/
def State.spiWrite (s : State) (k : Nat) (v : Word) : State :=
  let r := s.serialRec (4 + k)
  if 32 ≤ r.tx.length then s
  else
    let pn := s.rb (R.SPI_CTRL k) 11
    let t := s.setSerial (4 + k) { r with
      tx := r.tx ++ [v], run := if !pn && decide (0 < r.run) then r.run + 1 else r.run }
    if pn then t else t.spiStart k

/-- A write to SPI_CTRL: frames that wait begin to move where nothing else starts them. -/
def State.spiCtrlWrite (s : State) (k : Nat) (v : Word) : State :=
  let s := s.setReg (R.SPI_CTRL k) (v &&& 0xBFFFF8FF#32)
  if bit v 11 then s else s.spiStart k

/-- SPI_PENNANT_START (R434). -/
def execSpiPennantStart (k : Fin 8) (s : State) : Host.Outcome State Fault Refusal :=
  .next (if s.rb (R.SPI_CTRL k.val) 11 then s.spiStart k.val else s)

/-- Add received frames to a FIFO of 32; the second part says whether one found it full. -/
def spiFill (bits : Nat) : List Word → List Word → List Word × Bool
  | l, [] => (l, false)
  | l, w :: r =>
    if 32 ≤ l.length then (l, true) else spiFill bits (l ++ [w32 (w.toNat % 2 ^ bits)]) r

/-- SPI_TRANSFER_DONE (R435): the transfer completes with the frames `rx` received. -/
def State.spiDone (s : State) (k : Nat) (rx : List Word) : State :=
  let r := s.serialRec (4 + k)
  if r.run = 0 then s
  else
    let (l, lost) := spiFill (s.rf (R.SPI_CTRL k) 27 23 + 1) r.rx (rx.take r.run)
    let t := s.setSerial (4 + k) { r with tx := r.tx.drop r.run, rx := l, run := 0 }
    (t.flagW (R.SPI_STATUS k) (bitW 0 ||| (if lost then bitW 1 else 0#32))).fireSerial (20 + k)

def execSpiTransferDone (k : Fin 8) (rx : Vector Word 32) (s : State) : Host.Outcome State Fault Refusal :=
  .next (s.spiDone k.val rx.toList)

/-! ### I2C -/

/-- A write to I2C_CMD starts a transaction; while one runs it is ignored (log entry 21). -/
def State.i2cCmd (s : State) (k : Nat) (v : Word) : State :=
  let r := s.serialRec (12 + k)
  if s.rb (R.I2C_CTRL k) 31 && r.cmd == none && s.beatRuns then s.setSerial (12 + k) { r with cmd := some v } else s

/-- A write to I2C_DATA: a byte to send, discarded where 16 wait. -/
def State.i2cWrite (s : State) (k : Nat) (v : Word) : State :=
  let r := s.serialRec (12 + k)
  if 16 ≤ r.tx.length then s else s.setSerial (12 + k) { r with tx := r.tx ++ [v &&& 0xFF#32] }

/-- I2C_DONE (R435): the transaction ends: 0 complete, 1 not acknowledged, 2 arbitration lost, 3 timed out. Bytes read
beyond the FIFO's 16 wait on the bus, whose clock the device stretches (log entry 21). -/
def State.i2cDone (s : State) (k outcome : Nat) (rx : List Byte) : State :=
  let r := s.serialRec (12 + k)
  match r.cmd with
  | none => s
  | some c =>
    let n := fld c 7 0
    let r := { r with cmd := none }
    let r := if outcome ≠ 0 then r
      else if bit c 29 then { r with rx := r.rx ++ (rx.take n).map (fun b => w32 b.toNat) }
      else { r with tx := r.tx.drop n }
    let flags := match outcome with
      | 0 => bitW 0
      | 1 => bitW 0 ||| bitW 2
      | 2 => bitW 0 ||| bitW 3
      | _ => bitW 0 ||| bitW 1
    ((s.setSerial (12 + k) r).flagW (R.I2C_STATUS k) flags).fireSerial (28 + k)

def execI2cDone (k outcome : Fin 4) (rx : List Byte) (s : State) : Host.Outcome State Fault Refusal :=
  .next (s.i2cDone k.val outcome.val rx)

end Sys2Proof.Machine
end

