-- ==== Sys2Proof/Machine/SnapOps.lean ====
section
/-!
DEFINITION. The snapshot unit's control writes (R77, R78): its list, arming a capture, withdrawing one.
-/
namespace Sys2Proof.Machine
open Sys2Proof

def State.setSnap (s : State) (r : SnapState) : State := { s with snap := r }

/-- Address of the address word of pair `i`; its value word follows. -/
def pairAddr (i : Nat) : Nat := 0x28100000 + 8 * i

/-- A capture is pending or filling. -/
def State.snapBusy (s : State) : Bool := s.rb R.SN_STATE 31 || s.rb R.SN_STATE 30

/-- A write to SN_COUNT. -/
def State.snCountWrite (s : State) (v : Word) : State :=
  if s.snapBusy then s.flag R.SN_STATUS 4
  else if 8192 < fld v 13 0 then s
  else ((s.setReg R.SN_COUNT (w32 (fld v 13 0))).setRb R.SN_STATE 28 false).setSnap
    { s.snap with loading := false, closed := false, list := [] }

/-- A write to SN_LOAD: the list is distributed with the address words as they stand. -/
def State.snLoadWrite (s : State) : State :=
  if s.snapBusy then s.flag R.SN_STATUS 4
  else (s.setRb R.SN_STATE 28 false).setSnap { s.snap with
    loading := true, closed := true
    list := (List.range (s.rf R.SN_COUNT 13 0)).map (fun i => s.mword (pairAddr i)) }

/-- SNAPSHOT_LIST_LOADED (R77): the distribution is complete. -/
def State.snapLoaded (s : State) : State :=
  if s.snap.loading then (s.setRb R.SN_STATE 28 true).setSnap { s.snap with loading := false } else s

def execSnapshotListLoaded (s : State) : Host.Outcome State Fault Refusal := .next s.snapLoaded

/-- Arm a capture of domain `d` at a beat, or at W + 2, under a policy (R78). -/
def State.snapArm (s : State) (d : Nat) (asap : Bool) (n : Option (BitVec 64)) : State :=
  let s := s.request d
  if s.snapBusy then s.flag R.SN_STATUS 4
  else if !s.rb R.SN_STATE 28 then s.flag R.SN_STATUS 5
  else
    let b := n.getD (s.clk.beat + 2)
    let late := s.isLate b
    let s := if late then s.flag R.SN_STATUS (if asap then 1 else 0) else s
    ((s.setRb R.SN_STATE 31 true).setRb R.SN_STATE 29 false).setSnap { s.snap with
      armedAt := if late && asap then s.clk.beat + 2 else b, rejected := late && !asap }

/-- A write to SN_AT_HI. -/
def State.snAtHi (s : State) (d : Nat) (v : Word) : State :=
  let s := s.setReg R.SN_AT_HI v
  s.snapArm d (s.rb R.SN_POLICY 0) (some (BitVec.ofNat 64 (pair64 v (s.reg R.SN_AT_LO))))

/-- A write to SN_CANCEL. -/
def State.snapCancel (s : State) (d : Nat) : State :=
  let s := s.request d
  if !s.rb R.SN_STATE 31 then s
  else if s.snap.rejected || serialGe s.snap.armedAt (s.clk.beat + 2) then
    (s.setRb R.SN_STATE 31 false).setSnap { s.snap with rejected := false }
  else s.flag R.SN_STATUS 3

end Sys2Proof.Machine
end

