-- ==== Sys2Proof/Machine/Network.lean ====
section
/-!
DEFINITION. The network engine (R409 to R429): Ethernet ports, Sweurn telegrams, sessions, scheduled commands, retirement
of a port. The engine acts in domain 10 (R17).
-/
namespace Sys2Proof.Machine
open Sys2Proof

/-! ### Bytes of telegrams (R414) -/

/-- The number of a list of bytes, big-endian. -/
def beNat (l : List Byte) : Nat := l.foldl (fun a b => 256 * a + b.toNat) 0

/-- `k` big-endian bytes of a number. -/
def beBytes (k n : Nat) : List Byte := (List.range k).map (fun i => BitVec.ofNat 8 (n >>> (8 * (k - 1 - i))))

/-- Bytes `o … o + k - 1` of a list as a big-endian number. -/
def beAt (l : List Byte) (o k : Nat) : Nat := beNat ((l.drop o).take k)

/-- ID of this controller. -/
def State.nodeId (s : State) : Nat := 0x8000 + s.rf R.NX_CFG 11 0

/-- A Sweurn header. -/
def State.header8 (s : State) (typ flags dst seq : Nat) : List Byte :=
  [BitVec.ofNat 8 (16 + typ), BitVec.ofNat 8 flags] ++ beBytes 2 s.nodeId ++ beBytes 2 dst ++ beBytes 2 seq

/-! ### Ports (R409 to R413, R428) -/

def State.portRec (s : State) (p : Nat) : PortRec := s.net.ports.get (fun _ => .reset) p

def State.setPort (s : State) (p : Nat) (r : PortRec) : State :=
  { s with net := { s.net with ports := s.net.ports.set (fun _ => .reset) p r } }

def State.linkUp (s : State) (p : Nat) : Bool := s.rb (R.NX_PORTp_STATE p) 31

def State.portRetired (s : State) (p : Nat) : Bool := s.rb (R.NX_PORTp_STATE p) 30

/-- A port that sends: link up, not retired. -/
def State.portWorks (s : State) (p : Nat) : Bool := s.linkUp p && !s.portRetired p

/-- A network event line (R435). -/
def State.fireNet (s : State) (line : Nat) : State := s.fireCentral (416 + line)

/-- Advance a wrapping count. -/
def State.countUp (s : State) (a : Nat) : State := s.setReg a (s.reg a + 1)

/-- Type of a telegram. -/
def teleType (body : List Byte) : Nat := (body.getD 0 0#8).toNat % 16

/-- Traffic class of a telegram: CYC_TC for CYCLIC, ACY_TC for every other one (R411, R439). -/
def State.classOf (s : State) (p : Nat) (body : List Byte) : Nat :=
  if teleType body = 1 then s.rf (R.NX_PORTp_TC p) 6 4 else s.rf (R.NX_PORTp_TC p) 2 0

/-- The frame that carries a telegram through a port (R411, R413, R416): its EtherType, its 802.1Q tag with the class as
PCP, whether its class is express, and the device time at which it is ready; a cyclic frame is ready CYC_TX after the
cycle start. -/
def State.sentFrame (s : State) (p : Nat) (tag : Option Nat) (body : List Byte) : SentFrame where
  port := p
  etype := s.rf (R.NX_PORTp_ETYPE p) 15 0
  vlan := if s.rb (R.NX_PORTp_TC p) 31 then some (s.rf (R.NX_PORTp_TC p) 27 16, s.classOf p body) else none
  express := s.rb (R.NX_PORTp_TC p) (8 + s.classOf p body)
  ready := s.devTime + (if teleType body = 1 then BitVec.ofNat 64 (s.reg (R.NX_PORTp_CYC_TX p)).toNat else 0#64)
  rtag := tag
  body := body

/-- A telegram leaves through a port. -/
def State.netSend (s : State) (p : Nat) (tag : Option Nat) (body : List Byte) : State :=
  if s.portWorks p then
    let t := s.countUp (R.NX_PORTp_TX_FRAMES p)
    { t with net := { t.net with sent := t.net.sent ++ [s.sentFrame p tag body] } }
  else s

/-- The record of sent telegrams starts anew with each network command. -/
def State.netBegin (s : State) : State := { s with net := { s.net with sent := [] } }

/-- The redundant port of a port, if it names one. -/
def State.redund (s : State) (p : Nat) : Option Nat :=
  let r := s.rf (R.NX_PORTp_CFG p) 27 24
  if r < 4 ∧ r ≠ p then some r else none

/-- The link goes down. -/
def State.linkDown (s : State) (p : Nat) : State :=
  if s.linkUp p then
    ((s.setRb (R.NX_PORTp_STATE p) 31 false).setPort p { s.portRec p with downSince := some s.clk.beat }).fireNet (4 * p + 1)
  else s

def execLinkDown (p : Fin 4) (s : State) : Host.Outcome State Fault Refusal := .next (s.linkDown p.val)

/-- LINK_UP: a code has achieved lock; the scan ends (R410). -/
def State.linkUpNow (s : State) (p : Nat) : State :=
  if s.linkUp p || s.rf (R.NX_PORTp_STATE p) 1 0 == 0 || !s.coresGo then s
  else ((s.setRb (R.NX_PORTp_STATE p) 31 true).setPort p { s.portRec p with downSince := none, scanning := false }).fireNet (4 * p)

def execLinkUp (p : Fin 4) (s : State) : Host.Outcome State Fault Refusal := .next (s.linkUpNow p.val)

/-- A write to NX_PORTp_CFG: a change of MODE takes the link down until the new code achieves lock (R410). -/
def State.portCfgWrite (s : State) (p : Nat) (v : Word) : State :=
  let v := v &&& 0x0F010103#32
  let t := s.setReg (R.NX_PORTp_CFG p) v
  if fld v 1 0 = s.rf (R.NX_PORTp_CFG p) 1 0 then t
  else
    let t := (t.linkDown p).setRf (R.NX_PORTp_STATE p) 1 0 (fld v 1 0)
    t.setPort p { t.portRec p with downSince := if fld v 1 0 = 0 then none else some t.clk.beat }

/-- Code of the scan after code `m`: 10GBASE-R, 2500BASE-X, 1000BASE-X (R410). -/
def nextCode (m : Nat) : Nat := if m = 3 then 2 else if m = 2 then 1 else 3

/-- PORT_SCAN_STEP (R410): 40 ms have brought no lock, the next code is tried. -/
def State.scanStep (s : State) (p : Nat) : State :=
  if (s.portRec p).scanning && !s.linkUp p && s.coresGo then
    let m := nextCode (s.rf (R.NX_PORTp_CFG p) 1 0)
    s.portCfgWrite p (setBit (setFld (s.reg (R.NX_PORTp_CFG p)) 1 0 m) 8 (m == 1))
  else s

def execPortScanStep (p : Fin 4) (s : State) : Host.Outcome State Fault Refusal := .next (s.scanStep p.val)

/-- Start the port scan. -/
def State.scanStart (s : State) (p : Nat) : State :=
  let s := s.setPort p { s.portRec p with scanning := true }
  s.portCfgWrite p (setFld (s.reg (R.NX_PORTp_CFG p)) 1 0 3)

/-! ### Sessions (R415, R426, R429) -/

def State.session (s : State) (k : Nat) : SessionRec := s.net.sessions.get (fun _ => .reset) k

def State.setSession (s : State) (k : Nat) (r : SessionRec) : State :=
  { s with net := { s.net with sessions := s.net.sessions.set (fun _ => .reset) k r } }

/-- STATE of a session: 0 CLOSED, 1 OPENING, 2 RUNNING, 3 LOST. -/
def State.sesState (s : State) (k : Nat) : Nat := s.rf (R.NX_Ss_STATE k) 31 30

def State.setSesState (s : State) (k v : Nat) : State := s.setRf (R.NX_Ss_STATE k) 31 30 v

def State.sesCyclic (s : State) (k : Nat) : Bool := s.rb (R.NX_Ss_CFG k) 30

def State.sesPartner (s : State) (k : Nat) : Nat := s.rf (R.NX_Ss_CFG k) 11 0

/-- Ports that a session's mask names. -/
def State.sesMask (s : State) (k : Nat) : List Nat := (List.range 4).filter (fun p => s.rb (R.NX_Ss_CFG k) (16 + p))

/-- Two ports that name each other: replication (R429). -/
def State.sesReplicated (s : State) (k : Nat) : Bool :=
  match s.sesMask k with
  | [p, q] => s.redund p == some q && s.redund q == some p
  | _ => false

/-- Ports that carry the session now: a retired port gives way to its working redundant one (R429). -/
def State.sesPorts (s : State) (k : Nat) : List Nat :=
  ((s.sesMask k).filterMap (fun p =>
    if !s.portRetired p then some p
    else match s.redund p with
      | some r => if s.portWorks r then some r else none
      | none => none)).eraseDups

/-- Sessions that exist, ascending. -/
def State.sessionsOn (s : State) : List Nat :=
  s.regs.filterMap (fun e =>
    if 0x53100000 ≤ e.1 ∧ (e.1 - 0x53100000) % 32 = 0 ∧ e.1 < 0x53120000 ∧ bit e.2 31 = true then
      some ((e.1 - 0x53100000) / 32) else none)

/-- The session of a partner. -/
def State.sessionOf (s : State) (partner : Nat) : Option Nat := s.sessionsOn.find? (fun k => s.sesPartner k == partner)

/-- Send a telegram of a session: replicated sessions on both ports with one R-tag. -/
def State.sesSend (s : State) (k : Nat) (body : List Byte) : State :=
  let r := s.session k
  if s.sesReplicated k then
    let t := s.setSession k { r with txTag := (r.txTag + 1) % 65536 }
    (s.sesPorts k).foldl (fun t p => t.netSend p (some r.txTag) body) t
  else (s.sesPorts k).foldl (fun t p => t.netSend p none body) s

/-- Report a lost session (R451). -/
def State.sesReport (s : State) (k : Nat) : State :=
  let i := s.sesPartner k
  let src := match (s.sesMask k).find? (fun p => !s.linkUp p) with
    | some p => 0x110 + p
    | none => 0x1000 + i
  s.report src (0x1000 + i) 0x1C (w32 i)

/-- Network line of a session. -/
def State.sesLine (s : State) (k : Nat) : Nat := max 32 (s.rf (R.NX_Ss_EV k) 6 0)

/-- A session becomes LOST: its acyclic state is discarded (R418, R421, R426). -/
def State.sesLost (s : State) (k : Nat) (flags : Word) : State :=
  let r := s.session k
  let s := (s.setSesState k 3).setSession k { r with unacked := [], unsent := [], inPacket := [], resends := 0 }
  let s := s.flagW (R.NX_Ss_STATUS k) (flags ||| bitW 0)
  (if s.rb (R.NX_Ss_EV k) 30 then s.fireNet (s.sesLine k) else s).sesReport k

/-- A session runs: its sequence numbers start at 0 (R421, R426). -/
def State.sesRun (s : State) (k : Nat) (rejoined : Bool) : State :=
  let s := (s.setSesState k 2).setSession k { s.session k with txSeq := 0, rxSeq := 0, unacked := [], resends := 0, inPacket := [] }
  if rejoined then s.flag (R.NX_Ss_STATUS k) 5 else s

/-- Receipt under an R-tag by the vector recovery algorithm with a history of 32 (R429): nothing for a duplicate. -/
def SessionRec.receive (r : SessionRec) (tag : Nat) : Option SessionRec :=
  let d := sextN 16 (tag + 65536 - r.rxTag)
  if r.rxFirst then some { r with rxFirst := false, rxTag := tag, history := 1 }
  else if 32 ≤ d ∨ d ≤ -32 then none
  else if d ≤ 0 then
    (if r.history.getLsbD (-d).toNat then none else some { r with history := r.history ||| (1#32 <<< (-d).toNat) })
  else some { r with rxTag := tag, history := (r.history <<< d.toNat) ||| 1 }

/-- The session's state after a telegram's R-tag, or nothing for a duplicate. -/
def State.tagPasses (s : State) (k : Nat) (tag : Option (BitVec 16)) : Option State :=
  match tag with
  | some t => if s.sesReplicated k then ((s.session k).receive t.toNat).map (fun r => s.setSession k r) else some s
  | none => some s

/-! ### Acyclic telegrams out (R419, R421, R422) -/

/-- Body of an ACYCLIC telegram before its header: prefix and data. -/
def acyclicBody (dest : Nat) (first last : Bool) (data : List Byte) : List Byte :=
  beBytes 4 (at_ dest 30 + at_ (b2n first) 29 + at_ (b2n last) 28) ++ data

/-- Data bytes of one telegram at most (R409, R419). -/
def segmentBytes : Nat := 9176

/-- The telegrams of a packet. -/
def segments (dest : Nat) : Nat → Bool → List Byte → List (List Byte)
  | 0, _, _ => []
  | f + 1, first, l =>
    if l.length ≤ segmentBytes then [acyclicBody dest first true l]
    else acyclicBody dest first false (l.take segmentBytes) :: segments dest f false (l.drop segmentBytes)

/-- Send waiting telegrams while fewer than 8 are unacknowledged. -/
def State.fillWindow (s : State) (k : Nat) : Nat → State
  | 0 => s
  | f + 1 =>
    let r := s.session k
    match r.unsent with
    | [] => s
    | b :: rest =>
      if 8 ≤ r.unacked.length then s
      else
        let body := s.header8 2 0 (s.sesPartner k) r.txSeq ++ b
        ((s.setSession k { r with unsent := rest, unacked := r.unacked ++ [(r.txSeq, body)],
                                  txSeq := (r.txSeq + 1) % 65536 }).sesSend k body).fillWindow k f

/-- Queue a packet of a session for sending. -/
def State.sesPost (s : State) (k dest : Nat) (bytes : List Byte) : State :=
  let r := s.session k
  (s.setSession k { r with unsent := r.unsent ++ segments dest (bytes.length / segmentBytes + 1) true bytes }).fillWindow k 8

/-- Cells of a packet with a payload of `n` bytes (R378). -/
def packetCells (n : Nat) : Nat := 1 + (n - 48 + 63) / 64

/-- Pop `n` cells of a queue of the engine or of Ottar, in domain `d`. -/
def State.popCells (s : State) (d q : Nat) : Nat → List Word × State
  | 0 => ([], s)
  | n + 1 =>
    let (_, ws, t) := s.qPop d (s.qHandle q)
    let (l, t) := t.popCells d q n
    (ws.getD [] ++ l, t)

/-- The oldest packet of a queue, if all its cells are there: its words. -/
def State.takePacket (s : State) (d q : Nat) : Option (List Word × State) :=
  let len := (s.mword (cellAddr ((s.queue q).cellAt (s.queue q).head) + 4)).toNat
  let cells := packetCells len
  if s.qDepth q = 0 ∨ s.qDepth q < cells ∨ 65536 < len then none
  else
    let (ws, t) := s.popCells d q cells
    some (ws.take (4 + len / 4), t)

/-- The engine's work for a session's acyclic transmit queue: a packet goes out as DEST 1. -/
def State.pumpSession (s : State) (k : Nat) : State :=
  match (s.session k).queues with
  | [_, _, _, q] =>
    if s.sesState k = 2 ∧ (s.session k).unsent = [] then
      match s.takePacket 10 q with
      | some (ws, t) => t.sesPost k 1 (ws.flatMap bytesOfWord)
      | none => s.fillWindow k 8
    else s.fillWindow k 8
  | _ => s

/-- Queue of the responses to partners. -/
def State.partnerResponses (s : State) : Nat := 2 * s.rf R.NX_CFG 25 16 + 1

/-- A response to a partner's command goes back with the partner's TAG (R422). -/
def State.pumpResponse (s : State) : State :=
  match s.takePacket 10 s.partnerResponses with
  | some (w0 :: ws, t) =>
    match t.net.tags.find? (fun e => e.1 == fld w0 31 16) with
    | some (e, k, tag) =>
      let t := { t with net := { t.net with tags := t.net.tags.filter (fun x => x.1 != e) } }
      if t.sesState k = 2 then t.sesPost k 0 ((setFld w0 31 16 tag :: ws).flatMap bytesOfWord) else t
    | none => t
  | _ => s

/-! ### Cyclic exchange (R415 to R418) -/

/-- Fresh transmit data of a session: words, or nothing (R416). -/
def State.freshData (s : State) (k : Nat) : Option (List Word) × State :=
  let n := s.rf (R.NX_Ss_SIZE k) 31 16 / 4
  let xm := s.reg (R.NX_Ss_XM k)
  if bit xm 15 then
    let f := fld xm 9 0
    let b := s.xmBase f
    if (s.reg (R.XM_FRAME_GENf f)).toNat % 2 = 1 then (none, s)
    else
      let (l, t) := (List.range n).foldl (fun (x : Option (List Word) × State) i =>
        match x.1, x.2.xmReadStamped 10 (x.2.xmPort .net) (b + i) with
        | some l, (.data v, t) => (some (l ++ [v]), t)
        | _, (_, t) => (none, t)) (some [], s)
      (l, t)
  else
    let q := (s.session k).queues.getD 1 0
    let d := s.qDepth q
    if d = 0 then (none, s)
    else
      let (ws, t) := s.popCells 10 q d
      (some (((ws.drop (16 * (d - 1))).drop 2 ++ List.replicate n 0#32).take n), t)

/-- The transmit slot of a session: its slot header and data. -/
def State.txSlot (s : State) (k : Nat) : (List Byte × List Byte) × State :=
  let (fresh, t) := s.freshData k
  let r := t.session k
  let n := t.rf (R.NX_Ss_SIZE k) 31 16 / 4
  let data := fresh.getD (if r.lastData = [] then List.replicate n 0#32 else r.lastData)
  let t := t.setSession k { r with lastData := data, txCyc := (r.txCyc + 1) % 65536 }
  let t := if fresh.isNone then t.flag (R.NX_Ss_STATUS k) 2 else t
  ((beBytes 2 (t.sesPartner k) ++ beBytes 2 (4 * n) ++ beBytes 2 r.txCyc
      ++ [BitVec.ofNat 8 (b2n fresh.isNone + 2 * b2n (t.sesState k == 3)), 0#8], data.flatMap bytesOfWord), t)

/-- Body of a CYCLIC telegram; the spec counts SEQ for ACYCLIC telegrams only and leaves it open here. -/
def State.cyclicBody (s : State) (seq : Word) (slots : List (List Byte × List Byte)) : List Byte :=
  s.header8 1 0 0xFFFF (seq.toNat % 65536) ++ beBytes 2 slots.length ++ [0#8, 0#8] ++ slots.flatMap (fun x => x.1) ++ slots.flatMap (fun x => x.2)

/-- Send slots in telegrams of up to 64. -/
def State.sendSlots (s : State) (p : Nat) : Nat → List (List Byte × List Byte) → State
  | 0, _ => s
  | _, [] => s
  | f + 1, l =>
    let (q, t) := s.free
    (t.netSend p none (t.cyclicBody q (l.take 64))).sendSlots p f (l.drop 64)

/-- Number of the port's present cycle (R412). -/
def State.cycleIndex (s : State) (p : Nat) : Nat :=
  (s.devTime - (s.portRec p).base).toNat / max 1 (s.portRec p).cycle

/-- Sessions that a port serves in its present cycle, in ascending partner ID. A replicated session is served at the
cycle start of its first working port. -/
def State.dueSessions (s : State) (p : Nat) : List Nat :=
  let c := max 1 (s.portRec p).cycle
  let l := s.sessionsOn.filter (fun k => s.sesCyclic k && decide (2 ≤ s.sesState k) && (s.sesPorts k).head? == some p
    && s.cycleIndex p % max 1 ((s.reg (R.NX_Ss_CYCLE k)).toNat / c) == 0)
  l.mergeSort (fun a b => decide (s.sesPartner a ≤ s.sesPartner b))

/-- CYCLE_START (R416): the due sessions transmit; the port's other traffic follows. -/
def State.cycleStart (s : State) (p : Nat) : State :=
  if !s.coresGo then s
  else
    let t := s.fireNet (4 * p + 3)
    if !t.portWorks p then t
    else
      let (slots, t) := (t.dueSessions p).foldl (fun (x : List (List Byte × List Byte) × State) k =>
        let (slot, u) := x.2.txSlot k
        if u.sesReplicated k then
          let (q, u) := u.free
          (x.1, u.sesSend k (u.cyclicBody q [slot]))
        else (x.1 ++ [slot], u)) ([], t)
      let t := t.sendSlots p (slots.length / 64 + 1) slots
      ((t.sessionsOn.filter (fun k => (t.sesPorts k).head? == some p)).foldl (fun t k => t.pumpSession k) t).pumpResponse

def execCycleStart (p : Fin 4) (s : State) : Host.Outcome State Fault Refusal := .next (s.netBegin.cycleStart p.val)

/-- CYCLE_END_MISS (R418): a cycle of the session ends. -/
def State.cycleEnd (s : State) (k : Nat) : State :=
  if !s.sesCyclic k || decide (s.sesState k < 2) then s
  else if (s.session k).accepted then s.setSession k { s.session k with accepted := false }
  else
    let m := min 15 (s.rf (R.NX_Ss_STATE k) 27 24 + 1)
    let s := s.setRf (R.NX_Ss_STATE k) 27 24 m
    if s.sesState k = 2 ∧ max 1 (s.rf (R.NX_Ss_CFG k) 27 24) ≤ m then s.sesLost k (bitW 1)
    else s.flag (R.NX_Ss_STATUS k) 1

def execCycleEndMiss (ses : Fin 4096) (s : State) : Host.Outcome State Fault Refusal := .next (s.cycleEnd ses.val)

/-- A header that this controller takes: VER, TYPE and DST (R414). -/
inductive Heard where
  | bad | foreign | takes
deriving DecidableEq, Repr

def State.hears (s : State) (body : List Byte) : Heard :=
  let b0 := (body.getD 0 0#8).toNat
  if body.length < 8 ∨ b0 / 16 ≠ 1 ∨ b0 % 16 = 0 ∨ 7 < b0 % 16 then .bad
  else if beAt body 4 2 = 0xFFFF ∨ beAt body 4 2 = s.nodeId then .takes else .foreign

/-- Partner named in SRC; no partner has the ID of a controller, or one from 4,096 on (R414). -/
def telePartner (body : List Byte) : Nat := beAt body 2 2

/-- A telegram of type `typ` reaches a port: counted, and, where this controller takes it, acted on. A telegram of
another type is no occurrence of the command. -/
def State.telegram (s : State) (p typ : Nat) (body : List Byte) (act : State → State) : State :=
  if !s.linkUp p then s
  else match s.hears body with
    | .bad => (s.countUp (R.NX_PORTp_RX_FRAMES p)).flag R.NX_STATUS 1
    | .foreign => s.countUp (R.NX_PORTp_RX_FRAMES p)
    | .takes => if teleType body = typ then act (s.countUp (R.NX_PORTp_RX_FRAMES p)) else s

/-- Write received words to the receive exchange frame, 16 in one access (R417). -/
def State.rxFrame (s : State) (w : Nat) : Nat → List Word → State
  | 0, _ => s
  | _, [] => s
  | f + 1, l =>
    match s.xmWrite 10 (s.xmPort .net) w (l.take 16) with
    | (.error _, t) => (t.flag R.NX_STATUS 2).rxFrame (w + 16) f (l.drop 16)
    | (_, t) => t.rxFrame (w + 16) f (l.drop 16)

/-- Words of received bytes. -/
def bytesToWords (l : List Byte) : List Word := wordsOfBytes l ((l.length + 3) / 4)

/-- A slot of a received CYCLIC telegram: header bytes `h`, data `d`. -/
def State.rxSlot (s : State) (p : Nat) (tag : Option (BitVec 16)) (h d : List Byte) : State :=
  let id := beAt h 0 2
  let cyc := beAt h 4 2
  if id ≥ 4096 then s
  else match s.sessionOf id with
  | none => s
  | some k =>
    if !s.sesCyclic k || decide (s.sesState k < 2) || !(s.sesPorts k).contains p
        || beAt h 2 2 != s.rf (R.NX_Ss_SIZE k) 15 0 then s.flag R.NX_STATUS 1
    else match s.tagPasses k tag with
    | none => s
    | some s =>
      let r := s.session k
      if r.anyCyc && !serialAfter 16 cyc (s.rf (R.NX_Ss_STATE k) 15 0) then s.flag (R.NX_Ss_STATUS k) 3
      else
        let ws := bytesToWords d
        let xm := s.reg (R.NX_Ss_XM k)
        let lost := s.sesState k == 3
        let s := (s.setSession k { r with accepted := true, anyCyc := true }).setReg (R.NX_Ss_STATE k) (w32 (at_ 2 30 + cyc))
        let s := if bit xm 31 then s.rxFrame (s.xmBase (fld xm 25 16)) (ws.length / 16 + 1) ws else s
        let cell := [w32 (at_ cyc 16 + (h.getD 6 0#8).toNat), lo64 s.devTime.toNat] ++ (ws ++ List.replicate 14 0#32).take 14
        let q := r.queues.getD 0 0
        let s := (s.qPush 10 (s.qHandle q) cell).2.2
        let s := if s.rb (R.NX_Ss_EV k) 31 then s.fireNet (s.sesLine k) else s
        if lost then s.flag (R.NX_Ss_STATUS k) 5 else s

/-- The slots of a telegram one by one: headers from `h`, data from `d`. -/
def State.rxSlots (s : State) (p : Nat) (tag : Option (BitVec 16)) : Nat → List Byte → List Byte → State
  | 0, _, _ => s
  | n + 1, h, d =>
    let len := beAt h 2 2
    (s.rxSlot p tag (h.take 8) (d.take len)).rxSlots p tag n (h.drop 8) (d.drop len)

/-- Data bytes of `n` slots. -/
def slotBytes (h : List Byte) : Nat → Nat
  | 0 => 0
  | n + 1 => beAt h 2 2 + slotBytes (h.drop 8) n

/-- CYCLIC_TELEGRAM (R415, R417). -/
def State.cyclicTelegram (s : State) (p : Nat) (tag : Option (BitVec 16)) (body : List Byte) : State :=
  s.telegram p 1 body (fun s =>
    let n := beAt body 8 2
    let h := body.drop 12
    if n = 0 ∨ 64 < n ∨ h.length < 8 * n + slotBytes h n then s.flag R.NX_STATUS 1
    else s.rxSlots p tag n h (h.drop (8 * n)))

def execCyclicTelegram (p : Fin 4) (rtag : Option (BitVec 16)) (body : List Byte) (s : State) :
    Host.Outcome State Fault Refusal := .next (s.netBegin.cyclicTelegram p.val rtag body)

/-! ### Scheduled commands (R423, R424) -/

/-- Beat of an instant of device time: the first beat at or after it. -/
def State.beatOf (s : State) (t : BitVec 64) : BitVec 64 := (t - s.clk.dOfs + 3) / 4

/-- Would the block accept a scheduled action of domain 10? -/
def State.schedAccepts (s : State) (action : Nat) (arg : Word) : Bool :=
  match action with
  | 1 =>
    let p := 1024 + fld arg 9 0
    s.owns 10 (pnOwner p) && (!s.ownerSec (pnOwner p) || s.domSecure 10)
  | 2 => match s.slotOfId (fld arg 15 0) with
    | some i => s.slotOpener i == 10 && s.slotState i == 2
    | none => false
  | 3 => s.ownerDom R.SN_OWNER == 10 && s.rb R.SN_STATE 28 && !s.snapBusy
  | _ => false

/-- Acceptance of a scheduled command: RESULT, beat N, state. -/
def State.schedule10 (s : State) (action : Nat) (asap : Bool) (t : BitVec 64) (arg : Word) : Nat × BitVec 64 × State :=
  let n := s.beatOf t
  let s := s.request 10
  if 16 ≤ s.net.sched.length then (3, n, s.flag R.NX_STATUS 5)
  else if !s.schedAccepts action arg then (3, n, s)
  else if s.isLate n && !asap then (1, n, s.flag R.NX_STATUS 3)
  else
    let late := s.isLate n
    let n := if late then s.clk.beat + 2 else n
    let s := if late then s.flag R.NX_STATUS 4 else s
    (if late then 2 else 0, n, { s with net := { s.net with sched := s.net.sched ++ [⟨action, arg, n, asap⟩] } })

/-- A DEST 2 telegram's 24 bytes, and the answer. -/
def State.scheduledCommand (s : State) (k : Nat) (d : List Byte) : State :=
  let (res, n, t) := s.schedule10 (d.getD 0 0#8).toNat ((d.getD 1 0#8).getLsbD 0)
    (BitVec.ofNat 64 (beAt d 4 8)) (w32 (beAt d 12 4))
  let r := t.session k
  let ans := d.take 1 ++ [BitVec.ofNat 8 res] ++ (d.drop 2).take 14 ++ beBytes 8 n.toNat
  (t.setSession k { r with unsent := r.unsent ++ [acyclicBody 2 true true ans] }).fillWindow k 8

/-- The oldest scheduled command of an action whose beat has come. -/
def State.schedDue (s : State) (action : Nat) : Option Scheduled :=
  s.net.sched.find? (fun x => x.action == action && serialGe s.clk.beat x.beat)

def State.schedDone (s : State) (x : Scheduled) : State :=
  { s with net := { s.net with sched := s.net.sched.erase x } }

/-- SCHEDULED_FIRE (R423). -/
def State.schedFire (s : State) : State :=
  match s.schedDue 1 with
  | some x => ((s.schedDone x).fbFire 10 (bitW 31 ||| w32 (fld x.arg 9 0))).2
  | none => s

def execScheduledFire (s : State) : Host.Outcome State Fault Refusal := .next s.schedFire

/-- SCHEDULED_HAUL (R423): the haul-down is executed at its beat N, in the place of R39. -/
def State.schedHaul (s : State) : State :=
  match s.schedDue 2 with
  | some x =>
    let s := s.schedDone x
    match s.slotOfId (fld x.arg 15 0) with
    | some i =>
      if s.slotOpener i ≠ 10 then s
      else if s.slotState i = 2 then
        (({ s with ep := { s.ep with
            armedAt := s.ep.armedAt.set (fun _ => 0#64) i s.clk.beat
            asap := s.ep.asap.set (fun _ => false) i x.asap } }).setSlotState i 3).haulDown i
      else s.flag R.EP_STATUS (if s.slotState i = 1 then 8 else 9)
    | none => s
  | none => s

def execScheduledHaul (s : State) : Host.Outcome State Fault Refusal := .next s.schedHaul

/-! ### Acyclic telegrams in (R419, R420, R422) -/

/-- Acknowledge. -/
def State.sendAck (s : State) (k : Nat) (wait : Bool) : State :=
  s.sesSend k (s.header8 3 (b2n wait) (s.sesPartner k) (s.session k).rxSeq)

/-- Free places of a queue that the engine may push to; none where the push would be refused. -/
def State.roomFor10 (s : State) (q : Nat) : Nat :=
  if (s.qRefusal 10 (s.qHandle q) true).isSome then 0 else s.qCapacity q - s.qDepth q

/-- Push words as cells in domain 10. -/
def State.pushWords (s : State) (q : Nat) : Nat → List Word → State
  | 0, _ => s
  | _, [] => s
  | f + 1, l => ((s.qPush 10 (s.qHandle q) (l.take 16)).2.2).pushWords q f (l.drop 16)

/-- Tags of requests that the command mailbox has taken. -/
def State.takenTags (s : State) : List Nat :=
  (s.mp.requests.filter (fun r => r.mb == s.rf R.NX_CFG 25 16)).map (fun r => r.tag)

/-- Engine tags still outstanding: one whose request succeeded under QUIET has no response (R379). -/
def State.liveTags (s : State) : List (Nat × Nat × Nat) :=
  let m := s.rf R.NX_CFG 25 16
  if s.qDepth (2 * m) = 0 ∧ s.qDepth (2 * m + 1) = 0 then s.net.tags.filter (fun e => s.takenTags.contains e.1) else s.net.tags

/-- The lowest tag that is not outstanding (R422). -/
def State.freeTag (s : State) : Nat :=
  let used := s.liveTags.map (fun e => e.1) ++ s.takenTags
  ((List.range (used.length + 1)).find? (fun t => !used.contains t)).getD 0

/-- A whole packet for the mailbox or for the session's acyclic receive queue; nothing where the queue cannot take it. -/
def State.deliverPacket (s : State) (k dest : Nat) (bytes : List Byte) : Option State :=
  let ws := bytesToWords bytes
  let cells := (ws.length + 15) / 16
  let q := if dest = 0 then 2 * s.rf R.NX_CFG 25 16 else (s.session k).queues.getD 2 0
  if s.roomFor10 q < cells then none
  else if dest = 0 then
    match ws with
    | w0 :: r =>
      let t := s.freeTag
      some ({ s with net := { s.net with tags := s.liveTags ++ [(t, k, fld w0 31 16)] } }.pushWords q cells
        (setFld w0 31 16 t :: r))
    | [] => some s
  else some (s.pushWords q cells ws)

/-- A telegram in sequence: nothing where its segment cannot be taken. -/
def State.acceptSegment (s : State) (k : Nat) (b : List Byte) : Option State :=
  let pre := beAt b 0 4
  let dest := pre / 2 ^ 30
  let data := b.drop 4
  if dest = 2 then some (s.scheduledCommand k data)
  else
    let r := s.session k
    let all := (if pre.testBit 29 then [] else r.inPacket) ++ data
    if pre.testBit 28 then (s.setSession k { r with inPacket := [] }).deliverPacket k dest all
    else some (s.setSession k { r with inPacket := all })

/-- Is the body of an ACYCLIC telegram well formed (R419)? -/
def acyclicOk (b : List Byte) : Bool :=
  let pre := beAt b 0 4
  decide (4 ≤ b.length) && b.length % 4 == 0 && decide (pre / 2 ^ 30 ≤ 2) && pre % 2 ^ 28 == 0
    && (pre / 2 ^ 30 != 2 || (b.length == 28 && pre.testBit 29 && pre.testBit 28))

/-- ACYCLIC_TELEGRAM (R420). -/
def State.acyclicTelegram (s : State) (p : Nat) (tag : Option (BitVec 16)) (body : List Byte) : State :=
  s.telegram p 2 body (fun s =>
    match s.sessionOf (telePartner body) with
    | none => s
    | some k =>
      if s.sesState k ≠ 2 ∨ !(s.sesPorts k).contains p then s
      else match s.tagPasses k tag with
      | none => s
      | some s =>
        if beAt body 6 2 ≠ (s.session k).rxSeq then s.sendAck k false
        else if !acyclicOk (body.drop 8) then s.flag R.NX_STATUS 1
        else match s.acceptSegment k (body.drop 8) with
          | some t => (t.setSession k { t.session k with rxSeq := ((t.session k).rxSeq + 1) % 65536 }).sendAck k false
          | none => s.sendAck k true)

def execAcyclicTelegram (p : Fin 4) (rtag : Option (BitVec 16)) (body : List Byte) (s : State) :
    Host.Outcome State Fault Refusal := .next (s.netBegin.acyclicTelegram p.val rtag body)

/-- ACK_TELEGRAM (R421): every telegram before E is released. -/
def State.ackTelegram (s : State) (p : Nat) (tag : Option (BitVec 16)) (body : List Byte) : State :=
  s.telegram p 3 body (fun s =>
    match s.sessionOf (telePartner body) with
    | none => s
    | some k =>
      if s.sesState k ≠ 2 ∨ !(s.sesPorts k).contains p then s
      else match s.tagPasses k tag with
      | none => s
      | some s =>
        let r := s.session k
        let left := r.unacked.filter (fun x => !serialAfter 16 (beAt body 6 2) x.1)
        let progress := left.length < r.unacked.length
        (s.setSession k { r with unacked := left, resends := if progress then 0 else r.resends }).fillWindow k 8)

def execAckTelegram (p : Fin 4) (rtag : Option (BitVec 16)) (body : List Byte) (s : State) :
    Host.Outcome State Fault Refusal := .next (s.netBegin.ackTelegram p.val rtag body)

/-- Send the unacknowledged telegrams again, from the oldest. -/
def State.resend (s : State) (k : Nat) : State :=
  (s.session k).unacked.foldl (fun t x => t.sesSend k x.2) s

/-- ACK_TIMEOUT (R421): 500 µs without progress; after the eighth resend the session is LOST. -/
def State.ackTimeout (s : State) (k : Nat) : State :=
  let r := s.session k
  if s.sesState k ≠ 2 ∨ r.unacked = [] then s
  else if 8 ≤ r.resends then s.sesLost k (bitW 4)
  else (s.setSession k { r with resends := r.resends + 1 }).resend k

def execAckTimeout (ses : Fin 4096) (s : State) : Host.Outcome State Fault Refusal := .next (s.netBegin.ackTimeout ses.val)

/-! ### Discovery, joining and leaving (R425 to R427) -/

/-- Body of an ANNOUNCE telegram. -/
def State.announce (s : State) : List Byte :=
  beBytes 4 (s.rf R.NX_CFG 11 0) ++ ([R.SYS_FAMILY0, R.SYS_FAMILY1, R.SYS_FAMILY2, R.SYS_FAMILY3].flatMap
      (fun a => beBytes 4 (s.reg a).toNat))
    ++ beBytes 8 Config.serialNumber ++ ((List.range 4).flatMap (fun p => beBytes 4 (s.reg (R.NX_PORTp_STATE p)).toNat))

/-- DISCOVER_TELEGRAM (R425). -/
def State.discover (s : State) (p : Nat) (body : List Byte) : State :=
  s.telegram p 4 body (fun s => s.netSend p none (s.header8 5 0 (beAt body 2 2) 0 ++ s.announce))

def execDiscoverTelegram (p : Fin 4) (body : List Byte) (s : State) : Host.Outcome State Fault Refusal :=
  .next (s.netBegin.discover p.val body)

/-- A JOIN telegram of a session: cycle time, sizes, port mask. -/
def State.joinBody (s : State) (k flags : Nat) : List Byte :=
  s.header8 6 flags (s.sesPartner k) 0 ++ beBytes 4 (s.reg (R.NX_Ss_CYCLE k)).toNat ++ beBytes 4 (s.reg (R.NX_Ss_SIZE k)).toNat
    ++ beBytes 4 (s.rf (R.NX_Ss_CFG k) 19 16)

/-- Queues that Ottar has not given away: the lowest `n` among 2,048 to 65,535 (R393, log entry 22). -/
def State.freeQueues (s : State) (n : Nat) : List Nat :=
  let taken := fun (q : Nat) => s.mp.allocated.contains (1, 0, q) || s.reg (R.QM_Qq_OWN q) != 0x10#32 || s.qEnabled q
  let used := s.mp.allocated.length + s.queues.length
  (((List.range (n + used)).map (fun i => 2048 + i)).filter (fun q => q < 65536 && !taken q)).take n

/-- Configure a queue for a session: owner domain 10. -/
def State.sesQueue (s : State) (q log2 mode producer consumer : Nat) : State :=
  let sec := b2n (s.domSecure 10)
  let s := { s with mp := { s.mp with allocated := s.mp.allocated ++ [(1, 0, q)] } }
  (s.qOwnWrite q (w32 (16 * sec + 10))).qCfgWrite q
    (w32 (2 ^ 31 + at_ mode 30 + at_ log2 24 + at_ producer 20 + at_ consumer 16))

/-- Open a session: its index, or nothing without a free session, queues or cells (R427). -/
def State.openSession (s : State) (cfg cycle size : Word) : Option (Nat × State) :=
  let owner := fld cfg 23 20
  match (List.range 4096).find? (fun k => !s.rb (R.NX_Ss_CFG k) 31), s.freeQueues 4 with
  | some k, [a, b, c, d] =>
    if s.freeCells < 520 then none
    else
      let s := ((((s.sesQueue a 2 1 10 owner).sesQueue b 2 1 owner 10).sesQueue c 8 0 10 owner).sesQueue d 8 0 owner 10)
      let s := ((s.setReg (R.NX_Ss_CFG k) cfg).setReg (R.NX_Ss_CYCLE k) cycle).setReg (R.NX_Ss_SIZE k) size
      let s := ((s.setReg (R.NX_Ss_XM k) 0#32).setReg (R.NX_Ss_EV k) 0#32).setReg (R.NX_Ss_STATE k) (w32 (at_ 1 30))
      some (k, s.setSession k { SessionRec.reset with queues := [a, b, c, d] })
  | _, _ => none

/-- Return a queue to domain 0, disabled. -/
def State.freeQueue (s : State) (q : Nat) : State :=
  let s := { s with mp := { s.mp with allocated := s.mp.allocated.filter (fun x => x != (1, 0, q)) } }
  (s.qCfgWrite q 0#32).qOwnWrite q 0x10#32

/-- Close a session: its four queues are freed (R426). -/
def State.closeSession (s : State) (k : Nat) : State :=
  let s := (s.session k).queues.foldl (fun t q => t.freeQueue q) s
  let s := ((s.setReg (R.NX_Ss_CFG k) 0x03000000#32).setReg (R.NX_Ss_STATE k) 0#32).setSession k .reset
  { s with net := { s.net with tags := s.net.tags.filter (fun e => e.2.1 != k) } }

/-- JOIN_TELEGRAM (R426, R427). -/
def State.joinTelegram (s : State) (p : Nat) (tag : Option (BitVec 16)) (body : List Byte) : State :=
  s.telegram p 6 body (fun s =>
    let accept := (body.getD 1 0#8).getLsbD 0
    match s.sessionOf (telePartner body) with
    | some k =>
      match s.tagPasses k tag with
      | none => s
      | some s =>
        if s.sesState k = 1 then (if accept then s.sesRun k false else s.flag (R.NX_Ss_STATUS k) 6)
        else if s.sesState k = 3 then
          let t := s.sesRun k true
          if accept then t else t.sesSend k (t.joinBody k 1)
        else s
    | none =>
      if s.rb R.NX_CFG 31 && s.mp.serving && !accept && decide (telePartner body < 4096) then
        match s.openSession (w32 (2 ^ 31 + at_ 3 24 + at_ 10 20 + 2 ^ (16 + p) + telePartner body)) 0#32 0#32 with
        | some (k, t) => (t.sesRun k false).sesSend k (t.joinBody k 1)
        | none => s
      else s)

def execJoinTelegram (p : Fin 4) (rtag : Option (BitVec 16)) (body : List Byte) (s : State) :
    Host.Outcome State Fault Refusal := .next (s.netBegin.joinTelegram p.val rtag body)

/-- LEAVE_TELEGRAM (R426). -/
def State.leaveTelegram (s : State) (p : Nat) (tag : Option (BitVec 16)) (body : List Byte) : State :=
  s.telegram p 7 body (fun s =>
    match s.sessionOf (telePartner body) with
    | some k => match s.tagPasses k tag with
      | some t => t.closeSession k
      | none => s
    | none => s)

def execLeaveTelegram (p : Fin 4) (rtag : Option (BitVec 16)) (body : List Byte) (s : State) :
    Host.Outcome State Fault Refusal := .next (s.netBegin.leaveTelegram p.val rtag body)

/-- JOIN_RETRY (R426): an OPENING session asks again. -/
def State.joinRetry (s : State) (k : Nat) : State := if s.sesState k = 1 then s.sesSend k (s.joinBody k 0) else s

def execJoinRetry (ses : Fin 4096) (s : State) : Host.Outcome State Fault Refusal := .next (s.netBegin.joinRetry ses.val)

/-! ### Retirement of a port (R428, R429) -/

/-- A port is permanently faulty: `detail` 1 link down, 2 CRC limit. Sessions that move resend what is unacknowledged. -/
def State.retirePort (s : State) (p detail : Nat) : State :=
  if s.portRetired p then s
  else
    let redundant := match s.redund p with
      | some r => s.portWorks r
      | none => false
    let moved := s.sessionsOn.filter (fun k => (s.sesMask k).contains p && !s.sesReplicated k && s.sesState k == 2)
    let t := (s.setRb (R.NX_PORTp_STATE p) 30 true).flag R.NX_STATUS 0
    let t := (t.fireNet (4 * p + 2)).report (0x110 + p) (0x110 + p) (if redundant then 0x1A else 0x1B) (w32 detail)
    if redundant then moved.foldl (fun t k => t.resend k) t else t

/-- Time in beats for which the link may be down (R428). -/
def State.downLimit (s : State) (p : Nat) : Nat :=
  let l := (s.sessionsOn.filter (fun k => s.sesCyclic k && (s.sesMask k).contains p)).map
    (fun k => (s.reg (R.NX_Ss_CYCLE k)).toNat)
  match l with
  | [] => 250000
  | c :: r => 3 * (r.foldl min c) / 4

/-- PORT_RETIRE (R428): the link has been down for long enough. -/
def State.portRetire (s : State) (p : Nat) : State :=
  match (s.portRec p).downSince with
  | some b => if s.downLimit p ≤ (s.clk.beat - b).toNat ∧ s.coresGo = true then s.retirePort p 1 else s
  | none => s

def execPortRetire (p : Fin 4) (s : State) : Host.Outcome State Fault Refusal := .next (s.netBegin.portRetire p.val)

/-- A restore or a NET_PORT command brings a port back (R428, R459). -/
def State.portRestored (s : State) (p : Nat) : State :=
  (s.setRb (R.NX_PORTp_STATE p) 30 false).setPort p { s.portRec p with
    crc := [], downSince := if s.linkUp p then none else some s.clk.beat }

/-- ETH_FRAME_DROP (R411): an FCS error, or a frame that the port does not take. -/
def State.frameDrop (s : State) (p : Nat) (crc : Bool) : State :=
  if !s.linkUp p then s
  else if !crc then s.setRf (R.NX_PORTp_ERRS p) 15 0 (satTo 0xFFFF (s.rf (R.NX_PORTp_ERRS p) 15 0 + 1))
  else
    let s := s.setRf (R.NX_PORTp_ERRS p) 31 16 (satTo 0xFFFF (s.rf (R.NX_PORTp_ERRS p) 31 16 + 1))
    let r := s.portRec p
    let l := r.crc.filter (fun b => (s.clk.beat - b).toNat < 250000000) ++ [s.clk.beat]
    let s := s.setPort p { r with crc := l }
    if (s.reg (R.NX_PORTp_CRC_LIMIT p)).toNat < l.length then s.retirePort p 2 else s

def execEthFrameDrop (p : Fin 4) (crc : Bool) (s : State) : Host.Outcome State Fault Refusal :=
  .next (s.netBegin.frameDrop p.val crc)

/-! ### WATCH (R437) -/

/-- Entry into WATCH: the ports are off, and sessions become LOST. -/
def State.netWatch (s : State) : State :=
  let t := (List.range 4).foldl (fun t p => t.linkDown p) s
  (t.sessionsOn.filter (fun k => t.sesState k == 2 || t.sesState k == 1)).foldl
    (fun t k => if t.sesState k = 2 then t.sesLost k 0#32 else t) t

/-- Wake: scheduled commands whose beat passed are late under their policy (R30, R437). -/
def State.netWake (s : State) : State :=
  let late := s.net.sched.filter (fun x => s.isLate x.beat)
  let t := { s with net := { s.net with
    ports := s.net.ports.map (fun e => (e.1, { e.2 with downSince := some s.clk.beat }))
    sched := s.net.sched.filterMap (fun x =>
      if !s.isLate x.beat then some x else if x.asap then some { x with beat := s.clk.beat + 2 } else none) } }
  late.foldl (fun t x => t.flag R.NX_STATUS (if x.asap then 4 else 3)) t

end Sys2Proof.Machine
end

