-- ==== Sys2Proof/Machine/Faults.lean ====
section
/-!
DEFINITION. Links, clocks and supplies (R446 to R448), forced retirement and restores (R459, R460).
-/
namespace Sys2Proof.Machine
open Sys2Proof

/-- Units of the islands that run. -/
def State.liveUnits (s : State) : List (Nat × Nat) := allUnits.filter (fun u => s.islandRuns u.1)

/-- Hold units for a cause. -/
def State.holdUnits (s : State) (l : List (Nat × Nat)) (cause : Nat) : State :=
  l.foldl (fun t u => t.sysHold u.1 u.2 cause) s

def unitsOf (n : Nat) : List (Nat × Nat) := (List.range 4).map (fun k => (n, k))

/-! ### Links (R10, R13, R272, R446) -/

def State.setLink (s : State) (l : Nat) (r : LinkRec) : State := { s with links := s.links.set (fun _ => .reset) l r }

/-- Source number of a link (R451). -/
def linkSource (l : Nat) : Nat := if l < 16 then 0xD0 + l else 0xE0 + (l - 16)

/-- LINK_TIMEOUT (R13, R272, R446): accesses end in error responses and pennants hold until the link has reset. -/
def State.linkTimeout (s : State) (l : Nat) : State :=
  let r := s.link l
  if r.timedOut || r.retired then s
  else ((s.setLink l { r with timedOut := true }).fabFault 16 8 3 false (l % 16) l).heldReport s 16

def execLinkTimeout (l : Fin 32) (s : State) : Host.Outcome State Fault Refusal := .next (s.linkTimeout l.val)

/-- LINK_RESET (R446): the handshake has reset; `passed` says within 1 µs and with no further timeout for 1 ms. Else
the link is retired and its traffic rerouted. -/
def State.linkReset (s : State) (l : Nat) (passed : Bool) : State :=
  if !(s.link l).timedOut then s
  else
    let s := s.setLink l ⟨false, !passed⟩
    (s.report (linkSource l) (linkSource l) (if passed then 0x14 else 0x15) 0#32).refreshPennants

def execLinkReset (l : Fin 32) (passed : Bool) (s : State) : Host.Outcome State Fault Refusal :=
  .next (s.linkReset l.val passed)

/-! ### Clocks and supplies (R447, R448) -/

/-- CLOCK_FAULT (R447): the beat runs from the internal oscillator. -/
def State.clockFaultOn (s : State) : State :=
  if s.clk.clockFault then s
  else
    let s := (s.setClk { s.clk with clockFault := true }).report 0x118 0x118 0x18 0#32
    if s.rb R.FC_CTRL 31 then s.holdUnits s.liveUnits 21 else s

def execClockFault (s : State) : Host.Outcome State Fault Refusal :=
  .next (if s.device = .backup then s else s.clockFaultOn)

/-- CLOCK_FAULT_END (R447). -/
def State.clockFaultOff (s : State) : State :=
  if s.clk.clockFault then (s.setClk { s.clk with clockFault := false }).conditionEnded 0x118 else s

def execClockFaultEnd (s : State) : Host.Outcome State Fault Refusal := .next s.clockFaultOff

/-- PLL_UNLOCK (R32, R447): the sync bit clears, and the island's units take a system hold. -/
def State.pllUnlock (s : State) (n : Nat) : State :=
  if !s.islandRuns n || !s.rb (R.IC_STATE n) 31 then s
  else
    let s := if s.synced n then s.syncLost n else s
    let s := (s.setRb (R.IC_STATE n) 31 false).report (0xC0 + n) (0xC0 + n) 0x17 0#32
    s.holdUnits (unitsOf n) 21

def execPllUnlock (n : Fin 16) (s : State) : Host.Outcome State Fault Refusal := .next (s.pllUnlock n.val)

/-- Rails of the supply table (R501). -/
def railCount : Nat := 11

/-- Monitor window of a rail in mV (R501); a VDDIO bank has that of its latched level, VBAK no upper limit. -/
def railWindow (r : Nat) : Nat × Nat :=
  match r with
  | 0 => (700, 850)
  | 1 => (740, 870)
  | 2 => (1660, 1940)
  | 3 => (830, 970)
  | 4 => (1660, 1940)
  | 10 => (1600, 2 ^ 32)
  | _ => if Config.ioLevels.getLsbD (r - 5) then (3040, 3560) else (1660, 1940)

/-- May a rail at `mv` mV be outside its window? The thresholds are accurate to 1.5 % (R501). -/
def railOutside (r mv : Nat) : Bool :=
  decide (1000 * mv < 1015 * (railWindow r).1) || decide (985 * (railWindow r).2 < 1000 * mv)

/-- SUPPLY_FAULT (R448): a rail has been outside its window for 1 µs. -/
def State.supplyFault (s : State) (r : Fin 16) (mv : Word) : State :=
  if railCount ≤ r.val || s.faults.rails.contains r || s.device == .backup || !railOutside r.val mv.toNat then s
  else
    let s := { s with faults := { s.faults with rails := s.faults.rails ++ [r] } }
    let s := s.report (0x120 + r.val) (0x120 + r.val) 0x19 mv
    if s.rb R.FC_CTRL 28 then s.holdUnits s.liveUnits 22 else s

def execSupplyFault (rail : Fin 16) (mv : Word) (s : State) : Host.Outcome State Fault Refusal :=
  .next (s.supplyFault rail mv)

/-- SUPPLY_RECOVERED (R448): the rail has stayed inside its window for 1 ms. -/
def State.supplyRecovered (s : State) (r : Fin 16) : State :=
  if s.faults.rails.contains r then
    ({ s with faults := { s.faults with rails := s.faults.rails.filter (fun x => x != r) } }).conditionEnded (0x120 + r.val)
  else s

def execSupplyRecovered (rail : Fin 16) (s : State) : Host.Outcome State Fault Refusal := .next (s.supplyRecovered rail)

/-! ### Forced retirement (R460) -/

/-- A write to FC_RETIRE. -/
def State.fcRetire (s : State) (x : Nat) : State :=
  if x < 0x60 then
    let n := x / 6
    let m := x % 6
    if s.leRetired n m then s.flag R.FC_STATUS 6 else s.leRetire n (s.leWindow n m) true
  else if 0xA0 ≤ x ∧ x < 0xC0 then
    let n := (x - 0xA0) / 2
    let c := x % 2
    if s.acRole n c = 2 then s.flag R.FC_STATUS 6 else s.acRetire n c true
  else s.flag R.FC_STATUS 6

/-! ### Restore (R459) -/

/-- Is a unit eligible for a restore? -/
def State.restorable (s : State) (x : Nat) : Bool :=
  if x < 0x60 then s.leRetired (x / 6) (x % 6)
  else if x < 0xA0 then s.rf (R.TU_RB_STATE ((x - 0x60) / 4) (x % 4)) 11 0 != 0
  else if x < 0xC0 then s.acRole ((x - 0xA0) / 2) (x % 2) == 2
  else if 0x100 ≤ x ∧ x < 0x108 then x % 2 == 0 && s.corePermanent (x - 0x100)
  else if 0x110 ≤ x ∧ x < 0x114 then s.portRetired (x - 0x110)
  else false

/-- A write to FC_RESTORE. -/
def State.fcRestore (s : State) (x : Nat) : State :=
  if s.rb R.FC_RESTORE_STATE 31 then s.flag R.FC_STATUS 5
  else if s.restorable x then s.setReg R.FC_RESTORE_STATE (w32 (2 ^ 31 + at_ x 16))
  else s.setReg R.FC_RESTORE_STATE (w32 (at_ 3 29 + at_ x 16))

/-- A converter core passes: the partner hands the hosted set back. -/
def State.acRestored (s : State) (n c : Nat) : State :=
  let s := s.setAc n c { s.ac n c with window := [], handBack := (s.ac n c).hosted }
  let s := (s.setRf (R.AC_STATE n c) 31 30 0).setRf (R.AC_STATE n c) 12 8 0
  (s.acHandBack n c).imposeAwaiting n c

/-- A unit passes its restore. -/
def State.restored (s : State) (x : Nat) : State :=
  if x < 0x60 then s.leRestored (x / 6) (x % 6)
  else if x < 0xA0 then
    let n := (x - 0x60) / 4
    let k := x % 4
    (s.setReg (R.TU_RB_STATE n k) 0#32).setTu n k { s.tu n k with rbFails := List.replicate 12 0 }
  else if x < 0xC0 then s.acRestored ((x - 0xA0) / 2) (x % 2)
  else if x < 0x108 then s.coreRestored (x - 0x100)
  else s.portRestored (x - 0x110)

/-- RESTORE_COMPLETE (R459): `test` 0 is a pass, else the number of the failing test. A timer unit has no self-test. -/
def State.restoreComplete (s : State) (test : Nat) : State :=
  if !s.rb R.FC_RESTORE_STATE 31 then s
  else
    let x := s.rf R.FC_RESTORE_STATE 28 16
    if test = 0 ∨ (0x60 ≤ x ∧ x < 0xA0) then
      let s := (s.setReg R.FC_RESTORE_STATE (w32 (at_ 1 29 + at_ x 16))).flag R.FC_STATUS 3
      let s := s.restored x
      let r := s.faultRec x
      if r.incidents = 0 then s
      else s.setFaultRec x { r with active := false, lastRep := 0x1F0, lastT := lo64 s.devTime.toNat }
    else (s.setReg R.FC_RESTORE_STATE (w32 (at_ 2 29 + at_ x 16 + test))).flag R.FC_STATUS 4

def execRestoreComplete (test : Fin 7) (s : State) : Host.Outcome State Fault Refusal := .next (s.restoreComplete test.val)

end Sys2Proof.Machine
end

