-- ==== Sys2Proof/Machine/DmaOps.lean ====
section
/-!
DEFINITION. The DMA channels without their accesses (R348, R351, R353, R354, R358): descriptors, start, stop, triggers,
draining. A channel issues as far ahead as it may; an element's accesses are made when its response returns.
-/
namespace Sys2Proof.Machine
open Sys2Proof

def State.dma (s : State) (c : Nat) : DmaRec := s.dmas.get (fun _ => .reset) c

def State.setDma (s : State) (c : Nat) (r : DmaRec) : State := { s with dmas := s.dmas.set (fun _ => .reset) c r }

/-- STATE of a channel: 0 IDLE, 1 ACTIVE, 2 WAIT_TRIG, 3 HALTED. -/
def State.dmaState (s : State) (c : Nat) : Nat := s.rf (R.DMA_CHc_CTRL c) 1 0

def State.setDmaState (s : State) (c v : Nat) : State := s.setReg (R.DMA_CHc_CTRL c) (w32 v)

/-- A channel that is ACTIVE or WAIT_TRIG. -/
def State.dmaOn (s : State) (c : Nat) : Bool := s.dmaState c == 1 || s.dmaState c == 2

/-- Element size in bytes. -/
def State.dmaSize (s : State) (c : Nat) : Nat := if s.rb (R.DMA_CHc_CFG c) 23 then 8 else 4

/-- Elements per line of a shape, and lines. -/
def shapeLen (sh : Word) : Nat := fld sh 15 0 + 1
def shapeLines (sh : Word) : Nat := fld sh 31 16 + 1

/-- Elements of the present descriptor. -/
def State.dmaTotal (s : State) (c : Nat) : Nat :=
  shapeLen (s.reg (R.DMA_CHc_SRC_SHAPE c)) * shapeLines (s.reg (R.DMA_CHc_SRC_SHAPE c))

/-- Address of element `i` of a pattern. -/
def elementAddr (start sh stride : Word) (size i : Nat) : Nat :=
  (start + w32 (i / shapeLen sh) * stride + w32 (i % shapeLen sh * size)).toNat

def State.dmaSrc (s : State) (c i : Nat) : Nat :=
  elementAddr (s.reg (R.DMA_CHc_SRC c)) (s.reg (R.DMA_CHc_SRC_SHAPE c)) (s.reg (R.DMA_CHc_SRC_STRIDE c)) (s.dmaSize c) i

def State.dmaDst (s : State) (c i : Nat) : Nat :=
  elementAddr (s.reg (R.DMA_CHc_DST c)) (s.reg (R.DMA_CHc_DST_SHAPE c)) (s.reg (R.DMA_CHc_DST_STRIDE c)) (s.dmaSize c) i

/-- Elements completed. -/
def State.dmaCount (s : State) (c : Nat) : Nat := (s.reg (R.DMA_CHc_COUNT c)).toNat

/-- Accesses outstanding. -/
def State.dmaOut (s : State) (c : Nat) : Nat := (s.dma c).issued - s.dmaCount c

/-- An element whose source or destination lies in an island. -/
def State.dmaHits (s : State) (c n i : Nat) : Bool :=
  islandOf (s.dmaSrc c i) == some n || islandOf (s.dmaDst c i) == some n

/-- Do elements `lo … hi - 1` of a pattern touch an island? Lines that lie between are tested whole. -/
def patternHits (start sh stride : Word) (size n lo hi : Nat) : Bool :=
  let len := shapeLen sh
  (List.range (shapeLines sh)).any (fun l =>
    let a := max lo (l * len)
    let b := min hi ((l + 1) * len)
    decide (a < b) &&
      (let f := elementAddr start sh stride size a
       let e := f + (b - 1 - a) * size
       decide (f < 0x41000000 + 0x1000000 * n) && decide (0x40000000 + 0x1000000 * n ≤ e)))

/-- Do elements `lo … hi - 1` of a channel's descriptor touch an island? -/
def State.dmaTouches (s : State) (c n lo hi : Nat) : Bool :=
  patternHits (s.reg (R.DMA_CHc_SRC c)) (s.reg (R.DMA_CHc_SRC_SHAPE c)) (s.reg (R.DMA_CHc_SRC_STRIDE c)) (s.dmaSize c) n lo hi
  || patternHits (s.reg (R.DMA_CHc_DST c)) (s.reg (R.DMA_CHc_DST_SHAPE c)) (s.reg (R.DMA_CHc_DST_STRIDE c)) (s.dmaSize c)
    n lo hi

/-- A channel whose next element targets an island that drains waits (R354). -/
def State.dmaWaits (s : State) (c : Nat) : Bool :=
  (List.range 16).any (fun n => s.phase n == .draining && s.dmaHits c n (s.dma c).issued)

/-- Issue elements while the channel may: at most 16 outstanding, none while it stops. -/
def State.dmaPump (s : State) (c : Nat) : Nat → State
  | 0 => s
  | k + 1 =>
    let r := s.dma c
    if s.dmaState c != 1 || r.stopping || decide (s.dmaTotal c ≤ r.issued) || decide (16 ≤ s.dmaOut c) || s.dmaWaits c
    then s
    else match r.allow with
      | some 0 => s
      | some (j + 1) => (s.setDma c { r with issued := r.issued + 1, allow := some j }).dmaPump c k
      | none => (s.setDma c { r with issued := r.issued + 1 }).dmaPump c k

/-- A channel halts, with a flag and the address of R358. -/
def State.dmaHalt (s : State) (c flag : Nat) (v : Word) : State :=
  ((s.setDmaState c 3).setReg (R.DMA_CHc_ERR c) v).flag (R.DMA_CHc_STATUS c) flag |>.setDma c .reset

/-- Trigger mode: 0 SOFTWARE, 1 LINE, 2 ELEMENT; 3 acts as 0. -/
def State.dmaMode (s : State) (c : Nat) : Nat := s.rf (R.DMA_CHc_CFG c) 27 26 % 3

/-- The check of a descriptor before any access (R348): the flag and what ERR shows. -/
def State.dmaCheck (s : State) (c : Nat) : Option (Nat × Word) :=
  let z := s.dmaSize c
  match [R.DMA_CHc_SRC c, R.DMA_CHc_DST c, R.DMA_CHc_SRC_STRIDE c, R.DMA_CHc_DST_STRIDE c].find?
      (fun a => (s.reg a).toNat % z != 0) with
  | some a => some (3, s.reg a)
  | none =>
    if s.dmaTotal c ≠ shapeLen (s.reg (R.DMA_CHc_DST_SHAPE c)) * shapeLines (s.reg (R.DMA_CHc_DST_SHAPE c)) then
      some (4, 0#32)
    else none

/-- A descriptor begins; `r` holds what the channel's triggers still allow. -/
def State.dmaBegin (s : State) (c : Nat) (r : DmaRec) : State :=
  let s := s.setReg (R.DMA_CHc_COUNT c) 0#32
  match s.dmaCheck c with
  | some (f, v) => s.dmaHalt c f v
  | none =>
    let r := { r with issued := 0, allow := if s.dmaMode c = 0 then none else some (r.allow.getD 0) }
    let s := s.setDma c r
    (s.setDmaState c (if r.allow = some 0 then 2 else 1)).dmaPump c 16

/-- A stop is complete: IDLE and STOPPED (R353). -/
def State.dmaStopped (s : State) (c : Nat) : State := ((s.setDmaState c 0).setDma c .reset).flag (R.DMA_CHc_STATUS c) 2

/-- A write to DMA_CHc_CTRL (R353): STOP wins over GO. -/
def State.dmaCtrlWrite (s : State) (c : Nat) (v : Word) : State :=
  if bit v 30 then
    if !s.dmaOn c then s
    else if s.dmaOut c = 0 then s.dmaStopped c
    else s.setDma c { s.dma c with stopping := true }
  else if bit v 31 then
    if s.dmaOn c then s.flag (R.DMA_CHc_STATUS c) 10
    else (s.setReg (R.DMA_CHc_DESC c) 0#32).dmaBegin c .reset
  else s

/-- A write to a configuration register of a channel (R353). -/
def State.dmaCfgWrite (s : State) (c a : Nat) (v : Word) : State :=
  if s.dmaOn c then s.flag (R.DMA_CHc_STATUS c) 10 else s.setReg a v

/-- Elements that one trigger moves (R351). -/
def State.dmaUnit (s : State) (c : Nat) : Nat :=
  if s.dmaMode c = 2 then 1 else shapeLen (s.reg (R.DMA_CHc_SRC_SHAPE c))

/-- A trigger of a channel: it starts a unit, is latched, or is lost. -/
def State.dmaTrigger (s : State) (c : Nat) : State :=
  let r := s.dma c
  if s.dmaMode c = 0 || r.stopping then s
  else if s.dmaState c = 2 then
    ((s.setDma c { r with allow := some (s.dmaUnit c) }).setDmaState c 1).dmaPump c 16
  else if s.dmaState c = 1 then
    if r.latched then s.flag (R.DMA_CHc_STATUS c) 9 else s.setDma c { r with latched := true }
  else s

def execDmaTrigger (c : Fin 64) (s : State) : Host.Outcome State Fault Refusal := .next (s.dmaTrigger c.val)

/-- After a response: a unit that is complete makes way for the latched trigger or waits for the next; a channel that
stops becomes IDLE with its last response. -/
def State.dmaNext (s : State) (c : Nat) : State :=
  let r := s.dma c
  if s.dmaState c != 1 then s
  else if r.stopping && s.dmaOut c == 0 then s.dmaStopped c
  else if r.allow = some 0 && s.dmaOut c == 0 then
    if r.latched then (s.setDma c { r with allow := some (s.dmaUnit c), latched := false }).dmaPump c 16
    else s.setDmaState c 2
  else s.dmaPump c 16

/-! ### Draining (R354, R466) -/

/-- End a channel with DOMAIN_OFF at the first element of the island that has not been transferred. -/
def State.dmaOff (s : State) (c n : Nat) : State :=
  let k := s.dmaCount c
  let a := if islandOf (s.dmaSrc c k) == some n then s.dmaSrc c k else s.dmaDst c k
  s.dmaHalt c 8 (w32 a)

/-- Channels that have started. -/
def State.dmasOn (s : State) : List Nat := (List.range 64).filter s.dmaOn

/-- No access to the island is outstanding. -/
def State.dmaDrained (s : State) (n : Nat) : Bool :=
  !s.dmasOn.any (fun c => s.dmaTouches c n (s.dmaCount c) (s.dma c).issued)

/-- The island has powered down: channels that still have accesses to make there end. -/
def State.dmaIslandOff (s : State) (n : Nat) : State :=
  (s.dmasOn.filter (fun c => s.dmaTouches c n (s.dmaCount c) (s.dmaTotal c))).foldl (fun t c => t.dmaOff c n) s

/-- Accesses to the island that are outstanding are abandoned. -/
def State.dmaAbandon (s : State) (n : Nat) : State :=
  (s.dmasOn.filter (fun c => s.dmaTouches c n (s.dmaCount c) (s.dma c).issued)).foldl (fun t c => t.dmaOff c n) s

/-- Entry into WATCH ends every channel (R355). -/
def State.dmaWatch (s : State) : State :=
  s.dmasOn.foldl (fun t c => t.dmaHalt c 8 (w32 (t.dmaSrc c (t.dmaCount c)))) s

end Sys2Proof.Machine
end

