-- ==== Sys2Proof/Machine/Pins.lean ====
section
/-!
DEFINITION. Pin multiplexing and the test access port (R485, R497 to R500, R514, R515).
-/
namespace Sys2Proof.Machine
open Sys2Proof

/-- Balls whose configuration stands at the address of a GPIO register: they keep the function of reset (log entry
23). -/
def ballHidden (i : Nat) : Bool := decide (64 ≤ i) && decide (i % 4 ≠ 3)

/-- FUNC of central ball `i`: 0 PERIPHERAL, 1 GPIO, 2 and 3 OFF. -/
def State.ballFunc (s : State) (i : Nat) : Nat :=
  if ballHidden i then (if i < 67 then 0 else 1) else s.rf (R.PM_BALLi i) 1 0

/-- The device drives ball `i` as a GPIO, with this level. -/
def State.gpioDrive (s : State) (i : Nat) : Option Bool :=
  if s.ballFunc i = 1 ∧ s.rb (R.PM_GPIO_OEk (i / 32)) (i % 32) = true then some (s.rb (R.PM_GPIO_OUTk (i / 32)) (i % 32))
  else none

/-- Level that the input buffer of central ball `i` sees: 0 with FUNC OFF, what the device drives, the level of GPIO0 to
GPIO8; the level of every other ball is the board's (R500). -/
def State.ballLevel (s : State) (i : Nat) : Bool × State :=
  if 2 ≤ s.ballFunc i then (false, s)
  else match s.gpioDrive i with
    | some l => (l, s)
    | none => if 67 ≤ i then (s.sourceLevel (4096 + 394 + (i - 67)), s) else s.freeBit

/-- PM_GPIO_INk. -/
def State.gpioIn (s : State) (k : Nat) : Word × State :=
  let (n, t) := (List.range (if k < 2 then 32 else 12)).foldl (fun (x : Nat × State) b =>
    let (l, t) := x.2.ballLevel (32 * k + b)
    (x.1 + b2n l * 2 ^ b, t)) (0, s)
  (w32 n, t)

/-- The event sources of GPIO0 to GPIO8 follow the levels that the device drives at them (R252, R498). -/
def State.gpioLines (s : State) : State :=
  (List.range 9).foldl (fun t i => match t.gpioDrive (67 + i) with
    | some l => t.setLine (4096 + 394 + i) l
    | none => if 2 ≤ t.ballFunc (67 + i) then t.setLine (4096 + 394 + i) false else t) s

/-- The word that the IDCODE register holds (R485). -/
def idcodeWord : Word :=
  (Config.idcode &&& 0xF0000FFE#32) ||| (0x9480#32 <<< 12) ||| 1#32

/-- JTAG_TAP_OPERATION (R485): EXTEST and CLAMP act as BYPASS unless RESET_N is low. What SAMPLE captures is the level of
every ball, which the board decides. -/
def State.tapOperation (s : State) (resetLow : Bool) (op : JtagOp) : State :=
  match op with
  | .reset => { s with tap := { s.tap with op := .reset, tdo := idcodeWord } }
  | .idcode => { s with tap := { s.tap with op := .idcode, tdo := idcodeWord } }
  | .bypass => { s with tap := { s.tap with op := .bypass, tdo := 0#32 } }
  | .sample =>
    let (v, s) := s.free
    { s with tap := { s.tap with op := .sample, tdo := v } }
  | .preload cells => { s with tap := { s.tap with op := .preload cells, cells := cells } }
  | .extest =>
    if resetLow then
      let (v, s) := s.free
      { s with tap := { s.tap with op := .extest, tdo := v } }
    else { s with tap := { s.tap with op := .bypass, tdo := 0#32 } }
  | .clamp => { s with tap := { s.tap with op := if resetLow then .clamp else .bypass, tdo := 0#32 } }

def execJtagTapOperation (resetLow : Bool) (op : JtagOp) (s : State) : Host.Outcome State Fault Refusal :=
  .next (s.tapOperation resetLow op)

/-- What boundary scan drives at the balls: the preloaded cells under EXTEST and CLAMP. -/
def State.scanDrives (s : State) : Option (List Bool) :=
  match s.tap.op with
  | .extest => some s.tap.cells
  | .clamp => some s.tap.cells
  | _ => none

end Sys2Proof.Machine
end

