-- ==== Sys2Proof/Machine/HostOps.lean ====
section
/-!
DEFINITION. The host port without its accesses (R430 to R433, R440): link, reset, MSI-X.
-/
namespace Sys2Proof.Machine
open Sys2Proof

def State.setHost (s : State) (h : HostState) : State := { s with host := h }

/-- A word of the MSI-X table. -/
def State.msixWord (s : State) (i : Nat) : Word := s.host.table.get (fun i => if i % 4 = 3 then 1#32 else 0#32) i

def State.setMsixWord (s : State) (i : Nat) (v : Word) : State :=
  s.setHost { s.host with table := s.host.table.set (fun i => if i % 4 = 3 then 1#32 else 0#32) i v }

/-- Pending bit of a vector. -/
def State.msixPending (s : State) (v : Nat) : Bool := s.host.pba.get (fun _ => false) v

def State.setMsixPending (s : State) (v : Nat) (b : Bool) : State :=
  s.setHost { s.host with pba := s.host.pba.set (fun _ => false) v b }

/-- The link is up; entry into WATCH takes it down (R437). -/
def State.hostUp (s : State) : Bool := s.rb R.HP_LINK 31

/-- Send the message of a vector: a memory write of its data. -/
def State.msixSend (s : State) (v : Nat) : State :=
  s.setHost { s.host with message := some (pair64 (s.msixWord (4 * v + 1)) (s.msixWord (4 * v)), s.msixWord (4 * v + 2)) }

/-- MSIX_VECTOR (R433): a masked vector, or one whose message cannot leave, becomes pending. -/
def State.msixVector (s : State) (v : Nat) : State :=
  if !s.rb (R.HP_VECv_CFG v) 31 then s
  else if bit (s.msixWord (4 * v + 3)) 0 || !s.hostUp then s.setMsixPending v true
  else s.msixSend v

def execMsixVector (v : Fin 64) (s : State) : Host.Outcome State Fault Refusal := .next (s.msixVector v.val)

/-- A host write to the MSI-X window: a vector that is unmasked sends what is pending; the PBA is read-only. -/
def State.msixWrite (s : State) (o : Nat) (d : Word) : State :=
  if 0x400 ≤ o then s
  else
    let s := s.setMsixWord (o / 4) (if o / 4 % 4 = 3 then d &&& 1#32 else if o / 4 % 4 = 0 then d &&& ~~~ 3#32 else d)
    let v := o / 16
    if o / 4 % 4 = 3 && !bit d 0 && s.msixPending v && s.hostUp then (s.setMsixPending v false).msixSend v else s

/-- A host read of the MSI-X window. -/
def State.msixRead (s : State) (o : Nat) : Word :=
  if o < 0x400 then s.msixWord (o / 4)
  else if o = 0x800 then wordOfBits (fun i => s.msixPending i)
  else if o = 0x804 then wordOfBits (fun i => s.msixPending (32 + i))
  else 0#32

/-- The link is down: HP_LINK shows no width and no speed. -/
def State.hostDown (s : State) : State := s.setReg R.HP_LINK 0#32

/-- The host port alone returns to its defaults (R433); its ownership register stays (R20). -/
def State.hostReset (s : State) : State :=
  let own := s.reg R.HP_OWNER
  let s := (s.resetRegs (fun a => decide (R.HP_OWNER ≤ a) && decide (a < R.HP_OWNER + 0x1000))).setReg R.HP_OWNER own
  s.setHost .reset

def execHostReset (s : State) : Host.Outcome State Fault Refusal := .next s.hostReset

/-- HOST_LINK_DOWN (R433): posted writes not yet performed are lost. -/
def execHostLinkDown (s : State) : Host.Outcome State Fault Refusal :=
  .next (if s.rb R.HP_LINK 31 then s.hostDown.flag R.HP_STATUS 3 else s)

/-- HOST_LINK_UP (R433, R440): lanes 1, 2 or 4 and the speed. -/
def execHostLinkUp (lanes speed : Fin 3) (s : State) : Host.Outcome State Fault Refusal :=
  .next (if s.coresGo then s.setReg R.HP_LINK (w32 (2 ^ 31 + at_ (2 ^ lanes.val) 4 + (speed.val + 1))) else s)

end Sys2Proof.Machine
end

