-- ==== Sys2Proof/Machine/Islands.lean ====
section
/-!
DEFINITION. Reset, power-down and power-up of islands (R20, R69, R466, R467, R477).
-/
namespace Sys2Proof.Machine
open Sys2Proof

def State.setPow (s : State) (p : PowerState) : State := { s with pow := p }

/-- The tick at which the reset of an island, or the limit of its drain, ends. -/
def State.phaseEnd (s : State) (n : Nat) : Nat := s.pow.resetEnd.get (fun _ => 0) n

def State.setPhaseEnd (s : State) (n tick : Nat) : State :=
  s.setPow { s.pow with resetEnd := s.pow.resetEnd.set (fun _ => 0) n tick }

def State.setPhase (s : State) (n : Nat) (p : IslandPhase) : State :=
  { s with islands := s.islands.set (fun _ => .off) n p }

/-- What of a register outlives an island reset (R20, R112, R187, R207, R209, R490), or a power-down. A substitute that
hosts an engine stays designated, as part of the retirement. -/
def keptValue (hosted power : Bool) (a : Nat) (v : Word) : Option Word :=
  match locate a with
  | some (.ic _, o) =>
    if o = 0x260018 ∨ o = 0x260104 ∨ (o = 0x260100 ∧ hosted = true) ∨ (o = 0x260000 ∧ power = false) then some v else none
  | some (.tu _ _, o) => if o = 0x48 then some (v &&& 0xFFF#32) else if o = 0 ∧ power = false then some v else none
  | some (.ac _ _, o) =>
    if o = 0x24 then some (v &&& 0xC0000000#32)
    else if power then none
    else if o = 0x80 then some (v &&& 0x2000FFFF#32)
    else if o = 0 ∨ (0x84 ≤ o ∧ o < 0xB4) then some v else none
  | some (.fi _, o) =>
    if power = false ∧ (o = 0 ∨ (0x1000 ≤ o ∧ o < 0x1400 ∧ o % 16 = 0) ∨ (0x2000 ≤ o ∧ o < 0x2200 ∧ o % 32 = 0)) then some v
    else none
  | some (_, o) => if o = 0 ∧ power = false then some v else none
  | none => none

/-- Registers of an island return to their reset values, but for what is kept. -/
def State.islandRegs (s : State) (n : Nat) (power : Bool) : State :=
  let hosted := (s.leHostedOne n).isSome
  let inside := fun a => islandOf a == some n
  let kept := s.regs.filterMap (fun e => if inside e.1 then (keptValue hosted power e.1 e.2).map (fun v => (e.1, v)) else none)
  kept.foldl (fun t e => t.setReg e.1 e.2) (s.resetRegs inside)

/-- Records of an island return to reset values; a converter core's hosting is part of its retirement. -/
def State.islandRecs (s : State) (n : Nat) : State :=
  let hosted := (List.range 2).map (fun c => (s.ac n c).hosted)
  let t := { s with
    tus := s.tus.clear (fun k => k / 4 == n), acs := s.acs.clear (fun k => k / 2 == n)
    cps := s.cps.clear (fun k => k / 8 == n), eqs := s.eqs.clear (fun k => k / 2 == n)
    mks := s.mks.clear (fun k => k / 4 == n), les := s.les.clear (fun k => k / 6 == n)
    sds := s.sds.clear (fun k => k / 4 == n)
    fab := { s.fab with
      lines := s.fab.lines.clear (fun g => g / 256 == n && decide (g % 256 < 0xF0))
      pennants := s.fab.pennants.clear (fun p => p / 64 == n && decide (p < 1024))
      lookups := s.fab.lookups.clear (fun h => h / 16 == n && decide (h < 256))
      records := s.fab.records.clear (fun g => g == n)
      counts := s.fab.counts.clear (fun h => h / 16 == n && decide (h < 256))
      late := s.fab.late.filter (fun x => x.pennant / 64 != n || decide (1024 ≤ x.pennant)) }
    pulses := s.pulses.clear (fun g => (g / 256 == n && decide (g % 256 < 0xF0))
      || ((g - 8192) / 64 == n && decide (8192 ≤ g) && decide (g < 9216)))
    clk := { s.clk with couplings := s.clk.couplings.filter (fun c => c.unit / 4 != n) } }
  (List.range 2).foldl (fun t c =>
    if hosted.getD c false then t.setAc n c { AcRec.reset with hosted := true } else t) t

/-- Memories of an island's engines: an island reset clears the state memories, a power-down both (R85, R86), and with
them the retirement of rows (R340). -/
def State.islandMem (s : State) (n : Nat) (power : Bool) : State :=
  let p := fun a => (stateWord (a / 4 * 4)).any (fun x => x.1 == n) || (power && (descWord (a / 4 * 4)).any (fun x => x.1 == n))
  let s := s.clearMem p
  if power then { s with macros := s.macros.clear (fun k => decide (64 * (16 + 6 * n) ≤ k) && decide (k < 64 * (22 + 6 * n))) }
  else s

/-- The sensor of an island that is off or in reset has no sample and no levels (R473). -/
def State.sensorOff (s : State) (n : Nat) : State :=
  let s := { s with pow := { s.pow with thresholds := s.pow.thresholds.clear (fun k => k / 3 == n) } }
  let s := (s.setReg (R.TH_Ss_TEMP n) 0#32).setReg (R.TH_Ss_STATE n) 0#32
  (List.range 3).foldl (fun t k => t.setLine (4096 + 336 + 3 * n + k) false) s

/-- Everything that a reset of an island ends: the epoch entries, the valid count, registers, memories, records. -/
def State.islandClear (s : State) (n : Nat) (power : Bool) : State :=
  ((((s.entriesLost n).unsync n).islandMem n power).islandRegs n power).islandRecs n |>.sensorOff n

/-- A pulse on one half of IC_RESETS. -/
def State.countReset (s : State) (n : Nat) (up : Bool) : State :=
  if up then s.setRf (R.IC_RESETS n) 31 16 (s.rf (R.IC_RESETS n) 31 16 + 1)
  else s.setRf (R.IC_RESETS n) 15 0 (s.rf (R.IC_RESETS n) 15 0 + 1)

/-- An island runs from reset values; it synchronises under R32. SAFE_N holds its units from the start, and test mode is
in force there too. -/
def State.islandStart (s : State) (n : Nat) : State :=
  let s := (s.setPhase n .running).setRb R.PW_STATE n true
  let s := if s.safeN then (unitsOf n).foldl (fun t u => t.setRb (R.TU_STATE u.1 u.2) 28 true) s else s
  let s := if s.testMode then
      (List.range 6).foldl (fun t m => (List.range 8).foldl (fun t c => t.setRf (R.LE_CTXc_FIXED n m c) 4 0 16) t)
        (s.setRb (R.IC_STATE n) 29 true)
    else s
  s.refreshPennants

/-- Power an island up (R467). -/
def State.islandUp (s : State) (n : Nat) : State :=
  match s.phase n with
  | .off => (s.countReset n true).islandStart n
  | .draining => s.setPow { s.pow with powerUp := n :: s.pow.powerUp.filter (fun k => k != n) }
  | _ => s

/-- Reset a powered island for 1 µs, without a drain (R467). -/
def State.islandReset (s : State) (n : Nat) : State :=
  if s.phase n = .off then s
  else
    let t := ((s.islandClear n false).countReset n false).setRb R.PW_STATE n true
    ((t.setPhase n .resetting).setPhaseEnd n (t.absTick + 1250)).heldReport s n

/-- Islands whose reset has lasted 1 µs leave it. -/
def State.resetsEnd (s : State) : State :=
  ((List.range 16).filter (fun n => s.phase n == .resetting && decide (s.phaseEnd n ≤ s.absTick))).foldl
    (fun t n => (t.setPhaseEnd n 0).islandStart n) s

/-- Entries of epochs that are OPEN, STAGED, ARMED or APPLYING stand in the island (R466). -/
def State.holdsEntries (s : State) (n : Nat) : Bool :=
  s.ep.entries.any (fun e => islandOf e.addr == some n && decide (1 ≤ s.slotState e.slot) && decide (s.slotState e.slot ≤ 4))

/-- Ticks that a drain may last: PW_DRAIN_TIMEOUT in µs, where 0 acts as 1 (R466, R489). -/
def State.drainLimit (s : State) : Nat := 1250 * max 1 (s.rf R.PW_DRAIN_TIMEOUT 15 0)

/-- Begin the drain of an island (R466 step 2). -/
def State.drainStart (s : State) (n : Nat) : State :=
  (((s.setPhase n .draining).setPhaseEnd n (s.absTick + s.drainLimit)).setRb R.PW_STATE n true).setRb R.PW_ISLANDS (16 + n)
    false

/-- Power an island down: deferred while it holds entries; `now` leaves the deferral out (R476). -/
def State.islandOff (s : State) (n : Nat) (now : Bool) : State :=
  match s.phase n with
  | .off => s
  | .draining => s
  | _ =>
    if !now && s.holdsEntries n then
      if s.rb R.PW_ISLANDS (16 + n) then s else (s.setRb R.PW_ISLANDS (16 + n) true).flag R.PW_STATUS 2
    else s.drainStart n

/-- Deferred power-downs whose epochs have ended begin their drain. -/
def State.deferredOff (s : State) : State :=
  ((List.range 16).filter (fun n => s.rb R.PW_ISLANDS (16 + n) && !s.holdsEntries n)).foldl (fun t n => t.drainStart n) s

/-- ISLAND_POWER_DOWN (R466 step 3): the drain has ended, the island is reset and its supply gated. -/
def State.islandDown (s : State) (n : Nat) : State :=
  if s.phase n != .draining || !s.dmaDrained n then s
  else
    let s := ((((s.dmaIslandOff n).islandClear n true).setPhase n .off).setPhaseEnd n 0).heldReport s n
    let s := s.setRb R.PW_STATE n false
    if s.pow.powerUp.contains n then
      (s.setPow { s.pow with powerUp := s.pow.powerUp.filter (fun k => k != n) }).islandUp n
    else s

def execIslandPowerDown (n : Fin 16) (s : State) : Host.Outcome State Fault Refusal := .next (s.islandDown n.val)

/-- DRAIN_TIMEOUT (R354, R466): the limit of the drain has passed, and outstanding accesses are abandoned. -/
def execDrainTimeout (n : Fin 16) (s : State) : Host.Outcome State Fault Refusal :=
  .next (if s.phase n.val = .draining ∧ s.phaseEnd n.val ≤ s.absTick ∧ s.dmaDrained n.val = false then (s.dmaAbandon n.val).flag R.PW_STATUS 3 else s)

/-- Islands of a mask. -/
def maskIslands (v : Word) : List Nat := indicesWhere 16 (fun n => bit v n)

/-- PW_ISLANDS: powered and synchronised. -/
def State.islandsView (s : State) : Word :=
  setFld (s.reg R.PW_ISLANDS) 15 0 ((List.range 16).foldl (fun a n => a + (if s.islandRuns n && s.synced n then 2 ^ n else 0)) 0)

end Sys2Proof.Machine
end

