-- ==== Sys2Proof/Machine/MpOps.lean ====
section
/-!
DEFINITION. Mailboxes (R376 to R391, R407, R408): requests as Ottar takes them, rights, classes and deadlines, responses,
restart of the management processor.
-/
namespace Sys2Proof.Machine
open Sys2Proof

def State.setMp (s : State) (r : MpState) : State := { s with mp := r }

/-! ### Commands (R392 to R397) -/

/-- What the command tables say of a code: the classes it accepts and the right it needs in every case (R388). -/
structure MbCommand where
  classes : List Nat
  right : Option Nat
  zero : Bool
deriving DecidableEq, Repr

/-- A command by its code; `zero` marks the commands that act in domain 0 without a right (R389). -/
def mbCommand (code : Nat) : Option MbCommand :=
  let any : List Nat := [0, 1, 2]
  let slow : List Nat := [1, 2]
  match code with
  | 0x0101 => some ⟨slow, none, true⟩
  | 0x0102 => some ⟨slow, none, true⟩
  | 0x0103 => some ⟨[0, 1], none, true⟩
  | 0x0104 => some ⟨[1], some 0, false⟩
  | 0x0201 => some ⟨slow, none, false⟩
  | 0x0202 => some ⟨slow, none, false⟩
  | 0x0203 => some ⟨slow, some 1, false⟩
  | 0x0204 => some ⟨slow, none, false⟩
  | 0x0205 => some ⟨slow, some 1, false⟩
  | 0x0206 => some ⟨slow, some 1, false⟩
  | 0x0301 => some ⟨slow, none, false⟩
  | 0x0302 => some ⟨slow, none, false⟩
  | 0x0303 => some ⟨any, none, false⟩
  | 0x0304 => some ⟨any, none, false⟩
  | 0x0305 => some ⟨slow, none, false⟩
  | 0x0401 => some ⟨[2], some 2, false⟩
  | 0x0402 => some ⟨[2], some 2, false⟩
  | 0x0403 => some ⟨[2], some 2, false⟩
  | 0x0404 => some ⟨slow, some 2, false⟩
  | 0x0405 => some ⟨any, some 2, false⟩
  | 0x0406 => some ⟨slow, none, true⟩
  | 0x0407 => some ⟨[2], some 2, false⟩
  | 0x0501 => some ⟨[2], none, false⟩
  | 0x0502 => some ⟨slow, none, false⟩
  | 0x0503 => some ⟨slow, none, false⟩
  | 0x0601 => some ⟨[2], none, false⟩
  | 0x0602 => some ⟨slow, none, false⟩
  | 0x0701 => some ⟨slow, some 5, false⟩
  | 0x0702 => some ⟨slow, some 5, false⟩
  | 0x0703 => some ⟨slow, some 5, false⟩
  | 0x0704 => some ⟨[2], some 5, false⟩
  | 0x0705 => some ⟨slow, none, true⟩
  | 0x0801 => some ⟨slow, none, true⟩
  | 0x0802 => some ⟨any, none, true⟩
  | 0x0803 => some ⟨slow, some 1, false⟩
  | 0x0804 => some ⟨[2], some 1, false⟩
  | 0x0805 => some ⟨slow, none, true⟩
  | 0x0806 => some ⟨slow, none, false⟩
  | 0x0901 => some ⟨[2], some 3, false⟩
  | 0x0902 => some ⟨[2], some 3, false⟩
  | 0x0903 => some ⟨[2], some 3, false⟩
  | 0x0904 => some ⟨[2], some 3, false⟩
  | 0x0905 => some ⟨[2], some 3, false⟩
  | 0x0906 => some ⟨slow, none, true⟩
  | 0x0A01 => some ⟨slow, none, true⟩
  | 0x0A02 => some ⟨slow, some 4, false⟩
  | 0x0A03 => some ⟨slow, some 4, false⟩
  | 0x0A04 => some ⟨slow, some 4, false⟩
  | 0x0B01 => some ⟨slow, some 6, false⟩
  | 0x0B02 => some ⟨slow, none, true⟩
  | 0x0B03 => some ⟨slow, none, true⟩
  | 0x0B04 => some ⟨slow, some 6, false⟩
  | _ => none

/-- Codes that the boot ROM serves in recovery (R480). -/
def recoveryCode (code : Nat) : Bool :=
  code == 0x0101 || code == 0x0906 || (decide (0x0901 ≤ code) && decide (code ≤ 0x0904))

/-- Client domain of a mailbox. -/
def State.mbClient (s : State) (mb : Nat) : Nat := s.rf (R.MB_MBm_CFG mb) 19 16

def State.mbEnabled (s : State) (mb : Nat) : Bool := s.rb (R.MB_MBm_CFG mb) 31

/-- Rights of a domain (R388). -/
def State.rights (s : State) (d : Nat) : Nat := s.mp.rights.get (fun _ => 0) d

def State.hasRight (s : State) (d bit_ : Nat) : Bool := (s.rights d).testBit bit_

/-- Ownership register of a resource that CFG_ALLOC hands out (R393). -/
def resourceOwner (kind island num : Nat) : Option Nat :=
  match kind with
  | 1 => if num < 65536 then some (R.QM_Qq_OWN num) else none
  | 2 => if num < 1024 then some (pnOwner (1024 + num)) else none
  | 3 => if num < 64 ∧ island < 16 then some (pnOwner (64 * island + num)) else none
  | 4 => if num < 256 then some (hsOwner (256 + num)) else none
  | 5 => if num < 16 ∧ island < 16 then some (hsOwner (16 * island + num)) else none
  | 6 => if num < 128 then some (R.FB_SSs_OWNER num) else none
  | 7 => if num < 64 then some (R.DMA_CHc_OWNER num) else none
  | 8 => if num < 1024 then some (R.XM_FRAME_CFGf num) else none
  | _ => none

/-- Domain that owns a resource. -/
def State.resourceDom (s : State) (kind a : Nat) : Nat := if kind = 8 then s.rf a 29 26 else s.ownerDom a

/-- The right that a request needs: that of its code, SAFE for SYS_SAFE with ALL, CONFIG for CFG_FREE of a resource of
another domain (R388). -/
def State.mbRight (s : State) (d code : Nat) (p : List Word) : Option Nat :=
  let w := fun i => p.getD i 0#32
  if code = 0x0103 then (if bit (w 0) 31 then some 0 else none)
  else if code = 0x0204 then
    let foreign := (p.drop 2).any (fun x => match resourceOwner (w 0).toNat (w 1).toNat x.toNat with
      | some a => s.resourceDom (w 0).toNat a != d
      | none => false)
    if foreign then some 1 else none
  else match mbCommand code with
    | some c => c.right
    | none => none

/-- Domain in which a request acts (R389). -/
def State.mbActs (s : State) (r : MbRequest) : Nat :=
  let d := s.mbClient r.mb
  match s.mbRight d r.code r.payload with
  | some _ => 0
  | none => match mbCommand r.code with
    | some c => if c.zero then 0 else d
    | none => d

/-! ### STATUS (R391) -/

def stOk : Nat := 0
def stBadHeader : Nat := 1
def stBadCode : Nat := 2
def stBadClass : Nat := 3
def stBadLength : Nat := 4
def stBadArg : Nat := 5
def stDenied : Nat := 6
def stDupTag : Nat := 7
def stExpired : Nat := 8
def stBusy : Nat := 9
def stFraming : Nat := 10
def stTooLarge : Nat := 11
def stNotFound : Nat := 12
def stNoSpace : Nat := 13
def stFlashError : Nat := 14
def stBadSignature : Nat := 15
def stRollback : Nat := 16
def stWrongState : Nat := 17
def stCancelled : Nat := 18
def stAccessError : Nat := 19
def stScheduleRefused : Nat := 20
def stBadRecord : Nat := 21
def stMpReset : Nat := 22

/-! ### Packets (R378, R379) -/

/-- A packet's words as cells of 16. -/
def cellsOf (ws : List Word) : List (List Word) :=
  (List.range ((ws.length + 15) / 16)).map (fun i =>
    let c := (ws.drop (16 * i)).take 16
    c ++ List.replicate (16 - c.length) 0#32)

/-- The cells of a response. -/
def responseCells (tag code flags cls status : Nat) (info : Word) (p : List Word) : List (List Word) :=
  cellsOf ([w32 (at_ tag 16 + code % 0x8000 + 0x8000), w32 (4 * p.length), w32 (at_ status 16 + at_ (flags % 4096) 4 + cls % 16),
    info] ++ p)

/-- µs from TAKEN to the present. -/
def State.elapsed (s : State) (r : MbRequest) : Word := w32 ((s.clk.beat - r.taken).toNat / 250)

/-- QUIET. -/
def MbRequest.quiet (r : MbRequest) : Bool := r.flags.testBit 0

/-- Replace a request by another: the first that is equal to it, so that one of two equal requests stays. -/
def State.mbSet (s : State) (r x : MbRequest) : State :=
  s.setMp { s.mp with requests := s.mp.requests.replace r x }

/-! ### Completion (R380, R383, R384) -/

/-- A request completes: LAST_STATE, and the mailbox's event. A class 0 request beyond its bound is noted where the bound
applies. -/
def State.mbComplete (s : State) (r : MbRequest) (status : Nat) : State :=
  let n := (s.mp.requests.filter (fun x => x.cls == 0)).length
  let late := r.cls == 0 && r.bounded && decide (5000 * ((n + 7) / 8) < (s.clk.beat - r.posted).toNat)
  let s := s.setMp { s.mp with requests := s.mp.requests.erase r }
  let s := s.setReg (R.MB_MBm_STATE r.mb) (w32 (at_ (if status = 0 then 2 else 3) 30 + at_ status 16 + r.tag))
  let s := if late then s.flag R.MB_STATUS 4 else s
  let ev := s.reg (R.MB_MBm_EV r.mb)
  let s := if bit ev 31 && !(r.quiet && status == 0) then s.fireCentral (256 + fld ev 5 0) else s
  if (r.code = 0x0104 ∨ r.code = 0x0904) ∧ status = 0 ∧ r.phase = 1 then
    { s with pow := { s.pow with resetAt := some (s.clk.beat + 25000, if r.code = 0x0104 then 2 else 4) } }
  else s

/-- The first request of its mailbox and class (R380). -/
def State.mbFirst (s : State) (r : MbRequest) : Bool :=
  s.mp.requests.find? (fun x => x.mb == r.mb && x.cls == r.cls) == some r

/-- Quiet successes complete as soon as they are the first of their class. -/
def State.mbQuiet (s : State) (mb : Nat) : Nat → State
  | 0 => s
  | k + 1 =>
    match s.mp.requests.find? (fun r => r.mb == mb && s.mbFirst r
        && (match r.answer with
          | some a => a.cells == []
          | none => false)) with
    | some r => (s.mbComplete r 0).mbQuiet mb k
    | none => s

/-- Answer a request. -/
def State.mbRespond (s : State) (r : MbRequest) (status : Nat) (info : Word) (p : List Word) : State :=
  let cells := if r.quiet && status == 0 then [] else responseCells r.tag r.code r.flags r.cls status info p
  (s.mbSet r { r with answer := some ⟨status, cells, none⟩ }).mbQuiet r.mb 32

/-- Success. -/
def State.mbOk (s : State) (r : MbRequest) (p : List Word) : State := s.mbRespond r stOk (s.elapsed r) p

/-- Failure with a detail. -/
def State.mbFail (s : State) (r : MbRequest) (status info : Nat) : State := s.mbRespond r status (w32 info) []

/-! ### Taking requests (R380 to R382, R387) -/

/-- Does Ottar, or the boot ROM in recovery, serve a mailbox? -/
def State.mbServed (s : State) (mb : Nat) : Bool :=
  s.mbEnabled mb && s.device == .run && (s.mp.serving || (s.mp.recovery && mb == 9))

/-- Longest payload of a mailbox (R378). -/
def State.mbLimit (s : State) (mb : Nat) : Nat := min 65536 (48 + 64 * (s.qCapacity (2 * mb) - 1))

/-- Reset a queue of a mailbox (R362). -/
def State.mbResetQueue (s : State) (q : Nat) : State := s.qReset q

/-- Take a request: record it as TAKEN. -/
def State.mbTaken (s : State) (r : MbRequest) : State :=
  let s := s.setMp { s.mp with
    requests := s.mp.requests ++ [r], lastTake := s.mp.lastTake.set (fun _ => 0#64) r.mb s.clk.beat }
  s.setReg (R.MB_MBm_STATE r.mb) (setFld (setFld (s.reg (R.MB_MBm_STATE r.mb)) 31 30 1) 15 0 r.tag)

/-- A header fault of R381 or R382, or a request that Ottar turns away: its STATUS. -/
def State.mbRefusal (s : State) (r : MbRequest) (w2 : Word) (len : Nat) : Option Nat :=
  let d := s.mbClient r.mb
  if fld w2 31 5 ≠ 0 ∨ len % 4 ≠ 0 then some stBadHeader
  else if r.code = 0 ∨ 0x7FFF < r.code ∨ (mbCommand r.code).isNone ∨ (s.mp.recovery = true ∧ recoveryCode r.code = false) then
    some stBadCode
  else if !(match mbCommand r.code with
      | some c => c.classes.contains r.cls
      | none => false) then some stBadClass
  else if s.mp.requests.any (fun x => x.mb == r.mb && x.tag == r.tag) then some stDupTag
  else match s.mbRight d r.code r.payload with
    | some b => if s.hasRight d b then none else some stDenied
    | none => none

/-- Load and watermark of R387: is a request of class `c` answered BUSY? -/
def State.mbBusy (s : State) (c : Nat) : Bool :=
  let n := (s.mp.requests.filter (fun x => x.cls == c)).length
  decide (75 ≤ s.rf R.MB_LOAD 7 0) && ((c == 1 && decide (64 < n)) || (c == 2 && decide (16 < n)))

/-- REQUEST_TAKE (R380). -/
def State.requestTake (s : State) (mb : Nat) : State :=
  let q := 2 * mb
  if !s.mbServed mb || s.qDepth q == 0 || decide (32 ≤ (s.mp.requests.filter (fun x => x.mb == mb)).length) then s
  else
    let hd := s.qEntry q 0
    let w := fun i => hd.getD i 0#32
    let len := (w 1).toNat
    let r : MbRequest := {
      mb := mb, tag := fld (w 0) 31 16, code := fld (w 0) 15 0, flags := fld (w 2) 15 4,
      cls := fld (w 2) 3 0, deadline := (w 3).toNat, payload := [], posted := s.clk.beat, taken := s.clk.beat, bounded := true, phase := 0,
      keep := [], answer := none }
    if s.mbLimit mb < len then
      let s := ((s.mbResetQueue q).flag R.MB_STATUS 0).mbTaken r
      s.mbFail r stTooLarge 0
    else
      let n := 1 + (len - 48 + 63) / 64
      if s.qDepth q < n then s
      else
        let posted := (s.queue q).pushed.getD (n - 1) s.clk.beat
        let (ws, s) := (List.range n).foldl (fun (x : List Word × State) _ =>
          let (_, l, t) := x.2.qPop 0 (x.2.qHandle q)
          (x.1 ++ l.getD [], t)) ([], s)
        let r := { r with payload := (ws.drop 4).take (len / 4), posted := posted,
                          bounded := serialGe posted (s.mp.lastTake.get (fun _ => 0#64) mb) }
        match s.mbRefusal r (w 2) len with
        | some st => (s.mbTaken r).mbFail r st 0
        | none =>
          if s.mbBusy r.cls then
            let (v, s) := s.free
            ((s.mbTaken r).mbFail r stBusy (max 100 v.toNat)).flag R.MB_STATUS 2
          else s.mbTaken r

def execRequestTake (mb : Fin 1024) (s : State) : Host.Outcome State Fault Refusal := .next (s.requestTake mb.val)

/-- REQUEST_FRAMING_TIMEOUT (R381): the queue has stood in the middle of a packet for 1 ms. -/
def State.framingTimeout (s : State) (mb : Nat) : State :=
  let q := 2 * mb
  let d := s.qDepth q
  let hd := s.qEntry q 0
  let w := fun i => hd.getD i 0#32
  let len := (w 1).toNat
  let newest := (s.queue q).pushed.getD (d - 1) s.clk.beat
  if !s.mbServed mb || d == 0 || decide (s.mbLimit mb < len) || decide (1 + (len - 48 + 63) / 64 ≤ d)
    || decide ((s.clk.beat - newest).toNat < 250000) then s
  else
    let r : MbRequest := {
      mb := mb, tag := fld (w 0) 31 16, code := fld (w 0) 15 0, flags := fld (w 2) 15 4,
      cls := fld (w 2) 3 0, deadline := 0, payload := [], posted := newest, taken := s.clk.beat, bounded := true, phase := 0, keep := [],
      answer := none }
    (((s.mbResetQueue q).flag R.MB_STATUS 0).mbTaken r).mbFail r stFraming 0

def execRequestFramingTimeout (mb : Fin 1024) (s : State) : Host.Outcome State Fault Refusal :=
  .next (s.framingTimeout mb.val)

/-! ### Deadlines and execution (R380, R385) -/

/-- The deadline of a request has passed. -/
def State.mbExpired (s : State) (r : MbRequest) : Bool :=
  let us := if r.cls = 1 then max 1000 r.deadline else r.deadline
  decide (r.cls ≠ 0) && decide (0 < us) && decide (250 * us ≤ (s.clk.beat - r.posted).toNat)

/-- A request that has not begun and whose turn has come: no earlier request of its mailbox and class is unfinished, and
class 0 goes first. -/
def State.mbTurn (s : State) (r : MbRequest) : Bool :=
  r.answer.isNone && r.phase == 0
  && (s.mp.requests.find? (fun x => x.mb == r.mb && x.cls == r.cls && x.answer.isNone) == some r)
  && (r.cls == 0 || !s.mp.requests.any (fun x => x.cls == 0 && x.answer.isNone))

/-- DEADLINE_EXPIRY (R385). -/
def State.deadlineExpiry (s : State) (mb : Nat) : State :=
  match s.mp.requests.find? (fun r => r.mb == mb && r.answer.isNone && r.phase == 0 && s.mbExpired r) with
  | some r => s.mbFail r stExpired 0
  | none => s

def execDeadlineExpiry (mb : Fin 1024) (s : State) : Host.Outcome State Fault Refusal := .next (s.deadlineExpiry mb.val)

/-- Run the request of a mailbox whose turn it is and whose code is `code`: `lens` says which LENGTHs the command takes. -/
def State.mbRun (s : State) (mb code : Nat) (lens : Nat → Bool) (act : MbRequest → State → State) : State :=
  if !s.mbServed mb then s
  else match s.mp.requests.find? (fun r => r.mb == mb && r.code == code && s.mbTurn r) with
    | none => s
    | some r =>
      if s.mbExpired r then s.mbFail r stExpired 0
      else if !lens (4 * r.payload.length) then s.mbFail r stBadLength 0
      else act r s

/-! ### Responses (R383) -/

/-- Push as many cells as the response queue takes. -/
def State.pushCells (s : State) (q : Nat) : List (List Word) → List (List Word) × State
  | [] => ([], s)
  | c :: r =>
    match s.qPush 0 (s.qHandle q) c with
    | (0, _, t) => t.pushCells q r
    | _ => (c :: r, s)

/-- The response to push next: one that has begun, else one that is the first of its class. -/
def State.mbNext (s : State) (mb : Nat) : Option (MbRequest × MbAnswer) :=
  let l := s.mp.requests.filterMap (fun r => match r.answer with
    | some a => if r.mb = mb then some (r, a) else none
    | none => none)
  match l.find? (fun x => x.2.since.isSome) with
  | some x => some x
  | none => l.find? (fun x => s.mbFirst x.1)

/-- RESPONSE_PUSH (R383). -/
def State.responsePush (s : State) (mb : Nat) : State :=
  if s.device != .run || !s.mbEnabled mb || !(s.mp.serving || s.mp.recovery) then s
  else match s.mbNext mb with
    | none => s
    | some (r, a) =>
      let (left, s) := s.pushCells (2 * mb + 1) a.cells
      if left = [] then (s.mbComplete r a.status).mbQuiet mb 32
      else s.mbSet r { r with answer := some { a with cells := left, since := some (a.since.getD s.clk.beat) } }

/-- RESPONSE_TIMEOUT (R383): the response could not be completed within 100 ms. -/
def State.responseTimeout (s : State) (mb : Nat) : State :=
  match s.mbNext mb with
  | some (r, ⟨st, _, some b⟩) =>
    if 25000000 ≤ (s.clk.beat - b).toNat then
      let s := s.setMp { s.mp with requests := s.mp.requests.erase r }
      let s := s.setReg (R.MB_MBm_STATE mb) (w32 (at_ 3 30 + at_ st 16 + r.tag))
      ((s.mbResetQueue (2 * mb + 1)).flag R.MB_STATUS 1).mbQuiet mb 32
    else s
  | _ => s

def execResponseTimeout (mb : Fin 1024) (s : State) : Host.Outcome State Fault Refusal := .next (s.responseTimeout mb.val)

/-! ### Load, restart, WATCH (R375, R386, R407, R449) -/

/-- LOAD_UPDATE (R386). -/
def execLoadUpdate (load : Fin 101) (s : State) : Host.Outcome State Fault Refusal :=
  .next (if s.mp.serving = false then s
    else (s.setRf R.MB_LOAD 7 0 load.val).setRf R.MB_LOAD 31 24 (max load.val (s.rf R.MB_LOAD 31 24)))

/-- Requests TAKEN of a class, saturated (R408). -/
def State.classOut (s : State) (c : Nat) : Nat := satTo 255 ((s.mp.requests.filter (fun r => r.cls == c)).length)

/-- MB_LOAD. -/
def State.mbLoadView (s : State) : Word := setFld (setFld (s.reg R.MB_LOAD) 23 16 (s.classOut 1)) 15 8 (s.classOut 2)

/-- MB_MBm_STATE with its count of TAKEN requests. -/
def State.mbStateView (s : State) (mb : Nat) : Word :=
  setFld (s.reg (R.MB_MBm_STATE mb)) 29 24 ((s.mp.requests.filter (fun r => r.mb == mb)).length)

/-- Answer every request that has no response yet with one STATUS. -/
def State.mbAnswerAll (s : State) (status : Nat) : State :=
  (s.mp.requests.filter (fun r => r.answer.isNone)).foldl (fun t r => t.mbFail r status 0) s

/-- The MP resets (R375): Ottar stops until MP_RESTART_COMPLETE. -/
def State.mpReset (s : State) : State :=
  if !s.mp.serving then s
  else ((s.setMp { s.mp with serving := false, restarting := true }).flag R.MB_STATUS 3).report 0x108 0x108 0x1D 0#32

/-- MP_WATCHDOG (R375). -/
def execMpWatchdog (s : State) : Host.Outcome State Fault Refusal := .next s.mpReset

/-- MP_LOCKSTEP_DISAGREEMENT (R449): `again` says that the re-execution disagrees too. -/
def State.mpLockstep (s : State) (again : Bool) : State :=
  if !s.mp.serving then s
  else
    let w := s.mp.window.filter (fun b => (s.clk.beat - b).toNat < 250000000)
    if again || decide (16 ≤ w.length) then (s.setMp { s.mp with window := [] }).mpReset
    else (s.setMp { s.mp with window := w ++ [s.clk.beat] }).report 0x108 0x108 0x07 0#32

def execMpLockstepDisagreement (again : Bool) (s : State) : Host.Outcome State Fault Refusal := .next (s.mpLockstep again)

/-- Loads whose epoch is DONE have their DIRECT entries still to come. -/
def State.directsDue (s : State) : State := if s.mp.loads.any (fun l => l.done) then s.enqueue [.recipeDirectApply] else s

/-- MP_RESTART_COMPLETE (R375, R407): TAKEN requests are answered MP_RESET; open stores, updates and the epochs of loads
that have not been armed are abandoned. -/
def State.mpRestarted (s : State) : State :=
  if s.mp.serving || s.mp.recovery || s.pow.booting || s.device != .run || !s.mp.restarting then s
  else
    let s := s.mp.loads.foldl (fun t l =>
      if l.done = false ∧ t.slotId l.slot = l.epoch ∧ (t.slotState l.slot = 1 ∨ t.slotState l.slot = 2) then t.epAbandon 0 l.slot else t) s
    let s := s.setMp { s.mp with
      serving := true, restarting := false, stores := [], update := none
      loads := s.mp.loads.filter (fun l => l.done || s.slotState l.slot == 3 || s.slotState l.slot == 4) }
    s.directsDue.mbAnswerAll stMpReset

def execMpRestartComplete (s : State) : Host.Outcome State Fault Refusal := .next s.mpRestarted

/-- Entry to WATCH (R407): unfinished requests are CANCELLED, and Ottar stops. -/
def State.mpWatch (s : State) : State :=
  let t := s.mbAnswerAll stCancelled
  t.setMp { t.mp with serving := false, restarting := false }

end Sys2Proof.Machine
end

