-- ==== Sys2Proof/Machine/Power.lean ====
section
/-!
DEFINITION. Device states, thermal supervision, resets and test mode (R464 to R478, R486 to R489).
-/
namespace Sys2Proof.Machine
open Sys2Proof

/-! ### Requests for WATCH (R468) -/

/-- A wake source of R469 is enabled. -/
def State.wakeEnabled (s : State) : Bool :=
  s.rf R.PW_WAKE_CFG 3 0 != 0 || (List.range 4).any (fun a => s.rb (R.CAL_ALARMa_CTRL a) 29)
  || s.pennantsOn.any (fun p => pnIsGlobal p && s.rb (pnCfg p) 24)

/-- Steps 3 to 5 of the entry: cores stop between two issue cycles, every domain is drained, pending island power-downs
are withdrawn, the ports go off. -/
def State.watchSteps (s : State) : State :=
  let s := (List.range 8).foldl (fun t n => if t.coreRun n = 1 then t.parkCore n else t) s
  let s := (List.range 16).foldl (fun t n =>
    let t := if t.phase n = .draining then ((t.setPhase n .running).setPhaseEnd n 0).setRb R.PW_STATE n false else t
    t.setRb R.PW_ISLANDS (16 + n) false) s
  let s := s.setPow { s.pow with powerUp := [] }
  s.dmaWatch.netWatch.hostDown

/-- A request for WATCH: refused, or entry begins; a running flash operation completes first. -/
def State.watchRequest (s : State) : State :=
  if s.device != .run then s
  else if !s.wakeEnabled || s.testMode || (List.range 8).any (fun n => s.coreRun n == 3) then s.flag R.PW_STATUS 4
  else
    let s := { s.mpWatch with device := .entering }.setRf R.PW_STATE 31 30 1
    if s.anyFlashBusy then s else s.watchSteps

/-- A write to PW_CTRL. -/
def State.pwCtrlWrite (s : State) (v : Word) : State :=
  let s := s.setRb R.PW_CTRL 30 (bit v 30)
  if bit v 31 then s.watchRequest else s

/-- Bytes of flash that an operation of bank `b` changes. -/
def State.flashChanges (s : State) (b : Nat) : List Nat :=
  match s.flashOp b with
  | none => []
  | some o =>
    if o.erase then (s.mem.filter (fun e => decide (o.addr ≤ e.1) && decide (e.1 < o.addr + 0x10000))).map (fun e => e.1)
    else (List.range 32).map (fun i => o.addr + i)

/-- FLASH_OPERATION_DONE: the operation of bank `b` ends (R342, R343); an entry into WATCH that waited for it goes on. -/
def execFlashOperationDone (b : Fin 2) (ok : Bool) (s : State) : Host.Outcome State Fault Refusal :=
  .next (let t := (s.cachesMiss none (s.flashChanges b.val)).flashDone b.val ok
    if s.device == .entering && s.anyFlashBusy && !t.anyFlashBusy then t.watchSteps else t)

/-! ### Falling to retention (R113, R209, R242, R468) -/

/-- What an engine loses in WATCH: memories, enables, executions in progress. -/
def State.leWatch (s : State) (n m : Nat) : State :=
  (s.setReg (R.LE_RUN n m) 0#32).setLe n m { s.le n m with
    enabling := 0, ctxs := (s.le n m).ctxs.map (fun _ => .reset), relays := [] }

/-- What a converter core drops in WATCH. -/
def State.acWatch (s : State) (n c : Nat) : State :=
  let r := s.ac n c
  (s.setRf (R.AC_STATE n c) 28 26 0).setAc n c { AcRec.reset with
    calOk := r.calOk, dataCheck := r.dataCheck, convs := r.convs, lastCheck := r.lastCheck, ground := r.ground, window := r.window, hosted := r.hosted,
    handBack := r.handBack }

def acUnits : List (Nat × Nat) := (List.range 32).map (fun i => (i / 2, i % 2))

def leUnitsAll : List (Nat × Nat) := (List.range 96).map (fun i => (i / 6, i % 6))

/-- The last step of the entry: the beat stops, islands and central logic fall to retention. -/
def State.watchEntered (s : State) : State :=
  if s.device != .entering || s.anyFlashBusy then s
  else
    let s := { s with device := .watch }
    let s := s.setPow { s.pow with slept := true, coldWake := !s.rb R.PW_CTRL 30 }
    let s := if s.discMode = 2 then s.setRf R.TB_DISC 5 4 3 else s
    let s := leUnitsAll.foldl (fun t u => t.leWatch u.1 u.2) s
    let s := acUnits.foldl (fun t u => t.acWatch u.1 u.2) s
    let s := s.clearMem (fun a => (descWord (a / 4 * 4)).isSome || (stateWord (a / 4 * 4)).isSome)
    let s := (List.range 64).foldl (fun t i => t.setMk (i / 4) (i % 4) { t.mark (i / 4) (i % 4) with commits := [] }) s
    let s := s.setClk { s.clk with couplings := [] }
    (List.range 16).foldl (fun t n => if t.islandRuns n then t.unsync n else t) s

def execWatchEntered (s : State) : Host.Outcome State Fault Refusal := .next s.watchEntered

/-! ### Waking (R45, R469 to R471) -/

/-- A source is enabled to wake the device. -/
def State.wakes (s : State) : WakeSource → Bool
  | .ball k level => s.rb R.PW_WAKE_CFG k.val && level != s.rb R.PW_WAKE_CFG (4 + k.val)
  | .alarm a => s.rb (R.CAL_ALARMa_CTRL a.val) 29
  | .pennant g => s.rb (pnCtrl (1024 + g.val)) 31 && s.rb (pnCfg (1024 + g.val)) 24

/-- Record a source in PW_WAKE_SRC. -/
def State.noteWake (s : State) : WakeSource → State
  | .ball k _ => s.setRb R.PW_WAKE_SRC k.val true
  | .alarm a => s.setRb R.PW_WAKE_SRC (4 + a.val) true
  | .pennant g =>
    if s.rb R.PW_WAKE_SRC 8 then s else (s.setRf R.PW_WAKE_SRC 25 16 g.val).setRb R.PW_WAKE_SRC 8 true

/-- WAKE_SOURCE (R469): the first source begins the wake, or ends an entry under way; later ones are recorded. -/
def State.wakeSource (s : State) (w : WakeSource) : State :=
  if !s.wakes w then s
  else match s.device with
    | .watch => (({ s with device := .waking }.setReg R.PW_WAKE_SRC 0#32).setRf R.PW_STATE 31 30 2).noteWake w
    | .entering =>
      (({ s with device := .waking }.setReg R.PW_WAKE_SRC 0#32).setRf R.PW_STATE 31 30 2).noteWake w |>.flag R.PW_STATUS 5
    | .waking => s.noteWake w
    | _ => s

def execWakeSource (w : WakeSource) (s : State) : Host.Outcome State Fault Refusal := .next (s.wakeSource w)

/-- Beat-scheduled actions whose beat passed in WATCH are late, under their policies (R30). A step of device time has no
policy register and takes the default REJECT: it is dropped, and LATE sets (log entry 26). -/
def State.lateActions (s : State) : State :=
  let now := s.clk.beat
  let s := match s.clk.step with
    | some (n, _) => if serialGe now n then (s.setClk { s.clk with step := none }).flag R.TB_STATUS 1 else s
    | none => s
  let s := match s.clk.start with
    | some r =>
      if !r.rejected && serialGe now r.beat then
        let asap := s.rb R.TB_POLICY 0
        (s.flag R.TB_STATUS (if asap then 2 else 1)).setClk { s.clk with
          start := some (if asap then { r with beat := now + 2 } else { r with rejected := true }) }
      else s
    | none => s
  let s := (List.range 4).foldl (fun t i =>
    if t.slotState i = 3 ∧ serialGe now (t.ep.armedAt.get (fun _ => 0#64) i) = true then
      if t.ep.asap.get (fun _ => false) i then
        let t := (t.flag R.EP_STATUS 2).resultFlag i 2
        { t with ep := { t.ep with armedAt := t.ep.armedAt.set (fun _ => 0#64) i (now + 2) } }
      else ((t.flag R.EP_STATUS 1).resultFlag i 1).setSlotState i 2
    else t) s
  if s.rb R.SN_STATE 31 && !s.snap.rejected && serialGe now s.snap.armedAt then
    let asap := s.rb R.SN_POLICY 0
    (s.flag R.SN_STATUS (if asap then 1 else 0)).setSnap
      (if asap then { s.snap with armedAt := now + 2 } else { s.snap with rejected := true })
  else s

/-- RAMs of the central complex (R471): system SRAM, queue RAM, exchange and snapshot memory, TCM, MP SRAM. -/
def centralRam (a : Nat) : Bool :=
  (decide (0x20000000 ≤ a) && decide (a < 0x21000000)) || (decide (0x24000000 ≤ a) && decide (a < 0x24800000))
  || (decide (0x28000000 ≤ a) && decide (a < 0x28010000)) || (decide (0x28100000 ≤ a) && decide (a < 0x28110000))
  || (decide (0x30000000 ≤ a) && decide (a < 0x30800000)) || decide (mpSram ≤ a)

/-- Registers of DMA and flash that return to reset values (R355): the records of R347 and FL_LOCK stay. -/
def dmaFlashReg (a : Nat) : Bool :=
  (decide (0x52000000 ≤ a) && decide (a < 0x53000000))
  || (decide (0x5C000000 ≤ a) && decide (a < 0x5D000000) && a != R.FL_LOCK
    && (List.range 2).all (fun b => a != R.FL_Bb_ADDR b && a != R.FL_Bb_STATE b))

/-- A wake without retention (R371, R471): RAMs are 0, cores held, queues reset, and the MP boots. -/
def State.coldWakeUp (s : State) : State :=
  let s := { s.clearMem centralRam with stamps := [] }
  let s := (List.range 8).foldl (fun t n => if t.upperLocked n then t else (t.coreStop n).setRb (R.CC_CTRL n) 31 true) s
  let s := s.queuesLost.flag R.PW_STATUS 7
  let s := s.setPow { s.pow with booting := true }
  s.setMp { MpState.reset with rollback := s.mp.rollback, unlock := s.mp.unlock }

/-- The islands leave retention: their counts are loaded and advanced, units move on by the time asleep (R45, R186), and
the drift of the converters is tested at once against the last temperature (R209). -/
def State.islandWake (s : State) (dB n : Nat) : State :=
  if !s.islandRuns n then s
  else
    let s := (List.range 4).foldl (fun t k => t.tuWake n k dB) s
    let s := (List.range 2).foldl (fun t q => t.flag (R.EQ_STATUS n q) 7) s
    let temp := s.reg (R.IC_TEMP n)
    let s := if bit temp 31 then (List.range 2).foldl (fun t c => t.driftCheck n c (fld temp 15 0)) s else s
    s.islandSync n

/-- WAKE_COMPLETE (R470, R471): `beats` is the time asleep that the timebase measured. -/
def State.wakeComplete (s : State) (beats : BitVec 64) : State :=
  if s.device != .waking then s
  else
    let s := { s with device := .run }
    let s := (s.setRf R.PW_STATE 31 30 0).flag R.PW_STATUS 6
    let kept := s.faults.kept
    let s := { s with faults := { s.faults with kept := [] } }.enqueue kept
    if !s.pow.slept then
      (s.setMp { s.mp with serving := s.mp.started }).directsDue.netWake.hostReset
    else
      let cold := s.pow.coldWake
      let s := (s.setPow { s.pow with slept := false }).setClk { s.clk with beat := s.clk.beat + beats }
      let s := s.setRb R.PW_STATE 28 (!cold)
      let s := (List.range 16).foldl (fun t n => t.islandWake beats.toNat n) s
      let s := { s.resetRegs dmaFlashReg with dmas := [] }
      let s := s.lateActions.filtersWake.netWake.hostReset
      let s := if cold then s.coldWakeUp else (s.setMp { s.mp with serving := s.mp.started }).directsDue
      s.refreshPennants

def execWakeComplete (beats : BitVec 64) (s : State) : Host.Outcome State Fault Refusal := .next (s.wakeComplete beats)

/-! ### Power-on reset and BACKUP (R346, R472, R477, R478) -/

/-- Memory that outlives a power-on reset: flash and the backup RAM. -/
def nonVolatile (a : Nat) : Bool :=
  (decide (0x10000000 ≤ a) && decide (a < 0x12000000)) || (decide (R.CAL_BRAMw 0 ≤ a) && decide (a < R.CAL_BRAMw 1024))

/-- Everything but the VBAK domain, flash, the fuses and the levels at the balls returns to its state at power-on. A load
of the calendar that still waits for its second edge is kept, and loads CAL_SET at its reset value (DESIGN CHOICE; log
entry 96). -/
def State.mainReset (s : State) : State :=
  let s := (s.flashCut 0).flashCut 1
  { State.reset with
    pending := s.pending, freeCtr := s.freeCtr
    regs := s.regs.filter (fun e => vbakReg e.1)
    scCount := s.scCount.filter (fun e => e.1 == R.CAL_STATUS)
    mem := s.mem.filter (fun e => nonVolatile e.1)
    ecc := s.ecc.filter (fun e => nonVolatile e.1)
    flash := s.flash
    clk := { ClockState.reset with
      era := s.clk.era, seconds := s.clk.seconds, sub := s.clk.sub, loadIn := s.clk.loadIn
      lateAlarms := s.clk.lateAlarms, oscAcc := s.clk.oscAcc }
    fab := { FabricState.reset with
      lines := Store.set (fun _ => false) 4484 true (s.fab.lines.filter (fun e => ballSource e.1 || e.1 == 4483)) }
    safeN := s.safeN
    mp := { MpState.reset with rollback := s.mp.rollback }
    tap := s.tap }

/-- A power-on reset with a cause of PW_RESET_CAUSE; `boot` are the levels of BOOT0 to BOOT3 at its release. After a
thermal reset the release waits for the central sensor. -/
def State.powerReset (s : State) (cause : Nat) (boot : BitVec 4) : State :=
  let s := s.mainReset
  let s := (s.setReg R.PW_RESET_CAUSE (bitW cause)).setReg R.PW_BOOT (w32 boot.toNat)
  if cause = 3 then s.setPow { s.pow with thermalHold := some 0 } else s

def execPowerOnReset (cause : Fin 5) (boot : BitVec 4) (s : State) : Host.Outcome State Fault Refusal :=
  .next (s.powerReset cause.val boot)

/-- A device reset that the device itself orders: the boot balls are straps and keep their levels. -/
def State.orderReset (s : State) (cause : Fin 5) : State :=
  s.enqueue [.powerOnReset cause (BitVec.ofNat 4 (s.rf R.PW_BOOT 3 0))]

/-- BACKUP_ENTRY (R472): the main domain is in power-on reset. -/
def State.backupEntry (s : State) : State :=
  if s.device = .backup then s
  else
    let t := s.mainReset
    { t with device := .backup, pow := { t.pow with booting := false } }

def execBackupEntry (s : State) : Host.Outcome State Fault Refusal := .next s.backupEntry

/-- POR_OUT_RELEASE (R478). -/
def execPorOutRelease (s : State) : Host.Outcome State Fault Refusal :=
  .next (if s.device = .backup ∨ s.pow.thermalHold.isSome = true then s else s.setPow { s.pow with porOut := false })

/-! ### Thermal supervision (R473 to R476) -/

/-- Threshold `t` of a sensor (0 WARN, 1 HOT, 2 CRIT) in 1/16 °C. -/
def State.thermalThr (s : State) (k t : Nat) : Int := ((s.rf (R.TH_Ss_THR k) (8 * t + 7) (8 * t) : Int) - 64) * 16

def State.thermalDwell (s : State) (k : Nat) : Nat := s.rf (R.TH_Ss_THR k) 27 24 + 1

def State.thermalHyst (s : State) (k : Nat) : Int := (s.rf (R.TH_Ss_THR k) 31 28 : Int) * 16

/-- The levels of a sensor act (EN). -/
def State.thermalLines (s : State) (k : Nat) : State :=
  (List.range 3).foldl (fun t i =>
    t.setLine (4096 + 336 + 3 * k + i) (t.rb (R.TH_Ss_STATE k) i && t.rb (R.TH_Ss_CFG k) 31)) s

/-- A sensor holds units (R179, R476): 32 the island's, 33 the central one. -/
def State.thermalUnits (s : State) (l : List (Nat × Nat)) (mark : Nat) : State :=
  (l.foldl (fun t u =>
    t.setTu u.1 u.2 { t.tu u.1 u.2 with causes := mark :: (t.tu u.1 u.2).causes.filter (fun c => c != mark) }) s).holdUnits l 23

/-- The action of a CRIT rise (R476). -/
def State.critAction (s : State) (k : Nat) : State :=
  let act := s.rf (R.TH_Ss_CFG k) 1 0
  if act = 0 then s
  else if k < 16 then
    let s := s.thermalUnits (unitsOf k) 32
    if act = 2 then (s.islandOff k true).flag R.PW_STATUS 0 else s
  else
    let s := s.thermalUnits s.liveUnits 33
    if act = 2 then s.orderReset 3 else s

/-- One threshold meets a sample. -/
def State.thermalLevel (s : State) (k t : Nat) (temp : Int) : State :=
  let r := s.pow.thresholds.get (fun _ => .reset) (3 * k + t)
  let thr := s.thermalThr k t
  let h := s.thermalHyst k
  let d := s.thermalDwell k
  let up := if thr ≤ temp then r.up + 1 else 0
  let down := if temp < thr - h then r.down + 1 else 0
  let level := s.rb (R.TH_Ss_STATE k) t
  let limited := h == 0 && (match r.lastRise with
    | some l => decide (s.absTick < l + 12500000)
    | none => false)
  let rise := !level && decide (d ≤ up)
  let put := fun (x : State) (y : ThreshRec) =>
    x.setPow { x.pow with thresholds := x.pow.thresholds.set (fun _ => .reset) (3 * k + t) y }
  if rise && limited then
    let s := put s { r with up := up, down := down }
    if up = d && s.rb (R.TH_Ss_CFG k) 31 then s.flag R.TH_STATUS 3 else s
  else if rise then
    let s := (put s ⟨up, down, some s.absTick⟩).setRb (R.TH_Ss_STATE k) t true
    if s.rb (R.TH_Ss_CFG k) 31 then
      let s := s.flag R.TH_STATUS t
      if t = 2 then s.critAction k else s
    else s
  else
    let s := put s { r with up := up, down := down }
    if level && decide (d ≤ down) then s.setRb (R.TH_Ss_STATE k) t false else s

/-- THERMAL_SAMPLE (R473): while a thermal reset waits, samples of the central sensor decide its end. -/
def State.thermalSample (s : State) (k : Nat) (temp : BitVec 16) : State :=
  let v := temp.toInt
  match s.pow.thermalHold with
  | some c =>
    if k ≠ 16 then s
    else
      let c := if v < s.thermalThr 16 2 - s.thermalHyst 16 then c + 1 else 0
      s.setPow { s.pow with thermalHold := if s.thermalDwell 16 ≤ c then none else some c }
  | none =>
    if !s.beatRuns || (decide (k < 16) && !s.islandRuns k) then s
    else
      let s := s.setReg (R.TH_Ss_TEMP k) (w32 (2 ^ 31 + temp.toNat))
      let s := if k < 16 then s.setReg (R.IC_TEMP k) (w32 (2 ^ 31 + temp.toNat)) else s
      ((List.range 3).foldl (fun t i => t.thermalLevel k i v) s).thermalLines k

def execThermalSample (sensor : Fin 17) (temp : BitVec 16) (s : State) : Host.Outcome State Fault Refusal :=
  .next (s.thermalSample sensor.val temp)

/-! ### Test mode (R102, R486) -/

/-- A write of PW_TEST: the change is due at W + 2. -/
def State.pwTestWrite (s : State) (v : Word) : State :=
  let s := (s.setRb R.PW_TEST 31 (bit v 31)).request 11
  s.setPow { s.pow with testAt := some (s.clk.beat + 2, bit v 31) }

/-- Test mode begins or ends device-wide: the count of imposed fixed-phase executions stands at 16. -/
def State.testChange (s : State) (on : Bool) : State :=
  if s.testMode = on then s
  else
    let s := (s.setRb R.PW_STATE 29 on).flag R.PW_STATUS 1
    let s := (List.range 16).foldl (fun t n => if t.islandRuns n then t.setRb (R.IC_STATE n) 29 on else t) s
    leUnitsAll.foldl (fun t u =>
      if t.islandRuns u.1 then (List.range 8).foldl (fun t c => t.setRf (R.LE_CTXc_FIXED u.1 u.2 c) 4 0 16) t else t) s

/-- TEST_MODE_CHANGE (R486): the beat has come. -/
def execTestModeChange (s : State) : Host.Outcome State Fault Refusal :=
  .next (match s.pow.testAt with
    | some (b, on) => if serialGe s.clk.beat b then (s.setPow { s.pow with testAt := none }).testChange on else s
    | none => s)

end Sys2Proof.Machine
end

