-- ==== Sys2Proof/Machine/View.lean ====
section
/-!
DEFINITION. What the registers show (R4, R7): computed registers, high shadows, and what a read does beside giving its
value.
-/
namespace Sys2Proof.Machine
open Sys2Proof

/-! ### Loop engine windows (R110, R111) -/

/-- The address that an access to a loop engine's window reaches: the registers and memories of the engine whose
contexts run there. -/
def State.routed (s : State) (a : Nat) : Nat :=
  match islandOf a with
  | some n =>
    let o := a % 0x1000000
    if o < 0xC0000 then a - o + 0x20000 * s.leWindow n (o / 0x20000) + o % 0x20000 else a
  | none => a

/-- A retirement copy is in progress, from the engine or to it (R109). -/
def State.leCopies (s : State) (n m : Nat) : Bool :=
  (s.le n m).copying || (s.leSubst n == some m && (List.range 6).any (fun e => (s.le n e).copying))

/-- LE_STATE (R115). -/
def State.leStateView (s : State) (n m : Nat) : Word :=
  let role := if s.leHosted n m then 2 else if s.leRetired n m then 3 else if s.leSubst n = some m then 1 else 0
  let mask := fun (p : Nat → Bool) => (List.range 8).foldl (fun a c => a + b2n (p c) * 2 ^ c) 0
  w32 (at_ role 30 + at_ (b2n (s.leCopies n m)) 29 + at_ (b2n s.testMode) 28 + at_ (if role = 2 then m else 0) 24
    + at_ (mask (fun c => s.rf (R.LE_CTXc_FIXED n m c) 4 0 != 0)) 8 + mask (s.partWay n m))

/-- Count of the beats of a list that lie within the last second. -/
def State.withinSecond (s : State) (l : List (BitVec 64)) : Nat := (recent s.clk.beat l).length

/-! ### Levels (R258, R272, R275) -/

/-- The control register of a pennant with GATED and SRC_HELD. -/
def State.pnCtrlView (s : State) (p : Nat) : Word :=
  setBit (setBit (s.reg (pnCtrl p)) 1 (s.gated p)) 2 (s.srcHeld p)

/-! ### Views, block by block -/

/-- TB and CAL (R54). -/
def State.tbView (s : State) (a d : Nat) : Word :=
  let t := s.devTime.toNat
  let q := (s.clk.reqBeat.get (fun _ => 0#64) d).toNat
  if a = R.TB_BEAT_LO then lo64 s.clk.beat.toNat
  else if a = R.TB_BEAT_HI then hi64 s.clk.beat.toNat
  else if a = R.TB_DT_LO then lo64 t
  else if a = R.TB_DT_HI then hi64 t
  else if a = R.TB_REQ_BEAT_LO then lo64 q
  else if a = R.TB_REQ_BEAT_HI then hi64 q
  else if a = R.CAL_NOW_LO then w32 s.clk.seconds
  else if a = R.CAL_NOW_HI then w32 (at_ s.clk.era 16 + s.clk.sub)
  else s.reg a

/-- EP and SN (R80). -/
def State.epView (s : State) (a d : Nat) : Word :=
  match (List.range 4).find? (fun i => a == R.EP_SLOTs_PENDING i) with
  | some i => s.slotPending i
  | none => if a = R.EP_POLICY then s.domReg a d else s.reg a

/-- FC (R462). -/
def State.fcView (s : State) (a : Nat) : Word :=
  if a = R.FC_SUMMARY then s.faultSummary
  else if a = R.FC_NEXT then s.faultNext
  else if R.FC_REC0 ≤ a then (s.recordWords (s.rf R.FC_SEL 12 0)).getD ((a - R.FC_REC0 - (if a = R.FC_REC0 then 0 else 4)) / 4) 0#32
  else s.reg a

/-- SYS and XM (R1, R27). -/
def State.sysView (s : State) (a d : Nat) : Word := if a = R.XM_STAMP then s.domReg a d else s.reg a

/-- DMA (R358): channels that are not IDLE or HALTED. -/
def State.dmaView (s : State) (a : Nat) : Word :=
  if a = R.DMA_ACTIVE0 then wordOfBits s.dmaOn
  else if a = R.DMA_ACTIVE1 then wordOfBits (fun i => s.dmaOn (32 + i))
  else s.reg a

/-- QM (R372). -/
def State.qmView (s : State) (a : Nat) : Word :=
  if a = R.QM_FREE then w32 s.freeCells
  else if R.QM_Qq_OWN 0 ≤ a then
    let q := (a - R.QM_Qq_OWN 0) / 32
    if a = R.QM_Qq_STATE q then s.qStateView q else if a = R.QM_Qq_COUNT q then s.qCountView q else s.reg a
  else s.reg a

/-- MB (R408). Handles show while the mailbox is enabled. -/
def State.mbView (s : State) (a : Nat) : Word :=
  if a = R.MB_LOAD then s.mbLoadView
  else if R.MB_MBm_CFG 0 ≤ a then
    let m := (a - R.MB_MBm_CFG 0) / 32
    if a = R.MB_MBm_REQ m then (if s.mbEnabled m then s.qHandle (2 * m) else 0#32)
    else if a = R.MB_MBm_RSP m then (if s.mbEnabled m then s.qHandle (2 * m + 1) else 0#32)
    else if a = R.MB_MBm_STATE m then s.mbStateView m
    else s.reg a
  else s.reg a

/-- FB (R276). -/
def State.fbView (s : State) (a : Nat) : Word :=
  if R.FB_LEVELk 0 ≤ a ∧ a < R.FB_LEVELk 32 then
    wordOfBits (fun i => s.presented (1024 + 32 * ((a - R.FB_LEVELk 0) / 4) + i))
  else match pnOfCtrl a with
  | some p => s.pnCtrlView p
  | none => s.reg a

/-- An island fabric segment (R275). -/
def State.fiView (s : State) (n a : Nat) : Word :=
  if a = R.FI_LEVEL0 n then wordOfBits (fun i => s.presented (64 * n + i))
  else if a = R.FI_LEVEL1 n then wordOfBits (fun i => s.presented (64 * n + 32 + i))
  else match pnOfCtrl a with
  | some p => s.pnCtrlView p
  | none => s.reg a

/-- A loop engine (R114). In test mode REMAIN stands at 16 (R102). -/
def State.leView (s : State) (n m a : Nat) : Word :=
  if a = R.LE_STATE n m then s.leStateView n m
  else if a = R.LE_TRANSIENTS n m then setFld (s.reg a) 4 0 (s.withinSecond (s.le n m).window)
  else s.reg a

/-- PW and TH (R488). -/
def State.pwView (s : State) (a : Nat) : Word := if a = R.PW_ISLANDS then s.islandsView else s.reg a

/-- A core's registers (R314). -/
def State.ccView (s : State) (n a : Nat) : Word :=
  if a = R.CC_STATE n then s.ccStateView n else if a = R.CC_TRANSIENTS n then s.ccTransView n else s.reg a

/-- A core's scheduler (R335). -/
def State.schView (s : State) (n a : Nat) : Word :=
  if a = R.SCH_STATE n then s.schStateView n
  else if R.SCH_SLOTs_CTRL n 0 ≤ a ∧ a % 16 = 12 then s.slotStateView n ((a - R.SCH_SLOTs_CTRL n 0) / 16)
  else s.reg a

/-- What the register at an address holds for a domain, without the effects of a read: a high shadow gives the live
high word. -/
def State.live (s : State) (b : Blk) (a d : Nat) : Word :=
  match b with
  | .sys => s.sysView a d
  | .tb => s.tbView a d
  | .ep => s.epView a d
  | .fb => s.fbView a
  | .fi n => s.fiView n a
  | .fc => s.fcView a
  | .dma => s.dmaView a
  | .qm => s.qmView a
  | .mb => s.mbView a
  | .pw => s.pwView a
  | .le n m => s.leView n m a
  | .tu n k => if a = R.TU_STATE n k then s.tuStateView n k else s.reg a
  | .ac n c => if a = R.AC_STATE n c then setFld (s.reg a) 12 8 (s.withinSecond (s.ac n c).window) else s.reg a
  | .cc n => s.ccView n a
  | .sch n => s.schView n a
  | .hp => if a = R.HP_ID then w32 (at_ 0x9480 16 + Config.pciVendorId.toNat) else s.reg a
  | .pm => if a = R.PM_IO_LEVEL then setFld (s.reg a) 4 0 Config.ioLevels.toNat else s.reg a
  | .uart k => if a = R.UART_DATA k then (s.serialRec k).front else s.reg a
  | .spi k => if a = R.SPI_DATA k then (s.serialRec (4 + k)).front else s.reg a
  | .i2c k => if a = R.I2C_DATA k then (s.serialRec (12 + k)).front else s.reg a
  | _ => s.reg a

/-! ### Reads (R4) -/

/-- The high shadows that follow an LL register. -/
def shadowsOf (a : Nat) : List Nat :=
  (if a = R.FC_REC0 then [8, 12, 16, 20, 24, 28, 32] else [4, 8, 12, 16]).map (fun o => a + o)
    |>.takeWhile (fun x => match rowAt x with
      | some r => r.access == .hs
      | none => false)

/-- A read of an LL register latches the high words for the reading domain. -/
def State.latch (s : State) (b : Blk) (a d : Nat) : State :=
  (shadowsOf a).foldl (fun t x => t.setDomReg x d (s.live b x d)) s

/-- What a read of a data register does: it takes the result (R185, R199, R213, R241, R436). -/
def State.consume (s : State) (b : Blk) (a : Nat) : State :=
  match b with
  | .tu n k =>
    match (List.range 6).find? (fun j => a == R.TU_CHj_CAP_LO n k j) with
    | some j => s.consumeCap n k j
    | none => s
  | .ac n c => if a = R.AC_DATA n c then s.acDataRead n c else s
  | .sd n d => if a = R.SD_DATA n d then s.sdDataRead n d else s
  | .mk n k => if a = R.MK_POS_LO n k then s.mkConsume n k else s
  | .uart k => if a = R.UART_DATA k then (s.serialPop k).2 else s
  | .spi k => if a = R.SPI_DATA k then (s.serialPop (4 + k)).2 else s
  | .i2c k => if a = R.I2C_DATA k then (s.serialPop (12 + k)).2 else s
  | _ => s

/-- The levels of GPIO balls as a read finds them (R497). -/
def gpioWord (a : Nat) : Option Nat := (List.range 3).find? (fun k => a == R.PM_GPIO_INk k)

/-- A read of a register by domain `d`, once it is admitted. -/
def State.readReg (s : State) (b : Blk) (r : RegRow) (a d : Nat) : Word × State :=
  match r.access with
  | .wo => (0#32, s)
  | .hs => (s.domReg a d, s)
  | .ll => (s.live b a d, (s.latch b a d).consume b a)
  | _ =>
    if a = R.EP_OPEN then s.epOpen d
    else match b, gpioWord a with
      | .pm, some k => s.gpioIn k
      | _, _ => (s.live b a d, s.consume b a)

end Sys2Proof.Machine
end

