-- ==== Sys2Proof/Machine/Bus.lean ====
section
/-!
DEFINITION. The central interconnect (R5, R12, R13, R17, R18, R28): what an address is for a master, who may read and
write it, and what an access does.
-/
namespace Sys2Proof.Machine
open Sys2Proof

/-! ### Places (R28, R29) -/

/-- What an address holds. -/
inductive Place where
  /-- System SRAM and the TCM windows: no owner, Non-secure (R18). -/
  | ram (a : Nat)
  | flash (a : Nat)
  | queueRam (a : Nat)
  | exchange (w : Nat)
  | snapshot (a : Nat)
  /-- A descriptor, parameter or state word of a loop engine. -/
  | engineMem (n m a : Nat)
  | register (b : Blk) (r : RegRow) (a : Nat)
  /-- A staging alias address: what it shadows. -/
  | staging (target : Nat)
  | bootRom (a : Nat)
deriving DecidableEq, Repr

/-- The windows of the host port: first host offset, size, device address (R431). -/
def hw0 : List (Nat × Nat × Nat) :=
  [(0x000000, 0x1000, 0x54000000), (0x010000, 0x10000, 0x5D000000), (0x020000, 0x10000, 0x5A000000),
   (0x030000, 0x1000, 0x56000000), (0x040000, 0x10000, 0x58000000), (0x050000, 0x1000, 0x51000000),
   (0x060000, 0x1000, 0x51019000), (0x200000, 0x200000, 0x51200000)]

def hw1 : List (Nat × Nat × Nat) := [(0x00000, 0x10000, 0x28000000), (0x10000, 0x10000, 0x28100000)]

/-- Is an address in a window of the host port? -/
def hostSees (a : Nat) : Bool := (hw0 ++ hw1).any (fun w => decide (w.2.2 ≤ a) && decide (a < w.2.2 + w.2.1))

/-- Does a master reach an address (R28)? The debug module also reaches PW_TEST, which R486 gives to it alone (log entry
91). -/
def reaches (m : Master) (a : Nat) : Bool :=
  let wide := match m with
    | .core _ | .mp | .dma _ => true
    | _ => false
  let narrow := match m with
    | .core _ | .mp => true
    | _ => false
  let host := m == .host && hostSees a
  if a < 0x100000 then (match m with
    | .core _ => true
    | _ => false)
  else if 0x10000000 ≤ a ∧ a < 0x12000000 then wide
  else if 0x20000000 ≤ a ∧ a < 0x21000000 then wide
  else if 0x24000000 ≤ a ∧ a < 0x24800000 then (match m with
    | .mp | .dma _ => true
    | _ => false)
  else if 0x28000000 ≤ a ∧ a < 0x28010000 then true
  else if 0x28100000 ≤ a ∧ a < 0x28110000 then wide || host
  else if 0x30000000 ≤ a ∧ a < 0x30800000 then wide
  else if 0x40000000 ≤ a ∧ a < 0x50000000 then
    wide || (match m with
      | .debug => true
      | .engine e => e.val / 6 == (a - 0x40000000) / 0x1000000
      | _ => false)
  else if 0xF0000000 ≤ a ∧ a < 0xF0040000 then m == .mp
  else match a / 0x1000000 with
    | 0x50 => wide || m == .debug
    | 0x51 => narrow || host
    | 0x52 => narrow
    | 0x53 => narrow
    | 0x54 => narrow || host
    | 0x55 => wide
    | 0x56 => narrow || host
    | 0x57 => wide
    | 0x58 => narrow || host
    | 0x59 => narrow || (m == .debug && a == R.PW_TEST)
    | 0x5A => narrow || host
    | 0x5B => narrow
    | 0x5C => m == .mp
    | 0x5D => m != .host || host
    | _ => false

/-- The core of a TCM window address, with its offset. -/
def tcmOf (a : Nat) : Option (Nat × Nat) :=
  if 0x30000000 ≤ a ∧ a < 0x30800000 then some ((a - 0x30000000) / 0x100000, a % 0x100000) else none

/-- Is a TCM offset in the core's spill area (R329)? -/
def State.spillArea (s : State) (n o : Nat) : Bool :=
  decide ((s.reg (R.SCH_SPILL n)).toNat ≤ o) && decide (o < (s.reg (R.SCH_SPILL n)).toNat + 0x20000)

/-- The place of a TCM address: none for the upper core of a locked pair (R308) and in the spill area (R329). -/
def State.tcmPlace (s : State) (n o : Nat) : Option Place :=
  if s.upperLocked n || s.spillArea n o then none else some (.ram (0x30000000 + 0x100000 * n + o))

/-- The register at an address, or a word of a loop engine's memories, behind any rerouting (R110). The upper core of a
locked pair has no scheduler block of its own (R335). -/
def State.mapped (s : State) (a : Nat) : Option Place :=
  let a := s.routed a
  let w := a / 4 * 4
  match descWord a, stateWord a with
  | some (n, m, _), _ => some (.engineMem n m a)
  | _, some (n, m, _) => some (.engineMem n m a)
  | _, _ =>
    match locate w with
    | some (b, o) =>
      if (match b with
        | .sch n => s.upperLocked n
        | _ => false) then none
      else match b.row o with
      | some r => some (.register b r a)
      | none => none
    | none => none

/-- The place of an address for a master; none where the access ends in R28's error response. Debug accesses need an
unlock (R406). -/
def State.place (s : State) (m : Master) (a : Nat) : Option Place :=
  if !reaches m a || (m == .debug && s.mp.unlock == 0) then none
  else if a < 0x100000 then (match m with
    | .core n => s.tcmPlace (s.leadCore n.val) a
    | _ => none)
  else if a < 0x12000000 then some (.flash a)
  else if a < 0x21000000 then some (.ram a)
  else if a < 0x24800000 then some (.queueRam a)
  else if a < 0x28010000 then some (.exchange ((a - 0x28000000) / 4))
  else if a < 0x28110000 then some (.snapshot a)
  else match tcmOf a with
  | some (n, o) => s.tcmPlace n o
  | none =>
    if 0xF0000000 ≤ a then some (.bootRom a)
    else match aliasTarget a with
    | some t => some (.staging (s.routed t))
    | none => s.mapped a

/-- Size and alignment (R5): bytes and half-words are for the byte-addressed memories, at their natural alignment. R5 does
not name the boot ROM among them; the model lets the MP read it as it reads flash (DESIGN CHOICE; log entry 92). -/
def sizeOk (p : Place) (a n : Nat) : Bool :=
  match p with
  | .ram _ | .flash _ | .queueRam _ | .bootRom _ => (n == 1 || n == 2 || n == 4) && a % n == 0
  | _ => n == 4 && a % 4 == 0

/-! ### Ownership (R18, R20) -/

/-- The ownership register that decides an access to a register. -/
def ownerReg (b : Blk) (a : Nat) : Nat :=
  let o := a % 0x1000000
  match b with
  | .sys => R.SYS_OWNER
  | .tb => if a < R.CAL_OWNER then R.TB_OWNER else R.CAL_OWNER
  | .ep => if a < R.SN_OWNER then R.EP_OWNER else R.SN_OWNER
  | .fb =>
    if o < 0x10000 then R.FB_OWNER
    else match fabObject a with
      | (0, p) => pnOwner p
      | (1, h) => hsOwner h
      | (_, k) => R.FB_SSs_OWNER k
  | .fi n =>
    if o < 0x251000 then R.FI_OWNER n
    else match fabObject a with
      | (0, p) => pnOwner p
      | (_, h) => hsOwner h
  | .me => R.ME_OWNER
  | .fl => R.FL_OWNER
  | .dma => if o < 0x1000 then R.DMA_OWNER else R.DMA_CHc_OWNER ((o - 0x1000) / 64)
  | .qm => if o < 0x200000 then R.QM_OWNER else R.QM_Qq_OWN ((o - 0x200000) / 32)
  | .mb => R.MB_OWNER
  | .nx => R.NX_OWNER
  | .hp => R.HP_OWNER
  | .xspi => R.XSPI_OWNER
  | .fc => R.FC_OWNER
  | .pw => if a < R.TH_OWNER then R.PW_OWNER else R.TH_OWNER
  | .pm => if o < 0x1000 then R.PM_OWNER else R.PM_DIn_OWNER ((o - 0x1000) / 0x100)
  | .le n m => R.LE_OWNER n m
  | .ic n => R.IC_OWNER n
  | .tu n k => R.TU_OWNER n k
  | .ac n c => R.AC_OWNER n c
  | .sd n d => R.SD_OWNER n d
  | .cp n c => R.CP_OWNER n c
  | .eq n q => R.EQ_OWNER n q
  | .mk n k => R.MK_OWNER n k
  | .cc n => R.CC_OWNER n
  | .sch n => R.SCH_OWNER n
  | .can k => R.CAN_OWNER k
  | .uart k => R.UART_OWNER k
  | .spi k => R.SPI_OWNER k
  | .i2c k => R.I2C_OWNER k

/-- The queue port of an address: its domain, its number (R364). -/
def portOf (a : Nat) : Option (Nat × Nat) :=
  if 0x51010000 ≤ a ∧ a < 0x51020000 then some ((a - 0x51010000) / 0x1000, a % 0x1000 / 0x100) else none

/-- The frame whose configuration register lies at an address (R27). -/
def frameOf (a : Nat) : Option Nat := xmFrameIndex a

/-- The epoch slot of an address (R80). -/
def slotOfAddr (a : Nat) : Option Nat := if 0x56000100 ≤ a ∧ a < 0x56000180 then some ((a - 0x56000100) / 32) else none

/-- The mailbox of an address (R408). -/
def mailboxOf (a : Nat) : Option Nat := if 0x5A001000 ≤ a ∧ a < 0x5A009000 then some ((a - 0x5A001000) / 32) else none

/-- The session of an address (R438). -/
def sessionAt (a : Nat) : Option Nat := if 0x53100000 ≤ a ∧ a < 0x53120000 then some ((a - 0x53100000) / 32) else none

/-- Registers that every domain may read (R27, R80, R262, R408, R438). -/
def openRead (a : Nat) : Bool :=
  (decide (R.SYS_FAMILY0 ≤ a) && decide (a ≤ R.SYS_FAMILY3)) || (decide (0x5D001000 ≤ a) && decide (a < 0x5D004000))
  || [R.EP_OPEN, R.EP_STAGE, R.EP_ABANDON, R.EP_HAUL_GO, R.EP_POLICY, R.FB_FIRE].contains a
  || (slotOfAddr a).isSome
  || (match mailboxOf a with
    | some m => a == R.MB_MBm_EV m
    | none => false)
  || (match sessionAt a with
    | some k => a == R.NX_Ss_XM k || a == R.NX_Ss_EV k
    | none => false)

/-- Is the register Secure? A mailbox carries its own SEC bit (R20). -/
def State.secureReg (s : State) (b : Blk) (a : Nat) : Bool :=
  match mailboxOf a with
  | some m => s.rb (R.MB_MBm_CFG m) 30
  | none => s.ownerSec (ownerReg b a)

/-- May domain `d` read the register (R18, R364)? -/
def State.mayReadReg (s : State) (d : Nat) (b : Blk) (a : Nat) : Bool :=
  match portOf a with
  | some (x, _) => x == d
  | none => openRead a || s.domSecure d || !s.secureReg b a

/-- Registers that only domain 0 writes: ownership registers and the configurations that say so (R20, R331, R325, R363,
R408, R438). -/
def domain0Only (b : Blk) (a : Nat) : Bool :=
  a == ownerReg b a || (match b with
    | .sch n => a == R.SCH_RELEASE n || (decide (R.SCH_SLOTs_CTRL n 0 ≤ a) && a % 16 == 8)
    | .mb => (match mailboxOf a with
      | some m => a == R.MB_MBm_CFG m
      | none => false)
    | .nx => (match sessionAt a with
      | some k => a == R.NX_Ss_CFG k
      | none => false)
    | _ => false)

/-- May domain `d` write the register (R4, R18)? -/
def State.mayWriteReg (s : State) (d : Nat) (b : Blk) (r : RegRow) (a : Nat) : Bool :=
  if r.access == .ro || r.access == .hs || r.access == .ll then (match portOf a with
    | some (x, _) => x == d
    | none => true)
  else if domain0Only b a then d == 0
  else if a = R.PW_TEST then d == 11 && s.mp.unlock == 2
  else if a = R.EP_POLICY ∨ a = R.EP_STAGE ∨ a = R.EP_ABANDON ∨ a = R.EP_HAUL_GO ∨ a = R.FB_FIRE then true
  else if (a = R.TB_RATE ∨ a = R.TB_STEP_LO ∨ a = R.TB_STEP_HI) ∧ s.discMode = 2 ∧ d = 0 then true
  else match portOf a, frameOf a, slotOfAddr a, mailboxOf a, sessionAt a with
  | some (x, _), _, _, _, _ => x == d
  | _, some f, _, _, _ => d == 0 || s.rf (R.XM_FRAME_CFGf f) 29 26 == d
  | _, _, some i, _, _ => s.slotState i != 0 && s.slotOpener i == d
  | _, _, _, some m, _ => if a = R.MB_MBm_EV m then s.mbClient m == d else s.owns d R.MB_OWNER && (s.domSecure d || !s.secureReg b a)
  | _, _, _, _, some k =>
    if a = R.NX_Ss_XM k ∨ a = R.NX_Ss_EV k then s.rf (R.NX_Ss_CFG k) 23 20 == d
    else s.owns d R.NX_OWNER && (s.domSecure d || !s.secureReg b a)
  | _, _, _, _, _ => s.owns d (ownerReg b a) && (s.domSecure d || !s.secureReg b a)

/-! ### Writes to registers -/

/-- The stored value of a register after a write: only writable bits change. -/
def State.putReg (s : State) (r : RegRow) (a : Nat) (v : Word) : State :=
  s.setReg a ((s.reg a &&& ~~~ r.wmask) ||| (v &&& r.wmask))

/-- TB and CAL. In SERVO the writes of other domains to RATE and STEP are ignored (R37). -/
def State.tbWrite (s : State) (d : Nat) (r : RegRow) (a : Nat) (v : Word) : State :=
  let servo := s.discMode == 2 && d != 0
  if a = R.TB_RATE then (if servo then s else s.rateWrite v)
  else if a = R.TB_STEP_LO then (if servo then s else s.putReg r a v)
  else if a = R.TB_STEP_HI then (if servo then s else s.stepWrite d v)
  else if a = R.TB_DISC then s.discWrite v
  else if a = R.TB_START_GO then s.startArm d none
  else if a = R.TB_START_CANCEL then s.startCancel d
  else if a = R.TB_START_AT_HI then s.startAtWrite d v
  else if a = R.CAL_SET_HI then s.calSetWrite v
  else match [0, 1, 2, 3].find? (fun (i : Fin 4) => a == R.CAL_ALARMa_CTRL i.val) with
  | some i => s.alarmArm i v
  | none =>
    let s := s.putReg r a v
    if R.CAL_BRAMw 0 ≤ a then s.setEcc a .good else s

/-- EP and SN. -/
def State.epWrite (s : State) (d : Nat) (r : RegRow) (a : Nat) (v : Word) : BusResult × State :=
  if a = R.EP_STAGE then s.byId d v State.epStage
  else if a = R.EP_ABANDON then s.byId d v (fun t i => t.epAbandon d i)
  else if a = R.EP_HAUL_GO then s.byId d v (fun t i => t.haulRequest d i none)
  else if a = R.EP_POLICY then (.done, s.setDomReg a d (v &&& 1#32))
  else if a = R.SN_COUNT then (.done, s.snCountWrite v)
  else if a = R.SN_AT_HI then (.done, s.snAtHi d v)
  else if a = R.SN_GO then (.done, s.snapArm d (s.rb R.SN_POLICY 0) none)
  else if a = R.SN_CANCEL then (.done, s.snapCancel d)
  else if a = R.SN_LOAD then (.done, s.snLoadWrite)
  else match slotOfAddr a with
  | some i => if a = R.EP_SLOTs_AT_HI i then s.slotAtHi d i v else s.slotAtLo d i v
  | none => (.done, s.putReg r a v)

/-- FB and the island segments. -/
def State.fabWrite (s : State) (d : Nat) (r : RegRow) (a : Nat) (v : Word) : BusResult × State :=
  if a = R.FB_FIRE then s.fbFire d v
  else match pnOfCtrl a with
  | some p => (.done, s.pnCtrlWrite p v)
  | none => match setOfCtrl a with
    | some k => (.done, s.setCtrlWrite k v)
    | none => (.done, s.putReg r a v)

/-- FC. -/
def State.fcWrite (s : State) (r : RegRow) (a : Nat) (v : Word) : State :=
  if a = R.FC_ACK then s.acknowledge (fld v 12 0)
  else if a = R.FC_RETIRE then s.fcRetire (fld v 12 0)
  else if a = R.FC_RESTORE then s.fcRestore (fld v 12 0)
  else if a = R.FC_CTRL then (s.putReg r a v).faultN
  else s.putReg r a v

/-- PW and TH. -/
def State.pwWrite (s : State) (r : RegRow) (a : Nat) (v : Word) : State :=
  if a = R.PW_CTRL then s.pwCtrlWrite v
  else if a = R.PW_ISLAND_ON then (maskIslands v).foldl (fun t n => t.islandUp n) s
  else if a = R.PW_ISLAND_OFF then (maskIslands v).foldl (fun t n => t.islandOff n false) s
  else if a = R.PW_ISLAND_RESET then (maskIslands v).foldl (fun t n => t.islandReset n) s
  else if a = R.PW_TEST then s.pwTestWrite v
  else match (List.range 17).find? (fun k => a == R.TH_Ss_CFG k) with
  | some k => (s.putReg r a v).thermalLines k
  | none => s.putReg r a v

/-- A core's scheduler. -/
def State.schWrite (s : State) (n : Nat) (r : RegRow) (a : Nat) (v : Word) : State :=
  if a = R.SCH_CTRL n then s.schCtrlWrite n v
  else if a = R.SCH_SPILL n then s.spillWrite n v
  else if a = R.SCH_RELEASE n then s.schRelease n
  else if R.SCH_SLOTs_CTRL n 0 ≤ a ∧ a % 16 = 0 then s.slotCtrlWrite n ((a - R.SCH_SLOTs_CTRL n 0) / 16) v
  else s.putReg r a v

/-- DMA: the configuration registers of a channel are those from CFG to NEXT. -/
def State.dmaWrite (s : State) (r : RegRow) (a : Nat) (v : Word) : State :=
  if a < R.DMA_CHc_OWNER 0 then s.putReg r a v
  else
    let c := (a - R.DMA_CHc_OWNER 0) / 64
    if a = R.DMA_CHc_CTRL c then s.dmaCtrlWrite c v
    else if a = R.DMA_CHc_OWNER c then s.putReg r a v
    else s.dmaCfgWrite c a ((s.reg a &&& ~~~ r.wmask) ||| (v &&& r.wmask))

/-- QM and the queue ports. -/
def State.qmWrite (s : State) (r : RegRow) (a : Nat) (v : Word) : State :=
  if a < R.QM_Qq_OWN 0 then s.putReg r a v
  else
    let q := (a - R.QM_Qq_OWN 0) / 32
    if a = R.QM_Qq_OWN q then s.qOwnWrite q v
    else if a = R.QM_Qq_CFG q then s.qCfgWrite q v
    else s.putReg r a v

/-- A timer unit: TU_CTRL, TU_TRIP_CLR, the duty load words. -/
def State.tuWrite (s : State) (d n k : Nat) (r : RegRow) (a : Nat) (v : Word) : State :=
  if a = R.TU_CTRL n k then s.tuCtrlWrite n k v
  else if a = R.TU_TRIP_CLR n k then s.tripClr n k v
  else match (List.range 13).find? (fun w => a == R.TU_DLRw n k w) with
  | some w => s.dlrWrite d 0 n k w v
  | none => s.putReg r a v

/-- A converter core. -/
def State.acWrite (s : State) (n c : Nat) (r : RegRow) (a : Nat) (v : Word) : State :=
  if a = R.AC_CTRL n c then s.acCtrlWrite n c v
  else if a = R.AC_CAL n c then s.acCalWrite n c v
  else if R.AC_CAL_GAINg n c 0 ≤ a then s.acFactorWrite n c a ((s.reg a &&& ~~~ r.wmask) ||| (v &&& r.wmask))
  else s.putReg r a v

/-- An encoder port. -/
def State.eqWrite (s : State) (n q : Nat) (r : RegRow) (a : Nat) (v : Word) : State :=
  if a = R.EQ_CTRL n q then s.eqCtrlWrite n q v
  else if a = R.EQ_PRESET n q then s.loadCount n q v
  else if a = R.EQ_PC_CTRL n q then s.pcCtrlWrite n q v
  else s.putReg r a v

/-- Flash controller. -/
def State.flWrite (s : State) (r : RegRow) (a : Nat) (v : Word) : State :=
  if a = R.FL_LOCK then s.flLockWrite v
  else match [0, 1].find? (fun b => a == R.FL_Bb_CMD b) with
  | some b => s.flashCmd b v
  | none => s.putReg r a v

/-- A write to LE_CTXc_LAT sets MAX to 0 (R115). -/
def State.latWrite (s : State) (a : Nat) : State := s.setRf a 31 16 0

/-- An engine retired without a substitute drops every write (R111). -/
def State.engineDrops (s : State) : Blk → Bool
  | .le n m => s.leRetired n m && !s.leHosted n m && !(s.le n m).copying
  | _ => false

/-- A loop engine. -/
def State.leWrite (s : State) (n m : Nat) (r : RegRow) (a : Nat) (v : Word) : State :=
  if a = R.LE_RUN n m then s.leRunWrite n m v
  else if (List.range 8).any (fun c => a == R.LE_CTXc_LAT n m c) then s.latWrite a
  else s.putReg r a v

/-- A change of ownership or security: pennant lines follow the security of what they select (R255). -/
def State.ownerWrite (s : State) (b : Blk) (r : RegRow) (a : Nat) (v : Word) : State :=
  let t := s.putReg r a v
  match b with
  | .qm => if R.QM_Qq_OWN 0 ≤ a then s.qmWrite r a v else t
  | .fb | .fi _ =>
    let t := t.refusedReport s
    match fabObject a with
    | (2, k) => if a = R.FB_SSs_OWNER k then (t.setCheck k).fabricChanged none else t.fabricChanged none
    | _ => t.fabricChanged none
  | _ => (t.refusedReport s).fabricChanged none

/-- An admitted write to a register (R4). R4 gives a write to an LL or HS register no effect and no response: it is
ignored without an error, from every domain, as one to an RO register is (DESIGN CHOICE; log entry 92). The registers of
an engine retired without a substitute take no write, its ownership register included (R111). -/
def State.writeReg (s : State) (d : Nat) (b : Blk) (r : RegRow) (a : Nat) (v : Word) : BusResult × State :=
  match r.access with
  | .ro | .hs | .ll => (.done, s)
  | .sc => (.done, if s.engineDrops b then s else s.scWrite a v)
  | .eb => (.done, if s.engineDrops b then s else s.ebWrite a v)
  | _ =>
    if s.engineDrops b then (.done, s)
    else if a = ownerReg b a then (.done, s.ownerWrite b r a v)
    else match b with
    | .sys => match frameOf a with
      | some f => s.xmCfgWrite d f v
      | none => (.done, s.putReg r a v)
    | .tb => (.done, s.tbWrite d r a v)
    | .ep => s.epWrite d r a v
    | .fb | .fi _ => s.fabWrite d r a v
    | .fc => (.done, s.fcWrite r a v)
    | .pw => (.done, s.pwWrite r a v)
    | .fl => (.done, s.flWrite r a v)
    | .dma => (.done, s.dmaWrite r a v)
    | .qm => (.done, s.qmWrite r a v)
    | .nx => (.done, match (List.range 4).find? (fun p => a == R.NX_PORTp_CFG p) with
      | some p => s.portCfgWrite p v
      | none => s.putReg r a v)
    | .pm => (.done, let t := s.putReg r a v
      if a < R.PM_DIn_OWNER 0 then t.gpioLines else t)
    | .le n m => (.done, s.leWrite n m r a v)
    | .ic n => (.done, if a = R.IC_LE_SUBST n then s.leSubstWrite n v else s.putReg r a v)
    | .tu n k => (.done, s.tuWrite d n k r a v)
    | .ac n c => (.done, s.acWrite n c r a v)
    | .eq n q => (.done, s.eqWrite n q r a v)
    | .cc n => (.done, if a = R.CC_CTRL n then
        (if (s.coreRec n).halted then (s.ccCtrlWrite n v).thawUnits s else s.ccCtrlWrite n v)
      else s.putReg r a v)
    | .sch n => (.done, s.schWrite n r a v)
    | .can k => (.done, if a = R.CAN_CTRL k then s.canCtrlWrite k v else s.putReg r a v)
    | .uart k => (.done, if a = R.UART_DATA k then s.uartWrite k v else s.putReg r a v)
    | .spi k => (.done, if a = R.SPI_DATA k then s.spiWrite k v else if a = R.SPI_CTRL k then s.spiCtrlWrite k v
      else s.putReg r a v)
    | .i2c k => (.done, if a = R.I2C_CMD k then s.i2cCmd k v else if a = R.I2C_DATA k then s.i2cWrite k v
      else s.putReg r a v)
    | _ => (.done, s.putReg r a v)

/-! ### Accesses -/

/-- An access to an island that is off, in reset or behind a link that has timed out ends in R13's error; one that
drains answers what its own engines and the DMA have under way (R354, R466). An island's own engine meets no link. -/
def State.islandGone (s : State) (m : Master) (a : Nat) : Bool :=
  match islandOf a with
  | some n => !s.pathUp n || !(s.phase n == .running || (s.phase n == .draining && (match m with
      | .dma _ | .engine _ => true
      | _ => false)))
  | none => false

/-- A write that ownership refuses: a timer unit notes it for its duty load words (R170). -/
def State.refusedWrite (s : State) (b : Blk) (a : Nat) : State :=
  match b with
  | .tu n k => if (List.range 13).any (fun w => a == R.TU_DLRw n k w) then s.flag (R.TU_STATUS n k) 12 else s
  | _ => s

/-- A read of `n` bytes of byte-addressed RAM: a word in error ends the access (R338). -/
def State.ramRead (s : State) (a n : Nat) : BusResult × State :=
  if s.eccBad a then (.error .ecc, s.eccAccess a) else (.data (w32 (s.loadN a n)), s.eccRead a)

/-- A write to byte-addressed RAM: part of a word in error is refused (R338). -/
def State.ramWrite (s : State) (a n : Nat) (v : Word) : BusResult × State :=
  if n = 4 then (.done, s.setMword a v)
  else if s.eccBad a then (.error .ecc, s.eccAccess a)
  else (.done, (s.eccRead a).storeBytes a ((bytesOfWord v).take n))

/-- The core whose stores a master makes. -/
def State.writer (s : State) : Master → Option Nat
  | .core n => some (s.leadCore n.val)
  | _ => none

/-- A write to system SRAM passes the data caches by (R299). -/
def State.sramWrite (s : State) (m : Master) (a n : Nat) (v : Word) : BusResult × State :=
  if 0x20000000 ≤ a ∧ a < 0x21000000 ∧ (n = 4 ∨ s.eccBad a = false) then
    (s.cachesMiss (s.writer m) ((List.range n).map (fun i => a + i))).ramWrite a n v
  else s.ramWrite a n v

/-- The snapshot memory (R77, R79). -/
def State.snapshotRead (s : State) (d a : Nat) : BusResult × State :=
  if s.ownerSec R.SN_OWNER && !s.domSecure d then (.error .ownership, s)
  else if s.rb R.SN_STATE 30 then (.error .blockRefused, s.flag R.SN_STATUS 6)
  else s.ramRead a 4

/-- A write to the snapshot memory: value words take none, address words none while the list is closed. -/
def State.snapshotWrite (s : State) (d a : Nat) (v : Word) : BusResult × State :=
  if !s.owns d R.SN_OWNER || (s.ownerSec R.SN_OWNER && !s.domSecure d) then (.error .ownership, s)
  else if a % 8 = 4 ∨ s.snap.closed = true then (.error .blockRefused, s.flag R.SN_STATUS 6)
  else (.done, s.setMword a v)

/-- A read through the staging alias (R56, R57): the shadow of an EB register or memory word, under R18; 0 without an
error at any other offset. -/
def State.stagingRead (s : State) (d t : Nat) : BusResult × State :=
  if !isEB t then (.data 0#32, s)
  else if (match entryBlk t with
    | some b => s.secureReg b t
    | none => false) && !s.domSecure d then (.error .ownership, s)
  else (.data (s.shadow t), s)

/-- The ownership check of a staging write (R58): domain 0 may stage into any block. An offset at which no register or
memory word is documented has no owner to be checked against, and the write is left to NO_EPOCH and NOT_EB (DESIGN
CHOICE; log entry 92). -/
def State.mayStage (s : State) (d t : Nat) : Bool :=
  d == 0 || (match descWord t, locate t with
    | some (n, m, _), _ => s.owns d (R.LE_OWNER n m) && (s.domSecure d || !s.ownerSec (R.LE_OWNER n m))
    | _, some (b, o) => (match b.row o with
      | some r => s.mayWriteReg d b r t
      | none => true)
    | _, none => (match stateWord t with
      | some (n, m, _) => s.owns d (R.LE_OWNER n m) && (s.domSecure d || !s.ownerSec (R.LE_OWNER n m))
      | none => true))

/-- A staging write to an engine that drops every write (R111). -/
def State.stagingDrops (s : State) (t : Nat) : Bool :=
  match stateWord t, entryBlk t with
  | some (n, m, _), _ => s.engineDrops (.le n m)
  | none, some b => s.engineDrops b
  | none, none => false

/-- A read of a place by domain `d`, size and alignment being right. -/
def State.readPlace (s : State) (m : Master) (d a n : Nat) : Place → BusResult × State
  | .ram x => s.ramRead x n
  | .flash x =>
    match s.flashRead x n with
    | (some v, t) => (.data (w32 v), t)
    | (none, t) => (.error .ecc, t)
  | .queueRam x => if d = 0 then s.ramRead x n else (.error .ownership, s)
  | .exchange w => s.xmReadStamped d (s.xmPort m) w
  | .snapshot x => s.snapshotRead d x
  | .engineMem i e x =>
    if s.islandGone m a then (.error .islandOff, s)
    else if s.ownerSec (R.LE_OWNER i e) && !s.domSecure d then (.error .ownership, s)
    else s.ramRead x 4
  | .register b r x =>
    if s.islandGone m a then (.error .islandOff, s)
    else if !s.mayReadReg d b x then (.error .ownership, s)
    else match portOf x with
      | some (dom, p) =>
        if x = R.QP_PUSH dom p then (match s.portPush dom p with
          | (v, t) => (.data v, t))
        else if x = R.QP_POP dom p then (match s.portPop dom p with
          | (v, t) => (.data v, t))
        else (.data (s.reg x), s)
      | none =>
        if R.CAL_BRAMw 0 ≤ x ∧ x < R.CAL_BRAMw 1024 ∧ s.eccBad x = true then (.error .ecc, s.eccAccess x)
        else match s.readReg b r x d with
          | (v, t) => (.data v, if R.CAL_BRAMw 0 ≤ x ∧ x < R.CAL_BRAMw 1024 then t.eccRead x else t)
  | .staging t => if s.islandGone m a then (.error .islandOff, s) else s.stagingRead d t
  | .bootRom x => (.data (w32 (leNat ((List.range n).map (fun i => Config.bootRom (x - 0xF0000000 + i))))), s)

/-- A write to a place by domain `d`, size and alignment being right. -/
def State.writePlace (s : State) (m : Master) (d a n : Nat) (v : Word) : Place → BusResult × State
  | .ram x => s.sramWrite m x n v
  | .flash _ => (.error .blockRefused, s)
  | .queueRam x => if d = 0 then s.ramWrite x n v else (.error .ownership, s)
  | .exchange w => s.xmWrite d (s.xmPort m) w [v]
  | .snapshot x => s.snapshotWrite d x v
  | .engineMem i e x =>
    if s.islandGone m a then (.error .islandOff, s)
    else if !s.owns d (R.LE_OWNER i e) || (s.ownerSec (R.LE_OWNER i e) && !s.domSecure d) then (.error .ownership, s)
    else if s.engineDrops (.le i e) then (.done, s)
    else if (descWord x).isSome then (.done, s.ebWrite x v)
    else (.done, s.setMword x v)
  | .register b r x =>
    if s.islandGone m a then (.error .islandOff, s)
    else if !s.mayWriteReg d b r x then (.error .ownership, s.refusedWrite b x)
    else s.writeReg d b r x v
  | .staging t =>
    if s.islandGone m a then (.error .islandOff, s)
    else if !s.mayStage d t then (.error .ownership, s)
    else if s.stagingDrops t then (.done, s)
    else (.done, s.stagingWrite d a t v)
  | .bootRom _ => (.error .blockRefused, s)

/-- A read of `n` bytes at an address by a master in domain `d`: a transfer on the interconnect (R445) with checks 2 to 4
of R5 in their order. -/
def State.readAs (s : State) (m : Master) (d a n : Nat) : BusResult × State :=
  s.overPath a (fun s => match s.place m a with
    | none => (.error .unreachable, s)
    | some p => if sizeOk p a n then s.readPlace m d a n p else (.error .size, s))

/-- A write, as `readAs`. -/
def State.writeAs (s : State) (m : Master) (d a n : Nat) (v : Word) : BusResult × State :=
  s.overPath a (fun s => match s.place m a with
    | none => (.error .unreachable, s)
    | some p => if sizeOk p a n then s.writePlace m d a n v p else (.error .size, s))

/-- A read by a master in its own domain (R17). -/
def State.busRead (s : State) (m : Master) (a n : Nat) : BusResult × State := s.readAs m (s.domainOf m) a n

/-- A write by a master in its own domain. -/
def State.busWrite (s : State) (m : Master) (a n : Nat) (v : Word) : BusResult × State := s.writeAs m (s.domainOf m) a n v

/-- Bytes of an access size. -/
def sizeBytes : AccSize → Nat
  | .byte => 1
  | .half => 2
  | .word => 4

end Sys2Proof.Machine
end

