-- ==== Sys2Proof/Machine/Access.lean ====
section
/-!
DEFINITION. Accesses as a master sees them (R13, R318, R432): which masters make accesses now, the response, what the
host port and a control core do with an error.
-/
namespace Sys2Proof.Machine
open Sys2Proof

/-- Does a master make accesses now? Nothing does while the device sleeps; cores issue while R468 lets them; the host
needs its link. -/
def State.acts (s : State) : Master → Bool
  | .core _ => s.coresGo
  | .host => s.hostUp
  | _ => s.awake

/-- The host port completes a refused access (R432): the address goes to HP_ERR_ADDR, a flag sets. -/
def State.hostRefused (s : State) (a flag : Nat) : State := (s.flag R.HP_STATUS flag).setReg R.HP_ERR_ADDR (w32 a)

/-- CAUSE of the exception that an error response raises in a core (R317). -/
def BusErr.cause : BusErr → Nat
  | .misaligned => 2
  | .ownership => 5
  | _ => 3

/-- A store of core `n` has ended in an error: the exception waits for the next issue boundary (R318). -/
def State.deferFault (s : State) (n a cause : Nat) : State :=
  let r := s.coreRec n
  if s.coreRun n = 1 then
    (s.setCoreRec n { r with deferred := r.deferred ++ [(w32 a, cause)] }).enqueue [.storeFaultDeferred (Fin.ofNat 8 n)]
  else s

/-- The master's own alignment check, before it issues an access (R5 check 1): a core's (R288) and the host port's (R432).
A DMA channel has checked its descriptor (R348). -/
def ownCheck (m : Master) (a n : Nat) : Bool :=
  match m with
  | .core _ => a % n == 0
  | .host => n == 4 && a % 4 == 0
  | _ => true

/-- A read by a master, with the response it gets. -/
def State.masterRead (s : State) (m : Master) (a n : Nat) : BusResult × State :=
  if ownCheck m a n then
    match m, s.busRead m a n with
    | .host, (.error _, t) => (.data 0#32, t.hostRefused a 0)
    | _, x => x
  else match m with
    | .host => (.data 0#32, s.hostRefused a 2)
    | _ => (.error .misaligned, s)

/-- A write by a master, with the response it gets. -/
def State.masterWrite (s : State) (m : Master) (a n : Nat) (v : Word) : BusResult × State :=
  if ownCheck m a n then
    match m, s.busWrite m a n v with
    | .host, (.error _, t) => (.done, t.hostRefused a 1)
    | .core c, (.error e, t) => (.error e, t.deferFault (t.leadCore c.val) a e.cause)
    | _, x => x
  else match m with
    | .host => (.done, s.hostRefused a 2)
    | _ => (.error .misaligned, s)

end Sys2Proof.Machine
end

