-- ==== Sys2Proof/Machine/Snapshots.lean ====
section
/-!
DEFINITION. A capture (R75, R76, R79): what each pair reads, and the values' way to the snapshot memory.
-/
namespace Sys2Proof.Machine
open Sys2Proof

/-- Does an island answer a capture: powered and synchronised (R75)? -/
def State.captures (s : State) (a : Nat) : Bool :=
  match islandOf a with
  | some n => s.islandRuns n && s.synced n
  | none => true

/-- A capture of a memory word that holds `v`: one in error fails the pair (R338). -/
def State.captureWord (s : State) (a : Nat) (v : Word) : Option Word × State :=
  if s.eccBad a then (none, s.eccAccess a) else (some v, s.eccRead a)

/-- The value of a register as a capture reads it: nothing latches, nothing clears, a high shadow gives the live high
word (R76). -/
def State.captureReg (s : State) (d : Nat) (b : Blk) (r : RegRow) (a : Nat) : Option Word × State :=
  if (portOf a).isSome || (mailboxOf a).isSome || b == .fl || !s.mayReadReg d b a then (none, s)
  else if R.CAL_BRAMw 0 ≤ a ∧ a < R.CAL_BRAMw 1024 then s.captureWord a (s.live b a d)
  else if r.access == .wo then (some 0#32, s)
  else match b, gpioWord a with
    | .pm, some k => (match s.gpioIn k with
      | (v, t) => (some v, t))
    | _, _ => (some (s.live b a d), s)

/-- What the pair of an address word captures for domain `d`; none where the capture fails (R75). -/
def State.captureOne (s : State) (d : Nat) (w : Word) : Option Word × State :=
  let a := w.toNat / 4 * 4
  if 0x28000000 ≤ a ∧ a < 0x28010000 then
    let x := (a - 0x28000000) / 4
    if (s.xmRefusal d x false).isSome then (none, s)
    else if s.eccBad a then (none, s.eccAccess a)
    else (some (if bit w 0 then (s.xmSees snapPort x).2 else (s.xmSees snapPort x).1), s.eccRead a)
  else if a < 0x40000000 ∨ 0x5E000000 ≤ a ∨ s.captures a = false then (none, s)
  else match aliasTarget a with
    | some t =>
      let t := s.routed t
      if !isEB t then (none, s)
      else match s.stagingRead d t with
        | (.data v, _) => (some v, s)
        | _ => (none, s)
    | none =>
      match s.mapped a with
      | some (.engineMem n m x) =>
        if s.ownerSec (R.LE_OWNER n m) && !s.domSecure d then (none, s) else s.captureWord x (s.mword x)
      | some (.register b r x) => s.captureReg d b r x
      | _ => (none, s)

/-- The listed pairs in order, with the values that stand at one instant. -/
def State.captureAll (s : State) (d : Nat) : Nat → List Word → List (Nat × Word × Bool) × State
  | _, [] => ([], s)
  | i, w :: r =>
    let (v, t) := s.captureOne d w
    let (l, t) := t.captureAll d (i + 1) r
    ((i, v.getD 0#32, v.isNone) :: l, t)

/-- SNAPSHOT_CAPTURE (R79): the beat of the pending capture has come. -/
def State.snapCapture (s : State) : State :=
  if s.rb R.SN_STATE 31 && !s.snap.rejected && serialGe s.clk.beat s.snap.armedAt then
    let (l, t) := s.captureAll (s.ownerDom R.SN_OWNER) 0 s.snap.list
    ((t.setRb R.SN_STATE 31 false).setRb R.SN_STATE 30 true).setSnap { t.snap with captured := l }
  else s

def execSnapshotCapture (s : State) : Host.Outcome State Fault Refusal := .next s.snapCapture

/-- SCHEDULED_SNAP (R423): the capture is taken at its beat N, in the place of R39. -/
def State.schedSnap (s : State) : State :=
  match s.schedDue 3 with
  | some x =>
    let s := s.schedDone x
    if s.snapBusy then s.flag R.SN_STATUS 4
    else if !s.rb R.SN_STATE 28 then s.flag R.SN_STATUS 5
    else (((s.setRb R.SN_STATE 31 true).setRb R.SN_STATE 29 false).setSnap { s.snap with
      armedAt := s.clk.beat, rejected := false }).snapCapture
  | none => s

def execScheduledSnap (s : State) : Host.Outcome State Fault Refusal := .next s.schedSnap

/-- The value of a pair reaches its word; bit 1 of the address word tells whether the capture failed (R75). -/
def State.fillPair (s : State) (p : Nat × Word × Bool) : State :=
  let a := pairAddr p.1
  (s.setMword a (setBit (s.mword a) 1 p.2.2)).setMword (a + 4) p.2.1

/-- SNAPSHOT_FILL_DONE (R79): the values stand in the snapshot memory. -/
def State.snapFilled (s : State) : State :=
  if !s.rb R.SN_STATE 30 then s
  else
    let bad := (s.snap.captured.filter (fun p => p.2.2)).length
    let t := s.snap.captured.foldl State.fillPair s
    let t := ((t.setRb R.SN_STATE 30 false).setRb R.SN_STATE 29 true).setRf R.SN_STATE 13 0 bad
    let t := (t.setReg R.SN_BEAT_LO (lo64 s.snap.armedAt.toNat)).setReg R.SN_BEAT_HI (hi64 s.snap.armedAt.toNat)
    let t := if bad = 0 then t else t.flag R.SN_STATUS 2
    (t.setSnap { t.snap with captured := [] }).fireCentral 322

def execSnapshotFillDone (s : State) : Host.Outcome State Fault Refusal := .next s.snapFilled

end Sys2Proof.Machine
end

