-- ==== Sys2Proof/Machine/MbCommands.lean ====
section
/-!
DEFINITION. What Ottar does for the commands of R392 to R394, R396 and R397, but for recipes and firmware.
-/
namespace Sys2Proof.Machine
open Sys2Proof

/-! ### Ottar's accesses (R389, R391) -/

/-- STATUS of a command whose access ended in an error. -/
def errStatus : BusErr → Nat
  | .ownership => stDenied
  | _ => stAccessError

/-- Writes of Ottar in domain `d`, in order, up to the first error: its index. -/
def State.mpWrites (s : State) (d i : Nat) : List (Nat × Word) → Option (Nat × BusErr) × State
  | [] => (none, s)
  | (a, v) :: r =>
    match s.writeAs .mp d a 4 v with
    | (.error e, t) => (some (i, e), t)
    | (_, t) => t.mpWrites d (i + 1) r

/-- Reads of Ottar in domain `d`, in order, up to the first error: the words read, the error. -/
def State.mpReads (s : State) (d : Nat) : List Nat → List Word × Option BusErr × State
  | [] => ([], none, s)
  | a :: r =>
    match s.readAs .mp d a 4 with
    | (.data v, t) =>
      let (l, e, t) := t.mpReads d r
      (v :: l, e, t)
    | (.error e, t) => ([], some e, t)
    | (.done, t) => ([], none, t)

/-- Answer with words read, or with the error of an access and the words before it. -/
def State.mbReads (s : State) (r : MbRequest) (d : Nat) (l : List Nat) : State :=
  match s.mpReads d l with
  | (ws, none, t) => t.mbOk r ws
  | (ws, some e, t) => t.mbRespond r (errStatus e) (w32 ws.length) ws

/-- Make writes, then answer by `k`; the error of an access fails the command. -/
def State.mbWrites (s : State) (r : MbRequest) (d : Nat) (l : List (Nat × Word)) (k : State → State) : State :=
  match s.mpWrites d 0 l with
  | (none, t) => k t
  | (some (i, e), t) => t.mbFail r (errStatus e) i

/-- Word `i` of a payload. -/
def MbRequest.w (r : MbRequest) (i : Nat) : Word := r.payload.getD i 0#32

/-- The 64-bit value in words `i`, `i + 1` of a payload. -/
def MbRequest.w64 (r : MbRequest) (i : Nat) : BitVec 64 := BitVec.ofNat 64 (pair64 (r.w (i + 1)) (r.w i))

/-- Status flags of a block, as INFO of SCHEDULE_REFUSED. -/
def State.scFlags (s : State) (a : Nat) : Nat := s.rf a 22 0

def lenIs (n : Nat) : Nat → Bool := fun l => l == n

/-- The domain of the requester. -/
def State.asker (s : State) (r : MbRequest) : Nat := s.mbClient r.mb

/-! ### The default measurement (R483, R484) -/

/-- The writes that set up and start the default measurement of an island. -/
def measureWrites (n : Nat) : List (Nat × Word) :=
  let core := fun c => [(R.AC_MODE n c, 0x00400030#32), (R.AC_TRIG n c, 0x00008030#32)]
    ++ (List.range 4).map (fun e => (R.AC_ENTRYi n c e, w32 (at_ 25 16 + 4 * c + e)))
  let header := fun c => [(descAddr n 5 (4 * c), w32 (0xA2 + at_ 1 8 + at_ 3 12)), (descAddr n 5 (4 * c + 1), w32 (0x8000 + 16 * c)),
    (descAddr n 5 (4 * c + 2), w32 (0x7F80 + 8 * n + 4 * c)), (descAddr n 5 (4 * c + 3), 0#32)]
  [(R.TU_CFG n 3, 0#32), (R.TU_PERIOD n 3, 12500#32)] ++ core 0 ++ core 1 ++ header 0 ++ header 1
    ++ [(R.LE_CTXc_TRIG n 5 0, 62#32), (R.LE_CTXc_CHAIN n 5 0, 0x00001000#32), (R.LE_CTXc_WAIT_AC n 5 0, 0x000F000F#32),
      (R.FI_PNp_CFG n 62, 0x00000090#32), (R.FI_PNp_CTRL n 62, 0x80000000#32), (R.LE_RUN n 5, 1#32),
      (R.AC_CTRL n 0, 0x80000000#32), (R.AC_CTRL n 1, 0x80000000#32), (R.TU_CTRL n 3, 0x80000000#32)]

/-- Start the default measurement of an island. -/
def State.measureStart (s : State) (n : Nat) : State :=
  let t := (s.mpWrites 0 0 (measureWrites n)).2
  t.setMp { t.mp with measuring := t.mp.measuring ++ [n] }

/-- Is the register one that the end of the measurement returns to its reset value? Calibration factors are kept. -/
def measureReg (n a : Nat) : Bool :=
  match locate a with
  | some (b, o) =>
    (b == .le n 5 || b == .tu n 3 || ((b == .ac n 0 || b == .ac n 1) && decide (o < 0x80)))
      && o != 0 && (match b.row o with
        | some r => r.access == .ow || r.access == .eb
        | none => false)
  | none => false

/-- End the default measurement of an island, if it runs. -/
def State.measureEnd (s : State) (n : Nat) : State :=
  if !s.mp.measuring.contains n then s
  else
    let s := s.setMp { s.mp with measuring := s.mp.measuring.filter (fun k => k != n) }
    let s := s.leRunWrite n 5 0#32
    let s := if s.tuRunning n 3 then s.tuStop n 3 true else s.setTu n 3 { s.tu n 3 with startIn := none }
    let s := (s.acCtrlWrite n 0 0#32).acCtrlWrite n 1 0#32
    { s with regs := s.regs.clear (measureReg n) }

/-- The island whose default measurement uses the block or pennant at an address. -/
def measureUse (a : Nat) : Option Nat :=
  match islandOf a, descWord a, stateWord a, locate a with
  | some n, some (_, m, _), _, _ => if m = 5 then some n else none
  | some n, _, some (_, m, _), _ => if m = 5 then some n else none
  | some n, _, _, some (.le _ m, _) => if m = 5 then some n else none
  | some n, _, _, some (.tu _ k, _) => if k = 3 then some n else none
  | some n, _, _, some (.ac _ _, _) => some n
  | some n, _, _, some (.fi _, o) => if 0x13E0 ≤ o ∧ o < 0x13F0 then some n else none
  | _, _, _, _ => none

/-! ### SYS (R392) -/

/-- The device's serial number as two words. -/
def serialWords : List Word := [lo64 Config.serialNumber, hi64 Config.serialNumber]

/-- SYS_IDENT. No Ottar runs in recovery: its version and slot are open. -/
def State.sysIdent (s : State) (mb : Nat) : State :=
  s.mbRun mb 0x0101 (lenIs 0) (fun r s =>
    let fam := [R.SYS_FAMILY0, R.SYS_FAMILY1, R.SYS_FAMILY2, R.SYS_FAMILY3].map s.reg
    let (v, s) := if s.mp.recovery then s.free else (Config.ottarVersion, s)
    let (b, s) := if s.mp.recovery then s.freeBit else (s.mp.slotB, s)
    s.mbOk r (fam ++ [v, w32 (at_ s.mp.rollback 16 + b2n b)] ++ serialWords))

def execSysIdent (mb : Fin 1024) (s : State) : Host.Outcome State Fault Refusal := .next (s.sysIdent mb.val)

/-- SYS_STATE. -/
def State.sysStateCmd (s : State) (mb : Nat) : State :=
  s.mbRun mb 0x0102 (lenIs 0) (fun r s =>
    s.mbOk r [s.mbLoadView, w32 s.openRecords.length, w32 (at_ s.mp.autostart 28), s.mp.autoId, lo64 s.clk.beat.toNat,
      hi64 s.clk.beat.toNat])

def execSysState (mb : Fin 1024) (s : State) : Host.Outcome State Fault Refusal := .next (s.sysStateCmd mb.val)

/-- SYS_SAFE: the units of the named islands that the requester owns, or all of them. -/
def State.sysSafe (s : State) (mb : Nat) : State :=
  s.mbRun mb 0x0103 (lenIs 4) (fun r s =>
    let l := s.liveUnits.filter (fun u => bit (r.w 0) u.1 && (bit (r.w 0) 31 || s.owns (s.asker r) (R.TU_OWNER u.1 u.2)))
    (s.holdUnits l 20).mbOk r [w32 l.length])

def execSysSafe (mb : Fin 1024) (s : State) : Host.Outcome State Fault Refusal := .next (s.sysSafe mb.val)

/-- SYS_RESET: a device reset follows the response. -/
def State.sysReset (s : State) (mb : Nat) : State :=
  s.mbRun mb 0x0104 (fun l => l == 4 || l == 8) (fun r s =>
    if (r.w 0).toNat = 1 then
      if r.payload.length = 2 then ((maskIslands (r.w 1)).foldl (fun t n => t.islandReset n) s).mbOk r []
      else s.mbFail r stBadLength 0
    else if (r.w 0).toNat = 2 then
      let r' := { r with phase := 1 }
      (s.mbSet r r').mbOk r' []
    else s.mbFail r stBadArg 0)

def execSysReset (mb : Fin 1024) (s : State) : Host.Outcome State Fault Refusal := .next (s.sysReset mb.val)

/-! ### CFG (R393) -/

/-- CFG_READ. -/
def State.cfgRead (s : State) (mb : Nat) : State :=
  s.mbRun mb 0x0201 (lenIs 8) (fun r s =>
    let n := (r.w 1).toNat
    if n = 0 ∨ 16383 < n then s.mbFail r stBadArg 4
    else s.mbReads r (s.mbActs r) ((List.range n).map (fun i => (r.w 0 + w32 (4 * i)).toNat)))

def execCfgRead (mb : Fin 1024) (s : State) : Host.Outcome State Fault Refusal := .next (s.cfgRead mb.val)

/-- Pairs of address and value. -/
def pairsOf : List Word → List (Nat × Word)
  | a :: v :: r => (a.toNat, v) :: pairsOf r
  | _ => []

/-- CFG_WRITE. -/
def State.cfgWrite (s : State) (mb : Nat) : State :=
  s.mbRun mb 0x0202 (fun l => l % 8 == 0 && decide (8 ≤ l) && decide (l ≤ 8 * 8191)) (fun r s =>
    s.mbWrites r (s.mbActs r) (pairsOf r.payload) (fun t => t.mbOk r []))

def execCfgWrite (mb : Fin 1024) (s : State) : Host.Outcome State Fault Refusal := .next (s.cfgWrite mb.val)

/-- Numbers of a kind of resource: the lowest, and one more than the highest. -/
def resourceRange (kind : Nat) : Nat × Nat :=
  match kind with
  | 1 => (2048, 65536)
  | 2 => (0, 1024)
  | 3 => (0, 64)
  | 4 => (0, 256)
  | 5 => (0, 16)
  | 6 => (0, 128)
  | 7 => (0, 64)
  | _ => (0, 1024)

/-- Kinds that lie in an island. -/
def islandKind (kind : Nat) : Bool := kind == 3 || kind == 5

/-- Can a resource be handed out? The default measurement keeps its pennant. -/
def State.resourceFree (s : State) (kind island num : Nat) : Bool :=
  (match resourceOwner kind island num with
    | some a => s.resourceDom kind a == 0
    | none => false)
  && !s.mp.allocated.contains (kind, island, num) && !(kind == 3 && num == 62 && s.mp.measuring.contains island)

/-- The lowest `n` resources that can be handed out. Every other one is listed somewhere in the state. -/
def State.resourcesFree (s : State) (kind island n : Nat) : List Nat :=
  let (lo, hi) := resourceRange kind
  (((List.range (n + s.mp.allocated.length + s.regs.length + 1)).map (fun i => lo + i)).filter (fun k =>
    decide (k < hi) && s.resourceFree kind island k)).take n

/-- The write that gives a resource to a domain: a queue, pennant, hoist, set or channel through its ownership register,
a frame through the fields that stand in for it (R20, R27). -/
def State.ownWrite (s : State) (kind island num dom sec : Nat) : List (Nat × Word) :=
  match resourceOwner kind island num with
  | some a => [(a, if kind = 8 then setFld (setFld (s.reg a) 30 30 sec) 29 26 dom else w32 (16 * sec + dom))]
  | none => []

/-- CFG_ALLOC. -/
def State.cfgAlloc (s : State) (mb : Nat) : State :=
  s.mbRun mb 0x0203 (lenIs 16) (fun r s =>
    let kind := (r.w 0).toNat
    let n := (r.w 1).toNat
    let island := if islandKind kind then (r.w 2).toNat else 0
    if kind = 0 ∨ 8 < kind then s.mbFail r stBadArg 0
    else if n = 0 ∨ 256 < n then s.mbFail r stBadArg 4
    else if 16 ≤ island then s.mbFail r stBadArg 8
    else
      let l := s.resourcesFree kind island n
      if l.length < n then s.mbFail r stNoSpace 0
      else s.mbWrites r 0 (l.flatMap (fun k => s.ownWrite kind island k (fld (r.w 3) 3 0) (fld (r.w 3) 4 4))) (fun t =>
        (t.setMp { t.mp with allocated := t.mp.allocated ++ l.map (fun k => (kind, island, k)) }).mbOk r (l.map w32)))

def execCfgAlloc (mb : Fin 1024) (s : State) : Host.Outcome State Fault Refusal := .next (s.cfgAlloc mb.val)

/-- CFG_FREE: Ottar returns the resources to domain 0. -/
def State.cfgFree (s : State) (mb : Nat) : State :=
  s.mbRun mb 0x0204 (fun l => decide (8 ≤ l)) (fun r s =>
    let kind := (r.w 0).toNat
    let island := if islandKind kind then (r.w 1).toNat else 0
    let l := (r.payload.drop 2).map (fun w => w.toNat)
    let (lo, hi) := resourceRange kind
    if kind = 0 ∨ 8 < kind then s.mbFail r stBadArg 0
    else if 16 ≤ island then s.mbFail r stBadArg 4
    else match (List.range l.length).find? (fun i => decide (l.getD i 0 < lo) || decide (hi ≤ l.getD i 0)) with
    | some i => s.mbFail r stBadArg (8 + 4 * i)
    | none => s.mbWrites r 0 (l.flatMap (fun k => s.ownWrite kind island k 0 1)) (fun t =>
        (t.setMp { t.mp with allocated := t.mp.allocated.filter (fun x =>
          !(x.1 == kind && x.2.1 == island && l.contains x.2.2)) }).mbOk r []))

def execCfgFree (mb : Fin 1024) (s : State) : Host.Outcome State Fault Refusal := .next (s.cfgFree mb.val)

/-- Is the address that of an ownership register (R20)? -/
def State.isOwnerReg (s : State) (a : Nat) : Bool :=
  a % 4 == 0 && (match s.mapped a with
    | some (.register b _ x) => x == ownerReg b x
    | _ => false)

/-- CFG_ASSIGN. -/
def State.cfgAssign (s : State) (mb : Nat) : State :=
  s.mbRun mb 0x0205 (lenIs 8) (fun r s =>
    let a := (r.w 0).toNat
    if !s.isOwnerReg a then s.mbFail r stBadArg 0
    else
      let s := match measureUse a with
        | some n => s.measureEnd n
        | none => s
      s.mbWrites r 0 [(a, r.w 1)] (fun t => t.mbOk r []))

def execCfgAssign (mb : Fin 1024) (s : State) : Host.Outcome State Fault Refusal := .next (s.cfgAssign mb.val)

/-- Configure the queues of a mailbox (R376), or take them out of use. -/
def State.mailboxSet (s : State) (mb : Nat) (cfg : Word) : State :=
  let en := bit cfg 31
  let c := fld cfg 19 16
  let own := w32 (16 * fld cfg 30 30)
  let q := fun log2 p k => if en then w32 (2 ^ 31 + at_ log2 24 + at_ p 20 + at_ k 16) else 0#32
  let s := s.setReg (R.MB_MBm_CFG mb) (cfg &&& 0xC00F0F0F#32)
  let s := (s.qOwnWrite (2 * mb) own).qCfgWrite (2 * mb) (q (fld cfg 11 8) c 0)
  let s := (s.qOwnWrite (2 * mb + 1) own).qCfgWrite (2 * mb + 1) (q (fld cfg 3 0) 0 c)
  if en then s else s.setMp { s.mp with requests := s.mp.requests.filter (fun x => x.mb != mb) }

/-- Cells that the queues of a mailbox hold now. -/
def State.mailboxCells (s : State) (mb : Nat) : Nat := (s.queue (2 * mb)).cells.length + (s.queue (2 * mb + 1)).cells.length

/-- CFG_MAILBOX. -/
def State.cfgMailbox (s : State) (mb : Nat) : State :=
  s.mbRun mb 0x0206 (lenIs 8) (fun r s =>
    let m := (r.w 0).toNat
    let cfg := r.w 1
    if (0 < m ∧ m < 16) ∨ 1024 ≤ m then s.mbFail r stBadArg 0
    else if 12 < fld cfg 11 8 ∨ 12 < fld cfg 3 0 then s.mbFail r stBadArg 4
    else if bit cfg 31 = true ∧ s.freeCells + s.mailboxCells m < 2 ^ fld cfg 11 8 + 2 ^ fld cfg 3 0 then s.mbFail r stNoSpace 0
    else
      let t := s.mailboxSet m cfg
      t.mbOk r [t.mbView (R.MB_MBm_REQ m), t.mbView (R.MB_MBm_RSP m)])

def execCfgMailbox (mb : Fin 1024) (s : State) : Host.Outcome State Fault Refusal := .next (s.cfgMailbox mb.val)

/-! ### EPOCH (R394) -/

/-- EPOCH_OPEN: the read of EP_OPEN in the requester's domain. -/
def State.epochOpen (s : State) (mb : Nat) : State :=
  s.mbRun mb 0x0301 (lenIs 0) (fun r s =>
    let (v, t) := s.epOpen (s.asker r)
    if v = 0#32 then t.mbFail r stScheduleRefused (t.scFlags R.EP_STATUS) else t.mbOk r [v])

def execEpochOpen (mb : Fin 1024) (s : State) : Host.Outcome State Fault Refusal := .next (s.epochOpen mb.val)

/-- The slot of an epoch that a command names by its ID, for its opener. -/
def State.mbEpoch (s : State) (r : MbRequest) (act : Nat → State → State) : State :=
  match s.slotOfId (r.w 0).toNat with
  | none => s.mbFail r stNotFound 0
  | some i => if s.slotOpener i = s.asker r then act i s else s.mbFail r stDenied 0

/-- EPOCH_STAGE: an epoch that is not OPEN cannot be staged. -/
def State.epochStage (s : State) (mb : Nat) : State :=
  s.mbRun mb 0x0302 (lenIs 4) (fun r s => s.mbEpoch r (fun i s =>
    if s.slotState i = 1 then (s.epStage i).mbOk r [] else s.mbFail r stScheduleRefused (s.scFlags R.EP_STATUS)))

def execEpochStage (mb : Fin 1024) (s : State) : Host.Outcome State Fault Refusal := .next (s.epochStage mb.val)

/-- A haul-down request of Ottar in domain `d`: EP_POLICY first; `none` for W + 2. Answers whether it is taken. -/
def State.mpHaul (s : State) (d i : Nat) (asap : Bool) (n : Option (BitVec 64)) : Bool × State :=
  let s := s.setDomReg R.EP_POLICY d (w32 (b2n asap))
  let t := s.haulRequest d i n
  (s.slotState i == 2 && t.slotState i == 3, t)

/-- W and EP_SLOTs_STATE. -/
def State.haulWords (s : State) (i : Nat) : List Word :=
  [lo64 s.clk.beat.toNat, hi64 s.clk.beat.toNat, s.reg (R.EP_SLOTs_STATE i)]

/-- EPOCH_HAUL. -/
def State.epochHaul (s : State) (mb : Nat) : State :=
  s.mbRun mb 0x0303 (lenIs 16) (fun r s => s.mbEpoch r (fun i s =>
    let (ok, t) := s.mpHaul (s.asker r) i (bit (r.w 1) 0) (if bit (r.w 1) 1 then none else some (r.w64 2))
    if ok then t.mbOk r (t.haulWords i) else t.mbFail r stScheduleRefused (t.scFlags R.EP_STATUS)))

def execEpochHaul (mb : Fin 1024) (s : State) : Host.Outcome State Fault Refusal := .next (s.epochHaul mb.val)

/-- EPOCH_ABANDON. -/
def State.epochAbandon (s : State) (mb : Nat) : State :=
  s.mbRun mb 0x0304 (lenIs 4) (fun r s => s.mbEpoch r (fun i s =>
    let t := s.epAbandon (s.asker r) i
    if t.slotState i = 5 then t.mbOk r [] else t.mbFail r stScheduleRefused (t.scFlags R.EP_STATUS)))

def execEpochAbandon (mb : Fin 1024) (s : State) : Host.Outcome State Fault Refusal := .next (s.epochAbandon mb.val)

/-- EPOCH_STATUS. -/
def State.epochStatus (s : State) (mb : Nat) : State :=
  s.mbRun mb 0x0305 (lenIs 0) (fun r s => s.mbOk r ((List.range 4).flatMap (fun i =>
    [s.reg (R.EP_SLOTs_STATE i), s.reg (R.EP_SLOTs_ENTRIES i), s.reg (R.EP_SLOTs_RESULT i), s.slotPending i])))

def execEpochStatus (mb : Fin 1024) (s : State) : Host.Outcome State Fault Refusal := .next (s.epochStatus mb.val)

/-! ### CAL (R396) -/

/-- Converter cores of a mask, ascending. -/
def maskCores (v : Word) : List Nat := indicesWhere 32 (fun i => bit v i)

/-- A mask of cores. -/
def coreMask (l : List Nat) : Word := wordOfBits (fun i => l.contains i)

/-- CAL_RUN: start every named core; those that start are kept in word 0, those refused in word 1. -/
def State.calRun (s : State) (mb : Nat) : State :=
  s.mbRun mb 0x0501 (lenIs 4) (fun r s =>
    let d := s.mbActs r
    let (on, t) := (maskCores (r.w 0)).foldl (fun (x : List Nat × State) i =>
      let was := x.2.rb (R.AC_CAL (i / 2) (i % 2)) 30
      let t := (x.2.writeAs .mp d (R.AC_CAL (i / 2) (i % 2)) 4 0x80000000#32).2
      (if t.rb (R.AC_CAL (i / 2) (i % 2)) 30 && !was then x.1 ++ [i] else x.1, t)) ([], s)
    t.mbSet r { r with phase := 1, keep := [coreMask on, r.w 0 &&& ~~~ coreMask on] })

def execCalRun (mb : Fin 1024) (s : State) : Host.Outcome State Fault Refusal := .next (s.calRun mb.val)

/-- The registers that CAL_SAVE returns for a core. -/
def calRegs (i : Nat) : List Nat :=
  [R.AC_CAL (i / 2) (i % 2)] ++ (List.range 4).map (fun g => R.AC_CAL_GAINg (i / 2) (i % 2) g)
    ++ (List.range 8).map (fun k => R.AC_CAL_LINk (i / 2) (i % 2) k)

/-- CAL_SAVE. -/
def State.calSave (s : State) (mb : Nat) : State :=
  s.mbRun mb 0x0502 (lenIs 4) (fun r s => s.mbReads r (s.mbActs r) ((maskCores (r.w 0)).flatMap calRegs))

def execCalSave (mb : Fin 1024) (s : State) : Host.Outcome State Fault Refusal := .next (s.calSave mb.val)

/-- The writes of CAL_RESTORE: the factors of each core; its AC_CAL word is passed over. -/
def factorWrites : List Nat → List Word → List (Nat × Word)
  | [], _ => []
  | i :: r, ws => ((calRegs i).drop 1).zip ((ws.drop 1).take 12) ++ factorWrites r (ws.drop 13)

/-- CAL_RESTORE. -/
def State.calRestore (s : State) (mb : Nat) : State :=
  s.mbRun mb 0x0503 (fun l => decide (4 ≤ l)) (fun r s =>
    let l := maskCores (r.w 0)
    if r.payload.length ≠ 1 + 13 * l.length then s.mbFail r stBadLength 0
    else s.mbWrites r (s.mbActs r) (factorWrites l (r.payload.drop 1)) (fun t => t.mbOk r []))

def execCalRestore (mb : Fin 1024) (s : State) : Host.Outcome State Fault Refusal := .next (s.calRestore mb.val)

/-! ### TUNE (R154, R155, R396) -/

/-- State word `k` of the tuning stage that a request names. -/
def State.tuneAddr (s : State) (r : MbRequest) (k : Nat) : Nat :=
  s.routed (stateAddr ((r.w 0).toNat / 6) ((r.w 0).toNat % 6) ((r.w 1).toNat + k))

/-- A CSEQ that is neither the last one sent nor the last one handled. -/
def State.newCseq (s : State) (r : MbRequest) : Nat :=
  let last := fld (s.mword (s.tuneAddr r 0)) 31 16
  let next := (last + 1) % 65536
  if next = fld (s.mword (s.tuneAddr r 1)) 31 16 then (next + 1) % 65536 else next

/-- The checks of a TUNE command; `act` runs when they pass. -/
def State.tuneChecked (s : State) (r : MbRequest) (act : State → State) : State :=
  if 96 ≤ (r.w 0).toNat then s.mbFail r stBadArg 0
  else if 8192 < (r.w 1).toNat + 12 then s.mbFail r stBadArg 4
  else if !s.islandReachable ((r.w 0).toNat / 6) then s.mbFail r stAccessError 0
  else if !s.owns (s.asker r) (R.LE_OWNER ((r.w 0).toNat / 6) ((r.w 0).toNat % 6))
      || (s.ownerSec (R.LE_OWNER ((r.w 0).toNat / 6) ((r.w 0).toNat % 6)) && !s.domSecure (s.asker r)) then s.mbFail r stDenied 0
  else act s

/-- The write of S0 for the engine's owner (R155): an engine retired without a substitute takes none (R111). -/
def State.tuneWrite (s : State) (r : MbRequest) (op rule : Nat) : State :=
  let n := (r.w 0).toNat / 6
  let m := (r.w 0).toNat % 6
  if s.leRetired n m && !s.leHosted n m && !(s.le n m).copying then s
  else s.setMword (s.tuneAddr r 0) (w32 (at_ (s.newCseq r) 16 + at_ rule 4 + op))

/-- TUNE_START: the response follows once the experiment has ended. -/
def State.tuneStart (s : State) (mb : Nat) : State :=
  s.mbRun mb 0x0601 (lenIs 12) (fun r s =>
    if 16 ≤ (r.w 2).toNat then s.mbFail r stBadArg 8
    else s.tuneChecked r (fun s => (s.tuneWrite r 1 (r.w 2).toNat).mbSet r { r with phase := 1 }))

def execTuneStart (mb : Fin 1024) (s : State) : Host.Outcome State Fault Refusal := .next (s.tuneStart mb.val)

/-- TUNE_POLL: the stage has handled the last command, and the experiment is DONE or ABORTED. -/
def State.tunePoll (s : State) (mb : Nat) : State :=
  match s.mp.requests.find? (fun r => r.mb == mb && r.code == 0x0601 && r.phase == 1 && r.answer.isNone) with
  | none => s
  | some r =>
    let s1 := s.mword (s.tuneAddr r 1)
    if !s.mbServed mb || fld s1 31 16 != fld (s.mword (s.tuneAddr r 0)) 31 16 || decide (fld s1 3 0 < 2) then s
    else s.mbOk r (s1 :: (List.range 6).map (fun i => s.mword (s.tuneAddr r (6 + i))))

def execTunePoll (mb : Fin 1024) (s : State) : Host.Outcome State Fault Refusal := .next (s.tunePoll mb.val)

/-- TUNE_CANCEL: there must be a running experiment. -/
def State.tuneCancel (s : State) (mb : Nat) : State :=
  s.mbRun mb 0x0602 (lenIs 8) (fun r s => s.tuneChecked r (fun s =>
    if fld (s.mword (s.tuneAddr r 1)) 3 0 = 1 then (s.tuneWrite r 2 0).mbOk r [] else s.mbFail r stWrongState 0))

def execTuneCancel (mb : Fin 1024) (s : State) : Host.Outcome State Fault Refusal := .next (s.tuneCancel mb.val)

/-! ### NET (R396) -/

/-- Run a NET command of a port: the port must exist. -/
def State.mbPort (s : State) (r : MbRequest) (act : Nat → State → State) : State :=
  if 4 ≤ (r.w 0).toNat then s.mbFail r stBadArg 0 else act (r.w 0).toNat s

/-- NET_PORT: the port scan ends, and a retired port comes back (R410, R428). -/
def State.netPort (s : State) (mb : Nat) : State :=
  s.mbRun mb 0x0701 (lenIs 16) (fun r s => s.mbPort r (fun p s =>
    let red := (r.w 3).toNat
    let et := if r.w 2 = 0#32 then 0x88B5 else (r.w 2).toNat
    if 0xFFFF < et then s.mbFail r stBadArg 8
    else if 4 ≤ red ∧ red ≠ 15 then s.mbFail r stBadArg 12
    else
      let s := s.setPort p { s.portRec p with scanning := false }
      s.mbWrites r 0 [(R.NX_PORTp_ETYPE p, w32 et), (R.NX_PORTp_CFG p, (r.w 1 &&& 0x00010103#32) ||| w32 (at_ red 24))] (fun t =>
        let t := if t.portRetired p then (t.portRestored p).conditionEnded (0x110 + p) else t
        t.mbOk r [t.reg (R.NX_PORTp_STATE p)])))

def execNetPort (mb : Fin 1024) (s : State) : Host.Outcome State Fault Refusal := .next (s.netPort mb.val)

/-- Sizes of a cyclic session (R415): multiples of 4 from 4 to 256. -/
def sizeField (n : Nat) : Bool := n % 4 == 0 && decide (4 ≤ n) && decide (n ≤ 256)

/-- NET_SESSION_OPEN. -/
def State.netSessionOpen (s : State) (mb : Nat) : State :=
  s.mbRun mb 0x0702 (lenIs 16) (fun r s =>
    let cyclic := bit (r.w 0) 31
    let partner := fld (r.w 0) 11 0
    let ns := (r.w 1).toNat
    let mask := (r.w 3).toNat
    let grids := (List.range 4).filter (fun p => mask.testBit p)
    if cyclic && (decide (ns < 31250) || grids.any (fun p => ns % max 1 (s.portRec p).cycle != 0)) then s.mbFail r stBadArg 4
    else if cyclic && !(sizeField (fld (r.w 2) 31 16) && sizeField (fld (r.w 2) 15 0)) then s.mbFail r stBadArg 8
    else if mask = 0 ∨ 16 ≤ mask ∨ 2 < grids.length then s.mbFail r stBadArg 12
    else if (s.sessionOf partner).isSome then s.mbFail r stWrongState 0
    else
      let cfg := w32 (2 ^ 31 + at_ (b2n cyclic) 30 + at_ 3 24 + at_ (s.asker r) 20 + at_ mask 16 + partner)
      match s.openSession cfg (r.w 1) (r.w 2) with
      | none => s.mbFail r stNoSpace 0
      | some (k, t) => t.mbOk r ((t.session k).queues.map t.qHandle))

def execNetSessionOpen (mb : Fin 1024) (s : State) : Host.Outcome State Fault Refusal := .next (s.netSessionOpen mb.val)

/-- NET_SESSION_CLOSE. -/
def State.netSessionClose (s : State) (mb : Nat) : State :=
  s.mbRun mb 0x0703 (lenIs 4) (fun r s =>
    match s.sessionOf (r.w 0).toNat with
    | some k => (s.closeSession k).mbOk r []
    | none => s.mbFail r stNotFound 0)

def execNetSessionClose (mb : Fin 1024) (s : State) : Host.Outcome State Fault Refusal := .next (s.netSessionClose mb.val)

/-- NET_GCL. -/
def State.netGcl (s : State) (mb : Nat) : State :=
  s.mbRun mb 0x0704 (fun l => decide (20 ≤ l)) (fun r s => s.mbPort r (fun p s =>
    let n := (r.w 1).toNat
    if n = 0 ∨ 1024 < n then s.mbFail r stBadArg 4
    else if r.payload.length ≠ 5 + n then s.mbFail r stBadLength 0
    else if r.w 4 = 0#32 then s.mbFail r stBadArg 16
    else (s.setPort p { s.portRec p with
      gates := r.payload.drop 5, base := r.w64 2, cycle := (r.w 4).toNat }).mbOk r []))

def execNetGcl (mb : Fin 1024) (s : State) : Host.Outcome State Fault Refusal := .next (s.netGcl mb.val)

/-- NET_STATUS: the sessions are those whose port mask names the port. -/
def State.netStatus (s : State) (mb : Nat) : State :=
  s.mbRun mb 0x0705 (lenIs 4) (fun r s => s.mbPort r (fun p s =>
    let l := s.sessionsOn.filter (fun k => (s.sesMask k).contains p)
    s.mbOk r [s.reg (R.NX_PORTp_STATE p), s.reg (R.NX_PORTp_RX_FRAMES p), s.reg (R.NX_PORTp_TX_FRAMES p),
      w32 (s.rf (R.NX_PORTp_ERRS p) 31 16), w32 (at_ (l.filter s.sesCyclic).length 16 + l.length)]))

def execNetStatus (mb : Fin 1024) (s : State) : Host.Outcome State Fault Refusal := .next (s.netStatus mb.val)

/-! ### DIAG (R397) -/

/-- DIAG_FAULTS: the records that have had an incident, in ascending source, from an index on. -/
def State.diagFaults (s : State) (mb : Nat) : State :=
  s.mbRun mb 0x0801 (lenIs 4) (fun r s =>
    let l := ((s.faults.recs.filter (fun e => e.2.incidents != 0)).drop (r.w 0).toNat).take 512
    s.mbOk r (w32 l.length :: l.flatMap (fun e => s.recordWords e.1)))

def execDiagFaults (mb : Fin 1024) (s : State) : Host.Outcome State Fault Refusal := .next (s.diagFaults mb.val)

/-- DIAG_ACK: the write to FC_ACK; the record must be open. -/
def State.diagAck (s : State) (mb : Nat) : State :=
  s.mbRun mb 0x0802 (lenIs 4) (fun r s =>
    if !(s.faultRec (r.w 0).toNat).isOpen then s.mbFail r stNotFound 0
    else s.mbWrites r 0 [(R.FC_ACK, r.w 0)] (fun t => t.mbOk r [w32 (s.faultRec (r.w 0).toNat).tally]))

def execDiagAck (mb : Fin 1024) (s : State) : Host.Outcome State Fault Refusal := .next (s.diagAck mb.val)

/-- Source number of the loop engine or converter core whose ownership register lies at an address (R451). -/
def unitSource (a : Nat) : Option Nat :=
  match locate a with
  | some (.le n m, 0) => some (6 * n + m)
  | some (.ac n c, 0) => some (acSource n c)
  | _ => none

/-- DIAG_RETIRE: the write to FC_RETIRE. -/
def State.diagRetire (s : State) (mb : Nat) : State :=
  s.mbRun mb 0x0803 (lenIs 4) (fun r s =>
    match unitSource (r.w 0).toNat with
    | none => s.mbFail r stBadArg 0
    | some x => if s.restorable x then s.mbFail r stWrongState 0
      else s.mbWrites r 0 [(R.FC_RETIRE, w32 x)] (fun t => t.mbOk r []))

def execDiagRetire (mb : Fin 1024) (s : State) : Host.Outcome State Fault Refusal := .next (s.diagRetire mb.val)

/-- DIAG_RESTORE: the write to FC_RESTORE; the response follows the self-test. -/
def State.diagRestore (s : State) (mb : Nat) : State :=
  s.mbRun mb 0x0804 (lenIs 4) (fun r s =>
    match unitSource (r.w 0).toNat with
    | none => s.mbFail r stBadArg 0
    | some x => if !s.restorable x || s.rb R.FC_RESTORE_STATE 31 then s.mbFail r stWrongState 0
      else s.mbWrites r 0 [(R.FC_RESTORE, w32 x)] (fun t => t.mbSet r { r with phase := 1 }))

def execDiagRestore (mb : Fin 1024) (s : State) : Host.Outcome State Fault Refusal := .next (s.diagRestore mb.val)

/-- DIAG_SNAPSHOT: the list goes to the snapshot unit; capture and response follow. -/
def State.diagSnapshot (s : State) (mb : Nat) : State :=
  s.mbRun mb 0x0805 (fun l => decide (20 ≤ l)) (fun r s =>
    let n := (r.w 3).toNat
    if n = 0 ∨ 8192 < n then s.mbFail r stBadArg 12
    else if r.payload.length ≠ 4 + n then s.mbFail r stBadLength 0
    else if s.snapBusy || s.snap.loading then s.mbFail r stWrongState 0
    else s.mbWrites r 0 ([(R.SN_COUNT, w32 n)] ++ (List.range n).map (fun i => (pairAddr i, r.w (4 + i))) ++ [(R.SN_LOAD, 1#32)])
      (fun t => t.mbSet r { r with phase := 1 }))

def execDiagSnapshot (mb : Fin 1024) (s : State) : Host.Outcome State Fault Refusal := .next (s.diagSnapshot mb.val)

/-- Pop up to `k` cells by a handle in domain `d`: the words, and the last result word. -/
def State.drainCells (s : State) (d : Nat) (h : Word) : Nat → List Word × Word × State
  | 0 => ([], 0#32, s)
  | k + 1 =>
    let (c, ws, t) := s.qPop d h
    let res := resultWord c false (t.qDepth (fld h 15 0))
    if c = qOk ∨ c = qCellError then
      if k = 0 then (ws.getD [], res, t)
      else
        let (l, last, t) := t.drainCells d h k
        (ws.getD [] ++ l, last, t)
    else (ws.getD [], res, t)

/-- DIAG_DRAIN: it stops at the first pop that takes no cell. -/
def State.diagDrain (s : State) (mb : Nat) : State :=
  s.mbRun mb 0x0806 (lenIs 8) (fun r s =>
    if (r.w 1).toNat = 0 ∨ 1023 < (r.w 1).toNat then s.mbFail r stBadArg 4
    else
      let (l, res, t) := s.drainCells (s.mbActs r) (r.w 0) (r.w 1).toNat
      t.mbOk r (l ++ [res]))

def execDiagDrain (mb : Fin 1024) (s : State) : Host.Outcome State Fault Refusal := .next (s.diagDrain mb.val)

/-! ### TIME (R397) -/

/-- TIME_GET. -/
def State.timeGet (s : State) (mb : Nat) : State :=
  s.mbRun mb 0x0A01 (lenIs 0) (fun r s => s.mbReads r 0 [R.CAL_NOW_LO, R.CAL_NOW_HI, R.CAL_UTC_OFFSET, R.CAL_VALID,
    R.CAL_PAIR_DT_LO, R.CAL_PAIR_DT_HI, R.CAL_PAIR_SEC, R.TB_DISC])

def execTimeGet (mb : Fin 1024) (s : State) : Host.Outcome State Fault Refusal := .next (s.timeGet mb.val)

/-- TIME_SET. -/
def State.timeSet (s : State) (mb : Nat) : State :=
  s.mbRun mb 0x0A02 (lenIs 20) (fun r s =>
    if 4 ≤ (r.w 0).toNat then s.mbFail r stBadArg 0
    else if bit (r.w 0) 0 && (r.w 2 &&& 0xFF008000#32) != 0#32 then s.mbFail r stBadArg 8
    else s.mbWrites r 0 ((if bit (r.w 0) 0 then [(R.CAL_SET_LO, r.w 1), (R.CAL_SET_HI, r.w 2)] else [])
      ++ (if bit (r.w 0) 1 then [(R.CAL_UTC_OFFSET, r.w 3), (R.CAL_LEAP_AT, r.w 4)] else [])) (fun t => t.mbOk r []))

def execTimeSet (mb : Fin 1024) (s : State) : Host.Outcome State Fault Refusal := .next (s.timeSet mb.val)

/-- TIME_DISC: 0xF selects BMCA (R413). -/
def State.timeDisc (s : State) (mb : Nat) : State :=
  s.mbRun mb 0x0A03 (lenIs 8) (fun r s =>
    let p := (r.w 1).toNat
    if 4 ≤ (r.w 0).toNat then s.mbFail r stBadArg 0
    else if 4 ≤ p ∧ p ≠ 15 then s.mbFail r stBadArg 4
    else s.mbWrites r 0 [(R.TB_DISC, r.w 0)] (fun t =>
      { t with net := { t.net with asPort := if p = 15 then none else some p } }.mbOk r []))

def execTimeDisc (mb : Fin 1024) (s : State) : Host.Outcome State Fault Refusal := .next (s.timeDisc mb.val)

/-- TIME_ALARM: CTRL comes last, so the arm acts under R52. -/
def State.timeAlarm (s : State) (mb : Nat) : State :=
  s.mbRun mb 0x0A04 (lenIs 16) (fun r s =>
    let a := (r.w 0).toNat
    if 4 ≤ a then s.mbFail r stBadArg 0
    else s.mbWrites r 0 [(R.CAL_ALARMa_SEC a, r.w 1), (R.CAL_ALARMa_INTERVAL a, r.w 3), (R.CAL_ALARMa_CTRL a, r.w 2)] (fun t =>
      if bit (r.w 2) 31 && !t.rb (R.CAL_ALARMa_CTRL a) 31 then t.mbFail r stScheduleRefused (t.scFlags R.CAL_STATUS)
      else t.mbOk r [t.reg R.CAL_STATUS]))

def execTimeAlarm (mb : Fin 1024) (s : State) : Host.Outcome State Fault Refusal := .next (s.timeAlarm mb.val)

/-! ### SEC (R388, R397, R406) -/

/-- Does some domain other than `d` hold SECURITY? -/
def State.otherSecurity (s : State) (d : Nat) : Bool := (List.range 16).any (fun x => x != d && s.hasRight x 6)

/-- SEC_RIGHTS. -/
def State.secRights (s : State) (mb : Nat) : State :=
  s.mbRun mb 0x0B01 (lenIs 12) (fun r s =>
    let d := (r.w 0).toNat
    if d = 0 ∨ 16 ≤ d then s.mbFail r stBadArg 0
    else if 128 ≤ (r.w 1).toNat then s.mbFail r stBadArg 4
    else if 2 ≤ (r.w 2).toNat then s.mbFail r stBadArg 8
    else if !bit (r.w 1) 6 && !s.otherSecurity d then s.mbFail r stWrongState 0
    else
      let s := s.setMp { s.mp with rights := s.mp.rights.set (fun _ => 0) d (r.w 1).toNat }
      let v := setBit (s.reg R.SYS_DOMAIN_SEC) d (bit (r.w 2) 0)
      s.mbWrites r 0 (if v = s.reg R.SYS_DOMAIN_SEC then [] else [(R.SYS_DOMAIN_SEC, v)]) (fun t => t.mbOk r []))

def execSecRights (mb : Fin 1024) (s : State) : Host.Outcome State Fault Refusal := .next (s.secRights mb.val)

/-- SEC_CHALLENGE: a nonce. -/
def State.secChallenge (s : State) (mb : Nat) : State :=
  s.mbRun mb 0x0B02 (lenIs 0) (fun r s =>
    let (w0, s) := s.free
    let (w1, s) := s.free
    let (w2, s) := s.free
    let (w3, s) := s.free
    let l := [w0, w1, w2, w3]
    (s.setMp { s.mp with nonce := some (l.flatMap bytesOfWord, s.clk.beat) }).mbOk r (l ++ serialWords))

def execSecChallenge (mb : Fin 1024) (s : State) : Host.Outcome State Fault Refusal := .next (s.secChallenge mb.val)

/-- The debug key unlocks a level: the key's hash is the one in OTP, and the signature covers nonce, serial and LEVEL. -/
def unlockVerifies (nonce : List Byte) (level : Nat) (key sig : List Byte) : Bool :=
  Config.sha256 key == Config.debugKeyHash
    && Config.ecdsaVerifies key (Config.sha256 (nonce ++ serialWords.flatMap bytesOfWord ++ bytesOfWord (w32 level))) sig

/-- Open the debug port at a level. -/
def State.unlockAt (s : State) (level : Nat) : State :=
  (s.setMp { s.mp with unlock := level, failures := 0 }).setRb R.SYS_DOMAIN_SEC 11 (level == 2)

/-- A failure of SEC_UNLOCK: after three in a row the command is refused for 60 s. -/
def State.unlockFailed (s : State) : State :=
  if s.mp.failures = 2 then s.setMp { s.mp with failures := 0, barredUntil := some (s.clk.beat + 15000000000) }
  else s.setMp { s.mp with failures := s.mp.failures + 1 }

/-- Seconds for which SEC_UNLOCK is still refused. -/
def State.barredFor (s : State) : Nat :=
  match s.mp.barredUntil with
  | some b => if serialGe s.clk.beat b then 0 else ((b - s.clk.beat).toNat + 249999999) / 250000000
  | none => 0

/-- SEC_UNLOCK. -/
def State.secUnlock (s : State) (mb : Nat) : State :=
  s.mbRun mb 0x0B03 (lenIs 132) (fun r s =>
    let level := (r.w 0).toNat
    if 0 < s.barredFor then s.mbFail r stDenied s.barredFor
    else match s.mp.nonce with
    | none => s.mbFail r stWrongState 0
    | some (nonce, since) =>
      let s := s.setMp { s.mp with nonce := none, barredUntil := none }
      if 2500000000 < (s.clk.beat - since).toNat then s.mbFail r stWrongState 0
      else if level ≠ 1 ∧ level ≠ 2 then s.mbFail r stBadArg 0
      else if unlockVerifies nonce level (((r.payload.drop 1).take 16).flatMap bytesOfWord)
          ((r.payload.drop 17).flatMap bytesOfWord) then (s.unlockAt level).mbOk r []
      else s.unlockFailed.mbFail r stBadSignature 0)

def execSecUnlock (mb : Fin 1024) (s : State) : Host.Outcome State Fault Refusal := .next (s.secUnlock mb.val)

/-- SEC_LOCK: the unlock and test mode end (R406, R486). -/
def State.secLock (s : State) (mb : Nat) : State :=
  s.mbRun mb 0x0B04 (lenIs 0) (fun r s =>
    let s := (s.setMp { s.mp with unlock := 0 }).setRb R.SYS_DOMAIN_SEC 11 false
    let s := ((s.setPow { s.pow with testAt := none }).setRb R.PW_TEST 31 false).testChange false
    s.mbOk r [])

def execSecLock (mb : Fin 1024) (s : State) : Host.Outcome State Fault Refusal := .next (s.secLock mb.val)

/-! ### Commands that wait for the device -/

/-- CAL_RUN: every core that started has come to its end. -/
def State.calEnded (s : State) (r : MbRequest) : State :=
  let on := maskCores (r.keep.getD 0 0#32)
  if on.any (fun i => s.rb (R.AC_CAL (i / 2) (i % 2)) 30) then s
  else
    let good := on.filter (fun i => (s.ac (i / 2) (i % 2)).calOk)
    s.mbOk r [coreMask good, r.keep.getD 1 0#32 ||| (r.keep.getD 0 0#32 &&& ~~~ coreMask good)]

/-- DIAG_RESTORE: the self-test has ended; w0 is the number of the failing test, 0 for a pass. -/
def State.restoreEnded (s : State) (r : MbRequest) : State :=
  if s.rb R.FC_RESTORE_STATE 31 then s else s.mbOk r [w32 (s.rf R.FC_RESTORE_STATE 15 0)]

/-- A pair that domain `d` could not read (R390). -/
def State.pairHidden (s : State) (d : Nat) (w : Word) : Bool :=
  match (s.readAs .mp d (w.toNat / 4 * 4) 4).1 with
  | .error .ownership => true
  | _ => false

/-- Mark a pair as failed, with value 0. -/
def State.hidePair (s : State) (d i : Nat) : State :=
  let a := s.mword (pairAddr i)
  if !bit a 1 && s.pairHidden d a then (s.setMword (pairAddr i) (setBit a 1 true)).setMword (pairAddr i + 4) 0#32 else s

/-- DIAG_SNAPSHOT: arm once the list is loaded, answer once the values stand. A request refused as late is withdrawn. -/
def State.snapshotGoes (s : State) (r : MbRequest) : State :=
  let n := (r.w 3).toNat
  if r.phase = 1 then
    if s.snap.loading then s
    else
      let s := s.setRb R.SN_POLICY 0 (bit (r.w 0) 0)
      let t := s.snapArm 0 (bit (r.w 0) 0) (if bit (r.w 0) 1 then none else some (r.w64 1))
      if !t.rb R.SN_STATE 31 || t.snap.rejected then (t.snapCancel 0).mbFail r stScheduleRefused (t.scFlags R.SN_STATUS)
      else t.mbSet r { r with phase := 2 }
  else if s.snapBusy then s
  else
    let t := (List.range n).foldl (fun t i => t.hidePair (s.asker r) i) s
    let bad := ((List.range n).filter (fun i => bit (t.mword (pairAddr i)) 1)).length
    t.mbOk r ([setFld (t.reg R.SN_STATE) 13 0 bad, t.reg R.SN_BEAT_LO, t.reg R.SN_BEAT_HI]
      ++ (List.range n).map (fun i => t.mword (pairAddr i + 4)))

/-- Commands of a mailbox that wait for the device go on. -/
def State.mbWaiting (s : State) (mb : Nat) : State :=
  if !s.mbServed mb then s
  else (s.mp.requests.filter (fun r => r.mb == mb && r.answer.isNone && r.phase != 0)).foldl (fun t r =>
    if r.code = 0x0501 then t.calEnded r
    else if r.code = 0x0804 then t.restoreEnded r
    else if r.code = 0x0805 then t.snapshotGoes r
    else t) s

/-- RESPONSE_PUSH (R383): commands that have waited for the device come to their responses, and cells go out. -/
def execResponsePush (mb : Fin 1024) (s : State) : Host.Outcome State Fault Refusal :=
  .next ((s.mbWaiting mb.val).responsePush mb.val)

end Sys2Proof.Machine
end

