-- ==== Sys2Proof/Machine/Recipes.lean ====
section
/-!
DEFINITION. The recipe store and its commands (R395, R398 to R403): Ottar's flash operations, records, stores, loads,
AUTOSTART.
-/
namespace Sys2Proof.Machine
open Sys2Proof

/-! ### Flash as Ottar uses it (R342 to R346) -/

/-- An operation of a bank: an erase of a sector, or the programming of a code word. -/
structure FlashJob where
  erase : Bool
  addr : Nat
  data : List Word
deriving DecidableEq, Repr

/-- One operation through the controller, from its command to its end; `ok` says that it passes verification. Answers
whether it is done. -/
def State.flashJob (s : State) (j : FlashJob) (ok : Bool) : Bool × State :=
  let b := flashBank j.addr
  let s := s.setReg (R.FL_Bb_ADDR b) (w32 j.addr)
  let s := if j.erase then s
    else (List.range 8).foldl (fun t i => t.setReg (R.FL_Bb_DATAi b i) (j.data.getD i 0xFFFFFFFF#32)) s
  let refused := (s.flashRefusal b j.erase j.addr).isSome
  let s := s.flashCmd b (w32 (at_ (if j.erase then 2 else 1) 28))
  if refused then (false, s) else (ok, (s.cachesMiss none (s.flashChanges b)).flashDone b ok)

/-- Operations in order up to the first that fails; `bad` is the number of the one that does not pass verification.
Answers the address of the failure. -/
def State.flashJobs (s : State) (bad : Option Nat) (i : Nat) : List FlashJob → Option Nat × State
  | [] => (none, s)
  | j :: r =>
    match s.flashJob j (bad != some i) with
    | (true, t) => t.flashJobs bad (i + 1) r
    | (false, t) => (some j.addr, t)

/-- Operations of a command: `verify` says that all pass verification; else which one fails is open. -/
def State.flashRun (s : State) (verify : Bool) (l : List FlashJob) : Option Nat × State :=
  if verify || l == [] then s.flashJobs none 0 l
  else
    let (v, t) := s.free
    t.flashJobs (some (v.toNat % l.length)) 0 l

/-- A command that works on bank `b` waits while the bank is busy; Ottar's writes to the controller obey R18. -/
def State.flashReady (s : State) (r : MbRequest) (b : Nat) (act : State → State) : State :=
  if s.flashBusy b then s else if !s.owns 0 R.FL_OWNER then s.mbFail r stDenied 0 else act s

/-- Words of flash, or nothing where a code word cannot be read. -/
def State.flashWords (s : State) (a : Nat) : Nat → Option (List Word) × State
  | 0 => (some [], s)
  | n + 1 =>
    match s.flashWord a with
    | (none, t) => (none, t)
    | (some w, t) =>
      match t.flashWords (a + 4) n with
      | (some l, t) => (some (w :: l), t)
      | (none, t) => (none, t)

/-- SHA-256 of bytes as eight words in memory order. -/
def digestWords (l : List Byte) : List Word :=
  (List.range 8).map (fun i => wordOfBytes (((Config.sha256 l).drop (4 * i)).take 4))

/-- Whole code words from an address on, and the words that are left over. -/
def codeWords (a : Nat) (l : List Word) : Nat → List FlashJob × List Word
  | 0 => ([], l)
  | k + 1 =>
    if l.length < 8 then ([], l)
    else
      let (js, left) := codeWords (a + 32) (l.drop 8) k
      (⟨false, a, l.take 8⟩ :: js, left)

/-- The operations that take bytes which continue at offset `got` of an area at `a`, with `tail` words waiting; at the end
of the area the last code word is filled up with erased bits. Answers also the words that wait. -/
def dataJobs (a got : Nat) (tail new : List Word) (atEnd : Bool) : List FlashJob × List Word :=
  let start := a + (got - 4 * tail.length)
  let l := tail ++ new
  let (js, left) := codeWords start l (l.length / 8)
  if atEnd && left != [] then (js ++ [⟨false, start + 32 * js.length, left ++ List.replicate (8 - left.length) 0xFFFFFFFF#32⟩], [])
  else (js, left)

/-! ### Records (R398, R403) -/

def storeBase : Nat := 0x11000000
def storePairs : Nat := 1792
def storeSectors : Nat := 224

/-- Page pairs of a record. -/
def recordPairs (length : Nat) : Nat := (length + 64 + 8191) / 8192

def RecipeRecord.endAddr (r : RecipeRecord) : Nat := r.addr + 8192 * r.pairs

def RecipeRecord.tombstone (r : RecipeRecord) : Bool := bit r.flags 30

/-- The header code word of a record. -/
def RecipeRecord.header (r : RecipeRecord) : List Word :=
  [w32 r.id, w32 r.seq, w32 r.length, r.flags, r.arg, 0#32, 0#32, 0#32]

/-- Does a record hold the address of an interrupted operation of bank B? -/
def State.recordCut (s : State) (r : RecipeRecord) : Bool :=
  s.mp.cut.any (fun c => c.1 == 1 && decide (r.addr ≤ c.2.2) && decide (c.2.2 < r.endAddr))

/-- Does a record leave a code word undefined or unreadable? -/
def State.recordUndef (s : State) (r : RecipeRecord) : Bool :=
  s.flash.any (fun e => (e.2.undef || e.2.bits == .bad) && decide (r.addr ≤ e.1) && decide (e.1 < r.endAddr))

/-- The committed record at an address, as the start-up search finds it. -/
def State.recordFound (s : State) (a : Nat) : Option RecipeRecord :=
  let h := fun i => s.mword (a + 4 * i)
  let len := (h 2).toNat
  let r : RecipeRecord := ⟨a, recordPairs len, (h 0).toNat, (h 1).toNat, len, h 3, h 4⟩
  if r.id = 0 ∨ r.id = 0xFFFFFFFF ∨ len % 4 ≠ 0 ∨ 0x400000 < len ∨ storeBase + 8192 * storePairs < r.endAddr
    ∨ s.recordCut r = true ∨ s.recordUndef r = true then none
  else
    let bytes := (List.range (32 + len)).map (fun i => s.byte (a + i))
    if digestWords bytes = (List.range 8).map (fun i => s.mword (r.endAddr - 32 + 4 * i)) then some r else none

/-- Starts of page pairs whose first code word is programmed, ascending. -/
def State.recordStarts (s : State) : List Nat :=
  (s.flash.filter (fun e => e.2.programmed && decide (storeBase ≤ e.1) && decide (e.1 < storeBase + 8192 * storePairs)
    && e.1 % 8192 == 0)).map (fun e => e.1)

/-- The committed records from `bound` on. -/
def State.recordsFrom (s : State) (bound : Nat) : List Nat → List RecipeRecord
  | [] => []
  | a :: l =>
    if a < bound then s.recordsFrom bound l
    else match s.recordFound a with
    | some r => r :: s.recordsFrom r.endAddr l
    | none => s.recordsFrom bound l

/-- Put a record among the known ones, in ascending address. -/
def insertRecord (r : RecipeRecord) : List RecipeRecord → List RecipeRecord
  | [] => [r]
  | x :: l => if r.addr < x.addr then r :: x :: l else x :: insertRecord r l

/-- The newest committed record of an ID. -/
def State.newestRecord (s : State) (id : Nat) : Option RecipeRecord :=
  s.mp.records.foldl (fun o r => if r.id ≠ id then o else match o with
    | some x => if x.seq < r.seq then some r else o
    | none => some r) none

/-- Is a committed record superseded (R398, R403)? -/
def State.recordOld (s : State) (r : RecipeRecord) : Bool :=
  if r.tombstone then !s.mp.records.any (fun x => x.id == r.id && decide (x.seq < r.seq))
  else s.mp.records.any (fun x => x.id == r.id && decide (r.seq < x.seq))

/-- Does a record overlap a range of addresses? -/
def RecipeRecord.overlaps (r : RecipeRecord) (lo hi : Nat) : Bool := decide (r.addr < hi) && decide (lo < r.endAddr)

/-- Pairs that no record or open store holds and that are erased. -/
def State.pairFree (s : State) (p : Nat) : Bool :=
  let lo := storeBase + 8192 * p
  let hi := lo + 8192
  !s.mp.records.any (fun r => r.overlaps lo hi) && !s.mp.stores.any (fun x => x.rcd.overlaps lo hi)
    && !s.flash.any (fun e => decide (lo ≤ e.1) && decide (e.1 < hi))

/-- The lowest run of `k` free pairs: `n` pairs starting at `p` are still to be tried, `run` before `p` are free. -/
def State.freeRun (s : State) (k p run : Nat) : Nat → Option Nat
  | 0 => if k ≤ run then some (p - k) else none
  | n + 1 =>
    if k ≤ run then some (p - k)
    else if s.pairFree p then s.freeRun k (p + 1) (run + 1) n else s.freeRun k (p + 1) 0 n

/-- Sectors that Ottar may erase and that are not erased. -/
def State.oldSectors (s : State) : List Nat :=
  ((List.range storeSectors).map (fun i => storeBase + 0x10000 * i)).filter (fun a =>
    s.flash.any (fun e => decide (a ≤ e.1) && decide (e.1 < a + 0x10000))
    && !s.mp.records.any (fun r => r.overlaps a (a + 0x10000) && !s.recordOld r)
    && !s.mp.stores.any (fun x => x.rcd.overlaps a (a + 0x10000)))

/-- Erase sectors: the records that lie in them are gone, and so are the interrupted operations. -/
def State.eraseSectors (s : State) (l : List Nat) : State :=
  let t := (s.flashRun true (l.map (fun a => ⟨true, a, []⟩))).2
  let done := l.filter (fun a => !t.flash.any (fun e => decide (a ≤ e.1) && decide (e.1 < a + 0x10000)))
  let gone := fun (lo hi : Nat) => done.any (fun a => decide (lo < a + 0x10000) && decide (a < hi))
  t.setMp { t.mp with
    records := t.mp.records.filter (fun r => !gone r.addr r.endAddr)
    cut := t.mp.cut.filter (fun c => !(c.1 == 1 && gone c.2.2 (c.2.2 + 1))) }

/-- Room for a record of `k` pairs: eligible sectors are erased when nothing is free (R403). -/
def State.recordRoom (s : State) (k : Nat) : Option Nat × State :=
  match s.freeRun k 0 0 storePairs with
  | some p => (some p, s)
  | none =>
    let t := s.eraseSectors s.oldSectors
    (t.freeRun k 0 0 storePairs, t)

/-- SEQ of the next record: one more than the highest in the store. -/
def State.nextSeq (s : State) : Nat :=
  (s.mp.stores.map (fun x => x.rcd.seq)).foldl max ((s.mp.records.map (fun r => r.seq)).foldl max 0) + 1

/-! ### Stores (R395, R399) -/

/-- The open store of a mailbox. -/
def State.storeOf (s : State) (mb : Nat) : Option RecipeStore := s.mp.stores.find? (fun x => x.mb == mb)

def State.setStore (s : State) (x : RecipeStore) : State :=
  s.setMp { s.mp with stores := s.mp.stores.map (fun y => if y.mb == x.mb then x else y) }

/-- A store is abandoned: its record stays uncommitted. -/
def State.dropStore (s : State) (mb : Nat) : State := s.setMp { s.mp with stores := s.mp.stores.filter (fun x => x.mb != mb) }

/-- A command on a store fails. -/
def State.storeFail (s : State) (r : MbRequest) (x : RecipeStore) (status info : Nat) : State :=
  (s.setStore { x with failed := true }).mbFail r status info

/-- Fields of FLAGS that a request may set: AUTOSTART, ACT_DOMAIN, START 0 or 1. -/
def recipeFlagsOk (f : Word) : Bool := (f &&& 0x7FFFF0FE#32) == 0#32

/-- RCP_BEGIN. -/
def State.rcpBegin (s : State) (mb : Nat) : State :=
  s.mbRun mb 0x0401 (lenIs 16) (fun r s => s.flashReady r 1 (fun s =>
    let id := (r.w 0).toNat
    let len := (r.w 1).toNat
    let s := match s.storeOf mb with
      | some x => if x.failed then s.dropStore mb else s
      | none => s
    if id = 0 ∨ id = 0xFFFFFFFF then s.mbFail r stBadArg 0
    else if len % 4 ≠ 0 ∨ 0x400000 < len then s.mbFail r stBadArg 4
    else if !recipeFlagsOk (r.w 2) then s.mbFail r stBadArg 8
    else if fld (r.w 2) 11 8 ≠ s.asker r ∧ s.hasRight (s.asker r) 1 = false then s.mbFail r stDenied 0
    else if (s.storeOf mb).isSome then s.mbFail r stWrongState 0
    else match s.recordRoom (recordPairs len) with
    | (none, t) => t.mbFail r stNoSpace 0
    | (some p, t) =>
      let rec_ : RecipeRecord := ⟨storeBase + 8192 * p, recordPairs len, id, t.nextSeq, len, r.w 2, r.w 3⟩
      let (e, t) := t.flashRun true [⟨false, rec_.addr, rec_.header⟩]
      let t := t.setMp { t.mp with stores := t.mp.stores ++ [⟨mb, rec_, 0, [], e.isSome, e.isSome, t.clk.beat⟩] }
      t.mbOk r [w32 rec_.addr]))

def execRcpBegin (mb : Fin 1024) (s : State) : Host.Outcome State Fault Refusal := .next (s.rcpBegin mb.val)

/-- RCP_DATA: the bytes continue those received; code words are programmed as they fill. -/
def State.rcpData (s : State) (mb : Nat) (verify : Bool) : State :=
  s.mbRun mb 0x0402 (fun l => decide (4 ≤ l)) (fun r s => s.flashReady r 1 (fun s =>
    let new := r.payload.drop 1
    match s.storeOf mb with
    | none => s.mbFail r stWrongState 0
    | some x =>
      if x.broken ∨ (r.w 0).toNat ≠ x.got then s.storeFail r x stWrongState x.got
      else if x.rcd.length < x.got + 4 * new.length then s.storeFail r x stBadLength 0
      else
        let got := x.got + 4 * new.length
        let (js, left) := dataJobs (x.rcd.addr + 32) x.got x.tail new (got == x.rcd.length)
        match s.flashRun verify js with
        | (none, t) => (t.setStore { x with got := got, tail := left, last := t.clk.beat }).mbOk r []
        | (some a, t) => t.storeFail r { x with broken := true, last := t.clk.beat } stFlashError a))

def execRcpData (mb : Fin 1024) (verify : Bool) (s : State) : Host.Outcome State Fault Refusal :=
  .next (s.rcpData mb.val verify)

/-- RECIPE_STORE_TIMEOUT (R399): 10 s without RCP_DATA. -/
def State.storeTimeout (s : State) (mb : Nat) : State :=
  match s.storeOf mb with
  | some x => if 2500000000 ≤ (s.clk.beat - x.last).toNat ∧ s.mp.serving = true then s.dropStore mb else s
  | none => s

def execRecipeStoreTimeout (mb : Fin 1024) (s : State) : Host.Outcome State Fault Refusal := .next (s.storeTimeout mb.val)

/-! ### Bodies (R400) -/

/-- An entry of a body: its byte offset, KIND, address, values. -/
structure RecipeEntry where
  ofs : Nat
  kind : Nat
  addr : Nat
  values : List Word
deriving DecidableEq, Repr

/-- Does a word address have a staging alias (R56)? -/
def hasAlias (a : Nat) : Bool := (aliasTarget (a + 0x800000)).isSome && decide (a % 0x1000000 < 0x800000)

/-- The entries of a body from byte offset `ofs` on, and the offset of the first bad one. -/
def recipeEntries (ofs : Nat) : Nat → List Word → List RecipeEntry × Option Nat
  | 0, _ => ([], none)
  | _, [] => ([], none)
  | _, [_] => ([], some ofs)
  | f + 1, w :: v :: r =>
    let a := (w &&& ~~~ 3#32).toNat
    let k := fld w 1 0
    let n := v.toNat
    if k = 3 then ([], some ofs)
    else if k = 1 then
      if n = 0 ∨ 16384 < n ∨ r.length < n ∨ hasAlias a = false ∨ hasAlias (a + 4 * (n - 1)) = false then ([], some ofs)
      else
        let (l, e) := recipeEntries (ofs + 8 + 4 * n) f (r.drop n)
        (⟨ofs, 1, a, r.take n⟩ :: l, e)
    else if k = 0 ∧ hasAlias a = false then ([], some ofs)
    else
      let (l, e) := recipeEntries (ofs + 8) f r
      (⟨ofs, k, a, [v]⟩ :: l, e)

/-- Entries of a whole body. -/
def bodyEntries (l : List Word) : List RecipeEntry × Option Nat := recipeEntries 0 l.length l

/-- The operation that commits a record: its checksum in the last code word. -/
def commitJob (r : RecipeRecord) (body : List Word) : FlashJob :=
  ⟨false, r.endAddr - 32, digestWords ((r.header ++ body).flatMap bytesOfWord)⟩

/-- RCP_COMMIT. -/
def State.rcpCommit (s : State) (mb : Nat) (verify : Bool) : State :=
  s.mbRun mb 0x0403 (lenIs 0) (fun r s => s.flashReady r 1 (fun s =>
    match s.storeOf mb with
    | none => s.mbFail r stWrongState 0
    | some x =>
      if x.broken ∨ x.got ≠ x.rcd.length then s.storeFail r x stWrongState x.got
      else match s.flashWords (x.rcd.addr + 32) (x.rcd.length / 4) with
      | (none, t) => t.storeFail r { x with broken := true } stFlashError (x.rcd.addr + 32)
      | (some body, t) =>
        match bodyEntries body with
        | (_, some o) => t.storeFail r { x with broken := true } stBadArg o
        | (_, none) =>
          match t.flashRun verify [commitJob x.rcd body] with
          | (some a, t) => t.storeFail r { x with broken := true } stFlashError a
          | (none, t) =>
            let t := t.dropStore mb
            (t.setMp { t.mp with records := insertRecord x.rcd t.mp.records }).mbOk r [w32 x.rcd.seq]))

def execRcpCommit (mb : Fin 1024) (verify : Bool) (s : State) : Host.Outcome State Fault Refusal :=
  .next (s.rcpCommit mb.val verify)

/-- RCP_LIST: committed records in ascending address. -/
def State.rcpList (s : State) (mb : Nat) : State :=
  s.mbRun mb 0x0406 (lenIs 4) (fun r s =>
    let l := (s.mp.records.drop (r.w 0).toNat).take 256
    s.mbOk r (w32 l.length :: l.flatMap (fun x => [w32 x.id, w32 x.seq, w32 x.length, x.flags, x.arg, w32 x.addr])))

def execRcpList (mb : Fin 1024) (s : State) : Host.Outcome State Fault Refusal := .next (s.rcpList mb.val)

/-- The recipe that a load or deletion of the newest record finds. -/
def State.liveRecord (s : State) (id : Nat) : Option RecipeRecord := (s.newestRecord id).filter (fun r => !r.tombstone)

/-- RCP_DELETE: a TOMBSTONE of one page pair. -/
def State.rcpDelete (s : State) (mb : Nat) (verify : Bool) : State :=
  s.mbRun mb 0x0407 (lenIs 4) (fun r s => s.flashReady r 1 (fun s =>
    match s.liveRecord (r.w 0).toNat with
    | none => s.mbFail r stNotFound 0
    | some _ =>
      match s.recordRoom 1 with
      | (none, t) => t.mbFail r stNoSpace 0
      | (some p, t) =>
        let x : RecipeRecord := ⟨storeBase + 8192 * p, 1, (r.w 0).toNat, t.nextSeq, 0, bitW 30, 0#32⟩
        match t.flashRun verify [⟨false, x.addr, x.header⟩, commitJob x []] with
        | (some a, t) => t.mbFail r stFlashError a
        | (none, t) => (t.setMp { t.mp with records := insertRecord x t.mp.records }).mbOk r []))

def execRcpDelete (mb : Fin 1024) (verify : Bool) (s : State) : Host.Outcome State Fault Refusal :=
  .next (s.rcpDelete mb.val verify)

/-! ### Loads (R401) -/

/-- The body of a record, if its header and checksum stand in flash. -/
def State.recordBody (s : State) (r : RecipeRecord) : Option (List Word) × State :=
  match s.flashWords r.addr (8 + r.length / 4) with
  | (none, t) => (none, t)
  | (some l, t) =>
    match t.flashWords (r.endAddr - 32) 8 with
    | (none, t) => (none, t)
    | (some d, t) =>
      (if l.take 8 = r.header ∧ digestWords (l.flatMap bytesOfWord) = d ∧ s.recordCut r = false then some (l.drop 8) else none, t)

/-- What staging gives: entries staged, entries dropped, the offset of the first dropped one. -/
structure StagingCount where
  staged : Nat
  dropped : Nat
  first : Option Nat
deriving DecidableEq, Repr

/-- One staging write of domain 0: a write that R13 or R57 drops sets a flag or ends in an error. -/
def State.stageWord (s : State) (c : StagingCount) (ofs a : Nat) (v : Word) : StagingCount × State :=
  match s.writeAs .mp 0 (a + 0x800000) 4 v with
  | (.error _, t) => (⟨c.staged, c.dropped + 1, some (c.first.getD ofs)⟩, t)
  | (_, t) =>
    if t.rf R.EP_STATUS 31 24 = s.rf R.EP_STATUS 31 24 then (⟨c.staged + 1, c.dropped, c.first⟩, t)
    else (⟨c.staged, c.dropped + 1, some (c.first.getD ofs)⟩, t)

/-- Stage the values of an entry at rising word addresses. -/
def State.stageValues (s : State) (c : StagingCount) (ofs a : Nat) : List Word → StagingCount × State
  | [] => (c, s)
  | v :: r =>
    let (c, t) := s.stageWord c ofs a v
    t.stageValues c ofs (a + 4) r

/-- Stage the SET and BLOCK entries of a body in order. -/
def State.stageEntries (s : State) (c : StagingCount) : List RecipeEntry → StagingCount × State
  | [] => (c, s)
  | e :: r =>
    if e.kind = 2 then s.stageEntries c r
    else
      let (c, t) := s.stageValues c e.ofs e.addr e.values
      t.stageEntries c r

/-- How a load ends: an error with its INFO, or an epoch with EP_OPEN's value and the counts. -/
inductive LoadResult where
  | failed (status info : Nat)
  | staged (word : Word) (count : StagingCount)
deriving DecidableEq, Repr

/-- Slot and ID in a value read from EP_OPEN. -/
def openedSlot (w : Word) : Nat := fld w 17 16
def openedId (w : Word) : Nat := fld w 15 0

/-- Islands whose default measurement a body stages into (R484). -/
def measuresNamed (l : List RecipeEntry) : List Nat :=
  (l.filter (fun e => e.kind != 2)).flatMap (fun e =>
    (List.range e.values.length).filterMap (fun i => measureUse (e.addr + 4 * i)))

/-- Steps 1 to 4 of a load, for a mailbox or for AUTOSTART. -/
def State.loadRecipe (s : State) (mb : Option Nat) (r : RecipeRecord) (strict : Bool) : LoadResult × State :=
  match s.recordBody r with
  | (none, t) => (.failed stBadRecord 0, t)
  | (some body, t) =>
    let es := (bodyEntries body).1
    let t := (measuresNamed es).eraseDups.foldl (fun t n => t.measureEnd n) t
    let (w, t) := t.epOpen 0
    if w = 0#32 then (.failed stScheduleRefused (t.scFlags R.EP_STATUS), t)
    else
      let i := openedSlot w
      let (c, t) := t.stageEntries ⟨0, 0, none⟩ es
      match strict, c.first with
      | true, some o => (.failed stAccessError o, t.epAbandon 0 i)
      | _, _ =>
        let t := t.epStage i
        let directs := (es.filter (fun e => e.kind == 2)).map (fun e => (w32 e.addr, e.values.getD 0 0#32))
        (.staged w c, t.setMp { t.mp with
          loads := t.mp.loads.filter (fun l => l.done || l.slot != i) ++ [⟨mb, i, openedId w, fld r.flags 11 8, directs, false⟩] })

/-- The record that RCP_LOAD names: the newest, or the one with a SEQ. -/
def State.namedRecord (s : State) (id seq : Nat) : Option RecipeRecord :=
  if seq = 0 then s.liveRecord id else s.mp.records.find? (fun r => r.id == id && r.seq == seq && !r.tombstone)

/-- RCP_LOAD. Under HOLD no request is made, and W is open. -/
def State.rcpLoad (s : State) (mb : Nat) : State :=
  s.mbRun mb 0x0404 (lenIs 20) (fun r s =>
    let mode := fld (r.w 2) 1 0
    if mode = 3 then s.mbFail r stBadArg 8
    else match s.namedRecord (r.w 0).toNat (r.w 1).toNat with
    | none => s.mbFail r stNotFound 0
    | some x =>
      match s.loadRecipe (some mb) x (bit (r.w 2) 9) with
      | (.failed st info, t) => t.mbFail r st info
      | (.staged w c, t) =>
        let head := [w, w32 c.staged, w32 c.dropped]
        let i := openedSlot w
        if mode = 0 then
          let (a, t) := t.free
          let (b, t) := t.free
          t.mbOk r (head ++ [a, b, t.reg (R.EP_SLOTs_STATE i)])
        else
          let (ok, t) := t.mpHaul 0 i (bit (r.w 2) 8) (if mode = 2 then none else some (r.w64 3))
          if ok then t.mbOk r (head ++ t.haulWords i)
          else t.mbRespond r stScheduleRefused (w32 (t.scFlags R.EP_STATUS)) [w32 (openedId w)])

def execRcpLoad (mb : Fin 1024) (s : State) : Host.Outcome State Fault Refusal := .next (s.rcpLoad mb.val)

/-- The slot of an epoch that a mailbox has loaded. -/
def State.loadedSlot (s : State) (mb id : Nat) : Option Nat :=
  ((s.mp.loads.find? (fun l => l.mb == some mb && !l.done && l.epoch == id && s.slotOfId id == some l.slot)).map (fun l => l.slot))

/-- RCP_HAUL: MODE HOLD requests nothing. -/
def State.rcpHaul (s : State) (mb : Nat) : State :=
  s.mbRun mb 0x0405 (lenIs 16) (fun r s =>
    match s.loadedSlot mb (r.w 0).toNat with
    | none => s.mbFail r stNotFound 0
    | some i =>
      match fld (r.w 1) 1 0 with
      | 0 =>
        let (a, t) := s.free
        let (b, t) := t.free
        t.mbOk r [a, b, t.reg (R.EP_SLOTs_STATE i)]
      | 3 =>
        let t := s.epAbandon 0 i
        if t.slotState i = 5 then t.mbOk r (t.haulWords i) else t.mbFail r stScheduleRefused (t.scFlags R.EP_STATUS)
      | m =>
        let (ok, t) := s.mpHaul 0 i (bit (r.w 1) 8) (if m = 2 then none else some (r.w64 2))
        if ok then t.mbOk r (t.haulWords i) else t.mbFail r stScheduleRefused (t.scFlags R.EP_STATUS))

def execRcpHaul (mb : Fin 1024) (s : State) : Host.Outcome State Fault Refusal := .next (s.rcpHaul mb.val)

/-- RECIPE_DIRECT_APPLY (R401 step 6): the DIRECT entries of epochs that are DONE, in ACT_DOMAIN. -/
def State.directApply (s : State) : State :=
  if !s.mp.serving then s
  else
    let t := (s.mp.loads.filter (fun l => l.done)).foldl (fun t l =>
      l.directs.foldl (fun t e => (t.writeAs .mp l.actDomain e.1.toNat 4 e.2).2) t) s
    t.setMp { t.mp with loads := t.mp.loads.filter (fun l => !l.done && t.slotOfId l.epoch == some l.slot) }

def execRecipeDirectApply (s : State) : Host.Outcome State Fault Refusal := .next s.directApply

/-! ### AUTOSTART (R402) -/

/-- The record that AUTOSTART chooses: committed, unsuperseded, AUTOSTART set, highest SEQ. -/
def State.autostartRecord (s : State) : Option RecipeRecord :=
  s.mp.records.foldl (fun o r =>
    if bit r.flags 31 && !r.tombstone && !s.mp.records.any (fun x => x.id == r.id && decide (r.seq < x.seq)) then
      (match o with
        | some x => if x.seq < r.seq then some r else o
        | none => some r)
    else o) none

def State.setAutostart (s : State) (v : Nat) : State := s.setMp { s.mp with autostart := v }

/-- Haul the AUTOSTART epoch down at W + 2. -/
def State.autostartHaul (s : State) (i : Nat) : State :=
  let (ok, t) := s.mpHaul 0 i false none
  t.setAutostart (if ok then 2 else 3)

/-- Load the AUTOSTART recipe, and haul it down or wait for its source in global pennant 1,023. -/
def State.autostartLoad (s : State) : State :=
  match s.autostartRecord with
  | none => s
  | some r =>
    let s := s.setMp { s.mp with autoId := w32 r.id }
    match s.loadRecipe none r false with
    | (.failed _ _, t) => t.setAutostart 3
    | (.staged w _, t) =>
      if fld r.flags 3 0 = 0 then t.autostartHaul (openedSlot w)
      else
        let t := t.setMp { t.mp with autostart := 1, allocated := t.mp.allocated ++ [(2, 0, 1023)] }
        (t.mpWrites 0 0 [(R.FB_PNg_CFG 1023, w32 (fld r.arg 12 0)), (R.FB_PNg_CTRL 1023, 0x80000000#32)]).2

/-- AUTOSTART_SOURCE_HAUL: the pennant has risen; the epoch goes, and the pennant is free again. -/
def State.autostartSource (s : State) : State :=
  if s.mp.autostart ≠ 1 ∨ s.mp.serving = false then s
  else
    let t := match s.mp.loads.find? (fun l => l.mb == none && !l.done) with
      | some l => s.autostartHaul l.slot
      | none => s.setAutostart 3
    let t := (t.mpWrites 0 0 [(R.FB_PNg_CTRL 1023, 0#32), (R.FB_PNg_CFG 1023, 0x80000000#32)]).2
    t.setMp { t.mp with allocated := t.mp.allocated.filter (fun x => x != (2, 0, 1023)) }

def execAutostartSourceHaul (s : State) : Host.Outcome State Fault Refusal := .next s.autostartSource

end Sys2Proof.Machine
end

