-- ==== Sys2Proof/Machine/Firmware.lean ====
section
/-!
DEFINITION. Firmware slots and their commands (R397, R404, R405), the boot ROM and Ottar's start-up (R479 to R482).
-/
namespace Sys2Proof.Machine
open Sys2Proof

/-! ### Firmware slots (R374, R404, R405) -/

/-- First byte of a firmware slot: false A, true B. -/
def fwBase (b : Bool) : Nat := if b then 0x11E00000 else 0x10E00000

/-- The markers in the last 24 KiB of a slot: 0 TRIAL, 1 TRIED, 2 COMMITTED. -/
def fwMarker (b : Bool) (i : Nat) : Nat := fwBase b + 0x1FA000 + 0x2000 * i

/-- Longest image. -/
def fwLimit : Nat := 2072576

/-- The operation that programs a marker. -/
def markerJob (b : Bool) (i : Nat) : FlashJob := ⟨false, fwMarker b i, List.replicate 8 0#32⟩

/-- Does a marker count as programmed? COMMITTED must read all 0x00. -/
def State.marker (s : State) (b : Bool) (i : Nat) : Bool × State :=
  match s.flashWords (fwMarker b i) 8 with
  | (some l, t) => (if i = 2 then l.all (fun w => w == 0#32) else l.any (fun w => w != 0xFFFFFFFF#32), t)
  | (none, t) => (i != 2, t)

/-- The three markers: bit 0 TRIAL, bit 1 TRIED, bit 2 COMMITTED. -/
def State.markers (s : State) (b : Bool) : Nat × State :=
  let (x, s) := s.marker b 0
  let (y, s) := s.marker b 1
  let (z, s) := s.marker b 2
  (b2n x + 2 * b2n y + 4 * b2n z, s)

/-- A word of a slot's header; a word that cannot be read is open. -/
def State.fwWord (s : State) (b : Bool) (i : Nat) : Word × State :=
  match s.flashWord (fwBase b + 4 * i) with
  | (some w, t) => (w, t)
  | (none, t) => t.free

/-- The signature covers header bytes 0 to 63, and the body has the header's SHA-256. -/
def imageSigned (h : List Word) (body : List Byte) : Bool :=
  Config.ecdsaVerifies Config.vendorKey (Config.sha256 ((h.take 16).flatMap bytesOfWord)) (((h.drop 16).take 16).flatMap bytesOfWord)
    && digestWords body == (h.drop 8).take 8

/-- What the checks of an image say: it is valid, its signature or form is bad, its SEC_VERSION is too low. -/
inductive ImageCheck where
  | good | bad | old
deriving DecidableEq, Repr

/-- Check the image in a slot (R404, R405, R480). -/
def State.imageCheck (s : State) (b : Bool) : ImageCheck × State :=
  match s.flashWords (fwBase b) 64 with
  | (none, t) => (.bad, t)
  | (some h, t) =>
    let len := (h.getD 3 0#32).toNat
    let sec := (h.getD 2 0#32).toNat
    if h.getD 0 0#32 ≠ 1#32 ∨ fwLimit < 256 + len ∨ 64 < sec then (.bad, t)
    else match t.flashWords (fwBase b + 256) ((len + 3) / 4) with
    | (none, t) => (.bad, t)
    | (some l, t) =>
      (if !imageSigned h ((l.flatMap bytesOfWord).take len) then .bad else if sec < s.mp.rollback then .old else .good, t)

/-- The slot that does not run. -/
def State.standby (s : State) : Bool := !s.mp.slotB

/-- Bank of a slot. -/
def fwBank (b : Bool) : Nat := b2n b

/-- FW_BEGIN: the standby slot is erased. Not while the running slot is on trial. -/
def State.fwBegin (s : State) (mb : Nat) (verify : Bool) : State :=
  s.mbRun mb 0x0901 (lenIs 4) (fun r s => s.flashReady r (fwBank s.standby) (fun s =>
    let len := (r.w 0).toNat
    let (c, s) := if s.mp.recovery then (true, s) else s.marker s.mp.slotB 2
    if len < 256 ∨ fwLimit < len ∨ len % 4 ≠ 0 then s.mbFail r stBadArg 0
    else if !c then s.mbFail r stWrongState 0
    else match s.flashRun verify ((List.range 32).map (fun i => ⟨true, fwBase s.standby + 0x10000 * i, []⟩)) with
    | (some a, t) => (t.setMp { t.mp with update := none }).mbFail r stFlashError a
    | (none, t) => (t.setMp { t.mp with
        update := some ⟨len, 0, [], false⟩
        cut := t.mp.cut.filter (fun c => !(decide (fwBase s.standby ≤ c.2.2) && decide (c.2.2 < fwBase s.standby + 0x200000))) }).mbOk r
          [w32 (b2n s.standby)]))

def execFwBegin (mb : Fin 1024) (verify : Bool) (s : State) : Host.Outcome State Fault Refusal := .next (s.fwBegin mb.val verify)

/-- FW_DATA: the image in order. -/
def State.fwData (s : State) (mb : Nat) (verify : Bool) : State :=
  s.mbRun mb 0x0902 (fun l => decide (4 ≤ l)) (fun r s => s.flashReady r (fwBank s.standby) (fun s =>
    let new := r.payload.drop 1
    match s.mp.update with
    | none => s.mbFail r stWrongState 0
    | some x =>
      if x.verified ∨ (r.w 0).toNat ≠ x.got then s.mbFail r stWrongState x.got
      else if x.length < x.got + 4 * new.length then s.mbFail r stBadLength 0
      else
        let got := x.got + 4 * new.length
        let (js, left) := dataJobs (fwBase s.standby) x.got x.tail new (got == x.length)
        match s.flashRun verify js with
        | (none, t) => (t.setMp { t.mp with update := some { x with got := got, tail := left } }).mbOk r []
        | (some a, t) => (t.setMp { t.mp with update := none }).mbFail r stFlashError a))

def execFwData (mb : Fin 1024) (verify : Bool) (s : State) : Host.Outcome State Fault Refusal := .next (s.fwData mb.val verify)

/-- FW_VERIFY. -/
def State.fwVerify (s : State) (mb : Nat) : State :=
  s.mbRun mb 0x0903 (lenIs 0) (fun r s =>
    match s.mp.update with
    | none => s.mbFail r stWrongState 0
    | some x =>
      if x.got ≠ x.length then s.mbFail r stWrongState x.got
      else match s.imageCheck s.standby with
      | (.bad, t) => t.mbFail r stBadSignature 0
      | (.old, t) => t.mbFail r stRollback 0
      | (.good, t) =>
        if x.length < 256 + (t.mword (fwBase s.standby + 12)).toNat then t.mbFail r stBadSignature 0
        else
          let (v, t) := t.fwWord s.standby 1
          let (c, t) := t.fwWord s.standby 2
          (t.setMp { t.mp with update := some { x with verified := true } }).mbOk r [v, c])

def execFwVerify (mb : Fin 1024) (s : State) : Host.Outcome State Fault Refusal := .next (s.fwVerify mb.val)

/-- FW_ACTIVATE: TRIAL is programmed; with RESET_NOW a device reset follows the response. -/
def State.fwActivate (s : State) (mb : Nat) (verify : Bool) : State :=
  s.mbRun mb 0x0904 (lenIs 4) (fun r s => s.flashReady r (fwBank s.standby) (fun s =>
    match s.mp.update with
    | none => s.mbFail r stWrongState 0
    | some x =>
      if !x.verified then s.mbFail r stWrongState 0
      else match s.flashRun verify [markerJob s.standby 0] with
      | (some a, t) => t.mbFail r stFlashError a
      | (none, t) =>
        let r' := { r with phase := b2n (bit (r.w 0) 0) }
        ((t.setMp { t.mp with update := none }).mbSet r r').mbOk r' []))

def execFwActivate (mb : Fin 1024) (verify : Bool) (s : State) : Host.Outcome State Fault Refusal :=
  .next (s.fwActivate mb.val verify)

/-- Lock a slot through FL_LOCK (R342, R374). -/
def State.lockSlot (s : State) (b : Bool) : State := s.flLockWrite (w32 (at_ 3 (16 * b2n b + 14)))

/-- FW_COMMIT: from a slot that is on trial. -/
def State.fwCommit (s : State) (mb : Nat) (verify : Bool) : State :=
  s.mbRun mb 0x0905 (lenIs 0) (fun r s => s.flashReady r (fwBank s.mp.slotB) (fun s =>
    let (m, s) := s.markers s.mp.slotB
    if m ≠ 3 then s.mbFail r stWrongState 0
    else match s.flashRun verify [markerJob s.mp.slotB 2] with
    | (some a, t) => t.mbFail r stFlashError a
    | (none, t) =>
      let (v, t) := t.fwWord s.mp.slotB 2
      let t := t.setMp { t.mp with rollback := max t.mp.rollback (min 64 v.toNat) }
      (t.lockSlot s.mp.slotB).mbOk r [w32 t.mp.rollback]))

def execFwCommit (mb : Fin 1024) (verify : Bool) (s : State) : Host.Outcome State Fault Refusal :=
  .next (s.fwCommit mb.val verify)

/-- VERSION, SEC_VERSION and markers of a slot. -/
def State.slotWords (s : State) (b : Bool) : List Word × State :=
  let (v, s) := s.fwWord b 1
  let (c, s) := s.fwWord b 2
  let (m, s) := s.markers b
  ([v, c, w32 m], s)

/-- FW_STATUS. -/
def State.fwStatus (s : State) (mb : Nat) : State :=
  s.mbRun mb 0x0906 (lenIs 0) (fun r s =>
    let (a, s) := s.slotWords false
    let (b, s) := s.slotWords true
    s.mbOk r (a ++ b ++ [w32 s.mp.rollback, w32 (b2n s.mp.slotB)]))

def execFwStatus (mb : Fin 1024) (s : State) : Host.Outcome State Fault Refusal := .next (s.fwStatus mb.val)

/-! ### The boot ROM (R347, R479, R480) -/

/-- Take the record of an interrupted operation of a bank, and clear it. -/
def State.takeCut (s : State) (b : Nat) : State :=
  if s.rb (R.FL_Bb_STATE b) 28 then
    (s.setMp { s.mp with cut := s.mp.cut ++ [(b, s.rf (R.FL_Bb_STATE b) 31 30, (s.reg (R.FL_Bb_ADDR b)).toNat)] }).flashCmd b
      0x30000000#32
  else s

/-- Does a slot contain the address of an interrupted operation? -/
def State.slotCut (s : State) (b : Bool) : Bool :=
  s.mp.cut.any (fun c => decide (fwBase b ≤ c.2.2) && decide (c.2.2 < fwBase b + 0x200000))

/-- The candidates: slots on a first trial, then COMMITTED slots by falling VERSION, slot A first between equals. -/
def State.candidates (s : State) : List (Bool × Bool) × State :=
  let (ma, s) := s.markers false
  let (mb, s) := s.markers true
  let (va, s) := s.fwWord false 1
  let (vb, s) := s.fwWord true 1
  let trial := (if ma % 4 = 1 then [(false, true)] else []) ++ (if mb % 4 = 1 then [(true, true)] else [])
  let ca := if 4 ≤ ma then [(false, false)] else []
  let cb := if 4 ≤ mb then [(true, false)] else []
  let committed := if va.toNat < vb.toNat then cb ++ ca else ca ++ cb
  ((trial ++ committed).filter (fun x => !s.slotCut x.1), s)

/-- The first valid candidate; a slot on trial has TRIED programmed before it is verified. -/
def State.firstValid (s : State) : List (Bool × Bool) → Option (Bool × Bool) × State
  | [] => (none, s)
  | (b, trial) :: r =>
    let s := if trial then (s.flashRun true [markerJob b 1]).2 else s
    match s.imageCheck b with
    | (.good, t) => (some (b, trial), t)
    | (_, t) => t.firstValid r

/-- Configuration of the home mailbox of a domain (R377): 512 cells in each queue. -/
def State.homeMailbox (s : State) (d : Nat) : State :=
  s.mailboxSet d (w32 (2 ^ 31 + at_ (b2n (s.domSecure d)) 30 + at_ d 16 + at_ 9 8 + 9))

/-- Recovery: mailbox 9 serves domain 9; no slot runs, and which one counts as standby is open. -/
def State.recoveryStart (s : State) : State :=
  let (b, s) := s.freeBit
  let s := s.setMp { s.mp with recovery := true, slotB := b, rights := s.mp.rights.set (fun _ => 0) 9 127 }
  (s.setRb R.PW_BOOT 31 true).homeMailbox 9

/-- BOOT_ROM (R480): at reset release, or at a wake without retention. -/
def State.bootRom (s : State) : State :=
  if !s.pow.booting || s.pow.thermalHold.isSome || s.device != .run then s
  else
    let s := s.setPow { s.pow with booting := false }
    let s := (s.takeCut 0).takeCut 1
    let s := if s.mp.cut = [] then s else s.flag R.FL_STATUS 8
    if s.rb R.PW_BOOT 0 || s.rb R.PW_BOOT 3 then s.recoveryStart
    else
      let (l, s) := s.candidates
      match s.firstValid l with
      | (none, t) => t.recoveryStart
      | (some (b, trial), t) =>
        (t.setMp { t.mp with slotB := b }).setReg R.PW_BOOT
          (setBit (setBit (setBit (t.reg R.PW_BOOT) 31 false) 30 trial) 29 b)

def execBootRom (s : State) : Host.Outcome State Fault Refusal := .next s.bootRom

/-! ### Ottar's start-up (R33, R34, R374, R377, R388, R481) -/

/-- Device time from the calendar (R34): nanoseconds since 1970-01-01T00:00:00 TAI, as a multiple of 4. -/
def State.timeFromCalendar (s : State) : State :=
  if !s.rb R.CAL_VALID 0 then s
  else
    let ns := (946684800 + s.clk.era * 2 ^ 32 + s.clk.seconds) * 1000000000 + s.clk.sub * 1000000000 / 32768
    s.changeD (BitVec.ofNat 64 (ns / 4 * 4) - 4#64 * s.clk.beat) []

/-- A calibration of a core with what it measures (R201): the factors are open. -/
def State.calibrateCore (s : State) (i : Nat) : State :=
  let n := i / 2
  let c := i % 2
  let s := s.acCalWrite n c 0x80000000#32
  let (ok, s) := s.freeBit
  let words := fun (s : State) (k : Nat) => (List.range k).foldl (fun (x : List Word × State) _ =>
    let (w, t) := x.2.free
    (x.1 ++ [w], t)) ([], s)
  let (g, s) := words s 4
  let (l, s) := words s 8
  s.calibrationDone n c ok (BitVec.ofNat 16 (s.rf (R.IC_TEMP n) 15 0)) g l

/-- Rights at start-up: domains 1, 9 and 10 hold all seven. -/
def startRights : Store Nat := [(1, 127), (9, 127), (10, 127)]

/-- Mailboxes that are enabled without being a home mailbox go out of use. -/
def State.otherMailboxesOff (s : State) : State :=
  ((s.regs.filterMap (fun e => if 0x5A001000 ≤ e.1 ∧ e.1 < 0x5A009000 ∧ e.1 % 32 = 0 then some ((e.1 - 0x5A001000) / 32) else none)).filter
    (fun m => m == 0 || decide (16 ≤ m))).foldl (fun t m => t.mailboxSet m 0#32) s

/-- Rights and home mailboxes take their start-up defaults. -/
def State.mpDefaults (s : State) : State :=
  let s := (s.setMp { s.mp with rights := startRights }).otherMailboxesOff
  (List.range 15).foldl (fun t i => t.homeMailbox (i + 1)) s

/-- What Ottar finds in its slot and in the recipe store; a COMMITTED slot is locked. -/
def State.ottarStore (s : State) : State :=
  let (c, s) := s.marker s.mp.slotB 2
  let s := if c then s.lockSlot s.mp.slotB else s
  s.setMp { s.mp with records := s.recordsFrom 0 s.recordStarts }

/-- The steps that a wake without retention leaves out (R471): collector, device time, islands, calibration, default
measurement, port scan. -/
def State.ottarDevice (s : State) : State :=
  let s := (s.setReg R.FC_OWNER 0#32)
  let s := { s with faults := { s.faults with started := true } }.faultN
  let s := if s.discMode = 0 then s.timeFromCalendar else s
  let s := (List.range 16).foldl (fun t n => t.islandUp n) s
  let s := (List.range 32).foldl (fun t i => t.calibrateCore i) s
  let s := (List.range 16).foldl (fun t n => t.measureStart n) s
  if s.rb R.PW_BOOT 2 then s else (List.range 4).foldl (fun t p => t.scanStart p) s

/-- OTTAR_STARTUP (R481): once the boot ROM has started Ottar. -/
def State.ottarStartup (s : State) : State :=
  if s.pow.booting || s.mp.recovery || s.mp.started || s.mp.restarting || s.device != .run then s
  else
    let cold := s.pow.coldWake
    let s := s.ottarStore
    let s := (if cold then s else s.ottarDevice).mpDefaults
    let s := s.setMp { s.mp with started := true, serving := true }
    if cold || s.rb R.PW_BOOT 1 then s else s.autostartLoad

def execOttarStartup (s : State) : Host.Outcome State Fault Refusal := .next s.ottarStartup

end Sys2Proof.Machine
end

