-- ==== Sys2Proof/Machine/Clock.lean ====
section
/-!
DEFINITION. The passage of time (log entries 2 and 6): one tick of the device's timeline (R31), and the oscillator of
the calendar (R46). A tick counts timer units and makes due the commands whose instant the state holds.
-/
namespace Sys2Proof.Machine
open Sys2Proof

/-- One tick of the timeline: tick 4 is followed by tick 0 of the next beat. A cycle of the exchange memory ends with
it (R23). -/
def State.countTick (s : State) : State :=
  let s := { s with xmNow := ⟨[], []⟩ }
  if s.clk.tick = 4 then s.setClk { s.clk with tick := 0, beat := s.clk.beat + 1 }
  else s.setClk { s.clk with tick := s.clk.tick + 1 }

/-- One period of the 32.768 kHz oscillator in units of 2^-48 tick: 38,146.97265625 ticks of 0.8 ns (R46). While the beat
runs, ticks scale with the RATE in force (R35). -/
def State.oscPeriod (s : State) : Nat :=
  9765625 * (if s.beatRuns then (2 ^ 40 + s.clk.rateNow).toNat else 2 ^ 40)

/-- The oscillator in one tick. -/
def State.oscTick (s : State) : State :=
  let a := s.clk.oscAcc + 2 ^ 48
  if s.oscPeriod ≤ a then (s.setClk { s.clk with oscAcc := a - s.oscPeriod }).oscEdge
  else s.setClk { s.clk with oscAcc := a }

/-- A timer unit with something to count: it runs, waits for its start, or stops in this tick. -/
def State.tuMoves (s : State) (n k : Nat) : Bool :=
  s.tuRunning n k || (s.tu n k).startIn.isSome || (s.tu n k).stopNow

/-- Every unit that moves advances by one tick. -/
def State.unitsTick (s : State) : State :=
  (allUnits.filter (fun u => s.islandRuns u.1 && s.tuMoves u.1 u.2)).foldl (fun t u => t.tuTick u.1 u.2) s

/-- Coupling events that have come to their release (R44). -/
def State.couplingEvents (s : State) : List Instr :=
  (s.clk.couplings.filter (fun c => decide (c.atTick ≤ s.absTick))).map (fun c =>
    .couplingRelease (Fin.ofNat 16 (c.unit / 4)) (Fin.ofNat 4 (c.unit % 4)))

/-- Captures whose input level the filter accepts by now (R183). -/
def State.captureEvents (s : State) : List Instr :=
  s.tus.flatMap (fun e => (List.range 6).filterMap (fun j =>
    match (s.chan (e.1 / 4) (e.1 % 4) j).filt with
    | some (l, f) =>
      if s.capAccepts (e.1 / 4) (e.1 % 4) j f then
        some (.captureEdge (Fin.ofNat 16 (e.1 / 4)) (Fin.ofNat 4 (e.1 % 4)) (Fin.ofNat 6 j) l (w32 (s.nowFine - f)))
      else none
    | none => none))

/-- Marks whose input level the filter accepts by now (R240). -/
def State.markEvents (s : State) : List Instr :=
  s.mks.filterMap (fun e => match e.2.filt with
    | some (l, f) =>
      if s.markAccepts (e.1 / 4) (e.1 % 4) f then
        some (.markCapture (Fin.ofNat 16 (e.1 / 4)) (Fin.ofNat 4 (e.1 % 4)) l (w32 (s.nowFine - f)))
      else none
    | none => none)

/-- The ball of an island whose configuration stands at an address. -/
def pmBallOf (a : Nat) : Option (Nat × Nat) :=
  let o := a - 0x5B001010
  if 0x5B001010 ≤ a ∧ a < 0x5B002000 ∧ o % 0x100 < 0x40 ∧ o % 4 = 0 then some (o / 0x100, o % 0x100 / 4) else none

/-- Level at a PWM-capable ball that the device drives (R497), `v` its configuration: a driver that is off, and one of an
island that does not run, leaves it to the pull of the ball (R500); a ball without a pull keeps what stands there. -/
def State.ballDriven (s : State) (n b : Nat) (v : Word) : Option Bool :=
  let pull := match fld v 15 14 with
    | 1 => none
    | 2 => some true
    | _ => some false
  if !s.islandRuns n then some false
  else match fld v 2 0 with
    | 1 =>
      if 12 ≤ fld v 7 4 then none
      else match s.tuOut n (fld v 9 8) (fld v 7 4) with
        | .high => some true
        | .low => some false
        | .hiz => pull
    | _ => some (s.pcBall n (fld v 8 8) b)

/-- A ball that the device drives takes a level: its source (R251) and what names the ball directly follow. -/
def State.setBall (s : State) (n b : Nat) (l : Bool) : State :=
  let g := 256 * n + 0xF0 + b
  if s.sourceLevel g = l then s else (s.setLine g l).enqueue (s.directConsumers n (0x10 + b) b l)

/-- Balls with FUNC TU or COMPARE follow what they are assigned to. -/
def State.ballsTick (s : State) : State :=
  s.regs.foldl (fun t e => match pmBallOf e.1 with
    | some (n, b) =>
      if fld e.2 2 0 = 1 ∨ fld e.2 2 0 = 2 then
        (match t.ballDriven n b e.2 with
        | some l => t.setBall n b l
        | none => t)
      else t
    | none => t) s

/-- Transitions of the outputs of every unit that has one (R181). -/
def State.outputsTick (s : State) : State :=
  (s.tus.filter (fun e => s.islandRuns (e.1 / 4))).foldl (fun t e => t.noteOutputs (e.1 / 4) (e.1 % 4)) s

/-- Triggers of converter cores at the end of their delay (R195). -/
def State.triggerEvents (s : State) : List Instr :=
  s.acs.flatMap (fun e =>
    let n := Fin.ofNat 16 (e.1 / 2)
    let c := Fin.ofNat 2 (e.1 % 2)
    let due := fun (t : Option Nat) => match t with
      | some x => decide (x ≤ s.absTick)
      | none => false
    (if due e.2.dueReg then [Instr.triggerDue n c false] else []) ++ (if due e.2.dueInj then [.triggerDue n c true] else []))

/-- Comparators whose filter or blanking has something to come (R216). -/
def State.comparatorsTick (s : State) : State :=
  (s.cps.filter (fun e => s.islandRuns (e.1 / 8) && (e.2.filt.isSome || e.2.blankFrom.isSome))).foldl
    (fun t e => t.cpTick (e.1 / 8) (e.1 % 8)) s

/-- Blanking windows that have ended (R216). -/
def State.blankEvents (s : State) : List Instr :=
  s.cps.filterMap (fun e => match e.2.blankEnd with
    | some x => if x ≤ s.nowFine then some (.blankingExpiry (Fin.ofNat 16 (e.1 / 8)) (Fin.ofNat 8 (e.1 % 8))) else none
    | none => none)

/-- A dwell falls due (R236). -/
def State.dwellEvents (s : State) : List Instr :=
  s.regs.filterMap (fun e => match locate e.1 with
    | some (.eq n q, 0x60) => if s.dwellDue n q then some (.dwell (Fin.ofNat 16 n) (Fin.ofNat 2 q)) else none
    | _ => none)

/-- Levels that the filters of a port let pass (R226), serial triggers that come due and waits that time out (R230),
compare pulses that end (R237). -/
def State.encoderEvents (s : State) : List Instr :=
  s.eqs.flatMap (fun e =>
    let passes := fun (f : Option Nat) => (s.filterOut (e.1 / 2) (e.1 % 2) f).1
    let due := match e.2.ssiDue with
      | some t => decide (t ≤ s.absTick)
      | none => false
    let n := Fin.ofNat 16 (e.1 / 2)
    let q := Fin.ofNat 2 (e.1 % 2)
    let wait := match e.2.ssiWait with
      | some t => decide (t + s.rf (R.EQ_SSI_TRIG n.val q.val) 31 16 ≤ s.absTick)
      | none => false
    (if passes e.2.filtA || passes e.2.filtB then
        [Instr.encoderEdge n q (e.2.a != e.2.filtA.isSome) (e.2.b != e.2.filtB.isSome) 0#32] else [])
      ++ (if due then [.ssiTrigger n q e.2.b] else []) ++ (if wait then [.ssiTimeout n q] else [])
      ++ (if s.pulseOver n.val q.val then [.comparePulseEnd n q] else [])) ++ s.dwellEvents

/-- What a context's own condition makes due: an enable at its boundary, inputs that have all come, a wait that times
out, held outputs at their instant (R93, R94, R101). -/
def State.contextEvents (s : State) (n m c : Nat) : List Instr :=
  let x := s.ctx n m c
  let i := Fin.ofNat 16 n
  let e := Fin.ofNat 6 m
  let k := Fin.ofNat 8 c
  (if (s.le n m).enabling.testBit c && s.leAtBoundary n m then [Instr.contextEnable i e k] else [])
    ++ (if x.phase == .waiting && s.ctxFresh n m c then [.inputsFresh i e k]
        else if s.timedOut n m c then [.contextWaitTimeout i e k] else [])
    ++ (if (x.phase == .held || (x.phase == .running && x.fixed)) && !x.overrun && decide (s.releaseTick n m c ≤ s.absTick)
        then [.outputRelease i e k] else [])

/-- The same over every context that the state lists. -/
def State.engineEvents (s : State) : List Instr :=
  s.les.flatMap (fun e => (List.range 8).flatMap (fun c => s.contextEvents (e.1 / 6) (e.1 % 6) c))

/-- Spills and fills that have taken their time (R329). A fill of an image with an uncorrectable word fails. -/
def State.spillEvents (s : State) : List Instr :=
  s.cores.filterMap (fun e => match e.2.engine with
    | some (fill, i, t) =>
      let n := Fin.ofNat 8 e.1
      let base := s.slotImage e.1 i
      if s.absTick < t then none
      else if fill then some (.bankFillDone n ((List.range 128).any (fun w => s.eccBad (base + 4 * w))))
      else some (.bankSpillDone n)
    | none => none)

/-- Scheduled commands of the network whose beat has come (R423), by ACTION. -/
def State.scheduledEvents (s : State) (action : Nat) (c : Instr) : List Instr :=
  (s.net.sched.filter (fun x => serialGe s.clk.beat x.beat && x.action == action)).map (fun _ => c)

/-- What falls due at tick 0 of a beat, in the order of R39: captures, haul-downs, the step, the start, then what that
rule does not order; each segment of the fabric sends one event record (R271). -/
def State.beatEvents (s : State) : List Instr :=
  let b := s.clk.beat
  (if s.rb R.SN_STATE 31 && !s.snap.rejected && serialGe b s.snap.armedAt then [Instr.snapshotCapture] else [])
    ++ s.scheduledEvents 3 .scheduledSnap
    ++ ((List.range 4).filter (fun i => s.slotState i == 3 && serialGe b (s.ep.armedAt.get (fun _ => 0#64) i))).map
        (fun i => .haulDown (Fin.ofNat 4 i))
    ++ s.scheduledEvents 2 .scheduledHaul
    ++ (s.ep.unsync.filter (fun u => serialGe b u.2)).map (fun u => .unsyncApply (Fin.ofNat 16 u.1))
    ++ (match s.clk.step with
      | some (n, _) => if serialGe b n then [.deviceTimeStep] else []
      | none => [])
    ++ (match s.clk.start with
      | some r => if !r.rejected && serialGe b r.beat then [.globalStart] else []
      | none => [])
    ++ (match s.pow.testAt with
      | some (n, _) => if serialGe b n then [.testModeChange] else []
      | none => [])
    ++ (if s.clk.rateNow ≠ s.clk.rateGoal ∧ serialGe b s.clk.rateNext then [.rateIncrement] else [])
    ++ s.scheduledEvents 1 .scheduledFire
    ++ s.fab.records.map (fun e => .eventRecordPush (Fin.ofNat 17 e.1))

/-- A reset that Ottar has ordered comes (R392, R405). -/
def State.orderedReset (s : State) : State :=
  match s.pow.resetAt with
  | some (b, c) => if serialGe s.clk.beat b then (s.setPow { s.pow with resetAt := none }).orderReset (Fin.ofNat 5 c) else s
  | none => s

/-- One tick of a running device. What falls due at tick 0 of a beat comes before the boundaries of that tick, so that a
boundary in it finds the entries of the beat due (R64). -/
def State.deviceTick (s : State) : State :=
  let s := s.countTick.lateTick
  let s := if s.clk.tick = 0 then (s.enqueue s.beatEvents).orderedReset else s
  let s := s.unitsTick.outputsTick.ballsTick.comparatorsTick
  let s := s.enqueue (s.couplingEvents ++ s.captureEvents ++ s.markEvents ++ s.triggerEvents ++ s.blankEvents
    ++ s.encoderEvents ++ s.engineEvents ++ s.spillEvents)
  s.resetsEnd.deferredOff

/-- One tick of time, 0.8 ns: the oscillator, the pulses and the filters of the bunting always run, the device where its
beat does. -/
def State.clockTick (s : State) : State :=
  let s := (s.oscTick.pulsesTick).filtersTick (s.beatRuns && s.clk.tick == 4)
  if s.beatRuns then s.deviceTick else s

/-- Reporter of a report to the fault collector. -/
def reporterOf : Instr → Option Nat
  | .faultReport _ r _ _ => some r.val
  | _ => none

/-- A report `c` ahead of commands whose reports are in order: it gives its place to those of lower reporters. -/
def placeReport (c : Instr) (r : Nat) : List Instr → Instr × List Instr
  | [] => (c, [])
  | d :: l => match reporterOf d with
    | some k =>
      if k < r then
        let (x, y) := placeReport c r l
        (d, x :: y)
      else (c, d :: l)
    | none =>
      let (x, y) := placeReport c r l
      (x, d :: y)

/-- Commands of one cycle with their reports in ascending reporter number (R452); the others keep their places. -/
def servedOrder : List Instr → List Instr
  | [] => []
  | c :: l => match reporterOf c with
    | some r =>
      let (x, y) := placeReport c r (servedOrder l)
      x :: y
    | none => c :: servedOrder l

/-- The block with no command waiting: what the device itself has made due goes to the queue; else time passes (log
entry 2). -/
def State.idle (s : State) : State :=
  if s.due = [] then s.clockTick else { s with pending := servedOrder s.due, due := [] }

end Sys2Proof.Machine
end

