-- ==== Sys2Proof/Machine/Dma.lean ====
section
/-!
DEFINITION. The accesses of the DMA channels (R345, R348 to R350, R352): elements, SWAP, the events HALF and FULL,
descriptor chains.
-/
namespace Sys2Proof.Machine
open Sys2Proof

/-! ### Elements (R348, R349) -/

/-- The bytes of an element in groups of `k`, the order of the groups reversed. -/
def swapGroups (k : Nat) (l : List Byte) : List Byte :=
  ((List.range (l.length / k)).reverse.map (fun i => (l.drop (i * k)).take k)).flatten

/-- SWAP: 0 NONE, 1 BYTE, 2 HALF, 3 WORD. -/
def swapElement (mode : Nat) (l : List Byte) : List Byte :=
  match mode with
  | 1 => swapGroups 1 l
  | 2 => swapGroups 2 l
  | 3 => swapGroups 4 l
  | _ => l

/-- Memories that take an 8-byte element whole: flash, system SRAM, queue RAM, TCM. -/
def takesWhole (a : Nat) : Bool := a < 0x28000000 || (decide (0x30000000 ≤ a) && decide (a < 0x30800000))

/-- Address that an error shows: the element's, or that of the 32-bit access where the element is made of two. -/
def elementErr (a i : Nat) : Nat := if takesWhole a then a else a + 4 * i

/-- Read `k` words of an element from `a`; none with the address where an access fails, and whether it failed because an
island is off. -/
def State.dmaFetch (s : State) (c a : Nat) : Nat → Nat → Except (Nat × Bool) (List Word) × State
  | _, 0 => (.ok [], s)
  | i, k + 1 =>
    match s.busRead (.dma (Fin.ofNat 64 c)) ((a + 4 * i) % 2 ^ 32) 4 with
    | (.data w, t) => (match t.dmaFetch c a (i + 1) k with
      | (.ok l, u) => (.ok (w :: l), u)
      | x => x)
    | (.error e, t) => (.error (elementErr a i, e == .islandOff), t)
    | (.done, t) => (.ok [], t)

/-- Write the words of an element from `a`; the address where an access fails, as for `dmaFetch`. -/
def State.dmaPut (s : State) (c a : Nat) : Nat → List Word → Option (Nat × Bool) × State
  | _, [] => (none, s)
  | i, w :: r =>
    match s.busWrite (.dma (Fin.ofNat 64 c)) ((a + 4 * i) % 2 ^ 32) 4 w with
    | (.error e, t) => (some (elementErr a i, e == .islandOff), t)
    | (_, t) => t.dmaPut c a (i + 1) r

/-- The words of the bytes of an element. -/
def elementWords (l : List Byte) : List Word := (List.range (l.length / 4)).map (fun i => wordOfBytes ((l.drop (4 * i)).take 4))

/-- Move one element: the flag and the address of a failure, or none. -/
def State.dmaMove (s : State) (c i : Nat) : Option (Nat × Nat) × State :=
  let k := s.dmaSize c / 4
  let src := s.dmaSrc c i
  let dst := s.dmaDst c i
  match s.dmaFetch c src 0 k with
  | (.error (a, off), t) => (some (if off then 8 else 5, a), t)
  | (.ok l, t) =>
    match t.dmaPut c dst 0 (elementWords (swapElement (t.rf (R.DMA_CHc_CFG c) 25 24) (l.map bytesOfWord).flatten)) with
    | (some (a, off), u) => (some (if off then 8 else 6, a), u)
    | (none, u) => (none, u)

/-! ### Chains (R352) -/

/-- Registers of a descriptor in the order of its words. -/
def dmaDescRegs (c : Nat) : List Nat :=
  [R.DMA_CHc_CFG c, R.DMA_CHc_SRC c, R.DMA_CHc_SRC_SHAPE c, R.DMA_CHc_SRC_STRIDE c, R.DMA_CHc_DST c,
   R.DMA_CHc_DST_SHAPE c, R.DMA_CHc_DST_STRIDE c, R.DMA_CHc_NEXT c]

/-- Bits of a register that software writes. -/
def writeMask (a : Nat) : Word := match rowAt a with
  | some r => r.wmask
  | none => 0#32

/-- Load the descriptor at NEXT and begin it. ERR shows NEXT where the load fails. -/
def State.dmaLoad (s : State) (c : Nat) : State :=
  let a := s.reg (R.DMA_CHc_NEXT c)
  if a.toNat % 32 ≠ 0 then s.dmaHalt c 7 a
  else match s.dmaFetch c a.toNat 0 8 with
    | (.ok l, t) =>
      let t := ((dmaDescRegs c).zip l).foldl (fun u x => u.setReg x.1 (x.2 &&& writeMask x.1)) t
      (t.setReg (R.DMA_CHc_DESC c) a).dmaBegin c (t.dma c)
    | (.error _, t) => t.dmaHalt c 7 a

/-! ### Responses (R350) -/

/-- A bank of flash under PROGRAM or ERASE makes a channel wait that reads there (R345). -/
def State.flashHolds (s : State) (a : Nat) : Bool :=
  decide (0x10000000 ≤ a) && decide (a < 0x12000000) && s.flashBusy (flashBank a)

/-- The count has advanced to `k`: HALF, then FULL and the end of the descriptor. -/
def State.dmaCounted (s : State) (c k : Nat) : State :=
  let n := s.dmaTotal c
  let s := if k = (n + 1) / 2 then
      let t := s.flag (R.DMA_CHc_STATUS c) 1
      if s.rb (R.DMA_CHc_CFG c) 31 then t.fireCentral (2 * c) else t
    else s
  if k ≠ n then s.dmaNext c
  else
    let s := s.flag (R.DMA_CHc_STATUS c) 0
    let s := if s.rb (R.DMA_CHc_CFG c) 30 then s.fireCentral (2 * c + 1) else s
    if (s.dma c).stopping then s.dmaStopped c
    else if s.reg (R.DMA_CHc_NEXT c) = 0#32 then (s.setDmaState c 0).setDma c .reset
    else s.dmaLoad c

/-- DMA_RESPONSE: the accesses of the oldest outstanding element end. -/
def State.dmaResponse (s : State) (c : Nat) : State :=
  if !s.dmaOn c || s.dmaOut c == 0 then s
  else
    let i := s.dmaCount c
    if s.flashHolds (s.dmaSrc c i)
      || (i + 1 == s.dmaTotal c && !(s.dma c).stopping && s.flashHolds (s.reg (R.DMA_CHc_NEXT c)).toNat) then s
    else match s.dmaMove c i with
      | (some (f, a), t) => t.dmaHalt c f (w32 a)
      | (none, t) => (t.setReg (R.DMA_CHc_COUNT c) (w32 (i + 1))).dmaCounted c (i + 1)

def execDmaResponse (c : Fin 64) (s : State) : Host.Outcome State Fault Refusal := .next (s.dmaResponse c.val)

end Sys2Proof.Machine
end

