-- ==== Sys2Proof/Machine/Flags.lean ====
section
/-!
DEFINITION. The FPCR flags of the cores and the floating-point operations that set them (R280, R305). Every operation
gives its result and its flags: NV 16, DZ 8, OF 4, UF 2, NX 1.
-/
namespace Sys2Proof.Machine
open Sys2Proof

/-- A result with the flags that it raises. -/
abbrev FOut := Word × Word

/-- The default NaN (R280). -/
def coreNaN : Word := 0x7FC00000#32

/-- NV where `b` holds. -/
def nvIf (b : Bool) : Word := if b then 16#32 else 0#32

/-- The rounding mode of FPCR.RM (R280). -/
def rmOf (fpcr : Word) : RMode :=
  match fld fpcr 9 8 with
  | 0 => .nearest
  | 1 => .zero
  | 2 => .down
  | _ => .up

/-- OF, UF and NX of a rounded result. The spec leaves open whether tininess is detected before or after rounding. -/
def roundFlags (r : FRes) : Word :=
  w32 (4 * b2n r.overflow + 2 * b2n (if Config.tinyAfterRounding then r.tinyAfter else r.tinyBefore) + b2n r.inexact)

/-- A rounded number with its flags. -/
def rounded (rm : RMode) (neg : Bool) (m : Nat) (e : Int) (sticky : Bool) : FOut :=
  let r := roundFull rm neg m e sticky
  (r.word, roundFlags r)

/-- A zero or an infinity of a sign. -/
def coreZero (neg : Bool) : Word := w32 (b2n neg * 2 ^ 31)
def coreInf (neg : Bool) : Word := w32 (b2n neg * 2 ^ 31 + 0x7F800000)

/-- A signalling NaN. -/
def isSignalling (a : Word) : Bool := numOf a == .nan true

/-- The result where an operand is a NaN: NV for a signalling one. -/
def nanOut (a b : Word) : FOut := (coreNaN, nvIf (isSignalling a || isSignalling b))

/-- FADD. -/
def fAdd (rm : RMode) (a b : Word) : FOut :=
  match numOf a, numOf b with
  | .nan _, _ => nanOut a b
  | _, .nan _ => nanOut a b
  | .inf n, .inf k => if n = k then (coreInf n, 0#32) else (coreNaN, nvIf true)
  | .inf n, _ => (coreInf n, 0#32)
  | _, .inf n => (coreInf n, 0#32)
  | .fin n1 m1 e1, .fin n2 m2 e2 =>
    let (n, m, e) := sumExact rm n1 m1 e1 n2 m2 e2
    rounded rm n m e false

/-- FSUB. -/
def fSub (rm : RMode) (a b : Word) : FOut := fAdd rm a (b ^^^ 0x80000000#32)

/-- FMUL. -/
def fMul (rm : RMode) (a b : Word) : FOut :=
  match numOf a, numOf b with
  | .nan _, _ => nanOut a b
  | _, .nan _ => nanOut a b
  | .inf n, .inf k => (coreInf (n != k), 0#32)
  | .inf n, .fin k m _ => if m = 0 then (coreNaN, nvIf true) else (coreInf (n != k), 0#32)
  | .fin k m _, .inf n => if m = 0 then (coreNaN, nvIf true) else (coreInf (n != k), 0#32)
  | .fin n1 m1 e1, .fin n2 m2 e2 => rounded rm (n1 != n2) (m1 * m2) (e1 + e2) false

/-- FDIV. -/
def fDiv (rm : RMode) (a b : Word) : FOut :=
  match numOf a, numOf b with
  | .nan _, _ => nanOut a b
  | _, .nan _ => nanOut a b
  | .inf _, .inf _ => (coreNaN, nvIf true)
  | .inf n, .fin k _ _ => (coreInf (n != k), 0#32)
  | .fin n _ _, .inf k => (coreZero (n != k), 0#32)
  | .fin n1 m1 e1, .fin n2 m2 e2 =>
    if m2 = 0 then (if m1 = 0 then (coreNaN, nvIf true) else (coreInf (n1 != n2), 8#32))
    else if m1 = 0 then (coreZero (n1 != n2), 0#32)
    else
      let (q, e, st) := quotExact m1 e1 m2 e2
      rounded rm (n1 != n2) q e st

/-- FSQRT. -/
def fSqrt (rm : RMode) (a : Word) : FOut :=
  match numOf a with
  | .nan _ => nanOut a a
  | .inf n => if n then (coreNaN, nvIf true) else (coreInf false, 0#32)
  | .fin n m e =>
    if m = 0 then (coreZero n, 0#32)
    else if n then (coreNaN, nvIf true)
    else
      let (r, x, st) := rootExact m e
      rounded rm false r x st

/-- a × b + c with one rounding, the exact sum negated where `neg` holds. -/
def fFma (rm : RMode) (neg : Bool) (a b c : Word) : FOut :=
  let inv := (match numOf a, numOf b with
    | .inf _, .fin _ m _ => m == 0
    | .fin _ m _, .inf _ => m == 0
    | _, _ => false)
  match numOf a, numOf b, numOf c with
  | .nan _, _, _ => (coreNaN, nvIf (isSignalling a || isSignalling b || isSignalling c))
  | _, .nan _, _ => (coreNaN, nvIf (isSignalling b || isSignalling c))
  | _, _, .nan x => (coreNaN, nvIf (x || (inv && Config.fmaSignals)))
  | .fin n1 m1 e1, .fin n2 m2 e2, .fin n3 m3 e3 =>
    let (n, m, e) := sumExact rm (n1 != n2) (m1 * m2) (e1 + e2) n3 m3 e3
    rounded rm (n != neg) m e false
  | .fin _ _ _, .fin _ _ _, .inf k => (coreInf (k != neg), 0#32)
  | x, y, z =>
    if inv then (coreNaN, nvIf true)
    else
      let sx := (match x with
        | .inf n => n
        | .fin n _ _ => n
        | .nan _ => false)
      let sy := (match y with
        | .inf n => n
        | .fin n _ _ => n
        | .nan _ => false)
      let p := sx != sy
      match z with
      | .inf k => if p = k then (coreInf (p != neg), 0#32) else (coreNaN, nvIf true)
      | _ => (coreInf (p != neg), 0#32)

/-- The signed value of a finite or infinite number against another: less, equal. Both false with a NaN. -/
def fLess (a b : Word) : Bool :=
  match numOf a, numOf b with
  | .nan _, _ => false
  | _, .nan _ => false
  | .inf n, .inf k => n && !k
  | .inf n, .fin _ _ _ => n
  | .fin _ _ _, .inf k => !k
  | .fin n1 m1 e1, .fin n2 m2 e2 =>
    let (x, y, _) := alignTwo n1 m1 e1 n2 m2 e2
    decide (x < y)

def fUnordered (a b : Word) : Bool := fNaN a || fNaN b

def fEqual (a b : Word) : Bool := !fUnordered a b && !fLess a b && !fLess b a

/-- FCEQ and FCUN: NV for a signalling NaN. -/
def fCeq (a b : Word) : FOut := (w32 (b2n (fEqual a b)), nvIf (isSignalling a || isSignalling b))
def fCun (a b : Word) : FOut := (w32 (b2n (fUnordered a b)), nvIf (isSignalling a || isSignalling b))

/-- NV of an ordered compare; the spec leaves open what a quiet NaN does. -/
def orderedNv (a b : Word) : Word :=
  nvIf (isSignalling a || isSignalling b || (fUnordered a b && Config.compareSignals))

def fClt (a b : Word) : FOut := (w32 (b2n (fLess a b)), orderedNv a b)
def fCle (a b : Word) : FOut := (w32 (b2n (fLess a b || fEqual a b)), orderedNv a b)

/-- minNum and maxNum (R280): a number wins over a quiet NaN; which of two zeros of different sign results is open. -/
def fPick (less : Bool) (a b : Word) : FOut :=
  if isSignalling a || isSignalling b then (coreNaN, nvIf true)
  else if fNaN a && fNaN b then (coreNaN, 0#32)
  else if fNaN a then (b, 0#32)
  else if fNaN b then (a, 0#32)
  else if fEqual a b then (if a = b then a else if Config.firstZero a b then a else b, 0#32)
  else (if fLess a b = less then a else b, 0#32)

def fMin (a b : Word) : FOut := fPick true a b
def fMax (a b : Word) : FOut := fPick false a b

/-- FABS and FNEG change the sign bit; a NaN gives the default NaN (R280). -/
def fAbs (a : Word) : FOut := if fNaN a then (coreNaN, 0#32) else (a &&& 0x7FFFFFFF#32, 0#32)
def fNeg (a : Word) : FOut := if fNaN a then (coreNaN, 0#32) else (a ^^^ 0x80000000#32, 0#32)

/-- Conversion to an integer between `lo` and `hi`: it saturates and sets NV; a NaN gives 0 and sets NV. -/
def fToInt (rm : RMode) (lo hi : Int) (a : Word) : FOut :=
  match numOf a with
  | .nan _ => (0#32, nvIf true)
  | .inf n => (wOfInt (if n then lo else hi), nvIf true)
  | .fin n m e =>
    let (q, inexact) := roundShift rm n m (-e) false
    let v : Int := if n then -(q : Int) else q
    if v < lo then (wOfInt lo, nvIf true)
    else if hi < v then (wOfInt hi, nvIf true)
    else (wOfInt v, w32 (b2n inexact))

def fToSigned (rm : RMode) (a : Word) : FOut := fToInt rm (-2147483648) 2147483647 a
def fToUnsigned (rm : RMode) (a : Word) : FOut := fToInt rm 0 4294967295 a

/-- Conversion from an integer. -/
def fOfInt (rm : RMode) (i : Int) : FOut := if i = 0 then (0#32, 0#32) else rounded rm (decide (i < 0)) i.natAbs 0 false

end Sys2Proof.Machine
end

