-- ==== Sys2Proof/Machine/Operands.lean ====
section
/-!
DEFINITION. Operand forms of the cores: instruction words (R302 to R307, R332), addressing modes (R284 to R287), integer
operations (R279, R304), what an instruction reads and writes.
-/
namespace Sys2Proof.Machine
open Sys2Proof

/-! ### Instruction words (R302) -/

/-- A word of major opcode `major` with P and the bits below. -/
def coreWord (p : Bool) (major low : Nat) : Word := w32 (at_ (b2n p) 31 + at_ major 26 + low)

/-- Format R. -/
def encR (p : Bool) (major rd ra rb sh op : Nat) : Word :=
  coreWord p major (at_ rd 21 + at_ ra 16 + at_ rb 11 + at_ sh 6 + op)

/-- Format I. -/
def encI (p : Bool) (major rd ra imm : Nat) : Word := coreWord p major (at_ rd 21 + at_ ra 16 + imm)

/-- Format C. -/
def encC (p : Bool) (rd ra cond imm : Nat) : Word := coreWord p 6 (at_ rd 21 + at_ ra 16 + at_ cond 13 + imm)

/-- Format M. -/
def encM (p : Bool) (major rd ra am size : Nat) (sign : Bool) (f : Nat) : Word :=
  coreWord p major (at_ rd 21 + at_ ra 16 + at_ am 14 + at_ size 12 + at_ (b2n sign) 11 + f)

/-- Format B. -/
def encB (p : Bool) (major ra rm : Nat) (dir wb fp : Bool) : Word :=
  coreWord p major (at_ ra 21 + at_ rm 16 + at_ (b2n dir) 15 + at_ (b2n wb) 14 + at_ (b2n fp) 13)

/-- Format F. -/
def encF (p : Bool) (fd fa fb fc op : Nat) : Word :=
  coreWord p 10 (at_ fd 21 + at_ fa 16 + at_ fb 11 + at_ fc 6 + op)

/-- Format BR. -/
def encBr (p : Bool) (major ra off : Nat) : Word := coreWord p major (at_ ra 21 + off)

/-- Format J. -/
def encJ (p : Bool) (major off : Nat) : Word := coreWord p major off

/-- Format S. -/
def encS (p : Bool) (rd ra x op : Nat) : Word := coreWord p 0x18 (at_ rd 21 + at_ ra 16 + at_ x 8 + op)

/-- A bank move (R332). -/
def encBank (p : Bool) (rg cls num op : Nat) : Word := coreWord p 0x19 (at_ rg 21 + at_ cls 19 + at_ num 13 + op)

/-! ### What an instruction is to the pipe (R291, R292, R315, R322) -/

/-- Its word; whether it is an illegal opcode, a supervisor instruction, has P; the registers it reads and writes (a
base update counts as a write); whether it is a load or store (LDM and STM included), makes a data access, and which
long-operation unit it uses (0 integer divider, 1 FP unit, 2 block engine); whether it is a control transfer, a SYS
instruction or bank move; whether it names an f register or FPCR; whether it waits for every long operation. -/
structure CoreOp where
  word : Word
  p : Bool
  illegal : Bool
  sup : Bool
  reads : List CReg
  writes : List CReg
  mem : Bool
  access : Bool
  unit : Option Nat
  ctl : Bool
  sys : Bool
  fp : Bool
  drain : Bool
deriving DecidableEq, Repr

/-- An instruction of the pipe: registers alone. -/
def pipeOp (word : Word) (p : Bool) (reads writes : List CReg) : CoreOp :=
  { word := word, p := p, illegal := false, sup := false, reads := reads, writes := writes, mem := false,
    access := false, unit := none, ctl := false, sys := false, drain := false,
    fp := (reads ++ writes).any (fun r => match r with
      | .f _ => true
      | .g _ => false) }

/-- A control transfer. -/
def ctlOp (word : Word) (p : Bool) (reads : List CReg) (access : Bool) : CoreOp :=
  { pipeOp word p reads [] with access := access, ctl := true }

/-- A SYS instruction or bank move. -/
def sysOp (word : Word) (reads writes : List CReg) (illegal sup fp : Bool) : CoreOp :=
  { pipeOp word false reads writes with illegal := illegal, sup := sup, sys := true, fp := fp }

/-- A register for rule 5 of R291 and the interlocks: g0 is none. -/
def realRegs (l : List CReg) : List CReg := l.filter (fun r => r != .g 0)

/-- Do two lists name a register in common? -/
def clash (l r : List CReg) : Bool := (realRegs l).any (fun x => r.contains x)

/-! ### Integer operations (R279, R304) -/

def aluShl (a b : Word) : Word := if 32 ≤ fld b 7 0 then 0#32 else a <<< fld b 7 0
def aluShr (a b : Word) : Word := if 32 ≤ fld b 7 0 then 0#32 else a >>> fld b 7 0
def aluSar (a b : Word) : Word := a.sshiftRight (min 31 (fld b 7 0))
def aluRor (a b : Word) : Word := a.rotateRight (fld b 4 0)
def aluMin (a b : Word) : Word := if sInt a ≤ sInt b then a else b
def aluMax (a b : Word) : Word := if sInt a ≤ sInt b then b else a
def aluMinu (a b : Word) : Word := if a.toNat ≤ b.toNat then a else b
def aluMaxu (a b : Word) : Word := if a.toNat ≤ b.toNat then b else a
def aluClz (a : Word) : Word := w32 (32 - bitLen a.toNat)
def aluPopc (a : Word) : Word := w32 ((List.range 32).filter (bit a)).length
def aluBrev (a : Word) : Word := wordOfBits (fun i => bit a (31 - i))
def aluBswap (a : Word) : Word := wordOfBytes (bytesOfWord a).reverse
def aluSextb (a : Word) : Word := (a.extractLsb' 0 8).signExtend 32
def aluSexth (a : Word) : Word := (a.extractLsb' 0 16).signExtend 32

/-- 1 where a condition holds (R281). -/
def condWord (b : Bool) : Word := w32 (b2n b)

def satInt (i : Int) : Word := wOfInt (clampI (-2147483648) 2147483647 i)
def aluAddsat (a b : Word) : Word := satInt (sInt a + sInt b)
def aluSubsat (a b : Word) : Word := satInt (sInt a - sInt b)

/-- High word of a product. -/
def mulHigh (a b : Int) : Word := wOfInt (a * b / 2 ^ 32)

/-- CMPI under COND: 0 EQ, 1 NE, 2 LT, 3 LTU, 4 LE, 5 LEU, 6 GT, 7 GE (R304). -/
def cmpCond (cond : Nat) (a b : Word) : Bool :=
  match cond with
  | 0 => a == b
  | 1 => a != b
  | 2 => decide (sInt a < sInt b)
  | 3 => decide (a.toNat < b.toNat)
  | 4 => decide (sInt a ≤ sInt b)
  | 5 => decide (a.toNat ≤ b.toNat)
  | 6 => decide (sInt b < sInt a)
  | _ => decide (sInt b ≤ sInt a)

/-- DIV (0), DIVU (1), REM (2), REMU (3) (R279). -/
def divide (op : Nat) (a b : Word) : Word :=
  match op with
  | 0 => if b = 0#32 then 0xFFFFFFFF#32 else wOfInt ((sInt a).tdiv (sInt b))
  | 1 => if b = 0#32 then 0xFFFFFFFF#32 else w32 (a.toNat / b.toNat)
  | 2 => if b = 0#32 then a else wOfInt ((sInt a).tmod (sInt b))
  | _ => if b = 0#32 then a else w32 (a.toNat % b.toNat)

/-- FDIV (4) or FSQRT (5). -/
def fLong (op : Nat) (rm : RMode) (a b : Word) : FOut := if op = 5 then fSqrt rm a else fDiv rm a b

/-! ### Addressing (R284 to R287) -/

/-- Bytes of SIZE. -/
def mSize (size : Nat) : Nat := 2 ^ size

/-- The order of the low `n` bits reversed. -/
def bitrev (n x : Nat) : Nat := (List.range n).foldl (fun a i => a + (if x.testBit i then 2 ^ (n - 1 - i) else 0)) 0

/-- The mod of R286. -/
def modulo (base len : Word) (ra : Word) (d : Int) : Word :=
  if len = 0#32 then wOfInt (ra.toNat + d)
  else wOfInt (base.toNat + ((ra.toNat : Int) - base.toNat + d) % len.toNat)

/-- Index bits of BITREV (R287); open where the buffer holds no element. -/
def bitrevN (len size : Nat) : Nat :=
  if len / size = 0 then Config.bitrevBits len size % 33 else Nat.log2 (len / size)

/-- The address of a load or store, and the new value of ra where the mode updates it. -/
def CoreCtx.address (c : CoreCtx) (ra am size : Nat) (f : BitVec 11) : Word × Option Word :=
  let a := c.gr ra
  let z := mSize size
  let k := nfld f.toNat 10 9
  let base := c.crv (8 + 2 * k)
  let len := c.crv (9 + 2 * k)
  let step := sextN 9 f.toNat
  match am with
  | 0 => (wOfInt (a.toNat + f.toInt * z), none)
  | 1 => (a, some (wOfInt (a.toNat + f.toInt * z)))
  | 2 => (a, some (modulo base len a (step * z)))
  | _ =>
    let n := bitrevN len.toNat z
    (w32 (base.toNat + z * bitrev n (a.toNat % 2 ^ n)), some (wOfInt ((a.toNat + step) % 2 ^ n)))

/-- The value that a load gives. -/
def loadValue (size : Nat) (sign : Bool) (w : Word) : Word :=
  match size with
  | 1 => if sign then aluSextb w else w &&& 0xFF#32
  | 2 => if sign then aluSexth w else w &&& 0xFFFF#32
  | _ => w

/-! ### Block transfers (R293) -/

/-- Registers of a mask in the order of transfer. -/
def blockRegs (mask : Word) (dir fp : Bool) : List CReg :=
  let l := (List.range 32).filter (bit mask)
  (if dir then l.reverse else l).map (fun r => if fp then .f r else .g r)

/-- Address of word `k`. -/
def blockAddr (base : Word) (dir : Bool) (k : Nat) : Word :=
  if dir then base - w32 (4 * (k + 1)) else base + w32 (4 * k)

/-- The base after write-back. -/
def blockEnd (base mask : Word) (dir : Bool) : Word :=
  let n := w32 (4 * ((List.range 32).filter (bit mask)).length)
  if dir then base - n else base + n

/-- Fields of an LDM or STM word. -/
def BlockOp.ra (b : BlockOp) : Nat := fld b.word 25 21
def BlockOp.dir (b : BlockOp) : Bool := bit b.word 15
def BlockOp.wb (b : BlockOp) : Bool := bit b.word 14
def BlockOp.fp (b : BlockOp) : Bool := bit b.word 13
def BlockOp.load (b : BlockOp) : Bool := fld b.word 30 26 == 0x10
def BlockOp.regs (b : BlockOp) : List CReg := blockRegs b.mask b.dir b.fp
def BlockOp.addr (b : BlockOp) (k : Nat) : Word := blockAddr b.base b.dir k

end Sys2Proof.Machine
end

