-- ==== Sys2Proof/Machine/CoreIssue.lean ====
section
/-!
DEFINITION. How a core issues an instruction (R282, R288 to R301): data accesses, long operations and their interlocks,
pairs, faults; taking an exception and returning from one (R315 to R325).
-/
namespace Sys2Proof.Machine
open Sys2Proof

/-! ### Data accesses of a core (R298 to R300) -/

/-- Is an address cacheable under CACHECTL (R299)? -/
def cacheable (ctl : Word) (a : Nat) : Bool :=
  (decide (0x10000000 ≤ a) && decide (a < 0x12000000))
  || (decide (0x20000000 ≤ a) && decide (a < 0x21000000) && bit ctl ((a - 0x20000000) / 0x100000))

/-- Do loads from an address go through the data cache? -/
def State.dcOn (s : State) (n a : Nat) : Bool :=
  let c := s.core n
  bit (c.crv 3) 30 && !c.det && cacheable (c.crv 3) a

/-- Do fetches from an address go through the instruction cache? -/
def State.icOn (s : State) (n a : Nat) : Bool :=
  let c := s.core n
  bit (c.crv 3) 31 && !c.det && cacheable (c.crv 3) a

/-- The core freezes on a read of a flash bank under PROGRAM or ERASE (R345). -/
def State.frozenRead (s : State) (n a : Nat) : Bool := s.flashHolds a && !s.dcOn n a

/-- A read of `k` bytes: a line that another master has changed since may give what it held (R299). -/
def State.coreRead (s : State) (n a k : Nat) : BusResult × State :=
  let r := s.coreRec n
  if s.dcOn n a && (List.range k).any (fun i => (r.stale.get (fun _ => none) (a + i)).isSome) then
    let (older, t) := s.freeBit
    if older then
      (.data (w32 (leNat ((List.range k).map (fun i => (r.stale.get (fun _ => none) (a + i)).getD (s.byte (a + i)))))), t)
    else (t.unstale n (fun x => x / 64 == a / 64)).busRead (.core (Fin.ofNat 8 n)) a k
  else s.busRead (.core (Fin.ofNat 8 n)) a k

/-- Why an instruction is not carried out: CAUSE and XADDR (R317). `behind`: word k of a block transfer failed, and the
instructions behind it have completed (R320). -/
structure CoreFault where
  cause : Nat
  addr : Word
  behind : Bool
deriving DecidableEq, Repr

/-! ### Contexts under issue -/

/-- A value that would break the data stack limit (R282). -/
def CoreCtx.violates (c : CoreCtx) (v : Word) : Bool := c.dspLimit != 0#32 && decide (v.toNat < c.dspLimit.toNat)

/-- A result of distance `k` leaves; one for g0 is none. -/
def CoreCtx.send (c : CoreCtx) (r : CReg) (v : Word) (k : Nat) : CoreCtx :=
  if r = .g 0 then c else { c with flight := c.flight ++ [⟨r, v, k⟩] }

/-- The result of a long operation lands after every result that was issued before it (R292). -/
def CoreCtx.landLong (c : CoreCtx) (r : CReg) (v : Word) : CoreCtx :=
  { c with flight := c.flight.filter (fun x => x.reg != r) }.put r v

/-- Set sticky flags of FPCR (R280). -/
def CoreCtx.raiseFlags (c : CoreCtx) (f : Word) : CoreCtx := if f = 0#32 then c else c.setCr 2 (c.crv 2 ||| f)

/-- Change the running context, and the context before the first of a possible pair with it. -/
def State.mapCtx (s : State) (n : Nat) (f : CoreCtx → CoreCtx) : State :=
  let t := s.setCore n (f (s.core n))
  let r := t.coreRec n
  match r.pair with
  | some p => t.setCoreRec n { r with pair := some { p with undo := f p.undo } }
  | none => t

/-- No instruction waits for a partner any more. -/
def State.clearPair (s : State) (n : Nat) : State :=
  let r := s.coreRec n
  if r.pair.isSome then s.setCoreRec n { r with pair := none } else s

/-- The context as the cycle of the next instruction starts; an instruction that joins shares the cycle of its
partner. -/
def State.preview (s : State) (n : Nat) (joins : Bool) : CoreCtx := if joins then s.core n else (s.core n).nextCycle

/-- Long operations that an instruction meets: those of its partner do not count. -/
def State.pendingOps (s : State) (n : Nat) : CoreCtx :=
  match (s.coreRec n).pair with
  | some p => p.undo
  | none => s.core n

/-! ### Long operations (R292, R293) -/

/-- A divide or square root completes. -/
def CoreCtx.finish (c : CoreCtx) (o : LongOp) : CoreCtx := (c.landLong o.dest o.result).raiseFlags o.flags

/-- The integer divider (0) or the FP unit (1) completes. -/
def State.unitDone (s : State) (n u : Nat) : State :=
  if u = 0 then
    match (s.pendingOps n).div with
    | some o => s.mapCtx n (fun c => { c with div := none }.finish o)
    | none => s
  else
    match (s.pendingOps n).fpu with
    | some o => s.mapCtx n (fun c => { c with fpu := none }.finish o)
    | none => s

/-- Words of a load from word `k` on: what has been read, and the word at which it failed with the cause. -/
def State.blockLoad (s : State) (n : Nat) (b : BlockOp) : Nat → List CReg → List (CReg × Word) × Option (Nat × Nat) × State
  | _, [] => ([], none, s)
  | k, r :: l =>
    match s.coreRead n (b.addr k).toNat 4 with
    | (.data w, t) => (match t.blockLoad n b (k + 1) l with
      | (x, f, u) => ((r, w) :: x, f, u))
    | (.error e, t) => ([], some (k, e.cause), t)
    | (.done, t) => ([], none, t)

/-- Words of a store from word `k` on. -/
def State.blockStore (s : State) (n : Nat) (b : BlockOp) : Nat → List Word → Option (Nat × Nat) × State
  | _, [] => (none, s)
  | k, w :: l =>
    match s.busWrite (.core (Fin.ofNat 8 n)) (b.addr k).toNat 4 w with
    | (.error e, t) => (some (k, e.cause), t)
    | (_, t) => t.blockStore n b (k + 1) l

/-- The words left of a transfer. -/
def State.blockRun (s : State) (n : Nat) (b : BlockOp) : List (CReg × Word) × Option (Nat × Nat) × State :=
  if b.load then s.blockLoad n b b.next (b.regs.drop b.next)
  else match s.blockStore n b b.next (b.data.drop b.next) with
    | (f, t) => ([], f, t)

/-- The context after a transfer, or after its words before the one that failed. -/
def CoreCtx.afterBlock (c : CoreCtx) (b : BlockOp) (l : List (CReg × Word)) (failed : Option Nat) : CoreCtx :=
  let c := l.foldl (fun c x => c.landLong x.1 x.2) c
  match failed with
  | some k => { c with blk := some { b with next := k } }
  | none =>
    let c := { c with blk := none }
    if b.wb then c.landLong (.g b.ra) (blockEnd b.base b.mask b.dir) else c

/-- The block engine completes, or fails on a word. A load that brings g30 below its limit, which only one that resumes
behind RETX can do here, changes nothing (R282). -/
def State.blockDone (s : State) (n : Nat) : Option CoreFault × State :=
  match (s.pendingOps n).blk with
  | none => (none, s)
  | some b =>
    let (l, f, t) := s.blockRun n b
    match l.find? (fun x => x.1 == .g 30 && (t.pendingOps n).violates x.2) with
    | some x => (some ⟨6, x.2, true⟩, t)
    | none => (f.map (fun x => ⟨x.2, b.addr x.1, true⟩), t.mapCtx n (fun c => c.afterBlock b l (f.map (fun x => x.1))))

/-- A transfer would read a flash bank under PROGRAM or ERASE. -/
def State.blockFrozen (s : State) (n : Nat) (b : Option BlockOp) : Bool :=
  match b with
  | some b => b.load && (List.range b.regs.length).any (fun k => decide (b.next ≤ k) && s.frozenRead n (b.addr k).toNat)
  | none => false

/-- Every long operation completes. -/
def State.longAll (s : State) (n : Nat) : Option CoreFault × State := ((s.unitDone n 0).unitDone n 1).blockDone n

/-- Does an instruction wait for a unit (R292)? Every one waits for a load of g30 that is under way (R282). -/
def CoreOp.waitsFor (o : CoreOp) (c : CoreCtx) (u : Nat) : Bool :=
  let uses := o.reads ++ o.writes
  match u with
  | 0 => (match c.div with
    | some x => o.drain || o.unit == some 0 || clash [x.dest] uses
    | none => false)
  | 1 => (match c.fpu with
    | some x => o.drain || o.unit == some 1 || clash [x.dest] uses
    | none => false)
  | _ => (match c.blk with
    | some b => o.drain || o.access || (b.load && b.regs.contains (.g 30)) || o.unit == some 2 || clash b.regs (if b.load then uses else o.writes)
        || (b.wb && clash [.g b.ra] uses)
    | none => false)

/-! ### Accesses at issue -/

/-- A block load whose mask names g30 completes before the next issue cycle, and its check is precise (R282). -/
def State.blockNow (s : State) (n : Nat) : Option CoreFault × State :=
  match (s.core n).blk with
  | none => (none, s)
  | some b =>
    let (l, f, t) := s.blockRun n b
    match l.find? (fun x => x.1 == .g 30 && (t.core n).violates x.2) with
    | some x => (some ⟨6, x.2, false⟩, t)
    | none =>
      let c := t.core n
      let c := l.foldl (fun c x => { c with flight := c.flight.filter (fun y => y.reg != x.1) }.send x.1 x.2 1) c
      match f with
      | some (k, e) =>
        (some ⟨e, b.addr k, true⟩, (t.setCore n { c with blk := some { b with next := k } }).clearPair n)
      | none =>
        let c := { c with blk := none }
        (none, t.setCore n (if b.wb then c.send (.g b.ra) (blockEnd b.base b.mask b.dir) 1 else c))

/-- A load. One into g30 completes before the next issue cycle (R282). -/
def State.loadTo (s : State) (n : Nat) (d : CReg) (a : Word) (k : Nat) (sign : Bool) : Option CoreFault × State :=
  match s.coreRead n a.toNat k with
  | (.data w, t) =>
    let v := loadValue k sign w
    if d = .g 30 then
      if (t.core n).violates v then (some ⟨6, v, false⟩, t) else (none, t.setCore n ((t.core n).send d v 1))
    else (none, t.setCore n ((t.core n).send d v 3))
  | (.error e, t) => (some ⟨e.cause, a, false⟩, t)
  | (.done, t) => (none, t)

/-- RET: the word at RSP (R283). -/
def State.popReturn (s : State) (n : Nat) (a : Word) : Option CoreFault × State :=
  match s.coreRead n a.toNat 4 with
  | (.data w, t) =>
    if w.toNat % 4 ≠ 0 then (some ⟨2, w, false⟩, t)
    else (none, t.setCore n { (t.core n).setCr 4 (a + 4#32) with pc := w })
  | (.error e, t) => (some ⟨e.cause, a, false⟩, t)
  | (.done, t) => (none, t)

/-! ### Taking an exception (R319 to R322, R324) -/

/-- The word that describes a result in flight. -/
def Flight.descriptor (x : Flight) : Word :=
  match x.reg with
  | .g r => w32 (at_ x.k 16 + r)
  | .f r => w32 (at_ x.k 16 + at_ 1 8 + r)

/-- Words of a re-issue entry; of an absent one they are unspecified. -/
def State.entryWords (s : State) (o : Option (List Word)) : List Word × State :=
  match o with
  | some l => (l, s)
  | none =>
    let (a, s) := s.free
    let (b, s) := s.free
    let (c, s) := s.free
    ([a, b, c], s)

/-- The words of a frame with their numbers (R321). Operand B of a square root is not stated. -/
def State.frameWords (s : State) (c : CoreCtx) (pc : Word) : List (Nat × Word) × State :=
  let l := c.flight.take 6
  let header := at_ (b2n c.div.isSome) 8 + at_ (b2n c.fpu.isSome) 9 + at_ (b2n c.blk.isSome) 10 + l.length
  let head := [c.crv 0, pc, c.crv 0x21, c.crv 0x22, c.crv 6, c.crv 5] ++ (List.range 7).map (fun i => c.gr (i + 1)) ++ [w32 header]
  let (d, s) := s.entryWords (c.div.map (fun o => [o.word, o.a, o.b]))
  let (x, s) := if c.fpu.any (fun o => fld o.word 5 0 == 5) then s.free else (0#32, s)
  let (f, s) := s.entryWords (c.fpu.map (fun o => [o.word, o.a, if fld o.word 5 0 = 5 then x else o.b]))
  let (b, s) := s.entryWords (c.blk.map (fun o => [o.word, o.base, o.mask]))
  let num := fun (k : Nat) (x : List Word) => (List.range x.length).map (fun i => (k + i, x.getD i 0#32))
  (num 0 head ++ num 14 (l.map (fun x => [x.descriptor, x.value])).flatten ++ num 26 (d ++ f ++ b), s)

/-- Write words of a frame; the cause and address of the access that fails. -/
def State.pushFrame (s : State) (n : Nat) (base : Word) : List (Nat × Word) → Option (Nat × Word) × State
  | [] => (none, s)
  | (i, w) :: l =>
    let a := base + w32 (4 * i)
    match s.busWrite (.core (Fin.ofNat 8 n)) a.toNat 4 w with
    | (.error e, t) => (some (e.cause, a), t)
    | (_, t) => t.pushFrame n base l

/-- The context in which the handler starts. -/
def CoreCtx.entered (c : CoreCtx) (base vector xcause xaddr : Word) : CoreCtx :=
  let c := { c with
    flight := [], advanced := false, div := none, fpu := none, blk := none, pc := vector, frames := base :: c.frames }
  let st := setFld (setBit (setBit (c.crv 0) 31 true) 29 false) 13 8 0
  let c := ((c.setCr 0 st).setCr 0x21 xcause).setCr 0x22 xaddr
  (c.setCr 0x24 (w32 (satTo 0xFFFF ((c.crv 0x24).toNat + 1)))).put (.g 30) base

/-- Take an exception: `ret` is the saved PC where it is not that of the context. -/
def State.takeException (s : State) (n cause : Nat) (xaddr : Word) (imm : Nat) (deferred : Bool) (ret : Option Word) :
    State :=
  let s := s.parkCore n
  let c := s.core n
  let base := c.gr 30 - 272#32
  if c.violates base then s.safeHalt n 1
  else
    let (l, t) := s.frameWords c (ret.getD c.pc)
    match t.pushFrame n base l with
    | (some _, u) => u.safeHalt n 2
    | (none, u) =>
      match u.coreRead n (c.crv 0x20 + w32 (4 * cause)).toNat 4 with
      | (.data v, x) =>
        if v.toNat % 4 ≠ 0 then x.safeHalt n 3
        else x.setCore n (c.entered base v (w32 (at_ (b2n deferred) 31 + at_ imm 8 + cause)) xaddr)
      | (_, x) => x.safeHalt n 3

/-- Raise the exception of a fault. -/
def State.raiseFault (s : State) (n : Nat) (f : CoreFault) : State := s.takeException n f.cause f.addr 0 false none

/-- Fill words 35 to 67 of the frame of this level (R322). -/
def State.fpFill (s : State) (n : Nat) : Option CoreFault × State :=
  let c := s.core n
  match c.frames with
  | [] => (none, s)
  | base :: _ =>
    if c.crv 0x24 = 0#32 || c.fps then (none, s)
    else
      let l := (35, c.crv 2) :: (List.range 32).map (fun i => (36 + i, c.fr i))
      match s.pushFrame n base l with
      | (some (e, a), t) => (some ⟨e, a, false⟩, t)
      | (none, t) => (none, t.mapCtx n (fun c => c.setCr 0 (setBit (c.crv 0) 29 true)))

/-! ### Returning from an exception (R323) -/

/-- Read words of a frame. -/
def State.pullWords (s : State) (n : Nat) (base : Word) : List Nat → Except (Nat × Word) (List Word) × State
  | [] => (.ok [], s)
  | i :: l =>
    let a := base + w32 (4 * i)
    match s.coreRead n a.toNat 4 with
    | (.data w, t) => (match t.pullWords n base l with
      | (.ok r, u) => (.ok (w :: r), u)
      | x => x)
    | (.error e, t) => (.error (e.cause, a), t)
    | (.done, t) => (.ok [], t)

/-- A result in flight as a frame records it. -/
def flightOf (d v : Word) : Flight := ⟨if bit d 8 then .f (fld d 4 0) else .g (fld d 4 0), v, fld d 17 16⟩

/-- A divide that runs again. -/
def redoDiv (w a b : Word) : LongOp := ⟨w, a, b, .g (fld w 25 21), divide (fld w 1 0) a b, 0#32⟩

/-- An FP divide or square root that runs again. -/
def redoFp (rm : RMode) (w a b : Word) : LongOp :=
  let r := fLong (fld w 5 0) rm a b
  ⟨w, a, b, .f (fld w 25 21), r.1, r.2⟩

/-- Values of the registers of a mask, for a block store. -/
def CoreCtx.blockData (c : CoreCtx) (regs : List CReg) : List Word :=
  regs.map (fun r => match r with
    | .g i => c.gr i
    | .f i => c.fr i)

/-- A block transfer that resumes at word `k`. -/
def CoreCtx.redoBlock (c : CoreCtx) (w base mask : Word) (k : Nat) : BlockOp :=
  let b : BlockOp := ⟨w, base, mask, k, []⟩
  if b.load then b else { b with data := c.blockData b.regs }

/-- The context that a frame gives back. `h` holds words 0 to 13, `r` the recorded results, `e` words 26 to 34, `f`
words 35 to 67 where they are restored. -/
def CoreCtx.returned (c : CoreCtx) (h r e : List Word) (f : Option (List Word)) : CoreCtx :=
  let g := fun (l : List Word) (i : Nat) => l.getD i 0#32
  let c := match f with
    | some l => (List.range 32).foldl (fun (c : CoreCtx) i => c.put (.f i) (g l (i + 1))) (c.writeCr 2 (g l 0))
    | none => c
  let base := c.gr 30
  let c := ((((c.writeCr 0 (g h 0)).writeCr 0x21 (g h 2)).writeCr 0x22 (g h 3)).writeCr 6 (g h 4)).writeCr 5 (g h 5)
  let c := (List.range 7).foldl (fun (c : CoreCtx) i => c.put (.g (i + 1)) (g h (i + 6))) c
  let c := c.put (.g 30) (base + 272#32)
  let c := c.setCr 0x24 (w32 ((c.crv 0x24).toNat - 1))
  let l := (List.range (r.length / 2)).map (fun i => flightOf (g r (2 * i)) (g r (2 * i + 1)))
  let c := (l.filter (fun x => x.k == 0)).foldl (fun c x => c.put x.reg x.value) c
  { c with
    pc := g h 1, frames := c.frames.tail, advanced := true, flight := l.filter (fun x => x.k != 0)
    div := if bit (g h 13) 8 then some (redoDiv (g e 0) (g e 1) (g e 2)) else none
    fpu := if bit (g h 13) 9 then some (redoFp (rmOf (c.crv 2)) (g e 3) (g e 4) (g e 5)) else none
    blk := if bit (g h 13) 10 then some (c.redoBlock (g e 6) (g e 7) (g e 8) (fld (c.crv 0) 13 8)) else none }

/-- RETX reads the frame at g30 and resumes; the handler's own results have landed. -/
def State.popFrame (s : State) (n : Nat) : Option CoreFault × State :=
  let c := (s.core n).landAll
  let base := c.gr 30
  if base.toNat % 4 ≠ 0 then (some ⟨2, base, false⟩, s)
  else match s.pullWords n base (List.range 14) with
    | (.error (e, a), t) => (some ⟨e, a, false⟩, t)
    | (.ok h, t) =>
      let hd := h.getD 13 0#32
      let pc := h.getD 1 0#32
      if pc.toNat % 4 ≠ 0 then (some ⟨2, pc, false⟩, t)
      else match t.pullWords n base ((List.range (2 * min 6 (fld hd 2 0))).map (fun i => 14 + i)) with
        | (.error (e, a), u) => (some ⟨e, a, false⟩, u)
        | (.ok r, u) =>
          match u.pullWords n base ((List.range 9).map (fun i => 26 + i)) with
          | (.error (e, a), v) => (some ⟨e, a, false⟩, v)
          | (.ok en, v) =>
            if c.fps then
              match v.pullWords n base ((List.range 33).map (fun i => 35 + i)) with
              | (.error (e, a), x) => (some ⟨e, a, false⟩, x)
              | (.ok f, x) => (none, x.setCore n (c.returned h r en (some f)))
            else (none, v.setCore n (c.returned h r en none))

/-! ### Issue -/

/-- Make an access. -/
def State.perform (s : State) (n : Nat) : CoreAccess → Option CoreFault × State
  | .store a k v => (none, (s.masterWrite (.core (Fin.ofNat 8 n)) a.toNat k v).2)
  | .load d a k sign => s.loadTo n d a k sign
  | .block => s.blockNow n
  | .pop a => s.popReturn n a
  | .frame => s.popFrame n

def State.performOpt (s : State) (n : Nat) : Option CoreAccess → Option CoreFault × State
  | none => (none, s)
  | some a => s.perform n a

/-- The access that the first of a possible pair still has to make. -/
def State.heldAccess (s : State) (n : Nat) : Option CoreAccess :=
  match (s.coreRec n).pair with
  | some p => p.held
  | none => none

/-- A load that would freeze the core. -/
def State.accessFrozen (s : State) (n : Nat) : Option CoreAccess → Bool
  | some (.load _ a _ _) => s.frozenRead n a.toNat
  | some .block => s.blockFrozen n (s.core n).blk
  | some (.pop a) => s.frozenRead n a.toNat
  | _ => false

/-- The first of a possible pair has issued alone: it makes its access. -/
def State.flushPair (s : State) (n : Nat) : Option CoreFault × State :=
  match s.performOpt n (s.heldAccess n) with
  | (some f, t) => (some f, t)
  | (none, t) => (none, t.clearPair n)

/-- Does the instruction issue in the cycle of the one before it (R291)? -/
def State.joins (s : State) (n : Nat) (o : CoreOp) : Bool :=
  match (s.coreRec n).pair with
  | none => false
  | some p => (s.core n).native && !o.sys && !(p.mem && o.mem) && !(p.long && o.unit.isSome) && !clash p.writes o.writes

/-- The fetch of the instruction (R288): instruction TCM, flash, system SRAM. A word in error behind a cache may have been
fetched before. -/
def State.fetchFault (s : State) (n : Nat) : Option CoreFault × State :=
  let pc := (s.core n).pc
  let a := pc.toNat
  let bad : Option CoreFault := some ⟨3, pc, false⟩
  if a < 0x80000 then
    let g := 0x30000000 + 0x100000 * n + a
    if s.eccBad g then (bad, s.eccAccess g) else (none, s.eccRead g)
  else if 0x10000000 ≤ a ∧ a < 0x12000000 then
    if (s.flashMark a).sound then (none, s)
    else
      let (hit, t) := s.freeBit
      if hit && s.icOn n a then (none, t)
      else match t.flashRead a 4 with
        | (some _, u) => (none, u)
        | (none, u) => (bad, u)
  else if 0x20000000 ≤ a ∧ a < 0x21000000 then
    if s.eccMark a = .good then (none, s)
    else
      let (hit, t) := s.freeBit
      if hit && s.icOn n a then (none, t) else if s.eccBad a then (bad, t.eccAccess a) else (none, t.eccRead a)
  else (bad, s)

/-- Where an instruction stands before its issue cycle: the core freezes, an exception comes first, or it issues. -/
inductive Approach where
  | stay
  | fault (f : CoreFault) (s : State)
  | go (s : State)

/-- Long operations that an instruction waits for complete. -/
def State.interlock (s : State) (n : Nat) (o : CoreOp) : Approach :=
  let c := s.pendingOps n
  let s := if o.waitsFor c 0 then s.unitDone n 0 else s
  let s := if o.waitsFor c 1 then s.unitDone n 1 else s
  if o.waitsFor c 2 then
    if s.blockFrozen n c.blk then .stay
    else match s.blockDone n with
      | (some f, t) => .fault f t
      | (none, t) => .go t
  else .go s

/-- Checks of an instruction that can be fetched and waits for nothing. -/
def State.check (s : State) (n : Nat) (o : CoreOp) : Approach :=
  if o.illegal then .fault ⟨1, o.word, false⟩ s
  else if o.sup && !(s.core n).sup then .fault ⟨4, o.word, false⟩ s
  else if o.fp then
    match s.fpFill n with
    | (some f, t) => .fault f t
    | (none, t) => .go t
  else .go s

/-- An instruction comes up. The registers that a block transfer names are known once its mask is (R293). -/
def State.approach (s : State) (n : Nat) (op : CoreCtx → CoreOp) (joins : Bool) : Approach :=
  let pc := (s.core n).pc.toNat
  if (s.flashHolds pc && !s.icOn n pc) || s.accessFrozen n (s.heldAccess n) then .stay
  else match (if joins then (none, s) else s.flushPair n) with
    | (some f, t) => .fault f t
    | (none, t) =>
      match t.fetchFault n with
      | (some f, u) => .fault f u
      | (none, u) =>
        match u.interlock n (op (u.preview n joins)) with
        | .stay => .stay
        | .fault f v => .fault f v
        | .go v =>
          match v.interlock n (op (v.preview n joins)) with
          | .stay => .stay
          | .fault f w => .fault f w
          | .go w => w.check n (op (w.preview n joins))

/-- What an instruction does to its context, and the access it makes: results with their distances, the next PC, flags,
a long operation that it starts, RSP. -/
structure CoreOut where
  results : List Flight
  pc : Word
  flags : Word
  div : Option LongOp
  fpu : Option LongOp
  blk : Option BlockOp
  rsp : Option Word
  acc : Option CoreAccess
deriving DecidableEq, Repr

def CoreOut.applyTo (o : CoreOut) (c : CoreCtx) : CoreCtx :=
  let c := o.results.foldl (fun c x => c.send x.reg x.value x.k) (c.raiseFlags o.flags)
  let c := match o.rsp with
    | some v => c.setCr 4 v
    | none => c
  { c with
    pc := o.pc
    div := if o.div.isSome then o.div else c.div
    fpu := if o.fpu.isSome then o.fpu else c.fpu
    blk := if o.blk.isSome then o.blk else c.blk }

/-- In COMPAT an instruction completes before the next begins (R295). -/
def State.settlePair (s : State) (n : Nat) : State :=
  if !(s.core n).compat then s
  else match s.longAll n with
    | (some f, t) => t.raiseFault n f
    | (none, t) => t.setCore n (t.core n).landAll

/-- The instruction has issued: it waits for a partner, or its access and its partner's are made in program order. -/
def State.commitIssue (s : State) (n : Nat) (o : CoreOp) (joins : Bool) (c : CoreCtx) (acc : Option CoreAccess) : State :=
  let t := s.setCore n c
  if !joins && o.p && c.native && !o.ctl && !o.sys then
    t.setCoreRec n { t.coreRec n with
      pair := some { undo := s.core n, writes := o.writes, mem := o.mem, long := o.unit.isSome, held := acc } }
  else match t.performOpt n (t.heldAccess n) with
    | (some f, u) => u.raiseFault n f
    | (none, u) =>
      match u.performOpt n acc with
      | (none, v) => (v.clearPair n).settlePair n
      | (some f, v) =>
        if f.behind then v.raiseFault n f
        else
          let w := (t.performOpt n acc).2
          (if joins then w else w.setCore n (s.core n)).raiseFault n f

/-- A core issues instructions now: it runs, and it is no upper core of a locked pair. -/
def State.coreReady (s : State) (n : Nat) : Bool := s.coresGo && s.coreRun n == 1 && !s.upperLocked n

/-- Issue an instruction of the pipe. -/
def State.issue (s : State) (n : Nat) (op : CoreCtx → CoreOp) (run : CoreCtx → Except CoreFault CoreOut) : State :=
  if !s.coreReady n then s
  else
    let joins := s.joins n (op (s.core n))
    match s.approach n op joins with
    | .stay => s
    | .fault f t => t.raiseFault n f
    | .go t =>
      let c := t.preview n joins
      match run c with
      | .error f => t.raiseFault n f
      | .ok out =>
        match (out.results.map (fun x => (x.reg, x.value)) ++ (out.div.toList.map (fun x => (x.dest, x.result)))).find?
            (fun x => x.1 == .g 30 && c.violates x.2) with
        | some x => t.raiseFault n ⟨6, x.2, false⟩
        | none =>
          let c' := out.applyTo c
          if (t.setCore n c').accessFrozen n out.acc then s else t.commitIssue n (op c) joins c' out.acc

/-- Issue a SYS instruction or a bank move: `f` acts on the state in the instruction's own cycle. -/
def State.issueSys (s : State) (n : Nat) (o : CoreOp) (f : State → State) : State :=
  if !s.coreReady n then s
  else match s.approach n (fun _ => o) false with
    | .stay => s
    | .fault e t => t.raiseFault n e
    | .go t => f (t.setCore n (t.preview n false))

/-- The instruction is over: the PC advances. -/
def State.sysDone (s : State) (n : Nat) (f : CoreCtx → CoreCtx) : State :=
  let c := f (s.core n)
  (s.setCore n { c with pc := c.pc + 4#32 }).settlePair n

end Sys2Proof.Machine
end

