-- ==== Sys2Proof/Machine/CoreAlu.lean ====
section
/-!
DEFINITION. Integer and floating-point instructions of the cores (R279 to R281, R303 to R305). Each instruction is its
word, what it reads and writes, its result and the distance of the result (R289).
-/
namespace Sys2Proof.Machine
open Sys2Proof

/-- An instruction that changes nothing but the PC. -/
def CoreCtx.out (c : CoreCtx) : CoreOut :=
  { results := [], pc := c.pc + 4#32, flags := 0#32, div := none, fpu := none, blk := none, rsp := none, acc := none }

/-- One result in a g register at distance `k`. -/
def gResult (rd k : Nat) (f : CoreCtx → Word) (c : CoreCtx) : Except CoreFault CoreOut :=
  .ok { c.out with results := [⟨.g rd, f c, k⟩] }

/-- One floating-point result at distance `k`, with its flags. -/
def fResult (d : CReg) (k : Nat) (f : RMode → CoreCtx → FOut) (c : CoreCtx) : Except CoreFault CoreOut :=
  let r := f (rmOf (c.crv 2)) c
  .ok { c.out with results := [⟨d, r.1, k⟩], flags := r.2 }

/-- An ALU or multiply instruction of two g registers. -/
def State.intRR (s : State) (n : Nat) (p : Bool) (major op rd ra rb k : Nat) (f : Word → Word → Word) : State :=
  s.issue n (fun _ => pipeOp (encR p major rd ra rb 0 op) p [.g ra, .g rb] [.g rd])
    (gResult rd k (fun c => f (c.gr ra) (c.gr rb)))

/-- An ALU instruction of one g register; `sh` is the shift amount of the immediate forms. -/
def State.intR (s : State) (n : Nat) (p : Bool) (op rd ra sh : Nat) (f : Word → Word) : State :=
  s.issue n (fun _ => pipeOp (encR p 0 rd ra 0 sh op) p [.g ra] [.g rd]) (gResult rd 1 (fun c => f (c.gr ra)))

/-- An immediate instruction. -/
def State.intRI (s : State) (n : Nat) (word : Word) (p : Bool) (rd ra : Nat) (f : Word → Word) : State :=
  s.issue n (fun _ => pipeOp word p [.g ra] [.g rd]) (gResult rd 1 (fun c => f (c.gr ra)))

/-- A divide (R279, R292). -/
def State.intDiv (s : State) (n : Nat) (p : Bool) (op rd ra rb : Nat) : State :=
  let word := encR p 8 rd ra rb 0 op
  s.issue n (fun _ => { pipeOp word p [.g ra, .g rb] [.g rd] with unit := some 0 })
    (fun c => .ok { c.out with div := some ⟨word, c.gr ra, c.gr rb, .g rd, divide op (c.gr ra) (c.gr rb), 0#32⟩ })

/-- FDIV or FSQRT (R292, R304). -/
def State.fpDiv (s : State) (n : Nat) (p : Bool) (op rd ra rb : Nat) (reads : List CReg) : State :=
  let word := encR p 8 rd ra rb 0 op
  s.issue n (fun _ => { pipeOp word p reads [.f rd] with unit := some 1 })
    (fun c =>
      let r := fLong op (rmOf (c.crv 2)) (c.fr ra) (c.fr rb)
      .ok { c.out with fpu := some ⟨word, c.fr ra, c.fr rb, .f rd, r.1, r.2⟩ })

/-- A floating-point instruction of two f registers. -/
def State.fpRR (s : State) (n : Nat) (p : Bool) (op : Nat) (d : CReg) (rd ra rb k : Nat)
    (f : RMode → Word → Word → FOut) : State :=
  s.issue n (fun _ => pipeOp (encR p 9 rd ra rb 0 op) p [.f ra, .f rb] [d])
    (fResult d k (fun rm c => f rm (c.fr ra) (c.fr rb)))

/-- A floating-point instruction of one register. -/
def State.fpR (s : State) (n : Nat) (p : Bool) (op : Nat) (d : CReg) (rd : Nat) (a : CReg) (ra k : Nat)
    (f : RMode → Word → FOut) : State :=
  s.issue n (fun _ => pipeOp (encR p 9 rd ra 0 0 op) p [a] [d])
    (fResult d k (fun rm c => f rm (match a with
      | .g r => c.gr r
      | .f r => c.fr r)))

/-- A fused multiply-add. -/
def State.fpFma (s : State) (n : Nat) (p : Bool) (op fd fa fb fc : Nat) (f : RMode → Word → Word → Word → FOut) : State :=
  s.issue n (fun _ => pipeOp (encF p fd fa fb fc op) p [.f fa, .f fb, .f fc] [.f fd])
    (fResult (.f fd) 4 (fun rm c => f rm (c.fr fa) (c.fr fb) (c.fr fc)))

/-- The sign of a word inverted. -/
def flipSign (a : Word) : Word := a ^^^ 0x80000000#32

/-! ### ALU (R304) -/

/-- ADD: rd = ra + rb. -/
def execAdd (n : Fin 8) (p : Bool) (rd ra rb : Fin 32) (s : State) : Host.Outcome State Fault Refusal :=
  .next (s.intRR n.val p 0 0 rd.val ra.val rb.val 1 (fun a b => a + b))

/-- SUB: rd = ra - rb. -/
def execSub (n : Fin 8) (p : Bool) (rd ra rb : Fin 32) (s : State) : Host.Outcome State Fault Refusal :=
  .next (s.intRR n.val p 0 1 rd.val ra.val rb.val 1 (fun a b => a - b))

/-- AND. -/
def execAnd (n : Fin 8) (p : Bool) (rd ra rb : Fin 32) (s : State) : Host.Outcome State Fault Refusal :=
  .next (s.intRR n.val p 0 2 rd.val ra.val rb.val 1 (fun a b => a &&& b))

/-- OR. -/
def execOr (n : Fin 8) (p : Bool) (rd ra rb : Fin 32) (s : State) : Host.Outcome State Fault Refusal :=
  .next (s.intRR n.val p 0 3 rd.val ra.val rb.val 1 (fun a b => a ||| b))

/-- XOR. -/
def execXor (n : Fin 8) (p : Bool) (rd ra rb : Fin 32) (s : State) : Host.Outcome State Fault Refusal :=
  .next (s.intRR n.val p 0 4 rd.val ra.val rb.val 1 (fun a b => a ^^^ b))

/-- ANDN: ra AND NOT rb. -/
def execAndn (n : Fin 8) (p : Bool) (rd ra rb : Fin 32) (s : State) : Host.Outcome State Fault Refusal :=
  .next (s.intRR n.val p 0 5 rd.val ra.val rb.val 1 (fun a b => a &&& ~~~ b))

/-- SHL by bits [7:0] of rb. -/
def execShl (n : Fin 8) (p : Bool) (rd ra rb : Fin 32) (s : State) : Host.Outcome State Fault Refusal :=
  .next (s.intRR n.val p 0 6 rd.val ra.val rb.val 1 aluShl)

/-- SHR by bits [7:0] of rb. -/
def execShr (n : Fin 8) (p : Bool) (rd ra rb : Fin 32) (s : State) : Host.Outcome State Fault Refusal :=
  .next (s.intRR n.val p 0 7 rd.val ra.val rb.val 1 aluShr)

/-- SAR by bits [7:0] of rb. -/
def execSar (n : Fin 8) (p : Bool) (rd ra rb : Fin 32) (s : State) : Host.Outcome State Fault Refusal :=
  .next (s.intRR n.val p 0 8 rd.val ra.val rb.val 1 aluSar)

/-- ROR by bits [4:0] of rb. -/
def execRor (n : Fin 8) (p : Bool) (rd ra rb : Fin 32) (s : State) : Host.Outcome State Fault Refusal :=
  .next (s.intRR n.val p 0 9 rd.val ra.val rb.val 1 aluRor)

/-- SHLI: the amount is SH. -/
def execShli (n : Fin 8) (p : Bool) (rd ra sh : Fin 32) (s : State) : Host.Outcome State Fault Refusal :=
  .next (s.intR n.val p 10 rd.val ra.val sh.val (fun a => aluShl a (w32 sh.val)))

/-- SHRI: the amount is SH. -/
def execShri (n : Fin 8) (p : Bool) (rd ra sh : Fin 32) (s : State) : Host.Outcome State Fault Refusal :=
  .next (s.intR n.val p 11 rd.val ra.val sh.val (fun a => aluShr a (w32 sh.val)))

/-- SARI: the amount is SH. -/
def execSari (n : Fin 8) (p : Bool) (rd ra sh : Fin 32) (s : State) : Host.Outcome State Fault Refusal :=
  .next (s.intR n.val p 12 rd.val ra.val sh.val (fun a => aluSar a (w32 sh.val)))

/-- RORI: the amount is SH. -/
def execRori (n : Fin 8) (p : Bool) (rd ra sh : Fin 32) (s : State) : Host.Outcome State Fault Refusal :=
  .next (s.intR n.val p 13 rd.val ra.val sh.val (fun a => aluRor a (w32 sh.val)))

/-- MIN, signed. -/
def execMin (n : Fin 8) (p : Bool) (rd ra rb : Fin 32) (s : State) : Host.Outcome State Fault Refusal :=
  .next (s.intRR n.val p 0 14 rd.val ra.val rb.val 1 aluMin)

/-- MAX, signed. -/
def execMax (n : Fin 8) (p : Bool) (rd ra rb : Fin 32) (s : State) : Host.Outcome State Fault Refusal :=
  .next (s.intRR n.val p 0 15 rd.val ra.val rb.val 1 aluMax)

/-- MINU. -/
def execMinu (n : Fin 8) (p : Bool) (rd ra rb : Fin 32) (s : State) : Host.Outcome State Fault Refusal :=
  .next (s.intRR n.val p 0 16 rd.val ra.val rb.val 1 aluMinu)

/-- MAXU. -/
def execMaxu (n : Fin 8) (p : Bool) (rd ra rb : Fin 32) (s : State) : Host.Outcome State Fault Refusal :=
  .next (s.intRR n.val p 0 17 rd.val ra.val rb.val 1 aluMaxu)

/-- CLZ. -/
def execClz (n : Fin 8) (p : Bool) (rd ra : Fin 32) (s : State) : Host.Outcome State Fault Refusal :=
  .next (s.intR n.val p 18 rd.val ra.val 0 aluClz)

/-- POPC. -/
def execPopc (n : Fin 8) (p : Bool) (rd ra : Fin 32) (s : State) : Host.Outcome State Fault Refusal :=
  .next (s.intR n.val p 19 rd.val ra.val 0 aluPopc)

/-- BREV: bit reverse. -/
def execBrev (n : Fin 8) (p : Bool) (rd ra : Fin 32) (s : State) : Host.Outcome State Fault Refusal :=
  .next (s.intR n.val p 20 rd.val ra.val 0 aluBrev)

/-- BSWAP: byte reverse. -/
def execBswap (n : Fin 8) (p : Bool) (rd ra : Fin 32) (s : State) : Host.Outcome State Fault Refusal :=
  .next (s.intR n.val p 21 rd.val ra.val 0 aluBswap)

/-- SEXTB. -/
def execSextb (n : Fin 8) (p : Bool) (rd ra : Fin 32) (s : State) : Host.Outcome State Fault Refusal :=
  .next (s.intR n.val p 22 rd.val ra.val 0 aluSextb)

/-- SEXTH. -/
def execSexth (n : Fin 8) (p : Bool) (rd ra : Fin 32) (s : State) : Host.Outcome State Fault Refusal :=
  .next (s.intR n.val p 23 rd.val ra.val 0 aluSexth)

/-- CEQ (R281). -/
def execCeq (n : Fin 8) (p : Bool) (rd ra rb : Fin 32) (s : State) : Host.Outcome State Fault Refusal :=
  .next (s.intRR n.val p 0 24 rd.val ra.val rb.val 1 (fun a b => condWord (a == b)))

/-- CNE. -/
def execCne (n : Fin 8) (p : Bool) (rd ra rb : Fin 32) (s : State) : Host.Outcome State Fault Refusal :=
  .next (s.intRR n.val p 0 25 rd.val ra.val rb.val 1 (fun a b => condWord (a != b)))

/-- CLT, signed. -/
def execClt (n : Fin 8) (p : Bool) (rd ra rb : Fin 32) (s : State) : Host.Outcome State Fault Refusal :=
  .next (s.intRR n.val p 0 26 rd.val ra.val rb.val 1 (fun a b => condWord (decide (sInt a < sInt b))))

/-- CLTU. -/
def execCltu (n : Fin 8) (p : Bool) (rd ra rb : Fin 32) (s : State) : Host.Outcome State Fault Refusal :=
  .next (s.intRR n.val p 0 27 rd.val ra.val rb.val 1 (fun a b => condWord (decide (a.toNat < b.toNat))))

/-- CLE, signed. -/
def execCle (n : Fin 8) (p : Bool) (rd ra rb : Fin 32) (s : State) : Host.Outcome State Fault Refusal :=
  .next (s.intRR n.val p 0 28 rd.val ra.val rb.val 1 (fun a b => condWord (decide (sInt a ≤ sInt b))))

/-- CLEU. -/
def execCleu (n : Fin 8) (p : Bool) (rd ra rb : Fin 32) (s : State) : Host.Outcome State Fault Refusal :=
  .next (s.intRR n.val p 0 29 rd.val ra.val rb.val 1 (fun a b => condWord (decide (a.toNat ≤ b.toNat))))

/-- ADDSAT: signed, saturating. -/
def execAddsat (n : Fin 8) (p : Bool) (rd ra rb : Fin 32) (s : State) : Host.Outcome State Fault Refusal :=
  .next (s.intRR n.val p 0 30 rd.val ra.val rb.val 1 aluAddsat)

/-- SUBSAT: signed, saturating. -/
def execSubsat (n : Fin 8) (p : Bool) (rd ra rb : Fin 32) (s : State) : Host.Outcome State Fault Refusal :=
  .next (s.intRR n.val p 0 31 rd.val ra.val rb.val 1 aluSubsat)

/-! ### Immediates (R303, R304) -/

/-- ADDI: the immediate is sign-extended. -/
def execAddi (n : Fin 8) (p : Bool) (rd ra : Fin 32) (imm : BitVec 16) (s : State) : Host.Outcome State Fault Refusal :=
  .next (s.intRI n.val (encI p 1 rd.val ra.val imm.toNat) p rd.val ra.val (fun a => a + imm.signExtend 32))

/-- ANDI: the immediate is zero-extended. -/
def execAndi (n : Fin 8) (p : Bool) (rd ra : Fin 32) (imm : BitVec 16) (s : State) : Host.Outcome State Fault Refusal :=
  .next (s.intRI n.val (encI p 2 rd.val ra.val imm.toNat) p rd.val ra.val (fun a => a &&& imm.zeroExtend 32))

/-- ORI: the immediate is zero-extended. -/
def execOri (n : Fin 8) (p : Bool) (rd ra : Fin 32) (imm : BitVec 16) (s : State) : Host.Outcome State Fault Refusal :=
  .next (s.intRI n.val (encI p 3 rd.val ra.val imm.toNat) p rd.val ra.val (fun a => a ||| imm.zeroExtend 32))

/-- XORI: the immediate is zero-extended. -/
def execXori (n : Fin 8) (p : Bool) (rd ra : Fin 32) (imm : BitVec 16) (s : State) : Host.Outcome State Fault Refusal :=
  .next (s.intRI n.val (encI p 4 rd.val ra.val imm.toNat) p rd.val ra.val (fun a => a ^^^ imm.zeroExtend 32))

/-- LUI: rd = imm16 << 16. -/
def execLui (n : Fin 8) (p : Bool) (rd : Fin 32) (imm : BitVec 16) (s : State) : Host.Outcome State Fault Refusal :=
  .next (s.issue n.val (fun _ => pipeOp (encI p 5 rd.val 0 imm.toNat) p [] [.g rd.val])
    (gResult rd.val 1 (fun _ => w32 (at_ imm.toNat 16))))

/-- CMPI under COND. -/
def execCmpi (n : Fin 8) (p : Bool) (rd ra : Fin 32) (cond : Fin 8) (imm : BitVec 13) (s : State) : Host.Outcome State Fault Refusal :=
  .next (s.intRI n.val (encC p rd.val ra.val cond.val imm.toNat) p rd.val ra.val
    (fun a => condWord (cmpCond cond.val a (imm.signExtend 32))))

/-! ### Multiply and divide (R279, R304) -/

/-- MUL: low word. -/
def execMul (n : Fin 8) (p : Bool) (rd ra rb : Fin 32) (s : State) : Host.Outcome State Fault Refusal :=
  .next (s.intRR n.val p 7 0 rd.val ra.val rb.val 2 (fun a b => a * b))

/-- MULH: high word, signed. -/
def execMulh (n : Fin 8) (p : Bool) (rd ra rb : Fin 32) (s : State) : Host.Outcome State Fault Refusal :=
  .next (s.intRR n.val p 7 1 rd.val ra.val rb.val 2 (fun a b => mulHigh (sInt a) (sInt b)))

/-- MULHU: high word, unsigned. -/
def execMulhu (n : Fin 8) (p : Bool) (rd ra rb : Fin 32) (s : State) : Host.Outcome State Fault Refusal :=
  .next (s.intRR n.val p 7 2 rd.val ra.val rb.val 2 (fun a b => mulHigh a.toNat b.toNat))

/-- MULHSU: ra signed, rb unsigned. -/
def execMulhsu (n : Fin 8) (p : Bool) (rd ra rb : Fin 32) (s : State) : Host.Outcome State Fault Refusal :=
  .next (s.intRR n.val p 7 3 rd.val ra.val rb.val 2 (fun a b => mulHigh (sInt a) b.toNat))

/-- DIV. -/
def execDiv (n : Fin 8) (p : Bool) (rd ra rb : Fin 32) (s : State) : Host.Outcome State Fault Refusal :=
  .next (s.intDiv n.val p 0 rd.val ra.val rb.val)

/-- DIVU. -/
def execDivu (n : Fin 8) (p : Bool) (rd ra rb : Fin 32) (s : State) : Host.Outcome State Fault Refusal :=
  .next (s.intDiv n.val p 1 rd.val ra.val rb.val)

/-- REM. -/
def execRem (n : Fin 8) (p : Bool) (rd ra rb : Fin 32) (s : State) : Host.Outcome State Fault Refusal :=
  .next (s.intDiv n.val p 2 rd.val ra.val rb.val)

/-- REMU. -/
def execRemu (n : Fin 8) (p : Bool) (rd ra rb : Fin 32) (s : State) : Host.Outcome State Fault Refusal :=
  .next (s.intDiv n.val p 3 rd.val ra.val rb.val)

/-- FDIV: fd = fa / fb. -/
def execFdiv (n : Fin 8) (p : Bool) (rd ra rb : Fin 32) (s : State) : Host.Outcome State Fault Refusal :=
  .next (s.fpDiv n.val p 4 rd.val ra.val rb.val [.f ra.val, .f rb.val])

/-- FSQRT. -/
def execFsqrt (n : Fin 8) (p : Bool) (rd ra : Fin 32) (s : State) : Host.Outcome State Fault Refusal :=
  .next (s.fpDiv n.val p 5 rd.val ra.val 0 [.f ra.val])

/-! ### Floating point (R280, R305) -/

/-- FADD. -/
def execFadd (n : Fin 8) (p : Bool) (rd ra rb : Fin 32) (s : State) : Host.Outcome State Fault Refusal :=
  .next (s.fpRR n.val p 0 (.f rd.val) rd.val ra.val rb.val 3 fAdd)

/-- FSUB. -/
def execFsub (n : Fin 8) (p : Bool) (rd ra rb : Fin 32) (s : State) : Host.Outcome State Fault Refusal :=
  .next (s.fpRR n.val p 1 (.f rd.val) rd.val ra.val rb.val 3 fSub)

/-- FMUL. -/
def execFmul (n : Fin 8) (p : Bool) (rd ra rb : Fin 32) (s : State) : Host.Outcome State Fault Refusal :=
  .next (s.fpRR n.val p 2 (.f rd.val) rd.val ra.val rb.val 3 fMul)

/-- FMIN: minNum. -/
def execFmin (n : Fin 8) (p : Bool) (rd ra rb : Fin 32) (s : State) : Host.Outcome State Fault Refusal :=
  .next (s.fpRR n.val p 3 (.f rd.val) rd.val ra.val rb.val 1 (fun _ => fMin))

/-- FMAX: maxNum. -/
def execFmax (n : Fin 8) (p : Bool) (rd ra rb : Fin 32) (s : State) : Host.Outcome State Fault Refusal :=
  .next (s.fpRR n.val p 4 (.f rd.val) rd.val ra.val rb.val 1 (fun _ => fMax))

/-- FABS. -/
def execFabs (n : Fin 8) (p : Bool) (rd ra : Fin 32) (s : State) : Host.Outcome State Fault Refusal :=
  .next (s.fpR n.val p 5 (.f rd.val) rd.val (.f ra.val) ra.val 1 (fun _ => fAbs))

/-- FNEG. -/
def execFneg (n : Fin 8) (p : Bool) (rd ra : Fin 32) (s : State) : Host.Outcome State Fault Refusal :=
  .next (s.fpR n.val p 6 (.f rd.val) rd.val (.f ra.val) ra.val 1 (fun _ => fNeg))

/-- FCEQ. -/
def execFceq (n : Fin 8) (p : Bool) (rd ra rb : Fin 32) (s : State) : Host.Outcome State Fault Refusal :=
  .next (s.fpRR n.val p 8 (.g rd.val) rd.val ra.val rb.val 1 (fun _ => fCeq))

/-- FCLT. -/
def execFclt (n : Fin 8) (p : Bool) (rd ra rb : Fin 32) (s : State) : Host.Outcome State Fault Refusal :=
  .next (s.fpRR n.val p 9 (.g rd.val) rd.val ra.val rb.val 1 (fun _ => fClt))

/-- FCLE. -/
def execFcle (n : Fin 8) (p : Bool) (rd ra rb : Fin 32) (s : State) : Host.Outcome State Fault Refusal :=
  .next (s.fpRR n.val p 10 (.g rd.val) rd.val ra.val rb.val 1 (fun _ => fCle))

/-- FCUN: unordered. -/
def execFcun (n : Fin 8) (p : Bool) (rd ra rb : Fin 32) (s : State) : Host.Outcome State Fault Refusal :=
  .next (s.fpRR n.val p 11 (.g rd.val) rd.val ra.val rb.val 1 (fun _ => fCun))

/-- FCVTWS: to int32 under RM. -/
def execFcvtws (n : Fin 8) (p : Bool) (rd ra : Fin 32) (s : State) : Host.Outcome State Fault Refusal :=
  .next (s.fpR n.val p 16 (.g rd.val) rd.val (.f ra.val) ra.val 3 fToSigned)

/-- FCVTWUS: to uint32 under RM. -/
def execFcvtwus (n : Fin 8) (p : Bool) (rd ra : Fin 32) (s : State) : Host.Outcome State Fault Refusal :=
  .next (s.fpR n.val p 17 (.g rd.val) rd.val (.f ra.val) ra.val 3 fToUnsigned)

/-- FCVTSW: from int32. -/
def execFcvtsw (n : Fin 8) (p : Bool) (rd ra : Fin 32) (s : State) : Host.Outcome State Fault Refusal :=
  .next (s.fpR n.val p 18 (.f rd.val) rd.val (.g ra.val) ra.val 3 (fun rm a => fOfInt rm (sInt a)))

/-- FCVTSWU: from uint32. -/
def execFcvtswu (n : Fin 8) (p : Bool) (rd ra : Fin 32) (s : State) : Host.Outcome State Fault Refusal :=
  .next (s.fpR n.val p 19 (.f rd.val) rd.val (.g ra.val) ra.val 3 (fun rm a => fOfInt rm a.toNat))

/-- FMVGF: bits f to g. -/
def execFmvgf (n : Fin 8) (p : Bool) (rd ra : Fin 32) (s : State) : Host.Outcome State Fault Refusal :=
  .next (s.fpR n.val p 20 (.g rd.val) rd.val (.f ra.val) ra.val 1 (fun _ a => (a, 0#32)))

/-- FMVFG: bits g to f. -/
def execFmvfg (n : Fin 8) (p : Bool) (rd ra : Fin 32) (s : State) : Host.Outcome State Fault Refusal :=
  .next (s.fpR n.val p 21 (.f rd.val) rd.val (.g ra.val) ra.val 1 (fun _ a => (a, 0#32)))

/-- FMADD: fa × fb + fc. -/
def execFmadd (n : Fin 8) (p : Bool) (fd fa fb fc : Fin 32) (s : State) : Host.Outcome State Fault Refusal :=
  .next (s.fpFma n.val p 0 fd.val fa.val fb.val fc.val (fun rm => fFma rm false))

/-- FMSUB: fa × fb - fc. -/
def execFmsub (n : Fin 8) (p : Bool) (fd fa fb fc : Fin 32) (s : State) : Host.Outcome State Fault Refusal :=
  .next (s.fpFma n.val p 1 fd.val fa.val fb.val fc.val (fun rm a b c => fFma rm false a b (flipSign c)))

/-- FNMSUB: fc - fa × fb. -/
def execFnmsub (n : Fin 8) (p : Bool) (fd fa fb fc : Fin 32) (s : State) : Host.Outcome State Fault Refusal :=
  .next (s.fpFma n.val p 2 fd.val fa.val fb.val fc.val (fun rm a b c => fFma rm false (flipSign a) b c))

/-- FNMADD: -(fa × fb + fc). -/
def execFnmadd (n : Fin 8) (p : Bool) (fd fa fb fc : Fin 32) (s : State) : Host.Outcome State Fault Refusal :=
  .next (s.fpFma n.val p 3 fd.val fa.val fb.val fc.val (fun rm => fFma rm true))

end Sys2Proof.Machine
end

