-- ==== Sys2Proof/Machine/CoreMemory.lean ====
section
/-!
DEFINITION. Loads, stores, block transfers and control transfers of the cores (R283 to R288, R293, R302, R306, R307,
R323).
-/
namespace Sys2Proof.Machine
open Sys2Proof

/-! ### Loads and stores (R284 to R288, R306) -/

/-- Illegal forms: SIZE 3; SIGN in a store; FLD and FST with another SIZE than 2 or with SIGN; a load into the register
that it updates (R285). -/
def memIllegal (load fp : Bool) (rd ra am size : Nat) (sign : Bool) : Bool :=
  size == 3 || (!load && sign) || (fp && (size != 2 || sign)) || (load && !fp && rd == ra && am != 0)

/-- What a load or store is to the pipe. -/
def memOp (word : Word) (p load fp : Bool) (rd ra am size : Nat) (sign : Bool) : CoreOp :=
  let d : CReg := if fp then .f rd else .g rd
  let upd : List CReg := if am = 0 then [] else [.g ra]
  { pipeOp word p (if load then [.g ra] else [.g ra, d]) (if load then d :: upd else upd) with
    illegal := memIllegal load fp rd ra am size sign, mem := true, access := true }

/-- A load or store: the update of ra is a result of distance 1; a misaligned address faults. -/
def memRun (ra am size : Nat) (f : BitVec 11) (acc : CoreCtx → Word → CoreAccess) (c : CoreCtx) : Except CoreFault CoreOut :=
  let (a, u) := c.address ra am size f
  if a.toNat % mSize size ≠ 0 then .error ⟨2, a, false⟩
  else .ok { c.out with results := u.toList.map (fun v => ⟨.g ra, v, 1⟩), acc := some (acc c a) }

/-- LD. -/
def execLd (n : Fin 8) (p : Bool) (rd ra : Fin 32) (am size : Fin 4) (sign : Bool) (f : BitVec 11) (s : State) :
    Host.Outcome State Fault Refusal :=
  .next (s.issue n.val
    (fun _ => memOp (encM p 0xC rd.val ra.val am.val size.val sign f.toNat) p true false rd.val ra.val am.val size.val sign)
    (memRun ra.val am.val size.val f (fun _ a => .load (.g rd.val) a (mSize size.val) sign)))

/-- ST. -/
def execSt (n : Fin 8) (p : Bool) (rd ra : Fin 32) (am size : Fin 4) (sign : Bool) (f : BitVec 11) (s : State) :
    Host.Outcome State Fault Refusal :=
  .next (s.issue n.val
    (fun _ => memOp (encM p 0xD rd.val ra.val am.val size.val sign f.toNat) p false false rd.val ra.val am.val size.val sign)
    (memRun ra.val am.val size.val f (fun c a => .store a (mSize size.val) (c.gr rd.val))))

/-- FLD. -/
def execFld (n : Fin 8) (p : Bool) (rd ra : Fin 32) (am size : Fin 4) (sign : Bool) (f : BitVec 11) (s : State) :
    Host.Outcome State Fault Refusal :=
  .next (s.issue n.val
    (fun _ => memOp (encM p 0xE rd.val ra.val am.val size.val sign f.toNat) p true true rd.val ra.val am.val size.val sign)
    (memRun ra.val am.val size.val f (fun _ a => .load (.f rd.val) a (mSize size.val) sign)))

/-- FST. -/
def execFst (n : Fin 8) (p : Bool) (rd ra : Fin 32) (am size : Fin 4) (sign : Bool) (f : BitVec 11) (s : State) :
    Host.Outcome State Fault Refusal :=
  .next (s.issue n.val
    (fun _ => memOp (encM p 0xF rd.val ra.val am.val size.val sign f.toNat) p false true rd.val ra.val am.val size.val sign)
    (memRun ra.val am.val size.val f (fun c a => .store a (mSize size.val) (c.fr rd.val))))

/-! ### Block transfers (R293) -/

/-- What a block transfer is to the pipe, its mask being known. -/
def blockOpOf (word : Word) (p load : Bool) (ra rm : Nat) (dir wb fp : Bool) (mask : Word) : CoreOp :=
  let regs := blockRegs mask dir fp
  let base : List CReg := if wb then [.g ra] else []
  { pipeOp word p ([.g ra, .g rm] ++ if load then [] else regs) (base ++ if load then regs else []) with
    illegal := !fp && (bit mask 0 || (wb && bit mask ra)), mem := true, access := true, unit := some 2, fp := fp }

/-- A block transfer starts. A misaligned base, and a written-back g30 below its limit, fault at once. -/
def blockStart (word : Word) (load : Bool) (ra rm : Nat) (dir wb fp : Bool) (c : CoreCtx) : Except CoreFault CoreOut :=
  let mask := c.gr rm
  let base := c.gr ra
  let regs := blockRegs mask dir fp
  let a := blockAddr base dir 0
  if regs ≠ [] ∧ a.toNat % 4 ≠ 0 then .error ⟨2, a, false⟩
  else if wb = true ∧ ra = 30 ∧ c.violates (blockEnd base mask dir) = true then .error ⟨6, blockEnd base mask dir, false⟩
  else .ok { c.out with
    blk := some ⟨word, base, mask, 0, if load then [] else c.blockData regs⟩
    acc := if load && !fp && bit mask 30 then some .block else none }

/-- LDM. -/
def execLdm (n : Fin 8) (p : Bool) (ra rm : Fin 32) (dir wb fp : Bool) (s : State) : Host.Outcome State Fault Refusal :=
  let word := encB p 0x10 ra.val rm.val dir wb fp
  .next (s.issue n.val (fun c => blockOpOf word p true ra.val rm.val dir wb fp (c.gr rm.val))
    (blockStart word true ra.val rm.val dir wb fp))

/-- STM. -/
def execStm (n : Fin 8) (p : Bool) (ra rm : Fin 32) (dir wb fp : Bool) (s : State) : Host.Outcome State Fault Refusal :=
  let word := encB p 0x11 ra.val rm.val dir wb fp
  .next (s.issue n.val (fun c => blockOpOf word p false ra.val rm.val dir wb fp (c.gr rm.val))
    (blockStart word false ra.val rm.val dir wb fp))

/-- LONG_OPERATION_COMPLETE: a unit (0 integer divider, 1 FP unit, 2 block engine) completes (R292). An operation that
began in the present cycle of a possible pair cannot. -/
def State.longComplete (s : State) (n u : Nat) : State :=
  if !s.coreReady n then s
  else if u < 2 then s.unitDone n u
  else if s.blockFrozen n (s.pendingOps n).blk then s
  else match s.blockDone n with
    | (some f, t) => t.raiseFault n f
    | (none, t) => t

def execLongOperationComplete (n : Fin 8) (unit : Fin 3) (s : State) : Host.Outcome State Fault Refusal :=
  .next (s.longComplete n.val unit.val)

/-! ### Control transfers (R283, R288, R302, R307) -/

/-- Continue at an address; a misaligned one faults at the branch. -/
def CoreCtx.jump (c : CoreCtx) (a : Word) : Except CoreFault CoreOut :=
  if a.toNat % 4 ≠ 0 then .error ⟨2, a, false⟩ else .ok { c.out with pc := a }

/-- The target of a branch: its own address plus 4 × offset. -/
def CoreCtx.target (c : CoreCtx) (off : Int) : Word := c.pc + wOfInt (4 * off)

/-- BZ. -/
def execBz (n : Fin 8) (p : Bool) (ra : Fin 32) (off : BitVec 21) (s : State) : Host.Outcome State Fault Refusal :=
  .next (s.issue n.val (fun _ => ctlOp (encBr p 0x12 ra.val off.toNat) p [.g ra.val] false)
    (fun c => if c.gr ra.val = 0#32 then c.jump (c.target off.toInt) else .ok c.out))

/-- BNZ. -/
def execBnz (n : Fin 8) (p : Bool) (ra : Fin 32) (off : BitVec 21) (s : State) : Host.Outcome State Fault Refusal :=
  .next (s.issue n.val (fun _ => ctlOp (encBr p 0x13 ra.val off.toNat) p [.g ra.val] false)
    (fun c => if c.gr ra.val = 0#32 then .ok c.out else c.jump (c.target off.toInt)))

/-- J. -/
def execJ (n : Fin 8) (p : Bool) (off : BitVec 26) (s : State) : Host.Outcome State Fault Refusal :=
  .next (s.issue n.val (fun _ => ctlOp (encJ p 0x14 off.toNat) p [] false) (fun c => c.jump (c.target off.toInt)))

/-- A call pushes the address of the next instruction (R283). -/
def CoreCtx.callTo (c : CoreCtx) (a : Word) : Except CoreFault CoreOut :=
  let sp := c.crv 4 - 4#32
  if c.crv 5 ≠ 0#32 ∧ sp.toNat < (c.crv 5).toNat then .error ⟨6, sp, false⟩
  else if sp.toNat % 4 ≠ 0 then .error ⟨2, sp, false⟩
  else if a.toNat % 4 ≠ 0 then .error ⟨2, a, false⟩
  else .ok { c.out with pc := a, rsp := some sp, acc := some (.store sp 4 (c.pc + 4#32)) }

/-- CALL. -/
def execCall (n : Fin 8) (p : Bool) (off : BitVec 26) (s : State) : Host.Outcome State Fault Refusal :=
  .next (s.issue n.val (fun _ => ctlOp (encJ p 0x15 off.toNat) p [] true) (fun c => c.callTo (c.target off.toInt)))

/-- JR. -/
def execJr (n : Fin 8) (p : Bool) (ra : Fin 32) (s : State) : Host.Outcome State Fault Refusal :=
  .next (s.issue n.val (fun _ => ctlOp (encR p 0x16 0 ra.val 0 0 0) p [.g ra.val] false) (fun c => c.jump (c.gr ra.val)))

/-- CALLR. -/
def execCallr (n : Fin 8) (p : Bool) (ra : Fin 32) (s : State) : Host.Outcome State Fault Refusal :=
  .next (s.issue n.val (fun _ => ctlOp (encR p 0x16 0 ra.val 0 0 1) p [.g ra.val] true) (fun c => c.callTo (c.gr ra.val)))

/-- RET. -/
def execRet (n : Fin 8) (p : Bool) (s : State) : Host.Outcome State Fault Refusal :=
  .next (s.issue n.val (fun _ => ctlOp (encR p 0x16 0 0 0 0 2) p [] true)
    (fun c => if (c.crv 4).toNat % 4 ≠ 0 then .error ⟨2, c.crv 4, false⟩
      else .ok { c.out with acc := some (.pop (c.crv 4)) }))

/-- Events that LOCKOUT deferred are served once it has cleared (R316). -/
def State.reschedule (s : State) (n : Nat) : State := if s.coreRun n = 1 then s.schedule n else s

/-- RETX: the frame may clear LOCKOUT. -/
def execRetx (n : Fin 8) (p : Bool) (s : State) : Host.Outcome State Fault Refusal :=
  .next ((s.issue n.val (fun _ => { ctlOp (encR p 0x16 0 0 0 0 3) p [] true with sup := true, drain := true })
    (fun c => .ok { c.out with acc := some .frame })).reschedule n.val)

end Sys2Proof.Machine
end

