-- ==== Sys2Proof/Machine/CoreSystem.lean ====
section
/-!
DEFINITION. SYS instructions and bank moves of the cores, deferred store faults, debug halt (R188, R296, R299 to R301,
R307, R311, R317, R318, R327, R332).
-/
namespace Sys2Proof.Machine
open Sys2Proof

/-! ### Control registers (R307, R313, R334) -/

/-- MFCR at task level: FPCR, RSP, Mk, CORE_ID. -/
def mfcrTask (k : Nat) : Bool := k == 2 || k == 4 || (decide (8 ≤ k) && decide (k ≤ 0x10))

/-- MTCR at task level: FPCR and Mk. -/
def mtcrTask (k : Nat) : Bool := k == 2 || (decide (8 ≤ k) && decide (k < 0x10))

/-- A control register as software reads it. -/
def CoreCtx.readCr (c : CoreCtx) (id : Word) (k : Nat) : Word := if k = 0x10 then id else c.crv k

/-- MFCR. -/
def execMfcr (n : Fin 8) (p : Bool) (rd : Fin 32) (cr : BitVec 8) (s : State) : Host.Outcome State Fault Refusal :=
  let k := cr.toNat
  .next (s.issue n.val
    (fun _ => sysOp (encS p rd.val 0 k 0) [] [.g rd.val] (!crListed k) (!mfcrTask k) (k == 2))
    (gResult rd.val 1 (fun c => c.readCr (s.coreId n.val) k)))

/-- MTCR: MODE and CACHECTL wait until every result has landed (R296). -/
def execMtcr (n : Fin 8) (p : Bool) (cr : BitVec 8) (ra : Fin 32) (s : State) : Host.Outcome State Fault Refusal :=
  let k := cr.toNat
  let waits := k == 1 || k == 3
  .next (s.issueSys n.val
    { sysOp (encS p 0 ra.val k 1) [.g ra.val] [] (!crListed k) (!mtcrTask k) (k == 2) with drain := waits }
    (fun t => (t.sysDone n.val (fun c =>
      let c := if waits then c.landAll else c
      c.writeCr k (c.gr ra.val))).reschedule n.val))

/-! ### Fences and caches (R299 to R301) -/

/-- Take the oldest deferred store fault (R318). -/
def State.takeDeferred (s : State) (n : Nat) : State :=
  let r := s.coreRec n
  match r.deferred with
  | [] => s
  | (a, cause) :: l => (s.setCoreRec n { r with deferred := l }).takeException n cause a 0 true none

/-- STORE_FAULT_DEFERRED: the response of a store has returned with an error (R318). -/
def execStoreFaultDeferred (n : Fin 8) (s : State) : Host.Outcome State Fault Refusal :=
  .next (if s.coreReady n.val then s.takeDeferred n.val else s)

/-- FENCE waits for every store response, and a deferred fault comes right after it. -/
def execFence (n : Fin 8) (p : Bool) (s : State) : Host.Outcome State Fault Refusal :=
  .next (s.issueSys n.val { sysOp (encS p 0 0 0 2) [] [] false false false with access := true }
    (fun t => (t.sysDone n.val id).takeDeferred n.val))

/-- IFENCE waits for the core's stores too; what a later fetch sees is the command that comes. -/
def execIfence (n : Fin 8) (p : Bool) (s : State) : Host.Outcome State Fault Refusal :=
  .next (s.issueSys n.val { sysOp (encS p 0 0 0 3) [] [] false false false with access := true }
    (fun t => (t.sysDone n.val id).takeDeferred n.val))

/-- ICINV: the line is fetched afresh. -/
def execIcinv (n : Fin 8) (p : Bool) (ra : Fin 32) (s : State) : Host.Outcome State Fault Refusal :=
  .next (s.issueSys n.val (sysOp (encS p 0 ra.val 0 4) [.g ra.val] [] false false false) (fun t => t.sysDone n.val id))

/-- DCINV: the line that holds the address reads memory again. -/
def execDcinv (n : Fin 8) (p : Bool) (ra : Fin 32) (s : State) : Host.Outcome State Fault Refusal :=
  .next (s.issueSys n.val (sysOp (encS p 0 ra.val 0 5) [.g ra.val] [] false false false)
    (fun t => (t.unstale n.val (fun x => x / 64 == ((t.core n.val).gr ra.val).toNat / 64)).sysDone n.val id))

/-- ICINVALL. -/
def execIcinvall (n : Fin 8) (p : Bool) (s : State) : Host.Outcome State Fault Refusal :=
  .next (s.issueSys n.val (sysOp (encS p 0 0 0 6) [] [] false true false) (fun t => t.sysDone n.val id))

/-- DCINVALL. -/
def execDcinvall (n : Fin 8) (p : Bool) (s : State) : Host.Outcome State Fault Refusal :=
  .next (s.issueSys n.val (sysOp (encS p 0 0 0 7) [] [] false true false)
    (fun t => (t.unstale n.val (fun _ => true)).sysDone n.val id))

/-! ### TRAP and WAIT (R317, R327) -/

/-- TRAP: the saved PC is the next instruction. -/
def execTrap (n : Fin 8) (p : Bool) (imm : BitVec 8) (s : State) : Host.Outcome State Fault Refusal :=
  .next (s.issueSys n.val (sysOp (encS p 0 0 imm.toNat 8) [] [] false false false)
    (fun t => t.takeException n.val 7 0#32 imm.toNat false (some ((t.core n.val).pc + 4#32))))

/-- The running slot yields: with PEND it stays READY, else it waits. -/
def State.yieldSlot (s : State) (n : Nat) : State :=
  let i := s.runSlot n
  let s := s.parkCore n
  (if s.slotPend n i then (s.clearPend n i).setSlotSt n i 2 else s.setSlotSt n i 1).runNext n

/-- WAIT. -/
def execWait (n : Fin 8) (p : Bool) (s : State) : Host.Outcome State Fault Refusal :=
  .next (s.issueSys n.val (sysOp (encS p 0 0 0 9) [] [] false false false)
    (fun t => (t.sysDone n.val id).yieldSlot n.val))

/-! ### Bank moves (R332) -/

/-- Illegal bank moves; `own` says that the window is the running slot. -/
def bankIllegal (cls num : Nat) (write own : Bool) : Bool :=
  (cls == 3 && (num != 0 || (write && own))) || (cls == 2 && (!crListed num || num == 0x10)) || (decide (cls < 2) && decide (32 ≤ num))

/-- The slot that BANKWIN names. -/
def State.bankWindow (s : State) (n : Nat) : Nat := fld ((s.core n).crv 0x23) 7 0

/-- The window is in the middle of a spill or fill. -/
def State.windowMoves (s : State) (n : Nat) : Bool :=
  match (s.coreRec n).engine with
  | some (_, i, _) => i == s.bankWindow n
  | none => false

/-- A register of the running bank that a bank move names. -/
def bankRegs (cls num : Nat) (own : Bool) : List CReg :=
  if !own then [] else match cls with
    | 0 => [.g num]
    | 1 => [.f num]
    | _ => []

/-- What MFB reads. PC is the address of the next instruction (R278). -/
def CoreCtx.bankRead (c : CoreCtx) (cls num : Nat) (own : Bool) : Word :=
  match cls with
  | 0 => c.gr num
  | 1 => c.fr num
  | 2 => c.crv num
  | _ => if own then c.pc + 4#32 else c.pc

/-- What MTB writes. -/
def CoreCtx.bankWrite (c : CoreCtx) (cls num : Nat) (v : Word) : CoreCtx :=
  match cls with
  | 0 => c.put (.g num) v
  | 1 => c.put (.f num) v
  | 2 => c.writeCr num v
  | _ => { c with pc := v &&& ~~~ 3#32 }

/-- MFB. -/
def execMfb (n : Fin 8) (p : Bool) (rg : Fin 32) (cls : Fin 4) (num : Fin 64) (s : State) :
    Host.Outcome State Fault Refusal :=
  let w := s.bankWindow n.val
  let own := w == s.runSlot n.val
  let fp := own && (cls.val == 1 || (cls.val == 2 && num.val == 2))
  .next (if s.coreReady n.val && s.windowMoves n.val then s
    else s.issue n.val
      (fun _ => sysOp (encBank p rg.val cls.val num.val 0) (bankRegs cls.val num.val own) [.g rg.val]
          (bankIllegal cls.val num.val false own) true fp)
      (gResult rg.val 1 (fun c => (if own then c else s.slotCtx n.val w).bankRead cls.val num.val own)))

/-- MTB. A register of the running bank takes its value as a result of distance 1. -/
def execMtb (n : Fin 8) (p : Bool) (rg : Fin 32) (cls : Fin 4) (num : Fin 64) (s : State) :
    Host.Outcome State Fault Refusal :=
  let w := s.bankWindow n.val
  let own := w == s.runSlot n.val
  let fp := own && (cls.val == 1 || (cls.val == 2 && num.val == 2))
  let o := sysOp (encBank p rg.val cls.val num.val 1) [.g rg.val] (bankRegs cls.val num.val own)
    (bankIllegal cls.val num.val true own) true fp
  .next (if s.coreReady n.val && s.windowMoves n.val then s
    else if own && decide (cls.val < 2) then
      s.issue n.val (fun _ => o)
        (fun c => .ok { c.out with
          results := (bankRegs cls.val num.val true).map (fun r => ⟨r, c.gr rg.val, 1⟩) })
    else
      (s.issueSys n.val o (fun t =>
        let v := (t.core n.val).gr rg.val
        if own then t.sysDone n.val (fun c => c.bankWrite cls.val num.val v)
        else (t.setSlotCtx n.val w ((t.slotCtx n.val w).bankWrite cls.val num.val v)).sysDone n.val id)).reschedule n.val)

/-! ### Debug halt (R188, R311, R406) -/

/-- DEBUG_HALT: a debug unlock must be in force. -/
def execDebugHalt (who : Fin 9) (s : State) : Host.Outcome State Fault Refusal :=
  .next (if s.mp.unlock = 0 then s else s.debugHalt who.val)

/-- DEBUG_RESUME. -/
def execDebugResume (who : Fin 9) (s : State) : Host.Outcome State Fault Refusal :=
  .next (if s.mp.unlock = 0 then s else (s.debugResume who.val).thawUnits s)

end Sys2Proof.Machine
end

