-- ==== Sys2Proof/Machine/HostAccess.lean ====
section
/-!
DEFINITION. Memory TLPs of the host (R430 to R432): windows, malformed TLPs, Unsupported Request, single accesses.
-/
namespace Sys2Proof.Machine
open Sys2Proof

/-- What a byte of a window is: a device address, a byte of the MSI-X window, or nothing (R430, R431). -/
inductive HostPlace where
  | device (a : Nat)
  | msix (o : Nat)
deriving DecidableEq, Repr

/-- The device address that a window maps at an offset. -/
def windowAt (l : List (Nat × Nat × Nat)) (o : Nat) : Option Nat :=
  (l.find? (fun w => decide (w.1 ≤ o) && decide (o < w.1 + w.2.1))).map (fun w => w.2.2 + (o - w.1))

/-- The place at an offset of HW0 (0), HW1 (1) or the MSI-X window (2). -/
def hostPlace (win o : Nat) : Option HostPlace :=
  match win with
  | 0 => (windowAt hw0 o).map .device
  | 1 => (windowAt hw1 o).map .device
  | _ => if o < 0x1000 then some (.msix o) else none

/-- A TLP that reaches nothing completes as Unsupported Request. -/
def State.hostUnsupported (s : State) (b : Bool) : State := s.setHost { s.host with unsupported := b, completion := [] }

/-- A TLP of `n` DWs that is not whole DWs of at most 256 bytes. -/
def malformedTlp (o : Nat) (whole : Bool) (n : Nat) : Bool := !whole || o % 4 != 0 || n == 0 || decide (64 < n)

/-- FORMAT: the address of a malformed TLP; one to the MSI-X window has no device address, and the spec leaves open what
HP_ERR_ADDR shows. -/
def State.hostFormat (s : State) (p : HostPlace) : State :=
  match p with
  | .device a => s.hostRefused a 2
  | .msix _ => match s.free with
    | (v, t) => t.hostRefused v.toNat 2

/-- One DW of a read TLP. -/
def State.hostReadDw (s : State) (p : HostPlace) : Word × State :=
  match p with
  | .msix o => (s.msixRead o, s)
  | .device a => match s.masterRead .host a 4 with
    | (.data w, t) => (w, t)
    | (_, t) => (0#32, t)

/-- One DW of a write TLP. -/
def State.hostWriteDw (s : State) (p : HostPlace) (v : Word) : State :=
  match p with
  | .msix o => s.msixWrite o v
  | .device a => (s.masterWrite .host a 4 v).2

/-- The DWs of a read TLP in ascending order; none where one reaches nothing. -/
def State.hostReadAll (s : State) : List HostPlace → List Word × State
  | [] => ([], s)
  | p :: r =>
    let (w, t) := s.hostReadDw p
    let (l, u) := t.hostReadAll r
    (w :: l, u)

def State.hostWriteAll (s : State) (l : List (HostPlace × Word)) : State :=
  l.foldl (fun t x => t.hostWriteDw x.1 x.2) s

/-- The places of a TLP, or none where one of its DWs reaches nothing. -/
def tlpPlaces (win o n : Nat) : Option (List HostPlace) :=
  (List.range n).mapM (fun i => hostPlace win (o + 4 * i))

/-- HOST_MEMORY_READ (R432). -/
def State.hostRead (s : State) (win o : Nat) (whole : Bool) (n : Nat) : State :=
  if !s.hostUp then s
  else match hostPlace win o with
    | none => s.hostUnsupported true
    | some p =>
      let s := s.hostUnsupported false
      if malformedTlp o whole n then
        (s.hostFormat p).setHost { (s.hostFormat p).host with completion := List.replicate n 0#32 }
      else match tlpPlaces win o n with
        | none => s.hostUnsupported true
        | some l =>
          let (d, t) := s.hostReadAll l
          t.setHost { t.host with completion := d }

/-- HOST_MEMORY_WRITE (R432). -/
def State.hostWrite (s : State) (win o : Nat) (whole : Bool) (data : List Word) : State :=
  if !s.hostUp then s
  else match hostPlace win o with
    | none => s.hostUnsupported true
    | some p =>
      let s := s.hostUnsupported false
      if malformedTlp o whole data.length then s.hostFormat p
      else match tlpPlaces win o data.length with
        | none => s.hostUnsupported true
        | some l => s.hostWriteAll (l.zip data)

def execHostMemoryRead (win : Fin 3) (off : Word) (whole : Bool) (count : Fin 1025) (s : State) :
    Host.Outcome State Fault Refusal := .next (s.hostRead win.val off.toNat whole count.val)

def execHostMemoryWrite (win : Fin 3) (off : Word) (whole : Bool) (data : List Word) (s : State) :
    Host.Outcome State Fault Refusal := .next (s.hostWrite win.val off.toNat whole data)

end Sys2Proof.Machine
end

