-- ==== Sys2Proof/Machine/RegisterCommands.lean ====
section
/-!
DEFINITION. The commands that are one access to a register with a row of its own, and the access at any address. Each is
the bus access of its master, with its checks (R5, R18, R28).
-/
namespace Sys2Proof.Machine
open Sys2Proof

/-- An access of a core that has failed raises its exception at once, where the core issues: an error response to a read
(R318), a misaligned address (R288). The saved PC is that of the context, for the access is a command of its own and no
instruction's (log entry 10). -/
def State.raiseAccess (s : State) (m : Master) (a : Nat) : BusResult → State
  | .error e => match m with
    | .core c =>
      let n := s.leadCore c.val
      if s.coreReady n then s.raiseFault n ⟨e.cause, w32 a, false⟩ else s
    | _ => s
  | _ => s

/-- A read of a flash bank under PROGRAM or ERASE waits until the operation ends (R345): the command gets no response
(log entry 87). -/
def State.readWaits (s : State) (m : Master) (a : Nat) : Bool :=
  match m with
  | .core n => s.frozenRead n a
  | _ => s.flashHolds a

/-- A command that is one read: its effect and the response. -/
def State.readCmd (s : State) (m : Master) (a n : Nat) : Host.Outcome State Fault Refusal :=
  .next (if s.acts m && !s.readWaits m a then (let x := s.masterRead m a n; (x.2.raiseAccess m a x.1).answer m x.1) else s)

/-- A command that is one write: a store that ends in an error response raises its exception later (R318). -/
def State.writeCmd (s : State) (m : Master) (a n : Nat) (v : Word) : Host.Outcome State Fault Refusal :=
  .next (if s.acts m then
      (let x := s.masterWrite m a n v
       (if ownCheck m a n then x.2 else x.2.raiseAccess m a x.1).answer m x.1)
    else s)

/-- REGISTER_WRITE (R4, R18): a write at any address. -/
def execRegisterWrite (m : Master) (a : Word) (size : AccSize) (v : Word) (s : State) :
    Host.Outcome State Fault Refusal :=
  s.writeCmd m a.toNat (sizeBytes size) v

/-- SC_STATUS_WRITE (R4): a write to a sequence-clear status register. -/
def execScStatusWrite (m : Master) (a v : Word) (s : State) : Host.Outcome State Fault Refusal :=
  s.writeCmd m a.toNat 4 v

/-- LL_READ (R4, R7): a read of a low word latches its high words. -/
def execLlRead (m : Master) (a : Word) (s : State) : Host.Outcome State Fault Refusal :=
  s.readCmd m a.toNat 4

/-- XM_FRAME_CFG_WRITE (R25, R27). -/
def execXmFrameCfgWrite (m : Master) (f : Fin 1024) (v : Word) (s : State) : Host.Outcome State Fault Refusal :=
  s.writeCmd m (R.XM_FRAME_CFGf f.val) 4 v

/-- STAGING_WRITE (R56 to R58): a write through a staging alias. -/
def execStagingWrite (m : Master) (a v : Word) (s : State) : Host.Outcome State Fault Refusal :=
  s.writeCmd m a.toNat 4 v

/-- EB_DIRECT_WRITE (R72, R73): a direct write to an epoch-bound target. -/
def execEbDirectWrite (m : Master) (a v : Word) (s : State) : Host.Outcome State Fault Refusal :=
  s.writeCmd m a.toNat 4 v

/-- TB_RATE_WRITE (R35, R37). -/
def execTbRateWrite (m : Master) (v : Word) (s : State) : Host.Outcome State Fault Refusal :=
  s.writeCmd m R.TB_RATE 4 v

/-- TB_STEP_HI_WRITE (R36, R37). -/
def execTbStepHiWrite (m : Master) (v : Word) (s : State) : Host.Outcome State Fault Refusal :=
  s.writeCmd m R.TB_STEP_HI 4 v

/-- TB_DISC_WRITE (R37). -/
def execTbDiscWrite (m : Master) (v : Word) (s : State) : Host.Outcome State Fault Refusal :=
  s.writeCmd m R.TB_DISC 4 v

/-- TB_START_GO (R41). -/
def execTbStartGo (m : Master) (v : Word) (s : State) : Host.Outcome State Fault Refusal :=
  s.writeCmd m R.TB_START_GO 4 v

/-- TB_START_AT_HI_WRITE (R41, R43). -/
def execTbStartAtHiWrite (m : Master) (v : Word) (s : State) : Host.Outcome State Fault Refusal :=
  s.writeCmd m R.TB_START_AT_HI 4 v

/-- TB_START_CANCEL (R43). -/
def execTbStartCancel (m : Master) (v : Word) (s : State) : Host.Outcome State Fault Refusal :=
  s.writeCmd m R.TB_START_CANCEL 4 v

/-- CAL_SET_HI_WRITE (R47). -/
def execCalSetHiWrite (m : Master) (v : Word) (s : State) : Host.Outcome State Fault Refusal :=
  s.writeCmd m R.CAL_SET_HI 4 v

/-- ALARM_ARM (R51, R52): a write to an alarm's control register. -/
def execAlarmArm (m : Master) (a : Fin 4) (v : Word) (s : State) : Host.Outcome State Fault Refusal :=
  s.writeCmd m (R.CAL_ALARMa_CTRL a.val) 4 v

/-- EP_OPEN_READ (R61). -/
def execEpOpenRead (m : Master) (s : State) : Host.Outcome State Fault Refusal :=
  s.readCmd m R.EP_OPEN 4

/-- EP_STAGE_WRITE (R62). -/
def execEpStageWrite (m : Master) (v : Word) (s : State) : Host.Outcome State Fault Refusal :=
  s.writeCmd m R.EP_STAGE 4 v

/-- EP_SLOT_AT_HI_WRITE (R63). -/
def execEpSlotAtHiWrite (m : Master) (slot : Fin 4) (v : Word) (s : State) : Host.Outcome State Fault Refusal :=
  s.writeCmd m (R.EP_SLOTs_AT_HI slot.val) 4 v

/-- EP_HAUL_GO_WRITE (R63). -/
def execEpHaulGoWrite (m : Master) (v : Word) (s : State) : Host.Outcome State Fault Refusal :=
  s.writeCmd m R.EP_HAUL_GO 4 v

/-- EP_ABANDON_WRITE (R71). -/
def execEpAbandonWrite (m : Master) (v : Word) (s : State) : Host.Outcome State Fault Refusal :=
  s.writeCmd m R.EP_ABANDON 4 v

/-- SN_COUNT_WRITE (R77). -/
def execSnCountWrite (m : Master) (v : Word) (s : State) : Host.Outcome State Fault Refusal :=
  s.writeCmd m R.SN_COUNT 4 v

/-- SN_LOAD (R77). -/
def execSnLoad (m : Master) (v : Word) (s : State) : Host.Outcome State Fault Refusal :=
  s.writeCmd m R.SN_LOAD 4 v

/-- SN_AT_HI_WRITE (R78). -/
def execSnAtHiWrite (m : Master) (v : Word) (s : State) : Host.Outcome State Fault Refusal :=
  s.writeCmd m R.SN_AT_HI 4 v

/-- SN_GO (R78). -/
def execSnGo (m : Master) (v : Word) (s : State) : Host.Outcome State Fault Refusal :=
  s.writeCmd m R.SN_GO 4 v

/-- SN_CANCEL (R78). -/
def execSnCancel (m : Master) (v : Word) (s : State) : Host.Outcome State Fault Refusal :=
  s.writeCmd m R.SN_CANCEL 4 v

/-- FB_FIRE (R262). -/
def execFbFire (m : Master) (v : Word) (s : State) : Host.Outcome State Fault Refusal :=
  s.writeCmd m R.FB_FIRE 4 v

/-- SIGNAL_SET_SWITCH (R269): a write to a set's control register. -/
def execSignalSetSwitch (m : Master) (k : Fin 128) (v : Word) (s : State) : Host.Outcome State Fault Refusal :=
  s.writeCmd m (R.FB_SSs_CTRL k.val) 4 v

/-- FC_ACK (R456). -/
def execFcAck (m : Master) (v : Word) (s : State) : Host.Outcome State Fault Refusal :=
  s.writeCmd m R.FC_ACK 4 v

/-- FC_RESTORE (R459). -/
def execFcRestore (m : Master) (v : Word) (s : State) : Host.Outcome State Fault Refusal :=
  s.writeCmd m R.FC_RESTORE 4 v

/-- FC_RETIRE (R458). -/
def execFcRetire (m : Master) (v : Word) (s : State) : Host.Outcome State Fault Refusal :=
  s.writeCmd m R.FC_RETIRE 4 v

/-- TU_RUN (R171): a write to TU_CTRL without STOP_NOW. -/
def execTuRun (m : Master) (n : Fin 16) (k : Fin 4) (v : Word) (s : State) : Host.Outcome State Fault Refusal :=
  s.writeCmd m (R.TU_CTRL n.val k.val) 4 (setBit v 30 false)

/-- TU_STOP_NOW (R171): a write to TU_CTRL with STOP_NOW. -/
def execTuStopNow (m : Master) (n : Fin 16) (k : Fin 4) (v : Word) (s : State) : Host.Outcome State Fault Refusal :=
  s.writeCmd m (R.TU_CTRL n.val k.val) 4 (setBit v 30 true)

/-- DUTY_LOAD_WRITE (R168, R170). -/
def execDutyLoadWrite (m : Master) (n : Fin 16) (k : Fin 4) (w : Fin 13) (v : Word) (s : State) :
    Host.Outcome State Fault Refusal :=
  s.writeCmd m (R.TU_DLRw n.val k.val w.val) 4 v

/-- TRIP_LATCH_CLEAR (R178): a write to TU_TRIP_CLR without SYS. -/
def execTripLatchClear (m : Master) (n : Fin 16) (k : Fin 4) (v : Word) (s : State) :
    Host.Outcome State Fault Refusal :=
  s.writeCmd m (R.TU_TRIP_CLR n.val k.val) 4 (setBit v 8 false)

/-- SYSTEM_HOLD_RELEASE (R179): a write to TU_TRIP_CLR with SYS. -/
def execSystemHoldRelease (m : Master) (n : Fin 16) (k : Fin 4) (v : Word) (s : State) :
    Host.Outcome State Fault Refusal :=
  s.writeCmd m (R.TU_TRIP_CLR n.val k.val) 4 (setBit v 8 true)

/-- CAPTURE_READ (R185). -/
def execCaptureRead (m : Master) (n : Fin 16) (k : Fin 4) (j : Fin 6) (s : State) :
    Host.Outcome State Fault Refusal :=
  s.readCmd m (R.TU_CHj_CAP_LO n.val k.val j.val) 4

/-- CONVERTER_ENABLE (R198, R201): a write to AC_CTRL. -/
def execConverterEnable (m : Master) (n : Fin 16) (c : Fin 2) (v : Word) (s : State) :
    Host.Outcome State Fault Refusal :=
  s.writeCmd m (R.AC_CTRL n.val c.val) 4 v

/-- AC_DATA_READ (R199). -/
def execAcDataRead (m : Master) (n : Fin 16) (c : Fin 2) (s : State) : Host.Outcome State Fault Refusal :=
  s.readCmd m (R.AC_DATA n.val c.val) 4

/-- CALIBRATION_START (R201): a write of START to AC_CAL. -/
def execCalibrationStart (m : Master) (n : Fin 16) (c : Fin 2) (v : Word) (s : State) :
    Host.Outcome State Fault Refusal :=
  s.writeCmd m (R.AC_CAL n.val c.val) 4 (setBit v 31 true)

/-- SD_DATA_READ (R213). -/
def execSdDataRead (m : Master) (n : Fin 16) (d : Fin 4) (s : State) : Host.Outcome State Fault Refusal :=
  s.readCmd m (R.SD_DATA n.val d.val) 4

/-- EQ_PRESET_WRITE (R229). -/
def execEqPresetWrite (m : Master) (n : Fin 16) (q : Fin 2) (v : Word) (s : State) :
    Host.Outcome State Fault Refusal :=
  s.writeCmd m (R.EQ_PRESET n.val q.val) 4 v

/-- COMPARE_ARM (R235): a write of ARM without DISARM. -/
def execCompareArm (m : Master) (n : Fin 16) (q : Fin 2) (v : Word) (s : State) : Host.Outcome State Fault Refusal :=
  s.writeCmd m (R.EQ_PC_CTRL n.val q.val) 4 (setBit (setBit v 31 true) 30 false)

/-- COMPARE_DISARM (R235): a write of DISARM. -/
def execCompareDisarm (m : Master) (n : Fin 16) (q : Fin 2) (v : Word) (s : State) :
    Host.Outcome State Fault Refusal :=
  s.writeCmd m (R.EQ_PC_CTRL n.val q.val) 4 (setBit v 30 true)

/-- MARK_READ (R241). -/
def execMarkRead (m : Master) (n : Fin 16) (k : Fin 4) (s : State) : Host.Outcome State Fault Refusal :=
  s.readCmd m (R.MK_POS_LO n.val k.val) 4

/-- LE_RUN_WRITE (R93, R108). -/
def execLeRunWrite (m : Master) (n : Fin 16) (e : Fin 6) (v : Word) (s : State) : Host.Outcome State Fault Refusal :=
  s.writeCmd m (R.LE_RUN n.val e.val) 4 v

/-- LAT_WRITE (R115). -/
def execLatWrite (m : Master) (n : Fin 16) (e : Fin 6) (c : Fin 8) (v : Word) (s : State) :
    Host.Outcome State Fault Refusal :=
  s.writeCmd m (R.LE_CTXc_LAT n.val e.val c.val) 4 v

/-- IC_LE_SUBST_WRITE (R108, R116). -/
def execIcLeSubstWrite (m : Master) (n : Fin 16) (v : Word) (s : State) : Host.Outcome State Fault Refusal :=
  s.writeCmd m (R.IC_LE_SUBST n.val) 4 v

/-- SLOT_ENABLE (R328): a write to SCH_SLOTs_CTRL without KICK and INIT. -/
def execSlotEnable (m : Master) (n : Fin 8) (slot : Fin 256) (v : Word) (s : State) :
    Host.Outcome State Fault Refusal :=
  s.writeCmd m (R.SCH_SLOTs_CTRL n.val slot.val) 4 (setBit (setBit v 30 false) 29 false)

/-- SLOT_KICK (R326): a write of KICK. -/
def execSlotKick (m : Master) (n : Fin 8) (slot : Fin 256) (v : Word) (s : State) :
    Host.Outcome State Fault Refusal :=
  s.writeCmd m (R.SCH_SLOTs_CTRL n.val slot.val) 4 (setBit v 30 true)

/-- SLOT_INIT (R328): a write of INIT. -/
def execSlotInit (m : Master) (n : Fin 8) (slot : Fin 256) (v : Word) (s : State) :
    Host.Outcome State Fault Refusal :=
  s.writeCmd m (R.SCH_SLOTs_CTRL n.val slot.val) 4 (setBit v 29 true)

/-- SLOT_PIN (R329): a write of PIN. -/
def execSlotPin (m : Master) (n : Fin 8) (slot : Fin 256) (v : Word) (s : State) : Host.Outcome State Fault Refusal :=
  s.writeCmd m (R.SCH_SLOTs_CTRL n.val slot.val) 4 (setBit (setBit (setBit v 30 false) 29 false) 28 true)

/-- SCH_SPILL_WRITE (R335). -/
def execSchSpillWrite (m : Master) (n : Fin 8) (v : Word) (s : State) : Host.Outcome State Fault Refusal :=
  s.writeCmd m (R.SCH_SPILL n.val) 4 v

/-- SCH_RELEASE (R325). -/
def execSchRelease (m : Master) (n : Fin 8) (v : Word) (s : State) : Host.Outcome State Fault Refusal :=
  s.writeCmd m (R.SCH_RELEASE n.val) 4 v

/-- CORE_HOLD (R314, R328): a write to CC_CTRL that leaves LOCK as it is. -/
def execCoreHold (m : Master) (n : Fin 8) (v : Word) (s : State) : Host.Outcome State Fault Refusal :=
  s.writeCmd m (R.CC_CTRL n.val) 4 (setBit v 30 (s.rb (R.CC_CTRL n.val) 30))

/-- PAIR_LOCK (R310): a write to the lower core's CC_CTRL that leaves HOLD as it is. -/
def execPairLock (m : Master) (n : Fin 8) (v : Word) (s : State) : Host.Outcome State Fault Refusal :=
  s.writeCmd m (R.CC_CTRL (n.val / 2 * 2)) 4 (setBit v 31 (s.rb (R.CC_CTRL (n.val / 2 * 2)) 31))

/-- PW_ISLAND_OFF_WRITE (R466). -/
def execPwIslandOffWrite (m : Master) (v : Word) (s : State) : Host.Outcome State Fault Refusal :=
  s.writeCmd m R.PW_ISLAND_OFF 4 v

/-- PW_ISLAND_ON_WRITE (R467). -/
def execPwIslandOnWrite (m : Master) (v : Word) (s : State) : Host.Outcome State Fault Refusal :=
  s.writeCmd m R.PW_ISLAND_ON 4 v

/-- PW_ISLAND_RESET_WRITE (R467). -/
def execPwIslandResetWrite (m : Master) (v : Word) (s : State) : Host.Outcome State Fault Refusal :=
  s.writeCmd m R.PW_ISLAND_RESET 4 v

/-- WATCH_REQUEST (R468): a write of WATCH to PW_CTRL. -/
def execWatchRequest (m : Master) (v : Word) (s : State) : Host.Outcome State Fault Refusal :=
  s.writeCmd m R.PW_CTRL 4 (setBit v 31 true)

/-- PW_TEST_WRITE (R486). -/
def execPwTestWrite (m : Master) (v : Word) (s : State) : Host.Outcome State Fault Refusal :=
  s.writeCmd m R.PW_TEST 4 v

/-- FLASH_PROGRAM (R342, R343): a write of PROGRAM to FL_Bb_CMD. -/
def execFlashProgram (m : Master) (b : Fin 2) (s : State) : Host.Outcome State Fault Refusal :=
  s.writeCmd m (R.FL_Bb_CMD b.val) 4 0x10000000#32

/-- FLASH_ERASE (R342): a write of ERASE. -/
def execFlashErase (m : Master) (b : Fin 2) (s : State) : Host.Outcome State Fault Refusal :=
  s.writeCmd m (R.FL_Bb_CMD b.val) 4 0x20000000#32

/-- FLASH_CLR_INT (R347): a write of CLR_INT. -/
def execFlashClrInt (m : Master) (b : Fin 2) (s : State) : Host.Outcome State Fault Refusal :=
  s.writeCmd m (R.FL_Bb_CMD b.val) 4 0x30000000#32

/-- DMA_GO (R353): a write of GO. -/
def execDmaGo (m : Master) (c : Fin 64) (v : Word) (s : State) : Host.Outcome State Fault Refusal :=
  s.writeCmd m (R.DMA_CHc_CTRL c.val) 4 (setBit (setBit v 31 true) 30 false)

/-- DMA_STOP (R353): a write of STOP. -/
def execDmaStop (m : Master) (c : Fin 64) (v : Word) (s : State) : Host.Outcome State Fault Refusal :=
  s.writeCmd m (R.DMA_CHc_CTRL c.val) 4 (setBit v 30 true)

/-- QP_PUSH (R364 to R367). -/
def execQpPush (m : Master) (d p : Fin 16) (s : State) : Host.Outcome State Fault Refusal :=
  s.readCmd m (R.QP_PUSH d.val p.val) 4

/-- QP_POP (R364 to R367). -/
def execQpPop (m : Master) (d p : Fin 16) (s : State) : Host.Outcome State Fault Refusal :=
  s.readCmd m (R.QP_POP d.val p.val) 4

/-- QUEUE_CONFIGURE (R360, R362). -/
def execQueueConfigure (m : Master) (q : Fin 65536) (v : Word) (s : State) : Host.Outcome State Fault Refusal :=
  s.writeCmd m (R.QM_Qq_CFG q.val) 4 v

/-- QUEUE_OWN (R362, R363). -/
def execQueueOwn (m : Master) (q : Fin 65536) (v : Word) (s : State) : Host.Outcome State Fault Refusal :=
  s.writeCmd m (R.QM_Qq_OWN q.val) 4 v

/-- WATERMARK_WRITE (R368). -/
def execWatermarkWrite (m : Master) (q : Fin 65536) (v : Word) (s : State) : Host.Outcome State Fault Refusal :=
  s.writeCmd m (R.QM_Qq_WM q.val) 4 v

/-- UART_DATA_WRITE (R436). -/
def execUartDataWrite (m : Master) (k : Fin 4) (v : Word) (s : State) : Host.Outcome State Fault Refusal :=
  s.writeCmd m (R.UART_DATA k.val) 4 v

/-- SPI_DATA_WRITE (R436). -/
def execSpiDataWrite (m : Master) (k : Fin 8) (v : Word) (s : State) : Host.Outcome State Fault Refusal :=
  s.writeCmd m (R.SPI_DATA k.val) 4 v

/-- I2C_CMD_WRITE (R436). -/
def execI2cCmdWrite (m : Master) (k : Fin 4) (v : Word) (s : State) : Host.Outcome State Fault Refusal :=
  s.writeCmd m (R.I2C_CMD k.val) 4 v

end Sys2Proof.Machine
end

