-- ==== Sys2Proof/Machine/Stages.lean ====
section
/-!
DEFINITION. The stage commands (R129 to R141): each dispatches the next header of a context, if it is of the command's
type, with the outcome of the residue checks.
-/
namespace Sys2Proof.Machine
open Sys2Proof

/-- Stage 0x10. -/
def execConverterScaling (n : Fin 16) (m : Fin 6) (c : Fin 8) (res : Residue) (s : State) : Host.Outcome State Fault Refusal :=
  .next (s.stageCmd 0x10 n.val m.val c.val res 0 (State.lawStage n.val m.val c.val lawConverterScaling))

/-- Stage 0x11. -/
def execSigmaDeltaScaling (n : Fin 16) (m : Fin 6) (c : Fin 8) (res : Residue) (s : State) : Host.Outcome State Fault Refusal :=
  .next (s.stageCmd 0x11 n.val m.val c.val res 0 (State.lawStage n.val m.val c.val lawSigmaDelta))

/-- Stage 0x12. -/
def execEncoderDecode (n : Fin 16) (m : Fin 6) (c : Fin 8) (res : Residue) (s : State) : Host.Outcome State Fault Refusal :=
  .next (s.stageCmd 0x12 n.val m.val c.val res 0 (State.lawStage n.val m.val c.val lawEncoderDecode))

/-- Stage 0x13. -/
def execSinCosInterpolation (n : Fin 16) (m : Fin 6) (c : Fin 8) (res : Residue) (s : State) : Host.Outcome State Fault Refusal :=
  .next (s.stageCmd 0x13 n.val m.val c.val res 0 (State.lawStage n.val m.val c.val lawSinCosInterpolation))

/-- Stage 0x14. -/
def execResolverDemodulation (n : Fin 16) (m : Fin 6) (c : Fin 8) (res : Residue) (s : State) : Host.Outcome State Fault Refusal :=
  .next (s.stageCmd 0x14 n.val m.val c.val res 0 (State.lawStage n.val m.val c.val lawResolver))

/-- Stage 0x20. -/
def execClarke (n : Fin 16) (m : Fin 6) (c : Fin 8) (res : Residue) (s : State) : Host.Outcome State Fault Refusal :=
  .next (s.stageCmd 0x20 n.val m.val c.val res 0 (State.lawStage n.val m.val c.val lawClarke))

/-- Stage 0x21. -/
def execInverseClarke (n : Fin 16) (m : Fin 6) (c : Fin 8) (res : Residue) (s : State) : Host.Outcome State Fault Refusal :=
  .next (s.stageCmd 0x21 n.val m.val c.val res 0 (State.lawStage n.val m.val c.val lawInverseClarke))

/-- Stage 0x22. -/
def execPark (n : Fin 16) (m : Fin 6) (c : Fin 8) (res : Residue) (s : State) : Host.Outcome State Fault Refusal :=
  .next (s.stageCmd 0x22 n.val m.val c.val res 0 (State.lawStage n.val m.val c.val lawPark))

/-- Stage 0x23. -/
def execInversePark (n : Fin 16) (m : Fin 6) (c : Fin 8) (res : Residue) (s : State) : Host.Outcome State Fault Refusal :=
  .next (s.stageCmd 0x23 n.val m.val c.val res 0 (State.lawStage n.val m.val c.val lawInversePark))

/-- Stage 0x24. -/
def execSinCos (n : Fin 16) (m : Fin 6) (c : Fin 8) (res : Residue) (s : State) : Host.Outcome State Fault Refusal :=
  .next (s.stageCmd 0x24 n.val m.val c.val res 0 (State.lawStage n.val m.val c.val lawSinCos))

/-- Stage 0x25. -/
def execAtan2 (n : Fin 16) (m : Fin 6) (c : Fin 8) (res : Residue) (s : State) : Host.Outcome State Fault Refusal :=
  .next (s.stageCmd 0x25 n.val m.val c.val res 0 (State.lawStage n.val m.val c.val lawAtan2))

/-- Stage 0x26. -/
def execMagnitude (n : Fin 16) (m : Fin 6) (c : Fin 8) (res : Residue) (s : State) : Host.Outcome State Fault Refusal :=
  .next (s.stageCmd 0x26 n.val m.val c.val res 0 (State.lawStage n.val m.val c.val lawMagnitude))

/-- Stage 0x30. -/
def execPiBackCalculation (n : Fin 16) (m : Fin 6) (c : Fin 8) (res : Residue) (s : State) : Host.Outcome State Fault Refusal :=
  .next (s.stageCmd 0x30 n.val m.val c.val res 0 (State.lawStage n.val m.val c.val lawPi))

/-- Stage 0x31. -/
def execPidFilteredDerivative (n : Fin 16) (m : Fin 6) (c : Fin 8) (res : Residue) (s : State) : Host.Outcome State Fault Refusal :=
  .next (s.stageCmd 0x31 n.val m.val c.val res 0 (State.lawStage n.val m.val c.val lawPid))

/-- Stage 0x32. -/
def execTwoDegreeOfFreedomPi (n : Fin 16) (m : Fin 6) (c : Fin 8) (res : Residue) (s : State) : Host.Outcome State Fault Refusal :=
  .next (s.stageCmd 0x32 n.val m.val c.val res 0 (State.lawStage n.val m.val c.val lawTwoDof))

/-- Stage 0x33. -/
def execProportionalResonant (n : Fin 16) (m : Fin 6) (c : Fin 8) (res : Residue) (s : State) : Host.Outcome State Fault Refusal :=
  .next (s.stageCmd 0x33 n.val m.val c.val res 0 (State.lawStage n.val m.val c.val lawResonant))

/-- Stage 0x34. -/
def execLeadLag (n : Fin 16) (m : Fin 6) (c : Fin 8) (res : Residue) (s : State) : Host.Outcome State Fault Refusal :=
  .next (s.stageCmd 0x34 n.val m.val c.val res 0 (State.lawStage n.val m.val c.val lawLeadLag))

/-- Stage 0x40. -/
def execFirstOrderLowPass (n : Fin 16) (m : Fin 6) (c : Fin 8) (res : Residue) (s : State) : Host.Outcome State Fault Refusal :=
  .next (s.stageCmd 0x40 n.val m.val c.val res 0 (State.lawStage n.val m.val c.val lawLowPass))

/-- Stage 0x41. -/
def execBiquad (n : Fin 16) (m : Fin 6) (c : Fin 8) (res : Residue) (s : State) : Host.Outcome State Fault Refusal :=
  .next (s.stageCmd 0x41 n.val m.val c.val res 0 (State.lawStage n.val m.val c.val lawBiquad))

/-- Stage 0x42. -/
def execNotch (n : Fin 16) (m : Fin 6) (c : Fin 8) (res : Residue) (s : State) : Host.Outcome State Fault Refusal :=
  .next (s.stageCmd 0x42 n.val m.val c.val res 0 (State.lawStage n.val m.val c.val lawNotch))

/-- Stage 0x43. -/
def execMovingAverage (n : Fin 16) (m : Fin 6) (c : Fin 8) (res : Residue) (s : State) : Host.Outcome State Fault Refusal :=
  .next (s.stageCmd 0x43 n.val m.val c.val res 0 (State.lawStage n.val m.val c.val lawMovingAverage))

/-- Stage 0x50. -/
def execSpeedObserver (n : Fin 16) (m : Fin 6) (c : Fin 8) (res : Residue) (s : State) : Host.Outcome State Fault Refusal :=
  .next (s.stageCmd 0x50 n.val m.val c.val res 0 (State.lawStage n.val m.val c.val lawSpeedObserver))

/-- Stage 0x51. -/
def execFluxObserver (n : Fin 16) (m : Fin 6) (c : Fin 8) (res : Residue) (s : State) : Host.Outcome State Fault Refusal :=
  .next (s.stageCmd 0x51 n.val m.val c.val res 0 (State.lawStage n.val m.val c.val lawFluxObserver))

/-- Stage 0x52. -/
def execSynchronousFramePll (n : Fin 16) (m : Fin 6) (c : Fin 8) (res : Residue) (s : State) : Host.Outcome State Fault Refusal :=
  .next (s.stageCmd 0x52 n.val m.val c.val res 0 (State.lawStage n.val m.val c.val lawPll))

/-- Stage 0x60. -/
def execSaturate (n : Fin 16) (m : Fin 6) (c : Fin 8) (res : Residue) (s : State) : Host.Outcome State Fault Refusal :=
  .next (s.stageCmd 0x60 n.val m.val c.val res 0 (State.lawStage n.val m.val c.val lawSaturate))

/-- Stage 0x61. -/
def execRateLimit (n : Fin 16) (m : Fin 6) (c : Fin 8) (res : Residue) (s : State) : Host.Outcome State Fault Refusal :=
  .next (s.stageCmd 0x61 n.val m.val c.val res 0 (State.lawStage n.val m.val c.val lawRateLimit))

/-- Stage 0x62. -/
def execCircularDqLimit (n : Fin 16) (m : Fin 6) (c : Fin 8) (res : Residue) (s : State) : Host.Outcome State Fault Refusal :=
  .next (s.stageCmd 0x62 n.val m.val c.val res 0 (State.lawStage n.val m.val c.val lawCircularLimit))

/-- Stage 0x70. -/
def execSineTriangle (n : Fin 16) (m : Fin 6) (c : Fin 8) (res : Residue) (s : State) : Host.Outcome State Fault Refusal :=
  .next (s.stageCmd 0x70 n.val m.val c.val res 0 (State.lawStage n.val m.val c.val lawSineTriangle))

/-- Stage 0x71. -/
def execSpaceVector (n : Fin 16) (m : Fin 6) (c : Fin 8) (res : Residue) (s : State) : Host.Outcome State Fault Refusal :=
  .next (s.stageCmd 0x71 n.val m.val c.val res 0 (State.lawStage n.val m.val c.val lawSpaceVector))

/-- Stage 0x72. -/
def execDiscontinuous (n : Fin 16) (m : Fin 6) (c : Fin 8) (res : Residue) (s : State) : Host.Outcome State Fault Refusal :=
  .next (s.stageCmd 0x72 n.val m.val c.val res 0 (State.lawStage n.val m.val c.val lawDiscontinuous))

/-- Stage 0x73. -/
def execThreeLevelNpc (n : Fin 16) (m : Fin 6) (c : Fin 8) (res : Residue) (s : State) : Host.Outcome State Fault Refusal :=
  .next (s.stageCmd 0x73 n.val m.val c.val res 0 (State.lawStage n.val m.val c.val lawNpc))

/-- Stage 0x74. -/
def execOvermodulation (n : Fin 16) (m : Fin 6) (c : Fin 8) (res : Residue) (s : State) : Host.Outcome State Fault Refusal :=
  .next (s.stageCmd 0x74 n.val m.val c.val res 0 (State.lawStage n.val m.val c.val lawOvermodulation))

/-- Stage 0x80. -/
def execDeadTime (n : Fin 16) (m : Fin 6) (c : Fin 8) (res : Residue) (s : State) : Host.Outcome State Fault Refusal :=
  .next (s.stageCmd 0x80 n.val m.val c.val res 0 (State.lawStage n.val m.val c.val lawDeadTime))

/-- Stage 0x81. -/
def execDcLink (n : Fin 16) (m : Fin 6) (c : Fin 8) (res : Residue) (s : State) : Host.Outcome State Fault Refusal :=
  .next (s.stageCmd 0x81 n.val m.val c.val res 0 (State.lawStage n.val m.val c.val lawDcLink))

/-- Stage 0x82. -/
def execDqDecoupling (n : Fin 16) (m : Fin 6) (c : Fin 8) (res : Residue) (s : State) : Host.Outcome State Fault Refusal :=
  .next (s.stageCmd 0x82 n.val m.val c.val res 0 (State.lawStage n.val m.val c.val lawDecoupling))

/-- Stage 0x90. -/
def execShaper (n : Fin 16) (m : Fin 6) (c : Fin 8) (res : Residue) (s : State) : Host.Outcome State Fault Refusal :=
  .next (s.stageCmd 0x90 n.val m.val c.val res 0 (State.lawStage n.val m.val c.val lawShaper))

/-- Stage 0x92. -/
def execGearing (n : Fin 16) (m : Fin 6) (c : Fin 8) (res : Residue) (s : State) : Host.Outcome State Fault Refusal :=
  .next (s.stageCmd 0x92 n.val m.val c.val res 0 (State.lawStage n.val m.val c.val lawGearing))

/-- Stage 0xA2. -/
def execMove (n : Fin 16) (m : Fin 6) (c : Fin 8) (res : Residue) (s : State) : Host.Outcome State Fault Refusal :=
  .next (s.stageCmd 0xA2 n.val m.val c.val res 0 (State.lawStage n.val m.val c.val lawMove))

/-- Stage 0xA3. -/
def execAffine (n : Fin 16) (m : Fin 6) (c : Fin 8) (res : Residue) (s : State) : Host.Outcome State Fault Refusal :=
  .next (s.stageCmd 0xA3 n.val m.val c.val res 0 (State.lawStage n.val m.val c.val lawAffine))

/-- Stage 0xA5. -/
def execCompareSelect (n : Fin 16) (m : Fin 6) (c : Fin 8) (res : Residue) (s : State) : Host.Outcome State Fault Refusal :=
  .next (s.stageCmd 0xA5 n.val m.val c.val res 0 (State.lawStage n.val m.val c.val lawCompareSelect))

/-- Inputs of the one instance of a fixed stage. -/
def State.gatherOne (s : State) (n m c : Nat) (h : Hdr) : LawIn × State :=
  match formOf h (s.headP0 n m h) with
  | none => (⟨0, 0, [], [], [], [], false⟩, s)
  | some f =>
    match s.gather n m c h f 0 1 with
    | (x :: _, t) => (x, t)
    | ([], t) => (⟨0, 0, [], [], [], [], false⟩, t)

/-- Commit a law's result and go on. -/
def State.settle (s : State) (n m c i : Nat) (h : Hdr) (o : LawOut) : State :=
  let s := s.nonfinite n m c o.bad
  let s := (s.commit n m c h.stateOfs o.st).putOut n m c h.out o.u
  s.stageDone n m c i

/-- A cam whose parameters are in force: compute and commit (R147 to R149). The words at OUT are read where it engages. -/
def State.camCompute (n m c : Nat) (prevO : BitVec 64) (boundary : Bool) (s : State) (i : Nat) (h : Hdr) (x : LawIn) :
    State :=
  match camCycle (x.P 2) with
  | none => s.settle n m c i h (camParam x)
  | some cq =>
    let tr := camTrack cq x.st (posOf (x.A 0) (x.A 1))
    let (o, s) := if x.flag 0 && camEngaged (x.S 4) == 0 then s.operands n m c h.out 2 else ([], s)
    s.settle n m c i h
      (camLaw x { tr with boundary := tr.boundary || boundary } prevO o (fun k => s.desc n m ((x.P 0).toNat + k)))

/-- The cam stage: an execution of a CATCHING or ENGAGED cam that finds a boundary first swaps the cam's due entries
(R150). A swap that makes the header another stage's leaves the dispatch to the next command; one that brings an
unusable cycle leaves the cam where it was (R147). -/
def State.camStage (n m c : Nat) (s : State) (i : Nat) (h : Hdr) : State :=
  let hdr := (s.chainOf n m c).1 + i
  let (x, s) := s.gatherOne n m c h
  let prevO := posOf (x.S 0) (x.S 1)
  match camCycle (x.P 2) with
  | none => s.settle n m c i h (camParam x)
  | some cq =>
    let tr := camTrack cq x.st (posOf (x.A 0) (x.A 1))
    let own := fun (e : Entry) => entryOf n m e && (match descWord e.addr with
      | some (_, _, w) => s.camOwns n m hdr w
      | none => false)
    if tr.boundary && s.camWaits n m hdr && s.ep.entries.any (fun e => e.due && own e) then
      let t := s.swap own
      let h' := t.header n m hdr
      if t.headerBad n m h' then t.chainFault n m c
      else if h'.typ ≠ 0x91 ∨ h'.skip then t
      else
        let (y, t) := t.gatherOne n m c h'
        if (camCycle (y.P 2)).isNone then t.settle n m c i h' (camParam y)
        else
        let st := ((y.st.set 0 (lo64 tr.origin.toNat)).set 1 (hi64 tr.origin.toNat)).set 3 tr.count
        t.camCompute n m c prevO true i h' { y with st := st.set 4 (y.S 4 ||| 1#32) }
    else s.camCompute n m c prevO false i h x

/-- Stage 0x91. -/
def execCam (n : Fin 16) (m : Fin 6) (c : Fin 8) (res : Residue) (s : State) : Host.Outcome State Fault Refusal :=
  .next (s.stageCmd 0x91 n.val m.val c.val res 0 (State.camStage n.val m.val c.val))

/-- The position-compare arm stage with its emit (R137, R239). -/
def State.compareArmStage (n m c : Nat) (s : State) (i : Nat) (h : Hdr) : State :=
  let (x, s) := s.gatherOne n m c h
  let (o, fires) := compareArmLaw x
  let s := if fires then s.leOutputs n m c [.emit (h.flags / 8 % 8)] else s
  s.settle n m c i h o

/-- Stage 0x93. -/
def execPositionCompareArm (n : Fin 16) (m : Fin 6) (c : Fin 8) (res : Residue) (s : State) :
    Host.Outcome State Fault Refusal :=
  .next (s.stageCmd 0x93 n.val m.val c.val res 0 (State.compareArmStage n.val m.val c.val))

/-- What the FCS-MPC stage has read, as its later passes use it (R97). -/
def keptIn (h : Hdr) (l : List (List Word)) : LawIn := ⟨0, h.flags, l.getD 0 [], l.getD 1 [], l.getD 2 [], l.getD 3 [], false⟩

/-- A pass of the FCS-MPC stage (R97, R138): the first reads the inputs, and the last gives the result. -/
def State.fcsStage (n m c pass : Nat) (s : State) (i : Nat) (h : Hdr) : State :=
  let s := if pass = 0 then
      let (x, t) := s.gatherOne n m c h
      t.setCtx n m c { t.ctx n m c with kept := [x.a, x.b, x.p, x.st] }
    else s
  if pass = 3 then s.settle n m c i h (lawFcs (keptIn h (s.ctx n m c).kept))
  else s.setCtx n m c { s.ctx n m c with pass := pass + 1 }

/-- The next pass of the FCS-MPC stage of a context. -/
def State.fcsPass (s : State) (n m c : Nat) : Nat := if s.partWay n m c then (s.ctx n m c).pass else 0

/-- Stage 0xA0, one pass of it; a command for another pass than the next is no occurrence (R97). -/
def execFcsMpc (n : Fin 16) (m : Fin 6) (c : Fin 8) (res : Residue) (pass : Fin 4) (s : State) :
    Host.Outcome State Fault Refusal :=
  .next (if s.fcsPass n.val m.val c.val = pass.val then
    s.stageCmd 0xA0 n.val m.val c.val res pass.val (State.fcsStage n.val m.val c.val pass.val) else s)

/-- The relay auto-tune stage with its relay (R154 to R158). -/
def State.tuneStage (n m c : Nat) (s : State) (i : Nat) (h : Hdr) : State :=
  let (x, s) := s.gatherOne n m c h
  let r := s.le n m
  let k := s.ctx n m c
  let (o, relay) := tuneLaw x (r.relays.get (fun _ => false) h.stateOfs) k.lost k.lostBefore
  let s := s.setLe n m { r with relays := r.relays.set (fun _ => false) h.stateOfs relay }
  s.settle n m c i h o

/-- Stage 0xA1. -/
def execRelayAutoTune (n : Fin 16) (m : Fin 6) (c : Fin 8) (res : Residue) (s : State) :
    Host.Outcome State Fault Refusal :=
  .next (s.stageCmd 0xA1 n.val m.val c.val res 0 (State.tuneStage n.val m.val c.val))

/-- Stage 0xA4. -/
def execTable256Point (n : Fin 16) (m : Fin 6) (c : Fin 8) (res : Residue) (s : State) :
    Host.Outcome State Fault Refusal :=
  .next (s.stageCmd 0xA4 n.val m.val c.val res 0 (fun t i h =>
    State.lawStage n.val m.val c.val
      (fun x => tableLaw x (fun k => t.desc n.val m.val ((x.P 0).toNat + k))) t i h))

/-- The event-emit stage (R139); S0 holds 1 while the last a0 was above zero. -/
def State.emitStage (n m c : Nat) (s : State) (i : Nat) (h : Hdr) : State :=
  let (x, s) := s.gatherOne n m c h
  let on := zLt 0#32 (x.A 0)
  let was := x.S 0 != 0#32
  let fires := match h.flags / 8 % 4 with
    | 0 => true
    | 1 => on
    | 2 => on && !was
    | _ => zLe (x.A 0) 0#32 && was
  let s := if fires then s.leOutputs n m c [.emit (h.flags % 8)] else s
  s.settle n m c i h ⟨[], [if on then 1#32 else 0#32], anyBad [x.A 0]⟩

/-- Stage 0xA6. -/
def execEventEmit (n : Fin 16) (m : Fin 6) (c : Fin 8) (res : Residue) (s : State) :
    Host.Outcome State Fault Refusal :=
  .next (s.stageCmd 0xA6 n.val m.val c.val res 0 (State.emitStage n.val m.val c.val))

/-- Is a stamp at most `age` ns older than `now` (R140, R53)? An age of exactly half the range counts as too old. -/
def stampFresh (now stamp age : Word) : Bool :=
  decide (2 ^ 31 < (now - stamp).toNat) || decide ((now - stamp).toNat ≤ age.toNat)

/-- A read of `k` exchange words from `w` by the exchange transfer stage succeeds (R140). -/
def State.transferOk (s : State) (n m c w k : Nat) (age : Word) : Bool :=
  let now := lo64 (s.stampT n (s.ctxInstant n m c * 64)).toNat
  let even := match s.xmFrameOf w with
    | some f => s.rf (R.XM_FRAME_GENf f) 15 0 % 2 == 0
    | none => true
  even && (age == 0#32 || (List.range k).all (fun i => stampFresh now (s.xmSees (s.lePort n m) (w + i)).2 age))
    && (List.range k).all (fun i => (s.xmRefusal (s.leDomain n m) (w + i) false).isNone)
    && s.pathUp n && s.pathTo 0x28000000 != .bad

/-- The exchange transfer stage (R140). -/
def State.transferStage (n m c : Nat) (s : State) (i : Nat) (h : Hdr) : State :=
  let k := (s.desc n m h.paramOfs).toNat
  let age := s.desc n m (h.paramOfs + 1)
  if h.flag 0 then
    let (vs, s) := s.operands n m c h.inA k
    (s.putOut n m c h.out vs).stageDone n m c i
  else if regionOf h.inA == some Region.exchange && s.transferOk n m c (h.inA - 0x4000) k age then
    let (vs, s) := s.operands n m c h.inA k
    (s.putOut n m c h.out (vs ++ [zOne])).stageDone n m c i
  else
    let d := s.leDomain n m
    let s := if regionOf h.inA == some Region.exchange then (s.leExchange n (fun t => (.done, t))).2 else s
    let s := match (List.range k).find? (fun j => (s.xmRefusal d (h.inA - 0x4000 + j) false).isSome) with
      | some j => if regionOf h.inA == some Region.exchange then s.xmRefuse (h.inA - 0x4000 + j) 2 else s
      | none => s
    (s.putOut n m c (h.out + k) [0#32]).stageDone n m c i

/-- Stage 0xA7. -/
def execExchangeTransfer (n : Fin 16) (m : Fin 6) (c : Fin 8) (res : Residue) (s : State) :
    Host.Outcome State Fault Refusal :=
  .next (s.stageCmd 0xA7 n.val m.val c.val res 0 (State.transferStage n.val m.val c.val))

/-- Compare word of a duty (R141): nothing for a non-finite duty or product. -/
def compareWord (a span lo hi : Word) : Option Word :=
  let v := zMul (zSat a lo hi) span
  if !fFinite a || fNaN v then none
  else if !fFinite v then some (if bit v 31 then 0#32 else 0xFFFFFFFF#32)
  else
    let q := zToScaled v 0
    some (if q < 0 then 0#32 else if 0xFFFFFFFF < q then 0xFFFFFFFF#32 else wOfInt q)

/-- The timer output stage (R141). -/
def State.timerOutStage (n m c : Nat) (s : State) (i : Nat) (h : Hdr) : State :=
  match formOf h (s.headP0 n m h) with
  | none => s
  | some f =>
    let (xs, s) := s.gather n m c h f 0 h.count
    let s := s.nonfinite n m c (xs.any (fun x => (compareWord (x.A 0) (x.P 0) (x.P 1) (x.P 2)).isNone))
    let acts := xs.filterMap (fun x => (compareWord (x.A 0) (x.P 0) (x.P 1) (x.P 2)).map (fun w =>
      OutAct.duty ((h.out - 0x9000) / 0x400) ((h.out - 0x9000) % 0x400 + x.k) w))
    (s.leOutputs n m c acts).stageDone n m c i

/-- Stage 0xA8. -/
def execTimerOutput (n : Fin 16) (m : Fin 6) (c : Fin 8) (res : Residue) (s : State) :
    Host.Outcome State Fault Refusal :=
  .next (s.stageCmd 0xA8 n.val m.val c.val res 0 (State.timerOutStage n.val m.val c.val))

end Sys2Proof.Machine
end

