-- ==== Sys2Proof/Machine/Dispatch.lean ====
section
/-!
DEFINITION. The dispatch: one arm per command, each a direct call of that command's meaning.
-/
namespace Sys2Proof.Machine
open Sys2Proof

/-- The effect of a command on everything but the queue of waiting commands. -/
def exec (i : Instr) (s : State) : Host.Outcome State Fault Refusal :=
  match i with
  | .registerWrite m a size v => Sys2Proof.Machine.execRegisterWrite m a size v s
  | .scStatusWrite m a v => Sys2Proof.Machine.execScStatusWrite m a v s
  | .llRead m a => Sys2Proof.Machine.execLlRead m a s
  | .xmFrameCfgWrite m f v => Sys2Proof.Machine.execXmFrameCfgWrite m f v s
  | .stagingWrite m a v => Sys2Proof.Machine.execStagingWrite m a v s
  | .ebDirectWrite m a v => Sys2Proof.Machine.execEbDirectWrite m a v s
  | .linkTimeout l => Sys2Proof.Machine.execLinkTimeout l s
  | .linkReset l passed => Sys2Proof.Machine.execLinkReset l passed s
  | .islandSync n => Sys2Proof.Machine.execIslandSync n s
  | .syncLost n => Sys2Proof.Machine.execSyncLost n s
  | .tbRateWrite m v => Sys2Proof.Machine.execTbRateWrite m v s
  | .rateIncrement => Sys2Proof.Machine.execRateIncrement s
  | .tbStepHiWrite m v => Sys2Proof.Machine.execTbStepHiWrite m v s
  | .deviceTimeStep => Sys2Proof.Machine.execDeviceTimeStep s
  | .tbDiscWrite m v => Sys2Proof.Machine.execTbDiscWrite m v s
  | .asSyncMessage offset rate => Sys2Proof.Machine.execAsSyncMessage offset rate s
  | .servoHoldover => Sys2Proof.Machine.execServoHoldover s
  | .tbStartGo m v => Sys2Proof.Machine.execTbStartGo m v s
  | .tbStartAtHiWrite m v => Sys2Proof.Machine.execTbStartAtHiWrite m v s
  | .tbStartCancel m v => Sys2Proof.Machine.execTbStartCancel m v s
  | .globalStart => Sys2Proof.Machine.execGlobalStart s
  | .couplingRelease n k => Sys2Proof.Machine.execCouplingRelease n k s
  | .calSetHiWrite m v => Sys2Proof.Machine.execCalSetHiWrite m v s
  | .calendarLoad => Sys2Proof.Machine.execCalendarLoad s
  | .vbakRise => Sys2Proof.Machine.execVbakRise s
  | .oscStop => Sys2Proof.Machine.execOscStop s
  | .calendarSecond => Sys2Proof.Machine.execCalendarSecond s
  | .leapOffsetChange => Sys2Proof.Machine.execLeapOffsetChange s
  | .alarmArm m a v => Sys2Proof.Machine.execAlarmArm m a v s
  | .alarmFire a => Sys2Proof.Machine.execAlarmFire a s
  | .epOpenRead m => Sys2Proof.Machine.execEpOpenRead m s
  | .epStageWrite m v => Sys2Proof.Machine.execEpStageWrite m v s
  | .epSlotAtHiWrite m slot v => Sys2Proof.Machine.execEpSlotAtHiWrite m slot v s
  | .epHaulGoWrite m v => Sys2Proof.Machine.execEpHaulGoWrite m v s
  | .epAbandonWrite m v => Sys2Proof.Machine.execEpAbandonWrite m v s
  | .abandonComplete slot => Sys2Proof.Machine.execAbandonComplete slot s
  | .haulDown slot => Sys2Proof.Machine.execHaulDown slot s
  | .unsyncApply n => Sys2Proof.Machine.execUnsyncApply n s
  | .snCountWrite m v => Sys2Proof.Machine.execSnCountWrite m v s
  | .snLoad m v => Sys2Proof.Machine.execSnLoad m v s
  | .snapshotListLoaded => Sys2Proof.Machine.execSnapshotListLoaded s
  | .snAtHiWrite m v => Sys2Proof.Machine.execSnAtHiWrite m v s
  | .snGo m v => Sys2Proof.Machine.execSnGo m v s
  | .snCancel m v => Sys2Proof.Machine.execSnCancel m v s
  | .snapshotCapture => Sys2Proof.Machine.execSnapshotCapture s
  | .snapshotFillDone => Sys2Proof.Machine.execSnapshotFillDone s
  | .leRunWrite m n e v => Sys2Proof.Machine.execLeRunWrite m n e v s
  | .contextEnable n m c => Sys2Proof.Machine.execContextEnable n m c s
  | .contextTrigger n m c => Sys2Proof.Machine.execContextTrigger n m c s
  | .inputsFresh n m c => Sys2Proof.Machine.execInputsFresh n m c s
  | .contextWaitTimeout n m c => Sys2Proof.Machine.execContextWaitTimeout n m c s
  | .outputRelease n m c => Sys2Proof.Machine.execOutputRelease n m c s
  | .latWrite m n e c v => Sys2Proof.Machine.execLatWrite m n e c v s
  | .icLeSubstWrite m n v => Sys2Proof.Machine.execIcLeSubstWrite m n v s
  | .substituteSelftest n passed => Sys2Proof.Machine.execSubstituteSelftest n passed s
  | .retirementCopyDone n m => Sys2Proof.Machine.execRetirementCopyDone n m s
  | .converterScaling n m c res => Sys2Proof.Machine.execConverterScaling n m c res s
  | .sigmaDeltaScaling n m c res => Sys2Proof.Machine.execSigmaDeltaScaling n m c res s
  | .encoderDecode n m c res => Sys2Proof.Machine.execEncoderDecode n m c res s
  | .sinCosInterpolation n m c res => Sys2Proof.Machine.execSinCosInterpolation n m c res s
  | .resolverDemodulation n m c res => Sys2Proof.Machine.execResolverDemodulation n m c res s
  | .clarke n m c res => Sys2Proof.Machine.execClarke n m c res s
  | .inverseClarke n m c res => Sys2Proof.Machine.execInverseClarke n m c res s
  | .park n m c res => Sys2Proof.Machine.execPark n m c res s
  | .inversePark n m c res => Sys2Proof.Machine.execInversePark n m c res s
  | .sinCos n m c res => Sys2Proof.Machine.execSinCos n m c res s
  | .atan2 n m c res => Sys2Proof.Machine.execAtan2 n m c res s
  | .magnitude n m c res => Sys2Proof.Machine.execMagnitude n m c res s
  | .piBackCalculation n m c res => Sys2Proof.Machine.execPiBackCalculation n m c res s
  | .pidFilteredDerivative n m c res => Sys2Proof.Machine.execPidFilteredDerivative n m c res s
  | .twoDegreeOfFreedomPi n m c res => Sys2Proof.Machine.execTwoDegreeOfFreedomPi n m c res s
  | .proportionalResonant n m c res => Sys2Proof.Machine.execProportionalResonant n m c res s
  | .leadLag n m c res => Sys2Proof.Machine.execLeadLag n m c res s
  | .firstOrderLowPass n m c res => Sys2Proof.Machine.execFirstOrderLowPass n m c res s
  | .biquad n m c res => Sys2Proof.Machine.execBiquad n m c res s
  | .notch n m c res => Sys2Proof.Machine.execNotch n m c res s
  | .movingAverage n m c res => Sys2Proof.Machine.execMovingAverage n m c res s
  | .speedObserver n m c res => Sys2Proof.Machine.execSpeedObserver n m c res s
  | .fluxObserver n m c res => Sys2Proof.Machine.execFluxObserver n m c res s
  | .synchronousFramePll n m c res => Sys2Proof.Machine.execSynchronousFramePll n m c res s
  | .saturate n m c res => Sys2Proof.Machine.execSaturate n m c res s
  | .rateLimit n m c res => Sys2Proof.Machine.execRateLimit n m c res s
  | .circularDqLimit n m c res => Sys2Proof.Machine.execCircularDqLimit n m c res s
  | .sineTriangle n m c res => Sys2Proof.Machine.execSineTriangle n m c res s
  | .spaceVector n m c res => Sys2Proof.Machine.execSpaceVector n m c res s
  | .discontinuous n m c res => Sys2Proof.Machine.execDiscontinuous n m c res s
  | .threeLevelNpc n m c res => Sys2Proof.Machine.execThreeLevelNpc n m c res s
  | .overmodulation n m c res => Sys2Proof.Machine.execOvermodulation n m c res s
  | .deadTime n m c res => Sys2Proof.Machine.execDeadTime n m c res s
  | .dcLink n m c res => Sys2Proof.Machine.execDcLink n m c res s
  | .dqDecoupling n m c res => Sys2Proof.Machine.execDqDecoupling n m c res s
  | .shaper n m c res => Sys2Proof.Machine.execShaper n m c res s
  | .cam n m c res => Sys2Proof.Machine.execCam n m c res s
  | .gearing n m c res => Sys2Proof.Machine.execGearing n m c res s
  | .positionCompareArm n m c res => Sys2Proof.Machine.execPositionCompareArm n m c res s
  | .fcsMpc n m c res pass => Sys2Proof.Machine.execFcsMpc n m c res pass s
  | .relayAutoTune n m c res => Sys2Proof.Machine.execRelayAutoTune n m c res s
  | .move n m c res => Sys2Proof.Machine.execMove n m c res s
  | .affine n m c res => Sys2Proof.Machine.execAffine n m c res s
  | .table256Point n m c res => Sys2Proof.Machine.execTable256Point n m c res s
  | .compareSelect n m c res => Sys2Proof.Machine.execCompareSelect n m c res s
  | .eventEmit n m c res => Sys2Proof.Machine.execEventEmit n m c res s
  | .exchangeTransfer n m c res => Sys2Proof.Machine.execExchangeTransfer n m c res s
  | .timerOutput n m c res => Sys2Proof.Machine.execTimerOutput n m c res s
  | .periodBoundary n k => Sys2Proof.Machine.execPeriodBoundary n k s
  | .midPeriod n k => Sys2Proof.Machine.execMidPeriod n k s
  | .channelEventPoint n k j => Sys2Proof.Machine.execChannelEventPoint n k j s
  | .tuRun m n k v => Sys2Proof.Machine.execTuRun m n k v s
  | .tuStopNow m n k v => Sys2Proof.Machine.execTuStopNow m n k v s
  | .tuStart n k => Sys2Proof.Machine.execTuStart n k s
  | .dutyLoadWrite m n k w v => Sys2Proof.Machine.execDutyLoadWrite m n k w v s
  | .tripActive n k inp => Sys2Proof.Machine.execTripActive n k inp s
  | .tripLatchClear m n k v => Sys2Proof.Machine.execTripLatchClear m n k v s
  | .systemHoldRelease m n k v => Sys2Proof.Machine.execSystemHoldRelease m n k v s
  | .safeNAssert => Sys2Proof.Machine.execSafeNAssert s
  | .safeNDeassert => Sys2Proof.Machine.execSafeNDeassert s
  | .readbackCheck n k o level => Sys2Proof.Machine.execReadbackCheck n k o level s
  | .captureEdge n k j rise ago => Sys2Proof.Machine.execCaptureEdge n k j rise ago s
  | .captureRead m n k j => Sys2Proof.Machine.execCaptureRead m n k j s
  | .adcTrigger n c inj => Sys2Proof.Machine.execAdcTrigger n c inj s
  | .triggerDue n c inj => Sys2Proof.Machine.execTriggerDue n c inj s
  | .conversionDone n c x => Sys2Proof.Machine.execConversionDone n c x s
  | .referenceCheck n c raw again => Sys2Proof.Machine.execReferenceCheck n c raw again s
  | .takeover n c => Sys2Proof.Machine.execTakeover n c s
  | .converterEnable m n c v => Sys2Proof.Machine.execConverterEnable m n c v s
  | .acDataRead m n c => Sys2Proof.Machine.execAcDataRead m n c s
  | .calibrationStart m n c v => Sys2Proof.Machine.execCalibrationStart m n c v s
  | .calibrationDone n c ok temp gains lins => Sys2Proof.Machine.execCalibrationDone n c ok temp gains lins s
  | .driftCheck n c temp => Sys2Proof.Machine.execDriftCheck n c temp s
  | .sinc3Result n d samples => Sys2Proof.Machine.execSinc3Result n d samples s
  | .sinc2Result n d samples => Sys2Proof.Machine.execSinc2Result n d samples s
  | .sdSync n d => Sys2Proof.Machine.execSdSync n d s
  | .sdDataRead m n d => Sys2Proof.Machine.execSdDataRead m n d s
  | .sdClockLost n d => Sys2Proof.Machine.execSdClockLost n d s
  | .sdSaturation n d => Sys2Proof.Machine.execSdSaturation n d s
  | .comparatorTransition n c x => Sys2Proof.Machine.execComparatorTransition n c x s
  | .blankingExpiry n c => Sys2Proof.Machine.execBlankingExpiry n c s
  | .settlingEnd n c vin => Sys2Proof.Machine.execSettlingEnd n c vin s
  | .encoderEdge n q a b ago => Sys2Proof.Machine.execEncoderEdge n q a b ago s
  | .encoderIndex n q => Sys2Proof.Machine.execEncoderIndex n q s
  | .eqPresetWrite m n q v => Sys2Proof.Machine.execEqPresetWrite m n q v s
  | .ssiTrigger n q dataHigh => Sys2Proof.Machine.execSsiTrigger n q dataHigh s
  | .ssiTimeout n q => Sys2Proof.Machine.execSsiTimeout n q s
  | .ssiFrameComplete n q frame => Sys2Proof.Machine.execSsiFrameComplete n q frame s
  | .compareArm m n q v => Sys2Proof.Machine.execCompareArm m n q v s
  | .compareDisarm m n q v => Sys2Proof.Machine.execCompareDisarm m n q v s
  | .compareArmPennant n q => Sys2Proof.Machine.execCompareArmPennant n q s
  | .dwell n q => Sys2Proof.Machine.execDwell n q s
  | .comparePulseEnd n q => Sys2Proof.Machine.execComparePulseEnd n q s
  | .markCapture n k rise ago => Sys2Proof.Machine.execMarkCapture n k rise ago s
  | .markRead m n k => Sys2Proof.Machine.execMarkRead m n k s
  | .pennantTransition p level fired => Sys2Proof.Machine.execPennantTransition p level fired s
  | .eventRecordPush seg => Sys2Proof.Machine.execEventRecordPush seg s
  | .debounceExpiry h => Sys2Proof.Machine.execDebounceExpiry h s
  | .fbFire m v => Sys2Proof.Machine.execFbFire m v s
  | .signalSetSwitch m k v => Sys2Proof.Machine.execSignalSetSwitch m k v s
  | .signalSetOn k => Sys2Proof.Machine.execSignalSetOn k s
  | .signalSetOff k => Sys2Proof.Machine.execSignalSetOff k s
  | .add n p rd ra rb => Sys2Proof.Machine.execAdd n p rd ra rb s
  | .sub n p rd ra rb => Sys2Proof.Machine.execSub n p rd ra rb s
  | .and n p rd ra rb => Sys2Proof.Machine.execAnd n p rd ra rb s
  | .or n p rd ra rb => Sys2Proof.Machine.execOr n p rd ra rb s
  | .xor n p rd ra rb => Sys2Proof.Machine.execXor n p rd ra rb s
  | .andn n p rd ra rb => Sys2Proof.Machine.execAndn n p rd ra rb s
  | .shl n p rd ra rb => Sys2Proof.Machine.execShl n p rd ra rb s
  | .shr n p rd ra rb => Sys2Proof.Machine.execShr n p rd ra rb s
  | .sar n p rd ra rb => Sys2Proof.Machine.execSar n p rd ra rb s
  | .ror n p rd ra rb => Sys2Proof.Machine.execRor n p rd ra rb s
  | .shli n p rd ra sh => Sys2Proof.Machine.execShli n p rd ra sh s
  | .shri n p rd ra sh => Sys2Proof.Machine.execShri n p rd ra sh s
  | .sari n p rd ra sh => Sys2Proof.Machine.execSari n p rd ra sh s
  | .rori n p rd ra sh => Sys2Proof.Machine.execRori n p rd ra sh s
  | .min n p rd ra rb => Sys2Proof.Machine.execMin n p rd ra rb s
  | .max n p rd ra rb => Sys2Proof.Machine.execMax n p rd ra rb s
  | .minu n p rd ra rb => Sys2Proof.Machine.execMinu n p rd ra rb s
  | .maxu n p rd ra rb => Sys2Proof.Machine.execMaxu n p rd ra rb s
  | .clz n p rd ra => Sys2Proof.Machine.execClz n p rd ra s
  | .popc n p rd ra => Sys2Proof.Machine.execPopc n p rd ra s
  | .brev n p rd ra => Sys2Proof.Machine.execBrev n p rd ra s
  | .bswap n p rd ra => Sys2Proof.Machine.execBswap n p rd ra s
  | .sextb n p rd ra => Sys2Proof.Machine.execSextb n p rd ra s
  | .sexth n p rd ra => Sys2Proof.Machine.execSexth n p rd ra s
  | .ceq n p rd ra rb => Sys2Proof.Machine.execCeq n p rd ra rb s
  | .cne n p rd ra rb => Sys2Proof.Machine.execCne n p rd ra rb s
  | .clt n p rd ra rb => Sys2Proof.Machine.execClt n p rd ra rb s
  | .cltu n p rd ra rb => Sys2Proof.Machine.execCltu n p rd ra rb s
  | .cle n p rd ra rb => Sys2Proof.Machine.execCle n p rd ra rb s
  | .cleu n p rd ra rb => Sys2Proof.Machine.execCleu n p rd ra rb s
  | .addsat n p rd ra rb => Sys2Proof.Machine.execAddsat n p rd ra rb s
  | .subsat n p rd ra rb => Sys2Proof.Machine.execSubsat n p rd ra rb s
  | .addi n p rd ra imm => Sys2Proof.Machine.execAddi n p rd ra imm s
  | .andi n p rd ra imm => Sys2Proof.Machine.execAndi n p rd ra imm s
  | .ori n p rd ra imm => Sys2Proof.Machine.execOri n p rd ra imm s
  | .xori n p rd ra imm => Sys2Proof.Machine.execXori n p rd ra imm s
  | .lui n p rd imm => Sys2Proof.Machine.execLui n p rd imm s
  | .cmpi n p rd ra cond imm => Sys2Proof.Machine.execCmpi n p rd ra cond imm s
  | .mul n p rd ra rb => Sys2Proof.Machine.execMul n p rd ra rb s
  | .mulh n p rd ra rb => Sys2Proof.Machine.execMulh n p rd ra rb s
  | .mulhu n p rd ra rb => Sys2Proof.Machine.execMulhu n p rd ra rb s
  | .mulhsu n p rd ra rb => Sys2Proof.Machine.execMulhsu n p rd ra rb s
  | .div n p rd ra rb => Sys2Proof.Machine.execDiv n p rd ra rb s
  | .divu n p rd ra rb => Sys2Proof.Machine.execDivu n p rd ra rb s
  | .rem n p rd ra rb => Sys2Proof.Machine.execRem n p rd ra rb s
  | .remu n p rd ra rb => Sys2Proof.Machine.execRemu n p rd ra rb s
  | .fdiv n p rd ra rb => Sys2Proof.Machine.execFdiv n p rd ra rb s
  | .fsqrt n p rd ra => Sys2Proof.Machine.execFsqrt n p rd ra s
  | .longOperationComplete n unit => Sys2Proof.Machine.execLongOperationComplete n unit s
  | .fadd n p rd ra rb => Sys2Proof.Machine.execFadd n p rd ra rb s
  | .fsub n p rd ra rb => Sys2Proof.Machine.execFsub n p rd ra rb s
  | .fmul n p rd ra rb => Sys2Proof.Machine.execFmul n p rd ra rb s
  | .fmin n p rd ra rb => Sys2Proof.Machine.execFmin n p rd ra rb s
  | .fmax n p rd ra rb => Sys2Proof.Machine.execFmax n p rd ra rb s
  | .fabs n p rd ra => Sys2Proof.Machine.execFabs n p rd ra s
  | .fneg n p rd ra => Sys2Proof.Machine.execFneg n p rd ra s
  | .fceq n p rd ra rb => Sys2Proof.Machine.execFceq n p rd ra rb s
  | .fclt n p rd ra rb => Sys2Proof.Machine.execFclt n p rd ra rb s
  | .fcle n p rd ra rb => Sys2Proof.Machine.execFcle n p rd ra rb s
  | .fcun n p rd ra rb => Sys2Proof.Machine.execFcun n p rd ra rb s
  | .fcvtws n p rd ra => Sys2Proof.Machine.execFcvtws n p rd ra s
  | .fcvtwus n p rd ra => Sys2Proof.Machine.execFcvtwus n p rd ra s
  | .fcvtsw n p rd ra => Sys2Proof.Machine.execFcvtsw n p rd ra s
  | .fcvtswu n p rd ra => Sys2Proof.Machine.execFcvtswu n p rd ra s
  | .fmvgf n p rd ra => Sys2Proof.Machine.execFmvgf n p rd ra s
  | .fmvfg n p rd ra => Sys2Proof.Machine.execFmvfg n p rd ra s
  | .fmadd n p fd fa fb fc => Sys2Proof.Machine.execFmadd n p fd fa fb fc s
  | .fmsub n p fd fa fb fc => Sys2Proof.Machine.execFmsub n p fd fa fb fc s
  | .fnmsub n p fd fa fb fc => Sys2Proof.Machine.execFnmsub n p fd fa fb fc s
  | .fnmadd n p fd fa fb fc => Sys2Proof.Machine.execFnmadd n p fd fa fb fc s
  | .ld n p rd ra am size sign f => Sys2Proof.Machine.execLd n p rd ra am size sign f s
  | .st n p rd ra am size sign f => Sys2Proof.Machine.execSt n p rd ra am size sign f s
  | .fld n p rd ra am size sign f => Sys2Proof.Machine.execFld n p rd ra am size sign f s
  | .fst n p rd ra am size sign f => Sys2Proof.Machine.execFst n p rd ra am size sign f s
  | .ldm n p ra rm dir wb fp => Sys2Proof.Machine.execLdm n p ra rm dir wb fp s
  | .stm n p ra rm dir wb fp => Sys2Proof.Machine.execStm n p ra rm dir wb fp s
  | .bz n p ra off => Sys2Proof.Machine.execBz n p ra off s
  | .bnz n p ra off => Sys2Proof.Machine.execBnz n p ra off s
  | .j n p off => Sys2Proof.Machine.execJ n p off s
  | .call n p off => Sys2Proof.Machine.execCall n p off s
  | .jr n p ra => Sys2Proof.Machine.execJr n p ra s
  | .callr n p ra => Sys2Proof.Machine.execCallr n p ra s
  | .ret n p => Sys2Proof.Machine.execRet n p s
  | .retx n p => Sys2Proof.Machine.execRetx n p s
  | .mfcr n p rd cr => Sys2Proof.Machine.execMfcr n p rd cr s
  | .mtcr n p cr ra => Sys2Proof.Machine.execMtcr n p cr ra s
  | .fence n p => Sys2Proof.Machine.execFence n p s
  | .ifence n p => Sys2Proof.Machine.execIfence n p s
  | .icinv n p ra => Sys2Proof.Machine.execIcinv n p ra s
  | .dcinv n p ra => Sys2Proof.Machine.execDcinv n p ra s
  | .icinvall n p => Sys2Proof.Machine.execIcinvall n p s
  | .dcinvall n p => Sys2Proof.Machine.execDcinvall n p s
  | .trap n p imm => Sys2Proof.Machine.execTrap n p imm s
  | .wait n p => Sys2Proof.Machine.execWait n p s
  | .mfb n p rg cls num => Sys2Proof.Machine.execMfb n p rg cls num s
  | .mtb n p rg cls num => Sys2Proof.Machine.execMtb n p rg cls num s
  | .storeFaultDeferred n => Sys2Proof.Machine.execStoreFaultDeferred n s
  | .lockstepDisagreement pair again => Sys2Proof.Machine.execLockstepDisagreement pair again s
  | .schedulerEvent n slot => Sys2Proof.Machine.execSchedulerEvent n slot s
  | .taskPreempt n => Sys2Proof.Machine.execTaskPreempt n s
  | .bankSpillDone n => Sys2Proof.Machine.execBankSpillDone n s
  | .bankFillDone n bad => Sys2Proof.Machine.execBankFillDone n bad s
  | .slotEnable m n slot v => Sys2Proof.Machine.execSlotEnable m n slot v s
  | .slotKick m n slot v => Sys2Proof.Machine.execSlotKick m n slot v s
  | .slotInit m n slot v => Sys2Proof.Machine.execSlotInit m n slot v s
  | .slotPin m n slot v => Sys2Proof.Machine.execSlotPin m n slot v s
  | .schSpillWrite m n v => Sys2Proof.Machine.execSchSpillWrite m n v s
  | .schRelease m n v => Sys2Proof.Machine.execSchRelease m n v s
  | .coreHold m n v => Sys2Proof.Machine.execCoreHold m n v s
  | .pairLock m n v => Sys2Proof.Machine.execPairLock m n v s
  | .debugHalt who => Sys2Proof.Machine.execDebugHalt who s
  | .debugResume who => Sys2Proof.Machine.execDebugResume who s
  | .scrubRead mem a flips => Sys2Proof.Machine.execScrubRead mem a flips s
  | .rowRetireCopyDone mem a => Sys2Proof.Machine.execRowRetireCopyDone mem a s
  | .flashProgram m b => Sys2Proof.Machine.execFlashProgram m b s
  | .flashErase m b => Sys2Proof.Machine.execFlashErase m b s
  | .flashClrInt m b => Sys2Proof.Machine.execFlashClrInt m b s
  | .flashOperationDone b ok => Sys2Proof.Machine.execFlashOperationDone b ok s
  | .dmaGo m c v => Sys2Proof.Machine.execDmaGo m c v s
  | .dmaStop m c v => Sys2Proof.Machine.execDmaStop m c v s
  | .dmaTrigger c => Sys2Proof.Machine.execDmaTrigger c s
  | .dmaResponse c => Sys2Proof.Machine.execDmaResponse c s
  | .drainTimeout n => Sys2Proof.Machine.execDrainTimeout n s
  | .qpPush m d p => Sys2Proof.Machine.execQpPush m d p s
  | .qpPop m d p => Sys2Proof.Machine.execQpPop m d p s
  | .queueConfigure m q v => Sys2Proof.Machine.execQueueConfigure m q v s
  | .queueOwn m q v => Sys2Proof.Machine.execQueueOwn m q v s
  | .watermarkWrite m q v => Sys2Proof.Machine.execWatermarkWrite m q v s
  | .requestTake mb => Sys2Proof.Machine.execRequestTake mb s
  | .requestFramingTimeout mb => Sys2Proof.Machine.execRequestFramingTimeout mb s
  | .deadlineExpiry mb => Sys2Proof.Machine.execDeadlineExpiry mb s
  | .responsePush mb => Sys2Proof.Machine.execResponsePush mb s
  | .responseTimeout mb => Sys2Proof.Machine.execResponseTimeout mb s
  | .loadUpdate load => Sys2Proof.Machine.execLoadUpdate load s
  | .mpWatchdog => Sys2Proof.Machine.execMpWatchdog s
  | .mpLockstepDisagreement again => Sys2Proof.Machine.execMpLockstepDisagreement again s
  | .sysIdent mb => Sys2Proof.Machine.execSysIdent mb s
  | .sysState mb => Sys2Proof.Machine.execSysState mb s
  | .sysSafe mb => Sys2Proof.Machine.execSysSafe mb s
  | .sysReset mb => Sys2Proof.Machine.execSysReset mb s
  | .cfgRead mb => Sys2Proof.Machine.execCfgRead mb s
  | .cfgWrite mb => Sys2Proof.Machine.execCfgWrite mb s
  | .cfgAlloc mb => Sys2Proof.Machine.execCfgAlloc mb s
  | .cfgFree mb => Sys2Proof.Machine.execCfgFree mb s
  | .cfgAssign mb => Sys2Proof.Machine.execCfgAssign mb s
  | .cfgMailbox mb => Sys2Proof.Machine.execCfgMailbox mb s
  | .epochOpen mb => Sys2Proof.Machine.execEpochOpen mb s
  | .epochStage mb => Sys2Proof.Machine.execEpochStage mb s
  | .epochHaul mb => Sys2Proof.Machine.execEpochHaul mb s
  | .epochAbandon mb => Sys2Proof.Machine.execEpochAbandon mb s
  | .epochStatus mb => Sys2Proof.Machine.execEpochStatus mb s
  | .rcpBegin mb => Sys2Proof.Machine.execRcpBegin mb s
  | .rcpData mb verify => Sys2Proof.Machine.execRcpData mb verify s
  | .rcpCommit mb verify => Sys2Proof.Machine.execRcpCommit mb verify s
  | .rcpLoad mb => Sys2Proof.Machine.execRcpLoad mb s
  | .rcpHaul mb => Sys2Proof.Machine.execRcpHaul mb s
  | .rcpList mb => Sys2Proof.Machine.execRcpList mb s
  | .rcpDelete mb verify => Sys2Proof.Machine.execRcpDelete mb verify s
  | .recipeStoreTimeout mb => Sys2Proof.Machine.execRecipeStoreTimeout mb s
  | .recipeDirectApply => Sys2Proof.Machine.execRecipeDirectApply s
  | .autostartSourceHaul => Sys2Proof.Machine.execAutostartSourceHaul s
  | .calRun mb => Sys2Proof.Machine.execCalRun mb s
  | .calSave mb => Sys2Proof.Machine.execCalSave mb s
  | .calRestore mb => Sys2Proof.Machine.execCalRestore mb s
  | .tuneStart mb => Sys2Proof.Machine.execTuneStart mb s
  | .tunePoll mb => Sys2Proof.Machine.execTunePoll mb s
  | .tuneCancel mb => Sys2Proof.Machine.execTuneCancel mb s
  | .netPort mb => Sys2Proof.Machine.execNetPort mb s
  | .netSessionOpen mb => Sys2Proof.Machine.execNetSessionOpen mb s
  | .netSessionClose mb => Sys2Proof.Machine.execNetSessionClose mb s
  | .netGcl mb => Sys2Proof.Machine.execNetGcl mb s
  | .netStatus mb => Sys2Proof.Machine.execNetStatus mb s
  | .diagFaults mb => Sys2Proof.Machine.execDiagFaults mb s
  | .diagAck mb => Sys2Proof.Machine.execDiagAck mb s
  | .diagRetire mb => Sys2Proof.Machine.execDiagRetire mb s
  | .diagRestore mb => Sys2Proof.Machine.execDiagRestore mb s
  | .diagSnapshot mb => Sys2Proof.Machine.execDiagSnapshot mb s
  | .diagDrain mb => Sys2Proof.Machine.execDiagDrain mb s
  | .fwBegin mb verify => Sys2Proof.Machine.execFwBegin mb verify s
  | .fwData mb verify => Sys2Proof.Machine.execFwData mb verify s
  | .fwVerify mb => Sys2Proof.Machine.execFwVerify mb s
  | .fwActivate mb verify => Sys2Proof.Machine.execFwActivate mb verify s
  | .fwCommit mb verify => Sys2Proof.Machine.execFwCommit mb verify s
  | .fwStatus mb => Sys2Proof.Machine.execFwStatus mb s
  | .timeGet mb => Sys2Proof.Machine.execTimeGet mb s
  | .timeSet mb => Sys2Proof.Machine.execTimeSet mb s
  | .timeDisc mb => Sys2Proof.Machine.execTimeDisc mb s
  | .timeAlarm mb => Sys2Proof.Machine.execTimeAlarm mb s
  | .secRights mb => Sys2Proof.Machine.execSecRights mb s
  | .secChallenge mb => Sys2Proof.Machine.execSecChallenge mb s
  | .secUnlock mb => Sys2Proof.Machine.execSecUnlock mb s
  | .secLock mb => Sys2Proof.Machine.execSecLock mb s
  | .portScanStep p => Sys2Proof.Machine.execPortScanStep p s
  | .linkUp p => Sys2Proof.Machine.execLinkUp p s
  | .linkDown p => Sys2Proof.Machine.execLinkDown p s
  | .portRetire p => Sys2Proof.Machine.execPortRetire p s
  | .ethFrameDrop p crc => Sys2Proof.Machine.execEthFrameDrop p crc s
  | .cycleStart p => Sys2Proof.Machine.execCycleStart p s
  | .cycleEndMiss ses => Sys2Proof.Machine.execCycleEndMiss ses s
  | .cyclicTelegram p rtag body => Sys2Proof.Machine.execCyclicTelegram p rtag body s
  | .acyclicTelegram p rtag body => Sys2Proof.Machine.execAcyclicTelegram p rtag body s
  | .scheduledFire => Sys2Proof.Machine.execScheduledFire s
  | .scheduledHaul => Sys2Proof.Machine.execScheduledHaul s
  | .scheduledSnap => Sys2Proof.Machine.execScheduledSnap s
  | .ackTelegram p rtag body => Sys2Proof.Machine.execAckTelegram p rtag body s
  | .ackTimeout ses => Sys2Proof.Machine.execAckTimeout ses s
  | .discoverTelegram p body => Sys2Proof.Machine.execDiscoverTelegram p body s
  | .joinTelegram p rtag body => Sys2Proof.Machine.execJoinTelegram p rtag body s
  | .leaveTelegram p rtag body => Sys2Proof.Machine.execLeaveTelegram p rtag body s
  | .joinRetry ses => Sys2Proof.Machine.execJoinRetry ses s
  | .hostMemoryWrite win off whole data => Sys2Proof.Machine.execHostMemoryWrite win off whole data s
  | .hostMemoryRead win off whole count => Sys2Proof.Machine.execHostMemoryRead win off whole count s
  | .msixVector v => Sys2Proof.Machine.execMsixVector v s
  | .hostReset => Sys2Proof.Machine.execHostReset s
  | .hostLinkDown => Sys2Proof.Machine.execHostLinkDown s
  | .canFrameReceive k frame good ago => Sys2Proof.Machine.execCanFrameReceive k frame good ago s
  | .canFrameTransmit k good => Sys2Proof.Machine.execCanFrameTransmit k good s
  | .uartReceive k d framing parity => Sys2Proof.Machine.execUartReceive k d framing parity s
  | .uartDataWrite m k v => Sys2Proof.Machine.execUartDataWrite m k v s
  | .spiDataWrite m k v => Sys2Proof.Machine.execSpiDataWrite m k v s
  | .spiPennantStart k => Sys2Proof.Machine.execSpiPennantStart k s
  | .spiTransferDone k rx => Sys2Proof.Machine.execSpiTransferDone k rx s
  | .i2cCmdWrite m k v => Sys2Proof.Machine.execI2cCmdWrite m k v s
  | .i2cDone k outcome rx => Sys2Proof.Machine.execI2cDone k outcome rx s
  | .faultReport source reporter cause detail => Sys2Proof.Machine.execFaultReport source reporter cause detail s
  | .fcAck m v => Sys2Proof.Machine.execFcAck m v s
  | .fcRestore m v => Sys2Proof.Machine.execFcRestore m v s
  | .restoreComplete test => Sys2Proof.Machine.execRestoreComplete test s
  | .fcRetire m v => Sys2Proof.Machine.execFcRetire m v s
  | .clockFault => Sys2Proof.Machine.execClockFault s
  | .pllUnlock n => Sys2Proof.Machine.execPllUnlock n s
  | .supplyFault rail mv => Sys2Proof.Machine.execSupplyFault rail mv s
  | .supplyRecovered rail => Sys2Proof.Machine.execSupplyRecovered rail s
  | .pwIslandOffWrite m v => Sys2Proof.Machine.execPwIslandOffWrite m v s
  | .islandPowerDown n => Sys2Proof.Machine.execIslandPowerDown n s
  | .pwIslandOnWrite m v => Sys2Proof.Machine.execPwIslandOnWrite m v s
  | .pwIslandResetWrite m v => Sys2Proof.Machine.execPwIslandResetWrite m v s
  | .watchRequest m v => Sys2Proof.Machine.execWatchRequest m v s
  | .wakeSource w => Sys2Proof.Machine.execWakeSource w s
  | .wakeComplete beats => Sys2Proof.Machine.execWakeComplete beats s
  | .backupEntry => Sys2Proof.Machine.execBackupEntry s
  | .powerOnReset cause boot => Sys2Proof.Machine.execPowerOnReset cause boot s
  | .bootRom => Sys2Proof.Machine.execBootRom s
  | .ottarStartup => Sys2Proof.Machine.execOttarStartup s
  | .thermalSample sensor temp => Sys2Proof.Machine.execThermalSample sensor temp s
  | .pwTestWrite m v => Sys2Proof.Machine.execPwTestWrite m v s
  | .testModeChange => Sys2Proof.Machine.execTestModeChange s
  | .tripInputInactive n k inp => Sys2Proof.Machine.execTripInputInactive n k inp s
  | .referenceEdge n k j rise fine => Sys2Proof.Machine.execReferenceEdge n k j rise fine s
  | .sdClockRestored n d => Sys2Proof.Machine.execSdClockRestored n d s
  | .ssiMonoflopEnd n q => Sys2Proof.Machine.execSsiMonoflopEnd n q s
  | .mpRestartComplete => Sys2Proof.Machine.execMpRestartComplete s
  | .hostLinkUp lanes speed => Sys2Proof.Machine.execHostLinkUp lanes speed s
  | .uartCharacterSent k => Sys2Proof.Machine.execUartCharacterSent k s
  | .clockFaultEnd => Sys2Proof.Machine.execClockFaultEnd s
  | .watchEntered => Sys2Proof.Machine.execWatchEntered s
  | .porOutRelease => Sys2Proof.Machine.execPorOutRelease s
  | .jtagTapOperation resetLow op => Sys2Proof.Machine.execJtagTapOperation resetLow op s

end Sys2Proof.Machine
end

