-- ==== Sys2Proof/Safety.lean ====
section
/-!
DEFINITION. What counts as a safe run, and the predicates over states in which statements are written.
-/
namespace Sys2Proof.Machine
open Sys2Proof

/-- A step answers a next state. -/
def Goes (o : Host.Outcome State Fault Refusal) (t : State) : Prop := o = .next t

/-- The canonical form of memory: addresses strictly rising, no byte equal to what an unlisted address reads as. -/
def Memory.wf (m : Store Byte) : Bool := Store.wf memReset m

/-- The canonical form of the register file. -/
def Registers.wf (r : Store Word) : Bool := Store.wf regReset r

/-- Every store of the state in its canonical form: equal contents are then equal data (log entry 5). -/
structure State.Canonical (s : State) : Prop where
  mem : Store.wf (memReset) s.mem = true
  regs : Store.wf (regReset) s.regs = true
  domRegs : Store.wf (fun _ => 0#32) s.domRegs = true
  scCount : Store.wf (fun _ => 0) s.scCount = true
  stamps : Store.wf (fun _ => 0#32) s.stamps = true
  islands : Store.wf (fun _ => .off) s.islands = true
  pulses : Store.wf (fun _ => 0) s.pulses = true
  paths : Store.wf (fun _ => .good) s.paths = true
  links : Store.wf (fun _ => .reset) s.links = true
  tus : Store.wf (fun _ => .reset) s.tus = true
  acs : Store.wf (fun _ => .reset) s.acs = true
  cps : Store.wf (fun _ => .reset) s.cps = true
  eqs : Store.wf (fun _ => .reset) s.eqs = true
  mks : Store.wf (fun _ => .reset) s.mks = true
  sds : Store.wf (fun _ => .reset) s.sds = true
  les : Store.wf (fun _ => .reset) s.les = true
  cores : Store.wf (fun _ => .reset) s.cores = true
  ecc : Store.wf (fun _ => WordMark.good) s.ecc = true
  macros : Store.wf (fun _ => .reset) s.macros = true
  flash : Store.wf (fun _ => .reset) s.flash = true
  flashOps : Store.wf (fun _ => none) s.flashOps = true
  dmas : Store.wf (fun _ => .reset) s.dmas = true
  queues : Store.wf (fun _ => .reset) s.queues = true
  serial : Store.wf (fun _ => .reset) s.serial = true

/-- A state from which the machine goes on for `n` steps without a fault or a refusal. -/
def State.runs : Nat → State → Prop
  | 0, _ => True
  | n + 1, s => ∃ t, step s = .next t ∧ State.runs n t

/-- The parts of the state, for frames. -/
inductive Part where
  | pending | due | regs | scCount | domRegs | mem | stamps | xmNow | reply | freeCtr | clk | ep | snap | fab | pulses
  | paths | links | islands | device | faults | tus | acs | cps | eqs | mks | safeN | sds | les | pow | cores | ecc
  | macros | flash | flashOps | dmas | queues | mp | net | host | serial | tap
deriving DecidableEq

/-- A part of the state is the same in two states. -/
def Part.same (s t : State) : Part → Prop
  | .pending => t.pending = s.pending
  | .due => t.due = s.due
  | .regs => t.regs = s.regs
  | .scCount => t.scCount = s.scCount
  | .domRegs => t.domRegs = s.domRegs
  | .mem => t.mem = s.mem
  | .stamps => t.stamps = s.stamps
  | .xmNow => t.xmNow = s.xmNow
  | .reply => t.reply = s.reply
  | .freeCtr => t.freeCtr = s.freeCtr
  | .clk => t.clk = s.clk
  | .ep => t.ep = s.ep
  | .snap => t.snap = s.snap
  | .fab => t.fab = s.fab
  | .pulses => t.pulses = s.pulses
  | .paths => t.paths = s.paths
  | .links => t.links = s.links
  | .islands => t.islands = s.islands
  | .device => t.device = s.device
  | .faults => t.faults = s.faults
  | .tus => t.tus = s.tus
  | .acs => t.acs = s.acs
  | .cps => t.cps = s.cps
  | .eqs => t.eqs = s.eqs
  | .mks => t.mks = s.mks
  | .safeN => t.safeN = s.safeN
  | .sds => t.sds = s.sds
  | .les => t.les = s.les
  | .pow => t.pow = s.pow
  | .cores => t.cores = s.cores
  | .ecc => t.ecc = s.ecc
  | .macros => t.macros = s.macros
  | .flash => t.flash = s.flash
  | .flashOps => t.flashOps = s.flashOps
  | .dmas => t.dmas = s.dmas
  | .queues => t.queues = s.queues
  | .mp => t.mp = s.mp
  | .net => t.net = s.net
  | .host => t.host = s.host
  | .serial => t.serial = s.serial
  | .tap => t.tap = s.tap

/-- Two states agree in every part but those listed. -/
def SameBut (l : List Part) (s t : State) : Prop := ∀ p : Part, p ∉ l → p.same s t

/-- Every register but those listed reads in `t` as in `s`. -/
def RegsBut (l : List Nat) (s t : State) : Prop := ∀ a : Nat, a ∉ l → t.reg a = s.reg a

/-- Master `m` writes the register at `a`, of block `b` and row `r`, and nothing refuses the access: the master acts, it
reaches the register (R28) over a path without fault (R445), an island there answers (R13), the register takes writes (R4),
ownership and security admit them (R18). -/
structure State.Writes (s : State) (m : Master) (b : Blk) (r : RegRow) (a : Nat) : Prop where
  acts : s.acts m = true
  place : s.place m a = some (.register b r a)
  path : s.pathTo a = .good
  there : s.islandGone m a = false
  access : r.access = .ow ∨ r.access = .rw ∨ r.access = .wo
  may : s.mayWriteReg (s.domainOf m) b r a = true

/-- Master `m` reads the register at `a`, of block `b` and row `r`, and nothing refuses the access. -/
structure State.Reads (s : State) (m : Master) (b : Blk) (r : RegRow) (a : Nat) : Prop where
  acts : s.acts m = true
  place : s.place m a = some (.register b r a)
  path : s.pathTo a = .good
  there : s.islandGone m a = false
  may : s.mayReadReg (s.domainOf m) b a = true

/-- The commands under which exec may change a part of the state: `f` reads the part, and `l` lists the commands. -/
def OnlyThese {α : Type} (f : State → α) (l : Instr → Prop) : Prop :=
  ∀ (c : Instr) (s t : State), exec c s = .next t → ¬ l c → f t = f s

/-- Every byte of memory outside the `n` bytes from `a` reads in `t` as in `s`. -/
def BytesBut (a n : Nat) (s t : State) : Prop := ∀ b : Nat, b < a ∨ a + n ≤ b → t.byte b = s.byte b

/-- A loop engine takes writes unless it is retired, has no substitute and no copy is under way (R111); every other
block takes them. -/
def State.blockTakes (s : State) : Blk → Bool
  | .le n m => !(s.leRetired n m && !s.leHosted n m && !(s.le n m).copying)
  | _ => true

/-- A hoist whose flip-flop and output a transition may change, by the register that holds them. -/
def hoistRegs : List Nat := (List.range 512).map hsState

/-- In `t` the bytes that `p` keeps are those of `s`, and every other byte is what unlisted memory reads as. -/
def MemKept (p : Nat → Bool) (s t : State) : Prop := ∀ a : Nat, t.byte a = if p a then s.byte a else memReset a

/-- The registers that `p` keeps read in `t` as in `s`, and every other but those listed reads as after reset. -/
def RegsKept (p : Nat → Bool) (l : List Nat) (s t : State) : Prop :=
  ∀ a : Nat, a ∉ l → t.reg a = if p a then s.reg a else regReset a

/-- Status registers of the encoder ports, where a trigger of a serial frame that comes too soon shows (R230). -/
def portStatus : List Nat := (List.range 32).map (fun i => R.EQ_STATUS (i / 2) (i % 2))

/-- In `t` the line of source `g` stands at 1 for this tick and the next, and every enabled pennant that carries it and may
see it has its rise due, unless it stood at 1 before (R249). -/
def Fires (g : Nat) (s t : State) : Prop :=
  t.pulses.get (fun _ => 0) g = 2 ∧ (s.sourceLevel g = false →
    ∀ p : Nat, p ∈ s.selecting (.source g) → s.selRefused p = false → transition p (!s.rb (pnCfg p) 29) false ∈ t.due)

/-- What no command makes false, and what statements about loop engines assume of a state: every staged entry names an
epoch-bound register or memory word (R56), and every loop engine has its eight contexts (R88). -/
structure State.Sound (s : State) : Prop where
  staged : ∀ e ∈ s.ep.entries, isEB e.addr = true
  contexts : ∀ p ∈ s.les, p.2.ctxs.length = 8

/-- The way of island `n`'s engines to the exchange memory is open, and no transfer on it fails twice (R10, R445). -/
def State.XmOpen (s : State) (n : Nat) : Prop := s.pathUp n = true ∧ s.pathTo 0x28000000 ≠ .bad

/-- Engine `(n, m)` dispatches next the stage at position `i` of context `c`'s chain (R96, R98): the engine works, no
other context comes first, the header `h` there is no chain error and is of type `typ` and form `f`, and no word of the
engine's memories that the stage reads has a wrong bit. -/
structure State.Dispatches (s : State) (n m c typ i : Nat) (h : Hdr) (f : Form) : Prop where
  sound : s.Sound
  works : s.leWorks n m = true
  turn : s.leChoice n m = some c
  finds : (s.ctxBegin n m c).nextStage n m c = .stage i h
  kind : h.typ = typ
  shape : formOf h (s.headP0 n m h) = some f
  good : ∀ a ∈ (s.ctxBegin n m c).stageReads n m (((s.ctxBegin n m c).chainOf n m c).1 + i) h, s.eccMark a = .good

/-- What the instances of a stage read, in order (R122). -/
def State.instances (s : State) (n m c : Nat) (h : Hdr) (f : Form) : List LawIn :=
  ((s.ctxBegin n m c).gather n m c h f 0 h.count).1

/-- What `t` holds after the stage at position `i`, header `h`, whose instances give the results `os` (R97, R105, R122,
R127): the state memory holds the instances' outputs in order from OUT if OUT lies there, their states from
STATE_OFS, and its other words as before; outputs to exchange words are written at once in natural timing, if the
engine's domain may write them all, the way there is open and nothing else has written them in this cycle, and held in
fixed-phase timing, behind `pre`; NONFINITE is set if a non-finite value occurred; the
context stands behind the stage. -/
def State.LeavesAll (s : State) (n m c i : Nat) (h : Hdr) (os : List LawOut) (t : State) (pre : List OutAct) : Prop :=
  let b := s.ctxBegin n m c
  let us := os.flatMap (fun o => o.u)
  let ss := os.flatMap (fun o => o.st)
  (∀ a : Nat, a < 8192 → t.stateMem n m a =
    if regionOf h.out = some .state ∧ h.out ≤ a ∧ a < h.out + us.length then us.getD (a - h.out) 0
    else if h.stateOfs ≤ a ∧ a < h.stateOfs + ss.length then ss.getD (a - h.stateOfs) 0
    else s.stateMem n m a)
  ∧ (regionOf h.out = some .exchange → us ≠ [] → (b.ctx n m c).overrun = false → (b.ctx n m c).fixed = true →
    (t.ctx n m c).outs = (b.ctx n m c).outs ++ pre ++ [.exchange (h.out - 0x4000) us])
  ∧ (regionOf h.out = some .exchange → (b.ctx n m c).overrun = false → (b.ctx n m c).fixed = false → s.XmOpen n →
    (∀ j : Nat, j < us.length → s.wordNow (h.out - 0x4000 + j) = none) →
    (∀ j : Nat, j < us.length → s.xmRefusal (s.leDomain n m) (h.out - 0x4000 + j) true = none) →
    ∀ j : Nat, j < us.length → t.mword (xmAddr (h.out - 0x4000 + j)) = us.getD j 0)
  ∧ (os.any (fun o => o.bad) = true → t.rb (R.LE_CTXc_STATUS n m c) 5 = true)
  ∧ (t.ctx n m c).stage = i + 1

/-- What `t` holds after the stage at position `i`, header `h`, form `f`, whose every instance follows `law`. -/
def State.Leaves (s : State) (n m c i : Nat) (h : Hdr) (f : Form) (law : LawIn → LawOut) (t : State)
    (pre : List OutAct := []) : Prop :=
  s.LeavesAll n m c i h ((s.instances n m c h f).map law) t pre

/-- A stage command: the type it dispatches, the engine and context, the outcome of its residue checks and the pass of a
mismatch (R97, R105). -/
structure StageRow where
  typ : Nat
  n : Nat
  m : Nat
  c : Nat
  res : Residue
  pass : Nat
deriving DecidableEq, Repr

/-- The stage command that a command is (R129 to R141). -/
def stageRow : Instr → Option StageRow
  | .converterScaling n m c res => some ⟨0x10, n.val, m.val, c.val, res, 0⟩
  | .sigmaDeltaScaling n m c res => some ⟨0x11, n.val, m.val, c.val, res, 0⟩
  | .encoderDecode n m c res => some ⟨0x12, n.val, m.val, c.val, res, 0⟩
  | .sinCosInterpolation n m c res => some ⟨0x13, n.val, m.val, c.val, res, 0⟩
  | .resolverDemodulation n m c res => some ⟨0x14, n.val, m.val, c.val, res, 0⟩
  | .clarke n m c res => some ⟨0x20, n.val, m.val, c.val, res, 0⟩
  | .inverseClarke n m c res => some ⟨0x21, n.val, m.val, c.val, res, 0⟩
  | .park n m c res => some ⟨0x22, n.val, m.val, c.val, res, 0⟩
  | .inversePark n m c res => some ⟨0x23, n.val, m.val, c.val, res, 0⟩
  | .sinCos n m c res => some ⟨0x24, n.val, m.val, c.val, res, 0⟩
  | .atan2 n m c res => some ⟨0x25, n.val, m.val, c.val, res, 0⟩
  | .magnitude n m c res => some ⟨0x26, n.val, m.val, c.val, res, 0⟩
  | .piBackCalculation n m c res => some ⟨0x30, n.val, m.val, c.val, res, 0⟩
  | .pidFilteredDerivative n m c res => some ⟨0x31, n.val, m.val, c.val, res, 0⟩
  | .twoDegreeOfFreedomPi n m c res => some ⟨0x32, n.val, m.val, c.val, res, 0⟩
  | .proportionalResonant n m c res => some ⟨0x33, n.val, m.val, c.val, res, 0⟩
  | .leadLag n m c res => some ⟨0x34, n.val, m.val, c.val, res, 0⟩
  | .firstOrderLowPass n m c res => some ⟨0x40, n.val, m.val, c.val, res, 0⟩
  | .biquad n m c res => some ⟨0x41, n.val, m.val, c.val, res, 0⟩
  | .notch n m c res => some ⟨0x42, n.val, m.val, c.val, res, 0⟩
  | .movingAverage n m c res => some ⟨0x43, n.val, m.val, c.val, res, 0⟩
  | .speedObserver n m c res => some ⟨0x50, n.val, m.val, c.val, res, 0⟩
  | .fluxObserver n m c res => some ⟨0x51, n.val, m.val, c.val, res, 0⟩
  | .synchronousFramePll n m c res => some ⟨0x52, n.val, m.val, c.val, res, 0⟩
  | .saturate n m c res => some ⟨0x60, n.val, m.val, c.val, res, 0⟩
  | .rateLimit n m c res => some ⟨0x61, n.val, m.val, c.val, res, 0⟩
  | .circularDqLimit n m c res => some ⟨0x62, n.val, m.val, c.val, res, 0⟩
  | .sineTriangle n m c res => some ⟨0x70, n.val, m.val, c.val, res, 0⟩
  | .spaceVector n m c res => some ⟨0x71, n.val, m.val, c.val, res, 0⟩
  | .discontinuous n m c res => some ⟨0x72, n.val, m.val, c.val, res, 0⟩
  | .threeLevelNpc n m c res => some ⟨0x73, n.val, m.val, c.val, res, 0⟩
  | .overmodulation n m c res => some ⟨0x74, n.val, m.val, c.val, res, 0⟩
  | .deadTime n m c res => some ⟨0x80, n.val, m.val, c.val, res, 0⟩
  | .dcLink n m c res => some ⟨0x81, n.val, m.val, c.val, res, 0⟩
  | .dqDecoupling n m c res => some ⟨0x82, n.val, m.val, c.val, res, 0⟩
  | .shaper n m c res => some ⟨0x90, n.val, m.val, c.val, res, 0⟩
  | .gearing n m c res => some ⟨0x92, n.val, m.val, c.val, res, 0⟩
  | .move n m c res => some ⟨0xA2, n.val, m.val, c.val, res, 0⟩
  | .affine n m c res => some ⟨0xA3, n.val, m.val, c.val, res, 0⟩
  | .compareSelect n m c res => some ⟨0xA5, n.val, m.val, c.val, res, 0⟩
  | .cam n m c res => some ⟨0x91, n.val, m.val, c.val, res, 0⟩
  | .positionCompareArm n m c res => some ⟨0x93, n.val, m.val, c.val, res, 0⟩
  | .fcsMpc n m c res pass => some ⟨0xA0, n.val, m.val, c.val, res, pass.val⟩
  | .relayAutoTune n m c res => some ⟨0xA1, n.val, m.val, c.val, res, 0⟩
  | .table256Point n m c res => some ⟨0xA4, n.val, m.val, c.val, res, 0⟩
  | .eventEmit n m c res => some ⟨0xA6, n.val, m.val, c.val, res, 0⟩
  | .exchangeTransfer n m c res => some ⟨0xA7, n.val, m.val, c.val, res, 0⟩
  | .timerOutput n m c res => some ⟨0xA8, n.val, m.val, c.val, res, 0⟩
  | _ => none

/-- Core `n` issues its next instruction at once (R288 to R294): it runs, no partner and no long operation waits, the
fetch meets no frozen flash bank and no word in error. -/
structure State.Issues (s : State) (n : Nat) : Prop where
  ready : s.coreReady n = true
  alone : (s.coreRec n).pair = none
  div : (s.core n).div = none
  fpu : (s.core n).fpu = none
  blk : (s.core n).blk = none
  fetch : s.fetchFault n = (none, s)
  thawed : (s.flashHolds (s.core n).pc.toNat && !s.icOn n (s.core n).pc.toNat) = false

/-- The context in whose registers the next instruction of core `n` reads its operands (R290). -/
def State.now (s : State) (n : Nat) : CoreCtx := (s.core n).nextCycle

/-- An instruction that names an f register or FPCR fills no frame first (R322). -/
def State.FpFilled (s : State) (n : Nat) : Prop :=
  (s.core n).frames = [] ∨ (s.core n).crv 0x24 = 0#32 ∨ (s.core n).fps = true

/-- A result does not break the data stack limit (R282). -/
def State.KeepsLimit (s : State) (n : Nat) (d : CReg) (v : Word) : Prop :=
  d = .g 30 → (s.now n).violates v = false

/-- Core `n` has issued one instruction and `t` is the state before with its context changed to `x`; in COMPAT the
instruction completes before the next begins, so that every result has landed (R295). -/
def State.IssuedAs (s : State) (n : Nat) (x : CoreCtx) (t : State) : Prop :=
  t.core n = (if (s.now n).compat then x.landAll else x) ∧ SameBut [.cores] s t

/-- The result `v` for `d` lands `k` issue cycles later, the flags of FPCR are raised, the PC advances (R289, R290). -/
def State.Results (s : State) (n : Nat) (d : CReg) (v : Word) (k : Nat) (flags : Word) (t : State) : Prop :=
  s.IssuedAs n { ((s.now n).raiseFlags flags).send d v k with pc := (s.now n).pc + 4#32 } t

/-- Core `n` has started the long operation `o` in its integer divider (unit 0) or FP unit (R292): it is in progress and the
PC has advanced; in COMPAT it has completed, its result in place and its flags raised (R295). -/
def State.Starts (s : State) (n unit : Nat) (o : LongOp) (t : State) : Prop :=
  let c := { s.now n with pc := (s.now n).pc + 4#32 }
  t.core n = (if c.compat then ((c.landLong o.dest o.result).raiseFlags o.flags).landAll
    else if unit = 0 then { c with div := some o } else { c with fpu := some o }) ∧ SameBut [.cores] s t

/-- The byte of RAM that core `n` reaches at an address (R28, R288), its own TCM or system SRAM, over a path without fault
(R445). -/
def State.ramOf (s : State) (n : Fin 8) (a : Nat) : Option Nat :=
  match s.place (.core n) a with
  | some (.ram g) => if s.pathTo a = .good then some g else none
  | _ => none

/-- The aligned word at an address of core `n` lies in RAM, and no bit of it is wrong. -/
def State.goodWord (s : State) (n : Fin 8) (a : Nat) : Bool :=
  a % 4 == 0 && (s.ramOf n a).any (fun g => s.eccMark g == .good)

/-- The word of RAM at an address of core `n`. -/
def State.wordAt (s : State) (n : Fin 8) (a : Nat) : Word := s.mword ((s.ramOf n a).getD 0)

/-- A context with the new value of `ra`, if the addressing mode updates it, in flight (R284, R290). -/
def CoreCtx.updated (c : CoreCtx) (ra : Nat) : Option Word → CoreCtx
  | some v => c.send (.g ra) v 1
  | none => c

/-- Core `n` has issued a store of `k` bytes of `v` to byte `g` of RAM and its context is `x`: the bytes stand in memory,
little-endian, every other byte reads as before, and nothing but cores, memory and its marks has changed (R288, R299). -/
def State.Stored (s : State) (n : Nat) (x : CoreCtx) (g k : Nat) (v : Word) (t : State) : Prop :=
  t.core n = (if (s.now n).compat then x.landAll else x) ∧ t.loadN g k = v.toNat % 2 ^ (8 * k) ∧ BytesBut g k s t
    ∧ SameBut [.cores, .mem, .ecc, .freeCtr] s t

/-- Core `n` has taken an exception in the context `c` (R319 to R322): the frame at `base`, 272 bytes below g30, holds
STATUS, the saved PC, the exception registers, the limits and g1 to g7; the handler runs from `v` in supervisor state with
nothing in flight, g30 at the frame, and the cause and address recorded. -/
def State.Entered (n : Fin 8) (c : CoreCtx) (cause : Nat) (xaddr : Word) (imm : Nat) (deferred : Bool) (ret v : Word)
    (t : State) : Prop :=
  let base := c.gr 30 - 272#32
  let h := t.core n.val
  let w := fun (i : Nat) => t.wordAt n (base + w32 (4 * i)).toNat
  w 0 = c.crv 0 ∧ w 1 = ret ∧ w 2 = c.crv 0x21 ∧ w 3 = c.crv 0x22 ∧ w 4 = c.crv 6 ∧ w 5 = c.crv 5
    ∧ (∀ i : Fin 7, w (6 + i.val) = c.gr (i.val + 1))
    ∧ h.pc = v ∧ h.gr 30 = base ∧ h.frames = base :: c.frames ∧ h.flight = [] ∧ h.div = none ∧ h.fpu = none ∧ h.blk = none
    ∧ h.sup = true ∧ h.fps = false ∧ h.lockout = c.lockout
    ∧ h.crv 0x21 = w32 (at_ (b2n deferred) 31 + at_ imm 8 + cause) ∧ h.crv 0x22 = xaddr
    ∧ h.crv 0x24 = w32 (satTo 0xFFFF ((c.crv 0x24).toNat + 1))

/-- An exception with a cause can be taken in the context `c` with vector `v`: the frame does not break the data stack
limit, its words lie in RAM, and the vector is a good word outside it (R319, R324, R325). -/
structure State.CanEnter (s : State) (n : Fin 8) (c : CoreCtx) (cause : Nat) (v : Word) : Prop where
  limit : c.violates (c.gr 30 - 272#32) = false
  room : ∀ i : Fin 35, s.goodWord n (c.gr 30 - 272#32 + w32 (4 * i.val)).toNat = true
  vector : s.goodWord n (c.crv 0x20 + w32 (4 * cause)).toNat = true
  apart : ∀ i : Fin 35, s.ramOf n (c.gr 30 - 272#32 + w32 (4 * i.val)).toNat ≠ s.ramOf n (c.crv 0x20 + w32 (4 * cause)).toNat
  value : s.wordAt n (c.crv 0x20 + w32 (4 * cause)).toNat = v
  even : v.toNat % 4 = 0
  fresh : (s.coreRec n.val).stale = []

/-- No other slot of core `n` is about to run (R327). -/
def State.Stays (s : State) (n : Nat) : Prop := s.slotEn n (s.runSlot n) = true ∧ s.preempts n = none

/-- The entries of a queue, oldest first (R360). -/
def State.entries (s : State) (q : Nat) : List (List Word) := (List.range (s.qDepth q)).map (fun i => s.qEntry q i)

/-- A queue that is enabled holds the cells of its capacity, each of them once, and no more entries than cells (R359,
R360). -/
structure State.QueueSound (s : State) (q : Nat) : Prop where
  once : (s.queue q).cells.Nodup
  whole : (s.queue q).cells.length = s.qCapacity q
  fits : s.qDepth q ≤ s.qCapacity q

/-- The queue that a port's handle names (R362, R364). -/
def State.portQueue (s : State) (d p : Nat) : Nat := fld (s.reg (R.QP_HANDLE d p)) 15 0

/-- The first byte of the cell that takes the next entry of a queue. -/
def State.nextCell (s : State) (q : Nat) : Nat := cellAddr ((s.queue q).cellAt ((s.queue q).head + s.qDepth q))

/-- The buffer registers of a port. -/
def portRegs (d p : Nat) : List Nat := (List.range 16).map (fun i => R.QP_DATAi d p i)

/-- Byte of an element as read that stands at byte `k` of the element as written (R349): SWAP is `mode`, the element has
`size` bytes. -/
def swapIndex (mode size k : Nat) : Nat :=
  match mode with
  | 1 => size - 1 - k
  | 2 => size - 2 - k / 2 * 2 + k % 2
  | 3 => if size = 8 then (k + 4) % 8 else k
  | _ => k

/-- Byte `k` of the words of an element. -/
def elementByte (l : List Word) (k : Nat) : Byte := (l.map bytesOfWord).flatten.getD k 0#8

/-- The commands that Ottar runs for a request (R392 to R397): the mailbox, the CODE, and which payload lengths the
command takes. -/
def mailboxCommand : Instr → Option (Fin 1024 × Nat × (Nat → Bool))
  | .sysIdent mb => some (mb, 0x0101, fun l => l == 0)
  | .sysState mb => some (mb, 0x0102, fun l => l == 0)
  | .sysSafe mb => some (mb, 0x0103, fun l => l == 4)
  | .sysReset mb => some (mb, 0x0104, fun l => l == 4 || l == 8)
  | .cfgRead mb => some (mb, 0x0201, fun l => l == 8)
  | .cfgWrite mb => some (mb, 0x0202, fun l => l % 8 == 0 && decide (8 ≤ l) && decide (l ≤ 65528))
  | .cfgAlloc mb => some (mb, 0x0203, fun l => l == 16)
  | .cfgFree mb => some (mb, 0x0204, fun l => decide (8 ≤ l))
  | .cfgAssign mb => some (mb, 0x0205, fun l => l == 8)
  | .cfgMailbox mb => some (mb, 0x0206, fun l => l == 8)
  | .epochOpen mb => some (mb, 0x0301, fun l => l == 0)
  | .epochStage mb => some (mb, 0x0302, fun l => l == 4)
  | .epochHaul mb => some (mb, 0x0303, fun l => l == 16)
  | .epochAbandon mb => some (mb, 0x0304, fun l => l == 4)
  | .epochStatus mb => some (mb, 0x0305, fun l => l == 0)
  | .rcpBegin mb => some (mb, 0x0401, fun l => l == 16)
  | .rcpData mb _ => some (mb, 0x0402, fun l => decide (4 ≤ l))
  | .rcpCommit mb _ => some (mb, 0x0403, fun l => l == 0)
  | .rcpLoad mb => some (mb, 0x0404, fun l => l == 20)
  | .rcpHaul mb => some (mb, 0x0405, fun l => l == 16)
  | .rcpList mb => some (mb, 0x0406, fun l => l == 4)
  | .rcpDelete mb _ => some (mb, 0x0407, fun l => l == 4)
  | .calRun mb => some (mb, 0x0501, fun l => l == 4)
  | .calSave mb => some (mb, 0x0502, fun l => l == 4)
  | .calRestore mb => some (mb, 0x0503, fun l => decide (4 ≤ l))
  | .tuneStart mb => some (mb, 0x0601, fun l => l == 12)
  | .tuneCancel mb => some (mb, 0x0602, fun l => l == 8)
  | .netPort mb => some (mb, 0x0701, fun l => l == 16)
  | .netSessionOpen mb => some (mb, 0x0702, fun l => l == 16)
  | .netSessionClose mb => some (mb, 0x0703, fun l => l == 4)
  | .netGcl mb => some (mb, 0x0704, fun l => decide (20 ≤ l))
  | .netStatus mb => some (mb, 0x0705, fun l => l == 4)
  | .diagFaults mb => some (mb, 0x0801, fun l => l == 4)
  | .diagAck mb => some (mb, 0x0802, fun l => l == 4)
  | .diagRetire mb => some (mb, 0x0803, fun l => l == 4)
  | .diagRestore mb => some (mb, 0x0804, fun l => l == 4)
  | .diagSnapshot mb => some (mb, 0x0805, fun l => decide (20 ≤ l))
  | .diagDrain mb => some (mb, 0x0806, fun l => l == 8)
  | .fwBegin mb _ => some (mb, 0x0901, fun l => l == 4)
  | .fwData mb _ => some (mb, 0x0902, fun l => decide (4 ≤ l))
  | .fwVerify mb => some (mb, 0x0903, fun l => l == 0)
  | .fwActivate mb _ => some (mb, 0x0904, fun l => l == 4)
  | .fwCommit mb _ => some (mb, 0x0905, fun l => l == 0)
  | .fwStatus mb => some (mb, 0x0906, fun l => l == 0)
  | .timeGet mb => some (mb, 0x0A01, fun l => l == 0)
  | .timeSet mb => some (mb, 0x0A02, fun l => l == 20)
  | .timeDisc mb => some (mb, 0x0A03, fun l => l == 8)
  | .timeAlarm mb => some (mb, 0x0A04, fun l => l == 16)
  | .secRights mb => some (mb, 0x0B01, fun l => l == 12)
  | .secChallenge mb => some (mb, 0x0B02, fun l => l == 0)
  | .secUnlock mb => some (mb, 0x0B03, fun l => l == 132)
  | .secLock mb => some (mb, 0x0B04, fun l => l == 0)
  | _ => none

/-- Request `r` with the response that its client gets: STATUS, INFO and payload (R379). -/
def MbRequest.answered (r : MbRequest) (status : Nat) (info : Word) (p : List Word) : MbRequest :=
  { r with answer := some ⟨status, responseCells r.tag r.code r.flags r.cls status info p, none⟩ }

/-- In `t` request `r` of `s` waits with its response, and no other request has come. -/
def Answered (r : MbRequest) (status : Nat) (info : Word) (p : List Word) (s t : State) : Prop :=
  r.answered status info p ∈ t.mp.requests
    ∧ ∀ y ∈ t.mp.requests, y = r.answered status info p ∨ y ∈ s.mp.requests

/-- The turn of request `r` has come in mailbox `mb`, which Ottar or the boot ROM serves (R380, R480), with CODE `code`. -/
def State.MbTurn (s : State) (mb : Fin 1024) (code : Nat) (r : MbRequest) : Prop :=
  s.mbServed mb.val = true
    ∧ s.mp.requests.find? (fun x => x.mb == mb.val && x.code == code && s.mbTurn x) = some r

/-- The turn has come, in time, with a payload of `words` words, and the client wants the response (R379, R385). -/
structure State.MbGoes (s : State) (mb : Fin 1024) (code words : Nat) (r : MbRequest) : Prop where
  turn : s.MbTurn mb code r
  inTime : s.mbExpired r = false
  len : r.payload.length = words
  loud : r.quiet = false

/-- A telegram of type `typ` for this controller reaches port `p`, whose link is up (R411, R414). -/
structure State.Hears (s : State) (p typ : Nat) (body : List Byte) : Prop where
  up : s.linkUp p = true
  takes : s.hears body = .takes
  kind : teleType body = typ

/-- Session `k` is not replicated and runs on port `p` alone, which sends (R429). -/
structure State.RunsOn (s : State) (k p : Nat) : Prop where
  single : s.sesReplicated k = false
  ports : s.sesPorts k = [p]
  works : s.portWorks p = true

/-- The ports, scheduled commands, tags and timing of the network engine are those of `s`. -/
def NetBut (s t : State) : Prop :=
  t.net.ports = s.net.ports ∧ t.net.sched = s.net.sched ∧ t.net.tags = s.net.tags ∧ t.net.asPort = s.net.asPort

/-- A memory TLP of `n` DWs at offset `off` of a window is malformed (R432). -/
def TlpMalformed (off : Word) (whole : Bool) (n : Nat) : Prop := whole = false ∨ off.toNat % 4 ≠ 0 ∨ n = 0 ∨ 64 < n

/-- The state in which a memory TLP acts, before its first DW (R432). -/
def State.tlpBegun (s : State) : State := { s with host := { s.host with unsupported := false, completion := [] } }

/-- The fault confinement state that the error counts of a CAN controller give (R434). -/
def canState (rec tec : Nat) : Nat := if 255 < tec then 2 else if 127 < tec ∨ 127 < rec then 1 else 0

/-- In `t` request `r` waits with its response; beyond that `t` is `u` but for the registers, due commands and reset order
that the completion of quiet requests of the same mailbox moves (R380, R383). -/
def Responds (r : MbRequest) (status : Nat) (info : Word) (p : List Word) (u t : State) : Prop :=
  Answered r status info p u t
    ∧ RegsBut [R.MB_STATUS, R.MB_MBm_STATE r.mb] u t
    ∧ t.mp = { u.mp with requests := t.mp.requests }
    ∧ (∃ l, t.due = u.due ++ l)
    ∧ t.pow = { u.pow with resetAt := t.pow.resetAt }
    ∧ SameBut [.regs, .scCount, .due, .mp, .pow] u t

/-- The response of a command whose accesses ended without an error or with the error `e` of access `i` (R389, R391). -/
def RespondsAccess (r : MbRequest) (e : Option (Nat × BusErr)) (p : List Word) (u t : State) : Prop :=
  match e with
  | none => Responds r stOk (u.elapsed r) p u t
  | some (i, x) => Responds r (if x = .ownership then stDenied else stAccessError) (w32 i) [] u t

/-- No request of the device waits with a response that has no cell to send: quiet successes have completed (R380). -/
def State.NoneQuiet (s : State) : Prop := ∀ y ∈ s.mp.requests, ∀ a, y.answer = some a → a.cells ≠ []

/-- In `t` request `r` of `u` has completed with STATUS `status` (R380, R408). -/
def Completed (r : MbRequest) (status : Nat) (u t : State) : Prop :=
  t.mp.requests = u.mp.requests.erase r
    ∧ t.reg (R.MB_MBm_STATE r.mb) = w32 ((if status = 0 then 2 else 3) * 2 ^ 30 + status * 2 ^ 16 + r.tag)
    ∧ RegsBut [R.MB_STATUS, R.MB_MBm_STATE r.mb] u t

/-- Flash bank `b` is idle, and the controller belongs to domain 0, in which Ottar writes (R18, R343). -/
def State.FlashGoes (s : State) (b : Nat) : Prop := s.flashBusy b = false ∧ s.owns 0 R.FL_OWNER = true

end Sys2Proof.Machine
end

