-- ==== Sys2Proof/Certificates/Slice0/Obligations.lean ====
section
/-!
DEFINITION. The statements for the provers. Each docstring names the rules of spec/ that the statement formalises.
-/
set_option linter.unusedVariables false
open Sys2Proof Sys2Proof.Machine

/-- The model's interface (log entry 2): a step takes the command at the front of the queue.
(95_what_each_step_holds.md) -/
def Obligations.StepRunsTheFrontCommand : Prop :=
  ∀ (c : Instr) (rest : List Instr) (s : State),
    s.pending = c :: rest → step s = exec c { s with pending := rest }

/-- The model's choice, log entry 2. On an empty queue: where commands are due, the step answers the state with them as
its queue, reports to the fault collector in ascending reporter number among them (R452), and nothing due, and every
other part as before; where none is due, the step answers the state after one tick of time.
(95_what_each_step_holds.md) -/
def Obligations.IdleStepMovesWhatIsDue : Prop :=
  ∀ s : State, s.pending = [] →
    (s.due ≠ [] → step s = .next { s with pending := servedOrder s.due, due := [] })
    ∧ (s.due = [] → step s = .next s.clockTick)

/-- At reset every store of the state, memory and the register file among them, has strictly rising keys and lists
nothing that equals what an unlisted key reads as; nothing waits in the queue and nothing is due.
(13_memories_flash_dma.md, 18_power_thermal_startup.md) -/
def Obligations.ResetIsCanonical : Prop :=
  State.reset.Canonical ∧ Memory.wf State.reset.mem = true ∧ Registers.wf State.reset.regs = true
    ∧ State.reset.pending = [] ∧ State.reset.due = []

/-- For every state whose stores (memory, registers, per-domain registers, stamps, every record store) are in canonical
form: if step answers a next state, its stores are in canonical form. (13_memories_flash_dma.md, 01_organisation.md) -/
def Obligations.StepKeepsCanonicalForm : Prop :=
  ∀ s t : State, s.Canonical → step s = .next t → t.Canonical

/-- The model's interface (log entry 2): a command changes everything but the queue. (95_what_each_step_holds.md) -/
def Obligations.ExecLeavesTheQueue : Prop :=
  ∀ (c : Instr) (s : State), ∃ t : State, exec c s = .next t ∧ t.pending = s.pending

/-- For every command and state: if exec answers a next state, its rollback counter is at least the one before; and for
a command other than FW_COMMIT, POWER_ON_RESET and BACKUP_ENTRY it is the same. (15_mailboxes_firmware.md) -/
def Obligations.RollbackNeverFalls : Prop :=
  ∀ (c : Instr) (s t : State), exec c s = .next t →
    s.mp.rollback ≤ t.mp.rollback
    ∧ ((∀ m v, c ≠ .fwCommit m v) → (∀ x b, c ≠ .powerOnReset x b) → c ≠ .backupEntry → t.mp.rollback = s.mp.rollback)

/-- R177: the system hold follows the SAFE_N ball. (07_timer_units.md) -/
def Obligations.SafeNOnlyByTheBall : Prop :=
  OnlyThese (fun s => s.safeN) (fun c =>
    c = .safeNAssert ∨ c = .safeNDeassert ∨ (∃ x b, c = .powerOnReset x b) ∨ c = .backupEntry)

/-- R46, R47: what changes the calendar. (02_timebase_calendar.md) -/
def Obligations.CalendarOnlyByItsOwnCommands : Prop :=
  OnlyThese (fun s => (s.clk.era, s.clk.seconds, s.clk.sub)) (fun c =>
    c = .calendarSecond ∨ c = .calendarLoad ∨ c = .vbakRise ∨ c = .oscStop ∨ (∃ x b, c = .powerOnReset x b)
      ∨ c = .backupEntry)

/-- R33, R36, R40: D is a signed offset that only a step changes. (02_timebase_calendar.md) -/
def Obligations.DeviceTimeOffsetOnlyBySteps : Prop :=
  OnlyThese (fun s => (s.clk.dOfs, s.clk.dIsland)) (fun c =>
    c = .deviceTimeStep ∨ (∃ n, c = .islandSync n) ∨ c = .ottarStartup ∨ (∃ b, c = .wakeComplete b)
      ∨ (∃ x b, c = .powerOnReset x b) ∨ c = .backupEntry)

/-- R406: what changes the unlock level. (15_mailboxes_firmware.md) -/
def Obligations.UnlockLevelOnlyByItsRequests : Prop :=
  OnlyThese (fun s => s.mp.unlock) (fun c =>
    (∃ m, c = .secUnlock m) ∨ (∃ m, c = .secLock m) ∨ (∃ x b, c = .powerOnReset x b) ∨ c = .backupEntry)

/-- R13, R446: what times out, retires and restores a link. (17_integrity_faults.md) -/
def Obligations.LinkRecordsOnlyByLinkEvents : Prop :=
  OnlyThese (fun s => s.links) (fun c =>
    (∃ l, c = .linkTimeout l) ∨ (∃ l p, c = .linkReset l p) ∨ (∃ x b, c = .powerOnReset x b) ∨ c = .backupEntry)

/-- For every state, address and byte: after the byte is written at the address, the address reads as that byte, and
every other address reads as before; the registers stand as before. (01_organisation.md, 13_memories_flash_dma.md) -/
def Obligations.MemoryByteReadsBack : Prop :=
  ∀ (s : State) (a b : Nat) (v : Byte),
    (s.setByte a v).byte b = (if b = a then v else s.byte b) ∧ (s.setByte a v).regs = s.regs

/-- R35, R37: how the rate and the discipline change. (02_timebase_calendar.md) -/
def Obligations.RateAndDisciplineCommands : Prop :=
  (∀ (m : Master) (v : Word) (s : State) (r : RegRow),
      s.Writes m .tb r R.TB_RATE →
      (s.discMode ≠ 2 ∨ s.domainOf m = 0) →
      ∃ t, exec (.tbRateWrite m v) s = .next t
        ∧ t.reg R.TB_RATE = v
        ∧ (s.discMode = 0 → t.clk = s.clk ∧ t.reg R.TB_STATUS = s.reg R.TB_STATUS)
        ∧ (s.discMode ≠ 0 →
            t.clk.rateGoal = clampI (-219902326) 219902326 (sInt v)
            ∧ t.clk.rateNow = (if serialGe s.clk.beat s.clk.rateNext = true then
                s.clk.rateNow + clampI (-rateStep) rateStep (t.clk.rateGoal - s.clk.rateNow) else s.clk.rateNow)
            ∧ t.clk = { s.clk with rateGoal := t.clk.rateGoal, rateNow := t.clk.rateNow, rateNext := t.clk.rateNext }
            ∧ (t.clk.rateGoal ≠ sInt v → t.rb R.TB_STATUS 6 = true)
            ∧ (t.clk.rateGoal = sInt v → t.reg R.TB_STATUS = s.reg R.TB_STATUS))
        ∧ RegsBut [R.TB_RATE, R.TB_STATUS] s t
        ∧ SameBut [.regs, .scCount, .clk, .reply] s t
        ∧ t.reply = some ⟨m, .done⟩)
  ∧ (∀ (s : State),
      exec .rateIncrement s = .next (if s.clk.rateNow ≠ s.clk.rateGoal ∧ serialGe s.clk.beat s.clk.rateNext = true then
          { s with clk := { s.clk with
            rateNow := s.clk.rateNow + clampI (-rateStep) rateStep (s.clk.rateGoal - s.clk.rateNow)
            rateNext := s.clk.beat + 25000#64 } }
        else s))
  ∧ (∀ (m : Master) (v : Word) (s : State) (r : RegRow),
      s.Writes m .tb r R.TB_DISC →
      ∃ t, exec (.tbDiscWrite m v) s = .next t
        ∧ t.rf R.TB_DISC 1 0 = fld v 1 0
        ∧ (fld v 1 0 = 0 → t.clk.rateGoal = 0)
        ∧ (s.discMode = 0 → t.discMode ≠ 0 → t.clk.rateGoal = clampI (-219902326) 219902326 (sInt (s.reg R.TB_RATE)))
        ∧ (s.discMode ≠ 2 → fld v 1 0 = 2 → t.rf R.TB_DISC 5 4 = 1)
        ∧ RegsBut [R.TB_DISC, R.TB_STATUS] s t
        ∧ SameBut [.regs, .scCount, .clk, .reply] s t
        ∧ t.reply = some ⟨m, .done⟩)
  ∧ (∀ (offset : BitVec 64) (rate : Word) (s : State),
      s.discMode = 2 →
      s.awake = true →
      ∃ t, exec (.asSyncMessage offset rate) s = .next t
        ∧ t.rf R.TB_DISC 5 4 ≠ 3
        ∧ (s.rf R.TB_DISC 5 4 = 1 ∨ s.rf R.TB_DISC 5 4 = 3 → 1000 < offset.toInt.natAbs → s.clk.step = none →
            t.clk.step = some (s.clk.beat + 2, (0#64 - offset) &&& ~~~ 3#64))
        ∧ ((s.rf R.TB_DISC 5 4 ≠ 1 ∧ s.rf R.TB_DISC 5 4 ≠ 3) ∨ offset.toInt.natAbs ≤ 1000 →
            t.reg R.TB_RATE = rate ∧ t.clk.rateGoal = clampI (-219902326) 219902326 (sInt rate))
        ∧ SameBut [.regs, .scCount, .clk] s t)
  ∧ (∀ (s : State),
      s.discMode = 2 →
      ∃ t, exec .servoHoldover s = .next t
        ∧ t.rf R.TB_DISC 5 4 = 3
        ∧ t.clk.rateNow = s.clk.rateNow
        ∧ t.clk.rateGoal = s.clk.rateGoal
        ∧ RegsBut [R.TB_DISC] s t
        ∧ SameBut [.regs, .clk] s t)

/-- R32, R36, R38, R40: steps of device time and the synchronisation of islands. (02_timebase_calendar.md) -/
def Obligations.DeviceTimeStepCommands : Prop :=
  (∀ (m : Master) (v : Word) (s : State) (r : RegRow),
      s.Writes m .tb r R.TB_STEP_HI →
      (s.discMode ≠ 2 ∨ s.domainOf m = 0) →
      ∃ t, exec (.tbStepHiWrite m v) s = .next t
        ∧ t.reg R.TB_STEP_HI = v
        ∧ t.clk.reqBeat.get (fun _ => 0#64) (s.domainOf m) = s.clk.beat
        ∧ (s.clk.step = none → t.clk.step = some (s.clk.beat + 2,
            BitVec.ofNat 64 (pair64 v (s.reg R.TB_STEP_LO &&& ~~~ 3#32))) ∧ t.reg R.TB_STATUS = s.reg R.TB_STATUS)
        ∧ (s.clk.step ≠ none → t.clk.step = s.clk.step ∧ t.rb R.TB_STATUS 0 = true)
        ∧ RegsBut [R.TB_STEP_HI, R.TB_STATUS] s t
        ∧ SameBut [.regs, .scCount, .clk, .reply] s t
        ∧ t.reply = some ⟨m, .done⟩)
  ∧ (∀ (n x : BitVec 64) (s : State),
      s.clk.step = some (n, x) →
      serialGe s.clk.beat n = true →
      ∃ t, exec .deviceTimeStep s = .next t
        ∧ t.clk.step = none
        ∧ t.clk.dOfs = s.clk.dOfs + x
        ∧ t.clk.beat = s.clk.beat
        ∧ (∀ k : Fin 16, t.dOf k.val = if s.synced k.val then s.clk.dOfs + x else s.dOf k.val)
        ∧ RegsBut [] s t
        ∧ SameBut [.clk] s t)
  ∧ (∀ (n : Fin 16) (s : State),
      s.phase n.val = .running →
      s.synced n.val = false →
      s.device ≠ .watch →
      s.device ≠ .backup →
      ∃ t, exec (.islandSync n) s = .next t
        ∧ t.synced n.val = true
        ∧ t.dOf n.val = s.clk.dOfs
        ∧ (∀ k : Fin 16, k ≠ n → t.dOf k.val = s.dOf k.val ∧ t.synced k.val = s.synced k.val)
        ∧ t.clk.dOfs = s.clk.dOfs
        ∧ t.clk.syncAt.get (fun _ => 0#64) n.val = s.clk.beat
        ∧ t.rf (R.IC_STATE n.val) 31 30 = 3
        ∧ t.mem = s.mem)
  ∧ (∀ (n : Fin 16) (s : State),
      s.synced n.val = true →
      ∃ t, exec (.syncLost n) s = .next t
        ∧ t.synced n.val = false
        ∧ (∀ k : Fin 16, k ≠ n → t.synced k.val = s.synced k.val)
        ∧ t.rb (R.IC_STATE n.val) 30 = false
        ∧ t.rb R.TB_STATUS 7 = true
        ∧ t.due.getLast? = some (.faultReport (Fin.ofNat 8192 (0xC0 + n.val)) (Fin.ofNat 8192 (0xC0 + n.val)) 0x16#8 0#32)
        ∧ Fires (4096 + 323) s t
        ∧ RegsBut [R.TB_ISLAND_SYNC, R.IC_STATE n.val, R.TB_STATUS] s t
        ∧ SameBut [.regs, .scCount, .ep, .eqs, .due, .pulses] s t)

/-- R38, R41, R43: requests for a global start. (02_timebase_calendar.md) -/
def Obligations.GlobalStartRequests : Prop :=
  (∀ (m : Master) (v : Word) (s : State) (r : RegRow),
      s.Writes m .tb r R.TB_START_GO →
      s.clk.start = none →
      ∃ t, exec (.tbStartGo m v) s = .next t
        ∧ t.clk.start = some ⟨s.clk.beat + 2, s.reg R.TB_START_MASK0, s.reg R.TB_START_MASK1, false⟩
        ∧ t.rf R.TB_START_STATE 31 30 = 2
        ∧ t.clk.reqBeat.get (fun _ => 0#64) (s.domainOf m) = s.clk.beat
        ∧ RegsBut [R.TB_START_STATE] s t
        ∧ SameBut [.regs, .clk, .reply] s t
        ∧ t.reply = some ⟨m, .done⟩)
  ∧ (∀ (m : Master) (v : Word) (s : State) (r : RegRow),
      s.Writes m .tb r R.TB_START_GO →
      s.clk.start ≠ none →
      ∃ t, exec (.tbStartGo m v) s = .next t
        ∧ t.clk.start = s.clk.start
        ∧ t.rb R.TB_STATUS 3 = true
        ∧ RegsBut [R.TB_STATUS] s t
        ∧ SameBut [.regs, .scCount, .clk, .reply] s t
        ∧ t.reply = some ⟨m, .done⟩)
  ∧ (∀ (m : Master) (v : Word) (n : BitVec 64) (s : State) (r : RegRow),
      s.Writes m .tb r R.TB_START_AT_HI →
      s.clk.start = none →
      n = BitVec.ofNat 64 (pair64 v (s.reg R.TB_START_AT_LO)) →
      ∃ t, exec (.tbStartAtHiWrite m v) s = .next t
        ∧ t.reg R.TB_START_AT_HI = v
        ∧ (s.isLate n = false → t.clk.start = some ⟨n, s.reg R.TB_START_MASK0, s.reg R.TB_START_MASK1, false⟩)
        ∧ (s.isLate n = true → s.rb R.TB_POLICY 0 = false →
            t.clk.start = some ⟨n, s.reg R.TB_START_MASK0, s.reg R.TB_START_MASK1, true⟩ ∧ t.rb R.TB_STATUS 1 = true)
        ∧ (s.isLate n = true → s.rb R.TB_POLICY 0 = true →
            t.clk.start = some ⟨s.clk.beat + 2, s.reg R.TB_START_MASK0, s.reg R.TB_START_MASK1, false⟩
            ∧ t.rb R.TB_STATUS 2 = true)
        ∧ t.rf R.TB_START_STATE 31 30 = 2
        ∧ RegsBut [R.TB_START_AT_HI, R.TB_START_STATE, R.TB_STATUS] s t
        ∧ SameBut [.regs, .scCount, .clk, .reply] s t
        ∧ t.reply = some ⟨m, .done⟩)
  ∧ (∀ (m : Master) (v : Word) (s : State) (r : RegRow),
      s.Writes m .tb r R.TB_START_AT_HI →
      s.clk.start ≠ none →
      ∃ t, exec (.tbStartAtHiWrite m v) s = .next t
        ∧ t.reg R.TB_START_AT_HI = v
        ∧ t.clk.start = s.clk.start
        ∧ t.rb R.TB_STATUS 3 = true
        ∧ RegsBut [R.TB_START_AT_HI, R.TB_STATUS] s t
        ∧ SameBut [.regs, .scCount, .clk, .reply] s t
        ∧ t.reply = some ⟨m, .done⟩)
  ∧ (∀ (m : Master) (v : Word) (q : StartReq) (s : State) (r : RegRow),
      s.Writes m .tb r R.TB_START_CANCEL →
      s.clk.start = some q →
      (q.rejected = true ∨ serialGe q.beat (s.clk.beat + 2) = true) →
      ∃ t, exec (.tbStartCancel m v) s = .next t
        ∧ t.clk.start = none
        ∧ t.rb R.TB_START_STATE 31 = false
        ∧ RegsBut [R.TB_START_STATE] s t
        ∧ SameBut [.regs, .clk, .reply] s t
        ∧ t.reply = some ⟨m, .done⟩)
  ∧ (∀ (m : Master) (v : Word) (q : StartReq) (s : State) (r : RegRow),
      s.Writes m .tb r R.TB_START_CANCEL →
      s.clk.start = some q →
      q.rejected = false →
      serialGe q.beat (s.clk.beat + 2) = false →
      ∃ t, exec (.tbStartCancel m v) s = .next t
        ∧ t.clk.start = s.clk.start
        ∧ t.rb R.TB_STATUS 4 = true
        ∧ RegsBut [R.TB_STATUS] s t
        ∧ SameBut [.regs, .scCount, .clk, .reply] s t
        ∧ t.reply = some ⟨m, .done⟩)
  ∧ (∀ (m : Master) (v : Word) (s : State) (r : RegRow),
      s.Writes m .tb r R.TB_START_CANCEL →
      s.clk.start = none →
      ∃ t, exec (.tbStartCancel m v) s = .next t
        ∧ t.clk.start = none
        ∧ RegsBut [] s t
        ∧ SameBut [.clk, .reply] s t
        ∧ t.reply = some ⟨m, .done⟩)

/-- R46, R47, R49, R51, R52: the calendar and its alarms. (02_timebase_calendar.md) -/
def Obligations.CalendarCommands : Prop :=
  (∀ (m : Master) (v : Word) (s : State) (r : RegRow),
      s.Writes m .tb r R.CAL_SET_HI →
      ∃ t, exec (.calSetHiWrite m v) s = .next t
        ∧ t.reg R.CAL_SET_HI = v &&& 0x00FF7FFF#32
        ∧ t.clk.loadIn = some 2
        ∧ t.clk.seconds = s.clk.seconds
        ∧ RegsBut [R.CAL_SET_HI] s t
        ∧ SameBut [.regs, .clk, .reply] s t
        ∧ t.reply = some ⟨m, .done⟩)
  ∧ (∀ (s : State),
      s.clk.loadIn = some 0 →
      ∃ t, exec .calendarLoad s = .next t
        ∧ t.clk.seconds = (s.reg R.CAL_SET_LO).toNat
        ∧ t.clk.era = s.rf R.CAL_SET_HI 23 16
        ∧ t.clk.sub = s.rf R.CAL_SET_HI 14 0
        ∧ t.clk.loadIn = none
        ∧ t.rb R.CAL_VALID 0 = true
        ∧ (∀ a : Fin 4, t.reg (R.CAL_ALARMa_SEC a.val) =
            if s.rb (R.CAL_ALARMa_CTRL a.val) 31 = true ∧ s.reg (R.CAL_ALARMa_INTERVAL a.val) ≠ 0#32
                ∧ s.clk.lateAlarms.contains a = false ∧ serialAfter 47 t.calNow (s.alarmValue a.val) = true then
              w32 ((s.reg (R.CAL_ALARMa_SEC a.val)).toNat
                + alarmSkips (s.reg (R.CAL_ALARMa_SEC a.val)).toNat (s.rf (R.CAL_ALARMa_CTRL a.val) 14 0)
                    (s.reg (R.CAL_ALARMa_INTERVAL a.val)).toNat t.calNow * (s.reg (R.CAL_ALARMa_INTERVAL a.val)).toNat)
            else s.reg (R.CAL_ALARMa_SEC a.val))
        ∧ ((∃ a : Fin 4, t.reg (R.CAL_ALARMa_SEC a.val) ≠ s.reg (R.CAL_ALARMa_SEC a.val)) → t.rb R.CAL_STATUS 7 = true)
        ∧ RegsBut ([R.CAL_VALID, R.CAL_STATUS] ++ [0, 1, 2, 3].map R.CAL_ALARMa_SEC) s t
        ∧ SameBut [.regs, .scCount, .clk, .due] s t)
  ∧ (∀ (s : State),
      ∃ t, exec .vbakRise s = .next t
        ∧ t.clk.seconds = 0
        ∧ t.clk.era = 0
        ∧ t.clk.sub = 0
        ∧ t.rb R.CAL_VALID 0 = false
        ∧ t.rb R.CAL_STATUS 8 = true
        ∧ t.clk.loadIn = none
        ∧ (∀ a : Nat, vbakReg a = false → t.reg a = s.reg a)
        ∧ SameBut [.regs, .scCount, .domRegs, .clk, .ecc] s t)
  ∧ (∀ (s : State),
      ∃ t, exec .oscStop s = .next t
        ∧ t.clk.seconds = 0
        ∧ t.clk.era = 0
        ∧ t.clk.sub = 0
        ∧ t.clk.loadIn = none
        ∧ t.rb R.CAL_VALID 0 = false
        ∧ t.rb R.CAL_STATUS 9 = true
        ∧ RegsBut [R.CAL_VALID, R.CAL_STATUS] s t
        ∧ SameBut [.regs, .scCount, .clk] s t)
  ∧ (∀ (s : State),
      s.clk.sub = 32767 →
      ∃ t, exec .calendarSecond s = .next t
        ∧ t.clk.sub = 0
        ∧ t.clk.seconds = (s.clk.seconds + 1) % 2 ^ 32
        ∧ (t.clk.era = if (s.clk.seconds + 1) % 2 ^ 32 = 0 then (s.clk.era + 1) % 256 else s.clk.era)
        ∧ (s.awake = true → t.reg R.CAL_PAIR_SEC = w32 t.clk.seconds ∧ t.reg R.CAL_PAIR_DT_LO = lo64 s.devTime.toNat
            ∧ t.reg R.CAL_PAIR_DT_HI = hi64 s.devTime.toNat)
        ∧ (s.device = .watch ∨ s.device = .backup ∨ (s.device = .waking ∧ s.pow.slept = true) → RegsBut [] s t)
        ∧ (s.device ≠ .backup → Fires (4096 + 328) s t)
        ∧ RegsBut [R.CAL_PAIR_SEC, R.CAL_PAIR_DT_LO, R.CAL_PAIR_DT_HI] s t
        ∧ SameBut [.regs, .clk, .due, .pulses] s t)
  ∧ (∀ (m : Master) (a : Fin 4) (v : Word) (s : State) (r : RegRow),
      s.Writes m .tb r (R.CAL_ALARMa_CTRL a.val) →
      ∃ t, exec (.alarmArm m a v) s = .next t
        ∧ t.rf (R.CAL_ALARMa_CTRL a.val) 14 0 = fld v 14 0
        ∧ (bit v 31 = false → t.rb (R.CAL_ALARMa_CTRL a.val) 31 = false ∧ t.reg R.CAL_STATUS = s.reg R.CAL_STATUS)
        ∧ (bit v 31 = true → serialAfter 47 ((s.reg (R.CAL_ALARMa_SEC a.val)).toNat * 32768 + fld v 14 0) s.calNow = true →
            t.rb (R.CAL_ALARMa_CTRL a.val) 31 = true ∧ t.reg R.CAL_STATUS = s.reg R.CAL_STATUS)
        ∧ (bit v 31 = true → serialAfter 47 ((s.reg (R.CAL_ALARMa_SEC a.val)).toNat * 32768 + fld v 14 0) s.calNow = false → bit v 30 = false →
            t.rb (R.CAL_ALARMa_CTRL a.val) 31 = false ∧ t.rb R.CAL_STATUS 5 = true)
        ∧ (bit v 31 = true → serialAfter 47 ((s.reg (R.CAL_ALARMa_SEC a.val)).toNat * 32768 + fld v 14 0) s.calNow = false → bit v 30 = true →
            t.rb (R.CAL_ALARMa_CTRL a.val) 31 = true ∧ t.rb R.CAL_STATUS 6 = true ∧ t.clk.lateAlarms.contains a = true)
        ∧ RegsBut [R.CAL_ALARMa_CTRL a.val, R.CAL_STATUS] s t
        ∧ SameBut [.regs, .scCount, .clk, .reply] s t
        ∧ t.reply = some ⟨m, .done⟩)
  ∧ (∀ (a : Fin 4) (s : State),
      s.alarmDue a = true →
      ∃ t, exec (.alarmFire a) s = .next t
        ∧ t.rb R.CAL_STATUS a.val = true
        ∧ (s.reg (R.CAL_ALARMa_INTERVAL a.val) = 0#32 →
            t.rb (R.CAL_ALARMa_CTRL a.val) 31 = false ∧ t.reg (R.CAL_ALARMa_SEC a.val) = s.reg (R.CAL_ALARMa_SEC a.val))
        ∧ (s.reg (R.CAL_ALARMa_INTERVAL a.val) ≠ 0#32 →
            t.rb (R.CAL_ALARMa_CTRL a.val) 31 = true ∧ t.reg (R.CAL_ALARMa_SEC a.val) = w32 ((s.reg (R.CAL_ALARMa_SEC a.val)).toNat
              + alarmSkips (s.reg (R.CAL_ALARMa_SEC a.val)).toNat (s.rf (R.CAL_ALARMa_CTRL a.val) 14 0)
                  (s.reg (R.CAL_ALARMa_INTERVAL a.val)).toNat s.calNow * (s.reg (R.CAL_ALARMa_INTERVAL a.val)).toNat))
        ∧ (s.rb (R.CAL_ALARMa_CTRL a.val) 28 = true → s.device ≠ .backup → Fires (4096 + 324 + a.val) s t)
        ∧ RegsBut [R.CAL_STATUS, R.CAL_ALARMa_CTRL a.val, R.CAL_ALARMa_SEC a.val] s t
        ∧ SameBut [.regs, .scCount, .clk, .due, .pulses] s t)

/-- LEAP_OFFSET_CHANGE, where CAL_LEAP_AT is not zero and SECONDS has reached it: OFFSET takes the value of NEXT, NEXT
stands as before, CAL_LEAP_AT becomes 0, and nothing else changes; where SECONDS has not reached it the state stays
as it is. (R48) -/
def Obligations.LeapOffsetTakesNext : Prop :=
  (∀ (s : State),
      s.reg R.CAL_LEAP_AT ≠ 0#32 →
      (s.reg R.CAL_LEAP_AT).toNat = s.clk.seconds →
      ∃ t, exec .leapOffsetChange s = .next t
        ∧ t.rf R.CAL_UTC_OFFSET 15 0 = s.rf R.CAL_UTC_OFFSET 31 16
        ∧ t.rf R.CAL_UTC_OFFSET 31 16 = s.rf R.CAL_UTC_OFFSET 31 16
        ∧ t.reg R.CAL_LEAP_AT = 0#32
        ∧ RegsBut [R.CAL_UTC_OFFSET, R.CAL_LEAP_AT] s t
        ∧ SameBut [.regs] s t)
  ∧ (∀ (s : State),
      (s.reg R.CAL_LEAP_AT = 0#32 ∨ (s.reg R.CAL_LEAP_AT).toNat ≠ s.clk.seconds) →
      exec .leapOffsetChange s = .next (s))

/-- R4, R5, R18, R24, R25, R27, R28: accesses. (01_organisation.md) -/
def Obligations.MemoryAndRegisterAccesses : Prop :=
  (∀ (m : Master) (a v : Word) (s : State),
      s.acts m = true →
      0x20000000 ≤ a.toNat →
      a.toNat < 0x21000000 →
      a.toNat % 4 = 0 →
      reaches m a.toNat = true →
      s.pathTo a.toNat = .good →
      ∃ t, exec (.registerWrite m a .word v) s = .next t
        ∧ t.mword a.toNat = v
        ∧ BytesBut a.toNat 4 s t
        ∧ t.reply = some ⟨m, .done⟩
        ∧ RegsBut [] s t
        ∧ SameBut [.mem, .ecc, .reply, .cores, .freeCtr] s t)
  ∧ (∀ (m : Master) (a v : Word) (s : State),
      s.acts m = true →
      0x20000000 ≤ a.toNat →
      a.toNat < 0x21000000 →
      s.eccBad a.toNat = false →
      reaches m a.toNat = true →
      s.pathTo a.toNat = .good →
      ∃ t, exec (.registerWrite m a .byte v) s = .next t
        ∧ t.byte a.toNat = v.truncate 8
        ∧ BytesBut a.toNat 1 s t
        ∧ t.reply = some ⟨m, .done⟩
        ∧ (s.eccMark a.toNat = .good → RegsBut [] s t ∧ SameBut [.mem, .reply, .cores, .freeCtr] s t)
        ∧ RegsBut [R.ME_COUNTS, R.ME_LAST_ADDR, R.ME_LAST_INFO, R.ME_STATUS] s t
        ∧ SameBut [.mem, .ecc, .macros, .regs, .scCount, .due, .reply, .cores, .freeCtr] s t)
  ∧ (∀ (m : Master) (a : Word) (size : AccSize) (v : Word) (s : State),
      s.acts m = true →
      reaches m a.toNat = false →
      s.pathTo a.toNat = .good →
      (m = .mp ∨ m = .net ∨ m = .debug) →
      ∃ t, exec (.registerWrite m a size v) s = .next t
        ∧ t.reply = some ⟨m, .error .unreachable⟩
        ∧ RegsBut [] s t
        ∧ SameBut [.reply] s t)
  ∧ (∀ (m : Master) (a v : Word) (b : Blk) (r : RegRow) (s : State),
      s.acts m = true →
      s.place m a.toNat = some (.register b r a.toNat) →
      s.pathTo a.toNat = .good →
      s.islandGone m a.toNat = false →
      s.mayWriteReg (s.domainOf m) b r a.toNat = true →
      a.toNat % 4 = 0 →
      r.access = .sc →
      s.blockTakes b = true →
      ∃ t, exec (.scStatusWrite m a v) s = .next t
        ∧ (fld v 31 24 = s.rf a.toNat 31 24 → t.reg a.toNat = s.reg a.toNat &&& maskW 31 24 ∧ t.scCount.get (fun _ => 0) a.toNat = 0)
        ∧ (fld v 31 24 ≠ s.rf a.toNat 31 24 → t.reg a.toNat = s.reg a.toNat)
        ∧ t.reply = some ⟨m, .done⟩
        ∧ RegsBut [a.toNat] s t
        ∧ SameBut [.regs, .scCount, .reply] s t)
  ∧ (∀ (m : Master) (a : Word) (b : Blk) (r : RegRow) (s : State),
      s.acts m = true →
      s.place m a.toNat = some (.register b r a.toNat) →
      s.pathTo a.toNat = .good →
      s.islandGone m a.toNat = false →
      s.mayReadReg (s.domainOf m) b a.toNat = true →
      a.toNat % 4 = 0 →
      r.access = .ll →
      portOf a.toNat = none →
      ∃ t, exec (.llRead m a) s = .next t
        ∧ t.reply = some ⟨m, .data (s.live b a.toNat (s.domainOf m))⟩
        ∧ (∀ x ∈ shadowsOf a.toNat, t.domReg x (s.domainOf m) = s.live b x (s.domainOf m))
        ∧ (b = .tb → SameBut [.domRegs, .reply] s t))
  ∧ (∀ (m : Master) (f : Fin 1024) (v mask new : Word) (fits : Bool) (s : State) (r : RegRow),
      s.Writes m .sys r (R.XM_FRAME_CFGf f.val) →
      mask = (if s.domainOf m = 0 then 0xFFF03FFF#32 else 0x83F03FFF#32) →
      new = (s.reg (R.XM_FRAME_CFGf f.val) &&& ~~~ mask) ||| (v &&& mask) →
      fits = (decide (fld new 13 0 + fld new 25 20 ≤ 16383) && !(bit new 31 && s.xmFrames.any (fun k => k != f.val
        && runsMeet (fld new 13 0) (fld new 13 0 + fld new 25 20) (s.xmBase k) (s.xmLast k)))) →
      ∃ t, exec (.xmFrameCfgWrite m f v) s = .next t
        ∧ (fits = true →
            t.reg (R.XM_FRAME_CFGf f.val) = new ∧ t.reg (R.XM_FRAME_GENf f.val) = 0#32 ∧ t.reg R.XM_STATUS = s.reg R.XM_STATUS)
        ∧ (fits = false →
            t.rb R.XM_STATUS 0 = true ∧ t.reg (R.XM_FRAME_CFGf f.val) = s.reg (R.XM_FRAME_CFGf f.val)
            ∧ t.reg (R.XM_FRAME_GENf f.val) = s.reg (R.XM_FRAME_GENf f.val))
        ∧ RegsBut [R.XM_FRAME_CFGf f.val, R.XM_FRAME_GENf f.val, R.XM_STATUS] s t
        ∧ SameBut [.regs, .scCount, .xmNow, .reply] s t
        ∧ t.reply = some ⟨m, .done⟩)

/-- R56, R57, R58, R72, R73: staging and direct writes. (03_epochs_snapshots.md) -/
def Obligations.StagingAndDirectWrites : Prop :=
  (∀ (m : Master) (a v : Word) (x i : Nat) (s : State),
      s.acts m = true →
      s.place m a.toNat = some (.staging x) →
      s.pathTo a.toNat = .good →
      s.islandGone m a.toNat = false →
      a.toNat % 4 = 0 →
      s.mayStage (s.domainOf m) x = true →
      s.stagingDrops x = false →
      s.openSlot (s.domainOf m) = some i →
      isEB x = true →
      ∃ t, exec (.stagingWrite m a v) s = .next t
        ∧ (s.entryAt x = none → t.ep.entries = s.ep.entries ++ [⟨i, x, s.merge x v, false⟩])
        ∧ (∀ e ∈ s.entryAt x, e.slot = i → t.shadow x = s.merge x v ∧ t.ep.entries.length = s.ep.entries.length)
        ∧ (∀ e ∈ s.entryAt x, e.slot ≠ i → t.ep = s.ep ∧ t.rb R.EP_STATUS 0 = true ∧ t.reg R.EP_CONFLICT_ADDR = a
            ∧ t.rf R.EP_CONFLICT_INFO 15 0 = s.slotId e.slot)
        ∧ t.mem = s.mem
        ∧ t.reply = some ⟨m, .done⟩
        ∧ RegsBut [R.EP_STATUS, R.EP_SLOTs_ENTRIES i, R.EP_CONFLICT_ADDR, R.EP_CONFLICT_INFO] s t
        ∧ SameBut [.regs, .scCount, .ep, .reply] s t)
  ∧ (∀ (m : Master) (a v : Word) (x : Nat) (s : State),
      s.acts m = true →
      s.place m a.toNat = some (.staging x) →
      s.pathTo a.toNat = .good →
      s.islandGone m a.toNat = false →
      a.toNat % 4 = 0 →
      s.mayStage (s.domainOf m) x = true →
      s.stagingDrops x = false →
      s.openSlot (s.domainOf m) = none →
      ∃ t, exec (.stagingWrite m a v) s = .next t
        ∧ t.ep = s.ep
        ∧ t.rb R.EP_STATUS 7 = true
        ∧ t.reg R.EP_ERROR_ADDR = a
        ∧ t.reply = some ⟨m, .done⟩
        ∧ RegsBut [R.EP_STATUS, R.EP_ERROR_ADDR] s t
        ∧ SameBut [.regs, .scCount, .reply] s t)
  ∧ (∀ (m : Master) (a v : Word) (b : Blk) (r : RegRow) (s : State),
      s.acts m = true →
      s.place m a.toNat = some (.register b r a.toNat) →
      s.pathTo a.toNat = .good →
      s.islandGone m a.toNat = false →
      s.mayWriteReg (s.domainOf m) b r a.toNat = true →
      a.toNat % 4 = 0 →
      r.access = .eb →
      s.blockTakes b = true →
      s.ebRuns b a.toNat = false →
      s.entryAt a.toNat = none →
      ∃ t, exec (.ebDirectWrite m a v) s = .next t
        ∧ t.active a.toNat = s.merge a.toNat v
        ∧ t.ep = s.ep
        ∧ t.reply = some ⟨m, .done⟩)
  ∧ (∀ (m : Master) (a v : Word) (b : Blk) (r : RegRow) (s : State),
      s.acts m = true →
      s.place m a.toNat = some (.register b r a.toNat) →
      s.pathTo a.toNat = .good →
      s.islandGone m a.toNat = false →
      s.mayWriteReg (s.domainOf m) b r a.toNat = true →
      a.toNat % 4 = 0 →
      r.access = .eb →
      s.blockTakes b = true →
      (s.ebRuns b a.toNat = true ∨ s.entryAt a.toNat ≠ none) →
      ∃ t, exec (.ebDirectWrite m a v) s = .next t
        ∧ t.active a.toNat = s.active a.toNat
        ∧ t.ep = s.ep
        ∧ t.mem = s.mem
        ∧ t.reply = some ⟨m, .done⟩)

/-- R60, R61, R62, R63, R67, R71: requests to the epoch controller. (03_epochs_snapshots.md) -/
def Obligations.EpochRequests : Prop :=
  (∀ (m : Master) (i : Nat) (s : State) (r : RegRow),
      s.Reads m .ep r R.EP_OPEN →
      s.openSlot (s.domainOf m) = none →
      (List.range 4).find? (fun k => s.slotState k == 0) = some i →
      1 ≤ s.ep.nextId →
      s.ep.nextId ≤ 65535 →
      s.domainOf m < 16 →
      ∃ t, exec (.epOpenRead m) s = .next t
        ∧ t.reply = some ⟨m, .data (w32 (2 ^ 31 + i * 2 ^ 16 + s.freshId))⟩
        ∧ t.slotState i = 1
        ∧ t.slotOpener i = s.domainOf m
        ∧ t.slotId i = s.freshId
        ∧ t.reg (R.EP_SLOTs_ENTRIES i) = 0#32
        ∧ RegsBut [R.EP_SLOTs_STATE i, R.EP_SLOTs_RESULT i, R.EP_SLOTs_ENTRIES i] s t
        ∧ SameBut [.regs, .ep, .reply] s t)
  ∧ (∀ (m : Master) (s : State) (r : RegRow),
      s.Reads m .ep r R.EP_OPEN →
      (s.openSlot (s.domainOf m)).isSome = true →
      ∃ t, exec (.epOpenRead m) s = .next t
        ∧ t.reply = some ⟨m, .data 0#32⟩
        ∧ t.rb R.EP_STATUS 5 = true
        ∧ RegsBut [R.EP_STATUS] s t
        ∧ SameBut [.regs, .scCount, .reply] s t)
  ∧ (∀ (m : Master) (s : State) (r : RegRow),
      s.Reads m .ep r R.EP_OPEN →
      s.openSlot (s.domainOf m) = none →
      (List.range 4).all (fun k => s.slotState k != 0) = true →
      ∃ t, exec (.epOpenRead m) s = .next t
        ∧ t.reply = some ⟨m, .data 0#32⟩
        ∧ t.rb R.EP_STATUS 4 = true
        ∧ RegsBut [R.EP_STATUS] s t
        ∧ SameBut [.regs, .scCount, .reply] s t)
  ∧ (∀ (m : Master) (v : Word) (i : Nat) (s : State) (r : RegRow),
      s.Writes m .ep r R.EP_STAGE →
      s.slotOfId (fld v 15 0) = some i →
      s.slotOpener i = s.domainOf m →
      ∃ t, exec (.epStageWrite m v) s = .next t
        ∧ (t.slotState i = if s.slotState i = 1 then 2 else s.slotState i)
        ∧ t.slotId i = s.slotId i
        ∧ t.slotOpener i = s.slotOpener i
        ∧ RegsBut [R.EP_SLOTs_STATE i] s t
        ∧ SameBut [.regs, .reply] s t
        ∧ t.reply = some ⟨m, .done⟩)
  ∧ (∀ (m : Master) (slot : Fin 4) (v : Word) (n : BitVec 64) (s : State) (r : RegRow),
      s.Writes m .ep r (R.EP_SLOTs_AT_HI slot.val) →
      s.slotState slot.val = 2 →
      s.slotOpener slot.val = s.domainOf m →
      n = BitVec.ofNat 64 (pair64 v (s.reg (R.EP_SLOTs_AT_LO slot.val))) →
      ∃ t, exec (.epSlotAtHiWrite m slot v) s = .next t
        ∧ (s.isLate n = false → t.slotState slot.val = 3 ∧ t.ep.armedAt.get (fun _ => 0#64) slot.val = n ∧ t.reg R.EP_STATUS = s.reg R.EP_STATUS)
        ∧ (s.isLate n = true → bit (s.domReg R.EP_POLICY (s.domainOf m)) 0 = false →
            t.slotState slot.val = 2 ∧ t.rb R.EP_STATUS 1 = true ∧ t.rb (R.EP_SLOTs_RESULT slot.val) 1 = true ∧ t.ep = s.ep)
        ∧ (s.isLate n = true → bit (s.domReg R.EP_POLICY (s.domainOf m)) 0 = true →
            t.slotState slot.val = 3 ∧ t.ep.armedAt.get (fun _ => 0#64) slot.val = s.clk.beat + 2
            ∧ t.rb R.EP_STATUS 2 = true ∧ t.rb (R.EP_SLOTs_RESULT slot.val) 2 = true)
        ∧ t.ep.entries = s.ep.entries
        ∧ t.clk.reqBeat.get (fun _ => 0#64) (s.domainOf m) = s.clk.beat
        ∧ RegsBut [R.EP_SLOTs_AT_HI slot.val, R.EP_SLOTs_STATE slot.val, R.EP_SLOTs_RESULT slot.val, R.EP_STATUS] s t
        ∧ SameBut [.regs, .scCount, .clk, .ep, .reply] s t
        ∧ t.reply = some ⟨m, .done⟩)
  ∧ (∀ (m : Master) (v : Word) (i : Nat) (s : State) (r : RegRow),
      s.Writes m .ep r R.EP_HAUL_GO →
      s.slotOfId (fld v 15 0) = some i →
      s.slotOpener i = s.domainOf m →
      s.slotState i = 2 →
      ∃ t, exec (.epHaulGoWrite m v) s = .next t
        ∧ t.slotState i = 3
        ∧ t.ep.armedAt.get (fun _ => 0#64) i = s.clk.beat + 2
        ∧ t.ep.entries = s.ep.entries
        ∧ RegsBut [R.EP_SLOTs_STATE i] s t
        ∧ SameBut [.regs, .clk, .ep, .reply] s t
        ∧ t.reply = some ⟨m, .done⟩)
  ∧ (∀ (m : Master) (v : Word) (i : Nat) (s : State) (r : RegRow),
      s.Writes m .ep r R.EP_HAUL_GO →
      s.slotOfId (fld v 15 0) = some i →
      s.slotOpener i = s.domainOf m →
      s.slotState i = 1 →
      ∃ t, exec (.epHaulGoWrite m v) s = .next t
        ∧ t.ep = s.ep
        ∧ t.rb R.EP_STATUS 8 = true
        ∧ RegsBut [R.EP_STATUS] s t
        ∧ t.reply = some ⟨m, .done⟩)
  ∧ (∀ (m : Master) (v : Word) (i : Nat) (s : State) (r : RegRow),
      s.Writes m .ep r R.EP_HAUL_GO →
      s.slotOfId (fld v 15 0) = some i →
      s.slotOpener i = s.domainOf m →
      3 ≤ s.slotState i →
      ∃ t, exec (.epHaulGoWrite m v) s = .next t
        ∧ t.ep = s.ep
        ∧ t.rb R.EP_STATUS 9 = true
        ∧ RegsBut [R.EP_STATUS] s t
        ∧ t.reply = some ⟨m, .done⟩)
  ∧ (∀ (m : Master) (v : Word) (i : Nat) (s : State) (r : RegRow),
      s.Writes m .ep r R.EP_ABANDON →
      s.slotOfId (fld v 15 0) = some i →
      s.slotOpener i = s.domainOf m →
      (s.slotState i = 1 ∨ s.slotState i = 2 ∨ (s.slotState i = 3 ∧ serialGe (s.ep.armedAt.get (fun _ => 0#64) i) (s.clk.beat + 2) = true)) →
      ∃ t, exec (.epAbandonWrite m v) s = .next t
        ∧ t.slotState i = 5
        ∧ t.ep = s.ep
        ∧ RegsBut [R.EP_SLOTs_STATE i] s t
        ∧ SameBut [.regs, .clk, .reply] s t
        ∧ t.reply = some ⟨m, .done⟩)
  ∧ (∀ (m : Master) (v : Word) (i : Nat) (s : State) (r : RegRow),
      s.Writes m .ep r R.EP_ABANDON →
      s.slotOfId (fld v 15 0) = some i →
      s.slotOpener i = s.domainOf m →
      (s.slotState i = 4 ∨ (s.slotState i = 3 ∧ serialGe (s.ep.armedAt.get (fun _ => 0#64) i) (s.clk.beat + 2) = false)) →
      ∃ t, exec (.epAbandonWrite m v) s = .next t
        ∧ t.slotState i = s.slotState i
        ∧ t.ep = s.ep
        ∧ t.rb R.EP_STATUS 10 = true
        ∧ RegsBut [R.EP_STATUS] s t
        ∧ t.reply = some ⟨m, .done⟩)
  ∧ (∀ (slot : Fin 4) (s : State),
      s.slotState slot.val = 5 →
      ∃ t, exec (.abandonComplete slot) s = .next t
        ∧ t.reg (R.EP_SLOTs_STATE slot.val) = 0#32
        ∧ t.rb (R.EP_SLOTs_RESULT slot.val) 6 = true
        ∧ t.ep.entries = s.ep.entries.filter (fun e => e.slot != slot.val)
        ∧ RegsBut [R.EP_SLOTs_STATE slot.val, R.EP_SLOTs_RESULT slot.val] s t
        ∧ SameBut [.regs, .ep] s t)

/-- R64, R66, R68, R75 to R79: haul-downs and snapshots. (03_epochs_snapshots.md) -/
def Obligations.HaulDownsAndSnapshots : Prop :=
  (∀ (slot : Fin 4) (s : State),
      s.slotState slot.val = 3 →
      serialGe s.clk.beat (s.ep.armedAt.get (fun _ => 0#64) slot.val) = true →
      ∃ t, exec (.haulDown slot) s = .next t
        ∧ t.ep.entries.all (fun e => !(e.slot == slot.val && !e.due && s.placeTakesPart e.addr)) = true
        ∧ (t.slotState slot.val = 4 ∨ t.slotState slot.val = 0)
        ∧ (t.ep.entries.any (fun e => e.slot == slot.val) = false → t.slotState slot.val = 0 ∧ t.rb (R.EP_SLOTs_RESULT slot.val) 0 = true))
  ∧ (∀ (n : Fin 16) (s : State),
      s.synced n.val = true →
      s.ep.unsync.any (fun u => u.1 == n.val && serialGe s.clk.beat u.2) = true →
      ∃ t, exec (.unsyncApply n) s = .next t
        ∧ t.ep.entries.all (fun e => !(s.slotState e.slot == 4 && !e.due && islandOf e.addr == some n.val)) = true
        ∧ t.ep.unsync.any (fun u => u.1 == n.val) = false)
  ∧ (∀ (m : Master) (v : Word) (s : State) (r : RegRow),
      s.Writes m .ep r R.SN_COUNT →
      (s.rb R.SN_STATE 31 || s.rb R.SN_STATE 30) = false →
      fld v 13 0 ≤ 8192 →
      ∃ t, exec (.snCountWrite m v) s = .next t
        ∧ t.reg R.SN_COUNT = w32 (fld v 13 0)
        ∧ t.rb R.SN_STATE 28 = false
        ∧ t.snap.list = []
        ∧ t.snap.closed = false
        ∧ RegsBut [R.SN_COUNT, R.SN_STATE] s t
        ∧ SameBut [.regs, .snap, .reply] s t
        ∧ t.reply = some ⟨m, .done⟩)
  ∧ (∀ (m : Master) (v : Word) (s : State) (r : RegRow),
      s.Writes m .ep r R.SN_COUNT →
      (s.rb R.SN_STATE 31 || s.rb R.SN_STATE 30) = true →
      ∃ t, exec (.snCountWrite m v) s = .next t
        ∧ t.rb R.SN_STATUS 4 = true
        ∧ t.snap = s.snap
        ∧ RegsBut [R.SN_STATUS] s t
        ∧ t.reply = some ⟨m, .done⟩)
  ∧ (∀ (m : Master) (v : Word) (s : State) (r : RegRow),
      s.Writes m .ep r R.SN_LOAD →
      (s.rb R.SN_STATE 31 || s.rb R.SN_STATE 30) = false →
      ∃ t, exec (.snLoad m v) s = .next t
        ∧ t.rb R.SN_STATE 28 = false
        ∧ t.snap.loading = true
        ∧ t.snap.closed = true
        ∧ t.snap.list = (List.range (s.rf R.SN_COUNT 13 0)).map (fun i => s.mword (pairAddr i))
        ∧ RegsBut [R.SN_STATE] s t
        ∧ SameBut [.regs, .snap, .reply] s t
        ∧ t.reply = some ⟨m, .done⟩)
  ∧ (∀ (s : State),
      s.snap.loading = true →
      ∃ t, exec .snapshotListLoaded s = .next t
        ∧ t.rb R.SN_STATE 28 = true
        ∧ t.snap.loading = false
        ∧ t.snap.list = s.snap.list
        ∧ RegsBut [R.SN_STATE] s t
        ∧ SameBut [.regs, .snap] s t)
  ∧ (∀ (m : Master) (v : Word) (s : State) (r : RegRow),
      s.Writes m .ep r R.SN_GO →
      (s.rb R.SN_STATE 31 || s.rb R.SN_STATE 30) = false →
      s.rb R.SN_STATE 28 = true →
      ∃ t, exec (.snGo m v) s = .next t
        ∧ t.rb R.SN_STATE 31 = true
        ∧ t.rb R.SN_STATE 29 = false
        ∧ t.snap.armedAt = s.clk.beat + 2
        ∧ t.snap.rejected = false
        ∧ t.clk.reqBeat.get (fun _ => 0#64) (s.domainOf m) = s.clk.beat
        ∧ RegsBut [R.SN_STATE] s t
        ∧ SameBut [.regs, .clk, .snap, .reply] s t
        ∧ t.reply = some ⟨m, .done⟩)
  ∧ (∀ (m : Master) (v : Word) (s : State) (r : RegRow),
      s.Writes m .ep r R.SN_GO →
      (s.rb R.SN_STATE 31 || s.rb R.SN_STATE 30) = false →
      s.rb R.SN_STATE 28 = false →
      ∃ t, exec (.snGo m v) s = .next t
        ∧ t.rb R.SN_STATUS 5 = true
        ∧ t.snap = s.snap
        ∧ RegsBut [R.SN_STATUS] s t
        ∧ t.reply = some ⟨m, .done⟩)
  ∧ (∀ (m : Master) (v : Word) (n : BitVec 64) (s : State) (r : RegRow),
      s.Writes m .ep r R.SN_AT_HI →
      (s.rb R.SN_STATE 31 || s.rb R.SN_STATE 30) = false →
      s.rb R.SN_STATE 28 = true →
      n = BitVec.ofNat 64 (pair64 v (s.reg R.SN_AT_LO)) →
      ∃ t, exec (.snAtHiWrite m v) s = .next t
        ∧ t.reg R.SN_AT_HI = v
        ∧ t.rb R.SN_STATE 31 = true
        ∧ (s.isLate n = false → t.snap.armedAt = n ∧ t.snap.rejected = false ∧ t.reg R.SN_STATUS = s.reg R.SN_STATUS)
        ∧ (s.isLate n = true → s.rb R.SN_POLICY 0 = false → t.snap.rejected = true ∧ t.rb R.SN_STATUS 0 = true)
        ∧ (s.isLate n = true → s.rb R.SN_POLICY 0 = true → t.snap.armedAt = s.clk.beat + 2 ∧ t.snap.rejected = false ∧ t.rb R.SN_STATUS 1 = true)
        ∧ RegsBut [R.SN_AT_HI, R.SN_STATE, R.SN_STATUS] s t
        ∧ SameBut [.regs, .scCount, .clk, .snap, .reply] s t
        ∧ t.reply = some ⟨m, .done⟩)
  ∧ (∀ (m : Master) (v : Word) (s : State) (r : RegRow),
      s.Writes m .ep r R.SN_CANCEL →
      s.rb R.SN_STATE 31 = true →
      (s.snap.rejected = true ∨ serialGe s.snap.armedAt (s.clk.beat + 2) = true) →
      ∃ t, exec (.snCancel m v) s = .next t
        ∧ t.rb R.SN_STATE 31 = false
        ∧ t.snap.rejected = false
        ∧ RegsBut [R.SN_STATE] s t
        ∧ SameBut [.regs, .clk, .snap, .reply] s t
        ∧ t.reply = some ⟨m, .done⟩)
  ∧ (∀ (m : Master) (v : Word) (s : State) (r : RegRow),
      s.Writes m .ep r R.SN_CANCEL →
      s.rb R.SN_STATE 31 = true →
      s.snap.rejected = false →
      serialGe s.snap.armedAt (s.clk.beat + 2) = false →
      ∃ t, exec (.snCancel m v) s = .next t
        ∧ t.rb R.SN_STATUS 3 = true
        ∧ t.snap = s.snap
        ∧ RegsBut [R.SN_STATUS] s t
        ∧ t.reply = some ⟨m, .done⟩)
  ∧ (∀ (s : State),
      s.rb R.SN_STATE 31 = true →
      s.snap.rejected = false →
      serialGe s.clk.beat s.snap.armedAt = true →
      ∃ t, exec .snapshotCapture s = .next t
        ∧ t.rb R.SN_STATE 31 = false
        ∧ t.rb R.SN_STATE 30 = true
        ∧ t.snap.captured.length = s.snap.list.length
        ∧ t.mem = s.mem
        ∧ (s.ecc = [] → RegsBut [R.SN_STATE] s t ∧ SameBut [.regs, .snap, .freeCtr] s t)
        ∧ RegsBut [R.SN_STATE, R.ME_COUNTS, R.ME_LAST_ADDR, R.ME_LAST_INFO, R.ME_STATUS, R.CAL_STATUS] s t
        ∧ SameBut [.regs, .scCount, .snap, .freeCtr, .ecc, .macros, .due] s t)
  ∧ (∀ (s : State),
      s.rb R.SN_STATE 30 = true →
      ∃ t, exec .snapshotFillDone s = .next t
        ∧ t.rb R.SN_STATE 30 = false
        ∧ t.rb R.SN_STATE 29 = true
        ∧ t.snap.captured = []
        ∧ t.reg R.SN_BEAT_LO = lo64 s.snap.armedAt.toNat
        ∧ t.reg R.SN_BEAT_HI = hi64 s.snap.armedAt.toNat
        ∧ ((s.snap.captured.any (fun p => p.2.2)) = true → t.rb R.SN_STATUS 2 = true)
        ∧ Fires (4096 + 322) s t
        ∧ RegsBut [R.SN_STATE, R.SN_STATUS, R.SN_BEAT_LO, R.SN_BEAT_HI] s t
        ∧ SameBut [.regs, .scCount, .mem, .ecc, .snap, .due, .pulses] s t)

/-- R256, R262, R265, R268, R269: the fabric. (10_bunting_fabric.md) -/
def Obligations.FabricCommands : Prop :=
  (∀ (m : Master) (v : Word) (p : Nat) (s : State) (r : RegRow),
      s.Writes m .fb r R.FB_FIRE →
      firedPennant v = some p →
      s.owns (s.domainOf m) (pnOwner p) = true →
      (s.ownerSec (pnOwner p) = true → s.domSecure (s.domainOf m) = true) →
      s.rb (pnCtrl p) 31 = true →
      s.gated p = false →
      s.standsHigh p = false →
      (p < 1024 → s.islandReachable (p / 64) = true) →
      ∃ t, exec (.fbFire m v) s = .next t
        ∧ t.firing p = true
        ∧ t.due = s.due ++ [.pennantTransition (Fin.ofNat 2048 p) true true]
        ∧ RegsBut [] s t
        ∧ SameBut [.due, .pulses, .reply] s t
        ∧ t.reply = some ⟨m, .done⟩)
  ∧ (∀ (m : Master) (v : Word) (p : Nat) (s : State) (r : RegRow),
      s.Writes m .fb r R.FB_FIRE →
      firedPennant v = some p →
      s.owns (s.domainOf m) (pnOwner p) = false →
      ∃ t, exec (.fbFire m v) s = .next t
        ∧ t.reply = some ⟨m, .error .ownership⟩
        ∧ t.rb R.FB_STATUS 1 = true
        ∧ RegsBut [R.FB_STATUS, R.FB_FAULT_INFO] s t
        ∧ ((∀ c : Fin 8, m ≠ .core c) → SameBut [.regs, .scCount, .reply] s t)
        ∧ SameBut [.regs, .scCount, .cores, .due, .reply] s t)
  ∧ (∀ (m : Master) (v : Word) (p : Nat) (s : State) (r : RegRow),
      s.Writes m .fb r R.FB_FIRE →
      firedPennant v = some p →
      s.owns (s.domainOf m) (pnOwner p) = true →
      (s.ownerSec (pnOwner p) = true → s.domSecure (s.domainOf m) = true) →
      (s.rb (pnCtrl p) 31 = false ∨ s.gated p = true ∨ s.standsHigh p = true) →
      ∃ t, exec (.fbFire m v) s = .next t
        ∧ t.rb R.FB_STATUS 9 = true
        ∧ (s.rb (pnCtrl p) 31 = false ∨ s.gated p = true → t.pulses = s.pulses)
        ∧ RegsBut [R.FB_STATUS, R.FB_FAULT_INFO] s t
        ∧ SameBut [.regs, .scCount, .pulses, .reply] s t
        ∧ t.reply = some ⟨m, .done⟩)
  ∧ (∀ (p : Fin 2048) (level fired : Bool) (s : State),
      s.rb (pnCtrl p.val) 31 = true →
      s.gated p.val = false →
      s.segRuns p.val = true →
      (fired = false → s.srcHeld p.val = false) →
      s.presented p.val ≠ (level || s.firing p.val) →
      ∃ t, exec (.pennantTransition p level fired) s = .next t
        ∧ t.presented p.val = (level || s.firing p.val)
        ∧ t.rb (pnCtrl p.val) 31 = true
        ∧ t.reg (pnCfg p.val) = s.reg (pnCfg p.val)
        ∧ RegsBut (pnCtrl p.val :: pnStatus p.val :: R.FB_FAULT_INFO :: R.FI_FAULT_INFO (p.val / 64 % 16) :: hoistRegs
            ++ portStatus) s t
        ∧ SameBut [.regs, .scCount, .fab, .eqs, .due] s t)
  ∧ (∀ (p : Fin 2048) (level fired : Bool) (s : State),
      (fired = false → ∀ g : Nat, s.selection p.val = .source g → ballSource g = false) →
      (s.rb (pnCtrl p.val) 31 = false ∨ s.gated p.val = true ∨ (fired = false ∧ s.srcHeld p.val = true)
        ∨ s.presented p.val = (level || s.firing p.val)) →
      exec (.pennantTransition p level fired) s = .next (s))
  ∧ (∀ (h : Fin 512) (s : State),
      s.rf (hsCfg h.val) 24 23 = 2 →
      s.rb (hsState h.val) 29 = false →
      s.rf (hsCfg h.val) 21 10 + 2 ≤ s.hoistCount h.val →
      ∃ t, exec (.debounceExpiry h) s = .next t
        ∧ t.hoistOut h.val = s.rb (hsState h.val) 30
        ∧ t.hoistCount h.val = 0
        ∧ (s.hoistOut h.val = s.rb (hsState h.val) 30 → t.due = s.due)
        ∧ RegsBut [hsState h.val] s t
        ∧ SameBut [.regs, .fab, .due] s t)
  ∧ (∀ (h : Fin 512) (s : State),
      (s.rf (hsCfg h.val) 24 23 ≠ 2 ∨ s.hoistCount h.val < s.rf (hsCfg h.val) 21 10 + 2) →
      exec (.debounceExpiry h) s = .next s)
  ∧ (∀ (m : Master) (k : Fin 128) (v : Word) (s : State) (r : RegRow),
      s.Writes m .fb r (R.FB_SSs_CTRL k.val) →
      ∃ t, exec (.signalSetSwitch m k v) s = .next t
        ∧ (bit v 30 = true → t.rb (R.FB_SSs_CTRL k.val) 0 = false)
        ∧ (bit v 30 = false → bit v 31 = true → s.fab.lastOff.get (fun _ => 0) k.val ≠ s.absTick + 1 → t.rb (R.FB_SSs_CTRL k.val) 0 = true)
        ∧ (bit v 30 = false → bit v 31 = true → s.fab.lastOff.get (fun _ => 0) k.val = s.absTick + 1 → t.reg (R.FB_SSs_CTRL k.val) = s.reg (R.FB_SSs_CTRL k.val))
        ∧ (bit v 30 = false → bit v 31 = false → t.regs = s.regs ∧ t.due = s.due)
        ∧ (∀ j : Fin 128, j ≠ k → t.reg (R.FB_SSs_CTRL j.val) = s.reg (R.FB_SSs_CTRL j.val))
        ∧ SameBut [.regs, .scCount, .fab, .eqs, .due, .reply] s t
        ∧ t.reply = some ⟨m, .done⟩)
  ∧ (∀ (k : Fin 128) (s : State),
      ∃ t, exec (.signalSetOn k) s = .next t
        ∧ (s.rb (R.FB_SSs_CFG k.val) 31 = true → s.fab.lastOff.get (fun _ => 0) k.val ≠ s.absTick + 1 → t.rb (R.FB_SSs_CTRL k.val) 0 = true)
        ∧ (s.rb (R.FB_SSs_CFG k.val) 31 = false ∨ s.fab.lastOff.get (fun _ => 0) k.val = s.absTick + 1 → t.reg (R.FB_SSs_CTRL k.val) = s.reg (R.FB_SSs_CTRL k.val))
        ∧ RegsBut [R.FB_SSs_CTRL k.val, R.FB_STATUS, R.FB_FAULT_INFO] s t
        ∧ SameBut [.regs, .scCount, .due] s t)
  ∧ (∀ (k : Fin 128) (s : State),
      ∃ t, exec (.signalSetOff k) s = .next t
        ∧ (s.rb (R.FB_SSs_CFG k.val) 30 = true → t.rb (R.FB_SSs_CTRL k.val) 0 = false ∧ t.fab.lastOff.get (fun _ => 0) k.val = s.absTick + 1)
        ∧ (s.rb (R.FB_SSs_CFG k.val) 30 = false → t.regs = s.regs ∧ t.due = s.due)
        ∧ (∀ j : Fin 128, j ≠ k → t.reg (R.FB_SSs_CTRL j.val) = s.reg (R.FB_SSs_CTRL j.val))
        ∧ SameBut [.regs, .scCount, .fab, .eqs, .due] s t)

/-- R10, R272, R446, R447, R448: links, clocks and supplies. (17_integrity_faults.md) -/
def Obligations.LinkClockAndSupplyFaults : Prop :=
  (∀ (l : Fin 32) (s : State),
      (s.link l.val).timedOut = false →
      (s.link l.val).retired = false →
      ∃ t, exec (.linkTimeout l) s = .next t
        ∧ t.link l.val = ⟨true, false⟩
        ∧ (∀ k : Fin 32, k ≠ l → t.link k.val = s.link k.val)
        ∧ t.rb R.FB_STATUS 8 = true
        ∧ SameBut [.regs, .scCount, .links] s t)
  ∧ (∀ (l : Fin 32) (s : State),
      ((s.link l.val).timedOut = true ∨ (s.link l.val).retired = true) →
      exec (.linkTimeout l) s = .next (s))
  ∧ (∀ (l : Fin 32) (passed : Bool) (s : State),
      (s.link l.val).timedOut = true →
      ∃ t, exec (.linkReset l passed) s = .next t
        ∧ t.link l.val = ⟨false, !passed⟩
        ∧ (∀ k : Fin 32, k ≠ l → t.link k.val = s.link k.val)
        ∧ (t.due.take (s.due.length + 1) = s.due ++ [.faultReport (Fin.ofNat 8192 (linkSource l.val)) (Fin.ofNat 8192 (linkSource l.val)) (if passed then 0x14 else 0x15) 0#32])
        ∧ RegsBut [] s t
        ∧ SameBut [.links, .due] s t)
  ∧ (∀ (s : State),
      s.device ≠ .backup →
      s.clk.clockFault = false →
      ∃ t, exec .clockFault s = .next t
        ∧ t.clk.clockFault = true
        ∧ t.clk.beat = s.clk.beat
        ∧ t.due.take (s.due.length + 1) = s.due ++ [.faultReport (Fin.ofNat 8192 (0x118)) (Fin.ofNat 8192 (0x118)) 0x18 0#32]
        ∧ (s.rb R.FC_CTRL 31 = false → RegsBut [] s t)
        ∧ (s.rb R.FC_CTRL 31 = true → ∀ (n : Fin 16) (k : Fin 4), s.islandRuns n.val = true →
            t.rb (R.TU_TRIP_STATE n.val k.val) 16 = true ∧ t.rb (R.TU_TRIP_STATE n.val k.val) 21 = true)
        ∧ SameBut [.regs, .scCount, .clk, .eqs, .due, .pulses] s t)
  ∧ (∀ (s : State),
      s.clk.clockFault = true →
      ∃ t, exec .clockFaultEnd s = .next t
        ∧ t.clk.clockFault = false
        ∧ t.clk.beat = s.clk.beat
        ∧ (t.faultRec 0x118).active = false
        ∧ SameBut [.regs, .scCount, .clk, .faults, .fab, .due] s t)
  ∧ (∀ (n : Fin 16) (s : State),
      s.islandRuns n.val = true →
      s.rb (R.IC_STATE n.val) 31 = true →
      ∃ t, exec (.pllUnlock n) s = .next t
        ∧ t.rb (R.IC_STATE n.val) 31 = false
        ∧ t.synced n.val = false
        ∧ (∀ k : Fin 4, t.rb (R.TU_TRIP_STATE n.val k.val) 16 = true ∧ t.rb (R.TU_TRIP_STATE n.val k.val) 21 = true)
        ∧ (.faultReport (Fin.ofNat 8192 (0xC0 + n.val)) (Fin.ofNat 8192 (0xC0 + n.val)) 0x17 0#32 : Instr) ∈ t.due
        ∧ SameBut [.regs, .scCount, .ep, .eqs, .due, .pulses] s t)
  ∧ (∀ (rail : Fin 16) (mv : Word) (s : State),
      rail.val < 11 →
      s.faults.rails.contains rail = false →
      s.device ≠ .backup →
      railOutside rail.val mv.toNat = true →
      ∃ t, exec (.supplyFault rail mv) s = .next t
        ∧ t.faults.rails = s.faults.rails ++ [rail]
        ∧ t.due.take (s.due.length + 1) = s.due ++ [.faultReport (Fin.ofNat 8192 (0x120 + rail.val)) (Fin.ofNat 8192 (0x120 + rail.val)) 0x19 mv]
        ∧ (s.rb R.FC_CTRL 28 = false → RegsBut [] s t)
        ∧ (s.rb R.FC_CTRL 28 = true → ∀ (n : Fin 16) (k : Fin 4), s.islandRuns n.val = true →
            t.rb (R.TU_TRIP_STATE n.val k.val) 16 = true ∧ t.rb (R.TU_TRIP_STATE n.val k.val) 22 = true)
        ∧ SameBut [.regs, .scCount, .faults, .eqs, .due, .pulses] s t)
  ∧ (∀ (rail : Fin 16) (mv : Word) (s : State),
      railOutside rail.val mv.toNat = false →
      exec (.supplyFault rail mv) s = .next s)
  ∧ (∀ (rail : Fin 16) (s : State),
      s.faults.rails.contains rail = true →
      ∃ t, exec (.supplyRecovered rail) s = .next t
        ∧ t.faults.rails.contains rail = false
        ∧ (∀ k : Fin 16, k ≠ rail → t.faults.rails.contains k = s.faults.rails.contains k)
        ∧ SameBut [.regs, .scCount, .faults, .fab, .due] s t)

/-- R451 to R460: the fault collector. (17_integrity_faults.md) -/
def Obligations.FaultCollectorCommands : Prop :=
  (∀ (source reporter : Fin 8192) (cause : BitVec 8) (detail : Word) (s : State),
      s.device ≠ .watch →
      sourceListed source.val = true →
      sourceListed reporter.val = true →
      causeSeverity cause.toNat ≠ 0 →
      s.newIncident (s.faultRec source.val) = true →
      ∃ t, exec (.faultReport source reporter cause detail) s = .next t
        ∧ (t.faultRec source.val).isOpen = true
        ∧ (t.faultRec source.val).acked = false
        ∧ (t.faultRec source.val).tally = 1
        ∧ (t.faultRec source.val).incidents = min 0xFFFF ((s.faultRec source.val).incidents + 1)
        ∧ (t.faultRec source.val).firstT = s.devTime
        ∧ (t.faultRec source.val).firstRep = reporter.val
        ∧ (t.faultRec source.val).lastT = lo64 s.devTime.toNat
        ∧ (t.faultRec source.val).lastRep = reporter.val
        ∧ ((s.faultRec source.val).isOpen = false → (t.faultRec source.val).severity = causeSeverity cause.toNat ∧ (t.faultRec source.val).cause = cause.toNat ∧ (t.faultRec source.val).detail = detail)
        ∧ t.reg R.FC_LAST = w32 source.val
        ∧ t.rb R.FC_STATUS 0 = true
        ∧ Fires (4096 + 389) s t
        ∧ RegsBut [R.FC_LAST, R.FC_STATUS] s t
        ∧ SameBut [.regs, .scCount, .faults, .fab, .due, .pulses] s t)
  ∧ (∀ (source reporter : Fin 8192) (cause : BitVec 8) (detail : Word) (s : State),
      s.device ≠ .watch →
      sourceListed source.val = true →
      sourceListed reporter.val = true →
      causeSeverity cause.toNat ≠ 0 →
      s.newIncident (s.faultRec source.val) = false →
      ∃ t, exec (.faultReport source reporter cause detail) s = .next t
        ∧ (t.faultRec source.val).tally = min 0xFFFFFFFF ((s.faultRec source.val).tally + 1)
        ∧ (t.faultRec source.val).incidents = (s.faultRec source.val).incidents
        ∧ (t.faultRec source.val).firstT = (s.faultRec source.val).firstT
        ∧ (t.faultRec source.val).lastT = lo64 s.devTime.toNat
        ∧ (t.faultRec source.val).lastRep = reporter.val
        ∧ ((s.faultRec source.val).severity ≤ causeSeverity cause.toNat → (t.faultRec source.val).severity = causeSeverity cause.toNat
            ∧ (t.faultRec source.val).cause = cause.toNat ∧ (t.faultRec source.val).detail = detail)
        ∧ (causeSeverity cause.toNat < (s.faultRec source.val).severity → (t.faultRec source.val).severity = (s.faultRec source.val).severity
            ∧ (t.faultRec source.val).cause = (s.faultRec source.val).cause ∧ (t.faultRec source.val).detail = (s.faultRec source.val).detail)
        ∧ RegsBut [R.FC_STATUS] s t
        ∧ SameBut [.regs, .scCount, .faults, .fab, .due] s t)
  ∧ (∀ (source reporter : Fin 8192) (cause : BitVec 8) (detail : Word) (s : State),
      s.device = .watch →
      ∃ t, exec (.faultReport source reporter cause detail) s = .next t
        ∧ t.faults.kept = s.faults.kept ++ [.faultReport source reporter cause detail]
        ∧ t.faults.recs = s.faults.recs
        ∧ SameBut [.faults] s t)
  ∧ (∀ (m : Master) (v : Word) (x : Nat) (s : State) (r : RegRow),
      s.Writes m .fc r R.FC_ACK →
      x = fld v 12 0 →
      (s.faultRec x).isOpen = true →
      ∃ t, exec (.fcAck m v) s = .next t
        ∧ (t.faultRec x).acked = true
        ∧ (t.faultRec x).isOpen = (s.faultRec x).active
        ∧ (t.faultRec x).active = (s.faultRec x).active
        ∧ (t.faultRec x).tally = (s.faultRec x).tally
        ∧ RegsBut [R.FC_STATUS] s t
        ∧ SameBut [.regs, .scCount, .faults, .fab, .due, .reply] s t
        ∧ t.reply = some ⟨m, .done⟩)
  ∧ (∀ (m : Master) (v : Word) (s : State) (r : RegRow),
      s.Writes m .fc r R.FC_ACK →
      (s.faultRec (fld v 12 0)).isOpen = false →
      ∃ t, exec (.fcAck m v) s = .next t
        ∧ t.faults = s.faults
        ∧ RegsBut [] s t
        ∧ SameBut [.reply] s t
        ∧ t.reply = some ⟨m, .done⟩)
  ∧ (∀ (m : Master) (v : Word) (x : Nat) (s : State) (r : RegRow),
      s.Writes m .fc r R.FC_RESTORE →
      x = fld v 12 0 →
      s.rb R.FC_RESTORE_STATE 31 = false →
      ∃ t, exec (.fcRestore m v) s = .next t
        ∧ (s.restorable x = true → t.reg R.FC_RESTORE_STATE = w32 (2 ^ 31 + x * 2 ^ 16))
        ∧ (s.restorable x = false → t.reg R.FC_RESTORE_STATE = w32 (3 * 2 ^ 29 + x * 2 ^ 16))
        ∧ RegsBut [R.FC_RESTORE_STATE] s t
        ∧ SameBut [.regs, .reply] s t
        ∧ t.reply = some ⟨m, .done⟩)
  ∧ (∀ (m : Master) (v : Word) (s : State) (r : RegRow),
      s.Writes m .fc r R.FC_RESTORE →
      s.rb R.FC_RESTORE_STATE 31 = true →
      ∃ t, exec (.fcRestore m v) s = .next t
        ∧ t.rb R.FC_STATUS 5 = true
        ∧ RegsBut [R.FC_STATUS] s t
        ∧ SameBut [.regs, .scCount, .reply] s t
        ∧ t.reply = some ⟨m, .done⟩)
  ∧ (∀ (test : Fin 7) (x : Nat) (s : State),
      s.rb R.FC_RESTORE_STATE 31 = true →
      x = s.rf R.FC_RESTORE_STATE 28 16 →
      test ≠ 0 →
      (x < 0x60 ∨ 0xA0 ≤ x) →
      ∃ t, exec (.restoreComplete test) s = .next t
        ∧ t.reg R.FC_RESTORE_STATE = w32 (2 * 2 ^ 29 + x * 2 ^ 16 + test.val)
        ∧ t.rb R.FC_STATUS 4 = true
        ∧ RegsBut [R.FC_RESTORE_STATE, R.FC_STATUS] s t
        ∧ SameBut [.regs, .scCount] s t)
  ∧ (∀ (test : Fin 7) (x : Nat) (s : State),
      s.rb R.FC_RESTORE_STATE 31 = true →
      x = s.rf R.FC_RESTORE_STATE 28 16 →
      test = 0 →
      ∃ t, exec (.restoreComplete test) s = .next t
        ∧ t.reg R.FC_RESTORE_STATE = w32 (1 * 2 ^ 29 + x * 2 ^ 16)
        ∧ t.rb R.FC_STATUS 3 = true
        ∧ (x < 0x60 → t.leRetired (x / 6) (x % 6) = false)
        ∧ (0x60 ≤ x → x < 0xA0 → t.rf (R.TU_RB_STATE ((x - 0x60) / 4) (x % 4)) 11 0 = 0)
        ∧ (0x110 ≤ x → x < 0x114 → t.portRetired (x - 0x110) = false))
  ∧ (∀ (m : Master) (n : Fin 16) (e : Fin 6) (v : Word) (s : State) (r : RegRow),
      s.Writes m .fc r R.FC_RETIRE →
      fld v 12 0 = 6 * n.val + e.val →
      s.leRetired n.val e.val = false →
      s.leHosted n.val e.val = false →
      s.leSubst n.val ≠ some e.val →
      ∃ t, exec (.fcRetire m v) s = .next t
        ∧ t.leRetired n.val e.val = true
        ∧ (∀ k : Fin 16, k ≠ n → t.reg (R.IC_LE_RETIRED k.val) = s.reg (R.IC_LE_RETIRED k.val))
        ∧ t.reply = some ⟨m, .done⟩)
  ∧ (∀ (m : Master) (n : Fin 16) (c : Fin 2) (v : Word) (s : State) (r : RegRow),
      s.Writes m .fc r R.FC_RETIRE →
      fld v 12 0 = 0xA0 + 2 * n.val + c.val →
      s.acRole n.val c.val ≠ 2 →
      ∃ t, exec (.fcRetire m v) s = .next t
        ∧ t.acRole n.val c.val = 2
        ∧ t.rb (R.AC_STATUS n.val c.val) 5 = true
        ∧ t.reply = some ⟨m, .done⟩)
  ∧ (∀ (m : Master) (v : Word) (s : State) (r : RegRow),
      s.Writes m .fc r R.FC_RETIRE →
      ((0x60 ≤ fld v 12 0 ∧ fld v 12 0 < 0xA0) ∨ 0xC0 ≤ fld v 12 0) →
      ∃ t, exec (.fcRetire m v) s = .next t
        ∧ t.rb R.FC_STATUS 6 = true
        ∧ RegsBut [R.FC_STATUS] s t
        ∧ SameBut [.regs, .scCount, .reply] s t
        ∧ t.reply = some ⟨m, .done⟩)

/-- R354, R466, R467, R477: the power of islands. (18_power_thermal_startup.md) -/
def Obligations.IslandPowerCommands : Prop :=
  (∀ (m : Master) (v : Word) (s : State) (r : RegRow),
      s.Writes m .pw r R.PW_ISLAND_ON →
      ∃ t, exec (.pwIslandOnWrite m v) s = .next t
        ∧ (∀ n : Fin 16, bit v n.val = true → s.phase n.val = .off → t.phase n.val = .running ∧ t.rf (R.IC_RESETS n.val) 31 16 = (s.rf (R.IC_RESETS n.val) 31 16 + 1) % 65536)
        ∧ (∀ n : Fin 16, bit v n.val = true → s.phase n.val = .running ∨ s.phase n.val = .resetting → t.phase n.val = s.phase n.val)
        ∧ (∀ n : Fin 16, bit v n.val = false → t.phase n.val = s.phase n.val)
        ∧ t.mem = s.mem
        ∧ t.reply = some ⟨m, .done⟩)
  ∧ (∀ (m : Master) (v : Word) (s : State) (r : RegRow),
      s.Writes m .pw r R.PW_ISLAND_OFF →
      ∃ t, exec (.pwIslandOffWrite m v) s = .next t
        ∧ (∀ n : Fin 16, bit v n.val = true → s.phase n.val = .running → s.holdsEntries n.val = false → t.phase n.val = .draining ∧ t.phaseEnd n.val = s.absTick + s.drainLimit)
        ∧ (∀ n : Fin 16, bit v n.val = true → s.phase n.val = .running → s.holdsEntries n.val = true → t.phase n.val = .running ∧ t.rb R.PW_ISLANDS (16 + n.val) = true ∧ (s.rb R.PW_ISLANDS (16 + n.val) = false → t.rb R.PW_STATUS 2 = true))
        ∧ (∀ n : Fin 16, bit v n.val = false ∨ s.phase n.val = .off → t.phase n.val = s.phase n.val)
        ∧ RegsBut [R.PW_STATE, R.PW_ISLANDS, R.PW_STATUS] s t
        ∧ SameBut [.regs, .scCount, .islands, .pow, .reply] s t
        ∧ t.reply = some ⟨m, .done⟩)
  ∧ (∀ (m : Master) (v : Word) (s : State) (r : RegRow),
      s.Writes m .pw r R.PW_ISLAND_RESET →
      ∃ t, exec (.pwIslandResetWrite m v) s = .next t
        ∧ (∀ n : Fin 16, bit v n.val = true → s.phase n.val ≠ .off → t.phase n.val = .resetting ∧ t.pow.resetEnd.get (fun _ => 0) n.val = s.absTick + 1250 ∧ t.rf (R.IC_RESETS n.val) 15 0 = (s.rf (R.IC_RESETS n.val) 15 0 + 1) % 65536 ∧ t.synced n.val = false)
        ∧ (∀ n : Fin 16, bit v n.val = false ∨ s.phase n.val = .off → t.phase n.val = s.phase n.val)
        ∧ t.reply = some ⟨m, .done⟩)
  ∧ (∀ (n : Fin 16) (s : State),
      s.phase n.val = .draining →
      s.dmaDrained n.val = true →
      ∃ t, exec (.islandPowerDown n) s = .next t
        ∧ (t.phase n.val = if s.pow.powerUp.contains n.val then .running else .off)
        ∧ (∀ k : Fin 16, k ≠ n → t.phase k.val = s.phase k.val)
        ∧ (∀ k : Fin 4, t.reg (R.TU_PERIOD n.val k.val) = regReset (R.TU_PERIOD n.val k.val))
        ∧ t.synced n.val = false
        ∧ t.pow.powerUp.contains n.val = false
        ∧ (∀ e ∈ t.ep.entries, islandOf e.addr ≠ some n.val))
  ∧ (∀ (n : Fin 16) (s : State),
      (s.phase n.val ≠ .draining ∨ s.dmaDrained n.val = false) →
      exec (.islandPowerDown n) s = .next (s))
  ∧ (∀ (n : Fin 16) (s : State),
      s.phase n.val = .draining →
      s.dmaDrained n.val = false →
      s.phaseEnd n.val ≤ s.absTick →
      ∃ t, exec (.drainTimeout n) s = .next t
        ∧ t.dmaDrained n.val = true
        ∧ t.phase n.val = .draining
        ∧ t.rb R.PW_STATUS 3 = true
        ∧ t.mem = s.mem
        ∧ SameBut [.regs, .scCount, .dmas] s t)
  ∧ (∀ (n : Fin 16) (s : State),
      (s.phase n.val ≠ .draining ∨ s.dmaDrained n.val = true ∨ s.absTick < s.phaseEnd n.val) →
      exec (.drainTimeout n) s = .next s)

/-- R45, R113, R468 to R471: WATCH. (18_power_thermal_startup.md) -/
def Obligations.WatchAndWakeCommands : Prop :=
  (∀ (m : Master) (v : Word) (s : State) (r : RegRow),
      s.Writes m .pw r R.PW_CTRL →
      s.device = .run →
      s.wakeEnabled = true →
      s.testMode = false →
      (List.range 8).all (fun n => s.coreRun n != 3) = true →
      ∃ t, exec (.watchRequest m v) s = .next t
        ∧ t.device = .entering
        ∧ t.rf R.PW_STATE 31 30 = 1
        ∧ t.clk.beat = s.clk.beat
        ∧ t.reply = some ⟨m, .done⟩)
  ∧ (∀ (m : Master) (v : Word) (s : State) (r : RegRow),
      s.Writes m .pw r R.PW_CTRL →
      s.device = .run →
      (s.wakeEnabled = false ∨ s.testMode = true ∨ (List.range 8).any (fun n => s.coreRun n == 3) = true) →
      ∃ t, exec (.watchRequest m v) s = .next t
        ∧ t.device = .run
        ∧ t.rb R.PW_STATUS 4 = true
        ∧ RegsBut [R.PW_CTRL, R.PW_STATUS] s t
        ∧ SameBut [.regs, .scCount, .reply] s t
        ∧ t.reply = some ⟨m, .done⟩)
  ∧ (∀ (s : State),
      s.device = .entering →
      s.anyFlashBusy = false →
      ∃ t, exec .watchEntered s = .next t
        ∧ t.device = .watch
        ∧ t.pow.slept = true
        ∧ t.pow.coldWake = !s.rb R.PW_CTRL 30
        ∧ t.clk.beat = s.clk.beat
        ∧ (∀ (n : Fin 16) (e : Fin 6), t.reg (R.LE_RUN n.val e.val) = 0#32)
        ∧ (∀ n : Fin 16, s.islandRuns n.val = true → t.synced n.val = false))
  ∧ (∀ (s : State),
      (s.device ≠ .entering ∨ s.anyFlashBusy = true) →
      exec .watchEntered s = .next (s))
  ∧ (∀ (w : WakeSource) (s : State),
      s.wakes w = true →
      s.device = .watch →
      ∃ t, exec (.wakeSource w) s = .next t
        ∧ t.device = .waking
        ∧ t.rf R.PW_STATE 31 30 = 2
        ∧ (∀ (k : Fin 4) (l : Bool), w = .ball k l → t.reg R.PW_WAKE_SRC = bitW k.val)
        ∧ (∀ k : Fin 4, w = .alarm k → t.reg R.PW_WAKE_SRC = bitW (4 + k.val))
        ∧ RegsBut [R.PW_STATE, R.PW_WAKE_SRC] s t
        ∧ SameBut [.regs, .device] s t)
  ∧ (∀ (w : WakeSource) (s : State),
      s.wakes w = true →
      s.device = .entering →
      ∃ t, exec (.wakeSource w) s = .next t
        ∧ t.device = .waking
        ∧ t.rf R.PW_STATE 31 30 = 2
        ∧ t.rb R.PW_STATUS 5 = true
        ∧ RegsBut [R.PW_STATE, R.PW_WAKE_SRC, R.PW_STATUS] s t
        ∧ SameBut [.regs, .scCount, .device] s t)
  ∧ (∀ (w : WakeSource) (s : State),
      s.wakes w = true →
      s.device = .waking →
      ∃ t, exec (.wakeSource w) s = .next t
        ∧ (∀ (k : Fin 4) (l : Bool), w = .ball k l → t.reg R.PW_WAKE_SRC = s.reg R.PW_WAKE_SRC ||| bitW k.val)
        ∧ RegsBut [R.PW_WAKE_SRC] s t
        ∧ SameBut [.regs] s t)
  ∧ (∀ (w : WakeSource) (s : State),
      (s.wakes w = false ∨ s.device = .run ∨ s.device = .backup) →
      exec (.wakeSource w) s = .next (s))
  ∧ (∀ (beats : BitVec 64) (s : State),
      s.device = .waking →
      ∃ t, exec (.wakeComplete beats) s = .next t
        ∧ t.device = .run
        ∧ t.rf R.PW_STATE 31 30 = 0
        ∧ t.rb R.PW_STATUS 6 = true
        ∧ (t.clk.beat = if s.pow.slept then s.clk.beat + beats else s.clk.beat)
        ∧ t.pow.slept = false
        ∧ t.faults.kept = [])
  ∧ (∀ (beats : BitVec 64) (s : State),
      s.device ≠ .waking →
      exec (.wakeComplete beats) s = .next (s))

/-- R346, R472, R477, R478, R485, R486: resets, BACKUP, test mode and the test access port.
(18_power_thermal_startup.md) -/
def Obligations.ResetsAndBackup : Prop :=
  (∀ (cause : Fin 5) (boot : BitVec 4) (s : State),
      s.flashBusy 0 = false →
      s.flashBusy 1 = false →
      ∃ t, exec (.powerOnReset cause boot) s = .next t
        ∧ t.reg R.PW_RESET_CAUSE = bitW cause.val
        ∧ t.reg R.PW_BOOT = w32 boot.toNat
        ∧ RegsKept vbakReg [R.PW_RESET_CAUSE, R.PW_BOOT] s t
        ∧ MemKept nonVolatile s t
        ∧ t.device = .run
        ∧ t.clk.seconds = s.clk.seconds
        ∧ t.clk.era = s.clk.era
        ∧ t.clk.sub = s.clk.sub
        ∧ t.clk.beat = 0#64
        ∧ t.safeN = s.safeN
        ∧ t.tap = s.tap
        ∧ t.mp.rollback = s.mp.rollback
        ∧ t.flash = s.flash
        ∧ t.due = []
        ∧ (t.pow.thermalHold = if cause = 3 then some 0 else none))
  ∧ (∀ (cause : Fin 5) (boot : BitVec 4) (s : State),
      s.flashBusy 0 = true →
      ∃ t, exec (.powerOnReset cause boot) s = .next t
        ∧ t.reg R.PW_RESET_CAUSE = bitW cause.val
        ∧ t.flashBusy 0 = false
        ∧ t.flashBusy 1 = false)
  ∧ (∀ (s : State),
      s.flashBusy 0 = false →
      s.flashBusy 1 = false →
      s.device ≠ .backup →
      ∃ t, exec .backupEntry s = .next t
        ∧ t.device = .backup
        ∧ t.pow.booting = false
        ∧ RegsKept vbakReg [] s t
        ∧ MemKept nonVolatile s t
        ∧ t.clk.seconds = s.clk.seconds
        ∧ t.safeN = s.safeN
        ∧ t.tap = s.tap
        ∧ t.mp.rollback = s.mp.rollback)
  ∧ (∀ (s : State),
      s.device ≠ .backup →
      s.pow.thermalHold = none →
      ∃ t, exec .porOutRelease s = .next t
        ∧ t.pow.porOut = false
        ∧ t.pow.booting = s.pow.booting
        ∧ SameBut [.pow] s t)
  ∧ (∀ (s : State),
      (s.device = .backup ∨ s.pow.thermalHold.isSome = true) →
      exec .porOutRelease s = .next (s))
  ∧ (∀ (m : Master) (v : Word) (s : State) (r : RegRow),
      s.Writes m .pw r R.PW_TEST →
      m = .debug →
      ∃ t, exec (.pwTestWrite m v) s = .next t
        ∧ t.rb R.PW_TEST 31 = bit v 31
        ∧ t.pow.testAt = some (s.clk.beat + 2, bit v 31)
        ∧ t.clk.reqBeat.get (fun _ => 0#64) 11 = s.clk.beat
        ∧ RegsBut [R.PW_TEST] s t
        ∧ SameBut [.regs, .clk, .pow, .reply] s t
        ∧ t.reply = some ⟨m, .done⟩)
  ∧ (∀ (b : BitVec 64) (on : Bool) (s : State),
      s.pow.testAt = some (b, on) →
      serialGe s.clk.beat b = true →
      s.testMode ≠ on →
      ∃ t, exec .testModeChange s = .next t
        ∧ t.testMode = on
        ∧ t.pow.testAt = none
        ∧ t.rb R.PW_STATUS 1 = true
        ∧ (∀ n : Fin 16, s.islandRuns n.val = true → t.rb (R.IC_STATE n.val) 29 = on)
        ∧ t.mem = s.mem
        ∧ SameBut [.regs, .scCount, .pow] s t)
  ∧ (∀ (b : BitVec 64) (on : Bool) (s : State),
      s.pow.testAt = some (b, on) →
      serialGe s.clk.beat b = false →
      exec .testModeChange s = .next (s))
  ∧ (∀ (resetLow : Bool) (s : State),
      ∃ t, exec (.jtagTapOperation resetLow .idcode) s = .next t
        ∧ t.tap = ⟨.idcode, s.tap.cells, idcodeWord⟩
        ∧ SameBut [.tap] s t)
  ∧ (∀ (resetLow : Bool) (s : State),
      ∃ t, exec (.jtagTapOperation resetLow .bypass) s = .next t
        ∧ t.tap = ⟨.bypass, s.tap.cells, 0#32⟩
        ∧ SameBut [.tap] s t)
  ∧ (∀ (resetLow : Bool) (cells : List Bool) (s : State),
      ∃ t, exec (.jtagTapOperation resetLow (.preload cells)) s = .next t
        ∧ t.tap.cells = cells
        ∧ t.tap.tdo = s.tap.tdo
        ∧ SameBut [.tap] s t)
  ∧ (∀ (op : JtagOp) (s : State),
      (op = .extest ∨ op = .clamp) →
      ∃ t, exec (.jtagTapOperation false op) s = .next t
        ∧ t.tap = ⟨.bypass, s.tap.cells, 0#32⟩
        ∧ t.scanDrives = none
        ∧ SameBut [.tap] s t)
  ∧ (∀ (op : JtagOp) (s : State),
      (op = .extest ∨ op = .clamp) →
      ∃ t, exec (.jtagTapOperation true op) s = .next t
        ∧ t.tap.op = op
        ∧ t.scanDrives = some s.tap.cells
        ∧ SameBut [.tap, .freeCtr] s t)

/-- R473 to R476: thermal supervision. (18_power_thermal_startup.md) -/
def Obligations.ThermalSamples : Prop :=
  (∀ (sensor : Fin 17) (temp : BitVec 16) (s : State),
      s.beatRuns = true →
      (sensor.val = 16 ∨ s.islandRuns sensor.val = true) →
      s.thermalDwell sensor.val = 1 →
      0 < s.thermalHyst sensor.val →
      s.rf (R.TH_Ss_CFG sensor.val) 1 0 = 0 →
      ∃ t, exec (.thermalSample sensor temp) s = .next t
        ∧ t.reg (R.TH_Ss_TEMP sensor.val) = w32 (2 ^ 31 + temp.toNat)
        ∧ (sensor.val < 16 → t.reg (R.IC_TEMP sensor.val) = w32 (2 ^ 31 + temp.toNat))
        ∧ (∀ k : Fin 3, s.rb (R.TH_Ss_STATE sensor.val) k.val = false → t.rb (R.TH_Ss_STATE sensor.val) k.val = decide (s.thermalThr sensor.val k.val ≤ temp.toInt))
        ∧ (∀ k : Fin 3, s.rb (R.TH_Ss_STATE sensor.val) k.val = true →
            t.rb (R.TH_Ss_STATE sensor.val) k.val = decide (s.thermalThr sensor.val k.val - s.thermalHyst sensor.val ≤ temp.toInt))
        ∧ (∀ k : Fin 3, s.rb (R.TH_Ss_STATE sensor.val) k.val = false → s.thermalThr sensor.val k.val ≤ temp.toInt →
            s.rb (R.TH_Ss_CFG sensor.val) 31 = true → t.rb R.TH_STATUS k.val = true)
        ∧ RegsBut [R.TH_Ss_TEMP sensor.val, R.IC_TEMP sensor.val, R.TH_Ss_STATE sensor.val, R.TH_STATUS] s t
        ∧ SameBut [.regs, .scCount, .fab, .due, .pow] s t)
  ∧ (∀ (n : Fin 16) (temp : BitVec 16) (s : State),
      s.beatRuns = true →
      s.islandRuns n.val = true →
      s.thermalDwell n.val = 1 →
      0 < s.thermalHyst n.val →
      s.rf (R.TH_Ss_CFG n.val) 1 0 = 2 →
      s.rb (R.TH_Ss_CFG n.val) 31 = true →
      s.rb (R.TH_Ss_STATE n.val) 2 = false →
      s.thermalThr n.val 2 ≤ temp.toInt →
      ∃ t, exec (.thermalSample ⟨n.val, by omega⟩ temp) s = .next t
        ∧ t.rb (R.TH_Ss_STATE n.val) 2 = true
        ∧ (∀ k : Fin 4, t.rb (R.TU_TRIP_STATE n.val k.val) 16 = true ∧ t.rb (R.TU_TRIP_STATE n.val k.val) 23 = true)
        ∧ t.phase n.val = .draining
        ∧ t.rb R.PW_STATUS 0 = true
        ∧ t.mem = s.mem)
  ∧ (∀ (sensor : Fin 17) (temp : BitVec 16) (s : State),
      s.pow.thermalHold = none →
      sensor.val < 16 →
      s.islandRuns sensor.val = false →
      exec (.thermalSample sensor temp) s = .next (s))
  ∧ (∀ (temp : BitVec 16) (c : Nat) (s : State),
      s.pow.thermalHold = some c →
      ∃ t, exec (.thermalSample 16 temp) s = .next t
        ∧ (t.pow.thermalHold = if temp.toInt < s.thermalThr 16 2 - s.thermalHyst 16 then
            (if s.thermalDwell 16 ≤ c + 1 then none else some (c + 1)) else some 0)
        ∧ RegsBut [] s t
        ∧ SameBut [.pow] s t)

/-- R41, R42, R44, R160 to R175: what makes a timer unit run. (07_timer_units.md, 02_timebase_calendar.md) -/
def Obligations.TimerRunCommands : Prop :=
  (∀ (m : Master) (n : Fin 16) (k : Fin 4) (v : Word) (s : State) (r : RegRow),
      s.Writes m (.tu n.val k.val) r (R.TU_CTRL n.val k.val) →
      ∃ t, exec (.tuRun m n k v) s = .next t
        ∧ t.rb (R.TU_CTRL n.val k.val) 0 = bit v 0
        ∧ (bit v 31 = true → s.tuRunning n.val k.val = false → (t.tu n.val k.val).startIn = some ((s.tu n.val k.val).startIn.getD 3))
        ∧ (bit v 31 = true → s.tuRunning n.val k.val = true → (t.tu n.val k.val).stopAtBoundary = false ∧ (t.tu n.val k.val).startIn = (s.tu n.val k.val).startIn)
        ∧ (bit v 31 = false → (t.tu n.val k.val).startIn = none ∧ (t.tu n.val k.val).stopAtBoundary = s.tuRunning n.val k.val)
        ∧ RegsBut [R.TU_CTRL n.val k.val] s t
        ∧ SameBut [.regs, .tus, .reply] s t
        ∧ t.reply = some ⟨m, .done⟩)
  ∧ (∀ (m : Master) (n : Fin 16) (k : Fin 4) (v : Word) (s : State) (r : RegRow),
      s.Writes m (.tu n.val k.val) r (R.TU_CTRL n.val k.val) →
      ∃ t, exec (.tuStopNow m n k v) s = .next t
        ∧ t.rb (R.TU_CTRL n.val k.val) 0 = bit v 0
        ∧ (t.tu n.val k.val).startIn = none
        ∧ (t.tu n.val k.val).stopNow = s.tuRunning n.val k.val
        ∧ RegsBut [R.TU_CTRL n.val k.val] s t
        ∧ SameBut [.regs, .tus, .reply] s t
        ∧ t.reply = some ⟨m, .done⟩)
  ∧ (∀ (n : Fin 16) (k : Fin 4) (s : State),
      s.islandRuns n.val = true →
      s.tuFrozen n.val k.val = false →
      s.dueIn (.tu n.val k.val) = false →
      s.rb (R.TU_CFG n.val k.val) 3 = false →
      125 ≤ (s.reg (R.TU_PERIOD n.val k.val)).toNat →
      (s.reg (R.TU_PERIOD n.val k.val)).toNat ≤ 4250000000 →
      ∃ t, exec (.tuStart n k) s = .next t
        ∧ t.tuRunning n.val k.val = true
        ∧ t.rb (R.TU_CTRL n.val k.val) 31 = true
        ∧ t.reg (R.TU_PERIOD_ACT n.val k.val) = (if (s.tu n.val k.val).rawP = some (s.reg (R.TU_PERIOD n.val k.val)).toNat then
            s.reg (R.TU_PERIOD_ACT n.val k.val) else s.reg (R.TU_PERIOD n.val k.val))
        ∧ t.reg (R.TU_CNT n.val k.val) = w32 ((s.reg (R.TU_PHASE n.val k.val)).toNat % (t.reg (R.TU_PERIOD_ACT n.val k.val)).toNat)
        ∧ t.reg (R.TU_PCOUNT n.val k.val) = 0#32
        ∧ (t.tu n.val k.val).startIn = none
        ∧ t.mem = s.mem
        ∧ (∀ w : Fin 6, (s.rf (R.TU_DLR_PEND n.val k.val) 12 0).testBit w.val = true → (s.rf (R.TU_LOAD n.val k.val) 12 0).testBit w.val = false →
            t.reg (R.TU_CHj_WIDTH_ACT n.val k.val w.val) = w32 (s.dlrFine n.val k.val w.val) ∧ t.rb (R.TU_DLR_PEND n.val k.val) w.val = false)
        ∧ (∀ w : Fin 13, (s.rf (R.TU_LOAD n.val k.val) 12 0).testBit w.val = true →
            s.rf (R.TU_DLR_PEND n.val k.val) 12 0 &&& s.rf (R.TU_LOAD n.val k.val) 12 0 ≠ s.rf (R.TU_LOAD n.val k.val) 12 0 →
            t.rb (R.TU_DLR_PEND n.val k.val) w.val = s.rb (R.TU_DLR_PEND n.val k.val) w.val))
  ∧ (∀ (n : Fin 16) (k : Fin 4) (s : State),
      s.islandRuns n.val = true →
      s.tuFrozen n.val k.val = true →
      ∃ t, exec (.tuStart n k) s = .next t
        ∧ t.tuRunning n.val k.val = true
        ∧ t.reg (R.TU_CNT n.val k.val) = w32 ((s.reg (R.TU_PHASE n.val k.val)).toNat % s.tuP n.val k.val)
        ∧ t.reg (R.TU_PCOUNT n.val k.val) = 0#32
        ∧ RegsBut [R.TU_CNT n.val k.val, R.TU_PCOUNT n.val k.val, R.TU_STATE n.val k.val, R.TU_CTRL n.val k.val] s t
        ∧ SameBut [.regs, .tus] s t)
  ∧ (∀ (n : Fin 16) (k : Fin 4) (s : State),
      s.tuCounts n.val k.val = true →
      s.dueIn (.tu n.val k.val) = false →
      (s.tu n.val k.val).stopAtBoundary = false →
      s.tuMode n.val k.val ≠ 2 →
      ∃ t, exec (.periodBoundary n k) s = .next t
        ∧ t.tuRunning n.val k.val = true
        ∧ t.reg (R.TU_CNT n.val k.val) = 0#32
        ∧ t.reg (R.TU_PCOUNT n.val k.val) = s.reg (R.TU_PCOUNT n.val k.val) + 1#32
        ∧ (s.rb (R.TU_CFG n.val k.val) 3 = false → t.reg (R.TU_PERIOD_ACT n.val k.val) =
            if (s.tu n.val k.val).rawP = some (s.reg (R.TU_PERIOD n.val k.val)).toNat then s.reg (R.TU_PERIOD_ACT n.val k.val)
            else w32 (clampP (s.reg (R.TU_PERIOD n.val k.val)).toNat))
        ∧ (∀ w : Fin 6, (s.rf (R.TU_DLR_PEND n.val k.val) 12 0).testBit w.val = true → (s.rf (R.TU_LOAD n.val k.val) 12 0).testBit w.val = false →
            t.reg (R.TU_CHj_WIDTH_ACT n.val k.val w.val) = w32 (s.dlrFine n.val k.val w.val) ∧ t.rb (R.TU_DLR_PEND n.val k.val) w.val = false)
        ∧ (∀ w : Fin 13, (s.rf (R.TU_LOAD n.val k.val) 12 0).testBit w.val = true →
            s.rf (R.TU_DLR_PEND n.val k.val) 12 0 &&& s.rf (R.TU_LOAD n.val k.val) 12 0 ≠ s.rf (R.TU_LOAD n.val k.val) 12 0 →
            t.rb (R.TU_DLR_PEND n.val k.val) w.val = s.rb (R.TU_DLR_PEND n.val k.val) w.val)
        ∧ t.mem = s.mem
        ∧ Fires (256 * n.val + 0x60 + 16 * k.val + 0) s t)
  ∧ (∀ (n : Fin 16) (k : Fin 4) (s : State),
      s.tuCounts n.val k.val = true →
      s.dueIn (.tu n.val k.val) = false →
      ((s.tu n.val k.val).stopAtBoundary = true ∨ s.tuMode n.val k.val = 2) →
      ∃ t, exec (.periodBoundary n k) s = .next t
        ∧ t.tuRunning n.val k.val = false
        ∧ t.rb (R.TU_CTRL n.val k.val) 31 = false
        ∧ t.reg (R.TU_CNT n.val k.val) = s.reg (R.TU_CNT n.val k.val)
        ∧ (∀ j : Fin 6, t.safeHeld n.val k.val j.val = true)
        ∧ Fires (256 * n.val + 0x60 + 16 * k.val + 3) s t)
  ∧ (∀ (n : Fin 16) (k : Fin 4) (s : State),
      s.tuCounts n.val k.val = true →
      s.tuMode n.val k.val = 1 →
      ∃ t, exec (.midPeriod n k) s = .next t
        ∧ (s.rb (R.TU_CFG n.val k.val) 4 = true → (∀ w : Fin 6, (s.rf (R.TU_DLR_PEND n.val k.val) 12 0).testBit w.val = true → (s.rf (R.TU_LOAD n.val k.val) 12 0).testBit w.val = false →
            t.reg (R.TU_CHj_WIDTH_ACT n.val k.val w.val) = w32 (s.dlrFine n.val k.val w.val) ∧ t.rb (R.TU_DLR_PEND n.val k.val) w.val = false))
        ∧ (s.rb (R.TU_CFG n.val k.val) 4 = false → t.reg (R.TU_DLR_PEND n.val k.val) = s.reg (R.TU_DLR_PEND n.val k.val))
        ∧ t.reg (R.TU_CNT n.val k.val) = s.reg (R.TU_CNT n.val k.val)
        ∧ Fires (256 * n.val + 0x60 + 16 * k.val + 1) s t)
  ∧ (∀ (n : Fin 16) (k : Fin 4) (j : Fin 6) (s : State),
      s.tuCounts n.val k.val = true →
      s.tuMode n.val k.val ≠ 3 →
      ∃ t, exec (.channelEventPoint n k j) s = .next t
        ∧ Fires (256 * n.val + 0x60 + 16 * k.val + (6 + j.val)) s t
        ∧ RegsBut portStatus s t
        ∧ SameBut [.regs, .scCount, .eqs, .due, .pulses] s t)
  ∧ (∀ (n : Fin 16) (k : Fin 4) (j : Fin 6) (rise : Bool) (fine : Fin 64) (s : State),
      s.tuCounts n.val k.val = true →
      s.rb (R.TU_CHj_CFG n.val k.val j.val) 7 = true →
      s.tuMode n.val k.val ≠ 3 →
      (s.chan n.val k.val j.val).ref ≠ rise →
      j.val < (s.tu n.val k.val).chans.length →
      ∃ t, exec (.referenceEdge n k j rise fine) s = .next t
        ∧ (t.chan n.val k.val j.val).ref = rise
        ∧ (∀ i : Fin 6, i ≠ j → t.chan n.val k.val i.val = s.chan n.val k.val i.val)
        ∧ (s.rf (R.TU_CHj_CFG n.val k.val j.val) 3 2 ≠ 0 →
            (t.chan n.val k.val j.val).outA = ((s.chan n.val k.val j.val).outA.push rise (s.nowFine + fine.val)).1)
        ∧ (s.rf (R.TU_CHj_CFG n.val k.val j.val) 3 2 = 0 → rise = true →
            (t.chan n.val k.val j.val).outA = ((s.chan n.val k.val j.val).outA.push true (s.nowFine + fine.val + s.rf (R.TU_CHj_DTA n.val k.val j.val) 17 0)).1
            ∧ (t.chan n.val k.val j.val).outB = ((s.chan n.val k.val j.val).outB.push false (s.nowFine + fine.val)).1)
        ∧ (s.rf (R.TU_CHj_CFG n.val k.val j.val) 3 2 = 0 → rise = false →
            (t.chan n.val k.val j.val).outB = ((s.chan n.val k.val j.val).outB.push true (s.nowFine + fine.val + s.rf (R.TU_CHj_DTB n.val k.val j.val) 17 0)).1
            ∧ (t.chan n.val k.val j.val).outA = ((s.chan n.val k.val j.val).outA.push false (s.nowFine + fine.val)).1)
        ∧ t.mem = s.mem)
  ∧ (∀ (q : StartReq) (s : State),
      s.clk.start = some q →
      q.rejected = false →
      serialGe s.clk.beat q.beat = true →
      ∃ t, exec .globalStart s = .next t
        ∧ t.clk.start = none
        ∧ t.rb R.TB_START_STATE 31 = false
        ∧ t.rb R.TB_START_STATE 30 = true
        ∧ (∀ (n : Fin 16) (k : Fin 4), (startUnits q n.val).contains k.val = true → s.takesPart n.val = true → t.tuRunning n.val k.val = true)
        ∧ (∀ (n : Fin 16) (k : Fin 4), (startUnits q n.val).contains k.val = false ∨ s.takesPart n.val = false → t.tuRunning n.val k.val = s.tuRunning n.val k.val)
        ∧ (∀ n : Fin 16, startUnits q n.val ≠ [] → s.takesPart n.val = false → t.rb R.TB_START_STATE n.val = true ∧ t.rb R.TB_STATUS 5 = true))
  ∧ (∀ (q : StartReq) (s : State),
      s.clk.start = some q →
      (q.rejected = true ∨ serialGe s.clk.beat q.beat = false) →
      exec .globalStart s = .next (s))
  ∧ (∀ (n : Fin 16) (k : Fin 4) (c : Coupling) (s : State),
      s.dueCoupling (4 * n.val + k.val) = some c →
      (c.direct = true ∨ s.synced n.val = true) →
      ∃ t, exec (.couplingRelease n k) s = .next t
        ∧ (s.rf (R.TU_SLAVE n.val k.val) 29 28 = 0 → t.tuRunning n.val k.val = true ∧ t.reg (R.TU_PCOUNT n.val k.val) = 0#32)
        ∧ (s.rf (R.TU_SLAVE n.val k.val) 29 28 = 1 → t.tuRunning n.val k.val = true ∧ (s.tuRunning n.val k.val = true → s.tuFrozen n.val k.val = false → t.reg (R.TU_PCOUNT n.val k.val) = s.reg (R.TU_PCOUNT n.val k.val)))
        ∧ (s.rf (R.TU_SLAVE n.val k.val) 29 28 = 2 → s.tuFrozen n.val k.val = false →
            (t.tu n.val k.val).gateOpen = (if 4 ≤ s.rf (R.TU_SLAVE n.val k.val) 27 24 then !c.fall else !(s.tu n.val k.val).gateOpen) ∧ t.regs = s.regs
            ∧ t.clk.couplings = s.clk.couplings.erase c)
        ∧ (s.rf (R.TU_SLAVE n.val k.val) 29 28 = 3 → s.tuCounts n.val k.val = true → s.tuPos n.val k.val + 1 < s.tuP n.val k.val →
            t.reg (R.TU_CNT n.val k.val) = s.reg (R.TU_CNT n.val k.val) + 1#32 ∧ RegsBut [R.TU_CNT n.val k.val] s t)
        ∧ t.mem = s.mem)
  ∧ (∀ (n : Fin 16) (k : Fin 4) (s : State),
      s.dueCoupling (4 * n.val + k.val) = none →
      exec (.couplingRelease n k) s = .next (s))

/-- R168 to R185, R458: duty words, trips, holds, read-back and captures. (07_timer_units.md) -/
def Obligations.TimerTripAndCaptureCommands : Prop :=
  (∀ (m : Master) (n : Fin 16) (k : Fin 4) (w : Fin 13) (v : Word) (s : State) (r : RegRow),
      s.Writes m (.tu n.val k.val) r (R.TU_DLRw n.val k.val w.val) →
      s.owns (s.domainOf m) (R.TU_OWNER n.val k.val) = true →
      ∃ t, exec (.dutyLoadWrite m n k w v) s = .next t
        ∧ t.reg (R.TU_DLRw n.val k.val w.val) = v
        ∧ t.rb (R.TU_DLR_PEND n.val k.val) w.val = true
        ∧ RegsBut [R.TU_DLRw n.val k.val w.val, R.TU_DLR_PEND n.val k.val] s t
        ∧ SameBut [.regs, .tus, .reply] s t
        ∧ t.reply = some ⟨m, .done⟩)
  ∧ (∀ (n : Fin 16) (k : Fin 4) (inp : Fin 8) (s : State),
      s.rb (R.TU_TRIPi_CFG n.val k.val inp.val) 31 = true →
      (s.tripSource n.val k.val (s.rf (R.TU_TRIPi_CFG n.val k.val inp.val) 7 0)).isSome = true →
      ∃ t, exec (.tripActive n k inp) s = .next t
        ∧ t.rb (R.TU_TRIP_STATE n.val k.val) (8 + inp.val) = true
        ∧ (s.rb (R.TU_TRIPi_CFG n.val k.val inp.val) 29 = true → t.rb (R.TU_TRIP_STATE n.val k.val) inp.val = true)
        ∧ t.rb (R.TU_STATE n.val k.val) (8 + inp.val) = true
        ∧ (∀ j : Fin 6, s.rb (R.TU_TRIPi_CFG n.val k.val inp.val) (22 + j.val) = true → s.rb (R.TU_TRIPi_CFG n.val k.val inp.val) 28 = false → t.safeHeld n.val k.val j.val = true)
        ∧ (s.rb (R.TU_STATE n.val k.val) (8 + inp.val) = false → t.rb (R.TU_STATUS n.val k.val) 3 = true)
        ∧ t.mem = s.mem)
  ∧ (∀ (n : Fin 16) (k : Fin 4) (inp : Fin 8) (s : State),
      (s.rb (R.TU_TRIPi_CFG n.val k.val inp.val) 31 = false
        ∨ s.tripSource n.val k.val (s.rf (R.TU_TRIPi_CFG n.val k.val inp.val) 7 0) = none) →
      exec (.tripActive n k inp) s = .next (s))
  ∧ (∀ (n : Fin 16) (k : Fin 4) (inp : Fin 8) (s : State),
      ∃ t, exec (.tripInputInactive n k inp) s = .next t
        ∧ t.rb (R.TU_TRIP_STATE n.val k.val) (8 + inp.val) = false
        ∧ t.rb (R.TU_TRIP_STATE n.val k.val) inp.val = s.rb (R.TU_TRIP_STATE n.val k.val) inp.val
        ∧ RegsBut [R.TU_TRIP_STATE n.val k.val] s t
        ∧ SameBut [.regs] s t)
  ∧ (∀ (m : Master) (n : Fin 16) (k : Fin 4) (v : Word) (s : State) (r : RegRow),
      s.Writes m (.tu n.val k.val) r (R.TU_TRIP_CLR n.val k.val) →
      ∃ t, exec (.tripLatchClear m n k v) s = .next t
        ∧ (∀ i : Fin 8, t.rb (R.TU_TRIP_STATE n.val k.val) i.val = (s.rb (R.TU_TRIP_STATE n.val k.val) i.val && !(bit v i.val && !s.rb (R.TU_TRIP_STATE n.val k.val) (8 + i.val))))
        ∧ t.rf (R.TU_TRIP_STATE n.val k.val) 31 8 = s.rf (R.TU_TRIP_STATE n.val k.val) 31 8
        ∧ RegsBut [R.TU_TRIP_STATE n.val k.val] s t
        ∧ SameBut [.regs, .reply] s t
        ∧ t.reply = some ⟨m, .done⟩)
  ∧ (∀ (m : Master) (n : Fin 16) (k : Fin 4) (v : Word) (s : State) (r : RegRow),
      s.Writes m (.tu n.val k.val) r (R.TU_TRIP_CLR n.val k.val) →
      s.rb (R.TU_TRIP_STATE n.val k.val) 16 = true →
      (∀ i : Fin 7, s.rb (R.TU_TRIP_STATE n.val k.val) (17 + i.val) = true → s.causeInForce n.val k.val (17 + i.val) = false) →
      ∃ t, exec (.systemHoldRelease m n k v) s = .next t
        ∧ t.rf (R.TU_TRIP_STATE n.val k.val) 23 16 = 0
        ∧ (t.tu n.val k.val).sysTail = true
        ∧ t.sysHeld n.val k.val = true
        ∧ t.mem = s.mem
        ∧ t.reply = some ⟨m, .done⟩)
  ∧ (∀ (m : Master) (n : Fin 16) (k : Fin 4) (v : Word) (i : Fin 7) (s : State) (r : RegRow),
      s.Writes m (.tu n.val k.val) r (R.TU_TRIP_CLR n.val k.val) →
      s.rb (R.TU_TRIP_STATE n.val k.val) 16 = true →
      s.rb (R.TU_TRIP_STATE n.val k.val) (17 + i.val) = true →
      s.causeInForce n.val k.val (17 + i.val) = true →
      ∃ t, exec (.systemHoldRelease m n k v) s = .next t
        ∧ t.rf (R.TU_TRIP_STATE n.val k.val) 23 16 = s.rf (R.TU_TRIP_STATE n.val k.val) 23 16
        ∧ t.rb (R.TU_STATUS n.val k.val) 13 = true
        ∧ RegsBut [R.TU_TRIP_STATE n.val k.val, R.TU_STATUS n.val k.val] s t
        ∧ t.reply = some ⟨m, .done⟩)
  ∧ (∀ (s : State),
      ∃ t, exec .safeNAssert s = .next t
        ∧ t.safeN = true
        ∧ t.rb R.FC_STATUS 2 = true
        ∧ (∀ (n : Fin 16) (k : Fin 4) (j : Fin 6), s.islandRuns n.val = true → t.safeHeld n.val k.val j.val = true)
        ∧ t.mem = s.mem
        ∧ SameBut [.regs, .scCount, .safeN, .fab, .due] s t)
  ∧ (∀ (s : State),
      ∃ t, exec .safeNDeassert s = .next t
        ∧ t.safeN = false
        ∧ RegsBut [] s t
        ∧ SameBut [.safeN, .fab, .due] s t)
  ∧ (∀ (n : Fin 16) (k : Fin 4) (o : Fin 12) (level : Bool) (s : State),
      s.islandRuns n.val = true →
      s.rb (R.TU_RB_CFG n.val k.val) (16 + o.val) = true →
      s.tuOut n.val k.val o.val ≠ .hiz →
      s.ballAssigned n.val k.val o.val = true →
      s.rb (R.TU_RB_STATE n.val k.val) o.val = false →
      s.readbackDue n.val k.val o.val = true →
      o.val < (s.tu n.val k.val).rbFails.length →
      ∃ t, exec (.readbackCheck n k o level) s = .next t
        ∧ (level = decide (s.tuOut n.val k.val o.val = .high) → (t.tu n.val k.val).rbFails.getD o.val 0 = 0 ∧ t.rb (R.TU_RB_STATE n.val k.val) (16 + o.val) = false ∧ t.rb (R.TU_RB_STATE n.val k.val) o.val = false ∧ t.due = s.due)
        ∧ (level = decide (s.tuOut n.val k.val o.val ≠ .high) → (t.tu n.val k.val).rbFails.getD o.val 0 = (s.tu n.val k.val).rbFails.getD o.val 0 + 1 ∧ t.rb (R.TU_RB_STATE n.val k.val) (16 + o.val) = true ∧ t.rb (R.TU_STATUS n.val k.val) 5 = true ∧ t.rb (R.TU_RB_STATE n.val k.val) o.val = decide (2 ≤ (s.tu n.val k.val).rbFails.getD o.val 0))
        ∧ t.mem = s.mem)
  ∧ (∀ (n : Fin 16) (k : Fin 4) (o : Fin 12) (level : Bool) (s : State),
      s.readbackDue n.val k.val o.val = false →
      exec (.readbackCheck n k o level) s = .next s)
  ∧ (∀ (n : Fin 16) (k : Fin 4) (j : Fin 6) (rise : Bool) (ago : Word) (s : State),
      s.islandRuns n.val = true →
      s.beatRuns = true →
      s.rb (R.TU_CHj_CAP_CFG n.val k.val j.val) 31 = true →
      s.tuMode n.val k.val = 3 →
      s.capAccepts n.val k.val j.val (s.nowFine - ago.toNat) = true →
      edgeSelected (s.rf (R.TU_CHj_CAP_CFG n.val k.val j.val) 11 10) rise = true →
      s.rf (R.TU_CHj_CAP_CFG n.val k.val j.val) 29 22 ≤ (s.chan n.val k.val j.val).presc →
      (s.chan n.val k.val j.val).lastCap = none →
      j.val < (s.tu n.val k.val).chans.length →
      ∃ t, exec (.captureEdge n k j rise ago) s = .next t
        ∧ t.reg (R.TU_CHj_CAP_LO n.val k.val j.val) = lo64 (s.stampT n.val (captureInstant s.nowFine ago.toNat (s.rf (R.TU_CHj_CAP_CFG n.val k.val j.val) 9 0))).toNat
        ∧ t.reg (R.TU_CHj_CAP_HI n.val k.val j.val) = hi64 (s.stampT n.val (captureInstant s.nowFine ago.toNat (s.rf (R.TU_CHj_CAP_CFG n.val k.val j.val) 9 0))).toNat
        ∧ t.rf (R.TU_CHj_CAP_SUB n.val k.val j.val) 31 16 = (s.rf (R.TU_CHj_CAP_SUB n.val k.val j.val) 31 16 + 1) % 65536
        ∧ t.rb (R.TU_CHj_CAP_SUB n.val k.val j.val) 9 = rise
        ∧ t.rf (R.TU_CHj_CAP_SUB n.val k.val j.val) 8 0 = (captureInstant s.nowFine ago.toNat (s.rf (R.TU_CHj_CAP_CFG n.val k.val j.val) 9 0)) % 320
        ∧ (t.chan n.val k.val j.val).consumed = false
        ∧ (t.chan n.val k.val j.val).lastCap = some (captureInstant s.nowFine ago.toNat (s.rf (R.TU_CHj_CAP_CFG n.val k.val j.val) 9 0))
        ∧ ((s.chan n.val k.val j.val).consumed = false → t.rb (R.TU_STATUS n.val k.val) 9 = true)
        ∧ t.mem = s.mem)
  ∧ (∀ (n : Fin 16) (k : Fin 4) (j : Fin 6) (rise : Bool) (ago : Word) (s : State),
      s.islandRuns n.val = true →
      s.beatRuns = true →
      s.rb (R.TU_CHj_CAP_CFG n.val k.val j.val) 31 = true →
      s.tuMode n.val k.val = 3 →
      s.capAccepts n.val k.val j.val (s.nowFine - ago.toNat) = false →
      j.val < (s.tu n.val k.val).chans.length →
      ∃ t, exec (.captureEdge n k j rise ago) s = .next t
        ∧ ((s.chan n.val k.val j.val).filt = none → (t.chan n.val k.val j.val).filt = some (rise, s.nowFine - ago.toNat))
        ∧ (∀ f : Nat, (s.chan n.val k.val j.val).filt = some (!rise, f) → (t.chan n.val k.val j.val).filt = none)
        ∧ RegsBut [] s t
        ∧ SameBut [.tus] s t)
  ∧ (∀ (m : Master) (n : Fin 16) (k : Fin 4) (j : Fin 6) (s : State) (r : RegRow),
      s.Reads m (.tu n.val k.val) r (R.TU_CHj_CAP_LO n.val k.val j.val) →
      j.val < (s.tu n.val k.val).chans.length →
      ∃ t, exec (.captureRead m n k j) s = .next t
        ∧ t.reply = some ⟨m, .data (s.reg (R.TU_CHj_CAP_LO n.val k.val j.val))⟩
        ∧ (t.chan n.val k.val j.val).consumed = true
        ∧ t.domReg (R.TU_CHj_CAP_HI n.val k.val j.val) (s.domainOf m) = s.reg (R.TU_CHj_CAP_HI n.val k.val j.val)
        ∧ RegsBut [] s t
        ∧ SameBut [.domRegs, .tus, .reply] s t)

/-- R192 to R209: converter cores. (08_analog_front_end.md) -/
def Obligations.ConverterCommands : Prop :=
  (∀ (n : Fin 16) (c : Fin 2) (s : State),
      s.islandRuns n.val = true →
      s.beatRuns = true →
      s.rb (R.AC_CTRL n.val c.val) 31 = true →
      s.rf (R.AC_TRIG n.val c.val) 15 14 ≠ 3 →
      s.acWorks n.val c.val = true →
      s.acBusy n.val c.val = false →
      (s.ac n.val c.val).dueReg = none →
      s.rb (R.AC_STATE n.val c.val) 26 = false →
      ((s.ac n.val c.val).cont && s.rb (R.AC_MODE n.val c.val) 1) = false →
      ∃ t, exec (.adcTrigger n c false) s = .next t
        ∧ ((t.ac n.val c.val).dueReg = some (s.absTick + (if s.rf (R.AC_TRIG n.val c.val) 15 14 = 2 then 1 else 0) + 1 + s.rf (R.AC_TRIG n.val c.val) 31 16))
        ∧ (t.ac n.val c.val).dueInj = (s.ac n.val c.val).dueInj
        ∧ RegsBut [] s t
        ∧ SameBut [.acs] s t)
  ∧ (∀ (n : Fin 16) (c : Fin 2) (s : State),
      s.islandRuns n.val = true →
      s.beatRuns = true →
      s.rb (R.AC_CTRL n.val c.val) 31 = true →
      s.rf (R.AC_TRIG n.val c.val) 15 14 ≠ 3 →
      s.acWorks n.val c.val = true →
      s.acBusy n.val c.val = true →
      ((s.ac n.val c.val).cont && s.rb (R.AC_MODE n.val c.val) 1) = false →
      ∃ t, exec (.adcTrigger n c false) s = .next t
        ∧ t.rb (R.AC_STATUS n.val c.val) 2 = true
        ∧ RegsBut [R.AC_STATUS n.val c.val] s t
        ∧ SameBut [.regs, .scCount] s t)
  ∧ (∀ (n : Fin 16) (c : Fin 2) (s : State),
      s.acWorks n.val c.val = true →
      ((s.ac n.val c.val).cont && s.rb (R.AC_MODE n.val c.val) 1) = true →
      exec (.adcTrigger n c false) s = .next s)
  ∧ (∀ (n : Fin 16) (c : Fin 2) (s : State),
      s.islandRuns n.val = true →
      s.beatRuns = true →
      s.rb (R.AC_CTRL n.val c.val) 31 = true →
      s.rf (R.AC_TRIG_INJ n.val c.val) 15 14 ≠ 3 →
      s.acWorks n.val c.val = true →
      s.acReg n.val c.val = true →
      s.acInjBusy n.val c.val = false →
      (s.ac n.val c.val).dueInj = none →
      ∃ t, exec (.adcTrigger n c true) s = .next t
        ∧ ((t.ac n.val c.val).dueInj = some (s.absTick + (if s.rf (R.AC_TRIG_INJ n.val c.val) 15 14 = 2 then 1 else 0) + 1 + s.rf (R.AC_TRIG_INJ n.val c.val) 31 16))
        ∧ (t.ac n.val c.val).dueReg = (s.ac n.val c.val).dueReg
        ∧ RegsBut [] s t
        ∧ SameBut [.acs] s t)
  ∧ (∀ (n : Fin 16) (c : Fin 2) (x : Nat) (s : State),
      (s.ac n.val c.val).dueReg = some x →
      x ≤ s.absTick →
      ∃ t, exec (.triggerDue n c false) s = .next t
        ∧ (t.ac n.val c.val).dueReg = none
        ∧ (s.acInjBusy n.val c.val = true → t.rb (R.AC_STATE n.val c.val) 26 = true ∧ (t.ac n.val c.val).slot = (s.ac n.val c.val).slot)
        ∧ (s.acInjBusy n.val c.val = false → t.acBusy n.val c.val = true ∧ (t.ac n.val c.val).ordReg = x)
        ∧ (s.acInjBusy n.val c.val = false → (s.ac n.val c.val).slot = none → s.acSets n.val (s.acCore n.val c.val) = [c.val] → (t.ac n.val c.val).slot = some 0 ∧ (t.ac n.val c.val).slotInj = false)
        ∧ t.mem = s.mem)
  ∧ (∀ (n : Fin 16) (c : Fin 2) (x : Nat) (s : State),
      (s.ac n.val c.val).dueInj = some x →
      x ≤ s.absTick →
      ∃ t, exec (.triggerDue n c true) s = .next t
        ∧ (t.ac n.val c.val).dueInj = none
        ∧ t.acInjBusy n.val c.val = true
        ∧ (t.ac n.val c.val).ordInj = x
        ∧ ((s.ac n.val c.val).slot = none → s.acSets n.val (s.acCore n.val c.val) = [c.val] → (t.ac n.val c.val).slot = some 12 ∧ (t.ac n.val c.val).slotInj = true)
        ∧ t.mem = s.mem)
  ∧ (∀ (n : Fin 16) (c : Fin 2) (x : Conversion) (i : Fin 16) (cfg : Word) (ref scale : Nat) (v : Int) (code : Nat) (s : State),
      s.Sound →
      s.islandRuns n.val = true →
      s.beatRuns = true →
      (s.ac n.val c.val).slot = some i.val →
      (s.ac n.val c.val).slotCfg = cfg →
      (s.ac n.val c.val).hosted = false →
      acChannel (fld cfg 4 0) = true →
      (∀ g : Fin 4, s.reg (R.AC_CAL_GAINg n.val c.val g.val) = 0#32) →
      (∀ k : Fin 8, s.reg (R.AC_CAL_LINk n.val c.val k.val) = 0#32) →
      ref = (if s.rb (R.AC_MODE n.val c.val) 2 then x.vref.toNat else 2500000000) →
      scale = (if acDifferential (fld cfg 4 0) then 32768 else 65536) →
      2 * (x.vin.toInt * 2 ^ fld cfg 25 24 * scale - v * ref).natAbs < ref →
      code = (clampI 0 65535 ((if acDifferential (fld cfg 4 0) then clampI (-32768) 32767 v + 32768 else clampI 0 65535 v)
        + x.err.toInt)).toNat →
      ∃ t, exec (.conversionDone n c x) s = .next t
        ∧ (t.rf (R.AC_DATA n.val c.val) 15 0 = if acDifferential (fld cfg 4 0) then (code + 32768) % 65536 else code)
        ∧ t.rf (R.AC_DATA n.val c.val) 20 16 = i.val
        ∧ t.rb (R.AC_DATA n.val c.val) 29 = (s.ac n.val c.val).slotInj
        ∧ t.rf (R.AC_SI_SUB n.val c.val) 31 16 = (s.rf (R.AC_SI_SUB n.val c.val) 31 16 + 1) % 65536
        ∧ (t.ac n.val c.val).convs = (s.ac n.val c.val).convs + 1
        ∧ t.mem = s.mem)
  ∧ (∀ (n : Fin 16) (c : Fin 2) (raw again : BitVec 16) (s : State),
      s.islandRuns n.val = true →
      s.beatRuns = true →
      s.rb (R.AC_CTRL n.val c.val) 31 = true →
      s.acSets n.val c.val = [c.val] →
      s.acRole n.val c.val ≠ 2 →
      (s.ac n.val c.val).slot = none →
      s.checkOwed n.val c.val = true →
      s.dueIn (.ac n.val c.val) = false →
      (∀ g : Fin 4, s.reg (R.AC_CAL_GAINg n.val c.val g.val) = 0#32) →
      (∀ k : Fin 8, s.reg (R.AC_CAL_LINk n.val c.val k.val) = 0#32) →
      ((raw.toNat : Int) - ((if (s.ac n.val c.val).ground then 0 else 32768) : Int)).natAbs ≤ 4 * s.rf (R.AC_MODE n.val c.val) 23 16 →
      ∃ t, exec (.referenceCheck n c raw again) s = .next t
        ∧ t.rf (R.AC_CHK n.val c.val) 31 16 = (s.rf (R.AC_CHK n.val c.val) 31 16 + 1) % 65536
        ∧ (t.ac n.val c.val).ground = !(s.ac n.val c.val).ground
        ∧ (t.ac n.val c.val).convs = 0
        ∧ (t.ac n.val c.val).lastCheck = s.clk.beat
        ∧ t.acRole n.val c.val = s.acRole n.val c.val
        ∧ t.due = s.due
        ∧ t.mem = s.mem)
  ∧ (∀ (n : Fin 16) (c : Fin 2) (raw again : BitVec 16) (s : State),
      s.islandRuns n.val = true →
      s.beatRuns = true →
      s.rb (R.AC_CTRL n.val c.val) 31 = true →
      s.acSets n.val c.val = [c.val] →
      s.acRole n.val c.val ≠ 2 →
      (s.ac n.val c.val).slot = none →
      s.checkOwed n.val c.val = true →
      s.dueIn (.ac n.val c.val) = false →
      (∀ g : Fin 4, s.reg (R.AC_CAL_GAINg n.val c.val g.val) = 0#32) →
      (∀ k : Fin 8, s.reg (R.AC_CAL_LINk n.val c.val k.val) = 0#32) →
      (¬ ((raw.toNat : Int) - ((if (s.ac n.val c.val).ground then 0 else 32768) : Int)).natAbs ≤ 4 * s.rf (R.AC_MODE n.val c.val) 23 16) →
      ((again.toNat : Int) - ((if (s.ac n.val c.val).ground then 0 else 32768) : Int)).natAbs ≤ 4 * s.rf (R.AC_MODE n.val c.val) 23 16 →
      (s.ac n.val c.val).window = [] →
      ∃ t, exec (.referenceCheck n c raw again) s = .next t
        ∧ t.rb (R.AC_STATUS n.val c.val) 4 = true
        ∧ (t.ac n.val c.val).window = [s.clk.beat]
        ∧ (t.ac n.val c.val).ground = !(s.ac n.val c.val).ground
        ∧ t.acRole n.val c.val = s.acRole n.val c.val
        ∧ (.faultReport (Fin.ofNat 8192 (acSource n.val c.val)) (Fin.ofNat 8192 (acSource n.val c.val)) 4 (t.reg (R.AC_CHK n.val c.val)) : Instr) ∈ t.due)
  ∧ (∀ (n : Fin 16) (c : Fin 2) (raw again : BitVec 16) (s : State),
      s.islandRuns n.val = true →
      s.beatRuns = true →
      s.rb (R.AC_CTRL n.val c.val) 31 = true →
      s.acSets n.val c.val = [c.val] →
      s.acRole n.val c.val ≠ 2 →
      (s.ac n.val c.val).slot = none →
      s.checkOwed n.val c.val = true →
      (∀ g : Fin 4, s.reg (R.AC_CAL_GAINg n.val c.val g.val) = 0#32) →
      (∀ k : Fin 8, s.reg (R.AC_CAL_LINk n.val c.val k.val) = 0#32) →
      (¬ ((raw.toNat : Int) - ((if (s.ac n.val c.val).ground then 0 else 32768) : Int)).natAbs ≤ 4 * s.rf (R.AC_MODE n.val c.val) 23 16) →
      (¬ ((again.toNat : Int) - ((if (s.ac n.val c.val).ground then 0 else 32768) : Int)).natAbs ≤ 4 * s.rf (R.AC_MODE n.val c.val) 23 16) →
      ∃ t, exec (.referenceCheck n c raw again) s = .next t
        ∧ t.acRole n.val c.val = 2
        ∧ t.rb (R.AC_STATUS n.val c.val) 5 = true
        ∧ (t.ac n.val c.val).slot = none)
  ∧ (∀ (n : Fin 16) (c : Fin 2) (s : State),
      s.acTakeable n.val (1 - c.val) = true →
      ∃ t, exec (.takeover n c) s = .next t
        ∧ (t.ac n.val (1 - c.val)).hosted = true
        ∧ t.acRole n.val c.val = 1
        ∧ t.rb (R.AC_STATUS n.val c.val) 6 = true
        ∧ t.mem = s.mem)
  ∧ (∀ (n : Fin 16) (c : Fin 2) (s : State),
      s.acTakeable n.val (1 - c.val) = false →
      exec (.takeover n c) s = .next (s))
  ∧ (∀ (m : Master) (n : Fin 16) (c : Fin 2) (v : Word) (s : State) (r : RegRow),
      s.Writes m (.ac n.val c.val) r (R.AC_CTRL n.val c.val) →
      s.Sound →
      (bit v 31 = false ∨ s.rb (R.AC_CAL n.val c.val) 30 = false) →
      ∃ t, exec (.converterEnable m n c v) s = .next t
        ∧ t.reg (R.AC_CTRL n.val c.val) = v &&& 0x80000001#32
        ∧ (bit v 31 = true → s.rb (R.AC_CTRL n.val c.val) 31 = false → t.rf (R.AC_SI_SUB n.val c.val) 31 16 = 0)
        ∧ (bit v 31 = false → (t.ac n.val c.val).dueReg = none ∧ (t.ac n.val c.val).dueInj = none)
        ∧ t.mem = s.mem
        ∧ t.reply = some ⟨m, .done⟩)
  ∧ (∀ (m : Master) (n : Fin 16) (c : Fin 2) (v : Word) (s : State) (r : RegRow),
      s.Writes m (.ac n.val c.val) r (R.AC_CTRL n.val c.val) →
      bit v 31 = true →
      s.rb (R.AC_CAL n.val c.val) 30 = true →
      ∃ t, exec (.converterEnable m n c v) s = .next t
        ∧ t.rb (R.AC_STATUS n.val c.val) 9 = true
        ∧ RegsBut [R.AC_STATUS n.val c.val] s t
        ∧ SameBut [.regs, .scCount, .reply] s t
        ∧ t.reply = some ⟨m, .done⟩)
  ∧ (∀ (m : Master) (n : Fin 16) (c : Fin 2) (s : State) (r : RegRow),
      s.Reads m (.ac n.val c.val) r (R.AC_DATA n.val c.val) →
      ∃ t, exec (.acDataRead m n c) s = .next t
        ∧ t.reply = some ⟨m, .data (s.reg (R.AC_DATA n.val c.val))⟩
        ∧ t.rb (R.AC_DATA n.val c.val) 31 = false
        ∧ t.rf (R.AC_DATA n.val c.val) 30 0 = s.rf (R.AC_DATA n.val c.val) 30 0
        ∧ RegsBut [R.AC_DATA n.val c.val] s t
        ∧ SameBut [.regs, .domRegs, .reply] s t)
  ∧ (∀ (m : Master) (n : Fin 16) (c : Fin 2) (v : Word) (s : State) (r : RegRow),
      s.Writes m (.ac n.val c.val) r (R.AC_CAL n.val c.val) →
      ∃ t, exec (.calibrationStart m n c v) s = .next t
        ∧ (s.rb (R.AC_CTRL n.val c.val) 31 = false → t.rb (R.AC_CAL n.val c.val) 30 = true ∧ t.rb (R.AC_STATE n.val c.val) 29 = true ∧ (t.ac n.val c.val).calOk = false)
        ∧ (s.rb (R.AC_CTRL n.val c.val) 31 = true → t.rb (R.AC_STATUS n.val c.val) 9 = true ∧ t.acs = s.acs ∧ t.reg (R.AC_CAL n.val c.val) = s.reg (R.AC_CAL n.val c.val))
        ∧ RegsBut [R.AC_CAL n.val c.val, R.AC_STATE n.val c.val, R.AC_STATUS n.val c.val] s t
        ∧ SameBut [.regs, .scCount, .acs, .reply] s t
        ∧ t.reply = some ⟨m, .done⟩)
  ∧ (∀ (n : Fin 16) (c : Fin 2) (ok : Bool) (temp : BitVec 16) (gains : Vector Word 4) (lins : Vector Word 8) (s : State),
      s.rb (R.AC_CAL n.val c.val) 30 = true →
      ∃ t, exec (.calibrationDone n c ok temp gains lins) s = .next t
        ∧ t.rb (R.AC_CAL n.val c.val) 30 = false
        ∧ t.rb (R.AC_STATE n.val c.val) 29 = false
        ∧ (t.ac n.val c.val).calOk = ok
        ∧ (ok = true → t.reg (R.AC_CAL n.val c.val) = w32 (2 ^ 29 + temp.toNat) ∧ t.rb (R.AC_STATUS n.val c.val) 7 = true
            ∧ (∀ g : Fin 4, t.reg (R.AC_CAL_GAINg n.val c.val g.val) = gains.toList.getD g.val 0)
            ∧ ∀ k : Fin 8, t.reg (R.AC_CAL_LINk n.val c.val k.val) = lins.toList.getD k.val 0)
        ∧ (ok = false → t.rb (R.AC_STATUS n.val c.val) 8 = true ∧ RegsBut [R.AC_CAL n.val c.val, R.AC_STATE n.val c.val, R.AC_STATUS n.val c.val] s t)
        ∧ t.mem = s.mem)
  ∧ (∀ (n : Fin 16) (c : Fin 2) (temp : BitVec 16) (s : State),
      s.islandRuns n.val = true →
      s.beatRuns = true →
      s.rb (R.AC_CAL n.val c.val) 29 = true →
      s.rb (R.AC_CAL n.val c.val) 28 = false →
      ∃ t, exec (.driftCheck n c temp) s = .next t
        ∧ (320 < (temp.toInt - sextN 16 (s.rf (R.AC_CAL n.val c.val) 15 0)).natAbs → t.rb (R.AC_CAL n.val c.val) 28 = true ∧ t.rb (R.AC_STATUS n.val c.val) 10 = true)
        ∧ ((temp.toInt - sextN 16 (s.rf (R.AC_CAL n.val c.val) 15 0)).natAbs ≤ 320 → t.regs = s.regs ∧ t.due = s.due)
        ∧ RegsBut [R.AC_CAL n.val c.val, R.AC_STATUS n.val c.val] s t
        ∧ SameBut [.regs, .scCount, .due, .pulses] s t)

/-- R210 to R217: demodulators and comparators. (08_analog_front_end.md) -/
def Obligations.DemodulatorAndComparatorCommands : Prop :=
  (∀ (n : Fin 16) (d : Fin 4) (samples : List (Bool × Bool)) (raw : Word) (s : State),
      s.sdClocked n.val d.val = true →
      s.sdWindowOver n.val d.val samples.length = true →
      raw = wOfInt (sinc3Of (s.osr3 n.val d.val) (((s.sdSamples n.val d.val samples).reverse ++ (s.sdRec n.val d.val).hist3).take 766)) →
      ∃ t, exec (.sinc3Result n d samples) s = .next t
        ∧ t.reg (R.SD_DATA n.val d.val) = raw.sshiftRight (s.rf (R.SD_CFG n.val d.val) 27 24)
        ∧ t.rf (R.SD_STATE n.val d.val) 15 0 = (s.rf (R.SD_STATE n.val d.val) 15 0 + 1) % 65536
        ∧ (s.rb (R.SD_STATE n.val d.val) 31 = true → s.rb (R.SD_CFG n.val d.val) 29 = true → t.rb (R.SD_STATUS n.val d.val) 1 = true)
        ∧ Fires (256 * n.val + 0xB0 + 4 * d.val) s t
        ∧ RegsBut [R.SD_DATA n.val d.val, R.SD_STATE n.val d.val, R.SD_STATUS n.val d.val] s t
        ∧ SameBut [.regs, .scCount, .les, .sds, .due, .pulses] s t)
  ∧ (∀ (n : Fin 16) (d : Fin 4) (samples : List (Bool × Bool)) (raw : Word) (s : State),
      s.sdClocked n.val d.val = true →
      s.sdFastOver n.val d.val samples.length = true →
      raw = wOfInt (sinc2Of (s.osr2 n.val d.val) (((s.sdSamples n.val d.val samples).reverse ++ (s.sdRec n.val d.val).hist2).take 63)) →
      ∃ t, exec (.sinc2Result n d samples) s = .next t
        ∧ t.reg (R.SD_FAST n.val d.val) = raw
        ∧ t.rb (R.SD_STATE n.val d.val) 30 = decide (sextN 16 (s.rf (R.SD_OC n.val d.val) 31 16) < raw.toInt)
        ∧ t.rb (R.SD_STATE n.val d.val) 29 = decide (raw.toInt < sextN 16 (s.rf (R.SD_OC n.val d.val) 15 0))
        ∧ ((t.rb (R.SD_STATE n.val d.val) 30 || t.rb (R.SD_STATE n.val d.val) 29) = true → t.rb (R.SD_STATUS n.val d.val) 2 = true)
        ∧ RegsBut [R.SD_FAST n.val d.val, R.SD_STATE n.val d.val, R.SD_STATUS n.val d.val] s t
        ∧ SameBut [.regs, .scCount, .sds, .due, .pulses] s t)
  ∧ (∀ (n : Fin 16) (d : Fin 4) (samples : List (Bool × Bool)) (s : State),
      (s.sdClocked n.val d.val = false ∨ (s.sdWindowOver n.val d.val samples.length = false ∧ s.sdFastOver n.val d.val samples.length = false)) →
      exec (.sinc3Result n d samples) s = .next s ∧ exec (.sinc2Result n d samples) s = .next s)
  ∧ (∀ (n : Fin 16) (d : Fin 4) (s : State),
      s.sdOn n.val d.val = true →
      ∃ t, exec (.sdSync n d) s = .next t
        ∧ (t.sdRec n.val d.val).due = some (s.absTick + if s.rf (R.SD_SYNC n.val d.val) 15 14 = 2 then 2 else 1)
        ∧ RegsBut [] s t
        ∧ SameBut [.sds] s t)
  ∧ (∀ (m : Master) (n : Fin 16) (d : Fin 4) (s : State) (r : RegRow),
      s.Reads m (.sd n.val d.val) r (R.SD_DATA n.val d.val) →
      ∃ t, exec (.sdDataRead m n d) s = .next t
        ∧ t.reply = some ⟨m, .data (s.reg (R.SD_DATA n.val d.val))⟩
        ∧ t.rb (R.SD_STATE n.val d.val) 31 = false
        ∧ RegsBut [R.SD_STATE n.val d.val] s t
        ∧ SameBut [.regs, .domRegs, .reply] s t)
  ∧ (∀ (n : Fin 16) (d : Fin 4) (s : State),
      s.sdOn n.val d.val = true →
      ∃ t, exec (.sdClockLost n d) s = .next t
        ∧ t.rb (R.SD_STATE n.val d.val) 28 = false
        ∧ t.rb (R.SD_STATUS n.val d.val) 3 = true
        ∧ Fires (256 * n.val + 0xB0 + 4 * d.val + 3) s t
        ∧ RegsBut [R.SD_STATE n.val d.val, R.SD_STATUS n.val d.val] s t
        ∧ SameBut [.regs, .scCount, .due, .pulses] s t)
  ∧ (∀ (n : Fin 16) (d : Fin 4) (s : State),
      s.sdClocked n.val d.val = true →
      ∃ t, exec (.sdClockRestored n d) s = .next t
        ∧ t.rb (R.SD_STATE n.val d.val) 28 = true
        ∧ RegsBut [R.SD_STATE n.val d.val] s t
        ∧ SameBut [.regs] s t)
  ∧ (∀ (n : Fin 16) (d : Fin 4) (s : State),
      s.sdClocked n.val d.val = true →
      ∃ t, exec (.sdSaturation n d) s = .next t
        ∧ t.rb (R.SD_STATUS n.val d.val) 4 = true
        ∧ Fires (256 * n.val + 0xB0 + 4 * d.val + 3) s t
        ∧ RegsBut [R.SD_STATUS n.val d.val] s t
        ∧ SameBut [.regs, .scCount, .due, .pulses] s t)
  ∧ (∀ (n : Fin 16) (c : Fin 8) (x : InputVoltage) (thr h v : Int) (d : Bool) (s : State),
      s.islandRuns n.val = true →
      s.rb (R.CP_CFG n.val c.val) 31 = true →
      s.device ≠ .watch →
      s.rf (R.CP_CFG n.val c.val) 2 0 = x.ain.val →
      s.rf (R.CP_CFG n.val c.val) 7 4 = 0 →
      thr = s.rf (R.CP_THR n.val c.val) 11 0 * 2500000 →
      h = 4096 * cpHyst (s.rf (R.CP_CFG n.val c.val) 25 24) →
      v = 4096 * x.vin.toInt →
      d = (if s.rb (R.CP_CFG n.val c.val) 30 then (if v < thr then true else if thr + h < v then false else (s.cp n.val c.val).dec)
        else if thr < v then true else if v < thr - h then false else (s.cp n.val c.val).dec) →
      ∃ t, exec (.comparatorTransition n c x) s = .next t
        ∧ (t.cp n.val c.val).dec = d
        ∧ (t.cp n.val c.val).raw = d
        ∧ ((s.rb (R.CP_STATE n.val c.val) 30 || s.rb (R.CP_STATE n.val c.val) 29) = false → t.rb (R.CP_STATE n.val c.val) 31 = d)
        ∧ ((s.rb (R.CP_STATE n.val c.val) 30 || s.rb (R.CP_STATE n.val c.val) 29) = false → s.rb (R.CP_STATE n.val c.val) 31 ≠ d → t.rb (R.CP_STATUS n.val c.val) (if d then 1 else 2) = true)
        ∧ ((s.rb (R.CP_STATE n.val c.val) 30 || s.rb (R.CP_STATE n.val c.val) 29) = true → t.regs = s.regs ∧ t.due = s.due)
        ∧ RegsBut [R.CP_STATE n.val c.val, R.CP_STATUS n.val c.val] s t
        ∧ SameBut [.regs, .scCount, .cps, .fab, .due, .pulses] s t)
  ∧ (∀ (n : Fin 16) (c : Fin 8) (x : InputVoltage) (d : Bool) (s : State),
      s.islandRuns n.val = true →
      s.rb (R.CP_CFG n.val c.val) 31 = true →
      s.device ≠ .watch →
      s.rf (R.CP_CFG n.val c.val) 2 0 = x.ain.val →
      s.rf (R.CP_CFG n.val c.val) 7 4 ≠ 0 →
      d = s.cpDecision n.val c.val x.vin.toInt →
      ∃ t, exec (.comparatorTransition n c x) s = .next t
        ∧ (t.cp n.val c.val).dec = d
        ∧ (d = (s.cp n.val c.val).raw → (t.cp n.val c.val).filt = none)
        ∧ (d ≠ (s.cp n.val c.val).raw → (s.cp n.val c.val).filt = none →
            (t.cp n.val c.val).filt = some (d, s.absTick + s.rf (R.CP_CFG n.val c.val) 7 4))
        ∧ RegsBut [] s t
        ∧ SameBut [.cps] s t)
  ∧ (∀ (n : Fin 16) (c : Fin 8) (x : InputVoltage) (s : State),
      s.islandRuns n.val = true →
      s.rb (R.CP_CFG n.val c.val) 31 = true →
      s.device = .watch →
      s.rf (R.CP_CFG n.val c.val) 2 0 = x.ain.val →
      s.rb (R.CP_CFG n.val c.val) 29 = true →
      c.val < 2 →
      ∃ t, exec (.comparatorTransition n c x) s = .next t
        ∧ t.rb (R.CP_STATE n.val c.val) 31 = s.cpDecision n.val c.val x.vin.toInt
        ∧ RegsBut [R.CP_STATE n.val c.val, R.CP_STATUS n.val c.val] s t
        ∧ SameBut [.regs, .scCount, .cps, .fab, .due, .pulses] s t)
  ∧ (∀ (n : Fin 16) (c : Fin 8) (x : InputVoltage) (s : State),
      (s.rb (R.CP_CFG n.val c.val) 31 = false ∨ s.rf (R.CP_CFG n.val c.val) 2 0 ≠ x.ain.val) →
      exec (.comparatorTransition n c x) s = .next s)
  ∧ (∀ (n : Fin 16) (c : Fin 8) (s : State),
      s.rb (R.CP_STATE n.val c.val) 30 = true →
      ∃ t, exec (.blankingExpiry n c) s = .next t
        ∧ t.rb (R.CP_STATE n.val c.val) 30 = false
        ∧ (t.cp n.val c.val).blankEnd = none
        ∧ (s.rb (R.CP_STATE n.val c.val) 29 = false → s.rb (R.CP_CFG n.val c.val) 31 = true → t.rb (R.CP_STATE n.val c.val) 31 = (s.cp n.val c.val).raw)
        ∧ (s.rb (R.CP_STATE n.val c.val) 29 = true → t.rb (R.CP_STATE n.val c.val) 31 = s.rb (R.CP_STATE n.val c.val) 31 ∧ t.due = s.due)
        ∧ RegsBut [R.CP_STATE n.val c.val, R.CP_STATUS n.val c.val] s t
        ∧ SameBut [.regs, .scCount, .cps, .fab, .due, .pulses] s t)
  ∧ (∀ (n : Fin 16) (c : Fin 8) (vin : Word) (active : Bool) (s : State),
      s.rb (R.CP_STATE n.val c.val) 29 = true →
      active = s.cpDecision n.val c.val vin.toInt →
      ∃ t, exec (.settlingEnd n c vin) s = .next t
        ∧ (t.cp n.val c.val).dec = active
        ∧ t.rb (R.CP_STATE n.val c.val) 29 = false
        ∧ (t.cp n.val c.val).raw = active
        ∧ (s.rb (R.CP_STATE n.val c.val) 30 = false → s.rb (R.CP_CFG n.val c.val) 31 = true → t.rb (R.CP_STATE n.val c.val) 31 = active)
        ∧ (s.rb (R.CP_STATE n.val c.val) 30 = true → t.rb (R.CP_STATE n.val c.val) 31 = s.rb (R.CP_STATE n.val c.val) 31 ∧ t.due = s.due)
        ∧ RegsBut [R.CP_STATE n.val c.val, R.CP_STATUS n.val c.val] s t
        ∧ SameBut [.regs, .scCount, .cps, .fab, .due, .pulses] s t)

/-- R225 to R243: encoder ports, position compare and mark inputs. (09_position_interfaces.md) -/
def Obligations.PositionCommands : Prop :=
  (∀ (n : Fin 16) (q : Fin 2) (a b : Bool) (ago : Word) (s : State),
      s.eqOn n.val q.val = true →
      s.eqMode n.val q.val < 5 →
      (s.eq n.val q.val).filtA = none →
      (s.eq n.val q.val).filtB = none →
      s.eqAccepts n.val q.val (s.nowFine - ago.toNat) = true →
      countChange (s.eqMode n.val q.val) (s.eq n.val q.val).a (s.eq n.val q.val).b a b ≠ 0 →
      (s.eqMode n.val q.val < 3 → (s.eq n.val q.val).a = a ∨ (s.eq n.val q.val).b = b) →
      tooClose (s.eq n.val q.val).lastA (s.nowFine - ago.toNat) = false →
      tooClose (s.eq n.val q.val).lastB (s.nowFine - ago.toNat) = false →
      s.pcState n.val q.val ≠ 1 →
      ∃ t, exec (.encoderEdge n q a b ago) s = .next t
        ∧ (t.reg (R.EQ_COUNT n.val q.val) = s.reg (R.EQ_COUNT n.val q.val) + BitVec.ofInt 32 (if s.rb (R.EQ_CFG n.val q.val) 31 then -countChange (s.eqMode n.val q.val) (s.eq n.val q.val).a (s.eq n.val q.val).b a b else countChange (s.eqMode n.val q.val) (s.eq n.val q.val).a (s.eq n.val q.val).b a b))
        ∧ (t.eq n.val q.val).a = a ∧ (t.eq n.val q.val).b = b
        ∧ t.reg (R.EQ_EDGE_T n.val q.val) = lo64 (s.stampT n.val (s.nowFine - ago.toNat)).toNat
        ∧ (t.eq n.val q.val).lastCount = some (s.nowFine - ago.toNat)
        ∧ t.rb (R.EQ_PC_CTRL n.val q.val) 2 = false
        ∧ RegsBut [R.EQ_COUNT n.val q.val, R.EQ_EDGE_T n.val q.val, R.EQ_EDGE_PERIOD n.val q.val, R.EQ_PC_CTRL n.val q.val] s t
        ∧ SameBut [.regs, .eqs] s t)
  ∧ (∀ (n : Fin 16) (q : Fin 2) (a b : Bool) (ago : Word) (s : State),
      s.eqOn n.val q.val = true →
      s.eqMode n.val q.val < 3 →
      (s.eq n.val q.val).filtA = none →
      (s.eq n.val q.val).filtB = none →
      s.eqAccepts n.val q.val (s.nowFine - ago.toNat) = true →
      (s.eq n.val q.val).a ≠ a →
      (s.eq n.val q.val).b ≠ b →
      ∃ t, exec (.encoderEdge n q a b ago) s = .next t
        ∧ t.rb (R.EQ_STATUS n.val q.val) 1 = true
        ∧ (t.eq n.val q.val).a = a ∧ (t.eq n.val q.val).b = b
        ∧ RegsBut [R.EQ_STATUS n.val q.val] s t
        ∧ SameBut [.regs, .scCount, .eqs, .due, .pulses] s t)
  ∧ (∀ (n : Fin 16) (q : Fin 2) (a b : Bool) (ago : Word) (s : State),
      s.eqOn n.val q.val = true →
      (s.eq n.val q.val).filtA = none →
      (s.eq n.val q.val).filtB = none →
      s.eqAccepts n.val q.val (s.nowFine - ago.toNat) = false →
      ∃ t, exec (.encoderEdge n q a b ago) s = .next t
        ∧ (t.eq n.val q.val).filtA = (if a = (s.eq n.val q.val).a then none else some (s.nowFine - ago.toNat))
        ∧ (t.eq n.val q.val).filtB = (if b = (s.eq n.val q.val).b then none else some (s.nowFine - ago.toNat))
        ∧ (t.eq n.val q.val).a = (s.eq n.val q.val).a ∧ (t.eq n.val q.val).b = (s.eq n.val q.val).b
        ∧ RegsBut [] s t
        ∧ SameBut [.eqs] s t)
  ∧ (∀ (n : Fin 16) (q : Fin 2) (s : State),
      s.eqOn n.val q.val = true →
      s.eqMode n.val q.val < 5 →
      (s.rb (R.EQ_CFG n.val q.val) 25 = false ∨ ((s.eq n.val q.val).a && (s.eq n.val q.val).b) = true) →
      ∃ t, exec (.encoderIndex n q) s = .next t
        ∧ t.reg (R.EQ_INDEX_COUNT n.val q.val) = s.reg (R.EQ_COUNT n.val q.val)
        ∧ t.rb (R.EQ_STATUS n.val q.val) 4 = true
        ∧ (s.rf (R.EQ_CFG n.val q.val) 27 26 = 2 → t.reg (R.EQ_COUNT n.val q.val) = 0#32)
        ∧ (s.rf (R.EQ_CFG n.val q.val) 27 26 = 1 → t.reg (R.EQ_COUNT n.val q.val) = (if (s.eq n.val q.val).resetNext then 0#32 else s.reg (R.EQ_COUNT n.val q.val)) ∧ (t.eq n.val q.val).resetNext = false)
        ∧ (s.rf (R.EQ_CFG n.val q.val) 27 26 = 0 ∨ s.rf (R.EQ_CFG n.val q.val) 27 26 = 3 → t.reg (R.EQ_COUNT n.val q.val) = s.reg (R.EQ_COUNT n.val q.val))
        ∧ t.mem = s.mem)
  ∧ (∀ (m : Master) (n : Fin 16) (q : Fin 2) (v : Word) (s : State) (r : RegRow),
      s.Writes m (.eq n.val q.val) r (R.EQ_PRESET n.val q.val) →
      ∃ t, exec (.eqPresetWrite m n q v) s = .next t
        ∧ t.reg (R.EQ_COUNT n.val q.val) = v
        ∧ RegsBut [R.EQ_COUNT n.val q.val, R.EQ_PC_CTRL n.val q.val] s t
        ∧ SameBut [.regs, .eqs, .reply] s t
        ∧ t.reply = some ⟨m, .done⟩)
  ∧ (∀ (n : Fin 16) (q : Fin 2) (dataHigh : Bool) (s : State),
      s.eqOn n.val q.val = true →
      s.eqMode n.val q.val = 5 →
      (s.eq n.val q.val).ssiRun = none →
      (s.eq n.val q.val).ssiWait = none →
      ∃ t, exec (.ssiTrigger n q dataHigh) s = .next t
        ∧ (dataHigh = true → (t.eq n.val q.val).ssiRun = some (s.absTick + 5 - s.clk.tick.val) ∧ t.reg (R.EQ_SSI_T n.val q.val) = lo64 (s.islandTime n.val + 4#64).toNat)
        ∧ (dataHigh = false → (t.eq n.val q.val).ssiRun = none ∧ (t.eq n.val q.val).ssiWait = some s.absTick ∧ t.regs = s.regs)
        ∧ RegsBut [R.EQ_SSI_T n.val q.val] s t
        ∧ SameBut [.regs, .eqs] s t)
  ∧ (∀ (n : Fin 16) (q : Fin 2) (dataHigh : Bool) (s : State),
      s.eqOn n.val q.val = true →
      s.eqMode n.val q.val = 5 →
      ((s.eq n.val q.val).ssiRun ≠ none ∨ (s.eq n.val q.val).ssiWait ≠ none) →
      ∃ t, exec (.ssiTrigger n q dataHigh) s = .next t
        ∧ t.rb (R.EQ_STATUS n.val q.val) 3 = true
        ∧ (t.eq n.val q.val).ssiRun = (s.eq n.val q.val).ssiRun
        ∧ RegsBut [R.EQ_STATUS n.val q.val] s t
        ∧ SameBut [.regs, .scCount, .eqs] s t)
  ∧ (∀ (n : Fin 16) (q : Fin 2) (s : State),
      s.eqOn n.val q.val = true →
      s.eqMode n.val q.val = 5 →
      (s.eq n.val q.val).ssiWait ≠ none →
      ∃ t, exec (.ssiMonoflopEnd n q) s = .next t
        ∧ (t.eq n.val q.val).ssiRun = some (s.absTick + 5 - s.clk.tick.val)
        ∧ (t.eq n.val q.val).ssiWait = none
        ∧ t.reg (R.EQ_SSI_T n.val q.val) = lo64 (s.islandTime n.val + 4#64).toNat
        ∧ RegsBut [R.EQ_SSI_T n.val q.val] s t
        ∧ SameBut [.regs, .eqs] s t)
  ∧ (∀ (n : Fin 16) (q : Fin 2) (x : Nat) (s : State),
      s.eqOn n.val q.val = true →
      (s.eq n.val q.val).ssiWait = some x →
      ∃ t, exec (.ssiTimeout n q) s = .next t
        ∧ (x + s.rf (R.EQ_SSI_TRIG n.val q.val) 31 16 ≤ s.absTick → (t.eq n.val q.val).ssiWait = none ∧ t.rb (R.EQ_STATUS n.val q.val) 2 = true)
        ∧ (s.absTick < x + s.rf (R.EQ_SSI_TRIG n.val q.val) 31 16 → t.regs = s.regs ∧ t.eqs = s.eqs)
        ∧ RegsBut [R.EQ_STATUS n.val q.val] s t
        ∧ SameBut [.regs, .scCount, .eqs, .due, .pulses] s t)
  ∧ (∀ (n : Fin 16) (q : Fin 2) (frame : BitVec 48) (cfg : Word) (s : State),
      s.eqOn n.val q.val = true →
      s.ssiOver n.val q.val = true →
      cfg = (s.ssiRegs n.val q.val).1 →
      ssiBits cfg ≤ 32 →
      ∃ t, exec (.ssiFrameComplete n q frame) s = .next t
        ∧ (t.eq n.val q.val).ssiRun = none
        ∧ (t.eq n.val q.val).ssiFirst = true
        ∧ t.reg (R.EQ_SSI_POS n.val q.val) = w32 (ssiPosition cfg frame.toNat)
        ∧ ((s.eq n.val q.val).ssiFirst = false → t.reg (R.EQ_COUNT n.val q.val) = w32 (ssiPosition cfg frame.toNat))
        ∧ ((s.eq n.val q.val).ssiFirst = true → ssiBits cfg = 32 → bit (s.ssiRegs n.val q.val).2.1 31 = false →
            t.reg (R.EQ_COUNT n.val q.val) = s.reg (R.EQ_COUNT n.val q.val) + (w32 (ssiPosition cfg frame.toNat) - s.reg (R.EQ_SSI_POS n.val q.val)))
        ∧ t.mem = s.mem)
  ∧ (∀ (n : Fin 16) (q : Fin 2) (frame : BitVec 48) (s : State),
      s.ssiOver n.val q.val = false →
      exec (.ssiFrameComplete n q frame) s = .next s)
  ∧ (∀ (m : Master) (n : Fin 16) (q : Fin 2) (v : Word) (s : State) (r : RegRow),
      s.Writes m (.eq n.val q.val) r (R.EQ_PC_CTRL n.val q.val) →
      ∃ t, exec (.compareArm m n q v) s = .next t
        ∧ (t.pcState n.val q.val = (if s.pcState n.val q.val = 0 then 1 else s.pcState n.val q.val))
        ∧ RegsBut [R.EQ_PC_CTRL n.val q.val] s t
        ∧ SameBut [.regs, .reply] s t
        ∧ t.reply = some ⟨m, .done⟩)
  ∧ (∀ (m : Master) (n : Fin 16) (q : Fin 2) (v : Word) (s : State) (r : RegRow),
      s.Writes m (.eq n.val q.val) r (R.EQ_PC_CTRL n.val q.val) →
      ∃ t, exec (.compareDisarm m n q v) s = .next t
        ∧ t.pcState n.val q.val = 0
        ∧ RegsBut [R.EQ_PC_CTRL n.val q.val] s t
        ∧ SameBut [.regs, .reply] s t
        ∧ t.reply = some ⟨m, .done⟩)
  ∧ (∀ (n : Fin 16) (q : Fin 2) (s : State),
      s.eqOn n.val q.val = true →
      s.rb (R.EQ_PC_CFG n.val q.val) 26 = true →
      ∃ t, exec (.compareArmPennant n q) s = .next t
        ∧ (t.pcState n.val q.val = (if s.pcState n.val q.val = 0 then 1 else s.pcState n.val q.val))
        ∧ RegsBut [R.EQ_PC_CTRL n.val q.val] s t
        ∧ SameBut [.regs] s t)
  ∧ (∀ (n : Fin 16) (q : Fin 2) (s : State),
      s.dwellDue n.val q.val = true →
      ∃ t, exec (.dwell n q) s = .next t
        ∧ t.rb (R.EQ_PC_CTRL n.val q.val) 2 = true
        ∧ t.rb (R.EQ_STATUS n.val q.val) 6 = true
        ∧ t.pcState n.val q.val = s.pcState n.val q.val
        ∧ RegsBut [R.EQ_PC_CTRL n.val q.val, R.EQ_STATUS n.val q.val] s t
        ∧ SameBut [.regs, .scCount, .due, .pulses] s t)
  ∧ (∀ (n : Fin 16) (q : Fin 2) (s : State),
      s.pulseOver n.val q.val = false →
      exec (.comparePulseEnd n q) s = .next s)
  ∧ (∀ (n : Fin 16) (q : Fin 2) (s : State),
      s.pulseOver n.val q.val = true →
      ∃ t, exec (.comparePulseEnd n q) s = .next t
        ∧ t.pcOut n.val q.val = false
        ∧ t.reg (R.EQ_PC_CTRL n.val q.val) = s.reg (R.EQ_PC_CTRL n.val q.val)
        ∧ RegsBut [] s t
        ∧ SameBut [.eqs] s t)
  ∧ (∀ (n : Fin 16) (k : Fin 4) (rise : Bool) (ago : Word) (s : State),
      s.islandRuns n.val = true →
      s.beatRuns = true →
      s.rb (R.MK_CFG n.val k.val) 31 = true →
      s.markSource n.val (s.rf (R.MK_CFG n.val k.val) 9 0) = true →
      s.markAccepts n.val k.val (s.nowFine - ago.toNat) = true →
      edgeSelected (s.rf (R.MK_CFG n.val k.val) 11 10) rise = true →
      s.rf (R.MK_CFG n.val k.val) 29 22 ≤ (s.mark n.val k.val).presc →
      (s.mark n.val k.val).lastCap = none →
      ∃ t, exec (.markCapture n k rise ago) s = .next t
        ∧ t.reg (R.MK_T n.val k.val) = lo64 (s.stampT n.val (markInstant (s.nowFine - ago.toNat) (s.rf (R.MK_CFG n.val k.val) 9 0))).toNat
        ∧ t.rf (R.MK_SUB n.val k.val) 31 16 = (s.rf (R.MK_SUB n.val k.val) 31 16 + 1) % 65536
        ∧ t.rb (R.MK_SUB n.val k.val) 9 = rise
        ∧ t.rf (R.MK_SUB n.val k.val) 8 0 = (markInstant (s.nowFine - ago.toNat) (s.rf (R.MK_CFG n.val k.val) 9 0)) % 320
        ∧ t.reg (R.MK_COUNT n.val k.val) = s.countAt n.val (s.rf (R.MK_TRACK n.val k.val) 15 15)
            (markInstant (s.nowFine - ago.toNat) (s.rf (R.MK_CFG n.val k.val) 9 0))
        ∧ (t.mark n.val k.val).consumed = false
        ∧ ((s.mark n.val k.val).consumed = false → t.rb (R.MK_STATUS n.val k.val) 1 = true)
        ∧ ((s.mark n.val k.val).commits.length < 2 → t.rb (R.MK_STATUS n.val k.val) 3 = true ∧ t.reg (R.MK_POS_LO n.val k.val) = s.reg (R.MK_POS_LO n.val k.val))
        ∧ t.mem = s.mem)
  ∧ (∀ (n : Fin 16) (k : Fin 4) (rise : Bool) (ago : Word) (s : State),
      s.islandRuns n.val = true →
      s.beatRuns = true →
      s.rb (R.MK_CFG n.val k.val) 31 = true →
      s.markSource n.val (s.rf (R.MK_CFG n.val k.val) 9 0) = true →
      s.markAccepts n.val k.val (s.nowFine - ago.toNat) = false →
      ∃ t, exec (.markCapture n k rise ago) s = .next t
        ∧ ((s.mark n.val k.val).filt = none → (t.mark n.val k.val).filt = some (rise, s.nowFine - ago.toNat))
        ∧ (∀ f : Nat, (s.mark n.val k.val).filt = some (!rise, f) → (t.mark n.val k.val).filt = none)
        ∧ RegsBut [] s t
        ∧ SameBut [.mks] s t)
  ∧ (∀ (n : Fin 16) (k : Fin 4) (rise : Bool) (ago : Word) (s : State),
      (s.rb (R.MK_CFG n.val k.val) 31 = false ∨ s.markSource n.val (s.rf (R.MK_CFG n.val k.val) 9 0) = false) →
      exec (.markCapture n k rise ago) s = .next s)
  ∧ (∀ (m : Master) (n : Fin 16) (k : Fin 4) (s : State) (r : RegRow),
      s.Reads m (.mk n.val k.val) r (R.MK_POS_LO n.val k.val) →
      ∃ t, exec (.markRead m n k) s = .next t
        ∧ t.reply = some ⟨m, .data (s.reg (R.MK_POS_LO n.val k.val))⟩
        ∧ (t.mark n.val k.val).consumed = true
        ∧ t.domReg (R.MK_POS_HI n.val k.val) (s.domainOf m) = s.reg (R.MK_POS_HI n.val k.val)
        ∧ RegsBut [] s t
        ∧ SameBut [.domRegs, .mks, .reply] s t)

/-- R56, R88: staging writes reach epoch-bound targets only, and an engine has eight contexts. (03_epochs_snapshots.md,
04_loop_engines.md) -/
def Obligations.StepKeepsSound : Prop :=
  State.reset.Sound ∧ ∀ s t : State, s.Sound → step s = .next t → t.Sound

/-- R93, R94, R101, R108, R109, R115: the life of a loop context and of the substitute. (04_loop_engines.md) -/
def Obligations.LoopContextCommands : Prop :=
  (∀ (m : Master) (n : Fin 16) (e : Fin 6) (v : Word) (s : State) (r : RegRow),
      s.Writes m (.le n.val e.val) r (R.LE_RUN n.val e.val) →
      s.Sound →
      s.leSubst n.val ≠ some e.val →
      s.blockTakes (.le n.val e.val) = true →
      ∃ t, exec (.leRunWrite m n e v) s = .next t
        ∧ t.reg (R.LE_RUN n.val e.val) = w32 (s.rf (R.LE_RUN n.val e.val) 7 0 &&& fld v 7 0)
        ∧ (t.le n.val e.val).enabling = fld v 7 0 - (fld v 7 0 &&& s.rf (R.LE_RUN n.val e.val) 7 0)
        ∧ (∀ c : Fin 8, (s.rf (R.LE_RUN n.val e.val) 7 0).testBit c.val = true → (fld v 7 0).testBit c.val = false → ((s.ctx n.val e.val c.val).phase = .waiting ∨ (s.ctx n.val e.val c.val).phase = .runnable) → (t.ctx n.val e.val c.val).phase = .idle)
        ∧ (s.leAtBoundary n.val e.val = true → (s.le n.val e.val).copying = false → ∀ c : Fin 8, (s.rf (R.LE_RUN n.val e.val) 7 0).testBit c.val = false → (fld v 7 0).testBit c.val = true → .contextEnable n e c ∈ t.due)
        ∧ t.domRegs = s.domRegs
        ∧ t.reply = some ⟨m, .done⟩)
  ∧ (∀ (n : Fin 16) (m : Fin 6) (c : Fin 8) (s : State),
      (s.le n.val m.val).enabling.testBit c.val = true →
      s.leAtBoundary n.val m.val = true →
      ∃ t, exec (.contextEnable n m c) s = .next t
        ∧ (t.le n.val m.val).enabling = (s.le n.val m.val).enabling - 2 ^ c.val
        ∧ ((s.chainOf n.val m.val c.val).1 + (s.chainOf n.val m.val c.val).2 ≤ 4096 → t.rb (R.LE_RUN n.val m.val) c.val = true ∧ t.reg (R.LE_CTXc_FIXED n.val m.val c.val) = 0x40000010#32 ∧ (t.ctx n.val m.val c.val) = (if (s.ctx n.val m.val c.val).phase = .held then { (s.ctx n.val m.val c.val) with spare := true } else .reset) ∧ t.scCount = s.scCount)
        ∧ (4096 < (s.chainOf n.val m.val c.val).1 + (s.chainOf n.val m.val c.val).2 → t.rb (R.LE_CTXc_STATUS n.val m.val c.val) 0 = true ∧ t.reg (R.LE_RUN n.val m.val) = s.reg (R.LE_RUN n.val m.val))
        ∧ RegsBut [R.LE_RUN n.val m.val, R.LE_CTXc_FIXED n.val m.val c.val, R.LE_CTXc_STATUS n.val m.val c.val] s t
        ∧ SameBut [.regs, .scCount, .les] s t)
  ∧ (∀ (n : Fin 16) (m : Fin 6) (c : Fin 8) (s : State),
      s.Sound →
      s.ctxOn n.val m.val c.val = true →
      s.leWorks n.val m.val = true →
      (s.ctx n.val m.val c.val).phase = .idle →
      ∃ t, exec (.contextTrigger n m c) s = .next t
        ∧ (t.ctx n.val m.val c.val).phase = .waiting
        ∧ (t.ctx n.val m.val c.val).arrival = s.absTick
        ∧ (t.ctx n.val m.val c.val).freshAc = 0 ∧ (t.ctx n.val m.val c.val).freshSd = 0 ∧ (t.ctx n.val m.val c.val).freshCtx = 0 ∧ (t.ctx n.val m.val c.val).outs = []
        ∧ (t.ctxFresh n.val m.val c.val = true → .inputsFresh n m c ∈ t.due)
        ∧ SameBut [.les, .due] s t)
  ∧ (∀ (n : Fin 16) (m : Fin 6) (c : Fin 8) (s : State),
      s.Sound →
      s.ctxOn n.val m.val c.val = true →
      s.leWorks n.val m.val = true →
      (s.ctx n.val m.val c.val).phase ≠ .idle →
      ∃ t, exec (.contextTrigger n m c) s = .next t
        ∧ t.rb (R.LE_CTXc_STATUS n.val m.val c.val) 1 = true
        ∧ ((t.ctx n.val m.val c.val) = { (s.ctx n.val m.val c.val) with lost := true })
        ∧ RegsBut [R.LE_CTXc_STATUS n.val m.val c.val] s t
        ∧ SameBut [.regs, .scCount, .les] s t)
  ∧ (∀ (n : Fin 16) (m : Fin 6) (c : Fin 8) (s : State),
      s.Sound →
      (s.ctx n.val m.val c.val).phase = .waiting →
      s.ctxFresh n.val m.val c.val = true →
      ∃ t, exec (.inputsFresh n m c) s = .next t
        ∧ ((t.ctx n.val m.val c.val) = { (s.ctx n.val m.val c.val) with phase := .runnable })
        ∧ SameBut [.les] s t)
  ∧ (∀ (n : Fin 16) (m : Fin 6) (c : Fin 8) (s : State),
      s.Sound →
      s.timedOut n.val m.val c.val = true →
      s.ctxFresh n.val m.val c.val = false →
      ∃ t, exec (.contextWaitTimeout n m c) s = .next t
        ∧ ((t.ctx n.val m.val c.val) = { (s.ctx n.val m.val c.val) with phase := .idle, lost := true })
        ∧ t.rb (R.LE_CTXc_STATUS n.val m.val c.val) 2 = true
        ∧ RegsBut [R.LE_CTXc_STATUS n.val m.val c.val] s t
        ∧ SameBut [.regs, .scCount, .les] s t)
  ∧ (∀ (n : Fin 16) (m : Fin 6) (c : Fin 8) (w : Fin 16384) (v : Word) (s : State),
      s.Sound →
      (s.ctx n.val m.val c.val).phase = .held →
      (s.ctx n.val m.val c.val).overrun = false →
      s.releaseTick n.val m.val c.val ≤ s.absTick →
      (s.ctx n.val m.val c.val).lastOut.getD 0 ≤ s.releaseTick n.val m.val c.val →
      ∃ t, exec (.outputRelease n m c) s = .next t
        ∧ (t.ctx n.val m.val c.val).phase = .idle
        ∧ (t.ctx n.val m.val c.val).outs = []
        ∧ t.reg (R.LE_CTXc_COUNT n.val m.val c.val) = s.reg (R.LE_CTXc_COUNT n.val m.val c.val) + 1#32
        ∧ ((s.ctx n.val m.val c.val).outs = [.exchange w.val [v]] → s.XmOpen n.val → s.wordNow w.val = none → s.xmRefusal (s.leDomain n.val m.val) w.val true = none → t.mword (xmAddr w.val) = v))
  ∧ (∀ (m : Master) (n : Fin 16) (e : Fin 6) (c : Fin 8) (v : Word) (s : State) (r : RegRow),
      s.Writes m (.le n.val e.val) r (R.LE_CTXc_LAT n.val e.val c.val) →
      s.blockTakes (.le n.val e.val) = true →
      ∃ t, exec (.latWrite m n e c v) s = .next t
        ∧ t.rf (R.LE_CTXc_LAT n.val e.val c.val) 31 16 = 0
        ∧ t.rf (R.LE_CTXc_LAT n.val e.val c.val) 15 0 = s.rf (R.LE_CTXc_LAT n.val e.val c.val) 15 0
        ∧ RegsBut [R.LE_CTXc_LAT n.val e.val c.val] s t
        ∧ SameBut [.regs, .reply] s t
        ∧ t.reply = some ⟨m, .done⟩)
  ∧ (∀ (m : Master) (n : Fin 16) (v : Word) (s : State) (r : RegRow),
      s.Writes m (.ic n.val) r (R.IC_LE_SUBST n.val) →
      fld v 2 0 < 6 →
      s.leHostedOne n.val = none →
      (∀ e : Fin 6, (s.le n.val e.val).copying = false) →
      (bit v 31 = true → s.rf (R.LE_RUN n.val (fld v 2 0)) 7 0 = 0 ∧ (s.le n.val (fld v 2 0)).enabling = 0) →
      ∃ t, exec (.icLeSubstWrite m n v) s = .next t
        ∧ t.reg (R.IC_LE_SUBST n.val) = v &&& 0x80000107#32
        ∧ RegsBut [R.IC_LE_SUBST n.val] s t
        ∧ SameBut [.regs, .reply] s t
        ∧ t.reply = some ⟨m, .done⟩)
  ∧ (∀ (n : Fin 16) (passed : Bool) (e : Fin 6) (s : State),
      s.islandRuns n.val = true →
      s.leSubst n.val = some e.val →
      s.leHostedOne n.val = none →
      (∀ i : Fin 6, (s.le n.val i.val).copying = false) →
      s.leRetired n.val e.val = false →
      ∃ t, exec (.substituteSelftest n passed) s = .next t
        ∧ (passed = true → t = s)
        ∧ (passed = false → t.leRetired n.val e.val = true ∧ t.leSubst n.val = none ∧ t.rb (R.LE_STATUS n.val e.val) 2 = true ∧ Instr.faultReport (Fin.ofNat 8192 (6 * n.val + e.val)) (Fin.ofNat 8192 (6 * n.val + e.val)) 0x1E#8 (s.reg (R.LE_FAULT_INFO n.val e.val)) ∈ t.due)
        ∧ RegsBut [R.IC_LE_RETIRED n.val, R.LE_STATUS n.val e.val, R.IC_LE_SUBST n.val] s t
        ∧ SameBut [.regs, .scCount, .due] s t)
  ∧ (∀ (n : Fin 16) (m : Fin 6) (s : State),
      s.Sound →
      (s.le n.val m.val).copying = true →
      ∃ t, exec (.retirementCopyDone n m) s = .next t
        ∧ (t.le n.val m.val).copying = false
        ∧ t.leHosted n.val m.val = s.leRetired n.val m.val
        ∧ t.reg (R.LE_TRANSIENTS n.val m.val) = 0#32
        ∧ (t.le n.val m.val).window = []
        ∧ (∀ k : Fin 4, 48 + m.val ∈ (s.tu n.val k.val).causes → (∀ c ∈ (s.tu n.val k.val).causes, c ≠ 48 + m.val → c < 48) → t.rb (R.TU_STATE n.val k.val) 7 = false))
  ∧ (∀ (n : Fin 16) (m : Fin 6) (c : Fin 8) (s : State),
      s.Sound →
      (s.ctx n.val m.val c.val).phase = .held →
      (s.ctx n.val m.val c.val).overrun = false →
      s.releaseTick n.val m.val c.val ≤ s.absTick →
      s.releaseTick n.val m.val c.val < (s.ctx n.val m.val c.val).lastOut.getD 0 →
      ∃ t, exec (.outputRelease n m c) s = .next t
        ∧ (t.ctx n.val m.val c.val).phase = .idle
        ∧ (t.ctx n.val m.val c.val).outs = []
        ∧ t.rb (R.LE_CTXc_STATUS n.val m.val c.val) 3 = true
        ∧ t.reg (R.LE_CTXc_COUNT n.val m.val c.val) = s.reg (R.LE_CTXc_COUNT n.val m.val c.val) + 1#32)

/-- R122, R129, R130: formulas of the input and transform stages; each operation is rounded as it stands (log entry 16).
(05_stage_library.md, 04_loop_engines.md) -/
def Obligations.InputAndTransformStages : Prop :=
  (∀ (n : Fin 16) (m : Fin 6) (c : Fin 8) (i : Nat) (h : Hdr) (f : Form) (s : State),
      s.Dispatches n.val m.val c.val 0x10 i h f →
      ∃ t, exec (.converterScaling n m c .clean) s = .next t
        ∧ (s.Leaves n.val m.val c.val i h f (fun x =>
          let c := if x.flag 8 then sextN 16 (fld (x.A 0) 15 0) else (fld (x.A 0) 15 0 : Int)
          let u := zMul (x.P 0) (zSub (zOfScaled c 0) (x.P 1))
          ⟨[u], [], anyBad [u]⟩) t))
  ∧ (∀ (n : Fin 16) (m : Fin 6) (c : Fin 8) (i : Nat) (h : Hdr) (f : Form) (s : State),
      s.Dispatches n.val m.val c.val 0x11 i h f →
      ∃ t, exec (.sigmaDeltaScaling n m c .clean) s = .next t
        ∧ (s.Leaves n.val m.val c.val i h f (fun x =>
          let u := zMul (x.P 0) (zSub (zOfScaled (sInt (x.A 0)) 0) (x.P 1))
          ⟨[u], [], anyBad [u]⟩) t))
  ∧ (∀ (n : Fin 16) (m : Fin 6) (c : Fin 8) (i : Nat) (h : Hdr) (f : Form) (s : State),
      s.Dispatches n.val m.val c.val 0x12 i h f →
      ∃ t, exec (.encoderDecode n m c .clean) s = .next t
        ∧ (s.Leaves n.val m.val c.val i h f (fun x =>
          let d := if x.S 3 = 0#32 then 0 else sInt (x.A 0 - x.S 0)
          let n := posAdd (posOf (x.S 1) (x.S 2)) d
          let den := (x.P 0).toNat
          let pos := if den = 0 then
              [Config.openResult 0x12 0 (lo64 n.toNat) (hi64 n.toNat), Config.openResult 0x12 1 (lo64 n.toNat) (hi64 n.toNat)]
            else posWords (BitVec.ofInt 64 (divNearest (n.toInt * 2 ^ 32) den))
          let v := zMul (x.P 1) (zOfScaled d 0)
          ⟨pos ++ [v], x.A 0 :: posWords n ++ [initDone], anyBad [v]⟩) t))
  ∧ (∀ (n : Fin 16) (m : Fin 6) (c : Fin 8) (i : Nat) (h : Hdr) (f : Form) (s : State),
      s.Dispatches n.val m.val c.val 0x13 i h f →
      ∃ t, exec (.sinCosInterpolation n m c .clean) s = .next t
        ∧ (s.Leaves n.val m.val c.val i h f (fun x =>
          let s := zSub (x.A 0) (x.P 1)
          let c := zMul (x.P 3) (zSub (x.A 1) (x.P 2))
          let phi := zAtan2 s c
          let prev := if x.S 3 = 0#32 then phi else x.S 0
          let d := angleDiff phi prev
          let m := posOf (x.S 1) (x.S 2)
          let m := if 0 < d ∧ phi.toNat < prev.toNat then m + 1 else if d < 0 ∧ prev.toNat < phi.toNat then m - 1 else m
          let den := (x.P 0).toNat
          let pos := if den = 0 then [Config.openResult 0x13 0 phi s, Config.openResult 0x13 1 phi c]
            else posWords (BitVec.ofInt 64 (divNearest (m.toInt * 2 ^ 32 + phi.toNat) den))
          let r := zHypot s c
          ⟨pos ++ [r], phi :: posWords m ++ [initDone], anyBad [s, c, r]⟩) t))
  ∧ (∀ (n : Fin 16) (m : Fin 6) (c : Fin 8) (i : Nat) (h : Hdr) (f : Form) (s : State),
      s.Dispatches n.val m.val c.val 0x14 i h f →
      ∃ t, exec (.resolverDemodulation n m c .clean) s = .next t
        ∧ (s.Leaves n.val m.val c.val i h f (fun x =>
          let th := x.S 0
          let r := zHypot (x.A 0) (x.A 1)
          let e := zDiv (zSub (zMul (x.A 0) (zCos th)) (zMul (x.A 1) (zSin th))) r
          let w := zAdd (x.S 1) (zMul (x.P 1) e)
          let dth := zMul (zAdd w (zMul (x.P 0) e)) (x.P 2)
          let th' := th + zToAngle dth
          ⟨[th', w, r], [th', keepF (x.S 1) w], anyBad [r, e, w, dth]⟩) t))
  ∧ (∀ (n : Fin 16) (m : Fin 6) (c : Fin 8) (i : Nat) (h : Hdr) (f : Form) (s : State),
      s.Dispatches n.val m.val c.val 0x20 i h f →
      ∃ t, exec (.clarke n m c .clean) s = .next t
        ∧ (s.Leaves n.val m.val c.val i h f (fun x =>
          let a := x.A 0
          let b := x.A 1
          let c := x.A 2
          let al := if x.flag 0 then zRead a else zDiv (zSub (zSub (zMul zTwo a) b) c) zThree
          let be := if x.flag 0 then zDiv (zAdd a (zMul zTwo b)) zRoot3 else zDiv (zSub b c) zRoot3
          let u := [al, be] ++ (if x.flag 1 then [zDiv (zAdd (zAdd a b) c) zThree] else [])
          ⟨u, [], anyBad u⟩) t))
  ∧ (∀ (n : Fin 16) (m : Fin 6) (c : Fin 8) (i : Nat) (h : Hdr) (f : Form) (s : State),
      s.Dispatches n.val m.val c.val 0x21 i h f →
      ∃ t, exec (.inverseClarke n m c .clean) s = .next t
        ∧ (s.Leaves n.val m.val c.val i h f (fun x =>
          let u := phasesOf (x.A 0) (x.A 1)
          ⟨u, [], anyBad u⟩) t))
  ∧ (∀ (n : Fin 16) (m : Fin 6) (c : Fin 8) (i : Nat) (h : Hdr) (f : Form) (s : State),
      s.Dispatches n.val m.val c.val 0x22 i h f →
      ∃ t, exec (.park n m c .clean) s = .next t
        ∧ (s.Leaves n.val m.val c.val i h f (fun x =>
          let c := zCos (parkAngle x)
          let s := zSin (parkAngle x)
          let u := [zAdd (zMul (x.A 0) c) (zMul (x.A 1) s), zAdd (zMul (zNeg (x.A 0)) s) (zMul (x.A 1) c)]
            ++ (if x.flag 0 then [c, s] else [])
          ⟨u, [], anyBad u⟩) t))
  ∧ (∀ (n : Fin 16) (m : Fin 6) (c : Fin 8) (i : Nat) (h : Hdr) (f : Form) (s : State),
      s.Dispatches n.val m.val c.val 0x23 i h f →
      ∃ t, exec (.inversePark n m c .clean) s = .next t
        ∧ (s.Leaves n.val m.val c.val i h f (fun x =>
          let c := zCos (parkAngle x)
          let s := zSin (parkAngle x)
          let u := [zSub (zMul (x.A 0) c) (zMul (x.A 1) s), zAdd (zMul (x.A 0) s) (zMul (x.A 1) c)]
          ⟨u, [], anyBad u⟩) t))
  ∧ (∀ (n : Fin 16) (m : Fin 6) (c : Fin 8) (i : Nat) (h : Hdr) (f : Form) (s : State),
      s.Dispatches n.val m.val c.val 0x24 i h f →
      ∃ t, exec (.sinCos n m c .clean) s = .next t
        ∧ s.Leaves n.val m.val c.val i h f (fun x => ⟨[zSin (x.A 0), zCos (x.A 0)], [], false⟩) t)
  ∧ (∀ (n : Fin 16) (m : Fin 6) (c : Fin 8) (i : Nat) (h : Hdr) (f : Form) (s : State),
      s.Dispatches n.val m.val c.val 0x25 i h f →
      ∃ t, exec (.atan2 n m c .clean) s = .next t
        ∧ s.Leaves n.val m.val c.val i h f (fun x => ⟨[zAtan2 (x.A 0) (x.B 0)], [], anyBad [x.A 0, x.B 0]⟩) t)
  ∧ (∀ (n : Fin 16) (m : Fin 6) (c : Fin 8) (i : Nat) (h : Hdr) (f : Form) (s : State),
      s.Dispatches n.val m.val c.val 0x26 i h f →
      ∃ t, exec (.magnitude n m c .clean) s = .next t
        ∧ (s.Leaves n.val m.val c.val i h f (fun x =>
          let q := zAdd (zMul (x.A 0) (x.A 0)) (zMul (x.A 1) (x.A 1))
          let q := if x.flag 0 then zAdd q (zMul (x.A 2) (x.A 2)) else q
          let u := zSqrt q
          ⟨[u], [], anyBad [q, u]⟩) t))

/-- R126, R127, R131, R132: formulas of the regulators and filters (log entries 16 and 17). (05_stage_library.md,
04_loop_engines.md) -/
def Obligations.RegulatorAndFilterStages : Prop :=
  (∀ (n : Fin 16) (m : Fin 6) (c : Fin 8) (i : Nat) (h : Hdr) (f : Form) (s : State),
      s.Dispatches n.val m.val c.val 0x30 i h f →
      ∃ t, exec (.piBackCalculation n m c .clean) s = .next t
        ∧ (s.Leaves n.val m.val c.val i h f (fun x =>
          let dq := x.flag 1
          let q := dq && x.k != 0
          let o := if q then 5 else 0
          let meas := if q then x.B 1 else x.B 0
          let e := if x.flag 0 then zRead (x.A 0) else zSub (x.A 0) meas
          let v := zAdd (zMul (x.P o) e) (x.S 0)
          let v := if dq then
              (if q then zAdd v (zMul (x.B 2) (zAdd (zMul (x.P 10) (x.B 0)) (x.P 12)))
               else zSub v (zMul (zMul (x.B 2) (x.P 11)) (x.B 1)))
            else v
          let u := zSat v (x.P (o + 3)) (x.P (o + 4))
          let i := zAdd (zAdd (x.S 0) (zMul (x.P (o + 1)) e)) (zMul (x.P (o + 2)) (zSub u v))
          ⟨[u], regState x [keepF (x.S 0) i], anyBad [e, v, u, i]⟩) t))
  ∧ (∀ (n : Fin 16) (m : Fin 6) (c : Fin 8) (i : Nat) (h : Hdr) (f : Form) (s : State),
      s.Dispatches n.val m.val c.val 0x31 i h f →
      ∃ t, exec (.pidFilteredDerivative n m c .clean) s = .next t
        ∧ (s.Leaves n.val m.val c.val i h f (fun x =>
          let e := if x.flag 0 then zRead (x.A 0) else zSub (x.A 0) (x.B 0)
          let m := if x.flag 0 then e else zRead (x.B 0)
          let prev := if x.S 3 = 0#32 then m else x.S 2
          let d := zAdd (zMul (x.P 3) (x.S 1)) (zMul (x.P 2) (zSub m prev))
          let v := zAdd (zAdd (zMul (x.P 0) e) (x.S 0)) d
          let u := zSat v (x.P 5) (x.P 6)
          let i := zAdd (zAdd (x.S 0) (zMul (x.P 1) e)) (zMul (x.P 4) (zSub u v))
          ⟨[u], regState x [keepF (x.S 0) i, keepF (x.S 1) d, keepF (x.S 2) m, initDone], anyBad [e, m, d, v, u, i]⟩) t))
  ∧ (∀ (n : Fin 16) (m : Fin 6) (c : Fin 8) (i : Nat) (h : Hdr) (f : Form) (s : State),
      s.Dispatches n.val m.val c.val 0x32 i h f →
      ∃ t, exec (.twoDegreeOfFreedomPi n m c .clean) s = .next t
        ∧ (s.Leaves n.val m.val c.val i h f (fun x =>
          let e := zSub (x.A 0) (x.B 0)
          let v := zAdd (zMul (x.P 0) (zSub (zMul (x.P 1) (x.A 0)) (x.B 0))) (x.S 0)
          let u := zSat v (x.P 4) (x.P 5)
          let i := zAdd (zAdd (x.S 0) (zMul (x.P 2) e)) (zMul (x.P 3) (zSub u v))
          ⟨[u], regState x [keepF (x.S 0) i], anyBad [e, v, u, i]⟩) t))
  ∧ (∀ (n : Fin 16) (m : Fin 6) (c : Fin 8) (i : Nat) (h : Hdr) (f : Form) (s : State),
      s.Dispatches n.val m.val c.val 0x33 i h f →
      ∃ t, exec (.proportionalResonant n m c .clean) s = .next t
        ∧ (s.Leaves n.val m.val c.val i h f (fun x =>
          let h := x.flags % 4 + 1
          let e := if x.flag 0 then zRead (x.A 0) else zSub (x.A 0) (x.B 0)
          let r := fun i => zSub (zSub (zAdd (zAdd (zMul (x.P (3 + 5 * i)) e) (zMul (x.P (4 + 5 * i)) (x.S 0)))
            (zMul (x.P (5 + 5 * i)) (x.S 1))) (zMul (x.P (6 + 5 * i)) (x.S (2 + 2 * i)))) (zMul (x.P (7 + 5 * i)) (x.S (3 + 2 * i)))
          let v := (List.range h).foldl (fun acc i => zAdd acc (r i)) (zMul (x.P 0) e)
          let u := zSat v (x.P 1) (x.P 2)
          let rs := (List.range h).flatMap (fun i =>
            if zEq u v then [keepF (x.S (2 + 2 * i)) (r i), x.S (2 + 2 * i)] else [x.S (2 + 2 * i), x.S (3 + 2 * i)])
          ⟨[u], regState x ([keepF (x.S 0) e, x.S 0] ++ rs), anyBad [e, v, u]⟩) t))
  ∧ (∀ (n : Fin 16) (m : Fin 6) (c : Fin 8) (i : Nat) (h : Hdr) (f : Form) (s : State),
      s.Dispatches n.val m.val c.val 0x34 i h f →
      ∃ t, exec (.leadLag n m c .clean) s = .next t
        ∧ (s.Leaves n.val m.val c.val i h f (fun x =>
          let v := zSub (zAdd (zMul (x.P 0) (x.A 0)) (zMul (x.P 1) (x.S 0))) (zMul (x.P 2) (x.S 1))
          let u := zSat v (x.P 3) (x.P 4)
          ⟨[u], regState x [keepF (x.S 0) (zRead (x.A 0)), keepF (x.S 1) u], anyBad [x.A 0, v, u]⟩) t))
  ∧ (∀ (n : Fin 16) (m : Fin 6) (c : Fin 8) (i : Nat) (h : Hdr) (f : Form) (s : State),
      s.Dispatches n.val m.val c.val 0x40 i h f →
      ∃ t, exec (.firstOrderLowPass n m c .clean) s = .next t
        ∧ (s.Leaves n.val m.val c.val i h f (fun x =>
          let y := zAdd (x.S 0) (zMul (x.P 0) (zSub (x.A 0) (x.S 0)))
          ⟨[y], [keepF (x.S 0) y], anyBad [y]⟩) t))
  ∧ (∀ (n : Fin 16) (m : Fin 6) (c : Fin 8) (i : Nat) (h : Hdr) (f : Form) (s : State),
      s.Dispatches n.val m.val c.val 0x41 i h f →
      ∃ t, exec (.biquad n m c .clean) s = .next t
        ∧ s.Leaves n.val m.val c.val i h f (fun x => biquad x (x.P 0) (x.P 1) (x.P 2) (x.P 3) (x.P 4)) t)
  ∧ (∀ (n : Fin 16) (m : Fin 6) (c : Fin 8) (i : Nat) (h : Hdr) (f : Form) (s : State),
      s.Dispatches n.val m.val c.val 0x42 i h f →
      ∃ t, exec (.notch n m c .clean) s = .next t
        ∧ (s.Leaves n.val m.val c.val i h f (fun x =>
          let c := if x.flag 0 then x.B 0 else x.P 0
          biquad x (x.P 3) (zMul (zMul (x.P 3) (x.P 2)) c) (zMul (x.P 3) (zMul (x.P 2) (x.P 2))) (zMul (x.P 1) c)
            (zMul (x.P 1) (x.P 1))) t))
  ∧ (∀ (n : Fin 16) (m : Fin 6) (c : Fin 8) (i : Nat) (h : Hdr) (f : Form) (s : State),
      s.Dispatches n.val m.val c.val 0x43 i h f →
      ∃ t, exec (.movingAverage n m c .clean) s = .next t
        ∧ (s.Leaves n.val m.val c.val i h f (fun x =>
          let n := (x.P 0).toNat
          if n = 0 then ⟨[Config.openResult 0x43 0 (x.A 0) 0], x.st, false⟩
          else
            let i := (x.S 1).toNat % n
            let sum := zAdd (zSub (x.S 0) (x.S (2 + i))) (x.A 0)
            let hist := (x.st.drop 2).set i (keepF (x.S (2 + i)) (x.A 0))
            let wrap := decide (i + 1 = n)
            let total := if wrap then (hist.take n).foldl zAdd 0#32 else sum
            let u := zMul (zDiv zOne (zOfNat n)) (if wrap && fFinite (x.A 0) then total else sum)
            ⟨[u], [keepF (x.S 0) total, w32 (if wrap then 0 else i + 1)] ++ hist, anyBad [x.A 0, sum, u]⟩) t))

/-- R133, R134: formulas of the observers and limits. (05_stage_library.md, 04_loop_engines.md) -/
def Obligations.ObserverAndLimitStages : Prop :=
  (∀ (n : Fin 16) (m : Fin 6) (c : Fin 8) (i : Nat) (h : Hdr) (f : Form) (s : State),
      s.Dispatches n.val m.val c.val 0x50 i h f →
      ∃ t, exec (.speedObserver n m c .clean) s = .next t
        ∧ (s.Leaves n.val m.val c.val i h f (fun x =>
          let p := posOf (x.A 0) (x.A 1)
          if x.S 3 = 0#32 then ⟨0#32 :: posWords p, posWords p ++ [0#32, initDone], false⟩
          else
            let ph := posOf (x.S 0) (x.S 1)
            let w := x.S 2
            let e := zOfTurns (p - ph).toInt
            let inc := zMul (zAdd w (zMul (x.P 0) e)) (x.P 2)
            let ph' := posAdd ph (zToScaled inc 32)
            let w' := zAdd w (zMul (x.P 1) e)
            let w' := if x.flag 0 then zAdd w' (zMul (zMul (x.P 3) (x.B 0)) (x.P 2)) else w'
            ⟨w' :: posWords ph', posWords ph' ++ [keepF w w', initDone], anyBad [inc, w']⟩) t))
  ∧ (∀ (n : Fin 16) (m : Fin 6) (c : Fin 8) (i : Nat) (h : Hdr) (f : Form) (s : State),
      s.Dispatches n.val m.val c.val 0x51 i h f →
      ∃ t, exec (.fluxObserver n m c .clean) s = .next t
        ∧ (s.Leaves n.val m.val c.val i h f (fun x =>
          let step := fun (ps v i pr mag : Word) =>
            let target := if zEq mag 0#32 then 0#32 else zAdd (zDiv (zMul (x.P 4) pr) mag) (zMul (x.P 3) i)
            zSub (zAdd ps (zMul (x.P 1) (zSub v (zMul (x.P 0) i)))) (zMul (zMul (x.P 1) (x.P 2)) (zSub ps target))
          let ra := zSub (x.S 0) (zMul (x.P 3) (x.A 2))
          let rb := zSub (x.S 1) (zMul (x.P 3) (x.A 3))
          let mag := zHypot ra rb
          let sa := step (x.S 0) (x.A 0) (x.A 2) ra mag
          let sb := step (x.S 1) (x.A 1) (x.A 3) rb mag
          let na := zSub sa (zMul (x.P 3) (x.A 2))
          let nb := zSub sb (zMul (x.P 3) (x.A 3))
          let r := zHypot na nb
          ⟨[zAtan2 nb na, r], [keepF (x.S 0) sa, keepF (x.S 1) sb], anyBad [sa, sb, na, nb, r]⟩) t))
  ∧ (∀ (n : Fin 16) (m : Fin 6) (c : Fin 8) (i : Nat) (h : Hdr) (f : Form) (s : State),
      s.Dispatches n.val m.val c.val 0x52 i h f →
      ∃ t, exec (.synchronousFramePll n m c .clean) s = .next t
        ∧ (s.Leaves n.val m.val c.val i h f (fun x =>
          let th := x.S 0
          let c := zCos th
          let s := zSin th
          let vd := zAdd (zMul (x.A 0) c) (zMul (x.A 1) s)
          let vq := zAdd (zMul (zNeg (x.A 0)) s) (zMul (x.A 1) c)
          let vq := if x.flag 0 then zDiv vq (zHypot (x.A 0) (x.A 1)) else vq
          let w := zAdd (zAdd (x.P 3) (zMul (x.P 0) vq)) (x.S 1)
          let om := zSat w (x.P 4) (x.P 5)
          let i := if zEq w om then zAdd (x.S 1) (zMul (x.P 1) vq) else x.S 1
          let inc := zMul om (x.P 2)
          let th' := th + zToAngle inc
          ⟨[th', om, vd], [th', keepF (x.S 1) i], anyBad [vd, vq, w, om, i, inc]⟩) t))
  ∧ (∀ (n : Fin 16) (m : Fin 6) (c : Fin 8) (i : Nat) (h : Hdr) (f : Form) (s : State),
      s.Dispatches n.val m.val c.val 0x60 i h f →
      ∃ t, exec (.saturate n m c .clean) s = .next t
        ∧ (s.Leaves n.val m.val c.val i h f (fun x =>
          let u := if x.flag 0 then zSat (x.A 0) (x.B 0) (x.B 1) else zSat (x.A 0) (x.P 0) (x.P 1)
          ⟨[u] ++ (if x.flag 3 then [flagWord (!zEq u (x.A 0))] else []), [], anyBad [x.A 0, u]⟩) t))
  ∧ (∀ (n : Fin 16) (m : Fin 6) (c : Fin 8) (i : Nat) (h : Hdr) (f : Form) (s : State),
      s.Dispatches n.val m.val c.val 0x61 i h f →
      ∃ t, exec (.rateLimit n m c .clean) s = .next t
        ∧ (s.Leaves n.val m.val c.val i h f (fun x =>
          let u := if x.S 1 = 0#32 then zRead (x.A 0) else zAdd (x.S 0) (zSat (zSub (x.A 0) (x.S 0)) (zNeg (x.P 0)) (x.P 1))
          ⟨[u], [keepF (x.S 0) u, initDone], anyBad [x.A 0, u]⟩) t))
  ∧ (∀ (n : Fin 16) (m : Fin 6) (c : Fin 8) (i : Nat) (h : Hdr) (f : Form) (s : State),
      s.Dispatches n.val m.val c.val 0x62 i h f →
      ∃ t, exec (.circularDqLimit n m c .clean) s = .next t
        ∧ (s.Leaves n.val m.val c.val i h f (fun x =>
          let l := if x.flag 2 then zMul (x.P 0) (x.B 0) else x.P 0
          let r := zHypot (x.A 0) (x.A 1)
          let rest := fun (u : Word) => zSqrt (zSub (zMul l l) (zMul u u))
          let out := if zLe r l then [zRead (x.A 0), zRead (x.A 1)]
            else match x.flags % 4 with
              | 1 =>
                let d := zSat (x.A 0) (zNeg l) l
                [d, zSat (x.A 1) (zNeg (rest d)) (rest d)]
              | 2 =>
                let q := zSat (x.A 1) (zNeg l) l
                [zSat (x.A 0) (zNeg (rest q)) (rest q), q]
              | _ => [zMul (x.A 0) (zDiv l r), zMul (x.A 1) (zDiv l r)]
          ⟨out ++ (if x.flag 3 then [flagWord (!zLe r l)] else []), [], anyBad (r :: l :: out)⟩) t))

/-- R135, R136: formulas of modulation and compensation (log entry 16). (05_stage_library.md, 04_loop_engines.md) -/
def Obligations.ModulationAndCompensationStages : Prop :=
  (∀ (n : Fin 16) (m : Fin 6) (c : Fin 8) (i : Nat) (h : Hdr) (f : Form) (s : State),
      s.Dispatches n.val m.val c.val 0x70 i h f →
      ∃ t, exec (.sineTriangle n m c .clean) s = .next t
        ∧ (s.Leaves n.val m.val c.val i h f (fun x =>
          let l := [x.A 0, x.A 1, x.A 2]
          let vdc := linkVoltage x
          let raw := l.map (fun v => zAdd zHalf (zDiv v vdc))
          let u := raw.map (fun r => zSat r (x.P 0) (x.P 1))
          ⟨u, [], anyBad (u ++ l ++ raw ++ [x.B 0])⟩) t))
  ∧ (∀ (n : Fin 16) (m : Fin 6) (c : Fin 8) (i : Nat) (h : Hdr) (f : Form) (s : State),
      s.Dispatches n.val m.val c.val 0x71 i h f →
      ∃ t, exec (.spaceVector n m c .clean) s = .next t
        ∧ (s.Leaves n.val m.val c.val i h f (fun x =>
          let v := phasesOf (x.A 0) (x.A 1)
          let mid := zDiv (zAdd (max3 v) (min3 v)) zTwo
          let vdc := linkVoltage x
          let raw := v.map (fun w => zAdd zHalf (zDiv (zSub w mid) vdc))
          let u := raw.map (fun r => zSat r (x.P 0) (x.P 1))
          ⟨u ++ (if x.flag 0 then [zOfNat (sectorOf (x.A 0) (x.A 1))] else []), [], anyBad (u ++ v ++ raw ++ [x.B 0])⟩) t))
  ∧ (∀ (n : Fin 16) (m : Fin 6) (c : Fin 8) (i : Nat) (h : Hdr) (f : Form) (s : State),
      s.Dispatches n.val m.val c.val 0x72 i h f →
      ∃ t, exec (.discontinuous n m c .clean) s = .next t
        ∧ (s.Leaves n.val m.val c.val i h f (fun x =>
          let al := x.A 0
          let be := x.A 1
          let v := phasesOf al be
          let m := largestPhase (if x.flag 0 then
            phasesOf (zAdd (zMul zHalfRoot3 al) (zMul zHalf be)) (zSub (zMul zHalfRoot3 be) (zMul zHalf al)) else v)
          let vdc := linkVoltage x
          let vm := v.getD m 0
          let v0 := zSub (zDiv (zMul (zSign vm) vdc) zTwo) vm
          let raw := v.map (fun w => zAdd zHalf (zDiv (zAdd w v0) vdc))
          let u := raw.map (fun r => zSat r (x.P 0) (x.P 1))
          ⟨u, [], anyBad (u ++ v ++ raw ++ [v0, x.B 0])⟩) t))
  ∧ (∀ (n : Fin 16) (m : Fin 6) (c : Fin 8) (i : Nat) (h : Hdr) (f : Form) (s : State),
      s.Dispatches n.val m.val c.val 0x73 i h f →
      ∃ t, exec (.threeLevelNpc n m c .clean) s = .next t
        ∧ (s.Leaves n.val m.val c.val i h f (fun x =>
          let v := phasesOf (x.A 0) (x.A 1)
          let vdc := linkVoltage x
          let mid := zDiv (zAdd (max3 v) (min3 v)) zTwo
          let half := zDiv vdc zTwo
          let v0 := zSat (zSub (zNeg mid) (zMul (x.P 3) (x.B 1))) (zSub (zNeg half) (min3 v)) (zSub half (max3 v))
          let rs := v.map (fun w => zDiv (zMul zTwo (zAdd w v0)) vdc)
          let u := rs.flatMap (fun r => [zSat (zMax r 0#32) (x.P 0) (x.P 1), zSat (zMax (zNeg r) 0#32) (x.P 0) (x.P 1)])
          ⟨u, [], anyBad (u ++ v ++ rs ++ [v0, zSub (zNeg mid) (zMul (x.P 3) (x.B 1)), x.B 0, x.B 1])⟩) t))
  ∧ (∀ (n : Fin 16) (m : Fin 6) (c : Fin 8) (i : Nat) (h : Hdr) (f : Form) (s : State),
      s.Dispatches n.val m.val c.val 0x74 i h f →
      ∃ t, exec (.overmodulation n m c .clean) s = .next t
        ∧ (s.Leaves n.val m.val c.val i h f (fun x =>
          let al := x.A 0
          let be := x.A 1
          let vdc := linkVoltage x
          let v := phasesOf al be
          let span := zSub (max3 v) (min3 v)
          let inside := zLe span vdc
          let (nx, ny) := sideNormal (sectorOf al be)
          let ap := zDiv vdc zRoot3
          let t := zSat (zSub (zMul be nx) (zMul al ny)) (zNeg (zDiv vdc zThree)) (zDiv vdc zThree)
          let out := if inside then [zRead al, zRead be]
            else match (x.P 3).toNat with
              | 0 => [zMul al (zDiv vdc span), zMul be (zDiv vdc span)]
              | 1 => [zSub (zMul ap nx) (zMul t ny), zAdd (zMul ap ny) (zMul t nx)]
              | _ => [Config.openResult 0x74 0 al be, Config.openResult 0x74 1 al be]
          let idx := zDiv (zMul (zHypot al be) zRoot3) vdc
          ⟨out ++ [idx], [], anyBad (out ++ [al, be, idx, x.B 0])⟩) t))
  ∧ (∀ (n : Fin 16) (m : Fin 6) (c : Fin 8) (i : Nat) (h : Hdr) (f : Form) (s : State),
      s.Dispatches n.val m.val c.val 0x80 i h f →
      ∃ t, exec (.deadTime n m c .clean) s = .next t
        ∧ (s.Leaves n.val m.val c.val i h f (fun x =>
          let i := [x.B 0, x.B 1, if x.flag 0 then zSub (zNeg (x.B 0)) (x.B 1) else x.B 2]
          let u := (List.range 3).map (fun j =>
            let c := i.getD j 0
            let d := if zLe (x.P 1) (zAbs c) then zMul (x.P 0) (zSign c) else zDiv (zMul (x.P 0) c) (x.P 1)
            zSat (zAdd (x.A j) d) 0#32 zOne)
          ⟨u, [], anyBad (u ++ i ++ [x.A 0, x.A 1, x.A 2])⟩) t))
  ∧ (∀ (n : Fin 16) (m : Fin 6) (c : Fin 8) (i : Nat) (h : Hdr) (f : Form) (s : State),
      s.Dispatches n.val m.val c.val 0x81 i h f →
      ∃ t, exec (.dcLink n m c .clean) s = .next t
        ∧ (s.Leaves n.val m.val c.val i h f (fun x =>
          let u := zDiv (zMul (x.A 0) (x.P 0)) (zMax (x.B 0) (x.P 1))
          ⟨[u], [], anyBad [u, x.A 0, x.B 0]⟩) t))
  ∧ (∀ (n : Fin 16) (m : Fin 6) (c : Fin 8) (i : Nat) (h : Hdr) (f : Form) (s : State),
      s.Dispatches n.val m.val c.val 0x82 i h f →
      ∃ t, exec (.dqDecoupling n m c .clean) s = .next t
        ∧ (s.Leaves n.val m.val c.val i h f (fun x =>
          let u := [zSub (x.B 0) (zMul (zMul (x.A 2) (x.P 1)) (x.A 1)),
            zAdd (x.B 1) (zMul (x.A 2) (zAdd (zMul (x.P 0) (x.A 0)) (x.P 2)))]
          ⟨u, [], anyBad u⟩) t))

/-- R137, R143 to R152, R239: the motion stages (log entries 16 and 18). (06_shaping_cams_tuning.md,
09_position_interfaces.md, 05_stage_library.md) -/
def Obligations.MotionStages : Prop :=
  (∀ (n : Fin 16) (m : Fin 6) (c : Fin 8) (i : Nat) (h : Hdr) (f : Form) (s : State),
      s.Dispatches n.val m.val c.val 0x90 i h f →
      ∃ t, exec (.shaper n m c .clean) s = .next t
        ∧ (s.Leaves n.val m.val c.val i h f (fun x =>
          let vel := x.flag 0
          let p := posOf (x.S 0) (x.S 1)
          let v := x.S 2
          let a := x.S 3
          let target := posOf (x.A 0) (x.A 1)
          let vmax := x.P 0
          let amax := x.P 1
          let j := x.P 2
          let ts := x.P 3
          let a0 := if vel && !fFinite (x.A 0) then 0#32 else x.A 0
          let badIn := (vel && !fFinite (x.A 0)) || anyBad [vmax, amax, j, ts]
          let already := shaperAt vel target a0 p v a
          if !(positive vmax && positive amax && positive j && positive ts) then
            shaperOut p v a (8 + shaperFlags vel already target a0 p v a) badIn
          else
            let jt := zMul j ts
            let jtt := zMul jt ts
            let e := zOfTurns (target - p).toInt
            let vgoal := if vel then zSat a0 (zNeg vmax) vmax else zMul (zSign e) (zMin vmax (vstop amax j (zAbs e)))
            let land := if vel then zLe (zAbs (zSub vgoal v)) jtt && zLe (zAbs a) jt
              else zLe (zAbs e) (zMul jtt ts) && zLe (zAbs v) jtt && zLe (zAbs a) jt
            if land then
              let p' := if vel then posAdd p (zToScaled (zMul vgoal ts) 32) else target
              let v' := if vel then vgoal else 0#32
              shaperOut p' v' 0#32 (shaperFlags vel true target a0 p' v' 0#32) badIn
            else
              let vfree := zAdd v (zDiv (zMul a (zAbs a)) (zMul zTwo j))
              let aim := if !zEq a 0#32 && zSign (zSub vgoal vfree) != zSign a then 0#32
                else zMul (zSign (zSub vgoal v)) amax
              let jk := zSat (zDiv (zSub aim a) ts) (zNeg j) j
              let t2 := zMul ts ts
              let a' := zAdd a (zMul jk ts)
              let v' := zAdd (zAdd v (zMul a ts)) (zDiv (zMul jk t2) zTwo)
              let inc := zAdd (zAdd (zMul v ts) (zDiv (zMul a t2) zTwo)) (zDiv (zMul jk (zMul t2 ts)) (zOfNat 6))
              let p' := posAdd p (zToScaled inc 32)
              let v2 := keepF v v'
              let a2 := keepF a a'
              let rev := !zEq v 0#32 && zSign v != zSign vgoal
              let fl := shaperFlags vel already target a0 p' v2 a2 + 2 * b2n rev
              ⟨posWords p' ++ [v', a'], posWords p' ++ [v2, a2, w32 fl], badIn || anyBad [inc, v', a']⟩) t))
  ∧ (∀ (n : Fin 16) (m : Fin 6) (c : Fin 8) (i : Nat) (h : Hdr) (f : Form) (s : State),
      s.Dispatches n.val m.val c.val 0x91 i h f →
      (∀ e ∈ s.ep.entries, e.due = true → entryOf n.val m.val e = false) →
      ∃ t, exec (.cam n m c .clean) s = .next t
        ∧ s.Leaves n.val m.val c.val i h f (fun x => match camCycle (x.P 2) with
          | none => ⟨[], x.st.set 4 ((x.S 4 &&& 7#32) ||| 16#32), anyBad [x.P 2]⟩
          | some cq => camLaw x (camTrack cq x.st (posOf (x.A 0) (x.A 1))) (posOf (x.S 0) (x.S 1))
              (if x.flag 0 && camEngaged (x.S 4) == 0 then (s.operands n.val m.val c.val h.out 2).1 else []) (fun k => s.desc n.val m.val ((x.P 0).toNat + k))) t)
  ∧ (∀ (n : Fin 16) (m : Fin 6) (c : Fin 8) (i : Nat) (h : Hdr) (f : Form) (s : State),
      s.Dispatches n.val m.val c.val 0x92 i h f →
      ∃ t, exec (.gearing n m c .clean) s = .next t
        ∧ (s.Leaves n.val m.val c.val i h f (fun x =>
          let master := posOf (x.A 0) (x.A 1)
          let o := if x.S 3 = 0#32 then master else posOf (x.S 0) (x.S 1)
          let den := (x.P 1).toNat
          let num := sInt (x.P 0) * (master - o).toInt
          if den = 0 then
            ⟨[Config.openResult 0x92 0 (x.A 0) (x.A 1), Config.openResult 0x92 1 (x.A 0) (x.A 1)],
              posWords o ++ [x.S 2, initDone], false⟩
          else
            ⟨posWords (posAdd (posOf (x.P 2) (x.P 3)) (num / (den : Int))),
              posWords o ++ [wOfInt (num % (den : Int)), initDone], false⟩) t))
  ∧ (∀ (n : Fin 16) (m : Fin 6) (c : Fin 8) (i : Nat) (h : Hdr) (f : Form) (s : State),
      s.Dispatches n.val m.val c.val 0x93 i h f →
      ∃ t, exec (.positionCompareArm n m c .clean) s = .next t
        ∧ s.Leaves n.val m.val c.val i h f (fun x => (compareArmLaw x).1) t (((s.instances n.val m.val c.val h f).filter (fun x => (compareArmLaw x).2)).map (fun _ => .emit (h.flags / 8 % 8)))
        ∧ (∀ x : LawIn, s.instances n.val m.val c.val h f = [x] → ((s.ctxBegin n.val m.val c.val).ctx n.val m.val c.val).overrun = false → (compareArmLaw x).2 = true → ((s.ctxBegin n.val m.val c.val).ctx n.val m.val c.val).fixed = false → Fires (256 * n.val + 16 * m.val + 8 + h.flags / 8 % 8) s t)
        ∧ (∀ x : LawIn, s.instances n.val m.val c.val h f = [x] → ((s.ctxBegin n.val m.val c.val).ctx n.val m.val c.val).overrun = false → (compareArmLaw x).2 = true → ((s.ctxBegin n.val m.val c.val).ctx n.val m.val c.val).fixed = true → regionOf h.out = some .state → (t.ctx n.val m.val c.val).outs = ((s.ctxBegin n.val m.val c.val).ctx n.val m.val c.val).outs ++ [.emit (h.flags / 8 % 8)]))

/-- R138 to R141, R154 to R158: predictive control, tuning and the utility stages (log entries 16 and 18).
(05_stage_library.md, 06_shaping_cams_tuning.md, 04_loop_engines.md) -/
def Obligations.UtilityStages : Prop :=
  (∀ (n : Fin 16) (m : Fin 6) (c : Fin 8) (i : Nat) (h : Hdr) (f : Form) (p : Fin 4) (s : State),
      s.Dispatches n.val m.val c.val 0xA0 i h f →
      s.fcsPass n.val m.val c.val = p.val →
      ∃ t, exec (.fcsMpc n m c .clean p) s = .next t
        ∧ (p.val ≠ 3 → (t.ctx n.val m.val c.val).pass = p.val + 1 ∧ (t.ctx n.val m.val c.val).phase = .running ∧ t.mem = s.mem)
        ∧ (p.val = 0 → ∀ x : LawIn, s.instances n.val m.val c.val h f = [x] → (t.ctx n.val m.val c.val).kept = [x.a, x.b, x.p, x.st])
        ∧ (p.val = 3 → s.LeavesAll n.val m.val c.val i h ([keptIn h (s.ctx n.val m.val c.val).kept].map (fun x =>
          let variant := x.flags % 4
          let s0 := (x.S 0).toNat % fcsStates variant
          let i1 := fcsPredict x variant s0 (x.A 0, x.A 1)
          let n := if variant = 1 then 64 else fcsStates variant
          let costs := (List.range n).map (fun j => (j, fcsCost x variant s0 j i1))
          let all := costs.all (fun c => c.2.2)
          let costs := (costs.filter (fun c => all || !c.2.2)).map (fun c => (c.1, c.2.1))
          let win := leastCost costs
          let s := match win with
            | some (j, _) => fcsFirst variant j
            | none => s0
          let cost := match win with
            | some (_, c) => c
            | none => Config.openResult 0xA0 0 (x.A 0) (x.A 1)
          let legs := legsOf variant s
          let u := if variant = 2 then legs.flatMap (fun l => [flagWord (l == 1), flagWord (l == -1)])
            else legs.map (fun l => flagWord (l == 2))
          ⟨u ++ [cost], [w32 s, match win with | some (j, _) => w32 j | none => x.S 1], win.isNone⟩)) t []))
  ∧ (∀ (n : Fin 16) (m : Fin 6) (c : Fin 8) (i : Nat) (h : Hdr) (f : Form) (s : State),
      s.Dispatches n.val m.val c.val 0xA1 i h f →
      ∃ t, exec (.relayAutoTune n m c .clean) s = .next t
        ∧ s.Leaves n.val m.val c.val i h f (fun x => (tuneLaw x ((s.le n.val m.val).relays.get (fun _ => false) h.stateOfs) ((s.ctxBegin n.val m.val c.val).ctx n.val m.val c.val).lost ((s.ctxBegin n.val m.val c.val).ctx n.val m.val c.val).lostBefore).1) t
        ∧ (∀ x : LawIn, s.instances n.val m.val c.val h f = [x] → (t.le n.val m.val).relays.get (fun _ => false) h.stateOfs = (tuneLaw x ((s.le n.val m.val).relays.get (fun _ => false) h.stateOfs) ((s.ctxBegin n.val m.val c.val).ctx n.val m.val c.val).lost ((s.ctxBegin n.val m.val c.val).ctx n.val m.val c.val).lostBefore).2)
        ∧ (∀ x : LawIn, s.instances n.val m.val c.val h f = [x] → regionOf h.out = some .state → fld (x.S 0) 31 16 = fld (x.S 1) 31 16 → fld (x.S 1) 3 0 ≠ 1 → t.stateMem n.val m.val h.out = x.B 0))
  ∧ (∀ (n : Fin 16) (m : Fin 6) (c : Fin 8) (i : Nat) (h : Hdr) (f : Form) (s : State),
      s.Dispatches n.val m.val c.val 0xA2 i h f →
      ∃ t, exec (.move n m c .clean) s = .next t
        ∧ s.Leaves n.val m.val c.val i h f (fun x => ⟨[x.A 0], [], false⟩) t)
  ∧ (∀ (n : Fin 16) (m : Fin 6) (c : Fin 8) (i : Nat) (h : Hdr) (f : Form) (s : State),
      s.Dispatches n.val m.val c.val 0xA3 i h f →
      ∃ t, exec (.affine n m c .clean) s = .next t
        ∧ (s.Leaves n.val m.val c.val i h f (fun x =>
          let conv := x.flags / 2 % 4
          let a := match conv with
            | 2 => zOfScaled (x.A 0).toNat (-32)
            | 3 => zOfTurns (posOf (x.A 0) (x.A 1) - posOf (x.B 0) (x.B 1)).toInt
            | _ => x.A 0
          let v := zMul (x.P 0) a
          let v := if x.flag 0 && conv != 3 then zAdd v (zMul (x.P 1) (x.B 0)) else v
          let v := zAdd v (x.P 2)
          ⟨[if conv = 1 then zToAngle v else v], [], anyBad [v]⟩) t))
  ∧ (∀ (n : Fin 16) (m : Fin 6) (c : Fin 8) (i : Nat) (h : Hdr) (f : Form) (s : State),
      s.Dispatches n.val m.val c.val 0xA4 i h f →
      ∃ t, exec (.table256Point n m c .clean) s = .next t
        ∧ s.Leaves n.val m.val c.val i h f (fun x => tableLaw x (fun k => s.desc n.val m.val ((x.P 0).toNat + k))) t)
  ∧ (∀ (n : Fin 16) (m : Fin 6) (c : Fin 8) (i : Nat) (h : Hdr) (f : Form) (s : State),
      s.Dispatches n.val m.val c.val 0xA5 i h f →
      ∃ t, exec (.compareSelect n m c .clean) s = .next t
        ∧ (s.Leaves n.val m.val c.val i h f (fun x =>
          let a := x.A 0
          let b := x.B 0
          let sel := fun (c : Bool) => zRead (if x.flag 3 then (if c then x.P 0 else x.P 1) else if c then a else b)
          let u := match x.flags % 8 with
            | 0 => sel (zLt a b)
            | 1 => sel (zLe a b)
            | 2 => sel (zLt b a)
            | 3 => sel (zLe b a)
            | 4 => sel (zEq a b)
            | 5 => sel (!zEq a b)
            | 6 => zMin a b
            | _ => zMax a b
          ⟨[u], [], anyBad [a, b, u]⟩) t))
  ∧ (∀ (n : Fin 16) (m : Fin 6) (c : Fin 8) (i : Nat) (h : Hdr) (f : Form) (s : State),
      s.Dispatches n.val m.val c.val 0xA6 i h f →
      ∃ t, exec (.eventEmit n m c .clean) s = .next t
        ∧ (s.Leaves n.val m.val c.val i h f (fun x => ⟨[], [if zLt 0#32 (x.A 0) then 1#32 else 0#32], anyBad [x.A 0]⟩) t)
        ∧ (∀ x : LawIn, s.instances n.val m.val c.val h f = [x] → ((s.ctxBegin n.val m.val c.val).ctx n.val m.val c.val).overrun = false → (h.flags / 8 % 4 = 0 ∨ h.flags / 8 % 4 = 1 ∧ zLt 0#32 (x.A 0) = true ∨ h.flags / 8 % 4 = 2 ∧ zLt 0#32 (x.A 0) = true ∧ x.S 0 = 0#32 ∨ h.flags / 8 % 4 = 3 ∧ zLe (x.A 0) 0#32 = true ∧ x.S 0 ≠ 0#32) → ((s.ctxBegin n.val m.val c.val).ctx n.val m.val c.val).fixed = false → Fires (256 * n.val + 16 * m.val + 8 + h.flags % 8) s t)
        ∧ (∀ x : LawIn, s.instances n.val m.val c.val h f = [x] → ((s.ctxBegin n.val m.val c.val).ctx n.val m.val c.val).overrun = false → (h.flags / 8 % 4 = 0 ∨ h.flags / 8 % 4 = 1 ∧ zLt 0#32 (x.A 0) = true ∨ h.flags / 8 % 4 = 2 ∧ zLt 0#32 (x.A 0) = true ∧ x.S 0 = 0#32 ∨ h.flags / 8 % 4 = 3 ∧ zLe (x.A 0) 0#32 = true ∧ x.S 0 ≠ 0#32) → ((s.ctxBegin n.val m.val c.val).ctx n.val m.val c.val).fixed = true → (t.ctx n.val m.val c.val).outs = ((s.ctxBegin n.val m.val c.val).ctx n.val m.val c.val).outs ++ [.emit (h.flags % 8)]))
  ∧ (∀ (n : Fin 16) (m : Fin 6) (c : Fin 8) (i : Nat) (h : Hdr) (f : Form) (s : State),
      s.Dispatches n.val m.val c.val 0xA7 i h f →
      (h.flag 0 = true ∨ (regionOf h.inA = some .exchange ∧ s.transferOk n.val m.val c.val (h.inA - 0x4000) (s.desc n.val m.val h.paramOfs).toNat (s.desc n.val m.val (h.paramOfs + 1)) = true)) →
      ∃ t, exec (.exchangeTransfer n m c .clean) s = .next t
        ∧ (s.Leaves n.val m.val c.val i h f (fun x => ⟨x.a ++ (if h.flag 0 then [] else [zOne]), [], false⟩) t))
  ∧ (∀ (n : Fin 16) (m : Fin 6) (c : Fin 8) (i : Nat) (h : Hdr) (f : Form) (s : State),
      s.Dispatches n.val m.val c.val 0xA7 i h f →
      h.flag 0 = false →
      regionOf h.out = some .state →
      (s.transferOk n.val m.val c.val (h.inA - 0x4000) (s.desc n.val m.val h.paramOfs).toNat (s.desc n.val m.val (h.paramOfs + 1)) = false ∨ regionOf h.inA ≠ some .exchange) →
      ∃ t, exec (.exchangeTransfer n m c .clean) s = .next t
        ∧ (∀ a : Nat, a < 8192 → t.stateMem n.val m.val a = if a = h.out + (s.desc n.val m.val h.paramOfs).toNat then 0#32 else s.stateMem n.val m.val a)
        ∧ (t.ctx n.val m.val c.val).stage = i + 1)
  ∧ (∀ (n : Fin 16) (m : Fin 6) (c : Fin 8) (i : Nat) (h : Hdr) (f : Form) (s : State),
      s.Dispatches n.val m.val c.val 0xA8 i h f →
      ∃ t, exec (.timerOutput n m c .clean) s = .next t
        ∧ s.Leaves n.val m.val c.val i h f (fun x => ⟨[], [], (compareWord (x.A 0) (x.P 0) (x.P 1) (x.P 2)).isNone⟩) t
        ∧ (((s.ctxBegin n.val m.val c.val).ctx n.val m.val c.val).overrun = false → ((s.ctxBegin n.val m.val c.val).ctx n.val m.val c.val).fixed = true → (t.ctx n.val m.val c.val).outs = ((s.ctxBegin n.val m.val c.val).ctx n.val m.val c.val).outs ++ (s.instances n.val m.val c.val h f).filterMap (fun x => (compareWord (x.A 0) (x.P 0) (x.P 1) (x.P 2)).map (fun w =>
          OutAct.duty ((h.out - 0x9000) / 0x400) ((h.out - 0x9000) % 0x400 + x.k) w)))
        ∧ (∀ x : LawIn, s.instances n.val m.val c.val h f = [x] → ((s.ctxBegin n.val m.val c.val).ctx n.val m.val c.val).overrun = false → ((s.ctxBegin n.val m.val c.val).ctx n.val m.val c.val).fixed = false → s.owns (s.leDomain n.val m.val) (R.TU_OWNER n.val ((h.out - 0x9000) / 0x400)) = true → (s.ownerSec (R.TU_OWNER n.val ((h.out - 0x9000) / 0x400)) = true → s.domSecure (s.leDomain n.val m.val) = true) → ((s.tu n.val ((h.out - 0x9000) / 0x400)).pendAt.getD ((h.out - 0x9000) % 0x400) 0 = s.absTick → (s.tu n.val ((h.out - 0x9000) / 0x400)).pendBy.getD ((h.out - 0x9000) % 0x400) 0 ≤ m.val + 1) → ∀ w, compareWord (x.A 0) (x.P 0) (x.P 1) (x.P 2) = some w → t.reg (R.TU_DLRw n.val ((h.out - 0x9000) / 0x400) ((h.out - 0x9000) % 0x400)) = w ∧ t.rb (R.TU_DLR_PEND n.val ((h.out - 0x9000) / 0x400)) ((h.out - 0x9000) % 0x400) = true))

/-- R97, R98, R105 to R107, R109: what becomes of a stage command. (04_loop_engines.md) -/
def Obligations.StageOutcomes : Prop :=
  ∀ (k : Instr) (x : StageRow) (s : State), stageRow k = some x →
    ((s.leWorks x.n x.m = false ∨ s.leChoice x.n x.m ≠ some x.c ∨ x.typ = 0xA0 ∧ s.fcsPass x.n x.m x.c ≠ x.pass) → exec k s = .next s)
    ∧ (s.Sound → s.leWorks x.n x.m = true → s.leChoice x.n x.m = some x.c →
        (s.ctxBegin x.n x.m x.c).nextStage x.n x.m x.c = .fault →
        (x.typ = 0xA0 → s.fcsPass x.n x.m x.c = x.pass) →
        ∃ t, exec k s = .next t
          ∧ t.rb (R.LE_RUN x.n x.m) x.c = false
          ∧ t.rb (R.LE_CTXc_STATUS x.n x.m x.c) 0 = true
          ∧ (t.ctx x.n x.m x.c).phase = .idle ∧ (t.ctx x.n x.m x.c).outs = [])
    ∧ (∀ (p : Nat) (h : Hdr) (f : Form), s.Dispatches x.n x.m x.c x.typ p h f → x.res = .permanent →
        (x.typ = 0xA0 → s.fcsPass x.n x.m x.c = x.pass) →
        ∃ t, exec k s = .next t
          ∧ (∀ a : Nat, a < 8192 → t.stateMem x.n x.m a = s.stateMem x.n x.m a)
          ∧ t.reg (R.LE_FAULT_INFO x.n x.m) = faultInfo x.typ p x.c x.pass true
          ∧ (s.leRetired x.n (s.lePhysical x.n x.m) = false → t.leRetired x.n (s.lePhysical x.n x.m) = true ∧ t.rb (R.LE_STATUS x.n x.m) 2 = true)
          ∧ (s.leRetired x.n (s.lePhysical x.n x.m) = false → (t.le x.n x.m).copying = true ∨ t.reg (R.LE_RUN x.n x.m) = 0#32 ∧ t.rb (R.LE_STATUS x.n x.m) 4 = true))
    ∧ (∀ (p : Nat) (h : Hdr) (f : Form), s.Dispatches x.n x.m x.c x.typ p h f → x.res = .transient →
        (x.typ = 0xA0 → s.fcsPass x.n x.m x.c = x.pass) →
        (recent s.clk.beat (s.le x.n x.m).window).length < 16 →
        ∃ t, exec k s = .next t
          ∧ t.reg (R.LE_FAULT_INFO x.n x.m) = faultInfo x.typ p x.c x.pass false
          ∧ t.rb (R.LE_CTXc_STATUS x.n x.m x.c) 4 = true ∧ t.rb (R.LE_STATUS x.n x.m) 1 = true
          ∧ t.reg (R.LE_CTXc_FIXED x.n x.m x.c) = 0x80000010#32
          ∧ t.rf (R.LE_TRANSIENTS x.n x.m) 31 16 = min 0xFFFF (s.rf (R.LE_TRANSIENTS x.n x.m) 31 16 + 1)
          ∧ ∀ (j : Instr) (u : State), stageRow j = some { x with res := .clean } → exec j s = .next u → t.mem = u.mem)

/-- R281, R289, R290, R291, R295, R303, R304: the integer instructions. (11_control_core_isa.md) -/
def Obligations.IntegerInstructions : Prop :=
  (∀ (n : Fin 8) (p : Bool) (rd ra rb : Fin 32) (v : Word) (s : State),
      s.Issues n.val →
      v = ((s.now n.val).gr ra.val) + ((s.now n.val).gr rb.val) →
      s.KeepsLimit n.val (.g rd.val) v →
      ∃ t, exec (.add n p rd ra rb) s = .next t
        ∧ s.Results n.val (.g rd.val) v 1 0#32 t)
  ∧ (∀ (n : Fin 8) (p : Bool) (rd ra rb : Fin 32) (v : Word) (s : State),
      s.Issues n.val →
      v = ((s.now n.val).gr ra.val) - ((s.now n.val).gr rb.val) →
      s.KeepsLimit n.val (.g rd.val) v →
      ∃ t, exec (.sub n p rd ra rb) s = .next t
        ∧ s.Results n.val (.g rd.val) v 1 0#32 t)
  ∧ (∀ (n : Fin 8) (p : Bool) (rd ra rb : Fin 32) (v : Word) (s : State),
      s.Issues n.val →
      v = ((s.now n.val).gr ra.val) &&& ((s.now n.val).gr rb.val) →
      s.KeepsLimit n.val (.g rd.val) v →
      ∃ t, exec (.and n p rd ra rb) s = .next t
        ∧ s.Results n.val (.g rd.val) v 1 0#32 t)
  ∧ (∀ (n : Fin 8) (p : Bool) (rd ra rb : Fin 32) (v : Word) (s : State),
      s.Issues n.val →
      v = ((s.now n.val).gr ra.val) ||| ((s.now n.val).gr rb.val) →
      s.KeepsLimit n.val (.g rd.val) v →
      ∃ t, exec (.or n p rd ra rb) s = .next t
        ∧ s.Results n.val (.g rd.val) v 1 0#32 t)
  ∧ (∀ (n : Fin 8) (p : Bool) (rd ra rb : Fin 32) (v : Word) (s : State),
      s.Issues n.val →
      v = ((s.now n.val).gr ra.val) ^^^ ((s.now n.val).gr rb.val) →
      s.KeepsLimit n.val (.g rd.val) v →
      ∃ t, exec (.xor n p rd ra rb) s = .next t
        ∧ s.Results n.val (.g rd.val) v 1 0#32 t)
  ∧ (∀ (n : Fin 8) (p : Bool) (rd ra rb : Fin 32) (v : Word) (s : State),
      s.Issues n.val →
      v = ((s.now n.val).gr ra.val) &&& ~~~ ((s.now n.val).gr rb.val) →
      s.KeepsLimit n.val (.g rd.val) v →
      ∃ t, exec (.andn n p rd ra rb) s = .next t
        ∧ s.Results n.val (.g rd.val) v 1 0#32 t)
  ∧ (∀ (n : Fin 8) (p : Bool) (rd ra rb : Fin 32) (v : Word) (s : State),
      s.Issues n.val →
      v = aluShl ((s.now n.val).gr ra.val) ((s.now n.val).gr rb.val) →
      s.KeepsLimit n.val (.g rd.val) v →
      ∃ t, exec (.shl n p rd ra rb) s = .next t
        ∧ s.Results n.val (.g rd.val) v 1 0#32 t)
  ∧ (∀ (n : Fin 8) (p : Bool) (rd ra rb : Fin 32) (v : Word) (s : State),
      s.Issues n.val →
      v = aluShr ((s.now n.val).gr ra.val) ((s.now n.val).gr rb.val) →
      s.KeepsLimit n.val (.g rd.val) v →
      ∃ t, exec (.shr n p rd ra rb) s = .next t
        ∧ s.Results n.val (.g rd.val) v 1 0#32 t)
  ∧ (∀ (n : Fin 8) (p : Bool) (rd ra rb : Fin 32) (v : Word) (s : State),
      s.Issues n.val →
      v = aluSar ((s.now n.val).gr ra.val) ((s.now n.val).gr rb.val) →
      s.KeepsLimit n.val (.g rd.val) v →
      ∃ t, exec (.sar n p rd ra rb) s = .next t
        ∧ s.Results n.val (.g rd.val) v 1 0#32 t)
  ∧ (∀ (n : Fin 8) (p : Bool) (rd ra rb : Fin 32) (v : Word) (s : State),
      s.Issues n.val →
      v = aluRor ((s.now n.val).gr ra.val) ((s.now n.val).gr rb.val) →
      s.KeepsLimit n.val (.g rd.val) v →
      ∃ t, exec (.ror n p rd ra rb) s = .next t
        ∧ s.Results n.val (.g rd.val) v 1 0#32 t)
  ∧ (∀ (n : Fin 8) (p : Bool) (rd ra sh : Fin 32) (v : Word) (s : State),
      s.Issues n.val →
      v = aluShl ((s.now n.val).gr ra.val) (w32 sh.val) →
      s.KeepsLimit n.val (.g rd.val) v →
      ∃ t, exec (.shli n p rd ra sh) s = .next t
        ∧ s.Results n.val (.g rd.val) v 1 0#32 t)
  ∧ (∀ (n : Fin 8) (p : Bool) (rd ra sh : Fin 32) (v : Word) (s : State),
      s.Issues n.val →
      v = aluShr ((s.now n.val).gr ra.val) (w32 sh.val) →
      s.KeepsLimit n.val (.g rd.val) v →
      ∃ t, exec (.shri n p rd ra sh) s = .next t
        ∧ s.Results n.val (.g rd.val) v 1 0#32 t)
  ∧ (∀ (n : Fin 8) (p : Bool) (rd ra sh : Fin 32) (v : Word) (s : State),
      s.Issues n.val →
      v = aluSar ((s.now n.val).gr ra.val) (w32 sh.val) →
      s.KeepsLimit n.val (.g rd.val) v →
      ∃ t, exec (.sari n p rd ra sh) s = .next t
        ∧ s.Results n.val (.g rd.val) v 1 0#32 t)
  ∧ (∀ (n : Fin 8) (p : Bool) (rd ra sh : Fin 32) (v : Word) (s : State),
      s.Issues n.val →
      v = aluRor ((s.now n.val).gr ra.val) (w32 sh.val) →
      s.KeepsLimit n.val (.g rd.val) v →
      ∃ t, exec (.rori n p rd ra sh) s = .next t
        ∧ s.Results n.val (.g rd.val) v 1 0#32 t)
  ∧ (∀ (n : Fin 8) (p : Bool) (rd ra rb : Fin 32) (v : Word) (s : State),
      s.Issues n.val →
      v = aluMin ((s.now n.val).gr ra.val) ((s.now n.val).gr rb.val) →
      s.KeepsLimit n.val (.g rd.val) v →
      ∃ t, exec (.min n p rd ra rb) s = .next t
        ∧ s.Results n.val (.g rd.val) v 1 0#32 t)
  ∧ (∀ (n : Fin 8) (p : Bool) (rd ra rb : Fin 32) (v : Word) (s : State),
      s.Issues n.val →
      v = aluMax ((s.now n.val).gr ra.val) ((s.now n.val).gr rb.val) →
      s.KeepsLimit n.val (.g rd.val) v →
      ∃ t, exec (.max n p rd ra rb) s = .next t
        ∧ s.Results n.val (.g rd.val) v 1 0#32 t)
  ∧ (∀ (n : Fin 8) (p : Bool) (rd ra rb : Fin 32) (v : Word) (s : State),
      s.Issues n.val →
      v = aluMinu ((s.now n.val).gr ra.val) ((s.now n.val).gr rb.val) →
      s.KeepsLimit n.val (.g rd.val) v →
      ∃ t, exec (.minu n p rd ra rb) s = .next t
        ∧ s.Results n.val (.g rd.val) v 1 0#32 t)
  ∧ (∀ (n : Fin 8) (p : Bool) (rd ra rb : Fin 32) (v : Word) (s : State),
      s.Issues n.val →
      v = aluMaxu ((s.now n.val).gr ra.val) ((s.now n.val).gr rb.val) →
      s.KeepsLimit n.val (.g rd.val) v →
      ∃ t, exec (.maxu n p rd ra rb) s = .next t
        ∧ s.Results n.val (.g rd.val) v 1 0#32 t)
  ∧ (∀ (n : Fin 8) (p : Bool) (rd ra : Fin 32) (v : Word) (s : State),
      s.Issues n.val →
      v = aluClz ((s.now n.val).gr ra.val) →
      s.KeepsLimit n.val (.g rd.val) v →
      ∃ t, exec (.clz n p rd ra) s = .next t
        ∧ s.Results n.val (.g rd.val) v 1 0#32 t)
  ∧ (∀ (n : Fin 8) (p : Bool) (rd ra : Fin 32) (v : Word) (s : State),
      s.Issues n.val →
      v = aluPopc ((s.now n.val).gr ra.val) →
      s.KeepsLimit n.val (.g rd.val) v →
      ∃ t, exec (.popc n p rd ra) s = .next t
        ∧ s.Results n.val (.g rd.val) v 1 0#32 t)
  ∧ (∀ (n : Fin 8) (p : Bool) (rd ra : Fin 32) (v : Word) (s : State),
      s.Issues n.val →
      v = aluBrev ((s.now n.val).gr ra.val) →
      s.KeepsLimit n.val (.g rd.val) v →
      ∃ t, exec (.brev n p rd ra) s = .next t
        ∧ s.Results n.val (.g rd.val) v 1 0#32 t)
  ∧ (∀ (n : Fin 8) (p : Bool) (rd ra : Fin 32) (v : Word) (s : State),
      s.Issues n.val →
      v = aluBswap ((s.now n.val).gr ra.val) →
      s.KeepsLimit n.val (.g rd.val) v →
      ∃ t, exec (.bswap n p rd ra) s = .next t
        ∧ s.Results n.val (.g rd.val) v 1 0#32 t)
  ∧ (∀ (n : Fin 8) (p : Bool) (rd ra : Fin 32) (v : Word) (s : State),
      s.Issues n.val →
      v = aluSextb ((s.now n.val).gr ra.val) →
      s.KeepsLimit n.val (.g rd.val) v →
      ∃ t, exec (.sextb n p rd ra) s = .next t
        ∧ s.Results n.val (.g rd.val) v 1 0#32 t)
  ∧ (∀ (n : Fin 8) (p : Bool) (rd ra : Fin 32) (v : Word) (s : State),
      s.Issues n.val →
      v = aluSexth ((s.now n.val).gr ra.val) →
      s.KeepsLimit n.val (.g rd.val) v →
      ∃ t, exec (.sexth n p rd ra) s = .next t
        ∧ s.Results n.val (.g rd.val) v 1 0#32 t)
  ∧ (∀ (n : Fin 8) (p : Bool) (rd ra rb : Fin 32) (v : Word) (s : State),
      s.Issues n.val →
      v = condWord (((s.now n.val).gr ra.val) == ((s.now n.val).gr rb.val)) →
      s.KeepsLimit n.val (.g rd.val) v →
      ∃ t, exec (.ceq n p rd ra rb) s = .next t
        ∧ s.Results n.val (.g rd.val) v 1 0#32 t)
  ∧ (∀ (n : Fin 8) (p : Bool) (rd ra rb : Fin 32) (v : Word) (s : State),
      s.Issues n.val →
      v = condWord (((s.now n.val).gr ra.val) != ((s.now n.val).gr rb.val)) →
      s.KeepsLimit n.val (.g rd.val) v →
      ∃ t, exec (.cne n p rd ra rb) s = .next t
        ∧ s.Results n.val (.g rd.val) v 1 0#32 t)
  ∧ (∀ (n : Fin 8) (p : Bool) (rd ra rb : Fin 32) (v : Word) (s : State),
      s.Issues n.val →
      v = condWord (decide (sInt ((s.now n.val).gr ra.val) < sInt ((s.now n.val).gr rb.val))) →
      s.KeepsLimit n.val (.g rd.val) v →
      ∃ t, exec (.clt n p rd ra rb) s = .next t
        ∧ s.Results n.val (.g rd.val) v 1 0#32 t)
  ∧ (∀ (n : Fin 8) (p : Bool) (rd ra rb : Fin 32) (v : Word) (s : State),
      s.Issues n.val →
      v = condWord (decide (((s.now n.val).gr ra.val).toNat < ((s.now n.val).gr rb.val).toNat)) →
      s.KeepsLimit n.val (.g rd.val) v →
      ∃ t, exec (.cltu n p rd ra rb) s = .next t
        ∧ s.Results n.val (.g rd.val) v 1 0#32 t)
  ∧ (∀ (n : Fin 8) (p : Bool) (rd ra rb : Fin 32) (v : Word) (s : State),
      s.Issues n.val →
      v = condWord (decide (sInt ((s.now n.val).gr ra.val) ≤ sInt ((s.now n.val).gr rb.val))) →
      s.KeepsLimit n.val (.g rd.val) v →
      ∃ t, exec (.cle n p rd ra rb) s = .next t
        ∧ s.Results n.val (.g rd.val) v 1 0#32 t)
  ∧ (∀ (n : Fin 8) (p : Bool) (rd ra rb : Fin 32) (v : Word) (s : State),
      s.Issues n.val →
      v = condWord (decide (((s.now n.val).gr ra.val).toNat ≤ ((s.now n.val).gr rb.val).toNat)) →
      s.KeepsLimit n.val (.g rd.val) v →
      ∃ t, exec (.cleu n p rd ra rb) s = .next t
        ∧ s.Results n.val (.g rd.val) v 1 0#32 t)
  ∧ (∀ (n : Fin 8) (p : Bool) (rd ra rb : Fin 32) (v : Word) (s : State),
      s.Issues n.val →
      v = aluAddsat ((s.now n.val).gr ra.val) ((s.now n.val).gr rb.val) →
      s.KeepsLimit n.val (.g rd.val) v →
      ∃ t, exec (.addsat n p rd ra rb) s = .next t
        ∧ s.Results n.val (.g rd.val) v 1 0#32 t)
  ∧ (∀ (n : Fin 8) (p : Bool) (rd ra rb : Fin 32) (v : Word) (s : State),
      s.Issues n.val →
      v = aluSubsat ((s.now n.val).gr ra.val) ((s.now n.val).gr rb.val) →
      s.KeepsLimit n.val (.g rd.val) v →
      ∃ t, exec (.subsat n p rd ra rb) s = .next t
        ∧ s.Results n.val (.g rd.val) v 1 0#32 t)
  ∧ (∀ (n : Fin 8) (p : Bool) (rd ra : Fin 32) (imm : BitVec 16) (v : Word) (s : State),
      s.Issues n.val →
      v = ((s.now n.val).gr ra.val) + imm.signExtend 32 →
      s.KeepsLimit n.val (.g rd.val) v →
      ∃ t, exec (.addi n p rd ra imm) s = .next t
        ∧ s.Results n.val (.g rd.val) v 1 0#32 t)
  ∧ (∀ (n : Fin 8) (p : Bool) (rd ra : Fin 32) (imm : BitVec 16) (v : Word) (s : State),
      s.Issues n.val →
      v = ((s.now n.val).gr ra.val) &&& imm.zeroExtend 32 →
      s.KeepsLimit n.val (.g rd.val) v →
      ∃ t, exec (.andi n p rd ra imm) s = .next t
        ∧ s.Results n.val (.g rd.val) v 1 0#32 t)
  ∧ (∀ (n : Fin 8) (p : Bool) (rd ra : Fin 32) (imm : BitVec 16) (v : Word) (s : State),
      s.Issues n.val →
      v = ((s.now n.val).gr ra.val) ||| imm.zeroExtend 32 →
      s.KeepsLimit n.val (.g rd.val) v →
      ∃ t, exec (.ori n p rd ra imm) s = .next t
        ∧ s.Results n.val (.g rd.val) v 1 0#32 t)
  ∧ (∀ (n : Fin 8) (p : Bool) (rd ra : Fin 32) (imm : BitVec 16) (v : Word) (s : State),
      s.Issues n.val →
      v = ((s.now n.val).gr ra.val) ^^^ imm.zeroExtend 32 →
      s.KeepsLimit n.val (.g rd.val) v →
      ∃ t, exec (.xori n p rd ra imm) s = .next t
        ∧ s.Results n.val (.g rd.val) v 1 0#32 t)
  ∧ (∀ (n : Fin 8) (p : Bool) (rd : Fin 32) (imm : BitVec 16) (v : Word) (s : State),
      s.Issues n.val →
      v = w32 (at_ imm.toNat 16) →
      s.KeepsLimit n.val (.g rd.val) v →
      ∃ t, exec (.lui n p rd imm) s = .next t
        ∧ s.Results n.val (.g rd.val) v 1 0#32 t)
  ∧ (∀ (n : Fin 8) (p : Bool) (rd ra : Fin 32) (cond : Fin 8) (imm : BitVec 13) (v : Word) (s : State),
      s.Issues n.val →
      v = condWord (cmpCond cond.val ((s.now n.val).gr ra.val) (imm.signExtend 32)) →
      s.KeepsLimit n.val (.g rd.val) v →
      ∃ t, exec (.cmpi n p rd ra cond imm) s = .next t
        ∧ s.Results n.val (.g rd.val) v 1 0#32 t)

/-- R279, R289, R292, R295, R304: multiplies and long operations. (11_control_core_isa.md) -/
def Obligations.MultiplyAndDivideInstructions : Prop :=
  (∀ (n : Fin 8) (p : Bool) (rd ra rb : Fin 32) (v : Word) (s : State),
      s.Issues n.val →
      v = ((s.now n.val).gr ra.val) * ((s.now n.val).gr rb.val) →
      s.KeepsLimit n.val (.g rd.val) v →
      ∃ t, exec (.mul n p rd ra rb) s = .next t
        ∧ s.Results n.val (.g rd.val) v 2 0#32 t)
  ∧ (∀ (n : Fin 8) (p : Bool) (rd ra rb : Fin 32) (v : Word) (s : State),
      s.Issues n.val →
      v = mulHigh (sInt ((s.now n.val).gr ra.val)) (sInt ((s.now n.val).gr rb.val)) →
      s.KeepsLimit n.val (.g rd.val) v →
      ∃ t, exec (.mulh n p rd ra rb) s = .next t
        ∧ s.Results n.val (.g rd.val) v 2 0#32 t)
  ∧ (∀ (n : Fin 8) (p : Bool) (rd ra rb : Fin 32) (v : Word) (s : State),
      s.Issues n.val →
      v = mulHigh ((s.now n.val).gr ra.val).toNat ((s.now n.val).gr rb.val).toNat →
      s.KeepsLimit n.val (.g rd.val) v →
      ∃ t, exec (.mulhu n p rd ra rb) s = .next t
        ∧ s.Results n.val (.g rd.val) v 2 0#32 t)
  ∧ (∀ (n : Fin 8) (p : Bool) (rd ra rb : Fin 32) (v : Word) (s : State),
      s.Issues n.val →
      v = mulHigh (sInt ((s.now n.val).gr ra.val)) ((s.now n.val).gr rb.val).toNat →
      s.KeepsLimit n.val (.g rd.val) v →
      ∃ t, exec (.mulhsu n p rd ra rb) s = .next t
        ∧ s.Results n.val (.g rd.val) v 2 0#32 t)
  ∧ (∀ (n : Fin 8) (p : Bool) (rd ra rb : Fin 32) (v : Word) (s : State),
      s.Issues n.val →
      v = (if ((s.now n.val).gr rb.val) = 0#32 then 0xFFFFFFFF#32 else wOfInt ((sInt ((s.now n.val).gr ra.val)).tdiv (sInt ((s.now n.val).gr rb.val)))) →
      s.KeepsLimit n.val (.g rd.val) v →
      ∃ t, exec (.div n p rd ra rb) s = .next t
        ∧ s.Starts n.val 0 ⟨encR p 8 rd.val ra.val rb.val 0 0, ((s.now n.val).gr ra.val), ((s.now n.val).gr rb.val), .g rd.val, v, 0#32⟩ t)
  ∧ (∀ (n : Fin 8) (p : Bool) (rd ra rb : Fin 32) (v : Word) (s : State),
      s.Issues n.val →
      v = (if ((s.now n.val).gr rb.val) = 0#32 then 0xFFFFFFFF#32 else w32 (((s.now n.val).gr ra.val).toNat / ((s.now n.val).gr rb.val).toNat)) →
      s.KeepsLimit n.val (.g rd.val) v →
      ∃ t, exec (.divu n p rd ra rb) s = .next t
        ∧ s.Starts n.val 0 ⟨encR p 8 rd.val ra.val rb.val 0 1, ((s.now n.val).gr ra.val), ((s.now n.val).gr rb.val), .g rd.val, v, 0#32⟩ t)
  ∧ (∀ (n : Fin 8) (p : Bool) (rd ra rb : Fin 32) (v : Word) (s : State),
      s.Issues n.val →
      v = (if ((s.now n.val).gr rb.val) = 0#32 then ((s.now n.val).gr ra.val) else wOfInt ((sInt ((s.now n.val).gr ra.val)).tmod (sInt ((s.now n.val).gr rb.val)))) →
      s.KeepsLimit n.val (.g rd.val) v →
      ∃ t, exec (.rem n p rd ra rb) s = .next t
        ∧ s.Starts n.val 0 ⟨encR p 8 rd.val ra.val rb.val 0 2, ((s.now n.val).gr ra.val), ((s.now n.val).gr rb.val), .g rd.val, v, 0#32⟩ t)
  ∧ (∀ (n : Fin 8) (p : Bool) (rd ra rb : Fin 32) (v : Word) (s : State),
      s.Issues n.val →
      v = (if ((s.now n.val).gr rb.val) = 0#32 then ((s.now n.val).gr ra.val) else w32 (((s.now n.val).gr ra.val).toNat % ((s.now n.val).gr rb.val).toNat)) →
      s.KeepsLimit n.val (.g rd.val) v →
      ∃ t, exec (.remu n p rd ra rb) s = .next t
        ∧ s.Starts n.val 0 ⟨encR p 8 rd.val ra.val rb.val 0 3, ((s.now n.val).gr ra.val), ((s.now n.val).gr rb.val), .g rd.val, v, 0#32⟩ t)
  ∧ (∀ (n : Fin 8) (p : Bool) (rd ra rb : Fin 32) (o : FOut) (s : State),
      s.Issues n.val →
      s.FpFilled n.val →
      o = fDiv (rmOf ((s.now n.val).crv 2)) ((s.now n.val).fr ra.val) ((s.now n.val).fr rb.val) →
      ∃ t, exec (.fdiv n p rd ra rb) s = .next t
        ∧ s.Starts n.val 1 ⟨encR p 8 rd.val ra.val rb.val 0 4, ((s.now n.val).fr ra.val), ((s.now n.val).fr rb.val), .f rd.val, o.1, o.2⟩ t)
  ∧ (∀ (n : Fin 8) (p : Bool) (rd ra : Fin 32) (o : FOut) (s : State),
      s.Issues n.val →
      s.FpFilled n.val →
      o = fSqrt (rmOf ((s.now n.val).crv 2)) ((s.now n.val).fr ra.val) →
      ∃ t, exec (.fsqrt n p rd ra) s = .next t
        ∧ s.Starts n.val 1 ⟨encR p 8 rd.val ra.val 0 0 5, ((s.now n.val).fr ra.val), ((s.now n.val).fr 0), .f rd.val, o.1, o.2⟩ t)
  ∧ (∀ (n : Fin 8) (o : LongOp) (s : State),
      s.coreReady n.val = true →
      (s.coreRec n.val).pair = none →
      (s.core n.val).div = some o →
      ∃ t, exec (.longOperationComplete n 0) s = .next t
        ∧ (t.core n.val = ({ s.core n.val with div := none }.landLong o.dest o.result).raiseFlags o.flags)
        ∧ SameBut [.cores] s t)
  ∧ (∀ (n : Fin 8) (o : LongOp) (s : State),
      s.coreReady n.val = true →
      (s.coreRec n.val).pair = none →
      (s.core n.val).fpu = some o →
      ∃ t, exec (.longOperationComplete n 1) s = .next t
        ∧ (t.core n.val = ({ s.core n.val with fpu := none }.landLong o.dest o.result).raiseFlags o.flags)
        ∧ SameBut [.cores] s t)

/-- R280, R289, R290, R295, R305: the floating-point instructions; log entries name what IEEE 754 leaves open.
(11_control_core_isa.md) -/
def Obligations.FloatInstructions : Prop :=
  (∀ (n : Fin 8) (p : Bool) (rd ra rb : Fin 32) (o : FOut) (s : State),
      s.Issues n.val →
      s.FpFilled n.val →
      o = fAdd (rmOf ((s.now n.val).crv 2)) ((s.now n.val).fr ra.val) ((s.now n.val).fr rb.val) →
      ∃ t, exec (.fadd n p rd ra rb) s = .next t
        ∧ s.Results n.val (.f rd.val) o.1 3 o.2 t)
  ∧ (∀ (n : Fin 8) (p : Bool) (rd ra rb : Fin 32) (o : FOut) (s : State),
      s.Issues n.val →
      s.FpFilled n.val →
      o = fSub (rmOf ((s.now n.val).crv 2)) ((s.now n.val).fr ra.val) ((s.now n.val).fr rb.val) →
      ∃ t, exec (.fsub n p rd ra rb) s = .next t
        ∧ s.Results n.val (.f rd.val) o.1 3 o.2 t)
  ∧ (∀ (n : Fin 8) (p : Bool) (rd ra rb : Fin 32) (o : FOut) (s : State),
      s.Issues n.val →
      s.FpFilled n.val →
      o = fMul (rmOf ((s.now n.val).crv 2)) ((s.now n.val).fr ra.val) ((s.now n.val).fr rb.val) →
      ∃ t, exec (.fmul n p rd ra rb) s = .next t
        ∧ s.Results n.val (.f rd.val) o.1 3 o.2 t)
  ∧ (∀ (n : Fin 8) (p : Bool) (rd ra rb : Fin 32) (o : FOut) (s : State),
      s.Issues n.val →
      s.FpFilled n.val →
      o = fMin ((s.now n.val).fr ra.val) ((s.now n.val).fr rb.val) →
      ∃ t, exec (.fmin n p rd ra rb) s = .next t
        ∧ s.Results n.val (.f rd.val) o.1 1 o.2 t)
  ∧ (∀ (n : Fin 8) (p : Bool) (rd ra rb : Fin 32) (o : FOut) (s : State),
      s.Issues n.val →
      s.FpFilled n.val →
      o = fMax ((s.now n.val).fr ra.val) ((s.now n.val).fr rb.val) →
      ∃ t, exec (.fmax n p rd ra rb) s = .next t
        ∧ s.Results n.val (.f rd.val) o.1 1 o.2 t)
  ∧ (∀ (n : Fin 8) (p : Bool) (rd ra : Fin 32) (o : FOut) (s : State),
      s.Issues n.val →
      s.FpFilled n.val →
      o = fAbs ((s.now n.val).fr ra.val) →
      ∃ t, exec (.fabs n p rd ra) s = .next t
        ∧ s.Results n.val (.f rd.val) o.1 1 o.2 t)
  ∧ (∀ (n : Fin 8) (p : Bool) (rd ra : Fin 32) (o : FOut) (s : State),
      s.Issues n.val →
      s.FpFilled n.val →
      o = fNeg ((s.now n.val).fr ra.val) →
      ∃ t, exec (.fneg n p rd ra) s = .next t
        ∧ s.Results n.val (.f rd.val) o.1 1 o.2 t)
  ∧ (∀ (n : Fin 8) (p : Bool) (rd ra rb : Fin 32) (o : FOut) (s : State),
      s.Issues n.val →
      s.FpFilled n.val →
      o = fCeq ((s.now n.val).fr ra.val) ((s.now n.val).fr rb.val) →
      s.KeepsLimit n.val (.g rd.val) o.1 →
      ∃ t, exec (.fceq n p rd ra rb) s = .next t
        ∧ s.Results n.val (.g rd.val) o.1 1 o.2 t)
  ∧ (∀ (n : Fin 8) (p : Bool) (rd ra rb : Fin 32) (o : FOut) (s : State),
      s.Issues n.val →
      s.FpFilled n.val →
      o = fClt ((s.now n.val).fr ra.val) ((s.now n.val).fr rb.val) →
      s.KeepsLimit n.val (.g rd.val) o.1 →
      ∃ t, exec (.fclt n p rd ra rb) s = .next t
        ∧ s.Results n.val (.g rd.val) o.1 1 o.2 t)
  ∧ (∀ (n : Fin 8) (p : Bool) (rd ra rb : Fin 32) (o : FOut) (s : State),
      s.Issues n.val →
      s.FpFilled n.val →
      o = fCle ((s.now n.val).fr ra.val) ((s.now n.val).fr rb.val) →
      s.KeepsLimit n.val (.g rd.val) o.1 →
      ∃ t, exec (.fcle n p rd ra rb) s = .next t
        ∧ s.Results n.val (.g rd.val) o.1 1 o.2 t)
  ∧ (∀ (n : Fin 8) (p : Bool) (rd ra rb : Fin 32) (o : FOut) (s : State),
      s.Issues n.val →
      s.FpFilled n.val →
      o = fCun ((s.now n.val).fr ra.val) ((s.now n.val).fr rb.val) →
      s.KeepsLimit n.val (.g rd.val) o.1 →
      ∃ t, exec (.fcun n p rd ra rb) s = .next t
        ∧ s.Results n.val (.g rd.val) o.1 1 o.2 t)
  ∧ (∀ (n : Fin 8) (p : Bool) (rd ra : Fin 32) (o : FOut) (s : State),
      s.Issues n.val →
      s.FpFilled n.val →
      o = fToSigned (rmOf ((s.now n.val).crv 2)) ((s.now n.val).fr ra.val) →
      s.KeepsLimit n.val (.g rd.val) o.1 →
      ∃ t, exec (.fcvtws n p rd ra) s = .next t
        ∧ s.Results n.val (.g rd.val) o.1 3 o.2 t)
  ∧ (∀ (n : Fin 8) (p : Bool) (rd ra : Fin 32) (o : FOut) (s : State),
      s.Issues n.val →
      s.FpFilled n.val →
      o = fToUnsigned (rmOf ((s.now n.val).crv 2)) ((s.now n.val).fr ra.val) →
      s.KeepsLimit n.val (.g rd.val) o.1 →
      ∃ t, exec (.fcvtwus n p rd ra) s = .next t
        ∧ s.Results n.val (.g rd.val) o.1 3 o.2 t)
  ∧ (∀ (n : Fin 8) (p : Bool) (rd ra : Fin 32) (o : FOut) (s : State),
      s.Issues n.val →
      s.FpFilled n.val →
      o = fOfInt (rmOf ((s.now n.val).crv 2)) (sInt ((s.now n.val).gr ra.val)) →
      ∃ t, exec (.fcvtsw n p rd ra) s = .next t
        ∧ s.Results n.val (.f rd.val) o.1 3 o.2 t)
  ∧ (∀ (n : Fin 8) (p : Bool) (rd ra : Fin 32) (o : FOut) (s : State),
      s.Issues n.val →
      s.FpFilled n.val →
      o = fOfInt (rmOf ((s.now n.val).crv 2)) (((s.now n.val).gr ra.val).toNat) →
      ∃ t, exec (.fcvtswu n p rd ra) s = .next t
        ∧ s.Results n.val (.f rd.val) o.1 3 o.2 t)
  ∧ (∀ (n : Fin 8) (p : Bool) (rd ra : Fin 32) (o : FOut) (s : State),
      s.Issues n.val →
      s.FpFilled n.val →
      o = (((s.now n.val).fr ra.val), 0#32) →
      s.KeepsLimit n.val (.g rd.val) o.1 →
      ∃ t, exec (.fmvgf n p rd ra) s = .next t
        ∧ s.Results n.val (.g rd.val) o.1 1 o.2 t)
  ∧ (∀ (n : Fin 8) (p : Bool) (rd ra : Fin 32) (o : FOut) (s : State),
      s.Issues n.val →
      s.FpFilled n.val →
      o = (((s.now n.val).gr ra.val), 0#32) →
      ∃ t, exec (.fmvfg n p rd ra) s = .next t
        ∧ s.Results n.val (.f rd.val) o.1 1 o.2 t)
  ∧ (∀ (n : Fin 8) (p : Bool) (fd fa fb fc : Fin 32) (o : FOut) (s : State),
      s.Issues n.val →
      s.FpFilled n.val →
      o = fFma (rmOf ((s.now n.val).crv 2)) false ((s.now n.val).fr fa.val) ((s.now n.val).fr fb.val) ((s.now n.val).fr fc.val) →
      ∃ t, exec (.fmadd n p fd fa fb fc) s = .next t
        ∧ s.Results n.val (.f fd.val) o.1 4 o.2 t)
  ∧ (∀ (n : Fin 8) (p : Bool) (fd fa fb fc : Fin 32) (o : FOut) (s : State),
      s.Issues n.val →
      s.FpFilled n.val →
      o = fFma (rmOf ((s.now n.val).crv 2)) false ((s.now n.val).fr fa.val) ((s.now n.val).fr fb.val) (((s.now n.val).fr fc.val) ^^^ 0x80000000#32) →
      ∃ t, exec (.fmsub n p fd fa fb fc) s = .next t
        ∧ s.Results n.val (.f fd.val) o.1 4 o.2 t)
  ∧ (∀ (n : Fin 8) (p : Bool) (fd fa fb fc : Fin 32) (o : FOut) (s : State),
      s.Issues n.val →
      s.FpFilled n.val →
      o = fFma (rmOf ((s.now n.val).crv 2)) false (((s.now n.val).fr fa.val) ^^^ 0x80000000#32) ((s.now n.val).fr fb.val) ((s.now n.val).fr fc.val) →
      ∃ t, exec (.fnmsub n p fd fa fb fc) s = .next t
        ∧ s.Results n.val (.f fd.val) o.1 4 o.2 t)
  ∧ (∀ (n : Fin 8) (p : Bool) (fd fa fb fc : Fin 32) (o : FOut) (s : State),
      s.Issues n.val →
      s.FpFilled n.val →
      o = fFma (rmOf ((s.now n.val).crv 2)) true ((s.now n.val).fr fa.val) ((s.now n.val).fr fb.val) ((s.now n.val).fr fc.val) →
      ∃ t, exec (.fnmadd n p fd fa fb fc) s = .next t
        ∧ s.Results n.val (.f fd.val) o.1 4 o.2 t)

/-- R282 to R288, R290 to R293, R302, R303, R306, R307, R323: memory and control instructions. (11_control_core_isa.md,
12_exceptions_banks_scheduler.md) -/
def Obligations.LoadStoreBlockAndControl : Prop :=
  (∀ (n : Fin 8) (p : Bool) (rd ra : Fin 32) (am size : Fin 4) (sign : Bool) (f : BitVec 11) (a : Word) (u : Option Word) (ad : Nat) (w : Word) (s : State),
      s.Issues n.val →
      (p = false ∨ (s.now n.val).native = false) →
      memIllegal true false rd.val ra.val am.val size.val sign = false →
      (a, u) = (s.now n.val).address ra.val am.val size.val f →
      a.toNat % mSize size.val = 0 →
      s.ramOf n a.toNat = some ad →
      s.eccMark ad = .good →
      (s.coreRec n.val).stale = [] →
      w = loadValue (mSize size.val) sign (w32 (s.loadN ad (mSize size.val))) →
      s.KeepsLimit n.val (.g rd.val) w →
      (u.isSome = true → s.KeepsLimit n.val (.g ra.val) (u.getD 0)) →
      ∃ t, exec (.ld n p rd ra am size sign f) s = .next t
        ∧ (s.IssuedAs n.val { ((s.now n.val).updated ra.val u).send (.g rd.val) w (if rd.val = 30 then 1 else 3) with pc := (s.now n.val).pc + 4#32 } t))
  ∧ (∀ (n : Fin 8) (p : Bool) (rd ra : Fin 32) (am size : Fin 4) (sign : Bool) (f : BitVec 11) (a : Word) (u : Option Word) (ad : Nat) (w : Word) (s : State),
      s.Issues n.val →
      s.FpFilled n.val →
      (p = false ∨ (s.now n.val).native = false) →
      memIllegal true true rd.val ra.val am.val size.val sign = false →
      (a, u) = (s.now n.val).address ra.val am.val size.val f →
      a.toNat % mSize size.val = 0 →
      s.ramOf n a.toNat = some ad →
      s.eccMark ad = .good →
      (s.coreRec n.val).stale = [] →
      w = loadValue (mSize size.val) sign (w32 (s.loadN ad (mSize size.val))) →
      (u.isSome = true → s.KeepsLimit n.val (.g ra.val) (u.getD 0)) →
      ∃ t, exec (.fld n p rd ra am size sign f) s = .next t
        ∧ (s.IssuedAs n.val { ((s.now n.val).updated ra.val u).send (.f rd.val) w 3 with pc := (s.now n.val).pc + 4#32 } t))
  ∧ (∀ (n : Fin 8) (p : Bool) (rd ra : Fin 32) (am size : Fin 4) (sign : Bool) (f : BitVec 11) (a : Word) (u : Option Word) (ad : Nat) (s : State),
      s.Issues n.val →
      (p = false ∨ (s.now n.val).native = false) →
      memIllegal false false rd.val ra.val am.val size.val sign = false →
      (a, u) = (s.now n.val).address ra.val am.val size.val f →
      a.toNat % mSize size.val = 0 →
      s.ramOf n a.toNat = some ad →
      (size.val = 2 ∨ s.eccMark ad = .good) →
      (u.isSome = true → s.KeepsLimit n.val (.g ra.val) (u.getD 0)) →
      ∃ t, exec (.st n p rd ra am size sign f) s = .next t
        ∧ (s.Stored n.val { (s.now n.val).updated ra.val u with pc := (s.now n.val).pc + 4#32 } ad (mSize size.val) ((s.now n.val).gr rd.val) t))
  ∧ (∀ (n : Fin 8) (p : Bool) (rd ra : Fin 32) (am size : Fin 4) (sign : Bool) (f : BitVec 11) (a : Word) (u : Option Word) (ad : Nat) (s : State),
      s.Issues n.val →
      s.FpFilled n.val →
      (p = false ∨ (s.now n.val).native = false) →
      memIllegal false true rd.val ra.val am.val size.val sign = false →
      (a, u) = (s.now n.val).address ra.val am.val size.val f →
      a.toNat % mSize size.val = 0 →
      s.ramOf n a.toNat = some ad →
      (size.val = 2 ∨ s.eccMark ad = .good) →
      (u.isSome = true → s.KeepsLimit n.val (.g ra.val) (u.getD 0)) →
      ∃ t, exec (.fst n p rd ra am size sign f) s = .next t
        ∧ (s.Stored n.val { (s.now n.val).updated ra.val u with pc := (s.now n.val).pc + 4#32 } ad (mSize size.val) ((s.now n.val).fr rd.val) t))
  ∧ (∀ (n : Fin 8) (rd ra : Fin 32) (am size : Fin 4) (sign : Bool) (f : BitVec 11) (a : Word) (u : Option Word) (s : State),
      s.Issues n.val →
      (s.now n.val).native = true →
      memIllegal true false rd.val ra.val am.val size.val sign = false →
      (a, u) = (s.now n.val).address ra.val am.val size.val f →
      a.toNat % mSize size.val = 0 →
      (u.isSome = true → s.KeepsLimit n.val (.g ra.val) (u.getD 0)) →
      s.frozenRead n.val a.toNat = false →
      ∃ t, exec (.ld n true rd ra am size sign f) s = .next t
        ∧ (t.core n.val = { (s.now n.val).updated ra.val u with pc := (s.now n.val).pc + 4#32 })
        ∧ ((t.coreRec n.val).pair.map (fun q => q.held)) = some (some (.load (.g rd.val) a (mSize size.val) sign))
        ∧ SameBut [.cores] s t)
  ∧ (∀ (n : Fin 8) (p : Bool) (ra rm : Fin 32) (dir wb fp : Bool) (s : State),
      s.Issues n.val →
      (fp = true → s.FpFilled n.val) →
      (s.now n.val).compat = false →
      (fp = true ∨ bit ((s.now n.val).gr rm.val) 0 = false ∧ (wb = true → bit ((s.now n.val).gr rm.val) ra.val = false)) →
      (blockRegs ((s.now n.val).gr rm.val) dir fp = [] ∨ (blockAddr ((s.now n.val).gr ra.val) dir 0).toNat % 4 = 0) →
      (wb = true → s.KeepsLimit n.val (.g ra.val) (blockEnd ((s.now n.val).gr ra.val) ((s.now n.val).gr rm.val) dir)) →
      (fp = true ∨ bit ((s.now n.val).gr rm.val) 30 = false) →
      ∃ t, exec (.ldm n p ra rm dir wb fp) s = .next t
        ∧ (t.core n.val = { (s.now n.val) with pc := (s.now n.val).pc + 4#32, blk := some ⟨encB p 0x10 ra.val rm.val dir wb fp, ((s.now n.val).gr ra.val), ((s.now n.val).gr rm.val), 0, []⟩ })
        ∧ SameBut [.cores] s t)
  ∧ (∀ (n : Fin 8) (p : Bool) (ra rm : Fin 32) (dir wb fp : Bool) (s : State),
      s.Issues n.val →
      (fp = true → s.FpFilled n.val) →
      (s.now n.val).compat = false →
      (fp = true ∨ bit ((s.now n.val).gr rm.val) 0 = false ∧ (wb = true → bit ((s.now n.val).gr rm.val) ra.val = false)) →
      (blockRegs ((s.now n.val).gr rm.val) dir fp = [] ∨ (blockAddr ((s.now n.val).gr ra.val) dir 0).toNat % 4 = 0) →
      (wb = true → s.KeepsLimit n.val (.g ra.val) (blockEnd ((s.now n.val).gr ra.val) ((s.now n.val).gr rm.val) dir)) →
      ∃ t, exec (.stm n p ra rm dir wb fp) s = .next t
        ∧ (t.core n.val = { (s.now n.val) with pc := (s.now n.val).pc + 4#32, blk := some ⟨encB p 0x11 ra.val rm.val dir wb fp, ((s.now n.val).gr ra.val), ((s.now n.val).gr rm.val), 0, ((s.now n.val).blockData (blockRegs ((s.now n.val).gr rm.val) dir fp))⟩ })
        ∧ SameBut [.cores] s t)
  ∧ (∀ (n : Fin 8) (b : BlockOp) (s : State),
      s.coreReady n.val = true →
      (s.coreRec n.val).pair = none →
      (s.coreRec n.val).stale = [] →
      (s.core n.val).blk = some b →
      b.load = true →
      (∀ k : Fin 32, b.next ≤ k.val → k.val < b.regs.length → s.goodWord n (b.addr k.val).toNat = true) →
      (∀ k : Fin 32, b.next ≤ k.val → b.regs[k.val]? = some (.g 30) → (s.core n.val).violates (s.wordAt n (b.addr k.val).toNat) = false) →
      ∃ t, exec (.longOperationComplete n 2) s = .next t
        ∧ (t.core n.val).blk = none
        ∧ (∀ (k : Fin 32) (r : Fin 32), b.next ≤ k.val → b.regs[k.val]? = some (.g r.val) → r.val ≠ 0 → (b.wb = false ∨ r.val ≠ b.ra) → (t.core n.val).gr r.val = s.wordAt n (b.addr k.val).toNat)
        ∧ (∀ (k : Fin 32) (r : Fin 32), b.next ≤ k.val → b.regs[k.val]? = some (.f r.val) → (t.core n.val).fr r.val = s.wordAt n (b.addr k.val).toNat)
        ∧ (b.wb = true → b.ra ≠ 0 → (t.core n.val).gr b.ra = blockEnd b.base b.mask b.dir)
        ∧ SameBut [.cores] s t)
  ∧ (∀ (n : Fin 8) (b : BlockOp) (s : State),
      s.coreReady n.val = true →
      (s.coreRec n.val).pair = none →
      (s.core n.val).blk = some b →
      b.load = false →
      b.data.length = b.regs.length →
      (∀ k : Fin 32, b.next ≤ k.val → k.val < b.regs.length → s.goodWord n (b.addr k.val).toNat = true) →
      ∃ t, exec (.longOperationComplete n 2) s = .next t
        ∧ (t.core n.val).blk = none
        ∧ (∀ k : Fin 32, b.next ≤ k.val → k.val < b.data.length → t.wordAt n (b.addr k.val).toNat = b.data.getD k.val 0)
        ∧ (b.wb = true → b.ra ≠ 0 → (t.core n.val).gr b.ra = blockEnd b.base b.mask b.dir)
        ∧ SameBut [.cores, .mem, .ecc, .freeCtr] s t)
  ∧ (∀ (n : Fin 8) (p : Bool) (ra : Fin 32) (off : BitVec 21) (s : State),
      s.Issues n.val →
      ((s.now n.val).pc + wOfInt (4 * off.toInt)).toNat % 4 = 0 →
      ∃ t, exec (.bz n p ra off) s = .next t
        ∧ (s.IssuedAs n.val { (s.now n.val) with pc := if (s.now n.val).gr ra.val = 0#32 then ((s.now n.val).pc + wOfInt (4 * off.toInt)) else (s.now n.val).pc + 4#32 } t))
  ∧ (∀ (n : Fin 8) (p : Bool) (ra : Fin 32) (off : BitVec 21) (s : State),
      s.Issues n.val →
      ((s.now n.val).pc + wOfInt (4 * off.toInt)).toNat % 4 = 0 →
      ∃ t, exec (.bnz n p ra off) s = .next t
        ∧ (s.IssuedAs n.val { (s.now n.val) with pc := if (s.now n.val).gr ra.val = 0#32 then (s.now n.val).pc + 4#32 else ((s.now n.val).pc + wOfInt (4 * off.toInt)) } t))
  ∧ (∀ (n : Fin 8) (p : Bool) (off : BitVec 26) (s : State),
      s.Issues n.val →
      ((s.now n.val).pc + wOfInt (4 * off.toInt)).toNat % 4 = 0 →
      ∃ t, exec (.j n p off) s = .next t
        ∧ (s.IssuedAs n.val { (s.now n.val) with pc := ((s.now n.val).pc + wOfInt (4 * off.toInt)) } t))
  ∧ (∀ (n : Fin 8) (p : Bool) (ra : Fin 32) (s : State),
      s.Issues n.val →
      ((s.now n.val).gr ra.val).toNat % 4 = 0 →
      ∃ t, exec (.jr n p ra) s = .next t
        ∧ (s.IssuedAs n.val { (s.now n.val) with pc := (s.now n.val).gr ra.val } t))
  ∧ (∀ (n : Fin 8) (p : Bool) (off : BitVec 26) (ad : Nat) (s : State),
      s.Issues n.val →
      ((s.now n.val).pc + wOfInt (4 * off.toInt)).toNat % 4 = 0 →
      ((s.now n.val).crv 5 = 0#32 ∨ ((s.now n.val).crv 5).toNat ≤ ((s.now n.val).crv 4 - 4#32).toNat) →
      ((s.now n.val).crv 4 - 4#32).toNat % 4 = 0 →
      s.ramOf n ((s.now n.val).crv 4 - 4#32).toNat = some ad →
      ∃ t, exec (.call n p off) s = .next t
        ∧ (s.Stored n.val { (s.now n.val).setCr 4 ((s.now n.val).crv 4 - 4#32) with pc := ((s.now n.val).pc + wOfInt (4 * off.toInt)) } ad 4 ((s.now n.val).pc + 4#32) t))
  ∧ (∀ (n : Fin 8) (p : Bool) (ra : Fin 32) (ad : Nat) (s : State),
      s.Issues n.val →
      ((s.now n.val).gr ra.val).toNat % 4 = 0 →
      ((s.now n.val).crv 5 = 0#32 ∨ ((s.now n.val).crv 5).toNat ≤ ((s.now n.val).crv 4 - 4#32).toNat) →
      ((s.now n.val).crv 4 - 4#32).toNat % 4 = 0 →
      s.ramOf n ((s.now n.val).crv 4 - 4#32).toNat = some ad →
      ∃ t, exec (.callr n p ra) s = .next t
        ∧ (s.Stored n.val { (s.now n.val).setCr 4 ((s.now n.val).crv 4 - 4#32) with pc := ((s.now n.val).gr ra.val) } ad 4 ((s.now n.val).pc + 4#32) t))
  ∧ (∀ (n : Fin 8) (p : Bool) (s : State),
      s.Issues n.val →
      s.goodWord n ((s.now n.val).crv 4).toNat = true →
      (s.coreRec n.val).stale = [] →
      (s.wordAt n ((s.now n.val).crv 4).toNat).toNat % 4 = 0 →
      ∃ t, exec (.ret n p) s = .next t
        ∧ (s.IssuedAs n.val { (s.now n.val).setCr 4 (((s.now n.val).crv 4) + 4#32) with pc := s.wordAt n ((s.now n.val).crv 4).toNat } t))
  ∧ (∀ (n : Fin 8) (p : Bool) (s : State),
      s.Issues n.val →
      (s.core n.val).sup = true →
      (∀ i : Fin 68, s.goodWord n (((s.now n.val).landAll).gr 30 + w32 (4 * i.val)).toNat = true) →
      (s.coreRec n.val).stale = [] →
      (s.wordAt n (((s.now n.val).landAll).gr 30 + w32 (4 * 1)).toNat).toNat % 4 = 0 →
      fld (s.wordAt n (((s.now n.val).landAll).gr 30 + w32 (4 * 13)).toNat) 10 8 = 0 ∧ fld (s.wordAt n (((s.now n.val).landAll).gr 30 + w32 (4 * 13)).toNat) 2 0 = 0 →
      s.slotEn n.val (s.runSlot n.val) = true →
      s.preempts n.val = none →
      ∃ t, exec (.retx n p) s = .next t
        ∧ (t.core n.val).pc = (s.wordAt n (((s.now n.val).landAll).gr 30 + w32 (4 * 1)).toNat)
        ∧ (t.core n.val).crv 0 = ((s.now n.val).crv 0 &&& ~~~ 0xE0003F00#32) ||| ((s.wordAt n (((s.now n.val).landAll).gr 30 + w32 (4 * 0)).toNat) &&& 0xE0003F00#32)
        ∧ (∀ i : Fin 7, (t.core n.val).gr (i.val + 1) = (s.wordAt n (((s.now n.val).landAll).gr 30 + w32 (4 * (i.val + 6))).toNat))
        ∧ (t.core n.val).gr 30 = ((s.now n.val).landAll).gr 30 + 272#32
        ∧ (t.core n.val).crv 6 = (s.wordAt n (((s.now n.val).landAll).gr 30 + w32 (4 * 4)).toNat) ∧ (t.core n.val).crv 5 = (s.wordAt n (((s.now n.val).landAll).gr 30 + w32 (4 * 5)).toNat)
        ∧ (t.core n.val).crv 0x24 = w32 (((s.now n.val).crv 0x24).toNat - 1)
        ∧ (t.core n.val).frames = (s.now n.val).frames.tail
        ∧ (((s.now n.val).landAll).fps = true → ∀ i : Fin 32, (t.core n.val).fr i.val = (s.wordAt n (((s.now n.val).landAll).gr 30 + w32 (4 * (i.val + 36))).toNat))
        ∧ SameBut [.cores] s t)

/-- R296, R299 to R301, R307, R313, R326, R327, R332, R334: SYS instructions and bank moves. (11_control_core_isa.md,
12_exceptions_banks_scheduler.md) -/
def Obligations.SystemInstructions : Prop :=
  (∀ (n : Fin 8) (p : Bool) (rd : Fin 32) (cr : BitVec 8) (v : Word) (s : State),
      s.Issues n.val →
      crListed cr.toNat = true →
      (mfcrTask cr.toNat = true ∨ (s.core n.val).sup = true) →
      (cr = 2#8 → s.FpFilled n.val) →
      v = (if cr = 0x10#8 then s.coreId n.val else (s.now n.val).crv cr.toNat) →
      s.KeepsLimit n.val (.g rd.val) v →
      ∃ t, exec (.mfcr n p rd cr) s = .next t
        ∧ s.Results n.val (.g rd.val) v 1 0#32 t)
  ∧ (∀ (n : Fin 8) (p : Bool) (cr : BitVec 8) (ra : Fin 32) (s : State),
      s.Issues n.val →
      crListed cr.toNat = true →
      (mtcrTask cr.toNat = true ∨ (s.core n.val).sup = true) →
      (cr = 2#8 → s.FpFilled n.val) →
      s.Stays n.val →
      ∃ t, exec (.mtcr n p cr ra) s = .next t
        ∧ (t.core n.val = (let x := (let d := (if cr = 1#8 ∨ cr = 3#8 then (s.now n.val).landAll else (s.now n.val)); { d.writeCr cr.toNat (d.gr ra.val) with pc := d.pc + 4#32 }); if x.compat then x.landAll else x))
        ∧ SameBut [.cores] s t)
  ∧ (∀ (n : Fin 8) (p : Bool) (s : State),
      s.Issues n.val →
      (s.coreRec n.val).deferred = [] →
      ∃ t, exec (.fence n p) s = .next t
        ∧ (s.IssuedAs n.val { (s.now n.val) with pc := (s.now n.val).pc + 4#32 } t))
  ∧ (∀ (n : Fin 8) (p : Bool) (s : State),
      s.Issues n.val →
      (s.coreRec n.val).deferred = [] →
      ∃ t, exec (.ifence n p) s = .next t
        ∧ (s.IssuedAs n.val { (s.now n.val) with pc := (s.now n.val).pc + 4#32 } t))
  ∧ (∀ (n : Fin 8) (p : Bool) (ra : Fin 32) (s : State),
      s.Issues n.val →
      ∃ t, exec (.icinv n p ra) s = .next t
        ∧ (s.IssuedAs n.val { (s.now n.val) with pc := (s.now n.val).pc + 4#32 } t)
        ∧ (t.coreRec n.val).stale = (s.coreRec n.val).stale)
  ∧ (∀ (n : Fin 8) (p : Bool) (ra : Fin 32) (s : State),
      s.Issues n.val →
      ∃ t, exec (.dcinv n p ra) s = .next t
        ∧ (s.IssuedAs n.val { (s.now n.val) with pc := (s.now n.val).pc + 4#32 } t)
        ∧ (t.coreRec n.val).stale = (s.coreRec n.val).stale.filter (fun e => e.1 / 64 != ((s.now n.val).gr ra.val).toNat / 64))
  ∧ (∀ (n : Fin 8) (p : Bool) (s : State),
      s.Issues n.val →
      (s.core n.val).sup = true →
      ∃ t, exec (.icinvall n p) s = .next t
        ∧ (s.IssuedAs n.val { (s.now n.val) with pc := (s.now n.val).pc + 4#32 } t))
  ∧ (∀ (n : Fin 8) (p : Bool) (s : State),
      s.Issues n.val →
      (s.core n.val).sup = true →
      ∃ t, exec (.dcinvall n p) s = .next t
        ∧ (s.IssuedAs n.val { (s.now n.val) with pc := (s.now n.val).pc + 4#32 } t)
        ∧ (t.coreRec n.val).stale = [])
  ∧ (∀ (n : Fin 8) (p : Bool) (s : State),
      s.Issues n.val →
      s.slotPend n.val (s.runSlot n.val) = false →
      s.slotSt n.val (s.runSlot n.val) = 3 →
      (s.core n.val).lockout = false →
      (∀ j : Fin 256, j.val ≠ s.runSlot n.val → s.slotReady n.val j.val = false) →
      ∃ t, exec (.wait n p) s = .next t
        ∧ t.slotSt n.val (s.runSlot n.val) = 1
        ∧ t.coreRun n.val = 2
        ∧ (t.slotCtx n.val (s.runSlot n.val)).pc = (s.now n.val).pc + 4#32
        ∧ t.mem = s.mem)
  ∧ (∀ (n : Fin 8) (p : Bool) (s : State),
      s.Issues n.val →
      s.slotPend n.val (s.runSlot n.val) = true →
      s.slotSt n.val (s.runSlot n.val) = 3 →
      s.schedulable n.val (s.runSlot n.val) = true →
      s.resident n.val (s.runSlot n.val) = true →
      (∀ j : Fin 256, j.val ≠ s.runSlot n.val → s.slotReady n.val j.val = false) →
      ∃ t, exec (.wait n p) s = .next t
        ∧ t.slotPend n.val (s.runSlot n.val) = false
        ∧ t.slotSt n.val (s.runSlot n.val) = 3
        ∧ t.coreRun n.val = 1
        ∧ (t.slotCtx n.val (s.runSlot n.val)).pc = (s.now n.val).pc + 4#32
        ∧ t.mem = s.mem)
  ∧ (∀ (n : Fin 8) (p : Bool) (rg : Fin 32) (cls : Fin 4) (num : Fin 64) (v : Word) (s : State),
      s.Issues n.val →
      (s.core n.val).sup = true →
      s.windowMoves n.val = false →
      bankIllegal cls.val num.val false (s.bankWindow n.val == s.runSlot n.val) = false →
      s.FpFilled n.val →
      v = (match cls.val with | 0 => (if (s.bankWindow n.val == s.runSlot n.val) = true then (s.now n.val) else s.slotCtx n.val (s.bankWindow n.val)).gr num.val | 1 => (if (s.bankWindow n.val == s.runSlot n.val) = true then (s.now n.val) else s.slotCtx n.val (s.bankWindow n.val)).fr num.val | 2 => (if (s.bankWindow n.val == s.runSlot n.val) = true then (s.now n.val) else s.slotCtx n.val (s.bankWindow n.val)).crv num.val | _ => if (s.bankWindow n.val == s.runSlot n.val) = true then (s.now n.val).pc + 4#32 else (if (s.bankWindow n.val == s.runSlot n.val) = true then (s.now n.val) else s.slotCtx n.val (s.bankWindow n.val)).pc) →
      s.KeepsLimit n.val (.g rg.val) v →
      ∃ t, exec (.mfb n p rg cls num) s = .next t
        ∧ s.Results n.val (.g rg.val) v 1 0#32 t)
  ∧ (∀ (n : Fin 8) (p : Bool) (rg : Fin 32) (cls : Fin 4) (num : Fin 64) (d : CReg) (s : State),
      s.Issues n.val →
      (s.core n.val).sup = true →
      s.windowMoves n.val = false →
      bankIllegal cls.val num.val true (s.bankWindow n.val == s.runSlot n.val) = false →
      s.FpFilled n.val →
      s.Stays n.val →
      (s.bankWindow n.val == s.runSlot n.val) = true →
      cls.val < 2 →
      d = (if cls.val = 0 then .g num.val else .f num.val) →
      s.KeepsLimit n.val d ((s.now n.val).gr rg.val) →
      ∃ t, exec (.mtb n p rg cls num) s = .next t
        ∧ (s.IssuedAs n.val { (s.now n.val).send d ((s.now n.val).gr rg.val) 1 with pc := (s.now n.val).pc + 4#32 } t))
  ∧ (∀ (n : Fin 8) (p : Bool) (rg : Fin 32) (cls : Fin 4) (num : Fin 64) (s : State),
      s.Issues n.val →
      (s.core n.val).sup = true →
      s.windowMoves n.val = false →
      bankIllegal cls.val num.val true (s.bankWindow n.val == s.runSlot n.val) = false →
      s.FpFilled n.val →
      s.Stays n.val →
      (s.bankWindow n.val == s.runSlot n.val) = true →
      cls.val = 2 →
      ∃ t, exec (.mtb n p rg cls num) s = .next t
        ∧ (t.core n.val = (let x := { (s.now n.val).writeCr num.val ((s.now n.val).gr rg.val) with pc := (s.now n.val).pc + 4#32 }; if x.compat then x.landAll else x))
        ∧ SameBut [.cores] s t)
  ∧ (∀ (n : Fin 8) (p : Bool) (rg : Fin 32) (cls : Fin 4) (num : Fin 64) (s : State),
      s.Issues n.val →
      (s.core n.val).sup = true →
      s.windowMoves n.val = false →
      bankIllegal cls.val num.val true (s.bankWindow n.val == s.runSlot n.val) = false →
      s.FpFilled n.val →
      s.Stays n.val →
      (s.bankWindow n.val == s.runSlot n.val) = false →
      ∃ t, exec (.mtb n p rg cls num) s = .next t
        ∧ (t.slotCtx n.val (s.bankWindow n.val) = (match cls.val with | 0 => (s.slotCtx n.val (s.bankWindow n.val)).put (.g num.val) ((s.now n.val).gr rg.val) | 1 => (s.slotCtx n.val (s.bankWindow n.val)).put (.f num.val) ((s.now n.val).gr rg.val) | 2 => (s.slotCtx n.val (s.bankWindow n.val)).writeCr num.val ((s.now n.val).gr rg.val) | _ => { s.slotCtx n.val (s.bankWindow n.val) with pc := ((s.now n.val).gr rg.val) &&& 0xFFFFFFFC#32 }))
        ∧ (s.IssuedAs n.val { (s.now n.val) with pc := (s.now n.val).pc + 4#32 } t))

/-- R315 to R322, R324, R325: taking an exception. (12_exceptions_banks_scheduler.md) -/
def Obligations.ExceptionEntry : Prop :=
  (∀ (n : Fin 8) (p : Bool) (imm : BitVec 8) (v : Word) (s : State),
      s.Issues n.val →
      s.CanEnter n ((s.now n.val).betweenCycles) 7 v →
      ∃ t, exec (.trap n p imm) s = .next t
        ∧ State.Entered n ((s.now n.val).betweenCycles) 7 0#32 imm.toNat false ((s.now n.val).pc + 4#32) v t
        ∧ SameBut [.cores, .mem, .ecc, .freeCtr] s t)
  ∧ (∀ (n : Fin 8) (a : Word) (k : Nat) (l : List (Word × Nat)) (v : Word) (s : State),
      s.coreReady n.val = true →
      (s.coreRec n.val).pair = none →
      (s.core n.val).blk = none →
      (s.coreRec n.val).deferred = (a, k) :: l →
      s.CanEnter n ((s.core n.val).betweenCycles) k v →
      ∃ t, exec (.storeFaultDeferred n) s = .next t
        ∧ State.Entered n ((s.core n.val).betweenCycles) k a 0 true ((s.core n.val).betweenCycles).pc v t
        ∧ SameBut [.cores, .mem, .ecc, .freeCtr] s t
        ∧ (t.coreRec n.val).deferred = l)
  ∧ (∀ (n : Fin 8) (p : Bool) (v : Word) (s : State),
      s.Issues n.val →
      (s.core n.val).sup = false →
      s.CanEnter n ((s.core n.val).betweenCycles) 4 v →
      ∃ t, exec (.icinvall n p) s = .next t
        ∧ State.Entered n ((s.core n.val).betweenCycles) 4 (encS p 0 0 0 6) 0 false ((s.core n.val).betweenCycles).pc v t
        ∧ SameBut [.cores, .mem, .ecc, .freeCtr] s t)
  ∧ (∀ (n : Fin 8) (p : Bool) (rd ra : Fin 32) (am size : Fin 4) (sign : Bool) (f : BitVec 11) (v : Word) (s : State),
      s.Issues n.val →
      memIllegal true false rd.val ra.val am.val size.val sign = true →
      s.CanEnter n ((s.core n.val).betweenCycles) 1 v →
      ∃ t, exec (.ld n p rd ra am size sign f) s = .next t
        ∧ State.Entered n ((s.core n.val).betweenCycles) 1 (encM p 0xC rd.val ra.val am.val size.val sign f.toNat) 0 false ((s.core n.val).betweenCycles).pc v t
        ∧ SameBut [.cores, .mem, .ecc, .freeCtr] s t)
  ∧ (∀ (n : Fin 8) (p : Bool) (rd ra : Fin 32) (am size : Fin 4) (sign : Bool) (f : BitVec 11) (v : Word) (s : State),
      s.Issues n.val →
      memIllegal true false rd.val ra.val am.val size.val sign = false →
      ((s.now n.val).address ra.val am.val size.val f).1.toNat % mSize size.val ≠ 0 →
      s.CanEnter n ((s.core n.val).betweenCycles) 2 v →
      ∃ t, exec (.ld n p rd ra am size sign f) s = .next t
        ∧ State.Entered n ((s.core n.val).betweenCycles) 2 ((s.now n.val).address ra.val am.val size.val f).1 0 false ((s.core n.val).betweenCycles).pc v t
        ∧ SameBut [.cores, .mem, .ecc, .freeCtr] s t)
  ∧ (∀ (n : Fin 8) (p : Bool) (ra : Fin 32) (v : Word) (s : State),
      s.Issues n.val →
      ((s.now n.val).gr ra.val).toNat % 4 ≠ 0 →
      s.CanEnter n ((s.core n.val).betweenCycles) 2 v →
      ∃ t, exec (.jr n p ra) s = .next t
        ∧ State.Entered n ((s.core n.val).betweenCycles) 2 ((s.now n.val).gr ra.val) 0 false ((s.core n.val).betweenCycles).pc v t
        ∧ SameBut [.cores, .mem, .ecc, .freeCtr] s t)
  ∧ (∀ (n : Fin 8) (p : Bool) (imm : BitVec 8) (s : State),
      s.Issues n.val →
      ((s.now n.val).betweenCycles).violates (((s.now n.val).betweenCycles).gr 30 - 272#32) = true →
      ∃ t, exec (.trap n p imm) s = .next t
        ∧ t.coreRun n.val = 4
        ∧ t.reg (R.SCH_HALT_INFO n.val) = 1#32
        ∧ t.reg (R.SCH_HALT_PC n.val) = ((s.now n.val).betweenCycles).pc
        ∧ t.rb (R.CC_STATUS n.val) 0 = true
        ∧ t.mem = s.mem)

/-- R326 to R331, R335: the scheduler. (12_exceptions_banks_scheduler.md) -/
def Obligations.SchedulerCommands : Prop :=
  (∀ (n : Fin 8) (slot : Fin 256) (s : State),
      s.upperLocked n.val = true →
      exec (.schedulerEvent n slot) s = .next (s))
  ∧ (∀ (n : Fin 8) (slot : Fin 256) (s : State),
      s.upperLocked n.val = false →
      s.coreRun n.val ≠ 1 →
      s.coreRun n.val ≠ 2 →
      s.slotEn n.val slot.val = true →
      s.slotPend n.val slot.val = false →
      ∃ t, exec (.schedulerEvent n slot) s = .next t
        ∧ t.slotPend n.val slot.val = true
        ∧ t.slotSt n.val slot.val = s.slotSt n.val slot.val
        ∧ RegsBut [R.SCH_SLOTs_STATE n.val slot.val] s t
        ∧ SameBut [.regs] s t)
  ∧ (∀ (n : Fin 8) (slot : Fin 256) (s : State),
      s.upperLocked n.val = false →
      s.coreRun n.val ≠ 1 →
      s.coreRun n.val ≠ 2 →
      s.slotEn n.val slot.val = true →
      s.slotPend n.val slot.val = true →
      ∃ t, exec (.schedulerEvent n slot) s = .next t
        ∧ t.rb (R.SCH_SLOTs_STATE n.val slot.val) 27 = true
        ∧ t.slotPend n.val slot.val = true
        ∧ t.rb (R.SCH_STATUS n.val) 2 = true
        ∧ RegsBut [R.SCH_SLOTs_STATE n.val slot.val, R.SCH_STATUS n.val] s t
        ∧ SameBut [.regs, .scCount] s t)
  ∧ (∀ (n : Fin 8) (slot : Fin 256) (s : State),
      s.upperLocked n.val = false →
      s.coreRun n.val ≠ 1 →
      s.coreRun n.val ≠ 2 →
      s.slotEn n.val slot.val = false →
      exec (.schedulerEvent n slot) s = .next (s))
  ∧ (∀ (n : Fin 8) (slot : Fin 256) (s : State),
      s.upperLocked n.val = false →
      s.coreRun n.val = 2 →
      (s.core n.val).lockout = false →
      s.slotEn n.val slot.val = true →
      s.slotSt n.val slot.val = 1 →
      s.schedulable n.val slot.val = true →
      s.resident n.val slot.val = true →
      (∀ j : Fin 256, j ≠ slot → s.slotReady n.val j.val = false) →
      ∃ t, exec (.schedulerEvent n slot) s = .next t
        ∧ t.runSlot n.val = slot.val
        ∧ t.slotSt n.val slot.val = 3
        ∧ t.coreRun n.val = 1
        ∧ t.slotPend n.val slot.val = false
        ∧ t.rf (R.SCH_SLOTs_STATE n.val slot.val) 15 0 = (s.rf (R.SCH_SLOTs_STATE n.val slot.val) 15 0 + 1) % 65536
        ∧ (t.coreRec n.val).dom = s.rf (R.SCH_SLOTs_DOM n.val slot.val) 3 0
        ∧ t.slotCtx n.val slot.val = s.slotCtx n.val slot.val
        ∧ t.mem = s.mem)
  ∧ (∀ (n : Fin 8) (slot : Fin 256) (s : State),
      s.upperLocked n.val = false →
      s.coreRun n.val = 1 →
      (s.core n.val).lockout = false →
      s.slotEn n.val (s.runSlot n.val) = true →
      s.slotEn n.val slot.val = true →
      s.slotSt n.val slot.val = 1 →
      s.schedulable n.val slot.val = true →
      s.resident n.val slot.val = true →
      s.slotPrio n.val (s.runSlot n.val) < s.slotPrio n.val slot.val →
      (∀ j : Fin 256, j ≠ slot → s.slotReady n.val j.val = false) →
      ∃ t, exec (.schedulerEvent n slot) s = .next t
        ∧ .taskPreempt n ∈ t.due
        ∧ t.slotPend n.val slot.val = true
        ∧ t.runSlot n.val = s.runSlot n.val
        ∧ t.coreRun n.val = 1
        ∧ t.mem = s.mem)
  ∧ (∀ (n : Fin 8) (slot : Fin 256) (s : State),
      s.upperLocked n.val = false →
      s.coreRun n.val = 1 →
      s.slotEn n.val (s.runSlot n.val) = true →
      s.slotEn n.val slot.val = true →
      s.slotPend n.val slot.val = false →
      s.slotPrio n.val slot.val ≤ s.slotPrio n.val (s.runSlot n.val) →
      s.preempts n.val = none →
      ∃ t, exec (.schedulerEvent n slot) s = .next t
        ∧ t.slotPend n.val slot.val = true
        ∧ RegsBut [R.SCH_SLOTs_STATE n.val slot.val] s t
        ∧ SameBut [.regs, .cores] s t)
  ∧ (∀ (n : Fin 8) (slot : Fin 256) (s : State),
      s.upperLocked n.val = false →
      s.coreRun n.val = 1 →
      (s.core n.val).lockout = false →
      s.preempts n.val = some slot.val →
      s.resident n.val slot.val = true →
      (s.coreRec n.val).pair = none →
      ∃ t, exec (.taskPreempt n) s = .next t
        ∧ t.slotSt n.val (s.runSlot n.val) = 2
        ∧ (t.slotCtx n.val (s.runSlot n.val) = (let c := (s.core n.val).betweenCycles; match c.blk with | some b => c.setCr 0 (setFld (c.crv 0) 13 8 b.next) | none => c))
        ∧ t.runSlot n.val = slot.val
        ∧ t.slotSt n.val slot.val = 3
        ∧ t.coreRun n.val = 1
        ∧ (s.slotSt n.val slot.val = 1 → t.slotPend n.val slot.val = false)
        ∧ (t.coreRec n.val).dom = s.rf (R.SCH_SLOTs_DOM n.val slot.val) 3 0
        ∧ t.slotCtx n.val slot.val = s.slotCtx n.val slot.val
        ∧ t.mem = s.mem)
  ∧ (∀ (n : Fin 8) (s : State),
      (s.coreRun n.val ≠ 1 ∨ (s.core n.val).lockout = true ∨ s.preempts n.val = none) →
      exec (.taskPreempt n) s = .next (s))
  ∧ (∀ (n : Fin 8) (slot : Fin 256) (k : Nat) (s : State),
      (s.coreRec n.val).engine = some (false, slot.val, k) →
      s.slotEn n.val (s.runSlot n.val) = true →
      ∃ t, exec (.bankSpillDone n) s = .next t
        ∧ t.resident n.val slot.val = false
        ∧ (∀ j : Fin 256, j ≠ slot → t.resident n.val j.val = s.resident n.val j.val)
        ∧ (∀ j : Fin 256, t.slotCtx n.val j.val = s.slotCtx n.val j.val)
        ∧ BytesBut (0x30000000 + 0x100000 * n.val + (s.reg (R.SCH_SPILL n.val)).toNat + 512 * slot.val) 512 s t)
  ∧ (∀ (n : Fin 8) (slot : Fin 256) (k : Nat) (s : State),
      ((s.coreRec n.val).engine = none ∨ (s.coreRec n.val).engine = some (true, slot.val, k)) →
      exec (.bankSpillDone n) s = .next (s))
  ∧ (∀ (n : Fin 8) (slot : Fin 256) (k : Nat) (s : State),
      (s.coreRec n.val).engine = some (true, slot.val, k) →
      s.slotEn n.val (s.runSlot n.val) = true →
      (s.coreRec n.val).banks.any (fun b => b.isNone) = true →
      ∃ t, exec (.bankFillDone n false) s = .next t
        ∧ t.resident n.val slot.val = true
        ∧ (∀ j : Fin 256, j ≠ slot → t.resident n.val j.val = s.resident n.val j.val)
        ∧ (∀ j : Fin 256, t.slotCtx n.val j.val = s.slotCtx n.val j.val)
        ∧ t.mem = s.mem)
  ∧ (∀ (n : Fin 8) (slot : Fin 256) (k : Nat) (s : State),
      (s.coreRec n.val).engine = some (true, slot.val, k) →
      ∃ t, exec (.bankFillDone n true) s = .next t
        ∧ t.slotEn n.val slot.val = false
        ∧ t.slotSt n.val slot.val = 0
        ∧ t.rb (R.SCH_STATUS n.val) 3 = true
        ∧ .faultReport (Fin.ofNat 8192 (0x100 + n.val)) (Fin.ofNat 8192 (0x100 + n.val)) 0x11#8 0#32 ∈ t.due
        ∧ (∀ j : Fin 256, t.resident n.val j.val = s.resident n.val j.val)
        ∧ t.mem = s.mem)
  ∧ (∀ (n : Fin 8) (slot : Fin 256) (k : Nat) (bad : Bool) (s : State),
      ((s.coreRec n.val).engine = none ∨ (s.coreRec n.val).engine = some (false, slot.val, k)) →
      exec (.bankFillDone n bad) s = .next (s))
  ∧ (∀ (m : Master) (n : Fin 8) (slot : Fin 256) (v : Word) (s : State) (r : RegRow),
      s.Writes m (.sch n.val) r (R.SCH_SLOTs_CTRL n.val slot.val) →
      bit v 31 = true →
      s.slotEn n.val slot.val = false →
      s.slotSt n.val slot.val ≠ 3 →
      (bit v 28 = false ∨ s.slotPinned n.val slot.val = true) →
      ∃ t, exec (.slotEnable m n slot v) s = .next t
        ∧ t.slotEn n.val slot.val = true
        ∧ t.slotSt n.val slot.val = 1
        ∧ t.slotPend n.val slot.val = false
        ∧ t.reg (R.SCH_SLOTs_CTRL n.val slot.val) = v &&& 0x9000000F#32
        ∧ t.mem = s.mem
        ∧ t.reply = some ⟨m, .done⟩)
  ∧ (∀ (m : Master) (n : Fin 8) (slot : Fin 256) (v : Word) (s : State) (r : RegRow),
      s.Writes m (.sch n.val) r (R.SCH_SLOTs_CTRL n.val slot.val) →
      bit v 31 = false →
      s.slotEn n.val slot.val = true →
      s.slotSt n.val slot.val ≠ 3 →
      s.runSlot n.val ≠ slot.val →
      (bit v 28 = false ∨ s.slotPinned n.val slot.val = true) →
      ∃ t, exec (.slotEnable m n slot v) s = .next t
        ∧ t.slotEn n.val slot.val = false
        ∧ t.slotSt n.val slot.val = 0
        ∧ t.slotPend n.val slot.val = false
        ∧ t.slotCtx n.val slot.val = s.slotCtx n.val slot.val
        ∧ t.reg (R.SCH_SLOTs_CTRL n.val slot.val) = v &&& 0x9000000F#32
        ∧ t.mem = s.mem
        ∧ t.reply = some ⟨m, .done⟩)
  ∧ (∀ (m : Master) (n : Fin 8) (slot : Fin 256) (v : Word) (s : State) (r : RegRow),
      s.Writes m (.sch n.val) r (R.SCH_SLOTs_CTRL n.val slot.val) →
      bit v 31 = false →
      s.slotEn n.val slot.val = true →
      s.slotSt n.val slot.val = 3 →
      s.runSlot n.val = slot.val →
      s.coreRun n.val = 1 →
      (s.core n.val).lockout = false →
      (s.coreRec n.val).pair = none →
      (∀ j : Fin 256, j ≠ slot → s.slotReady n.val j.val = false) →
      ∃ t, exec (.slotEnable m n slot v) s = .next t
        ∧ t.slotEn n.val slot.val = false
        ∧ t.slotSt n.val slot.val = 0
        ∧ t.coreRun n.val = 2
        ∧ (t.slotCtx n.val slot.val).pc = (s.core n.val).pc
        ∧ t.mem = s.mem
        ∧ t.reply = some ⟨m, .done⟩)
  ∧ (∀ (m : Master) (n : Fin 8) (slot : Fin 256) (v : Word) (s : State) (r : RegRow),
      s.Writes m (.sch n.val) r (R.SCH_SLOTs_CTRL n.val slot.val) →
      bit v 31 = true →
      bit v 29 = false →
      s.slotEn n.val slot.val = true →
      s.slotPend n.val slot.val = false →
      (bit v 28 = false ∨ s.slotPinned n.val slot.val = true) →
      s.coreRun n.val ≠ 1 →
      s.coreRun n.val ≠ 2 →
      ∃ t, exec (.slotKick m n slot v) s = .next t
        ∧ t.slotPend n.val slot.val = true
        ∧ t.slotSt n.val slot.val = s.slotSt n.val slot.val
        ∧ t.reg (R.SCH_SLOTs_CTRL n.val slot.val) = v &&& 0x9000000F#32
        ∧ RegsBut [R.SCH_SLOTs_CTRL n.val slot.val, R.SCH_SLOTs_STATE n.val slot.val] s t
        ∧ SameBut [.regs, .reply] s t
        ∧ t.reply = some ⟨m, .done⟩)
  ∧ (∀ (m : Master) (n : Fin 8) (slot : Fin 256) (v : Word) (s : State) (r : RegRow),
      s.Writes m (.sch n.val) r (R.SCH_SLOTs_CTRL n.val slot.val) →
      bit v 31 = true →
      bit v 29 = false →
      s.slotEn n.val slot.val = true →
      s.slotPend n.val slot.val = true →
      (bit v 28 = false ∨ s.slotPinned n.val slot.val = true) →
      s.coreRun n.val ≠ 1 →
      s.coreRun n.val ≠ 2 →
      ∃ t, exec (.slotKick m n slot v) s = .next t
        ∧ t.rb (R.SCH_SLOTs_STATE n.val slot.val) 27 = true
        ∧ t.rb (R.SCH_STATUS n.val) 2 = true
        ∧ RegsBut [R.SCH_SLOTs_CTRL n.val slot.val, R.SCH_SLOTs_STATE n.val slot.val, R.SCH_STATUS n.val] s t
        ∧ SameBut [.regs, .scCount, .reply] s t
        ∧ t.reply = some ⟨m, .done⟩)
  ∧ (∀ (m : Master) (n : Fin 8) (slot : Fin 256) (v : Word) (s : State) (r : RegRow),
      s.Writes m (.sch n.val) r (R.SCH_SLOTs_CTRL n.val slot.val) →
      s.slotEn n.val slot.val = false →
      (s.runSlot n.val ≠ slot.val ∨ s.coreRun n.val ≠ 1) →
      ∃ t, exec (.slotInit m n slot v) s = .next t
        ∧ t.slotCtx n.val slot.val = CoreCtx.reset.setCr 0 (w32 slot.val)
        ∧ (∀ j : Fin 256, j ≠ slot → j.val ≠ s.runSlot n.val → t.slotCtx n.val j.val = s.slotCtx n.val j.val)
        ∧ t.mem = s.mem
        ∧ t.reply = some ⟨m, .done⟩)
  ∧ (∀ (m : Master) (n : Fin 8) (slot : Fin 256) (v : Word) (s : State) (r : RegRow),
      s.Writes m (.sch n.val) r (R.SCH_SLOTs_CTRL n.val slot.val) →
      s.slotEn n.val slot.val = true →
      bit v 31 = true →
      s.slotEn n.val (s.runSlot n.val) = true →
      ∃ t, exec (.slotInit m n slot v) s = .next t
        ∧ t.rb (R.SCH_STATUS n.val) 0 = true
        ∧ (∀ j : Fin 256, t.slotCtx n.val j.val = s.slotCtx n.val j.val)
        ∧ t.mem = s.mem
        ∧ t.reply = some ⟨m, .done⟩)
  ∧ (∀ (m : Master) (n : Fin 8) (slot : Fin 256) (v : Word) (s : State) (r : RegRow),
      s.Writes m (.sch n.val) r (R.SCH_SLOTs_CTRL n.val slot.val) →
      ((List.range 256).filter (fun j => j != slot.val && s.slotPinned n.val j)).length < 14 →
      ∃ t, exec (.slotPin m n slot v) s = .next t
        ∧ t.slotPinned n.val slot.val = true
        ∧ t.mem = s.mem
        ∧ t.reply = some ⟨m, .done⟩)
  ∧ (∀ (m : Master) (n : Fin 8) (slot : Fin 256) (v : Word) (s : State) (r : RegRow),
      s.Writes m (.sch n.val) r (R.SCH_SLOTs_CTRL n.val slot.val) →
      14 ≤ ((List.range 256).filter (fun j => j != slot.val && s.slotPinned n.val j)).length →
      s.slotPinned n.val slot.val = false →
      bit v 31 = s.slotEn n.val slot.val →
      s.coreRun n.val ≠ 1 →
      s.coreRun n.val ≠ 2 →
      ∃ t, exec (.slotPin m n slot v) s = .next t
        ∧ t.slotPinned n.val slot.val = false
        ∧ t.rb (R.SCH_STATUS n.val) 1 = true
        ∧ t.slotPrio n.val slot.val = fld v 3 0
        ∧ RegsBut [R.SCH_SLOTs_CTRL n.val slot.val, R.SCH_STATUS n.val] s t
        ∧ SameBut [.regs, .scCount, .reply] s t
        ∧ t.reply = some ⟨m, .done⟩)
  ∧ (∀ (m : Master) (n : Fin 8) (v : Word) (s : State) (r : RegRow),
      s.Writes m (.sch n.val) r (R.SCH_SPILL n.val) →
      v.toNat % 512 = 0 →
      0x80000 ≤ v.toNat →
      v.toNat ≤ 0xE0000 →
      (∀ i : Fin 255, s.slotEn n.val (i.val + 1) = false) →
      ∃ t, exec (.schSpillWrite m n v) s = .next t
        ∧ t.reg (R.SCH_SPILL n.val) = v
        ∧ RegsBut [R.SCH_SPILL n.val] s t
        ∧ SameBut [.regs, .reply] s t
        ∧ t.reply = some ⟨m, .done⟩)
  ∧ (∀ (m : Master) (n : Fin 8) (v : Word) (s : State) (r : RegRow),
      s.Writes m (.sch n.val) r (R.SCH_SPILL n.val) →
      (v.toNat % 512 ≠ 0 ∨ v.toNat < 0x80000 ∨ 0xE0000 < v.toNat ∨ (∃ i : Fin 255, s.slotEn n.val (i.val + 1) = true)) →
      ∃ t, exec (.schSpillWrite m n v) s = .next t
        ∧ t.rb (R.SCH_STATUS n.val) 4 = true
        ∧ RegsBut [R.SCH_STATUS n.val] s t
        ∧ SameBut [.regs, .scCount, .reply] s t
        ∧ t.reply = some ⟨m, .done⟩)

/-- R188, R308 to R311, R314, R325, R328, R333: control of cores. (11_control_core_isa.md,
12_exceptions_banks_scheduler.md, 07_timer_units.md) -/
def Obligations.CoreControlCommands : Prop :=
  (∀ (pair : Fin 4) (s : State),
      s.locked (2 * pair.val) = true →
      (s.coreRun (2 * pair.val) = 1 ∨ s.coreRun (2 * pair.val) = 2) →
      ((s.coreRec (2 * pair.val)).window.filter (fun b => (s.clk.beat - b).toNat < 250000000)).length < 16 →
      ∃ t, exec (.lockstepDisagreement pair false) s = .next t
        ∧ t.rf (R.CC_TRANSIENTS (2 * pair.val)) 31 16 = satTo 0xFFFF (s.rf (R.CC_TRANSIENTS (2 * pair.val)) 31 16 + 1)
        ∧ t.rb (R.CC_STATUS (2 * pair.val)) 2 = true
        ∧ (t.coreRec (2 * pair.val)).window = ((s.coreRec (2 * pair.val)).window.filter (fun b => (s.clk.beat - b).toNat < 250000000)) ++ [s.clk.beat]
        ∧ .faultReport (Fin.ofNat 8192 (0x100 + 2 * pair.val)) (Fin.ofNat 8192 (0x100 + 2 * pair.val)) 0x07#8 0#32 ∈ t.due
        ∧ t.coreRun (2 * pair.val) = s.coreRun (2 * pair.val)
        ∧ t.core (2 * pair.val) = s.core (2 * pair.val)
        ∧ RegsBut [R.CC_TRANSIENTS (2 * pair.val), R.CC_STATUS (2 * pair.val)] s t
        ∧ SameBut [.regs, .scCount, .cores, .due] s t)
  ∧ (∀ (pair : Fin 4) (again : Bool) (s : State),
      s.locked (2 * pair.val) = true →
      (s.coreRun (2 * pair.val) = 1 ∨ s.coreRun (2 * pair.val) = 2) →
      (again = true ∨ 16 ≤ ((s.coreRec (2 * pair.val)).window.filter (fun b => (s.clk.beat - b).toNat < 250000000)).length) →
      ∃ t, exec (.lockstepDisagreement pair again) s = .next t
        ∧ t.corePermanent (2 * pair.val) = true
        ∧ t.rb (R.CC_STATUS (2 * pair.val)) 3 = true
        ∧ t.rb (R.CC_STATUS (2 * pair.val)) 0 = true
        ∧ t.coreRun (2 * pair.val) = 4
        ∧ t.reg (R.SCH_HALT_INFO (2 * pair.val)) = 4#32
        ∧ .faultReport (Fin.ofNat 8192 (0x100 + 2 * pair.val)) (Fin.ofNat 8192 (0x100 + 2 * pair.val)) 0x08#8 0#32 ∈ t.due
        ∧ t.mem = s.mem)
  ∧ (∀ (pair : Fin 4) (again : Bool) (s : State),
      (s.locked (2 * pair.val) = false ∨ (s.coreRun (2 * pair.val) ≠ 1 ∧ s.coreRun (2 * pair.val) ≠ 2)) →
      exec (.lockstepDisagreement pair again) s = .next (s))
  ∧ (∀ (m : Master) (n : Fin 8) (v : Word) (s : State) (r : RegRow),
      s.Writes m (.sch n.val) r (R.SCH_RELEASE n.val) →
      s.coreRun n.val = 4 →
      s.corePermanent n.val = false →
      (s.coreRec n.val).pair = none →
      (s.coreRec n.val).halted = false →
      ∃ t, exec (.schRelease m n v) s = .next t
        ∧ t.coreRun n.val = 0
        ∧ t.rb (R.CC_CTRL n.val) 31 = true
        ∧ (∀ i : Fin 255, t.slotEn n.val (i.val + 1) = false)
        ∧ t.slotEn n.val 0 = s.slotEn n.val 0
        ∧ t.slotCtx n.val 0 = CoreCtx.reset
        ∧ (t.faultRec (0x100 + n.val)).active = false
        ∧ t.mem = s.mem
        ∧ t.reply = some ⟨m, .done⟩)
  ∧ (∀ (m : Master) (n : Fin 8) (v : Word) (s : State) (r : RegRow),
      s.Writes m (.sch n.val) r (R.SCH_RELEASE n.val) →
      s.coreRun n.val = 4 →
      s.corePermanent n.val = true →
      ∃ t, exec (.schRelease m n v) s = .next t
        ∧ t.rb (R.SCH_STATUS n.val) 5 = true
        ∧ RegsBut [R.SCH_STATUS n.val] s t
        ∧ SameBut [.regs, .scCount, .reply] s t
        ∧ t.reply = some ⟨m, .done⟩)
  ∧ (∀ (m : Master) (n : Fin 8) (v : Word) (s : State) (r : RegRow),
      s.Writes m (.sch n.val) r (R.SCH_RELEASE n.val) →
      s.coreRun n.val ≠ 4 →
      ∃ t, exec (.schRelease m n v) s = .next t
        ∧ SameBut [.reply] s t
        ∧ t.reply = some ⟨m, .done⟩)
  ∧ (∀ (m : Master) (n : Fin 8) (v : Word) (s : State) (r : RegRow),
      s.Writes m (.cc n.val) r (R.CC_CTRL n.val) →
      s.upperLocked n.val = false →
      s.coreRun n.val ≠ 4 →
      s.rb (R.CC_CTRL n.val) 31 = true →
      bit v 31 = false →
      s.slotEn n.val 0 = true →
      ∃ t, exec (.coreHold m n v) s = .next t
        ∧ t.rb (R.CC_CTRL n.val) 31 = false
        ∧ t.coreRun n.val = 1
        ∧ t.runSlot n.val = 0
        ∧ t.slotSt n.val 0 = 3
        ∧ (t.slotCtx n.val 0 = { CoreCtx.reset.setCr 0 0x80000000#32 with pc := s.reg (R.CC_BOOT n.val) &&& 0xFFFFFFFC#32 })
        ∧ t.resident n.val 0 = true
        ∧ s.rb (R.CC_CTRL n.val) 30 = t.rb (R.CC_CTRL n.val) 30
        ∧ t.mem = s.mem
        ∧ t.reply = some ⟨m, .done⟩)
  ∧ (∀ (m : Master) (n : Fin 8) (v : Word) (s : State) (r : RegRow),
      s.Writes m (.cc n.val) r (R.CC_CTRL n.val) →
      s.upperLocked n.val = false →
      s.coreRun n.val ≠ 4 →
      s.rb (R.CC_CTRL n.val) 31 = false →
      bit v 31 = true →
      ∃ t, exec (.coreHold m n v) s = .next t
        ∧ t.rb (R.CC_CTRL n.val) 31 = true
        ∧ t.coreRun n.val = 0
        ∧ (t.slotSt n.val (s.runSlot n.val) = (if s.slotSt n.val (s.runSlot n.val) = 3 then 2 else s.slotSt n.val (s.runSlot n.val)))
        ∧ t.mem = s.mem
        ∧ ((s.coreRec n.val).halted = false → RegsBut [R.CC_CTRL n.val, R.CC_STATE n.val, R.SCH_SLOTs_STATE n.val (s.runSlot n.val)] s t ∧ SameBut [.regs, .cores, .reply] s t)
        ∧ (∀ (i : Fin 16) (k : Fin 4), (s.coreRec n.val).halted = true → (t.tu i.val k.val).frozenBy.contains n.val = false)
        ∧ t.reply = some ⟨m, .done⟩)
  ∧ (∀ (m : Master) (n : Fin 8) (v : Word) (s : State) (r : RegRow),
      s.Writes m (.cc n.val) r (R.CC_CTRL n.val) →
      (s.upperLocked n.val = true ∨ s.coreRun n.val = 4 ∨ bit v 31 = s.rb (R.CC_CTRL n.val) 31) →
      ∃ t, exec (.coreHold m n v) s = .next t
        ∧ SameBut [.reply] s t
        ∧ t.reply = some ⟨m, .done⟩)
  ∧ (∀ (m : Master) (n : Fin 8) (v : Word) (s : State) (r : RegRow),
      s.Writes m (.cc (n.val / 2 * 2)) r (R.CC_CTRL (n.val / 2 * 2)) →
      bit v 30 = true →
      s.locked n.val = false →
      s.coreRun (n.val / 2 * 2) = 0 →
      (s.coreRun ((n.val / 2 * 2) + 1) = 0 ∨ s.locked n.val = true) →
      ∃ t, exec (.pairLock m n v) s = .next t
        ∧ t.locked n.val = true
        ∧ t.coreRun (n.val / 2 * 2) = 0
        ∧ t.rb (R.CC_CTRL (n.val / 2 * 2)) 31 = s.rb (R.CC_CTRL (n.val / 2 * 2)) 31
        ∧ (∀ i : Fin 256, t.slotCtx (n.val / 2 * 2) i.val = CoreCtx.reset ∧ t.slotCtx ((n.val / 2 * 2) + 1) i.val = CoreCtx.reset)
        ∧ t.mem = s.mem
        ∧ t.reply = some ⟨m, .done⟩)
  ∧ (∀ (m : Master) (n : Fin 8) (v : Word) (s : State) (r : RegRow),
      s.Writes m (.cc (n.val / 2 * 2)) r (R.CC_CTRL (n.val / 2 * 2)) →
      bit v 30 = false →
      s.locked n.val = true →
      s.coreRun (n.val / 2 * 2) = 0 →
      (s.coreRun ((n.val / 2 * 2) + 1) = 0 ∨ s.locked n.val = true) →
      ∃ t, exec (.pairLock m n v) s = .next t
        ∧ t.locked n.val = false
        ∧ t.rb (R.CC_CTRL (n.val / 2 * 2)) 31 = s.rb (R.CC_CTRL (n.val / 2 * 2)) 31
        ∧ (∀ o : Nat, o < 0x100000 → t.byte (0x30000000 + 0x100000 * ((n.val / 2 * 2) + 1) + o) = s.byte (0x30000000 + 0x100000 * (n.val / 2 * 2) + o))
        ∧ BytesBut (0x30000000 + 0x100000 * ((n.val / 2 * 2) + 1)) 0x100000 s t
        ∧ (∀ i : Fin 256, t.slotCtx (n.val / 2 * 2) i.val = CoreCtx.reset ∧ t.slotCtx ((n.val / 2 * 2) + 1) i.val = CoreCtx.reset)
        ∧ t.reply = some ⟨m, .done⟩)
  ∧ (∀ (m : Master) (n : Fin 8) (v : Word) (s : State) (r : RegRow),
      s.Writes m (.cc (n.val / 2 * 2)) r (R.CC_CTRL (n.val / 2 * 2)) →
      bit v 30 ≠ s.locked n.val →
      (s.coreRun (n.val / 2 * 2) ≠ 0 ∨ (s.coreRun ((n.val / 2 * 2) + 1) ≠ 0 ∧ s.locked n.val = false)) →
      ∃ t, exec (.pairLock m n v) s = .next t
        ∧ t.locked n.val = s.locked n.val
        ∧ t.rb (R.CC_STATUS (n.val / 2 * 2)) 1 = true
        ∧ RegsBut [R.CC_STATUS (n.val / 2 * 2)] s t
        ∧ SameBut [.regs, .scCount, .reply] s t
        ∧ t.reply = some ⟨m, .done⟩)
  ∧ (∀ (n : Fin 8) (s : State),
      s.mp.unlock ≠ 0 →
      s.upperLocked n.val = false →
      s.coreRun n.val = 1 →
      (s.coreRec n.val).halted = false →
      (s.coreRec n.val).pair = none →
      ∃ t, exec (.debugHalt (Fin.ofNat 9 n.val)) s = .next t
        ∧ t.coreRun n.val = 3
        ∧ (t.coreRec n.val).halted = true
        ∧ (t.core n.val = (let c := (s.core n.val).betweenCycles; match c.blk with | some b => c.setCr 0 (setFld (c.crv 0) 13 8 b.next) | none => c))
        ∧ (∀ (i : Fin 16) (k : Fin 4), s.islandRuns i.val = true → s.coreCarries n.val (s.ownerDom (R.TU_OWNER i.val k.val)) = true → s.rf (R.TU_CFG i.val k.val) 7 6 ≠ 0 → (t.tu i.val k.val).frozenBy.contains n.val = true)
        ∧ t.mem = s.mem)
  ∧ (∀ (n : Fin 8) (s : State),
      s.mp.unlock ≠ 0 →
      s.upperLocked n.val = false →
      s.coreRun n.val = 2 →
      (s.coreRec n.val).halted = false →
      ∃ t, exec (.debugHalt (Fin.ofNat 9 n.val)) s = .next t
        ∧ t.coreRun n.val = 3
        ∧ (t.coreRec n.val).halted = true
        ∧ t.core n.val = s.core n.val
        ∧ (∀ (i : Fin 16) (k : Fin 4), s.islandRuns i.val = true → s.coreCarries n.val (s.ownerDom (R.TU_OWNER i.val k.val)) = true → s.rf (R.TU_CFG i.val k.val) 7 6 ≠ 0 → (t.tu i.val k.val).frozenBy.contains n.val = true)
        ∧ t.mem = s.mem)
  ∧ (∀ (n : Fin 8) (s : State),
      s.mp.unlock ≠ 0 →
      (s.upperLocked n.val = true ∨ s.coreRun n.val = 0 ∨ (s.coreRec n.val).halted = true) →
      exec (.debugHalt (Fin.ofNat 9 n.val)) s = .next (s))
  ∧ (∀ (s : State),
      s.mp.unlock ≠ 0 →
      ∃ t, exec (.debugHalt 8) s = .next t
        ∧ (∀ n : Fin 8, s.upperLocked n.val = false → s.coreRun n.val = 1 ∨ s.coreRun n.val = 2 ∨ s.coreRun n.val = 3 → t.coreRun n.val = 3 ∧ (t.coreRec n.val).haltedAll = true)
        ∧ (∀ n : Fin 8, s.coreRun n.val = 0 ∨ s.coreRun n.val = 4 → t.coreRun n.val = s.coreRun n.val)
        ∧ (∀ (i : Fin 16) (k : Fin 4), s.islandRuns i.val = true → s.rf (R.TU_CFG i.val k.val) 7 6 ≠ 0 → (t.tu i.val k.val).frozenBy.contains 8 = true)
        ∧ t.mem = s.mem)
  ∧ (∀ (n : Fin 8) (s : State),
      s.mp.unlock ≠ 0 →
      s.coreRun n.val = 3 →
      (s.coreRec n.val).haltedAll = false →
      s.slotSt n.val (s.runSlot n.val) = 3 →
      s.slotEn n.val (s.runSlot n.val) = true →
      ∃ t, exec (.debugResume (Fin.ofNat 9 n.val)) s = .next t
        ∧ t.coreRun n.val = 1
        ∧ t.runSlot n.val = s.runSlot n.val
        ∧ (t.coreRec n.val).halted = false
        ∧ t.core n.val = s.core n.val
        ∧ (∀ (i : Fin 16) (k : Fin 4), (t.tu i.val k.val).frozenBy.contains n.val = false)
        ∧ t.mem = s.mem)
  ∧ (∀ (n : Fin 8) (s : State),
      s.mp.unlock ≠ 0 →
      s.coreRun n.val = 3 →
      (s.coreRec n.val).haltedAll = true →
      ∃ t, exec (.debugResume (Fin.ofNat 9 n.val)) s = .next t
        ∧ t.coreRun n.val = 3
        ∧ (t.coreRec n.val).halted = false
        ∧ t.core n.val = s.core n.val
        ∧ (∀ (i : Fin 16) (k : Fin 4), (t.tu i.val k.val).frozenBy.contains n.val = false)
        ∧ t.mem = s.mem)
  ∧ (∀ (s : State),
      s.mp.unlock ≠ 0 →
      ∃ t, exec (.debugResume 8) s = .next t
        ∧ (∀ n : Fin 8, (t.coreRec n.val).haltedAll = false ∧ ((s.coreRec n.val).halted = true → s.coreRun n.val = 3 → t.coreRun n.val = 3))
        ∧ (∀ n : Fin 8, s.coreRun n.val = 3 → (s.coreRec n.val).halted = false → s.slotSt n.val (s.runSlot n.val) = 3 → s.slotEn n.val (s.runSlot n.val) = true → t.coreRun n.val = 1 ∧ t.core n.val = s.core n.val)
        ∧ (∀ (i : Fin 16) (k : Fin 4), (t.tu i.val k.val).frozenBy.contains 8 = false)
        ∧ t.mem = s.mem)
  ∧ (∀ (who : Fin 9) (s : State),
      s.mp.unlock = 0 →
      exec (.debugHalt who) s = .next (s))
  ∧ (∀ (who : Fin 9) (s : State),
      s.mp.unlock = 0 →
      exec (.debugResume who) s = .next (s))

/-- R360: an entry is one cell; a push stores 16 words as the newest entry, a pop removes the oldest and returns its 16
words, entries leave in the order they entered, the depth counts them and never passes the capacity, and a queue is full
when they are equal. Clauses: a push, that of a port through QP_PUSH, that of a pop through QP_POP, and what QM_Qq_STATE
shows. A queue that is enabled holds each cell of its capacity once (R359). (14_queue_manager.md) -/
def Obligations.QueueEntriesInOrder : Prop :=
  (∀ (s : State) (d : Nat) (h : Word) (ws : List Word),
      s.qRefusal d h true = none →
      s.QueueSound (fld h 15 0) →
      ws.length = 16 →
      s.qDepth (fld h 15 0) < s.qCapacity (fld h 15 0) →
      ∃ t, s.qPush d h ws = (qOk, false, t)
        ∧ t.entries (fld h 15 0) = s.entries (fld h 15 0) ++ [ws]
        ∧ t.QueueSound (fld h 15 0))
  ∧ (∀ (m : Master) (d p : Fin 16) (q : Nat) (s : State) (r : RegRow),
      s.Reads m .qm r (R.QP_PUSH d.val p.val) →
      q = s.portQueue d.val p.val →
      s.qRefusal d.val (s.reg (R.QP_HANDLE d.val p.val)) true = none →
      s.QueueSound q →
      s.qDepth q < s.qCapacity q →
      ∃ t, exec (.qpPush m d p) s = .next t
        ∧ t.entries q = s.entries q ++ [s.portBuffer d.val p.val]
        ∧ t.qDepth q = s.qDepth q + 1
        ∧ t.QueueSound q
        ∧ t.reply = some ⟨m, .data (w32 (s.qDepth q + 1))⟩
        ∧ (∀ k : Nat, k ≠ q → t.queue k = s.queue k)
        ∧ BytesBut (s.nextCell q) 64 s t
        ∧ RegsBut [] s t
        ∧ SameBut [.mem, .ecc, .queues, .due, .pulses, .reply] s t)
  ∧ (∀ (m : Master) (d p : Fin 16) (q : Nat) (s : State) (r : RegRow),
      s.Reads m .qm r (R.QP_POP d.val p.val) →
      q = s.portQueue d.val p.val →
      s.qRefusal d.val (s.reg (R.QP_HANDLE d.val p.val)) false = none →
      s.QueueSound q →
      s.qDepth q ≠ 0 →
      (∀ k : Fin 16, s.eccMark (cellAddr ((s.queue q).cellAt (s.queue q).head) + 4 * k.val) = .good) →
      ∃ t, exec (.qpPop m d p) s = .next t
        ∧ s.entries q = t.portBuffer d.val p.val :: t.entries q
        ∧ (t.portBuffer d.val p.val).length = 16
        ∧ t.qDepth q + 1 = s.qDepth q
        ∧ t.QueueSound q
        ∧ t.reply = some ⟨m, .data (w32 (s.qDepth q - 1))⟩
        ∧ (∀ k : Nat, k ≠ q → t.queue k = s.queue k)
        ∧ RegsBut (portRegs d.val p.val) s t
        ∧ SameBut [.regs, .queues, .due, .pulses, .reply] s t)
  ∧ (∀ (q : Fin 65536) (s : State),
      s.QueueSound q.val →
      s.qEnabled q.val = true →
      s.qCapacity q.val ≤ 4096 →
      fld (s.qmView (R.QM_Qq_STATE q.val)) 12 0 = s.qDepth q.val
        ∧ (s.entries q.val).length = s.qDepth q.val
        ∧ s.qDepth q.val ≤ s.qCapacity q.val
        ∧ (bit (s.qmView (R.QM_Qq_STATE q.val)) 15 = true ↔ s.qDepth q.val = s.qCapacity q.val))

/-- R349: SWAP is applied to each element between read and write: NONE, BYTE, HALF, and WORD, which exchanges the words
of an 8-byte element and leaves a 4-byte one. Clauses: for every element that a channel moves, in what memory it may be,
byte for byte; and the whole command for an element from system SRAM to system SRAM. (13_memories_flash_dma.md) -/
def Obligations.DmaElementSwap : Prop :=
  (∀ (s u : State) (c i : Nat) (l : List Word),
      s.dmaFetch c (s.dmaSrc c i) 0 (s.dmaSize c / 4) = (.ok l, u) →
      l.length = s.dmaSize c / 4 →
      ∃ l' : List Word, l'.length = l.length
        ∧ (∀ k : Nat, k < s.dmaSize c →
            elementByte l' k = elementByte l (swapIndex (u.rf (R.DMA_CHc_CFG c) 25 24) (s.dmaSize c) k))
        ∧ s.dmaMove c i = ((u.dmaPut c (s.dmaDst c i) 0 l').1.map (fun x => (if x.2 then 8 else 6, x.1)),
            (u.dmaPut c (s.dmaDst c i) 0 l').2))
  ∧ (∀ (c : Fin 64) (s : State) (i size src dst : Nat),
      i = s.dmaCount c.val →
      size = s.dmaSize c.val →
      src = s.dmaSrc c.val i →
      dst = s.dmaDst c.val i →
      s.dmaOn c.val = true →
      i < (s.dma c.val).issued →
      i + 1 < s.dmaTotal c.val →
      src % 4 = 0 → 0x20000000 ≤ src → src + size ≤ 0x21000000 →
      dst % 4 = 0 → 0x20000000 ≤ dst → dst + size ≤ 0x21000000 →
      s.pathTo 0x20000000 = .good → s.eccMark src = .good → s.eccMark (src + size - 4) = .good →
      ∃ t, exec (.dmaResponse c) s = .next t
        ∧ (∀ k : Nat, k < size → t.byte (dst + k) = s.byte (src + swapIndex (s.rf (R.DMA_CHc_CFG c.val) 25 24) size k))
        ∧ BytesBut dst size s t
        ∧ t.dmaCount c.val = i + 1
        ∧ RegsBut [R.DMA_CHc_COUNT c.val, R.DMA_CHc_CTRL c.val, R.DMA_CHc_STATUS c.val] s t
        ∧ SameBut [.mem, .ecc, .cores, .freeCtr, .regs, .scCount, .dmas, .due, .pulses] s t)

/-- R353: GO starts a channel that is IDLE or HALTED (a channel whose settings fail their checks halts instead, R348); in
any other state a GO, and a write of a configuration register, is ignored and sets CFG_BUSY; STOP stops issuing at once,
and when the outstanding responses have returned the channel is IDLE with STOPPED set and COUNT at the elements completed.
(13_memories_flash_dma.md) -/
def Obligations.DmaGoAndStop : Prop :=
  (∀ (m : Master) (c : Fin 64) (v : Word) (s : State) (r : RegRow),
      s.Writes m .dma r (R.DMA_CHc_CTRL c.val) →
      s.dmaOn c.val = false →
      ∃ t, exec (.dmaGo m c v) s = .next t
        ∧ (s.dmaCheck c.val = none →
            t.dmaState c.val = (if s.dmaMode c.val = 0 then 1 else 2) ∧ (t.dma c.val).stopping = false
              ∧ t.reg (R.DMA_CHc_STATUS c.val) = s.reg (R.DMA_CHc_STATUS c.val)
              ∧ t.reg (R.DMA_CHc_ERR c.val) = s.reg (R.DMA_CHc_ERR c.val))
        ∧ (∀ f a, s.dmaCheck c.val = some (f, a) →
            t.dmaState c.val = 3 ∧ t.rb (R.DMA_CHc_STATUS c.val) f = true ∧ t.reg (R.DMA_CHc_ERR c.val) = a)
        ∧ t.dmaCount c.val = 0
        ∧ t.reg (R.DMA_CHc_DESC c.val) = 0#32
        ∧ RegsBut [R.DMA_CHc_CTRL c.val, R.DMA_CHc_COUNT c.val, R.DMA_CHc_DESC c.val, R.DMA_CHc_STATUS c.val, R.DMA_CHc_ERR c.val] s t
        ∧ SameBut [.regs, .scCount, .dmas, .reply] s t
        ∧ t.reply = some ⟨m, .done⟩)
  ∧ (∀ (m : Master) (c : Fin 64) (v : Word) (s : State) (r : RegRow),
      s.Writes m .dma r (R.DMA_CHc_CTRL c.val) →
      s.dmaOn c.val = true →
      ∃ t, exec (.dmaGo m c v) s = .next t
        ∧ t.rb (R.DMA_CHc_STATUS c.val) 10 = true
        ∧ RegsBut [R.DMA_CHc_STATUS c.val] s t
        ∧ SameBut [.regs, .scCount, .reply] s t
        ∧ t.reply = some ⟨m, .done⟩)
  ∧ (∀ (m : Master) (c : Fin 64) (a v : Word) (s : State) (r : RegRow),
      a.toNat ∈ dmaDescRegs c.val →
      s.Writes m .dma r a.toNat →
      s.dmaOn c.val = true →
      ∃ t, exec (.registerWrite m a .word v) s = .next t
        ∧ t.rb (R.DMA_CHc_STATUS c.val) 10 = true
        ∧ RegsBut [R.DMA_CHc_STATUS c.val] s t
        ∧ SameBut [.regs, .scCount, .reply] s t
        ∧ t.reply = some ⟨m, .done⟩)
  ∧ (∀ (m : Master) (c : Fin 64) (v : Word) (s : State) (r : RegRow),
      s.Writes m .dma r (R.DMA_CHc_CTRL c.val) →
      s.dmaOn c.val = true →
      ∃ t, exec (.dmaStop m c v) s = .next t
        ∧ (s.dmaOut c.val = 0 →
            t.dmaState c.val = 0 ∧ t.rb (R.DMA_CHc_STATUS c.val) 2 = true
              ∧ RegsBut [R.DMA_CHc_CTRL c.val, R.DMA_CHc_STATUS c.val] s t)
        ∧ (s.dmaOut c.val ≠ 0 →
            (t.dma c.val).stopping = true ∧ (t.dma c.val).issued = (s.dma c.val).issued ∧ RegsBut [] s t)
        ∧ SameBut [.regs, .scCount, .dmas, .reply] s t
        ∧ t.reply = some ⟨m, .done⟩)
  ∧ (∀ (c : Fin 64) (s : State) (k : Nat),
      (s.dma c.val).stopping = true →
      exec (.dmaTrigger c) s = .next s ∧ s.dmaPump c.val k = s)
  ∧ (∀ (c : Fin 64) (s u : State) (i : Nat),
      i = s.dmaCount c.val →
      s.dmaOn c.val = true →
      (s.dma c.val).stopping = true →
      i < (s.dma c.val).issued →
      (s.dma c.val).issued ≤ u.dmaTotal c.val →
      s.flashHolds (s.dmaSrc c.val i) = false →
      s.dmaMove c.val i = (none, u) →
      u.dma c.val = s.dma c.val →
      u.dmaState c.val = 1 →
      ∃ t, exec (.dmaResponse c) s = .next t
        ∧ t.reg (R.DMA_CHc_COUNT c.val) = w32 (i + 1)
        ∧ (i + 1 < (s.dma c.val).issued → t.dma c.val = s.dma c.val ∧ t.dmaState c.val = 1)
        ∧ (i + 1 = (s.dma c.val).issued → t.dmaState c.val = 0 ∧ t.rb (R.DMA_CHc_STATUS c.val) 2 = true)
        ∧ RegsBut [R.DMA_CHc_COUNT c.val, R.DMA_CHc_CTRL c.val, R.DMA_CHc_STATUS c.val] u t
        ∧ SameBut [.regs, .scCount, .dmas, .due, .pulses] u t)

/-- R382: a request whose TAG is that of a request of its mailbox that is still TAKEN fails with DUP_TAG and is not
executed: its turn never comes. (15_mailboxes_firmware.md) -/
def Obligations.DuplicateTag : Prop :=
  ∀ (mb : Fin 1024) (s : State) (hd : List Word) (tag code flags cls len : Nat),
      hd = s.qEntry (2 * mb.val) 0 →
      tag = fld (hd.getD 0 0#32) 31 16 → code = fld (hd.getD 0 0#32) 15 0 →
      flags = fld (hd.getD 2 0#32) 15 4 → cls = fld (hd.getD 2 0#32) 3 0 →
      len = (hd.getD 1 0#32).toNat →
      s.mbServed mb.val = true →
      (s.mp.requests.filter (fun x => x.mb == mb.val)).length < 32 →
      s.qDepth (2 * mb.val) ≠ 0 → 1 + (len - 48 + 63) / 64 ≤ s.qDepth (2 * mb.val) →
      len ≤ s.mbLimit mb.val → len % 4 = 0 → fld (hd.getD 2 0#32) 31 5 = 0 →
      1 ≤ code → code ≤ 0x7FFF →
      (∃ c, mbCommand code = some c ∧ c.classes.contains cls = true) →
      (s.mp.recovery = true → recoveryCode code = true) →
      (∃ y ∈ s.mp.requests, y.mb = mb.val ∧ y.tag = tag) →
      ∃ t x, exec (.requestTake mb) s = .next t
        ∧ x.mb = mb.val ∧ x.tag = tag ∧ x.code = code ∧ x.cls = cls
        ∧ x.answer = some ⟨stDupTag, responseCells tag code flags cls stDupTag 0#32 [], none⟩
        ∧ x ∈ t.mp.requests
        ∧ (∀ y ∈ t.mp.requests, y = x ∨ y ∈ s.mp.requests)
        ∧ t.mbTurn x = false
        ∧ SameBut [.regs, .scCount, .queues, .mp, .due, .pulses, .pow, .ecc, .macros] s t

/-- R380, R385, R392: the 52 commands of a mailbox: one whose turn has not come leaves the state as it is; one
past its deadline answers EXPIRED and has no effect; one with a payload of the wrong length answers BAD_LENGTH and has no
effect. (15_mailboxes_firmware.md) -/
def Obligations.MailboxCommandTurns : Prop :=
  (∀ (c : Instr) (mb : Fin 1024) (code : Nat) (lens : Nat → Bool) (s : State),
      mailboxCommand c = some (mb, code, lens) →
      (s.mbServed mb.val = false ∨ ∀ r ∈ s.mp.requests, r.mb = mb.val → r.code = code → s.mbTurn r = false) →
      exec c s = .next s)
  ∧ (∀ (c : Instr) (mb : Fin 1024) (code : Nat) (lens : Nat → Bool) (s : State) (r : MbRequest),
      mailboxCommand c = some (mb, code, lens) →
      s.MbTurn mb code r →
      s.mbExpired r = true →
      ∃ t, exec c s = .next t
        ∧ Answered r stExpired 0#32 [] s t
        ∧ SameBut [.regs, .scCount, .due, .pulses, .mp, .pow] s t)
  ∧ (∀ (c : Instr) (mb : Fin 1024) (code : Nat) (lens : Nat → Bool) (s : State) (r : MbRequest),
      mailboxCommand c = some (mb, code, lens) →
      s.MbTurn mb code r →
      s.mbExpired r = false →
      lens (4 * r.payload.length) = false →
      ∃ t, exec c s = .next t
        ∧ Answered r stBadLength 0#32 [] s t
        ∧ SameBut [.regs, .scCount, .due, .pulses, .mp, .pow] s t)

/-- R392 to R397, R406, R407: the responses of the SYS, CFG, EPOCH, CAL, TUNE, NET, DIAG, TIME and SEC commands of a mailbox and of
RCP_LIST, and what each of them changes. The order of the checks of a request, the STATUS and INFO that no row lists, the CSEQ
of a tuning command and the DENIED of an epoch of another domain are the model's readings (log entries 65 to 67).
(15_mailboxes_firmware.md) -/
def Obligations.MailboxCommandResults : Prop :=
  (∀ (mb : Fin 1024) (s : State) (r : MbRequest),
      s.MbGoes mb 0x0101 0 r →
      s.mp.recovery = false →
      ∃ t, exec (.sysIdent mb) s = .next t
        ∧ Answered r stOk (s.elapsed r) [s.reg R.SYS_FAMILY0, s.reg R.SYS_FAMILY1, s.reg R.SYS_FAMILY2, s.reg R.SYS_FAMILY3,
            Config.ottarVersion, w32 (s.mp.rollback * 65536 + b2n s.mp.slotB), lo64 Config.serialNumber, hi64 Config.serialNumber] s t
        ∧ SameBut [.regs, .scCount, .due, .pulses, .mp, .pow] s t)
  ∧ (∀ (mb : Fin 1024) (s : State) (r : MbRequest),
      s.MbGoes mb 0x0102 0 r →
      ∃ t, exec (.sysState mb) s = .next t
        ∧ Answered r stOk (s.elapsed r) [s.mbLoadView, w32 s.openRecords.length, w32 (s.mp.autostart * 2 ^ 28), s.mp.autoId,
            lo64 s.clk.beat.toNat, hi64 s.clk.beat.toNat] s t
        ∧ SameBut [.regs, .scCount, .due, .pulses, .mp, .pow] s t)
  ∧ (∀ (mb : Fin 1024) (s : State) (r : MbRequest),
      s.MbGoes mb 0x0201 2 r →
      ((r.w 1).toNat = 0 ∨ 16383 < (r.w 1).toNat) →
      ∃ t, exec (.cfgRead mb) s = .next t
        ∧ Answered r stBadArg 4#32 [] s t
        ∧ SameBut [.regs, .scCount, .due, .pulses, .mp, .pow] s t)
  ∧ (∀ (mb : Fin 1024) (s : State) (r : MbRequest),
      s.MbGoes mb 0x0301 0 r →
      ∃ t, exec (.epochOpen mb) s = .next t
        ∧ ((s.epOpen (s.mbClient mb.val)).1 ≠ 0#32 → Answered r stOk (s.elapsed r) [(s.epOpen (s.mbClient mb.val)).1] s t)
        ∧ ((s.epOpen (s.mbClient mb.val)).1 = 0#32 →
            Answered r stScheduleRefused (w32 ((s.epOpen (s.mbClient mb.val)).2.rf R.EP_STATUS 22 0)) [] s t)
        ∧ SameBut [.regs, .scCount, .due, .pulses, .mp, .pow, .ep] s t)
  ∧ (∀ (mb : Fin 1024) (s : State) (r : MbRequest),
      s.MbGoes mb 0x0305 0 r →
      ∃ t, exec (.epochStatus mb) s = .next t
        ∧ Answered r stOk (s.elapsed r)
            [s.reg (R.EP_SLOTs_STATE 0), s.reg (R.EP_SLOTs_ENTRIES 0), s.reg (R.EP_SLOTs_RESULT 0), s.slotPending 0,
             s.reg (R.EP_SLOTs_STATE 1), s.reg (R.EP_SLOTs_ENTRIES 1), s.reg (R.EP_SLOTs_RESULT 1), s.slotPending 1,
             s.reg (R.EP_SLOTs_STATE 2), s.reg (R.EP_SLOTs_ENTRIES 2), s.reg (R.EP_SLOTs_RESULT 2), s.slotPending 2,
             s.reg (R.EP_SLOTs_STATE 3), s.reg (R.EP_SLOTs_ENTRIES 3), s.reg (R.EP_SLOTs_RESULT 3), s.slotPending 3] s t
        ∧ SameBut [.regs, .scCount, .due, .pulses, .mp, .pow] s t)
  ∧ (∀ (mb : Fin 1024) (s : State) (r : MbRequest) (l : List RecipeRecord),
      s.MbGoes mb 0x0406 1 r →
      l = (s.mp.records.drop (r.w 0).toNat).take 256 →
      ∃ t, exec (.rcpList mb) s = .next t
        ∧ Answered r stOk (s.elapsed r)
            (w32 l.length :: l.flatMap (fun x => [w32 x.id, w32 x.seq, w32 x.length, x.flags, x.arg, w32 x.addr])) s t
        ∧ SameBut [.regs, .scCount, .due, .pulses, .mp, .pow] s t)
  ∧ (∀ (mb : Fin 1024) (s : State) (r : MbRequest),
      s.MbGoes mb 0x0705 1 r →
      ∃ t, exec (.netStatus mb) s = .next t
        ∧ (4 ≤ (r.w 0).toNat → Answered r stBadArg 0#32 [] s t)
        ∧ ((r.w 0).toNat < 4 → Answered r stOk (s.elapsed r) [s.reg (R.NX_PORTp_STATE (r.w 0).toNat),
            s.reg (R.NX_PORTp_RX_FRAMES (r.w 0).toNat), s.reg (R.NX_PORTp_TX_FRAMES (r.w 0).toNat),
            w32 (s.rf (R.NX_PORTp_ERRS (r.w 0).toNat) 31 16),
            w32 ((((s.sessionsOn.filter (fun k => (s.sesMask k).contains (r.w 0).toNat)).filter s.sesCyclic).length) * 65536
              + (s.sessionsOn.filter (fun k => (s.sesMask k).contains (r.w 0).toNat)).length)] s t)
        ∧ SameBut [.regs, .scCount, .due, .pulses, .mp, .pow] s t)
  ∧ (∀ (mb : Fin 1024) (s : State) (r : MbRequest) (n : Nat),
      s.MbGoes mb 0x0704 (5 + n) r →
      (r.w 0).toNat < 4 →
      (r.w 1).toNat = n →
      1 ≤ n → n ≤ 1024 →
      r.w 4 ≠ 0#32 →
      ∃ t, exec (.netGcl mb) s = .next t
        ∧ (t.portRec (r.w 0).toNat).gates = r.payload.drop 5
        ∧ (t.portRec (r.w 0).toNat).base = r.w64 2
        ∧ (t.portRec (r.w 0).toNat).cycle = (r.w 4).toNat
        ∧ Answered r stOk (s.elapsed r) [] s t
        ∧ SameBut [.regs, .scCount, .due, .pulses, .mp, .pow, .net] s t)
  ∧ (∀ (mb : Fin 1024) (s : State) (r : MbRequest) (d : Nat),
      s.MbGoes mb 0x0B01 3 r →
      (r.w 0).toNat = d →
      1 ≤ d → d ≤ 15 →
      (r.w 1).toNat < 128 →
      (r.w 2).toNat < 2 →
      ∃ t, exec (.secRights mb) s = .next t
        ∧ ((bit (r.w 1) 6 = true ∨ ∃ x : Nat, x < 16 ∧ x ≠ d ∧ s.hasRight x 6 = true) →
            bit (s.reg R.SYS_DOMAIN_SEC) d = bit (r.w 2) 0 →
            t.rights d = (r.w 1).toNat
              ∧ (∀ x : Nat, x ≠ d → t.rights x = s.rights x)
              ∧ Answered r stOk (s.elapsed r) [] s t
              ∧ SameBut [.regs, .scCount, .due, .pulses, .mp, .pow] s t)
        ∧ ((bit (r.w 1) 6 = false ∧ ∀ x : Nat, x < 16 → x ≠ d → s.hasRight x 6 = false) →
            Answered r stWrongState 0#32 [] s t
              ∧ (∀ x : Nat, t.rights x = s.rights x)
              ∧ SameBut [.regs, .scCount, .due, .pulses, .mp, .pow] s t))
  ∧ (∀ (mb : Fin 1024) (s : State) (r : MbRequest),
      s.MbGoes mb 0x0B02 0 r →
      ∃ t w0 w1 w2 w3, exec (.secChallenge mb) s = .next t
        ∧ t.mp.nonce = some ([w0, w1, w2, w3].flatMap bytesOfWord, s.clk.beat)
        ∧ Answered r stOk (s.elapsed r) [w0, w1, w2, w3, lo64 Config.serialNumber, hi64 Config.serialNumber] s t
        ∧ SameBut [.regs, .scCount, .due, .pulses, .mp, .pow, .freeCtr] s t)
  ∧ (∀ (mb : Fin 1024) (s u : State) (r : MbRequest) (l : List (Nat × Nat)),
      s.MbGoes mb 0x0103 1 r →
      l = s.liveUnits.filter (fun x => bit (r.w 0) x.1 && (bit (r.w 0) 31 || s.owns (s.mbClient mb.val) (R.TU_OWNER x.1 x.2))) →
      u = s.holdUnits l 20 →
      r ∈ u.mp.requests →
      ∃ t, exec (.sysSafe mb) s = .next t ∧ Responds r stOk (u.elapsed r) [w32 l.length] u t)
  ∧ (∀ (mb : Fin 1024) (s : State) (r : MbRequest) (n : Nat),
      s.MbGoes mb 0x0104 n r →
      n = 1 ∨ n = 2 →
      ∃ t, exec (.sysReset mb) s = .next t
        ∧ ((r.w 0).toNat = 1 → n = 1 → Responds r stBadLength 0#32 [] s t)
        ∧ (∀ u : State, (r.w 0).toNat = 1 → n = 2 → u = (maskIslands (r.w 1)).foldl (fun t n => t.islandReset n) s →
            r ∈ u.mp.requests → Responds r stOk (u.elapsed r) [] u t)
        ∧ ((r.w 0).toNat = 2 →
            Responds { r with phase := 1 } stOk (s.elapsed r) []
              { s with mp := { s.mp with requests := s.mp.requests.replace r { r with phase := 1 } } } t)
        ∧ ((r.w 0).toNat ≠ 1 → (r.w 0).toNat ≠ 2 → Responds r stBadArg 0#32 [] s t))
  ∧ (∀ (mb : Fin 1024) (s u : State) (r : MbRequest) (n : Nat) (e : Option (Nat × BusErr)),
      s.MbGoes mb 0x0202 (2 * n) r →
      1 ≤ n → n ≤ 8191 →
      s.mpWrites (s.mbActs r) 0 (pairsOf r.payload) = (e, u) →
      r ∈ u.mp.requests →
      ∃ t, exec (.cfgWrite mb) s = .next t ∧ RespondsAccess r e [] u t)
  ∧ (∀ (mb : Fin 1024) (s : State) (r : MbRequest) (kind n island : Nat) (l : List Nat),
      s.MbGoes mb 0x0203 4 r →
      kind = (r.w 0).toNat →
      n = (r.w 1).toNat →
      island = (if kind = 3 ∨ kind = 5 then (r.w 2).toNat else 0) →
      l = s.resourcesFree kind island n →
      ∃ t, exec (.cfgAlloc mb) s = .next t
        ∧ (kind = 0 ∨ 8 < kind → Responds r stBadArg 0#32 [] s t)
        ∧ (1 ≤ kind → kind ≤ 8 → n = 0 ∨ 256 < n → Responds r stBadArg 4#32 [] s t)
        ∧ (1 ≤ kind → kind ≤ 8 → 1 ≤ n → n ≤ 256 → 16 ≤ island → Responds r stBadArg 8#32 [] s t)
        ∧ (1 ≤ kind → kind ≤ 8 → 1 ≤ n → n ≤ 256 → island < 16 → l.length < n → Responds r stNoSpace 0#32 [] s t)
        ∧ (∀ u : State, 1 ≤ kind → kind ≤ 8 → 1 ≤ n → n ≤ 256 → island < 16 → n ≤ l.length →
            s.mpWrites 0 0 (l.flatMap (fun k => s.ownWrite kind island k (fld (r.w 3) 3 0) (fld (r.w 3) 4 4))) = (none, u) →
            r ∈ u.mp.requests →
            Responds r stOk (u.elapsed r) (l.map w32)
              { u with mp := { u.mp with allocated := u.mp.allocated ++ l.map (fun k => (kind, island, k)) } } t))
  ∧ (∀ (mb : Fin 1024) (s u : State) (r : MbRequest) (n kind island : Nat) (l : List Nat),
      s.MbGoes mb 0x0204 (n + 2) r →
      kind = (r.w 0).toNat →
      1 ≤ kind → kind ≤ 8 →
      island = (if kind = 3 ∨ kind = 5 then (r.w 1).toNat else 0) →
      island < 16 →
      l = (r.payload.drop 2).map (fun w => w.toNat) →
      (∀ k ∈ l, (resourceRange kind).1 ≤ k ∧ k < (resourceRange kind).2) →
      s.mpWrites 0 0 (l.flatMap (fun k => s.ownWrite kind island k 0 1)) = (none, u) →
      r ∈ u.mp.requests →
      ∃ t, exec (.cfgFree mb) s = .next t
        ∧ Responds r stOk (u.elapsed r) []
            { u with mp := { u.mp with allocated := u.mp.allocated.filter (fun x =>
              !(x.1 == kind && x.2.1 == island && l.contains x.2.2)) } } t)
  ∧ (∀ (mb : Fin 1024) (s u v : State) (r : MbRequest) (a : Nat) (e : Option (Nat × BusErr)),
      s.MbGoes mb 0x0205 2 r →
      a = (r.w 0).toNat →
      v = (match measureUse a with
        | some n => s.measureEnd n
        | none => s) →
      v.mpWrites 0 0 [(a, r.w 1)] = (e, u) →
      r ∈ u.mp.requests →
      ∃ t, exec (.cfgAssign mb) s = .next t
        ∧ (s.isOwnerReg a = false → Responds r stBadArg 0#32 [] s t)
        ∧ (s.isOwnerReg a = true → RespondsAccess r e [] u t))
  ∧ (∀ (mb : Fin 1024) (s u : State) (r : MbRequest) (m : Nat) (cfg : Word),
      s.MbGoes mb 0x0206 2 r →
      m = (r.w 0).toNat →
      cfg = r.w 1 →
      u = s.mailboxSet m cfg →
      r ∈ u.mp.requests →
      ∃ t, exec (.cfgMailbox mb) s = .next t
        ∧ ((0 < m ∧ m < 16) ∨ 1024 ≤ m → Responds r stBadArg 0#32 [] s t)
        ∧ (m = 0 ∨ (16 ≤ m ∧ m < 1024) → 12 < fld cfg 11 8 ∨ 12 < fld cfg 3 0 → Responds r stBadArg 4#32 [] s t)
        ∧ (m = 0 ∨ (16 ≤ m ∧ m < 1024) → fld cfg 11 8 ≤ 12 → fld cfg 3 0 ≤ 12 → bit cfg 31 = true →
            s.freeCells + s.mailboxCells m < 2 ^ fld cfg 11 8 + 2 ^ fld cfg 3 0 → Responds r stNoSpace 0#32 [] s t)
        ∧ (m = 0 ∨ (16 ≤ m ∧ m < 1024) → fld cfg 11 8 ≤ 12 → fld cfg 3 0 ≤ 12 →
            bit cfg 31 = false ∨ 2 ^ fld cfg 11 8 + 2 ^ fld cfg 3 0 ≤ s.freeCells + s.mailboxCells m →
            Responds r stOk (u.elapsed r) [u.mbView (R.MB_MBm_REQ m), u.mbView (R.MB_MBm_RSP m)] u t))
  ∧ (∀ (mb : Fin 1024) (s : State) (r : MbRequest),
      s.MbGoes mb 0x0302 1 r →
      ∃ t, exec (.epochStage mb) s = .next t
        ∧ (s.slotOfId (r.w 0).toNat = none → Responds r stNotFound 0#32 [] s t)
        ∧ (∀ i : Nat, s.slotOfId (r.w 0).toNat = some i →
            (s.slotOpener i ≠ s.mbClient mb.val → Responds r stDenied 0#32 [] s t)
            ∧ (s.slotOpener i = s.mbClient mb.val → s.slotState i ≠ 1 →
                Responds r stScheduleRefused (w32 (s.rf R.EP_STATUS 22 0)) [] s t)
            ∧ (s.slotOpener i = s.mbClient mb.val → s.slotState i = 1 →
                t.slotState i = 2 ∧ Responds r stOk (s.elapsed r) [] (s.setRf (R.EP_SLOTs_STATE i) 18 16 2) t)))
  ∧ (∀ (mb : Fin 1024) (s u : State) (r : MbRequest) (i : Nat) (ok : Bool),
      s.MbGoes mb 0x0303 4 r →
      s.slotOfId (r.w 0).toNat = some i →
      s.slotOpener i = s.mbClient mb.val →
      s.mpHaul (s.mbClient mb.val) i (bit (r.w 1) 0) (if bit (r.w 1) 1 = true then none else some (r.w64 2)) = (ok, u) →
      ∃ t, exec (.epochHaul mb) s = .next t
        ∧ (ok = true → Responds r stOk (s.elapsed r) [lo64 s.clk.beat.toNat, hi64 s.clk.beat.toNat, u.reg (R.EP_SLOTs_STATE i)] u t
            ∧ t.slotState i = 3)
        ∧ (ok = false → Responds r stScheduleRefused (w32 (u.rf R.EP_STATUS 22 0)) [] u t)
        ∧ (s.slotState i = 2 → bit (r.w 1) 1 = true ∨ s.isLate (r.w64 2) = false →
            ok = true ∧ t.ep.armedAt.get (fun _ => 0#64) i = (if bit (r.w 1) 1 = true then s.clk.beat + 2 else r.w64 2)))
  ∧ (∀ (mb : Fin 1024) (s u : State) (r : MbRequest) (i : Nat),
      s.MbGoes mb 0x0304 1 r →
      s.slotOfId (r.w 0).toNat = some i →
      s.slotOpener i = s.mbClient mb.val →
      u = s.epAbandon (s.mbClient mb.val) i →
      ∃ t, exec (.epochAbandon mb) s = .next t
        ∧ (s.slotState i = 1 ∨ s.slotState i = 2 → t.slotState i = 5)
        ∧ (u.slotState i = 5 → Responds r stOk (s.elapsed r) [] u t)
        ∧ (u.slotState i ≠ 5 → Responds r stScheduleRefused (w32 (u.rf R.EP_STATUS 22 0)) [] u t))
  ∧ (∀ (mb : Fin 1024) (s u : State) (r : MbRequest) (on : List Nat),
      s.MbGoes mb 0x0501 1 r →
      (maskCores (r.w 0)).foldl (fun (x : List Nat × State) i =>
        let v := (x.2.writeAs .mp (s.mbActs r) (R.AC_CAL (i / 2) (i % 2)) 4 0x80000000#32).2;
        (if v.rb (R.AC_CAL (i / 2) (i % 2)) 30 = true ∧ x.2.rb (R.AC_CAL (i / 2) (i % 2)) 30 = false then x.1 ++ [i] else x.1, v))
        ([], s) = (on, u) →
      ∃ t, exec (.calRun mb) s = .next t
        ∧ t.mp = { u.mp with requests :=
            (u.mp.requests.replace r { r with phase := 1, keep := [coreMask on, r.w 0 &&& ~~~ coreMask on] }) }
        ∧ SameBut [.mp] u t)
  ∧ (∀ (mb : Fin 1024) (s u : State) (r : MbRequest) (ws : List Word) (e : Option BusErr),
      s.MbGoes mb 0x0502 1 r →
      s.mpReads (s.mbActs r) ((maskCores (r.w 0)).flatMap calRegs) = (ws, e, u) →
      r ∈ u.mp.requests →
      ∃ t, exec (.calSave mb) s = .next t
        ∧ (e = none → Responds r stOk (u.elapsed r) ws u t)
        ∧ (∀ x, e = some x → Responds r (if x = .ownership then stDenied else stAccessError) (w32 ws.length) ws u t))
  ∧ (∀ (mb : Fin 1024) (s u : State) (r : MbRequest) (n : Nat) (e : Option (Nat × BusErr)),
      s.MbGoes mb 0x0503 (n + 1) r →
      s.mpWrites (s.mbActs r) 0 (factorWrites (maskCores (r.w 0)) (r.payload.drop 1)) = (e, u) →
      r ∈ u.mp.requests →
      ∃ t, exec (.calRestore mb) s = .next t
        ∧ (n ≠ 13 * (maskCores (r.w 0)).length → Responds r stBadLength 0#32 [] s t)
        ∧ (n = 13 * (maskCores (r.w 0)).length → RespondsAccess r e [] u t))
  ∧ (∀ (mb : Fin 1024) (s : State) (r : MbRequest) (n m ofs : Nat),
      s.MbGoes mb 0x0601 3 r →
      n = (r.w 0).toNat / 6 →
      m = (r.w 0).toNat % 6 →
      ofs = (r.w 1).toNat →
      ∃ t, exec (.tuneStart mb) s = .next t
        ∧ (16 ≤ (r.w 2).toNat → Responds r stBadArg 8#32 [] s t)
        ∧ ((r.w 2).toNat < 16 → 96 ≤ (r.w 0).toNat → Responds r stBadArg 0#32 [] s t)
        ∧ ((r.w 2).toNat < 16 → (r.w 0).toNat < 96 → 8180 < ofs → Responds r stBadArg 4#32 [] s t)
        ∧ ((r.w 2).toNat < 16 → (r.w 0).toNat < 96 → ofs ≤ 8180 → s.islandReachable n = false →
            Responds r stAccessError 0#32 [] s t)
        ∧ ((r.w 2).toNat < 16 → (r.w 0).toNat < 96 → ofs ≤ 8180 → s.islandReachable n = true →
            s.owns (s.mbClient mb.val) (R.LE_OWNER n m) = false ∨ (s.ownerSec (R.LE_OWNER n m) = true ∧ s.domSecure (s.mbClient mb.val) = false) → Responds r stDenied 0#32 [] s t)
        ∧ ((r.w 2).toNat < 16 → (r.w 0).toNat < 96 → ofs ≤ 8180 → s.islandReachable n = true →
            s.owns (s.mbClient mb.val) (R.LE_OWNER n m) = true →
            (s.ownerSec (R.LE_OWNER n m) = true → s.domSecure (s.mbClient mb.val) = true) →
            s.leRetired n m = false ∨ s.leHosted n m = true ∨ (s.le n m).copying = true →
            t.mword (s.tuneAddr r 0) = w32 (s.newCseq r * 65536 + (r.w 2).toNat * 16 + 1)
              ∧ t.mp = { s.mp with requests := s.mp.requests.replace r { r with phase := 1 } }
              ∧ (∀ b : Nat, b < s.tuneAddr r 0 ∨ s.tuneAddr r 0 + 4 ≤ b → t.byte b = s.byte b)
              ∧ SameBut [.mem, .ecc, .mp] s t)
        ∧ ((r.w 2).toNat < 16 → (r.w 0).toNat < 96 → ofs ≤ 8180 → s.islandReachable n = true →
            s.owns (s.mbClient mb.val) (R.LE_OWNER n m) = true →
            (s.ownerSec (R.LE_OWNER n m) = true → s.domSecure (s.mbClient mb.val) = true) →
            s.leRetired n m = true → s.leHosted n m = false → (s.le n m).copying = false →
            t = { s with mp := { s.mp with requests := s.mp.requests.replace r { r with phase := 1 } } }))
  ∧ (∀ (mb : Fin 1024) (s : State),
      (s.mp.requests.find? (fun r => r.mb == mb.val && r.code == 0x0601 && r.phase == 1 && r.answer.isNone) = none →
        exec (.tunePoll mb) s = .next s)
      ∧ (∀ (r : MbRequest) (s1 : Word),
          s.mp.requests.find? (fun r => r.mb == mb.val && r.code == 0x0601 && r.phase == 1 && r.answer.isNone) = some r →
          s1 = s.mword (s.tuneAddr r 1) →
          r.quiet = false →
          ∃ t, exec (.tunePoll mb) s = .next t
            ∧ (s.mbServed mb.val = false ∨ fld s1 31 16 ≠ fld (s.mword (s.tuneAddr r 0)) 31 16 ∨ fld s1 3 0 < 2 → t = s)
            ∧ (s.mbServed mb.val = true → fld s1 31 16 = fld (s.mword (s.tuneAddr r 0)) 31 16 → 2 ≤ fld s1 3 0 →
                Responds r stOk (s.elapsed r) (s1 :: (List.range 6).map (fun i => s.mword (s.tuneAddr r (6 + i)))) s t)))
  ∧ (∀ (mb : Fin 1024) (s : State) (r : MbRequest) (n m : Nat),
      s.MbGoes mb 0x0602 2 r →
      n = (r.w 0).toNat / 6 →
      m = (r.w 0).toNat % 6 →
      (r.w 0).toNat < 96 →
      (r.w 1).toNat ≤ 8180 →
      s.islandReachable n = true →
      s.owns (s.mbClient mb.val) (R.LE_OWNER n m) = true →
      (s.ownerSec (R.LE_OWNER n m) = true → s.domSecure (s.mbClient mb.val) = true) →
      ∃ t, exec (.tuneCancel mb) s = .next t
        ∧ (fld (s.mword (s.tuneAddr r 1)) 3 0 ≠ 1 → Responds r stWrongState 0#32 [] s t)
        ∧ (fld (s.mword (s.tuneAddr r 1)) 3 0 = 1 → s.leRetired n m = false ∨ s.leHosted n m = true ∨ (s.le n m).copying = true →
            Responds r stOk (s.elapsed r) [] (s.setMword (s.tuneAddr r 0) (w32 (s.newCseq r * 65536 + 2))) t)
        ∧ (fld (s.mword (s.tuneAddr r 1)) 3 0 = 1 → s.leRetired n m = true → s.leHosted n m = false → (s.le n m).copying = false →
            Responds r stOk (s.elapsed r) [] s t))
  ∧ (∀ (mb : Fin 1024) (s u v : State) (r : MbRequest) (p et red : Nat) (e : Option (Nat × BusErr)),
      s.MbGoes mb 0x0701 4 r →
      p = (r.w 0).toNat →
      p < 4 →
      et = (if r.w 2 = 0#32 then 0x88B5 else (r.w 2).toNat) →
      red = (r.w 3).toNat →
      v = s.setPort p { s.portRec p with scanning := false } →
      v.mpWrites 0 0 [(R.NX_PORTp_ETYPE p, w32 et),
        (R.NX_PORTp_CFG p, (r.w 1 &&& 0x00010103#32) ||| w32 (red * 2 ^ 24))] = (e, u) →
      r ∈ u.mp.requests →
      ∃ t, exec (.netPort mb) s = .next t
        ∧ (0xFFFF < et → Responds r stBadArg 8#32 [] s t)
        ∧ (et ≤ 0xFFFF → 4 ≤ red → red ≠ 15 → Responds r stBadArg 12#32 [] s t)
        ∧ (et ≤ 0xFFFF → red < 4 ∨ red = 15 → u.portRetired p = false → RespondsAccess r e [u.reg (R.NX_PORTp_STATE p)] u t)
        ∧ (∀ x : State, et ≤ 0xFFFF → red < 4 ∨ red = 15 → e = none → u.portRetired p = true →
            x = (u.portRestored p).conditionEnded (0x110 + p) → r ∈ x.mp.requests →
            Responds r stOk (x.elapsed r) [x.reg (R.NX_PORTp_STATE p)] x t))
  ∧ (∀ (mb : Fin 1024) (s : State) (r : MbRequest) (cyclic : Bool) (partner mask : Nat) (l : List Nat) (cfg : Word),
      s.MbGoes mb 0x0702 4 r →
      cyclic = bit (r.w 0) 31 →
      partner = fld (r.w 0) 11 0 →
      mask = (r.w 3).toNat →
      l = (List.range 4).filter (fun p => mask.testBit p) →
      (cyclic = true → 31250 ≤ (r.w 1).toNat ∧ (∀ p ∈ l, (r.w 1).toNat % max 1 (s.portRec p).cycle = 0)
        ∧ sizeField (fld (r.w 2) 31 16) = true ∧ sizeField (fld (r.w 2) 15 0) = true) →
      cfg = w32 (2 ^ 31 + b2n cyclic * 2 ^ 30 + 3 * 2 ^ 24 + s.mbClient mb.val * 2 ^ 20 + mask * 2 ^ 16 + partner) →
      ∃ t, exec (.netSessionOpen mb) s = .next t
        ∧ (mask = 0 ∨ 16 ≤ mask ∨ 2 < l.length → Responds r stBadArg 12#32 [] s t)
        ∧ (1 ≤ mask → mask < 16 → l.length ≤ 2 → s.sessionOf partner ≠ none → Responds r stWrongState 0#32 [] s t)
        ∧ (1 ≤ mask → mask < 16 → l.length ≤ 2 → s.sessionOf partner = none → s.openSession cfg (r.w 1) (r.w 2) = none →
            Responds r stNoSpace 0#32 [] s t)
        ∧ (∀ (k : Nat) (u : State), 1 ≤ mask → mask < 16 → l.length ≤ 2 → s.sessionOf partner = none →
            s.openSession cfg (r.w 1) (r.w 2) = some (k, u) → r ∈ u.mp.requests →
            Responds r stOk (u.elapsed r) ((u.session k).queues.map u.qHandle) u t))
  ∧ (∀ (mb : Fin 1024) (s : State) (r : MbRequest),
      s.MbGoes mb 0x0703 1 r →
      ∃ t, exec (.netSessionClose mb) s = .next t
        ∧ (s.sessionOf (r.w 0).toNat = none → Responds r stNotFound 0#32 [] s t)
        ∧ (∀ (k : Nat) (u : State), s.sessionOf (r.w 0).toNat = some k → u = s.closeSession k → r ∈ u.mp.requests →
            Responds r stOk (u.elapsed r) [] u t))
  ∧ (∀ (mb : Fin 1024) (s : State) (r : MbRequest) (l : List (Nat × FaultRec)),
      s.MbGoes mb 0x0801 1 r →
      l = ((s.faults.recs.filter (fun e => e.2.incidents != 0)).drop (r.w 0).toNat).take 512 →
      ∃ t, exec (.diagFaults mb) s = .next t
        ∧ Responds r stOk (s.elapsed r) (w32 l.length :: l.flatMap (fun e => s.recordWords e.1)) s t)
  ∧ (∀ (mb : Fin 1024) (s u : State) (r : MbRequest) (e : Option (Nat × BusErr)),
      s.MbGoes mb 0x0802 1 r →
      s.mpWrites 0 0 [(R.FC_ACK, r.w 0)] = (e, u) →
      r ∈ u.mp.requests →
      ∃ t, exec (.diagAck mb) s = .next t
        ∧ ((s.faultRec (r.w 0).toNat).isOpen = false → Responds r stNotFound 0#32 [] s t)
        ∧ ((s.faultRec (r.w 0).toNat).isOpen = true → RespondsAccess r e [w32 (s.faultRec (r.w 0).toNat).tally] u t))
  ∧ (∀ (mb : Fin 1024) (s : State) (r : MbRequest),
      s.MbGoes mb 0x0803 1 r →
      ∃ t, exec (.diagRetire mb) s = .next t
        ∧ (unitSource (r.w 0).toNat = none → Responds r stBadArg 0#32 [] s t)
        ∧ (∀ x : Nat, unitSource (r.w 0).toNat = some x →
            (s.restorable x = true → Responds r stWrongState 0#32 [] s t)
            ∧ (∀ (u : State) (e : Option (Nat × BusErr)), s.restorable x = false →
                s.mpWrites 0 0 [(R.FC_RETIRE, w32 x)] = (e, u) → r ∈ u.mp.requests → RespondsAccess r e [] u t)))
  ∧ (∀ (mb : Fin 1024) (s : State) (r : MbRequest) (x : Nat),
      s.MbGoes mb 0x0804 1 r →
      unitSource (r.w 0).toNat = some x →
      ∃ t, exec (.diagRestore mb) s = .next t
        ∧ (s.restorable x = false ∨ s.rb R.FC_RESTORE_STATE 31 = true → Responds r stWrongState 0#32 [] s t)
        ∧ (∀ u : State, s.restorable x = true → s.rb R.FC_RESTORE_STATE 31 = false →
            s.mpWrites 0 0 [(R.FC_RESTORE, w32 x)] = (none, u) →
            t = { u with mp := { u.mp with requests := u.mp.requests.replace r { r with phase := 1 } } }))
  ∧ (∀ (mb : Fin 1024) (s : State) (r : MbRequest) (n k : Nat),
      s.MbGoes mb 0x0805 (k + 5) r →
      n = (r.w 3).toNat →
      ∃ t, exec (.diagSnapshot mb) s = .next t
        ∧ (n = 0 ∨ 8192 < n → Responds r stBadArg 12#32 [] s t)
        ∧ (1 ≤ n → n ≤ 8192 → k + 1 ≠ n → Responds r stBadLength 0#32 [] s t)
        ∧ (1 ≤ n → n ≤ 8192 → k + 1 = n → s.snapBusy = true ∨ s.snap.loading = true → Responds r stWrongState 0#32 [] s t)
        ∧ (∀ u : State, 1 ≤ n → n ≤ 8192 → k + 1 = n → s.snapBusy = false → s.snap.loading = false →
            s.mpWrites 0 0 ([(R.SN_COUNT, w32 n)] ++ (List.range n).map (fun i => (pairAddr i, r.w (4 + i))) ++ [(R.SN_LOAD, 1#32)])
              = (none, u) →
            t = { u with mp := { u.mp with requests := u.mp.requests.replace r { r with phase := 1 } } }))
  ∧ (∀ (mb : Fin 1024) (s : State) (r : MbRequest) (n : Nat),
      s.MbGoes mb 0x0806 2 r →
      n = (r.w 1).toNat →
      ∃ t, exec (.diagDrain mb) s = .next t
        ∧ (n = 0 ∨ 1023 < n → Responds r stBadArg 4#32 [] s t)
        ∧ (∀ (l : List Word) (w : Word) (u : State), 1 ≤ n → n ≤ 1023 → s.drainCells (s.mbActs r) (r.w 0) n = (l, w, u) →
            r ∈ u.mp.requests → Responds r stOk (u.elapsed r) (l ++ [w]) u t))
  ∧ (∀ (mb : Fin 1024) (s u : State) (r : MbRequest) (ws : List Word) (e : Option BusErr),
      s.MbGoes mb 0x0A01 0 r →
      s.mpReads 0 [R.CAL_NOW_LO, R.CAL_NOW_HI, R.CAL_UTC_OFFSET, R.CAL_VALID, R.CAL_PAIR_DT_LO, R.CAL_PAIR_DT_HI, R.CAL_PAIR_SEC,
        R.TB_DISC] = (ws, e, u) →
      r ∈ u.mp.requests →
      ∃ t, exec (.timeGet mb) s = .next t
        ∧ (e = none → Responds r stOk (u.elapsed r) ws u t)
        ∧ (∀ x, e = some x → Responds r (if x = .ownership then stDenied else stAccessError) (w32 ws.length) ws u t))
  ∧ (∀ (mb : Fin 1024) (s u : State) (r : MbRequest) (e : Option (Nat × BusErr)),
      s.MbGoes mb 0x0A02 5 r →
      s.mpWrites 0 0 ((if bit (r.w 0) 0 = true then [(R.CAL_SET_LO, r.w 1), (R.CAL_SET_HI, r.w 2)] else [])
        ++ (if bit (r.w 0) 1 = true then [(R.CAL_UTC_OFFSET, r.w 3), (R.CAL_LEAP_AT, r.w 4)] else [])) = (e, u) →
      r ∈ u.mp.requests →
      ∃ t, exec (.timeSet mb) s = .next t
        ∧ (4 ≤ (r.w 0).toNat → Responds r stBadArg 0#32 [] s t)
        ∧ ((r.w 0).toNat < 4 → bit (r.w 0) 0 = true → r.w 2 &&& 0xFF008000#32 ≠ 0#32 → Responds r stBadArg 8#32 [] s t)
        ∧ ((r.w 0).toNat < 4 → bit (r.w 0) 0 = false ∨ r.w 2 &&& 0xFF008000#32 = 0#32 → RespondsAccess r e [] u t))
  ∧ (∀ (mb : Fin 1024) (s : State) (r : MbRequest) (p : Nat),
      s.MbGoes mb 0x0A03 2 r →
      p = (r.w 1).toNat →
      ∃ t, exec (.timeDisc mb) s = .next t
        ∧ (4 ≤ (r.w 0).toNat → Responds r stBadArg 0#32 [] s t)
        ∧ ((r.w 0).toNat < 4 → 4 ≤ p → p ≠ 15 → Responds r stBadArg 4#32 [] s t)
        ∧ (∀ u : State, (r.w 0).toNat < 4 → p < 4 ∨ p = 15 → s.mpWrites 0 0 [(R.TB_DISC, r.w 0)] = (none, u) →
            r ∈ u.mp.requests →
            Responds r stOk (u.elapsed r) [] { u with net := { u.net with asPort := if p = 15 then none else some p } } t))
  ∧ (∀ (mb : Fin 1024) (s : State) (r : MbRequest) (a : Nat),
      s.MbGoes mb 0x0A04 4 r →
      a = (r.w 0).toNat →
      ∃ t, exec (.timeAlarm mb) s = .next t
        ∧ (4 ≤ a → Responds r stBadArg 0#32 [] s t)
        ∧ (∀ u : State, a < 4 → s.mpWrites 0 0 [(R.CAL_ALARMa_SEC a, r.w 1), (R.CAL_ALARMa_INTERVAL a, r.w 3),
              (R.CAL_ALARMa_CTRL a, r.w 2)] = (none, u) → r ∈ u.mp.requests →
            (bit (r.w 2) 31 = true → u.rb (R.CAL_ALARMa_CTRL a) 31 = false →
              Responds r stScheduleRefused (w32 (u.rf R.CAL_STATUS 22 0)) [] u t)
            ∧ (bit (r.w 2) 31 = false ∨ u.rb (R.CAL_ALARMa_CTRL a) 31 = true →
              Responds r stOk (u.elapsed r) [u.reg R.CAL_STATUS] u t)))
  ∧ (∀ (mb : Fin 1024) (s : State) (r : MbRequest) (level : Nat),
      s.MbGoes mb 0x0B03 33 r →
      level = (r.w 0).toNat →
      ∃ t, exec (.secUnlock mb) s = .next t
        ∧ (0 < s.barredFor → Responds r stDenied (w32 s.barredFor) [] s t)
        ∧ (s.barredFor = 0 → s.mp.nonce = none → Responds r stWrongState 0#32 [] s t)
        ∧ (∀ (nonce : List Byte) (since : BitVec 64) (u : State), s.barredFor = 0 → s.mp.nonce = some (nonce, since) →
            u = { s with mp := { s.mp with nonce := none, barredUntil := none } } →
            (2500000000 < (s.clk.beat - since).toNat → Responds r stWrongState 0#32 [] u t)
            ∧ ((s.clk.beat - since).toNat ≤ 2500000000 → level ≠ 1 → level ≠ 2 → Responds r stBadArg 0#32 [] u t)
            ∧ ((s.clk.beat - since).toNat ≤ 2500000000 → level = 1 ∨ level = 2 →
                unlockVerifies nonce level (((r.payload.drop 1).take 16).flatMap bytesOfWord)
                  ((r.payload.drop 17).flatMap bytesOfWord) = true →
                t.mp.unlock = level ∧ t.mp.failures = 0 ∧ t.rb R.SYS_DOMAIN_SEC 11 = decide (level = 2)
                  ∧ Answered r stOk (s.elapsed r) [] s t)
            ∧ ((s.clk.beat - since).toNat ≤ 2500000000 → level = 1 ∨ level = 2 →
                unlockVerifies nonce level (((r.payload.drop 1).take 16).flatMap bytesOfWord)
                  ((r.payload.drop 17).flatMap bytesOfWord) = false →
                t.mp.unlock = s.mp.unlock ∧ t.mp.failures = (if s.mp.failures = 2 then 0 else s.mp.failures + 1)
                  ∧ t.mp.barredUntil = (if s.mp.failures = 2 then some (s.clk.beat + 15000000000) else none)
                  ∧ Answered r stBadSignature 0#32 [] s t)))
  ∧ (∀ (mb : Fin 1024) (s : State) (r : MbRequest),
      s.MbGoes mb 0x0B04 0 r →
      ∃ t, exec (.secLock mb) s = .next t
        ∧ t.mp.unlock = 0
        ∧ t.rb R.SYS_DOMAIN_SEC 11 = false
        ∧ t.pow.testAt = none
        ∧ Answered r stOk (s.elapsed r) [] s t)

/-- R342, R343, R347: PROGRAM and ERASE of a flash bank, their refusals, and their ends; R359, R362, R368: QM_Qq_CFG takes and
frees cells, QM_Qq_OWN empties a queue, QM_Qq_WM; R270: an event record goes to the queue of its pennant, or is lost; R339,
R340: a scrubber's read, and the end of a row's copy. What a word holds after a program or an erase that fails is open: it is
marked so, and no clause names its value. (13_memories_flash_dma.md, 14_queue_manager.md, 10_bunting_fabric.md) -/
def Obligations.FlashQueueAndErrorCommands : Prop :=
  (∀ (m : Master) (b : Fin 2) (a : Nat) (s : State) (r : RegRow),
      s.Writes m .fl r (R.FL_Bb_CMD b.val) →
      a = (s.reg (R.FL_Bb_ADDR b.val)).toNat →
      s.flashBusy b.val = false →
      s.rb (R.FL_Bb_STATE b.val) 28 = false →
      a % 32 = 0 →
      0x10000000 + 0x1000000 * b.val ≤ a → a < 0x11000000 + 0x1000000 * b.val →
      s.rb R.FL_LOCK (16 * b.val + a / 0x100000 % 16) = false →
      (s.flashMark a).programmed = false →
      ∃ t, exec (.flashProgram m b) s = .next t
        ∧ t.flashOp b.val = some ⟨false, a, (List.range 8).map (fun i => s.reg (R.FL_Bb_DATAi b.val i))⟩
        ∧ t.flashMark a = { s.flashMark a with programmed := true }
        ∧ (∀ x : Nat, x / 32 ≠ a / 32 → t.flashMark x = s.flashMark x)
        ∧ (∀ k : Nat, k ≠ b.val → t.flashOp k = s.flashOp k)
        ∧ t.reg (R.FL_Bb_STATE b.val) = 0x60000000#32
        ∧ RegsBut [R.FL_Bb_STATE b.val] s t
        ∧ SameBut [.regs, .flash, .flashOps, .reply] s t)
  ∧ (∀ (m : Master) (b : Fin 2) (a : Nat) (s : State) (r : RegRow),
      s.Writes m .fl r (R.FL_Bb_CMD b.val) →
      a = (s.reg (R.FL_Bb_ADDR b.val)).toNat →
      s.flashBusy b.val = false →
      s.rb (R.FL_Bb_STATE b.val) 28 = false →
      a % 65536 = 0 →
      0x10000000 + 0x1000000 * b.val ≤ a → a < 0x11000000 + 0x1000000 * b.val →
      s.rb R.FL_LOCK (16 * b.val + a / 0x100000 % 16) = false →
      ∃ t, exec (.flashErase m b) s = .next t
        ∧ t.flashOp b.val = some ⟨true, a, []⟩
        ∧ (∀ k : Nat, k ≠ b.val → t.flashOp k = s.flashOp k)
        ∧ t.reg (R.FL_Bb_STATE b.val) = 0xA0000000#32
        ∧ RegsBut [R.FL_Bb_STATE b.val] s t
        ∧ SameBut [.regs, .flashOps, .reply] s t)
  ∧ (∀ (m : Master) (b : Fin 2) (a f : Nat) (erase : Bool) (s : State) (r : RegRow),
      s.Writes m .fl r (R.FL_Bb_CMD b.val) →
      a = (s.reg (R.FL_Bb_ADDR b.val)).toNat →
      (f = 4 ∧ (s.flashBusy b.val = true ∨ s.rb (R.FL_Bb_STATE b.val) 28 = true)
        ∨ s.flashBusy b.val = false ∧ s.rb (R.FL_Bb_STATE b.val) 28 = false
          ∧ (f = 3 ∧ (a % (if erase = true then 65536 else 32) ≠ 0 ∨ a < 0x10000000 + 0x1000000 * b.val ∨ 0x11000000 + 0x1000000 * b.val ≤ a)
            ∨ a % (if erase = true then 65536 else 32) = 0 ∧ 0x10000000 + 0x1000000 * b.val ≤ a ∧ a < 0x11000000 + 0x1000000 * b.val
              ∧ (f = 2 ∧ s.rb R.FL_LOCK (16 * b.val + a / 0x100000 % 16) = true
                ∨ f = 1 ∧ s.rb R.FL_LOCK (16 * b.val + a / 0x100000 % 16) = false ∧ erase = false ∧ (s.flashMark a).programmed = true))) →
      ∃ t, exec (if erase = true then .flashErase m b else .flashProgram m b) s = .next t
        ∧ t.rb R.FL_STATUS f = true
        ∧ RegsBut [R.FL_STATUS] s t
        ∧ SameBut [.regs, .scCount, .reply] s t)
  ∧ (∀ (m : Master) (b : Fin 2) (s : State) (r : RegRow),
      s.Writes m .fl r (R.FL_Bb_CMD b.val) →
      ∃ t, exec (.flashClrInt m b) s = .next t
        ∧ (s.flashBusy b.val = false → t.rb (R.FL_Bb_STATE b.val) 28 = false ∧ RegsBut [R.FL_Bb_STATE b.val] s t)
        ∧ (s.flashBusy b.val = true → t.rb R.FL_STATUS 4 = true ∧ RegsBut [R.FL_STATUS] s t)
        ∧ SameBut [.regs, .scCount, .reply] s t)
  ∧ (∀ (b : Fin 2) (ok : Bool) (a : Nat) (ws : List Word) (s : State),
      s.flashOp b.val = some ⟨false, a, ws⟩ →
      a % 32 = 0 →
      ws.length = 8 →
      s.device ≠ .entering →
      ∃ t, exec (.flashOperationDone b ok) s = .next t
        ∧ t.flashOp b.val = none
        ∧ (∀ i : Nat, i < 8 → t.mword (a + 4 * i) = ws.getD i 0#32)
        ∧ BytesBut a 32 s t
        ∧ t.flashMark a = ⟨true, (s.flashMark a).undef || !ok, .good⟩
        ∧ (∀ x : Nat, x / 32 ≠ a / 32 → t.flashMark x = s.flashMark x)
        ∧ t.rb (R.FL_Bb_STATE b.val) 29 = false
        ∧ t.rb R.FL_STATUS 0 = true
        ∧ (ok = false → t.rb R.FL_STATUS 5 = true)
        ∧ RegsBut [R.FL_Bb_STATE b.val, R.FL_STATUS] s t
        ∧ SameBut [.cores, .freeCtr, .mem, .ecc, .flash, .flashOps, .regs, .scCount] s t)
  ∧ (∀ (b : Fin 2) (ok : Bool) (a : Nat) (s : State),
      s.flashOp b.val = some ⟨true, a, []⟩ →
      a % 65536 = 0 →
      s.device ≠ .entering →
      ∃ t, exec (.flashOperationDone b ok) s = .next t
        ∧ t.flashOp b.val = none
        ∧ (∀ x : Nat, x < a ∨ a + 0x10000 ≤ x → t.byte x = s.byte x ∧ t.flashMark x = s.flashMark x)
        ∧ (∀ x : Nat, a ≤ x → x < a + 0x10000 →
            (ok = true → t.byte x = memReset x ∧ t.flashMark x = .reset)
              ∧ (ok = false → t.flashMark x = { s.flashMark x with undef := true }))
        ∧ t.rb (R.FL_Bb_STATE b.val) 29 = false
        ∧ t.rb R.FL_STATUS 0 = true
        ∧ (ok = false → t.rb R.FL_STATUS 5 = true)
        ∧ RegsBut [R.FL_Bb_STATE b.val, R.FL_STATUS] s t
        ∧ SameBut [.cores, .freeCtr, .mem, .ecc, .flash, .flashOps, .regs, .scCount] s t)
  ∧ (∀ (m : Master) (q : Fin 65536) (v : Word) (s : State) (r : RegRow),
      s.Writes m .qm r (R.QM_Qq_CFG q.val) →
      fld v 27 24 ≤ 12 →
      (bit v 31 = true → 2 ^ fld v 27 24 ≤ (s.setQueue q.val { s.queue q.val with cells := [] }).freeCells) →
      ∃ t, exec (.queueConfigure m q v) s = .next t
        ∧ t.reg (R.QM_Qq_CFG q.val) = v &&& 0xCFFF0000#32
        ∧ (t.queue q.val).gen = ((s.queue q.val).gen + 1) % 65536
        ∧ t.entries q.val = []
        ∧ t.qCountView q.val = 0#32
        ∧ (bit v 31 = true → t.QueueSound q.val
            ∧ ∀ c ∈ (t.queue q.val).cells, ∀ k : Nat, k ≠ q.val → c ∉ (s.queue k).cells)
        ∧ (bit v 31 = false → (t.queue q.val).cells = [])
        ∧ (∀ k : Nat, k ≠ q.val → t.queue k = s.queue k)
        ∧ RegsBut [R.QM_Qq_CFG q.val] s t
        ∧ SameBut [.regs, .queues, .reply] s t)
  ∧ (∀ (m : Master) (q : Fin 65536) (v : Word) (s : State) (r : RegRow),
      s.Writes m .qm r (R.QM_Qq_CFG q.val) →
      fld v 27 24 ≤ 12 →
      bit v 31 = true →
      (s.setQueue q.val { s.queue q.val with cells := [] }).freeCells < 2 ^ fld v 27 24 →
      ∃ t, exec (.queueConfigure m q v) s = .next t
        ∧ t.rb R.QM_STATUS 1 = true
        ∧ RegsBut [R.QM_STATUS] s t
        ∧ SameBut [.regs, .scCount, .reply] s t)
  ∧ (∀ (m : Master) (q : Fin 65536) (v : Word) (s : State) (r : RegRow),
      s.Writes m .qm r (R.QM_Qq_OWN q.val) →
      ∃ t, exec (.queueOwn m q v) s = .next t
        ∧ t.reg (R.QM_Qq_OWN q.val) = v &&& 0x1F#32
        ∧ (t.queue q.val).gen = ((s.queue q.val).gen + 1) % 65536
        ∧ (t.queue q.val).cells = (s.queue q.val).cells
        ∧ t.entries q.val = []
        ∧ t.qCountView q.val = 0#32
        ∧ (∀ k : Nat, k ≠ q.val → t.queue k = s.queue k)
        ∧ RegsBut [R.QM_Qq_OWN q.val] s t
        ∧ SameBut [.regs, .queues, .reply] s t)
  ∧ (∀ (m : Master) (q : Fin 65536) (v : Word) (s : State) (r : RegRow),
      s.Writes m .qm r (R.QM_Qq_WM q.val) →
      ∃ t, exec (.watermarkWrite m q v) s = .next t
        ∧ t.reg (R.QM_Qq_WM q.val) = (s.reg (R.QM_Qq_WM q.val) &&& ~~~ r.wmask) ||| (v &&& r.wmask)
        ∧ RegsBut [R.QM_Qq_WM q.val] s t
        ∧ SameBut [.regs, .reply] s t)
  ∧ (∀ (seg : Fin 17) (s : State),
      s.recordsOf seg.val = [] →
      exec (.eventRecordPush seg) s = .next s)
  ∧ (∀ (seg : Fin 17) (e : EventRecord) (l : List EventRecord) (h : Word) (s : State),
      s.recordsOf seg.val = e :: l →
      h = s.reg (pnRecReg e.pennant) →
      s.qRefusal (s.ownerDom (pnOwner e.pennant)) h true = none →
      (s.ownerSec (R.QM_Qq_OWN (fld h 15 0)) = true → s.ownerSec (pnOwner e.pennant) = true) →
      s.QueueSound (fld h 15 0) →
      s.qDepth (fld h 15 0) < s.qCapacity (fld h 15 0) →
      ∃ t, exec (.eventRecordPush seg) s = .next t
        ∧ t.entries (fld h 15 0) = s.entries (fld h 15 0)
            ++ [[e.w0, e.w1, e.w2hi ||| w32 (s.pnRec e.pennant).seq, w32 (s.pnRec e.pennant).lost] ++ List.replicate 12 0#32]
        ∧ t.recordsOf seg.val = l
        ∧ t.pnRec e.pennant = ⟨((s.pnRec e.pennant).seq + 1) % 65536, 0⟩
        ∧ (∀ k : Nat, k ≠ seg.val → t.recordsOf k = s.recordsOf k)
        ∧ (∀ p : Nat, p ≠ e.pennant → t.pnRec p = s.pnRec p)
        ∧ RegsBut [] s t
        ∧ SameBut [.mem, .ecc, .queues, .due, .pulses, .fab] s t)
  ∧ (∀ (seg : Fin 17) (e : EventRecord) (l : List EventRecord) (h : Word) (s : State),
      s.recordsOf seg.val = e :: l →
      h = s.reg (pnRecReg e.pennant) →
      (s.qRefusal (s.ownerDom (pnOwner e.pennant)) h true ≠ none ∨ s.ownerSec (R.QM_Qq_OWN (fld h 15 0)) = true ∧ s.ownerSec (pnOwner e.pennant) = false) →
      ∃ t, exec (.eventRecordPush seg) s = .next t
        ∧ t.recordsOf seg.val = l
        ∧ t.pnRec e.pennant = ⟨(s.pnRec e.pennant).seq, satTo 0xFFFF ((s.pnRec e.pennant).lost + 1)⟩
        ∧ t.rb R.QM_STATUS 0 = true
        ∧ SameBut [.regs, .scCount, .fab] s t)
  ∧ (∀ (mem : Fin 112) (a : Word) (flips : Fin 3) (x : Nat) (s : State),
      x = scrubAddr mem.val a →
      memCode x = some mem.val →
      s.scrubs mem.val = true →
      ∃ t, exec (.scrubRead mem a flips) s = .next t
        ∧ (flips = 0 → s.eccMark x = .good → t = s)
        ∧ (flips = 2 ∨ s.eccBad x = true →
            t.eccBad x = true ∧ t.rb R.ME_STATUS 2 = true
              ∧ t.rf R.ME_COUNTS 31 16 = satTo 0xFFFF (s.rf R.ME_COUNTS 31 16 + 1)
              ∧ t.due = s.due ++ [.faultReport (Fin.ofNat 8192 (0x140 + mem.val)) (Fin.ofNat 8192 (0x140 + mem.val)) 0x0D#8 (w32 x)])
        ∧ ((flips = 1 ∨ flips = 0 ∧ s.eccMark x = .flipped) → s.eccBad x = false →
            t.eccMark x = .good ∧
            (t.macroRec (macroKey mem.val x)).tracked = track (s.macroRec (macroKey mem.val x)).tracked x
              ∧ t.rb R.ME_STATUS 0 = true
              ∧ t.rf R.ME_COUNTS 15 0 = satTo 0xFFFF (s.rf R.ME_COUNTS 15 0 + 1)
              ∧ ((track (s.macroRec (macroKey mem.val x)).tracked x).contains (x, 4) = true → s.rb R.ME_CTRL 30 = true →
                  (s.macroRec (macroKey mem.val x)).rows.length + (s.macroRec (macroKey mem.val x)).copying.length < 8 →
                  rowOf x ∈ (t.macroRec (macroKey mem.val x)).copying))
        ∧ (∀ k : Nat, k ≠ macroKey mem.val x → t.macroRec k = s.macroRec k)
        ∧ RegsBut [R.ME_STATUS, R.ME_COUNTS, R.ME_LAST_ADDR, R.ME_LAST_INFO] s t
        ∧ SameBut [.regs, .scCount, .due, .ecc, .macros] s t)
  ∧ (∀ (mem : Fin 112) (a : Word) (x : Nat) (s : State),
      x = scrubAddr mem.val a →
      rowOf x ∈ (s.macroRec (macroKey mem.val x)).copying →
      ∃ t, exec (.rowRetireCopyDone mem a) s = .next t
        ∧ (t.macroRec (macroKey mem.val x)).rows = (s.macroRec (macroKey mem.val x)).rows ++ [rowOf x]
        ∧ (t.macroRec (macroKey mem.val x)).copying = (s.macroRec (macroKey mem.val x)).copying.erase (rowOf x)
        ∧ (∀ e ∈ (t.macroRec (macroKey mem.val x)).tracked, rowOf e.1 ≠ rowOf x)
        ∧ t.rb R.ME_STATUS 3 = true
        ∧ t.due = s.due ++ [.faultReport (Fin.ofNat 8192 (0x140 + mem.val)) (Fin.ofNat 8192 (0x140 + mem.val)) 0x0E#8 (w32 x)]
        ∧ (∀ k : Nat, k ≠ macroKey mem.val x → t.macroRec k = s.macroRec k)
        ∧ (∀ y : Nat, t.eccMark y = if rowOf y = rowOf x ∧ s.eccMark y = .flipped then .good else s.eccMark y)
        ∧ RegsBut [R.ME_STATUS, R.ME_LAST_ADDR, R.ME_LAST_INFO] s t
        ∧ SameBut [.regs, .scCount, .due, .ecc, .macros] s t)

/-- R409 to R429: the network engine. Links go down and come up and codes are scanned (R410); a port is retired (R428); dropped
frames are counted (R411, R428); the due session of a cycle transmits one slot, with its last data where no fresh data waits
(R415, R416), under a SEQ that the spec leaves open for CYCLIC telegrams (a free value); a slot that comes in is delivered
(R417), one that misses is counted (R418); telegrams for others or with bad headers are counted only (R414); ACYCLIC telegrams
are acknowledged in order and resent (R420, R421); discovery, joins and leaves (R425, R426); scheduled commands act when their
beat has come (R423), a haul-down and a snapshot at once. (16_network_partners_host.md) -/
def Obligations.NetworkCommands : Prop :=
  (∀ (p : Fin 4) (s : State),
      (s.linkUp p.val = false → exec (.linkDown p) s = .next s)
      ∧ (s.linkUp p.val = true → ∃ t, exec (.linkDown p) s = .next t
        ∧ t.linkUp p.val = false
        ∧ t.portRec p.val = { s.portRec p.val with downSince := some s.clk.beat }
        ∧ (∀ k : Nat, k ≠ p.val → t.portRec k = s.portRec k)
        ∧ RegsBut [R.NX_PORTp_STATE p.val] s t
        ∧ SameBut [.regs, .net, .due, .pulses] s t))
  ∧ (∀ (p : Fin 4) (s : State),
      ((s.linkUp p.val = true ∨ s.rf (R.NX_PORTp_STATE p.val) 1 0 = 0 ∨ s.coresGo = false) → exec (.linkUp p) s = .next s)
      ∧ (s.linkUp p.val = false → s.rf (R.NX_PORTp_STATE p.val) 1 0 ≠ 0 → s.coresGo = true → ∃ t, exec (.linkUp p) s = .next t
        ∧ t.linkUp p.val = true
        ∧ t.portRec p.val = { s.portRec p.val with downSince := none, scanning := false }
        ∧ (∀ k : Nat, k ≠ p.val → t.portRec k = s.portRec k)
        ∧ RegsBut [R.NX_PORTp_STATE p.val] s t
        ∧ SameBut [.regs, .net, .due, .pulses] s t))
  ∧ (∀ (p : Fin 4) (m : Nat) (s : State),
      (s.portRec p.val).scanning = true →
      s.linkUp p.val = false →
      s.coresGo = true →
      m = (if s.rf (R.NX_PORTp_CFG p.val) 1 0 = 3 then 2 else if s.rf (R.NX_PORTp_CFG p.val) 1 0 = 2 then 1 else 3) →
      ∃ t, exec (.portScanStep p) s = .next t
        ∧ t.rf (R.NX_PORTp_CFG p.val) 1 0 = m
        ∧ t.rb (R.NX_PORTp_CFG p.val) 8 = (m == 1)
        ∧ t.rf (R.NX_PORTp_STATE p.val) 1 0 = m
        ∧ t.linkUp p.val = false
        ∧ (t.portRec p.val).scanning = true
        ∧ (t.portRec p.val).downSince = some s.clk.beat
        ∧ RegsBut [R.NX_PORTp_CFG p.val, R.NX_PORTp_STATE p.val] s t
        ∧ SameBut [.regs, .net] s t)
  ∧ (∀ (p : Fin 4) (b : BitVec 64) (redundant : Bool) (s : State),
      (s.portRec p.val).downSince = some b →
      s.downLimit p.val ≤ (s.clk.beat - b).toNat →
      s.coresGo = true →
      s.portRetired p.val = false →
      (redundant = true ↔ ∃ r, s.redund p.val = some r ∧ s.portWorks r = true) →
      ∃ t, exec (.portRetire p) s = .next t
        ∧ t.portRetired p.val = true
        ∧ t.rb R.NX_STATUS 0 = true
        ∧ Instr.faultReport (Fin.ofNat 8192 (0x110 + p.val)) (Fin.ofNat 8192 (0x110 + p.val)) (if redundant = true then 0x1A#8 else 0x1B#8) 1#32 ∈ t.due
        ∧ (redundant = false → t.net.sent = [])
        ∧ RegsBut (R.NX_PORTp_STATE p.val :: R.NX_STATUS :: (List.range 4).map R.NX_PORTp_TX_FRAMES) s t
        ∧ NetBut s t
        ∧ t.net.sessions = s.net.sessions
        ∧ SameBut [.regs, .scCount, .net, .due, .pulses] s t)
  ∧ (∀ (p : Fin 4) (crc : Bool) (s : State),
      s.linkUp p.val = true →
      ∃ t, exec (.ethFrameDrop p crc) s = .next t
        ∧ (crc = false →
            t.rf (R.NX_PORTp_ERRS p.val) 15 0 = satTo 0xFFFF (s.rf (R.NX_PORTp_ERRS p.val) 15 0 + 1)
              ∧ t.rf (R.NX_PORTp_ERRS p.val) 31 16 = s.rf (R.NX_PORTp_ERRS p.val) 31 16
              ∧ RegsBut [R.NX_PORTp_ERRS p.val] s t ∧ NetBut s t)
        ∧ (crc = true →
            t.rf (R.NX_PORTp_ERRS p.val) 31 16 = satTo 0xFFFF (s.rf (R.NX_PORTp_ERRS p.val) 31 16 + 1)
              ∧ (t.portRec p.val).crc = (s.portRec p.val).crc.filter (fun b => (s.clk.beat - b).toNat < 250000000) ++ [s.clk.beat]
              ∧ (((t.portRec p.val).crc.length ≤ (s.reg (R.NX_PORTp_CRC_LIMIT p.val)).toNat →
                  t.portRetired p.val = s.portRetired p.val ∧ RegsBut [R.NX_PORTp_ERRS p.val] s t)
                ∧ ((s.reg (R.NX_PORTp_CRC_LIMIT p.val)).toNat < (t.portRec p.val).crc.length → t.portRetired p.val = true)))
        ∧ RegsBut (R.NX_PORTp_ERRS p.val :: R.NX_PORTp_STATE p.val :: R.NX_STATUS :: (List.range 4).map R.NX_PORTp_TX_FRAMES) s t
        ∧ SameBut [.regs, .scCount, .net, .due, .pulses] s t)
  ∧ (∀ (p : Fin 4) (s : State),
      s.coresGo = false →
      exec (.cycleStart p) s = .next s.netBegin)
  ∧ (∀ (p : Fin 4) (k : Nat) (data : List Word) (s : State),
      s.coresGo = true →
      s.qDepth s.partnerResponses = 0 →
      s.dueSessions p.val = [k] →
      s.sessionsOn.filter (fun j => (s.sesPorts j).head? == some p.val) = [k] →
      s.RunsOn k p.val →
      bit (s.reg (R.NX_Ss_XM k)) 15 = false →
      s.qDepth ((s.session k).queues.getD 1 0) = 0 →
      (s.session k).unsent = [] →
      ((s.session k).queues.length = 4 → s.qDepth ((s.session k).queues.getD 3 0) = 0) →
      data = (if (s.session k).lastData = [] then List.replicate (s.rf (R.NX_Ss_SIZE k) 31 16 / 4) 0#32 else (s.session k).lastData) →
      ∃ t w, exec (.cycleStart p) s = .next t
        ∧ t.net.sent = [s.sentFrame p.val none (s.header8 1 0 0xFFFF (w : Nat) ++ beBytes 2 1 ++ [0#8, 0#8]
            ++ (beBytes 2 (s.sesPartner k) ++ beBytes 2 (4 * (s.rf (R.NX_Ss_SIZE k) 31 16 / 4)) ++ beBytes 2 (s.session k).txCyc
              ++ [BitVec.ofNat 8 (1 + 2 * b2n (s.sesState k == 3)), 0#8])
            ++ data.flatMap bytesOfWord)]
        ∧ (t.session k).txCyc = ((s.session k).txCyc + 1) % 65536
        ∧ (t.session k).lastData = data
        ∧ t.rb (R.NX_Ss_STATUS k) 2 = true
        ∧ t.reg (R.NX_PORTp_TX_FRAMES p.val) = s.reg (R.NX_PORTp_TX_FRAMES p.val) + 1
        ∧ RegsBut [R.NX_Ss_STATUS k, R.NX_PORTp_TX_FRAMES p.val] s t
        ∧ NetBut s t
        ∧ SameBut [.regs, .scCount, .net, .due, .pulses, .freeCtr] s t)
  ∧ (∀ (k : Fin 4096) (s : State),
      ((s.sesCyclic k.val = false ∨ s.sesState k.val < 2) → exec (.cycleEndMiss k) s = .next s)
      ∧ (s.sesCyclic k.val = true → 2 ≤ s.sesState k.val → (s.session k.val).accepted = true →
          ∃ t, exec (.cycleEndMiss k) s = .next t
            ∧ t.session k.val = { s.session k.val with accepted := false }
            ∧ (∀ j : Nat, j ≠ k.val → t.session j = s.session j)
            ∧ NetBut s t ∧ SameBut [.net] s t))
  ∧ (∀ (k : Fin 4096) (m : Nat) (s : State),
      s.sesCyclic k.val = true →
      2 ≤ s.sesState k.val →
      (s.session k.val).accepted = false →
      m = min 15 (s.rf (R.NX_Ss_STATE k.val) 27 24 + 1) →
      ∃ t, exec (.cycleEndMiss k) s = .next t
        ∧ t.rf (R.NX_Ss_STATE k.val) 27 24 = m
        ∧ t.rb (R.NX_Ss_STATUS k.val) 1 = true
        ∧ (¬ (s.sesState k.val = 2 ∧ max 1 (s.rf (R.NX_Ss_CFG k.val) 27 24) ≤ m) →
            t.sesState k.val = s.sesState k.val ∧ t.due = s.due ∧ t.net = s.net)
        ∧ (s.sesState k.val = 2 → max 1 (s.rf (R.NX_Ss_CFG k.val) 27 24) ≤ m →
            t.sesState k.val = 3 ∧ t.rb (R.NX_Ss_STATUS k.val) 0 = true
              ∧ t.session k.val = { s.session k.val with unacked := [], unsent := [], inPacket := [], resends := 0 }
              ∧ (∃ src, Instr.faultReport src (Fin.ofNat 8192 (0x1000 + s.sesPartner k.val)) 0x1C#8 (w32 (s.sesPartner k.val)) ∈ t.due))
        ∧ (∀ j : Nat, j ≠ k.val → t.session j = s.session j)
        ∧ RegsBut [R.NX_Ss_STATE k.val, R.NX_Ss_STATUS k.val] s t
        ∧ NetBut s t
        ∧ SameBut [.regs, .scCount, .net, .due, .pulses] s t)
  ∧ (∀ (p : Fin 4) (rtag : Option (BitVec 16)) (body : List Byte) (c : Instr) (s : State),
      (c = .cyclicTelegram p rtag body ∨ c = .acyclicTelegram p rtag body ∨ c = .ackTelegram p rtag body ∨ c = .discoverTelegram p body
        ∨ c = .joinTelegram p rtag body ∨ c = .leaveTelegram p rtag body) →
      s.linkUp p.val = true →
      s.hears body ≠ .takes →
      ∃ t, exec c s = .next t
        ∧ t.reg (R.NX_PORTp_RX_FRAMES p.val) = s.reg (R.NX_PORTp_RX_FRAMES p.val) + 1
        ∧ (s.hears body = .bad → t.rb R.NX_STATUS 1 = true)
        ∧ (s.hears body = .foreign → t.reg R.NX_STATUS = s.reg R.NX_STATUS)
        ∧ t.net = { s.net with sent := [] }
        ∧ RegsBut [R.NX_PORTp_RX_FRAMES p.val, R.NX_STATUS] s t
        ∧ SameBut [.regs, .scCount, .net] s t)
  ∧ (∀ (p : Fin 4) (k cyc q : Nat) (h d : List Byte) (body : List Byte) (s : State),
      s.Hears p.val 1 body →
      h.length = 8 →
      beAt body 8 2 = 1 →
      body.drop 12 = h ++ d →
      d.length = beAt h 2 2 →
      beAt h 0 2 < 4096 →
      cyc = beAt h 4 2 →
      s.sessionOf (beAt h 0 2) = some k →
      s.sesCyclic k = true →
      2 ≤ s.sesState k →
      p.val ∈ s.sesPorts k →
      beAt h 2 2 = s.rf (R.NX_Ss_SIZE k) 15 0 →
      ((s.session k).anyCyc = true → serialAfter 16 cyc (s.rf (R.NX_Ss_STATE k) 15 0) = true) →
      bit (s.reg (R.NX_Ss_XM k)) 31 = false →
      q = (s.session k).queues.getD 0 0 →
      q < 65536 → (s.queue q).gen < 65536 →
      s.qRefusal 10 (s.qHandle q) true = none →
      s.QueueSound q →
      s.qDepth q < s.qCapacity q →
      ∃ t, exec (.cyclicTelegram p none body) s = .next t
        ∧ t.sesState k = 2
        ∧ t.rf (R.NX_Ss_STATE k) 15 0 = cyc
        ∧ t.rf (R.NX_Ss_STATE k) 27 24 = 0
        ∧ t.session k = { s.session k with accepted := true, anyCyc := true }
        ∧ t.entries q = s.entries q ++ [[w32 (at_ cyc 16 + (h.getD 6 0#8).toNat), lo64 s.devTime.toNat]
            ++ (bytesToWords d ++ List.replicate 14 0#32).take 14]
        ∧ (s.sesState k = 3 → t.rb (R.NX_Ss_STATUS k) 5 = true)
        ∧ (∀ j : Nat, j ≠ k → t.session j = s.session j)
        ∧ RegsBut [R.NX_PORTp_RX_FRAMES p.val, R.NX_Ss_STATE k, R.NX_Ss_STATUS k] s t
        ∧ NetBut s t
        ∧ SameBut [.regs, .scCount, .net, .mem, .ecc, .queues, .due, .pulses] s t)
  ∧ (∀ (p : Fin 4) (k : Nat) (body : List Byte) (s : State),
      s.Hears p.val 2 body →
      s.sessionOf (telePartner body) = some k →
      s.sesState k = 2 →
      s.RunsOn k p.val →
      beAt body 6 2 ≠ (s.session k).rxSeq →
      ∃ t, exec (.acyclicTelegram p none body) s = .next t
        ∧ t.net = { s.net with sent := [s.sentFrame p.val none (s.header8 3 0 (s.sesPartner k) (s.session k).rxSeq)] }
        ∧ RegsBut [R.NX_PORTp_RX_FRAMES p.val, R.NX_PORTp_TX_FRAMES p.val] s t
        ∧ SameBut [.regs, .net] s t)
  ∧ (∀ (p : Fin 4) (k : Nat) (body : List Byte) (s : State),
      s.Hears p.val 2 body →
      s.sessionOf (telePartner body) = some k →
      s.sesState k = 2 →
      s.RunsOn k p.val →
      beAt body 6 2 = (s.session k).rxSeq →
      acyclicOk (body.drop 8) = true →
      beAt body 8 4 / 2 ^ 30 ≠ 2 →
      (beAt body 8 4).testBit 28 = false →
      ∃ t, exec (.acyclicTelegram p none body) s = .next t
        ∧ t.session k = { s.session k with
            inPacket := (if (beAt body 8 4).testBit 29 then [] else (s.session k).inPacket) ++ body.drop 12,
            rxSeq := ((s.session k).rxSeq + 1) % 65536 }
        ∧ (∀ j : Nat, j ≠ k → t.session j = s.session j)
        ∧ t.net.sent = [s.sentFrame p.val none (s.header8 3 0 (s.sesPartner k) (((s.session k).rxSeq + 1) % 65536))]
        ∧ RegsBut [R.NX_PORTp_RX_FRAMES p.val, R.NX_PORTp_TX_FRAMES p.val] s t
        ∧ NetBut s t
        ∧ SameBut [.regs, .net] s t)
  ∧ (∀ (p : Fin 4) (k : Nat) (body : List Byte) (s : State),
      s.Hears p.val 3 body →
      s.sessionOf (telePartner body) = some k →
      s.sesState k = 2 →
      p.val ∈ s.sesPorts k →
      (s.session k).unsent = [] →
      ∃ t, exec (.ackTelegram p none body) s = .next t
        ∧ (t.session k).unacked = (s.session k).unacked.filter (fun x => !serialAfter 16 (beAt body 6 2) x.1)
        ∧ ((t.session k).unacked.length < (s.session k).unacked.length → (t.session k).resends = 0)
        ∧ ((t.session k).unacked.length = (s.session k).unacked.length → (t.session k).resends = (s.session k).resends)
        ∧ (∀ j : Nat, j ≠ k → t.session j = s.session j)
        ∧ t.net.sent = []
        ∧ RegsBut [R.NX_PORTp_RX_FRAMES p.val] s t
        ∧ NetBut s t
        ∧ SameBut [.regs, .net] s t)
  ∧ (∀ (k : Fin 4096) (p : Nat) (s : State),
      s.sesState k.val = 2 →
      (s.session k.val).unacked ≠ [] →
      s.RunsOn k.val p →
      ∃ t, exec (.ackTimeout k) s = .next t
        ∧ ((s.session k.val).resends < 8 →
            t.session k.val = { s.session k.val with resends := (s.session k.val).resends + 1 }
              ∧ t.net.sent = (s.session k.val).unacked.map (fun x => s.sentFrame p none x.2)
              ∧ t.sesState k.val = 2 ∧ RegsBut [R.NX_PORTp_TX_FRAMES p] s t)
        ∧ (8 ≤ (s.session k.val).resends →
            t.sesState k.val = 3 ∧ t.rb (R.NX_Ss_STATUS k.val) 0 = true ∧ t.rb (R.NX_Ss_STATUS k.val) 4 = true
              ∧ t.session k.val = { s.session k.val with unacked := [], unsent := [], inPacket := [], resends := 0 }
              ∧ t.net.sent = []
              ∧ RegsBut [R.NX_Ss_STATE k.val, R.NX_Ss_STATUS k.val] s t)
        ∧ (∀ j : Nat, j ≠ k.val → t.session j = s.session j)
        ∧ NetBut s t
        ∧ SameBut [.regs, .scCount, .net, .due, .pulses] s t)
  ∧ (∀ (p : Fin 4) (body : List Byte) (s : State),
      s.Hears p.val 4 body →
      s.portRetired p.val = false →
      ∃ t, exec (.discoverTelegram p body) s = .next t
        ∧ t.net = { s.net with sent := [s.sentFrame p.val none (s.header8 5 0 (beAt body 2 2) 0 ++ s.announce)] }
        ∧ t.reg (R.NX_PORTp_RX_FRAMES p.val) = s.reg (R.NX_PORTp_RX_FRAMES p.val) + 1
        ∧ t.reg (R.NX_PORTp_TX_FRAMES p.val) = s.reg (R.NX_PORTp_TX_FRAMES p.val) + 1
        ∧ RegsBut [R.NX_PORTp_RX_FRAMES p.val, R.NX_PORTp_TX_FRAMES p.val] s t
        ∧ SameBut [.regs, .net] s t)
  ∧ (∀ (p : Fin 4) (k : Nat) (accept : Bool) (body : List Byte) (s : State),
      s.Hears p.val 6 body →
      s.sessionOf (telePartner body) = some k →
      accept = (body.getD 1 0#8).getLsbD 0 →
      (s.sesState k = 1 ∨ s.sesState k = 3 ∧ accept = true) →
      ∃ t, exec (.joinTelegram p none body) s = .next t
        ∧ (accept = true → t.sesState k = 2
            ∧ t.session k = { s.session k with txSeq := 0, rxSeq := 0, unacked := [], resends := 0, inPacket := [] }
            ∧ (s.sesState k = 3 → t.rb (R.NX_Ss_STATUS k) 5 = true))
        ∧ (accept = false → t.sesState k = 1 ∧ t.rb (R.NX_Ss_STATUS k) 6 = true ∧ t.session k = s.session k)
        ∧ (∀ j : Nat, j ≠ k → t.session j = s.session j)
        ∧ t.net.sent = []
        ∧ RegsBut [R.NX_PORTp_RX_FRAMES p.val, R.NX_Ss_STATE k, R.NX_Ss_STATUS k] s t
        ∧ NetBut s t
        ∧ SameBut [.regs, .scCount, .net] s t)
  ∧ (∀ (p : Fin 4) (k : Nat) (body : List Byte) (s : State),
      s.Hears p.val 7 body →
      s.sessionOf (telePartner body) = some k →
      ∃ t, exec (.leaveTelegram p none body) s = .next t
        ∧ t.sesState k = 0
        ∧ t.rb (R.NX_Ss_CFG k) 31 = false
        ∧ t.session k = .reset
        ∧ (∀ e ∈ t.net.tags, e.2.1 ≠ k)
        ∧ (∀ q ∈ (s.session k).queues, (t.queue q).cells = [] ∧ t.entries q = [])
        ∧ (∀ j : Nat, j ≠ k → t.session j = s.session j)
        ∧ SameBut [.regs, .scCount, .net, .queues, .mp] s t)
  ∧ (∀ (k : Fin 4096) (p : Nat) (s : State),
      (s.sesState k.val ≠ 1 → exec (.joinRetry k) s = .next s.netBegin)
      ∧ (s.sesState k.val = 1 → s.RunsOn k.val p → ∃ t, exec (.joinRetry k) s = .next t
        ∧ t.net = { s.net with sent := [s.sentFrame p none (s.header8 6 0 (s.sesPartner k.val) 0 ++ beBytes 4 (s.reg (R.NX_Ss_CYCLE k.val)).toNat
            ++ beBytes 4 (s.reg (R.NX_Ss_SIZE k.val)).toNat ++ beBytes 4 (s.rf (R.NX_Ss_CFG k.val) 19 16))] }
        ∧ RegsBut [R.NX_PORTp_TX_FRAMES p] s t
        ∧ SameBut [.regs, .net] s t))
  ∧ (∀ (x : Scheduled) (g : Nat) (s : State),
      s.schedDue 1 = some x →
      g = 1024 + fld x.arg 9 0 →
      s.owns 10 (pnOwner g) = true →
      (s.ownerSec (pnOwner g) = true → s.domSecure 10 = true) →
      s.rb (pnCtrl g) 31 = true → s.gated g = false → s.standsHigh g = false →
      ∃ t, exec .scheduledFire s = .next t
        ∧ t.firing g = true
        ∧ t.due = s.due ++ [.pennantTransition (Fin.ofNat 2048 g) true true]
        ∧ t.net = { s.net with sched := s.net.sched.erase x }
        ∧ SameBut [.net, .due, .pulses] s t)
  ∧ (∀ (x : Scheduled) (i : Nat) (s : State),
      s.schedDue 2 = some x →
      s.slotOfId (fld x.arg 15 0) = some i →
      s.slotOpener i = 10 →
      s.slotState i = 2 →
      ∃ u t, exec .scheduledHaul s = .next t
        ∧ exec (.haulDown (Fin.ofNat 4 i)) u = .next t
        ∧ u.slotState i = 3
        ∧ u.ep.armedAt.get (fun _ => 0#64) i = s.clk.beat
        ∧ u.ep.asap.get (fun _ => false) i = x.asap
        ∧ u.ep.entries = s.ep.entries
        ∧ u.net = { s.net with sched := s.net.sched.erase x }
        ∧ RegsBut [R.EP_SLOTs_STATE i] s u
        ∧ SameBut [.regs, .ep, .net] s u)
  ∧ (∀ (x : Scheduled) (s : State),
      s.schedDue 3 = some x →
      s.snapBusy = false →
      s.rb R.SN_STATE 28 = true →
      ∃ u t, exec .scheduledSnap s = .next t
        ∧ exec .snapshotCapture u = .next t
        ∧ t.rb R.SN_STATE 30 = true
        ∧ u.rb R.SN_STATE 31 = true
        ∧ u.rb R.SN_STATE 29 = false
        ∧ u.snap.armedAt = s.clk.beat
        ∧ u.snap.rejected = false
        ∧ u.snap.list = s.snap.list
        ∧ u.net = { s.net with sched := s.net.sched.erase x }
        ∧ RegsBut [R.SN_STATE] s u
        ∧ SameBut [.regs, .snap, .net] s u)

/-- The MSI-X vectors, the host link and its reset, and the host's memory TLPs act as R430 to R433 and R440 say; the UART,
SPI, I2C and CAN controllers move their FIFOs, statuses and error counts as R434 to R436 say, and a CAN frame received or
sent goes through the queue the controller names. What a FIFO does when it is full and how the error counts step are the
model's choice (log entry 21). (16_network_partners_host.md) -/
def Obligations.HostAndSerialCommands : Prop :=
  (∀ (v : Fin 64) (s : State),
      (s.rb (R.HP_VECv_CFG v.val) 31 = false → exec (.msixVector v) s = .next s)
      ∧ (s.rb (R.HP_VECv_CFG v.val) 31 = true → ∃ t, exec (.msixVector v) s = .next t
        ∧ (bit (s.msixWord (4 * v.val + 3)) 0 = true ∨ s.hostUp = false →
            t.msixPending v.val = true ∧ t.host.message = s.host.message)
        ∧ (bit (s.msixWord (4 * v.val + 3)) 0 = false → s.hostUp = true →
            t.msixPending v.val = s.msixPending v.val
              ∧ t.host.message = some (pair64 (s.msixWord (4 * v.val + 1)) (s.msixWord (4 * v.val)), s.msixWord (4 * v.val + 2)))
        ∧ (∀ j : Nat, j ≠ v.val → t.msixPending j = s.msixPending j)
        ∧ (∀ i : Nat, t.msixWord i = s.msixWord i)
        ∧ SameBut [.host] s t))
  ∧ (∀ (s : State), ∃ t, exec .hostReset s = .next t
        ∧ t.reg R.HP_OWNER = s.reg R.HP_OWNER
        ∧ (∀ a : Nat, 0x54000000 < a → a < 0x54001000 → t.reg a = regReset a)
        ∧ (∀ a : Nat, a < 0x54000000 ∨ 0x54001000 ≤ a → t.reg a = s.reg a)
        ∧ t.host = .reset
        ∧ SameBut [.regs, .scCount, .domRegs, .host] s t)
  ∧ (∀ (s : State),
      (s.rb R.HP_LINK 31 = false → exec .hostLinkDown s = .next s)
      ∧ (s.rb R.HP_LINK 31 = true → ∃ t, exec .hostLinkDown s = .next t
        ∧ t.reg R.HP_LINK = 0#32
        ∧ t.rb R.HP_STATUS 3 = true
        ∧ RegsBut [R.HP_LINK, R.HP_STATUS] s t
        ∧ SameBut [.regs, .scCount] s t))
  ∧ (∀ (lanes speed : Fin 3) (s : State),
      (s.coresGo = false → exec (.hostLinkUp lanes speed) s = .next s)
      ∧ (s.coresGo = true → ∃ t, exec (.hostLinkUp lanes speed) s = .next t
        ∧ t.hostUp = true
        ∧ t.rf R.HP_LINK 6 4 = 2 ^ lanes.val
        ∧ t.rf R.HP_LINK 1 0 = speed.val + 1
        ∧ RegsBut [R.HP_LINK] s t
        ∧ SameBut [.regs] s t))
  ∧ (∀ (win : Fin 3) (off : Word) (whole : Bool) (n : Fin 1025) (data : List Word) (c : Instr) (s : State),
      (c = .hostMemoryRead win off whole n ∨ c = .hostMemoryWrite win off whole data) →
      (s.hostUp = false → exec c s = .next s)
      ∧ (s.hostUp = true → hostPlace win.val off.toNat = none → ∃ t, exec c s = .next t
        ∧ t.host = { s.host with unsupported := true, completion := [] }
        ∧ SameBut [.host] s t))
  ∧ (∀ (win : Fin 3) (off : Word) (whole : Bool) (n : Fin 1025) (a : Nat) (s : State),
      s.hostUp = true →
      hostPlace win.val off.toNat = some (.device a) →
      TlpMalformed off whole n.val →
      ∃ t, exec (.hostMemoryRead win off whole n) s = .next t
        ∧ t.host = { s.host with unsupported := false, completion := List.replicate n.val 0#32 }
        ∧ t.rb R.HP_STATUS 2 = true
        ∧ t.reg R.HP_ERR_ADDR = w32 a
        ∧ RegsBut [R.HP_STATUS, R.HP_ERR_ADDR] s t
        ∧ SameBut [.regs, .scCount, .host] s t)
  ∧ (∀ (win : Fin 3) (off : Word) (whole : Bool) (data : List Word) (a : Nat) (s : State),
      s.hostUp = true →
      hostPlace win.val off.toNat = some (.device a) →
      TlpMalformed off whole data.length →
      ∃ t, exec (.hostMemoryWrite win off whole data) s = .next t
        ∧ t.host = { s.host with unsupported := false, completion := [] }
        ∧ t.rb R.HP_STATUS 2 = true
        ∧ t.reg R.HP_ERR_ADDR = w32 a
        ∧ RegsBut [R.HP_STATUS, R.HP_ERR_ADDR] s t
        ∧ SameBut [.regs, .scCount, .host] s t)
  ∧ (∀ (off : Word) (n : Fin 1025) (s : State),
      s.hostUp = true →
      off.toNat % 4 = 0 →
      1 ≤ n.val → n.val ≤ 64 →
      off.toNat + 4 * n.val ≤ 0x1000 →
      ∃ t, exec (.hostMemoryRead 2 off true n) s = .next t
        ∧ t.host = { s.host with unsupported := false, completion := (List.range n.val).map (fun i => s.msixRead (off.toNat + 4 * i)) }
        ∧ SameBut [.host] s t)
  ∧ (∀ (win : Fin 3) (off w : Word) (a : Nat) (s u : State),
      s.hostUp = true →
      hostPlace win.val off.toNat = some (.device a) →
      off.toNat % 4 = 0 →
      s.tlpBegun.masterRead .host a 4 = (.data w, u) →
      exec (.hostMemoryRead win off true 1) s = .next { u with host := { u.host with completion := [w] } })
  ∧ (∀ (win : Fin 3) (off w : Word) (a : Nat) (s u : State) (r : BusResult),
      s.hostUp = true →
      hostPlace win.val off.toNat = some (.device a) →
      off.toNat % 4 = 0 →
      s.tlpBegun.masterWrite .host a 4 w = (r, u) →
      exec (.hostMemoryWrite win off true [w]) s = .next u)
  ∧ (∀ (v : Fin 64) (off w : Word) (s : State),
      s.hostUp = true →
      off = w32 (16 * v.val + 12) →
      ∃ t, exec (.hostMemoryWrite 2 off true [w]) s = .next t
        ∧ t.msixWord (4 * v.val + 3) = w &&& 1#32
        ∧ (∀ i : Nat, i ≠ 4 * v.val + 3 → t.msixWord i = s.msixWord i)
        ∧ (bit w 0 = false → s.msixPending v.val = true →
            t.msixPending v.val = false
              ∧ t.host.message = some (pair64 (s.msixWord (4 * v.val + 1)) (s.msixWord (4 * v.val)), s.msixWord (4 * v.val + 2)))
        ∧ ((bit w 0 = true ∨ s.msixPending v.val = false) →
            t.msixPending v.val = s.msixPending v.val ∧ t.host.message = s.host.message)
        ∧ (∀ j : Nat, j ≠ v.val → t.msixPending j = s.msixPending j)
        ∧ SameBut [.host] s t)
  ∧ (∀ (m : Master) (k : Fin 4) (v : Word) (s : State) (r : RegRow),
      s.Writes m (.uart k.val) r (R.UART_DATA k.val) →
      ∃ t, exec (.uartDataWrite m k v) s = .next t
        ∧ t.serialRec k.val = { s.serialRec k.val with
            tx := (s.serialRec k.val).tx ++ (if (s.serialRec k.val).tx.length < 64 then [v &&& 0x1FF#32] else []) }
        ∧ (∀ j : Nat, j ≠ k.val → t.serialRec j = s.serialRec j)
        ∧ SameBut [.serial, .reply] s t)
  ∧ (∀ (k : Fin 4) (d : BitVec 9) (framing parity : Bool) (s : State),
      (s.uartOn k.val = false → exec (.uartReceive k d framing parity) s = .next s)
      ∧ (s.uartOn k.val = true → ∃ t, exec (.uartReceive k d framing parity) s = .next t
        ∧ (∃ w : Word, t.serialRec k.val = { s.serialRec k.val with
              rx := (s.serialRec k.val).rx ++ (if (s.serialRec k.val).rx.length < 64 then [w] else []) }
            ∧ fld w 8 0 = d.toNat % 2 ^ (7 + min 2 (s.rf (R.UART_CTRL k.val) 25 24))
            ∧ bit w 9 = framing
            ∧ bit w 10 = (parity && s.rf (R.UART_CTRL k.val) 23 22 != 0))
        ∧ (64 ≤ (s.serialRec k.val).rx.length → t.rb (R.UART_STATUS k.val) 2 = true ∧ t.due = s.due)
        ∧ (framing = true → t.rb (R.UART_STATUS k.val) 1 = true)
        ∧ (parity = true → s.rf (R.UART_CTRL k.val) 23 22 ≠ 0 → t.rb (R.UART_STATUS k.val) 0 = true)
        ∧ (∀ j : Nat, j ≠ k.val → t.serialRec j = s.serialRec j)
        ∧ RegsBut [R.UART_STATUS k.val] s t
        ∧ SameBut [.regs, .scCount, .serial, .due, .pulses] s t))
  ∧ (∀ (k : Fin 4) (s : State),
      (s.uartOn k.val = false ∨ (s.serialRec k.val).tx = [] → exec (.uartCharacterSent k) s = .next s)
      ∧ (s.uartOn k.val = true → (s.serialRec k.val).tx ≠ [] → ∃ t, exec (.uartCharacterSent k) s = .next t
        ∧ t.serialRec k.val = { s.serialRec k.val with tx := (s.serialRec k.val).tx.tail }
        ∧ (1 < (s.serialRec k.val).tx.length → t.due = s.due)
        ∧ (∀ j : Nat, j ≠ k.val → t.serialRec j = s.serialRec j)
        ∧ SameBut [.serial, .due, .pulses] s t))
  ∧ (∀ (m : Master) (k : Fin 8) (v : Word) (n : Nat) (x : SerialRec) (s : State) (r : RegRow),
      s.Writes m (.spi k.val) r (R.SPI_DATA k.val) →
      x = s.serialRec (4 + k.val) →
      n = (if s.rb (R.SPI_CTRL k.val) 11 = true then x.run
        else if 0 < x.run then x.run + 1 else if s.spiOn k.val = true then x.tx.length + 1 else 0) →
      ∃ t, exec (.spiDataWrite m k v) s = .next t
        ∧ (x.tx.length < 32 → t.serialRec (4 + k.val) = { x with tx := x.tx ++ [v], run := n })
        ∧ (32 ≤ x.tx.length → t.serialRec (4 + k.val) = x)
        ∧ (∀ j : Nat, j ≠ 4 + k.val → t.serialRec j = s.serialRec j)
        ∧ SameBut [.serial, .reply] s t)
  ∧ (∀ (k : Fin 8) (s : State),
      ((s.rb (R.SPI_CTRL k.val) 11 = false ∨ s.spiOn k.val = false ∨ (s.serialRec (4 + k.val)).run ≠ 0) →
        exec (.spiPennantStart k) s = .next s)
      ∧ (s.rb (R.SPI_CTRL k.val) 11 = true → s.spiOn k.val = true → (s.serialRec (4 + k.val)).run = 0 →
        ∃ t, exec (.spiPennantStart k) s = .next t
          ∧ t.serialRec (4 + k.val) = { s.serialRec (4 + k.val) with run := (s.serialRec (4 + k.val)).tx.length }
          ∧ (∀ j : Nat, j ≠ 4 + k.val → t.serialRec j = s.serialRec j)
          ∧ SameBut [.serial] s t))
  ∧ (∀ (k : Fin 8) (rx : Vector Word 32) (x : SerialRec) (s : State),
      x = s.serialRec (4 + k.val) →
      (x.run = 0 → exec (.spiTransferDone k rx) s = .next s)
      ∧ (x.run ≠ 0 → ∃ t, exec (.spiTransferDone k rx) s = .next t
        ∧ t.serialRec (4 + k.val) = { x with
            tx := x.tx.drop x.run
            rx := x.rx ++ (((rx.toList.take x.run).map (fun w => w32 (w.toNat % 2 ^ (s.rf (R.SPI_CTRL k.val) 27 23 + 1)))).take
              (32 - x.rx.length))
            run := 0 }
        ∧ t.rb (R.SPI_STATUS k.val) 0 = true
        ∧ (32 < x.rx.length + min 32 x.run → t.rb (R.SPI_STATUS k.val) 1 = true)
        ∧ (x.rx.length + min 32 x.run ≤ 32 → t.rb (R.SPI_STATUS k.val) 1 = s.rb (R.SPI_STATUS k.val) 1)
        ∧ (∀ j : Nat, j ≠ 4 + k.val → t.serialRec j = s.serialRec j)
        ∧ RegsBut [R.SPI_STATUS k.val] s t
        ∧ SameBut [.regs, .scCount, .serial, .due, .pulses] s t))
  ∧ (∀ (m : Master) (k : Fin 4) (v : Word) (x : SerialRec) (s : State) (r : RegRow),
      s.Writes m (.i2c k.val) r (R.I2C_CMD k.val) →
      x = s.serialRec (12 + k.val) →
      ∃ t, exec (.i2cCmdWrite m k v) s = .next t
        ∧ t.serialRec (12 + k.val)
            = (if s.rb (R.I2C_CTRL k.val) 31 = true ∧ x.cmd = none ∧ s.beatRuns = true then { x with cmd := some v } else x)
        ∧ (∀ j : Nat, j ≠ 12 + k.val → t.serialRec j = s.serialRec j)
        ∧ SameBut [.serial, .reply] s t)
  ∧ (∀ (k outcome : Fin 4) (rx : List Byte) (x : SerialRec) (s : State),
      x = s.serialRec (12 + k.val) →
      (x.cmd = none → exec (.i2cDone k outcome rx) s = .next s)
      ∧ (∀ c : Word, x.cmd = some c → ∃ t, exec (.i2cDone k outcome rx) s = .next t
        ∧ t.serialRec (12 + k.val) = { x with
            cmd := none
            tx := if outcome = 0 ∧ bit c 29 = false then x.tx.drop (fld c 7 0) else x.tx
            rx := if outcome = 0 ∧ bit c 29 = true then x.rx ++ (rx.take (fld c 7 0)).map (fun b => w32 b.toNat) else x.rx }
        ∧ t.rb (R.I2C_STATUS k.val) 0 = true
        ∧ (outcome = 3 → t.rb (R.I2C_STATUS k.val) 1 = true)
        ∧ (outcome = 1 → t.rb (R.I2C_STATUS k.val) 2 = true)
        ∧ (outcome = 2 → t.rb (R.I2C_STATUS k.val) 3 = true)
        ∧ (∀ j : Nat, j ≠ 12 + k.val → t.serialRec j = s.serialRec j)
        ∧ RegsBut [R.I2C_STATUS k.val] s t
        ∧ SameBut [.regs, .scCount, .serial, .due, .pulses] s t))
  ∧ (∀ (k : Fin 4) (f : CanFrame) (good : Bool) (ago : Word) (n : Nat) (s : State),
      n = s.rf (R.CAN_ERR k.val) 23 16 →
      ((s.canOn k.val = false ∨ s.rf (R.CAN_CTRL k.val) 28 27 = 2 ∨ f.fdf = true ∧ s.rb (R.CAN_CTRL k.val) 30 = false) →
        exec (.canFrameReceive k f good ago) s = .next s)
      ∧ (s.canOn k.val = true → s.rf (R.CAN_CTRL k.val) 28 27 ≠ 2 → (f.fdf = true → s.rb (R.CAN_CTRL k.val) 30 = true) →
        good = false → ∃ t, exec (.canFrameReceive k f good ago) s = .next t
          ∧ t.rf (R.CAN_ERR k.val) 23 16 = min 255 (n + 1)
          ∧ t.rf (R.CAN_ERR k.val) 15 8 = s.rf (R.CAN_ERR k.val) 15 8
          ∧ t.rf (R.CAN_ERR k.val) 1 0 = canState (n + 1) (s.rf (R.CAN_ERR k.val) 15 8)
          ∧ t.rb (R.CAN_STATUS k.val) 0 = true
          ∧ RegsBut [R.CAN_ERR k.val, R.CAN_STATUS k.val] s t
          ∧ SameBut [.regs, .scCount, .due, .pulses] s t))
  ∧ (∀ (k : Fin 4) (f : CanFrame) (ago h w : Word) (q : Nat) (s : State),
      s.canOn k.val = true →
      s.rf (R.CAN_CTRL k.val) 28 27 ≠ 2 →
      (f.fdf = true → s.rb (R.CAN_CTRL k.val) 30 = true) →
      w = w32 (f.id.toNat + 2 ^ 29 * b2n f.ide + 2 ^ 30 * b2n f.fdf + 2 ^ 31 * b2n f.brs) →
      (∃ i : Nat, i < 32 ∧ s.canPasses k.val i w = true) →
      canLength f.fdf f.rtr f.dlc.val ≤ 52 →
      h = s.reg (R.CAN_RXQ k.val) →
      q = fld h 15 0 →
      s.qRefusal (s.ownerDom (R.CAN_OWNER k.val)) h true = none →
      s.QueueSound q →
      s.qDepth q < s.qCapacity q →
      ∃ t, exec (.canFrameReceive k f true ago) s = .next t
        ∧ t.entries q = s.entries q ++ [[w, w32 (f.dlc.val + 16 * b2n f.rtr), lo64 s.devTime.toNat - ago]
            ++ wordsOfBytes ((f.data.toList.take (canLength f.fdf f.rtr f.dlc.val)).take 52) 13]
        ∧ t.rf (R.CAN_ERR k.val) 23 16
            = (if 127 < s.rf (R.CAN_ERR k.val) 23 16 then 127 else s.rf (R.CAN_ERR k.val) 23 16 - 1)
        ∧ RegsBut [R.CAN_ERR k.val, R.CAN_STATUS k.val] s t
        ∧ SameBut [.regs, .scCount, .due, .pulses, .mem, .ecc, .queues] s t)
  ∧ (∀ (k : Fin 4) (good : Bool) (s : State),
      (s.canOn k.val = false ∨ s.rf (R.CAN_CTRL k.val) 28 27 = 1
        ∨ (∃ x, s.qRefusal (s.ownerDom (R.CAN_OWNER k.val)) (s.reg (R.CAN_TXQ k.val)) false = some x)
        ∨ s.qDepth (fld (s.reg (R.CAN_TXQ k.val)) 15 0) = 0) →
      exec (.canFrameTransmit k good) s = .next s)
  ∧ (∀ (k : Fin 4) (good : Bool) (h : Word) (q : Nat) (e : List Word) (s : State),
      s.canOn k.val = true →
      s.rf (R.CAN_CTRL k.val) 28 27 = 0 →
      h = s.reg (R.CAN_TXQ k.val) →
      q = fld h 15 0 →
      s.qRefusal (s.ownerDom (R.CAN_OWNER k.val)) h false = none →
      s.qDepth q ≠ 0 →
      s.QueueSound q →
      (∀ i : Fin 16, s.eccMark (cellAddr ((s.queue q).cellAt (s.queue q).head) + 4 * i.val) = .good) →
      e = s.qEntry q 0 →
      canLength (bit (e.getD 0 0#32) 30) (bit (e.getD 1 0#32) 4) (fld (e.getD 1 0#32) 3 0) ≤ 52 →
      ∃ t, exec (.canFrameTransmit k good) s = .next t
        ∧ (good = true → s.entries q = e :: t.entries q
            ∧ t.rf (R.CAN_ERR k.val) 15 8 = s.rf (R.CAN_ERR k.val) 15 8 - 1)
        ∧ (good = false → t.entries q = s.entries q
            ∧ t.rf (R.CAN_ERR k.val) 15 8 = min 255 (s.rf (R.CAN_ERR k.val) 15 8 + 8)
            ∧ t.rf (R.CAN_ERR k.val) 1 0 = canState (s.rf (R.CAN_ERR k.val) 23 16) (s.rf (R.CAN_ERR k.val) 15 8 + 8)
            ∧ t.rb (R.CAN_STATUS k.val) 1 = true)
        ∧ t.rf (R.CAN_ERR k.val) 23 16 = s.rf (R.CAN_ERR k.val) 23 16
        ∧ RegsBut [R.CAN_ERR k.val, R.CAN_STATUS k.val] s t
        ∧ SameBut [.regs, .scCount, .due, .pulses, .queues] s t)

/-- R375, R380, R381, R383, R385, R386: a request that is not completed in time, its deadline, its response and the response that
nobody takes; the load report, the watchdog and the restart of the management processor. R392, R398 to R405, R479 to R481: the
recipe commands, the firmware commands, the boot ROM and Ottar's start-up. The index of the recipe store, the places of the
markers and the order of the slots are the model's readings (log entries 68, 69 and 72). (15_mailboxes_firmware.md,
18_power_thermal_startup.md) -/
def Obligations.ServiceAndFlashCommands : Prop :=
  (∀ (mb : Fin 1024) (s : State) (hd : List Word) (d len : Nat) (newest : BitVec 64),
      d = s.qDepth (2 * mb.val) →
      hd = s.qEntry (2 * mb.val) 0 →
      len = (hd.getD 1 0#32).toNat →
      newest = (s.queue (2 * mb.val)).pushed.getD (d - 1) s.clk.beat →
      ((s.mbServed mb.val = false ∨ d = 0 ∨ s.mbLimit mb.val < len ∨ 1 + (len - 48 + 63) / 64 ≤ d
          ∨ (s.clk.beat - newest).toNat < 250000) → exec (.requestFramingTimeout mb) s = .next s)
      ∧ (s.mbServed mb.val = true → d ≠ 0 → len ≤ s.mbLimit mb.val → d < 1 + (len - 48 + 63) / 64 →
          250000 ≤ (s.clk.beat - newest).toNat →
          ∃ t r, exec (.requestFramingTimeout mb) s = .next t
            ∧ r.mb = mb.val
            ∧ r.tag = fld (hd.getD 0 0#32) 31 16
            ∧ r.code = fld (hd.getD 0 0#32) 15 0
            ∧ r.flags = fld (hd.getD 2 0#32) 15 4
            ∧ r.cls = fld (hd.getD 2 0#32) 3 0
            ∧ r.answer = some ⟨stFraming, responseCells r.tag r.code r.flags r.cls stFraming 0#32 [], none⟩
            ∧ r ∈ t.mp.requests
            ∧ (∀ y ∈ t.mp.requests, y = r ∨ y ∈ s.mp.requests)
            ∧ t.qDepth (2 * mb.val) = 0
            ∧ t.rb R.MB_STATUS 0 = true
            ∧ RegsBut [R.MB_STATUS, R.MB_MBm_STATE mb.val] s t
            ∧ SameBut [.regs, .scCount, .due, .pulses, .queues, .mp, .pow] s t))
  ∧ (∀ (mb : Fin 1024) (s : State) (o : Option MbRequest),
      o = s.mp.requests.find? (fun r => r.mb == mb.val && r.answer.isNone && r.phase == 0 && s.mbExpired r) →
      (o = none → exec (.deadlineExpiry mb) s = .next s)
      ∧ (∀ r, o = some r → ∃ t, exec (.deadlineExpiry mb) s = .next t ∧ Responds r stExpired 0#32 [] s t))
  ∧ (∀ (mb : Fin 1024) (s v : State),
      v = s.mbWaiting mb.val →
      ((s.mbServed mb.val = false ∨ ∀ r ∈ s.mp.requests, r.mb = mb.val → r.answer = none → r.phase = 0) → v = s)
      ∧ (∀ (r : MbRequest) (on : List Nat) (good : Word), s.mbServed mb.val = true →
          s.mp.requests.filter (fun r => r.mb == mb.val && r.answer.isNone && r.phase != 0) = [r] →
          r.quiet = false → r.code = 0x0501 →
          on = maskCores (r.keep.getD 0 0#32) →
          good = coreMask (on.filter (fun i => (s.ac (i / 2) (i % 2)).calOk)) →
          ((∃ i ∈ on, s.rb (R.AC_CAL (i / 2) (i % 2)) 30 = true) → v = s)
          ∧ ((∀ i ∈ on, s.rb (R.AC_CAL (i / 2) (i % 2)) 30 = false) →
              Responds r stOk (s.elapsed r) [good, r.keep.getD 1 0#32 ||| (r.keep.getD 0 0#32 &&& ~~~ good)] s v))
      ∧ (∀ r : MbRequest, s.mbServed mb.val = true →
          s.mp.requests.filter (fun r => r.mb == mb.val && r.answer.isNone && r.phase != 0) = [r] →
          r.quiet = false → r.code = 0x0804 →
          (s.rb R.FC_RESTORE_STATE 31 = true → v = s)
          ∧ (s.rb R.FC_RESTORE_STATE 31 = false →
              Responds r stOk (s.elapsed r) [w32 (s.rf R.FC_RESTORE_STATE 15 0)] s v))
      ∧ ((v.device ≠ .run ∨ v.mbEnabled mb.val = false ∨ (v.mp.serving = false ∧ v.mp.recovery = false) ∨ v.mbNext mb.val = none) →
          exec (.responsePush mb) s = .next v)
      ∧ (∀ (r : MbRequest) (a : MbAnswer) (left : List (List Word)) (u : State),
          v.device = .run → v.mbEnabled mb.val = true → (v.mp.serving = true ∨ v.mp.recovery = true) →
          v.mbNext mb.val = some (r, a) →
          v.pushCells (2 * mb.val + 1) a.cells = (left, u) →
          ∃ t, exec (.responsePush mb) s = .next t
            ∧ (left ≠ [] → t = { u with mp := { u.mp with requests := (u.mp.requests.replace r
                { r with answer := some { a with cells := left, since := some (a.since.getD u.clk.beat) } }) } })
            ∧ (left = [] → u.NoneQuiet →
                Completed r a.status u t ∧ SameBut [.regs, .scCount, .due, .pulses, .mp, .pow] u t)))
  ∧ (∀ (mb : Fin 1024) (s : State),
      ((s.mbNext mb.val = none ∨ ∃ r a, s.mbNext mb.val = some (r, a) ∧ a.since = none) →
        exec (.responseTimeout mb) s = .next s)
      ∧ (∀ (r : MbRequest) (a : MbAnswer) (b : BitVec 64),
          s.mbNext mb.val = some (r, a) → a.since = some b →
          ((s.clk.beat - b).toNat < 25000000 → exec (.responseTimeout mb) s = .next s)
          ∧ (25000000 ≤ (s.clk.beat - b).toNat → s.NoneQuiet → ∃ t, exec (.responseTimeout mb) s = .next t
              ∧ t.mp = { s.mp with requests := s.mp.requests.erase r }
              ∧ t.reg (R.MB_MBm_STATE mb.val) = w32 (3 * 2 ^ 30 + a.status * 2 ^ 16 + r.tag)
              ∧ t.rb R.MB_STATUS 1 = true
              ∧ t.qDepth (2 * mb.val + 1) = 0
              ∧ RegsBut [R.MB_STATUS, R.MB_MBm_STATE mb.val] s t
              ∧ SameBut [.regs, .scCount, .queues, .mp] s t)))
  ∧ (∀ (load : Fin 101) (s : State),
      (s.mp.serving = false → exec (.loadUpdate load) s = .next s)
      ∧ (s.mp.serving = true → ∃ t, exec (.loadUpdate load) s = .next t
        ∧ t.rf R.MB_LOAD 7 0 = load.val
        ∧ t.rf R.MB_LOAD 31 24 = max load.val (s.rf R.MB_LOAD 31 24)
        ∧ RegsBut [R.MB_LOAD] s t
        ∧ SameBut [.regs] s t))
  ∧ (∀ (s : State),
      (s.mp.serving = false → exec .mpWatchdog s = .next s)
      ∧ (s.mp.serving = true → ∃ t, exec .mpWatchdog s = .next t
        ∧ t.mp = { s.mp with serving := false, restarting := true }
        ∧ t.rb R.MB_STATUS 3 = true
        ∧ t.due = s.due ++ [.faultReport 0x108 0x108 0x1D 0#32]
        ∧ RegsBut [R.MB_STATUS] s t
        ∧ SameBut [.regs, .scCount, .due, .mp] s t))
  ∧ (∀ (again : Bool) (s : State) (w : List (BitVec 64)),
      w = s.mp.window.filter (fun b => (s.clk.beat - b).toNat < 250000000) →
      (s.mp.serving = false → exec (.mpLockstepDisagreement again) s = .next s)
      ∧ (s.mp.serving = true → again = false → w.length < 16 → ∃ t, exec (.mpLockstepDisagreement again) s = .next t
        ∧ t.mp = { s.mp with window := w ++ [s.clk.beat] }
        ∧ t.due = s.due ++ [.faultReport 0x108 0x108 0x07 0#32]
        ∧ SameBut [.due, .mp] s t)
      ∧ (s.mp.serving = true → again = true ∨ 16 ≤ w.length → ∃ t, exec (.mpLockstepDisagreement again) s = .next t
        ∧ t.mp = { s.mp with window := [], serving := false, restarting := true }
        ∧ t.rb R.MB_STATUS 3 = true
        ∧ t.due = s.due ++ [.faultReport 0x108 0x108 0x1D 0#32]
        ∧ RegsBut [R.MB_STATUS] s t
        ∧ SameBut [.regs, .scCount, .due, .mp] s t))
  ∧ (∀ (s : State) (b : Bool),
      b = (s.mp.serving || s.mp.recovery || s.pow.booting || s.device != .run || !s.mp.restarting) →
      (b = true → exec .mpRestartComplete s = .next s)
      ∧ (b = false → ∃ t, exec .mpRestartComplete s = .next t
        ∧ t.mp.serving = true
        ∧ t.mp.restarting = false
        ∧ t.mp.stores = []
        ∧ t.mp.update = none
        ∧ (∀ y ∈ t.mp.requests, y.answer ≠ none)
        ∧ (s.mp.loads = [] → SameBut [.regs, .scCount, .due, .pulses, .mp, .pow] s t)))
  ∧ (∀ (mb : Fin 1024) (s : State),
      ((s.storeOf mb.val = none ∨ s.mp.serving = false) → exec (.recipeStoreTimeout mb) s = .next s)
      ∧ (∀ x : RecipeStore, s.storeOf mb.val = some x → s.mp.serving = true →
          ((s.clk.beat - x.last).toNat < 2500000000 → exec (.recipeStoreTimeout mb) s = .next s)
          ∧ (2500000000 ≤ (s.clk.beat - x.last).toNat → ∃ t, exec (.recipeStoreTimeout mb) s = .next t
              ∧ t.mp = { s.mp with stores := s.mp.stores.filter (fun x => x.mb != mb.val) }
              ∧ SameBut [.mp] s t)))
  ∧ (∀ (s u : State),
      u = (s.mp.loads.filter (fun l => l.done)).foldl (fun t l =>
        l.directs.foldl (fun t e => (t.writeAs .mp l.actDomain e.1.toNat 4 e.2).2) t) s →
      (s.mp.serving = false → exec .recipeDirectApply s = .next s)
      ∧ (s.mp.serving = true → exec .recipeDirectApply s
          = .next { u with mp := { u.mp with loads := u.mp.loads.filter (fun l => !l.done && u.slotOfId l.epoch == some l.slot) } }))
  ∧ (∀ (s u v : State) (l : RecipeLoad) (ok : Bool),
      ((s.mp.autostart ≠ 1 ∨ s.mp.serving = false) → exec .autostartSourceHaul s = .next s)
      ∧ (s.mp.autostart = 1 → s.mp.serving = true →
          s.mp.loads.find? (fun l => l.mb == none && !l.done) = some l →
          s.mpHaul 0 l.slot false none = (ok, u) →
          v = ({ u with mp := { u.mp with autostart := (if ok = true then 2 else 3) } }.mpWrites 0 0
            [(R.FB_PNg_CTRL 1023, 0#32), (R.FB_PNg_CFG 1023, 0x80000000#32)]).2 →
          exec .autostartSourceHaul s
            = .next { v with mp := { v.mp with allocated := v.mp.allocated.filter (fun x => x != (2, 0, 1023)) } }))
  ∧ (∀ (s : State),
      ((s.pow.booting = false ∨ s.pow.thermalHold ≠ none ∨ s.device ≠ .run) → exec .bootRom s = .next s)
      ∧ (∀ u : State, s.pow.booting = true → s.pow.thermalHold = none → s.device = .run →
          u = ({ s with pow := { s.pow with booting := false } }.takeCut 0).takeCut 1 →
          (u.mp.cut = [] → u.rb R.PW_BOOT 0 = true ∨ u.rb R.PW_BOOT 3 = true →
            ∃ t, exec .bootRom s = .next t
              ∧ t.mp.recovery = true
              ∧ t.rights 9 = 127
              ∧ t.rb R.PW_BOOT 31 = true
              ∧ t.pow.booting = false
              ∧ t.rf (R.MB_MBm_CFG 9) 19 16 = 9
              ∧ t.rb (R.MB_MBm_CFG 9) 31 = true)
          ∧ (∀ (l : List (Bool × Bool)) (o : Option (Bool × Bool)) (v x : State), u.mp.cut = [] → u.rb R.PW_BOOT 0 = false →
              u.rb R.PW_BOOT 3 = false → u.candidates = (l, v) → v.firstValid l = (o, x) →
              ∃ t, exec .bootRom s = .next t
                ∧ (o = none → t.mp.recovery = true
                    ∧ t.rights 9 = 127
                    ∧ t.rb R.PW_BOOT 31 = true
                    ∧ t.rf (R.MB_MBm_CFG 9) 19 16 = 9
                    ∧ t.rb (R.MB_MBm_CFG 9) 31 = true)
                ∧ (∀ b trial : Bool, o = some (b, trial) → t.mp = { x.mp with slotB := b }
                    ∧ t.rb R.PW_BOOT 31 = false
                    ∧ t.rb R.PW_BOOT 30 = trial
                    ∧ t.rb R.PW_BOOT 29 = b
                    ∧ RegsBut [R.PW_BOOT] x t
                    ∧ SameBut [.regs, .mp] x t))))
  ∧ (∀ (s : State),
      ((s.pow.booting = true ∨ s.mp.recovery = true ∨ s.mp.started = true ∨ s.mp.restarting = true ∨ s.device ≠ .run) →
        exec .ottarStartup s = .next s)
      ∧ (s.pow.booting = false → s.mp.recovery = false → s.mp.started = false → s.mp.restarting = false → s.device = .run →
          ∃ u, u.mp.started = true
            ∧ u.mp.serving = true
            ∧ u.rights 1 = 127 ∧ u.rights 9 = 127 ∧ u.rights 10 = 127
            ∧ (∀ d, d ≠ 1 → d ≠ 9 → d ≠ 10 → u.rights d = 0)
            ∧ exec .ottarStartup s
                = .next (if s.pow.coldWake = true ∨ u.rb R.PW_BOOT 1 = true then u else u.autostartLoad)))
  ∧ (∀ (c : Instr) (mb : Fin 1024) (verify : Bool) (code n b : Nat) (s : State) (r : MbRequest),
      ((c = .rcpBegin mb ∧ code = 0x0401 ∧ n = 4 ∧ b = 1)
        ∨ (c = .rcpData mb verify ∧ code = 0x0402 ∧ 1 ≤ n ∧ b = 1)
        ∨ (c = .rcpCommit mb verify ∧ code = 0x0403 ∧ n = 0 ∧ b = 1)
        ∨ (c = .rcpDelete mb verify ∧ code = 0x0407 ∧ n = 1 ∧ b = 1)
        ∨ (c = .fwBegin mb verify ∧ code = 0x0901 ∧ n = 1 ∧ b = b2n (!s.mp.slotB))
        ∨ (c = .fwData mb verify ∧ code = 0x0902 ∧ 1 ≤ n ∧ b = b2n (!s.mp.slotB))
        ∨ (c = .fwActivate mb verify ∧ code = 0x0904 ∧ n = 1 ∧ b = b2n (!s.mp.slotB))
        ∨ (c = .fwCommit mb verify ∧ code = 0x0905 ∧ n = 0 ∧ b = b2n s.mp.slotB)) →
      s.MbGoes mb code n r →
      (s.flashBusy b = true → exec c s = .next s)
      ∧ (s.flashBusy b = false → s.owns 0 R.FL_OWNER = false → ∃ t, exec c s = .next t ∧ Responds r stDenied 0#32 [] s t))
  ∧ (∀ (mb : Fin 1024) (s q : State) (r : MbRequest) (id len : Nat),
      s.MbGoes mb 0x0401 4 r →
      s.FlashGoes 1 →
      q = (if (s.storeOf mb.val).any (fun x => x.failed) = true then
        { s with mp := { s.mp with stores := s.mp.stores.filter (fun x => x.mb != mb.val) } } else s) →
      id = (r.w 0).toNat →
      len = (r.w 1).toNat →
      ∃ t, exec (.rcpBegin mb) s = .next t
        ∧ (id = 0 ∨ id = 0xFFFFFFFF → Responds r stBadArg 0#32 [] q t)
        ∧ (id ≠ 0 → id ≠ 0xFFFFFFFF → len % 4 ≠ 0 ∨ 0x400000 < len → Responds r stBadArg 4#32 [] q t)
        ∧ (id ≠ 0 → id ≠ 0xFFFFFFFF → len % 4 = 0 → len ≤ 0x400000 → r.w 2 &&& 0x7FFFF0FE#32 ≠ 0#32 →
            Responds r stBadArg 8#32 [] q t)
        ∧ (id ≠ 0 → id ≠ 0xFFFFFFFF → len % 4 = 0 → len ≤ 0x400000 → r.w 2 &&& 0x7FFFF0FE#32 = 0#32 →
            (fld (r.w 2) 11 8 ≠ s.mbClient mb.val → s.hasRight (s.mbClient mb.val) 1 = false → Responds r stDenied 0#32 [] q t)
            ∧ (fld (r.w 2) 11 8 = s.mbClient mb.val ∨ s.hasRight (s.mbClient mb.val) 1 = true → q.storeOf mb.val ≠ none →
                Responds r stWrongState 0#32 [] q t)
            ∧ (∀ (o : Option Nat) (v : State), fld (r.w 2) 11 8 = s.mbClient mb.val ∨ s.hasRight (s.mbClient mb.val) 1 = true →
                q.storeOf mb.val = none →
                q.recordRoom (recordPairs len) = (o, v) → r ∈ v.mp.requests →
                (o = none → Responds r stNoSpace 0#32 [] v t)
                ∧ (∀ (p : Nat) (x : RecipeRecord) (e : Option Nat) (u : State), o = some p →
                    x = ⟨0x11000000 + 8192 * p, recordPairs len, id, v.nextSeq, len, r.w 2, r.w 3⟩ →
                    v.flashRun true [⟨false, x.addr, x.header⟩] = (e, u) → r ∈ u.mp.requests →
                    Responds r stOk (u.elapsed r) [w32 x.addr]
                      { u with mp := { u.mp with
                          stores := u.mp.stores ++ [⟨mb.val, x, 0, [], e.isSome, e.isSome, u.clk.beat⟩] } } t))))
  ∧ (∀ (mb : Fin 1024) (verify : Bool) (s : State) (r : MbRequest) (n : Nat) (new : List Word),
      s.MbGoes mb 0x0402 (n + 1) r →
      s.FlashGoes 1 →
      new = r.payload.drop 1 →
      ∃ t, exec (.rcpData mb verify) s = .next t
        ∧ (s.storeOf mb.val = none → Responds r stWrongState 0#32 [] s t)
        ∧ (∀ x : RecipeStore, s.storeOf mb.val = some x →
            (x.broken = true ∨ (r.w 0).toNat ≠ x.got →
              Responds r stWrongState (w32 x.got) [] (s.setStore { x with failed := true }) t)
            ∧ (x.broken = false → (r.w 0).toNat = x.got → x.rcd.length < x.got + 4 * n →
                Responds r stBadLength 0#32 [] (s.setStore { x with failed := true }) t)
            ∧ (∀ (js : List FlashJob) (left : List Word) (o : Option Nat) (u : State),
                x.broken = false → (r.w 0).toNat = x.got → x.got + 4 * n ≤ x.rcd.length →
                dataJobs (x.rcd.addr + 32) x.got x.tail new (x.got + 4 * n == x.rcd.length) = (js, left) →
                s.flashRun verify js = (o, u) → r ∈ u.mp.requests →
                (o = none → Responds r stOk (u.elapsed r) []
                  (u.setStore { x with got := x.got + 4 * n, tail := left, last := u.clk.beat }) t)
                ∧ (∀ a : Nat, o = some a → Responds r stFlashError (w32 a) []
                    (u.setStore { x with broken := true, failed := true, last := u.clk.beat }) t))))
  ∧ (∀ (mb : Fin 1024) (verify : Bool) (s : State) (r : MbRequest),
      s.MbGoes mb 0x0403 0 r →
      s.FlashGoes 1 →
      ∃ t, exec (.rcpCommit mb verify) s = .next t
        ∧ (s.storeOf mb.val = none → Responds r stWrongState 0#32 [] s t)
        ∧ (∀ x : RecipeStore, s.storeOf mb.val = some x →
            (x.broken = true ∨ x.got ≠ x.rcd.length →
              Responds r stWrongState (w32 x.got) [] (s.setStore { x with failed := true }) t)
            ∧ (∀ (o : Option (List Word)) (v : State), x.broken = false → x.got = x.rcd.length →
                s.flashWords (x.rcd.addr + 32) (x.rcd.length / 4) = (o, v) → r ∈ v.mp.requests →
                (o = none → Responds r stFlashError (w32 (x.rcd.addr + 32)) []
                  (v.setStore { x with broken := true, failed := true }) t)
                ∧ (∀ (body : List Word), o = some body →
                    (∀ ofs : Nat, (bodyEntries body).2 = some ofs →
                      Responds r stBadArg (w32 ofs) [] (v.setStore { x with broken := true, failed := true }) t)
                    ∧ (∀ (e : Option Nat) (u : State), (bodyEntries body).2 = none →
                        v.flashRun verify [commitJob x.rcd body] = (e, u) → r ∈ u.mp.requests →
                        (∀ a : Nat, e = some a → Responds r stFlashError (w32 a) []
                          (u.setStore { x with broken := true, failed := true }) t)
                        ∧ (e = none → Responds r stOk (u.elapsed r) [w32 x.rcd.seq]
                            { u with mp := { u.mp with
                                stores := u.mp.stores.filter (fun x => x.mb != mb.val)
                                records := insertRecord x.rcd u.mp.records } } t))))))
  ∧ (∀ (mb : Fin 1024) (s : State) (r : MbRequest) (mode : Nat),
      s.MbGoes mb 0x0404 5 r →
      mode = fld (r.w 2) 1 0 →
      ∃ t, exec (.rcpLoad mb) s = .next t
        ∧ (mode = 3 → Responds r stBadArg 8#32 [] s t)
        ∧ (mode ≠ 3 → s.namedRecord (r.w 0).toNat (r.w 1).toNat = none → Responds r stNotFound 0#32 [] s t)
        ∧ (∀ (x : RecipeRecord) (o : LoadResult) (u : State), mode ≠ 3 → s.namedRecord (r.w 0).toNat (r.w 1).toNat = some x →
            s.loadRecipe (some mb.val) x (bit (r.w 2) 9) = (o, u) → r ∈ u.mp.requests →
            (∀ st info, o = .failed st info → Responds r st (w32 info) [] u t)
            ∧ (∀ (w : Word) (c : StagingCount), o = .staged w c →
                (mode = 0 → ∃ a b, Responds r stOk (u.elapsed r)
                  [w, w32 c.staged, w32 c.dropped, a, b, u.reg (R.EP_SLOTs_STATE (openedSlot w))]
                  { u with freeCtr := u.freeCtr + 2 } t)
                ∧ (∀ (ok : Bool) (v : State), mode ≠ 0 →
                    u.mpHaul 0 (openedSlot w) (bit (r.w 2) 8) (if mode = 2 then none else some (r.w64 3)) = (ok, v) →
                    (ok = true → Responds r stOk (v.elapsed r)
                      ([w, w32 c.staged, w32 c.dropped] ++ v.haulWords (openedSlot w)) v t)
                    ∧ (ok = false → Responds r stScheduleRefused (w32 (v.rf R.EP_STATUS 22 0)) [w32 (openedId w)] v t)))))
  ∧ (∀ (mb : Fin 1024) (s : State) (r : MbRequest) (mode : Nat),
      s.MbGoes mb 0x0405 4 r →
      mode = fld (r.w 1) 1 0 →
      ∃ t, exec (.rcpHaul mb) s = .next t
        ∧ (s.loadedSlot mb.val (r.w 0).toNat = none → Responds r stNotFound 0#32 [] s t)
        ∧ (∀ i : Nat, s.loadedSlot mb.val (r.w 0).toNat = some i →
            (mode = 0 → ∃ a b, Responds r stOk (s.elapsed r) [a, b, s.reg (R.EP_SLOTs_STATE i)]
              { s with freeCtr := s.freeCtr + 2 } t)
            ∧ (∀ u : State, mode = 3 → u = s.epAbandon 0 i →
                (u.slotState i = 5 → Responds r stOk (s.elapsed r) (u.haulWords i) u t)
                ∧ (u.slotState i ≠ 5 → Responds r stScheduleRefused (w32 (u.rf R.EP_STATUS 22 0)) [] u t))
            ∧ (∀ (ok : Bool) (u : State), mode = 1 ∨ mode = 2 →
                s.mpHaul 0 i (bit (r.w 1) 8) (if mode = 2 then none else some (r.w64 2)) = (ok, u) →
                (ok = true → Responds r stOk (s.elapsed r) (u.haulWords i) u t)
                ∧ (ok = false → Responds r stScheduleRefused (w32 (u.rf R.EP_STATUS 22 0)) [] u t))))
  ∧ (∀ (mb : Fin 1024) (verify : Bool) (s : State) (r : MbRequest),
      s.MbGoes mb 0x0407 1 r →
      s.FlashGoes 1 →
      ∃ t, exec (.rcpDelete mb verify) s = .next t
        ∧ (s.liveRecord (r.w 0).toNat = none → Responds r stNotFound 0#32 [] s t)
        ∧ (∀ (o : Option Nat) (v : State), s.liveRecord (r.w 0).toNat ≠ none → s.recordRoom 1 = (o, v) → r ∈ v.mp.requests →
            (o = none → Responds r stNoSpace 0#32 [] v t)
            ∧ (∀ (p : Nat) (x : RecipeRecord) (e : Option Nat) (u : State), o = some p →
                x = ⟨0x11000000 + 8192 * p, 1, (r.w 0).toNat, v.nextSeq, 0, 0x40000000#32, 0#32⟩ →
                v.flashRun verify [⟨false, x.addr, x.header⟩, commitJob x []] = (e, u) → r ∈ u.mp.requests →
                (∀ a : Nat, e = some a → Responds r stFlashError (w32 a) [] u t)
                ∧ (e = none → Responds r stOk (u.elapsed r) []
                    { u with mp := { u.mp with records := insertRecord x u.mp.records } } t))))
  ∧ (∀ (mb : Fin 1024) (verify : Bool) (s v : State) (r : MbRequest) (len : Nat) (c : Bool),
      s.MbGoes mb 0x0901 1 r →
      s.FlashGoes (b2n (!s.mp.slotB)) →
      len = (r.w 0).toNat →
      (c, v) = (if s.mp.recovery = true then (true, s) else s.marker s.mp.slotB 2) →
      r ∈ v.mp.requests →
      ∃ t, exec (.fwBegin mb verify) s = .next t
        ∧ (len < 256 ∨ 2072576 < len ∨ len % 4 ≠ 0 → Responds r stBadArg 0#32 [] v t)
        ∧ (256 ≤ len → len ≤ 2072576 → len % 4 = 0 → c = false → Responds r stWrongState 0#32 [] v t)
        ∧ (∀ (o : Option Nat) (u : State), 256 ≤ len → len ≤ 2072576 → len % 4 = 0 → c = true →
            v.flashRun verify ((List.range 32).map (fun i => ⟨true, fwBase (!v.mp.slotB) + 0x10000 * i, []⟩)) = (o, u) →
            r ∈ u.mp.requests →
            (∀ a : Nat, o = some a → Responds r stFlashError (w32 a) [] { u with mp := { u.mp with update := none } } t)
            ∧ (o = none → Responds r stOk (u.elapsed r) [w32 (b2n (!v.mp.slotB))]
                { u with mp := { u.mp with
                    update := some ⟨len, 0, [], false⟩
                    cut := u.mp.cut.filter (fun c => !(decide (fwBase (!v.mp.slotB) ≤ c.2.2)
                      && decide (c.2.2 < fwBase (!v.mp.slotB) + 0x200000))) } } t)))
  ∧ (∀ (mb : Fin 1024) (verify : Bool) (s : State) (r : MbRequest) (n : Nat),
      s.MbGoes mb 0x0902 (n + 1) r →
      s.FlashGoes (b2n (!s.mp.slotB)) →
      ∃ t, exec (.fwData mb verify) s = .next t
        ∧ (s.mp.update = none → Responds r stWrongState 0#32 [] s t)
        ∧ (∀ x : FwUpdate, s.mp.update = some x →
            (x.verified = true ∨ (r.w 0).toNat ≠ x.got → Responds r stWrongState (w32 x.got) [] s t)
            ∧ (x.verified = false → (r.w 0).toNat = x.got → x.length < x.got + 4 * n → Responds r stBadLength 0#32 [] s t)
            ∧ (∀ (js : List FlashJob) (left : List Word) (o : Option Nat) (u : State),
                x.verified = false → (r.w 0).toNat = x.got → x.got + 4 * n ≤ x.length →
                dataJobs (fwBase (!s.mp.slotB)) x.got x.tail (r.payload.drop 1) (x.got + 4 * n == x.length) = (js, left) →
                s.flashRun verify js = (o, u) → r ∈ u.mp.requests →
                (o = none → Responds r stOk (u.elapsed r) []
                  { u with mp := { u.mp with update := some { x with got := x.got + 4 * n, tail := left } } } t)
                ∧ (∀ a : Nat, o = some a → Responds r stFlashError (w32 a) [] { u with mp := { u.mp with update := none } } t))))
  ∧ (∀ (mb : Fin 1024) (s : State) (r : MbRequest),
      s.MbGoes mb 0x0903 0 r →
      ∃ t, exec (.fwVerify mb) s = .next t
        ∧ (s.mp.update = none → Responds r stWrongState 0#32 [] s t)
        ∧ (∀ x : FwUpdate, s.mp.update = some x →
            (x.got ≠ x.length → Responds r stWrongState (w32 x.got) [] s t)
            ∧ (∀ (k : ImageCheck) (v : State), x.got = x.length → s.imageCheck (!s.mp.slotB) = (k, v) → r ∈ v.mp.requests →
                (k = .bad → Responds r stBadSignature 0#32 [] v t)
                ∧ (k = .old → Responds r stRollback 0#32 [] v t)
                ∧ (k = .good → x.length < 256 + (v.mword (fwBase (!s.mp.slotB) + 12)).toNat → Responds r stBadSignature 0#32 [] v t)
                ∧ (∀ (a b : Word) (p q : State), k = .good → 256 + (v.mword (fwBase (!s.mp.slotB) + 12)).toNat ≤ x.length →
                    v.fwWord (!s.mp.slotB) 1 = (a, p) → p.fwWord (!s.mp.slotB) 2 = (b, q) → r ∈ q.mp.requests →
                    Responds r stOk (q.elapsed r) [a, b]
                      { q with mp := { q.mp with update := some { x with verified := true } } } t))))
  ∧ (∀ (mb : Fin 1024) (verify : Bool) (s : State) (r : MbRequest),
      s.MbGoes mb 0x0904 1 r →
      s.FlashGoes (b2n (!s.mp.slotB)) →
      ∃ t, exec (.fwActivate mb verify) s = .next t
        ∧ ((∀ x, s.mp.update = some x → x.verified = false) → Responds r stWrongState 0#32 [] s t)
        ∧ (∀ (x : FwUpdate) (o : Option Nat) (u : State), s.mp.update = some x → x.verified = true →
            s.flashRun verify [⟨false, fwMarker (!s.mp.slotB) 0, List.replicate 8 0#32⟩] = (o, u) → r ∈ u.mp.requests →
            (∀ a : Nat, o = some a → Responds r stFlashError (w32 a) [] u t)
            ∧ (o = none → Responds { r with phase := b2n (bit (r.w 0) 0) } stOk (u.elapsed r) []
                { u with mp := { u.mp with
                    update := none
                    requests := u.mp.requests.replace r { r with phase := b2n (bit (r.w 0) 0) } } } t)))
  ∧ (∀ (mb : Fin 1024) (verify : Bool) (s v : State) (r : MbRequest) (m : Nat),
      s.MbGoes mb 0x0905 0 r →
      s.FlashGoes (b2n s.mp.slotB) →
      s.markers s.mp.slotB = (m, v) →
      r ∈ v.mp.requests →
      ∃ t, exec (.fwCommit mb verify) s = .next t
        ∧ (m ≠ 3 → Responds r stWrongState 0#32 [] v t)
        ∧ (∀ (o : Option Nat) (u : State), m = 3 →
            v.flashRun verify [⟨false, fwMarker v.mp.slotB 2, List.replicate 8 0#32⟩] = (o, u) → r ∈ u.mp.requests →
            (∀ a : Nat, o = some a → Responds r stFlashError (w32 a) [] u t)
            ∧ (∀ (w : Word) (p q : State), o = none → u.fwWord v.mp.slotB 2 = (w, p) →
                q = { p with mp := { p.mp with rollback := max p.mp.rollback (min 64 w.toNat) } }.lockSlot v.mp.slotB →
                r ∈ q.mp.requests →
                Responds r stOk (q.elapsed r) [w32 (max p.mp.rollback (min 64 w.toNat))] q t)))
  ∧ (∀ (mb : Fin 1024) (s u v : State) (r : MbRequest) (a b : List Word),
      s.MbGoes mb 0x0906 0 r →
      s.slotWords false = (a, u) →
      u.slotWords true = (b, v) →
      r ∈ v.mp.requests →
      ∃ t, exec (.fwStatus mb) s = .next t
        ∧ Responds r stOk (v.elapsed r) (a ++ b ++ [w32 v.mp.rollback, w32 (b2n v.mp.slotB)]) v t)
end

