-- ==== Sys2Proof/Laws/Store.lean ====
section
/-!
SUPPORT. Laws of sparse data: what a key reads as after a write or a clearing, of every store; and the canonical form,
which every operation keeps.
-/
namespace Sys2Proof.Machine

variable {α : Type} [DecidableEq α]

/-! ### The canonical form -/

theorem Store.wfFrom_mono {d : Nat → α} {m n : Nat} (h : m ≤ n) {s : Store α} (w : Store.wfFrom d n s = true) :
    Store.wfFrom d m s = true := by
  cases s with
  | nil => rfl
  | cons c r =>
    simp only [Store.wfFrom, Bool.and_eq_true, decide_eq_true_eq] at w ⊢
    exact ⟨⟨by omega, w.1.2⟩, w.2⟩

theorem Store.filter_wfFrom {d : Nat → α} {p : Nat × α → Bool} (s : Store α) : ∀ {n : Nat}, Store.wfFrom d n s = true →
    Store.wfFrom d n (s.filter p) = true := by
  induction s with
  | nil => intro n _; rfl
  | cons c r ih =>
    intro n w
    simp only [Store.wfFrom, Bool.and_eq_true, decide_eq_true_eq] at w
    simp only [List.filter_cons]
    split
    · simp only [Store.wfFrom, Bool.and_eq_true, decide_eq_true_eq]
      exact ⟨w.1, ih w.2⟩
    · exact Store.wfFrom_mono (by omega) (ih w.2)

theorem Store.cell_wfFrom {d : Nat → α} {n k : Nat} {v : α} {r : Store α} (h : n ≤ k)
    (w : Store.wfFrom d (k + 1) r = true) : Store.wfFrom d n (Store.cell d k v ++ r) = true := by
  unfold Store.cell
  split
  · exact Store.wfFrom_mono (by omega) w
  · rename_i hv
    simp [Store.wfFrom, h, hv, w]

theorem Store.set_wfFrom {d : Nat → α} {k : Nat} {v : α} (s : Store α) : ∀ {n : Nat}, n ≤ k → Store.wfFrom d n s = true →
    Store.wfFrom d n (Store.set d k v s) = true := by
  induction s with
  | nil =>
    intro n h _
    have := Store.cell_wfFrom (d := d) (v := v) (r := []) h rfl
    simpa [Store.set] using this
  | cons c r ih =>
    obtain ⟨j, u⟩ := c
    intro n h w
    simp only [Store.wfFrom, Bool.and_eq_true, decide_eq_true_eq] at w
    simp only [Store.set]
    split
    · exact ih h (Store.wfFrom_mono (by omega) w.2)
    · split
      · refine Store.cell_wfFrom h ?_
        simp only [Store.wfFrom, Bool.and_eq_true, decide_eq_true_eq]
        exact ⟨⟨by omega, w.1.2⟩, Store.filter_wfFrom r w.2⟩
      · simp only [Store.wfFrom, Bool.and_eq_true, decide_eq_true_eq]
        exact ⟨⟨w.1.1, w.1.2⟩, ih (by omega) w.2⟩

/-- A write keeps the canonical form. -/
theorem Store.set_wf {d : Nat → α} {k : Nat} {v : α} {s : Store α} (w : Store.wf d s = true) :
    Store.wf d (Store.set d k v s) = true := Store.set_wfFrom s (Nat.zero_le k) w

/-- A selection keeps the canonical form. -/
theorem Store.filter_wf {d : Nat → α} {p : Nat × α → Bool} {s : Store α} (w : Store.wf d s = true) :
    Store.wf d (s.filter p) = true := Store.filter_wfFrom s w

/-- Clearing keeps the canonical form. -/
theorem Store.clear_wf {d : Nat → α} {p : Nat → Bool} {s : Store α} (w : Store.wf d s = true) :
    Store.wf d (s.clear p) = true := Store.filter_wf w

/-! ### Reading after writing -/

omit [DecidableEq α] in
@[simp] theorem Store.get_nil (d : Nat → α) (k : Nat) : Store.get d k [] = d k := rfl

omit [DecidableEq α] in
/-- What a key reads as after a clearing. -/
theorem Store.get_clear {d : Nat → α} {p : Nat → Bool} (s : Store α) (i : Nat) :
    Store.get d i (s.clear p) = if p i then d i else Store.get d i s := by
  induction s with
  | nil => simp [Store.clear]
  | cons c r ih =>
    obtain ⟨j, u⟩ := c
    unfold Store.clear at ih ⊢
    by_cases hi : i = j
    · subst hi
      cases hp : p i <;> simp_all [Store.get]
    · cases hp : p j <;> simp_all [Store.get]

theorem Store.get_cell (d : Nat → α) (k i : Nat) (v : α) (r : Store α) (h : Store.get d k r = d k) :
    Store.get d i (Store.cell d k v ++ r) = if i = k then v else Store.get d i r := by
  unfold Store.cell
  by_cases hi : i = k
  · subst hi
    by_cases hv : v = d i <;> simp [hv, h, Store.get]
  · by_cases hv : v = d k <;> simp [hv, hi, Store.get]

/-- What a key reads as after a write, whatever the store. -/
theorem Store.get_set {d : Nat → α} {k : Nat} {v : α} (s : Store α) (i : Nat) :
    Store.get d i (Store.set d k v s) = if i = k then v else Store.get d i s := by
  induction s with
  | nil => simpa [Store.set] using Store.get_cell d k i v [] rfl
  | cons c r ih =>
    obtain ⟨j, u⟩ := c
    simp only [Store.set]
    split
    · rename_i hk
      rw [ih]
      by_cases hi : i = k
      · simp [hi]
      · have : i ≠ j := by omega
        simp [hi, Store.get, this]
    · rename_i hk
      split
      · rw [Store.get_cell]
        · by_cases hi : i = k
          · simp [hi]
          · simp only [Store.get, Store.get_clear, hi, if_false]
            simp [hi]
        · simp [Store.get, Store.get_clear, hk]
      · simp only [Store.get, ih]
        by_cases hi : i = k <;> by_cases hj : i = j <;> simp_all

end Sys2Proof.Machine
end

