-- ==== Sys2Proof/Laws/State.lean ====
section
/-!
SUPPORT. What each named operation of Ops.lean changes: one lemma per field per update, and what registers and memory
read as afterwards.
-/
set_option linter.unusedSimpArgs false
namespace Sys2Proof.Machine
open Sys2Proof

variable (s : State)

/-! ### setReg -/

@[simp] theorem State.setReg_pending (a : Nat) (v : Word) : (s.setReg a v).pending = s.pending := rfl
@[simp] theorem State.setReg_due (a : Nat) (v : Word) : (s.setReg a v).due = s.due := rfl
@[simp] theorem State.setReg_scCount (a : Nat) (v : Word) : (s.setReg a v).scCount = s.scCount := rfl
@[simp] theorem State.setReg_domRegs (a : Nat) (v : Word) : (s.setReg a v).domRegs = s.domRegs := rfl
@[simp] theorem State.setReg_mem (a : Nat) (v : Word) : (s.setReg a v).mem = s.mem := rfl
@[simp] theorem State.setReg_stamps (a : Nat) (v : Word) : (s.setReg a v).stamps = s.stamps := rfl
@[simp] theorem State.setReg_xmNow (a : Nat) (v : Word) : (s.setReg a v).xmNow = s.xmNow := rfl
@[simp] theorem State.setReg_reply (a : Nat) (v : Word) : (s.setReg a v).reply = s.reply := rfl
@[simp] theorem State.setReg_freeCtr (a : Nat) (v : Word) : (s.setReg a v).freeCtr = s.freeCtr := rfl
@[simp] theorem State.setReg_clk (a : Nat) (v : Word) : (s.setReg a v).clk = s.clk := rfl
@[simp] theorem State.setReg_ep (a : Nat) (v : Word) : (s.setReg a v).ep = s.ep := rfl
@[simp] theorem State.setReg_snap (a : Nat) (v : Word) : (s.setReg a v).snap = s.snap := rfl
@[simp] theorem State.setReg_fab (a : Nat) (v : Word) : (s.setReg a v).fab = s.fab := rfl
@[simp] theorem State.setReg_pulses (a : Nat) (v : Word) : (s.setReg a v).pulses = s.pulses := rfl
@[simp] theorem State.setReg_links (a : Nat) (v : Word) : (s.setReg a v).links = s.links := rfl
@[simp] theorem State.setReg_paths (a : Nat) (v : Word) : (s.setReg a v).paths = s.paths := rfl
@[simp] theorem State.setReg_islands (a : Nat) (v : Word) : (s.setReg a v).islands = s.islands := rfl
@[simp] theorem State.setReg_device (a : Nat) (v : Word) : (s.setReg a v).device = s.device := rfl
@[simp] theorem State.setReg_faults (a : Nat) (v : Word) : (s.setReg a v).faults = s.faults := rfl
@[simp] theorem State.setReg_tus (a : Nat) (v : Word) : (s.setReg a v).tus = s.tus := rfl
@[simp] theorem State.setReg_acs (a : Nat) (v : Word) : (s.setReg a v).acs = s.acs := rfl
@[simp] theorem State.setReg_cps (a : Nat) (v : Word) : (s.setReg a v).cps = s.cps := rfl
@[simp] theorem State.setReg_eqs (a : Nat) (v : Word) : (s.setReg a v).eqs = s.eqs := rfl
@[simp] theorem State.setReg_mks (a : Nat) (v : Word) : (s.setReg a v).mks = s.mks := rfl
@[simp] theorem State.setReg_safeN (a : Nat) (v : Word) : (s.setReg a v).safeN = s.safeN := rfl
@[simp] theorem State.setReg_sds (a : Nat) (v : Word) : (s.setReg a v).sds = s.sds := rfl
@[simp] theorem State.setReg_les (a : Nat) (v : Word) : (s.setReg a v).les = s.les := rfl
@[simp] theorem State.setReg_pow (a : Nat) (v : Word) : (s.setReg a v).pow = s.pow := rfl
@[simp] theorem State.setReg_cores (a : Nat) (v : Word) : (s.setReg a v).cores = s.cores := rfl
@[simp] theorem State.setReg_ecc (a : Nat) (v : Word) : (s.setReg a v).ecc = s.ecc := rfl
@[simp] theorem State.setReg_macros (a : Nat) (v : Word) : (s.setReg a v).macros = s.macros := rfl
@[simp] theorem State.setReg_flash (a : Nat) (v : Word) : (s.setReg a v).flash = s.flash := rfl
@[simp] theorem State.setReg_flashOps (a : Nat) (v : Word) : (s.setReg a v).flashOps = s.flashOps := rfl
@[simp] theorem State.setReg_dmas (a : Nat) (v : Word) : (s.setReg a v).dmas = s.dmas := rfl
@[simp] theorem State.setReg_queues (a : Nat) (v : Word) : (s.setReg a v).queues = s.queues := rfl
@[simp] theorem State.setReg_mp (a : Nat) (v : Word) : (s.setReg a v).mp = s.mp := rfl
@[simp] theorem State.setReg_net (a : Nat) (v : Word) : (s.setReg a v).net = s.net := rfl
@[simp] theorem State.setReg_host (a : Nat) (v : Word) : (s.setReg a v).host = s.host := rfl
@[simp] theorem State.setReg_serial (a : Nat) (v : Word) : (s.setReg a v).serial = s.serial := rfl
@[simp] theorem State.setReg_tap (a : Nat) (v : Word) : (s.setReg a v).tap = s.tap := rfl

@[simp] theorem State.setReg_byte (a : Nat) (v : Word) (b : Nat) : (s.setReg a v).byte b = s.byte b := by simp [State.byte]

/-! ### setDomReg -/

@[simp] theorem State.setDomReg_pending (a d : Nat) (v : Word) : (s.setDomReg a d v).pending = s.pending := rfl
@[simp] theorem State.setDomReg_due (a d : Nat) (v : Word) : (s.setDomReg a d v).due = s.due := rfl
@[simp] theorem State.setDomReg_regs (a d : Nat) (v : Word) : (s.setDomReg a d v).regs = s.regs := rfl
@[simp] theorem State.setDomReg_scCount (a d : Nat) (v : Word) : (s.setDomReg a d v).scCount = s.scCount := rfl
@[simp] theorem State.setDomReg_mem (a d : Nat) (v : Word) : (s.setDomReg a d v).mem = s.mem := rfl
@[simp] theorem State.setDomReg_stamps (a d : Nat) (v : Word) : (s.setDomReg a d v).stamps = s.stamps := rfl
@[simp] theorem State.setDomReg_xmNow (a d : Nat) (v : Word) : (s.setDomReg a d v).xmNow = s.xmNow := rfl
@[simp] theorem State.setDomReg_reply (a d : Nat) (v : Word) : (s.setDomReg a d v).reply = s.reply := rfl
@[simp] theorem State.setDomReg_freeCtr (a d : Nat) (v : Word) : (s.setDomReg a d v).freeCtr = s.freeCtr := rfl
@[simp] theorem State.setDomReg_clk (a d : Nat) (v : Word) : (s.setDomReg a d v).clk = s.clk := rfl
@[simp] theorem State.setDomReg_ep (a d : Nat) (v : Word) : (s.setDomReg a d v).ep = s.ep := rfl
@[simp] theorem State.setDomReg_snap (a d : Nat) (v : Word) : (s.setDomReg a d v).snap = s.snap := rfl
@[simp] theorem State.setDomReg_fab (a d : Nat) (v : Word) : (s.setDomReg a d v).fab = s.fab := rfl
@[simp] theorem State.setDomReg_pulses (a d : Nat) (v : Word) : (s.setDomReg a d v).pulses = s.pulses := rfl
@[simp] theorem State.setDomReg_links (a d : Nat) (v : Word) : (s.setDomReg a d v).links = s.links := rfl
@[simp] theorem State.setDomReg_paths (a d : Nat) (v : Word) : (s.setDomReg a d v).paths = s.paths := rfl
@[simp] theorem State.setDomReg_islands (a d : Nat) (v : Word) : (s.setDomReg a d v).islands = s.islands := rfl
@[simp] theorem State.setDomReg_device (a d : Nat) (v : Word) : (s.setDomReg a d v).device = s.device := rfl
@[simp] theorem State.setDomReg_faults (a d : Nat) (v : Word) : (s.setDomReg a d v).faults = s.faults := rfl
@[simp] theorem State.setDomReg_tus (a d : Nat) (v : Word) : (s.setDomReg a d v).tus = s.tus := rfl
@[simp] theorem State.setDomReg_acs (a d : Nat) (v : Word) : (s.setDomReg a d v).acs = s.acs := rfl
@[simp] theorem State.setDomReg_cps (a d : Nat) (v : Word) : (s.setDomReg a d v).cps = s.cps := rfl
@[simp] theorem State.setDomReg_eqs (a d : Nat) (v : Word) : (s.setDomReg a d v).eqs = s.eqs := rfl
@[simp] theorem State.setDomReg_mks (a d : Nat) (v : Word) : (s.setDomReg a d v).mks = s.mks := rfl
@[simp] theorem State.setDomReg_safeN (a d : Nat) (v : Word) : (s.setDomReg a d v).safeN = s.safeN := rfl
@[simp] theorem State.setDomReg_sds (a d : Nat) (v : Word) : (s.setDomReg a d v).sds = s.sds := rfl
@[simp] theorem State.setDomReg_les (a d : Nat) (v : Word) : (s.setDomReg a d v).les = s.les := rfl
@[simp] theorem State.setDomReg_pow (a d : Nat) (v : Word) : (s.setDomReg a d v).pow = s.pow := rfl
@[simp] theorem State.setDomReg_cores (a d : Nat) (v : Word) : (s.setDomReg a d v).cores = s.cores := rfl
@[simp] theorem State.setDomReg_ecc (a d : Nat) (v : Word) : (s.setDomReg a d v).ecc = s.ecc := rfl
@[simp] theorem State.setDomReg_macros (a d : Nat) (v : Word) : (s.setDomReg a d v).macros = s.macros := rfl
@[simp] theorem State.setDomReg_flash (a d : Nat) (v : Word) : (s.setDomReg a d v).flash = s.flash := rfl
@[simp] theorem State.setDomReg_flashOps (a d : Nat) (v : Word) : (s.setDomReg a d v).flashOps = s.flashOps := rfl
@[simp] theorem State.setDomReg_dmas (a d : Nat) (v : Word) : (s.setDomReg a d v).dmas = s.dmas := rfl
@[simp] theorem State.setDomReg_queues (a d : Nat) (v : Word) : (s.setDomReg a d v).queues = s.queues := rfl
@[simp] theorem State.setDomReg_mp (a d : Nat) (v : Word) : (s.setDomReg a d v).mp = s.mp := rfl
@[simp] theorem State.setDomReg_net (a d : Nat) (v : Word) : (s.setDomReg a d v).net = s.net := rfl
@[simp] theorem State.setDomReg_host (a d : Nat) (v : Word) : (s.setDomReg a d v).host = s.host := rfl
@[simp] theorem State.setDomReg_serial (a d : Nat) (v : Word) : (s.setDomReg a d v).serial = s.serial := rfl
@[simp] theorem State.setDomReg_tap (a d : Nat) (v : Word) : (s.setDomReg a d v).tap = s.tap := rfl

@[simp] theorem State.setDomReg_reg (a d : Nat) (v : Word) (b : Nat) : (s.setDomReg a d v).reg b = s.reg b := rfl

@[simp] theorem State.setDomReg_byte (a d : Nat) (v : Word) (b : Nat) : (s.setDomReg a d v).byte b = s.byte b := by simp [State.byte]

/-! ### enqueue -/

@[simp] theorem State.enqueue_pending (l : List Instr) : (s.enqueue l).pending = s.pending := rfl
@[simp] theorem State.enqueue_regs (l : List Instr) : (s.enqueue l).regs = s.regs := rfl
@[simp] theorem State.enqueue_scCount (l : List Instr) : (s.enqueue l).scCount = s.scCount := rfl
@[simp] theorem State.enqueue_domRegs (l : List Instr) : (s.enqueue l).domRegs = s.domRegs := rfl
@[simp] theorem State.enqueue_mem (l : List Instr) : (s.enqueue l).mem = s.mem := rfl
@[simp] theorem State.enqueue_stamps (l : List Instr) : (s.enqueue l).stamps = s.stamps := rfl
@[simp] theorem State.enqueue_xmNow (l : List Instr) : (s.enqueue l).xmNow = s.xmNow := rfl
@[simp] theorem State.enqueue_reply (l : List Instr) : (s.enqueue l).reply = s.reply := rfl
@[simp] theorem State.enqueue_freeCtr (l : List Instr) : (s.enqueue l).freeCtr = s.freeCtr := rfl
@[simp] theorem State.enqueue_clk (l : List Instr) : (s.enqueue l).clk = s.clk := rfl
@[simp] theorem State.enqueue_ep (l : List Instr) : (s.enqueue l).ep = s.ep := rfl
@[simp] theorem State.enqueue_snap (l : List Instr) : (s.enqueue l).snap = s.snap := rfl
@[simp] theorem State.enqueue_fab (l : List Instr) : (s.enqueue l).fab = s.fab := rfl
@[simp] theorem State.enqueue_pulses (l : List Instr) : (s.enqueue l).pulses = s.pulses := rfl
@[simp] theorem State.enqueue_links (l : List Instr) : (s.enqueue l).links = s.links := rfl
@[simp] theorem State.enqueue_paths (l : List Instr) : (s.enqueue l).paths = s.paths := rfl
@[simp] theorem State.enqueue_islands (l : List Instr) : (s.enqueue l).islands = s.islands := rfl
@[simp] theorem State.enqueue_device (l : List Instr) : (s.enqueue l).device = s.device := rfl
@[simp] theorem State.enqueue_faults (l : List Instr) : (s.enqueue l).faults = s.faults := rfl
@[simp] theorem State.enqueue_tus (l : List Instr) : (s.enqueue l).tus = s.tus := rfl
@[simp] theorem State.enqueue_acs (l : List Instr) : (s.enqueue l).acs = s.acs := rfl
@[simp] theorem State.enqueue_cps (l : List Instr) : (s.enqueue l).cps = s.cps := rfl
@[simp] theorem State.enqueue_eqs (l : List Instr) : (s.enqueue l).eqs = s.eqs := rfl
@[simp] theorem State.enqueue_mks (l : List Instr) : (s.enqueue l).mks = s.mks := rfl
@[simp] theorem State.enqueue_safeN (l : List Instr) : (s.enqueue l).safeN = s.safeN := rfl
@[simp] theorem State.enqueue_sds (l : List Instr) : (s.enqueue l).sds = s.sds := rfl
@[simp] theorem State.enqueue_les (l : List Instr) : (s.enqueue l).les = s.les := rfl
@[simp] theorem State.enqueue_pow (l : List Instr) : (s.enqueue l).pow = s.pow := rfl
@[simp] theorem State.enqueue_cores (l : List Instr) : (s.enqueue l).cores = s.cores := rfl
@[simp] theorem State.enqueue_ecc (l : List Instr) : (s.enqueue l).ecc = s.ecc := rfl
@[simp] theorem State.enqueue_macros (l : List Instr) : (s.enqueue l).macros = s.macros := rfl
@[simp] theorem State.enqueue_flash (l : List Instr) : (s.enqueue l).flash = s.flash := rfl
@[simp] theorem State.enqueue_flashOps (l : List Instr) : (s.enqueue l).flashOps = s.flashOps := rfl
@[simp] theorem State.enqueue_dmas (l : List Instr) : (s.enqueue l).dmas = s.dmas := rfl
@[simp] theorem State.enqueue_queues (l : List Instr) : (s.enqueue l).queues = s.queues := rfl
@[simp] theorem State.enqueue_mp (l : List Instr) : (s.enqueue l).mp = s.mp := rfl
@[simp] theorem State.enqueue_net (l : List Instr) : (s.enqueue l).net = s.net := rfl
@[simp] theorem State.enqueue_host (l : List Instr) : (s.enqueue l).host = s.host := rfl
@[simp] theorem State.enqueue_serial (l : List Instr) : (s.enqueue l).serial = s.serial := rfl
@[simp] theorem State.enqueue_tap (l : List Instr) : (s.enqueue l).tap = s.tap := rfl

@[simp] theorem State.enqueue_reg (l : List Instr) (b : Nat) : (s.enqueue l).reg b = s.reg b := rfl

@[simp] theorem State.enqueue_byte (l : List Instr) (b : Nat) : (s.enqueue l).byte b = s.byte b := by simp [State.byte]

/-! ### setByte -/

@[simp] theorem State.setByte_pending (a : Nat) (b : Byte) : (s.setByte a b).pending = s.pending := rfl
@[simp] theorem State.setByte_due (a : Nat) (b : Byte) : (s.setByte a b).due = s.due := rfl
@[simp] theorem State.setByte_regs (a : Nat) (b : Byte) : (s.setByte a b).regs = s.regs := rfl
@[simp] theorem State.setByte_scCount (a : Nat) (b : Byte) : (s.setByte a b).scCount = s.scCount := rfl
@[simp] theorem State.setByte_domRegs (a : Nat) (b : Byte) : (s.setByte a b).domRegs = s.domRegs := rfl
@[simp] theorem State.setByte_stamps (a : Nat) (b : Byte) : (s.setByte a b).stamps = s.stamps := rfl
@[simp] theorem State.setByte_xmNow (a : Nat) (b : Byte) : (s.setByte a b).xmNow = s.xmNow := rfl
@[simp] theorem State.setByte_reply (a : Nat) (b : Byte) : (s.setByte a b).reply = s.reply := rfl
@[simp] theorem State.setByte_freeCtr (a : Nat) (b : Byte) : (s.setByte a b).freeCtr = s.freeCtr := rfl
@[simp] theorem State.setByte_clk (a : Nat) (b : Byte) : (s.setByte a b).clk = s.clk := rfl
@[simp] theorem State.setByte_ep (a : Nat) (b : Byte) : (s.setByte a b).ep = s.ep := rfl
@[simp] theorem State.setByte_snap (a : Nat) (b : Byte) : (s.setByte a b).snap = s.snap := rfl
@[simp] theorem State.setByte_fab (a : Nat) (b : Byte) : (s.setByte a b).fab = s.fab := rfl
@[simp] theorem State.setByte_pulses (a : Nat) (b : Byte) : (s.setByte a b).pulses = s.pulses := rfl
@[simp] theorem State.setByte_links (a : Nat) (b : Byte) : (s.setByte a b).links = s.links := rfl
@[simp] theorem State.setByte_paths (a : Nat) (b : Byte) : (s.setByte a b).paths = s.paths := rfl
@[simp] theorem State.setByte_islands (a : Nat) (b : Byte) : (s.setByte a b).islands = s.islands := rfl
@[simp] theorem State.setByte_device (a : Nat) (b : Byte) : (s.setByte a b).device = s.device := rfl
@[simp] theorem State.setByte_faults (a : Nat) (b : Byte) : (s.setByte a b).faults = s.faults := rfl
@[simp] theorem State.setByte_tus (a : Nat) (b : Byte) : (s.setByte a b).tus = s.tus := rfl
@[simp] theorem State.setByte_acs (a : Nat) (b : Byte) : (s.setByte a b).acs = s.acs := rfl
@[simp] theorem State.setByte_cps (a : Nat) (b : Byte) : (s.setByte a b).cps = s.cps := rfl
@[simp] theorem State.setByte_eqs (a : Nat) (b : Byte) : (s.setByte a b).eqs = s.eqs := rfl
@[simp] theorem State.setByte_mks (a : Nat) (b : Byte) : (s.setByte a b).mks = s.mks := rfl
@[simp] theorem State.setByte_safeN (a : Nat) (b : Byte) : (s.setByte a b).safeN = s.safeN := rfl
@[simp] theorem State.setByte_sds (a : Nat) (b : Byte) : (s.setByte a b).sds = s.sds := rfl
@[simp] theorem State.setByte_les (a : Nat) (b : Byte) : (s.setByte a b).les = s.les := rfl
@[simp] theorem State.setByte_pow (a : Nat) (b : Byte) : (s.setByte a b).pow = s.pow := rfl
@[simp] theorem State.setByte_cores (a : Nat) (b : Byte) : (s.setByte a b).cores = s.cores := rfl
@[simp] theorem State.setByte_ecc (a : Nat) (b : Byte) : (s.setByte a b).ecc = s.ecc := rfl
@[simp] theorem State.setByte_macros (a : Nat) (b : Byte) : (s.setByte a b).macros = s.macros := rfl
@[simp] theorem State.setByte_flash (a : Nat) (b : Byte) : (s.setByte a b).flash = s.flash := rfl
@[simp] theorem State.setByte_flashOps (a : Nat) (b : Byte) : (s.setByte a b).flashOps = s.flashOps := rfl
@[simp] theorem State.setByte_dmas (a : Nat) (b : Byte) : (s.setByte a b).dmas = s.dmas := rfl
@[simp] theorem State.setByte_queues (a : Nat) (b : Byte) : (s.setByte a b).queues = s.queues := rfl
@[simp] theorem State.setByte_mp (a : Nat) (b : Byte) : (s.setByte a b).mp = s.mp := rfl
@[simp] theorem State.setByte_net (a : Nat) (b : Byte) : (s.setByte a b).net = s.net := rfl
@[simp] theorem State.setByte_host (a : Nat) (b : Byte) : (s.setByte a b).host = s.host := rfl
@[simp] theorem State.setByte_serial (a : Nat) (b : Byte) : (s.setByte a b).serial = s.serial := rfl
@[simp] theorem State.setByte_tap (a : Nat) (b : Byte) : (s.setByte a b).tap = s.tap := rfl

@[simp] theorem State.setByte_reg (a : Nat) (b : Byte) (b : Nat) : (s.setByte a b).reg b = s.reg b := rfl

/-! ### answer -/

@[simp] theorem State.answer_pending (m : Master) (r : BusResult) : (s.answer m r).pending = s.pending := rfl
@[simp] theorem State.answer_due (m : Master) (r : BusResult) : (s.answer m r).due = s.due := rfl
@[simp] theorem State.answer_regs (m : Master) (r : BusResult) : (s.answer m r).regs = s.regs := rfl
@[simp] theorem State.answer_scCount (m : Master) (r : BusResult) : (s.answer m r).scCount = s.scCount := rfl
@[simp] theorem State.answer_domRegs (m : Master) (r : BusResult) : (s.answer m r).domRegs = s.domRegs := rfl
@[simp] theorem State.answer_mem (m : Master) (r : BusResult) : (s.answer m r).mem = s.mem := rfl
@[simp] theorem State.answer_stamps (m : Master) (r : BusResult) : (s.answer m r).stamps = s.stamps := rfl
@[simp] theorem State.answer_xmNow (m : Master) (r : BusResult) : (s.answer m r).xmNow = s.xmNow := rfl
@[simp] theorem State.answer_freeCtr (m : Master) (r : BusResult) : (s.answer m r).freeCtr = s.freeCtr := rfl
@[simp] theorem State.answer_clk (m : Master) (r : BusResult) : (s.answer m r).clk = s.clk := rfl
@[simp] theorem State.answer_ep (m : Master) (r : BusResult) : (s.answer m r).ep = s.ep := rfl
@[simp] theorem State.answer_snap (m : Master) (r : BusResult) : (s.answer m r).snap = s.snap := rfl
@[simp] theorem State.answer_fab (m : Master) (r : BusResult) : (s.answer m r).fab = s.fab := rfl
@[simp] theorem State.answer_pulses (m : Master) (r : BusResult) : (s.answer m r).pulses = s.pulses := rfl
@[simp] theorem State.answer_links (m : Master) (r : BusResult) : (s.answer m r).links = s.links := rfl
@[simp] theorem State.answer_paths (m : Master) (r : BusResult) : (s.answer m r).paths = s.paths := rfl
@[simp] theorem State.answer_islands (m : Master) (r : BusResult) : (s.answer m r).islands = s.islands := rfl
@[simp] theorem State.answer_device (m : Master) (r : BusResult) : (s.answer m r).device = s.device := rfl
@[simp] theorem State.answer_faults (m : Master) (r : BusResult) : (s.answer m r).faults = s.faults := rfl
@[simp] theorem State.answer_tus (m : Master) (r : BusResult) : (s.answer m r).tus = s.tus := rfl
@[simp] theorem State.answer_acs (m : Master) (r : BusResult) : (s.answer m r).acs = s.acs := rfl
@[simp] theorem State.answer_cps (m : Master) (r : BusResult) : (s.answer m r).cps = s.cps := rfl
@[simp] theorem State.answer_eqs (m : Master) (r : BusResult) : (s.answer m r).eqs = s.eqs := rfl
@[simp] theorem State.answer_mks (m : Master) (r : BusResult) : (s.answer m r).mks = s.mks := rfl
@[simp] theorem State.answer_safeN (m : Master) (r : BusResult) : (s.answer m r).safeN = s.safeN := rfl
@[simp] theorem State.answer_sds (m : Master) (r : BusResult) : (s.answer m r).sds = s.sds := rfl
@[simp] theorem State.answer_les (m : Master) (r : BusResult) : (s.answer m r).les = s.les := rfl
@[simp] theorem State.answer_pow (m : Master) (r : BusResult) : (s.answer m r).pow = s.pow := rfl
@[simp] theorem State.answer_cores (m : Master) (r : BusResult) : (s.answer m r).cores = s.cores := rfl
@[simp] theorem State.answer_ecc (m : Master) (r : BusResult) : (s.answer m r).ecc = s.ecc := rfl
@[simp] theorem State.answer_macros (m : Master) (r : BusResult) : (s.answer m r).macros = s.macros := rfl
@[simp] theorem State.answer_flash (m : Master) (r : BusResult) : (s.answer m r).flash = s.flash := rfl
@[simp] theorem State.answer_flashOps (m : Master) (r : BusResult) : (s.answer m r).flashOps = s.flashOps := rfl
@[simp] theorem State.answer_dmas (m : Master) (r : BusResult) : (s.answer m r).dmas = s.dmas := rfl
@[simp] theorem State.answer_queues (m : Master) (r : BusResult) : (s.answer m r).queues = s.queues := rfl
@[simp] theorem State.answer_mp (m : Master) (r : BusResult) : (s.answer m r).mp = s.mp := rfl
@[simp] theorem State.answer_net (m : Master) (r : BusResult) : (s.answer m r).net = s.net := rfl
@[simp] theorem State.answer_host (m : Master) (r : BusResult) : (s.answer m r).host = s.host := rfl
@[simp] theorem State.answer_serial (m : Master) (r : BusResult) : (s.answer m r).serial = s.serial := rfl
@[simp] theorem State.answer_tap (m : Master) (r : BusResult) : (s.answer m r).tap = s.tap := rfl

@[simp] theorem State.answer_reg (m : Master) (r : BusResult) (b : Nat) : (s.answer m r).reg b = s.reg b := rfl

@[simp] theorem State.answer_byte (m : Master) (r : BusResult) (b : Nat) : (s.answer m r).byte b = s.byte b := by simp [State.byte]

/-! ### request -/

@[simp] theorem State.request_pending (d : Nat) : (s.request d).pending = s.pending := rfl
@[simp] theorem State.request_due (d : Nat) : (s.request d).due = s.due := rfl
@[simp] theorem State.request_regs (d : Nat) : (s.request d).regs = s.regs := rfl
@[simp] theorem State.request_scCount (d : Nat) : (s.request d).scCount = s.scCount := rfl
@[simp] theorem State.request_domRegs (d : Nat) : (s.request d).domRegs = s.domRegs := rfl
@[simp] theorem State.request_mem (d : Nat) : (s.request d).mem = s.mem := rfl
@[simp] theorem State.request_stamps (d : Nat) : (s.request d).stamps = s.stamps := rfl
@[simp] theorem State.request_xmNow (d : Nat) : (s.request d).xmNow = s.xmNow := rfl
@[simp] theorem State.request_reply (d : Nat) : (s.request d).reply = s.reply := rfl
@[simp] theorem State.request_freeCtr (d : Nat) : (s.request d).freeCtr = s.freeCtr := rfl
@[simp] theorem State.request_ep (d : Nat) : (s.request d).ep = s.ep := rfl
@[simp] theorem State.request_snap (d : Nat) : (s.request d).snap = s.snap := rfl
@[simp] theorem State.request_fab (d : Nat) : (s.request d).fab = s.fab := rfl
@[simp] theorem State.request_pulses (d : Nat) : (s.request d).pulses = s.pulses := rfl
@[simp] theorem State.request_links (d : Nat) : (s.request d).links = s.links := rfl
@[simp] theorem State.request_paths (d : Nat) : (s.request d).paths = s.paths := rfl
@[simp] theorem State.request_islands (d : Nat) : (s.request d).islands = s.islands := rfl
@[simp] theorem State.request_device (d : Nat) : (s.request d).device = s.device := rfl
@[simp] theorem State.request_faults (d : Nat) : (s.request d).faults = s.faults := rfl
@[simp] theorem State.request_tus (d : Nat) : (s.request d).tus = s.tus := rfl
@[simp] theorem State.request_acs (d : Nat) : (s.request d).acs = s.acs := rfl
@[simp] theorem State.request_cps (d : Nat) : (s.request d).cps = s.cps := rfl
@[simp] theorem State.request_eqs (d : Nat) : (s.request d).eqs = s.eqs := rfl
@[simp] theorem State.request_mks (d : Nat) : (s.request d).mks = s.mks := rfl
@[simp] theorem State.request_safeN (d : Nat) : (s.request d).safeN = s.safeN := rfl
@[simp] theorem State.request_sds (d : Nat) : (s.request d).sds = s.sds := rfl
@[simp] theorem State.request_les (d : Nat) : (s.request d).les = s.les := rfl
@[simp] theorem State.request_pow (d : Nat) : (s.request d).pow = s.pow := rfl
@[simp] theorem State.request_cores (d : Nat) : (s.request d).cores = s.cores := rfl
@[simp] theorem State.request_ecc (d : Nat) : (s.request d).ecc = s.ecc := rfl
@[simp] theorem State.request_macros (d : Nat) : (s.request d).macros = s.macros := rfl
@[simp] theorem State.request_flash (d : Nat) : (s.request d).flash = s.flash := rfl
@[simp] theorem State.request_flashOps (d : Nat) : (s.request d).flashOps = s.flashOps := rfl
@[simp] theorem State.request_dmas (d : Nat) : (s.request d).dmas = s.dmas := rfl
@[simp] theorem State.request_queues (d : Nat) : (s.request d).queues = s.queues := rfl
@[simp] theorem State.request_mp (d : Nat) : (s.request d).mp = s.mp := rfl
@[simp] theorem State.request_net (d : Nat) : (s.request d).net = s.net := rfl
@[simp] theorem State.request_host (d : Nat) : (s.request d).host = s.host := rfl
@[simp] theorem State.request_serial (d : Nat) : (s.request d).serial = s.serial := rfl
@[simp] theorem State.request_tap (d : Nat) : (s.request d).tap = s.tap := rfl

@[simp] theorem State.request_reg (d : Nat) (b : Nat) : (s.request d).reg b = s.reg b := rfl

@[simp] theorem State.request_byte (d : Nat) (b : Nat) : (s.request d).byte b = s.byte b := by simp [State.byte]

/-! ### setRf -/

@[simp] theorem State.setRf_pending (a hi lo v : Nat) : (s.setRf a hi lo v).pending = s.pending := rfl
@[simp] theorem State.setRf_due (a hi lo v : Nat) : (s.setRf a hi lo v).due = s.due := rfl
@[simp] theorem State.setRf_scCount (a hi lo v : Nat) : (s.setRf a hi lo v).scCount = s.scCount := rfl
@[simp] theorem State.setRf_domRegs (a hi lo v : Nat) : (s.setRf a hi lo v).domRegs = s.domRegs := rfl
@[simp] theorem State.setRf_mem (a hi lo v : Nat) : (s.setRf a hi lo v).mem = s.mem := rfl
@[simp] theorem State.setRf_stamps (a hi lo v : Nat) : (s.setRf a hi lo v).stamps = s.stamps := rfl
@[simp] theorem State.setRf_xmNow (a hi lo v : Nat) : (s.setRf a hi lo v).xmNow = s.xmNow := rfl
@[simp] theorem State.setRf_reply (a hi lo v : Nat) : (s.setRf a hi lo v).reply = s.reply := rfl
@[simp] theorem State.setRf_freeCtr (a hi lo v : Nat) : (s.setRf a hi lo v).freeCtr = s.freeCtr := rfl
@[simp] theorem State.setRf_clk (a hi lo v : Nat) : (s.setRf a hi lo v).clk = s.clk := rfl
@[simp] theorem State.setRf_ep (a hi lo v : Nat) : (s.setRf a hi lo v).ep = s.ep := rfl
@[simp] theorem State.setRf_snap (a hi lo v : Nat) : (s.setRf a hi lo v).snap = s.snap := rfl
@[simp] theorem State.setRf_fab (a hi lo v : Nat) : (s.setRf a hi lo v).fab = s.fab := rfl
@[simp] theorem State.setRf_pulses (a hi lo v : Nat) : (s.setRf a hi lo v).pulses = s.pulses := rfl
@[simp] theorem State.setRf_links (a hi lo v : Nat) : (s.setRf a hi lo v).links = s.links := rfl
@[simp] theorem State.setRf_paths (a hi lo v : Nat) : (s.setRf a hi lo v).paths = s.paths := rfl
@[simp] theorem State.setRf_islands (a hi lo v : Nat) : (s.setRf a hi lo v).islands = s.islands := rfl
@[simp] theorem State.setRf_device (a hi lo v : Nat) : (s.setRf a hi lo v).device = s.device := rfl
@[simp] theorem State.setRf_faults (a hi lo v : Nat) : (s.setRf a hi lo v).faults = s.faults := rfl
@[simp] theorem State.setRf_tus (a hi lo v : Nat) : (s.setRf a hi lo v).tus = s.tus := rfl
@[simp] theorem State.setRf_acs (a hi lo v : Nat) : (s.setRf a hi lo v).acs = s.acs := rfl
@[simp] theorem State.setRf_cps (a hi lo v : Nat) : (s.setRf a hi lo v).cps = s.cps := rfl
@[simp] theorem State.setRf_eqs (a hi lo v : Nat) : (s.setRf a hi lo v).eqs = s.eqs := rfl
@[simp] theorem State.setRf_mks (a hi lo v : Nat) : (s.setRf a hi lo v).mks = s.mks := rfl
@[simp] theorem State.setRf_safeN (a hi lo v : Nat) : (s.setRf a hi lo v).safeN = s.safeN := rfl
@[simp] theorem State.setRf_sds (a hi lo v : Nat) : (s.setRf a hi lo v).sds = s.sds := rfl
@[simp] theorem State.setRf_les (a hi lo v : Nat) : (s.setRf a hi lo v).les = s.les := rfl
@[simp] theorem State.setRf_pow (a hi lo v : Nat) : (s.setRf a hi lo v).pow = s.pow := rfl
@[simp] theorem State.setRf_cores (a hi lo v : Nat) : (s.setRf a hi lo v).cores = s.cores := rfl
@[simp] theorem State.setRf_ecc (a hi lo v : Nat) : (s.setRf a hi lo v).ecc = s.ecc := rfl
@[simp] theorem State.setRf_macros (a hi lo v : Nat) : (s.setRf a hi lo v).macros = s.macros := rfl
@[simp] theorem State.setRf_flash (a hi lo v : Nat) : (s.setRf a hi lo v).flash = s.flash := rfl
@[simp] theorem State.setRf_flashOps (a hi lo v : Nat) : (s.setRf a hi lo v).flashOps = s.flashOps := rfl
@[simp] theorem State.setRf_dmas (a hi lo v : Nat) : (s.setRf a hi lo v).dmas = s.dmas := rfl
@[simp] theorem State.setRf_queues (a hi lo v : Nat) : (s.setRf a hi lo v).queues = s.queues := rfl
@[simp] theorem State.setRf_mp (a hi lo v : Nat) : (s.setRf a hi lo v).mp = s.mp := rfl
@[simp] theorem State.setRf_net (a hi lo v : Nat) : (s.setRf a hi lo v).net = s.net := rfl
@[simp] theorem State.setRf_host (a hi lo v : Nat) : (s.setRf a hi lo v).host = s.host := rfl
@[simp] theorem State.setRf_serial (a hi lo v : Nat) : (s.setRf a hi lo v).serial = s.serial := rfl
@[simp] theorem State.setRf_tap (a hi lo v : Nat) : (s.setRf a hi lo v).tap = s.tap := rfl

@[simp] theorem State.setRf_byte (a hi lo v : Nat) (b : Nat) : (s.setRf a hi lo v).byte b = s.byte b := by simp [State.byte]

/-! ### setRb -/

@[simp] theorem State.setRb_pending (a i : Nat) (b : Bool) : (s.setRb a i b).pending = s.pending := rfl
@[simp] theorem State.setRb_due (a i : Nat) (b : Bool) : (s.setRb a i b).due = s.due := rfl
@[simp] theorem State.setRb_scCount (a i : Nat) (b : Bool) : (s.setRb a i b).scCount = s.scCount := rfl
@[simp] theorem State.setRb_domRegs (a i : Nat) (b : Bool) : (s.setRb a i b).domRegs = s.domRegs := rfl
@[simp] theorem State.setRb_mem (a i : Nat) (b : Bool) : (s.setRb a i b).mem = s.mem := rfl
@[simp] theorem State.setRb_stamps (a i : Nat) (b : Bool) : (s.setRb a i b).stamps = s.stamps := rfl
@[simp] theorem State.setRb_xmNow (a i : Nat) (b : Bool) : (s.setRb a i b).xmNow = s.xmNow := rfl
@[simp] theorem State.setRb_reply (a i : Nat) (b : Bool) : (s.setRb a i b).reply = s.reply := rfl
@[simp] theorem State.setRb_freeCtr (a i : Nat) (b : Bool) : (s.setRb a i b).freeCtr = s.freeCtr := rfl
@[simp] theorem State.setRb_clk (a i : Nat) (b : Bool) : (s.setRb a i b).clk = s.clk := rfl
@[simp] theorem State.setRb_ep (a i : Nat) (b : Bool) : (s.setRb a i b).ep = s.ep := rfl
@[simp] theorem State.setRb_snap (a i : Nat) (b : Bool) : (s.setRb a i b).snap = s.snap := rfl
@[simp] theorem State.setRb_fab (a i : Nat) (b : Bool) : (s.setRb a i b).fab = s.fab := rfl
@[simp] theorem State.setRb_pulses (a i : Nat) (b : Bool) : (s.setRb a i b).pulses = s.pulses := rfl
@[simp] theorem State.setRb_links (a i : Nat) (b : Bool) : (s.setRb a i b).links = s.links := rfl
@[simp] theorem State.setRb_paths (a i : Nat) (b : Bool) : (s.setRb a i b).paths = s.paths := rfl
@[simp] theorem State.setRb_islands (a i : Nat) (b : Bool) : (s.setRb a i b).islands = s.islands := rfl
@[simp] theorem State.setRb_device (a i : Nat) (b : Bool) : (s.setRb a i b).device = s.device := rfl
@[simp] theorem State.setRb_faults (a i : Nat) (b : Bool) : (s.setRb a i b).faults = s.faults := rfl
@[simp] theorem State.setRb_tus (a i : Nat) (b : Bool) : (s.setRb a i b).tus = s.tus := rfl
@[simp] theorem State.setRb_acs (a i : Nat) (b : Bool) : (s.setRb a i b).acs = s.acs := rfl
@[simp] theorem State.setRb_cps (a i : Nat) (b : Bool) : (s.setRb a i b).cps = s.cps := rfl
@[simp] theorem State.setRb_eqs (a i : Nat) (b : Bool) : (s.setRb a i b).eqs = s.eqs := rfl
@[simp] theorem State.setRb_mks (a i : Nat) (b : Bool) : (s.setRb a i b).mks = s.mks := rfl
@[simp] theorem State.setRb_safeN (a i : Nat) (b : Bool) : (s.setRb a i b).safeN = s.safeN := rfl
@[simp] theorem State.setRb_sds (a i : Nat) (b : Bool) : (s.setRb a i b).sds = s.sds := rfl
@[simp] theorem State.setRb_les (a i : Nat) (b : Bool) : (s.setRb a i b).les = s.les := rfl
@[simp] theorem State.setRb_pow (a i : Nat) (b : Bool) : (s.setRb a i b).pow = s.pow := rfl
@[simp] theorem State.setRb_cores (a i : Nat) (b : Bool) : (s.setRb a i b).cores = s.cores := rfl
@[simp] theorem State.setRb_ecc (a i : Nat) (b : Bool) : (s.setRb a i b).ecc = s.ecc := rfl
@[simp] theorem State.setRb_macros (a i : Nat) (b : Bool) : (s.setRb a i b).macros = s.macros := rfl
@[simp] theorem State.setRb_flash (a i : Nat) (b : Bool) : (s.setRb a i b).flash = s.flash := rfl
@[simp] theorem State.setRb_flashOps (a i : Nat) (b : Bool) : (s.setRb a i b).flashOps = s.flashOps := rfl
@[simp] theorem State.setRb_dmas (a i : Nat) (b : Bool) : (s.setRb a i b).dmas = s.dmas := rfl
@[simp] theorem State.setRb_queues (a i : Nat) (b : Bool) : (s.setRb a i b).queues = s.queues := rfl
@[simp] theorem State.setRb_mp (a i : Nat) (b : Bool) : (s.setRb a i b).mp = s.mp := rfl
@[simp] theorem State.setRb_net (a i : Nat) (b : Bool) : (s.setRb a i b).net = s.net := rfl
@[simp] theorem State.setRb_host (a i : Nat) (b : Bool) : (s.setRb a i b).host = s.host := rfl
@[simp] theorem State.setRb_serial (a i : Nat) (b : Bool) : (s.setRb a i b).serial = s.serial := rfl
@[simp] theorem State.setRb_tap (a i : Nat) (b : Bool) : (s.setRb a i b).tap = s.tap := rfl

@[simp] theorem State.setRb_byte (a i : Nat) (b : Bool) (b : Nat) : (s.setRb a i b).byte b = s.byte b := by simp [State.byte]

/-! ### report -/

@[simp] theorem State.report_pending (x r c : Nat) (d : Word) : (s.report x r c d).pending = s.pending := rfl
@[simp] theorem State.report_regs (x r c : Nat) (d : Word) : (s.report x r c d).regs = s.regs := rfl
@[simp] theorem State.report_scCount (x r c : Nat) (d : Word) : (s.report x r c d).scCount = s.scCount := rfl
@[simp] theorem State.report_domRegs (x r c : Nat) (d : Word) : (s.report x r c d).domRegs = s.domRegs := rfl
@[simp] theorem State.report_mem (x r c : Nat) (d : Word) : (s.report x r c d).mem = s.mem := rfl
@[simp] theorem State.report_stamps (x r c : Nat) (d : Word) : (s.report x r c d).stamps = s.stamps := rfl
@[simp] theorem State.report_xmNow (x r c : Nat) (d : Word) : (s.report x r c d).xmNow = s.xmNow := rfl
@[simp] theorem State.report_reply (x r c : Nat) (d : Word) : (s.report x r c d).reply = s.reply := rfl
@[simp] theorem State.report_freeCtr (x r c : Nat) (d : Word) : (s.report x r c d).freeCtr = s.freeCtr := rfl
@[simp] theorem State.report_clk (x r c : Nat) (d : Word) : (s.report x r c d).clk = s.clk := rfl
@[simp] theorem State.report_ep (x r c : Nat) (d : Word) : (s.report x r c d).ep = s.ep := rfl
@[simp] theorem State.report_snap (x r c : Nat) (d : Word) : (s.report x r c d).snap = s.snap := rfl
@[simp] theorem State.report_fab (x r c : Nat) (d : Word) : (s.report x r c d).fab = s.fab := rfl
@[simp] theorem State.report_pulses (x r c : Nat) (d : Word) : (s.report x r c d).pulses = s.pulses := rfl
@[simp] theorem State.report_links (x r c : Nat) (d : Word) : (s.report x r c d).links = s.links := rfl
@[simp] theorem State.report_paths (x r c : Nat) (d : Word) : (s.report x r c d).paths = s.paths := rfl
@[simp] theorem State.report_islands (x r c : Nat) (d : Word) : (s.report x r c d).islands = s.islands := rfl
@[simp] theorem State.report_device (x r c : Nat) (d : Word) : (s.report x r c d).device = s.device := rfl
@[simp] theorem State.report_faults (x r c : Nat) (d : Word) : (s.report x r c d).faults = s.faults := rfl
@[simp] theorem State.report_tus (x r c : Nat) (d : Word) : (s.report x r c d).tus = s.tus := rfl
@[simp] theorem State.report_acs (x r c : Nat) (d : Word) : (s.report x r c d).acs = s.acs := rfl
@[simp] theorem State.report_cps (x r c : Nat) (d : Word) : (s.report x r c d).cps = s.cps := rfl
@[simp] theorem State.report_eqs (x r c : Nat) (d : Word) : (s.report x r c d).eqs = s.eqs := rfl
@[simp] theorem State.report_mks (x r c : Nat) (d : Word) : (s.report x r c d).mks = s.mks := rfl
@[simp] theorem State.report_safeN (x r c : Nat) (d : Word) : (s.report x r c d).safeN = s.safeN := rfl
@[simp] theorem State.report_sds (x r c : Nat) (d : Word) : (s.report x r c d).sds = s.sds := rfl
@[simp] theorem State.report_les (x r c : Nat) (d : Word) : (s.report x r c d).les = s.les := rfl
@[simp] theorem State.report_pow (x r c : Nat) (d : Word) : (s.report x r c d).pow = s.pow := rfl
@[simp] theorem State.report_cores (x r c : Nat) (d : Word) : (s.report x r c d).cores = s.cores := rfl
@[simp] theorem State.report_ecc (x r c : Nat) (d : Word) : (s.report x r c d).ecc = s.ecc := rfl
@[simp] theorem State.report_macros (x r c : Nat) (d : Word) : (s.report x r c d).macros = s.macros := rfl
@[simp] theorem State.report_flash (x r c : Nat) (d : Word) : (s.report x r c d).flash = s.flash := rfl
@[simp] theorem State.report_flashOps (x r c : Nat) (d : Word) : (s.report x r c d).flashOps = s.flashOps := rfl
@[simp] theorem State.report_dmas (x r c : Nat) (d : Word) : (s.report x r c d).dmas = s.dmas := rfl
@[simp] theorem State.report_queues (x r c : Nat) (d : Word) : (s.report x r c d).queues = s.queues := rfl
@[simp] theorem State.report_mp (x r c : Nat) (d : Word) : (s.report x r c d).mp = s.mp := rfl
@[simp] theorem State.report_net (x r c : Nat) (d : Word) : (s.report x r c d).net = s.net := rfl
@[simp] theorem State.report_host (x r c : Nat) (d : Word) : (s.report x r c d).host = s.host := rfl
@[simp] theorem State.report_serial (x r c : Nat) (d : Word) : (s.report x r c d).serial = s.serial := rfl
@[simp] theorem State.report_tap (x r c : Nat) (d : Word) : (s.report x r c d).tap = s.tap := rfl

@[simp] theorem State.report_reg (x r c : Nat) (d : Word) (b : Nat) : (s.report x r c d).reg b = s.reg b := rfl

@[simp] theorem State.report_byte (x r c : Nat) (d : Word) (b : Nat) : (s.report x r c d).byte b = s.byte b := by simp [State.byte]

/-! ### flagW -/

@[simp] theorem State.flagW_pending (a : Nat) (w : Word) : (s.flagW a w).pending = s.pending := by unfold State.flagW; split <;> rfl
@[simp] theorem State.flagW_due (a : Nat) (w : Word) : (s.flagW a w).due = s.due := by unfold State.flagW; split <;> rfl
@[simp] theorem State.flagW_domRegs (a : Nat) (w : Word) : (s.flagW a w).domRegs = s.domRegs := by unfold State.flagW; split <;> rfl
@[simp] theorem State.flagW_mem (a : Nat) (w : Word) : (s.flagW a w).mem = s.mem := by unfold State.flagW; split <;> rfl
@[simp] theorem State.flagW_stamps (a : Nat) (w : Word) : (s.flagW a w).stamps = s.stamps := by unfold State.flagW; split <;> rfl
@[simp] theorem State.flagW_xmNow (a : Nat) (w : Word) : (s.flagW a w).xmNow = s.xmNow := by unfold State.flagW; split <;> rfl
@[simp] theorem State.flagW_reply (a : Nat) (w : Word) : (s.flagW a w).reply = s.reply := by unfold State.flagW; split <;> rfl
@[simp] theorem State.flagW_freeCtr (a : Nat) (w : Word) : (s.flagW a w).freeCtr = s.freeCtr := by unfold State.flagW; split <;> rfl
@[simp] theorem State.flagW_clk (a : Nat) (w : Word) : (s.flagW a w).clk = s.clk := by unfold State.flagW; split <;> rfl
@[simp] theorem State.flagW_ep (a : Nat) (w : Word) : (s.flagW a w).ep = s.ep := by unfold State.flagW; split <;> rfl
@[simp] theorem State.flagW_snap (a : Nat) (w : Word) : (s.flagW a w).snap = s.snap := by unfold State.flagW; split <;> rfl
@[simp] theorem State.flagW_fab (a : Nat) (w : Word) : (s.flagW a w).fab = s.fab := by unfold State.flagW; split <;> rfl
@[simp] theorem State.flagW_pulses (a : Nat) (w : Word) : (s.flagW a w).pulses = s.pulses := by unfold State.flagW; split <;> rfl
@[simp] theorem State.flagW_links (a : Nat) (w : Word) : (s.flagW a w).links = s.links := by unfold State.flagW; split <;> rfl
@[simp] theorem State.flagW_paths (a : Nat) (w : Word) : (s.flagW a w).paths = s.paths := by unfold State.flagW; split <;> rfl
@[simp] theorem State.flagW_islands (a : Nat) (w : Word) : (s.flagW a w).islands = s.islands := by unfold State.flagW; split <;> rfl
@[simp] theorem State.flagW_device (a : Nat) (w : Word) : (s.flagW a w).device = s.device := by unfold State.flagW; split <;> rfl
@[simp] theorem State.flagW_faults (a : Nat) (w : Word) : (s.flagW a w).faults = s.faults := by unfold State.flagW; split <;> rfl
@[simp] theorem State.flagW_tus (a : Nat) (w : Word) : (s.flagW a w).tus = s.tus := by unfold State.flagW; split <;> rfl
@[simp] theorem State.flagW_acs (a : Nat) (w : Word) : (s.flagW a w).acs = s.acs := by unfold State.flagW; split <;> rfl
@[simp] theorem State.flagW_cps (a : Nat) (w : Word) : (s.flagW a w).cps = s.cps := by unfold State.flagW; split <;> rfl
@[simp] theorem State.flagW_eqs (a : Nat) (w : Word) : (s.flagW a w).eqs = s.eqs := by unfold State.flagW; split <;> rfl
@[simp] theorem State.flagW_mks (a : Nat) (w : Word) : (s.flagW a w).mks = s.mks := by unfold State.flagW; split <;> rfl
@[simp] theorem State.flagW_safeN (a : Nat) (w : Word) : (s.flagW a w).safeN = s.safeN := by unfold State.flagW; split <;> rfl
@[simp] theorem State.flagW_sds (a : Nat) (w : Word) : (s.flagW a w).sds = s.sds := by unfold State.flagW; split <;> rfl
@[simp] theorem State.flagW_les (a : Nat) (w : Word) : (s.flagW a w).les = s.les := by unfold State.flagW; split <;> rfl
@[simp] theorem State.flagW_pow (a : Nat) (w : Word) : (s.flagW a w).pow = s.pow := by unfold State.flagW; split <;> rfl
@[simp] theorem State.flagW_cores (a : Nat) (w : Word) : (s.flagW a w).cores = s.cores := by unfold State.flagW; split <;> rfl
@[simp] theorem State.flagW_ecc (a : Nat) (w : Word) : (s.flagW a w).ecc = s.ecc := by unfold State.flagW; split <;> rfl
@[simp] theorem State.flagW_macros (a : Nat) (w : Word) : (s.flagW a w).macros = s.macros := by unfold State.flagW; split <;> rfl
@[simp] theorem State.flagW_flash (a : Nat) (w : Word) : (s.flagW a w).flash = s.flash := by unfold State.flagW; split <;> rfl
@[simp] theorem State.flagW_flashOps (a : Nat) (w : Word) : (s.flagW a w).flashOps = s.flashOps := by unfold State.flagW; split <;> rfl
@[simp] theorem State.flagW_dmas (a : Nat) (w : Word) : (s.flagW a w).dmas = s.dmas := by unfold State.flagW; split <;> rfl
@[simp] theorem State.flagW_queues (a : Nat) (w : Word) : (s.flagW a w).queues = s.queues := by unfold State.flagW; split <;> rfl
@[simp] theorem State.flagW_mp (a : Nat) (w : Word) : (s.flagW a w).mp = s.mp := by unfold State.flagW; split <;> rfl
@[simp] theorem State.flagW_net (a : Nat) (w : Word) : (s.flagW a w).net = s.net := by unfold State.flagW; split <;> rfl
@[simp] theorem State.flagW_host (a : Nat) (w : Word) : (s.flagW a w).host = s.host := by unfold State.flagW; split <;> rfl
@[simp] theorem State.flagW_serial (a : Nat) (w : Word) : (s.flagW a w).serial = s.serial := by unfold State.flagW; split <;> rfl
@[simp] theorem State.flagW_tap (a : Nat) (w : Word) : (s.flagW a w).tap = s.tap := by unfold State.flagW; split <;> rfl

@[simp] theorem State.flagW_byte (a : Nat) (w : Word) (b : Nat) : (s.flagW a w).byte b = s.byte b := by simp [State.byte]

/-! ### flag -/

@[simp] theorem State.flag_pending (a i : Nat) : (s.flag a i).pending = s.pending := State.flagW_pending s a _
@[simp] theorem State.flag_due (a i : Nat) : (s.flag a i).due = s.due := State.flagW_due s a _
@[simp] theorem State.flag_domRegs (a i : Nat) : (s.flag a i).domRegs = s.domRegs := State.flagW_domRegs s a _
@[simp] theorem State.flag_mem (a i : Nat) : (s.flag a i).mem = s.mem := State.flagW_mem s a _
@[simp] theorem State.flag_stamps (a i : Nat) : (s.flag a i).stamps = s.stamps := State.flagW_stamps s a _
@[simp] theorem State.flag_reply (a i : Nat) : (s.flag a i).reply = s.reply := State.flagW_reply s a _
@[simp] theorem State.flag_freeCtr (a i : Nat) : (s.flag a i).freeCtr = s.freeCtr := State.flagW_freeCtr s a _
@[simp] theorem State.flag_clk (a i : Nat) : (s.flag a i).clk = s.clk := State.flagW_clk s a _
@[simp] theorem State.flag_ep (a i : Nat) : (s.flag a i).ep = s.ep := State.flagW_ep s a _
@[simp] theorem State.flag_snap (a i : Nat) : (s.flag a i).snap = s.snap := State.flagW_snap s a _
@[simp] theorem State.flag_fab (a i : Nat) : (s.flag a i).fab = s.fab := State.flagW_fab s a _
@[simp] theorem State.flag_xmNow (a i : Nat) : (s.flag a i).xmNow = s.xmNow := State.flagW_xmNow s a _
@[simp] theorem State.flag_paths (a i : Nat) : (s.flag a i).paths = s.paths := State.flagW_paths s a _
@[simp] theorem State.flag_pulses (a i : Nat) : (s.flag a i).pulses = s.pulses := State.flagW_pulses s a _
@[simp] theorem State.flag_links (a i : Nat) : (s.flag a i).links = s.links := State.flagW_links s a _
@[simp] theorem State.flag_islands (a i : Nat) : (s.flag a i).islands = s.islands := State.flagW_islands s a _
@[simp] theorem State.flag_device (a i : Nat) : (s.flag a i).device = s.device := State.flagW_device s a _
@[simp] theorem State.flag_faults (a i : Nat) : (s.flag a i).faults = s.faults := State.flagW_faults s a _
@[simp] theorem State.flag_tus (a i : Nat) : (s.flag a i).tus = s.tus := State.flagW_tus s a _
@[simp] theorem State.flag_acs (a i : Nat) : (s.flag a i).acs = s.acs := State.flagW_acs s a _
@[simp] theorem State.flag_cps (a i : Nat) : (s.flag a i).cps = s.cps := State.flagW_cps s a _
@[simp] theorem State.flag_eqs (a i : Nat) : (s.flag a i).eqs = s.eqs := State.flagW_eqs s a _
@[simp] theorem State.flag_mks (a i : Nat) : (s.flag a i).mks = s.mks := State.flagW_mks s a _
@[simp] theorem State.flag_safeN (a i : Nat) : (s.flag a i).safeN = s.safeN := State.flagW_safeN s a _
@[simp] theorem State.flag_sds (a i : Nat) : (s.flag a i).sds = s.sds := State.flagW_sds s a _
@[simp] theorem State.flag_les (a i : Nat) : (s.flag a i).les = s.les := State.flagW_les s a _
@[simp] theorem State.flag_pow (a i : Nat) : (s.flag a i).pow = s.pow := State.flagW_pow s a _
@[simp] theorem State.flag_cores (a i : Nat) : (s.flag a i).cores = s.cores := State.flagW_cores s a _
@[simp] theorem State.flag_ecc (a i : Nat) : (s.flag a i).ecc = s.ecc := State.flagW_ecc s a _
@[simp] theorem State.flag_macros (a i : Nat) : (s.flag a i).macros = s.macros := State.flagW_macros s a _
@[simp] theorem State.flag_flash (a i : Nat) : (s.flag a i).flash = s.flash := State.flagW_flash s a _
@[simp] theorem State.flag_flashOps (a i : Nat) : (s.flag a i).flashOps = s.flashOps := State.flagW_flashOps s a _
@[simp] theorem State.flag_dmas (a i : Nat) : (s.flag a i).dmas = s.dmas := State.flagW_dmas s a _
@[simp] theorem State.flag_queues (a i : Nat) : (s.flag a i).queues = s.queues := State.flagW_queues s a _
@[simp] theorem State.flag_mp (a i : Nat) : (s.flag a i).mp = s.mp := State.flagW_mp s a _
@[simp] theorem State.flag_net (a i : Nat) : (s.flag a i).net = s.net := State.flagW_net s a _
@[simp] theorem State.flag_host (a i : Nat) : (s.flag a i).host = s.host := State.flagW_host s a _
@[simp] theorem State.flag_serial (a i : Nat) : (s.flag a i).serial = s.serial := State.flagW_serial s a _
@[simp] theorem State.flag_tap (a i : Nat) : (s.flag a i).tap = s.tap := State.flagW_tap s a _

@[simp] theorem State.flag_byte (a i : Nat) (b : Nat) : (s.flag a i).byte b = s.byte b := by simp [State.byte]

/-! ### scWrite -/

@[simp] theorem State.scWrite_pending (a : Nat) (v : Word) : (s.scWrite a v).pending = s.pending := by unfold State.scWrite; split <;> rfl
@[simp] theorem State.scWrite_due (a : Nat) (v : Word) : (s.scWrite a v).due = s.due := by unfold State.scWrite; split <;> rfl
@[simp] theorem State.scWrite_domRegs (a : Nat) (v : Word) : (s.scWrite a v).domRegs = s.domRegs := by unfold State.scWrite; split <;> rfl
@[simp] theorem State.scWrite_mem (a : Nat) (v : Word) : (s.scWrite a v).mem = s.mem := by unfold State.scWrite; split <;> rfl
@[simp] theorem State.scWrite_stamps (a : Nat) (v : Word) : (s.scWrite a v).stamps = s.stamps := by unfold State.scWrite; split <;> rfl
@[simp] theorem State.scWrite_xmNow (a : Nat) (v : Word) : (s.scWrite a v).xmNow = s.xmNow := by unfold State.scWrite; split <;> rfl
@[simp] theorem State.scWrite_reply (a : Nat) (v : Word) : (s.scWrite a v).reply = s.reply := by unfold State.scWrite; split <;> rfl
@[simp] theorem State.scWrite_freeCtr (a : Nat) (v : Word) : (s.scWrite a v).freeCtr = s.freeCtr := by unfold State.scWrite; split <;> rfl
@[simp] theorem State.scWrite_clk (a : Nat) (v : Word) : (s.scWrite a v).clk = s.clk := by unfold State.scWrite; split <;> rfl
@[simp] theorem State.scWrite_ep (a : Nat) (v : Word) : (s.scWrite a v).ep = s.ep := by unfold State.scWrite; split <;> rfl
@[simp] theorem State.scWrite_snap (a : Nat) (v : Word) : (s.scWrite a v).snap = s.snap := by unfold State.scWrite; split <;> rfl
@[simp] theorem State.scWrite_fab (a : Nat) (v : Word) : (s.scWrite a v).fab = s.fab := by unfold State.scWrite; split <;> rfl
@[simp] theorem State.scWrite_pulses (a : Nat) (v : Word) : (s.scWrite a v).pulses = s.pulses := by unfold State.scWrite; split <;> rfl
@[simp] theorem State.scWrite_links (a : Nat) (v : Word) : (s.scWrite a v).links = s.links := by unfold State.scWrite; split <;> rfl
@[simp] theorem State.scWrite_paths (a : Nat) (v : Word) : (s.scWrite a v).paths = s.paths := by unfold State.scWrite; split <;> rfl
@[simp] theorem State.scWrite_islands (a : Nat) (v : Word) : (s.scWrite a v).islands = s.islands := by unfold State.scWrite; split <;> rfl
@[simp] theorem State.scWrite_device (a : Nat) (v : Word) : (s.scWrite a v).device = s.device := by unfold State.scWrite; split <;> rfl
@[simp] theorem State.scWrite_faults (a : Nat) (v : Word) : (s.scWrite a v).faults = s.faults := by unfold State.scWrite; split <;> rfl
@[simp] theorem State.scWrite_tus (a : Nat) (v : Word) : (s.scWrite a v).tus = s.tus := by unfold State.scWrite; split <;> rfl
@[simp] theorem State.scWrite_acs (a : Nat) (v : Word) : (s.scWrite a v).acs = s.acs := by unfold State.scWrite; split <;> rfl
@[simp] theorem State.scWrite_cps (a : Nat) (v : Word) : (s.scWrite a v).cps = s.cps := by unfold State.scWrite; split <;> rfl
@[simp] theorem State.scWrite_eqs (a : Nat) (v : Word) : (s.scWrite a v).eqs = s.eqs := by unfold State.scWrite; split <;> rfl
@[simp] theorem State.scWrite_mks (a : Nat) (v : Word) : (s.scWrite a v).mks = s.mks := by unfold State.scWrite; split <;> rfl
@[simp] theorem State.scWrite_safeN (a : Nat) (v : Word) : (s.scWrite a v).safeN = s.safeN := by unfold State.scWrite; split <;> rfl
@[simp] theorem State.scWrite_sds (a : Nat) (v : Word) : (s.scWrite a v).sds = s.sds := by unfold State.scWrite; split <;> rfl
@[simp] theorem State.scWrite_les (a : Nat) (v : Word) : (s.scWrite a v).les = s.les := by unfold State.scWrite; split <;> rfl
@[simp] theorem State.scWrite_pow (a : Nat) (v : Word) : (s.scWrite a v).pow = s.pow := by unfold State.scWrite; split <;> rfl
@[simp] theorem State.scWrite_cores (a : Nat) (v : Word) : (s.scWrite a v).cores = s.cores := by unfold State.scWrite; split <;> rfl
@[simp] theorem State.scWrite_ecc (a : Nat) (v : Word) : (s.scWrite a v).ecc = s.ecc := by unfold State.scWrite; split <;> rfl
@[simp] theorem State.scWrite_macros (a : Nat) (v : Word) : (s.scWrite a v).macros = s.macros := by unfold State.scWrite; split <;> rfl
@[simp] theorem State.scWrite_flash (a : Nat) (v : Word) : (s.scWrite a v).flash = s.flash := by unfold State.scWrite; split <;> rfl
@[simp] theorem State.scWrite_flashOps (a : Nat) (v : Word) : (s.scWrite a v).flashOps = s.flashOps := by unfold State.scWrite; split <;> rfl
@[simp] theorem State.scWrite_dmas (a : Nat) (v : Word) : (s.scWrite a v).dmas = s.dmas := by unfold State.scWrite; split <;> rfl
@[simp] theorem State.scWrite_queues (a : Nat) (v : Word) : (s.scWrite a v).queues = s.queues := by unfold State.scWrite; split <;> rfl
@[simp] theorem State.scWrite_mp (a : Nat) (v : Word) : (s.scWrite a v).mp = s.mp := by unfold State.scWrite; split <;> rfl
@[simp] theorem State.scWrite_net (a : Nat) (v : Word) : (s.scWrite a v).net = s.net := by unfold State.scWrite; split <;> rfl
@[simp] theorem State.scWrite_host (a : Nat) (v : Word) : (s.scWrite a v).host = s.host := by unfold State.scWrite; split <;> rfl
@[simp] theorem State.scWrite_serial (a : Nat) (v : Word) : (s.scWrite a v).serial = s.serial := by unfold State.scWrite; split <;> rfl
@[simp] theorem State.scWrite_tap (a : Nat) (v : Word) : (s.scWrite a v).tap = s.tap := by unfold State.scWrite; split <;> rfl

@[simp] theorem State.scWrite_byte (a : Nat) (v : Word) (b : Nat) : (s.scWrite a v).byte b = s.byte b := by simp [State.byte]

/-! ### What reads give after updates -/

/-- What a register reads as after a store to a register. -/
@[simp] theorem State.reg_setReg (a : Nat) (v : Word) (b : Nat) :
    (s.setReg a v).reg b = if b = a then v else s.reg b := by
  simp [State.reg, State.setReg, Store.get_set]

@[simp] theorem State.reg_setRf (a hi lo v b : Nat) :
    (s.setRf a hi lo v).reg b = if b = a then setFld (s.reg a) hi lo v else s.reg b := by
  simp [State.setRf]

@[simp] theorem State.reg_setRb (a i : Nat) (x : Bool) (b : Nat) :
    (s.setRb a i x).reg b = if b = a then setBit (s.reg a) i x else s.reg b := by
  simp [State.setRb]

/-- What a byte of memory reads as after a store of one byte. -/
@[simp] theorem State.byte_setByte (a : Nat) (v : Byte) (b : Nat) :
    (s.setByte a v).byte b = if b = a then v else s.byte b := by
  simp [State.byte, State.setByte, Store.get_set]

/-- What a register of a domain reads as after a store to one. -/
theorem State.domRegs_setDomReg (a d : Nat) (v : Word) (k : Nat) :
    (s.setDomReg a d v).domRegs.get (fun _ => 0#32) k = if k = 16 * a + d then v else s.domRegs.get (fun _ => 0#32) k := by
  simp [State.setDomReg, Store.get_set]

/-- A register other than the flagged one reads as before an event. -/
theorem State.reg_flagW_ne (a : Nat) (w : Word) {b : Nat} (h : b ≠ a) : (s.flagW a w).reg b = s.reg b := by
  unfold State.flagW
  split
  · rfl
  · show Store.get regReset b (Store.set regReset a _ s.regs) = s.reg b
    rw [Store.get_set, if_neg h]
    rfl

theorem State.reg_flag_ne (a i : Nat) {b : Nat} (h : b ≠ a) : (s.flag a i).reg b = s.reg b := State.reg_flagW_ne s a _ h

/-- The commands due after new ones are added. -/
@[simp] theorem State.enqueue_due (l : List Instr) : (s.enqueue l).due = s.due ++ l := rfl

@[simp] theorem State.report_due (x r c : Nat) (d : Word) :
    (s.report x r c d).due = s.due ++ [.faultReport (Fin.ofNat 8192 x) (Fin.ofNat 8192 r) (BitVec.ofNat 8 c) d] := rfl

@[simp] theorem State.answer_reply (m : Master) (r : BusResult) : (s.answer m r).reply = some ⟨m, r⟩ := rfl

end Sys2Proof.Machine
end

