-- ==== Sys2Proof/Laws/Access.lean ====
section
/-!
SUPPORT. What an access that nothing refuses does: one lemma for a write, one for a read.
-/
namespace Sys2Proof.Machine
open Sys2Proof

/-- An aligned word passes every master's own check. -/
theorem ownCheck_word (m : Master) {a : Nat} (h4 : a % 4 = 0) : ownCheck m a 4 = true := by
  cases m <;> simp [ownCheck, h4]

/-- Registers stand at multiples of 4, so a word access has the right size. -/
theorem State.writeAs_of_writes {s : State} {m : Master} {b : Blk} {r : RegRow} {a : Nat} (h : s.Writes m b r a)
    (h4 : a % 4 = 0) (v : Word) :
    s.busWrite m a 4 v = s.writeReg (s.domainOf m) b r a v := by
  simp [State.busWrite, State.writeAs, State.overPath, h.path, h.place, sizeOk, h4, State.writePlace, h.there, h.may]

/-- A write that nothing refuses: the register's own effect, and the response. -/
theorem State.writeCmd_of_writes {s : State} {m : Master} {b : Blk} {r : RegRow} {a : Nat} (h : s.Writes m b r a)
    (h4 : a % 4 = 0) (v : Word) (hd : (s.writeReg (s.domainOf m) b r a v).1 = .done) :
    s.writeCmd m a 4 v = .next ((s.writeReg (s.domainOf m) b r a v).2.answer m .done) := by
  have e := State.writeAs_of_writes h h4 v
  unfold State.writeCmd State.masterWrite
  rw [h.acts, e, ownCheck_word m h4]
  generalize s.writeReg (s.domainOf m) b r a v = x at hd
  obtain ⟨x1, x2⟩ := x
  subst hd
  cases m <;> rfl

/-- The same, for a register whose write always completes. -/
theorem State.writeCmd_eq {s : State} {m : Master} {b : Blk} {r : RegRow} {a : Nat} {t : State} (h : s.Writes m b r a)
    (h4 : a % 4 = 0) (v : Word) (hd : s.writeReg (s.domainOf m) b r a v = (.done, t)) :
    s.writeCmd m a 4 v = .next (t.answer m .done) := by
  have := State.writeCmd_of_writes h h4 v (by rw [hd])
  rw [this, hd]

/-- A read of a register never waits for flash. -/
theorem State.readWaits_register {s : State} {m : Master} {b : Blk} {r : RegRow} {a : Nat}
    (h : s.place m a = some (.register b r a)) : s.readWaits m a = false := by
  have k : s.flashHolds a = false := by
    by_cases x : 0x10000000 ≤ a ∧ a < 0x12000000
    · have y : ¬ a < 0x100000 := by omega
      unfold State.place at h
      rw [if_neg y, if_pos x.2] at h
      split at h <;> simp at h
    · unfold State.flashHolds
      by_cases y : 0x10000000 ≤ a
      · simp [show ¬ a < 0x12000000 from fun z => x ⟨y, z⟩]
      · simp [y]
  cases m <;> simp [State.readWaits, State.frozenRead, k]

/-- A read of a register outside the queue ports and the calendar's RAM that nothing refuses: the register's own effect,
and the response with its value. -/
theorem State.readCmd_of_reads {s : State} {m : Master} {b : Blk} {r : RegRow} {a : Nat} (h : s.Reads m b r a)
    (h4 : a % 4 = 0) (hp : portOf a = none) (hc : ¬ (R.CAL_BRAMw 0 ≤ a ∧ a < R.CAL_BRAMw 1024)) :
    s.readCmd m a 4 = .next ((s.readReg b r a (s.domainOf m)).2.answer m (.data (s.readReg b r a (s.domainOf m)).1)) := by
  have hc' : ¬ (R.CAL_BRAMw 0 ≤ a ∧ a < R.CAL_BRAMw 1024 ∧ s.eccBad a = true) := fun x => hc ⟨x.1, x.2.1⟩
  have hw := State.readWaits_register h.place
  have e : s.busRead m a 4 = (.data (s.readReg b r a (s.domainOf m)).1, (s.readReg b r a (s.domainOf m)).2) := by
    simp only [State.busRead, State.readAs, State.overPath, h.path, h.place, sizeOk, h4, State.readPlace, h.there, h.may, hp]
    simp [hc', hc]
  unfold State.readCmd State.masterRead
  rw [h.acts, hw, e, ownCheck_word m h4]
  cases m <;> rfl

end Sys2Proof.Machine
end

