-- ==== Sys2Proof/Laws/Bits.lean ====
section
/-!
SUPPORT. Fields and bits: what a field or a bit reads as after one is replaced.
-/
set_option linter.unusedSimpArgs false
set_option linter.unusedVariables false
namespace Sys2Proof.Machine
open Sys2Proof

theorem testBit_fld (w : Word) (hi lo j : Nat) :
    (fld w hi lo).testBit j = (decide (j < hi + 1 - lo) && w.getLsbD (lo + j)) := by
  simp [fld, Nat.testBit_mod_two_pow, Nat.testBit_shiftRight, BitVec.getLsbD]

theorem getLsbD_w32 (n i : Nat) : (w32 n).getLsbD i = (decide (i < 32) && n.testBit i) := by
  unfold w32
  rw [BitVec.getLsbD_ofNat]

theorem getLsbD_maskW (hi lo i : Nat) :
    (maskW hi lo).getLsbD i = (decide (i < 32) && decide (lo ≤ i ∧ i ≤ hi)) := by
  unfold maskW
  rw [getLsbD_w32, Nat.testBit_shiftLeft, Nat.testBit_two_pow_sub_one]
  by_cases h : i < 32
  · by_cases h1 : lo ≤ i
    · have : (i - lo < hi + 1 - lo) ↔ i ≤ hi := by omega
      simp [h, h1, this]
    · simp [h, h1]
  · simp [h]

/-- Each bit of a word whose field is replaced. -/
theorem getLsbD_setFld (w : Word) (hi lo v i : Nat) :
    (setFld w hi lo v).getLsbD i = (decide (i < 32) &&
      (if lo ≤ i ∧ i ≤ hi then v.testBit (i - lo) else w.getLsbD i)) := by
  unfold setFld
  rw [BitVec.getLsbD_or, BitVec.getLsbD_and, BitVec.getLsbD_not, getLsbD_maskW, getLsbD_w32, Nat.testBit_shiftLeft,
    Nat.testBit_mod_two_pow]
  by_cases h32 : i < 32
  · by_cases h1 : lo ≤ i
    · by_cases h2 : i ≤ hi
      · have h3 : i - lo < hi + 1 - lo := by omega
        simp [h1, h2, h32, h3]
      · have h3 : ¬ i - lo < hi + 1 - lo := by omega
        simp [h1, h2, h32, h3]
    · simp [h1, h32]
  · have : w.getLsbD i = false := BitVec.getLsbD_of_ge w i (by omega)
    simp [h32]

/-- A replaced field reads as the new value. -/
@[simp] theorem fld_setFld (w : Word) (hi lo v : Nat) (h : hi < 32) :
    fld (setFld w hi lo v) hi lo = v % 2 ^ (hi + 1 - lo) := by
  apply Nat.eq_of_testBit_eq
  intro j
  rw [testBit_fld, getLsbD_setFld, Nat.testBit_mod_two_pow]
  by_cases hj : j < hi + 1 - lo
  · have h1 : lo + j < 32 := by omega
    have h2 : lo ≤ lo + j ∧ lo + j ≤ hi := by omega
    simp [hj, h1, h2]
  · simp [hj]

/-- Another field reads as before. -/
theorem fld_setFld_of_disjoint (w : Word) (hi lo hi2 lo2 v : Nat) (h : hi2 < 32) (hd : hi2 < lo ∨ hi < lo2) :
    fld (setFld w hi lo v) hi2 lo2 = fld w hi2 lo2 := by
  apply Nat.eq_of_testBit_eq
  intro j
  rw [testBit_fld, testBit_fld, getLsbD_setFld]
  by_cases hj : j < hi2 + 1 - lo2
  · have h1 : lo2 + j < 32 := by omega
    have h2 : ¬ (lo ≤ lo2 + j ∧ lo2 + j ≤ hi) := by omega
    simp [hj, h1, h2]
  · simp [hj]

/-- A bit after a field is replaced. -/
theorem bit_setFld (w : Word) (hi lo v i : Nat) (h : i < 32) :
    bit (setFld w hi lo v) i = if lo ≤ i ∧ i ≤ hi then v.testBit (i - lo) else bit w i := by
  unfold bit
  rw [getLsbD_setFld]
  simp [h]

/-- A bit after a bit is replaced. -/
theorem bit_setBit (w : Word) (i j : Nat) (b : Bool) (h : j < 32) :
    bit (setBit w i b) j = if j = i then b else bit w j := by
  unfold setBit
  rw [bit_setFld _ _ _ _ _ h]
  by_cases hj : j = i
  · subst hj; cases b <;> simp
  · have : ¬ (i ≤ j ∧ j ≤ i) := by omega
    simp [hj, this]

@[simp] theorem bit_setBit_self (w : Word) (i : Nat) (b : Bool) (h : i < 32) : bit (setBit w i b) i = b := by
  rw [bit_setBit _ _ _ _ h]; simp

/-- A field that does not hold the replaced bit reads as before. -/
theorem fld_setBit_of_outside (w : Word) (i hi lo : Nat) (b : Bool) (h : hi < 32) (hd : hi < i ∨ i < lo) :
    fld (setBit w i b) hi lo = fld w hi lo := fld_setFld_of_disjoint w i i hi lo _ h hd

theorem bit_or (x y : Word) (i : Nat) : bit (x ||| y) i = (bit x i || bit y i) := by simp [bit]

theorem bit_bitW (i j : Nat) (h : j < 32) : bit (bitW i) j = decide (j = i) := by
  unfold bit bitW
  rw [getLsbD_w32, Nat.testBit_two_pow]
  simp [h, eq_comm]

/-- A field is below its own size. -/
theorem fld_lt (w : Word) (hi lo : Nat) : fld w hi lo < 2 ^ (hi + 1 - lo) := by
  unfold fld; exact Nat.mod_lt _ (by positivity)

/-- The field that is the whole word. -/
theorem fld_31_0 (w : Word) : fld w 31 0 = w.toNat := by
  simp [fld]; omega

end Sys2Proof.Machine
end

