-- ==== Sys2Proof/Laws/Flash.lean ====
section
/-!
SUPPORT. The flash operations that the management processor runs through the controller leave what it holds as it was.
-/
namespace Sys2Proof.Machine
open Sys2Proof

theorem foldl_keeps {α β : Type} (p : State → β) (f : State → α → State) (h : ∀ s a, p (f s a) = p s) :
    ∀ (l : List α) (s : State), p (l.foldl f s) = p s
  | [], _ => rfl
  | a :: l, s => (foldl_keeps p f h l (f s a)).trans (h s a)

theorem State.markStale_mp (s : State) (n a : Nat) : (s.markStale n a).mp = s.mp := by
  unfold State.markStale State.freeBit
  dsimp only
  cases (s.coreRec n).stale.get (fun _ => none) a with
  | none => rfl
  | some x => cases bit (Config.freeWord s.freeCtr) 0 <;> rfl

theorem State.cachesMiss_mp (s : State) (w : Option Nat) (l : List Nat) : (s.cachesMiss w l).mp = s.mp := by
  refine foldl_keeps (·.mp) _ (fun t n => ?_) _ s
  split
  · rfl
  · split
    · exact foldl_keeps (·.mp) (fun u a => u.unstale n (fun x => x == a)) (fun _ _ => rfl) l t
    · exact foldl_keeps (·.mp) _ (fun u a => State.markStale_mp u n a) l t

theorem State.spoil_mp : ∀ (n a : Nat) (s : State), (s.spoil a n).mp = s.mp
  | 0, _, _ => rfl
  | n + 1, a, s => State.spoil_mp n (a + 32) (s.setFlashMark a { s.flashMark a with undef := true })

theorem State.storeWords_mp : ∀ (l : List Word) (a : Nat) (s : State), (s.storeWords a l).mp = s.mp
  | [], _, _ => rfl
  | w :: l, a, s => State.storeWords_mp l (a + 4) (s.setMword a w)

theorem State.flashDone_mp (s : State) (b : Nat) (ok : Bool) : (s.flashDone b ok).mp = s.mp := by
  unfold State.flashDone
  split
  · rfl
  · simp only [State.flagW_mp]
    split
    · split
      · rfl
      · exact State.spoil_mp _ _ _
    · exact State.storeWords_mp _ _ _

theorem State.flashCmd_mp (s : State) (b : Nat) (v : Word) : (s.flashCmd b v).mp = s.mp := by
  simp only [State.flashCmd]
  repeat' split
  all_goals first | exact State.flag_mp _ _ _ | rfl

theorem State.flashJob_mp (s : State) (j : FlashJob) (ok : Bool) : (s.flashJob j ok).2.mp = s.mp := by
  simp only [State.flashJob]
  have h : ∀ t : State, t.mp = s.mp → ∀ (c b : Bool) (n : Nat) (v : Word), (if c = true then (false, t.flashCmd n v)
      else (ok, ((t.flashCmd n v).cachesMiss none ((t.flashCmd n v).flashChanges n)).flashDone n ok)).2.mp = s.mp := by
    intro t ht c b n v
    split
    · exact (State.flashCmd_mp t n v).trans ht
    · exact (State.flashDone_mp _ _ _).trans ((State.cachesMiss_mp _ _ _).trans ((State.flashCmd_mp t n v).trans ht))
  refine h _ ?_ _ true _ _
  split
  · rfl
  · exact foldl_keeps (·.mp) (fun t i => t.setReg (R.FL_Bb_DATAi (flashBank j.addr) i) (j.data.getD i 0xFFFFFFFF#32)) (fun _ _ => rfl) _ _

/-- Operations of the flash controller leave what the management processor holds. -/
theorem State.flashJobs_mp (bad : Option Nat) : ∀ (l : List FlashJob) (i : Nat) (s : State), (s.flashJobs bad i l).2.mp = s.mp
  | [], _, _ => rfl
  | j :: l, i, s => by
    rw [State.flashJobs]
    have h := State.flashJob_mp s j (bad != some i)
    split
    · rename_i t e; rw [e] at h; exact (State.flashJobs_mp bad l (i + 1) t).trans h
    · rename_i t e; rw [e] at h; exact h

theorem State.flashRun_mp (s : State) (verify : Bool) (l : List FlashJob) : (s.flashRun verify l).2.mp = s.mp := by
  unfold State.flashRun
  split
  · exact State.flashJobs_mp _ _ _ _
  · exact State.flashJobs_mp _ _ _ _

end Sys2Proof.Machine
end

