-- ==== Sys2Proof/Laws/Keep.lean ====
section
/-!
SUPPORT. What an operation over the state leaves alone. `Keep w s t` says that `t` comes from `s` by an operation that
touches at most the parts of the state whose bits are set in `w`, never the queue, keeps the canonical form of every
store and never lowers the rollback counter. One lemma per operation says which parts it touches (the files Keep*.lean);
they compose by `Keep.seq`.
-/
namespace Sys2Proof.Machine
open Sys2Proof

set_option linter.unusedTactic false
set_option linter.unreachableTactic false

/-- Part `i` of two states agrees. -/
def samePart (i : Nat) (s t : State) : Prop :=
  match i with
  | 0 => t.due = s.due
  | 1 => t.regs = s.regs
  | 2 => t.scCount = s.scCount
  | 3 => t.domRegs = s.domRegs
  | 4 => t.mem = s.mem
  | 5 => t.stamps = s.stamps
  | 6 => t.reply = s.reply
  | 7 => t.freeCtr = s.freeCtr
  | 8 => t.clk = { s.clk with beat := t.clk.beat, tick := t.clk.tick, dOfs := t.clk.dOfs, dIsland := t.clk.dIsland, era := t.clk.era, seconds := t.clk.seconds, sub := t.clk.sub }
  | 9 => t.ep = s.ep
  | 10 => t.snap = s.snap
  | 11 => t.fab = s.fab
  | 12 => t.links = s.links
  | 13 => t.islands = s.islands
  | 14 => t.device = s.device
  | 15 => t.faults = s.faults
  | 16 => t.tus = s.tus
  | 17 => t.acs = s.acs
  | 18 => t.cps = s.cps
  | 19 => t.eqs = s.eqs
  | 20 => t.mks = s.mks
  | 21 => t.safeN = s.safeN
  | 22 => t.sds = s.sds
  | 23 => t.les = s.les
  | 24 => t.pow = s.pow
  | 25 => t.cores = s.cores
  | 26 => t.ecc = s.ecc
  | 27 => t.macros = s.macros
  | 28 => t.flash = s.flash
  | 29 => t.flashOps = s.flashOps
  | 30 => t.dmas = s.dmas
  | 31 => t.queues = s.queues
  | 32 => t.mp = { s.mp with unlock := t.mp.unlock, rollback := t.mp.rollback }
  | 33 => t.net = s.net
  | 34 => t.host = s.host
  | 35 => t.serial = s.serial
  | 36 => t.tap = s.tap
  | 37 => t.clk.beat = s.clk.beat ∧ t.clk.tick = s.clk.tick
  | 38 => t.clk.dOfs = s.clk.dOfs ∧ t.clk.dIsland = s.clk.dIsland
  | 39 => t.clk.era = s.clk.era ∧ t.clk.seconds = s.clk.seconds ∧ t.clk.sub = s.clk.sub
  | 40 => t.mp.unlock = s.mp.unlock
  | 41 => t.mp.rollback = s.mp.rollback
  | 42 => t.xmNow = s.xmNow
  | 43 => t.paths = s.paths
  | 44 => t.pulses = s.pulses
  | _ => True

theorem samePart_refl (i : Nat) (s : State) : samePart i s s := by
  unfold samePart
  split <;> first | rfl | trivial | exact ⟨rfl, rfl⟩ | exact ⟨rfl, rfl, rfl⟩

theorem samePart_trans {i : Nat} {s t u : State} (h : samePart i s t) (k : samePart i t u) : samePart i s u := by
  unfold samePart at h k ⊢
  split <;> first
    | exact k.trans h
    | trivial
    | (dsimp only at h k; rw [k, h])
    | exact ⟨k.1.trans h.1, k.2.trans h.2⟩
    | exact ⟨k.1.trans h.1, k.2.1.trans h.2.1, k.2.2.trans h.2.2⟩

/-- What every operation of the machine does. -/
structure Keep (w : Nat) (s t : State) : Prop where
  pending : t.pending = s.pending
  canonical : s.Canonical → t.Canonical
  rollback : s.mp.rollback ≤ t.mp.rollback
  same : ∀ i, w.testBit i = false → samePart i s t

theorem Keep.refl {w : Nat} (s : State) : Keep w s s := ⟨rfl, id, Nat.le_refl _, fun i _ => samePart_refl i s⟩

theorem Keep.trans {w : Nat} {s t u : State} (h : Keep w s t) (k : Keep w t u) : Keep w s u :=
  ⟨k.pending.trans h.pending, fun c => k.canonical (h.canonical c), Nat.le_trans h.rollback k.rollback,
    fun i b => samePart_trans (h.same i b) (k.same i b)⟩

theorem Keep.mono {v w : Nat} {s t : State} (h : Keep v s t) (hw : (v ||| w == w) = true) : Keep w s t := by
  refine ⟨h.pending, h.canonical, h.rollback, fun i b => h.same i ?_⟩
  have e : v ||| w = w := by simpa using hw
  rw [← e, Nat.testBit_or, Bool.or_eq_false_iff] at b
  exact b.1

/-- Composition, the later operation first. -/
theorem Keep.seq {v w : Nat} {s t u : State} (k : Keep v t u) (hw : (v ||| w == w) = true) (h : Keep w s t) : Keep w s u :=
  h.trans (k.mono hw)

theorem Keep.cut {w : Nat} {s t u : State} (h : Keep w s t) (k : Keep w s t → Keep w s u) : Keep w s u := k h

theorem Keep.ite {w : Nat} {s a b : State} {c : Prop} [Decidable c] (ha : Keep w s a) (hb : Keep w s b) :
    Keep w s (if c then a else b) := by
  split
  · exact ha
  · exact hb

theorem Keep.iteSnd {α : Type} {w : Nat} {s : State} {a b : α × State} {c : Prop} [Decidable c] (ha : Keep w s a.2)
    (hb : Keep w s b.2) : Keep w s (if c then a else b).2 := by
  split
  · exact ha
  · exact hb

theorem Keep.foldl {α : Type} {w : Nat} {s : State} {f : State → α → State} {l : List α}
    (hf : ∀ t x, Keep w s t → Keep w s (f t x)) : ∀ {t : State}, Keep w s t → Keep w s (l.foldl f t) := by
  induction l with
  | nil => intro t h; exact h
  | cons x r ih => intro t h; exact ih (hf t x h)

theorem Keep.foldlSnd {α β : Type} {w : Nat} {s : State} {f : β × State → α → β × State} {l : List α}
    (hf : ∀ t x, Keep w s t.2 → Keep w s (f t x).2) : ∀ {t : β × State}, Keep w s t.2 → Keep w s (l.foldl f t).2 := by
  induction l with
  | nil => intro t h; exact h
  | cons x r ih => intro t h; exact ih (hf t x h)

theorem Keep.foldlSnd2 {α β γ : Type} {w : Nat} {s : State} {f : β × γ × State → α → β × γ × State} {l : List α}
    (hf : ∀ t x, Keep w s t.2.2 → Keep w s (f t x).2.2) :
    ∀ {t : β × γ × State}, Keep w s t.2.2 → Keep w s (l.foldl f t).2.2 := by
  induction l with
  | nil => intro t h; exact h
  | cons x r ih => intro t h; exact ih (hf t x h)

/-! ### Updates of one part -/

theorem Keep.upd_due (s : State) (x) : Keep 1 s { s with due := x } := by
  refine ⟨rfl, fun c => { c with }, Nat.le_refl _, fun i b => ?_⟩
  unfold samePart
  split <;> first | rfl | trivial | exact ⟨rfl, rfl⟩ | exact ⟨rfl, rfl, rfl⟩ | exact absurd b (by decide)

theorem Keep.upd_regs (s : State) {x} (h : s.Canonical → Store.wf (regReset) x = true) :
    Keep 2 s { s with regs := x } := by
  refine ⟨rfl, fun c => { c with regs := h c }, Nat.le_refl _, fun i b => ?_⟩
  unfold samePart
  split <;> first | rfl | trivial | exact ⟨rfl, rfl⟩ | exact ⟨rfl, rfl, rfl⟩ | exact absurd b (by decide)

theorem Keep.set_regs (s : State) (k) (x) : Keep 2 s { s with regs := s.regs.set (regReset) k x } :=
  Keep.upd_regs s (fun c => Store.set_wf c.regs)

theorem Keep.clear_regs (s : State) (p) : Keep 2 s { s with regs := s.regs.clear p } :=
  Keep.upd_regs s (fun c => Store.clear_wf c.regs)

theorem Keep.upd_scCount (s : State) {x} (h : s.Canonical → Store.wf (fun _ => 0) x = true) :
    Keep 4 s { s with scCount := x } := by
  refine ⟨rfl, fun c => { c with scCount := h c }, Nat.le_refl _, fun i b => ?_⟩
  unfold samePart
  split <;> first | rfl | trivial | exact ⟨rfl, rfl⟩ | exact ⟨rfl, rfl, rfl⟩ | exact absurd b (by decide)

theorem Keep.set_scCount (s : State) (k) (x) : Keep 4 s { s with scCount := s.scCount.set (fun _ => 0) k x } :=
  Keep.upd_scCount s (fun c => Store.set_wf c.scCount)

theorem Keep.clear_scCount (s : State) (p) : Keep 4 s { s with scCount := s.scCount.clear p } :=
  Keep.upd_scCount s (fun c => Store.clear_wf c.scCount)

theorem Keep.upd_domRegs (s : State) {x} (h : s.Canonical → Store.wf (fun _ => 0#32) x = true) :
    Keep 8 s { s with domRegs := x } := by
  refine ⟨rfl, fun c => { c with domRegs := h c }, Nat.le_refl _, fun i b => ?_⟩
  unfold samePart
  split <;> first | rfl | trivial | exact ⟨rfl, rfl⟩ | exact ⟨rfl, rfl, rfl⟩ | exact absurd b (by decide)

theorem Keep.set_domRegs (s : State) (k) (x) : Keep 8 s { s with domRegs := s.domRegs.set (fun _ => 0#32) k x } :=
  Keep.upd_domRegs s (fun c => Store.set_wf c.domRegs)

theorem Keep.clear_domRegs (s : State) (p) : Keep 8 s { s with domRegs := s.domRegs.clear p } :=
  Keep.upd_domRegs s (fun c => Store.clear_wf c.domRegs)

theorem Keep.upd_mem (s : State) {x} (h : s.Canonical → Store.wf (memReset) x = true) :
    Keep 16 s { s with mem := x } := by
  refine ⟨rfl, fun c => { c with mem := h c }, Nat.le_refl _, fun i b => ?_⟩
  unfold samePart
  split <;> first | rfl | trivial | exact ⟨rfl, rfl⟩ | exact ⟨rfl, rfl, rfl⟩ | exact absurd b (by decide)

theorem Keep.set_mem (s : State) (k) (x) : Keep 16 s { s with mem := s.mem.set (memReset) k x } :=
  Keep.upd_mem s (fun c => Store.set_wf c.mem)

theorem Keep.clear_mem (s : State) (p) : Keep 16 s { s with mem := s.mem.clear p } :=
  Keep.upd_mem s (fun c => Store.clear_wf c.mem)

theorem Keep.upd_stamps (s : State) {x} (h : s.Canonical → Store.wf (fun _ => 0#32) x = true) :
    Keep 32 s { s with stamps := x } := by
  refine ⟨rfl, fun c => { c with stamps := h c }, Nat.le_refl _, fun i b => ?_⟩
  unfold samePart
  split <;> first | rfl | trivial | exact ⟨rfl, rfl⟩ | exact ⟨rfl, rfl, rfl⟩ | exact absurd b (by decide)

theorem Keep.set_stamps (s : State) (k) (x) : Keep 32 s { s with stamps := s.stamps.set (fun _ => 0#32) k x } :=
  Keep.upd_stamps s (fun c => Store.set_wf c.stamps)

theorem Keep.clear_stamps (s : State) (p) : Keep 32 s { s with stamps := s.stamps.clear p } :=
  Keep.upd_stamps s (fun c => Store.clear_wf c.stamps)

theorem Keep.upd_reply (s : State) (x) : Keep 64 s { s with reply := x } := by
  refine ⟨rfl, fun c => { c with }, Nat.le_refl _, fun i b => ?_⟩
  unfold samePart
  split <;> first | rfl | trivial | exact ⟨rfl, rfl⟩ | exact ⟨rfl, rfl, rfl⟩ | exact absurd b (by decide)

theorem Keep.upd_freeCtr (s : State) (x) : Keep 128 s { s with freeCtr := x } := by
  refine ⟨rfl, fun c => { c with }, Nat.le_refl _, fun i b => ?_⟩
  unfold samePart
  split <;> first | rfl | trivial | exact ⟨rfl, rfl⟩ | exact ⟨rfl, rfl, rfl⟩ | exact absurd b (by decide)

theorem Keep.upd_ep (s : State) (x) : Keep 512 s { s with ep := x } := by
  refine ⟨rfl, fun c => { c with }, Nat.le_refl _, fun i b => ?_⟩
  unfold samePart
  split <;> first | rfl | trivial | exact ⟨rfl, rfl⟩ | exact ⟨rfl, rfl, rfl⟩ | exact absurd b (by decide)

theorem Keep.upd_snap (s : State) (x) : Keep 1024 s { s with snap := x } := by
  refine ⟨rfl, fun c => { c with }, Nat.le_refl _, fun i b => ?_⟩
  unfold samePart
  split <;> first | rfl | trivial | exact ⟨rfl, rfl⟩ | exact ⟨rfl, rfl, rfl⟩ | exact absurd b (by decide)

theorem Keep.upd_fab (s : State) (x) : Keep 2048 s { s with fab := x } := by
  refine ⟨rfl, fun c => { c with }, Nat.le_refl _, fun i b => ?_⟩
  unfold samePart
  split <;> first | rfl | trivial | exact ⟨rfl, rfl⟩ | exact ⟨rfl, rfl, rfl⟩ | exact absurd b (by decide)

theorem Keep.upd_links (s : State) {x} (h : s.Canonical → Store.wf (fun _ => .reset) x = true) :
    Keep 4096 s { s with links := x } := by
  refine ⟨rfl, fun c => { c with links := h c }, Nat.le_refl _, fun i b => ?_⟩
  unfold samePart
  split <;> first | rfl | trivial | exact ⟨rfl, rfl⟩ | exact ⟨rfl, rfl, rfl⟩ | exact absurd b (by decide)

theorem Keep.set_links (s : State) (k) (x) : Keep 4096 s { s with links := s.links.set (fun _ => .reset) k x } :=
  Keep.upd_links s (fun c => Store.set_wf c.links)

theorem Keep.clear_links (s : State) (p) : Keep 4096 s { s with links := s.links.clear p } :=
  Keep.upd_links s (fun c => Store.clear_wf c.links)

theorem Keep.upd_islands (s : State) {x} (h : s.Canonical → Store.wf (fun _ => .off) x = true) :
    Keep 8192 s { s with islands := x } := by
  refine ⟨rfl, fun c => { c with islands := h c }, Nat.le_refl _, fun i b => ?_⟩
  unfold samePart
  split <;> first | rfl | trivial | exact ⟨rfl, rfl⟩ | exact ⟨rfl, rfl, rfl⟩ | exact absurd b (by decide)

theorem Keep.set_islands (s : State) (k) (x) : Keep 8192 s { s with islands := s.islands.set (fun _ => .off) k x } :=
  Keep.upd_islands s (fun c => Store.set_wf c.islands)

theorem Keep.clear_islands (s : State) (p) : Keep 8192 s { s with islands := s.islands.clear p } :=
  Keep.upd_islands s (fun c => Store.clear_wf c.islands)

theorem Keep.upd_device (s : State) (x) : Keep 16384 s { s with device := x } := by
  refine ⟨rfl, fun c => { c with }, Nat.le_refl _, fun i b => ?_⟩
  unfold samePart
  split <;> first | rfl | trivial | exact ⟨rfl, rfl⟩ | exact ⟨rfl, rfl, rfl⟩ | exact absurd b (by decide)

theorem Keep.upd_faults (s : State) (x) : Keep 32768 s { s with faults := x } := by
  refine ⟨rfl, fun c => { c with }, Nat.le_refl _, fun i b => ?_⟩
  unfold samePart
  split <;> first | rfl | trivial | exact ⟨rfl, rfl⟩ | exact ⟨rfl, rfl, rfl⟩ | exact absurd b (by decide)

theorem Keep.upd_tus (s : State) {x} (h : s.Canonical → Store.wf (fun _ => .reset) x = true) :
    Keep 65536 s { s with tus := x } := by
  refine ⟨rfl, fun c => { c with tus := h c }, Nat.le_refl _, fun i b => ?_⟩
  unfold samePart
  split <;> first | rfl | trivial | exact ⟨rfl, rfl⟩ | exact ⟨rfl, rfl, rfl⟩ | exact absurd b (by decide)

theorem Keep.set_tus (s : State) (k) (x) : Keep 65536 s { s with tus := s.tus.set (fun _ => .reset) k x } :=
  Keep.upd_tus s (fun c => Store.set_wf c.tus)

theorem Keep.clear_tus (s : State) (p) : Keep 65536 s { s with tus := s.tus.clear p } :=
  Keep.upd_tus s (fun c => Store.clear_wf c.tus)

theorem Keep.upd_acs (s : State) {x} (h : s.Canonical → Store.wf (fun _ => .reset) x = true) :
    Keep 131072 s { s with acs := x } := by
  refine ⟨rfl, fun c => { c with acs := h c }, Nat.le_refl _, fun i b => ?_⟩
  unfold samePart
  split <;> first | rfl | trivial | exact ⟨rfl, rfl⟩ | exact ⟨rfl, rfl, rfl⟩ | exact absurd b (by decide)

theorem Keep.set_acs (s : State) (k) (x) : Keep 131072 s { s with acs := s.acs.set (fun _ => .reset) k x } :=
  Keep.upd_acs s (fun c => Store.set_wf c.acs)

theorem Keep.clear_acs (s : State) (p) : Keep 131072 s { s with acs := s.acs.clear p } :=
  Keep.upd_acs s (fun c => Store.clear_wf c.acs)

theorem Keep.upd_cps (s : State) {x} (h : s.Canonical → Store.wf (fun _ => .reset) x = true) :
    Keep 262144 s { s with cps := x } := by
  refine ⟨rfl, fun c => { c with cps := h c }, Nat.le_refl _, fun i b => ?_⟩
  unfold samePart
  split <;> first | rfl | trivial | exact ⟨rfl, rfl⟩ | exact ⟨rfl, rfl, rfl⟩ | exact absurd b (by decide)

theorem Keep.set_cps (s : State) (k) (x) : Keep 262144 s { s with cps := s.cps.set (fun _ => .reset) k x } :=
  Keep.upd_cps s (fun c => Store.set_wf c.cps)

theorem Keep.clear_cps (s : State) (p) : Keep 262144 s { s with cps := s.cps.clear p } :=
  Keep.upd_cps s (fun c => Store.clear_wf c.cps)

theorem Keep.upd_eqs (s : State) {x} (h : s.Canonical → Store.wf (fun _ => .reset) x = true) :
    Keep 524288 s { s with eqs := x } := by
  refine ⟨rfl, fun c => { c with eqs := h c }, Nat.le_refl _, fun i b => ?_⟩
  unfold samePart
  split <;> first | rfl | trivial | exact ⟨rfl, rfl⟩ | exact ⟨rfl, rfl, rfl⟩ | exact absurd b (by decide)

theorem Keep.set_eqs (s : State) (k) (x) : Keep 524288 s { s with eqs := s.eqs.set (fun _ => .reset) k x } :=
  Keep.upd_eqs s (fun c => Store.set_wf c.eqs)

theorem Keep.clear_eqs (s : State) (p) : Keep 524288 s { s with eqs := s.eqs.clear p } :=
  Keep.upd_eqs s (fun c => Store.clear_wf c.eqs)

theorem Keep.upd_mks (s : State) {x} (h : s.Canonical → Store.wf (fun _ => .reset) x = true) :
    Keep 1048576 s { s with mks := x } := by
  refine ⟨rfl, fun c => { c with mks := h c }, Nat.le_refl _, fun i b => ?_⟩
  unfold samePart
  split <;> first | rfl | trivial | exact ⟨rfl, rfl⟩ | exact ⟨rfl, rfl, rfl⟩ | exact absurd b (by decide)

theorem Keep.set_mks (s : State) (k) (x) : Keep 1048576 s { s with mks := s.mks.set (fun _ => .reset) k x } :=
  Keep.upd_mks s (fun c => Store.set_wf c.mks)

theorem Keep.clear_mks (s : State) (p) : Keep 1048576 s { s with mks := s.mks.clear p } :=
  Keep.upd_mks s (fun c => Store.clear_wf c.mks)

theorem Keep.upd_safeN (s : State) (x) : Keep 2097152 s { s with safeN := x } := by
  refine ⟨rfl, fun c => { c with }, Nat.le_refl _, fun i b => ?_⟩
  unfold samePart
  split <;> first | rfl | trivial | exact ⟨rfl, rfl⟩ | exact ⟨rfl, rfl, rfl⟩ | exact absurd b (by decide)

theorem Keep.upd_sds (s : State) {x} (h : s.Canonical → Store.wf (fun _ => .reset) x = true) :
    Keep 4194304 s { s with sds := x } := by
  refine ⟨rfl, fun c => { c with sds := h c }, Nat.le_refl _, fun i b => ?_⟩
  unfold samePart
  split <;> first | rfl | trivial | exact ⟨rfl, rfl⟩ | exact ⟨rfl, rfl, rfl⟩ | exact absurd b (by decide)

theorem Keep.set_sds (s : State) (k) (x) : Keep 4194304 s { s with sds := s.sds.set (fun _ => .reset) k x } :=
  Keep.upd_sds s (fun c => Store.set_wf c.sds)

theorem Keep.clear_sds (s : State) (p) : Keep 4194304 s { s with sds := s.sds.clear p } :=
  Keep.upd_sds s (fun c => Store.clear_wf c.sds)

theorem Keep.upd_les (s : State) {x} (h : s.Canonical → Store.wf (fun _ => .reset) x = true) :
    Keep 8388608 s { s with les := x } := by
  refine ⟨rfl, fun c => { c with les := h c }, Nat.le_refl _, fun i b => ?_⟩
  unfold samePart
  split <;> first | rfl | trivial | exact ⟨rfl, rfl⟩ | exact ⟨rfl, rfl, rfl⟩ | exact absurd b (by decide)

theorem Keep.set_les (s : State) (k) (x) : Keep 8388608 s { s with les := s.les.set (fun _ => .reset) k x } :=
  Keep.upd_les s (fun c => Store.set_wf c.les)

theorem Keep.clear_les (s : State) (p) : Keep 8388608 s { s with les := s.les.clear p } :=
  Keep.upd_les s (fun c => Store.clear_wf c.les)

theorem Keep.upd_pow (s : State) (x) : Keep 16777216 s { s with pow := x } := by
  refine ⟨rfl, fun c => { c with }, Nat.le_refl _, fun i b => ?_⟩
  unfold samePart
  split <;> first | rfl | trivial | exact ⟨rfl, rfl⟩ | exact ⟨rfl, rfl, rfl⟩ | exact absurd b (by decide)

theorem Keep.upd_cores (s : State) {x} (h : s.Canonical → Store.wf (fun _ => .reset) x = true) :
    Keep 33554432 s { s with cores := x } := by
  refine ⟨rfl, fun c => { c with cores := h c }, Nat.le_refl _, fun i b => ?_⟩
  unfold samePart
  split <;> first | rfl | trivial | exact ⟨rfl, rfl⟩ | exact ⟨rfl, rfl, rfl⟩ | exact absurd b (by decide)

theorem Keep.set_cores (s : State) (k) (x) : Keep 33554432 s { s with cores := s.cores.set (fun _ => .reset) k x } :=
  Keep.upd_cores s (fun c => Store.set_wf c.cores)

theorem Keep.clear_cores (s : State) (p) : Keep 33554432 s { s with cores := s.cores.clear p } :=
  Keep.upd_cores s (fun c => Store.clear_wf c.cores)

theorem Keep.upd_ecc (s : State) {x} (h : s.Canonical → Store.wf (fun _ => WordMark.good) x = true) :
    Keep 67108864 s { s with ecc := x } := by
  refine ⟨rfl, fun c => { c with ecc := h c }, Nat.le_refl _, fun i b => ?_⟩
  unfold samePart
  split <;> first | rfl | trivial | exact ⟨rfl, rfl⟩ | exact ⟨rfl, rfl, rfl⟩ | exact absurd b (by decide)

theorem Keep.set_ecc (s : State) (k) (x) : Keep 67108864 s { s with ecc := s.ecc.set (fun _ => .good) k x } :=
  Keep.upd_ecc s (fun c => Store.set_wf c.ecc)

theorem Keep.clear_ecc (s : State) (p) : Keep 67108864 s { s with ecc := s.ecc.clear p } :=
  Keep.upd_ecc s (fun c => Store.clear_wf c.ecc)

theorem Keep.upd_macros (s : State) {x} (h : s.Canonical → Store.wf (fun _ => .reset) x = true) :
    Keep 134217728 s { s with macros := x } := by
  refine ⟨rfl, fun c => { c with macros := h c }, Nat.le_refl _, fun i b => ?_⟩
  unfold samePart
  split <;> first | rfl | trivial | exact ⟨rfl, rfl⟩ | exact ⟨rfl, rfl, rfl⟩ | exact absurd b (by decide)

theorem Keep.set_macros (s : State) (k) (x) : Keep 134217728 s { s with macros := s.macros.set (fun _ => .reset) k x } :=
  Keep.upd_macros s (fun c => Store.set_wf c.macros)

theorem Keep.clear_macros (s : State) (p) : Keep 134217728 s { s with macros := s.macros.clear p } :=
  Keep.upd_macros s (fun c => Store.clear_wf c.macros)

theorem Keep.upd_flash (s : State) {x} (h : s.Canonical → Store.wf (fun _ => .reset) x = true) :
    Keep 268435456 s { s with flash := x } := by
  refine ⟨rfl, fun c => { c with flash := h c }, Nat.le_refl _, fun i b => ?_⟩
  unfold samePart
  split <;> first | rfl | trivial | exact ⟨rfl, rfl⟩ | exact ⟨rfl, rfl, rfl⟩ | exact absurd b (by decide)

theorem Keep.set_flash (s : State) (k) (x) : Keep 268435456 s { s with flash := s.flash.set (fun _ => .reset) k x } :=
  Keep.upd_flash s (fun c => Store.set_wf c.flash)

theorem Keep.clear_flash (s : State) (p) : Keep 268435456 s { s with flash := s.flash.clear p } :=
  Keep.upd_flash s (fun c => Store.clear_wf c.flash)

theorem Keep.upd_flashOps (s : State) {x} (h : s.Canonical → Store.wf (fun _ => none) x = true) :
    Keep 536870912 s { s with flashOps := x } := by
  refine ⟨rfl, fun c => { c with flashOps := h c }, Nat.le_refl _, fun i b => ?_⟩
  unfold samePart
  split <;> first | rfl | trivial | exact ⟨rfl, rfl⟩ | exact ⟨rfl, rfl, rfl⟩ | exact absurd b (by decide)

theorem Keep.set_flashOps (s : State) (k) (x) : Keep 536870912 s { s with flashOps := s.flashOps.set (fun _ => none) k x } :=
  Keep.upd_flashOps s (fun c => Store.set_wf c.flashOps)

theorem Keep.clear_flashOps (s : State) (p) : Keep 536870912 s { s with flashOps := s.flashOps.clear p } :=
  Keep.upd_flashOps s (fun c => Store.clear_wf c.flashOps)

theorem Keep.upd_dmas (s : State) {x} (h : s.Canonical → Store.wf (fun _ => .reset) x = true) :
    Keep 1073741824 s { s with dmas := x } := by
  refine ⟨rfl, fun c => { c with dmas := h c }, Nat.le_refl _, fun i b => ?_⟩
  unfold samePart
  split <;> first | rfl | trivial | exact ⟨rfl, rfl⟩ | exact ⟨rfl, rfl, rfl⟩ | exact absurd b (by decide)

theorem Keep.set_dmas (s : State) (k) (x) : Keep 1073741824 s { s with dmas := s.dmas.set (fun _ => .reset) k x } :=
  Keep.upd_dmas s (fun c => Store.set_wf c.dmas)

theorem Keep.clear_dmas (s : State) (p) : Keep 1073741824 s { s with dmas := s.dmas.clear p } :=
  Keep.upd_dmas s (fun c => Store.clear_wf c.dmas)

theorem Keep.upd_queues (s : State) {x} (h : s.Canonical → Store.wf (fun _ => .reset) x = true) :
    Keep 2147483648 s { s with queues := x } := by
  refine ⟨rfl, fun c => { c with queues := h c }, Nat.le_refl _, fun i b => ?_⟩
  unfold samePart
  split <;> first | rfl | trivial | exact ⟨rfl, rfl⟩ | exact ⟨rfl, rfl, rfl⟩ | exact absurd b (by decide)

theorem Keep.set_queues (s : State) (k) (x) : Keep 2147483648 s { s with queues := s.queues.set (fun _ => .reset) k x } :=
  Keep.upd_queues s (fun c => Store.set_wf c.queues)

theorem Keep.clear_queues (s : State) (p) : Keep 2147483648 s { s with queues := s.queues.clear p } :=
  Keep.upd_queues s (fun c => Store.clear_wf c.queues)

theorem Keep.upd_xmNow (s : State) (x) : Keep 4398046511104 s { s with xmNow := x } := by
  refine ⟨rfl, fun c => { c with }, Nat.le_refl _, fun i b => ?_⟩
  unfold samePart
  split <;> first | rfl | trivial | exact ⟨rfl, rfl⟩ | exact ⟨rfl, rfl, rfl⟩ | exact absurd b (by decide)

theorem Keep.upd_paths (s : State) {x} (h : s.Canonical → Store.wf (fun _ => .good) x = true) :
    Keep 8796093022208 s { s with paths := x } := by
  refine ⟨rfl, fun c => { c with paths := h c }, Nat.le_refl _, fun i b => ?_⟩
  unfold samePart
  split <;> first | rfl | trivial | exact ⟨rfl, rfl⟩ | exact ⟨rfl, rfl, rfl⟩ | exact absurd b (by decide)

theorem Keep.set_paths (s : State) (k) (x) : Keep 8796093022208 s { s with paths := s.paths.set (fun _ => .good) k x } :=
  Keep.upd_paths s (fun c => Store.set_wf c.paths)

theorem Keep.clear_paths (s : State) (p) : Keep 8796093022208 s { s with paths := s.paths.clear p } :=
  Keep.upd_paths s (fun c => Store.clear_wf c.paths)

theorem Keep.upd_pulses (s : State) {x} (h : s.Canonical → Store.wf (fun _ => 0) x = true) :
    Keep 17592186044416 s { s with pulses := x } := by
  refine ⟨rfl, fun c => { c with pulses := h c }, Nat.le_refl _, fun i b => ?_⟩
  unfold samePart
  split <;> first | rfl | trivial | exact ⟨rfl, rfl⟩ | exact ⟨rfl, rfl, rfl⟩ | exact absurd b (by decide)

theorem Keep.set_pulses (s : State) (k) (x) : Keep 17592186044416 s { s with pulses := s.pulses.set (fun _ => 0) k x } :=
  Keep.upd_pulses s (fun c => Store.set_wf c.pulses)

theorem Keep.clear_pulses (s : State) (p) : Keep 17592186044416 s { s with pulses := s.pulses.clear p } :=
  Keep.upd_pulses s (fun c => Store.clear_wf c.pulses)

theorem Keep.upd_net (s : State) (x) : Keep 8589934592 s { s with net := x } := by
  refine ⟨rfl, fun c => { c with }, Nat.le_refl _, fun i b => ?_⟩
  unfold samePart
  split <;> first | rfl | trivial | exact ⟨rfl, rfl⟩ | exact ⟨rfl, rfl, rfl⟩ | exact absurd b (by decide)

theorem Keep.upd_host (s : State) (x) : Keep 17179869184 s { s with host := x } := by
  refine ⟨rfl, fun c => { c with }, Nat.le_refl _, fun i b => ?_⟩
  unfold samePart
  split <;> first | rfl | trivial | exact ⟨rfl, rfl⟩ | exact ⟨rfl, rfl, rfl⟩ | exact absurd b (by decide)

theorem Keep.upd_serial (s : State) {x} (h : s.Canonical → Store.wf (fun _ => .reset) x = true) :
    Keep 34359738368 s { s with serial := x } := by
  refine ⟨rfl, fun c => { c with serial := h c }, Nat.le_refl _, fun i b => ?_⟩
  unfold samePart
  split <;> first | rfl | trivial | exact ⟨rfl, rfl⟩ | exact ⟨rfl, rfl, rfl⟩ | exact absurd b (by decide)

theorem Keep.set_serial (s : State) (k) (x) : Keep 34359738368 s { s with serial := s.serial.set (fun _ => .reset) k x } :=
  Keep.upd_serial s (fun c => Store.set_wf c.serial)

theorem Keep.clear_serial (s : State) (p) : Keep 34359738368 s { s with serial := s.serial.clear p } :=
  Keep.upd_serial s (fun c => Store.clear_wf c.serial)

theorem Keep.upd_tap (s : State) (x) : Keep 68719476736 s { s with tap := x } := by
  refine ⟨rfl, fun c => { c with }, Nat.le_refl _, fun i b => ?_⟩
  unfold samePart
  split <;> first | rfl | trivial | exact ⟨rfl, rfl⟩ | exact ⟨rfl, rfl, rfl⟩ | exact absurd b (by decide)

theorem Keep.upd_clk_rest (s : State) (x : ClockState) (h : x.beat = s.clk.beat ∧ x.tick = s.clk.tick ∧ x.dOfs = s.clk.dOfs ∧ x.dIsland = s.clk.dIsland ∧ x.era = s.clk.era ∧ x.seconds = s.clk.seconds ∧ x.sub = s.clk.sub) : Keep 256 s { s with clk := x } := by
  obtain ⟨h0, h1, h2, h3, h4, h5, h6⟩ := h
  refine ⟨rfl, fun c => { c with }, Nat.le_refl _, fun i b => ?_⟩
  unfold samePart
  split <;> first | rfl | trivial | exact ⟨rfl, rfl⟩ | exact ⟨rfl, rfl, rfl⟩ | exact absurd b (by decide) | exact ⟨h0, h1⟩ | exact ⟨h2, h3⟩ | exact ⟨h4, h5, h6⟩ | (cases x; cases s; cases h0; simp_all)

theorem Keep.upd_clk_beats (s : State) (x : ClockState) (h : x = { s.clk with beat := x.beat, tick := x.tick } ∧ True) : Keep 137438953472 s { s with clk := x } := by
  obtain ⟨h, -⟩ := h
  rw [h]
  refine ⟨rfl, fun c => { c with }, Nat.le_refl _, fun i b => ?_⟩
  unfold samePart
  split <;> first | rfl | trivial | exact ⟨rfl, rfl⟩ | exact ⟨rfl, rfl, rfl⟩ | exact absurd b (by decide)

theorem Keep.upd_clk_offset (s : State) (x : ClockState) (h : x = { s.clk with dOfs := x.dOfs, dIsland := x.dIsland } ∧ True) : Keep 274877906944 s { s with clk := x } := by
  obtain ⟨h, -⟩ := h
  rw [h]
  refine ⟨rfl, fun c => { c with }, Nat.le_refl _, fun i b => ?_⟩
  unfold samePart
  split <;> first | rfl | trivial | exact ⟨rfl, rfl⟩ | exact ⟨rfl, rfl, rfl⟩ | exact absurd b (by decide)

theorem Keep.upd_clk_calendar (s : State) (x : ClockState) (h : x = { s.clk with era := x.era, seconds := x.seconds, sub := x.sub } ∧ True) : Keep 549755813888 s { s with clk := x } := by
  obtain ⟨h, -⟩ := h
  rw [h]
  refine ⟨rfl, fun c => { c with }, Nat.le_refl _, fun i b => ?_⟩
  unfold samePart
  split <;> first | rfl | trivial | exact ⟨rfl, rfl⟩ | exact ⟨rfl, rfl, rfl⟩ | exact absurd b (by decide)

theorem Keep.upd_mp_rest (s : State) (x : MpState) (h : x.unlock = s.mp.unlock ∧ x.rollback = s.mp.rollback) : Keep 4294967296 s { s with mp := x } := by
  obtain ⟨h0, h1⟩ := h
  refine ⟨rfl, fun c => { c with }, Nat.le_of_eq h1.symm, fun i b => ?_⟩
  unfold samePart
  split <;> first | rfl | trivial | exact ⟨rfl, rfl⟩ | exact ⟨rfl, rfl, rfl⟩ | exact absurd b (by decide) | exact h0 | exact h1

theorem Keep.upd_mp_unlock (s : State) (x : MpState) (h : x = { s.mp with unlock := x.unlock } ∧ True) : Keep 1099511627776 s { s with mp := x } := by
  obtain ⟨h, -⟩ := h
  rw [h]
  refine ⟨rfl, fun c => { c with }, Nat.le_refl _, fun i b => ?_⟩
  unfold samePart
  split <;> first | rfl | trivial | exact ⟨rfl, rfl⟩ | exact ⟨rfl, rfl, rfl⟩ | exact absurd b (by decide)

theorem Keep.mk2 {α : Type} {w : Nat} {s t : State} {a : α} (h : Keep w s t) : Keep w s (a, t).2 := h

theorem Keep.mk3 {α β : Type} {w : Nat} {s t : State} {a : α} {b : β} (h : Keep w s t) : Keep w s (a, b, t).2.2 := h

theorem Keep.ofPair {α : Type} {w : Nat} {s t : State} {p : α × State} {a : α} (e : p = (a, t)) (h : Keep w s p.2) :
    Keep w s t := by
  subst e
  exact h

theorem Keep.ofTriple {α β : Type} {w : Nat} {s t : State} {p : α × β × State} {a : α} {b : β} (e : p = (a, b, t))
    (h : Keep w s p.2.2) : Keep w s t := by
  subst e
  exact h

/-- The same of an outcome: of the next state, if it is one. -/
def KeepO (w : Nat) (s : State) (o : Host.Outcome State Fault Refusal) : Prop := ∀ t, o = .next t → Keep w s t

theorem KeepO.next {w : Nat} {s t : State} (h : Keep w s t) : KeepO w s (.next t) := by
  intro u e
  cases e
  exact h

theorem KeepO.mono {v w : Nat} {s : State} {o : Host.Outcome State Fault Refusal} (h : KeepO v s o)
    (hw : (v ||| w == w) = true) : KeepO w s o := fun t e => (h t e).mono hw

end Sys2Proof.Machine
end

