-- ==== Sys2Proof/Laws/Status.lean ====
section
/-!
SUPPORT. Sequence-clear status registers (R4): what an event and a clearing write leave, and fields and bits of
registers after updates.
-/
set_option linter.unusedSimpArgs false
set_option linter.unusedVariables false
namespace Sys2Proof.Machine
open Sys2Proof

variable (s : State)

/-- The register after an event. -/
theorem State.reg_flagW_self (a : Nat) (w : Word) (h : w ≠ 0#32) :
    (s.flagW a w).reg a =
      if 128 ≤ s.scCount.get (fun _ => 0) a + 1 then
        setFld (s.reg a) 31 24 (fld (s.reg a) 31 24 + 1) ||| w ||| bitW 23
      else setFld (s.reg a) 31 24 (fld (s.reg a) 31 24 + 1) ||| w := by
  unfold State.flagW
  rw [if_neg h]
  show Store.get regReset a (Store.set regReset a _ s.regs) = _
  rw [Store.get_set, if_pos rfl]

theorem bitW_ne_zero {i : Nat} (h : i < 32) : bitW i ≠ 0#32 := by
  intro e
  have := congrArg (fun w => bit w i) e
  simp [bit_bitW, h, bit] at this
  rw [show (bitW i)[i] = bit (bitW i) i by simp [bit, h]] at this
  rw [bit_bitW i i h] at this
  simp at this

/-- An event sets its flag. -/
theorem State.rb_flag_self (a i : Nat) (h : i < 32) : (s.flag a i).rb a i = true := by
  unfold State.rb State.flag
  rw [State.reg_flagW_self _ _ _ (bitW_ne_zero h)]
  split <;> simp [bit_or, bit_bitW, h]

/-- An event sets no flag but its own, and MANY. -/
theorem State.rb_flag_other (a i j : Nat) (hi : i < 32) (hj : j < 23) (hij : j ≠ i) :
    (s.flag a i).rb a j = s.rb a j := by
  unfold State.rb State.flag
  rw [State.reg_flagW_self _ _ _ (bitW_ne_zero hi)]
  have h32 : j < 32 := by omega
  have h1 : ¬ (24 ≤ j ∧ j ≤ 31) := by omega
  have h2 : j ≠ 23 := by omega
  split <;> simp [bit_or, bit_bitW, h32, bit_setFld, h1, hij, h2]

/-- An event advances SEQ by one. -/
theorem State.seq_flag (a i : Nat) (h : i < 23) : (s.flag a i).rf a 31 24 = (s.rf a 31 24 + 1) % 256 := by
  unfold State.rf State.flag
  rw [State.reg_flagW_self _ _ _ (bitW_ne_zero (by omega))]
  apply Nat.eq_of_testBit_eq
  intro j
  have key : ∀ x : Word, (∀ k, 24 ≤ k → x.getLsbD k = false) →
      (fld (setFld (s.reg a) 31 24 (fld (s.reg a) 31 24 + 1) ||| x) 31 24).testBit j
        = ((fld (s.reg a) 31 24 + 1) % 256).testBit j := by
    intro x hx
    rw [testBit_fld, BitVec.getLsbD_or, getLsbD_setFld, hx (24 + j) (by omega), show (256 : Nat) = 2 ^ 8 from rfl,
      Nat.testBit_mod_two_pow]
    by_cases hj : j < 8
    · have : 24 + j < 32 := by omega
      have h2 : 24 ≤ 24 + j ∧ 24 + j ≤ 31 := by omega
      simp [hj, this, h2]
    · simp [hj]
  have hb : ∀ i k, i < 24 → 24 ≤ k → (bitW i).getLsbD k = false := by
    intro i k hi hk
    unfold bitW
    rw [getLsbD_w32, Nat.testBit_two_pow]
    have : i ≠ k := by omega
    simp [this]
  split
  · rw [BitVec.or_assoc]
    apply key
    intro k hk
    rw [BitVec.getLsbD_or, hb i k (by omega) hk, hb 23 k (by omega) hk]; rfl
  · apply key
    intro k hk
    exact hb i k (by omega) hk

/-- Fields and bits of a register after a store. -/
theorem State.rf_setReg (a : Nat) (v : Word) (b hi lo : Nat) :
    (s.setReg a v).rf b hi lo = if b = a then fld v hi lo else s.rf b hi lo := by
  unfold State.rf; rw [State.reg_setReg]; split <;> rfl

theorem State.rb_setReg (a : Nat) (v : Word) (b i : Nat) :
    (s.setReg a v).rb b i = if b = a then bit v i else s.rb b i := by
  unfold State.rb; rw [State.reg_setReg]; split <;> rfl

/-- A clearing write with the present SEQ clears every flag and keeps SEQ. -/
theorem State.scWrite_same (a : Nat) (v : Word) (h : fld v 31 24 = s.rf a 31 24) :
    (s.scWrite a v).reg a = s.reg a &&& maskW 31 24 := by
  unfold State.scWrite
  rw [if_pos h]
  show Store.get regReset a (Store.set regReset a _ s.regs) = _
  rw [Store.get_set, if_pos rfl]

/-- A clearing write with another SEQ changes nothing. -/
theorem State.scWrite_other (a : Nat) (v : Word) (h : fld v 31 24 ≠ s.rf a 31 24) : s.scWrite a v = s := by
  unfold State.scWrite
  rw [if_neg h]

/-- A clearing write leaves every other register. -/
theorem State.reg_scWrite_ne (a : Nat) (v : Word) {b : Nat} (h : b ≠ a) : (s.scWrite a v).reg b = s.reg b := by
  unfold State.scWrite
  split
  · show Store.get regReset b (Store.set regReset a _ s.regs) = _
    rw [Store.get_set, if_neg h]; rfl
  · rfl

end Sys2Proof.Machine
end

