-- ==== Sys2Proof/WellFormed.lean ====
section
/-!
DEFINITION. Well-formed commands: operands that the outside world can present. Numbers of units are bounded by their
types; the checks here are the bounds that the types leave open. The machine gives every command a meaning, whether it
is well formed or not.
-/
namespace Sys2Proof

/-- A CAN frame of ISO 11898-1 (R434): a base identifier has 11 bits; only an FD frame switches its bit rate, and an FD
frame is never a remote frame. -/
def CanFrame.wellFormed (f : CanFrame) : Bool :=
  (f.ide || decide (f.id.toNat < 2048)) && (f.fdf || !f.brs) && !(f.fdf && f.rtr)

/-- A decimation takes at least the floor of its filter: 16 samples of a sinc3, 4 of a sinc2 (R211, R213). -/
def decimates (least : Nat) (samples : List (Bool × Bool)) : Bool := decide (least ≤ samples.length)

/-- A Sweurn frame body: the largest frame has 9,216 bytes from DA to FCS, of which 18 are no body (R410, R414). -/
def bodyFits (body : List (BitVec 8)) : Bool := decide (body.length ≤ 9198)

/-- Well-formed commands. -/
def Instr.wellFormed : Instr → Bool
  | .canFrameReceive _ frame _ _ => frame.wellFormed
  | .conversionDone _ _ x => decide (0 < x.vref.toNat)
  | .sinc3Result _ _ samples => decimates 16 samples
  | .sinc2Result _ _ samples => decimates 4 samples
  | .cyclicTelegram _ _ body => bodyFits body
  | .acyclicTelegram _ _ body => bodyFits body
  | .ackTelegram _ _ body => bodyFits body
  | .discoverTelegram _ body => bodyFits body
  | .joinTelegram _ _ body => bodyFits body
  | .leaveTelegram _ _ body => bodyFits body
  | .i2cDone _ _ rx => decide (rx.length ≤ 255)
  | .hostMemoryWrite _ _ _ data => decide (0 < data.length)
  | .hostMemoryRead _ _ _ count => decide (0 < count.val)
  | _ => true

end Sys2Proof
end

