-- ==== Sys2Proof/Tests/Slice0.lean ====
section
/-!
SUPPORT. Tests: well-formedness refuses an ill-formed command for each of its checks; worked examples of the spec;
witnesses that the hypotheses of the statements can be met.
-/
set_option linter.unusedVariables false
namespace Sys2Proof.Tests
set_option maxRecDepth 20000
set_option Elab.async false
open Sys2Proof Sys2Proof.Machine

/-! ### Well-formedness refuses -/

theorem test_can_base_id_refused :
    Instr.wellFormed (.canFrameReceive 0 ⟨2048, false, false, false, false, 0, Vector.replicate 64 0⟩ true 0) = false := by
  decide

theorem test_can_brs_refused :
    Instr.wellFormed (.canFrameReceive 0 ⟨1, false, false, true, false, 0, Vector.replicate 64 0⟩ true 0) = false := by
  decide

theorem test_can_fd_remote_refused :
    Instr.wellFormed (.canFrameReceive 0 ⟨1, false, true, false, true, 0, Vector.replicate 64 0⟩ true 0) = false := by
  decide

theorem test_sinc3_few_refused : Instr.wellFormed (.sinc3Result 0 0 (List.replicate 15 (true, false))) = false := by decide

theorem test_sinc2_few_refused : Instr.wellFormed (.sinc2Result 0 0 (List.replicate 3 (true, false))) = false := by decide

theorem test_telegram_length_refused : bodyFits (List.replicate 9199 0) = false := by
  rw [bodyFits, List.length_replicate]; decide

/-! ### Witness states -/

/-- The row of the register map at an address. -/
def rowOf (a : Nat) : RegRow := (rowAt a).getD ⟨0, [], .ro, 0#32, 0#32⟩

/-- A device that has started: every island runs and is synchronised. -/
def base : State := { State.reset with
  islands := [(0, .running), (1, .running), (2, .running), (3, .running), (4, .running), (5, .running), (6, .running),
    (7, .running), (8, .running), (9, .running), (10, .running), (11, .running), (12, .running), (13, .running),
    (14, .running), (15, .running)]
  pow := { PowerState.reset with booting := false }
  regs := [(R.TB_ISLAND_SYNC, 0xFFFF#32)] }

/-- A device whose context `(n, m, c)` runs next a chain of one header, with the words of the header and of the parameters
from word 64. -/
def stageBase (n m c : Nat) (w p : List Word) : State :=
  { ((base.setReg (R.LE_RUN n m) (w32 (2 ^ c))).storeWords (descAddr n m 0) w).storeWords (descAddr n m 64) p with
    device := .run
    les := [(6 * n + m, { LeRec.reset with
      ctxs := (List.replicate 8 CtxRec.reset).set c { CtxRec.reset with phase := .runnable } })] }

/-- A device whose core `n` runs its slot 0 with the context `c`. -/
def coreBase (n : Nat) (c : CoreCtx) : State :=
  { ((base.setCoreRun n 1).setSlotCtx n 0 c) with device := .run }

theorem witness_front : ∃ (c : Instr) (rest : List Instr) (s : State), s.pending = c :: rest :=
  ⟨.rateIncrement, [.globalStart], { State.reset with pending := [.rateIncrement, .globalStart] }, rfl⟩

theorem witness_idle : ∃ s t : State, s.pending = [] ∧ s.due ≠ [] ∧ t.pending = [] ∧ t.due = [] :=
  ⟨{ State.reset with due := [.globalStart] }, State.reset, rfl, by decide, rfl, rfl⟩

theorem witness_canonical : ∃ s t : State, s.Canonical ∧ step s = .next t :=
  ⟨{ State.reset with due := [.globalStart] }, { State.reset with pending := [.globalStart], due := [] },
    by constructor <;> rfl, rfl⟩

theorem witness_RateAndDisciplineCommands_0 : ∃ (m : Master) (v : Word) (s : State) (r : RegRow),
    s.Writes m .tb r R.TB_RATE ∧ (s.discMode ≠ 2 ∨ s.domainOf m = 0) :=
  ⟨(.mp : Master), (0xFFFFFFFF#32 : Word), (base.setRf R.TB_DISC 1 0 1), rowOf (R.TB_RATE),
    by constructor <;> decide +kernel, by decide +kernel⟩

theorem witness_RateAndDisciplineCommands_2 : ∃ (m : Master) (v : Word) (s : State) (r : RegRow),
    s.Writes m .tb r R.TB_DISC :=
  ⟨(.mp : Master), (0xFFFFFFFF#32 : Word), (base), rowOf (R.TB_DISC),
    by constructor <;> decide +kernel⟩

theorem witness_RateAndDisciplineCommands_3 : ∃ (offset : BitVec 64) (rate : Word) (s : State),
    s.discMode = 2 ∧ s.awake = true :=
  ⟨(5#64 : BitVec 64), (0xFFFFFFFF#32 : Word), ((base.setRf R.TB_DISC 1 0 2).setRf R.TB_DISC 5 4 (((5#64 : BitVec 64)).toNat % 4)),
    by decide +kernel⟩

theorem witness_RateAndDisciplineCommands_4 : ∃ (s : State),
    s.discMode = 2 :=
  ⟨(base.setRf R.TB_DISC 1 0 2),
    by decide +kernel⟩

theorem witness_DeviceTimeStepCommands_0 : ∃ (m : Master) (v : Word) (s : State) (r : RegRow),
    s.Writes m .tb r R.TB_STEP_HI ∧ (s.discMode ≠ 2 ∨ s.domainOf m = 0) :=
  ⟨(.mp : Master), (0xFFFFFFFF#32 : Word), (base), rowOf (R.TB_STEP_HI),
    by constructor <;> decide +kernel, by decide +kernel⟩

theorem witness_DeviceTimeStepCommands_1 : ∃ (n : BitVec 64) (x : BitVec 64) (s : State),
    s.clk.step = some (n, x) ∧ serialGe s.clk.beat n = true :=
  ⟨(18446744073709551615#64 : BitVec 64), (18446744073709551615#64 : BitVec 64), ({ base with clk := { base.clk with beat := ((18446744073709551615#64 : BitVec 64)) + 3#64, step := some (((18446744073709551615#64 : BitVec 64)), ((18446744073709551615#64 : BitVec 64))) } }),
    by decide +kernel⟩

theorem witness_DeviceTimeStepCommands_2 : ∃ (n : Fin 16) (s : State),
    s.phase n.val = .running ∧ s.synced n.val = false ∧ s.device ≠ .watch ∧ s.device ≠ .backup :=
  ⟨(15 : Fin 16), (base.setRb R.TB_ISLAND_SYNC ((15 : Fin 16)).val false),
    by decide +kernel⟩

theorem witness_DeviceTimeStepCommands_3 : ∃ (n : Fin 16) (s : State),
    s.synced n.val = true :=
  ⟨(15 : Fin 16), (base),
    by decide +kernel⟩

theorem witness_GlobalStartRequests_0 : ∃ (m : Master) (v : Word) (s : State) (r : RegRow),
    s.Writes m .tb r R.TB_START_GO ∧ s.clk.start = none :=
  ⟨(.mp : Master), (0xFFFFFFFF#32 : Word), (base), rowOf (R.TB_START_GO),
    by constructor <;> decide +kernel, by decide +kernel⟩
theorem witness_GlobalStartRequests_1 : ∃ (m : Master) (v : Word) (s : State) (r : RegRow),
    s.Writes m .tb r R.TB_START_GO ∧ s.clk.start ≠ none :=
  ⟨(.mp : Master), (0xFFFFFFFF#32 : Word), ({ base with clk := { base.clk with start := some ⟨9, 1, 1, false⟩ } }), rowOf (R.TB_START_GO),
    by constructor <;> decide +kernel, by decide +kernel⟩
theorem witness_GlobalStartRequests_2 : ∃ (m : Master) (v : Word) (n : BitVec 64) (s : State) (r : RegRow),
    s.Writes m .tb r R.TB_START_AT_HI ∧ s.clk.start = none ∧ n = BitVec.ofNat 64 (pair64 v (s.reg R.TB_START_AT_LO)) :=
  ⟨(.mp : Master), (0#32 : Word), (0xFFFFFFFF#64 : BitVec 64), (base.setReg R.TB_START_AT_LO (w32 ((0xFFFFFFFF#64 : BitVec 64)).toNat)), rowOf (R.TB_START_AT_HI),
    by constructor <;> decide +kernel,
    by decide +kernel⟩
theorem witness_GlobalStartRequests_3 : ∃ (m : Master) (v : Word) (s : State) (r : RegRow),
    s.Writes m .tb r R.TB_START_AT_HI ∧ s.clk.start ≠ none :=
  ⟨(.mp : Master), (0xFFFFFFFF#32 : Word), ({ base with clk := { base.clk with start := some ⟨9, 1, 1, false⟩ } }), rowOf (R.TB_START_AT_HI),
    by constructor <;> decide +kernel, by decide +kernel⟩
theorem witness_GlobalStartRequests_4 : ∃ (m : Master) (v : Word) (q : StartReq) (s : State) (r : RegRow),
    s.Writes m .tb r R.TB_START_CANCEL ∧ s.clk.start = some q ∧ (q.rejected = true ∨ serialGe q.beat (s.clk.beat + 2) = true) :=
  ⟨(.mp : Master), (0xFFFFFFFF#32 : Word), (⟨2, 1, 1, false⟩ : StartReq), ({ base with clk := { base.clk with start := some ((⟨2, 1, 1, false⟩ : StartReq)) } }), rowOf (R.TB_START_CANCEL),
    by constructor <;> decide +kernel, by decide +kernel⟩
theorem witness_GlobalStartRequests_5 : ∃ (m : Master) (v : Word) (q : StartReq) (s : State) (r : RegRow),
    s.Writes m .tb r R.TB_START_CANCEL ∧ s.clk.start = some q ∧ q.rejected = false ∧ serialGe q.beat (s.clk.beat + 2) = false :=
  ⟨(.mp : Master), (0xFFFFFFFF#32 : Word), (⟨1, 1, 1, false⟩ : StartReq), ({ base with clk := { base.clk with start := some ((⟨1, 1, 1, false⟩ : StartReq)) } }), rowOf (R.TB_START_CANCEL),
    by constructor <;> decide +kernel, by decide +kernel⟩

theorem witness_GlobalStartRequests_6 : ∃ (m : Master) (v : Word) (s : State) (r : RegRow),
    s.Writes m .tb r R.TB_START_CANCEL ∧ s.clk.start = none :=
  ⟨(.mp : Master), (0xFFFFFFFF#32 : Word), (base), rowOf (R.TB_START_CANCEL),
    by constructor <;> decide +kernel, by decide +kernel⟩

theorem witness_CalendarCommands_0 : ∃ (m : Master) (v : Word) (s : State) (r : RegRow),
    s.Writes m .tb r R.CAL_SET_HI :=
  ⟨(.mp : Master), (0xFFFFFFFF#32 : Word), (base), rowOf (R.CAL_SET_HI),
    by constructor <;> decide +kernel⟩

theorem witness_CalendarCommands_1 : ∃ (s : State),
    s.clk.loadIn = some 0 :=
  ⟨({ base with clk := { base.clk with loadIn := some 0 } }),
    by decide +kernel⟩

theorem witness_CalendarCommands_4 : ∃ (s : State),
    s.clk.sub = 32767 :=
  ⟨({ base with clk := { base.clk with sub := 32767 } }),
    by decide +kernel⟩

theorem witness_CalendarCommands_5 : ∃ (m : Master) (a : Fin 4) (v : Word) (s : State) (r : RegRow),
    s.Writes m .tb r (R.CAL_ALARMa_CTRL a.val) :=
  ⟨(.mp : Master), (3 : Fin 4), (0xFFFFFFFF#32 : Word), (base), rowOf (R.CAL_ALARMa_CTRL ((3 : Fin 4)).val),
    by constructor <;> decide +kernel⟩

theorem witness_CalendarCommands_6 : ∃ (a : Fin 4) (s : State),
    s.alarmDue a = true :=
  ⟨(3 : Fin 4), (base.setReg (R.CAL_ALARMa_CTRL ((3 : Fin 4)).val) 0x80000000#32),
    by decide +kernel⟩

theorem witness_LeapOffsetTakesNext_0 : ∃ (s : State),
    s.reg R.CAL_LEAP_AT ≠ 0#32 ∧ (s.reg R.CAL_LEAP_AT).toNat = s.clk.seconds :=
  ⟨({ (base.setReg R.CAL_LEAP_AT 77#32) with clk := { base.clk with seconds := 77 } }),
    by decide +kernel⟩

theorem witness_LeapOffsetTakesNext_1 : ∃ (s : State),
    (s.reg R.CAL_LEAP_AT = 0#32 ∨ (s.reg R.CAL_LEAP_AT).toNat ≠ s.clk.seconds) :=
  ⟨(base),
    by decide +kernel⟩

theorem witness_MemoryAndRegisterAccesses_0 : ∃ (m : Master) (a v : Word) (s : State),
    s.acts m = true ∧ 0x20000000 ≤ a.toNat ∧ a.toNat < 0x21000000 ∧ a.toNat % 4 = 0 ∧ reaches m a.toNat = true ∧ s.pathTo a.toNat = .good :=
  ⟨(.mp : Master), (0x20FFFFFC#32 : Word), (0xFFFFFFFF#32 : Word), (base),
    by decide +kernel⟩
theorem witness_MemoryAndRegisterAccesses_1 : ∃ (m : Master) (a v : Word) (s : State),
    s.acts m = true ∧ 0x20000000 ≤ a.toNat ∧ a.toNat < 0x21000000 ∧ s.eccBad a.toNat = false ∧ reaches m a.toNat = true ∧ s.pathTo a.toNat = .good :=
  ⟨(.mp : Master), (0x20FFFFFF#32 : Word), (0xFFFFFFFF#32 : Word), (base),
    by decide +kernel⟩
theorem witness_MemoryAndRegisterAccesses_2 : ∃ (m : Master) (a : Word) (size : AccSize) (v : Word) (s : State),
    s.acts m = true ∧ reaches m a.toNat = false ∧ s.pathTo a.toNat = .good ∧ (m = .mp ∨ m = .net ∨ m = .debug) :=
  ⟨(.mp : Master), (0#32 : Word), (.word : AccSize), (0xFFFFFFFF#32 : Word), (base),
    by decide +kernel⟩
theorem witness_MemoryAndRegisterAccesses_3 : ∃ (m : Master) (a v : Word) (b : Blk) (r : RegRow) (s : State),
    s.acts m = true ∧ s.place m a.toNat = some (.register b r a.toNat) ∧ s.pathTo a.toNat = .good ∧ s.islandGone m a.toNat = false ∧ s.mayWriteReg (s.domainOf m) b r a.toNat = true ∧ a.toNat % 4 = 0 ∧ r.access = .sc ∧ s.blockTakes b = true :=
  ⟨(.mp : Master), (0x57000030#32 : Word), (0xFFFFFFFF#32 : Word), (.tb : Blk), (rowOf 0x57000030 : RegRow), (base),
    by decide +kernel⟩
theorem witness_MemoryAndRegisterAccesses_4 : ∃ (m : Master) (a : Word) (b : Blk) (r : RegRow) (s : State),
    s.acts m = true ∧ s.place m a.toNat = some (.register b r a.toNat) ∧ s.pathTo a.toNat = .good ∧ s.islandGone m a.toNat = false ∧ s.mayReadReg (s.domainOf m) b a.toNat = true ∧ a.toNat % 4 = 0 ∧ r.access = .ll ∧ portOf a.toNat = none :=
  ⟨(.mp : Master), (0x57000018#32 : Word), (.tb : Blk), (rowOf 0x57000018 : RegRow), (base),
    by decide +kernel⟩
theorem witness_MemoryAndRegisterAccesses_5 : ∃ (m : Master) (f : Fin 1024) (v mask new : Word) (fits : Bool) (s : State) (r : RegRow),
    s.Writes m .sys r (R.XM_FRAME_CFGf f.val) ∧ mask = (if s.domainOf m = 0 then 0xFFF03FFF#32 else 0x83F03FFF#32) ∧ new = (s.reg (R.XM_FRAME_CFGf f.val) &&& ~~~ mask) ||| (v &&& mask) ∧ fits = (decide (fld new 13 0 + fld new 25 20 ≤ 16383) && !(bit new 31 && s.xmFrames.any (fun k => k != f.val && runsMeet (fld new 13 0) (fld new 13 0 + fld new 25 20) (s.xmBase k) (s.xmLast k)))) :=
  ⟨.mp, 1023, 0x80000000#32, 0xFFF03FFF#32, 0x80000000#32, true, base, rowOf (R.XM_FRAME_CFGf 1023),
    by constructor <;> decide +kernel, by decide +kernel⟩
theorem witness_StagingAndDirectWrites_0 : ∃ (m : Master) (a v : Word) (x i : Nat) (s : State),
    s.acts m = true ∧ s.place m a.toNat = some (.staging x) ∧ s.pathTo a.toNat = .good ∧ s.islandGone m a.toNat = false ∧ a.toNat % 4 = 0 ∧ s.mayStage (s.domainOf m) x = true ∧ s.stagingDrops x = false ∧ s.openSlot (s.domainOf m) = some i ∧ isEB x = true :=
  ⟨(.mp : Master), (0x40A00018#32 : Word), (0xFFFFFFFF#32 : Word), (0x40200018 : Nat), (0 : Nat), (base.setReg (R.EP_SLOTs_STATE 0) (w32 (1 * 2^16 + 1))),
    by decide +kernel⟩
theorem witness_StagingAndDirectWrites_1 : ∃ (m : Master) (a v : Word) (x : Nat) (s : State),
    s.acts m = true ∧ s.place m a.toNat = some (.staging x) ∧ s.pathTo a.toNat = .good ∧ s.islandGone m a.toNat = false ∧ a.toNat % 4 = 0 ∧ s.mayStage (s.domainOf m) x = true ∧ s.stagingDrops x = false ∧ s.openSlot (s.domainOf m) = none :=
  ⟨(.mp : Master), (0x4FA00018#32 : Word), (0xFFFFFFFF#32 : Word), (0x4F200018 : Nat), (base),
    by decide +kernel⟩
theorem witness_StagingAndDirectWrites_2 : ∃ (m : Master) (a v : Word) (b : Blk) (r : RegRow) (s : State),
    s.acts m = true ∧ s.place m a.toNat = some (.register b r a.toNat) ∧ s.pathTo a.toNat = .good ∧ s.islandGone m a.toNat = false ∧ s.mayWriteReg (s.domainOf m) b r a.toNat = true ∧ a.toNat % 4 = 0 ∧ r.access = .eb ∧ s.blockTakes b = true ∧ s.ebRuns b a.toNat = false ∧ s.entryAt a.toNat = none :=
  ⟨(.mp : Master), (0x40200018#32 : Word), (0xFFFFFFFF#32 : Word), (.tu 0 0 : Blk), (rowOf 0x40200018 : RegRow), (base),
    by decide +kernel⟩
theorem witness_StagingAndDirectWrites_3 : ∃ (m : Master) (a v : Word) (b : Blk) (r : RegRow) (s : State),
    s.acts m = true ∧ s.place m a.toNat = some (.register b r a.toNat) ∧ s.pathTo a.toNat = .good ∧ s.islandGone m a.toNat = false ∧ s.mayWriteReg (s.domainOf m) b r a.toNat = true ∧ a.toNat % 4 = 0 ∧ r.access = .eb ∧ s.blockTakes b = true ∧ (s.ebRuns b a.toNat = true ∨ s.entryAt a.toNat ≠ none) :=
  ⟨(.mp : Master), (0x40200018#32 : Word), (0xFFFFFFFF#32 : Word), (.tu 0 0 : Blk), (rowOf 0x40200018 : RegRow), ({ base with ep := { base.ep with entries := [⟨0, ((0x40200018#32 : Word)).toNat, 0#32, false⟩] } }),
    by decide +kernel⟩
theorem witness_EpochRequests_0 : ∃ (m : Master) (i : Nat) (s : State) (r : RegRow),
    s.Reads m .ep r R.EP_OPEN ∧ s.openSlot (s.domainOf m) = none ∧ (List.range 4).find? (fun k => s.slotState k == 0) = some i ∧ 1 ≤ s.ep.nextId ∧ s.ep.nextId ≤ 65535 ∧ s.domainOf m < 16 :=
  ⟨(.mp : Master), (0 : Nat), (base), rowOf (R.EP_OPEN),
    by constructor <;> decide +kernel,
    by decide +kernel⟩

theorem witness_EpochRequests_1 : ∃ (m : Master) (s : State) (r : RegRow),
    s.Reads m .ep r R.EP_OPEN ∧ (s.openSlot (s.domainOf m)).isSome = true :=
  ⟨(.mp : Master), ((base.setReg (R.EP_SLOTs_STATE 0) (w32 (base.domainOf ((.mp : Master)) * 2^20 + 1 * 2^16 + 7)))), rowOf (R.EP_OPEN),
    by constructor <;> decide +kernel, by decide +kernel⟩

theorem witness_EpochRequests_2 : ∃ (m : Master) (s : State) (r : RegRow),
    s.Reads m .ep r R.EP_OPEN ∧ s.openSlot (s.domainOf m) = none ∧ (List.range 4).all (fun k => s.slotState k != 0) = true :=
  ⟨(.mp : Master), ((((base.setReg (R.EP_SLOTs_STATE 0) 0x20001#32).setReg (R.EP_SLOTs_STATE 1) 0x20002#32).setReg (R.EP_SLOTs_STATE 2) 0x20003#32).setReg (R.EP_SLOTs_STATE 3) 0x20004#32), rowOf (R.EP_OPEN),
    by constructor <;> decide +kernel,
    by decide +kernel⟩

theorem witness_EpochRequests_3 : ∃ (m : Master) (v : Word) (i : Nat) (s : State) (r : RegRow),
    s.Writes m .ep r R.EP_STAGE ∧ s.slotOfId (fld v 15 0) = some i ∧ s.slotOpener i = s.domainOf m :=
  ⟨(.mp : Master), (0xFFFFFFFF#32 : Word), (3 : Nat), ((base.setReg (R.EP_SLOTs_STATE ((3 : Nat))) (w32 (base.domainOf ((.mp : Master)) * 2^20 + 1 * 2^16 + fld ((0xFFFFFFFF#32 : Word)) 15 0)))), rowOf (R.EP_STAGE),
    by constructor <;> decide +kernel,
    by decide +kernel⟩

theorem witness_EpochRequests_4 : ∃ (m : Master) (slot : Fin 4) (v : Word) (n : BitVec 64) (s : State) (r : RegRow),
    s.Writes m .ep r (R.EP_SLOTs_AT_HI slot.val) ∧ s.slotState slot.val = 2 ∧ s.slotOpener slot.val = s.domainOf m ∧ n = BitVec.ofNat 64 (pair64 v (s.reg (R.EP_SLOTs_AT_LO slot.val))) :=
  ⟨(.mp : Master), (3 : Fin 4), (0#32 : Word), (1#64 : BitVec 64), (((base.setReg (R.EP_SLOTs_STATE ((3 : Fin 4)).val) (w32 (base.domainOf ((.mp : Master)) * 2^20 + 2 * 2^16 + 1)))).setReg (R.EP_SLOTs_AT_LO ((3 : Fin 4)).val) (w32 ((1#64 : BitVec 64)).toNat)), rowOf (R.EP_SLOTs_AT_HI ((3 : Fin 4)).val),
    by constructor <;> decide +kernel,
    by decide +kernel⟩

theorem witness_EpochRequests_5 : ∃ (m : Master) (v : Word) (i : Nat) (s : State) (r : RegRow),
    s.Writes m .ep r R.EP_HAUL_GO ∧ s.slotOfId (fld v 15 0) = some i ∧ s.slotOpener i = s.domainOf m ∧ s.slotState i = 2 :=
  ⟨(.mp : Master), (0xFFFFFFFF#32 : Word), (3 : Nat), ((base.setReg (R.EP_SLOTs_STATE ((3 : Nat))) (w32 (base.domainOf ((.mp : Master)) * 2^20 + 2 * 2^16 + fld ((0xFFFFFFFF#32 : Word)) 15 0)))), rowOf (R.EP_HAUL_GO),
    by constructor <;> decide +kernel,
    by decide +kernel⟩

theorem witness_EpochRequests_6 : ∃ (m : Master) (v : Word) (i : Nat) (s : State) (r : RegRow),
    s.Writes m .ep r R.EP_HAUL_GO ∧ s.slotOfId (fld v 15 0) = some i ∧ s.slotOpener i = s.domainOf m ∧ s.slotState i = 1 :=
  ⟨(.mp : Master), (0xFFFFFFFF#32 : Word), (3 : Nat), ((base.setReg (R.EP_SLOTs_STATE ((3 : Nat))) (w32 (base.domainOf ((.mp : Master)) * 2^20 + 1 * 2^16 + fld ((0xFFFFFFFF#32 : Word)) 15 0)))), rowOf (R.EP_HAUL_GO),
    by constructor <;> decide +kernel,
    by decide +kernel⟩

theorem witness_EpochRequests_7 : ∃ (m : Master) (v : Word) (i : Nat) (s : State) (r : RegRow),
    s.Writes m .ep r R.EP_HAUL_GO ∧ s.slotOfId (fld v 15 0) = some i ∧ s.slotOpener i = s.domainOf m ∧ 3 ≤ s.slotState i :=
  ⟨(.mp : Master), (0xFFFFFFFF#32 : Word), (3 : Nat), ((base.setReg (R.EP_SLOTs_STATE ((3 : Nat))) (w32 (base.domainOf ((.mp : Master)) * 2^20 + 4 * 2^16 + fld ((0xFFFFFFFF#32 : Word)) 15 0)))), rowOf (R.EP_HAUL_GO),
    by constructor <;> decide +kernel,
    by decide +kernel⟩

theorem witness_EpochRequests_8 : ∃ (m : Master) (v : Word) (i : Nat) (s : State) (r : RegRow),
    s.Writes m .ep r R.EP_ABANDON ∧ s.slotOfId (fld v 15 0) = some i ∧ s.slotOpener i = s.domainOf m ∧ (s.slotState i = 1 ∨ s.slotState i = 2 ∨ (s.slotState i = 3 ∧ serialGe (s.ep.armedAt.get (fun _ => 0#64) i) (s.clk.beat + 2) = true)) :=
  ⟨(.mp : Master), (0xFFFFFFFF#32 : Word), (3 : Nat), ((base.setReg (R.EP_SLOTs_STATE ((3 : Nat))) (w32 (base.domainOf ((.mp : Master)) * 2^20 + 2 * 2^16 + fld ((0xFFFFFFFF#32 : Word)) 15 0)))), rowOf (R.EP_ABANDON),
    by constructor <;> decide +kernel,
    by decide +kernel⟩

theorem witness_EpochRequests_9 : ∃ (m : Master) (v : Word) (i : Nat) (s : State) (r : RegRow),
    s.Writes m .ep r R.EP_ABANDON ∧ s.slotOfId (fld v 15 0) = some i ∧ s.slotOpener i = s.domainOf m ∧ (s.slotState i = 4 ∨ (s.slotState i = 3 ∧ serialGe (s.ep.armedAt.get (fun _ => 0#64) i) (s.clk.beat + 2) = false)) :=
  ⟨(.mp : Master), (0xFFFFFFFF#32 : Word), (3 : Nat), ((base.setReg (R.EP_SLOTs_STATE ((3 : Nat))) (w32 (base.domainOf ((.mp : Master)) * 2^20 + 4 * 2^16 + fld ((0xFFFFFFFF#32 : Word)) 15 0)))), rowOf (R.EP_ABANDON),
    by constructor <;> decide +kernel,
    by decide +kernel⟩

theorem witness_EpochRequests_10 : ∃ (slot : Fin 4) (s : State),
    s.slotState slot.val = 5 :=
  ⟨(3 : Fin 4), (base.setReg (R.EP_SLOTs_STATE ((3 : Fin 4)).val) 0x50001#32),
    by decide +kernel⟩

theorem witness_HaulDownsAndSnapshots_0 : ∃ (slot : Fin 4) (s : State),
    s.slotState slot.val = 3 ∧ serialGe s.clk.beat (s.ep.armedAt.get (fun _ => 0#64) slot.val) = true :=
  ⟨(3 : Fin 4), (base.setReg (R.EP_SLOTs_STATE ((3 : Fin 4)).val) 0x30001#32),
    by decide +kernel⟩

theorem witness_HaulDownsAndSnapshots_1 : ∃ (n : Fin 16) (s : State),
    s.synced n.val = true ∧ s.ep.unsync.any (fun u => u.1 == n.val && serialGe s.clk.beat u.2) = true :=
  ⟨(15 : Fin 16), ({ base with ep := { base.ep with unsync := [(((15 : Fin 16)).val, base.clk.beat)] } }),
    by decide +kernel⟩

theorem witness_HaulDownsAndSnapshots_2 : ∃ (m : Master) (v : Word) (s : State) (r : RegRow),
    s.Writes m .ep r R.SN_COUNT ∧ (s.rb R.SN_STATE 31 || s.rb R.SN_STATE 30) = false ∧ fld v 13 0 ≤ 8192 :=
  ⟨(.mp : Master), (8192#32 : Word), (base), rowOf (R.SN_COUNT),
    by constructor <;> decide +kernel,
    by decide +kernel⟩

theorem witness_HaulDownsAndSnapshots_3 : ∃ (m : Master) (v : Word) (s : State) (r : RegRow),
    s.Writes m .ep r R.SN_COUNT ∧ (s.rb R.SN_STATE 31 || s.rb R.SN_STATE 30) = true :=
  ⟨(.mp : Master), (0xFFFFFFFF#32 : Word), (base.setRb R.SN_STATE 31 true), rowOf (R.SN_COUNT),
    by constructor <;> decide +kernel, by decide +kernel⟩

theorem witness_HaulDownsAndSnapshots_4 : ∃ (m : Master) (v : Word) (s : State) (r : RegRow),
    s.Writes m .ep r R.SN_LOAD ∧ (s.rb R.SN_STATE 31 || s.rb R.SN_STATE 30) = false :=
  ⟨(.mp : Master), (0xFFFFFFFF#32 : Word), (base), rowOf (R.SN_LOAD),
    by constructor <;> decide +kernel, by decide +kernel⟩

theorem witness_HaulDownsAndSnapshots_5 : ∃ (s : State),
    s.snap.loading = true :=
  ⟨({ base with snap := { base.snap with loading := true } }),
    by decide +kernel⟩

theorem witness_HaulDownsAndSnapshots_6 : ∃ (m : Master) (v : Word) (s : State) (r : RegRow),
    s.Writes m .ep r R.SN_GO ∧ (s.rb R.SN_STATE 31 || s.rb R.SN_STATE 30) = false ∧ s.rb R.SN_STATE 28 = true :=
  ⟨(.mp : Master), (0xFFFFFFFF#32 : Word), (base.setReg R.SN_STATE 0x10000000#32), rowOf (R.SN_GO),
    by constructor <;> decide +kernel,
    by decide +kernel⟩

theorem witness_HaulDownsAndSnapshots_7 : ∃ (m : Master) (v : Word) (s : State) (r : RegRow),
    s.Writes m .ep r R.SN_GO ∧ (s.rb R.SN_STATE 31 || s.rb R.SN_STATE 30) = false ∧ s.rb R.SN_STATE 28 = false :=
  ⟨(.mp : Master), (0xFFFFFFFF#32 : Word), (base), rowOf (R.SN_GO),
    by constructor <;> decide +kernel,
    by decide +kernel⟩

theorem witness_HaulDownsAndSnapshots_8 : ∃ (m : Master) (v : Word) (n : BitVec 64) (s : State) (r : RegRow),
    s.Writes m .ep r R.SN_AT_HI ∧ (s.rb R.SN_STATE 31 || s.rb R.SN_STATE 30) = false ∧ s.rb R.SN_STATE 28 = true ∧ n = BitVec.ofNat 64 (pair64 v (s.reg R.SN_AT_LO)) :=
  ⟨(.mp : Master), (0#32 : Word), (1#64 : BitVec 64), ((base.setReg R.SN_STATE 0x10000000#32).setReg R.SN_AT_LO (w32 ((1#64 : BitVec 64)).toNat)), rowOf (R.SN_AT_HI),
    by constructor <;> decide +kernel,
    by decide +kernel⟩

theorem witness_HaulDownsAndSnapshots_9 : ∃ (m : Master) (v : Word) (s : State) (r : RegRow),
    s.Writes m .ep r R.SN_CANCEL ∧ s.rb R.SN_STATE 31 = true ∧ (s.snap.rejected = true ∨ serialGe s.snap.armedAt (s.clk.beat + 2) = true) :=
  ⟨(.mp : Master), (0xFFFFFFFF#32 : Word), ({ base.setReg R.SN_STATE 0x80000000#32 with snap := { base.snap with armedAt := base.clk.beat + 2 } }), rowOf (R.SN_CANCEL),
    by constructor <;> decide +kernel,
    by decide +kernel⟩

theorem witness_HaulDownsAndSnapshots_10 : ∃ (m : Master) (v : Word) (s : State) (r : RegRow),
    s.Writes m .ep r R.SN_CANCEL ∧ s.rb R.SN_STATE 31 = true ∧ s.snap.rejected = false ∧ serialGe s.snap.armedAt (s.clk.beat + 2) = false :=
  ⟨(.mp : Master), (0xFFFFFFFF#32 : Word), ({ base.setReg R.SN_STATE 0x80000000#32 with snap := { base.snap with armedAt := base.clk.beat + 1 } }), rowOf (R.SN_CANCEL),
    by constructor <;> decide +kernel,
    by decide +kernel⟩

theorem witness_HaulDownsAndSnapshots_11 : ∃ (s : State),
    s.rb R.SN_STATE 31 = true ∧ s.snap.rejected = false ∧ serialGe s.clk.beat s.snap.armedAt = true :=
  ⟨({ base.setReg R.SN_STATE 0x90000000#32 with snap := { base.snap with armedAt := base.clk.beat, list := [0x57000010#32] } }),
    by decide +kernel⟩

theorem witness_HaulDownsAndSnapshots_12 : ∃ (s : State),
    s.rb R.SN_STATE 30 = true :=
  ⟨(base.setReg R.SN_STATE 0x40000000#32),
    by decide +kernel⟩

theorem witness_FabricCommands_0 : ∃ (m : Master) (v : Word) (p : Nat) (s : State) (r : RegRow),
    s.Writes m .fb r R.FB_FIRE ∧ firedPennant v = some p ∧ s.owns (s.domainOf m) (pnOwner p) = true ∧ (s.ownerSec (pnOwner p) = true → s.domSecure (s.domainOf m) = true) ∧ s.rb (pnCtrl p) 31 = true ∧ s.gated p = false ∧ s.standsHigh p = false ∧ (p < 1024 → s.islandReachable (p / 64) = true) :=
  ⟨(.mp : Master), (0x800003FF#32 : Word), (2047 : Nat), ((base.setRb (pnCtrl ((2047 : Nat))) 31 true)), rowOf (R.FB_FIRE),
    by constructor <;> decide +kernel, by decide +kernel⟩
theorem witness_FabricCommands_1 : ∃ (m : Master) (v : Word) (p : Nat) (s : State) (r : RegRow),
    s.Writes m .fb r R.FB_FIRE ∧ firedPennant v = some p ∧ s.owns (s.domainOf m) (pnOwner p) = false :=
  ⟨(.mp : Master), (0x800003FF#32 : Word), (2047 : Nat), (base.setReg (pnOwner ((2047 : Nat))) 5#32), rowOf (R.FB_FIRE),
    by constructor <;> decide +kernel,
    by decide +kernel⟩
theorem witness_FabricCommands_2 : ∃ (m : Master) (v : Word) (p : Nat) (s : State) (r : RegRow),
    s.Writes m .fb r R.FB_FIRE ∧ firedPennant v = some p ∧ s.owns (s.domainOf m) (pnOwner p) = true ∧ (s.ownerSec (pnOwner p) = true → s.domSecure (s.domainOf m) = true) ∧ (s.rb (pnCtrl p) 31 = false ∨ s.gated p = true ∨ s.standsHigh p = true) :=
  ⟨(.mp : Master), (0x800003FF#32 : Word), (2047 : Nat), (base), rowOf (R.FB_FIRE),
    by constructor <;> decide +kernel, by decide +kernel⟩
theorem witness_FabricCommands_3 : ∃ (p : Fin 2048) (level fired : Bool) (s : State),
    s.rb (pnCtrl p.val) 31 = true ∧ s.gated p.val = false ∧ s.segRuns p.val = true ∧ (fired = false → s.srcHeld p.val = false) ∧ s.presented p.val ≠ (level || s.firing p.val) :=
  ⟨2047, true, true, base.setRb (pnCtrl 2047) 31 true,
    by decide +kernel⟩
theorem witness_FabricCommands_4 : ∃ (p : Fin 2048) (level fired : Bool) (s : State),
    (fired = false → ∀ g : Nat, s.selection p.val = .source g → ballSource g = false) ∧ (s.rb (pnCtrl p.val) 31 = false ∨ s.gated p.val = true ∨ (fired = false ∧ s.srcHeld p.val = true) ∨ s.presented p.val = (level || s.firing p.val)) :=
  ⟨2047, false, true, base,
    (by intro h; cases h), by decide +kernel⟩
theorem witness_FabricCommands_5 : ∃ (h : Fin 512) (s : State),
    s.rf (hsCfg h.val) 24 23 = 2 ∧ s.rb (hsState h.val) 29 = false ∧ s.rf (hsCfg h.val) 21 10 + 2 ≤ s.hoistCount h.val :=
  ⟨511, let s := (base.setReg (hsCfg 511) 0x01000000#32).setReg (hsState 511) 0x40000000#32; { s with fab := { s.fab with counts := [(511, 2)] } },
    by decide +kernel⟩
theorem witness_FabricCommands_6 : ∃ (h : Fin 512) (s : State),
    (s.rf (hsCfg h.val) 24 23 ≠ 2 ∨ s.hoistCount h.val < s.rf (hsCfg h.val) 21 10 + 2) :=
  ⟨511, base,
    by decide +kernel⟩

theorem witness_FabricCommands_7 : ∃ (m : Master) (k : Fin 128) (v : Word) (s : State) (r : RegRow),
    s.Writes m .fb r (R.FB_SSs_CTRL k.val) :=
  ⟨(.mp : Master), (127 : Fin 128), (0xFFFFFFFF#32 : Word), (base), rowOf (R.FB_SSs_CTRL ((127 : Fin 128)).val),
    by constructor <;> decide +kernel⟩

theorem witness_LinkClockAndSupplyFaults_0 : ∃ (l : Fin 32) (s : State),
    (s.link l.val).timedOut = false ∧ (s.link l.val).retired = false :=
  ⟨(31 : Fin 32), (base),
    by decide +kernel⟩
theorem witness_LinkClockAndSupplyFaults_1 : ∃ (l : Fin 32) (s : State),
    ((s.link l.val).timedOut = true ∨ (s.link l.val).retired = true) :=
  ⟨(31 : Fin 32), ({ base with links := [(((31 : Fin 32)).val, ⟨false, true⟩)] }),
    by decide +kernel⟩
theorem witness_LinkClockAndSupplyFaults_2 : ∃ (l : Fin 32) (passed : Bool) (s : State),
    (s.link l.val).timedOut = true :=
  ⟨(31 : Fin 32), (true : Bool), ({ base with links := [(((31 : Fin 32)).val, ⟨true, false⟩)] }),
    by decide +kernel⟩
theorem witness_LinkClockAndSupplyFaults_3 : ∃ (s : State),
    s.device ≠ .backup ∧ s.clk.clockFault = false :=
  ⟨(base),
    by decide +kernel⟩
theorem witness_LinkClockAndSupplyFaults_4 : ∃ (s : State),
    s.clk.clockFault = true :=
  ⟨({ base with clk := { base.clk with clockFault := true } }),
    by decide +kernel⟩
theorem witness_LinkClockAndSupplyFaults_5 : ∃ (n : Fin 16) (s : State),
    s.islandRuns n.val = true ∧ s.rb (R.IC_STATE n.val) 31 = true :=
  ⟨(15 : Fin 16), (base.setRb (R.IC_STATE ((15 : Fin 16)).val) 31 true),
    by decide +kernel⟩
theorem witness_LinkClockAndSupplyFaults_6 : ∃ (rail : Fin 16) (mv : Word) (s : State),
    rail.val < 11 ∧ s.faults.rails.contains rail = false ∧ s.device ≠ .backup ∧ railOutside rail.val mv.toNat = true :=
  ⟨(10 : Fin 16), (0xFFFFFFFF#32 : Word), (base),
    by decide +kernel⟩
theorem witness_LinkClockAndSupplyFaults_7 : ∃ (rail : Fin 16) (mv : Word) (s : State),
    railOutside rail.val mv.toNat = false :=
  ⟨10, 1700#32, base,
    by decide +kernel⟩

theorem witness_LinkClockAndSupplyFaults_8 : ∃ (rail : Fin 16) (s : State),
    s.faults.rails.contains rail = true :=
  ⟨(15 : Fin 16), ({ base with faults := { base.faults with rails := [((15 : Fin 16)), 3] } }),
    by decide +kernel⟩

theorem witness_FaultCollectorCommands_0 : ∃ (source : Fin 8192) (reporter : Fin 8192) (cause : BitVec 8) (detail : Word) (s : State),
    s.device ≠ .watch ∧ sourceListed source.val = true ∧ sourceListed reporter.val = true ∧ causeSeverity cause.toNat ≠ 0 ∧ s.newIncident (s.faultRec source.val) = true :=
  ⟨(0x118 : Fin 8192), (0x1F0 : Fin 8192), (0x18#8 : BitVec 8), (0xFFFFFFFF#32 : Word), (base),
    by decide +kernel⟩
theorem witness_FaultCollectorCommands_1 : ∃ (source : Fin 8192) (reporter : Fin 8192) (cause : BitVec 8) (detail : Word) (s : State),
    s.device ≠ .watch ∧ sourceListed source.val = true ∧ sourceListed reporter.val = true ∧ causeSeverity cause.toNat ≠ 0 ∧ s.newIncident (s.faultRec source.val) = false :=
  ⟨(0x118 : Fin 8192), (0x1F0 : Fin 8192), (0x18#8 : BitVec 8), (0xFFFFFFFF#32 : Word), ({ base with faults := { base.faults with recs := [(((0x118 : Fin 8192)).val, ⟨false, false, true, 1, 1, 5, 2, 1, 7, 7#32, 3, 3, 9#32, base.clk.beat - 20#64⟩)] } }),
    by decide +kernel⟩
theorem witness_FaultCollectorCommands_2 : ∃ (source : Fin 8192) (reporter : Fin 8192) (cause : BitVec 8) (detail : Word) (s : State),
    s.device = .watch :=
  ⟨(8191 : Fin 8192), (8191 : Fin 8192), (255#8 : BitVec 8), (0xFFFFFFFF#32 : Word), ({ base with device := .watch }),
    by decide +kernel⟩
theorem witness_FaultCollectorCommands_3 : ∃ (m : Master) (v : Word) (x : Nat) (s : State) (r : RegRow),
    s.Writes m .fc r R.FC_ACK ∧ x = fld v 12 0 ∧ (s.faultRec x).isOpen = true :=
  ⟨(.mp : Master), (0xFFFFFFFF#32 : Word), (8191 : Nat), ({ base with faults := { base.faults with recs := [(((8191 : Nat)), ⟨false, true, true, 3, 9, 5, 2, 1, 7, 7#32, 3, 3, 9#32, 0#64⟩)] } }), rowOf (R.FC_ACK),
    by constructor <;> decide +kernel,
    by decide +kernel⟩
theorem witness_FaultCollectorCommands_4 : ∃ (m : Master) (v : Word) (s : State) (r : RegRow),
    s.Writes m .fc r R.FC_ACK ∧ (s.faultRec (fld v 12 0)).isOpen = false :=
  ⟨(.mp : Master), (0xFFFFFFFF#32 : Word), (base), rowOf (R.FC_ACK),
    by constructor <;> decide +kernel, by decide +kernel⟩
theorem witness_FaultCollectorCommands_5 : ∃ (m : Master) (v : Word) (x : Nat) (s : State) (r : RegRow),
    s.Writes m .fc r R.FC_RESTORE ∧ x = fld v 12 0 ∧ s.rb R.FC_RESTORE_STATE 31 = false :=
  ⟨(.mp : Master), (8191#32 : Word), (8191 : Nat), (base), rowOf (R.FC_RESTORE),
    by constructor <;> decide +kernel,
    by decide +kernel⟩
theorem witness_FaultCollectorCommands_6 : ∃ (m : Master) (v : Word) (s : State) (r : RegRow),
    s.Writes m .fc r R.FC_RESTORE ∧ s.rb R.FC_RESTORE_STATE 31 = true :=
  ⟨(.mp : Master), (0xFFFFFFFF#32 : Word), (base.setRb R.FC_RESTORE_STATE 31 true), rowOf (R.FC_RESTORE),
    by constructor <;> decide +kernel, by decide +kernel⟩
theorem witness_FaultCollectorCommands_7 : ∃ (test : Fin 7) (x : Nat) (s : State),
    s.rb R.FC_RESTORE_STATE 31 = true ∧ x = s.rf R.FC_RESTORE_STATE 28 16 ∧ test ≠ 0 ∧ (x < 0x60 ∨ 0xA0 ≤ x) :=
  ⟨(6 : Fin 7), (0x100 : Nat), (base.setReg R.FC_RESTORE_STATE (w32 (2^31 + ((0x100 : Nat)) * 2^16))),
    by decide +kernel⟩
theorem witness_FaultCollectorCommands_8 : ∃ (test : Fin 7) (x : Nat) (s : State),
    s.rb R.FC_RESTORE_STATE 31 = true ∧ x = s.rf R.FC_RESTORE_STATE 28 16 ∧ test = 0 :=
  ⟨(0 : Fin 7), (0 : Nat), (base.setReg R.FC_RESTORE_STATE (w32 (2^31 + ((0 : Nat)) * 2^16))),
    by decide +kernel⟩
theorem witness_FaultCollectorCommands_9 : ∃ (m : Master) (n : Fin 16) (e : Fin 6) (v : Word) (s : State) (r : RegRow),
    s.Writes m .fc r R.FC_RETIRE ∧ fld v 12 0 = 6 * n.val + e.val ∧ s.leRetired n.val e.val = false ∧ s.leHosted n.val e.val = false ∧ s.leSubst n.val ≠ some e.val :=
  ⟨(.mp : Master), (15 : Fin 16), (5 : Fin 6), (95#32 : Word), (base), rowOf (R.FC_RETIRE),
    by constructor <;> decide +kernel, by decide +kernel⟩
theorem witness_FaultCollectorCommands_10 : ∃ (m : Master) (n : Fin 16) (c : Fin 2) (v : Word) (s : State) (r : RegRow),
    s.Writes m .fc r R.FC_RETIRE ∧ fld v 12 0 = 0xA0 + 2 * n.val + c.val ∧ s.acRole n.val c.val ≠ 2 :=
  ⟨(.mp : Master), (15 : Fin 16), (1 : Fin 2), (191#32 : Word), (base), rowOf (R.FC_RETIRE),
    by constructor <;> decide +kernel,
    by decide +kernel⟩
theorem witness_FaultCollectorCommands_11 : ∃ (m : Master) (v : Word) (s : State) (r : RegRow),
    s.Writes m .fc r R.FC_RETIRE ∧ ((0x60 ≤ fld v 12 0 ∧ fld v 12 0 < 0xA0) ∨ 0xC0 ≤ fld v 12 0) :=
  ⟨(.mp : Master), (0xFFFFFFFF#32 : Word), (base), rowOf (R.FC_RETIRE),
    by constructor <;> decide +kernel, by decide +kernel⟩
theorem witness_IslandPowerCommands_0 : ∃ (m : Master) (v : Word) (s : State) (r : RegRow),
    s.Writes m .pw r R.PW_ISLAND_ON :=
  ⟨(.mp : Master), (0xFFFFFFFF#32 : Word), (base), rowOf (R.PW_ISLAND_ON),
    by constructor <;> decide +kernel⟩
theorem witness_IslandPowerCommands_1 : ∃ (m : Master) (v : Word) (s : State) (r : RegRow),
    s.Writes m .pw r R.PW_ISLAND_OFF :=
  ⟨(.mp : Master), (0xFFFFFFFF#32 : Word), (base), rowOf (R.PW_ISLAND_OFF),
    by constructor <;> decide +kernel⟩
theorem witness_IslandPowerCommands_2 : ∃ (m : Master) (v : Word) (s : State) (r : RegRow),
    s.Writes m .pw r R.PW_ISLAND_RESET :=
  ⟨(.mp : Master), (0xFFFFFFFF#32 : Word), (base), rowOf (R.PW_ISLAND_RESET),
    by constructor <;> decide +kernel⟩
theorem witness_IslandPowerCommands_3 : ∃ (n : Fin 16) (s : State),
    s.phase n.val = .draining ∧ s.dmaDrained n.val = true :=
  ⟨(15 : Fin 16), ({ base with islands := base.islands.set (fun _ => .off) (((15 : Fin 16)).val) .draining }),
    by decide +kernel⟩
theorem witness_IslandPowerCommands_4 : ∃ (n : Fin 16) (s : State),
    (s.phase n.val ≠ .draining ∨ s.dmaDrained n.val = false) :=
  ⟨(15 : Fin 16), (base),
    by decide +kernel⟩
theorem witness_IslandPowerCommands_5 : ∃ (n : Fin 16) (s : State),
    s.phase n.val = .draining ∧ s.dmaDrained n.val = false ∧ s.phaseEnd n.val ≤ s.absTick :=
  ⟨(15 : Fin 16), ({ ((base.setReg (R.DMA_CHc_CTRL 3) 1#32).setReg (R.DMA_CHc_SRC 3) (w32 (0x40000000 + 0x1000000 * ((15 : Fin 16)).val))) with islands := base.islands.set (fun _ => .off) ((15 : Fin 16)).val .draining, dmas := [(3, { DmaRec.reset with issued := 1 })] }),
    by decide +kernel⟩

theorem witness_IslandPowerCommands_6 : ∃ (n : Fin 16) (s : State),
    (s.phase n.val ≠ .draining ∨ s.dmaDrained n.val = true ∨ s.absTick < s.phaseEnd n.val) :=
  ⟨15, base,
    by decide +kernel⟩

theorem witness_WatchAndWakeCommands_0 : ∃ (m : Master) (v : Word) (s : State) (r : RegRow),
    s.Writes m .pw r R.PW_CTRL ∧ s.device = .run ∧ s.wakeEnabled = true ∧ s.testMode = false ∧ (List.range 8).all (fun n => s.coreRun n != 3) = true :=
  ⟨(.mp : Master), (0xFFFFFFFF#32 : Word), ((base.setReg R.PW_WAKE_CFG 1#32)), rowOf (R.PW_CTRL),
    by constructor <;> decide +kernel, by decide +kernel⟩
theorem witness_WatchAndWakeCommands_1 : ∃ (m : Master) (v : Word) (s : State) (r : RegRow),
    s.Writes m .pw r R.PW_CTRL ∧ s.device = .run ∧ (s.wakeEnabled = false ∨ s.testMode = true ∨ (List.range 8).any (fun n => s.coreRun n == 3) = true) :=
  ⟨(.mp : Master), (0xFFFFFFFF#32 : Word), (base), rowOf (R.PW_CTRL),
    by constructor <;> decide +kernel,
    by decide +kernel⟩
theorem witness_WatchAndWakeCommands_2 : ∃ (s : State),
    s.device = .entering ∧ s.anyFlashBusy = false :=
  ⟨({ base with device := .entering }),
    by decide +kernel⟩
theorem witness_WatchAndWakeCommands_3 : ∃ (s : State),
    (s.device ≠ .entering ∨ s.anyFlashBusy = true) :=
  ⟨(base),
    by decide +kernel⟩
theorem witness_WatchAndWakeCommands_4 : ∃ (w : WakeSource) (s : State),
    s.wakes w = true ∧ s.device = .watch :=
  ⟨(.ball 3 true : WakeSource), ({ base.setReg R.PW_WAKE_CFG 15#32 with device := .watch }),
    by decide +kernel⟩
theorem witness_WatchAndWakeCommands_5 : ∃ (w : WakeSource) (s : State),
    s.wakes w = true ∧ s.device = .entering :=
  ⟨(.ball 3 true : WakeSource), ({ base.setReg R.PW_WAKE_CFG 15#32 with device := .entering }),
    by decide +kernel⟩
theorem witness_WatchAndWakeCommands_6 : ∃ (w : WakeSource) (s : State),
    s.wakes w = true ∧ s.device = .waking :=
  ⟨.ball 3 true, { base.setReg R.PW_WAKE_CFG 8#32 with device := .waking },
    by decide +kernel⟩
theorem witness_WatchAndWakeCommands_7 : ∃ (w : WakeSource) (s : State),
    (s.wakes w = false ∨ s.device = .run ∨ s.device = .backup) :=
  ⟨(.ball 3 true : WakeSource), (base),
    by decide +kernel⟩
theorem witness_WatchAndWakeCommands_8 : ∃ (beats : BitVec 64) (s : State),
    s.device = .waking :=
  ⟨(18446744073709551615#64 : BitVec 64), ({ base with device := .waking }),
    by decide +kernel⟩

theorem witness_WatchAndWakeCommands_9 : ∃ (beats : BitVec 64) (s : State),
    s.device ≠ .waking :=
  ⟨(18446744073709551615#64 : BitVec 64), (base),
    by decide +kernel⟩

theorem witness_ResetsAndBackup_0 : ∃ (cause : Fin 5) (boot : BitVec 4) (s : State),
    s.flashBusy 0 = false ∧ s.flashBusy 1 = false :=
  ⟨(4 : Fin 5), (15#4 : BitVec 4), (base),
    by decide +kernel⟩

theorem witness_ResetsAndBackup_1 : ∃ (cause : Fin 5) (boot : BitVec 4) (s : State),
    s.flashBusy 0 = true :=
  ⟨(4 : Fin 5), (15#4 : BitVec 4), ({ base with flashOps := [(0, some ⟨true, 0x10000000, []⟩)] }),
    by decide +kernel⟩

theorem witness_ResetsAndBackup_2 : ∃ (s : State),
    s.flashBusy 0 = false ∧ s.flashBusy 1 = false ∧ s.device ≠ .backup :=
  ⟨(base),
    by decide +kernel⟩

theorem witness_ResetsAndBackup_3 : ∃ (s : State),
    s.device ≠ .backup ∧ s.pow.thermalHold = none :=
  ⟨(base),
    by decide +kernel⟩

theorem witness_ResetsAndBackup_4 : ∃ (s : State),
    (s.device = .backup ∨ s.pow.thermalHold.isSome = true) :=
  ⟨({ base with device := .backup }),
    by decide +kernel⟩

theorem witness_ResetsAndBackup_5 : ∃ (m : Master) (v : Word) (s : State) (r : RegRow),
    s.Writes m .pw r R.PW_TEST ∧ m = .debug :=
  ⟨(.debug : Master), (0xFFFFFFFF#32 : Word), ({ base with mp := { base.mp with unlock := 2 } }), rowOf (R.PW_TEST),
    by constructor <;> decide +kernel, by decide +kernel⟩

theorem witness_ResetsAndBackup_6 : ∃ (b : BitVec 64) (on : Bool) (s : State),
    s.pow.testAt = some (b, on) ∧ serialGe s.clk.beat b = true ∧ s.testMode ≠ on :=
  ⟨(18446744073709551615#64 : BitVec 64), (true : Bool), ({ base with pow := { base.pow with testAt := some (((18446744073709551615#64 : BitVec 64)), ((true : Bool))) }, clk := { base.clk with beat := ((18446744073709551615#64 : BitVec 64)) } }),
    by decide +kernel⟩

theorem witness_ResetsAndBackup_7 : ∃ (b : BitVec 64) (on : Bool) (s : State),
    s.pow.testAt = some (b, on) ∧ serialGe s.clk.beat b = false :=
  ⟨(18446744073709551615#64 : BitVec 64), (true : Bool), ({ base with pow := { base.pow with testAt := some (((18446744073709551615#64 : BitVec 64)), ((true : Bool))) }, clk := { base.clk with beat := ((18446744073709551615#64 : BitVec 64)) - 1#64 } }),
    by decide +kernel⟩

theorem witness_ResetsAndBackup_11 : ∃ (op : JtagOp) (s : State),
    (op = .extest ∨ op = .clamp) :=
  ⟨(.extest : JtagOp), (base),
    by decide +kernel⟩

theorem witness_ResetsAndBackup_12 : ∃ (op : JtagOp) (s : State),
    (op = .extest ∨ op = .clamp) :=
  ⟨(.extest : JtagOp), (base),
    by decide +kernel⟩

theorem witness_ThermalSamples_0 : ∃ (sensor : Fin 17) (temp : BitVec 16) (s : State),
    s.beatRuns = true ∧ (sensor.val = 16 ∨ s.islandRuns sensor.val = true) ∧ s.thermalDwell sensor.val = 1 ∧ 0 < s.thermalHyst sensor.val ∧ s.rf (R.TH_Ss_CFG sensor.val) 1 0 = 0 :=
  ⟨(16 : Fin 17), (65535#16 : BitVec 16), ((base.setReg (R.TH_Ss_THR ((16 : Fin 17)).val) 0x10000000#32).setReg (R.TH_Ss_CFG ((16 : Fin 17)).val) 0#32),
    by decide +kernel⟩
theorem witness_ThermalSamples_1 : ∃ (n : Fin 16) (temp : BitVec 16) (s : State),
    s.beatRuns = true ∧ s.islandRuns n.val = true ∧ s.thermalDwell n.val = 1 ∧ 0 < s.thermalHyst n.val ∧ s.rf (R.TH_Ss_CFG n.val) 1 0 = 2 ∧ s.rb (R.TH_Ss_CFG n.val) 31 = true ∧ s.rb (R.TH_Ss_STATE n.val) 2 = false ∧ s.thermalThr n.val 2 ≤ temp.toInt :=
  ⟨15, 0x7FFF#16, (base.setReg (R.TH_Ss_THR 15) 0x10000000#32).setReg (R.TH_Ss_CFG 15) 0x80000002#32,
    by decide +kernel⟩
theorem witness_ThermalSamples_2 : ∃ (sensor : Fin 17) (temp : BitVec 16) (s : State),
    s.pow.thermalHold = none ∧ sensor.val < 16 ∧ s.islandRuns sensor.val = false :=
  ⟨(15 : Fin 17), (65535#16 : BitVec 16), ({ base with islands := [] }),
    by decide +kernel⟩

theorem witness_ThermalSamples_3 : ∃ (temp : BitVec 16) (c : Nat) (s : State),
    s.pow.thermalHold = some c :=
  ⟨(65535#16 : BitVec 16), (1 : Nat), ({ base with pow := { base.pow with thermalHold := some ((1 : Nat)) } }),
    by decide +kernel⟩

theorem witness_TimerRunCommands_0 : ∃ (m : Master) (n : Fin 16) (k : Fin 4) (v : Word) (s : State) (r : RegRow),
    s.Writes m (.tu n.val k.val) r (R.TU_CTRL n.val k.val) :=
  ⟨(.mp : Master), (15 : Fin 16), (3 : Fin 4), (0xFFFFFFFF#32 : Word), (base), rowOf (R.TU_CTRL ((15 : Fin 16)).val ((3 : Fin 4)).val),
    by constructor <;> decide +kernel⟩
theorem witness_TimerRunCommands_1 : ∃ (m : Master) (n : Fin 16) (k : Fin 4) (v : Word) (s : State) (r : RegRow),
    s.Writes m (.tu n.val k.val) r (R.TU_CTRL n.val k.val) :=
  ⟨(.mp : Master), (15 : Fin 16), (3 : Fin 4), (0xFFFFFFFF#32 : Word), (base), rowOf (R.TU_CTRL ((15 : Fin 16)).val ((3 : Fin 4)).val),
    by constructor <;> decide +kernel⟩
theorem witness_TimerRunCommands_2 : ∃ (n : Fin 16) (k : Fin 4) (s : State),
    s.islandRuns n.val = true ∧ s.tuFrozen n.val k.val = false ∧ s.dueIn (.tu n.val k.val) = false ∧ s.rb (R.TU_CFG n.val k.val) 3 = false ∧ 125 ≤ (s.reg (R.TU_PERIOD n.val k.val)).toNat ∧ (s.reg (R.TU_PERIOD n.val k.val)).toNat ≤ 4250000000 :=
  ⟨(15 : Fin 16), (3 : Fin 4), (base.setReg (R.TU_PERIOD ((15 : Fin 16)).val ((3 : Fin 4)).val) 500#32),
    by decide +kernel⟩
theorem witness_TimerRunCommands_3 : ∃ (n : Fin 16) (k : Fin 4) (s : State),
    s.islandRuns n.val = true ∧ s.tuFrozen n.val k.val = true :=
  ⟨15, 3, base.setReg (R.TU_STATE 15 3) 0x40000000#32,
    by decide +kernel⟩
theorem witness_TimerRunCommands_4 : ∃ (n : Fin 16) (k : Fin 4) (s : State),
    s.tuCounts n.val k.val = true ∧ s.dueIn (.tu n.val k.val) = false ∧ (s.tu n.val k.val).stopAtBoundary = false ∧ s.tuMode n.val k.val ≠ 2 :=
  ⟨(15 : Fin 16), (3 : Fin 4), ({ base.setRb (R.TU_STATE ((15 : Fin 16)).val ((3 : Fin 4)).val) 31 true with tus := [(4 * ((15 : Fin 16)).val + ((3 : Fin 4)).val, { TuRec.reset with gateOpen := true })] }),
    by decide +kernel⟩
theorem witness_TimerRunCommands_5 : ∃ (n : Fin 16) (k : Fin 4) (s : State),
    s.tuCounts n.val k.val = true ∧ s.dueIn (.tu n.val k.val) = false ∧ ((s.tu n.val k.val).stopAtBoundary = true ∨ s.tuMode n.val k.val = 2) :=
  ⟨(15 : Fin 16), (3 : Fin 4), ({ base.setRb (R.TU_STATE ((15 : Fin 16)).val ((3 : Fin 4)).val) 31 true with tus := [(4 * ((15 : Fin 16)).val + ((3 : Fin 4)).val, { TuRec.reset with gateOpen := true, stopAtBoundary := true })] }),
    by decide +kernel⟩
theorem witness_TimerRunCommands_6 : ∃ (n : Fin 16) (k : Fin 4) (s : State),
    s.tuCounts n.val k.val = true ∧ s.tuMode n.val k.val = 1 :=
  ⟨(15 : Fin 16), (3 : Fin 4), ({ (base.setRb (R.TU_STATE ((15 : Fin 16)).val ((3 : Fin 4)).val) 31 true).setReg (R.TU_CFG ((15 : Fin 16)).val ((3 : Fin 4)).val) 1#32 with tus := [(4 * ((15 : Fin 16)).val + ((3 : Fin 4)).val, { TuRec.reset with gateOpen := true })] }),
    by decide +kernel⟩
theorem witness_TimerRunCommands_7 : ∃ (n : Fin 16) (k : Fin 4) (j : Fin 6) (rise : Bool) (fine : Fin 64) (s : State),
    s.tuCounts n.val k.val = true ∧ s.rb (R.TU_CHj_CFG n.val k.val j.val) 7 = true ∧ s.tuMode n.val k.val ≠ 3 ∧ (s.chan n.val k.val j.val).ref ≠ rise ∧ j.val < (s.tu n.val k.val).chans.length :=
  ⟨(15 : Fin 16), (3 : Fin 4), (5 : Fin 6), (true : Bool), (63 : Fin 64), ({ (base.setRb (R.TU_STATE ((15 : Fin 16)).val ((3 : Fin 4)).val) 31 true).setReg (R.TU_CHj_CFG ((15 : Fin 16)).val ((3 : Fin 4)).val ((5 : Fin 6)).val) 0x80#32 with tus := [(4 * ((15 : Fin 16)).val + ((3 : Fin 4)).val, { TuRec.reset with gateOpen := true })] }),
    by decide +kernel⟩
theorem witness_TimerRunCommands_8 : ∃ (n : Fin 16) (k : Fin 4) (j : Fin 6) (rise : Bool) (fine : Fin 64) (s : State),
    s.tuCounts n.val k.val = true ∧ s.rb (R.TU_CHj_CFG n.val k.val j.val) 7 = true ∧ s.tuMode n.val k.val ≠ 3 ∧ (s.chan n.val k.val j.val).ref ≠ rise ∧ j.val < (s.tu n.val k.val).chans.length :=
  ⟨(15 : Fin 16), (3 : Fin 4), (5 : Fin 6), (true : Bool), (63 : Fin 64), ({ (base.setRb (R.TU_STATE ((15 : Fin 16)).val ((3 : Fin 4)).val) 31 true).setReg (R.TU_CHj_CFG ((15 : Fin 16)).val ((3 : Fin 4)).val ((5 : Fin 6)).val) 0x80#32 with tus := [(4 * ((15 : Fin 16)).val + ((3 : Fin 4)).val, { TuRec.reset with gateOpen := true })] }),
    by decide +kernel⟩
theorem witness_TimerRunCommands_9 : ∃ (q : StartReq) (s : State),
    s.clk.start = some q ∧ q.rejected = false ∧ serialGe s.clk.beat q.beat = true :=
  ⟨(⟨1#64, 3#32, 0#32, false⟩ : StartReq), ({ { base with clk := { base.clk with beat := 9#64 } } with clk := { { base with clk := { base.clk with beat := 9#64 } }.clk with start := some ((⟨1#64, 3#32, 0#32, false⟩ : StartReq)) } }),
    by decide +kernel⟩
theorem witness_TimerRunCommands_10 : ∃ (q : StartReq) (s : State),
    s.clk.start = some q ∧ (q.rejected = true ∨ serialGe s.clk.beat q.beat = false) :=
  ⟨(⟨1#64, 3#32, 0#32, true⟩ : StartReq), ({ base with clk := { base.clk with start := some ((⟨1#64, 3#32, 0#32, true⟩ : StartReq)) } }),
    by decide +kernel⟩
theorem witness_TimerRunCommands_11 : ∃ (n : Fin 16) (k : Fin 4) (c : Coupling) (s : State),
    s.dueCoupling (4 * n.val + k.val) = some c ∧ (c.direct = true ∨ s.synced n.val = true) :=
  ⟨(15 : Fin 16), (3 : Fin 4), (⟨63, 0, false, true⟩ : Coupling), ({ base with clk := { base.clk with couplings := [((⟨63, 0, false, true⟩ : Coupling))] } }),
    by decide +kernel⟩

theorem witness_TimerRunCommands_12 : ∃ (n : Fin 16) (k : Fin 4) (s : State),
    s.dueCoupling (4 * n.val + k.val) = none :=
  ⟨(15 : Fin 16), (3 : Fin 4), (base),
    by decide +kernel⟩

theorem witness_TimerTripAndCaptureCommands_0 : ∃ (m : Master) (n : Fin 16) (k : Fin 4) (w : Fin 13) (v : Word) (s : State) (r : RegRow),
    s.Writes m (.tu n.val k.val) r (R.TU_DLRw n.val k.val w.val) ∧ s.owns (s.domainOf m) (R.TU_OWNER n.val k.val) = true :=
  ⟨(.mp : Master), (15 : Fin 16), (3 : Fin 4), (12 : Fin 13), (0xFFFFFFFF#32 : Word), (base), rowOf (R.TU_DLRw ((15 : Fin 16)).val ((3 : Fin 4)).val ((12 : Fin 13)).val),
    by constructor <;> decide +kernel, by decide +kernel⟩
theorem witness_TimerTripAndCaptureCommands_1 : ∃ (n : Fin 16) (k : Fin 4) (inp : Fin 8) (s : State),
    s.rb (R.TU_TRIPi_CFG n.val k.val inp.val) 31 = true ∧ (s.tripSource n.val k.val (s.rf (R.TU_TRIPi_CFG n.val k.val inp.val) 7 0)).isSome = true :=
  ⟨(15 : Fin 16), (3 : Fin 4), (7 : Fin 8), (base.setReg (R.TU_TRIPi_CFG ((15 : Fin 16)).val ((3 : Fin 4)).val ((7 : Fin 8)).val) 0x80000000#32),
    by decide +kernel⟩
theorem witness_TimerTripAndCaptureCommands_2 : ∃ (n : Fin 16) (k : Fin 4) (inp : Fin 8) (s : State),
    (s.rb (R.TU_TRIPi_CFG n.val k.val inp.val) 31 = false ∨ s.tripSource n.val k.val (s.rf (R.TU_TRIPi_CFG n.val k.val inp.val) 7 0) = none) :=
  ⟨(15 : Fin 16), (3 : Fin 4), (7 : Fin 8), (base),
    by decide +kernel⟩
theorem witness_TimerTripAndCaptureCommands_4 : ∃ (m : Master) (n : Fin 16) (k : Fin 4) (v : Word) (s : State) (r : RegRow),
    s.Writes m (.tu n.val k.val) r (R.TU_TRIP_CLR n.val k.val) :=
  ⟨(.mp : Master), (15 : Fin 16), (3 : Fin 4), (0xFFFFFFFF#32 : Word), (base), rowOf (R.TU_TRIP_CLR ((15 : Fin 16)).val ((3 : Fin 4)).val),
    by constructor <;> decide +kernel⟩
theorem witness_TimerTripAndCaptureCommands_5 : ∃ (m : Master) (n : Fin 16) (k : Fin 4) (v : Word) (s : State) (r : RegRow),
    s.Writes m (.tu n.val k.val) r (R.TU_TRIP_CLR n.val k.val) ∧ s.rb (R.TU_TRIP_STATE n.val k.val) 16 = true ∧ (∀ i : Fin 7, s.rb (R.TU_TRIP_STATE n.val k.val) (17 + i.val) = true → s.causeInForce n.val k.val (17 + i.val) = false) :=
  ⟨(.mp : Master), (15 : Fin 16), (3 : Fin 4), (0xFFFFFFFF#32 : Word), (base.setReg (R.TU_TRIP_STATE ((15 : Fin 16)).val ((3 : Fin 4)).val) 0x10000#32), rowOf (R.TU_TRIP_CLR ((15 : Fin 16)).val ((3 : Fin 4)).val),
    by constructor <;> decide +kernel,
    by decide +kernel⟩
theorem witness_TimerTripAndCaptureCommands_6 : ∃ (m : Master) (n : Fin 16) (k : Fin 4) (v : Word) (i : Fin 7) (s : State) (r : RegRow),
    s.Writes m (.tu n.val k.val) r (R.TU_TRIP_CLR n.val k.val) ∧ s.rb (R.TU_TRIP_STATE n.val k.val) 16 = true ∧ s.rb (R.TU_TRIP_STATE n.val k.val) (17 + i.val) = true ∧ s.causeInForce n.val k.val (17 + i.val) = true :=
  ⟨(.mp : Master), (15 : Fin 16), (3 : Fin 4), (0xFFFFFFFF#32 : Word), (5 : Fin 7), ({ base.setReg (R.TU_TRIP_STATE ((15 : Fin 16)).val ((3 : Fin 4)).val) 0xFF0000#32 with faults := { base.faults with rails := [3] } }), rowOf (R.TU_TRIP_CLR ((15 : Fin 16)).val ((3 : Fin 4)).val),
    by constructor <;> decide +kernel,
    by decide +kernel⟩
theorem witness_TimerTripAndCaptureCommands_9 : ∃ (n : Fin 16) (k : Fin 4) (o : Fin 12) (level : Bool) (s : State),
    s.islandRuns n.val = true ∧ s.rb (R.TU_RB_CFG n.val k.val) (16 + o.val) = true ∧ s.tuOut n.val k.val o.val ≠ .hiz ∧ s.ballAssigned n.val k.val o.val = true ∧ s.rb (R.TU_RB_STATE n.val k.val) o.val = false ∧ s.readbackDue n.val k.val o.val = true ∧ o.val < (s.tu n.val k.val).rbFails.length :=
  ⟨15, 3, 11, true, { ((((base.setRb (R.TU_STATE 15 3) 31 true).setRb (R.TU_RB_CFG 15 3) 27 true).setReg (R.PM_DIn_BALLb 15 7) (w32 (1 + 3 * 256 + 11 * 16))).setReg (R.TU_RB_STATE 15 3) 0#32).setReg (R.TU_CHj_CFG 15 3 5) 0#32 with clk := { base.clk with beat := 500#64 } },
    by decide +kernel⟩
theorem witness_TimerTripAndCaptureCommands_10 : ∃ (n : Fin 16) (k : Fin 4) (o : Fin 12) (level : Bool) (s : State),
    s.readbackDue n.val k.val o.val = false :=
  ⟨15, 3, 11, true, base,
    by decide +kernel⟩
theorem witness_TimerTripAndCaptureCommands_11 : ∃ (n : Fin 16) (k : Fin 4) (j : Fin 6) (rise : Bool) (ago : Word) (s : State),
    s.islandRuns n.val = true ∧ s.beatRuns = true ∧ s.rb (R.TU_CHj_CAP_CFG n.val k.val j.val) 31 = true ∧ s.tuMode n.val k.val = 3 ∧ s.capAccepts n.val k.val j.val (s.nowFine - ago.toNat) = true ∧ edgeSelected (s.rf (R.TU_CHj_CAP_CFG n.val k.val j.val) 11 10) rise = true ∧ s.rf (R.TU_CHj_CAP_CFG n.val k.val j.val) 29 22 ≤ (s.chan n.val k.val j.val).presc ∧ (s.chan n.val k.val j.val).lastCap = none ∧ j.val < (s.tu n.val k.val).chans.length :=
  ⟨(15 : Fin 16), (3 : Fin 4), (5 : Fin 6), (true : Bool), (0#32 : Word), ((base.setReg (R.TU_CHj_CAP_CFG ((15 : Fin 16)).val ((3 : Fin 4)).val ((5 : Fin 6)).val) 0x80000800#32).setReg (R.TU_CFG ((15 : Fin 16)).val ((3 : Fin 4)).val) 3#32),
    by decide +kernel⟩

theorem witness_TimerTripAndCaptureCommands_12 : ∃ (n : Fin 16) (k : Fin 4) (j : Fin 6) (rise : Bool) (ago : Word) (s : State),
    s.islandRuns n.val = true ∧ s.beatRuns = true ∧ s.rb (R.TU_CHj_CAP_CFG n.val k.val j.val) 31 = true ∧ s.tuMode n.val k.val = 3 ∧ s.capAccepts n.val k.val j.val (s.nowFine - ago.toNat) = false ∧ j.val < (s.tu n.val k.val).chans.length :=
  ⟨15, 3, 5, true, 0#32, (base.setReg (R.TU_CHj_CAP_CFG 15 3 5) 0x8003F800#32).setReg (R.TU_CFG 15 3) 3#32,
    by decide +kernel⟩

theorem witness_TimerTripAndCaptureCommands_13 : ∃ (m : Master) (n : Fin 16) (k : Fin 4) (j : Fin 6) (s : State) (r : RegRow),
    s.Reads m (.tu n.val k.val) r (R.TU_CHj_CAP_LO n.val k.val j.val) ∧ j.val < (s.tu n.val k.val).chans.length :=
  ⟨(.mp : Master), (15 : Fin 16), (3 : Fin 4), (5 : Fin 6), (base), rowOf (R.TU_CHj_CAP_LO ((15 : Fin 16)).val ((3 : Fin 4)).val ((5 : Fin 6)).val),
    by constructor <;> decide +kernel, by decide +kernel⟩

theorem witness_ConverterCommands_0 : ∃ (n : Fin 16) (c : Fin 2) (s : State),
    s.islandRuns n.val = true ∧ s.beatRuns = true ∧ s.rb (R.AC_CTRL n.val c.val) 31 = true ∧ s.rf (R.AC_TRIG n.val c.val) 15 14 ≠ 3 ∧ s.acWorks n.val c.val = true ∧ s.acBusy n.val c.val = false ∧ (s.ac n.val c.val).dueReg = none ∧ s.rb (R.AC_STATE n.val c.val) 26 = false ∧ ((s.ac n.val c.val).cont && s.rb (R.AC_MODE n.val c.val) 1) = false :=
  ⟨(15 : Fin 16), (1 : Fin 2), ((base.setReg (R.AC_CTRL ((15 : Fin 16)).val ((1 : Fin 2)).val) 0x80000000#32).setReg (R.AC_TRIG ((15 : Fin 16)).val ((1 : Fin 2)).val) 0#32),
    by decide +kernel⟩
theorem witness_ConverterCommands_1 : ∃ (n : Fin 16) (c : Fin 2) (s : State),
    s.islandRuns n.val = true ∧ s.beatRuns = true ∧ s.rb (R.AC_CTRL n.val c.val) 31 = true ∧ s.rf (R.AC_TRIG n.val c.val) 15 14 ≠ 3 ∧ s.acWorks n.val c.val = true ∧ s.acBusy n.val c.val = true ∧ ((s.ac n.val c.val).cont && s.rb (R.AC_MODE n.val c.val) 1) = false :=
  ⟨(15 : Fin 16), (1 : Fin 2), (((base.setReg (R.AC_CTRL ((15 : Fin 16)).val ((1 : Fin 2)).val) 0x80000000#32).setReg (R.AC_STATE ((15 : Fin 16)).val ((1 : Fin 2)).val) 0x10000000#32).setReg (R.AC_TRIG ((15 : Fin 16)).val ((1 : Fin 2)).val) 0#32),
    by decide +kernel⟩
theorem witness_ConverterCommands_2 : ∃ (n : Fin 16) (c : Fin 2) (s : State),
    s.acWorks n.val c.val = true ∧ ((s.ac n.val c.val).cont && s.rb (R.AC_MODE n.val c.val) 1) = true :=
  ⟨15, 1, { ((base.setReg (R.AC_CTRL 15 1) 0x80000000#32).setReg (R.AC_MODE 15 1) 2#32) with acs := [(31, { AcRec.reset with cont := true })] },
    by decide +kernel⟩
theorem witness_ConverterCommands_3 : ∃ (n : Fin 16) (c : Fin 2) (s : State),
    s.islandRuns n.val = true ∧ s.beatRuns = true ∧ s.rb (R.AC_CTRL n.val c.val) 31 = true ∧ s.rf (R.AC_TRIG_INJ n.val c.val) 15 14 ≠ 3 ∧ s.acWorks n.val c.val = true ∧ s.acReg n.val c.val = true ∧ s.acInjBusy n.val c.val = false ∧ (s.ac n.val c.val).dueInj = none :=
  ⟨(15 : Fin 16), (1 : Fin 2), (((base.setReg (R.AC_CTRL ((15 : Fin 16)).val ((1 : Fin 2)).val) 0x80000000#32).setReg (R.AC_MODE ((15 : Fin 16)).val ((1 : Fin 2)).val) 1#32).setReg (R.AC_TRIG_INJ ((15 : Fin 16)).val ((1 : Fin 2)).val) 0#32),
    by decide +kernel⟩
theorem witness_ConverterCommands_4 : ∃ (n : Fin 16) (c : Fin 2) (x : Nat) (s : State),
    (s.ac n.val c.val).dueReg = some x ∧ x ≤ s.absTick :=
  ⟨(15 : Fin 16), (1 : Fin 2), (0 : Nat), ({ base with acs := [(2 * ((15 : Fin 16)).val + ((1 : Fin 2)).val, { AcRec.reset with dueReg := some ((0 : Nat)) })] }),
    by decide +kernel⟩
theorem witness_ConverterCommands_5 : ∃ (n : Fin 16) (c : Fin 2) (x : Nat) (s : State),
    (s.ac n.val c.val).dueInj = some x ∧ x ≤ s.absTick :=
  ⟨(15 : Fin 16), (1 : Fin 2), (0 : Nat), ({ base with acs := [(2 * ((15 : Fin 16)).val + ((1 : Fin 2)).val, { AcRec.reset with dueInj := some ((0 : Nat)) })] }),
    by decide +kernel⟩
theorem witness_ConverterCommands_6 : ∃ (n : Fin 16) (c : Fin 2) (x : Conversion) (i : Fin 16) (cfg : Word) (ref scale : Nat) (v : Int) (code : Nat) (s : State),
    s.Sound ∧ s.islandRuns n.val = true ∧ s.beatRuns = true ∧ (s.ac n.val c.val).slot = some i.val ∧ (s.ac n.val c.val).slotCfg = cfg ∧ (s.ac n.val c.val).hosted = false ∧ acChannel (fld cfg 4 0) = true ∧ (∀ g : Fin 4, s.reg (R.AC_CAL_GAINg n.val c.val g.val) = 0#32) ∧ (∀ k : Fin 8, s.reg (R.AC_CAL_LINk n.val c.val k.val) = 0#32) ∧ ref = (if s.rb (R.AC_MODE n.val c.val) 2 then x.vref.toNat else 2500000000) ∧ scale = (if acDifferential (fld cfg 4 0) then 32768 else 65536) ∧ 2 * (x.vin.toInt * 2 ^ fld cfg 25 24 * scale - v * ref).natAbs < ref ∧ code = (clampI 0 65535 ((if acDifferential (fld cfg 4 0) then clampI (-32768) 32767 v + 32768 else clampI 0 65535 v) + x.err.toInt)).toNat :=
  ⟨15, 1, ⟨1250000000#64, 2500000000#32, 3#16⟩, 15, 0x8#32, 2500000000, 32768, 16384, 49155, { base with acs := [(31, { AcRec.reset with slot := some 15, slotCfg := 0x8#32 })] },
    by constructor <;> decide +kernel, by decide +kernel⟩
theorem witness_ConverterCommands_7 : ∃ (n : Fin 16) (c : Fin 2) (raw again : BitVec 16) (s : State),
    s.islandRuns n.val = true ∧ s.beatRuns = true ∧ s.rb (R.AC_CTRL n.val c.val) 31 = true ∧ s.acSets n.val c.val = [c.val] ∧ s.acRole n.val c.val ≠ 2 ∧ (s.ac n.val c.val).slot = none ∧ s.checkOwed n.val c.val = true ∧ s.dueIn (.ac n.val c.val) = false ∧ (∀ g : Fin 4, s.reg (R.AC_CAL_GAINg n.val c.val g.val) = 0#32) ∧ (∀ k : Fin 8, s.reg (R.AC_CAL_LINk n.val c.val k.val) = 0#32) ∧ ((raw.toNat : Int) - ((if (s.ac n.val c.val).ground then 0 else 32768) : Int)).natAbs ≤ 4 * s.rf (R.AC_MODE n.val c.val) 23 16 :=
  ⟨(15 : Fin 16), (1 : Fin 2), (0#16 : BitVec 16), (0#16 : BitVec 16), ({ (base.setReg (R.AC_CTRL ((15 : Fin 16)).val ((1 : Fin 2)).val) 0x80000000#32).setReg (R.AC_MODE ((15 : Fin 16)).val ((1 : Fin 2)).val) (w32 (base.clk.seconds % 9 * 2^16)) with acs := [(2 * ((15 : Fin 16)).val + ((1 : Fin 2)).val, { AcRec.reset with convs := 48, ground := base.clk.sub % 2 == 0  })] }),
    by decide +kernel⟩
theorem witness_ConverterCommands_8 : ∃ (n : Fin 16) (c : Fin 2) (raw again : BitVec 16) (s : State),
    s.islandRuns n.val = true ∧ s.beatRuns = true ∧ s.rb (R.AC_CTRL n.val c.val) 31 = true ∧ s.acSets n.val c.val = [c.val] ∧ s.acRole n.val c.val ≠ 2 ∧ (s.ac n.val c.val).slot = none ∧ s.checkOwed n.val c.val = true ∧ s.dueIn (.ac n.val c.val) = false ∧ (∀ g : Fin 4, s.reg (R.AC_CAL_GAINg n.val c.val g.val) = 0#32) ∧ (∀ k : Fin 8, s.reg (R.AC_CAL_LINk n.val c.val k.val) = 0#32) ∧ (¬ ((raw.toNat : Int) - ((if (s.ac n.val c.val).ground then 0 else 32768) : Int)).natAbs ≤ 4 * s.rf (R.AC_MODE n.val c.val) 23 16) ∧ ((again.toNat : Int) - ((if (s.ac n.val c.val).ground then 0 else 32768) : Int)).natAbs ≤ 4 * s.rf (R.AC_MODE n.val c.val) 23 16 ∧ (s.ac n.val c.val).window = [] :=
  ⟨(15 : Fin 16), (1 : Fin 2), (0xFFFF#16 : BitVec 16), (0#16 : BitVec 16), ({ (base.setReg (R.AC_CTRL ((15 : Fin 16)).val ((1 : Fin 2)).val) 0x80000000#32).setReg (R.AC_MODE ((15 : Fin 16)).val ((1 : Fin 2)).val) (w32 (base.clk.seconds % 9 * 2^16)) with acs := [(2 * ((15 : Fin 16)).val + ((1 : Fin 2)).val, { AcRec.reset with convs := 48, ground := base.clk.sub % 2 == 0  })] }),
    by decide +kernel⟩
theorem witness_ConverterCommands_9 : ∃ (n : Fin 16) (c : Fin 2) (raw again : BitVec 16) (s : State),
    s.islandRuns n.val = true ∧ s.beatRuns = true ∧ s.rb (R.AC_CTRL n.val c.val) 31 = true ∧ s.acSets n.val c.val = [c.val] ∧ s.acRole n.val c.val ≠ 2 ∧ (s.ac n.val c.val).slot = none ∧ s.checkOwed n.val c.val = true ∧ (∀ g : Fin 4, s.reg (R.AC_CAL_GAINg n.val c.val g.val) = 0#32) ∧ (∀ k : Fin 8, s.reg (R.AC_CAL_LINk n.val c.val k.val) = 0#32) ∧ (¬ ((raw.toNat : Int) - ((if (s.ac n.val c.val).ground then 0 else 32768) : Int)).natAbs ≤ 4 * s.rf (R.AC_MODE n.val c.val) 23 16) ∧ (¬ ((again.toNat : Int) - ((if (s.ac n.val c.val).ground then 0 else 32768) : Int)).natAbs ≤ 4 * s.rf (R.AC_MODE n.val c.val) 23 16) :=
  ⟨(15 : Fin 16), (1 : Fin 2), (65535#16 : BitVec 16), (65535#16 : BitVec 16), ({ (base.setReg (R.AC_CTRL ((15 : Fin 16)).val ((1 : Fin 2)).val) 0x80000000#32).setReg (R.AC_MODE ((15 : Fin 16)).val ((1 : Fin 2)).val) (w32 (base.clk.seconds % 9 * 2^16)) with acs := [(2 * ((15 : Fin 16)).val + ((1 : Fin 2)).val, { AcRec.reset with convs := 48, ground := base.clk.sub % 2 == 0  })] }),
    by decide +kernel⟩
theorem witness_ConverterCommands_10 : ∃ (n : Fin 16) (c : Fin 2) (s : State),
    s.acTakeable n.val (1 - c.val) = true :=
  ⟨(15 : Fin 16), (1 : Fin 2), (((base.setReg (R.AC_MODE ((15 : Fin 16)).val 0) 8#32).setReg (R.AC_MODE ((15 : Fin 16)).val 1) 8#32).setReg (R.AC_STATE ((15 : Fin 16)).val (1 - ((1 : Fin 2)).val)) 0x80000000#32),
    by decide +kernel⟩
theorem witness_ConverterCommands_11 : ∃ (n : Fin 16) (c : Fin 2) (s : State),
    s.acTakeable n.val (1 - c.val) = false :=
  ⟨(15 : Fin 16), (1 : Fin 2), (base),
    by decide +kernel⟩
theorem witness_ConverterCommands_12 : ∃ (m : Master) (n : Fin 16) (c : Fin 2) (v : Word) (s : State) (r : RegRow),
    s.Writes m (.ac n.val c.val) r (R.AC_CTRL n.val c.val) ∧ s.Sound ∧ (bit v 31 = false ∨ s.rb (R.AC_CAL n.val c.val) 30 = false) :=
  ⟨(.mp : Master), (15 : Fin 16), (1 : Fin 2), (0xFFFFFFFF#32 : Word), (base), rowOf (R.AC_CTRL ((15 : Fin 16)).val ((1 : Fin 2)).val),
    by constructor <;> decide +kernel, by constructor <;> decide +kernel, by decide +kernel⟩
theorem witness_ConverterCommands_13 : ∃ (m : Master) (n : Fin 16) (c : Fin 2) (v : Word) (s : State) (r : RegRow),
    s.Writes m (.ac n.val c.val) r (R.AC_CTRL n.val c.val) ∧ bit v 31 = true ∧ s.rb (R.AC_CAL n.val c.val) 30 = true :=
  ⟨(.mp : Master), (15 : Fin 16), (1 : Fin 2), (0xFFFFFFFF#32 : Word), (base.setReg (R.AC_CAL ((15 : Fin 16)).val ((1 : Fin 2)).val) 0x40000000#32), rowOf (R.AC_CTRL ((15 : Fin 16)).val ((1 : Fin 2)).val),
    by constructor <;> decide +kernel, by decide +kernel⟩
theorem witness_ConverterCommands_14 : ∃ (m : Master) (n : Fin 16) (c : Fin 2) (s : State) (r : RegRow),
    s.Reads m (.ac n.val c.val) r (R.AC_DATA n.val c.val) :=
  ⟨(.mp : Master), (15 : Fin 16), (1 : Fin 2), (base), rowOf (R.AC_DATA ((15 : Fin 16)).val ((1 : Fin 2)).val),
    by constructor <;> decide +kernel⟩
theorem witness_ConverterCommands_15 : ∃ (m : Master) (n : Fin 16) (c : Fin 2) (v : Word) (s : State) (r : RegRow),
    s.Writes m (.ac n.val c.val) r (R.AC_CAL n.val c.val) :=
  ⟨(.mp : Master), (15 : Fin 16), (1 : Fin 2), (0xFFFFFFFF#32 : Word), (base), rowOf (R.AC_CAL ((15 : Fin 16)).val ((1 : Fin 2)).val),
    by constructor <;> decide +kernel⟩
theorem witness_ConverterCommands_16 : ∃ (n : Fin 16) (c : Fin 2) (ok : Bool) (temp : BitVec 16) (gains : Vector Word 4) (lins : Vector Word 8) (s : State),
    s.rb (R.AC_CAL n.val c.val) 30 = true :=
  ⟨15, 1, true, 0#16, Vector.replicate 4 0#32, Vector.replicate 8 0#32, base.setReg (R.AC_CAL 15 1) 0x40000000#32,
    by decide +kernel⟩

theorem witness_ConverterCommands_17 : ∃ (n : Fin 16) (c : Fin 2) (temp : BitVec 16) (s : State),
    s.islandRuns n.val = true ∧ s.beatRuns = true ∧ s.rb (R.AC_CAL n.val c.val) 29 = true ∧ s.rb (R.AC_CAL n.val c.val) 28 = false :=
  ⟨(15 : Fin 16), (1 : Fin 2), (65535#16 : BitVec 16), (base.setReg (R.AC_CAL ((15 : Fin 16)).val ((1 : Fin 2)).val) 0x20000000#32),
    by decide +kernel⟩

theorem witness_DemodulatorAndComparatorCommands_0 : ∃ (n : Fin 16) (d : Fin 4) (samples : List (Bool × Bool)) (raw : Word) (s : State),
    s.sdClocked n.val d.val = true ∧ s.sdWindowOver n.val d.val samples.length = true ∧ raw = wOfInt (sinc3Of (s.osr3 n.val d.val) (((s.sdSamples n.val d.val samples).reverse ++ (s.sdRec n.val d.val).hist3).take 766)) :=
  ⟨15, 3, List.replicate 16 (true, false), _, { ((base.setReg (R.SD_CFG 15 3) 0x80000000#32).setReg (R.SD_CLK 15 0) 0x80000000#32) with clk := { base.clk with beat := 1000#64 } },
    by decide +kernel, by decide +kernel, rfl⟩
theorem witness_DemodulatorAndComparatorCommands_1 : ∃ (n : Fin 16) (d : Fin 4) (samples : List (Bool × Bool)) (raw : Word) (s : State),
    s.sdClocked n.val d.val = true ∧ s.sdFastOver n.val d.val samples.length = true ∧ raw = wOfInt (sinc2Of (s.osr2 n.val d.val) (((s.sdSamples n.val d.val samples).reverse ++ (s.sdRec n.val d.val).hist2).take 63)) :=
  ⟨15, 3, List.replicate 4 (true, false), _, { ((base.setReg (R.SD_CFG 15 3) 0x80000000#32).setReg (R.SD_CLK 15 0) 0x80000000#32) with clk := { base.clk with beat := 1000#64 } },
    by decide +kernel, by decide +kernel, rfl⟩
theorem witness_DemodulatorAndComparatorCommands_2 : ∃ (n : Fin 16) (d : Fin 4) (samples : List (Bool × Bool)) (s : State),
    (s.sdClocked n.val d.val = false ∨ (s.sdWindowOver n.val d.val samples.length = false ∧ s.sdFastOver n.val d.val samples.length = false)) :=
  ⟨15, 3, [], base,
    by decide +kernel⟩
theorem witness_DemodulatorAndComparatorCommands_3 : ∃ (n : Fin 16) (d : Fin 4) (s : State),
    s.sdOn n.val d.val = true :=
  ⟨15, 3, base.setReg (R.SD_CFG 15 3) 0x80000000#32,
    by decide +kernel⟩
theorem witness_DemodulatorAndComparatorCommands_4 : ∃ (m : Master) (n : Fin 16) (d : Fin 4) (s : State) (r : RegRow),
    s.Reads m (.sd n.val d.val) r (R.SD_DATA n.val d.val) :=
  ⟨(.mp : Master), (15 : Fin 16), (3 : Fin 4), (base), rowOf (R.SD_DATA ((15 : Fin 16)).val ((3 : Fin 4)).val),
    by constructor <;> decide +kernel⟩
theorem witness_DemodulatorAndComparatorCommands_5 : ∃ (n : Fin 16) (d : Fin 4) (s : State),
    s.sdOn n.val d.val = true :=
  ⟨(15 : Fin 16), (3 : Fin 4), (base.setReg (R.SD_CFG ((15 : Fin 16)).val ((3 : Fin 4)).val) 0x80000000#32),
    by decide +kernel⟩
theorem witness_DemodulatorAndComparatorCommands_6 : ∃ (n : Fin 16) (d : Fin 4) (s : State),
    s.sdClocked n.val d.val = true :=
  ⟨15, 3, ((base.setReg (R.SD_CFG 15 3) 0x80000000#32).setReg (R.SD_CLK 15 0) 0x80000000#32),
    by decide +kernel⟩
theorem witness_DemodulatorAndComparatorCommands_7 : ∃ (n : Fin 16) (d : Fin 4) (s : State),
    s.sdClocked n.val d.val = true :=
  ⟨15, 3, ((base.setReg (R.SD_CFG 15 3) 0x80000000#32).setReg (R.SD_CLK 15 0) 0x80000000#32),
    by decide +kernel⟩
theorem witness_DemodulatorAndComparatorCommands_8 : ∃ (n : Fin 16) (c : Fin 8) (x : InputVoltage) (thr h v : Int) (d : Bool) (s : State),
    s.islandRuns n.val = true ∧ s.rb (R.CP_CFG n.val c.val) 31 = true ∧ s.device ≠ .watch ∧ s.rf (R.CP_CFG n.val c.val) 2 0 = x.ain.val ∧ s.rf (R.CP_CFG n.val c.val) 7 4 = 0 ∧ thr = s.rf (R.CP_THR n.val c.val) 11 0 * 2500000 ∧ h = 4096 * cpHyst (s.rf (R.CP_CFG n.val c.val) 25 24) ∧ v = 4096 * x.vin.toInt ∧ d = (if s.rb (R.CP_CFG n.val c.val) 30 then (if v < thr then true else if thr + h < v then false else (s.cp n.val c.val).dec) else if thr < v then true else if v < thr - h then false else (s.cp n.val c.val).dec) :=
  ⟨15, 7, ⟨5, 1#32⟩, 0, 4096 * cpHyst 3, 4096, true, (base.setReg (R.CP_CFG 15 7) 0x83000005#32).setReg (R.CP_THR 15 7) 0#32,
    by decide +kernel⟩
theorem witness_DemodulatorAndComparatorCommands_9 : ∃ (n : Fin 16) (c : Fin 8) (x : InputVoltage) (d : Bool) (s : State),
    s.islandRuns n.val = true ∧ s.rb (R.CP_CFG n.val c.val) 31 = true ∧ s.device ≠ .watch ∧ s.rf (R.CP_CFG n.val c.val) 2 0 = x.ain.val ∧ s.rf (R.CP_CFG n.val c.val) 7 4 ≠ 0 ∧ d = s.cpDecision n.val c.val x.vin.toInt :=
  ⟨15, 7, ⟨5, 1#32⟩, true, (base.setReg (R.CP_CFG 15 7) 0x830000F5#32).setReg (R.CP_THR 15 7) 0#32,
    by decide +kernel⟩

theorem witness_DemodulatorAndComparatorCommands_10 : ∃ (n : Fin 16) (c : Fin 8) (x : InputVoltage) (s : State),
    s.islandRuns n.val = true ∧ s.rb (R.CP_CFG n.val c.val) 31 = true ∧ s.device = .watch ∧ s.rf (R.CP_CFG n.val c.val) 2 0 = x.ain.val ∧ s.rb (R.CP_CFG n.val c.val) 29 = true ∧ c.val < 2 :=
  ⟨15, 1, ⟨5, 1#32⟩, { base.setReg (R.CP_CFG 15 1) 0xA0000005#32 with device := .watch },
    by decide +kernel⟩

theorem witness_DemodulatorAndComparatorCommands_11 : ∃ (n : Fin 16) (c : Fin 8) (x : InputVoltage) (s : State),
    (s.rb (R.CP_CFG n.val c.val) 31 = false ∨ s.rf (R.CP_CFG n.val c.val) 2 0 ≠ x.ain.val) :=
  ⟨15, 7, ⟨5, 1#32⟩, base.setReg (R.CP_CFG 15 7) 0x80000004#32,
    by decide +kernel⟩

theorem witness_DemodulatorAndComparatorCommands_12 : ∃ (n : Fin 16) (c : Fin 8) (s : State),
    s.rb (R.CP_STATE n.val c.val) 30 = true :=
  ⟨(15 : Fin 16), (7 : Fin 8), (base.setReg (R.CP_STATE ((15 : Fin 16)).val ((7 : Fin 8)).val) 0x40000000#32),
    by decide +kernel⟩

theorem witness_DemodulatorAndComparatorCommands_13 : ∃ (n : Fin 16) (c : Fin 8) (vin : Word) (active : Bool) (s : State),
    s.rb (R.CP_STATE n.val c.val) 29 = true ∧ active = s.cpDecision n.val c.val vin.toInt :=
  ⟨15, 7, 1#32, true, (base.setReg (R.CP_STATE 15 7) 0x20000000#32).setReg (R.CP_THR 15 7) 0#32,
    by decide +kernel⟩

theorem witness_PositionCommands_0 : ∃ (n : Fin 16) (q : Fin 2) (a b : Bool) (ago : Word) (s : State),
    s.eqOn n.val q.val = true ∧ s.eqMode n.val q.val < 5 ∧ (s.eq n.val q.val).filtA = none ∧ (s.eq n.val q.val).filtB = none ∧ s.eqAccepts n.val q.val (s.nowFine - ago.toNat) = true ∧ countChange (s.eqMode n.val q.val) (s.eq n.val q.val).a (s.eq n.val q.val).b a b ≠ 0 ∧ (s.eqMode n.val q.val < 3 → (s.eq n.val q.val).a = a ∨ (s.eq n.val q.val).b = b) ∧ tooClose (s.eq n.val q.val).lastA (s.nowFine - ago.toNat) = false ∧ tooClose (s.eq n.val q.val).lastB (s.nowFine - ago.toNat) = false ∧ s.pcState n.val q.val ≠ 1 :=
  ⟨15, 1, true, false, 6400#32, { (base.setReg (R.EQ_CTRL 15 1) 0x80000000#32) with clk := { base.clk with beat := 1000#64 } },
    by decide +kernel⟩
theorem witness_PositionCommands_1 : ∃ (n : Fin 16) (q : Fin 2) (a b : Bool) (ago : Word) (s : State),
    s.eqOn n.val q.val = true ∧ s.eqMode n.val q.val < 3 ∧ (s.eq n.val q.val).filtA = none ∧ (s.eq n.val q.val).filtB = none ∧ s.eqAccepts n.val q.val (s.nowFine - ago.toNat) = true ∧ (s.eq n.val q.val).a ≠ a ∧ (s.eq n.val q.val).b ≠ b :=
  ⟨15, 1, true, true, 6400#32, { (base.setReg (R.EQ_CTRL 15 1) 0x80000000#32) with clk := { base.clk with beat := 1000#64 } },
    by decide +kernel⟩
theorem witness_PositionCommands_2 : ∃ (n : Fin 16) (q : Fin 2) (a b : Bool) (ago : Word) (s : State),
    s.eqOn n.val q.val = true ∧ (s.eq n.val q.val).filtA = none ∧ (s.eq n.val q.val).filtB = none ∧ s.eqAccepts n.val q.val (s.nowFine - ago.toNat) = false :=
  ⟨15, 1, true, false, 0#32, ((base.setReg (R.EQ_CTRL 15 1) 0x80000000#32)).setReg (R.EQ_CFG 15 1) 0x00FC0000#32,
    by decide +kernel⟩
theorem witness_PositionCommands_3 : ∃ (n : Fin 16) (q : Fin 2) (s : State),
    s.eqOn n.val q.val = true ∧ s.eqMode n.val q.val < 5 ∧ (s.rb (R.EQ_CFG n.val q.val) 25 = false ∨ ((s.eq n.val q.val).a && (s.eq n.val q.val).b) = true) :=
  ⟨(15 : Fin 16), (1 : Fin 2), (base.setReg (R.EQ_CTRL ((15 : Fin 16)).val ((1 : Fin 2)).val) 0x80000000#32),
    by decide +kernel⟩
theorem witness_PositionCommands_4 : ∃ (m : Master) (n : Fin 16) (q : Fin 2) (v : Word) (s : State) (r : RegRow),
    s.Writes m (.eq n.val q.val) r (R.EQ_PRESET n.val q.val) :=
  ⟨(.mp : Master), (15 : Fin 16), (1 : Fin 2), (0xFFFFFFFF#32 : Word), (base), rowOf (R.EQ_PRESET ((15 : Fin 16)).val ((1 : Fin 2)).val),
    by constructor <;> decide +kernel⟩
theorem witness_PositionCommands_5 : ∃ (n : Fin 16) (q : Fin 2) (dataHigh : Bool) (s : State),
    s.eqOn n.val q.val = true ∧ s.eqMode n.val q.val = 5 ∧ (s.eq n.val q.val).ssiRun = none ∧ (s.eq n.val q.val).ssiWait = none :=
  ⟨(15 : Fin 16), (1 : Fin 2), (true : Bool), ((base.setReg (R.EQ_CTRL ((15 : Fin 16)).val ((1 : Fin 2)).val) 0x80000000#32).setReg (R.EQ_CFG ((15 : Fin 16)).val ((1 : Fin 2)).val) 0x50000000#32),
    by decide +kernel⟩
theorem witness_PositionCommands_6 : ∃ (n : Fin 16) (q : Fin 2) (dataHigh : Bool) (s : State),
    s.eqOn n.val q.val = true ∧ s.eqMode n.val q.val = 5 ∧ ((s.eq n.val q.val).ssiRun ≠ none ∨ (s.eq n.val q.val).ssiWait ≠ none) :=
  ⟨15, 1, true, { ((base.setReg (R.EQ_CTRL 15 1) 0x80000000#32).setReg (R.EQ_CFG 15 1) 0x50000000#32) with eqs := [(31, { EqRec.reset with ssiRun := some 3 })] },
    by decide +kernel⟩
theorem witness_PositionCommands_7 : ∃ (n : Fin 16) (q : Fin 2) (s : State),
    s.eqOn n.val q.val = true ∧ s.eqMode n.val q.val = 5 ∧ (s.eq n.val q.val).ssiWait ≠ none :=
  ⟨15, 1, { ((base.setReg (R.EQ_CTRL 15 1) 0x80000000#32).setReg (R.EQ_CFG 15 1) 0x50000000#32) with eqs := [(31, { EqRec.reset with ssiWait := some 3 })] },
    by decide +kernel⟩
theorem witness_PositionCommands_8 : ∃ (n : Fin 16) (q : Fin 2) (x : Nat) (s : State),
    s.eqOn n.val q.val = true ∧ (s.eq n.val q.val).ssiWait = some x :=
  ⟨15, 1, 3, { ((base.setReg (R.EQ_CTRL 15 1) 0x80000000#32).setReg (R.EQ_CFG 15 1) 0x50000000#32) with eqs := [(31, { EqRec.reset with ssiWait := some 3 })] },
    by decide +kernel⟩
theorem witness_PositionCommands_9 : ∃ (n : Fin 16) (q : Fin 2) (frame : BitVec 48) (cfg : Word) (s : State),
    s.eqOn n.val q.val = true ∧ s.ssiOver n.val q.val = true ∧ cfg = (s.ssiRegs n.val q.val).1 ∧ ssiBits cfg ≤ 32 :=
  ⟨15, 1, 281474976710655#48, 0x65904000#32, { (((base.setReg (R.EQ_CTRL 15 1) 0x80000000#32).setReg (R.EQ_CFG 15 1) 0x50000000#32)) with eqs := [(31, { EqRec.reset with ssiRun := some 3 })], clk := { base.clk with beat := 100000#64 } },
    by decide +kernel⟩
theorem witness_PositionCommands_10 : ∃ (n : Fin 16) (q : Fin 2) (frame : BitVec 48) (s : State),
    s.ssiOver n.val q.val = false :=
  ⟨15, 1, 0#48, base,
    by decide +kernel⟩
theorem witness_PositionCommands_11 : ∃ (m : Master) (n : Fin 16) (q : Fin 2) (v : Word) (s : State) (r : RegRow),
    s.Writes m (.eq n.val q.val) r (R.EQ_PC_CTRL n.val q.val) :=
  ⟨(.mp : Master), (15 : Fin 16), (1 : Fin 2), (0xFFFFFFFF#32 : Word), (base), rowOf (R.EQ_PC_CTRL ((15 : Fin 16)).val ((1 : Fin 2)).val),
    by constructor <;> decide +kernel⟩
theorem witness_PositionCommands_12 : ∃ (m : Master) (n : Fin 16) (q : Fin 2) (v : Word) (s : State) (r : RegRow),
    s.Writes m (.eq n.val q.val) r (R.EQ_PC_CTRL n.val q.val) :=
  ⟨(.mp : Master), (15 : Fin 16), (1 : Fin 2), (0xFFFFFFFF#32 : Word), (base), rowOf (R.EQ_PC_CTRL ((15 : Fin 16)).val ((1 : Fin 2)).val),
    by constructor <;> decide +kernel⟩

theorem witness_PositionCommands_13 : ∃ (n : Fin 16) (q : Fin 2) (s : State),
    s.eqOn n.val q.val = true ∧ s.rb (R.EQ_PC_CFG n.val q.val) 26 = true :=
  ⟨(15 : Fin 16), (1 : Fin 2), ((base.setReg (R.EQ_CTRL ((15 : Fin 16)).val ((1 : Fin 2)).val) 0x80000000#32).setReg (R.EQ_PC_CFG ((15 : Fin 16)).val ((1 : Fin 2)).val) 0x04000000#32),
    by decide +kernel⟩

theorem witness_PositionCommands_14 : ∃ (n : Fin 16) (q : Fin 2) (s : State),
    s.dwellDue n.val q.val = true :=
  ⟨(15 : Fin 16), (1 : Fin 2), ({ ((base.setReg (R.EQ_CTRL ((15 : Fin 16)).val ((1 : Fin 2)).val) 0x80000000#32).setReg (R.EQ_PC_CTRL ((15 : Fin 16)).val ((1 : Fin 2)).val) 1#32).setReg (R.EQ_PC_BAND ((15 : Fin 16)).val ((1 : Fin 2)).val) 0x1FFFF#32 with clk := { base.clk with beat := 1000#64 } }),
    by decide +kernel⟩
theorem witness_PositionCommands_15 : ∃ (n : Fin 16) (q : Fin 2) (s : State),
    s.pulseOver n.val q.val = false :=
  ⟨15, 1, base,
    by decide +kernel⟩

theorem witness_PositionCommands_16 : ∃ (n : Fin 16) (q : Fin 2) (s : State),
    s.pulseOver n.val q.val = true :=
  ⟨15, 1, { (base.setReg (R.EQ_CTRL 15 1) 0x80000000#32) with eqs := [(31, { EqRec.reset with pulseEnd := some 0 })] },
    by decide +kernel⟩

theorem witness_PositionCommands_17 : ∃ (n : Fin 16) (k : Fin 4) (rise : Bool) (ago : Word) (s : State),
    s.islandRuns n.val = true ∧ s.beatRuns = true ∧ s.rb (R.MK_CFG n.val k.val) 31 = true ∧ s.markSource n.val (s.rf (R.MK_CFG n.val k.val) 9 0) = true ∧ s.markAccepts n.val k.val (s.nowFine - ago.toNat) = true ∧ edgeSelected (s.rf (R.MK_CFG n.val k.val) 11 10) rise = true ∧ s.rf (R.MK_CFG n.val k.val) 29 22 ≤ (s.mark n.val k.val).presc ∧ (s.mark n.val k.val).lastCap = none :=
  ⟨(15 : Fin 16), (3 : Fin 4), (true : Bool), (0#32 : Word), (base.setReg (R.MK_CFG ((15 : Fin 16)).val ((3 : Fin 4)).val) 0x80000000#32),
    by decide +kernel⟩

theorem witness_PositionCommands_18 : ∃ (n : Fin 16) (k : Fin 4) (rise : Bool) (ago : Word) (s : State),
    s.islandRuns n.val = true ∧ s.beatRuns = true ∧ s.rb (R.MK_CFG n.val k.val) 31 = true ∧ s.markSource n.val (s.rf (R.MK_CFG n.val k.val) 9 0) = true ∧ s.markAccepts n.val k.val (s.nowFine - ago.toNat) = false :=
  ⟨15, 3, true, 0#32, base.setReg (R.MK_CFG 15 3) 0x8003F000#32,
    by decide +kernel⟩

theorem witness_PositionCommands_19 : ∃ (n : Fin 16) (k : Fin 4) (rise : Bool) (ago : Word) (s : State),
    (s.rb (R.MK_CFG n.val k.val) 31 = false ∨ s.markSource n.val (s.rf (R.MK_CFG n.val k.val) 9 0) = false) :=
  ⟨15, 3, true, 0#32, base,
    by decide +kernel⟩

theorem witness_PositionCommands_20 : ∃ (m : Master) (n : Fin 16) (k : Fin 4) (s : State) (r : RegRow),
    s.Reads m (.mk n.val k.val) r (R.MK_POS_LO n.val k.val) :=
  ⟨(.mp : Master), (15 : Fin 16), (3 : Fin 4), (base), rowOf (R.MK_POS_LO ((15 : Fin 16)).val ((3 : Fin 4)).val),
    by constructor <;> decide +kernel⟩

theorem witness_sound : ∃ s t : State, s.Sound ∧ step s = .next t :=
  ⟨{ State.reset with due := [.globalStart] }, { State.reset with pending := [.globalStart], due := [] },
    by constructor <;> decide, rfl⟩

theorem witness_LoopContextCommands_0 : ∃ (m : Master) (n : Fin 16) (e : Fin 6) (v : Word) (s : State) (r : RegRow),
    s.Writes m (.le n.val e.val) r (R.LE_RUN n.val e.val) ∧ s.Sound ∧ s.leSubst n.val ≠ some e.val ∧ s.blockTakes (.le n.val e.val) = true :=
  ⟨(.mp : Master), (15 : Fin 16), (5 : Fin 6), (0xFFFFFFFF#32 : Word), (base), rowOf (R.LE_RUN ((15 : Fin 16)).val ((5 : Fin 6)).val),
    by constructor <;> decide +kernel, by constructor <;> decide +kernel,
    by decide +kernel⟩
theorem witness_LoopContextCommands_1 : ∃ (n : Fin 16) (m : Fin 6) (c : Fin 8) (s : State),
    (s.le n.val m.val).enabling.testBit c.val = true ∧ s.leAtBoundary n.val m.val = true :=
  ⟨(15 : Fin 16), (5 : Fin 6), (7 : Fin 8), ({ base with les := [(6 * ((15 : Fin 16)).val + ((5 : Fin 6)).val, { LeRec.reset with enabling := 2 ^ ((7 : Fin 8)).val })] }),
    by decide +kernel⟩
theorem witness_LoopContextCommands_2 : ∃ (n : Fin 16) (m : Fin 6) (c : Fin 8) (s : State),
    s.Sound ∧ s.ctxOn n.val m.val c.val = true ∧ s.leWorks n.val m.val = true ∧ (s.ctx n.val m.val c.val).phase = .idle :=
  ⟨(15 : Fin 16), (5 : Fin 6), (7 : Fin 8), ({ base.setReg (R.LE_RUN ((15 : Fin 16)).val ((5 : Fin 6)).val) (w32 (2 ^ ((7 : Fin 8)).val)) with device := .run }),
    by constructor <;> decide +kernel,
    by decide +kernel⟩
theorem witness_LoopContextCommands_3 : ∃ (n : Fin 16) (m : Fin 6) (c : Fin 8) (s : State),
    s.Sound ∧ s.ctxOn n.val m.val c.val = true ∧ s.leWorks n.val m.val = true ∧ (s.ctx n.val m.val c.val).phase ≠ .idle :=
  ⟨(15 : Fin 16), (5 : Fin 6), (7 : Fin 8), ({ (base.setReg (R.LE_RUN ((15 : Fin 16)).val ((5 : Fin 6)).val) (w32 (2 ^ ((7 : Fin 8)).val))) with device := .run, les := [(6 * ((15 : Fin 16)).val + ((5 : Fin 6)).val, { LeRec.reset with ctxs := (List.replicate 8 CtxRec.reset).set ((7 : Fin 8)).val { CtxRec.reset with phase := .runnable, arrival := 3 } })] }),
    by constructor <;> decide +kernel,
    by decide +kernel⟩
theorem witness_LoopContextCommands_4 : ∃ (n : Fin 16) (m : Fin 6) (c : Fin 8) (s : State),
    s.Sound ∧ (s.ctx n.val m.val c.val).phase = .waiting ∧ s.ctxFresh n.val m.val c.val = true :=
  ⟨(15 : Fin 16), (5 : Fin 6), (7 : Fin 8), ({ base with les := [(6 * ((15 : Fin 16)).val + ((5 : Fin 6)).val, { LeRec.reset with ctxs := (List.replicate 8 CtxRec.reset).set ((7 : Fin 8)).val { CtxRec.reset with phase := .waiting } })] }),
    by constructor <;> decide +kernel,
    by decide +kernel⟩
theorem witness_LoopContextCommands_5 : ∃ (n : Fin 16) (m : Fin 6) (c : Fin 8) (s : State),
    s.Sound ∧ s.timedOut n.val m.val c.val = true ∧ s.ctxFresh n.val m.val c.val = false :=
  ⟨(15 : Fin 16), (5 : Fin 6), (7 : Fin 8), ({ (base.setReg (R.LE_CTXc_WAIT ((15 : Fin 16)).val ((5 : Fin 6)).val ((7 : Fin 8)).val) 0x00100001#32) with clk := { base.clk with beat := 100#64 }, les := [(6 * ((15 : Fin 16)).val + ((5 : Fin 6)).val, { LeRec.reset with ctxs := (List.replicate 8 CtxRec.reset).set ((7 : Fin 8)).val { CtxRec.reset with phase := .waiting } })] }),
    by constructor <;> decide +kernel,
    by decide +kernel⟩
theorem witness_LoopContextCommands_6 : ∃ (n : Fin 16) (m : Fin 6) (c : Fin 8) (w : Fin 16384) (v : Word) (s : State),
    s.Sound ∧ (s.ctx n.val m.val c.val).phase = .held ∧ (s.ctx n.val m.val c.val).overrun = false ∧ s.releaseTick n.val m.val c.val ≤ s.absTick ∧ (s.ctx n.val m.val c.val).lastOut.getD 0 ≤ s.releaseTick n.val m.val c.val :=
  ⟨(15 : Fin 16), (5 : Fin 6), (7 : Fin 8), (16383 : Fin 16384), (0xFFFFFFFF#32 : Word), ({ base with clk := { base.clk with beat := 1000000#64 }, les := [(6 * ((15 : Fin 16)).val + ((5 : Fin 6)).val, { LeRec.reset with ctxs := (List.replicate 8 CtxRec.reset).set ((7 : Fin 8)).val { CtxRec.reset with phase := .held, outs := [.exchange ((16383 : Fin 16384)).val [((0xFFFFFFFF#32 : Word))]] } })] }),
    by constructor <;> decide +kernel, by decide +kernel⟩
theorem witness_LoopContextCommands_7 : ∃ (m : Master) (n : Fin 16) (e : Fin 6) (c : Fin 8) (v : Word) (s : State) (r : RegRow),
    s.Writes m (.le n.val e.val) r (R.LE_CTXc_LAT n.val e.val c.val) ∧ s.blockTakes (.le n.val e.val) = true :=
  ⟨(.mp : Master), (15 : Fin 16), (5 : Fin 6), (7 : Fin 8), (0xFFFFFFFF#32 : Word), (base), rowOf (R.LE_CTXc_LAT ((15 : Fin 16)).val ((5 : Fin 6)).val ((7 : Fin 8)).val),
    by constructor <;> decide +kernel, by decide +kernel⟩
theorem witness_LoopContextCommands_8 : ∃ (m : Master) (n : Fin 16) (v : Word) (s : State) (r : RegRow),
    s.Writes m (.ic n.val) r (R.IC_LE_SUBST n.val) ∧ fld v 2 0 < 6 ∧ s.leHostedOne n.val = none ∧ (∀ e : Fin 6, (s.le n.val e.val).copying = false) ∧ (bit v 31 = true → s.rf (R.LE_RUN n.val (fld v 2 0)) 7 0 = 0 ∧ (s.le n.val (fld v 2 0)).enabling = 0) :=
  ⟨(.mp : Master), (15 : Fin 16), (0x80000105#32 : Word), (base), rowOf (R.IC_LE_SUBST ((15 : Fin 16)).val),
    by constructor <;> decide +kernel, by decide +kernel⟩
theorem witness_LoopContextCommands_9 : ∃ (n : Fin 16) (passed : Bool) (e : Fin 6) (s : State),
    s.islandRuns n.val = true ∧ s.leSubst n.val = some e.val ∧ s.leHostedOne n.val = none ∧ (∀ i : Fin 6, (s.le n.val i.val).copying = false) ∧ s.leRetired n.val e.val = false :=
  ⟨(15 : Fin 16), (false : Bool), (5 : Fin 6), (base.setReg (R.IC_LE_SUBST ((15 : Fin 16)).val) (w32 (2 ^ 31 + ((5 : Fin 6)).val))),
    by decide +kernel⟩
theorem witness_LoopContextCommands_10 : ∃ (n : Fin 16) (m : Fin 6) (s : State),
    s.Sound ∧ (s.le n.val m.val).copying = true :=
  ⟨(15 : Fin 16), (5 : Fin 6), ({ base with les := [(6 * ((15 : Fin 16)).val + ((5 : Fin 6)).val, { LeRec.reset with copying := true })] }),
    by constructor <;> decide +kernel, by decide +kernel⟩

theorem witness_LoopContextCommands_11 : ∃ (n : Fin 16) (m : Fin 6) (c : Fin 8) (s : State),
    s.Sound ∧ (s.ctx n.val m.val c.val).phase = .held ∧ (s.ctx n.val m.val c.val).overrun = false ∧ s.releaseTick n.val m.val c.val ≤ s.absTick ∧ s.releaseTick n.val m.val c.val < (s.ctx n.val m.val c.val).lastOut.getD 0 :=
  ⟨15, 5, 7, { base with clk := { base.clk with beat := 1000000#64 }, les := [(6 * 15 + 5, { LeRec.reset with ctxs := (List.replicate 8 CtxRec.reset).set 7 { CtxRec.reset with phase := .held, lastOut := some 20000000 } })] },
    by constructor <;> decide +kernel, by decide +kernel⟩

theorem witness_InputAndTransformStages_0 : ∃ (n : Fin 16) (m : Fin 6) (c : Fin 8) (i : Nat) (h : Hdr) (f : Form) (s : State),
    s.Dispatches n.val m.val c.val 0x10 i h f :=
  ⟨(15 : Fin 16), (5 : Fin 6), (7 : Fin 8), (0 : Nat), (hdrOf 0x00000110#32 0x01000000#32 0x00400400#32 0x00020002#32 : Hdr), (⟨true, 1, 1, 0, 0, 1, 2, 0⟩ : Form), (stageBase ((15 : Fin 16)).val ((5 : Fin 6)).val ((7 : Fin 8)).val [0x00000110#32, 0x01000000#32, 0x00400400#32, 0x00020002#32] [0x0#32, 0x3F800000#32]),
    by constructor <;> first | decide +kernel | refine ⟨?_, ?_⟩ <;> decide +kernel⟩

theorem witness_InputAndTransformStages_1 : ∃ (n : Fin 16) (m : Fin 6) (c : Fin 8) (i : Nat) (h : Hdr) (f : Form) (s : State),
    s.Dispatches n.val m.val c.val 0x11 i h f :=
  ⟨(15 : Fin 16), (5 : Fin 6), (7 : Fin 8), (0 : Nat), (hdrOf 0x00000111#32 0x01000000#32 0x00400400#32 0x00020002#32 : Hdr), (⟨true, 1, 1, 0, 0, 1, 2, 0⟩ : Form), (stageBase ((15 : Fin 16)).val ((5 : Fin 6)).val ((7 : Fin 8)).val [0x00000111#32, 0x01000000#32, 0x00400400#32, 0x00020002#32] [0x0#32, 0x3F800000#32]),
    by constructor <;> first | decide +kernel | refine ⟨?_, ?_⟩ <;> decide +kernel⟩

theorem witness_InputAndTransformStages_2 : ∃ (n : Fin 16) (m : Fin 6) (c : Fin 8) (i : Nat) (h : Hdr) (f : Form) (s : State),
    s.Dispatches n.val m.val c.val 0x12 i h f :=
  ⟨(15 : Fin 16), (5 : Fin 6), (7 : Fin 8), (0 : Nat), (hdrOf 0x00000112#32 0x01000000#32 0x00400400#32 0x00020002#32 : Hdr), (⟨false, 1, 1, 0, 0, 3, 2, 4⟩ : Form), (stageBase ((15 : Fin 16)).val ((5 : Fin 6)).val ((7 : Fin 8)).val [0x00000112#32, 0x01000000#32, 0x00400400#32, 0x00020002#32] [0x0#32, 0x3F800000#32]),
    by constructor <;> first | decide +kernel | refine ⟨?_, ?_⟩ <;> decide +kernel⟩

theorem witness_InputAndTransformStages_3 : ∃ (n : Fin 16) (m : Fin 6) (c : Fin 8) (i : Nat) (h : Hdr) (f : Form) (s : State),
    s.Dispatches n.val m.val c.val 0x13 i h f :=
  ⟨(15 : Fin 16), (5 : Fin 6), (7 : Fin 8), (0 : Nat), (hdrOf 0x00000113#32 0x01000000#32 0x00400400#32 0x00020004#32 : Hdr), (⟨false, 2, 2, 0, 0, 3, 4, 4⟩ : Form), (stageBase ((15 : Fin 16)).val ((5 : Fin 6)).val ((7 : Fin 8)).val [0x00000113#32, 0x01000000#32, 0x00400400#32, 0x00020004#32] [0x0#32, 0x3F800000#32, 0x3F800000#32, 0x3F800000#32]),
    by constructor <;> first | decide +kernel | refine ⟨?_, ?_⟩ <;> decide +kernel⟩

theorem witness_InputAndTransformStages_4 : ∃ (n : Fin 16) (m : Fin 6) (c : Fin 8) (i : Nat) (h : Hdr) (f : Form) (s : State),
    s.Dispatches n.val m.val c.val 0x14 i h f :=
  ⟨(15 : Fin 16), (5 : Fin 6), (7 : Fin 8), (0 : Nat), (hdrOf 0x00000114#32 0x01000000#32 0x00400400#32 0x00020003#32 : Hdr), (⟨false, 2, 2, 0, 0, 3, 3, 2⟩ : Form), (stageBase ((15 : Fin 16)).val ((5 : Fin 6)).val ((7 : Fin 8)).val [0x00000114#32, 0x01000000#32, 0x00400400#32, 0x00020003#32] [0x0#32, 0x3F800000#32, 0x3F800000#32]),
    by constructor <;> first | decide +kernel | refine ⟨?_, ?_⟩ <;> decide +kernel⟩

theorem witness_InputAndTransformStages_5 : ∃ (n : Fin 16) (m : Fin 6) (c : Fin 8) (i : Nat) (h : Hdr) (f : Form) (s : State),
    s.Dispatches n.val m.val c.val 0x20 i h f :=
  ⟨(15 : Fin 16), (5 : Fin 6), (7 : Fin 8), (0 : Nat), (hdrOf 0x00000120#32 0x01000000#32 0x00400400#32 0x00020000#32 : Hdr), (⟨true, 3, 3, 0, 0, 2, 0, 0⟩ : Form), (stageBase ((15 : Fin 16)).val ((5 : Fin 6)).val ((7 : Fin 8)).val [0x00000120#32, 0x01000000#32, 0x00400400#32, 0x00020000#32] [0x0#32]),
    by constructor <;> first | decide +kernel | refine ⟨?_, ?_⟩ <;> decide +kernel⟩

theorem witness_InputAndTransformStages_6 : ∃ (n : Fin 16) (m : Fin 6) (c : Fin 8) (i : Nat) (h : Hdr) (f : Form) (s : State),
    s.Dispatches n.val m.val c.val 0x21 i h f :=
  ⟨(15 : Fin 16), (5 : Fin 6), (7 : Fin 8), (0 : Nat), (hdrOf 0x00000121#32 0x01000000#32 0x00400400#32 0x00020000#32 : Hdr), (⟨true, 2, 2, 0, 0, 3, 0, 0⟩ : Form), (stageBase ((15 : Fin 16)).val ((5 : Fin 6)).val ((7 : Fin 8)).val [0x00000121#32, 0x01000000#32, 0x00400400#32, 0x00020000#32] [0x0#32]),
    by constructor <;> first | decide +kernel | refine ⟨?_, ?_⟩ <;> decide +kernel⟩

theorem witness_InputAndTransformStages_7 : ∃ (n : Fin 16) (m : Fin 6) (c : Fin 8) (i : Nat) (h : Hdr) (f : Form) (s : State),
    s.Dispatches n.val m.val c.val 0x22 i h f :=
  ⟨(15 : Fin 16), (5 : Fin 6), (7 : Fin 8), (0 : Nat), (hdrOf 0x00000122#32 0x01000000#32 0x00400400#32 0x00020002#32 : Hdr), (⟨true, 2, 2, 1, 1, 2, 2, 0⟩ : Form), (stageBase ((15 : Fin 16)).val ((5 : Fin 6)).val ((7 : Fin 8)).val [0x00000122#32, 0x01000000#32, 0x00400400#32, 0x00020002#32] [0x0#32, 0x3F800000#32]),
    by constructor <;> first | decide +kernel | refine ⟨?_, ?_⟩ <;> decide +kernel⟩

theorem witness_InputAndTransformStages_8 : ∃ (n : Fin 16) (m : Fin 6) (c : Fin 8) (i : Nat) (h : Hdr) (f : Form) (s : State),
    s.Dispatches n.val m.val c.val 0x23 i h f :=
  ⟨(15 : Fin 16), (5 : Fin 6), (7 : Fin 8), (0 : Nat), (hdrOf 0x00000123#32 0x01000000#32 0x00400400#32 0x00020002#32 : Hdr), (⟨true, 2, 2, 1, 1, 2, 2, 0⟩ : Form), (stageBase ((15 : Fin 16)).val ((5 : Fin 6)).val ((7 : Fin 8)).val [0x00000123#32, 0x01000000#32, 0x00400400#32, 0x00020002#32] [0x0#32, 0x3F800000#32]),
    by constructor <;> first | decide +kernel | refine ⟨?_, ?_⟩ <;> decide +kernel⟩

theorem witness_InputAndTransformStages_9 : ∃ (n : Fin 16) (m : Fin 6) (c : Fin 8) (i : Nat) (h : Hdr) (f : Form) (s : State),
    s.Dispatches n.val m.val c.val 0x24 i h f :=
  ⟨(15 : Fin 16), (5 : Fin 6), (7 : Fin 8), (0 : Nat), (hdrOf 0x00000124#32 0x01000000#32 0x00400400#32 0x00020000#32 : Hdr), (⟨true, 1, 1, 0, 0, 2, 0, 0⟩ : Form), (stageBase ((15 : Fin 16)).val ((5 : Fin 6)).val ((7 : Fin 8)).val [0x00000124#32, 0x01000000#32, 0x00400400#32, 0x00020000#32] [0x0#32]),
    by constructor <;> first | decide +kernel | refine ⟨?_, ?_⟩ <;> decide +kernel⟩

theorem witness_InputAndTransformStages_10 : ∃ (n : Fin 16) (m : Fin 6) (c : Fin 8) (i : Nat) (h : Hdr) (f : Form) (s : State),
    s.Dispatches n.val m.val c.val 0x25 i h f :=
  ⟨(15 : Fin 16), (5 : Fin 6), (7 : Fin 8), (0 : Nat), (hdrOf 0x00000125#32 0x01000000#32 0x00400400#32 0x00020000#32 : Hdr), (⟨true, 1, 1, 1, 1, 1, 0, 0⟩ : Form), (stageBase ((15 : Fin 16)).val ((5 : Fin 6)).val ((7 : Fin 8)).val [0x00000125#32, 0x01000000#32, 0x00400400#32, 0x00020000#32] [0x0#32]),
    by constructor <;> first | decide +kernel | refine ⟨?_, ?_⟩ <;> decide +kernel⟩

theorem witness_InputAndTransformStages_11 : ∃ (n : Fin 16) (m : Fin 6) (c : Fin 8) (i : Nat) (h : Hdr) (f : Form) (s : State),
    s.Dispatches n.val m.val c.val 0x26 i h f :=
  ⟨(15 : Fin 16), (5 : Fin 6), (7 : Fin 8), (0 : Nat), (hdrOf 0x00000126#32 0x01000000#32 0x00400400#32 0x00020000#32 : Hdr), (⟨true, 2, 2, 0, 0, 1, 0, 0⟩ : Form), (stageBase ((15 : Fin 16)).val ((5 : Fin 6)).val ((7 : Fin 8)).val [0x00000126#32, 0x01000000#32, 0x00400400#32, 0x00020000#32] [0x0#32]),
    by constructor <;> first | decide +kernel | refine ⟨?_, ?_⟩ <;> decide +kernel⟩

theorem witness_RegulatorAndFilterStages_0 : ∃ (n : Fin 16) (m : Fin 6) (c : Fin 8) (i : Nat) (h : Hdr) (f : Form) (s : State),
    s.Dispatches n.val m.val c.val 0x30 i h f :=
  ⟨(15 : Fin 16), (5 : Fin 6), (7 : Fin 8), (0 : Nat), (hdrOf 0x00000130#32 0x01000000#32 0x00400400#32 0x00020005#32 : Hdr), (⟨true, 1, 1, 1, 1, 1, 5, 1⟩ : Form), (stageBase ((15 : Fin 16)).val ((5 : Fin 6)).val ((7 : Fin 8)).val [0x00000130#32, 0x01000000#32, 0x00400400#32, 0x00020005#32] [0x0#32, 0x3F800000#32, 0x3F800000#32, 0x3F800000#32, 0x3F800000#32]),
    by constructor <;> first | decide +kernel | refine ⟨?_, ?_⟩ <;> decide +kernel⟩

theorem witness_RegulatorAndFilterStages_1 : ∃ (n : Fin 16) (m : Fin 6) (c : Fin 8) (i : Nat) (h : Hdr) (f : Form) (s : State),
    s.Dispatches n.val m.val c.val 0x31 i h f :=
  ⟨(15 : Fin 16), (5 : Fin 6), (7 : Fin 8), (0 : Nat), (hdrOf 0x00000131#32 0x01000000#32 0x00400400#32 0x00020007#32 : Hdr), (⟨true, 1, 1, 1, 1, 1, 7, 4⟩ : Form), (stageBase ((15 : Fin 16)).val ((5 : Fin 6)).val ((7 : Fin 8)).val [0x00000131#32, 0x01000000#32, 0x00400400#32, 0x00020007#32] [0x0#32, 0x3F800000#32, 0x3F800000#32, 0x3F800000#32, 0x3F800000#32, 0x3F800000#32, 0x3F800000#32]),
    by constructor <;> first | decide +kernel | refine ⟨?_, ?_⟩ <;> decide +kernel⟩

theorem witness_RegulatorAndFilterStages_2 : ∃ (n : Fin 16) (m : Fin 6) (c : Fin 8) (i : Nat) (h : Hdr) (f : Form) (s : State),
    s.Dispatches n.val m.val c.val 0x32 i h f :=
  ⟨(15 : Fin 16), (5 : Fin 6), (7 : Fin 8), (0 : Nat), (hdrOf 0x00000132#32 0x01000000#32 0x00400400#32 0x00020006#32 : Hdr), (⟨true, 1, 1, 1, 1, 1, 6, 1⟩ : Form), (stageBase ((15 : Fin 16)).val ((5 : Fin 6)).val ((7 : Fin 8)).val [0x00000132#32, 0x01000000#32, 0x00400400#32, 0x00020006#32] [0x0#32, 0x3F800000#32, 0x3F800000#32, 0x3F800000#32, 0x3F800000#32, 0x3F800000#32]),
    by constructor <;> first | decide +kernel | refine ⟨?_, ?_⟩ <;> decide +kernel⟩

theorem witness_RegulatorAndFilterStages_3 : ∃ (n : Fin 16) (m : Fin 6) (c : Fin 8) (i : Nat) (h : Hdr) (f : Form) (s : State),
    s.Dispatches n.val m.val c.val 0x33 i h f :=
  ⟨(15 : Fin 16), (5 : Fin 6), (7 : Fin 8), (0 : Nat), (hdrOf 0x00000133#32 0x01000000#32 0x00400400#32 0x00020008#32 : Hdr), (⟨true, 1, 1, 1, 1, 1, 8, 4⟩ : Form), (stageBase ((15 : Fin 16)).val ((5 : Fin 6)).val ((7 : Fin 8)).val [0x00000133#32, 0x01000000#32, 0x00400400#32, 0x00020008#32] [0x0#32, 0x3F800000#32, 0x3F800000#32, 0x3F800000#32, 0x3F800000#32, 0x3F800000#32, 0x3F800000#32, 0x3F800000#32]),
    by constructor <;> first | decide +kernel | refine ⟨?_, ?_⟩ <;> decide +kernel⟩

theorem witness_RegulatorAndFilterStages_4 : ∃ (n : Fin 16) (m : Fin 6) (c : Fin 8) (i : Nat) (h : Hdr) (f : Form) (s : State),
    s.Dispatches n.val m.val c.val 0x34 i h f :=
  ⟨(15 : Fin 16), (5 : Fin 6), (7 : Fin 8), (0 : Nat), (hdrOf 0x00000134#32 0x01000000#32 0x00400400#32 0x00020005#32 : Hdr), (⟨true, 1, 1, 0, 0, 1, 5, 2⟩ : Form), (stageBase ((15 : Fin 16)).val ((5 : Fin 6)).val ((7 : Fin 8)).val [0x00000134#32, 0x01000000#32, 0x00400400#32, 0x00020005#32] [0x0#32, 0x3F800000#32, 0x3F800000#32, 0x3F800000#32, 0x3F800000#32]),
    by constructor <;> first | decide +kernel | refine ⟨?_, ?_⟩ <;> decide +kernel⟩

theorem witness_RegulatorAndFilterStages_5 : ∃ (n : Fin 16) (m : Fin 6) (c : Fin 8) (i : Nat) (h : Hdr) (f : Form) (s : State),
    s.Dispatches n.val m.val c.val 0x40 i h f :=
  ⟨(15 : Fin 16), (5 : Fin 6), (7 : Fin 8), (0 : Nat), (hdrOf 0x00000140#32 0x01000000#32 0x00400400#32 0x00020001#32 : Hdr), (⟨true, 1, 1, 0, 0, 1, 1, 1⟩ : Form), (stageBase ((15 : Fin 16)).val ((5 : Fin 6)).val ((7 : Fin 8)).val [0x00000140#32, 0x01000000#32, 0x00400400#32, 0x00020001#32] [0x0#32]),
    by constructor <;> first | decide +kernel | refine ⟨?_, ?_⟩ <;> decide +kernel⟩

theorem witness_RegulatorAndFilterStages_6 : ∃ (n : Fin 16) (m : Fin 6) (c : Fin 8) (i : Nat) (h : Hdr) (f : Form) (s : State),
    s.Dispatches n.val m.val c.val 0x41 i h f :=
  ⟨(15 : Fin 16), (5 : Fin 6), (7 : Fin 8), (0 : Nat), (hdrOf 0x00000141#32 0x01000000#32 0x00400400#32 0x00020005#32 : Hdr), (⟨true, 1, 1, 0, 0, 1, 5, 2⟩ : Form), (stageBase ((15 : Fin 16)).val ((5 : Fin 6)).val ((7 : Fin 8)).val [0x00000141#32, 0x01000000#32, 0x00400400#32, 0x00020005#32] [0x0#32, 0x3F800000#32, 0x3F800000#32, 0x3F800000#32, 0x3F800000#32]),
    by constructor <;> first | decide +kernel | refine ⟨?_, ?_⟩ <;> decide +kernel⟩

theorem witness_RegulatorAndFilterStages_7 : ∃ (n : Fin 16) (m : Fin 6) (c : Fin 8) (i : Nat) (h : Hdr) (f : Form) (s : State),
    s.Dispatches n.val m.val c.val 0x42 i h f :=
  ⟨(15 : Fin 16), (5 : Fin 6), (7 : Fin 8), (0 : Nat), (hdrOf 0x00000142#32 0x01000000#32 0x00400400#32 0x00020004#32 : Hdr), (⟨true, 1, 1, 0, 0, 1, 4, 2⟩ : Form), (stageBase ((15 : Fin 16)).val ((5 : Fin 6)).val ((7 : Fin 8)).val [0x00000142#32, 0x01000000#32, 0x00400400#32, 0x00020004#32] [0x0#32, 0x3F800000#32, 0x3F800000#32, 0x3F800000#32]),
    by constructor <;> first | decide +kernel | refine ⟨?_, ?_⟩ <;> decide +kernel⟩

theorem witness_RegulatorAndFilterStages_8 : ∃ (n : Fin 16) (m : Fin 6) (c : Fin 8) (i : Nat) (h : Hdr) (f : Form) (s : State),
    s.Dispatches n.val m.val c.val 0x43 i h f :=
  ⟨(15 : Fin 16), (5 : Fin 6), (7 : Fin 8), (0 : Nat), (hdrOf 0x00000143#32 0x01000000#32 0x00400400#32 0x00020001#32 : Hdr), (⟨true, 1, 1, 0, 0, 1, 1, 6⟩ : Form), (stageBase ((15 : Fin 16)).val ((5 : Fin 6)).val ((7 : Fin 8)).val [0x00000143#32, 0x01000000#32, 0x00400400#32, 0x00020001#32] [0x4#32]),
    by constructor <;> first | decide +kernel | refine ⟨?_, ?_⟩ <;> decide +kernel⟩

theorem witness_ObserverAndLimitStages_0 : ∃ (n : Fin 16) (m : Fin 6) (c : Fin 8) (i : Nat) (h : Hdr) (f : Form) (s : State),
    s.Dispatches n.val m.val c.val 0x50 i h f :=
  ⟨(15 : Fin 16), (5 : Fin 6), (7 : Fin 8), (0 : Nat), (hdrOf 0x00000150#32 0x01000000#32 0x00400400#32 0x00020004#32 : Hdr), (⟨false, 2, 2, 0, 0, 3, 4, 4⟩ : Form), (stageBase ((15 : Fin 16)).val ((5 : Fin 6)).val ((7 : Fin 8)).val [0x00000150#32, 0x01000000#32, 0x00400400#32, 0x00020004#32] [0x0#32, 0x3F800000#32, 0x3F800000#32, 0x3F800000#32]),
    by constructor <;> first | decide +kernel | refine ⟨?_, ?_⟩ <;> decide +kernel⟩

theorem witness_ObserverAndLimitStages_1 : ∃ (n : Fin 16) (m : Fin 6) (c : Fin 8) (i : Nat) (h : Hdr) (f : Form) (s : State),
    s.Dispatches n.val m.val c.val 0x51 i h f :=
  ⟨(15 : Fin 16), (5 : Fin 6), (7 : Fin 8), (0 : Nat), (hdrOf 0x00000151#32 0x01000000#32 0x00400400#32 0x00020005#32 : Hdr), (⟨false, 4, 4, 0, 0, 2, 5, 2⟩ : Form), (stageBase ((15 : Fin 16)).val ((5 : Fin 6)).val ((7 : Fin 8)).val [0x00000151#32, 0x01000000#32, 0x00400400#32, 0x00020005#32] [0x0#32, 0x3F800000#32, 0x3F800000#32, 0x3F800000#32, 0x3F800000#32]),
    by constructor <;> first | decide +kernel | refine ⟨?_, ?_⟩ <;> decide +kernel⟩

theorem witness_ObserverAndLimitStages_2 : ∃ (n : Fin 16) (m : Fin 6) (c : Fin 8) (i : Nat) (h : Hdr) (f : Form) (s : State),
    s.Dispatches n.val m.val c.val 0x52 i h f :=
  ⟨(15 : Fin 16), (5 : Fin 6), (7 : Fin 8), (0 : Nat), (hdrOf 0x00000152#32 0x01000000#32 0x00400400#32 0x00020006#32 : Hdr), (⟨false, 2, 2, 0, 0, 3, 6, 2⟩ : Form), (stageBase ((15 : Fin 16)).val ((5 : Fin 6)).val ((7 : Fin 8)).val [0x00000152#32, 0x01000000#32, 0x00400400#32, 0x00020006#32] [0x0#32, 0x3F800000#32, 0x3F800000#32, 0x3F800000#32, 0x3F800000#32, 0x3F800000#32]),
    by constructor <;> first | decide +kernel | refine ⟨?_, ?_⟩ <;> decide +kernel⟩

theorem witness_ObserverAndLimitStages_3 : ∃ (n : Fin 16) (m : Fin 6) (c : Fin 8) (i : Nat) (h : Hdr) (f : Form) (s : State),
    s.Dispatches n.val m.val c.val 0x60 i h f :=
  ⟨(15 : Fin 16), (5 : Fin 6), (7 : Fin 8), (0 : Nat), (hdrOf 0x00000160#32 0x01000000#32 0x00400400#32 0x00020002#32 : Hdr), (⟨true, 1, 1, 0, 0, 1, 2, 0⟩ : Form), (stageBase ((15 : Fin 16)).val ((5 : Fin 6)).val ((7 : Fin 8)).val [0x00000160#32, 0x01000000#32, 0x00400400#32, 0x00020002#32] [0x0#32, 0x3F800000#32]),
    by constructor <;> first | decide +kernel | refine ⟨?_, ?_⟩ <;> decide +kernel⟩

theorem witness_ObserverAndLimitStages_4 : ∃ (n : Fin 16) (m : Fin 6) (c : Fin 8) (i : Nat) (h : Hdr) (f : Form) (s : State),
    s.Dispatches n.val m.val c.val 0x61 i h f :=
  ⟨(15 : Fin 16), (5 : Fin 6), (7 : Fin 8), (0 : Nat), (hdrOf 0x00000161#32 0x01000000#32 0x00400400#32 0x00020002#32 : Hdr), (⟨true, 1, 1, 0, 0, 1, 2, 2⟩ : Form), (stageBase ((15 : Fin 16)).val ((5 : Fin 6)).val ((7 : Fin 8)).val [0x00000161#32, 0x01000000#32, 0x00400400#32, 0x00020002#32] [0x0#32, 0x3F800000#32]),
    by constructor <;> first | decide +kernel | refine ⟨?_, ?_⟩ <;> decide +kernel⟩

theorem witness_ObserverAndLimitStages_5 : ∃ (n : Fin 16) (m : Fin 6) (c : Fin 8) (i : Nat) (h : Hdr) (f : Form) (s : State),
    s.Dispatches n.val m.val c.val 0x62 i h f :=
  ⟨(15 : Fin 16), (5 : Fin 6), (7 : Fin 8), (0 : Nat), (hdrOf 0x00000162#32 0x01000000#32 0x00400400#32 0x00020001#32 : Hdr), (⟨false, 2, 2, 0, 0, 2, 1, 0⟩ : Form), (stageBase ((15 : Fin 16)).val ((5 : Fin 6)).val ((7 : Fin 8)).val [0x00000162#32, 0x01000000#32, 0x00400400#32, 0x00020001#32] [0x0#32]),
    by constructor <;> first | decide +kernel | refine ⟨?_, ?_⟩ <;> decide +kernel⟩

theorem witness_ModulationAndCompensationStages_0 : ∃ (n : Fin 16) (m : Fin 6) (c : Fin 8) (i : Nat) (h : Hdr) (f : Form) (s : State),
    s.Dispatches n.val m.val c.val 0x70 i h f :=
  ⟨(15 : Fin 16), (5 : Fin 6), (7 : Fin 8), (0 : Nat), (hdrOf 0x00000170#32 0x01000000#32 0x00400400#32 0x00020003#32 : Hdr), (⟨false, 3, 3, 1, 1, 3, 3, 0⟩ : Form), (stageBase ((15 : Fin 16)).val ((5 : Fin 6)).val ((7 : Fin 8)).val [0x00000170#32, 0x01000000#32, 0x00400400#32, 0x00020003#32] [0x0#32, 0x3F800000#32, 0x3F800000#32]),
    by constructor <;> first | decide +kernel | refine ⟨?_, ?_⟩ <;> decide +kernel⟩

theorem witness_ModulationAndCompensationStages_1 : ∃ (n : Fin 16) (m : Fin 6) (c : Fin 8) (i : Nat) (h : Hdr) (f : Form) (s : State),
    s.Dispatches n.val m.val c.val 0x71 i h f :=
  ⟨(15 : Fin 16), (5 : Fin 6), (7 : Fin 8), (0 : Nat), (hdrOf 0x00000171#32 0x01000000#32 0x00400400#32 0x00020003#32 : Hdr), (⟨false, 2, 2, 1, 1, 3, 3, 0⟩ : Form), (stageBase ((15 : Fin 16)).val ((5 : Fin 6)).val ((7 : Fin 8)).val [0x00000171#32, 0x01000000#32, 0x00400400#32, 0x00020003#32] [0x0#32, 0x3F800000#32, 0x3F800000#32]),
    by constructor <;> first | decide +kernel | refine ⟨?_, ?_⟩ <;> decide +kernel⟩

theorem witness_ModulationAndCompensationStages_2 : ∃ (n : Fin 16) (m : Fin 6) (c : Fin 8) (i : Nat) (h : Hdr) (f : Form) (s : State),
    s.Dispatches n.val m.val c.val 0x72 i h f :=
  ⟨(15 : Fin 16), (5 : Fin 6), (7 : Fin 8), (0 : Nat), (hdrOf 0x00000172#32 0x01000000#32 0x00400400#32 0x00020003#32 : Hdr), (⟨false, 2, 2, 1, 1, 3, 3, 0⟩ : Form), (stageBase ((15 : Fin 16)).val ((5 : Fin 6)).val ((7 : Fin 8)).val [0x00000172#32, 0x01000000#32, 0x00400400#32, 0x00020003#32] [0x0#32, 0x3F800000#32, 0x3F800000#32]),
    by constructor <;> first | decide +kernel | refine ⟨?_, ?_⟩ <;> decide +kernel⟩

theorem witness_ModulationAndCompensationStages_3 : ∃ (n : Fin 16) (m : Fin 6) (c : Fin 8) (i : Nat) (h : Hdr) (f : Form) (s : State),
    s.Dispatches n.val m.val c.val 0x73 i h f :=
  ⟨(15 : Fin 16), (5 : Fin 6), (7 : Fin 8), (0 : Nat), (hdrOf 0x00000173#32 0x01000000#32 0x00400400#32 0x00020004#32 : Hdr), (⟨false, 2, 2, 2, 2, 6, 4, 0⟩ : Form), (stageBase ((15 : Fin 16)).val ((5 : Fin 6)).val ((7 : Fin 8)).val [0x00000173#32, 0x01000000#32, 0x00400400#32, 0x00020004#32] [0x0#32, 0x3F800000#32, 0x3F800000#32, 0x3F800000#32]),
    by constructor <;> first | decide +kernel | refine ⟨?_, ?_⟩ <;> decide +kernel⟩

theorem witness_ModulationAndCompensationStages_4 : ∃ (n : Fin 16) (m : Fin 6) (c : Fin 8) (i : Nat) (h : Hdr) (f : Form) (s : State),
    s.Dispatches n.val m.val c.val 0x74 i h f :=
  ⟨(15 : Fin 16), (5 : Fin 6), (7 : Fin 8), (0 : Nat), (hdrOf 0x00000174#32 0x01000000#32 0x00400400#32 0x00020004#32 : Hdr), (⟨false, 2, 2, 1, 1, 3, 4, 0⟩ : Form), (stageBase ((15 : Fin 16)).val ((5 : Fin 6)).val ((7 : Fin 8)).val [0x00000174#32, 0x01000000#32, 0x00400400#32, 0x00020004#32] [0x0#32, 0x3F800000#32, 0x3F800000#32, 0x3F800000#32]),
    by constructor <;> first | decide +kernel | refine ⟨?_, ?_⟩ <;> decide +kernel⟩

theorem witness_ModulationAndCompensationStages_5 : ∃ (n : Fin 16) (m : Fin 6) (c : Fin 8) (i : Nat) (h : Hdr) (f : Form) (s : State),
    s.Dispatches n.val m.val c.val 0x80 i h f :=
  ⟨(15 : Fin 16), (5 : Fin 6), (7 : Fin 8), (0 : Nat), (hdrOf 0x00000180#32 0x01000000#32 0x00400400#32 0x00020002#32 : Hdr), (⟨false, 3, 3, 3, 3, 3, 2, 0⟩ : Form), (stageBase ((15 : Fin 16)).val ((5 : Fin 6)).val ((7 : Fin 8)).val [0x00000180#32, 0x01000000#32, 0x00400400#32, 0x00020002#32] [0x0#32, 0x3F800000#32]),
    by constructor <;> first | decide +kernel | refine ⟨?_, ?_⟩ <;> decide +kernel⟩

theorem witness_ModulationAndCompensationStages_6 : ∃ (n : Fin 16) (m : Fin 6) (c : Fin 8) (i : Nat) (h : Hdr) (f : Form) (s : State),
    s.Dispatches n.val m.val c.val 0x81 i h f :=
  ⟨(15 : Fin 16), (5 : Fin 6), (7 : Fin 8), (0 : Nat), (hdrOf 0x00000181#32 0x01000000#32 0x00400400#32 0x00020002#32 : Hdr), (⟨true, 1, 1, 1, 0, 1, 2, 0⟩ : Form), (stageBase ((15 : Fin 16)).val ((5 : Fin 6)).val ((7 : Fin 8)).val [0x00000181#32, 0x01000000#32, 0x00400400#32, 0x00020002#32] [0x0#32, 0x3F800000#32]),
    by constructor <;> first | decide +kernel | refine ⟨?_, ?_⟩ <;> decide +kernel⟩

theorem witness_ModulationAndCompensationStages_7 : ∃ (n : Fin 16) (m : Fin 6) (c : Fin 8) (i : Nat) (h : Hdr) (f : Form) (s : State),
    s.Dispatches n.val m.val c.val 0x82 i h f :=
  ⟨(15 : Fin 16), (5 : Fin 6), (7 : Fin 8), (0 : Nat), (hdrOf 0x00000182#32 0x01000000#32 0x00400400#32 0x00020003#32 : Hdr), (⟨false, 3, 3, 2, 2, 2, 3, 0⟩ : Form), (stageBase ((15 : Fin 16)).val ((5 : Fin 6)).val ((7 : Fin 8)).val [0x00000182#32, 0x01000000#32, 0x00400400#32, 0x00020003#32] [0x0#32, 0x3F800000#32, 0x3F800000#32]),
    by constructor <;> first | decide +kernel | refine ⟨?_, ?_⟩ <;> decide +kernel⟩

theorem witness_MotionStages_0 : ∃ (n : Fin 16) (m : Fin 6) (c : Fin 8) (i : Nat) (h : Hdr) (f : Form) (s : State),
    s.Dispatches n.val m.val c.val 0x90 i h f :=
  ⟨(15 : Fin 16), (5 : Fin 6), (7 : Fin 8), (0 : Nat), (hdrOf 0x00000190#32 0x01000000#32 0x00400400#32 0x00020004#32 : Hdr), (⟨false, 2, 2, 0, 0, 4, 4, 5⟩ : Form), (stageBase ((15 : Fin 16)).val ((5 : Fin 6)).val ((7 : Fin 8)).val [0x00000190#32, 0x01000000#32, 0x00400400#32, 0x00020004#32] [0x0#32, 0x3F800000#32, 0x3F800000#32, 0x3F800000#32]),
    by constructor <;> first | decide +kernel | refine ⟨?_, ?_⟩ <;> decide +kernel⟩

theorem witness_MotionStages_1 : ∃ (n : Fin 16) (m : Fin 6) (c : Fin 8) (i : Nat) (h : Hdr) (f : Form) (s : State),
    s.Dispatches n.val m.val c.val 0x91 i h f ∧ (∀ e ∈ s.ep.entries, e.due = true → entryOf n.val m.val e = false) :=
  ⟨(15 : Fin 16), (5 : Fin 6), (7 : Fin 8), (0 : Nat), (hdrOf 0x00000191#32 0x01000000#32 0x00400400#32 0x00020007#32 : Hdr), (⟨false, 2, 2, 0, 0, 3, 7, 8⟩ : Form), (stageBase ((15 : Fin 16)).val ((5 : Fin 6)).val ((7 : Fin 8)).val [0x00000191#32, 0x01000000#32, 0x00400400#32, 0x00020007#32] [0x7D0#32, 0x4#32, 0x3F800000#32, 0x3F800000#32, 0x3F800000#32, 0x0#32, 0x0#32]),
    by constructor <;> first | decide +kernel | refine ⟨?_, ?_⟩ <;> decide +kernel, by decide +kernel⟩

theorem witness_MotionStages_2 : ∃ (n : Fin 16) (m : Fin 6) (c : Fin 8) (i : Nat) (h : Hdr) (f : Form) (s : State),
    s.Dispatches n.val m.val c.val 0x92 i h f :=
  ⟨(15 : Fin 16), (5 : Fin 6), (7 : Fin 8), (0 : Nat), (hdrOf 0x00000192#32 0x01000000#32 0x00400400#32 0x00020004#32 : Hdr), (⟨false, 2, 2, 0, 0, 2, 4, 4⟩ : Form), (stageBase ((15 : Fin 16)).val ((5 : Fin 6)).val ((7 : Fin 8)).val [0x00000192#32, 0x01000000#32, 0x00400400#32, 0x00020004#32] [0x0#32, 0x3F800000#32, 0x3F800000#32, 0x3F800000#32]),
    by constructor <;> first | decide +kernel | refine ⟨?_, ?_⟩ <;> decide +kernel⟩

theorem witness_MotionStages_3 : ∃ (n : Fin 16) (m : Fin 6) (c : Fin 8) (i : Nat) (h : Hdr) (f : Form) (s : State),
    s.Dispatches n.val m.val c.val 0x93 i h f :=
  ⟨(15 : Fin 16), (5 : Fin 6), (7 : Fin 8), (0 : Nat), (hdrOf 0x00000193#32 0x01000000#32 0x00400400#32 0x00020003#32 : Hdr), (⟨false, 2, 2, 0, 0, 1, 3, 3⟩ : Form), (stageBase ((15 : Fin 16)).val ((5 : Fin 6)).val ((7 : Fin 8)).val [0x00000193#32, 0x01000000#32, 0x00400400#32, 0x00020003#32] [0x0#32, 0x3F800000#32, 0x3F800000#32]),
    by constructor <;> first | decide +kernel | refine ⟨?_, ?_⟩ <;> decide +kernel⟩

theorem witness_UtilityStages_0 : ∃ (n : Fin 16) (m : Fin 6) (c : Fin 8) (i : Nat) (h : Hdr) (f : Form) (p : Fin 4) (s : State),
    s.Dispatches n.val m.val c.val 0xA0 i h f ∧ s.fcsPass n.val m.val c.val = p.val :=
  ⟨(15 : Fin 16), (5 : Fin 6), (7 : Fin 8), (0 : Nat), (hdrOf 0x000001A0#32 0x01000000#32 0x00400400#32 0x00020006#32 : Hdr), (⟨false, 5, 5, 3, 3, 4, 6, 2⟩ : Form), (0 : Fin 4), (stageBase ((15 : Fin 16)).val ((5 : Fin 6)).val ((7 : Fin 8)).val [0x000001A0#32, 0x01000000#32, 0x00400400#32, 0x00020006#32] [0x0#32, 0x3F800000#32, 0x3F800000#32, 0x3F800000#32, 0x3F800000#32, 0x3F800000#32]),
    by constructor <;> first | decide +kernel | refine ⟨?_, ?_⟩ <;> decide +kernel,
    by decide +kernel⟩

theorem witness_UtilityStages_1 : ∃ (n : Fin 16) (m : Fin 6) (c : Fin 8) (i : Nat) (h : Hdr) (f : Form) (s : State),
    s.Dispatches n.val m.val c.val 0xA1 i h f :=
  ⟨(15 : Fin 16), (5 : Fin 6), (7 : Fin 8), (0 : Nat), (hdrOf 0x000001A1#32 0x01000000#32 0x00400400#32 0x00020007#32 : Hdr), (⟨false, 1, 1, 1, 1, 1, 7, 12⟩ : Form), (stageBase ((15 : Fin 16)).val ((5 : Fin 6)).val ((7 : Fin 8)).val [0x000001A1#32, 0x01000000#32, 0x00400400#32, 0x00020007#32] [0x0#32, 0x3F800000#32, 0x3F800000#32, 0x3F800000#32, 0x3F800000#32, 0x3F800000#32, 0x3F800000#32]),
    by constructor <;> first | decide +kernel | refine ⟨?_, ?_⟩ <;> decide +kernel⟩

theorem witness_UtilityStages_2 : ∃ (n : Fin 16) (m : Fin 6) (c : Fin 8) (i : Nat) (h : Hdr) (f : Form) (s : State),
    s.Dispatches n.val m.val c.val 0xA2 i h f :=
  ⟨(15 : Fin 16), (5 : Fin 6), (7 : Fin 8), (0 : Nat), (hdrOf 0x000001A2#32 0x01000000#32 0x00400400#32 0x00020000#32 : Hdr), (⟨true, 1, 1, 0, 0, 1, 0, 0⟩ : Form), (stageBase ((15 : Fin 16)).val ((5 : Fin 6)).val ((7 : Fin 8)).val [0x000001A2#32, 0x01000000#32, 0x00400400#32, 0x00020000#32] [0x0#32]),
    by constructor <;> first | decide +kernel | refine ⟨?_, ?_⟩ <;> decide +kernel⟩

theorem witness_UtilityStages_3 : ∃ (n : Fin 16) (m : Fin 6) (c : Fin 8) (i : Nat) (h : Hdr) (f : Form) (s : State),
    s.Dispatches n.val m.val c.val 0xA3 i h f :=
  ⟨(15 : Fin 16), (5 : Fin 6), (7 : Fin 8), (0 : Nat), (hdrOf 0x000001A3#32 0x01000000#32 0x00400400#32 0x00020003#32 : Hdr), (⟨true, 1, 1, 0, 0, 1, 3, 0⟩ : Form), (stageBase ((15 : Fin 16)).val ((5 : Fin 6)).val ((7 : Fin 8)).val [0x000001A3#32, 0x01000000#32, 0x00400400#32, 0x00020003#32] [0x0#32, 0x3F800000#32, 0x3F800000#32]),
    by constructor <;> first | decide +kernel | refine ⟨?_, ?_⟩ <;> decide +kernel⟩

theorem witness_UtilityStages_4 : ∃ (n : Fin 16) (m : Fin 6) (c : Fin 8) (i : Nat) (h : Hdr) (f : Form) (s : State),
    s.Dispatches n.val m.val c.val 0xA4 i h f :=
  ⟨(15 : Fin 16), (5 : Fin 6), (7 : Fin 8), (0 : Nat), (hdrOf 0x000001A4#32 0x01000000#32 0x00400400#32 0x00020003#32 : Hdr), (⟨true, 1, 1, 0, 0, 1, 3, 0⟩ : Form), (stageBase ((15 : Fin 16)).val ((5 : Fin 6)).val ((7 : Fin 8)).val [0x000001A4#32, 0x01000000#32, 0x00400400#32, 0x00020003#32] [0x0#32, 0x3F800000#32, 0x3F800000#32]),
    by constructor <;> first | decide +kernel | refine ⟨?_, ?_⟩ <;> decide +kernel⟩

theorem witness_UtilityStages_5 : ∃ (n : Fin 16) (m : Fin 6) (c : Fin 8) (i : Nat) (h : Hdr) (f : Form) (s : State),
    s.Dispatches n.val m.val c.val 0xA5 i h f :=
  ⟨(15 : Fin 16), (5 : Fin 6), (7 : Fin 8), (0 : Nat), (hdrOf 0x000001A5#32 0x01000000#32 0x00400400#32 0x00020002#32 : Hdr), (⟨true, 1, 1, 1, 1, 1, 2, 0⟩ : Form), (stageBase ((15 : Fin 16)).val ((5 : Fin 6)).val ((7 : Fin 8)).val [0x000001A5#32, 0x01000000#32, 0x00400400#32, 0x00020002#32] [0x0#32, 0x3F800000#32]),
    by constructor <;> first | decide +kernel | refine ⟨?_, ?_⟩ <;> decide +kernel⟩

theorem witness_UtilityStages_6 : ∃ (n : Fin 16) (m : Fin 6) (c : Fin 8) (i : Nat) (h : Hdr) (f : Form) (s : State),
    s.Dispatches n.val m.val c.val 0xA6 i h f :=
  ⟨(15 : Fin 16), (5 : Fin 6), (7 : Fin 8), (0 : Nat), (hdrOf 0x000001A6#32 0x01000000#32 0x00400400#32 0x00020000#32 : Hdr), (⟨false, 1, 1, 0, 0, 0, 0, 1⟩ : Form), (stageBase ((15 : Fin 16)).val ((5 : Fin 6)).val ((7 : Fin 8)).val [0x000001A6#32, 0x01000000#32, 0x00400400#32, 0x00020000#32] [0x0#32]),
    by constructor <;> first | decide +kernel | refine ⟨?_, ?_⟩ <;> decide +kernel⟩

theorem witness_UtilityStages_7 : ∃ (n : Fin 16) (m : Fin 6) (c : Fin 8) (i : Nat) (h : Hdr) (f : Form) (s : State),
    s.Dispatches n.val m.val c.val 0xA7 i h f ∧ (h.flag 0 = true ∨ (regionOf h.inA = some .exchange ∧ s.transferOk n.val m.val c.val (h.inA - 0x4000) (s.desc n.val m.val h.paramOfs).toNat (s.desc n.val m.val (h.paramOfs + 1)) = true)) :=
  ⟨(15 : Fin 16), (5 : Fin 6), (7 : Fin 8), (0 : Nat), (hdrOf 0x000101A7#32 0x01000000#32 0x00404040#32 0x00020002#32 : Hdr), (⟨false, 4, 4, 0, 0, 4, 2, 0⟩ : Form), (stageBase ((15 : Fin 16)).val ((5 : Fin 6)).val ((7 : Fin 8)).val [0x000101A7#32, 0x01000000#32, 0x00404040#32, 0x00020002#32] [0x4#32, 0x0#32]),
    by constructor <;> first | decide +kernel | refine ⟨?_, ?_⟩ <;> decide +kernel, by decide +kernel⟩

theorem witness_UtilityStages_8 : ∃ (n : Fin 16) (m : Fin 6) (c : Fin 8) (i : Nat) (h : Hdr) (f : Form) (s : State),
    s.Dispatches n.val m.val c.val 0xA7 i h f ∧ h.flag 0 = false ∧ regionOf h.out = some .state ∧ (s.transferOk n.val m.val c.val (h.inA - 0x4000) (s.desc n.val m.val h.paramOfs).toNat (s.desc n.val m.val (h.paramOfs + 1)) = false ∨ regionOf h.inA ≠ some .exchange) :=
  ⟨(15 : Fin 16), (5 : Fin 6), (7 : Fin 8), (0 : Nat), (hdrOf 0x000001A7#32 0x01000000#32 0x00400400#32 0x00020002#32 : Hdr), (⟨false, 4, 4, 0, 0, 5, 2, 0⟩ : Form), (stageBase ((15 : Fin 16)).val ((5 : Fin 6)).val ((7 : Fin 8)).val [0x000001A7#32, 0x01000000#32, 0x00400400#32, 0x00020002#32] [0x4#32, 0x3F800000#32]),
    by constructor <;> first | decide +kernel | refine ⟨?_, ?_⟩ <;> decide +kernel,
    by decide +kernel⟩

theorem witness_UtilityStages_9 : ∃ (n : Fin 16) (m : Fin 6) (c : Fin 8) (i : Nat) (h : Hdr) (f : Form) (s : State),
    s.Dispatches n.val m.val c.val 0xA8 i h f :=
  ⟨(15 : Fin 16), (5 : Fin 6), (7 : Fin 8), (0 : Nat), (hdrOf 0x000001A8#32 0x01000000#32 0x00409000#32 0x00020003#32 : Hdr), (⟨true, 1, 1, 0, 0, 1, 3, 0⟩ : Form), (stageBase ((15 : Fin 16)).val ((5 : Fin 6)).val ((7 : Fin 8)).val [0x000001A8#32, 0x01000000#32, 0x00409000#32, 0x00020003#32] [0x0#32, 0x3F800000#32, 0x3F800000#32]),
    by constructor <;> first | decide +kernel | refine ⟨?_, ?_⟩ <;> decide +kernel⟩

theorem witness_StageOutcomes_dispatch : ∃ (k : Instr) (x : StageRow) (s : State) (p : Nat) (h : Hdr) (f : Form),
    stageRow k = some x ∧ s.Dispatches x.n x.m x.c x.typ p h f ∧ x.res = .transient ∧
      (recent s.clk.beat (s.le x.n x.m).window).length < 16 :=
  ⟨.move 15 5 7 .transient, ⟨0xA2, 15, 5, 7, .transient, 0⟩,
    stageBase 15 5 7 [0x000001A2#32, 0x01000000#32, 0x00400400#32, 0x00020000#32] [], 0,
    hdrOf 0x000001A2#32 0x01000000#32 0x00400400#32 0x00020000#32, ⟨true, 1, 1, 0, 0, 1, 0, 0⟩,
    rfl, by constructor <;> first | decide +kernel | refine ⟨?_, ?_⟩ <;> decide +kernel, rfl, by decide +kernel⟩

theorem witness_StageOutcomes_permanent : ∃ (k : Instr) (x : StageRow) (s : State) (p : Nat) (h : Hdr) (f : Form),
    stageRow k = some x ∧ s.Dispatches x.n x.m x.c x.typ p h f ∧ x.res = .permanent :=
  ⟨.move 0 0 0 .permanent, ⟨0xA2, 0, 0, 0, .permanent, 0⟩,
    stageBase 0 0 0 [0x000001A2#32, 0x01000000#32, 0x00400400#32, 0x00020000#32] [], 0,
    hdrOf 0x000001A2#32 0x01000000#32 0x00400400#32 0x00020000#32, ⟨true, 1, 1, 0, 0, 1, 0, 0⟩,
    rfl, by constructor <;> first | decide +kernel | refine ⟨?_, ?_⟩ <;> decide +kernel, rfl⟩

theorem witness_StageOutcomes_fault : ∃ (k : Instr) (x : StageRow) (s : State),
    stageRow k = some x ∧ s.Sound ∧ s.leWorks x.n x.m = true ∧ s.leChoice x.n x.m = some x.c ∧
      (s.ctxBegin x.n x.m x.c).nextStage x.n x.m x.c = .fault :=
  ⟨.move 0 0 0 .clean, ⟨0xA2, 0, 0, 0, .clean, 0⟩, stageBase 0 0 0 [0x000002A2#32] [],
    rfl, by constructor <;> decide +kernel,
    by decide +kernel⟩

theorem witness_StageOutcomes_idle : ∃ (k : Instr) (x : StageRow) (s : State),
    stageRow k = some x ∧ (s.leWorks x.n x.m = false ∨ s.leChoice x.n x.m ≠ some x.c) :=
  ⟨.move 0 0 0 .clean, ⟨0xA2, 0, 0, 0, .clean, 0⟩, base, rfl, .inr (by decide +kernel)⟩

theorem witness_IntegerInstructions_0 : ∃ (n : Fin 8) (p : Bool) (rd : Fin 32) (ra : Fin 32) (rb : Fin 32) (v : Word) (s : State),
    s.Issues n.val ∧ v = ((s.now n.val).gr ra.val) + ((s.now n.val).gr rb.val) ∧ s.KeepsLimit n.val (.g rd.val) v :=
  ⟨(6 : Fin 8), (true : Bool), (31 : Fin 32), (31 : Fin 32), (31 : Fin 32), _, (coreBase ((6 : Fin 8)).val CoreCtx.reset),
    by constructor <;> decide +kernel, rfl, fun h => absurd h (by decide +kernel)⟩

theorem witness_IntegerInstructions_1 : ∃ (n : Fin 8) (p : Bool) (rd : Fin 32) (ra : Fin 32) (rb : Fin 32) (v : Word) (s : State),
    s.Issues n.val ∧ v = ((s.now n.val).gr ra.val) - ((s.now n.val).gr rb.val) ∧ s.KeepsLimit n.val (.g rd.val) v :=
  ⟨(6 : Fin 8), (true : Bool), (31 : Fin 32), (31 : Fin 32), (31 : Fin 32), _, (coreBase ((6 : Fin 8)).val CoreCtx.reset),
    by constructor <;> decide +kernel, rfl, fun h => absurd h (by decide +kernel)⟩

theorem witness_IntegerInstructions_2 : ∃ (n : Fin 8) (p : Bool) (rd : Fin 32) (ra : Fin 32) (rb : Fin 32) (v : Word) (s : State),
    s.Issues n.val ∧ v = ((s.now n.val).gr ra.val) &&& ((s.now n.val).gr rb.val) ∧ s.KeepsLimit n.val (.g rd.val) v :=
  ⟨(6 : Fin 8), (true : Bool), (31 : Fin 32), (31 : Fin 32), (31 : Fin 32), _, (coreBase ((6 : Fin 8)).val CoreCtx.reset),
    by constructor <;> decide +kernel, rfl, fun h => absurd h (by decide +kernel)⟩

theorem witness_IntegerInstructions_3 : ∃ (n : Fin 8) (p : Bool) (rd : Fin 32) (ra : Fin 32) (rb : Fin 32) (v : Word) (s : State),
    s.Issues n.val ∧ v = ((s.now n.val).gr ra.val) ||| ((s.now n.val).gr rb.val) ∧ s.KeepsLimit n.val (.g rd.val) v :=
  ⟨(6 : Fin 8), (true : Bool), (31 : Fin 32), (31 : Fin 32), (31 : Fin 32), _, (coreBase ((6 : Fin 8)).val CoreCtx.reset),
    by constructor <;> decide +kernel, rfl, fun h => absurd h (by decide +kernel)⟩

theorem witness_IntegerInstructions_4 : ∃ (n : Fin 8) (p : Bool) (rd : Fin 32) (ra : Fin 32) (rb : Fin 32) (v : Word) (s : State),
    s.Issues n.val ∧ v = ((s.now n.val).gr ra.val) ^^^ ((s.now n.val).gr rb.val) ∧ s.KeepsLimit n.val (.g rd.val) v :=
  ⟨(6 : Fin 8), (true : Bool), (31 : Fin 32), (31 : Fin 32), (31 : Fin 32), _, (coreBase ((6 : Fin 8)).val CoreCtx.reset),
    by constructor <;> decide +kernel, rfl, fun h => absurd h (by decide +kernel)⟩

theorem witness_IntegerInstructions_5 : ∃ (n : Fin 8) (p : Bool) (rd : Fin 32) (ra : Fin 32) (rb : Fin 32) (v : Word) (s : State),
    s.Issues n.val ∧ v = ((s.now n.val).gr ra.val) &&& ~~~ ((s.now n.val).gr rb.val) ∧ s.KeepsLimit n.val (.g rd.val) v :=
  ⟨(6 : Fin 8), (true : Bool), (31 : Fin 32), (31 : Fin 32), (31 : Fin 32), _, (coreBase ((6 : Fin 8)).val CoreCtx.reset),
    by constructor <;> decide +kernel, rfl, fun h => absurd h (by decide +kernel)⟩

theorem witness_IntegerInstructions_6 : ∃ (n : Fin 8) (p : Bool) (rd : Fin 32) (ra : Fin 32) (rb : Fin 32) (v : Word) (s : State),
    s.Issues n.val ∧ v = aluShl ((s.now n.val).gr ra.val) ((s.now n.val).gr rb.val) ∧ s.KeepsLimit n.val (.g rd.val) v :=
  ⟨(6 : Fin 8), (true : Bool), (31 : Fin 32), (31 : Fin 32), (31 : Fin 32), _, (coreBase ((6 : Fin 8)).val CoreCtx.reset),
    by constructor <;> decide +kernel, rfl, fun h => absurd h (by decide +kernel)⟩

theorem witness_IntegerInstructions_7 : ∃ (n : Fin 8) (p : Bool) (rd : Fin 32) (ra : Fin 32) (rb : Fin 32) (v : Word) (s : State),
    s.Issues n.val ∧ v = aluShr ((s.now n.val).gr ra.val) ((s.now n.val).gr rb.val) ∧ s.KeepsLimit n.val (.g rd.val) v :=
  ⟨(6 : Fin 8), (true : Bool), (31 : Fin 32), (31 : Fin 32), (31 : Fin 32), _, (coreBase ((6 : Fin 8)).val CoreCtx.reset),
    by constructor <;> decide +kernel, rfl, fun h => absurd h (by decide +kernel)⟩

theorem witness_IntegerInstructions_8 : ∃ (n : Fin 8) (p : Bool) (rd : Fin 32) (ra : Fin 32) (rb : Fin 32) (v : Word) (s : State),
    s.Issues n.val ∧ v = aluSar ((s.now n.val).gr ra.val) ((s.now n.val).gr rb.val) ∧ s.KeepsLimit n.val (.g rd.val) v :=
  ⟨(6 : Fin 8), (true : Bool), (31 : Fin 32), (31 : Fin 32), (31 : Fin 32), _, (coreBase ((6 : Fin 8)).val CoreCtx.reset),
    by constructor <;> decide +kernel, rfl, fun h => absurd h (by decide +kernel)⟩

theorem witness_IntegerInstructions_9 : ∃ (n : Fin 8) (p : Bool) (rd : Fin 32) (ra : Fin 32) (rb : Fin 32) (v : Word) (s : State),
    s.Issues n.val ∧ v = aluRor ((s.now n.val).gr ra.val) ((s.now n.val).gr rb.val) ∧ s.KeepsLimit n.val (.g rd.val) v :=
  ⟨(6 : Fin 8), (true : Bool), (31 : Fin 32), (31 : Fin 32), (31 : Fin 32), _, (coreBase ((6 : Fin 8)).val CoreCtx.reset),
    by constructor <;> decide +kernel, rfl, fun h => absurd h (by decide +kernel)⟩

theorem witness_IntegerInstructions_10 : ∃ (n : Fin 8) (p : Bool) (rd : Fin 32) (ra : Fin 32) (sh : Fin 32) (v : Word) (s : State),
    s.Issues n.val ∧ v = aluShl ((s.now n.val).gr ra.val) (w32 sh.val) ∧ s.KeepsLimit n.val (.g rd.val) v :=
  ⟨(6 : Fin 8), (true : Bool), (31 : Fin 32), (31 : Fin 32), (31 : Fin 32), _, (coreBase ((6 : Fin 8)).val CoreCtx.reset),
    by constructor <;> decide +kernel, rfl, fun h => absurd h (by decide +kernel)⟩

theorem witness_IntegerInstructions_11 : ∃ (n : Fin 8) (p : Bool) (rd : Fin 32) (ra : Fin 32) (sh : Fin 32) (v : Word) (s : State),
    s.Issues n.val ∧ v = aluShr ((s.now n.val).gr ra.val) (w32 sh.val) ∧ s.KeepsLimit n.val (.g rd.val) v :=
  ⟨(6 : Fin 8), (true : Bool), (31 : Fin 32), (31 : Fin 32), (31 : Fin 32), _, (coreBase ((6 : Fin 8)).val CoreCtx.reset),
    by constructor <;> decide +kernel, rfl, fun h => absurd h (by decide +kernel)⟩

theorem witness_IntegerInstructions_12 : ∃ (n : Fin 8) (p : Bool) (rd : Fin 32) (ra : Fin 32) (sh : Fin 32) (v : Word) (s : State),
    s.Issues n.val ∧ v = aluSar ((s.now n.val).gr ra.val) (w32 sh.val) ∧ s.KeepsLimit n.val (.g rd.val) v :=
  ⟨(6 : Fin 8), (true : Bool), (31 : Fin 32), (31 : Fin 32), (31 : Fin 32), _, (coreBase ((6 : Fin 8)).val CoreCtx.reset),
    by constructor <;> decide +kernel, rfl, fun h => absurd h (by decide +kernel)⟩

theorem witness_IntegerInstructions_13 : ∃ (n : Fin 8) (p : Bool) (rd : Fin 32) (ra : Fin 32) (sh : Fin 32) (v : Word) (s : State),
    s.Issues n.val ∧ v = aluRor ((s.now n.val).gr ra.val) (w32 sh.val) ∧ s.KeepsLimit n.val (.g rd.val) v :=
  ⟨(6 : Fin 8), (true : Bool), (31 : Fin 32), (31 : Fin 32), (31 : Fin 32), _, (coreBase ((6 : Fin 8)).val CoreCtx.reset),
    by constructor <;> decide +kernel, rfl, fun h => absurd h (by decide +kernel)⟩

theorem witness_IntegerInstructions_14 : ∃ (n : Fin 8) (p : Bool) (rd : Fin 32) (ra : Fin 32) (rb : Fin 32) (v : Word) (s : State),
    s.Issues n.val ∧ v = aluMin ((s.now n.val).gr ra.val) ((s.now n.val).gr rb.val) ∧ s.KeepsLimit n.val (.g rd.val) v :=
  ⟨(6 : Fin 8), (true : Bool), (31 : Fin 32), (31 : Fin 32), (31 : Fin 32), _, (coreBase ((6 : Fin 8)).val CoreCtx.reset),
    by constructor <;> decide +kernel, rfl, fun h => absurd h (by decide +kernel)⟩

theorem witness_IntegerInstructions_15 : ∃ (n : Fin 8) (p : Bool) (rd : Fin 32) (ra : Fin 32) (rb : Fin 32) (v : Word) (s : State),
    s.Issues n.val ∧ v = aluMax ((s.now n.val).gr ra.val) ((s.now n.val).gr rb.val) ∧ s.KeepsLimit n.val (.g rd.val) v :=
  ⟨(6 : Fin 8), (true : Bool), (31 : Fin 32), (31 : Fin 32), (31 : Fin 32), _, (coreBase ((6 : Fin 8)).val CoreCtx.reset),
    by constructor <;> decide +kernel, rfl, fun h => absurd h (by decide +kernel)⟩

theorem witness_IntegerInstructions_16 : ∃ (n : Fin 8) (p : Bool) (rd : Fin 32) (ra : Fin 32) (rb : Fin 32) (v : Word) (s : State),
    s.Issues n.val ∧ v = aluMinu ((s.now n.val).gr ra.val) ((s.now n.val).gr rb.val) ∧ s.KeepsLimit n.val (.g rd.val) v :=
  ⟨(6 : Fin 8), (true : Bool), (31 : Fin 32), (31 : Fin 32), (31 : Fin 32), _, (coreBase ((6 : Fin 8)).val CoreCtx.reset),
    by constructor <;> decide +kernel, rfl, fun h => absurd h (by decide +kernel)⟩

theorem witness_IntegerInstructions_17 : ∃ (n : Fin 8) (p : Bool) (rd : Fin 32) (ra : Fin 32) (rb : Fin 32) (v : Word) (s : State),
    s.Issues n.val ∧ v = aluMaxu ((s.now n.val).gr ra.val) ((s.now n.val).gr rb.val) ∧ s.KeepsLimit n.val (.g rd.val) v :=
  ⟨(6 : Fin 8), (true : Bool), (31 : Fin 32), (31 : Fin 32), (31 : Fin 32), _, (coreBase ((6 : Fin 8)).val CoreCtx.reset),
    by constructor <;> decide +kernel, rfl, fun h => absurd h (by decide +kernel)⟩

theorem witness_IntegerInstructions_18 : ∃ (n : Fin 8) (p : Bool) (rd : Fin 32) (ra : Fin 32) (v : Word) (s : State),
    s.Issues n.val ∧ v = aluClz ((s.now n.val).gr ra.val) ∧ s.KeepsLimit n.val (.g rd.val) v :=
  ⟨(6 : Fin 8), (true : Bool), (31 : Fin 32), (31 : Fin 32), _, (coreBase ((6 : Fin 8)).val CoreCtx.reset),
    by constructor <;> decide +kernel, rfl, fun h => absurd h (by decide +kernel)⟩

theorem witness_IntegerInstructions_19 : ∃ (n : Fin 8) (p : Bool) (rd : Fin 32) (ra : Fin 32) (v : Word) (s : State),
    s.Issues n.val ∧ v = aluPopc ((s.now n.val).gr ra.val) ∧ s.KeepsLimit n.val (.g rd.val) v :=
  ⟨(6 : Fin 8), (true : Bool), (31 : Fin 32), (31 : Fin 32), _, (coreBase ((6 : Fin 8)).val CoreCtx.reset),
    by constructor <;> decide +kernel, rfl, fun h => absurd h (by decide +kernel)⟩

theorem witness_IntegerInstructions_20 : ∃ (n : Fin 8) (p : Bool) (rd : Fin 32) (ra : Fin 32) (v : Word) (s : State),
    s.Issues n.val ∧ v = aluBrev ((s.now n.val).gr ra.val) ∧ s.KeepsLimit n.val (.g rd.val) v :=
  ⟨(6 : Fin 8), (true : Bool), (31 : Fin 32), (31 : Fin 32), _, (coreBase ((6 : Fin 8)).val CoreCtx.reset),
    by constructor <;> decide +kernel, rfl, fun h => absurd h (by decide +kernel)⟩

theorem witness_IntegerInstructions_21 : ∃ (n : Fin 8) (p : Bool) (rd : Fin 32) (ra : Fin 32) (v : Word) (s : State),
    s.Issues n.val ∧ v = aluBswap ((s.now n.val).gr ra.val) ∧ s.KeepsLimit n.val (.g rd.val) v :=
  ⟨(6 : Fin 8), (true : Bool), (31 : Fin 32), (31 : Fin 32), _, (coreBase ((6 : Fin 8)).val CoreCtx.reset),
    by constructor <;> decide +kernel, rfl, fun h => absurd h (by decide +kernel)⟩

theorem witness_IntegerInstructions_22 : ∃ (n : Fin 8) (p : Bool) (rd : Fin 32) (ra : Fin 32) (v : Word) (s : State),
    s.Issues n.val ∧ v = aluSextb ((s.now n.val).gr ra.val) ∧ s.KeepsLimit n.val (.g rd.val) v :=
  ⟨(6 : Fin 8), (true : Bool), (31 : Fin 32), (31 : Fin 32), _, (coreBase ((6 : Fin 8)).val CoreCtx.reset),
    by constructor <;> decide +kernel, rfl, fun h => absurd h (by decide +kernel)⟩

theorem witness_IntegerInstructions_23 : ∃ (n : Fin 8) (p : Bool) (rd : Fin 32) (ra : Fin 32) (v : Word) (s : State),
    s.Issues n.val ∧ v = aluSexth ((s.now n.val).gr ra.val) ∧ s.KeepsLimit n.val (.g rd.val) v :=
  ⟨(6 : Fin 8), (true : Bool), (31 : Fin 32), (31 : Fin 32), _, (coreBase ((6 : Fin 8)).val CoreCtx.reset),
    by constructor <;> decide +kernel, rfl, fun h => absurd h (by decide +kernel)⟩

theorem witness_IntegerInstructions_24 : ∃ (n : Fin 8) (p : Bool) (rd : Fin 32) (ra : Fin 32) (rb : Fin 32) (v : Word) (s : State),
    s.Issues n.val ∧ v = condWord (((s.now n.val).gr ra.val) == ((s.now n.val).gr rb.val)) ∧ s.KeepsLimit n.val (.g rd.val) v :=
  ⟨(6 : Fin 8), (true : Bool), (31 : Fin 32), (31 : Fin 32), (31 : Fin 32), _, (coreBase ((6 : Fin 8)).val CoreCtx.reset),
    by constructor <;> decide +kernel, rfl, fun h => absurd h (by decide +kernel)⟩

theorem witness_IntegerInstructions_25 : ∃ (n : Fin 8) (p : Bool) (rd : Fin 32) (ra : Fin 32) (rb : Fin 32) (v : Word) (s : State),
    s.Issues n.val ∧ v = condWord (((s.now n.val).gr ra.val) != ((s.now n.val).gr rb.val)) ∧ s.KeepsLimit n.val (.g rd.val) v :=
  ⟨(6 : Fin 8), (true : Bool), (31 : Fin 32), (31 : Fin 32), (31 : Fin 32), _, (coreBase ((6 : Fin 8)).val CoreCtx.reset),
    by constructor <;> decide +kernel, rfl, fun h => absurd h (by decide +kernel)⟩

theorem witness_IntegerInstructions_26 : ∃ (n : Fin 8) (p : Bool) (rd : Fin 32) (ra : Fin 32) (rb : Fin 32) (v : Word) (s : State),
    s.Issues n.val ∧ v = condWord (decide (sInt ((s.now n.val).gr ra.val) < sInt ((s.now n.val).gr rb.val))) ∧ s.KeepsLimit n.val (.g rd.val) v :=
  ⟨(6 : Fin 8), (true : Bool), (31 : Fin 32), (31 : Fin 32), (31 : Fin 32), _, (coreBase ((6 : Fin 8)).val CoreCtx.reset),
    by constructor <;> decide +kernel, rfl, fun h => absurd h (by decide +kernel)⟩

theorem witness_IntegerInstructions_27 : ∃ (n : Fin 8) (p : Bool) (rd : Fin 32) (ra : Fin 32) (rb : Fin 32) (v : Word) (s : State),
    s.Issues n.val ∧ v = condWord (decide (((s.now n.val).gr ra.val).toNat < ((s.now n.val).gr rb.val).toNat)) ∧ s.KeepsLimit n.val (.g rd.val) v :=
  ⟨(6 : Fin 8), (true : Bool), (31 : Fin 32), (31 : Fin 32), (31 : Fin 32), _, (coreBase ((6 : Fin 8)).val CoreCtx.reset),
    by constructor <;> decide +kernel, rfl, fun h => absurd h (by decide +kernel)⟩

theorem witness_IntegerInstructions_28 : ∃ (n : Fin 8) (p : Bool) (rd : Fin 32) (ra : Fin 32) (rb : Fin 32) (v : Word) (s : State),
    s.Issues n.val ∧ v = condWord (decide (sInt ((s.now n.val).gr ra.val) ≤ sInt ((s.now n.val).gr rb.val))) ∧ s.KeepsLimit n.val (.g rd.val) v :=
  ⟨(6 : Fin 8), (true : Bool), (31 : Fin 32), (31 : Fin 32), (31 : Fin 32), _, (coreBase ((6 : Fin 8)).val CoreCtx.reset),
    by constructor <;> decide +kernel, rfl, fun h => absurd h (by decide +kernel)⟩

theorem witness_IntegerInstructions_29 : ∃ (n : Fin 8) (p : Bool) (rd : Fin 32) (ra : Fin 32) (rb : Fin 32) (v : Word) (s : State),
    s.Issues n.val ∧ v = condWord (decide (((s.now n.val).gr ra.val).toNat ≤ ((s.now n.val).gr rb.val).toNat)) ∧ s.KeepsLimit n.val (.g rd.val) v :=
  ⟨(6 : Fin 8), (true : Bool), (31 : Fin 32), (31 : Fin 32), (31 : Fin 32), _, (coreBase ((6 : Fin 8)).val CoreCtx.reset),
    by constructor <;> decide +kernel, rfl, fun h => absurd h (by decide +kernel)⟩

theorem witness_IntegerInstructions_30 : ∃ (n : Fin 8) (p : Bool) (rd : Fin 32) (ra : Fin 32) (rb : Fin 32) (v : Word) (s : State),
    s.Issues n.val ∧ v = aluAddsat ((s.now n.val).gr ra.val) ((s.now n.val).gr rb.val) ∧ s.KeepsLimit n.val (.g rd.val) v :=
  ⟨(6 : Fin 8), (true : Bool), (31 : Fin 32), (31 : Fin 32), (31 : Fin 32), _, (coreBase ((6 : Fin 8)).val CoreCtx.reset),
    by constructor <;> decide +kernel, rfl, fun h => absurd h (by decide +kernel)⟩

theorem witness_IntegerInstructions_31 : ∃ (n : Fin 8) (p : Bool) (rd : Fin 32) (ra : Fin 32) (rb : Fin 32) (v : Word) (s : State),
    s.Issues n.val ∧ v = aluSubsat ((s.now n.val).gr ra.val) ((s.now n.val).gr rb.val) ∧ s.KeepsLimit n.val (.g rd.val) v :=
  ⟨(6 : Fin 8), (true : Bool), (31 : Fin 32), (31 : Fin 32), (31 : Fin 32), _, (coreBase ((6 : Fin 8)).val CoreCtx.reset),
    by constructor <;> decide +kernel, rfl, fun h => absurd h (by decide +kernel)⟩

theorem witness_IntegerInstructions_32 : ∃ (n : Fin 8) (p : Bool) (rd : Fin 32) (ra : Fin 32) (imm : BitVec 16) (v : Word) (s : State),
    s.Issues n.val ∧ v = ((s.now n.val).gr ra.val) + imm.signExtend 32 ∧ s.KeepsLimit n.val (.g rd.val) v :=
  ⟨(6 : Fin 8), (true : Bool), (31 : Fin 32), (31 : Fin 32), (65535#16 : BitVec 16), _, (coreBase ((6 : Fin 8)).val CoreCtx.reset),
    by constructor <;> decide +kernel, rfl, fun h => absurd h (by decide +kernel)⟩

theorem witness_IntegerInstructions_33 : ∃ (n : Fin 8) (p : Bool) (rd : Fin 32) (ra : Fin 32) (imm : BitVec 16) (v : Word) (s : State),
    s.Issues n.val ∧ v = ((s.now n.val).gr ra.val) &&& imm.zeroExtend 32 ∧ s.KeepsLimit n.val (.g rd.val) v :=
  ⟨(6 : Fin 8), (true : Bool), (31 : Fin 32), (31 : Fin 32), (65535#16 : BitVec 16), _, (coreBase ((6 : Fin 8)).val CoreCtx.reset),
    by constructor <;> decide +kernel, rfl, fun h => absurd h (by decide +kernel)⟩

theorem witness_IntegerInstructions_34 : ∃ (n : Fin 8) (p : Bool) (rd : Fin 32) (ra : Fin 32) (imm : BitVec 16) (v : Word) (s : State),
    s.Issues n.val ∧ v = ((s.now n.val).gr ra.val) ||| imm.zeroExtend 32 ∧ s.KeepsLimit n.val (.g rd.val) v :=
  ⟨(6 : Fin 8), (true : Bool), (31 : Fin 32), (31 : Fin 32), (65535#16 : BitVec 16), _, (coreBase ((6 : Fin 8)).val CoreCtx.reset),
    by constructor <;> decide +kernel, rfl, fun h => absurd h (by decide +kernel)⟩

theorem witness_IntegerInstructions_35 : ∃ (n : Fin 8) (p : Bool) (rd : Fin 32) (ra : Fin 32) (imm : BitVec 16) (v : Word) (s : State),
    s.Issues n.val ∧ v = ((s.now n.val).gr ra.val) ^^^ imm.zeroExtend 32 ∧ s.KeepsLimit n.val (.g rd.val) v :=
  ⟨(6 : Fin 8), (true : Bool), (31 : Fin 32), (31 : Fin 32), (65535#16 : BitVec 16), _, (coreBase ((6 : Fin 8)).val CoreCtx.reset),
    by constructor <;> decide +kernel, rfl, fun h => absurd h (by decide +kernel)⟩

theorem witness_IntegerInstructions_36 : ∃ (n : Fin 8) (p : Bool) (rd : Fin 32) (imm : BitVec 16) (v : Word) (s : State),
    s.Issues n.val ∧ v = w32 (at_ imm.toNat 16) ∧ s.KeepsLimit n.val (.g rd.val) v :=
  ⟨(6 : Fin 8), (true : Bool), (31 : Fin 32), (65535#16 : BitVec 16), _, (coreBase ((6 : Fin 8)).val CoreCtx.reset),
    by constructor <;> decide +kernel, rfl, fun h => absurd h (by decide +kernel)⟩

theorem witness_IntegerInstructions_37 : ∃ (n : Fin 8) (p : Bool) (rd : Fin 32) (ra : Fin 32) (cond : Fin 8) (imm : BitVec 13) (v : Word) (s : State),
    s.Issues n.val ∧ v = condWord (cmpCond cond.val ((s.now n.val).gr ra.val) (imm.signExtend 32)) ∧ s.KeepsLimit n.val (.g rd.val) v :=
  ⟨(6 : Fin 8), (true : Bool), (31 : Fin 32), (31 : Fin 32), (7 : Fin 8), (8191#13 : BitVec 13), _, (coreBase ((6 : Fin 8)).val CoreCtx.reset),
    by constructor <;> decide +kernel, rfl, fun h => absurd h (by decide +kernel)⟩

theorem witness_MultiplyAndDivideInstructions_0 : ∃ (n : Fin 8) (p : Bool) (rd : Fin 32) (ra : Fin 32) (rb : Fin 32) (v : Word) (s : State),
    s.Issues n.val ∧ v = ((s.now n.val).gr ra.val) * ((s.now n.val).gr rb.val) ∧ s.KeepsLimit n.val (.g rd.val) v :=
  ⟨(6 : Fin 8), (true : Bool), (31 : Fin 32), (31 : Fin 32), (31 : Fin 32), _, (coreBase ((6 : Fin 8)).val CoreCtx.reset),
    by constructor <;> decide +kernel, rfl, fun h => absurd h (by decide +kernel)⟩

theorem witness_MultiplyAndDivideInstructions_1 : ∃ (n : Fin 8) (p : Bool) (rd : Fin 32) (ra : Fin 32) (rb : Fin 32) (v : Word) (s : State),
    s.Issues n.val ∧ v = mulHigh (sInt ((s.now n.val).gr ra.val)) (sInt ((s.now n.val).gr rb.val)) ∧ s.KeepsLimit n.val (.g rd.val) v :=
  ⟨(6 : Fin 8), (true : Bool), (31 : Fin 32), (31 : Fin 32), (31 : Fin 32), _, (coreBase ((6 : Fin 8)).val CoreCtx.reset),
    by constructor <;> decide +kernel, rfl, fun h => absurd h (by decide +kernel)⟩

theorem witness_MultiplyAndDivideInstructions_2 : ∃ (n : Fin 8) (p : Bool) (rd : Fin 32) (ra : Fin 32) (rb : Fin 32) (v : Word) (s : State),
    s.Issues n.val ∧ v = mulHigh ((s.now n.val).gr ra.val).toNat ((s.now n.val).gr rb.val).toNat ∧ s.KeepsLimit n.val (.g rd.val) v :=
  ⟨(6 : Fin 8), (true : Bool), (31 : Fin 32), (31 : Fin 32), (31 : Fin 32), _, (coreBase ((6 : Fin 8)).val CoreCtx.reset),
    by constructor <;> decide +kernel, rfl, fun h => absurd h (by decide +kernel)⟩

theorem witness_MultiplyAndDivideInstructions_3 : ∃ (n : Fin 8) (p : Bool) (rd : Fin 32) (ra : Fin 32) (rb : Fin 32) (v : Word) (s : State),
    s.Issues n.val ∧ v = mulHigh (sInt ((s.now n.val).gr ra.val)) ((s.now n.val).gr rb.val).toNat ∧ s.KeepsLimit n.val (.g rd.val) v :=
  ⟨(6 : Fin 8), (true : Bool), (31 : Fin 32), (31 : Fin 32), (31 : Fin 32), _, (coreBase ((6 : Fin 8)).val CoreCtx.reset),
    by constructor <;> decide +kernel, rfl, fun h => absurd h (by decide +kernel)⟩

theorem witness_MultiplyAndDivideInstructions_4 : ∃ (n : Fin 8) (p : Bool) (rd : Fin 32) (ra : Fin 32) (rb : Fin 32) (v : Word) (s : State),
    s.Issues n.val ∧ v = (if ((s.now n.val).gr rb.val) = 0#32 then 0xFFFFFFFF#32 else wOfInt ((sInt ((s.now n.val).gr ra.val)).tdiv (sInt ((s.now n.val).gr rb.val)))) ∧ s.KeepsLimit n.val (.g rd.val) v :=
  ⟨(6 : Fin 8), (true : Bool), (31 : Fin 32), (31 : Fin 32), (31 : Fin 32), _, (coreBase ((6 : Fin 8)).val CoreCtx.reset),
    by constructor <;> decide +kernel, rfl, fun h => absurd h (by decide +kernel)⟩

theorem witness_MultiplyAndDivideInstructions_5 : ∃ (n : Fin 8) (p : Bool) (rd : Fin 32) (ra : Fin 32) (rb : Fin 32) (v : Word) (s : State),
    s.Issues n.val ∧ v = (if ((s.now n.val).gr rb.val) = 0#32 then 0xFFFFFFFF#32 else w32 (((s.now n.val).gr ra.val).toNat / ((s.now n.val).gr rb.val).toNat)) ∧ s.KeepsLimit n.val (.g rd.val) v :=
  ⟨(6 : Fin 8), (true : Bool), (31 : Fin 32), (31 : Fin 32), (31 : Fin 32), _, (coreBase ((6 : Fin 8)).val CoreCtx.reset),
    by constructor <;> decide +kernel, rfl, fun h => absurd h (by decide +kernel)⟩

theorem witness_MultiplyAndDivideInstructions_6 : ∃ (n : Fin 8) (p : Bool) (rd : Fin 32) (ra : Fin 32) (rb : Fin 32) (v : Word) (s : State),
    s.Issues n.val ∧ v = (if ((s.now n.val).gr rb.val) = 0#32 then ((s.now n.val).gr ra.val) else wOfInt ((sInt ((s.now n.val).gr ra.val)).tmod (sInt ((s.now n.val).gr rb.val)))) ∧ s.KeepsLimit n.val (.g rd.val) v :=
  ⟨(6 : Fin 8), (true : Bool), (31 : Fin 32), (31 : Fin 32), (31 : Fin 32), _, (coreBase ((6 : Fin 8)).val CoreCtx.reset),
    by constructor <;> decide +kernel, rfl, fun h => absurd h (by decide +kernel)⟩

theorem witness_MultiplyAndDivideInstructions_7 : ∃ (n : Fin 8) (p : Bool) (rd : Fin 32) (ra : Fin 32) (rb : Fin 32) (v : Word) (s : State),
    s.Issues n.val ∧ v = (if ((s.now n.val).gr rb.val) = 0#32 then ((s.now n.val).gr ra.val) else w32 (((s.now n.val).gr ra.val).toNat % ((s.now n.val).gr rb.val).toNat)) ∧ s.KeepsLimit n.val (.g rd.val) v :=
  ⟨(6 : Fin 8), (true : Bool), (31 : Fin 32), (31 : Fin 32), (31 : Fin 32), _, (coreBase ((6 : Fin 8)).val CoreCtx.reset),
    by constructor <;> decide +kernel, rfl, fun h => absurd h (by decide +kernel)⟩

theorem witness_MultiplyAndDivideInstructions_8 : ∃ (n : Fin 8) (p : Bool) (rd : Fin 32) (ra : Fin 32) (rb : Fin 32) (o : FOut) (s : State),
    s.Issues n.val ∧ s.FpFilled n.val ∧ o = fDiv (rmOf ((s.now n.val).crv 2)) ((s.now n.val).fr ra.val) ((s.now n.val).fr rb.val) :=
  ⟨(6 : Fin 8), (true : Bool), (31 : Fin 32), (31 : Fin 32), (31 : Fin 32), _, (coreBase ((6 : Fin 8)).val CoreCtx.reset),
    by constructor <;> decide +kernel, .inl (by decide +kernel), rfl⟩

theorem witness_MultiplyAndDivideInstructions_9 : ∃ (n : Fin 8) (p : Bool) (rd : Fin 32) (ra : Fin 32) (o : FOut) (s : State),
    s.Issues n.val ∧ s.FpFilled n.val ∧ o = fSqrt (rmOf ((s.now n.val).crv 2)) ((s.now n.val).fr ra.val) :=
  ⟨(6 : Fin 8), (true : Bool), (31 : Fin 32), (31 : Fin 32), _, (coreBase ((6 : Fin 8)).val CoreCtx.reset),
    by constructor <;> decide +kernel, .inl (by decide +kernel), rfl⟩

theorem witness_MultiplyAndDivideInstructions_10 : ∃ (n : Fin 8) (o : LongOp) (s : State),
    s.coreReady n.val = true ∧ (s.coreRec n.val).pair = none ∧ (s.core n.val).div = some o :=
  ⟨(6 : Fin 8), (⟨0#32, 7#32, 2#32, .g 5, 3#32, 0#32⟩ : LongOp), (coreBase ((6 : Fin 8)).val { CoreCtx.reset with div := some ⟨0#32, 7#32, 2#32, .g 5, 3#32, 0#32⟩ }),
    by decide +kernel⟩

theorem witness_MultiplyAndDivideInstructions_11 : ∃ (n : Fin 8) (o : LongOp) (s : State),
    s.coreReady n.val = true ∧ (s.coreRec n.val).pair = none ∧ (s.core n.val).fpu = some o :=
  ⟨(6 : Fin 8), (⟨0#32, 7#32, 2#32, .g 5, 3#32, 0#32⟩ : LongOp), (coreBase ((6 : Fin 8)).val { CoreCtx.reset with fpu := some ⟨0#32, 7#32, 2#32, .g 5, 3#32, 0#32⟩ }),
    by decide +kernel⟩

theorem witness_FloatInstructions_0 : ∃ (n : Fin 8) (p : Bool) (rd : Fin 32) (ra : Fin 32) (rb : Fin 32) (o : FOut) (s : State),
    s.Issues n.val ∧ s.FpFilled n.val ∧ o = fAdd (rmOf ((s.now n.val).crv 2)) ((s.now n.val).fr ra.val) ((s.now n.val).fr rb.val) :=
  ⟨(6 : Fin 8), (true : Bool), (31 : Fin 32), (31 : Fin 32), (31 : Fin 32), _, (coreBase ((6 : Fin 8)).val CoreCtx.reset),
    by constructor <;> decide +kernel, .inl (by decide +kernel), rfl⟩

theorem witness_FloatInstructions_1 : ∃ (n : Fin 8) (p : Bool) (rd : Fin 32) (ra : Fin 32) (rb : Fin 32) (o : FOut) (s : State),
    s.Issues n.val ∧ s.FpFilled n.val ∧ o = fSub (rmOf ((s.now n.val).crv 2)) ((s.now n.val).fr ra.val) ((s.now n.val).fr rb.val) :=
  ⟨(6 : Fin 8), (true : Bool), (31 : Fin 32), (31 : Fin 32), (31 : Fin 32), _, (coreBase ((6 : Fin 8)).val CoreCtx.reset),
    by constructor <;> decide +kernel, .inl (by decide +kernel), rfl⟩

theorem witness_FloatInstructions_2 : ∃ (n : Fin 8) (p : Bool) (rd : Fin 32) (ra : Fin 32) (rb : Fin 32) (o : FOut) (s : State),
    s.Issues n.val ∧ s.FpFilled n.val ∧ o = fMul (rmOf ((s.now n.val).crv 2)) ((s.now n.val).fr ra.val) ((s.now n.val).fr rb.val) :=
  ⟨(6 : Fin 8), (true : Bool), (31 : Fin 32), (31 : Fin 32), (31 : Fin 32), _, (coreBase ((6 : Fin 8)).val CoreCtx.reset),
    by constructor <;> decide +kernel, .inl (by decide +kernel), rfl⟩

theorem witness_FloatInstructions_3 : ∃ (n : Fin 8) (p : Bool) (rd : Fin 32) (ra : Fin 32) (rb : Fin 32) (o : FOut) (s : State),
    s.Issues n.val ∧ s.FpFilled n.val ∧ o = fMin ((s.now n.val).fr ra.val) ((s.now n.val).fr rb.val) :=
  ⟨(6 : Fin 8), (true : Bool), (31 : Fin 32), (31 : Fin 32), (31 : Fin 32), _, (coreBase ((6 : Fin 8)).val CoreCtx.reset),
    by constructor <;> decide +kernel, .inl (by decide +kernel), rfl⟩

theorem witness_FloatInstructions_4 : ∃ (n : Fin 8) (p : Bool) (rd : Fin 32) (ra : Fin 32) (rb : Fin 32) (o : FOut) (s : State),
    s.Issues n.val ∧ s.FpFilled n.val ∧ o = fMax ((s.now n.val).fr ra.val) ((s.now n.val).fr rb.val) :=
  ⟨(6 : Fin 8), (true : Bool), (31 : Fin 32), (31 : Fin 32), (31 : Fin 32), _, (coreBase ((6 : Fin 8)).val CoreCtx.reset),
    by constructor <;> decide +kernel, .inl (by decide +kernel), rfl⟩

theorem witness_FloatInstructions_5 : ∃ (n : Fin 8) (p : Bool) (rd : Fin 32) (ra : Fin 32) (o : FOut) (s : State),
    s.Issues n.val ∧ s.FpFilled n.val ∧ o = fAbs ((s.now n.val).fr ra.val) :=
  ⟨(6 : Fin 8), (true : Bool), (31 : Fin 32), (31 : Fin 32), _, (coreBase ((6 : Fin 8)).val CoreCtx.reset),
    by constructor <;> decide +kernel, .inl (by decide +kernel), rfl⟩

theorem witness_FloatInstructions_6 : ∃ (n : Fin 8) (p : Bool) (rd : Fin 32) (ra : Fin 32) (o : FOut) (s : State),
    s.Issues n.val ∧ s.FpFilled n.val ∧ o = fNeg ((s.now n.val).fr ra.val) :=
  ⟨(6 : Fin 8), (true : Bool), (31 : Fin 32), (31 : Fin 32), _, (coreBase ((6 : Fin 8)).val CoreCtx.reset),
    by constructor <;> decide +kernel, .inl (by decide +kernel), rfl⟩

theorem witness_FloatInstructions_7 : ∃ (n : Fin 8) (p : Bool) (rd : Fin 32) (ra : Fin 32) (rb : Fin 32) (o : FOut) (s : State),
    s.Issues n.val ∧ s.FpFilled n.val ∧ o = fCeq ((s.now n.val).fr ra.val) ((s.now n.val).fr rb.val) ∧ s.KeepsLimit n.val (.g rd.val) o.1 :=
  ⟨(6 : Fin 8), (true : Bool), (31 : Fin 32), (31 : Fin 32), (31 : Fin 32), _, (coreBase ((6 : Fin 8)).val CoreCtx.reset),
    by constructor <;> decide +kernel, .inl (by decide +kernel), rfl, fun h => absurd h (by decide +kernel)⟩

theorem witness_FloatInstructions_8 : ∃ (n : Fin 8) (p : Bool) (rd : Fin 32) (ra : Fin 32) (rb : Fin 32) (o : FOut) (s : State),
    s.Issues n.val ∧ s.FpFilled n.val ∧ o = fClt ((s.now n.val).fr ra.val) ((s.now n.val).fr rb.val) ∧ s.KeepsLimit n.val (.g rd.val) o.1 :=
  ⟨(6 : Fin 8), (true : Bool), (31 : Fin 32), (31 : Fin 32), (31 : Fin 32), _, (coreBase ((6 : Fin 8)).val CoreCtx.reset),
    by constructor <;> decide +kernel, .inl (by decide +kernel), rfl, fun h => absurd h (by decide +kernel)⟩

theorem witness_FloatInstructions_9 : ∃ (n : Fin 8) (p : Bool) (rd : Fin 32) (ra : Fin 32) (rb : Fin 32) (o : FOut) (s : State),
    s.Issues n.val ∧ s.FpFilled n.val ∧ o = fCle ((s.now n.val).fr ra.val) ((s.now n.val).fr rb.val) ∧ s.KeepsLimit n.val (.g rd.val) o.1 :=
  ⟨(6 : Fin 8), (true : Bool), (31 : Fin 32), (31 : Fin 32), (31 : Fin 32), _, (coreBase ((6 : Fin 8)).val CoreCtx.reset),
    by constructor <;> decide +kernel, .inl (by decide +kernel), rfl, fun h => absurd h (by decide +kernel)⟩

theorem witness_FloatInstructions_10 : ∃ (n : Fin 8) (p : Bool) (rd : Fin 32) (ra : Fin 32) (rb : Fin 32) (o : FOut) (s : State),
    s.Issues n.val ∧ s.FpFilled n.val ∧ o = fCun ((s.now n.val).fr ra.val) ((s.now n.val).fr rb.val) ∧ s.KeepsLimit n.val (.g rd.val) o.1 :=
  ⟨(6 : Fin 8), (true : Bool), (31 : Fin 32), (31 : Fin 32), (31 : Fin 32), _, (coreBase ((6 : Fin 8)).val CoreCtx.reset),
    by constructor <;> decide +kernel, .inl (by decide +kernel), rfl, fun h => absurd h (by decide +kernel)⟩

theorem witness_FloatInstructions_11 : ∃ (n : Fin 8) (p : Bool) (rd : Fin 32) (ra : Fin 32) (o : FOut) (s : State),
    s.Issues n.val ∧ s.FpFilled n.val ∧ o = fToSigned (rmOf ((s.now n.val).crv 2)) ((s.now n.val).fr ra.val) ∧ s.KeepsLimit n.val (.g rd.val) o.1 :=
  ⟨(6 : Fin 8), (true : Bool), (31 : Fin 32), (31 : Fin 32), _, (coreBase ((6 : Fin 8)).val CoreCtx.reset),
    by constructor <;> decide +kernel, .inl (by decide +kernel), rfl, fun h => absurd h (by decide +kernel)⟩

theorem witness_FloatInstructions_12 : ∃ (n : Fin 8) (p : Bool) (rd : Fin 32) (ra : Fin 32) (o : FOut) (s : State),
    s.Issues n.val ∧ s.FpFilled n.val ∧ o = fToUnsigned (rmOf ((s.now n.val).crv 2)) ((s.now n.val).fr ra.val) ∧ s.KeepsLimit n.val (.g rd.val) o.1 :=
  ⟨(6 : Fin 8), (true : Bool), (31 : Fin 32), (31 : Fin 32), _, (coreBase ((6 : Fin 8)).val CoreCtx.reset),
    by constructor <;> decide +kernel, .inl (by decide +kernel), rfl, fun h => absurd h (by decide +kernel)⟩

theorem witness_FloatInstructions_13 : ∃ (n : Fin 8) (p : Bool) (rd : Fin 32) (ra : Fin 32) (o : FOut) (s : State),
    s.Issues n.val ∧ s.FpFilled n.val ∧ o = fOfInt (rmOf ((s.now n.val).crv 2)) (sInt ((s.now n.val).gr ra.val)) :=
  ⟨(6 : Fin 8), (true : Bool), (31 : Fin 32), (31 : Fin 32), _, (coreBase ((6 : Fin 8)).val CoreCtx.reset),
    by constructor <;> decide +kernel, .inl (by decide +kernel), rfl⟩

theorem witness_FloatInstructions_14 : ∃ (n : Fin 8) (p : Bool) (rd : Fin 32) (ra : Fin 32) (o : FOut) (s : State),
    s.Issues n.val ∧ s.FpFilled n.val ∧ o = fOfInt (rmOf ((s.now n.val).crv 2)) (((s.now n.val).gr ra.val).toNat) :=
  ⟨(6 : Fin 8), (true : Bool), (31 : Fin 32), (31 : Fin 32), _, (coreBase ((6 : Fin 8)).val CoreCtx.reset),
    by constructor <;> decide +kernel, .inl (by decide +kernel), rfl⟩

theorem witness_FloatInstructions_15 : ∃ (n : Fin 8) (p : Bool) (rd : Fin 32) (ra : Fin 32) (o : FOut) (s : State),
    s.Issues n.val ∧ s.FpFilled n.val ∧ o = (((s.now n.val).fr ra.val), 0#32) ∧ s.KeepsLimit n.val (.g rd.val) o.1 :=
  ⟨(6 : Fin 8), (true : Bool), (31 : Fin 32), (31 : Fin 32), _, (coreBase ((6 : Fin 8)).val CoreCtx.reset),
    by constructor <;> decide +kernel, .inl (by decide +kernel), rfl, fun h => absurd h (by decide +kernel)⟩

theorem witness_FloatInstructions_16 : ∃ (n : Fin 8) (p : Bool) (rd : Fin 32) (ra : Fin 32) (o : FOut) (s : State),
    s.Issues n.val ∧ s.FpFilled n.val ∧ o = (((s.now n.val).gr ra.val), 0#32) :=
  ⟨(6 : Fin 8), (true : Bool), (31 : Fin 32), (31 : Fin 32), _, (coreBase ((6 : Fin 8)).val CoreCtx.reset),
    by constructor <;> decide +kernel, .inl (by decide +kernel), rfl⟩

theorem witness_FloatInstructions_17 : ∃ (n : Fin 8) (p : Bool) (fd : Fin 32) (fa : Fin 32) (fb : Fin 32) (fc : Fin 32) (o : FOut) (s : State),
    s.Issues n.val ∧ s.FpFilled n.val ∧ o = fFma (rmOf ((s.now n.val).crv 2)) false ((s.now n.val).fr fa.val) ((s.now n.val).fr fb.val) ((s.now n.val).fr fc.val) :=
  ⟨(6 : Fin 8), (true : Bool), (31 : Fin 32), (31 : Fin 32), (31 : Fin 32), (31 : Fin 32), _, (coreBase ((6 : Fin 8)).val CoreCtx.reset),
    by constructor <;> decide +kernel, .inl (by decide +kernel), rfl⟩

theorem witness_FloatInstructions_18 : ∃ (n : Fin 8) (p : Bool) (fd : Fin 32) (fa : Fin 32) (fb : Fin 32) (fc : Fin 32) (o : FOut) (s : State),
    s.Issues n.val ∧ s.FpFilled n.val ∧ o = fFma (rmOf ((s.now n.val).crv 2)) false ((s.now n.val).fr fa.val) ((s.now n.val).fr fb.val) (((s.now n.val).fr fc.val) ^^^ 0x80000000#32) :=
  ⟨(6 : Fin 8), (true : Bool), (31 : Fin 32), (31 : Fin 32), (31 : Fin 32), (31 : Fin 32), _, (coreBase ((6 : Fin 8)).val CoreCtx.reset),
    by constructor <;> decide +kernel, .inl (by decide +kernel), rfl⟩

theorem witness_FloatInstructions_19 : ∃ (n : Fin 8) (p : Bool) (fd : Fin 32) (fa : Fin 32) (fb : Fin 32) (fc : Fin 32) (o : FOut) (s : State),
    s.Issues n.val ∧ s.FpFilled n.val ∧ o = fFma (rmOf ((s.now n.val).crv 2)) false (((s.now n.val).fr fa.val) ^^^ 0x80000000#32) ((s.now n.val).fr fb.val) ((s.now n.val).fr fc.val) :=
  ⟨(6 : Fin 8), (true : Bool), (31 : Fin 32), (31 : Fin 32), (31 : Fin 32), (31 : Fin 32), _, (coreBase ((6 : Fin 8)).val CoreCtx.reset),
    by constructor <;> decide +kernel, .inl (by decide +kernel), rfl⟩

theorem witness_FloatInstructions_20 : ∃ (n : Fin 8) (p : Bool) (fd : Fin 32) (fa : Fin 32) (fb : Fin 32) (fc : Fin 32) (o : FOut) (s : State),
    s.Issues n.val ∧ s.FpFilled n.val ∧ o = fFma (rmOf ((s.now n.val).crv 2)) true ((s.now n.val).fr fa.val) ((s.now n.val).fr fb.val) ((s.now n.val).fr fc.val) :=
  ⟨(6 : Fin 8), (true : Bool), (31 : Fin 32), (31 : Fin 32), (31 : Fin 32), (31 : Fin 32), _, (coreBase ((6 : Fin 8)).val CoreCtx.reset),
    by constructor <;> decide +kernel, .inl (by decide +kernel), rfl⟩

theorem witness_LoadStoreBlockAndControl_0 : ∃ (n : Fin 8) (p : Bool) (rd : Fin 32) (ra : Fin 32) (am : Fin 4) (size : Fin 4) (sign : Bool) (f : BitVec 11) (a : Word) (u : Option Word) (ad : Nat) (w : Word) (s : State),
    s.Issues n.val ∧ (p = false ∨ (s.now n.val).native = false) ∧ memIllegal true false rd.val ra.val am.val size.val sign = false ∧ (a, u) = (s.now n.val).address ra.val am.val size.val f ∧ a.toNat % mSize size.val = 0 ∧ s.ramOf n a.toNat = some ad ∧ s.eccMark ad = .good ∧ (s.coreRec n.val).stale = [] ∧ w = loadValue (mSize size.val) sign (w32 (s.loadN ad (mSize size.val))) ∧ s.KeepsLimit n.val (.g rd.val) w ∧ (u.isSome = true → s.KeepsLimit n.val (.g ra.val) (u.getD 0)) :=
  ⟨(6 : Fin 8), (false : Bool), (31 : Fin 32), (1 : Fin 32), (0 : Fin 4), (2 : Fin 4), (false : Bool), (0#11 : BitVec 11), (0x80000#32 : Word), (none : Option Word), (0x30680000 : Nat), (0#32 : Word), (coreBase ((6 : Fin 8)).val { CoreCtx.reset with g := [(1, 0x80000#32)] }),
    by constructor <;> decide +kernel, by decide +kernel, by decide +kernel, by decide +kernel, by decide +kernel, by decide +kernel, by decide +kernel, by decide +kernel, by decide +kernel, fun h => absurd h (by decide +kernel), fun _ h => absurd h (by decide +kernel)⟩
theorem witness_LoadStoreBlockAndControl_1 : ∃ (n : Fin 8) (p : Bool) (rd : Fin 32) (ra : Fin 32) (am : Fin 4) (size : Fin 4) (sign : Bool) (f : BitVec 11) (a : Word) (u : Option Word) (ad : Nat) (w : Word) (s : State),
    s.Issues n.val ∧ s.FpFilled n.val ∧ (p = false ∨ (s.now n.val).native = false) ∧ memIllegal true true rd.val ra.val am.val size.val sign = false ∧ (a, u) = (s.now n.val).address ra.val am.val size.val f ∧ a.toNat % mSize size.val = 0 ∧ s.ramOf n a.toNat = some ad ∧ s.eccMark ad = .good ∧ (s.coreRec n.val).stale = [] ∧ w = loadValue (mSize size.val) sign (w32 (s.loadN ad (mSize size.val))) ∧ (u.isSome = true → s.KeepsLimit n.val (.g ra.val) (u.getD 0)) :=
  ⟨(6 : Fin 8), (false : Bool), (31 : Fin 32), (1 : Fin 32), (0 : Fin 4), (2 : Fin 4), (false : Bool), (0#11 : BitVec 11), (0x80000#32 : Word), (none : Option Word), (0x30680000 : Nat), (0#32 : Word), (coreBase ((6 : Fin 8)).val { CoreCtx.reset with g := [(1, 0x80000#32)] }),
    by constructor <;> decide +kernel, .inl (by decide +kernel), by decide +kernel, by decide +kernel, by decide +kernel, by decide +kernel, by decide +kernel, by decide +kernel, by decide +kernel, by decide +kernel, fun _ h => absurd h (by decide +kernel)⟩
theorem witness_LoadStoreBlockAndControl_2 : ∃ (n : Fin 8) (p : Bool) (rd : Fin 32) (ra : Fin 32) (am : Fin 4) (size : Fin 4) (sign : Bool) (f : BitVec 11) (a : Word) (u : Option Word) (ad : Nat) (s : State),
    s.Issues n.val ∧ (p = false ∨ (s.now n.val).native = false) ∧ memIllegal false false rd.val ra.val am.val size.val sign = false ∧ (a, u) = (s.now n.val).address ra.val am.val size.val f ∧ a.toNat % mSize size.val = 0 ∧ s.ramOf n a.toNat = some ad ∧ (size.val = 2 ∨ s.eccMark ad = .good) ∧ (u.isSome = true → s.KeepsLimit n.val (.g ra.val) (u.getD 0)) :=
  ⟨(6 : Fin 8), (false : Bool), (31 : Fin 32), (1 : Fin 32), (0 : Fin 4), (2 : Fin 4), (false : Bool), (0#11 : BitVec 11), (0x80000#32 : Word), (none : Option Word), (0x30680000 : Nat), (coreBase ((6 : Fin 8)).val { CoreCtx.reset with g := [(1, 0x80000#32)] }),
    by constructor <;> decide +kernel, by decide +kernel, by decide +kernel, by decide +kernel, by decide +kernel, by decide +kernel, by decide +kernel, fun _ h => absurd h (by decide +kernel)⟩
theorem witness_LoadStoreBlockAndControl_3 : ∃ (n : Fin 8) (p : Bool) (rd : Fin 32) (ra : Fin 32) (am : Fin 4) (size : Fin 4) (sign : Bool) (f : BitVec 11) (a : Word) (u : Option Word) (ad : Nat) (s : State),
    s.Issues n.val ∧ s.FpFilled n.val ∧ (p = false ∨ (s.now n.val).native = false) ∧ memIllegal false true rd.val ra.val am.val size.val sign = false ∧ (a, u) = (s.now n.val).address ra.val am.val size.val f ∧ a.toNat % mSize size.val = 0 ∧ s.ramOf n a.toNat = some ad ∧ (size.val = 2 ∨ s.eccMark ad = .good) ∧ (u.isSome = true → s.KeepsLimit n.val (.g ra.val) (u.getD 0)) :=
  ⟨(6 : Fin 8), (false : Bool), (31 : Fin 32), (1 : Fin 32), (0 : Fin 4), (2 : Fin 4), (false : Bool), (0#11 : BitVec 11), (0x80000#32 : Word), (none : Option Word), (0x30680000 : Nat), (coreBase ((6 : Fin 8)).val { CoreCtx.reset with g := [(1, 0x80000#32)] }),
    by constructor <;> decide +kernel, .inl (by decide +kernel), by decide +kernel, by decide +kernel, by decide +kernel, by decide +kernel, by decide +kernel, by decide +kernel, fun _ h => absurd h (by decide +kernel)⟩
theorem witness_LoadStoreBlockAndControl_4 : ∃ (n : Fin 8) (rd : Fin 32) (ra : Fin 32) (am : Fin 4) (size : Fin 4) (sign : Bool) (f : BitVec 11) (a : Word) (u : Option Word) (s : State),
    s.Issues n.val ∧ (s.now n.val).native = true ∧ memIllegal true false rd.val ra.val am.val size.val sign = false ∧ (a, u) = (s.now n.val).address ra.val am.val size.val f ∧ a.toNat % mSize size.val = 0 ∧ (u.isSome = true → s.KeepsLimit n.val (.g ra.val) (u.getD 0)) ∧ s.frozenRead n.val a.toNat = false :=
  ⟨(6 : Fin 8), (31 : Fin 32), (1 : Fin 32), (0 : Fin 4), (2 : Fin 4), (false : Bool), (0#11 : BitVec 11), (0x80000#32 : Word), (none : Option Word), (coreBase ((6 : Fin 8)).val { CoreCtx.reset with g := [(1, 0x80000#32)] }),
    by constructor <;> decide +kernel, by decide +kernel, by decide +kernel, by decide +kernel, by decide +kernel, fun _ h => absurd h (by decide +kernel), by decide +kernel⟩
theorem witness_LoadStoreBlockAndControl_5 : ∃ (n : Fin 8) (p : Bool) (ra : Fin 32) (rm : Fin 32) (dir : Bool) (wb : Bool) (fp : Bool) (s : State),
    s.Issues n.val ∧ (fp = true → s.FpFilled n.val) ∧ (s.now n.val).compat = false ∧ (fp = true ∨ bit ((s.now n.val).gr rm.val) 0 = false ∧ (wb = true → bit ((s.now n.val).gr rm.val) ra.val = false)) ∧ (blockRegs ((s.now n.val).gr rm.val) dir fp = [] ∨ (blockAddr ((s.now n.val).gr ra.val) dir 0).toNat % 4 = 0) ∧ (wb = true → s.KeepsLimit n.val (.g ra.val) (blockEnd ((s.now n.val).gr ra.val) ((s.now n.val).gr rm.val) dir)) ∧ (fp = true ∨ bit ((s.now n.val).gr rm.val) 30 = false) :=
  ⟨(6 : Fin 8), (true : Bool), (1 : Fin 32), (2 : Fin 32), (true : Bool), (true : Bool), (false : Bool), (coreBase ((6 : Fin 8)).val { CoreCtx.reset with g := [(1, 0x80000#32), (2, 0x38#32)] }),
    by constructor <;> decide +kernel, fun _ => .inl (by decide +kernel), by decide +kernel, by decide +kernel, by decide +kernel, fun _ h => absurd h (by decide +kernel), by decide +kernel⟩
theorem witness_LoadStoreBlockAndControl_6 : ∃ (n : Fin 8) (p : Bool) (ra : Fin 32) (rm : Fin 32) (dir : Bool) (wb : Bool) (fp : Bool) (s : State),
    s.Issues n.val ∧ (fp = true → s.FpFilled n.val) ∧ (s.now n.val).compat = false ∧ (fp = true ∨ bit ((s.now n.val).gr rm.val) 0 = false ∧ (wb = true → bit ((s.now n.val).gr rm.val) ra.val = false)) ∧ (blockRegs ((s.now n.val).gr rm.val) dir fp = [] ∨ (blockAddr ((s.now n.val).gr ra.val) dir 0).toNat % 4 = 0) ∧ (wb = true → s.KeepsLimit n.val (.g ra.val) (blockEnd ((s.now n.val).gr ra.val) ((s.now n.val).gr rm.val) dir)) :=
  ⟨(6 : Fin 8), (true : Bool), (1 : Fin 32), (2 : Fin 32), (true : Bool), (true : Bool), (false : Bool), (coreBase ((6 : Fin 8)).val { CoreCtx.reset with g := [(1, 0x80000#32), (2, 0x38#32)] }),
    by constructor <;> decide +kernel, fun _ => .inl (by decide +kernel), by decide +kernel, by decide +kernel, by decide +kernel, fun _ h => absurd h (by decide +kernel)⟩
theorem witness_LoadStoreBlockAndControl_7 : ∃ (n : Fin 8) (b : BlockOp) (s : State),
    s.coreReady n.val = true ∧ (s.coreRec n.val).pair = none ∧ (s.coreRec n.val).stale = [] ∧ (s.core n.val).blk = some b ∧ b.load = true ∧ (∀ k : Fin 32, b.next ≤ k.val → k.val < b.regs.length → s.goodWord n (b.addr k.val).toNat = true) ∧ (∀ k : Fin 32, b.next ≤ k.val → b.regs[k.val]? = some (.g 30) → (s.core n.val).violates (s.wordAt n (b.addr k.val).toNat) = false) :=
  ⟨(6 : Fin 8), (⟨encB false 0x10 1 2 false true false, 0x80000#32, 0x38#32, 0, []⟩ : BlockOp), (coreBase ((6 : Fin 8)).val { CoreCtx.reset with blk := some ⟨encB false 0x10 1 2 false true false, 0x80000#32, 0x38#32, 0, []⟩ }),
    by decide +kernel⟩
theorem witness_LoadStoreBlockAndControl_8 : ∃ (n : Fin 8) (b : BlockOp) (s : State),
    s.coreReady n.val = true ∧ (s.coreRec n.val).pair = none ∧ (s.core n.val).blk = some b ∧ b.load = false ∧ b.data.length = b.regs.length ∧ (∀ k : Fin 32, b.next ≤ k.val → k.val < b.regs.length → s.goodWord n (b.addr k.val).toNat = true) :=
  ⟨(6 : Fin 8), (⟨encB false 0x11 1 2 false true false, 0x80000#32, 0x38#32, 0, [7#32, 8#32, 9#32]⟩ : BlockOp), (coreBase ((6 : Fin 8)).val { CoreCtx.reset with blk := some ⟨encB false 0x11 1 2 false true false, 0x80000#32, 0x38#32, 0, [7#32, 8#32, 9#32]⟩ }),
    by decide +kernel⟩
theorem witness_LoadStoreBlockAndControl_9 : ∃ (n : Fin 8) (p : Bool) (ra : Fin 32) (off : BitVec 21) (s : State),
    s.Issues n.val ∧ ((s.now n.val).pc + wOfInt (4 * off.toInt)).toNat % 4 = 0 :=
  ⟨(6 : Fin 8), (true : Bool), (31 : Fin 32), (2097151#21 : BitVec 21), (coreBase ((6 : Fin 8)).val CoreCtx.reset),
    by constructor <;> decide +kernel, by decide +kernel⟩
theorem witness_LoadStoreBlockAndControl_10 : ∃ (n : Fin 8) (p : Bool) (ra : Fin 32) (off : BitVec 21) (s : State),
    s.Issues n.val ∧ ((s.now n.val).pc + wOfInt (4 * off.toInt)).toNat % 4 = 0 :=
  ⟨(6 : Fin 8), (true : Bool), (31 : Fin 32), (2097151#21 : BitVec 21), (coreBase ((6 : Fin 8)).val CoreCtx.reset),
    by constructor <;> decide +kernel, by decide +kernel⟩
theorem witness_LoadStoreBlockAndControl_11 : ∃ (n : Fin 8) (p : Bool) (off : BitVec 26) (s : State),
    s.Issues n.val ∧ ((s.now n.val).pc + wOfInt (4 * off.toInt)).toNat % 4 = 0 :=
  ⟨(6 : Fin 8), (true : Bool), (67108863#26 : BitVec 26), (coreBase ((6 : Fin 8)).val CoreCtx.reset),
    by constructor <;> decide +kernel, by decide +kernel⟩
theorem witness_LoadStoreBlockAndControl_12 : ∃ (n : Fin 8) (p : Bool) (ra : Fin 32) (s : State),
    s.Issues n.val ∧ ((s.now n.val).gr ra.val).toNat % 4 = 0 :=
  ⟨(6 : Fin 8), (true : Bool), (31 : Fin 32), (coreBase ((6 : Fin 8)).val CoreCtx.reset),
    by constructor <;> decide +kernel, by decide +kernel⟩
theorem witness_LoadStoreBlockAndControl_13 : ∃ (n : Fin 8) (p : Bool) (off : BitVec 26) (ad : Nat) (s : State),
    s.Issues n.val ∧ ((s.now n.val).pc + wOfInt (4 * off.toInt)).toNat % 4 = 0 ∧ ((s.now n.val).crv 5 = 0#32 ∨ ((s.now n.val).crv 5).toNat ≤ ((s.now n.val).crv 4 - 4#32).toNat) ∧ ((s.now n.val).crv 4 - 4#32).toNat % 4 = 0 ∧ s.ramOf n ((s.now n.val).crv 4 - 4#32).toNat = some ad :=
  ⟨(6 : Fin 8), (true : Bool), (67108863#26 : BitVec 26), (0x3068000C : Nat), (coreBase ((6 : Fin 8)).val (CoreCtx.reset.setCr 4 0x80010#32)),
    by constructor <;> decide +kernel,
    by decide +kernel⟩
theorem witness_LoadStoreBlockAndControl_14 : ∃ (n : Fin 8) (p : Bool) (ra : Fin 32) (ad : Nat) (s : State),
    s.Issues n.val ∧ ((s.now n.val).gr ra.val).toNat % 4 = 0 ∧ ((s.now n.val).crv 5 = 0#32 ∨ ((s.now n.val).crv 5).toNat ≤ ((s.now n.val).crv 4 - 4#32).toNat) ∧ ((s.now n.val).crv 4 - 4#32).toNat % 4 = 0 ∧ s.ramOf n ((s.now n.val).crv 4 - 4#32).toNat = some ad :=
  ⟨(6 : Fin 8), (true : Bool), (31 : Fin 32), (0x3068000C : Nat), (coreBase ((6 : Fin 8)).val (CoreCtx.reset.setCr 4 0x80010#32)),
    by constructor <;> decide +kernel,
    by decide +kernel⟩
theorem witness_LoadStoreBlockAndControl_15 : ∃ (n : Fin 8) (p : Bool) (s : State),
    s.Issues n.val ∧ s.goodWord n ((s.now n.val).crv 4).toNat = true ∧ (s.coreRec n.val).stale = [] ∧ (s.wordAt n ((s.now n.val).crv 4).toNat).toNat % 4 = 0 :=
  ⟨(6 : Fin 8), (true : Bool), (coreBase ((6 : Fin 8)).val (CoreCtx.reset.setCr 4 0x80010#32)),
    by constructor <;> decide +kernel,
    by decide +kernel⟩
theorem witness_LoadStoreBlockAndControl_16 : ∃ (n : Fin 8) (p : Bool) (s : State),
    s.Issues n.val ∧ (s.core n.val).sup = true ∧ (∀ i : Fin 68, s.goodWord n (((s.now n.val).landAll).gr 30 + w32 (4 * i.val)).toNat = true) ∧ (s.coreRec n.val).stale = [] ∧ (s.wordAt n (((s.now n.val).landAll).gr 30 + w32 (4 * 1)).toNat).toNat % 4 = 0 ∧ fld (s.wordAt n (((s.now n.val).landAll).gr 30 + w32 (4 * 13)).toNat) 10 8 = 0 ∧ fld (s.wordAt n (((s.now n.val).landAll).gr 30 + w32 (4 * 13)).toNat) 2 0 = 0 ∧ s.slotEn n.val (s.runSlot n.val) = true ∧ s.preempts n.val = none :=
  ⟨(6 : Fin 8), (true : Bool), ((coreBase ((6 : Fin 8)).val (({ CoreCtx.reset with g := [(30, 0x80100#32)], frames := [0x80100#32] }.setCr 0 0x80000000#32).setCr 0x24 1#32)).setReg (R.SCH_SLOTs_CTRL ((6 : Fin 8)).val 0) 0x80000000#32),
    by constructor <;> decide +kernel,
    by decide +kernel⟩
theorem witness_SystemInstructions_0 : ∃ (n : Fin 8) (p : Bool) (rd : Fin 32) (cr : BitVec 8) (v : Word) (s : State),
    s.Issues n.val ∧ crListed cr.toNat = true ∧ (mfcrTask cr.toNat = true ∨ (s.core n.val).sup = true) ∧ (cr = 2#8 → s.FpFilled n.val) ∧ v = (if cr = 0x10#8 then s.coreId n.val else (s.now n.val).crv cr.toNat) ∧ s.KeepsLimit n.val (.g rd.val) v :=
  ⟨(6 : Fin 8), (true : Bool), (31 : Fin 32), (0x24#8 : BitVec 8), _, ((coreBase ((6 : Fin 8)).val (CoreCtx.reset.setCr 0 0x80000000#32)).setReg (R.SCH_SLOTs_CTRL ((6 : Fin 8)).val 0) 0x80000000#32),
    by constructor <;> decide +kernel, by decide +kernel, by decide +kernel, fun _ => .inl (by decide +kernel), rfl, fun h => absurd h (by decide +kernel)⟩

theorem witness_SystemInstructions_1 : ∃ (n : Fin 8) (p : Bool) (cr : BitVec 8) (ra : Fin 32) (s : State),
    s.Issues n.val ∧ crListed cr.toNat = true ∧ (mtcrTask cr.toNat = true ∨ (s.core n.val).sup = true) ∧ (cr = 2#8 → s.FpFilled n.val) ∧ s.Stays n.val :=
  ⟨(6 : Fin 8), (true : Bool), (0x24#8 : BitVec 8), (31 : Fin 32), ((coreBase ((6 : Fin 8)).val (CoreCtx.reset.setCr 0 0x80000000#32)).setReg (R.SCH_SLOTs_CTRL ((6 : Fin 8)).val 0) 0x80000000#32),
    by constructor <;> decide +kernel, by decide +kernel, by decide +kernel, fun _ => .inl (by decide +kernel), by constructor <;> decide +kernel⟩

theorem witness_SystemInstructions_2 : ∃ (n : Fin 8) (p : Bool) (s : State),
    s.Issues n.val ∧ (s.coreRec n.val).deferred = [] :=
  ⟨(6 : Fin 8), (true : Bool), ((coreBase ((6 : Fin 8)).val (CoreCtx.reset.setCr 0 0x80000000#32)).setReg (R.SCH_SLOTs_CTRL ((6 : Fin 8)).val 0) 0x80000000#32),
    by constructor <;> decide +kernel, by decide +kernel⟩

theorem witness_SystemInstructions_3 : ∃ (n : Fin 8) (p : Bool) (s : State),
    s.Issues n.val ∧ (s.coreRec n.val).deferred = [] :=
  ⟨(6 : Fin 8), (true : Bool), ((coreBase ((6 : Fin 8)).val (CoreCtx.reset.setCr 0 0x80000000#32)).setReg (R.SCH_SLOTs_CTRL ((6 : Fin 8)).val 0) 0x80000000#32),
    by constructor <;> decide +kernel, by decide +kernel⟩

theorem witness_SystemInstructions_4 : ∃ (n : Fin 8) (p : Bool) (ra : Fin 32) (s : State),
    s.Issues n.val :=
  ⟨(6 : Fin 8), (true : Bool), (31 : Fin 32), ((coreBase ((6 : Fin 8)).val (CoreCtx.reset.setCr 0 0x80000000#32)).setReg (R.SCH_SLOTs_CTRL ((6 : Fin 8)).val 0) 0x80000000#32),
    by constructor <;> decide +kernel⟩

theorem witness_SystemInstructions_5 : ∃ (n : Fin 8) (p : Bool) (ra : Fin 32) (s : State),
    s.Issues n.val :=
  ⟨(6 : Fin 8), (true : Bool), (31 : Fin 32), ((coreBase ((6 : Fin 8)).val (CoreCtx.reset.setCr 0 0x80000000#32)).setReg (R.SCH_SLOTs_CTRL ((6 : Fin 8)).val 0) 0x80000000#32),
    by constructor <;> decide +kernel⟩

theorem witness_SystemInstructions_6 : ∃ (n : Fin 8) (p : Bool) (s : State),
    s.Issues n.val ∧ (s.core n.val).sup = true :=
  ⟨(6 : Fin 8), (true : Bool), ((coreBase ((6 : Fin 8)).val (CoreCtx.reset.setCr 0 0x80000000#32)).setReg (R.SCH_SLOTs_CTRL ((6 : Fin 8)).val 0) 0x80000000#32),
    by constructor <;> decide +kernel, by decide +kernel⟩

theorem witness_SystemInstructions_7 : ∃ (n : Fin 8) (p : Bool) (s : State),
    s.Issues n.val ∧ (s.core n.val).sup = true :=
  ⟨(6 : Fin 8), (true : Bool), ((coreBase ((6 : Fin 8)).val (CoreCtx.reset.setCr 0 0x80000000#32)).setReg (R.SCH_SLOTs_CTRL ((6 : Fin 8)).val 0) 0x80000000#32),
    by constructor <;> decide +kernel, by decide +kernel⟩

theorem witness_SystemInstructions_8 : ∃ (n : Fin 8) (p : Bool) (s : State),
    s.Issues n.val ∧ s.slotPend n.val (s.runSlot n.val) = false ∧ s.slotSt n.val (s.runSlot n.val) = 3 ∧ (s.core n.val).lockout = false ∧ (∀ j : Fin 256, j.val ≠ s.runSlot n.val → s.slotReady n.val j.val = false) :=
  ⟨(6 : Fin 8), (true : Bool), (((coreBase ((6 : Fin 8)).val (CoreCtx.reset.setCr 0 0x80000000#32)).setReg (R.SCH_SLOTs_CTRL ((6 : Fin 8)).val 0) 0x80000000#32).setSlotSt ((6 : Fin 8)).val 0 3),
    by constructor <;> decide +kernel,
    by decide +kernel⟩

theorem witness_SystemInstructions_9 : ∃ (n : Fin 8) (p : Bool) (s : State),
    s.Issues n.val ∧ s.slotPend n.val (s.runSlot n.val) = true ∧ s.slotSt n.val (s.runSlot n.val) = 3 ∧ s.schedulable n.val (s.runSlot n.val) = true ∧ s.resident n.val (s.runSlot n.val) = true ∧ (∀ j : Fin 256, j.val ≠ s.runSlot n.val → s.slotReady n.val j.val = false) :=
  ⟨(6 : Fin 8), (true : Bool), ((let base := ((coreBase ((6 : Fin 8)).val (CoreCtx.reset.setCr 0 0x80000000#32)).setReg (R.SCH_SLOTs_CTRL ((6 : Fin 8)).val 0) 0x80000000#32).setReg (R.SCH_SLOTs_STATE ((6 : Fin 8)).val 0) 0xE0000000#32; base.setCoreRec ((6 : Fin 8)).val { base.coreRec ((6 : Fin 8)).val with banks := some 0 :: List.replicate 15 none })),
    by constructor <;> decide +kernel,
    by decide +kernel⟩

theorem witness_SystemInstructions_10 : ∃ (n : Fin 8) (p : Bool) (rg : Fin 32) (cls : Fin 4) (num : Fin 64) (v : Word) (s : State),
    s.Issues n.val ∧ (s.core n.val).sup = true ∧ s.windowMoves n.val = false ∧ bankIllegal cls.val num.val false (s.bankWindow n.val == s.runSlot n.val) = false ∧ s.FpFilled n.val ∧ v = (match cls.val with | 0 => (if (s.bankWindow n.val == s.runSlot n.val) = true then (s.now n.val) else s.slotCtx n.val (s.bankWindow n.val)).gr num.val | 1 => (if (s.bankWindow n.val == s.runSlot n.val) = true then (s.now n.val) else s.slotCtx n.val (s.bankWindow n.val)).fr num.val | 2 => (if (s.bankWindow n.val == s.runSlot n.val) = true then (s.now n.val) else s.slotCtx n.val (s.bankWindow n.val)).crv num.val | _ => if (s.bankWindow n.val == s.runSlot n.val) = true then (s.now n.val).pc + 4#32 else (if (s.bankWindow n.val == s.runSlot n.val) = true then (s.now n.val) else s.slotCtx n.val (s.bankWindow n.val)).pc) ∧ s.KeepsLimit n.val (.g rg.val) v :=
  ⟨(6 : Fin 8), (true : Bool), (31 : Fin 32), (0 : Fin 4), (3 : Fin 64), _, ((coreBase ((6 : Fin 8)).val (CoreCtx.reset.setCr 0 0x80000000#32)).setReg (R.SCH_SLOTs_CTRL ((6 : Fin 8)).val 0) 0x80000000#32),
    by constructor <;> decide +kernel, by decide +kernel, by decide +kernel, by decide +kernel, .inl (by decide +kernel), rfl, fun h => absurd h (by decide +kernel)⟩

theorem witness_SystemInstructions_11 : ∃ (n : Fin 8) (p : Bool) (rg : Fin 32) (cls : Fin 4) (num : Fin 64) (d : CReg) (s : State),
    s.Issues n.val ∧ (s.core n.val).sup = true ∧ s.windowMoves n.val = false ∧ bankIllegal cls.val num.val true (s.bankWindow n.val == s.runSlot n.val) = false ∧ s.FpFilled n.val ∧ s.Stays n.val ∧ (s.bankWindow n.val == s.runSlot n.val) = true ∧ cls.val < 2 ∧ d = (if cls.val = 0 then .g num.val else .f num.val) ∧ s.KeepsLimit n.val d ((s.now n.val).gr rg.val) :=
  ⟨(6 : Fin 8), (true : Bool), (31 : Fin 32), (0 : Fin 4), (3 : Fin 64), _, ((coreBase ((6 : Fin 8)).val (CoreCtx.reset.setCr 0 0x80000000#32)).setReg (R.SCH_SLOTs_CTRL ((6 : Fin 8)).val 0) 0x80000000#32),
    by constructor <;> decide +kernel, by decide +kernel, by decide +kernel, by decide +kernel, .inl (by decide +kernel), by constructor <;> decide +kernel, by decide +kernel, by decide +kernel, rfl, fun h => absurd h (by decide +kernel)⟩

theorem witness_SystemInstructions_12 : ∃ (n : Fin 8) (p : Bool) (rg : Fin 32) (cls : Fin 4) (num : Fin 64) (s : State),
    s.Issues n.val ∧ (s.core n.val).sup = true ∧ s.windowMoves n.val = false ∧ bankIllegal cls.val num.val true (s.bankWindow n.val == s.runSlot n.val) = false ∧ s.FpFilled n.val ∧ s.Stays n.val ∧ (s.bankWindow n.val == s.runSlot n.val) = true ∧ cls.val = 2 :=
  ⟨(6 : Fin 8), (true : Bool), (31 : Fin 32), (2 : Fin 4), (3 : Fin 64), ((coreBase ((6 : Fin 8)).val (CoreCtx.reset.setCr 0 0x80000000#32)).setReg (R.SCH_SLOTs_CTRL ((6 : Fin 8)).val 0) 0x80000000#32),
    by constructor <;> decide +kernel, by decide +kernel, by decide +kernel, by decide +kernel, .inl (by decide +kernel), by constructor <;> decide +kernel,
    by decide +kernel⟩

theorem witness_SystemInstructions_13 : ∃ (n : Fin 8) (p : Bool) (rg : Fin 32) (cls : Fin 4) (num : Fin 64) (s : State),
    s.Issues n.val ∧ (s.core n.val).sup = true ∧ s.windowMoves n.val = false ∧ bankIllegal cls.val num.val true (s.bankWindow n.val == s.runSlot n.val) = false ∧ s.FpFilled n.val ∧ s.Stays n.val ∧ (s.bankWindow n.val == s.runSlot n.val) = false :=
  ⟨(6 : Fin 8), (true : Bool), (31 : Fin 32), (0 : Fin 4), (3 : Fin 64), ((coreBase ((6 : Fin 8)).val ((CoreCtx.reset.setCr 0 0x80000000#32).setCr 0x23 5#32)).setReg (R.SCH_SLOTs_CTRL ((6 : Fin 8)).val 0) 0x80000000#32),
    by constructor <;> decide +kernel, by decide +kernel, by decide +kernel, by decide +kernel, .inl (by decide +kernel), by constructor <;> decide +kernel, by decide +kernel⟩

theorem witness_ExceptionEntry_0 : ∃ (n : Fin 8) (p : Bool) (imm : BitVec 8) (v : Word) (s : State),
    s.Issues n.val ∧ s.CanEnter n ((s.now n.val).betweenCycles) 7 v :=
  ⟨(6 : Fin 8), (true : Bool), (255#8 : BitVec 8), (0#32 : Word), ((coreBase ((6 : Fin 8)).val ({ CoreCtx.reset with g := [(30, 0x90000#32)] }.setCr 0x20 0x10000#32))),
    by constructor <;> decide +kernel, by constructor <;> decide +kernel⟩

theorem witness_ExceptionEntry_1 : ∃ (n : Fin 8) (a : Word) (k : Nat) (l : List (Word × Nat)) (v : Word) (s : State),
    s.coreReady n.val = true ∧ (s.coreRec n.val).pair = none ∧ (s.core n.val).blk = none ∧ (s.coreRec n.val).deferred = (a, k) :: l ∧ s.CanEnter n ((s.core n.val).betweenCycles) k v :=
  ⟨(6 : Fin 8), (4#32 : Word), (3 : Nat), ([] : List (Word × Nat)), (0#32 : Word), ((let base := (coreBase ((6 : Fin 8)).val ({ CoreCtx.reset with g := [(30, 0x90000#32)] }.setCr 0x20 0x10000#32)); base.setCoreRec ((6 : Fin 8)).val { base.coreRec ((6 : Fin 8)).val with deferred := [(4#32, 3)] })),
    by decide +kernel, by decide +kernel, by decide +kernel, by decide +kernel, by constructor <;> decide +kernel⟩

theorem witness_ExceptionEntry_2 : ∃ (n : Fin 8) (p : Bool) (v : Word) (s : State),
    s.Issues n.val ∧ (s.core n.val).sup = false ∧ s.CanEnter n ((s.core n.val).betweenCycles) 4 v :=
  ⟨(6 : Fin 8), (true : Bool), (0#32 : Word), ((coreBase ((6 : Fin 8)).val ({ CoreCtx.reset with g := [(30, 0x90000#32)] }.setCr 0x20 0x10000#32))),
    by constructor <;> decide +kernel, by decide +kernel, by constructor <;> decide +kernel⟩

theorem witness_ExceptionEntry_3 : ∃ (n : Fin 8) (p : Bool) (rd : Fin 32) (ra : Fin 32) (am : Fin 4) (size : Fin 4) (sign : Bool) (f : BitVec 11) (v : Word) (s : State),
    s.Issues n.val ∧ memIllegal true false rd.val ra.val am.val size.val sign = true ∧ s.CanEnter n ((s.core n.val).betweenCycles) 1 v :=
  ⟨(6 : Fin 8), (true : Bool), (31 : Fin 32), (31 : Fin 32), (3 : Fin 4), (3 : Fin 4), (true : Bool), (2047#11 : BitVec 11), (0#32 : Word), ((coreBase ((6 : Fin 8)).val ({ CoreCtx.reset with g := [(30, 0x90000#32)] }.setCr 0x20 0x10000#32))),
    by constructor <;> decide +kernel, by decide +kernel, by constructor <;> decide +kernel⟩

theorem witness_ExceptionEntry_4 : ∃ (n : Fin 8) (p : Bool) (rd : Fin 32) (ra : Fin 32) (am : Fin 4) (size : Fin 4) (sign : Bool) (f : BitVec 11) (v : Word) (s : State),
    s.Issues n.val ∧ memIllegal true false rd.val ra.val am.val size.val sign = false ∧ ((s.now n.val).address ra.val am.val size.val f).1.toNat % mSize size.val ≠ 0 ∧ s.CanEnter n ((s.core n.val).betweenCycles) 2 v :=
  ⟨(6 : Fin 8), (true : Bool), (31 : Fin 32), (1 : Fin 32), (0 : Fin 4), (2 : Fin 4), (true : Bool), (0#11 : BitVec 11), (0#32 : Word), ((coreBase ((6 : Fin 8)).val ({ CoreCtx.reset with g := [(1, 3#32), (30, 0x90000#32)] }.setCr 0x20 0x10000#32))),
    by constructor <;> decide +kernel, by decide +kernel, by decide +kernel, by constructor <;> decide +kernel⟩

theorem witness_ExceptionEntry_5 : ∃ (n : Fin 8) (p : Bool) (ra : Fin 32) (v : Word) (s : State),
    s.Issues n.val ∧ ((s.now n.val).gr ra.val).toNat % 4 ≠ 0 ∧ s.CanEnter n ((s.core n.val).betweenCycles) 2 v :=
  ⟨(6 : Fin 8), (true : Bool), (1 : Fin 32), (0#32 : Word), ((coreBase ((6 : Fin 8)).val ({ CoreCtx.reset with g := [(1, 3#32), (30, 0x90000#32)] }.setCr 0x20 0x10000#32))),
    by constructor <;> decide +kernel, by decide +kernel, by constructor <;> decide +kernel⟩

theorem witness_ExceptionEntry_6 : ∃ (n : Fin 8) (p : Bool) (imm : BitVec 8) (s : State),
    s.Issues n.val ∧ ((s.now n.val).betweenCycles).violates (((s.now n.val).betweenCycles).gr 30 - 272#32) = true :=
  ⟨(6 : Fin 8), (true : Bool), (255#8 : BitVec 8), (coreBase ((6 : Fin 8)).val (CoreCtx.reset.setCr 6 0xFFFFFFF8#32)),
    by constructor <;> decide +kernel, by decide +kernel⟩

theorem witness_SchedulerCommands_0 : ∃ (n : Fin 8) (slot : Fin 256) (s : State),
    s.upperLocked n.val = true :=
  ⟨(7 : Fin 8), (3 : Fin 256), (base),
    by decide +kernel⟩
theorem witness_SchedulerCommands_1 : ∃ (n : Fin 8) (slot : Fin 256) (s : State),
    s.upperLocked n.val = false ∧ s.coreRun n.val ≠ 1 ∧ s.coreRun n.val ≠ 2 ∧ s.slotEn n.val slot.val = true ∧ s.slotPend n.val slot.val = false :=
  ⟨(6 : Fin 8), (3 : Fin 256), ((((((((base.setReg (R.CC_CTRL (((6 : Fin 8)).val / 2 * 2)) 0#32).setReg (R.SCH_SLOTs_CTRL ((6 : Fin 8)).val 0) 0x80000001#32).setReg (R.SCH_SLOTs_CTRL ((6 : Fin 8)).val 3) 0x80000002#32).setReg (R.SCH_SLOTs_STATE ((6 : Fin 8)).val 0) 0xC0000000#32).setReg (R.SCH_SLOTs_STATE ((6 : Fin 8)).val 3) 0x40000000#32).setReg (R.SCH_CTRL ((6 : Fin 8)).val) 0x80000000#32).setCoreRec ((6 : Fin 8)).val { CoreRec.reset with banks := some 0 :: some 3 :: List.replicate 14 none }).setCoreRun ((6 : Fin 8)).val 0),
    by decide +kernel⟩
theorem witness_SchedulerCommands_2 : ∃ (n : Fin 8) (slot : Fin 256) (s : State),
    s.upperLocked n.val = false ∧ s.coreRun n.val ≠ 1 ∧ s.coreRun n.val ≠ 2 ∧ s.slotEn n.val slot.val = true ∧ s.slotPend n.val slot.val = true :=
  ⟨(6 : Fin 8), (3 : Fin 256), ((((((((base.setReg (R.CC_CTRL (((6 : Fin 8)).val / 2 * 2)) 0#32).setReg (R.SCH_SLOTs_CTRL ((6 : Fin 8)).val 0) 0x80000001#32).setReg (R.SCH_SLOTs_CTRL ((6 : Fin 8)).val 3) 0x80000002#32).setReg (R.SCH_SLOTs_STATE ((6 : Fin 8)).val 0) 0xC0000000#32).setReg (R.SCH_SLOTs_STATE ((6 : Fin 8)).val 3) 0x60000000#32).setReg (R.SCH_CTRL ((6 : Fin 8)).val) 0x80000000#32).setCoreRec ((6 : Fin 8)).val { CoreRec.reset with banks := some 0 :: some 3 :: List.replicate 14 none }).setCoreRun ((6 : Fin 8)).val 0),
    by decide +kernel⟩
theorem witness_SchedulerCommands_3 : ∃ (n : Fin 8) (slot : Fin 256) (s : State),
    s.upperLocked n.val = false ∧ s.coreRun n.val ≠ 1 ∧ s.coreRun n.val ≠ 2 ∧ s.slotEn n.val slot.val = false :=
  ⟨(6 : Fin 8), (3 : Fin 256), (base.setReg (R.CC_CTRL (((6 : Fin 8)).val / 2 * 2)) 0#32),
    by decide +kernel⟩
theorem witness_SchedulerCommands_4 : ∃ (n : Fin 8) (slot : Fin 256) (s : State),
    s.upperLocked n.val = false ∧ s.coreRun n.val = 2 ∧ (s.core n.val).lockout = false ∧ s.slotEn n.val slot.val = true ∧ s.slotSt n.val slot.val = 1 ∧ s.schedulable n.val slot.val = true ∧ s.resident n.val slot.val = true ∧ (∀ j : Fin 256, j ≠ slot → s.slotReady n.val j.val = false) :=
  ⟨(6 : Fin 8), (3 : Fin 256), ((((((((base.setReg (R.CC_CTRL (((6 : Fin 8)).val / 2 * 2)) 0#32).setReg (R.SCH_SLOTs_CTRL ((6 : Fin 8)).val 0) 0x80000001#32).setReg (R.SCH_SLOTs_CTRL ((6 : Fin 8)).val 3) 0x80000002#32).setReg (R.SCH_SLOTs_STATE ((6 : Fin 8)).val 0) 0x40000000#32).setReg (R.SCH_SLOTs_STATE ((6 : Fin 8)).val 3) 0x40000000#32).setReg (R.SCH_CTRL ((6 : Fin 8)).val) 0x80000000#32).setCoreRec ((6 : Fin 8)).val { CoreRec.reset with banks := some 0 :: some 3 :: List.replicate 14 none }).setCoreRun ((6 : Fin 8)).val 2),
    by decide +kernel⟩
theorem witness_SchedulerCommands_5 : ∃ (n : Fin 8) (slot : Fin 256) (s : State),
    s.upperLocked n.val = false ∧ s.coreRun n.val = 1 ∧ (s.core n.val).lockout = false ∧ s.slotEn n.val (s.runSlot n.val) = true ∧ s.slotEn n.val slot.val = true ∧ s.slotSt n.val slot.val = 1 ∧ s.schedulable n.val slot.val = true ∧ s.resident n.val slot.val = true ∧ s.slotPrio n.val (s.runSlot n.val) < s.slotPrio n.val slot.val ∧ (∀ j : Fin 256, j ≠ slot → s.slotReady n.val j.val = false) :=
  ⟨(6 : Fin 8), (3 : Fin 256), ((((((((base.setReg (R.CC_CTRL (((6 : Fin 8)).val / 2 * 2)) 0#32).setReg (R.SCH_SLOTs_CTRL ((6 : Fin 8)).val 0) 0x80000001#32).setReg (R.SCH_SLOTs_CTRL ((6 : Fin 8)).val 3) 0x80000002#32).setReg (R.SCH_SLOTs_STATE ((6 : Fin 8)).val 0) 0xC0000000#32).setReg (R.SCH_SLOTs_STATE ((6 : Fin 8)).val 3) 0x40000000#32).setReg (R.SCH_CTRL ((6 : Fin 8)).val) 0x80000000#32).setCoreRec ((6 : Fin 8)).val { CoreRec.reset with banks := some 0 :: some 3 :: List.replicate 14 none }).setCoreRun ((6 : Fin 8)).val 1),
    by decide +kernel⟩
theorem witness_SchedulerCommands_6 : ∃ (n : Fin 8) (slot : Fin 256) (s : State),
    s.upperLocked n.val = false ∧ s.coreRun n.val = 1 ∧ s.slotEn n.val (s.runSlot n.val) = true ∧ s.slotEn n.val slot.val = true ∧ s.slotPend n.val slot.val = false ∧ s.slotPrio n.val slot.val ≤ s.slotPrio n.val (s.runSlot n.val) ∧ s.preempts n.val = none :=
  ⟨(6 : Fin 8), (3 : Fin 256), ((((((((base.setReg (R.CC_CTRL (((6 : Fin 8)).val / 2 * 2)) 0#32).setReg (R.SCH_SLOTs_CTRL ((6 : Fin 8)).val 0) 0x80000002#32).setReg (R.SCH_SLOTs_CTRL ((6 : Fin 8)).val 3) 0x80000002#32).setReg (R.SCH_SLOTs_STATE ((6 : Fin 8)).val 0) 0xC0000000#32).setReg (R.SCH_SLOTs_STATE ((6 : Fin 8)).val 3) 0x40000000#32).setReg (R.SCH_CTRL ((6 : Fin 8)).val) 0x80000000#32).setCoreRec ((6 : Fin 8)).val { CoreRec.reset with banks := some 0 :: some 3 :: List.replicate 14 none }).setCoreRun ((6 : Fin 8)).val 1),
    by decide +kernel⟩
theorem witness_SchedulerCommands_7 : ∃ (n : Fin 8) (slot : Fin 256) (s : State),
    s.upperLocked n.val = false ∧ s.coreRun n.val = 1 ∧ (s.core n.val).lockout = false ∧ s.preempts n.val = some slot.val ∧ s.resident n.val slot.val = true ∧ (s.coreRec n.val).pair = none :=
  ⟨(6 : Fin 8), (3 : Fin 256), ((((((((base.setReg (R.CC_CTRL (((6 : Fin 8)).val / 2 * 2)) 0#32).setReg (R.SCH_SLOTs_CTRL ((6 : Fin 8)).val 0) 0x80000001#32).setReg (R.SCH_SLOTs_CTRL ((6 : Fin 8)).val 3) 0x80000002#32).setReg (R.SCH_SLOTs_STATE ((6 : Fin 8)).val 0) 0xC0000000#32).setReg (R.SCH_SLOTs_STATE ((6 : Fin 8)).val 3) 0x60000000#32).setReg (R.SCH_CTRL ((6 : Fin 8)).val) 0x80000000#32).setCoreRec ((6 : Fin 8)).val { CoreRec.reset with banks := some 0 :: some 3 :: List.replicate 14 none }).setCoreRun ((6 : Fin 8)).val 1),
    by decide +kernel⟩
theorem witness_SchedulerCommands_8 : ∃ (n : Fin 8) (s : State),
    (s.coreRun n.val ≠ 1 ∨ (s.core n.val).lockout = true ∨ s.preempts n.val = none) :=
  ⟨(6 : Fin 8), (base),
    by decide +kernel⟩
theorem witness_SchedulerCommands_9 : ∃ (n : Fin 8) (slot : Fin 256) (k : Nat) (s : State),
    (s.coreRec n.val).engine = some (false, slot.val, k) ∧ s.slotEn n.val (s.runSlot n.val) = true :=
  ⟨(6 : Fin 8), (3 : Fin 256), (1 : Nat), ((((((((base.setReg (R.CC_CTRL (((6 : Fin 8)).val / 2 * 2)) 0#32).setReg (R.SCH_SLOTs_CTRL ((6 : Fin 8)).val 0) 0x80000001#32).setReg (R.SCH_SLOTs_CTRL ((6 : Fin 8)).val 3) 0x80000002#32).setReg (R.SCH_SLOTs_STATE ((6 : Fin 8)).val 0) 0xC0000000#32).setReg (R.SCH_SLOTs_STATE ((6 : Fin 8)).val 3) 0x40000000#32).setReg (R.SCH_CTRL ((6 : Fin 8)).val) 0x80000000#32).setCoreRec ((6 : Fin 8)).val { CoreRec.reset with engine := some (false, 3, 1), banks := some 0 :: some 3 :: List.replicate 14 none }).setCoreRun ((6 : Fin 8)).val 0),
    by decide +kernel⟩
theorem witness_SchedulerCommands_10 : ∃ (n : Fin 8) (slot : Fin 256) (k : Nat) (s : State),
    ((s.coreRec n.val).engine = none ∨ (s.coreRec n.val).engine = some (true, slot.val, k)) :=
  ⟨(6 : Fin 8), (3 : Fin 256), (1 : Nat), (base),
    by decide +kernel⟩
theorem witness_SchedulerCommands_11 : ∃ (n : Fin 8) (slot : Fin 256) (k : Nat) (s : State),
    (s.coreRec n.val).engine = some (true, slot.val, k) ∧ s.slotEn n.val (s.runSlot n.val) = true ∧ (s.coreRec n.val).banks.any (fun b => b.isNone) = true :=
  ⟨(6 : Fin 8), (3 : Fin 256), (1 : Nat), ((((((((base.setReg (R.CC_CTRL (((6 : Fin 8)).val / 2 * 2)) 0#32).setReg (R.SCH_SLOTs_CTRL ((6 : Fin 8)).val 0) 0x80000001#32).setReg (R.SCH_SLOTs_CTRL ((6 : Fin 8)).val 3) 0x80000002#32).setReg (R.SCH_SLOTs_STATE ((6 : Fin 8)).val 0) 0xC0000000#32).setReg (R.SCH_SLOTs_STATE ((6 : Fin 8)).val 3) 0x40000000#32).setReg (R.SCH_CTRL ((6 : Fin 8)).val) 0x80000000#32).setCoreRec ((6 : Fin 8)).val { CoreRec.reset with engine := some (true, 3, 1), banks := some 0 :: List.replicate 15 none }).setCoreRun ((6 : Fin 8)).val 0),
    by decide +kernel⟩
theorem witness_SchedulerCommands_12 : ∃ (n : Fin 8) (slot : Fin 256) (k : Nat) (s : State),
    (s.coreRec n.val).engine = some (true, slot.val, k) :=
  ⟨(6 : Fin 8), (3 : Fin 256), (1 : Nat), ((((((((base.setReg (R.CC_CTRL (((6 : Fin 8)).val / 2 * 2)) 0#32).setReg (R.SCH_SLOTs_CTRL ((6 : Fin 8)).val 0) 0x80000001#32).setReg (R.SCH_SLOTs_CTRL ((6 : Fin 8)).val 3) 0x80000002#32).setReg (R.SCH_SLOTs_STATE ((6 : Fin 8)).val 0) 0xC0000000#32).setReg (R.SCH_SLOTs_STATE ((6 : Fin 8)).val 3) 0x40000000#32).setReg (R.SCH_CTRL ((6 : Fin 8)).val) 0x80000000#32).setCoreRec ((6 : Fin 8)).val { CoreRec.reset with engine := some (true, 3, 1), banks := some 0 :: List.replicate 15 none }).setCoreRun ((6 : Fin 8)).val 0),
    by decide +kernel⟩
theorem witness_SchedulerCommands_13 : ∃ (n : Fin 8) (slot : Fin 256) (k : Nat) (bad : Bool) (s : State),
    ((s.coreRec n.val).engine = none ∨ (s.coreRec n.val).engine = some (false, slot.val, k)) :=
  ⟨(6 : Fin 8), (3 : Fin 256), (1 : Nat), (true : Bool), (base),
    by decide +kernel⟩
theorem witness_SchedulerCommands_14 : ∃ (m : Master) (n : Fin 8) (slot : Fin 256) (v : Word) (s : State) (r : RegRow),
    s.Writes m (.sch n.val) r (R.SCH_SLOTs_CTRL n.val slot.val) ∧ bit v 31 = true ∧ s.slotEn n.val slot.val = false ∧ s.slotSt n.val slot.val ≠ 3 ∧ (bit v 28 = false ∨ s.slotPinned n.val slot.val = true) :=
  ⟨(.mp : Master), (6 : Fin 8), (3 : Fin 256), (0x80000005#32 : Word), ((((((((base.setReg (R.CC_CTRL (((6 : Fin 8)).val / 2 * 2)) 0#32).setReg (R.SCH_SLOTs_CTRL ((6 : Fin 8)).val 0) 0x80000000#32).setReg (R.SCH_SLOTs_CTRL ((6 : Fin 8)).val 3) 0#32).setReg (R.SCH_SLOTs_STATE ((6 : Fin 8)).val 0) 0xC0000000#32).setReg (R.SCH_SLOTs_STATE ((6 : Fin 8)).val 3) 0x40000000#32).setReg (R.SCH_CTRL ((6 : Fin 8)).val) 0x80000000#32).setCoreRec ((6 : Fin 8)).val { CoreRec.reset with banks := some 0 :: some 3 :: List.replicate 14 none }).setCoreRun ((6 : Fin 8)).val 0), rowOf (R.SCH_SLOTs_CTRL ((6 : Fin 8)).val ((3 : Fin 256)).val),
    by constructor <;> decide +kernel, by decide +kernel⟩
theorem witness_SchedulerCommands_15 : ∃ (m : Master) (n : Fin 8) (slot : Fin 256) (v : Word) (s : State) (r : RegRow),
    s.Writes m (.sch n.val) r (R.SCH_SLOTs_CTRL n.val slot.val) ∧ bit v 31 = false ∧ s.slotEn n.val slot.val = true ∧ s.slotSt n.val slot.val ≠ 3 ∧ s.runSlot n.val ≠ slot.val ∧ (bit v 28 = false ∨ s.slotPinned n.val slot.val = true) :=
  ⟨(.mp : Master), (6 : Fin 8), (3 : Fin 256), (5#32 : Word), ((((((((base.setReg (R.CC_CTRL (((6 : Fin 8)).val / 2 * 2)) 0#32).setReg (R.SCH_SLOTs_CTRL ((6 : Fin 8)).val 0) 0x80000001#32).setReg (R.SCH_SLOTs_CTRL ((6 : Fin 8)).val 3) 0x80000002#32).setReg (R.SCH_SLOTs_STATE ((6 : Fin 8)).val 0) 0xC0000000#32).setReg (R.SCH_SLOTs_STATE ((6 : Fin 8)).val 3) 0x40000000#32).setReg (R.SCH_CTRL ((6 : Fin 8)).val) 0x80000000#32).setCoreRec ((6 : Fin 8)).val { CoreRec.reset with banks := some 0 :: some 3 :: List.replicate 14 none }).setCoreRun ((6 : Fin 8)).val 0), rowOf (R.SCH_SLOTs_CTRL ((6 : Fin 8)).val ((3 : Fin 256)).val),
    by constructor <;> decide +kernel,
    by decide +kernel⟩
theorem witness_SchedulerCommands_16 : ∃ (m : Master) (n : Fin 8) (slot : Fin 256) (v : Word) (s : State) (r : RegRow),
    s.Writes m (.sch n.val) r (R.SCH_SLOTs_CTRL n.val slot.val) ∧ bit v 31 = false ∧ s.slotEn n.val slot.val = true ∧ s.slotSt n.val slot.val = 3 ∧ s.runSlot n.val = slot.val ∧ s.coreRun n.val = 1 ∧ (s.core n.val).lockout = false ∧ (s.coreRec n.val).pair = none ∧ (∀ j : Fin 256, j ≠ slot → s.slotReady n.val j.val = false) :=
  ⟨(.mp : Master), (6 : Fin 8), (0 : Fin 256), (5#32 : Word), ((((((((base.setReg (R.CC_CTRL (((6 : Fin 8)).val / 2 * 2)) 0#32).setReg (R.SCH_SLOTs_CTRL ((6 : Fin 8)).val 0) 0x80000000#32).setReg (R.SCH_SLOTs_CTRL ((6 : Fin 8)).val 3) 0#32).setReg (R.SCH_SLOTs_STATE ((6 : Fin 8)).val 0) 0xC0000000#32).setReg (R.SCH_SLOTs_STATE ((6 : Fin 8)).val 3) 0x40000000#32).setReg (R.SCH_CTRL ((6 : Fin 8)).val) 0x80000000#32).setCoreRec ((6 : Fin 8)).val { CoreRec.reset with banks := some 0 :: some 3 :: List.replicate 14 none }).setCoreRun ((6 : Fin 8)).val 1), rowOf (R.SCH_SLOTs_CTRL ((6 : Fin 8)).val ((0 : Fin 256)).val),
    by constructor <;> decide +kernel,
    by decide +kernel⟩
theorem witness_SchedulerCommands_17 : ∃ (m : Master) (n : Fin 8) (slot : Fin 256) (v : Word) (s : State) (r : RegRow),
    s.Writes m (.sch n.val) r (R.SCH_SLOTs_CTRL n.val slot.val) ∧ bit v 31 = true ∧ bit v 29 = false ∧ s.slotEn n.val slot.val = true ∧ s.slotPend n.val slot.val = false ∧ (bit v 28 = false ∨ s.slotPinned n.val slot.val = true) ∧ s.coreRun n.val ≠ 1 ∧ s.coreRun n.val ≠ 2 :=
  ⟨(.mp : Master), (6 : Fin 8), (3 : Fin 256), (0xC0000005#32 : Word), ((((((((base.setReg (R.CC_CTRL (((6 : Fin 8)).val / 2 * 2)) 0#32).setReg (R.SCH_SLOTs_CTRL ((6 : Fin 8)).val 0) 0x80000001#32).setReg (R.SCH_SLOTs_CTRL ((6 : Fin 8)).val 3) 0x80000002#32).setReg (R.SCH_SLOTs_STATE ((6 : Fin 8)).val 0) 0xC0000000#32).setReg (R.SCH_SLOTs_STATE ((6 : Fin 8)).val 3) 0x40000000#32).setReg (R.SCH_CTRL ((6 : Fin 8)).val) 0x80000000#32).setCoreRec ((6 : Fin 8)).val { CoreRec.reset with banks := some 0 :: some 3 :: List.replicate 14 none }).setCoreRun ((6 : Fin 8)).val 0), rowOf (R.SCH_SLOTs_CTRL ((6 : Fin 8)).val ((3 : Fin 256)).val),
    by constructor <;> decide +kernel,
    by decide +kernel⟩
theorem witness_SchedulerCommands_18 : ∃ (m : Master) (n : Fin 8) (slot : Fin 256) (v : Word) (s : State) (r : RegRow),
    s.Writes m (.sch n.val) r (R.SCH_SLOTs_CTRL n.val slot.val) ∧ bit v 31 = true ∧ bit v 29 = false ∧ s.slotEn n.val slot.val = true ∧ s.slotPend n.val slot.val = true ∧ (bit v 28 = false ∨ s.slotPinned n.val slot.val = true) ∧ s.coreRun n.val ≠ 1 ∧ s.coreRun n.val ≠ 2 :=
  ⟨(.mp : Master), (6 : Fin 8), (3 : Fin 256), (0xC0000005#32 : Word), ((((((((base.setReg (R.CC_CTRL (((6 : Fin 8)).val / 2 * 2)) 0#32).setReg (R.SCH_SLOTs_CTRL ((6 : Fin 8)).val 0) 0x80000001#32).setReg (R.SCH_SLOTs_CTRL ((6 : Fin 8)).val 3) 0x80000002#32).setReg (R.SCH_SLOTs_STATE ((6 : Fin 8)).val 0) 0xC0000000#32).setReg (R.SCH_SLOTs_STATE ((6 : Fin 8)).val 3) 0x60000000#32).setReg (R.SCH_CTRL ((6 : Fin 8)).val) 0x80000000#32).setCoreRec ((6 : Fin 8)).val { CoreRec.reset with banks := some 0 :: some 3 :: List.replicate 14 none }).setCoreRun ((6 : Fin 8)).val 0), rowOf (R.SCH_SLOTs_CTRL ((6 : Fin 8)).val ((3 : Fin 256)).val),
    by constructor <;> decide +kernel,
    by decide +kernel⟩
theorem witness_SchedulerCommands_19 : ∃ (m : Master) (n : Fin 8) (slot : Fin 256) (v : Word) (s : State) (r : RegRow),
    s.Writes m (.sch n.val) r (R.SCH_SLOTs_CTRL n.val slot.val) ∧ s.slotEn n.val slot.val = false ∧ (s.runSlot n.val ≠ slot.val ∨ s.coreRun n.val ≠ 1) :=
  ⟨(.mp : Master), (6 : Fin 8), (3 : Fin 256), (0x20000000#32 : Word), ((((((((base.setReg (R.CC_CTRL (((6 : Fin 8)).val / 2 * 2)) 0#32).setReg (R.SCH_SLOTs_CTRL ((6 : Fin 8)).val 0) 0x80000000#32).setReg (R.SCH_SLOTs_CTRL ((6 : Fin 8)).val 3) 0#32).setReg (R.SCH_SLOTs_STATE ((6 : Fin 8)).val 0) 0xC0000000#32).setReg (R.SCH_SLOTs_STATE ((6 : Fin 8)).val 3) 0x40000000#32).setReg (R.SCH_CTRL ((6 : Fin 8)).val) 0x80000000#32).setCoreRec ((6 : Fin 8)).val { CoreRec.reset with banks := some 0 :: some 3 :: List.replicate 14 none }).setCoreRun ((6 : Fin 8)).val 0), rowOf (R.SCH_SLOTs_CTRL ((6 : Fin 8)).val ((3 : Fin 256)).val),
    by constructor <;> decide +kernel,
    by decide +kernel⟩
theorem witness_SchedulerCommands_20 : ∃ (m : Master) (n : Fin 8) (slot : Fin 256) (v : Word) (s : State) (r : RegRow),
    s.Writes m (.sch n.val) r (R.SCH_SLOTs_CTRL n.val slot.val) ∧ s.slotEn n.val slot.val = true ∧ bit v 31 = true ∧ s.slotEn n.val (s.runSlot n.val) = true :=
  ⟨(.mp : Master), (6 : Fin 8), (3 : Fin 256), (0xA0000000#32 : Word), ((((((((base.setReg (R.CC_CTRL (((6 : Fin 8)).val / 2 * 2)) 0#32).setReg (R.SCH_SLOTs_CTRL ((6 : Fin 8)).val 0) 0x80000001#32).setReg (R.SCH_SLOTs_CTRL ((6 : Fin 8)).val 3) 0x80000002#32).setReg (R.SCH_SLOTs_STATE ((6 : Fin 8)).val 0) 0xC0000000#32).setReg (R.SCH_SLOTs_STATE ((6 : Fin 8)).val 3) 0x40000000#32).setReg (R.SCH_CTRL ((6 : Fin 8)).val) 0x80000000#32).setCoreRec ((6 : Fin 8)).val { CoreRec.reset with banks := some 0 :: some 3 :: List.replicate 14 none }).setCoreRun ((6 : Fin 8)).val 0), rowOf (R.SCH_SLOTs_CTRL ((6 : Fin 8)).val ((3 : Fin 256)).val),
    by constructor <;> decide +kernel,
    by decide +kernel⟩
theorem witness_SchedulerCommands_21 : ∃ (m : Master) (n : Fin 8) (slot : Fin 256) (v : Word) (s : State) (r : RegRow),
    s.Writes m (.sch n.val) r (R.SCH_SLOTs_CTRL n.val slot.val) ∧ ((List.range 256).filter (fun j => j != slot.val && s.slotPinned n.val j)).length < 14 :=
  ⟨(.mp : Master), (6 : Fin 8), (3 : Fin 256), (0x90000000#32 : Word), ((((((((base.setReg (R.CC_CTRL (((6 : Fin 8)).val / 2 * 2)) 0#32).setReg (R.SCH_SLOTs_CTRL ((6 : Fin 8)).val 0) 0x80000001#32).setReg (R.SCH_SLOTs_CTRL ((6 : Fin 8)).val 3) 0x80000002#32).setReg (R.SCH_SLOTs_STATE ((6 : Fin 8)).val 0) 0xC0000000#32).setReg (R.SCH_SLOTs_STATE ((6 : Fin 8)).val 3) 0x40000000#32).setReg (R.SCH_CTRL ((6 : Fin 8)).val) 0x80000000#32).setCoreRec ((6 : Fin 8)).val { CoreRec.reset with banks := some 0 :: some 3 :: List.replicate 14 none }).setCoreRun ((6 : Fin 8)).val 0), rowOf (R.SCH_SLOTs_CTRL ((6 : Fin 8)).val ((3 : Fin 256)).val),
    by constructor <;> decide +kernel, by decide +kernel⟩
theorem witness_SchedulerCommands_22 : ∃ (m : Master) (n : Fin 8) (slot : Fin 256) (v : Word) (s : State) (r : RegRow),
    s.Writes m (.sch n.val) r (R.SCH_SLOTs_CTRL n.val slot.val) ∧ 14 ≤ ((List.range 256).filter (fun j => j != slot.val && s.slotPinned n.val j)).length ∧ s.slotPinned n.val slot.val = false ∧ bit v 31 = s.slotEn n.val slot.val ∧ s.coreRun n.val ≠ 1 ∧ s.coreRun n.val ≠ 2 :=
  ⟨(.mp : Master), (6 : Fin 8), (3 : Fin 256), (0x10000000#32 : Word), (((List.range 14).foldl (fun u i => u.setReg (R.SCH_SLOTs_CTRL ((6 : Fin 8)).val (20 + i)) 0x10000000#32) base).setReg (R.CC_CTRL (((6 : Fin 8)).val / 2 * 2)) 0#32), rowOf (R.SCH_SLOTs_CTRL ((6 : Fin 8)).val ((3 : Fin 256)).val),
    by constructor <;> decide +kernel,
    by decide +kernel⟩
theorem witness_SchedulerCommands_23 : ∃ (m : Master) (n : Fin 8) (v : Word) (s : State) (r : RegRow),
    s.Writes m (.sch n.val) r (R.SCH_SPILL n.val) ∧ v.toNat % 512 = 0 ∧ 0x80000 ≤ v.toNat ∧ v.toNat ≤ 0xE0000 ∧ (∀ i : Fin 255, s.slotEn n.val (i.val + 1) = false) :=
  ⟨(.mp : Master), (6 : Fin 8), (0x80200#32 : Word), (base.setReg (R.CC_CTRL (((6 : Fin 8)).val / 2 * 2)) 0#32), rowOf (R.SCH_SPILL ((6 : Fin 8)).val),
    by constructor <;> decide +kernel,
    by decide +kernel⟩
theorem witness_SchedulerCommands_24 : ∃ (m : Master) (n : Fin 8) (v : Word) (s : State) (r : RegRow),
    s.Writes m (.sch n.val) r (R.SCH_SPILL n.val) ∧ (v.toNat % 512 ≠ 0 ∨ v.toNat < 0x80000 ∨ 0xE0000 < v.toNat ∨ (∃ i : Fin 255, s.slotEn n.val (i.val + 1) = true)) :=
  ⟨(.mp : Master), (6 : Fin 8), (0x80201#32 : Word), (base.setReg (R.CC_CTRL (((6 : Fin 8)).val / 2 * 2)) 0#32), rowOf (R.SCH_SPILL ((6 : Fin 8)).val),
    by constructor <;> decide +kernel, by decide +kernel⟩
theorem witness_CoreControlCommands_0 : ∃ (pair : Fin 4) (s : State),
    s.locked (2 * pair.val) = true ∧ (s.coreRun (2 * pair.val) = 1 ∨ s.coreRun (2 * pair.val) = 2) ∧ ((s.coreRec (2 * pair.val)).window.filter (fun b => (s.clk.beat - b).toNat < 250000000)).length < 16 :=
  ⟨(3 : Fin 4), (((base.setReg (R.CC_CTRL (2 * ((3 : Fin 4)).val)) 0x40000000#32).setCoreRun (2 * ((3 : Fin 4)).val) 1)),
    by decide +kernel⟩
theorem witness_CoreControlCommands_1 : ∃ (pair : Fin 4) (again : Bool) (s : State),
    s.locked (2 * pair.val) = true ∧ (s.coreRun (2 * pair.val) = 1 ∨ s.coreRun (2 * pair.val) = 2) ∧ (again = true ∨ 16 ≤ ((s.coreRec (2 * pair.val)).window.filter (fun b => (s.clk.beat - b).toNat < 250000000)).length) :=
  ⟨(3 : Fin 4), (true : Bool), (((base.setReg (R.CC_CTRL (2 * ((3 : Fin 4)).val)) 0x40000000#32).setCoreRun (2 * ((3 : Fin 4)).val) 1)),
    by decide +kernel⟩
theorem witness_CoreControlCommands_2 : ∃ (pair : Fin 4) (again : Bool) (s : State),
    (s.locked (2 * pair.val) = false ∨ (s.coreRun (2 * pair.val) ≠ 1 ∧ s.coreRun (2 * pair.val) ≠ 2)) :=
  ⟨(3 : Fin 4), (true : Bool), (base),
    by decide +kernel⟩
theorem witness_CoreControlCommands_3 : ∃ (m : Master) (n : Fin 8) (v : Word) (s : State) (r : RegRow),
    s.Writes m (.sch n.val) r (R.SCH_RELEASE n.val) ∧ s.coreRun n.val = 4 ∧ s.corePermanent n.val = false ∧ (s.coreRec n.val).pair = none ∧ (s.coreRec n.val).halted = false :=
  ⟨(.mp : Master), (6 : Fin 8), (0xFFFFFFFF#32 : Word), ((base.setReg (R.CC_CTRL (((6 : Fin 8)).val / 2 * 2)) 0#32).setCoreRun ((6 : Fin 8)).val 4), rowOf (R.SCH_RELEASE ((6 : Fin 8)).val),
    by constructor <;> decide +kernel, by decide +kernel⟩
theorem witness_CoreControlCommands_4 : ∃ (m : Master) (n : Fin 8) (v : Word) (s : State) (r : RegRow),
    s.Writes m (.sch n.val) r (R.SCH_RELEASE n.val) ∧ s.coreRun n.val = 4 ∧ s.corePermanent n.val = true :=
  ⟨(.mp : Master), (6 : Fin 8), (0xFFFFFFFF#32 : Word), (((base.setReg (R.CC_CTRL (((6 : Fin 8)).val / 2 * 2)) 0#32).setCoreRun ((6 : Fin 8)).val 4).setCoreRec ((6 : Fin 8)).val { CoreRec.reset with permanent := true }), rowOf (R.SCH_RELEASE ((6 : Fin 8)).val),
    by constructor <;> decide +kernel,
    by decide +kernel⟩
theorem witness_CoreControlCommands_5 : ∃ (m : Master) (n : Fin 8) (v : Word) (s : State) (r : RegRow),
    s.Writes m (.sch n.val) r (R.SCH_RELEASE n.val) ∧ s.coreRun n.val ≠ 4 :=
  ⟨(.mp : Master), (6 : Fin 8), (0xFFFFFFFF#32 : Word), (base.setReg (R.CC_CTRL (((6 : Fin 8)).val / 2 * 2)) 0#32), rowOf (R.SCH_RELEASE ((6 : Fin 8)).val),
    by constructor <;> decide +kernel, by decide +kernel⟩
theorem witness_CoreControlCommands_6 : ∃ (m : Master) (n : Fin 8) (v : Word) (s : State) (r : RegRow),
    s.Writes m (.cc n.val) r (R.CC_CTRL n.val) ∧ s.upperLocked n.val = false ∧ s.coreRun n.val ≠ 4 ∧ s.rb (R.CC_CTRL n.val) 31 = true ∧ bit v 31 = false ∧ s.slotEn n.val 0 = true :=
  ⟨(.mp : Master), (6 : Fin 8), (0#32 : Word), (((base.setReg (R.CC_CTRL (((6 : Fin 8)).val / 2 * 2)) 0x80000000#32).setReg (R.CC_CTRL ((6 : Fin 8)).val) 0x80000000#32).setReg (R.CC_BOOT ((6 : Fin 8)).val) 0x84#32), rowOf (R.CC_CTRL ((6 : Fin 8)).val),
    by constructor <;> decide +kernel,
    by decide +kernel⟩
theorem witness_CoreControlCommands_7 : ∃ (m : Master) (n : Fin 8) (v : Word) (s : State) (r : RegRow),
    s.Writes m (.cc n.val) r (R.CC_CTRL n.val) ∧ s.upperLocked n.val = false ∧ s.coreRun n.val ≠ 4 ∧ s.rb (R.CC_CTRL n.val) 31 = false ∧ bit v 31 = true :=
  ⟨(.mp : Master), (6 : Fin 8), (0xFFFFFFFF#32 : Word), ((base.setReg (R.CC_CTRL (((6 : Fin 8)).val / 2 * 2)) 0#32).setReg (R.CC_CTRL ((6 : Fin 8)).val) 0#32), rowOf (R.CC_CTRL ((6 : Fin 8)).val),
    by constructor <;> decide +kernel,
    by decide +kernel⟩
theorem witness_CoreControlCommands_8 : ∃ (m : Master) (n : Fin 8) (v : Word) (s : State) (r : RegRow),
    s.Writes m (.cc n.val) r (R.CC_CTRL n.val) ∧ (s.upperLocked n.val = true ∨ s.coreRun n.val = 4 ∨ bit v 31 = s.rb (R.CC_CTRL n.val) 31) :=
  ⟨(.mp : Master), (7 : Fin 8), (0xFFFFFFFF#32 : Word), (base), rowOf (R.CC_CTRL ((7 : Fin 8)).val),
    by constructor <;> decide +kernel, by decide +kernel⟩
theorem witness_CoreControlCommands_9 : ∃ (m : Master) (n : Fin 8) (v : Word) (s : State) (r : RegRow),
    s.Writes m (.cc (n.val / 2 * 2)) r (R.CC_CTRL (n.val / 2 * 2)) ∧ bit v 30 = true ∧ s.locked n.val = false ∧ s.coreRun (n.val / 2 * 2) = 0 ∧ (s.coreRun ((n.val / 2 * 2) + 1) = 0 ∨ s.locked n.val = true) :=
  ⟨(.mp : Master), (7 : Fin 8), (0xFFFFFFFF#32 : Word), ((base.setReg (R.CC_CTRL (((7 : Fin 8)).val / 2 * 2)) 0x80000000#32)), rowOf (R.CC_CTRL (((7 : Fin 8)).val / 2 * 2)),
    by constructor <;> decide +kernel,
    by decide +kernel⟩
theorem witness_CoreControlCommands_10 : ∃ (m : Master) (n : Fin 8) (v : Word) (s : State) (r : RegRow),
    s.Writes m (.cc (n.val / 2 * 2)) r (R.CC_CTRL (n.val / 2 * 2)) ∧ bit v 30 = false ∧ s.locked n.val = true ∧ s.coreRun (n.val / 2 * 2) = 0 ∧ (s.coreRun ((n.val / 2 * 2) + 1) = 0 ∨ s.locked n.val = true) :=
  ⟨(.mp : Master), (7 : Fin 8), (0#32 : Word), (base), rowOf (R.CC_CTRL (((7 : Fin 8)).val / 2 * 2)),
    by constructor <;> decide +kernel,
    by decide +kernel⟩
theorem witness_CoreControlCommands_11 : ∃ (m : Master) (n : Fin 8) (v : Word) (s : State) (r : RegRow),
    s.Writes m (.cc (n.val / 2 * 2)) r (R.CC_CTRL (n.val / 2 * 2)) ∧ bit v 30 ≠ s.locked n.val ∧ (s.coreRun (n.val / 2 * 2) ≠ 0 ∨ (s.coreRun ((n.val / 2 * 2) + 1) ≠ 0 ∧ s.locked n.val = false)) :=
  ⟨(.mp : Master), (7 : Fin 8), (0#32 : Word), (base.setCoreRun (((7 : Fin 8)).val / 2 * 2) 1), rowOf (R.CC_CTRL (((7 : Fin 8)).val / 2 * 2)),
    by constructor <;> decide +kernel,
    by decide +kernel⟩
theorem witness_CoreControlCommands_12 : ∃ (n : Fin 8) (s : State),
    s.mp.unlock ≠ 0 ∧ s.upperLocked n.val = false ∧ s.coreRun n.val = 1 ∧ (s.coreRec n.val).halted = false ∧ (s.coreRec n.val).pair = none :=
  ⟨(6 : Fin 8), ({ (base.setReg (R.CC_CTRL (((6 : Fin 8)).val / 2 * 2)) 0#32).setCoreRun ((6 : Fin 8)).val 1 with mp := { base.mp with unlock := 1 } }),
    by decide +kernel⟩
theorem witness_CoreControlCommands_13 : ∃ (n : Fin 8) (s : State),
    s.mp.unlock ≠ 0 ∧ s.upperLocked n.val = false ∧ s.coreRun n.val = 2 ∧ (s.coreRec n.val).halted = false :=
  ⟨(6 : Fin 8), ({ (base.setReg (R.CC_CTRL (((6 : Fin 8)).val / 2 * 2)) 0#32).setCoreRun ((6 : Fin 8)).val 2 with mp := { base.mp with unlock := 1 } }),
    by decide +kernel⟩
theorem witness_CoreControlCommands_14 : ∃ (n : Fin 8) (s : State),
    s.mp.unlock ≠ 0 ∧ (s.upperLocked n.val = true ∨ s.coreRun n.val = 0 ∨ (s.coreRec n.val).halted = true) :=
  ⟨(7 : Fin 8), ({ base with mp := { base.mp with unlock := 1 } }),
    by decide +kernel⟩
theorem witness_CoreControlCommands_15 : ∃ (s : State),
    s.mp.unlock ≠ 0 :=
  ⟨({ base with mp := { base.mp with unlock := 1 } }),
    by decide +kernel⟩
theorem witness_CoreControlCommands_16 : ∃ (n : Fin 8) (s : State),
    s.mp.unlock ≠ 0 ∧ s.coreRun n.val = 3 ∧ (s.coreRec n.val).haltedAll = false ∧ s.slotSt n.val (s.runSlot n.val) = 3 ∧ s.slotEn n.val (s.runSlot n.val) = true :=
  ⟨(6 : Fin 8), ({ (((((((base.setReg (R.CC_CTRL (((6 : Fin 8)).val / 2 * 2)) 0#32).setReg (R.SCH_SLOTs_CTRL ((6 : Fin 8)).val 0) 0x80000001#32).setReg (R.SCH_SLOTs_CTRL ((6 : Fin 8)).val 3) 0x80000002#32).setReg (R.SCH_SLOTs_STATE ((6 : Fin 8)).val 0) 0xC0000000#32).setReg (R.SCH_SLOTs_STATE ((6 : Fin 8)).val 3) 0x40000000#32).setReg (R.SCH_CTRL ((6 : Fin 8)).val) 0x80000000#32).setCoreRec ((6 : Fin 8)).val { CoreRec.reset with banks := some 0 :: some 3 :: List.replicate 14 none }).setCoreRun ((6 : Fin 8)).val 3 with mp := { base.mp with unlock := 1 } }),
    by decide +kernel⟩
theorem witness_CoreControlCommands_17 : ∃ (n : Fin 8) (s : State),
    s.mp.unlock ≠ 0 ∧ s.coreRun n.val = 3 ∧ (s.coreRec n.val).haltedAll = true :=
  ⟨(6 : Fin 8), ({ (base.setCoreRun ((6 : Fin 8)).val 3).setCoreRec ((6 : Fin 8)).val { CoreRec.reset with haltedAll := true } with mp := { base.mp with unlock := 1 } }),
    by decide +kernel⟩
theorem witness_CoreControlCommands_18 : ∃ (s : State),
    s.mp.unlock ≠ 0 :=
  ⟨({ base with mp := { base.mp with unlock := 1 } }),
    by decide +kernel⟩
theorem witness_CoreControlCommands_19 : ∃ (who : Fin 9) (s : State),
    s.mp.unlock = 0 :=
  ⟨(8 : Fin 9), (base),
    by decide +kernel⟩
theorem witness_CoreControlCommands_20 : ∃ (who : Fin 9) (s : State),
    s.mp.unlock = 0 :=
  ⟨(8 : Fin 9), (base),
    by decide +kernel⟩
/-- A device whose queue 3, of two cells, holds what `p` says was pushed. -/
def queueBase (p : List (BitVec 64)) : State :=
  { base.setReg (R.QM_Qq_CFG 3) 0x81000000#32 with queues := [(3, ⟨0, [5, 6], 1, p, 0, 0⟩)] }

/-- That queue behind port 1 of domain 0. -/
def portBase (p : List (BitVec 64)) : State := (queueBase p).setReg (R.QP_HANDLE 0 1) 3#32

theorem witness_QueueEntriesInOrder_0 : ∃ (s : State) (d : Nat) (h : Word) (ws : List Word),
    s.qRefusal d h true = none ∧ s.QueueSound (fld h 15 0) ∧ ws.length = 16
      ∧ s.qDepth (fld h 15 0) < s.qCapacity (fld h 15 0) :=
  ⟨queueBase [1#64], 0, 3#32, List.replicate 16 7#32, by decide +kernel,
    by constructor <;> decide +kernel,
    by decide +kernel⟩
theorem witness_QueueEntriesInOrder_1 : ∃ (m : Master) (d p : Fin 16) (q : Nat) (s : State) (r : RegRow),
    s.Reads m .qm r (R.QP_PUSH d.val p.val) ∧ q = s.portQueue d.val p.val
      ∧ s.qRefusal d.val (s.reg (R.QP_HANDLE d.val p.val)) true = none ∧ s.QueueSound q ∧ s.qDepth q < s.qCapacity q :=
  ⟨.mp, 0, 1, 3, portBase [1#64], rowOf (R.QP_PUSH 0 1),
    by constructor <;> decide +kernel, by decide +kernel, by decide +kernel,
    by constructor <;> decide +kernel, by decide +kernel⟩
theorem witness_QueueEntriesInOrder_2 : ∃ (m : Master) (d p : Fin 16) (q : Nat) (s : State) (r : RegRow),
    s.Reads m .qm r (R.QP_POP d.val p.val) ∧ q = s.portQueue d.val p.val ∧ s.qRefusal d.val (s.reg (R.QP_HANDLE d.val p.val)) false = none ∧ s.QueueSound q ∧ s.qDepth q ≠ 0 ∧ (∀ k : Fin 16, s.eccMark (cellAddr ((s.queue q).cellAt (s.queue q).head) + 4 * k.val) = .good) :=
  ⟨.mp, 0, 1, 3, portBase [1#64, 2#64], rowOf (R.QP_POP 0 1),
    by constructor <;> decide +kernel, by decide +kernel, by decide +kernel, by constructor <;> decide +kernel, by decide +kernel⟩
theorem witness_QueueEntriesInOrder_3 : ∃ (q : Fin 65536) (s : State),
    s.QueueSound q.val ∧ s.qEnabled q.val = true ∧ s.qCapacity q.val ≤ 4096 :=
  ⟨3, queueBase [1#64, 2#64], by constructor <;> decide +kernel,
    by decide +kernel⟩
/-- A device whose DMA channel 5 moves eight-byte elements, two in all, within system SRAM with SWAP `v`, in CTRL state
`st` with record `d`. -/
def dmaBase (v st : Nat) (d : DmaRec) : State :=
  { (((((base.setReg (R.DMA_CHc_CFG 5) (w32 (2 ^ 23 + v * 2 ^ 24))).setReg (R.DMA_CHc_SRC 5) 0x20000000#32).setReg
      (R.DMA_CHc_DST 5) 0x20FFFFF0#32).setReg (R.DMA_CHc_SRC_SHAPE 5) 1#32).setReg (R.DMA_CHc_DST_SHAPE 5) 1#32).setReg
      (R.DMA_CHc_CTRL 5) (w32 st) with dmas := [(5, d)] }

theorem witness_DmaElementSwap_0 : ∃ (s u : State) (c i : Nat) (l : List Word),
    s.dmaFetch c (s.dmaSrc c i) 0 (s.dmaSize c / 4) = (.ok l, u) ∧ l.length = s.dmaSize c / 4 :=
  ⟨dmaBase 3 1 ⟨1, none, false, false⟩, _, 5, 0, _,
    show _ = (Except.ok [0#32, 0#32], dmaBase 3 1 ⟨1, none, false, false⟩) by decide +kernel, by decide +kernel⟩
theorem witness_DmaElementSwap_1 : ∃ (c : Fin 64) (s : State) (i size src dst : Nat),
    i = s.dmaCount c.val ∧ size = s.dmaSize c.val ∧ src = s.dmaSrc c.val i ∧ dst = s.dmaDst c.val i ∧ s.dmaOn c.val = true ∧ i < (s.dma c.val).issued ∧ i + 1 < s.dmaTotal c.val ∧ src % 4 = 0 ∧ 0x20000000 ≤ src ∧ src + size ≤ 0x21000000 ∧ dst % 4 = 0 ∧ 0x20000000 ≤ dst ∧ dst + size ≤ 0x21000000 ∧ s.pathTo 0x20000000 = .good ∧ s.eccMark src = .good ∧ s.eccMark (src + size - 4) = .good :=
  ⟨5, dmaBase 2 1 ⟨1, none, false, false⟩, 0, 8, 0x20000000, 0x20FFFFF0,
    by decide +kernel⟩
theorem witness_DmaGoAndStop_0 : ∃ (m : Master) (c : Fin 64) (v : Word) (s : State) (r : RegRow),
    s.Writes m .dma r (R.DMA_CHc_CTRL c.val) ∧ s.dmaOn c.val = false :=
  ⟨.mp, 5, 1#32, dmaBase 0 3 ⟨0, none, false, false⟩, rowOf (R.DMA_CHc_CTRL 5),
    by constructor <;> decide +kernel, by decide +kernel⟩

theorem witness_DmaGoAndStop_1 : ∃ (m : Master) (c : Fin 64) (v : Word) (s : State) (r : RegRow),
    s.Writes m .dma r (R.DMA_CHc_CTRL c.val) ∧ s.dmaOn c.val = true :=
  ⟨.mp, 5, 1#32, dmaBase 0 2 ⟨0, none, false, false⟩, rowOf (R.DMA_CHc_CTRL 5),
    by constructor <;> decide +kernel, by decide +kernel⟩

theorem witness_DmaGoAndStop_2 : ∃ (m : Master) (c : Fin 64) (a v : Word) (s : State) (r : RegRow),
    a.toNat ∈ dmaDescRegs c.val ∧ s.Writes m .dma r a.toNat ∧ s.dmaOn c.val = true :=
  ⟨.mp, 5, w32 (R.DMA_CHc_SRC 5), 8#32, dmaBase 0 1 ⟨0, none, false, false⟩, rowOf (R.DMA_CHc_SRC 5), by decide +kernel,
    by constructor <;> decide +kernel, by decide +kernel⟩

theorem witness_DmaGoAndStop_3 : ∃ (m : Master) (c : Fin 64) (v : Word) (s : State) (r : RegRow),
    s.Writes m .dma r (R.DMA_CHc_CTRL c.val) ∧ s.dmaOn c.val = true ∧ s.dmaOut c.val ≠ 0 :=
  ⟨.mp, 5, 2#32, dmaBase 0 1 ⟨2, none, false, false⟩, rowOf (R.DMA_CHc_CTRL 5),
    by constructor <;> decide +kernel,
    by decide +kernel⟩

theorem witness_DmaGoAndStop_4 : ∃ (c : Fin 64) (s : State) (k : Nat), (s.dma c.val).stopping = true :=
  ⟨5, dmaBase 0 1 ⟨2, none, false, true⟩, 3, by decide +kernel⟩

theorem witness_DmaGoAndStop_5 : ∃ (c : Fin 64) (s u : State) (i : Nat),
    i = s.dmaCount c.val ∧ s.dmaOn c.val = true ∧ (s.dma c.val).stopping = true ∧ i < (s.dma c.val).issued
      ∧ (s.dma c.val).issued ≤ u.dmaTotal c.val ∧ s.flashHolds (s.dmaSrc c.val i) = false
      ∧ s.dmaMove c.val i = (none, u) ∧ u.dma c.val = s.dma c.val ∧ u.dmaState c.val = 1 :=
  ⟨5, dmaBase 0 1 ⟨2, none, false, true⟩, dmaBase 0 1 ⟨2, none, false, true⟩, 0, by decide +kernel⟩

/-- Mailbox 9 is served, its request queue holds one packet of one cell with the header words `hd`, and the requests `l`
are with Ottar. -/
def mailBase (hd : List Word) (l : List MbRequest) : State :=
  let s := ((base.setReg (R.MB_MBm_CFG 9) (w32 (2 ^ 31))).setReg (R.QM_Qq_CFG 18) 0x81000000#32).setReg (R.QM_Qq_CFG 19) 0x81000000#32
  { s.storeWords (cellAddr 5) hd with
    device := .run
    mp := { s.mp with serving := true, requests := l }
    queues := [(18, ⟨0, [5, 6], 0, [1#64], 0, 0⟩), (19, ⟨0, [7, 8], 0, [], 0, 0⟩)] }

/-- A request of mailbox 9, class 1, with TAG 7. -/
def mailRequest (code : Nat) (deadline : Nat) (p : List Word) : MbRequest :=
  ⟨9, 7, code, 0, 1, deadline, p, 0#64, 0#64, true, 0, [], none⟩

theorem witness_DuplicateTag_0 : ∃ (mb : Fin 1024) (s : State) (hd : List Word) (tag code flags cls len : Nat),
    hd = s.qEntry (2 * mb.val) 0 ∧ tag = fld (hd.getD 0 0#32) 31 16 ∧ code = fld (hd.getD 0 0#32) 15 0 ∧ flags = fld (hd.getD 2 0#32) 15 4 ∧ cls = fld (hd.getD 2 0#32) 3 0 ∧ len = (hd.getD 1 0#32).toNat ∧ s.mbServed mb.val = true ∧ (s.mp.requests.filter (fun x => x.mb == mb.val)).length < 32 ∧ s.qDepth (2 * mb.val) ≠ 0 ∧ 1 + (len - 48 + 63) / 64 ≤ s.qDepth (2 * mb.val) ∧ len ≤ s.mbLimit mb.val ∧ len % 4 = 0 ∧ fld (hd.getD 2 0#32) 31 5 = 0 ∧ 1 ≤ code ∧ code ≤ 0x7FFF ∧ (∃ c, mbCommand code = some c ∧ c.classes.contains cls = true) ∧ (s.mp.recovery = true → recoveryCode code = true) ∧ (∃ y ∈ s.mp.requests, y.mb = mb.val ∧ y.tag = tag) :=
  ⟨9, mailBase [0x00070101#32, 0#32, 1#32] [mailRequest 0x0102 0 []], [0x00070101#32, 0#32, 1#32, 0, 0, 0, 0, 0, 0, 0, 0, 0, 0, 0, 0, 0], 7, 0x0101, 0, 1, 0,
    by decide +kernel⟩
theorem witness_MailboxCommandTurns_0 : ∃ (c : Instr) (mb : Fin 1024) (code : Nat) (lens : Nat → Bool) (s : State),
    mailboxCommand c = some (mb, code, lens)
      ∧ (s.mbServed mb.val = false ∨ ∀ r ∈ s.mp.requests, r.mb = mb.val → r.code = code → s.mbTurn r = false) :=
  ⟨.sysIdent 9, 9, 0x0101, _, mailBase [] [mailRequest 0x0102 0 [], mailRequest 0x0101 0 []], rfl,
    Or.inr (by decide +kernel)⟩

theorem witness_MailboxCommandTurns_1 : ∃ (c : Instr) (mb : Fin 1024) (code : Nat) (lens : Nat → Bool) (s : State)
    (r : MbRequest), mailboxCommand c = some (mb, code, lens) ∧ s.MbTurn mb code r ∧ s.mbExpired r = true :=
  ⟨.sysIdent 9, 9, 0x0101, _,
    { mailBase [] [mailRequest 0x0101 2000 []] with clk := { base.clk with beat := 500000#64 } },
    mailRequest 0x0101 2000 [], rfl, by constructor <;> decide +kernel, by decide +kernel⟩

theorem witness_MailboxCommandTurns_2 : ∃ (c : Instr) (mb : Fin 1024) (code : Nat) (lens : Nat → Bool) (s : State)
    (r : MbRequest), mailboxCommand c = some (mb, code, lens) ∧ s.MbTurn mb code r ∧ s.mbExpired r = false
      ∧ lens (4 * r.payload.length) = false :=
  ⟨.cfgRead 9, 9, 0x0201, _, mailBase [] [mailRequest 0x0201 0 [1#32]], mailRequest 0x0201 0 [1#32], rfl,
    by constructor <;> decide +kernel,
    by decide +kernel⟩

theorem witness_MailboxCommandResults_0 : ∃ (mb : Fin 1024) (s : State) (r : MbRequest),
    s.MbGoes mb 0x0101 0 r ∧ s.mp.recovery = false :=
  ⟨9, mailBase [] [mailRequest 0x0101 0 []], mailRequest 0x0101 0 [],
    by constructor <;> first | decide +kernel | refine ⟨?_, ?_⟩ <;> decide +kernel, by decide +kernel⟩

theorem witness_MailboxCommandResults_1 : ∃ (mb : Fin 1024) (s : State) (r : MbRequest), s.MbGoes mb 0x0102 0 r :=
  ⟨9, mailBase [] [mailRequest 0x0102 0 []], mailRequest 0x0102 0 [],
    by constructor <;> first | decide +kernel | refine ⟨?_, ?_⟩ <;> decide +kernel⟩

theorem witness_MailboxCommandResults_2 : ∃ (mb : Fin 1024) (s : State) (r : MbRequest),
    s.MbGoes mb 0x0201 2 r ∧ ((r.w 1).toNat = 0 ∨ 16383 < (r.w 1).toNat) :=
  ⟨9, mailBase [] [mailRequest 0x0201 0 [0#32, 16384#32]], mailRequest 0x0201 0 [0#32, 16384#32],
    by constructor <;> first | decide +kernel | refine ⟨?_, ?_⟩ <;> decide +kernel, by decide +kernel⟩

theorem witness_MailboxCommandResults_3 : ∃ (mb : Fin 1024) (s : State) (r : MbRequest),
    s.MbGoes mb 0x0301 0 r ∧ (s.epOpen (s.mbClient mb.val)).1 ≠ 0#32 :=
  ⟨9, mailBase [] [mailRequest 0x0301 0 []], mailRequest 0x0301 0 [],
    by constructor <;> first | decide +kernel | refine ⟨?_, ?_⟩ <;> decide +kernel, by decide +kernel⟩

theorem witness_MailboxCommandResults_4 : ∃ (mb : Fin 1024) (s : State) (r : MbRequest), s.MbGoes mb 0x0305 0 r :=
  ⟨9, mailBase [] [mailRequest 0x0305 0 []], mailRequest 0x0305 0 [],
    by constructor <;> first | decide +kernel | refine ⟨?_, ?_⟩ <;> decide +kernel⟩

theorem witness_MailboxCommandResults_5 : ∃ (mb : Fin 1024) (s : State) (r : MbRequest) (l : List RecipeRecord),
    s.MbGoes mb 0x0406 1 r ∧ l = (s.mp.records.drop (r.w 0).toNat).take 256 :=
  ⟨9, mailBase [] [mailRequest 0x0406 0 [0#32]], mailRequest 0x0406 0 [0#32], _,
    by constructor <;> first | decide +kernel | refine ⟨?_, ?_⟩ <;> decide +kernel, rfl⟩

theorem witness_MailboxCommandResults_6 : ∃ (mb : Fin 1024) (s : State) (r : MbRequest),
    s.MbGoes mb 0x0705 1 r ∧ (r.w 0).toNat < 4 :=
  ⟨9, mailBase [] [mailRequest 0x0705 0 [3#32]], mailRequest 0x0705 0 [3#32],
    by constructor <;> first | decide +kernel | refine ⟨?_, ?_⟩ <;> decide +kernel, by decide +kernel⟩

theorem witness_MailboxCommandResults_7 : ∃ (mb : Fin 1024) (s : State) (r : MbRequest) (n : Nat),
    s.MbGoes mb 0x0704 (5 + n) r ∧ (r.w 0).toNat < 4 ∧ (r.w 1).toNat = n ∧ 1 ≤ n ∧ n ≤ 1024 ∧ r.w 4 ≠ 0#32 :=
  ⟨9, mailBase [] [mailRequest 0x0704 0 [3#32, 1#32, 5#32, 0#32, 1000#32, 0x010003E8#32]],
    mailRequest 0x0704 0 [3#32, 1#32, 5#32, 0#32, 1000#32, 0x010003E8#32], 1,
    by constructor <;> first | decide +kernel | refine ⟨?_, ?_⟩ <;> decide +kernel, by decide +kernel⟩

theorem witness_MailboxCommandResults_8 : ∃ (mb : Fin 1024) (s : State) (r : MbRequest) (d : Nat),
    s.MbGoes mb 0x0B01 3 r ∧ (r.w 0).toNat = d ∧ 1 ≤ d ∧ d ≤ 15 ∧ (r.w 1).toNat < 128 ∧ (r.w 2).toNat < 2
      ∧ bit (r.w 1) 6 = true ∧ bit (s.reg R.SYS_DOMAIN_SEC) d = bit (r.w 2) 0 :=
  ⟨9, mailBase [] [mailRequest 0x0B01 0 [15#32, 127#32, 0#32]], mailRequest 0x0B01 0 [15#32, 127#32, 0#32], 15,
    by constructor <;> first | decide +kernel | refine ⟨?_, ?_⟩ <;> decide +kernel, by decide +kernel⟩

theorem witness_MailboxCommandResults_9 : ∃ (mb : Fin 1024) (s : State) (r : MbRequest), s.MbGoes mb 0x0B02 0 r :=
  ⟨9, mailBase [] [mailRequest 0x0B02 0 []], mailRequest 0x0B02 0 [],
    by constructor <;> first | decide +kernel | refine ⟨?_, ?_⟩ <;> decide +kernel⟩

/-- A device whose flash bank 1 stands at address `a` with the STATE word `st` and the operation `o`. -/
def flashBase (a : Nat) (st : Word) (o : Store (Option FlashOp)) : State :=
  { (base.setReg (R.FL_Bb_ADDR 1) (w32 a)).setReg (R.FL_Bb_STATE 1) st with flashOps := o }

theorem witness_FlashQueueAndErrorCommands_0 : ∃ (m : Master) (b : Fin 2) (a : Nat) (s : State) (r : RegRow),
    s.Writes m .fl r (R.FL_Bb_CMD b.val) ∧ a = (s.reg (R.FL_Bb_ADDR b.val)).toNat ∧ s.flashBusy b.val = false
      ∧ s.rb (R.FL_Bb_STATE b.val) 28 = false ∧ a % 32 = 0 ∧ 0x10000000 + 0x1000000 * b.val ≤ a
      ∧ a < 0x11000000 + 0x1000000 * b.val ∧ s.rb R.FL_LOCK (16 * b.val + a / 0x100000 % 16) = false
      ∧ (s.flashMark a).programmed = false :=
  ⟨.mp, 1, 0x11FFFFE0, flashBase 0x11FFFFE0 0#32 [], rowOf (R.FL_Bb_CMD 1),
    by constructor <;> decide +kernel, by decide +kernel⟩
theorem witness_FlashQueueAndErrorCommands_1 : ∃ (m : Master) (b : Fin 2) (a : Nat) (s : State) (r : RegRow),
    s.Writes m .fl r (R.FL_Bb_CMD b.val) ∧ a = (s.reg (R.FL_Bb_ADDR b.val)).toNat ∧ s.flashBusy b.val = false
      ∧ s.rb (R.FL_Bb_STATE b.val) 28 = false ∧ a % 65536 = 0 ∧ 0x10000000 + 0x1000000 * b.val ≤ a
      ∧ a < 0x11000000 + 0x1000000 * b.val ∧ s.rb R.FL_LOCK (16 * b.val + a / 0x100000 % 16) = false :=
  ⟨.mp, 1, 0x11FF0000, flashBase 0x11FF0000 0#32 [], rowOf (R.FL_Bb_CMD 1),
    by constructor <;> decide +kernel, by decide +kernel⟩

theorem witness_FlashQueueAndErrorCommands_2 : ∃ (m : Master) (b : Fin 2) (a f : Nat) (erase : Bool) (s : State) (r : RegRow),
    s.Writes m .fl r (R.FL_Bb_CMD b.val) ∧ a = (s.reg (R.FL_Bb_ADDR b.val)).toNat ∧ (f = 4 ∧ (s.flashBusy b.val = true ∨ s.rb (R.FL_Bb_STATE b.val) 28 = true) ∨ s.flashBusy b.val = false ∧ s.rb (R.FL_Bb_STATE b.val) 28 = false ∧ (f = 3 ∧ (a % (if erase = true then 65536 else 32) ≠ 0 ∨ a < 0x10000000 + 0x1000000 * b.val ∨ 0x11000000 + 0x1000000 * b.val ≤ a) ∨ a % (if erase = true then 65536 else 32) = 0 ∧ 0x10000000 + 0x1000000 * b.val ≤ a ∧ a < 0x11000000 + 0x1000000 * b.val ∧ (f = 2 ∧ s.rb R.FL_LOCK (16 * b.val + a / 0x100000 % 16) = true ∨ f = 1 ∧ s.rb R.FL_LOCK (16 * b.val + a / 0x100000 % 16) = false ∧ erase = false ∧ (s.flashMark a).programmed = true))) :=
  ⟨.mp, 1, 0x12000000, 3, false, flashBase 0x12000000 0#32 [], rowOf (R.FL_Bb_CMD 1),
    by constructor <;> decide +kernel, by decide +kernel⟩

theorem witness_FlashQueueAndErrorCommands_3 : ∃ (m : Master) (b : Fin 2) (s : State) (r : RegRow),
    s.Writes m .fl r (R.FL_Bb_CMD b.val) ∧ s.flashBusy b.val = false :=
  ⟨.mp, 1, flashBase 0x11000000 0x10000000#32 [], rowOf (R.FL_Bb_CMD 1),
    by constructor <;> decide +kernel, by decide +kernel⟩
theorem witness_FlashQueueAndErrorCommands_4 : ∃ (b : Fin 2) (a : Nat) (ws : List Word) (s : State),
    s.flashOp b.val = some ⟨false, a, ws⟩ ∧ a % 32 = 0 ∧ ws.length = 8 ∧ s.device ≠ .entering :=
  ⟨1, 0x11FFFFE0, List.replicate 8 5#32,
    flashBase 0x11FFFFE0 0x60000000#32 [(1, some ⟨false, 0x11FFFFE0, List.replicate 8 5#32⟩)], by decide +kernel⟩
theorem witness_FlashQueueAndErrorCommands_5 : ∃ (b : Fin 2) (a : Nat) (s : State),
    s.flashOp b.val = some ⟨true, a, []⟩ ∧ a % 65536 = 0 ∧ s.device ≠ .entering :=
  ⟨1, 0x11FF0000, flashBase 0x11FF0000 0xA0000000#32 [(1, some ⟨true, 0x11FF0000, []⟩)], by decide +kernel⟩

theorem witness_FlashQueueAndErrorCommands_6 : ∃ (m : Master) (q : Fin 65536) (v : Word) (s : State) (r : RegRow),
    s.Writes m .qm r (R.QM_Qq_CFG q.val) ∧ fld v 27 24 ≤ 12
      ∧ (bit v 31 = true → 2 ^ fld v 27 24 ≤ (s.setQueue q.val { s.queue q.val with cells := [] }).freeCells) :=
  ⟨.mp, 3, 0x82000000#32, queueBase [1#64], rowOf (R.QM_Qq_CFG 3),
    by constructor <;> decide +kernel, by decide +kernel⟩

theorem free_cells_left (l : List Nat) :
    (({ base with queues := [(3, ⟨0, l, 0, [], 0, 0⟩)] } : State).setQueue 4
      { ({ base with queues := [(3, ⟨0, l, 0, [], 0, 0⟩)] } : State).queue 4 with cells := [] }).freeCells = 131072 - l.length := by
  show 131072 - (l ++ []).length = _
  rw [List.append_nil]

theorem witness_FlashQueueAndErrorCommands_7 : ∃ (m : Master) (q : Fin 65536) (v : Word) (s : State) (r : RegRow),
    s.Writes m .qm r (R.QM_Qq_CFG q.val) ∧ fld v 27 24 ≤ 12 ∧ bit v 31 = true
      ∧ (s.setQueue q.val { s.queue q.val with cells := [] }).freeCells < 2 ^ fld v 27 24 :=
  ⟨.mp, 4, 0x81000000#32,
    { base with queues := [(3, ⟨0, List.replicate 131071 5, 0, [], 0, 0⟩)] }, rowOf (R.QM_Qq_CFG 4),
    by constructor <;> decide +kernel, by decide +kernel,
    by decide +kernel, lt_of_eq_of_lt (free_cells_left (List.replicate 131071 5)) (by rw [List.length_replicate]; decide)⟩

theorem witness_FlashQueueAndErrorCommands_8 : ∃ (m : Master) (q : Fin 65536) (v : Word) (s : State) (r : RegRow),
    s.Writes m .qm r (R.QM_Qq_OWN q.val) :=
  ⟨.mp, 3, 0x1A#32, queueBase [1#64], rowOf (R.QM_Qq_OWN 3),
    by constructor <;> decide +kernel⟩
theorem witness_FlashQueueAndErrorCommands_9 : ∃ (m : Master) (q : Fin 65536) (v : Word) (s : State) (r : RegRow),
    s.Writes m .qm r (R.QM_Qq_WM q.val) :=
  ⟨.mp, 3, 0x10001#32, queueBase [1#64], rowOf (R.QM_Qq_WM 3),
    by constructor <;> decide +kernel⟩
theorem witness_FlashQueueAndErrorCommands_10 : ∃ (seg : Fin 17) (s : State), s.recordsOf seg.val = [] :=
  ⟨16, base, by decide +kernel⟩
/-- Segment 16 holds a record of pennant 1030, whose record queue is named by handle `h`; queue 3 is enabled. -/
def recordBase (h : Word) : State :=
  { (queueBase [1#64]).setReg (pnRecReg 1030) h with
    fab := { base.fab with records := [(16, [⟨1030, 1#32, 2#32, 3#32⟩])] } }

theorem witness_FlashQueueAndErrorCommands_11 : ∃ (seg : Fin 17) (e : EventRecord) (l : List EventRecord) (h : Word) (s : State),
    s.recordsOf seg.val = e :: l ∧ h = s.reg (pnRecReg e.pennant) ∧ s.qRefusal (s.ownerDom (pnOwner e.pennant)) h true = none ∧ (s.ownerSec (R.QM_Qq_OWN (fld h 15 0)) = true → s.ownerSec (pnOwner e.pennant) = true) ∧ s.QueueSound (fld h 15 0) ∧ s.qDepth (fld h 15 0) < s.qCapacity (fld h 15 0) :=
  ⟨16, ⟨1030, 1#32, 2#32, 3#32⟩, [], 3#32, recordBase 3#32,
    by decide +kernel, by decide +kernel, by decide +kernel, by decide +kernel, by constructor <;> decide +kernel, by decide +kernel⟩

theorem witness_FlashQueueAndErrorCommands_12 : ∃ (seg : Fin 17) (e : EventRecord) (l : List EventRecord) (h : Word) 
    (s : State), s.recordsOf seg.val = e :: l ∧ h = s.reg (pnRecReg e.pennant)
      ∧ (s.qRefusal (s.ownerDom (pnOwner e.pennant)) h true ≠ none ∨ s.ownerSec (R.QM_Qq_OWN (fld h 15 0)) = true ∧ s.ownerSec (pnOwner e.pennant) = false) :=
  ⟨16, ⟨1030, 1#32, 2#32, 3#32⟩, [], 4#32, recordBase 4#32, by decide +kernel⟩

theorem witness_FlashQueueAndErrorCommands_13 : ∃ (mem : Fin 112) (a : Word) (x : Nat) (s : State),
    x = scrubAddr mem.val a ∧ memCode x = some mem.val ∧ s.scrubs mem.val = true :=
  ⟨0, 0x20FFFFFC#32, 0x20FFFFFC, { base.setReg R.ME_CTRL 0xC0000000#32 with device := .run }, by decide +kernel⟩
theorem witness_FlashQueueAndErrorCommands_14 : ∃ (mem : Fin 112) (a : Word) (x : Nat) (s : State),
    x = scrubAddr mem.val a ∧ Machine.rowOf x ∈ (s.macroRec (macroKey mem.val x)).copying :=
  ⟨0, 0x20FFFFFC#32, 0x20FFFFFC, { base with macros := [(macroKey 0 0x20FFFFFC, ⟨[], [], [0x20FFFC00]⟩)] }, by decide +kernel⟩
/-- The network runs: device ID 5; port 2 is up; session 9 with partner 7 is on port 2 alone, in state `st`, with the
record `r` and the frame sizes 8 and 8. -/
def netBase (cyclic : Nat) (st : Nat) (r : SessionRec) : State :=
  let s := (((((base.setReg R.NX_CFG 5#32).setReg (R.NX_PORTp_STATE 2) 0x80000003#32).setReg (R.NX_Ss_CFG 9)
    (w32 (2 ^ 31 + cyclic * 2 ^ 30 + 0x03040007))).setReg (R.NX_Ss_SIZE 9) 0x00080008#32).setReg (R.NX_Ss_CYCLE 9) 250000#32).setReg
    (R.NX_Ss_STATE 9) (w32 (st * 2 ^ 30))
  { s with device := .run, net := { s.net with sessions := [(9, r)] } }

/-- A telegram of type `t` from node 7 to node `d` with the flags `f` and the sequence number `n`. -/
def telegramOf (t f d n : Nat) (l : List Byte) : List Byte :=
  [BitVec.ofNat 8 (16 + t), BitVec.ofNat 8 f] ++ beBytes 2 7 ++ beBytes 2 d ++ beBytes 2 n ++ l

theorem witness_NetworkCommands_0 : ∃ (p : Fin 4) (s : State), s.linkUp p.val = true := ⟨2, netBase 0 2 .reset, by decide +kernel⟩
theorem witness_NetworkCommands_1 : ∃ (p : Fin 4) (s : State),
    s.linkUp p.val = false ∧ s.rf (R.NX_PORTp_STATE p.val) 1 0 ≠ 0 ∧ s.device = .run :=
  ⟨2, (netBase 0 2 .reset).setReg (R.NX_PORTp_STATE 2) 3#32, by decide +kernel⟩

/-- That network with port 2 down and its record `r`. -/
def portDown (r : PortRec) : State :=
  let s := (netBase 0 2 .reset).setReg (R.NX_PORTp_STATE 2) 3#32
  { s with net := { s.net with ports := [(2, r)] }, clk := { s.clk with beat := 300000#64 } }

theorem witness_NetworkCommands_2 : ∃ (p : Fin 4) (s : State) (m : Nat),
    (s.portRec p.val).scanning = true ∧ s.linkUp p.val = false ∧ s.coresGo = true
      ∧ m = (if s.rf (R.NX_PORTp_CFG p.val) 1 0 = 3 then 2 else if s.rf (R.NX_PORTp_CFG p.val) 1 0 = 2 then 1 else 3) :=
  ⟨2, portDown { PortRec.reset with scanning := true }, _, by decide +kernel, by decide +kernel, by decide +kernel, rfl⟩

theorem witness_NetworkCommands_3 : ∃ (p : Fin 4) (b : BitVec 64) (redundant : Bool) (s : State),
    (s.portRec p.val).downSince = some b ∧ s.downLimit p.val ≤ (s.clk.beat - b).toNat ∧ s.coresGo = true ∧ s.portRetired p.val = false ∧ redundant = true ↔ ∃ r, s.redund p.val = some r ∧ s.portWorks r = true :=
  ⟨2, 1#64, false, portDown { PortRec.reset with downSince := some 1#64 },
    by decide +kernel⟩
theorem witness_NetworkCommands_4 : ∃ (p : Fin 4) (s : State), s.linkUp p.val = true ∧ s.device = .run :=
  ⟨2, netBase 0 2 .reset, by decide +kernel⟩
theorem witness_NetworkCommands_5 : ∃ (p : Fin 4) (s : State),
    s.coresGo = false :=
  ⟨2, { base with device := .entering },
    by decide +kernel⟩
theorem witness_NetworkCommands_6 : ∃ (p : Fin 4) (k : Nat) (data : List Word) (s : State),
    s.coresGo = true ∧ s.qDepth s.partnerResponses = 0 ∧ s.dueSessions p.val = [k] ∧ s.sessionsOn.filter (fun j => (s.sesPorts j).head? == some p.val) = [k] ∧ s.RunsOn k p.val ∧ bit (s.reg (R.NX_Ss_XM k)) 15 = false ∧ s.qDepth ((s.session k).queues.getD 1 0) = 0 ∧ (s.session k).unsent = [] ∧ ((s.session k).queues.length = 4 → s.qDepth ((s.session k).queues.getD 3 0) = 0) ∧ data = (if (s.session k).lastData = [] then List.replicate (s.rf (R.NX_Ss_SIZE k) 31 16 / 4) 0#32 else (s.session k).lastData) :=
  ⟨2, 9, [1#32, 2#32], netBase 1 2 { SessionRec.reset with queues := [20, 21, 22, 23], lastData := [1#32, 2#32] },
    by decide +kernel, by decide +kernel, by decide +kernel, by decide +kernel, by constructor <;> decide +kernel, by decide +kernel⟩
theorem witness_NetworkCommands_7 : ∃ (k : Fin 4096) (s : State),
    s.sesCyclic k.val = true ∧ 2 ≤ s.sesState k.val ∧ (s.session k.val).accepted = true :=
  ⟨9, netBase 1 2 { SessionRec.reset with accepted := true }, by decide +kernel⟩
theorem witness_NetworkCommands_8 : ∃ (k : Fin 4096) (m : Nat) (s : State),
    s.sesCyclic k.val = true ∧ 2 ≤ s.sesState k.val ∧ (s.session k.val).accepted = false
      ∧ m = min 15 (s.rf (R.NX_Ss_STATE k.val) 27 24 + 1) ∧ max 1 (s.rf (R.NX_Ss_CFG k.val) 27 24) ≤ m :=
  ⟨9, 3, (netBase 1 2 .reset).setReg (R.NX_Ss_STATE 9) 0x82000000#32, by decide +kernel⟩
theorem witness_NetworkCommands_9 : ∃ (p : Fin 4) (rtag : Option (BitVec 16)) (body : List Byte) (c : Instr) (s : State),
    c = .joinTelegram p rtag body ∧ s.linkUp p.val = true ∧ s.hears body ≠ .takes :=
  ⟨2, none, telegramOf 6 0 0x8006 0 [], _, netBase 0 2 .reset, rfl, by decide +kernel⟩
/-- The slot header of session partner 7 with CYC 4 and eight bytes. -/
def slotHeader : List Byte := beBytes 2 7 ++ beBytes 2 8 ++ beBytes 2 4 ++ [0#8, 0#8]

theorem witness_NetworkCommands_10 : ∃ (p : Fin 4) (k cyc q : Nat) (h d : List Byte) (body : List Byte) (s : State),
    s.Hears p.val 1 body ∧ h.length = 8 ∧ beAt body 8 2 = 1 ∧ body.drop 12 = h ++ d ∧ d.length = beAt h 2 2
      ∧ beAt h 0 2 < 4096 ∧ cyc = beAt h 4 2 ∧ s.sessionOf (beAt h 0 2) = some k ∧ s.sesCyclic k = true ∧ 2 ≤ s.sesState k
      ∧ p.val ∈ s.sesPorts k ∧ beAt h 2 2 = s.rf (R.NX_Ss_SIZE k) 15 0
      ∧ ((s.session k).anyCyc = true → serialAfter 16 cyc (s.rf (R.NX_Ss_STATE k) 15 0) = true)
      ∧ bit (s.reg (R.NX_Ss_XM k)) 31 = false ∧ q = (s.session k).queues.getD 0 0 ∧ q < 65536 ∧ (s.queue q).gen < 65536
      ∧ s.qRefusal 10 (s.qHandle q) true = none ∧ s.QueueSound q ∧ s.qDepth q < s.qCapacity q :=
  ⟨2, 9, 4, 20, slotHeader, [1, 2, 3, 4, 5, 6, 7, 8], telegramOf 1 0 0xFFFF 0 (beBytes 2 1 ++ [0#8, 0#8] ++ slotHeader ++ [1, 2, 3, 4, 5, 6, 7, 8]),
    { ((netBase 1 3 { SessionRec.reset with queues := [20, 21, 22, 23], anyCyc := true }).setReg (R.QM_Qq_CFG 20) 0x81000000#32).setReg
      (R.QM_Qq_OWN 20) 10#32 with queues := [(20, ⟨0, [5, 6], 0, [], 0, 0⟩)] },
    by
      refine ⟨by constructor <;> decide +kernel, ?_⟩
      repeat' apply And.intro
      all_goals first
        | decide +kernel
        | exact ⟨by decide +kernel, rfl, by decide +kernel⟩⟩
theorem witness_NetworkCommands_11 : ∃ (p : Fin 4) (k : Nat) (body : List Byte) (s : State),
    s.Hears p.val 2 body ∧ s.sessionOf (telePartner body) = some k ∧ s.sesState k = 2 ∧ s.RunsOn k p.val
      ∧ beAt body 6 2 ≠ (s.session k).rxSeq :=
  ⟨2, 9, telegramOf 2 0 0x8005 1 [], netBase 0 2 .reset,
    by constructor <;> decide +kernel, by decide +kernel, by decide +kernel,
    by constructor <;> decide +kernel, by decide +kernel⟩
theorem witness_NetworkCommands_12 : ∃ (p : Fin 4) (k : Nat) (body : List Byte) (s : State),
    s.Hears p.val 2 body ∧ s.sessionOf (telePartner body) = some k ∧ s.sesState k = 2 ∧ s.RunsOn k p.val
      ∧ beAt body 6 2 = (s.session k).rxSeq ∧ acyclicOk (body.drop 8) = true ∧ beAt body 8 4 / 2 ^ 30 ≠ 2
      ∧ (beAt body 8 4).testBit 28 = false :=
  ⟨2, 9, telegramOf 2 0 0x8005 0 ([0x60, 0, 0, 0] ++ List.replicate 9176 1), netBase 0 2 .reset,
    by constructor <;> decide +kernel, by decide +kernel, by decide +kernel,
    by constructor <;> decide +kernel, by decide +kernel⟩
theorem witness_NetworkCommands_13 : ∃ (p : Fin 4) (k : Nat) (body : List Byte) (s : State),
    s.Hears p.val 3 body ∧ s.sessionOf (telePartner body) = some k ∧ s.sesState k = 2 ∧ p.val ∈ s.sesPorts k
      ∧ (s.session k).unsent = [] :=
  ⟨2, 9, telegramOf 3 0 0x8005 2 [], netBase 0 2 { SessionRec.reset with unacked := [(1, [1]), (2, [2])] },
    by constructor <;> decide +kernel, by decide +kernel⟩
theorem witness_NetworkCommands_14 : ∃ (k : Fin 4096) (p : Nat) (s : State),
    s.sesState k.val = 2 ∧ (s.session k.val).unacked ≠ [] ∧ s.RunsOn k.val p ∧ 8 ≤ (s.session k.val).resends :=
  ⟨9, 2, netBase 0 2 { SessionRec.reset with unacked := [(1, [1])], resends := 8 }, by decide +kernel, by decide +kernel,
    by constructor <;> decide +kernel, by decide +kernel⟩
theorem witness_NetworkCommands_15 : ∃ (p : Fin 4) (body : List Byte) (s : State),
    s.Hears p.val 4 body ∧ s.portRetired p.val = false :=
  ⟨2, telegramOf 4 0 0xFFFF 0 [], netBase 0 2 .reset,
    by constructor <;> decide +kernel, by decide +kernel⟩
theorem witness_NetworkCommands_16 : ∃ (p : Fin 4) (k : Nat) (accept : Bool) (body : List Byte) (s : State),
    s.Hears p.val 6 body ∧ s.sessionOf (telePartner body) = some k ∧ accept = (body.getD 1 0#8).getLsbD 0 ∧ (s.sesState k = 1 ∨ s.sesState k = 3 ∧ accept = true) :=
  ⟨2, 9, true, telegramOf 6 1 0x8005 0 [], netBase 0 3 .reset,
    by constructor <;> decide +kernel, by decide +kernel⟩
theorem witness_NetworkCommands_17 : ∃ (p : Fin 4) (k : Nat) (body : List Byte) (s : State),
    s.Hears p.val 7 body ∧ s.sessionOf (telePartner body) = some k :=
  ⟨2, 9, telegramOf 7 0 0x8005 0 [], netBase 0 2 .reset,
    by constructor <;> decide +kernel, by decide +kernel⟩
theorem witness_NetworkCommands_18 : ∃ (k : Fin 4096) (p : Nat) (s : State), s.sesState k.val = 1 ∧ s.RunsOn k.val p :=
  ⟨9, 2, netBase 0 1 .reset, by decide +kernel, by constructor <;> decide +kernel⟩
/-- That network with one scheduled command. -/
def schedBase (x : Scheduled) : State :=
  { netBase 0 2 .reset with net := { (netBase 0 2 .reset).net with sched := [x] } }

theorem witness_NetworkCommands_19 : ∃ (x : Scheduled) (g : Nat) (s : State),
    s.schedDue 1 = some x ∧ g = 1024 + fld x.arg 9 0 ∧ s.owns 10 (pnOwner g) = true ∧ (s.ownerSec (pnOwner g) = true → s.domSecure 10 = true) ∧ s.rb (pnCtrl g) 31 = true ∧ s.gated g = false ∧ s.standsHigh g = false :=
  ⟨⟨1, 1023#32, 0#64, false⟩, 2047, ((schedBase ⟨1, 1023#32, 0#64, false⟩).setReg (pnOwner 2047) 10#32).setReg (pnCtrl 2047) 0x80000000#32,
    by decide +kernel⟩
theorem witness_NetworkCommands_20 : ∃ (x : Scheduled) (i : Nat) (s : State),
    s.schedDue 2 = some x ∧ s.slotOfId (fld x.arg 15 0) = some i ∧ s.slotOpener i = 10 ∧ s.slotState i = 2 :=
  ⟨⟨2, 5#32, 0#64, true⟩, 3, (schedBase ⟨2, 5#32, 0#64, true⟩).setReg (R.EP_SLOTs_STATE 3) 0x00A20005#32, by decide +kernel⟩
theorem witness_NetworkCommands_21 : ∃ (x : Scheduled) (s : State),
    s.schedDue 3 = some x ∧ s.snapBusy = false ∧ s.rb R.SN_STATE 28 = true :=
  ⟨⟨3, 0#32, 0#64, true⟩, (schedBase ⟨3, 0#32, 0#64, true⟩).setReg R.SN_STATE 0x10000000#32, by decide +kernel⟩
/-- A device in RUN whose host link is up, with the host port in the host's domain. -/
def hostBase : State := { (base.setReg R.HP_LINK 0x80000041#32).setReg R.HP_OWNER 9#32 with device := .run }

theorem witness_HostAndSerialCommands_0 : ∃ (v : Fin 64) (s : State),
    s.rb (R.HP_VECv_CFG v.val) 31 = true ∧ bit (s.msixWord (4 * v.val + 3)) 0 = false ∧ s.hostUp = true :=
  ⟨63, { hostBase.setReg (R.HP_VECv_CFG 63) 0x80000001#32 with host := { hostBase.host with table := [(255, 0#32)] } },
    by decide +kernel⟩

theorem witness_HostAndSerialCommands_2 : ∃ s : State, s.rb R.HP_LINK 31 = true := ⟨hostBase, by decide +kernel⟩

theorem witness_HostAndSerialCommands_3 : ∃ s : State, s.device = .run := ⟨hostBase, by decide +kernel⟩

theorem witness_HostAndSerialCommands_4 : ∃ (win : Fin 3) (off : Word) (whole : Bool) (n : Fin 1025) (c : Instr) (s : State),
    c = .hostMemoryRead win off whole n ∧ s.hostUp = true ∧ hostPlace win.val off.toNat = none :=
  ⟨2, 0x1000#32, true, 1, _, hostBase, rfl, by decide +kernel⟩

theorem witness_HostAndSerialCommands_5 : ∃ (win : Fin 3) (off : Word) (whole : Bool) (n : Fin 1025) (a : Nat) (s : State),
    s.hostUp = true ∧ hostPlace win.val off.toNat = some (.device a) ∧ TlpMalformed off whole n.val :=
  ⟨1, 0x10000#32, true, 65, 0x28100000, hostBase, by decide +kernel, by decide +kernel, Or.inr (Or.inr (Or.inr (by decide)))⟩

theorem witness_HostAndSerialCommands_6 : ∃ (win : Fin 3) (off : Word) (whole : Bool) (data : List Word) (a : Nat) (s : State),
    s.hostUp = true ∧ hostPlace win.val off.toNat = some (.device a) ∧ TlpMalformed off whole data.length :=
  ⟨1, 0x10001#32, true, [1#32], 0x28100001, hostBase, by decide +kernel, by decide +kernel, Or.inr (Or.inl (by decide))⟩

theorem witness_HostAndSerialCommands_7 : ∃ (off : Word) (n : Fin 1025) (s : State),
    s.hostUp = true ∧ off.toNat % 4 = 0 ∧ 1 ≤ n.val ∧ n.val ≤ 64 ∧ off.toNat + 4 * n.val ≤ 0x1000 :=
  ⟨0xF00#32, 64, hostBase, by decide +kernel⟩

theorem witness_HostAndSerialCommands_8 : ∃ (win : Fin 3) (off w : Word) (a : Nat) (s u : State),
    s.hostUp = true ∧ hostPlace win.val off.toNat = some (.device a) ∧ off.toNat % 4 = 0
      ∧ s.tlpBegun.masterRead .host a 4 = (.data w, u) :=
  ⟨0, 0x14#32, 0x80000041#32, 0x54000014, hostBase, _, by decide +kernel, by decide +kernel, by decide +kernel,
    show _ = (BusResult.data 0x80000041#32, hostBase.tlpBegun) by decide +kernel⟩

theorem witness_HostAndSerialCommands_9 : ∃ (win : Fin 3) (off w : Word) (a : Nat) (s u : State) (r : BusResult),
    s.hostUp = true ∧ hostPlace win.val off.toNat = some (.device a) ∧ off.toNat % 4 = 0
      ∧ s.tlpBegun.masterWrite .host a 4 w = (r, u) :=
  ⟨1, 0xFFFC#32, 5#32, 0x2800FFFC, hostBase, _, _, by decide +kernel, by decide +kernel, by decide +kernel, rfl⟩

theorem witness_HostAndSerialCommands_10 : ∃ (v : Fin 64) (off w : Word) (s : State),
    s.hostUp = true ∧ off = w32 (16 * v.val + 12) ∧ bit w 0 = false ∧ s.msixPending v.val = true :=
  ⟨63, 0x3FC#32, 0#32, { hostBase with host := { hostBase.host with pba := [(63, true)] } }, by decide +kernel⟩

theorem witness_HostAndSerialCommands_11 : ∃ (m : Master) (k : Fin 4) (v : Word) (s : State) (r : RegRow),
    s.Writes m (.uart k.val) r (R.UART_DATA k.val) :=
  ⟨.mp, 3, 0x41#32, base, rowOf (R.UART_DATA 3),
    by constructor <;> decide +kernel⟩

theorem witness_HostAndSerialCommands_12 : ∃ (k : Fin 4) (parity : Bool) (s : State),
    s.uartOn k.val = true ∧ 64 ≤ (s.serialRec k.val).rx.length ∧ parity = true ∧ s.rf (R.UART_CTRL k.val) 23 22 ≠ 0 :=
  ⟨3, true, { hostBase.setReg (R.UART_CTRL 3) 0x80400000#32 with serial := [(3, ⟨[], List.replicate 64 7#32, 0, none⟩)] },
    by decide +kernel⟩

theorem witness_HostAndSerialCommands_13 : ∃ (k : Fin 4) (s : State),
    s.uartOn k.val = true ∧ (s.serialRec k.val).tx ≠ [] :=
  ⟨3, { hostBase.setReg (R.UART_CTRL 3) 0x80000000#32 with serial := [(3, ⟨[7#32], [], 0, none⟩)] }, by decide +kernel⟩

theorem witness_HostAndSerialCommands_14 : ∃ (m : Master) (k : Fin 8) (v : Word) (n : Nat) (x : SerialRec) (s : State) (r : RegRow),
    s.Writes m (.spi k.val) r (R.SPI_DATA k.val) ∧ x = s.serialRec (4 + k.val)
      ∧ n = (if s.rb (R.SPI_CTRL k.val) 11 = true then x.run
        else if 0 < x.run then x.run + 1 else if s.spiOn k.val = true then x.tx.length + 1 else 0) ∧ x.tx.length < 32 :=
  ⟨.mp, 7, 5#32, 1, ⟨[], [], 0, none⟩, hostBase.setReg (R.SPI_CTRL 7) 0x80000000#32, rowOf (R.SPI_DATA 7),
    by constructor <;> decide +kernel, by decide +kernel⟩

/-- That device with SPI 7 started by its pennant and the record `x`. -/
def spiBase (x : SerialRec) : State := { hostBase.setReg (R.SPI_CTRL 7) 0x80000800#32 with serial := [(11, x)] }

theorem witness_HostAndSerialCommands_15 : ∃ (k : Fin 8) (s : State),
    s.rb (R.SPI_CTRL k.val) 11 = true ∧ s.spiOn k.val = true ∧ (s.serialRec (4 + k.val)).run = 0 :=
  ⟨7, spiBase ⟨[1#32, 2#32], [], 0, none⟩, by decide +kernel⟩

theorem witness_HostAndSerialCommands_16 : ∃ (k : Fin 8) (rx : Vector Word 32) (x : SerialRec) (s : State),
    x = s.serialRec (4 + k.val) ∧ x.run ≠ 0 ∧ 32 < x.rx.length + min 32 x.run :=
  ⟨7, Vector.replicate 32 0, ⟨[1#32, 2#32], List.replicate 31 7#32, 2, none⟩,
    spiBase ⟨[1#32, 2#32], List.replicate 31 7#32, 2, none⟩, by decide +kernel⟩

theorem witness_HostAndSerialCommands_17 : ∃ (m : Master) (k : Fin 4) (v : Word) (x : SerialRec) (s : State) (r : RegRow),
    s.Writes m (.i2c k.val) r (R.I2C_CMD k.val) ∧ x = s.serialRec (12 + k.val) ∧ s.rb (R.I2C_CTRL k.val) 31 = true
      ∧ x.cmd = none ∧ s.device = .run :=
  ⟨.mp, 3, 5#32, ⟨[], [], 0, none⟩, hostBase.setReg (R.I2C_CTRL 3) 0x80000000#32, rowOf (R.I2C_CMD 3),
    by constructor <;> decide +kernel, by decide +kernel⟩

theorem witness_HostAndSerialCommands_18 : ∃ (k : Fin 4) (x : SerialRec) (c : Word) (s : State),
    x = s.serialRec (12 + k.val) ∧ x.cmd = some c :=
  ⟨3, ⟨[], [], 0, some 0x20000002#32⟩, 0x20000002#32, { hostBase with serial := [(15, ⟨[], [], 0, some 0x20000002#32⟩)] },
    by decide +kernel⟩

/-- That device with CAN controller 3 on, in MODE `mode`, 130 errors counted each way, filter 31 open and its queues 3. -/
def canBase (mode : Nat) (p : List (BitVec 64)) : State :=
  { (((((hostBase.setReg (R.CAN_CTRL 3) (w32 (2 ^ 31 + 2 ^ 30 + mode * 2 ^ 27))).setReg (R.CAN_ERR 3) 0x00828201#32).setReg
      (R.CAN_FLTi_ID 3 31) 0x80000000#32).setReg (R.CAN_RXQ 3) 3#32).setReg (R.CAN_TXQ 3) 3#32).setReg (R.QM_Qq_CFG 3) 0x81000000#32 with
    queues := [(3, ⟨0, [5, 6], 1, p, 0, 0⟩)] }

theorem witness_HostAndSerialCommands_19 : ∃ (k : Fin 4) (f : CanFrame) (good : Bool) (n : Nat) (s : State),
    n = s.rf (R.CAN_ERR k.val) 23 16 ∧ s.canOn k.val = true ∧ s.rf (R.CAN_CTRL k.val) 28 27 ≠ 2
      ∧ (f.fdf = true → s.rb (R.CAN_CTRL k.val) 30 = true) ∧ good = false :=
  ⟨3, ⟨5, false, true, false, false, 9, Vector.replicate 64 0⟩, false, 130, canBase 0 [], by decide +kernel⟩

theorem witness_HostAndSerialCommands_20 : ∃ (k : Fin 4) (f : CanFrame) (h w : Word) (q : Nat) (s : State),
    s.canOn k.val = true ∧ s.rf (R.CAN_CTRL k.val) 28 27 ≠ 2 ∧ (f.fdf = true → s.rb (R.CAN_CTRL k.val) 30 = true)
      ∧ w = w32 (f.id.toNat + 2 ^ 29 * b2n f.ide + 2 ^ 30 * b2n f.fdf + 2 ^ 31 * b2n f.brs)
      ∧ (∃ i : Nat, i < 32 ∧ s.canPasses k.val i w = true) ∧ canLength f.fdf f.rtr f.dlc.val ≤ 52
      ∧ h = s.reg (R.CAN_RXQ k.val) ∧ q = fld h 15 0 ∧ s.qRefusal (s.ownerDom (R.CAN_OWNER k.val)) h true = none
      ∧ s.QueueSound q ∧ s.qDepth q < s.qCapacity q :=
  ⟨3, ⟨5, false, true, false, false, 14, Vector.replicate 64 0⟩, 3#32, 0x40000005#32, 3, canBase 0 [1#64], by decide +kernel,
    by decide +kernel, by decide +kernel, by decide +kernel, ⟨31,
    by decide +kernel⟩, by decide +kernel,
    by decide +kernel, by decide +kernel, by decide +kernel, by constructor <;> decide +kernel,
    by decide +kernel⟩

theorem witness_HostAndSerialCommands_21 : ∃ (k : Fin 4) (s : State),
    s.qDepth (fld (s.reg (R.CAN_TXQ k.val)) 15 0) = 0 := ⟨3, canBase 0 [], by decide +kernel⟩

theorem witness_HostAndSerialCommands_22 : ∃ (k : Fin 4) (h : Word) (q : Nat) (e : List Word) (s : State),
    s.canOn k.val = true ∧ s.rf (R.CAN_CTRL k.val) 28 27 = 0 ∧ h = s.reg (R.CAN_TXQ k.val) ∧ q = fld h 15 0
      ∧ s.qRefusal (s.ownerDom (R.CAN_OWNER k.val)) h false = none ∧ s.qDepth q ≠ 0 ∧ s.QueueSound q ∧ (∀ i : Fin 16, s.eccMark (cellAddr ((s.queue q).cellAt (s.queue q).head) + 4 * i.val) = .good)
      ∧ e = s.qEntry q 0
      ∧ canLength (bit (e.getD 0 0#32) 30) (bit (e.getD 1 0#32) 4) (fld (e.getD 1 0#32) 3 0) ≤ 52 :=
  ⟨3, 3#32, 3, List.replicate 16 0#32, canBase 0 [1#64], by decide +kernel,
    by decide +kernel, by decide +kernel, by decide +kernel, by decide +kernel, by decide +kernel,
    by constructor <;> decide +kernel, by decide +kernel⟩

/-- A request for an unlock of level 2. -/
def unlockRequest : MbRequest := { mailRequest 0x0B03 0 (2#32 :: List.replicate 32 5#32) with posted := 2500000000#64 }

/-- Mailbox 9 asks for an unlock of level 2, 10 s of beats after its challenge. -/
def unlockBase : State :=
  let s := mailBase [] [unlockRequest]
  { s with mp := { s.mp with nonce := some ([], 0#64) }, clk := { s.clk with beat := 2500000000#64 } }
theorem eq_pair {α β : Type} (x : α × β) : x = (x.1, x.2) := rfl

theorem eq_triple {α β γ : Type} (x : α × β × γ) : x = (x.1, x.2.1, x.2.2) := rfl

theorem pairOf {α β : Type} {x : α × β} {a : α} (h : x.1 = a) : x = (a, x.2) := by rw [← h]

theorem some_pair {α β : Type} {o : Option (α × β)} {h : o.isSome = true} : o = some ((o.get h).1, (o.get h).2) := by simp

theorem witness_MailboxCommandResults_10 : ∃ (mb : Fin 1024) (s : State) (r : MbRequest) (u : State) (l : List (Nat × Nat)),
    s.MbGoes mb 0x0103 1 r
      ∧ l = s.liveUnits.filter (fun x => bit (r.w 0) x.1 && (bit (r.w 0) 31 || s.owns (s.mbClient mb.val) (R.TU_OWNER x.1 x.2)))
      ∧ u = s.holdUnits l 20
      ∧ r ∈ u.mp.requests :=
  ⟨9,
    mailBase [] [mailRequest 0x0103 0 [0x80008001#32]],
    mailRequest 0x0103 0 [0x80008001#32],
    _,
    _,
    by constructor <;> first | decide +kernel | refine ⟨?_, ?_⟩ <;> decide +kernel,
    rfl,
    rfl,
    by decide +kernel⟩

theorem witness_MailboxCommandResults_11 : ∃ (mb : Fin 1024) (s : State) (r : MbRequest) (u : State),
    s.MbGoes mb 0x0104 2 r
      ∧ (r.w 0).toNat = 1
      ∧ u = (maskIslands (r.w 1)).foldl (fun t n => t.islandReset n) s
      ∧ r ∈ u.mp.requests :=
  ⟨9,
    mailBase [] [mailRequest 0x0104 0 [1#32, 0x8001#32]],
    mailRequest 0x0104 0 [1#32, 0x8001#32],
    _,
    by constructor <;> first | decide +kernel | refine ⟨?_, ?_⟩ <;> decide +kernel,
    by decide +kernel,
    rfl,
    by decide +kernel⟩

theorem witness_MailboxCommandResults_12 : ∃ (mb : Fin 1024) (s : State) (r : MbRequest) (u : State) (n : Nat) (e : Option (Nat × BusErr)),
    s.MbGoes mb 0x0202 (2 * n) r
      ∧ 1 ≤ n
      ∧ n ≤ 8191
      ∧ s.mpWrites (s.mbActs r) 0 (pairsOf r.payload) = (e, u)
      ∧ r ∈ u.mp.requests :=
  ⟨9,
    mailBase [] [mailRequest 0x0202 0 [0x5A008204#32, 5#32]],
    mailRequest 0x0202 0 [0x5A008204#32, 5#32],
    _,
    1,
    _,
    by constructor <;> first | decide +kernel | refine ⟨?_, ?_⟩ <;> decide +kernel,
    by decide +kernel,
    by decide +kernel,
    eq_pair _,
    by decide +kernel⟩

theorem witness_MailboxCommandResults_13 : ∃ (mb : Fin 1024) (s : State) (r : MbRequest) (u : State) (kind n island : Nat) (l : List Nat),
    s.MbGoes mb 0x0203 4 r
      ∧ kind = (r.w 0).toNat
      ∧ n = (r.w 1).toNat
      ∧ island = (if kind = 3 ∨ kind = 5 then (r.w 2).toNat else 0)
      ∧ l = s.resourcesFree kind island n
      ∧ 1 ≤ kind
      ∧ kind ≤ 8
      ∧ 1 ≤ n
      ∧ n ≤ 256
      ∧ n ≤ l.length
      ∧ s.mpWrites 0 0 (l.flatMap (fun k => s.ownWrite kind island k (fld (r.w 3) 3 0) (fld (r.w 3) 4 4))) = (none, u)
      ∧ r ∈ u.mp.requests :=
  ⟨9,
    mailBase [] [mailRequest 0x0203 0 [8#32, 1#32, 0#32, 31#32]],
    mailRequest 0x0203 0 [8#32, 1#32, 0#32, 31#32],
    _,
    8,
    1,
    0,
    _,
    by constructor <;> first | decide +kernel | refine ⟨?_, ?_⟩ <;> decide +kernel,
    by decide +kernel,
    by decide +kernel,
    by decide +kernel,
    rfl,
    by decide +kernel,
    by decide +kernel,
    by decide +kernel,
    by decide +kernel,
    by decide +kernel,
    pairOf (by decide +kernel),
    by decide +kernel⟩

theorem witness_MailboxCommandResults_14 : ∃ (mb : Fin 1024) (s : State) (r : MbRequest) (u : State) (n kind island : Nat) (l : List Nat),
    s.MbGoes mb 0x0204 (n + 2) r
      ∧ kind = (r.w 0).toNat
      ∧ 1 ≤ kind
      ∧ kind ≤ 8
      ∧ island = (if kind = 3 ∨ kind = 5 then (r.w 1).toNat else 0)
      ∧ island < 16
      ∧ l = (r.payload.drop 2).map (fun w => w.toNat)
      ∧ (∀ k ∈ l, (resourceRange kind).1 ≤ k ∧ k < (resourceRange kind).2)
      ∧ s.mpWrites 0 0 (l.flatMap (fun k => s.ownWrite kind island k 0 1)) = (none, u)
      ∧ r ∈ u.mp.requests :=
  ⟨9,
    mailBase [] [mailRequest 0x0204 0 [2#32, 0#32, 1023#32]],
    mailRequest 0x0204 0 [2#32, 0#32, 1023#32],
    _,
    1,
    2,
    0,
    [1023],
    by constructor <;> first | decide +kernel | refine ⟨?_, ?_⟩ <;> decide +kernel,
    by decide +kernel,
    by decide +kernel,
    by decide +kernel,
    by decide +kernel,
    by decide +kernel,
    by decide +kernel,
    by decide +kernel,
    pairOf (by decide +kernel),
    by decide +kernel⟩

theorem witness_MailboxCommandResults_15 : ∃ (mb : Fin 1024) (s : State) (r : MbRequest) (u v : State) (a : Nat) (e : Option (Nat × BusErr)),
    s.MbGoes mb 0x0205 2 r
      ∧ a = (r.w 0).toNat
      ∧ v = (match measureUse a with | some n => s.measureEnd n | none => s)
      ∧ v.mpWrites 0 0 [(a, r.w 1)] = (e, u)
      ∧ r ∈ u.mp.requests
      ∧ s.isOwnerReg a = true :=
  ⟨9,
    mailBase [] [mailRequest 0x0205 0 [0x5C000000#32, 9#32]],
    mailRequest 0x0205 0 [0x5C000000#32, 9#32],
    _,
    _,
    _,
    _,
    by constructor <;> first | decide +kernel | refine ⟨?_, ?_⟩ <;> decide +kernel,
    rfl,
    rfl,
    eq_pair _,
    by decide +kernel⟩

theorem witness_MailboxCommandResults_16 : ∃ (mb : Fin 1024) (s : State) (r : MbRequest) (u : State) (m : Nat) (cfg : Word),
    s.MbGoes mb 0x0206 2 r
      ∧ m = (r.w 0).toNat
      ∧ cfg = r.w 1
      ∧ u = s.mailboxSet m cfg
      ∧ r ∈ u.mp.requests
      ∧ (m = 0 ∨ (16 ≤ m ∧ m < 1024))
      ∧ fld cfg 11 8 ≤ 12
      ∧ fld cfg 3 0 ≤ 12
      ∧ 2 ^ fld cfg 11 8 + 2 ^ fld cfg 3 0 ≤ s.freeCells + s.mailboxCells m :=
  ⟨9,
    mailBase [] [mailRequest 0x0206 0 [16#32, 0x80000000#32]],
    mailRequest 0x0206 0 [16#32, 0x80000000#32],
    _,
    16,
    _,
    by constructor <;> first | decide +kernel | refine ⟨?_, ?_⟩ <;> decide +kernel,
    by decide +kernel,
    rfl,
    rfl,
    by decide +kernel⟩

theorem witness_MailboxCommandResults_17 : ∃ (mb : Fin 1024) (s : State) (r : MbRequest) (i : Nat),
    s.MbGoes mb 0x0302 1 r
      ∧ s.slotOfId (r.w 0).toNat = some i
      ∧ s.slotOpener i = s.mbClient mb.val
      ∧ s.slotState i = 1 :=
  ⟨9,
    (mailBase [] [mailRequest 0x0302 0 [1#32]]).setReg (R.EP_SLOTs_STATE 3) 0x00010001#32,
    mailRequest 0x0302 0 [1#32],
    3,
    by constructor <;> first | decide +kernel | refine ⟨?_, ?_⟩ <;> decide +kernel,
    by decide +kernel⟩

theorem witness_MailboxCommandResults_18 : ∃ (mb : Fin 1024) (s : State) (r : MbRequest) (i : Nat) (u : State) (ok : Bool),
    s.MbGoes mb 0x0303 4 r
      ∧ s.slotOfId (r.w 0).toNat = some i
      ∧ s.slotOpener i = s.mbClient mb.val
      ∧ s.mpHaul (s.mbClient mb.val) i (bit (r.w 1) 0) (if bit (r.w 1) 1 = true then none else some (r.w64 2)) = (ok, u)
      ∧ s.slotState i = 2
      ∧ bit (r.w 1) 1 = true :=
  ⟨9,
    (mailBase [] [mailRequest 0x0303 0 [1#32, 2#32, 0#32, 0#32]]).setReg (R.EP_SLOTs_STATE 3) 0x00020001#32,
    mailRequest 0x0303 0 [1#32, 2#32, 0#32, 0#32],
    3,
    _,
    _,
    by constructor <;> first | decide +kernel | refine ⟨?_, ?_⟩ <;> decide +kernel,
    by decide +kernel,
    by decide +kernel,
    eq_pair _,
    by decide +kernel⟩

theorem witness_MailboxCommandResults_19 : ∃ (mb : Fin 1024) (s : State) (r : MbRequest) (i : Nat) (u : State),
    s.MbGoes mb 0x0304 1 r
      ∧ s.slotOfId (r.w 0).toNat = some i
      ∧ s.slotOpener i = s.mbClient mb.val
      ∧ u = s.epAbandon (s.mbClient mb.val) i
      ∧ s.slotState i = 2 :=
  ⟨9,
    (mailBase [] [mailRequest 0x0304 0 [1#32]]).setReg (R.EP_SLOTs_STATE 3) 0x00020001#32,
    mailRequest 0x0304 0 [1#32],
    3,
    _,
    by constructor <;> first | decide +kernel | refine ⟨?_, ?_⟩ <;> decide +kernel,
    by decide +kernel,
    by decide +kernel,
    rfl,
    by decide +kernel⟩

theorem witness_MailboxCommandResults_20 : ∃ (mb : Fin 1024) (s : State) (r : MbRequest) (u : State) (on : List Nat),
    s.MbGoes mb 0x0501 1 r
      ∧ (maskCores (r.w 0)).foldl (fun (x : List Nat × State) i =>
        let v := (x.2.writeAs .mp (s.mbActs r) (R.AC_CAL (i / 2) (i % 2)) 4 0x80000000#32).2;
        (if v.rb (R.AC_CAL (i / 2) (i % 2)) 30 = true ∧ x.2.rb (R.AC_CAL (i / 2) (i % 2)) 30 = false then x.1 ++ [i] else x.1, v))
        ([], s) = (on, u) :=
  ⟨9,
    mailBase [] [mailRequest 0x0501 0 [0x80000001#32]],
    mailRequest 0x0501 0 [0x80000001#32],
    _,
    _,
    by constructor <;> first | decide +kernel | refine ⟨?_, ?_⟩ <;> decide +kernel,
    eq_pair _⟩

theorem witness_MailboxCommandResults_21 : ∃ (mb : Fin 1024) (s : State) (r : MbRequest) (u : State) (ws : List Word) (e : Option BusErr),
    s.MbGoes mb 0x0502 1 r
      ∧ s.mpReads (s.mbActs r) ((maskCores (r.w 0)).flatMap calRegs) = (ws, e, u)
      ∧ r ∈ u.mp.requests :=
  ⟨9,
    mailBase [] [mailRequest 0x0502 0 [0x80000000#32]],
    mailRequest 0x0502 0 [0x80000000#32],
    _,
    _,
    _,
    by constructor <;> first | decide +kernel | refine ⟨?_, ?_⟩ <;> decide +kernel,
    eq_triple _,
    by decide +kernel⟩

theorem witness_MailboxCommandResults_22 : ∃ (mb : Fin 1024) (s : State) (r : MbRequest) (u : State) (n : Nat) (e : Option (Nat × BusErr)),
    s.MbGoes mb 0x0503 (n + 1) r
      ∧ s.mpWrites (s.mbActs r) 0 (factorWrites (maskCores (r.w 0)) (r.payload.drop 1)) = (e, u)
      ∧ r ∈ u.mp.requests
      ∧ n = 13 * (maskCores (r.w 0)).length :=
  ⟨9,
    mailBase [] [mailRequest 0x0503 0 [1#32, 0#32, 0#32, 0#32, 0#32, 0#32, 0#32, 0#32, 0#32, 0#32, 0#32, 0#32, 0#32, 0#32]],
    mailRequest 0x0503 0 [1#32, 0#32, 0#32, 0#32, 0#32, 0#32, 0#32, 0#32, 0#32, 0#32, 0#32, 0#32, 0#32, 0#32],
    _,
    13,
    _,
    by constructor <;> first | decide +kernel | refine ⟨?_, ?_⟩ <;> decide +kernel,
    eq_pair _,
    by decide +kernel⟩

theorem witness_MailboxCommandResults_23 : ∃ (mb : Fin 1024) (s : State) (r : MbRequest) (n m ofs : Nat),
    s.MbGoes mb 0x0601 3 r
      ∧ n = (r.w 0).toNat / 6
      ∧ m = (r.w 0).toNat % 6
      ∧ ofs = (r.w 1).toNat
      ∧ (r.w 2).toNat < 16
      ∧ (r.w 0).toNat < 96
      ∧ ofs ≤ 8180
      ∧ s.islandReachable n = true
      ∧ s.owns (s.mbClient mb.val) (R.LE_OWNER n m) = true
      ∧ (s.ownerSec (R.LE_OWNER n m) = true → s.domSecure (s.mbClient mb.val) = true)
      ∧ s.leRetired n m = false :=
  ⟨9,
    mailBase [] [mailRequest 0x0601 0 [95#32, 8180#32, 15#32]],
    mailRequest 0x0601 0 [95#32, 8180#32, 15#32],
    15,
    5,
    8180,
    by constructor <;> first | decide +kernel | refine ⟨?_, ?_⟩ <;> decide +kernel,
    by decide +kernel⟩

theorem witness_MailboxCommandResults_24 : ∃ (mb : Fin 1024) (s : State) (r : MbRequest) (s1 : Word),
    s.mp.requests.find? (fun r => r.mb == mb.val && r.code == 0x0601 && r.phase == 1 && r.answer.isNone) = some r
      ∧ s1 = s.mword (s.tuneAddr r 1)
      ∧ r.quiet = false
      ∧ s.mbServed mb.val = true
      ∧ fld s1 31 16 = fld (s.mword (s.tuneAddr r 0)) 31 16
      ∧ 2 ≤ fld s1 3 0 :=
  ⟨9,
    (mailBase [] [{ mailRequest 0x0601 0 [95#32, 8180#32, 15#32] with phase := 1 }]).setMword (stateAddr 15 5 8181) 2#32,
    { mailRequest 0x0601 0 [95#32, 8180#32, 15#32] with phase := 1 },
    _,
    by decide +kernel,
    rfl,
    by decide +kernel⟩

theorem witness_MailboxCommandResults_25 : ∃ (mb : Fin 1024) (s : State) (r : MbRequest) (n m : Nat),
    s.MbGoes mb 0x0602 2 r
      ∧ n = (r.w 0).toNat / 6
      ∧ m = (r.w 0).toNat % 6
      ∧ (r.w 0).toNat < 96
      ∧ (r.w 1).toNat ≤ 8180
      ∧ s.islandReachable n = true
      ∧ s.owns (s.mbClient mb.val) (R.LE_OWNER n m) = true
      ∧ (s.ownerSec (R.LE_OWNER n m) = true → s.domSecure (s.mbClient mb.val) = true)
      ∧ fld (s.mword (s.tuneAddr r 1)) 3 0 = 1
      ∧ s.leRetired n m = false :=
  ⟨9,
    (mailBase [] [mailRequest 0x0602 0 [95#32, 8180#32]]).setMword (stateAddr 15 5 8181) 1#32,
    mailRequest 0x0602 0 [95#32, 8180#32],
    15,
    5,
    by constructor <;> first | decide +kernel | refine ⟨?_, ?_⟩ <;> decide +kernel,
    by decide +kernel⟩

theorem witness_MailboxCommandResults_26 : ∃ (mb : Fin 1024) (s : State) (r : MbRequest) (u v : State) (p et red : Nat) (e : Option (Nat × BusErr)),
    s.MbGoes mb 0x0701 4 r
      ∧ p = (r.w 0).toNat
      ∧ p < 4
      ∧ et = (if r.w 2 = 0#32 then 0x88B5 else (r.w 2).toNat)
      ∧ red = (r.w 3).toNat
      ∧ v = s.setPort p { s.portRec p with scanning := false }
      ∧ v.mpWrites 0 0 [(R.NX_PORTp_ETYPE p, w32 et), (R.NX_PORTp_CFG p, (r.w 1 &&& 0x00010103#32) ||| w32 (red * 2 ^ 24))] = (e, u)
      ∧ r ∈ u.mp.requests
      ∧ et ≤ 0xFFFF
      ∧ (red < 4 ∨ red = 15)
      ∧ u.portRetired p = false :=
  ⟨9,
    mailBase [] [mailRequest 0x0701 0 [3#32, 0x00010103#32, 0#32, 15#32]],
    mailRequest 0x0701 0 [3#32, 0x00010103#32, 0#32, 15#32],
    _,
    _,
    3,
    0x88B5,
    15,
    _,
    by constructor <;> first | decide +kernel | refine ⟨?_, ?_⟩ <;> decide +kernel,
    by decide +kernel,
    by decide +kernel,
    by decide +kernel,
    by decide +kernel,
    rfl,
    eq_pair _,
    by decide +kernel⟩

theorem witness_MailboxCommandResults_27 : ∃ (mb : Fin 1024) (s : State) (r : MbRequest) (cyclic : Bool) (partner mask : Nat) (l : List Nat) (cfg : Word) (k : Nat) (u : State),
    s.MbGoes mb 0x0702 4 r
      ∧ cyclic = bit (r.w 0) 31
      ∧ partner = fld (r.w 0) 11 0
      ∧ mask = (r.w 3).toNat
      ∧ l = (List.range 4).filter (fun p => mask.testBit p)
      ∧ cyclic = false
      ∧ cfg = w32 (2 ^ 31 + b2n cyclic * 2 ^ 30 + 3 * 2 ^ 24 + s.mbClient mb.val * 2 ^ 20 + mask * 2 ^ 16 + partner)
      ∧ 1 ≤ mask
      ∧ mask < 16
      ∧ l.length ≤ 2
      ∧ s.sessionOf partner = none
      ∧ s.openSession cfg (r.w 1) (r.w 2) = some (k, u)
      ∧ r ∈ u.mp.requests :=
  ⟨9,
    mailBase [] [mailRequest 0x0702 0 [4095#32, 0#32, 0#32, 8#32]],
    mailRequest 0x0702 0 [4095#32, 0#32, 0#32, 8#32],
    false,
    4095,
    8,
    [3],
    _,
    _,
    _,
    by constructor <;> first | decide +kernel | refine ⟨?_, ?_⟩ <;> decide +kernel,
    by decide +kernel,
    by decide +kernel,
    by decide +kernel,
    by decide +kernel,
    rfl,
    rfl,
    by decide +kernel,
    by decide +kernel,
    by decide +kernel,
    by decide +kernel,
    (some_pair (h := by decide +kernel)),
    by decide +kernel⟩

theorem witness_MailboxCommandResults_28 : ∃ (mb : Fin 1024) (s : State) (r : MbRequest) (k : Nat) (u : State),
    s.MbGoes mb 0x0703 1 r
      ∧ s.sessionOf (r.w 0).toNat = some k
      ∧ u = s.closeSession k
      ∧ r ∈ u.mp.requests :=
  ⟨9,
    (mailBase [] [mailRequest 0x0703 0 [4095#32]]).setReg (R.NX_Ss_CFG 0) 0x80000FFF#32,
    mailRequest 0x0703 0 [4095#32],
    0,
    _,
    by constructor <;> first | decide +kernel | refine ⟨?_, ?_⟩ <;> decide +kernel,
    by decide +kernel,
    rfl,
    by decide +kernel⟩

theorem witness_MailboxCommandResults_29 : ∃ (mb : Fin 1024) (s : State) (r : MbRequest) (l : List (Nat × FaultRec)),
    s.MbGoes mb 0x0801 1 r
      ∧ l = ((s.faults.recs.filter (fun e => e.2.incidents != 0)).drop (r.w 0).toNat).take 512 :=
  ⟨9,
    mailBase [] [mailRequest 0x0801 0 [0#32]],
    mailRequest 0x0801 0 [0#32],
    _,
    by constructor <;> first | decide +kernel | refine ⟨?_, ?_⟩ <;> decide +kernel,
    rfl⟩

theorem witness_MailboxCommandResults_30 : ∃ (mb : Fin 1024) (s : State) (r : MbRequest) (u : State) (e : Option (Nat × BusErr)),
    s.MbGoes mb 0x0802 1 r
      ∧ s.mpWrites 0 0 [(R.FC_ACK, r.w 0)] = (e, u)
      ∧ r ∈ u.mp.requests
      ∧ (s.faultRec (r.w 0).toNat).isOpen = true :=
  ⟨9,
    { mailBase [] [mailRequest 0x0802 0 [0x110#32]] with faults := { FaultState.reset with recs := [(0x110, { FaultRec.reset with isOpen := true })] } },
    mailRequest 0x0802 0 [0x110#32],
    _,
    _,
    by constructor <;> first | decide +kernel | refine ⟨?_, ?_⟩ <;> decide +kernel,
    eq_pair _,
    by decide +kernel⟩

theorem witness_MailboxCommandResults_31 : ∃ (mb : Fin 1024) (s : State) (r : MbRequest) (u : State) (x : Nat) (e : Option (Nat × BusErr)),
    s.MbGoes mb 0x0803 1 r
      ∧ unitSource (r.w 0).toNat = some x
      ∧ s.restorable x = false
      ∧ s.mpWrites 0 0 [(R.FC_RETIRE, w32 x)] = (e, u)
      ∧ r ∈ u.mp.requests :=
  ⟨9,
    mailBase [] [mailRequest 0x0803 0 [0x40018000#32]],
    mailRequest 0x0803 0 [0x40018000#32],
    _,
    0,
    _,
    by constructor <;> first | decide +kernel | refine ⟨?_, ?_⟩ <;> decide +kernel,
    by decide +kernel,
    by decide +kernel,
    eq_pair _,
    by decide +kernel⟩

theorem witness_MailboxCommandResults_32 : ∃ (mb : Fin 1024) (s : State) (r : MbRequest) (u : State) (x : Nat),
    s.MbGoes mb 0x0804 1 r
      ∧ unitSource (r.w 0).toNat = some x
      ∧ s.restorable x = true
      ∧ s.rb R.FC_RESTORE_STATE 31 = false
      ∧ s.mpWrites 0 0 [(R.FC_RESTORE, w32 x)] = (none, u) :=
  ⟨9,
    (mailBase [] [mailRequest 0x0804 0 [0x40018000#32]]).setReg (R.IC_LE_RETIRED 0) 1#32,
    mailRequest 0x0804 0 [0x40018000#32],
    _,
    0,
    by constructor <;> first | decide +kernel | refine ⟨?_, ?_⟩ <;> decide +kernel,
    by decide +kernel,
    by decide +kernel,
    by decide +kernel,
    pairOf (by decide +kernel)⟩

theorem witness_MailboxCommandResults_33 : ∃ (mb : Fin 1024) (s : State) (r : MbRequest) (u : State) (n k : Nat),
    s.MbGoes mb 0x0805 (k + 5) r
      ∧ n = (r.w 3).toNat
      ∧ 1 ≤ n
      ∧ n ≤ 8192
      ∧ k + 1 = n
      ∧ s.snapBusy = false
      ∧ s.snap.loading = false
      ∧ s.mpWrites 0 0 ([(R.SN_COUNT, w32 n)] ++ (List.range n).map (fun i => (pairAddr i, r.w (4 + i))) ++ [(R.SN_LOAD, 1#32)]) = (none, u) :=
  ⟨9,
    mailBase [] [mailRequest 0x0805 0 [0#32, 0#32, 0#32, 1#32, 0x54000014#32]],
    mailRequest 0x0805 0 [0#32, 0#32, 0#32, 1#32, 0x54000014#32],
    _,
    1,
    0,
    by constructor <;> first | decide +kernel | refine ⟨?_, ?_⟩ <;> decide +kernel,
    by decide +kernel,
    by decide +kernel,
    by decide +kernel,
    by decide +kernel,
    by decide +kernel,
    by decide +kernel,
    pairOf (by decide +kernel)⟩

theorem witness_MailboxCommandResults_34 : ∃ (mb : Fin 1024) (s : State) (r : MbRequest) (n : Nat) (l : List Word) (w : Word) (u : State),
    s.MbGoes mb 0x0806 2 r
      ∧ n = (r.w 1).toNat
      ∧ 1 ≤ n
      ∧ n ≤ 1023
      ∧ s.drainCells (s.mbActs r) (r.w 0) n = (l, w, u)
      ∧ r ∈ u.mp.requests :=
  ⟨9,
    mailBase [] [mailRequest 0x0806 0 [0x0000000A#32, 1023#32]],
    mailRequest 0x0806 0 [0x0000000A#32, 1023#32],
    1023,
    _,
    _,
    _,
    by constructor <;> first | decide +kernel | refine ⟨?_, ?_⟩ <;> decide +kernel,
    by decide +kernel,
    by decide +kernel,
    by decide +kernel,
    eq_triple _,
    by decide +kernel⟩

theorem witness_MailboxCommandResults_35 : ∃ (mb : Fin 1024) (s : State) (r : MbRequest) (u : State) (ws : List Word) (e : Option BusErr),
    s.MbGoes mb 0x0A01 0 r
      ∧ s.mpReads 0 [R.CAL_NOW_LO, R.CAL_NOW_HI, R.CAL_UTC_OFFSET, R.CAL_VALID, R.CAL_PAIR_DT_LO, R.CAL_PAIR_DT_HI, R.CAL_PAIR_SEC, R.TB_DISC] = (ws, e, u)
      ∧ r ∈ u.mp.requests :=
  ⟨9,
    mailBase [] [mailRequest 0x0A01 0 []],
    mailRequest 0x0A01 0 [],
    _,
    _,
    _,
    by constructor <;> first | decide +kernel | refine ⟨?_, ?_⟩ <;> decide +kernel,
    eq_triple _,
    by decide +kernel⟩

theorem witness_MailboxCommandResults_36 : ∃ (mb : Fin 1024) (s : State) (r : MbRequest) (u : State) (e : Option (Nat × BusErr)),
    s.MbGoes mb 0x0A02 5 r
      ∧ s.mpWrites 0 0 ((if bit (r.w 0) 0 = true then [(R.CAL_SET_LO, r.w 1), (R.CAL_SET_HI, r.w 2)] else []) ++ (if bit (r.w 0) 1 = true then [(R.CAL_UTC_OFFSET, r.w 3), (R.CAL_LEAP_AT, r.w 4)] else [])) = (e, u)
      ∧ r ∈ u.mp.requests
      ∧ (r.w 0).toNat < 4
      ∧ r.w 2 &&& 0xFF008000#32 = 0#32 :=
  ⟨9,
    mailBase [] [mailRequest 0x0A02 0 [3#32, 1#32, 2#32, 37#32, 9#32]],
    mailRequest 0x0A02 0 [3#32, 1#32, 2#32, 37#32, 9#32],
    _,
    _,
    by constructor <;> first | decide +kernel | refine ⟨?_, ?_⟩ <;> decide +kernel,
    eq_pair _,
    by decide +kernel⟩

theorem witness_MailboxCommandResults_37 : ∃ (mb : Fin 1024) (s : State) (r : MbRequest) (p : Nat) (u : State),
    s.MbGoes mb 0x0A03 2 r
      ∧ p = (r.w 1).toNat
      ∧ (r.w 0).toNat < 4
      ∧ (p < 4 ∨ p = 15)
      ∧ s.mpWrites 0 0 [(R.TB_DISC, r.w 0)] = (none, u)
      ∧ r ∈ u.mp.requests :=
  ⟨9,
    mailBase [] [mailRequest 0x0A03 0 [3#32, 15#32]],
    mailRequest 0x0A03 0 [3#32, 15#32],
    15,
    _,
    by constructor <;> first | decide +kernel | refine ⟨?_, ?_⟩ <;> decide +kernel,
    by decide +kernel,
    by decide +kernel,
    by decide +kernel,
    pairOf (by decide +kernel),
    by decide +kernel⟩

theorem witness_MailboxCommandResults_38 : ∃ (mb : Fin 1024) (s : State) (r : MbRequest) (a : Nat) (u : State),
    s.MbGoes mb 0x0A04 4 r
      ∧ a = (r.w 0).toNat
      ∧ a < 4
      ∧ s.mpWrites 0 0 [(R.CAL_ALARMa_SEC a, r.w 1), (R.CAL_ALARMa_INTERVAL a, r.w 3), (R.CAL_ALARMa_CTRL a, r.w 2)] = (none, u)
      ∧ r ∈ u.mp.requests
      ∧ bit (r.w 2) 31 = false :=
  ⟨9,
    mailBase [] [mailRequest 0x0A04 0 [3#32, 0#32, 0#32, 0#32]],
    mailRequest 0x0A04 0 [3#32, 0#32, 0#32, 0#32],
    3,
    _,
    by constructor <;> first | decide +kernel | refine ⟨?_, ?_⟩ <;> decide +kernel,
    by decide +kernel,
    by decide +kernel,
    pairOf (by decide +kernel),
    by decide +kernel⟩

theorem witness_MailboxCommandResults_39 : ∃ (mb : Fin 1024) (s : State) (r : MbRequest) (level : Nat) (nonce : List Byte) (since : BitVec 64) (u : State),
    s.MbGoes mb 0x0B03 33 r
      ∧ level = (r.w 0).toNat
      ∧ s.barredFor = 0
      ∧ s.mp.nonce = some (nonce, since)
      ∧ u = { s with mp := { s.mp with nonce := none, barredUntil := none } }
      ∧ (s.clk.beat - since).toNat ≤ 2500000000
      ∧ (level = 1 ∨ level = 2) :=
  ⟨9,
    unlockBase,
    unlockRequest,
    2,
    [],
    0#64,
    _,
    by constructor <;> first | decide +kernel | refine ⟨?_, ?_⟩ <;> decide +kernel,
    by decide +kernel,
    by decide +kernel,
    by decide +kernel,
    rfl,
    by decide +kernel⟩

theorem witness_MailboxCommandResults_40 : ∃ (mb : Fin 1024) (s : State) (r : MbRequest),
    s.MbGoes mb 0x0B04 0 r :=
  ⟨9,
    mailBase [] [mailRequest 0x0B04 0 []],
    mailRequest 0x0B04 0 [],
    by constructor <;> first | decide +kernel | refine ⟨?_, ?_⟩ <;> decide +kernel⟩

/-- A request of mailbox 9 whose response of one cell waits. -/
def answeredRequest (since : Option (BitVec 64)) : MbRequest :=
  { mailRequest 0x0101 0 [] with answer := some ⟨0, [List.replicate 16 7#32], since⟩ }

/-- A device in which only that response waits. -/
def answerBase (since : Option (BitVec 64)) : State := mailBase [] [answeredRequest since]

theorem noneQuiet_answered (since : Option (BitVec 64)) {u : State} (h : u.mp.requests = [answeredRequest since]) : u.NoneQuiet := by
  intro y hy a ha
  rw [h, List.mem_singleton] at hy
  subst hy
  cases ha
  exact List.cons_ne_nil _ _

theorem witness_ServiceAndFlashCommands_0 : ∃ (mb : Fin 1024) (s : State) (hd : List Word) (d len : Nat) (newest : BitVec 64),
    d = s.qDepth (2 * mb.val)
      ∧ hd = s.qEntry (2 * mb.val) 0
      ∧ len = (hd.getD 1 0#32).toNat
      ∧ newest = (s.queue (2 * mb.val)).pushed.getD (d - 1) s.clk.beat
      ∧ s.mbServed mb.val = true
      ∧ d ≠ 0
      ∧ len ≤ s.mbLimit mb.val
      ∧ d < 1 + (len - 48 + 63) / 64
      ∧ 250000 ≤ (s.clk.beat - newest).toNat :=
  ⟨9,
    { mailBase [0x00070101#32, 52#32, 1#32] [] with clk := { base.clk with beat := 250001#64 } },
    _,
    1,
    52,
    1#64,
    by decide +kernel,
    rfl,
    by decide +kernel⟩

theorem witness_ServiceAndFlashCommands_1 : ∃ (mb : Fin 1024) (s : State) (r : MbRequest),
    s.mp.requests.find? (fun r => r.mb == mb.val && r.answer.isNone && r.phase == 0 && s.mbExpired r) = some r :=
  ⟨9,
    { mailBase [] [mailRequest 0x0101 2000 []] with clk := { base.clk with beat := 500000#64 } },
    mailRequest 0x0101 2000 [],
    by decide +kernel⟩

theorem witness_ServiceAndFlashCommands_2 : ∃ (mb : Fin 1024) (s : State) (r : MbRequest) (on : List Nat),
    s.mbServed mb.val = true
      ∧ s.mp.requests.filter (fun r => r.mb == mb.val && r.answer.isNone && r.phase != 0) = [r]
      ∧ r.quiet = false
      ∧ r.code = 0x0501
      ∧ on = maskCores (r.keep.getD 0 0#32)
      ∧ (∀ i ∈ on, s.rb (R.AC_CAL (i / 2) (i % 2)) 30 = false) :=
  ⟨9,
    mailBase [] [{ mailRequest 0x0501 0 [0x80000001#32] with phase := 1, keep := [0x80000000#32, 1#32] }],
    { mailRequest 0x0501 0 [0x80000001#32] with phase := 1, keep := [0x80000000#32, 1#32] },
    [31],
    by decide +kernel⟩

theorem witness_ServiceAndFlashCommands_2_restore : ∃ (mb : Fin 1024) (s : State) (r : MbRequest),
    s.mbServed mb.val = true
      ∧ s.mp.requests.filter (fun r => r.mb == mb.val && r.answer.isNone && r.phase != 0) = [r]
      ∧ r.quiet = false
      ∧ r.code = 0x0804
      ∧ s.rb R.FC_RESTORE_STATE 31 = false :=
  ⟨9,
    mailBase [] [{ mailRequest 0x0804 0 [0#32] with phase := 1 }],
    { mailRequest 0x0804 0 [0#32] with phase := 1 },
    by decide +kernel⟩

theorem witness_ServiceAndFlashCommands_2_push : ∃ (mb : Fin 1024) (s v : State) (r : MbRequest) (a : MbAnswer) (left : List (List Word)) (u : State),
    v = s.mbWaiting mb.val
      ∧ v.device = .run
      ∧ v.mbEnabled mb.val = true
      ∧ v.mp.serving = true
      ∧ v.mbNext mb.val = some (r, a)
      ∧ v.pushCells (2 * mb.val + 1) a.cells = (left, u)
      ∧ left = []
      ∧ u.NoneQuiet :=
  ⟨9,
    answerBase none,
    _,
    answeredRequest none,
    ⟨0, [List.replicate 16 7#32], none⟩,
    [],
    _,
    rfl,
    by decide +kernel,
    by decide +kernel,
    by decide +kernel,
    by decide +kernel,
    pairOf (by decide +kernel),
    rfl,
    noneQuiet_answered none (by decide +kernel)⟩

theorem witness_ServiceAndFlashCommands_3 : ∃ (mb : Fin 1024) (s : State) (r : MbRequest) (a : MbAnswer) (b : BitVec 64),
    s.mbNext mb.val = some (r, a)
      ∧ a.since = some b
      ∧ 25000000 ≤ (s.clk.beat - b).toNat
      ∧ s.NoneQuiet :=
  ⟨9,
    { answerBase (some 5#64) with clk := { base.clk with beat := 25000005#64 } },
    answeredRequest (some 5#64),
    ⟨0, [List.replicate 16 7#32], some 5#64⟩,
    5#64,
    by decide +kernel,
    by decide +kernel,
    by decide +kernel,
    noneQuiet_answered (some 5#64) (by decide +kernel)⟩

theorem witness_ServiceAndFlashCommands_4 : ∃ (load : Fin 101) (s : State),
    s.mp.serving = true :=
  ⟨100,
    mailBase [] [],
    by decide +kernel⟩

theorem witness_ServiceAndFlashCommands_5 : ∃ (s : State),
    s.mp.serving = true :=
  ⟨mailBase [] [],
    by decide +kernel⟩

theorem witness_ServiceAndFlashCommands_6 : ∃ (again : Bool) (s : State) (w : List (BitVec 64)),
    w = s.mp.window.filter (fun b => (s.clk.beat - b).toNat < 250000000)
      ∧ s.mp.serving = true
      ∧ again = false
      ∧ w.length < 16 :=
  ⟨false,
    let s := mailBase [] []; { s with mp := { s.mp with window := List.replicate 15 0#64 } },
    List.replicate 15 0#64,
    by decide +kernel⟩

theorem witness_ServiceAndFlashCommands_6_again : ∃ (again : Bool) (s : State) (w : List (BitVec 64)),
    w = s.mp.window.filter (fun b => (s.clk.beat - b).toNat < 250000000)
      ∧ s.mp.serving = true
      ∧ 16 ≤ w.length :=
  ⟨false,
    let s := mailBase [] []; { s with mp := { s.mp with window := List.replicate 16 0#64 } },
    List.replicate 16 0#64,
    by decide +kernel⟩

theorem witness_ServiceAndFlashCommands_7 : ∃ (s : State) (b : Bool),
    b = (s.mp.serving || s.mp.recovery || s.pow.booting || s.device != .run || !s.mp.restarting)
      ∧ b = false
      ∧ s.mp.loads = [] :=
  ⟨let s := mailBase [] [mailRequest 0x0101 0 []]; { s with mp := { s.mp with serving := false, restarting := true } },
    false,
    by decide +kernel⟩

theorem witness_ServiceAndFlashCommands_8 : ∃ (mb : Fin 1024) (s : State) (x : RecipeStore),
    s.storeOf mb.val = some x
      ∧ s.mp.serving = true
      ∧ 2500000000 ≤ (s.clk.beat - x.last).toNat :=
  ⟨9,
    let s := mailBase [] []; { s with mp := { s.mp with stores := [⟨9, ⟨0x11000000, 1, 1, 1, 4, 0#32, 0#32⟩, 0, [], false, false, 3#64⟩] }, clk := { s.clk with beat := 2500000003#64 } },
    ⟨9, ⟨0x11000000, 1, 1, 1, 4, 0#32, 0#32⟩, 0, [], false, false, 3#64⟩,
    by decide +kernel⟩

theorem witness_ServiceAndFlashCommands_9 : ∃ (s u : State),
    u = (s.mp.loads.filter (fun l => l.done)).foldl (fun t l => l.directs.foldl (fun t e => (t.writeAs .mp l.actDomain e.1.toNat 4 e.2).2) t) s
      ∧ s.mp.serving = true :=
  ⟨let s := mailBase [] []; { s with mp := { s.mp with loads := [⟨none, 3, 1, 9, [(0x5C000000#32, 9#32)], true⟩] } },
    _,
    rfl,
    by decide +kernel⟩

theorem witness_ServiceAndFlashCommands_10 : ∃ (s u v : State) (l : RecipeLoad) (ok : Bool),
    s.mp.autostart = 1
      ∧ s.mp.serving = true
      ∧ s.mp.loads.find? (fun l => l.mb == none && !l.done) = some l
      ∧ s.mpHaul 0 l.slot false none = (ok, u)
      ∧ v = ({ u with mp := { u.mp with autostart := (if ok = true then 2 else 3) } }.mpWrites 0 0 [(R.FB_PNg_CTRL 1023, 0#32), (R.FB_PNg_CFG 1023, 0x80000000#32)]).2 :=
  ⟨let s := mailBase [] []; { s with mp := { s.mp with autostart := 1, loads := [⟨none, 3, 1, 9, [], false⟩] } },
    _,
    _,
    ⟨none, 3, 1, 9, [], false⟩,
    _,
    by decide +kernel,
    by decide +kernel,
    by decide +kernel,
    eq_pair _,
    rfl⟩

theorem witness_ServiceAndFlashCommands_11 : ∃ (s u : State),
    s.pow.booting = true
      ∧ s.pow.thermalHold = none
      ∧ s.device = .run
      ∧ u = ({ s with pow := { s.pow with booting := false } }.takeCut 0).takeCut 1
      ∧ u.mp.cut = []
      ∧ u.rb R.PW_BOOT 0 = true :=
  ⟨({ mailBase [] [] with pow := { PowerState.reset with booting := true } }).setReg R.PW_BOOT 1#32,
    _,
    by decide +kernel,
    by decide +kernel,
    by decide +kernel,
    rfl,
    by decide +kernel⟩

theorem witness_ServiceAndFlashCommands_11_slots : ∃ (s u : State) (l : List (Bool × Bool)) (o : Option (Bool × Bool)) (v x : State),
    s.pow.booting = true
      ∧ s.pow.thermalHold = none
      ∧ s.device = .run
      ∧ u = ({ s with pow := { s.pow with booting := false } }.takeCut 0).takeCut 1
      ∧ u.mp.cut = []
      ∧ u.rb R.PW_BOOT 0 = false
      ∧ u.rb R.PW_BOOT 3 = false
      ∧ u.candidates = (l, v)
      ∧ v.firstValid l = (o, x) :=
  ⟨{ mailBase [] [] with pow := { PowerState.reset with booting := true } },
    _,
    _,
    _,
    _,
    _,
    by decide +kernel,
    by decide +kernel,
    by decide +kernel,
    rfl,
    by decide +kernel,
    by decide +kernel,
    by decide +kernel,
    eq_pair _,
    eq_pair _⟩

theorem witness_ServiceAndFlashCommands_12 : ∃ (s : State),
    s.pow.booting = false
      ∧ s.mp.recovery = false
      ∧ s.mp.started = false
      ∧ s.mp.restarting = false
      ∧ s.device = .run :=
  ⟨mailBase [] [],
    by decide +kernel⟩

theorem witness_ServiceAndFlashCommands_13 : ∃ (c : Instr) (mb : Fin 1024) (verify : Bool) (code n b : Nat) (s : State) (r : MbRequest),
    c = .fwCommit mb verify
      ∧ code = 0x0905
      ∧ n = 0
      ∧ b = b2n s.mp.slotB
      ∧ s.MbGoes mb code n r
      ∧ s.flashBusy b = true :=
  ⟨_,
    9,
    true,
    0x0905,
    0,
    0,
    { mailBase [] [mailRequest 0x0905 0 []] with flashOps := [(0, some ⟨1, 0x10000000, []⟩)] },
    mailRequest 0x0905 0 [],
    rfl,
    by decide +kernel,
    by decide +kernel,
    by decide +kernel,
    by constructor <;> first | decide +kernel | refine ⟨?_, ?_⟩ <;> decide +kernel,
    by decide +kernel⟩

theorem witness_ServiceAndFlashCommands_13_denied : ∃ (c : Instr) (mb : Fin 1024) (verify : Bool) (code n b : Nat) (s : State) (r : MbRequest),
    c = .rcpData mb verify
      ∧ code = 0x0402
      ∧ 1 ≤ n
      ∧ b = 1
      ∧ s.MbGoes mb code n r
      ∧ s.flashBusy b = false
      ∧ s.owns 0 R.FL_OWNER = false :=
  ⟨_,
    9,
    true,
    0x0402,
    1,
    1,
    (mailBase [] [mailRequest 0x0402 0 [0#32]]).setReg R.FL_OWNER 9#32,
    mailRequest 0x0402 0 [0#32],
    rfl,
    by decide +kernel,
    by decide +kernel,
    by decide +kernel,
    by constructor <;> first | decide +kernel | refine ⟨?_, ?_⟩ <;> decide +kernel,
    by decide +kernel⟩

theorem witness_ServiceAndFlashCommands_14 : ∃ (mb : Fin 1024) (s : State) (r : MbRequest) (q : State) (id len p : Nat) (v : State) (x : RecipeRecord) (e : Option Nat) (u : State),
    s.MbGoes mb 0x0401 4 r
      ∧ s.FlashGoes 1
      ∧ q = (if (s.storeOf mb.val).any (fun x => x.failed) = true then { s with mp := { s.mp with stores := s.mp.stores.filter (fun x => x.mb != mb.val) } } else s)
      ∧ id = (r.w 0).toNat
      ∧ len = (r.w 1).toNat
      ∧ id ≠ 0
      ∧ id ≠ 0xFFFFFFFF
      ∧ len % 4 = 0
      ∧ len ≤ 0x400000
      ∧ r.w 2 &&& 0x7FFFF0FE#32 = 0#32
      ∧ fld (r.w 2) 11 8 = s.mbClient mb.val
      ∧ q.storeOf mb.val = none
      ∧ q.recordRoom (recordPairs len) = (some p, v)
      ∧ r ∈ v.mp.requests
      ∧ x = ⟨0x11000000 + 8192 * p, recordPairs len, id, v.nextSeq, len, r.w 2, r.w 3⟩
      ∧ v.flashRun true [⟨false, x.addr, x.header⟩] = (e, u)
      ∧ r ∈ u.mp.requests :=
  ⟨9,
    mailBase [] [mailRequest 0x0401 0 [1#32, 0#32, 0#32, 0#32]],
    mailRequest 0x0401 0 [1#32, 0#32, 0#32, 0#32],
    _,
    1,
    0,
    0,
    _,
    _,
    _,
    _,
    by constructor <;> first | decide +kernel | refine ⟨?_, ?_⟩ <;> decide +kernel,
    by constructor <;> decide +kernel,
    rfl,
    by decide +kernel,
    by decide +kernel,
    by decide +kernel,
    by decide +kernel,
    by decide +kernel,
    by decide +kernel,
    by decide +kernel,
    by decide +kernel,
    by decide +kernel,
    pairOf (by decide +kernel),
    by decide +kernel,
    rfl,
    eq_pair _,
    by decide +kernel⟩

theorem witness_ServiceAndFlashCommands_15 : ∃ (mb : Fin 1024) (s : State) (r : MbRequest) (n : Nat) (new : List Word) (verify : Bool) (x : RecipeStore) (js : List FlashJob) (left : List Word) (o : Option Nat) (u : State),
    s.MbGoes mb 0x0402 (n + 1) r
      ∧ s.FlashGoes 1
      ∧ new = r.payload.drop 1
      ∧ s.storeOf mb.val = some x
      ∧ x.broken = false
      ∧ (r.w 0).toNat = x.got
      ∧ x.got + 4 * n ≤ x.rcd.length
      ∧ dataJobs (x.rcd.addr + 32) x.got x.tail new (x.got + 4 * n == x.rcd.length) = (js, left)
      ∧ s.flashRun verify js = (o, u)
      ∧ r ∈ u.mp.requests :=
  ⟨9,
    (mailBase [] [mailRequest 0x0402 0 [0#32, 5#32]]).setMp { (mailBase [] [mailRequest 0x0402 0 [0#32, 5#32]]).mp with stores := [⟨9, ⟨0x11000000, 1, 1, 1, 4, 0#32, 0#32⟩, 0, [], false, false, 0#64⟩] },
    mailRequest 0x0402 0 [0#32, 5#32],
    1,
    _,
    true,
    ⟨9, ⟨0x11000000, 1, 1, 1, 4, 0#32, 0#32⟩, 0, [], false, false, 0#64⟩,
    _,
    _,
    _,
    _,
    by constructor <;> first | decide +kernel | refine ⟨?_, ?_⟩ <;> decide +kernel,
    by constructor <;> decide +kernel,
    rfl,
    by decide +kernel,
    by decide +kernel,
    by decide +kernel,
    by decide +kernel,
    eq_pair _,
    eq_pair _,
    by decide +kernel⟩

theorem witness_ServiceAndFlashCommands_16 : ∃ (mb : Fin 1024) (s : State) (r : MbRequest) (verify : Bool) (x : RecipeStore) (body : List Word) (v : State) (e : Option Nat) (u : State),
    s.MbGoes mb 0x0403 0 r
      ∧ s.FlashGoes 1
      ∧ s.storeOf mb.val = some x
      ∧ x.broken = false
      ∧ x.got = x.rcd.length
      ∧ s.flashWords (x.rcd.addr + 32) (x.rcd.length / 4) = (some body, v)
      ∧ r ∈ v.mp.requests
      ∧ (bodyEntries body).2 = none
      ∧ v.flashRun verify [commitJob x.rcd body] = (e, u)
      ∧ r ∈ u.mp.requests :=
  ⟨9,
    (mailBase [] [mailRequest 0x0403 0 []]).setMp { (mailBase [] [mailRequest 0x0403 0 []]).mp with stores := [⟨9, ⟨0x11000000, 1, 1, 1, 0, 0#32, 0#32⟩, 0, [], false, false, 0#64⟩] },
    mailRequest 0x0403 0 [],
    true,
    ⟨9, ⟨0x11000000, 1, 1, 1, 0, 0#32, 0#32⟩, 0, [], false, false, 0#64⟩,
    [],
    _,
    _,
    _,
    by constructor <;> first | decide +kernel | refine ⟨?_, ?_⟩ <;> decide +kernel,
    by constructor <;> decide +kernel,
    by decide +kernel,
    by decide +kernel,
    by decide +kernel,
    pairOf (by decide +kernel),
    by decide +kernel,
    by decide +kernel,
    eq_pair _,
    Eq.mpr (congrArg (fun x : MpState => _ ∈ x.requests) (State.flashRun_mp _ _ _)) (by decide +kernel)⟩

theorem witness_ServiceAndFlashCommands_17 : ∃ (mb : Fin 1024) (s : State) (r : MbRequest) (mode : Nat) (x : RecipeRecord) (o : LoadResult) (u : State),
    s.MbGoes mb 0x0404 5 r
      ∧ mode = fld (r.w 2) 1 0
      ∧ mode ≠ 3
      ∧ s.namedRecord (r.w 0).toNat (r.w 1).toNat = some x
      ∧ s.loadRecipe (some mb.val) x (bit (r.w 2) 9) = (o, u)
      ∧ r ∈ u.mp.requests :=
  ⟨9,
    (mailBase [] [mailRequest 0x0404 0 [1#32, 0#32, 1#32, 0#32, 0#32]]).setMp { (mailBase [] [mailRequest 0x0404 0 [1#32, 0#32, 1#32, 0#32, 0#32]]).mp with records := [⟨0x11000000, 1, 1, 1, 0, 0#32, 0#32⟩] },
    mailRequest 0x0404 0 [1#32, 0#32, 1#32, 0#32, 0#32],
    1,
    ⟨0x11000000, 1, 1, 1, 0, 0#32, 0#32⟩,
    _,
    _,
    by constructor <;> first | decide +kernel | refine ⟨?_, ?_⟩ <;> decide +kernel,
    by decide +kernel,
    by decide +kernel,
    by decide +kernel,
    eq_pair _,
    by decide +kernel⟩

theorem witness_ServiceAndFlashCommands_18 : ∃ (mb : Fin 1024) (s : State) (r : MbRequest) (mode i : Nat) (ok : Bool) (u : State),
    s.MbGoes mb 0x0405 4 r
      ∧ mode = fld (r.w 1) 1 0
      ∧ s.loadedSlot mb.val (r.w 0).toNat = some i
      ∧ (mode = 1 ∨ mode = 2)
      ∧ s.mpHaul 0 i (bit (r.w 1) 8) (if mode = 2 then none else some (r.w64 2)) = (ok, u) :=
  ⟨9,
    ((mailBase [] [mailRequest 0x0405 0 [1#32, 2#32, 0#32, 0#32]]).setReg (R.EP_SLOTs_STATE 3) 0x00020001#32).setMp { ((mailBase [] [mailRequest 0x0405 0 [1#32, 2#32, 0#32, 0#32]]).setReg (R.EP_SLOTs_STATE 3) 0x00020001#32).mp with loads := [⟨some 9, 3, 1, 0, [], false⟩] },
    mailRequest 0x0405 0 [1#32, 2#32, 0#32, 0#32],
    2,
    3,
    _,
    _,
    by constructor <;> first | decide +kernel | refine ⟨?_, ?_⟩ <;> decide +kernel,
    by decide +kernel,
    by decide +kernel,
    by decide +kernel,
    eq_pair _⟩

theorem witness_ServiceAndFlashCommands_19 : ∃ (mb : Fin 1024) (s : State) (r : MbRequest) (verify : Bool) (p : Nat) (v : State) (x : RecipeRecord) (e : Option Nat) (u : State),
    s.MbGoes mb 0x0407 1 r
      ∧ s.FlashGoes 1
      ∧ s.liveRecord (r.w 0).toNat ≠ none
      ∧ s.recordRoom 1 = (some p, v)
      ∧ r ∈ v.mp.requests
      ∧ x = ⟨0x11000000 + 8192 * p, 1, (r.w 0).toNat, v.nextSeq, 0, 0x40000000#32, 0#32⟩
      ∧ v.flashRun verify [⟨false, x.addr, x.header⟩, commitJob x []] = (e, u)
      ∧ r ∈ u.mp.requests :=
  ⟨9,
    (mailBase [] [mailRequest 0x0407 0 [1#32]]).setMp { (mailBase [] [mailRequest 0x0407 0 [1#32]]).mp with records := [⟨0x11000000, 1, 1, 1, 0, 0#32, 0#32⟩] },
    mailRequest 0x0407 0 [1#32],
    true,
    1,
    _,
    _,
    _,
    _,
    by constructor <;> first | decide +kernel | refine ⟨?_, ?_⟩ <;> decide +kernel,
    by constructor <;> decide +kernel,
    by decide +kernel,
    pairOf (by decide +kernel),
    by decide +kernel,
    rfl,
    eq_pair _,
    Eq.mpr (congrArg (fun x : MpState => _ ∈ x.requests) (State.flashRun_mp _ _ _)) (by decide +kernel)⟩

theorem witness_ServiceAndFlashCommands_20 : ∃ (mb : Fin 1024) (s : State) (r : MbRequest) (verify : Bool) (v : State) (len : Nat) (c : Bool) (o : Option Nat) (u : State),
    s.MbGoes mb 0x0901 1 r
      ∧ s.FlashGoes (b2n (!s.mp.slotB))
      ∧ len = (r.w 0).toNat
      ∧ (c, v) = (if s.mp.recovery = true then (true, s) else s.marker s.mp.slotB 2)
      ∧ r ∈ v.mp.requests
      ∧ 256 ≤ len
      ∧ len ≤ 2072576
      ∧ len % 4 = 0
      ∧ c = true
      ∧ v.flashRun verify ((List.range 32).map (fun i => ⟨true, fwBase (!v.mp.slotB) + 0x10000 * i, []⟩)) = (o, u)
      ∧ r ∈ u.mp.requests :=
  ⟨9,
    (mailBase [] [mailRequest 0x0901 0 [256#32]]).setMp { (mailBase [] [mailRequest 0x0901 0 [256#32]]).mp with recovery := true },
    mailRequest 0x0901 0 [256#32],
    true,
    _,
    256,
    true,
    _,
    _,
    by constructor <;> first | decide +kernel | refine ⟨?_, ?_⟩ <;> decide +kernel,
    by constructor <;> decide +kernel,
    by decide +kernel,
    rfl,
    by decide +kernel,
    by decide +kernel,
    by decide +kernel,
    by decide +kernel,
    rfl,
    eq_pair _,
    by decide +kernel⟩

theorem witness_ServiceAndFlashCommands_21 : ∃ (mb : Fin 1024) (s : State) (r : MbRequest) (n : Nat) (verify : Bool) (x : FwUpdate) (js : List FlashJob) (left : List Word) (o : Option Nat) (u : State),
    s.MbGoes mb 0x0902 (n + 1) r
      ∧ s.FlashGoes (b2n (!s.mp.slotB))
      ∧ s.mp.update = some x
      ∧ x.verified = false
      ∧ (r.w 0).toNat = x.got
      ∧ x.got + 4 * n ≤ x.length
      ∧ dataJobs (fwBase (!s.mp.slotB)) x.got x.tail (r.payload.drop 1) (x.got + 4 * n == x.length) = (js, left)
      ∧ s.flashRun verify js = (o, u)
      ∧ r ∈ u.mp.requests :=
  ⟨9,
    (mailBase [] [mailRequest 0x0902 0 [0#32, 5#32]]).setMp { (mailBase [] [mailRequest 0x0902 0 [0#32, 5#32]]).mp with update := some ⟨4, 0, [], false⟩ },
    mailRequest 0x0902 0 [0#32, 5#32],
    1,
    true,
    ⟨4, 0, [], false⟩,
    _,
    _,
    _,
    _,
    by constructor <;> first | decide +kernel | refine ⟨?_, ?_⟩ <;> decide +kernel,
    by constructor <;> decide +kernel,
    by decide +kernel,
    by decide +kernel,
    by decide +kernel,
    by decide +kernel,
    eq_pair _,
    eq_pair _,
    by decide +kernel⟩

theorem witness_ServiceAndFlashCommands_22 : ∃ (mb : Fin 1024) (s : State) (r : MbRequest) (x : FwUpdate) (k : ImageCheck) (v : State),
    s.MbGoes mb 0x0903 0 r
      ∧ s.mp.update = some x
      ∧ x.got = x.length
      ∧ s.imageCheck (!s.mp.slotB) = (k, v)
      ∧ r ∈ v.mp.requests :=
  ⟨9,
    (mailBase [] [mailRequest 0x0903 0 []]).setMp { (mailBase [] [mailRequest 0x0903 0 []]).mp with update := some ⟨256, 256, [], false⟩ },
    mailRequest 0x0903 0 [],
    ⟨256, 256, [], false⟩,
    _,
    _,
    by constructor <;> first | decide +kernel | refine ⟨?_, ?_⟩ <;> decide +kernel,
    by decide +kernel,
    by decide +kernel,
    eq_pair _,
    by decide +kernel⟩

theorem witness_ServiceAndFlashCommands_23 : ∃ (mb : Fin 1024) (s : State) (r : MbRequest) (verify : Bool) (x : FwUpdate) (o : Option Nat) (u : State),
    s.MbGoes mb 0x0904 1 r
      ∧ s.FlashGoes (b2n (!s.mp.slotB))
      ∧ s.mp.update = some x
      ∧ x.verified = true
      ∧ s.flashRun verify [⟨false, fwMarker (!s.mp.slotB) 0, List.replicate 8 0#32⟩] = (o, u)
      ∧ r ∈ u.mp.requests :=
  ⟨9,
    (mailBase [] [mailRequest 0x0904 0 [1#32]]).setMp { (mailBase [] [mailRequest 0x0904 0 [1#32]]).mp with update := some ⟨256, 256, [], true⟩ },
    mailRequest 0x0904 0 [1#32],
    true,
    ⟨256, 256, [], true⟩,
    _,
    _,
    by constructor <;> first | decide +kernel | refine ⟨?_, ?_⟩ <;> decide +kernel,
    by constructor <;> decide +kernel,
    by decide +kernel,
    by decide +kernel,
    eq_pair _,
    by decide +kernel⟩

theorem witness_ServiceAndFlashCommands_24 : ∃ (mb : Fin 1024) (s : State) (r : MbRequest) (verify : Bool) (v : State) (m : Nat) (o : Option Nat) (u : State) (w : Word) (p q : State),
    s.MbGoes mb 0x0905 0 r
      ∧ s.FlashGoes (b2n s.mp.slotB)
      ∧ s.markers s.mp.slotB = (m, v)
      ∧ r ∈ v.mp.requests
      ∧ m = 3
      ∧ v.flashRun verify [⟨false, fwMarker v.mp.slotB 2, List.replicate 8 0#32⟩] = (o, u)
      ∧ r ∈ u.mp.requests
      ∧ o = none
      ∧ u.fwWord v.mp.slotB 2 = (w, p)
      ∧ q = { p with mp := { p.mp with rollback := max p.mp.rollback (min 64 w.toNat) } }.lockSlot v.mp.slotB
      ∧ r ∈ q.mp.requests :=
  ⟨9,
    ((mailBase [] [mailRequest 0x0905 0 []]).storeWords (fwMarker false 0) [0#32]).storeWords (fwMarker false 1) [0#32],
    mailRequest 0x0905 0 [],
    true,
    _,
    3,
    none,
    _,
    _,
    _,
    _,
    by constructor <;> first | decide +kernel | refine ⟨?_, ?_⟩ <;> decide +kernel,
    by constructor <;> decide +kernel,
    pairOf (by decide +kernel),
    by decide +kernel,
    rfl,
    pairOf (by decide +kernel),
    by decide +kernel,
    rfl,
    eq_pair _,
    rfl,
    by decide +kernel⟩

theorem witness_ServiceAndFlashCommands_25 : ∃ (mb : Fin 1024) (s : State) (r : MbRequest) (a b : List Word) (u v : State),
    s.MbGoes mb 0x0906 0 r
      ∧ s.slotWords false = (a, u)
      ∧ u.slotWords true = (b, v)
      ∧ r ∈ v.mp.requests :=
  ⟨9,
    mailBase [] [mailRequest 0x0906 0 []],
    mailRequest 0x0906 0 [],
    _,
    _,
    _,
    _,
    by constructor <;> first | decide +kernel | refine ⟨?_, ?_⟩ <;> decide +kernel,
    eq_pair _,
    eq_pair _,
    by decide +kernel⟩

end Sys2Proof.Tests
end

section
/-!
Proofs for the calendar's offset change (R48): LEAP_OFFSET_CHANGE as a total operation over the state, what it does to
each register, and its frame.
-/
namespace Sys2Proof.Machine
open Sys2Proof

/-! ### Frames of register stores -/

/-- A new register file leaves every other part of the state. -/
theorem sameBut_regs_with_regs (s : State) (r : Store Word) : SameBut [.regs] s { s with regs := r } := by
  intro p hp
  cases p
  case regs => exact absurd (List.mem_singleton_self _) hp
  all_goals rfl

/-! ### LEAP_OFFSET_CHANGE (R48) -/

/-- SECONDS has reached a change of the offset that is pending. -/
def State.LeapReached (s : State) : Prop :=
  s.reg R.CAL_LEAP_AT ≠ 0#32 ∧ (s.reg R.CAL_LEAP_AT).toNat = s.clk.seconds

/-- The state after the change: OFFSET holds NEXT, and no change is pending. -/
def State.offsetChanged (s : State) : State :=
  (s.setRf R.CAL_UTC_OFFSET 15 0 (s.rf R.CAL_UTC_OFFSET 31 16)).setReg R.CAL_LEAP_AT 0#32

theorem exec_leapOffsetChange (s : State) :
    exec .leapOffsetChange s = execLeapOffsetChange s := rfl

theorem exec_leapOffsetChange_of_reached {s : State} (h : s.LeapReached) :
    exec .leapOffsetChange s = .next s.offsetChanged := by
  obtain ⟨pending, reached⟩ := h
  simp [exec_leapOffsetChange, execLeapOffsetChange, State.offsetChanged, pending, reached]

theorem exec_leapOffsetChange_of_not_reached {s : State} (h : ¬ s.LeapReached) :
    exec .leapOffsetChange s = .next s := by
  have guard : ¬ (s.reg R.CAL_LEAP_AT != 0#32 && (s.reg R.CAL_LEAP_AT).toNat == s.clk.seconds) = true := by
    simpa [State.LeapReached] using h
  rw [exec_leapOffsetChange, execLeapOffsetChange, if_neg guard]

/-- CAL_UTC_OFFSET takes its own upper half into the lower one. -/
theorem State.offsetChanged_utcOffset (s : State) :
    s.offsetChanged.reg R.CAL_UTC_OFFSET
      = setFld (s.reg R.CAL_UTC_OFFSET) 15 0 (s.rf R.CAL_UTC_OFFSET 31 16) := by
  have apart : R.CAL_UTC_OFFSET ≠ R.CAL_LEAP_AT := by decide
  simp [State.offsetChanged, apart]

theorem State.offsetChanged_offset (s : State) :
    s.offsetChanged.rf R.CAL_UTC_OFFSET 15 0 = s.rf R.CAL_UTC_OFFSET 31 16 := by
  have fits : s.rf R.CAL_UTC_OFFSET 31 16 < 2 ^ 16 := fld_lt _ 31 16
  rw [State.rf, State.offsetChanged_utcOffset, fld_setFld _ _ _ _ (by decide), Nat.mod_eq_of_lt fits]

theorem State.offsetChanged_next (s : State) :
    s.offsetChanged.rf R.CAL_UTC_OFFSET 31 16 = s.rf R.CAL_UTC_OFFSET 31 16 := by
  rw [State.rf, State.offsetChanged_utcOffset]
  exact fld_setFld_of_disjoint _ _ _ _ _ _ (by decide) (.inr (by decide))

theorem State.offsetChanged_leapAt (s : State) : s.offsetChanged.reg R.CAL_LEAP_AT = 0#32 := by
  simp [State.offsetChanged]

theorem State.offsetChanged_regsBut (s : State) :
    RegsBut [R.CAL_UTC_OFFSET, R.CAL_LEAP_AT] s s.offsetChanged := by
  intro a ha
  obtain ⟨notOffset, notLeap⟩ : a ≠ R.CAL_UTC_OFFSET ∧ a ≠ R.CAL_LEAP_AT := by simpa using ha
  simp [State.offsetChanged, notOffset, notLeap]

theorem State.offsetChanged_sameBut (s : State) : SameBut [.regs] s s.offsetChanged :=
  sameBut_regs_with_regs s _

/-- Settles O17: by cases on whether SECONDS has reached the pending CAL_LEAP_AT, the state after is `offsetChanged`
or the state before. -/
theorem leapOffsetTakesNext : Obligations.LeapOffsetTakesNext := by
  refine ⟨fun s pending reached => ?reached, fun s idle => ?notReached⟩
  case reached =>
    exact ⟨s.offsetChanged, exec_leapOffsetChange_of_reached ⟨pending, reached⟩, s.offsetChanged_offset,
      s.offsetChanged_next, s.offsetChanged_leapAt, s.offsetChanged_regsBut, s.offsetChanged_sameBut⟩
  case notReached =>
    exact exec_leapOffsetChange_of_not_reached fun ⟨pending, reached⟩ => idle.elim pending (· reached)

end Sys2Proof.Machine
end

section
/-!
Frames: how "every part but" and "every register but" compose, and what the shared operations on registers, status flags,
pulse lines, caches and memory words leave as it was.
-/
namespace Sys2Proof.Machine
open Sys2Proof

/-! ### Composition of frames -/

theorem Part.same_trans {s t u : State} {p : Part} (h : p.same s t) (k : p.same t u) : p.same s u := by
  cases p <;> exact Eq.trans k h

theorem SameBut.refl (l : List Part) (s : State) : SameBut l s s := fun p _ => by cases p <;> rfl

theorem SameBut.trans {l : List Part} {s t u : State} (h : SameBut l s t) (k : SameBut l t u) : SameBut l s u :=
  fun p hp => Part.same_trans (h p hp) (k p hp)

theorem SameBut.mono {l l' : List Part} {s t : State} (h : SameBut l s t) (sub : l ⊆ l') : SameBut l' s t :=
  fun p hp => h p fun hl => hp (sub hl)

theorem SameBut.foldl {α : Type} {l : List Part} {f : State → α → State} (hf : ∀ s x, SameBut l s (f s x)) :
    ∀ (xs : List α) (s : State), SameBut l s (xs.foldl f s)
  | [], s => .refl l s
  | x :: xs, s => (hf s x).trans (SameBut.foldl hf xs (f s x))

theorem RegsBut.refl (l : List Nat) (s : State) : RegsBut l s s := fun _ _ => rfl

theorem RegsBut.trans {l : List Nat} {s t u : State} (h : RegsBut l s t) (k : RegsBut l t u) : RegsBut l s u :=
  fun a ha => (k a ha).trans (h a ha)

theorem RegsBut.mono {l l' : List Nat} {s t : State} (h : RegsBut l s t) (sub : l ⊆ l') : RegsBut l' s t :=
  fun a ha => h a fun hl => ha (sub hl)

/-- A frame that holds the register file gives every register. -/
theorem SameBut.reg_eq {l : List Part} {s t : State} (h : SameBut l s t) (keeps : Part.regs ∉ l) (a : Nat) :
    t.reg a = s.reg a := congrArg (Store.get regReset a) (h .regs keeps)

theorem SameBut.regsBut {l : List Part} {s t : State} (h : SameBut l s t) (keeps : Part.regs ∉ l) (k : List Nat) :
    RegsBut k s t := fun a _ => h.reg_eq keeps a

/-- A frame that holds memory gives every byte. -/
theorem SameBut.byte_eq {l : List Part} {s t : State} (h : SameBut l s t) (keeps : Part.mem ∉ l) (a : Nat) :
    t.byte a = s.byte a := congrArg (Store.get memReset a) (h .mem keeps)

/-! ### Frames of the shared operations -/

theorem State.setReg_sameBut (s : State) (a : Nat) (v : Word) : SameBut [.regs] s (s.setReg a v) :=
  sameBut_regs_with_regs s _

theorem State.setReg_regsBut (s : State) (a : Nat) (v : Word) : RegsBut [a] s (s.setReg a v) := by
  intro b hb
  rw [State.reg_setReg, if_neg (by simpa using hb)]

theorem State.flag_sameBut (s : State) (a i : Nat) : SameBut [.regs, .scCount] s (s.flag a i) := by
  intro p hp
  cases p
  case regs | scCount => exact absurd hp (by decide)
  all_goals simp [Part.same]

theorem State.flag_regsBut (s : State) (a i : Nat) : RegsBut [a] s (s.flag a i) := fun _ hb =>
  State.reg_flag_ne s a i (by simpa using hb)

theorem State.answer_sameBut (s : State) (m : Master) (r : BusResult) : SameBut [.reply] s (s.answer m r) := by
  intro p hp
  cases p
  case reply => exact absurd hp (by decide)
  all_goals rfl

theorem State.fireCentral_sameBut (s : State) (j : Nat) : SameBut [.due, .pulses] s (s.fireCentral j) := by
  intro p hp
  unfold State.fireCentral State.fire State.tellLine
  cases p
  case due | pulses => exact absurd hp (by decide)
  all_goals dsimp only [Part.same]; split <;> rfl

theorem State.setCoreRec_sameBut (s : State) (n : Nat) (r : CoreRec) : SameBut [.cores] s (s.setCoreRec n r) := by
  intro p hp
  cases p
  case cores => exact absurd hp (by decide)
  all_goals rfl

theorem State.freeBit_sameBut (s : State) : SameBut [.freeCtr] s s.freeBit.2 := by
  intro p hp
  cases p
  case freeCtr => exact absurd hp (by decide)
  all_goals rfl

theorem State.markStale_sameBut (s : State) (n a : Nat) : SameBut [.cores, .freeCtr] s (s.markStale n a) := by
  have free : SameBut [.cores, .freeCtr] s s.freeBit.2 := s.freeBit_sameBut.mono (by decide)
  unfold State.markStale
  dsimp only
  split
  · exact (State.setCoreRec_sameBut _ _ _).mono (by decide)
  · split
    · exact free
    · exact free.trans ((State.setCoreRec_sameBut _ _ _).mono (by decide))

/-- What another master's data cache may go on holding is all that a change of memory does to the cores (R299). -/
theorem State.cachesMiss_sameBut (s : State) (w : Option Nat) (l : List Nat) :
    SameBut [.cores, .freeCtr] s (s.cachesMiss w l) := by
  refine SameBut.foldl (fun t n => ?_) _ s
  split
  · exact .refl _ t
  · split
    · exact SameBut.foldl (fun u a => (State.setCoreRec_sameBut u n _).mono (by decide)) l t
    · exact SameBut.foldl (fun u a => State.markStale_sameBut u n a) l t

/-! ### Words of memory -/

theorem State.setByte_sameBut (s : State) (a : Nat) (b : Byte) : SameBut [.mem] s (s.setByte a b) := by
  intro p hp
  cases p
  case mem => exact absurd hp (by decide)
  all_goals rfl

theorem State.storeBytes_sameBut : ∀ (l : List Byte) (a : Nat) (s : State), SameBut [.mem] s (s.storeBytes a l)
  | [], _, s => .refl _ s
  | b :: l, a, s => (s.setByte_sameBut a b).trans (State.storeBytes_sameBut l (a + 1) (s.setByte a b))

theorem State.setMword_sameBut (s : State) (a : Nat) (w : Word) : SameBut [.mem, .ecc] s (s.setMword a w) := by
  refine ((State.storeBytes_sameBut (bytesOfWord w) a s).mono (by decide)).trans fun p hp => ?_
  cases p
  case mem | ecc => exact absurd hp (by decide)
  all_goals rfl

/-- What a byte of memory reads as after a store of bytes. -/
theorem State.byte_storeBytes : ∀ (l : List Byte) (a b : Nat) (s : State),
    (s.storeBytes a l).byte b = if a ≤ b ∧ b < a + l.length then l.getD (b - a) 0#8 else s.byte b
  | [], a, b, s => by
    rw [if_neg (by simp)]
    rfl
  | x :: l, a, b, s => by
    rw [State.storeBytes, State.byte_storeBytes l, State.byte_setByte, List.length_cons]
    rcases Nat.lt_trichotomy b a with h | h | h
    · rw [if_neg (by omega), if_neg (by omega), if_neg (by omega)]
    · subst h
      rw [if_neg (by omega), if_pos rfl, if_pos (by omega), Nat.sub_self, List.getD_cons_zero]
    · obtain ⟨k, rfl⟩ := Nat.exists_eq_add_of_lt h
      have eq : a + k + 1 - a = k + 1 := by omega
      have eq' : a + k + 1 - (a + 1) = k := by omega
      rw [eq, eq', List.getD_cons_succ]
      congr 1
      · simp; omega
      · rw [if_neg (by omega)]

/-- What a byte of memory reads as after a store of a word. -/
theorem State.byte_setMword (s : State) (a : Nat) (w : Word) (b : Nat) :
    (s.setMword a w).byte b = if a ≤ b ∧ b < a + 4 then (bytesOfWord w).getD (b - a) 0#8 else s.byte b :=
  State.byte_storeBytes (bytesOfWord w) a b s

end Sys2Proof.Machine
end

section
/-!
GO and STOP of a DMA channel (R353): what a write to a channel's registers does, the operations that start, halt, stop and
pump a channel, and the response of a channel that stops.
-/
namespace Sys2Proof.Machine
open Sys2Proof

/-! ### Reads of a channel after updates -/

@[simp] theorem State.dma_setDma (s : State) (c : Nat) (r : DmaRec) (d : Nat) :
    (s.setDma c r).dma d = if d = c then r else s.dma d := by
  simp [State.dma, State.setDma, Store.get_set]

theorem State.setDma_sameBut (s : State) (c : Nat) (r : DmaRec) : SameBut [.dmas] s (s.setDma c r) := by
  intro p hp
  cases p
  case dmas => exact absurd hp (by decide)
  all_goals rfl

/-- A frame that holds the records of the channels gives each of them. -/
theorem SameBut.dma_eq {l : List Part} {s t : State} (h : SameBut l s t) (keeps : Part.dmas ∉ l) (c : Nat) :
    t.dma c = s.dma c := congrArg (Store.get (fun _ => DmaRec.reset) c) (h .dmas keeps)

theorem State.dmaState_congr {s t : State} {c : Nat} (h : t.reg (R.DMA_CHc_CTRL c) = s.reg (R.DMA_CHc_CTRL c)) :
    t.dmaState c = s.dmaState c := by
  rw [State.dmaState, State.rf, h, State.dmaState, State.rf]

theorem State.dmaState_of_ctrl {s : State} {c v : Nat} (h : s.reg (R.DMA_CHc_CTRL c) = w32 v) (small : v < 4) :
    s.dmaState c = v := by
  have low : v % 2 ^ 32 % 4 = v := by omega
  simpa [State.dmaState, State.rf, h, fld, w32] using low

theorem State.dmaCount_of_reg {s : State} {c k : Nat} (h : s.reg (R.DMA_CHc_COUNT c) = w32 k) (small : k < 2 ^ 32) :
    s.dmaCount c = k := by
  rw [State.dmaCount, h, w32, BitVec.toNat_ofNat, Nat.mod_eq_of_lt small]

/-! ### The registers of a channel -/

/-- Registers that show how far a channel has come; the rest of its registers are its owner and its descriptor. -/
def dmaRunRegs (c : Nat) : List Nat :=
  [R.DMA_CHc_CTRL c, R.DMA_CHc_COUNT c, R.DMA_CHc_DESC c, R.DMA_CHc_STATUS c, R.DMA_CHc_ERR c]

/-- The registers of a descriptor read in `t` as in `s`. -/
def SameDesc (c : Nat) (s t : State) : Prop := ∀ a ∈ dmaDescRegs c, t.reg a = s.reg a

/-- Where a descriptor's register stands among those of its channel. -/
theorem mem_dmaDescRegs {a c : Nat} (h : a ∈ dmaDescRegs c) :
    ∃ o, 1 ≤ o ∧ o ≤ 8 ∧ a = R.DMA_CHc_OWNER c + 4 * o := by
  simp only [dmaDescRegs, R.DMA_CHc_CFG, R.DMA_CHc_SRC, R.DMA_CHc_SRC_SHAPE, R.DMA_CHc_SRC_STRIDE, R.DMA_CHc_DST,
    R.DMA_CHc_DST_SHAPE, R.DMA_CHc_DST_STRIDE, R.DMA_CHc_NEXT, List.mem_cons, List.not_mem_nil, or_false] at h
  refine ⟨(a - R.DMA_CHc_OWNER c) / 4, ?_⟩
  unfold R.DMA_CHc_OWNER
  omega

theorem not_mem_dmaRunRegs_of_desc {a c : Nat} (h : a ∈ dmaDescRegs c) : a ∉ dmaRunRegs c := by
  obtain ⟨o, low, high, rfl⟩ := mem_dmaDescRegs h
  simp only [dmaRunRegs, R.DMA_CHc_OWNER, R.DMA_CHc_CTRL, R.DMA_CHc_COUNT, R.DMA_CHc_DESC, R.DMA_CHc_STATUS,
    R.DMA_CHc_ERR, List.mem_cons, List.not_mem_nil, or_false]
  omega

theorem RegsBut.sameDesc {c : Nat} {s t : State} (h : RegsBut (dmaRunRegs c) s t) : SameDesc c s t :=
  fun a ha => h a (not_mem_dmaRunRegs_of_desc ha)

section
variable {s t : State} {c : Nat} (h : SameDesc c s t)
include h

theorem SameDesc.dmaSize_eq : t.dmaSize c = s.dmaSize c := by
  rw [State.dmaSize, State.rb, h _ (by simp [dmaDescRegs]), State.dmaSize, State.rb]

theorem SameDesc.dmaMode_eq : t.dmaMode c = s.dmaMode c := by
  rw [State.dmaMode, State.rf, h _ (by simp [dmaDescRegs]), State.dmaMode, State.rf]

theorem SameDesc.dmaTotal_eq : t.dmaTotal c = s.dmaTotal c := by
  rw [State.dmaTotal, h _ (by simp [dmaDescRegs]), State.dmaTotal]

theorem SameDesc.dmaCheck_eq : t.dmaCheck c = s.dmaCheck c := by
  have checked : ∀ a ∈ [R.DMA_CHc_SRC c, R.DMA_CHc_DST c, R.DMA_CHc_SRC_STRIDE c, R.DMA_CHc_DST_STRIDE c],
      t.reg a = s.reg a := fun a ha => h a (by simp only [dmaDescRegs, List.mem_cons] at ha ⊢; tauto)
  have found := List.find?_congr (p₁ := fun a => (t.reg a).toNat % s.dmaSize c != 0)
    (p₂ := fun a => (s.reg a).toNat % s.dmaSize c != 0) fun a ha => by rw [checked a ha]
  have shape := h (R.DMA_CHc_DST_SHAPE c) (by simp [dmaDescRegs])
  simp only [State.dmaCheck, h.dmaSize_eq, h.dmaTotal_eq, found, shape]
  split
  next a misaligned => rw [checked a (List.mem_of_find?_eq_some misaligned)]
  next => rfl

end

/-- The elements of a descriptor can be counted in DMA_CHc_COUNT, but for the very last of the largest. -/
theorem State.dmaTotal_le (s : State) (c : Nat) : s.dmaTotal c ≤ 2 ^ 32 := by
  have len := fld_lt (s.reg (R.DMA_CHc_SRC_SHAPE c)) 15 0
  have lines := fld_lt (s.reg (R.DMA_CHc_SRC_SHAPE c)) 31 16
  calc s.dmaTotal c ≤ 2 ^ 16 * 2 ^ 16 := Nat.mul_le_mul len lines
    _ = 2 ^ 32 := by norm_num

/-! ### Writes to a channel's registers -/

/-- The owner of a channel decides over all its registers (R18). -/
theorem ownerReg_dma {c o : Nat} (hc : c < 64) (ho : o < 16) :
    ownerReg .dma (R.DMA_CHc_OWNER c + 4 * o) = R.DMA_CHc_OWNER c := by
  have notBlock : ¬ (R.DMA_CHc_OWNER c + 4 * o) % 0x1000000 < 0x1000 := by simp only [R.DMA_CHc_OWNER]; omega
  simp only [ownerReg, if_neg notBlock]
  simp only [R.DMA_CHc_OWNER]
  omega

theorem State.writeReg_dma {s : State} {d : Nat} {r : RegRow} {a : Nat} {v : Word}
    (access : r.access = .ow ∨ r.access = .rw ∨ r.access = .wo) (notOwner : a ≠ ownerReg .dma a) :
    s.writeReg d .dma r a v = (.done, s.dmaWrite r a v) := by
  obtain e | e | e := access <;> simp [State.writeReg, e, State.engineDrops, notOwner]

theorem State.dmaWrite_ctrl (s : State) (r : RegRow) (c : Nat) (v : Word) :
    s.dmaWrite r (R.DMA_CHc_CTRL c) v = s.dmaCtrlWrite c v := by
  have channel : (R.DMA_CHc_CTRL c - R.DMA_CHc_OWNER 0) / 64 = c := by
    simp only [R.DMA_CHc_CTRL, R.DMA_CHc_OWNER]; omega
  have notBlock : ¬ R.DMA_CHc_CTRL c < R.DMA_CHc_OWNER 0 := by simp only [R.DMA_CHc_CTRL, R.DMA_CHc_OWNER]; omega
  simp only [State.dmaWrite, channel, if_neg notBlock, if_true]

theorem State.dmaWrite_desc {s : State} {r : RegRow} {a c : Nat} {v : Word} (h : a ∈ dmaDescRegs c) :
    s.dmaWrite r a v = s.dmaCfgWrite c a ((s.reg a &&& ~~~ r.wmask) ||| (v &&& r.wmask)) := by
  obtain ⟨o, low, high, rfl⟩ := mem_dmaDescRegs h
  have channel : (R.DMA_CHc_OWNER c + 4 * o - R.DMA_CHc_OWNER 0) / 64 = c := by
    simp only [R.DMA_CHc_OWNER]; omega
  have notBlock : ¬ R.DMA_CHc_OWNER c + 4 * o < R.DMA_CHc_OWNER 0 := by simp only [R.DMA_CHc_OWNER]; omega
  have notCtrl : R.DMA_CHc_OWNER c + 4 * o ≠ R.DMA_CHc_CTRL c := by
    simp only [R.DMA_CHc_CTRL, R.DMA_CHc_OWNER]; omega
  have notOwner : R.DMA_CHc_OWNER c + 4 * o ≠ R.DMA_CHc_OWNER c := by omega
  simp only [State.dmaWrite, channel, if_neg notBlock, if_neg notCtrl, if_neg notOwner]

section
variable {s : State} {m : Master} {r : RegRow} {c : Fin 64}

/-- A word written to DMA_CHc_CTRL that nothing refuses. -/
theorem State.writeCmd_dmaCtrl (h : s.Writes m .dma r (R.DMA_CHc_CTRL c.val)) (v : Word) :
    s.writeCmd m (R.DMA_CHc_CTRL c.val) 4 v = .next ((s.dmaCtrlWrite c.val v).answer m .done) := by
  have owner : R.DMA_CHc_CTRL c.val ≠ ownerReg .dma (R.DMA_CHc_CTRL c.val) := by
    have place : R.DMA_CHc_CTRL c.val = R.DMA_CHc_OWNER c.val + 4 * 9 := by
      simp only [R.DMA_CHc_CTRL, R.DMA_CHc_OWNER]; omega
    rw [place, ownerReg_dma c.isLt (by decide)]
    omega
  have aligned : R.DMA_CHc_CTRL c.val % 4 = 0 := by simp only [R.DMA_CHc_CTRL]; omega
  exact State.writeCmd_eq h aligned v (by rw [State.writeReg_dma h.access owner, State.dmaWrite_ctrl])

/-- A word written to a register of a descriptor that nothing refuses. -/
theorem State.writeCmd_dmaDesc {a : Nat} (ha : a ∈ dmaDescRegs c.val) (h : s.Writes m .dma r a) (v : Word) :
    s.writeCmd m a 4 v
      = .next ((s.dmaCfgWrite c.val a ((s.reg a &&& ~~~ r.wmask) ||| (v &&& r.wmask))).answer m .done) := by
  obtain ⟨owner, aligned⟩ : a ≠ ownerReg .dma a ∧ a % 4 = 0 := by
    obtain ⟨o, low, high, rfl⟩ := mem_dmaDescRegs ha
    rw [ownerReg_dma c.isLt (by omega)]
    simp only [R.DMA_CHc_OWNER]
    omega
  exact State.writeCmd_eq h aligned v (by rw [State.writeReg_dma h.access owner, State.dmaWrite_desc ha])

end

/-! ### Issuing -/

/-- What issuing may do to a state: change the elements issued and what the triggers still allow, of one channel. -/
theorem State.dmaPump_induct {P : State → Prop} {c : Nat}
    (issue : ∀ u n a, P u → P (u.setDma c { u.dma c with issued := n, allow := a })) :
    ∀ (k : Nat) (s : State), P s → P (s.dmaPump c k)
  | 0, _, h => h
  | k + 1, s, h => by
    rw [State.dmaPump]
    split
    · exact h
    · split
      · exact h
      · exact State.dmaPump_induct issue k _ (issue s _ _ h)
      · exact State.dmaPump_induct issue k _ (issue s _ (s.dma c).allow h)

theorem State.dmaPump_sameBut (s : State) (c k : Nat) : SameBut [.dmas] s (s.dmaPump c k) :=
  State.dmaPump_induct (P := SameBut [.dmas] s) (fun u _ _ h => h.trans (u.setDma_sameBut c _)) k s (.refl _ s)

theorem State.dmaPump_stopping (s : State) (c k : Nat) : ((s.dmaPump c k).dma c).stopping = (s.dma c).stopping :=
  State.dmaPump_induct (P := fun t => (t.dma c).stopping = (s.dma c).stopping) (fun u _ _ h => by simpa using h) k s rfl

theorem State.dmaPump_of_stopping {s : State} {c : Nat} (h : (s.dma c).stopping = true) (k : Nat) :
    s.dmaPump c k = s := by
  cases k with
  | zero => rfl
  | succ k => simp [State.dmaPump, h]

theorem State.dmaTrigger_of_stopping {s : State} {c : Nat} (h : (s.dma c).stopping = true) : s.dmaTrigger c = s := by
  simp [State.dmaTrigger, h]

/-! ### Halting and stopping -/

theorem State.setDmaState_sameBut (s : State) (c v : Nat) : SameBut [.regs] s (s.setDmaState c v) :=
  s.setReg_sameBut _ _

theorem State.setDmaState_regsBut (s : State) (c v : Nat) : RegsBut [R.DMA_CHc_CTRL c] s (s.setDmaState c v) :=
  s.setReg_regsBut _ _

theorem State.setDma_reg (s : State) (c : Nat) (r : DmaRec) (a : Nat) : (s.setDma c r).reg a = s.reg a := rfl

theorem State.dmaHalt_sameBut (s : State) (c f : Nat) (v : Word) :
    SameBut [.regs, .scCount, .dmas] s (s.dmaHalt c f v) :=
  ((((s.setDmaState_sameBut c 3).trans (State.setReg_sameBut _ _ v)).mono (by decide)).trans
    ((State.flag_sameBut _ _ f).mono (by decide))).trans ((State.setDma_sameBut _ c _).mono (by decide))

theorem State.dmaHalt_regsBut (s : State) (c f : Nat) (v : Word) :
    RegsBut [R.DMA_CHc_CTRL c, R.DMA_CHc_STATUS c, R.DMA_CHc_ERR c] s (s.dmaHalt c f v) :=
  (((s.setDmaState_regsBut c 3).mono (by simp)).trans ((State.setReg_regsBut _ _ v).mono (by simp))).trans
    ((State.flag_regsBut _ _ f).mono (by simp))

theorem State.dmaState_dmaHalt (s : State) (c f : Nat) (v : Word) : (s.dmaHalt c f v).dmaState c = 3 := by
  refine State.dmaState_of_ctrl ?_ (by decide)
  simp [State.dmaHalt, State.setDma_reg, State.reg_flag_ne, State.setDmaState, R.DMA_CHc_CTRL, R.DMA_CHc_ERR,
    R.DMA_CHc_STATUS]

theorem State.dmaHalt_err (s : State) (c f : Nat) (v : Word) : (s.dmaHalt c f v).reg (R.DMA_CHc_ERR c) = v := by
  simp [State.dmaHalt, State.setDma_reg, State.reg_flag_ne, R.DMA_CHc_ERR, R.DMA_CHc_STATUS]

theorem State.dmaHalt_flag (s : State) (c : Nat) {f : Nat} (v : Word) (hf : f < 32) :
    (s.dmaHalt c f v).rb (R.DMA_CHc_STATUS c) f = true :=
  State.rb_flag_self ((s.setDmaState c 3).setReg (R.DMA_CHc_ERR c) v) _ f hf

theorem State.dmaStopped_sameBut (s : State) (c : Nat) : SameBut [.regs, .scCount, .dmas] s (s.dmaStopped c) :=
  (((s.setDmaState_sameBut c 0).mono (by decide)).trans ((State.setDma_sameBut _ c _).mono (by decide))).trans
    ((State.flag_sameBut _ _ 2).mono (by decide))

theorem State.dmaStopped_regsBut (s : State) (c : Nat) :
    RegsBut [R.DMA_CHc_CTRL c, R.DMA_CHc_STATUS c] s (s.dmaStopped c) :=
  ((s.setDmaState_regsBut c 0).mono (by simp)).trans
    ((State.flag_regsBut ((s.setDmaState c 0).setDma c .reset) _ 2).mono (by simp))

theorem State.dmaState_dmaStopped (s : State) (c : Nat) : (s.dmaStopped c).dmaState c = 0 := by
  refine State.dmaState_of_ctrl ?_ (by decide)
  simp [State.dmaStopped, State.setDma_reg, State.reg_flag_ne, State.setDmaState, R.DMA_CHc_CTRL, R.DMA_CHc_STATUS]

theorem State.dmaStopped_flag (s : State) (c : Nat) : (s.dmaStopped c).rb (R.DMA_CHc_STATUS c) 2 = true :=
  State.rb_flag_self _ _ 2 (by decide)

/-- The flags that the checks of a descriptor set are flags of DMA_CHc_STATUS (R348). -/
theorem State.dmaCheck_flag {s : State} {c f : Nat} {a : Word} (h : s.dmaCheck c = some (f, a)) : f < 32 := by
  simp only [State.dmaCheck] at h
  split at h
  next => cases h; decide
  next =>
    split at h
    · cases h; decide
    · cases h

/-! ### Starting -/

/-- A channel with its progress cleared. -/
def State.dmaCleared (s : State) (c : Nat) : State := (s.setReg (R.DMA_CHc_DESC c) 0#32).setReg (R.DMA_CHc_COUNT c) 0#32

/-- A channel that has started, before it issues. -/
def State.dmaStarted (s : State) (c : Nat) : State :=
  ((s.dmaCleared c).setDma c { DmaRec.reset with allow := if s.dmaMode c = 0 then none else some 0 }).setDmaState c
    (if s.dmaMode c = 0 then 1 else 2)

theorem State.dmaCleared_sameBut (s : State) (c : Nat) : SameBut [.regs] s (s.dmaCleared c) :=
  (s.setReg_sameBut _ _).trans (State.setReg_sameBut _ _ _)

theorem State.dmaCleared_regsBut (s : State) (c : Nat) :
    RegsBut [R.DMA_CHc_COUNT c, R.DMA_CHc_DESC c] s (s.dmaCleared c) :=
  ((s.setReg_regsBut _ _).mono (by simp)).trans ((State.setReg_regsBut _ _ _).mono (by simp))

theorem State.dmaCleared_count (s : State) (c : Nat) : (s.dmaCleared c).reg (R.DMA_CHc_COUNT c) = 0#32 := by
  simp [State.dmaCleared]

theorem State.dmaCleared_desc (s : State) (c : Nat) : (s.dmaCleared c).reg (R.DMA_CHc_DESC c) = 0#32 := by
  simp [State.dmaCleared]

theorem State.dmaCleared_sameDesc (s : State) (c : Nat) : SameDesc c s (s.dmaCleared c) :=
  RegsBut.sameDesc ((s.dmaCleared_regsBut c).mono (by simp [dmaRunRegs]))

theorem State.dmaStarted_sameBut (s : State) (c : Nat) : SameBut [.regs, .dmas] s (s.dmaStarted c) :=
  (((s.dmaCleared_sameBut c).mono (by decide)).trans ((State.setDma_sameBut _ c _).mono (by decide))).trans
    ((State.setDmaState_sameBut _ c _).mono (by decide))

theorem State.dmaStarted_regsBut_cleared (s : State) (c : Nat) :
    RegsBut [R.DMA_CHc_CTRL c] (s.dmaCleared c) (s.dmaStarted c) :=
  State.setDmaState_regsBut ((s.dmaCleared c).setDma c _) c _

theorem State.dmaState_dmaStarted (s : State) (c : Nat) :
    (s.dmaStarted c).dmaState c = if s.dmaMode c = 0 then 1 else 2 :=
  State.dmaState_of_ctrl (by simp [State.dmaStarted, State.setDmaState]) (by split <;> decide)

theorem State.dmaStarted_stopping (s : State) (c : Nat) : ((s.dmaStarted c).dma c).stopping = false := by
  have record : (s.dmaStarted c).dma c = ⟨0, if s.dmaMode c = 0 then none else some 0, false, false⟩ :=
    (State.dma_setDma (s.dmaCleared c) c _ c).trans (if_pos rfl)
  rw [record]

/-- A channel that has started and issues as far ahead as it may. -/
def State.dmaGone (s : State) (c : Nat) : State := (s.dmaStarted c).dmaPump c 16

theorem State.dmaGone_sameBut (s : State) (c : Nat) : SameBut [.regs, .dmas] s (s.dmaGone c) :=
  (s.dmaStarted_sameBut c).trans ((State.dmaPump_sameBut _ c 16).mono (by decide))

theorem State.dmaGone_regsBut_cleared (s : State) (c : Nat) :
    RegsBut [R.DMA_CHc_CTRL c] (s.dmaCleared c) (s.dmaGone c) :=
  (s.dmaStarted_regsBut_cleared c).trans ((State.dmaPump_sameBut _ c 16).regsBut (by decide) _)

theorem State.dmaGone_regsBut (s : State) (c : Nat) :
    RegsBut [R.DMA_CHc_CTRL c, R.DMA_CHc_COUNT c, R.DMA_CHc_DESC c] s (s.dmaGone c) :=
  ((s.dmaCleared_regsBut c).mono (by simp)).trans ((s.dmaGone_regsBut_cleared c).mono (by simp))

theorem State.dmaState_dmaGone (s : State) (c : Nat) : (s.dmaGone c).dmaState c = if s.dmaMode c = 0 then 1 else 2 :=
  (State.dmaState_congr ((State.dmaPump_sameBut _ c 16).reg_eq (by decide) _)).trans (s.dmaState_dmaStarted c)

theorem State.dmaGone_stopping (s : State) (c : Nat) : ((s.dmaGone c).dma c).stopping = false :=
  (State.dmaPump_stopping _ c 16).trans (s.dmaStarted_stopping c)

section
variable {s : State} {c : Nat} {v : Word}

/-- GO of a channel that is IDLE or HALTED, its settings sound. -/
theorem State.dmaCtrlWrite_go (stop : bit v 30 = false) (go : bit v 31 = true) (off : s.dmaOn c = false)
    (sound : s.dmaCheck c = none) : s.dmaCtrlWrite c v = s.dmaGone c := by
  have check : (s.dmaCleared c).dmaCheck c = none := by rw [(s.dmaCleared_sameDesc c).dmaCheck_eq, sound]
  have mode : (s.dmaCleared c).dmaMode c = s.dmaMode c := (s.dmaCleared_sameDesc c).dmaMode_eq
  unfold State.dmaCleared at check mode
  by_cases software : s.dmaMode c = 0 <;>
    simp [State.dmaCtrlWrite, stop, go, off, State.dmaBegin, check, mode, software, State.dmaGone, State.dmaStarted,
      State.dmaCleared, DmaRec.reset]

/-- GO of a channel that is IDLE or HALTED, a check of its settings failing (R348). -/
theorem State.dmaCtrlWrite_go_halt (stop : bit v 30 = false) (go : bit v 31 = true) (off : s.dmaOn c = false) {f : Nat}
    {a : Word} (failed : s.dmaCheck c = some (f, a)) : s.dmaCtrlWrite c v = (s.dmaCleared c).dmaHalt c f a := by
  have check : (s.dmaCleared c).dmaCheck c = some (f, a) := by rw [(s.dmaCleared_sameDesc c).dmaCheck_eq, failed]
  unfold State.dmaCleared at check
  simp [State.dmaCtrlWrite, stop, go, off, State.dmaBegin, check, State.dmaCleared]

theorem State.dmaCtrlWrite_go_busy (stop : bit v 30 = false) (go : bit v 31 = true) (on : s.dmaOn c = true) :
    s.dmaCtrlWrite c v = s.flag (R.DMA_CHc_STATUS c) 10 := by
  simp [State.dmaCtrlWrite, stop, go, on]

theorem State.dmaCtrlWrite_stop (stop : bit v 30 = true) (on : s.dmaOn c = true) :
    s.dmaCtrlWrite c v
      = if s.dmaOut c = 0 then s.dmaStopped c else s.setDma c { s.dma c with stopping := true } := by
  simp [State.dmaCtrlWrite, stop, on]

end

/-! ### Responses -/

/-- An event of a channel: its flag, and its pulse where the descriptor asks for one (R350). -/
def State.dmaEvent (s : State) (c flag : Nat) (fires : Bool) (source : Nat) : State :=
  let t := s.flag (R.DMA_CHc_STATUS c) flag
  if fires then t.fireCentral source else t

/-- HALF, where the count `k` reaches it. -/
def State.dmaHalf (s : State) (c k : Nat) : State :=
  if k = (s.dmaTotal c + 1) / 2 then s.dmaEvent c 1 (s.rb (R.DMA_CHc_CFG c) 31) (2 * c) else s

/-- HALF and FULL, where the count `k` reaches them. -/
def State.dmaEvents (s : State) (c k : Nat) : State :=
  let t := s.dmaHalf c k
  if k = s.dmaTotal c then t.dmaEvent c 0 ((t.flag (R.DMA_CHc_STATUS c) 0).rb (R.DMA_CHc_CFG c) 30) (2 * c + 1) else t

theorem State.dmaEvents_of_not_last {s : State} {c k : Nat} (h : k ≠ s.dmaTotal c) :
    s.dmaEvents c k = s.dmaHalf c k :=
  if_neg h

theorem State.dmaEvents_of_last {s : State} {c k : Nat} (h : k = s.dmaTotal c) :
    s.dmaEvents c k = (s.dmaHalf c k).dmaEvent c 0
      (((s.dmaHalf c k).flag (R.DMA_CHc_STATUS c) 0).rb (R.DMA_CHc_CFG c) 30) (2 * c + 1) :=
  if_pos h

theorem State.dmaCounted_of_not_last {s : State} {c k : Nat} (h : k ≠ s.dmaTotal c) :
    s.dmaCounted c k = (s.dmaEvents c k).dmaNext c := by
  rw [State.dmaEvents_of_not_last h]
  exact if_pos h

theorem State.dmaCounted_of_last {s : State} {c k : Nat} (h : k = s.dmaTotal c)
    (stop : ((s.dmaEvents c k).dma c).stopping = true) : s.dmaCounted c k = (s.dmaEvents c k).dmaStopped c := by
  rw [State.dmaEvents_of_last h] at stop ⊢
  exact (if_neg (not_not.mpr h)).trans (if_pos stop)

theorem State.dmaEvent_sameBut (s : State) (c f : Nat) (fires : Bool) (source : Nat) :
    SameBut [.regs, .scCount, .due, .pulses] s (s.dmaEvent c f fires source) := by
  have flagged := (s.flag_sameBut (R.DMA_CHc_STATUS c) f).mono (l' := [.regs, .scCount, .due, .pulses]) (by decide)
  unfold State.dmaEvent
  cases fires
  · exact flagged
  · exact flagged.trans ((State.fireCentral_sameBut _ source).mono (by decide))

theorem State.dmaEvent_regsBut (s : State) (c f : Nat) (fires : Bool) (source : Nat) :
    RegsBut [R.DMA_CHc_STATUS c] s (s.dmaEvent c f fires source) := by
  have flagged := s.flag_regsBut (R.DMA_CHc_STATUS c) f
  unfold State.dmaEvent
  cases fires
  · exact flagged
  · exact flagged.trans ((State.fireCentral_sameBut _ source).regsBut (by decide) _)

theorem State.dmaHalf_sameBut (s : State) (c k : Nat) :
    SameBut [.regs, .scCount, .due, .pulses] s (s.dmaHalf c k) := by
  unfold State.dmaHalf
  split
  · exact s.dmaEvent_sameBut _ _ _ _
  · exact .refl _ s

theorem State.dmaHalf_regsBut (s : State) (c k : Nat) : RegsBut [R.DMA_CHc_STATUS c] s (s.dmaHalf c k) := by
  unfold State.dmaHalf
  split
  · exact s.dmaEvent_regsBut _ _ _ _
  · exact .refl _ s

theorem State.dmaEvents_sameBut (s : State) (c k : Nat) :
    SameBut [.regs, .scCount, .due, .pulses] s (s.dmaEvents c k) := by
  unfold State.dmaEvents
  dsimp only
  split
  · exact (s.dmaHalf_sameBut c k).trans (State.dmaEvent_sameBut _ _ _ _ _)
  · exact s.dmaHalf_sameBut c k

theorem State.dmaEvents_regsBut (s : State) (c k : Nat) : RegsBut [R.DMA_CHc_STATUS c] s (s.dmaEvents c k) := by
  unfold State.dmaEvents
  dsimp only
  split
  · exact (s.dmaHalf_regsBut c k).trans (State.dmaEvent_regsBut _ _ _ _ _)
  · exact s.dmaHalf_regsBut c k

theorem State.dmaEvents_count (s : State) (c k : Nat) :
    (s.dmaEvents c k).reg (R.DMA_CHc_COUNT c) = s.reg (R.DMA_CHc_COUNT c) :=
  s.dmaEvents_regsBut c k _ (by simp [R.DMA_CHc_COUNT, R.DMA_CHc_STATUS])

theorem State.dmaNext_of_stopping {s : State} {c : Nat} (active : s.dmaState c = 1) (stop : (s.dma c).stopping = true) :
    s.dmaNext c = if s.dmaOut c = 0 then s.dmaStopped c else s := by
  by_cases out : s.dmaOut c = 0 <;> simp [State.dmaNext, active, stop, out, State.dmaPump_of_stopping stop]

/-- A response whose element moves without an error, the channel not waiting for flash. -/
theorem State.dmaResponse_moved {s u : State} {c : Nat} (on : s.dmaOn c = true)
    (outstanding : s.dmaCount c < (s.dma c).issued)
    (source : s.flashHolds (s.dmaSrc c (s.dmaCount c)) = false)
    (more : (s.dma c).stopping = true ∨ s.dmaCount c + 1 ≠ s.dmaTotal c)
    (moved : s.dmaMove c (s.dmaCount c) = (none, u)) :
    s.dmaResponse c
      = (u.setReg (R.DMA_CHc_COUNT c) (w32 (s.dmaCount c + 1))).dmaCounted c (s.dmaCount c + 1) := by
  have out : s.dmaOut c ≠ 0 := by rw [State.dmaOut]; omega
  obtain more | more := more <;> simp [State.dmaResponse, on, out, source, more, moved]

end Sys2Proof.Machine
end

section
/-!
O53: GO, STOP and the response of a channel that stops (R353), assembled from the operations of a channel.
-/
namespace Sys2Proof.Machine
open Sys2Proof

/-- What every GO of a channel that is IDLE or HALTED clears, whether its checks hold or not (R353). -/
theorem RegsBut.of_dmaCleared {s t : State} {c : Nat}
    (h : RegsBut [R.DMA_CHc_CTRL c, R.DMA_CHc_STATUS c, R.DMA_CHc_ERR c] (s.dmaCleared c) t) :
    t.dmaCount c = 0 ∧ t.reg (R.DMA_CHc_DESC c) = 0#32 ∧ RegsBut (dmaRunRegs c) s t := by
  refine ⟨?_, ?_, ?_⟩
  · have count := h (R.DMA_CHc_COUNT c)
      (by simp [R.DMA_CHc_COUNT, R.DMA_CHc_CTRL, R.DMA_CHc_STATUS, R.DMA_CHc_ERR])
    rw [State.dmaCount, count, s.dmaCleared_count]
    rfl
  · have desc := h (R.DMA_CHc_DESC c)
      (by simp [R.DMA_CHc_DESC, R.DMA_CHc_CTRL, R.DMA_CHc_STATUS, R.DMA_CHc_ERR])
    exact desc.trans (s.dmaCleared_desc c)
  · exact ((s.dmaCleared_regsBut c).mono (by simp [dmaRunRegs])).trans (h.mono (by simp [dmaRunRegs]))

section
variable {m : Master} {c : Fin 64} {v : Word} {s : State} {r : RegRow}

theorem exec_dmaGo (h : s.Writes m .dma r (R.DMA_CHc_CTRL c.val)) :
    exec (.dmaGo m c v) s
      = .next ((s.dmaCtrlWrite c.val (setBit (setBit v 31 true) 30 false)).answer m .done) :=
  State.writeCmd_dmaCtrl h _

theorem exec_dmaStop (h : s.Writes m .dma r (R.DMA_CHc_CTRL c.val)) :
    exec (.dmaStop m c v) s = .next ((s.dmaCtrlWrite c.val (setBit v 30 true)).answer m .done) :=
  State.writeCmd_dmaCtrl h _

/-- A word with GO and without STOP. -/
theorem bit_dmaGo_word (v : Word) :
    bit (setBit (setBit v 31 true) 30 false) 30 = false ∧ bit (setBit (setBit v 31 true) 30 false) 31 = true := by
  constructor <;> simp [bit_setBit]

/-- The state after a write that ends in `t` changes nothing that `t` leaves but the response. -/
theorem SameBut.answer {l : List Part} {s t : State} (h : SameBut l s t) (reply : Part.reply ∈ l) (m : Master)
    (b : BusResult) : SameBut l s (t.answer m b) :=
  h.trans ((t.answer_sameBut m b).mono (by simpa using reply))

theorem exec_dmaGo_busy (h : s.Writes m .dma r (R.DMA_CHc_CTRL c.val)) (on : s.dmaOn c.val = true) :
    exec (.dmaGo m c v) s = .next ((s.flag (R.DMA_CHc_STATUS c.val) 10).answer m .done) := by
  obtain ⟨stop, go⟩ := bit_dmaGo_word v
  rw [exec_dmaGo h, State.dmaCtrlWrite_go_busy stop go on]

theorem exec_dmaConfig_busy {a : Word} (ha : a.toNat ∈ dmaDescRegs c.val) (h : s.Writes m .dma r a.toNat)
    (on : s.dmaOn c.val = true) :
    exec (.registerWrite m a .word v) s = .next ((s.flag (R.DMA_CHc_STATUS c.val) 10).answer m .done) := by
  have write := State.writeCmd_dmaDesc ha h v
  rw [State.dmaCfgWrite, if_pos on] at write
  exact write

/-- CFG_BUSY, and nothing else but the response. -/
theorem State.dmaBusy_effect (s : State) (c : Nat) (m : Master) :
    let t := (s.flag (R.DMA_CHc_STATUS c) 10).answer m .done
    t.rb (R.DMA_CHc_STATUS c) 10 = true ∧ RegsBut [R.DMA_CHc_STATUS c] s t ∧ SameBut [.regs, .scCount, .reply] s t
      ∧ t.reply = some ⟨m, .done⟩ :=
  ⟨s.rb_flag_self _ 10 (by decide), s.flag_regsBut _ 10,
    ((s.flag_sameBut _ 10).mono (by decide)).answer (by decide) m _, rfl⟩

end

/-- A channel whose element `i` has moved, with its count raised and its events out. -/
def State.dmaAdvanced (u : State) (c i : Nat) : State :=
  (u.setReg (R.DMA_CHc_COUNT c) (w32 (i + 1))).dmaEvents c (i + 1)

theorem State.dmaAdvanced_sameBut (u : State) (c i : Nat) :
    SameBut [.regs, .scCount, .due, .pulses] u (u.dmaAdvanced c i) :=
  ((u.setReg_sameBut _ _).mono (by decide)).trans (State.dmaEvents_sameBut _ c (i + 1))

theorem State.dmaAdvanced_regsBut (u : State) (c i : Nat) :
    RegsBut [R.DMA_CHc_COUNT c, R.DMA_CHc_STATUS c] u (u.dmaAdvanced c i) :=
  ((u.setReg_regsBut _ _).mono (by simp)).trans ((State.dmaEvents_regsBut _ c (i + 1)).mono (by simp))

theorem State.dmaAdvanced_count (u : State) (c i : Nat) :
    (u.dmaAdvanced c i).reg (R.DMA_CHc_COUNT c) = w32 (i + 1) :=
  (State.dmaEvents_count _ c (i + 1)).trans (by simp)

theorem State.dmaAdvanced_dma (u : State) (c i : Nat) : (u.dmaAdvanced c i).dma c = u.dma c :=
  (u.dmaAdvanced_sameBut c i).dma_eq (by decide) c

theorem State.dmaAdvanced_state (u : State) (c i : Nat) : (u.dmaAdvanced c i).dmaState c = u.dmaState c :=
  State.dmaState_congr (u.dmaAdvanced_regsBut c i _ (by simp [R.DMA_CHc_CTRL, R.DMA_CHc_COUNT, R.DMA_CHc_STATUS]))

/-- The count of a channel that stops reaches `i + 1`: with the last element issued the stop is complete. -/
theorem State.dmaCounted_of_stopping {u : State} {c i : Nat} (active : u.dmaState c = 1)
    (stop : (u.dma c).stopping = true) (issued : i < (u.dma c).issued) (within : (u.dma c).issued ≤ u.dmaTotal c) :
    (u.setReg (R.DMA_CHc_COUNT c) (w32 (i + 1))).dmaCounted c (i + 1)
      = if i + 1 = (u.dma c).issued then (u.dmaAdvanced c i).dmaStopped c else u.dmaAdvanced c i := by
  have total : (u.setReg (R.DMA_CHc_COUNT c) (w32 (i + 1))).dmaTotal c = u.dmaTotal c :=
    SameDesc.dmaTotal_eq (RegsBut.sameDesc ((u.setReg_regsBut _ _).mono (by simp [dmaRunRegs])))
  have stop' : ((u.dmaAdvanced c i).dma c).stopping = true := by rw [u.dmaAdvanced_dma, stop]
  by_cases last : i + 1 = u.dmaTotal c
  · rw [State.dmaCounted_of_last (last.trans total.symm) stop', if_pos (by omega)]
    rfl
  · have small := u.dmaTotal_le c
    have counted : (u.dmaAdvanced c i).dmaCount c = i + 1 := State.dmaCount_of_reg (u.dmaAdvanced_count c i) (by omega)
    have out : (u.dmaAdvanced c i).dmaOut c = 0 ↔ i + 1 = (u.dma c).issued := by
      rw [State.dmaOut, counted, u.dmaAdvanced_dma]
      omega
    rw [State.dmaCounted_of_not_last (fun e => last (e.trans total))]
    exact (State.dmaNext_of_stopping ((u.dmaAdvanced_state c i).trans active) stop').trans (if_congr out rfl rfl)

/-- A response of a channel that stops. -/
theorem State.dmaResponse_of_stopping {s u : State} {c : Nat} (on : s.dmaOn c = true) (stop : (s.dma c).stopping = true)
    (outstanding : s.dmaCount c < (s.dma c).issued) (within : (s.dma c).issued ≤ u.dmaTotal c)
    (source : s.flashHolds (s.dmaSrc c (s.dmaCount c)) = false) (moved : s.dmaMove c (s.dmaCount c) = (none, u))
    (record : u.dma c = s.dma c) (active : u.dmaState c = 1) :
    s.dmaResponse c = if s.dmaCount c + 1 = (s.dma c).issued then (u.dmaAdvanced c (s.dmaCount c)).dmaStopped c
      else u.dmaAdvanced c (s.dmaCount c) := by
  have response := State.dmaResponse_moved on outstanding source (.inl stop) moved
  rw [← record] at stop outstanding within ⊢
  exact response.trans (State.dmaCounted_of_stopping active stop outstanding within)

/-- Settles O53, clause by clause: a GO starts or halts the cleared channel, or sets CFG_BUSY; a channel that stops
issues nothing, and its last response completes the stop. -/
theorem dmaGoAndStop : Obligations.DmaGoAndStop := by
  refine ⟨?go, ?goBusy, ?configBusy, ?stop, ?issuesNothing, ?response⟩
  case go =>
    intro m c v s r h off
    obtain ⟨stop, go⟩ := bit_dmaGo_word v
    cases check : s.dmaCheck c.val with
    | none =>
      have write := exec_dmaGo (v := v) h
      rw [State.dmaCtrlWrite_go stop go off check] at write
      obtain ⟨count, desc, frame⟩ := RegsBut.of_dmaCleared ((s.dmaGone_regsBut_cleared c.val).mono (by simp))
      have kept := s.dmaGone_regsBut c.val
      refine ⟨_, write, fun _ => ⟨s.dmaState_dmaGone c.val, s.dmaGone_stopping c.val, kept _ ?_, kept _ ?_⟩,
        fun f a failed => (nomatch failed), count, desc, frame, ?_, rfl⟩
      · simp [R.DMA_CHc_STATUS, R.DMA_CHc_CTRL, R.DMA_CHc_COUNT, R.DMA_CHc_DESC]
      · simp [R.DMA_CHc_ERR, R.DMA_CHc_CTRL, R.DMA_CHc_COUNT, R.DMA_CHc_DESC]
      · exact ((s.dmaGone_sameBut c.val).mono (by decide)).answer (by decide) m _
    | some failure =>
      obtain ⟨f, a⟩ := failure
      have write := exec_dmaGo (v := v) h
      rw [State.dmaCtrlWrite_go_halt stop go off check] at write
      obtain ⟨count, desc, frame⟩ := RegsBut.of_dmaCleared ((s.dmaCleared c.val).dmaHalt_regsBut c.val f a)
      refine ⟨_, write, fun sound => (nomatch sound), fun f' a' failed => ?_, count, desc, frame, ?_, rfl⟩
      · cases failed
        exact ⟨State.dmaState_dmaHalt _ c.val f a, State.dmaHalt_flag _ c.val a (State.dmaCheck_flag check),
          State.dmaHalt_err _ c.val f a⟩
      · exact (((s.dmaCleared_sameBut c.val).mono (by decide)).trans
          ((State.dmaHalt_sameBut _ c.val f a).mono (by decide))).answer (by decide) m _
  case goBusy =>
    intro m c v s r h on
    exact ⟨_, exec_dmaGo_busy h on, s.dmaBusy_effect c.val m⟩
  case configBusy =>
    intro m c a v s r ha h on
    exact ⟨_, exec_dmaConfig_busy ha h on, s.dmaBusy_effect c.val m⟩
  case stop =>
    intro m c v s r h on
    have stop : bit (setBit v 30 true) 30 = true := bit_setBit_self v 30 true (by decide)
    have write := exec_dmaStop (v := v) h
    rw [State.dmaCtrlWrite_stop stop on] at write
    by_cases out : s.dmaOut c.val = 0
    · rw [if_pos out] at write
      refine ⟨_, write,
        fun _ => ⟨s.dmaState_dmaStopped c.val, s.dmaStopped_flag c.val, s.dmaStopped_regsBut c.val⟩,
        fun more => absurd out more, ?_, rfl⟩
      exact ((s.dmaStopped_sameBut c.val).mono (by decide)).answer (by decide) m _
    · rw [if_neg out] at write
      have record := (s.dma_setDma c.val { s.dma c.val with stopping := true } c.val).trans (if_pos rfl)
      have stopping := congrArg DmaRec.stopping record
      have issued := congrArg DmaRec.issued record
      refine ⟨_, write, fun none => absurd none out, fun _ => ⟨stopping, issued, .refl _ s⟩, ?_, rfl⟩
      exact ((s.setDma_sameBut c.val _).mono (by decide)).answer (by decide) m _
  case issuesNothing =>
    intro c s k stop
    exact ⟨congrArg Host.Outcome.next (State.dmaTrigger_of_stopping stop), State.dmaPump_of_stopping stop k⟩
  case response =>
    intro c s u i count on stop outstanding within source moved record active
    subst count
    have response := State.dmaResponse_of_stopping on stop outstanding within source moved record active
    have frame := u.dmaAdvanced_regsBut c.val (s.dmaCount c.val)
    have count := u.dmaAdvanced_count c.val (s.dmaCount c.val)
    have same := u.dmaAdvanced_sameBut c.val (s.dmaCount c.val)
    by_cases last : s.dmaCount c.val + 1 = (s.dma c.val).issued
    · rw [if_pos last] at response
      have stopped := (u.dmaAdvanced c.val (s.dmaCount c.val)).dmaStopped_regsBut c.val
      refine ⟨_, congrArg Host.Outcome.next response, ?_, fun more => absurd last more.ne,
        fun _ => ⟨State.dmaState_dmaStopped _ c.val, State.dmaStopped_flag _ c.val⟩,
        (frame.mono (by simp)).trans (stopped.mono (by simp)),
        (same.mono (by decide)).trans ((State.dmaStopped_sameBut _ c.val).mono (by decide))⟩
      exact (stopped _ (by simp [R.DMA_CHc_COUNT, R.DMA_CHc_CTRL, R.DMA_CHc_STATUS])).trans count
    · rw [if_neg last] at response
      exact ⟨_, congrArg Host.Outcome.next response, count,
        fun _ => ⟨(u.dmaAdvanced_dma c.val _).trans record, (u.dmaAdvanced_state c.val _).trans active⟩,
        fun all => absurd all last, frame.mono (by simp), same.mono (by decide)⟩

end Sys2Proof.Machine
end

section
/-!
The elements of a DMA channel (R349): the bytes of an element and SWAP, and the channel's accesses to system SRAM.
-/
namespace Sys2Proof.Machine
open Sys2Proof

/-! ### Bytes of words -/

theorem bytesOfWord_wordOfBytes (a b c d : Byte) : bytesOfWord (wordOfBytes [a, b, c, d]) = [a, b, c, d] := by
  have ha := a.isLt
  have hb := b.isLt
  have hc := c.isLt
  have hd := d.isLt
  simp only [bytesOfWord, wordOfBytes, leNat, w32, List.cons.injEq, and_true]
  refine ⟨?_, ?_, ?_, ?_⟩ <;> apply BitVec.eq_of_toNat_eq <;>
    simp only [BitVec.extractLsb'_toNat, BitVec.toNat_ofNat, Nat.shiftRight_eq_div_pow] <;> omega

theorem State.bytesOfWord_mword (s : State) (a : Nat) :
    bytesOfWord (s.mword a) = [s.byte a, s.byte (a + 1), s.byte (a + 2), s.byte (a + 3)] :=
  bytesOfWord_wordOfBytes _ _ _ _

/-! ### Bytes of elements, and SWAP -/

theorem elementByte_cons (w : Word) (l : List Word) (j : Nat) :
    elementByte (w :: l) j = if j < 4 then (bytesOfWord w).getD j 0#8 else elementByte l (j - 4) := by
  have four : (bytesOfWord w).length = 4 := rfl
  rw [elementByte, List.map_cons, List.flatten_cons]
  split
  next h => exact List.getD_append _ _ _ _ (four ▸ h)
  next h => exact List.getD_append_right _ _ _ _ (four ▸ Nat.le_of_not_lt h)

theorem length_elementBytes (l : List Word) : (l.map bytesOfWord).flatten.length = 4 * l.length := by
  induction l with
  | nil => rfl
  | cons w l ih => simp [ih, bytesOfWord]; omega

/-- The words of the bytes of an element have those bytes. -/
theorem elementBytes_elementWords : ∀ b : List Byte, b.length = 4 ∨ b.length = 8 →
    ((elementWords b).map bytesOfWord).flatten = b
  | [a, b, c, d], _ => by
    have words : elementWords [a, b, c, d] = [wordOfBytes [a, b, c, d]] := by
      simp [elementWords, List.range_succ]
    simp [words, bytesOfWord_wordOfBytes]
  | [a, b, c, d, e, f, g, h], _ => by
    have words : elementWords [a, b, c, d, e, f, g, h] = [wordOfBytes [a, b, c, d], wordOfBytes [e, f, g, h]] := by
      simp [elementWords, List.range_succ]
    simp [words, bytesOfWord_wordOfBytes]

/-- SWAP puts at each place the byte that stood at `swapIndex`. -/
theorem swapElement_eq_map_swapIndex (mode : Nat) : ∀ b : List Byte, b.length = 4 ∨ b.length = 8 →
    swapElement mode b = (List.range b.length).map (fun k => b.getD (swapIndex mode b.length k) 0#8)
  | [a, b, c, d], _ => match mode with
    | 0 | 1 | 2 | 3 | _ + 4 => by simp [swapElement, swapGroups, swapIndex, List.range_succ]
  | [a, b, c, d, e, f, g, h], _ => match mode with
    | 0 | 1 | 2 | 3 | _ + 4 => by simp [swapElement, swapGroups, swapIndex, List.range_succ]

theorem swapIndex_lt {size k : Nat} (mode : Nat) (hk : k < size) :
    swapIndex mode size k < size := by
  unfold swapIndex
  split
  · omega
  · omega
  · split <;> omega
  · exact hk

/-- The words of an element as they are written. -/
def swappedWords (mode : Nat) (l : List Word) : List Word := elementWords (swapElement mode (l.map bytesOfWord).flatten)

section
variable {l : List Word} (size : l.length = 1 ∨ l.length = 2) (mode : Nat)
include size

theorem length_swapElement :
    (swapElement mode (l.map bytesOfWord).flatten).length = 4 * l.length := by
  rw [swapElement_eq_map_swapIndex mode _ (by rw [length_elementBytes]; omega), List.length_map, List.length_range,
    length_elementBytes]

theorem length_swappedWords : (swappedWords mode l).length = l.length := by
  rw [swappedWords, elementWords, List.length_map, List.length_range, length_swapElement size]
  omega

theorem elementByte_swappedWords {k : Nat} (hk : k < 4 * l.length) :
    elementByte (swappedWords mode l) k = elementByte l (swapIndex mode (4 * l.length) k) := by
  have whole : (l.map bytesOfWord).flatten.length = 4 ∨ (l.map bytesOfWord).flatten.length = 8 := by
    rw [length_elementBytes]; omega
  have written : (swapElement mode (l.map bytesOfWord).flatten).length = 4
      ∨ (swapElement mode (l.map bytesOfWord).flatten).length = 8 := by
    rw [length_swapElement size]; omega
  rw [elementByte, swappedWords, elementBytes_elementWords _ written, swapElement_eq_map_swapIndex mode _ whole,
    length_elementBytes, List.getD_eq_getElem _ _ (by simpa using hk), List.getElem_map, List.getElem_range]
  rfl

end

/-! ### Moving an element -/

theorem State.dmaSize_eq (s : State) (c : Nat) : s.dmaSize c = 4 ∨ s.dmaSize c = 8 := by
  unfold State.dmaSize
  split <;> simp

/-- An element whose words have been read is written swapped. -/
theorem State.dmaMove_of_fetched {s u : State} {c i : Nat} {l : List Word}
    (fetched : s.dmaFetch c (s.dmaSrc c i) 0 (s.dmaSize c / 4) = (.ok l, u)) :
    s.dmaMove c i
      = ((u.dmaPut c (s.dmaDst c i) 0 (swappedWords (u.rf (R.DMA_CHc_CFG c) 25 24) l)).1.map
            (fun x => (if x.2 then 8 else 6, x.1)),
          (u.dmaPut c (s.dmaDst c i) 0 (swappedWords (u.rf (R.DMA_CHc_CFG c) 25 24) l)).2) := by
  simp only [State.dmaMove, fetched, ← swappedWords.eq_def]
  rcases u.dmaPut c (s.dmaDst c i) 0 (swappedWords (u.rf (R.DMA_CHc_CFG c) 25 24) l) with ⟨_ | ⟨a, off⟩, t⟩ <;> rfl

/-! ### Accesses to system SRAM -/

/-- A word of system SRAM, of a path without fault. -/
structure State.SramWord (s : State) (a : Nat) : Prop where
  aligned : a % 4 = 0
  low : 0x20000000 ≤ a
  high : a < 0x21000000
  path : s.pathTo 0x20000000 = .good

section
variable {s : State} {a : Nat} (h : s.SramWord a) (d : Fin 64)
include h

theorem State.SramWord.pathTo_eq : s.pathTo a = .good := by
  obtain ⟨-, low, high, path⟩ := h
  have slot : a / 0x1000000 = 0x20000000 / 0x1000000 := by omega
  have notTcm : ¬ a < 0x100000 := by omega
  rw [← path, State.pathTo, State.pathTo, if_neg notTcm, slot]
  rfl

theorem State.SramWord.place_eq : s.place (.dma d) a = some (.ram a) := by
  obtain ⟨-, low, high, -⟩ := h
  have notTcm : ¬ a < 0x100000 := by omega
  have notFlash : ¬ a < 0x12000000 := by omega
  have sram : 0x20000000 ≤ a ∧ a < 0x21000000 := ⟨low, high⟩
  have reached : reaches (.dma d) a = true := by
    unfold reaches
    simp only [if_neg notTcm, if_neg (fun x => notFlash x.2 : ¬ (0x10000000 ≤ a ∧ a < 0x12000000)), if_pos sram]
  simp [State.place, reached, notTcm, notFlash, high]

theorem State.SramWord.busRead_eq (good : s.eccMark a = .good) :
    s.busRead (.dma d) a 4 = (.data (s.mword a), s) := by
  simp [State.busRead, State.readAs, State.overPath, h.pathTo_eq, h.place_eq d, sizeOk, h.aligned, State.readPlace,
    State.ramRead, State.eccBad, State.eccRead, good, State.mword]

/-- Memory after a store of a word to system SRAM; the caches may go on holding what it held (R299). -/
def State.sramStored (s : State) (a : Nat) (w : Word) : State :=
  (s.cachesMiss none ((List.range 4).map (fun i => a + i))).setMword a w

theorem State.SramWord.busWrite_eq (w : Word) : s.busWrite (.dma d) a 4 w = (.done, s.sramStored a w) := by
  simp [State.busWrite, State.writeAs, State.overPath, h.pathTo_eq, h.place_eq d, sizeOk, h.aligned, State.writePlace,
    State.sramWrite, h.low, h.high, State.ramWrite, State.writer, State.sramStored]

end

theorem State.sramStored_sameBut (s : State) (a : Nat) (w : Word) :
    SameBut [.mem, .ecc, .cores, .freeCtr] s (s.sramStored a w) :=
  ((s.cachesMiss_sameBut none _).mono (by decide)).trans ((State.setMword_sameBut _ a w).mono (by decide))

theorem State.byte_sramStored (s : State) (a : Nat) (w : Word) (b : Nat) :
    (s.sramStored a w).byte b = if a ≤ b ∧ b < a + 4 then (bytesOfWord w).getD (b - a) 0#8 else s.byte b := by
  rw [State.sramStored, State.byte_setMword, (s.cachesMiss_sameBut none _).byte_eq (by decide)]

theorem SameBut.pathTo_eq {l : List Part} {s t : State} (h : SameBut l s t) (keeps : Part.paths ∉ l) (a : Nat) :
    t.pathTo a = s.pathTo a := by
  have paths : t.paths = s.paths := h .paths keeps
  rw [State.pathTo, State.pathTo, paths]

/-! ### Elements in system SRAM -/

/-- `k` words read from system SRAM: their bytes, and no change. -/
theorem State.dmaFetch_sram {s : State} {c a : Nat} : ∀ k i : Nat,
    (∀ j, i ≤ j → j < i + k → s.SramWord (a + 4 * j) ∧ s.eccMark (a + 4 * j) = .good) →
    ∃ l : List Word, s.dmaFetch c a i k = (.ok l, s) ∧ l.length = k
      ∧ ∀ j, j < 4 * k → elementByte l j = s.byte (a + 4 * i + j)
  | 0, _, _ => ⟨[], rfl, rfl, fun j hj => absurd hj (by omega)⟩
  | k + 1, i, words => by
    obtain ⟨word, good⟩ := words i le_rfl (by omega)
    obtain ⟨l, fetched, length, bytes⟩ := State.dmaFetch_sram (c := c) k (i + 1)
      fun j low high => words j (by omega) (by omega)
    have wrap : (a + 4 * i) % 2 ^ 32 = a + 4 * i := Nat.mod_eq_of_lt (by have := word.high; omega)
    refine ⟨s.mword (a + 4 * i) :: l, ?_, by rw [List.length_cons, length], fun j hj => ?_⟩
    · rw [State.dmaFetch, wrap, word.busRead_eq _ good]
      simp [fetched]
    · rw [elementByte_cons, State.bytesOfWord_mword]
      split
      · interval_cases j <;> rfl
      · rw [bytes (j - 4) (by omega)]
        congr 1
        omega

/-- Words written to system SRAM: their bytes stand there, and every other byte stays. -/
theorem State.dmaPut_sram {c a : Nat} : ∀ (l : List Word) (i : Nat) (s : State),
    (∀ j, i ≤ j → j < i + l.length → s.SramWord (a + 4 * j)) →
    ∃ t, s.dmaPut c a i l = (none, t)
      ∧ (∀ j, j < 4 * l.length → t.byte (a + 4 * i + j) = elementByte l j)
      ∧ BytesBut (a + 4 * i) (4 * l.length) s t
      ∧ SameBut [.mem, .ecc, .cores, .freeCtr] s t
  | [], _, s, _ => ⟨s, rfl, fun j hj => absurd hj (by simp), fun _ _ => rfl, .refl _ s⟩
  | w :: l, i, s, words => by
    have word := words i le_rfl (by simp)
    have stored := s.sramStored_sameBut (a + 4 * i) w
    have wrap : (a + 4 * i) % 2 ^ 32 = a + 4 * i := Nat.mod_eq_of_lt (by have := word.high; omega)
    obtain ⟨t, put, bytes, others, same⟩ := State.dmaPut_sram (c := c) l (i + 1) (s.sramStored (a + 4 * i) w)
      fun j low high => by
        obtain ⟨aligned, low', high', path⟩ := words j (by omega) (by simp; omega)
        exact ⟨aligned, low', high', (stored.pathTo_eq (by decide) _).trans path⟩
    refine ⟨t, ?_, fun j hj => ?_, fun b hb => ?_, stored.trans same⟩
    · rw [State.dmaPut, wrap, word.busWrite_eq]
      exact put
    · rw [List.length_cons] at hj
      rw [elementByte_cons]
      split
      next first =>
        rw [others _ (.inl (by omega)), State.byte_sramStored, if_pos (by omega), Nat.add_sub_cancel_left]
      next later =>
        rw [← bytes (j - 4) (by omega)]
        congr 1
        omega
    · rw [List.length_cons] at hb
      rw [others b (by omega), State.byte_sramStored, if_neg (by omega)]

end Sys2Proof.Machine
end

section
/-!
O52: SWAP stands between the read and the write of an element (R349), and the whole response of an element within system
SRAM.
-/
namespace Sys2Proof.Machine
open Sys2Proof

/-- An element within system SRAM is moved: its bytes stand at the destination in the order of SWAP, and nothing else of
memory changes. -/
theorem State.dmaMove_sram {s : State} {c i : Nat} (path : s.pathTo 0x20000000 = .good)
    (srcAligned : s.dmaSrc c i % 4 = 0) (srcLow : 0x20000000 ≤ s.dmaSrc c i)
    (srcHigh : s.dmaSrc c i + s.dmaSize c ≤ 0x21000000)
    (dstAligned : s.dmaDst c i % 4 = 0) (dstLow : 0x20000000 ≤ s.dmaDst c i)
    (dstHigh : s.dmaDst c i + s.dmaSize c ≤ 0x21000000)
    (first : s.eccMark (s.dmaSrc c i) = .good) (last : s.eccMark (s.dmaSrc c i + s.dmaSize c - 4) = .good) :
    ∃ u, s.dmaMove c i = (none, u)
      ∧ (∀ k, k < s.dmaSize c →
          u.byte (s.dmaDst c i + k)
            = s.byte (s.dmaSrc c i + swapIndex (s.rf (R.DMA_CHc_CFG c) 25 24) (s.dmaSize c) k))
      ∧ BytesBut (s.dmaDst c i) (s.dmaSize c) s u
      ∧ SameBut [.mem, .ecc, .cores, .freeCtr] s u := by
  have size := s.dmaSize_eq c
  obtain ⟨l, fetched, length, read⟩ := State.dmaFetch_sram (s := s) (c := c) (a := s.dmaSrc c i) (s.dmaSize c / 4) 0
    fun j _ within => by
      refine ⟨⟨by omega, by omega, by omega, path⟩, ?_⟩
      obtain rfl | at_last : j = 0 ∨ s.dmaSrc c i + 4 * j = s.dmaSrc c i + s.dmaSize c - 4 := by omega
      · exact first
      · rw [at_last, last]
  have one_or_two : l.length = 1 ∨ l.length = 2 := by omega
  have whole : 4 * l.length = s.dmaSize c := by omega
  obtain ⟨u, put, written, others, same⟩ := State.dmaPut_sram (c := c) (a := s.dmaDst c i)
    (swappedWords (s.rf (R.DMA_CHc_CFG c) 25 24) l) 0 s fun j _ within => by
      rw [length_swappedWords one_or_two] at within
      exact ⟨by omega, by omega, by omega, path⟩
  rw [length_swappedWords one_or_two, whole, Nat.mul_zero, Nat.add_zero] at written others
  refine ⟨u, by rw [State.dmaMove_of_fetched fetched, put]; rfl, fun k hk => ?_, others, same⟩
  have inside : swapIndex (s.rf (R.DMA_CHc_CFG c) 25 24) (s.dmaSize c) k < s.dmaSize c := swapIndex_lt _ hk
  rw [written k hk, elementByte_swappedWords one_or_two _ (by omega), whole, read _ (by omega),
    Nat.mul_zero, Nat.add_zero]

/-- Going on after a response is an affair of the channel alone. -/
theorem State.dmaNext_sameBut (s : State) (c : Nat) : SameBut [.regs, .scCount, .dmas] s (s.dmaNext c) := by
  unfold State.dmaNext
  dsimp only
  split_ifs
  · exact .refl _ s
  · exact s.dmaStopped_sameBut c
  · exact ((s.setDma_sameBut c _).trans (State.dmaPump_sameBut _ c 16)).mono (by decide)
  · exact (s.setDmaState_sameBut c 2).mono (by decide)
  · exact (s.dmaPump_sameBut c 16).mono (by decide)

theorem State.dmaNext_regsBut (s : State) (c : Nat) :
    RegsBut [R.DMA_CHc_CTRL c, R.DMA_CHc_STATUS c] s (s.dmaNext c) := by
  unfold State.dmaNext
  dsimp only
  split_ifs
  · exact .refl _ s
  · exact s.dmaStopped_regsBut c
  · exact ((s.setDma_sameBut c _).trans (State.dmaPump_sameBut _ c 16)).regsBut (by decide) _
  · exact (s.setDmaState_regsBut c 2).mono (by simp)
  · exact (s.dmaPump_sameBut c 16).regsBut (by decide) _

/-- A response of an element that is not the last of its descriptor, once the element has moved. -/
theorem State.dmaResponse_of_not_last {s u : State} {c : Nat} (on : s.dmaOn c = true)
    (outstanding : s.dmaCount c < (s.dma c).issued) (source : s.flashHolds (s.dmaSrc c (s.dmaCount c)) = false)
    (more : s.dmaCount c + 1 < s.dmaTotal c) (moved : s.dmaMove c (s.dmaCount c) = (none, u))
    (regs : RegsBut [] s u) :
    s.dmaResponse c = (u.dmaAdvanced c (s.dmaCount c)).dmaNext c := by
  have desc : SameDesc c s (u.setReg (R.DMA_CHc_COUNT c) (w32 (s.dmaCount c + 1))) :=
    RegsBut.sameDesc ((regs.mono (by simp)).trans ((u.setReg_regsBut _ _).mono (by simp [dmaRunRegs])))
  rw [State.dmaResponse_moved on outstanding source (.inr more.ne) moved,
    State.dmaCounted_of_not_last (by rw [desc.dmaTotal_eq]; exact more.ne)]
  rfl

theorem State.flashHolds_of_le {s : State} {a : Nat} (h : 0x12000000 ≤ a) : s.flashHolds a = false := by
  have outside : ¬ a < 0x12000000 := Nat.not_lt.mpr h
  simp [State.flashHolds, outside]

/-- Settles O52: what a channel writes is `swappedWords` of what it has read; within system SRAM the accesses are
`dmaMove_sram`, and the rest of the response touches the channel and its events only. -/
theorem dmaElementSwap : Obligations.DmaElementSwap := by
  refine ⟨fun s u c i l fetched length => ?swap, ?sram⟩
  case swap =>
    have size := s.dmaSize_eq c
    have one_or_two : l.length = 1 ∨ l.length = 2 := by omega
    refine ⟨_, length_swappedWords one_or_two _, fun k hk => ?_, State.dmaMove_of_fetched fetched⟩
    rw [elementByte_swappedWords one_or_two _ (by omega)]
    congr 2
    omega
  case sram =>
    rintro c s i size src dst rfl rfl rfl rfl on outstanding more srcAligned srcLow srcHigh dstAligned dstLow dstHigh path
      first last
    obtain ⟨u, moved, bytes, others, same⟩ :=
      State.dmaMove_sram path srcAligned srcLow srcHigh dstAligned dstLow dstHigh first last
    have response := State.dmaResponse_of_not_last on outstanding (State.flashHolds_of_le (by omega)) more moved
      (same.regsBut (by decide) [])
    have advanced := u.dmaAdvanced_sameBut c.val (s.dmaCount c.val)
    have next := (u.dmaAdvanced c.val (s.dmaCount c.val)).dmaNext_sameBut c.val
    have advancedRegs := u.dmaAdvanced_regsBut c.val (s.dmaCount c.val)
    have nextRegs := (u.dmaAdvanced c.val (s.dmaCount c.val)).dmaNext_regsBut c.val
    have memory (b : Nat) : ((u.dmaAdvanced c.val (s.dmaCount c.val)).dmaNext c.val).byte b = u.byte b :=
      (next.byte_eq (by decide) b).trans (advanced.byte_eq (by decide) b)
    refine ⟨_, congrArg Host.Outcome.next response, fun k hk => (memory _).trans (bytes k hk),
      fun b hb => (memory b).trans (others b hb), ?_, ?_, ?_⟩
    · have small := s.dmaTotal_le c.val
      refine State.dmaCount_of_reg (Eq.trans ?_ (u.dmaAdvanced_count c.val (s.dmaCount c.val))) (by omega)
      exact nextRegs _ (by simp [R.DMA_CHc_COUNT, R.DMA_CHc_CTRL, R.DMA_CHc_STATUS])
    · exact (same.regsBut (by decide) _).trans ((advancedRegs.mono (by simp)).trans (nextRegs.mono (by simp)))
    · exact (same.mono (by decide)).trans ((advanced.mono (by decide)).trans (next.mono (by decide)))

end Sys2Proof.Machine
end

section
/-!
Cells of queue RAM: words of memory after stores of words, the sixteen words of a cell, and what a queue's record and
entries depend on (R359, R360).
-/
namespace Sys2Proof.Machine
open Sys2Proof

/-! ### Words of memory after stores of words -/

theorem wordOfBytes_bytesOfWord (w : Word) : wordOfBytes (bytesOfWord w) = w := by
  have hw := w.isLt
  apply BitVec.eq_of_toNat_eq
  simp only [bytesOfWord, wordOfBytes, leNat, w32, BitVec.extractLsb'_toNat, BitVec.toNat_ofNat, Nat.shiftRight_eq_div_pow]
  omega

theorem State.mword_eq_wordOfBytes (s : State) (a : Nat) :
    s.mword a = wordOfBytes [s.byte a, s.byte (a + 1), s.byte (a + 2), s.byte (a + 3)] := rfl

theorem BytesBut.trans {a n : Nat} {s t u : State} (h : BytesBut a n s t) (k : BytesBut a n t u) : BytesBut a n s u :=
  fun b hb => (k b hb).trans (h b hb)

theorem SameBut.bytesBut {l : List Part} {s t : State} (h : SameBut l s t) (keeps : Part.mem ∉ l) (a n : Nat) :
    BytesBut a n s t := fun b _ => h.byte_eq keeps b

theorem BytesBut.mword_eq {a n b : Nat} {s t : State} (h : BytesBut a n s t) (apart : b + 4 ≤ a ∨ a + n ≤ b) :
    t.mword b = s.mword b := by
  rw [State.mword_eq_wordOfBytes, State.mword_eq_wordOfBytes, h b (by omega), h (b + 1) (by omega), h (b + 2) (by omega),
    h (b + 3) (by omega)]

theorem State.setMword_bytesBut (s : State) (a : Nat) (w : Word) : BytesBut a 4 s (s.setMword a w) := fun b hb => by
  rw [State.byte_setMword, if_neg (by omega)]

theorem State.mword_setMword_self (s : State) (a : Nat) (w : Word) : (s.setMword a w).mword a = w := by
  refine Eq.trans ?_ (wordOfBytes_bytesOfWord w)
  simp only [State.mword_eq_wordOfBytes, State.byte_setMword]
  simp [bytesOfWord]

theorem State.storeWords_sameBut : ∀ (l : List Word) (a : Nat) (s : State), SameBut [.mem, .ecc] s (s.storeWords a l)
  | [], _, s => .refl _ s
  | w :: l, a, s => (s.setMword_sameBut a w).trans (State.storeWords_sameBut l (a + 4) (s.setMword a w))

theorem State.storeWords_bytesBut : ∀ (l : List Word) (a : Nat) (s : State), BytesBut a (4 * l.length) s (s.storeWords a l)
  | [], _, _ => fun _ _ => rfl
  | w :: l, a, s => fun b hb => by
    rw [List.length_cons] at hb
    rw [State.storeWords, State.storeWords_bytesBut l (a + 4) _ b (by omega), s.setMword_bytesBut a w b (by omega)]

/-- What a word reads as after a store of words that holds it. -/
theorem State.mword_storeWords : ∀ (l : List Word) (a k : Nat) (s : State), k < l.length →
    (s.storeWords a l).mword (a + 4 * k) = l.getD k 0#32
  | [], _, _, _, hk => absurd hk (Nat.not_lt_zero _)
  | w :: l, a, 0, s, _ => by
    rw [State.storeWords, (State.storeWords_bytesBut l (a + 4) (s.setMword a w)).mword_eq (.inl (by omega))]
    exact s.mword_setMword_self a w
  | w :: l, a, k + 1, s, hk => by
    have next : a + 4 * (k + 1) = a + 4 + 4 * k := by omega
    rw [next, List.getD_cons_succ]
    exact State.mword_storeWords l (a + 4) k (s.setMword a w) (Nat.lt_of_succ_lt_succ hk)

/-! ### Cells -/

/-- The words of a cell. -/
def State.cellWords (s : State) (c : Nat) : List Word := (List.range 16).map (fun k => s.mword (cellAddr c + 4 * k))

theorem State.length_cellWords (s : State) (c : Nat) : (s.cellWords c).length = 16 := by simp [State.cellWords]

theorem map_range_getD {ws : List Word} {n : Nat} (h : ws.length = n) :
    (List.range n).map (fun k => ws.getD k 0#32) = ws := by
  refine List.ext_getElem (by simp [h]) fun k _ hk => ?_
  rw [List.getElem_map, List.getElem_range, List.getD_eq_getElem _ _ hk]

theorem State.cellWords_storeWords_self (s : State) (c : Nat) {ws : List Word} (h : ws.length = 16) :
    (s.storeWords (cellAddr c) ws).cellWords c = ws := by
  refine Eq.trans (List.map_congr_left fun k hk => ?_) (map_range_getD h)
  exact State.mword_storeWords ws (cellAddr c) k s (by simpa [h] using hk)

/-- Cells do not overlap. -/
theorem BytesBut.cellWords_eq {s t : State} {c e : Nat} (h : BytesBut (cellAddr c) 64 s t) (ne : e ≠ c) :
    t.cellWords e = s.cellWords e := by
  refine List.map_congr_left fun k hk => h.mword_eq ?_
  have small : k < 16 := List.mem_range.mp hk
  simp only [cellAddr]
  omega

theorem SameBut.cellWords_eq {l : List Part} {s t : State} (h : SameBut l s t) (keeps : Part.mem ∉ l) (c : Nat) :
    t.cellWords c = s.cellWords c :=
  List.map_congr_left fun k _ => (h.bytesBut keeps 0 0).mword_eq (.inr (by omega))

/-! ### Records of queues -/

@[simp] theorem State.queue_setQueue (s : State) (q : Nat) (r : QueueRec) (k : Nat) :
    (s.setQueue q r).queue k = if k = q then r else s.queue k := by
  simp [State.queue, State.setQueue, Store.get_set]

theorem State.setQueue_sameBut (s : State) (q : Nat) (r : QueueRec) : SameBut [.queues] s (s.setQueue q r) := by
  intro p hp
  cases p
  case queues => exact absurd hp (by decide)
  all_goals rfl

/-- A frame that holds the records of the queues gives each of them. -/
theorem SameBut.queue_eq {l : List Part} {s t : State} (h : SameBut l s t) (keeps : Part.queues ∉ l) (q : Nat) :
    t.queue q = s.queue q := congrArg (Store.get (fun _ => QueueRec.reset) q) (h .queues keeps)

theorem State.qDepth_congr {s t : State} {q : Nat} (h : t.queue q = s.queue q) : t.qDepth q = s.qDepth q := by
  rw [State.qDepth, h, State.qDepth]

theorem State.qCapacity_congr {s t : State} {q : Nat} (h : t.reg (R.QM_Qq_CFG q) = s.reg (R.QM_Qq_CFG q)) :
    t.qCapacity q = s.qCapacity q := by
  rw [State.qCapacity, h, State.qCapacity]

theorem State.QueueSound.congr {s t : State} {q : Nat} (h : s.QueueSound q) (record : t.queue q = s.queue q)
    (cfg : t.reg (R.QM_Qq_CFG q) = s.reg (R.QM_Qq_CFG q)) : t.QueueSound q := by
  obtain ⟨once, whole, fits⟩ := h
  exact ⟨record ▸ once, by rw [record, whole, State.qCapacity_congr cfg],
    by rw [State.qDepth_congr record, State.qCapacity_congr cfg]; exact fits⟩

/-! ### Entries -/

/-- The cell of the entry at distance `i` from the oldest. -/
def State.entryCell (s : State) (q i : Nat) : Nat := (s.queue q).cellAt ((s.queue q).head + i)

theorem State.nextCell_eq (s : State) (q : Nat) : s.nextCell q = cellAddr (s.entryCell q (s.qDepth q)) := rfl

theorem State.qEntry_eq_cellWords (s : State) (q i : Nat) : s.qEntry q i = s.cellWords (s.entryCell q i) := rfl

theorem State.entries_congr {s t : State} {q : Nat} (record : t.queue q = s.queue q)
    (cells : ∀ c, t.cellWords c = s.cellWords c) : t.entries q = s.entries q := by
  simp only [State.entries, State.qEntry_eq_cellWords, State.entryCell, State.qDepth_congr record, record, cells]

/-- Entries of a queue stand in different cells. -/
theorem State.QueueSound.entryCell_ne {s : State} {q i j : Nat} (h : s.QueueSound q) (hi : i < s.qCapacity q)
    (hj : j < s.qCapacity q) (ne : i ≠ j) : s.entryCell q i ≠ s.entryCell q j := by
  obtain ⟨once, whole, -⟩ := h
  rw [← whole] at hi hj
  have within (n : Nat) : n % (s.queue q).cells.length < (s.queue q).cells.length := Nat.mod_lt _ (by omega)
  intro same
  rw [State.entryCell, State.entryCell, QueueRec.cellAt, QueueRec.cellAt, List.getD_eq_getElem _ _ (within _),
    List.getD_eq_getElem _ _ (within _), once.getElem_inj_iff] at same
  exact ne (Nat.ModEq.eq_of_lt_of_lt (Nat.ModEq.add_left_cancel' _ same) hi hj)

end Sys2Proof.Machine
end

section
/-!
Push and pop of a queue (R360, R365 to R369): the newest entry stored, the oldest removed, and the cycle that serves a push
which finds a free cell or a pop which finds a good entry.
-/
namespace Sys2Proof.Machine
open Sys2Proof

/-! ### Storing the newest entry -/

/-- The sixteen words that a push of `ws` stores: words that it does not give are 0. -/
def paddedEntry (ws : List Word) : List Word := ws.take 16 ++ List.replicate (16 - ws.length) 0#32

theorem length_paddedEntry (ws : List Word) : (paddedEntry ws).length = 16 := by
  simp only [paddedEntry, List.length_append, List.length_take, List.length_replicate]
  omega

theorem paddedEntry_of_length {ws : List Word} (h : ws.length = 16) : paddedEntry ws = ws := by
  simp [paddedEntry, List.take_of_length_le, h]

/-- A store of an entry is a store of words in the next cell, and the queue counts it. -/
theorem State.qStore_eq (s : State) (q : Nat) (ws : List Word) :
    s.qStore q ws = (s.storeWords (s.nextCell q) (paddedEntry ws)).setQueue q
      { s.queue q with pushed := (s.queue q).pushed ++ [s.clk.beat] } := rfl

theorem State.queue_qStore (s : State) (q : Nat) (ws : List Word) (k : Nat) :
    (s.qStore q ws).queue k
      = if k = q then { s.queue q with pushed := (s.queue q).pushed ++ [s.clk.beat] } else s.queue k := by
  rw [State.qStore_eq, State.queue_setQueue, (State.storeWords_sameBut _ _ s).queue_eq (by decide)]

theorem State.qStore_sameBut (s : State) (q : Nat) (ws : List Word) :
    SameBut [.mem, .ecc, .queues] s (s.qStore q ws) :=
  ((State.storeWords_sameBut _ _ s).mono (by decide)).trans ((State.setQueue_sameBut _ q _).mono (by decide))

theorem State.qStore_bytesBut (s : State) (q : Nat) (ws : List Word) :
    BytesBut (s.nextCell q) 64 s (s.qStore q ws) := by
  have stored := State.storeWords_bytesBut (paddedEntry ws) (s.nextCell q) s
  rw [length_paddedEntry] at stored
  exact stored.trans ((State.setQueue_sameBut _ q _).bytesBut (by decide) _ _)

theorem State.qDepth_qStore (s : State) (q : Nat) (ws : List Word) : (s.qStore q ws).qDepth q = s.qDepth q + 1 := by
  simp [State.qDepth, State.queue_qStore]

theorem State.entryCell_qStore (s : State) (q i : Nat) (ws : List Word) :
    (s.qStore q ws).entryCell q i = s.entryCell q i := by
  simp [State.entryCell, State.queue_qStore, QueueRec.cellAt]

theorem State.cellWords_qStore_next (s : State) (q : Nat) (ws : List Word) :
    (s.qStore q ws).cellWords (s.entryCell q (s.qDepth q)) = paddedEntry ws := by
  rw [State.qStore_eq, State.nextCell_eq, (State.setQueue_sameBut _ q _).cellWords_eq (by decide),
    s.cellWords_storeWords_self _ (length_paddedEntry ws)]

section
variable {s : State} {q : Nat} (sound : s.QueueSound q) (room : s.qDepth q < s.qCapacity q)
include sound room

/-- The new entry stands behind the others, which stay: its cell is none of theirs. -/
theorem State.entries_qStore (ws : List Word) : (s.qStore q ws).entries q = s.entries q ++ [paddedEntry ws] := by
  have others : ∀ i ∈ List.range (s.qDepth q), (s.qStore q ws).qEntry q i = s.qEntry q i := by
    intro i hi
    have older : i < s.qDepth q := List.mem_range.mp hi
    rw [State.qEntry_eq_cellWords, State.qEntry_eq_cellWords, State.entryCell_qStore]
    exact (s.qStore_bytesBut q ws).cellWords_eq (sound.entryCell_ne (older.trans room) room older.ne)
  have newest : (s.qStore q ws).qEntry q (s.qDepth q) = paddedEntry ws := by
    rw [State.qEntry_eq_cellWords, State.entryCell_qStore, State.cellWords_qStore_next]
  rw [State.entries, State.qDepth_qStore, List.range_succ, List.map_append, List.map_congr_left others, List.map_singleton,
    newest, State.entries]

theorem State.qStore_sound (ws : List Word) : (s.qStore q ws).QueueSound q := by
  obtain ⟨once, whole, -⟩ := sound
  have capacity : (s.qStore q ws).qCapacity q = s.qCapacity q :=
    State.qCapacity_congr ((s.qStore_sameBut q ws).reg_eq (by decide) _)
  refine ⟨?_, ?_, ?_⟩
  · simpa [State.queue_qStore] using once
  · simpa [State.queue_qStore, capacity] using whole
  · rw [State.qDepth_qStore, capacity]
    exact room

end

/-! ### Removing the oldest entry -/

theorem State.queue_qRemove (s : State) (q k : Nat) :
    (s.qRemove q).queue k
      = if k = q then
          { s.queue q with
            head := ((s.queue q).head + 1) % max 1 (s.queue q).cells.length, pushed := (s.queue q).pushed.drop 1 }
        else s.queue k := s.queue_setQueue q _ k

theorem State.qRemove_sameBut (s : State) (q : Nat) : SameBut [.queues] s (s.qRemove q) := s.setQueue_sameBut q _

theorem State.qDepth_qRemove (s : State) (q : Nat) : (s.qRemove q).qDepth q = s.qDepth q - 1 := by
  simp [State.qDepth, State.queue_qRemove]

/-- The entries move up by one. -/
theorem State.entryCell_qRemove (s : State) (q i : Nat) : (s.qRemove q).entryCell q i = s.entryCell q (i + 1) := by
  simp only [State.entryCell, State.queue_qRemove, if_true, QueueRec.cellAt]
  by_cases cells : (s.queue q).cells = []
  · simp [cells]
  · have nonempty : 1 ≤ (s.queue q).cells.length := List.length_pos_of_ne_nil cells
    rw [Nat.max_eq_right nonempty, Nat.mod_add_mod]
    congr 2
    omega

theorem State.entries_qRemove {s : State} {q : Nat} (held : s.qDepth q ≠ 0) :
    s.entries q = s.qEntry q 0 :: (s.qRemove q).entries q := by
  obtain ⟨n, depth⟩ := Nat.exists_eq_succ_of_ne_zero held
  have behind (i : Nat) : (s.qRemove q).qEntry q i = s.qEntry q (i + 1) := by
    rw [State.qEntry_eq_cellWords, State.qEntry_eq_cellWords, State.entryCell_qRemove]
    exact (s.qRemove_sameBut q).cellWords_eq (by decide) _
  rw [State.entries, State.entries, State.qDepth_qRemove, depth, List.range_succ_eq_map, List.map_cons, List.map_map]
  exact congrArg _ (List.map_congr_left fun i _ => (behind i).symm)

theorem State.qRemove_sound {s : State} {q : Nat} (sound : s.QueueSound q) : (s.qRemove q).QueueSound q := by
  obtain ⟨once, whole, fits⟩ := sound
  have capacity : (s.qRemove q).qCapacity q = s.qCapacity q :=
    State.qCapacity_congr ((s.qRemove_sameBut q).reg_eq (by decide) _)
  refine ⟨?_, ?_, ?_⟩
  · simpa [State.queue_qRemove] using once
  · simpa [State.queue_qRemove, capacity] using whole
  · rw [State.qDepth_qRemove, capacity]
    omega

/-- The oldest entry has no wrong bit. -/
def State.OldestGood (s : State) (q : Nat) : Prop :=
  ∀ k : Fin 16, s.eccMark (cellAddr ((s.queue q).cellAt (s.queue q).head) + 4 * k.val) = .good

section
variable {s : State} {q : Nat} (good : s.OldestGood q)
include good

theorem State.OldestGood.mark {k : Nat} (hk : k < 16) :
    s.eccMark (cellAddr ((s.queue q).cellAt (s.queue q).head) + 4 * k) = .good := good ⟨k, hk⟩

theorem State.OldestGood.qEntryBad_eq : s.qEntryBad q = none := by
  rw [State.qEntryBad]
  split
  · rfl
  · simpa [State.eccBad] using fun k hk => by rw [good.mark hk]; decide

end

/-- Reading good words finds nothing. -/
theorem State.eccWalk_of_good {s : State} {a n : Nat} (good : ∀ i, i < n → s.eccMark (a + 4 * i) = .good) :
    s.eccWalk a n = s := by
  rw [State.eccWalk]
  split
  · rfl
  · refine List.foldlRecOn (motive := fun t => t = s) _ _ rfl ?_
    rintro t rfl i hi
    simp [State.eccBad, State.eccRead, good i (List.mem_range.mp hi)]

theorem State.OldestGood.qTake_eq {s : State} {q : Nat} (good : s.OldestGood q) :
    s.qTake q = (qOk, some (s.qEntry q 0), s.qRemove q) := by
  rw [State.qTake, good.qEntryBad_eq]
  simp only [State.eccWalk_of_good fun i hi => good.mark hi]

/-! ### Watermarks -/

theorem State.qWatermarks_sameBut (s : State) (q b a : Nat) : SameBut [.due, .pulses] s (s.qWatermarks q b a) := by
  simp only [State.qWatermarks]
  split
  · exact s.fireCentral_sameBut _
  · exact .refl _ s

section
variable (s : State) (q b a : Nat)

theorem State.queue_qWatermarks (k : Nat) : (s.qWatermarks q b a).queue k = s.queue k :=
  (s.qWatermarks_sameBut q b a).queue_eq (by decide) k

theorem State.qDepth_qWatermarks (k : Nat) : (s.qWatermarks q b a).qDepth k = s.qDepth k :=
  State.qDepth_congr (s.queue_qWatermarks q b a k)

theorem State.entries_qWatermarks (k : Nat) : (s.qWatermarks q b a).entries k = s.entries k :=
  State.entries_congr (s.queue_qWatermarks q b a k) fun c => (s.qWatermarks_sameBut q b a).cellWords_eq (by decide) c

end

theorem State.QueueSound.qWatermarks {s : State} {k : Nat} (h : s.QueueSound k) (q b a : Nat) :
    (s.qWatermarks q b a).QueueSound k :=
  h.congr (s.queue_qWatermarks q b a k) ((s.qWatermarks_sameBut q b a).reg_eq (by decide) _)

/-! ### A push that finds a free cell -/

/-- The state after a push that finds a free cell. -/
def State.qPushed (s : State) (q : Nat) (ws : List Word) : State :=
  (s.qStore q ws).qWatermarks q (s.qDepth q) ((s.qStore q ws).qDepth q)

theorem State.qServe_push {s : State} {q : Nat} (room : s.qDepth q < s.qCapacity q) (ws : List Word) :
    s.qServe q (some ws) false = (⟨qOk, false, qOk, none⟩, s.qPushed q ws) := by
  simp [State.qServe, State.qPushed, room.ne]

theorem State.qPush_eq_qPushed {s : State} {d : Nat} {h : Word} (taken : s.qRefusal d h true = none)
    (room : s.qDepth (fld h 15 0) < s.qCapacity (fld h 15 0)) (ws : List Word) :
    s.qPush d h ws = (qOk, false, s.qPushed (fld h 15 0) ws) := by
  simp only [State.qPush, taken, State.qServe_push room]

theorem State.queue_qPushed_ne {s : State} {q k : Nat} (ne : k ≠ q) (ws : List Word) :
    (s.qPushed q ws).queue k = s.queue k := by
  rw [State.qPushed, State.queue_qWatermarks, State.queue_qStore, if_neg ne]

theorem State.qDepth_qPushed (s : State) (q : Nat) (ws : List Word) : (s.qPushed q ws).qDepth q = s.qDepth q + 1 := by
  rw [State.qPushed, State.qDepth_qWatermarks, State.qDepth_qStore]

theorem State.qPushed_sameBut (s : State) (q : Nat) (ws : List Word) :
    SameBut [.mem, .ecc, .queues, .due, .pulses] s (s.qPushed q ws) :=
  ((s.qStore_sameBut q ws).mono (by decide)).trans ((State.qWatermarks_sameBut _ q _ _).mono (by decide))

theorem State.qPushed_bytesBut (s : State) (q : Nat) (ws : List Word) :
    BytesBut (s.nextCell q) 64 s (s.qPushed q ws) :=
  (s.qStore_bytesBut q ws).trans ((State.qWatermarks_sameBut _ q _ _).bytesBut (by decide) _ _)

section
variable {s : State} {q : Nat} (sound : s.QueueSound q) (room : s.qDepth q < s.qCapacity q)
include sound room

theorem State.entries_qPushed (ws : List Word) : (s.qPushed q ws).entries q = s.entries q ++ [paddedEntry ws] := by
  rw [State.qPushed, State.entries_qWatermarks, State.entries_qStore sound room]

theorem State.qPushed_sound (ws : List Word) : (s.qPushed q ws).QueueSound q :=
  (State.qStore_sound sound room ws).qWatermarks q _ _

end

/-! ### A pop that finds a good entry -/

/-- The state after a pop that finds an entry without a wrong bit. -/
def State.qPopped (s : State) (q : Nat) : State :=
  (s.qRemove q).qWatermarks q (s.qDepth q) ((s.qRemove q).qDepth q)

theorem State.qServe_pop {s : State} {q : Nat} (held : s.qDepth q ≠ 0) (good : s.OldestGood q) :
    s.qServe q none true = (⟨qOk, false, qOk, some (s.qEntry q 0)⟩, s.qPopped q) := by
  simp [State.qServe, State.qPopped, held, good.qTake_eq]

theorem State.qPop_eq_qPopped {s : State} {d : Nat} {h : Word} (taken : s.qRefusal d h false = none)
    (held : s.qDepth (fld h 15 0) ≠ 0) (good : s.OldestGood (fld h 15 0)) :
    s.qPop d h = (qOk, some (s.qEntry (fld h 15 0) 0), s.qPopped (fld h 15 0)) := by
  have fine : qOk ≠ qCellError := by decide
  simp only [State.qPop, taken, State.qServe_pop held good, if_neg fine]

theorem State.queue_qPopped_ne {s : State} {q k : Nat} (ne : k ≠ q) : (s.qPopped q).queue k = s.queue k := by
  rw [State.qPopped, State.queue_qWatermarks, State.queue_qRemove, if_neg ne]

theorem State.qDepth_qPopped (s : State) (q : Nat) : (s.qPopped q).qDepth q = s.qDepth q - 1 := by
  rw [State.qPopped, State.qDepth_qWatermarks, State.qDepth_qRemove]

theorem State.qPopped_sameBut (s : State) (q : Nat) : SameBut [.queues, .due, .pulses] s (s.qPopped q) :=
  ((s.qRemove_sameBut q).mono (by decide)).trans ((State.qWatermarks_sameBut _ q _ _).mono (by decide))

theorem State.entries_qPopped {s : State} {q : Nat} (held : s.qDepth q ≠ 0) :
    s.entries q = s.qEntry q 0 :: (s.qPopped q).entries q := by
  rw [State.qPopped, State.entries_qWatermarks, ← State.entries_qRemove held]

theorem State.qPopped_sound {s : State} {q : Nat} (sound : s.QueueSound q) : (s.qPopped q).QueueSound q :=
  (State.qRemove_sound sound).qWatermarks q _ _

end Sys2Proof.Machine
end

section
/-!
O51: reads of a queue port's QP_PUSH and QP_POP (R364), QM_Qq_STATE, and the statement.
-/
namespace Sys2Proof.Machine
open Sys2Proof

/-! ### The buffer of a port -/

theorem State.length_portBuffer (s : State) (d p : Nat) : (s.portBuffer d p).length = 16 := by simp [State.portBuffer]

theorem State.setPortBuffer_sameBut (s : State) (d p : Nat) (ws : List Word) :
    SameBut [.regs] s (s.setPortBuffer d p ws) :=
  SameBut.foldl (fun t _ => t.setReg_sameBut _ _) _ s

theorem State.setPortBuffer_regsBut (s : State) (d p : Nat) (ws : List Word) :
    RegsBut (portRegs d p) s (s.setPortBuffer d p ws) := by
  refine List.foldlRecOn (motive := RegsBut (portRegs d p) s) _ _ (.refl _ s) fun t kept i hi => ?_
  refine kept.trans ((t.setReg_regsBut _ _).mono ?_)
  rw [List.cons_subset]
  exact ⟨List.mem_map_of_mem hi, List.nil_subset _⟩

theorem QP_DATAi_inj {d p i j : Nat} : R.QP_DATAi d p i = R.QP_DATAi d p j ↔ i = j := by
  simp only [R.QP_DATAi]
  omega

/-- What a word of the buffer reads as after the first `n` have been written. -/
theorem State.reg_foldl_setReg_portData (s : State) (d p j : Nat) (ws : List Word) (n : Nat) :
    ((List.range n).foldl (fun t i => t.setReg (R.QP_DATAi d p i) (ws.getD i 0#32)) s).reg (R.QP_DATAi d p j)
      = if j < n then ws.getD j 0#32 else s.reg (R.QP_DATAi d p j) := by
  induction n with
  | zero => rfl
  | succ n ih =>
    rw [List.range_succ, List.foldl_append, List.foldl_cons, List.foldl_nil, State.reg_setReg, ih]
    simp only [QP_DATAi_inj]
    obtain below | rfl | above := Nat.lt_trichotomy j n
    · rw [if_neg below.ne, if_pos below, if_pos (by omega)]
    · rw [if_pos rfl, if_pos (by omega)]
    · rw [if_neg above.ne', if_neg (by omega), if_neg (by omega)]

theorem State.portBuffer_setPortBuffer (s : State) (d p : Nat) {ws : List Word} (h : ws.length = 16) :
    (s.setPortBuffer d p ws).portBuffer d p = ws := by
  refine Eq.trans (List.map_congr_left fun j hj => ?_) (map_range_getD h)
  exact (s.reg_foldl_setReg_portData d p j ws 16).trans (if_pos (List.mem_range.mp hj))

/-- Ports and queues have different registers. -/
theorem QM_Qq_CFG_not_mem_portRegs {d p : Nat} (q : Nat) (hd : d < 16) (hp : p < 16) :
    R.QM_Qq_CFG q ∉ portRegs d p := by
  simp only [portRegs, List.mem_map, List.mem_range, not_exists, not_and, R.QM_Qq_CFG, R.QP_DATAi]
  omega

/-! ### Responses leave queues and buffers -/

section
variable (s : State) (m : Master) (r : BusResult)

@[simp] theorem State.answer_queue (q : Nat) : (s.answer m r).queue q = s.queue q := rfl

@[simp] theorem State.answer_qDepth (q : Nat) : (s.answer m r).qDepth q = s.qDepth q := rfl

@[simp] theorem State.answer_entries (q : Nat) : (s.answer m r).entries q = s.entries q := rfl

@[simp] theorem State.answer_portBuffer (d p : Nat) : (s.answer m r).portBuffer d p = s.portBuffer d p := rfl

end

theorem State.QueueSound.answer {s : State} {q : Nat} (h : s.QueueSound q) (m : Master) (r : BusResult) :
    (s.answer m r).QueueSound q := h.congr rfl rfl

theorem BytesBut.answer {a n : Nat} {s t : State} (h : BytesBut a n s t) (m : Master) (r : BusResult) :
    BytesBut a n s (t.answer m r) := h.trans ((t.answer_sameBut m r).bytesBut (by decide) a n)

theorem RegsBut.answer {l : List Nat} {s t : State} (h : RegsBut l s t) (m : Master) (r : BusResult) :
    RegsBut l s (t.answer m r) := h.trans ((t.answer_sameBut m r).regsBut (by decide) l)

/-! ### Reads of a port -/

/-- The result word of an operation that is served holds the depth alone. -/
theorem resultWord_ok (n : Nat) : resultWord qOk false n = w32 n := by
  simp [resultWord, qOk, qStale, qRefused, at_, b2n]

/-- A read of a register that is answered with data. -/
theorem State.readCmd_of_data {s t : State} {m : Master} {b : Blk} {r : RegRow} {a : Nat} {v : Word}
    (h : s.Reads m b r a) (aligned : a % 4 = 0) (data : s.busRead m a 4 = (.data v, t)) :
    s.readCmd m a 4 = .next (t.answer m (.data v)) := by
  unfold State.readCmd State.masterRead
  rw [h.acts, State.readWaits_register h.place, data, ownCheck_word m aligned]
  cases m <;> rfl

theorem portOf_of_offset {d p o : Nat} (hd : d < 16) (hp : p < 16) (ho : o < 0x100) :
    portOf (0x51010000 + 0x1000 * d + 0x100 * p + o) = some (d, p) := by
  have inside : 0x51010000 ≤ 0x51010000 + 0x1000 * d + 0x100 * p + o
      ∧ 0x51010000 + 0x1000 * d + 0x100 * p + o < 0x51020000 := by omega
  rw [portOf, if_pos inside, Option.some_inj, Prod.mk.injEq]
  omega

section
variable {s : State} {m : Master} {r : RegRow} {d p : Fin 16}

/-- A read of QP_PUSH that nothing refuses. -/
theorem exec_qpPush (h : s.Reads m .qm r (R.QP_PUSH d.val p.val)) :
    exec (.qpPush m d p) s = .next ((s.portPush d.val p.val).2.answer m (.data (s.portPush d.val p.val).1)) := by
  have aligned : R.QP_PUSH d.val p.val % 4 = 0 := by simp only [R.QP_PUSH]; omega
  have port : portOf (R.QP_PUSH d.val p.val) = some (d.val, p.val) := by
    have offset : R.QP_PUSH d.val p.val = 0x51010000 + 0x1000 * d.val + 0x100 * p.val + 4 := by
      simp only [R.QP_PUSH]; omega
    rw [offset, portOf_of_offset d.isLt p.isLt (by decide)]
  refine State.readCmd_of_data h aligned ?_
  simp [State.busRead, State.readAs, State.overPath, h.path, h.place, sizeOk, aligned, State.readPlace, h.there, h.may, port]

/-- A read of QP_POP that nothing refuses. -/
theorem exec_qpPop (h : s.Reads m .qm r (R.QP_POP d.val p.val)) :
    exec (.qpPop m d p) s = .next ((s.portPop d.val p.val).2.answer m (.data (s.portPop d.val p.val).1)) := by
  have aligned : R.QP_POP d.val p.val % 4 = 0 := by simp only [R.QP_POP]; omega
  have port : portOf (R.QP_POP d.val p.val) = some (d.val, p.val) := by
    have offset : R.QP_POP d.val p.val = 0x51010000 + 0x1000 * d.val + 0x100 * p.val + 8 := by
      simp only [R.QP_POP]; omega
    rw [offset, portOf_of_offset d.isLt p.isLt (by decide)]
  have notPush : R.QP_POP d.val p.val ≠ R.QP_PUSH d.val p.val := by simp only [R.QP_POP, R.QP_PUSH]; omega
  refine State.readCmd_of_data h aligned ?_
  simp [State.busRead, State.readAs, State.overPath, h.path, h.place, sizeOk, aligned, State.readPlace, h.there, h.may, port,
    notPush]

end

section
variable {s : State} {d p : Nat}

theorem State.portPush_eq_qPushed (taken : s.qRefusal d (s.reg (R.QP_HANDLE d p)) true = none)
    (room : s.qDepth (s.portQueue d p) < s.qCapacity (s.portQueue d p)) :
    s.portPush d p = (w32 (s.qDepth (s.portQueue d p) + 1), s.qPushed (s.portQueue d p) (s.portBuffer d p)) := by
  simp only [State.portPush, State.qPush_eq_qPushed taken room, resultWord_ok]
  rw [State.qDepth_qPushed, State.portQueue]

/-- The state after a read of QP_POP that finds an entry without a wrong bit: the buffer holds what the queue has lost. -/
def State.portPopped (s : State) (d p : Nat) : State :=
  (s.qPopped (s.portQueue d p)).setPortBuffer d p (s.qEntry (s.portQueue d p) 0)

theorem State.portPop_eq_portPopped (taken : s.qRefusal d (s.reg (R.QP_HANDLE d p)) false = none)
    (held : s.qDepth (s.portQueue d p) ≠ 0) (good : s.OldestGood (s.portQueue d p)) :
    s.portPop d p = (w32 (s.qDepth (s.portQueue d p) - 1), s.portPopped d p) := by
  simp only [State.portPop, State.qPop_eq_qPopped taken held good, resultWord_ok]
  rw [State.qDepth_qPopped, State.portPopped, State.portQueue]

end

section
variable (s : State) (d p : Nat)

theorem State.portBuffer_portPopped : (s.portPopped d p).portBuffer d p = s.qEntry (s.portQueue d p) 0 :=
  State.portBuffer_setPortBuffer _ d p (s.length_cellWords _)

theorem State.portPopped_sameBut : SameBut [.regs, .queues, .due, .pulses] s (s.portPopped d p) :=
  ((s.qPopped_sameBut _).mono (by decide)).trans ((State.setPortBuffer_sameBut _ d p _).mono (by decide))

theorem State.portPopped_regsBut : RegsBut (portRegs d p) s (s.portPopped d p) :=
  ((s.qPopped_sameBut _).regsBut (by decide) _).trans (State.setPortBuffer_regsBut _ d p _)

/-- The buffer is no part of any queue. -/
theorem State.queue_portPopped (k : Nat) : (s.portPopped d p).queue k = (s.qPopped (s.portQueue d p)).queue k :=
  (State.setPortBuffer_sameBut _ d p _).queue_eq (by decide) k

theorem State.qDepth_portPopped : (s.portPopped d p).qDepth (s.portQueue d p) = s.qDepth (s.portQueue d p) - 1 :=
  (State.qDepth_congr (s.queue_portPopped d p _)).trans (s.qDepth_qPopped _)

theorem State.entries_portPopped (held : s.qDepth (s.portQueue d p) ≠ 0) :
    s.entries (s.portQueue d p) = (s.portPopped d p).portBuffer d p :: (s.portPopped d p).entries (s.portQueue d p) := by
  have entries : (s.portPopped d p).entries (s.portQueue d p) = (s.qPopped (s.portQueue d p)).entries (s.portQueue d p) :=
    State.entries_congr (s.queue_portPopped d p _)
      fun c => (State.setPortBuffer_sameBut _ d p _).cellWords_eq (by decide) c
  rw [State.portBuffer_portPopped, entries, State.entries_qPopped held]

end

theorem State.portPopped_sound {s : State} {d p : Nat} (hd : d < 16) (hp : p < 16)
    (sound : s.QueueSound (s.portQueue d p)) : (s.portPopped d p).QueueSound (s.portQueue d p) :=
  (State.qPopped_sound sound).congr (s.queue_portPopped d p _)
    (State.setPortBuffer_regsBut _ d p _ _ (QM_Qq_CFG_not_mem_portRegs _ hd hp))

/-! ### QM_Qq_STATE -/

theorem State.qmView_state (s : State) (q : Nat) : s.qmView (R.QM_Qq_STATE q) = s.qStateView q := by
  have notFree : R.QM_Qq_STATE q ≠ R.QM_FREE := by simp only [R.QM_Qq_STATE, R.QM_FREE]; omega
  have queues : R.QM_Qq_OWN 0 ≤ R.QM_Qq_STATE q := by simp only [R.QM_Qq_STATE, R.QM_Qq_OWN]; omega
  have number : (R.QM_Qq_STATE q - R.QM_Qq_OWN 0) / 32 = q := by simp only [R.QM_Qq_STATE, R.QM_Qq_OWN]; omega
  rw [State.qmView, if_neg notFree, if_pos queues, number, if_pos rfl]

section
variable {s : State} {q : Nat} (small : s.qDepth q ≤ 4096)
include small

theorem State.fld_qStateView_depth : fld (s.qStateView q) 12 0 = s.qDepth q := by
  simp only [State.qStateView, fld, at_, w32, BitVec.toNat_ofNat, Nat.shiftLeft_eq, Nat.shiftRight_zero]
  omega

theorem State.bit_qStateView_full :
    bit (s.qStateView q) 15 = (s.qEnabled q && s.qDepth q == s.qCapacity q) := by
  have one (b : Bool) : b2n b ≤ 1 := by cases b <;> decide
  have empty := one (s.qDepth q == 0)
  have full := one (s.qEnabled q && s.qDepth q == s.qCapacity q)
  have value : (s.qStateView q).toNat / 2 ^ 15 % 2 = b2n (s.qEnabled q && s.qDepth q == s.qCapacity q) := by
    simp only [State.qStateView, at_, w32, BitVec.toNat_ofNat, Nat.shiftLeft_eq]
    omega
  rw [bit, BitVec.getLsbD, Nat.testBit_eq_decide_div_mod_eq, value]
  cases (s.qEnabled q && s.qDepth q == s.qCapacity q) <;> rfl

end

/-! ### The statement -/

/-- Settles O51: a push that finds a free cell leads to `qPushed`, a pop of a good entry to `qPopped`, whose entries
follow from the cells of a sound queue being different ones; a port adds its buffer and the reply. -/
theorem queueEntriesInOrder : Obligations.QueueEntriesInOrder := by
  refine ⟨?push, ?portPush, ?portPop, ?state⟩
  case push =>
    intro s d h ws taken sound length room
    refine ⟨_, State.qPush_eq_qPushed taken room ws, ?_, State.qPushed_sound sound room ws⟩
    rw [State.entries_qPushed sound room, paddedEntry_of_length length]
  case portPush =>
    rintro m d p q s r h rfl taken sound room
    have run := exec_qpPush h
    rw [State.portPush_eq_qPushed taken room] at run
    have frame := s.qPushed_sameBut (s.portQueue d p) (s.portBuffer d p)
    refine ⟨_, run, ?_, ?_, (State.qPushed_sound sound room _).answer m _, State.answer_reply _ m _, fun k ne => ?_,
      (s.qPushed_bytesBut _ _).answer m _, (frame.regsBut (by decide) []).answer m _,
      (frame.mono (by decide)).answer (by decide) m _⟩
    · rw [State.answer_entries, State.entries_qPushed sound room, paddedEntry_of_length (s.length_portBuffer d p)]
    · rw [State.answer_qDepth, State.qDepth_qPushed]
    · rw [State.answer_queue, State.queue_qPushed_ne ne]
  case portPop =>
    rintro m d p q s r h rfl taken sound held good
    have run := exec_qpPop h
    rw [State.portPop_eq_portPopped taken held good] at run
    refine ⟨_, run, ?_, State.length_portBuffer _ d p, ?_, (State.portPopped_sound d.isLt p.isLt sound).answer m _,
      State.answer_reply _ m _, fun k ne => ?_, (s.portPopped_regsBut d p).answer m _,
      ((s.portPopped_sameBut d p).mono (by decide)).answer (by decide) m _⟩
    · rw [State.answer_portBuffer, State.answer_entries, State.entries_portPopped s d p held]
    · rw [State.answer_qDepth, State.qDepth_portPopped, Nat.sub_add_cancel (Nat.pos_of_ne_zero held)]
    · rw [State.answer_queue, State.queue_portPopped, State.queue_qPopped_ne ne]
  case state =>
    intro q s sound enabled small
    have depth : s.qDepth q ≤ 4096 := sound.fits.trans small
    rw [State.qmView_state]
    refine ⟨State.fld_qStateView_depth depth, by simp [State.entries], sound.fits, ?_⟩
    rw [State.bit_qStateView_full depth, enabled, Bool.true_and, beq_iff_eq]

end Sys2Proof.Machine
end

section
/-!
Pops and errors of memory: what reading words through their check does to the state (R338, R340), and what a pop of a queue
leaves as it was whatever it finds (R369).
-/
namespace Sys2Proof.Machine
open Sys2Proof

/-- A frame grows by the frame of a later operation that changes no further part. -/
theorem SameBut.andThen {l k : List Part} {s t u : State} (h : SameBut l s t) (later : SameBut k t u)
    (sub : k ⊆ l := by decide) : SameBut l s u := h.trans (later.mono sub)

theorem SameBut.andThenIf {l k : List Part} {s t u : State} {c : Prop} [Decidable c] (h : SameBut l s t)
    (later : SameBut k t u) (sub : k ⊆ l := by decide) : SameBut l s (if c then u else t) := by
  split
  · exact h.andThen later sub
  · exact h

theorem SameBut.mp_eq {l : List Part} {s t : State} (h : SameBut l s t) (keeps : Part.mp ∉ l) : t.mp = s.mp := h .mp keeps

/-! ### Words in error and corrections -/

theorem State.report_sameBut (s : State) (source reporter cause : Nat) (detail : Word) :
    SameBut [.due] s (s.report source reporter cause detail) := by
  intro p hp
  cases p
  case due => exact absurd hp (by decide)
  all_goals rfl

theorem State.setMacro_sameBut (s : State) (k : Nat) (r : MacroRec) : SameBut [.macros] s (s.setMacro k r) := by
  intro p hp
  cases p
  case macros => exact absurd hp (by decide)
  all_goals rfl

theorem State.setEcc_sameBut (s : State) (a : Nat) (x : WordMark) : SameBut [.ecc] s (s.setEcc a x) := by
  intro p hp
  cases p
  case ecc => exact absurd hp (by decide)
  all_goals rfl

theorem State.meLast_sameBut (s : State) (kind mem a : Nat) : SameBut [.regs] s (s.meLast kind mem a) :=
  (s.setReg_sameBut _ _).trans (State.setReg_sameBut _ _ _)

theorem State.meCount_sameBut (s : State) (high : Bool) : SameBut [.regs] s (s.meCount high) := by
  cases high <;> exact s.setReg_sameBut _ _

theorem State.eccFound_sameBut (s : State) (mem a : Nat) (latent : Bool) :
    SameBut [.regs, .scCount, .due] s (s.eccFound mem a latent) :=
  SameBut.refl _ s
    |>.andThen (s.meCount_sameBut true)
    |>.andThen (State.meLast_sameBut _ _ mem a)
    |>.andThen (State.flag_sameBut _ _ _)
    |>.andThen (State.report_sameBut _ _ _ _ _)

theorem State.eccAccess_sameBut (s : State) (a : Nat) : SameBut [.regs, .scCount, .due] s (s.eccAccess a) := by
  rw [State.eccAccess]
  split
  · exact (s.eccFound_sameBut _ _ false).andThenIf (State.flag_sameBut _ _ _)
  · exact .refl _ s

theorem State.permanentWord_sameBut (s : State) (mem a : Nat) :
    SameBut [.regs, .scCount, .due, .macros] s (s.permanentWord mem a) := by
  simp only [State.permanentWord]
  split
  · exact .refl _ s
  · split
    · exact (s.setMacro_sameBut _ _).mono (by decide)
    · exact SameBut.refl _ s |>.andThen (s.flag_sameBut _ _) |>.andThen (State.report_sameBut _ _ _ _ _)

theorem State.eccCorrect_sameBut (s : State) (mem a : Nat) :
    SameBut [.regs, .scCount, .due, .ecc, .macros] s (s.eccCorrect mem a) := by
  rw [State.eccCorrect]
  exact SameBut.refl _ s
    |>.andThen (s.setEcc_sameBut a .good)
    |>.andThen (State.setMacro_sameBut _ _ _)
    |>.andThen (State.meCount_sameBut _ false)
    |>.andThen (State.meLast_sameBut _ 0 mem a)
    |>.andThen (State.flag_sameBut _ _ _)
    |>.andThenIf (State.permanentWord_sameBut _ mem a)

theorem State.eccRead_sameBut (s : State) (a : Nat) : SameBut [.regs, .scCount, .due, .ecc, .macros] s (s.eccRead a) := by
  rw [State.eccRead]
  split
  · split
    · exact s.eccCorrect_sameBut _ _
    · exact .refl _ s
  · exact .refl _ s

theorem State.eccWalk_sameBut (s : State) (a n : Nat) :
    SameBut [.regs, .scCount, .due, .ecc, .macros] s (s.eccWalk a n) := by
  rw [State.eccWalk]
  split
  · exact .refl _ s
  · refine SameBut.foldl (fun t i => ?_) _ s
    split
    · exact (t.eccAccess_sameBut _).mono (by decide)
    · exact t.eccRead_sameBut _

/-! ### Pops -/

theorem State.qTake_sameBut (s : State) (q : Nat) :
    SameBut [.regs, .scCount, .queues, .due, .ecc, .macros] s (s.qTake q).2.2 := by
  rw [State.qTake]
  split
  · exact SameBut.refl _ s |>.andThen (s.eccAccess_sameBut _) |>.andThen (State.qRemove_sameBut _ q)
  · exact SameBut.refl _ s |>.andThen (s.eccWalk_sameBut _ _) |>.andThen (State.qRemove_sameBut _ q)

/-- The parts that a pop may change. -/
abbrev popParts : List Part := [.regs, .scCount, .queues, .due, .pulses, .ecc, .macros]

theorem State.qServe_pop_sameBut (s : State) (q : Nat) : SameBut popParts s (s.qServe q none true).2 := by
  by_cases empty : s.qDepth q = 0
  · simp only [State.qServe, empty, Bool.not_true, Bool.false_eq_true, if_false, if_true]
    exact (s.qWatermarks_sameBut q _ _).mono (by decide)
  · simp only [State.qServe, empty, Bool.not_true, Bool.false_eq_true, if_false]
    exact SameBut.refl popParts s |>.andThen (s.qTake_sameBut q) |>.andThen (State.qWatermarks_sameBut _ q _ _)

theorem State.qFault_sameBut (s : State) (code d q flag : Nat) : SameBut [.regs, .scCount] s (s.qFault code d q flag) :=
  SameBut.refl _ s |>.andThen (s.setReg_sameBut _ _) |>.andThen (State.flag_sameBut _ _ flag)

theorem State.qPop_sameBut (s : State) (d : Nat) (h : Word) : SameBut popParts s (s.qPop d h).2.2 := by
  rw [State.qPop]
  split
  · exact (s.qFault_sameBut _ d _ _).mono (by decide)
  · have served := s.qServe_pop_sameBut (fld h 15 0)
    exact served.andThenIf (State.qFault_sameBut _ _ d _ _)

end Sys2Proof.Machine
end

section
/-!
Requests of the mailboxes (R380, R382, R383): how taking, answering and completing a request change the requests that are
with Ottar, and what they leave as it was.
-/
namespace Sys2Proof.Machine
open Sys2Proof

/-! ### Replacing the first equal element -/

theorem mem_replace_self {α : Type} [BEq α] [LawfulBEq α] {a b : α} : ∀ {l : List α}, a ∈ l → b ∈ l.replace a b
  | x :: l, h => by
    rw [List.replace_cons]
    split
    · exact List.mem_cons_self
    · next other =>
      have later : a ∈ l := (List.mem_cons.mp h).resolve_left (by simpa using other)
      exact List.mem_cons_of_mem x (mem_replace_self later)

theorem eq_or_mem_of_mem_replace {α : Type} [BEq α] {a b c : α} : ∀ {l : List α}, c ∈ l.replace a b → c = b ∨ c ∈ l
  | [], h => .inr h
  | x :: l, h => by
    rw [List.replace_cons] at h
    split at h
    · exact (List.mem_cons.mp h).imp_right (List.mem_cons_of_mem x)
    · rcases List.mem_cons.mp h with rfl | later
      · exact .inr List.mem_cons_self
      · exact (eq_or_mem_of_mem_replace later).imp_right (List.mem_cons_of_mem x)

/-- An element that is put behind a list and then replaced: where the list holds an equal one, that one is replaced. -/
theorem eq_or_mem_of_mem_replace_append {α : Type} [BEq α] [LawfulBEq α] {a b c : α} {l : List α}
    (h : c ∈ (l ++ [a]).replace a b) : c = b ∨ c ∈ l := by
  by_cases twin : a ∈ l
  · rw [List.replace_append_left twin, List.mem_append, List.mem_singleton] at h
    rcases h with replaced | rfl
    · exact eq_or_mem_of_mem_replace replaced
    · exact .inr twin
  · rw [List.replace_append_right twin, List.replace_cons_self] at h
    simpa [or_comm] using h

/-! ### Taking a request -/

theorem State.setMp_sameBut (s : State) (r : MpState) : SameBut [.mp] s (s.setMp r) := by
  intro p hp
  cases p
  case mp => exact absurd hp (by decide)
  all_goals rfl

theorem State.mbTaken_sameBut (s : State) (r : MbRequest) : SameBut [.regs, .mp] s (s.mbTaken r) :=
  SameBut.refl _ s |>.andThen (s.setMp_sameBut _) |>.andThen (State.setReg_sameBut _ _ _)

theorem State.mbTaken_requests (s : State) (r : MbRequest) : (s.mbTaken r).mp.requests = s.mp.requests ++ [r] := rfl

/-! ### Completing requests -/

/-- The parts that the completion of a request may change. -/
abbrev completionParts : List Part := [.regs, .scCount, .mp, .due, .pulses, .pow]

theorem State.setPow_sameBut (s : State) (p : PowerState) : SameBut [.pow] s (s.setPow p) := by
  intro q hq
  cases q
  case pow => exact absurd hq (by decide)
  all_goals rfl

/-- Once the request has left, its completion touches other parts: LAST_STATE, C0_LATE, the mailbox's event, a reset. -/
theorem State.mbComplete_sameBut_erased (s : State) (r : MbRequest) (status : Nat) :
    SameBut [.regs, .scCount, .due, .pulses, .pow] (s.setMp { s.mp with requests := s.mp.requests.erase r })
      (s.mbComplete r status) := by
  rw [State.mbComplete]
  exact SameBut.refl _ _
    |>.andThen (State.setReg_sameBut _ _ _)
    |>.andThenIf (State.flag_sameBut _ _ _)
    |>.andThenIf (State.fireCentral_sameBut _ _)
    |>.andThenIf (State.setPow_sameBut _ _)

theorem State.mbComplete_sameBut (s : State) (r : MbRequest) (status : Nat) :
    SameBut completionParts s (s.mbComplete r status) :=
  SameBut.refl _ s |>.andThen (s.setMp_sameBut _) |>.andThen (s.mbComplete_sameBut_erased r status)

theorem State.mbComplete_requests (s : State) (r : MbRequest) (status : Nat) :
    (s.mbComplete r status).mp.requests = s.mp.requests.erase r :=
  congrArg MpState.requests ((s.mbComplete_sameBut_erased r status).mp_eq (by decide))

/-- A request has been answered without a response to send (R383). -/
def MbRequest.AnsweredQuietly (r : MbRequest) : Prop := ∃ a, r.answer = some a ∧ a.cells = []

/-- What holds before quiet successes complete, and is kept by the completion of each, holds after. -/
theorem State.mbQuiet_induct {P : State → Prop} {mb : Nat}
    (complete : ∀ u r, r.AnsweredQuietly → P u → P (u.mbComplete r 0)) : ∀ (k : Nat) (s : State), P s → P (s.mbQuiet mb k)
  | 0, _, h => h
  | k + 1, s, h => by
    rw [State.mbQuiet]
    split
    · next r found =>
      refine State.mbQuiet_induct complete k _ (complete s r ?_ h)
      have chosen := List.find?_some found
      cases answer : r.answer with
      | none => simp [answer] at chosen
      | some a => exact ⟨a, answer, by simpa [answer] using (Bool.and_eq_true_iff.mp chosen).2⟩
    · exact h

theorem State.mbQuiet_sameBut (s : State) (mb k : Nat) : SameBut completionParts s (s.mbQuiet mb k) :=
  State.mbQuiet_induct (fun u r _ h => h.trans (u.mbComplete_sameBut r 0)) k s (.refl _ s)

theorem State.mbQuiet_requests_subset (s : State) (mb k : Nat) : (s.mbQuiet mb k).mp.requests ⊆ s.mp.requests := by
  refine State.mbQuiet_induct (P := fun t => t.mp.requests ⊆ s.mp.requests) (fun u r _ h => ?_) k s (List.Subset.refl _)
  rw [State.mbComplete_requests]
  exact fun y hy => h (List.mem_of_mem_erase hy)

/-- A request with a response to send waits for it. -/
theorem State.mem_mbQuiet_requests {s : State} {x : MbRequest} (waits : ¬ x.AnsweredQuietly) (h : x ∈ s.mp.requests)
    (mb k : Nat) : x ∈ (s.mbQuiet mb k).mp.requests := by
  refine State.mbQuiet_induct (P := fun t => x ∈ t.mp.requests) (fun u r quiet h => ?_) k s h
  have other : x ≠ r := fun same => waits (same ▸ quiet)
  rwa [State.mbComplete_requests, List.mem_erase_of_ne other]

/-! ### Failing a request -/

/-- The request with the response that reports a failure. -/
def MbRequest.failed (r : MbRequest) (status info : Nat) : MbRequest :=
  { r with answer := some ⟨status, responseCells r.tag r.code r.flags r.cls status (w32 info) [], none⟩ }

/-- A failure is reported even where the request is QUIET (R383). -/
theorem State.mbFail_eq {status : Nat} (failure : status ≠ stOk) (s : State) (r : MbRequest) (info : Nat) :
    s.mbFail r status info = (s.mbSet r (r.failed status info)).mbQuiet r.mb 32 := by
  have loud : ¬ (r.quiet && status == 0) = true := by
    rw [Bool.and_eq_true, beq_iff_eq]
    exact fun h => failure h.2
  rw [State.mbFail, State.mbRespond]
  simp only [if_neg loud]
  rfl

theorem MbRequest.failed_not_answeredQuietly (r : MbRequest) (status info : Nat) : ¬ (r.failed status info).AnsweredQuietly := by
  rintro ⟨a, answer, silent⟩
  cases answer
  simp [responseCells, cellsOf] at silent

section
variable {status : Nat} (failure : status ≠ stOk) (s : State) (r : MbRequest) (info : Nat)
include failure

theorem State.mbFail_sameBut : SameBut completionParts s (s.mbFail r status info) := by
  rw [State.mbFail_eq failure]
  exact SameBut.refl _ s |>.andThen (s.setMp_sameBut _) |>.andThen (State.mbQuiet_sameBut _ r.mb 32)

theorem State.failed_mem_mbFail {r : MbRequest} (h : r ∈ s.mp.requests) :
    r.failed status info ∈ (s.mbFail r status info).mp.requests := by
  rw [State.mbFail_eq failure]
  exact State.mem_mbQuiet_requests (r.failed_not_answeredQuietly status info) (mem_replace_self h) r.mb 32

theorem State.eq_or_mem_of_mem_mbTaken_mbFail {y : MbRequest} (h : y ∈ ((s.mbTaken r).mbFail r status info).mp.requests) :
    y = r.failed status info ∨ y ∈ s.mp.requests := by
  rw [State.mbFail_eq failure] at h
  have replaced : y ∈ ((s.mbTaken r).mbSet r (r.failed status info)).mp.requests := State.mbQuiet_requests_subset _ r.mb 32 h
  exact eq_or_mem_of_mem_replace_append replaced

end

/-- The turn of an answered request never comes. -/
theorem State.mbTurn_failed (s : State) (r : MbRequest) (status info : Nat) : s.mbTurn (r.failed status info) = false := rfl

end Sys2Proof.Machine
end

section
/-!
O54: REQUEST_TAKE of a whole request packet (R380, R382) and the statement.
-/
namespace Sys2Proof.Machine
open Sys2Proof

/-! ### A whole packet leaves its queue -/

/-- Pop one more cell of a queue, behind those popped before. -/
def State.cellPopped (q : Nat) (x : List Word × State) : List Word × State :=
  (x.1 ++ (x.2.qPop 0 (x.2.qHandle q)).2.1.getD [], (x.2.qPop 0 (x.2.qHandle q)).2.2)

/-- Pop `n` cells of a queue: their words and the state after. -/
def State.packetPopped (s : State) (q n : Nat) : List Word × State :=
  (List.range n).foldl (fun x _ => State.cellPopped q x) ([], s)

theorem State.packetPopped_sameBut (s : State) (q n : Nat) : SameBut popParts s (s.packetPopped q n).2 :=
  List.foldlRecOn (motive := fun x : List Word × State => SameBut popParts s x.2) (List.range n) _ (.refl _ s)
    fun x h _ _ => h.trans (x.2.qPop_sameBut 0 _)

/-! ### The request of a packet -/

/-- LENGTH of the oldest packet of a mailbox's request queue (R378). -/
def State.requestLength (s : State) (mb : Nat) : Nat := ((s.qEntry (2 * mb) 0).getD 1 0#32).toNat

/-- Cells of that packet. -/
def State.requestCells (s : State) (mb : Nat) : Nat := packetCells (s.requestLength mb)

/-- Its words, and the state in which it has left the queue. -/
def State.requestPopped (s : State) (mb : Nat) : List Word × State := s.packetPopped (2 * mb) (s.requestCells mb)

theorem State.requestPopped_sameBut (s : State) (mb : Nat) : SameBut popParts s (s.requestPopped mb).2 :=
  s.packetPopped_sameBut _ _

/-- The request that the packet makes (R379, R380). -/
def State.oldestRequest (s : State) (mb : Nat) : MbRequest :=
  let hd := s.qEntry (2 * mb) 0
  let posted := (s.queue (2 * mb)).pushed.getD (s.requestCells mb - 1) s.clk.beat
  { mb := mb, tag := fld (hd.getD 0 0#32) 31 16, code := fld (hd.getD 0 0#32) 15 0, flags := fld (hd.getD 2 0#32) 15 4,
    cls := fld (hd.getD 2 0#32) 3 0, deadline := (hd.getD 3 0#32).toNat,
    payload := ((s.requestPopped mb).1.drop 4).take (s.requestLength mb / 4), posted := posted, taken := s.clk.beat,
    bounded := serialGe posted ((s.requestPopped mb).2.mp.lastTake.get (fun _ => 0#64) mb), phase := 0, keep := [],
    answer := none }

/-- A served mailbox takes another request, and its request queue stands with a whole packet. -/
structure State.TakesPacket (s : State) (mb : Nat) : Prop where
  served : s.mbServed mb = true
  room : (s.mp.requests.filter (fun x => x.mb == mb)).length < 32
  held : s.qDepth (2 * mb) ≠ 0
  whole : s.requestCells mb ≤ s.qDepth (2 * mb)
  fits : s.requestLength mb ≤ s.mbLimit mb

theorem State.requestTake_of_refusal {s : State} {mb st : Nat} (h : s.TakesPacket mb)
    (refusal : (s.requestPopped mb).2.mbRefusal (s.oldestRequest mb) ((s.qEntry (2 * mb) 0).getD 2 0#32)
      (s.requestLength mb) = some st) :
    s.requestTake mb = ((s.requestPopped mb).2.mbTaken (s.oldestRequest mb)).mbFail (s.oldestRequest mb) st 0 := by
  obtain ⟨served, room, held, whole, fits⟩ := h
  have takes : ¬ (!s.mbServed mb || s.qDepth (2 * mb) == 0
      || decide (32 ≤ (s.mp.requests.filter (fun x => x.mb == mb)).length)) = true := by
    simpa [served, held] using room
  refine (if_neg takes).trans ((if_neg fits.not_gt).trans ((if_neg (Nat.not_lt.mpr whole)).trans ?_))
  change (match (s.requestPopped mb).2.mbRefusal (s.oldestRequest mb) ((s.qEntry (2 * mb) 0).getD 2 0#32)
      (s.requestLength mb) with
    | some st => ((s.requestPopped mb).2.mbTaken (s.oldestRequest mb)).mbFail (s.oldestRequest mb) st 0
    | none => _) = _
  rw [refusal]

/-! ### DUP_TAG (R382) -/

/-- The order of the checks (R381, R382): a TAG that is in use is found where header, code and class are admitted. -/
theorem State.mbRefusal_of_tag_used {s : State} {r : MbRequest} {w2 : Word} {len : Nat} (reserved : fld w2 31 5 = 0)
    (words : len % 4 = 0) (codeLow : 1 ≤ r.code) (codeHigh : r.code ≤ 0x7FFF)
    (command : ∃ c, mbCommand r.code = some c ∧ c.classes.contains r.cls = true)
    (recovery : s.mp.recovery = true → recoveryCode r.code = true)
    (used : ∃ y ∈ s.mp.requests, y.mb = r.mb ∧ y.tag = r.tag) : s.mbRefusal r w2 len = some stDupTag := by
  obtain ⟨c, known, admits⟩ := command
  have header : ¬ (fld w2 31 5 ≠ 0 ∨ len % 4 ≠ 0) := by simp [reserved, words]
  have code : ¬ (r.code = 0 ∨ 0x7FFF < r.code ∨ (mbCommand r.code).isNone
      ∨ (s.mp.recovery = true ∧ recoveryCode r.code = false)) := by
    rintro (zero | high | unknown | ⟨recovers, other⟩)
    · omega
    · omega
    · simp [known] at unknown
    · simp [recovery recovers] at other
  have tag : (s.mp.requests.any fun x => x.mb == r.mb && x.tag == r.tag) = true := by simpa using used
  refine (if_neg header).trans ((if_neg code).trans ?_)
  simp only [known, admits, Bool.not_true, Bool.false_eq_true, if_false, tag, if_true]

theorem exec_requestTake (mb : Fin 1024) (s : State) : exec (.requestTake mb) s = .next (s.requestTake mb.val) := rfl

/-- Settles O54: the checks of the header pass and the TAG is found in use, so the request that the popped packet makes
joins the others and fails at once; quiet successes that complete then are other requests. -/
theorem duplicateTag : Obligations.DuplicateTag := by
  rintro mb s hd tag code flags cls len rfl rfl rfl rfl rfl rfl served room held whole fits words reserved codeLow codeHigh
    command recovery used
  have takes : s.TakesPacket mb.val := ⟨served, room, held, whole, fits⟩
  have popped := s.requestPopped_sameBut mb.val
  have mp := popped.mp_eq (by decide)
  have refusal := State.mbRefusal_of_tag_used (s := (s.requestPopped mb.val).2) (r := s.oldestRequest mb.val) reserved words
    codeLow codeHigh command (by rwa [mp]) (by rwa [mp])
  have failure : stDupTag ≠ stOk := by decide
  refine ⟨((s.requestPopped mb.val).2.mbTaken (s.oldestRequest mb.val)).mbFail (s.oldestRequest mb.val) stDupTag 0,
    (s.oldestRequest mb.val).failed stDupTag 0, ?run, rfl, rfl, rfl, rfl, rfl, ?joins, ?others,
    State.mbTurn_failed _ _ _ _, ?frame⟩
  case run => rw [exec_requestTake, State.requestTake_of_refusal takes refusal]
  case joins => exact State.failed_mem_mbFail failure _ 0 (by simp [State.mbTaken_requests])
  case others =>
    intro y hy
    rw [← mp]
    exact State.eq_or_mem_of_mem_mbTaken_mbFail failure _ _ 0 hy
  case frame =>
    exact (popped.mono (by decide)).andThen (State.mbTaken_sameBut _ _) |>.andThen (State.mbFail_sameBut failure _ _ 0)

end Sys2Proof.Machine
end

section
/-!
What every operation over the state keeps. `Touch w s t` adds to `Keep w s t` that no operation makes `State.Sound` false;
one lemma per operation follows, named after it, and says which parts of the state the operation may touch.
-/
namespace Sys2Proof.Machine
open Sys2Proof
set_option Elab.async false

/-! ### Composition -/

/-- `t` comes from `s` by an operation that touches at most the parts in `w` and keeps what a sound state keeps. -/
structure Touch (w : Nat) (s t : State) : Prop where
  keep : Keep w s t
  sound : s.Sound → t.Sound

theorem Touch.refl {w : Nat} {s : State} : Touch w s s := ⟨.refl s, id⟩

theorem Touch.mono {v w : Nat} {s t : State} (h : Touch v s t) (hv : (v ||| w == w) = true) : Touch w s t :=
  ⟨h.keep.mono hv, h.sound⟩

theorem Touch.of {v w : Nat} {s t : State} (h : Touch v s t) (hv : (v ||| w == w) = true := by rfl) : Touch w s t :=
  h.mono hv

theorem Touch.trans {w : Nat} {s t u : State} (h : Touch w s t) (k : Touch w t u) : Touch w s u :=
  ⟨h.keep.trans k.keep, fun x => k.sound (h.sound x)⟩

theorem Touch.then {v w : Nat} {s t u : State} (h : Touch w s t) (k : Touch v t u) (hv : (v ||| w == w) = true := by rfl) :
    Touch w s u := h.trans (k.mono hv)

/-- The last of two steps first: what it is about determines the state between them. -/
theorem Touch.after {v w : Nat} {s t u : State} (k : Touch v t u) (h : Touch w s t) (hv : (v ||| w == w) = true := by rfl) :
    Touch w s u := h.then k hv

theorem Touch.afterAll {w : Nat} {s t u : State} (k : Touch w t u) (h : Touch w s t) : Touch w s u := h.trans k

/-- A step whose effect on soundness needs the soundness of the state that the operation began with. -/
theorem Touch.thenSound {v w : Nat} {s t u : State} (h : Touch w s t) (k : Keep v t u) (sound : s.Sound → t.Sound → u.Sound)
    (hv : (v ||| w == w) = true := by rfl) : Touch w s u :=
  ⟨h.keep.trans (k.mono hv), fun x => sound x (h.sound x)⟩

theorem Touch.ite {w : Nat} {s a b : State} {c : Prop} [Decidable c] (ha : Touch w s a) (hb : Touch w s b) :
    Touch w s (if c then a else b) := by
  split
  · exact ha
  · exact hb

theorem Touch.iteSnd {α : Type} {w : Nat} {s : State} {a b : α × State} {c : Prop} [Decidable c] (ha : Touch w s a.2)
    (hb : Touch w s b.2) : Touch w s (if c then a else b).2 := by
  split
  · exact ha
  · exact hb

theorem Touch.iteSnd2 {α β : Type} {w : Nat} {s : State} {a b : α × β × State} {c : Prop} [Decidable c]
    (ha : Touch w s a.2.2) (hb : Touch w s b.2.2) : Touch w s (if c then a else b).2.2 := by
  split
  · exact ha
  · exact hb

theorem Touch.foldl {α : Type} {w : Nat} {f : State → α → State} (hf : ∀ t x, Touch w t (f t x)) :
    ∀ {l : List α} {s : State}, Touch w s (l.foldl f s)
  | [], _ => .refl
  | x :: _, s => (hf s x).trans (Touch.foldl hf)

theorem Touch.foldlSnd {α β : Type} {w : Nat} {f : β × State → α → β × State} (hf : ∀ t x, Touch w t.2 (f t x).2) :
    ∀ {l : List α} {t : β × State}, Touch w t.2 (l.foldl f t).2
  | [], _ => .refl
  | x :: _, t => (hf t x).trans (Touch.foldlSnd hf)

theorem Touch.foldlPair {α β : Type} {w : Nat} {f : β × State → α → β × State} (hf : ∀ t x, Touch w t.2 (f t x).2)
    {l : List α} {b : β} {s : State} : Touch w s (l.foldl f (b, s)).2 := Touch.foldlSnd hf (t := (b, s))

theorem Touch.foldlSnd2 {α β γ : Type} {w : Nat} {f : β × γ × State → α → β × γ × State}
    (hf : ∀ t x, Touch w t.2.2 (f t x).2.2) : ∀ {l : List α} {t : β × γ × State}, Touch w t.2.2 (l.foldl f t).2.2
  | [], _ => .refl
  | x :: _, t => (hf t x).trans (Touch.foldlSnd2 hf)

/-- The same of an outcome: the command answers a next state, and touches at most the parts in `w`. -/
def Ends (w : Nat) (s : State) (o : Host.Outcome State Fault Refusal) : Prop := ∃ t, o = .next t ∧ Touch w s t

theorem Ends.next {w : Nat} {s t : State} (h : Touch w s t) : Ends w s (.next t) := ⟨t, rfl, h⟩

theorem Ends.of {v w : Nat} {s : State} {o : Host.Outcome State Fault Refusal} (h : Ends v s o)
    (hv : (v ||| w == w) = true := by rfl) : Ends w s o :=
  let ⟨t, e, k⟩ := h
  ⟨t, e, k.mono hv⟩

theorem Ends.ite {w : Nat} {s : State} {a b : Host.Outcome State Fault Refusal} {c : Prop} [Decidable c]
    (ha : Ends w s a) (hb : Ends w s b) : Ends w s (if c then a else b) := by
  split
  · exact ha
  · exact hb

theorem Touch.andEnds {v w : Nat} {s t : State} {o : Host.Outcome State Fault Refusal} (h : Touch w s t) (k : Ends v t o)
    (hv : (v ||| w == w) = true := by rfl) : Ends w s o :=
  let ⟨u, e, r⟩ := k
  ⟨u, e, h.then r hv⟩

/-- The state of a pair that a computation has answered. -/
theorem Touch.ofPair {α : Type} {w : Nat} {s t : State} {a : α} {p : α × State} (e : p = (a, t)) (h : Touch w s p.2) :
    Touch w s t := by rwa [e] at h

theorem Touch.pair {α : Type} {w : Nat} {s t : State} {a : α} (h : Touch w s t) : Touch w s (a, t).2 := h

theorem Touch.ofTriple {α β : Type} {w : Nat} {s t : State} {a : α} {b : β} {p : α × β × State} (e : p = (a, b, t))
    (h : Touch w s p.2.2) : Touch w s t := by rwa [e] at h

/-! ### Updates of one part -/

/-- A part that soundness does not speak of. -/
theorem Touch.part {w : Nat} {s t : State} (h : Keep w s t) (ep : w.testBit 9 = false := by rfl)
    (les : w.testBit 23 = false := by rfl) : Touch w s t := by
  refine ⟨h, fun ⟨staged, contexts⟩ => ⟨?_, ?_⟩⟩
  · rwa [show t.ep = s.ep from h.same 9 ep]
  · rwa [show t.les = s.les from h.same 23 les]

/-- The epochs with the same entries, or fewer. -/
theorem Touch.upd_ep {s : State} {x : EpochState} (h : x.entries ⊆ s.ep.entries) : Touch 0x200 s { s with ep := x } :=
  ⟨Keep.upd_ep s x, fun ⟨staged, contexts⟩ => ⟨fun e he => staged e (h he), contexts⟩⟩

theorem Store.mem_cell {α : Type} [DecidableEq α] {d : Nat → α} {k : Nat} {v : α} {p : Nat × α}
    (h : p ∈ Store.cell d k v) : p = (k, v) := by
  unfold Store.cell at h
  split at h
  · exact absurd h (List.not_mem_nil)
  · simpa using h

/-- A pair of a written store is the written one or stood there before. -/
theorem Store.mem_set {α : Type} [DecidableEq α] {d : Nat → α} {k : Nat} {v : α} {p : Nat × α} :
    ∀ {l : Store α}, p ∈ Store.set d k v l → p = (k, v) ∨ p ∈ l
  | [], h => .inl (Store.mem_cell h)
  | (j, u) :: r, h => by
    rw [Store.set] at h
    split at h
    · exact (Store.mem_set h).imp_right (List.mem_cons_of_mem _)
    · split at h
      · rcases List.mem_append.mp h with h | h
        · exact .inl (Store.mem_cell h)
        · refine .inr ?_
          rcases List.mem_cons.mp h with h | h
          · exact h ▸ List.mem_cons_self
          · exact List.mem_cons_of_mem _ (List.mem_filter.mp h).1
      · rcases List.mem_cons.mp h with h | h
        · exact .inr (h ▸ List.mem_cons_self)
        · exact (Store.mem_set h).imp_right (List.mem_cons_of_mem _)

/-- What a key reads as stands in the store, or is the default. -/
theorem Store.get_mem {α : Type} {d : Nat → α} {k : Nat} : ∀ {l : Store α}, Store.get d k l = d k ∨ ∃ p ∈ l, p.2 = Store.get d k l
  | [] => .inl rfl
  | (j, v) :: r => by
    rw [Store.get]
    split
    · exact .inr ⟨(j, v), List.mem_cons_self, rfl⟩
    · exact Store.get_mem.imp_right fun ⟨p, hp, e⟩ => ⟨p, List.mem_cons_of_mem _ hp, e⟩

theorem State.Sound.ctxs_length {s : State} (h : s.Sound) (n m : Nat) : (s.le n m).ctxs.length = 8 := by
  rcases Store.get_mem (d := fun _ => LeRec.reset) (k := 6 * n + m) (l := s.les) with e | ⟨p, hp, e⟩
  · exact (congrArg (fun r : LeRec => r.ctxs.length) e).trans rfl
  · exact (congrArg (fun r : LeRec => r.ctxs.length) e).symm.trans (h.contexts p hp)

theorem State.Sound.setLe {s : State} (h : s.Sound) {n m : Nat} {r : LeRec} (hr : r.ctxs.length = 8) :
    (s.setLe n m r).Sound :=
  ⟨h.staged, fun p hp => (Store.mem_set hp).elim (fun e => e ▸ hr) (h.contexts p)⟩

theorem State.setLe_keep {s : State} {n m : Nat} {r : LeRec} : Keep 0x800000 s (s.setLe n m r) := Keep.set_les s _ _

theorem State.setLe_touch {s : State} {n m : Nat} {r : LeRec} (hr : s.Sound → r.ctxs.length = 8) :
    Touch 0x800000 s (s.setLe n m r) :=
  ⟨State.setLe_keep, fun h => h.setLe (hr h)⟩

/-- An engine's record with another value outside its contexts. -/
theorem State.setLe_touch_ctxs {s : State} {n m k j : Nat} {r : LeRec} (hr : r.ctxs = (s.le k j).ctxs) :
    Touch 0x800000 s (s.setLe n m r) := State.setLe_touch fun h => hr ▸ h.ctxs_length k j

/-- An engine's record in which every context has changed alike. -/
theorem State.setLe_touch_map {s : State} {n m k j : Nat} {r : LeRec} {f : CtxRec → CtxRec}
    (hr : r.ctxs = (s.le k j).ctxs.map f) : Touch 0x800000 s (s.setLe n m r) :=
  State.setLe_touch fun h => by rw [hr, List.length_map, h.ctxs_length k j]

theorem Touch.clear_les {s : State} {p : Nat → Bool} : Touch 0x800000 s { s with les := s.les.clear p } :=
  ⟨Keep.clear_les s p, fun ⟨staged, contexts⟩ => ⟨staged, fun q hq => contexts q (List.mem_filter.mp hq).1⟩⟩

theorem State.setEntries_keep {s : State} {l : List Entry} : Keep 0x200 s (s.setEntries l) := Keep.upd_ep s _

theorem State.setEntries_touch {s : State} {l : List Entry} (hl : s.Sound → ∀ e ∈ l, isEB e.addr = true) :
    Touch 0x200 s (s.setEntries l) := ⟨Keep.upd_ep s _, fun h => ⟨hl h, h.contexts⟩⟩

theorem State.setEntries_touch_filter {s : State} {p : Entry → Bool} :
    Touch 0x200 s (s.setEntries (s.ep.entries.filter p)) := 
  .upd_ep (List.filter_subset_self _)

/-! ### Clock and management processor -/

theorem Touch.upd_clk {s : State} {x : ClockState} (h : x.beat = s.clk.beat ∧ x.tick = s.clk.tick ∧ x.dOfs = s.clk.dOfs
    ∧ x.dIsland = s.clk.dIsland ∧ x.era = s.clk.era ∧ x.seconds = s.clk.seconds ∧ x.sub = s.clk.sub := by simp only [and_self]) : Touch 0x100 s { s with clk := x } :=
  .part (Keep.upd_clk_rest s x h)

theorem Touch.upd_clk_cal {s : State} {x : ClockState} (hb : x.beat = s.clk.beat ∧ x.tick = s.clk.tick := by simp only [and_self])
    (hd : x.dOfs = s.clk.dOfs ∧ x.dIsland = s.clk.dIsland := by simp only [and_self]) :
    Touch 0x8000000100 s { s with clk := x } := by
  refine .part ⟨rfl, fun c => { c with }, Nat.le_refl _, fun i b => ?_⟩
  unfold samePart
  split <;> first | rfl | trivial

theorem Touch.upd_clk_offset {s : State} {x : ClockState}
    (hb : x.beat = s.clk.beat ∧ x.tick = s.clk.tick := by simp only [and_self])
    (hc : x.era = s.clk.era ∧ x.seconds = s.clk.seconds ∧ x.sub = s.clk.sub := by simp only [and_self]) :
    Touch 0x4000000100 s { s with clk := x } := by
  refine .part ⟨rfl, fun c => { c with }, Nat.le_refl _, fun i b => ?_⟩
  unfold samePart
  split <;> first | rfl | trivial

theorem Touch.upd_clk_beats {s : State} {x : ClockState}
    (hd : x.dOfs = s.clk.dOfs ∧ x.dIsland = s.clk.dIsland := by simp only [and_self])
    (hc : x.era = s.clk.era ∧ x.seconds = s.clk.seconds ∧ x.sub = s.clk.sub := by simp only [and_self]) :
    Touch 0x2000000100 s { s with clk := x } := by
  refine .part ⟨rfl, fun c => { c with }, Nat.le_refl _, fun i b => ?_⟩
  unfold samePart
  split <;> first | rfl | trivial

theorem Touch.upd_mp {s : State} {x : MpState}
    (h : x.unlock = s.mp.unlock ∧ x.rollback = s.mp.rollback := by simp only [and_self]) :
    Touch 0x100000000 s { s with mp := x } := .part (Keep.upd_mp_rest s x h)

theorem Touch.upd_mp_unlock {s : State} {x : MpState} (h : x.rollback = s.mp.rollback := by simp only) :
    Touch 0x10100000000 s { s with mp := x } := by
  refine .part ⟨rfl, fun c => { c with }, Nat.le_of_eq h.symm, fun i b => ?_⟩
  unfold samePart
  split <;> first | rfl | trivial

/-- The rollback counter rises, or stays (R406). -/
theorem Touch.upd_mp_rollback {s : State} {x : MpState} (hr : s.mp.rollback ≤ x.rollback)
    (hu : x.unlock = s.mp.unlock := by simp only) : Touch 0x20100000000 s { s with mp := x } := by
  refine .part ⟨rfl, fun c => { c with }, hr, fun i b => ?_⟩
  unfold samePart
  split <;> first | rfl | trivial

theorem State.setMp_touch {s : State} {x : MpState}
    (h : x.unlock = s.mp.unlock ∧ x.rollback = s.mp.rollback := by simp only [and_self]) :
    Touch 0x100000000 s (s.setMp x) := .upd_mp h

theorem State.setClk_touch {s : State} {x : ClockState} (h : x.beat = s.clk.beat ∧ x.tick = s.clk.tick ∧ x.dOfs = s.clk.dOfs
    ∧ x.dIsland = s.clk.dIsland ∧ x.era = s.clk.era ∧ x.seconds = s.clk.seconds ∧ x.sub = s.clk.sub := by simp only [and_self]) : Touch 0x100 s (s.setClk x) := .upd_clk h

/-- The same where the written value comes from an earlier state with the same fields. -/
theorem State.setMp_touch_rfl {s : State} {x : MpState}
    (h : x.unlock = s.mp.unlock ∧ x.rollback = s.mp.rollback := by exact ⟨rfl, rfl⟩) :
    Touch 0x100000000 s (s.setMp x) := .upd_mp h

theorem State.setClk_touch_rfl {s : State} {x : ClockState} (h : x.beat = s.clk.beat ∧ x.tick = s.clk.tick
    ∧ x.dOfs = s.clk.dOfs ∧ x.dIsland = s.clk.dIsland ∧ x.era = s.clk.era ∧ x.seconds = s.clk.seconds
    ∧ x.sub = s.clk.sub := by exact ⟨rfl, rfl, rfl, rfl, rfl, rfl, rfl⟩) : Touch 0x100 s (s.setClk x) := .upd_clk h

/-! ### Pulses -/

/-- Lines that still stand at 1 count down, and none reaches 0. -/
theorem Store.countdown_wfFrom (l : Store Nat) : ∀ {n : Nat}, Store.wfFrom (fun _ => 0) n l = true →
    Store.wfFrom (fun _ => 0) n ((l.filter (fun e => decide (1 < e.2))).map (fun e => (e.1, e.2 - 1))) = true := by
  induction l with
  | nil => intro n _; rfl
  | cons c r ih =>
    intro n w
    simp only [Store.wfFrom, Bool.and_eq_true, decide_eq_true_eq] at w
    obtain ⟨⟨low, -⟩, rest⟩ := w
    rw [List.filter_cons]
    split
    case isTrue long =>
      have nonzero : c.2 - 1 ≠ 0 := by
        have := of_decide_eq_true long
        omega
      simp only [List.map_cons, Store.wfFrom, Bool.and_eq_true, decide_eq_true_eq]
      exact ⟨⟨low, nonzero⟩, ih rest⟩
    case isFalse => exact ih (Store.wfFrom_mono (by omega) rest)

end Sys2Proof.Machine
end

section
/-!
What the operations of the shared operations over the state may touch.
-/
namespace Sys2Proof.Machine
open Sys2Proof
set_option Elab.async false

theorem State.setReg_touch {s : State} {a : Nat} {v : Word} : Touch 0x2 s (s.setReg a v) :=
  .of (.part (Keep.set_regs _ _ _))

theorem State.setRf_touch {s : State} {a hi lo v : Nat} : Touch 0x2 s (s.setRf a hi lo v) := .of State.setReg_touch

theorem State.setRb_touch {s : State} {a i : Nat} {b : Bool} : Touch 0x2 s (s.setRb a i b) := .of State.setReg_touch

theorem State.resetRegs_touch {s : State} {p : Nat → Bool} : Touch 0xE s (s.resetRegs p) :=
  Touch.of (.part (Keep.clear_regs s p)) |>.then (.part (Keep.clear_scCount _ p)) |>.then (.part (Keep.clear_domRegs _ _))

theorem State.setDomReg_touch {s : State} {a d : Nat} {v : Word} : Touch 0x8 s (s.setDomReg a d v) :=
  .of (.part (Keep.set_domRegs _ _ _))

theorem State.flagW_touch {s : State} {a : Nat} {flags : Word} : Touch 0x6 s (s.flagW a flags) :=
  .ite .refl (Touch.of State.setReg_touch |>.then (.part (Keep.set_scCount _ _ _)))

theorem State.flag_touch {s : State} {a i : Nat} : Touch 0x6 s (s.flag a i) := .of State.flagW_touch

theorem State.scWrite_touch {s : State} {a : Nat} {v : Word} : Touch 0x6 s (s.scWrite a v) :=
  .ite (Touch.of State.setReg_touch |>.then (.part (Keep.set_scCount _ _ _))) .refl

theorem State.free_touch {s : State} : Touch 0x80 s (s.free).2 := .of (.part (Keep.upd_freeCtr _ _))

theorem State.freeBit_touch {s : State} : Touch 0x80 s (s.freeBit).2 := .of (.part (Keep.upd_freeCtr _ _))

theorem State.setByte_touch {s : State} {a : Nat} {b : Byte} : Touch 0x10 s (s.setByte a b) :=
  .of (.part (Keep.set_mem _ _ _))

theorem State.storeBytes_touch : ∀ {l : List Byte} {s : State} {a : Nat}, Touch 0x10 s (s.storeBytes a l)
  | [], _, _ => .refl
  | _ :: _, _, _ => Touch.of State.setByte_touch |>.then State.storeBytes_touch

theorem State.setMword_touch {s : State} {a : Nat} {w : Word} : Touch 0x4000010 s (s.setMword a w) :=
  Touch.of State.storeBytes_touch |>.then (.part (Keep.set_ecc _ _ _))

theorem State.storeWords_touch : ∀ {l : List Word} {s : State} {a : Nat}, Touch 0x4000010 s (s.storeWords a l)
  | [], _, _ => .refl
  | _ :: _, _, _ => Touch.of State.setMword_touch |>.then State.storeWords_touch

theorem State.clearMem_touch {s : State} {p : Nat → Bool} : Touch 0x4000010 s (s.clearMem p) :=
  Touch.of (.part (Keep.clear_mem s p)) |>.then (.part (Keep.clear_ecc _ p))

theorem State.enqueue_touch {s : State} {l : List Instr} : Touch 0x1 s (s.enqueue l) := .of (.part (Keep.upd_due _ _))

theorem State.report_touch {s : State} {source reporter cause : Nat} {detail : Word} :
    Touch 0x1 s (s.report source reporter cause detail) := .of State.enqueue_touch

theorem State.changeD_touch {s : State} {d : BitVec 64} {l : Store (BitVec 64)} :
    Touch 0x4000000100 s (s.changeD d l) := .ite .refl (.of .upd_clk_offset)

theorem State.request_touch {s : State} {d : Nat} : Touch 0x100 s (s.request d) := .of .upd_clk

/-- An access over a path: the report of a fault, and what the access itself does. -/
theorem State.overPath_touch {w : Nat} {s : State} {a : Nat} {f : State → BusResult × State} (hf : ∀ t, Touch w t (f t).2)
    (hw : (0x1 ||| w == w) = true := by rfl) : Touch w s (s.overPath a f).2 := by
  unfold State.overPath
  split
  · exact hf s
  · exact (State.report_touch.mono hw).trans (hf _)
  · exact State.report_touch.mono hw

theorem State.answer_touch {s : State} {m : Master} {r : BusResult} : Touch 0x40 s (s.answer m r) :=
  .of (.part (Keep.upd_reply _ _))

end Sys2Proof.Machine
end

section
/-!
What the operations of the corrections of memory words may touch.
-/
namespace Sys2Proof.Machine
open Sys2Proof
set_option Elab.async false

theorem State.setMacro_touch {s : State} {k : Nat} {r : MacroRec} : Touch 0x8000000 s (s.setMacro k r) :=
  .of (.part (Keep.set_macros _ _ _))

theorem State.setEcc_touch {s : State} {a : Nat} {x : WordMark} : Touch 0x4000000 s (s.setEcc a x) :=
  .of (.part (Keep.set_ecc _ _ _))

theorem State.meLast_touch {s : State} {kind mem a : Nat} : Touch 0x2 s (s.meLast kind mem a) :=
  Touch.of State.setReg_touch |>.then State.setReg_touch

theorem State.meCount_touch {s : State} {high : Bool} : Touch 0x2 s (s.meCount high) :=
  .ite (.of State.setRf_touch) (.of State.setRf_touch)

theorem State.eccFound_touch {s : State} {mem a : Nat} {latent : Bool} : Touch 0x7 s (s.eccFound mem a latent) :=
  Touch.of State.meCount_touch |>.then State.meLast_touch |>.then State.flag_touch |>.then State.report_touch

theorem State.eccAccess_touch {s : State} {a : Nat} : Touch 0x7 s (s.eccAccess a) := by
  unfold State.eccAccess
  split
  · exact Touch.of State.eccFound_touch |>.trans (.ite (.of State.flag_touch) .refl)
  · exact .refl

theorem State.permanentWord_touch {s : State} {mem a : Nat} : Touch 0x8000007 s (s.permanentWord mem a) :=
  .ite .refl (.ite (.of State.setMacro_touch) (Touch.of State.flag_touch |>.then State.report_touch))

theorem State.eccCorrect_touch {s : State} {mem a : Nat} : Touch 0xC000007 s (s.eccCorrect mem a) :=
  Touch.of State.setEcc_touch
    |>.then State.setMacro_touch
    |>.then State.meCount_touch
    |>.then State.meLast_touch
    |>.then State.flag_touch
    |>.trans (.ite (.of State.permanentWord_touch) .refl)

theorem State.eccRead_touch {s : State} {a : Nat} : Touch 0xC000007 s (s.eccRead a) :=
  .ite
    (by
       split
       · exact .of State.eccCorrect_touch
       · exact .refl)
    .refl

theorem State.eccWalk_touch {s : State} {a n : Nat} : Touch 0xC000007 s (s.eccWalk a n) :=
  .ite .refl (.foldl fun t x => .ite (.of State.eccAccess_touch) (.of State.eccRead_touch))

theorem State.scrub_touch {s : State} {mem a flips : Nat} : Touch 0xC000007 s (s.scrub mem a flips) :=
  .ite (Touch.of State.setEcc_touch |>.then State.eccFound_touch) (.ite (.of State.eccCorrect_touch) .refl)

theorem execScrubRead_ends {mem : Fin 112} {a : Word} {flips : Fin 3} {s : State} :
    Ends 0xC000007 s (execScrubRead mem a flips s) := .next (.ite (.of State.scrub_touch) .refl)

theorem State.rowRetired_touch {s : State} {mem a : Nat} : Touch 0xC000007 s (s.rowRetired mem a) :=
  .ite
    (Touch.of (.part (Keep.clear_ecc _ _))
       |>.then State.setMacro_touch
       |>.then State.meLast_touch
       |>.then State.flag_touch
       |>.then State.report_touch)
    .refl

theorem execRowRetireCopyDone_ends {mem : Fin 112} {a : Word} {s : State} :
    Ends 0xC000007 s (execRowRetireCopyDone mem a s) := .next (.of State.rowRetired_touch)

end Sys2Proof.Machine
end

section
/-!
What the operations of the exchange memory may touch.
-/
namespace Sys2Proof.Machine
open Sys2Proof
set_option Elab.async false

theorem State.xmRefuse_touch {s : State} {w flag : Nat} : Touch 0x6 s (s.xmRefuse w flag) :=
  Touch.of State.flag_touch |>.then State.setReg_touch

theorem State.dropFrameNow_touch {s : State} {f : Nat} : Touch 0x40000000000 s (s.dropFrameNow f) :=
  .of (.part (Keep.upd_xmNow _ _))

theorem State.frameWritten_touch {s : State} {port f : Nat} {first last : Bool} :
    Touch 0x40000000002 s (s.frameWritten port f first last) :=
  Touch.of State.dropFrameNow_touch |>.then (.part (Keep.upd_xmNow _ _)) |>.then State.setReg_touch

theorem State.xmAdvance_touch {s : State} {port lo n : Nat} : Touch 0x40000000002 s (s.xmAdvance port lo n) :=
  .foldl fun t x => .of State.frameWritten_touch

theorem State.noteWord_touch {s : State} {x : XmWordNow} : Touch 0x40000000000 s (s.noteWord x) :=
  .of (.part (Keep.upd_xmNow _ _))

theorem State.xmSet_touch {s : State} {w : Nat} {v : Word} : Touch 0x4000030 s (s.xmSet w v) :=
  Touch.of State.setMword_touch |>.then (.part (Keep.set_stamps _ _ _))

theorem State.xmPut_touch {s : State} {port w : Nat} {v : Word} : Touch 0x40004000030 s (s.xmPut port w v) := by
  unfold State.xmPut
  split
  · exact Touch.of State.noteWord_touch |>.then State.xmSet_touch
  · exact .ite (Touch.of State.noteWord_touch |>.then State.xmSet_touch) (.of State.noteWord_touch)

theorem State.xmPutAll_touch : ∀ {l : List Word} {s : State} {port w : Nat}, Touch 0x40004000030 s (s.xmPutAll port w l)
  | [], _, _, _ => .refl
  | _ :: _, _, _, _ => Touch.of State.xmPut_touch |>.then State.xmPutAll_touch

theorem State.xmWrite_touch {s : State} {d port w : Nat} {vs : List Word} :
    Touch 0x40004000036 s (s.xmWrite d port w vs).2 := by
  unfold State.xmWrite
  split
  · exact .of State.xmRefuse_touch
  · exact Touch.of State.xmAdvance_touch |>.then State.xmPutAll_touch

theorem State.xmRead_touch {s : State} {d port w : Nat} : Touch 0xC000007 s (s.xmRead d port w).2 := by
  unfold State.xmRead
  split
  · exact .of State.xmRefuse_touch
  · exact .iteSnd (.of State.eccAccess_touch) (.of State.eccRead_touch)

theorem State.xmReadStamped_touch {s : State} {d port w : Nat} : Touch 0xC00000F s (s.xmReadStamped d port w).2 := by
  unfold State.xmReadStamped
  split
  · exact .pair <| .after State.setDomReg_touch <| .ofPair ‹_› (.of State.xmRead_touch)
  · exact .of State.xmRead_touch

theorem State.xmCfgWrite_touch {s : State} {d f : Nat} {v : Word} : Touch 0x40000000006 s (s.xmCfgWrite d f v).2 := by
  unfold State.xmCfgWrite
  dsimp only
  exact
    .iteSnd
      .refl
      (.iteSnd
         (.pair <| .of State.flag_touch)
         (.iteSnd
            (.pair <| .of State.flag_touch)
            (.pair <| .after State.setReg_touch <|
             .after State.setReg_touch <|
             .of State.dropFrameNow_touch)))

end Sys2Proof.Machine
end

section
/-!
What the operations of event lines and pulses may touch.
-/
namespace Sys2Proof.Machine
open Sys2Proof
set_option Elab.async false

theorem State.setEq_touch {s : State} {n q : Nat} {r : EqRec} : Touch 0x80000 s (s.setEq n q r) :=
  .of (.part (Keep.set_eqs _ _ _))

theorem State.ssiArrive_touch {s : State} {n q d : Nat} : Touch 0x80006 s (s.ssiArrive n q d) :=
  .ite .refl (.ite (.of State.flag_touch) (.of State.setEq_touch))

theorem State.ssiArrivals_touch {s : State} {d : Nat} {named : Nat → Nat → Word → Bool} :
    Touch 0x80006 s (s.ssiArrivals d named) := .foldl fun t x => .of State.ssiArrive_touch

theorem State.tellLine_touch {s : State} {g : Nat} : Touch 0x1 s (s.tellLine g) := .of State.enqueue_touch

theorem State.fire_touch {s : State} {g : Nat} : Touch 0x100000000001 s (s.fire g) :=
  Touch.of (.part (Keep.set_pulses _ _ _)) |>.trans (.ite .refl (.of State.tellLine_touch))

theorem State.fireIsland_touch {s : State} {n i : Nat} : Touch 0x100000000001 s (s.fireIsland n i) :=
  .of State.fire_touch

theorem State.fireCentral_touch {s : State} {j : Nat} : Touch 0x100000000001 s (s.fireCentral j) :=
  .of State.fire_touch

theorem State.setLine_touch {s : State} {g : Nat} {l : Bool} : Touch 0x801 s (s.setLine g l) :=
  .ite .refl (Touch.of (.part (Keep.upd_fab _ _)) |>.then State.tellLine_touch)

theorem State.pulsesTick_touch {s : State} : Touch 0x100000000001 s s.pulsesTick :=
  Touch.of (.part (Keep.upd_pulses s fun c => Store.countdown_wfFrom _ c.pulses))
    |>.trans (.foldl fun t x => .ite (.of State.tellLine_touch) (.of State.enqueue_touch))

theorem State.refreshPennants_touch {s : State} : Touch 0x1 s (s.refreshPennants) := .of State.enqueue_touch

end Sys2Proof.Machine
end

section
/-!
What the operations of the event fabric may touch.
-/
namespace Sys2Proof.Machine
open Sys2Proof
set_option Elab.async false

theorem State.fabFault_touch {s : State} {seg flag obj : Nat} {isGlobal : Bool} {island number : Nat} :
    Touch 0x6 s (s.fabFault seg flag obj isGlobal island number) :=
  .ite
    (Touch.of State.flag_touch |>.then State.setReg_touch)
    (Touch.of State.flag_touch |>.then State.setReg_touch)

theorem State.pnFault_touch {s : State} {p flag : Nat} : Touch 0x6 s (s.pnFault p flag) := .of State.fabFault_touch

theorem State.fbPnFault_touch {s : State} {p flag : Nat} : Touch 0x6 s (s.fbPnFault p flag) := .of State.fabFault_touch

theorem State.setPnRec_touch {s : State} {p : Nat} {r : PennantRec} : Touch 0x800 s (s.setPnRec p r) :=
  .of (.part (Keep.upd_fab _ _))

theorem State.recordLost_touch {s : State} {p : Nat} : Touch 0x806 s (s.recordLost p) :=
  Touch.of State.setPnRec_touch |>.then State.pnFault_touch

theorem State.setRecords_touch {s : State} {seg : Nat} {l : List EventRecord} : Touch 0x800 s (s.setRecords seg l) :=
  .of (.part (Keep.upd_fab _ _))

theorem State.record_touch {s : State} {p : Nat} {level fired : Bool} : Touch 0x806 s (s.record p level fired) :=
  .ite (.ite (.of State.recordLost_touch) (.of State.setRecords_touch)) .refl

theorem State.setHoistCount_touch {s : State} {h k : Nat} : Touch 0x800 s (s.setHoistCount h k) :=
  .of (.part (Keep.upd_fab _ _))

theorem State.noteFilter_touch {s : State} {h : Nat} : Touch 0x800 s (s.noteFilter h) :=
  .ite (.ite (.of State.setHoistCount_touch) .refl) (.of State.setHoistCount_touch)

theorem State.announceHoist_touch {s : State} {h : Nat} : Touch 0x1 s (s.announceHoist h) := .of State.enqueue_touch

theorem State.setHoistOut_touch {s : State} {h : Nat} {l : Bool} : Touch 0x3 s (s.setHoistOut h l) :=
  .ite .refl (Touch.of State.setRb_touch |>.then State.announceHoist_touch)

theorem State.evalHoist_touch {s : State} {h : Nat} {rising : Option Nat} : Touch 0x803 s (s.evalHoist h rising) :=
  Touch.of State.setReg_touch
    |>.then (.part (Keep.upd_fab _ _))
    |>.then State.noteFilter_touch
    |>.trans (.ite .refl (.of State.announceHoist_touch))

theorem State.loopBroken_touch {s : State} {h : Nat} : Touch 0x3 s (s.loopBroken h) :=
  .ite .refl (.of State.setHoistOut_touch)

theorem State.checkLoops_touch {s : State} : Touch 0x807 s (s.checkLoops) := by
  unfold State.checkLoops
  dsimp only
  exact
    .afterAll (.foldl fun t x => .of State.evalHoist_touch) <|
    .foldl fun t x =>
      .ite
        .refl
        (.afterAll (.ite (.of State.fabFault_touch) (.of State.loopBroken_touch)) <| .of State.setRb_touch)

theorem State.present_touch {s : State} {p : Nat} {level : Bool} {which : Nat → Bool} :
    Touch 0x80007 s (s.present p level which) :=
  Touch.of State.enqueue_touch |>.trans (.ite (.of State.ssiArrivals_touch) .refl)

theorem State.delay_touch {s : State} {p : Nat} {level : Bool} : Touch 0x800 s (s.delay p level) :=
  .of (.part (Keep.upd_fab _ _))

theorem State.lateTick_touch {s : State} : Touch 0x80807 s (s.lateTick) :=
  Touch.of (.part (Keep.upd_fab _ _)) |>.trans (.foldl fun t x => .of State.present_touch)

theorem State.deliver_touch {s : State} {p : Nat} {level fired : Bool} : Touch 0x80807 s (s.deliver p level fired) :=
  Touch.of State.setRb_touch
    |>.then State.record_touch
    |>.trans (.ite .refl (.of State.present_touch))
    |>.trans (.ite (.of State.delay_touch) .refl)
    |>.then State.enqueue_touch
    |>.trans (.foldl fun t x => .of State.evalHoist_touch)
    |>.trans (.ite (.of State.enqueue_touch) .refl)
    |>.trans (.ite (.of State.enqueue_touch) .refl)

theorem State.lineTransition_touch {s : State} {p : Nat} {level fired : Bool} :
    Touch 0x80807 s (s.lineTransition p level fired) := .ite .refl (.of State.deliver_touch)

theorem State.noteBall_touch {s : State} {p : Nat} {level : Bool} : Touch 0x801 s (s.noteBall p level) := by
  unfold State.noteBall
  split
  · exact .ite .refl (Touch.of (.part (Keep.upd_fab _ _)) |>.then State.enqueue_touch)
  · exact .refl

theorem execPennantTransition_ends {p : Fin 2048} {level fired : Bool} {s : State} :
    Ends 0x80807 s (execPennantTransition p level fired s) :=
  .next (Touch.ite .refl (.of State.noteBall_touch) |>.then State.lineTransition_touch)

theorem State.passFilter_touch {s : State} {h : Nat} : Touch 0x803 s (s.passFilter h) :=
  Touch.of State.setHoistCount_touch |>.then State.setHoistOut_touch

theorem State.debounce_touch {s : State} {h : Nat} : Touch 0x803 s (s.debounce h) :=
  .ite (.of State.passFilter_touch) .refl

theorem State.filterTick_touch {s : State} {h : Nat} {us beat : Bool} : Touch 0x883 s (s.filterTick h us beat) :=
  .ite
    .refl
    (by
       split
       · exact Touch.of State.setHoistCount_touch
           |>.trans (.ite
              .refl
              (.ite
                 (Touch.of State.freeBit_touch |>.trans (.ite (.of State.passFilter_touch) .refl))
                 (.of State.passFilter_touch)))
       · exact .ite .refl (Touch.of State.setHoistCount_touch |>.trans (.ite (.of State.enqueue_touch) .refl)))

theorem State.filtersTick_touch {s : State} {beat : Bool} : Touch 0x883 s (s.filtersTick beat) :=
  Touch.of (.part (Keep.upd_fab _ _)) |>.trans (.foldl fun t x => .of State.filterTick_touch)

theorem State.filtersWake_touch {s : State} : Touch 0x800 s (s.filtersWake) :=
  .foldl fun t x => .ite (.of State.setHoistCount_touch) .refl

theorem execDebounceExpiry_ends {h : Fin 512} {s : State} : Ends 0x803 s (execDebounceExpiry h s) :=
  .next (.of State.debounce_touch)

theorem State.offLow_touch {s : State} {p : Nat} : Touch 0x80807 s (s.offLow p) := .ite (.of State.deliver_touch) .refl

theorem State.lowerPennants_touch {s : State} : Touch 0x80807 s (s.lowerPennants) :=
  .foldl fun t x => .of State.offLow_touch

theorem State.refusedReport_touch {s o : State} : Touch 0x6 s (s.refusedReport o) :=
  .foldl fun t x => .of State.pnFault_touch

theorem State.heldSelection_touch {s o : State} {p : Nat} : Touch 0x6 s (s.heldSelection o p) :=
  .ite (.of State.pnFault_touch) .refl

theorem State.fabricChanged_touch {s : State} {p : Option Nat} : Touch 0x80807 s (s.fabricChanged p) := by
  unfold State.fabricChanged
  dsimp only
  refine .after State.refreshPennants_touch ?_
  refine .after State.lowerPennants_touch ?_
  refine .after State.checkLoops_touch ?_
  split
  · exact .ite (.of State.pnFault_touch) .refl
  · exact .refl

theorem State.pnCtrlWrite_touch {s : State} {p : Nat} {v : Word} : Touch 0x80807 s (s.pnCtrlWrite p v) :=
  Touch.of State.setRb_touch
    |>.trans (.ite
       (Touch.of State.setPnRec_touch |>.then State.fabricChanged_touch)
       (.ite (.of State.offLow_touch) .refl))

theorem State.heldReport_touch {s o : State} {n : Nat} : Touch 0x6 s (s.heldReport o n) :=
  .foldl fun t x => .of State.pnFault_touch

theorem State.setCheck_touch {s : State} {k : Nat} : Touch 0x6 s (s.setCheck k) :=
  .ite (.of State.fabFault_touch) .refl

theorem State.setOff_touch {s : State} {k : Nat} : Touch 0x80807 s (s.setOff k) :=
  Touch.of State.setRb_touch
    |>.then State.setCheck_touch
    |>.then (.part (Keep.upd_fab _ _))
    |>.trans (.foldl fun t x => .of State.offLow_touch)

theorem State.setOn_touch {s : State} {k : Nat} : Touch 0x7 s (s.setOn k) :=
  .ite
    (.of State.setCheck_touch)
    (Touch.of State.setRb_touch |>.then State.setCheck_touch |>.then State.refreshPennants_touch)

theorem State.setCtrlWrite_touch {s : State} {k : Nat} {v : Word} : Touch 0x80807 s (s.setCtrlWrite k v) :=
  .ite (.of State.setOff_touch) (.ite (.of State.setOn_touch) .refl)

theorem execSignalSetOn_ends {k : Fin 128} {s : State} : Ends 0x7 s (execSignalSetOn k s) :=
  .next (.ite (.of State.setOn_touch) .refl)

theorem execSignalSetOff_ends {k : Fin 128} {s : State} : Ends 0x80807 s (execSignalSetOff k s) :=
  .next (.ite (.of State.setOff_touch) .refl)

theorem State.firePulse_touch {s : State} {p : Nat} : Touch 0x100000000000 s (s.firePulse p) :=
  .of (.part (Keep.set_pulses _ _ _))

theorem State.fbFire_touch {s : State} {d : Nat} {v : Word} : Touch 0x100000000007 s (s.fbFire d v).2 := by
  unfold State.fbFire
  split
  · exact .refl
  · exact .iteSnd
      (.of State.fbPnFault_touch)
      (.iteSnd
         (.of State.fbPnFault_touch)
         (Touch.of State.firePulse_touch
            |>.trans (.iteSnd (.of State.fbPnFault_touch) (.of State.enqueue_touch))))

end Sys2Proof.Machine
end

section
/-!
What the operations of the epochs may touch.
-/
namespace Sys2Proof.Machine
open Sys2Proof
set_option Elab.async false

theorem State.setActive_touch {s : State} {a : Nat} {v : Word} : Touch 0x4000012 s (s.setActive a v) :=
  .ite (.of State.setMword_touch) (.of State.setReg_touch)

theorem State.addEntries_touch {s : State} {i : Nat} : Touch 0x2 s (s.addEntries i) := .of State.setReg_touch

/-- Staging a value at an epoch-bound address keeps the entries at such addresses (R56). -/
theorem State.stage_touch {s : State} {i a : Nat} {v : Word} (h : isEB a = true) : Touch 0x202 s (s.stage i a v) := by
  unfold State.stage
  dsimp only
  split
  · refine Touch.of (State.setEntries_touch fun sound e he => ?_)
    obtain ⟨x, hx, rfl⟩ := List.mem_map.mp he
    split <;> exact sound.staged x hx
  · refine Touch.of (State.setEntries_touch fun sound e he => ?_) |>.then State.addEntries_touch
    rcases List.mem_append.mp he with he | he
    · exact sound.staged e he
    · exact List.mem_singleton.mp he ▸ h

theorem State.resultFlag_touch {s : State} {i b : Nat} : Touch 0x2 s (s.resultFlag i b) := .of State.setRb_touch

theorem State.finishEpochs_touch {s : State} : Touch 0x100100000003 s (s.finishEpochs) :=
  .foldl fun t x =>
    .ite
      (Touch.of State.setReg_touch
         |>.then State.resultFlag_touch
         |>.then State.fireCentral_touch
         |>.trans (.ite (Touch.of .upd_mp |>.then State.enqueue_touch) .refl))
      .refl

theorem State.swap_touch {s : State} {p : Entry → Bool} : Touch 0x100104000213 s (s.swap p) := by
  have active : Touch 0x100104000213 s ((s.ep.entries.filter fun e => e.due && p e).foldl (fun t e => t.setActive e.addr e.value) s) :=
    .foldl fun t x => .of State.setActive_touch
  unfold State.swap
  dsimp only
  exact .after State.finishEpochs_touch (active.thenSound State.setEntries_keep fun sound after =>
    ⟨fun e he => sound.staged e (List.mem_filter.mp he).1, after.contexts⟩)

theorem State.swapBlk_touch {s : State} {b : Blk} : Touch 0x100104000213 s (s.swapBlk b) := .of State.swap_touch

end Sys2Proof.Machine
end

section
/-!
What the operations of the timer units may touch.
-/
namespace Sys2Proof.Machine
open Sys2Proof
set_option Elab.async false

theorem State.setTu_touch {s : State} {n k : Nat} {r : TuRec} : Touch 0x10000 s (s.setTu n k r) :=
  .of (.part (Keep.set_tus _ _ _))

theorem State.setChan_touch {s : State} {n k j : Nat} {c : ChanRec} : Touch 0x10000 s (s.setChan n k j c) :=
  .of State.setTu_touch

theorem State.couple_touch {s : State} {u : Nat} {fall : Bool} {v : Nat} : Touch 0x10106 s (s.couple u fall v) :=
  .ite (.of .upd_clk) (.ite (.of State.flag_touch) (Touch.of State.setTu_touch |>.then .upd_clk))

theorem State.fireTu_touch {s : State} {n k e : Nat} : Touch 0x100000090107 s (s.fireTu n k e) := by
  unfold State.fireTu
  dsimp only
  split
  · exact
      .afterAll (.foldl fun t x => .of State.couple_touch) <|
      .after State.ssiArrivals_touch <|
      .after State.enqueue_touch <|
      .of State.fireIsland_touch
  · exact .after State.ssiArrivals_touch <| .after State.enqueue_touch <| .of State.fireIsland_touch

theorem State.refEdge_touch {s : State} {n k j : Nat} {rise : Bool} {t : Nat} :
    Touch 0x10006 s (s.refEdge n k j rise t) :=
  .ite .refl (Touch.of State.setChan_touch |>.trans (.ite (.of State.flag_touch) .refl))

theorem State.holdOutputs_touch {s : State} {n k : Nat} : Touch 0x10000 s (s.holdOutputs n k) := by
  unfold State.holdOutputs
  dsimp only
  split
  · exact .ite (.of State.setTu_touch) .refl
  · exact .ite .refl (.of State.setTu_touch)

theorem State.enterTick_touch {s : State} {n k p : Nat} : Touch 0x1 s (s.enterTick n k p) := .of State.enqueue_touch

theorem State.takeP_touch {s : State} {n k p : Nat} : Touch 0x10006 s (s.takeP n k p) :=
  Touch.of State.setTu_touch |>.then State.setReg_touch |>.trans (.ite .refl (.of State.flag_touch))

theorem State.loadWord_touch {s : State} {n k : Nat} {mid : Bool} {w : Nat} :
    Touch 0x10006 s (s.loadWord n k mid w) :=
  .ite
    (Touch.of State.setChan_touch |>.then State.setReg_touch)
    (.ite
       (Touch.of State.setChan_touch |>.then State.setReg_touch)
       (Touch.of State.setTu_touch
          |>.trans (.ite .refl (.ite (.of State.setTu_touch) (.of State.takeP_touch)))))

theorem State.loadDuties_touch {s : State} {n k : Nat} {mid : Bool} : Touch 0x100000090107 s (s.loadDuties n k mid) := by
  unfold State.loadDuties
  dsimp only
  exact
    .afterAll (.ite .refl (.of State.fireTu_touch)) <|
    .afterAll (.ite (.after State.fireTu_touch <| .of State.flag_touch) .refl) <|
    .foldl fun t x =>
      .after State.setRb_touch <|
      .of State.loadWord_touch

theorem State.dlrWrite_touch {s : State} {d by_ n k w : Nat} {v : Word} :
    Touch 0x10006 s (s.dlrWrite d by_ n k w v) :=
  .ite
    (.of State.flag_touch)
    (.ite .refl (Touch.of State.setTu_touch |>.then State.setReg_touch |>.then State.setRb_touch))

theorem State.releaseAtBoundary_touch {s : State} {n k : Nat} : Touch 0x100000090107 s (s.releaseAtBoundary n k) :=
  Touch.of State.setRf_touch
    |>.then State.setRb_touch
    |>.then State.setTu_touch
    |>.trans (.ite (.of State.fireTu_touch) .refl)

theorem State.sysHold_touch {s : State} {n k cause : Nat} : Touch 0x100000090107 s (s.sysHold n k cause) :=
  Touch.ite
    .refl
    (Touch.of State.flag_touch |>.then State.fireTu_touch |>.then State.setRb_touch)
    |>.then State.setRb_touch

theorem State.sysRelease_touch {s : State} {n k : Nat} : Touch 0x100000090107 s (s.sysRelease n k) :=
  .ite
    .refl
    (.ite
       (.of State.flag_touch)
       (Touch.of State.setReg_touch |>.then State.setTu_touch |>.trans (.ite (.of State.fireTu_touch) .refl)))

theorem State.tripClr_touch {s : State} {n k : Nat} {v : Word} : Touch 0x100000090107 s (s.tripClr n k v) :=
  Touch.of State.setRf_touch |>.trans (.ite (.of State.sysRelease_touch) .refl)

theorem State.pullChan_touch {s : State} {n k j : Nat} : Touch 0x10000 s (s.pullChan n k j) := .of State.setChan_touch

theorem State.pullLow_touch {s : State} {n k : Nat} : Touch 0x10000 s (s.pullLow n k) :=
  .foldl fun t x => .of State.pullChan_touch

theorem State.tripOn_touch {s : State} {n k i : Nat} : Touch 0x100000090107 s (s.tripOn n k i) :=
  .ite
    .refl
    (Touch.of State.setRb_touch
       |>.trans (.ite (.of State.setRb_touch) .refl)
       |>.trans (.ite
          .refl
          (Touch.of State.setRb_touch
             |>.then State.flag_touch
             |>.then State.fireTu_touch
             |>.then State.pullLow_touch)))

theorem execTripActive_ends {n : Fin 16} {k : Fin 4} {i : Fin 8} {s : State} :
    Ends 0x100000090107 s (execTripActive n k i s) := .next (.of State.tripOn_touch)

theorem execTripInputInactive_ends {n : Fin 16} {k : Fin 4} {i : Fin 8} {s : State} :
    Ends 0x2 s (execTripInputInactive n k i s) := .next (.of State.setRb_touch)

theorem State.boundaryP_touch {s : State} {n k : Nat} : Touch 0x10006 s (s.boundaryP n k) := by
  unfold State.boundaryP
  dsimp only
  split
  · exact .after State.takeP_touch <| .of State.setTu_touch
  · split
    · exact .afterAll (.ite .refl (.of State.takeP_touch)) <| .of State.setTu_touch
    · exact .of State.setTu_touch

theorem State.freshPeriod_touch {s : State} {n k : Nat} : Touch 0x10000 s (s.freshPeriod n k) := .of State.setTu_touch

theorem State.capEnabled_touch {s : State} {n k j : Nat} {was : Bool} : Touch 0x10002 s (s.capEnabled n k j was) :=
  .ite (Touch.of State.setChan_touch |>.then State.setRf_touch) .refl

theorem State.tripChanged_touch {s : State} {n k i : Nat} {old : Word} :
    Touch 0x100000090107 s (s.tripChanged n k i old) :=
  .ite
    .refl
    (by
       split
       · exact .ite (.of State.tripOn_touch) (.of State.setRb_touch)
       · exact .of State.setRb_touch)

theorem State.tuChanged_touch {s : State} {n k : Nat} {o : State} : Touch 0x100000090107 s (s.tuChanged n k o) := by
  unfold State.tuChanged
  dsimp only
  exact
    .afterAll (.foldl fun t x => .of State.tripChanged_touch) <|
    .foldl fun t x =>
      .of State.capEnabled_touch

theorem State.chanChanged_touch {s : State} {n k j t : Nat} {old : Word} :
    Touch 0x10006 s (s.chanChanged n k j t old) :=
  .ite
    .refl
    (.ite (.of State.setChan_touch) (Touch.of State.setChan_touch |>.trans (.ite (.of State.flag_touch) .refl)))

theorem State.chansChanged_touch {s : State} {n k t : Nat} {o : State} : Touch 0x10006 s (s.chansChanged n k t o) :=
  .ite (.foldl fun t x => .of State.chanChanged_touch) .refl

theorem State.tuSwap_touch {s : State} {n k : Nat} : Touch 0x100104090317 s (s.tuSwap n k) := by
  unfold State.tuSwap
  exact
    .ite
      (.after State.chansChanged_touch <| .after State.tuChanged_touch <| .of State.swapBlk_touch)
      .refl

theorem State.restChans_touch {s : State} {n k : Nat} : Touch 0x10000 s (s.restChans n k) :=
  .ite .refl (.foldl fun t x => .of State.setChan_touch)

theorem State.tuStop_touch {s : State} {n k : Nat} {fires : Bool} : Touch 0x100104090317 s (s.tuStop n k fires) :=
  Touch.of State.setRb_touch
    |>.then State.setRb_touch
    |>.then State.setTu_touch
    |>.then State.tuSwap_touch
    |>.trans (.ite (.of State.fireTu_touch) .refl)

theorem State.tuStartFrozen_touch {s : State} {n k : Nat} : Touch 0x10002 s (s.tuStartFrozen n k) :=
  Touch.of State.setReg_touch
    |>.then State.setReg_touch
    |>.then State.setRb_touch
    |>.then State.setRb_touch
    |>.then State.setTu_touch

theorem State.tuStart_touch {s : State} {n k : Nat} : Touch 0x100104090317 s (s.tuStart n k) :=
  .ite
    (.of State.tuStartFrozen_touch)
    (Touch.of State.tuSwap_touch
       |>.then State.restChans_touch
       |>.then State.setTu_touch
       |>.then State.boundaryP_touch
       |>.then State.loadDuties_touch
       |>.then State.freshPeriod_touch
       |>.then State.setReg_touch
       |>.then State.setReg_touch
       |>.then State.setRb_touch
       |>.then State.setRb_touch
       |>.then State.setTu_touch
       |>.then State.holdOutputs_touch
       |>.then State.releaseAtBoundary_touch
       |>.then State.fireTu_touch
       |>.then State.enterTick_touch)

theorem execTuStart_ends {n : Fin 16} {k : Fin 4} {s : State} : Ends 0x100104090317 s (execTuStart n k s) :=
  .next (.ite (.of State.tuStart_touch) .refl)

theorem State.boundary_touch {s : State} {n k : Nat} : Touch 0x100104090317 s (s.boundary n k) :=
  Touch.of State.tuSwap_touch
    |>.trans (.ite
       (.of State.tuStop_touch)
       (Touch.of State.boundaryP_touch
          |>.then State.loadDuties_touch
          |>.then State.freshPeriod_touch
          |>.then State.setReg_touch
          |>.then State.setReg_touch
          |>.then State.releaseAtBoundary_touch
          |>.then State.fireTu_touch
          |>.then State.enterTick_touch))

theorem execPeriodBoundary_ends {n : Fin 16} {k : Fin 4} {s : State} :
    Ends 0x100104090317 s (execPeriodBoundary n k s) := .next (.ite (.of State.boundary_touch) .refl)

theorem State.midPeriod_touch {s : State} {n k : Nat} : Touch 0x100000090107 s (s.midPeriod n k) :=
  Touch.of State.fireTu_touch |>.trans (.ite (.of State.loadDuties_touch) .refl) |>.then State.enqueue_touch

theorem execMidPeriod_ends {n : Fin 16} {k : Fin 4} {s : State} : Ends 0x100000090107 s (execMidPeriod n k s) :=
  .next (.ite (.of State.midPeriod_touch) .refl)

theorem execChannelEventPoint_ends {n : Fin 16} {k : Fin 4} {j : Fin 6} {s : State} :
    Ends 0x100000090107 s (execChannelEventPoint n k j s) := .next (.ite (.of State.fireTu_touch) .refl)

theorem State.openBlank_touch {s : State} {n c at_ : Nat} : Touch 0x40002 s (s.openBlank n c at_) :=
  .ite (.of (.part (Keep.set_cps _ _ _))) (Touch.of State.setRb_touch |>.then (.part (Keep.set_cps _ _ _)))

theorem State.dropBlank_touch {s : State} {n c at_ : Nat} : Touch 0x40000 s (s.dropBlank n c at_) :=
  .ite (.of (.part (Keep.set_cps _ _ _))) .refl

theorem State.blankEdge_touch {s : State} {n k j : Nat} {a : OutRec} : Touch 0x40002 s (s.blankEdge n k j a) := by
  unfold State.blankEdge
  dsimp only
  split
  · refine .afterAll (.ite .refl (.foldl fun t x => .of State.openBlank_touch)) ?_
    split
    · exact .ite (.foldl fun t x => .of State.dropBlank_touch) .refl
    · exact .refl
  · split
    · exact .ite (.foldl fun t x => .of State.dropBlank_touch) .refl
    · exact .refl

theorem State.referenceEdge_touch {s : State} {n k j : Nat} {rise : Bool} {fine : Nat} :
    Touch 0x50106 s (s.referenceEdge n k j rise fine) :=
  .ite
    .refl
    (Touch.of State.refEdge_touch
       |>.then State.blankEdge_touch
       |>.trans (.foldl fun t x => .ite (.of State.couple_touch) .refl))

theorem execReferenceEdge_ends {n : Fin 16} {k : Fin 4} {j : Fin 6} {rise : Bool} {fine : Fin 64} {s : State} :
    Ends 0x50106 s (execReferenceEdge n k j rise fine s) := .next (.ite (.of State.referenceEdge_touch) .refl)

theorem State.tuCtrlWrite_touch {s : State} {n k : Nat} {v : Word} : Touch 0x10002 s (s.tuCtrlWrite n k v) :=
  Touch.of State.setRb_touch
    |>.trans (.ite
       (.of State.setTu_touch)
       (.ite (.ite (.of State.setTu_touch) (.of State.setTu_touch)) (.of State.setTu_touch)))

theorem State.tuAdvance_touch {s : State} {n k : Nat} : Touch 0x3 s (s.tuAdvance n k) :=
  .ite (.of State.enqueue_touch) (Touch.of State.setReg_touch |>.then State.enterTick_touch)

theorem State.tuTick_touch {s : State} {n k : Nat} : Touch 0x100104090317 s (s.tuTick n k) := by
  unfold State.tuTick
  dsimp only
  refine .afterAll (.ite (.of State.tuStop_touch) (.ite (.of State.tuAdvance_touch) .refl)) ?_
  split
  · exact .ite (.after State.enqueue_touch <| .of State.setTu_touch) (.of State.setTu_touch)
  · exact .refl

theorem State.couplingRelease_touch {s : State} {n k : Nat} : Touch 0x100104090317 s (s.couplingRelease n k) := by
  unfold State.couplingRelease
  split
  · exact .refl
  · exact Touch.of .upd_clk
      |>.trans (.ite
         .refl
         (by
            split
            · exact .of State.tuStart_touch
            · exact .ite .refl (.of State.tuStart_touch)
            · exact .ite .refl (Touch.of State.setTu_touch |>.then State.holdOutputs_touch)
            · exact .ite (.of State.tuAdvance_touch) .refl))

theorem execCouplingRelease_ends {n : Fin 16} {k : Fin 4} {s : State} :
    Ends 0x100104090317 s (execCouplingRelease n k s) := .next (.of State.couplingRelease_touch)

theorem State.tuSwapped_touch {s : State} {n k : Nat} : Touch 0x10006 s (s.tuSwapped n k) :=
  .ite (Touch.ite .refl (.of State.boundaryP_touch) |>.then State.freshPeriod_touch) .refl

theorem State.tuCfgWas_touch {s : State} {n k : Nat} {o : State} : Touch 0x10000 s (s.tuCfgWas n k o) :=
  .of State.setTu_touch

theorem State.safeAssert_touch {s : State} : Touch 0x200807 s (s.safeAssert) :=
  Touch.of (.part (Keep.upd_safeN _ _))
    |>.then State.flag_touch
    |>.then State.setLine_touch
    |>.trans (.foldl fun t x => Touch.of State.setRb_touch |>.then State.flag_touch)

theorem execSafeNAssert_ends {s : State} : Ends 0x200807 s (execSafeNAssert s) := .next (.of State.safeAssert_touch)

theorem State.safeDeassert_touch {s : State} : Touch 0x200801 s (s.safeDeassert) :=
  Touch.of (.part (Keep.upd_safeN _ _)) |>.then State.setLine_touch

theorem execSafeNDeassert_ends {s : State} : Ends 0x200801 s (execSafeNDeassert s) :=
  .next (.of State.safeDeassert_touch)

theorem State.noteOutput_touch {s : State} {n k o : Nat} : Touch 0x10000 s (s.noteOutput n k o) :=
  .ite .refl (.of State.setTu_touch)

theorem State.noteOutputs_touch {s : State} {n k : Nat} : Touch 0x10000 s (s.noteOutputs n k) :=
  .foldl fun t x => .of State.noteOutput_touch

theorem State.readback_touch {s : State} {n k o : Nat} {level : Bool} :
    Touch 0x100000090107 s (s.readback n k o level) :=
  .ite
    .refl
    (.ite
       (Touch.of State.setTu_touch |>.then State.setRb_touch)
       (Touch.of State.setTu_touch
          |>.then State.setRb_touch
          |>.then State.flag_touch
          |>.then State.fireTu_touch
          |>.then State.report_touch
          |>.trans (.ite
             .refl
             (Touch.of State.setRb_touch
                |>.then State.flag_touch
                |>.then State.report_touch
                |>.trans (.ite (.of State.sysHold_touch) .refl)))))

theorem execReadbackCheck_ends {n : Fin 16} {k : Fin 4} {o : Fin 12} {level : Bool} {s : State} :
    Ends 0x100000090107 s (execReadbackCheck n k o level s) := .next (.ite (.of State.readback_touch) .refl)

theorem State.capture_touch {s : State} {n k j : Nat} {rise : Bool} {ago : Nat} :
    Touch 0x100000090107 s (s.capture n k j rise ago) :=
  .ite
    .refl
    (.ite
       (.of State.setChan_touch)
       (.ite
          (Touch.of State.setChan_touch |>.then State.flag_touch)
          (Touch.ite
             .refl
             (.of State.flag_touch)
             |>.then State.setChan_touch
             |>.then State.setReg_touch
             |>.then State.setReg_touch
             |>.then State.setReg_touch
             |>.then State.fireTu_touch)))

theorem State.captureEdge_touch {s : State} {n k j : Nat} {rise : Bool} {ago : Nat} :
    Touch 0x100000090107 s (s.captureEdge n k j rise ago) :=
  .ite
    .refl
    (.ite
       (Touch.of State.setChan_touch |>.then State.capture_touch)
       (by
          split
          · exact .ite .refl (.of State.setChan_touch)
          · exact .of State.setChan_touch))

theorem execCaptureEdge_ends {n : Fin 16} {k : Fin 4} {j : Fin 6} {rise : Bool} {ago : Word} {s : State} :
    Ends 0x100000090107 s (execCaptureEdge n k j rise ago s) := .next (.ite (.of State.captureEdge_touch) .refl)

theorem State.consumeCap_touch {s : State} {n k j : Nat} : Touch 0x10000 s (s.consumeCap n k j) :=
  .of State.setChan_touch

theorem State.tuWake_touch {s : State} {n k dB : Nat} : Touch 0x100104090317 s (s.tuWake n k dB) :=
  Touch.of State.setTu_touch
    |>.trans (.ite
       (.ite
          (Touch.of State.setReg_touch
             |>.then State.setReg_touch
             |>.then State.tuStop_touch
             |>.then State.flag_touch
             |>.then State.fireTu_touch)
          (Touch.of State.setReg_touch
             |>.then State.setReg_touch
             |>.then State.setReg_touch
             |>.trans (.ite (Touch.of State.flag_touch |>.then State.fireTu_touch) .refl)))
       .refl)

theorem State.tuFreeze_touch {s : State} {n k who : Nat} : Touch 0x10002 s (s.tuFreeze n k who) :=
  .ite .refl (Touch.of State.setTu_touch |>.then State.setRb_touch |>.then State.holdOutputs_touch)

theorem State.tuUnfreeze_touch {s : State} {n k who : Nat} : Touch 0x10002 s (s.tuUnfreeze n k who) :=
  Touch.of State.setTu_touch |>.then State.setRb_touch |>.then State.holdOutputs_touch

end Sys2Proof.Machine
end

section
/-!
What the operations of the records of the loop engines may touch.
-/
namespace Sys2Proof.Machine
open Sys2Proof
set_option Elab.async false

theorem State.setCtx_touch {s : State} {n m c : Nat} {x : CtxRec} : Touch 0x800000 s (s.setCtx n m c x) :=
  .of (State.setLe_touch fun h => by rw [List.length_set, h.ctxs_length])

theorem State.impose_touch {s : State} {n m c cause : Nat} : Touch 0x800002 s (s.impose n m c cause) :=
  Touch.of State.setCtx_touch |>.then State.setReg_touch

theorem State.noteFresh_touch {s : State} {n m c : Nat} : Touch 0x1 s (s.noteFresh n m c) :=
  .ite (.of State.enqueue_touch) .refl

theorem State.latchEngine_touch {s : State} {n m core tag : Nat} {code : Word} {instant : Nat} :
    Touch 0x800081 s (s.latchEngine n m core tag code instant).2 := by
  unfold State.latchEngine
  dsimp only
  exact
    .iteSnd
      .refl
      (.pair <| .afterAll (.foldl fun t x =>
          .ite
            .refl
            (.after State.noteFresh_touch <| .of State.setCtx_touch)) <|
       .after (State.setLe_touch_ctxs rfl) <|
       .of State.free_touch)

theorem State.latchResult_touch {s : State} {n core tag : Nat} {code : Word} {instant : Nat} :
    Touch 0x800081 s (s.latchResult n core tag code instant).2 := by
  unfold State.latchResult
  dsimp only
  exact
    .foldlPair fun t x =>
      .pair <| .of State.latchEngine_touch

theorem State.latchSinc_touch {s : State} {n m d : Nat} {v : Word} : Touch 0x800001 s (s.latchSinc n m d v).2 := by
  unfold State.latchSinc
  dsimp only
  exact
    .iteSnd
      .refl
      (.pair <| .afterAll (.foldl fun t x =>
          .ite
            .refl
            (.after State.noteFresh_touch <| .of State.setCtx_touch)) <|
       .of (State.setLe_touch_ctxs rfl))

theorem State.latchDemod_touch {s : State} {n d : Nat} {v : Word} : Touch 0x800001 s (s.latchDemod n d v).2 := by
  unfold State.latchDemod
  dsimp only
  exact
    .foldlPair fun t x =>
      .pair <| .of State.latchSinc_touch

theorem State.imposeAwaiting_touch {s : State} {n core : Nat} : Touch 0x800002 s (s.imposeAwaiting n core) :=
  .foldl fun t x => .ite (.of State.impose_touch) .refl

end Sys2Proof.Machine
end

section
/-!
What the operations of the analog front end may touch.
-/
namespace Sys2Proof.Machine
open Sys2Proof
set_option Elab.async false

theorem State.setAc_touch {s : State} {n c : Nat} {r : AcRec} : Touch 0x20000 s (s.setAc n c r) :=
  .of (.part (Keep.set_acs _ _ _))

theorem State.setCp_touch {s : State} {n c : Nat} {r : CpRec} : Touch 0x40000 s (s.setCp n c r) :=
  .of (.part (Keep.set_cps _ _ _))

theorem State.fireAc_touch {s : State} {n c e : Nat} : Touch 0x100000000001 s (s.fireAc n c e) :=
  .of State.fireIsland_touch

theorem State.fireSd_touch {s : State} {n d e : Nat} : Touch 0x100000000001 s (s.fireSd n d e) :=
  .of State.fireIsland_touch

theorem State.roundDiv_touch {s : State} {num : ℤ} {den : Nat} : Touch 0x80 s (s.roundDiv num den).2 :=
  .iteSnd .refl (.iteSnd .refl (.of State.freeBit_touch))

theorem State.rawCode_touch {s : State} {diff : Bool} {g : Nat} {vin : ℤ} {ref : Nat} {err : ℤ} :
    Touch 0x80 s (s.rawCode diff g vin ref err).2 := .of State.roundDiv_touch

theorem State.corrected_touch {s : State} {n p g raw : Nat} : Touch 0x80 s (s.corrected n p g raw).2 :=
  .of State.roundDiv_touch

theorem State.acCode_touch {s : State} {n p : Nat} {entry : Word} {raw : Nat} :
    Touch 0x80 s (s.acCode n p entry raw).2 := .iteSnd (.of State.corrected_touch) .refl

theorem State.acStart_touch {s : State} {n c i : Nat} {inj : Bool} : Touch 0x20000 s (s.acStart n c i inj) :=
  .of State.setAc_touch

theorem State.acBegin_touch {s : State} {n c t : Nat} : Touch 0x20002 s (s.acBegin n c t) :=
  Touch.of State.setAc_touch |>.then State.setRb_touch |>.then State.setRf_touch

theorem State.acSwap_touch {s : State} {n c : Nat} : Touch 0x100104000213 s (s.acSwap n c) :=
  .ite (.of State.swapBlk_touch) .refl

theorem State.acSettle_touch {s : State} {n c : Nat} : Touch 0x100104020213 s (s.acSettle n c) :=
  .ite
    .refl
    (Touch.of State.acSwap_touch
       |>.trans (.ite .refl (.of State.setAc_touch))
       |>.trans (.ite
          .refl
          (.ite
             (Touch.of State.setRb_touch |>.then State.acBegin_touch)
             (.ite (.of State.acBegin_touch) .refl))))

theorem State.acNext_touch {s : State} {n p : Nat} : Touch 0x100104020213 s (s.acNext n p) := by
  unfold State.acNext
  dsimp only
  refine .ite ?_ ?_
  · exact .refl
  · split
    · exact .after State.acStart_touch <| .foldl fun t x => .of State.acSettle_touch
    · split
      · exact .after State.acStart_touch <| .foldl fun t x => .of State.acSettle_touch
      · exact .foldl fun t x => .of State.acSettle_touch

theorem State.adcTrigger_touch {s : State} {n c : Nat} {inj : Bool} : Touch 0x20006 s (s.adcTrigger n c inj) :=
  .ite
    .refl
    (.ite
       (.ite (.of State.flag_touch) .refl)
       (.ite .refl (.ite (.of State.flag_touch) (.of State.setAc_touch))))

theorem State.triggerDue_touch {s : State} {n c : Nat} {inj : Bool} : Touch 0x100104020213 s (s.triggerDue n c inj) := by
  unfold State.triggerDue
  dsimp only
  split
  · exact .refl
  · exact
      .ite
        .refl
        (.ite
           (.after State.acNext_touch <| .after State.setRb_touch <| .of State.setAc_touch)
           (.afterAll (.ite (.of State.setRb_touch) (.after State.acNext_touch <| .of State.acBegin_touch)) <|
            .of State.setAc_touch))

theorem execAdcTrigger_ends {n : Fin 16} {c : Fin 2} {inj : Bool} {s : State} :
    Ends 0x20006 s (execAdcTrigger n c inj s) := .next (.ite (.of State.adcTrigger_touch) .refl)

theorem execTriggerDue_ends {n : Fin 16} {c : Fin 2} {inj : Bool} {s : State} :
    Ends 0x100104020213 s (execTriggerDue n c inj s) := .next (.of State.triggerDue_touch)

theorem State.acResult_touch {s : State} {n c tag : Nat} {inj check : Bool} {code : Word} {si : Nat} :
    Touch 0x100000820087 s (s.acResult n c tag inj check code si) :=
  Touch.ite
    (Touch.of State.flag_touch |>.then State.fireAc_touch)
    .refl
    |>.then State.setAc_touch
    |>.then State.latchResult_touch
    |>.then State.setReg_touch
    |>.then State.setReg_touch
    |>.then State.setReg_touch
    |>.then State.fireAc_touch

theorem State.acAfter_touch {s : State} {n c i : Nat} {inj : Bool} : Touch 0x100000020003 s (s.acAfter n c i inj) :=
  .ite
    (.ite .refl (.ite (Touch.of State.setRb_touch |>.then State.fireAc_touch) (.of State.setAc_touch)))
    (.ite .refl (.ite (Touch.of State.setRb_touch |>.then State.fireAc_touch) (.of State.setRf_touch)))

theorem State.acHandBack_touch {s : State} {n c : Nat} : Touch 0x20002 s (s.acHandBack n c) :=
  .ite (Touch.of State.setAc_touch |>.trans (.ite (.of State.setRf_touch) .refl)) .refl

theorem State.conversionDone_touch {s : State} {n c : Nat} {vin : ℤ} {vref : Nat} {err : ℤ} :
    Touch 0x100104820297 s (s.conversionDone n c vin vref err) := by
  unfold State.conversionDone
  dsimp only
  split
  · exact .refl
  · exact
      .after State.acNext_touch <|
      .after State.acHandBack_touch <|
      .after State.acAfter_touch <|
      .after State.acResult_touch <|
      .after State.setAc_touch <|
      .after State.setAc_touch <|
      .after State.acCode_touch <|
      .of State.rawCode_touch

theorem execConversionDone_ends {n : Fin 16} {c : Fin 2} {x : Conversion} {s : State} :
    Ends 0x100104820297 s (execConversionDone n c x s) := .next (.ite (.of State.conversionDone_touch) .refl)

theorem State.acDataRead_touch {s : State} {n c : Nat} : Touch 0x2 s (s.acDataRead n c) := .of State.setRb_touch

theorem State.acCtrlWrite_touch {s : State} {n c : Nat} {v : Word} : Touch 0x100104020217 s (s.acCtrlWrite n c v) :=
  .ite
    (.of State.flag_touch)
    (Touch.of State.setReg_touch
       |>.trans (.ite
          (.ite .refl (.of State.setRf_touch))
          (Touch.of State.setAc_touch
             |>.then State.setRf_touch
             |>.then State.acSwap_touch
             |>.then State.acNext_touch)))

theorem State.acCalWrite_touch {s : State} {n c : Nat} {v : Word} : Touch 0x20006 s (s.acCalWrite n c v) :=
  .ite
    .refl
    (.ite
       (.of State.flag_touch)
       (Touch.of State.setRb_touch |>.then State.setRb_touch |>.then State.setAc_touch))

theorem State.acFactorWrite_touch {s : State} {n c a : Nat} {v : Word} : Touch 0x6 s (s.acFactorWrite n c a v) :=
  .ite (.of State.flag_touch) (Touch.of State.setReg_touch |>.then State.setRb_touch)

theorem State.calibrationDone_touch {s : State} {n c : Nat} {ok : Bool} {temp : BitVec 16} {gains lins : List Word} :
    Touch 0x100000020007 s (s.calibrationDone n c ok temp gains lins) := by
  unfold State.calibrationDone
  dsimp only
  exact
    .ite
      .refl
      (.afterAll (.ite
          (.of State.flag_touch)
          (.after State.fireAc_touch <|
           .after State.flag_touch <|
           .after State.setReg_touch <|
           .afterAll (.foldl fun t x => .of State.setReg_touch) <|
           .foldl fun t x =>
             .of State.setReg_touch)) <|
       .after State.setAc_touch <|
       .after State.setRb_touch <|
       .of State.setRb_touch)

theorem execCalibrationDone_ends {n : Fin 16} {c : Fin 2} {ok : Bool} {temp : BitVec 16} {gains : Vector Word 4} {lins : Vector Word 8} {s : State} :
    Ends 0x100000020007 s (execCalibrationDone n c ok temp gains lins s) := .next (.of State.calibrationDone_touch)

theorem State.driftCheck_touch {s : State} {n c temp : Nat} : Touch 0x100000000007 s (s.driftCheck n c temp) :=
  .ite (Touch.of State.setRb_touch |>.then State.flag_touch |>.then State.fireAc_touch) .refl

theorem execDriftCheck_ends {n : Fin 16} {c : Fin 2} {temp : BitVec 16} {s : State} :
    Ends 0x100000000007 s (execDriftCheck n c temp s) := .next (.ite (.of State.driftCheck_touch) .refl)

theorem State.acRetire_touch {s : State} {n c : Nat} {forced : Bool} :
    Touch 0x100000020007 s (s.acRetire n c forced) :=
  .ite
    .refl
    (Touch.ite
       (Touch.of State.setAc_touch |>.then State.setRf_touch |>.then State.report_touch)
       .refl
       |>.then State.setAc_touch
       |>.then State.setReg_touch
       |>.then State.flag_touch
       |>.then State.fireAc_touch
       |>.then State.report_touch)

theorem State.referenceCheck_touch {s : State} {n p raw again : Nat} :
    Touch 0x100104020297 s (s.referenceCheck n p raw again) :=
  .ite
    .refl
    (Touch.of State.corrected_touch
       |>.then State.corrected_touch
       |>.then State.setReg_touch
       |>.then State.setAc_touch
       |>.trans (.ite
          (.of State.acNext_touch)
          (.ite
             (Touch.of State.setAc_touch
                |>.then State.setRf_touch
                |>.then State.flag_touch
                |>.then State.report_touch
                |>.trans (.ite (.of State.acRetire_touch) (.of State.acNext_touch)))
             (.of State.acRetire_touch))))

theorem execReferenceCheck_ends {n : Fin 16} {c : Fin 2} {raw again : BitVec 16} {s : State} :
    Ends 0x100104020297 s (execReferenceCheck n c raw again s) := .next (.ite (.of State.referenceCheck_touch) .refl)

theorem State.takeover_touch {s : State} {n c : Nat} : Touch 0x820006 s (s.takeover n c) :=
  .ite
    (Touch.of State.setAc_touch
       |>.then State.setRf_touch
       |>.then State.flag_touch
       |>.then State.imposeAwaiting_touch)
    .refl

theorem execTakeover_ends {n : Fin 16} {c : Fin 2} {s : State} : Ends 0x820006 s (execTakeover n c s) :=
  .next (.of State.takeover_touch)

theorem State.setSd_touch {s : State} {n d : Nat} {r : SdRec} : Touch 0x400000 s (s.setSd n d r) :=
  .of (.part (Keep.set_sds _ _ _))

theorem State.sinc3_touch {s : State} {n d : Nat} {raw : Word} : Touch 0x100000800007 s (s.sinc3 n d raw) :=
  Touch.ite
    (.of State.flag_touch)
    .refl
    |>.then State.latchDemod_touch
    |>.then State.setReg_touch
    |>.then State.setRf_touch
    |>.then State.setRb_touch
    |>.then State.fireSd_touch

theorem State.sinc3Done_touch {s : State} {n d : Nat} {l : List (Bool × Bool)} :
    Touch 0x100000C00007 s (s.sinc3Done n d l) := Touch.of State.setSd_touch |>.then State.sinc3_touch

theorem execSinc3Result_ends {n : Fin 16} {d : Fin 4} {samples : List (Bool × Bool)} {s : State} :
    Ends 0x100000C00007 s (execSinc3Result n d samples s) := .next (.ite (.of State.sinc3Done_touch) .refl)

theorem State.sinc2_touch {s : State} {n d : Nat} {raw : Word} : Touch 0x100000000007 s (s.sinc2 n d raw) :=
  Touch.of State.setReg_touch
    |>.then State.setRb_touch
    |>.then State.setRb_touch
    |>.trans (.ite (.of State.flag_touch) .refl)
    |>.trans (.ite (.of State.fireSd_touch) .refl)
    |>.trans (.ite (.of State.fireSd_touch) .refl)

theorem State.sinc2Done_touch {s : State} {n d : Nat} {l : List (Bool × Bool)} :
    Touch 0x100000400007 s (s.sinc2Done n d l) := Touch.of State.setSd_touch |>.then State.sinc2_touch

theorem execSinc2Result_ends {n : Fin 16} {d : Fin 4} {samples : List (Bool × Bool)} {s : State} :
    Ends 0x100000400007 s (execSinc2Result n d samples s) := .next (.ite (.of State.sinc2Done_touch) .refl)

theorem State.sdRestart_touch {s : State} {n d tick : Nat} : Touch 0x400000 s (s.sdRestart n d tick) :=
  .of State.setSd_touch

theorem execSdSync_ends {n : Fin 16} {d : Fin 4} {s : State} : Ends 0x400000 s (execSdSync n d s) :=
  .next (.ite (.of State.sdRestart_touch) .refl)

theorem State.sdDataRead_touch {s : State} {n d : Nat} : Touch 0x2 s (s.sdDataRead n d) := .of State.setRb_touch

theorem execSdClockLost_ends {n : Fin 16} {d : Fin 4} {s : State} : Ends 0x100000000007 s (execSdClockLost n d s) :=
  .next (.ite (Touch.of State.setRb_touch |>.then State.flag_touch |>.then State.fireSd_touch) .refl)

theorem execSdSaturation_ends {n : Fin 16} {d : Fin 4} {s : State} : Ends 0x100000000007 s (execSdSaturation n d s) :=
  .next (.ite (Touch.of State.flag_touch |>.then State.fireSd_touch) .refl)

theorem execSdClockRestored_ends {n : Fin 16} {d : Fin 4} {s : State} : Ends 0x2 s (execSdClockRestored n d s) :=
  .next (.ite (.of State.setRb_touch) .refl)

theorem State.cpOutput_touch {s : State} {n c : Nat} {level : Bool} : Touch 0x100000000807 s (s.cpOutput n c level) :=
  .ite
    .refl
    (Touch.of State.setRb_touch
       |>.then State.flag_touch
       |>.then State.fireIsland_touch
       |>.then State.setLine_touch
       |>.then State.enqueue_touch)

theorem State.cpDecide_touch {s : State} {n c : Nat} {d : Bool} : Touch 0x100000040807 s (s.cpDecide n c d) :=
  Touch.of State.setCp_touch |>.trans (.ite .refl (.of State.cpOutput_touch))

theorem State.cpTransition_touch {s : State} {n c ain : Nat} {vin : ℤ} :
    Touch 0x100000040807 s (s.cpTransition n c ain vin) :=
  .ite
    .refl
    (Touch.of State.setCp_touch
       |>.trans (.ite
          (Touch.of State.setCp_touch |>.then State.cpOutput_touch)
          (.ite
             (.of State.cpDecide_touch)
             (.ite
                (.of State.setCp_touch)
                (by
                   split
                   · exact .refl
                   · exact .of State.setCp_touch)))))

theorem execComparatorTransition_ends {n : Fin 16} {c : Fin 8} {x : InputVoltage} {s : State} :
    Ends 0x100000040807 s (execComparatorTransition n c x s) := .next (.ite (.of State.cpTransition_touch) .refl)

theorem State.cpTick_touch {s : State} {n c : Nat} : Touch 0x100000040807 s (s.cpTick n c) := by
  unfold State.cpTick
  dsimp only
  split
  · refine .afterAll (.ite (.of State.cpDecide_touch) .refl) ?_
    split
    · exact .ite (.of State.openBlank_touch) .refl
    · exact .refl
  · split
    · exact .ite (.of State.openBlank_touch) .refl
    · exact .refl

theorem State.cpBlankEnd_touch {s : State} {n c : Nat} : Touch 0x100000040807 s (s.cpBlankEnd n c) :=
  .ite
    .refl
    (Touch.of State.setRb_touch |>.then State.setCp_touch |>.trans (.ite .refl (.of State.cpOutput_touch)))

theorem execBlankingExpiry_ends {n : Fin 16} {c : Fin 8} {s : State} :
    Ends 0x100000040807 s (execBlankingExpiry n c s) := .next (.of State.cpBlankEnd_touch)

theorem State.cpSettled_touch {s : State} {n c : Nat} {vin : ℤ} : Touch 0x100000040807 s (s.cpSettled n c vin) :=
  .ite
    .refl
    (Touch.of State.setRb_touch |>.then State.setCp_touch |>.trans (.ite .refl (.of State.cpOutput_touch)))

theorem execSettlingEnd_ends {n : Fin 16} {c : Fin 8} {vin : Word} {s : State} :
    Ends 0x100000040807 s (execSettlingEnd n c vin s) := .next (.of State.cpSettled_touch)

theorem State.cpChanged_touch {s : State} {n c : Nat} {cfg thr : Word} : Touch 0x40803 s (s.cpChanged n c cfg thr) :=
  .ite
    (Touch.of State.setRf_touch
       |>.then State.setCp_touch
       |>.then State.setLine_touch
       |>.then State.enqueue_touch)
    (.ite (.of State.setRb_touch) .refl)

end Sys2Proof.Machine
end

section
/-!
What the operations of the position interfaces may touch.
-/
namespace Sys2Proof.Machine
open Sys2Proof
set_option Elab.async false

theorem State.setMk_touch {s : State} {n k : Nat} {r : MkRec} : Touch 0x100000 s (s.setMk n k r) :=
  .of (.part (Keep.set_mks _ _ _))

theorem State.fireEq_touch {s : State} {n q e : Nat} : Touch 0x100000000001 s (s.fireEq n q e) :=
  .of State.fireIsland_touch

theorem State.fireMk_touch {s : State} {n k e : Nat} : Touch 0x100000000001 s (s.fireMk n k e) :=
  .of State.fireIsland_touch

theorem State.setCount_touch {s : State} {n q : Nat} {v : Word} : Touch 0x80002 s (s.setCount n q v) :=
  Touch.of State.setEq_touch |>.then State.setReg_touch

theorem State.setPcState_touch {s : State} {n q v : Nat} : Touch 0x2 s (s.setPcState n q v) := .of State.setRf_touch

theorem State.pcBandTest_touch {s : State} {n q : Nat} : Touch 0x2 s (s.pcBandTest n q) :=
  .ite (.of State.setPcState_touch) .refl

theorem State.pcPulse_touch {s : State} {n q : Nat} : Touch 0x80006 s (s.pcPulse n q) :=
  Touch.of State.setEq_touch |>.trans (.ite .refl (.of State.flag_touch))

theorem State.pcFire_touch {s : State} {n q : Nat} {forward : Bool} {t tickFine : Nat} :
    Touch 0x100000080007 s (s.pcFire n q forward t tickFine) :=
  Touch.of State.setReg_touch
    |>.then State.setReg_touch
    |>.then State.setReg_touch
    |>.then State.setPcState_touch
    |>.trans (.ite (.of State.pcPulse_touch) .refl)
    |>.then State.flag_touch
    |>.then State.fireEq_touch

theorem State.pcTest_touch {s : State} {n q : Nat} {c : Word} {d : ℤ} {t tickFine : Nat} :
    Touch 0x100000080007 s (s.pcTest n q c d t tickFine) := by
  unfold State.pcTest
  split
  · exact .ite (.of State.pcFire_touch) .refl
  · exact .of State.pcBandTest_touch
  · exact .refl

theorem State.pcCtrlWrite_touch {s : State} {n q : Nat} {v : Word} : Touch 0x2 s (s.pcCtrlWrite n q v) :=
  .ite (.of State.setPcState_touch) (.ite (.of State.setPcState_touch) .refl)

theorem execCompareArmPennant_ends {n : Fin 16} {q : Fin 2} {s : State} : Ends 0x2 s (execCompareArmPennant n q s) :=
  .next (.ite (.of State.setPcState_touch) .refl)

theorem execDwell_ends {n : Fin 16} {q : Fin 2} {s : State} : Ends 0x100000000007 s (execDwell n q s) :=
  .next (.ite (Touch.of State.setRb_touch |>.then State.flag_touch |>.then State.fireEq_touch) .refl)

theorem execComparePulseEnd_ends {n : Fin 16} {q : Fin 2} {s : State} : Ends 0x80000 s (execComparePulseEnd n q s) :=
  .next (.ite (.of State.setEq_touch) .refl)

theorem State.phaseError_touch {s : State} {n q : Nat} : Touch 0x100000000007 s (s.phaseError n q) :=
  Touch.of State.flag_touch |>.then State.fireEq_touch

theorem State.countEdge_touch {s : State} {n q : Nat} {d : ℤ} {f : Nat} :
    Touch 0x100000080007 s (s.countEdge n q d f) :=
  Touch.of State.setCount_touch
    |>.then State.setReg_touch
    |>.trans (by
       split
       · exact .refl
       · exact .of State.setReg_touch)
    |>.then State.setEq_touch
    |>.then State.setRb_touch
    |>.then State.pcTest_touch

theorem State.ssiStart_touch {s : State} {n q : Nat} : Touch 0x80002 s (s.ssiStart n q) :=
  Touch.of State.setReg_touch |>.then State.setEq_touch

theorem State.encoderInput_touch {s : State} {n q : Nat} {a b : Bool} {f : Nat} :
    Touch 0x80000 s (s.encoderInput n q a b f) := .of State.setEq_touch

theorem State.ssiData_touch {s : State} {n q : Nat} : Touch 0x80002 s (s.ssiData n q) :=
  .ite (.of State.ssiStart_touch) .refl

theorem State.encoderEdge_touch {s : State} {n q : Nat} {a b : Bool} {fa fb : Nat} :
    Touch 0x100000080007 s (s.encoderEdge n q a b fa fb) :=
  Touch.of State.setEq_touch
    |>.trans (.ite
       (.of State.ssiData_touch)
       (.ite
          (.of State.phaseError_touch)
          (.ite
             (.of State.phaseError_touch)
             (.ite .refl (Touch.of State.setEq_touch |>.then State.countEdge_touch)))))

theorem State.encoderPass_touch {s : State} {n q : Nat} : Touch 0x100000080007 s (s.encoderPass n q) :=
  .ite .refl (Touch.of State.setEq_touch |>.then State.encoderEdge_touch)

theorem execEncoderEdge_ends {n : Fin 16} {q : Fin 2} {a b : Bool} {ago : Word} {s : State} :
    Ends 0x100000080007 s (execEncoderEdge n q a b ago s) :=
  .next (.ite (Touch.of State.encoderInput_touch |>.then State.encoderPass_touch) .refl)

theorem State.loadCount_touch {s : State} {n q : Nat} {v : Word} : Touch 0x80002 s (s.loadCount n q v) :=
  Touch.of State.setCount_touch |>.then State.pcBandTest_touch

theorem State.encoderIndex_touch {s : State} {n q : Nat} : Touch 0x100000080007 s (s.encoderIndex n q) :=
  .ite
    .refl
    (Touch.of State.setReg_touch
       |>.then State.flag_touch
       |>.then State.fireEq_touch
       |>.trans (by
          split
          · exact .ite
              (Touch.of State.setEq_touch |>.then State.setRb_touch |>.then State.loadCount_touch)
              .refl
          · exact .of State.loadCount_touch
          · exact .refl))

theorem execEncoderIndex_ends {n : Fin 16} {q : Fin 2} {s : State} : Ends 0x100000080007 s (execEncoderIndex n q s) :=
  .next (.ite (.of State.encoderIndex_touch) .refl)

theorem State.ssiTrigger_touch {s : State} {n q : Nat} {high : Bool} : Touch 0x80006 s (s.ssiTrigger n q high) :=
  .ite .refl (.ite (.of State.flag_touch) (.ite (.of State.ssiStart_touch) (.of State.setEq_touch)))

theorem execSsiTrigger_ends {n : Fin 16} {q : Fin 2} {dataHigh : Bool} {s : State} :
    Ends 0x80006 s (execSsiTrigger n q dataHigh s) :=
  .next (.ite (Touch.of State.setEq_touch |>.then State.ssiTrigger_touch) .refl)

theorem execSsiMonoflopEnd_ends {n : Fin 16} {q : Fin 2} {s : State} : Ends 0x80002 s (execSsiMonoflopEnd n q s) :=
  .next (.ite (.of State.ssiStart_touch) .refl)

theorem State.ssiTimeout_touch {s : State} {n q : Nat} : Touch 0x100000080007 s (s.ssiTimeout n q) := by
  unfold State.ssiTimeout
  split
  · exact .refl
  · exact .ite .refl (Touch.of State.setEq_touch |>.then State.flag_touch |>.then State.fireEq_touch)

theorem execSsiTimeout_ends {n : Fin 16} {q : Fin 2} {s : State} : Ends 0x100000080007 s (execSsiTimeout n q s) :=
  .next (.ite (.of State.ssiTimeout_touch) .refl)

theorem State.ssiFrame_touch {s : State} {n q frame : Nat} : Touch 0x100000080087 s (s.ssiFrame n q frame) :=
  .ite
    .refl
    (Touch.of State.setEq_touch
       |>.trans (.ite
          (Touch.of State.free_touch
             |>.then State.free_touch
             |>.then State.setReg_touch
             |>.then State.setCount_touch
             |>.then State.pcBandTest_touch
             |>.then State.fireEq_touch)
          (Touch.of State.setReg_touch
             |>.trans (.ite
                (Touch.of State.setCount_touch |>.then State.pcBandTest_touch |>.then State.fireEq_touch)
                (Touch.of State.setCount_touch
                   |>.then State.free_touch
                   |>.then State.free_touch
                   |>.then State.free_touch
                   |>.then State.pcTest_touch
                   |>.then State.fireEq_touch)))))

theorem execSsiFrameComplete_ends {n : Fin 16} {q : Fin 2} {frame : BitVec 48} {s : State} :
    Ends 0x100000080087 s (execSsiFrameComplete n q frame s) := .next (.ite (.of State.ssiFrame_touch) .refl)

theorem State.eqCtrlWrite_touch {s : State} {n q : Nat} {v : Word} : Touch 0x80002 s (s.eqCtrlWrite n q v) :=
  Touch.of State.setRb_touch |>.trans (.ite (.of State.setEq_touch) .refl)

theorem State.eqChanged_touch {s o : State} {n q : Nat} : Touch 0x80002 s (s.eqChanged o n q) :=
  Touch.of State.setEq_touch |>.then State.pcBandTest_touch

theorem State.mkCommit_touch {s : State} {n m lo len t : Nat} : Touch 0x100000 s (s.mkCommit n m lo len t) :=
  .foldl fun t x =>
    by
      split
      · exact .ite (.of State.setMk_touch) .refl
      · exact .refl

theorem State.mkPosition_touch {s : State} {p0 p1 : BitVec 64} {t0 t1 tm : Nat} :
    Touch 0x80 s (s.mkPosition p0 p1 t0 t1 tm).2 := .of State.roundDiv_touch

theorem State.markPosition_touch {s : State} {n k f : Nat} : Touch 0x100000000087 s (s.markPosition n k f) := by
  unfold State.markPosition
  split
  · exact .ite
      (Touch.of State.flag_touch |>.then State.fireMk_touch)
      (Touch.of State.mkPosition_touch
         |>.then State.setReg_touch
         |>.then State.setReg_touch
         |>.then State.fireMk_touch)
  · exact Touch.of State.flag_touch |>.then State.fireMk_touch

theorem State.markCapture_touch {s : State} {n k : Nat} {rise : Bool} {f0 : Nat} :
    Touch 0x100000100087 s (s.markCapture n k rise f0) :=
  .ite
    .refl
    (.ite
       (.of State.setMk_touch)
       (.ite
          (Touch.of State.setMk_touch |>.then State.flag_touch)
          (Touch.ite
             .refl
             (.of State.flag_touch)
             |>.then State.setMk_touch
             |>.then State.setReg_touch
             |>.then State.setReg_touch
             |>.then State.setReg_touch
             |>.then State.markPosition_touch)))

theorem State.markEdge_touch {s : State} {n k : Nat} {rise : Bool} {f : Nat} :
    Touch 0x100000100087 s (s.markEdge n k rise f) :=
  .ite
    .refl
    (.ite
       (Touch.of State.setMk_touch |>.then State.markCapture_touch)
       (by
          split
          · exact .ite .refl (.of State.setMk_touch)
          · exact .of State.setMk_touch))

theorem execMarkCapture_ends {n : Fin 16} {k : Fin 4} {rise : Bool} {ago : Word} {s : State} :
    Ends 0x100000100087 s (execMarkCapture n k rise ago s) := .next (.ite (.of State.markEdge_touch) .refl)

theorem State.mkConsume_touch {s : State} {n k : Nat} : Touch 0x100000 s (s.mkConsume n k) := .of State.setMk_touch

theorem State.mkChanged_touch {s : State} {n k : Nat} {cfg track : Word} :
    Touch 0x100002 s (s.mkChanged n k cfg track) :=
  Touch.ite
    (Touch.of State.setMk_touch |>.then State.setRf_touch)
    .refl
    |>.trans (.ite (.of State.setMk_touch) .refl)

end Sys2Proof.Machine
end

section
/-!
What the operations of the loop engines may touch.
-/
namespace Sys2Proof.Machine
open Sys2Proof
set_option Elab.async false

theorem State.camRelease_touch {s : State} {n m : Nat} : Touch 0x100104000213 s (s.camRelease n m) :=
  .ite (.of State.swap_touch) .refl

theorem State.leBoundary_touch {s : State} {n m : Nat} : Touch 0x100104000213 s (s.leBoundary n m) :=
  .ite
    .refl
    (Touch.of State.camRelease_touch
       |>.trans (.ite
          .refl
          (Touch.ite
             (Touch.of State.swap_touch |>.trans (.foldl fun t x => .of State.noteFresh_touch))
             .refl
             |>.then State.enqueue_touch)))

/-- An access of an island's engine to the exchange memory. -/
theorem State.leExchange_touch {w : Nat} {s : State} {n : Nat} {f : State → BusResult × State} (hf : ∀ t, Touch w t (f t).2)
    (hw : (0x1 ||| w == w) = true := by rfl) : Touch w s (s.leExchange n f).2 :=
  .iteSnd (State.overPath_touch hf hw) .refl

theorem State.leOutput_touch {s : State} {n m c : Nat} {o : OutAct} : Touch 0x140004010037 s (s.leOutput n m c o) := by
  unfold State.leOutput
  split
  · split
    · exact .after State.flag_touch <| .ofPair ‹_› (State.leExchange_touch fun _ => .of State.xmWrite_touch)
    · exact .ofPair ‹_› (State.leExchange_touch fun _ => .of State.xmWrite_touch)
  · exact .of State.dlrWrite_touch
  · exact .of State.fireIsland_touch

theorem State.leOutputs_touch {s : State} {n m c : Nat} {acts : List OutAct} :
    Touch 0x140004810037 s (s.leOutputs n m c acts) := by
  unfold State.leOutputs
  dsimp only
  exact
    .afterAll (.ite .refl (.ite (.of State.setCtx_touch) (.foldl fun t x => .of State.leOutput_touch))) <|
    .ite
      .refl
      (.of State.setCtx_touch)

theorem State.latency_touch {s : State} {n m c : Nat} : Touch 0x2 s (s.latency n m c) := .of State.setReg_touch

theorem State.imposedStep_touch {s : State} {n m c : Nat} : Touch 0x2 s (s.imposedStep n m c) :=
  .ite .refl (.ite (.of State.setReg_touch) (.of State.setRf_touch))

theorem State.complete_touch {s : State} {n m c : Nat} {released : Bool} :
    Touch 0x100104800213 s (s.complete n m c released) :=
  Touch.of State.latency_touch
    |>.then State.setReg_touch
    |>.then State.imposedStep_touch
    |>.then State.setCtx_touch
    |>.trans (.ite
       (Touch.of State.fireIsland_touch
          |>.trans (.foldl fun t x => .ite (Touch.of State.setCtx_touch |>.then State.noteFresh_touch) .refl))
       .refl)
    |>.then State.leBoundary_touch

theorem State.chainEnd_touch {s : State} {n m c : Nat} : Touch 0x100104800213 s (s.chainEnd n m c) :=
  .ite (Touch.of State.setCtx_touch |>.then State.leBoundary_touch) (.of State.complete_touch)

theorem State.chainFault_touch {s : State} {n m c : Nat} : Touch 0x100104800217 s (s.chainFault n m c) :=
  Touch.of State.setCtx_touch |>.then State.setRb_touch |>.then State.flag_touch |>.then State.leBoundary_touch

theorem State.outputRelease_touch {s : State} {n m c : Nat} : Touch 0x140104810237 s (s.outputRelease n m c) := by
  unfold State.outputRelease
  dsimp only
  refine .ite ?_ ?_
  · exact .refl
  · split
    · exact
        .ite
          (.after State.complete_touch <| .foldl fun t x => .of State.leOutput_touch)
          (.after State.complete_touch <| .after State.flag_touch <| .of State.setCtx_touch)
    · exact
        .ite
          .refl
          (.ite
             (.after State.flag_touch <| .of State.setCtx_touch)
             (.after State.setCtx_touch <| .foldl fun t x => .of State.leOutput_touch))
    · exact .refl
    · exact .ite (.after State.flag_touch <| .of State.setCtx_touch) .refl

theorem execOutputRelease_ends {n : Fin 16} {m : Fin 6} {c : Fin 8} {s : State} :
    Ends 0x140104810237 s (execOutputRelease n m c s) := .next (.of State.outputRelease_touch)

theorem State.contextTrigger_touch {s : State} {n m c : Nat} : Touch 0x800007 s (s.contextTrigger n m c) :=
  .ite
    .refl
    (.ite
       (Touch.of State.flag_touch |>.then State.setCtx_touch)
       (.ite
          .refl
          (.ite
             (Touch.of State.setCtx_touch |>.then State.noteFresh_touch)
             (Touch.of State.flag_touch |>.then State.setCtx_touch))))

theorem execContextTrigger_ends {n : Fin 16} {m : Fin 6} {c : Fin 8} {s : State} :
    Ends 0x800007 s (execContextTrigger n m c s) := .next (.of State.contextTrigger_touch)

theorem execInputsFresh_ends {n : Fin 16} {m : Fin 6} {c : Fin 8} {s : State} :
    Ends 0x800000 s (execInputsFresh n m c s) := .next (.ite (.of State.setCtx_touch) .refl)

theorem execContextWaitTimeout_ends {n : Fin 16} {m : Fin 6} {c : Fin 8} {s : State} :
    Ends 0x800006 s (execContextWaitTimeout n m c s) :=
  .next (.ite (Touch.of State.setCtx_touch |>.then State.flag_touch) .refl)

theorem State.contextEnable_touch {s : State} {n m c : Nat} : Touch 0x800006 s (s.contextEnable n m c) := by
  unfold State.contextEnable
  dsimp only
  exact
    .ite
      .refl
      (.afterAll (.ite
          (.of State.flag_touch)
          (.after State.impose_touch <| .after State.setCtx_touch <| .of State.setRb_touch)) <|
       .of (State.setLe_touch_ctxs rfl))

theorem execContextEnable_ends {n : Fin 16} {m : Fin 6} {c : Fin 8} {s : State} :
    Ends 0x800006 s (execContextEnable n m c s) := .next (.of State.contextEnable_touch)

theorem State.leRunWrite_touch {s : State} {n m : Nat} {v : Word} : Touch 0x100104800217 s (s.leRunWrite n m v) := by
  unfold State.leRunWrite
  dsimp only
  exact
    .ite
      (.of State.flag_touch)
      (.after State.leBoundary_touch <|
       .afterAll (.foldl fun t x => .ite (.of State.setCtx_touch) .refl) <|
       .after (State.setLe_touch_ctxs rfl) <|
       .of State.setReg_touch)

theorem State.unitOrphaned_touch {s : State} {n m k : Nat} {hold copy : Bool} :
    Touch 0x100000090107 s (s.unitOrphaned n m k hold copy) := by
  unfold State.unitOrphaned
  dsimp only
  exact
    .afterAll (.ite (.of State.sysHold_touch) .refl) <|
    .after State.setTu_touch <|
    .after State.setRb_touch <|
    .foldl fun t x =>
      .ite
        (.of State.setRb_touch)
        .refl

theorem State.unitAdopted_touch {s : State} {n m k : Nat} : Touch 0x10002 s (s.unitAdopted n m k) :=
  Touch.of State.setTu_touch |>.then State.setRb_touch

theorem State.copyAbandoned_touch {s : State} {n m rep : Nat} : Touch 0x100104890317 s (s.copyAbandoned n m rep) := by
  unfold State.copyAbandoned
  dsimp only
  exact
    .after State.swap_touch <|
    .after State.report_touch <|
    .after State.flag_touch <|
    .after State.setReg_touch <|
    .afterAll (.foldl fun t x => .after State.sysHold_touch <| .of State.setTu_touch) <|
    .of (State.setLe_touch_ctxs rfl)

theorem State.leRetire_touch {s : State} {n m : Nat} {forced : Bool} :
    Touch 0x100104890317 s (s.leRetire n m forced) := by
  unfold State.leRetire
  dsimp only
  exact
    .ite
      .refl
      (.afterAll (.ite
          .refl
          (.after State.swap_touch <| .after State.flag_touch <| .of State.setReg_touch)) <|
       .after State.report_touch <|
       .afterAll (.foldl fun t x => .of State.unitOrphaned_touch) <|
       .after (State.setLe_touch_map rfl) <|
       .after State.flag_touch <|
       .afterAll (.ite .refl (.of State.setRb_touch)) <|
       .after State.setRb_touch <|
       .ite
         (.foldl fun t x => .of State.copyAbandoned_touch)
         .refl)

theorem State.copyDone_touch {s : State} {n m : Nat} : Touch 0x100104810213 s (s.copyDone n m) := by
  unfold State.copyDone
  dsimp only
  exact
    .ite
      .refl
      (.after State.leBoundary_touch <|
       .afterAll (.foldl fun t x => .ite (.of State.impose_touch) .refl) <|
       .afterAll (.foldl fun t x => .of State.unitAdopted_touch) <|
       .after State.setReg_touch <|
       .after State.setRb_touch <|
       .of (State.setLe_touch_ctxs rfl))

theorem execRetirementCopyDone_ends {n : Fin 16} {m : Fin 6} {s : State} :
    Ends 0x100104810213 s (execRetirementCopyDone n m s) := .next (.of State.copyDone_touch)

theorem State.leRestored_touch {s : State} {n m : Nat} : Touch 0x100004890117 s (s.leRestored n m) := by
  unfold State.leRestored
  dsimp only
  exact
    .afterAll (.ite
       (.afterAll (.foldl fun t x => .of State.unitOrphaned_touch) <| .of (State.setLe_touch_map rfl))
       (.afterAll (.foldl fun t x => .of State.unitAdopted_touch) <|
        .after (State.setLe_touch_ctxs rfl) <|
        .after State.setReg_touch <|
        .after State.setReg_touch <|
        .of State.clearMem_touch)) <|
    .of State.setRb_touch

theorem State.substSelftest_touch {s : State} {n : Nat} {passed : Bool} : Touch 0x7 s (s.substSelftest n passed) := by
  unfold State.substSelftest
  split
  · exact .refl
  · exact .ite
      .refl
      (Touch.of State.setRb_touch
         |>.then State.flag_touch
         |>.then State.report_touch
         |>.then State.setRb_touch)

theorem execSubstituteSelftest_ends {n : Fin 16} {passed : Bool} {s : State} :
    Ends 0x7 s (execSubstituteSelftest n passed s) := .next (.ite (.of State.substSelftest_touch) .refl)

theorem State.leSubstWrite_touch {s : State} {n : Nat} {v : Word} : Touch 0x2 s (s.leSubstWrite n v) :=
  .ite .refl (.ite .refl (.ite (.of State.setRb_touch) (.of State.setReg_touch)))

theorem State.takeItems_touch {s : State} {n m c i : Nat} : Touch 0x900000 s (s.takeItems n m c i).2 := by
  unfold State.takeItems
  dsimp only
  split
  · exact .refl
  · exact .pair <| .afterAll (.ite .refl (.of State.mkConsume_touch)) <| .of State.setCtx_touch

theorem State.operand_touch {s : State} {n m c a : Nat} : Touch 0xC900007 s (s.operand n m c a).2 := by
  unfold State.operand
  dsimp only
  split
  · exact .refl
  · split
    · exact .pair <| .ofPair ‹_› (State.leExchange_touch fun _ => .of State.xmRead_touch)
    · exact .pair <| .ofPair ‹_› (State.leExchange_touch fun _ => .of State.xmRead_touch)
  · exact .refl
  · exact .refl
  · exact .pair <| .of State.takeItems_touch
  · exact .pair <| .of State.takeItems_touch
  · exact .refl

theorem State.operands_touch {n m c : Nat} : ∀ {w a : Nat} {s : State}, Touch 0xC900007 s (s.operands n m c a w).2
  | 0, _, _ => .refl
  | _ + 1, _, _ => Touch.of State.operand_touch |>.then State.operands_touch

theorem State.commit_touch {s : State} {n m c i : Nat} {vs : List Word} : Touch 0x4100010 s (s.commit n m c i vs) :=
  .ite .refl (Touch.of State.storeWords_touch |>.then State.mkCommit_touch)

theorem State.putOut_touch {s : State} {n m c a : Nat} {vs : List Word} :
    Touch 0x140004910037 s (s.putOut n m c a vs) :=
  .ite
    .refl
    (by
       split
       · exact .of State.commit_touch
       · exact .of State.leOutputs_touch
       · exact .refl)

theorem State.gather_touch {n m c : Nat} {h : Hdr} {f : Form} : ∀ {r k : Nat} {s : State},
    Touch 0xC900007 s (s.gather n m c h f k r).2
  | 0, _, _ => .refl
  | _ + 1, _, _ => Touch.of State.operands_touch |>.then State.operands_touch |>.then State.gather_touch

theorem State.nonfinite_touch {s : State} {n m c : Nat} {b : Bool} : Touch 0x6 s (s.nonfinite n m c b) :=
  .ite (.of State.flag_touch) .refl

theorem State.ctxBegin_touch {s : State} {n m c : Nat} : Touch 0x800000 s (s.ctxBegin n m c) :=
  .ite (.of State.setCtx_touch) .refl

theorem State.stageDone_touch {s : State} {n m c i : Nat} : Touch 0x100104800213 s (s.stageDone n m c i) := by
  unfold State.stageDone
  dsimp only
  split
  · exact .after State.chainEnd_touch <| .of State.setCtx_touch
  · exact .of State.setCtx_touch

theorem State.lePermanent_touch {s : State} {n m c i typ pass : Nat} :
    Touch 0x100104890317 s (s.lePermanent n m c i typ pass) := Touch.of State.setReg_touch |>.then State.leRetire_touch

theorem State.leTransient_touch {s : State} {n m c i typ pass : Nat} :
    Touch 0x100104890317 s (s.leTransient n m c i typ pass) := by
  unfold State.leTransient
  dsimp only
  exact
    .afterAll (.ite
       (.of State.lePermanent_touch)
       (.after State.setReg_touch <| .of (State.setLe_touch_ctxs rfl))) <|
    .after State.impose_touch <|
    .after State.report_touch <|
    .after State.flag_touch <|
    .after State.flag_touch <|
    .of State.setReg_touch

theorem State.stageCorrects_touch {s : State} {n m j : Nat} {h : Hdr} : Touch 0xC000007 s (s.stageCorrects n m j h) :=
  .ite .refl (.foldl fun t x => .of State.eccRead_touch)

/-- A stage command: what dispatch and residue checks do, and what the stage itself does. -/
theorem State.stageCmd_touch {w : Nat} {s : State} {typ n m c : Nat} {res : Residue} {pass : Nat}
    {run : State → Nat → Hdr → State} (hr : ∀ t i h, Touch w t (run t i h)) (hw : (0x10010C890317 ||| w == w) = true := by rfl) :
    Touch w s (s.stageCmd typ n m c res pass run) := by
  have up : ∀ {t u : State}, Touch 0x10010C890317 t u → Touch w t u := fun h => h.mono hw
  have begun : Touch w s (s.ctxBegin n m c) := up (.of State.ctxBegin_touch)
  unfold State.stageCmd
  dsimp only
  split
  · exact .refl
  · split
    · exact begun.trans (up (.of State.chainEnd_touch))
    · exact begun.trans (up (.of State.chainFault_touch))
    · split
      · exact .refl
      · split
        · exact begun.trans (up (Touch.of State.eccAccess_touch |>.then State.chainFault_touch))
        · have corrected {j : Nat} {h : Hdr} : Touch w s ((s.ctxBegin n m c).stageCorrects n m j h) :=
            begun.trans (up (.of State.stageCorrects_touch))
          split
          · exact corrected.trans (hr _ _ _)
          · exact (corrected.trans (hr _ _ _)).trans (up (.of State.leTransient_touch))
          · exact corrected.trans (up (.of State.lePermanent_touch))

theorem State.lawStage_touch {n m c : Nat} {law : LawIn → LawOut} {s : State} {i : Nat} {h : Hdr} :
    Touch 0x14010C910237 s (State.lawStage n m c law s i h) := by
  unfold State.lawStage
  dsimp only
  split
  · exact .refl
  · exact
      .after State.stageDone_touch <|
      .after State.putOut_touch <|
      .after State.commit_touch <|
      .after State.nonfinite_touch <|
      .of State.gather_touch

end Sys2Proof.Machine
end

section
/-!
What the operations of fault reports and conditions may touch.
-/
namespace Sys2Proof.Machine
open Sys2Proof
set_option Elab.async false

theorem State.faultN_touch {s : State} : Touch 0x801 s (s.faultN) := .of State.setLine_touch

theorem State.setFaultRec_touch {s : State} {x : Nat} {r : FaultRec} : Touch 0x8807 s (s.setFaultRec x r) :=
  Touch.of (.part (Keep.upd_faults _ _)) |>.trans (.ite (.of State.flag_touch) .refl) |>.then State.faultN_touch

theorem State.conditionEnded_touch {s : State} {x : Nat} : Touch 0x8807 s (s.conditionEnded x) :=
  .ite (.of State.setFaultRec_touch) .refl

theorem State.serveReport_touch {s : State} {x rep cause : Nat} {detail : Word} :
    Touch 0x100000008807 s (s.serveReport x rep cause detail) :=
  .ite
    .refl
    (Touch.ite
       (Touch.of State.setReg_touch |>.then State.flag_touch |>.then State.fireCentral_touch)
       .refl
       |>.then State.setFaultRec_touch)

theorem execFaultReport_ends {source reporter : Fin 8192} {cause : BitVec 8} {detail : Word} {s : State} :
    Ends 0x100000008807 s (execFaultReport source reporter cause detail s) :=
  .next (.ite (.of (.part (Keep.upd_faults _ _))) (.of State.serveReport_touch))

theorem State.acknowledge_touch {s : State} {x : Nat} : Touch 0x8807 s (s.acknowledge x) :=
  .ite (.of State.setFaultRec_touch) .refl

end Sys2Proof.Machine
end

section
/-!
What the operations of the timebase and the calendar may touch.
-/
namespace Sys2Proof.Machine
open Sys2Proof
set_option Elab.async false

theorem State.rateMove_touch {s : State} : Touch 0x100 s (s.rateMove) := .ite (.of State.setClk_touch) .refl

theorem State.rateEffect_touch {s : State} : Touch 0x106 s (s.rateEffect) :=
  Touch.ite .refl (.of State.flag_touch) |>.then State.setClk_touch |>.then State.rateMove_touch

theorem State.rateWrite_touch {s : State} {v : Word} : Touch 0x106 s (s.rateWrite v) :=
  Touch.of State.setReg_touch |>.trans (.ite .refl (.of State.rateEffect_touch))

theorem execRateIncrement_ends {s : State} : Ends 0x100 s (execRateIncrement s) := .next (.of State.rateMove_touch)

theorem State.discWrite_touch {s : State} {v : Word} : Touch 0x106 s (s.discWrite v) :=
  Touch.of State.setRf_touch
    |>.trans (.ite (.ite .refl (Touch.of State.setRf_touch |>.then State.setClk_touch_rfl)) (.of State.setRf_touch))
    |>.trans (.ite
       (Touch.of State.setClk_touch_rfl |>.then State.rateMove_touch)
       (.ite (.of State.rateEffect_touch) .refl))

theorem State.stepWrite_touch {s : State} {d : Nat} {v : Word} : Touch 0x106 s (s.stepWrite d v) := by
  unfold State.stepWrite
  dsimp only
  split
  · exact .after State.flag_touch <| .after State.request_touch <| .of State.setReg_touch
  · exact .after State.setClk_touch <| .after State.request_touch <| .of State.setReg_touch

theorem State.stepNow_touch {s : State} {x : BitVec 64} : Touch 0x4000000100 s (s.stepNow x) :=
  Touch.of State.setClk_touch |>.then State.changeD_touch

theorem execDeviceTimeStep_ends {s : State} : Ends 0x4000000100 s (execDeviceTimeStep s) :=
  .next (by
     split
     · exact .ite (.of State.stepNow_touch) .refl
     · exact .refl)

theorem State.syncMessage_touch {s : State} {offset : BitVec 64} {rate : Word} :
    Touch 0x106 s (s.syncMessage offset rate) :=
  Touch.ite
    (Touch.of State.setRf_touch |>.then State.setClk_touch_rfl)
    .refl
    |>.then State.setClk_touch_rfl
    |>.trans (.ite (.of State.setRf_touch) .refl)
    |>.trans (.ite (Touch.of State.setReg_touch |>.then State.stepWrite_touch) (.of State.rateWrite_touch))

theorem execAsSyncMessage_ends {offset : BitVec 64} {rate : Word} {s : State} :
    Ends 0x106 s (execAsSyncMessage offset rate s) := .next (.ite (.of State.syncMessage_touch) .refl)

theorem execServoHoldover_ends {s : State} : Ends 0x102 s (execServoHoldover s) :=
  .next (.ite (Touch.of State.setRf_touch |>.then State.setClk_touch_rfl) .refl)

theorem State.startArm_touch {s : State} {d : Nat} {at_ : Option (BitVec 64)} : Touch 0x106 s (s.startArm d at_) := by
  unfold State.startArm
  dsimp only
  split
  · exact .after State.flag_touch <| .of State.request_touch
  · exact
      .after State.setClk_touch <|
      .afterAll (.ite (.of State.flag_touch) .refl) <|
      .after State.setReg_touch <|
      .of State.request_touch

theorem State.startAtWrite_touch {s : State} {d : Nat} {v : Word} : Touch 0x106 s (s.startAtWrite d v) :=
  Touch.of State.setReg_touch |>.then State.startArm_touch

theorem State.startCancel_touch {s : State} {d : Nat} : Touch 0x106 s (s.startCancel d) := by
  unfold State.startCancel
  dsimp only
  split
  · exact .of State.request_touch
  · exact
      .afterAll (.ite (.after State.setRb_touch <| .of State.setClk_touch) (.of State.flag_touch)) <|
      .of State.request_touch

theorem State.startNow_touch {s : State} {r : StartReq} : Touch 0x100104090317 s (s.startNow r) :=
  Touch.of State.setClk_touch
    |>.trans (.foldl fun t x => .foldl fun t x => .of State.tuStart_touch)
    |>.then State.setReg_touch
    |>.trans (.ite .refl (.of State.flag_touch))
    |>.then State.fireCentral_touch

theorem execGlobalStart_ends {s : State} : Ends 0x100104090317 s (execGlobalStart s) :=
  .next (by
     split
     · exact .ite (.of State.startNow_touch) .refl
     · exact .refl)

theorem State.islandSync_touch {s : State} {n : Nat} : Touch 0x4000008B07 s (s.islandSync n) := by
  unfold State.islandSync
  dsimp only
  exact
    .after State.conditionEnded_touch <|
    .after State.setRb_touch <|
    .afterAll (.ite (.of (.upd_ep (List.Subset.refl _))) .refl) <|
    .after State.changeD_touch <|
    .after State.setClk_touch <|
    .after State.setRf_touch <|
    .of State.setRb_touch

theorem execIslandSync_ends {n : Fin 16} {s : State} : Ends 0x4000008B07 s (execIslandSync n s) :=
  .next (.ite (.of State.islandSync_touch) .refl)

theorem State.unsync_touch {s : State} {n : Nat} : Touch 0x202 s (s.unsync n) :=
  Touch.of State.setRb_touch |>.then State.setRb_touch |>.then (.upd_ep (List.Subset.refl _))

theorem State.syncLost_touch {s : State} {n : Nat} : Touch 0x100000000207 s (s.syncLost n) :=
  Touch.of State.unsync_touch |>.then State.flag_touch |>.then State.fireCentral_touch |>.then State.report_touch

theorem execSyncLost_ends {n : Fin 16} {s : State} : Ends 0x100000000207 s (execSyncLost n s) :=
  .next (.ite (.of State.syncLost_touch) .refl)

theorem State.calReached_touch {s : State} : Touch 0x1 s (s.calReached) := .of State.enqueue_touch

theorem State.oscEdge_touch {s : State} : Touch 0x8000000101 s (s.oscEdge) := by
  unfold State.oscEdge
  dsimp only
  split
  · exact
      .afterAll (.ite (.of State.enqueue_touch) .refl) <|
      .after State.setClk_touch <|
      .ite
        (.of State.enqueue_touch)
        (.after State.calReached_touch <| .of .upd_clk_cal)
  · exact .ite (.of State.enqueue_touch) (.after State.calReached_touch <| .of .upd_clk_cal)

theorem State.calSecond_touch {s : State} : Touch 0x108000000103 s (s.calSecond) :=
  Touch.of .upd_clk_cal
    |>.trans (.ite (Touch.of State.setReg_touch |>.then State.setReg_touch |>.then State.setReg_touch) .refl)
    |>.trans (.ite .refl (.of State.fireCentral_touch))
    |>.then State.calReached_touch

theorem execCalendarSecond_ends {s : State} : Ends 0x108000000103 s (execCalendarSecond s) :=
  .next (.ite (.of State.calSecond_touch) .refl)

theorem execLeapOffsetChange_ends {s : State} : Ends 0x2 s (execLeapOffsetChange s) :=
  .next (.ite (Touch.of State.setRf_touch |>.then State.setReg_touch) .refl)

theorem State.calSetWrite_touch {s : State} {v : Word} : Touch 0x102 s (s.calSetWrite v) :=
  Touch.of State.setReg_touch |>.then State.setClk_touch

theorem State.alarmOverdue_touch {s : State} {a : Fin 4} : Touch 0x6 s (s.alarmOverdue a) :=
  .ite (Touch.of State.setReg_touch |>.then State.flag_touch) .refl

theorem State.calLoad_touch {s : State} : Touch 0x8000000107 s (s.calLoad) :=
  Touch.of .upd_clk_cal
    |>.then State.setRb_touch
    |>.trans (.foldl fun t x => .of State.alarmOverdue_touch)
    |>.then State.calReached_touch

theorem execCalendarLoad_ends {s : State} : Ends 0x8000000107 s (execCalendarLoad s) :=
  .next (.ite (.of State.calLoad_touch) .refl)

theorem State.calLost_touch {s : State} : Touch 0x8000000102 s (s.calLost) :=
  Touch.of .upd_clk_cal |>.then State.setRb_touch

theorem State.vbakRise_touch {s : State} : Touch 0x800400010E s s.vbakRise :=
  Touch.of State.resetRegs_touch |>.then State.calLost_touch |>.then (.part (Keep.set_scCount _ _ _))
    |>.then (.part (Keep.clear_ecc _ _))

theorem execVbakRise_ends {s : State} : Ends 0x800400010E s (execVbakRise s) := .next (.of State.vbakRise_touch)

theorem execOscStop_ends {s : State} : Ends 0x8000000106 s (execOscStop s) :=
  .next (Touch.of State.calLost_touch |>.then State.flag_touch)

theorem State.alarmArm_touch {s : State} {a : Fin 4} {v : Word} : Touch 0x106 s (s.alarmArm a v) :=
  Touch.of State.setClk_touch_rfl
    |>.then State.setReg_touch
    |>.trans (.ite
       .refl
       (.ite
          (.of State.setRb_touch)
          (.ite
             (Touch.of State.setRb_touch |>.then State.flag_touch |>.then State.setClk_touch_rfl)
             (.of State.flag_touch))))

theorem State.alarmFire_touch {s : State} {a : Fin 4} : Touch 0x100000000107 s (s.alarmFire a) :=
  Touch.of State.setClk_touch
    |>.then State.flag_touch
    |>.trans (.ite (.of State.fireCentral_touch) .refl)
    |>.trans (.ite (.of State.enqueue_touch) .refl)
    |>.trans (.ite
       (.of State.setRb_touch)
       (Touch.of State.setReg_touch |>.trans (.ite .refl (.of State.flag_touch))))

theorem execAlarmFire_ends {a : Fin 4} {s : State} : Ends 0x100000000107 s (execAlarmFire a s) :=
  .next (.ite (.of State.alarmFire_touch) .refl)

end Sys2Proof.Machine
end

section
/-!
What the operations of the requests of the epochs may touch.
-/
namespace Sys2Proof.Machine
open Sys2Proof
set_option Elab.async false

theorem State.hoistSwapped_touch {s o : State} {h : Nat} : Touch 0x803 s (s.hoistSwapped o h) :=
  Touch.ite
    (Touch.of State.setRb_touch |>.trans (.ite .refl (.of State.setHoistOut_touch)))
    .refl
    |>.trans (.ite (.of State.setHoistCount_touch) .refl)

theorem State.fabAddrChanged_touch {s o : State} {a : Nat} : Touch 0x80807 s (s.fabAddrChanged o a) := by
  unfold State.fabAddrChanged
  split
  · exact Touch.of State.heldSelection_touch |>.then State.fabricChanged_touch
  · exact Touch.ite (.of State.hoistSwapped_touch) .refl |>.then State.fabricChanged_touch
  · exact Touch.of State.setCheck_touch |>.then State.lowerPennants_touch |>.then State.refreshPennants_touch

theorem State.blkChanged_touch {s : State} {b : Blk} {o : State} {l : List Nat} :
    Touch 0x1000005D0907 s (s.blkChanged b o l) := by
  unfold State.blkChanged
  split
  · exact .after State.tuSwapped_touch <| .after State.chansChanged_touch <| .of State.tuChanged_touch
  · exact .of State.sdRestart_touch
  · exact .of State.cpChanged_touch
  · exact .of State.eqChanged_touch
  · exact .of State.mkChanged_touch
  · exact .foldl fun t x => .of State.fabAddrChanged_touch
  · exact .foldl fun t x => .of State.fabAddrChanged_touch
  · exact .refl

theorem State.swapNow_touch {s : State} {b : Blk} : Touch 0x1001045D0B17 s (s.swapNow b) := by
  unfold State.swapNow
  dsimp only
  split
  · exact .after State.tuCfgWas_touch <| .after State.blkChanged_touch <| .of State.swapBlk_touch
  · exact .after State.blkChanged_touch <| .of State.swapBlk_touch

theorem State.applyBlk_touch {s : State} {b : Blk} : Touch 0x1001045D0B17 s (s.applyBlk b) :=
  .ite
    .refl
    (by
       split
       · exact .ite .refl (.ite (.of State.swapNow_touch) .refl)
       · exact .ite (.of State.acSwap_touch) .refl
       · exact .ite (.foldl fun t x => .ite (.of State.resultFlag_touch) .refl) (.of State.leBoundary_touch)
       · exact .of State.swapNow_touch)

theorem State.markDue_touch {s : State} {p : Entry → Bool} : Touch 0x1001045D0B17 s (s.markDue p) := by
  refine Touch.of (State.setEntries_touch fun sound e he => ?_)
    |>.trans (.foldl fun t x => .of State.applyBlk_touch) |>.then State.finishEpochs_touch
  obtain ⟨x, hx, rfl⟩ := List.mem_map.mp he
  split <;> exact sound.staged x hx

theorem State.epOpen_touch {s : State} {d : Nat} : Touch 0x206 s (s.epOpen d).2 := by
  unfold State.epOpen
  dsimp only
  refine .iteSnd ?_ ?_
  · exact .pair <| .of State.flag_touch
  · split
    · exact .pair <| .of State.flag_touch
    · exact
        .pair <| .after (.upd_ep (List.Subset.refl _)) <|
        .after State.setReg_touch <|
        .after State.setReg_touch <|
        .of State.setReg_touch

theorem State.setSlotState_touch {s : State} {i v : Nat} : Touch 0x2 s (s.setSlotState i v) := .of State.setRf_touch

theorem State.byId_touch {w : Nat} {s : State} {d : Nat} {v : Word} {act : State → Nat → State}
    (h : ∀ t i, Touch w t (act t i)) : Touch w s (s.byId d v act).2 := by
  unfold State.byId
  split
  · exact .refl
  · exact .iteSnd (h _ _) .refl

theorem State.epStage_touch {s : State} {i : Nat} : Touch 0x2 s (s.epStage i) :=
  .ite (.of State.setSlotState_touch) .refl

theorem State.haulRequest_touch {s : State} {d i : Nat} {n : Option (BitVec 64)} :
    Touch 0x306 s (s.haulRequest d i n) := by
  unfold State.haulRequest
  dsimp only
  split
  · exact .after State.flag_touch <| .of State.request_touch
  · exact
      .afterAll (.ite
         (.after State.resultFlag_touch <| .of State.flag_touch)
         (.after State.setSlotState_touch <|
          .after (.upd_ep (List.Subset.refl _)) <|
          .ite
            (.after State.resultFlag_touch <| .of State.flag_touch)
            .refl)) <|
      .of State.request_touch
  · exact .of State.request_touch
  · exact .after State.flag_touch <| .of State.request_touch

theorem State.slotAtHi_touch {s : State} {d i : Nat} {v : Word} : Touch 0x306 s (s.slotAtHi d i v).2 :=
  .iteSnd .refl (Touch.of State.setReg_touch |>.then State.haulRequest_touch)

theorem State.slotAtLo_touch {s : State} {d i : Nat} {v : Word} : Touch 0x2 s (s.slotAtLo d i v).2 :=
  .iteSnd .refl (.of State.setReg_touch)

theorem State.dropEntries_touch {s : State} {i : Nat} : Touch 0x200 s (s.dropEntries i) :=
  .of State.setEntries_touch_filter

theorem State.epAbandon_touch {s : State} {d i : Nat} : Touch 0x106 s (s.epAbandon d i) := by
  unfold State.epAbandon
  dsimp only
  split
  · exact .after State.setSlotState_touch <| .of State.request_touch
  · exact .after State.setSlotState_touch <| .of State.request_touch
  · exact .afterAll (.ite (.of State.setSlotState_touch) (.of State.flag_touch)) <| .of State.request_touch
  · exact .after State.flag_touch <| .of State.request_touch
  · exact .of State.request_touch

theorem State.abandonDone_touch {s : State} {i : Nat} : Touch 0x202 s (s.abandonDone i) :=
  .ite (Touch.of State.dropEntries_touch |>.then State.setReg_touch |>.then State.resultFlag_touch) .refl

theorem execAbandonComplete_ends {slot : Fin 4} {s : State} : Ends 0x202 s (execAbandonComplete slot s) :=
  .next (.of State.abandonDone_touch)

theorem State.noteUnsync_touch {s : State} : Touch 0x200 s (s.noteUnsync) := .of (.upd_ep (List.Subset.refl _))

theorem State.haulDown_touch {s : State} {i : Nat} : Touch 0x1001045D0B17 s (s.haulDown i) :=
  .ite (Touch.of State.setSlotState_touch |>.then State.markDue_touch |>.then State.noteUnsync_touch) .refl

theorem execHaulDown_ends {slot : Fin 4} {s : State} : Ends 0x1001045D0B17 s (execHaulDown slot s) :=
  .next (.of State.haulDown_touch)

theorem State.unsyncApply_touch {s : State} {n : Nat} : Touch 0x1001045D0B17 s (s.unsyncApply n) := by
  unfold State.unsyncApply
  dsimp only
  exact
    .ite
      (.after State.markDue_touch <|
       .afterAll (.ite .refl (.of State.flag_touch)) <|
       .afterAll (.foldl fun t x => .after State.resultFlag_touch <| .of State.resultFlag_touch) <|
       .of (.upd_ep (List.Subset.refl _)))
      .refl

theorem execUnsyncApply_ends {n : Fin 16} {s : State} : Ends 0x1001045D0B17 s (execUnsyncApply n s) :=
  .next (.of State.unsyncApply_touch)

theorem State.entriesLost_touch {s : State} {n : Nat} : Touch 0x100100000203 s (s.entriesLost n) :=
  Touch.of State.setEntries_touch_filter
    |>.trans (.foldl fun t x =>
       .ite
         .refl
         (Touch.of State.resultFlag_touch |>.trans (.ite .refl (.of State.setReg_touch))))
    |>.then State.finishEpochs_touch

theorem State.stagingError_touch {s : State} {a flag : Nat} : Touch 0x6 s (s.stagingError a flag) :=
  Touch.of State.flag_touch |>.then State.setReg_touch

theorem State.stagingWrite_touch {s : State} {d a t : Nat} {v : Word} : Touch 0x206 s (s.stagingWrite d a t v) := by
  unfold State.stagingWrite
  split
  · exact .of State.stagingError_touch
  · split
    · exact .of State.stagingError_touch
    · next h =>
      have bound : isEB t = true := by simpa using h
      split
      · exact .ite (.of (State.stage_touch bound))
          (Touch.of State.flag_touch |>.then State.setReg_touch |>.then State.setReg_touch)
      · exact .of (State.stage_touch bound)

theorem State.ebDirect_touch {s : State} {b : Blk} {a : Nat} : Touch 0x6 s (s.ebDirect b a) := by
  unfold State.ebDirect
  split
  · exact .of State.flag_touch
  · exact .of State.flag_touch
  · exact .of State.flag_touch
  · exact .of State.flag_touch
  · exact .of State.flag_touch
  · exact .of State.flag_touch
  · exact .of State.flag_touch
  · exact by split <;> exact .of State.flag_touch
  · exact by split <;> exact .of State.flag_touch
  · exact .refl

theorem State.ebWrite_touch {s : State} {a : Nat} {v : Word} : Touch 0x1000045D0917 s (s.ebWrite a v) := by
  unfold State.ebWrite
  split
  · exact .refl
  · exact .ite (.of State.ebDirect_touch) (Touch.of State.setActive_touch |>.then State.blkChanged_touch)

theorem State.thawUnits_touch {s o : State} : Touch 0x1001045D0B17 s (s.thawUnits o) :=
  .foldl fun t x => .ite (.of State.applyBlk_touch) .refl

end Sys2Proof.Machine
end

section
/-!
What the operations of the cores and their schedulers may touch.
-/
namespace Sys2Proof.Machine
open Sys2Proof
set_option Elab.async false

theorem State.setCoreRec_touch {s : State} {n : Nat} {r : CoreRec} : Touch 0x2000000 s (s.setCoreRec n r) :=
  .of (.part (Keep.set_cores _ _ _))

theorem State.setSlotCtx_touch {s : State} {n i : Nat} {c : CoreCtx} : Touch 0x2000000 s (s.setSlotCtx n i c) :=
  .of State.setCoreRec_touch

theorem State.setCore_touch {s : State} {n : Nat} {c : CoreCtx} : Touch 0x2000000 s (s.setCore n c) :=
  .of State.setSlotCtx_touch

theorem State.setCoreRun_touch {s : State} {n v : Nat} : Touch 0x2 s (s.setCoreRun n v) := .of State.setRf_touch

theorem State.setSlotSt_touch {s : State} {n i v : Nat} : Touch 0x2 s (s.setSlotSt n i v) := .of State.setRf_touch

theorem State.slotEvent_touch {s : State} {n i : Nat} : Touch 0x6 s (s.slotEvent n i) :=
  .ite .refl (.ite (Touch.of State.setRb_touch |>.then State.flag_touch) (.of State.setRb_touch))

theorem State.clearPend_touch {s : State} {n i : Nat} : Touch 0x2 s (s.clearPend n i) :=
  Touch.of State.setRb_touch |>.then State.setRb_touch

theorem State.engineStart_touch {s : State} {n : Nat} : Touch 0x2000000 s (s.engineStart n) := by
  unfold State.engineStart
  dsimp only
  refine .ite ?_ ?_
  · exact .refl
  · refine .ite ?_ ?_
    · split
      · exact .of State.setCoreRec_touch
      · exact .refl
    · split
      · exact .of State.setCoreRec_touch
      · exact .refl

theorem State.dispatch_touch {s : State} {n i : Nat} : Touch 0x2000003 s (s.dispatch n i) :=
  Touch.ite
    (Touch.of State.clearPend_touch |>.then State.setRf_touch)
    .refl
    |>.then State.setSlotSt_touch
    |>.then State.setRf_touch
    |>.then State.setCoreRun_touch
    |>.trans (.ite .refl (.of State.enqueue_touch))
    |>.then State.setCoreRec_touch

theorem State.unpair_touch {s : State} {n : Nat} : Touch 0x2000000 s (s.unpair n) := by
  unfold State.unpair
  split
  · exact .refl
  · exact Touch.of State.setCore_touch |>.then State.setCoreRec_touch

theorem State.parkCore_touch {s : State} {n : Nat} : Touch 0x2000000 s (s.parkCore n) :=
  Touch.of State.unpair_touch |>.then State.setCore_touch

theorem State.runNext_touch {s : State} {n : Nat} : Touch 0x2000003 s (s.runNext n) := by
  unfold State.runNext
  dsimp only
  split
  · exact
      .ite
        (.after State.engineStart_touch <| .of State.dispatch_touch)
        (.after State.engineStart_touch <| .of State.setCoreRun_touch)
  · exact .after State.engineStart_touch <| .of State.setCoreRun_touch

theorem State.retireSlot_touch {s : State} {n : Nat} : Touch 0x2000003 s (s.retireSlot n) :=
  .ite
    (Touch.of State.parkCore_touch
       |>.then State.setSlotSt_touch
       |>.then State.clearPend_touch
       |>.then State.runNext_touch)
    .refl

theorem State.schedule_touch {s : State} {n : Nat} : Touch 0x2000003 s (s.schedule n) :=
  .ite
    (.of State.runNext_touch)
    (.ite
       (.ite
          (.of State.retireSlot_touch)
          (Touch.of State.engineStart_touch
             |>.trans (by
                split
                · exact .ite (.of State.enqueue_touch) .refl
                · exact .refl)))
       .refl)

theorem State.taskPreempt_touch {s : State} {n : Nat} : Touch 0x2000003 s (s.taskPreempt n) :=
  .ite
    .refl
    (by
       split
       · exact .ite
           (Touch.of State.parkCore_touch
              |>.then State.setSlotSt_touch
              |>.then State.dispatch_touch
              |>.then State.engineStart_touch)
           .refl
       · exact .refl)

theorem execTaskPreempt_ends {n : Fin 8} {s : State} : Ends 0x2000003 s (execTaskPreempt n s) :=
  .next (.of State.taskPreempt_touch)

theorem execSchedulerEvent_ends {n : Fin 8} {slot : Fin 256} {s : State} :
    Ends 0x2000007 s (execSchedulerEvent n slot s) :=
  .next (.ite .refl (Touch.of State.slotEvent_touch |>.then State.schedule_touch))

theorem State.spillDone_touch {s : State} {n : Nat} : Touch 0x6000093 s (s.spillDone n) := by
  unfold State.spillDone
  split
  · exact Touch.of State.setCoreRec_touch
      |>.trans (.foldl fun t x => Touch.of State.free_touch |>.then State.setMword_touch)
      |>.then State.engineStart_touch
      |>.then State.schedule_touch
  · exact .refl

theorem execBankSpillDone_ends {n : Fin 8} {s : State} : Ends 0x6000093 s (execBankSpillDone n s) :=
  .next (.of State.spillDone_touch)

theorem State.fillDone_touch {s : State} {n : Nat} {bad : Bool} : Touch 0xE000007 s (s.fillDone n bad) := by
  unfold State.fillDone
  split
  · exact Touch.of State.eccWalk_touch
      |>.trans (.ite
         (Touch.of State.setCoreRec_touch
            |>.then State.setRb_touch
            |>.then State.setSlotSt_touch
            |>.then State.clearPend_touch
            |>.then State.flag_touch
            |>.then State.report_touch
            |>.then State.schedule_touch)
         (Touch.of State.setCoreRec_touch |>.then State.schedule_touch))
  · exact .refl

theorem execBankFillDone_ends {n : Fin 8} {bad : Bool} {s : State} : Ends 0xE000007 s (execBankFillDone n bad s) :=
  .next (.of State.fillDone_touch)

theorem State.slotInit_touch {s : State} {n i : Nat} : Touch 0x2000000 s (s.slotInit n i) := .of State.setSlotCtx_touch

theorem State.slotCtrlWrite_touch {s : State} {n i : Nat} {v : Word} : Touch 0x2000007 s (s.slotCtrlWrite n i v) :=
  Touch.ite
    (.ite (.of State.flag_touch) (.of State.slotInit_touch))
    .refl
    |>.trans (.ite (.of State.flag_touch) .refl)
    |>.then State.setReg_touch
    |>.trans (.ite
       (.ite .refl (Touch.of State.setSlotSt_touch |>.then State.clearPend_touch))
       (.ite (.ite .refl (Touch.of State.setSlotSt_touch |>.then State.clearPend_touch)) .refl))
    |>.trans (.ite (.of State.slotEvent_touch) .refl)
    |>.then State.schedule_touch

theorem State.spillWrite_touch {s : State} {n : Nat} {v : Word} : Touch 0x6 s (s.spillWrite n v) :=
  .ite (.of State.flag_touch) (.of State.setReg_touch)

theorem State.schCtrlWrite_touch {s : State} {n : Nat} {v : Word} : Touch 0x2000003 s (s.schCtrlWrite n v) :=
  Touch.of State.setReg_touch |>.then State.schedule_touch

theorem State.schReset_touch {s : State} {n : Nat} : Touch 0x200000E s (s.schReset n) :=
  Touch.of State.resetRegs_touch |>.then State.setReg_touch |>.then State.setCoreRec_touch

theorem State.coreStart_touch {s : State} {n : Nat} : Touch 0x2000003 s (s.coreStart n) :=
  Touch.of State.slotInit_touch
    |>.then State.setSlotCtx_touch
    |>.then State.setCoreRec_touch
    |>.trans (.ite
       (Touch.of State.setSlotSt_touch |>.then State.dispatch_touch)
       (Touch.of State.setRf_touch |>.then State.setCoreRun_touch))

theorem State.unfreezeUnits_touch {s : State} {who : Nat} : Touch 0x10002 s (s.unfreezeUnits who) :=
  .foldl fun t x => .ite (.of State.tuUnfreeze_touch) .refl

theorem State.coreStop_touch {s : State} {n : Nat} : Touch 0x2010002 s (s.coreStop n) :=
  Touch.of State.unpair_touch
    |>.trans (.ite (.of State.setSlotSt_touch) .refl)
    |>.then State.setCoreRec_touch
    |>.then State.setCoreRun_touch
    |>.trans (.ite (.of State.unfreezeUnits_touch) .refl)

theorem State.mirrorTcm_touch {s : State} {n : Nat} : Touch 0x4000010 s (s.mirrorTcm n) :=
  Touch.of State.clearMem_touch
    |>.trans (.foldl fun t x => .of State.setByte_touch)
    |>.trans (.foldl fun t x => .of (.part (Keep.set_ecc _ _ _)))

theorem State.ccCtrlWrite_touch {s : State} {n : Nat} {v : Word} : Touch 0x601001F s (s.ccCtrlWrite n v) :=
  Touch.ite
    (.ite
       (Touch.ite
          .refl
          (.of State.mirrorTcm_touch)
          |>.then State.setRb_touch
          |>.then State.schReset_touch
          |>.then State.schReset_touch)
       (.of State.flag_touch))
    .refl
    |>.trans (.ite
       .refl
       (Touch.of State.setRb_touch
          |>.trans (.ite (.of State.coreStart_touch) (.ite (.of State.coreStop_touch) .refl))))

theorem State.safeHalt_touch {s : State} {n cause : Nat} : Touch 0x100002090107 s (s.safeHalt n cause) :=
  Touch.of State.unpair_touch
    |>.then State.setCoreRun_touch
    |>.then State.flag_touch
    |>.then State.setReg_touch
    |>.then State.setReg_touch
    |>.then State.fireCentral_touch
    |>.trans (.ite (.of State.report_touch) (.of State.report_touch))
    |>.trans (.ite (.foldl fun t x => Touch.of State.setTu_touch |>.then State.sysHold_touch) .refl)

theorem State.schRelease_touch {s : State} {n : Nat} : Touch 0x2018807 s (s.schRelease n) := by
  unfold State.schRelease
  dsimp only
  exact
    .ite
      .refl
      (.ite
         (.of State.flag_touch)
         (.after State.conditionEnded_touch <|
          .afterAll (.foldl fun t x => .ite (.of State.setTu_touch) .refl) <|
          .after State.setRb_touch <|
          .after State.coreStop_touch <|
          .after State.slotInit_touch <|
          .foldl fun t x =>
            .ite
              (.after State.clearPend_touch <| .after State.setSlotSt_touch <| .of State.setRb_touch)
              .refl))

theorem State.lockstep_touch {s : State} {n : Nat} {again : Bool} : Touch 0x100002090107 s (s.lockstep n again) :=
  .ite
    .refl
    (.ite
       (Touch.of State.setCoreRec_touch |>.then State.flag_touch |>.then State.safeHalt_touch)
       (Touch.of State.setCoreRec_touch
          |>.then State.setRf_touch
          |>.then State.flag_touch
          |>.then State.report_touch))

theorem execLockstepDisagreement_ends {pair : Fin 4} {again : Bool} {s : State} :
    Ends 0x100002090107 s (execLockstepDisagreement pair again s) := .next (.of State.lockstep_touch)

theorem State.coreRestored_touch {s : State} {n : Nat} : Touch 0x2000000 s (s.coreRestored n) :=
  .of State.setCoreRec_touch

theorem State.freezeUnits_touch {s : State} {who : Nat} : Touch 0x10002 s (s.freezeUnits who) :=
  .foldl fun t x => .of State.tuFreeze_touch

theorem State.haltCore_touch {s : State} {n : Nat} {all : Bool} : Touch 0x2000002 s (s.haltCore n all) :=
  .ite
    .refl
    (Touch.of State.setCoreRec_touch
       |>.trans (.ite .refl (Touch.ite .refl (.of State.parkCore_touch) |>.then State.setCoreRun_touch)))

theorem State.resumeCore_touch {s : State} {n : Nat} {all : Bool} : Touch 0x2000003 s (s.resumeCore n all) :=
  Touch.of State.setCoreRec_touch
    |>.trans (.ite
       .refl
       (.ite (Touch.of State.setCoreRun_touch |>.then State.schedule_touch) (.of State.runNext_touch)))

theorem State.debugHalt_touch {s : State} {who : Nat} : Touch 0x2010002 s (s.debugHalt who) := by
  unfold State.debugHalt
  exact
    .ite
      (.ite .refl (.after State.freezeUnits_touch <| .of State.haltCore_touch))
      (.after State.freezeUnits_touch <| .foldl fun t x => .of State.haltCore_touch)

theorem State.debugResume_touch {s : State} {who : Nat} : Touch 0x2010003 s (s.debugResume who) := by
  unfold State.debugResume
  exact
    .ite
      (.after State.unfreezeUnits_touch <| .of State.resumeCore_touch)
      (.after State.unfreezeUnits_touch <| .foldl fun t x => .of State.resumeCore_touch)

theorem State.markStale_touch {s : State} {n a : Nat} : Touch 0x2000080 s (s.markStale n a) := by
  unfold State.markStale
  dsimp only
  split
  · exact .of State.setCoreRec_touch
  · exact .afterAll (.ite .refl (.of State.setCoreRec_touch)) <| .of State.freeBit_touch

theorem State.unstale_touch {s : State} {n : Nat} {p : Nat → Bool} : Touch 0x2000000 s (s.unstale n p) :=
  .of State.setCoreRec_touch

theorem State.cachesMiss_touch {s : State} {writer : Option Nat} {l : List Nat} :
    Touch 0x2000080 s (s.cachesMiss writer l) :=
  .foldl fun t x =>
    .ite
      .refl
      (.ite (.foldl fun t x => .of State.unstale_touch) (.foldl fun t x => .of State.markStale_touch))

end Sys2Proof.Machine
end

section
/-!
What the operations of the flash controller may touch.
-/
namespace Sys2Proof.Machine
open Sys2Proof
set_option Elab.async false

theorem State.setFlashMark_touch {s : State} {a : Nat} {r : FlashMark} : Touch 0x10000000 s (s.setFlashMark a r) :=
  .of (.part (Keep.set_flash _ _ _))

theorem State.setFlashOp_touch {s : State} {b : Nat} {o : Option FlashOp} : Touch 0x20000000 s (s.setFlashOp b o) :=
  .of (.part (Keep.set_flashOps _ _ _))

theorem State.flashUncorr_touch {s : State} {a : Nat} : Touch 0x7 s (s.flashUncorr a) :=
  Touch.of State.flag_touch |>.then State.setReg_touch |>.then State.setRf_touch |>.then State.report_touch

theorem State.flashCorrected_touch {s : State} {a : Nat} : Touch 0x6 s (s.flashCorrected a) :=
  Touch.of State.flag_touch |>.then State.setReg_touch |>.then State.setRf_touch

theorem State.flashRead_touch {s : State} {a n : Nat} : Touch 0x87 s (s.flashRead a n).2 :=
  .iteSnd
    (by
       split
       · exact .refl
       · exact .of State.flashCorrected_touch
       · exact .of State.flashUncorr_touch)
    (Touch.of State.free_touch
       |>.then State.freeBit_touch
       |>.then State.freeBit_touch
       |>.trans (.iteSnd (.of State.flashUncorr_touch) (.ite (.of State.flashCorrected_touch) .refl)))

theorem State.flashWord_touch {s : State} {a : Nat} : Touch 0x87 s (s.flashWord a).2 := .of State.flashRead_touch

theorem State.spoil_touch : ∀ {n : Nat} {s : State} {a : Nat}, Touch 0x10000000 s (s.spoil a n)
  | 0, _, _ => .refl
  | _ + 1, _, _ => Touch.of State.setFlashMark_touch |>.then State.spoil_touch

theorem State.erased_touch {s : State} {a : Nat} : Touch 0x14000010 s (s.erased a) :=
  Touch.of State.clearMem_touch |>.then (.part (Keep.clear_flash _ _))

theorem State.programmed_touch {s : State} {a : Nat} {ws : List Word} {ok : Bool} :
    Touch 0x14000010 s (s.programmed a ws ok) := Touch.of State.storeWords_touch |>.then State.setFlashMark_touch

theorem State.flashCmd_touch {s : State} {b : Nat} {v : Word} : Touch 0x30000006 s (s.flashCmd b v) := by
  unfold State.flashCmd
  dsimp only
  refine .ite ?_ ?_
  · exact .ite (.of State.flag_touch) (.of State.setRb_touch)
  · refine .ite ?_ ?_
    · split
      · exact .of State.flag_touch
      · exact
          .after State.setFlashOp_touch <|
          .after State.setReg_touch <|
          .ite
            .refl
            (.of State.setFlashMark_touch)
    · exact .refl

theorem State.flashDone_touch {s : State} {b : Nat} {ok : Bool} : Touch 0x34000016 s (s.flashDone b ok) := by
  unfold State.flashDone
  split
  · exact .refl
  · exact Touch.of State.setFlashOp_touch
      |>.then State.setRb_touch
      |>.trans (.ite (.ite (.of State.erased_touch) (.of State.spoil_touch)) (.of State.programmed_touch))
      |>.then State.flagW_touch

theorem State.flashCut_touch {s : State} {b : Nat} : Touch 0x30000002 s (s.flashCut b) := by
  unfold State.flashCut
  split
  · exact .refl
  · exact Touch.of State.setFlashOp_touch
      |>.trans (.ite (.of State.spoil_touch) (.of State.spoil_touch))
      |>.then State.setReg_touch
      |>.then State.setReg_touch

theorem State.flLockWrite_touch {s : State} {v : Word} : Touch 0x2 s (s.flLockWrite v) := .of State.setReg_touch

end Sys2Proof.Machine
end

section
/-!
What the operations of the queue manager may touch.
-/
namespace Sys2Proof.Machine
open Sys2Proof
set_option Elab.async false

theorem State.setQueue_touch {s : State} {q : Nat} {r : QueueRec} : Touch 0x80000000 s (s.setQueue q r) :=
  .of (.part (Keep.set_queues _ _ _))

theorem State.qReset_touch {s : State} {q : Nat} : Touch 0x80000000 s (s.qReset q) := .of State.setQueue_touch

theorem State.qCfgWrite_touch {s : State} {q : Nat} {v : Word} : Touch 0x80000006 s (s.qCfgWrite q v) :=
  .ite
    (.of State.flag_touch)
    (.ite
       (.of State.flag_touch)
       (Touch.of State.setQueue_touch |>.then State.setReg_touch |>.then State.setQueue_touch))

theorem State.qOwnWrite_touch {s : State} {q : Nat} {v : Word} : Touch 0x80000002 s (s.qOwnWrite q v) :=
  Touch.of State.setReg_touch |>.then State.qReset_touch

theorem State.qWatermarks_touch {s : State} {q b a : Nat} : Touch 0x100000000001 s (s.qWatermarks q b a) :=
  .ite (.of State.fireCentral_touch) .refl

theorem State.qStore_touch {s : State} {q : Nat} {ws : List Word} : Touch 0x84000010 s (s.qStore q ws) :=
  Touch.of State.storeWords_touch |>.then State.setQueue_touch

theorem State.qRemove_touch {s : State} {q : Nat} : Touch 0x80000000 s (s.qRemove q) := .of State.setQueue_touch

theorem State.qTake_touch {s : State} {q : Nat} : Touch 0x8C000007 s (s.qTake q).2.2 := by
  unfold State.qTake
  split
  · exact Touch.of State.eccAccess_touch |>.then State.qRemove_touch
  · exact Touch.of State.eccWalk_touch |>.then State.qRemove_touch

theorem State.qServe_touch {s : State} {q : Nat} {push : Option (List Word)} {pop : Bool} :
    Touch 0x10008C000017 s (s.qServe q push pop).2 := by
  unfold State.qServe
  dsimp only
  refine .after State.qWatermarks_touch ?_
  split
  · exact .pair <| .iteSnd2 .refl (.iteSnd2 .refl (.of State.qTake_touch))
  · exact
      .afterAll (.iteSnd2
         (.pair <| .of State.setQueue_touch)
         (.iteSnd2
            (.pair <| .after State.qStore_touch <| .after State.setQueue_touch <| .of State.qRemove_touch)
            (.pair <| .of State.qStore_touch))) <|
      .iteSnd2
        .refl
        (.iteSnd2 .refl (.of State.qTake_touch))

theorem State.qFault_touch {s : State} {code d q flag : Nat} : Touch 0x6 s (s.qFault code d q flag) :=
  Touch.of State.setReg_touch |>.then State.flag_touch

theorem State.qPush_touch {s : State} {d : Nat} {h : Word} {ws : List Word} :
    Touch 0x10008C000017 s (s.qPush d h ws).2.2 := by
  unfold State.qPush
  dsimp only
  split
  · exact .pair <| .of State.qFault_touch
  · exact .pair <| .of State.qServe_touch

theorem State.qPop_touch {s : State} {d : Nat} {h : Word} : Touch 0x10008C000017 s (s.qPop d h).2.2 := by
  unfold State.qPop
  dsimp only
  split
  · exact .pair <| .of State.qFault_touch
  · exact .pair <| .afterAll (.ite (.of State.qFault_touch) .refl) <| .of State.qServe_touch

theorem State.setPortBuffer_touch {s : State} {d p : Nat} {ws : List Word} : Touch 0x2 s (s.setPortBuffer d p ws) :=
  .foldl fun t x => .of State.setReg_touch

theorem State.portPush_touch {s : State} {d p : Nat} : Touch 0x10008C000017 s (s.portPush d p).2 :=
  .of State.qPush_touch

theorem State.portPop_touch {s : State} {d p : Nat} : Touch 0x10008C000017 s (s.portPop d p).2 := by
  unfold State.portPop
  dsimp only
  split
  · exact .after State.setPortBuffer_touch <| .of State.qPop_touch
  · exact .of State.qPop_touch

theorem State.pnPush_touch {s : State} {p : Nat} {h : Word} {ws : List Word} :
    Touch 0x10008C000017 s (s.pnPush p h ws).2.2 := by
  unfold State.pnPush
  dsimp only
  exact
    .iteSnd2
      (.pair <| .of State.qFault_touch)
      (.of State.qPush_touch)

theorem State.pushRecord_touch {s : State} {seg : Nat} : Touch 0x10008C000817 s (s.pushRecord seg) := by
  unfold State.pushRecord
  split
  · exact .refl
  · exact Touch.of State.setRecords_touch
      |>.then State.pnPush_touch
      |>.trans (.ite
         (.of State.setPnRec_touch)
         (Touch.of State.recordLost_touch |>.trans (.ite (.of State.pnFault_touch) .refl)))

theorem execEventRecordPush_ends {seg : Fin 17} {s : State} : Ends 0x10008C000817 s (execEventRecordPush seg s) :=
  .next (.of State.pushRecord_touch)

theorem State.queuesLost_touch {s : State} : Touch 0x80000006 s (s.queuesLost) := by
  unfold State.queuesLost
  dsimp only
  exact
    .afterAll (.ite .refl (.of State.flag_touch)) <|
    .foldl fun t x =>
      .of State.qReset_touch

end Sys2Proof.Machine
end

section
/-!
What the operations of the serial controllers may touch.
-/
namespace Sys2Proof.Machine
open Sys2Proof
set_option Elab.async false

theorem State.setSerial_touch {s : State} {i : Nat} {r : SerialRec} : Touch 0x800000000 s (s.setSerial i r) :=
  .of (.part (Keep.set_serial _ _ _))

theorem State.fireSerial_touch {s : State} {line : Nat} : Touch 0x100000000001 s (s.fireSerial line) :=
  .of State.fireCentral_touch

theorem State.serialPop_touch {s : State} {i : Nat} : Touch 0x800000000 s (s.serialPop i).2 :=
  .of State.setSerial_touch

theorem State.canErr_touch {s : State} {k re tec : Nat} {flags : Word} : Touch 0x6 s (s.canErr k re tec flags) :=
  Touch.of State.setReg_touch |>.then State.flagW_touch

theorem State.canDeliver_touch {s : State} {k : Nat} {w : Word} {cells : List (List Word)} :
    Touch 0x10008C000017 s (s.canDeliver k w cells) := by
  unfold State.canDeliver
  dsimp only
  exact
    .ite
      (.after State.fireSerial_touch <|
       .afterAll (.ite .refl (.of State.flag_touch)) <|
       .foldlPair fun t x =>
         .iteSnd
           (.pair <| .of State.qPush_touch)
           .refl)
      .refl

theorem State.canReceive_touch {s : State} {k : Nat} {f : CanFrame} {good : Bool} {ago : Word} :
    Touch 0x10008C000017 s (s.canReceive k f good ago) :=
  .ite
    .refl
    (.ite
       (Touch.of State.canErr_touch |>.then State.fireSerial_touch)
       (Touch.of State.canErr_touch |>.then State.canDeliver_touch))

theorem execCanFrameReceive_ends {k : Fin 4} {frame : CanFrame} {good : Bool} {ago : Word} {s : State} :
    Ends 0x10008C000017 s (execCanFrameReceive k frame good ago s) := .next (.of State.canReceive_touch)

theorem State.canTake_touch {k : Nat} : ∀ {n : Nat} {s : State}, Touch 0x10008C000017 s (s.canTake k n)
  | 0, _ => .refl
  | _ + 1, _ => Touch.of State.qPop_touch |>.then State.canTake_touch

theorem State.canTransmit_touch {s : State} {k : Nat} {good : Bool} : Touch 0x10008C000017 s (s.canTransmit k good) :=
  .ite
    .refl
    (.ite
       (Touch.of State.canErr_touch |>.then State.fireSerial_touch)
       (Touch.of State.canTake_touch
          |>.then State.canErr_touch
          |>.then State.fireSerial_touch
          |>.trans (.ite (.of State.canDeliver_touch) .refl)))

theorem execCanFrameTransmit_ends {k : Fin 4} {good : Bool} {s : State} :
    Ends 0x10008C000017 s (execCanFrameTransmit k good s) := .next (.of State.canTransmit_touch)

theorem State.canCtrlWrite_touch {s : State} {k : Nat} {v : Word} : Touch 0x2 s (s.canCtrlWrite k v) :=
  Touch.of State.setReg_touch |>.trans (.ite (.of State.setReg_touch) .refl)

theorem State.uartReceive_touch {s : State} {k : Nat} {d : BitVec 9} {framing parity : Bool} :
    Touch 0x100800000007 s (s.uartReceive k d framing parity) :=
  .ite
    .refl
    (.ite
       (.of State.flagW_touch)
       (Touch.of State.setSerial_touch |>.then State.flagW_touch |>.then State.fireSerial_touch))

theorem execUartReceive_ends {k : Fin 4} {d : BitVec 9} {framing parity : Bool} {s : State} :
    Ends 0x100800000007 s (execUartReceive k d framing parity s) := .next (.of State.uartReceive_touch)

theorem State.uartWrite_touch {s : State} {k : Nat} {v : Word} : Touch 0x800000000 s (s.uartWrite k v) :=
  .ite .refl (.of State.setSerial_touch)

theorem State.uartSent_touch {s : State} {k : Nat} : Touch 0x100800000001 s (s.uartSent k) :=
  .ite .refl (Touch.of State.setSerial_touch |>.trans (.ite (.of State.fireSerial_touch) .refl))

theorem execUartCharacterSent_ends {k : Fin 4} {s : State} : Ends 0x100800000001 s (execUartCharacterSent k s) :=
  .next (.of State.uartSent_touch)

theorem State.spiStart_touch {s : State} {k : Nat} : Touch 0x800000000 s (s.spiStart k) :=
  .ite (.of State.setSerial_touch) .refl

theorem State.spiWrite_touch {s : State} {k : Nat} {v : Word} : Touch 0x800000000 s (s.spiWrite k v) :=
  .ite .refl (Touch.of State.setSerial_touch |>.trans (.ite .refl (.of State.spiStart_touch)))

theorem State.spiCtrlWrite_touch {s : State} {k : Nat} {v : Word} : Touch 0x800000002 s (s.spiCtrlWrite k v) :=
  Touch.of State.setReg_touch |>.trans (.ite .refl (.of State.spiStart_touch))

theorem execSpiPennantStart_ends {k : Fin 8} {s : State} : Ends 0x800000000 s (execSpiPennantStart k s) :=
  .next (.ite (.of State.spiStart_touch) .refl)

theorem State.spiDone_touch {s : State} {k : Nat} {rx : List Word} : Touch 0x100800000007 s (s.spiDone k rx) :=
  .ite .refl (Touch.of State.setSerial_touch |>.then State.flagW_touch |>.then State.fireSerial_touch)

theorem execSpiTransferDone_ends {k : Fin 8} {rx : Vector Word 32} {s : State} :
    Ends 0x100800000007 s (execSpiTransferDone k rx s) := .next (.of State.spiDone_touch)

theorem State.i2cCmd_touch {s : State} {k : Nat} {v : Word} : Touch 0x800000000 s (s.i2cCmd k v) :=
  .ite (.of State.setSerial_touch) .refl

theorem State.i2cWrite_touch {s : State} {k : Nat} {v : Word} : Touch 0x800000000 s (s.i2cWrite k v) :=
  .ite .refl (.of State.setSerial_touch)

theorem State.i2cDone_touch {s : State} {k outcome : Nat} {rx : List Byte} :
    Touch 0x100800000007 s (s.i2cDone k outcome rx) := by
  unfold State.i2cDone
  dsimp only
  split
  · exact .refl
  · exact .after State.fireSerial_touch <| .after State.flagW_touch <| .of State.setSerial_touch

theorem execI2cDone_ends {k outcome : Fin 4} {rx : List Byte} {s : State} :
    Ends 0x100800000007 s (execI2cDone k outcome rx s) := .next (.of State.i2cDone_touch)

end Sys2Proof.Machine
end

section
/-!
What the operations of the snapshot unit may touch.
-/
namespace Sys2Proof.Machine
open Sys2Proof
set_option Elab.async false

theorem State.setSnap_touch {s : State} {r : SnapState} : Touch 0x400 s (s.setSnap r) :=
  .of (.part (Keep.upd_snap _ _))

theorem State.snCountWrite_touch {s : State} {v : Word} : Touch 0x406 s (s.snCountWrite v) :=
  .ite
    (.of State.flag_touch)
    (.ite .refl (Touch.of State.setReg_touch |>.then State.setRb_touch |>.then State.setSnap_touch))

theorem State.snLoadWrite_touch {s : State} : Touch 0x406 s (s.snLoadWrite) :=
  .ite (.of State.flag_touch) (Touch.of State.setRb_touch |>.then State.setSnap_touch)

theorem State.snapLoaded_touch {s : State} : Touch 0x402 s (s.snapLoaded) :=
  .ite (Touch.of State.setRb_touch |>.then State.setSnap_touch) .refl

theorem execSnapshotListLoaded_ends {s : State} : Ends 0x402 s (execSnapshotListLoaded s) :=
  .next (.of State.snapLoaded_touch)

theorem State.snapArm_touch {s : State} {d : Nat} {asap : Bool} {n : Option (BitVec 64)} :
    Touch 0x506 s (s.snapArm d asap n) :=
  Touch.of State.request_touch
    |>.trans (.ite
       (.of State.flag_touch)
       (.ite
          (.of State.flag_touch)
          (Touch.ite
             (.of State.flag_touch)
             .refl
             |>.then State.setRb_touch
             |>.then State.setRb_touch
             |>.then State.setSnap_touch)))

theorem State.snAtHi_touch {s : State} {d : Nat} {v : Word} : Touch 0x506 s (s.snAtHi d v) :=
  Touch.of State.setReg_touch |>.then State.snapArm_touch

theorem State.snapCancel_touch {s : State} {d : Nat} : Touch 0x506 s (s.snapCancel d) :=
  Touch.of State.request_touch
    |>.trans (.ite .refl (.ite (Touch.of State.setRb_touch |>.then State.setSnap_touch) (.of State.flag_touch)))

end Sys2Proof.Machine
end

section
/-!
What the operations of the network engine may touch.
-/
namespace Sys2Proof.Machine
open Sys2Proof
set_option Elab.async false

theorem State.setPort_touch {s : State} {p : Nat} {r : PortRec} : Touch 0x200000000 s (s.setPort p r) :=
  .of (.part (Keep.upd_net _ _))

theorem State.fireNet_touch {s : State} {line : Nat} : Touch 0x100000000001 s (s.fireNet line) :=
  .of State.fireCentral_touch

theorem State.countUp_touch {s : State} {a : Nat} : Touch 0x2 s (s.countUp a) := .of State.setReg_touch

theorem State.netSend_touch {s : State} {p : Nat} {tag : Option Nat} {body : List Byte} :
    Touch 0x200000002 s (s.netSend p tag body) :=
  .ite (Touch.of State.countUp_touch |>.then (.part (Keep.upd_net _ _))) .refl

theorem State.netBegin_touch {s : State} : Touch 0x200000000 s (s.netBegin) := .of (.part (Keep.upd_net _ _))

theorem State.linkDown_touch {s : State} {p : Nat} : Touch 0x100200000003 s (s.linkDown p) :=
  .ite (Touch.of State.setRb_touch |>.then State.setPort_touch |>.then State.fireNet_touch) .refl

theorem execLinkDown_ends {p : Fin 4} {s : State} : Ends 0x100200000003 s (execLinkDown p s) :=
  .next (.of State.linkDown_touch)

theorem State.linkUpNow_touch {s : State} {p : Nat} : Touch 0x100200000003 s (s.linkUpNow p) :=
  .ite .refl (Touch.of State.setRb_touch |>.then State.setPort_touch |>.then State.fireNet_touch)

theorem execLinkUp_ends {p : Fin 4} {s : State} : Ends 0x100200000003 s (execLinkUp p s) :=
  .next (.of State.linkUpNow_touch)

theorem State.portCfgWrite_touch {s : State} {p : Nat} {v : Word} : Touch 0x100200000003 s (s.portCfgWrite p v) :=
  Touch.of State.setReg_touch
    |>.trans (.ite .refl (Touch.of State.linkDown_touch |>.then State.setRf_touch |>.then State.setPort_touch))

theorem State.scanStep_touch {s : State} {p : Nat} : Touch 0x100200000003 s (s.scanStep p) :=
  .ite (.of State.portCfgWrite_touch) .refl

theorem execPortScanStep_ends {p : Fin 4} {s : State} : Ends 0x100200000003 s (execPortScanStep p s) :=
  .next (.of State.scanStep_touch)

theorem State.scanStart_touch {s : State} {p : Nat} : Touch 0x100200000003 s (s.scanStart p) :=
  Touch.of State.setPort_touch |>.then State.portCfgWrite_touch

theorem State.setSession_touch {s : State} {k : Nat} {r : SessionRec} : Touch 0x200000000 s (s.setSession k r) :=
  .of (.part (Keep.upd_net _ _))

theorem State.setSesState_touch {s : State} {k v : Nat} : Touch 0x2 s (s.setSesState k v) := .of State.setRf_touch

theorem State.sesSend_touch {s : State} {k : Nat} {body : List Byte} : Touch 0x200000002 s (s.sesSend k body) :=
  .ite
    (Touch.of State.setSession_touch |>.trans (.foldl fun t x => .of State.netSend_touch))
    (.foldl fun t x => .of State.netSend_touch)

theorem State.sesReport_touch {s : State} {k : Nat} : Touch 0x1 s (s.sesReport k) := .of State.report_touch

theorem State.sesLost_touch {s : State} {k : Nat} {flags : Word} : Touch 0x100200000007 s (s.sesLost k flags) :=
  Touch.of State.setSesState_touch
    |>.then State.setSession_touch
    |>.then State.flagW_touch
    |>.trans (.ite (.of State.fireNet_touch) .refl)
    |>.then State.sesReport_touch

theorem State.sesRun_touch {s : State} {k : Nat} {rejoined : Bool} : Touch 0x200000006 s (s.sesRun k rejoined) :=
  Touch.of State.setSesState_touch |>.then State.setSession_touch |>.trans (.ite (.of State.flag_touch) .refl)

theorem State.tagPasses_touch {s t : State} {k : Nat} {tag : Option (BitVec 16)} (h : s.tagPasses k tag = some t) :
    Touch 0x200000000 s t := by
  unfold State.tagPasses at h
  split at h
  · split at h
    · obtain ⟨r, -, rfl⟩ := Option.map_eq_some_iff.mp h
      exact .of State.setSession_touch
    · cases h
      exact .refl
  · cases h
    exact .refl

theorem State.fillWindow_touch {k : Nat} : ∀ {f : Nat} {s : State}, Touch 0x200000002 s (s.fillWindow k f)
  | 0, _ => .refl
  | _ + 1, _ => by
    unfold State.fillWindow
    dsimp only
    split
    · exact .refl
    · exact .ite .refl (Touch.of State.setSession_touch |>.then State.sesSend_touch |>.then State.fillWindow_touch)

theorem State.sesPost_touch {s : State} {k dest : Nat} {bytes : List Byte} :
    Touch 0x200000002 s (s.sesPost k dest bytes) := Touch.of State.setSession_touch |>.then State.fillWindow_touch

theorem State.popCells_touch {d q : Nat} : ∀ {n : Nat} {s : State}, Touch 0x10008C000017 s (s.popCells d q n).2
  | 0, _ => .refl
  | _ + 1, _ => Touch.of State.qPop_touch |>.then State.popCells_touch

theorem State.takePacket_touch {s : State} {d q : Nat} {x : List Word × State} (h : s.takePacket d q = some x) :
    Touch 0x10008C000017 s x.2 := by
  unfold State.takePacket at h
  dsimp only at h
  split at h
  · cases h
  · cases h
    exact .of State.popCells_touch

theorem State.pumpSession_touch {s : State} {k : Nat} : Touch 0x10028C000017 s (s.pumpSession k) := by
  unfold State.pumpSession
  split
  · exact .ite
      (by
         split
         · exact Touch.of (State.takePacket_touch ‹_›) |>.then State.sesPost_touch
         · exact .of State.fillWindow_touch)
      (.of State.fillWindow_touch)
  · exact .refl

theorem State.pumpResponse_touch {s : State} : Touch 0x10028C000017 s (s.pumpResponse) := by
  unfold State.pumpResponse
  split
  · exact Touch.of (State.takePacket_touch ‹_›)
      |>.trans (by
         split
         · exact Touch.of (.part (Keep.upd_net _ _)) |>.trans (.ite (.of State.sesPost_touch) .refl)
         · exact .refl)
  · exact .refl

theorem State.freshData_touch {s : State} {k : Nat} : Touch 0x10008C00001F s (s.freshData k).2 := by
  unfold State.freshData
  dsimp only
  refine .iteSnd ?_ ?_
  · refine .iteSnd ?_ ?_
    · exact .refl
    · refine .pair ?_
      refine .foldlPair fun t x => ?_
      split
      · exact .pair <| .ofPair ‹_› (.of State.xmReadStamped_touch)
      · exact .pair <| .ofPair ‹_› (.of State.xmReadStamped_touch)
  · exact .iteSnd .refl (.pair <| .of State.popCells_touch)

theorem State.txSlot_touch {s : State} {k : Nat} : Touch 0x10028C00001F s (s.txSlot k).2 :=
  Touch.of State.freshData_touch |>.then State.setSession_touch |>.trans (.ite (.of State.flag_touch) .refl)

theorem State.sendSlots_touch {p : Nat} : ∀ {f : Nat} {s : State} {l : List (List Byte × List Byte)},
    Touch 0x200000082 s (s.sendSlots p f l)
  | 0, _, _ => .refl
  | _ + 1, _, [] => .refl
  | _ + 1, _, _ :: _ => Touch.of State.free_touch |>.then State.netSend_touch |>.then State.sendSlots_touch

theorem State.cycleStart_touch {s : State} {p : Nat} : Touch 0x10028C00009F s (s.cycleStart p) := by
  unfold State.cycleStart
  dsimp only
  refine .ite .refl (.afterAll (.ite .refl (.after State.pumpResponse_touch <|
    .afterAll (.foldl fun t x => .of State.pumpSession_touch) <| .after State.sendSlots_touch <|
    .foldlPair fun t x => ?_)) <| .of State.fireNet_touch)
  split
  · exact .pair <| .after State.sesSend_touch <| .after State.free_touch <| .of State.txSlot_touch
  · exact .pair <| .of State.txSlot_touch

theorem execCycleStart_ends {p : Fin 4} {s : State} : Ends 0x10028C00009F s (execCycleStart p s) :=
  .next (Touch.of State.netBegin_touch |>.then State.cycleStart_touch)

theorem State.cycleEnd_touch {s : State} {k : Nat} : Touch 0x100200000007 s (s.cycleEnd k) :=
  .ite
    .refl
    (.ite
       (.of State.setSession_touch)
       (Touch.of State.setRf_touch |>.trans (.ite (.of State.sesLost_touch) (.of State.flag_touch))))

theorem execCycleEndMiss_ends {ses : Fin 4096} {s : State} : Ends 0x100200000007 s (execCycleEndMiss ses s) :=
  .next (.of State.cycleEnd_touch)

/-- A telegram that reaches a port: the counts, and what the telegram itself does. -/
theorem State.telegram_touch {w : Nat} {s : State} {p typ : Nat} {body : List Byte} {act : State → State}
    (h : ∀ t, Touch w t (act t)) (hw : (0x6 ||| w == w) = true := by rfl) : Touch w s (s.telegram p typ body act) := by
  have counted : Touch w s (s.countUp (R.NX_PORTp_RX_FRAMES p)) := (State.countUp_touch.of (w := 0x6)).mono hw
  unfold State.telegram
  split
  · exact .refl
  · split
    · exact counted.trans ((State.flag_touch.of (w := 0x6)).mono hw)
    · exact counted
    · exact .ite (counted.trans (h _)) .refl

theorem State.rxFrame_touch : ∀ {f : Nat} {s : State} {w : Nat} {l : List Word}, Touch 0x40004000036 s (s.rxFrame w f l)
  | 0, _, _, _ => .refl
  | _ + 1, _, _, [] => .refl
  | _ + 1, _, _, _ :: _ => by
    unfold State.rxFrame
    split
    · exact Touch.ofPair ‹_› (.of State.xmWrite_touch) |>.then State.flag_touch |>.then State.rxFrame_touch
    · exact Touch.ofPair ‹_› (.of State.xmWrite_touch) |>.then State.rxFrame_touch

theorem State.rxSlot_touch {s : State} {p : Nat} {tag : Option (BitVec 16)} {h d : List Byte} :
    Touch 0x14028C000037 s (s.rxSlot p tag h d) :=
  .ite
    .refl
    (by
       split
       · exact .refl
       · exact .ite
           (.of State.flag_touch)
           (by
              split
              · exact .refl
              · exact Touch.of (State.tagPasses_touch ‹_›)
                  |>.trans (.ite
                     (.of State.flag_touch)
                     (Touch.of State.setSession_touch
                        |>.then State.setReg_touch
                        |>.trans (.ite (.of State.rxFrame_touch) .refl)
                        |>.then State.qPush_touch
                        |>.trans (.ite (.of State.fireNet_touch) .refl)
                        |>.trans (.ite (.of State.flag_touch) .refl)))))

theorem State.rxSlots_touch {p : Nat} {tag : Option (BitVec 16)} : ∀ {n : Nat} {s : State} {h d : List Byte},
    Touch 0x14028C000037 s (s.rxSlots p tag n h d)
  | 0, _, _, _ => .refl
  | _ + 1, _, _, _ => Touch.of State.rxSlot_touch |>.then State.rxSlots_touch

theorem State.cyclicTelegram_touch {s : State} {p : Nat} {tag : Option (BitVec 16)} {body : List Byte} :
    Touch 0x14028C000037 s (s.cyclicTelegram p tag body) :=
  State.telegram_touch fun _ => .ite (.of State.flag_touch) (.of State.rxSlots_touch)

theorem execCyclicTelegram_ends {p : Fin 4} {rtag : Option (BitVec 16)} {body : List Byte} {s : State} :
    Ends 0x14028C000037 s (execCyclicTelegram p rtag body s) :=
  .next (Touch.of State.netBegin_touch |>.then State.cyclicTelegram_touch)

theorem State.schedule10_touch {s : State} {action : Nat} {asap : Bool} {t : BitVec 64} {arg : Word} :
    Touch 0x200000106 s (s.schedule10 action asap t arg).2.2 := by
  unfold State.schedule10
  dsimp only
  exact
    .afterAll (.iteSnd2
       (.pair <| .of State.flag_touch)
       (.iteSnd2
          .refl
          (.iteSnd2
             (.pair <| .of State.flag_touch)
             (.pair <| .after (.part (Keep.upd_net _ _)) <| .ite (.of State.flag_touch) .refl)))) <|
    .of State.request_touch

theorem State.scheduledCommand_touch {s : State} {k : Nat} {d : List Byte} :
    Touch 0x200000106 s (s.scheduledCommand k d) :=
  Touch.of State.schedule10_touch |>.then State.setSession_touch |>.then State.fillWindow_touch

theorem State.schedDone_touch {s : State} {x : Scheduled} : Touch 0x200000000 s (s.schedDone x) :=
  .of (.part (Keep.upd_net _ _))

theorem State.schedFire_touch {s : State} : Touch 0x100200000007 s (s.schedFire) := by
  unfold State.schedFire
  split
  · exact Touch.of State.schedDone_touch |>.then State.fbFire_touch
  · exact .refl

theorem execScheduledFire_ends {s : State} : Ends 0x100200000007 s (execScheduledFire s) :=
  .next (.of State.schedFire_touch)

theorem State.schedHaul_touch {s : State} : Touch 0x1003045D0B17 s (s.schedHaul) := by
  unfold State.schedHaul
  dsimp only
  split
  · split
    · exact
        .afterAll (.ite
           .refl
           (.ite
              (.after State.haulDown_touch <|
               .after State.setSlotState_touch <|
               .of (.upd_ep (List.Subset.refl _)))
              (.of State.flag_touch))) <|
        .of State.schedDone_touch
    · exact .of State.schedDone_touch
  · exact .refl

theorem execScheduledHaul_ends {s : State} : Ends 0x1003045D0B17 s (execScheduledHaul s) :=
  .next (.of State.schedHaul_touch)

theorem State.sendAck_touch {s : State} {k : Nat} {wait : Bool} : Touch 0x200000002 s (s.sendAck k wait) :=
  .of State.sesSend_touch

theorem State.pushWords_touch {q : Nat} : ∀ {f : Nat} {s : State} {l : List Word}, Touch 0x10008C000017 s (s.pushWords q f l)
  | 0, _, _ => .refl
  | _ + 1, _, [] => .refl
  | _ + 1, _, _ :: _ => Touch.of State.qPush_touch |>.then State.pushWords_touch

theorem State.deliverPacket_touch {s t : State} {k dest : Nat} {bytes : List Byte}
    (h : s.deliverPacket k dest bytes = some t) : Touch 0x10028C000017 s t := by
  unfold State.deliverPacket at h
  dsimp only at h
  generalize (if dest = 0 then 2 * s.rf R.NX_CFG 25 16 else (s.session k).queues.getD 2 0) = q at h
  split at h
  · exact absurd h (Option.some_ne_none t).symm
  · split at h
    · split at h
      · exact Option.some.inj h ▸ (.after State.pushWords_touch <| .of (v := 0x200000000) (.part (Keep.upd_net _ _)))
      · exact Option.some.inj h ▸ .refl
    · exact Option.some.inj h ▸ .of State.pushWords_touch

theorem State.acceptSegment_touch {s t : State} {k : Nat} {b : List Byte} (h : s.acceptSegment k b = some t) :
    Touch 0x10028C000117 s t := by
  unfold State.acceptSegment at h
  dsimp only at h
  split at h
  · cases h
    exact .of State.scheduledCommand_touch
  · split at h
    · exact Touch.of State.setSession_touch |>.then (State.deliverPacket_touch h)
    · cases h
      exact .of State.setSession_touch

theorem State.acyclicTelegram_touch {s : State} {p : Nat} {tag : Option (BitVec 16)} {body : List Byte} :
    Touch 0x10028C000117 s (s.acyclicTelegram p tag body) :=
  State.telegram_touch fun _ =>
    by
      split
      · exact .refl
      · exact .ite
          .refl
          (by
             split
             · exact .refl
             · exact Touch.of (State.tagPasses_touch ‹_›)
                 |>.trans (.ite
                    (.of State.sendAck_touch)
                    (.ite
                       (.of State.flag_touch)
                       (by
                          split
                          · exact Touch.of (State.acceptSegment_touch ‹_›)
                              |>.then State.setSession_touch
                              |>.then State.sendAck_touch
                          · exact .of State.sendAck_touch))))

theorem execAcyclicTelegram_ends {p : Fin 4} {rtag : Option (BitVec 16)} {body : List Byte} {s : State} :
    Ends 0x10028C000117 s (execAcyclicTelegram p rtag body s) :=
  .next (Touch.of State.netBegin_touch |>.then State.acyclicTelegram_touch)

theorem State.ackTelegram_touch {s : State} {p : Nat} {tag : Option (BitVec 16)} {body : List Byte} :
    Touch 0x200000006 s (s.ackTelegram p tag body) :=
  State.telegram_touch fun _ =>
    by
      split
      · exact .refl
      · exact .ite
          .refl
          (by
             split
             · exact .refl
             · exact Touch.of (State.tagPasses_touch ‹_›)
                 |>.then State.setSession_touch
                 |>.then State.fillWindow_touch)

theorem execAckTelegram_ends {p : Fin 4} {rtag : Option (BitVec 16)} {body : List Byte} {s : State} :
    Ends 0x200000006 s (execAckTelegram p rtag body s) :=
  .next (Touch.of State.netBegin_touch |>.then State.ackTelegram_touch)

theorem State.resend_touch {s : State} {k : Nat} : Touch 0x200000002 s (s.resend k) :=
  .foldl fun t x => .of State.sesSend_touch

theorem State.ackTimeout_touch {s : State} {k : Nat} : Touch 0x100200000007 s (s.ackTimeout k) :=
  .ite .refl (.ite (.of State.sesLost_touch) (Touch.of State.setSession_touch |>.then State.resend_touch))

theorem execAckTimeout_ends {ses : Fin 4096} {s : State} : Ends 0x100200000007 s (execAckTimeout ses s) :=
  .next (Touch.of State.netBegin_touch |>.then State.ackTimeout_touch)

theorem State.discover_touch {s : State} {p : Nat} {body : List Byte} : Touch 0x200000006 s (s.discover p body) :=
  State.telegram_touch fun _ => .of State.netSend_touch

theorem execDiscoverTelegram_ends {p : Fin 4} {body : List Byte} {s : State} :
    Ends 0x200000006 s (execDiscoverTelegram p body s) :=
  .next (Touch.of State.netBegin_touch |>.then State.discover_touch)

theorem State.sesQueue_touch {s : State} {q log2 mode producer consumer : Nat} :
    Touch 0x180000006 s (s.sesQueue q log2 mode producer consumer) :=
  Touch.of .upd_mp |>.then State.qOwnWrite_touch |>.then State.qCfgWrite_touch

theorem State.openSession_touch {s : State} {cfg cycle size : Word} {x : Nat × State}
    (h : s.openSession cfg cycle size = some x) : Touch 0x380000006 s x.2 := by
  unfold State.openSession at h
  dsimp only at h
  split at h
  · split at h
    · cases h
    · cases h
      exact Touch.of State.sesQueue_touch |>.then State.sesQueue_touch |>.then State.sesQueue_touch
        |>.then State.sesQueue_touch |>.then State.setReg_touch |>.then State.setReg_touch |>.then State.setReg_touch
        |>.then State.setReg_touch |>.then State.setReg_touch |>.then State.setReg_touch |>.then State.setSession_touch
  · cases h

theorem State.freeQueue_touch {s : State} {q : Nat} : Touch 0x180000006 s (s.freeQueue q) :=
  Touch.of .upd_mp |>.then State.qCfgWrite_touch |>.then State.qOwnWrite_touch

theorem State.closeSession_touch {s : State} {k : Nat} : Touch 0x380000006 s (s.closeSession k) := by
  unfold State.closeSession
  dsimp only
  exact
    .after (.part (Keep.upd_net _ _)) <|
    .after State.setSession_touch <|
    .after State.setReg_touch <|
    .after State.setReg_touch <|
    .foldl fun t x =>
      .of State.freeQueue_touch

theorem State.joinTelegram_touch {s : State} {p : Nat} {tag : Option (BitVec 16)} {body : List Byte} :
    Touch 0x380000006 s (s.joinTelegram p tag body) := by
  unfold State.joinTelegram
  dsimp only
  refine State.telegram_touch fun _ => ?_
  split
  · split
    · exact .refl
    · exact
        .afterAll (.ite
           (.ite (.of State.sesRun_touch) (.of State.flag_touch))
           (.ite (.afterAll (.ite .refl (.of State.sesSend_touch)) <| .of State.sesRun_touch) .refl)) <|
        .of (State.tagPasses_touch ‹_›)
  · refine .ite ?_ ?_
    · split
      · exact .after State.sesSend_touch <| .after State.sesRun_touch <| .of (State.openSession_touch ‹_›)
      · exact .refl
    · exact .refl

theorem execJoinTelegram_ends {p : Fin 4} {rtag : Option (BitVec 16)} {body : List Byte} {s : State} :
    Ends 0x380000006 s (execJoinTelegram p rtag body s) :=
  .next (Touch.of State.netBegin_touch |>.then State.joinTelegram_touch)

theorem State.leaveTelegram_touch {s : State} {p : Nat} {tag : Option (BitVec 16)} {body : List Byte} :
    Touch 0x380000006 s (s.leaveTelegram p tag body) :=
  State.telegram_touch fun _ =>
    by
      split
      · exact by
          split
          · exact Touch.of (State.tagPasses_touch ‹_›) |>.then State.closeSession_touch
          · exact .refl
      · exact .refl

theorem execLeaveTelegram_ends {p : Fin 4} {rtag : Option (BitVec 16)} {body : List Byte} {s : State} :
    Ends 0x380000006 s (execLeaveTelegram p rtag body s) :=
  .next (Touch.of State.netBegin_touch |>.then State.leaveTelegram_touch)

theorem State.joinRetry_touch {s : State} {k : Nat} : Touch 0x200000002 s (s.joinRetry k) :=
  .ite (.of State.sesSend_touch) .refl

theorem execJoinRetry_ends {ses : Fin 4096} {s : State} : Ends 0x200000002 s (execJoinRetry ses s) :=
  .next (Touch.of State.netBegin_touch |>.then State.joinRetry_touch)

theorem State.retirePort_touch {s : State} {p detail : Nat} : Touch 0x100200000007 s (s.retirePort p detail) :=
  .ite
    .refl
    (Touch.of State.setRb_touch
       |>.then State.flag_touch
       |>.then State.fireNet_touch
       |>.then State.report_touch
       |>.trans (.ite (.foldl fun t x => .of State.resend_touch) .refl))

theorem State.portRetire_touch {s : State} {p : Nat} : Touch 0x100200000007 s (s.portRetire p) := by
  unfold State.portRetire
  split
  · exact .ite (.of State.retirePort_touch) .refl
  · exact .refl

theorem execPortRetire_ends {p : Fin 4} {s : State} : Ends 0x100200000007 s (execPortRetire p s) :=
  .next (Touch.of State.netBegin_touch |>.then State.portRetire_touch)

theorem State.portRestored_touch {s : State} {p : Nat} : Touch 0x200000002 s (s.portRestored p) :=
  Touch.of State.setRb_touch |>.then State.setPort_touch

theorem State.frameDrop_touch {s : State} {p : Nat} {crc : Bool} : Touch 0x100200000007 s (s.frameDrop p crc) :=
  .ite
    .refl
    (.ite
       (.of State.setRf_touch)
       (Touch.of State.setRf_touch
          |>.then State.setPort_touch
          |>.trans (.ite (.of State.retirePort_touch) .refl)))

theorem execEthFrameDrop_ends {p : Fin 4} {crc : Bool} {s : State} :
    Ends 0x100200000007 s (execEthFrameDrop p crc s) :=
  .next (Touch.of State.netBegin_touch |>.then State.frameDrop_touch)

theorem State.netWatch_touch {s : State} : Touch 0x100200000007 s (s.netWatch) := by
  unfold State.netWatch
  dsimp only
  exact
    .afterAll (.foldl fun t x => .ite (.of State.sesLost_touch) .refl) <|
    .foldl fun t x =>
      .of State.linkDown_touch

theorem State.netWake_touch {s : State} : Touch 0x200000006 s (s.netWake) :=
  Touch.of (.part (Keep.upd_net _ _)) |>.trans (.foldl fun t x => .of State.flag_touch)

end Sys2Proof.Machine
end

section
/-!
What the operations of the fault collector may touch.
-/
namespace Sys2Proof.Machine
open Sys2Proof
set_option Elab.async false

theorem State.holdUnits_touch {s : State} {l : List (Nat × Nat)} {cause : Nat} :
    Touch 0x100000090107 s (s.holdUnits l cause) := .foldl fun t x => .of State.sysHold_touch

theorem State.setLink_touch {s : State} {l : Nat} {r : LinkRec} : Touch 0x1000 s (s.setLink l r) :=
  .of (.part (Keep.set_links _ _ _))

theorem State.linkTimeout_touch {s : State} {l : Nat} : Touch 0x1006 s (s.linkTimeout l) :=
  .ite .refl (Touch.of State.setLink_touch |>.then State.fabFault_touch |>.then State.heldReport_touch)

theorem execLinkTimeout_ends {l : Fin 32} {s : State} : Ends 0x1006 s (execLinkTimeout l s) :=
  .next (.of State.linkTimeout_touch)

theorem State.linkReset_touch {s : State} {l : Nat} {passed : Bool} : Touch 0x1001 s (s.linkReset l passed) :=
  .ite .refl (Touch.of State.setLink_touch |>.then State.report_touch |>.then State.refreshPennants_touch)

theorem execLinkReset_ends {l : Fin 32} {passed : Bool} {s : State} : Ends 0x1001 s (execLinkReset l passed s) :=
  .next (.of State.linkReset_touch)

theorem State.clockFaultOn_touch {s : State} : Touch 0x100000090107 s (s.clockFaultOn) :=
  .ite
    .refl
    (Touch.of State.setClk_touch |>.then State.report_touch |>.trans (.ite (.of State.holdUnits_touch) .refl))

theorem execClockFault_ends {s : State} : Ends 0x100000090107 s (execClockFault s) :=
  .next (.ite .refl (.of State.clockFaultOn_touch))

theorem State.clockFaultOff_touch {s : State} : Touch 0x8907 s (s.clockFaultOff) :=
  .ite (Touch.of State.setClk_touch |>.then State.conditionEnded_touch) .refl

theorem execClockFaultEnd_ends {s : State} : Ends 0x8907 s (execClockFaultEnd s) :=
  .next (.of State.clockFaultOff_touch)

theorem State.pllUnlock_touch {s : State} {n : Nat} : Touch 0x100000090307 s (s.pllUnlock n) :=
  .ite
    .refl
    (Touch.ite
       (.of State.syncLost_touch)
       .refl
       |>.then State.setRb_touch
       |>.then State.report_touch
       |>.then State.holdUnits_touch)

theorem execPllUnlock_ends {n : Fin 16} {s : State} : Ends 0x100000090307 s (execPllUnlock n s) :=
  .next (.of State.pllUnlock_touch)

theorem State.supplyFault_touch {s : State} {r : Fin 16} {mv : Word} : Touch 0x100000098107 s (s.supplyFault r mv) :=
  .ite
    .refl
    (Touch.of (.part (Keep.upd_faults _ _))
       |>.then State.report_touch
       |>.trans (.ite (.of State.holdUnits_touch) .refl))

theorem execSupplyFault_ends {rail : Fin 16} {mv : Word} {s : State} :
    Ends 0x100000098107 s (execSupplyFault rail mv s) := .next (.of State.supplyFault_touch)

theorem State.supplyRecovered_touch {s : State} {r : Fin 16} : Touch 0x8807 s (s.supplyRecovered r) :=
  .ite (Touch.of (.part (Keep.upd_faults _ _)) |>.then State.conditionEnded_touch) .refl

theorem execSupplyRecovered_ends {rail : Fin 16} {s : State} : Ends 0x8807 s (execSupplyRecovered rail s) :=
  .next (.of State.supplyRecovered_touch)

theorem State.fcRetire_touch {s : State} {x : Nat} : Touch 0x1001048B0317 s (s.fcRetire x) :=
  .ite
    (.ite (.of State.flag_touch) (.of State.leRetire_touch))
    (.ite (.ite (.of State.flag_touch) (.of State.acRetire_touch)) (.of State.flag_touch))

theorem State.fcRestore_touch {s : State} {x : Nat} : Touch 0x6 s (s.fcRestore x) :=
  .ite (.of State.flag_touch) (.ite (.of State.setReg_touch) (.of State.setReg_touch))

theorem State.acRestored_touch {s : State} {n c : Nat} : Touch 0x820002 s (s.acRestored n c) :=
  Touch.of State.setAc_touch
    |>.then State.setRf_touch
    |>.then State.setRf_touch
    |>.then State.acHandBack_touch
    |>.then State.imposeAwaiting_touch

theorem State.restored_touch {s : State} {x : Nat} : Touch 0x1002068B0117 s (s.restored x) :=
  .ite
    (.of State.leRestored_touch)
    (.ite
       (Touch.of State.setReg_touch |>.then State.setTu_touch)
       (.ite (.of State.acRestored_touch) (.ite (.of State.coreRestored_touch) (.of State.portRestored_touch))))

theorem State.restoreComplete_touch {s : State} {test : Nat} : Touch 0x1002068B8917 s (s.restoreComplete test) :=
  .ite
    .refl
    (.ite
       (Touch.of State.setReg_touch
          |>.then State.flag_touch
          |>.then State.restored_touch
          |>.trans (.ite .refl (.of State.setFaultRec_touch)))
       (Touch.of State.setReg_touch |>.then State.flag_touch))

theorem execRestoreComplete_ends {test : Fin 7} {s : State} : Ends 0x1002068B8917 s (execRestoreComplete test s) :=
  .next (.of State.restoreComplete_touch)

end Sys2Proof.Machine
end

section
/-!
What the operations of the DMA controller may touch.
-/
namespace Sys2Proof.Machine
open Sys2Proof
set_option Elab.async false

theorem State.setDma_touch {s : State} {c : Nat} {r : DmaRec} : Touch 0x40000000 s (s.setDma c r) :=
  .of (.part (Keep.set_dmas _ _ _))

theorem State.setDmaState_touch {s : State} {c v : Nat} : Touch 0x2 s (s.setDmaState c v) := .of State.setReg_touch

theorem State.dmaPump_touch {s : State} {c k : Nat} : Touch 0x40000000 s (s.dmaPump c k) :=
  State.dmaPump_induct (P := Touch 0x40000000 s) (fun _ _ _ h => h.then State.setDma_touch) k s .refl

theorem State.dmaHalt_touch {s : State} {c flag : Nat} {v : Word} : Touch 0x40000006 s (s.dmaHalt c flag v) :=
  Touch.of State.setDmaState_touch |>.then State.setReg_touch |>.then State.flag_touch |>.then State.setDma_touch

theorem State.dmaBegin_touch {s : State} {c : Nat} {r : DmaRec} : Touch 0x40000006 s (s.dmaBegin c r) := by
  unfold State.dmaBegin
  extract_lets t
  have counted : Touch 0x40000006 s t := .of State.setReg_touch
  split
  · exact counted.then State.dmaHalt_touch
  · exact .after State.dmaPump_touch <| .after State.setDmaState_touch <| counted.then State.setDma_touch

theorem State.dmaStopped_touch {s : State} {c : Nat} : Touch 0x40000006 s (s.dmaStopped c) :=
  Touch.of State.setDmaState_touch |>.then State.setDma_touch |>.then State.flag_touch

theorem State.dmaCtrlWrite_touch {s : State} {c : Nat} {v : Word} : Touch 0x40000006 s (s.dmaCtrlWrite c v) :=
  .ite
    (.ite .refl (.ite (.of State.dmaStopped_touch) (.of State.setDma_touch)))
    (.ite (.ite (.of State.flag_touch) (Touch.of State.setReg_touch |>.then State.dmaBegin_touch)) .refl)

theorem State.dmaCfgWrite_touch {s : State} {c a : Nat} {v : Word} : Touch 0x6 s (s.dmaCfgWrite c a v) :=
  .ite (.of State.flag_touch) (.of State.setReg_touch)

theorem State.dmaTrigger_touch {s : State} {c : Nat} : Touch 0x40000006 s (s.dmaTrigger c) :=
  .ite
    .refl
    (.ite
       (Touch.of State.setDma_touch |>.then State.setDmaState_touch |>.then State.dmaPump_touch)
       (.ite (.ite (.of State.flag_touch) (.of State.setDma_touch)) .refl))

theorem execDmaTrigger_ends {c : Fin 64} {s : State} : Ends 0x40000006 s (execDmaTrigger c s) :=
  .next (.of State.dmaTrigger_touch)

theorem State.dmaNext_touch {s : State} {c : Nat} : Touch 0x40000006 s (s.dmaNext c) :=
  .ite
    .refl
    (.ite
       (.of State.dmaStopped_touch)
       (.ite
          (.ite (Touch.of State.setDma_touch |>.then State.dmaPump_touch) (.of State.setDmaState_touch))
          (.of State.dmaPump_touch)))

theorem State.dmaOff_touch {s : State} {c n : Nat} : Touch 0x40000006 s (s.dmaOff c n) := .of State.dmaHalt_touch

theorem State.dmaIslandOff_touch {s : State} {n : Nat} : Touch 0x40000006 s (s.dmaIslandOff n) :=
  .foldl fun t x => .of State.dmaOff_touch

theorem State.dmaAbandon_touch {s : State} {n : Nat} : Touch 0x40000006 s (s.dmaAbandon n) :=
  .foldl fun t x => .of State.dmaOff_touch

theorem State.dmaWatch_touch {s : State} : Touch 0x40000006 s (s.dmaWatch) := .foldl fun t x => .of State.dmaHalt_touch

end Sys2Proof.Machine
end

section
/-!
What the operations of the pins may touch.
-/
namespace Sys2Proof.Machine
open Sys2Proof
set_option Elab.async false

theorem State.ballLevel_touch {s : State} {i : Nat} : Touch 0x80 s (s.ballLevel i).2 :=
  .iteSnd
    .refl
    (by
       split
       · exact .refl
       · exact .iteSnd .refl (.of State.freeBit_touch))

theorem State.gpioIn_touch {s : State} {k : Nat} : Touch 0x80 s (s.gpioIn k).2 := by
  unfold State.gpioIn
  dsimp only
  exact
    .foldlPair fun t x =>
      .pair <| .of State.ballLevel_touch

theorem State.gpioLines_touch {s : State} : Touch 0x801 s (s.gpioLines) :=
  .foldl fun t x =>
    by
      split
      · exact .of State.setLine_touch
      · exact .ite (.of State.setLine_touch) .refl

theorem State.tapOperation_touch {s : State} {resetLow : Bool} {op : JtagOp} :
    Touch 0x1000000080 s (s.tapOperation resetLow op) := by
  unfold State.tapOperation
  split
  · exact .of (.part (Keep.upd_tap _ _))
  · exact .of (.part (Keep.upd_tap _ _))
  · exact .of (.part (Keep.upd_tap _ _))
  · exact Touch.of State.free_touch |>.then (.part (Keep.upd_tap _ _))
  · exact .of (.part (Keep.upd_tap _ _))
  · exact .ite (Touch.of State.free_touch |>.then (.part (Keep.upd_tap _ _))) (.of (.part (Keep.upd_tap _ _)))
  · exact .of (.part (Keep.upd_tap _ _))

theorem execJtagTapOperation_ends {resetLow : Bool} {op : JtagOp} {s : State} :
    Ends 0x1000000080 s (execJtagTapOperation resetLow op s) := .next (.of State.tapOperation_touch)

end Sys2Proof.Machine
end

section
/-!
What the operations of the host port may touch.
-/
namespace Sys2Proof.Machine
open Sys2Proof
set_option Elab.async false

theorem State.setHost_touch {s : State} {h : HostState} : Touch 0x400000000 s (s.setHost h) :=
  .of (.part (Keep.upd_host _ _))

theorem State.setMsixWord_touch {s : State} {i : Nat} {v : Word} : Touch 0x400000000 s (s.setMsixWord i v) :=
  .of State.setHost_touch

theorem State.setMsixPending_touch {s : State} {v : Nat} {b : Bool} : Touch 0x400000000 s (s.setMsixPending v b) :=
  .of State.setHost_touch

theorem State.msixSend_touch {s : State} {v : Nat} : Touch 0x400000000 s (s.msixSend v) := .of State.setHost_touch

theorem State.msixVector_touch {s : State} {v : Nat} : Touch 0x400000000 s (s.msixVector v) :=
  .ite .refl (.ite (.of State.setMsixPending_touch) (.of State.msixSend_touch))

theorem execMsixVector_ends {v : Fin 64} {s : State} : Ends 0x400000000 s (execMsixVector v s) :=
  .next (.of State.msixVector_touch)

theorem State.msixWrite_touch {s : State} {o : Nat} {d : Word} : Touch 0x400000000 s (s.msixWrite o d) :=
  .ite
    .refl
    (Touch.of State.setMsixWord_touch
       |>.trans (.ite (Touch.of State.setMsixPending_touch |>.then State.msixSend_touch) .refl))

theorem State.hostDown_touch {s : State} : Touch 0x2 s (s.hostDown) := .of State.setReg_touch

theorem State.hostReset_touch {s : State} : Touch 0x40000000E s (s.hostReset) :=
  Touch.of State.resetRegs_touch |>.then State.setReg_touch |>.then State.setHost_touch

theorem execHostReset_ends {s : State} : Ends 0x40000000E s (execHostReset s) := .next (.of State.hostReset_touch)

theorem execHostLinkDown_ends {s : State} : Ends 0x6 s (execHostLinkDown s) :=
  .next (.ite (Touch.of State.hostDown_touch |>.then State.flag_touch) .refl)

theorem execHostLinkUp_ends {lanes speed : Fin 3} {s : State} : Ends 0x2 s (execHostLinkUp lanes speed s) :=
  .next (.ite (.of State.setReg_touch) .refl)

end Sys2Proof.Machine
end

section
/-!
What the operations of the islands may touch.
-/
namespace Sys2Proof.Machine
open Sys2Proof
set_option Elab.async false

theorem State.setPow_touch {s : State} {p : PowerState} : Touch 0x1000000 s (s.setPow p) :=
  .of (.part (Keep.upd_pow _ _))

theorem State.setPhaseEnd_touch {s : State} {n tick : Nat} : Touch 0x1000000 s (s.setPhaseEnd n tick) :=
  .of State.setPow_touch

theorem State.setPhase_touch {s : State} {n : Nat} {p : IslandPhase} : Touch 0x2000 s (s.setPhase n p) :=
  .of (.part (Keep.set_islands _ _ _))

theorem State.islandRegs_touch {s : State} {n : Nat} {power : Bool} : Touch 0xE s (s.islandRegs n power) :=
  Touch.of State.resetRegs_touch |>.trans (.foldl fun t x => .of State.setReg_touch)

theorem State.islandRecs_touch {s : State} {n : Nat} : Touch 0x100000DF0900 s (s.islandRecs n) := by
  unfold State.islandRecs
  dsimp only
  refine .afterAll (.foldl fun t x => .ite (.of State.setAc_touch) .refl) ?_
  refine ⟨⟨rfl, fun c => ?_, Nat.le_refl _, fun i b => ?_⟩,
    fun ⟨staged, contexts⟩ => ⟨staged, fun q hq => contexts q (List.mem_filter.mp hq).1⟩⟩
  · exact { c with tus := Store.filter_wf c.tus, acs := Store.filter_wf c.acs, cps := Store.filter_wf c.cps, eqs := Store.filter_wf c.eqs, mks := Store.filter_wf c.mks, les := Store.filter_wf c.les, sds := Store.filter_wf c.sds, pulses := Store.filter_wf c.pulses }
  · unfold samePart
    split <;> first | rfl | trivial

theorem State.islandMem_touch {s : State} {n : Nat} {power : Bool} : Touch 0xC000010 s (s.islandMem n power) :=
  Touch.of State.clearMem_touch |>.trans (.ite (.of (.part (Keep.clear_macros _ _))) .refl)

theorem State.sensorOff_touch {s : State} {n : Nat} : Touch 0x1000803 s (s.sensorOff n) :=
  Touch.of (.part (Keep.upd_pow _ _))
    |>.then State.setReg_touch
    |>.then State.setReg_touch
    |>.trans (.foldl fun t x => .of State.setLine_touch)

theorem State.islandClear_touch {s : State} {n : Nat} {power : Bool} :
    Touch 0x10010DDF0B1F s (s.islandClear n power) := by
  unfold State.islandClear
  exact
    .after State.sensorOff_touch <|
    .after State.islandRecs_touch <|
    .after State.islandRegs_touch <|
    .after State.islandMem_touch <|
    .after State.unsync_touch <|
    .of State.entriesLost_touch

theorem State.countReset_touch {s : State} {n : Nat} {up : Bool} : Touch 0x2 s (s.countReset n up) :=
  .ite (.of State.setRf_touch) (.of State.setRf_touch)

theorem State.islandStart_touch {s : State} {n : Nat} : Touch 0x2003 s (s.islandStart n) :=
  Touch.of State.setPhase_touch
    |>.then State.setRb_touch
    |>.trans (.ite (.foldl fun t x => .of State.setRb_touch) .refl)
    |>.trans (.ite
       (Touch.of State.setRb_touch |>.trans (.foldl fun t x => .foldl fun t x => .of State.setRf_touch))
       .refl)
    |>.then State.refreshPennants_touch

theorem State.islandUp_touch {s : State} {n : Nat} : Touch 0x1002003 s (s.islandUp n) := by
  unfold State.islandUp
  split
  · exact Touch.of State.countReset_touch |>.then State.islandStart_touch
  · exact .of State.setPow_touch
  · exact .refl

theorem State.islandReset_touch {s : State} {n : Nat} : Touch 0x10010DDF2B1F s (s.islandReset n) :=
  .ite
    .refl
    (Touch.of State.islandClear_touch
       |>.then State.countReset_touch
       |>.then State.setRb_touch
       |>.then State.setPhase_touch
       |>.then State.setPhaseEnd_touch
       |>.then State.heldReport_touch)

theorem State.resetsEnd_touch {s : State} : Touch 0x1002003 s (s.resetsEnd) :=
  .foldl fun t x => Touch.of State.setPhaseEnd_touch |>.then State.islandStart_touch

theorem State.drainStart_touch {s : State} {n : Nat} : Touch 0x1002002 s (s.drainStart n) :=
  Touch.of State.setPhase_touch
    |>.then State.setPhaseEnd_touch
    |>.then State.setRb_touch
    |>.then State.setRb_touch

theorem State.islandOff_touch {s : State} {n : Nat} {now : Bool} : Touch 0x1002006 s (s.islandOff n now) := by
  unfold State.islandOff
  split
  · exact .refl
  · exact .refl
  · exact .ite (.ite .refl (Touch.of State.setRb_touch |>.then State.flag_touch)) (.of State.drainStart_touch)

theorem State.deferredOff_touch {s : State} : Touch 0x1002002 s (s.deferredOff) :=
  .foldl fun t x => .of State.drainStart_touch

theorem State.islandDown_touch {s : State} {n : Nat} : Touch 0x10014DDF2B1F s (s.islandDown n) :=
  .ite
    .refl
    (Touch.of State.dmaIslandOff_touch
       |>.then State.islandClear_touch
       |>.then State.setPhase_touch
       |>.then State.setPhaseEnd_touch
       |>.then State.heldReport_touch
       |>.then State.setRb_touch
       |>.trans (.ite (Touch.of State.setPow_touch |>.then State.islandUp_touch) .refl))

theorem execIslandPowerDown_ends {n : Fin 16} {s : State} : Ends 0x10014DDF2B1F s (execIslandPowerDown n s) :=
  .next (.of State.islandDown_touch)

theorem execDrainTimeout_ends {n : Fin 16} {s : State} : Ends 0x40000006 s (execDrainTimeout n s) :=
  .next (.ite (Touch.of State.dmaAbandon_touch |>.then State.flag_touch) .refl)

end Sys2Proof.Machine
end

section
/-!
What the operations of the management processor and its mailboxes may touch.
-/
namespace Sys2Proof.Machine
open Sys2Proof
set_option Elab.async false

theorem State.mbSet_touch {s : State} {r x : MbRequest} : Touch 0x100000000 s (s.mbSet r x) := .of State.setMp_touch

theorem State.mbComplete_touch {s : State} {r : MbRequest} {status : Nat} :
    Touch 0x100101000007 s (s.mbComplete r status) :=
  Touch.of State.setMp_touch
    |>.then State.setReg_touch
    |>.trans (.ite (.of State.flag_touch) .refl)
    |>.trans (.ite (.of State.fireCentral_touch) .refl)
    |>.trans (.ite (.of (.part (Keep.upd_pow _ _))) .refl)

theorem State.mbQuiet_touch {mb : Nat} : ∀ {k : Nat} {s : State}, Touch 0x100101000007 s (s.mbQuiet mb k)
  | 0, _ => .refl
  | _ + 1, _ => by
    unfold State.mbQuiet
    split
    · exact Touch.of State.mbComplete_touch |>.then State.mbQuiet_touch
    · exact .refl

theorem State.mbRespond_touch {s : State} {r : MbRequest} {status : Nat} {info : Word} {p : List Word} :
    Touch 0x100101000007 s (s.mbRespond r status info p) := Touch.of State.mbSet_touch |>.then State.mbQuiet_touch

theorem State.mbOk_touch {s : State} {r : MbRequest} {p : List Word} : Touch 0x100101000007 s (s.mbOk r p) :=
  .of State.mbRespond_touch

theorem State.mbFail_touch {s : State} {r : MbRequest} {status info : Nat} :
    Touch 0x100101000007 s (s.mbFail r status info) := .of State.mbRespond_touch

theorem State.mbResetQueue_touch {s : State} {q : Nat} : Touch 0x80000000 s (s.mbResetQueue q) :=
  .of State.qReset_touch

theorem State.mbTaken_touch {s : State} {r : MbRequest} : Touch 0x100000002 s (s.mbTaken r) :=
  Touch.of State.setMp_touch |>.then State.setReg_touch

theorem State.requestTake_touch {s : State} {mb : Nat} : Touch 0x10018D000097 s (s.requestTake mb) := by
  unfold State.requestTake
  dsimp only
  refine .ite ?_ ?_
  · exact .refl
  · refine .ite ?_ ?_
    · exact
        .after State.mbFail_touch <|
        .after State.mbTaken_touch <|
        .after State.flag_touch <|
        .of State.mbResetQueue_touch
    · refine .ite ?_ ?_
      · exact .refl
      · split
        · exact
            .after State.mbFail_touch <|
            .after State.mbTaken_touch <|
            .foldlPair fun t x =>
              .pair <| .of State.qPop_touch
        · exact
            .afterAll (.ite
               (.after State.flag_touch <|
                .after State.mbFail_touch <|
                .after State.mbTaken_touch <|
                .of State.free_touch)
               (.of State.mbTaken_touch)) <|
            .foldlPair fun t x =>
              .pair <| .of State.qPop_touch

theorem execRequestTake_ends {mb : Fin 1024} {s : State} : Ends 0x10018D000097 s (execRequestTake mb s) :=
  .next (.of State.requestTake_touch)

theorem State.framingTimeout_touch {s : State} {mb : Nat} : Touch 0x100181000007 s (s.framingTimeout mb) :=
  .ite
    .refl
    (Touch.of State.mbResetQueue_touch
       |>.then State.flag_touch
       |>.then State.mbTaken_touch
       |>.then State.mbFail_touch)

theorem execRequestFramingTimeout_ends {mb : Fin 1024} {s : State} :
    Ends 0x100181000007 s (execRequestFramingTimeout mb s) := .next (.of State.framingTimeout_touch)

theorem State.deadlineExpiry_touch {s : State} {mb : Nat} : Touch 0x100101000007 s (s.deadlineExpiry mb) := by
  unfold State.deadlineExpiry
  split
  · exact .of State.mbFail_touch
  · exact .refl

theorem execDeadlineExpiry_ends {mb : Fin 1024} {s : State} : Ends 0x100101000007 s (execDeadlineExpiry mb s) :=
  .next (.of State.deadlineExpiry_touch)

/-- A mailbox command: the checks before it, and what the command itself does. -/
theorem State.mbRun_touch {w : Nat} {s : State} {mb code : Nat} {lens : Nat → Bool} {act : MbRequest → State → State}
    (h : ∀ r t, Touch w t (act r t)) (hw : (0x100101000007 ||| w == w) = true := by rfl) : Touch w s (s.mbRun mb code lens act) := by
  unfold State.mbRun
  split
  · exact .refl
  · split
    · exact .refl
    · exact .ite (State.mbFail_touch.mono hw) (.ite (State.mbFail_touch.mono hw) (h _ _))

theorem State.pushCells_touch {q : Nat} : ∀ {l : List (List Word)} {s : State}, Touch 0x10008C000017 s (s.pushCells q l).2
  | [], _ => .refl
  | _ :: _, _ => by
    unfold State.pushCells
    split
    · exact Touch.ofTriple ‹_› (.of State.qPush_touch) |>.then State.pushCells_touch
    · exact .refl

theorem State.responsePush_touch {s : State} {mb : Nat} : Touch 0x10018D000017 s (s.responsePush mb) :=
  .ite
    .refl
    (by
       split
       · exact .refl
       · exact Touch.of State.pushCells_touch
           |>.trans (.ite
              (Touch.of State.mbComplete_touch |>.then State.mbQuiet_touch)
              (.of State.mbSet_touch)))

theorem State.responseTimeout_touch {s : State} {mb : Nat} : Touch 0x100181000007 s (s.responseTimeout mb) := by
  unfold State.responseTimeout
  split
  · exact .ite
      (Touch.of State.setMp_touch
         |>.then State.setReg_touch
         |>.then State.mbResetQueue_touch
         |>.then State.flag_touch
         |>.then State.mbQuiet_touch)
      .refl
  · exact .refl

theorem execResponseTimeout_ends {mb : Fin 1024} {s : State} : Ends 0x100181000007 s (execResponseTimeout mb s) :=
  .next (.of State.responseTimeout_touch)

theorem execLoadUpdate_ends {load : Fin 101} {s : State} : Ends 0x2 s (execLoadUpdate load s) :=
  .next (.ite .refl (Touch.of State.setRf_touch |>.then State.setRf_touch))

theorem State.mbAnswerAll_touch {s : State} {status : Nat} : Touch 0x100101000007 s (s.mbAnswerAll status) :=
  .foldl fun t x => .of State.mbFail_touch

theorem State.mpReset_touch {s : State} : Touch 0x100000007 s (s.mpReset) :=
  .ite .refl (Touch.of State.setMp_touch |>.then State.flag_touch |>.then State.report_touch)

theorem execMpWatchdog_ends {s : State} : Ends 0x100000007 s (execMpWatchdog s) := .next (.of State.mpReset_touch)

theorem State.mpLockstep_touch {s : State} {again : Bool} : Touch 0x100000007 s (s.mpLockstep again) :=
  .ite
    .refl
    (.ite
       (Touch.of State.setMp_touch |>.then State.mpReset_touch)
       (Touch.of State.setMp_touch |>.then State.report_touch))

theorem execMpLockstepDisagreement_ends {again : Bool} {s : State} :
    Ends 0x100000007 s (execMpLockstepDisagreement again s) := .next (.of State.mpLockstep_touch)

theorem State.directsDue_touch {s : State} : Touch 0x1 s (s.directsDue) := .ite (.of State.enqueue_touch) .refl

theorem State.mpRestarted_touch {s : State} : Touch 0x100101000107 s (s.mpRestarted) := by
  unfold State.mpRestarted
  dsimp only
  exact
    .ite
      .refl
      (.after State.mbAnswerAll_touch <|
       .after State.directsDue_touch <|
       .after State.setMp_touch <|
       .foldl fun t x =>
         .ite
           (.of State.epAbandon_touch)
           .refl)

theorem execMpRestartComplete_ends {s : State} : Ends 0x100101000107 s (execMpRestartComplete s) :=
  .next (.of State.mpRestarted_touch)

theorem State.mpWatch_touch {s : State} : Touch 0x100101000007 s (s.mpWatch) :=
  Touch.of State.mbAnswerAll_touch |>.then State.setMp_touch

end Sys2Proof.Machine
end

section
/-!
What the operations of power, WATCH and resets may touch.
-/
namespace Sys2Proof.Machine
open Sys2Proof
set_option Elab.async false

theorem State.watchSteps_touch {s : State} : Touch 0x100243002007 s (s.watchSteps) := by
  unfold State.watchSteps
  dsimp only
  exact
    .after State.hostDown_touch <|
    .after State.netWatch_touch <|
    .after State.dmaWatch_touch <|
    .after State.setPow_touch <|
    .afterAll (.foldl fun t x =>
       .after State.setRb_touch <|
       .ite
         (.after State.setRb_touch <| .after State.setPhaseEnd_touch <| .of State.setPhase_touch)
         .refl) <|
    .foldl fun t x =>
      .ite
        (.of State.parkCore_touch)
        .refl

theorem State.watchRequest_touch {s : State} : Touch 0x100343006007 s (s.watchRequest) :=
  .ite
    .refl
    (.ite
       (.of State.flag_touch)
       (Touch.of State.mpWatch_touch
          |>.then (.part (Keep.upd_device _ _))
          |>.then State.setRf_touch
          |>.trans (.ite .refl (.of State.watchSteps_touch))))

theorem State.pwCtrlWrite_touch {s : State} {v : Word} : Touch 0x100343006007 s (s.pwCtrlWrite v) :=
  Touch.of State.setRb_touch |>.trans (.ite (.of State.watchRequest_touch) .refl)

theorem execFlashOperationDone_ends {b : Fin 2} {ok : Bool} {s : State} :
    Ends 0x100277002097 s (execFlashOperationDone b ok s) :=
  .next (Touch.of State.cachesMiss_touch
     |>.then State.flashDone_touch
     |>.trans (.ite (.of State.watchSteps_touch) .refl))

theorem State.leWatch_touch {s : State} {n m : Nat} : Touch 0x800002 s (s.leWatch n m) :=
  Touch.of State.setReg_touch |>.then (State.setLe_touch_map rfl)

theorem State.acWatch_touch {s : State} {n c : Nat} : Touch 0x20002 s (s.acWatch n c) :=
  Touch.of State.setRf_touch |>.then State.setAc_touch

theorem State.watchEntered_touch {s : State} : Touch 0x5924312 s (s.watchEntered) :=
  .ite
    .refl
    (Touch.of (.part (Keep.upd_device _ _))
       |>.then State.setPow_touch
       |>.trans (.ite (.of State.setRf_touch) .refl)
       |>.trans (.foldl fun t x => .of State.leWatch_touch)
       |>.trans (.foldl fun t x => .of State.acWatch_touch)
       |>.then State.clearMem_touch
       |>.trans (.foldl fun t x => .of State.setMk_touch)
       |>.then State.setClk_touch
       |>.trans (.foldl fun t x => .ite (.of State.unsync_touch) .refl))

theorem execWatchEntered_ends {s : State} : Ends 0x5924312 s (execWatchEntered s) :=
  .next (.of State.watchEntered_touch)

theorem State.noteWake_touch {s : State} {o : WakeSource} : Touch 0x2 s (s.noteWake o) := by
  unfold State.noteWake
  split
  · exact .of State.setRb_touch
  · exact .of State.setRb_touch
  · exact .ite .refl (.after State.setRb_touch <| .of State.setRf_touch)

theorem State.wakeSource_touch {s : State} {w : WakeSource} : Touch 0x4006 s (s.wakeSource w) := by
  unfold State.wakeSource
  refine .ite ?_ ?_
  · exact .refl
  · split
    · exact
        .after State.noteWake_touch <|
        .after State.setRf_touch <|
        .after State.setReg_touch <|
        .of (.part (Keep.upd_device _ _))
    · exact
        .after State.flag_touch <|
        .after State.noteWake_touch <|
        .after State.setRf_touch <|
        .after State.setReg_touch <|
        .of (.part (Keep.upd_device _ _))
    · exact .of State.noteWake_touch
    · exact .refl

theorem execWakeSource_ends {w : WakeSource} {s : State} : Ends 0x4006 s (execWakeSource w s) :=
  .next (.of State.wakeSource_touch)

theorem State.lateActions_touch {s : State} : Touch 0x706 s s.lateActions := by
  have rearmed {t : State} {l : Store (BitVec 64)} : Touch 0x200 t { t with ep := { t.ep with armedAt := l } } :=
    .upd_ep (List.Subset.refl _)
  unfold State.lateActions
  extract_lets now clk0 s1 asap1 clk1 s2 s3
  have h1 : Touch 0x706 s s1 := by
    unfold s1
    split
    · exact .ite (.after State.flag_touch <| .of State.setClk_touch_rfl) .refl
    · exact .refl
  have h2 : Touch 0x706 s1 s2 := by
    unfold s2
    unfold clk1
    clear_value asap1 s1
    split
    · exact .ite (.after (State.setClk_touch (by simp)) <| .of State.flag_touch) .refl
    · exact .refl
  have h3 : Touch 0x706 s2 s3 := .foldl fun t i =>
    .ite (.ite (.after rearmed <| .after State.resultFlag_touch <| .of State.flag_touch)
      (.after State.setSlotState_touch <| .after State.resultFlag_touch <| .of State.flag_touch)) .refl
  exact ((h1.trans h2).trans h3).trans (.ite (.after State.setSnap_touch <| .of State.flag_touch) .refl)

theorem State.coldWakeUp_touch {s : State} : Touch 0x187010036 s s.coldWakeUp :=
  Touch.of State.clearMem_touch |>.then (.part (Keep.upd_stamps _ fun _ => rfl))
    |>.trans (.foldl fun t x => .ite .refl (Touch.of State.coreStop_touch |>.then State.setRb_touch))
    |>.then State.queuesLost_touch |>.then State.flag_touch |>.then State.setPow_touch |>.then .upd_mp

theorem State.islandWake_touch {s : State} {dB n : Nat} : Touch 0x104104098B17 s (s.islandWake dB n) := by
  unfold State.islandWake
  dsimp only
  exact
    .ite
      .refl
      (.after State.islandSync_touch <|
       .afterAll (.ite (.foldl fun t x => .of State.driftCheck_touch) .refl) <|
       .afterAll (.foldl fun t x => .of State.flag_touch) <|
       .foldl fun t x =>
         .of State.tuWake_touch)

theorem State.wakeComplete_touch {s : State} {beats : BitVec 64} : Touch 0x1067C709CF3F s (s.wakeComplete beats) := by
  have served {t : State} {b : Bool} : Touch 0x100000000 t (t.setMp { t.mp with serving := b }) := State.setMp_touch
  have passed {t : State} {b : BitVec 64} : Touch 0x2000000100 t (t.setClk { t.clk with beat := b }) := .upd_clk_beats
  have freed {t : State} : Touch 0x40000000 t { t with dmas := [] } := .part (Keep.upd_dmas t fun _ => rfl)
  unfold State.wakeComplete
  dsimp only
  have begun : Touch 0x1067C709CF3F s (({ (({ s with device := .run }.setRf R.PW_STATE 31 30 0).flag R.PW_STATUS 6) with
      faults := { (({ s with device := .run }.setRf R.PW_STATE 31 30 0).flag R.PW_STATUS 6).faults with kept := [] } } : State).enqueue
        (({ s with device := .run }.setRf R.PW_STATE 31 30 0).flag R.PW_STATUS 6).faults.kept) :=
    .after State.enqueue_touch <| .after (.part (Keep.upd_faults _ _)) <| .after State.flag_touch <|
      .after State.setRf_touch <| .of (.part (Keep.upd_device _ _))
  refine .ite .refl (begun.trans (.ite ?_ ?_))
  · exact .after State.hostReset_touch <| .after State.netWake_touch <| .after State.directsDue_touch <| .of served
  · exact .after State.refreshPennants_touch <|
      .afterAll (.ite (.of State.coldWakeUp_touch) (.after State.directsDue_touch <| .of served)) <|
      .after State.hostReset_touch <| .after State.netWake_touch <| .after State.filtersWake_touch <|
      .after State.lateActions_touch <| .after freed <| .after State.resetRegs_touch <|
      .afterAll (.foldl fun t x => .of State.islandWake_touch) <| .after State.setRb_touch <| .after passed <|
      .of State.setPow_touch

theorem execWakeComplete_ends {beats : BitVec 64} {s : State} : Ends 0x1067C709CF3F s (execWakeComplete beats s) :=
  .next (.of State.wakeComplete_touch)

/-- A reset of the main supplies leaves the queue, the counter of free values, the calendar, the SAFE_N ball, the rollback
counter and the test port (R477). -/
theorem State.mainReset_touch {s : State} : Touch 0x1D6FFFDFFF7F s s.mainReset := by
  have cut : Touch 0x1D6FFFDFFF7F s ((s.flashCut 0).flashCut 1) := Touch.of State.flashCut_touch |>.then State.flashCut_touch
  refine cut.trans ?_
  unfold State.mainReset
  dsimp only
  generalize (s.flashCut 0).flashCut 1 = u
  refine ⟨⟨rfl, fun c => ?_, Nat.le_refl _, fun i b => ?_⟩, fun _ => ⟨fun e he => absurd he List.not_mem_nil, fun e he => absurd he List.not_mem_nil⟩⟩
  · exact {
      mem := Store.filter_wf c.mem
      regs := Store.filter_wf c.regs
      scCount := Store.filter_wf c.scCount
      ecc := Store.filter_wf c.ecc
      flash := c.flash
      domRegs := rfl
      stamps := rfl
      islands := rfl
      pulses := rfl
      paths := rfl
      links := rfl
      tus := rfl
      acs := rfl
      cps := rfl
      eqs := rfl
      mks := rfl
      sds := rfl
      les := rfl
      cores := rfl
      macros := rfl
      flashOps := rfl
      dmas := rfl
      queues := rfl
      serial := rfl
    }
  · unfold samePart
    split <;> first | rfl | trivial

theorem State.powerReset_touch {s : State} {cause : Nat} {boot : BitVec 4} :
    Touch 0x1D6FFFDFFF7F s (s.powerReset cause boot) :=
  Touch.of State.mainReset_touch
    |>.then State.setReg_touch
    |>.then State.setReg_touch
    |>.trans (.ite (.of State.setPow_touch) .refl)

theorem execPowerOnReset_ends {cause : Fin 5} {boot : BitVec 4} {s : State} :
    Ends 0x1D6FFFDFFF7F s (execPowerOnReset cause boot s) := .next (.of State.powerReset_touch)

theorem State.orderReset_touch {s : State} {cause : Fin 5} : Touch 0x1 s (s.orderReset cause) :=
  .of State.enqueue_touch

theorem State.backupEntry_touch {s : State} : Touch 0x1D6FFFDFFF7F s s.backupEntry := by
  have parts {t : State} : Touch 0x1D6FFFDFFF7F t { t with device := .backup, pow := { t.pow with booting := false } } :=
    Touch.of (.part (Keep.upd_device t .backup)) |>.then (v := 0x1000000) (.part (Keep.upd_pow _ _))
  unfold State.backupEntry
  dsimp only
  exact .ite .refl (.after parts (.of State.mainReset_touch))

theorem execBackupEntry_ends {s : State} : Ends 0x1D6FFFDFFF7F s (execBackupEntry s) :=
  .next (.of State.backupEntry_touch)

theorem execPorOutRelease_ends {s : State} : Ends 0x1000000 s (execPorOutRelease s) :=
  .next (.ite .refl (.of State.setPow_touch))

theorem State.thermalLines_touch {s : State} {k : Nat} : Touch 0x801 s (s.thermalLines k) :=
  .foldl fun t x => .of State.setLine_touch

theorem State.thermalUnits_touch {s : State} {l : List (Nat × Nat)} {mark : Nat} :
    Touch 0x100000090107 s (s.thermalUnits l mark) := by
  unfold State.thermalUnits
  dsimp only
  exact
    .after State.holdUnits_touch <|
    .foldl fun t x =>
      .of State.setTu_touch

theorem State.critAction_touch {s : State} {k : Nat} : Touch 0x100001092107 s (s.critAction k) :=
  .ite
    .refl
    (.ite
       (Touch.of State.thermalUnits_touch
          |>.trans (.ite (Touch.of State.islandOff_touch |>.then State.flag_touch) .refl))
       (Touch.of State.thermalUnits_touch |>.trans (.ite (.of State.orderReset_touch) .refl)))

theorem State.thermalLevel_touch {s : State} {k t : Nat} {temp : ℤ} :
    Touch 0x100001092107 s (s.thermalLevel k t temp) :=
  .ite
    (Touch.of State.setPow_touch |>.trans (.ite (.of State.flag_touch) .refl))
    (.ite
       (Touch.of State.setPow_touch
          |>.then State.setRb_touch
          |>.trans (.ite (Touch.of State.flag_touch |>.trans (.ite (.of State.critAction_touch) .refl)) .refl))
       (Touch.of State.setPow_touch |>.trans (.ite (.of State.setRb_touch) .refl)))

theorem State.thermalSample_touch {s : State} {k : Nat} {temp : BitVec 16} :
    Touch 0x100001092907 s (s.thermalSample k temp) := by
  unfold State.thermalSample
  split
  · exact .ite .refl (.of State.setPow_touch)
  · exact .ite
      .refl
      (Touch.of State.setReg_touch
         |>.trans (.ite (.of State.setReg_touch) .refl)
         |>.trans (.foldl fun t x => .of State.thermalLevel_touch)
         |>.then State.thermalLines_touch)

theorem execThermalSample_ends {sensor : Fin 17} {temp : BitVec 16} {s : State} :
    Ends 0x100001092907 s (execThermalSample sensor temp s) := .next (.of State.thermalSample_touch)

theorem State.pwTestWrite_touch {s : State} {v : Word} : Touch 0x1000102 s (s.pwTestWrite v) :=
  Touch.of State.setRb_touch |>.then State.request_touch |>.then State.setPow_touch

theorem State.testChange_touch {s : State} {on : Bool} : Touch 0x6 s (s.testChange on) :=
  .ite
    .refl
    (Touch.of State.setRb_touch
       |>.then State.flag_touch
       |>.trans (.foldl fun t x => .ite (.of State.setRb_touch) .refl)
       |>.trans (.foldl fun t x => .ite (.foldl fun t x => .of State.setRf_touch) .refl))

theorem execTestModeChange_ends {s : State} : Ends 0x1000006 s (execTestModeChange s) :=
  .next (by
     split
     · exact .ite (Touch.of State.setPow_touch |>.then State.testChange_touch) .refl
     · exact .refl)

end Sys2Proof.Machine
end

section
/-!
What the operations of the views of registers may touch.
-/
namespace Sys2Proof.Machine
open Sys2Proof
set_option Elab.async false

theorem State.latch_touch {s : State} {b : Blk} {a d : Nat} : Touch 0x8 s (s.latch b a d) :=
  .foldl fun t x => .of State.setDomReg_touch

theorem State.consume_touch {s : State} {b : Blk} {a : Nat} : Touch 0x800110002 s (s.consume b a) := by
  unfold State.consume
  split
  · exact by
      split
      · exact .of State.consumeCap_touch
      · exact .refl
  · exact .ite (.of State.acDataRead_touch) .refl
  · exact .ite (.of State.sdDataRead_touch) .refl
  · exact .ite (.of State.mkConsume_touch) .refl
  · exact .ite (.of State.serialPop_touch) .refl
  · exact .ite (.of State.serialPop_touch) .refl
  · exact .ite (.of State.serialPop_touch) .refl
  · exact .refl

theorem State.readReg_touch {s : State} {b : Blk} {r : RegRow} {a d : Nat} :
    Touch 0x80011028E s (s.readReg b r a d).2 := by
  unfold State.readReg
  split
  · exact .refl
  · exact .refl
  · exact Touch.of State.latch_touch |>.then State.consume_touch
  · exact .iteSnd
      (.of State.epOpen_touch)
      (by
         split
         · exact .of State.gpioIn_touch
         · exact .of State.consume_touch)

end Sys2Proof.Machine
end

section
/-!
What the operations of the accesses of a bus master may touch.
-/
namespace Sys2Proof.Machine
open Sys2Proof
set_option Elab.async false

theorem State.putReg_touch {s : State} {r : RegRow} {a : Nat} {v : Word} : Touch 0x2 s (s.putReg r a v) :=
  .of State.setReg_touch

theorem State.tbWrite_touch {s : State} {d : Nat} {r : RegRow} {a : Nat} {v : Word} :
    Touch 0x4000106 s (s.tbWrite d r a v) :=
  .ite
    (.ite .refl (.of State.rateWrite_touch))
    (.ite
       (.ite .refl (.of State.putReg_touch))
       (.ite
          (.ite .refl (.of State.stepWrite_touch))
          (.ite
             (.of State.discWrite_touch)
             (.ite
                (.of State.startArm_touch)
                (.ite
                   (.of State.startCancel_touch)
                   (.ite
                      (.of State.startAtWrite_touch)
                      (.ite
                         (.of State.calSetWrite_touch)
                         (by
                            split
                            · exact .of State.alarmArm_touch
                            · exact Touch.of State.putReg_touch
                                |>.trans (.ite (.of State.setEcc_touch) .refl)))))))))

theorem State.epWrite_touch {s : State} {d : Nat} {r : RegRow} {a : Nat} {v : Word} :
    Touch 0x70E s (s.epWrite d r a v).2 :=
  .iteSnd
    (State.byId_touch fun _ _ => .of State.epStage_touch)
    (.iteSnd
       (State.byId_touch fun _ _ => .of State.epAbandon_touch)
       (.iteSnd
          (State.byId_touch fun _ _ => .of State.haulRequest_touch)
          (.iteSnd
             (.of State.setDomReg_touch)
             (.iteSnd
                (.of State.snCountWrite_touch)
                (.iteSnd
                   (.of State.snAtHi_touch)
                   (.iteSnd
                      (.of State.snapArm_touch)
                      (.iteSnd
                         (.of State.snapCancel_touch)
                         (.iteSnd
                            (.of State.snLoadWrite_touch)
                            (by
                               split
                               · exact .iteSnd (.of State.slotAtHi_touch) (.of State.slotAtLo_touch)
                               · exact .of State.putReg_touch)))))))))

theorem State.fabWrite_touch {s : State} {d : Nat} {r : RegRow} {a : Nat} {v : Word} :
    Touch 0x100000080807 s (s.fabWrite d r a v).2 :=
  .iteSnd
    (.of State.fbFire_touch)
    (by
       split
       · exact .of State.pnCtrlWrite_touch
       · exact by
           split
           · exact .of State.setCtrlWrite_touch
           · exact .of State.putReg_touch)

theorem State.fcWrite_touch {s : State} {r : RegRow} {a : Nat} {v : Word} :
    Touch 0x1001048B8B17 s (s.fcWrite r a v) :=
  .ite
    (.of State.acknowledge_touch)
    (.ite
       (.of State.fcRetire_touch)
       (.ite
          (.of State.fcRestore_touch)
          (Touch.of State.putReg_touch |>.trans (.ite (.of State.faultN_touch) .refl))))

theorem State.pwWrite_touch {s : State} {r : RegRow} {a : Nat} {v : Word} :
    Touch 0x10034FDF6B1F s (s.pwWrite r a v) :=
  .ite
    (.of State.pwCtrlWrite_touch)
    (.ite
       (.foldl fun t x => .of State.islandUp_touch)
       (.ite
          (.foldl fun t x => .of State.islandOff_touch)
          (.ite
             (.foldl fun t x => .of State.islandReset_touch)
             (.ite
                (.of State.pwTestWrite_touch)
                (Touch.of State.putReg_touch
                   |>.trans (by
                      split
                      · exact .of State.thermalLines_touch
                      · exact .refl))))))

theorem State.schWrite_touch {s : State} {n : Nat} {r : RegRow} {a : Nat} {v : Word} :
    Touch 0x2018807 s (s.schWrite n r a v) := by
  unfold State.schWrite
  exact
    .ite
      (.of State.schCtrlWrite_touch)
      (.ite
         (.of State.spillWrite_touch)
         (.ite (.of State.schRelease_touch) (.ite (.of State.slotCtrlWrite_touch) (.of State.putReg_touch))))

theorem State.dmaWrite_touch {s : State} {r : RegRow} {a : Nat} {v : Word} : Touch 0x40000006 s (s.dmaWrite r a v) :=
  .ite
    (.of State.putReg_touch)
    (.ite (.of State.dmaCtrlWrite_touch) (.ite (.of State.putReg_touch) (.of State.dmaCfgWrite_touch)))

theorem State.qmWrite_touch {s : State} {r : RegRow} {a : Nat} {v : Word} : Touch 0x80000006 s (s.qmWrite r a v) :=
  .ite
    (.of State.putReg_touch)
    (.ite (.of State.qOwnWrite_touch) (.ite (.of State.qCfgWrite_touch) (.of State.putReg_touch)))

theorem State.tuWrite_touch {s : State} {d n k : Nat} {r : RegRow} {a : Nat} {v : Word} :
    Touch 0x100000090107 s (s.tuWrite d n k r a v) :=
  .ite
    (.of State.tuCtrlWrite_touch)
    (.ite
       (.of State.tripClr_touch)
       (by
          split
          · exact .of State.dlrWrite_touch
          · exact .of State.putReg_touch))

theorem State.acWrite_touch {s : State} {n c : Nat} {r : RegRow} {a : Nat} {v : Word} :
    Touch 0x100104020217 s (s.acWrite n c r a v) :=
  .ite
    (.of State.acCtrlWrite_touch)
    (.ite (.of State.acCalWrite_touch) (.ite (.of State.acFactorWrite_touch) (.of State.putReg_touch)))

theorem State.eqWrite_touch {s : State} {n q : Nat} {r : RegRow} {a : Nat} {v : Word} :
    Touch 0x80002 s (s.eqWrite n q r a v) :=
  .ite
    (.of State.eqCtrlWrite_touch)
    (.ite (.of State.loadCount_touch) (.ite (.of State.pcCtrlWrite_touch) (.of State.putReg_touch)))

theorem State.flWrite_touch {s : State} {r : RegRow} {a : Nat} {v : Word} : Touch 0x30000006 s (s.flWrite r a v) :=
  .ite
    (.of State.flLockWrite_touch)
    (by
       split
       · exact .of State.flashCmd_touch
       · exact .of State.putReg_touch)

theorem State.latWrite_touch {s : State} {a : Nat} : Touch 0x2 s (s.latWrite a) := .of State.setRf_touch

theorem State.leWrite_touch {s : State} {n m : Nat} {r : RegRow} {a : Nat} {v : Word} :
    Touch 0x100104800217 s (s.leWrite n m r a v) :=
  .ite (.of State.leRunWrite_touch) (.ite (.of State.latWrite_touch) (.of State.putReg_touch))

theorem State.ownerWrite_touch {s : State} {b : Blk} {r : RegRow} {a : Nat} {v : Word} :
    Touch 0x80080807 s (s.ownerWrite b r a v) := by
  unfold State.ownerWrite
  split
  · exact .ite (.of State.qmWrite_touch) (.of State.putReg_touch)
  · exact Touch.of State.putReg_touch
      |>.then State.refusedReport_touch
      |>.trans (by
         split
         · exact .ite
             (Touch.of State.setCheck_touch |>.then State.fabricChanged_touch)
             (.of State.fabricChanged_touch)
         · exact .of State.fabricChanged_touch)
  · exact Touch.of State.putReg_touch
      |>.then State.refusedReport_touch
      |>.trans (by
         split
         · exact .ite
             (Touch.of State.setCheck_touch |>.then State.fabricChanged_touch)
             (.of State.fabricChanged_touch)
         · exact .of State.fabricChanged_touch)
  · exact Touch.of State.putReg_touch |>.then State.refusedReport_touch |>.then State.fabricChanged_touch

theorem State.writeReg_touch {s : State} {d : Nat} {b : Blk} {r : RegRow} {a : Nat} {v : Word} :
    Touch 0x140BFFDFEF1F s (s.writeReg d b r a v).2 := by
  unfold State.writeReg
  split
  · exact .refl
  · exact .refl
  · exact .refl
  · exact .ite .refl (.of State.scWrite_touch)
  · exact .ite .refl (.of State.ebWrite_touch)
  · exact .iteSnd
      .refl
      (.iteSnd
         (.of State.ownerWrite_touch)
         (by
            split
            · exact by
                split
                · exact .of State.xmCfgWrite_touch
                · exact .of State.putReg_touch
            · exact .of State.tbWrite_touch
            · exact .of State.epWrite_touch
            · exact .of State.fabWrite_touch
            · exact .of State.fabWrite_touch
            · exact .of State.fcWrite_touch
            · exact .of State.pwWrite_touch
            · exact .of State.flWrite_touch
            · exact .of State.dmaWrite_touch
            · exact .of State.qmWrite_touch
            · exact by
                split
                · exact .of State.portCfgWrite_touch
                · exact .of State.putReg_touch
            · exact Touch.of State.putReg_touch |>.trans (.ite (.of State.gpioLines_touch) .refl)
            · exact .of State.leWrite_touch
            · exact .ite (.of State.leSubstWrite_touch) (.of State.putReg_touch)
            · exact .of State.tuWrite_touch
            · exact .of State.acWrite_touch
            · exact .of State.eqWrite_touch
            · exact .ite
                (Touch.of State.ccCtrlWrite_touch |>.trans (.ite (.of State.thawUnits_touch) .refl))
                (.of State.putReg_touch)
            · exact .of State.schWrite_touch
            · exact .ite (.of State.canCtrlWrite_touch) (.of State.putReg_touch)
            · exact .ite (.of State.uartWrite_touch) (.of State.putReg_touch)
            · exact .ite
                (.of State.spiWrite_touch)
                (.ite (.of State.spiCtrlWrite_touch) (.of State.putReg_touch))
            · exact .ite (.of State.i2cCmd_touch) (.ite (.of State.i2cWrite_touch) (.of State.putReg_touch))
            · exact .of State.putReg_touch))

theorem State.refusedWrite_touch {s : State} {b : Blk} {a : Nat} : Touch 0x6 s (s.refusedWrite b a) := by
  unfold State.refusedWrite
  split
  · exact .ite (.of State.flag_touch) .refl
  · exact .refl

theorem State.ramRead_touch {s : State} {a n : Nat} : Touch 0xC000007 s (s.ramRead a n).2 :=
  .iteSnd (.of State.eccAccess_touch) (.of State.eccRead_touch)

theorem State.ramWrite_touch {s : State} {a n : Nat} {v : Word} : Touch 0xC000017 s (s.ramWrite a n v).2 :=
  .iteSnd
    (.of State.setMword_touch)
    (.iteSnd (.of State.eccAccess_touch) (Touch.of State.eccRead_touch |>.then State.storeBytes_touch))

theorem State.sramWrite_touch {s : State} {m : Master} {a n : Nat} {v : Word} :
    Touch 0xE000097 s (s.sramWrite m a n v).2 :=
  .iteSnd (Touch.of State.cachesMiss_touch |>.then State.ramWrite_touch) (.of State.ramWrite_touch)

theorem State.snapshotRead_touch {s : State} {d a : Nat} : Touch 0xC000007 s (s.snapshotRead d a).2 := by
  unfold State.snapshotRead
  exact
    .iteSnd
      .refl
      (.iteSnd (.pair <| .of State.flag_touch) (.of State.ramRead_touch))

theorem State.snapshotWrite_touch {s : State} {d a : Nat} {v : Word} : Touch 0x4000016 s (s.snapshotWrite d a v).2 := by
  unfold State.snapshotWrite
  exact
    .iteSnd
      .refl
      (.iteSnd (.pair <| .of State.flag_touch) (.pair <| .of State.setMword_touch))

theorem State.stagingRead_touch {s : State} {d t : Nat} : Touch 0x0 s (s.stagingRead d t).2 :=
  .iteSnd .refl (.iteSnd .refl .refl)

theorem State.readPlace_touch {s : State} {m : Master} {d a n : Nat} {o : Place} :
    Touch 0x10088C11029F s (s.readPlace m d a n o).2 := by
  unfold State.readPlace
  dsimp only
  split
  · exact .of State.ramRead_touch
  · split
    · exact .pair <| .ofPair ‹_› (.of State.flashRead_touch)
    · exact .pair <| .ofPair ‹_› (.of State.flashRead_touch)
  · exact .iteSnd (.of State.ramRead_touch) .refl
  · exact .of State.xmReadStamped_touch
  · exact .of State.snapshotRead_touch
  · exact .iteSnd .refl (.iteSnd .refl (.of State.ramRead_touch))
  · refine .iteSnd ?_ ?_
    · exact .refl
    · refine .iteSnd ?_ ?_
      · exact .refl
      · split
        · exact .iteSnd (.pair <| .of State.portPush_touch) (.iteSnd (.pair <| .of State.portPop_touch) .refl)
        · exact
            .iteSnd
              (.pair <| .of State.eccAccess_touch)
              (.pair <| .afterAll (.ite (.of State.eccRead_touch) .refl) <| .of State.readReg_touch)
  · exact .iteSnd .refl (.of State.stagingRead_touch)
  · exact .refl

theorem State.writePlace_touch {s : State} {m : Master} {d a n : Nat} {v : Word} {o : Place} :
    Touch 0x140BFFDFEFBF s (s.writePlace m d a n v o).2 := by
  unfold State.writePlace
  split
  · exact .of State.sramWrite_touch
  · exact .refl
  · exact .iteSnd (.of State.ramWrite_touch) .refl
  · exact .of State.xmWrite_touch
  · exact .of State.snapshotWrite_touch
  · exact
      .iteSnd
        .refl
        (.iteSnd
           .refl
           (.iteSnd .refl (.iteSnd (.pair <| .of State.ebWrite_touch) (.pair <| .of State.setMword_touch))))
  · exact .iteSnd .refl (.iteSnd (.pair <| .of State.refusedWrite_touch) (.of State.writeReg_touch))
  · exact .iteSnd .refl (.iteSnd .refl (.iteSnd .refl (.pair <| .of State.stagingWrite_touch)))
  · exact .refl

theorem State.readAs_touch {s : State} {m : Master} {d a n : Nat} : Touch 0x10088C11029F s (s.readAs m d a n).2 := by
  unfold State.readAs
  refine State.overPath_touch fun _ => ?_
  split
  · exact .refl
  · exact .iteSnd (.of State.readPlace_touch) .refl

theorem State.writeAs_touch {s : State} {m : Master} {d a n : Nat} {v : Word} :
    Touch 0x140BFFDFEFBF s (s.writeAs m d a n v).2 := by
  unfold State.writeAs
  refine State.overPath_touch fun _ => ?_
  split
  · exact .refl
  · exact .iteSnd (.of State.writePlace_touch) .refl

theorem State.busRead_touch {s : State} {m : Master} {a n : Nat} : Touch 0x10088C11029F s (s.busRead m a n).2 :=
  .of State.readAs_touch

theorem State.busWrite_touch {s : State} {m : Master} {a n : Nat} {v : Word} :
    Touch 0x140BFFDFEFBF s (s.busWrite m a n v).2 := .of State.writeAs_touch

end Sys2Proof.Machine
end

section
/-!
What the operations of the accesses of a command may touch.
-/
namespace Sys2Proof.Machine
open Sys2Proof
set_option Elab.async false

theorem State.hostRefused_touch {s : State} {a flag : Nat} : Touch 0x6 s (s.hostRefused a flag) :=
  Touch.of State.flag_touch |>.then State.setReg_touch

theorem State.deferFault_touch {s : State} {n a cause : Nat} : Touch 0x2000001 s (s.deferFault n a cause) :=
  .ite (Touch.of State.setCoreRec_touch |>.then State.enqueue_touch) .refl

theorem State.masterRead_touch {s : State} {m : Master} {a n : Nat} : Touch 0x10088C11029F s (s.masterRead m a n).2 := by
  unfold State.masterRead
  refine .iteSnd ?_ ?_
  · split
    · exact .pair <| .after State.hostRefused_touch <| .ofPair ‹_› (.of State.busRead_touch)
    · exact .of State.busRead_touch
  · split
    · exact .pair <| .of State.hostRefused_touch
    · exact .refl

theorem State.masterWrite_touch {s : State} {m : Master} {a n : Nat} {v : Word} :
    Touch 0x140BFFDFEFBF s (s.masterWrite m a n v).2 := by
  unfold State.masterWrite
  refine .iteSnd ?_ ?_
  · split
    · exact .pair <| .after State.hostRefused_touch <| .ofPair ‹_› (.of State.busWrite_touch)
    · exact .pair <| .after State.deferFault_touch <| .ofPair ‹_› (.of State.busWrite_touch)
    · exact .of State.busWrite_touch
  · split
    · exact .pair <| .of State.hostRefused_touch
    · exact .refl

end Sys2Proof.Machine
end

section
/-!
What the operations of captures and fills of a snapshot may touch.
-/
namespace Sys2Proof.Machine
open Sys2Proof
set_option Elab.async false

theorem State.captureWord_touch {s : State} {a : Nat} {v : Word} : Touch 0xC000007 s (s.captureWord a v).2 :=
  .iteSnd (.of State.eccAccess_touch) (.of State.eccRead_touch)

theorem State.captureReg_touch {s : State} {d : Nat} {b : Blk} {r : RegRow} {a : Nat} :
    Touch 0xC000087 s (s.captureReg d b r a).2 :=
  .iteSnd
    .refl
    (.iteSnd
       (.of State.captureWord_touch)
       (.iteSnd
          .refl
          (by
             split
             · exact .of State.gpioIn_touch
             · exact .refl)))

theorem State.captureOne_touch {s : State} {d : Nat} {w : Word} : Touch 0xC000087 s (s.captureOne d w).2 :=
  .iteSnd
    (.iteSnd .refl (.iteSnd (.of State.eccAccess_touch) (.of State.eccRead_touch)))
    (.iteSnd
       .refl
       (by
          split
          · exact .iteSnd .refl (by split <;> exact .refl)
          · exact by
              split
              · exact .iteSnd .refl (.of State.captureWord_touch)
              · exact .of State.captureReg_touch
              · exact .refl))

theorem State.captureAll_touch {d : Nat} : ∀ {l : List Word} {s : State} {i : Nat}, Touch 0xC000087 s (s.captureAll d i l).2
  | [], _, _ => .refl
  | _ :: _, _, _ => Touch.of State.captureOne_touch |>.then State.captureAll_touch

theorem State.snapCapture_touch {s : State} : Touch 0xC000487 s (s.snapCapture) :=
  .ite
    (Touch.of State.captureAll_touch
       |>.then State.setRb_touch
       |>.then State.setRb_touch
       |>.then State.setSnap_touch)
    .refl

theorem execSnapshotCapture_ends {s : State} : Ends 0xC000487 s (execSnapshotCapture s) :=
  .next (.of State.snapCapture_touch)

theorem State.schedSnap_touch {s : State} : Touch 0x20C000487 s (s.schedSnap) := by
  unfold State.schedSnap
  split
  · exact Touch.of State.schedDone_touch
      |>.trans (.ite
         (.of State.flag_touch)
         (.ite
            (.of State.flag_touch)
            (Touch.of State.setRb_touch
               |>.then State.setRb_touch
               |>.then State.setSnap_touch
               |>.then State.snapCapture_touch)))
  · exact .refl

theorem execScheduledSnap_ends {s : State} : Ends 0x20C000487 s (execScheduledSnap s) :=
  .next (.of State.schedSnap_touch)

theorem State.fillPair_touch {s : State} {p : Nat × Word × Bool} : Touch 0x4000010 s (s.fillPair p) :=
  Touch.of State.setMword_touch |>.then State.setMword_touch

theorem State.snapFilled_touch {s : State} : Touch 0x100004000417 s (s.snapFilled) := by
  unfold State.snapFilled
  dsimp only
  exact
    .ite
      .refl
      (.after State.fireCentral_touch <|
       .after State.setSnap_touch <|
       .afterAll (.ite .refl (.of State.flag_touch)) <|
       .after State.setReg_touch <|
       .after State.setReg_touch <|
       .after State.setRf_touch <|
       .after State.setRb_touch <|
       .after State.setRb_touch <|
       .foldl fun t x =>
         .of State.fillPair_touch)

theorem execSnapshotFillDone_ends {s : State} : Ends 0x100004000417 s (execSnapshotFillDone s) :=
  .next (.of State.snapFilled_touch)

end Sys2Proof.Machine
end

section
/-!
What the operations of the mailbox commands may touch.
-/
namespace Sys2Proof.Machine
open Sys2Proof
set_option Elab.async false

theorem State.mpWrites_touch {d : Nat} : ∀ {l : List (Nat × Word)} {s : State} {i : Nat}, Touch 0x140BFFDFEFBF s (s.mpWrites d i l).2
  | [], _, _ => .refl
  | _ :: _, _, _ => by
    unfold State.mpWrites
    split
    · exact Touch.ofPair ‹_› (.of State.writeAs_touch)
    · exact Touch.ofPair ‹_› (.of State.writeAs_touch) |>.then State.mpWrites_touch

theorem State.mpReads_touch {d : Nat} : ∀ {l : List Nat} {s : State}, Touch 0x10088C11029F s (s.mpReads d l).2.2
  | [], _ => .refl
  | _ :: _, _ => by
    unfold State.mpReads
    split
    · exact Touch.ofPair ‹_› (.of State.readAs_touch) |>.then State.mpReads_touch
    · exact Touch.ofPair ‹_› (.of State.readAs_touch)
    · exact Touch.ofPair ‹_› (.of State.readAs_touch)

theorem State.mbReads_touch {s : State} {r : MbRequest} {d : Nat} {l : List Nat} :
    Touch 0x10098D11029F s (s.mbReads r d l) := by
  unfold State.mbReads
  split
  · exact .after State.mbOk_touch <| .ofTriple ‹_› (.of State.mpReads_touch)
  · exact .after State.mbRespond_touch <| .ofTriple ‹_› (.of State.mpReads_touch)

theorem State.mbWrites_touch {w : Nat} {s : State} {r : MbRequest} {d : Nat} {l : List (Nat × Word)} {k : State → State}
    (h : ∀ t, Touch w t (k t)) (hw : (0x140BFFDFEFBF ||| w == w) = true := by rfl) : Touch w s (s.mbWrites r d l k) := by
  have up : ∀ {t u : State}, Touch 0x140BFFDFEFBF t u → Touch w t u := fun h => h.mono hw
  unfold State.mbWrites
  split
  · exact (up (.ofPair ‹_› (.of State.mpWrites_touch))).trans (h _)
  · exact up (Touch.ofPair ‹_› (.of State.mpWrites_touch) |>.then State.mbFail_touch)

theorem State.measureStart_touch {s : State} {n : Nat} : Touch 0x140BFFDFEFBF s (s.measureStart n) := by
  have noted {t : State} {l : List Nat} : Touch 0x140BFFDFEFBF t (t.setMp { t.mp with measuring := l }) := .of State.setMp_touch
  exact .after noted (.of State.mpWrites_touch)

theorem State.measureEnd_touch {s : State} {n : Nat} : Touch 0x1001048B0317 s (s.measureEnd n) :=
  .ite
    .refl
    (Touch.of State.setMp_touch
       |>.then State.leRunWrite_touch
       |>.trans (.ite (.of State.tuStop_touch) (.of State.setTu_touch))
       |>.then State.acCtrlWrite_touch
       |>.then State.acCtrlWrite_touch
       |>.then (.part (Keep.clear_regs _ _)))

theorem State.sysIdent_touch {s : State} {mb : Nat} : Touch 0x100101000087 s (s.sysIdent mb) := by
  unfold State.sysIdent
  dsimp only
  exact
    State.mbRun_touch fun _ _ =>
      .after State.mbOk_touch <|
      .afterAll (.iteSnd (.of State.freeBit_touch) .refl) <|
      .iteSnd
        (.of State.free_touch)
        .refl

theorem execSysIdent_ends {mb : Fin 1024} {s : State} : Ends 0x100101000087 s (execSysIdent mb s) :=
  .next (.of State.sysIdent_touch)

theorem State.sysStateCmd_touch {s : State} {mb : Nat} : Touch 0x100101000007 s (s.sysStateCmd mb) :=
  State.mbRun_touch fun _ _ => .of State.mbOk_touch

theorem execSysState_ends {mb : Fin 1024} {s : State} : Ends 0x100101000007 s (execSysState mb s) :=
  .next (.of State.sysStateCmd_touch)

theorem State.sysSafe_touch {s : State} {mb : Nat} : Touch 0x100101090107 s (s.sysSafe mb) :=
  State.mbRun_touch fun _ _ => Touch.of State.holdUnits_touch |>.then State.mbOk_touch

theorem execSysSafe_ends {mb : Fin 1024} {s : State} : Ends 0x100101090107 s (execSysSafe mb s) :=
  .next (.of State.sysSafe_touch)

theorem State.sysReset_touch {s : State} {mb : Nat} : Touch 0x10010DDF2B1F s (s.sysReset mb) := by
  unfold State.sysReset
  dsimp only
  exact
    State.mbRun_touch fun _ _ =>
      .ite
        (.ite
           (.after State.mbOk_touch <| .foldl fun t x => .of State.islandReset_touch)
           (.of State.mbFail_touch))
        (.ite (.after State.mbOk_touch <| .of State.mbSet_touch) (.of State.mbFail_touch))

theorem execSysReset_ends {mb : Fin 1024} {s : State} : Ends 0x10010DDF2B1F s (execSysReset mb s) :=
  .next (.of State.sysReset_touch)

theorem State.cfgRead_touch {s : State} {mb : Nat} : Touch 0x10098D11029F s (s.cfgRead mb) :=
  State.mbRun_touch fun _ _ => .ite (.of State.mbFail_touch) (.of State.mbReads_touch)

theorem execCfgRead_ends {mb : Fin 1024} {s : State} : Ends 0x10098D11029F s (execCfgRead mb s) :=
  .next (.of State.cfgRead_touch)

theorem State.cfgWrite_touch {s : State} {mb : Nat} : Touch 0x140BFFDFEFBF s (s.cfgWrite mb) :=
  State.mbRun_touch fun _ _ => State.mbWrites_touch fun _ => .of State.mbOk_touch

theorem execCfgWrite_ends {mb : Fin 1024} {s : State} : Ends 0x140BFFDFEFBF s (execCfgWrite mb s) :=
  .next (.of State.cfgWrite_touch)

theorem State.cfgAlloc_touch {s : State} {mb : Nat} : Touch 0x140BFFDFEFBF s (s.cfgAlloc mb) :=
  State.mbRun_touch fun _ _ =>
    .ite
      (.of State.mbFail_touch)
      (.ite
         (.of State.mbFail_touch)
         (.ite
            (.of State.mbFail_touch)
            (.ite
               (.of State.mbFail_touch)
               (State.mbWrites_touch fun _ => Touch.of State.setMp_touch |>.then State.mbOk_touch))))

theorem execCfgAlloc_ends {mb : Fin 1024} {s : State} : Ends 0x140BFFDFEFBF s (execCfgAlloc mb s) :=
  .next (.of State.cfgAlloc_touch)

theorem State.cfgFree_touch {s : State} {mb : Nat} : Touch 0x140BFFDFEFBF s (s.cfgFree mb) :=
  State.mbRun_touch fun _ _ =>
    .ite
      (.of State.mbFail_touch)
      (.ite
         (.of State.mbFail_touch)
         (by
            split
            · exact .of State.mbFail_touch
            · exact State.mbWrites_touch fun _ => Touch.of State.setMp_touch |>.then State.mbOk_touch))

theorem execCfgFree_ends {mb : Fin 1024} {s : State} : Ends 0x140BFFDFEFBF s (execCfgFree mb s) :=
  .next (.of State.cfgFree_touch)

theorem State.cfgAssign_touch {s : State} {mb : Nat} : Touch 0x140BFFDFEFBF s (s.cfgAssign mb) := by
  unfold State.cfgAssign
  dsimp only
  refine State.mbRun_touch fun _ _ => ?_
  refine .ite ?_ ?_
  · exact .of State.mbFail_touch
  · refine .afterAll (State.mbWrites_touch fun _ => .of State.mbOk_touch) ?_
    split
    · exact .of State.measureEnd_touch
    · exact .refl

theorem execCfgAssign_ends {mb : Fin 1024} {s : State} : Ends 0x140BFFDFEFBF s (execCfgAssign mb s) :=
  .next (.of State.cfgAssign_touch)

theorem State.mailboxSet_touch {s : State} {mb : Nat} {cfg : Word} : Touch 0x180000006 s (s.mailboxSet mb cfg) :=
  Touch.of State.setReg_touch
    |>.then State.qOwnWrite_touch
    |>.then State.qCfgWrite_touch
    |>.then State.qOwnWrite_touch
    |>.then State.qCfgWrite_touch
    |>.trans (.ite .refl (.of State.setMp_touch))

theorem State.cfgMailbox_touch {s : State} {mb : Nat} : Touch 0x100181000007 s (s.cfgMailbox mb) :=
  State.mbRun_touch fun _ _ =>
    .ite
      (.of State.mbFail_touch)
      (.ite
         (.of State.mbFail_touch)
         (.ite (.of State.mbFail_touch) (Touch.of State.mailboxSet_touch |>.then State.mbOk_touch)))

theorem execCfgMailbox_ends {mb : Fin 1024} {s : State} : Ends 0x100181000007 s (execCfgMailbox mb s) :=
  .next (.of State.cfgMailbox_touch)

theorem State.epochOpen_touch {s : State} {mb : Nat} : Touch 0x100101000207 s (s.epochOpen mb) :=
  State.mbRun_touch fun _ _ =>
    Touch.of State.epOpen_touch
      |>.trans (.ite (.of State.mbFail_touch) (.of State.mbOk_touch))

theorem execEpochOpen_ends {mb : Fin 1024} {s : State} : Ends 0x100101000207 s (execEpochOpen mb s) :=
  .next (.of State.epochOpen_touch)

theorem State.mbEpoch_touch {w : Nat} {s : State} {r : MbRequest} {act : Nat → State → State}
    (h : ∀ i t, Touch w t (act i t)) (hw : (0x100101000007 ||| w == w) = true := by rfl) : Touch w s (s.mbEpoch r act) := by
  unfold State.mbEpoch
  split
  · exact State.mbFail_touch.mono hw
  · exact .ite (h _ _) (State.mbFail_touch.mono hw)

theorem State.epochStage_touch {s : State} {mb : Nat} : Touch 0x100101000007 s (s.epochStage mb) :=
  State.mbRun_touch fun _ _ =>
    State.mbEpoch_touch fun _ _ =>
      .ite
        (Touch.of State.epStage_touch |>.then State.mbOk_touch)
        (.of State.mbFail_touch)

theorem execEpochStage_ends {mb : Fin 1024} {s : State} : Ends 0x100101000007 s (execEpochStage mb s) :=
  .next (.of State.epochStage_touch)

theorem State.mpHaul_touch {s : State} {d i : Nat} {asap : Bool} {n : Option (BitVec 64)} :
    Touch 0x30E s (s.mpHaul d i asap n).2 := Touch.of State.setDomReg_touch |>.then State.haulRequest_touch

theorem State.epochHaul_touch {s : State} {mb : Nat} : Touch 0x10010100030F s (s.epochHaul mb) :=
  State.mbRun_touch fun _ _ =>
    State.mbEpoch_touch fun _ _ =>
      Touch.of State.mpHaul_touch
        |>.trans (.ite (.of State.mbOk_touch) (.of State.mbFail_touch))

theorem execEpochHaul_ends {mb : Fin 1024} {s : State} : Ends 0x10010100030F s (execEpochHaul mb s) :=
  .next (.of State.epochHaul_touch)

theorem State.epochAbandon_touch {s : State} {mb : Nat} : Touch 0x100101000107 s (s.epochAbandon mb) :=
  State.mbRun_touch fun _ _ =>
    State.mbEpoch_touch fun _ _ =>
      Touch.of State.epAbandon_touch
        |>.trans (.ite (.of State.mbOk_touch) (.of State.mbFail_touch))

theorem execEpochAbandon_ends {mb : Fin 1024} {s : State} : Ends 0x100101000107 s (execEpochAbandon mb s) :=
  .next (.of State.epochAbandon_touch)

theorem State.epochStatus_touch {s : State} {mb : Nat} : Touch 0x100101000007 s (s.epochStatus mb) :=
  State.mbRun_touch fun _ _ => .of State.mbOk_touch

theorem execEpochStatus_ends {mb : Fin 1024} {s : State} : Ends 0x100101000007 s (execEpochStatus mb s) :=
  .next (.of State.epochStatus_touch)

theorem State.calRun_touch {s : State} {mb : Nat} : Touch 0x140BFFDFEFBF s (s.calRun mb) := by
  unfold State.calRun
  dsimp only
  exact
    State.mbRun_touch fun _ _ =>
      .after State.mbSet_touch <|
      .foldlPair fun t x =>
        .pair <| .of State.writeAs_touch

theorem execCalRun_ends {mb : Fin 1024} {s : State} : Ends 0x140BFFDFEFBF s (execCalRun mb s) :=
  .next (.of State.calRun_touch)

theorem State.calSave_touch {s : State} {mb : Nat} : Touch 0x10098D11029F s (s.calSave mb) :=
  State.mbRun_touch fun _ _ => .of State.mbReads_touch

theorem execCalSave_ends {mb : Fin 1024} {s : State} : Ends 0x10098D11029F s (execCalSave mb s) :=
  .next (.of State.calSave_touch)

theorem State.calRestore_touch {s : State} {mb : Nat} : Touch 0x140BFFDFEFBF s (s.calRestore mb) :=
  State.mbRun_touch fun _ _ => .ite (.of State.mbFail_touch) (State.mbWrites_touch fun _ => .of State.mbOk_touch)

theorem execCalRestore_ends {mb : Fin 1024} {s : State} : Ends 0x140BFFDFEFBF s (execCalRestore mb s) :=
  .next (.of State.calRestore_touch)

theorem State.tuneChecked_touch {w : Nat} {s : State} {r : MbRequest} {act : State → State} (h : ∀ t, Touch w t (act t))
    (hw : (0x100101000007 ||| w == w) = true := by rfl) : Touch w s (s.tuneChecked r act) :=
  have failed : ∀ {status : Nat} {v : Nat}, Touch w s (s.mbFail r status v) := State.mbFail_touch.mono hw
  .ite failed (.ite failed (.ite failed (.ite failed (h s))))

theorem State.tuneWrite_touch {s : State} {r : MbRequest} {op rule : Nat} :
    Touch 0x4000010 s (s.tuneWrite r op rule) := .ite .refl (.of State.setMword_touch)

theorem State.tuneStart_touch {s : State} {mb : Nat} : Touch 0x100105000017 s (s.tuneStart mb) :=
  State.mbRun_touch fun _ _ =>
    .ite
      (.of State.mbFail_touch)
      (State.tuneChecked_touch fun _ => Touch.of State.tuneWrite_touch |>.then State.mbSet_touch)

theorem execTuneStart_ends {mb : Fin 1024} {s : State} : Ends 0x100105000017 s (execTuneStart mb s) :=
  .next (.of State.tuneStart_touch)

theorem State.tunePoll_touch {s : State} {mb : Nat} : Touch 0x100101000007 s (s.tunePoll mb) := by
  unfold State.tunePoll
  split
  · exact .refl
  · exact .ite .refl (.of State.mbOk_touch)

theorem execTunePoll_ends {mb : Fin 1024} {s : State} : Ends 0x100101000007 s (execTunePoll mb s) :=
  .next (.of State.tunePoll_touch)

theorem State.tuneCancel_touch {s : State} {mb : Nat} : Touch 0x100105000017 s (s.tuneCancel mb) :=
  State.mbRun_touch fun _ _ =>
    State.tuneChecked_touch fun _ =>
      .ite
        (Touch.of State.tuneWrite_touch |>.then State.mbOk_touch)
        (.of State.mbFail_touch)

theorem execTuneCancel_ends {mb : Fin 1024} {s : State} : Ends 0x100105000017 s (execTuneCancel mb s) :=
  .next (.of State.tuneCancel_touch)

theorem State.mbPort_touch {w : Nat} {s : State} {r : MbRequest} {act : Nat → State → State}
    (h : ∀ p t, Touch w t (act p t)) (hw : (0x100101000007 ||| w == w) = true := by rfl) : Touch w s (s.mbPort r act) :=
  .ite (State.mbFail_touch.mono hw) (h _ _)

theorem State.netPort_touch {s : State} {mb : Nat} : Touch 0x140BFFDFEFBF s (s.netPort mb) :=
  State.mbRun_touch fun _ _ =>
    State.mbPort_touch fun _ _ =>
      .ite
        (.of State.mbFail_touch)
        (.ite
           (.of State.mbFail_touch)
           (Touch.of State.setPort_touch
              |>.trans (State.mbWrites_touch fun _ =>
                Touch.ite
                  (Touch.of State.portRestored_touch |>.then State.conditionEnded_touch)
                  .refl
                  |>.then State.mbOk_touch)))

theorem execNetPort_ends {mb : Fin 1024} {s : State} : Ends 0x140BFFDFEFBF s (execNetPort mb s) :=
  .next (.of State.netPort_touch)

theorem State.netSessionOpen_touch {s : State} {mb : Nat} : Touch 0x100381000007 s (s.netSessionOpen mb) := by
  unfold State.netSessionOpen
  dsimp only
  refine State.mbRun_touch fun _ _ => ?_
  refine .ite ?_ ?_
  · exact .of State.mbFail_touch
  · refine .ite ?_ ?_
    · exact .of State.mbFail_touch
    · refine .ite ?_ ?_
      · exact .of State.mbFail_touch
      · refine .ite ?_ ?_
        · exact .of State.mbFail_touch
        · split
          · exact .of State.mbFail_touch
          · exact .after State.mbOk_touch <| .of (State.openSession_touch ‹_›)

theorem execNetSessionOpen_ends {mb : Fin 1024} {s : State} : Ends 0x100381000007 s (execNetSessionOpen mb s) :=
  .next (.of State.netSessionOpen_touch)

theorem State.netSessionClose_touch {s : State} {mb : Nat} : Touch 0x100381000007 s (s.netSessionClose mb) :=
  State.mbRun_touch fun _ _ =>
    by
      split
      · exact Touch.of State.closeSession_touch |>.then State.mbOk_touch
      · exact .of State.mbFail_touch

theorem execNetSessionClose_ends {mb : Fin 1024} {s : State} : Ends 0x100381000007 s (execNetSessionClose mb s) :=
  .next (.of State.netSessionClose_touch)

theorem State.netGcl_touch {s : State} {mb : Nat} : Touch 0x100301000007 s (s.netGcl mb) :=
  State.mbRun_touch fun _ _ =>
    State.mbPort_touch fun _ _ =>
      .ite
        (.of State.mbFail_touch)
        (.ite
           (.of State.mbFail_touch)
           (.ite (.of State.mbFail_touch) (Touch.of State.setPort_touch |>.then State.mbOk_touch)))

theorem execNetGcl_ends {mb : Fin 1024} {s : State} : Ends 0x100301000007 s (execNetGcl mb s) :=
  .next (.of State.netGcl_touch)

theorem State.netStatus_touch {s : State} {mb : Nat} : Touch 0x100101000007 s (s.netStatus mb) :=
  State.mbRun_touch fun _ _ => State.mbPort_touch fun _ _ => .of State.mbOk_touch

theorem execNetStatus_ends {mb : Fin 1024} {s : State} : Ends 0x100101000007 s (execNetStatus mb s) :=
  .next (.of State.netStatus_touch)

theorem State.diagFaults_touch {s : State} {mb : Nat} : Touch 0x100101000007 s (s.diagFaults mb) :=
  State.mbRun_touch fun _ _ => .of State.mbOk_touch

theorem execDiagFaults_ends {mb : Fin 1024} {s : State} : Ends 0x100101000007 s (execDiagFaults mb s) :=
  .next (.of State.diagFaults_touch)

theorem State.diagAck_touch {s : State} {mb : Nat} : Touch 0x140BFFDFEFBF s (s.diagAck mb) :=
  State.mbRun_touch fun _ _ => .ite (.of State.mbFail_touch) (State.mbWrites_touch fun _ => .of State.mbOk_touch)

theorem execDiagAck_ends {mb : Fin 1024} {s : State} : Ends 0x140BFFDFEFBF s (execDiagAck mb s) :=
  .next (.of State.diagAck_touch)

theorem State.diagRetire_touch {s : State} {mb : Nat} : Touch 0x140BFFDFEFBF s (s.diagRetire mb) :=
  State.mbRun_touch fun _ _ =>
    by
      split
      · exact .of State.mbFail_touch
      · exact .ite (.of State.mbFail_touch) (State.mbWrites_touch fun _ => .of State.mbOk_touch)

theorem execDiagRetire_ends {mb : Fin 1024} {s : State} : Ends 0x140BFFDFEFBF s (execDiagRetire mb s) :=
  .next (.of State.diagRetire_touch)

theorem State.diagRestore_touch {s : State} {mb : Nat} : Touch 0x140BFFDFEFBF s (s.diagRestore mb) :=
  State.mbRun_touch fun _ _ =>
    by
      split
      · exact .of State.mbFail_touch
      · exact .ite (.of State.mbFail_touch) (State.mbWrites_touch fun _ => .of State.mbSet_touch)

theorem execDiagRestore_ends {mb : Fin 1024} {s : State} : Ends 0x140BFFDFEFBF s (execDiagRestore mb s) :=
  .next (.of State.diagRestore_touch)

theorem State.diagSnapshot_touch {s : State} {mb : Nat} : Touch 0x140BFFDFEFBF s (s.diagSnapshot mb) :=
  State.mbRun_touch fun _ _ =>
    .ite
      (.of State.mbFail_touch)
      (.ite
         (.of State.mbFail_touch)
         (.ite (.of State.mbFail_touch) (State.mbWrites_touch fun _ => .of State.mbSet_touch)))

theorem execDiagSnapshot_ends {mb : Fin 1024} {s : State} : Ends 0x140BFFDFEFBF s (execDiagSnapshot mb s) :=
  .next (.of State.diagSnapshot_touch)

theorem State.drainCells_touch {d : Nat} {h : Word} : ∀ {k : Nat} {s : State}, Touch 0x10008C000017 s (s.drainCells d h k).2.2
  | 0, _ => .refl
  | _ + 1, _ => by
    unfold State.drainCells
    exact .iteSnd2 (.iteSnd2 (.of State.qPop_touch) (Touch.of State.qPop_touch |>.then State.drainCells_touch))
      (.of State.qPop_touch)

theorem State.diagDrain_touch {s : State} {mb : Nat} : Touch 0x10018D000017 s (s.diagDrain mb) :=
  State.mbRun_touch fun _ _ =>
    .ite
      (.of State.mbFail_touch)
      (Touch.of State.drainCells_touch |>.then State.mbOk_touch)

theorem execDiagDrain_ends {mb : Fin 1024} {s : State} : Ends 0x10018D000017 s (execDiagDrain mb s) :=
  .next (.of State.diagDrain_touch)

theorem State.timeGet_touch {s : State} {mb : Nat} : Touch 0x10098D11029F s (s.timeGet mb) :=
  State.mbRun_touch fun _ _ => .of State.mbReads_touch

theorem execTimeGet_ends {mb : Fin 1024} {s : State} : Ends 0x10098D11029F s (execTimeGet mb s) :=
  .next (.of State.timeGet_touch)

theorem State.timeSet_touch {s : State} {mb : Nat} : Touch 0x140BFFDFEFBF s (s.timeSet mb) :=
  State.mbRun_touch fun _ _ =>
    .ite
      (.of State.mbFail_touch)
      (.ite (.of State.mbFail_touch) (State.mbWrites_touch fun _ => .of State.mbOk_touch))

theorem execTimeSet_ends {mb : Fin 1024} {s : State} : Ends 0x140BFFDFEFBF s (execTimeSet mb s) :=
  .next (.of State.timeSet_touch)

theorem State.timeDisc_touch {s : State} {mb : Nat} : Touch 0x140BFFDFEFBF s (s.timeDisc mb) :=
  State.mbRun_touch fun _ _ =>
    .ite
      (.of State.mbFail_touch)
      (.ite
         (.of State.mbFail_touch)
         (State.mbWrites_touch fun _ => Touch.of (.part (Keep.upd_net _ _)) |>.then State.mbOk_touch))

theorem execTimeDisc_ends {mb : Fin 1024} {s : State} : Ends 0x140BFFDFEFBF s (execTimeDisc mb s) :=
  .next (.of State.timeDisc_touch)

theorem State.timeAlarm_touch {s : State} {mb : Nat} : Touch 0x140BFFDFEFBF s (s.timeAlarm mb) :=
  State.mbRun_touch fun _ _ =>
    .ite
      (.of State.mbFail_touch)
      (State.mbWrites_touch fun _ => .ite (.of State.mbFail_touch) (.of State.mbOk_touch))

theorem execTimeAlarm_ends {mb : Fin 1024} {s : State} : Ends 0x140BFFDFEFBF s (execTimeAlarm mb s) :=
  .next (.of State.timeAlarm_touch)

theorem State.secRights_touch {s : State} {mb : Nat} : Touch 0x140BFFDFEFBF s (s.secRights mb) :=
  State.mbRun_touch fun _ _ =>
    .ite
      (.of State.mbFail_touch)
      (.ite
         (.of State.mbFail_touch)
         (.ite
            (.of State.mbFail_touch)
            (.ite
               (.of State.mbFail_touch)
               (Touch.of State.setMp_touch |>.trans (State.mbWrites_touch fun _ => .of State.mbOk_touch)))))

theorem execSecRights_ends {mb : Fin 1024} {s : State} : Ends 0x140BFFDFEFBF s (execSecRights mb s) :=
  .next (.of State.secRights_touch)

theorem State.secChallenge_touch {s : State} {mb : Nat} : Touch 0x100101000087 s (s.secChallenge mb) :=
  State.mbRun_touch fun _ _ =>
    Touch.of State.free_touch
      |>.then State.free_touch
      |>.then State.free_touch
      |>.then State.free_touch
      |>.then State.setMp_touch_rfl
      |>.then State.mbOk_touch

theorem execSecChallenge_ends {mb : Fin 1024} {s : State} : Ends 0x100101000087 s (execSecChallenge mb s) :=
  .next (.of State.secChallenge_touch)

theorem State.unlockAt_touch {s : State} {level : Nat} : Touch 0x10100000002 s (s.unlockAt level) :=
  Touch.of .upd_mp_unlock |>.then State.setRb_touch

theorem State.unlockFailed_touch {s : State} : Touch 0x100000000 s (s.unlockFailed) :=
  .ite (.of State.setMp_touch) (.of State.setMp_touch)

theorem State.secUnlock_touch {s : State} {mb : Nat} : Touch 0x110101000007 s (s.secUnlock mb) :=
  State.mbRun_touch fun _ _ =>
    .ite
      (.of State.mbFail_touch)
      (by
         split
         · exact .of State.mbFail_touch
         · exact Touch.of State.setMp_touch
             |>.trans (.ite
                (.of State.mbFail_touch)
                (.ite
                   (.of State.mbFail_touch)
                   (.ite
                      (Touch.of State.unlockAt_touch |>.then State.mbOk_touch)
                      (Touch.of State.unlockFailed_touch |>.then State.mbFail_touch)))))

theorem execSecUnlock_ends {mb : Fin 1024} {s : State} : Ends 0x110101000007 s (execSecUnlock mb s) :=
  .next (.of State.secUnlock_touch)

theorem State.secLock_touch {s : State} {mb : Nat} : Touch 0x110101000007 s (s.secLock mb) :=
  State.mbRun_touch fun _ _ =>
    Touch.of .upd_mp_unlock
      |>.then State.setRb_touch
      |>.then State.setPow_touch
      |>.then State.setRb_touch
      |>.then State.testChange_touch
      |>.then State.mbOk_touch

theorem execSecLock_ends {mb : Fin 1024} {s : State} : Ends 0x110101000007 s (execSecLock mb s) :=
  .next (.of State.secLock_touch)

theorem State.calEnded_touch {s : State} {r : MbRequest} : Touch 0x100101000007 s (s.calEnded r) :=
  .ite .refl (.of State.mbOk_touch)

theorem State.restoreEnded_touch {s : State} {r : MbRequest} : Touch 0x100101000007 s (s.restoreEnded r) :=
  .ite .refl (.of State.mbOk_touch)

theorem State.hidePair_touch {s : State} {d i : Nat} : Touch 0x4000010 s (s.hidePair d i) :=
  .ite (Touch.of State.setMword_touch |>.then State.setMword_touch) .refl

theorem State.snapshotGoes_touch {s : State} {r : MbRequest} : Touch 0x100105000517 s (s.snapshotGoes r) := by
  unfold State.snapshotGoes
  dsimp only
  exact
    .ite
      (.ite
         .refl
         (.afterAll (.ite
             (.after State.mbFail_touch <| .of State.snapCancel_touch)
             (.of State.mbSet_touch)) <|
          .after State.snapArm_touch <|
          .of State.setRb_touch))
      (.ite .refl (.after State.mbOk_touch <| .foldl fun t x => .of State.hidePair_touch))

theorem State.mbWaiting_touch {s : State} {mb : Nat} : Touch 0x100105000517 s (s.mbWaiting mb) :=
  .ite
    .refl
    (.foldl fun t x =>
       .ite
         (.of State.calEnded_touch)
         (.ite (.of State.restoreEnded_touch) (.ite (.of State.snapshotGoes_touch) .refl)))

theorem execResponsePush_ends {mb : Fin 1024} {s : State} : Ends 0x10018D000517 s (execResponsePush mb s) :=
  .next (Touch.of State.mbWaiting_touch |>.then State.responsePush_touch)

end Sys2Proof.Machine
end

section
/-!
What the operations of the recipes may touch.
-/
namespace Sys2Proof.Machine
open Sys2Proof
set_option Elab.async false

theorem State.flashJob_touch {s : State} {j : FlashJob} {ok : Bool} : Touch 0x36000096 s (s.flashJob j ok).2 :=
  Touch.of State.setReg_touch
    |>.trans (.ite .refl (.foldl fun t x => .of State.setReg_touch))
    |>.then State.flashCmd_touch
    |>.trans (.iteSnd .refl (Touch.of State.cachesMiss_touch |>.then State.flashDone_touch))

theorem State.flashJobs_touch {bad : Option Nat} : ∀ {l : List FlashJob} {s : State} {i : Nat},
    Touch 0x36000096 s (s.flashJobs bad i l).2
  | [], _, _ => .refl
  | _ :: _, _, _ => by
    unfold State.flashJobs
    split
    · exact Touch.ofPair ‹_› (.of State.flashJob_touch) |>.then State.flashJobs_touch
    · exact Touch.ofPair ‹_› (.of State.flashJob_touch)

theorem State.flashRun_touch {s : State} {verify : Bool} {l : List FlashJob} :
    Touch 0x36000096 s (s.flashRun verify l).2 :=
  .iteSnd (.of State.flashJobs_touch) (Touch.of State.free_touch |>.then State.flashJobs_touch)

theorem State.flashReady_touch {w : Nat} {s : State} {r : MbRequest} {b : Nat} {act : State → State}
    (h : ∀ t, Touch w t (act t)) (hw : (0x100101000007 ||| w == w) = true := by rfl) : Touch w s (s.flashReady r b act) :=
  .ite .refl (.ite (State.mbFail_touch.mono hw) (h _))

theorem State.flashWords_touch : ∀ {n : Nat} {s : State} {a : Nat}, Touch 0x87 s (s.flashWords a n).2
  | 0, _, _ => .refl
  | _ + 1, _, _ => by
    unfold State.flashWords
    split
    · exact Touch.ofPair ‹_› (.of State.flashWord_touch)
    · next t first =>
      have read : Touch 0x87 _ t := .ofPair first (.of State.flashWord_touch)
      split
      · exact read.trans (.ofPair ‹_› State.flashWords_touch)
      · exact read.trans (.ofPair ‹_› State.flashWords_touch)

theorem State.eraseSectors_touch {s : State} {l : List Nat} : Touch 0x136000096 s (s.eraseSectors l) :=
  Touch.of State.flashRun_touch |>.then State.setMp_touch

theorem State.recordRoom_touch {s : State} {k : Nat} : Touch 0x136000096 s (s.recordRoom k).2 := by
  unfold State.recordRoom
  split
  · exact .refl
  · exact .of State.eraseSectors_touch

theorem State.setStore_touch {s : State} {x : RecipeStore} : Touch 0x100000000 s (s.setStore x) :=
  .of State.setMp_touch

theorem State.dropStore_touch {s : State} {mb : Nat} : Touch 0x100000000 s (s.dropStore mb) := .of State.setMp_touch

theorem State.storeFail_touch {s : State} {r : MbRequest} {x : RecipeStore} {status info : Nat} :
    Touch 0x100101000007 s (s.storeFail r x status info) := Touch.of State.setStore_touch |>.then State.mbFail_touch

theorem State.rcpBegin_touch {s : State} {mb : Nat} : Touch 0x100137000097 s (s.rcpBegin mb) := by
  unfold State.rcpBegin
  refine State.mbRun_touch fun r t => State.flashReady_touch fun u => ?_
  extract_lets id len v
  have begun : Touch 0x100137000097 u v := by
    unfold v
    split
    · exact .ite (.of State.dropStore_touch) .refl
    · exact .refl
  refine .ite (begun.then State.mbFail_touch) <| .ite (begun.then State.mbFail_touch) <|
    .ite (begun.then State.mbFail_touch) <| .ite (begun.then State.mbFail_touch) <| .ite (begun.then State.mbFail_touch) ?_
  split
  · exact .after State.mbFail_touch <| .ofPair ‹_› (begun.then State.recordRoom_touch)
  · extract_lets
    split
    exact .after State.mbOk_touch <| .after State.setMp_touch <|
      .ofPair ‹_› (.after State.flashRun_touch <| .ofPair ‹_› (begun.then State.recordRoom_touch))

theorem execRcpBegin_ends {mb : Fin 1024} {s : State} : Ends 0x100137000097 s (execRcpBegin mb s) :=
  .next (.of State.rcpBegin_touch)

theorem State.rcpData_touch {s : State} {mb : Nat} {verify : Bool} : Touch 0x100137000097 s (s.rcpData mb verify) := by
  unfold State.rcpData
  dsimp only
  refine State.mbRun_touch fun _ _ => ?_
  refine State.flashReady_touch fun _ => ?_
  split
  · exact .of State.mbFail_touch
  · refine .ite ?_ ?_
    · exact .of State.storeFail_touch
    · refine .ite ?_ ?_
      · exact .of State.storeFail_touch
      · split
        · exact
            .after State.mbOk_touch <|
            .after State.setStore_touch <|
            .ofPair ‹_› (.of State.flashRun_touch)
        · exact .after State.storeFail_touch <| .ofPair ‹_› (.of State.flashRun_touch)

theorem execRcpData_ends {mb : Fin 1024} {verify : Bool} {s : State} :
    Ends 0x100137000097 s (execRcpData mb verify s) := .next (.of State.rcpData_touch)

theorem State.storeTimeout_touch {s : State} {mb : Nat} : Touch 0x100000000 s (s.storeTimeout mb) := by
  unfold State.storeTimeout
  split
  · exact .ite (.of State.dropStore_touch) .refl
  · exact .refl

theorem execRecipeStoreTimeout_ends {mb : Fin 1024} {s : State} : Ends 0x100000000 s (execRecipeStoreTimeout mb s) :=
  .next (.of State.storeTimeout_touch)

theorem State.rcpCommit_touch {s : State} {mb : Nat} {verify : Bool} :
    Touch 0x100137000097 s (s.rcpCommit mb verify) :=
  State.mbRun_touch fun _ _ =>
    State.flashReady_touch fun _ =>
      by
        split
        · exact .of State.mbFail_touch
        · exact .ite
            (.of State.storeFail_touch)
            (Touch.of State.flashWords_touch
               |>.trans (by
                  split
                  · exact Touch.ofPair ‹_› .refl |>.then State.storeFail_touch
                  · exact Touch.ofPair ‹_› .refl
                      |>.trans (by
                         split
                         · exact .of State.storeFail_touch
                         · exact Touch.of State.flashRun_touch
                             |>.trans (by
                                split
                                · exact Touch.ofPair ‹_› .refl |>.then State.storeFail_touch
                                · exact Touch.ofPair ‹_› .refl
                                    |>.then State.dropStore_touch
                                    |>.then State.setMp_touch
                                    |>.then State.mbOk_touch))))

theorem execRcpCommit_ends {mb : Fin 1024} {verify : Bool} {s : State} :
    Ends 0x100137000097 s (execRcpCommit mb verify s) := .next (.of State.rcpCommit_touch)

theorem State.rcpList_touch {s : State} {mb : Nat} : Touch 0x100101000007 s (s.rcpList mb) :=
  State.mbRun_touch fun _ _ => .of State.mbOk_touch

theorem execRcpList_ends {mb : Fin 1024} {s : State} : Ends 0x100101000007 s (execRcpList mb s) :=
  .next (.of State.rcpList_touch)

theorem State.rcpDelete_touch {s : State} {mb : Nat} {verify : Bool} :
    Touch 0x100137000097 s (s.rcpDelete mb verify) := by
  unfold State.rcpDelete
  dsimp only
  refine State.mbRun_touch fun _ _ => ?_
  refine State.flashReady_touch fun _ => ?_
  split
  · exact .of State.mbFail_touch
  · split
    · exact .after State.mbFail_touch <| .ofPair ‹_› (.of State.recordRoom_touch)
    · split
      · exact
          .after State.mbFail_touch <|
          .ofPair ‹_› (.after State.flashRun_touch <| .ofPair ‹_› (.of State.recordRoom_touch))
      · exact
          .after State.mbOk_touch <|
          .after State.setMp_touch <|
          .ofPair ‹_› (.after State.flashRun_touch <| .ofPair ‹_› (.of State.recordRoom_touch))

theorem execRcpDelete_ends {mb : Fin 1024} {verify : Bool} {s : State} :
    Ends 0x100137000097 s (execRcpDelete mb verify s) := .next (.of State.rcpDelete_touch)

theorem State.recordBody_touch {s : State} {r : RecipeRecord} : Touch 0x87 s (s.recordBody r).2 := by
  unfold State.recordBody
  split
  · exact .pair <| .ofPair ‹_› (.of State.flashWords_touch)
  · split
    · exact .pair <| .ofPair ‹_› (.after State.flashWords_touch <| .ofPair ‹_› (.of State.flashWords_touch))
    · exact .pair <| .ofPair ‹_› (.after State.flashWords_touch <| .ofPair ‹_› (.of State.flashWords_touch))

/-- What a write of a master may touch, whatever function makes it. -/
structure WriteTouches (f : State → Master → Nat → Nat → Nat → Word → BusResult × State) : Prop where
  touch : ∀ s m d a n v, Touch 0x140BFFDFEFBF s (f s m d a n v).2

/-- The same of a function that stages a word. The proofs about them take the function that they call as a variable: an
access at a staging alias evaluates by unary steps, which no proof about it should begin. -/
structure StageTouches (f : State → StagingCount → Nat → Nat → Word → StagingCount × State) : Prop where
  touch : ∀ s c ofs a v, Touch 0x140BFFDFEFBF s (f s c ofs a v).2

theorem State.stageWord_touches : StageTouches State.stageWord := by
  have write : WriteTouches State.writeAs := ⟨fun _ _ _ _ _ _ => State.writeAs_touch⟩
  delta State.stageWord
  revert write
  generalize State.writeAs = W
  revert W
  refine id fun W write => ⟨fun s c ofs a v => ?_⟩
  have written := write.touch s .mp 0 (a + 0x800000) 4 v
  generalize W s .mp 0 (a + 0x800000) 4 v = p at written ⊢
  obtain ⟨r, t⟩ := p
  cases r with
  | error e => exact written
  | done => exact .iteSnd written written
  | data w => exact .iteSnd written written

theorem State.stageWord_touch {s : State} {c : StagingCount} {ofs a : Nat} {v : Word} :
    Touch 0x140BFFDFEFBF s (s.stageWord c ofs a v).2 := State.stageWord_touches.touch s c ofs a v

structure StagesTouch (f : State → StagingCount → Nat → Nat → List Word → StagingCount × State) : Prop where
  touch : ∀ l s c ofs a, Touch 0x140BFFDFEFBF s (f s c ofs a l).2

theorem State.stageValues_touches : StagesTouch State.stageValues := by
  have stage := State.stageWord_touches
  delta State.stageValues State.stageValues._f
  revert stage
  generalize State.stageWord = W
  revert W
  refine id fun W stage => ⟨fun l => ?_⟩
  induction l with
  | nil => exact fun _ _ _ _ => .refl
  | cons v r ih =>
    intro s c ofs a
    exact (stage.touch s c ofs a v).trans (ih (W s c ofs a v).2 (W s c ofs a v).1 ofs (a + 4))

theorem State.stageValues_touch {ofs : Nat} {l : List Word} {s : State} {c : StagingCount} {a : Nat} :
    Touch 0x140BFFDFEFBF s (s.stageValues c ofs a l).2 := State.stageValues_touches.touch l s c ofs a

structure EntriesTouch (f : State → StagingCount → List RecipeEntry → StagingCount × State) : Prop where
  touch : ∀ l s c, Touch 0x140BFFDFEFBF s (f s c l).2

theorem State.stageEntries_touches : EntriesTouch State.stageEntries := by
  have stage := State.stageValues_touches
  delta State.stageEntries State.stageEntries._f
  revert stage
  generalize State.stageValues = W
  revert W
  refine id fun W stage => ⟨fun l => ?_⟩
  induction l with
  | nil => exact fun _ _ => .refl
  | cons e r ih =>
    intro s c
    exact .iteSnd (ih s c) ((stage.touch e.values s c e.ofs e.addr).trans
      (ih (W s c e.ofs e.addr e.values).2 (W s c e.ofs e.addr e.values).1))

theorem State.stageEntries_touch {l : List RecipeEntry} {s : State} {c : StagingCount} :
    Touch 0x140BFFDFEFBF s (s.stageEntries c l).2 := State.stageEntries_touches.touch l s c

theorem State.loadRecipe_touch {s : State} {mb : Option Nat} {r : RecipeRecord} {strict : Bool} :
    Touch 0x140BFFDFEFBF s (s.loadRecipe mb r strict).2 := by
  unfold State.loadRecipe
  dsimp only
  split
  · exact .pair <| .ofPair ‹_› (.of State.recordBody_touch)
  · refine .iteSnd ?_ ?_
    · exact
        .pair <| .after State.epOpen_touch <|
        .afterAll (.foldl fun t x => .of State.measureEnd_touch) <|
        .ofPair ‹_› (.of State.recordBody_touch)
    · split
      · exact
          .pair <| .after State.epAbandon_touch <|
          .after State.stageEntries_touch <|
          .after State.epOpen_touch <|
          .afterAll (.foldl fun t x => .of State.measureEnd_touch) <|
          .ofPair ‹_› (.of State.recordBody_touch)
      · exact
          .pair <| .after State.setMp_touch <|
          .after State.epStage_touch <|
          .after State.stageEntries_touch <|
          .after State.epOpen_touch <|
          .afterAll (.foldl fun t x => .of State.measureEnd_touch) <|
          .ofPair ‹_› (.of State.recordBody_touch)

theorem State.rcpLoad_touch {s : State} {mb : Nat} : Touch 0x140BFFDFEFBF s (s.rcpLoad mb) :=
  State.mbRun_touch fun _ _ =>
    .ite
      (.of State.mbFail_touch)
      (by
         split
         · exact .of State.mbFail_touch
         · exact Touch.of State.loadRecipe_touch
             |>.trans (by
                split
                · exact Touch.ofPair ‹_› .refl |>.then State.mbFail_touch
                · exact Touch.ofPair ‹_› .refl
                    |>.trans (.ite
                       (Touch.of State.free_touch |>.then State.free_touch |>.then State.mbOk_touch)
                       (Touch.of State.mpHaul_touch
                          |>.trans (.ite (.of State.mbOk_touch) (.of State.mbRespond_touch))))))

theorem execRcpLoad_ends {mb : Fin 1024} {s : State} : Ends 0x140BFFDFEFBF s (execRcpLoad mb s) :=
  .next (.of State.rcpLoad_touch)

theorem State.rcpHaul_touch {s : State} {mb : Nat} : Touch 0x10010100038F s (s.rcpHaul mb) :=
  State.mbRun_touch fun _ _ =>
    by
      split
      · exact .of State.mbFail_touch
      · exact by
          split
          · exact Touch.of State.free_touch |>.then State.free_touch |>.then State.mbOk_touch
          · exact Touch.of State.epAbandon_touch |>.trans (.ite (.of State.mbOk_touch) (.of State.mbFail_touch))
          · exact Touch.of State.mpHaul_touch |>.trans (.ite (.of State.mbOk_touch) (.of State.mbFail_touch))

theorem execRcpHaul_ends {mb : Fin 1024} {s : State} : Ends 0x10010100038F s (execRcpHaul mb s) :=
  .next (.of State.rcpHaul_touch)

theorem State.directApply_touch {s : State} : Touch 0x140BFFDFEFBF s (s.directApply) := by
  unfold State.directApply
  dsimp only
  exact
    .ite
      .refl
      (.after State.setMp_touch <| .foldl fun t x => .foldl fun t x => .of State.writeAs_touch)

theorem execRecipeDirectApply_ends {s : State} : Ends 0x140BFFDFEFBF s (execRecipeDirectApply s) :=
  .next (.of State.directApply_touch)

theorem State.setAutostart_touch {s : State} {v : Nat} : Touch 0x100000000 s (s.setAutostart v) :=
  .of State.setMp_touch

theorem State.autostartHaul_touch {s : State} {i : Nat} : Touch 0x10000030E s (s.autostartHaul i) :=
  Touch.of State.mpHaul_touch |>.then State.setAutostart_touch

theorem State.autostartLoad_touch {s : State} : Touch 0x140BFFDFEFBF s (s.autostartLoad) := by
  unfold State.autostartLoad
  dsimp only
  split
  · exact .refl
  · split
    · exact
        .after State.setAutostart_touch <|
        .ofPair ‹_› (.after State.loadRecipe_touch <| .of State.setMp_touch)
    · exact
        .afterAll (.ite
           (.of State.autostartHaul_touch)
           (.after State.mpWrites_touch <| .of State.setMp_touch)) <|
        .ofPair ‹_› (.after State.loadRecipe_touch <| .of State.setMp_touch)

theorem State.autostartSource_touch {s : State} : Touch 0x140BFFDFEFBF s (s.autostartSource) := by
  unfold State.autostartSource
  dsimp only
  refine .ite ?_ ?_
  · exact .refl
  · refine .after State.setMp_touch ?_
    refine .after State.mpWrites_touch ?_
    split
    · exact .of State.autostartHaul_touch
    · exact .of State.setAutostart_touch

theorem execAutostartSourceHaul_ends {s : State} : Ends 0x140BFFDFEFBF s (execAutostartSourceHaul s) :=
  .next (.of State.autostartSource_touch)

end Sys2Proof.Machine
end

section
/-!
What the operations of firmware, boot and start-up may touch.
-/
namespace Sys2Proof.Machine
open Sys2Proof
set_option Elab.async false

theorem State.marker_touch {s : State} {b : Bool} {i : Nat} : Touch 0x87 s (s.marker b i).2 := by
  unfold State.marker
  split
  · exact .pair <| .ofPair ‹_› (.of State.flashWords_touch)
  · exact .pair <| .ofPair ‹_› (.of State.flashWords_touch)

theorem State.markers_touch {s : State} {b : Bool} : Touch 0x87 s (s.markers b).2 :=
  Touch.of State.marker_touch |>.then State.marker_touch |>.then State.marker_touch

theorem State.fwWord_touch {s : State} {b : Bool} {i : Nat} : Touch 0x87 s (s.fwWord b i).2 := by
  unfold State.fwWord
  split
  · exact .pair <| .ofPair ‹_› (.of State.flashWord_touch)
  · exact .after State.free_touch <| .ofPair ‹_› (.of State.flashWord_touch)

theorem State.imageCheck_touch {s : State} {b : Bool} : Touch 0x87 s (s.imageCheck b).2 := by
  unfold State.imageCheck
  dsimp only
  split
  · exact .pair <| .ofPair ‹_› (.of State.flashWords_touch)
  · refine .iteSnd ?_ ?_
    · exact .pair <| .ofPair ‹_› (.of State.flashWords_touch)
    · split
      · exact .pair <| .ofPair ‹_› (.after State.flashWords_touch <| .ofPair ‹_› (.of State.flashWords_touch))
      · exact .pair <| .ofPair ‹_› (.after State.flashWords_touch <| .ofPair ‹_› (.of State.flashWords_touch))

theorem State.fwBegin_touch {s : State} {mb : Nat} {verify : Bool} : Touch 0x100137000097 s (s.fwBegin mb verify) := by
  unfold State.fwBegin
  dsimp only
  refine State.mbRun_touch fun _ _ => ?_
  refine State.flashReady_touch fun _ => ?_
  refine .ite ?_ ?_
  · exact .after State.mbFail_touch <| .iteSnd .refl (.of State.marker_touch)
  · refine .ite ?_ ?_
    · exact .after State.mbFail_touch <| .iteSnd .refl (.of State.marker_touch)
    · split
      · exact
          .after State.mbFail_touch <|
          .after State.setMp_touch <|
          .ofPair ‹_› (.after State.flashRun_touch <| .iteSnd .refl (.of State.marker_touch))
      · exact
          .after State.mbOk_touch <|
          .after State.setMp_touch <|
          .ofPair ‹_› (.after State.flashRun_touch <| .iteSnd .refl (.of State.marker_touch))

theorem execFwBegin_ends {mb : Fin 1024} {verify : Bool} {s : State} :
    Ends 0x100137000097 s (execFwBegin mb verify s) := .next (.of State.fwBegin_touch)

theorem State.fwData_touch {s : State} {mb : Nat} {verify : Bool} : Touch 0x100137000097 s (s.fwData mb verify) := by
  unfold State.fwData
  dsimp only
  refine State.mbRun_touch fun _ _ => ?_
  refine State.flashReady_touch fun _ => ?_
  split
  · exact .of State.mbFail_touch
  · refine .ite ?_ ?_
    · exact .of State.mbFail_touch
    · refine .ite ?_ ?_
      · exact .of State.mbFail_touch
      · split
        · exact .after State.mbOk_touch <| .after State.setMp_touch <| .ofPair ‹_› (.of State.flashRun_touch)
        · exact
            .after State.mbFail_touch <|
            .after State.setMp_touch <|
            .ofPair ‹_› (.of State.flashRun_touch)

theorem execFwData_ends {mb : Fin 1024} {verify : Bool} {s : State} :
    Ends 0x100137000097 s (execFwData mb verify s) := .next (.of State.fwData_touch)

theorem State.fwVerify_touch {s : State} {mb : Nat} : Touch 0x100101000087 s (s.fwVerify mb) :=
  State.mbRun_touch fun _ _ =>
    by
      split
      · exact .of State.mbFail_touch
      · exact .ite
          (.of State.mbFail_touch)
          (Touch.of State.imageCheck_touch
             |>.trans (by
                split
                · exact Touch.ofPair ‹_› .refl |>.then State.mbFail_touch
                · exact Touch.ofPair ‹_› .refl |>.then State.mbFail_touch
                · exact Touch.ofPair ‹_› .refl
                    |>.trans (.ite
                       (.of State.mbFail_touch)
                       (Touch.of State.fwWord_touch
                          |>.then State.fwWord_touch
                          |>.then State.setMp_touch_rfl
                          |>.then State.mbOk_touch))))

theorem execFwVerify_ends {mb : Fin 1024} {s : State} : Ends 0x100101000087 s (execFwVerify mb s) :=
  .next (.of State.fwVerify_touch)

theorem State.fwActivate_touch {s : State} {mb : Nat} {verify : Bool} :
    Touch 0x100137000097 s (s.fwActivate mb verify) :=
  State.mbRun_touch fun _ _ =>
    State.flashReady_touch fun _ =>
      by
        split
        · exact .of State.mbFail_touch
        · exact .ite
            (.of State.mbFail_touch)
            (Touch.of State.flashRun_touch
               |>.trans (by
                  split
                  · exact Touch.ofPair ‹_› .refl |>.then State.mbFail_touch
                  · exact Touch.ofPair ‹_› .refl
                      |>.then State.setMp_touch
                      |>.then State.mbSet_touch
                      |>.then State.mbOk_touch))

theorem execFwActivate_ends {mb : Fin 1024} {verify : Bool} {s : State} :
    Ends 0x100137000097 s (execFwActivate mb verify s) := .next (.of State.fwActivate_touch)

theorem State.lockSlot_touch {s : State} {b : Bool} : Touch 0x2 s (s.lockSlot b) := .of State.flLockWrite_touch

theorem State.fwCommit_touch {s : State} {mb : Nat} {verify : Bool} : Touch 0x120137000097 s (s.fwCommit mb verify) := by
  have counted {t : State} {v : Nat} : Touch 0x20100000000 t (t.setMp { t.mp with rollback := max t.mp.rollback v }) :=
    .upd_mp_rollback (Nat.le_max_left _ _)
  unfold State.fwCommit
  refine State.mbRun_touch fun _ _ => State.flashReady_touch fun u => ?_
  split
  next n v e =>
  have read : Touch 0x120137000097 u v := .ofPair e (.of State.markers_touch)
  refine .ite (read.then State.mbFail_touch) ?_
  split
  · exact .after State.mbFail_touch <| .ofPair ‹_› (read.then State.flashRun_touch)
  · exact .after State.mbOk_touch <| .after State.lockSlot_touch <| .after counted <| .after State.fwWord_touch <|
      .ofPair ‹_› (read.then State.flashRun_touch)

theorem execFwCommit_ends {mb : Fin 1024} {verify : Bool} {s : State} :
    Ends 0x120137000097 s (execFwCommit mb verify s) := .next (.of State.fwCommit_touch)

theorem State.slotWords_touch {s : State} {b : Bool} : Touch 0x87 s (s.slotWords b).2 := by
  unfold State.slotWords
  dsimp only
  exact
    .after State.markers_touch <|
    .after State.fwWord_touch <|
    .of State.fwWord_touch

theorem State.fwStatus_touch {s : State} {mb : Nat} : Touch 0x100101000087 s (s.fwStatus mb) := by
  unfold State.fwStatus
  dsimp only
  exact
    State.mbRun_touch fun _ _ =>
      .after State.mbOk_touch <|
      .after State.slotWords_touch <|
      .of State.slotWords_touch

theorem execFwStatus_ends {mb : Fin 1024} {s : State} : Ends 0x100101000087 s (execFwStatus mb s) :=
  .next (.of State.fwStatus_touch)

theorem State.takeCut_touch {s : State} {b : Nat} : Touch 0x130000006 s (s.takeCut b) :=
  .ite (Touch.of State.setMp_touch |>.then State.flashCmd_touch) .refl

theorem State.candidates_touch {s : State} : Touch 0x87 s (s.candidates).2 := by
  unfold State.candidates
  dsimp only
  exact
    .after State.fwWord_touch <|
    .after State.fwWord_touch <|
    .after State.markers_touch <|
    .of State.markers_touch

theorem State.firstValid_touch : ∀ {l : List (Bool × Bool)} {s : State}, Touch 0x36000097 s (s.firstValid l).2
  | [], _ => .refl
  | (b, trial) :: _, s => by
    have tried : Touch 0x36000097 s (if trial then (s.flashRun true [markerJob b 1]).2 else s) :=
      .ite (.of State.flashRun_touch) .refl
    unfold State.firstValid
    dsimp only
    split
    · exact tried.trans (.ofPair ‹_› (.of State.imageCheck_touch))
    · exact tried.trans (.ofPair ‹_› (.of State.imageCheck_touch)) |>.then State.firstValid_touch

theorem State.homeMailbox_touch {s : State} {d : Nat} : Touch 0x180000006 s (s.homeMailbox d) :=
  .of State.mailboxSet_touch

theorem State.recoveryStart_touch {s : State} : Touch 0x180000086 s (s.recoveryStart) :=
  Touch.of State.freeBit_touch
    |>.then State.setMp_touch_rfl
    |>.then State.setRb_touch
    |>.then State.homeMailbox_touch

theorem State.bootRom_touch {s : State} : Touch 0x1B7000097 s (s.bootRom) := by
  unfold State.bootRom
  dsimp only
  refine .ite ?_ ?_
  · exact .refl
  · refine .ite ?_ ?_
    · exact
        .after State.recoveryStart_touch <|
        .afterAll (.ite .refl (.of State.flag_touch)) <|
        .after State.takeCut_touch <|
        .after State.takeCut_touch <|
        .of State.setPow_touch
    · split
      · exact
          .after State.recoveryStart_touch <|
          .ofPair ‹_› (.after State.firstValid_touch <|
           .after State.candidates_touch <|
           .afterAll (.ite .refl (.of State.flag_touch)) <|
           .after State.takeCut_touch <|
           .after State.takeCut_touch <|
           .of State.setPow_touch)
      · exact
          .after State.setReg_touch <|
          .after State.setMp_touch <|
          .ofPair ‹_› (.after State.firstValid_touch <|
           .after State.candidates_touch <|
           .afterAll (.ite .refl (.of State.flag_touch)) <|
           .after State.takeCut_touch <|
           .after State.takeCut_touch <|
           .of State.setPow_touch)

theorem execBootRom_ends {s : State} : Ends 0x1B7000097 s (execBootRom s) := .next (.of State.bootRom_touch)

theorem State.timeFromCalendar_touch {s : State} : Touch 0x4000000100 s (s.timeFromCalendar) :=
  .ite .refl (.of State.changeD_touch)

theorem State.calibrateCore_touch {s : State} {i : Nat} : Touch 0x100000020087 s (s.calibrateCore i) := by
  unfold State.calibrateCore
  dsimp only
  exact
    .after State.calibrationDone_touch <|
    .afterAll (.foldlPair fun t x => .pair <| .of State.free_touch) <|
    .afterAll (.foldlPair fun t x => .pair <| .of State.free_touch) <|
    .after State.freeBit_touch <|
    .of State.acCalWrite_touch

theorem State.otherMailboxesOff_touch {s : State} : Touch 0x180000006 s (s.otherMailboxesOff) :=
  .foldl fun t x => .of State.mailboxSet_touch

theorem State.mpDefaults_touch {s : State} : Touch 0x180000006 s (s.mpDefaults) :=
  Touch.of State.setMp_touch
    |>.then State.otherMailboxesOff_touch
    |>.trans (.foldl fun t x => .of State.homeMailbox_touch)

theorem State.ottarStore_touch {s : State} : Touch 0x100000087 s (s.ottarStore) :=
  Touch.of State.marker_touch |>.trans (.ite (.of State.lockSlot_touch) .refl) |>.then State.setMp_touch_rfl

theorem State.ottarDevice_touch {s : State} : Touch 0x144BFFDFEFBF s (s.ottarDevice) := by
  unfold State.ottarDevice
  dsimp only
  exact
    .afterAll (.ite .refl (.foldl fun t x => .of State.scanStart_touch)) <|
    .afterAll (.foldl fun t x => .of State.measureStart_touch) <|
    .afterAll (.foldl fun t x => .of State.calibrateCore_touch) <|
    .afterAll (.foldl fun t x => .of State.islandUp_touch) <|
    .afterAll (.ite (.of State.timeFromCalendar_touch) .refl) <|
    .after State.faultN_touch <|
    .after (.part (Keep.upd_faults _ _)) <|
    .of State.setReg_touch

/-- What the start of Ottar's software has done once it serves its mailboxes (R481). -/
def State.ottarServes (s : State) : State :=
  let t := (if s.pow.coldWake then s.ottarStore else s.ottarStore.ottarDevice).mpDefaults
  t.setMp { t.mp with started := true, serving := true }

theorem State.ottarServes_touch {s : State} : Touch 0x144BFFDFEFBF s s.ottarServes := by
  have started {t : State} : Touch 0x100000000 t (t.setMp { t.mp with started := true, serving := true }) :=
    State.setMp_touch
  exact .after started <| .after State.mpDefaults_touch <|
    .ite (.of State.ottarStore_touch) (.after State.ottarDevice_touch <| .of State.ottarStore_touch)

theorem State.ottarStartup_eq (s : State) : s.ottarStartup =
    if s.pow.booting || s.mp.recovery || s.mp.started || s.mp.restarting || s.device != .run then s
    else if s.pow.coldWake || s.ottarServes.rb R.PW_BOOT 1 then s.ottarServes
    else s.ottarServes.autostartLoad := rfl

theorem State.ottarStartup_touch {s : State} : Touch 0x144BFFDFEFBF s s.ottarStartup := by
  rw [State.ottarStartup_eq]
  exact .ite .refl (.afterAll (.ite .refl (.of State.autostartLoad_touch)) (.of State.ottarServes_touch))

theorem execOttarStartup_ends {s : State} : Ends 0x144BFFDFEFBF s (execOttarStartup s) :=
  .next (.of State.ottarStartup_touch)

end Sys2Proof.Machine
end

section
/-!
What the operations of a tick of time may touch.
-/
namespace Sys2Proof.Machine
open Sys2Proof
set_option Elab.async false

theorem State.countTick_touch {s : State} : Touch 0x42000000100 s (s.countTick) :=
  Touch.of (.part (Keep.upd_xmNow _ _)) |>.trans (.ite (.of .upd_clk_beats) (.of .upd_clk_beats))

theorem State.oscTick_touch {s : State} : Touch 0x8000000101 s (s.oscTick) :=
  .ite (Touch.of State.setClk_touch |>.then State.oscEdge_touch) (.of State.setClk_touch)

theorem State.unitsTick_touch {s : State} : Touch 0x100104090317 s (s.unitsTick) :=
  .foldl fun t x => .of State.tuTick_touch

theorem State.setBall_touch {s : State} {n b : Nat} {l : Bool} : Touch 0x801 s (s.setBall n b l) :=
  .ite .refl (Touch.of State.setLine_touch |>.then State.enqueue_touch)

theorem State.ballsTick_touch {s : State} : Touch 0x801 s (s.ballsTick) :=
  .foldl fun t x =>
    by
      split
      · exact .ite
          (by
             split
             · exact .of State.setBall_touch
             · exact .refl)
          .refl
      · exact .refl

theorem State.outputsTick_touch {s : State} : Touch 0x10000 s (s.outputsTick) :=
  .foldl fun t x => .of State.noteOutputs_touch

theorem State.comparatorsTick_touch {s : State} : Touch 0x100000040807 s (s.comparatorsTick) :=
  .foldl fun t x => .of State.cpTick_touch

theorem State.orderedReset_touch {s : State} : Touch 0x1000001 s (s.orderedReset) := by
  unfold State.orderedReset
  split
  · exact .ite (Touch.of State.setPow_touch |>.then State.orderReset_touch) .refl
  · exact .refl

theorem State.deviceTick_touch {s : State} : Touch 0x1421050D2B17 s (s.deviceTick) :=
  Touch.of State.countTick_touch
    |>.then State.lateTick_touch
    |>.trans (.ite (Touch.of State.enqueue_touch |>.then State.orderedReset_touch) .refl)
    |>.then State.unitsTick_touch
    |>.then State.outputsTick_touch
    |>.then State.ballsTick_touch
    |>.then State.comparatorsTick_touch
    |>.then State.enqueue_touch
    |>.then State.resetsEnd_touch
    |>.then State.deferredOff_touch

theorem State.clockTick_touch {s : State} : Touch 0x14A1050D2B97 s (s.clockTick) :=
  Touch.of State.oscTick_touch
    |>.then State.pulsesTick_touch
    |>.then State.filtersTick_touch
    |>.trans (.ite (.of State.deviceTick_touch) .refl)

end Sys2Proof.Machine
end

section
/-!
What the operations of the elements of the DMA channels may touch.
-/
namespace Sys2Proof.Machine
open Sys2Proof
set_option Elab.async false

theorem State.dmaFetch_touch {c a : Nat} : ∀ {k : Nat} {s : State} {i : Nat}, Touch 0x10088C11029F s (s.dmaFetch c a i k).2
  | 0, _, _ => .refl
  | _ + 1, _, _ => by
    unfold State.dmaFetch
    split
    · next t first =>
      have read : Touch 0x10088C11029F _ t := .ofPair first (.of State.busRead_touch)
      split
      · exact read.trans (.ofPair ‹_› State.dmaFetch_touch)
      · exact read.trans State.dmaFetch_touch
    · exact Touch.ofPair ‹_› (.of State.busRead_touch)
    · exact Touch.ofPair ‹_› (.of State.busRead_touch)

theorem State.dmaPut_touch {c a : Nat} : ∀ {l : List Word} {s : State} {i : Nat}, Touch 0x140BFFDFEFBF s (s.dmaPut c a i l).2
  | [], _, _ => .refl
  | _ :: _, _, _ => by
    unfold State.dmaPut
    split
    · exact Touch.ofPair ‹_› (.of State.busWrite_touch)
    · exact Touch.ofPair ‹_› (.of State.busWrite_touch) |>.then State.dmaPut_touch

theorem State.dmaMove_touch {s : State} {c i : Nat} : Touch 0x140BFFDFEFBF s (s.dmaMove c i).2 := by
  unfold State.dmaMove
  dsimp only
  split
  · exact .pair <| .ofPair ‹_› (.of State.dmaFetch_touch)
  · split
    · exact .pair <| .ofPair ‹_› (.after State.dmaPut_touch <| .ofPair ‹_› (.of State.dmaFetch_touch))
    · exact .pair <| .ofPair ‹_› (.after State.dmaPut_touch <| .ofPair ‹_› (.of State.dmaFetch_touch))

theorem State.dmaLoad_touch {s : State} {c : Nat} : Touch 0x1008CC11029F s (s.dmaLoad c) :=
  .ite
    (.of State.dmaHalt_touch)
    (Touch.of State.dmaFetch_touch
       |>.trans (by
          split
          · exact Touch.ofPair ‹_› .refl
              |>.trans (.foldl fun t x => .of State.setReg_touch)
              |>.then State.setReg_touch
              |>.then State.dmaBegin_touch
          · exact Touch.ofPair ‹_› .refl |>.then State.dmaHalt_touch))

theorem State.dmaCounted_touch {s : State} {c k : Nat} : Touch 0x1008CC11029F s (s.dmaCounted c k) :=
  Touch.ite
    (Touch.of State.flag_touch |>.trans (.ite (.of State.fireCentral_touch) .refl))
    .refl
    |>.trans (.ite
       (.of State.dmaNext_touch)
       (Touch.of State.flag_touch
          |>.trans (.ite (.of State.fireCentral_touch) .refl)
          |>.trans (.ite
             (.of State.dmaStopped_touch)
             (.ite (Touch.of State.setDmaState_touch |>.then State.setDma_touch) (.of State.dmaLoad_touch)))))

theorem State.dmaResponse_touch {s : State} {c : Nat} : Touch 0x140BFFDFEFBF s (s.dmaResponse c) :=
  .ite
    .refl
    (.ite
       .refl
       (Touch.of State.dmaMove_touch
          |>.trans (by
             split
             · exact Touch.ofPair ‹_› .refl |>.then State.dmaHalt_touch
             · exact Touch.ofPair ‹_› .refl |>.then State.setReg_touch |>.then State.dmaCounted_touch)))

theorem execDmaResponse_ends {c : Fin 64} {s : State} : Ends 0x140BFFDFEFBF s (execDmaResponse c s) :=
  .next (.of State.dmaResponse_touch)

end Sys2Proof.Machine
end

section
/-!
What the operations of the issue of an instruction may touch.
-/
namespace Sys2Proof.Machine
open Sys2Proof
set_option Elab.async false

theorem State.coreRead_touch {s : State} {n a k : Nat} : Touch 0x10088E11029F s (s.coreRead n a k).2 :=
  .iteSnd
    (Touch.of State.freeBit_touch
       |>.trans (.iteSnd .refl (Touch.of State.unstale_touch |>.then State.busRead_touch)))
    (.of State.busRead_touch)

theorem State.mapCtx_touch {s : State} {n : Nat} {f : CoreCtx → CoreCtx} : Touch 0x2000000 s (s.mapCtx n f) := by
  unfold State.mapCtx
  dsimp only
  split
  · exact .after State.setCoreRec_touch <| .of State.setCore_touch
  · exact .of State.setCore_touch

theorem State.clearPair_touch {s : State} {n : Nat} : Touch 0x2000000 s (s.clearPair n) :=
  .ite (.of State.setCoreRec_touch) .refl

theorem State.unitDone_touch {s : State} {n u : Nat} : Touch 0x2000000 s (s.unitDone n u) :=
  .ite
    (by
       split
       · exact .of State.mapCtx_touch
       · exact .refl)
    (by
       split
       · exact .of State.mapCtx_touch
       · exact .refl)

theorem State.blockLoad_touch {n : Nat} {b : BlockOp} : ∀ {l : List CReg} {s : State} {k : Nat},
    Touch 0x10088E11029F s (s.blockLoad n b k l).2.2
  | [], _, _ => .refl
  | _ :: _, _, _ => by
    unfold State.blockLoad
    split
    · exact Touch.ofPair ‹_› (.of State.coreRead_touch) |>.then State.blockLoad_touch
    · exact Touch.ofPair ‹_› (.of State.coreRead_touch)
    · exact Touch.ofPair ‹_› (.of State.coreRead_touch)

theorem State.blockStore_touch {n : Nat} {b : BlockOp} : ∀ {l : List Word} {s : State} {k : Nat},
    Touch 0x140BFFDFEFBF s (s.blockStore n b k l).2
  | [], _, _ => .refl
  | _ :: _, _, _ => by
    unfold State.blockStore
    split
    · exact Touch.ofPair ‹_› (.of State.busWrite_touch)
    · exact Touch.ofPair ‹_› (.of State.busWrite_touch) |>.then State.blockStore_touch

theorem State.blockRun_touch {s : State} {n : Nat} {b : BlockOp} : Touch 0x140BFFDFEFBF s (s.blockRun n b).2.2 :=
  .iteSnd2 (.of State.blockLoad_touch) (.of State.blockStore_touch)

theorem State.blockDone_touch {s : State} {n : Nat} : Touch 0x140BFFDFEFBF s (s.blockDone n).2 := by
  unfold State.blockDone
  dsimp only
  split
  · exact .refl
  · split
    · exact .pair <| .of State.blockRun_touch
    · exact .pair <| .after State.mapCtx_touch <| .of State.blockRun_touch

theorem State.longAll_touch {s : State} {n : Nat} : Touch 0x140BFFDFEFBF s (s.longAll n).2 :=
  Touch.of State.unitDone_touch |>.then State.unitDone_touch |>.then State.blockDone_touch

theorem State.blockNow_touch {s : State} {n : Nat} : Touch 0x140BFFDFEFBF s (s.blockNow n).2 := by
  unfold State.blockNow
  dsimp only
  split
  · exact .refl
  · split
    · exact .pair <| .of State.blockRun_touch
    · split
      · exact .pair <| .after State.clearPair_touch <| .after State.setCore_touch <| .of State.blockRun_touch
      · exact .pair <| .after State.setCore_touch <| .of State.blockRun_touch

theorem State.loadTo_touch {s : State} {n : Nat} {d : CReg} {a : Word} {k : Nat} {sign : Bool} :
    Touch 0x10088E11029F s (s.loadTo n d a k sign).2 := by
  unfold State.loadTo
  dsimp only
  split
  · exact
      .afterAll (.iteSnd
         (.iteSnd .refl (.pair <| .of State.setCore_touch))
         (.pair <| .of State.setCore_touch)) <|
      .ofPair ‹_› (.of State.coreRead_touch)
  · exact .pair <| .ofPair ‹_› (.of State.coreRead_touch)
  · exact .pair <| .ofPair ‹_› (.of State.coreRead_touch)

theorem State.popReturn_touch {s : State} {n : Nat} {a : Word} : Touch 0x10088E11029F s (s.popReturn n a).2 := by
  unfold State.popReturn
  dsimp only
  split
  · exact
      .afterAll (.iteSnd .refl (.pair <| .of State.setCore_touch)) <|
      .ofPair ‹_› (.of State.coreRead_touch)
  · exact .pair <| .ofPair ‹_› (.of State.coreRead_touch)
  · exact .pair <| .ofPair ‹_› (.of State.coreRead_touch)

theorem State.entryWords_touch {s : State} {o : Option (List Word)} : Touch 0x80 s (s.entryWords o).2 := by
  unfold State.entryWords
  split
  · exact .refl
  · exact Touch.of State.free_touch |>.then State.free_touch |>.then State.free_touch

theorem State.frameWords_touch {s : State} {c : CoreCtx} {pc : Word} : Touch 0x80 s (s.frameWords c pc).2 :=
  Touch.of State.entryWords_touch
    |>.trans (.iteSnd (.of State.free_touch) .refl)
    |>.then State.entryWords_touch
    |>.then State.entryWords_touch

theorem State.pushFrame_touch {n : Nat} {base : Word} : ∀ {l : List (Nat × Word)} {s : State},
    Touch 0x140BFFDFEFBF s (s.pushFrame n base l).2
  | [], _ => .refl
  | (_, _) :: _, _ => by
    unfold State.pushFrame
    dsimp only
    split
    · exact Touch.ofPair ‹_› (.of State.busWrite_touch)
    · exact Touch.ofPair ‹_› (.of State.busWrite_touch) |>.then State.pushFrame_touch

theorem State.takeException_touch {s : State} {n cause : Nat} {xaddr : Word} {imm : Nat} {deferred : Bool} {ret : Option Word} :
    Touch 0x140BFFDFEFBF s (s.takeException n cause xaddr imm deferred ret) := by
  unfold State.takeException
  dsimp only
  refine .ite ?_ ?_
  · exact .after State.safeHalt_touch <| .of State.parkCore_touch
  · split
    · exact
        .after State.safeHalt_touch <|
        .ofPair ‹_› (.after State.pushFrame_touch <|
         .after State.frameWords_touch <|
         .of State.parkCore_touch)
    · split
      · exact
          .afterAll (.ite (.of State.safeHalt_touch) (.of State.setCore_touch)) <|
          .ofPair ‹_› (.after State.coreRead_touch <|
           .ofPair ‹_› (.after State.pushFrame_touch <|
            .after State.frameWords_touch <|
            .of State.parkCore_touch))
      · exact
          .after State.safeHalt_touch <|
          .ofPair ‹_› (.after State.coreRead_touch <|
           .ofPair ‹_› (.after State.pushFrame_touch <|
            .after State.frameWords_touch <|
            .of State.parkCore_touch))

theorem State.raiseFault_touch {s : State} {n : Nat} {f : CoreFault} : Touch 0x140BFFDFEFBF s (s.raiseFault n f) :=
  .of State.takeException_touch

theorem State.fpFill_touch {s : State} {n : Nat} : Touch 0x140BFFDFEFBF s (s.fpFill n).2 := by
  unfold State.fpFill
  dsimp only
  split
  · exact .refl
  · refine .iteSnd ?_ ?_
    · exact .refl
    · split
      · exact .pair <| .ofPair ‹_› (.of State.pushFrame_touch)
      · exact .pair <| .after State.mapCtx_touch <| .ofPair ‹_› (.of State.pushFrame_touch)

theorem State.pullWords_touch {n : Nat} {base : Word} : ∀ {l : List Nat} {s : State}, Touch 0x10088E11029F s (s.pullWords n base l).2
  | [], _ => .refl
  | _ :: _, _ => by
    unfold State.pullWords
    dsimp only
    split
    · next t first =>
      have read : Touch 0x10088E11029F _ t := .ofPair first (.of State.coreRead_touch)
      split
      · exact read.trans (.ofPair ‹_› State.pullWords_touch)
      · exact read.trans State.pullWords_touch
    · exact Touch.ofPair ‹_› (.of State.coreRead_touch)
    · exact Touch.ofPair ‹_› (.of State.coreRead_touch)

theorem State.popFrame_touch {s : State} {n : Nat} : Touch 0x10088E11029F s (s.popFrame n).2 :=
  .iteSnd
    .refl
    (Touch.of State.pullWords_touch
       |>.trans (by
          split
          · exact .ofPair ‹_› .refl
          · exact Touch.ofPair ‹_› .refl
              |>.trans (.iteSnd
                 .refl
                 (Touch.of State.pullWords_touch
                    |>.trans (by
                       split
                       · exact .ofPair ‹_› .refl
                       · exact Touch.ofPair ‹_› .refl
                           |>.then State.pullWords_touch
                           |>.trans (by
                              split
                              · exact .ofPair ‹_› .refl
                              · exact Touch.ofPair ‹_› .refl
                                  |>.trans (.iteSnd
                                     (Touch.of State.pullWords_touch
                                        |>.trans (by
                                           split
                                           · exact .ofPair ‹_› .refl
                                           · exact Touch.ofPair ‹_› .refl |>.then State.setCore_touch))
                                     (.of State.setCore_touch))))))))

theorem State.perform_touch {s : State} {n : Nat} {o : CoreAccess} : Touch 0x140BFFDFEFBF s (s.perform n o).2 := by
  unfold State.perform
  split
  · exact .of State.masterWrite_touch
  · exact .of State.loadTo_touch
  · exact .of State.blockNow_touch
  · exact .of State.popReturn_touch
  · exact .of State.popFrame_touch

theorem State.performOpt_touch {s : State} {n : Nat} {o : Option CoreAccess} :
    Touch 0x140BFFDFEFBF s (s.performOpt n o).2 := by
  unfold State.performOpt
  split
  · exact .refl
  · exact .of State.perform_touch

theorem State.flushPair_touch {s : State} {n : Nat} : Touch 0x140BFFDFEFBF s (s.flushPair n).2 := by
  unfold State.flushPair
  split
  · exact .pair <| .ofPair ‹_› (.of State.performOpt_touch)
  · exact .pair <| .after State.clearPair_touch <| .ofPair ‹_› (.of State.performOpt_touch)

theorem State.fetchFault_touch {s : State} {n : Nat} : Touch 0xC000087 s (s.fetchFault n).2 :=
  .iteSnd
    (.iteSnd (.of State.eccAccess_touch) (.of State.eccRead_touch))
    (.iteSnd
       (.iteSnd
          .refl
          (Touch.of State.freeBit_touch
             |>.trans (.iteSnd
                .refl
                (Touch.of State.flashRead_touch |>.trans (by split <;> exact .ofPair ‹_› .refl)))))
       (.iteSnd
          (.iteSnd
             .refl
             (Touch.of State.freeBit_touch
                |>.trans (.iteSnd .refl (.iteSnd (.of State.eccAccess_touch) (.of State.eccRead_touch)))))
          .refl))

theorem State.settlePair_touch {s : State} {n : Nat} : Touch 0x140BFFDFEFBF s (s.settlePair n) :=
  .ite
    .refl
    (Touch.of State.longAll_touch
       |>.trans (by
          split
          · exact Touch.ofPair ‹_› .refl |>.then State.raiseFault_touch
          · exact Touch.ofPair ‹_› .refl |>.then State.setCore_touch))

theorem State.commitIssue_touch {s : State} {n : Nat} {o : CoreOp} {joins : Bool} {c : CoreCtx} {acc : Option CoreAccess} :
    Touch 0x140BFFDFEFBF s (s.commitIssue n o joins c acc) :=
  Touch.of State.setCore_touch
    |>.trans (.ite
       (.of State.setCoreRec_touch)
       (by
          split
          · exact Touch.ofPair ‹_› (.of State.performOpt_touch) |>.then State.raiseFault_touch
          · exact by
              split
              · exact Touch.ofPair ‹_› (Touch.ofPair ‹_› (.of State.performOpt_touch)
                   |>.then State.performOpt_touch)
                  |>.then State.clearPair_touch
                  |>.then State.settlePair_touch
              · exact .ite
                  (Touch.ofPair ‹_› (Touch.ofPair ‹_› (.of State.performOpt_touch)
                      |>.then State.performOpt_touch)
                     |>.then State.raiseFault_touch)
                  (Touch.of State.performOpt_touch
                     |>.trans (.ite .refl (.of State.setCore_touch))
                     |>.then State.raiseFault_touch)))

/-- The state in which an approach ends, if the core does not freeze. -/
def Approach.state? : Approach → Option State
  | .stay => none
  | .fault _ t => some t
  | .go t => some t

theorem State.interlock_touch {s t : State} {n : Nat} {o : CoreOp} (h : (s.interlock n o).state? = some t) :
    Touch 0x140BFFDFEFBF s t := by
  have units : Touch 0x140BFFDFEFBF s
      (if o.waitsFor (s.pendingOps n) 1 then (if o.waitsFor (s.pendingOps n) 0 then s.unitDone n 0 else s).unitDone n 1
        else if o.waitsFor (s.pendingOps n) 0 then s.unitDone n 0 else s) :=
    .ite (Touch.ite (.of State.unitDone_touch) .refl |>.then State.unitDone_touch) (.ite (.of State.unitDone_touch) .refl)
  unfold State.interlock at h
  dsimp only at h
  generalize (if o.waitsFor (s.pendingOps n) 1 then
      (if o.waitsFor (s.pendingOps n) 0 then s.unitDone n 0 else s).unitDone n 1
    else if o.waitsFor (s.pendingOps n) 0 then s.unitDone n 0 else s) = u at h units
  split at h
  · split at h
    · cases h
    · split at h
      · cases h
        exact units.trans (.ofPair ‹_› (.of State.blockDone_touch))
      · cases h
        exact units.trans (.ofPair ‹_› (.of State.blockDone_touch))
  · cases h
    exact units

theorem State.check_touch {s t : State} {n : Nat} {o : CoreOp} (h : (s.check n o).state? = some t) : Touch 0x140BFFDFEFBF s t := by
  unfold State.check at h
  split at h
  · cases h
    exact .refl
  · split at h
    · cases h
      exact .refl
    · split at h
      · split at h
        · cases h
          exact .ofPair ‹_› (.of State.fpFill_touch)
        · cases h
          exact .ofPair ‹_› (.of State.fpFill_touch)
      · cases h
        exact .refl

theorem State.approach_touch {s t : State} {n : Nat} {op : CoreCtx → CoreOp} {joins : Bool}
    (h : (s.approach n op joins).state? = some t) : Touch 0x140BFFDFEFBF s t := by
  have paired : Touch 0x140BFFDFEFBF s (if joins then (none, s) else s.flushPair n).2 :=
    .iteSnd .refl (.of State.flushPair_touch)
  unfold State.approach at h
  dsimp only at h
  split at h
  · cases h
  · split at h
    · next pair =>
      cases h
      exact .ofPair pair paired
    · next pair =>
      have flushed := Touch.ofPair pair paired
      split at h
      · cases h
        exact flushed.trans (.ofPair ‹_› (.of State.fetchFault_touch))
      · next fetch =>
        have fetched := flushed.trans (.ofPair fetch (.of State.fetchFault_touch))
        split at h
        · cases h
        · next first =>
          cases h
          exact fetched.trans (State.interlock_touch (congrArg Approach.state? first))
        · next first =>
          have once := fetched.trans (State.interlock_touch (congrArg Approach.state? first))
          split at h
          · cases h
          · next second =>
            cases h
            exact once.trans (State.interlock_touch (congrArg Approach.state? second))
          · next second =>
            exact (once.trans (State.interlock_touch (congrArg Approach.state? second))).trans (State.check_touch h)

theorem State.issue_touch {s : State} {n : Nat} {op : CoreCtx → CoreOp} {run : CoreCtx → Except CoreFault CoreOut} :
    Touch 0x140BFFDFEFBF s (s.issue n op run) := by
  unfold State.issue
  dsimp only
  split
  · exact .refl
  · split
    · exact .refl
    · next at_ => exact State.approach_touch (congrArg Approach.state? at_) |>.then State.raiseFault_touch
    · next at_ =>
      have near := State.approach_touch (congrArg Approach.state? at_)
      split
      · exact near.then State.raiseFault_touch
      · split
        · exact near.then State.raiseFault_touch
        · exact .ite .refl (near.then State.commitIssue_touch)

theorem State.issueSys_touch {w : Nat} {s : State} {n : Nat} {o : CoreOp} {f : State → State} (hf : ∀ t, Touch w t (f t))
    (hw : (0x140BFFDFEFBF ||| w == w) = true := by rfl) : Touch w s (s.issueSys n o f) := by
  have up : ∀ {t u : State}, Touch 0x140BFFDFEFBF t u → Touch w t u := fun h => h.mono hw
  unfold State.issueSys
  split
  · exact .refl
  · split
    · exact .refl
    · next at_ => exact up (State.approach_touch (congrArg Approach.state? at_) |>.then State.raiseFault_touch)
    · next at_ => exact (up (State.approach_touch (congrArg Approach.state? at_) |>.then State.setCore_touch)).trans (hf _)

theorem State.sysDone_touch {s : State} {n : Nat} {f : CoreCtx → CoreCtx} : Touch 0x140BFFDFEFBF s (s.sysDone n f) :=
  Touch.of State.setCore_touch |>.then State.settlePair_touch

end Sys2Proof.Machine
end

section
/-!
What the operations of the integer and floating-point instructions may touch.
-/
namespace Sys2Proof.Machine
open Sys2Proof
set_option Elab.async false

theorem State.intRR_touch {s : State} {n : Nat} {p : Bool} {major op rd ra rb k : Nat} {f : Word → Word → Word} :
    Touch 0x140BFFDFEFBF s (s.intRR n p major op rd ra rb k f) := .of State.issue_touch

theorem State.intR_touch {s : State} {n : Nat} {p : Bool} {op rd ra sh : Nat} {f : Word → Word} :
    Touch 0x140BFFDFEFBF s (s.intR n p op rd ra sh f) := .of State.issue_touch

theorem State.intRI_touch {s : State} {n : Nat} {word : Word} {p : Bool} {rd ra : Nat} {f : Word → Word} :
    Touch 0x140BFFDFEFBF s (s.intRI n word p rd ra f) := .of State.issue_touch

theorem State.intDiv_touch {s : State} {n : Nat} {p : Bool} {op rd ra rb : Nat} :
    Touch 0x140BFFDFEFBF s (s.intDiv n p op rd ra rb) := by
  unfold State.intDiv
  dsimp only
  exact
    .of State.issue_touch

theorem State.fpDiv_touch {s : State} {n : Nat} {p : Bool} {op rd ra rb : Nat} {reads : List CReg} :
    Touch 0x140BFFDFEFBF s (s.fpDiv n p op rd ra rb reads) := by
  unfold State.fpDiv
  dsimp only
  exact
    .of State.issue_touch

theorem State.fpRR_touch {s : State} {n : Nat} {p : Bool} {op : Nat} {d : CReg} {rd ra rb k : Nat} {f : RMode → Word → Word → FOut} :
    Touch 0x140BFFDFEFBF s (s.fpRR n p op d rd ra rb k f) := .of State.issue_touch

theorem State.fpR_touch {s : State} {n : Nat} {p : Bool} {op : Nat} {d : CReg} {rd : Nat} {a : CReg} {ra k : Nat} {f : RMode → Word → FOut} :
    Touch 0x140BFFDFEFBF s (s.fpR n p op d rd a ra k f) := .of State.issue_touch

theorem State.fpFma_touch {s : State} {n : Nat} {p : Bool} {op fd fa fb fc : Nat} {f : RMode → Word → Word → Word → FOut} :
    Touch 0x140BFFDFEFBF s (s.fpFma n p op fd fa fb fc f) := .of State.issue_touch

theorem execAdd_ends {n : Fin 8} {p : Bool} {rd ra rb : Fin 32} {s : State} :
    Ends 0x140BFFDFEFBF s (execAdd n p rd ra rb s) := .next (.of State.intRR_touch)

theorem execSub_ends {n : Fin 8} {p : Bool} {rd ra rb : Fin 32} {s : State} :
    Ends 0x140BFFDFEFBF s (execSub n p rd ra rb s) := .next (.of State.intRR_touch)

theorem execAnd_ends {n : Fin 8} {p : Bool} {rd ra rb : Fin 32} {s : State} :
    Ends 0x140BFFDFEFBF s (execAnd n p rd ra rb s) := .next (.of State.intRR_touch)

theorem execOr_ends {n : Fin 8} {p : Bool} {rd ra rb : Fin 32} {s : State} :
    Ends 0x140BFFDFEFBF s (execOr n p rd ra rb s) := .next (.of State.intRR_touch)

theorem execXor_ends {n : Fin 8} {p : Bool} {rd ra rb : Fin 32} {s : State} :
    Ends 0x140BFFDFEFBF s (execXor n p rd ra rb s) := .next (.of State.intRR_touch)

theorem execAndn_ends {n : Fin 8} {p : Bool} {rd ra rb : Fin 32} {s : State} :
    Ends 0x140BFFDFEFBF s (execAndn n p rd ra rb s) := .next (.of State.intRR_touch)

theorem execShl_ends {n : Fin 8} {p : Bool} {rd ra rb : Fin 32} {s : State} :
    Ends 0x140BFFDFEFBF s (execShl n p rd ra rb s) := .next (.of State.intRR_touch)

theorem execShr_ends {n : Fin 8} {p : Bool} {rd ra rb : Fin 32} {s : State} :
    Ends 0x140BFFDFEFBF s (execShr n p rd ra rb s) := .next (.of State.intRR_touch)

theorem execSar_ends {n : Fin 8} {p : Bool} {rd ra rb : Fin 32} {s : State} :
    Ends 0x140BFFDFEFBF s (execSar n p rd ra rb s) := .next (.of State.intRR_touch)

theorem execRor_ends {n : Fin 8} {p : Bool} {rd ra rb : Fin 32} {s : State} :
    Ends 0x140BFFDFEFBF s (execRor n p rd ra rb s) := .next (.of State.intRR_touch)

theorem execShli_ends {n : Fin 8} {p : Bool} {rd ra sh : Fin 32} {s : State} :
    Ends 0x140BFFDFEFBF s (execShli n p rd ra sh s) := .next (.of State.intR_touch)

theorem execShri_ends {n : Fin 8} {p : Bool} {rd ra sh : Fin 32} {s : State} :
    Ends 0x140BFFDFEFBF s (execShri n p rd ra sh s) := .next (.of State.intR_touch)

theorem execSari_ends {n : Fin 8} {p : Bool} {rd ra sh : Fin 32} {s : State} :
    Ends 0x140BFFDFEFBF s (execSari n p rd ra sh s) := .next (.of State.intR_touch)

theorem execRori_ends {n : Fin 8} {p : Bool} {rd ra sh : Fin 32} {s : State} :
    Ends 0x140BFFDFEFBF s (execRori n p rd ra sh s) := .next (.of State.intR_touch)

theorem execMin_ends {n : Fin 8} {p : Bool} {rd ra rb : Fin 32} {s : State} :
    Ends 0x140BFFDFEFBF s (execMin n p rd ra rb s) := .next (.of State.intRR_touch)

theorem execMax_ends {n : Fin 8} {p : Bool} {rd ra rb : Fin 32} {s : State} :
    Ends 0x140BFFDFEFBF s (execMax n p rd ra rb s) := .next (.of State.intRR_touch)

theorem execMinu_ends {n : Fin 8} {p : Bool} {rd ra rb : Fin 32} {s : State} :
    Ends 0x140BFFDFEFBF s (execMinu n p rd ra rb s) := .next (.of State.intRR_touch)

theorem execMaxu_ends {n : Fin 8} {p : Bool} {rd ra rb : Fin 32} {s : State} :
    Ends 0x140BFFDFEFBF s (execMaxu n p rd ra rb s) := .next (.of State.intRR_touch)

theorem execClz_ends {n : Fin 8} {p : Bool} {rd ra : Fin 32} {s : State} :
    Ends 0x140BFFDFEFBF s (execClz n p rd ra s) := .next (.of State.intR_touch)

theorem execPopc_ends {n : Fin 8} {p : Bool} {rd ra : Fin 32} {s : State} :
    Ends 0x140BFFDFEFBF s (execPopc n p rd ra s) := .next (.of State.intR_touch)

theorem execBrev_ends {n : Fin 8} {p : Bool} {rd ra : Fin 32} {s : State} :
    Ends 0x140BFFDFEFBF s (execBrev n p rd ra s) := .next (.of State.intR_touch)

theorem execBswap_ends {n : Fin 8} {p : Bool} {rd ra : Fin 32} {s : State} :
    Ends 0x140BFFDFEFBF s (execBswap n p rd ra s) := .next (.of State.intR_touch)

theorem execSextb_ends {n : Fin 8} {p : Bool} {rd ra : Fin 32} {s : State} :
    Ends 0x140BFFDFEFBF s (execSextb n p rd ra s) := .next (.of State.intR_touch)

theorem execSexth_ends {n : Fin 8} {p : Bool} {rd ra : Fin 32} {s : State} :
    Ends 0x140BFFDFEFBF s (execSexth n p rd ra s) := .next (.of State.intR_touch)

theorem execCeq_ends {n : Fin 8} {p : Bool} {rd ra rb : Fin 32} {s : State} :
    Ends 0x140BFFDFEFBF s (execCeq n p rd ra rb s) := .next (.of State.intRR_touch)

theorem execCne_ends {n : Fin 8} {p : Bool} {rd ra rb : Fin 32} {s : State} :
    Ends 0x140BFFDFEFBF s (execCne n p rd ra rb s) := .next (.of State.intRR_touch)

theorem execClt_ends {n : Fin 8} {p : Bool} {rd ra rb : Fin 32} {s : State} :
    Ends 0x140BFFDFEFBF s (execClt n p rd ra rb s) := .next (.of State.intRR_touch)

theorem execCltu_ends {n : Fin 8} {p : Bool} {rd ra rb : Fin 32} {s : State} :
    Ends 0x140BFFDFEFBF s (execCltu n p rd ra rb s) := .next (.of State.intRR_touch)

theorem execCle_ends {n : Fin 8} {p : Bool} {rd ra rb : Fin 32} {s : State} :
    Ends 0x140BFFDFEFBF s (execCle n p rd ra rb s) := .next (.of State.intRR_touch)

theorem execCleu_ends {n : Fin 8} {p : Bool} {rd ra rb : Fin 32} {s : State} :
    Ends 0x140BFFDFEFBF s (execCleu n p rd ra rb s) := .next (.of State.intRR_touch)

theorem execAddsat_ends {n : Fin 8} {p : Bool} {rd ra rb : Fin 32} {s : State} :
    Ends 0x140BFFDFEFBF s (execAddsat n p rd ra rb s) := .next (.of State.intRR_touch)

theorem execSubsat_ends {n : Fin 8} {p : Bool} {rd ra rb : Fin 32} {s : State} :
    Ends 0x140BFFDFEFBF s (execSubsat n p rd ra rb s) := .next (.of State.intRR_touch)

theorem execAddi_ends {n : Fin 8} {p : Bool} {rd ra : Fin 32} {imm : BitVec 16} {s : State} :
    Ends 0x140BFFDFEFBF s (execAddi n p rd ra imm s) := .next (.of State.intRI_touch)

theorem execAndi_ends {n : Fin 8} {p : Bool} {rd ra : Fin 32} {imm : BitVec 16} {s : State} :
    Ends 0x140BFFDFEFBF s (execAndi n p rd ra imm s) := .next (.of State.intRI_touch)

theorem execOri_ends {n : Fin 8} {p : Bool} {rd ra : Fin 32} {imm : BitVec 16} {s : State} :
    Ends 0x140BFFDFEFBF s (execOri n p rd ra imm s) := .next (.of State.intRI_touch)

theorem execXori_ends {n : Fin 8} {p : Bool} {rd ra : Fin 32} {imm : BitVec 16} {s : State} :
    Ends 0x140BFFDFEFBF s (execXori n p rd ra imm s) := .next (.of State.intRI_touch)

theorem execLui_ends {n : Fin 8} {p : Bool} {rd : Fin 32} {imm : BitVec 16} {s : State} :
    Ends 0x140BFFDFEFBF s (execLui n p rd imm s) := .next (.of State.issue_touch)

theorem execCmpi_ends {n : Fin 8} {p : Bool} {rd ra : Fin 32} {cond : Fin 8} {imm : BitVec 13} {s : State} :
    Ends 0x140BFFDFEFBF s (execCmpi n p rd ra cond imm s) := .next (.of State.intRI_touch)

theorem execMul_ends {n : Fin 8} {p : Bool} {rd ra rb : Fin 32} {s : State} :
    Ends 0x140BFFDFEFBF s (execMul n p rd ra rb s) := .next (.of State.intRR_touch)

theorem execMulh_ends {n : Fin 8} {p : Bool} {rd ra rb : Fin 32} {s : State} :
    Ends 0x140BFFDFEFBF s (execMulh n p rd ra rb s) := .next (.of State.intRR_touch)

theorem execMulhu_ends {n : Fin 8} {p : Bool} {rd ra rb : Fin 32} {s : State} :
    Ends 0x140BFFDFEFBF s (execMulhu n p rd ra rb s) := .next (.of State.intRR_touch)

theorem execMulhsu_ends {n : Fin 8} {p : Bool} {rd ra rb : Fin 32} {s : State} :
    Ends 0x140BFFDFEFBF s (execMulhsu n p rd ra rb s) := .next (.of State.intRR_touch)

theorem execDiv_ends {n : Fin 8} {p : Bool} {rd ra rb : Fin 32} {s : State} :
    Ends 0x140BFFDFEFBF s (execDiv n p rd ra rb s) := .next (.of State.intDiv_touch)

theorem execDivu_ends {n : Fin 8} {p : Bool} {rd ra rb : Fin 32} {s : State} :
    Ends 0x140BFFDFEFBF s (execDivu n p rd ra rb s) := .next (.of State.intDiv_touch)

theorem execRem_ends {n : Fin 8} {p : Bool} {rd ra rb : Fin 32} {s : State} :
    Ends 0x140BFFDFEFBF s (execRem n p rd ra rb s) := .next (.of State.intDiv_touch)

theorem execRemu_ends {n : Fin 8} {p : Bool} {rd ra rb : Fin 32} {s : State} :
    Ends 0x140BFFDFEFBF s (execRemu n p rd ra rb s) := .next (.of State.intDiv_touch)

theorem execFdiv_ends {n : Fin 8} {p : Bool} {rd ra rb : Fin 32} {s : State} :
    Ends 0x140BFFDFEFBF s (execFdiv n p rd ra rb s) := .next (.of State.fpDiv_touch)

theorem execFsqrt_ends {n : Fin 8} {p : Bool} {rd ra : Fin 32} {s : State} :
    Ends 0x140BFFDFEFBF s (execFsqrt n p rd ra s) := .next (.of State.fpDiv_touch)

theorem execFadd_ends {n : Fin 8} {p : Bool} {rd ra rb : Fin 32} {s : State} :
    Ends 0x140BFFDFEFBF s (execFadd n p rd ra rb s) := .next (.of State.fpRR_touch)

theorem execFsub_ends {n : Fin 8} {p : Bool} {rd ra rb : Fin 32} {s : State} :
    Ends 0x140BFFDFEFBF s (execFsub n p rd ra rb s) := .next (.of State.fpRR_touch)

theorem execFmul_ends {n : Fin 8} {p : Bool} {rd ra rb : Fin 32} {s : State} :
    Ends 0x140BFFDFEFBF s (execFmul n p rd ra rb s) := .next (.of State.fpRR_touch)

theorem execFmin_ends {n : Fin 8} {p : Bool} {rd ra rb : Fin 32} {s : State} :
    Ends 0x140BFFDFEFBF s (execFmin n p rd ra rb s) := .next (.of State.fpRR_touch)

theorem execFmax_ends {n : Fin 8} {p : Bool} {rd ra rb : Fin 32} {s : State} :
    Ends 0x140BFFDFEFBF s (execFmax n p rd ra rb s) := .next (.of State.fpRR_touch)

theorem execFabs_ends {n : Fin 8} {p : Bool} {rd ra : Fin 32} {s : State} :
    Ends 0x140BFFDFEFBF s (execFabs n p rd ra s) := .next (.of State.fpR_touch)

theorem execFneg_ends {n : Fin 8} {p : Bool} {rd ra : Fin 32} {s : State} :
    Ends 0x140BFFDFEFBF s (execFneg n p rd ra s) := .next (.of State.fpR_touch)

theorem execFceq_ends {n : Fin 8} {p : Bool} {rd ra rb : Fin 32} {s : State} :
    Ends 0x140BFFDFEFBF s (execFceq n p rd ra rb s) := .next (.of State.fpRR_touch)

theorem execFclt_ends {n : Fin 8} {p : Bool} {rd ra rb : Fin 32} {s : State} :
    Ends 0x140BFFDFEFBF s (execFclt n p rd ra rb s) := .next (.of State.fpRR_touch)

theorem execFcle_ends {n : Fin 8} {p : Bool} {rd ra rb : Fin 32} {s : State} :
    Ends 0x140BFFDFEFBF s (execFcle n p rd ra rb s) := .next (.of State.fpRR_touch)

theorem execFcun_ends {n : Fin 8} {p : Bool} {rd ra rb : Fin 32} {s : State} :
    Ends 0x140BFFDFEFBF s (execFcun n p rd ra rb s) := .next (.of State.fpRR_touch)

theorem execFcvtws_ends {n : Fin 8} {p : Bool} {rd ra : Fin 32} {s : State} :
    Ends 0x140BFFDFEFBF s (execFcvtws n p rd ra s) := .next (.of State.fpR_touch)

theorem execFcvtwus_ends {n : Fin 8} {p : Bool} {rd ra : Fin 32} {s : State} :
    Ends 0x140BFFDFEFBF s (execFcvtwus n p rd ra s) := .next (.of State.fpR_touch)

theorem execFcvtsw_ends {n : Fin 8} {p : Bool} {rd ra : Fin 32} {s : State} :
    Ends 0x140BFFDFEFBF s (execFcvtsw n p rd ra s) := .next (.of State.fpR_touch)

theorem execFcvtswu_ends {n : Fin 8} {p : Bool} {rd ra : Fin 32} {s : State} :
    Ends 0x140BFFDFEFBF s (execFcvtswu n p rd ra s) := .next (.of State.fpR_touch)

theorem execFmvgf_ends {n : Fin 8} {p : Bool} {rd ra : Fin 32} {s : State} :
    Ends 0x140BFFDFEFBF s (execFmvgf n p rd ra s) := .next (.of State.fpR_touch)

theorem execFmvfg_ends {n : Fin 8} {p : Bool} {rd ra : Fin 32} {s : State} :
    Ends 0x140BFFDFEFBF s (execFmvfg n p rd ra s) := .next (.of State.fpR_touch)

theorem execFmadd_ends {n : Fin 8} {p : Bool} {fd fa fb fc : Fin 32} {s : State} :
    Ends 0x140BFFDFEFBF s (execFmadd n p fd fa fb fc s) := .next (.of State.fpFma_touch)

theorem execFmsub_ends {n : Fin 8} {p : Bool} {fd fa fb fc : Fin 32} {s : State} :
    Ends 0x140BFFDFEFBF s (execFmsub n p fd fa fb fc s) := .next (.of State.fpFma_touch)

theorem execFnmsub_ends {n : Fin 8} {p : Bool} {fd fa fb fc : Fin 32} {s : State} :
    Ends 0x140BFFDFEFBF s (execFnmsub n p fd fa fb fc s) := .next (.of State.fpFma_touch)

theorem execFnmadd_ends {n : Fin 8} {p : Bool} {fd fa fb fc : Fin 32} {s : State} :
    Ends 0x140BFFDFEFBF s (execFnmadd n p fd fa fb fc s) := .next (.of State.fpFma_touch)

end Sys2Proof.Machine
end

section
/-!
What the operations of the loads, stores and branches may touch.
-/
namespace Sys2Proof.Machine
open Sys2Proof
set_option Elab.async false

theorem execLd_ends {n : Fin 8} {p : Bool} {rd ra : Fin 32} {am size : Fin 4} {sign : Bool} {f : BitVec 11} {s : State} :
    Ends 0x140BFFDFEFBF s (execLd n p rd ra am size sign f s) := .next (.of State.issue_touch)

theorem execSt_ends {n : Fin 8} {p : Bool} {rd ra : Fin 32} {am size : Fin 4} {sign : Bool} {f : BitVec 11} {s : State} :
    Ends 0x140BFFDFEFBF s (execSt n p rd ra am size sign f s) := .next (.of State.issue_touch)

theorem execFld_ends {n : Fin 8} {p : Bool} {rd ra : Fin 32} {am size : Fin 4} {sign : Bool} {f : BitVec 11} {s : State} :
    Ends 0x140BFFDFEFBF s (execFld n p rd ra am size sign f s) := .next (.of State.issue_touch)

theorem execFst_ends {n : Fin 8} {p : Bool} {rd ra : Fin 32} {am size : Fin 4} {sign : Bool} {f : BitVec 11} {s : State} :
    Ends 0x140BFFDFEFBF s (execFst n p rd ra am size sign f s) := .next (.of State.issue_touch)

theorem execLdm_ends {n : Fin 8} {p : Bool} {ra rm : Fin 32} {dir wb fp : Bool} {s : State} :
    Ends 0x140BFFDFEFBF s (execLdm n p ra rm dir wb fp s) := .next (.of State.issue_touch)

theorem execStm_ends {n : Fin 8} {p : Bool} {ra rm : Fin 32} {dir wb fp : Bool} {s : State} :
    Ends 0x140BFFDFEFBF s (execStm n p ra rm dir wb fp s) := .next (.of State.issue_touch)

theorem State.longComplete_touch {s : State} {n u : Nat} : Touch 0x140BFFDFEFBF s (s.longComplete n u) :=
  .ite
    .refl
    (.ite
       (.of State.unitDone_touch)
       (.ite
          .refl
          (Touch.of State.blockDone_touch
             |>.trans (by
                split
                · exact Touch.ofPair ‹_› .refl |>.then State.raiseFault_touch
                · exact .ofPair ‹_› .refl))))

theorem execLongOperationComplete_ends {n : Fin 8} {unit : Fin 3} {s : State} :
    Ends 0x140BFFDFEFBF s (execLongOperationComplete n unit s) := .next (.of State.longComplete_touch)

theorem execBz_ends {n : Fin 8} {p : Bool} {ra : Fin 32} {off : BitVec 21} {s : State} :
    Ends 0x140BFFDFEFBF s (execBz n p ra off s) := .next (.of State.issue_touch)

theorem execBnz_ends {n : Fin 8} {p : Bool} {ra : Fin 32} {off : BitVec 21} {s : State} :
    Ends 0x140BFFDFEFBF s (execBnz n p ra off s) := .next (.of State.issue_touch)

theorem execJ_ends {n : Fin 8} {p : Bool} {off : BitVec 26} {s : State} : Ends 0x140BFFDFEFBF s (execJ n p off s) :=
  .next (.of State.issue_touch)

theorem execCall_ends {n : Fin 8} {p : Bool} {off : BitVec 26} {s : State} :
    Ends 0x140BFFDFEFBF s (execCall n p off s) := .next (.of State.issue_touch)

theorem execJr_ends {n : Fin 8} {p : Bool} {ra : Fin 32} {s : State} : Ends 0x140BFFDFEFBF s (execJr n p ra s) :=
  .next (.of State.issue_touch)

theorem execCallr_ends {n : Fin 8} {p : Bool} {ra : Fin 32} {s : State} :
    Ends 0x140BFFDFEFBF s (execCallr n p ra s) := .next (.of State.issue_touch)

theorem execRet_ends {n : Fin 8} {p : Bool} {s : State} : Ends 0x140BFFDFEFBF s (execRet n p s) :=
  .next (.of State.issue_touch)

theorem State.reschedule_touch {s : State} {n : Nat} : Touch 0x2000003 s (s.reschedule n) :=
  .ite (.of State.schedule_touch) .refl

theorem execRetx_ends {n : Fin 8} {p : Bool} {s : State} : Ends 0x140BFFDFEFBF s (execRetx n p s) :=
  .next (Touch.of State.issue_touch |>.then State.reschedule_touch)

end Sys2Proof.Machine
end

section
/-!
What the operations of the system instructions may touch.
-/
namespace Sys2Proof.Machine
open Sys2Proof
set_option Elab.async false

theorem execMfcr_ends {n : Fin 8} {p : Bool} {rd : Fin 32} {cr : BitVec 8} {s : State} :
    Ends 0x140BFFDFEFBF s (execMfcr n p rd cr s) := .next (.of State.issue_touch)

theorem execMtcr_ends {n : Fin 8} {p : Bool} {cr : BitVec 8} {ra : Fin 32} {s : State} :
    Ends 0x140BFFDFEFBF s (execMtcr n p cr ra s) :=
  .next (State.issueSys_touch fun _ => Touch.of State.sysDone_touch |>.then State.reschedule_touch)

theorem State.takeDeferred_touch {s : State} {n : Nat} : Touch 0x140BFFDFEFBF s (s.takeDeferred n) := by
  unfold State.takeDeferred
  dsimp only
  split
  · exact .refl
  · exact .after State.takeException_touch <| .of State.setCoreRec_touch

theorem execStoreFaultDeferred_ends {n : Fin 8} {s : State} : Ends 0x140BFFDFEFBF s (execStoreFaultDeferred n s) :=
  .next (.ite (.of State.takeDeferred_touch) .refl)

theorem execFence_ends {n : Fin 8} {p : Bool} {s : State} : Ends 0x140BFFDFEFBF s (execFence n p s) :=
  .next (State.issueSys_touch fun _ => Touch.of State.sysDone_touch |>.then State.takeDeferred_touch)

theorem execIfence_ends {n : Fin 8} {p : Bool} {s : State} : Ends 0x140BFFDFEFBF s (execIfence n p s) :=
  .next (State.issueSys_touch fun _ => Touch.of State.sysDone_touch |>.then State.takeDeferred_touch)

theorem execIcinv_ends {n : Fin 8} {p : Bool} {ra : Fin 32} {s : State} :
    Ends 0x140BFFDFEFBF s (execIcinv n p ra s) := .next (State.issueSys_touch fun _ => .of State.sysDone_touch)

theorem execDcinv_ends {n : Fin 8} {p : Bool} {ra : Fin 32} {s : State} :
    Ends 0x140BFFDFEFBF s (execDcinv n p ra s) :=
  .next (State.issueSys_touch fun _ => Touch.of State.unstale_touch |>.then State.sysDone_touch)

theorem execIcinvall_ends {n : Fin 8} {p : Bool} {s : State} : Ends 0x140BFFDFEFBF s (execIcinvall n p s) :=
  .next (State.issueSys_touch fun _ => .of State.sysDone_touch)

theorem execDcinvall_ends {n : Fin 8} {p : Bool} {s : State} : Ends 0x140BFFDFEFBF s (execDcinvall n p s) :=
  .next (State.issueSys_touch fun _ => Touch.of State.unstale_touch |>.then State.sysDone_touch)

theorem execTrap_ends {n : Fin 8} {p : Bool} {imm : BitVec 8} {s : State} :
    Ends 0x140BFFDFEFBF s (execTrap n p imm s) := .next (State.issueSys_touch fun _ => .of State.takeException_touch)

theorem State.yieldSlot_touch {s : State} {n : Nat} : Touch 0x2000003 s (s.yieldSlot n) :=
  Touch.of State.parkCore_touch
    |>.trans (.ite (Touch.of State.clearPend_touch |>.then State.setSlotSt_touch) (.of State.setSlotSt_touch))
    |>.then State.runNext_touch

theorem execWait_ends {n : Fin 8} {p : Bool} {s : State} : Ends 0x140BFFDFEFBF s (execWait n p s) :=
  .next (State.issueSys_touch fun _ => Touch.of State.sysDone_touch |>.then State.yieldSlot_touch)

theorem execMfb_ends {n : Fin 8} {p : Bool} {rg : Fin 32} {cls : Fin 4} {num : Fin 64} {s : State} :
    Ends 0x140BFFDFEFBF s (execMfb n p rg cls num s) := .next (.ite .refl (.of State.issue_touch))

theorem execMtb_ends {n : Fin 8} {p : Bool} {rg : Fin 32} {cls : Fin 4} {num : Fin 64} {s : State} :
    Ends 0x140BFFDFEFBF s (execMtb n p rg cls num s) :=
  .next (.ite .refl (.ite (.of State.issue_touch) (.after State.reschedule_touch <| State.issueSys_touch fun _ =>
    .ite (.of State.sysDone_touch) (.after State.sysDone_touch <| .of State.setSlotCtx_touch))))

theorem execDebugHalt_ends {who : Fin 9} {s : State} : Ends 0x2010002 s (execDebugHalt who s) :=
  .next (.ite .refl (.of State.debugHalt_touch))

theorem execDebugResume_ends {who : Fin 9} {s : State} : Ends 0x1001065D0B17 s (execDebugResume who s) :=
  .next (.ite .refl (Touch.of State.debugResume_touch |>.then State.thawUnits_touch))

end Sys2Proof.Machine
end

section
/-!
What the operations of the accesses of the host may touch.
-/
namespace Sys2Proof.Machine
open Sys2Proof
set_option Elab.async false

theorem State.hostUnsupported_touch {s : State} {b : Bool} : Touch 0x400000000 s (s.hostUnsupported b) :=
  .of State.setHost_touch

theorem State.hostFormat_touch {s : State} {p : HostPlace} : Touch 0x86 s (s.hostFormat p) := by
  unfold State.hostFormat
  split
  · exact .of State.hostRefused_touch
  · exact Touch.of State.free_touch |>.then State.hostRefused_touch

theorem State.hostReadDw_touch {s : State} {p : HostPlace} : Touch 0x10088C11029F s (s.hostReadDw p).2 := by
  unfold State.hostReadDw
  split
  · exact .refl
  · exact Touch.of State.masterRead_touch |>.trans (by split <;> exact .ofPair ‹_› .refl)

theorem State.hostWriteDw_touch {s : State} {p : HostPlace} {v : Word} : Touch 0x140FFFDFEFBF s (s.hostWriteDw p v) := by
  unfold State.hostWriteDw
  split
  · exact .of State.msixWrite_touch
  · exact .of State.masterWrite_touch

theorem State.hostReadAll_touch : ∀ {l : List HostPlace} {s : State}, Touch 0x10088C11029F s (s.hostReadAll l).2
  | [], _ => .refl
  | _ :: _, _ => Touch.of State.hostReadDw_touch |>.then State.hostReadAll_touch

theorem State.hostWriteAll_touch {s : State} {l : List (HostPlace × Word)} :
    Touch 0x140FFFDFEFBF s (s.hostWriteAll l) := .foldl fun t x => .of State.hostWriteDw_touch

theorem State.hostRead_touch {s : State} {win o : Nat} {whole : Bool} {n : Nat} :
    Touch 0x100C8C11029F s (s.hostRead win o whole n) :=
  .ite
    .refl
    (by
       split
       · exact .of State.hostUnsupported_touch
       · exact Touch.of State.hostUnsupported_touch
           |>.trans (.ite
              (Touch.of State.hostFormat_touch |>.then State.setHost_touch)
              (by
                 split
                 · exact .of State.hostUnsupported_touch
                 · exact Touch.of State.hostReadAll_touch |>.then State.setHost_touch)))

theorem State.hostWrite_touch {s : State} {win o : Nat} {whole : Bool} {data : List Word} :
    Touch 0x140FFFDFEFBF s (s.hostWrite win o whole data) :=
  .ite
    .refl
    (by
       split
       · exact .of State.hostUnsupported_touch
       · exact Touch.of State.hostUnsupported_touch
           |>.trans (.ite
              (.of State.hostFormat_touch)
              (by
                 split
                 · exact .of State.hostUnsupported_touch
                 · exact .of State.hostWriteAll_touch)))

theorem execHostMemoryRead_ends {win : Fin 3} {off : Word} {whole : Bool} {count : Fin 1025} {s : State} :
    Ends 0x100C8C11029F s (execHostMemoryRead win off whole count s) := .next (.of State.hostRead_touch)

theorem execHostMemoryWrite_ends {win : Fin 3} {off : Word} {whole : Bool} {data : List Word} {s : State} :
    Ends 0x140FFFDFEFBF s (execHostMemoryWrite win off whole data s) := .next (.of State.hostWrite_touch)

end Sys2Proof.Machine
end

section
/-!
What the operations of the register commands may touch.
-/
namespace Sys2Proof.Machine
open Sys2Proof
set_option Elab.async false

theorem State.raiseAccess_touch {s : State} {m : Master} {a : Nat} {o : BusResult} :
    Touch 0x140BFFDFEFBF s (s.raiseAccess m a o) := by
  unfold State.raiseAccess
  split
  · exact by
      split
      · exact .ite (.of State.raiseFault_touch) .refl
      · exact .refl
  · exact .refl

theorem State.readCmd_ends {s : State} {m : Master} {a n : Nat} : Ends 0x140BFFDFEFFF s (s.readCmd m a n) :=
  .next (.ite
     (Touch.of State.masterRead_touch |>.then State.raiseAccess_touch |>.then State.answer_touch)
     .refl)

theorem State.writeCmd_ends {s : State} {m : Master} {a n : Nat} {v : Word} :
    Ends 0x140BFFDFEFFF s (s.writeCmd m a n v) :=
  .next (.ite
     (Touch.of State.masterWrite_touch
        |>.trans (.ite .refl (.of State.raiseAccess_touch))
        |>.then State.answer_touch)
     .refl)

theorem execRegisterWrite_ends {m : Master} {a : Word} {size : AccSize} {v : Word} {s : State} :
    Ends 0x140BFFDFEFFF s (execRegisterWrite m a size v s) := .of State.writeCmd_ends

theorem execScStatusWrite_ends {m : Master} {a v : Word} {s : State} :
    Ends 0x140BFFDFEFFF s (execScStatusWrite m a v s) := .of State.writeCmd_ends

theorem execLlRead_ends {m : Master} {a : Word} {s : State} : Ends 0x140BFFDFEFFF s (execLlRead m a s) :=
  .of State.readCmd_ends

theorem execXmFrameCfgWrite_ends {m : Master} {f : Fin 1024} {v : Word} {s : State} :
    Ends 0x140BFFDFEFFF s (execXmFrameCfgWrite m f v s) := .of State.writeCmd_ends

theorem execStagingWrite_ends {m : Master} {a v : Word} {s : State} :
    Ends 0x140BFFDFEFFF s (execStagingWrite m a v s) := .of State.writeCmd_ends

theorem execEbDirectWrite_ends {m : Master} {a v : Word} {s : State} :
    Ends 0x140BFFDFEFFF s (execEbDirectWrite m a v s) := .of State.writeCmd_ends

theorem execTbRateWrite_ends {m : Master} {v : Word} {s : State} : Ends 0x140BFFDFEFFF s (execTbRateWrite m v s) :=
  .of State.writeCmd_ends

theorem execTbStepHiWrite_ends {m : Master} {v : Word} {s : State} :
    Ends 0x140BFFDFEFFF s (execTbStepHiWrite m v s) := .of State.writeCmd_ends

theorem execTbDiscWrite_ends {m : Master} {v : Word} {s : State} : Ends 0x140BFFDFEFFF s (execTbDiscWrite m v s) :=
  .of State.writeCmd_ends

theorem execTbStartGo_ends {m : Master} {v : Word} {s : State} : Ends 0x140BFFDFEFFF s (execTbStartGo m v s) :=
  .of State.writeCmd_ends

theorem execTbStartAtHiWrite_ends {m : Master} {v : Word} {s : State} :
    Ends 0x140BFFDFEFFF s (execTbStartAtHiWrite m v s) := .of State.writeCmd_ends

theorem execTbStartCancel_ends {m : Master} {v : Word} {s : State} :
    Ends 0x140BFFDFEFFF s (execTbStartCancel m v s) := .of State.writeCmd_ends

theorem execCalSetHiWrite_ends {m : Master} {v : Word} {s : State} :
    Ends 0x140BFFDFEFFF s (execCalSetHiWrite m v s) := .of State.writeCmd_ends

theorem execAlarmArm_ends {m : Master} {a : Fin 4} {v : Word} {s : State} :
    Ends 0x140BFFDFEFFF s (execAlarmArm m a v s) := .of State.writeCmd_ends

theorem execEpOpenRead_ends {m : Master} {s : State} : Ends 0x140BFFDFEFFF s (execEpOpenRead m s) :=
  .of State.readCmd_ends

theorem execEpStageWrite_ends {m : Master} {v : Word} {s : State} : Ends 0x140BFFDFEFFF s (execEpStageWrite m v s) :=
  .of State.writeCmd_ends

theorem execEpSlotAtHiWrite_ends {m : Master} {slot : Fin 4} {v : Word} {s : State} :
    Ends 0x140BFFDFEFFF s (execEpSlotAtHiWrite m slot v s) := .of State.writeCmd_ends

theorem execEpHaulGoWrite_ends {m : Master} {v : Word} {s : State} :
    Ends 0x140BFFDFEFFF s (execEpHaulGoWrite m v s) := .of State.writeCmd_ends

theorem execEpAbandonWrite_ends {m : Master} {v : Word} {s : State} :
    Ends 0x140BFFDFEFFF s (execEpAbandonWrite m v s) := .of State.writeCmd_ends

theorem execSnCountWrite_ends {m : Master} {v : Word} {s : State} : Ends 0x140BFFDFEFFF s (execSnCountWrite m v s) :=
  .of State.writeCmd_ends

theorem execSnLoad_ends {m : Master} {v : Word} {s : State} : Ends 0x140BFFDFEFFF s (execSnLoad m v s) :=
  .of State.writeCmd_ends

theorem execSnAtHiWrite_ends {m : Master} {v : Word} {s : State} : Ends 0x140BFFDFEFFF s (execSnAtHiWrite m v s) :=
  .of State.writeCmd_ends

theorem execSnGo_ends {m : Master} {v : Word} {s : State} : Ends 0x140BFFDFEFFF s (execSnGo m v s) :=
  .of State.writeCmd_ends

theorem execSnCancel_ends {m : Master} {v : Word} {s : State} : Ends 0x140BFFDFEFFF s (execSnCancel m v s) :=
  .of State.writeCmd_ends

theorem execFbFire_ends {m : Master} {v : Word} {s : State} : Ends 0x140BFFDFEFFF s (execFbFire m v s) :=
  .of State.writeCmd_ends

theorem execSignalSetSwitch_ends {m : Master} {k : Fin 128} {v : Word} {s : State} :
    Ends 0x140BFFDFEFFF s (execSignalSetSwitch m k v s) := .of State.writeCmd_ends

theorem execFcAck_ends {m : Master} {v : Word} {s : State} : Ends 0x140BFFDFEFFF s (execFcAck m v s) :=
  .of State.writeCmd_ends

theorem execFcRestore_ends {m : Master} {v : Word} {s : State} : Ends 0x140BFFDFEFFF s (execFcRestore m v s) :=
  .of State.writeCmd_ends

theorem execFcRetire_ends {m : Master} {v : Word} {s : State} : Ends 0x140BFFDFEFFF s (execFcRetire m v s) :=
  .of State.writeCmd_ends

theorem execTuRun_ends {m : Master} {n : Fin 16} {k : Fin 4} {v : Word} {s : State} :
    Ends 0x140BFFDFEFFF s (execTuRun m n k v s) := .of State.writeCmd_ends

theorem execTuStopNow_ends {m : Master} {n : Fin 16} {k : Fin 4} {v : Word} {s : State} :
    Ends 0x140BFFDFEFFF s (execTuStopNow m n k v s) := .of State.writeCmd_ends

theorem execDutyLoadWrite_ends {m : Master} {n : Fin 16} {k : Fin 4} {w : Fin 13} {v : Word} {s : State} :
    Ends 0x140BFFDFEFFF s (execDutyLoadWrite m n k w v s) := .of State.writeCmd_ends

theorem execTripLatchClear_ends {m : Master} {n : Fin 16} {k : Fin 4} {v : Word} {s : State} :
    Ends 0x140BFFDFEFFF s (execTripLatchClear m n k v s) := .of State.writeCmd_ends

theorem execSystemHoldRelease_ends {m : Master} {n : Fin 16} {k : Fin 4} {v : Word} {s : State} :
    Ends 0x140BFFDFEFFF s (execSystemHoldRelease m n k v s) := .of State.writeCmd_ends

theorem execCaptureRead_ends {m : Master} {n : Fin 16} {k : Fin 4} {j : Fin 6} {s : State} :
    Ends 0x140BFFDFEFFF s (execCaptureRead m n k j s) := .of State.readCmd_ends

theorem execConverterEnable_ends {m : Master} {n : Fin 16} {c : Fin 2} {v : Word} {s : State} :
    Ends 0x140BFFDFEFFF s (execConverterEnable m n c v s) := .of State.writeCmd_ends

theorem execAcDataRead_ends {m : Master} {n : Fin 16} {c : Fin 2} {s : State} :
    Ends 0x140BFFDFEFFF s (execAcDataRead m n c s) := .of State.readCmd_ends

theorem execCalibrationStart_ends {m : Master} {n : Fin 16} {c : Fin 2} {v : Word} {s : State} :
    Ends 0x140BFFDFEFFF s (execCalibrationStart m n c v s) := .of State.writeCmd_ends

theorem execSdDataRead_ends {m : Master} {n : Fin 16} {d : Fin 4} {s : State} :
    Ends 0x140BFFDFEFFF s (execSdDataRead m n d s) := .of State.readCmd_ends

theorem execEqPresetWrite_ends {m : Master} {n : Fin 16} {q : Fin 2} {v : Word} {s : State} :
    Ends 0x140BFFDFEFFF s (execEqPresetWrite m n q v s) := .of State.writeCmd_ends

theorem execCompareArm_ends {m : Master} {n : Fin 16} {q : Fin 2} {v : Word} {s : State} :
    Ends 0x140BFFDFEFFF s (execCompareArm m n q v s) := .of State.writeCmd_ends

theorem execCompareDisarm_ends {m : Master} {n : Fin 16} {q : Fin 2} {v : Word} {s : State} :
    Ends 0x140BFFDFEFFF s (execCompareDisarm m n q v s) := .of State.writeCmd_ends

theorem execMarkRead_ends {m : Master} {n : Fin 16} {k : Fin 4} {s : State} :
    Ends 0x140BFFDFEFFF s (execMarkRead m n k s) := .of State.readCmd_ends

theorem execLeRunWrite_ends {m : Master} {n : Fin 16} {e : Fin 6} {v : Word} {s : State} :
    Ends 0x140BFFDFEFFF s (execLeRunWrite m n e v s) := .of State.writeCmd_ends

theorem execLatWrite_ends {m : Master} {n : Fin 16} {e : Fin 6} {c : Fin 8} {v : Word} {s : State} :
    Ends 0x140BFFDFEFFF s (execLatWrite m n e c v s) := .of State.writeCmd_ends

theorem execIcLeSubstWrite_ends {m : Master} {n : Fin 16} {v : Word} {s : State} :
    Ends 0x140BFFDFEFFF s (execIcLeSubstWrite m n v s) := .of State.writeCmd_ends

theorem execSlotEnable_ends {m : Master} {n : Fin 8} {slot : Fin 256} {v : Word} {s : State} :
    Ends 0x140BFFDFEFFF s (execSlotEnable m n slot v s) := .of State.writeCmd_ends

theorem execSlotKick_ends {m : Master} {n : Fin 8} {slot : Fin 256} {v : Word} {s : State} :
    Ends 0x140BFFDFEFFF s (execSlotKick m n slot v s) := .of State.writeCmd_ends

theorem execSlotInit_ends {m : Master} {n : Fin 8} {slot : Fin 256} {v : Word} {s : State} :
    Ends 0x140BFFDFEFFF s (execSlotInit m n slot v s) := .of State.writeCmd_ends

theorem execSlotPin_ends {m : Master} {n : Fin 8} {slot : Fin 256} {v : Word} {s : State} :
    Ends 0x140BFFDFEFFF s (execSlotPin m n slot v s) := .of State.writeCmd_ends

theorem execSchSpillWrite_ends {m : Master} {n : Fin 8} {v : Word} {s : State} :
    Ends 0x140BFFDFEFFF s (execSchSpillWrite m n v s) := .of State.writeCmd_ends

theorem execSchRelease_ends {m : Master} {n : Fin 8} {v : Word} {s : State} :
    Ends 0x140BFFDFEFFF s (execSchRelease m n v s) := .of State.writeCmd_ends

theorem execCoreHold_ends {m : Master} {n : Fin 8} {v : Word} {s : State} :
    Ends 0x140BFFDFEFFF s (execCoreHold m n v s) := .of State.writeCmd_ends

theorem execPairLock_ends {m : Master} {n : Fin 8} {v : Word} {s : State} :
    Ends 0x140BFFDFEFFF s (execPairLock m n v s) := .of State.writeCmd_ends

theorem execPwIslandOffWrite_ends {m : Master} {v : Word} {s : State} :
    Ends 0x140BFFDFEFFF s (execPwIslandOffWrite m v s) := .of State.writeCmd_ends

theorem execPwIslandOnWrite_ends {m : Master} {v : Word} {s : State} :
    Ends 0x140BFFDFEFFF s (execPwIslandOnWrite m v s) := .of State.writeCmd_ends

theorem execPwIslandResetWrite_ends {m : Master} {v : Word} {s : State} :
    Ends 0x140BFFDFEFFF s (execPwIslandResetWrite m v s) := .of State.writeCmd_ends

theorem execWatchRequest_ends {m : Master} {v : Word} {s : State} : Ends 0x140BFFDFEFFF s (execWatchRequest m v s) :=
  .of State.writeCmd_ends

theorem execPwTestWrite_ends {m : Master} {v : Word} {s : State} : Ends 0x140BFFDFEFFF s (execPwTestWrite m v s) :=
  .of State.writeCmd_ends

theorem execFlashProgram_ends {m : Master} {b : Fin 2} {s : State} : Ends 0x140BFFDFEFFF s (execFlashProgram m b s) :=
  .of State.writeCmd_ends

theorem execFlashErase_ends {m : Master} {b : Fin 2} {s : State} : Ends 0x140BFFDFEFFF s (execFlashErase m b s) :=
  .of State.writeCmd_ends

theorem execFlashClrInt_ends {m : Master} {b : Fin 2} {s : State} : Ends 0x140BFFDFEFFF s (execFlashClrInt m b s) :=
  .of State.writeCmd_ends

theorem execDmaGo_ends {m : Master} {c : Fin 64} {v : Word} {s : State} : Ends 0x140BFFDFEFFF s (execDmaGo m c v s) :=
  .of State.writeCmd_ends

theorem execDmaStop_ends {m : Master} {c : Fin 64} {v : Word} {s : State} :
    Ends 0x140BFFDFEFFF s (execDmaStop m c v s) := .of State.writeCmd_ends

theorem execQpPush_ends {m : Master} {d p : Fin 16} {s : State} : Ends 0x140BFFDFEFFF s (execQpPush m d p s) :=
  .of State.readCmd_ends

theorem execQpPop_ends {m : Master} {d p : Fin 16} {s : State} : Ends 0x140BFFDFEFFF s (execQpPop m d p s) :=
  .of State.readCmd_ends

theorem execQueueConfigure_ends {m : Master} {q : Fin 65536} {v : Word} {s : State} :
    Ends 0x140BFFDFEFFF s (execQueueConfigure m q v s) := .of State.writeCmd_ends

theorem execQueueOwn_ends {m : Master} {q : Fin 65536} {v : Word} {s : State} :
    Ends 0x140BFFDFEFFF s (execQueueOwn m q v s) := .of State.writeCmd_ends

theorem execWatermarkWrite_ends {m : Master} {q : Fin 65536} {v : Word} {s : State} :
    Ends 0x140BFFDFEFFF s (execWatermarkWrite m q v s) := .of State.writeCmd_ends

theorem execUartDataWrite_ends {m : Master} {k : Fin 4} {v : Word} {s : State} :
    Ends 0x140BFFDFEFFF s (execUartDataWrite m k v s) := .of State.writeCmd_ends

theorem execSpiDataWrite_ends {m : Master} {k : Fin 8} {v : Word} {s : State} :
    Ends 0x140BFFDFEFFF s (execSpiDataWrite m k v s) := .of State.writeCmd_ends

theorem execI2cCmdWrite_ends {m : Master} {k : Fin 4} {v : Word} {s : State} :
    Ends 0x140BFFDFEFFF s (execI2cCmdWrite m k v s) := .of State.writeCmd_ends

end Sys2Proof.Machine
end

section
/-!
What the operations of the stage commands may touch.
-/
namespace Sys2Proof.Machine
open Sys2Proof
set_option Elab.async false

theorem execConverterScaling_ends {n : Fin 16} {m : Fin 6} {c : Fin 8} {res : Residue} {s : State} :
    Ends 0x14010C990337 s (execConverterScaling n m c res s) :=
  .next (State.stageCmd_touch fun _ _ _ => .of State.lawStage_touch)

theorem execSigmaDeltaScaling_ends {n : Fin 16} {m : Fin 6} {c : Fin 8} {res : Residue} {s : State} :
    Ends 0x14010C990337 s (execSigmaDeltaScaling n m c res s) :=
  .next (State.stageCmd_touch fun _ _ _ => .of State.lawStage_touch)

theorem execEncoderDecode_ends {n : Fin 16} {m : Fin 6} {c : Fin 8} {res : Residue} {s : State} :
    Ends 0x14010C990337 s (execEncoderDecode n m c res s) :=
  .next (State.stageCmd_touch fun _ _ _ => .of State.lawStage_touch)

theorem execSinCosInterpolation_ends {n : Fin 16} {m : Fin 6} {c : Fin 8} {res : Residue} {s : State} :
    Ends 0x14010C990337 s (execSinCosInterpolation n m c res s) :=
  .next (State.stageCmd_touch fun _ _ _ => .of State.lawStage_touch)

theorem execResolverDemodulation_ends {n : Fin 16} {m : Fin 6} {c : Fin 8} {res : Residue} {s : State} :
    Ends 0x14010C990337 s (execResolverDemodulation n m c res s) :=
  .next (State.stageCmd_touch fun _ _ _ => .of State.lawStage_touch)

theorem execClarke_ends {n : Fin 16} {m : Fin 6} {c : Fin 8} {res : Residue} {s : State} :
    Ends 0x14010C990337 s (execClarke n m c res s) :=
  .next (State.stageCmd_touch fun _ _ _ => .of State.lawStage_touch)

theorem execInverseClarke_ends {n : Fin 16} {m : Fin 6} {c : Fin 8} {res : Residue} {s : State} :
    Ends 0x14010C990337 s (execInverseClarke n m c res s) :=
  .next (State.stageCmd_touch fun _ _ _ => .of State.lawStage_touch)

theorem execPark_ends {n : Fin 16} {m : Fin 6} {c : Fin 8} {res : Residue} {s : State} :
    Ends 0x14010C990337 s (execPark n m c res s) := .next (State.stageCmd_touch fun _ _ _ => .of State.lawStage_touch)

theorem execInversePark_ends {n : Fin 16} {m : Fin 6} {c : Fin 8} {res : Residue} {s : State} :
    Ends 0x14010C990337 s (execInversePark n m c res s) :=
  .next (State.stageCmd_touch fun _ _ _ => .of State.lawStage_touch)

theorem execSinCos_ends {n : Fin 16} {m : Fin 6} {c : Fin 8} {res : Residue} {s : State} :
    Ends 0x14010C990337 s (execSinCos n m c res s) :=
  .next (State.stageCmd_touch fun _ _ _ => .of State.lawStage_touch)

theorem execAtan2_ends {n : Fin 16} {m : Fin 6} {c : Fin 8} {res : Residue} {s : State} :
    Ends 0x14010C990337 s (execAtan2 n m c res s) := .next (State.stageCmd_touch fun _ _ _ => .of State.lawStage_touch)

theorem execMagnitude_ends {n : Fin 16} {m : Fin 6} {c : Fin 8} {res : Residue} {s : State} :
    Ends 0x14010C990337 s (execMagnitude n m c res s) :=
  .next (State.stageCmd_touch fun _ _ _ => .of State.lawStage_touch)

theorem execPiBackCalculation_ends {n : Fin 16} {m : Fin 6} {c : Fin 8} {res : Residue} {s : State} :
    Ends 0x14010C990337 s (execPiBackCalculation n m c res s) :=
  .next (State.stageCmd_touch fun _ _ _ => .of State.lawStage_touch)

theorem execPidFilteredDerivative_ends {n : Fin 16} {m : Fin 6} {c : Fin 8} {res : Residue} {s : State} :
    Ends 0x14010C990337 s (execPidFilteredDerivative n m c res s) :=
  .next (State.stageCmd_touch fun _ _ _ => .of State.lawStage_touch)

theorem execTwoDegreeOfFreedomPi_ends {n : Fin 16} {m : Fin 6} {c : Fin 8} {res : Residue} {s : State} :
    Ends 0x14010C990337 s (execTwoDegreeOfFreedomPi n m c res s) :=
  .next (State.stageCmd_touch fun _ _ _ => .of State.lawStage_touch)

theorem execProportionalResonant_ends {n : Fin 16} {m : Fin 6} {c : Fin 8} {res : Residue} {s : State} :
    Ends 0x14010C990337 s (execProportionalResonant n m c res s) :=
  .next (State.stageCmd_touch fun _ _ _ => .of State.lawStage_touch)

theorem execLeadLag_ends {n : Fin 16} {m : Fin 6} {c : Fin 8} {res : Residue} {s : State} :
    Ends 0x14010C990337 s (execLeadLag n m c res s) :=
  .next (State.stageCmd_touch fun _ _ _ => .of State.lawStage_touch)

theorem execFirstOrderLowPass_ends {n : Fin 16} {m : Fin 6} {c : Fin 8} {res : Residue} {s : State} :
    Ends 0x14010C990337 s (execFirstOrderLowPass n m c res s) :=
  .next (State.stageCmd_touch fun _ _ _ => .of State.lawStage_touch)

theorem execBiquad_ends {n : Fin 16} {m : Fin 6} {c : Fin 8} {res : Residue} {s : State} :
    Ends 0x14010C990337 s (execBiquad n m c res s) :=
  .next (State.stageCmd_touch fun _ _ _ => .of State.lawStage_touch)

theorem execNotch_ends {n : Fin 16} {m : Fin 6} {c : Fin 8} {res : Residue} {s : State} :
    Ends 0x14010C990337 s (execNotch n m c res s) := .next (State.stageCmd_touch fun _ _ _ => .of State.lawStage_touch)

theorem execMovingAverage_ends {n : Fin 16} {m : Fin 6} {c : Fin 8} {res : Residue} {s : State} :
    Ends 0x14010C990337 s (execMovingAverage n m c res s) :=
  .next (State.stageCmd_touch fun _ _ _ => .of State.lawStage_touch)

theorem execSpeedObserver_ends {n : Fin 16} {m : Fin 6} {c : Fin 8} {res : Residue} {s : State} :
    Ends 0x14010C990337 s (execSpeedObserver n m c res s) :=
  .next (State.stageCmd_touch fun _ _ _ => .of State.lawStage_touch)

theorem execFluxObserver_ends {n : Fin 16} {m : Fin 6} {c : Fin 8} {res : Residue} {s : State} :
    Ends 0x14010C990337 s (execFluxObserver n m c res s) :=
  .next (State.stageCmd_touch fun _ _ _ => .of State.lawStage_touch)

theorem execSynchronousFramePll_ends {n : Fin 16} {m : Fin 6} {c : Fin 8} {res : Residue} {s : State} :
    Ends 0x14010C990337 s (execSynchronousFramePll n m c res s) :=
  .next (State.stageCmd_touch fun _ _ _ => .of State.lawStage_touch)

theorem execSaturate_ends {n : Fin 16} {m : Fin 6} {c : Fin 8} {res : Residue} {s : State} :
    Ends 0x14010C990337 s (execSaturate n m c res s) :=
  .next (State.stageCmd_touch fun _ _ _ => .of State.lawStage_touch)

theorem execRateLimit_ends {n : Fin 16} {m : Fin 6} {c : Fin 8} {res : Residue} {s : State} :
    Ends 0x14010C990337 s (execRateLimit n m c res s) :=
  .next (State.stageCmd_touch fun _ _ _ => .of State.lawStage_touch)

theorem execCircularDqLimit_ends {n : Fin 16} {m : Fin 6} {c : Fin 8} {res : Residue} {s : State} :
    Ends 0x14010C990337 s (execCircularDqLimit n m c res s) :=
  .next (State.stageCmd_touch fun _ _ _ => .of State.lawStage_touch)

theorem execSineTriangle_ends {n : Fin 16} {m : Fin 6} {c : Fin 8} {res : Residue} {s : State} :
    Ends 0x14010C990337 s (execSineTriangle n m c res s) :=
  .next (State.stageCmd_touch fun _ _ _ => .of State.lawStage_touch)

theorem execSpaceVector_ends {n : Fin 16} {m : Fin 6} {c : Fin 8} {res : Residue} {s : State} :
    Ends 0x14010C990337 s (execSpaceVector n m c res s) :=
  .next (State.stageCmd_touch fun _ _ _ => .of State.lawStage_touch)

theorem execDiscontinuous_ends {n : Fin 16} {m : Fin 6} {c : Fin 8} {res : Residue} {s : State} :
    Ends 0x14010C990337 s (execDiscontinuous n m c res s) :=
  .next (State.stageCmd_touch fun _ _ _ => .of State.lawStage_touch)

theorem execThreeLevelNpc_ends {n : Fin 16} {m : Fin 6} {c : Fin 8} {res : Residue} {s : State} :
    Ends 0x14010C990337 s (execThreeLevelNpc n m c res s) :=
  .next (State.stageCmd_touch fun _ _ _ => .of State.lawStage_touch)

theorem execOvermodulation_ends {n : Fin 16} {m : Fin 6} {c : Fin 8} {res : Residue} {s : State} :
    Ends 0x14010C990337 s (execOvermodulation n m c res s) :=
  .next (State.stageCmd_touch fun _ _ _ => .of State.lawStage_touch)

theorem execDeadTime_ends {n : Fin 16} {m : Fin 6} {c : Fin 8} {res : Residue} {s : State} :
    Ends 0x14010C990337 s (execDeadTime n m c res s) :=
  .next (State.stageCmd_touch fun _ _ _ => .of State.lawStage_touch)

theorem execDcLink_ends {n : Fin 16} {m : Fin 6} {c : Fin 8} {res : Residue} {s : State} :
    Ends 0x14010C990337 s (execDcLink n m c res s) :=
  .next (State.stageCmd_touch fun _ _ _ => .of State.lawStage_touch)

theorem execDqDecoupling_ends {n : Fin 16} {m : Fin 6} {c : Fin 8} {res : Residue} {s : State} :
    Ends 0x14010C990337 s (execDqDecoupling n m c res s) :=
  .next (State.stageCmd_touch fun _ _ _ => .of State.lawStage_touch)

theorem execShaper_ends {n : Fin 16} {m : Fin 6} {c : Fin 8} {res : Residue} {s : State} :
    Ends 0x14010C990337 s (execShaper n m c res s) :=
  .next (State.stageCmd_touch fun _ _ _ => .of State.lawStage_touch)

theorem execGearing_ends {n : Fin 16} {m : Fin 6} {c : Fin 8} {res : Residue} {s : State} :
    Ends 0x14010C990337 s (execGearing n m c res s) :=
  .next (State.stageCmd_touch fun _ _ _ => .of State.lawStage_touch)

theorem execMove_ends {n : Fin 16} {m : Fin 6} {c : Fin 8} {res : Residue} {s : State} :
    Ends 0x14010C990337 s (execMove n m c res s) := .next (State.stageCmd_touch fun _ _ _ => .of State.lawStage_touch)

theorem execAffine_ends {n : Fin 16} {m : Fin 6} {c : Fin 8} {res : Residue} {s : State} :
    Ends 0x14010C990337 s (execAffine n m c res s) :=
  .next (State.stageCmd_touch fun _ _ _ => .of State.lawStage_touch)

theorem execCompareSelect_ends {n : Fin 16} {m : Fin 6} {c : Fin 8} {res : Residue} {s : State} :
    Ends 0x14010C990337 s (execCompareSelect n m c res s) :=
  .next (State.stageCmd_touch fun _ _ _ => .of State.lawStage_touch)

theorem State.gatherOne_touch {s : State} {n m c : Nat} {h : Hdr} : Touch 0xC900007 s (s.gatherOne n m c h).2 := by
  unfold State.gatherOne
  split
  · exact .refl
  · exact Touch.of State.gather_touch |>.trans (by split <;> exact .ofPair ‹_› .refl)

theorem State.settle_touch {s : State} {n m c i : Nat} {h : Hdr} {o : LawOut} :
    Touch 0x140104910237 s (s.settle n m c i h o) :=
  Touch.of State.nonfinite_touch
    |>.then State.commit_touch
    |>.then State.putOut_touch
    |>.then State.stageDone_touch

theorem State.camCompute_touch {n m c : Nat} {prevO : BitVec 64} {boundary : Bool} {s : State} {i : Nat} {h : Hdr} {x : LawIn} :
    Touch 0x14010C910237 s (State.camCompute n m c prevO boundary s i h x) := by
  unfold State.camCompute
  dsimp only
  split
  · exact .of State.settle_touch
  · exact .after State.settle_touch <| .iteSnd (.of State.operands_touch) .refl

theorem State.camStage_touch {n m c : Nat} {s : State} {i : Nat} {h : Hdr} :
    Touch 0x14010C910237 s (State.camStage n m c s i h) := by
  unfold State.camStage
  dsimp only
  split
  · exact .after State.settle_touch <| .of State.gatherOne_touch
  · exact
      .afterAll (.ite
         (.afterAll (.ite
             (.of State.chainFault_touch)
             (.ite
                .refl
                (.afterAll (.ite (.of State.settle_touch) (.of State.camCompute_touch)) <|
                 .of State.gatherOne_touch))) <|
          .of State.swap_touch)
         (.of State.camCompute_touch)) <|
      .of State.gatherOne_touch

theorem execCam_ends {n : Fin 16} {m : Fin 6} {c : Fin 8} {res : Residue} {s : State} :
    Ends 0x14010C990337 s (execCam n m c res s) := .next (State.stageCmd_touch fun _ _ _ => .of State.camStage_touch)

theorem State.compareArmStage_touch {n m c : Nat} {s : State} {i : Nat} {h : Hdr} :
    Touch 0x14010C910237 s (State.compareArmStage n m c s i h) :=
  Touch.of State.gatherOne_touch |>.trans (.ite (.of State.leOutputs_touch) .refl) |>.then State.settle_touch

theorem execPositionCompareArm_ends {n : Fin 16} {m : Fin 6} {c : Fin 8} {res : Residue} {s : State} :
    Ends 0x14010C990337 s (execPositionCompareArm n m c res s) :=
  .next (State.stageCmd_touch fun _ _ _ => .of State.compareArmStage_touch)

theorem State.fcsStage_touch {n m c pass : Nat} {s : State} {i : Nat} {h : Hdr} :
    Touch 0x14010C910237 s (State.fcsStage n m c pass s i h) :=
  Touch.ite
    (Touch.of State.gatherOne_touch |>.then State.setCtx_touch)
    .refl
    |>.trans (.ite (.of State.settle_touch) (.of State.setCtx_touch))

theorem execFcsMpc_ends {n : Fin 16} {m : Fin 6} {c : Fin 8} {res : Residue} {pass : Fin 4} {s : State} :
    Ends 0x14010C990337 s (execFcsMpc n m c res pass s) :=
  .next (.ite (State.stageCmd_touch fun _ _ _ => .of State.fcsStage_touch) .refl)

theorem State.tuneStage_touch {n m c : Nat} {s : State} {i : Nat} {h : Hdr} :
    Touch 0x14010C910237 s (State.tuneStage n m c s i h) := by
  unfold State.tuneStage
  dsimp only
  exact
    .after State.settle_touch <|
    .after (State.setLe_touch_ctxs rfl) <|
    .of State.gatherOne_touch

theorem execRelayAutoTune_ends {n : Fin 16} {m : Fin 6} {c : Fin 8} {res : Residue} {s : State} :
    Ends 0x14010C990337 s (execRelayAutoTune n m c res s) :=
  .next (State.stageCmd_touch fun _ _ _ => .of State.tuneStage_touch)

theorem execTable256Point_ends {n : Fin 16} {m : Fin 6} {c : Fin 8} {res : Residue} {s : State} :
    Ends 0x14010C990337 s (execTable256Point n m c res s) :=
  .next (State.stageCmd_touch fun _ _ _ => .of State.lawStage_touch)

theorem State.emitStage_touch {n m c : Nat} {s : State} {i : Nat} {h : Hdr} :
    Touch 0x14010C910237 s (State.emitStage n m c s i h) :=
  Touch.of State.gatherOne_touch |>.trans (.ite (.of State.leOutputs_touch) .refl) |>.then State.settle_touch

theorem execEventEmit_ends {n : Fin 16} {m : Fin 6} {c : Fin 8} {res : Residue} {s : State} :
    Ends 0x14010C990337 s (execEventEmit n m c res s) :=
  .next (State.stageCmd_touch fun _ _ _ => .of State.emitStage_touch)

theorem State.transferStage_touch {n m c : Nat} {s : State} {i : Nat} {h : Hdr} :
    Touch 0x14010C910237 s (State.transferStage n m c s i h) := by
  unfold State.transferStage
  dsimp only
  refine .ite ?_ ?_
  · exact .after State.stageDone_touch <| .after State.putOut_touch <| .of State.operands_touch
  · refine .ite ?_ ?_
    · exact .after State.stageDone_touch <| .after State.putOut_touch <| .of State.operands_touch
    · refine .after State.stageDone_touch ?_
      refine .after State.putOut_touch ?_
      split
      · exact
          .afterAll (.ite (.of State.xmRefuse_touch) .refl) <|
          .ite
            (State.leExchange_touch fun _ => .refl)
            .refl
      · exact .ite (State.leExchange_touch fun _ => .refl) .refl

theorem execExchangeTransfer_ends {n : Fin 16} {m : Fin 6} {c : Fin 8} {res : Residue} {s : State} :
    Ends 0x14010C990337 s (execExchangeTransfer n m c res s) :=
  .next (State.stageCmd_touch fun _ _ _ => .of State.transferStage_touch)

theorem State.timerOutStage_touch {n m c : Nat} {s : State} {i : Nat} {h : Hdr} :
    Touch 0x14010C910237 s (State.timerOutStage n m c s i h) := by
  unfold State.timerOutStage
  dsimp only
  split
  · exact .refl
  · exact
      .after State.stageDone_touch <|
      .after State.leOutputs_touch <|
      .after State.nonfinite_touch <|
      .of State.gather_touch

theorem execTimerOutput_ends {n : Fin 16} {m : Fin 6} {c : Fin 8} {res : Residue} {s : State} :
    Ends 0x14010C990337 s (execTimerOutput n m c res s) :=
  .next (State.stageCmd_touch fun _ _ _ => .of State.timerOutStage_touch)

end Sys2Proof.Machine
end

section
/-!
What a command may touch, and what it keeps: the frames of the six guarded parts, canonical form and soundness.
-/
namespace Sys2Proof.Machine
open Sys2Proof
set_option Elab.async false

/-- Every part but the link records, the SAFE_N ball, the offset of device time, the calendar, the unlock level and the
rollback counter: the six guarded parts. -/
def unguardedMask : Nat := 0x1C3FFFDFEFFF

/-- Mask `w` allows what command `c` may touch: no guarded part, or the one that `c` is listed for, or, where the device
starts, every part. -/
inductive Covers : Nat → Instr → Prop
  | other (c : Instr) : Covers unguardedMask c
  | linkTimeout (l) : Covers (unguardedMask ||| 0x1000) (.linkTimeout l)
  | linkReset (l p) : Covers (unguardedMask ||| 0x1000) (.linkReset l p)
  | safeNAssert : Covers (unguardedMask ||| 0x200000) .safeNAssert
  | safeNDeassert : Covers (unguardedMask ||| 0x200000) .safeNDeassert
  | deviceTimeStep : Covers (unguardedMask ||| 0x4000000000) .deviceTimeStep
  | islandSync (n) : Covers (unguardedMask ||| 0x4000000000) (.islandSync n)
  | ottarStartup : Covers (unguardedMask ||| 0x4000000000) .ottarStartup
  | wakeComplete (b) : Covers (unguardedMask ||| 0x4000000000) (.wakeComplete b)
  | calendarSecond : Covers (unguardedMask ||| 0x8000000000) .calendarSecond
  | calendarLoad : Covers (unguardedMask ||| 0x8000000000) .calendarLoad
  | vbakRise : Covers (unguardedMask ||| 0x8000000000) .vbakRise
  | oscStop : Covers (unguardedMask ||| 0x8000000000) .oscStop
  | secUnlock (m) : Covers (unguardedMask ||| 0x10000000000) (.secUnlock m)
  | secLock (m) : Covers (unguardedMask ||| 0x10000000000) (.secLock m)
  | fwCommit (m v) : Covers (unguardedMask ||| 0x20000000000) (.fwCommit m v)
  | powerOnReset (x b) : Covers 0x1FFFFFFFFFFF (.powerOnReset x b)
  | backupEntry : Covers 0x1FFFFFFFFFFF .backupEntry

theorem Ends.unguarded {v : Nat} {s : State} {o : Host.Outcome State Fault Refusal} (h : Ends v s o)
    (hv : (v ||| unguardedMask == unguardedMask) = true := by rfl) : Ends unguardedMask s o := h.of hv

theorem exec_ends (c : Instr) (s : State) : ∃ w, Covers w c ∧ Ends w s (exec c s) := by
  cases c with
  | registerWrite _ _ _ _ => exact ⟨_, .other _, .unguarded execRegisterWrite_ends⟩
  | scStatusWrite _ _ _ => exact ⟨_, .other _, .unguarded execScStatusWrite_ends⟩
  | llRead _ _ => exact ⟨_, .other _, .unguarded execLlRead_ends⟩
  | xmFrameCfgWrite _ _ _ => exact ⟨_, .other _, .unguarded execXmFrameCfgWrite_ends⟩
  | stagingWrite _ _ _ => exact ⟨_, .other _, .unguarded execStagingWrite_ends⟩
  | ebDirectWrite _ _ _ => exact ⟨_, .other _, .unguarded execEbDirectWrite_ends⟩
  | linkTimeout _ => exact ⟨_, .linkTimeout _, .of execLinkTimeout_ends⟩
  | linkReset _ _ => exact ⟨_, .linkReset _ _, .of execLinkReset_ends⟩
  | islandSync _ => exact ⟨_, .islandSync _, .of execIslandSync_ends⟩
  | syncLost _ => exact ⟨_, .other _, .unguarded execSyncLost_ends⟩
  | tbRateWrite _ _ => exact ⟨_, .other _, .unguarded execTbRateWrite_ends⟩
  | rateIncrement => exact ⟨_, .other _, .unguarded execRateIncrement_ends⟩
  | tbStepHiWrite _ _ => exact ⟨_, .other _, .unguarded execTbStepHiWrite_ends⟩
  | deviceTimeStep => exact ⟨_, .deviceTimeStep, .of execDeviceTimeStep_ends⟩
  | tbDiscWrite _ _ => exact ⟨_, .other _, .unguarded execTbDiscWrite_ends⟩
  | asSyncMessage _ _ => exact ⟨_, .other _, .unguarded execAsSyncMessage_ends⟩
  | servoHoldover => exact ⟨_, .other _, .unguarded execServoHoldover_ends⟩
  | tbStartGo _ _ => exact ⟨_, .other _, .unguarded execTbStartGo_ends⟩
  | tbStartAtHiWrite _ _ => exact ⟨_, .other _, .unguarded execTbStartAtHiWrite_ends⟩
  | tbStartCancel _ _ => exact ⟨_, .other _, .unguarded execTbStartCancel_ends⟩
  | globalStart => exact ⟨_, .other _, .unguarded execGlobalStart_ends⟩
  | couplingRelease _ _ => exact ⟨_, .other _, .unguarded execCouplingRelease_ends⟩
  | calSetHiWrite _ _ => exact ⟨_, .other _, .unguarded execCalSetHiWrite_ends⟩
  | calendarLoad => exact ⟨_, .calendarLoad, .of execCalendarLoad_ends⟩
  | vbakRise => exact ⟨_, .vbakRise, .of execVbakRise_ends⟩
  | oscStop => exact ⟨_, .oscStop, .of execOscStop_ends⟩
  | calendarSecond => exact ⟨_, .calendarSecond, .of execCalendarSecond_ends⟩
  | leapOffsetChange => exact ⟨_, .other _, .unguarded execLeapOffsetChange_ends⟩
  | alarmArm _ _ _ => exact ⟨_, .other _, .unguarded execAlarmArm_ends⟩
  | alarmFire _ => exact ⟨_, .other _, .unguarded execAlarmFire_ends⟩
  | epOpenRead _ => exact ⟨_, .other _, .unguarded execEpOpenRead_ends⟩
  | epStageWrite _ _ => exact ⟨_, .other _, .unguarded execEpStageWrite_ends⟩
  | epSlotAtHiWrite _ _ _ => exact ⟨_, .other _, .unguarded execEpSlotAtHiWrite_ends⟩
  | epHaulGoWrite _ _ => exact ⟨_, .other _, .unguarded execEpHaulGoWrite_ends⟩
  | epAbandonWrite _ _ => exact ⟨_, .other _, .unguarded execEpAbandonWrite_ends⟩
  | abandonComplete _ => exact ⟨_, .other _, .unguarded execAbandonComplete_ends⟩
  | haulDown _ => exact ⟨_, .other _, .unguarded execHaulDown_ends⟩
  | unsyncApply _ => exact ⟨_, .other _, .unguarded execUnsyncApply_ends⟩
  | snCountWrite _ _ => exact ⟨_, .other _, .unguarded execSnCountWrite_ends⟩
  | snLoad _ _ => exact ⟨_, .other _, .unguarded execSnLoad_ends⟩
  | snapshotListLoaded => exact ⟨_, .other _, .unguarded execSnapshotListLoaded_ends⟩
  | snAtHiWrite _ _ => exact ⟨_, .other _, .unguarded execSnAtHiWrite_ends⟩
  | snGo _ _ => exact ⟨_, .other _, .unguarded execSnGo_ends⟩
  | snCancel _ _ => exact ⟨_, .other _, .unguarded execSnCancel_ends⟩
  | snapshotCapture => exact ⟨_, .other _, .unguarded execSnapshotCapture_ends⟩
  | snapshotFillDone => exact ⟨_, .other _, .unguarded execSnapshotFillDone_ends⟩
  | leRunWrite _ _ _ _ => exact ⟨_, .other _, .unguarded execLeRunWrite_ends⟩
  | contextEnable _ _ _ => exact ⟨_, .other _, .unguarded execContextEnable_ends⟩
  | contextTrigger _ _ _ => exact ⟨_, .other _, .unguarded execContextTrigger_ends⟩
  | inputsFresh _ _ _ => exact ⟨_, .other _, .unguarded execInputsFresh_ends⟩
  | contextWaitTimeout _ _ _ => exact ⟨_, .other _, .unguarded execContextWaitTimeout_ends⟩
  | outputRelease _ _ _ => exact ⟨_, .other _, .unguarded execOutputRelease_ends⟩
  | latWrite _ _ _ _ _ => exact ⟨_, .other _, .unguarded execLatWrite_ends⟩
  | icLeSubstWrite _ _ _ => exact ⟨_, .other _, .unguarded execIcLeSubstWrite_ends⟩
  | substituteSelftest _ _ => exact ⟨_, .other _, .unguarded execSubstituteSelftest_ends⟩
  | retirementCopyDone _ _ => exact ⟨_, .other _, .unguarded execRetirementCopyDone_ends⟩
  | converterScaling _ _ _ _ => exact ⟨_, .other _, .unguarded execConverterScaling_ends⟩
  | sigmaDeltaScaling _ _ _ _ => exact ⟨_, .other _, .unguarded execSigmaDeltaScaling_ends⟩
  | encoderDecode _ _ _ _ => exact ⟨_, .other _, .unguarded execEncoderDecode_ends⟩
  | sinCosInterpolation _ _ _ _ => exact ⟨_, .other _, .unguarded execSinCosInterpolation_ends⟩
  | resolverDemodulation _ _ _ _ => exact ⟨_, .other _, .unguarded execResolverDemodulation_ends⟩
  | clarke _ _ _ _ => exact ⟨_, .other _, .unguarded execClarke_ends⟩
  | inverseClarke _ _ _ _ => exact ⟨_, .other _, .unguarded execInverseClarke_ends⟩
  | park _ _ _ _ => exact ⟨_, .other _, .unguarded execPark_ends⟩
  | inversePark _ _ _ _ => exact ⟨_, .other _, .unguarded execInversePark_ends⟩
  | sinCos _ _ _ _ => exact ⟨_, .other _, .unguarded execSinCos_ends⟩
  | atan2 _ _ _ _ => exact ⟨_, .other _, .unguarded execAtan2_ends⟩
  | magnitude _ _ _ _ => exact ⟨_, .other _, .unguarded execMagnitude_ends⟩
  | piBackCalculation _ _ _ _ => exact ⟨_, .other _, .unguarded execPiBackCalculation_ends⟩
  | pidFilteredDerivative _ _ _ _ => exact ⟨_, .other _, .unguarded execPidFilteredDerivative_ends⟩
  | twoDegreeOfFreedomPi _ _ _ _ => exact ⟨_, .other _, .unguarded execTwoDegreeOfFreedomPi_ends⟩
  | proportionalResonant _ _ _ _ => exact ⟨_, .other _, .unguarded execProportionalResonant_ends⟩
  | leadLag _ _ _ _ => exact ⟨_, .other _, .unguarded execLeadLag_ends⟩
  | firstOrderLowPass _ _ _ _ => exact ⟨_, .other _, .unguarded execFirstOrderLowPass_ends⟩
  | biquad _ _ _ _ => exact ⟨_, .other _, .unguarded execBiquad_ends⟩
  | notch _ _ _ _ => exact ⟨_, .other _, .unguarded execNotch_ends⟩
  | movingAverage _ _ _ _ => exact ⟨_, .other _, .unguarded execMovingAverage_ends⟩
  | speedObserver _ _ _ _ => exact ⟨_, .other _, .unguarded execSpeedObserver_ends⟩
  | fluxObserver _ _ _ _ => exact ⟨_, .other _, .unguarded execFluxObserver_ends⟩
  | synchronousFramePll _ _ _ _ => exact ⟨_, .other _, .unguarded execSynchronousFramePll_ends⟩
  | saturate _ _ _ _ => exact ⟨_, .other _, .unguarded execSaturate_ends⟩
  | rateLimit _ _ _ _ => exact ⟨_, .other _, .unguarded execRateLimit_ends⟩
  | circularDqLimit _ _ _ _ => exact ⟨_, .other _, .unguarded execCircularDqLimit_ends⟩
  | sineTriangle _ _ _ _ => exact ⟨_, .other _, .unguarded execSineTriangle_ends⟩
  | spaceVector _ _ _ _ => exact ⟨_, .other _, .unguarded execSpaceVector_ends⟩
  | discontinuous _ _ _ _ => exact ⟨_, .other _, .unguarded execDiscontinuous_ends⟩
  | threeLevelNpc _ _ _ _ => exact ⟨_, .other _, .unguarded execThreeLevelNpc_ends⟩
  | overmodulation _ _ _ _ => exact ⟨_, .other _, .unguarded execOvermodulation_ends⟩
  | deadTime _ _ _ _ => exact ⟨_, .other _, .unguarded execDeadTime_ends⟩
  | dcLink _ _ _ _ => exact ⟨_, .other _, .unguarded execDcLink_ends⟩
  | dqDecoupling _ _ _ _ => exact ⟨_, .other _, .unguarded execDqDecoupling_ends⟩
  | shaper _ _ _ _ => exact ⟨_, .other _, .unguarded execShaper_ends⟩
  | cam _ _ _ _ => exact ⟨_, .other _, .unguarded execCam_ends⟩
  | gearing _ _ _ _ => exact ⟨_, .other _, .unguarded execGearing_ends⟩
  | positionCompareArm _ _ _ _ => exact ⟨_, .other _, .unguarded execPositionCompareArm_ends⟩
  | fcsMpc _ _ _ _ _ => exact ⟨_, .other _, .unguarded execFcsMpc_ends⟩
  | relayAutoTune _ _ _ _ => exact ⟨_, .other _, .unguarded execRelayAutoTune_ends⟩
  | move _ _ _ _ => exact ⟨_, .other _, .unguarded execMove_ends⟩
  | affine _ _ _ _ => exact ⟨_, .other _, .unguarded execAffine_ends⟩
  | table256Point _ _ _ _ => exact ⟨_, .other _, .unguarded execTable256Point_ends⟩
  | compareSelect _ _ _ _ => exact ⟨_, .other _, .unguarded execCompareSelect_ends⟩
  | eventEmit _ _ _ _ => exact ⟨_, .other _, .unguarded execEventEmit_ends⟩
  | exchangeTransfer _ _ _ _ => exact ⟨_, .other _, .unguarded execExchangeTransfer_ends⟩
  | timerOutput _ _ _ _ => exact ⟨_, .other _, .unguarded execTimerOutput_ends⟩
  | periodBoundary _ _ => exact ⟨_, .other _, .unguarded execPeriodBoundary_ends⟩
  | midPeriod _ _ => exact ⟨_, .other _, .unguarded execMidPeriod_ends⟩
  | channelEventPoint _ _ _ => exact ⟨_, .other _, .unguarded execChannelEventPoint_ends⟩
  | tuRun _ _ _ _ => exact ⟨_, .other _, .unguarded execTuRun_ends⟩
  | tuStopNow _ _ _ _ => exact ⟨_, .other _, .unguarded execTuStopNow_ends⟩
  | tuStart _ _ => exact ⟨_, .other _, .unguarded execTuStart_ends⟩
  | dutyLoadWrite _ _ _ _ _ => exact ⟨_, .other _, .unguarded execDutyLoadWrite_ends⟩
  | tripActive _ _ _ => exact ⟨_, .other _, .unguarded execTripActive_ends⟩
  | tripLatchClear _ _ _ _ => exact ⟨_, .other _, .unguarded execTripLatchClear_ends⟩
  | systemHoldRelease _ _ _ _ => exact ⟨_, .other _, .unguarded execSystemHoldRelease_ends⟩
  | safeNAssert => exact ⟨_, .safeNAssert, .of execSafeNAssert_ends⟩
  | safeNDeassert => exact ⟨_, .safeNDeassert, .of execSafeNDeassert_ends⟩
  | readbackCheck _ _ _ _ => exact ⟨_, .other _, .unguarded execReadbackCheck_ends⟩
  | captureEdge _ _ _ _ _ => exact ⟨_, .other _, .unguarded execCaptureEdge_ends⟩
  | captureRead _ _ _ _ => exact ⟨_, .other _, .unguarded execCaptureRead_ends⟩
  | adcTrigger _ _ _ => exact ⟨_, .other _, .unguarded execAdcTrigger_ends⟩
  | triggerDue _ _ _ => exact ⟨_, .other _, .unguarded execTriggerDue_ends⟩
  | conversionDone _ _ _ => exact ⟨_, .other _, .unguarded execConversionDone_ends⟩
  | referenceCheck _ _ _ _ => exact ⟨_, .other _, .unguarded execReferenceCheck_ends⟩
  | takeover _ _ => exact ⟨_, .other _, .unguarded execTakeover_ends⟩
  | converterEnable _ _ _ _ => exact ⟨_, .other _, .unguarded execConverterEnable_ends⟩
  | acDataRead _ _ _ => exact ⟨_, .other _, .unguarded execAcDataRead_ends⟩
  | calibrationStart _ _ _ _ => exact ⟨_, .other _, .unguarded execCalibrationStart_ends⟩
  | calibrationDone _ _ _ _ _ _ => exact ⟨_, .other _, .unguarded execCalibrationDone_ends⟩
  | driftCheck _ _ _ => exact ⟨_, .other _, .unguarded execDriftCheck_ends⟩
  | sinc3Result _ _ _ => exact ⟨_, .other _, .unguarded execSinc3Result_ends⟩
  | sinc2Result _ _ _ => exact ⟨_, .other _, .unguarded execSinc2Result_ends⟩
  | sdSync _ _ => exact ⟨_, .other _, .unguarded execSdSync_ends⟩
  | sdDataRead _ _ _ => exact ⟨_, .other _, .unguarded execSdDataRead_ends⟩
  | sdClockLost _ _ => exact ⟨_, .other _, .unguarded execSdClockLost_ends⟩
  | sdSaturation _ _ => exact ⟨_, .other _, .unguarded execSdSaturation_ends⟩
  | comparatorTransition _ _ _ => exact ⟨_, .other _, .unguarded execComparatorTransition_ends⟩
  | blankingExpiry _ _ => exact ⟨_, .other _, .unguarded execBlankingExpiry_ends⟩
  | settlingEnd _ _ _ => exact ⟨_, .other _, .unguarded execSettlingEnd_ends⟩
  | encoderEdge _ _ _ _ _ => exact ⟨_, .other _, .unguarded execEncoderEdge_ends⟩
  | encoderIndex _ _ => exact ⟨_, .other _, .unguarded execEncoderIndex_ends⟩
  | eqPresetWrite _ _ _ _ => exact ⟨_, .other _, .unguarded execEqPresetWrite_ends⟩
  | ssiTrigger _ _ _ => exact ⟨_, .other _, .unguarded execSsiTrigger_ends⟩
  | ssiTimeout _ _ => exact ⟨_, .other _, .unguarded execSsiTimeout_ends⟩
  | ssiFrameComplete _ _ _ => exact ⟨_, .other _, .unguarded execSsiFrameComplete_ends⟩
  | compareArm _ _ _ _ => exact ⟨_, .other _, .unguarded execCompareArm_ends⟩
  | compareDisarm _ _ _ _ => exact ⟨_, .other _, .unguarded execCompareDisarm_ends⟩
  | compareArmPennant _ _ => exact ⟨_, .other _, .unguarded execCompareArmPennant_ends⟩
  | dwell _ _ => exact ⟨_, .other _, .unguarded execDwell_ends⟩
  | comparePulseEnd _ _ => exact ⟨_, .other _, .unguarded execComparePulseEnd_ends⟩
  | markCapture _ _ _ _ => exact ⟨_, .other _, .unguarded execMarkCapture_ends⟩
  | markRead _ _ _ => exact ⟨_, .other _, .unguarded execMarkRead_ends⟩
  | pennantTransition _ _ _ => exact ⟨_, .other _, .unguarded execPennantTransition_ends⟩
  | eventRecordPush _ => exact ⟨_, .other _, .unguarded execEventRecordPush_ends⟩
  | debounceExpiry _ => exact ⟨_, .other _, .unguarded execDebounceExpiry_ends⟩
  | fbFire _ _ => exact ⟨_, .other _, .unguarded execFbFire_ends⟩
  | signalSetSwitch _ _ _ => exact ⟨_, .other _, .unguarded execSignalSetSwitch_ends⟩
  | signalSetOn _ => exact ⟨_, .other _, .unguarded execSignalSetOn_ends⟩
  | signalSetOff _ => exact ⟨_, .other _, .unguarded execSignalSetOff_ends⟩
  | add _ _ _ _ _ => exact ⟨_, .other _, .unguarded execAdd_ends⟩
  | sub _ _ _ _ _ => exact ⟨_, .other _, .unguarded execSub_ends⟩
  | and _ _ _ _ _ => exact ⟨_, .other _, .unguarded execAnd_ends⟩
  | or _ _ _ _ _ => exact ⟨_, .other _, .unguarded execOr_ends⟩
  | xor _ _ _ _ _ => exact ⟨_, .other _, .unguarded execXor_ends⟩
  | andn _ _ _ _ _ => exact ⟨_, .other _, .unguarded execAndn_ends⟩
  | shl _ _ _ _ _ => exact ⟨_, .other _, .unguarded execShl_ends⟩
  | shr _ _ _ _ _ => exact ⟨_, .other _, .unguarded execShr_ends⟩
  | sar _ _ _ _ _ => exact ⟨_, .other _, .unguarded execSar_ends⟩
  | ror _ _ _ _ _ => exact ⟨_, .other _, .unguarded execRor_ends⟩
  | shli _ _ _ _ _ => exact ⟨_, .other _, .unguarded execShli_ends⟩
  | shri _ _ _ _ _ => exact ⟨_, .other _, .unguarded execShri_ends⟩
  | sari _ _ _ _ _ => exact ⟨_, .other _, .unguarded execSari_ends⟩
  | rori _ _ _ _ _ => exact ⟨_, .other _, .unguarded execRori_ends⟩
  | min _ _ _ _ _ => exact ⟨_, .other _, .unguarded execMin_ends⟩
  | max _ _ _ _ _ => exact ⟨_, .other _, .unguarded execMax_ends⟩
  | minu _ _ _ _ _ => exact ⟨_, .other _, .unguarded execMinu_ends⟩
  | maxu _ _ _ _ _ => exact ⟨_, .other _, .unguarded execMaxu_ends⟩
  | clz _ _ _ _ => exact ⟨_, .other _, .unguarded execClz_ends⟩
  | popc _ _ _ _ => exact ⟨_, .other _, .unguarded execPopc_ends⟩
  | brev _ _ _ _ => exact ⟨_, .other _, .unguarded execBrev_ends⟩
  | bswap _ _ _ _ => exact ⟨_, .other _, .unguarded execBswap_ends⟩
  | sextb _ _ _ _ => exact ⟨_, .other _, .unguarded execSextb_ends⟩
  | sexth _ _ _ _ => exact ⟨_, .other _, .unguarded execSexth_ends⟩
  | ceq _ _ _ _ _ => exact ⟨_, .other _, .unguarded execCeq_ends⟩
  | cne _ _ _ _ _ => exact ⟨_, .other _, .unguarded execCne_ends⟩
  | clt _ _ _ _ _ => exact ⟨_, .other _, .unguarded execClt_ends⟩
  | cltu _ _ _ _ _ => exact ⟨_, .other _, .unguarded execCltu_ends⟩
  | cle _ _ _ _ _ => exact ⟨_, .other _, .unguarded execCle_ends⟩
  | cleu _ _ _ _ _ => exact ⟨_, .other _, .unguarded execCleu_ends⟩
  | addsat _ _ _ _ _ => exact ⟨_, .other _, .unguarded execAddsat_ends⟩
  | subsat _ _ _ _ _ => exact ⟨_, .other _, .unguarded execSubsat_ends⟩
  | addi _ _ _ _ _ => exact ⟨_, .other _, .unguarded execAddi_ends⟩
  | andi _ _ _ _ _ => exact ⟨_, .other _, .unguarded execAndi_ends⟩
  | ori _ _ _ _ _ => exact ⟨_, .other _, .unguarded execOri_ends⟩
  | xori _ _ _ _ _ => exact ⟨_, .other _, .unguarded execXori_ends⟩
  | lui _ _ _ _ => exact ⟨_, .other _, .unguarded execLui_ends⟩
  | cmpi _ _ _ _ _ _ => exact ⟨_, .other _, .unguarded execCmpi_ends⟩
  | mul _ _ _ _ _ => exact ⟨_, .other _, .unguarded execMul_ends⟩
  | mulh _ _ _ _ _ => exact ⟨_, .other _, .unguarded execMulh_ends⟩
  | mulhu _ _ _ _ _ => exact ⟨_, .other _, .unguarded execMulhu_ends⟩
  | mulhsu _ _ _ _ _ => exact ⟨_, .other _, .unguarded execMulhsu_ends⟩
  | div _ _ _ _ _ => exact ⟨_, .other _, .unguarded execDiv_ends⟩
  | divu _ _ _ _ _ => exact ⟨_, .other _, .unguarded execDivu_ends⟩
  | rem _ _ _ _ _ => exact ⟨_, .other _, .unguarded execRem_ends⟩
  | remu _ _ _ _ _ => exact ⟨_, .other _, .unguarded execRemu_ends⟩
  | fdiv _ _ _ _ _ => exact ⟨_, .other _, .unguarded execFdiv_ends⟩
  | fsqrt _ _ _ _ => exact ⟨_, .other _, .unguarded execFsqrt_ends⟩
  | longOperationComplete _ _ => exact ⟨_, .other _, .unguarded execLongOperationComplete_ends⟩
  | fadd _ _ _ _ _ => exact ⟨_, .other _, .unguarded execFadd_ends⟩
  | fsub _ _ _ _ _ => exact ⟨_, .other _, .unguarded execFsub_ends⟩
  | fmul _ _ _ _ _ => exact ⟨_, .other _, .unguarded execFmul_ends⟩
  | fmin _ _ _ _ _ => exact ⟨_, .other _, .unguarded execFmin_ends⟩
  | fmax _ _ _ _ _ => exact ⟨_, .other _, .unguarded execFmax_ends⟩
  | fabs _ _ _ _ => exact ⟨_, .other _, .unguarded execFabs_ends⟩
  | fneg _ _ _ _ => exact ⟨_, .other _, .unguarded execFneg_ends⟩
  | fceq _ _ _ _ _ => exact ⟨_, .other _, .unguarded execFceq_ends⟩
  | fclt _ _ _ _ _ => exact ⟨_, .other _, .unguarded execFclt_ends⟩
  | fcle _ _ _ _ _ => exact ⟨_, .other _, .unguarded execFcle_ends⟩
  | fcun _ _ _ _ _ => exact ⟨_, .other _, .unguarded execFcun_ends⟩
  | fcvtws _ _ _ _ => exact ⟨_, .other _, .unguarded execFcvtws_ends⟩
  | fcvtwus _ _ _ _ => exact ⟨_, .other _, .unguarded execFcvtwus_ends⟩
  | fcvtsw _ _ _ _ => exact ⟨_, .other _, .unguarded execFcvtsw_ends⟩
  | fcvtswu _ _ _ _ => exact ⟨_, .other _, .unguarded execFcvtswu_ends⟩
  | fmvgf _ _ _ _ => exact ⟨_, .other _, .unguarded execFmvgf_ends⟩
  | fmvfg _ _ _ _ => exact ⟨_, .other _, .unguarded execFmvfg_ends⟩
  | fmadd _ _ _ _ _ _ => exact ⟨_, .other _, .unguarded execFmadd_ends⟩
  | fmsub _ _ _ _ _ _ => exact ⟨_, .other _, .unguarded execFmsub_ends⟩
  | fnmsub _ _ _ _ _ _ => exact ⟨_, .other _, .unguarded execFnmsub_ends⟩
  | fnmadd _ _ _ _ _ _ => exact ⟨_, .other _, .unguarded execFnmadd_ends⟩
  | ld _ _ _ _ _ _ _ _ => exact ⟨_, .other _, .unguarded execLd_ends⟩
  | st _ _ _ _ _ _ _ _ => exact ⟨_, .other _, .unguarded execSt_ends⟩
  | fld _ _ _ _ _ _ _ _ => exact ⟨_, .other _, .unguarded execFld_ends⟩
  | fst _ _ _ _ _ _ _ _ => exact ⟨_, .other _, .unguarded execFst_ends⟩
  | ldm _ _ _ _ _ _ _ => exact ⟨_, .other _, .unguarded execLdm_ends⟩
  | stm _ _ _ _ _ _ _ => exact ⟨_, .other _, .unguarded execStm_ends⟩
  | bz _ _ _ _ => exact ⟨_, .other _, .unguarded execBz_ends⟩
  | bnz _ _ _ _ => exact ⟨_, .other _, .unguarded execBnz_ends⟩
  | j _ _ _ => exact ⟨_, .other _, .unguarded execJ_ends⟩
  | call _ _ _ => exact ⟨_, .other _, .unguarded execCall_ends⟩
  | jr _ _ _ => exact ⟨_, .other _, .unguarded execJr_ends⟩
  | callr _ _ _ => exact ⟨_, .other _, .unguarded execCallr_ends⟩
  | ret _ _ => exact ⟨_, .other _, .unguarded execRet_ends⟩
  | retx _ _ => exact ⟨_, .other _, .unguarded execRetx_ends⟩
  | mfcr _ _ _ _ => exact ⟨_, .other _, .unguarded execMfcr_ends⟩
  | mtcr _ _ _ _ => exact ⟨_, .other _, .unguarded execMtcr_ends⟩
  | fence _ _ => exact ⟨_, .other _, .unguarded execFence_ends⟩
  | ifence _ _ => exact ⟨_, .other _, .unguarded execIfence_ends⟩
  | icinv _ _ _ => exact ⟨_, .other _, .unguarded execIcinv_ends⟩
  | dcinv _ _ _ => exact ⟨_, .other _, .unguarded execDcinv_ends⟩
  | icinvall _ _ => exact ⟨_, .other _, .unguarded execIcinvall_ends⟩
  | dcinvall _ _ => exact ⟨_, .other _, .unguarded execDcinvall_ends⟩
  | trap _ _ _ => exact ⟨_, .other _, .unguarded execTrap_ends⟩
  | wait _ _ => exact ⟨_, .other _, .unguarded execWait_ends⟩
  | mfb _ _ _ _ _ => exact ⟨_, .other _, .unguarded execMfb_ends⟩
  | mtb _ _ _ _ _ => exact ⟨_, .other _, .unguarded execMtb_ends⟩
  | storeFaultDeferred _ => exact ⟨_, .other _, .unguarded execStoreFaultDeferred_ends⟩
  | lockstepDisagreement _ _ => exact ⟨_, .other _, .unguarded execLockstepDisagreement_ends⟩
  | schedulerEvent _ _ => exact ⟨_, .other _, .unguarded execSchedulerEvent_ends⟩
  | taskPreempt _ => exact ⟨_, .other _, .unguarded execTaskPreempt_ends⟩
  | bankSpillDone _ => exact ⟨_, .other _, .unguarded execBankSpillDone_ends⟩
  | bankFillDone _ _ => exact ⟨_, .other _, .unguarded execBankFillDone_ends⟩
  | slotEnable _ _ _ _ => exact ⟨_, .other _, .unguarded execSlotEnable_ends⟩
  | slotKick _ _ _ _ => exact ⟨_, .other _, .unguarded execSlotKick_ends⟩
  | slotInit _ _ _ _ => exact ⟨_, .other _, .unguarded execSlotInit_ends⟩
  | slotPin _ _ _ _ => exact ⟨_, .other _, .unguarded execSlotPin_ends⟩
  | schSpillWrite _ _ _ => exact ⟨_, .other _, .unguarded execSchSpillWrite_ends⟩
  | schRelease _ _ _ => exact ⟨_, .other _, .unguarded execSchRelease_ends⟩
  | coreHold _ _ _ => exact ⟨_, .other _, .unguarded execCoreHold_ends⟩
  | pairLock _ _ _ => exact ⟨_, .other _, .unguarded execPairLock_ends⟩
  | debugHalt _ => exact ⟨_, .other _, .unguarded execDebugHalt_ends⟩
  | debugResume _ => exact ⟨_, .other _, .unguarded execDebugResume_ends⟩
  | scrubRead _ _ _ => exact ⟨_, .other _, .unguarded execScrubRead_ends⟩
  | rowRetireCopyDone _ _ => exact ⟨_, .other _, .unguarded execRowRetireCopyDone_ends⟩
  | flashProgram _ _ => exact ⟨_, .other _, .unguarded execFlashProgram_ends⟩
  | flashErase _ _ => exact ⟨_, .other _, .unguarded execFlashErase_ends⟩
  | flashClrInt _ _ => exact ⟨_, .other _, .unguarded execFlashClrInt_ends⟩
  | flashOperationDone _ _ => exact ⟨_, .other _, .unguarded execFlashOperationDone_ends⟩
  | dmaGo _ _ _ => exact ⟨_, .other _, .unguarded execDmaGo_ends⟩
  | dmaStop _ _ _ => exact ⟨_, .other _, .unguarded execDmaStop_ends⟩
  | dmaTrigger _ => exact ⟨_, .other _, .unguarded execDmaTrigger_ends⟩
  | dmaResponse _ => exact ⟨_, .other _, .unguarded execDmaResponse_ends⟩
  | drainTimeout _ => exact ⟨_, .other _, .unguarded execDrainTimeout_ends⟩
  | qpPush _ _ _ => exact ⟨_, .other _, .unguarded execQpPush_ends⟩
  | qpPop _ _ _ => exact ⟨_, .other _, .unguarded execQpPop_ends⟩
  | queueConfigure _ _ _ => exact ⟨_, .other _, .unguarded execQueueConfigure_ends⟩
  | queueOwn _ _ _ => exact ⟨_, .other _, .unguarded execQueueOwn_ends⟩
  | watermarkWrite _ _ _ => exact ⟨_, .other _, .unguarded execWatermarkWrite_ends⟩
  | requestTake _ => exact ⟨_, .other _, .unguarded execRequestTake_ends⟩
  | requestFramingTimeout _ => exact ⟨_, .other _, .unguarded execRequestFramingTimeout_ends⟩
  | deadlineExpiry _ => exact ⟨_, .other _, .unguarded execDeadlineExpiry_ends⟩
  | responsePush _ => exact ⟨_, .other _, .unguarded execResponsePush_ends⟩
  | responseTimeout _ => exact ⟨_, .other _, .unguarded execResponseTimeout_ends⟩
  | loadUpdate _ => exact ⟨_, .other _, .unguarded execLoadUpdate_ends⟩
  | mpWatchdog => exact ⟨_, .other _, .unguarded execMpWatchdog_ends⟩
  | mpLockstepDisagreement _ => exact ⟨_, .other _, .unguarded execMpLockstepDisagreement_ends⟩
  | sysIdent _ => exact ⟨_, .other _, .unguarded execSysIdent_ends⟩
  | sysState _ => exact ⟨_, .other _, .unguarded execSysState_ends⟩
  | sysSafe _ => exact ⟨_, .other _, .unguarded execSysSafe_ends⟩
  | sysReset _ => exact ⟨_, .other _, .unguarded execSysReset_ends⟩
  | cfgRead _ => exact ⟨_, .other _, .unguarded execCfgRead_ends⟩
  | cfgWrite _ => exact ⟨_, .other _, .unguarded execCfgWrite_ends⟩
  | cfgAlloc _ => exact ⟨_, .other _, .unguarded execCfgAlloc_ends⟩
  | cfgFree _ => exact ⟨_, .other _, .unguarded execCfgFree_ends⟩
  | cfgAssign _ => exact ⟨_, .other _, .unguarded execCfgAssign_ends⟩
  | cfgMailbox _ => exact ⟨_, .other _, .unguarded execCfgMailbox_ends⟩
  | epochOpen _ => exact ⟨_, .other _, .unguarded execEpochOpen_ends⟩
  | epochStage _ => exact ⟨_, .other _, .unguarded execEpochStage_ends⟩
  | epochHaul _ => exact ⟨_, .other _, .unguarded execEpochHaul_ends⟩
  | epochAbandon _ => exact ⟨_, .other _, .unguarded execEpochAbandon_ends⟩
  | epochStatus _ => exact ⟨_, .other _, .unguarded execEpochStatus_ends⟩
  | rcpBegin _ => exact ⟨_, .other _, .unguarded execRcpBegin_ends⟩
  | rcpData _ _ => exact ⟨_, .other _, .unguarded execRcpData_ends⟩
  | rcpCommit _ _ => exact ⟨_, .other _, .unguarded execRcpCommit_ends⟩
  | rcpLoad _ => exact ⟨_, .other _, .unguarded execRcpLoad_ends⟩
  | rcpHaul _ => exact ⟨_, .other _, .unguarded execRcpHaul_ends⟩
  | rcpList _ => exact ⟨_, .other _, .unguarded execRcpList_ends⟩
  | rcpDelete _ _ => exact ⟨_, .other _, .unguarded execRcpDelete_ends⟩
  | recipeStoreTimeout _ => exact ⟨_, .other _, .unguarded execRecipeStoreTimeout_ends⟩
  | recipeDirectApply => exact ⟨_, .other _, .unguarded execRecipeDirectApply_ends⟩
  | autostartSourceHaul => exact ⟨_, .other _, .unguarded execAutostartSourceHaul_ends⟩
  | calRun _ => exact ⟨_, .other _, .unguarded execCalRun_ends⟩
  | calSave _ => exact ⟨_, .other _, .unguarded execCalSave_ends⟩
  | calRestore _ => exact ⟨_, .other _, .unguarded execCalRestore_ends⟩
  | tuneStart _ => exact ⟨_, .other _, .unguarded execTuneStart_ends⟩
  | tunePoll _ => exact ⟨_, .other _, .unguarded execTunePoll_ends⟩
  | tuneCancel _ => exact ⟨_, .other _, .unguarded execTuneCancel_ends⟩
  | netPort _ => exact ⟨_, .other _, .unguarded execNetPort_ends⟩
  | netSessionOpen _ => exact ⟨_, .other _, .unguarded execNetSessionOpen_ends⟩
  | netSessionClose _ => exact ⟨_, .other _, .unguarded execNetSessionClose_ends⟩
  | netGcl _ => exact ⟨_, .other _, .unguarded execNetGcl_ends⟩
  | netStatus _ => exact ⟨_, .other _, .unguarded execNetStatus_ends⟩
  | diagFaults _ => exact ⟨_, .other _, .unguarded execDiagFaults_ends⟩
  | diagAck _ => exact ⟨_, .other _, .unguarded execDiagAck_ends⟩
  | diagRetire _ => exact ⟨_, .other _, .unguarded execDiagRetire_ends⟩
  | diagRestore _ => exact ⟨_, .other _, .unguarded execDiagRestore_ends⟩
  | diagSnapshot _ => exact ⟨_, .other _, .unguarded execDiagSnapshot_ends⟩
  | diagDrain _ => exact ⟨_, .other _, .unguarded execDiagDrain_ends⟩
  | fwBegin _ _ => exact ⟨_, .other _, .unguarded execFwBegin_ends⟩
  | fwData _ _ => exact ⟨_, .other _, .unguarded execFwData_ends⟩
  | fwVerify _ => exact ⟨_, .other _, .unguarded execFwVerify_ends⟩
  | fwActivate _ _ => exact ⟨_, .other _, .unguarded execFwActivate_ends⟩
  | fwCommit _ _ => exact ⟨_, .fwCommit _ _, .of execFwCommit_ends⟩
  | fwStatus _ => exact ⟨_, .other _, .unguarded execFwStatus_ends⟩
  | timeGet _ => exact ⟨_, .other _, .unguarded execTimeGet_ends⟩
  | timeSet _ => exact ⟨_, .other _, .unguarded execTimeSet_ends⟩
  | timeDisc _ => exact ⟨_, .other _, .unguarded execTimeDisc_ends⟩
  | timeAlarm _ => exact ⟨_, .other _, .unguarded execTimeAlarm_ends⟩
  | secRights _ => exact ⟨_, .other _, .unguarded execSecRights_ends⟩
  | secChallenge _ => exact ⟨_, .other _, .unguarded execSecChallenge_ends⟩
  | secUnlock _ => exact ⟨_, .secUnlock _, .of execSecUnlock_ends⟩
  | secLock _ => exact ⟨_, .secLock _, .of execSecLock_ends⟩
  | portScanStep _ => exact ⟨_, .other _, .unguarded execPortScanStep_ends⟩
  | linkUp _ => exact ⟨_, .other _, .unguarded execLinkUp_ends⟩
  | linkDown _ => exact ⟨_, .other _, .unguarded execLinkDown_ends⟩
  | portRetire _ => exact ⟨_, .other _, .unguarded execPortRetire_ends⟩
  | ethFrameDrop _ _ => exact ⟨_, .other _, .unguarded execEthFrameDrop_ends⟩
  | cycleStart _ => exact ⟨_, .other _, .unguarded execCycleStart_ends⟩
  | cycleEndMiss _ => exact ⟨_, .other _, .unguarded execCycleEndMiss_ends⟩
  | cyclicTelegram _ _ _ => exact ⟨_, .other _, .unguarded execCyclicTelegram_ends⟩
  | acyclicTelegram _ _ _ => exact ⟨_, .other _, .unguarded execAcyclicTelegram_ends⟩
  | scheduledFire => exact ⟨_, .other _, .unguarded execScheduledFire_ends⟩
  | scheduledHaul => exact ⟨_, .other _, .unguarded execScheduledHaul_ends⟩
  | scheduledSnap => exact ⟨_, .other _, .unguarded execScheduledSnap_ends⟩
  | ackTelegram _ _ _ => exact ⟨_, .other _, .unguarded execAckTelegram_ends⟩
  | ackTimeout _ => exact ⟨_, .other _, .unguarded execAckTimeout_ends⟩
  | discoverTelegram _ _ => exact ⟨_, .other _, .unguarded execDiscoverTelegram_ends⟩
  | joinTelegram _ _ _ => exact ⟨_, .other _, .unguarded execJoinTelegram_ends⟩
  | leaveTelegram _ _ _ => exact ⟨_, .other _, .unguarded execLeaveTelegram_ends⟩
  | joinRetry _ => exact ⟨_, .other _, .unguarded execJoinRetry_ends⟩
  | hostMemoryWrite _ _ _ _ => exact ⟨_, .other _, .unguarded execHostMemoryWrite_ends⟩
  | hostMemoryRead _ _ _ _ => exact ⟨_, .other _, .unguarded execHostMemoryRead_ends⟩
  | msixVector _ => exact ⟨_, .other _, .unguarded execMsixVector_ends⟩
  | hostReset => exact ⟨_, .other _, .unguarded execHostReset_ends⟩
  | hostLinkDown => exact ⟨_, .other _, .unguarded execHostLinkDown_ends⟩
  | canFrameReceive _ _ _ _ => exact ⟨_, .other _, .unguarded execCanFrameReceive_ends⟩
  | canFrameTransmit _ _ => exact ⟨_, .other _, .unguarded execCanFrameTransmit_ends⟩
  | uartReceive _ _ _ _ => exact ⟨_, .other _, .unguarded execUartReceive_ends⟩
  | uartDataWrite _ _ _ => exact ⟨_, .other _, .unguarded execUartDataWrite_ends⟩
  | spiDataWrite _ _ _ => exact ⟨_, .other _, .unguarded execSpiDataWrite_ends⟩
  | spiPennantStart _ => exact ⟨_, .other _, .unguarded execSpiPennantStart_ends⟩
  | spiTransferDone _ _ => exact ⟨_, .other _, .unguarded execSpiTransferDone_ends⟩
  | i2cCmdWrite _ _ _ => exact ⟨_, .other _, .unguarded execI2cCmdWrite_ends⟩
  | i2cDone _ _ _ => exact ⟨_, .other _, .unguarded execI2cDone_ends⟩
  | faultReport _ _ _ _ => exact ⟨_, .other _, .unguarded execFaultReport_ends⟩
  | fcAck _ _ => exact ⟨_, .other _, .unguarded execFcAck_ends⟩
  | fcRestore _ _ => exact ⟨_, .other _, .unguarded execFcRestore_ends⟩
  | restoreComplete _ => exact ⟨_, .other _, .unguarded execRestoreComplete_ends⟩
  | fcRetire _ _ => exact ⟨_, .other _, .unguarded execFcRetire_ends⟩
  | clockFault => exact ⟨_, .other _, .unguarded execClockFault_ends⟩
  | pllUnlock _ => exact ⟨_, .other _, .unguarded execPllUnlock_ends⟩
  | supplyFault _ _ => exact ⟨_, .other _, .unguarded execSupplyFault_ends⟩
  | supplyRecovered _ => exact ⟨_, .other _, .unguarded execSupplyRecovered_ends⟩
  | pwIslandOffWrite _ _ => exact ⟨_, .other _, .unguarded execPwIslandOffWrite_ends⟩
  | islandPowerDown _ => exact ⟨_, .other _, .unguarded execIslandPowerDown_ends⟩
  | pwIslandOnWrite _ _ => exact ⟨_, .other _, .unguarded execPwIslandOnWrite_ends⟩
  | pwIslandResetWrite _ _ => exact ⟨_, .other _, .unguarded execPwIslandResetWrite_ends⟩
  | watchRequest _ _ => exact ⟨_, .other _, .unguarded execWatchRequest_ends⟩
  | wakeSource _ => exact ⟨_, .other _, .unguarded execWakeSource_ends⟩
  | wakeComplete _ => exact ⟨_, .wakeComplete _, .of execWakeComplete_ends⟩
  | backupEntry => exact ⟨_, .backupEntry, .of execBackupEntry_ends⟩
  | powerOnReset _ _ => exact ⟨_, .powerOnReset _ _, .of execPowerOnReset_ends⟩
  | bootRom => exact ⟨_, .other _, .unguarded execBootRom_ends⟩
  | ottarStartup => exact ⟨_, .ottarStartup, .of execOttarStartup_ends⟩
  | thermalSample _ _ => exact ⟨_, .other _, .unguarded execThermalSample_ends⟩
  | pwTestWrite _ _ => exact ⟨_, .other _, .unguarded execPwTestWrite_ends⟩
  | testModeChange => exact ⟨_, .other _, .unguarded execTestModeChange_ends⟩
  | tripInputInactive _ _ _ => exact ⟨_, .other _, .unguarded execTripInputInactive_ends⟩
  | referenceEdge _ _ _ _ _ => exact ⟨_, .other _, .unguarded execReferenceEdge_ends⟩
  | sdClockRestored _ _ => exact ⟨_, .other _, .unguarded execSdClockRestored_ends⟩
  | ssiMonoflopEnd _ _ => exact ⟨_, .other _, .unguarded execSsiMonoflopEnd_ends⟩
  | mpRestartComplete => exact ⟨_, .other _, .unguarded execMpRestartComplete_ends⟩
  | hostLinkUp _ _ => exact ⟨_, .other _, .unguarded execHostLinkUp_ends⟩
  | uartCharacterSent _ => exact ⟨_, .other _, .unguarded execUartCharacterSent_ends⟩
  | clockFaultEnd => exact ⟨_, .other _, .unguarded execClockFaultEnd_ends⟩
  | watchEntered => exact ⟨_, .other _, .unguarded execWatchEntered_ends⟩
  | porOutRelease => exact ⟨_, .other _, .unguarded execPorOutRelease_ends⟩
  | jtagTapOperation _ _ => exact ⟨_, .other _, .unguarded execJtagTapOperation_ends⟩

theorem exec_touch {c : Instr} {s t : State} (h : exec c s = .next t) : ∃ w, Covers w c ∧ Touch w s t := by
  obtain ⟨w, covers, u, e, touch⟩ := exec_ends c s
  rw [e] at h
  exact ⟨w, covers, Host.Outcome.next.inj h ▸ touch⟩

/-- A part that no mask of the command has is the same in the next state. -/
theorem exec_same {c : Instr} {s t : State} (h : exec c s = .next t) (i : Nat)
    (hi : ∀ w, Covers w c → w.testBit i = false) : samePart i s t :=
  let ⟨w, covers, touch⟩ := exec_touch h
  touch.keep.same i (hi w covers)

/-- Settles O5. -/
theorem execLeavesTheQueue : Obligations.ExecLeavesTheQueue := fun c s =>
  let ⟨_, _, t, e, touch⟩ := exec_ends c s
  ⟨t, e, touch.keep.pending⟩

/-- Settles O6: FW_COMMIT alone among the commands that do not start the device has the counter in its mask. -/
theorem rollbackNeverFalls : Obligations.RollbackNeverFalls := by
  intro c s t h
  obtain ⟨w, covers, touch⟩ := exec_touch h
  refine ⟨touch.keep.rollback, fun commit reset backup => ?_⟩
  have same : samePart 41 s t := exec_same h 41 fun w covers => by
    cases covers
    case fwCommit m v => exact absurd rfl (commit m v)
    case powerOnReset x b => exact absurd rfl (reset x b)
    case backupEntry => exact absurd rfl backup
    all_goals rfl
  simpa [samePart] using same

/-- Settles O7. -/
theorem safeNOnlyByTheBall : Obligations.SafeNOnlyByTheBall := by
  intro c s t h other
  have same : samePart 21 s t := exec_same h 21 fun w covers => by
    cases covers
    case safeNAssert | safeNDeassert | powerOnReset | backupEntry => simp at other
    all_goals rfl
  simpa [samePart] using same

/-- Settles O8. -/
theorem calendarOnlyByItsOwnCommands : Obligations.CalendarOnlyByItsOwnCommands := by
  intro c s t h other
  have same : samePart 39 s t := exec_same h 39 fun w covers => by
    cases covers
    case calendarSecond | calendarLoad | vbakRise | oscStop | powerOnReset | backupEntry => simp at other
    all_goals rfl
  obtain ⟨era, seconds, sub⟩ : t.clk.era = s.clk.era ∧ t.clk.seconds = s.clk.seconds ∧ t.clk.sub = s.clk.sub := by
    simpa [samePart] using same
  simp only [era, seconds, sub]

/-- Settles O9. -/
theorem deviceTimeOffsetOnlyBySteps : Obligations.DeviceTimeOffsetOnlyBySteps := by
  intro c s t h other
  have same : samePart 38 s t := exec_same h 38 fun w covers => by
    cases covers
    case deviceTimeStep | islandSync | ottarStartup | wakeComplete | powerOnReset | backupEntry => simp at other
    all_goals rfl
  obtain ⟨offset, islands⟩ : t.clk.dOfs = s.clk.dOfs ∧ t.clk.dIsland = s.clk.dIsland := by
    simpa [samePart] using same
  simp only [offset, islands]

/-- Settles O10. -/
theorem unlockLevelOnlyByItsRequests : Obligations.UnlockLevelOnlyByItsRequests := by
  intro c s t h other
  have same : samePart 40 s t := exec_same h 40 fun w covers => by
    cases covers
    case secUnlock | secLock | powerOnReset | backupEntry => simp at other
    all_goals rfl
  simpa [samePart] using same

/-- Settles O11. -/
theorem linkRecordsOnlyByLinkEvents : Obligations.LinkRecordsOnlyByLinkEvents := by
  intro c s t h other
  have same : samePart 12 s t := exec_same h 12 fun w covers => by
    cases covers
    case linkTimeout | linkReset | powerOnReset | backupEntry => simp at other
    all_goals rfl
  simpa [samePart] using same

/-- What a step of the machine keeps: the head of the queue runs, or, on an empty queue, what is due is moved there or time
passes. -/
theorem step_keeps {s t : State} (h : step s = .next t) : (s.Canonical → t.Canonical) ∧ (s.Sound → t.Sound) := by
  unfold step at h
  split at h
  · obtain ⟨w, -, touch⟩ := exec_touch h
    exact ⟨fun c => touch.keep.canonical { c with }, fun x => touch.sound ⟨x.staged, x.contexts⟩⟩
  · obtain rfl := Host.Outcome.next.inj h
    unfold State.idle
    split
    · exact ⟨State.clockTick_touch.keep.canonical, State.clockTick_touch.sound⟩
    · exact ⟨fun c => { c with }, fun x => ⟨x.staged, x.contexts⟩⟩

/-- Settles O4. -/
theorem stepKeepsCanonicalForm : Obligations.StepKeepsCanonicalForm := fun _ _ c h => (step_keeps h).1 c

/-- Settles O34: at reset nothing is staged and no engine's record is listed. -/
theorem stepKeepsSound : Obligations.StepKeepsSound :=
  ⟨⟨fun _ h => absurd h List.not_mem_nil, fun _ h => absurd h List.not_mem_nil⟩, fun _ _ x h => (step_keeps h).2 x⟩

end Sys2Proof.Machine
end

section
/-!
The frames of the obligations from what an operation touches.
-/
namespace Sys2Proof.Machine
open Sys2Proof
set_option Elab.async false

/-- The bits of the masks that a part of the state has. -/
def Part.bits : Part → List Nat
  | .pending => []
  | .due => [0]
  | .regs => [1]
  | .scCount => [2]
  | .domRegs => [3]
  | .mem => [4]
  | .stamps => [5]
  | .xmNow => [42]
  | .reply => [6]
  | .freeCtr => [7]
  | .clk => [8, 37, 38, 39]
  | .ep => [9]
  | .snap => [10]
  | .fab => [11]
  | .pulses => [44]
  | .paths => [43]
  | .links => [12]
  | .islands => [13]
  | .device => [14]
  | .faults => [15]
  | .tus => [16]
  | .acs => [17]
  | .cps => [18]
  | .eqs => [19]
  | .mks => [20]
  | .safeN => [21]
  | .sds => [22]
  | .les => [23]
  | .pow => [24]
  | .cores => [25]
  | .ecc => [26]
  | .macros => [27]
  | .flash => [28]
  | .flashOps => [29]
  | .dmas => [30]
  | .queues => [31]
  | .mp => [32, 40, 41]
  | .net => [33]
  | .host => [34]
  | .serial => [35]
  | .tap => [36]

/-- Every part of the state. -/
def Part.every : List Part :=
  [.pending, .due, .regs, .scCount, .domRegs, .mem, .stamps, .xmNow, .reply, .freeCtr, .clk, .ep, .snap, .fab, .pulses, .paths, .links, .islands, .device, .faults, .tus, .acs, .cps, .eqs, .mks, .safeN, .sds, .les, .pow, .cores, .ecc, .macros, .flash, .flashOps, .dmas, .queues, .mp, .net, .host, .serial, .tap]

theorem Part.mem_every (p : Part) : p ∈ Part.every := by cases p <;> decide

/-- The parts in a mask are among those listed. -/
def masksOnly (w : Nat) (l : List Part) : Bool := Part.every.all fun p => l.contains p || p.bits.all fun i => !w.testBit i

theorem Keep.part_same {w : Nat} {s t : State} (h : Keep w s t) {p : Part} (hp : ∀ i ∈ p.bits, w.testBit i = false) :
    p.same s t := by
  have same : ∀ i ∈ p.bits, samePart i s t := fun i hi => h.same i (hp i hi)
  cases p
  case pending => exact h.pending
  case clk =>
    obtain ⟨rest, beats, offset, calendar⟩ : samePart 8 s t ∧ samePart 37 s t ∧ samePart 38 s t ∧ samePart 39 s t :=
      ⟨same 8 (by decide), same 37 (by decide), same 38 (by decide), same 39 (by decide)⟩
    simp only [samePart] at rest beats offset calendar
    rw [Part.same, rest, beats.1, beats.2, offset.1, offset.2, calendar.1, calendar.2.1, calendar.2.2]
  case mp =>
    obtain ⟨rest, unlock, rollback⟩ : samePart 32 s t ∧ samePart 40 s t ∧ samePart 41 s t :=
      ⟨same 32 (by decide), same 40 (by decide), same 41 (by decide)⟩
    simp only [samePart] at rest unlock rollback
    rw [Part.same, rest, unlock, rollback]
  all_goals
    have one := same _ List.mem_cons_self
    simpa only [samePart, Part.same] using one

/-- What an operation touches, as the parts of a frame. -/
theorem Touch.sameBut {w : Nat} {s t : State} (h : Touch w s t) {l : List Part} (hl : masksOnly w l = true := by decide) :
    SameBut l s t := fun p hp => h.keep.part_same fun i hi => by
  have here := List.all_eq_true.mp hl p p.mem_every
  rw [Bool.or_eq_true] at here
  rcases here with listed | clear
  · exact absurd (List.contains_iff_mem.mp listed) hp
  · simpa using List.all_eq_true.mp clear i hi

end Sys2Proof.Machine
end

section
/-!
Steps of the queue, the reset state and a byte of memory.
-/
set_option Elab.async false
namespace Sys2Proof.Machine
open Sys2Proof

theorem State.reset_canonical : State.reset.Canonical :=
  ⟨rfl, rfl, rfl, rfl, rfl, rfl, rfl, rfl, rfl, rfl, rfl, rfl, rfl, rfl, rfl, rfl, rfl, rfl, rfl, rfl, rfl, rfl, rfl, rfl⟩

theorem step_of_pending {c : Instr} {rest : List Instr} {s : State} (h : s.pending = c :: rest) :
    step s = exec c { s with pending := rest } := by rw [step, h]

theorem step_of_no_pending {s : State} (h : s.pending = []) : step s = .next s.idle := by rw [step, h]

/-- Settles O1. -/
theorem stepRunsTheFrontCommand : Obligations.StepRunsTheFrontCommand := fun _ _ _ h => step_of_pending h

/-- Settles O2: an idle step is one tick of time exactly where nothing is due. -/
theorem idleStepMovesWhatIsDue : Obligations.IdleStepMovesWhatIsDue := by
  intro s h
  rw [step_of_no_pending h, State.idle]
  exact ⟨fun due => by rw [if_neg due], fun none => by rw [if_pos none]⟩

/-- Settles O3. -/
theorem resetIsCanonical : Obligations.ResetIsCanonical :=
  ⟨State.reset_canonical, State.reset_canonical.mem, State.reset_canonical.regs, rfl, rfl⟩

/-- Settles O12. -/
theorem memoryByteReadsBack : Obligations.MemoryByteReadsBack := fun s a b v =>
  ⟨s.byte_setByte a v b, s.setByte_regs a v⟩
end Sys2Proof.Machine
end

section
/-!
The rate of device time (R35).
-/
set_option Elab.async false
namespace Sys2Proof.Machine
open Sys2Proof

/-! ### The record of the timebase -/

@[simp] theorem State.setClk_clk (s : State) (c : ClockState) : (s.setClk c).clk = c := rfl
@[simp] theorem State.setClk_reg (s : State) (c : ClockState) (a : Nat) : (s.setClk c).reg a = s.reg a := rfl
@[simp] theorem State.setClk_rf (s : State) (c : ClockState) (a i j : Nat) : (s.setClk c).rf a i j = s.rf a i j := rfl
@[simp] theorem State.setClk_rb (s : State) (c : ClockState) (a i : Nat) : (s.setClk c).rb a i = s.rb a i := rfl
@[simp] theorem State.setClk_setClk (s : State) (c e : ClockState) : (s.setClk c).setClk e = s.setClk e := rfl

/-! ### Writes to the registers of the timebase -/

theorem State.writeReg_tb {s : State} {d : Nat} {r : RegRow} {a : Nat} {v : Word}
    (access : r.access = .ow ∨ r.access = .rw ∨ r.access = .wo) (notOwner : a ≠ ownerReg .tb a) :
    s.writeReg d .tb r a v = (.done, s.tbWrite d r a v) := by
  obtain e | e | e := access <;> simp [State.writeReg, e, State.engineDrops, notOwner]

theorem State.writeCmd_tb {s : State} {m : Master} {r : RegRow} {a : Nat} (h : s.Writes m .tb r a) (aligned : a % 4 = 0)
    (notOwner : a ≠ ownerReg .tb a) (v : Word) :
    s.writeCmd m a 4 v = .next ((s.tbWrite (s.domainOf m) r a v).answer m .done) :=
  State.writeCmd_eq h aligned v (State.writeReg_tb h.access notOwner)

/-! ### The rate -/

theorem State.setReg_discMode {s : State} {a : Nat} (h : a ≠ R.TB_DISC) (v : Word) :
    (s.setReg a v).discMode = s.discMode := by
  simp [State.discMode, State.rf_setReg, h.symm]

theorem State.rateMove_of_due {s : State} (h : s.clk.rateNow ≠ s.clk.rateGoal ∧ serialGe s.clk.beat s.clk.rateNext = true) :
    s.rateMove = s.setClk { s.clk with
      rateNow := s.clk.rateNow + clampI (-rateStep) rateStep (s.clk.rateGoal - s.clk.rateNow)
      rateNext := s.clk.beat + 25000 } := if_pos h

theorem State.rateMove_of_not_due {s : State}
    (h : ¬ (s.clk.rateNow ≠ s.clk.rateGoal ∧ serialGe s.clk.beat s.clk.rateNext = true)) : s.rateMove = s := if_neg h

/-- A rate that has reached its goal moves by nothing. -/
theorem State.rateMove_rateNow (s : State) : s.rateMove.clk.rateNow =
    if serialGe s.clk.beat s.clk.rateNext = true then
      s.clk.rateNow + clampI (-rateStep) rateStep (s.clk.rateGoal - s.clk.rateNow) else s.clk.rateNow := by
  by_cases due : serialGe s.clk.beat s.clk.rateNext = true
  · by_cases reached : s.clk.rateNow = s.clk.rateGoal
    · have still : clampI (-rateStep) rateStep 0 = 0 := by decide
      rw [State.rateMove_of_not_due (fun h => h.1 reached), if_pos due, reached, Int.sub_self, still, Int.add_zero]
    · rw [State.rateMove_of_due ⟨reached, due⟩, if_pos due]
      rfl
  · rw [State.rateMove_of_not_due (fun h => due h.2), if_neg due]

/-- All of the clock but the rate and the beat of its next move stands. -/
theorem State.rateMove_clk (s : State) :
    s.rateMove.clk = { s.clk with rateNow := s.rateMove.clk.rateNow, rateNext := s.rateMove.clk.rateNext } := by
  unfold State.rateMove
  split <;> rfl

@[simp] theorem State.rateMove_reg (s : State) (a : Nat) : s.rateMove.reg a = s.reg a := by
  unfold State.rateMove
  split <;> rfl

@[simp] theorem State.rateMove_rf (s : State) (a i j : Nat) : s.rateMove.rf a i j = s.rf a i j := by
  simp [State.rf]

@[simp] theorem State.rateMove_rb (s : State) (a i : Nat) : s.rateMove.rb a i = s.rb a i := by
  simp [State.rb]

@[simp] theorem State.rateMove_rateGoal (s : State) : s.rateMove.clk.rateGoal = s.clk.rateGoal := by
  rw [State.rateMove_clk]

@[simp] theorem State.rateMove_discMode (s : State) : s.rateMove.discMode = s.discMode := by
  simp [State.discMode]

/-- The goal that a stored rate gives: the word, clamped. -/
def rateLimit (v : Word) : Int := clampI (-219902326) 219902326 (sInt v)

/-- A state whose rate has a new goal, with RATE_CLAMPED where it was clamped. -/
def State.rateAimed (s : State) (v : Word) : State :=
  (if rateLimit v = sInt v then s else s.flag R.TB_STATUS 6).setClk
    { s.clk with rateGoal := rateLimit v }

theorem State.rateEffect_eq (s : State) : s.rateEffect = (s.rateAimed (s.reg R.TB_RATE)).rateMove := by
  unfold State.rateEffect State.rateAimed rateLimit
  dsimp only
  split <;> simp

@[simp] theorem State.rateAimed_clk (s : State) (v : Word) : (s.rateAimed v).clk = { s.clk with rateGoal := rateLimit v } :=
  rfl

theorem State.rateAimed_regsBut (s : State) (v : Word) : RegsBut [R.TB_STATUS] s (s.rateAimed v) := by
  unfold State.rateAimed
  split
  · exact .refl _ _
  · exact State.flag_regsBut s _ _

theorem State.rateAimed_status_of_clamped {s : State} {v : Word} (h : rateLimit v ≠ sInt v) :
    (s.rateAimed v).rb R.TB_STATUS 6 = true := by
  rw [State.rateAimed, if_neg h]
  exact State.rb_flag_self s _ _ (by decide)

theorem State.rateAimed_status_of_within {s : State} {v : Word} (h : rateLimit v = sInt v) :
    (s.rateAimed v).reg R.TB_STATUS = s.reg R.TB_STATUS := by
  rw [State.rateAimed, if_pos h]
  rfl

theorem State.rateEffect_regsBut (s : State) : RegsBut [R.TB_STATUS] s s.rateEffect := by
  rw [State.rateEffect_eq]
  intro a ha
  rw [State.rateMove_reg, State.rateAimed_regsBut s _ a ha]

theorem State.rateEffect_rateGoal (s : State) : s.rateEffect.clk.rateGoal = rateLimit (s.reg R.TB_RATE) := by
  rw [State.rateEffect_eq, State.rateMove_rateGoal]
  rfl

theorem State.discMode_congr {s t : State} (h : t.reg R.TB_DISC = s.reg R.TB_DISC) : t.discMode = s.discMode := by
  unfold State.discMode State.rf
  rw [h]

/-- The discipline and the servo's state lie in TB_DISC, which the rate leaves. -/
theorem State.rateWrite_regsBut (s : State) (v : Word) : RegsBut [R.TB_RATE, R.TB_STATUS] s (s.rateWrite v) := by
  have stored : RegsBut [R.TB_RATE, R.TB_STATUS] s (s.setReg R.TB_RATE v) := (s.setReg_regsBut _ v).mono (by decide)
  unfold State.rateWrite
  dsimp only
  split
  · exact stored
  · exact stored.trans ((State.rateEffect_regsBut _).mono (by decide))

theorem State.rateWrite_of_free {s : State} (free : s.discMode = 0) (v : Word) : s.rateWrite v = s.setReg R.TB_RATE v := by
  rw [State.rateWrite, State.setReg_discMode (by decide), if_pos free]

theorem State.rateWrite_of_disciplined {s : State} (h : s.discMode ≠ 0) (v : Word) :
    s.rateWrite v = ((s.setReg R.TB_RATE v).rateAimed v).rateMove := by
  rw [State.rateWrite, State.setReg_discMode (by decide), if_neg h, State.rateEffect_eq, State.reg_setReg, if_pos rfl]

theorem State.rateWrite_reg (s : State) (v : Word) : (s.rateWrite v).reg R.TB_RATE = v := by
  by_cases free : s.discMode = 0
  · rw [State.rateWrite_of_free free, State.reg_setReg, if_pos rfl]
  · rw [State.rateWrite_of_disciplined free, State.rateMove_reg, State.rateAimed_regsBut _ _ _ (by decide),
      State.reg_setReg, if_pos rfl]

theorem State.tbWrite_rate {s : State} {d : Nat} (h : s.discMode ≠ 2 ∨ d = 0) (r : RegRow) (v : Word) :
    s.tbWrite d r R.TB_RATE v = s.rateWrite v := by
  have taken : ¬ ((s.discMode == 2 && d != 0) = true) := by
    rcases h with h | h <;> simp [h]
  rw [State.tbWrite, if_pos rfl, if_neg taken]

section
variable {s : State} (disc : s.discMode ≠ 0) (v : Word)
include disc

theorem State.rateWrite_rateGoal : (s.rateWrite v).clk.rateGoal = rateLimit v := by
  rw [State.rateWrite_of_disciplined disc, State.rateMove_rateGoal, State.rateAimed_clk]

theorem State.rateWrite_rateNow : (s.rateWrite v).clk.rateNow =
    if serialGe s.clk.beat s.clk.rateNext = true then
      s.clk.rateNow + clampI (-rateStep) rateStep (rateLimit v - s.clk.rateNow) else s.clk.rateNow := by
  rw [State.rateWrite_of_disciplined disc, State.rateMove_rateNow, State.rateAimed_clk, State.setReg_clk]

theorem State.rateWrite_clk : (s.rateWrite v).clk = { s.clk with
    rateGoal := (s.rateWrite v).clk.rateGoal, rateNow := (s.rateWrite v).clk.rateNow,
    rateNext := (s.rateWrite v).clk.rateNext } := by
  rw [State.rateWrite_rateGoal disc, State.rateWrite_of_disciplined disc, State.rateMove_clk, State.rateAimed_clk,
    State.setReg_clk]

theorem State.rateWrite_status_of_clamped (h : rateLimit v ≠ sInt v) : (s.rateWrite v).rb R.TB_STATUS 6 = true := by
  rw [State.rateWrite_of_disciplined disc, State.rateMove_rb, State.rateAimed_status_of_clamped h]

theorem State.rateWrite_status_of_within (h : rateLimit v = sInt v) :
    (s.rateWrite v).reg R.TB_STATUS = s.reg R.TB_STATUS := by
  rw [State.rateWrite_of_disciplined disc, State.rateMove_reg, State.rateAimed_status_of_within h, State.reg_setReg,
    if_neg (by decide)]

end

section
variable {s : State} {m : Master} {r : RegRow}

/-- TB_RATE_WRITE that nothing refuses. -/
theorem exec_tbRateWrite (h : s.Writes m .tb r R.TB_RATE) (own : s.discMode ≠ 2 ∨ s.domainOf m = 0) (v : Word) :
    exec (.tbRateWrite m v) s = .next ((s.rateWrite v).answer m .done) := by
  rw [← State.tbWrite_rate own r v]
  exact State.writeCmd_tb h rfl (by decide) v

theorem tbRateWrite_effect (h : s.Writes m .tb r R.TB_RATE) (own : s.discMode ≠ 2 ∨ s.domainOf m = 0) (v : Word) :
    ∃ t, exec (.tbRateWrite m v) s = .next t
      ∧ t.reg R.TB_RATE = v
      ∧ (s.discMode = 0 → t.clk = s.clk ∧ t.reg R.TB_STATUS = s.reg R.TB_STATUS)
      ∧ (s.discMode ≠ 0 →
          t.clk.rateGoal = clampI (-219902326) 219902326 (sInt v)
          ∧ t.clk.rateNow = (if serialGe s.clk.beat s.clk.rateNext = true then
              s.clk.rateNow + clampI (-rateStep) rateStep (t.clk.rateGoal - s.clk.rateNow) else s.clk.rateNow)
          ∧ t.clk = { s.clk with rateGoal := t.clk.rateGoal, rateNow := t.clk.rateNow, rateNext := t.clk.rateNext }
          ∧ (t.clk.rateGoal ≠ sInt v → t.rb R.TB_STATUS 6 = true)
          ∧ (t.clk.rateGoal = sInt v → t.reg R.TB_STATUS = s.reg R.TB_STATUS))
      ∧ RegsBut [R.TB_RATE, R.TB_STATUS] s t
      ∧ SameBut [.regs, .scCount, .clk, .reply] s t
      ∧ t.reply = some ⟨m, .done⟩ := by
  have stored := s.rateWrite_reg v
  have regs := s.rateWrite_regsBut v
  have rest : SameBut [.regs, .scCount, .clk, .reply] s (s.rateWrite v) := State.rateWrite_touch.sameBut
  have inFree : s.discMode = 0 → (s.rateWrite v).clk = s.clk ∧ (s.rateWrite v).reg R.TB_STATUS = s.reg R.TB_STATUS := by
    intro free
    rw [State.rateWrite_of_free free]
    exact ⟨rfl, State.setReg_regsBut s _ v _ (by decide)⟩
  have goal := fun disc => State.rateWrite_rateGoal (s := s) disc v
  have now := fun disc => State.rateWrite_rateNow (s := s) disc v
  have clk := fun disc => State.rateWrite_clk (s := s) disc v
  have clamped := fun disc => State.rateWrite_status_of_clamped (s := s) disc v
  have within := fun disc => State.rateWrite_status_of_within (s := s) disc v
  have run := exec_tbRateWrite h own v
  generalize s.rateWrite v = u at *
  exact ⟨u.answer m .done, run, stored, inFree,
    fun disc => ⟨goal disc, by rw [State.answer_clk, goal disc]; exact now disc, clk disc,
      fun ne => clamped disc (goal disc ▸ ne), fun eq => within disc (goal disc ▸ eq)⟩,
    regs.answer m _, rest.answer (by decide) m _, rfl⟩

end
end Sys2Proof.Machine
end

section
/-!
The discipline and the servo (R37), and steps of device time (R36).
-/
set_option Elab.async false
namespace Sys2Proof.Machine
open Sys2Proof

theorem exec_rateIncrement (s : State) : exec .rateIncrement s = .next s.rateMove := rfl

/-! ### The discipline -/

@[simp] theorem State.setClk_discMode (s : State) (c : ClockState) : (s.setClk c).discMode = s.discMode := rfl

theorem State.rf_setRf (s : State) (a i j v : Nat) (b k l : Nat) :
    (s.setRf a i j v).rf b k l = if b = a then fld (setFld (s.reg a) i j v) k l else s.rf b k l :=
  State.rf_setReg s a _ b k l

/-- The discipline of a word of TB_DISC (R37). -/
def discOf (w : Word) : Nat := if fld w 1 0 = 3 then 0 else fld w 1 0

/-- A state with a new MODE and the state of the servo that goes with it. -/
def State.discSet (s : State) (v : Word) : State :=
  if discOf v = 2 then
    if s.discMode = 2 then s.setRf R.TB_DISC 1 0 (fld v 1 0)
    else ((s.setRf R.TB_DISC 1 0 (fld v 1 0)).setRf R.TB_DISC 5 4 1).setClk { s.clk with syncGood := 0 }
  else (s.setRf R.TB_DISC 1 0 (fld v 1 0)).setRf R.TB_DISC 5 4 0

theorem fld_lt_four (v : Word) : fld v 1 0 < 4 := fld_lt v 1 0

theorem State.rf_setRf_self (s : State) {a i j v : Nat} (hi : i < 32) (hv : v < 2 ^ (i + 1 - j)) :
    (s.setRf a i j v).rf a i j = v := by
  rw [State.rf_setRf, if_pos rfl, fld_setFld _ _ _ _ hi, Nat.mod_eq_of_lt hv]

theorem State.rf_setRf_disjoint (s : State) {a i j v b k l : Nat} (hk : k < 32) (hd : k < j ∨ i < l) :
    (s.setRf a i j v).rf b k l = s.rf b k l := by
  rw [State.rf_setRf]
  split
  case isTrue h => rw [h, fld_setFld_of_disjoint _ _ _ _ _ _ hk hd]; rfl
  case isFalse => rfl

theorem State.setRf_regsBut (s : State) (a i j v : Nat) : RegsBut [a] s (s.setRf a i j v) := s.setReg_regsBut a _

theorem State.discSet_mode (s : State) (v : Word) : (s.discSet v).rf R.TB_DISC 1 0 = fld v 1 0 := by
  have mode := s.rf_setRf_self (a := R.TB_DISC) (i := 1) (j := 0) (by decide) (fld_lt_four v)
  unfold State.discSet
  split
  · split
    · exact mode
    · exact (State.rf_setRf_disjoint _ (by decide) (by decide)).trans mode
  · exact (State.rf_setRf_disjoint _ (by decide) (by decide)).trans mode

theorem State.discMode_eq (s : State) : s.discMode = discOf (s.reg R.TB_DISC) := rfl

theorem discOf_congr {v w : Word} (h : fld v 1 0 = fld w 1 0) : discOf v = discOf w := by
  unfold discOf
  rw [h]

theorem State.discSet_discMode (s : State) (v : Word) : (s.discSet v).discMode = discOf v :=
  discOf_congr (s.discSet_mode v)

theorem State.discSet_servo {s : State} (h : s.discMode ≠ 2) {v : Word} (servo : fld v 1 0 = 2) :
    (s.discSet v).rf R.TB_DISC 5 4 = 1 := by
  rw [State.discSet, if_pos (by simp [discOf, servo]), if_neg h]
  exact State.rf_setRf_self _ (by decide) (by decide)

theorem State.discSet_regsBut (s : State) (v : Word) : RegsBut [R.TB_DISC] s (s.discSet v) := by
  have mode := s.setRf_regsBut R.TB_DISC 1 0 (fld v 1 0)
  unfold State.discSet
  split
  · split
    · exact mode
    · exact mode.trans (State.setRf_regsBut _ _ _ _ _)
  · exact mode.trans (State.setRf_regsBut _ _ _ _ _)

theorem State.discWrite_eq (s : State) (v : Word) : s.discWrite v =
    if discOf v = 0 then ((s.discSet v).setClk { (s.discSet v).clk with rateGoal := 0 }).rateMove
    else if s.discMode = 0 then (s.discSet v).rateEffect
    else s.discSet v := by
  have mode : (s.setRf R.TB_DISC 1 0 (fld v 1 0)).discMode = discOf v :=
    discOf_congr (s.rf_setRf_self (by decide) (fld_lt_four v))
  simp only [State.discWrite, mode]
  rfl

theorem State.discWrite_disc (s : State) (v : Word) : (s.discWrite v).reg R.TB_DISC = (s.discSet v).reg R.TB_DISC := by
  rw [State.discWrite_eq]
  split
  · simp
  · split
    · exact State.rateEffect_regsBut _ _ (by decide)
    · rfl

theorem State.discWrite_mode (s : State) (v : Word) : (s.discWrite v).rf R.TB_DISC 1 0 = fld v 1 0 := by
  rw [State.rf, State.discWrite_disc]
  exact s.discSet_mode v

theorem State.discWrite_servo {s : State} (h : s.discMode ≠ 2) {v : Word} (servo : fld v 1 0 = 2) :
    (s.discWrite v).rf R.TB_DISC 5 4 = 1 := by
  rw [State.rf, State.discWrite_disc]
  exact State.discSet_servo h servo

theorem State.discWrite_goal_of_free (s : State) {v : Word} (free : fld v 1 0 = 0) : (s.discWrite v).clk.rateGoal = 0 := by
  rw [State.discWrite_eq, if_pos (by simp [discOf, free]), State.rateMove_rateGoal]
  rfl

theorem State.discWrite_goal_from_free {s : State} (free : s.discMode = 0) {v : Word} (h : (s.discWrite v).discMode ≠ 0) :
    (s.discWrite v).clk.rateGoal = rateLimit (s.reg R.TB_RATE) := by
  have ne : discOf v ≠ 0 := by
    rwa [State.discMode_eq, discOf_congr (s.discWrite_mode v)] at h
  rw [State.discWrite_eq, if_neg ne, if_pos free, State.rateEffect_rateGoal, State.discSet_regsBut s v _ (by decide)]

theorem State.discWrite_regsBut (s : State) (v : Word) : RegsBut [R.TB_DISC, R.TB_STATUS] s (s.discWrite v) := by
  have disc : RegsBut [R.TB_DISC, R.TB_STATUS] s (s.discSet v) := (s.discSet_regsBut v).mono (by decide)
  rw [State.discWrite_eq]
  split
  · intro a ha
    rw [State.rateMove_reg, State.setClk_reg, disc a ha]
  · split
    · exact disc.trans ((State.rateEffect_regsBut _).mono (by decide))
    · exact disc

section
variable {s : State} {m : Master} {r : RegRow}

theorem exec_tbDiscWrite (h : s.Writes m .tb r R.TB_DISC) (v : Word) :
    exec (.tbDiscWrite m v) s = .next ((s.discWrite v).answer m .done) :=
  State.writeCmd_tb h rfl (by decide) v

theorem tbDiscWrite_effect (h : s.Writes m .tb r R.TB_DISC) (v : Word) :
    ∃ t, exec (.tbDiscWrite m v) s = .next t
      ∧ t.rf R.TB_DISC 1 0 = fld v 1 0
      ∧ (fld v 1 0 = 0 → t.clk.rateGoal = 0)
      ∧ (s.discMode = 0 → t.discMode ≠ 0 → t.clk.rateGoal = clampI (-219902326) 219902326 (sInt (s.reg R.TB_RATE)))
      ∧ (s.discMode ≠ 2 → fld v 1 0 = 2 → t.rf R.TB_DISC 5 4 = 1)
      ∧ RegsBut [R.TB_DISC, R.TB_STATUS] s t
      ∧ SameBut [.regs, .scCount, .clk, .reply] s t
      ∧ t.reply = some ⟨m, .done⟩ := by
  have mode := s.discWrite_mode v
  have goal := s.discWrite_goal_of_free (v := v)
  have fromFree := fun free => State.discWrite_goal_from_free (s := s) free (v := v)
  have servo := fun other => State.discWrite_servo (s := s) other (v := v)
  have regs := s.discWrite_regsBut v
  have rest : SameBut [.regs, .scCount, .clk, .reply] s (s.discWrite v) := State.discWrite_touch.sameBut
  have run := exec_tbDiscWrite h v
  generalize s.discWrite v = u at *
  exact ⟨u.answer m .done, run, mode, goal, fromFree, servo, regs.answer m _, rest.answer (by decide) m _, rfl⟩

end

/-! ### The servo -/

/-- A message ends HOLDOVER: the servo acquires again (R37). -/
def State.servoHeard (s : State) : State :=
  if s.rf R.TB_DISC 5 4 = 3 then (s.setRf R.TB_DISC 5 4 1).setClk { s.clk with syncGood := 0 } else s

/-- The good offsets in a row that a message leaves. -/
def State.goodOffsets (s : State) (offset : BitVec 64) : Nat :=
  if offset.toInt.natAbs < 100 then s.servoHeard.clk.syncGood + 1 else 0

/-- The servo after a message, before it acts on it: it tracks after 16 good offsets in a row. -/
def State.servoNoted (s : State) (offset : BitVec 64) : State :=
  let u := s.servoHeard.setClk { s.servoHeard.clk with syncGood := min 16 (s.goodOffsets offset) }
  if s.servoHeard.rf R.TB_DISC 5 4 = 1 ∧ 16 ≤ s.goodOffsets offset then u.setRf R.TB_DISC 5 4 2 else u

theorem State.syncMessage_eq (s : State) (offset : BitVec 64) (rate : Word) : s.syncMessage offset rate =
    if s.servoHeard.rf R.TB_DISC 5 4 = 1 ∧ 1000 < offset.toInt.natAbs then
      ((s.servoNoted offset).setReg R.TB_STEP_LO (lo64 (0#64 - offset).toNat)).stepWrite 0 (hi64 (0#64 - offset).toNat)
    else (s.servoNoted offset).rateWrite rate := rfl

theorem State.servoHeard_rf (s : State) : s.servoHeard.rf R.TB_DISC 5 4 =
    if s.rf R.TB_DISC 5 4 = 3 then 1 else s.rf R.TB_DISC 5 4 := by
  unfold State.servoHeard
  split
  · exact s.rf_setRf_self (by decide) (by decide)
  · rfl

theorem State.servoHeard_regsBut (s : State) : RegsBut [R.TB_DISC] s s.servoHeard := by
  unfold State.servoHeard
  split
  · exact s.setRf_regsBut _ _ _ _
  · exact .refl _ s

theorem State.servoHeard_mode (s : State) : s.servoHeard.rf R.TB_DISC 1 0 = s.rf R.TB_DISC 1 0 := by
  unfold State.servoHeard
  split
  · exact s.rf_setRf_disjoint (by decide) (by decide)
  · rfl

theorem State.servoHeard_clk (s : State) : s.servoHeard.clk = { s.clk with syncGood := s.servoHeard.clk.syncGood } := by
  unfold State.servoHeard
  split <;> rfl

theorem State.servoNoted_clk (s : State) (offset : BitVec 64) :
    (s.servoNoted offset).clk = { s.clk with syncGood := (s.servoNoted offset).clk.syncGood } := by
  unfold State.servoNoted
  dsimp only
  rw [State.servoHeard_clk]
  split <;> rfl

theorem State.servoNoted_regsBut (s : State) (offset : BitVec 64) : RegsBut [R.TB_DISC] s (s.servoNoted offset) := by
  unfold State.servoNoted
  dsimp only
  split
  · exact s.servoHeard_regsBut.trans (State.setRf_regsBut _ _ _ _ _)
  · exact s.servoHeard_regsBut

/-- No message leaves the servo in HOLDOVER. -/
theorem State.servoNoted_rf_ne (s : State) (offset : BitVec 64) : (s.servoNoted offset).rf R.TB_DISC 5 4 ≠ 3 := by
  unfold State.servoNoted
  dsimp only
  split
  · rw [State.rf_setRf_self _ (by decide) (by decide)]
    decide
  · rw [State.setClk_rf, State.servoHeard_rf]
    split
    · decide
    · assumption

theorem State.servoNoted_discMode (s : State) (offset : BitVec 64) : (s.servoNoted offset).discMode = s.discMode := by
  refine discOf_congr ?_
  unfold State.servoNoted
  dsimp only
  split
  · exact (State.rf_setRf_disjoint _ (by decide) (by decide)).trans s.servoHeard_mode
  · exact s.servoHeard_mode

/-! ### Steps of device time -/

theorem State.stepWrite_of_none {s : State} (none : s.clk.step = none) (d : Nat) (v : Word) : s.stepWrite d v =
    ((s.setReg R.TB_STEP_HI v).request d).setClk { ((s.setReg R.TB_STEP_HI v).request d).clk with
      step := some (s.clk.beat + 2, BitVec.ofNat 64 (pair64 v (s.reg R.TB_STEP_LO &&& ~~~ 3#32))) } := by
  have still : ((s.setReg R.TB_STEP_HI v).request d).clk.step = .none := none
  have low : ((s.setReg R.TB_STEP_HI v).request d).reg R.TB_STEP_LO = s.reg R.TB_STEP_LO :=
    s.setReg_regsBut _ v _ (by decide)
  simp only [State.stepWrite, still, low]
  rfl

theorem State.stepWrite_of_some {s : State} {x} (pending : s.clk.step = some x) (d : Nat) (v : Word) : s.stepWrite d v =
    ((s.setReg R.TB_STEP_HI v).request d).flag R.TB_STATUS 0 := by
  have still : ((s.setReg R.TB_STEP_HI v).request d).clk.step = some x := pending
  simp only [State.stepWrite, still]

theorem State.stepWrite_regsBut (s : State) (d : Nat) (v : Word) :
    RegsBut [R.TB_STEP_HI, R.TB_STATUS] s (s.stepWrite d v) := by
  have stored : RegsBut [R.TB_STEP_HI, R.TB_STATUS] s ((s.setReg R.TB_STEP_HI v).request d) :=
    (s.setReg_regsBut _ v).mono (by decide)
  rcases h : s.clk.step with _ | x
  · rw [State.stepWrite_of_none h]
    exact stored
  · rw [State.stepWrite_of_some h]
    exact stored.trans ((State.flag_regsBut _ _ _).mono (by decide))

theorem pair64_eq_append (hi lo : Word) : BitVec.ofNat 64 (pair64 hi lo) = hi ++ lo := by
  apply BitVec.eq_of_toNat_eq
  rw [BitVec.toNat_append, ← Nat.shiftLeft_add_eq_or_of_lt lo.isLt, Nat.shiftLeft_eq, BitVec.toNat_ofNat, pair64]
  omega

theorem append_halves (x : BitVec 64) : hi64 x.toNat ++ lo64 x.toNat = x := by
  rw [← pair64_eq_append]
  apply BitVec.eq_of_toNat_eq
  simp only [pair64, hi64, lo64, w32, BitVec.toNat_ofNat, Nat.shiftRight_eq_div_pow]
  omega

/-- A step's two words, bits [1:0] ignored. -/
theorem stepValue_of_halves (x : BitVec 64) :
    BitVec.ofNat 64 (pair64 (hi64 x.toNat) (lo64 x.toNat &&& ~~~ 3#32)) = x &&& ~~~ 3#64 := by
  have mask : ~~~ 3#64 = ~~~ 0#32 ++ ~~~ 3#32 := by decide
  rw [pair64_eq_append, mask]
  conv_rhs => rw [← append_halves x]
  ext i hi
  simp only [BitVec.getElem_and, BitVec.getElem_append]
  split
  · rfl
  · simp only [BitVec.getElem_not, BitVec.getElem_zero, Bool.not_false, Bool.and_true]

section
variable {s : State} {offset : BitVec 64}

theorem State.syncMessage_disc (s : State) (offset : BitVec 64) (rate : Word) :
    (s.syncMessage offset rate).rf R.TB_DISC 5 4 ≠ 3 := by
  rw [State.syncMessage_eq]
  split
  · rw [State.rf, State.stepWrite_regsBut _ _ _ _ (by decide), State.setReg_regsBut _ _ _ _ (by decide)]
    exact s.servoNoted_rf_ne offset
  · rw [State.rf, State.rateWrite_regsBut _ _ _ (by decide)]
    exact s.servoNoted_rf_ne offset

theorem State.syncMessage_steps (seeks : s.rf R.TB_DISC 5 4 = 1 ∨ s.rf R.TB_DISC 5 4 = 3)
    (far : 1000 < offset.toInt.natAbs) (none : s.clk.step = none) (rate : Word) :
    (s.syncMessage offset rate).clk.step = some (s.clk.beat + 2, (0#64 - offset) &&& ~~~ 3#64) := by
  have acquiring : s.servoHeard.rf R.TB_DISC 5 4 = 1 := by
    rw [State.servoHeard_rf]
    rcases seeks with h | h <;> simp [h]
  have still : ((s.servoNoted offset).setReg R.TB_STEP_LO (lo64 (0#64 - offset).toNat)).clk.step = .none := by
    rw [State.setReg_clk, State.servoNoted_clk]
    exact none
  rw [State.syncMessage_eq, if_pos ⟨acquiring, far⟩, State.stepWrite_of_none still, State.setClk_clk, State.reg_setReg,
    if_pos rfl, stepValue_of_halves, State.setReg_clk, State.servoNoted_clk]

theorem State.syncMessage_rates (near : (s.rf R.TB_DISC 5 4 ≠ 1 ∧ s.rf R.TB_DISC 5 4 ≠ 3) ∨ offset.toInt.natAbs ≤ 1000)
    (servo : s.discMode = 2) (rate : Word) :
    (s.syncMessage offset rate).reg R.TB_RATE = rate
      ∧ (s.syncMessage offset rate).clk.rateGoal = rateLimit rate := by
  have other : ¬ (s.servoHeard.rf R.TB_DISC 5 4 = 1 ∧ 1000 < offset.toInt.natAbs) := by
    rintro ⟨acquiring, far⟩
    rw [State.servoHeard_rf] at acquiring
    split at acquiring <;> omega
  have disc : (s.servoNoted offset).discMode ≠ 0 := by
    rw [State.servoNoted_discMode, servo]
    decide
  rw [State.syncMessage_eq, if_neg other]
  exact ⟨State.rateWrite_reg _ rate, State.rateWrite_rateGoal disc rate⟩

end

theorem exec_asSyncMessage {s : State} (servo : s.discMode = 2) (awake : s.awake = true) (offset : BitVec 64) (rate : Word) :
    exec (.asSyncMessage offset rate) s = .next (s.syncMessage offset rate) :=
  congrArg _ (if_pos ⟨servo, awake⟩)

theorem exec_servoHoldover {s : State} (servo : s.discMode = 2) :
    exec .servoHoldover s = .next ((s.setRf R.TB_DISC 5 4 3).setClk { s.clk with syncGood := 0 }) :=
  congrArg _ (if_pos servo)

/-- Settles O13, clause by clause: a written rate aims the clock at its clamped value and moves it once; a written
discipline sets the mode, then the goal; a message is noted by the servo, which then steps or writes the rate. -/
theorem rateAndDisciplineCommands : Obligations.RateAndDisciplineCommands := by
  refine ⟨fun m v s r h own => tbRateWrite_effect h own v, exec_rateIncrement, fun m v s r h => tbDiscWrite_effect h v,
    fun offset rate s servo awake => ?_, fun s servo => ?_⟩
  · exact ⟨_, exec_asSyncMessage servo awake offset rate, s.syncMessage_disc offset rate,
      fun seeks far none => State.syncMessage_steps seeks far none rate,
      fun near => State.syncMessage_rates near servo rate, State.syncMessage_touch.sameBut⟩
  · exact ⟨_, exec_servoHoldover servo, s.rf_setRf_self (by decide) (by decide), rfl, rfl, s.setRf_regsBut _ _ _ _,
      ((s.setReg_sameBut _ _).mono (by decide)).trans (State.setClk_touch_rfl (by trivial)).sameBut⟩

end Sys2Proof.Machine
end

section
/-!
Registers written one by one, which pennants are enabled, and what a source fires (R258 to R263).
-/
set_option Elab.async false
namespace Sys2Proof.Machine
open Sys2Proof

/-! ### Registers written one by one

`RegsIn P s t` is stronger than a frame: the register file of `t` is that of `s` after writes to registers of `P`, so that
what is read off the listing of the file (which pennants are enabled) is known too. -/

/-- The writes, oldest first. -/
def regsAfter (r : Store Word) (ws : List (Nat × Word)) : Store Word :=
  ws.foldl (fun r w => Store.set regReset w.1 w.2 r) r

def RegsIn (P : Nat → Prop) (s t : State) : Prop :=
  ∃ ws : List (Nat × Word), (∀ w ∈ ws, P w.1) ∧ t.regs = regsAfter s.regs ws

theorem RegsIn.of_regs {s t : State} (h : t.regs = s.regs) (P : Nat → Prop) : RegsIn P s t := ⟨[], by simp, h⟩

theorem RegsIn.refl (P : Nat → Prop) (s : State) : RegsIn P s s := .of_regs rfl P

theorem RegsIn.trans {P : Nat → Prop} {s t u : State} (h : RegsIn P s t) (k : RegsIn P t u) : RegsIn P s u := by
  obtain ⟨v, hv, ev⟩ := h
  obtain ⟨w, hw, ew⟩ := k
  refine ⟨v ++ w, fun x hx => (List.mem_append.mp hx).elim (hv x) (hw x), ?_⟩
  rw [ew, ev, regsAfter, regsAfter, regsAfter, List.foldl_append]

theorem RegsIn.mono {P Q : Nat → Prop} {s t : State} (h : RegsIn P s t) (sub : ∀ a, P a → Q a) : RegsIn Q s t := by
  obtain ⟨w, hw, ew⟩ := h
  exact ⟨w, fun x hx => sub _ (hw x hx), ew⟩

theorem RegsIn.ite {P : Nat → Prop} {s t u : State} {c : Prop} [Decidable c] (h : RegsIn P s t) (k : RegsIn P s u) :
    RegsIn P s (if c then t else u) := by
  split
  · exact h
  · exact k

theorem RegsIn.foldl {α : Type} {P : Nat → Prop} {f : State → α → State} :
    ∀ (l : List α) (s : State), (∀ x ∈ l, ∀ t, RegsIn P t (f t x)) → RegsIn P s (l.foldl f s)
  | [], s, _ => .refl P s
  | x :: l, s, hf => (hf x List.mem_cons_self s).trans
      (RegsIn.foldl l (f s x) fun y hy => hf y (List.mem_cons_of_mem x hy))

/-- A register outside `P` stands. -/
theorem RegsIn.reg_eq {P : Nat → Prop} {s t : State} (h : RegsIn P s t) {a : Nat} (ha : ¬ P a) : t.reg a = s.reg a := by
  obtain ⟨ws, hws, e⟩ := h
  have read : ∀ (ws : List (Nat × Word)) (r : Store Word), (∀ w ∈ ws, w.1 ≠ a) →
      Store.get regReset a (regsAfter r ws) = Store.get regReset a r := by
    intro ws
    induction ws with
    | nil => intro r _; rfl
    | cons w ws ih =>
      intro r ne
      have first : a ≠ w.1 := (ne w List.mem_cons_self).symm
      rw [regsAfter, List.foldl_cons]
      exact (ih _ (fun x hx => ne x (List.mem_cons_of_mem w hx))).trans (by rw [Store.get_set, if_neg first])
  rw [State.reg, e]
  exact read ws s.regs fun w hw eq => ha (eq ▸ hws w hw)

theorem RegsIn.rb_eq {P : Nat → Prop} {s t : State} (h : RegsIn P s t) {a : Nat} (ha : ¬ P a) (i : Nat) :
    t.rb a i = s.rb a i := congrArg (bit · i) (h.reg_eq ha)

theorem RegsIn.rf_eq {P : Nat → Prop} {s t : State} (h : RegsIn P s t) {a : Nat} (ha : ¬ P a) (i j : Nat) :
    t.rf a i j = s.rf a i j := congrArg (fld · i j) (h.reg_eq ha)

/-- The same for a list of registers. -/
def RegsSet (l : List Nat) (s t : State) : Prop := RegsIn (· ∈ l) s t

theorem RegsSet.of_regs {s t : State} (h : t.regs = s.regs) (l : List Nat) : RegsSet l s t := RegsIn.of_regs h _

theorem RegsSet.refl (l : List Nat) (s : State) : RegsSet l s s := .of_regs rfl l

theorem RegsSet.trans {l : List Nat} {s t u : State} (h : RegsSet l s t) (k : RegsSet l t u) : RegsSet l s u :=
  RegsIn.trans h k

theorem RegsSet.mono {l k : List Nat} {s t : State} (h : RegsSet l s t) (sub : l ⊆ k) : RegsSet k s t :=
  RegsIn.mono h fun _ ha => sub ha

theorem RegsSet.regsIn {l : List Nat} {s t : State} (h : RegsSet l s t) {P : Nat → Prop} (sub : ∀ a ∈ l, P a) :
    RegsIn P s t := RegsIn.mono h sub

theorem State.setReg_regsSet (s : State) (a : Nat) (v : Word) : RegsSet [a] s (s.setReg a v) :=
  ⟨[(a, v)], by simp, rfl⟩

theorem State.setReg_regsIn (s : State) {P : Nat → Prop} {a : Nat} (ha : P a) (v : Word) : RegsIn P s (s.setReg a v) :=
  (s.setReg_regsSet a v).regsIn (by simpa using ha)

theorem State.flag_regsSet (s : State) (a i : Nat) : RegsSet [a] s (s.flag a i) := by
  unfold State.flag State.flagW
  split
  · exact .refl _ s
  · exact s.setReg_regsSet a _

theorem State.flag_regsIn (s : State) {P : Nat → Prop} {a : Nat} (ha : P a) (i : Nat) : RegsIn P s (s.flag a i) :=
  (s.flag_regsSet a i).regsIn (by simpa using ha)

theorem SameBut.regsSet {p : List Part} {s t : State} (h : SameBut p s t) (keeps : Part.regs ∉ p) (l : List Nat) :
    RegsSet l s t := .of_regs (h .regs keeps) l

theorem RegsSet.regsBut {l : List Nat} {s t : State} (h : RegsSet l s t) : RegsBut l s t := fun _ ha => RegsIn.reg_eq h ha

theorem RegsIn.regsBut {P : Nat → Prop} {l : List Nat} {s t : State} (h : RegsIn P s t) (sub : ∀ a, P a → a ∈ l) :
    RegsBut l s t := fun _ ha => h.reg_eq fun hp => ha (sub _ hp)

/-! ### Which pennants are enabled -/

section
variable {α β : Type} [DecidableEq α] {d : Nat → α} {k : Nat} {f : Nat × α → Option β} (out : ∀ u, f (k, u) = none)
include out

omit [DecidableEq α] in
theorem Store.filterMap_clear : ∀ r : Store α, (Store.clear (fun i => i == k) r).filterMap f = r.filterMap f
  | [] => rfl
  | (i, w) :: r => by
    have rest := Store.filterMap_clear r
    unfold Store.clear at rest ⊢
    by_cases h : i = k
    · subst h
      simp [out, rest]
    · simp [List.filterMap_cons, h, rest]

theorem Store.filterMap_cell (v : α) (r : Store α) : (Store.cell d k v ++ r).filterMap f = r.filterMap f := by
  unfold Store.cell
  split <;> simp [out]

/-- A key that a selection passes over may be written without a change of what it selects. -/
theorem Store.filterMap_set (v : α) : ∀ s : Store α, (Store.set d k v s).filterMap f = s.filterMap f
  | [] => by
    simpa [Store.set] using Store.filterMap_cell (d := d) out v []
  | (j, u) :: r => by
    have rest := Store.filterMap_set v r
    unfold Store.set
    split
    case isTrue h =>
      subst h
      rw [rest, List.filterMap_cons, out]
    case isFalse =>
      split
      · rw [Store.filterMap_cell out, List.filterMap_cons, List.filterMap_cons, Store.filterMap_clear out]
      · rw [List.filterMap_cons, List.filterMap_cons, rest]

end

/-- The pennants' registers: four words for each of the 1,024 of FB, and for each of the 64 of an island. -/
def pennantReg (a : Nat) : Bool :=
  (0x50010000 ≤ a && a < 0x50014000)
    || (0x40000000 ≤ a && a < 0x50000000 && 0x251000 ≤ a % 0x1000000 && a % 0x1000000 < 0x251400)

theorem pnOfCtrl_of_outside {a : Nat} (h : pennantReg a = false) : pnOfCtrl a = none := by
  simp only [pennantReg, ← Bool.not_eq_true, Bool.or_eq_true, Bool.and_eq_true, decide_eq_true_eq] at h
  unfold pnOfCtrl islandOf
  rw [if_neg (by omega)]
  split
  case h_2 => rfl
  case h_1 x e =>
    split at e
    case isTrue => exact if_neg (by omega)
    case isFalse => simp at e

theorem pnOfCtrl_lt {a p : Nat} (h : pnOfCtrl a = some p) : p < 2048 := by
  unfold pnOfCtrl islandOf at h
  split at h
  · simp at h; omega
  · split at h
    · rename_i x e
      split at e
      · simp only [Option.some.injEq] at e
        dsimp only at h
        split at h
        · simp only [Option.some.injEq] at h; omega
        · simp at h
      · simp at e
    · simp at h

theorem pennantReg_pnCfg {p : Nat} (h : p < 2048) : pennantReg (pnCfg p) = true := by
  unfold pnCfg pennantReg R.FI_PNp_CFG R.FB_PNg_CFG
  split <;> simp <;> omega

theorem pennantReg_pnOwner {p : Nat} (h : p < 2048) : pennantReg (pnOwner p) = true := by
  unfold pnOwner pennantReg R.FI_PNp_OWNER R.FB_PNg_OWNER
  split <;> simp <;> omega

theorem State.lt_of_mem_pennantsOn {s : State} {p : Nat} (h : p ∈ s.pennantsOn) : p < 2048 := by
  obtain ⟨e, -, he⟩ := List.mem_filterMap.mp h
  split at he
  · exact pnOfCtrl_lt he
  · simp at he

theorem RegsIn.pennantsOn_eq {P : Nat → Prop} {s t : State} (h : RegsIn P s t) (out : ∀ a, P a → pennantReg a = false) :
    t.pennantsOn = s.pennantsOn := by
  obtain ⟨ws, hws, e⟩ := h
  unfold State.pennantsOn
  rw [e]
  clear e
  generalize s.regs = r
  induction ws generalizing r with
  | nil => rfl
  | cons w ws ih =>
    rw [regsAfter, List.foldl_cons]
    refine (ih (fun x hx => hws x (List.mem_cons_of_mem w hx)) _).trans (Store.filterMap_set (fun u => ?_) _ _)
    rw [pnOfCtrl_of_outside (out _ (hws w List.mem_cons_self)), ite_self]

/-! ### What a source fires -/

/-- A source's line stands at 1 for a pulse. -/
def State.pulsed (s : State) (g : Nat) : State := { s with pulses := s.pulses.set (fun _ => 0) g 2 }

theorem State.pulsed_pulse (s : State) (g : Nat) : (s.pulsed g).pulses.get (fun _ => 0) g = 2 :=
  (Store.get_set _ _).trans (if_pos rfl)

theorem State.pulsed_sourceLevel (s : State) (g : Nat) : (s.pulsed g).sourceLevel g = true := by
  simp [State.sourceLevel, s.pulsed_pulse]

theorem State.fire_eq (s : State) (g : Nat) :
    s.fire g = if s.sourceLevel g = true then s.pulsed g else (s.pulsed g).tellLine g := rfl

theorem State.fire_pulse (s : State) (g : Nat) : (s.fire g).pulses.get (fun _ => 0) g = 2 := by
  rw [State.fire_eq]
  split <;> exact s.pulsed_pulse g

/-- What a low line's rise makes due, for a pennant that may have it. -/
theorem State.mem_fire_due {s : State} {g p : Nat} (low : s.sourceLevel g = false) (hp : p ∈ s.selecting (.source g))
    (allowed : s.selRefused p = false) : transition p (!s.rb (pnCfg p) 29) false ∈ (s.fire g).due := by
  have line : (s.pulsed g).lineLevel p = !s.rb (pnCfg p) 29 := by
    have refused : (s.pulsed g).selRefused p = false := allowed
    have selected : (s.pulsed g).selection p = .source g := (by simpa using (List.mem_filter.mp hp).2 : s.selection p = _)
    simp only [State.lineLevel, refused, selected, State.pulsed_sourceLevel]
    exact Bool.true_xor _
  rw [State.fire_eq, if_neg (by simp [low])]
  exact List.mem_append_right _ (List.mem_map.mpr ⟨p, hp, by rw [line]⟩)

section
variable {P : Nat → Prop} {s u : State} (regs : RegsIn P s u) (out : ∀ a, P a → pennantReg a = false)
include regs out

theorem RegsIn.selecting_eq (q : Selection) : u.selecting q = s.selecting q := by
  unfold State.selecting
  rw [regs.pennantsOn_eq out]
  refine List.filter_congr fun p hp => ?_
  have cfg : u.reg (pnCfg p) = s.reg (pnCfg p) := regs.reg_eq fun mem => by
    simpa [pennantReg_pnCfg (State.lt_of_mem_pennantsOn hp)] using out _ mem
  unfold State.selection
  rw [cfg]

/-- A source fires for every pennant that selects it, whatever else has been written before. -/
theorem RegsIn.fires {g : Nat} (owner : ∀ a, sourceOwner g = some a → ¬ P a) (fab : u.fab = s.fab)
    (pulses : u.pulses = s.pulses) : Fires g s (u.fire g) := by
  have level : u.sourceLevel g = s.sourceLevel g := by
    unfold State.sourceLevel
    rw [fab, pulses]
  refine ⟨u.fire_pulse g, fun low p hp allowed => ?_⟩
  have on : p ∈ s.pennantsOn := (List.mem_filter.mp hp).1
  have chosen : s.selection p = .source g := by simpa using (List.mem_filter.mp hp).2
  have pennant : ∀ a, pennantReg a = true → u.reg a = s.reg a := fun a ha => regs.reg_eq fun mem => by
    simpa [ha] using out _ mem
  have cfg := pennant _ (pennantReg_pnCfg (State.lt_of_mem_pennantsOn on))
  have own := pennant _ (pennantReg_pnOwner (State.lt_of_mem_pennantsOn on))
  have selected : u.selection p = .source g := by
    unfold State.selection at chosen ⊢
    rw [cfg]
    exact chosen
  have secure : u.selSecure (.source g) = s.selSecure (.source g) := by
    simp only [State.selSecure]
    cases h : sourceOwner g with
    | none => rfl
    | some a =>
      simp only [State.ownerSec, State.rb]
      rw [regs.reg_eq (owner a h)]
  have granted : u.selRefused p = false := by
    rw [← allowed]
    unfold State.selRefused State.ownerSec State.rb
    rw [chosen, selected, own, secure]
  have inv : u.rb (pnCfg p) 29 = s.rb (pnCfg p) 29 := congrArg (bit · 29) cfg
  rw [← inv]
  exact State.mem_fire_due (level.trans low) ((regs.selecting_eq out _).symm ▸ hp) granted

end

theorem RegsSet.fires {l : List Nat} {s u : State} (regs : RegsSet l s u) (out : ∀ a ∈ l, pennantReg a = false) {g : Nat}
    (owner : ∀ a, sourceOwner g = some a → a ∉ l) (fab : u.fab = s.fab) (pulses : u.pulses = s.pulses) :
    Fires g s (u.fire g) := RegsIn.fires regs out owner fab pulses

end Sys2Proof.Machine
end

section
/-!
The offset of device time, and the synchronisation of islands (R32, R36, R40, R68).
-/
set_option Elab.async false
namespace Sys2Proof.Machine
open Sys2Proof

/-! ### The offset D of device time -/

section
variable (s : State) (d : BitVec 64) (l : Store (BitVec 64))

@[simp] theorem State.changeD_dOfs : (s.changeD d l).clk.dOfs = d := by
  unfold State.changeD
  split
  case isTrue h => exact h.1.symm
  case isFalse => rfl

@[simp] theorem State.changeD_dIsland : (s.changeD d l).clk.dIsland = l := by
  unfold State.changeD
  split
  case isTrue h => exact h.2.symm
  case isFalse => rfl

@[simp] theorem State.changeD_beat : (s.changeD d l).clk.beat = s.clk.beat := by
  unfold State.changeD
  split <;> rfl

@[simp] theorem State.changeD_step : (s.changeD d l).clk.step = s.clk.step := by
  unfold State.changeD
  split <;> rfl

@[simp] theorem State.changeD_syncAt : (s.changeD d l).clk.syncAt = s.clk.syncAt := by
  unfold State.changeD
  split <;> rfl

@[simp] theorem State.changeD_regs : (s.changeD d l).regs = s.regs := by
  unfold State.changeD
  split <;> rfl

end

/-- What a store of sixteen keys reads as. -/
theorem Store.get_foldl_set {α : Type} [DecidableEq α] (d f : Nat → α) (k : Nat) : ∀ (N : Nat) (st : Store α),
    Store.get d k ((List.range N).foldl (fun st n => Store.set d n (f n) st) st) = if k < N then f k else Store.get d k st
  | 0, st => by simp
  | N + 1, st => by
    rw [List.range_succ, List.foldl_append, List.foldl_cons, List.foldl_nil, Store.get_set, Store.get_foldl_set d f k N st]
    by_cases last : k = N
    · simp [last]
    · have : k < N + 1 ↔ k < N := by omega
      simp [last, this]

theorem State.stepNow_dOfs (s : State) (x : BitVec 64) : (s.stepNow x).clk.dOfs = s.clk.dOfs + x :=
  State.changeD_dOfs _ _ _

/-- A step moves the D of the synchronised islands alone (R36, R40). -/
theorem State.stepNow_dOf (s : State) (x : BitVec 64) {k : Nat} (hk : k < 16) :
    (s.stepNow x).dOf k = if s.synced k then s.clk.dOfs + x else s.dOf k := by
  unfold State.dOf
  rw [State.stepNow_dOfs]
  unfold State.stepNow
  rw [State.changeD_dIsland]
  exact (Store.get_foldl_set (fun _ => s.clk.dOfs + x)
    (fun n => if s.synced n then s.clk.dOfs + x else s.clk.dIsland.get (fun _ => s.clk.dOfs) n) k 16 []).trans (if_pos hk)

section
variable {s : State} {m : Master} {r : RegRow}

theorem State.tbWrite_stepHi {d : Nat} (h : s.discMode ≠ 2 ∨ d = 0) (r : RegRow) (v : Word) :
    s.tbWrite d r R.TB_STEP_HI v = s.stepWrite d v := by
  have taken : ¬ ((s.discMode == 2 && d != 0) = true) := by
    rcases h with h | h <;> simp [h]
  rw [State.tbWrite, if_neg (by decide), if_neg (by decide), if_pos rfl, if_neg taken]

theorem exec_tbStepHiWrite (h : s.Writes m .tb r R.TB_STEP_HI) (own : s.discMode ≠ 2 ∨ s.domainOf m = 0) (v : Word) :
    exec (.tbStepHiWrite m v) s = .next ((s.stepWrite (s.domainOf m) v).answer m .done) := by
  rw [← State.tbWrite_stepHi own r v]
  exact State.writeCmd_tb h rfl (by decide) v

theorem State.stepWrite_reg (s : State) (d : Nat) (v : Word) : (s.stepWrite d v).reg R.TB_STEP_HI = v := by
  have stored : ((s.setReg R.TB_STEP_HI v).request d).reg R.TB_STEP_HI = v :=
    (State.reg_setReg _ _ _ _).trans (if_pos rfl)
  rcases h : s.clk.step with _ | x
  · rw [State.stepWrite_of_none h]
    exact stored
  · rw [State.stepWrite_of_some h, State.flag_regsBut _ _ _ _ (by decide)]
    exact stored

theorem State.request_reqBeat (s : State) (d : Nat) : (s.request d).clk.reqBeat.get (fun _ => 0#64) d = s.clk.beat :=
  (Store.get_set _ _).trans (if_pos rfl)

theorem State.stepWrite_reqBeat (s : State) (d : Nat) (v : Word) :
    (s.stepWrite d v).clk.reqBeat.get (fun _ => 0#64) d = s.clk.beat := by
  have noted := (s.setReg R.TB_STEP_HI v).request_reqBeat d
  rcases h : s.clk.step with _ | x
  · rw [State.stepWrite_of_none h]
    exact noted
  · rw [State.stepWrite_of_some h, State.flag_clk]
    exact noted

/-- With no step pending, the two words make one, two beats away. -/
theorem State.stepWrite_schedules (none : s.clk.step = none) (d : Nat) (v : Word) :
    (s.stepWrite d v).clk.step =
        some (s.clk.beat + 2, BitVec.ofNat 64 (pair64 v (s.reg R.TB_STEP_LO &&& ~~~ 3#32)))
      ∧ (s.stepWrite d v).reg R.TB_STATUS = s.reg R.TB_STATUS := by
  rw [State.stepWrite_of_none none]
  exact ⟨rfl, s.setReg_regsBut _ v _ (by decide)⟩

/-- One that is pending stands, and STEP_BUSY sets. -/
theorem State.stepWrite_busy (pending : s.clk.step ≠ none) (d : Nat) (v : Word) :
    (s.stepWrite d v).clk.step = s.clk.step ∧ (s.stepWrite d v).rb R.TB_STATUS 0 = true := by
  obtain ⟨x, h⟩ := Option.ne_none_iff_exists'.mp pending
  rw [State.stepWrite_of_some h]
  exact ⟨by rw [State.flag_clk]; rfl, State.rb_flag_self _ _ _ (by decide)⟩

end

theorem exec_deviceTimeStep {s : State} {n x : BitVec 64} (pending : s.clk.step = some (n, x))
    (come : serialGe s.clk.beat n = true) : exec .deviceTimeStep s = .next (s.stepNow x) := by
  show execDeviceTimeStep s = _
  simp only [execDeviceTimeStep, pending, come, if_true]

/-! ### The islands' counts -/

section
variable {s : State}

theorem exec_islandSync {n : Fin 16} (running : s.phase n.val = .running) (unsynced : s.synced n.val = false)
    (watch : s.device ≠ .watch) (backup : s.device ≠ .backup) :
    exec (.islandSync n) s = .next (s.islandSync n.val) :=
  congrArg _ (if_pos (by simp [running, unsynced, watch, backup]))

theorem exec_syncLost {n : Fin 16} (synced : s.synced n.val = true) :
    exec (.syncLost n) s = .next (s.syncLost n.val) := congrArg _ (if_pos synced)

end

/-! ### The end of a condition -/

/-- A part outside the mask stands. -/
theorem Touch.same_part {w : Nat} {s t : State} (h : Touch w s t) (p : Part)
    (quiet : (p.bits.all fun i => !w.testBit i) = true := by decide) : p.same s t :=
  h.keep.part_same fun i hi => by simpa using List.all_eq_true.mp quiet i hi

theorem Touch.regsSet {w : Nat} {s t : State} (h : Touch w s t) (l : List Nat)
    (quiet : w.testBit 1 = false := by decide) : RegsSet l s t :=
  .of_regs (h.same_part .regs (by simpa [Part.bits] using quiet)) l

theorem RegsSet.ite {l : List Nat} {s t u : State} {c : Prop} [Decidable c] (h : RegsSet l s t) (k : RegsSet l s u) :
    RegsSet l s (if c then t else u) := RegsIn.ite h k

theorem Touch.regsIn {w : Nat} {s t : State} (h : Touch w s t) (P : Nat → Prop)
    (quiet : w.testBit 1 = false := by decide) : RegsIn P s t :=
  .of_regs (h.same_part .regs (by simpa [Part.bits] using quiet)) P

/-- A record with ACKED = 1 and ACTIVE = 0 closes (R455). -/
def FaultRec.settled (r : FaultRec) : FaultRec := if r.acked && !r.active then { r with isOpen := false } else r

def State.putFaultRec (s : State) (x : Nat) (r : FaultRec) : State :=
  { s with faults := { s.faults with recs := s.faults.recs.set (fun _ => .reset) x r } }

theorem State.setFaultRec_eq (s : State) (x : Nat) (r : FaultRec) : s.setFaultRec x r =
    (if r.settled.unrecovered && !(s.faultRec x).unrecovered then (s.putFaultRec x r.settled).flag R.FC_STATUS 1
      else s.putFaultRec x r.settled).faultN := rfl

theorem State.setFaultRec_regsSet (s : State) (x : Nat) (r : FaultRec) :
    RegsSet [R.FC_STATUS] s (s.setFaultRec x r) := by
  have put : RegsSet [R.FC_STATUS] s (s.putFaultRec x r.settled) := .of_regs rfl _
  rw [State.setFaultRec_eq]
  exact (RegsSet.ite (put.trans (State.flag_regsSet _ _ _)) put).trans (State.faultN_touch.regsSet _)

theorem State.conditionEnded_regsSet (s : State) (x : Nat) : RegsSet [R.FC_STATUS] s (s.conditionEnded x) :=
  .ite (s.setFaultRec_regsSet x _) (.refl _ s)

/-! ### ISLAND_SYNC and SYNC_LOST -/

/-- ISLAND_SYNC before what the island still holds is looked at: the bit is set and the island has loaded its count. -/
def State.countLoaded (s : State) (n : Nat) : State :=
  let u := (s.setRb R.TB_ISLAND_SYNC n true).setRf (R.IC_STATE n) 31 30 3
  (u.setClk { s.clk with syncAt := s.clk.syncAt.set (fun _ => 0#64) n s.clk.beat }).changeD s.clk.dOfs
    (s.clk.dIsland.set (fun _ => s.clk.dOfs) n s.clk.dOfs)

/-- The entries of executing epochs that the island holds swap two beats later (R68). -/
def State.heldScheduled (s : State) (n : Nat) : State :=
  if s.heldDue n then
    { s with ep := { s.ep with unsync := (s.ep.unsync.filter (fun u => u.1 != n)) ++ [(n, s.clk.beat + 2)] } }
  else s

theorem State.islandSync_eq (s : State) (n : Nat) : s.islandSync n =
    (((s.countLoaded n).heldScheduled n).setRb R.PW_STATE n false).conditionEnded (0xC0 + n) := rfl

theorem State.islandSync_clk (s : State) (n : Nat) : (s.islandSync n).clk = (s.countLoaded n).clk := by
  rw [State.islandSync_eq]
  refine (State.conditionEnded_touch.same_part .clk).trans ?_
  rw [State.setRb_clk, State.heldScheduled]
  split <;> rfl

theorem State.islandSync_regsSet (s : State) (n : Nat) :
    RegsSet [R.PW_STATE, R.FC_STATUS] (s.countLoaded n) (s.islandSync n) := by
  rw [State.islandSync_eq]
  have held : RegsSet [R.PW_STATE, R.FC_STATUS] (s.countLoaded n) ((s.countLoaded n).heldScheduled n) :=
    .ite (.of_regs rfl _) (.refl _ _)
  exact (held.trans ((State.setReg_regsSet _ _ _).mono (by simp))).trans ((State.conditionEnded_regsSet _ _).mono (by simp))

theorem State.countLoaded_regs (s : State) (n : Nat) : (s.countLoaded n).regs =
    ((s.setRb R.TB_ISLAND_SYNC n true).setRf (R.IC_STATE n) 31 30 3).regs := State.changeD_regs _ _ _

theorem State.reg_congr {s t : State} (h : t.regs = s.regs) (a : Nat) : t.reg a = s.reg a := congrArg (Store.get regReset a) h

theorem IC_STATE_ne (n a : Nat) (h : 0x50000000 ≤ a) (hn : n < 16) : R.IC_STATE n ≠ a := by
  unfold R.IC_STATE
  omega

section
variable (s : State) {n : Nat} (hn : n < 16)
include hn

theorem State.islandSync_state : (s.islandSync n).rf (R.IC_STATE n) 31 30 = 3 := by
  have loaded : (s.countLoaded n).reg (R.IC_STATE n) = _ := State.reg_congr (s.countLoaded_regs n) _
  have apart : R.IC_STATE n ∉ [R.PW_STATE, R.FC_STATUS] := by
    simp [IC_STATE_ne n _ (show 0x50000000 ≤ R.PW_STATE by decide) hn,
      IC_STATE_ne n _ (show 0x50000000 ≤ R.FC_STATUS by decide) hn]
  rw [State.rf, (s.islandSync_regsSet n).regsBut _ apart, loaded]
  exact State.rf_setRf_self _ (by decide) (by decide)

theorem State.islandSync_synced (k : Nat) (hk : k < 32) :
    (s.islandSync n).synced k = if k = n then true else s.synced k := by
  have loaded : (s.countLoaded n).reg R.TB_ISLAND_SYNC = _ := State.reg_congr (s.countLoaded_regs n) _
  rw [State.synced, State.rb, (s.islandSync_regsSet n).regsBut _ (by decide), loaded, State.setRf, State.reg_setReg,
    if_neg (IC_STATE_ne n _ (by decide) hn).symm, State.setRb, State.reg_setReg, if_pos rfl, bit_setBit _ _ _ _ hk]
  rfl

end

theorem State.countLoaded_dOf (s : State) (n k : Nat) :
    (s.countLoaded n).dOf k = if k = n then s.clk.dOfs else s.dOf k := by
  unfold State.dOf State.countLoaded
  rw [State.changeD_dIsland, State.changeD_dOfs]
  exact Store.get_set _ _

theorem State.dOf_congr {s t : State} (h : t.clk = s.clk) (k : Nat) : t.dOf k = s.dOf k := by
  unfold State.dOf
  rw [h]

theorem islandSync_effect (s : State) (n : Fin 16) :
    (s.islandSync n.val).synced n.val = true
      ∧ (s.islandSync n.val).dOf n.val = s.clk.dOfs
      ∧ (∀ k : Fin 16, k ≠ n → (s.islandSync n.val).dOf k.val = s.dOf k.val
          ∧ (s.islandSync n.val).synced k.val = s.synced k.val)
      ∧ (s.islandSync n.val).clk.dOfs = s.clk.dOfs
      ∧ (s.islandSync n.val).clk.syncAt.get (fun _ => 0#64) n.val = s.clk.beat := by
  have clk := s.islandSync_clk n.val
  have offsets : ∀ k, (s.islandSync n.val).dOf k = _ := fun k =>
    (State.dOf_congr clk k).trans (s.countLoaded_dOf n.val k)
  have bits := s.islandSync_synced n.isLt
  refine ⟨(bits n.val (by omega)).trans (if_pos rfl), (offsets _).trans (if_pos rfl), fun k ne => ?_, ?_, ?_⟩
  · have ne' : k.val ≠ n.val := fun h => ne (Fin.ext h)
    exact ⟨(offsets _).trans (if_neg ne'), (bits k.val (by omega)).trans (if_neg ne')⟩
  · rw [clk]
    exact State.changeD_dOfs _ _ _
  · rw [clk, State.countLoaded, State.changeD_syncAt]
    exact (Store.get_set _ _).trans (if_pos rfl)

theorem State.unsync_regsSet (s : State) (n : Nat) :
    RegsSet [R.TB_ISLAND_SYNC, R.IC_STATE n] s (s.unsync n) :=
  (((s.setReg_regsSet _ _).mono (by simp)).trans ((State.setReg_regsSet _ _ _).mono (by simp))).trans (.of_regs rfl _)

theorem State.unsync_flag_regsSet (s : State) (n : Nat) :
    RegsSet [R.TB_ISLAND_SYNC, R.IC_STATE n, R.TB_STATUS] s ((s.unsync n).flag R.TB_STATUS 7) :=
  ((s.unsync_regsSet n).mono (by simp)).trans ((State.flag_regsSet _ _ _).mono (by simp))

theorem State.syncLost_regsBut (s : State) (n : Nat) :
    RegsBut [R.TB_ISLAND_SYNC, R.IC_STATE n, R.TB_STATUS] s (s.syncLost n) :=
  ((s.unsync_flag_regsSet n).trans (RegsSet.trans (State.fireCentral_touch.regsSet _) (State.report_touch.regsSet _))).regsBut

theorem Fires.enqueue {g : Nat} {s t : State} (h : Fires g s t) (l : List Instr) : Fires g s (t.enqueue l) :=
  ⟨h.1, fun low p hp ok => List.mem_append_left _ (h.2 low p hp ok)⟩

theorem pennantReg_IC_STATE (n : Nat) : pennantReg (R.IC_STATE n) = false := by
  unfold pennantReg R.IC_STATE
  simp
  omega

theorem State.syncLost_fires (s : State) {n : Nat} (hn : n < 16) : Fires (4096 + 323) s (s.syncLost n) := by
  refine ((s.unsync_flag_regsSet n).fires (g := 4096 + 323) ?_ ?_ ?_ ?_).enqueue _
  · simp [pennantReg_IC_STATE]
    decide
  · have : sourceOwner (4096 + 323) = some R.TB_OWNER := by decide
    simp only [this, Option.some.injEq]
    rintro a rfl
    simp [(IC_STATE_ne n _ (show 0x50000000 ≤ R.TB_OWNER by decide) hn).symm]
    decide
  · rw [State.flag_fab]
    rfl
  · rw [State.flag_pulses]
    rfl

theorem State.syncLost_reg (s : State) (n a : Nat) : (s.syncLost n).reg a = ((s.unsync n).flag R.TB_STATUS 7).reg a :=
  (RegsSet.trans (State.fireCentral_touch.regsSet []) (State.report_touch.regsSet [])).regsBut a (by simp)

theorem State.syncLost_effect (s : State) (n : Fin 16) :
    (s.syncLost n.val).synced n.val = false
      ∧ (∀ k : Fin 16, k ≠ n → (s.syncLost n.val).synced k.val = s.synced k.val)
      ∧ (s.syncLost n.val).rb (R.IC_STATE n.val) 30 = false
      ∧ (s.syncLost n.val).rb R.TB_STATUS 7 = true := by
  have ne : ∀ a, 0x50000000 ≤ a → R.IC_STATE n.val ≠ a := fun a h => IC_STATE_ne _ a h n.isLt
  have sync : (s.syncLost n.val).reg R.TB_ISLAND_SYNC = setBit (s.reg R.TB_ISLAND_SYNC) n.val false := by
    rw [State.syncLost_reg, State.flag_regsBut _ _ _ _ (by decide)]
    exact (State.setReg_regsBut _ _ _ _ (by simpa using (ne _ (by decide)).symm)).trans
      ((State.reg_setReg _ _ _ _).trans (if_pos rfl))
  have bits : ∀ k : Fin 16, (s.syncLost n.val).synced k.val = if k.val = n.val then false else s.synced k.val := by
    intro k
    rw [State.synced, State.rb, sync, bit_setBit _ _ _ _ (by omega)]
    rfl
  refine ⟨(bits n).trans (if_pos rfl), fun k h => (bits k).trans (if_neg fun e => h (Fin.ext e)), ?_, ?_⟩
  · rw [State.rb, State.syncLost_reg, State.flag_regsBut _ _ _ _ (by simpa using ne _ (by decide))]
    exact (congrArg (bit · 30) ((State.reg_setReg _ _ _ _).trans (if_pos rfl))).trans (bit_setBit_self _ _ _ (by decide))
  · rw [State.rb, State.syncLost_reg]
    exact State.rb_flag_self _ _ _ (by decide)

/-- Settles O14, clause by clause: a step is scheduled or STEP_BUSY sets; a due step moves the synchronised islands; an
island that synchronises loads the present D; one that loses its count says so. -/
theorem deviceTimeStepCommands : Obligations.DeviceTimeStepCommands := by
  refine ⟨fun m v s r h own => ?_, fun n x s pending come => ?_, fun n s running unsynced watch backup => ?_,
    fun n s synced => ?_⟩
  · have run := exec_tbStepHiWrite h own v
    have stored := s.stepWrite_reg (s.domainOf m) v
    have noted := s.stepWrite_reqBeat (s.domainOf m) v
    have fresh := fun none => State.stepWrite_schedules (s := s) none (s.domainOf m) v
    have busy := fun pending => State.stepWrite_busy (s := s) pending (s.domainOf m) v
    have regs := s.stepWrite_regsBut (s.domainOf m) v
    have rest : SameBut [.regs, .scCount, .clk, .reply] s (s.stepWrite (s.domainOf m) v) := State.stepWrite_touch.sameBut
    generalize s.stepWrite (s.domainOf m) v = u at *
    exact ⟨u.answer m .done, run, stored, noted, fresh, busy, regs.answer m _, rest.answer (by decide) m _, rfl⟩
  · have rest : SameBut [.clk] s (s.stepNow x) := State.stepNow_touch.sameBut
    exact ⟨_, exec_deviceTimeStep pending come, State.changeD_step _ _ _, s.stepNow_dOfs x, State.changeD_beat _ _ _,
      fun k => s.stepNow_dOf x k.isLt, rest.regsBut (by decide) _, rest⟩
  · obtain ⟨synced, own, others, central, noted⟩ := islandSync_effect s n
    exact ⟨_, exec_islandSync running unsynced watch backup, synced, own, others, central, noted,
      s.islandSync_state n.isLt,
      State.islandSync_touch.same_part .mem⟩
  · obtain ⟨lost, others, state, flag⟩ := s.syncLost_effect n
    exact ⟨_, exec_syncLost synced, lost, others, state, flag, List.getLast?_concat, s.syncLost_fires n.isLt,
      s.syncLost_regsBut n.val, State.syncLost_touch.sameBut⟩

end Sys2Proof.Machine
end

section
/-!
Global starts (R41, R43).
-/
set_option Elab.async false
namespace Sys2Proof.Machine
open Sys2Proof

/-! ### Global starts -/

theorem serialGe_self (a : BitVec 64) : serialGe a a = true := by simp [serialGe]

/-- A start asked for: its beat, and whether it is late, which R41 rejects or runs two beats later. -/
def State.startAsked (s : State) (at_ : Option (BitVec 64)) : StartReq :=
  let n := at_.getD (s.clk.beat + 2)
  ⟨if s.isLate n && s.rb R.TB_POLICY 0 then s.clk.beat + 2 else n, s.reg R.TB_START_MASK0, s.reg R.TB_START_MASK1,
    s.isLate n && !s.rb R.TB_POLICY 0⟩

/-- The status of a start that waits: PENDING set, DONE clear. -/
def State.startNoted (s : State) (d : Nat) : State :=
  (s.request d).setReg R.TB_START_STATE (setFld (s.reg R.TB_START_STATE) 31 30 2)

/-- LATE or LATE_EXECUTED of a late start. -/
def State.startFlagged (s : State) (late : Bool) : State :=
  if late then s.flag R.TB_STATUS (if s.rb R.TB_POLICY 0 then 2 else 1) else s

theorem State.startFlagged_clk (s : State) (late : Bool) : (s.startFlagged late).clk = s.clk := by
  unfold State.startFlagged
  split
  · exact State.flag_clk _ _ _
  · rfl

theorem State.startFlagged_regsSet (s : State) (late : Bool) : RegsSet [R.TB_STATUS] s (s.startFlagged late) :=
  .ite (State.flag_regsSet _ _ _) (.refl _ s)

theorem State.startNoted_regsSet (s : State) (d : Nat) : RegsSet [R.TB_START_STATE] s (s.startNoted d) :=
  RegsSet.trans (.of_regs rfl _) (State.setReg_regsSet _ _ _)

/-- A state with a start waiting. -/
def State.startTaken (s : State) (d : Nat) (at_ : Option (BitVec 64)) : State :=
  (s.startNoted d).startFlagged (s.isLate (at_.getD (s.clk.beat + 2)))

theorem State.startTaken_regsSet (s : State) (d : Nat) (at_ : Option (BitVec 64)) :
    RegsSet [R.TB_START_STATE, R.TB_STATUS] s (s.startTaken d at_) :=
  ((s.startNoted_regsSet d).mono (by decide)).trans ((State.startFlagged_regsSet _ _).mono (by decide))

theorem State.startArm_of_none {s : State} (none : s.clk.start = none) (d : Nat) (at_ : Option (BitVec 64)) :
    s.startArm d at_ = (s.startTaken d at_).setClk { (s.request d).clk with start := some (s.startAsked at_) } := by
  have free : (s.request d).clk.start = .none := none
  have clk : (s.startTaken d at_).clk = (s.request d).clk := State.startFlagged_clk _ _
  have keeps := (s.startTaken_regsSet d at_).regsBut
  have policy : (s.startNoted d).rb R.TB_POLICY 0 = s.rb R.TB_POLICY 0 :=
    congrArg (bit · 0) ((s.startNoted_regsSet d).regsBut _ (by decide))
  have unfolded : s.startArm d at_ = (s.startTaken d at_).setClk { (s.startTaken d at_).clk with
        start := some (.mk (if s.isLate (at_.getD (s.clk.beat + 2)) && (s.startNoted d).rb R.TB_POLICY 0 then
            (s.startTaken d at_).clk.beat + 2 else at_.getD (s.clk.beat + 2))
          ((s.startTaken d at_).reg R.TB_START_MASK0) ((s.startTaken d at_).reg R.TB_START_MASK1)
          (s.isLate (at_.getD (s.clk.beat + 2)) && !(s.startNoted d).rb R.TB_POLICY 0)) } := by
    simp only [State.startArm, free]
    rfl
  rw [unfolded, clk, policy, keeps R.TB_START_MASK0 (by decide), keeps R.TB_START_MASK1 (by decide)]
  rfl

theorem State.startArm_of_some {s : State} {q : StartReq} (pending : s.clk.start = some q) (d : Nat)
    (at_ : Option (BitVec 64)) : s.startArm d at_ = (s.request d).flag R.TB_STATUS 3 := by
  have busy : (s.request d).clk.start = some q := pending
  simp only [State.startArm, busy]

/-- A start in two beats is not late. -/
theorem State.isLate_soon (s : State) : s.isLate (s.clk.beat + 2) = false := by
  simp [State.isLate, serialGe_self]

theorem State.startTaken_of_timely {s : State} {at_ : Option (BitVec 64)} (timely : s.isLate (at_.getD (s.clk.beat + 2)) = false)
    (d : Nat) : s.startTaken d at_ = s.startNoted d := by
  rw [State.startTaken, timely]
  rfl

theorem State.startTaken_state (s : State) (d : Nat) (at_ : Option (BitVec 64)) :
    (s.startTaken d at_).rf R.TB_START_STATE 31 30 = 2 := by
  rw [State.rf, State.startTaken, (State.startFlagged_regsSet _ _).regsBut _ (by decide)]
  exact State.rf_setRf_self (s.request d) (by decide) (by decide)

theorem State.startTaken_late {s : State} {at_ : Option (BitVec 64)} (late : s.isLate (at_.getD (s.clk.beat + 2)) = true)
    (d : Nat) : (s.startTaken d at_).rb R.TB_STATUS (if s.rb R.TB_POLICY 0 then 2 else 1) = true := by
  have policy : (s.startNoted d).rb R.TB_POLICY 0 = s.rb R.TB_POLICY 0 :=
    congrArg (bit · 0) ((s.startNoted_regsSet d).regsBut _ (by decide))
  rw [State.startTaken, State.startFlagged, if_pos late, policy]
  split <;> exact State.rb_flag_self _ _ _ (by decide)

theorem State.startCancel_of_none {s : State} (none : s.clk.start = none) (d : Nat) : s.startCancel d = s.request d := by
  have free : (s.request d).clk.start = .none := none
  simp only [State.startCancel, free]

theorem State.startCancel_of_some {s : State} {q : StartReq} (pending : s.clk.start = some q) (d : Nat) :
    s.startCancel d = if q.rejected || serialGe q.beat (s.clk.beat + 2) then
        ((s.request d).setClk { (s.request d).clk with start := none }).setRb R.TB_START_STATE 31 false
      else (s.request d).flag R.TB_STATUS 4 := by
  have busy : (s.request d).clk.start = some q := pending
  simp only [State.startCancel, busy]
  rfl

section
variable {s : State} {m : Master} {r : RegRow}

theorem exec_tbStartGo (h : s.Writes m .tb r R.TB_START_GO) (v : Word) :
    exec (.tbStartGo m v) s = .next ((s.startArm (s.domainOf m) none).answer m .done) :=
  State.writeCmd_tb h rfl (by decide) v

theorem exec_tbStartAtHiWrite (h : s.Writes m .tb r R.TB_START_AT_HI) (v : Word) :
    exec (.tbStartAtHiWrite m v) s = .next ((s.startAtWrite (s.domainOf m) v).answer m .done) :=
  State.writeCmd_tb h rfl (by decide) v

theorem exec_tbStartCancel (h : s.Writes m .tb r R.TB_START_CANCEL) (v : Word) :
    exec (.tbStartCancel m v) s = .next ((s.startCancel (s.domainOf m)).answer m .done) :=
  State.writeCmd_tb h rfl (by decide) v

end

/-- TB_START_GO asks for a start in two beats. -/
theorem tbStartGo_of_none {s : State} {m : Master} {r : RegRow} (h : s.Writes m .tb r R.TB_START_GO)
    (none : s.clk.start = none) (v : Word) :
    ∃ t, exec (.tbStartGo m v) s = .next t
      ∧ t.clk.start = some ⟨s.clk.beat + 2, s.reg R.TB_START_MASK0, s.reg R.TB_START_MASK1, false⟩
      ∧ t.rf R.TB_START_STATE 31 30 = 2
      ∧ t.clk.reqBeat.get (fun _ => 0#64) (s.domainOf m) = s.clk.beat
      ∧ RegsBut [R.TB_START_STATE] s t
      ∧ SameBut [.regs, .clk, .reply] s t
      ∧ t.reply = some ⟨m, .done⟩ := by
  have timely : s.isLate (Option.getD .none (s.clk.beat + 2)) = false := s.isLate_soon
  have asked : s.startAsked .none = ⟨s.clk.beat + 2, s.reg R.TB_START_MASK0, s.reg R.TB_START_MASK1, false⟩ := by
    simp only [State.startAsked, Option.getD_none, s.isLate_soon]
    rfl
  have state : (s.startNoted (s.domainOf m)).rf R.TB_START_STATE 31 30 = 2 :=
    State.rf_setRf_self (s.request (s.domainOf m)) (by decide) (by decide)
  have noted : (s.startNoted (s.domainOf m)).clk = (s.request (s.domainOf m)).clk := rfl
  have regs := (s.startNoted_regsSet (s.domainOf m)).regsBut
  have parts : SameBut [.regs, .clk, .reply] s (s.startNoted (s.domainOf m)) :=
    (State.request_touch.sameBut).trans ((State.setReg_sameBut _ _ _).mono (by decide))
  have run := exec_tbStartGo h v
  rw [State.startArm_of_none none, State.startTaken_of_timely timely, asked] at run
  have request := s.request_reqBeat (s.domainOf m)
  rw [← noted] at run request
  generalize s.startNoted (s.domainOf m) = u at *
  have after : SameBut [.clk] u (u.setClk { u.clk with
      start := some ⟨s.clk.beat + 2, s.reg R.TB_START_MASK0, s.reg R.TB_START_MASK1, false⟩ }) :=
    (State.setClk_touch_rfl (by exact ⟨rfl, rfl, rfl, rfl, rfl, rfl, rfl⟩)).sameBut
  exact ⟨_, run, rfl, state, request, (regs.trans (after.regsBut (by decide) _)).answer m .done, (parts.andThen after).answer (by decide) m .done, rfl⟩

/-- A request with a start pending, GO or a beat. -/
theorem State.startArm_busy {s : State} (pending : s.clk.start ≠ none) (d : Nat) (at_ : Option (BitVec 64)) :
    (s.startArm d at_).clk.start = s.clk.start ∧ (s.startArm d at_).rb R.TB_STATUS 3 = true
      ∧ RegsBut [R.TB_STATUS] s (s.startArm d at_) := by
  obtain ⟨q, hq⟩ := Option.ne_none_iff_exists'.mp pending
  rw [State.startArm_of_some hq]
  exact ⟨by rw [State.flag_clk]; rfl, State.rb_flag_self _ _ _ (by decide),
    (RegsBut.refl _ _).trans (State.flag_regsBut _ _ _)⟩

theorem State.startAtWrite_eq (s : State) (d : Nat) (v : Word) : s.startAtWrite d v =
    (s.setReg R.TB_START_AT_HI v).startArm d (some (BitVec.ofNat 64 (pair64 v (s.reg R.TB_START_AT_LO)))) := by
  have low : (s.setReg R.TB_START_AT_HI v).reg R.TB_START_AT_LO = s.reg R.TB_START_AT_LO :=
    State.setReg_regsBut _ _ _ _ (by decide)
  rw [State.startAtWrite, low]

/-- A start asked for at a beat, with none pending. -/
theorem State.startAtWrite_armed {s : State} (none : s.clk.start = none) (d : Nat) (v : Word) {n : BitVec 64}
    (named : n = BitVec.ofNat 64 (pair64 v (s.reg R.TB_START_AT_LO))) :
    (s.startAtWrite d v).reg R.TB_START_AT_HI = v
      ∧ (s.startAtWrite d v).clk.start = some (s.startAsked (some n))
      ∧ (s.isLate n = true → (s.startAtWrite d v).rb R.TB_STATUS (if s.rb R.TB_POLICY 0 then 2 else 1) = true)
      ∧ (s.startAtWrite d v).rf R.TB_START_STATE 31 30 = 2
      ∧ RegsBut [R.TB_START_AT_HI, R.TB_START_STATE, R.TB_STATUS] s (s.startAtWrite d v) := by
  have keeps := s.setReg_regsBut R.TB_START_AT_HI v
  have policy : (s.setReg R.TB_START_AT_HI v).rb R.TB_POLICY 0 = s.rb R.TB_POLICY 0 :=
    congrArg (bit · 0) (keeps _ (by decide))
  have asked : (s.setReg R.TB_START_AT_HI v).startAsked (some n) = s.startAsked (some n) := by
    unfold State.startAsked
    rw [policy, keeps R.TB_START_MASK0 (by decide), keeps R.TB_START_MASK1 (by decide)]
    rfl
  have regs := (s.setReg R.TB_START_AT_HI v).startTaken_regsSet d (some n)
  rw [State.startAtWrite_eq, ← named, State.startArm_of_none (s := s.setReg R.TB_START_AT_HI v) none, asked]
  refine ⟨(regs.regsBut _ (by decide)).trans ((State.reg_setReg _ _ _ _).trans (if_pos rfl)), rfl, fun late => ?_,
    State.startTaken_state _ _ _, ?_⟩
  · rw [← policy]
    exact State.startTaken_late (s := s.setReg R.TB_START_AT_HI v) (at_ := some n) late d
  · exact (keeps.mono (by decide)).trans (regs.regsBut.mono (by decide))

theorem State.startAsked_of_timely {s : State} {n : BitVec 64} (timely : s.isLate n = false) :
    s.startAsked (some n) = ⟨n, s.reg R.TB_START_MASK0, s.reg R.TB_START_MASK1, false⟩ := by
  simp [State.startAsked, timely]

theorem State.startAsked_of_late {s : State} {n : BitVec 64} (late : s.isLate n = true) :
    s.startAsked (some n) = ⟨if s.rb R.TB_POLICY 0 then s.clk.beat + 2 else n, s.reg R.TB_START_MASK0,
      s.reg R.TB_START_MASK1, !s.rb R.TB_POLICY 0⟩ := by
  simp [State.startAsked, late]

/-- Settles O15, clause by clause: a start is armed, rejected or run late by `startAsked`, START_BUSY guards one that is
pending, and a cancel withdraws it in time. -/
theorem globalStartRequests : Obligations.GlobalStartRequests := by
  have parts : ∀ (s : State) (d : Nat) (at_ : Option (BitVec 64)),
      SameBut [.regs, .scCount, .clk, .reply] s (s.startArm d at_) := fun s d at_ => State.startArm_touch.sameBut
  have parts' : ∀ (s : State) (d : Nat) (v : Word), SameBut [.regs, .scCount, .clk, .reply] s (s.startAtWrite d v) :=
    fun s d v => State.startAtWrite_touch.sameBut
  refine ⟨fun m v s r h none => tbStartGo_of_none h none v, fun m v s r h pending => ?_,
    fun m v n s r h none named => ?_, fun m v s r h pending => ?_, fun m v q s r h pending ahead => ?_,
    fun m v q s r h pending armed near => ?_, fun m v s r h none => ?_⟩
  · have run := exec_tbStartGo h v
    obtain ⟨start, busy, regs⟩ := State.startArm_busy pending (s.domainOf m) none
    have rest := parts s (s.domainOf m) none
    generalize s.startArm (s.domainOf m) none = u at *
    exact ⟨u.answer m .done, run, start, busy, regs.answer m .done, rest.answer (by decide) m .done, rfl⟩
  · have run := exec_tbStartAtHiWrite h v
    obtain ⟨stored, start, flagged, state, regs⟩ := State.startAtWrite_armed none (s.domainOf m) v named
    have rest := parts' s (s.domainOf m) v
    generalize s.startAtWrite (s.domainOf m) v = u at *
    refine ⟨u.answer m .done, run, stored, fun timely => ?_, fun late reject => ?_, fun late asap => ?_, state,
      regs.answer m .done, rest.answer (by decide) m .done, rfl⟩
    · exact start.trans (congrArg some (State.startAsked_of_timely timely))
    · exact ⟨start.trans (by rw [State.startAsked_of_late late, reject]; rfl), by
        rw [reject] at flagged
        exact flagged late⟩
    · exact ⟨start.trans (by rw [State.startAsked_of_late late, asap]; rfl), by
        rw [asap] at flagged
        exact flagged late⟩
  · have run := exec_tbStartAtHiWrite h v
    obtain ⟨start, busy, regs⟩ := State.startArm_busy (s := s.setReg R.TB_START_AT_HI v) pending (s.domainOf m)
      (some (BitVec.ofNat 64 (pair64 v (s.reg R.TB_START_AT_LO))))
    have rest := parts' s (s.domainOf m) v
    rw [← State.startAtWrite_eq] at start busy regs
    have stored : (s.startAtWrite (s.domainOf m) v).reg R.TB_START_AT_HI = v :=
      (regs _ (by decide)).trans ((State.reg_setReg _ _ _ _).trans (if_pos rfl))
    have keeps : RegsBut [R.TB_START_AT_HI, R.TB_STATUS] s (s.startAtWrite (s.domainOf m) v) :=
      ((s.setReg_regsBut R.TB_START_AT_HI v).mono (by decide)).trans (regs.mono (by decide))
    generalize s.startAtWrite (s.domainOf m) v = u at *
    exact ⟨u.answer m .done, run, stored, start, busy, keeps.answer m .done, rest.answer (by decide) m .done, rfl⟩
  · have run := exec_tbStartCancel h v
    have taken : (q.rejected || serialGe q.beat (s.clk.beat + 2)) = true := by simpa using ahead
    rw [State.startCancel_of_some pending, if_pos taken] at run
    refine ⟨_, run, rfl, ?_, ?_, SameBut.answer ?_ (by decide) m _, rfl⟩
    · exact (congrArg (bit · 31) ((State.reg_setReg _ _ _ _).trans (if_pos rfl))).trans (bit_setBit_self _ _ _ (by decide))
    · exact (State.setReg_regsBut (s.request (s.domainOf m)) R.TB_START_STATE _).answer m .done
    · exact (State.request_touch.sameBut).trans ((State.setClk_touch_rfl (by exact ⟨rfl, rfl, rfl, rfl, rfl, rfl, rfl⟩)).sameBut.trans
        ((State.setReg_sameBut _ _ _).mono (by decide)))
  · have run := exec_tbStartCancel h v
    have late : ¬ (q.rejected || serialGe q.beat (s.clk.beat + 2)) = true := by
      rw [armed, near]
      decide
    rw [State.startCancel_of_some pending, if_neg late] at run
    refine ⟨_, run, ?_, State.rb_flag_self _ _ _ (by decide), ?_, SameBut.answer ?_ (by decide) m _, rfl⟩
    · rw [State.answer_clk, State.flag_clk]
      rfl
    · exact (State.flag_regsBut (s.request (s.domainOf m)) R.TB_STATUS 4).answer m .done
    · exact (State.request_touch.sameBut).trans ((State.flag_sameBut _ _ _).mono (by decide))
  · have run := exec_tbStartCancel h v
    rw [State.startCancel_of_none none] at run
    exact ⟨_, run, none, fun _ _ => rfl, (State.request_touch.sameBut).answer (by decide) m .done, rfl⟩

end Sys2Proof.Machine
end

section
/-!
Words under a mask, and alarms that a load of the calendar leaves behind (R47, R52).
-/
set_option Elab.async false
namespace Sys2Proof.Machine
open Sys2Proof

/-! ### Words under a mask -/

theorem bit_and (x y : Word) (i : Nat) : bit (x &&& y) i = (bit x i && bit y i) := by simp [bit]

theorem fld_and_of_ones {m : Word} {hi lo : Nat} (ones : ∀ i, lo ≤ i → i ≤ hi → m.getLsbD i = true) (v : Word) :
    fld (v &&& m) hi lo = fld v hi lo := by
  apply Nat.eq_of_testBit_eq
  intro j
  rw [testBit_fld, testBit_fld, BitVec.getLsbD_and]
  by_cases hj : j < hi + 1 - lo
  · rw [ones (lo + j) (by omega) (by omega), Bool.and_true]
  · simp [hj]

theorem alarmWord_sub (v : Word) : fld (v &&& 0x70007FFF#32) 14 0 = fld v 14 0 :=
  fld_and_of_ones (fun i _ h => by
    have : ∀ i : Fin 15, (0x70007FFF#32).getLsbD i.val = true := by decide
    exact this ⟨i, by omega⟩) v

theorem alarmWord_armed (v : Word) : bit (v &&& 0x70007FFF#32) 31 = false := by
  rw [bit_and, show bit 0x70007FFF#32 31 = false by decide, Bool.and_false]

theorem State.rb_setRb_self (s : State) {a i : Nat} (h : i < 32) (b : Bool) : (s.setRb a i b).rb a i = b := by
  rw [State.setRb, State.rb_setReg, if_pos rfl]
  exact bit_setBit_self _ _ _ h

theorem State.setRb_regsSet (s : State) (a i : Nat) (b : Bool) : RegsSet [a] s (s.setRb a i b) := s.setReg_regsSet a _

/-! ### Addresses of the alarms -/

theorem CAL_ALARMa_CTRL_ne_SEC (a b : Nat) : R.CAL_ALARMa_CTRL a ≠ R.CAL_ALARMa_SEC b := by
  unfold R.CAL_ALARMa_CTRL R.CAL_ALARMa_SEC
  omega

theorem CAL_ALARMa_INTERVAL_ne_SEC (a b : Nat) : R.CAL_ALARMa_INTERVAL a ≠ R.CAL_ALARMa_SEC b := by
  unfold R.CAL_ALARMa_INTERVAL R.CAL_ALARMa_SEC
  omega

theorem CAL_ALARMa_SEC_inj {a b : Nat} : R.CAL_ALARMa_SEC a = R.CAL_ALARMa_SEC b ↔ a = b := by
  unfold R.CAL_ALARMa_SEC
  omega

theorem CAL_ALARMa_SEC_ne_STATUS (a : Nat) : R.CAL_ALARMa_SEC a ≠ R.CAL_STATUS := by
  unfold R.CAL_ALARMa_SEC R.CAL_STATUS
  omega

theorem CAL_ALARMa_CTRL_ne_STATUS (a : Nat) : R.CAL_ALARMa_CTRL a ≠ R.CAL_STATUS := by
  unfold R.CAL_ALARMa_CTRL R.CAL_STATUS
  omega

theorem CAL_ALARMa_INTERVAL_ne_STATUS (a : Nat) : R.CAL_ALARMa_INTERVAL a ≠ R.CAL_STATUS := by
  unfold R.CAL_ALARMa_INTERVAL R.CAL_STATUS
  omega

/-! ### The registers of the calendar that a domain writes -/

theorem find_alarm (a : Fin 4) :
    ([0, 1, 2, 3] : List (Fin 4)).find? (fun i => R.CAL_ALARMa_CTRL a.val == R.CAL_ALARMa_CTRL i.val) = some a := by
  fin_cases a <;> decide

theorem State.tbWrite_alarm (s : State) (d : Nat) (r : RegRow) (a : Fin 4) (v : Word) :
    s.tbWrite d r (R.CAL_ALARMa_CTRL a.val) v = s.alarmArm a v := by
  have apart : ∀ b, b < 0x57000444 → R.CAL_ALARMa_CTRL a.val ≠ b := fun b h => by
    unfold R.CAL_ALARMa_CTRL
    omega
  simp only [State.tbWrite, find_alarm]
  rw [if_neg (apart _ (by decide)), if_neg (apart _ (by decide)), if_neg (apart _ (by decide)), if_neg (apart _ (by decide)),
    if_neg (apart _ (by decide)), if_neg (apart _ (by decide)), if_neg (apart _ (by decide)), if_neg (apart _ (by decide))]

section
variable {s : State} {m : Master} {r : RegRow}

theorem exec_calSetHiWrite (h : s.Writes m .tb r R.CAL_SET_HI) (v : Word) :
    exec (.calSetHiWrite m v) s = .next ((s.calSetWrite v).answer m .done) :=
  State.writeCmd_tb h rfl (by decide) v

theorem exec_alarmArm {a : Fin 4} (h : s.Writes m .tb r (R.CAL_ALARMa_CTRL a.val)) (v : Word) :
    exec (.alarmArm m a v) s = .next ((s.alarmArm a v).answer m .done) := by
  rw [← s.tbWrite_alarm (s.domainOf m) r a v]
  refine State.writeCmd_tb h ?_ ?_ v
  · unfold R.CAL_ALARMa_CTRL
    omega
  · have calendar : ¬ R.CAL_ALARMa_CTRL a.val < R.CAL_OWNER := by unfold R.CAL_ALARMa_CTRL R.CAL_OWNER; omega
    simp only [ownerReg, if_neg calendar]
    unfold R.CAL_ALARMa_CTRL R.CAL_OWNER
    omega

end

/-! ### Alarms that a load leaves behind -/

/-- Alarm `a` repeats, was not armed late, and lies behind the calendar (R52). -/
def State.AlarmBehind (s : State) (a : Fin 4) : Prop :=
  s.rb (R.CAL_ALARMa_CTRL a.val) 31 = true ∧ s.reg (R.CAL_ALARMa_INTERVAL a.val) ≠ 0#32
    ∧ s.clk.lateAlarms.contains a = false ∧ serialAfter 47 s.calNow (s.alarmValue a.val) = true

/-- The second to which it advances. -/
def State.alarmNext (s : State) (a : Fin 4) : Word :=
  w32 ((s.reg (R.CAL_ALARMa_SEC a.val)).toNat
    + alarmSkips (s.reg (R.CAL_ALARMa_SEC a.val)).toNat (s.rf (R.CAL_ALARMa_CTRL a.val) 14 0)
        (s.reg (R.CAL_ALARMa_INTERVAL a.val)).toNat s.calNow * (s.reg (R.CAL_ALARMa_INTERVAL a.val)).toNat)

theorem State.alarmOverdue_of_behind {s : State} {a : Fin 4} (h : s.AlarmBehind a) :
    s.alarmOverdue a = (s.setReg (R.CAL_ALARMa_SEC a.val) (s.alarmNext a)).flag R.CAL_STATUS 7 := by
  obtain ⟨armed, repeats, timely, behind⟩ := h
  have interval : ((s.reg (R.CAL_ALARMa_INTERVAL a.val)).toNat != 0) = true := by
    simpa [BitVec.toNat_eq] using repeats
  exact if_pos (by rw [armed, interval, timely, behind]; rfl)

theorem State.alarmOverdue_of_not_behind {s : State} {a : Fin 4} (h : ¬ s.AlarmBehind a) : s.alarmOverdue a = s := by
  refine if_neg fun taken => h ?_
  simp only [Bool.and_eq_true, Bool.not_eq_true', bne_iff_ne, ne_eq] at taken
  obtain ⟨⟨⟨armed, repeats⟩, timely⟩, behind⟩ := taken
  exact ⟨armed, fun e => repeats (by rw [e]; rfl), timely, behind⟩

/-- An alarm advances alone. -/
theorem State.alarmOverdue_regsSet (s : State) (a : Fin 4) :
    RegsSet [R.CAL_ALARMa_SEC a.val, R.CAL_STATUS] s (s.alarmOverdue a) := by
  by_cases h : s.AlarmBehind a
  · rw [State.alarmOverdue_of_behind h]
    exact ((s.setReg_regsSet _ _).mono (by simp)).trans ((State.flag_regsSet _ _ _).mono (by simp))
  · rw [State.alarmOverdue_of_not_behind h]
    exact .refl _ _

theorem State.alarmOverdue_clk (s : State) (a : Fin 4) : (s.alarmOverdue a).clk = s.clk := by
  by_cases h : s.AlarmBehind a
  · rw [State.alarmOverdue_of_behind h, State.flag_clk]
    rfl
  · rw [State.alarmOverdue_of_not_behind h]

/-- What an alarm's advance reads. -/
structure SameAlarm (a : Fin 4) (s t : State) : Prop where
  ctrl : t.reg (R.CAL_ALARMa_CTRL a.val) = s.reg (R.CAL_ALARMa_CTRL a.val)
  interval : t.reg (R.CAL_ALARMa_INTERVAL a.val) = s.reg (R.CAL_ALARMa_INTERVAL a.val)
  sec : t.reg (R.CAL_ALARMa_SEC a.val) = s.reg (R.CAL_ALARMa_SEC a.val)
  clk : t.clk = s.clk

theorem SameAlarm.next_eq {a : Fin 4} {s t : State} (h : SameAlarm a s t) : t.alarmNext a = s.alarmNext a := by
  unfold State.alarmNext State.rf State.calNow
  rw [h.sec, h.ctrl, h.interval, h.clk]

theorem SameAlarm.behind_iff {a : Fin 4} {s t : State} (h : SameAlarm a s t) : t.AlarmBehind a ↔ s.AlarmBehind a := by
  unfold State.AlarmBehind State.alarmValue State.rb State.rf State.calNow
  rw [h.sec, h.ctrl, h.interval, h.clk]

theorem State.alarmOverdue_sameAlarm (s : State) {a b : Fin 4} (ne : a ≠ b) : SameAlarm a s (s.alarmOverdue b) := by
  have keeps := (s.alarmOverdue_regsSet b).regsBut
  have apart : R.CAL_ALARMa_SEC a.val ≠ R.CAL_ALARMa_SEC b.val := fun e => ne (Fin.ext (CAL_ALARMa_SEC_inj.mp e))
  exact ⟨keeps _ (by simp [CAL_ALARMa_CTRL_ne_SEC, CAL_ALARMa_CTRL_ne_STATUS]),
    keeps _ (by simp [CAL_ALARMa_INTERVAL_ne_SEC, CAL_ALARMa_INTERVAL_ne_STATUS]),
    keeps _ (by simp [apart, CAL_ALARMa_SEC_ne_STATUS]), s.alarmOverdue_clk b⟩

theorem State.alarmOverdue_sec (s : State) (a : Fin 4) [Decidable (s.AlarmBehind a)] :
    (s.alarmOverdue a).reg (R.CAL_ALARMa_SEC a.val) =
      if s.AlarmBehind a then s.alarmNext a else s.reg (R.CAL_ALARMa_SEC a.val) := by
  split
  case isTrue h =>
    rw [State.alarmOverdue_of_behind h, State.flag_regsBut _ _ _ _ (by simp [CAL_ALARMa_SEC_ne_STATUS]), State.reg_setReg,
      if_pos rfl]
  case isFalse h => rw [State.alarmOverdue_of_not_behind h]

open Classical in
/-- Each alarm of a list advances by what stands before the list is walked. -/
theorem State.alarmsOverdue_sec (a : Fin 4) : ∀ (l : List (Fin 4)) (s : State), l.Nodup →
    (l.foldl State.alarmOverdue s).reg (R.CAL_ALARMa_SEC a.val) =
      if a ∈ l ∧ s.AlarmBehind a then s.alarmNext a else s.reg (R.CAL_ALARMa_SEC a.val)
  | [], s, _ => by simp
  | b :: l, s, nodup => by
    obtain ⟨fresh, nodup'⟩ := List.nodup_cons.mp nodup
    rw [List.foldl_cons, State.alarmsOverdue_sec a l _ nodup']
    by_cases here : a = b
    · subst here
      rw [if_neg (fun h => fresh h.1), State.alarmOverdue_sec]
      simp
    · have same := s.alarmOverdue_sameAlarm here
      rw [same.next_eq, same.sec]
      simp only [same.behind_iff, List.mem_cons, here, false_or]

/-- Walking the alarms either changes nothing or sets MISSED (R52). -/
theorem State.alarmsOverdue_missed : ∀ (l : List (Fin 4)) (s : State),
    l.foldl State.alarmOverdue s = s ∨ (l.foldl State.alarmOverdue s).rb R.CAL_STATUS 7 = true
  | [], s => .inl rfl
  | b :: l, s => by
    rw [List.foldl_cons]
    rcases State.alarmsOverdue_missed l (s.alarmOverdue b) with still | missed
    · rw [still]
      by_cases h : s.AlarmBehind b
      · exact .inr (by
          rw [State.alarmOverdue_of_behind h]
          exact State.rb_flag_self _ _ _ (by decide))
      · exact .inl (State.alarmOverdue_of_not_behind h)
    · exact .inr missed

theorem State.alarmsOverdue_regsSet : ∀ (l : List (Fin 4)) (s : State),
    RegsSet (R.CAL_STATUS :: l.map fun a => R.CAL_ALARMa_SEC a.val) s (l.foldl State.alarmOverdue s)
  | [], s => .refl _ s
  | b :: l, s => ((s.alarmOverdue_regsSet b).mono (by simp)).trans
      ((State.alarmsOverdue_regsSet l (s.alarmOverdue b)).mono (by intro x hx; simp at hx ⊢; tauto))

/-- The calendar set to the values of the set registers, before the alarms are walked. -/
def State.calTaken (s : State) : State :=
  (s.setClk { s.clk with
    loadIn := none, seconds := (s.reg R.CAL_SET_LO).toNat, era := s.rf R.CAL_SET_HI 23 16
    sub := s.rf R.CAL_SET_HI 14 0 }).setRb R.CAL_VALID 0 true

theorem State.calLoad_eq (s : State) : s.calLoad = ([0, 1, 2, 3].foldl State.alarmOverdue s.calTaken).calReached := rfl

theorem State.alarmsOverdue_clk : ∀ (l : List (Fin 4)) (s : State), (l.foldl State.alarmOverdue s).clk = s.clk
  | [], _ => rfl
  | b :: l, s => (State.alarmsOverdue_clk l (s.alarmOverdue b)).trans (s.alarmOverdue_clk b)

theorem State.calLoad_clk (s : State) : s.calLoad.clk = s.calTaken.clk := State.alarmsOverdue_clk _ _

theorem State.calLoad_reg (s : State) (a : Nat) :
    s.calLoad.reg a = ([0, 1, 2, 3].foldl State.alarmOverdue s.calTaken).reg a := rfl

theorem exec_calendarLoad {s : State} (come : s.clk.loadIn = some 0) : exec .calendarLoad s = .next s.calLoad :=
  congrArg _ (if_pos come)

theorem State.calTaken_sameAlarm (s : State) (a : Fin 4) :
    s.calTaken.reg (R.CAL_ALARMa_CTRL a.val) = s.reg (R.CAL_ALARMa_CTRL a.val)
      ∧ s.calTaken.reg (R.CAL_ALARMa_INTERVAL a.val) = s.reg (R.CAL_ALARMa_INTERVAL a.val)
      ∧ s.calTaken.reg (R.CAL_ALARMa_SEC a.val) = s.reg (R.CAL_ALARMa_SEC a.val) := by
  have keeps : ∀ b, b ≠ R.CAL_VALID → s.calTaken.reg b = s.reg b := fun b h => State.setReg_regsBut _ _ _ _ (by simpa using h)
  exact ⟨keeps _ (by unfold R.CAL_ALARMa_CTRL R.CAL_VALID; omega),
    keeps _ (by unfold R.CAL_ALARMa_INTERVAL R.CAL_VALID; omega), keeps _ (by unfold R.CAL_ALARMa_SEC R.CAL_VALID; omega)⟩

theorem State.calLoad_calNow (s : State) : s.calLoad.calNow = s.calTaken.calNow := by
  unfold State.calNow
  rw [State.calLoad_clk]

/-- A load leaves each alarm where the calendar it sets leaves it. -/
theorem State.calLoad_sec (s : State) (a : Fin 4) : s.calLoad.reg (R.CAL_ALARMa_SEC a.val) =
    if s.rb (R.CAL_ALARMa_CTRL a.val) 31 = true ∧ s.reg (R.CAL_ALARMa_INTERVAL a.val) ≠ 0#32
        ∧ s.clk.lateAlarms.contains a = false ∧ serialAfter 47 s.calLoad.calNow (s.alarmValue a.val) = true then
      w32 ((s.reg (R.CAL_ALARMa_SEC a.val)).toNat
        + alarmSkips (s.reg (R.CAL_ALARMa_SEC a.val)).toNat (s.rf (R.CAL_ALARMa_CTRL a.val) 14 0)
            (s.reg (R.CAL_ALARMa_INTERVAL a.val)).toNat s.calLoad.calNow
          * (s.reg (R.CAL_ALARMa_INTERVAL a.val)).toNat)
    else s.reg (R.CAL_ALARMa_SEC a.val) := by
  obtain ⟨ctrl, interval, sec⟩ := s.calTaken_sameAlarm a
  have listed : a ∈ ([0, 1, 2, 3] : List (Fin 4)) := by fin_cases a <;> decide
  have behind : s.calTaken.AlarmBehind a ↔
      s.rb (R.CAL_ALARMa_CTRL a.val) 31 = true ∧ s.reg (R.CAL_ALARMa_INTERVAL a.val) ≠ 0#32
        ∧ s.clk.lateAlarms.contains a = false ∧ serialAfter 47 s.calTaken.calNow (s.alarmValue a.val) = true := by
    unfold State.AlarmBehind State.alarmValue State.rb State.rf
    rw [ctrl, interval, sec]
    rfl
  rw [State.calLoad_reg, State.alarmsOverdue_sec a [0, 1, 2, 3] s.calTaken (by decide), State.calLoad_calNow]
  split
  case isTrue h =>
    rw [if_pos (behind.mp h.2), State.alarmNext, State.rf, ctrl, interval, sec]
    rfl
  case isFalse h => rw [if_neg (fun k => h ⟨listed, behind.mpr k⟩), sec]

end Sys2Proof.Machine
end

section
/-!
The calendar: loads, its supply, and seconds (R46 to R49, R54).
-/
set_option Elab.async false
namespace Sys2Proof.Machine
open Sys2Proof

theorem State.calTaken_regsSet (s : State) : RegsSet [R.CAL_VALID] s s.calTaken :=
  RegsSet.trans (.of_regs rfl _) (State.setRb_regsSet _ _ _ _)

theorem State.calLoad_regsSet (s : State) :
    RegsSet ([R.CAL_VALID, R.CAL_STATUS] ++ [0, 1, 2, 3].map R.CAL_ALARMa_SEC) s s.calLoad := by
  have walked := State.alarmsOverdue_regsSet [0, 1, 2, 3] s.calTaken
  exact (s.calTaken_regsSet.mono (by simp)).trans ((walked.mono (by simp)).trans (.of_regs rfl _))

theorem State.calLoad_valid (s : State) : s.calLoad.rb R.CAL_VALID 0 = true := by
  rw [State.rb, State.calLoad_reg, (State.alarmsOverdue_regsSet _ _).regsBut _ (by decide)]
  exact State.rb_setRb_self _ (by decide) true

/-- MISSED sets where an alarm has moved. -/
theorem State.calLoad_missed {s : State}
    (h : ∃ a : Fin 4, s.calLoad.reg (R.CAL_ALARMa_SEC a.val) ≠ s.reg (R.CAL_ALARMa_SEC a.val)) :
    s.calLoad.rb R.CAL_STATUS 7 = true := by
  obtain ⟨a, moved⟩ := h
  rcases State.alarmsOverdue_missed [0, 1, 2, 3] s.calTaken with still | missed
  · exact absurd (by rw [State.calLoad_reg, still, (s.calTaken_sameAlarm a).2.2]) moved
  · exact missed

theorem calendarLoad_effect {s : State} (come : s.clk.loadIn = some 0) :
    ∃ t, exec .calendarLoad s = .next t
      ∧ t.clk.seconds = (s.reg R.CAL_SET_LO).toNat
      ∧ t.clk.era = s.rf R.CAL_SET_HI 23 16
      ∧ t.clk.sub = s.rf R.CAL_SET_HI 14 0
      ∧ t.clk.loadIn = none
      ∧ t.rb R.CAL_VALID 0 = true
      ∧ (∀ a : Fin 4, t.reg (R.CAL_ALARMa_SEC a.val) =
          if s.rb (R.CAL_ALARMa_CTRL a.val) 31 = true ∧ s.reg (R.CAL_ALARMa_INTERVAL a.val) ≠ 0#32
              ∧ s.clk.lateAlarms.contains a = false ∧ serialAfter 47 t.calNow (s.alarmValue a.val) = true then
            w32 ((s.reg (R.CAL_ALARMa_SEC a.val)).toNat
              + alarmSkips (s.reg (R.CAL_ALARMa_SEC a.val)).toNat (s.rf (R.CAL_ALARMa_CTRL a.val) 14 0)
                  (s.reg (R.CAL_ALARMa_INTERVAL a.val)).toNat t.calNow * (s.reg (R.CAL_ALARMa_INTERVAL a.val)).toNat)
          else s.reg (R.CAL_ALARMa_SEC a.val))
      ∧ ((∃ a : Fin 4, t.reg (R.CAL_ALARMa_SEC a.val) ≠ s.reg (R.CAL_ALARMa_SEC a.val)) → t.rb R.CAL_STATUS 7 = true)
      ∧ RegsBut ([R.CAL_VALID, R.CAL_STATUS] ++ [0, 1, 2, 3].map R.CAL_ALARMa_SEC) s t
      ∧ SameBut [.regs, .scCount, .clk, .due] s t := by
  have clk := s.calLoad_clk
  have sec := s.calLoad_sec
  have missed := State.calLoad_missed (s := s)
  have valid := s.calLoad_valid
  have regs := s.calLoad_regsSet.regsBut
  have rest : SameBut [.regs, .scCount, .clk, .due] s s.calLoad := State.calLoad_touch.sameBut
  have run := exec_calendarLoad come
  generalize s.calLoad = u at *
  exact ⟨u, run, congrArg ClockState.seconds clk, congrArg ClockState.era clk, congrArg ClockState.sub clk,
    congrArg ClockState.loadIn clk, valid, sec, missed, regs, rest⟩

/-! ### The supply of the calendar -/

theorem State.calLost_regsSet (s : State) : RegsSet [R.CAL_VALID] s s.calLost :=
  RegsSet.trans (.of_regs rfl _) (State.setRb_regsSet _ _ _ _)

theorem State.calLost_valid (s : State) : s.calLost.rb R.CAL_VALID 0 = false := State.rb_setRb_self _ (by decide) false

theorem State.reg_resetRegs (s : State) (p : Nat → Bool) (a : Nat) :
    (s.resetRegs p).reg a = if p a then regReset a else s.reg a := Store.get_clear _ _

/-- The state that a rise of VBAK leaves before the counts of CAL_STATUS and the marks of the backup RAM are set. -/
def State.vbakCleared (s : State) : State :=
  (s.resetRegs (fun a => vbakReg a && !(List.range 2).any (fun b =>
    (s.flashOps.get (fun _ => none) b).isSome && (a == R.FL_Bb_ADDR b || a == R.FL_Bb_STATE b)))).calLost

theorem State.vbakRise_reg (s : State) (a : Nat) : s.vbakRise.reg a = s.vbakCleared.reg a := rfl

theorem State.vbakRise_clk (s : State) : s.vbakRise.clk = s.vbakCleared.clk := rfl

theorem State.vbakRise_valid (s : State) : s.vbakRise.rb R.CAL_VALID 0 = false := State.calLost_valid _

theorem State.vbakRise_lost (s : State) : s.vbakRise.rb R.CAL_STATUS 8 = true := by
  rw [State.rb, State.vbakRise_reg, State.vbakCleared, (State.calLost_regsSet _).regsBut _ (by decide), State.reg_resetRegs]
  have kept : (vbakReg R.CAL_STATUS && !(List.range 2).any (fun b =>
      (s.flashOps.get (fun _ => none) b).isSome
        && (R.CAL_STATUS == R.FL_Bb_ADDR b || R.CAL_STATUS == R.FL_Bb_STATE b))) = true := by
    have apart : ∀ b, (R.CAL_STATUS == R.FL_Bb_ADDR b || R.CAL_STATUS == R.FL_Bb_STATE b) = false := by
      intro b
      simp only [R.CAL_STATUS, R.FL_Bb_ADDR, R.FL_Bb_STATE, Bool.or_eq_false_iff, beq_eq_false_iff_ne]
      omega
    simp only [apart, Bool.and_false]
    decide
  rw [if_pos kept]
  decide

theorem State.vbakRise_reg_of_other (s : State) {a : Nat} (h : vbakReg a = false) : s.vbakRise.reg a = s.reg a := by
  have ne : a ≠ R.CAL_VALID := by
    rintro rfl
    exact absurd h (by decide)
  rw [State.vbakRise_reg, State.vbakCleared, (State.calLost_regsSet _).regsBut _ (by simpa using ne), State.reg_resetRegs, h]
  rfl

theorem vbakRise_effect (s : State) :
    ∃ t, exec .vbakRise s = .next t
      ∧ t.clk.seconds = 0 ∧ t.clk.era = 0 ∧ t.clk.sub = 0
      ∧ t.rb R.CAL_VALID 0 = false
      ∧ t.rb R.CAL_STATUS 8 = true
      ∧ t.clk.loadIn = none
      ∧ (∀ a : Nat, vbakReg a = false → t.reg a = s.reg a)
      ∧ SameBut [.regs, .scCount, .domRegs, .clk, .ecc] s t :=
  ⟨s.vbakRise, rfl, rfl, rfl, rfl, s.vbakRise_valid, s.vbakRise_lost, rfl, fun _ h => s.vbakRise_reg_of_other h,
    State.vbakRise_touch.sameBut⟩

theorem oscStop_effect (s : State) :
    ∃ t, exec .oscStop s = .next t
      ∧ t.clk.seconds = 0 ∧ t.clk.era = 0 ∧ t.clk.sub = 0
      ∧ t.clk.loadIn = none
      ∧ t.rb R.CAL_VALID 0 = false
      ∧ t.rb R.CAL_STATUS 9 = true
      ∧ RegsBut [R.CAL_VALID, R.CAL_STATUS] s t
      ∧ SameBut [.regs, .scCount, .clk] s t := by
  have clk : (s.calLost.flag R.CAL_STATUS 9).clk = s.calLost.clk := State.flag_clk _ _ _
  have valid : (s.calLost.flag R.CAL_STATUS 9).rb R.CAL_VALID 0 = false :=
    (congrArg (bit · 0) (State.flag_regsBut _ _ _ _ (by decide))).trans s.calLost_valid
  refine ⟨_, rfl, ?_, ?_, ?_, ?_, valid, State.rb_flag_self _ _ _ (by decide), ?_, ?_⟩
  · rw [clk]; rfl
  · rw [clk]; rfl
  · rw [clk]; rfl
  · rw [clk]; rfl
  · exact (s.calLost_regsSet.regsBut.mono (by decide)).trans ((State.flag_regsBut _ _ _).mono (by decide))
  · exact (State.calLost_touch.sameBut).trans ((State.flag_sameBut _ _ _).mono (by decide))

/-! ### A second of the calendar -/

/-- The calendar one second on. -/
def State.secondPassed (s : State) : State :=
  s.setClk { s.clk with
    sub := 0, seconds := (s.clk.seconds + 1) % 2 ^ 32
    era := if (s.clk.seconds + 1) % 2 ^ 32 = 0 then (s.clk.era + 1) % 256 else s.clk.era }

/-- The pair of device time and SECONDS, recorded while the beat stands for the time passed (R49). -/
def State.pairRecorded (s : State) : State :=
  if s.awake || (s.device == .waking && !s.pow.slept) then
    ((s.setReg R.CAL_PAIR_DT_LO (lo64 s.devTime.toNat)).setReg R.CAL_PAIR_DT_HI (hi64 s.devTime.toNat)).setReg
      R.CAL_PAIR_SEC (w32 s.clk.seconds)
  else s

theorem State.calSecond_eq (s : State) : s.calSecond =
    (if s.device == .backup then s.secondPassed.pairRecorded
      else s.secondPassed.pairRecorded.fireCentral 328).calReached := by
  have device : s.secondPassed.pairRecorded.device = s.device := by
    unfold State.pairRecorded
    split <;> rfl
  rw [← device]
  rfl

theorem State.pairRecorded_regsSet (s : State) :
    RegsSet [R.CAL_PAIR_SEC, R.CAL_PAIR_DT_LO, R.CAL_PAIR_DT_HI] s s.pairRecorded := by
  refine .ite ?_ (.refl _ s)
  exact ((s.setReg_regsSet _ _).mono (by decide)).trans
    (((State.setReg_regsSet _ _ _).mono (by decide)).trans ((State.setReg_regsSet _ _ _).mono (by decide)))

theorem State.pairRecorded_clk (s : State) : s.pairRecorded.clk = s.clk := by
  unfold State.pairRecorded
  split <;> rfl

theorem State.calSecond_reg (s : State) (a : Nat) : s.calSecond.reg a = s.secondPassed.pairRecorded.reg a := by
  rw [State.calSecond_eq]
  split
  · rfl
  · exact (State.fireCentral_sameBut _ _).reg_eq (by decide) a

theorem State.calSecond_clk (s : State) : s.calSecond.clk = s.secondPassed.clk := by
  rw [State.calSecond_eq]
  split
  · exact State.pairRecorded_clk _
  · exact (State.fireCentral_touch.same_part .clk).trans (State.pairRecorded_clk _)

theorem State.pairRecorded_of_awake {s : State} (awake : s.awake = true) :
    s.pairRecorded.reg R.CAL_PAIR_SEC = w32 s.clk.seconds
      ∧ s.pairRecorded.reg R.CAL_PAIR_DT_LO = lo64 s.devTime.toNat
      ∧ s.pairRecorded.reg R.CAL_PAIR_DT_HI = hi64 s.devTime.toNat := by
  rw [State.pairRecorded, if_pos (by simp [awake])]
  refine ⟨(State.reg_setReg _ _ _ _).trans (if_pos rfl), ?_, ?_⟩
  · rw [State.setReg_regsBut _ _ _ _ (by decide), State.setReg_regsBut _ _ _ _ (by decide), State.reg_setReg, if_pos rfl]
  · rw [State.setReg_regsBut _ _ _ _ (by decide), State.reg_setReg, if_pos rfl]

theorem State.pairRecorded_of_still {s : State}
    (h : s.device = .watch ∨ s.device = .backup ∨ (s.device = .waking ∧ s.pow.slept = true)) : s.pairRecorded = s := by
  refine if_neg ?_
  rcases h with h | h | ⟨h, slept⟩
  · simp [State.awake, h]
  · simp [State.awake, h]
  · simp [State.awake, h, slept]

theorem State.calSecond_fires {s : State} (h : s.device ≠ .backup) : Fires (4096 + 328) s s.calSecond := by
  have on : ¬ (s.device == .backup) = true := by simpa using h
  have before : RegsSet [R.CAL_PAIR_SEC, R.CAL_PAIR_DT_LO, R.CAL_PAIR_DT_HI] s s.secondPassed.pairRecorded :=
    RegsSet.trans (.of_regs rfl _) (State.pairRecorded_regsSet _)
  have parts : s.secondPassed.pairRecorded.fab = s.fab ∧ s.secondPassed.pairRecorded.pulses = s.pulses := by
    unfold State.pairRecorded
    split <;> exact ⟨rfl, rfl⟩
  rw [State.calSecond_eq, if_neg on]
  refine (before.fires (g := 4096 + 328) (by decide) ?_ parts.1 parts.2).enqueue _
  have owner : sourceOwner (4096 + 328) = some R.CAL_OWNER := by decide
  intro a ha
  rw [owner, Option.some.injEq] at ha
  subst ha
  decide

theorem calendarSecond_effect {s : State} (last : s.clk.sub = 32767) :
    ∃ t, exec .calendarSecond s = .next t
      ∧ t.clk.sub = 0
      ∧ t.clk.seconds = (s.clk.seconds + 1) % 2 ^ 32
      ∧ (t.clk.era = if (s.clk.seconds + 1) % 2 ^ 32 = 0 then (s.clk.era + 1) % 256 else s.clk.era)
      ∧ (s.awake = true → t.reg R.CAL_PAIR_SEC = w32 t.clk.seconds ∧ t.reg R.CAL_PAIR_DT_LO = lo64 s.devTime.toNat
          ∧ t.reg R.CAL_PAIR_DT_HI = hi64 s.devTime.toNat)
      ∧ (s.device = .watch ∨ s.device = .backup ∨ (s.device = .waking ∧ s.pow.slept = true) → RegsBut [] s t)
      ∧ (s.device ≠ .backup → Fires (4096 + 328) s t)
      ∧ RegsBut [R.CAL_PAIR_SEC, R.CAL_PAIR_DT_LO, R.CAL_PAIR_DT_HI] s t
      ∧ SameBut [.regs, .clk, .due, .pulses] s t := by
  have clk := s.calSecond_clk
  have reg := s.calSecond_reg
  have fires := State.calSecond_fires (s := s)
  have pair : s.awake = true → _ := fun awake => State.pairRecorded_of_awake (s := s.secondPassed) awake
  have still : _ → s.secondPassed.pairRecorded = s.secondPassed := fun h => State.pairRecorded_of_still (s := s.secondPassed) h
  have keeps := s.secondPassed.pairRecorded_regsSet.regsBut
  have rest : SameBut [.regs, .clk, .due, .pulses] s s.calSecond := State.calSecond_touch.sameBut
  have run : exec .calendarSecond s = .next s.calSecond := congrArg _ (if_pos last)
  generalize s.calSecond = u at *
  refine ⟨u, run, congrArg ClockState.sub clk, congrArg ClockState.seconds clk, congrArg ClockState.era clk,
    fun awake => ?_, fun h a _ => ?_, fires, fun a ha => (reg a).trans (keeps a ha), rest⟩
  · obtain ⟨sec, low, high⟩ := pair awake
    exact ⟨(reg _).trans (sec.trans (by rw [clk])), (reg _).trans low, (reg _).trans high⟩
  · rw [reg a, still h]
    rfl

end Sys2Proof.Machine
end

section
/-!
Alarms (R51, R52).
-/
set_option Elab.async false
namespace Sys2Proof.Machine
open Sys2Proof

theorem calSetHiWrite_effect {s : State} {m : Master} {r : RegRow} (h : s.Writes m .tb r R.CAL_SET_HI) (v : Word) :
    ∃ t, exec (.calSetHiWrite m v) s = .next t
      ∧ t.reg R.CAL_SET_HI = v &&& 0x00FF7FFF#32
      ∧ t.clk.loadIn = some 2
      ∧ t.clk.seconds = s.clk.seconds
      ∧ RegsBut [R.CAL_SET_HI] s t
      ∧ SameBut [.regs, .clk, .reply] s t
      ∧ t.reply = some ⟨m, .done⟩ := by
  have run := exec_calSetHiWrite h v
  have stored : (s.calSetWrite v).reg R.CAL_SET_HI = v &&& 0x00FF7FFF#32 := (State.reg_setReg _ _ _ _).trans (if_pos rfl)
  have load : (s.calSetWrite v).clk.loadIn = some 2 := rfl
  have seconds : (s.calSetWrite v).clk.seconds = s.clk.seconds := rfl
  have regs : RegsBut [R.CAL_SET_HI] s (s.calSetWrite v) := s.setReg_regsBut _ _
  have rest : SameBut [.regs, .clk, .reply] s (s.calSetWrite v) := State.calSetWrite_touch.sameBut
  generalize s.calSetWrite v = u at *
  exact ⟨u.answer m .done, run, stored, load, seconds, regs.answer m .done, rest.answer (by decide) m .done, rfl⟩

/-! ### Arming an alarm -/

/-- An alarm's control word stored, disarmed, and not among the late ones. -/
def State.alarmStored (s : State) (a : Fin 4) (v : Word) : State :=
  (s.setClk { s.clk with lateAlarms := s.clk.lateAlarms.filter (fun b => b != a) }).setReg (R.CAL_ALARMa_CTRL a.val)
    (v &&& 0x70007FFF#32)

section
variable (s : State) (a : Fin 4) (v : Word)

theorem State.alarmStored_reg : (s.alarmStored a v).reg (R.CAL_ALARMa_CTRL a.val) = v &&& 0x70007FFF#32 :=
  (State.reg_setReg _ _ _ _).trans (if_pos rfl)

theorem State.alarmStored_regsSet : RegsSet [R.CAL_ALARMa_CTRL a.val] s (s.alarmStored a v) :=
  RegsSet.trans (.of_regs rfl _) (State.setReg_regsSet _ _ _)

theorem State.alarmStored_value : (s.alarmStored a v).alarmValue a.val =
    (s.reg (R.CAL_ALARMa_SEC a.val)).toNat * 32768 + fld v 14 0 := by
  rw [State.alarmValue, State.rf, s.alarmStored_reg, alarmWord_sub,
    (s.alarmStored_regsSet a v).regsBut _ (by simp [(CAL_ALARMa_CTRL_ne_SEC a.val a.val).symm])]

theorem State.alarmArm_eq : s.alarmArm a v =
    if (!bit v 31) = true then s.alarmStored a v
    else if serialAfter 47 ((s.reg (R.CAL_ALARMa_SEC a.val)).toNat * 32768 + fld v 14 0) s.calNow = true then
      (s.alarmStored a v).setRb (R.CAL_ALARMa_CTRL a.val) 31 true
    else if bit v 30 = true then
      (((s.alarmStored a v).setRb (R.CAL_ALARMa_CTRL a.val) 31 true).flag R.CAL_STATUS 6).setClk
        { (s.alarmStored a v).clk with lateAlarms := (s.alarmStored a v).clk.lateAlarms ++ [a] }
    else (s.alarmStored a v).flag R.CAL_STATUS 5 := by
  have clk : (((s.alarmStored a v).setRb (R.CAL_ALARMa_CTRL a.val) 31 true).flag R.CAL_STATUS 6).clk
      = (s.alarmStored a v).clk := State.flag_clk _ _ _
  rw [← State.alarmStored_value, ← clk]
  rfl

theorem State.alarmStored_sub : (s.alarmStored a v).rf (R.CAL_ALARMa_CTRL a.val) 14 0 = fld v 14 0 := by
  rw [State.rf, s.alarmStored_reg, alarmWord_sub]

theorem State.alarmStored_disarmed : (s.alarmStored a v).rb (R.CAL_ALARMa_CTRL a.val) 31 = false := by
  rw [State.rb, s.alarmStored_reg, alarmWord_armed]

theorem State.alarmStored_status : (s.alarmStored a v).reg R.CAL_STATUS = s.reg R.CAL_STATUS :=
  (s.alarmStored_regsSet a v).regsBut _ (by simp [(CAL_ALARMa_CTRL_ne_STATUS a.val).symm])

theorem State.rf_setRb_of_outside (s : State) {b c i hi lo : Nat} {x : Bool} (h : hi < 32) (out : hi < i ∨ i < lo) :
    (s.setRb b i x).rf c hi lo = s.rf c hi lo := by
  rw [State.setRb, State.rf_setReg]
  split
  case isTrue e => rw [e, fld_setBit_of_outside _ _ _ _ _ h out]; rfl
  case isFalse => rfl

theorem State.alarmArm_sub : (s.alarmArm a v).rf (R.CAL_ALARMa_CTRL a.val) 14 0 = fld v 14 0 := by
  have stored := s.alarmStored_sub a v
  have armed : ((s.alarmStored a v).setRb (R.CAL_ALARMa_CTRL a.val) 31 true).rf (R.CAL_ALARMa_CTRL a.val) 14 0 = fld v 14 0 :=
    (State.rf_setRb_of_outside _ (by decide) (by decide)).trans stored
  have flagged : ∀ (u : State) (i : Nat), (u.flag R.CAL_STATUS i).rf (R.CAL_ALARMa_CTRL a.val) 14 0
      = u.rf (R.CAL_ALARMa_CTRL a.val) 14 0 := fun u i =>
    congrArg (fld · 14 0) (State.flag_regsBut u _ i _ (by simp [CAL_ALARMa_CTRL_ne_STATUS]))
  rw [State.alarmArm_eq]
  split
  · exact stored
  · split
    · exact armed
    · split
      · exact (flagged _ 6).trans armed
      · exact (flagged _ 5).trans stored

theorem State.alarmArm_regsBut : RegsBut [R.CAL_ALARMa_CTRL a.val, R.CAL_STATUS] s (s.alarmArm a v) := by
  have stored : RegsSet [R.CAL_ALARMa_CTRL a.val, R.CAL_STATUS] s (s.alarmStored a v) :=
    (s.alarmStored_regsSet a v).mono (by simp)
  have armed : RegsSet [R.CAL_ALARMa_CTRL a.val, R.CAL_STATUS] s ((s.alarmStored a v).setRb (R.CAL_ALARMa_CTRL a.val) 31 true) :=
    stored.trans ((State.setRb_regsSet _ _ _ _).mono (by simp))
  rw [State.alarmArm_eq]
  refine RegsSet.regsBut (.ite stored (.ite armed (.ite ?_ ?_)))
  · exact (armed.trans ((State.flag_regsSet _ _ _).mono (by simp))).trans (.of_regs rfl _)
  · exact stored.trans ((State.flag_regsSet _ _ _).mono (by simp))

end

theorem alarmArm_effect {s : State} {m : Master} {r : RegRow} {a : Fin 4}
    (h : s.Writes m .tb r (R.CAL_ALARMa_CTRL a.val)) (v : Word) :
    ∃ t, exec (.alarmArm m a v) s = .next t
      ∧ t.rf (R.CAL_ALARMa_CTRL a.val) 14 0 = fld v 14 0
      ∧ (bit v 31 = false → t.rb (R.CAL_ALARMa_CTRL a.val) 31 = false ∧ t.reg R.CAL_STATUS = s.reg R.CAL_STATUS)
      ∧ (bit v 31 = true → serialAfter 47 ((s.reg (R.CAL_ALARMa_SEC a.val)).toNat * 32768 + fld v 14 0) s.calNow = true →
          t.rb (R.CAL_ALARMa_CTRL a.val) 31 = true ∧ t.reg R.CAL_STATUS = s.reg R.CAL_STATUS)
      ∧ (bit v 31 = true → serialAfter 47 ((s.reg (R.CAL_ALARMa_SEC a.val)).toNat * 32768 + fld v 14 0) s.calNow = false
          → bit v 30 = false → t.rb (R.CAL_ALARMa_CTRL a.val) 31 = false ∧ t.rb R.CAL_STATUS 5 = true)
      ∧ (bit v 31 = true → serialAfter 47 ((s.reg (R.CAL_ALARMa_SEC a.val)).toNat * 32768 + fld v 14 0) s.calNow = false
          → bit v 30 = true → t.rb (R.CAL_ALARMa_CTRL a.val) 31 = true ∧ t.rb R.CAL_STATUS 6 = true
            ∧ t.clk.lateAlarms.contains a = true)
      ∧ RegsBut [R.CAL_ALARMa_CTRL a.val, R.CAL_STATUS] s t
      ∧ SameBut [.regs, .scCount, .clk, .reply] s t
      ∧ t.reply = some ⟨m, .done⟩ := by
  have run := exec_alarmArm h v
  have sub := s.alarmArm_sub a v
  have eq := s.alarmArm_eq a v
  have regs := s.alarmArm_regsBut a v
  have rest : SameBut [.regs, .scCount, .clk, .reply] s (s.alarmArm a v) := State.alarmArm_touch.sameBut
  have disarmed := s.alarmStored_disarmed a v
  have status := s.alarmStored_status a v
  have apart : R.CAL_STATUS ∉ [R.CAL_ALARMa_CTRL a.val] := by simp [(CAL_ALARMa_CTRL_ne_STATUS a.val).symm]
  have apart' : R.CAL_ALARMa_CTRL a.val ∉ [R.CAL_STATUS] := by simp [CAL_ALARMa_CTRL_ne_STATUS]
  have flagged : ∀ (u : State) (i : Nat), (u.flag R.CAL_STATUS i).rb (R.CAL_ALARMa_CTRL a.val) 31
      = u.rb (R.CAL_ALARMa_CTRL a.val) 31 := fun u i => congrArg (bit · 31) (State.flag_regsBut u _ i _ apart')
  generalize s.alarmArm a v = u at *
  generalize s.alarmStored a v = w at *
  refine ⟨u.answer m .done, run, sub, fun off => ?_, fun on ahead => ?_, fun on late reject => ?_, fun on late asap => ?_,
    regs.answer m .done, rest.answer (by decide) m .done, rfl⟩
  · rw [if_pos (by simp [off])] at eq
    subst eq
    exact ⟨disarmed, status⟩
  · rw [if_neg (by simp [on]), if_pos ahead] at eq
    subst eq
    exact ⟨w.rb_setRb_self (by decide) true, (w.setReg_regsBut _ _ _ apart).trans status⟩
  · rw [if_neg (by simp [on]), if_neg (by simp [late]), if_neg (by simp [reject])] at eq
    subst eq
    exact ⟨(flagged w 5).trans disarmed, w.rb_flag_self _ _ (by decide)⟩
  · rw [if_neg (by simp [on]), if_neg (by simp [late]), if_pos asap] at eq
    subst eq
    exact ⟨(flagged _ 6).trans (w.rb_setRb_self (by decide) true), State.rb_flag_self _ _ _ (by decide),
      by simp [State.setClk]⟩

/-! ### An alarm that fires -/

/-- The flag of the alarm, and its pulse where EVENT_EN says so. -/
def State.alarmTold (s : State) (a : Fin 4) : State :=
  let u := (s.setClk { s.clk with lateAlarms := s.clk.lateAlarms.filter (fun b => b != a) }).flag R.CAL_STATUS a.val
  if bit (s.reg (R.CAL_ALARMa_CTRL a.val)) 28 && u.device != .backup then u.fireCentral (324 + a.val) else u

/-- What an alarm's wake makes due. -/
def State.alarmWoken (s : State) (a : Fin 4) (c : Word) : State :=
  if bit c 29 && (s.device == .watch || s.device == .entering) then s.enqueue [.wakeSource (.alarm a)] else s

/-- The alarm's own registers after it has fired: disarmed, or some intervals on. -/
def State.alarmAdvanced (s : State) (a : Fin 4) (c : Word) : State :=
  if (s.reg (R.CAL_ALARMa_INTERVAL a.val)).toNat = 0 then s.setRb (R.CAL_ALARMa_CTRL a.val) 31 false
  else
    let sec := (s.reg (R.CAL_ALARMa_SEC a.val)).toNat
    let iv := (s.reg (R.CAL_ALARMa_INTERVAL a.val)).toNat
    let k := alarmSkips sec (fld c 14 0) iv s.calNow
    let u := s.setReg (R.CAL_ALARMa_SEC a.val) (w32 (sec + k * iv))
    if k = 1 then u else u.flag R.CAL_STATUS 7

theorem State.alarmFire_eq (s : State) (a : Fin 4) : s.alarmFire a =
    ((s.alarmTold a).alarmWoken a (s.reg (R.CAL_ALARMa_CTRL a.val))).alarmAdvanced a (s.reg (R.CAL_ALARMa_CTRL a.val)) := rfl

theorem Fires.congr {g : Nat} {s t u : State} (h : Fires g s t) (pulses : u.pulses = t.pulses) (due : u.due = t.due) :
    Fires g s u :=
  ⟨by rw [pulses]; exact h.1, fun low p hp ok => by rw [due]; exact h.2 low p hp ok⟩

section
variable (s : State) (a : Fin 4)

/-- The state in which the alarm's pulse starts. -/
def State.alarmFlagged : State :=
  (s.setClk { s.clk with lateAlarms := s.clk.lateAlarms.filter (fun b => b != a) }).flag R.CAL_STATUS a.val

theorem State.alarmFlagged_regsSet : RegsSet [R.CAL_STATUS] s (s.alarmFlagged a) :=
  RegsSet.trans (.of_regs rfl _) (State.flag_regsSet _ _ _)

theorem State.alarmTold_reg (b : Nat) : (s.alarmTold a).reg b = (s.alarmFlagged a).reg b := by
  show (if _ then (s.alarmFlagged a).fireCentral (324 + a.val) else s.alarmFlagged a).reg b = _
  split
  · exact (State.fireCentral_sameBut _ _).reg_eq (by decide) b
  · rfl

theorem State.alarmTold_calNow : (s.alarmTold a).calNow = s.calNow := by
  have flagged : (s.alarmFlagged a).clk = { s.clk with lateAlarms := s.clk.lateAlarms.filter (fun b => b != a) } :=
    State.flag_clk _ _ _
  have told : (s.alarmTold a).clk = (s.alarmFlagged a).clk := by
    show (if _ then (s.alarmFlagged a).fireCentral (324 + a.val) else s.alarmFlagged a).clk = _
    split
    · exact State.fireCentral_touch.same_part .clk
    · rfl
  rw [State.calNow, told, flagged]
  rfl

theorem State.alarmTold_fires (event : s.rb (R.CAL_ALARMa_CTRL a.val) 28 = true) (on : s.device ≠ .backup) :
    Fires (4096 + 324 + a.val) s (s.alarmTold a) := by
  have device : (s.alarmFlagged a).device = s.device := State.flag_device _ _ _
  have fires : s.alarmTold a = (s.alarmFlagged a).fireCentral (324 + a.val) :=
    if_pos (by
      show (s.rb (R.CAL_ALARMa_CTRL a.val) 28 && (s.alarmFlagged a).device != .backup) = true
      simp [event, device, on])
  have owner : sourceOwner (4096 + (324 + a.val)) = some R.CAL_OWNER := by fin_cases a <;> decide
  rw [fires, Nat.add_assoc]
  refine (s.alarmFlagged_regsSet a).fires (g := 4096 + (324 + a.val)) (by decide) ?_ ?_ ?_
  · intro b hb
    rw [owner, Option.some.injEq] at hb
    subst hb
    decide
  · exact State.flag_fab _ _ _
  · exact State.flag_pulses _ _ _

theorem State.alarmWoken_reg (c : Word) (b : Nat) : (s.alarmWoken a c).reg b = s.reg b := by
  unfold State.alarmWoken
  split <;> rfl

theorem State.alarmWoken_clk (c : Word) : (s.alarmWoken a c).clk = s.clk := by
  unfold State.alarmWoken
  split <;> rfl

theorem Fires.alarmWoken {s t : State} {g : Nat} (h : Fires g s t) (a : Fin 4) (c : Word) : Fires g s (t.alarmWoken a c) := by
  unfold State.alarmWoken
  split
  · exact h.enqueue _
  · exact h

theorem State.alarmAdvanced_regsSet (c : Word) :
    RegsSet [R.CAL_STATUS, R.CAL_ALARMa_CTRL a.val, R.CAL_ALARMa_SEC a.val] s (s.alarmAdvanced a c) := by
  unfold State.alarmAdvanced
  dsimp only
  refine .ite ((s.setRb_regsSet _ _ _).mono (by simp)) (.ite ((s.setReg_regsSet _ _).mono (by simp)) ?_)
  exact ((s.setReg_regsSet _ _).mono (by simp)).trans ((State.flag_regsSet _ _ _).mono (by simp))

theorem State.alarmAdvanced_pulses (c : Word) : (s.alarmAdvanced a c).pulses = s.pulses := by
  unfold State.alarmAdvanced
  dsimp only
  split
  · rfl
  · split
    · rfl
    · exact State.flag_pulses _ _ _

theorem State.alarmAdvanced_due (c : Word) : (s.alarmAdvanced a c).due = s.due := by
  unfold State.alarmAdvanced
  dsimp only
  split
  · rfl
  · split
    · rfl
    · exact State.flag_due _ _ _

theorem State.alarmAdvanced_flag (c : Word) : (s.alarmAdvanced a c).rb R.CAL_STATUS a.val = s.rb R.CAL_STATUS a.val := by
  have status : ∀ (v : Word) (b : Nat), b ≠ R.CAL_STATUS → (s.setReg b v).rb R.CAL_STATUS a.val = s.rb R.CAL_STATUS a.val :=
    fun v b ne => congrArg (bit · a.val) (State.setReg_regsBut _ _ _ _ (by simpa using ne.symm))
  unfold State.alarmAdvanced
  dsimp only
  split
  · exact status _ _ (CAL_ALARMa_CTRL_ne_STATUS a.val)
  · split
    · exact status _ _ (CAL_ALARMa_SEC_ne_STATUS a.val)
    · exact (State.rb_flag_other _ _ _ _ (by decide) (by omega) (by omega)).trans <| status _ _ (CAL_ALARMa_SEC_ne_STATUS a.val)

end

theorem State.alarmAdvanced_once {s : State} {a : Fin 4} (once : s.reg (R.CAL_ALARMa_INTERVAL a.val) = 0#32) (c : Word) :
    (s.alarmAdvanced a c).rb (R.CAL_ALARMa_CTRL a.val) 31 = false
      ∧ (s.alarmAdvanced a c).reg (R.CAL_ALARMa_SEC a.val) = s.reg (R.CAL_ALARMa_SEC a.val) := by
  have done : s.alarmAdvanced a c = s.setRb (R.CAL_ALARMa_CTRL a.val) 31 false := if_pos (by rw [once]; rfl)
  rw [done]
  exact ⟨s.rb_setRb_self (by decide) false, s.setReg_regsBut _ _ _ (by simp [(CAL_ALARMa_CTRL_ne_SEC a.val a.val).symm])⟩

theorem State.alarmAdvanced_again {s : State} {a : Fin 4} (again : s.reg (R.CAL_ALARMa_INTERVAL a.val) ≠ 0#32) (c : Word) :
    (s.alarmAdvanced a c).reg (R.CAL_ALARMa_CTRL a.val) = s.reg (R.CAL_ALARMa_CTRL a.val)
      ∧ (s.alarmAdvanced a c).reg (R.CAL_ALARMa_SEC a.val) = w32 ((s.reg (R.CAL_ALARMa_SEC a.val)).toNat
        + alarmSkips (s.reg (R.CAL_ALARMa_SEC a.val)).toNat (fld c 14 0)
            (s.reg (R.CAL_ALARMa_INTERVAL a.val)).toNat s.calNow * (s.reg (R.CAL_ALARMa_INTERVAL a.val)).toNat) := by
  have interval : ¬ (s.reg (R.CAL_ALARMa_INTERVAL a.val)).toNat = 0 := by simpa [BitVec.toNat_eq] using again
  have ctrl : ∀ v, (s.setReg (R.CAL_ALARMa_SEC a.val) v).reg (R.CAL_ALARMa_CTRL a.val) = s.reg (R.CAL_ALARMa_CTRL a.val) :=
    fun v => s.setReg_regsBut _ _ _ (by simp [CAL_ALARMa_CTRL_ne_SEC])
  have sec : ∀ v, (s.setReg (R.CAL_ALARMa_SEC a.val) v).reg (R.CAL_ALARMa_SEC a.val) = v := fun v =>
    (State.reg_setReg _ _ _ _).trans (if_pos rfl)
  unfold State.alarmAdvanced
  rw [if_neg interval]
  dsimp only
  split
  · exact ⟨ctrl _, sec _⟩
  · exact ⟨(State.flag_regsBut _ _ _ _ (by simp [CAL_ALARMa_CTRL_ne_STATUS])).trans (ctrl _),
      (State.flag_regsBut _ _ _ _ (by simp [CAL_ALARMa_SEC_ne_STATUS])).trans (sec _)⟩

theorem alarmFire_effect {s : State} {a : Fin 4} (due : s.alarmDue a = true) :
    ∃ t, exec (.alarmFire a) s = .next t
      ∧ t.rb R.CAL_STATUS a.val = true
      ∧ (s.reg (R.CAL_ALARMa_INTERVAL a.val) = 0#32 →
          t.rb (R.CAL_ALARMa_CTRL a.val) 31 = false ∧ t.reg (R.CAL_ALARMa_SEC a.val) = s.reg (R.CAL_ALARMa_SEC a.val))
      ∧ (s.reg (R.CAL_ALARMa_INTERVAL a.val) ≠ 0#32 →
          t.rb (R.CAL_ALARMa_CTRL a.val) 31 = true ∧ t.reg (R.CAL_ALARMa_SEC a.val) = w32 ((s.reg (R.CAL_ALARMa_SEC a.val)).toNat
            + alarmSkips (s.reg (R.CAL_ALARMa_SEC a.val)).toNat (s.rf (R.CAL_ALARMa_CTRL a.val) 14 0)
                (s.reg (R.CAL_ALARMa_INTERVAL a.val)).toNat s.calNow * (s.reg (R.CAL_ALARMa_INTERVAL a.val)).toNat))
      ∧ (s.rb (R.CAL_ALARMa_CTRL a.val) 28 = true → s.device ≠ .backup → Fires (4096 + 324 + a.val) s t)
      ∧ RegsBut [R.CAL_STATUS, R.CAL_ALARMa_CTRL a.val, R.CAL_ALARMa_SEC a.val] s t
      ∧ SameBut [.regs, .scCount, .clk, .due, .pulses] s t := by
  have run : exec (.alarmFire a) s = .next (s.alarmFire a) := congrArg _ (if_pos due)
  have rest : SameBut [.regs, .scCount, .clk, .due, .pulses] s (s.alarmFire a) := State.alarmFire_touch.sameBut
  have armed : s.rb (R.CAL_ALARMa_CTRL a.val) 31 = true := by
    unfold State.alarmDue at due
    simp only [Bool.and_eq_true] at due
    exact due.1
  have fires := fun event on => (s.alarmTold_fires a event on).alarmWoken a (s.reg (R.CAL_ALARMa_CTRL a.val))
  have told : ∀ b, ((s.alarmTold a).alarmWoken a (s.reg (R.CAL_ALARMa_CTRL a.val))).reg b = (s.alarmFlagged a).reg b :=
    fun b => (State.alarmWoken_reg _ a _ b).trans (s.alarmTold_reg a b)
  have now : ((s.alarmTold a).alarmWoken a (s.reg (R.CAL_ALARMa_CTRL a.val))).calNow = s.calNow := by
    rw [State.calNow, State.alarmWoken_clk]
    exact s.alarmTold_calNow a
  have flagged : (s.alarmFlagged a).rb R.CAL_STATUS a.val = true := State.rb_flag_self _ _ _ (by omega)
  have before := (s.alarmFlagged_regsSet a).regsBut
  have ctrl := (told _).trans (before (R.CAL_ALARMa_CTRL a.val) (by simp [CAL_ALARMa_CTRL_ne_STATUS]))
  have sec := (told _).trans (before (R.CAL_ALARMa_SEC a.val) (by simp [CAL_ALARMa_SEC_ne_STATUS]))
  have interval := (told _).trans (before (R.CAL_ALARMa_INTERVAL a.val) (by simp [CAL_ALARMa_INTERVAL_ne_STATUS]))
  rw [State.alarmFire_eq] at run rest
  generalize (s.alarmTold a).alarmWoken a (s.reg (R.CAL_ALARMa_CTRL a.val)) = w at *
  refine ⟨_, run, ?_, fun once => ?_, fun again => ?_, fun event on => ?_, ?_, rest⟩
  · rw [State.alarmAdvanced_flag, State.rb, told]
    exact flagged
  · rw [← interval] at once
    obtain ⟨off, still⟩ := State.alarmAdvanced_once once (s.reg (R.CAL_ALARMa_CTRL a.val))
    exact ⟨off, still.trans sec⟩
  · rw [← interval] at again
    obtain ⟨on, next⟩ := State.alarmAdvanced_again again (s.reg (R.CAL_ALARMa_CTRL a.val))
    rw [sec, interval, now] at next
    exact ⟨by rw [State.rb, on, ctrl]; exact armed, next⟩
  · exact (fires event on).congr (w.alarmAdvanced_pulses a _) (w.alarmAdvanced_due a _)
  · intro b hb
    exact ((w.alarmAdvanced_regsSet a _).regsBut b hb).trans
      ((told b).trans (before b (by simp only [List.mem_cons] at hb ⊢; tauto)))

/-- Settles O16, clause by clause: each command's own lemma says what it leaves. -/
theorem calendarCommands : Obligations.CalendarCommands :=
  ⟨fun _ v _ _ h => calSetHiWrite_effect h v, fun _ come => calendarLoad_effect come, vbakRise_effect, oscStop_effect,
    fun _ last => calendarSecond_effect last, fun _ _ v _ _ h => alarmArm_effect h v, fun _ _ due => alarmFire_effect due⟩

end Sys2Proof.Machine
end

section
/-!
What is due grows, triggers of encoder ports, and system holds (R177, R178).
-/
set_option Elab.async false
namespace Sys2Proof.Machine
open Sys2Proof

/-! ### Frames, one operation after another -/

theorem SameBut.touch {w : Nat} {l : List Part} {s t u : State} (h : SameBut l s t) (k : Touch w t u)
    (hl : masksOnly w l = true := by decide) : SameBut l s u := h.trans (k.sameBut hl)

theorem State.setClk_sameBut (s : State) (c : ClockState) : SameBut [.clk] s (s.setClk c) := by
  intro p hp
  cases p
  case clk => exact absurd hp (by decide)
  all_goals rfl

/-! ### What is due grows -/

/-- An operation only adds to what is due. -/
def DueGrows (s t : State) : Prop := s.due <+: t.due

theorem DueGrows.refl (s : State) : DueGrows s s := List.prefix_rfl

theorem DueGrows.trans {s t u : State} (h : DueGrows s t) (k : DueGrows t u) : DueGrows s u := List.IsPrefix.trans h k

theorem DueGrows.of_eq {s t : State} (h : t.due = s.due) : DueGrows s t := by
  rw [DueGrows, h]

theorem DueGrows.ite {s t u : State} {c : Prop} [Decidable c] (h : DueGrows s t) (k : DueGrows s u) :
    DueGrows s (if c then t else u) := by
  split
  · exact h
  · exact k

theorem DueGrows.foldl {α : Type} {f : State → α → State} (hf : ∀ t x, DueGrows t (f t x)) :
    ∀ (l : List α) (s : State), DueGrows s (l.foldl f s)
  | [], s => .refl s
  | x :: l, s => (hf s x).trans (DueGrows.foldl hf l (f s x))

theorem DueGrows.mem {s t : State} (h : DueGrows s t) {c : Instr} (hc : c ∈ s.due) : c ∈ t.due := h.subset hc

/-- What comes first in what an operation has added. -/
theorem DueGrows.take_of_enqueue {s t : State} {c : Instr} (h : DueGrows (s.enqueue [c]) t) :
    t.due.take (s.due.length + 1) = s.due ++ [c] := by
  have len : (s.enqueue [c]).due.length = s.due.length + 1 := by simp [State.enqueue]
  rw [← len]
  exact (List.prefix_iff_eq_take.mp h).symm

theorem DueGrows.take_of_report {s t : State} {x y c : Nat} {v : Word} (h : DueGrows (s.report x y c v) t) :
    t.due.take (s.due.length + 1) =
      s.due ++ [.faultReport (Fin.ofNat 8192 x) (Fin.ofNat 8192 y) (BitVec.ofNat 8 c) v] := h.take_of_enqueue

theorem State.enqueue_dueGrows (s : State) (l : List Instr) : DueGrows s (s.enqueue l) := List.prefix_append _ _

theorem Touch.dueGrows {w : Nat} {s t : State} (h : Touch w s t) (quiet : w.testBit 0 = false := by decide) : DueGrows s t :=
  .of_eq (h.same_part .due (by simpa [Part.bits] using quiet))

theorem State.fire_dueGrows (s : State) (g : Nat) : DueGrows s (s.fire g) := by
  rw [State.fire_eq]
  exact .ite (.of_eq rfl) (DueGrows.trans (.of_eq rfl) (State.enqueue_dueGrows _ _))

/-! ### Triggers of encoder ports -/

/-- The status registers of the encoder ports. -/
def eqStatusReg (a : Nat) : Prop := ∃ n q, n < 16 ∧ q < 2 ∧ a = R.EQ_STATUS n q

theorem forall_some_ite {α : Type} {c : Prop} [Decidable c] {x y : Option α} {P : α → Prop}
    (h : c → ∀ z ∈ x, P z) (k : ¬ c → ∀ z ∈ y, P z) : ∀ z ∈ (if c then x else y), P z := by
  by_cases hc : c
  · simpa only [if_pos hc] using h hc
  · simpa only [if_neg hc] using k hc

/-- The numbers of a block that lies at some address. -/
def BlkOk : Blk → Prop
  | .le n m => n < 16 ∧ m < 6
  | .tu n k => n < 16 ∧ k < 4
  | .ac n c => n < 16 ∧ c < 2
  | .sd n d => n < 16 ∧ d < 4
  | .cp n c => n < 16 ∧ c < 8
  | .eq n q => n < 16 ∧ q < 2
  | .mk n k => n < 16 ∧ k < 4
  | .fi n => n < 16
  | .ic n => n < 16
  | .cc n => n < 8
  | .sch n => n < 8
  | .can k => k < 4
  | .uart k => k < 4
  | .spi k => k < 8
  | .i2c k => k < 4
  | _ => True

theorem blkOk_none : ∀ z ∈ (none : Option (Blk × Nat)), BlkOk z.1 := nofun

theorem blkOk_some {b : Blk} (o : Nat) (h : BlkOk b) : ∀ z ∈ some (b, o), BlkOk z.1 := by
  rintro _ ⟨⟩
  exact h

theorem locateIsland_blkOk {n : Nat} (hn : n < 16) (o : Nat) : ∀ z ∈ locateIsland n o, BlkOk z.1 :=
  forall_some_ite (fun _ => forall_some_ite (fun _ => blkOk_some _ (by simp only [BlkOk]; omega)) fun _ => blkOk_none) fun _ =>
  forall_some_ite (fun _ => blkOk_none) fun _ => forall_some_ite (fun _ => blkOk_some _ (by simp only [BlkOk]; omega)) fun _ =>
  forall_some_ite (fun _ => blkOk_none) fun _ => forall_some_ite (fun _ => blkOk_some _ (by simp only [BlkOk]; omega)) fun _ =>
  forall_some_ite (fun _ => blkOk_none) fun _ => forall_some_ite (fun _ => blkOk_some _ (by simp only [BlkOk]; omega)) fun _ =>
  forall_some_ite (fun _ => blkOk_none) fun _ => forall_some_ite (fun _ => blkOk_some _ (by simp only [BlkOk]; omega)) fun _ =>
  forall_some_ite (fun _ => blkOk_none) fun _ => forall_some_ite (fun _ => blkOk_some _ (by simp only [BlkOk]; omega)) fun _ =>
  forall_some_ite (fun _ => blkOk_none) fun _ => forall_some_ite (fun _ => blkOk_some _ (by simp only [BlkOk]; omega)) fun _ =>
  forall_some_ite (fun _ => blkOk_none) fun _ => forall_some_ite (fun _ => blkOk_some _ (by simp only [BlkOk]; omega)) fun _ =>
  forall_some_ite (fun _ => blkOk_some _ (by simp only [BlkOk]; omega)) fun _ => blkOk_none

theorem locateSys_blkOk (o : Nat) : ∀ z ∈ locateSys o, BlkOk z.1 :=
  forall_some_ite (fun _ => blkOk_some _ trivial) fun _ => forall_some_ite (fun _ => blkOk_some _ (by simp only [BlkOk]; omega)) fun _ =>
  forall_some_ite (fun _ => blkOk_some _ (by simp only [BlkOk]; omega)) fun _ => forall_some_ite (fun _ => blkOk_some _ trivial) fun _ =>
  blkOk_none

theorem locateSerial_blkOk (o : Nat) : ∀ z ∈ locateSerial o, BlkOk z.1 :=
  forall_some_ite (fun _ => blkOk_some _ (by simp only [BlkOk]; omega)) fun _ => forall_some_ite (fun _ => blkOk_some _ (by simp only [BlkOk]; omega)) fun _ =>
  forall_some_ite (fun _ => blkOk_some _ (by simp only [BlkOk]; omega)) fun _ => forall_some_ite (fun _ => blkOk_some _ (by simp only [BlkOk]; omega)) fun _ =>
  forall_some_ite (fun _ => blkOk_some _ trivial) fun _ => blkOk_none

theorem locate_blkOk {a : Nat} {b : Blk} {o : Nat} (h : locate a = some (b, o)) : BlkOk b := by
  have place : ∀ z ∈ locate a, BlkOk z.1 := by
    unfold locate
    dsimp only
    refine forall_some_ite (fun island => locateIsland_blkOk (by omega) _) (fun _ => ?_)
    split
    case h_6 => exact locateSerial_blkOk _
    case h_14 => exact locateSys_blkOk _
    case h_15 => exact blkOk_none
    all_goals exact blkOk_some _ trivial
  exact place _ h

theorem State.ssiArrive_regsIn (s : State) {n q : Nat} (hn : n < 16) (hq : q < 2) (d : Nat) :
    RegsIn eqStatusReg s (s.ssiArrive n q d) := by
  unfold State.ssiArrive
  dsimp only
  exact .ite (.refl _ s) (.ite (s.flag_regsIn ⟨n, q, hn, hq, rfl⟩ 3) (.of_regs rfl _))

theorem State.ssiArrivals_regsIn (s : State) (d : Nat) (named : Nat → Nat → Word → Bool) :
    RegsIn eqStatusReg s (s.ssiArrivals d named) := by
  refine RegsIn.foldl _ s fun u hu t => ?_
  obtain ⟨e, -, he⟩ := List.mem_filterMap.mp hu
  split at he
  case h_1 n q found =>
    split at he
    · simp only [Option.some.injEq] at he
      subst he
      obtain ⟨hn, hq⟩ : n < 16 ∧ q < 2 := locate_blkOk found
      exact t.ssiArrive_regsIn hn hq d
    · simp at he
  case h_2 => simp at he

/-! ### Events of a timer unit that no coupling waits for -/

section
variable (s : State) (n k : Nat) {e : Nat} (quiet : evtOfEvent e = none)
include quiet

theorem State.fireTu_of_quiet : s.fireTu n k e =
    ((s.fireIsland n (0x60 + 16 * k + e)).enqueue (s.directTriggers n k e)).ssiArrivals 2
      (fun n' _ v => n' == n && trigTu v == some (k, e)) := by
  unfold State.fireTu
  simp only [quiet]

theorem State.fireTu_quiet_touch : Touch 0x100000080007 s (s.fireTu n k e) := by
  rw [State.fireTu_of_quiet s n k quiet]
  exact Touch.of State.fireIsland_touch |>.then State.enqueue_touch |>.then State.ssiArrivals_touch

theorem State.fireTu_quiet_regsIn : RegsIn eqStatusReg s (s.fireTu n k e) := by
  rw [State.fireTu_of_quiet s n k quiet]
  exact (State.fireIsland_touch.regsIn _).trans ((State.enqueue_touch.regsIn _).trans (State.ssiArrivals_regsIn _ _ _))

theorem State.fireTu_quiet_dueGrows : DueGrows s (s.fireTu n k e) := by
  rw [State.fireTu_of_quiet s n k quiet]
  exact (s.fire_dueGrows _).trans ((State.enqueue_dueGrows _ _).trans State.ssiArrivals_touch.dueGrows)

end

/-! ### System holds (R177, R178) -/

/-- The registers that a hold of unit (n, k) writes. -/
def holdReg (n k a : Nat) : Prop := a = R.TU_STATUS n k ∨ a = R.TU_TRIP_STATE n k ∨ eqStatusReg a

section
variable (s : State) (n k cause : Nat)

theorem State.sysHold_touch' : Touch 0x100000080007 s (s.sysHold n k cause) :=
  Touch.ite .refl
    (Touch.of State.flag_touch |>.then (State.fireTu_quiet_touch _ n k (e := 4) rfl) |>.then State.setRb_touch)
    |>.then State.setRb_touch

theorem State.sysHold_regsIn : RegsIn (holdReg n k) s (s.sysHold n k cause) := by
  unfold State.sysHold
  dsimp only
  refine RegsIn.trans (.ite (.refl _ s) ?_) (State.setReg_regsIn _ (.inr (.inl rfl)) _)
  refine (s.flag_regsIn (.inl rfl) 3).trans (RegsIn.trans ?_ (State.setReg_regsIn _ (.inr (.inl rfl)) _))
  exact (State.fireTu_quiet_regsIn _ n k (e := 4) rfl).mono fun _ h => .inr (.inr h)

theorem State.sysHold_dueGrows : DueGrows s (s.sysHold n k cause) := by
  unfold State.sysHold
  dsimp only
  refine DueGrows.trans (.ite (.refl s) ?_) State.setRb_touch.dueGrows
  exact (DueGrows.trans State.flag_touch.dueGrows (State.fireTu_quiet_dueGrows _ n k (e := 4) rfl)).trans
    State.setRb_touch.dueGrows

theorem State.rb_setRb_of_lt (s : State) (a i : Nat) (b : Bool) (c : Nat) {j : Nat} (h : j < 32) :
    (s.setRb a i b).rb c j = if c = a ∧ j = i then b else s.rb c j := by
  rw [State.setRb, State.rb_setReg, bit_setBit _ _ _ _ h]
  by_cases hc : c = a
  · by_cases hj : j = i
    · simp [hc, hj]
    · simp [hc, hj, State.rb]
  · simp [hc]

end

theorem TU_TRIP_STATE_not_eqStatus {n k : Nat} (hk : k < 4) : ¬ eqStatusReg (R.TU_TRIP_STATE n k) := by
  rintro ⟨m, q, -, hq, e⟩
  unfold R.TU_TRIP_STATE R.EQ_STATUS at e
  omega

theorem TU_TRIP_STATE_ne_STATUS (n k m j : Nat) : R.TU_TRIP_STATE n k ≠ R.TU_STATUS m j := by
  unfold R.TU_TRIP_STATE R.TU_STATUS
  omega

/-- What a hold does before it enters its own cause: the unit is held. -/
def State.sysEntered (s : State) (n k : Nat) : State :=
  if s.rb (R.TU_TRIP_STATE n k) 16 then s
  else ((s.flag (R.TU_STATUS n k) 3).fireTu n k 4).setRb (R.TU_TRIP_STATE n k) 16 true

theorem State.sysHold_eq (s : State) (n k cause : Nat) :
    s.sysHold n k cause = (s.sysEntered n k).setRb (R.TU_TRIP_STATE n k) cause true := rfl

theorem State.sysEntered_held (s : State) (n k : Nat) : (s.sysEntered n k).rb (R.TU_TRIP_STATE n k) 16 = true := by
  unfold State.sysEntered
  split
  · assumption
  · exact State.rb_setRb_self _ (by decide) true

/-- A hold clears no bit of a TU_TRIP_STATE. -/
theorem State.sysEntered_keeps {s : State} {n k m j i : Nat} (hj : j < 4) (hi : i < 32)
    (h : s.rb (R.TU_TRIP_STATE m j) i = true) : (s.sysEntered n k).rb (R.TU_TRIP_STATE m j) i = true := by
  unfold State.sysEntered
  split
  · exact h
  · rw [State.rb_setRb_of_lt _ _ _ _ _ hi]
    split
    · rfl
    · rw [(State.fireTu_quiet_regsIn _ n k (e := 4) rfl).rb_eq (TU_TRIP_STATE_not_eqStatus hj),
        (s.flag_regsSet _ _).rb_eq (by simp [TU_TRIP_STATE_ne_STATUS])]
      exact h

theorem State.sysHold_keeps {s : State} {n k cause m j i : Nat} (hj : j < 4) (hi : i < 32)
    (h : s.rb (R.TU_TRIP_STATE m j) i = true) : (s.sysHold n k cause).rb (R.TU_TRIP_STATE m j) i = true := by
  rw [State.sysHold_eq, State.rb_setRb_of_lt _ _ _ _ _ hi]
  split
  · rfl
  · exact State.sysEntered_keeps hj hi h

theorem State.sysHold_held (s : State) (n k : Nat) {cause : Nat} (hc : cause < 32) :
    (s.sysHold n k cause).rb (R.TU_TRIP_STATE n k) 16 = true
      ∧ (s.sysHold n k cause).rb (R.TU_TRIP_STATE n k) cause = true := by
  rw [State.sysHold_eq]
  refine ⟨?_, State.rb_setRb_self _ hc true⟩
  rw [State.rb_setRb_of_lt _ _ _ _ _ (by decide)]
  split
  · rfl
  · exact s.sysEntered_held n k

theorem State.holdUnits_cons (s : State) (u : Nat × Nat) (l : List (Nat × Nat)) (cause : Nat) :
    s.holdUnits (u :: l) cause = (s.sysHold u.1 u.2 cause).holdUnits l cause := rfl

theorem State.holdUnits_keeps {m j i cause : Nat} (hj : j < 4) (hi : i < 32) (l : List (Nat × Nat)) : ∀ {s : State},
    s.rb (R.TU_TRIP_STATE m j) i = true → (s.holdUnits l cause).rb (R.TU_TRIP_STATE m j) i = true := by
  induction l with
  | nil => exact fun h => h
  | cons u l ih =>
    intro s h
    rw [State.holdUnits_cons]
    exact ih (State.sysHold_keeps hj hi h)

/-- Every unit of the list is held for the cause. -/
theorem State.holdUnits_held {n k cause : Nat} (hk : k < 4) (hc : cause < 32) (l : List (Nat × Nat)) : ∀ {s : State},
    (n, k) ∈ l → (s.holdUnits l cause).rb (R.TU_TRIP_STATE n k) 16 = true
      ∧ (s.holdUnits l cause).rb (R.TU_TRIP_STATE n k) cause = true := by
  induction l with
  | nil => exact fun h => absurd h List.not_mem_nil
  | cons u l ih =>
    intro s h
    rw [State.holdUnits_cons]
    rcases List.mem_cons.mp h with rfl | later
    · obtain ⟨held, named⟩ := s.sysHold_held n k hc
      exact ⟨State.holdUnits_keeps hk (by decide) l held, State.holdUnits_keeps hk hc l named⟩
    · exact ih later

theorem State.holdUnits_dueGrows (s : State) (l : List (Nat × Nat)) (cause : Nat) : DueGrows s (s.holdUnits l cause) := by
  unfold State.holdUnits
  exact DueGrows.foldl (fun _ _ => State.sysHold_dueGrows _ _ _ _) l s

theorem State.holdUnits_touch' (s : State) (l : List (Nat × Nat)) (cause : Nat) :
    Touch 0x100000080007 s (s.holdUnits l cause) := by
  unfold State.holdUnits
  exact .foldl fun _ _ => State.sysHold_touch' _ _ _ _

/-- The registers that a hold of any unit writes. -/
def anyHoldReg (a : Nat) : Prop := (∃ n k, a = R.TU_STATUS n k ∨ a = R.TU_TRIP_STATE n k) ∨ eqStatusReg a

theorem State.holdUnits_regsIn (s : State) (l : List (Nat × Nat)) (cause : Nat) :
    RegsIn anyHoldReg s (s.holdUnits l cause) := by
  refine RegsIn.foldl l s fun u _ t => (t.sysHold_regsIn u.1 u.2 cause).mono fun a h => ?_
  rcases h with h | h | h
  · exact .inl ⟨_, _, .inl h⟩
  · exact .inl ⟨_, _, .inr h⟩
  · exact .inr h

theorem mem_allUnits {n k : Nat} (hn : n < 16) (hk : k < 4) : (n, k) ∈ allUnits :=
  List.mem_map.mpr ⟨4 * n + k, List.mem_range.mpr (by omega), by simp; omega⟩

theorem State.mem_liveUnits {s : State} {n k : Nat} (hn : n < 16) (hk : k < 4) (runs : s.islandRuns n = true) :
    (n, k) ∈ s.liveUnits := List.mem_filter.mpr ⟨mem_allUnits hn hk, runs⟩

end Sys2Proof.Machine
end

section
/-!
Links, the clock, PLLs and the supply (R13, R34, R446, R501).
-/
set_option Elab.async false
namespace Sys2Proof.Machine
open Sys2Proof

/-! ### The records of the links -/

@[simp] theorem State.link_setLink (s : State) (l : Nat) (r : LinkRec) (k : Nat) :
    (s.setLink l r).link k = if k = l then r else s.link k := Store.get_set _ _

theorem State.link_congr {s t : State} (h : t.links = s.links) (k : Nat) : t.link k = s.link k :=
  congrArg (Store.get _ k) h

/-! ### A fault of the fabric -/

theorem State.fabFault_flag_of_lt (s : State) {seg flag obj island number : Nat} {isGlobal : Bool} (h : 16 ≤ seg)
    (hf : flag < 32) : (s.fabFault seg flag obj isGlobal island number).rb R.FB_STATUS flag = true := by
  have central : ¬ seg < 16 := by omega
  unfold State.fabFault
  dsimp only
  rw [if_neg central, State.rb_setReg, if_neg (by decide)]
  exact State.rb_flag_self _ _ _ hf

/-- A fault sets no other flag of FB_STATUS. -/
theorem State.fabFault_keeps_flag (s : State) {seg flag obj island number i : Nat} {isGlobal : Bool} (hi : i < 23)
    (hf : flag < 32) (ne : i ≠ flag) :
    (s.fabFault seg flag obj isGlobal island number).rb R.FB_STATUS i = s.rb R.FB_STATUS i := by
  have apart : ∀ b, b = R.FI_STATUS seg ∨ b = R.FI_FAULT_INFO seg → seg < 16 → R.FB_STATUS ≠ b := by
    rintro b (rfl | rfl) h <;> unfold R.FB_STATUS
    · unfold R.FI_STATUS
      omega
    · unfold R.FI_FAULT_INFO
      omega
  unfold State.fabFault
  dsimp only
  split
  case isTrue h =>
    rw [State.rb_setReg, if_neg (apart _ (.inr rfl) h)]
    exact congrArg (bit · i) (State.flag_regsBut _ _ _ _ (by simpa using apart _ (.inl rfl) h))
  case isFalse =>
    rw [State.rb_setReg, if_neg (by decide), State.rb_flag_other _ _ _ _ hf hi ne]

theorem State.heldReport_keeps_flag (s o : State) (n : Nat) {i : Nat} (hi : i < 23) (ne : i ≠ 7) :
    (s.heldReport o n).rb R.FB_STATUS i = s.rb R.FB_STATUS i := by
  unfold State.heldReport
  generalize s.pennantsSet.filter _ = l
  induction l generalizing s with
  | nil => rfl
  | cons p l ih =>
    rw [List.foldl_cons, ih]
    exact s.fabFault_keeps_flag hi (by decide) ne

/-! ### LINK_TIMEOUT and LINK_RESET -/

theorem exec_linkTimeout (l : Fin 32) (s : State) : exec (.linkTimeout l) s = .next (s.linkTimeout l.val) := rfl

section
variable {s : State} {l : Nat}

theorem State.linkTimeout_of_fresh (timely : (s.link l).timedOut = false) (kept : (s.link l).retired = false) :
    s.linkTimeout l = ((s.setLink l { s.link l with timedOut := true }).fabFault 16 8 3 false (l % 16) l).heldReport s 16 :=
  if_neg (by simp [timely, kept])

theorem State.linkTimeout_of_gone (h : (s.link l).timedOut = true ∨ (s.link l).retired = true) : s.linkTimeout l = s :=
  if_pos (by simpa using h)

theorem State.linkTimeout_links (timely : (s.link l).timedOut = false) (kept : (s.link l).retired = false) :
    (s.linkTimeout l).links = (s.setLink l ⟨true, false⟩).links := by
  have record : { s.link l with timedOut := true } = (⟨true, false⟩ : LinkRec) := by rw [← kept]
  rw [State.linkTimeout_of_fresh timely kept, record]
  exact (State.heldReport_touch.same_part .links).trans (State.fabFault_touch.same_part .links)

theorem State.linkTimeout_flag (timely : (s.link l).timedOut = false) (kept : (s.link l).retired = false) :
    (s.linkTimeout l).rb R.FB_STATUS 8 = true := by
  rw [State.linkTimeout_of_fresh timely kept, State.heldReport_keeps_flag _ _ _ (by decide) (by decide)]
  exact State.fabFault_flag_of_lt _ (by decide) (by decide)

theorem State.linkReset_of_timedOut (h : (s.link l).timedOut = true) (passed : Bool) :
    s.linkReset l passed = ((s.setLink l ⟨false, !passed⟩).report (linkSource l) (linkSource l)
      (if passed then 0x14 else 0x15) 0#32).refreshPennants := if_neg (by simp [h])

end

/-! ### The clock -/

theorem State.clockFaultOn_of_good {s : State} (h : s.clk.clockFault = false) : s.clockFaultOn =
    if s.rb R.FC_CTRL 31 then
      ((s.setClk { s.clk with clockFault := true }).report 0x118 0x118 0x18 0#32).holdUnits s.liveUnits 21
    else (s.setClk { s.clk with clockFault := true }).report 0x118 0x118 0x18 0#32 := if_neg (by simp [h])

theorem State.clockFaultOff_of_faulty {s : State} (h : s.clk.clockFault = true) :
    s.clockFaultOff = (s.setClk { s.clk with clockFault := false }).conditionEnded 0x118 := if_pos h

/-! ### The end of a condition, again -/

theorem State.setFaultRec_faults (s : State) (x : Nat) (r : FaultRec) :
    (s.setFaultRec x r).faults = (s.putFaultRec x r.settled).faults := by
  rw [State.setFaultRec_eq]
  refine (State.faultN_touch.same_part .faults).trans ?_
  split
  · exact State.flag_faults _ _ _
  · rfl

theorem State.faultRec_putFaultRec (s : State) (x : Nat) (r : FaultRec) (y : Nat) :
    (s.putFaultRec x r).faultRec y = if y = x then r else s.faultRec y := Store.get_set _ _

theorem State.faultRec_congr {s t : State} (h : t.faults = s.faults) (y : Nat) : t.faultRec y = s.faultRec y :=
  by
  unfold State.faultRec
  rw [h]

theorem State.faultRec_setFaultRec (s : State) (x : Nat) (r : FaultRec) (y : Nat) :
    (s.setFaultRec x r).faultRec y = if y = x then r.settled else s.faultRec y := by
  rw [State.faultRec_congr (s.setFaultRec_faults x r), State.faultRec_putFaultRec]

theorem FaultRec.settled_active (r : FaultRec) : r.settled.active = r.active := by
  unfold FaultRec.settled
  split <;> rfl

/-- A condition that has ended is not active. -/
theorem State.conditionEnded_active (s : State) (x : Nat) : ((s.conditionEnded x).faultRec x).active = false := by
  unfold State.conditionEnded
  dsimp only
  split
  · rw [State.faultRec_setFaultRec, if_pos rfl, FaultRec.settled_active]
  case isFalse h => simpa using h

/-- It touches the records alone. -/
theorem State.conditionEnded_rails (s : State) (x : Nat) : (s.conditionEnded x).faults.rails = s.faults.rails := by
  unfold State.conditionEnded
  dsimp only
  split
  · rw [State.setFaultRec_faults]
    rfl
  · rfl

/-! ### PLL_UNLOCK -/

/-- The island without its count, where it had one. -/
def State.countDropped (s : State) (n : Nat) : State := if s.synced n then s.syncLost n else s

theorem State.pllUnlock_of_locked {s : State} {n : Nat} (runs : s.islandRuns n = true)
    (locked : s.rb (R.IC_STATE n) 31 = true) : s.pllUnlock n =
      (((s.countDropped n).setRb (R.IC_STATE n) 31 false).report (0xC0 + n) (0xC0 + n) 0x17 0#32).holdUnits (unitsOf n) 21 :=
  if_neg (by simp [runs, locked])

theorem State.countDropped_synced (s : State) (n : Fin 16) : (s.countDropped n.val).synced n.val = false := by
  unfold State.countDropped
  split
  · exact (s.syncLost_effect n).1
  · simpa using ‹¬ s.synced n.val = true›

theorem IC_STATE_not_holdReg (n : Nat) : ¬ anyHoldReg (R.IC_STATE n) := by
  rintro (⟨m, k, h | h⟩ | ⟨m, q, -, -, h⟩)
  · unfold R.IC_STATE R.TU_STATUS at h
    omega
  · unfold R.IC_STATE R.TU_TRIP_STATE at h
    omega
  · unfold R.IC_STATE R.EQ_STATUS at h
    omega

theorem TB_ISLAND_SYNC_not_holdReg : ¬ anyHoldReg R.TB_ISLAND_SYNC := by
  rintro (⟨m, k, h | h⟩ | ⟨m, q, hm, hq, h⟩)
  · unfold R.TB_ISLAND_SYNC R.TU_STATUS at h
    omega
  · unfold R.TB_ISLAND_SYNC R.TU_TRIP_STATE at h
    omega
  · unfold R.TB_ISLAND_SYNC R.EQ_STATUS at h
    omega

theorem pllUnlock_effect {s : State} {n : Fin 16} (runs : s.islandRuns n.val = true)
    (locked : s.rb (R.IC_STATE n.val) 31 = true) :
    ∃ t, exec (.pllUnlock n) s = .next t
      ∧ t.rb (R.IC_STATE n.val) 31 = false
      ∧ t.synced n.val = false
      ∧ (∀ k : Fin 4, t.rb (R.TU_TRIP_STATE n.val k.val) 16 = true ∧ t.rb (R.TU_TRIP_STATE n.val k.val) 21 = true)
      ∧ (.faultReport (Fin.ofNat 8192 (0xC0 + n.val)) (Fin.ofNat 8192 (0xC0 + n.val)) 0x17 0#32 : Instr) ∈ t.due
      ∧ SameBut [.regs, .scCount, .ep, .eqs, .due, .pulses] s t := by
  have run : exec (.pllUnlock n) s = .next (s.pllUnlock n.val) := rfl
  rw [State.pllUnlock_of_locked runs locked] at run
  have dropped : SameBut [.regs, .scCount, .ep, .eqs, .due, .pulses] s (s.countDropped n.val) := by
    unfold State.countDropped
    split
    · exact State.syncLost_touch.sameBut
    · exact .refl _ s
  have unsynced := s.countDropped_synced n
  generalize s.countDropped n.val = u at *
  have regs := State.holdUnits_regsIn
    ((u.setRb (R.IC_STATE n.val) 31 false).report (0xC0 + n.val) (0xC0 + n.val) 0x17 0#32) (unitsOf n.val) 21
  refine ⟨_, run, ?_, ?_, fun k => ?_, ?_, ?_⟩
  · exact (regs.rb_eq (IC_STATE_not_holdReg _) 31).trans (u.rb_setRb_self (by decide) false)
  · refine (regs.rb_eq TB_ISLAND_SYNC_not_holdReg n.val).trans (Eq.trans ?_ unsynced)
    exact congrArg (bit · n.val) (State.setReg_regsBut _ _ _ _ (by simpa using (IC_STATE_ne _ _ (by decide) n.isLt).symm))
  · exact State.holdUnits_held k.isLt (by decide) _ (List.mem_map.mpr ⟨k.val, List.mem_range.mpr k.isLt, rfl⟩)
  · exact (State.holdUnits_dueGrows _ _ _).mem (List.mem_append_right _ (by simp))
  · exact ((dropped.touch State.setRb_touch).touch State.report_touch).touch (State.holdUnits_touch' _ _ _)

theorem State.refreshPennants_dueGrows (s : State) : DueGrows s s.refreshPennants := State.enqueue_dueGrows _ _

theorem clockFault_effect {s : State} (on : s.device ≠ .backup) (good : s.clk.clockFault = false) :
    ∃ t, exec .clockFault s = .next t
      ∧ t.clk.clockFault = true
      ∧ t.clk.beat = s.clk.beat
      ∧ t.due.take (s.due.length + 1) =
          s.due ++ [.faultReport (Fin.ofNat 8192 (0x118)) (Fin.ofNat 8192 (0x118)) 0x18 0#32]
      ∧ (s.rb R.FC_CTRL 31 = false → RegsBut [] s t)
      ∧ (s.rb R.FC_CTRL 31 = true → ∀ (n : Fin 16) (k : Fin 4), s.islandRuns n.val = true →
          t.rb (R.TU_TRIP_STATE n.val k.val) 16 = true ∧ t.rb (R.TU_TRIP_STATE n.val k.val) 21 = true)
      ∧ SameBut [.regs, .scCount, .clk, .eqs, .due, .pulses] s t := by
  have run : exec .clockFault s = .next s.clockFaultOn := congrArg _ (if_neg on)
  rw [State.clockFaultOn_of_good good] at run
  have faulty : SameBut [.regs, .scCount, .clk, .eqs, .due, .pulses] s (s.setClk { s.clk with clockFault := true }) :=
    (s.setClk_sameBut _).mono (by decide)
  have reported := faulty.touch (State.report_touch (source := 0x118) (reporter := 0x118) (cause := 0x18) (detail := 0#32))
  by_cases holds : s.rb R.FC_CTRL 31 = true
  · rw [if_pos holds] at run
    have hold := State.holdUnits_touch' ((s.setClk { s.clk with clockFault := true }).report 0x118 0x118 0x18 0#32)
      s.liveUnits 21
    have clk := hold.same_part .clk
    refine ⟨_, run, (congrArg ClockState.clockFault clk).trans rfl, (congrArg ClockState.beat clk).trans rfl,
      DueGrows.take_of_report (s := s.setClk { s.clk with clockFault := true }) (State.holdUnits_dueGrows _ _ _), fun off => ?_, fun _ n k runs => ?_, reported.touch hold⟩
    · simp [holds] at off
    · exact State.holdUnits_held k.isLt (by decide) _ (State.mem_liveUnits n.isLt k.isLt runs)
  · rw [if_neg holds] at run
    exact ⟨_, run, rfl, rfl, DueGrows.take_of_report (DueGrows.refl _), fun _ _ _ => rfl, fun h => absurd h holds, reported⟩

/-! ### The supply -/

/-- A rail noted. -/
def State.railNoted (s : State) (r : Fin 16) : State := { s with faults := { s.faults with rails := s.faults.rails ++ [r] } }

theorem State.railNoted_sameBut (s : State) (r : Fin 16) : SameBut [.faults] s (s.railNoted r) := by
  intro p hp
  cases p
  case faults => exact absurd hp (by decide)
  all_goals rfl

theorem State.supplyFault_of_outside {s : State} {r : Fin 16} {mv : Word} (listed : r.val < 11)
    (fresh : s.faults.rails.contains r = false) (on : s.device ≠ .backup) (outside : railOutside r.val mv.toNat = true) :
    s.supplyFault r mv =
      if s.rb R.FC_CTRL 28 then ((s.railNoted r).report (0x120 + r.val) (0x120 + r.val) 0x19 mv).holdUnits s.liveUnits 22
      else (s.railNoted r).report (0x120 + r.val) (0x120 + r.val) 0x19 mv := by
  have few : ¬ railCount ≤ r.val := by
    show ¬ 11 ≤ r.val
    omega
  exact if_neg (by simp [few, fresh, on, outside, -List.contains_eq_mem])

theorem supplyFault_effect {s : State} {rail : Fin 16} {mv : Word} (listed : rail.val < 11)
    (fresh : s.faults.rails.contains rail = false) (on : s.device ≠ .backup)
    (outside : railOutside rail.val mv.toNat = true) :
    ∃ t, exec (.supplyFault rail mv) s = .next t
      ∧ t.faults.rails = s.faults.rails ++ [rail]
      ∧ t.due.take (s.due.length + 1) =
          s.due ++ [.faultReport (Fin.ofNat 8192 (0x120 + rail.val)) (Fin.ofNat 8192 (0x120 + rail.val)) 0x19 mv]
      ∧ (s.rb R.FC_CTRL 28 = false → RegsBut [] s t)
      ∧ (s.rb R.FC_CTRL 28 = true → ∀ (n : Fin 16) (k : Fin 4), s.islandRuns n.val = true →
          t.rb (R.TU_TRIP_STATE n.val k.val) 16 = true ∧ t.rb (R.TU_TRIP_STATE n.val k.val) 22 = true)
      ∧ SameBut [.regs, .scCount, .faults, .eqs, .due, .pulses] s t := by
  have run : exec (.supplyFault rail mv) s = .next (s.supplyFault rail mv) := rfl
  rw [State.supplyFault_of_outside listed fresh on outside] at run
  have noted : SameBut [.regs, .scCount, .faults, .eqs, .due, .pulses] s (s.railNoted rail) :=
    (s.railNoted_sameBut rail).mono (by decide)
  have reported := noted.touch (State.report_touch (source := 0x120 + rail.val) (reporter := 0x120 + rail.val)
    (cause := 0x19) (detail := mv))
  by_cases holds : s.rb R.FC_CTRL 28 = true
  · rw [if_pos holds] at run
    have hold := State.holdUnits_touch' ((s.railNoted rail).report (0x120 + rail.val) (0x120 + rail.val) 0x19 mv)
      s.liveUnits 22
    refine ⟨_, run, congrArg FaultState.rails (hold.same_part .faults), DueGrows.take_of_report (s := s.railNoted rail) (State.holdUnits_dueGrows _ _ _),
      fun off => ?_, fun _ n k runs => ?_, reported.touch hold⟩
    · simp [holds] at off
    · exact State.holdUnits_held k.isLt (by decide) _ (State.mem_liveUnits n.isLt k.isLt runs)
  · rw [if_neg holds] at run
    exact ⟨_, run, rfl, DueGrows.take_of_report (DueGrows.refl _), fun _ _ _ => rfl, fun h => absurd h holds, reported⟩

theorem State.supplyFault_of_inside {s : State} {r : Fin 16} {mv : Word} (inside : railOutside r.val mv.toNat = false) :
    s.supplyFault r mv = s := if_pos (by simp [inside])

theorem supplyRecovered_effect {s : State} {rail : Fin 16} (noted : s.faults.rails.contains rail = true) :
    ∃ t, exec (.supplyRecovered rail) s = .next t
      ∧ t.faults.rails.contains rail = false
      ∧ (∀ k : Fin 16, k ≠ rail → t.faults.rails.contains k = s.faults.rails.contains k)
      ∧ SameBut [.regs, .scCount, .faults, .fab, .due] s t := by
  have run : exec (.supplyRecovered rail) s = .next (s.supplyRecovered rail) := rfl
  have rest : SameBut [.regs, .scCount, .faults, .fab, .due] s (s.supplyRecovered rail) := State.supplyRecovered_touch.sameBut
  have rails : (s.supplyRecovered rail).faults.rails = s.faults.rails.filter (fun x => x != rail) := by
    rw [State.supplyRecovered, if_pos noted]
    exact State.conditionEnded_rails _ _
  refine ⟨_, run, ?_, fun k ne => ?_, rest⟩
  · rw [rails]
    simp
  · rw [rails]
    simp [ne]

/-- Settles O23, clause by clause: a record of the links, a hold of the running units, or the record of the condition
that has ended. -/
theorem linkClockAndSupplyFaults : Obligations.LinkClockAndSupplyFaults := by
  refine ⟨fun l s timely kept => ?_, fun l s gone => congrArg _ (State.linkTimeout_of_gone gone), fun l passed s out => ?_,
    fun s on good => clockFault_effect on good, fun s faulty => ?_, fun n s runs locked => pllUnlock_effect runs locked,
    fun rail mv s listed fresh on outside => supplyFault_effect listed fresh on outside,
    fun rail mv s inside => congrArg _ (State.supplyFault_of_inside inside),
    fun rail s noted => supplyRecovered_effect noted⟩
  · have record : ∀ k, (s.linkTimeout l.val).link k = if k = l.val then ⟨true, false⟩ else s.link k := fun k =>
      (State.link_congr (State.linkTimeout_links timely kept) k).trans (State.link_setLink _ _ _ _)
    exact ⟨_, exec_linkTimeout l s, (record _).trans (if_pos rfl),
      fun k ne => (record _).trans (if_neg fun e => ne (Fin.ext e)), State.linkTimeout_flag timely kept,
      State.linkTimeout_touch.sameBut⟩
  · have run : exec (.linkReset l passed) s = .next (s.linkReset l.val passed) := rfl
    have rest : SameBut [.links, .due] s (s.linkReset l.val passed) := State.linkReset_touch.sameBut
    rw [State.linkReset_of_timedOut out] at run rest
    have grown := (State.refreshPennants_dueGrows ((s.setLink l.val ⟨false, !passed⟩).report (linkSource l.val)
      (linkSource l.val) (if passed then 0x14 else 0x15) 0#32)).take_of_report
    refine ⟨_, run, (State.link_setLink _ _ _ _).trans (if_pos rfl),
      fun k ne => (State.link_setLink _ _ _ _).trans (if_neg fun e => ne (Fin.ext e)), grown.trans ?_,
      rest.regsBut (by decide) _, rest⟩
    cases passed <;> rfl
  · have run : exec .clockFaultEnd s = .next s.clockFaultOff := rfl
    rw [State.clockFaultOff_of_faulty faulty] at run
    have ended := State.conditionEnded_touch (s := s.setClk { s.clk with clockFault := false }) (x := 0x118)
    have clk := ended.same_part .clk
    refine ⟨_, run, (congrArg ClockState.clockFault clk).trans rfl, (congrArg ClockState.beat clk).trans rfl,
      State.conditionEnded_active _ _, ?_⟩
    exact ((s.setClk_sameBut _).mono (by decide)).touch ended

end Sys2Proof.Machine
end

section
/-!
Refutations by a run, and the counts of island resets (R467).
-/
set_option Elab.async false
namespace Sys2Proof.Machine
open Sys2Proof

/-! ### Refutations by a run -/

/-- The state after a command, for a run that the kernel evaluates. -/
def State.after (s : State) (c : Instr) : State :=
  match exec c s with
  | .next t => t
  | _ => s

theorem State.after_eq {s t : State} {c : Instr} (h : exec c s = .next t) : t = s.after c := by
  rw [State.after, h]

/-- A device whose register file lists the reset counts of island 0 twice, which the canonical form excludes: a read finds
the first word, an island's reset restores each in turn and so keeps the second. -/
def countsListedTwice : State :=
  { Tests.base with regs := (R.IC_RESETS 0, 5#32) :: (R.IC_RESETS 0, 9#32) :: Tests.base.regs }

theorem countsListedTwice_writes :
    countsListedTwice.Writes .mp .pw (Tests.rowOf R.PW_ISLAND_RESET) R.PW_ISLAND_RESET := by
  constructor <;> decide +kernel

/-- Refutes O25: the statement holds of no listing of the register file with one register twice, which O4's canonical form
excludes and this statement does not. There PW_ISLAND_RESET_WRITE leaves IC_RESETS with the count 10, not 6. -/
theorem not_islandPowerCommands : ¬ Obligations.IslandPowerCommands := by
  rintro ⟨-, -, reset, -⟩
  obtain ⟨t, run, named, -⟩ := reset .mp 1#32 countsListedTwice _ countsListedTwice_writes
  obtain ⟨-, -, counted, -⟩ := named 0 (by decide) (by decide +kernel)
  rw [State.after_eq run] at counted
  exact absurd counted (by decide +kernel)

end Sys2Proof.Machine
end

section
/-!
Thermal levels (R474, R475).
-/
set_option Elab.async false
namespace Sys2Proof.Machine
open Sys2Proof

/-! ### Thermal levels (R474, R475) -/

@[simp] theorem State.setPow_reg (s : State) (p : PowerState) (a : Nat) : (s.setPow p).reg a = s.reg a := rfl

theorem State.setPow_regsIn (s : State) (p : PowerState) (P : Nat → Prop) : RegsIn P s (s.setPow p) := .of_regs rfl P

/-- Store the counts of a threshold. -/
def State.putThreshold (s : State) (k t : Nat) (y : ThreshRec) : State :=
  s.setPow { s.pow with thresholds := s.pow.thresholds.set (fun _ => .reset) (3 * k + t) y }

/-- The counts of a threshold after a sample. -/
def State.thresholdCounted (s : State) (k t : Nat) (temp : Int) : ThreshRec :=
  let r := s.pow.thresholds.get (fun _ => .reset) (3 * k + t)
  { r with
    up := if s.thermalThr k t ≤ temp then r.up + 1 else 0
    down := if temp < s.thermalThr k t - s.thermalHyst k then r.down + 1 else 0 }

/-- A level that rises, before what follows from it. -/
def State.levelRaised (s : State) (k t : Nat) (temp : Int) : State :=
  (s.putThreshold k t { s.thresholdCounted k t temp with lastRise := some s.absTick }).setRb (R.TH_Ss_STATE k) t true

/-- What follows from a rise of an enabled sensor. -/
def State.levelTold (s : State) (k t : Nat) : State :=
  if s.rb (R.TH_Ss_CFG k) 31 then
    let u := s.flag R.TH_STATUS t
    if t = 2 then u.critAction k else u
  else s

/-- A level that does not rise: it falls below the threshold less the hysteresis. -/
def State.levelKept (s : State) (k t : Nat) (temp : Int) : State :=
  let u := s.putThreshold k t (s.thresholdCounted k t temp)
  if s.rb (R.TH_Ss_STATE k) t && decide (temp < s.thermalThr k t - s.thermalHyst k) then
    u.setRb (R.TH_Ss_STATE k) t false
  else u

section
variable {s : State} {k : Nat} (dwell : s.thermalDwell k = 1) (hyst : 0 < s.thermalHyst k) (t : Nat) (temp : Int)
include dwell hyst

/-- With a dwell of one sample and a hysteresis, a level rises at its threshold. -/
theorem State.thermalLevel_eq : s.thermalLevel k t temp =
    if (!s.rb (R.TH_Ss_STATE k) t && decide (s.thermalThr k t ≤ temp)) = true then
      (s.levelRaised k t temp).levelTold k t
    else s.levelKept k t temp := by
  have counted : ∀ (c : Prop) [Decidable c] (n : Nat), decide (1 ≤ if c then n + 1 else 0) = decide c := by
    intro c _ n
    by_cases h : c <;> simp [h]
  have unlimited : (s.thermalHyst k == 0) = false := by
    simp only [beq_eq_false_iff_ne]
    omega
  simp only [State.thermalLevel, dwell, counted, unlimited, Bool.false_and, Bool.and_false, Bool.false_eq_true, if_false]
  rfl

end

theorem TH_Ss_STATE_ne_STATUS (k : Nat) : R.TH_Ss_STATE k ≠ R.TH_STATUS := by
  unfold R.TH_Ss_STATE R.TH_STATUS
  omega

theorem TH_Ss_STATE_ne_CFG (k j : Nat) : R.TH_Ss_CFG j ≠ R.TH_Ss_STATE k := by
  unfold R.TH_Ss_STATE R.TH_Ss_CFG
  omega

theorem TH_Ss_STATE_ne_THR (k j : Nat) : R.TH_Ss_THR j ≠ R.TH_Ss_STATE k := by
  unfold R.TH_Ss_STATE R.TH_Ss_THR
  omega

theorem TH_Ss_CFG_ne_STATUS (k : Nat) : R.TH_Ss_CFG k ≠ R.TH_STATUS := by
  unfold R.TH_Ss_CFG R.TH_STATUS
  omega

theorem TH_Ss_THR_ne_STATUS (k : Nat) : R.TH_Ss_THR k ≠ R.TH_STATUS := by
  unfold R.TH_Ss_THR R.TH_STATUS
  omega

/-- The level that a sample leaves. -/
def State.levelAfter (s : State) (k t : Nat) (temp : Int) : Bool :=
  if s.rb (R.TH_Ss_STATE k) t then decide (s.thermalThr k t - s.thermalHyst k ≤ temp) else decide (s.thermalThr k t ≤ temp)

section
variable (s : State) (k t : Nat) (temp : Int)

theorem State.levelRaised_regsSet : RegsSet [R.TH_Ss_STATE k] s (s.levelRaised k t temp) :=
  RegsIn.trans (.of_regs rfl _) (State.setRb_regsSet _ _ _ _)

theorem State.levelKept_regsSet : RegsSet [R.TH_Ss_STATE k] s (s.levelKept k t temp) :=
  .ite (RegsIn.trans (.of_regs rfl _) (State.setRb_regsSet _ _ _ _)) (.of_regs rfl _)

theorem State.levelRaised_state {i : Nat} (hi : i < 32) :
    (s.levelRaised k t temp).rb (R.TH_Ss_STATE k) i = if i = t then true else s.rb (R.TH_Ss_STATE k) i := by
  rw [State.levelRaised, State.rb_setRb_of_lt _ _ _ _ _ hi]
  simp [State.rb, State.putThreshold]

theorem State.levelKept_state {i : Nat} (hi : i < 32) : (s.levelKept k t temp).rb (R.TH_Ss_STATE k) i =
    if i = t then s.rb (R.TH_Ss_STATE k) t && decide (s.thermalThr k t - s.thermalHyst k ≤ temp)
    else s.rb (R.TH_Ss_STATE k) i := by
  have put : (s.putThreshold k t (s.thresholdCounted k t temp)).rb (R.TH_Ss_STATE k) i = s.rb (R.TH_Ss_STATE k) i := rfl
  unfold State.levelKept
  dsimp only
  by_cases falls : temp < s.thermalThr k t - s.thermalHyst k
  · have below : ¬ s.thermalThr k t - s.thermalHyst k ≤ temp := by omega
    cases high : s.rb (R.TH_Ss_STATE k) t
    · simp only [Bool.false_and, Bool.false_eq_true, if_false]
      rw [put]
      split
      case isTrue e => rw [e, high]
      case isFalse => rfl
    · simp only [falls, below, decide_true, Bool.and_self, if_true]
      rw [State.rb_setRb_of_lt _ _ _ _ _ hi, put]
      simp
  · have above : s.thermalThr k t - s.thermalHyst k ≤ temp := by omega
    simp only [falls, above, decide_false, Bool.and_false, Bool.false_eq_true, if_false, decide_true, Bool.and_true]
    rw [put]
    split
    case isTrue e => rw [e]
    case isFalse => rfl

variable {s k t}

/-- A sensor without an action, or a level other than CRIT, only sets its flag. -/
theorem State.levelTold_of_quiet (quiet : s.rf (R.TH_Ss_CFG k) 1 0 = 0 ∨ t ≠ 2) :
    s.levelTold k t = if s.rb (R.TH_Ss_CFG k) 31 then s.flag R.TH_STATUS t else s := by
  unfold State.levelTold
  split
  · dsimp only
    split
    case isTrue crit =>
      have idle : (s.flag R.TH_STATUS t).rf (R.TH_Ss_CFG k) 1 0 = 0 :=
        ((s.flag_regsSet _ _).rf_eq (by simp [TH_Ss_CFG_ne_STATUS]) 1 0).trans (quiet.resolve_right fun h => h crit)
      exact if_pos idle
    case isFalse => rfl
  · rfl

end

section
variable {s : State} {k : Nat} {t : Nat} {temp : Int} (dwell : s.thermalDwell k = 1) (hyst : 0 < s.thermalHyst k)
  (quiet : s.rf (R.TH_Ss_CFG k) 1 0 = 0 ∨ t ≠ 2)

theorem State.levelRaised_told (quiet : s.rf (R.TH_Ss_CFG k) 1 0 = 0 ∨ t ≠ 2) :
    (s.levelRaised k t temp).levelTold k t =
      if s.rb (R.TH_Ss_CFG k) 31 then (s.levelRaised k t temp).flag R.TH_STATUS t else s.levelRaised k t temp := by
  have same := s.levelRaised_regsSet k t temp
  have cfg : R.TH_Ss_CFG k ∉ [R.TH_Ss_STATE k] := by simp [TH_Ss_STATE_ne_CFG]
  rw [State.levelTold_of_quiet (by rwa [same.rf_eq cfg]), same.rb_eq cfg]

include dwell hyst

theorem State.thermalLevel_regsSet (quiet : s.rf (R.TH_Ss_CFG k) 1 0 = 0 ∨ t ≠ 2) :
    RegsSet [R.TH_Ss_STATE k, R.TH_STATUS] s (s.thermalLevel k t temp) := by
  have raised : RegsSet [R.TH_Ss_STATE k, R.TH_STATUS] s (s.levelRaised k t temp) :=
    (s.levelRaised_regsSet k t temp).mono (by simp)
  rw [State.thermalLevel_eq dwell hyst, State.levelRaised_told quiet]
  exact .ite (.ite (raised.trans ((State.flag_regsSet _ _ _).mono (by simp))) raised)
    ((s.levelKept_regsSet k t temp).mono (by simp))

theorem State.thermalLevel_sameBut (quiet : s.rf (R.TH_Ss_CFG k) 1 0 = 0 ∨ t ≠ 2) :
    SameBut [.regs, .scCount, .pow] s (s.thermalLevel k t temp) := by
  have raised : Touch 0x1000002 s (s.levelRaised k t temp) := Touch.of State.setPow_touch |>.then State.setRb_touch
  have kept : Touch 0x1000002 s (s.levelKept k t temp) :=
    .ite (Touch.of State.setPow_touch |>.then State.setRb_touch) (.of State.setPow_touch)
  rw [State.thermalLevel_eq dwell hyst, State.levelRaised_told quiet]
  split
  · split
    · exact raised.sameBut.touch State.flag_touch
    · exact raised.sameBut
  · exact kept.sameBut

theorem State.thermalLevel_state (quiet : s.rf (R.TH_Ss_CFG k) 1 0 = 0 ∨ t ≠ 2) {i : Nat} (hi : i < 32) :
    (s.thermalLevel k t temp).rb (R.TH_Ss_STATE k) i =
      if i = t then s.levelAfter k t temp else s.rb (R.TH_Ss_STATE k) i := by
  have flagged : ∀ u : State, (u.flag R.TH_STATUS t).rb (R.TH_Ss_STATE k) i = u.rb (R.TH_Ss_STATE k) i := fun u =>
    (u.flag_regsSet _ _).rb_eq (by simp [TH_Ss_STATE_ne_STATUS]) i
  rw [State.thermalLevel_eq dwell hyst, State.levelRaised_told quiet]
  unfold State.levelAfter
  cases level : s.rb (R.TH_Ss_STATE k) t
  · by_cases reached : s.thermalThr k t ≤ temp
    · simp only [Bool.not_false, reached, decide_true, Bool.and_self, if_true, Bool.false_eq_true, if_false]
      split
      · rw [flagged, State.levelRaised_state _ _ _ _ hi]
      · rw [State.levelRaised_state _ _ _ _ hi]
    · simp [reached, State.levelKept_state _ _ _ _ hi, level]
  · simp [State.levelKept_state _ _ _ _ hi, level]

/-- The rise of an enabled sensor's level sets its flag, and no level clears one. -/
theorem State.thermalLevel_flag (quiet : s.rf (R.TH_Ss_CFG k) 1 0 = 0 ∨ t ≠ 2) (ht : t < 23)
    (low : s.rb (R.TH_Ss_STATE k) t = false) (reached : s.thermalThr k t ≤ temp) (enabled : s.rb (R.TH_Ss_CFG k) 31 = true) :
    (s.thermalLevel k t temp).rb R.TH_STATUS t = true := by
  rw [State.thermalLevel_eq dwell hyst, State.levelRaised_told quiet, if_pos (by simp [low, reached]), if_pos enabled]
  exact State.rb_flag_self _ _ _ (by omega)

theorem State.thermalLevel_keeps_flag (quiet : s.rf (R.TH_Ss_CFG k) 1 0 = 0 ∨ t ≠ 2) {i : Nat} (hi : i < 23) (ht : t < 23)
    (set : s.rb R.TH_STATUS i = true) : (s.thermalLevel k t temp).rb R.TH_STATUS i = true := by
  have apart : R.TH_STATUS ∉ [R.TH_Ss_STATE k] := by simp [(TH_Ss_STATE_ne_STATUS k).symm]
  have raised : (s.levelRaised k t temp).rb R.TH_STATUS i = true :=
    ((s.levelRaised_regsSet k t temp).rb_eq apart i).trans set
  rw [State.thermalLevel_eq dwell hyst, State.levelRaised_told quiet]
  split
  · split
    · by_cases e : i = t
      · rw [e]
        exact State.rb_flag_self _ _ _ (by omega)
      · rw [State.rb_flag_other _ _ _ _ (by omega) hi e]
        exact raised
    · exact raised
  · exact ((s.levelKept_regsSet k t temp).rb_eq apart i).trans set

end

/-- What the levels of a sensor read beside its state. -/
structure SameSensor (k : Nat) (s t : State) : Prop where
  cfg : t.reg (R.TH_Ss_CFG k) = s.reg (R.TH_Ss_CFG k)
  thr : t.reg (R.TH_Ss_THR k) = s.reg (R.TH_Ss_THR k)

section
variable {k : Nat} {s u : State} (h : SameSensor k s u)
include h

theorem SameSensor.thermalThr_eq (t : Nat) : u.thermalThr k t = s.thermalThr k t := by
  unfold State.thermalThr State.rf
  rw [h.thr]

theorem SameSensor.thermalHyst_eq : u.thermalHyst k = s.thermalHyst k := by
  unfold State.thermalHyst State.rf
  rw [h.thr]

theorem SameSensor.thermalDwell_eq : u.thermalDwell k = s.thermalDwell k := by
  unfold State.thermalDwell State.rf
  rw [h.thr]

theorem SameSensor.rf_eq (i j : Nat) : u.rf (R.TH_Ss_CFG k) i j = s.rf (R.TH_Ss_CFG k) i j := congrArg (fld · i j) h.cfg

theorem SameSensor.rb_eq (i : Nat) : u.rb (R.TH_Ss_CFG k) i = s.rb (R.TH_Ss_CFG k) i := congrArg (bit · i) h.cfg

end

theorem RegsSet.sameSensor {k : Nat} {s t : State} (h : RegsSet [R.TH_Ss_STATE k, R.TH_STATUS] s t) : SameSensor k s t :=
  ⟨h.regsBut _ (by simp [TH_Ss_STATE_ne_CFG, TH_Ss_CFG_ne_STATUS]),
    h.regsBut _ (by simp [TH_Ss_STATE_ne_THR, TH_Ss_THR_ne_STATUS])⟩

/-- What a list of a sensor's levels leaves after a sample, each one quiet. -/
structure LevelsWalked (k : Nat) (l : List Nat) (temp : Int) (s u : State) : Prop where
  regs : RegsSet [R.TH_Ss_STATE k, R.TH_STATUS] s u
  parts : SameBut [.regs, .scCount, .pow] s u
  state : ∀ i, i < 23 → u.rb (R.TH_Ss_STATE k) i = if i ∈ l then s.levelAfter k i temp else s.rb (R.TH_Ss_STATE k) i
  flags : ∀ i ∈ l, s.rb (R.TH_Ss_STATE k) i = false → s.thermalThr k i ≤ temp → s.rb (R.TH_Ss_CFG k) 31 = true →
    u.rb R.TH_STATUS i = true
  keeps : ∀ i, i < 23 → s.rb R.TH_STATUS i = true → u.rb R.TH_STATUS i = true

theorem State.levels_walked {k : Nat} {temp : Int} : ∀ (l : List Nat) (s : State), l.Nodup → (∀ i ∈ l, i < 23) →
    s.thermalDwell k = 1 → 0 < s.thermalHyst k → (∀ i ∈ l, s.rf (R.TH_Ss_CFG k) 1 0 = 0 ∨ i ≠ 2) →
    LevelsWalked k l temp s (l.foldl (fun t i => t.thermalLevel k i temp) s)
  | [], s, _, _, _, _, _ => ⟨.refl _ s, .refl _ s, fun _ _ => by simp, nofun, fun _ _ h => h⟩
  | t :: l, s, nodup, small, dwell, hyst, quiet => by
    obtain ⟨fresh, nodup'⟩ := List.nodup_cons.mp nodup
    have ht : t < 23 := small t List.mem_cons_self
    have still := quiet t List.mem_cons_self
    have first := State.thermalLevel_regsSet (temp := temp) dwell hyst still
    have state : ∀ i, i < 23 → _ := fun i hi => State.thermalLevel_state (temp := temp) dwell hyst still (i := i) (by omega)
    have same := first.sameSensor
    have walked := State.levels_walked (temp := temp) l (s.thermalLevel k t temp) nodup'
      (fun i hi => small i (List.mem_cons_of_mem t hi)) (same.thermalDwell_eq.trans dwell)
      (same.thermalHyst_eq ▸ hyst) (fun i hi => by
        rw [same.rf_eq]
        exact quiet i (List.mem_cons_of_mem t hi))
    refine ⟨first.trans walked.regs, (State.thermalLevel_sameBut dwell hyst still).trans walked.parts, fun i hi => ?_,
      fun i hi low reached enabled => ?_, fun i hi set => ?_⟩
    · rw [List.foldl_cons, walked.state i hi]
      by_cases here : i = t
      · subst here
        rw [if_neg fresh, state i hi, if_pos rfl, if_pos List.mem_cons_self]
      · have after : (s.thermalLevel k t temp).levelAfter k i temp = s.levelAfter k i temp := by
          unfold State.levelAfter
          rw [state i hi, if_neg here, same.thermalThr_eq, same.thermalHyst_eq]
        rw [after, state i hi, if_neg here]
        simp only [List.mem_cons, here, false_or]
    · rw [List.foldl_cons]
      rcases List.mem_cons.mp hi with rfl | later
      · exact walked.keeps _ ht (State.thermalLevel_flag dwell hyst still ht low reached enabled)
      · have ne : i ≠ t := fun e => fresh (e ▸ later)
        exact walked.flags i later ((state i (small i hi)).trans ((if_neg ne).trans low))
          (by rwa [same.thermalThr_eq]) (by rwa [same.rb_eq])
    · exact walked.keeps i hi (State.thermalLevel_keeps_flag dwell hyst still hi ht set)

end Sys2Proof.Machine
end

section
/-!
Thermal samples (R473 to R476).
-/
set_option Elab.async false
namespace Sys2Proof.Machine
open Sys2Proof

/-! ### Thermal samples (R473 to R476) -/

theorem TH_Ss_TEMP_ne (k : Nat) : R.TH_Ss_TEMP k ≠ R.TH_STATUS
    ∧ ∀ j, R.TH_Ss_TEMP k ≠ R.TH_Ss_STATE j ∧ R.TH_Ss_TEMP k ≠ R.TH_Ss_CFG j ∧ R.TH_Ss_TEMP k ≠ R.TH_Ss_THR j := by
  unfold R.TH_Ss_TEMP R.TH_STATUS R.TH_Ss_STATE R.TH_Ss_CFG R.TH_Ss_THR
  exact ⟨by omega, fun j => ⟨by omega, by omega, by omega⟩⟩

theorem IC_TEMP_ne {k : Nat} (hk : k < 16) : R.IC_TEMP k ≠ R.TH_STATUS
    ∧ ∀ j, R.IC_TEMP k ≠ R.TH_Ss_STATE j ∧ R.IC_TEMP k ≠ R.TH_Ss_CFG j ∧ R.IC_TEMP k ≠ R.TH_Ss_THR j
      ∧ R.IC_TEMP k ≠ R.TH_Ss_TEMP j := by
  unfold R.IC_TEMP R.TH_STATUS R.TH_Ss_STATE R.TH_Ss_CFG R.TH_Ss_THR R.TH_Ss_TEMP
  exact ⟨by omega, fun j => ⟨by omega, by omega, by omega, by omega⟩⟩

/-- The temperature that a sample shows in the registers of its sensor. -/
def State.temperatureShown (s : State) (k : Nat) (w : Word) : State :=
  let u := s.setReg (R.TH_Ss_TEMP k) w
  if k < 16 then u.setReg (R.IC_TEMP k) w else u

/-- The registers that show a temperature. -/
def tempReg (k a : Nat) : Prop := a = R.TH_Ss_TEMP k ∨ (k < 16 ∧ a = R.IC_TEMP k)

section
variable (s : State) (k : Nat) (w : Word)

theorem State.temperatureShown_regsIn : RegsIn (tempReg k) s (s.temperatureShown k w) := by
  unfold State.temperatureShown
  dsimp only
  split
  case isTrue island => exact (s.setReg_regsIn (.inl rfl) w).trans (State.setReg_regsIn _ (.inr ⟨island, rfl⟩) w)
  case isFalse => exact s.setReg_regsIn (.inl rfl) w

theorem State.temperatureShown_touch : Touch 0x2 s (s.temperatureShown k w) :=
  .ite (Touch.of State.setReg_touch |>.then State.setReg_touch) (.of State.setReg_touch)

theorem State.temperatureShown_sensor : (s.temperatureShown k w).reg (R.TH_Ss_TEMP k) = w := by
  unfold State.temperatureShown
  dsimp only
  split
  case isTrue island => simp [((IC_TEMP_ne island).2 k).2.2.2.symm]
  case isFalse => simp

theorem State.temperatureShown_island (hk : k < 16) : (s.temperatureShown k w).reg (R.IC_TEMP k) = w := by
  unfold State.temperatureShown
  dsimp only
  rw [if_pos hk]
  simp

end

theorem not_tempReg_state (k : Nat) : ¬ tempReg k (R.TH_Ss_STATE k) := by
  rintro (h | ⟨hk, h⟩)
  · exact ((TH_Ss_TEMP_ne k).2 k).1 h.symm
  · exact ((IC_TEMP_ne hk).2 k).1 h.symm

theorem not_tempReg_status (k : Nat) : ¬ tempReg k R.TH_STATUS := by
  rintro (h | ⟨hk, h⟩)
  · exact (TH_Ss_TEMP_ne k).1 h.symm
  · exact (IC_TEMP_ne hk).1 h.symm

theorem tempReg_sameSensor {k : Nat} {s t : State} (h : RegsIn (tempReg k) s t) : SameSensor k s t := by
  refine ⟨h.reg_eq ?_, h.reg_eq ?_⟩
  · rintro (e | ⟨hk, e⟩)
    · exact ((TH_Ss_TEMP_ne k).2 k).2.1 e.symm
    · exact ((IC_TEMP_ne hk).2 k).2.1 e.symm
  · rintro (e | ⟨hk, e⟩)
    · exact ((TH_Ss_TEMP_ne k).2 k).2.2 e.symm
    · exact ((IC_TEMP_ne hk).2 k).2.2.1 e.symm

/-- The temperature registers stand apart from those of the levels. -/
theorem temp_not_level (k : Nat) : R.TH_Ss_TEMP k ∉ [R.TH_Ss_STATE k, R.TH_STATUS]
    ∧ (k < 16 → R.IC_TEMP k ∉ [R.TH_Ss_STATE k, R.TH_STATUS]) := by
  constructor
  · simp [((TH_Ss_TEMP_ne k).2 k).1, (TH_Ss_TEMP_ne k).1]
  · intro hk
    simp [((IC_TEMP_ne hk).2 k).1, (IC_TEMP_ne hk).1]

/-- A sample while the device runs and the sensor can be read. -/
theorem State.thermalSample_of_read {s : State} {k : Nat} (runs : s.beatRuns = true)
    (read : k = 16 ∨ s.islandRuns k = true) (temp : BitVec 16) :
    s.thermalSample k temp = ((List.range 3).foldl (fun t i => t.thermalLevel k i temp.toInt)
      (s.temperatureShown k (w32 (2 ^ 31 + temp.toNat)))).thermalLines k := by
  have free : s.pow.thermalHold = none := by
    simp only [State.beatRuns, Bool.and_eq_true, Option.isNone_iff_eq_none] at runs
    exact runs.2
  have readable : (!s.beatRuns || (decide (k < 16) && !s.islandRuns k)) = false := by
    rcases read with rfl | island
    · simp [runs]
    · simp [runs, island]
  simp only [State.thermalSample, free, readable, Bool.false_eq_true, if_false]
  rfl

/-- Clause 1 of O28: the sample of a sensor without an action. -/
theorem thermalSample_effect {s : State} {sensor : Fin 17} {temp : BitVec 16} (runs : s.beatRuns = true)
    (read : sensor.val = 16 ∨ s.islandRuns sensor.val = true) (dwell : s.thermalDwell sensor.val = 1)
    (hyst : 0 < s.thermalHyst sensor.val) (quiet : s.rf (R.TH_Ss_CFG sensor.val) 1 0 = 0) :
    ∃ t, exec (.thermalSample sensor temp) s = .next t
      ∧ t.reg (R.TH_Ss_TEMP sensor.val) = w32 (2 ^ 31 + temp.toNat)
      ∧ (sensor.val < 16 → t.reg (R.IC_TEMP sensor.val) = w32 (2 ^ 31 + temp.toNat))
      ∧ (∀ k : Fin 3, t.rb (R.TH_Ss_STATE sensor.val) k.val = s.levelAfter sensor.val k.val temp.toInt)
      ∧ (∀ k : Fin 3, s.rb (R.TH_Ss_STATE sensor.val) k.val = false → s.thermalThr sensor.val k.val ≤ temp.toInt →
          s.rb (R.TH_Ss_CFG sensor.val) 31 = true → t.rb R.TH_STATUS k.val = true)
      ∧ RegsBut [R.TH_Ss_TEMP sensor.val, R.IC_TEMP sensor.val, R.TH_Ss_STATE sensor.val, R.TH_STATUS] s t
      ∧ SameBut [.regs, .scCount, .fab, .due, .pow] s t := by
  have run : exec (.thermalSample sensor temp) s = .next (s.thermalSample sensor.val temp) := rfl
  rw [State.thermalSample_of_read runs read temp] at run
  generalize sensor.val = k at *
  generalize hw : w32 (2 ^ 31 + temp.toNat) = w at *
  have shownRegs := s.temperatureShown_regsIn k w
  have shownTouch := s.temperatureShown_touch k w
  have shownSensor := s.temperatureShown_sensor k w
  have shownIsland := s.temperatureShown_island k w
  have same := tempReg_sameSensor shownRegs
  generalize s.temperatureShown k w = u at *
  have small : ∀ i ∈ List.range 3, i < 23 := fun i hi => by
    have := List.mem_range.mp hi
    omega
  have walked := State.levels_walked (temp := temp.toInt) (List.range 3) u List.nodup_range small
    (same.thermalDwell_eq.trans dwell) (same.thermalHyst_eq ▸ hyst) (fun _ _ => .inl (by rwa [same.rf_eq]))
  generalize (List.range 3).foldl (fun t i => t.thermalLevel k i temp.toInt) u = v at *
  have lines := State.thermalLines_touch (s := v) (k := k)
  have linesRegs : (v.thermalLines k).regs = v.regs := lines.same_part .regs
  generalize v.thermalLines k = t at *
  have reg : ∀ a, t.reg a = v.reg a := fun a => by
    unfold State.reg
    rw [linesRegs]
  have rb : ∀ a i, t.rb a i = v.rb a i := fun a i => congrArg (bit · i) (reg a)
  refine ⟨t, run, ?_, fun island => ?_, fun i => ?_, fun i low reached enabled => ?_, ?_, ?_⟩
  · rw [reg, walked.regs.regsBut _ (temp_not_level k).1, shownSensor]
  · rw [reg, walked.regs.regsBut _ ((temp_not_level k).2 island), shownIsland island]
  · rw [rb, walked.state i.val (by omega), if_pos (List.mem_range.mpr i.isLt)]
    unfold State.levelAfter
    rw [shownRegs.rb_eq (not_tempReg_state k), same.thermalThr_eq, same.thermalHyst_eq]
  · rw [rb]
    exact walked.flags i.val (List.mem_range.mpr i.isLt) ((shownRegs.rb_eq (not_tempReg_state k) _).trans low)
      (by rwa [same.thermalThr_eq]) (by rwa [same.rb_eq])
  · intro a ha
    simp only [List.mem_cons, List.not_mem_nil, or_false, not_or] at ha
    rw [reg, walked.regs.regsBut a (by simp [ha])]
    refine shownRegs.reg_eq ?_
    rintro (e | ⟨-, e⟩)
    · exact ha.1 e
    · exact ha.2.1 e
  · exact ((shownTouch.sameBut (l := [.regs, .scCount, .pow])).trans walked.parts).mono (by decide) |>.touch lines

theorem TH_Ss_STATE_not_holdReg {n : Nat} (hn : n < 16) : ¬ anyHoldReg (R.TH_Ss_STATE n) := by
  rintro (⟨m, k, h | h⟩ | ⟨m, q, hm, hq, h⟩)
  · unfold R.TH_Ss_STATE R.TU_STATUS at h
    omega
  · unfold R.TH_Ss_STATE R.TU_TRIP_STATE at h
    omega
  · unfold R.TH_Ss_STATE R.EQ_STATUS at h
    omega

theorem State.drainStart_regsSet (s : State) (n : Nat) : RegsSet [R.PW_STATE, R.PW_ISLANDS] s (s.drainStart n) := by
  unfold State.drainStart
  refine RegsSet.trans (RegsSet.of_regs (t := (s.setPhase n .draining).setPhaseEnd n (s.absTick + s.drainLimit)) rfl _) ?_
  exact ((State.setRb_regsSet _ _ _ _).mono (by simp)).trans ((State.setRb_regsSet _ _ _ _).mono (by simp))

theorem State.drainStart_phase (s : State) (n : Nat) : (s.drainStart n).phase n = .draining := by
  show (s.setPhase n .draining).phase n = .draining
  simp [State.phase, State.setPhase, Store.get_set]

/-- The power-down of an island that runs: it drains from now on, or drained already. -/
theorem State.islandOff_of_runs {s : State} {n : Nat} (runs : s.islandRuns n = true) :
    (s.islandOff n true).phase n = .draining ∧ RegsSet [R.PW_STATE, R.PW_ISLANDS] s (s.islandOff n true) := by
  unfold State.islandOff
  cases h : s.phase n
  case running => exact ⟨s.drainStart_phase n, s.drainStart_regsSet n⟩
  case draining => exact ⟨h, .refl _ s⟩
  all_goals simp [State.islandRuns, h] at runs

/-- The marks of a thermal action on the records of its units. -/
def State.thermalMarked (s : State) (l : List (Nat × Nat)) (mark : Nat) : State :=
  l.foldl (fun t u =>
    t.setTu u.1 u.2 { t.tu u.1 u.2 with causes := mark :: (t.tu u.1 u.2).causes.filter (fun c => c != mark) }) s

theorem State.thermalMarked_touch (s : State) (l : List (Nat × Nat)) (mark : Nat) :
    Touch 0x10000 s (s.thermalMarked l mark) := .foldl fun _ _ => .of State.setTu_touch

/-- What CRIT of an island with ACTION 2 leaves. -/
theorem State.critAction_effect {s : State} {n : Nat} (hn : n < 16) (runs : s.islandRuns n = true)
    (act : s.rf (R.TH_Ss_CFG n) 1 0 = 2) :
    (s.critAction n).rb (R.TH_Ss_STATE n) 2 = s.rb (R.TH_Ss_STATE n) 2
      ∧ (∀ k : Fin 4, (s.critAction n).rb (R.TU_TRIP_STATE n k.val) 16 = true
          ∧ (s.critAction n).rb (R.TU_TRIP_STATE n k.val) 23 = true)
      ∧ (s.critAction n).phase n = .draining
      ∧ (s.critAction n).rb R.PW_STATUS 0 = true := by
  have eq : s.critAction n =
      ((((s.thermalMarked (unitsOf n) 32).holdUnits (unitsOf n) 23).islandOff n true).flag R.PW_STATUS 0) := by
    simp only [State.critAction, act, hn, if_true, OfNat.ofNat_ne_zero, if_false]
    rfl
  rw [eq]
  have marked := s.thermalMarked_touch (unitsOf n) 32
  generalize s.thermalMarked (unitsOf n) 32 = u at *
  have held : ∀ k : Fin 4, _ := fun k : Fin 4 => State.holdUnits_held (n := n) (k := k.val) (cause := 23) k.isLt (by decide)
    (unitsOf n) (s := u) (List.mem_map.mpr ⟨k.val, List.mem_range.mpr k.isLt, rfl⟩)
  have heldRegs := u.holdUnits_regsIn (unitsOf n) 23
  have heldTouch := u.holdUnits_touch' (unitsOf n) 23
  generalize u.holdUnits (unitsOf n) 23 = v at *
  have islands : v.islands = s.islands := (heldTouch.same_part .islands).trans (marked.same_part .islands)
  have still : v.islandRuns n = true := by
    unfold State.islandRuns State.phase at runs ⊢
    rwa [islands]
  obtain ⟨drains, offRegs⟩ := State.islandOff_of_runs still
  generalize v.islandOff n true = x at *
  have flagRegs := x.flag_regsSet R.PW_STATUS 0
  have markedReg : u.reg (R.TH_Ss_STATE n) = s.reg (R.TH_Ss_STATE n) := by
    unfold State.reg
    rw [marked.same_part .regs]
  have trip : ∀ k, R.TU_TRIP_STATE n k ∉ [R.PW_STATUS] ∧ R.TU_TRIP_STATE n k ∉ [R.PW_STATE, R.PW_ISLANDS] := fun k => by
    simp only [List.mem_cons, List.not_mem_nil, or_false, not_or]
    unfold R.TU_TRIP_STATE R.PW_STATUS R.PW_STATE R.PW_ISLANDS
    omega
  have level : R.TH_Ss_STATE n ∉ [R.PW_STATUS] ∧ R.TH_Ss_STATE n ∉ [R.PW_STATE, R.PW_ISLANDS] := by
    simp only [List.mem_cons, List.not_mem_nil, or_false, not_or]
    unfold R.TH_Ss_STATE R.PW_STATUS R.PW_STATE R.PW_ISLANDS
    omega
  refine ⟨?_, fun k => ⟨?_, ?_⟩, ?_, State.rb_flag_self _ _ _ (by decide)⟩
  · rw [flagRegs.rb_eq level.1, offRegs.rb_eq level.2, heldRegs.rb_eq (TH_Ss_STATE_not_holdReg hn)]
    exact congrArg (bit · 2) markedReg
  · rw [flagRegs.rb_eq (trip _).1, offRegs.rb_eq (trip _).2]
    exact (held k).1
  · rw [flagRegs.rb_eq (trip _).1, offRegs.rb_eq (trip _).2]
    exact (held k).2
  · have islands := State.flag_touch (s := x) (a := R.PW_STATUS) (i := 0) |>.same_part .islands
    exact (congrArg (Store.get (fun _ => IslandPhase.off) n) islands).trans drains

/-- Clause 2 of O28: CRIT of an island with ACTION 2. -/
theorem thermalCrit_effect {n : Fin 16} {temp : BitVec 16} {s : State} (runs : s.beatRuns = true)
    (island : s.islandRuns n.val = true) (dwell : s.thermalDwell n.val = 1) (hyst : 0 < s.thermalHyst n.val)
    (act : s.rf (R.TH_Ss_CFG n.val) 1 0 = 2) (enabled : s.rb (R.TH_Ss_CFG n.val) 31 = true)
    (low : s.rb (R.TH_Ss_STATE n.val) 2 = false) (reached : s.thermalThr n.val 2 ≤ temp.toInt) :
    ∃ t, exec (.thermalSample ⟨n.val, by omega⟩ temp) s = .next t
      ∧ t.rb (R.TH_Ss_STATE n.val) 2 = true
      ∧ (∀ k : Fin 4, t.rb (R.TU_TRIP_STATE n.val k.val) 16 = true ∧ t.rb (R.TU_TRIP_STATE n.val k.val) 23 = true)
      ∧ t.phase n.val = .draining
      ∧ t.rb R.PW_STATUS 0 = true
      ∧ t.mem = s.mem := by
  have mem : (s.thermalSample n.val temp).mem = s.mem := State.thermalSample_touch.same_part .mem
  have run : exec (.thermalSample ⟨n.val, by omega⟩ temp) s = .next (s.thermalSample n.val temp) := rfl
  rw [State.thermalSample_of_read runs (.inr island) temp] at run mem
  obtain ⟨k, hk⟩ := n
  dsimp only at *
  have shownRegs := s.temperatureShown_regsIn k (w32 (2 ^ 31 + temp.toNat))
  have shownTouch := s.temperatureShown_touch k (w32 (2 ^ 31 + temp.toNat))
  have same := tempReg_sameSensor shownRegs
  generalize s.temperatureShown k (w32 (2 ^ 31 + temp.toNat)) = u at *
  have split3 : (List.range 3).foldl (fun t i => t.thermalLevel k i temp.toInt) u =
      ([0, 1].foldl (fun t i => t.thermalLevel k i temp.toInt) u).thermalLevel k 2 temp.toInt := rfl
  have walked := State.levels_walked (temp := temp.toInt) [0, 1] u (by decide) (by decide)
    (same.thermalDwell_eq.trans dwell) (same.thermalHyst_eq ▸ hyst) (by simp)
  rw [split3] at run mem
  generalize [0, 1].foldl (fun t i => t.thermalLevel k i temp.toInt) u = v at *
  have still := walked.regs.sameSensor
  have low' : v.rb (R.TH_Ss_STATE k) 2 = false :=
    (walked.state 2 (by decide)).trans ((shownRegs.rb_eq (not_tempReg_state k) 2).trans low)
  rw [State.thermalLevel_eq ((still.thermalDwell_eq.trans same.thermalDwell_eq).trans dwell)
    (by rwa [still.thermalHyst_eq, same.thermalHyst_eq]),
    if_pos (by simp [low', still.thermalThr_eq, same.thermalThr_eq, reached])] at run mem
  have raisedRegs := v.levelRaised_regsSet k 2 temp.toInt
  have raisedTouch : Touch 0x1000002 v (v.levelRaised k 2 temp.toInt) :=
    Touch.of State.setPow_touch |>.then State.setRb_touch
  have raised : (v.levelRaised k 2 temp.toInt).rb (R.TH_Ss_STATE k) 2 = true :=
    (v.levelRaised_state k 2 temp.toInt (by decide)).trans (if_pos rfl)
  generalize v.levelRaised k 2 temp.toInt = x at *
  have cfg : x.reg (R.TH_Ss_CFG k) = s.reg (R.TH_Ss_CFG k) :=
    (RegsIn.reg_eq raisedRegs (by simp [TH_Ss_STATE_ne_CFG])).trans (still.cfg.trans same.cfg)
  have flagRegs := x.flag_regsSet R.TH_STATUS 2
  have told : x.levelTold k 2 = (x.flag R.TH_STATUS 2).critAction k := by
    unfold State.levelTold
    rw [show x.rb (R.TH_Ss_CFG k) 31 = true from (congrArg (bit · 31) cfg).trans enabled]
    rfl
  have flagTouch := State.flag_touch (s := x) (a := R.TH_STATUS) (i := 2)
  rw [told] at run mem
  have raised' : (x.flag R.TH_STATUS 2).rb (R.TH_Ss_STATE k) 2 = true :=
    (flagRegs.rb_eq (by simp [TH_Ss_STATE_ne_STATUS]) 2).trans raised
  have act' : (x.flag R.TH_STATUS 2).rf (R.TH_Ss_CFG k) 1 0 = 2 :=
    (flagRegs.rf_eq (by simp [TH_Ss_CFG_ne_STATUS]) 1 0).trans ((congrArg (fld · 1 0) cfg).trans act)
  generalize x.flag R.TH_STATUS 2 = y at *
  have islands : y.islands = s.islands :=
    (flagTouch.same_part .islands).trans ((raisedTouch.same_part .islands).trans
      ((walked.parts .islands (by decide)).trans (shownTouch.same_part .islands)))
  have island' : y.islandRuns k = true := by
    unfold State.islandRuns State.phase at island ⊢
    rwa [islands]
  obtain ⟨level, held, drains, told⟩ := State.critAction_effect hk island' act'
  generalize y.critAction k = z at *
  have lines := State.thermalLines_touch (s := z) (k := k)
  generalize z.thermalLines k = t at *
  have rb : ∀ a i, t.rb a i = z.rb a i := fun a i => by
    unfold State.rb State.reg
    rw [lines.same_part .regs]
  have phase : t.phase k = z.phase k := congrArg (Store.get (fun _ => IslandPhase.off) k) (lines.same_part .islands)
  refine ⟨t, run, ?_, fun i => ?_, phase.trans drains, (rb _ _).trans told, mem⟩
  · rw [rb, level, raised']
  · rw [rb, rb]
    exact held i

theorem State.thermalSample_of_silent {s : State} {k : Nat} (free : s.pow.thermalHold = none) (island : k < 16)
    (off : s.islandRuns k = false) (temp : BitVec 16) : s.thermalSample k temp = s := by
  simp [State.thermalSample, free, island, off]

/-- Settles O28, clause by clause: a quiet walk over the three levels, the one of CRIT with its action, and the two cases
of a sample that shows nothing. -/
theorem thermalSamples : Obligations.ThermalSamples := by
  refine ⟨fun sensor temp s runs read dwell hyst quiet => ?_, fun n temp s => thermalCrit_effect,
    fun sensor temp s free island off => congrArg _ (State.thermalSample_of_silent free island off temp),
    fun temp c s waits => ?_⟩
  · obtain ⟨t, run, shown, island, levels, flags, regs, parts⟩ := thermalSample_effect runs read dwell hyst quiet (temp := temp)
    refine ⟨t, run, shown, island, fun k low => ?_, fun k high => ?_, flags, regs, parts⟩
    · rw [levels, State.levelAfter, low]
      rfl
    · rw [levels, State.levelAfter, high]
      rfl
  · refine ⟨s.thermalSample 16 temp, rfl, ?_, ?_, ?_⟩
    all_goals simp only [State.thermalSample, waits, ne_eq, not_true_eq_false, if_false]
    · show (if _ then _ else _) = _
      split
      · rfl
      · simp [State.thermalDwell]
    · exact RegsSet.regsBut (.of_regs rfl _)
    · exact Touch.sameBut State.setPow_touch

end Sys2Proof.Machine
end

section
/-!
Resets, BACKUP, test mode and the test port (R346, R472, R477 to R480).
-/
set_option Elab.async false
namespace Sys2Proof.Machine
open Sys2Proof

/-! ### Power-on reset and BACKUP (R346, R472, R477) -/

/-- Keys that are kept read as before, the others as unlisted. -/
theorem Store.get_filter_key {α : Type} (p : Nat → Bool) (d : Nat → α) (a : Nat) (st : Store α) :
    Store.get d a (st.filter (fun e => p e.1)) = if p a then Store.get d a st else d a := by
  have cleared := Store.get_clear (d := d) (p := fun i => !p i) st a
  simp only [Store.clear, Bool.not_not] at cleared
  rw [cleared]
  cases p a <;> rfl

section
variable {s : State}

theorem State.flashCut_of_idle {b : Nat} (idle : s.flashBusy b = false) : s.flashCut b = s := by
  have none : s.flashOp b = none := by simpa [State.flashBusy] using idle
  simp [State.flashCut, none]

/-- The state of the reset's two starting points, with no flash operation to cut. -/
theorem State.flashCuts_of_idle (idle : s.flashBusy 0 = false) (idle' : s.flashBusy 1 = false) :
    (s.flashCut 0).flashCut 1 = s := by
  rw [State.flashCut_of_idle idle, State.flashCut_of_idle idle']

variable (idle : s.flashBusy 0 = false) (idle' : s.flashBusy 1 = false)
include idle idle'

theorem State.mainReset_reg (a : Nat) : s.mainReset.reg a = if vbakReg a then s.reg a else regReset a := by
  have cuts := State.flashCuts_of_idle idle idle'
  show Store.get regReset a (((s.flashCut 0).flashCut 1).regs.filter fun e => vbakReg e.1) = _
  rw [cuts, Store.get_filter_key]
  rfl

theorem State.mainReset_memKept : MemKept nonVolatile s s.mainReset := by
  intro a
  have cuts := State.flashCuts_of_idle idle idle'
  show Store.get memReset a (((s.flashCut 0).flashCut 1).mem.filter fun e => nonVolatile e.1) = _
  rw [cuts, Store.get_filter_key]
  rfl

/-- What a reset keeps beside registers and memory. -/
theorem State.mainReset_keeps : s.mainReset.clk.seconds = s.clk.seconds ∧ s.mainReset.clk.era = s.clk.era
    ∧ s.mainReset.clk.sub = s.clk.sub ∧ s.mainReset.safeN = s.safeN ∧ s.mainReset.tap = s.tap
    ∧ s.mainReset.mp.rollback = s.mp.rollback ∧ s.mainReset.flash = s.flash := by
  have cuts := State.flashCuts_of_idle idle idle'
  unfold State.mainReset
  rw [cuts]
  exact ⟨rfl, rfl, rfl, rfl, rfl, rfl, rfl⟩

end

theorem State.mainReset_resets (s : State) : s.mainReset.device = .run ∧ s.mainReset.clk.beat = 0#64 ∧ s.mainReset.due = []
    ∧ s.mainReset.pow.thermalHold = none ∧ s.mainReset.flashOps = [] := ⟨rfl, rfl, rfl, rfl, rfl⟩

/-- The reset with its cause and the boot balls shown. -/
def State.resetShown (s : State) (cause : Nat) (boot : BitVec 4) : State :=
  (s.mainReset.setReg R.PW_RESET_CAUSE (bitW cause)).setReg R.PW_BOOT (w32 boot.toNat)

theorem State.resetShown_touch (s : State) (cause : Nat) (boot : BitVec 4) :
    Touch 0x2 s.mainReset (s.resetShown cause boot) := Touch.of State.setReg_touch |>.then State.setReg_touch

theorem State.resetShown_regs (s : State) (cause : Nat) (boot : BitVec 4) :
    RegsSet [R.PW_RESET_CAUSE, R.PW_BOOT] s.mainReset (s.resetShown cause boot) :=
  RegsSet.trans ((State.setReg_regsSet _ _ _).mono (by simp)) ((State.setReg_regsSet _ _ _).mono (by simp))

theorem State.resetShown_cause (s : State) (cause : Nat) (boot : BitVec 4) :
    (s.resetShown cause boot).reg R.PW_RESET_CAUSE = bitW cause := by
  unfold State.resetShown
  simp [show R.PW_RESET_CAUSE ≠ R.PW_BOOT by decide]

theorem State.resetShown_boot (s : State) (cause : Nat) (boot : BitVec 4) :
    (s.resetShown cause boot).reg R.PW_BOOT = w32 boot.toNat := by
  unfold State.resetShown
  simp

theorem State.powerReset_eq (s : State) (cause : Nat) (boot : BitVec 4) : s.powerReset cause boot =
    (s.resetShown cause boot).setPow { (s.resetShown cause boot).pow with thermalHold := if cause = 3 then some 0 else none } := by
  unfold State.powerReset
  dsimp only
  by_cases heat : cause = 3
  · rw [if_pos heat, if_pos heat]
    rfl
  · rw [if_neg heat, if_neg heat]
    rfl

theorem powerOnReset_effect {s : State} (cause : Fin 5) (boot : BitVec 4) (idle : s.flashBusy 0 = false)
    (idle' : s.flashBusy 1 = false) :
    ∃ t, exec (.powerOnReset cause boot) s = .next t
      ∧ t.reg R.PW_RESET_CAUSE = bitW cause.val
      ∧ t.reg R.PW_BOOT = w32 boot.toNat
      ∧ RegsKept vbakReg [R.PW_RESET_CAUSE, R.PW_BOOT] s t
      ∧ MemKept nonVolatile s t
      ∧ t.device = .run
      ∧ t.clk.seconds = s.clk.seconds
      ∧ t.clk.era = s.clk.era
      ∧ t.clk.sub = s.clk.sub
      ∧ t.clk.beat = 0#64
      ∧ t.safeN = s.safeN
      ∧ t.tap = s.tap
      ∧ t.mp.rollback = s.mp.rollback
      ∧ t.flash = s.flash
      ∧ t.due = []
      ∧ (t.pow.thermalHold = if cause = 3 then some 0 else none) := by
  have run : exec (.powerOnReset cause boot) s = .next (s.powerReset cause.val boot) := rfl
  rw [State.powerReset_eq] at run
  have three : (if cause.val = 3 then some 0 else none : Option Nat) = if cause = 3 then some 0 else none := by
    simp [Fin.ext_iff]
  rw [three] at run
  have shown := s.resetShown_cause cause.val boot
  have straps := s.resetShown_boot cause.val boot
  have regs := s.resetShown_regs cause.val boot
  have parts := s.resetShown_touch cause.val boot
  have kept := State.mainReset_reg idle idle'
  have bytes := State.mainReset_memKept idle idle'
  obtain ⟨seconds, era, sub, safeN, tap, rollback, flash⟩ := State.mainReset_keeps idle idle'
  obtain ⟨device, beat, due, -, -⟩ := s.mainReset_resets
  generalize s.resetShown cause.val boot = u at *
  generalize s.mainReset = v at *
  have clk : u.clk = v.clk := parts.same_part .clk
  have mp : u.mp = v.mp := parts.same_part .mp
  refine ⟨_, run, shown, straps, fun a ha => ?_, fun a => ?_, (parts.same_part .device).trans device, ?_, ?_, ?_, ?_,
    (parts.same_part .safeN).trans safeN, (parts.same_part .tap).trans tap, ?_, (parts.same_part .flash).trans flash,
    (parts.same_part .due).trans due, rfl⟩
  · exact (regs.regsBut a ha).trans (kept a)
  · exact (congrArg (Store.get memReset a) (parts.same_part .mem)).trans (bytes a)
  · exact (congrArg ClockState.seconds clk).trans seconds
  · exact (congrArg ClockState.era clk).trans era
  · exact (congrArg ClockState.sub clk).trans sub
  · exact (congrArg ClockState.beat clk).trans beat
  · exact (congrArg MpState.rollback mp).trans rollback

/-- A reset ends the operations of both banks, whatever they were. -/
theorem powerOnReset_ends_flash (cause : Fin 5) (boot : BitVec 4) (s : State) :
    ∃ t, exec (.powerOnReset cause boot) s = .next t
      ∧ t.reg R.PW_RESET_CAUSE = bitW cause.val
      ∧ t.flashBusy 0 = false
      ∧ t.flashBusy 1 = false := by
  have run : exec (.powerOnReset cause boot) s = .next (s.powerReset cause.val boot) := rfl
  rw [State.powerReset_eq] at run
  have shown := s.resetShown_cause cause.val boot
  have ops : (s.resetShown cause.val boot).flashOps = [] := rfl
  generalize s.resetShown cause.val boot = u at *
  refine ⟨_, run, shown, ?_, ?_⟩
  all_goals
    show (Store.get (fun _ => none) _ u.flashOps).isSome = false
    rw [ops]
    rfl

theorem backupEntry_effect {s : State} (idle : s.flashBusy 0 = false) (idle' : s.flashBusy 1 = false)
    (awake : s.device ≠ .backup) :
    ∃ t, exec .backupEntry s = .next t
      ∧ t.device = .backup
      ∧ t.pow.booting = false
      ∧ RegsKept vbakReg [] s t
      ∧ MemKept nonVolatile s t
      ∧ t.clk.seconds = s.clk.seconds
      ∧ t.safeN = s.safeN
      ∧ t.tap = s.tap
      ∧ t.mp.rollback = s.mp.rollback := by
  have run : exec .backupEntry s = .next s.backupEntry := rfl
  rw [State.backupEntry, if_neg awake] at run
  have kept := State.mainReset_reg idle idle'
  have bytes := State.mainReset_memKept idle idle'
  obtain ⟨seconds, -, -, safeN, tap, rollback, -⟩ := State.mainReset_keeps idle idle'
  generalize s.mainReset = v at *
  exact ⟨_, run, rfl, rfl, fun a _ => kept a, bytes, seconds, safeN, tap, rollback⟩

/-! ### Test mode (R479) -/

section
variable {s : State}

theorem State.writeReg_pw {d : Nat} {r : RegRow} {a : Nat} {v : Word}
    (access : r.access = .ow ∨ r.access = .rw ∨ r.access = .wo) (notOwner : a ≠ ownerReg .pw a) :
    s.writeReg d .pw r a v = (.done, s.pwWrite r a v) := by
  obtain e | e | e := access <;> simp [State.writeReg, e, State.engineDrops, notOwner]

/-- The request of a change of test mode, before its beat is noted in the power record. -/
def State.testAsked (s : State) (v : Word) : State := (s.setRb R.PW_TEST 31 (bit v 31)).request 11

theorem pwTestWrite_effect {m : Master} {r : RegRow} (h : s.Writes m .pw r R.PW_TEST) (v : Word) :
    ∃ t, exec (.pwTestWrite m v) s = .next t
      ∧ t.rb R.PW_TEST 31 = bit v 31
      ∧ t.pow.testAt = some (s.clk.beat + 2, bit v 31)
      ∧ t.clk.reqBeat.get (fun _ => 0#64) 11 = s.clk.beat
      ∧ RegsBut [R.PW_TEST] s t
      ∧ SameBut [.regs, .clk, .pow, .reply] s t
      ∧ t.reply = some ⟨m, .done⟩ := by
  have run : exec (.pwTestWrite m v) s = .next ((s.pwTestWrite v).answer m .done) :=
    State.writeCmd_eq h rfl v (State.writeReg_pw h.access (by decide))
  have eq : s.pwTestWrite v =
      (s.testAsked v).setPow { (s.testAsked v).pow with testAt := some (s.clk.beat + 2, bit v 31) } := rfl
  have asked : (s.testAsked v).rb R.PW_TEST 31 = bit v 31 := State.rb_setRb_self s (by decide) _
  have noted : (s.testAsked v).clk.reqBeat.get (fun _ => 0#64) 11 = s.clk.beat :=
    (s.setRb R.PW_TEST 31 (bit v 31)).request_reqBeat 11
  have regs : RegsSet [R.PW_TEST] s (s.testAsked v) :=
    RegsSet.trans (State.setRb_regsSet _ _ _ _) (.of_regs rfl _)
  have touch : Touch 0x102 s (s.testAsked v) := Touch.of State.setRb_touch |>.then State.request_touch
  have parts : SameBut [.regs, .clk] s (s.testAsked v) := touch.sameBut
  rw [eq] at run
  generalize s.testAsked v = u at *
  refine ⟨_, run, asked, rfl, noted, RegsBut.answer (fun a ha => regs.regsBut a ha) m .done, ?_, rfl⟩
  exact SameBut.answer ((parts.mono (by decide)).touch State.setPow_touch) (by decide) m .done

/-- A change of test mode in the central complex, before the islands and the engines follow. -/
def State.testShown (s : State) (on : Bool) : State := (s.setRb R.PW_STATE 29 on).flag R.PW_STATUS 1

/-- The change in the islands that run. -/
def State.testIslands (s : State) (on : Bool) : State :=
  (List.range 16).foldl (fun t n => if t.islandRuns n then t.setRb (R.IC_STATE n) 29 on else t) s

/-- The change in the engines of the islands that run. -/
def State.testEngines (s : State) : State :=
  leUnitsAll.foldl (fun t u =>
    if t.islandRuns u.1 then (List.range 8).foldl (fun t c => t.setRf (R.LE_CTXc_FIXED u.1 u.2 c) 4 0 16) t else t) s

theorem State.testChange_of_other {on : Bool} (other : s.testMode ≠ on) :
    s.testChange on = ((s.testShown on).testIslands on).testEngines := if_neg other

/-- The registers that a change of test mode writes in the engines. -/
def fixedReg (a : Nat) : Prop := ∃ n m c, n < 16 ∧ m < 6 ∧ c < 8 ∧ a = R.LE_CTXc_FIXED n m c

theorem mem_leUnitsAll {u : Nat × Nat} (h : u ∈ leUnitsAll) : u.1 < 16 ∧ u.2 < 6 := by
  obtain ⟨i, hi, rfl⟩ := List.mem_map.mp h
  have := List.mem_range.mp hi
  constructor <;> dsimp only <;> omega

theorem State.testEngines_regsIn (s : State) : RegsIn fixedReg s s.testEngines := by
  refine RegsIn.foldl _ s fun u hu t => .ite (RegsIn.foldl _ t fun c hc x => ?_) (.refl _ t)
  obtain ⟨hn, hm⟩ := mem_leUnitsAll hu
  exact x.setReg_regsIn ⟨u.1, u.2, c, hn, hm, List.mem_range.mp hc, rfl⟩ _

theorem State.testEngines_touch (s : State) : Touch 0x2 s s.testEngines :=
  .foldl fun _ _ => .ite (.foldl fun _ _ => .of State.setRf_touch) .refl

theorem State.testIslands_touch (s : State) (on : Bool) : Touch 0x2 s (s.testIslands on) :=
  .foldl fun _ _ => .ite (.of State.setRb_touch) .refl

theorem State.testIslands_regsIn (s : State) (on : Bool) : RegsIn (fun a => ∃ n, n < 16 ∧ a = R.IC_STATE n) s (s.testIslands on) :=
  RegsIn.foldl _ s fun n hn t => .ite (State.setReg_regsIn t ⟨n, List.mem_range.mp hn, rfl⟩ _) (.refl _ t)

/-- A list of islands walked: every one that runs shows the mode. -/
theorem State.testIslands_shown (on : Bool) : ∀ (l : List Nat) (s : State) (n : Nat), s.islandRuns n = true →
    n ∈ l ∨ s.rb (R.IC_STATE n) 29 = on →
    (l.foldl (fun t n => if t.islandRuns n then t.setRb (R.IC_STATE n) 29 on else t) s).rb (R.IC_STATE n) 29 = on
  | [], _, _, _, h => h.resolve_left List.not_mem_nil
  | m :: l, s, n, runs, h => by
    rw [List.foldl_cons]
    by_cases up : s.islandRuns m = true
    · rw [if_pos up]
      refine State.testIslands_shown on l _ n runs ?_
      by_cases here : n = m
      · subst here
        exact .inr (State.rb_setRb_self _ (by decide) _)
      · refine h.imp (fun hn => (List.mem_cons.mp hn).resolve_left here) fun shown => ?_
        rw [State.rb_setRb_of_lt _ _ _ _ _ (by decide), if_neg fun e => here ?_]
        · exact shown
        · have := e.1
          unfold R.IC_STATE at this
          omega
    · rw [if_neg up]
      refine State.testIslands_shown on l s n runs (h.imp_left fun hn => (List.mem_cons.mp hn).resolve_left ?_)
      rintro rfl
      exact up runs

theorem testModeChange_effect {b : BitVec 64} {on : Bool} (asked : s.pow.testAt = some (b, on))
    (come : serialGe s.clk.beat b = true) (other : s.testMode ≠ on) :
    ∃ t, exec .testModeChange s = .next t
      ∧ t.testMode = on
      ∧ t.pow.testAt = none
      ∧ t.rb R.PW_STATUS 1 = true
      ∧ (∀ n : Fin 16, s.islandRuns n.val = true → t.rb (R.IC_STATE n.val) 29 = on)
      ∧ t.mem = s.mem
      ∧ SameBut [.regs, .scCount, .pow] s t := by
  have run : exec .testModeChange s = .next ((s.setPow { s.pow with testAt := none }).testChange on) := by
    show Host.Outcome.next (match s.pow.testAt with
      | some (b, on) => if serialGe s.clk.beat b then (s.setPow { s.pow with testAt := none }).testChange on else s
      | none => s) = _
    rw [asked]
    exact congrArg _ (if_pos come)
  have other' : (s.setPow { s.pow with testAt := none }).testMode ≠ on := other
  rw [State.testChange_of_other other'] at run
  have none' : (s.setPow { s.pow with testAt := none }).pow.testAt = none := rfl
  have touch : Touch 0x1000000 s (s.setPow { s.pow with testAt := none }) := .of State.setPow_touch
  have runs : ∀ n, (s.setPow { s.pow with testAt := none }).islandRuns n = s.islandRuns n := fun _ => rfl
  generalize s.setPow { s.pow with testAt := none } = u at *
  have shown : (u.testShown on).rb R.PW_STATE 29 = on :=
    ((State.flag_regsSet _ _ _).rb_eq (by decide) 29).trans (State.rb_setRb_self _ (by decide) _)
  have flagged : (u.testShown on).rb R.PW_STATUS 1 = true := State.rb_flag_self _ _ _ (by decide)
  have shownTouch : Touch 0x6 u (u.testShown on) := Touch.of State.setRb_touch |>.then State.flag_touch
  generalize u.testShown on = v at *
  have runs' : ∀ n, v.islandRuns n = s.islandRuns n := fun n => by
    rw [← runs]
    unfold State.islandRuns State.phase
    rw [shownTouch.same_part .islands]
  have islands := State.testIslands_shown on (List.range 16) v
  have islandsTouch := v.testIslands_touch on
  have islandsRegs := v.testIslands_regsIn on
  change ∀ n, _ → _ → (v.testIslands on).rb (R.IC_STATE n) 29 = on at islands
  generalize v.testIslands on = x at *
  have engines := x.testEngines_regsIn
  have enginesTouch := x.testEngines_touch
  generalize x.testEngines = t at *
  have central : ∀ a, (a = R.PW_STATE ∨ a = R.PW_STATUS) → (¬ ∃ n, n < 16 ∧ a = R.IC_STATE n) ∧ ¬ fixedReg a := by
    refine fun a ha => ⟨?_, ?_⟩
    · rintro ⟨n, hn, e⟩
      unfold R.PW_STATE R.PW_STATUS R.IC_STATE at *
      omega
    · rintro ⟨n, m, c, hn, hm, hc, e⟩
      unfold R.PW_STATE R.PW_STATUS R.LE_CTXc_FIXED at *
      omega
  have apart : ∀ n, n < 16 → ¬ fixedReg (R.IC_STATE n) := by
    rintro n hn ⟨n', m, c, hn', hm, hc, e⟩
    unfold R.IC_STATE R.LE_CTXc_FIXED at e
    omega
  have rest : SameBut [.regs, .scCount, .pow] s t :=
    (((touch.sameBut (l := [.regs, .scCount, .pow])).touch shownTouch).touch islandsTouch).touch enginesTouch
  refine ⟨t, run, ?_, ?_, ?_, fun n up => ?_, rest .mem (by decide), rest⟩
  · obtain ⟨notIsland, notFixed⟩ := central R.PW_STATE (.inl rfl)
    exact (engines.rb_eq notFixed 29).trans ((islandsRegs.rb_eq notIsland 29).trans shown)
  · rw [enginesTouch.same_part .pow, islandsTouch.same_part .pow, shownTouch.same_part .pow, none']
  · obtain ⟨notIsland, notFixed⟩ := central R.PW_STATUS (.inr rfl)
    exact (engines.rb_eq notFixed 1).trans ((islandsRegs.rb_eq notIsland 1).trans flagged)
  · rw [engines.rb_eq (apart n.val n.isLt)]
    exact islands n.val ((runs' _).trans up) (.inl (List.mem_range.mpr n.isLt))

theorem State.testModeChange_of_early {b : BitVec 64} {on : Bool} (asked : s.pow.testAt = some (b, on))
    (early : serialGe s.clk.beat b = false) : exec .testModeChange s = .next s := by
  show Host.Outcome.next (match s.pow.testAt with
    | some (b, on) => if serialGe s.clk.beat b then (s.setPow { s.pow with testAt := none }).testChange on else s
    | none => s) = _
  rw [asked]
  simp [early]

end

/-! ### The test port (R480) -/

theorem State.setTap_sameBut (s : State) (x : TapState) : SameBut [.tap] s { s with tap := x } := by
  intro p hp
  cases p
  case tap => exact absurd hp (by decide)
  all_goals rfl

theorem State.freeSetTap_sameBut (s : State) (x : TapState) : SameBut [.tap, .freeCtr] s { s.free.2 with tap := x } :=
  SameBut.trans (State.free_touch (s := s)).sameBut ((State.setTap_sameBut _ x).mono (by decide))

/-- Settles O27, clause by clause: what the reset filters by key reads as before where the key is kept; test mode is a walk
over islands and engines. -/
theorem resetsAndBackup : Obligations.ResetsAndBackup := by
  refine ⟨fun cause boot s idle idle' => powerOnReset_effect cause boot idle idle',
    fun cause boot s _ => powerOnReset_ends_flash cause boot s,
    fun s idle idle' awake => backupEntry_effect idle idle' awake,
    fun s awake free => ?_, fun s held => ?_, fun m v s r h _ => pwTestWrite_effect h v,
    fun b on s asked come other => testModeChange_effect asked come other,
    fun b on s asked early => State.testModeChange_of_early asked early,
    fun _ s => ⟨_, rfl, rfl, s.setTap_sameBut _⟩, fun _ s => ⟨_, rfl, rfl, s.setTap_sameBut _⟩,
    fun _ cells s => ⟨_, rfl, rfl, rfl, s.setTap_sameBut _⟩, ?_, ?_⟩
  · have release : ¬ (s.device = .backup ∨ s.pow.thermalHold.isSome = true) := by simp [awake, free]
    have run : exec .porOutRelease s = .next (s.setPow { s.pow with porOut := false }) :=
      congrArg Host.Outcome.next (if_neg release)
    exact ⟨_, run, rfl, rfl, Touch.sameBut State.setPow_touch⟩
  · exact congrArg _ (if_pos held)
  · rintro op s (rfl | rfl)
    · exact ⟨_, rfl, rfl, rfl, s.setTap_sameBut _⟩
    · exact ⟨_, rfl, rfl, rfl, s.setTap_sameBut _⟩
  · rintro op s (rfl | rfl)
    · exact ⟨_, rfl, rfl, rfl, s.freeSetTap_sameBut _⟩
    · exact ⟨_, rfl, rfl, rfl, (s.setTap_sameBut _).mono (by decide)⟩

end Sys2Proof.Machine
end

section
/-!
Reports, acknowledgements and restores asked for (R453 to R455, R459, R461).
-/
set_option Elab.async false
namespace Sys2Proof.Machine
open Sys2Proof

/-! ### Reports and acknowledgements (R453 to R455, R461) -/

theorem FaultRec.settled_of_open {r : FaultRec} (h : r.acked = false ∨ r.active = true) : r.settled = r := by
  unfold FaultRec.settled
  rw [if_neg]
  rcases h with h | h <;> simp [h]

theorem FaultRec.settled_of_done {r : FaultRec} (acked : r.acked = true) (idle : r.active = false) :
    r.settled = { r with isOpen := false } := if_pos (by simp [acked, idle])

/-- A record that is stored keeps everything but whether it is open. -/
theorem FaultRec.settled_fields (r : FaultRec) : ∃ o, r.settled = { r with isOpen := o } := by
  unfold FaultRec.settled
  split
  · exact ⟨_, rfl⟩
  · exact ⟨r.isOpen, rfl⟩

theorem DueGrows.setLine (s : State) (g : Nat) (l : Bool) : DueGrows s (s.setLine g l) := by
  unfold State.setLine
  exact .ite (.refl s) (DueGrows.trans (.of_eq rfl) (State.enqueue_dueGrows _ _))

theorem State.setFaultRec_dueGrows (s : State) (x : Nat) (r : FaultRec) : DueGrows s (s.setFaultRec x r) := by
  rw [State.setFaultRec_eq]
  refine DueGrows.trans ?_ (.setLine _ _ _)
  have put : DueGrows s (s.putFaultRec x r.settled) := .of_eq rfl
  exact .ite (put.trans State.flag_touch.dueGrows) put

theorem State.setFaultRec_flag (s : State) (x : Nat) (r : FaultRec) {i : Nat} (hi : i < 23) (ne : i ≠ 1) :
    (s.setFaultRec x r).rb R.FC_STATUS i = s.rb R.FC_STATUS i := by
  rw [State.setFaultRec_eq]
  refine ((State.faultN_touch.regsSet []).rb_eq List.not_mem_nil i).trans ?_
  split
  · rw [State.rb_flag_other _ _ _ _ (by omega) hi ne]
    rfl
  · rfl

theorem Fires.grow {g : Nat} {s t u : State} (h : Fires g s t) (pulses : u.pulses = t.pulses) (due : DueGrows t u) :
    Fires g s u :=
  ⟨by rw [pulses]; exact h.1, fun low p hp ok => due.mem (h.2 low p hp ok)⟩

/-- A report that the collector serves. -/
theorem State.serveReport_of_good {s : State} {x rep cause : Nat} {detail : Word} (source : sourceListed x = true)
    (reporter : sourceListed rep = true) (severe : causeSeverity cause ≠ 0) : s.serveReport x rep cause detail =
      (if s.newIncident (s.faultRec x) then ((s.setReg R.FC_LAST (w32 x)).flag R.FC_STATUS 0).fireCentral 389
        else s).setFaultRec x (s.reported (s.faultRec x) rep cause detail) := by
  refine if_neg ?_
  simp [source, reporter, severe]

theorem exec_faultReport {s : State} (source reporter : Fin 8192) (cause : BitVec 8) (detail : Word)
    (awake : s.device ≠ .watch) : exec (.faultReport source reporter cause detail) s =
      .next (s.serveReport source.val reporter.val cause.toNat detail) := by
  refine congrArg Host.Outcome.next (if_neg ?_)
  simpa using awake

/-- The record of a report that begins an incident. -/
theorem State.reported_of_new {s : State} {r : FaultRec} (fresh : s.newIncident r = true) (rep cause : Nat) (detail : Word) :
    let u := s.reported r rep cause detail
    u.isOpen = true ∧ u.acked = false ∧ u.tally = 1 ∧ u.incidents = min 0xFFFF (r.incidents + 1) ∧ u.firstT = s.devTime
      ∧ u.firstRep = rep ∧ u.lastT = lo64 s.devTime.toNat ∧ u.lastRep = rep
      ∧ (r.isOpen = false → u.severity = causeSeverity cause ∧ u.cause = cause ∧ u.detail = detail) := by
  have capped : satTo 0xFFFF (r.incidents + 1) = min 0xFFFF (r.incidents + 1) := by
    unfold satTo
    split <;> omega
  cases gone : r.isOpen
  · simp only [State.reported, fresh, gone, if_true, Bool.false_eq_true, if_false, Nat.zero_le, capped, and_self,
      true_implies]
  · simp only [State.reported, fresh, gone, if_true, capped, Bool.true_eq_false, false_implies, and_true]
    split <;> simp

/-- The record of a report inside the window of its incident. -/
theorem State.reported_of_old {s : State} {r : FaultRec} (old : s.newIncident r = false) (rep cause : Nat) (detail : Word) :
    let u := s.reported r rep cause detail
    u.tally = min 0xFFFFFFFF (r.tally + 1) ∧ u.incidents = r.incidents ∧ u.firstT = r.firstT
      ∧ u.lastT = lo64 s.devTime.toNat ∧ u.lastRep = rep
      ∧ (r.severity ≤ causeSeverity cause → u.severity = causeSeverity cause ∧ u.cause = cause ∧ u.detail = detail)
      ∧ (causeSeverity cause < r.severity → u.severity = r.severity ∧ u.cause = r.cause ∧ u.detail = r.detail) := by
  have capped : satTo 0xFFFFFFFF (r.tally + 1) = min 0xFFFFFFFF (r.tally + 1) := by
    unfold satTo
    split <;> omega
  by_cases graver : r.severity ≤ causeSeverity cause
  · have notLess : ¬ causeSeverity cause < r.severity := by omega
    simp only [State.reported, old, Bool.false_eq_true, if_false, graver, if_true, capped, notLess, false_implies, and_self,
      true_implies]
  · have less : causeSeverity cause < r.severity := by omega
    simp only [State.reported, old, Bool.false_eq_true, if_false, graver, capped, less, false_implies, and_self,
      true_implies]

/-- What a report does before the record is stored, where an incident begins. -/
def State.incidentBegun (s : State) (x : Nat) : State :=
  ((s.setReg R.FC_LAST (w32 x)).flag R.FC_STATUS 0).fireCentral 389

theorem State.incidentBegun_effect (s : State) (x : Nat) :
    (s.incidentBegun x).reg R.FC_LAST = w32 x ∧ (s.incidentBegun x).rb R.FC_STATUS 0 = true
      ∧ Fires (4096 + 389) s (s.incidentBegun x) ∧ RegsSet [R.FC_LAST, R.FC_STATUS] s (s.incidentBegun x)
      ∧ Touch 0x100000000007 s (s.incidentBegun x) := by
  have regs : RegsSet [R.FC_LAST, R.FC_STATUS] s ((s.setReg R.FC_LAST (w32 x)).flag R.FC_STATUS 0) :=
    ((State.setReg_regsSet _ _ _).mono (by simp)).trans ((State.flag_regsSet _ _ _).mono (by simp))
  have last : ((s.setReg R.FC_LAST (w32 x)).flag R.FC_STATUS 0).reg R.FC_LAST = w32 x := by
    rw [(State.flag_regsSet _ _ _).regsBut _ (by decide)]
    simp
  have flagged : ((s.setReg R.FC_LAST (w32 x)).flag R.FC_STATUS 0).rb R.FC_STATUS 0 = true :=
    State.rb_flag_self _ _ _ (by decide)
  have touch : Touch 0x6 s ((s.setReg R.FC_LAST (w32 x)).flag R.FC_STATUS 0) :=
    Touch.of State.setReg_touch |>.then State.flag_touch
  have fired : Touch 0x100000000007 s (((s.setReg R.FC_LAST (w32 x)).flag R.FC_STATUS 0).fireCentral 389) :=
    Touch.of State.setReg_touch |>.then State.flag_touch |>.then State.fireCentral_touch
  unfold State.incidentBegun
  generalize (s.setReg R.FC_LAST (w32 x)).flag R.FC_STATUS 0 = u at *
  have fires := RegsSet.fires (g := 4096 + 389) regs (by decide) (by decide) (touch.same_part .fab) (touch.same_part .pulses)
  have same : (u.fireCentral 389).regs = u.regs := State.fireCentral_touch.same_part .regs
  refine ⟨(State.reg_congr same _).trans last, (congrArg (bit · 0) (State.reg_congr same _)).trans flagged, fires,
    regs.trans (.of_regs same _), fired⟩

section
variable {s : State} {source reporter : Fin 8192} {cause : BitVec 8} {detail : Word} (awake : s.device ≠ .watch)
  (listed : sourceListed source.val = true) (listed' : sourceListed reporter.val = true)
  (severe : causeSeverity cause.toNat ≠ 0)
include awake listed listed' severe

theorem faultReport_of_new (fresh : s.newIncident (s.faultRec source.val) = true) :
    ∃ t, exec (.faultReport source reporter cause detail) s = .next t
      ∧ t.faultRec source.val = s.reported (s.faultRec source.val) reporter.val cause.toNat detail
      ∧ t.reg R.FC_LAST = w32 source.val
      ∧ t.rb R.FC_STATUS 0 = true
      ∧ Fires (4096 + 389) s t
      ∧ RegsBut [R.FC_LAST, R.FC_STATUS] s t
      ∧ SameBut [.regs, .scCount, .faults, .fab, .due, .pulses] s t := by
  have run := exec_faultReport source reporter cause detail awake
  rw [State.serveReport_of_good listed listed' severe, if_pos fresh] at run
  obtain ⟨-, unacked, -⟩ := State.reported_of_new fresh reporter.val cause.toNat detail
  generalize s.reported (s.faultRec source.val) reporter.val cause.toNat detail = r at *
  obtain ⟨last, flagged, fires, regs, touch⟩ := s.incidentBegun_effect source.val
  unfold State.incidentBegun at last flagged fires regs touch
  generalize ((s.setReg R.FC_LAST (w32 source.val)).flag R.FC_STATUS 0).fireCentral 389 = u at *
  have stored := u.setFaultRec_regsSet source.val r
  have fires' : Fires (4096 + 389) s (u.setFaultRec source.val r) :=
    fires.grow (State.setFaultRec_touch.same_part .pulses) (u.setFaultRec_dueGrows source.val r)
  refine ⟨_, run, ?_, ?_, ?_, fires', ?_, ?_⟩
  · rw [State.faultRec_setFaultRec, if_pos rfl, FaultRec.settled_of_open (.inl unacked)]
  · exact (stored.regsBut _ (by decide)).trans last
  · exact (u.setFaultRec_flag source.val r (by decide) (by decide)).trans flagged
  · exact (regs.trans (stored.mono (by simp))).regsBut
  · exact touch.sameBut.touch State.setFaultRec_touch

theorem faultReport_of_old (old : s.newIncident (s.faultRec source.val) = false) :
    ∃ t, exec (.faultReport source reporter cause detail) s = .next t
      ∧ (∃ o, t.faultRec source.val =
          { s.reported (s.faultRec source.val) reporter.val cause.toNat detail with isOpen := o })
      ∧ RegsBut [R.FC_STATUS] s t
      ∧ SameBut [.regs, .scCount, .faults, .fab, .due] s t := by
  have run := exec_faultReport source reporter cause detail awake
  rw [State.serveReport_of_good listed listed' severe, if_neg (by simp [old])] at run
  refine ⟨_, run, ?_, (State.setFaultRec_regsSet _ _ _).regsBut, State.setFaultRec_touch.sameBut⟩
  rw [State.faultRec_setFaultRec, if_pos rfl]
  exact FaultRec.settled_fields _

end

/-! ### Writes to the fault collector -/

section
variable {s : State} {m : Master} {r : RegRow}

theorem State.writeReg_fc {d a : Nat} {v : Word} (access : r.access = .ow ∨ r.access = .rw ∨ r.access = .wo)
    (notOwner : a ≠ ownerReg .fc a) : s.writeReg d .fc r a v = (.done, s.fcWrite r a v) := by
  obtain e | e | e := access <;> simp [State.writeReg, e, State.engineDrops, notOwner]

theorem exec_fcAck (h : s.Writes m .fc r R.FC_ACK) (v : Word) :
    exec (.fcAck m v) s = .next ((s.acknowledge (fld v 12 0)).answer m .done) :=
  State.writeCmd_eq h rfl v (State.writeReg_fc h.access (by decide))

theorem exec_fcRestore (h : s.Writes m .fc r R.FC_RESTORE) (v : Word) :
    exec (.fcRestore m v) s = .next ((s.fcRestore (fld v 12 0)).answer m .done) :=
  State.writeCmd_eq h rfl v (State.writeReg_fc h.access (by decide))

theorem exec_fcRetire (h : s.Writes m .fc r R.FC_RETIRE) (v : Word) :
    exec (.fcRetire m v) s = .next ((s.fcRetire (fld v 12 0)).answer m .done) :=
  State.writeCmd_eq h rfl v (State.writeReg_fc h.access (by decide))

theorem fcAck_of_open (h : s.Writes m .fc r R.FC_ACK) {v : Word} {x : Nat} (named : x = fld v 12 0)
    (stands : (s.faultRec x).isOpen = true) :
    ∃ t, exec (.fcAck m v) s = .next t
      ∧ (t.faultRec x).acked = true
      ∧ (t.faultRec x).isOpen = (s.faultRec x).active
      ∧ (t.faultRec x).active = (s.faultRec x).active
      ∧ (t.faultRec x).tally = (s.faultRec x).tally
      ∧ RegsBut [R.FC_STATUS] s t
      ∧ SameBut [.regs, .scCount, .faults, .fab, .due, .reply] s t
      ∧ t.reply = some ⟨m, .done⟩ := by
  have run := exec_fcAck h v
  rw [← named, show s.acknowledge x = s.setFaultRec x { s.faultRec x with acked := true } from if_pos stands] at run
  have stored := s.faultRec_setFaultRec x { s.faultRec x with acked := true } x
  have regs := s.setFaultRec_regsSet x { s.faultRec x with acked := true }
  have parts : SameBut [.regs, .scCount, .faults, .fab, .due, .reply] s (s.setFaultRec x { s.faultRec x with acked := true }) :=
    State.setFaultRec_touch.sameBut
  rw [if_pos rfl] at stored
  generalize s.setFaultRec x { s.faultRec x with acked := true } = u at *
  have same : (u.answer m .done).faultRec x = u.faultRec x := rfl
  have fields : (u.faultRec x).acked = true ∧ (u.faultRec x).isOpen = (s.faultRec x).active
      ∧ (u.faultRec x).active = (s.faultRec x).active ∧ (u.faultRec x).tally = (s.faultRec x).tally := by
    rw [stored]
    cases active : (s.faultRec x).active
    · rw [FaultRec.settled_of_done rfl (by exact active)]
      exact ⟨rfl, rfl, active, rfl⟩
    · rw [FaultRec.settled_of_open (.inr (by exact active))]
      exact ⟨rfl, stands, active, rfl⟩
  obtain ⟨acked, opened, active, tally⟩ := fields
  exact ⟨_, run, acked, opened, active, tally, RegsBut.answer regs.regsBut m .done, parts.answer (by decide) m .done, rfl⟩

theorem fcAck_of_closed (h : s.Writes m .fc r R.FC_ACK) {v : Word} (gone : (s.faultRec (fld v 12 0)).isOpen = false) :
    ∃ t, exec (.fcAck m v) s = .next t
      ∧ t.faults = s.faults
      ∧ RegsBut [] s t
      ∧ SameBut [.reply] s t
      ∧ t.reply = some ⟨m, .done⟩ := by
  have run := exec_fcAck h v
  rw [show s.acknowledge (fld v 12 0) = s from if_neg (by simp [gone])] at run
  exact ⟨_, run, rfl, fun _ _ => rfl, SameBut.answer (.refl _ s) (by decide) m .done, rfl⟩

/-! ### Restores asked for (R459) -/

theorem fcRestore_of_idle (h : s.Writes m .fc r R.FC_RESTORE) {v : Word} {x : Nat} (named : x = fld v 12 0)
    (idle : s.rb R.FC_RESTORE_STATE 31 = false) :
    ∃ t, exec (.fcRestore m v) s = .next t
      ∧ (s.restorable x = true → t.reg R.FC_RESTORE_STATE = w32 (2 ^ 31 + x * 2 ^ 16))
      ∧ (s.restorable x = false → t.reg R.FC_RESTORE_STATE = w32 (3 * 2 ^ 29 + x * 2 ^ 16))
      ∧ RegsBut [R.FC_RESTORE_STATE] s t
      ∧ SameBut [.regs, .reply] s t
      ∧ t.reply = some ⟨m, .done⟩ := by
  have run := exec_fcRestore h v
  rw [← named] at run
  cases can : s.restorable x
  · rw [show s.fcRestore x = s.setReg R.FC_RESTORE_STATE (w32 (3 * 2 ^ 29 + x * 2 ^ 16)) by
      simp [State.fcRestore, idle, can, at_, Nat.shiftLeft_eq]] at run
    exact ⟨_, run, nofun, fun _ => by simp, (s.setReg_regsSet _ _).regsBut.answer m .done,
      SameBut.answer (State.setReg_touch.sameBut) (by decide) m .done, rfl⟩
  · rw [show s.fcRestore x = s.setReg R.FC_RESTORE_STATE (w32 (2 ^ 31 + x * 2 ^ 16)) by
      simp [State.fcRestore, idle, can, at_, Nat.shiftLeft_eq]] at run
    exact ⟨_, run, fun _ => by simp, nofun, (s.setReg_regsSet _ _).regsBut.answer m .done,
      SameBut.answer (State.setReg_touch.sameBut) (by decide) m .done, rfl⟩

theorem fcRestore_of_busy (h : s.Writes m .fc r R.FC_RESTORE) (busy : s.rb R.FC_RESTORE_STATE 31 = true) (v : Word) :
    ∃ t, exec (.fcRestore m v) s = .next t
      ∧ t.rb R.FC_STATUS 5 = true
      ∧ RegsBut [R.FC_STATUS] s t
      ∧ SameBut [.regs, .scCount, .reply] s t
      ∧ t.reply = some ⟨m, .done⟩ := by
  have run := exec_fcRestore h v
  rw [show s.fcRestore (fld v 12 0) = s.flag R.FC_STATUS 5 from if_pos busy] at run
  exact ⟨_, run, State.rb_flag_self s _ _ (by decide), (s.flag_regsSet _ _).regsBut.answer m .done,
    SameBut.answer (State.flag_touch.sameBut) (by decide) m .done, rfl⟩

end

end Sys2Proof.Machine
end

section
/-!
Restores that end, and forced retirement (R459, R460).
-/
set_option Elab.async false
namespace Sys2Proof.Machine
open Sys2Proof

/-! ### Registers beside those of retirements (R459, R460) -/

/-- Registers other than IC_LE_RETIRED, FC_STATUS and FC_RESTORE_STATE. -/
def besideRetirement (a : Nat) : Prop :=
  (∀ j : Fin 16, a ≠ R.IC_LE_RETIRED j.val) ∧ a ≠ R.FC_STATUS ∧ a ≠ R.FC_RESTORE_STATE

theorem not_besideRetirement_retired (j : Fin 16) : ¬ besideRetirement (R.IC_LE_RETIRED j.val) := fun h => h.1 j rfl

theorem not_besideRetirement_status : ¬ besideRetirement R.FC_STATUS := fun h => h.2.1 rfl

theorem not_besideRetirement_restore : ¬ besideRetirement R.FC_RESTORE_STATE := fun h => h.2.2 rfl

/-- An address of an island away from IC_LE_RETIRED. -/
theorem besideRetirement_of_island {a : Nat} (low : 0x40000000 ≤ a) (high : a < 0x50000000)
    (away : a % 0x1000000 ≠ 0x260104) : besideRetirement a := by
  refine ⟨fun j e => away ?_, ?_, ?_⟩
  · rw [e]
    unfold R.IC_LE_RETIRED
    omega
  · unfold R.FC_STATUS
    omega
  · unfold R.FC_RESTORE_STATE
    omega

theorem besideRetirement_of_holdReg {n k a : Nat} (hn : n < 16) (hk : k < 4) (h : holdReg n k a) : besideRetirement a := by
  rcases h with rfl | rfl | ⟨m, q, hm, hq, rfl⟩
  · apply besideRetirement_of_island <;> unfold R.TU_STATUS <;> omega
  · apply besideRetirement_of_island <;> unfold R.TU_TRIP_STATE <;> omega
  · apply besideRetirement_of_island <;> unfold R.EQ_STATUS <;> omega

/-- The width words that an engine had written and that wait no longer. -/
def State.widthsDropped (s : State) (by_ : List Nat) (n m k : Nat) : State :=
  (List.range 13).foldl (fun t w => if by_.getD w 0 = m + 1 then t.setRb (R.TU_DLR_PEND n k) w false else t) s

/-- A unit with a further cause of its mark. -/
def State.orphanMarked (s : State) (n m k : Nat) (copy : Bool) : State :=
  let l := (48 + m) :: (s.tu n k).causes.filter (fun c => c != m && c != 48 + m)
  s.setTu n k { s.tu n k with causes := if copy then m :: l else l }

theorem State.unitOrphaned_eq (s : State) (n m k : Nat) (hold copy : Bool) : s.unitOrphaned n m k hold copy =
    if hold then
      (((s.widthsDropped (s.tu n k).pendBy n m k).setRb (R.TU_STATE n k) 7 true).orphanMarked n m k copy).sysHold n k 17
    else ((s.widthsDropped (s.tu n k).pendBy n m k).setRb (R.TU_STATE n k) 7 true).orphanMarked n m k copy := rfl

theorem State.unitOrphaned_regsIn (s : State) {n m k : Nat} (hn : n < 16) (hk : k < 4) (hold copy : Bool) :
    RegsIn besideRetirement s (s.unitOrphaned n m k hold copy) := by
  have pend : besideRetirement (R.TU_DLR_PEND n k) := by
    apply besideRetirement_of_island <;> unfold R.TU_DLR_PEND <;> omega
  have state : besideRetirement (R.TU_STATE n k) := by
    apply besideRetirement_of_island <;> unfold R.TU_STATE <;> omega
  have words : RegsIn besideRetirement s (s.widthsDropped (s.tu n k).pendBy n m k) :=
    RegsIn.foldl _ s fun w _ t => .ite (State.setReg_regsIn t pend _) (.refl _ t)
  rw [State.unitOrphaned_eq]
  generalize s.widthsDropped (s.tu n k).pendBy n m k = u at *
  have marked : RegsIn besideRetirement u (u.setRb (R.TU_STATE n k) 7 true) := State.setReg_regsIn u state _
  refine words.trans (marked.trans ?_)
  refine RegsIn.ite (RegsIn.trans (.of_regs rfl _) ?_) (.of_regs rfl _)
  exact (State.sysHold_regsIn _ n k 17).mono fun a => besideRetirement_of_holdReg hn hk

theorem State.unitAdopted_regsIn (s : State) {n m k : Nat} (hn : n < 16) (hk : k < 4) :
    RegsIn besideRetirement s (s.unitAdopted n m k) := by
  have state : besideRetirement (R.TU_STATE n k) := by
    apply besideRetirement_of_island <;> unfold R.TU_STATE <;> omega
  unfold State.unitAdopted
  exact RegsIn.trans (.of_regs rfl _) (State.setReg_regsIn _ state _)

theorem State.lt_of_mem_leUnits {s : State} {n m k : Nat} (h : k ∈ s.leUnits n m) : k < 4 := by
  unfold State.leUnits indicesWhere at h
  have := (List.mem_filter.mp h).1
  exact List.mem_range.mp this

/-- A restore of a loop engine, beside the retirement bit. -/
def State.leReturned (s : State) (n m : Nat) : State :=
  let r := s.le n m
  if s.leHosted n m then
    let s := s.setLe n m { r with
      copying := true, window := [], enabling := 0,
      ctxs := r.ctxs.map (fun x => { x with phase := .idle, outs := [], items := [], lastOut := none }) }
    (s.leUnits n m).foldl (fun t k => t.unitOrphaned n m k false true) s
  else
    let s := s.clearMem (fun a => decide (descAddr n m 0 ≤ a) && decide (a < stateAddr n m 8192))
    let s := ((s.setReg (R.LE_RUN n m) 0#32).setReg (R.LE_TRANSIENTS n m) 0#32).setLe n m
      { r with window := [], latches := [], latchAt := [], relays := [] }
    ((List.range 4).filter (fun k => (s.tu n k).causes.contains (48 + m))).foldl (fun t k => t.unitAdopted n m k) s

theorem State.leRestored_eq (s : State) (n m : Nat) :
    s.leRestored n m = (s.setRb (R.IC_LE_RETIRED n) m false).leReturned n m := rfl

theorem State.leReturned_regsIn (s : State) {n m : Nat} (hn : n < 16) (hm : m < 6) :
    RegsIn besideRetirement s (s.leReturned n m) := by
  have run : besideRetirement (R.LE_RUN n m) := by
    apply besideRetirement_of_island <;> unfold R.LE_RUN <;> omega
  have transients : besideRetirement (R.LE_TRANSIENTS n m) := by
    apply besideRetirement_of_island <;> unfold R.LE_TRANSIENTS <;> omega
  unfold State.leReturned
  dsimp only
  refine RegsIn.ite ?_ ?_
  · refine RegsIn.trans (RegsIn.of_regs rfl _) (RegsIn.foldl _ _ fun k hk t => ?_)
    exact t.unitOrphaned_regsIn hn (State.lt_of_mem_leUnits hk) false true
  · generalize hu : State.setLe _ n m _ = u
    have first : RegsIn besideRetirement s u := by
      rw [← hu]
      refine RegsIn.trans ?_ (.of_regs rfl _)
      refine RegsIn.trans ?_ (State.setReg_regsIn _ transients _)
      exact RegsIn.trans (.of_regs rfl _) (State.setReg_regsIn _ run _)
    refine first.trans (RegsIn.foldl _ _ fun k hk t => ?_)
    exact t.unitAdopted_regsIn hn (List.mem_range.mp (List.mem_filter.mp hk).1)

theorem State.imposeAwaiting_regsIn (s : State) {n : Nat} (hn : n < 16) (core : Nat) :
    RegsIn besideRetirement s (s.imposeAwaiting n core) := by
  refine RegsIn.foldl _ s fun i hi t => .ite ?_ (.refl _ t)
  have := List.mem_range.mp hi
  refine RegsIn.trans (.of_regs rfl _) (State.setReg_regsIn _ ?_ _)
  apply besideRetirement_of_island <;> unfold R.LE_CTXc_FIXED <;> omega

theorem besideRetirement_AC_STATE {n c : Nat} (hn : n < 16) (hc : c < 2) : besideRetirement (R.AC_STATE n c) := by
  apply besideRetirement_of_island <;> unfold R.AC_STATE <;> omega

theorem State.acHandBack_regsIn (s : State) {n c : Nat} (hn : n < 16) (hc : c < 2) :
    RegsIn besideRetirement s (s.acHandBack n c) := by
  unfold State.acHandBack
  refine .ite ?_ (.refl _ s)
  exact RegsIn.trans (.of_regs rfl _)
    (.ite (State.setReg_regsIn _ (besideRetirement_AC_STATE hn (by omega)) _) (.refl _ _))

theorem State.acRestored_regsIn (s : State) {n c : Nat} (hn : n < 16) (hc : c < 2) :
    RegsIn besideRetirement s (s.acRestored n c) := by
  have state := besideRetirement_AC_STATE hn hc
  unfold State.acRestored
  dsimp only
  refine RegsIn.trans ?_ (State.imposeAwaiting_regsIn _ hn c)
  refine RegsIn.trans ?_ (State.acHandBack_regsIn _ hn hc)
  exact RegsIn.trans (.of_regs rfl _) ((State.setReg_regsIn _ state _).trans (State.setReg_regsIn _ state _))

theorem besideRetirement_PORTp_STATE {p : Nat} (hp : p < 8192) : besideRetirement (R.NX_PORTp_STATE p) := by
  refine ⟨fun j => ?_, ?_, ?_⟩
  · unfold R.NX_PORTp_STATE R.IC_LE_RETIRED
    omega
  · unfold R.NX_PORTp_STATE R.FC_STATUS
    omega
  · unfold R.NX_PORTp_STATE R.FC_RESTORE_STATE
    omega

theorem State.portRestored_regsIn (s : State) {p : Nat} (hp : p < 8192) : RegsIn besideRetirement s (s.portRestored p) :=
  RegsIn.trans (State.setReg_regsIn _ (besideRetirement_PORTp_STATE hp) _) (.of_regs rfl _)

/-! ### Restores that end (R459) -/

/-- The answer of a restore that passed, before the unit works again. -/
def State.restorePassed (s : State) (x : Nat) : State :=
  (s.setReg R.FC_RESTORE_STATE (w32 (1 * 2 ^ 29 + x * 2 ^ 16))).flag R.FC_STATUS 3

/-- What a restore that passed leaves of its unit. -/
structure UnitRestored (x : Nat) (s t : State) : Prop where
  restore : t.reg R.FC_RESTORE_STATE = s.reg R.FC_RESTORE_STATE
  flag : t.rb R.FC_STATUS 3 = s.rb R.FC_STATUS 3
  engine : x < 0x60 → t.leRetired (x / 6) (x % 6) = false
  timer : 0x60 ≤ x → x < 0xA0 → t.rf (R.TU_RB_STATE ((x - 0x60) / 4) (x % 4)) 11 0 = 0
  port : 0x110 ≤ x → x < 0x114 → t.portRetired (x - 0x110) = false

/-- A restore touches the collector's registers nowhere. -/
theorem UnitRestored.of_regsIn {x : Nat} {s t : State} (regs : RegsIn besideRetirement s t)
    (timer : 0x60 ≤ x → x < 0xA0 → t.rf (R.TU_RB_STATE ((x - 0x60) / 4) (x % 4)) 11 0 = 0)
    (port : 0x110 ≤ x → x < 0x114 → t.portRetired (x - 0x110) = false) (notEngine : 0x60 ≤ x) : UnitRestored x s t :=
  ⟨regs.reg_eq not_besideRetirement_restore, regs.rb_eq not_besideRetirement_status 3, fun h => by omega, timer, port⟩

theorem State.restored_of_engine (s : State) {x : Nat} (hx : x < 0x60) : UnitRestored x s (s.restored x) := by
  have hn : x / 6 < 16 := by omega
  have hm : x % 6 < 6 := by omega
  rw [show s.restored x = (s.setRb (R.IC_LE_RETIRED (x / 6)) (x % 6) false).leReturned (x / 6) (x % 6) from
    if_pos hx]
  have cleared : (s.setRb (R.IC_LE_RETIRED (x / 6)) (x % 6) false).leRetired (x / 6) (x % 6) = false :=
    State.rb_setRb_self _ (by omega) _
  have first : RegsSet [R.IC_LE_RETIRED (x / 6)] s (s.setRb (R.IC_LE_RETIRED (x / 6)) (x % 6) false) :=
    State.setRb_regsSet _ _ _ _
  generalize s.setRb (R.IC_LE_RETIRED (x / 6)) (x % 6) false = u at *
  have rest := u.leReturned_regsIn hn hm
  have away : R.FC_STATUS ∉ [R.IC_LE_RETIRED (x / 6)] ∧ R.FC_RESTORE_STATE ∉ [R.IC_LE_RETIRED (x / 6)] := by
    simp only [List.mem_cons, List.not_mem_nil, or_false]
    unfold R.FC_STATUS R.FC_RESTORE_STATE R.IC_LE_RETIRED
    omega
  refine ⟨?_, ?_, fun _ => ?_, fun h => by omega, fun h => by omega⟩
  · exact (rest.reg_eq not_besideRetirement_restore).trans (first.regsBut _ away.2)
  · exact (rest.rb_eq not_besideRetirement_status 3).trans (first.rb_eq away.1 3)
  · exact (rest.rb_eq (not_besideRetirement_retired ⟨x / 6, hn⟩) _).trans cleared

theorem State.restored_of_timer (s : State) {x : Nat} (low : 0x60 ≤ x) (hx : x < 0xA0) :
    UnitRestored x s (s.restored x) := by
  rw [show s.restored x = (s.setReg (R.TU_RB_STATE ((x - 0x60) / 4) (x % 4)) 0#32).setTu ((x - 0x60) / 4) (x % 4)
    { s.tu ((x - 0x60) / 4) (x % 4) with rbFails := List.replicate 12 0 } by
      simp only [State.restored, show ¬ x < 0x60 by omega, hx, if_true, if_false]]
  refine .of_regsIn (RegsIn.trans (State.setReg_regsIn _ ?_ _) (.of_regs rfl _)) (fun _ _ => ?_) (fun h => by omega) low
  · apply besideRetirement_of_island <;> unfold R.TU_RB_STATE <;> omega
  · show fld ((s.setReg _ _).reg _) 11 0 = 0
    simp [fld]

theorem State.restored_of_other (s : State) {x : Nat} (low : 0xA0 ≤ x) (hx : x < 8192) :
    UnitRestored x s (s.restored x) := by
  have notEngine : ¬ x < 0x60 := by omega
  have notTimer : ¬ x < 0xA0 := by omega
  by_cases converter : x < 0xC0
  · rw [show s.restored x = s.acRestored ((x - 0xA0) / 2) (x % 2) by
      simp only [State.restored, notEngine, notTimer, converter, if_true, if_false]]
    exact .of_regsIn (s.acRestored_regsIn (by omega) (by omega)) (fun _ h => by omega) (fun h => by omega) (by omega)
  · by_cases core : x < 0x108
    · rw [show s.restored x = s.coreRestored (x - 0x100) by
        simp only [State.restored, notEngine, notTimer, converter, core, if_true, if_false]]
      exact .of_regsIn (.of_regs rfl _) (fun _ h => by omega) (fun h => by omega) (by omega)
    · rw [show s.restored x = s.portRestored (x - 0x110) by
        simp only [State.restored, notEngine, notTimer, converter, core, if_false]]
      exact .of_regsIn (s.portRestored_regsIn (by omega)) (fun _ h => by omega)
        (fun _ _ => State.rb_setRb_self s (by decide) false) (by omega)

theorem State.restored_effect (s : State) {x : Nat} (hx : x < 8192) : UnitRestored x s (s.restored x) := by
  by_cases engine : x < 0x60
  · exact s.restored_of_engine engine
  · by_cases timer : x < 0xA0
    · exact s.restored_of_timer (by omega) timer
    · exact s.restored_of_other (by omega) hx

/-- The record of a unit that has passed. -/
def State.restoreNoted (s : State) (x : Nat) : State :=
  if (s.faultRec x).incidents = 0 then s
  else s.setFaultRec x { s.faultRec x with active := false, lastRep := 0x1F0, lastT := lo64 s.devTime.toNat }

theorem State.restoreNoted_keeps {s t : State} {x : Nat} (h : UnitRestored x s t) : UnitRestored x s (t.restoreNoted x) := by
  unfold State.restoreNoted
  split
  · exact h
  · obtain ⟨restore, flag, engine, timer, port⟩ := h
    have regs := t.setFaultRec_regsSet x { t.faultRec x with active := false, lastRep := 0x1F0, lastT := lo64 t.devTime.toNat }
    have flags := t.setFaultRec_flag x { t.faultRec x with active := false, lastRep := 0x1F0, lastT := lo64 t.devTime.toNat }
      (i := 3) (by decide) (by decide)
    generalize t.setFaultRec x _ = u at *
    refine ⟨(regs.regsBut _ (by decide)).trans restore, flags.trans flag, fun hx => ?_, fun low hx => ?_, fun low hx => ?_⟩
    · refine (regs.rb_eq ?_ _).trans (engine hx)
      simp only [List.mem_cons, List.not_mem_nil, or_false]
      unfold R.IC_LE_RETIRED R.FC_STATUS
      omega
    · refine (regs.rf_eq ?_ _ _).trans (timer low hx)
      simp only [List.mem_cons, List.not_mem_nil, or_false]
      unfold R.TU_RB_STATE R.FC_STATUS
      omega
    · refine (regs.rb_eq ?_ _).trans (port low hx)
      simp only [List.mem_cons, List.not_mem_nil, or_false]
      unfold R.NX_PORTp_STATE R.FC_STATUS
      omega

section
variable {s : State}

theorem restoreComplete_of_pass (busy : s.rb R.FC_RESTORE_STATE 31 = true) {x : Nat}
    (named : x = s.rf R.FC_RESTORE_STATE 28 16) :
    ∃ t, exec (.restoreComplete 0) s = .next t
      ∧ t.reg R.FC_RESTORE_STATE = w32 (1 * 2 ^ 29 + x * 2 ^ 16)
      ∧ t.rb R.FC_STATUS 3 = true
      ∧ (x < 0x60 → t.leRetired (x / 6) (x % 6) = false)
      ∧ (0x60 ≤ x → x < 0xA0 → t.rf (R.TU_RB_STATE ((x - 0x60) / 4) (x % 4)) 11 0 = 0)
      ∧ (0x110 ≤ x → x < 0x114 → t.portRetired (x - 0x110) = false) := by
  have eq : s.restoreComplete 0 = ((s.restorePassed x).restored x).restoreNoted x := by
    rw [named]
    unfold State.restoreComplete at_
    simp only [busy, Bool.not_true, Bool.false_eq_true, if_false, true_or, if_true, Nat.shiftLeft_eq]
    rfl
  have run : exec (.restoreComplete 0) s = .next (((s.restorePassed x).restored x).restoreNoted x) := congrArg _ eq
  have shown : (s.restorePassed x).reg R.FC_RESTORE_STATE = w32 (1 * 2 ^ 29 + x * 2 ^ 16) := by
    refine ((State.flag_regsSet _ _ _).regsBut _ (by decide)).trans ?_
    simp
  have flagged : (s.restorePassed x).rb R.FC_STATUS 3 = true := State.rb_flag_self _ _ _ (by decide)
  have small : x < 8192 := by
    rw [named]
    exact fld_lt _ 28 16
  generalize s.restorePassed x = u at *
  obtain ⟨restore, flag, engine, timer, port⟩ := State.restoreNoted_keeps (u.restored_effect small)
  exact ⟨_, run, restore.trans shown, flag.trans flagged, engine, timer, port⟩

theorem restoreComplete_of_fail (busy : s.rb R.FC_RESTORE_STATE 31 = true) {x : Nat}
    (named : x = s.rf R.FC_RESTORE_STATE 28 16) {test : Fin 7} (fails : test ≠ 0) (tested : x < 0x60 ∨ 0xA0 ≤ x) :
    ∃ t, exec (.restoreComplete test) s = .next t
      ∧ t.reg R.FC_RESTORE_STATE = w32 (2 * 2 ^ 29 + x * 2 ^ 16 + test.val)
      ∧ t.rb R.FC_STATUS 4 = true
      ∧ RegsBut [R.FC_RESTORE_STATE, R.FC_STATUS] s t
      ∧ SameBut [.regs, .scCount] s t := by
  have nonzero : ¬ (test.val = 0 ∨ (0x60 ≤ x ∧ x < 0xA0)) := by
    have : test.val ≠ 0 := fun e => fails (Fin.ext e)
    omega
  have eq : s.restoreComplete test.val =
      (s.setReg R.FC_RESTORE_STATE (w32 (2 * 2 ^ 29 + x * 2 ^ 16 + test.val))).flag R.FC_STATUS 4 := by
    unfold State.restoreComplete at_
    simp only [busy, Bool.not_true, Bool.false_eq_true, if_false, ← named, nonzero, Nat.shiftLeft_eq]
  have run : exec (.restoreComplete test) s = .next (s.restoreComplete test.val) := rfl
  rw [eq] at run
  refine ⟨_, run, ?_, State.rb_flag_self _ _ _ (by decide), ?_, ?_⟩
  · refine ((State.flag_regsSet _ _ _).regsBut _ (by decide)).trans ?_
    simp
  · exact (((State.setReg_regsSet _ _ _).mono (by simp)).trans ((State.flag_regsSet _ _ _).mono (by simp))).regsBut
  · exact Touch.sameBut (w := 0x6) (Touch.of State.setReg_touch |>.then State.flag_touch)

end

/-! ### Forced retirement (R460) -/

theorem locate_IC_LE_RETIRED (j : Fin 16) : (locate (R.IC_LE_RETIRED j.val)).map (·.1) = some (.ic j.val) := by
  revert j
  decide

/-- A register of a loop engine, or of its memory. -/
theorem besideRetirement_of_engine {n m a : Nat} (h : (locate a).map (·.1) = some (.le n m)) : besideRetirement a := by
  refine ⟨fun j e => ?_, fun e => ?_, fun e => ?_⟩
  · rw [e, locate_IC_LE_RETIRED] at h
    simp at h
  · rw [e, show (locate R.FC_STATUS).map (·.1) = some .fc by decide] at h
    simp at h
  · rw [e, show (locate R.FC_RESTORE_STATE).map (·.1) = some .fc by decide] at h
    simp at h

theorem besideRetirement_EP_SLOTs {i : Nat} (hi : i < 4) :
    besideRetirement (R.EP_SLOTs_STATE i) ∧ besideRetirement (R.EP_SLOTs_RESULT i) := by
  constructor
  all_goals
    refine ⟨fun j => ?_, ?_, ?_⟩ <;>
      simp only [R.EP_SLOTs_STATE, R.EP_SLOTs_RESULT, R.IC_LE_RETIRED, R.FC_STATUS, R.FC_RESTORE_STATE] <;> omega

theorem State.finishEpochs_regsIn (s : State) : RegsIn besideRetirement s s.finishEpochs := by
  refine RegsIn.foldl _ s fun i hi t => .ite ?_ (.refl _ t)
  obtain ⟨state, result⟩ := besideRetirement_EP_SLOTs (List.mem_range.mp hi)
  have freed : RegsIn besideRetirement t (((t.setReg (R.EP_SLOTs_STATE i) 0#32).resultFlag i 0).fireCentral 321) :=
    ((State.setReg_regsIn _ state _).trans (State.setReg_regsIn _ result _)).trans (State.fireCentral_touch.regsIn _)
  refine .ite (freed.trans (.of_regs rfl _)) freed

theorem State.setActive_regsIn (s : State) {n m a : Nat} (h : entryBlk a = some (.le n m)) (v : Word) :
    RegsIn besideRetirement s (s.setActive a v) := by
  unfold State.setActive
  split
  case isTrue => exact State.setMword_touch.regsIn _
  case isFalse word =>
    have plain : descWord a = none := by simpa using word
    rw [entryBlk, plain] at h
    exact s.setReg_regsIn (besideRetirement_of_engine h) v

theorem State.swap_regsIn (s : State) (n m : Nat) : RegsIn besideRetirement s (s.swap (entryOf n m)) := by
  unfold State.swap
  dsimp only
  refine RegsIn.trans ?_ (State.finishEpochs_regsIn _)
  refine RegsIn.trans (RegsIn.foldl _ s fun e he t => ?_) (.of_regs rfl _)
  have sel := (List.mem_filter.mp he).2
  simp only [entryOf, Bool.and_eq_true, beq_iff_eq] at sel
  exact t.setActive_regsIn sel.2 e.value

/-- The retirement of an engine of source `src`, beside the retirement bits. -/
def State.leWithdrawn (s : State) (n m src rep : Nat) (units : List Nat) (safe free : Bool) : State :=
  let s := s.flag (R.LE_STATUS n m) 2
  let r := s.le n m
  let s := s.setLe n m { r with
    copying := free, enabling := 0,
    ctxs := r.ctxs.map (fun x => { x with phase := .idle, outs := [], items := [], lastOut := none }) }
  let s := units.foldl (fun t k => t.unitOrphaned n m k safe free) s
  let s := s.report src rep (if free then 2 else 3) (s.reg (R.LE_FAULT_INFO n m))
  if free then s
  else
    let s := (s.setReg (R.LE_RUN n m) 0#32).flag (R.LE_STATUS n m) 4
    s.swap (entryOf n m)

theorem State.leWithdrawn_regsIn (s : State) {n m : Nat} (hn : n < 16) (hm : m < 6) (src rep : Nat) {units : List Nat}
    (known : ∀ k ∈ units, k < 4) (safe free : Bool) :
    RegsIn besideRetirement s (s.leWithdrawn n m src rep units safe free) := by
  have status : besideRetirement (R.LE_STATUS n m) := by
    apply besideRetirement_of_island <;> unfold R.LE_STATUS <;> omega
  have run : besideRetirement (R.LE_RUN n m) := by
    apply besideRetirement_of_island <;> unfold R.LE_RUN <;> omega
  unfold State.leWithdrawn
  dsimp only
  generalize hu : List.foldl _ _ units = u
  have first : RegsIn besideRetirement s u := by
    rw [← hu]
    refine RegsIn.trans ((s.flag_regsIn status 2).trans (.of_regs rfl _)) (RegsIn.foldl _ _ fun k hk t => ?_)
    exact t.unitOrphaned_regsIn hn (known k hk) safe free
  refine first.trans (.ite (.of_regs rfl _) (RegsIn.trans ?_ (State.swap_regsIn _ n m)))
  have reported : RegsIn besideRetirement u (u.report src rep (if free then 2 else 3) (u.reg (R.LE_FAULT_INFO n m))) :=
    .of_regs rfl _
  generalize u.report _ _ _ _ = x at *
  have stopped : RegsIn besideRetirement x (x.setReg (R.LE_RUN n m) 0#32) := x.setReg_regsIn run _
  exact reported.trans (stopped.trans (State.flag_regsIn _ status 4))

section
variable {s : State} {m : Master} {r : RegRow} {v : Word}

/-- The retirement of an engine that stands for itself. -/
theorem State.leRetire_of_own {n e : Nat} (works : s.leRetired n e = false) (own : s.leHosted n e = false)
    (notSubst : s.leSubst n ≠ some e) : ∃ safe free, s.leRetire n e true =
      (s.setRb (R.IC_LE_RETIRED n) e true).leWithdrawn n e (6 * n + e) 0x1F0 (s.leUnits n e) safe free := by
  have physical : s.lePhysical n e = e := by simp [State.lePhysical, own]
  unfold State.leRetire
  simp only [physical, works, Bool.false_eq_true, if_false, notSubst, if_true]
  exact ⟨_, _, rfl⟩

theorem fcRetire_of_engine (h : s.Writes m .fc r R.FC_RETIRE) {n : Fin 16} {e : Fin 6}
    (named : fld v 12 0 = 6 * n.val + e.val) (works : s.leRetired n.val e.val = false)
    (own : s.leHosted n.val e.val = false) (notSubst : s.leSubst n.val ≠ some e.val) :
    ∃ t, exec (.fcRetire m v) s = .next t
      ∧ t.leRetired n.val e.val = true
      ∧ (∀ k : Fin 16, k ≠ n → t.reg (R.IC_LE_RETIRED k.val) = s.reg (R.IC_LE_RETIRED k.val))
      ∧ t.reply = some ⟨m, .done⟩ := by
  have run := exec_fcRetire h v
  have window : s.leWindow n.val e.val = e.val := by simp [State.leWindow, notSubst]
  obtain ⟨safe, free, eq⟩ := State.leRetire_of_own works own notSubst
  have units : ∀ k ∈ s.leUnits n.val e.val, k < 4 := fun k => State.lt_of_mem_leUnits
  have split : (6 * n.val + e.val) / 6 = n.val ∧ (6 * n.val + e.val) % 6 = e.val := by omega
  have retire : s.fcRetire (6 * n.val + e.val) = (s.setRb (R.IC_LE_RETIRED n.val) e.val true).leWithdrawn n.val e.val
      (6 * n.val + e.val) 0x1F0 (s.leUnits n.val e.val) safe free := by
    unfold State.fcRetire
    rw [if_pos (by omega), split.1, split.2]
    simp only [works, Bool.false_eq_true, if_false, window, eq]
  rw [named, retire] at run
  have marked : (s.setRb (R.IC_LE_RETIRED n.val) e.val true).leRetired n.val e.val = true :=
    State.rb_setRb_self _ (by omega) _
  have first : RegsSet [R.IC_LE_RETIRED n.val] s (s.setRb (R.IC_LE_RETIRED n.val) e.val true) := State.setRb_regsSet _ _ _ _
  have rest := State.leWithdrawn_regsIn (s.setRb (R.IC_LE_RETIRED n.val) e.val true) n.isLt e.isLt (6 * n.val + e.val) 0x1F0 units safe free
  generalize s.setRb (R.IC_LE_RETIRED n.val) e.val true = u at *
  generalize u.leWithdrawn _ _ _ _ _ _ _ = w at *
  refine ⟨_, run, (rest.rb_eq (not_besideRetirement_retired n) e.val).trans marked, fun k other => ?_, rfl⟩
  refine (rest.reg_eq (not_besideRetirement_retired k)).trans (first.regsBut _ ?_)
  simp only [List.mem_cons, List.not_mem_nil, or_false]
  intro same
  refine other (Fin.ext ?_)
  unfold R.IC_LE_RETIRED at same
  omega

theorem fcRetire_of_none (h : s.Writes m .fc r R.FC_RETIRE)
    (named : (0x60 ≤ fld v 12 0 ∧ fld v 12 0 < 0xA0) ∨ 0xC0 ≤ fld v 12 0) :
    ∃ t, exec (.fcRetire m v) s = .next t
      ∧ t.rb R.FC_STATUS 6 = true
      ∧ RegsBut [R.FC_STATUS] s t
      ∧ SameBut [.regs, .scCount, .reply] s t
      ∧ t.reply = some ⟨m, .done⟩ := by
  have run := exec_fcRetire h v
  rw [show s.fcRetire (fld v 12 0) = s.flag R.FC_STATUS 6 by
    unfold State.fcRetire
    rw [if_neg (by omega), if_neg (by omega)]] at run
  exact ⟨_, run, State.rb_flag_self s _ _ (by decide), (s.flag_regsSet _ _).regsBut.answer m .done,
    SameBut.answer (State.flag_touch.sameBut) (by decide) m .done, rfl⟩

/-- A part of a replaced field reads as that part of the new value. -/
theorem fld_setFld_within (w : Word) (v : Nat) {hi lo hi2 lo2 : Nat} (h : hi < 32) (low : lo ≤ lo2) (high : hi2 ≤ hi) :
    fld (setFld w hi lo v) hi2 lo2 = (v >>> (lo2 - lo)) % 2 ^ (hi2 + 1 - lo2) := by
  apply Nat.eq_of_testBit_eq
  intro j
  rw [testBit_fld, getLsbD_setFld, Nat.testBit_mod_two_pow, Nat.testBit_shiftRight]
  by_cases hj : j < hi2 + 1 - lo2
  · have inside : lo2 + j < 32 ∧ lo ≤ lo2 + j ∧ lo2 + j ≤ hi := by omega
    have same : lo2 - lo + j = lo2 + j - lo := by omega
    simp [hj, inside, same]
  · simp [hj]

/-- The retirement of a converter core that hosts nothing for its partner any more. -/
def State.acWithdrawn (s u : State) (n c : Nat) : State :=
  let s := u.setAc n c { s.ac n c with dueReg := none, dueInj := none, slot := none, cont := false }
  let s := s.setReg (R.AC_STATE n c) (setFld (s.reg (R.AC_STATE n c)) 31 26 0x20)
  let s := (s.flag (R.AC_STATUS n c) 5).fireAc n c 4
  s.report (acSource n c) 0x1F0 (if s.acTakeable n c then 5 else 6) (s.reg (R.AC_CHK n c))

theorem State.acRetire_of_working {n c : Nat} (works : s.acRole n c ≠ 2) :
    ∃ u, s.acRetire n c true = State.acWithdrawn s u n c := by
  unfold State.acRetire
  rw [if_neg works]
  exact ⟨_, rfl⟩

theorem State.acWithdrawn_effect (s u : State) (n c : Nat) :
    (State.acWithdrawn s u n c).acRole n c = 2 ∧ (State.acWithdrawn s u n c).rb (R.AC_STATUS n c) 5 = true := by
  unfold State.acWithdrawn
  dsimp only
  generalize u.setAc n c _ = x
  have role : (x.setReg (R.AC_STATE n c) (setFld (x.reg (R.AC_STATE n c)) 31 26 0x20)).rf (R.AC_STATE n c) 31 30 = 2 := by
    unfold State.rf
    simp only [State.reg_setReg, if_true]
    exact fld_setFld_within _ _ (by decide) (by decide) (by decide)
  generalize x.setReg (R.AC_STATE n c) _ = y at *
  have status : R.AC_STATE n c ∉ [R.AC_STATUS n c] := by
    simp only [List.mem_cons, List.not_mem_nil, or_false]
    unfold R.AC_STATE R.AC_STATUS
    omega
  have role' : (y.flag (R.AC_STATUS n c) 5).rf (R.AC_STATE n c) 31 30 = 2 :=
    ((State.flag_regsSet _ _ _).rf_eq status 31 30).trans role
  have flagged : (y.flag (R.AC_STATUS n c) 5).rb (R.AC_STATUS n c) 5 = true := State.rb_flag_self _ _ _ (by decide)
  generalize y.flag (R.AC_STATUS n c) 5 = z at *
  have same : (z.fireAc n c 4).regs = z.regs := State.fireAc_touch.same_part .regs
  generalize z.fireAc n c 4 = q at *
  exact ⟨(congrArg (fld · 31 30) (State.reg_congr same _)).trans role',
    (congrArg (bit · 5) (State.reg_congr same _)).trans flagged⟩

theorem fcRetire_of_converter (h : s.Writes m .fc r R.FC_RETIRE) {n : Fin 16} {c : Fin 2}
    (named : fld v 12 0 = 0xA0 + 2 * n.val + c.val) (works : s.acRole n.val c.val ≠ 2) :
    ∃ t, exec (.fcRetire m v) s = .next t
      ∧ t.acRole n.val c.val = 2
      ∧ t.rb (R.AC_STATUS n.val c.val) 5 = true
      ∧ t.reply = some ⟨m, .done⟩ := by
  have run := exec_fcRetire h v
  obtain ⟨u, eq⟩ := State.acRetire_of_working works
  have split : (0xA0 + 2 * n.val + c.val - 0xA0) / 2 = n.val ∧ (0xA0 + 2 * n.val + c.val) % 2 = c.val := by omega
  have retire : s.fcRetire (0xA0 + 2 * n.val + c.val) = State.acWithdrawn s u n.val c.val := by
    unfold State.fcRetire
    rw [if_neg (by omega), if_pos (by omega), split.1, split.2, ← eq]
    exact if_neg works
  rw [named, retire] at run
  obtain ⟨role, flagged⟩ := State.acWithdrawn_effect s u n.val c.val
  generalize State.acWithdrawn s u n.val c.val = w at *
  exact ⟨_, run, role, flagged, rfl⟩

end

/-- Settles O24, clause by clause: what a served report makes of its record, and which registers a restore and a retirement
write. -/
theorem faultCollectorCommands : Obligations.FaultCollectorCommands := by
  refine ⟨fun source reporter cause detail s awake listed listed' severe fresh => ?_,
    fun source reporter cause detail s awake listed listed' severe old => ?_,
    fun source reporter cause detail s watch => ?_,
    fun m v x s r h named stands => fcAck_of_open h named stands,
    fun m v s r h gone => fcAck_of_closed h gone,
    fun m v x s r h named idle => fcRestore_of_idle h named idle,
    fun m v s r h busy => fcRestore_of_busy h busy v,
    fun test x s busy named fails tested => restoreComplete_of_fail busy named fails tested,
    fun test x s busy named passed => ?_,
    fun m n e v s r h named works own notSubst => fcRetire_of_engine h named works own notSubst,
    fun m n c v s r h named works => fcRetire_of_converter h named works,
    fun m v s r h named => fcRetire_of_none h named⟩
  · obtain ⟨t, run, record, last, flagged, fires, regs, parts⟩ := faultReport_of_new awake listed listed' severe fresh
    obtain ⟨opened, acked, tally, incidents, firstT, firstRep, lastT, lastRep, first⟩ :=
      State.reported_of_new fresh reporter.val cause.toNat detail
    rw [← record] at opened acked tally incidents firstT firstRep lastT lastRep first
    exact ⟨t, run, opened, acked, tally, incidents, firstT, firstRep, lastT, lastRep, first, last, flagged, fires, regs, parts⟩
  · obtain ⟨t, run, ⟨o, record⟩, regs, parts⟩ := faultReport_of_old (detail := detail) awake listed listed' severe old
    obtain ⟨tally, incidents, firstT, lastT, lastRep, graver, lesser⟩ :=
      State.reported_of_old old reporter.val cause.toNat detail
    refine ⟨t, run, ?_⟩
    rw [record]
    exact ⟨tally, incidents, firstT, lastT, lastRep, graver, lesser, regs, parts⟩
  · refine ⟨_, congrArg Host.Outcome.next (if_pos (by simp [watch])), rfl, rfl, ?_⟩
    exact Touch.sameBut (.part (Keep.upd_faults _ _))
  · subst passed
    exact restoreComplete_of_pass busy named

end Sys2Proof.Machine
end

section
/-!
What a delivered transition writes (R250, R256, R263 to R267, R271).
-/
set_option Elab.async false
namespace Sys2Proof.Machine
open Sys2Proof

/-! ### What a delivered transition writes (R250, R256, R263 to R267, R271) -/

/-- The registers that the delivery of a transition of pennant `p` writes beside its control register. -/
def deliverReg (p a : Nat) : Prop :=
  a = pnStatus p ∨ a = R.FB_FAULT_INFO ∨ a = R.FI_FAULT_INFO (p / 64 % 16) ∨ (∃ h, h < 512 ∧ a = hsState h) ∨ eqStatusReg a

section
variable {s : State} {p : Nat} (hp : p < 2048)
include hp

theorem State.pnFault_regsIn (s : State) (flag : Nat) : RegsIn (deliverReg p) s (s.pnFault p flag) := by
  unfold State.pnFault State.fabFault pnSeg
  dsimp only
  by_cases island : p < 1024
  · have seg : p / 64 < 16 := by omega
    have same : p / 64 % 16 = p / 64 := by omega
    simp only [island, if_true, seg]
    refine (s.flag_regsIn (.inl ?_) flag).trans (State.setReg_regsIn _ (.inr (.inr (.inl ?_))) _)
    · rw [pnStatus, if_pos island]
    · rw [same]
  · simp only [island, if_false, show ¬ 16 < 16 by decide]
    refine (s.flag_regsIn (.inl ?_) flag).trans (State.setReg_regsIn _ (.inr (.inl rfl)) _)
    rw [pnStatus, if_neg island]

theorem State.record_regsIn (s : State) (level fired : Bool) : RegsIn (deliverReg p) s (s.record p level fired) := by
  unfold State.record
  refine .ite (.ite (RegsIn.trans (.of_regs rfl _) (State.pnFault_regsIn hp _ 5)) (.of_regs rfl _)) (.refl _ s)

omit hp in
theorem State.present_regsIn (s : State) (level : Bool) (which : Nat → Bool) :
    RegsIn (deliverReg p) s (s.present p level which) := by
  unfold State.present
  dsimp only
  have arrivals : ∀ t : State, ∀ d f, RegsIn (deliverReg p) t (t.ssiArrivals d f) := fun t d f =>
    (t.ssiArrivals_regsIn d f).mono fun _ h => .inr (.inr (.inr (.inr h)))
  exact .ite (RegsIn.trans (.of_regs rfl _) (arrivals _ _ _)) (.of_regs rfl _)

omit hp in
theorem State.evalHoist_regsIn (s : State) {h : Nat} (hh : h < 512) (rising : Option Nat) :
    RegsIn (deliverReg p) s (s.evalHoist h rising) := by
  have state : deliverReg p (hsState h) := .inr (.inr (.inr (.inl ⟨h, hh, rfl⟩)))
  unfold State.evalHoist
  dsimp only
  generalize hu : State.setReg s (hsState h) _ = u
  have first : RegsIn (deliverReg p) s u := hu ▸ s.setReg_regsIn state _
  generalize ht : State.noteFilter _ h = t
  have noted : RegsIn (deliverReg p) s t := by
    rw [← ht]
    exact first.trans (RegsIn.trans (.of_regs rfl _) (State.noteFilter_touch.regsIn _))
  exact .ite noted (noted.trans (.of_regs rfl _))

omit hp in
theorem State.lt_of_mem_hoistsSet {h : Nat} (mem : h ∈ s.hoistsSet) : h < 512 := by
  have listed := List.mem_eraseDups.mp mem
  obtain ⟨e, -, he⟩ := List.mem_filterMap.mp listed
  split at he
  · split at he
    · simp at he
    · simp only [Option.some.injEq] at he
      omega
  · cases island : islandOf e.1 with
    | none => simp [island] at he
    | some n =>
      have hn : n < 16 := by
        unfold islandOf at island
        split at island
        · simp only [Option.some.injEq] at island
          omega
        · simp at island
      simp only [island] at he
      split at he
      · simp only [Option.some.injEq] at he
        omega
      · simp at he

omit hp in
theorem State.hoistsTold_regsIn (s : State) (rising : Option Nat) :
    RegsIn (deliverReg p) s ((s.hoistsNaming p).foldl (fun t h => t.evalHoist h rising) s) :=
  RegsIn.foldl _ s fun _ mem x => x.evalHoist_regsIn (State.lt_of_mem_hoistsSet (List.mem_filter.mp mem).1) rising

/-- A delivery up to its consumers. -/
def State.arrived (s : State) (p : Nat) (level fired : Bool) : State :=
  let s := s.record p level fired
  let s := if s.allLate p then s else s.present p level (fun a => !s.detAt a)
  if s.allLate p || (List.range 8).any s.coreDet then s.delay p level else s

/-- A delivery from the pennants that import it on. -/
def State.passedOn (s : State) (p : Nat) (level fired : Bool) : State :=
  let s := s.enqueue (((s.selecting (.pennant p)).filter (fun q => !s.selRefused q)).map
    (fun q => transition q (level != s.rb (pnCfg q) 29) fired))
  let s := (s.hoistsNaming p).foldl (fun t h => t.evalHoist h (if level then some p else none)) s
  let s := if level && p == 2047 && s.mp.autostart == 1 then s.enqueue [.autostartSourceHaul] else s
  if level && pnIsGlobal p && s.rb (pnCfg p) 24 && (s.device == .watch || s.device == .entering) then
    s.enqueue [.wakeSource (.pennant (Fin.ofNat 1024 (p - 1024)))]
  else s

omit hp in
theorem State.deliver_eq (s : State) (p : Nat) (level fired : Bool) :
    s.deliver p level fired = ((s.setRb (pnCtrl p) 0 level).arrived p level fired).passedOn p level fired := rfl

theorem State.arrived_regsIn (s : State) (level fired : Bool) : RegsIn (deliverReg p) s (s.arrived p level fired) := by
  unfold State.arrived
  dsimp only
  have recorded := State.record_regsIn hp s level fired
  generalize s.record p level fired = u at *
  have presented : RegsIn (deliverReg p) u (if u.allLate p then u else u.present p level (fun a => !u.detAt a)) :=
    .ite (.refl _ u) (u.present_regsIn _ _)
  generalize (if u.allLate p then u else u.present p level (fun a => !u.detAt a)) = v at *
  exact recorded.trans (presented.trans (.ite (.of_regs rfl _) (.refl _ v)))

omit hp in
theorem State.passedOn_regsIn (s : State) (level fired : Bool) : RegsIn (deliverReg p) s (s.passedOn p level fired) := by
  unfold State.passedOn
  dsimp only
  have told : RegsIn (deliverReg p) s (s.enqueue (((s.selecting (.pennant p)).filter (fun q => !s.selRefused q)).map
    (fun q => transition q (level != s.rb (pnCfg q) 29) fired))) := .of_regs rfl _
  generalize s.enqueue _ = u at *
  have hoists := u.hoistsTold_regsIn (p := p) (if level then some p else none)
  generalize (u.hoistsNaming p).foldl (fun t h => t.evalHoist h (if level then some p else none)) u = v at *
  refine told.trans (hoists.trans ?_)
  have haul : RegsIn (deliverReg p) v
      (if level && p == 2047 && v.mp.autostart == 1 then v.enqueue [.autostartSourceHaul] else v) :=
    .ite (.of_regs rfl _) (.refl _ v)
  generalize (if level && p == 2047 && v.mp.autostart == 1 then v.enqueue [.autostartSourceHaul] else v) = x at *
  exact haul.trans (.ite (.of_regs rfl _) (.refl _ x))

theorem State.deliver_regsIn (s : State) (level fired : Bool) :
    RegsIn (deliverReg p) (s.setRb (pnCtrl p) 0 level) (s.deliver p level fired) := by
  rw [State.deliver_eq]
  exact (State.arrived_regsIn hp _ level fired).trans (State.passedOn_regsIn _ level fired)

omit hp in
theorem hsState_cases {h : Nat} (hh : h < 512) :
    (∃ i j, i < 16 ∧ j < 16 ∧ hsState h = R.FI_HSh_STATE i j) ∨ (∃ j, j < 256 ∧ hsState h = R.FB_HSh_STATE j) := by
  unfold hsState
  split
  · exact .inl ⟨_, _, by omega, by omega, rfl⟩
  · exact .inr ⟨_, by omega, rfl⟩

omit hp in
/-- An address of the fabric's pennant registers is none that a delivery writes. -/
theorem not_deliverReg_of {a : Nat} (h : (0x40000000 ≤ a ∧ 0x251000 ≤ a % 0x1000000 ∧ a % 0x1000000 < 0x251400)
    ∨ (0x50010000 ≤ a ∧ a < 0x50020000) ∨ (0x50030000 ≤ a ∧ a < 0x50040000)) (p : Nat) : ¬ deliverReg p a := by
  have status : a ≠ pnStatus p := by
    unfold pnStatus R.FI_STATUS R.FB_STATUS
    split <;> omega
  have info : a ≠ R.FB_FAULT_INFO ∧ a ≠ R.FI_FAULT_INFO (p / 64 % 16) := by
    unfold R.FB_FAULT_INFO R.FI_FAULT_INFO
    constructor <;> omega
  rintro (e | e | e | ⟨i, hi, e⟩ | ⟨n, q, hn, hq, e⟩)
  · exact status e
  · exact info.1 e
  · exact info.2 e
  · obtain ⟨i', j, hi', hj, e'⟩ | ⟨j, hj, e'⟩ := hsState_cases hi
    · rw [e', R.FI_HSh_STATE] at e
      omega
    · rw [e', R.FB_HSh_STATE] at e
      omega
  · rw [R.EQ_STATUS] at e
    omega

/-- Where the control and configuration registers of a pennant stand. -/
theorem pn_place : ∀ a, (a = pnCtrl p ∨ a = pnCfg p) →
    (0x40000000 ≤ a ∧ 0x251000 ≤ a % 0x1000000 ∧ a % 0x1000000 < 0x251400) ∨ (0x50010000 ≤ a ∧ a < 0x50020000) := by
  rintro a (rfl | rfl)
  · unfold pnCtrl R.FI_PNp_CTRL R.FB_PNg_CTRL
    split
    · exact .inl (by omega)
    · exact .inr (by omega)
  · unfold pnCfg R.FI_PNp_CFG R.FB_PNg_CFG
    split
    · exact .inl (by omega)
    · exact .inr (by omega)

/-- What the delivery of a transition leaves. -/
theorem State.deliver_effect (s : State) (level fired : Bool) :
    (s.deliver p level fired).presented p = level
      ∧ (s.deliver p level fired).rb (pnCtrl p) 31 = s.rb (pnCtrl p) 31
      ∧ (s.deliver p level fired).reg (pnCfg p) = s.reg (pnCfg p) := by
  have rest := State.deliver_regsIn hp s level fired
  have ctrl := not_deliverReg_of ((pn_place hp _ (.inl rfl)).imp_right .inl) p
  have cfg := not_deliverReg_of ((pn_place hp _ (.inr rfl)).imp_right .inl) p
  have apart : pnCfg p ≠ pnCtrl p := by
    unfold pnCfg pnCtrl R.FI_PNp_CFG R.FB_PNg_CFG R.FI_PNp_CTRL R.FB_PNg_CTRL
    split <;> omega
  refine ⟨(rest.rb_eq ctrl 0).trans (State.rb_setRb_self _ (by decide) _), ?_, ?_⟩
  · rw [rest.rb_eq ctrl, State.rb_setRb_of_lt _ _ _ _ _ (by decide), if_neg (by simp)]
  · rw [rest.reg_eq cfg, State.reg_setRb, if_neg apart]

end

end Sys2Proof.Machine
end

section
/-!
Pennants, hoists, FB_FIRE and signal sets (R256, R262, R265, R268, R269).
-/
set_option Elab.async false
namespace Sys2Proof.Machine
open Sys2Proof

/-! ### PENNANT_TRANSITION and DEBOUNCE_EXPIRY (R256, R265) -/

/-- The noting of a ball's line changes nothing that the transition itself looks at. -/
theorem State.noteBall_keeps (s : State) (p : Nat) (level : Bool) :
    (s.noteBall p level).regs = s.regs ∧ (s.noteBall p level).pulses = s.pulses
      ∧ (∀ q, (s.noteBall p level).srcHeld q = s.srcHeld q) ∧ (∀ q, (s.noteBall p level).gated q = s.gated q)
      ∧ (∀ q, (s.noteBall p level).segRuns q = s.segRuns q) := by
  unfold State.noteBall
  split
  · dsimp only
    split
    · exact ⟨rfl, rfl, fun _ => rfl, fun _ => rfl, fun _ => rfl⟩
    · exact ⟨rfl, rfl, fun _ => rfl, fun _ => rfl, fun _ => rfl⟩
  · exact ⟨rfl, rfl, fun _ => rfl, fun _ => rfl, fun _ => rfl⟩

theorem State.noteBall_of_plain {s : State} {p : Nat} {level : Bool}
    (plain : ∀ g, s.selection p = .source g → ballSource g = false) : s.noteBall p level = s := by
  unfold State.noteBall
  split
  case h_1 g chosen => simp [plain g chosen]
  case h_2 => rfl

/-- The registers that a delivery writes, as a list. -/
theorem deliverReg_mem {p a : Nat} (h : a = pnCtrl p ∨ deliverReg p a) :
    a ∈ pnCtrl p :: pnStatus p :: R.FB_FAULT_INFO :: R.FI_FAULT_INFO (p / 64 % 16) :: hoistRegs ++ portStatus := by
  simp only [List.cons_append, List.mem_cons, List.mem_append]
  rcases h with h | h | h | h | ⟨i, hi, h⟩ | ⟨n, q, hn, hq, h⟩
  · exact .inl h
  · exact .inr (.inl h)
  · exact .inr (.inr (.inl h))
  · exact .inr (.inr (.inr (.inl h)))
  · exact .inr (.inr (.inr (.inr (.inl (List.mem_map.mpr ⟨i, List.mem_range.mpr hi, h.symm⟩)))))
  · refine .inr (.inr (.inr (.inr (.inr (List.mem_map.mpr ⟨2 * n + q, List.mem_range.mpr (by omega), ?_⟩)))))
    rw [h, show (2 * n + q) / 2 = n by omega, show (2 * n + q) % 2 = q by omega]

theorem State.deliver_allRegs {p : Nat} (hp : p < 2048) (s : State) (level fired : Bool) :
    RegsIn (fun a => a = pnCtrl p ∨ deliverReg p a) s (s.deliver p level fired) :=
  RegsIn.trans (State.setReg_regsIn s (.inl rfl) _) ((State.deliver_regsIn hp s level fired).mono fun _ => .inr)

section
variable {s : State}

theorem pennantTransition_effect {p : Fin 2048} {level fired : Bool} (on : s.rb (pnCtrl p.val) 31 = true)
    (open_ : s.gated p.val = false) (runs : s.segRuns p.val = true) (free : fired = false → s.srcHeld p.val = false)
    (other : s.presented p.val ≠ (level || s.firing p.val)) :
    ∃ t, exec (.pennantTransition p level fired) s = .next t
      ∧ t.presented p.val = (level || s.firing p.val)
      ∧ t.rb (pnCtrl p.val) 31 = true
      ∧ t.reg (pnCfg p.val) = s.reg (pnCfg p.val)
      ∧ RegsBut (pnCtrl p.val :: pnStatus p.val :: R.FB_FAULT_INFO :: R.FI_FAULT_INFO (p.val / 64 % 16) :: hoistRegs
          ++ portStatus) s t
      ∧ SameBut [.regs, .scCount, .fab, .eqs, .due] s t := by
  have run : exec (.pennantTransition p level fired) s =
      .next ((if fired then s else s.noteBall p.val level).lineTransition p.val level fired) := rfl
  have noted : (if fired then s else s.noteBall p.val level).regs = s.regs
      ∧ (if fired then s else s.noteBall p.val level).pulses = s.pulses
      ∧ (∀ q, (if fired then s else s.noteBall p.val level).srcHeld q = s.srcHeld q)
      ∧ (∀ q, (if fired then s else s.noteBall p.val level).gated q = s.gated q)
      ∧ (∀ q, (if fired then s else s.noteBall p.val level).segRuns q = s.segRuns q) := by
    split
    · exact ⟨rfl, rfl, fun _ => rfl, fun _ => rfl, fun _ => rfl⟩
    · exact s.noteBall_keeps p.val level
  have touch : Touch 0x801 s (if fired then s else s.noteBall p.val level) := .ite .refl (.of State.noteBall_touch)
  generalize (if fired then s else s.noteBall p.val level) = u at *
  obtain ⟨regs, pulses, held, gate, seg⟩ := noted
  have rb : ∀ a i, u.rb a i = s.rb a i := fun a i => congrArg (bit · i) (State.reg_congr regs a)
  have firing : u.firing p.val = s.firing p.val := by
    unfold State.firing
    rw [pulses]
  have free' : (s.srcHeld p.val && !fired) = false := by
    cases fired
    · simp [free rfl]
    · simp
  have goes : u.lineTransition p.val level fired = u.deliver p.val (level || s.firing p.val) fired := by
    unfold State.lineTransition
    rw [firing]
    refine if_neg ?_
    rw [rb, gate, held, seg, on, open_, runs, free', show u.presented p.val = s.presented p.val from rb _ _]
    simpa using other
  rw [goes] at run
  obtain ⟨presented, still, cfg⟩ := State.deliver_effect p.isLt u (level || s.firing p.val) fired
  have written := State.deliver_allRegs p.isLt u (level || s.firing p.val) fired
  refine ⟨_, run, presented, still.trans ((rb _ _).trans on), cfg.trans (State.reg_congr regs _), ?_, ?_⟩
  · exact (RegsIn.trans (.of_regs regs _) written).regsBut fun _ => deliverReg_mem
  · exact (touch.sameBut (l := [.regs, .scCount, .fab, .eqs, .due])).touch State.deliver_touch

theorem pennantTransition_of_still {p : Fin 2048} {level fired : Bool}
    (plain : fired = false → ∀ g : Nat, s.selection p.val = .source g → ballSource g = false)
    (still : s.rb (pnCtrl p.val) 31 = false ∨ s.gated p.val = true ∨ (fired = false ∧ s.srcHeld p.val = true)
      ∨ s.presented p.val = (level || s.firing p.val)) :
    exec (.pennantTransition p level fired) s = .next s := by
  have noted : (if fired then s else s.noteBall p.val level) = s := by
    split
    · rfl
    case isFalse h => exact State.noteBall_of_plain (plain (by simpa using h))
  have run : exec (.pennantTransition p level fired) s =
      .next ((if fired then s else s.noteBall p.val level).lineTransition p.val level fired) := rfl
  rw [run, noted]
  refine congrArg _ (if_pos ?_)
  rcases still with h | h | ⟨h, h'⟩ | h
  · simp [h]
  · simp [h]
  · simp [h, h']
  · simp [h]

theorem State.hoistCount_setHoistCount (s : State) (h k : Nat) : (s.setHoistCount h k).hoistCount h = k := by
  simp [State.hoistCount, State.setHoistCount, Store.get_set]

/-- What a hoist's output that takes a level leaves. -/
theorem State.setHoistOut_effect (s : State) (h : Nat) (l : Bool) :
    (s.setHoistOut h l).hoistOut h = l ∧ (s.hoistOut h = l → (s.setHoistOut h l).due = s.due)
      ∧ RegsSet [hsState h] s (s.setHoistOut h l) ∧ (s.setHoistOut h l).hoistCount h = s.hoistCount h := by
  unfold State.setHoistOut
  split
  case isTrue same => exact ⟨same, fun _ => rfl, .refl _ s, rfl⟩
  case isFalse other =>
    refine ⟨State.rb_setRb_self s (by decide) l, fun same => absurd same other, ?_, rfl⟩
    exact RegsSet.trans (State.setRb_regsSet _ _ _ _) (.of_regs rfl _)

theorem debounceExpiry_effect {h : Fin 512} (debounce : s.rf (hsCfg h.val) 24 23 = 2)
    (done : s.rf (hsCfg h.val) 21 10 + 2 ≤ s.hoistCount h.val) :
    ∃ t, exec (.debounceExpiry h) s = .next t
      ∧ t.hoistOut h.val = s.rb (hsState h.val) 30
      ∧ t.hoistCount h.val = 0
      ∧ (s.hoistOut h.val = s.rb (hsState h.val) 30 → t.due = s.due)
      ∧ RegsBut [hsState h.val] s t
      ∧ SameBut [.regs, .fab, .due] s t := by
  have run : exec (.debounceExpiry h) s = .next (s.passFilter h.val) := congrArg _ (if_pos ⟨debounce, done⟩)
  obtain ⟨out, same, regs, counts⟩ := (s.setHoistCount h.val 0).setHoistOut_effect h.val (s.rb (hsState h.val) 30)
  exact ⟨_, run, out, counts.trans (s.hoistCount_setHoistCount h.val 0), same, regs.regsBut,
    State.passFilter_touch.sameBut⟩

theorem debounceExpiry_of_still {h : Fin 512}
    (still : s.rf (hsCfg h.val) 24 23 ≠ 2 ∨ s.hoistCount h.val < s.rf (hsCfg h.val) 21 10 + 2) :
    exec (.debounceExpiry h) s = .next s := by
  refine congrArg _ (if_neg ?_)
  rintro ⟨debounce, done⟩
  rcases still with h | h
  · exact h debounce
  · exact absurd done (by simpa [State.rf] using h)

end

/-! ### FB_FIRE (R262) -/

section
variable {s : State} {m : Master} {r : RegRow}

theorem State.writeReg_fb {d a : Nat} {v : Word} (access : r.access = .ow ∨ r.access = .rw ∨ r.access = .wo)
    (notOwner : a ≠ ownerReg .fb a) : s.writeReg d .fb r a v = s.fabWrite d r a v := by
  obtain e | e | e := access <;> simp [State.writeReg, e, State.engineDrops, notOwner]

/-- A core keeps the fault of its refused access for its own time. -/
def State.refusalNoted (s : State) (m : Master) (a : Nat) (e : BusErr) : State :=
  match m with
  | .core c => s.deferFault (s.leadCore c.val) a e.cause
  | _ => s

theorem State.refusalNoted_touch (s : State) (m : Master) (a : Nat) (e : BusErr) : Touch 0x2000001 s (s.refusalNoted m a e) := by
  unfold State.refusalNoted
  split
  · exact .of State.deferFault_touch
  · exact .refl

theorem State.refusalNoted_of_other (s : State) {m : Master} (a : Nat) (e : BusErr) (other : ∀ c : Fin 8, m ≠ .core c) :
    s.refusalNoted m a e = s := by
  unfold State.refusalNoted
  split
  case h_1 c => exact absurd rfl (other c)
  case h_2 => rfl

/-- A write that the register itself refuses. -/
theorem State.writeCmd_of_refused {b : Blk} {a : Nat} {e : BusErr} {t : State} (h : s.Writes m b r a) (h4 : a % 4 = 0) (v : Word)
    (hd : s.writeReg (s.domainOf m) b r a v = (.error e, t)) (notHost : m ≠ .host) :
    s.writeCmd m a 4 v = .next ((t.refusalNoted m a e).answer m (.error e)) := by
  have written := State.writeAs_of_writes h h4 v
  unfold State.writeCmd State.masterWrite
  rw [h.acts, written, ownCheck_word m h4, hd]
  cases m
  case host => exact absurd rfl notHost
  all_goals rfl

theorem exec_fbFire (h : s.Writes m .fb r R.FB_FIRE) {v : Word} {t : State}
    (fired : s.fbFire (s.domainOf m) v = (.done, t)) : exec (.fbFire m v) s = .next (t.answer m .done) :=
  State.writeCmd_eq h rfl v ((State.writeReg_fb h.access (by decide)).trans fired)

/-- The host does not reach the fabric (R28). -/
theorem State.Writes.ne_host (h : s.Writes m .fb r R.FB_FIRE) : m ≠ .host := by
  rintro rfl
  have place := h.place
  have far : (!reaches .host R.FB_FIRE || (Master.host == .debug && s.mp.unlock == 0)) = true := by
    simp [show reaches .host R.FB_FIRE = false by decide]
  unfold State.place at place
  rw [if_pos far] at place
  simp at place

section
variable {v : Word} {p : Nat} (h : s.Writes m .fb r R.FB_FIRE) (named : firedPennant v = some p)
include h named

theorem fbFire_of_owned (own : s.owns (s.domainOf m) (pnOwner p) = true)
    (secure : s.ownerSec (pnOwner p) = true → s.domSecure (s.domainOf m) = true) (on : s.rb (pnCtrl p) 31 = true)
    (open_ : s.gated p = false) (low : s.standsHigh p = false) (reach : p < 1024 → s.islandReachable (p / 64) = true) :
    ∃ t, exec (.fbFire m v) s = .next t
      ∧ t.firing p = true
      ∧ t.due = s.due ++ [.pennantTransition (Fin.ofNat 2048 p) true true]
      ∧ RegsBut [] s t
      ∧ SameBut [.due, .pulses, .reply] s t
      ∧ t.reply = some ⟨m, .done⟩ := by
  have may : (!s.owns (s.domainOf m) (pnOwner p) || (s.ownerSec (pnOwner p) && !s.domSecure (s.domainOf m))) = false := by
    cases sec : s.ownerSec (pnOwner p)
    · simp [own]
    · simp [own, secure sec]
  have works : (!s.rb (pnCtrl p) 31 || s.gated p || (decide (p < 1024) && !s.islandReachable (p / 64))) = false := by
    by_cases island : p < 1024
    · simp [on, open_, reach island]
    · simp [on, open_, island]
  have fired : s.fbFire (s.domainOf m) v = (.done, (s.firePulse p).enqueue [transition p true true]) := by
    simp only [State.fbFire, named, may, works, low, Bool.false_eq_true, if_false]
  refine ⟨_, exec_fbFire h fired, ?_, rfl, fun _ _ => rfl, ?_, rfl⟩
  · show (Store.get _ _ (Store.set _ (8192 + p) 2 s.pulses) != 0) = true
    rw [Store.get_set, if_pos rfl]
    rfl
  · exact SameBut.answer (Touch.sameBut (w := 0x100000000001) (Touch.of State.firePulse_touch |>.then State.enqueue_touch))
      (by decide) m .done

theorem fbFire_of_foreign (foreign : s.owns (s.domainOf m) (pnOwner p) = false) :
    ∃ t, exec (.fbFire m v) s = .next t
      ∧ t.reply = some ⟨m, .error .ownership⟩
      ∧ t.rb R.FB_STATUS 1 = true
      ∧ RegsBut [R.FB_STATUS, R.FB_FAULT_INFO] s t
      ∧ ((∀ c : Fin 8, m ≠ .core c) → SameBut [.regs, .scCount, .reply] s t)
      ∧ SameBut [.regs, .scCount, .cores, .due, .reply] s t := by
  have fired : s.fbFire (s.domainOf m) v = (.error .ownership, s.fbPnFault p 1) := by
    simp only [State.fbFire, named, foreign, Bool.not_false, Bool.true_or, if_true]
  have run : exec (.fbFire m v) s = _ := State.writeCmd_of_refused h rfl v
    ((State.writeReg_fb h.access (by decide)).trans fired) h.ne_host
  have flagged : (s.fbPnFault p 1).rb R.FB_STATUS 1 = true := State.fabFault_flag_of_lt _ (by decide) (by decide)
  have regs : RegsSet [R.FB_STATUS, R.FB_FAULT_INFO] s (s.fbPnFault p 1) :=
    ((State.flag_regsSet _ _ _).mono (by simp)).trans ((State.setReg_regsSet _ _ _).mono (by simp))
  have touch : Touch 0x6 s (s.fbPnFault p 1) := .of State.fbPnFault_touch
  generalize s.fbPnFault p 1 = u at *
  have deferred := u.refusalNoted_touch m R.FB_FIRE .ownership
  have plain := u.refusalNoted_of_other (m := m) R.FB_FIRE .ownership
  generalize u.refusalNoted m R.FB_FIRE .ownership = w at *
  have same : w.regs = u.regs := deferred.same_part .regs
  refine ⟨_, run, rfl, ?_, ?_, fun other => ?_, ?_⟩
  · exact (congrArg (bit · 1) (State.reg_congr same _)).trans flagged
  · exact RegsBut.answer (regs.trans (.of_regs same _)).regsBut m (.error .ownership)
  · rw [plain other]
    exact SameBut.answer touch.sameBut (by decide) m (.error .ownership)
  · exact SameBut.answer ((touch.sameBut (l := [.regs, .scCount, .cores, .due, .reply])).touch deferred) (by decide) m
      (.error .ownership)

theorem fbFire_of_masked (own : s.owns (s.domainOf m) (pnOwner p) = true)
    (secure : s.ownerSec (pnOwner p) = true → s.domSecure (s.domainOf m) = true)
    (masked : s.rb (pnCtrl p) 31 = false ∨ s.gated p = true ∨ s.standsHigh p = true) :
    ∃ t, exec (.fbFire m v) s = .next t
      ∧ t.rb R.FB_STATUS 9 = true
      ∧ (s.rb (pnCtrl p) 31 = false ∨ s.gated p = true → t.pulses = s.pulses)
      ∧ RegsBut [R.FB_STATUS, R.FB_FAULT_INFO] s t
      ∧ SameBut [.regs, .scCount, .pulses, .reply] s t
      ∧ t.reply = some ⟨m, .done⟩ := by
  have may : (!s.owns (s.domainOf m) (pnOwner p) || (s.ownerSec (pnOwner p) && !s.domSecure (s.domainOf m))) = false := by
    cases sec : s.ownerSec (pnOwner p)
    · simp [own]
    · simp [own, secure sec]
  have fault : ∀ u : State, RegsSet [R.FB_STATUS, R.FB_FAULT_INFO] u (u.fbPnFault p 9)
      ∧ (u.fbPnFault p 9).rb R.FB_STATUS 9 = true := fun u =>
    ⟨((State.flag_regsSet _ _ _).mono (by simp)).trans ((State.setReg_regsSet _ _ _).mono (by simp)),
      State.fabFault_flag_of_lt _ (by decide) (by decide)⟩
  by_cases off : (!s.rb (pnCtrl p) 31 || s.gated p || (decide (p < 1024) && !s.islandReachable (p / 64))) = true
  · have fired : s.fbFire (s.domainOf m) v = (.done, s.fbPnFault p 9) := by
      simp only [State.fbFire, named, may, off, Bool.false_eq_true, if_false, if_true]
    obtain ⟨regs, flagged⟩ := fault s
    have touch : Touch 0x6 s (s.fbPnFault p 9) := .of State.fbPnFault_touch
    have run := exec_fbFire h fired
    generalize s.fbPnFault p 9 = u at *
    exact ⟨_, run, flagged, fun _ => touch.same_part .pulses, RegsBut.answer regs.regsBut m .done,
      SameBut.answer touch.sameBut (by decide) m .done, rfl⟩
  · have high : s.standsHigh p = true := by
      simp only [Bool.or_eq_true, not_or, Bool.not_eq_true', Bool.not_eq_false] at off
      obtain ⟨⟨on, open_⟩, -⟩ := off
      rcases masked with h' | h' | h'
      · simp [h'] at on
      · exact absurd h' open_
      · exact h'
    have fired : s.fbFire (s.domainOf m) v = (.done, (s.firePulse p).fbPnFault p 9) := by
      simp only [State.fbFire, named, may, off, high, Bool.false_eq_true, if_false, if_true]
    have run := exec_fbFire h fired
    obtain ⟨regs, flagged⟩ := fault (s.firePulse p)
    have touch : Touch 0x100000000006 s ((s.firePulse p).fbPnFault p 9) :=
      Touch.of State.firePulse_touch |>.then State.fbPnFault_touch
    have first : RegsSet [R.FB_STATUS, R.FB_FAULT_INFO] s (s.firePulse p) := .of_regs rfl _
    generalize (s.firePulse p).fbPnFault p 9 = u at *
    refine ⟨_, run, flagged, fun idle => ?_, RegsBut.answer (first.trans regs).regsBut m .done,
      SameBut.answer touch.sameBut (by decide) m .done, rfl⟩
    rcases idle with h' | h' <;> simp [h'] at off

end

/-! ### Signal sets (R268, R269) -/

theorem State.setCheck_regsSet (s : State) (k : Nat) : RegsSet [R.FB_STATUS, R.FB_FAULT_INFO] s (s.setCheck k) :=
  .ite (((State.flag_regsSet _ _ _).mono (by simp)).trans ((State.setReg_regsSet _ _ _).mono (by simp))) (.refl _ s)

theorem FB_SSs_CTRL_place (k : Fin 128) : 0x50030000 ≤ R.FB_SSs_CTRL k.val ∧ R.FB_SSs_CTRL k.val < 0x50040000 := by
  unfold R.FB_SSs_CTRL
  omega

theorem FB_SSs_CTRL_not_delivered (k : Fin 128) {p : Nat} (hp : p < 2048) :
    ¬ (R.FB_SSs_CTRL k.val = pnCtrl p ∨ deliverReg p (R.FB_SSs_CTRL k.val)) := by
  have place := FB_SSs_CTRL_place k
  rintro (e | e)
  · have := pn_place hp _ (.inl e)
    omega
  · exact not_deliverReg_of (.inr (.inr place)) p e

/-- The registers that the deliveries of pennants write. -/
def anyDeliverReg (a : Nat) : Prop := ∃ p, p < 2048 ∧ (a = pnCtrl p ∨ deliverReg p a)

theorem FB_SSs_CTRL_not_anyDelivered (k : Fin 128) : ¬ anyDeliverReg (R.FB_SSs_CTRL k.val) := by
  rintro ⟨p, hp, e⟩
  exact FB_SSs_CTRL_not_delivered k hp e

/-- The members of a set that goes OFF present 0 where OFF_LOW says so. -/
def State.membersLowered (s : State) (k : Nat) : State :=
  (s.pennantsOn.filter (fun p => s.setHas k p)).foldl (fun u p => u.offLow p) s

theorem State.membersLowered_regsIn (s : State) (k : Nat) : RegsIn anyDeliverReg s (s.membersLowered k) := by
  refine RegsIn.foldl _ s fun p mem t => .ite ?_ (.refl _ t)
  have hp := State.lt_of_mem_pennantsOn (List.mem_filter.mp mem).1
  exact (State.deliver_allRegs hp t false false).mono fun a h => ⟨p, hp, h⟩

theorem State.lastOff_of_touch {w : Nat} {s t : State} (h : Touch w s t) (quiet : w.testBit 11 = false := by decide) :
    t.fab.lastOff = s.fab.lastOff :=
  congrArg FabricState.lastOff (h.same_part .fab (by simpa [Part.bits] using quiet))

theorem State.record_lastOff (s : State) (p : Nat) (level fired : Bool) :
    (s.record p level fired).fab.lastOff = s.fab.lastOff := by
  unfold State.record
  dsimp only
  split
  · split
    · exact State.lastOff_of_touch (s := s.setPnRec p _) State.pnFault_touch
    · rfl
  · rfl

theorem State.noteFilter_lastOff (s : State) (h : Nat) : (s.noteFilter h).fab.lastOff = s.fab.lastOff := by
  unfold State.noteFilter
  dsimp only
  split
  · split <;> rfl
  · rfl

theorem State.evalHoist_lastOff (s : State) (h : Nat) (rising : Option Nat) :
    (s.evalHoist h rising).fab.lastOff = s.fab.lastOff := by
  unfold State.evalHoist
  dsimp only
  generalize ht : State.noteFilter _ h = t
  have noted : t.fab.lastOff = s.fab.lastOff := by
    rw [← ht, State.noteFilter_lastOff]
    rfl
  rw [apply_ite (fun u : State => u.fab.lastOff)]
  exact (ite_self _).trans noted

theorem State.arrived_lastOff (s : State) (p : Nat) (level fired : Bool) :
    (s.arrived p level fired).fab.lastOff = s.fab.lastOff := by
  unfold State.arrived
  dsimp only
  have recorded := s.record_lastOff p level fired
  generalize s.record p level fired = u at *
  have presented : (if u.allLate p then u else u.present p level (fun a => !u.detAt a)).fab.lastOff = u.fab.lastOff := by
    split
    · rfl
    · exact State.lastOff_of_touch State.present_touch
  generalize (if u.allLate p then u else u.present p level (fun a => !u.detAt a)) = v at *
  rw [← recorded, ← presented]
  split <;> rfl

theorem State.hoistsTold_lastOff (rising : Option Nat) (l : List Nat) (s : State) :
    (l.foldl (fun t h => t.evalHoist h rising) s).fab.lastOff = s.fab.lastOff := by
  induction l generalizing s with
  | nil => rfl
  | cons h l ih => rw [List.foldl_cons, ih, State.evalHoist_lastOff]

theorem State.passedOn_lastOff (s : State) (p : Nat) (level fired : Bool) :
    (s.passedOn p level fired).fab.lastOff = s.fab.lastOff := by
  unfold State.passedOn
  dsimp only
  have told : (s.enqueue (((s.selecting (.pennant p)).filter (fun q => !s.selRefused q)).map
    (fun q => transition q (level != s.rb (pnCfg q) 29) fired))).fab.lastOff = s.fab.lastOff := rfl
  generalize s.enqueue _ = u at *
  have hoists := State.hoistsTold_lastOff (if level then some p else none) (u.hoistsNaming p) u
  generalize (u.hoistsNaming p).foldl (fun t h => t.evalHoist h (if level then some p else none)) u = v at *
  rw [← told, ← hoists]
  split <;> split <;> rfl

/-- A delivery leaves when each set was last turned OFF. -/
theorem State.deliver_lastOff (s : State) (p : Nat) (level fired : Bool) :
    (s.deliver p level fired).fab.lastOff = s.fab.lastOff := by
  rw [State.deliver_eq, State.passedOn_lastOff, State.arrived_lastOff]
  rfl

theorem State.membersLowered_lastOff (s : State) (k : Nat) : (s.membersLowered k).fab.lastOff = s.fab.lastOff := by
  unfold State.membersLowered
  generalize s.pennantsOn.filter _ = l
  induction l generalizing s with
  | nil => rfl
  | cons p l ih =>
    rw [List.foldl_cons, ih]
    unfold State.offLow
    split
    · exact s.deliver_lastOff p false false
    · rfl

/-- A set that is OFF, before its members present 0. -/
def State.turnedOff (s : State) (k : Nat) : State :=
  let t := (s.setRb (R.FB_SSs_CTRL k) 0 false).setCheck k
  { t with fab := { t.fab with lastOff := t.fab.lastOff.set (fun _ => 0) k (s.absTick + 1) } }

theorem State.setOff_eq (s : State) (k : Nat) : s.setOff k = (s.turnedOff k).membersLowered k := rfl

theorem SSs_CTRL_not_status (k : Fin 128) : R.FB_SSs_CTRL k.val ∉ [R.FB_STATUS, R.FB_FAULT_INFO] := by
  simp only [List.mem_cons, List.not_mem_nil, or_false, not_or]
  unfold R.FB_SSs_CTRL R.FB_STATUS R.FB_FAULT_INFO
  omega

theorem SSs_CTRL_ne {j k : Fin 128} (h : j ≠ k) : R.FB_SSs_CTRL j.val ≠ R.FB_SSs_CTRL k.val := by
  have : j.val ≠ k.val := fun e => h (Fin.ext e)
  unfold R.FB_SSs_CTRL
  omega

theorem State.setOff_effect (s : State) (k : Fin 128) :
    (s.setOff k.val).rb (R.FB_SSs_CTRL k.val) 0 = false
      ∧ (s.setOff k.val).fab.lastOff.get (fun _ => 0) k.val = s.absTick + 1
      ∧ (∀ j : Fin 128, j ≠ k → (s.setOff k.val).reg (R.FB_SSs_CTRL j.val) = s.reg (R.FB_SSs_CTRL j.val)) := by
  have checked := State.setCheck_regsSet (s.setRb (R.FB_SSs_CTRL k.val) 0 false) k.val
  have written : RegsSet [R.FB_SSs_CTRL k.val] s (s.setRb (R.FB_SSs_CTRL k.val) 0 false) := State.setRb_regsSet _ _ _ _
  have off : (s.setRb (R.FB_SSs_CTRL k.val) 0 false).rb (R.FB_SSs_CTRL k.val) 0 = false :=
    State.rb_setRb_self s (by decide) false
  have noted : (s.turnedOff k.val).fab.lastOff.get (fun _ => 0) k.val = s.absTick + 1 := by
    show Store.get _ _ (Store.set _ _ _ _) = _
    rw [Store.get_set, if_pos rfl]
  have lowered := State.membersLowered_regsIn (s.turnedOff k.val) k.val
  have kept := State.membersLowered_lastOff (s.turnedOff k.val) k.val
  rw [State.setOff_eq]
  have regs : (s.turnedOff k.val).regs = ((s.setRb (R.FB_SSs_CTRL k.val) 0 false).setCheck k.val).regs := rfl
  generalize s.setRb (R.FB_SSs_CTRL k.val) 0 false = x at *
  generalize x.setCheck k.val = y at *
  generalize s.turnedOff k.val = u at *
  have back : ∀ j : Fin 128, (u.membersLowered k.val).reg (R.FB_SSs_CTRL j.val) = x.reg (R.FB_SSs_CTRL j.val) := fun j => by
    rw [lowered.reg_eq (FB_SSs_CTRL_not_anyDelivered j), State.reg_congr regs, checked.regsBut _ (SSs_CTRL_not_status j)]
  refine ⟨(congrArg (bit · 0) (back k)).trans off, ?_, fun j other => ?_⟩
  · rw [kept, noted]
  · rw [back, written.regsBut _ (by simpa using SSs_CTRL_ne other)]

theorem State.setOn_of_off {k : Nat} (same : s.fab.lastOff.get (fun _ => 0) k = s.absTick + 1) :
    s.setOn k = s.setCheck k := if_pos same

theorem State.setOn_of_later {k : Nat} (other : s.fab.lastOff.get (fun _ => 0) k ≠ s.absTick + 1) :
    s.setOn k = ((s.setRb (R.FB_SSs_CTRL k) 0 true).setCheck k).refreshPennants := if_neg other

theorem State.setOn_effect (s : State) (k : Fin 128) :
    (s.fab.lastOff.get (fun _ => 0) k.val ≠ s.absTick + 1 → (s.setOn k.val).rb (R.FB_SSs_CTRL k.val) 0 = true)
      ∧ (s.fab.lastOff.get (fun _ => 0) k.val = s.absTick + 1 →
          (s.setOn k.val).reg (R.FB_SSs_CTRL k.val) = s.reg (R.FB_SSs_CTRL k.val))
      ∧ RegsSet [R.FB_SSs_CTRL k.val, R.FB_STATUS, R.FB_FAULT_INFO] s (s.setOn k.val) := by
  by_cases same : s.fab.lastOff.get (fun _ => 0) k.val = s.absTick + 1
  · rw [State.setOn_of_off same]
    have checked := s.setCheck_regsSet k.val
    exact ⟨fun h => absurd same h, fun _ => checked.regsBut _ (SSs_CTRL_not_status k), checked.mono (by simp)⟩
  · rw [State.setOn_of_later same]
    have checked := State.setCheck_regsSet (s.setRb (R.FB_SSs_CTRL k.val) 0 true) k.val
    have written : RegsSet [R.FB_SSs_CTRL k.val] s (s.setRb (R.FB_SSs_CTRL k.val) 0 true) := State.setRb_regsSet _ _ _ _
    have on : (s.setRb (R.FB_SSs_CTRL k.val) 0 true).rb (R.FB_SSs_CTRL k.val) 0 = true :=
      State.rb_setRb_self s (by decide) true
    generalize s.setRb (R.FB_SSs_CTRL k.val) 0 true = x at *
    refine ⟨fun _ => ?_, fun h => absurd h same, ?_⟩
    · exact (checked.rb_eq (SSs_CTRL_not_status k) 0).trans on
    · exact (written.mono (by simp)).trans ((checked.mono (by simp)).trans (.of_regs rfl _))

theorem setOfCtrl_FB_SSs_CTRL (k : Fin 128) : setOfCtrl (R.FB_SSs_CTRL k.val) = some k.val := by
  revert k
  decide

theorem pnOfCtrl_FB_SSs_CTRL (k : Fin 128) : pnOfCtrl (R.FB_SSs_CTRL k.val) = none := by
  revert k
  decide

theorem ownerReg_FB_SSs_CTRL (k : Fin 128) : R.FB_SSs_CTRL k.val ≠ ownerReg .fb (R.FB_SSs_CTRL k.val) := by
  revert k
  decide

theorem exec_signalSetSwitch {k : Fin 128} (h : s.Writes m .fb r (R.FB_SSs_CTRL k.val)) (v : Word) :
    exec (.signalSetSwitch m k v) s = .next ((s.setCtrlWrite k.val v).answer m .done) := by
  have aligned : R.FB_SSs_CTRL k.val % 4 = 0 := by
    unfold R.FB_SSs_CTRL
    omega
  have notFire : R.FB_SSs_CTRL k.val ≠ R.FB_FIRE := by
    unfold R.FB_SSs_CTRL R.FB_FIRE
    omega
  refine State.writeCmd_eq h aligned v ((State.writeReg_fb h.access (ownerReg_FB_SSs_CTRL k)).trans ?_)
  simp only [State.fabWrite, notFire, if_false, pnOfCtrl_FB_SSs_CTRL, setOfCtrl_FB_SSs_CTRL]

theorem signalSetSwitch_effect {k : Fin 128} (h : s.Writes m .fb r (R.FB_SSs_CTRL k.val)) (v : Word) :
    ∃ t, exec (.signalSetSwitch m k v) s = .next t
      ∧ (bit v 30 = true → t.rb (R.FB_SSs_CTRL k.val) 0 = false)
      ∧ (bit v 30 = false → bit v 31 = true → s.fab.lastOff.get (fun _ => 0) k.val ≠ s.absTick + 1 →
          t.rb (R.FB_SSs_CTRL k.val) 0 = true)
      ∧ (bit v 30 = false → bit v 31 = true → s.fab.lastOff.get (fun _ => 0) k.val = s.absTick + 1 →
          t.reg (R.FB_SSs_CTRL k.val) = s.reg (R.FB_SSs_CTRL k.val))
      ∧ (bit v 30 = false → bit v 31 = false → t.regs = s.regs ∧ t.due = s.due)
      ∧ (∀ j : Fin 128, j ≠ k → t.reg (R.FB_SSs_CTRL j.val) = s.reg (R.FB_SSs_CTRL j.val))
      ∧ SameBut [.regs, .scCount, .fab, .eqs, .due, .reply] s t
      ∧ t.reply = some ⟨m, .done⟩ := by
  have run := exec_signalSetSwitch h v
  have parts : SameBut [.regs, .scCount, .fab, .eqs, .due, .reply] s (s.setCtrlWrite k.val v) :=
    State.setCtrlWrite_touch.sameBut
  have others : ∀ j : Fin 128, j ≠ k → R.FB_SSs_CTRL j.val ∉ [R.FB_SSs_CTRL k.val, R.FB_STATUS, R.FB_FAULT_INFO] :=
    fun j other mem => (List.mem_cons.mp mem).elim (SSs_CTRL_ne other) (SSs_CTRL_not_status j)
  cases off : bit v 30
  · cases on : bit v 31
    · have still : s.setCtrlWrite k.val v = s := by simp [State.setCtrlWrite, off, on]
      rw [still] at run parts
      exact ⟨_, run, nofun, nofun, nofun, fun _ _ => ⟨rfl, rfl⟩, fun _ _ => rfl, parts.answer (by decide) m .done, rfl⟩
    · have turn : s.setCtrlWrite k.val v = s.setOn k.val := by simp [State.setCtrlWrite, off, on]
      rw [turn] at run parts
      obtain ⟨later, same, regs⟩ := s.setOn_effect k
      generalize s.setOn k.val = u at *
      exact ⟨_, run, nofun, fun _ _ => later, fun _ _ => same, nofun, fun j other => regs.regsBut _ (others j other),
        parts.answer (by decide) m .done, rfl⟩
  · have turn : s.setCtrlWrite k.val v = s.setOff k.val := by simp [State.setCtrlWrite, off]
    rw [turn] at run parts
    obtain ⟨gone, -, other⟩ := s.setOff_effect k
    generalize s.setOff k.val = u at *
    exact ⟨_, run, fun _ => gone, nofun, nofun, nofun, other, parts.answer (by decide) m .done, rfl⟩

theorem signalSetOn_effect (k : Fin 128) (s : State) :
    ∃ t, exec (.signalSetOn k) s = .next t
      ∧ (s.rb (R.FB_SSs_CFG k.val) 31 = true → s.fab.lastOff.get (fun _ => 0) k.val ≠ s.absTick + 1 →
          t.rb (R.FB_SSs_CTRL k.val) 0 = true)
      ∧ (s.rb (R.FB_SSs_CFG k.val) 31 = false ∨ s.fab.lastOff.get (fun _ => 0) k.val = s.absTick + 1 →
          t.reg (R.FB_SSs_CTRL k.val) = s.reg (R.FB_SSs_CTRL k.val))
      ∧ RegsBut [R.FB_SSs_CTRL k.val, R.FB_STATUS, R.FB_FAULT_INFO] s t
      ∧ SameBut [.regs, .scCount, .due] s t := by
  have run : exec (.signalSetOn k) s = .next (if s.rb (R.FB_SSs_CFG k.val) 31 then s.setOn k.val else s) := rfl
  cases on : s.rb (R.FB_SSs_CFG k.val) 31
  · rw [on] at run
    exact ⟨s, run, nofun, fun _ => rfl, fun _ _ => rfl, .refl _ s⟩
  · rw [on] at run
    obtain ⟨later, same, regs⟩ := s.setOn_effect k
    exact ⟨_, run, fun _ => later, fun h => same (by simpa using h), regs.regsBut, State.setOn_touch.sameBut⟩

theorem signalSetOff_effect (k : Fin 128) (s : State) :
    ∃ t, exec (.signalSetOff k) s = .next t
      ∧ (s.rb (R.FB_SSs_CFG k.val) 30 = true → t.rb (R.FB_SSs_CTRL k.val) 0 = false
          ∧ t.fab.lastOff.get (fun _ => 0) k.val = s.absTick + 1)
      ∧ (s.rb (R.FB_SSs_CFG k.val) 30 = false → t.regs = s.regs ∧ t.due = s.due)
      ∧ (∀ j : Fin 128, j ≠ k → t.reg (R.FB_SSs_CTRL j.val) = s.reg (R.FB_SSs_CTRL j.val))
      ∧ SameBut [.regs, .scCount, .fab, .eqs, .due] s t := by
  have run : exec (.signalSetOff k) s = .next (if s.rb (R.FB_SSs_CFG k.val) 30 then s.setOff k.val else s) := rfl
  cases on : s.rb (R.FB_SSs_CFG k.val) 30
  · rw [on] at run
    exact ⟨s, run, nofun, fun _ => ⟨rfl, rfl⟩, fun _ _ => rfl, .refl _ s⟩
  · rw [on] at run
    obtain ⟨gone, noted, other⟩ := s.setOff_effect k
    exact ⟨_, run, fun _ => ⟨gone, noted⟩, nofun, other, State.setOff_touch.sameBut⟩

end

/-- Settles O22, clause by clause: which registers a delivery writes, and what a set's switch does before its members
follow. -/
theorem fabricCommands : Obligations.FabricCommands :=
  ⟨fun _ _ _ _ _ h named own secure on open_ low reach => fbFire_of_owned h named own secure on open_ low reach,
    fun _ _ _ _ _ h named foreign => fbFire_of_foreign h named foreign,
    fun _ _ _ _ _ h named own secure masked => fbFire_of_masked h named own secure masked,
    fun _ _ _ _ on open_ runs free other => pennantTransition_effect on open_ runs free other,
    fun _ _ _ _ plain still => pennantTransition_of_still plain still,
    fun _ _ debounce _ done => debounceExpiry_effect debounce done,
    fun _ _ still => debounceExpiry_of_still still,
    fun _ _ v _ _ h => signalSetSwitch_effect h v,
    signalSetOn_effect, signalSetOff_effect⟩

end Sys2Proof.Machine
end

section
/-!
Rows of registers, and the life of an epoch (R60 to R63, R71).
-/
set_option Elab.async false
namespace Sys2Proof.Machine
open Sys2Proof

/-! ### The row of a register that an access reaches -/

theorem State.tcmPlace_ne_register (s : State) (n o : Nat) (b : Blk) (r : RegRow) (a : Nat) :
    s.tcmPlace n o ≠ some (.register b r a) := by
  unfold State.tcmPlace
  split <;> simp

/-- The row of a register that an access reaches is that of its address. -/
theorem State.row_of_place {s : State} {m : Master} {b : Blk} {r : RegRow} {a : Nat}
    (h : s.place m a = some (.register b r a)) : ∃ o, locate (a / 4 * 4) = some (b, o) ∧ b.row o = some r := by
  have mapped : s.mapped a = some (.register b r a) := by
    unfold State.place at h
    split at h
    · simp at h
    split at h
    · split at h
      · exact absurd h (s.tcmPlace_ne_register _ _ b r a)
      · simp at h
    split at h
    · simp at h
    split at h
    · simp at h
    split at h
    · simp at h
    split at h
    · simp at h
    split at h
    · simp at h
    split at h
    · exact absurd h (s.tcmPlace_ne_register _ _ b r a)
    split at h
    · simp at h
    split at h
    · simp at h
    · exact h
  unfold State.mapped at mapped
  dsimp only at mapped
  split at mapped
  · simp at mapped
  · simp at mapped
  · cases found : locate (s.routed a / 4 * 4) with
    | none => simp [found] at mapped
    | some x =>
      obtain ⟨b', o⟩ := x
      cases row : b'.row o with
      | none => simp [found, row] at mapped
      | some r' =>
        simp only [found, row] at mapped
        obtain ⟨-, e⟩ : _ ∧ Place.register b' r' (s.routed a) = .register b r a := by simpa using mapped
        obtain ⟨rfl, rfl, same⟩ := Place.register.inj e
        rw [same] at found
        exact ⟨o, found, row⟩

/-! ### The slots of the epoch unit (R60, R61) -/

section
variable {s : State} {m : Master} {r : RegRow}

/-- A read of EP_OPEN has its own effect. -/
theorem exec_epOpenRead (h : s.Reads m .ep r R.EP_OPEN) :
    exec (.epOpenRead m) s = .next ((s.epOpen (s.domainOf m)).2.answer m (.data (s.epOpen (s.domainOf m)).1)) := by
  obtain ⟨o, found, row⟩ := State.row_of_place h.place
  have offset : o = 0x10 := by
    rw [show locate (R.EP_OPEN / 4 * 4) = some (.ep, 0x10) by decide] at found
    simpa using found.symm
  have access : r.access = .ro := by
    have known : (Blk.ep.row 0x10).map (·.access) = some .ro := by decide
    rw [offset] at row
    simpa [row] using known
  have read : s.readReg .ep r R.EP_OPEN (s.domainOf m) = s.epOpen (s.domainOf m) := by
    simp [State.readReg, access]
  have run : exec (.epOpenRead m) s = s.readCmd m R.EP_OPEN 4 := rfl
  rw [run, State.readCmd_of_reads h rfl (by decide) (by decide), read]

/-- The registers of slots stand apart. -/
theorem EP_SLOTs_ne (i j : Nat) : R.EP_SLOTs_STATE i ≠ R.EP_SLOTs_RESULT j ∧ R.EP_SLOTs_STATE i ≠ R.EP_SLOTs_ENTRIES j
    ∧ R.EP_SLOTs_RESULT i ≠ R.EP_SLOTs_ENTRIES j ∧ R.EP_SLOTs_STATE i ≠ R.EP_SLOTs_AT_HI j
    ∧ R.EP_SLOTs_RESULT i ≠ R.EP_SLOTs_AT_HI j ∧ R.EP_SLOTs_AT_LO i ≠ R.EP_SLOTs_AT_HI j := by
  unfold R.EP_SLOTs_STATE R.EP_SLOTs_RESULT R.EP_SLOTs_ENTRIES R.EP_SLOTs_AT_HI R.EP_SLOTs_AT_LO
  omega

theorem EP_STATUS_ne_SLOTs (i : Nat) : R.EP_STATUS ≠ R.EP_SLOTs_STATE i ∧ R.EP_STATUS ≠ R.EP_SLOTs_RESULT i
    ∧ R.EP_STATUS ≠ R.EP_SLOTs_AT_HI i := by
  unfold R.EP_STATUS R.EP_SLOTs_STATE R.EP_SLOTs_RESULT R.EP_SLOTs_AT_HI
  omega

/-- The next ID after one is a 16-bit number other than 0. -/
theorem idAfter_range (i : Nat) : 1 ≤ idAfter i ∧ idAfter i ≤ 65535 := by
  unfold idAfter
  split <;> omega

theorem State.freshId_range (first : 1 ≤ s.ep.nextId) (last : s.ep.nextId ≤ 65535) : 1 ≤ s.freshId ∧ s.freshId ≤ 65535 := by
  have walk : ∀ (l : List Nat) (i : Nat), 1 ≤ i ∧ i ≤ 65535 →
      1 ≤ l.foldl (fun i _ => if (s.slotOfId i).isSome then idAfter i else i) i
        ∧ l.foldl (fun i _ => if (s.slotOfId i).isSome then idAfter i else i) i ≤ 65535 := by
    intro l
    induction l with
    | nil => exact fun _ h => h
    | cons _ l ih =>
      intro i h
      have next : 1 ≤ (if (s.slotOfId i).isSome then idAfter i else i) ∧ (if (s.slotOfId i).isSome then idAfter i else i) ≤ 65535 := by
        split
        · exact idAfter_range i
        · exact h
      exact ih _ next
  exact walk _ _ ⟨first, last⟩

/-- The fields of a slot that has just been opened. -/
theorem opened_fields {d id : Nat} (hd : d < 16) (hid : id < 65536) :
    fld (w32 (at_ d 20 + at_ 1 16 + id)) 18 16 = 1 ∧ fld (w32 (at_ d 20 + at_ 1 16 + id)) 23 20 = d
      ∧ fld (w32 (at_ d 20 + at_ 1 16 + id)) 15 0 = id := by
  have value : (w32 (at_ d 20 + at_ 1 16 + id)).toNat = d * 2 ^ 20 + 2 ^ 16 + id := by
    simp only [w32, at_, Nat.shiftLeft_eq, BitVec.toNat_ofNat]
    omega
  unfold fld
  rw [value]
  simp only [Nat.shiftRight_eq_div_pow]
  omega

/-- The slot opened, beside the counter of IDs. -/
def State.slotOpened (s : State) (d i id : Nat) : State :=
  ((s.setReg (R.EP_SLOTs_STATE i) (w32 (at_ d 20 + at_ 1 16 + id))).setReg (R.EP_SLOTs_RESULT i) (w32 (at_ id 16))).setReg
    (R.EP_SLOTs_ENTRIES i) 0#32

theorem State.slotOpened_effect (s : State) (d i id : Nat) :
    (s.slotOpened d i id).reg (R.EP_SLOTs_STATE i) = w32 (at_ d 20 + at_ 1 16 + id)
      ∧ (s.slotOpened d i id).reg (R.EP_SLOTs_ENTRIES i) = 0#32
      ∧ RegsSet [R.EP_SLOTs_STATE i, R.EP_SLOTs_RESULT i, R.EP_SLOTs_ENTRIES i] s (s.slotOpened d i id)
      ∧ Touch 0x2 s (s.slotOpened d i id) := by
  obtain ⟨result, entries, -, -, -, -⟩ := EP_SLOTs_ne i i
  refine ⟨?_, ?_, ?_, Touch.of State.setReg_touch |>.then State.setReg_touch |>.then State.setReg_touch⟩
  · simp [State.slotOpened, result, entries]
  · simp [State.slotOpened]
  · exact (((State.setReg_regsSet _ _ _).mono (by simp)).trans ((State.setReg_regsSet _ _ _).mono (by simp))).trans
      ((State.setReg_regsSet _ _ _).mono (by simp))

/-- The counter of IDs stands behind an ID that has been issued. -/
def State.idIssued (s : State) (id : Nat) : State := { s with ep := { s.ep with nextId := idAfter id } }

theorem State.idIssued_touch (s : State) (id : Nat) : Touch 0x200 s (s.idIssued id) := .upd_ep (List.Subset.refl _)

theorem epOpenRead_effect (h : s.Reads m .ep r R.EP_OPEN) {i : Nat} (none_ : s.openSlot (s.domainOf m) = none)
    (free : (List.range 4).find? (fun k => s.slotState k == 0) = some i) (first : 1 ≤ s.ep.nextId)
    (last : s.ep.nextId ≤ 65535) (small : s.domainOf m < 16) :
    ∃ t, exec (.epOpenRead m) s = .next t
      ∧ t.reply = some ⟨m, .data (w32 (2 ^ 31 + i * 2 ^ 16 + s.freshId))⟩
      ∧ t.slotState i = 1
      ∧ t.slotOpener i = s.domainOf m
      ∧ t.slotId i = s.freshId
      ∧ t.reg (R.EP_SLOTs_ENTRIES i) = 0#32
      ∧ RegsBut [R.EP_SLOTs_STATE i, R.EP_SLOTs_RESULT i, R.EP_SLOTs_ENTRIES i] s t
      ∧ SameBut [.regs, .ep, .reply] s t := by
  have run := exec_epOpenRead h
  obtain ⟨-, fits⟩ := State.freshId_range first last
  obtain ⟨state, opener, id⟩ := opened_fields small (id := s.freshId) (by omega)
  have opened : s.epOpen (s.domainOf m) = (w32 (2 ^ 31 + i * 2 ^ 16 + s.freshId),
      (s.slotOpened (s.domainOf m) i s.freshId).idIssued s.freshId) := by
    rw [← show at_ i 16 = i * 2 ^ 16 from Nat.shiftLeft_eq i 16]
    unfold State.epOpen
    rw [none_, free]
    exact if_neg (by simp)
  rw [opened] at run
  obtain ⟨shown, count, regs, touch⟩ := s.slotOpened_effect (s.domainOf m) i s.freshId
  generalize s.slotOpened (s.domainOf m) i s.freshId = u at *
  have fields : ∀ a b, u.rf (R.EP_SLOTs_STATE i) a b = fld (w32 (at_ (s.domainOf m) 20 + at_ 1 16 + s.freshId)) a b :=
    fun a b => congrArg (fld · a b) shown
  have issued := u.idIssued_touch s.freshId
  have same : (u.idIssued s.freshId).regs = u.regs := rfl
  generalize w32 (2 ^ 31 + i * 2 ^ 16 + s.freshId) = w at *
  generalize u.idIssued s.freshId = x at *
  have reg : ∀ a, x.reg a = u.reg a := State.reg_congr same
  have rf : ∀ a b, x.rf (R.EP_SLOTs_STATE i) a b = u.rf (R.EP_SLOTs_STATE i) a b := fun a b => congrArg (fld · a b) (reg _)
  refine ⟨x.answer m (.data w), run, rfl, (rf _ _).trans ((fields _ _).trans state),
    (rf _ _).trans ((fields _ _).trans opener), (rf _ _).trans ((fields _ _).trans id), (reg _).trans count, ?_, ?_⟩
  · exact RegsBut.answer (fun a ha => (reg a).trans (regs.regsBut a ha)) m (.data w)
  · exact SameBut.answer ((touch.sameBut (l := [.regs, .ep, .reply])).touch issued) (by decide) m (.data w)

theorem epOpenRead_of_flag (h : s.Reads m .ep r R.EP_OPEN) {f : Nat} (hf : f < 32)
    (opened : s.epOpen (s.domainOf m) = (0#32, s.flag R.EP_STATUS f)) :
    ∃ t, exec (.epOpenRead m) s = .next t
      ∧ t.reply = some ⟨m, .data 0#32⟩
      ∧ t.rb R.EP_STATUS f = true
      ∧ RegsBut [R.EP_STATUS] s t
      ∧ SameBut [.regs, .scCount, .reply] s t := by
  have run := exec_epOpenRead h
  rw [opened] at run
  exact ⟨_, run, rfl, State.rb_flag_self s _ _ hf, (s.flag_regsSet _ _).regsBut.answer m _,
    SameBut.answer State.flag_touch.sameBut (by decide) m _⟩

theorem State.epOpen_of_open {d : Nat} (busy : (s.openSlot d).isSome = true) :
    s.epOpen d = (0#32, s.flag R.EP_STATUS 5) := if_pos busy

theorem State.epOpen_of_full {d : Nat} (none_ : s.openSlot d = none)
    (full : (List.range 4).all (fun k => s.slotState k != 0) = true) : s.epOpen d = (0#32, s.flag R.EP_STATUS 4) := by
  have nothing : (List.range 4).find? (fun k => s.slotState k == 0) = none := by
    rw [List.find?_eq_none]
    intro k hk
    simpa using List.all_eq_true.mp full k hk
  simp [State.epOpen, none_, nothing]

/-! ### Requests that name an epoch (R60, R62, R63, R71) -/

theorem State.writeReg_ep {d a : Nat} {v : Word} (access : r.access = .ow ∨ r.access = .rw ∨ r.access = .wo)
    (notOwner : a ≠ ownerReg .ep a) : s.writeReg d .ep r a v = s.epWrite d r a v := by
  obtain e | e | e := access <;> simp [State.writeReg, e, State.engineDrops, notOwner]

theorem State.byId_of_own {d i : Nat} {v : Word} (named : s.slotOfId (fld v 15 0) = some i) (own : s.slotOpener i = d)
    (act : State → Nat → State) : s.byId d v act = (.done, act s i) := by
  simp [State.byId, named, own]

section
variable {v : Word} {i : Nat} (named : s.slotOfId (fld v 15 0) = some i) (own : s.slotOpener i = s.domainOf m)
include named own

theorem exec_epStageWrite (h : s.Writes m .ep r R.EP_STAGE) :
    exec (.epStageWrite m v) s = .next ((s.epStage i).answer m .done) :=
  State.writeCmd_eq h rfl v ((State.writeReg_ep h.access (by decide)).trans (State.byId_of_own named own _))

theorem exec_epHaulGoWrite (h : s.Writes m .ep r R.EP_HAUL_GO) :
    exec (.epHaulGoWrite m v) s = .next ((s.haulRequest (s.domainOf m) i none).answer m .done) :=
  State.writeCmd_eq h rfl v ((State.writeReg_ep h.access (by decide)).trans
    (State.byId_of_own named own fun t i => t.haulRequest (s.domainOf m) i none))

theorem exec_epAbandonWrite (h : s.Writes m .ep r R.EP_ABANDON) :
    exec (.epAbandonWrite m v) s = .next ((s.epAbandon (s.domainOf m) i).answer m .done) :=
  State.writeCmd_eq h rfl v ((State.writeReg_ep h.access (by decide)).trans
    (State.byId_of_own named own fun t i => t.epAbandon (s.domainOf m) i))

end

/-- A slot that takes a state keeps its ID and its opener. -/
theorem State.setSlotState_effect (s : State) (i : Nat) {v : Nat} (hv : v < 8) :
    (s.setSlotState i v).slotState i = v ∧ (s.setSlotState i v).slotId i = s.slotId i
      ∧ (s.setSlotState i v).slotOpener i = s.slotOpener i ∧ RegsSet [R.EP_SLOTs_STATE i] s (s.setSlotState i v)
      ∧ Touch 0x2 s (s.setSlotState i v) :=
  ⟨s.rf_setRf_self (by decide) hv, s.rf_setRf_disjoint (by decide) (.inl (by decide)),
    s.rf_setRf_disjoint (by decide) (.inr (by decide)), State.setReg_regsSet _ _ _, .of State.setRf_touch⟩

theorem epStageWrite_effect (h : s.Writes m .ep r R.EP_STAGE) {v : Word} {i : Nat}
    (named : s.slotOfId (fld v 15 0) = some i) (own : s.slotOpener i = s.domainOf m) :
    ∃ t, exec (.epStageWrite m v) s = .next t
      ∧ (t.slotState i = if s.slotState i = 1 then 2 else s.slotState i)
      ∧ t.slotId i = s.slotId i
      ∧ t.slotOpener i = s.slotOpener i
      ∧ RegsBut [R.EP_SLOTs_STATE i] s t
      ∧ SameBut [.regs, .reply] s t
      ∧ t.reply = some ⟨m, .done⟩ := by
  have run := exec_epStageWrite named own h
  by_cases opened : s.slotState i = 1
  · rw [show s.epStage i = s.setSlotState i 2 from if_pos opened] at run
    obtain ⟨state, id, opener, regs, touch⟩ := s.setSlotState_effect i (v := 2) (by decide)
    generalize s.setSlotState i 2 = u at *
    refine ⟨_, run, ?_, id, opener, regs.regsBut.answer m .done, SameBut.answer touch.sameBut (by decide) m .done, rfl⟩
    rw [if_pos opened]
    exact state
  · rw [show s.epStage i = s from if_neg opened] at run
    refine ⟨_, run, ?_, rfl, rfl, fun _ _ => rfl, SameBut.answer (.refl _ s) (by decide) m .done, rfl⟩
    rw [if_neg opened]
    rfl

/-! ### Haul-down requests (R63, R67) -/

/-- The beat of an armed slot is noted. -/
def State.beatNoted (s : State) (i : Nat) (b : BitVec 64) (asap : Bool) : State :=
  { s with ep := { s.ep with
      armedAt := s.ep.armedAt.set (fun _ => 0#64) i b
      asap := s.ep.asap.set (fun _ => false) i asap } }

theorem State.beatNoted_touch (s : State) (i : Nat) (b : BitVec 64) (asap : Bool) : Touch 0x200 s (s.beatNoted i b asap) :=
  .upd_ep (List.Subset.refl _)

/-- A request that arms a slot for a beat. -/
def State.slotArmed (s : State) (i : Nat) (b : BitVec 64) (asap : Bool) : State := (s.beatNoted i b asap).setSlotState i 3

theorem State.slotArmed_effect (s : State) (i : Nat) (b : BitVec 64) (asap : Bool) :
    (s.slotArmed i b asap).slotState i = 3 ∧ (s.slotArmed i b asap).ep.armedAt.get (fun _ => 0#64) i = b
      ∧ (s.slotArmed i b asap).ep.entries = s.ep.entries ∧ RegsSet [R.EP_SLOTs_STATE i] s (s.slotArmed i b asap)
      ∧ Touch 0x202 s (s.slotArmed i b asap) := by
  refine ⟨State.rf_setRf_self _ (by decide) (by decide), ?_, rfl, RegsSet.trans (.of_regs rfl _) (State.setReg_regsSet _ _ _),
    (Touch.of (s.beatNoted_touch i b asap)).then State.setRf_touch⟩
  show Store.get _ _ (Store.set _ _ _ _) = _
  rw [Store.get_set, if_pos rfl]

/-- The beat that a request names. -/
def State.askedBeat (s : State) (n : Option (BitVec 64)) : BitVec 64 := n.getD (s.clk.beat + 2)

section
variable {d i : Nat} {n : Option (BitVec 64)}

theorem State.haulRequest_of_open (state : s.slotState i = 1) :
    s.haulRequest d i n = (s.request d).flag R.EP_STATUS 8 := by
  have state' : (s.request d).slotState i = 1 := state
  simp only [State.haulRequest, state']

theorem State.haulRequest_of_later (state : 3 ≤ s.slotState i) :
    s.haulRequest d i n = (s.request d).flag R.EP_STATUS 9 := by
  have same : (s.request d).slotState i = s.slotState i := rfl
  unfold State.haulRequest
  dsimp only
  rw [same]
  split
  all_goals first | omega | rfl

theorem State.haulRequest_of_timely (state : s.slotState i = 2) (timely : s.isLate (s.askedBeat n) = false) :
    s.haulRequest d i n = (s.request d).slotArmed i (s.askedBeat n) (bit (s.domReg R.EP_POLICY d) 0) := by
  have state' : (s.request d).slotState i = 2 := state
  have timely' : (s.request d).isLate (n.getD ((s.request d).clk.beat + 2)) = false := timely
  simp only [State.haulRequest, state', timely', Bool.false_and, Bool.false_eq_true, if_false]
  rfl

theorem State.haulRequest_of_rejected (state : s.slotState i = 2) (late : s.isLate (s.askedBeat n) = true)
    (reject : bit (s.domReg R.EP_POLICY d) 0 = false) :
    s.haulRequest d i n = ((s.request d).flag R.EP_STATUS 1).resultFlag i 1 := by
  have state' : (s.request d).slotState i = 2 := state
  have late' : (s.request d).isLate (n.getD ((s.request d).clk.beat + 2)) = true := late
  have reject' : bit ((s.request d).domReg R.EP_POLICY d) 0 = false := reject
  simp only [State.haulRequest, state', late', reject', Bool.not_false, Bool.and_self, if_true]

theorem State.haulRequest_of_asap (state : s.slotState i = 2) (late : s.isLate (s.askedBeat n) = true)
    (asap : bit (s.domReg R.EP_POLICY d) 0 = true) :
    s.haulRequest d i n = (((s.request d).flag R.EP_STATUS 2).resultFlag i 2).slotArmed i (s.clk.beat + 2) true := by
  have state' : (s.request d).slotState i = 2 := state
  have late' : (s.request d).isLate (n.getD ((s.request d).clk.beat + 2)) = true := late
  have asap' : bit ((s.request d).domReg R.EP_POLICY d) 0 = true := asap
  simp only [State.haulRequest, state', late', asap', Bool.not_true, Bool.and_false, Bool.false_eq_true, if_false, if_true]
  have clk : (((s.request d).flag R.EP_STATUS 2).resultFlag i 2).clk = (s.request d).clk :=
    (State.setRb_touch (s := (s.request d).flag R.EP_STATUS 2)).same_part .clk |>.trans (State.flag_touch.same_part .clk)
  rw [clk]
  rfl

end

/-- A request for two beats ahead is timely. -/
theorem State.isLate_ahead (s : State) : s.isLate (s.askedBeat none) = false := by
  simp [State.isLate, State.askedBeat, serialGe_self]

section
variable {v : Word} {i : Nat} (h : s.Writes m .ep r R.EP_HAUL_GO) (named : s.slotOfId (fld v 15 0) = some i)
  (own : s.slotOpener i = s.domainOf m)
include h named own

theorem epHaulGoWrite_effect (state : s.slotState i = 2) :
    ∃ t, exec (.epHaulGoWrite m v) s = .next t
      ∧ t.slotState i = 3
      ∧ t.ep.armedAt.get (fun _ => 0#64) i = s.clk.beat + 2
      ∧ t.ep.entries = s.ep.entries
      ∧ RegsBut [R.EP_SLOTs_STATE i] s t
      ∧ SameBut [.regs, .clk, .ep, .reply] s t
      ∧ t.reply = some ⟨m, .done⟩ := by
  have run := exec_epHaulGoWrite named own h
  rw [State.haulRequest_of_timely state s.isLate_ahead] at run
  have asked := State.request_touch (s := s) (d := s.domainOf m)
  have entries : (s.request (s.domainOf m)).ep = s.ep := rfl
  have same : RegsSet [R.EP_SLOTs_STATE i] s (s.request (s.domainOf m)) := .of_regs rfl _
  generalize s.request (s.domainOf m) = u at *
  generalize bit (s.domReg R.EP_POLICY (s.domainOf m)) 0 = asap at *
  obtain ⟨armed, noted, kept, regs, touch⟩ := u.slotArmed_effect i (s.askedBeat none) asap
  generalize u.slotArmed i (s.askedBeat none) asap = x at *
  exact ⟨x.answer m .done, run, armed, noted, kept.trans (congrArg EpochState.entries entries),
    RegsBut.answer (same.trans regs).regsBut m .done,
    SameBut.answer ((asked.sameBut (l := [.regs, .clk, .ep, .reply])).touch touch) (by decide) m .done, rfl⟩

theorem epHaulGoWrite_of_flag {f : Nat} (hf : f < 32)
    (flagged : s.haulRequest (s.domainOf m) i none = (s.request (s.domainOf m)).flag R.EP_STATUS f) :
    ∃ t, exec (.epHaulGoWrite m v) s = .next t
      ∧ t.ep = s.ep
      ∧ t.rb R.EP_STATUS f = true
      ∧ RegsBut [R.EP_STATUS] s t
      ∧ t.reply = some ⟨m, .done⟩ := by
  have run := exec_epHaulGoWrite named own h
  rw [flagged] at run
  have ep : ((s.request (s.domainOf m)).flag R.EP_STATUS f).ep = s.ep := State.flag_touch.same_part .ep
  have set : ((s.request (s.domainOf m)).flag R.EP_STATUS f).rb R.EP_STATUS f = true := State.rb_flag_self _ _ _ hf
  have regs : RegsSet [R.EP_STATUS] s ((s.request (s.domainOf m)).flag R.EP_STATUS f) :=
    RegsSet.trans (.of_regs rfl _) (State.flag_regsSet _ _ _)
  generalize (s.request (s.domainOf m)).flag R.EP_STATUS f = x at *
  exact ⟨x.answer m .done, run, ep, set, regs.regsBut.answer m .done, rfl⟩

end

/-! ### The time of a slot (R63) -/

theorem EP_SLOTs_AT_HI_plain (slot : Fin 4) : R.EP_SLOTs_AT_HI slot.val % 4 = 0
    ∧ R.EP_SLOTs_AT_HI slot.val ≠ ownerReg .ep (R.EP_SLOTs_AT_HI slot.val)
    ∧ R.EP_SLOTs_AT_HI slot.val ≠ R.EP_STAGE ∧ R.EP_SLOTs_AT_HI slot.val ≠ R.EP_ABANDON
    ∧ R.EP_SLOTs_AT_HI slot.val ≠ R.EP_HAUL_GO ∧ R.EP_SLOTs_AT_HI slot.val ≠ R.EP_POLICY
    ∧ R.EP_SLOTs_AT_HI slot.val ≠ R.SN_COUNT ∧ R.EP_SLOTs_AT_HI slot.val ≠ R.SN_AT_HI
    ∧ R.EP_SLOTs_AT_HI slot.val ≠ R.SN_GO ∧ R.EP_SLOTs_AT_HI slot.val ≠ R.SN_CANCEL
    ∧ R.EP_SLOTs_AT_HI slot.val ≠ R.SN_LOAD ∧ slotOfAddr (R.EP_SLOTs_AT_HI slot.val) = some slot.val := by
  revert slot
  decide

theorem exec_epSlotAtHiWrite {slot : Fin 4} (h : s.Writes m .ep r (R.EP_SLOTs_AT_HI slot.val)) (v : Word)
    (stands : s.slotState slot.val ≠ 0) (own : s.slotOpener slot.val = s.domainOf m) :
    exec (.epSlotAtHiWrite m slot v) s =
      .next (((s.setReg (R.EP_SLOTs_AT_HI slot.val) v).haulRequest (s.domainOf m) slot.val
        (some (BitVec.ofNat 64 (pair64 v (s.reg (R.EP_SLOTs_AT_LO slot.val)))))).answer m .done) := by
  obtain ⟨aligned, notOwner, stage, abandon, go, policy, count, at_, snGo, cancel, load, slot'⟩ := EP_SLOTs_AT_HI_plain slot
  have lo : (s.setReg (R.EP_SLOTs_AT_HI slot.val) v).reg (R.EP_SLOTs_AT_LO slot.val) = s.reg (R.EP_SLOTs_AT_LO slot.val) := by
    rw [State.reg_setReg, if_neg (EP_SLOTs_ne slot.val slot.val).2.2.2.2.2]
  refine State.writeCmd_eq h aligned v ((State.writeReg_ep h.access notOwner).trans ?_)
  simp only [State.epWrite, stage, abandon, go, policy, count, at_, snGo, cancel, load, slot', if_false, if_true,
    State.slotAtHi, stands, own, ne_eq, not_true_eq_false, or_false, lo]

/-- What a write of a slot's time leaves, for a slot that waits staged. -/
structure SlotTimed (d i : Nat) (n : BitVec 64) (s t : State) : Prop where
  timely : s.isLate n = false →
    t.slotState i = 3 ∧ t.ep.armedAt.get (fun _ => 0#64) i = n ∧ t.reg R.EP_STATUS = s.reg R.EP_STATUS
  rejected : s.isLate n = true → bit (s.domReg R.EP_POLICY d) 0 = false →
    t.slotState i = 2 ∧ t.rb R.EP_STATUS 1 = true ∧ t.rb (R.EP_SLOTs_RESULT i) 1 = true ∧ t.ep = s.ep
  asap : s.isLate n = true → bit (s.domReg R.EP_POLICY d) 0 = true →
    t.slotState i = 3 ∧ t.ep.armedAt.get (fun _ => 0#64) i = s.clk.beat + 2
      ∧ t.rb R.EP_STATUS 2 = true ∧ t.rb (R.EP_SLOTs_RESULT i) 2 = true
  entries : t.ep.entries = s.ep.entries
  request : t.clk.reqBeat.get (fun _ => 0#64) d = s.clk.beat
  regs : RegsSet [R.EP_SLOTs_STATE i, R.EP_SLOTs_RESULT i, R.EP_STATUS] s t
  parts : SameBut [.regs, .scCount, .clk, .ep] s t

/-- A flag of the epoch unit with its result in the slot. -/
theorem State.flaggedResult_effect (s : State) (i : Nat) {f : Nat} (hf : f < 23) :
    ((s.flag R.EP_STATUS f).resultFlag i f).rb R.EP_STATUS f = true
      ∧ ((s.flag R.EP_STATUS f).resultFlag i f).rb (R.EP_SLOTs_RESULT i) f = true
      ∧ RegsSet [R.EP_SLOTs_RESULT i, R.EP_STATUS] s ((s.flag R.EP_STATUS f).resultFlag i f)
      ∧ Touch 0x6 s ((s.flag R.EP_STATUS f).resultFlag i f) := by
  have touch : Touch 0x6 s ((s.flag R.EP_STATUS f).resultFlag i f) :=
    Touch.of State.flag_touch |>.then State.setRb_touch
  refine ⟨?_, State.rb_setRb_self _ (by omega) true, ?_, touch⟩
  · refine (RegsIn.rb_eq (State.setRb_regsSet _ (R.EP_SLOTs_RESULT i) f true) ?_ f).trans
      (State.rb_flag_self s _ _ (by omega))
    simpa using (EP_STATUS_ne_SLOTs i).2.1
  · exact ((s.flag_regsSet _ _).mono (by simp)).trans ((State.setRb_regsSet _ _ _ _).mono (by simp))

theorem State.haulRequest_timed {d i : Nat} {n : BitVec 64} (state : s.slotState i = 2) :
    SlotTimed d i n s (s.haulRequest d i (some n)) := by
  have request := s.request_reqBeat d
  have asked : Touch 0x100 s (s.request d) := .of State.request_touch
  have none_ : RegsSet [] s (s.request d) := .of_regs rfl _
  have ep : (s.request d).ep = s.ep := rfl
  cases late : s.isLate n
  · rw [State.haulRequest_of_timely (n := some n) state late]
    generalize s.request d = u at *
    obtain ⟨armed, noted, kept, regs, touch⟩ := u.slotArmed_effect i n (bit (s.domReg R.EP_POLICY d) 0)
    change SlotTimed d i n s (u.slotArmed i n (bit (s.domReg R.EP_POLICY d) 0))
    generalize u.slotArmed i n (bit (s.domReg R.EP_POLICY d) 0) = x at *
    have all := (none_.mono (by simp)).trans regs
    refine ⟨fun _ => ⟨armed, noted, all.regsBut _ (by simpa using (EP_STATUS_ne_SLOTs i).1)⟩,
      fun h => absurd h (by simp [late]), fun h => absurd h (by simp [late]),
      kept.trans (congrArg EpochState.entries ep), ?_, all.mono (by simp), (asked.sameBut).touch touch⟩
    rw [touch.same_part .clk]
    exact request
  · cases asap : bit (s.domReg R.EP_POLICY d) 0
    · rw [State.haulRequest_of_rejected (n := some n) state late asap]
      have slot : (s.request d).slotState i = 2 := state
      generalize s.request d = u at *
      obtain ⟨flagged, result, regs, touch⟩ := u.flaggedResult_effect i (f := 1) (by decide)
      generalize (u.flag R.EP_STATUS 1).resultFlag i 1 = x at *
      have all := (none_.mono (by simp)).trans regs
      have ep' : x.ep = s.ep := (touch.same_part .ep).trans ep
      have apart : R.EP_SLOTs_STATE i ∉ [R.EP_SLOTs_RESULT i, R.EP_STATUS] := by
        simp only [List.mem_cons, List.not_mem_nil, or_false, not_or]
        exact ⟨(EP_SLOTs_ne i i).1, (EP_STATUS_ne_SLOTs i).1.symm⟩
      refine ⟨fun h => absurd h (by simp [late]), fun _ _ => ⟨(regs.rf_eq apart 18 16).trans slot, flagged, result, ep'⟩, fun _ h => ?_,
        congrArg EpochState.entries ep', ?_, all.mono (by simp), (asked.sameBut).touch touch⟩
      · rw [asap] at h
        exact absurd h (by decide)
      · rw [touch.same_part .clk]
        exact request
    · rw [State.haulRequest_of_asap (n := some n) state late asap]
      generalize s.request d = u at *
      obtain ⟨flagged, result, regs, touch⟩ := u.flaggedResult_effect i (f := 2) (by decide)
      generalize (u.flag R.EP_STATUS 2).resultFlag i 2 = x at *
      obtain ⟨armed, noted, kept, regs', touch'⟩ := x.slotArmed_effect i (s.clk.beat + 2) true
      generalize x.slotArmed i (s.clk.beat + 2) true = y at *
      have first := (none_.mono (by simp)).trans regs
      have all : RegsSet [R.EP_SLOTs_STATE i, R.EP_SLOTs_RESULT i, R.EP_STATUS] s y :=
        (first.mono (by simp)).trans (regs'.mono (by simp))
      refine ⟨fun h => absurd h (by simp [late]), fun _ h => ?_, fun _ _ => ⟨armed, noted, ?_, ?_⟩, ?_, ?_, all,
        ((asked.sameBut (l := [.regs, .scCount, .clk, .ep])).touch touch).touch touch'⟩
      · rw [asap] at h
        exact absurd h (by decide)
      · exact (regs'.rb_eq (by simpa using (EP_STATUS_ne_SLOTs i).1) 2).trans flagged
      · exact (regs'.rb_eq (by simpa using (EP_SLOTs_ne i i).1.symm) 2).trans result
      · rw [kept, touch.same_part .ep, ep]
      · rw [touch'.same_part .clk, touch.same_part .clk]
        exact request

theorem epSlotAtHiWrite_effect {slot : Fin 4} (h : s.Writes m .ep r (R.EP_SLOTs_AT_HI slot.val)) {v : Word}
    {n : BitVec 64} (state : s.slotState slot.val = 2) (own : s.slotOpener slot.val = s.domainOf m)
    (named : n = BitVec.ofNat 64 (pair64 v (s.reg (R.EP_SLOTs_AT_LO slot.val)))) :
    ∃ t, exec (.epSlotAtHiWrite m slot v) s = .next t
      ∧ (s.isLate n = false → t.slotState slot.val = 3 ∧ t.ep.armedAt.get (fun _ => 0#64) slot.val = n
          ∧ t.reg R.EP_STATUS = s.reg R.EP_STATUS)
      ∧ (s.isLate n = true → bit (s.domReg R.EP_POLICY (s.domainOf m)) 0 = false →
          t.slotState slot.val = 2 ∧ t.rb R.EP_STATUS 1 = true ∧ t.rb (R.EP_SLOTs_RESULT slot.val) 1 = true ∧ t.ep = s.ep)
      ∧ (s.isLate n = true → bit (s.domReg R.EP_POLICY (s.domainOf m)) 0 = true →
          t.slotState slot.val = 3 ∧ t.ep.armedAt.get (fun _ => 0#64) slot.val = s.clk.beat + 2
          ∧ t.rb R.EP_STATUS 2 = true ∧ t.rb (R.EP_SLOTs_RESULT slot.val) 2 = true)
      ∧ t.ep.entries = s.ep.entries
      ∧ t.clk.reqBeat.get (fun _ => 0#64) (s.domainOf m) = s.clk.beat
      ∧ RegsBut [R.EP_SLOTs_AT_HI slot.val, R.EP_SLOTs_STATE slot.val, R.EP_SLOTs_RESULT slot.val, R.EP_STATUS] s t
      ∧ SameBut [.regs, .scCount, .clk, .ep, .reply] s t
      ∧ t.reply = some ⟨m, .done⟩ := by
  have run := exec_epSlotAtHiWrite h v (by omega) own
  rw [← named] at run
  have stored := s.setReg_regsSet (R.EP_SLOTs_AT_HI slot.val) v
  have touch : Touch 0x2 s (s.setReg (R.EP_SLOTs_AT_HI slot.val) v) := .of State.setReg_touch
  have staged : (s.setReg (R.EP_SLOTs_AT_HI slot.val) v).slotState slot.val = 2 :=
    (RegsIn.rf_eq stored (by simpa using (EP_SLOTs_ne slot.val slot.val).2.2.2.1) 18 16).trans state
  obtain ⟨timely, rejected, asap, entries, request, regs, parts⟩ :=
    State.haulRequest_timed (d := s.domainOf m) (n := n) staged
  have status : (s.setReg (R.EP_SLOTs_AT_HI slot.val) v).reg R.EP_STATUS = s.reg R.EP_STATUS :=
    stored.regsBut _ (by simpa using (EP_STATUS_ne_SLOTs slot.val).2.2)
  have late : (s.setReg (R.EP_SLOTs_AT_HI slot.val) v).isLate n = s.isLate n := rfl
  have policy : (s.setReg (R.EP_SLOTs_AT_HI slot.val) v).domReg R.EP_POLICY (s.domainOf m) =
      s.domReg R.EP_POLICY (s.domainOf m) := rfl
  have clk : (s.setReg (R.EP_SLOTs_AT_HI slot.val) v).clk = s.clk := rfl
  have ep : (s.setReg (R.EP_SLOTs_AT_HI slot.val) v).ep = s.ep := rfl
  generalize s.setReg (R.EP_SLOTs_AT_HI slot.val) v = u at *
  rw [late, status] at timely
  rw [late, policy, ep] at rejected
  rw [late, policy, clk] at asap
  rw [ep] at entries
  rw [clk] at request
  generalize u.haulRequest (s.domainOf m) slot.val (some n) = x at *
  refine ⟨x.answer m .done, run, timely, rejected, asap, entries, request, ?_, ?_, rfl⟩
  · exact RegsBut.answer ((stored.mono (by simp)).trans (regs.mono (List.subset_cons_self _ _))).regsBut m .done
  · exact SameBut.answer ((touch.sameBut (l := [.regs, .scCount, .clk, .ep, .reply])).trans (parts.mono (by decide)))
      (by decide) m .done

/-! ### Epochs that are abandoned (R71) -/

section
variable {v : Word} {i : Nat} (h : s.Writes m .ep r R.EP_ABANDON) (named : s.slotOfId (fld v 15 0) = some i)
  (own : s.slotOpener i = s.domainOf m)
include h named own

theorem epAbandonWrite_effect (state : s.slotState i = 1 ∨ s.slotState i = 2
      ∨ (s.slotState i = 3 ∧ serialGe (s.ep.armedAt.get (fun _ => 0#64) i) (s.clk.beat + 2) = true)) :
    ∃ t, exec (.epAbandonWrite m v) s = .next t
      ∧ t.slotState i = 5
      ∧ t.ep = s.ep
      ∧ RegsBut [R.EP_SLOTs_STATE i] s t
      ∧ SameBut [.regs, .clk, .reply] s t
      ∧ t.reply = some ⟨m, .done⟩ := by
  have run := exec_epAbandonWrite named own h
  have leaves : s.epAbandon (s.domainOf m) i = (s.request (s.domainOf m)).setSlotState i 5 := by
    have same : (s.request (s.domainOf m)).slotState i = s.slotState i := rfl
    unfold State.epAbandon
    dsimp only
    rw [same]
    rcases state with e | e | ⟨e, far⟩
    · simp only [e]
    · simp only [e]
    · simp only [e]
      exact if_pos far
  rw [leaves] at run
  have asked : Touch 0x100 s (s.request (s.domainOf m)) := .of State.request_touch
  have none_ : RegsSet [R.EP_SLOTs_STATE i] s (s.request (s.domainOf m)) := .of_regs rfl _
  have ep : (s.request (s.domainOf m)).ep = s.ep := rfl
  generalize s.request (s.domainOf m) = u at *
  obtain ⟨gone, -, -, regs, touch⟩ := u.setSlotState_effect i (v := 5) (by decide)
  generalize u.setSlotState i 5 = x at *
  exact ⟨x.answer m .done, run, gone, (touch.same_part .ep).trans ep, RegsBut.answer (none_.trans regs).regsBut m .done,
    SameBut.answer ((asked.sameBut (l := [.regs, .clk, .reply])).touch touch) (by decide) m .done, rfl⟩

theorem epAbandonWrite_of_near (state : s.slotState i = 4
      ∨ (s.slotState i = 3 ∧ serialGe (s.ep.armedAt.get (fun _ => 0#64) i) (s.clk.beat + 2) = false)) :
    ∃ t, exec (.epAbandonWrite m v) s = .next t
      ∧ t.slotState i = s.slotState i
      ∧ t.ep = s.ep
      ∧ t.rb R.EP_STATUS 10 = true
      ∧ RegsBut [R.EP_STATUS] s t
      ∧ t.reply = some ⟨m, .done⟩ := by
  have run := exec_epAbandonWrite named own h
  have leaves : s.epAbandon (s.domainOf m) i = (s.request (s.domainOf m)).flag R.EP_STATUS 10 := by
    have same : (s.request (s.domainOf m)).slotState i = s.slotState i := rfl
    unfold State.epAbandon
    dsimp only
    rw [same]
    rcases state with e | ⟨e, near⟩
    · simp only [e]
    · simp only [e]
      exact if_neg (Bool.eq_false_iff.mp near)
  rw [leaves] at run
  have slot : (s.request (s.domainOf m)).slotState i = s.slotState i := rfl
  have none_ : RegsSet [R.EP_STATUS] s (s.request (s.domainOf m)) := .of_regs rfl _
  have ep : (s.request (s.domainOf m)).ep = s.ep := rfl
  generalize s.request (s.domainOf m) = u at *
  have regs := u.flag_regsSet R.EP_STATUS 10
  have set : (u.flag R.EP_STATUS 10).rb R.EP_STATUS 10 = true := State.rb_flag_self _ _ _ (by decide)
  have ep' : (u.flag R.EP_STATUS 10).ep = u.ep := State.flag_touch.same_part .ep
  generalize u.flag R.EP_STATUS 10 = x at *
  have slot' : x.slotState i = u.slotState i := regs.rf_eq (by simpa using (EP_STATUS_ne_SLOTs i).1.symm) 18 16
  exact ⟨x.answer m .done, run, slot'.trans slot, ep'.trans ep, set, RegsBut.answer (none_.trans regs).regsBut m .done, rfl⟩

end

theorem abandonComplete_effect {slot : Fin 4} (state : s.slotState slot.val = 5) :
    ∃ t, exec (.abandonComplete slot) s = .next t
      ∧ t.reg (R.EP_SLOTs_STATE slot.val) = 0#32
      ∧ t.rb (R.EP_SLOTs_RESULT slot.val) 6 = true
      ∧ t.ep.entries = s.ep.entries.filter (fun e => e.slot != slot.val)
      ∧ RegsBut [R.EP_SLOTs_STATE slot.val, R.EP_SLOTs_RESULT slot.val] s t
      ∧ SameBut [.regs, .ep] s t := by
  have run : exec (.abandonComplete slot) s =
      .next (((s.dropEntries slot.val).setReg (R.EP_SLOTs_STATE slot.val) 0#32).resultFlag slot.val 6) :=
    congrArg _ (if_pos state)
  have dropped : Touch 0x200 s (s.dropEntries slot.val) := .of State.setEntries_touch_filter
  have entries : (s.dropEntries slot.val).ep.entries = s.ep.entries.filter (fun e => e.slot != slot.val) := rfl
  have same : RegsSet [R.EP_SLOTs_STATE slot.val, R.EP_SLOTs_RESULT slot.val] s (s.dropEntries slot.val) := .of_regs rfl _
  generalize s.dropEntries slot.val = u at *
  have freed : Touch 0x2 u (u.setReg (R.EP_SLOTs_STATE slot.val) 0#32) := .of State.setReg_touch
  have shown : (u.setReg (R.EP_SLOTs_STATE slot.val) 0#32).reg (R.EP_SLOTs_STATE slot.val) = 0#32 := by simp
  have regs := u.setReg_regsSet (R.EP_SLOTs_STATE slot.val) 0#32
  have ep : (u.setReg (R.EP_SLOTs_STATE slot.val) 0#32).ep = u.ep := rfl
  generalize u.setReg (R.EP_SLOTs_STATE slot.val) 0#32 = x at *
  refine ⟨_, run, ?_, State.rb_setRb_self _ (by decide) true, ?_, ?_, ?_⟩
  · have apart : R.EP_SLOTs_STATE slot.val ∉ [R.EP_SLOTs_RESULT slot.val] := by
      simpa using (EP_SLOTs_ne slot.val slot.val).1
    exact ((State.setRb_regsSet x (R.EP_SLOTs_RESULT slot.val) 6 true).regsBut _ apart).trans shown
  · exact (congrArg EpochState.entries ep).trans entries
  · exact ((same.trans (regs.mono (by simp))).trans ((State.setRb_regsSet _ _ _ _).mono (by simp))).regsBut
  · exact ((dropped.sameBut (l := [.regs, .ep])).touch freed).touch State.setRb_touch

end

/-- Settles O20, clause by clause: what a request makes of its slot, and what it leaves of every other. -/
theorem epochRequests : Obligations.EpochRequests :=
  ⟨fun _ _ _ _ h none_ free first last small => epOpenRead_effect h none_ free first last small,
    fun _ _ _ h busy => epOpenRead_of_flag h (by decide) (State.epOpen_of_open busy),
    fun _ _ _ h none_ full => epOpenRead_of_flag h (by decide) (State.epOpen_of_full none_ full),
    fun _ _ _ _ _ h named own => epStageWrite_effect h named own,
    fun _ _ _ _ _ _ h state own named => epSlotAtHiWrite_effect h state own named,
    fun _ _ _ _ _ h named own state => epHaulGoWrite_effect h named own state,
    fun _ _ _ _ _ h named own state => epHaulGoWrite_of_flag h named own (by decide) (State.haulRequest_of_open state),
    fun _ _ _ _ _ h named own state => epHaulGoWrite_of_flag h named own (by decide) (State.haulRequest_of_later state),
    fun _ _ _ _ _ h named own state => epAbandonWrite_effect h named own state,
    fun _ _ _ _ _ h named own state => epAbandonWrite_of_near h named own state,
    fun _ _ state => abandonComplete_effect state⟩

end Sys2Proof.Machine
end

section
/-!
A staged entry on a target that is not epoch-bound (R64).
-/
set_option Elab.async false
namespace Sys2Proof.Machine
open Sys2Proof

/-! ### A staged entry on a target that is not epoch-bound -/

/-- A device whose one armed epoch has staged a value for the state register of its own slot. O34's invariant excludes such
an entry: EP_SLOTs_STATE is not epoch-bound. -/
def slotStaged : State :=
  { (Tests.base.setReg (R.EP_SLOTs_STATE 0) (w32 (at_ 3 16 + 1))) with
    ep := { Tests.base.ep with entries := [⟨0, R.EP_SLOTs_STATE 0, w32 (at_ 5 16 + 1), false⟩] } }

/-- Refutes O21: the clause of HAUL_DOWN has no premise that staged entries lie on epoch-bound targets. The haul-down of
this device swaps the value into EP_SLOTs_STATE, and the slot stands ABANDONING, neither APPLYING nor FREE. -/
theorem not_haulDownsAndSnapshots : ¬ Obligations.HaulDownsAndSnapshots := by
  rintro ⟨haul, -⟩
  obtain ⟨t, run, -, slot, -⟩ := haul 0 slotStaged (by decide +kernel) (by decide +kernel)
  rw [State.after_eq run] at slot
  exact absurd slot (by decide +kernel)

end Sys2Proof.Machine
end

section
/-!
Accesses to system SRAM and to registers of the special kinds (R4, R18, R28, R299).
-/
set_option Elab.async false
namespace Sys2Proof.Machine
open Sys2Proof

/-! ### Writes that the path carries -/

section
variable {s t : State} {m : Master} {a n : Nat} {v : Word}

/-- A write that ends well on the bus. -/
theorem State.writeCmd_of_done (acts : s.acts m = true) (own : ownCheck m a n = true)
    (bus : s.busWrite m a n v = (.done, t)) : s.writeCmd m a n v = .next (t.answer m .done) := by
  unfold State.writeCmd State.masterWrite
  rw [acts, bus, own]
  cases m <;> rfl

/-- A write over a path without fault to a place that takes its size. -/
theorem State.busWrite_of_place {p : Place} (path : s.pathTo a = .good) (place : s.place m a = some p)
    (size : sizeOk p a n = true) : s.busWrite m a n v = s.writePlace m (s.domainOf m) a n v p := by
  simp only [State.busWrite, State.writeAs, State.overPath, path, place, size, if_true]

theorem State.writeCmd_of_register {b : Blk} {r : RegRow} (acts : s.acts m = true)
    (place : s.place m a = some (.register b r a)) (path : s.pathTo a = .good) (there : s.islandGone m a = false)
    (may : s.mayWriteReg (s.domainOf m) b r a = true) (aligned : a % 4 = 0)
    (written : s.writeReg (s.domainOf m) b r a v = (.done, t)) : s.writeCmd m a 4 v = .next (t.answer m .done) := by
  refine State.writeCmd_of_done acts (ownCheck_word m aligned) ?_
  rw [State.busWrite_of_place path place (by simp [sizeOk, aligned])]
  simp only [State.writePlace, there, may, Bool.not_true, if_false, Bool.false_eq_true]
  exact written

end

/-! ### System SRAM -/

section
variable {s : State} {m : Master} {a n : Nat} (low : 0x20000000 ≤ a) (high : a < 0x21000000) (reached : reaches m a = true)
include low high reached

/-- System SRAM is reached by the cores, the management processor and DMA channels alone (R28). -/
theorem sram_master : m ≠ .host ∧ m ≠ .debug := by
  have far : ¬ a < 0x100000 := by omega
  have notFlash : ¬ (0x10000000 ≤ a ∧ a < 0x12000000) := by omega
  unfold reaches at reached
  simp only [if_neg far, if_neg notFlash, if_pos (And.intro low high)] at reached
  constructor <;> rintro rfl <;> simp at reached

theorem State.place_sram : s.place m a = some (.ram a) := by
  have ne := (sram_master low high reached).2
  have far : ¬ a < 0x100000 := by omega
  have notFlash : ¬ a < 0x12000000 := by omega
  simp [State.place, reached, ne, far, notFlash, high]

/-- An aligned write to system SRAM ends well where the memory takes it. -/
theorem State.writeCmd_sram {v : Word} {t : State} (acts : s.acts m = true) (path : s.pathTo a = .good)
    (size : n = 1 ∨ n = 4) (aligned : a % n = 0) (written : s.sramWrite m a n v = (.done, t)) :
    s.writeCmd m a n v = .next (t.answer m .done) := by
  have notHost := (sram_master low high reached).1
  refine State.writeCmd_of_done acts ?_ ?_
  · cases m <;> first | rfl | exact absurd rfl notHost | simp [ownCheck, aligned]
  · rw [State.busWrite_of_place path (State.place_sram low high reached) (by obtain rfl | rfl := size <;> simp [sizeOk, aligned])]
    exact written

end

/-- Memory of a state whose caches may go on holding what they held. -/
def State.sramMissed (s : State) (m : Master) (a n : Nat) : State :=
  s.cachesMiss (s.writer m) ((List.range n).map (fun i => a + i))

theorem State.sramMissed_sameBut (s : State) (m : Master) (a n : Nat) : SameBut [.cores, .freeCtr] s (s.sramMissed m a n) :=
  s.cachesMiss_sameBut _ _

theorem sramWordWrite_effect (m : Master) (a v : Word) (s : State) (acts : s.acts m = true) (low : 0x20000000 ≤ a.toNat)
    (high : a.toNat < 0x21000000) (aligned : a.toNat % 4 = 0) (reached : reaches m a.toNat = true)
    (path : s.pathTo a.toNat = .good) :
    ∃ t, exec (.registerWrite m a .word v) s = .next t
      ∧ t.mword a.toNat = v
      ∧ BytesBut a.toNat 4 s t
      ∧ t.reply = some ⟨m, .done⟩
      ∧ RegsBut [] s t
      ∧ SameBut [.mem, .ecc, .reply, .cores, .freeCtr] s t := by
  have missed := s.sramMissed_sameBut m a.toNat 4
  have written : s.sramWrite m a.toNat 4 v = (.done, (s.sramMissed m a.toNat 4).setMword a.toNat v) := by
    unfold State.sramWrite
    rw [if_pos ⟨low, high, .inl rfl⟩]
    rfl
  have run : exec (.registerWrite m a .word v) s = _ :=
    State.writeCmd_sram low high reached acts path (.inr rfl) aligned written
  have parts : SameBut [.mem, .ecc, .cores, .freeCtr] s ((s.sramMissed m a.toNat 4).setMword a.toNat v) :=
    (missed.mono (by decide)).trans ((State.setMword_sameBut _ _ _).mono (by decide))
  have bytes : BytesBut a.toNat 4 s ((s.sramMissed m a.toNat 4).setMword a.toNat v) :=
    (missed.bytesBut (by decide) _ _).trans (State.setMword_bytesBut _ _ _)
  have stored := (s.sramMissed m a.toNat 4).mword_setMword_self a.toNat v
  clear written missed
  generalize (s.sramMissed m a.toNat 4).setMword a.toNat v = u at *
  exact ⟨u.answer m .done, run, stored, bytes, rfl, RegsBut.answer (parts.regsBut (by decide) _) m .done,
    SameBut.answer (parts.mono (by decide)) (by decide) m .done⟩

/-! ### A correctable word -/

/-- The registers in which the memory monitor counts and shows a corrected word (R330 and on). -/
def correctionRegs : List Nat := [R.ME_COUNTS, R.ME_LAST_ADDR, R.ME_LAST_INFO, R.ME_STATUS]

theorem State.permanentWord_regsSet (s : State) (mem a : Nat) : RegsSet correctionRegs s (s.permanentWord mem a) := by
  unfold State.permanentWord
  refine .ite (.refl _ s) (.ite (.of_regs rfl _) ?_)
  exact ((State.flag_regsSet _ _ _).mono (by simp [correctionRegs])).trans (.of_regs rfl _)

theorem State.eccCorrect_regsSet (s : State) (mem a : Nat) : RegsSet correctionRegs s (s.eccCorrect mem a) := by
  unfold State.eccCorrect
  have counted (u : State) : RegsSet correctionRegs u (u.meCount false) :=
    (State.setReg_regsSet _ _ _).mono (by simp [correctionRegs])
  have shown (u : State) : RegsSet correctionRegs u (u.meLast 0 mem a) :=
    ((State.setReg_regsSet _ _ _).mono (by simp [correctionRegs])).trans
      ((State.setReg_regsSet _ _ _).mono (by simp [correctionRegs]))
  have flagged (u : State) : RegsSet correctionRegs u (u.flag R.ME_STATUS 0) :=
    (State.flag_regsSet _ _ _).mono (by simp [correctionRegs])
  have noted (r : MacroRec) : RegsSet correctionRegs s ((s.setEcc a .good).setMacro (macroKey mem a) r) := .of_regs rfl _
  have walked (r : MacroRec) := (((noted r).trans (counted _)).trans (shown _)).trans (flagged _)
  exact .ite ((walked _).trans (State.permanentWord_regsSet _ mem a)) (walked _)

theorem State.eccRead_regsSet (s : State) (a : Nat) : RegsSet correctionRegs s (s.eccRead a) := by
  unfold State.eccRead
  split
  · split
    · exact s.eccCorrect_regsSet _ _
    · exact .refl _ s
  · exact .refl _ s

theorem State.eccRead_of_good {s : State} {a : Nat} (good : s.eccMark a = .good) : s.eccRead a = s := by
  simp [State.eccRead, good]

/-! ### A byte of system SRAM -/

theorem State.eccMark_congr {s t : State} (h : t.ecc = s.ecc) (a : Nat) : t.eccMark a = s.eccMark a := by
  rw [State.eccMark, State.eccMark, h]

theorem sramByteWrite_effect (m : Master) (a v : Word) (s : State) (acts : s.acts m = true) (low : 0x20000000 ≤ a.toNat)
    (high : a.toNat < 0x21000000) (sound : s.eccBad a.toNat = false) (reached : reaches m a.toNat = true)
    (path : s.pathTo a.toNat = .good) :
    ∃ t, exec (.registerWrite m a .byte v) s = .next t
      ∧ t.byte a.toNat = v.truncate 8
      ∧ BytesBut a.toNat 1 s t
      ∧ t.reply = some ⟨m, .done⟩
      ∧ (s.eccMark a.toNat = .good → RegsBut [] s t ∧ SameBut [.mem, .reply, .cores, .freeCtr] s t)
      ∧ RegsBut [R.ME_COUNTS, R.ME_LAST_ADDR, R.ME_LAST_INFO, R.ME_STATUS] s t
      ∧ SameBut [.mem, .ecc, .macros, .regs, .scCount, .due, .reply, .cores, .freeCtr] s t := by
  have missed := s.sramMissed_sameBut m a.toNat 1
  have mark : (s.sramMissed m a.toNat 1).eccMark a.toNat = s.eccMark a.toNat :=
    State.eccMark_congr (missed .ecc (by decide)) _
  have corrected := State.eccRead_sameBut (s.sramMissed m a.toNat 1) a.toNat
  have counted := State.eccRead_regsSet (s.sramMissed m a.toNat 1) a.toNat
  have clean (good : s.eccMark a.toNat = .good) : (s.sramMissed m a.toNat 1).eccRead a.toNat = s.sramMissed m a.toNat 1 :=
    State.eccRead_of_good (mark.trans good)
  have written : s.sramWrite m a.toNat 1 v
      = (.done, ((s.sramMissed m a.toNat 1).eccRead a.toNat).storeBytes a.toNat [v.truncate 8]) := by
    have sound' : (s.sramMissed m a.toNat 1).eccBad a.toNat = false := by rw [State.eccBad, mark]; exact sound
    unfold State.sramWrite
    rw [if_pos ⟨low, high, .inr sound⟩]
    change State.ramWrite (s.sramMissed m a.toNat 1) a.toNat 1 v = _
    unfold State.ramWrite
    rw [if_neg (by decide), if_neg (by simp [sound'])]
    rfl
  have run : exec (.registerWrite m a .byte v) s = _ :=
    State.writeCmd_sram low high reached acts path (.inl rfl) (Nat.mod_one _) written
  clear written mark
  generalize s.sramMissed m a.toNat 1 = u at *
  have stored := State.storeBytes_sameBut [v.truncate 8] a.toNat (u.eccRead a.toNat)
  have bytes (b : Nat) := State.byte_storeBytes [v.truncate 8] a.toNat b (u.eccRead a.toNat)
  generalize u.eccRead a.toNat = w at *
  generalize w.storeBytes a.toNat [v.truncate 8] = x at *
  have regs : RegsBut correctionRegs s x :=
    ((missed.regsBut (by decide) _).trans counted.regsBut).trans (stored.regsBut (by decide) _)
  have parts : SameBut [.mem, .ecc, .macros, .regs, .scCount, .due, .reply, .cores, .freeCtr] s x :=
    ((missed.mono (by decide)).trans (corrected.mono (by decide))).trans (stored.mono (by decide))
  refine ⟨x.answer m .done, run, ?_, ?_, rfl, fun good => ?_, RegsBut.answer regs m .done,
    SameBut.answer parts (by decide) m .done⟩
  · show x.byte a.toNat = _
    rw [bytes, if_pos (by simp)]
    simp
  · refine BytesBut.answer (fun b out => ?_) m .done
    rw [bytes, if_neg (by simp; omega), corrected.byte_eq (by decide), missed.byte_eq (by decide)]
  · rw [clean good] at stored
    have kept : SameBut [.mem, .cores, .freeCtr] s x := (missed.mono (by decide)).trans (stored.mono (by decide))
    exact ⟨RegsBut.answer (kept.regsBut (by decide) _) m .done,
      SameBut.answer (kept.mono (by decide)) (by decide) m .done⟩

/-! ### Addresses that a master does not reach -/

theorem unreachedWrite_effect (m : Master) (a : Word) (size : AccSize) (v : Word) (s : State) (acts : s.acts m = true)
    (far : reaches m a.toNat = false) (path : s.pathTo a.toNat = .good) (which : m = .mp ∨ m = .net ∨ m = .debug) :
    ∃ t, exec (.registerWrite m a size v) s = .next t
      ∧ t.reply = some ⟨m, .error .unreachable⟩
      ∧ RegsBut [] s t
      ∧ SameBut [.reply] s t := by
  have nowhere : s.place m a.toNat = none := by
    unfold State.place
    rw [if_pos (by simp [far])]
  have bus : s.busWrite m a.toNat (sizeBytes size) v = (.error .unreachable, s) := by
    simp only [State.busWrite, State.writeAs, State.overPath, path, nowhere]
  have run : exec (.registerWrite m a size v) s = .next (s.answer m (.error .unreachable)) := by
    have unfolded : exec (.registerWrite m a size v) s = s.writeCmd m a.toNat (sizeBytes size) v := rfl
    rw [unfolded]
    unfold State.writeCmd State.masterWrite
    rw [acts, bus]
    obtain rfl | rfl | rfl := which <;> rfl
  exact ⟨_, run, rfl, RegsBut.answer (.refl _ s) m _, SameBut.answer (.refl _ s) (by decide) m _⟩

/-! ### Status registers that count -/

theorem State.engineDrops_of_takes (s : State) {b : Blk} (takes : s.blockTakes b = true) : s.engineDrops b = false := by
  cases b
  case le n m => exact (Bool.not_eq_true' _).mp takes
  all_goals rfl

theorem scStatusWrite_effect (m : Master) (a v : Word) (b : Blk) (r : RegRow) (s : State) (acts : s.acts m = true)
    (place : s.place m a.toNat = some (.register b r a.toNat)) (path : s.pathTo a.toNat = .good)
    (there : s.islandGone m a.toNat = false) (may : s.mayWriteReg (s.domainOf m) b r a.toNat = true)
    (aligned : a.toNat % 4 = 0) (access : r.access = .sc) (takes : s.blockTakes b = true) :
    ∃ t, exec (.scStatusWrite m a v) s = .next t
      ∧ (fld v 31 24 = s.rf a.toNat 31 24 →
          t.reg a.toNat = s.reg a.toNat &&& maskW 31 24 ∧ t.scCount.get (fun _ => 0) a.toNat = 0)
      ∧ (fld v 31 24 ≠ s.rf a.toNat 31 24 → t.reg a.toNat = s.reg a.toNat)
      ∧ t.reply = some ⟨m, .done⟩
      ∧ RegsBut [a.toNat] s t
      ∧ SameBut [.regs, .scCount, .reply] s t := by
  have drops : s.engineDrops b = false := s.engineDrops_of_takes takes
  have written : s.writeReg (s.domainOf m) b r a.toNat v = (.done, s.scWrite a.toNat v) := by
    simp only [State.writeReg, access, drops, if_false, Bool.false_eq_true]
  have run : exec (.scStatusWrite m a v) s = .next ((s.scWrite a.toNat v).answer m .done) :=
    State.writeCmd_of_register acts place path there may aligned written
  have touch : Touch 0x6 s (s.scWrite a.toNat v) := State.scWrite_touch
  have regs : RegsSet [a.toNat] s (s.scWrite a.toNat v) := by
    unfold State.scWrite
    exact .ite (State.setReg_regsSet s _ _) (.refl _ s)
  refine ⟨_, run, fun matched => ?_, fun differs => ?_, rfl, RegsBut.answer regs.regsBut m .done,
    SameBut.answer (touch.sameBut) (by decide) m .done⟩
  · unfold State.scWrite
    rw [if_pos matched]
    exact ⟨State.reg_setReg _ _ _ _ |>.trans (if_pos rfl), by simp [Store.get_set]⟩
  · unfold State.scWrite
    rw [if_neg differs]
    rfl

/-! ### Live reads of several words -/

theorem State.domReg_latched (d : Nat) (f : Nat → Word) {x : Nat} : ∀ (l : List Nat) (s : State),
    (l.foldl (fun t y => t.setDomReg y d (f y)) s).domReg x d = if x ∈ l then f x else s.domReg x d
  | [], s => by simp
  | y :: l, s => by
    rw [List.foldl_cons, State.domReg_latched d f l]
    by_cases later : x ∈ l
    · simp [later]
    · by_cases same : x = y
      · subst same
        simp [later, State.domReg, State.domRegs_setDomReg]
      · simp [later, same, State.domReg, State.domRegs_setDomReg]

theorem State.latch_domReg (s : State) (b : Blk) (a d : Nat) {x : Nat} (hx : x ∈ shadowsOf a) :
    (s.latch b a d).domReg x d = s.live b x d :=
  (State.domReg_latched d (fun y => s.live b y d) (shadowsOf a) s).trans (if_pos hx)

/-- A live row of the timebase is one register, below the calendar's battery-backed RAM. -/
theorem tbRows_live : ∀ r ∈ rows_tb, r.access = .ll → r.dims = [] ∧ r.off < 0x1000 := by decide

/-- A register of the calendar's battery-backed RAM is plain: none of them latches shadows. -/
theorem not_calBram_of_ll {a o : Nat} {b : Blk} {r : RegRow} (aligned : a % 4 = 0) (found : locate (a / 4 * 4) = some (b, o))
    (row : b.row o = some r) (access : r.access = .ll) : ¬ (R.CAL_BRAMw 0 ≤ a ∧ a < R.CAL_BRAMw 1024) := by
  rintro ⟨low, high⟩
  unfold R.CAL_BRAMw at low high
  have slot : a / 4 * 4 / 0x1000000 = 0x57 := by omega
  have timebase : locate (a / 4 * 4) = some (.tb, a / 4 * 4 % 0x1000000) := by
    unfold locate
    simp only [slot]
    rfl
  obtain ⟨rfl, rfl⟩ : Blk.tb = b ∧ a / 4 * 4 % 0x1000000 = o := by simpa [timebase] using found
  have row' : rows_tb.find? (fun x => x.holds (a / 4 * 4 % 0x1000000)) = some r := row
  obtain ⟨single, below⟩ := tbRows_live r (List.mem_of_find?_eq_some row') access
  have holds := List.find?_some row'
  simp only [RegRow.holds, single, onGrid, Bool.and_eq_true, decide_eq_true_eq, beq_iff_eq] at holds
  omega

theorem llRead_effect (m : Master) (a : Word) (b : Blk) (r : RegRow) (s : State) (acts : s.acts m = true)
    (place : s.place m a.toNat = some (.register b r a.toNat)) (path : s.pathTo a.toNat = .good)
    (there : s.islandGone m a.toNat = false) (may : s.mayReadReg (s.domainOf m) b a.toNat = true)
    (aligned : a.toNat % 4 = 0) (access : r.access = .ll) (noPort : portOf a.toNat = none) :
    ∃ t, exec (.llRead m a) s = .next t
      ∧ t.reply = some ⟨m, .data (s.live b a.toNat (s.domainOf m))⟩
      ∧ (∀ x ∈ shadowsOf a.toNat, t.domReg x (s.domainOf m) = s.live b x (s.domainOf m))
      ∧ (b = .tb → SameBut [.domRegs, .reply] s t) := by
  obtain ⟨o, found, row⟩ := State.row_of_place place
  have read : s.readReg b r a.toNat (s.domainOf m)
      = (s.live b a.toNat (s.domainOf m), (s.latch b a.toNat (s.domainOf m)).consume b a.toNat) := by
    simp only [State.readReg, access]
  have run : exec (.llRead m a) s = s.readCmd m a.toNat 4 := rfl
  rw [State.readCmd_of_reads ⟨acts, place, path, there, may⟩ aligned noPort (not_calBram_of_ll aligned found row access),
    read] at run
  have latched (x : Nat) (hx : x ∈ shadowsOf a.toNat) := s.latch_domReg b a.toNat (s.domainOf m) hx
  have touch : Touch 0x8 s (s.latch b a.toNat (s.domainOf m)) := State.latch_touch
  have consumed : Touch 0x800110002 (s.latch b a.toNat (s.domainOf m)) _ := State.consume_touch (b := b) (a := a.toNat)
  have quiet (h : b = .tb) : (s.latch b a.toNat (s.domainOf m)).consume b a.toNat = s.latch b a.toNat (s.domainOf m) := by
    subst h
    rfl
  generalize s.latch b a.toNat (s.domainOf m) = u at *
  have kept : (u.consume b a.toNat).domRegs = u.domRegs := consumed.same_part .domRegs
  refine ⟨_, run, rfl, fun x hx => ?_, fun h => ?_⟩
  · exact (congrArg (Store.get (fun _ => 0#32) (16 * x + s.domainOf m)) kept).trans (latched x hx)
  · rw [quiet h]
    exact SameBut.answer (touch.sameBut) (by decide) m _

/-! ### Frames of the exchange -/

section
variable {s : State} {m : Master} {r : RegRow} {f : Fin 1024} (h : s.Writes m .sys r (R.XM_FRAME_CFGf f.val))

theorem frameOf_XM_FRAME_CFGf (f : Fin 1024) : frameOf (R.XM_FRAME_CFGf f.val) = some f.val := by
  have small := f.isLt
  unfold frameOf xmFrameIndex R.XM_FRAME_CFGf
  rw [if_pos (by omega)]
  congr 1
  omega

include h in
/-- Who may write a frame's configuration: domain 0, or the frame's owner (R18). -/
theorem State.Writes.frame_owner : s.domainOf m = 0 ∨ fld (s.reg (R.XM_FRAME_CFGf f.val)) 29 26 = s.domainOf m := by
  have small := f.isLt
  have may := h.may
  have open' : (r.access == .ro || r.access == .hs || r.access == .ll) = false := by
    obtain e | e | e := h.access <;> rw [e] <;> rfl
  have shared : domain0Only .sys (R.XM_FRAME_CFGf f.val) = false := by
    simp [domain0Only, ownerReg, R.XM_FRAME_CFGf, R.SYS_OWNER]
    omega
  have noPort : portOf (R.XM_FRAME_CFGf f.val) = none := if_neg (by unfold R.XM_FRAME_CFGf; omega)
  have n1 : R.XM_FRAME_CFGf f.val ≠ R.PW_TEST := by unfold R.XM_FRAME_CFGf R.PW_TEST; omega
  have n2 : ¬ (R.XM_FRAME_CFGf f.val = R.EP_POLICY ∨ R.XM_FRAME_CFGf f.val = R.EP_STAGE ∨ R.XM_FRAME_CFGf f.val = R.EP_ABANDON
      ∨ R.XM_FRAME_CFGf f.val = R.EP_HAUL_GO ∨ R.XM_FRAME_CFGf f.val = R.FB_FIRE) := by
    unfold R.XM_FRAME_CFGf R.EP_POLICY R.EP_STAGE R.EP_ABANDON R.EP_HAUL_GO R.FB_FIRE; omega
  have n3 : ¬ ((R.XM_FRAME_CFGf f.val = R.TB_RATE ∨ R.XM_FRAME_CFGf f.val = R.TB_STEP_LO ∨ R.XM_FRAME_CFGf f.val = R.TB_STEP_HI)
      ∧ s.discMode = 2 ∧ s.domainOf m = 0) := by
    rintro ⟨named, -⟩
    unfold R.XM_FRAME_CFGf R.TB_RATE R.TB_STEP_LO R.TB_STEP_HI at named
    omega
  unfold State.mayWriteReg at may
  rw [open', shared, if_neg n1, if_neg n2, if_neg n3, noPort, frameOf_XM_FRAME_CFGf] at may
  simpa [State.rf] using may

include h in
theorem exec_xmFrameCfgWrite {v : Word} {t : State} (written : s.xmCfgWrite (s.domainOf m) f.val v = (.done, t)) :
    exec (.xmFrameCfgWrite m f v) s = .next (t.answer m .done) := by
  have small := f.isLt
  have notOwner : R.XM_FRAME_CFGf f.val ≠ ownerReg .sys (R.XM_FRAME_CFGf f.val) := by
    simp only [ownerReg, R.XM_FRAME_CFGf, R.SYS_OWNER]
    omega
  refine State.writeCmd_eq (b := .sys) h (by unfold R.XM_FRAME_CFGf; omega) v ?_
  have frame := frameOf_XM_FRAME_CFGf f
  obtain e | e | e := h.access <;>
    simp only [State.writeReg, e, State.engineDrops, if_neg notOwner, frame, written, Bool.false_eq_true, if_false]

end

/-- A frame's configuration as stored, its generation beginning again. -/
def State.frameStored (s : State) (f : Nat) (new : Word) : State :=
  ((s.dropFrameNow f).setReg (R.XM_FRAME_CFGf f) new).setReg (R.XM_FRAME_GENf f) 0#32

theorem State.frameStored_touch {s : State} {f : Nat} {new : Word} : Touch 0x40000000002 s (s.frameStored f new) :=
  Touch.of State.dropFrameNow_touch |>.then State.setReg_touch |>.then State.setReg_touch

theorem State.frameStored_regsSet (s : State) (f : Nat) (new : Word) :
    RegsSet [R.XM_FRAME_CFGf f, R.XM_FRAME_GENf f] s (s.frameStored f new) :=
  RegsSet.trans (t := s.dropFrameNow f) (.of_regs rfl _) (((State.setReg_regsSet _ _ _).mono (by simp)).trans
    ((State.setReg_regsSet _ _ _).mono (by simp)))

theorem State.frameStored_cfg (s : State) (f : Nat) (new : Word) : (s.frameStored f new).reg (R.XM_FRAME_CFGf f) = new := by
  unfold State.frameStored
  rw [State.reg_setReg, if_neg (by unfold R.XM_FRAME_CFGf R.XM_FRAME_GENf; omega), State.reg_setReg, if_pos rfl]

theorem State.frameStored_gen (s : State) (f : Nat) (new : Word) : (s.frameStored f new).reg (R.XM_FRAME_GENf f) = 0#32 := by
  unfold State.frameStored
  rw [State.reg_setReg, if_pos rfl]

theorem xmFrameCfgWrite_effect (m : Master) (f : Fin 1024) (v mask new : Word) (fits : Bool) (s : State) (r : RegRow)
    (h : s.Writes m .sys r (R.XM_FRAME_CFGf f.val))
    (masked : mask = (if s.domainOf m = 0 then 0xFFF03FFF#32 else 0x83F03FFF#32))
    (named : new = (s.reg (R.XM_FRAME_CFGf f.val) &&& ~~~ mask) ||| (v &&& mask))
    (fit : fits = (decide (fld new 13 0 + fld new 25 20 ≤ 16383) && !(bit new 31 && s.xmFrames.any (fun k => k != f.val
      && runsMeet (fld new 13 0) (fld new 13 0 + fld new 25 20) (s.xmBase k) (s.xmLast k))))) :
    ∃ t, exec (.xmFrameCfgWrite m f v) s = .next t
      ∧ (fits = true →
          t.reg (R.XM_FRAME_CFGf f.val) = new ∧ t.reg (R.XM_FRAME_GENf f.val) = 0#32 ∧ t.reg R.XM_STATUS = s.reg R.XM_STATUS)
      ∧ (fits = false →
          t.rb R.XM_STATUS 0 = true ∧ t.reg (R.XM_FRAME_CFGf f.val) = s.reg (R.XM_FRAME_CFGf f.val)
          ∧ t.reg (R.XM_FRAME_GENf f.val) = s.reg (R.XM_FRAME_GENf f.val))
      ∧ RegsBut [R.XM_FRAME_CFGf f.val, R.XM_FRAME_GENf f.val, R.XM_STATUS] s t
      ∧ SameBut [.regs, .scCount, .xmNow, .reply] s t
      ∧ t.reply = some ⟨m, .done⟩ := by
  have small := f.isLt
  have apart : R.XM_STATUS ∉ [R.XM_FRAME_CFGf f.val, R.XM_FRAME_GENf f.val] := by
    simp only [List.mem_cons, List.not_mem_nil, or_false, R.XM_STATUS, R.XM_FRAME_CFGf, R.XM_FRAME_GENf]
    omega
  have owner : ¬ (s.domainOf m ≠ 0 ∧ fld (s.reg (R.XM_FRAME_CFGf f.val)) 29 26 ≠ s.domainOf m) := by
    obtain e | e := h.frame_owner
    · exact fun x => x.1 e
    · exact fun x => x.2 e
  have written : s.xmCfgWrite (s.domainOf m) f.val v
      = (.done, if fits then s.frameStored f.val new else s.flag R.XM_STATUS 0) := by
    simp only [State.xmCfgWrite, if_neg owner, ← masked, ← named, fit]
    by_cases within : fld new 13 0 + fld new 25 20 ≤ 16383
    · rw [if_neg (by omega), decide_eq_true within, Bool.true_and]
      cases (bit new 31 && s.xmFrames.any (fun k => k != f.val
        && runsMeet (fld new 13 0) (fld new 13 0 + fld new 25 20) (s.xmBase k) (s.xmLast k))) <;> rfl
    · rw [if_pos (by omega), decide_eq_false within]
      rfl
  have run := exec_xmFrameCfgWrite h written
  clear written fit owner
  cases fits
  case true =>
    have touch := s.frameStored_touch (f := f.val) (new := new)
    have regs := s.frameStored_regsSet f.val new
    have cfg := s.frameStored_cfg f.val new
    have gen := s.frameStored_gen f.val new
    rw [if_pos rfl] at run
    generalize s.frameStored f.val new = u at *
    exact ⟨u.answer m .done, run, fun _ => ⟨cfg, gen, regs.reg_eq apart⟩, nofun,
      RegsBut.answer (regs.regsBut.mono (by simp)) m .done, SameBut.answer (touch.sameBut) (by decide) m .done, rfl⟩
  case false =>
    have touch := State.flag_touch (s := s) (a := R.XM_STATUS) (i := 0)
    have regs := State.flag_regsSet s R.XM_STATUS 0
    have flagged := State.rb_flag_self s R.XM_STATUS (i := 0) (by decide)
    rw [if_neg (by decide)] at run
    generalize s.flag R.XM_STATUS 0 = u at *
    have kept {x : Nat} (hx : x ∈ [R.XM_FRAME_CFGf f.val, R.XM_FRAME_GENf f.val]) : u.reg x = s.reg x :=
      regs.reg_eq fun y => apart (by rw [← List.mem_singleton.mp y]; exact hx)
    exact ⟨u.answer m .done, run, nofun, fun _ => ⟨flagged, kept (by simp), kept (by simp)⟩,
      RegsBut.answer (regs.regsBut.mono (by simp)) m .done, SameBut.answer (touch.sameBut) (by decide) m .done, rfl⟩

/-- Settles O18, clause by clause: each command's own lemma says what it leaves. -/
theorem memoryAndRegisterAccesses : Obligations.MemoryAndRegisterAccesses :=
  ⟨sramWordWrite_effect, sramByteWrite_effect, unreachedWrite_effect, scStatusWrite_effect, llRead_effect,
    xmFrameCfgWrite_effect⟩

end Sys2Proof.Machine
end

section
/-!
Contexts of a core, and the integer instructions (R278 to R295, R304).
-/
set_option Elab.async false
namespace Sys2Proof.Machine
open Sys2Proof

/-! ### Contexts of a core -/

@[simp] theorem State.coreRec_setCoreRec (s : State) (n : Nat) (r : CoreRec) (k : Nat) :
    (s.setCoreRec n r).coreRec k = if k = n then r else s.coreRec k := by
  simp [State.coreRec, State.setCoreRec, Store.get_set]

@[simp] theorem State.runSlot_setCoreRec (s : State) (n : Nat) (r : CoreRec) (k : Nat) :
    (s.setCoreRec n r).runSlot k = s.runSlot k := rfl

@[simp] theorem State.core_setCore (s : State) (n : Nat) (c : CoreCtx) : (s.setCore n c).core n = c := by
  simp [State.core, State.setCore, State.setSlotCtx, State.slotCtx, Store.get_set]

@[simp] theorem State.pair_setCore (s : State) (n : Nat) (c : CoreCtx) :
    ((s.setCore n c).coreRec n).pair = (s.coreRec n).pair := by
  simp [State.setCore, State.setSlotCtx]

theorem State.setCore_sameBut (s : State) (n : Nat) (c : CoreCtx) : SameBut [.cores] s (s.setCore n c) :=
  State.setCoreRec_sameBut _ _ _

/-- The context of a core depends on the slots of its record alone. -/
theorem State.core_setCoreRec_slots (s : State) (n : Nat) {r : CoreRec} (h : r.slots = (s.coreRec n).slots) :
    (s.setCoreRec n r).core n = s.core n := by
  simp [State.core, State.slotCtx, h]

theorem State.mapCtx_of_alone {s : State} {n : Nat} (alone : (s.coreRec n).pair = none) (f : CoreCtx → CoreCtx) :
    s.mapCtx n f = s.setCore n (f (s.core n)) := by
  have kept : ((s.setCore n (f (s.core n))).coreRec n).pair = none := by rw [State.pair_setCore, alone]
  simp only [State.mapCtx, kept]

theorem State.pendingOps_of_alone {s : State} {n : Nat} (alone : (s.coreRec n).pair = none) :
    s.pendingOps n = s.core n := by
  simp only [State.pendingOps, alone]

theorem State.clearPair_of_alone {s : State} {n : Nat} (alone : (s.coreRec n).pair = none) : s.clearPair n = s := by
  simp [State.clearPair, alone]

theorem State.heldAccess_of_alone {s : State} {n : Nat} (alone : (s.coreRec n).pair = none) :
    s.heldAccess n = none := by
  simp only [State.heldAccess, alone]

/-! ### Long operations that complete -/

section
variable {s : State} {n : Nat} (alone : (s.coreRec n).pair = none)
include alone

theorem State.unitDone_div (o : LongOp) (busy : (s.core n).div = some o) :
    s.unitDone n 0 = s.setCore n ({ s.core n with div := none }.finish o) := by
  simp only [State.unitDone, State.pendingOps_of_alone alone, busy, State.mapCtx_of_alone alone, if_true]

theorem State.unitDone_fpu {u : Nat} (hu : u ≠ 0) (o : LongOp) (busy : (s.core n).fpu = some o) :
    s.unitDone n u = s.setCore n ({ s.core n with fpu := none }.finish o) := by
  simp only [State.unitDone, State.pendingOps_of_alone alone, busy, State.mapCtx_of_alone alone, if_neg hu]

theorem State.unitDone_div_idle (idle : (s.core n).div = none) : s.unitDone n 0 = s := by
  simp only [State.unitDone, State.pendingOps_of_alone alone, idle, if_true]

theorem State.unitDone_fpu_idle {u : Nat} (hu : u ≠ 0) (idle : (s.core n).fpu = none) : s.unitDone n u = s := by
  simp only [State.unitDone, State.pendingOps_of_alone alone, idle, if_neg hu]

theorem State.blockDone_idle (idle : (s.core n).blk = none) : s.blockDone n = (none, s) := by
  simp only [State.blockDone, State.pendingOps_of_alone alone, idle]

end

/-! ### What results in flight leave of a context -/

/-- Two contexts have the same long operations under way and the same control registers but FPCR. -/
structure CoreCtx.Alike (c d : CoreCtx) : Prop where
  div : d.div = c.div
  fpu : d.fpu = c.fpu
  blk : d.blk = c.blk
  cr : ∀ k, k ≠ 2 → d.crv k = c.crv k

theorem CoreCtx.Alike.refl (c : CoreCtx) : c.Alike c := ⟨rfl, rfl, rfl, fun _ _ => rfl⟩

theorem CoreCtx.Alike.trans {c d e : CoreCtx} (h : c.Alike d) (k : d.Alike e) : c.Alike e :=
  ⟨k.div.trans h.div, k.fpu.trans h.fpu, k.blk.trans h.blk, fun i hi => (k.cr i hi).trans (h.cr i hi)⟩

theorem CoreCtx.Alike.compat {c d : CoreCtx} (h : c.Alike d) : d.compat = c.compat := by
  rw [CoreCtx.compat, CoreCtx.compat, h.cr 1 (by decide)]

theorem CoreCtx.put_alike (c : CoreCtx) (d : CReg) (v : Word) : c.Alike (c.put d v) := by
  unfold CoreCtx.put
  split
  · split
    · exact .refl c
    · exact ⟨rfl, rfl, rfl, fun _ _ => rfl⟩
  · exact ⟨rfl, rfl, rfl, fun _ _ => rfl⟩

theorem CoreCtx.putAll_alike : ∀ (l : List Flight) (c : CoreCtx), c.Alike (l.foldl (fun c x => c.put x.reg x.value) c)
  | [], c => .refl c
  | x :: l, c => (c.put_alike x.reg x.value).trans (CoreCtx.putAll_alike l _)

theorem CoreCtx.landOne_alike (c : CoreCtx) : c.Alike c.landOne := by
  obtain ⟨div, fpu, blk, cr⟩ := CoreCtx.putAll_alike (c.flight.filter (fun x => x.k ≤ 1)) c
  exact ⟨div, fpu, blk, cr⟩

theorem CoreCtx.nextCycle_alike (c : CoreCtx) : c.Alike c.nextCycle := by
  unfold CoreCtx.nextCycle
  split
  · exact ⟨rfl, rfl, rfl, fun _ _ => rfl⟩
  · exact c.landOne_alike

theorem CoreCtx.send_alike (c : CoreCtx) (r : CReg) (v : Word) (k : Nat) : c.Alike (c.send r v k) := by
  unfold CoreCtx.send
  split
  · exact .refl c
  · exact ⟨rfl, rfl, rfl, fun _ _ => rfl⟩

theorem CoreCtx.raiseFlags_alike (c : CoreCtx) (f : Word) : c.Alike (c.raiseFlags f) := by
  unfold CoreCtx.raiseFlags
  split
  · exact .refl c
  · exact ⟨rfl, rfl, rfl, fun k hk => by simp [CoreCtx.crv, CoreCtx.setCr, Store.get_set, hk]⟩

theorem CoreCtx.withPc_alike (c : CoreCtx) (pc : Word) : c.Alike { c with pc := pc } := ⟨rfl, rfl, rfl, fun _ _ => rfl⟩

theorem CoreCtx.finish_alike (c : CoreCtx) (o : LongOp) : c.Alike (c.finish o) := by
  have landed : c.Alike (c.landLong o.dest o.result) := by
    refine CoreCtx.Alike.trans (d := { c with flight := c.flight.filter (fun x => x.reg != o.dest) }) ?_ (CoreCtx.put_alike _ _ _)
    exact ⟨rfl, rfl, rfl, fun _ _ => rfl⟩
  exact landed.trans (CoreCtx.raiseFlags_alike _ _)

/-! ### An instruction that issues at once -/

/-- An instruction that core `n` may execute and that fills no frame. -/
structure State.Plain (s : State) (n : Nat) (o : CoreOp) : Prop where
  legal : o.illegal = false
  allowed : o.sup = true → (s.core n).sup = true
  filled : o.fp = true → s.FpFilled n

theorem State.plain_of_g (s : State) (n : Nat) {o : CoreOp} (legal : o.illegal = false) (open' : o.sup = false)
    (noFp : o.fp = false) : s.Plain n o :=
  ⟨legal, fun sup => by simp [open'] at sup, fun fp => by simp [noFp] at fp⟩

theorem State.fpFill_of_filled {s : State} {n : Nat} (h : s.FpFilled n) : s.fpFill n = (none, s) := by
  have held (k : (s.core n).crv 0x24 = 0#32 ∨ (s.core n).fps = true) : ((s.core n).crv 0x24 = 0#32 || (s.core n).fps) = true := by
    simpa using k
  unfold State.fpFill
  cases frames : (s.core n).frames with
  | nil => simp only [frames]
  | cons base rest =>
    have k := h.resolve_left (by simp [frames])
    simp only [frames, held k, if_true]

section
variable {s : State} {n : Nat} (h : s.Issues n)
include h

theorem State.Issues.interlock_go (o : CoreOp) : s.interlock n o = .go s := by
  have waits (u : Nat) : o.waitsFor (s.core n) u = false := by
    unfold CoreOp.waitsFor
    rw [h.div, h.fpu, h.blk]
    split <;> rfl
  simp [State.interlock, State.pendingOps_of_alone h.alone, waits]

theorem State.Issues.approach_eq (o : CoreOp) : s.approach n (fun _ => o) false = s.check n o := by
  have flush : s.flushPair n = (none, s) := by
    simp only [State.flushPair, State.heldAccess_of_alone h.alone, State.performOpt, State.clearPair_of_alone h.alone]
  simp only [State.approach, h.thawed, State.heldAccess_of_alone h.alone, State.accessFrozen, Bool.or_self, if_false,
    Bool.false_eq_true, flush, h.fetch, h.interlock_go]

theorem State.Issues.approach_go {o : CoreOp} (plain : s.Plain n o) : s.approach n (fun _ => o) false = .go s := by
  have allowed : (o.sup && !(s.core n).sup) = false := by
    cases sup : o.sup
    · rfl
    · simp [plain.allowed sup]
  rw [h.approach_eq, State.check, plain.legal, allowed]
  cases fp : o.fp
  · rfl
  · simp [State.fpFill_of_filled (plain.filled fp)]

theorem State.Issues.joins_eq (o : CoreOp) : s.joins n o = false := by simp only [State.joins, h.alone]

/-- The results of an instruction that would break the data stack limit (R282). -/
def CoreOut.breaks (out : CoreOut) (c : CoreCtx) : Option (CReg × Word) :=
  (out.results.map (fun x => (x.reg, x.value)) ++ (out.div.toList.map (fun x => (x.dest, x.result)))).find?
    (fun x => x.1 == .g 30 && c.violates x.2)

/-- An instruction without an access that breaks no limit commits its results. -/
theorem State.Issues.issue_eq {o : CoreOp} {run : CoreCtx → Except CoreFault CoreOut} {out : CoreOut} (plain : s.Plain n o)
    (runs : run (s.now n) = .ok out) (quiet : out.acc = none) (within : out.breaks (s.now n) = none) :
    s.issue n (fun _ => o) run = s.commitIssue n o false (out.applyTo (s.now n)) none := by
  have preview : s.preview n false = s.now n := rfl
  simp only [State.issue, h.ready, Bool.not_true, Bool.false_eq_true, if_false, h.joins_eq, h.approach_go plain, preview,
    runs, quiet, State.accessFrozen]
  rw [show List.find? _ _ = none from within]

/-- What a commit leaves: the context of the core, and in COMPAT what completes before the next instruction. -/
theorem State.Issues.commit_eq (o : CoreOp) (x : CoreCtx) :
    ((s.commitIssue n o false x none).core n = if x.compat then (((s.setCore n x).settlePair n).core n) else x)
    ∧ ((x.compat = true → SameBut [.cores] s ((s.setCore n x).settlePair n)) →
        SameBut [.cores] s (s.commitIssue n o false x none)) := by
  have alone : ((s.setCore n x).coreRec n).pair = none := by rw [State.pair_setCore, h.alone]
  have stored := s.setCore_sameBut n x
  unfold State.commitIssue
  by_cases first : (!false && o.p && x.native && !o.ctl && !o.sys) = true
  · have notCompat : x.compat = false := by
      simp only [Bool.and_eq_true, CoreCtx.native, Bool.not_eq_true'] at first
      exact first.1.1.2.2
    rw [if_pos first, notCompat]
    refine ⟨?_, fun _ => stored.trans (State.setCoreRec_sameBut _ _ _)⟩
    exact (State.core_setCoreRec_slots _ _ (by rfl)).trans (State.core_setCore s n x)
  · rw [if_neg first]
    simp only [State.heldAccess_of_alone alone, State.performOpt, State.clearPair_of_alone alone]
    cases compat : x.compat
    · have settled : (s.setCore n x).settlePair n = s.setCore n x := by
        simp [State.settlePair, compat]
      rw [settled]
      exact ⟨State.core_setCore _ _ _, fun _ => stored⟩
    · exact ⟨rfl, fun f => f rfl⟩

/-- In COMPAT an instruction that starts nothing completes with its results landed. -/
theorem State.Issues.settle_idle {x : CoreCtx} (compat : x.compat = true) (div : x.div = none) (fpu : x.fpu = none)
    (blk : x.blk = none) : (s.setCore n x).settlePair n = (s.setCore n x).setCore n x.landAll := by
  have alone : ((s.setCore n x).coreRec n).pair = none := by rw [State.pair_setCore, h.alone]
  have core := s.core_setCore n x
  generalize s.setCore n x = t at *
  have longs : t.longAll n = (none, t) := by
    rw [State.longAll, State.unitDone_div_idle alone (by rw [core, div]), State.unitDone_fpu_idle alone (by decide) (by rw [core, fpu]),
      State.blockDone_idle alone (by rw [core, blk])]
  simp only [State.settlePair, core, compat, longs, Bool.not_true, Bool.false_eq_true, if_false]

/-- A context that follows from the present one by results alone is left as `IssuedAs` says. -/
theorem State.Issues.issuedAs {x : CoreCtx} (alike : (s.now n).Alike x) (o : CoreOp) :
    s.IssuedAs n x (s.commitIssue n o false x none) := by
  have all := (s.core n).nextCycle_alike.trans alike
  have settled (compat : x.compat = true) := h.settle_idle compat (all.div.trans h.div) (all.fpu.trans h.fpu)
    (all.blk.trans h.blk)
  obtain ⟨core, rest⟩ := h.commit_eq o x
  refine ⟨?_, rest fun compat => ?_⟩
  · rw [core, alike.compat]
    split
    next compat => rw [settled (alike.compat.trans compat), State.core_setCore]
    next => rfl
  · rw [settled compat]
    exact (s.setCore_sameBut n x).trans (State.setCore_sameBut _ _ _)

/-- An instruction with one result, for register `d` at distance `k`, with its flags. -/
theorem State.Issues.results {o : CoreOp} {run : CoreCtx → Except CoreFault CoreOut} {d : CReg} {v flags : Word} {k : Nat}
    (plain : s.Plain n o) (runs : run (s.now n) = .ok { (s.now n).out with results := [⟨d, v, k⟩], flags := flags })
    (limit : s.KeepsLimit n d v) : s.Results n d v k flags (s.issue n (fun _ => o) run) := by
  have within : CoreOut.breaks { (s.now n).out with results := [⟨d, v, k⟩], flags := flags } (s.now n) = none := by
    refine List.find?_eq_none.mpr fun x hx => ?_
    obtain rfl : x = (d, v) := by simpa [CoreCtx.out] using hx
    by_cases g30 : d = .g 30
    · simp [limit g30]
    · simp [g30]
  rw [h.issue_eq plain runs rfl within]
  exact h.issuedAs (((CoreCtx.raiseFlags_alike _ _).trans (CoreCtx.send_alike _ _ _ _)).trans (CoreCtx.withPc_alike _ _)) o

/-! ### Integer instructions -/

section
variable {p : Bool} {major op rd ra rb sh k : Nat} {word v : Word}

theorem State.Issues.intRR_results {f : Word → Word → Word} (value : v = f ((s.now n).gr ra) ((s.now n).gr rb))
    (limit : s.KeepsLimit n (.g rd) v) : s.Results n (.g rd) v k 0#32 (s.intRR n p major op rd ra rb k f) :=
  h.results (s.plain_of_g n rfl rfl rfl) (by rw [value]; rfl) limit

theorem State.Issues.intR_results {f : Word → Word} (value : v = f ((s.now n).gr ra)) (limit : s.KeepsLimit n (.g rd) v) :
    s.Results n (.g rd) v 1 0#32 (s.intR n p op rd ra sh f) :=
  h.results (s.plain_of_g n rfl rfl rfl) (by rw [value]; rfl) limit

theorem State.Issues.intRI_results {f : Word → Word} (value : v = f ((s.now n).gr ra)) (limit : s.KeepsLimit n (.g rd) v) :
    s.Results n (.g rd) v 1 0#32 (s.intRI n word p rd ra f) :=
  h.results (s.plain_of_g n rfl rfl rfl) (by rw [value]; rfl) limit

end

end

/-- Settles O43: every clause is the rule of its instruction's shape, of two registers, of one, or immediate. -/
theorem integerInstructions : Obligations.IntegerInstructions := by
  refine ⟨?_, ?_, ?_, ?_, ?_, ?_, ?_, ?_, ?_, ?_, ?_, ?_, ?_, ?_, ?_, ?_, ?_, ?_, ?_, ?_, ?_, ?_, ?_, ?_, ?_, ?_, ?_, ?_, ?_,
    ?_, ?_, ?_, ?_, ?_, ?_, ?_, ?_, ?_⟩
  case refine_37 =>
    exact fun n p rd imm v s h value limit => ⟨_, rfl, h.results (s.plain_of_g _ rfl rfl rfl) (by rw [value]; rfl) limit⟩
  case refine_38 => exact fun n p rd ra cond imm v s h value limit => ⟨_, rfl, h.intRI_results value limit⟩
  case refine_33 | refine_34 | refine_35 | refine_36 =>
    exact fun n p rd ra imm v s h value limit => ⟨_, rfl, h.intRI_results value limit⟩
  case refine_11 | refine_12 | refine_13 | refine_14 =>
    exact fun n p rd ra sh v s h value limit => ⟨_, rfl, h.intR_results value limit⟩
  case refine_19 | refine_20 | refine_21 | refine_22 | refine_23 | refine_24 =>
    exact fun n p rd ra v s h value limit => ⟨_, rfl, h.intR_results value limit⟩
  all_goals exact fun n p rd ra rb v s h value limit => ⟨_, rfl, h.intRR_results value limit⟩

end Sys2Proof.Machine
end

section
/-!
Multiply, divide, and floating point (R279, R289, R292, R304).
-/
set_option Elab.async false
namespace Sys2Proof.Machine
open Sys2Proof

/-! ### Long operations -/

/-- A context whose instruction is over but for the long operation that it has started in unit 0 or 1. -/
def CoreCtx.started (c : CoreCtx) (unit : Nat) (o : LongOp) : CoreCtx :=
  if unit = 0 then { c with div := some o } else { c with fpu := some o }

/-- A context whose PC has passed its instruction. -/
def CoreCtx.stepped (c : CoreCtx) : CoreCtx := { c with pc := c.pc + 4#32 }

theorem State.starts_iff {s t : State} {n unit : Nat} {o : LongOp} : s.Starts n unit o t
    ↔ t.core n = (if (s.now n).stepped.compat then ((s.now n).stepped.finish o).landAll else (s.now n).stepped.started unit o)
      ∧ SameBut [.cores] s t := Iff.rfl

section
variable {s : State} {n : Nat} (h : s.Issues n)
include h

theorem State.Issues.now_div : (s.now n).div = none := (s.core n).nextCycle_alike.div.trans h.div

theorem State.Issues.now_fpu : (s.now n).fpu = none := (s.core n).nextCycle_alike.fpu.trans h.fpu

theorem State.Issues.now_blk : (s.now n).blk = none := (s.core n).nextCycle_alike.blk.trans h.blk

/-- In COMPAT a long operation completes with its instruction (R295). -/
theorem State.Issues.settle_started {c : CoreCtx} {unit : Nat} {o : LongOp} (compat : c.compat = true) (div : c.div = none)
    (fpu : c.fpu = none) (blk : c.blk = none) :
    ∃ u, (s.setCore n (c.started unit o)).settlePair n = u.setCore n (c.finish o).landAll ∧ SameBut [.cores] s u := by
  have alone : ((s.setCore n (c.started unit o)).coreRec n).pair = none := by rw [State.pair_setCore, h.alone]
  have core := s.core_setCore n (c.started unit o)
  have stored := s.setCore_sameBut n (c.started unit o)
  have compat' : (c.started unit o).compat = true := by unfold CoreCtx.started; split <;> exact compat
  have cleared : (if unit = 0 then { c.started unit o with div := none } else { c.started unit o with fpu := none }) = c := by
    obtain ⟨⟩ := c
    subst div fpu
    unfold CoreCtx.started
    split <;> rfl
  have idleDiv (hu : unit ≠ 0) : (c.started unit o).div = none := by rw [CoreCtx.started, if_neg hu]; exact div
  have idleBlk : (c.started unit o).blk = none := by unfold CoreCtx.started; split <;> exact blk
  have busyDiv (hu : unit = 0) : (c.started unit o).div = some o := by rw [CoreCtx.started, if_pos hu]
  have busyFpu (hu : unit ≠ 0) : (c.started unit o).fpu = some o := by rw [CoreCtx.started, if_neg hu]
  generalize s.setCore n (c.started unit o) = t at *
  have kept (f : CoreCtx) : ((t.setCore n f).coreRec n).pair = none := by rw [State.pair_setCore, alone]
  have done : (t.unitDone n 0).unitDone n 1 = t.setCore n (c.finish o) := by
    by_cases hu : unit = 0
    · rw [if_pos hu, ← core] at cleared
      rw [State.unitDone_div alone o (by rw [core, busyDiv hu]), cleared,
        State.unitDone_fpu_idle (kept _) (by decide) (by rw [State.core_setCore, (c.finish_alike o).fpu, fpu])]
    · rw [if_neg hu, ← core] at cleared
      rw [State.unitDone_div_idle alone (by rw [core, idleDiv hu]),
        State.unitDone_fpu alone (by decide) o (by rw [core, busyFpu hu]), cleared]
  have longs : t.longAll n = (none, t.setCore n (c.finish o)) := by
    rw [State.longAll, done, State.blockDone_idle (kept _) (by rw [State.core_setCore, (c.finish_alike o).blk, blk])]
  refine ⟨t.setCore n (c.finish o), ?_, stored.trans (State.setCore_sameBut _ _ _)⟩
  simp only [State.settlePair, core, compat', longs, Bool.not_true, Bool.false_eq_true, if_false, State.core_setCore]

/-- An instruction that starts a long operation and breaks no limit. -/
theorem State.Issues.starts {op : CoreOp} {run : CoreCtx → Except CoreFault CoreOut} {unit : Nat} {o : LongOp}
    (plain : s.Plain n op) (which : unit = 0 ∨ unit = 1)
    (runs : run (s.now n) = .ok (if unit = 0 then { (s.now n).out with div := some o } else { (s.now n).out with fpu := some o }))
    (limit : unit = 0 → s.KeepsLimit n o.dest o.result) : s.Starts n unit o (s.issue n (fun _ => op) run) := by
  have applied : (if unit = 0 then { (s.now n).out with div := some o } else { (s.now n).out with fpu := some o }).applyTo (s.now n)
      = (s.now n).stepped.started unit o := by
    obtain rfl | rfl := which <;> rfl
  have within : CoreOut.breaks (if unit = 0 then { (s.now n).out with div := some o } else { (s.now n).out with fpu := some o })
      (s.now n) = none := by
    obtain rfl | rfl := which
    · refine List.find?_eq_none.mpr fun x hx => ?_
      obtain rfl : x = (o.dest, o.result) := by simpa [CoreCtx.out] using hx
      by_cases g30 : o.dest = .g 30
      · simp [limit rfl g30]
      · simp [g30]
    · rfl
  rw [h.issue_eq plain runs (by split <;> rfl) within, applied]
  have div : (s.now n).stepped.div = none := h.now_div
  have fpu : (s.now n).stepped.fpu = none := h.now_fpu
  have blk : (s.now n).stepped.blk = none := h.now_blk
  rw [State.starts_iff]
  generalize (s.now n).stepped = c at *
  have same : (c.started unit o).compat = c.compat := by unfold CoreCtx.started; split <;> rfl
  obtain ⟨core, rest⟩ := h.commit_eq op (c.started unit o)
  refine ⟨?_, rest fun compat => ?_⟩
  · rw [core, same]
    split
    next compat =>
      obtain ⟨u, settled, -⟩ := h.settle_started (unit := unit) (o := o) compat div fpu blk
      rw [settled, State.core_setCore]
    next => rfl
  · obtain ⟨u, settled, kept⟩ := h.settle_started (unit := unit) (o := o) (same ▸ compat) div fpu blk
    rw [settled]
    exact kept.trans (State.setCore_sameBut _ _ _)

section
variable {p : Bool} {op rd ra rb k : Nat} {v : Word}

theorem State.Issues.intDiv_starts (value : v = divide op ((s.now n).gr ra) ((s.now n).gr rb))
    (limit : s.KeepsLimit n (.g rd) v) :
    s.Starts n 0 ⟨encR p 8 rd ra rb 0 op, (s.now n).gr ra, (s.now n).gr rb, .g rd, v, 0#32⟩ (s.intDiv n p op rd ra rb) := by
  subst value
  exact h.starts (s.plain_of_g n rfl rfl rfl) (.inl rfl) rfl fun _ => limit

theorem State.Issues.fpDiv_starts {reads : List CReg} {o : FOut} (filled : s.FpFilled n)
    (value : o = fLong op (rmOf ((s.now n).crv 2)) ((s.now n).fr ra) ((s.now n).fr rb)) :
    s.Starts n 1 ⟨encR p 8 rd ra rb 0 op, (s.now n).fr ra, (s.now n).fr rb, .f rd, o.1, o.2⟩ (s.fpDiv n p op rd ra rb reads) := by
  subst value
  exact h.starts ⟨rfl, nofun, fun _ => filled⟩ (.inr rfl) rfl nofun

/-! ### Floating-point instructions -/

theorem State.Issues.fResult_results {word : Word} {reads : List CReg} {d : CReg} {f : RMode → CoreCtx → FOut} {o : FOut}
    (filled : s.FpFilled n) (value : o = f (rmOf ((s.now n).crv 2)) (s.now n)) (limit : s.KeepsLimit n d o.1) :
    s.Results n d o.1 k o.2 (s.issue n (fun _ => pipeOp word p reads [d]) (fResult d k f)) := by
  subst value
  exact h.results ⟨rfl, nofun, fun _ => filled⟩ rfl limit

end

end

/-- A result for an f register breaks no limit of the data stack. -/
theorem State.keepsLimit_f (s : State) (n r : Nat) (v : Word) : s.KeepsLimit n (.f r) v := nofun

theorem longOperationComplete_div {n : Fin 8} {o : LongOp} {s : State} (ready : s.coreReady n.val = true)
    (alone : (s.coreRec n.val).pair = none) (busy : (s.core n.val).div = some o) :
    ∃ t, exec (.longOperationComplete n 0) s = .next t
      ∧ (t.core n.val = ({ s.core n.val with div := none }.landLong o.dest o.result).raiseFlags o.flags)
      ∧ SameBut [.cores] s t := by
  have done : s.longComplete n.val 0 = s.setCore n.val ({ s.core n.val with div := none }.finish o) := by
    simp [State.longComplete, ready, State.unitDone_div alone o busy]
  exact ⟨_, congrArg Host.Outcome.next done, State.core_setCore _ _ _, State.setCore_sameBut _ _ _⟩

theorem longOperationComplete_fpu {n : Fin 8} {o : LongOp} {s : State} (ready : s.coreReady n.val = true)
    (alone : (s.coreRec n.val).pair = none) (busy : (s.core n.val).fpu = some o) :
    ∃ t, exec (.longOperationComplete n 1) s = .next t
      ∧ (t.core n.val = ({ s.core n.val with fpu := none }.landLong o.dest o.result).raiseFlags o.flags)
      ∧ SameBut [.cores] s t := by
  have done : s.longComplete n.val 1 = s.setCore n.val ({ s.core n.val with fpu := none }.finish o) := by
    simp [State.longComplete, ready, State.unitDone_fpu alone (by decide : (1 : Nat) ≠ 0) o busy]
  exact ⟨_, congrArg Host.Outcome.next done, State.core_setCore _ _ _, State.setCore_sameBut _ _ _⟩

/-- Settles O44: products by the rule of instructions of two registers, quotients and roots by that of long operations. -/
theorem multiplyAndDivideInstructions : Obligations.MultiplyAndDivideInstructions := by
  refine ⟨?_, ?_, ?_, ?_, ?_, ?_, ?_, ?_, ?_, ?_, fun n o s => longOperationComplete_div, fun n o s => longOperationComplete_fpu⟩
  case refine_1 | refine_2 | refine_3 | refine_4 =>
    exact fun n p rd ra rb v s h value limit => ⟨_, rfl, h.intRR_results value limit⟩
  case refine_5 | refine_6 | refine_7 | refine_8 =>
    exact fun n p rd ra rb v s h value limit => ⟨_, rfl, h.intDiv_starts value limit⟩
  case refine_9 => exact fun n p rd ra rb o s h filled value => ⟨_, rfl, h.fpDiv_starts filled value⟩
  case refine_10 => exact fun n p rd ra o s h filled value => ⟨_, rfl, h.fpDiv_starts filled value⟩

/-- Settles O45: every clause is the rule of instructions with one floating-point result or of a compare. -/
theorem floatInstructions : Obligations.FloatInstructions := by
  refine ⟨?_, ?_, ?_, ?_, ?_, ?_, ?_, ?_, ?_, ?_, ?_, ?_, ?_, ?_, ?_, ?_, ?_, ?_, ?_, ?_, ?_⟩
  case refine_1 | refine_2 | refine_3 | refine_4 | refine_5 =>
    exact fun n p rd ra rb o s h filled value => ⟨_, rfl, h.fResult_results filled value (s.keepsLimit_f _ _ _)⟩
  case refine_6 | refine_7 | refine_14 | refine_15 | refine_17 =>
    exact fun n p rd ra o s h filled value => ⟨_, rfl, h.fResult_results filled value (s.keepsLimit_f _ _ _)⟩
  case refine_8 | refine_9 | refine_10 | refine_11 =>
    exact fun n p rd ra rb o s h filled value limit => ⟨_, rfl, h.fResult_results filled value limit⟩
  case refine_12 | refine_13 | refine_16 =>
    exact fun n p rd ra o s h filled value limit => ⟨_, rfl, h.fResult_results filled value limit⟩
  all_goals exact fun n p fd fa fb fc o s h filled value => ⟨_, rfl, h.fResult_results filled value (s.keepsLimit_f _ _ _)⟩

end Sys2Proof.Machine
end

section
/-!
Instructions that act on the state of their core (R296 to R301, R307, R332).
-/
set_option Elab.async false
namespace Sys2Proof.Machine
open Sys2Proof

/-! ### Instructions that act on the state in their own cycle -/

theorem State.settlePair_eq {t : State} {n : Nat} {x : CoreCtx} (alone : (t.coreRec n).pair = none) (core : t.core n = x)
    (div : x.div = none) (fpu : x.fpu = none) (blk : x.blk = none) :
    t.settlePair n = if x.compat then t.setCore n x.landAll else t := by
  have longs : t.longAll n = (none, t) := by
    rw [State.longAll, State.unitDone_div_idle alone (by rw [core, div]), State.unitDone_fpu_idle alone (by decide) (by rw [core, fpu]),
      State.blockDone_idle alone (by rw [core, blk])]
  simp only [State.settlePair, core, longs]
  cases x.compat <;> rfl

/-- What the end of an instruction leaves of its core: the context, and the parts of the record that it does not hold. -/
structure State.Steps (n : Nat) (x : CoreCtx) (s t : State) : Prop where
  core : t.core n = if x.compat then x.landAll else x
  stale : (t.coreRec n).stale = (s.coreRec n).stale
  deferred : (t.coreRec n).deferred = (s.coreRec n).deferred
  banks : (t.coreRec n).banks = (s.coreRec n).banks
  pair : (t.coreRec n).pair = (s.coreRec n).pair
  other : ∀ i, i ≠ s.runSlot n → t.slotCtx n i = s.slotCtx n i
  rest : SameBut [.cores] s t

theorem State.slotCtx_setCore_ne (s : State) (n : Nat) (c : CoreCtx) {i : Nat} (h : i ≠ s.runSlot n) :
    (s.setCore n c).slotCtx n i = s.slotCtx n i := by
  simp [State.setCore, State.setSlotCtx, State.slotCtx, Store.get_set, h]

@[simp] theorem State.runSlot_setCore (s : State) (n : Nat) (c : CoreCtx) (k : Nat) :
    (s.setCore n c).runSlot k = s.runSlot k := rfl

@[simp] theorem State.stale_setCore (s : State) (n : Nat) (c : CoreCtx) :
    ((s.setCore n c).coreRec n).stale = (s.coreRec n).stale := by simp [State.setCore, State.setSlotCtx]

@[simp] theorem State.deferred_setCore (s : State) (n : Nat) (c : CoreCtx) :
    ((s.setCore n c).coreRec n).deferred = (s.coreRec n).deferred := by simp [State.setCore, State.setSlotCtx]

@[simp] theorem State.banks_setCore (s : State) (n : Nat) (c : CoreCtx) :
    ((s.setCore n c).coreRec n).banks = (s.coreRec n).banks := by simp [State.setCore, State.setSlotCtx]

theorem State.sysDone_steps {t : State} {n : Nat} {f : CoreCtx → CoreCtx} {c : CoreCtx}
    (alone : (t.coreRec n).pair = none) (core : f (t.core n) = c) (div : c.div = none) (fpu : c.fpu = none)
    (blk : c.blk = none) : State.Steps n c.stepped t (t.sysDone n f) := by
  have done : t.sysDone n f = (t.setCore n c.stepped).settlePair n := by rw [State.sysDone, core]; rfl
  have settled : t.sysDone n f = if c.stepped.compat then (t.setCore n c.stepped).setCore n c.stepped.landAll
      else t.setCore n c.stepped :=
    done.trans (State.settlePair_eq ((t.pair_setCore n c.stepped).trans alone) (t.core_setCore n c.stepped) div fpu blk)
  rw [settled]
  split
  next compat =>
    refine ⟨by rw [State.core_setCore, if_pos compat], by simp, by simp, by simp, by simp [State.pair_setCore], fun i hi => ?_,
      (State.setCore_sameBut _ _ _).trans (State.setCore_sameBut _ _ _)⟩
    exact (State.slotCtx_setCore_ne (t.setCore n c.stepped) n _ hi).trans (State.slotCtx_setCore_ne _ _ _ hi)
  next compat =>
    exact ⟨by rw [State.core_setCore, if_neg compat], by simp, by simp, by simp, State.pair_setCore _ _ _,
      fun i hi => State.slotCtx_setCore_ne _ _ _ hi, State.setCore_sameBut _ _ _⟩

section
variable {s : State} {n : Nat} (h : s.Issues n)
include h

theorem State.Issues.issueSys_eq {o : CoreOp} (plain : s.Plain n o) (f : State → State) :
    s.issueSys n o f = f (s.setCore n (s.now n)) := by
  have preview : s.preview n false = s.now n := rfl
  simp only [State.issueSys, h.ready, Bool.not_true, Bool.false_eq_true, if_false, h.approach_go plain, preview]

/-- The state in which such an instruction acts. -/
theorem State.Issues.alone_now : ((s.setCore n (s.now n)).coreRec n).pair = none := by rw [State.pair_setCore, h.alone]

/-- The context advances by `f` and the PC; nothing else of the state does. -/
theorem State.Issues.sysDone_steps {f : CoreCtx → CoreCtx} (units : (s.now n).Alike (f (s.now n)) ∨
      ((f (s.now n)).div = none ∧ (f (s.now n)).fpu = none ∧ (f (s.now n)).blk = none)) :
    State.Steps n (f (s.now n)).stepped s ((s.setCore n (s.now n)).sysDone n f) := by
  obtain ⟨div, fpu, blk⟩ : (f (s.now n)).div = none ∧ (f (s.now n)).fpu = none ∧ (f (s.now n)).blk = none := by
    obtain alike | units := units
    · exact ⟨alike.div.trans h.now_div, alike.fpu.trans h.now_fpu, alike.blk.trans h.now_blk⟩
    · exact units
  have steps := State.sysDone_steps (f := f) h.alone_now (by rw [State.core_setCore]) div fpu blk
  obtain ⟨core, stale, deferred, banks, pair, other, rest⟩ := steps
  refine ⟨core, by rw [stale, State.stale_setCore], by rw [deferred, State.deferred_setCore],
    by rw [banks, State.banks_setCore], by rw [pair, State.pair_setCore], fun i hi => ?_,
    (State.setCore_sameBut _ _ _).trans rest⟩
  rw [other i hi, State.slotCtx_setCore_ne _ _ _ hi]

end

theorem State.Steps.issuedAs {s t : State} {n : Nat} (steps : State.Steps n (s.now n).stepped s t) :
    s.IssuedAs n (s.now n).stepped t := ⟨steps.core, steps.rest⟩

/-! ### The scheduler when no other slot is about to run -/

/-- The spill engine's next work is all that a start of it changes. -/
theorem State.engineStart_steps (s : State) (n : Nat) : ∃ e, s.engineStart n = s ∨
    s.engineStart n = s.setCoreRec n { s.coreRec n with engine := e } := by
  unfold State.engineStart
  dsimp only
  split
  · exact ⟨none, .inl rfl⟩
  · split
    · split
      next i _ => exact ⟨some (true, i, s.absTick + 120), .inr rfl⟩
      next => exact ⟨none, .inl rfl⟩
    · split
      next i _ => exact ⟨some (false, i, s.absTick + 120), .inr rfl⟩
      next => exact ⟨none, .inl rfl⟩

theorem State.engineStart_slotCtx (s : State) (n i : Nat) : (s.engineStart n).slotCtx n i = s.slotCtx n i := by
  obtain ⟨e, same | same⟩ := s.engineStart_steps n
  · rw [same]
  · rw [same, State.slotCtx, State.coreRec_setCoreRec, if_pos rfl]
    rfl

theorem State.engineStart_sameBut (s : State) (n : Nat) : SameBut [.cores] s (s.engineStart n) :=
  State.engineStart_touch.sameBut

theorem State.engineStart_core (s : State) (n : Nat) : (s.engineStart n).core n = s.core n := by
  have slot : (s.engineStart n).runSlot n = s.runSlot n := (s.engineStart_sameBut n).reg_eq (by decide) (R.SCH_STATE n) |> congrArg (fld · 31 24)
  rw [State.core, slot, State.engineStart_slotCtx]
  rfl

/-- What the choice of a slot rests on. -/
structure State.SameSlots (n : Nat) (s t : State) : Prop where
  regs : ∀ a, t.reg a = s.reg a
  banks : (t.coreRec n).banks = (s.coreRec n).banks

theorem State.Steps.sameSlots {s t : State} {n : Nat} {x : CoreCtx} (h : State.Steps n x s t) : State.SameSlots n s t :=
  ⟨h.rest.reg_eq (by decide), h.banks⟩

section
variable {s t : State} {n : Nat} (h : State.SameSlots n s t)
include h

theorem State.SameSlots.runSlot_eq : t.runSlot n = s.runSlot n := congrArg (fld · 31 24) (h.regs _)

theorem State.SameSlots.slotEn_eq (i : Nat) : t.slotEn n i = s.slotEn n i := congrArg (bit · 31) (h.regs _)

theorem State.SameSlots.coreRun_eq : t.coreRun n = s.coreRun n := congrArg (fld · 31 29) (h.regs _)

theorem State.SameSlots.preempts_eq : t.preempts n = s.preempts n := by
  simp only [State.preempts, State.nextSlot, State.bestSlot, State.liveSlots, State.slotPrio, State.runSlot, State.schedulable,
    State.slotReady, State.slotSt, State.slotPend, State.resident, State.slotBank, State.slotEn, State.rf, State.rb, h.regs,
    h.banks]
  rfl

/-- No other slot is about to run: the scheduler starts at most the spill engine. -/
theorem State.SameSlots.reschedule_eq (runs : s.coreRun n = 1) (stays : s.Stays n) : t.reschedule n = t.engineStart n := by
  obtain ⟨enabled, none⟩ := stays
  have run := h.coreRun_eq.trans runs
  have enabled' : t.slotEn n (t.runSlot n) = true := by rw [h.runSlot_eq, h.slotEn_eq, enabled]
  rw [State.reschedule, if_pos run, State.schedule, if_neg (by omega), if_pos run]
  simp only [enabled', Bool.not_true, Bool.false_and, Bool.false_eq_true, if_false, h.preempts_eq, none]

end

theorem State.Issues.coreRun_eq {s : State} {n : Nat} (h : s.Issues n) : s.coreRun n = 1 := by
  have ready := h.ready
  simp only [State.coreReady, Bool.and_eq_true, beq_iff_eq] at ready
  exact ready.1.2

/-- An instruction after which no other slot is about to run. -/
theorem State.Issues.rescheduled {s t : State} {n : Nat} {x : CoreCtx} (h : s.Issues n) (stays : s.Stays n)
    (steps : State.Steps n x s t) :
    (t.reschedule n).core n = (if x.compat then x.landAll else x)
      ∧ (∀ i, i ≠ s.runSlot n → (t.reschedule n).slotCtx n i = s.slotCtx n i)
      ∧ SameBut [.cores] s (t.reschedule n) := by
  rw [steps.sameSlots.reschedule_eq h.coreRun_eq stays]
  refine ⟨(t.engineStart_core n).trans steps.core, fun i hi => ?_, steps.rest.trans (t.engineStart_sameBut n)⟩
  rw [State.engineStart_slotCtx, steps.other i hi]

/-- What MTCR does to its context: a write that waits finds every result landed (R296). -/
def crWritten (waits : Bool) (k ra : Nat) (c : CoreCtx) : CoreCtx :=
  let c := if waits then c.landAll else c
  c.writeCr k (c.gr ra)

theorem CoreCtx.landAll_alike (c : CoreCtx) : c.Alike c.landAll :=
  ((c.landOne_alike.trans (CoreCtx.landOne_alike _)).trans (CoreCtx.landOne_alike _)).trans (CoreCtx.landOne_alike _)

theorem crWritten_units (waits : Bool) (k ra : Nat) {c : CoreCtx} (div : c.div = none) (fpu : c.fpu = none)
    (blk : c.blk = none) :
    (crWritten waits k ra c).div = none ∧ (crWritten waits k ra c).fpu = none ∧ (crWritten waits k ra c).blk = none := by
  have alike : c.Alike (if waits then c.landAll else c) := by
    split
    · exact c.landAll_alike
    · exact .refl c
  exact ⟨alike.div.trans div, alike.fpu.trans fpu, alike.blk.trans blk⟩

/-! ### The clauses -/

section
variable {n : Fin 8} {p : Bool} {s : State} (h : s.Issues n.val)
include h

theorem mfcr_effect {rd : Fin 32} {cr : BitVec 8} {v : Word} (listed : crListed cr.toNat = true)
    (allowed : mfcrTask cr.toNat = true ∨ (s.core n.val).sup = true) (filled : cr = 2#8 → s.FpFilled n.val)
    (value : v = (if cr = 0x10#8 then s.coreId n.val else (s.now n.val).crv cr.toNat))
    (limit : s.KeepsLimit n.val (.g rd.val) v) :
    ∃ t, exec (.mfcr n p rd cr) s = .next t ∧ s.Results n.val (.g rd.val) v 1 0#32 t := by
  have named (k : BitVec 8) : cr.toNat = k.toNat ↔ cr = k := BitVec.toNat_inj
  refine ⟨_, rfl, h.results ⟨?_, fun sup => ?_, fun fp => ?_⟩ ?_ limit⟩
  · simp [sysOp, listed]
  · exact allowed.resolve_left fun task => by simp [sysOp, task] at sup
  · exact filled ((named 2#8).mp (by simpa [sysOp] using fp))
  · rw [value]
    simp only [gResult, CoreCtx.readCr, show cr.toNat = 0x10 ↔ cr = 0x10#8 from named 0x10#8]
    rfl

theorem mtcr_effect {cr : BitVec 8} {ra : Fin 32} (listed : crListed cr.toNat = true)
    (allowed : mtcrTask cr.toNat = true ∨ (s.core n.val).sup = true) (filled : cr = 2#8 → s.FpFilled n.val)
    (stays : s.Stays n.val) :
    ∃ t, exec (.mtcr n p cr ra) s = .next t
      ∧ (t.core n.val = (let x := (let d := (if cr = 1#8 ∨ cr = 3#8 then (s.now n.val).landAll else (s.now n.val)); { d.writeCr cr.toNat (d.gr ra.val) with pc := d.pc + 4#32 }); if x.compat then x.landAll else x))
      ∧ SameBut [.cores] s t := by
  have named (k : BitVec 8) : cr.toNat = k.toNat ↔ cr = k := BitVec.toNat_inj
  have waits : (cr.toNat == 1 || cr.toNat == 3) = decide (cr = 1#8 ∨ cr = 3#8) := by
    simp only [← named, Bool.decide_or]
    rfl
  have plain : s.Plain n.val { sysOp (encS p 0 ra.val cr.toNat 1) [.g ra.val] [] (!crListed cr.toNat) (!mtcrTask cr.toNat)
      (cr.toNat == 2) with drain := cr.toNat == 1 || cr.toNat == 3 } := by
    refine ⟨?_, fun sup => ?_, fun fp => ?_⟩
    · simp [sysOp, listed]
    · exact allowed.resolve_left fun task => by simp [sysOp, task] at sup
    · exact filled ((named 2#8).mp (by simpa [sysOp] using fp))
  have steps := h.sysDone_steps (f := crWritten (cr.toNat == 1 || cr.toNat == 3) cr.toNat ra.val)
    (.inr (crWritten_units _ _ _ h.now_div h.now_fpu h.now_blk))
  obtain ⟨core, -, rest⟩ := h.rescheduled stays steps
  refine ⟨_, congrArg Host.Outcome.next (h.issueSys_eq plain _), core.trans ?_, rest⟩
  rw [waits]
  simp only [crWritten, CoreCtx.stepped, decide_eq_true_eq]
  rfl

theorem fence_effect (clear : (s.coreRec n.val).deferred = []) {o : CoreOp} (plain : s.Plain n.val o) :
    s.IssuedAs n.val (s.now n.val).stepped (s.issueSys n.val o (fun t => (t.sysDone n.val id).takeDeferred n.val)) := by
  have steps := h.sysDone_steps (f := id) (.inl (.refl _))
  have none : ((((s.setCore n.val (s.now n.val)).sysDone n.val id)).coreRec n.val).deferred = [] := steps.deferred.trans clear
  rw [h.issueSys_eq plain]
  simp only [State.takeDeferred, none]
  exact steps.issuedAs

theorem invalidated_effect {o : CoreOp} (plain : s.Plain n.val o) (q : State → Nat → Bool) :
    s.IssuedAs n.val (s.now n.val).stepped
        (s.issueSys n.val o (fun t => (t.unstale n.val (q t)).sysDone n.val id))
      ∧ ((s.issueSys n.val o (fun t => (t.unstale n.val (q t)).sysDone n.val id)).coreRec n.val).stale
          = (s.coreRec n.val).stale.clear (q (s.setCore n.val (s.now n.val))) := by
  rw [h.issueSys_eq plain]
  have alone := h.alone_now
  have core := s.core_setCore n.val (s.now n.val)
  have stored := s.setCore_sameBut n.val (s.now n.val)
  have stale := s.stale_setCore n.val (s.now n.val)
  generalize s.setCore n.val (s.now n.val) = t at *
  have alone' : ((t.unstale n.val (q t)).coreRec n.val).pair = none := by simp [State.unstale, alone]
  have core' : (t.unstale n.val (q t)).core n.val = s.now n.val := (t.core_setCoreRec_slots n.val (by rfl)).trans core
  have stale' : ((t.unstale n.val (q t)).coreRec n.val).stale = (t.coreRec n.val).stale.clear (q t) := by simp [State.unstale]
  have kept : SameBut [.cores] t (t.unstale n.val (q t)) := State.setCoreRec_sameBut _ _ _
  obtain ⟨core, stale2, -, -, -, -, rest⟩ := State.sysDone_steps (f := id) alone' core' h.now_div h.now_fpu h.now_blk
  exact ⟨⟨core, (stored.trans kept).trans rest⟩, by rw [stale2, stale', stale]⟩

/-! ### Bank moves (R332) -/

theorem mfb_effect {rg : Fin 32} {cls : Fin 4} {num : Fin 64} {v : Word} (sup : (s.core n.val).sup = true)
    (still : s.windowMoves n.val = false)
    (legal : bankIllegal cls.val num.val false (s.bankWindow n.val == s.runSlot n.val) = false) (filled : s.FpFilled n.val)
    (value : v = ((if (s.bankWindow n.val == s.runSlot n.val) = true then s.now n.val else s.slotCtx n.val (s.bankWindow n.val)).bankRead
      cls.val num.val (s.bankWindow n.val == s.runSlot n.val)))
    (limit : s.KeepsLimit n.val (.g rg.val) v) :
    ∃ t, exec (.mfb n p rg cls num) s = .next t ∧ s.Results n.val (.g rg.val) v 1 0#32 t := by
  have run : exec (.mfb n p rg cls num) s = .next (s.issue n.val _ _) :=
    congrArg Host.Outcome.next (if_neg (by simp [still]))
  refine ⟨_, run, h.results ⟨legal, fun _ => sup, fun _ => filled⟩ ?_ limit⟩
  rw [value]
  rfl

/-- The instruction word and needs of MTB. -/
def State.mtbOp (s : State) (n : Nat) (p : Bool) (rg cls num : Nat) : CoreOp :=
  let own := s.bankWindow n == s.runSlot n
  sysOp (encBank p rg cls num 1) [.g rg] (bankRegs cls num own) (bankIllegal cls num true own) true
    (own && (cls == 1 || (cls == 2 && num == 2)))

/-- What MTB does beside a result: a control register of the running slot, or a register of another. -/
def mtbMoved (n w rg cls num : Nat) (own : Bool) (t : State) : State :=
  let v := (t.core n).gr rg
  if own then t.sysDone n (fun c => c.bankWrite cls num v)
  else (t.setSlotCtx n w ((t.slotCtx n w).bankWrite cls num v)).sysDone n id

/-- MTB to a register of the running bank: the value is a result of distance 1. -/
theorem mtb_result {rg : Fin 32} {cls : Fin 4} {num : Fin 64} {d : CReg} (sup : (s.core n.val).sup = true)
    (still : s.windowMoves n.val = false)
    (legal : bankIllegal cls.val num.val true (s.bankWindow n.val == s.runSlot n.val) = false) (filled : s.FpFilled n.val)
    (own : (s.bankWindow n.val == s.runSlot n.val) = true) (small : cls.val < 2)
    (named : d = (if cls.val = 0 then .g num.val else .f num.val))
    (limit : s.KeepsLimit n.val d ((s.now n.val).gr rg.val)) :
    ∃ t, exec (.mtb n p rg cls num) s = .next t
      ∧ (s.IssuedAs n.val { (s.now n.val).send d ((s.now n.val).gr rg.val) 1 with pc := (s.now n.val).pc + 4#32 } t) := by
  have regs : bankRegs cls.val num.val true = [d] := by
    obtain e | e : cls.val = 0 ∨ cls.val = 1 := by omega
    all_goals simp [bankRegs, e, named]
  have run : exec (.mtb n p rg cls num) s = .next (s.issue n.val (fun _ => s.mtbOp n.val p rg.val cls.val num.val)
      (fun c => .ok { c.out with results := (bankRegs cls.val num.val true).map (fun r => ⟨r, c.gr rg.val, 1⟩) })) := by
    refine congrArg Host.Outcome.next ?_
    rw [if_neg (by simp [still]), if_pos (by simp [own, small])]
    rfl
  refine ⟨_, run, h.results (v := (s.now n.val).gr rg.val) (k := 1) (flags := 0#32) ⟨legal, fun _ => sup, fun _ => filled⟩ ?_ limit⟩
  rw [regs]
  rfl

/-- MTB to anything but a register of the running bank. -/
theorem exec_mtb_moved {rg : Fin 32} {cls : Fin 4} {num : Fin 64} (sup : (s.core n.val).sup = true)
    (still : s.windowMoves n.val = false)
    (legal : bankIllegal cls.val num.val true (s.bankWindow n.val == s.runSlot n.val) = false) (filled : s.FpFilled n.val)
    (apart : (s.bankWindow n.val == s.runSlot n.val) = false ∨ cls.val = 2) :
    exec (.mtb n p rg cls num) s = .next ((mtbMoved n.val (s.bankWindow n.val) rg.val cls.val num.val
      (s.bankWindow n.val == s.runSlot n.val) (s.setCore n.val (s.now n.val))).reschedule n.val) := by
  have run : exec (.mtb n p rg cls num) s = .next ((s.issueSys n.val (s.mtbOp n.val p rg.val cls.val num.val)
      (mtbMoved n.val (s.bankWindow n.val) rg.val cls.val num.val (s.bankWindow n.val == s.runSlot n.val))).reschedule n.val) := by
    refine congrArg Host.Outcome.next ?_
    rw [if_neg (by simp [still]), if_neg (by obtain e | e := apart <;> simp [e])]
    rfl
  rw [run, h.issueSys_eq ⟨legal, fun _ => sup, fun _ => filled⟩]

theorem mtb_control {rg : Fin 32} {cls : Fin 4} {num : Fin 64} (sup : (s.core n.val).sup = true)
    (still : s.windowMoves n.val = false)
    (legal : bankIllegal cls.val num.val true (s.bankWindow n.val == s.runSlot n.val) = false) (filled : s.FpFilled n.val)
    (stays : s.Stays n.val) (own : (s.bankWindow n.val == s.runSlot n.val) = true) (control : cls.val = 2) :
    ∃ t, exec (.mtb n p rg cls num) s = .next t
      ∧ (t.core n.val = (let x := { (s.now n.val).writeCr num.val ((s.now n.val).gr rg.val) with pc := (s.now n.val).pc + 4#32 }; if x.compat then x.landAll else x))
      ∧ SameBut [.cores] s t := by
  have moved : mtbMoved n.val (s.bankWindow n.val) rg.val cls.val num.val (s.bankWindow n.val == s.runSlot n.val)
      (s.setCore n.val (s.now n.val)) = (s.setCore n.val (s.now n.val)).sysDone n.val
        (fun c => c.writeCr num.val ((s.now n.val).gr rg.val)) := by
    unfold mtbMoved
    rw [State.core_setCore, own, if_pos rfl, control]
    rfl
  have steps := h.sysDone_steps (f := fun c => c.writeCr num.val ((s.now n.val).gr rg.val))
    (.inr ⟨h.now_div, h.now_fpu, h.now_blk⟩)
  obtain ⟨core, -, rest⟩ := h.rescheduled stays steps
  exact ⟨_, (exec_mtb_moved h sup still legal filled (.inr control)).trans (by rw [moved]), core, rest⟩

/-- MTB to a register of another slot (R332). -/
theorem mtb_other {rg : Fin 32} {cls : Fin 4} {num : Fin 64} (sup : (s.core n.val).sup = true)
    (still : s.windowMoves n.val = false)
    (legal : bankIllegal cls.val num.val true (s.bankWindow n.val == s.runSlot n.val) = false) (filled : s.FpFilled n.val)
    (stays : s.Stays n.val) (other : (s.bankWindow n.val == s.runSlot n.val) = false) :
    ∃ t, exec (.mtb n p rg cls num) s = .next t
      ∧ t.slotCtx n.val (s.bankWindow n.val)
          = (s.slotCtx n.val (s.bankWindow n.val)).bankWrite cls.val num.val ((s.now n.val).gr rg.val)
      ∧ s.IssuedAs n.val (s.now n.val).stepped t := by
  have apart : s.bankWindow n.val ≠ s.runSlot n.val := by simpa using other
  have alone := h.alone_now
  have core := s.core_setCore n.val (s.now n.val)
  have stored := s.setCore_sameBut n.val (s.now n.val)
  have slot := s.runSlot_setCore n.val (s.now n.val) n.val
  have ctx := s.slotCtx_setCore_ne n.val (s.now n.val) apart
  have banks := s.banks_setCore n.val (s.now n.val)
  have run := exec_mtb_moved (p := p) (rg := rg) h sup still legal filled (.inl other)
  unfold mtbMoved at run
  rw [other, if_neg (by decide), core] at run
  generalize s.setCore n.val (s.now n.val) = t at *
  have alone' (c : CoreCtx) : ((t.setSlotCtx n.val (s.bankWindow n.val) c).coreRec n.val).pair = none := by
    simp [State.setSlotCtx, alone]
  have core' (c : CoreCtx) : (t.setSlotCtx n.val (s.bankWindow n.val) c).core n.val = s.now n.val := by
    rw [← core]
    have ne : ¬ t.runSlot n.val = s.bankWindow n.val := fun e => apart (e.symm.trans slot)
    simp [State.core, State.slotCtx, State.setSlotCtx, Store.get_set, ne]
  have banks' (c : CoreCtx) : ((t.setSlotCtx n.val (s.bankWindow n.val) c).coreRec n.val).banks = (s.coreRec n.val).banks := by
    rw [← banks]
    simp [State.setSlotCtx]
  have moved (c : CoreCtx) : (t.setSlotCtx n.val (s.bankWindow n.val) c).slotCtx n.val (s.bankWindow n.val) = c := by
    simp [State.slotCtx, State.setSlotCtx, Store.get_set]
  have kept (c : CoreCtx) : SameBut [.cores] s (t.setSlotCtx n.val (s.bankWindow n.val) c) :=
    stored.trans (State.setCoreRec_sameBut _ _ _)
  have steps (c : CoreCtx) := State.sysDone_steps (f := id) (alone' c) (core' c) h.now_div h.now_fpu h.now_blk
  rw [ctx] at run
  refine ⟨_, run, ?_⟩
  generalize (s.slotCtx n.val (s.bankWindow n.val)).bankWrite cls.val num.val ((s.now n.val).gr rg.val) = c
  obtain ⟨core, -, -, banks2, -, others, rest⟩ := steps c
  have same : State.SameSlots n.val s ((t.setSlotCtx n.val (s.bankWindow n.val) c).sysDone n.val id) :=
    ⟨((kept c).trans rest).reg_eq (by decide), banks2.trans (banks' c)⟩
  rw [same.reschedule_eq h.coreRun_eq stays]
  refine ⟨?_, (State.engineStart_core _ _).trans core, ((kept c).trans rest).trans (State.engineStart_sameBut _ _)⟩
  rw [State.engineStart_slotCtx, others _ (fun e => apart (e.trans slot)), moved]

end

end Sys2Proof.Machine
end

section
/-!
WAIT and the choice of the next slot (R322, R327).
-/
set_option Elab.async false
namespace Sys2Proof.Machine
open Sys2Proof

/-! ### The registers of the slots -/

theorem SCH_SLOTs_STATE_inj {n i j : Nat} : R.SCH_SLOTs_STATE n i = R.SCH_SLOTs_STATE n j ↔ i = j := by
  unfold R.SCH_SLOTs_STATE
  omega

theorem SCH_SLOTs_STATE_ne_CTRL (n i j : Nat) : R.SCH_SLOTs_CTRL n j ≠ R.SCH_SLOTs_STATE n i := by
  unfold R.SCH_SLOTs_STATE R.SCH_SLOTs_CTRL
  omega

theorem SCH_CTRL_ne_SLOTs_STATE (n i : Nat) : R.SCH_CTRL n ≠ R.SCH_SLOTs_STATE n i := by
  unfold R.SCH_SLOTs_STATE R.SCH_CTRL
  omega

theorem SCH_STATE_ne_SLOTs_STATE (n i : Nat) : R.SCH_STATE n ≠ R.SCH_SLOTs_STATE n i := by
  unfold R.SCH_SLOTs_STATE R.SCH_STATE
  omega

theorem SCH_SLOTs_STATE_ne_STATE (n i : Nat) : R.SCH_SLOTs_STATE n i ≠ R.SCH_STATE n := by
  unfold R.SCH_SLOTs_STATE R.SCH_STATE
  omega

theorem SCH_SLOTs_STATE_ne_CC_STATE (n i : Nat) : R.SCH_SLOTs_STATE n i ≠ R.CC_STATE n := by
  unfold R.SCH_SLOTs_STATE R.CC_STATE
  omega

theorem State.setSlotSt_regsSet (s : State) (n i v : Nat) : RegsSet [R.SCH_SLOTs_STATE n i] s (s.setSlotSt n i v) :=
  s.setReg_regsSet _ _

theorem State.clearPend_regsSet (s : State) (n i : Nat) : RegsSet [R.SCH_SLOTs_STATE n i] s (s.clearPend n i) :=
  (s.setRb_regsSet _ _ _).trans (State.setRb_regsSet _ _ _ _)

theorem State.setSlotSt_sameBut (s : State) (n i v : Nat) : SameBut [.regs] s (s.setSlotSt n i v) :=
  (State.setRf_touch : Touch _ s _).sameBut

theorem State.clearPend_sameBut (s : State) (n i : Nat) : SameBut [.regs] s (s.clearPend n i) :=
  (State.setRb_touch : Touch _ s _).sameBut.trans (State.setRb_touch : Touch _ _ _).sameBut

@[simp] theorem State.slotSt_setSlotSt (s : State) (n i v : Nat) : (s.setSlotSt n i v).slotSt n i = v % 4 := by
  rw [State.slotSt, State.setSlotSt, State.rf_setRf, if_pos rfl, fld_setFld _ _ _ _ (by decide)]
  rfl

@[simp] theorem State.slotPend_setSlotSt (s : State) (n i v : Nat) : (s.setSlotSt n i v).slotPend n i = s.slotPend n i := by
  rw [State.slotPend, State.setSlotSt, State.setRf, State.rb_setReg, if_pos rfl, bit_setFld _ _ _ _ _ (by decide)]
  rfl

@[simp] theorem State.slotPend_clearPend (s : State) (n i : Nat) : (s.clearPend n i).slotPend n i = false := by
  rw [State.slotPend, State.clearPend, State.rb_setRb_of_lt _ _ _ _ _ (by decide), if_neg (by simp),
    State.rb_setRb_self _ (by decide)]

/-! ### What the running slot is when its core parks -/

theorem CoreCtx.putAll_pc : ∀ (l : List Flight) (c : CoreCtx), (l.foldl (fun c x => c.put x.reg x.value) c).pc = c.pc
  | [], _ => rfl
  | x :: l, c => by
    refine (CoreCtx.putAll_pc l (c.put x.reg x.value)).trans ?_
    unfold CoreCtx.put
    split
    · split <;> rfl
    · rfl

theorem CoreCtx.landOne_pc (c : CoreCtx) : c.landOne.pc = c.pc := CoreCtx.putAll_pc _ c

theorem CoreCtx.landAll_pc (c : CoreCtx) : c.landAll.pc = c.pc := by
  simp only [CoreCtx.landAll, CoreCtx.landOne_pc]

theorem CoreCtx.betweenCycles_alike (c : CoreCtx) : c.Alike c.betweenCycles ∧ c.betweenCycles.pc = c.pc := by
  have moved (d : CoreCtx) : d.Alike { d with advanced := true } := ⟨rfl, rfl, rfl, fun _ _ => rfl⟩
  unfold CoreCtx.betweenCycles
  split
  · exact ⟨c.landAll_alike.trans (moved _), c.landAll_pc⟩
  · split
    · exact ⟨.refl c, rfl⟩
    · exact ⟨c.landOne_alike.trans (moved _), c.landOne_pc⟩

theorem State.coreRec_setCore_pair {s : State} {n : Nat} (c : CoreCtx) (alone : (s.coreRec n).pair = none) :
    ((s.setCore n c).coreRec n).pair = none := (s.pair_setCore n c).trans alone

/-- A core without a long operation and without a pair parks with its results landed or a cycle further. -/
theorem State.parkCore_eq {s : State} {n : Nat} (alone : (s.coreRec n).pair = none) (blk : (s.core n).blk = none) :
    s.parkCore n = s.setCore n (s.core n).betweenCycles := by
  have idle : (s.core n).betweenCycles.blk = none := (s.core n).betweenCycles_alike.1.blk.trans blk
  simp only [State.parkCore, State.unpair, alone, idle]

/-- What the scheduler finds when the running slot yields: its registers, banks and memory as before WAIT, and the
context of the slot behind it. -/
structure State.Parked (n : Nat) (s t : State) : Prop where
  slots : State.SameSlots n s t
  pc : (t.slotCtx n (s.runSlot n)).pc = (s.now n).pc + 4#32
  lockout : (t.core n).lockout = (s.core n).lockout
  mem : t.mem = s.mem

theorem State.stepped_alike (s : State) (n : Nat) : (s.core n).Alike (s.now n).stepped :=
  (s.core n).nextCycle_alike.trans (CoreCtx.withPc_alike _ _)

theorem State.Issues.parked {s : State} {n : Nat} (h : s.Issues n) : State.Parked n s (((s.setCore n (s.now n)).sysDone n id).parkCore n) := by
  have steps := h.sysDone_steps (f := id) (.inl (.refl _))
  have alike : (s.core n).Alike (((s.setCore n (s.now n)).sysDone n id).core n)
      ∧ (((s.setCore n (s.now n)).sysDone n id).core n).pc = (s.now n).pc + 4#32 := by
    rw [steps.core]
    split
    · exact ⟨(s.stepped_alike n).trans (CoreCtx.landAll_alike _), CoreCtx.landAll_pc _⟩
    · exact ⟨(s.stepped_alike n), rfl⟩
  have alone : (((s.setCore n (s.now n)).sysDone n id).coreRec n).pair = none := steps.pair.trans h.alone
  obtain ⟨alike, pc⟩ := alike
  have same := steps.sameSlots
  have mem := steps.rest .mem (by decide)
  generalize (s.setCore n (s.now n)).sysDone n id = t at *
  rw [State.parkCore_eq alone (alike.blk.trans h.blk)]
  have between := (t.core n).betweenCycles_alike
  have slot : s.runSlot n = (t.setCore n (t.core n).betweenCycles).runSlot n := same.runSlot_eq.symm
  refine ⟨⟨same.regs, (State.banks_setCore _ _ _).trans same.banks⟩, ?_, ?_, mem⟩
  · rw [slot]
    exact (congrArg CoreCtx.pc (State.core_setCore t n _)).trans (between.2.trans pc)
  · rw [State.core_setCore, CoreCtx.lockout, CoreCtx.lockout]
    exact congrArg (bit · 30) ((alike.trans between.1).cr 0 (by decide))

/-! ### The choice of the next slot -/

theorem State.bestSlot_none {s : State} {n : Nat} {p : Nat → Bool} (never : ∀ i < 256, p i = false) :
    s.bestSlot n p = none := by
  have empty : (s.liveSlots n).filter p = [] := by
    refine List.filter_eq_nil_iff.mpr fun i hi => ?_
    simp [never i (List.mem_range.mp (List.mem_of_mem_filter hi))]
  rw [State.bestSlot, empty]
  rfl

theorem State.bestSlot_only {s : State} {n j : Nat} {p : Nat → Bool} (live : j ∈ s.liveSlots n)
    (picked : p j = true) (only : ∀ i < 256, i ≠ j → p i = false) : s.bestSlot n p = some j := by
  have alone : (s.liveSlots n).filter p = [j] := by
    have same : (s.liveSlots n).filter p = (s.liveSlots n).filter (fun i => i == j) := by
      refine List.filter_congr fun i hi => ?_
      by_cases e : i = j
      · simp [e, picked]
      · simp [e, only i (List.mem_range.mp (List.mem_of_mem_filter hi)) e]
    have once : (s.liveSlots n).count j = 1 :=
      List.count_eq_one_of_mem (List.nodup_range.filter _) live
    rw [same, List.filter_beq, once]
    rfl
  rw [State.bestSlot, alone]
  rfl

theorem State.runSlot_lt (s : State) (n : Nat) : s.runSlot n < 256 := fld_lt _ _ _

/-- A step of the running slot's register leaves the other slots as they are. -/
theorem State.slotReady_of_regsSet {s t : State} {n i j : Nat} (regs : RegsSet [R.SCH_SLOTs_STATE n i] s t) (ne : j ≠ i) :
    t.slotReady n j = s.slotReady n j := by
  have out : R.SCH_SLOTs_STATE n j ∉ [R.SCH_SLOTs_STATE n i] := by simpa [SCH_SLOTs_STATE_inj] using ne
  have same : t.reg (R.SCH_SLOTs_STATE n j) = s.reg (R.SCH_SLOTs_STATE n j) := regs.regsBut _ out
  simp only [State.slotReady, State.slotSt, State.slotPend, State.rf, State.rb, same]

theorem State.coreRun_setCoreRun (s : State) (n : Nat) {v : Nat} (hv : v < 8) : (s.setCoreRun n v).coreRun n = v :=
  State.rf_setRf_self _ (by decide) hv

/-- A slot that yields with nothing pending waits; no other being ready, the core is idle. -/
theorem State.yield_waits {s t : State} {n : Nat} (parked : State.Parked n s t) (pend : s.slotPend n (s.runSlot n) = false)
    (open' : (s.core n).lockout = false) (others : ∀ j : Fin 256, j.val ≠ s.runSlot n → s.slotReady n j.val = false) :
    ((t.setSlotSt n (s.runSlot n) 1).runNext n).slotSt n (s.runSlot n) = 1
      ∧ ((t.setSlotSt n (s.runSlot n) 1).runNext n).coreRun n = 2
      ∧ (((t.setSlotSt n (s.runSlot n) 1).runNext n).slotCtx n (s.runSlot n)).pc = (s.now n).pc + 4#32
      ∧ ((t.setSlotSt n (s.runSlot n) 1).runNext n).mem = s.mem := by
  have regs := t.setSlotSt_regsSet n (s.runSlot n) 1
  have st : (t.setSlotSt n (s.runSlot n) 1).slotSt n (s.runSlot n) = 1 := by simp
  have pend' : (t.setSlotSt n (s.runSlot n) 1).slotPend n (s.runSlot n) = false := by
    rw [State.slotPend_setSlotSt, ← pend]
    exact congrArg (bit · 29) (parked.slots.regs _)
  have slot : (t.setSlotSt n (s.runSlot n) 1).runSlot n = s.runSlot n :=
    (congrArg (fld · 31 24) (regs.regsBut _ (by simp [SCH_STATE_ne_SLOTs_STATE]))).trans parked.slots.runSlot_eq
  have core : (t.setSlotSt n (s.runSlot n) 1).core n = t.core n := by
    rw [State.core, State.core, slot, parked.slots.runSlot_eq]
    rfl
  have idle : ∀ i < 256, (t.setSlotSt n (s.runSlot n) 1).slotReady n i = false := by
    intro i hi
    by_cases own : i = s.runSlot n
    · rw [own, State.slotReady, st, pend']
      rfl
    · rw [State.slotReady_of_regsSet regs own, ← others ⟨i, hi⟩ own]
      simp only [State.slotReady, State.slotSt, State.slotPend, State.rf, State.rb, parked.slots.regs]
  have nobody : (t.setSlotSt n (s.runSlot n) 1).nextSlot n = none :=
    State.bestSlot_none fun i hi => (congrArg _ (idle i hi)).trans (Bool.and_false _)
  have run : (t.setSlotSt n (s.runSlot n) 1).runNext n = ((t.setSlotSt n (s.runSlot n) 1).setCoreRun n 2).engineStart n := by
    simp only [State.runNext, core, parked.lockout, open', Bool.false_and, Bool.false_eq_true, if_false, nobody]
  have ctx : (t.setSlotSt n (s.runSlot n) 1).slotCtx n (s.runSlot n) = t.slotCtx n (s.runSlot n) := rfl
  have mem : (t.setSlotSt n (s.runSlot n) 1).mem = t.mem := rfl
  rw [run]
  generalize t.setSlotSt n (s.runSlot n) 1 = u at *
  have started := (u.setCoreRun n 2).engineStart_sameBut n
  refine ⟨?_, ?_, ?_, (started .mem (by decide)).trans (mem.trans parked.mem)⟩
  · refine (congrArg (fld · 31 30) (started.reg_eq (by decide) _)).trans (Eq.trans ?_ st)
    exact congrArg (fld · 31 30) ((u.setRf_regsBut (R.CC_STATE n) 31 29 2) _ (by simp [SCH_SLOTs_STATE_ne_CC_STATE]))
  · exact (congrArg (fld · 31 29) (started.reg_eq (by decide) _)).trans (u.coreRun_setCoreRun n (by decide))
  · rw [State.engineStart_slotCtx, show (u.setCoreRun n 2).slotCtx n (s.runSlot n) = u.slotCtx n (s.runSlot n) from rfl, ctx, parked.pc]

/-- A slot that runs already is dispatched again without losing an event. -/
theorem State.dispatch_again {s : State} {n i : Nat} (ready : s.slotSt n i = 2) (pend : s.slotPend n i = false) :
    (s.dispatch n i).slotPend n i = false ∧ (s.dispatch n i).slotSt n i = 3 ∧ (s.dispatch n i).coreRun n = 1
      ∧ (s.dispatch n i).slotCtx n i = s.slotCtx n i ∧ (s.dispatch n i).mem = s.mem := by
  have fresh : (s.slotSt n i == 1) = false := by rw [ready]; rfl
  have regs : (s.dispatch n i).regs = (((s.setSlotSt n i 3).setRf (R.SCH_STATE n) 31 24 i).setCoreRun n 1).regs := by
    rw [State.dispatch, fresh]
    simp only [Bool.false_eq_true, if_false]
    split <;> rfl
  have other : (s.dispatch n i).reg (R.SCH_SLOTs_STATE n i) = (s.setSlotSt n i 3).reg (R.SCH_SLOTs_STATE n i) := by
    rw [State.reg_congr regs, State.setCoreRun, State.setRf, State.setRf, State.reg_setReg, if_neg (SCH_SLOTs_STATE_ne_CC_STATE n i),
      State.reg_setReg, if_neg (SCH_SLOTs_STATE_ne_STATE n i)]
  refine ⟨?_, ?_, ?_, ?_, ?_⟩
  · exact (congrArg (bit · 29) other).trans ((s.slotPend_setSlotSt n i 3).trans pend)
  · exact (congrArg (fld · 31 30) other).trans (s.slotSt_setSlotSt n i 3)
  · exact (congrArg (fld · 31 29) (State.reg_congr regs _)).trans (State.coreRun_setCoreRun _ n (by decide))
  · rw [State.dispatch, fresh, State.slotCtx, State.coreRec_setCoreRec, if_pos rfl]
    rfl
  · rw [State.dispatch, fresh]
    simp only [Bool.false_eq_true, if_false]
    split <;> rfl

/-- A slot that yields with an event pending is READY again, and no other being so it goes on. -/
theorem State.yield_goes_on {s t : State} {n : Nat} (parked : State.Parked n s t)
    (able : s.schedulable n (s.runSlot n) = true) (resident : s.resident n (s.runSlot n) = true)
    (others : ∀ j : Fin 256, j.val ≠ s.runSlot n → s.slotReady n j.val = false) :
    (((t.clearPend n (s.runSlot n)).setSlotSt n (s.runSlot n) 2).runNext n).slotPend n (s.runSlot n) = false
      ∧ (((t.clearPend n (s.runSlot n)).setSlotSt n (s.runSlot n) 2).runNext n).slotSt n (s.runSlot n) = 3
      ∧ (((t.clearPend n (s.runSlot n)).setSlotSt n (s.runSlot n) 2).runNext n).coreRun n = 1
      ∧ ((((t.clearPend n (s.runSlot n)).setSlotSt n (s.runSlot n) 2).runNext n).slotCtx n (s.runSlot n)).pc
          = (s.now n).pc + 4#32
      ∧ (((t.clearPend n (s.runSlot n)).setSlotSt n (s.runSlot n) 2).runNext n).mem = s.mem := by
  have regs := (t.clearPend_regsSet n (s.runSlot n)).trans ((t.clearPend n (s.runSlot n)).setSlotSt_regsSet n (s.runSlot n) 2)
  have st : ((t.clearPend n (s.runSlot n)).setSlotSt n (s.runSlot n) 2).slotSt n (s.runSlot n) = 2 := by simp
  have pend : ((t.clearPend n (s.runSlot n)).setSlotSt n (s.runSlot n) 2).slotPend n (s.runSlot n) = false := by simp
  have slot : ((t.clearPend n (s.runSlot n)).setSlotSt n (s.runSlot n) 2).runSlot n = s.runSlot n :=
    (congrArg (fld · 31 24) (regs.regsBut _ (by simp [SCH_STATE_ne_SLOTs_STATE]))).trans parked.slots.runSlot_eq
  have able' : ((t.clearPend n (s.runSlot n)).setSlotSt n (s.runSlot n) 2).schedulable n (s.runSlot n) = true := by
    rw [← able, State.schedulable, State.schedulable]
    exact congrArg (bit · 31 || s.runSlot n == 0)
      ((regs.regsBut _ (by simp [SCH_CTRL_ne_SLOTs_STATE])).trans (parked.slots.regs _))
  have resident' (i : Nat) : ((t.clearPend n (s.runSlot n)).setSlotSt n (s.runSlot n) 2).resident n i = s.resident n i := by
    have banks : (((t.clearPend n (s.runSlot n)).setSlotSt n (s.runSlot n) 2).coreRec n).banks = (s.coreRec n).banks :=
      parked.slots.banks
    rw [State.resident, State.slotBank, banks]
    rfl
  have ctx : ((t.clearPend n (s.runSlot n)).setSlotSt n (s.runSlot n) 2).slotCtx n (s.runSlot n) = t.slotCtx n (s.runSlot n) := rfl
  have mem : ((t.clearPend n (s.runSlot n)).setSlotSt n (s.runSlot n) 2).mem = t.mem := rfl
  have idle : ∀ i < 256, i ≠ s.runSlot n →
      ((t.clearPend n (s.runSlot n)).setSlotSt n (s.runSlot n) 2).slotReady n i = false := by
    intro i hi own
    rw [State.slotReady_of_regsSet regs own, ← others ⟨i, hi⟩ own]
    simp only [State.slotReady, State.slotSt, State.slotPend, State.rf, State.rb, parked.slots.regs]
  generalize (t.clearPend n (s.runSlot n)).setSlotSt n (s.runSlot n) 2 = u at *
  have ready : u.slotReady n (s.runSlot n) = true := by rw [State.slotReady, st]; rfl
  have live : s.runSlot n ∈ u.liveSlots n := by
    simp [State.liveSlots, s.runSlot_lt n, resident', resident]
  have next : u.nextSlot n = some (s.runSlot n) :=
    State.bestSlot_only live (by simp [able', ready]) fun i hi own => (congrArg _ (idle i hi own)).trans (Bool.and_false _)
  have run : u.runNext n = (u.dispatch n (s.runSlot n)).engineStart n := by
    simp [State.runNext, slot, next, ready, resident', resident]
  obtain ⟨pendAfter, stAfter, runs, ctxAfter, memAfter⟩ := State.dispatch_again st pend
  rw [run]
  generalize u.dispatch n (s.runSlot n) = d at *
  have started := d.engineStart_sameBut n
  refine ⟨(congrArg (bit · 29) (started.reg_eq (by decide) _)).trans pendAfter,
    (congrArg (fld · 31 30) (started.reg_eq (by decide) _)).trans stAfter,
    (congrArg (fld · 31 29) (started.reg_eq (by decide) _)).trans runs, ?_,
    (started .mem (by decide)).trans (memAfter.trans (mem.trans parked.mem))⟩
  rw [State.engineStart_slotCtx, ctxAfter, ctx, parked.pc]

/-! ### WAIT -/

theorem State.Issues.exec_wait {s : State} {n : Fin 8} (h : s.Issues n.val) (p : Bool) :
    exec (.wait n p) s = .next ((((s.setCore n.val (s.now n.val)).sysDone n.val id)).yieldSlot n.val) :=
  congrArg Host.Outcome.next (h.issueSys_eq (s.plain_of_g n.val rfl rfl rfl) _)

theorem State.Parked.yieldSlot_eq {s t : State} {n : Nat} (parked : State.Parked n s (t.parkCore n)) (slot : t.runSlot n = s.runSlot n) :
    t.yieldSlot n = if s.slotPend n (s.runSlot n) then
        (((t.parkCore n).clearPend n (s.runSlot n)).setSlotSt n (s.runSlot n) 2).runNext n
      else ((t.parkCore n).setSlotSt n (s.runSlot n) 1).runNext n := by
  have pend : (t.parkCore n).slotPend n (s.runSlot n) = s.slotPend n (s.runSlot n) := congrArg (bit · 29) (parked.slots.regs _)
  simp only [State.yieldSlot, slot, pend]
  split <;> rfl

theorem State.Issues.exec_wait_eq {s : State} {n : Fin 8} (h : s.Issues n.val) (p : Bool) :
    ∃ t, State.Parked n.val s t ∧ exec (.wait n p) s = .next (if s.slotPend n.val (s.runSlot n.val) then
        ((t.clearPend n.val (s.runSlot n.val)).setSlotSt n.val (s.runSlot n.val) 2).runNext n.val
      else (t.setSlotSt n.val (s.runSlot n.val) 1).runNext n.val) :=
  ⟨_, h.parked, (h.exec_wait p).trans (congrArg Host.Outcome.next (h.parked.yieldSlot_eq
    (h.sysDone_steps (f := id) (.inl (.refl _))).sameSlots.runSlot_eq))⟩

/-- Settles O47: an instruction without results acts in its own cycle and steps the PC; a scheduler with no other slot to run
leaves the slot that it finds, and WAIT yields it. -/
theorem systemInstructions : Obligations.SystemInstructions := by
  unfold Obligations.SystemInstructions
  refine ⟨?_, ?_, ?_, ?_, ?_, ?_, ?_, ?_, ?_, ?_, ?_, ?_, ?_, ?_⟩
  case refine_1 =>
    intro n p rd cr v s h listed allowed filled value limit
    exact mfcr_effect h listed allowed filled value limit
  case refine_2 =>
    intro n p cr ra s h listed allowed filled stays
    exact mtcr_effect h listed allowed filled stays
  case refine_3 =>
    intro n p s h clear
    exact ⟨_, rfl, fence_effect h clear (s.plain_of_g n.val rfl rfl rfl)⟩
  case refine_4 =>
    intro n p s h clear
    exact ⟨_, rfl, fence_effect h clear (s.plain_of_g n.val rfl rfl rfl)⟩
  case refine_5 =>
    intro n p ra s h
    have steps := h.sysDone_steps (f := id) (.inl (.refl _))
    exact ⟨_, congrArg Host.Outcome.next (h.issueSys_eq (s.plain_of_g n.val rfl rfl rfl) _), steps.issuedAs, steps.stale⟩
  case refine_6 =>
    intro n p ra s h
    obtain ⟨issued, stale⟩ := invalidated_effect h (o := sysOp (encS p 0 ra.val 0 5) [.g ra.val] [] false false false)
      (s.plain_of_g n.val rfl rfl rfl) (fun t k => k / 64 == ((t.core n.val).gr ra.val).toNat / 64)
    refine ⟨_, rfl, issued, stale.trans ?_⟩
    rw [State.core_setCore]
    rfl
  case refine_7 =>
    intro n p s h sup
    have steps := h.sysDone_steps (f := id) (.inl (.refl _))
    exact ⟨_, congrArg Host.Outcome.next (h.issueSys_eq (o := sysOp (encS p 0 0 0 6) [] [] false true false)
      ⟨rfl, fun _ => sup, nofun⟩ _), steps.issuedAs⟩
  case refine_8 =>
    intro n p s h sup
    obtain ⟨issued, stale⟩ := invalidated_effect h (o := sysOp (encS p 0 0 0 7) [] [] false true false)
      ⟨rfl, fun _ => sup, nofun⟩ (fun _ _ => true)
    exact ⟨_, rfl, issued, stale.trans (by simp [Store.clear])⟩
  case refine_9 =>
    intro n p s h pend running open' others
    obtain ⟨t, parked, run⟩ := h.exec_wait_eq p
    rw [pend] at run
    exact ⟨_, run, State.yield_waits parked pend open' others⟩
  case refine_10 =>
    intro n p s h pend running able resident others
    obtain ⟨t, parked, run⟩ := h.exec_wait_eq p
    rw [pend] at run
    exact ⟨_, run, State.yield_goes_on parked able resident others⟩
  case refine_11 =>
    intro n p rg cls num v s h sup still legal filled value limit
    refine mfb_effect h sup still legal filled ?_ limit
    rw [value]
    cases s.bankWindow n.val == s.runSlot n.val <;> fin_cases cls <;> rfl
  case refine_12 =>
    intro n p rg cls num d s h sup still legal filled stays own small named limit
    exact mtb_result h sup still legal filled own small named limit
  case refine_13 =>
    intro n p rg cls num s h sup still legal filled stays own control
    exact mtb_control h sup still legal filled stays own control
  case refine_14 =>
    intro n p rg cls num s h sup still legal filled stays other
    obtain ⟨t, run, ctx, issued⟩ := mtb_other (p := p) h sup still legal filled stays other
    refine ⟨t, run, ctx.trans ?_, issued⟩
    fin_cases cls <;> rfl

end Sys2Proof.Machine
end

section
/-!
Due entries at a boundary, and the end of a chain (R64, R101, R113).
-/
set_option Elab.async false
namespace Sys2Proof.Machine
open Sys2Proof

/-! ### Due entries at a boundary -/

/-- Every byte outside the engines' descriptor memories stands. -/
def DescOnly (s t : State) : Prop := ∀ b : Nat, descWord b = none → t.byte b = s.byte b

theorem DescOnly.refl (s : State) : DescOnly s s := fun _ _ => rfl

theorem DescOnly.trans {s t u : State} (h : DescOnly s t) (k : DescOnly t u) : DescOnly s u :=
  fun b hb => (k b hb).trans (h b hb)

theorem DescOnly.of_mem {s t : State} (h : t.mem = s.mem) : DescOnly s t := fun b _ => by rw [State.byte, State.byte, h]

theorem DescOnly.mword_eq {s t : State} (h : DescOnly s t) {a : Nat} (ha : ∀ k < 4, descWord (a + k) = none) :
    t.mword a = s.mword a := by
  rw [State.mword_eq_wordOfBytes, State.mword_eq_wordOfBytes, h a (ha 0 (by decide)), h (a + 1) (ha 1 (by decide)),
    h (a + 2) (ha 2 (by decide)), h (a + 3) (ha 3 (by decide))]

/-- The bytes of a descriptor word are descriptor bytes. -/
theorem descWord_isSome_of_word {a b : Nat} (desc : (descWord a).isSome = true) (aligned : a % 4 = 0) (low : a ≤ b)
    (high : b < a + 4) : (descWord b).isSome = true := by
  have word : b / 4 = a / 4 := by omega
  unfold descWord islandOf at desc ⊢
  split at desc
  next n hn =>
    split at hn
    next range =>
      rw [if_pos (by omega)]
      dsimp only at desc ⊢
      split at desc
      next inside =>
        rw [if_pos ⟨by omega, by omega⟩]
        rfl
      next => exact absurd desc (by simp)
    next => exact absurd hn (by simp)
  next => exact absurd desc (by simp)

/-- Descriptor memory lies apart from the registers. -/
theorem rowAt_of_descWord {a : Nat} (desc : (descWord a).isSome = true) : rowAt a = none := by
  have located : locate a = none := by
    unfold descWord islandOf at desc
    split at desc
    next n hn =>
      split at hn
      next range =>
        dsimp only at desc
        split at desc
        next inside =>
          unfold locate locateIsland
          dsimp only
          rw [if_pos (by omega), if_pos inside.1, if_neg (by omega)]
        next => exact absurd desc (by simp)
      next => exact absurd hn (by simp)
    next => exact absurd desc (by simp)
  rw [rowAt, located]

theorem LE_CTXc_STATUS_not_eb (n : Fin 16) (m : Fin 6) (c : Fin 8) : isEB (R.LE_CTXc_STATUS n m c) = false := by
  revert n m c
  decide +kernel

theorem State.setActive_descOnly {s : State} {a : Nat} {v : Word} (ha : isEB a = true) : DescOnly s (s.setActive a v) := by
  intro b hb
  unfold State.setActive
  split
  next desc =>
    have aligned : a % 4 = 0 := by
      simpa [isEB, rowAt_of_descWord desc, desc] using ha
    rw [State.byte_setMword, if_neg]
    intro inside
    have some := descWord_isSome_of_word desc aligned (by omega) (by omega : b < a + 4)
    rw [hb] at some
    exact absurd some (by simp)
  next => rfl

/-- What the end of a chain leaves beside the engines' records: epochs swap into epoch-bound registers and memory words and
end. -/
def epochReg (a : Nat) : Prop := isEB a = true ∨ ∃ i < 4, a = R.EP_SLOTs_STATE i ∨ a = R.EP_SLOTs_RESULT i

theorem LE_CTXc_STATUS_not_epochReg (n : Fin 16) (m : Fin 6) (c : Fin 8) : ¬ epochReg (R.LE_CTXc_STATUS n m c) := by
  rintro (eb | ⟨i, hi, e⟩)
  · rw [LE_CTXc_STATUS_not_eb] at eb
    exact absurd eb (by decide)
  · unfold R.LE_CTXc_STATUS R.EP_SLOTs_STATE R.EP_SLOTs_RESULT at e
    omega

theorem State.setActive_epochRegs {s : State} {a : Nat} {v : Word} (ha : isEB a = true) : RegsIn epochReg s (s.setActive a v) := by
  unfold State.setActive
  exact .ite (.of_regs rfl _) (s.setReg_regsIn (.inl ha) v)

theorem State.finishEpochs_epochRegs (s : State) : RegsIn epochReg s s.finishEpochs := by
  refine RegsIn.foldl _ s fun i hi t => .ite ?_ (.refl _ t)
  have lt : i < 4 := List.mem_range.mp hi
  have freed : RegsIn epochReg t (((t.setReg (R.EP_SLOTs_STATE i) 0#32).resultFlag i 0).fireCentral 321) :=
    ((State.setReg_regsIn _ (.inr ⟨i, lt, .inl rfl⟩) _).trans (State.setReg_regsIn _ (.inr ⟨i, lt, .inr rfl⟩) _)).trans
      (State.fireCentral_touch.regsIn _)
  exact .ite (freed.trans (.of_regs rfl _)) freed

/-- Nothing but epochs has changed registers and memory: epoch-bound ones swap, and slots end. -/
structure EpochsOnly (s t : State) : Prop where
  regs : RegsIn epochReg s t
  mem : DescOnly s t

theorem EpochsOnly.refl (s : State) : EpochsOnly s s := ⟨.refl _ s, .refl s⟩

theorem EpochsOnly.trans {s t u : State} (h : EpochsOnly s t) (k : EpochsOnly t u) : EpochsOnly s u :=
  ⟨h.regs.trans k.regs, h.mem.trans k.mem⟩

theorem EpochsOnly.ite {s t u : State} {c : Prop} [Decidable c] (h : EpochsOnly s t) (k : EpochsOnly s u) :
    EpochsOnly s (if c then t else u) := by
  split
  · exact h
  · exact k

/-- A step that touches neither registers nor memory. -/
theorem Touch.epochsOnly {w : Nat} {s t : State} (h : Touch w s t) (hl : masksOnly w [.due, .les] = true := by decide) :
    EpochsOnly s t :=
  ⟨.of_regs (h.sameBut hl .regs (by decide)) _, .of_mem (h.sameBut hl .mem (by decide))⟩

theorem EpochsOnly.foldl {α : Type} {f : State → α → State} (hf : ∀ x t, EpochsOnly t (f t x)) :
    ∀ (l : List α) (s : State), EpochsOnly s (l.foldl f s)
  | [], s => .refl s
  | x :: l, s => (hf x s).trans (EpochsOnly.foldl hf l (f s x))

/-- Entries that swap. -/
theorem State.Sound.swap {s : State} (sound : s.Sound) (p : Entry → Bool) : EpochsOnly s (s.swap p) := by
  have swapped : ∀ (l : List Entry), (∀ e ∈ l, isEB e.addr = true) → ∀ u : State,
      EpochsOnly u (l.foldl (fun t e => t.setActive e.addr e.value) u) := by
    intro l
    induction l with
    | nil => exact fun _ u => .refl u
    | cons e l ih =>
      intro eb u
      have first : EpochsOnly u (u.setActive e.addr e.value) :=
        ⟨State.setActive_epochRegs (eb e List.mem_cons_self), State.setActive_descOnly (eb e List.mem_cons_self)⟩
      exact first.trans (ih (fun x hx => eb x (List.mem_cons_of_mem e hx)) _)
  have moved := swapped (s.ep.entries.filter (fun e => e.due && p e)) (fun e he => sound.staged e (List.mem_filter.mp he).1) s
  unfold State.swap
  dsimp only
  generalize (s.ep.entries.filter (fun e => e.due && p e)).foldl (fun t e => t.setActive e.addr e.value) s = t at *
  have dropped : EpochsOnly t (t.setEntries (s.ep.entries.filter (fun e => !(e.due && p e)))) :=
    ⟨.of_regs rfl _, .of_mem rfl⟩
  exact (moved.trans dropped).trans ⟨State.finishEpochs_epochRegs _, .of_mem (State.finishEpochs_touch.sameBut (l := [.due, .regs, .pulses, .mp]) (by decide) .mem (by decide))⟩

/-- A boundary of an engine. -/
theorem State.Sound.leBoundary {s : State} (sound : s.Sound) (n m : Nat) : EpochsOnly s (s.leBoundary n m) := by
  have cams : EpochsOnly s (s.camRelease n m) := .ite (sound.swap _) (.refl s)
  have after := (State.camRelease_touch (n := n) (m := m)).sound sound
  unfold State.leBoundary
  refine .ite (.refl s) (cams.trans (.ite (.refl _) (EpochsOnly.trans (.ite ?_ (.refl _)) State.enqueue_touch.epochsOnly)))
  exact (after.swap _).trans (.foldl (fun d t => State.noteFresh_touch.epochsOnly) _ _)

/-! ### The end of a chain -/

/-- The registers of context `(n, m, c)` in which an execution counts, beside those of the epochs. -/
def chainReg (n m c a : Nat) : Prop :=
  epochReg a ∨ a = R.LE_CTXc_LAT n m c ∨ a = R.LE_CTXc_COUNT n m c ∨ a = R.LE_CTXc_FIXED n m c

theorem LE_CTXc_STATUS_not_chainReg (n : Fin 16) (m : Fin 6) (c : Fin 8) (d : Nat) :
    ¬ chainReg n m d (R.LE_CTXc_STATUS n m c) := by
  rintro (h | h | h | h)
  · exact LE_CTXc_STATUS_not_epochReg n m c h
  all_goals
    simp only [R.LE_CTXc_STATUS, R.LE_CTXc_LAT, R.LE_CTXc_COUNT, R.LE_CTXc_FIXED] at h
    omega

theorem State.le_setCtx (s : State) (n m c : Nat) (x : CtxRec) :
    (s.setCtx n m c x).le n m = { s.le n m with ctxs := (s.le n m).ctxs.set c x } := by
  simp [State.setCtx, State.le, State.setLe, Store.get_set]

theorem State.setCtx_relays (s : State) (n m c : Nat) (x : CtxRec) : ((s.setCtx n m c x).le n m).relays = (s.le n m).relays := by
  rw [s.le_setCtx n m c x]

theorem State.ctx_setCtx (s : State) (n m c : Nat) (x : CtxRec) (d : Nat) :
    (s.setCtx n m c x).ctx n m d = if d = c ∧ c < (s.le n m).ctxs.length then x else s.ctx n m d := by
  rw [State.ctx, s.le_setCtx n m c x, State.ctx, List.getD_eq_getElem?_getD, List.getElem?_set]
  by_cases e : c = d
  · subst e
    by_cases lt : c < (s.le n m).ctxs.length
    · simp [lt]
    · simp [lt, List.getD_eq_getElem?_getD]
  · simp [e, Ne.symm e, List.getD_eq_getElem?_getD]

theorem State.le_congr {s t : State} (h : t.les = s.les) (n m : Nat) : t.le n m = s.le n m := by
  rw [State.le, State.le, h]

theorem State.ctx_congr {s t : State} (h : t.les = s.les) (n m c : Nat) : t.ctx n m c = s.ctx n m c := by
  rw [State.ctx, State.ctx, State.le_congr h]

/-- A part of a context's record that a change of the record leaves, whether or not the engine has the context. -/
theorem State.ctx_setCtx_part {α : Type} (g : CtxRec → α) (s : State) (n m c : Nat) (x : CtxRec) (same : g x = g (s.ctx n m c))
    (d : Nat) : g ((s.setCtx n m c x).ctx n m d) = g (s.ctx n m d) := by
  rw [State.ctx_setCtx]
  split
  next h => rw [same, h.1]
  next => rfl

/-- What a step at the end of a chain leaves: registers and memory but for epochs and the counts of an execution, and the
position of every context. -/
structure ChainEnds (n m c : Nat) (s t : State) : Prop where
  regs : RegsIn (chainReg n m c) s t
  mem : DescOnly s t
  stage : ∀ d, (t.ctx n m d).stage = (s.ctx n m d).stage
  relays : (t.le n m).relays = (s.le n m).relays
  sound : s.Sound → t.Sound

theorem ChainEnds.refl (n m c : Nat) (s : State) : ChainEnds n m c s s := ⟨.refl _ s, .refl s, fun _ => rfl, rfl, id⟩

theorem ChainEnds.trans {n m c : Nat} {s t u : State} (h : ChainEnds n m c s t) (k : ChainEnds n m c t u) : ChainEnds n m c s u :=
  ⟨h.regs.trans k.regs, h.mem.trans k.mem, fun d => (k.stage d).trans (h.stage d), k.relays.trans h.relays,
    fun x => k.sound (h.sound x)⟩

/-- The last of two steps first: what it is about determines the state between them. -/
theorem ChainEnds.after {n m c : Nat} {s t u : State} (k : ChainEnds n m c t u) (h : ChainEnds n m c s t) : ChainEnds n m c s u :=
  h.trans k

theorem ChainEnds.foldl {α : Type} {n m c : Nat} {f : State → α → State} (hf : ∀ x t, ChainEnds n m c t (f t x)) :
    ∀ (l : List α) (s : State), ChainEnds n m c s (l.foldl f s)
  | [], s => .refl n m c s
  | x :: l, s => (hf x s).trans (ChainEnds.foldl hf l (f s x))

theorem ChainEnds.of_regs {n m c w : Nat} {s t : State} (regs : RegsIn (chainReg n m c) s t) (h : Touch w s t)
    (hl : masksOnly w [.due, .regs, .pulses] = true := by decide) : ChainEnds n m c s t :=
  ⟨regs, .of_mem (h.sameBut hl .mem (by decide)), fun d => congrArg CtxRec.stage (State.ctx_congr (h.sameBut hl .les (by decide)) n m d),
    congrArg LeRec.relays (State.le_congr (h.sameBut hl .les (by decide)) n m), h.sound⟩

theorem ChainEnds.setCtx (n m c : Nat) (s : State) (d : Nat) {x : CtxRec} (same : x.stage = (s.ctx n m d).stage) :
    ChainEnds n m c s (s.setCtx n m d x) :=
  ⟨.of_regs rfl _, .of_mem rfl, s.ctx_setCtx_part CtxRec.stage n m d x same, s.setCtx_relays n m d x,
    State.setCtx_touch.sound⟩

theorem State.leBoundary_les (s : State) (n m : Nat) : (s.leBoundary n m).les = s.les :=
  State.leBoundary_touch.sameBut (by decide : masksOnly _ [.due, .regs, .mem, .ep, .ecc, .pulses, .mp] = true) .les (by decide)

theorem ChainEnds.leBoundary (n m c : Nat) {s : State} (sound : s.Sound) : ChainEnds n m c s (s.leBoundary n m) :=
  have ends := sound.leBoundary n m
  ⟨ends.regs.mono fun _ h => .inl h, ends.mem, fun d => congrArg CtxRec.stage (State.ctx_congr (s.leBoundary_les n m) n m d),
    congrArg LeRec.relays (State.le_congr (s.leBoundary_les n m) n m), State.leBoundary_touch.sound⟩

theorem ChainEnds.noteFresh (n m c d : Nat) (s : State) : ChainEnds n m c s (s.noteFresh n m d) :=
  .of_regs (State.noteFresh_touch.regsIn _) State.noteFresh_touch

/-- An execution that ends counts, returns its context to IDLE and ends the engine's wait for a boundary. -/
theorem State.Sound.complete {s : State} (sound : s.Sound) (n m c : Nat) (released : Bool) :
    ChainEnds n m c s (s.complete n m c released) := by
  have late : ChainEnds n m c s (s.latency n m c) :=
    .of_regs (State.setReg_regsIn _ (.inr (.inl rfl)) _) State.latency_touch
  have counted (t : State) (v : Word) : ChainEnds n m c t (t.setReg (R.LE_CTXc_COUNT n m c) v) :=
    .of_regs (State.setReg_regsIn _ (.inr (.inr (.inl rfl))) _) State.setReg_touch
  have imposed (t : State) : ChainEnds n m c t (t.imposedStep n m c) := by
    refine .of_regs ?_ State.imposedStep_touch
    unfold State.imposedStep
    dsimp only
    exact .ite (.refl _ t) (.ite (State.setReg_regsIn _ (.inr (.inr (.inr rfl))) _) (State.setReg_regsIn _ (.inr (.inr (.inr rfl))) _))
  have idle (t : State) : ChainEnds n m c t (t.setCtx n m c { t.ctx n m c with
      phase := .idle, outs := [], items := [], lastOut := none, spare := false }) := .setCtx n m c t c rfl
  have fired (t : State) (i : Nat) : ChainEnds n m c t (t.fireIsland n i) :=
    .of_regs (State.fireIsland_touch.regsIn _) State.fireIsland_touch
  have fresh (d : Nat) (t : State) : ChainEnds n m c t (if t.ctxOn n m d && (t.ctx n m d).phase != .idle then
      (t.setCtx n m d { t.ctx n m d with freshCtx := (t.ctx n m d).freshCtx ||| 2 ^ c }).noteFresh n m d else t) := by
    split
    · exact .after (.noteFresh n m c d _) (.setCtx n m c t d rfl)
    · exact .refl n m c t
  unfold State.complete
  dsimp only
  have begun := ((late.trans (counted _ ((s.latency n m c).reg (R.LE_CTXc_COUNT n m c) + 1#32))).trans (imposed _)).trans (idle _)
  split
  · have done := (begun.trans (fired _ (16 * m + c))).trans (ChainEnds.foldl fresh (List.range 8) _)
    exact done.trans (.leBoundary n m c (done.sound sound))
  · exact begun.trans (.leBoundary n m c (begun.sound sound))

/-- The end of a chain: registers but for epochs and counts, memory but for descriptor words, and the position stand. -/
theorem State.Sound.chainEnd {s : State} (sound : s.Sound) (n m c : Nat) : ChainEnds n m c s (s.chainEnd n m c) := by
  unfold State.chainEnd
  dsimp only
  split
  · have held := ChainEnds.setCtx n m c s c (x := { s.ctx n m c with phase := .held }) rfl
    exact held.trans (.leBoundary n m c (held.sound sound))
  · exact sound.complete n m c _

/-- In fixed-phase timing the outputs stay held. -/
theorem State.chainEnd_outs {s : State} {n m c : Nat} (fixed : (s.ctx n m c).fixed = true) (inTime : (s.ctx n m c).overrun = false) :
    ((s.chainEnd n m c).ctx n m c).outs = (s.ctx n m c).outs := by
  have run : s.chainEnd n m c = (s.setCtx n m c { s.ctx n m c with phase := .held }).leBoundary n m := by
    simp [State.chainEnd, fixed, inTime]
  rw [run, State.ctx_congr (State.leBoundary_les _ n m)]
  exact State.ctx_setCtx_part CtxRec.outs s n m c { s.ctx n m c with phase := .held } rfl c

end Sys2Proof.Machine
end

section
/-!
Reads of a stage (R88 to R90, R122).
-/
set_option Elab.async false
namespace Sys2Proof.Machine
open Sys2Proof

/-! ### What a stage's reads leave -/

/-- The registers that reads of exchange words write: refusals and corrections. -/
def readRegs : List Nat := [R.XM_STATUS, R.XM_FAULT_ADDR, R.CAL_STATUS] ++ correctionRegs

/-- What an execution goes by: position, phase and lost triggers; timing, and the outputs that the context holds. -/
def CtxRec.run (x : CtxRec) : (Nat × CtxPhase × Bool × Bool) × Bool × Bool × List OutAct :=
  ((x.stage, x.phase, x.lost, x.lostBefore), x.fixed, x.overrun, x.outs)

/-- What reads of operands leave of the state. -/
structure ReadsOnly (n m c : Nat) (s t : State) : Prop where
  regs : RegsSet readRegs s t
  run : (t.ctx n m c).run = (s.ctx n m c).run
  relays : (t.le n m).relays = (s.le n m).relays
  rest : Touch 0xC900007 s t

theorem ReadsOnly.refl (n m c : Nat) (s : State) : ReadsOnly n m c s s := ⟨.refl _ s, rfl, rfl, .refl⟩

theorem ReadsOnly.trans {n m c : Nat} {s t u : State} (h : ReadsOnly n m c s t) (k : ReadsOnly n m c t u) :
    ReadsOnly n m c s u := ⟨h.regs.trans k.regs, k.run.trans h.run, k.relays.trans h.relays, h.rest.trans k.rest⟩

theorem State.eccFound_regsSet (s : State) (mem a : Nat) : RegsSet correctionRegs s (s.eccFound mem a false) := by
  unfold State.eccFound
  have counted (u : State) : RegsSet correctionRegs u (u.meCount true) :=
    (State.setReg_regsSet _ _ _).mono (by simp [correctionRegs])
  have shown (u : State) : RegsSet correctionRegs u (u.meLast 1 mem a) :=
    ((State.setReg_regsSet _ _ _).mono (by simp [correctionRegs])).trans
      ((State.setReg_regsSet _ _ _).mono (by simp [correctionRegs]))
  have flagged (u : State) : RegsSet correctionRegs u (u.flag R.ME_STATUS 1) :=
    (State.flag_regsSet _ _ _).mono (by simp [correctionRegs])
  exact (((counted _).trans (shown _)).trans (flagged _)).trans (.of_regs rfl _)

theorem correctionRegs_sub : correctionRegs ⊆ readRegs := List.subset_append_right _ _

theorem State.eccAccess_regsSet (s : State) (a : Nat) : RegsSet readRegs s (s.eccAccess a) := by
  unfold State.eccAccess
  split
  · exact .ite (((s.eccFound_regsSet _ _).mono correctionRegs_sub).trans ((State.flag_regsSet _ _ _).mono (by simp [readRegs])))
      ((s.eccFound_regsSet _ _).mono correctionRegs_sub)
  · exact .refl _ s

theorem State.xmRefuse_regsSet (s : State) (w f : Nat) : RegsSet [R.XM_STATUS, R.XM_FAULT_ADDR] s (s.xmRefuse w f) :=
  ((State.flag_regsSet _ _ _).mono (by simp)).trans ((State.setReg_regsSet _ _ _).mono (by simp))

theorem State.xmRead_regsSet (s : State) (d port w : Nat) : RegsSet readRegs s (s.xmRead d port w).2 := by
  unfold State.xmRead
  split
  · exact (s.xmRefuse_regsSet _ _).mono (by simp [readRegs])
  · split
    · exact s.eccAccess_regsSet _
    · exact (s.eccRead_regsSet _).mono correctionRegs_sub

/-- An access over a way of the fabric leaves what the access leaves, where reports do. -/
theorem RegsSet.leExchange {l : List Nat} {s : State} {n : Nat} {f : State → BusResult × State} (hf : ∀ t, RegsSet l t (f t).2) :
    RegsSet l s (s.leExchange n f).2 := by
  unfold State.leExchange State.overPath
  split
  · split
    · exact hf s
    · exact RegsSet.trans (.of_regs rfl _) (hf _)
    · exact .of_regs rfl _
  · exact .refl _ s

theorem State.mkConsume_les (s : State) (n k : Nat) : (s.mkConsume n k).les = s.les := rfl

theorem State.takeItems_readsOnly (s : State) (n m c i : Nat) : ReadsOnly n m c s (s.takeItems n m c i).2 := by
  refine ⟨.of_regs (State.takeItems_touch.sameBut (by decide : masksOnly _ [.les, .mks] = true) .regs (by decide)) _, ?_, ?_, .of State.takeItems_touch⟩
  · unfold State.takeItems
    dsimp only
    split
    · rfl
    · have same (v : Store (List Word)) : ((s.setCtx n m c { s.ctx n m c with items := v }).ctx n m c).run = (s.ctx n m c).run :=
        State.ctx_setCtx_part CtxRec.run s n m c { s.ctx n m c with items := v } rfl c
      dsimp only
      split
      · exact same _
      · exact same _
  · unfold State.takeItems
    dsimp only
    split
    · rfl
    · dsimp only
      split
      · exact s.setCtx_relays n m c _
      · exact s.setCtx_relays n m c _

theorem State.operand_readsOnly (s : State) (n m c a : Nat) : ReadsOnly n m c s (s.operand n m c a).2 := by
  have exchange : ReadsOnly n m c s (s.leExchange n (fun t => t.xmRead (t.leDomain n m) (t.lePort n m) (a - 0x4000))).2 := by
    have touch : Touch 0xC000007 s (s.leExchange n (fun t => t.xmRead (t.leDomain n m) (t.lePort n m) (a - 0x4000))).2 :=
      State.leExchange_touch fun _ => State.xmRead_touch
    exact ⟨.leExchange fun t => t.xmRead_regsSet _ _ _,
      congrArg CtxRec.run (State.ctx_congr (touch.sameBut (by decide : masksOnly _ [.due, .regs, .scCount, .ecc, .macros] = true) .les (by decide)) n m c),
      congrArg LeRec.relays (State.le_congr (touch.sameBut (by decide : masksOnly _ [.due, .regs, .scCount, .ecc, .macros] = true) .les (by decide)) n m),
      .of touch⟩
  unfold State.operand
  split
  case h_2 =>
    split
    next e => exact (congrArg Prod.snd e) ▸ exchange
    next e => exact (congrArg Prod.snd e) ▸ exchange
  case h_5 => exact s.takeItems_readsOnly n m c _
  case h_6 => exact s.takeItems_readsOnly n m c _
  all_goals exact .refl n m c s

theorem State.operands_readsOnly (n m c : Nat) : ∀ (w a : Nat) (s : State), ReadsOnly n m c s (s.operands n m c a w).2
  | 0, _, s => .refl n m c s
  | w + 1, a, s => (s.operand_readsOnly n m c a).trans (State.operands_readsOnly n m c w (a + 1) _)

theorem State.gather_readsOnly (n m c : Nat) (h : Hdr) (f : Form) :
    ∀ (r k : Nat) (s : State), ReadsOnly n m c s (s.gather n m c h f k r).2
  | 0, _, s => .refl n m c s
  | r + 1, k, s => ((State.operands_readsOnly n m c _ _ s).trans (State.operands_readsOnly n m c _ _ _)).trans
      (State.gather_readsOnly n m c h f r (k + 1) _)

theorem State.length_gather (n m c : Nat) (h : Hdr) (f : Form) :
    ∀ (r k : Nat) (s : State), (s.gather n m c h f k r).1.length = r
  | 0, _, _ => rfl
  | r + 1, k, _ => congrArg (· + 1) (State.length_gather n m c h f r (k + 1) _)

end Sys2Proof.Machine
end

section
/-!
Writes of exchange words (R18 to R23).
-/
set_option Elab.async false
namespace Sys2Proof.Machine
open Sys2Proof

/-! ### Writes to exchange words -/

theorem State.wordNow_noteWord_ne (s : State) (x : XmWordNow) {w : Nat} (h : w ≠ x.word) :
    (s.noteWord x).wordNow w = s.wordNow w := by
  have filtered : ∀ l : List XmWordNow, (l.filter (fun y => y.word != x.word)).find? (fun y => y.word == w) = l.find? (fun y => y.word == w) := by
    intro l
    induction l with
    | nil => rfl
    | cons y l ih =>
      by_cases e : y.word = w
      · simp [e, h]
      · by_cases d : y.word = x.word
        · simp [d, Ne.symm h, ih]
        · simp [d, e, ih]
  rw [State.wordNow, State.noteWord, State.wordNow, List.find?_append, filtered]
  simp [Ne.symm h]

theorem State.xmSet_bytesBut (s : State) (w : Nat) (v : Word) : BytesBut (xmAddr w) 4 s (s.xmSet w v) :=
  s.setMword_bytesBut _ _

theorem State.xmPut_bytesBut (s : State) (port w : Nat) (v : Word) : BytesBut (xmAddr w) 4 s (s.xmPut port w v) := by
  unfold State.xmPut
  split
  · exact BytesBut.trans (fun _ _ => rfl) (State.xmSet_bytesBut _ w v)
  · split
    · exact BytesBut.trans (fun _ _ => rfl) (State.xmSet_bytesBut _ w v)
    · exact fun _ _ => rfl

theorem BytesBut.widen {a n b k : Nat} {s t : State} (h : BytesBut a n s t) (low : b ≤ a) (high : a + n ≤ b + k) : BytesBut b k s t :=
  fun x hx => h x (by omega)

theorem State.xmPutAll_bytesBut (port : Nat) : ∀ (vs : List Word) (w : Nat) (s : State),
    BytesBut (xmAddr w) (4 * vs.length) s (s.xmPutAll port w vs)
  | [], _, _ => fun _ _ => rfl
  | v :: vs, w, s => by
    have first := (s.xmPut_bytesBut port w v).widen (Nat.le_refl (xmAddr w)) (k := 4 * (v :: vs).length) (by simp)
    have rest := (State.xmPutAll_bytesBut port vs (w + 1) (s.xmPut port w v)).widen (b := xmAddr w) (k := 4 * (v :: vs).length)
      (by unfold xmAddr; omega) (by simp [xmAddr]; omega)
    exact first.trans rest

theorem State.mword_congr {s t : State} (h : t.mem = s.mem) (a : Nat) : t.mword a = s.mword a := by
  simp only [State.mword_eq_wordOfBytes, State.byte, h]

theorem State.wordNow_congr {s t : State} (h : t.xmNow.words = s.xmNow.words) (w : Nat) : t.wordNow w = s.wordNow w := by
  rw [State.wordNow, State.wordNow, h]

theorem State.xmSet_xmNow (s : State) (w : Nat) (v : Word) : (s.xmSet w v).xmNow = s.xmNow := rfl

theorem State.mword_xmSet_self (s : State) (w : Nat) (v : Word) : (s.xmSet w v).mword (xmAddr w) = v := by
  have same : (s.xmSet w v).mem = (s.setMword (xmAddr w) v).mem := rfl
  exact (State.mword_congr same _).trans (s.mword_setMword_self _ _)

/-- A first write of a word in its cycle stands. -/
theorem State.xmPut_first {s : State} {port w : Nat} {v : Word} (first : s.wordNow w = none) :
    (s.xmPut port w v).mword (xmAddr w) = v ∧ ∀ k, k ≠ w → (s.xmPut port w v).wordNow k = s.wordNow k := by
  have run : s.xmPut port w v = (s.noteWord ⟨w, port, [port], s.mword (xmAddr w), s.xmStamp w⟩).xmSet w v := by
    simp only [State.xmPut, first]
  rw [run]
  exact ⟨State.mword_xmSet_self _ _ _, fun k hk =>
    (State.wordNow_congr (congrArg XmCycle.words (State.xmSet_xmNow _ _ _)) k).trans
    (s.wordNow_noteWord_ne ⟨w, port, [port], s.mword (xmAddr w), s.xmStamp w⟩ hk)⟩

theorem State.xmPutAll_words (port : Nat) : ∀ (vs : List Word) (w : Nat) (s : State),
    (∀ j < vs.length, s.wordNow (w + j) = none) → ∀ j < vs.length, (s.xmPutAll port w vs).mword (xmAddr (w + j)) = vs.getD j 0#32
  | [], _, _, _, _, hj => absurd hj (Nat.not_lt_zero _)
  | v :: vs, w, s, free, j, hj => by
    obtain ⟨written, others⟩ := State.xmPut_first (port := port) (v := v) (free 0 (Nat.succ_pos _))
    have rest : ∀ k < vs.length, (s.xmPut port w v).wordNow (w + 1 + k) = none := by
      intro k hk
      rw [Nat.add_zero] at others
      rw [others _ (by omega), Nat.add_assoc, Nat.add_comm 1 k]
      exact free (k + 1) (Nat.succ_lt_succ hk)
    cases j with
    | zero => exact ((State.xmPutAll_bytesBut port vs (w + 1) _).mword_eq (.inl (by unfold xmAddr; omega))).trans written
    | succ j =>
      have next : w + (j + 1) = w + 1 + j := by omega
      rw [next, List.getD_cons_succ]
      exact State.xmPutAll_words port vs (w + 1) _ rest j (Nat.lt_of_succ_lt_succ hj)

/-- The registers in which writes of frames count. -/
def genReg (a : Nat) : Prop := ∃ f, a = R.XM_FRAME_GENf f

theorem State.frameWritten_keeps (s : State) (port f : Nat) (first last : Bool) :
    RegsIn genReg s (s.frameWritten port f first last) ∧ (s.frameWritten port f first last).mem = s.mem
      ∧ (s.frameWritten port f first last).xmNow.words = s.xmNow.words := by
  unfold State.frameWritten
  dsimp only
  refine ⟨RegsIn.trans (.of_regs ?_ _) (State.setReg_regsIn _ ⟨f, rfl⟩ _), ?_, ?_⟩ <;> rfl

theorem State.xmAdvance_keeps (s : State) (port lo n : Nat) :
    RegsIn genReg s (s.xmAdvance port lo n) ∧ (s.xmAdvance port lo n).mem = s.mem
      ∧ (s.xmAdvance port lo n).xmNow.words = s.xmNow.words := by
  have written : ∀ (first last : Nat → Bool) (l : List Nat) (t : State),
      RegsIn genReg t (l.foldl (fun t f => t.frameWritten port f (first f) (last f)) t)
        ∧ (l.foldl (fun t f => t.frameWritten port f (first f) (last f)) t).mem = t.mem
        ∧ (l.foldl (fun t f => t.frameWritten port f (first f) (last f)) t).xmNow.words = t.xmNow.words := by
    intro first last l
    induction l with
    | nil => exact fun t => ⟨.refl _ t, rfl, rfl⟩
    | cons f l ih =>
      intro t
      obtain ⟨regs1, mem1, words1⟩ := t.frameWritten_keeps port f (first f) (last f)
      obtain ⟨regs, mem, words⟩ := ih (t.frameWritten port f (first f) (last f))
      exact ⟨regs1.trans regs, mem.trans mem1, words.trans words1⟩
  exact written _ _ _ s

/-- What a write of consecutive exchange words leaves, whether or not it is refused. -/
theorem State.xmWrite_keeps (s : State) (d port w : Nat) (vs : List Word) :
    RegsIn (fun a => a ∈ [R.XM_STATUS, R.XM_FAULT_ADDR] ∨ genReg a) s (s.xmWrite d port w vs).2
      ∧ BytesBut (xmAddr w) (4 * vs.length) s (s.xmWrite d port w vs).2 := by
  unfold State.xmWrite
  split
  · exact ⟨(s.xmRefuse_regsSet _ _).regsIn fun _ h => .inl h,
      (State.xmRefuse_touch.sameBut (by decide : masksOnly _ [.regs, .scCount] = true)).bytesBut (by decide) _ _⟩
  · obtain ⟨regs, mem, -⟩ := s.xmAdvance_keeps port w vs.length
    exact ⟨(regs.mono fun _ h => .inr h).trans (State.xmPutAll_touch.regsIn _),
      BytesBut.trans (fun b _ => by rw [State.byte, State.byte, mem]) (State.xmPutAll_bytesBut port vs w _)⟩

/-- A write that no word refuses, to words that nothing has written in this cycle. -/
theorem State.xmWrite_words {s : State} {d port w : Nat} {vs : List Word}
    (may : ∀ j < vs.length, s.xmRefusal d (w + j) true = none) (free : ∀ j < vs.length, s.wordNow (w + j) = none) :
    (s.xmWrite d port w vs).1 = .done ∧ ∀ j < vs.length, (s.xmWrite d port w vs).2.mword (xmAddr (w + j)) = vs.getD j 0#32 := by
  have none : (List.range vs.length).find? (fun i => (s.xmRefusal d (w + i) true).isSome) = .none :=
    List.find?_eq_none.mpr fun i hi => by simp [may i (List.mem_range.mp hi)]
  obtain ⟨-, -, words⟩ := s.xmAdvance_keeps port w vs.length
  simp only [State.xmWrite, none]
  exact ⟨trivial, State.xmPutAll_words port vs w _ fun j hj => (State.wordNow_congr words _).trans (free j hj)⟩

/-! ### Outputs of a stage to exchange words -/

/-- What an output of context `(n, m, c)` to the exchange memory leaves: registers but for refusals, counts of frames and the
context's flags; memory but for the words. -/
structure ExchangeOut (n m c w len : Nat) (s t : State) : Prop where
  regs : RegsIn (fun a => a ∈ [R.XM_STATUS, R.XM_FAULT_ADDR, R.LE_CTXc_STATUS n m c] ∨ genReg a) s t
  status : ∀ i < 23, s.rb (R.LE_CTXc_STATUS n m c) i = true → t.rb (R.LE_CTXc_STATUS n m c) i = true
  mem : BytesBut (xmAddr w) (4 * len) s t

theorem LE_CTXc_STATUS_not_xm (n : Fin 16) (m : Fin 6) (c : Fin 8) :
    ¬ (R.LE_CTXc_STATUS n m c ∈ [R.XM_STATUS, R.XM_FAULT_ADDR] ∨ genReg (R.LE_CTXc_STATUS n m c)) := by
  rintro (h | ⟨f, h⟩)
  · simp only [List.mem_cons, List.not_mem_nil, or_false, R.LE_CTXc_STATUS, R.XM_STATUS, R.XM_FAULT_ADDR] at h
    omega
  · simp only [R.LE_CTXc_STATUS, R.XM_FRAME_GENf] at h
    omega

theorem State.leExchange_write_keeps (s : State) (n : Fin 16) (m : Fin 6) (c : Fin 8) (w : Nat) (vs : List Word) :
    ExchangeOut n m c w vs.length s (s.leExchange n (fun t => t.xmWrite (t.leDomain n m) (t.lePort n m) w vs)).2 := by
  have direct (t : State) : ExchangeOut n m c w vs.length t (t.xmWrite (t.leDomain n m) (t.lePort n m) w vs).2 := by
    obtain ⟨regs, mem⟩ := t.xmWrite_keeps (t.leDomain n m) (t.lePort n m) w vs
    refine ⟨regs.mono ?_, fun i _ set => (regs.rb_eq (LE_CTXc_STATUS_not_xm n m c) i).trans set, mem⟩
    rintro a (h | h)
    · exact .inl (by simp at h ⊢; tauto)
    · exact .inr h
  unfold State.leExchange State.overPath
  split
  · split
    · exact direct s
    · obtain ⟨regs, status, mem⟩ := direct (s.report 0x1C0 0x1C0 0x12 0#32)
      exact ⟨RegsIn.trans (.of_regs rfl _) regs, status, BytesBut.trans (fun _ _ => rfl) mem⟩
    · exact ⟨(State.report_touch : Touch _ s (s.report 0x1C0 0x1C0 0x13 0#32)).regsIn _, fun _ _ set => set, fun _ _ => rfl⟩
  · exact ⟨.refl _ s, fun _ _ set => set, fun _ _ => rfl⟩

theorem State.leOutput_exchange_keeps (s : State) (n : Fin 16) (m : Fin 6) (c : Fin 8) (w : Nat) (vs : List Word) :
    ExchangeOut n m c w vs.length s (s.leOutput n m c (.exchange w vs)) := by
  obtain ⟨regs, status, mem⟩ := s.leExchange_write_keeps n m c w vs
  unfold State.leOutput
  dsimp only
  split
  next e =>
    have same := congrArg Prod.snd e
    dsimp only at same
    rw [same] at regs status mem
    refine ⟨regs.trans (State.flag_regsIn _ (.inl (by simp)) _), fun i hi set => ?_,
      mem.trans ((State.flag_touch.sameBut (by decide : masksOnly _ [.regs, .scCount] = true)).bytesBut (by decide) _ _)⟩
    by_cases flag : i = 7
    · rw [flag]
      exact State.rb_flag_self _ _ _ (by decide)
    · rw [State.rb_flag_other _ _ _ _ (by decide) hi flag]
      exact status i hi set
  next e =>
    have same := congrArg Prod.snd e
    dsimp only at same
    rw [same] at regs status mem
    exact ⟨regs, status, mem⟩

/-- An output that nothing refuses stands in the exchange memory. -/
theorem State.leOutput_exchange_words {s : State} {n m c w : Nat} {vs : List Word} (up : s.XmOpen n)
    (may : ∀ j < vs.length, s.xmRefusal (s.leDomain n m) (w + j) true = none) (free : ∀ j < vs.length, s.wordNow (w + j) = none) :
    ∀ j < vs.length, (s.leOutput n m c (.exchange w vs)).mword (xmAddr (w + j)) = vs.getD j 0#32 := by
  obtain ⟨pathUp, good⟩ := up
  have passes (t : State) (may : ∀ j < vs.length, t.xmRefusal (t.leDomain n m) (w + j) true = none)
      (free : ∀ j < vs.length, t.wordNow (w + j) = none) :=
    State.xmWrite_words (port := t.lePort n m) may free
  unfold State.leOutput State.leExchange State.overPath
  dsimp only
  rw [if_pos pathUp]
  cases path : s.pathTo 0x28000000 with
  | bad => exact absurd path good
  | good =>
    obtain ⟨done, words⟩ := passes s may free
    dsimp only
    split
    next e => exact absurd ((congrArg Prod.fst e).symm.trans done) (by simp)
    next e =>
      rw [show _ = _ from congrArg Prod.snd e] at words
      exact words
  | flaky =>
    obtain ⟨done, words⟩ := passes (s.report 0x1C0 0x1C0 0x12 0#32) may free
    dsimp only
    split
    next e => exact absurd ((congrArg Prod.fst e).symm.trans done) (by simp)
    next e =>
      rw [show _ = _ from congrArg Prod.snd e] at words
      exact words

end Sys2Proof.Machine
end

section
/-!
The stage that a command dispatches (R96 to R98, R105).
-/
set_option Elab.async false
namespace Sys2Proof.Machine
open Sys2Proof

/-! ### The stage that a command dispatches -/

/-- What the look along a chain finds: the header at that position, sound and not skipped. -/
theorem State.findStage_stage {s : State} {n m base j : Nat} {h : Hdr} : ∀ (r i : Nat), s.findStage n m base i r = .stage j h →
    h = s.header n m (base + j) ∧ base + j < 4096 ∧ s.headerBad n m h = false
  | 0, _, found => absurd found (by simp [State.findStage])
  | r + 1, i, found => by
    simp only [State.findStage] at found
    split at found
    next => exact absurd found (by simp)
    next bad =>
      split at found
      next => exact State.findStage_stage r (i + 1) found
      next =>
        injection found with hi hh
        subst hi hh
        simp only [Bool.or_eq_true, decide_eq_true_eq, not_or, Bool.not_eq_true] at bad
        exact ⟨rfl, by omega, bad.2⟩

section
variable {s : State} {n m c typ i : Nat} {h : Hdr} {f : Form} (d : s.Dispatches n m c typ i h f)
include d

theorem State.Dispatches.header : h = (s.ctxBegin n m c).header n m (((s.ctxBegin n m c).chainOf n m c).1 + i)
    ∧ (s.ctxBegin n m c).headerBad n m h = false := by
  obtain ⟨hdr, -, bad⟩ := State.findStage_stage _ _ d.finds
  exact ⟨hdr, bad⟩

theorem State.Dispatches.count_le : h.count ≤ 16 := by
  have lanes : h.lanes < 16 := by
    rw [d.header.1]
    exact fld_lt _ _ _
  unfold Hdr.count
  omega

theorem State.Dispatches.out_lt : h.out < 0x10000 := by
  rw [d.header.1]
  exact fld_lt _ _ _

theorem State.Dispatches.form : formOf h ((s.ctxBegin n m c).headP0 n m h) = some f := by
  have same : (s.ctxBegin n m c).headP0 n m h = s.headP0 n m h := by
    have desc (k : Nat) : (s.ctxBegin n m c).desc n m k = s.desc n m k :=
      State.mword_congr (State.ctxBegin_touch.sameBut (by decide : masksOnly _ [.les] = true) .mem (by decide)) _
    simp only [State.headP0, desc]
  rw [same, d.shape]

/-- No word that the stage reads is in error, and none needs a correction. -/
theorem State.Dispatches.reads_good :
    (s.ctxBegin n m c).stageEcc n m (((s.ctxBegin n m c).chainOf n m c).1 + i) h = none
      ∧ (s.ctxBegin n m c).stageCorrects n m (((s.ctxBegin n m c).chainOf n m c).1 + i) h = s.ctxBegin n m c := by
  have marks (a : Nat) : (s.ctxBegin n m c).eccMark a = s.eccMark a :=
    State.eccMark_congr (State.ctxBegin_touch.sameBut (by decide : masksOnly _ [.les] = true) .ecc (by decide)) a
  have good : ∀ a ∈ (s.ctxBegin n m c).stageReads n m (((s.ctxBegin n m c).chainOf n m c).1 + i) h, (s.ctxBegin n m c).eccMark a = .good :=
    fun a ha => (marks a).trans (d.good a ha)
  generalize s.ctxBegin n m c = b at *
  have corrected : ∀ l : List Nat, (∀ a ∈ l, b.eccMark a = .good) → l.foldl State.eccRead b = b := by
    intro l
    induction l with
    | nil => exact fun _ => rfl
    | cons a l ih =>
      intro marks
      rw [List.foldl_cons, State.eccRead_of_good (marks a List.mem_cons_self)]
      exact ih fun x hx => marks x (List.mem_cons_of_mem a hx)
  constructor
  · unfold State.stageEcc
    split
    · rfl
    · exact List.find?_eq_none.mpr fun a ha => by simp [State.eccBad, good a ha]
  · unfold State.stageCorrects
    split
    · rfl
    · exact corrected _ good

/-- A stage command that its engine dispatches, with clean residues. -/
theorem State.Dispatches.stageCmd_clean (pass : Nat) (run : State → Nat → Hdr → State) :
    s.stageCmd typ n m c .clean pass run = run (s.ctxBegin n m c) i h := by
  obtain ⟨sound, still⟩ := d.reads_good
  simp only [State.stageCmd, d.works, d.turn, d.finds, d.kind, sound, still, Bool.not_true, bne_self_eq_false, Bool.or_self,
    Bool.false_eq_true, if_false, ne_eq, not_true_eq_false]

end

/-! ### Words of the state memory -/

theorem State.commit_bytesBut (s : State) (n m c i : Nat) (vs : List Word) :
    BytesBut (stateAddr n m i) (4 * vs.length) s (s.commit n m c i vs) := by
  unfold State.commit
  split
  · exact fun _ _ => rfl
  · exact (State.storeWords_bytesBut vs _ s).trans
      ((State.mkCommit_touch.sameBut (by decide : masksOnly _ [.mks] = true)).bytesBut (by decide) _ _)

theorem State.commit_stateMem (s : State) (n m c i : Nat) (vs : List Word) (a : Nat) :
    (s.commit n m c i vs).stateMem n m a = if i ≤ a ∧ a < i + vs.length then vs.getD (a - i) 0#32 else s.stateMem n m a := by
  split
  next inside =>
    obtain ⟨low, high⟩ := inside
    have some : vs ≠ [] := by
      rintro rfl
      simp at high
      omega
    have at' : stateAddr n m a = stateAddr n m i + 4 * (a - i) := by unfold stateAddr; omega
    rw [State.stateMem, State.commit, if_neg some, State.mword_congr
      (State.mkCommit_touch.sameBut (by decide : masksOnly _ [.mks] = true) .mem (by decide)), at']
    exact State.mword_storeWords vs _ _ s (by omega)
  next outside =>
    exact (s.commit_bytesBut n m c i vs).mword_eq (by unfold stateAddr; omega)

/-! ### What decides about a write of exchange words -/

/-- Registers that a rule on exchange words reads: the frames and the Secure domains. -/
def xmRule (a : Nat) : Prop := (xmFrameIndex a).isSome = true ∨ a = R.SYS_DOMAIN_SEC

theorem RegsIn.xmFrames_eq {P : Nat → Prop} {s t : State} (h : RegsIn P s t) (out : ∀ a, P a → ¬ xmRule a) :
    t.xmFrames = s.xmFrames := by
  obtain ⟨ws, hws, e⟩ := h
  unfold State.xmFrames
  rw [e]
  clear e
  generalize s.regs = r
  induction ws generalizing r with
  | nil => rfl
  | cons w ws ih =>
    rw [regsAfter, List.foldl_cons]
    refine (ih (fun x hx => hws x (List.mem_cons_of_mem w hx)) _).trans (Store.filterMap_set (fun u => ?_) _ _)
    have none : xmFrameIndex w.1 = .none := by
      simpa using fun some => out _ (hws w List.mem_cons_self) (.inl some)
    rw [none]

theorem xmRule_of_mem_xmFrames {s : State} {f : Nat} (h : f ∈ s.xmFrames) : xmRule (R.XM_FRAME_CFGf f) := by
  obtain ⟨e, -, he⟩ := List.mem_filterMap.mp h
  have small : f < 1024 := by
    split at he
    next k hk =>
      have lt : k < 1024 := by
        unfold xmFrameIndex at hk
        split at hk
        · simp only [Option.some.injEq] at hk
          omega
        · exact absurd hk (by simp)
      split at he
      · simp only [Option.some.injEq] at he
        omega
      · exact absurd he (by simp)
    next => exact absurd he (by simp)
  left
  unfold xmFrameIndex
  rw [if_pos (by unfold R.XM_FRAME_CFGf; omega)]
  rfl

theorem RegsIn.xmRefusal_eq {P : Nat → Prop} {s t : State} (h : RegsIn P s t) (out : ∀ a, P a → ¬ xmRule a) (d w : Nat)
    (write : Bool) : t.xmRefusal d w write = s.xmRefusal d w write := by
  have stands {a : Nat} (ha : xmRule a) : t.reg a = s.reg a := h.reg_eq fun hp => out a hp ha
  have frame : t.xmFrameOf w = s.xmFrameOf w := by
    rw [State.xmFrameOf, State.xmFrameOf, h.xmFrames_eq out]
    refine List.find?_congr fun f hf => ?_
    have base : t.xmBase f = s.xmBase f := congrArg (fld · 13 0) (stands (xmRule_of_mem_xmFrames hf))
    have size : t.rf (R.XM_FRAME_CFGf f) 25 20 = s.rf (R.XM_FRAME_CFGf f) 25 20 :=
      congrArg (fld · 25 20) (stands (xmRule_of_mem_xmFrames hf))
    rw [State.xmLast, State.xmLast, base, size]
  have rule : ∀ f, s.xmFrameOf w = some f → xmRule (R.XM_FRAME_CFGf f) := fun f hf =>
    xmRule_of_mem_xmFrames (List.mem_of_find?_eq_some hf)
  have sec : t.domSecure d = s.domSecure d := congrArg (d == 0 || bit · d) (stands (.inr rfl))
  have secure : t.xmSecure w = s.xmSecure w := by
    rw [State.xmSecure, State.xmSecure, frame]
    cases e : s.xmFrameOf w with
    | none => rfl
    | some f => exact congrArg (bit · 30) (stands (rule f e))
  have owner : t.xmOwner w = s.xmOwner w := by
    rw [State.xmOwner, State.xmOwner, frame]
    cases e : s.xmFrameOf w with
    | none => rfl
    | some f => exact congrArg (fld · 29 26) (stands (rule f e))
  rw [State.xmRefusal, State.xmRefusal, sec, secure, owner]

theorem readRegs_not_xmRule : ∀ a ∈ readRegs, ¬ xmRule a := by
  unfold xmRule
  decide

end Sys2Proof.Machine
end

section
/-!
What a stage leaves (R97, R105, R122, R127).
-/
set_option Elab.async false
namespace Sys2Proof.Machine
open Sys2Proof

/-! ### The end of a stage -/

theorem State.stageDone_ends {s : State} (sound : s.Sound) (n m : Nat) {c : Nat} (hc : c < 8) (i : Nat) :
    RegsIn (chainReg n m c) s (s.stageDone n m c i) ∧ DescOnly s (s.stageDone n m c i)
      ∧ ((s.stageDone n m c i).ctx n m c).stage = i + 1
      ∧ ((s.ctx n m c).fixed = true → (s.ctx n m c).overrun = false →
          ((s.stageDone n m c i).ctx n m c).outs = (s.ctx n m c).outs) := by
  have moved : (s.setCtx n m c { s.ctx n m c with stage := i + 1, pass := 0, kept := [] }).ctx n m c
      = { s.ctx n m c with stage := i + 1, pass := 0, kept := [] } := by
    rw [State.ctx_setCtx, if_pos ⟨rfl, by rw [sound.ctxs_length]; exact hc⟩]
  have sound' := (State.setCtx_touch (n := n) (m := m) (c := c) (x := { s.ctx n m c with stage := i + 1, pass := 0, kept := [] })).sound sound
  have mem : (s.setCtx n m c { s.ctx n m c with stage := i + 1, pass := 0, kept := [] }).mem = s.mem := rfl
  have regs : (s.setCtx n m c { s.ctx n m c with stage := i + 1, pass := 0, kept := [] }).regs = s.regs := rfl
  unfold State.stageDone
  dsimp only
  generalize s.setCtx n m c { s.ctx n m c with stage := i + 1, pass := 0, kept := [] } = t at *
  split
  · obtain ⟨ends, desc, stage, -, -⟩ := sound'.chainEnd n m c
    refine ⟨RegsIn.trans (.of_regs regs _) ends, (DescOnly.of_mem mem).trans desc, (stage c).trans (congrArg CtxRec.stage moved),
      fun fixed inTime => ?_⟩
    exact (State.chainEnd_outs ((congrArg CtxRec.fixed moved).trans fixed) ((congrArg CtxRec.overrun moved).trans inTime)).trans
      ((congrArg CtxRec.outs moved).trans rfl)
  · exact ⟨.of_regs regs _, .of_mem mem, congrArg CtxRec.stage moved,
      fun _ _ => (congrArg CtxRec.outs moved).trans rfl⟩

theorem descWord_stateAddr {n m a : Nat} (hn : n < 16) (hm : m < 6) (ha : a < 8192) : ∀ k < 4, descWord (stateAddr n m a + k) = none := by
  intro k hk
  unfold descWord islandOf stateAddr
  rw [if_pos (by omega)]
  dsimp only
  rw [if_neg (by omega)]

theorem descWord_xmAddr {w : Nat} (hw : w < 0x100000) : ∀ k < 4, descWord (xmAddr w + k) = none := by
  intro k hk
  unfold descWord islandOf xmAddr
  rw [if_neg (by omega)]

/-- The state from which a stage of context `(n, m, c)` commits, `b` being the state in which its execution goes on: its
reads are done, and of its outputs those in `pre` are out. -/
structure State.Prepared (s : State) (n m c : Nat) (pre : List OutAct) (g : State) : Prop where
  sound : g.Sound
  words : ∀ a < 8192, g.stateMem n m a = s.stateMem n m a
  overrun : (g.ctx n m c).overrun = ((s.ctxBegin n m c).ctx n m c).overrun
  fixed : (g.ctx n m c).fixed = ((s.ctxBegin n m c).ctx n m c).fixed
  held : ((s.ctxBegin n m c).ctx n m c).overrun = false → ((s.ctxBegin n m c).ctx n m c).fixed = true →
    (g.ctx n m c).outs = ((s.ctxBegin n m c).ctx n m c).outs ++ pre
  way : s.XmOpen n → g.XmOpen n
  free : ∀ w, g.wordNow w = s.wordNow w
  may : ∀ w, g.xmRefusal (g.leDomain n m) w true = s.xmRefusal (s.leDomain n m) w true

theorem State.pathUp_congr {s t : State} (links : t.links = s.links) (n : Nat) : t.pathUp n = s.pathUp n := by
  have up : ∀ k n, t.pathUpIn k n = s.pathUpIn k n := by
    intro k
    induction k with
    | zero => exact fun _ => rfl
    | succ k ih => intro n; simp only [State.pathUpIn, State.neighbourUp, State.link, links, ih]; rfl
  exact up 16 n

theorem State.XmOpen.congr {s t : State} {n : Nat} (links : t.links = s.links) (paths : t.paths = s.paths) (h : s.XmOpen n) :
    t.XmOpen n :=
  ⟨(State.pathUp_congr links n).trans h.1, by rw [State.pathTo, paths]; exact h.2⟩

theorem LE_OWNER_not_read (n m : Nat) : R.LE_OWNER n m ∉ readRegs := by
  simp only [readRegs, correctionRegs, R.LE_OWNER, R.XM_STATUS, R.XM_FAULT_ADDR, R.CAL_STATUS, R.ME_COUNTS, R.ME_LAST_ADDR,
    R.ME_LAST_INFO, R.ME_STATUS, List.cons_append, List.nil_append, List.mem_cons, List.not_mem_nil, or_false]
  omega

/-- Reads of operands prepare a stage. -/
theorem ReadsOnly.prepared {s g : State} {n m c : Nat} (sound : s.Sound)
    (h : ReadsOnly n m c (s.ctxBegin n m c) g) : s.Prepared n m c [] g := by
  obtain ⟨regs, run, -, rest⟩ := h
  have begun := (State.ctxBegin_touch : Touch _ s (s.ctxBegin n m c))
  have parts := begun.sameBut (by decide : masksOnly _ [.les] = true)
  have stays := rest.sameBut (by decide : masksOnly _ [.due, .regs, .scCount, .mks, .les, .ecc, .macros] = true)
  have regs' : RegsSet readRegs s g := RegsSet.trans (.of_regs (parts .regs (by decide)) _) regs
  simp only [CtxRec.run, Prod.mk.injEq] at run
  obtain ⟨-, fixed, overrun, outs⟩ := run
  have domain : g.leDomain n m = s.leDomain n m :=
    congrArg (fld · 3 0) (RegsIn.reg_eq regs' (LE_OWNER_not_read n m))
  refine ⟨rest.sound (begun.sound sound), fun a _ => ?_, overrun, fixed, fun _ _ => ?_, fun way => ?_, fun w => ?_, fun w => ?_⟩
  · exact State.mword_congr ((stays .mem (by decide)).trans (parts .mem (by decide))) _
  · rw [outs, List.append_nil]
  · exact way.congr ((stays .links (by decide)).trans (parts .links (by decide))) ((stays .paths (by decide)).trans (parts .paths (by decide)))
  · exact State.wordNow_congr (congrArg XmCycle.words ((stays .xmNow (by decide)).trans (parts .xmNow (by decide)))) w
  · rw [domain]
    exact RegsIn.xmRefusal_eq regs' readRegs_not_xmRule _ w true

theorem State.nonfinite_set (s : State) (n m c : Nat) : (s.nonfinite n m c true).rb (R.LE_CTXc_STATUS n m c) 5 = true := by
  rw [State.nonfinite, if_pos rfl]
  exact State.rb_flag_self _ _ _ (by decide)

/-- What the outputs of a stage leave: memory but for its words, the flags and the position; and where they stand. -/
structure PutOut (n m c out : Nat) (us : List Word) (s t : State) : Prop where
  sound : s.Sound → t.Sound
  mem : ∀ a < 8192, t.stateMem n m a =
    if regionOf out = some .state ∧ out ≤ a ∧ a < out + us.length then us.getD (a - out) 0#32 else s.stateMem n m a
  status : ∀ i < 23, s.rb (R.LE_CTXc_STATUS n m c) i = true → t.rb (R.LE_CTXc_STATUS n m c) i = true
  overrun : (t.ctx n m c).overrun = (s.ctx n m c).overrun
  fixed : (t.ctx n m c).fixed = (s.ctx n m c).fixed
  held : regionOf out = some .exchange → us ≠ [] → (s.ctx n m c).overrun = false → (s.ctx n m c).fixed = true →
    (t.ctx n m c).outs = (s.ctx n m c).outs ++ [.exchange (out - 0x4000) us]
  kept : (regionOf out ≠ some .exchange ∨ us = []) → (t.ctx n m c).outs = (s.ctx n m c).outs
  written : regionOf out = some .exchange → (s.ctx n m c).overrun = false → (s.ctx n m c).fixed = false → s.XmOpen n →
    (∀ j < us.length, s.wordNow (out - 0x4000 + j) = none) →
    (∀ j < us.length, s.xmRefusal (s.leDomain n m) (out - 0x4000 + j) true = none) →
    ∀ j < us.length, t.mword (xmAddr (out - 0x4000 + j)) = us.getD j 0#32

/-- Outputs that change no word and nothing that counts for the context. -/
theorem PutOut.of_silent {n m c out : Nat} {us : List Word} {s : State} (nothing : us = [] ∨ (regionOf out ≠ some .state ∧ regionOf out ≠ some .exchange)) :
    PutOut n m c out us s s := by
  have vacuous (a : Nat) : ¬ (regionOf out = some .state ∧ out ≤ a ∧ a < out + us.length) := by
    rintro ⟨region, low, high⟩
    rcases nothing with rfl | ⟨noState, -⟩
    · simp at high
      omega
    · exact noState region
  refine ⟨id, fun a _ => (if_neg (vacuous a)).symm, fun _ _ set => set, rfl, rfl, fun region some => ?_, fun _ => rfl, fun region => ?_⟩
  · rcases nothing with none | ⟨-, noExchange⟩
    · exact absurd none some
    · exact absurd region noExchange
  · rcases nothing with rfl | ⟨-, noExchange⟩
    · intro _ _ _ _ _ j hj
      exact absurd hj (Nat.not_lt_zero j)
    · exact absurd region noExchange

theorem stateAddr_apart_xm {n m a w k : Nat} (hw : w + k < 0x100000) : xmAddr w + 4 * k ≤ stateAddr n m a := by
  unfold xmAddr stateAddr
  omega

theorem State.commit_keeps (s : State) (n m c i : Nat) (vs : List Word) :
    SameBut [.mem, .ecc, .mks] s (s.commit n m c i vs) ∧ (s.Sound → (s.commit n m c i vs).Sound) :=
  ⟨State.commit_touch.sameBut, State.commit_touch.sound⟩

theorem State.putOut_state (s : State) (n m c : Nat) {out : Nat} {us : List Word} (region : regionOf out = some .state) (some : us ≠ []) :
    PutOut n m c out us s (s.putOut n m c out us) := by
  have run : s.putOut n m c out us = s.commit n m c out us := by
    simp only [State.putOut, if_neg some, region]
  obtain ⟨same, sound⟩ := s.commit_keeps n m c out us
  have ctx := State.ctx_congr (same .les (by decide)) n m c
  rw [run]
  refine ⟨sound, fun a _ => ?_, fun i _ set => (congrArg (bit · i) (same.reg_eq (by decide) _)).trans set, congrArg CtxRec.overrun ctx,
    congrArg CtxRec.fixed ctx, fun other => ?_, fun _ => congrArg CtxRec.outs ctx, fun other => ?_⟩
  · rw [State.commit_stateMem]
    simp only [region, true_and]
  all_goals
    rw [region] at other
    exact absurd other (by decide)

/-- The context with the tick of its last output. -/
def State.stamped (s : State) (n m c : Nat) : State := s.setCtx n m c { s.ctx n m c with lastOut := some s.absTick }

theorem State.stamped_run (s : State) (n m c : Nat) : ((s.stamped n m c).ctx n m c).run = (s.ctx n m c).run :=
  State.ctx_setCtx_part CtxRec.run s n m c { s.ctx n m c with lastOut := some s.absTick } rfl c

theorem State.stamped_sameBut (s : State) (n m c : Nat) : SameBut [.les] s (s.stamped n m c) := State.setCtx_touch.sameBut

theorem State.leOutputs_eq (s : State) (n m c : Nat) {acts : List OutAct} (some : acts ≠ []) :
    s.leOutputs n m c acts = if (s.ctx n m c).overrun then s.stamped n m c
      else if (s.ctx n m c).fixed then (s.stamped n m c).setCtx n m c
        { (s.stamped n m c).ctx n m c with outs := (s.ctx n m c).outs ++ acts }
      else acts.foldl (fun t o => t.leOutput n m c o) (s.stamped n m c) := by
  simp only [State.leOutputs, if_neg some]
  rfl

theorem State.XmOpen.of_sameBut {l : List Part} {s t : State} {n : Nat} (same : SameBut l s t) (hl : Part.links ∉ l := by decide)
    (hp : Part.paths ∉ l := by decide) (h : s.XmOpen n) : t.XmOpen n := h.congr (same .links hl) (same .paths hp)

section
variable (n : Fin 16) (m : Fin 6) (c : Fin 8) {out : Nat} {us : List Word} (low : out < 0x10000) (small : us.length ≤ 0x8000)
  (region : regionOf out = some .exchange) (some : us ≠ [])

theorem CtxRec.run_eq {x y : CtxRec} (h : x.run = y.run) :
    (x.stage, x.phase, x.lost, x.lostBefore) = (y.stage, y.phase, y.lost, y.lostBefore) ∧ x.fixed = y.fixed
      ∧ x.overrun = y.overrun ∧ x.outs = y.outs := by
  simpa only [CtxRec.run, Prod.mk.injEq] using h

include region in
theorem regionOf_exchange_vacuous (a : Nat) : ¬ (regionOf out = .some .state ∧ out ≤ a ∧ a < out + us.length) := by
  rintro ⟨state, -, -⟩
  rw [region] at state
  exact absurd state (by decide)

include low small region some in
theorem State.putOut_exchange {s : State} (sound : s.Sound) : PutOut n m c out us s (s.putOut n m c out us) := by
  have stamp := s.stamped_run n m c
  have same := s.stamped_sameBut n m c
  have touched : Touch _ s (s.stamped n m c) := State.setCtx_touch
  have run : s.putOut n m c out us = s.leOutputs n m c [.exchange (out - 0x4000) us] := by
    simp only [State.putOut, if_neg some, region]
  rw [run, State.leOutputs_eq _ _ _ _ (by simp)]
  generalize s.stamped n m c = u at *
  obtain ⟨-, fixed, overrun, outs⟩ := CtxRec.run_eq stamp
  have silent : (regionOf out ≠ .some .exchange ∨ us = []) → False := fun h => h.elim (fun k => k region) some
  split
  next late =>
    refine ⟨touched.sound, fun a _ => ?_, fun i _ set => (congrArg (bit · i) (same.reg_eq (by decide) _)).trans set, overrun,
      fixed, fun _ _ inTime => ?_, fun none => (silent none).elim, fun _ inTime => ?_⟩
    · rw [if_neg (regionOf_exchange_vacuous region a)]
      exact State.mword_congr (same .mem (by decide)) _
    all_goals
      rw [late] at inTime
      exact absurd inTime (by decide)
  next inTime =>
    split
    next held =>
      have moved := State.setCtx_touch (s := u) (n := n) (m := m) (c := c) (x := { u.ctx n m c with outs := (s.ctx n m c).outs ++ [.exchange (out - 0x4000) us] })
      have parts := moved.sameBut (by decide : masksOnly _ [.les] = true)
      have record : (u.setCtx n m c { u.ctx n m c with outs := (s.ctx n m c).outs ++ [.exchange (out - 0x4000) us] }).ctx n m c
          = { u.ctx n m c with outs := (s.ctx n m c).outs ++ [.exchange (out - 0x4000) us] } := by
        rw [State.ctx_setCtx, if_pos ⟨rfl, by rw [(touched.sound sound).ctxs_length]; exact c.isLt⟩]
      generalize u.setCtx n m c { u.ctx n m c with outs := (s.ctx n m c).outs ++ [.exchange (out - 0x4000) us] } = v at *
      refine ⟨fun h => moved.sound (touched.sound h), fun a _ => ?_,
        fun i _ set => (congrArg (bit · i) ((parts.reg_eq (by decide) _).trans (same.reg_eq (by decide) _))).trans set,
        (congrArg CtxRec.overrun record).trans overrun, (congrArg CtxRec.fixed record).trans fixed,
        fun _ _ _ _ => congrArg CtxRec.outs record, fun none => (silent none).elim, fun _ _ natural => ?_⟩
      · rw [if_neg (regionOf_exchange_vacuous region a)]
        exact State.mword_congr ((parts .mem (by decide)).trans (same .mem (by decide))) _
      · rw [held] at natural
        exact absurd natural (by decide)
    next natural =>
      rw [List.foldl_cons, List.foldl_nil]
      obtain ⟨regs, status, mem⟩ := u.leOutput_exchange_keeps n m c (out - 0x4000) us
      have ctx := congrArg CtxRec.run (State.ctx_congr (State.leOutput_touch.sameBut
        (by decide : masksOnly _ [.due, .regs, .scCount, .mem, .stamps, .tus, .ecc, .xmNow, .pulses] = true) .les (by decide) :
          (u.leOutput n m c (.exchange (out - 0x4000) us)).les = u.les) n m c)
      obtain ⟨-, fixed', overrun', outs'⟩ := CtxRec.run_eq ctx
      refine ⟨fun h => State.leOutput_touch.sound (touched.sound h), fun a _ => ?_,
        fun i hi set => status i hi ((congrArg (bit · i) (same.reg_eq (by decide) _)).trans set),
        overrun'.trans overrun, fixed'.trans fixed, fun _ _ _ fixed => absurd fixed natural, fun none => (silent none).elim,
        fun _ _ _ way free may => ?_⟩
      · rw [if_neg (regionOf_exchange_vacuous region a)]
        exact (mem.mword_eq (.inr (stateAddr_apart_xm (by omega)))).trans (State.mword_congr (same .mem (by decide)) _)
      · refine State.leOutput_exchange_words (way.of_sameBut same) (fun j hj => ?_) (fun j hj => ?_)
        · have stands : RegsSet [] s u := same.regsSet (by decide) _
          have domain : u.leDomain n m = s.leDomain n m := congrArg (fld · 3 0) (same.reg_eq (by decide) _)
          rw [domain, RegsIn.xmRefusal_eq stands (fun a ha => absurd ha (by simp))]
          exact may j hj
        · exact (State.wordNow_congr (congrArg XmCycle.words (same .xmNow (by decide))) _).trans (free j hj)

end

/-- Outputs to any region that a header allows. -/
theorem State.putOut_effect (n : Fin 16) (m : Fin 6) (c : Fin 8) {out : Nat} {us : List Word} (low : out < 0x10000)
    (small : us.length ≤ 0x8000) {s : State} (sound : s.Sound) : PutOut n m c out us s (s.putOut n m c out us) := by
  by_cases none : us = []
  · have run : s.putOut n m c out us = s := by rw [State.putOut, if_pos none]
    rw [run]
    exact .of_silent (.inl none)
  · by_cases state : regionOf out = some .state
    · exact State.putOut_state s n m c state none
    · by_cases exchange : regionOf out = some .exchange
      · exact State.putOut_exchange n m c low small exchange none sound
      · have run : s.putOut n m c out us = s := by
          rw [State.putOut, if_neg none]
          split
          · exact absurd ‹_› state
          · exact absurd ‹_› exchange
          · rfl
        rw [run]
        exact .of_silent (.inr ⟨state, exchange⟩)

/-! ### What a stage leaves -/

/-- The state from which the outputs of a stage go out: its non-finite values noted and its states committed. -/
def State.committed (g : State) (n m c : Nat) (h : Hdr) (o : LawOut) : State :=
  (g.nonfinite n m c o.bad).commit n m c h.stateOfs o.st

theorem State.committed_keeps (g : State) (n m c : Nat) (h : Hdr) (o : LawOut) :
    SameBut [.regs, .scCount, .mem, .ecc, .mks] g (g.committed n m c h o) ∧ (g.Sound → (g.committed n m c h o).Sound)
      ∧ (∀ a, (g.committed n m c h o).stateMem n m a =
          if h.stateOfs ≤ a ∧ a < h.stateOfs + o.st.length then o.st.getD (a - h.stateOfs) 0#32 else g.stateMem n m a)
      ∧ (o.bad = true → (g.committed n m c h o).rb (R.LE_CTXc_STATUS n m c) 5 = true)
      ∧ RegsSet [R.LE_CTXc_STATUS n m c] g (g.committed n m c h o) := by
  obtain ⟨same, sound⟩ := (g.nonfinite n m c o.bad).commit_keeps n m c h.stateOfs o.st
  have flagged : Touch _ g (g.nonfinite n m c o.bad) := State.nonfinite_touch
  have noted : RegsSet [R.LE_CTXc_STATUS n m c] g (g.nonfinite n m c o.bad) := by
    unfold State.nonfinite
    split
    · exact State.flag_regsSet _ _ _
    · exact .refl _ g
  have parts := flagged.sameBut (by decide : masksOnly _ [.regs, .scCount] = true)
  refine ⟨(parts.mono (by decide)).trans (same.mono (by decide)), fun h => sound (flagged.sound h), fun a => ?_, fun bad => ?_,
    noted.trans (.of_regs (same .regs (by decide)) _)⟩
  · refine (State.commit_stateMem _ _ _ _ _ _ _).trans ?_
    rw [State.stateMem, State.stateMem, State.mword_congr (parts .mem (by decide))]
  · refine (congrArg (bit · 5) (same.reg_eq (by decide) _)).trans ?_
    rw [bad]
    exact g.nonfinite_set n m c

theorem State.settle_eq (g : State) (n m c i : Nat) (h : Hdr) (o : LawOut) :
    g.settle n m c i h o = ((g.committed n m c h o).putOut n m c h.out o.u).stageDone n m c i := rfl

theorem LE_CTXc_STATUS_not_xmRule (n : Fin 16) (m : Fin 6) (c : Fin 8) : ∀ a ∈ [R.LE_CTXc_STATUS n m c], ¬ xmRule a := by
  intro a ha
  rw [List.mem_singleton.mp ha]
  rintro (frame | sec)
  · have none : xmFrameIndex (R.LE_CTXc_STATUS n m c) = .none := by
      unfold xmFrameIndex
      rw [if_neg (by unfold R.LE_CTXc_STATUS; omega)]
    rw [none] at frame
    exact absurd frame (by decide)
  · unfold R.LE_CTXc_STATUS R.SYS_DOMAIN_SEC at sec
    omega

section
variable {s g : State} {n : Fin 16} {m : Fin 6} {c : Fin 8} {pre : List OutAct} (p : s.Prepared n m c pre g) {h : Hdr}
  (low : h.out < 0x10000) (i : Nat)
include p low

/-- From a state that a stage's reads have left, its results commit, go out, and the context stands behind it. -/
theorem State.Prepared.settle {os : List LawOut} (small : (os.flatMap (fun o => o.u)).length ≤ 0x8000) :
    s.LeavesAll n m c i h os (g.settle n m c i h ⟨os.flatMap (fun o => o.u), os.flatMap (fun o => o.st), os.any (fun o => o.bad)⟩) pre := by
  rw [State.settle_eq]
  obtain ⟨sound, words, overrun, fixed, held, way, free, may⟩ := p
  obtain ⟨same, sound1, mem1, bad1, regs1⟩ := g.committed_keeps n m c h
    ⟨os.flatMap (fun o => o.u), os.flatMap (fun o => o.st), os.any (fun o => o.bad)⟩
  generalize g.committed n m c h _ = u at *
  have ctx := State.ctx_congr (same .les (by decide)) n m c
  have out := u.putOut_effect n m c low small (sound1 sound)
  dsimp only
  generalize u.putOut n m c h.out (os.flatMap (fun o => o.u)) = v at *
  obtain ⟨sound2, mem2, status2, overrun2, fixed2, held2, -, written2⟩ := out
  obtain ⟨regs, desc, stage, outs⟩ := State.stageDone_ends (sound2 (sound1 sound)) n m c.isLt i
  refine ⟨fun a ha => ?_, fun region some inTime fix => ?_, fun region inTime natural open' unwritten owned j hj => ?_, fun bad => ?_, stage⟩
  · rw [State.stateMem, desc.mword_eq (descWord_stateAddr n.isLt m.isLt ha), ← State.stateMem, mem2 a ha, mem1 a, words a ha]
    rfl
  · rw [outs (fixed2.trans ((congrArg CtxRec.fixed ctx).trans (fixed.trans fix)))
      (overrun2.trans ((congrArg CtxRec.overrun ctx).trans (overrun.trans inTime))),
      held2 region some ((congrArg CtxRec.overrun ctx).trans (overrun.trans inTime)) ((congrArg CtxRec.fixed ctx).trans (fixed.trans fix)),
      ctx, held inTime fix]
  · rw [desc.mword_eq (descWord_xmAddr (by omega))]
    refine written2 region ((congrArg CtxRec.overrun ctx).trans (overrun.trans inTime))
      ((congrArg CtxRec.fixed ctx).trans (fixed.trans natural)) ((way open').of_sameBut same) (fun k hk => ?_) (fun k hk => ?_) j hj
    · rw [State.wordNow_congr (congrArg XmCycle.words (same .xmNow (by decide))), free]
      exact unwritten k hk
    · have domain : u.leDomain n m = g.leDomain n m := by
        refine congrArg (fld · 3 0) (RegsIn.reg_eq regs1 ?_)
        simp only [List.mem_singleton, R.LE_OWNER, R.LE_CTXc_STATUS]
        omega
      rw [domain, RegsIn.xmRefusal_eq regs1 (LE_CTXc_STATUS_not_xmRule n m c), may]
      exact owned k hk
  · rw [RegsIn.rb_eq regs (LE_CTXc_STATUS_not_chainReg n m c c)]
    exact status2 5 (by decide) (bad1 bad)

/-- In fixed-phase timing what went out before stays held, where the stage's own outputs are not held beside it. -/
theorem State.Prepared.settle_held {o : LawOut} (small : o.u.length ≤ 0x8000) (beside : regionOf h.out ≠ some .exchange ∨ o.u = [])
    (inTime : ((s.ctxBegin n m c).ctx n m c).overrun = false) (fix : ((s.ctxBegin n m c).ctx n m c).fixed = true) :
    ((g.settle n m c i h o).ctx n m c).outs = ((s.ctxBegin n m c).ctx n m c).outs ++ pre := by
  rw [State.settle_eq]
  obtain ⟨sound, -, overrun, fixed, held, -, -, -⟩ := p
  obtain ⟨same, sound1, -, -, -⟩ := g.committed_keeps n m c h o
  generalize g.committed n m c h o = u at *
  have ctx := State.ctx_congr (same .les (by decide)) n m c
  have out := u.putOut_effect n m c low small (sound1 sound)
  generalize u.putOut n m c h.out o.u = v at *
  obtain ⟨sound2, -, -, overrun2, fixed2, -, kept, -⟩ := out
  obtain ⟨-, -, -, outs⟩ := State.stageDone_ends (sound2 (sound1 sound)) n m c.isLt i
  rw [outs (fixed2.trans ((congrArg CtxRec.fixed ctx).trans (fixed.trans fix)))
    (overrun2.trans ((congrArg CtxRec.overrun ctx).trans (overrun.trans inTime))), kept beside, ctx, held inTime fix]

end

/-! ### A stage whose instances follow one law -/

theorem length_flatMap_le {α β : Type} {f : α → List β} {k : Nat} (hf : ∀ x, (f x).length ≤ k) (l : List α) :
    (l.flatMap f).length ≤ l.length * k := by
  induction l with
  | nil => simp
  | cons x l ih =>
    rw [List.flatMap_cons, List.length_append, List.length_cons, Nat.add_mul, Nat.one_mul, Nat.add_comm]
    exact Nat.add_le_add ih (hf x)

theorem State.Dispatches.leaves {s : State} {n : Fin 16} {m : Fin 6} {c : Fin 8} {typ i : Nat} {h : Hdr} {f : Form}
    (d : s.Dispatches n m c typ i h f) {law : LawIn → LawOut} (small : ∀ x, (law x).u.length ≤ 8) :
    s.Leaves n m c i h f law (s.stageCmd typ n m c .clean 0 (State.lawStage n m c law)) := by
  have reads := State.gather_readsOnly n m c h f h.count 0 (s.ctxBegin n m c)
  have prepared := reads.prepared d.sound
  have run : s.stageCmd typ n m c .clean 0 (State.lawStage n m c law) = ((s.ctxBegin n m c).gather n m c h f 0 h.count).2.settle n m c i h
      ⟨((s.instances n m c h f).map law).flatMap (fun o => o.u), ((s.instances n m c h f).map law).flatMap (fun o => o.st),
        ((s.instances n m c h f).map law).any (fun o => o.bad)⟩ := by
    rw [d.stageCmd_clean]
    simp only [State.lawStage, d.form]
    rfl
  have count : (((s.instances n m c h f).map law).flatMap (fun o => o.u)).length ≤ 0x8000 := by
    have bound := length_flatMap_le (f := fun x => (law x).u) small (s.instances n m c h f)
    have number : (s.instances n m c h f).length ≤ 16 := by
      rw [State.instances, State.length_gather]
      exact d.count_le
    rw [List.flatMap_map]
    exact bound.trans (by omega)
  rw [run]
  exact prepared.settle d.out_lt i count

end Sys2Proof.Machine
end

section
/-!
Stages whose instances follow one law (R129 to R136).
-/
set_option Elab.async false
namespace Sys2Proof.Machine
open Sys2Proof

/-! ### How many words the laws put out -/

@[simp] theorem length_posWords (p : BitVec 64) : (posWords p).length = 2 := rfl

@[simp] theorem length_phasesOf (al be : Word) : (phasesOf al be).length = 3 := rfl

@[simp] theorem length_biquad (x : LawIn) (b0 b1 b2 a1 a2 : Word) : (biquad x b0 b1 b2 a1 a2).u.length = 1 := rfl

theorem length_append_optional (l : List Word) (b : Bool) (w : Word) : (l ++ if b then [w] else []).length ≤ l.length + 1 := by
  cases b <;> simp

theorem lawEncoderDecode_small (x : LawIn) : (lawEncoderDecode x).u.length ≤ 8 := by
  unfold lawEncoderDecode
  dsimp only
  split <;> simp

theorem lawSinCosInterpolation_small (x : LawIn) : (lawSinCosInterpolation x).u.length ≤ 8 := by
  unfold lawSinCosInterpolation
  dsimp only
  split <;> simp

theorem lawClarke_small (x : LawIn) : (lawClarke x).u.length ≤ 8 :=
  (length_append_optional _ _ _).trans (by simp)

theorem lawPark_small (x : LawIn) : (lawPark x).u.length ≤ 8 := by
  unfold lawPark
  dsimp only
  split <;> simp

theorem lawMovingAverage_small (x : LawIn) : (lawMovingAverage x).u.length ≤ 8 := by
  unfold lawMovingAverage
  dsimp only
  split <;> simp

theorem lawSpeedObserver_small (x : LawIn) : (lawSpeedObserver x).u.length ≤ 8 := by
  unfold lawSpeedObserver
  dsimp only
  split <;> simp

theorem lawSaturate_small (x : LawIn) : (lawSaturate x).u.length ≤ 8 :=
  (length_append_optional _ _ _).trans (by simp)

theorem lawCircularLimit_small (x : LawIn) : (lawCircularLimit x).u.length ≤ 8 := by
  refine (length_append_optional _ _ _).trans ?_
  generalize (if x.flag 2 = true then zMul (x.P 0) (x.B 0) else x.P 0) = l
  split
  · simp
  · split <;> simp

theorem lawSpaceVector_small (x : LawIn) : (lawSpaceVector x).u.length ≤ 8 :=
  (length_append_optional _ _ _).trans (by simp)

theorem lawNpc_small (x : LawIn) : (lawNpc x).u.length ≤ 8 := by
  simp [lawNpc, phasesOf]

theorem lawOvermodulation_small (x : LawIn) : (lawOvermodulation x).u.length ≤ 8 := by
  unfold lawOvermodulation
  dsimp only
  split
  · simp
  · split <;> simp

/-! ### The stages -/

/-- Settles O36: each of these stages dispatches, follows its law on every instance, and leaves what `Dispatches.leaves` says. -/
theorem inputAndTransformStages : Obligations.InputAndTransformStages := by
  unfold Obligations.InputAndTransformStages
  refine ⟨?_, ?_, ?_, ?_, ?_, ?_, ?_, ?_, ?_, ?_, ?_, ?_⟩
  · intro n m c i h f s d
    exact ⟨_, rfl, d.leaves (law := lawConverterScaling) (fun x => by simp [lawConverterScaling])⟩
  · intro n m c i h f s d
    exact ⟨_, rfl, d.leaves (law := lawSigmaDelta) (fun x => by simp [lawSigmaDelta])⟩
  · intro n m c i h f s d
    exact ⟨_, rfl, d.leaves (law := lawEncoderDecode) lawEncoderDecode_small⟩
  · intro n m c i h f s d
    exact ⟨_, rfl, d.leaves (law := lawSinCosInterpolation) lawSinCosInterpolation_small⟩
  · intro n m c i h f s d
    exact ⟨_, rfl, d.leaves (law := lawResolver) (fun x => by simp [lawResolver])⟩
  · intro n m c i h f s d
    exact ⟨_, rfl, d.leaves (law := lawClarke) lawClarke_small⟩
  · intro n m c i h f s d
    exact ⟨_, rfl, d.leaves (law := lawInverseClarke) (fun x => by simp [lawInverseClarke])⟩
  · intro n m c i h f s d
    exact ⟨_, rfl, d.leaves (law := lawPark) lawPark_small⟩
  · intro n m c i h f s d
    exact ⟨_, rfl, d.leaves (law := lawInversePark) (fun x => by simp [lawInversePark])⟩
  · intro n m c i h f s d
    exact ⟨_, rfl, d.leaves (law := lawSinCos) (fun x => by simp [lawSinCos])⟩
  · intro n m c i h f s d
    exact ⟨_, rfl, d.leaves (law := lawAtan2) (fun x => by simp [lawAtan2])⟩
  · intro n m c i h f s d
    exact ⟨_, rfl, d.leaves (law := lawMagnitude) (fun x => by simp [lawMagnitude])⟩

/-- Settles O37: each of these stages dispatches, follows its law on every instance, and leaves what `Dispatches.leaves` says. -/
theorem regulatorAndFilterStages : Obligations.RegulatorAndFilterStages := by
  unfold Obligations.RegulatorAndFilterStages
  refine ⟨?_, ?_, ?_, ?_, ?_, ?_, ?_, ?_, ?_⟩
  · intro n m c i h f s d
    exact ⟨_, rfl, d.leaves (law := lawPi) (fun x => by simp [lawPi])⟩
  · intro n m c i h f s d
    exact ⟨_, rfl, d.leaves (law := lawPid) (fun x => by simp [lawPid])⟩
  · intro n m c i h f s d
    exact ⟨_, rfl, d.leaves (law := lawTwoDof) (fun x => by simp [lawTwoDof])⟩
  · intro n m c i h f s d
    exact ⟨_, rfl, d.leaves (law := lawResonant) (fun x => by simp [lawResonant])⟩
  · intro n m c i h f s d
    exact ⟨_, rfl, d.leaves (law := lawLeadLag) (fun x => by simp [lawLeadLag])⟩
  · intro n m c i h f s d
    exact ⟨_, rfl, d.leaves (law := lawLowPass) (fun x => by simp [lawLowPass])⟩
  · intro n m c i h f s d
    exact ⟨_, rfl, d.leaves (law := lawBiquad) (fun x => by simp [lawBiquad])⟩
  · intro n m c i h f s d
    exact ⟨_, rfl, d.leaves (law := lawNotch) (fun x => by simp [lawNotch])⟩
  · intro n m c i h f s d
    exact ⟨_, rfl, d.leaves (law := lawMovingAverage) lawMovingAverage_small⟩

/-- Settles O38: each of these stages dispatches, follows its law on every instance, and leaves what `Dispatches.leaves` says. -/
theorem observerAndLimitStages : Obligations.ObserverAndLimitStages := by
  unfold Obligations.ObserverAndLimitStages
  refine ⟨?_, ?_, ?_, ?_, ?_, ?_⟩
  · intro n m c i h f s d
    exact ⟨_, rfl, d.leaves (law := lawSpeedObserver) lawSpeedObserver_small⟩
  · intro n m c i h f s d
    exact ⟨_, rfl, d.leaves (law := lawFluxObserver) (fun x => by simp [lawFluxObserver])⟩
  · intro n m c i h f s d
    exact ⟨_, rfl, d.leaves (law := lawPll) (fun x => by simp [lawPll])⟩
  · intro n m c i h f s d
    exact ⟨_, rfl, d.leaves (law := lawSaturate) lawSaturate_small⟩
  · intro n m c i h f s d
    exact ⟨_, rfl, d.leaves (law := lawRateLimit) (fun x => by simp [lawRateLimit])⟩
  · intro n m c i h f s d
    exact ⟨_, rfl, d.leaves (law := lawCircularLimit) lawCircularLimit_small⟩

/-- Settles O39: each of these stages dispatches, follows its law on every instance, and leaves what `Dispatches.leaves` says. -/
theorem modulationAndCompensationStages : Obligations.ModulationAndCompensationStages := by
  unfold Obligations.ModulationAndCompensationStages
  refine ⟨?_, ?_, ?_, ?_, ?_, ?_, ?_, ?_⟩
  · intro n m c i h f s d
    exact ⟨_, rfl, d.leaves (law := lawSineTriangle) (fun x => by simp [lawSineTriangle])⟩
  · intro n m c i h f s d
    exact ⟨_, rfl, d.leaves (law := lawSpaceVector) lawSpaceVector_small⟩
  · intro n m c i h f s d
    exact ⟨_, rfl, d.leaves (law := lawDiscontinuous) (fun x => by simp [lawDiscontinuous])⟩
  · intro n m c i h f s d
    exact ⟨_, rfl, d.leaves (law := lawNpc) lawNpc_small⟩
  · intro n m c i h f s d
    exact ⟨_, rfl, d.leaves (law := lawOvermodulation) lawOvermodulation_small⟩
  · intro n m c i h f s d
    exact ⟨_, rfl, d.leaves (law := lawDeadTime) (fun x => by simp [lawDeadTime])⟩
  · intro n m c i h f s d
    exact ⟨_, rfl, d.leaves (law := lawDcLink) (fun x => by simp [lawDcLink])⟩
  · intro n m c i h f s d
    exact ⟨_, rfl, d.leaves (law := lawDecoupling) (fun x => by simp [lawDecoupling])⟩

end Sys2Proof.Machine
end

section
/-!
Lines that stand, and what they have made due (R249).
-/
set_option Elab.async false
namespace Sys2Proof.Machine
open Sys2Proof

/-! ### Lines that stand, and what they have made due -/

/-- Every line that stands at 1 still does, and nothing due is lost. -/
structure LinesKept (s t : State) : Prop where
  pulses : ∀ g, s.pulses.get (fun _ => 0) g = 2 → t.pulses.get (fun _ => 0) g = 2
  due : DueGrows s t

theorem LinesKept.refl (s : State) : LinesKept s s := ⟨fun _ h => h, .refl s⟩

theorem LinesKept.trans {s t u : State} (h : LinesKept s t) (k : LinesKept t u) : LinesKept s u :=
  ⟨fun g x => k.pulses g (h.pulses g x), h.due.trans k.due⟩

/-- The last of two steps first. -/
theorem LinesKept.after {s t u : State} (k : LinesKept t u) (h : LinesKept s t) : LinesKept s u := h.trans k

theorem LinesKept.ite {s t u : State} {c : Prop} [Decidable c] (h : LinesKept s t) (k : LinesKept s u) :
    LinesKept s (if c then t else u) := by
  split
  · exact h
  · exact k

theorem LinesKept.foldl {α : Type} {f : State → α → State} (hf : ∀ x t, LinesKept t (f t x)) :
    ∀ (l : List α) (s : State), LinesKept s (l.foldl f s)
  | [], s => .refl s
  | x :: l, s => (hf x s).trans (LinesKept.foldl hf l (f s x))

theorem LinesKept.of_due {s t : State} (pulses : t.pulses = s.pulses) (due : DueGrows s t) : LinesKept s t :=
  ⟨fun g h => by rw [pulses]; exact h, due⟩

theorem Touch.linesKept {w : Nat} {s t : State} (h : Touch w s t) (due : w.testBit 0 = false := by decide)
    (pulses : w.testBit 44 = false := by decide) : LinesKept s t :=
  .of_due (h.same_part .pulses (by simpa [Part.bits] using pulses)) (h.dueGrows due)

theorem State.enqueue_linesKept (s : State) (l : List Instr) : LinesKept s (s.enqueue l) := .of_due rfl (s.enqueue_dueGrows l)

theorem State.fire_linesKept (s : State) (g : Nat) : LinesKept s (s.fire g) := by
  refine ⟨fun k h => ?_, s.fire_dueGrows g⟩
  have line : (s.fire g).pulses = s.pulses.set (fun _ => 0) g 2 := by
    rw [State.fire_eq]
    split <;> rfl
  rw [line, Store.get_set]
  split
  · rfl
  · exact h

theorem Fires.kept {g : Nat} {s t u : State} (h : Fires g s t) (k : LinesKept t u) : Fires g s u :=
  ⟨k.pulses g h.1, fun low p hp ok => k.due.mem (h.2 low p hp ok)⟩

theorem State.finishEpochs_linesKept (s : State) : LinesKept s s.finishEpochs := by
  refine LinesKept.foldl (fun i t => .ite ?_ (.refl t)) _ s
  have freed : LinesKept t (((t.setReg (R.EP_SLOTs_STATE i) 0#32).resultFlag i 0).fireCentral 321) :=
    LinesKept.after (State.fire_linesKept _ _)
      (LinesKept.after State.resultFlag_touch.linesKept State.setReg_touch.linesKept)
  exact .ite (LinesKept.after (State.enqueue_linesKept _ _) (freed.trans (.of_due rfl (.of_eq rfl)))) freed

theorem State.swap_linesKept (s : State) (p : Entry → Bool) : LinesKept s (s.swap p) := by
  have dropped (t : State) (l : List Entry) : LinesKept t (t.setEntries l) := .of_due rfl (.of_eq rfl)
  have moved (l : List Entry) : LinesKept s (l.foldl (fun t e => t.setActive e.addr e.value) s) :=
    .foldl (fun e t => State.setActive_touch.linesKept) l s
  exact .after (State.finishEpochs_linesKept _) (.after (dropped _ _) (moved _))

theorem State.noteFresh_linesKept (s : State) (n m c : Nat) : LinesKept s (s.noteFresh n m c) :=
  .ite (s.enqueue_linesKept _) (.refl s)

theorem State.leBoundary_linesKept (s : State) (n m : Nat) : LinesKept s (s.leBoundary n m) := by
  unfold State.leBoundary
  have cams : LinesKept s (s.camRelease n m) := .ite (s.swap_linesKept _) (.refl s)
  refine .ite (.refl s) (cams.trans (.ite (.refl _) (.after (State.enqueue_linesKept _ _) (.ite ?_ (.refl _)))))
  exact .after (.foldl (fun d t => t.noteFresh_linesKept n m d) _ _) (State.swap_linesKept _ _)

theorem State.complete_linesKept (s : State) (n m c : Nat) (released : Bool) : LinesKept s (s.complete n m c released) := by
  have fresh (d : Nat) (t : State) : LinesKept t (if t.ctxOn n m d && (t.ctx n m d).phase != .idle then
      (t.setCtx n m d { t.ctx n m d with freshCtx := (t.ctx n m d).freshCtx ||| 2 ^ c }).noteFresh n m d else t) :=
    .ite (.after (State.noteFresh_linesKept _ n m d) State.setCtx_touch.linesKept) (.refl t)
  have begun : ∀ {t : State}, t = ((s.latency n m c).setReg (R.LE_CTXc_COUNT n m c)
      ((s.latency n m c).reg (R.LE_CTXc_COUNT n m c) + 1#32)).imposedStep n m c → LinesKept s (t.setCtx n m c { t.ctx n m c with
        phase := .idle, outs := [], items := [], lastOut := none, spare := false }) := by
    rintro _ rfl
    exact .after State.setCtx_touch.linesKept (.after State.imposedStep_touch.linesKept
      (.after State.setReg_touch.linesKept State.latency_touch.linesKept))
  unfold State.complete
  exact .after (State.leBoundary_linesKept _ n m) ((begun rfl).trans (.ite (.after (.foldl fresh (List.range 8) _) (State.fire_linesKept _ _)) (.refl _)))

theorem State.stageDone_linesKept (s : State) (n m c i : Nat) : LinesKept s (s.stageDone n m c i) := by
  have ends (t : State) : LinesKept t (t.chainEnd n m c) :=
    .ite (.after (State.leBoundary_linesKept _ n m) State.setCtx_touch.linesKept) (t.complete_linesKept n m c _)
  unfold State.stageDone
  dsimp only
  split
  · exact .after (ends _) State.setCtx_touch.linesKept
  · exact State.setCtx_touch.linesKept

theorem State.leExchange_linesKept (s : State) (n : Nat) (f : State → BusResult × State)
    (hf : ∀ t, LinesKept t (f t).2) : LinesKept s (s.leExchange n f).2 := by
  have reported (t : State) (c : Nat) : LinesKept t (t.report 0x1C0 0x1C0 c 0#32) := t.enqueue_linesKept _
  unfold State.leExchange State.overPath
  split
  · split
    · exact hf s
    · exact (reported s _).trans (hf _)
    · exact reported s _
  · exact .refl s

theorem State.leOutput_exchange_linesKept (s : State) (n m c w : Nat) (vs : List Word) :
    LinesKept s (s.leOutput n m c (.exchange w vs)) := by
  have passed := s.leExchange_linesKept n
    (fun t => t.xmWrite (t.leDomain n m) (t.lePort n m) w vs) fun t => State.xmWrite_touch.linesKept
  unfold State.leOutput
  dsimp only
  split
  next e => exact .after State.flag_touch.linesKept ((congrArg (LinesKept s) (congrArg Prod.snd e)).mp passed)
  next e => exact (congrArg (LinesKept s) (congrArg Prod.snd e)).mp passed

theorem State.leOutputs_linesKept (s : State) (n m c : Nat) (acts : List OutAct)
    (each : ∀ o ∈ acts, ∀ t : State, LinesKept t (t.leOutput n m c o)) : LinesKept s (s.leOutputs n m c acts) := by
  by_cases none : acts = []
  · subst none
    simp only [State.leOutputs, if_true, List.append_nil, List.foldl_nil]
    exact .ite (.refl s) (.ite State.setCtx_touch.linesKept (.refl s))
  · have stamp : LinesKept s (s.stamped n m c) := State.setCtx_touch.linesKept
    rw [State.leOutputs_eq _ _ _ _ none]
    refine .ite stamp (.ite (stamp.trans State.setCtx_touch.linesKept) (stamp.trans ?_))
    generalize s.stamped n m c = t
    clear none stamp
    induction acts generalizing t with
    | nil => exact .refl t
    | cons o l ih =>
      exact (each o List.mem_cons_self t).trans (ih (fun x hx => each x (List.mem_cons_of_mem o hx)) _)

theorem State.putOut_linesKept (s : State) (n m c out : Nat) (us : List Word) : LinesKept s (s.putOut n m c out us) := by
  unfold State.putOut
  split
  · exact .refl s
  · split
    · exact State.commit_touch.linesKept
    · exact s.leOutputs_linesKept n m c _ fun o ho t => by
        rw [List.mem_singleton.mp ho]
        exact t.leOutput_exchange_linesKept n m c _ _
    · exact .refl s

theorem State.settle_linesKept (s : State) (n m c i : Nat) (h : Hdr) (o : LawOut) : LinesKept s (s.settle n m c i h o) := by
  rw [State.settle_eq]
  have committed : LinesKept s (s.committed n m c h o) :=
    .after State.commit_touch.linesKept State.nonfinite_touch.linesKept
  exact (committed.trans (State.putOut_linesKept _ n m c _ _)).trans (State.stageDone_linesKept _ n m c i)

end Sys2Proof.Machine
end

section
/-!
Stages of one instance, and outputs that are no words (R97, R105).
-/
set_option Elab.async false
namespace Sys2Proof.Machine
open Sys2Proof

/-! ### Stages of one instance -/

section
variable {s : State} {n m c typ i : Nat} {h : Hdr} {f : Form} (d : s.Dispatches n m c typ i h f)
include d

/-- What the inputs of a stage's instances are read from leaves. -/
def State.gathered (s : State) (n m c : Nat) (h : Hdr) (f : Form) : State := ((s.ctxBegin n m c).gather n m c h f 0 h.count).2

theorem State.Dispatches.prepared : s.Prepared n m c [] (s.gathered n m c h f) :=
  (State.gather_readsOnly n m c h f h.count 0 (s.ctxBegin n m c)).prepared d.sound

/-- A stage without lanes has one instance. -/
theorem State.Dispatches.count_one (single : f.lanes = false) : h.count = 1 := by
  have bad := d.header.2
  simp only [State.headerBad, chainError, d.form, Bool.or_eq_false_iff] at bad
  have lanes : (!f.lanes && h.lanes != 0) = false := by
    tauto
  rw [single] at lanes
  have zero : h.lanes = 0 := by simpa using lanes
  rw [Hdr.count, zero]

theorem State.Dispatches.gatherOne (single : f.lanes = false) :
    ∃ x, s.instances n m c h f = [x] ∧ (s.ctxBegin n m c).gatherOne n m c h = (x, s.gathered n m c h f) := by
  have one := d.count_one single
  have length : (s.instances n m c h f).length = 1 := by rw [State.instances, State.length_gather, one]
  obtain ⟨x, hx⟩ := List.length_eq_one_iff.mp length
  refine ⟨x, hx, ?_⟩
  have inputs : (s.ctxBegin n m c).gather n m c h f 0 1 = ([x], s.gathered n m c h f) := by
    rw [State.instances, one] at hx
    exact Prod.ext hx (by rw [State.gathered, one])
  simp only [State.gatherOne, d.form, inputs]

end

theorem State.settle_one (g : State) (n m c i : Nat) (h : Hdr) (o : LawOut) :
    g.settle n m c i h o = g.settle n m c i h ⟨[o].flatMap (fun o => o.u), [o].flatMap (fun o => o.st), [o].any (fun o => o.bad)⟩ := by
  simp

/-- The result of a stage's one instance commits and goes out. -/
theorem State.Prepared.leaves_one {s g : State} {n : Fin 16} {m : Fin 6} {c : Fin 8} {pre : List OutAct} {typ : Nat}
    {h : Hdr} {i : Nat} {f : Form} (d : s.Dispatches n m c typ i h f) (p : s.Prepared n m c pre g)
    {x : LawIn} (one : s.instances n m c h f = [x]) {law : LawIn → LawOut} (small : (law x).u.length ≤ 0x8000) :
    s.Leaves n m c i h f law (g.settle n m c i h (law x)) pre := by
  rw [State.settle_one, State.Leaves, one]
  exact p.settle d.out_lt i (os := [law x]) (by simpa using small)

/-! ### Outputs that are no words -/

/-- An output that leaves what decides about exchange words, memory and the contexts. -/
structure OutSilent (n m : Nat) (s t : State) : Prop where
  rest : SameBut [.due, .regs, .scCount, .tus, .pulses] s t
  sound : s.Sound → t.Sound
  regs : RegsIn (fun a => ¬ xmRule a ∧ a ≠ R.LE_OWNER n m) s t

theorem OutSilent.refl (n m : Nat) (s : State) : OutSilent n m s s := ⟨.refl _ s, id, .refl _ s⟩

theorem OutSilent.trans {n m : Nat} {s t u : State} (h : OutSilent n m s t) (k : OutSilent n m t u) : OutSilent n m s u :=
  ⟨h.rest.trans k.rest, fun x => k.sound (h.sound x), h.regs.trans k.regs⟩

theorem OutSilent.foldl {n m c : Nat} : ∀ (acts : List OutAct), (∀ o ∈ acts, ∀ t : State, OutSilent n m t (t.leOutput n m c o)) →
    ∀ s : State, OutSilent n m s (acts.foldl (fun t o => t.leOutput n m c o) s)
  | [], _, s => .refl n m s
  | o :: l, each, s => (each o List.mem_cons_self s).trans (OutSilent.foldl l (fun x hx => each x (List.mem_cons_of_mem o hx)) _)

theorem State.emit_silent (n m c e : Nat) (t : State) : OutSilent n m t (t.leOutput n m c (.emit e)) :=
  ⟨(State.fireIsland_touch : Touch _ t (t.fireIsland n (16 * m + 8 + e))).sameBut,
    (State.fireIsland_touch : Touch _ t (t.fireIsland n (16 * m + 8 + e))).sound, State.fireIsland_touch.regsIn _⟩

theorem State.stamped_sound (s : State) (n m c : Nat) : s.Sound → (s.stamped n m c).Sound := State.setCtx_touch.sound

/-- Outputs that are no words leave a stage prepared, with them out or held. -/
theorem State.Prepared.leOutputs {s g : State} {n m : Nat} {c : Nat} {pre acts : List OutAct} (p : s.Prepared n m c pre g)
    (hc : c < 8) (some : acts ≠ []) (silent : ∀ o ∈ acts, ∀ t : State, OutSilent n m t (t.leOutput n m c o)) :
    s.Prepared n m c (pre ++ acts) (g.leOutputs n m c acts) := by
  obtain ⟨sound, words, overrun, fixed, held, way, free, may⟩ := p
  have stamp := g.stamped_run n m c
  have same := g.stamped_sameBut n m c
  have sound1 := g.stamped_sound n m c sound
  rw [State.leOutputs_eq _ _ _ _ some]
  generalize g.stamped n m c = u at *
  obtain ⟨-, fixed1, overrun1, -⟩ := CtxRec.run_eq stamp
  have stands {l : List Part} {t : State} (h : SameBut l u t) (hm : Part.mem ∉ l) (hx : Part.xmNow ∉ l) (hl : Part.links ∉ l)
      (hp : Part.paths ∉ l) (regs : RegsIn (fun a => ¬ xmRule a ∧ a ≠ R.LE_OWNER n m) u t) :
      (∀ a < 8192, t.stateMem n m a = s.stateMem n m a) ∧ (s.XmOpen n → t.XmOpen n) ∧ (∀ w, t.wordNow w = s.wordNow w)
        ∧ ∀ w, t.xmRefusal (t.leDomain n m) w true = s.xmRefusal (s.leDomain n m) w true := by
    have regs' : RegsIn (fun a => ¬ xmRule a ∧ a ≠ R.LE_OWNER n m) g t := RegsIn.trans (.of_regs (same .regs (by decide)) _) regs
    refine ⟨fun a ha => ?_, fun open' => ?_, fun w => ?_, fun w => ?_⟩
    · exact (State.mword_congr ((h .mem hm).trans (same .mem (by decide))) _).trans (words a ha)
    · exact ((way open').of_sameBut same).of_sameBut h hl hp
    · rw [State.wordNow_congr (congrArg XmCycle.words ((h .xmNow hx).trans (same .xmNow (by decide)))), free]
    · have domain : t.leDomain n m = g.leDomain n m := congrArg (fld · 3 0) (regs'.reg_eq fun k => k.2 rfl)
      rw [domain, regs'.xmRefusal_eq fun a ha => ha.1, may]
  split
  next late =>
    obtain ⟨mem, open', now, owned⟩ := stands (.refl [] u) (by decide) (by decide) (by decide) (by decide) (.refl _ u)
    refine ⟨sound1, mem, overrun1.trans overrun, fixed1.trans fixed, fun inTime => ?_, open', now, owned⟩
    rw [overrun, inTime] at late
    exact absurd late (by decide)
  next inTime =>
    split
    next isFixed =>
      have record : (u.setCtx n m c { u.ctx n m c with outs := (g.ctx n m c).outs ++ acts }).ctx n m c
          = { u.ctx n m c with outs := (g.ctx n m c).outs ++ acts } := by
        rw [State.ctx_setCtx, if_pos ⟨rfl, by rw [sound1.ctxs_length]; exact hc⟩]
      have moved : SameBut [.les] u (u.setCtx n m c { u.ctx n m c with outs := (g.ctx n m c).outs ++ acts }) := State.setCtx_touch.sameBut
      have sound2 : (u.setCtx n m c { u.ctx n m c with outs := (g.ctx n m c).outs ++ acts }).Sound := State.setCtx_touch.sound sound1
      generalize u.setCtx n m c { u.ctx n m c with outs := (g.ctx n m c).outs ++ acts } = v at *
      obtain ⟨mem, open', now, owned⟩ := stands moved (by decide) (by decide) (by decide) (by decide) (.of_regs (moved .regs (by decide)) _)
      refine ⟨sound2, mem, (congrArg CtxRec.overrun record).trans (overrun1.trans overrun),
        (congrArg CtxRec.fixed record).trans (fixed1.trans fixed), fun inTime fix => ?_, open', now, owned⟩
      rw [← List.append_assoc, ← held inTime fix]
      exact congrArg CtxRec.outs record
    next natural =>
      obtain ⟨rest, sound2, regs⟩ := OutSilent.foldl acts silent u
      have ctx := congrArg CtxRec.run (State.ctx_congr (rest .les (by decide)) n m c)
      obtain ⟨-, fixed2, overrun2, -⟩ := CtxRec.run_eq ctx
      obtain ⟨mem, open', now, owned⟩ := stands rest (by decide) (by decide) (by decide) (by decide) regs
      refine ⟨sound2 sound1, mem, overrun2.trans (overrun1.trans overrun), fixed2.trans (fixed1.trans fixed),
        fun _ fix => ?_, open', now, owned⟩
      rw [fixed, fix] at natural
      exact absurd rfl natural

/-! ### Events of an engine -/

theorem readRegs_not_pennant : ∀ a ∈ readRegs, pennantReg a = false := by decide

/-- An event that goes out at once fires its source. -/
theorem State.Dispatches.emits {s : State} {n : Fin 16} {m : Fin 6} {c : Fin 8} {typ i : Nat} {h : Hdr} {f : Form}
    (d : s.Dispatches n m c typ i h f) {e : Nat} (he : e < 8)
    (inTime : ((s.ctxBegin n m c).ctx n m c).overrun = false) (natural : ((s.ctxBegin n m c).ctx n m c).fixed = false) :
    Fires (256 * n + 16 * m + 8 + e) s ((s.gathered n m c h f).leOutputs n m c [.emit e]) := by
  have reads := State.gather_readsOnly n m c h f h.count 0 (s.ctxBegin n m c)
  have prepared := d.prepared
  rw [← State.gathered] at reads
  have begun := (State.ctxBegin_touch : Touch _ s (s.ctxBegin n m c)).sameBut (by decide : masksOnly _ [.les] = true)
  have stays := reads.rest.sameBut (by decide : masksOnly _ [.due, .regs, .scCount, .mks, .les, .ecc, .macros] = true)
  have regs := reads.regs
  have late := prepared.overrun.trans inTime
  have held := prepared.fixed.trans natural
  generalize s.gathered n m c h f = g at *
  have same := g.stamped_sameBut n m c
  rw [State.leOutputs_eq _ _ _ _ (by simp), late, held]
  have run : [OutAct.emit e].foldl (fun t o => t.leOutput n m c o) (g.stamped n m c) = (g.stamped n m c).fire (256 * n + 16 * m + 8 + e) := by
    rw [List.foldl_cons, List.foldl_nil, State.leOutput, State.fireIsland]
    congr 1
    omega
  simp only [Bool.false_eq_true, if_false, run]
  have written : RegsSet readRegs s (g.stamped n m c) :=
    (RegsSet.trans (.of_regs (begun .regs (by decide)) _) regs).trans (.of_regs (same .regs (by decide)) _)
  refine written.fires readRegs_not_pennant (fun a owner => ?_)
    ((same .fab (by decide)).trans ((stays .fab (by decide)).trans (begun .fab (by decide))))
    ((same .pulses (by decide)).trans ((stays .pulses (by decide)).trans (begun .pulses (by decide))))
  have engine : a = R.LE_OWNER n m := by
    unfold sourceOwner at owner
    rw [if_pos (by omega)] at owner
    dsimp only at owner
    rw [if_pos (by omega)] at owner
    have island : (256 * n.val + 16 * m.val + 8 + e) / 256 = n := by omega
    have number : (256 * n.val + 16 * m.val + 8 + e) % 256 / 16 = m := by omega
    rw [island, number] at owner
    exact (Option.some.inj owner).symm
  rw [engine]
  exact LE_OWNER_not_read n m

end Sys2Proof.Machine
end

section
/-!
Operands in the state and exchange memory (R88 to R90).
-/
set_option Elab.async false
namespace Sys2Proof.Machine
open Sys2Proof

/-- A stage that may emit an event, and its one instance's result. -/
theorem State.Dispatches.emitting {s : State} {n : Fin 16} {m : Fin 6} {c : Fin 8} {typ i : Nat} {h : Hdr} {f : Form}
    (d : s.Dispatches n m c typ i h f) {x : LawIn} (one : s.instances n m c h f = [x]) {law : LawIn → LawOut}
    (small : (law x).u.length ≤ 0x8000) (fires : Bool) {e : Nat} (he : e < 8) {t : State}
    (run : t = (if fires then (s.gathered n m c h f).leOutputs n m c [.emit e] else s.gathered n m c h f).settle n m c i h (law x)) :
    s.Leaves n m c i h f law t (if fires then [.emit e] else [])
      ∧ (((s.ctxBegin n m c).ctx n m c).overrun = false → fires = true → ((s.ctxBegin n m c).ctx n m c).fixed = false →
          Fires (256 * n + 16 * m + 8 + e) s t)
      ∧ (((s.ctxBegin n m c).ctx n m c).overrun = false → fires = true → ((s.ctxBegin n m c).ctx n m c).fixed = true →
          (regionOf h.out ≠ some .exchange ∨ (law x).u = []) →
          (t.ctx n m c).outs = ((s.ctxBegin n m c).ctx n m c).outs ++ [.emit e]) := by
  subst run
  cases fires with
  | false => exact ⟨d.prepared.leaves_one d one small, fun _ no => absurd no (by decide), fun _ no => absurd no (by decide)⟩
  | true =>
    simp only [if_true]
    have prepared := d.prepared.leOutputs (acts := [.emit e]) c.isLt (by simp) fun o ho t => by
      rw [List.mem_singleton.mp ho]
      exact t.emit_silent n m c e
    refine ⟨prepared.leaves_one d one small, fun inTime _ natural => ?_, fun inTime _ fix beside => ?_⟩
    · exact (d.emits he inTime natural).kept (State.settle_linesKept _ n m c i h _)
    · exact prepared.settle_held d.out_lt i small beside inTime fix

/-! ### Words in error as a stage's reads leave them -/

theorem State.eccBad_congr {s t : State} (h : t.ecc = s.ecc) (a : Nat) : t.eccBad a = s.eccBad a := by
  rw [State.eccBad, State.eccBad, State.eccMark_congr h]

theorem State.eccCorrect_ecc (s : State) (mem a : Nat) : (s.eccCorrect mem a).ecc = (s.setEcc a .good).ecc := by
  have after : Touch 0x8000007 (s.setEcc a .good) (s.eccCorrect mem a) :=
    Touch.of State.setMacro_touch |>.then State.meCount_touch |>.then State.meLast_touch |>.then State.flag_touch
      |>.trans (.ite (.of State.permanentWord_touch) .refl)
  exact after.sameBut (by decide : masksOnly _ [.due, .regs, .scCount, .macros] = true) .ecc (by decide)

/-- A correction makes no word bad and mends none that is. -/
theorem State.eccRead_eccBad (s : State) (a b : Nat) : (s.eccRead a).eccBad b = s.eccBad b := by
  unfold State.eccRead
  split
  next flipped =>
    split
    next mem _ =>
      rw [State.eccBad_congr (s.eccCorrect_ecc mem (a / 4 * 4)), State.eccBad, State.eccBad, State.eccMark, State.eccMark,
        State.setEcc, Store.get_set]
      split
      next same =>
        rw [State.eccMark, show a / 4 * 4 = b / 4 * 4 by omega] at flipped
        rw [flipped]
        rfl
      next => rfl
    next => rfl
  next => rfl

/-- What an operand in the state memory or the exchange memory reads as rests on: memory, what has been written in this cycle,
the ways there, the rules of the frames, and the words in error. -/
structure ReadsAlike (n m : Nat) (s t : State) : Prop where
  rest : SameBut [.due, .regs, .scCount, .mks, .les, .ecc, .macros] s t
  regs : RegsSet readRegs s t
  bad : ∀ a, t.eccBad a = s.eccBad a

theorem ReadsAlike.refl (n m : Nat) (s : State) : ReadsAlike n m s s := ⟨.refl _ s, .refl _ s, fun _ => rfl⟩

theorem ReadsAlike.trans {n m : Nat} {s t u : State} (h : ReadsAlike n m s t) (k : ReadsAlike n m t u) : ReadsAlike n m s u :=
  ⟨h.rest.trans k.rest, h.regs.trans k.regs, fun a => (k.bad a).trans (h.bad a)⟩

theorem State.xmRead_eccBad (s : State) (d port w a : Nat) : (s.xmRead d port w).2.eccBad a = s.eccBad a := by
  unfold State.xmRead
  split
  · exact State.eccBad_congr (State.xmRefuse_touch.sameBut (by decide : masksOnly _ [.regs, .scCount] = true) .ecc (by decide)) a
  · split
    · exact State.eccBad_congr (State.eccAccess_touch.sameBut (by decide : masksOnly _ [.due, .regs, .scCount] = true) .ecc (by decide)) a
    · exact s.eccRead_eccBad _ a

theorem State.leExchange_eccBad {s : State} {n : Nat} {f : State → BusResult × State} (hf : ∀ t a, (f t).2.eccBad a = t.eccBad a)
    (a : Nat) : (s.leExchange n f).2.eccBad a = s.eccBad a := by
  unfold State.leExchange State.overPath
  split
  · split
    · exact hf s a
    · exact hf _ a
    · rfl
  · rfl

theorem State.operand_eccBad (s : State) (n m c b a : Nat) : (s.operand n m c b).2.eccBad a = s.eccBad a := by
  have exchange : (s.leExchange n (fun t => t.xmRead (t.leDomain n m) (t.lePort n m) (b - 0x4000))).2.eccBad a = s.eccBad a :=
    State.leExchange_eccBad (fun t k => t.xmRead_eccBad _ _ _ k) a
  have taken (k : Nat) : (s.takeItems n m c k).2.eccBad a = s.eccBad a :=
    State.eccBad_congr (State.takeItems_touch.sameBut (by decide : masksOnly _ [.les, .mks] = true) .ecc (by decide)) a
  unfold State.operand
  split
  case h_2 =>
    split
    next e => exact (congrArg (fun q => q.2.eccBad a) e).symm.trans exchange
    next e => exact (congrArg (fun q => q.2.eccBad a) e).symm.trans exchange
  case h_5 => exact taken _
  case h_6 => exact taken _
  all_goals rfl

theorem State.operands_eccBad (n m c a : Nat) : ∀ (w b : Nat) (s : State), (s.operands n m c b w).2.eccBad a = s.eccBad a
  | 0, _, _ => rfl
  | w + 1, b, s => (State.operands_eccBad n m c a w (b + 1) _).trans (s.operand_eccBad n m c b a)

theorem State.gather_eccBad (n m c : Nat) (h : Hdr) (f : Form) (a : Nat) :
    ∀ (r k : Nat) (s : State), (s.gather n m c h f k r).2.eccBad a = s.eccBad a
  | 0, _, _ => rfl
  | r + 1, k, s => (State.gather_eccBad n m c h f a r (k + 1) _).trans
      ((State.operands_eccBad n m c a _ _ _).trans (State.operands_eccBad n m c a _ _ s))

theorem ReadsOnly.alike {n m c : Nat} {s t : State} (h : ReadsOnly n m c s t) (bad : ∀ a, t.eccBad a = s.eccBad a) :
    ReadsAlike n m s t := ⟨h.rest.sameBut, h.regs, bad⟩

theorem engineRegs_not_read (n m : Nat) : R.LE_OWNER n m ∉ readRegs ∧ R.IC_LE_RETIRED n ∉ readRegs ∧ R.IC_LE_SUBST n ∉ readRegs := by
  refine ⟨LE_OWNER_not_read n m, ?_, ?_⟩ <;>
  · simp only [readRegs, correctionRegs, R.IC_LE_RETIRED, R.IC_LE_SUBST, R.XM_STATUS, R.XM_FAULT_ADDR, R.CAL_STATUS, R.ME_COUNTS,
      R.ME_LAST_ADDR, R.ME_LAST_INFO, R.ME_STATUS, List.cons_append, List.nil_append, List.mem_cons, List.not_mem_nil, or_false]
    omega

/-- The value of an operand that lies in the state memory or the exchange memory. -/
def State.operandValue (s : State) (n m a : Nat) : Word :=
  if regionOf a = some .state then s.stateMem n m a
  else if s.pathUp n ∧ s.pathTo 0x28000000 ≠ .bad ∧ s.xmRefusal (s.leDomain n m) (a - 0x4000) false = none
      ∧ s.eccBad (xmAddr (a - 0x4000)) = false then (s.xmSees (s.lePort n m) (a - 0x4000)).1 else 0#32

theorem State.xmRead_data {s : State} {d port w : Nat} (may : s.xmRefusal d w false = none) (good : s.eccBad (xmAddr w) = false) :
    s.xmRead d port w = (.data (s.xmSees port w).1, s.eccRead (xmAddr w)) := by
  simp only [State.xmRead, may, good, Bool.false_eq_true, if_false]

theorem State.xmRead_fails {s : State} {d port w : Nat} (fails : ¬ (s.xmRefusal d w false = none ∧ s.eccBad (xmAddr w) = false)) :
    ∃ e, (s.xmRead d port w).1 = .error e := by
  unfold State.xmRead
  split
  · exact ⟨_, rfl⟩
  next may =>
    have bad : s.eccBad (xmAddr w) = true := by simpa [may] using fails
    rw [if_pos bad]
    exact ⟨_, rfl⟩

theorem State.leExchange_data {s : State} {n m w : Nat} (up : s.pathUp n = true) (path : s.pathTo 0x28000000 ≠ .bad)
    (may : s.xmRefusal (s.leDomain n m) w false = none) (good : s.eccBad (xmAddr w) = false) :
    (s.leExchange n (fun t => t.xmRead (t.leDomain n m) (t.lePort n m) w)).1 = .data (s.xmSees (s.lePort n m) w).1 := by
  rw [State.leExchange, if_pos up, State.overPath]
  split
  · exact congrArg Prod.fst (State.xmRead_data may good)
  · have same : (s.report 0x1C0 0x1C0 0x12 0#32).xmRefusal ((s.report 0x1C0 0x1C0 0x12 0#32).leDomain n m) w false = none := may
    exact congrArg Prod.fst (State.xmRead_data same good)
  · exact absurd ‹_› path

theorem State.leExchange_fails {s : State} {n m w : Nat} (fails : ¬ (s.pathUp n = true ∧ s.pathTo 0x28000000 ≠ .bad
      ∧ s.xmRefusal (s.leDomain n m) w false = none ∧ s.eccBad (xmAddr w) = false)) :
    ∃ e, (s.leExchange n (fun t => t.xmRead (t.leDomain n m) (t.lePort n m) w)).1 = .error e := by
  unfold State.leExchange
  split
  next up =>
    unfold State.overPath
    split
    next path => exact State.xmRead_fails fun ok => fails ⟨up, by rw [path]; decide, ok⟩
    next path =>
      exact State.xmRead_fails (s := s.report 0x1C0 0x1C0 0x12 0#32) fun ok => fails ⟨up, by rw [path]; decide, ok⟩
    next => exact ⟨_, rfl⟩
  next => exact ⟨_, rfl⟩

theorem State.operand_value (s : State) (n m c : Nat) {a : Nat} (region : regionOf a = some .state ∨ regionOf a = some .exchange) :
    (s.operand n m c a).1 = s.operandValue n m a := by
  obtain state | exchange := region
  · simp only [State.operand, State.operandValue, state, if_true]
  · have apart : regionOf a ≠ some .state := by rw [exchange]; decide
    rw [State.operandValue, if_neg apart]
    simp only [State.operand, exchange]
    by_cases open' : s.pathUp n = true ∧ s.pathTo 0x28000000 ≠ .bad ∧ s.xmRefusal (s.leDomain n m) (a - 0x4000) false = none
        ∧ s.eccBad (xmAddr (a - 0x4000)) = false
    · obtain ⟨up, path, may, good⟩ := open'
      have data := State.leExchange_data up path may good
      rw [if_pos ⟨up, path, may, good⟩]
      split
      next e =>
        rw [e] at data
        exact BusResult.data.inj data
      next other e =>
        rw [e] at data
        exact absurd data (other _)
    · obtain ⟨err, fails⟩ := State.leExchange_fails open'
      rw [if_neg open']
      split
      next e =>
        rw [e] at fails
        exact absurd fails (by simp)
      next => rfl

theorem ReadsAlike.operandValue_eq {n m : Nat} {s t : State} (h : ReadsAlike n m s t) (a : Nat) :
    t.operandValue n m a = s.operandValue n m a := by
  obtain ⟨rest, regs, bad⟩ := h
  obtain ⟨owner, retired, subst⟩ := engineRegs_not_read n m
  have domain : t.leDomain n m = s.leDomain n m := congrArg (fld · 3 0) (RegsIn.reg_eq regs owner)
  have port : t.lePort n m = s.lePort n m := by
    have hosted : t.leHosted n m = s.leHosted n m := congrArg (bit · (8 + m)) (RegsIn.reg_eq regs retired)
    have names : t.leSubst n = s.leSubst n := by
      rw [State.leSubst, State.leSubst, RegsIn.rb_eq regs subst, RegsIn.rf_eq regs subst]
    rw [State.lePort, State.lePort, State.lePhysical, State.lePhysical, hosted, names]
  have mem := rest .mem (by decide)
  have now (w : Nat) : t.wordNow w = s.wordNow w := State.wordNow_congr (congrArg XmCycle.words (rest .xmNow (by decide))) w
  have sees (w : Nat) : (t.xmSees (s.lePort n m) w).1 = (s.xmSees (s.lePort n m) w).1 := by
    have word (w : Nat) : t.mword (xmAddr w) = s.mword (xmAddr w) := State.mword_congr mem _
    simp only [State.xmSees, now, word]
    split
    · split <;> rfl
    · rfl
  have up : t.pathUp n = s.pathUp n := State.pathUp_congr (rest .links (by decide)) n
  have path : t.pathTo 0x28000000 = s.pathTo 0x28000000 := by rw [State.pathTo, State.pathTo, rest .paths (by decide)]
  have word : t.stateMem n m a = s.stateMem n m a := State.mword_congr mem _
  simp only [State.operandValue, up, path, domain, port, bad, sees, word, RegsIn.xmRefusal_eq regs readRegs_not_xmRule]

/-- Consecutive operands in the state memory or the exchange memory. -/
theorem State.operands_value (n m c : Nat) : ∀ (w a : Nat) (s : State),
    (∀ k < w, regionOf (a + k) = some .state ∨ regionOf (a + k) = some .exchange) →
    (s.operands n m c a w).1 = (List.range w).map (fun k => s.operandValue n m (a + k))
  | 0, _, _, _ => rfl
  | w + 1, a, s, region => by
    have first := region 0 (Nat.succ_pos w)
    rw [Nat.add_zero] at first
    have alike := (s.operand_readsOnly n m c a).alike fun b => s.operand_eccBad n m c a b
    have rest := State.operands_value n m c w (a + 1) (s.operand n m c a).2 fun k hk => by
      have next := region (k + 1) (Nat.succ_lt_succ hk)
      rwa [show a + (k + 1) = a + 1 + k by omega] at next
    rw [State.operands]
    simp only [s.operand_value n m c first, rest, alike.operandValue_eq]
    rw [List.range_succ_eq_map, List.map_cons, List.map_map, Nat.add_zero]
    congr 1
    refine List.map_congr_left fun k _ => ?_
    exact congrArg (s.operandValue n m) (by simp only [Nat.succ_eq_add_one]; omega)

end Sys2Proof.Machine
end

section
/-!
Motion stages (R137, R143 to R152, R239).
-/
set_option Elab.async false
namespace Sys2Proof.Machine
open Sys2Proof

theorem outputAllowed_words {typ : Nat} {r : Region} (h : outputAllowed typ r = true) (plain : typ ≠ 0xA8) : r = .state ∨ r = .exchange := by
  unfold outputAllowed at h
  split at h
  · exact .inl rfl
  · exact .inr rfl
  · simp at h
    exact absurd h plain
  · exact absurd h (by decide)

/-- The output words of a stage of one instance lie in one region that its type allows. -/
theorem State.Dispatches.out_region {s : State} {n m c typ i : Nat} {h : Hdr} {f : Form} (d : s.Dispatches n m c typ i h f)
    (single : f.lanes = false) : ∀ k < f.oW, ∃ r, outputAllowed typ r = true ∧ regionOf (h.out + k) = some r ∧ regionOf h.out = some r := by
  intro k hk
  have bad := d.header.2
  simp only [State.headerBad, chainError, d.form, d.count_one single, d.kind, Bool.or_eq_false_iff, Bool.not_eq_false'] at bad
  have outs : outputsOk typ (operandAddrs h.out f.oW f.oW 1) = true := by tauto
  have addrs : operandAddrs h.out f.oW f.oW 1 = (List.range f.oW).map (fun i => h.out + i) := by
    simp [operandAddrs]
  obtain ⟨w, hw⟩ : ∃ w, f.oW = w + 1 := ⟨f.oW - 1, by omega⟩
  rw [addrs, hw, List.range_succ_eq_map, List.map_cons, outputsOk, Bool.and_eq_true] at outs
  obtain ⟨one, head⟩ := outs
  simp only [List.head?_cons, Nat.add_zero] at head
  split at head
  next r hr =>
    refine ⟨r, head, ?_, hr⟩
    simp only [oneRegion, Nat.add_zero, hr, List.all_cons, Bool.and_eq_true, List.all_eq_true] at one
    cases k with
    | zero => exact hr
    | succ k =>
      have here := one.2 (h.out + (k + 1)) (List.mem_map.mpr ⟨k + 1, List.mem_map.mpr ⟨k, by simp; omega, rfl⟩, rfl⟩)
      simpa using here.1
  next => exact absurd head (by decide)

/-! ### The cam stage (R147 to R150) -/

theorem camLaw_small (x : LawIn) (tr : CamTrack) (prevO : BitVec 64) (o : List Word) (t : Nat → Word) :
    (camLaw x tr prevO o t).u.length ≤ 8 := by
  unfold camLaw
  dsimp only
  split
  · simp
  · split <;> simp

/-- The law of a cam none of whose entries is due: `o` are the words at OUT where it engages, `t` is its table. -/
def camRule (o : LawIn → List Word) (t : LawIn → Nat → Word) (x : LawIn) : LawOut :=
  match camCycle (x.P 2) with
  | none => camParam x
  | some cq => camLaw x (camTrack cq x.st (posOf (x.A 0) (x.A 1))) (posOf (x.S 0) (x.S 1)) (o x) (t x)

theorem camRule_small (o : LawIn → List Word) (t : LawIn → Nat → Word) (x : LawIn) : (camRule o t x).u.length ≤ 8 := by
  unfold camRule
  split
  · simp [camParam]
  · exact camLaw_small _ _ _ _ _

/-- The inputs of a stage are read as in the state in which it dispatches. -/
theorem State.gathered_alike (s : State) (n m c : Nat) (h : Hdr) (f : Form) :
    ReadsOnly n m c (s.ctxBegin n m c) (s.gathered n m c h f) ∧ ReadsAlike n m s (s.gathered n m c h f) := by
  have reads := State.gather_readsOnly n m c h f h.count 0 (s.ctxBegin n m c)
  have begun := (State.ctxBegin_touch : Touch _ s (s.ctxBegin n m c)).sameBut (by decide : masksOnly _ [.les] = true)
  have first : ReadsAlike n m s (s.ctxBegin n m c) :=
    ⟨begun.mono (by decide), .of_regs (begun .regs (by decide)) _, State.eccBad_congr (begun .ecc (by decide))⟩
  exact ⟨reads, first.trans (reads.alike fun a => State.gather_eccBad n m c h f a h.count 0 _)⟩

theorem cam_leaves {n : Fin 16} {m : Fin 6} {c : Fin 8} {i : Nat} {h : Hdr} {f : Form} {s : State}
    (d : s.Dispatches n m c 0x91 i h f) (quiet : ∀ e ∈ s.ep.entries, e.due = true → entryOf n m e = false) :
    s.Leaves n m c i h f (camRule
        (fun x => if x.flag 0 && camEngaged (x.S 4) == 0 then (s.operands n m c h.out 2).1 else [])
        (fun x k => s.desc n m ((x.P 0).toNat + k)))
      (s.stageCmd 0x91 n m c .clean 0 (State.camStage n m c)) := by
  have form : f = .mk false 2 2 0 0 3 7 8 := by
    have shape := d.shape
    simp only [formOf, d.kind, Option.some.injEq, form] at shape
    exact shape.symm
  have single : f.lanes = false := by rw [form]
  obtain ⟨x, one, gather⟩ := d.gatherOne single
  obtain ⟨reads, alike⟩ := s.gathered_alike n m c h f
  have region : ∀ k < 2, regionOf (h.out + k) = some .state ∨ regionOf (h.out + k) = some .exchange := by
    intro k hk
    obtain ⟨r, allowed, here, -⟩ := d.out_region single k (by rw [form]; exact Nat.lt_trans hk (by decide))
    rw [here]
    exact (outputAllowed_words allowed (by decide)).imp (congrArg some) (congrArg some)
  have prepared := d.prepared
  have desc (g : State) (mem : g.mem = s.mem) : g.desc n m = s.desc n m := funext fun k => State.mword_congr mem _
  rw [d.stageCmd_clean, State.camStage]
  simp only [gather]
  generalize s.gathered n m c h f = g at *
  have entries : g.ep = s.ep := alike.rest .ep (by decide)
  have none (p : Entry → Bool) : g.ep.entries.any (fun e => e.due && (entryOf n m e && p e)) = false := by
    rw [entries, List.any_eq_false]
    intro e he
    cases due : e.due with
    | false => simp
    | true => simp [quiet e he due]
  have law := camRule_small (fun x => if x.flag 0 && camEngaged (x.S 4) == 0 then (s.operands n m c h.out 2).1 else [])
    (fun x k => s.desc n m ((x.P 0).toNat + k)) x
  cases cyc : camCycle (x.P 2) with
  | none =>
    have leaves := prepared.leaves_one d one (law.trans (by decide))
    simpa only [camRule, cyc] using leaves
  | some cq =>
    simp only [none, Bool.and_false, Bool.false_eq_true, if_false, State.camCompute, cyc, Bool.or_false]
    by_cases engage : (x.flag 0 && camEngaged (x.S 4) == 0) = true
    · have words : (g.operands n m c h.out 2).1 = (s.operands n m c h.out 2).1 := by
        rw [State.operands_value n m c 2 _ g region, State.operands_value n m c 2 _ s region]
        exact List.map_congr_left fun k _ => alike.operandValue_eq _
      have reads2 := State.operands_readsOnly n m c 2 h.out g
      have prepared2 := (reads.trans reads2).prepared d.sound
      have table := desc (g.operands n m c h.out 2).2 ((reads2.rest.sameBut (by decide : masksOnly _
        [.due, .regs, .scCount, .mks, .les, .ecc, .macros] = true) .mem (by decide)).trans (alike.rest .mem (by decide)))
      have leaves := prepared2.leaves_one d one (law.trans (by decide))
      simp only [camRule, cyc, engage, if_true] at leaves ⊢
      rw [words, table]
      exact leaves
    · have table := desc g (alike.rest .mem (by decide))
      have leaves := prepared.leaves_one d one (law.trans (by decide))
      simp only [camRule, cyc, engage, Bool.false_eq_true, if_false] at leaves ⊢
      rw [table]
      exact leaves

/-! ### The other motion stages -/

theorem lawShaper_small (x : LawIn) : (lawShaper x).u.length ≤ 8 := by
  simp only [lawShaper, apply_ite LawOut.u, apply_ite List.length]
  simp [shaperOut]

theorem lawGearing_small (x : LawIn) : (lawGearing x).u.length ≤ 8 := by
  unfold lawGearing
  dsimp only
  split <;> simp

theorem compareArmLaw_small (x : LawIn) : (compareArmLaw x).1.u.length ≤ 8 := by
  unfold compareArmLaw
  dsimp only
  split
  · split <;> simp
  · simp
  · simp only [apply_ite Prod.fst, apply_ite LawOut.u, apply_ite List.length]
    simp

theorem compareArm_run {s : State} {n m c i : Nat} {h : Hdr} {f : Form} (d : s.Dispatches n m c 0x93 i h f) {x : LawIn}
    (gather : (s.ctxBegin n m c).gatherOne n m c h = (x, s.gathered n m c h f)) :
    s.stageCmd 0x93 n m c .clean 0 (State.compareArmStage n m c)
      = (if (compareArmLaw x).2 then (s.gathered n m c h f).leOutputs n m c [.emit (h.flags / 8 % 8)]
          else s.gathered n m c h f).settle n m c i h (compareArmLaw x).1 := by
  rw [d.stageCmd_clean, State.compareArmStage]
  simp only [gather]

/-- Settles O40: the shaper and the gearing follow their laws; a cam none of whose entries is due follows its table; a position
compare emits beside its result. -/
theorem motionStages : Obligations.MotionStages := by
  unfold Obligations.MotionStages
  refine ⟨?_, ?_, ?_, ?_⟩
  · intro n m c i h f s d
    exact ⟨_, rfl, d.leaves (law := lawShaper) lawShaper_small⟩
  · intro n m c i h f s d quiet
    exact ⟨_, rfl, cam_leaves d quiet⟩
  · intro n m c i h f s d
    exact ⟨_, rfl, d.leaves (law := lawGearing) lawGearing_small⟩
  · intro n m c i h f s d
    have single : f.lanes = false := by
      have shape := d.shape
      simp only [formOf, d.kind, Option.some.injEq, form] at shape
      rw [← shape]
    obtain ⟨x, one, gather⟩ := d.gatherOne single
    obtain ⟨leaves, fires, held⟩ := d.emitting one (law := fun x => (compareArmLaw x).1)
      ((compareArmLaw_small x).trans (by decide)) (compareArmLaw x).2 (Nat.mod_lt _ (by decide)) (compareArm_run d gather)
    have only (y : LawIn) (hy : s.instances n m c h f = [y]) : y = x := by
      rw [one] at hy
      exact (List.cons.inj hy).1.symm
    refine ⟨_, rfl, ?_, fun y hy inTime fire natural => ?_, fun y hy inTime fire fix state => ?_⟩
    · rw [one]
      cases fire : (compareArmLaw x).2
      · simpa [fire] using leaves
      · simpa [fire] using leaves
    · rw [only y hy] at fire
      exact fires inTime fire natural
    · rw [only y hy] at fire
      exact held inTime fire fix (.inl (by rw [state]; decide))

end Sys2Proof.Machine
end

section
/-!
Laws, events and relays of the utility stages (R139, R154 to R158).
-/
set_option Elab.async false
namespace Sys2Proof.Machine
open Sys2Proof

theorem regionOf_state {a : Nat} (h : regionOf a = some .state) : a < 0x2000 := by
  unfold regionOf at h
  split_ifs at h <;> simp at h
  assumption

/-! ### Stages of one law (R139) -/

theorem lawMove_small (x : LawIn) : (lawMove x).u.length ≤ 8 := by simp [lawMove]

theorem lawAffine_small (x : LawIn) : (lawAffine x).u.length ≤ 8 := by simp [lawAffine]

theorem lawCompareSelect_small (x : LawIn) : (lawCompareSelect x).u.length ≤ 8 := by simp [lawCompareSelect]

theorem tableLaw_small (x : LawIn) (t : Nat → Word) : (tableLaw x t).u.length ≤ 8 := by
  unfold tableLaw
  split <;> simp

theorem State.desc_congr {s t : State} (mem : t.mem = s.mem) (n m : Nat) : t.desc n m = s.desc n m :=
  funext fun _ => State.mword_congr mem _

/-- The table of a stage is the same to the execution that reads it. -/
theorem table_leaves {n : Fin 16} {m : Fin 6} {c : Fin 8} {i : Nat} {h : Hdr} {f : Form} {s : State}
    (d : s.Dispatches n m c 0xA4 i h f) :
    s.Leaves n m c i h f (fun x => tableLaw x (fun k => s.desc n m ((x.P 0).toNat + k)))
      (s.stageCmd 0xA4 n m c .clean 0 (fun t i h =>
        State.lawStage n m c (fun x => tableLaw x (fun k => t.desc n m ((x.P 0).toNat + k))) t i h)) := by
  have begun := (State.ctxBegin_touch : Touch _ s (s.ctxBegin n m c)).sameBut (by decide : masksOnly _ [.les] = true)
  have table := State.desc_congr (begun .mem (by decide)) n m
  have leaves := d.leaves (law := fun x => tableLaw x (fun k => s.desc n m ((x.P 0).toNat + k))) fun x => tableLaw_small x _
  rw [d.stageCmd_clean] at leaves ⊢
  rw [table]
  exact leaves

/-! ### Events (R139) -/

/-- The law of an event stage. -/
def emitLaw (x : LawIn) : LawOut := ⟨[], [if zLt 0#32 (x.A 0) then 1#32 else 0#32], anyBad [x.A 0]⟩

/-- Does an event stage of mode `mode` fire? -/
def emitFires (mode : Nat) (x : LawIn) : Bool :=
  match mode with
  | 0 => true
  | 1 => zLt 0#32 (x.A 0)
  | 2 => zLt 0#32 (x.A 0) && !(x.S 0 != 0#32)
  | _ => zLe (x.A 0) 0#32 && x.S 0 != 0#32

theorem emitFires_of {mode : Nat} {x : LawIn} (h : mode = 0 ∨ mode = 1 ∧ zLt 0#32 (x.A 0) = true
    ∨ mode = 2 ∧ zLt 0#32 (x.A 0) = true ∧ x.S 0 = 0#32 ∨ mode = 3 ∧ zLe (x.A 0) 0#32 = true ∧ x.S 0 ≠ 0#32) :
    emitFires mode x = true := by
  obtain rfl | ⟨rfl, on⟩ | ⟨rfl, on, was⟩ | ⟨rfl, off, was⟩ := h
  · rfl
  · exact on
  · simp [emitFires, on, was]
  · simp [emitFires, off, was]

theorem emit_run {s : State} {n m c i : Nat} {h : Hdr} {f : Form} (d : s.Dispatches n m c 0xA6 i h f) {x : LawIn}
    (gather : (s.ctxBegin n m c).gatherOne n m c h = (x, s.gathered n m c h f)) :
    s.stageCmd 0xA6 n m c .clean 0 (State.emitStage n m c)
      = (if emitFires (h.flags / 8 % 4) x then (s.gathered n m c h f).leOutputs n m c [.emit (h.flags % 8)]
          else s.gathered n m c h f).settle n m c i h (emitLaw x) := by
  rw [d.stageCmd_clean, State.emitStage]
  simp only [gather]
  rfl

theorem State.Dispatches.single {s : State} {n m c typ i : Nat} {h : Hdr} {f : Form} (d : s.Dispatches n m c typ i h f)
    (only : typ = 0xA0 ∨ typ = 0xA1 ∨ typ = 0xA6 ∨ typ = 0xA7) : f.lanes = false := by
  have shape := d.shape
  obtain rfl | rfl | rfl | rfl := only <;> simp only [formOf, d.kind] at shape
  case inl =>
    split at shape
    · exact absurd shape (by simp)
    · rw [← Option.some.inj shape]
      rfl
  all_goals
    rw [← Option.some.inj shape]
    rfl

theorem emit_leaves {n : Fin 16} {m : Fin 6} {c : Fin 8} {i : Nat} {h : Hdr} {f : Form} {s : State}
    (d : s.Dispatches n m c 0xA6 i h f) : ∃ t, exec (.eventEmit n m c .clean) s = .next t
      ∧ s.Leaves n m c i h f emitLaw t
      ∧ (∀ x : LawIn, s.instances n m c h f = [x] → ((s.ctxBegin n m c).ctx n m c).overrun = false →
          emitFires (h.flags / 8 % 4) x = true → ((s.ctxBegin n m c).ctx n m c).fixed = false →
          Fires (256 * n.val + 16 * m.val + 8 + h.flags % 8) s t)
      ∧ (∀ x : LawIn, s.instances n m c h f = [x] → ((s.ctxBegin n m c).ctx n m c).overrun = false →
          emitFires (h.flags / 8 % 4) x = true → ((s.ctxBegin n m c).ctx n m c).fixed = true →
          (t.ctx n m c).outs = ((s.ctxBegin n m c).ctx n m c).outs ++ [.emit (h.flags % 8)]) := by
  obtain ⟨x, one, gather⟩ := d.gatherOne (d.single (by simp))
  obtain ⟨leaves, fires, held⟩ := d.emitting one (law := emitLaw) (by simp [emitLaw]) (emitFires (h.flags / 8 % 4) x)
    (Nat.mod_lt _ (by decide)) (emit_run d gather)
  have only (y : LawIn) (hy : s.instances n m c h f = [y]) : y = x := by
    rw [one] at hy
    exact (List.cons.inj hy).1.symm
  refine ⟨_, rfl, ?_, fun y hy inTime on natural => ?_, fun y hy inTime on fix => ?_⟩
  · obtain ⟨mem, -, words, bad, stage⟩ := leaves
    refine ⟨mem, fun _ some => absurd ?_ some, words, bad, stage⟩
    simp [emitLaw]
  · rw [only y hy] at on
    exact fires inTime on natural
  · rw [only y hy] at on
    exact held inTime on fix (.inr rfl)

/-! ### The relay of the auto-tune stage (R154 to R158) -/

theorem State.le_setLe_self (s : State) (n m : Nat) (r : LeRec) : (s.setLe n m r).le n m = r := by
  rw [State.le, State.setLe, Store.get_set, if_pos rfl]

/-- Another relay changes no context. -/
theorem State.ctx_setLe_relays (s : State) (n m c : Nat) (v : Store Bool) :
    (s.setLe n m { s.le n m with relays := v }).ctx n m c = s.ctx n m c := by
  rw [State.ctx, State.le_setLe_self, State.ctx]

theorem State.Prepared.relays {s g : State} {n m c : Nat} {pre : List OutAct} (p : s.Prepared n m c pre g) (v : Store Bool) :
    s.Prepared n m c pre (g.setLe n m { g.le n m with relays := v }) := by
  obtain ⟨sound, words, overrun, fixed, held, way, free, may⟩ := p
  have ctx := g.ctx_setLe_relays n m c v
  have touch : Touch _ g (g.setLe n m { g.le n m with relays := v }) := State.setLe_touch_ctxs (k := n) (j := m) rfl
  exact ⟨touch.sound sound, words, (congrArg CtxRec.overrun ctx).trans overrun, (congrArg CtxRec.fixed ctx).trans fixed,
    fun inTime fix => (congrArg CtxRec.outs ctx).trans (held inTime fix), way, free, may⟩

/-! ### Relays as a stage leaves them -/

theorem State.leOutput_les (s : State) (n m c : Nat) (o : OutAct) : (s.leOutput n m c o).les = s.les :=
  State.leOutput_touch.sameBut (by decide : masksOnly _ [.due, .regs, .scCount, .mem, .stamps, .tus, .ecc, .xmNow, .pulses] = true)
    .les (by decide)

theorem State.leOutputs_foldl_les (n m c : Nat) : ∀ (acts : List OutAct) (s : State),
    (acts.foldl (fun t o => t.leOutput n m c o) s).les = s.les
  | [], _ => rfl
  | o :: l, s => (State.leOutputs_foldl_les n m c l _).trans (s.leOutput_les n m c o)

theorem State.leOutputs_relays (s : State) (n m c : Nat) (acts : List OutAct) :
    ((s.leOutputs n m c acts).le n m).relays = (s.le n m).relays := by
  by_cases none : acts = []
  · subst none
    simp only [State.leOutputs, if_true, List.append_nil, List.foldl_nil]
    split
    · rfl
    · split
      · exact s.setCtx_relays n m c _
      · rfl
  · have stamp : ((s.stamped n m c).le n m).relays = (s.le n m).relays := s.setCtx_relays n m c _
    rw [State.leOutputs_eq _ _ _ _ none]
    split
    · exact stamp
    · split
      · exact (State.setCtx_relays _ n m c _).trans stamp
      · rw [State.le_congr (State.leOutputs_foldl_les n m c acts _)]
        exact stamp

theorem State.putOut_relays (s : State) (n m c a : Nat) (vs : List Word) :
    ((s.putOut n m c a vs).le n m).relays = (s.le n m).relays := by
  unfold State.putOut
  split
  · rfl
  · split
    · exact congrArg LeRec.relays (State.le_congr ((s.commit_keeps n m c a vs).1 .les (by decide)) n m)
    · exact s.leOutputs_relays n m c _
    · rfl

theorem State.stageDone_relays {s : State} (sound : s.Sound) (n m c i : Nat) :
    ((s.stageDone n m c i).le n m).relays = (s.le n m).relays := by
  have moved := s.setCtx_relays n m c { s.ctx n m c with stage := i + 1, pass := 0, kept := [] }
  have sound' := (State.setCtx_touch (n := n) (m := m) (c := c) (x := { s.ctx n m c with stage := i + 1, pass := 0, kept := [] })).sound sound
  unfold State.stageDone
  dsimp only
  generalize s.setCtx n m c { s.ctx n m c with stage := i + 1, pass := 0, kept := [] } = t at *
  split
  · exact (sound'.chainEnd n m c).relays.trans moved
  · exact moved

theorem State.settle_relays {g : State} (sound : g.Sound) (n : Fin 16) (m : Fin 6) (c : Fin 8) (i : Nat) {h : Hdr} {o : LawOut}
    (low : h.out < 0x10000) (small : o.u.length ≤ 0x8000) :
    ((g.settle n m c i h o).le n m).relays = (g.le n m).relays := by
  obtain ⟨same, sound1, -⟩ := g.committed_keeps n m c h o
  have out := State.putOut_effect n m c low small (sound1 sound)
  rw [State.settle_eq, State.stageDone_relays (out.sound (sound1 sound)), State.putOut_relays,
    State.le_congr (same .les (by decide))]

theorem tuneRun_small (x : LawIn) (relay first cancel lost : Bool) : (tuneRun x relay first cancel lost).1.u.length ≤ 8 := by
  simp only [tuneRun, apply_ite Prod.fst, apply_ite LawOut.u, apply_ite List.length]
  simp

theorem tuneLaw_small (x : LawIn) (relay lost lostBefore : Bool) : (tuneLaw x relay lost lostBefore).1.u.length ≤ 8 := by
  unfold tuneLaw
  dsimp only
  generalize (if (fld (x.S 0) 31 16 != fld (x.S 1) 31 16) = true then setFld (x.S 1) 31 16 (fld (x.S 0) 31 16) else x.S 1) = s1
  split
  · split
    · simp
    · exact tuneRun_small _ _ _ _ _
  · split
    · exact tuneRun_small _ _ _ _ _
    · simp

/-- Without a command and without an experiment the stage passes its input `b0` on. -/
theorem tuneLaw_idle {x : LawIn} (noCmd : fld (x.S 0) 31 16 = fld (x.S 1) 31 16) (idle : fld (x.S 1) 3 0 ≠ 1)
    (relay lost lostBefore : Bool) : (tuneLaw x relay lost lostBefore).1.u = [x.B 0] := by
  simp [tuneLaw, noCmd, idle]

theorem tune_leaves {n : Fin 16} {m : Fin 6} {c : Fin 8} {i : Nat} {h : Hdr} {f : Form} {s : State}
    (d : s.Dispatches n m c 0xA1 i h f) (law : LawIn → LawOut × Bool)
    (isLaw : ∀ x, law x = tuneLaw x ((s.le n m).relays.get (fun _ => false) h.stateOfs) ((s.ctxBegin n m c).ctx n m c).lost
      ((s.ctxBegin n m c).ctx n m c).lostBefore) :
    ∃ t, exec (.relayAutoTune n m c .clean) s = .next t ∧ s.Leaves n m c i h f (fun x => (law x).1) t
      ∧ ∀ x : LawIn, s.instances n m c h f = [x] → (t.le n m).relays.get (fun _ => false) h.stateOfs = (law x).2 := by
  obtain ⟨x, one, gather⟩ := d.gatherOne (d.single (by simp))
  have reads := State.gather_readsOnly n m c h f h.count 0 (s.ctxBegin n m c)
  have prepared := d.prepared
  have small : (law x).1.u.length ≤ 0x8000 := by
    rw [isLaw]
    exact (tuneLaw_small _ _ _ _).trans (by decide)
  have begun : ((s.ctxBegin n m c).le n m).relays = (s.le n m).relays := by
    unfold State.ctxBegin
    dsimp only
    split
    · exact s.setCtx_relays n m c _
    · rfl
  refine ⟨_, rfl, ?_⟩
  rw [d.stageCmd_clean, State.tuneStage]
  simp only [gather]
  rw [← State.gathered] at reads
  generalize s.gathered n m c h f = g at *
  have relays := reads.relays.trans begun
  obtain ⟨run, -, -, -⟩ := CtxRec.run_eq reads.run
  simp only [Prod.mk.injEq] at run
  obtain ⟨-, -, lost, lostBefore⟩ := run
  rw [relays, lost, lostBefore, ← isLaw]
  have next := prepared.relays ((s.le n m).relays.set (fun _ => false) h.stateOfs (law x).2)
  refine ⟨next.leaves_one d one (law := fun x => (law x).1) small, fun y hy => ?_⟩
  rw [one] at hy
  obtain rfl := (List.cons.inj hy).1
  rw [State.settle_relays next.sound n m c i d.out_lt small, State.le_setLe_self, Store.get_set, if_pos rfl]

end Sys2Proof.Machine
end

section
/-!
Predictive control and transfers of frames (R138, R140).
-/
set_option Elab.async false
namespace Sys2Proof.Machine
open Sys2Proof

/-! ### Predictive control in four passes (R138) -/

/-- The context that has its turn runs or can run. -/
theorem State.leChoice_phase {s : State} {n m c : Nat} (turn : s.leChoice n m = some c) :
    (s.ctx n m c).phase = .running ∨ (s.ctx n m c).phase = .runnable := by
  revert turn
  unfold State.leChoice
  refine List.foldlRecOn (motive := fun a => a = some c → _) _ _ (by simp) fun a before k hk => ?_
  have mine (h : some k = some c) : (s.ctx n m c).phase = .running ∨ (s.ctx n m c).phase = .runnable := by
    obtain rfl := Option.some.inj h
    have phase := (List.mem_filter.mp hk).2
    simp only [Bool.or_eq_true, Bool.and_eq_true, beq_iff_eq] at phase
    exact phase.imp id fun h => h.1
  split
  · exact mine
  · split
    · exact mine
    · exact before

/-- The execution of the context that has its turn runs. -/
theorem State.Dispatches.running {s : State} {n m c typ i : Nat} {h : Hdr} {f : Form} (d : s.Dispatches n m c typ i h f)
    (hc : c < 8) : ((s.ctxBegin n m c).ctx n m c).phase = .running := by
  unfold State.ctxBegin
  dsimp only
  split
  · rw [State.ctx_setCtx, if_pos ⟨rfl, by rw [d.sound.ctxs_length]; exact hc⟩]
  next no => exact (State.leChoice_phase d.turn).resolve_right fun h => no (by rw [h]; rfl)

theorem State.ctxBegin_of_running {s : State} {n m c : Nat} (h : (s.ctx n m c).phase = .running) : s.ctxBegin n m c = s := by
  unfold State.ctxBegin
  dsimp only
  rw [h, if_neg (by decide)]

theorem State.running_of_fcsPass {s : State} {n m c : Nat} (h : s.fcsPass n m c ≠ 0) : (s.ctx n m c).phase = .running := by
  unfold State.fcsPass State.partWay at h
  split at h
  next way => exact eq_of_beq way
  next => exact absurd rfl h

theorem length_legs (variant k : Nat) :
    (if variant = 2 then (legsOf variant k).flatMap (fun l => [flagWord (l == 1), flagWord (l == -1)])
      else (legsOf variant k).map (fun l => flagWord (l == 2))).length ≤ 7 := by
  split
  next two => simp [legsOf, two]
  next other => simp [legsOf, other]

theorem lawFcs_small (x : LawIn) : (lawFcs x).u.length ≤ 8 := by
  unfold lawFcs
  dsimp only
  rw [List.length_append]
  exact Nat.succ_le_succ (length_legs _ _)

theorem State.setCtx_pass {g : State} (sound : g.Sound) {n m c : Nat} (hc : c < 8) (p : Nat) :
    (g.setCtx n m c { g.ctx n m c with pass := p }).ctx n m c = { g.ctx n m c with pass := p } := by
  rw [State.ctx_setCtx, if_pos ⟨rfl, by rw [sound.ctxs_length]; exact hc⟩]

section
variable {n : Fin 16} {m : Fin 6} {c : Fin 8} {i : Nat} {h : Hdr} {f : Form} {s : State} (d : s.Dispatches n m c 0xA0 i h f)
include d

/-- The first pass keeps what the stage reads. -/
theorem fcs_first : ∃ t, s.stageCmd 0xA0 n m c .clean 0 (State.fcsStage n m c 0) = t ∧ (t.ctx n m c).pass = 1
    ∧ (t.ctx n m c).phase = .running ∧ t.mem = s.mem
    ∧ ∀ x : LawIn, s.instances n m c h f = [x] → (t.ctx n m c).kept = [x.a, x.b, x.p, x.st] := by
  obtain ⟨x, one, gather⟩ := d.gatherOne (d.single (by simp))
  obtain ⟨reads, alike⟩ := s.gathered_alike n m c h f
  have running := d.running c.isLt
  have sound := d.prepared.sound
  refine ⟨_, rfl, ?_⟩
  rw [d.stageCmd_clean, State.fcsStage]
  simp only [gather, if_true]
  generalize s.gathered n m c h f = g at *
  have kept : (g.setCtx n m c { g.ctx n m c with kept := [x.a, x.b, x.p, x.st] }).ctx n m c
      = { g.ctx n m c with kept := [x.a, x.b, x.p, x.st] } := by
    rw [State.ctx_setCtx, if_pos ⟨rfl, by rw [sound.ctxs_length]; exact c.isLt⟩]
  have sound1 : (g.setCtx n m c { g.ctx n m c with kept := [x.a, x.b, x.p, x.st] }).Sound := State.setCtx_touch.sound sound
  have mem : (g.setCtx n m c { g.ctx n m c with kept := [x.a, x.b, x.p, x.st] }).mem = s.mem :=
    Eq.trans rfl (alike.rest .mem (by decide))
  generalize g.setCtx n m c { g.ctx n m c with kept := [x.a, x.b, x.p, x.st] } = u at *
  have ctx := State.setCtx_pass sound1 (n := n) (m := m) c.isLt (0 + 1)
  obtain ⟨run, -, -, -⟩ := CtxRec.run_eq reads.run
  simp only [Prod.mk.injEq] at run
  obtain ⟨-, phase, -, -⟩ := run
  simp only [show ¬ (0 = 3) by decide, if_false]
  refine ⟨congrArg CtxRec.pass ctx, ?_, mem, fun y hy => ?_⟩
  · exact (congrArg CtxRec.phase ctx).trans ((congrArg CtxRec.phase kept).trans (phase.trans running))
  · rw [one] at hy
    obtain rfl := (List.cons.inj hy).1
    exact (congrArg CtxRec.kept ctx).trans (congrArg CtxRec.kept kept)

/-- A later pass but the last only counts. -/
theorem fcs_between {pass : Nat} (later : pass ≠ 0) (early : pass ≠ 3) :
    ∃ t, s.stageCmd 0xA0 n m c .clean pass (State.fcsStage n m c pass) = t ∧ (t.ctx n m c).pass = pass + 1
      ∧ (t.ctx n m c).phase = .running ∧ t.mem = s.mem := by
  have begun := (State.ctxBegin_touch : Touch _ s (s.ctxBegin n m c))
  have mem := begun.sameBut (by decide : masksOnly _ [.les] = true) .mem (by decide)
  have sound := begun.sound d.sound
  have running := d.running c.isLt
  refine ⟨_, rfl, ?_⟩
  rw [d.stageCmd_clean, State.fcsStage]
  simp only [if_neg later, if_neg early]
  generalize s.ctxBegin n m c = g at *
  have ctx := State.setCtx_pass sound (n := n) (m := m) c.isLt (pass + 1)
  exact ⟨congrArg CtxRec.pass ctx, (congrArg CtxRec.phase ctx).trans running, Eq.trans rfl mem⟩

/-- The last pass leaves what the law gives for what the first has kept. -/
theorem fcs_last (turn : s.fcsPass n m c = 3) :
    s.LeavesAll n m c i h ([keptIn h (s.ctx n m c).kept].map lawFcs)
      (s.stageCmd 0xA0 n m c .clean 3 (State.fcsStage n m c 3)) [] := by
  have begun := State.ctxBegin_of_running (State.running_of_fcsPass (by rw [turn]; decide))
  have prepared : s.Prepared n m c [] s := by
    have reads := ReadsOnly.prepared d.sound (ReadsOnly.refl n m c (s.ctxBegin n m c))
    rwa [begun] at reads
  have leaves := prepared.settle d.out_lt i (os := [lawFcs (keptIn h (s.ctx n m c).kept)])
    (by simpa using (lawFcs_small _).trans (by decide))
  rw [d.stageCmd_clean, State.fcsStage, begun]
  simp only [show ¬ (3 = 0) by decide, if_false, if_true]
  rw [State.settle_one]
  exact leaves

end

theorem execFcsMpc_next {s : State} {n : Fin 16} {m : Fin 6} {c : Fin 8} {p : Fin 4} (turn : s.fcsPass n m c = p) :
    exec (.fcsMpc n m c .clean p) s = .next (s.stageCmd 0xA0 n m c .clean p (State.fcsStage n m c p)) := by
  have run : exec (.fcsMpc n m c .clean p) s = execFcsMpc n m c .clean p s := rfl
  rw [run, execFcsMpc, if_pos turn]

/-! ### Transfers of exchange frames (R140) -/

theorem State.ctxInstant_congr {s t : State} {n m c : Nat} (regs : t.regs = s.regs)
    (ctx : ((t.ctx n m c).sampled, (t.ctx n m c).arrival) = ((s.ctx n m c).sampled, (s.ctx n m c).arrival)) :
    t.ctxInstant n m c = s.ctxInstant n m c := by
  obtain ⟨sampled, arrival⟩ := Prod.mk.inj ctx
  have ref : t.ctxRef n m c = s.ctxRef n m c := by
    simp only [State.ctxRef, State.rf, State.reg, regs]
    rfl
  simp only [State.ctxInstant, ref, sampled, arrival]

/-- The first of an execution leaves what a transfer goes by. -/
theorem State.transferOk_ctxBegin {s : State} {n m c : Nat} (w k : Nat) (age : Word) :
    (s.ctxBegin n m c).transferOk n m c w k age = s.transferOk n m c w k age := by
  have instant : (s.ctxBegin n m c).ctxInstant n m c = s.ctxInstant n m c := by
    refine State.ctxInstant_congr (State.ctxBegin_touch.sameBut (by decide : masksOnly _ [.les] = true) .regs (by decide)) ?_
    unfold State.ctxBegin
    dsimp only
    split
    · exact State.ctx_setCtx_part (fun x => (x.sampled, x.arrival)) s n m c { s.ctx n m c with
        phase := .running, stage := 0, pass := 0, kept := [], spare := false, fixed := s.ctxFixed n m c, items := [],
        lostBefore := (s.ctx n m c).lost, lost := false } rfl c
    · rfl
  unfold State.ctxBegin at instant ⊢
  dsimp only at instant ⊢
  split
  next runs =>
    rw [if_pos runs] at instant
    unfold State.transferOk
    rw [instant]
    rfl
  next => rfl

theorem State.length_operands (n m c : Nat) : ∀ (w a : Nat) (s : State), (s.operands n m c a w).1.length = w
  | 0, _, _ => rfl
  | w + 1, a, _ => congrArg (· + 1) (State.length_operands n m c w (a + 1) _)

section
variable {n : Fin 16} {m : Fin 6} {c : Fin 8} {i : Nat} {h : Hdr} {f : Form} {s : State} (d : s.Dispatches n m c 0xA7 i h f)
include d

/-- The first parameter word of a transfer counts its words. -/
theorem transfer_form : f = .mk false (s.desc n m h.paramOfs).toNat (s.desc n m h.paramOfs).toNat 0 0
      ((s.desc n m h.paramOfs).toNat + b2n (!h.flag 0)) 2 0 ∧ (s.desc n m h.paramOfs).toNat ≤ 16384 := by
  have shape := d.shape
  have one := d.count_one (d.single (by simp))
  have bad := d.header.2
  have words : f.pW = 2 := by
    simp only [formOf, d.kind, Option.some.injEq] at shape
    rw [← shape]
    rfl
  simp only [State.headerBad, chainError, d.form, one, Bool.or_eq_false_iff, Nat.one_mul, ite_self, words] at bad
  have length : h.paramLen = 2 := by
    have : (h.paramLen != 2) = false := by tauto
    simpa using this
  have small : f.aW ≤ 16384 := by
    have : decide (16384 < f.aW) = false := by tauto
    simpa using this
  have head : s.headP0 n m h = s.desc n m h.paramOfs := by
    simp only [State.headP0, length, one]
    split
    next zero => exact absurd zero (by decide)
    split
    · simp [w32]
    · rfl
  rw [head] at shape
  simp only [formOf, d.kind, Option.some.injEq] at shape
  rw [← shape] at small ⊢
  exact ⟨rfl, small⟩

/-- What a transfer reads are its inputs. -/
theorem transfer_reads : ∃ x, s.instances n m c h f = [x]
    ∧ (s.ctxBegin n m c).operands n m c h.inA (s.desc n m h.paramOfs).toNat = (x.a, s.gathered n m c h f) := by
  have one := d.count_one (d.single (by simp))
  obtain ⟨form, -⟩ := transfer_form d
  have run : ∃ x : LawIn, (s.ctxBegin n m c).gather n m c h f 0 1
      = ([x], ((s.ctxBegin n m c).operands n m c h.inA (s.desc n m h.paramOfs).toNat).2)
      ∧ x.a = ((s.ctxBegin n m c).operands n m c h.inA (s.desc n m h.paramOfs).toNat).1 := by
    simp only [form, State.gather, State.operands, Nat.zero_mul, Nat.add_zero]
    exact ⟨_, rfl, rfl⟩
  obtain ⟨x, gather, a⟩ := run
  refine ⟨x, ?_, ?_⟩
  · rw [State.instances, one, gather]
  · rw [a, State.gathered, one, gather]

/-- The words that a transfer has read go out. -/
theorem transfer_puts {tail : List Word} (short : tail.length ≤ 1) {x : LawIn} (one : s.instances n m c h f = [x]) :
    s.Leaves n m c i h f (fun x => ⟨x.a ++ tail, [], false⟩)
      (((s.gathered n m c h f).putOut n m c h.out (x.a ++ tail)).stageDone n m c i) := by
  obtain ⟨y, one', reads⟩ := transfer_reads d
  obtain ⟨-, bound⟩ := transfer_form d
  have same : x = y := by
    rw [one'] at one
    exact (List.cons.inj one).1.symm
  have length : x.a.length = (s.desc n m h.paramOfs).toNat := by
    rw [same, ← State.length_operands n m c (s.desc n m h.paramOfs).toNat h.inA (s.ctxBegin n m c), reads]
  have run : (s.gathered n m c h f).settle n m c i h ⟨x.a ++ tail, [], false⟩
      = ((s.gathered n m c h f).putOut n m c h.out (x.a ++ tail)).stageDone n m c i := rfl
  rw [← run]
  refine d.prepared.leaves_one d one (law := fun x => ⟨x.a ++ tail, [], false⟩) ?_
  simp only [List.length_append]
  omega

theorem transfer_leaves (ok : h.flag 0 = true ∨ (regionOf h.inA = some .exchange
      ∧ s.transferOk n m c (h.inA - 0x4000) (s.desc n m h.paramOfs).toNat (s.desc n m (h.paramOfs + 1)) = true)) :
    s.Leaves n m c i h f (fun x => ⟨x.a ++ (if h.flag 0 then [] else [zOne]), [], false⟩)
      (s.stageCmd 0xA7 n m c .clean 0 (State.transferStage n m c)) := by
  obtain ⟨x, one, reads⟩ := transfer_reads d
  have desc := State.desc_congr (State.ctxBegin_touch.sameBut (by decide : masksOnly _ [.les] = true) .mem (by decide) :
    (s.ctxBegin n m c).mem = s.mem) n m
  rw [d.stageCmd_clean, State.transferStage]
  simp only [desc, reads, State.transferOk_ctxBegin]
  by_cases writes : h.flag 0 = true
  · have leaves := transfer_puts d (tail := []) (by simp) one
    simp only [writes, if_true]
    rw [List.append_nil] at leaves
    exact leaves
  · obtain ⟨region, fresh⟩ := ok.resolve_left writes
    have leaves := transfer_puts d (tail := [zOne]) (by simp) one
    simp only [writes, region, fresh, Bool.false_eq_true, if_false, beq_self_eq_true, Bool.and_self, if_true]
    exact leaves

/-- The word behind a transfer's words lies in the region of its output. -/
theorem transfer_last (reads : h.flag 0 = false) (out : regionOf h.out = some .state) :
    regionOf (h.out + (s.desc n m h.paramOfs).toNat) = some .state := by
  obtain ⟨form, -⟩ := transfer_form d
  obtain ⟨r, -, last, first⟩ := d.out_region (d.single (by simp)) (s.desc n m h.paramOfs).toNat (by rw [form]; simp [reads, b2n])
  rw [last, ← first, out]

/-- A transfer that reads nothing, after its faults are noted. -/
theorem transfer_zero (reads : h.flag 0 = false) (out : regionOf h.out = some .state) {v : State}
    (noted : Touch 0x7 (s.ctxBegin n m c) v) {t : State}
    (run : t = (v.putOut n m c (h.out + (s.desc n m h.paramOfs).toNat) [0#32]).stageDone n m c i) :
    (∀ a < 8192, t.stateMem n m a = if a = h.out + (s.desc n m h.paramOfs).toNat then 0#32 else s.stateMem n m a)
      ∧ (t.ctx n m c).stage = i + 1 := by
  have region := transfer_last d reads out
  have low := (regionOf_state region).trans (by decide : 0x2000 < 0x10000)
  have begun := (State.ctxBegin_touch : Touch _ s (s.ctxBegin n m c))
  have mem := (noted.sameBut (by decide : masksOnly _ [.due, .regs, .scCount] = true) .mem (by decide)).trans
    (begun.sameBut (by decide : masksOnly _ [.les] = true) .mem (by decide))
  have sound := noted.sound (begun.sound d.sound)
  obtain ⟨sound2, words, -, -, -, -, -, -⟩ := State.putOut_effect n m c (us := [0#32]) low (by decide) sound
  generalize v.putOut n m c (h.out + (s.desc n m h.paramOfs).toNat) [0#32] = w at *
  obtain ⟨-, desc, stage, -⟩ := State.stageDone_ends (sound2 sound) n m c.isLt i
  subst run
  refine ⟨fun a ha => ?_, stage⟩
  rw [State.stateMem, desc.mword_eq (descWord_stateAddr n.isLt m.isLt ha), ← State.stateMem, words a ha]
  have before : v.stateMem n m a = s.stateMem n m a := State.mword_congr mem _
  rw [before]
  simp only [region, true_and, List.length_singleton]
  by_cases here : a = h.out + (s.desc n m h.paramOfs).toNat
  · subst here
    simp
  · rw [if_neg here, if_neg (by omega)]

/-- Where the frame cannot be read, the word behind it alone becomes 0. -/
theorem transfer_fails (reads : h.flag 0 = false) (out : regionOf h.out = some .state)
    (fails : s.transferOk n m c (h.inA - 0x4000) (s.desc n m h.paramOfs).toNat (s.desc n m (h.paramOfs + 1)) = false
      ∨ regionOf h.inA ≠ some .exchange) :
    (∀ a < 8192, (s.stageCmd 0xA7 n m c .clean 0 (State.transferStage n m c)).stateMem n m a
        = if a = h.out + (s.desc n m h.paramOfs).toNat then 0#32 else s.stateMem n m a)
      ∧ ((s.stageCmd 0xA7 n m c .clean 0 (State.transferStage n m c)).ctx n m c).stage = i + 1 := by
  have desc := State.desc_congr (State.ctxBegin_touch.sameBut (by decide : masksOnly _ [.les] = true) .mem (by decide) :
    (s.ctxBegin n m c).mem = s.mem) n m
  have no : (regionOf h.inA == some Region.exchange && s.transferOk n m c (h.inA - 0x4000) (s.desc n m h.paramOfs).toNat
      (s.desc n m (h.paramOfs + 1))) = false := by
    rcases fails with fails | other
    · rw [fails, Bool.and_false]
    · rw [beq_eq_false_iff_ne.mpr other, Bool.false_and]
  rw [d.stageCmd_clean, State.transferStage]
  simp only [desc, State.transferOk_ctxBegin, no, reads, Bool.false_eq_true, if_false]
  have reported : Touch 0x7 (s.ctxBegin n m c) (if regionOf h.inA == some Region.exchange then
      ((s.ctxBegin n m c).leExchange n (fun t => (.done, t))).2 else s.ctxBegin n m c) :=
    .ite (State.leExchange_touch (f := fun t => (.done, t)) fun _ => .refl) .refl
  refine transfer_zero d reads out (reported.trans ?_) rfl
  generalize (if (regionOf h.inA == some Region.exchange) = true then
      ((s.ctxBegin n m c).leExchange n (fun t => (.done, t))).2 else s.ctxBegin n m c) = u
  generalize List.find? _ _ = refused
  cases refused with
  | none => exact .refl
  | some j => exact .ite (.of State.xmRefuse_touch) .refl

end

end Sys2Proof.Machine
end

section
/-!
Duty words of the timer output stage (R141).
-/
set_option Elab.async false
namespace Sys2Proof.Machine
open Sys2Proof

/-! ### Duty words of timer units (R141) -/

/-- The registers that a duty word of island `n` changes. -/
def dutyReg (n a : Nat) : Prop :=
  ∃ k < 4, a = R.TU_STATUS n k ∨ a = R.TU_DLR_PEND n k ∨ ∃ w < 32, a = R.TU_DLRw n k w

theorem dutyReg_plain {n : Fin 16} {a : Nat} (h : dutyReg n a) :
    ¬ xmRule a ∧ ∀ m : Fin 6, a ≠ R.LE_OWNER n m ∧ ∀ c : Fin 8, a ≠ R.LE_CTXc_STATUS n m c := by
  obtain ⟨k, hk, place⟩ := h
  have range : 0x40200000 + 0x1000000 * n ≤ a ∧ a < 0x40204000 + 0x1000000 * n := by
    obtain rfl | rfl | ⟨w, hw, rfl⟩ := place
    · unfold R.TU_STATUS; omega
    · unfold R.TU_DLR_PEND; omega
    · unfold R.TU_DLRw; omega
  refine ⟨?_, fun m => ⟨?_, fun c => ?_⟩⟩
  · rintro (frame | sec)
    · have none : xmFrameIndex a = .none := by
        unfold xmFrameIndex
        rw [if_neg (by omega)]
      rw [none] at frame
      exact absurd frame (by decide)
    · unfold R.SYS_DOMAIN_SEC at sec
      omega
  · unfold R.LE_OWNER; omega
  · unfold R.LE_CTXc_STATUS; omega

theorem State.dlrWrite_regsSet (s : State) (d by_ n k w : Nat) (v : Word) :
    RegsSet [R.TU_STATUS n k, R.TU_DLR_PEND n k, R.TU_DLRw n k w] s (s.dlrWrite d by_ n k w v) := by
  unfold State.dlrWrite
  dsimp only
  refine .ite (State.flag_regsIn _ (by simp) _) (.ite (.refl _ s) ?_)
  exact RegsIn.trans (.of_regs rfl _) ((State.setReg_regsIn _ (by simp) v).trans (State.setReg_regsIn _ (by simp) _))

theorem State.dlrWrite_regsIn (s : State) (d by_ n : Nat) {k w : Nat} (hk : k < 4) (hw : w < 32) (v : Word) :
    RegsIn (dutyReg n) s (s.dlrWrite d by_ n k w v) := by
  refine RegsIn.mono (s.dlrWrite_regsSet d by_ n k w v) fun a ha => ⟨k, hk, ?_⟩
  simp only [List.mem_cons, List.not_mem_nil, or_false] at ha
  exact ha.imp id fun ha => ha.imp id fun ha => ⟨w, hw, ha⟩

theorem State.duty_silent (s : State) (n : Fin 16) (m : Fin 6) (c : Nat) {k w : Nat} (hk : k < 4) (hw : w < 32) (v : Word) :
    OutSilent n m s (s.leOutput n m c (.duty k w v)) := by
  have touch : Touch _ s (s.dlrWrite (s.leDomain n m) (m + 1) n k w v) := State.dlrWrite_touch
  exact ⟨touch.sameBut, touch.sound, (s.dlrWrite_regsIn _ _ n hk hw v).mono fun a ha => ⟨(dutyReg_plain ha).1, ((dutyReg_plain ha).2 m).1⟩⟩

/-- Nothing to put out changes nothing that an execution goes by. -/
theorem State.leOutputs_nil (s : State) (n m c : Nat) :
    SameBut [.les] s (s.leOutputs n m c []) ∧ (s.Sound → (s.leOutputs n m c []).Sound)
      ∧ ((s.leOutputs n m c []).ctx n m c).run = (s.ctx n m c).run := by
  simp only [State.leOutputs, if_true, List.append_nil, List.foldl_nil]
  split
  · exact ⟨.refl _ s, id, rfl⟩
  · split
    · exact ⟨State.setCtx_touch.sameBut, State.setCtx_touch.sound, s.ctx_setCtx_part CtxRec.run n m c { s.ctx n m c with outs := (s.ctx n m c).outs } rfl c⟩
    · exact ⟨.refl _ s, id, rfl⟩

/-- What each output leaves of the registers, all leave, be they out or held. -/
theorem RegsIn.leOutputs {P : Nat → Prop} {n m c : Nat} {acts : List OutAct}
    (each : ∀ o ∈ acts, ∀ t : State, RegsIn P t (t.leOutput n m c o)) (s : State) : RegsIn P s (s.leOutputs n m c acts) := by
  by_cases none : acts = []
  · rw [none]
    exact .of_regs ((s.leOutputs_nil n m c).1 .regs (by decide)) _
  · have stamp : RegsIn P s (s.stamped n m c) := .of_regs ((s.stamped_sameBut n m c) .regs (by decide)) _
    rw [State.leOutputs_eq _ _ _ _ none]
    refine .ite stamp (.ite ?_ ?_)
    · exact stamp.trans (.of_regs rfl _)
    · exact stamp.trans (RegsIn.foldl acts _ each)

/-! ### Stages that write no word -/

/-- What leaves the words, the ways, the rules of the frames and the execution leaves a stage prepared. -/
theorem State.Prepared.after {s g t : State} {n m c : Nat} {pre : List OutAct} (p : s.Prepared n m c pre g) {l : List Part}
    (same : SameBut l g t) (apart : ∀ x ∈ [Part.mem, .xmNow, .links, .paths], x ∉ l)
    (regs : RegsIn (fun a => ¬ xmRule a ∧ a ≠ R.LE_OWNER n m) g t) (sound : g.Sound → t.Sound)
    (run : (t.ctx n m c).run = (g.ctx n m c).run) : s.Prepared n m c pre t := by
  obtain ⟨soundG, words, overrun, fixed, held, way, free, may⟩ := p
  obtain ⟨-, fixed', overrun', outs⟩ := CtxRec.run_eq run
  have domain : t.leDomain n m = g.leDomain n m := congrArg (fld · 3 0) (regs.reg_eq fun h => h.2 rfl)
  refine ⟨sound soundG, fun a ha => ?_, overrun'.trans overrun, fixed'.trans fixed, fun inTime fix => outs.trans (held inTime fix),
    fun open' => ?_, fun w => ?_, fun w => ?_⟩
  · exact (State.mword_congr (same .mem (apart _ (by simp))) _).trans (words a ha)
  · exact (way open').of_sameBut same (apart _ (by simp)) (apart _ (by simp))
  · rw [State.wordNow_congr (congrArg XmCycle.words (same .xmNow (apart _ (by simp)))), free]
  · rw [domain, regs.xmRefusal_eq fun a ha => ha.1, may]

/-- Outputs that are no words leave a stage prepared, whether there are any or none. -/
theorem State.Prepared.outputs {s g : State} {n m : Nat} {c : Nat} {acts : List OutAct} (p : s.Prepared n m c [] g) (hc : c < 8)
    (silent : ∀ o ∈ acts, ∀ t : State, OutSilent n m t (t.leOutput n m c o)) :
    s.Prepared n m c acts (g.leOutputs n m c acts) := by
  by_cases none : acts = []
  · obtain ⟨same, sound, run⟩ := g.leOutputs_nil n m c
    rw [none]
    exact p.after same (by decide) (.of_regs (same .regs (by decide)) _) sound run
  · exact p.leOutputs hc none silent

theorem State.nonfinite_regsSet (s : State) (n m c : Nat) (b : Bool) : RegsSet [R.LE_CTXc_STATUS n m c] s (s.nonfinite n m c b) :=
  .ite (s.flag_regsSet _ _) (.refl _ s)

/-- Non-finite values noted leave a stage prepared. -/
theorem State.Prepared.nonfinite {s g : State} {n : Fin 16} {m : Fin 6} {c : Fin 8} {pre : List OutAct} (p : s.Prepared n m c pre g)
    (b : Bool) : s.Prepared n m c pre (g.nonfinite n m c b) := by
  have touch : Touch _ g (g.nonfinite n m c b) := State.nonfinite_touch
  have same := touch.sameBut (by decide : masksOnly _ [.regs, .scCount] = true)
  refine p.after same (by decide) (RegsIn.mono (g.nonfinite_regsSet n m c b) fun a ha => ⟨LE_CTXc_STATUS_not_xmRule n m c a ha, ?_⟩) touch.sound
    (congrArg CtxRec.run (State.ctx_congr (same .les (by decide)) n m c))
  rw [List.mem_singleton.mp ha]
  unfold R.LE_CTXc_STATUS R.LE_OWNER
  omega

/-! ### The timer output stage -/

/-- The instances of a stage are numbered. -/
theorem State.gather_k (n m c : Nat) (h : Hdr) (f : Form) : ∀ (r k : Nat) (s : State), ∀ x ∈ (s.gather n m c h f k r).1, x.k < k + r
  | 0, _, _, x, hx => absurd hx List.not_mem_nil
  | r + 1, k, s, x, hx => by
    rcases List.mem_cons.mp hx with rfl | rest
    · simp
    · have := State.gather_k n m c h f r (k + 1) _ x rest
      omega

theorem outputAllowed_duty {r : Region} (h : outputAllowed 0xA8 r = true) : r = .duty := by
  cases r <;> simp [outputAllowed] at h ⊢

theorem regionOf_duty {a : Nat} (h : regionOf a = some .duty) : 0x9000 ≤ a ∧ a < 0xA000 ∧ (a - 0x9000) % 0x400 < 13 := by
  unfold regionOf at h
  split_ifs at h <;> simp at h
  assumption

/-- The duty words that a timer output stage at OUT `out` gives. -/
def dutyActs (out : Nat) (l : List LawIn) : List OutAct :=
  l.filterMap (fun x => (compareWord (x.A 0) (x.P 0) (x.P 1) (x.P 2)).map (fun w =>
    OutAct.duty ((out - 0x9000) / 0x400) ((out - 0x9000) % 0x400 + x.k) w))

section
variable {n : Fin 16} {m : Fin 6} {c : Fin 8} {i : Nat} {h : Hdr} {f : Form} {s : State} (d : s.Dispatches n m c 0xA8 i h f)
include d

theorem timerOut_form : f = form true 1 0 1 3 0 := by
  have shape := d.shape
  simp only [formOf, d.kind, Option.some.injEq] at shape
  exact shape.symm

/-- The words of a timer output stage are those of one unit. -/
theorem timerOut_unit : (h.out - 0x9000) / 0x400 < 4 ∧ (h.out - 0x9000) % 0x400 < 13 := by
  have bad := d.header.2
  simp only [State.headerBad, chainError, d.form, timerOut_form d, d.kind, Bool.or_eq_false_iff, Bool.not_eq_false'] at bad
  have outs : outputsOk 0xA8 (operandAddrs h.out 1 1 h.count) = true := by tauto
  have addrs : ∃ l, operandAddrs h.out 1 1 h.count = h.out :: l := by
    simp [operandAddrs, Hdr.count, List.range_succ_eq_map]
  obtain ⟨l, addrs⟩ := addrs
  rw [addrs, outputsOk, Bool.and_eq_true] at outs
  obtain ⟨-, head⟩ := outs
  simp only [List.head?_cons] at head
  split at head
  next r hr =>
    rw [outputAllowed_duty head] at hr
    obtain ⟨low, high, word⟩ := regionOf_duty hr
    exact ⟨by omega, word⟩
  next => exact absurd head (by decide)

theorem timerOut_silent : ∀ o ∈ dutyActs h.out (s.instances n m c h f), ∀ t : State,
    OutSilent n m t (t.leOutput n m c o) ∧ RegsIn (dutyReg n) t (t.leOutput n m c o) := by
  intro o ho t
  obtain ⟨x, hx, act⟩ := List.mem_filterMap.mp ho
  obtain ⟨w, -, rfl⟩ := Option.map_eq_some_iff.mp act
  have number := State.gather_k n m c h f h.count 0 (s.ctxBegin n m c) x hx
  have count := d.count_le
  obtain ⟨unit, low⟩ := timerOut_unit d
  have word : (h.out - 0x9000) % 0x400 + x.k < 32 := by omega
  exact ⟨t.duty_silent n m c unit word w, t.dlrWrite_regsIn _ _ n unit word w⟩

theorem timerOut_run : s.stageCmd 0xA8 n m c .clean 0 (State.timerOutStage n m c)
    = (((s.gathered n m c h f).nonfinite n m c ((s.instances n m c h f).any
        (fun x => (compareWord (x.A 0) (x.P 0) (x.P 1) (x.P 2)).isNone))).leOutputs n m c
          (dutyActs h.out (s.instances n m c h f))).stageDone n m c i := by
  rw [d.stageCmd_clean, State.timerOutStage]
  simp only [d.form]
  rfl

/-- The duty words are out or held, and the context stands behind the stage. -/
theorem timerOut_leaves : s.Leaves n m c i h f (fun x => ⟨[], [], (compareWord (x.A 0) (x.P 0) (x.P 1) (x.P 2)).isNone⟩)
      (s.stageCmd 0xA8 n m c .clean 0 (State.timerOutStage n m c))
    ∧ (((s.ctxBegin n m c).ctx n m c).overrun = false → ((s.ctxBegin n m c).ctx n m c).fixed = true →
      ((s.stageCmd 0xA8 n m c .clean 0 (State.timerOutStage n m c)).ctx n m c).outs
        = ((s.ctxBegin n m c).ctx n m c).outs ++ dutyActs h.out (s.instances n m c h f)) := by
  have silent := timerOut_silent d
  rw [timerOut_run d]
  generalize dutyActs h.out (s.instances n m c h f) = acts at *
  have flagged := (s.gathered n m c h f).nonfinite_set n m c
  have prepared := d.prepared.nonfinite ((s.instances n m c h f).any fun x => (compareWord (x.A 0) (x.P 0) (x.P 1) (x.P 2)).isNone)
  have noted (some : (s.instances n m c h f).any (fun x => (compareWord (x.A 0) (x.P 0) (x.P 1) (x.P 2)).isNone) = true) :
      ((s.gathered n m c h f).nonfinite n m c ((s.instances n m c h f).any
        fun x => (compareWord (x.A 0) (x.P 0) (x.P 1) (x.P 2)).isNone)).rb (R.LE_CTXc_STATUS n m c) 5 = true := by
    rw [some]
    exact flagged
  generalize (s.gathered n m c h f).nonfinite n m c ((s.instances n m c h f).any
    fun x => (compareWord (x.A 0) (x.P 0) (x.P 1) (x.P 2)).isNone) = u at *
  have out := prepared.outputs c.isLt fun o ho t => (silent o ho t).1
  have regs : RegsIn (dutyReg n) u (u.leOutputs n m c acts) := .leOutputs (fun o ho t => (silent o ho t).2) u
  have stands := out.settle d.out_lt i (os := []) (Nat.zero_le _)
  have held := out.settle_held d.out_lt i (o := ⟨[], [], false⟩) (Nat.zero_le _) (.inr rfl)
  generalize u.leOutputs n m c acts = v at *
  obtain ⟨mem, -, -, -, stage⟩ := stands
  have words : ((s.instances n m c h f).map fun x : LawIn => (⟨[], [], (compareWord (x.A 0) (x.P 0) (x.P 1) (x.P 2)).isNone⟩ : LawOut)).flatMap
      (fun o => o.u) = [] := by
    simp
  have states : ((s.instances n m c h f).map fun x : LawIn => (⟨[], [], (compareWord (x.A 0) (x.P 0) (x.P 1) (x.P 2)).isNone⟩ : LawOut)).flatMap
      (fun o => o.st) = [] := by
    simp
  refine ⟨⟨fun a ha => ?_, fun _ some => absurd words some, fun _ _ _ _ _ _ j hj => ?_, fun bad => ?_, stage⟩, held⟩
  · rw [words, states]
    exact mem a ha
  · rw [words] at hj
    exact absurd hj (Nat.not_lt_zero j)
  · rw [List.any_map] at bad
    rw [RegsIn.rb_eq (State.stageDone_ends out.sound n m c.isLt i).1 (LE_CTXc_STATUS_not_chainReg n m c c),
      regs.rb_eq fun duty => ((dutyReg_plain duty).2 m).2 c rfl]
    exact noted bad

end

theorem State.dlrWrite_stored {s : State} {d writer n k w : Nat} {v : Word} (small : w < 32) (owns : s.owns d (R.TU_OWNER n k) = true)
    (secure : s.ownerSec (R.TU_OWNER n k) = true → s.domSecure d = true)
    (last : (s.tu n k).pendAt.getD w 0 = s.absTick → (s.tu n k).pendBy.getD w 0 ≤ writer) :
    (s.dlrWrite d writer n k w v).reg (R.TU_DLRw n k w) = v ∧ (s.dlrWrite d writer n k w v).rb (R.TU_DLR_PEND n k) w = true := by
  have apart : R.TU_DLRw n k w ≠ R.TU_DLR_PEND n k := by
    unfold R.TU_DLRw R.TU_DLR_PEND
    omega
  have may : (!s.owns d (R.TU_OWNER n k) || (s.ownerSec (R.TU_OWNER n k) && !s.domSecure d)) = false := by
    rw [owns]
    cases sec : s.ownerSec (R.TU_OWNER n k) with
    | false => rfl
    | true => simp [secure sec]
  have turn : ¬ (writer ≠ 0 ∧ writer < (s.tu n k).pendBy.getD w 0 ∧ (s.tu n k).pendAt.getD w 0 = s.absTick) := by
    rintro ⟨-, less, now⟩
    exact absurd (last now) (by omega)
  rw [State.dlrWrite, may, if_neg (by decide)]
  dsimp only
  rw [if_neg turn]
  generalize s.setTu n k _ = t
  refine ⟨?_, State.rb_setRb_self _ small true⟩
  rw [State.reg_setRb, if_neg apart, State.reg_setReg, if_pos rfl]

theorem timerOwner_not_read (n k : Nat) : R.TU_OWNER n k ∉ readRegs := by
  simp only [readRegs, correctionRegs, R.TU_OWNER, R.XM_STATUS, R.XM_FAULT_ADDR, R.CAL_STATUS, R.ME_COUNTS, R.ME_LAST_ADDR,
    R.ME_LAST_INFO, R.ME_STATUS, List.cons_append, List.nil_append, List.mem_cons, List.not_mem_nil, or_false]
  omega

theorem dutyWord_not_eb (n : Fin 16) (k : Fin 4) : isEB (R.TU_DLR_PEND n k) = false ∧ ∀ w : Fin 13, isEB (R.TU_DLRw n k w) = false := by
  revert n k
  decide +kernel

/-- The end of a chain leaves duty words and what is pending. -/
theorem dutyWord_not_chainReg (n : Fin 16) {m : Fin 6} (c : Fin 8) {k w : Nat} (hk : k < 4) (hw : w < 13) :
    ¬ chainReg n m c (R.TU_DLRw n k w) ∧ ¬ chainReg n m c (R.TU_DLR_PEND n k) := by
  obtain ⟨pend, word⟩ := dutyWord_not_eb n ⟨k, hk⟩
  have word := word ⟨w, hw⟩
  constructor
  · rintro ((eb | ⟨i, hi, e | e⟩) | e | e | e)
    · rw [word] at eb
      exact absurd eb (by decide)
    all_goals
      simp only [R.TU_DLRw, R.EP_SLOTs_STATE, R.EP_SLOTs_RESULT, R.LE_CTXc_LAT, R.LE_CTXc_COUNT, R.LE_CTXc_FIXED] at e
      omega
  · rintro ((eb | ⟨i, hi, e | e⟩) | e | e | e)
    · rw [pend] at eb
      exact absurd eb (by decide)
    all_goals
      simp only [R.TU_DLR_PEND, R.EP_SLOTs_STATE, R.EP_SLOTs_RESULT, R.LE_CTXc_LAT, R.LE_CTXc_COUNT, R.LE_CTXc_FIXED] at e
      omega

section
variable {n : Fin 16} {m : Fin 6} {c : Fin 8} {i : Nat} {h : Hdr} {f : Form} {s : State} (d : s.Dispatches n m c 0xA8 i h f)
include d

/-- A duty word that goes out at once stands in its register, pending. -/
theorem timerOut_stores {x : LawIn} (one : s.instances n m c h f = [x]) (inTime : ((s.ctxBegin n m c).ctx n m c).overrun = false)
    (natural : ((s.ctxBegin n m c).ctx n m c).fixed = false)
    (owns : s.owns (s.leDomain n m) (R.TU_OWNER n ((h.out - 0x9000) / 0x400)) = true)
    (secure : s.ownerSec (R.TU_OWNER n ((h.out - 0x9000) / 0x400)) = true → s.domSecure (s.leDomain n m) = true)
    (last : (s.tu n ((h.out - 0x9000) / 0x400)).pendAt.getD ((h.out - 0x9000) % 0x400) 0 = s.absTick →
      (s.tu n ((h.out - 0x9000) / 0x400)).pendBy.getD ((h.out - 0x9000) % 0x400) 0 ≤ m.val + 1)
    {w : Word} (word : compareWord (x.A 0) (x.P 0) (x.P 1) (x.P 2) = some w) :
    (s.stageCmd 0xA8 n m c .clean 0 (State.timerOutStage n m c)).reg
        (R.TU_DLRw n ((h.out - 0x9000) / 0x400) ((h.out - 0x9000) % 0x400)) = w
      ∧ (s.stageCmd 0xA8 n m c .clean 0 (State.timerOutStage n m c)).rb (R.TU_DLR_PEND n ((h.out - 0x9000) / 0x400))
          ((h.out - 0x9000) % 0x400) = true := by
  obtain ⟨unit, low⟩ := timerOut_unit d
  have one' := one
  have number : x.k = 0 := by
    have length := State.length_gather n m c h f h.count 0 (s.ctxBegin n m c)
    have lt := State.gather_k n m c h f h.count 0 (s.ctxBegin n m c) x (by rw [← State.instances, one]; exact List.mem_singleton_self x)
    rw [← State.instances, one, List.length_singleton] at length
    omega
  have acts : dutyActs h.out [x] = [.duty ((h.out - 0x9000) / 0x400) ((h.out - 0x9000) % 0x400) w] := by
    simp [dutyActs, word, number]
  have finite : ([x].any fun x => (compareWord (x.A 0) (x.P 0) (x.P 1) (x.P 2)).isNone) = false := by
    simp [word]
  have readsOnly := State.gather_readsOnly n m c h f h.count 0 (s.ctxBegin n m c)
  have begun := (State.ctxBegin_touch : Touch _ s (s.ctxBegin n m c)).sameBut (by decide : masksOnly _ [.les] = true)
  have prepared := d.prepared
  rw [timerOut_run d, one, acts, finite, State.nonfinite, if_neg (by decide)]
  rw [← State.gathered] at readsOnly
  generalize s.gathered n m c h f = g at *
  have late := prepared.overrun.trans inTime
  have held := prepared.fixed.trans natural
  have sound := (prepared.outputs c.isLt fun o ho t => (timerOut_silent d o (by rw [one, acts]; exact ho) t).1).sound
  have ends := (State.stageDone_ends sound n m c.isLt i).1
  have read : RegsSet readRegs s (g.stamped n m c) := (RegsSet.trans (.of_regs (begun .regs (by decide)) _) readsOnly.regs).trans
    (.of_regs ((g.stamped_sameBut n m c) .regs (by decide)) _)
  have parts : SameBut [.due, .regs, .scCount, .mks, .les, .ecc, .macros] s (g.stamped n m c) :=
    ((begun.mono (by decide)).trans readsOnly.rest.sameBut).trans ((g.stamped_sameBut n m c).mono (by decide))
  rw [State.leOutputs_eq _ _ _ _ (by simp), late, held] at ends ⊢
  simp only [Bool.false_eq_true, if_false, List.foldl_cons, List.foldl_nil] at ends ⊢
  generalize g.stamped n m c = u at *
  have owner := timerOwner_not_read n ((h.out - 0x9000) / 0x400)
  have domain : u.leDomain n m = s.leDomain n m := congrArg (fld · 3 0) (RegsIn.reg_eq read (LE_OWNER_not_read n m))
  have tu : u.tu n ((h.out - 0x9000) / 0x400) = s.tu n ((h.out - 0x9000) / 0x400) := by
    rw [State.tu, State.tu, parts .tus (by decide)]
  have tick : u.absTick = s.absTick := by
    rw [State.absTick, State.absTick, parts .clk (by decide)]
  have stored := State.dlrWrite_stored (s := u) (d := u.leDomain n m) (writer := m + 1) (n := n) (k := (h.out - 0x9000) / 0x400)
    (w := (h.out - 0x9000) % 0x400) (v := w) (by omega)
    (by rw [domain, State.owns, State.ownerDom, RegsIn.rf_eq read owner]; exact owns)
    (by
      rw [domain, State.ownerSec, State.domSecure, RegsIn.rb_eq read owner,
        RegsIn.rb_eq read fun h => readRegs_not_xmRule _ h (.inr rfl)]
      exact secure)
    (by rw [tu, tick]; exact last)
  obtain ⟨word, pending⟩ := stored
  exact ⟨(RegsIn.reg_eq ends (dutyWord_not_chainReg n c unit low).1).trans word,
    (RegsIn.rb_eq ends (dutyWord_not_chainReg n c unit low).2 _).trans pending⟩

end

/-- Settles O41: moves, affine laws, tables and selections follow their laws; predictive control keeps its inputs for its last
pass; the relay stands beside the auto-tune stage's result; events, transfers and duty words go out beside it. -/
theorem utilityStages : Obligations.UtilityStages := by
  unfold Obligations.UtilityStages
  refine ⟨?_, ?_, ?_, ?_, ?_, ?_, ?_, ?_, ?_, ?_⟩
  · intro n m c i h f p s d turn
    refine ⟨_, execFcsMpc_next turn, ?_⟩
    by_cases first : p.val = 0
    · obtain ⟨t, rfl, pass, phase, mem, kept⟩ := fcs_first d
      rw [first]
      exact ⟨fun _ => ⟨pass, phase, mem⟩, fun _ => kept, fun last => absurd last (by decide)⟩
    · by_cases last : p.val = 3
      · have leaves := fcs_last d (turn.trans last)
        rw [last]
        exact ⟨fun early => absurd rfl early, fun first => absurd first (by decide), fun _ => leaves⟩
      · obtain ⟨t, rfl, rest⟩ := fcs_between d first last
        exact ⟨fun _ => rest, fun zero => absurd zero first, fun three => absurd three last⟩
  · intro n m c i h f s d
    obtain ⟨t, run, leaves, relay⟩ := tune_leaves d (fun x => tuneLaw x ((s.le n m).relays.get (fun _ => false) h.stateOfs)
      ((s.ctxBegin n m c).ctx n m c).lost ((s.ctxBegin n m c).ctx n m c).lostBefore) fun _ => rfl
    refine ⟨t, run, leaves, relay, fun x one out noCmd idle => ?_⟩
    obtain ⟨mem, -⟩ := leaves
    rw [mem h.out (regionOf_state out), one]
    simp [out, tuneLaw_idle noCmd idle]
  · intro n m c i h f s d
    exact ⟨_, rfl, d.leaves (law := lawMove) lawMove_small⟩
  · intro n m c i h f s d
    exact ⟨_, rfl, d.leaves (law := lawAffine) lawAffine_small⟩
  · intro n m c i h f s d
    exact ⟨_, rfl, table_leaves d⟩
  · intro n m c i h f s d
    exact ⟨_, rfl, d.leaves (law := lawCompareSelect) lawCompareSelect_small⟩
  · intro n m c i h f s d
    obtain ⟨t, run, leaves, fires, held⟩ := emit_leaves d
    exact ⟨t, run, leaves, fun x one inTime mode => fires x one inTime (emitFires_of mode),
      fun x one inTime mode => held x one inTime (emitFires_of mode)⟩
  · intro n m c i h f s d ok
    exact ⟨_, rfl, transfer_leaves d ok⟩
  · intro n m c i h f s d reads out fails
    exact ⟨_, rfl, transfer_fails d reads out fails⟩
  · intro n m c i h f s d
    obtain ⟨leaves, held⟩ := timerOut_leaves d
    exact ⟨_, rfl, leaves, held, fun x one inTime natural owns secure last w word =>
      timerOut_stores d one inTime natural owns secure last word⟩

end Sys2Proof.Machine
end

section
/-!
The count of transients (R106, R107).
-/
set_option Elab.async false
namespace Sys2Proof.Machine
open Sys2Proof

/-! ### The transients of an engine (R106, R107) -/

/-- The count and the beats of the transients of engine `(n, m)` stand; registers are claimed for a sound state alone, as an
epoch that names another word than it may could swap any. -/
structure TransientsKept (n m : Nat) (s t : State) : Prop where
  sound : s.Sound → t.Sound
  regs : s.Sound → t.reg (R.LE_TRANSIENTS n m) = s.reg (R.LE_TRANSIENTS n m)
  window : (t.le n m).window = (s.le n m).window

section
variable {n m : Nat}

theorem TransientsKept.refl (s : State) : TransientsKept n m s s := ⟨id, fun _ => rfl, rfl⟩

theorem TransientsKept.trans {s t u : State} (h : TransientsKept n m s t) (k : TransientsKept n m t u) : TransientsKept n m s u :=
  ⟨fun x => k.sound (h.sound x), fun x => (k.regs (h.sound x)).trans (h.regs x), k.window.trans h.window⟩

/-- The last of two steps first. -/
theorem TransientsKept.after {s t u : State} (k : TransientsKept n m t u) (h : TransientsKept n m s t) : TransientsKept n m s u :=
  h.trans k

theorem TransientsKept.ite {s t u : State} {c : Prop} [Decidable c] (h : TransientsKept n m s t) (k : TransientsKept n m s u) :
    TransientsKept n m s (if c then t else u) := by
  split
  · exact h
  · exact k

theorem TransientsKept.foldl {α : Type} {f : State → α → State} :
    ∀ (l : List α) (s : State), (∀ x ∈ l, ∀ t, TransientsKept n m t (f t x)) → TransientsKept n m s (l.foldl f s)
  | [], s, _ => .refl s
  | x :: l, s, hf => (hf x List.mem_cons_self s).trans (TransientsKept.foldl l (f s x) fun y hy => hf y (List.mem_cons_of_mem x hy))

/-- What changes other registers and no engine's record. -/
theorem TransientsKept.of_regs {P : Nat → Prop} {w : Nat} {s t : State} (h : Touch w s t) (regs : RegsIn P s t)
    (out : ¬ P (R.LE_TRANSIENTS n m)) (les : w.testBit 23 = false := by decide) : TransientsKept n m s t :=
  ⟨h.sound, fun _ => regs.reg_eq out,
    congrArg LeRec.window (State.le_congr (h.same_part .les (by simpa [Part.bits] using les)) n m)⟩

theorem Touch.transientsKept {w : Nat} {s t : State} (h : Touch w s t) (regs : w.testBit 1 = false := by decide)
    (les : w.testBit 23 = false := by decide) : TransientsKept n m s t :=
  .of_regs h (h.regsIn (fun _ => False) regs) id les

theorem State.setCtx_transientsKept (s : State) (c : Nat) (x : CtxRec) : TransientsKept n m s (s.setCtx n m c x) :=
  ⟨State.setCtx_touch.sound, fun _ => rfl, by rw [s.le_setCtx n m c x]⟩

end

section
variable (n : Fin 16) (m : Fin 6) (c : Fin 8)

theorem not_epochReg_of_island {a : Nat} (plain : isEB a = false) (low : a < 0x50000000) : ¬ epochReg a := by
  rintro (eb | ⟨i, hi, e | e⟩)
  · rw [plain] at eb
    exact absurd eb (by decide)
  all_goals
    simp only [R.EP_SLOTs_STATE, R.EP_SLOTs_RESULT] at e
    omega

/-- No register of a loop engine that counts or shows is bound to epochs. -/
theorem engineReg_plain (n : Fin 16) (m : Fin 6) : isEB (R.LE_TRANSIENTS n m) = false ∧ isEB (R.LE_RUN n m) = false
    ∧ isEB (R.LE_STATUS n m) = false ∧ isEB (R.LE_FAULT_INFO n m) = false ∧ isEB (R.IC_LE_RETIRED n) = false := by
  revert n m
  decide +kernel

theorem LE_TRANSIENTS_not_epochReg : ¬ epochReg (R.LE_TRANSIENTS n m) :=
  not_epochReg_of_island (engineReg_plain n m).1 (by unfold R.LE_TRANSIENTS; omega)

theorem State.swap_transientsKept (s : State) (p : Entry → Bool) : TransientsKept n m s (s.swap p) :=
  ⟨State.swap_touch.sound, fun sound => (sound.swap p).regs.reg_eq (LE_TRANSIENTS_not_epochReg n m),
    congrArg LeRec.window (State.le_congr (State.swap_touch.same_part .les) n m)⟩

theorem State.leBoundary_transientsKept (s : State) : TransientsKept n m s (s.leBoundary n m) :=
  ⟨State.leBoundary_touch.sound, fun sound => (sound.leBoundary n m).regs.reg_eq (LE_TRANSIENTS_not_epochReg n m),
    congrArg LeRec.window (State.le_congr (s.leBoundary_les n m) n m)⟩

theorem LE_TRANSIENTS_not_chainReg : ¬ chainReg n m c (R.LE_TRANSIENTS n m) := by
  rintro (h | h | h | h)
  · exact LE_TRANSIENTS_not_epochReg n m h
  all_goals
    simp only [R.LE_TRANSIENTS, R.LE_CTXc_LAT, R.LE_CTXc_COUNT, R.LE_CTXc_FIXED] at h
    omega

theorem State.complete_transientsKept (s : State) (released : Bool) : TransientsKept n m s (s.complete n m c released) := by
  have fresh (d : Nat) (t : State) : TransientsKept n m t (if t.ctxOn n m d && (t.ctx n m d).phase != .idle then
      (t.setCtx n m d { t.ctx n m d with freshCtx := (t.ctx n m d).freshCtx ||| 2 ^ c.val }).noteFresh n m d else t) :=
    .ite (.after State.noteFresh_touch.transientsKept (t.setCtx_transientsKept d _)) (.refl t)
  have begun : ∀ {t : State}, t = ((s.latency n m c).setReg (R.LE_CTXc_COUNT n m c)
      ((s.latency n m c).reg (R.LE_CTXc_COUNT n m c) + 1#32)).imposedStep n m c →
      TransientsKept n m s (t.setCtx n m c { t.ctx n m c with phase := .idle, outs := [], items := [], lastOut := none, spare := false }) := by
    rintro _ rfl
    refine .after (State.setCtx_transientsKept _ c _) ?_
    have late : RegsIn (chainReg n m c) s (s.latency n m c) := State.setReg_regsIn _ (.inr (.inl rfl)) _
    have counted : RegsIn (chainReg n m c) (s.latency n m c) ((s.latency n m c).setReg (R.LE_CTXc_COUNT n m c)
      ((s.latency n m c).reg (R.LE_CTXc_COUNT n m c) + 1#32)) := State.setReg_regsIn _ (.inr (.inr (.inl rfl))) _
    have imposed (t : State) : RegsIn (chainReg n m c) t (t.imposedStep n m c) :=
      .ite (.refl _ t) (.ite (State.setReg_regsIn _ (.inr (.inr (.inr rfl))) _) (State.setReg_regsIn _ (.inr (.inr (.inr rfl))) _))
    exact .of_regs (w := 0x6) (Touch.of State.latency_touch |>.then State.setReg_touch |>.then State.imposedStep_touch)
      ((late.trans counted).trans (imposed _)) (LE_TRANSIENTS_not_chainReg n m c)
  unfold State.complete
  exact .after (State.leBoundary_transientsKept n m _) ((begun rfl).trans
    (.ite (.after (.foldl (List.range 8) _ fun d _ => fresh d) State.fireIsland_touch.transientsKept) (.refl _)))

theorem State.stageDone_transientsKept (s : State) (i : Nat) : TransientsKept n m s (s.stageDone n m c i) := by
  have ends (t : State) : TransientsKept n m t (t.chainEnd n m c) :=
    .ite (.after (State.leBoundary_transientsKept n m _) (t.setCtx_transientsKept c _)) (t.complete_transientsKept n m c _)
  unfold State.stageDone
  dsimp only
  split
  · exact .after (ends _) (s.setCtx_transientsKept c _)
  · exact s.setCtx_transientsKept c _

theorem State.chainFault_transientsKept (s : State) : TransientsKept n m s (s.chainFault n m c) := by
  have cleared (t : State) : TransientsKept n m t ((t.setRb (R.LE_RUN n m) c false).flag (R.LE_CTXc_STATUS n m c) 0) := by
    refine .of_regs (w := 0x6) (Touch.of State.setRb_touch |>.then State.flag_touch)
      (RegsIn.trans (P := fun a => a = R.LE_RUN n m ∨ a = R.LE_CTXc_STATUS n m c) (State.setReg_regsIn _ (.inl rfl) _) (State.flag_regsIn _ (.inr rfl) _)) ?_
    simp only [R.LE_TRANSIENTS, R.LE_RUN, R.LE_CTXc_STATUS]
    omega
  unfold State.chainFault
  exact .after (State.leBoundary_transientsKept n m _) ((s.setCtx_transientsKept c _).trans (cleared _))

/-! ### What a stage reads and puts out leaves the transients -/

theorem LE_TRANSIENTS_not_read : R.LE_TRANSIENTS n m ∉ readRegs := by
  simp only [readRegs, correctionRegs, R.LE_TRANSIENTS, R.XM_STATUS, R.XM_FAULT_ADDR, R.CAL_STATUS, R.ME_COUNTS, R.ME_LAST_ADDR,
    R.ME_LAST_INFO, R.ME_STATUS, List.cons_append, List.nil_append, List.mem_cons, List.not_mem_nil, or_false]
  omega

theorem State.operand_transientsKept (s : State) (a : Nat) : TransientsKept n m s (s.operand n m c a).2 := by
  have window : ((s.operand n m c a).2.le n m).window = (s.le n m).window := by
    have exchange : (s.leExchange n (fun t => t.xmRead (t.leDomain n m) (t.lePort n m) (a - 0x4000))).2.les = s.les := by
      have touch : Touch 0xC000007 s (s.leExchange n (fun t => t.xmRead (t.leDomain n m) (t.lePort n m) (a - 0x4000))).2 :=
        State.leExchange_touch fun _ => State.xmRead_touch
      exact touch.same_part .les
    have taken (i : Nat) : ((s.takeItems n m c i).2.le n m).window = (s.le n m).window := by
      have moved (v : Store (List Word)) := (s.setCtx_transientsKept (n := n) (m := m) c { s.ctx n m c with items := v }).window
      unfold State.takeItems
      dsimp only
      split
      · rfl
      · split
        · exact moved _
        · exact moved _
    unfold State.operand
    split
    case h_2 =>
      split
      next e => exact congrArg LeRec.window (State.le_congr ((congrArg (fun q => q.2.les) e).symm.trans exchange) n m)
      next e => exact congrArg LeRec.window (State.le_congr ((congrArg (fun q => q.2.les) e).symm.trans exchange) n m)
    case h_5 => exact taken _
    case h_6 => exact taken _
    all_goals rfl
  have reads := s.operand_readsOnly n m c a
  exact ⟨reads.rest.sound, fun _ => RegsIn.reg_eq reads.regs (LE_TRANSIENTS_not_read n m), window⟩

theorem State.operands_transientsKept : ∀ (w a : Nat) (s : State), TransientsKept n m s (s.operands n m c a w).2
  | 0, _, s => .refl s
  | w + 1, a, s => (s.operand_transientsKept n m c a).trans (State.operands_transientsKept w (a + 1) _)

theorem State.gather_transientsKept (h : Hdr) (f : Form) : ∀ (r k : Nat) (s : State), TransientsKept n m s (s.gather n m c h f k r).2
  | 0, _, s => .refl s
  | r + 1, k, s => ((State.operands_transientsKept n m c _ _ s).trans (State.operands_transientsKept n m c _ _ _)).trans
      (State.gather_transientsKept h f r (k + 1) _)

theorem State.gatherOne_transientsKept (h : Hdr) (s : State) : TransientsKept n m s (s.gatherOne n m c h).2 := by
  unfold State.gatherOne
  split
  · exact .refl s
  next f _ =>
    have kept := State.gather_transientsKept n m c h f 1 0 s
    split
    next e => exact (congrArg (TransientsKept n m s) (congrArg Prod.snd e)).mp kept
    next e => exact (congrArg (TransientsKept n m s) (congrArg Prod.snd e)).mp kept

theorem State.leOutput_transientsKept (s : State) (o : OutAct) : TransientsKept n m s (s.leOutput n m c o) := by
  cases o with
  | emit e => exact (State.fireIsland_touch (s := s) (n := n) (i := 16 * m + 8 + e)).transientsKept
  | duty k w v =>
    have touch : Touch _ s (s.dlrWrite (s.leDomain n m) (m + 1) n k w v) := State.dlrWrite_touch
    refine .of_regs touch (s.dlrWrite_regsSet (s.leDomain n m) (m + 1) n k w v) ?_
    simp only [List.mem_cons, List.not_mem_nil, or_false, R.LE_TRANSIENTS, R.TU_STATUS, R.TU_DLR_PEND, R.TU_DLRw]
    omega
  | exchange w vs =>
    refine .of_regs State.leOutput_touch (s.leOutput_exchange_keeps n m c w vs).regs ?_
    rintro (h | ⟨f, h⟩)
    · simp only [List.mem_cons, List.not_mem_nil, or_false, R.LE_TRANSIENTS, R.XM_STATUS, R.XM_FAULT_ADDR, R.LE_CTXc_STATUS] at h
      omega
    · simp only [R.LE_TRANSIENTS, R.XM_FRAME_GENf] at h
      omega

theorem State.leOutputs_transientsKept (s : State) (acts : List OutAct) : TransientsKept n m s (s.leOutputs n m c acts) := by
  unfold State.leOutputs
  dsimp only
  have stamp : TransientsKept n m s (if acts = [] then s else s.setCtx n m c { s.ctx n m c with lastOut := some s.absTick }) :=
    .ite (.refl s) (s.setCtx_transientsKept c _)
  refine .ite stamp (.ite (.after (State.setCtx_transientsKept _ c _) stamp) (stamp.trans ?_))
  exact .foldl acts _ fun o _ t => t.leOutput_transientsKept n m c o

theorem State.putOut_transientsKept (s : State) (a : Nat) (vs : List Word) : TransientsKept n m s (s.putOut n m c a vs) := by
  unfold State.putOut
  split
  · exact .refl s
  · split
    · exact State.commit_touch.transientsKept
    · exact s.leOutputs_transientsKept n m c _
    · exact .refl s

theorem State.nonfinite_transientsKept (s : State) (b : Bool) : TransientsKept n m s (s.nonfinite n m c b) := by
  refine .of_regs State.nonfinite_touch (s.nonfinite_regsSet n m c b) ?_
  rw [List.mem_singleton]
  simp only [R.LE_TRANSIENTS, R.LE_CTXc_STATUS]
  omega

theorem State.settle_transientsKept (s : State) (i : Nat) (h : Hdr) (o : LawOut) : TransientsKept n m s (s.settle n m c i h o) := by
  rw [State.settle_eq]
  have committed : TransientsKept n m s (s.committed n m c h o) :=
    .after State.commit_touch.transientsKept (s.nonfinite_transientsKept n m c o.bad)
  exact (committed.trans (State.putOut_transientsKept n m c _ _ _)).trans (State.stageDone_transientsKept n m c _ i)

/-! ### No stage touches them -/

theorem lawStage_transientsKept (law : LawIn → LawOut) (s : State) (i : Nat) (h : Hdr) :
    TransientsKept n m s (State.lawStage n m c law s i h) := by
  unfold State.lawStage
  split
  · exact .refl s
  next f _ =>
    exact (State.gather_transientsKept n m c h f h.count 0 s).trans (State.settle_transientsKept n m c _ i h
      ⟨((s.gather n m c h f 0 h.count).1.map law).flatMap (fun o => o.u), ((s.gather n m c h f 0 h.count).1.map law).flatMap (fun o => o.st),
        ((s.gather n m c h f 0 h.count).1.map law).any (fun o => o.bad)⟩)

theorem State.operandsIf_transientsKept (s : State) (b : Bool) (a : Nat) :
    TransientsKept n m s (if b then s.operands n m c a 2 else ([], s)).2 := by
  cases b
  · exact .refl s
  · exact State.operands_transientsKept n m c 2 a s

theorem camCompute_transientsKept (prevO : BitVec 64) (boundary : Bool) (s : State) (i : Nat) (h : Hdr) (x : LawIn) :
    TransientsKept n m s (State.camCompute n m c prevO boundary s i h x) := by
  unfold State.camCompute
  split
  · exact s.settle_transientsKept n m c i h _
  · exact .after (State.settle_transientsKept n m c _ i h _) (s.operandsIf_transientsKept n m c _ h.out)

theorem camStage_transientsKept (s : State) (i : Nat) (h : Hdr) : TransientsKept n m s (State.camStage n m c s i h) := by
  have gathered (t : State) (h : Hdr) := State.gatherOne_transientsKept n m c h t
  have first := gathered s h
  unfold State.camStage
  dsimp only
  generalize (s.gatherOne n m c h).2 = u at *
  split
  · exact first.trans (u.settle_transientsKept n m c i h _)
  · refine first.trans (.ite ?_ (camCompute_transientsKept n m c _ _ u i h _))
    refine .after (.ite (State.chainFault_transientsKept n m c _) (.ite (.refl _) ?_)) (u.swap_transientsKept n m _)
    exact .after (.ite (State.settle_transientsKept n m c _ i _ _) (camCompute_transientsKept n m c _ _ _ i _ _)) (gathered _ _)

theorem compareArmStage_transientsKept (s : State) (i : Nat) (h : Hdr) :
    TransientsKept n m s (State.compareArmStage n m c s i h) := by
  have first := State.gatherOne_transientsKept n m c h s
  unfold State.compareArmStage
  exact .after (State.settle_transientsKept n m c _ i h _) (first.trans (.ite (State.leOutputs_transientsKept n m c _ _) (.refl _)))

theorem emitStage_transientsKept (s : State) (i : Nat) (h : Hdr) : TransientsKept n m s (State.emitStage n m c s i h) := by
  have first := State.gatherOne_transientsKept n m c h s
  unfold State.emitStage
  exact .after (State.settle_transientsKept n m c _ i h _) (first.trans (.ite (State.leOutputs_transientsKept n m c _ _) (.refl _)))

theorem fcsStage_transientsKept (pass : Nat) (s : State) (i : Nat) (h : Hdr) :
    TransientsKept n m s (State.fcsStage n m c pass s i h) := by
  have first : TransientsKept n m s (if pass = 0 then (s.gatherOne n m c h).2.setCtx n m c { (s.gatherOne n m c h).2.ctx n m c with
      kept := [(s.gatherOne n m c h).1.a, (s.gatherOne n m c h).1.b, (s.gatherOne n m c h).1.p, (s.gatherOne n m c h).1.st] } else s) :=
    .ite ((State.gatherOne_transientsKept n m c h s).trans (State.setCtx_transientsKept _ c _)) (.refl s)
  unfold State.fcsStage
  exact first.trans (.ite (State.settle_transientsKept n m c _ i h _) (State.setCtx_transientsKept _ c _))

theorem tuneStage_transientsKept (s : State) (i : Nat) (h : Hdr) : TransientsKept n m s (State.tuneStage n m c s i h) := by
  have relay (t : State) (v : Store Bool) : TransientsKept n m t (t.setLe n m { t.le n m with relays := v }) :=
    ⟨(State.setLe_touch_ctxs (s := t) (n := n) (m := m) (r := { t.le n m with relays := v }) (k := n) (j := m) rfl).sound, fun _ => rfl, by rw [State.le_setLe_self]⟩
  unfold State.tuneStage
  exact .after (State.settle_transientsKept n m c _ i h _) ((State.gatherOne_transientsKept n m c h s).trans (relay _ _))

theorem timerOutStage_transientsKept (s : State) (i : Nat) (h : Hdr) : TransientsKept n m s (State.timerOutStage n m c s i h) := by
  unfold State.timerOutStage
  split
  · exact .refl s
  next f _ =>
    exact (((State.gather_transientsKept n m c h f h.count 0 s).trans (State.nonfinite_transientsKept n m c _ _)).trans
      (State.leOutputs_transientsKept n m c _ _)).trans (State.stageDone_transientsKept n m c _ i)

theorem transferStage_transientsKept (s : State) (i : Nat) (h : Hdr) : TransientsKept n m s (State.transferStage n m c s i h) := by
  have moved (w : Nat) (f : List Word → List Word) : TransientsKept n m s
      ((((s.operands n m c h.inA w).2.putOut n m c h.out (f (s.operands n m c h.inA w).1))).stageDone n m c i) :=
    ((State.operands_transientsKept n m c w h.inA s).trans (State.putOut_transientsKept n m c _ _ _)).trans
      (State.stageDone_transientsKept n m c _ i)
  have reported : TransientsKept n m s (if regionOf h.inA == some Region.exchange then (s.leExchange n (fun t => (.done, t))).2 else s) :=
    .ite ((State.leExchange_touch (w := 0x1) (f := fun t => (.done, t)) fun _ => .refl).transientsKept) (.refl s)
  have refused (t : State) (w : Nat) : TransientsKept n m t (t.xmRefuse w 2) := by
    refine .of_regs State.xmRefuse_touch (t.xmRefuse_regsSet w 2) ?_
    simp only [List.mem_cons, List.not_mem_nil, or_false, R.LE_TRANSIENTS, R.XM_STATUS, R.XM_FAULT_ADDR]
    omega
  unfold State.transferStage
  dsimp only
  refine .ite (moved _ id) (.ite (moved _ (· ++ [zOne])) ?_)
  refine .after (State.stageDone_transientsKept n m c _ i) (.after (State.putOut_transientsKept n m c _ _ _) (reported.trans ?_))
  generalize (if (regionOf h.inA == some Region.exchange) = true then (s.leExchange n (fun t => (.done, t))).2 else s) = u
  split
  · exact .ite (refused u _) (.refl u)
  · exact .refl u

end

end Sys2Proof.Machine
end

section
/-!
The stage that each stage command runs (R129 to R141).
-/
set_option Elab.async false
namespace Sys2Proof.Machine
open Sys2Proof

/-! ### The stage that each stage command runs (R129 to R141) -/

/-- The effect of a stage of each type. -/
def stageRun (typ n m c pass : Nat) : State → Nat → Hdr → State :=
  match typ with
  | 0x10 => State.lawStage n m c lawConverterScaling
  | 0x11 => State.lawStage n m c lawSigmaDelta
  | 0x12 => State.lawStage n m c lawEncoderDecode
  | 0x13 => State.lawStage n m c lawSinCosInterpolation
  | 0x14 => State.lawStage n m c lawResolver
  | 0x20 => State.lawStage n m c lawClarke
  | 0x21 => State.lawStage n m c lawInverseClarke
  | 0x22 => State.lawStage n m c lawPark
  | 0x23 => State.lawStage n m c lawInversePark
  | 0x24 => State.lawStage n m c lawSinCos
  | 0x25 => State.lawStage n m c lawAtan2
  | 0x26 => State.lawStage n m c lawMagnitude
  | 0x30 => State.lawStage n m c lawPi
  | 0x31 => State.lawStage n m c lawPid
  | 0x32 => State.lawStage n m c lawTwoDof
  | 0x33 => State.lawStage n m c lawResonant
  | 0x34 => State.lawStage n m c lawLeadLag
  | 0x40 => State.lawStage n m c lawLowPass
  | 0x41 => State.lawStage n m c lawBiquad
  | 0x42 => State.lawStage n m c lawNotch
  | 0x43 => State.lawStage n m c lawMovingAverage
  | 0x50 => State.lawStage n m c lawSpeedObserver
  | 0x51 => State.lawStage n m c lawFluxObserver
  | 0x52 => State.lawStage n m c lawPll
  | 0x60 => State.lawStage n m c lawSaturate
  | 0x61 => State.lawStage n m c lawRateLimit
  | 0x62 => State.lawStage n m c lawCircularLimit
  | 0x70 => State.lawStage n m c lawSineTriangle
  | 0x71 => State.lawStage n m c lawSpaceVector
  | 0x72 => State.lawStage n m c lawDiscontinuous
  | 0x73 => State.lawStage n m c lawNpc
  | 0x74 => State.lawStage n m c lawOvermodulation
  | 0x80 => State.lawStage n m c lawDeadTime
  | 0x81 => State.lawStage n m c lawDcLink
  | 0x82 => State.lawStage n m c lawDecoupling
  | 0x90 => State.lawStage n m c lawShaper
  | 0x91 => State.camStage n m c
  | 0x92 => State.lawStage n m c lawGearing
  | 0x93 => State.compareArmStage n m c
  | 0xA0 => State.fcsStage n m c pass
  | 0xA1 => State.tuneStage n m c
  | 0xA2 => State.lawStage n m c lawMove
  | 0xA3 => State.lawStage n m c lawAffine
  | 0xA4 => fun t i h => State.lawStage n m c (fun x => tableLaw x (fun k => t.desc n m ((x.P 0).toNat + k))) t i h
  | 0xA5 => State.lawStage n m c lawCompareSelect
  | 0xA6 => State.emitStage n m c
  | 0xA7 => State.transferStage n m c
  | 0xA8 => State.timerOutStage n m c
  | _ => fun t _ _ => t

theorem execFcsMpc_eq (n : Fin 16) (m : Fin 6) (c : Fin 8) (res : Residue) (pass : Fin 4) (s : State) :
    exec (.fcsMpc n m c res pass) s = .next (if (s.fcsPass n m c != pass) = true then s
      else s.stageCmd 0xA0 n m c res pass (State.fcsStage n m c pass)) := by
  have run : exec (.fcsMpc n m c res pass) s = execFcsMpc n m c res pass s := rfl
  rw [run, execFcsMpc]
  by_cases turn : s.fcsPass n m c = pass.val
  · rw [if_pos turn, if_neg (by simp [turn])]
  · rw [if_neg turn, if_pos (by simpa using turn)]

/-- What command `k` answers if it is the stage command of type `typ`, for the engine and context, with these residues and pass. -/
def RunsStage (k : Instr) (typ n' m' c' : Nat) (res : Residue) (pass : Nat) : Prop :=
  ∃ (n : Fin 16) (m : Fin 6) (c : Fin 8), n' = n ∧ m' = m ∧ c' = c ∧ ∀ s : State, exec k s = .next
    (if (typ == 0xA0 && s.fcsPass n m c != pass) = true then s else s.stageCmd typ n m c res pass (stageRun typ n m c pass))

section
variable {k : Instr} {typ n' m' c' pass : Nat} {res : Residue} (h : stageRow k = some ⟨typ, n', m', c', res, pass⟩)
include h

/-- The commands of the input, transform, regulator and filter stages: the first 21 of the row. -/
theorem runsStage_low (low : typ < 0x50) : RunsStage k typ n' m' c' res pass := by
  unfold stageRow at h
  split at h
  iterate 21
    · cases h
      exact ⟨_, _, _, rfl, rfl, rfl, fun s => rfl⟩
  case h_49 => exact absurd h (by simp)
  all_goals
    cases h
    exact absurd low (by decide)

/-- The commands of the other stages. -/
theorem runsStage_high (high : 0x50 ≤ typ) : RunsStage k typ n' m' c' res pass := by
  unfold stageRow at h
  split at h
  iterate 21
    · cases h
      exact absurd high (by decide)
  case h_43 _ n m c res pass =>
    cases h
    exact ⟨n, m, c, rfl, rfl, rfl, fun s => execFcsMpc_eq n m c res pass s⟩
  case h_49 => exact absurd h (by simp)
  all_goals
    cases h
    exact ⟨_, _, _, rfl, rfl, rfl, fun s => rfl⟩

/-- A stage command dispatches its type, at its pass. -/
theorem runsStage : RunsStage k typ n' m' c' res pass := by
  obtain low | high := Nat.lt_or_ge typ 0x50
  · exact runsStage_low h low
  · exact runsStage_high h high

end

theorem stageRun_transientsKept (typ : Nat) (n : Fin 16) (m : Fin 6) (c : Fin 8) (pass : Nat) (s : State) (i : Nat) (h : Hdr) :
    TransientsKept n m s (stageRun typ n m c pass s i h) := by
  have law (f : LawIn → LawOut) := lawStage_transientsKept n m c f s i h
  unfold stageRun
  split
  case h_37 => exact camStage_transientsKept n m c s i h
  case h_39 => exact compareArmStage_transientsKept n m c s i h
  case h_40 => exact fcsStage_transientsKept n m c pass s i h
  case h_41 => exact tuneStage_transientsKept n m c s i h
  case h_46 => exact emitStage_transientsKept n m c s i h
  case h_47 => exact transferStage_transientsKept n m c s i h
  case h_48 => exact timerOutStage_transientsKept n m c s i h
  case h_49 => exact .refl s
  all_goals exact law _

theorem stageRun_touch (typ : Nat) (n : Fin 16) (m : Fin 6) (c : Fin 8) (pass : Nat) (s : State) (i : Nat) (h : Hdr) :
    Touch 0x14010C910237 s (stageRun typ n m c pass s i h) := by
  unfold stageRun
  split
  case h_37 => exact State.camStage_touch
  case h_39 => exact State.compareArmStage_touch
  case h_40 => exact State.fcsStage_touch
  case h_41 => exact State.tuneStage_touch
  case h_46 => exact State.emitStage_touch
  case h_47 => exact State.transferStage_touch
  case h_48 => exact State.timerOutStage_touch
  case h_49 => exact .refl
  all_goals exact State.lawStage_touch

end Sys2Proof.Machine
end

section
/-!
Chain errors and transients (R98, R106, R107).
-/
set_option Elab.async false
namespace Sys2Proof.Machine
open Sys2Proof

/-! ### Chain errors (R98) -/

section
variable {n : Fin 16} {m : Fin 6} {c : Fin 8}

theorem LE_RUN_not_epochReg (n : Fin 16) (m : Fin 6) : ¬ epochReg (R.LE_RUN n m) :=
  not_epochReg_of_island (engineReg_plain n m).2.1 (by unfold R.LE_RUN; omega)

/-- A chain error disables the context and ends its execution. -/
theorem State.Sound.chainFault {s : State} (sound : s.Sound) :
    (s.chainFault n m c).rb (R.LE_RUN n m) c = false ∧ (s.chainFault n m c).rb (R.LE_CTXc_STATUS n m c) 0 = true
      ∧ ((s.chainFault n m c).ctx n m c).phase = .idle ∧ ((s.chainFault n m c).ctx n m c).outs = [] := by
  have ended : (s.setCtx n m c { s.ctx n m c with phase := .idle, outs := [], items := [], lastOut := none }).ctx n m c
      = { s.ctx n m c with phase := .idle, outs := [], items := [], lastOut := none } := by
    rw [State.ctx_setCtx, if_pos ⟨rfl, by rw [sound.ctxs_length]; exact c.isLt⟩]
  have sound1 : (s.setCtx n m c { s.ctx n m c with phase := .idle, outs := [], items := [], lastOut := none }).Sound :=
    State.setCtx_touch.sound sound
  rw [State.chainFault]
  dsimp only
  generalize s.setCtx n m c { s.ctx n m c with phase := .idle, outs := [], items := [], lastOut := none } = u at *
  have apart : R.LE_RUN n m ≠ R.LE_CTXc_STATUS n m c := by
    unfold R.LE_RUN R.LE_CTXc_STATUS
    omega
  have off : ((u.setRb (R.LE_RUN n m) c false).flag (R.LE_CTXc_STATUS n m c) 0).rb (R.LE_RUN n m) c = false := by
    rw [RegsIn.rb_eq (State.flag_regsSet _ _ _) (by simpa using apart)]
    exact State.rb_setRb_self _ (by omega) false
  have shown := State.rb_flag_self (u.setRb (R.LE_RUN n m) c false) (R.LE_CTXc_STATUS n m c) 0 (by decide)
  have touch : Touch 0x6 u ((u.setRb (R.LE_RUN n m) c false).flag (R.LE_CTXc_STATUS n m c) 0) :=
    Touch.of State.setRb_touch |>.then State.flag_touch
  generalize (u.setRb (R.LE_RUN n m) c false).flag (R.LE_CTXc_STATUS n m c) 0 = v at *
  have ends := (touch.sound sound1).leBoundary n m
  have ctx := (State.ctx_congr (v.leBoundary_les n m) n m c).trans
    ((State.ctx_congr (touch.same_part .les) n m c).trans ended)
  exact ⟨(ends.regs.rb_eq (LE_RUN_not_epochReg n m) _).trans off, (ends.regs.rb_eq (LE_CTXc_STATUS_not_epochReg n m c) _).trans shown,
    congrArg CtxRec.phase ctx, congrArg CtxRec.outs ctx⟩

theorem State.stageCmd_fault {s : State} {typ pass : Nat} {res : Residue} {run : State → Nat → Hdr → State}
    (works : s.leWorks n m = true) (turn : s.leChoice n m = some c.val) (fault : (s.ctxBegin n m c).nextStage n m c = .fault) :
    s.stageCmd typ n m c res pass run = (s.ctxBegin n m c).chainFault n m c := by
  simp only [State.stageCmd, works, turn, fault, Bool.not_true, bne_self_eq_false, Bool.or_self, Bool.false_eq_true, if_false]

/-! ### Transients (R106, R107) -/

theorem State.stageCmd_dispatched {s : State} {typ pass i : Nat} {h : Hdr} {f : Form} {res : Residue} {run : State → Nat → Hdr → State}
    (d : s.Dispatches n m c typ i h f) : s.stageCmd typ n m c res pass run = (match res with
      | .clean => run (s.ctxBegin n m c) i h
      | .transient => (run (s.ctxBegin n m c) i h).leTransient n m c i typ pass
      | .permanent => (s.ctxBegin n m c).lePermanent n m c i typ pass) := by
  obtain ⟨sound, still⟩ := d.reads_good
  simp only [State.stageCmd, d.works, d.turn, d.finds, d.kind, sound, still, Bool.not_true, bne_self_eq_false, Bool.or_self,
    Bool.false_eq_true, if_false, ne_eq, not_true_eq_false]
    <;> rfl

/-- The registers of a transient lie apart. -/
theorem transientRegs_apart (n : Fin 16) (m : Fin 6) (c : Fin 8) :
    [R.LE_TRANSIENTS n m, R.LE_CTXc_STATUS n m c, R.LE_STATUS n m, R.LE_CTXc_FIXED n m c, R.LE_FAULT_INFO n m].Nodup := by
  simp only [List.nodup_cons, List.mem_cons, List.not_mem_nil, or_false, not_false_eq_true, List.nodup_nil, and_true,
    R.LE_TRANSIENTS, R.LE_CTXc_STATUS, R.LE_STATUS, R.LE_CTXc_FIXED, R.LE_FAULT_INFO]
  omega

/-- A transient that is none too many: it counts, shows and imposes executions in fixed-phase timing. -/
theorem State.leTransient_few {u : State} (few : (recent u.clk.beat (u.le n m).window).length < 16) (i typ pass : Nat) :
    (u.leTransient n m c i typ pass).reg (R.LE_FAULT_INFO n m) = faultInfo typ i c pass false
      ∧ (u.leTransient n m c i typ pass).rb (R.LE_CTXc_STATUS n m c) 4 = true
      ∧ (u.leTransient n m c i typ pass).rb (R.LE_STATUS n m) 1 = true
      ∧ (u.leTransient n m c i typ pass).reg (R.LE_CTXc_FIXED n m c) = 0x80000010#32
      ∧ (u.leTransient n m c i typ pass).rf (R.LE_TRANSIENTS n m) 31 16 = min 0xFFFF (u.rf (R.LE_TRANSIENTS n m) 31 16 + 1)
      ∧ (u.leTransient n m c i typ pass).mem = u.mem := by
  have apart := transientRegs_apart n m c
  simp only [List.nodup_cons, List.mem_cons, List.not_mem_nil, or_false, not_false_eq_true, List.nodup_nil, and_true, not_or] at apart
  obtain ⟨⟨ts, tl, tf, ti⟩, ⟨sl, sf, si⟩, ⟨lf, li⟩, fi⟩ := apart
  rw [State.leTransient]
  dsimp only
  rw [if_neg (by omega)]
  generalize recent u.clk.beat (u.le n m).window = w
  generalize u.lePhysical n m = p
  -- the count
  have bound : min 0xFFFF (u.rf (R.LE_TRANSIENTS n m) 31 16 + 1) ≤ 0xFFFF := Nat.min_le_left _ _
  generalize min 0xFFFF (u.rf (R.LE_TRANSIENTS n m) 31 16 + 1) = total at *
  have counted : (u.setReg (R.LE_TRANSIENTS n m) (w32 (65536 * total))).rf (R.LE_TRANSIENTS n m) 31 16 = total := by
    rw [State.rf, State.reg_setReg, if_pos rfl, fld, w32, BitVec.toNat_ofNat]
    omega
  have mem1 : (u.setReg (R.LE_TRANSIENTS n m) (w32 (65536 * total))).mem = u.mem := rfl
  generalize u.setReg (R.LE_TRANSIENTS n m) (w32 (65536 * total)) = u1 at *
  -- the flags of the context and of the engine
  have ctxFlag := State.rb_flag_self u1 (R.LE_CTXc_STATUS n m c) 4 (by decide)
  have regs2 : RegsSet [R.LE_CTXc_STATUS n m c] u1 (u1.flag (R.LE_CTXc_STATUS n m c) 4) := State.flag_regsSet _ _ _
  have mem2 : (u1.flag (R.LE_CTXc_STATUS n m c) 4).mem = u1.mem := State.flag_touch.same_part .mem
  generalize u1.flag (R.LE_CTXc_STATUS n m c) 4 = u2 at *
  have engineFlag := State.rb_flag_self u2 (R.LE_STATUS n m) 1 (by decide)
  have regs3 : RegsSet [R.LE_STATUS n m] u2 (u2.flag (R.LE_STATUS n m) 1) := State.flag_regsSet _ _ _
  have mem3 : (u2.flag (R.LE_STATUS n m) 1).mem = u2.mem := State.flag_touch.same_part .mem
  generalize u2.flag (R.LE_STATUS n m) 1 = u3 at *
  -- the report, and the executions imposed
  have regs4 : (u3.report (6 * n + p) (6 * n + p) 1 (faultInfo typ i c pass false)).regs = u3.regs := rfl
  have mem4 : (u3.report (6 * n + p) (6 * n + p) 1 (faultInfo typ i c pass false)).mem = u3.mem := rfl
  generalize u3.report (6 * n + p) (6 * n + p) 1 (faultInfo typ i c pass false) = u4 at *
  have imposed : (u4.impose n m c 2).reg (R.LE_CTXc_FIXED n m c) = 0x80000010#32 := by
    rw [State.impose, State.reg_setReg, if_pos rfl]
    decide
  have regs5 : RegsSet [R.LE_CTXc_FIXED n m c] u4 (u4.impose n m c 2) :=
    RegsIn.trans (.of_regs rfl _) (State.setReg_regsSet (u4.setCtx n m c _) _ _)
  have mem5 : (u4.impose n m c 2).mem = u4.mem := rfl
  generalize u4.impose n m c 2 = u5 at *
  have regs6 : (u5.setLe n m { u5.le n m with window := w ++ [u5.clk.beat] }).regs = u5.regs := rfl
  have mem6 : (u5.setLe n m { u5.le n m with window := w ++ [u5.clk.beat] }).mem = u5.mem := rfl
  generalize u5.setLe n m { u5.le n m with window := w ++ [u5.clk.beat] } = u6 at *
  have regs7 : RegsSet [R.LE_FAULT_INFO n m] u6 (u6.setReg (R.LE_FAULT_INFO n m) (faultInfo typ i c pass false)) :=
    State.setReg_regsSet _ _ _
  have stays4 : RegsSet [] u3 u4 := .of_regs regs4 _
  have stays6 : RegsSet [] u5 u6 := .of_regs regs6 _
  refine ⟨?_, ?_, ?_, ?_, ?_, ?_⟩
  · rw [State.reg_setReg, if_pos rfl]
  · rw [RegsIn.rb_eq regs7 (by simpa using si), RegsIn.rb_eq stays6 (by simp), RegsIn.rb_eq regs5 (by simpa using sf),
      RegsIn.rb_eq stays4 (by simp), RegsIn.rb_eq regs3 (by simpa using sl), ctxFlag]
  · rw [RegsIn.rb_eq regs7 (by simpa using li), RegsIn.rb_eq stays6 (by simp), RegsIn.rb_eq regs5 (by simpa using lf),
      RegsIn.rb_eq stays4 (by simp), engineFlag]
  · rw [RegsIn.reg_eq regs7 (by simpa using fi), RegsIn.reg_eq stays6 (by simp), imposed]
  · rw [RegsIn.rf_eq regs7 (by simpa using ti), RegsIn.rf_eq stays6 (by simp), RegsIn.rf_eq regs5 (by simpa using tf),
      RegsIn.rf_eq stays4 (by simp), RegsIn.rf_eq regs3 (by simpa using tl), RegsIn.rf_eq regs2 (by simpa using ts), counted]
  · exact Eq.trans rfl (mem6.trans (mem5.trans (mem4.trans (mem3.trans (mem2.trans mem1)))))

end

end Sys2Proof.Machine
end

section
/-!
Engines that are withdrawn, and the outcomes of stage commands (R97, R107 to R112).
-/
set_option Elab.async false
namespace Sys2Proof.Machine
open Sys2Proof

/-! ### Engines that are withdrawn (R107 to R112, R461) -/

/-- The registers of unit `k` of island `n` that an engine which leaves it changes. -/
def unitReg (n k a : Nat) : Prop := a = R.TU_DLR_PEND n k ∨ a = R.TU_STATE n k ∨ holdReg n k a

/-- The registers in which engines of island `n` that are withdrawn show, and those of the units that they leave. -/
def stopReg (n a : Nat) : Prop :=
  (∃ e < 6, a = R.LE_STATUS n e ∨ a = R.LE_RUN n e)
    ∨ (∃ k < 4, unitReg n k a) ∨ epochReg a

/-- What withdrawals of engines leave of a sound state: registers but for theirs, and memory but for descriptor words. -/
structure Withdraws (n : Nat) (s t : State) : Prop where
  sound : s.Sound → t.Sound
  regs : s.Sound → RegsIn (stopReg n) s t
  mem : s.Sound → DescOnly s t

section
variable {n : Nat}

theorem Withdraws.refl (s : State) : Withdraws n s s := ⟨id, fun _ => .refl _ s, fun _ => .refl s⟩

theorem Withdraws.trans {s t u : State} (h : Withdraws n s t) (k : Withdraws n t u) : Withdraws n s u :=
  ⟨fun x => k.sound (h.sound x), fun x => (h.regs x).trans (k.regs (h.sound x)), fun x => (h.mem x).trans (k.mem (h.sound x))⟩

theorem Withdraws.ite {s t u : State} {c : Prop} [Decidable c] (h : Withdraws n s t) (k : Withdraws n s u) :
    Withdraws n s (if c then t else u) := by
  split
  · exact h
  · exact k

theorem Withdraws.foldl {α : Type} {f : State → α → State} :
    ∀ (l : List α) (s : State), (∀ x ∈ l, ∀ t, Withdraws n t (f t x)) → Withdraws n s (l.foldl f s)
  | [], s, _ => .refl s
  | x :: l, s, hf => (hf x List.mem_cons_self s).trans (Withdraws.foldl l (f s x) fun y hy => hf y (List.mem_cons_of_mem x hy))

/-- What leaves memory. -/
theorem Withdraws.of_regs {w : Nat} {s t : State} (h : Touch w s t) (regs : RegsIn (stopReg n) s t)
    (mem : w.testBit 4 = false := by decide) : Withdraws n s t :=
  ⟨h.sound, fun _ => regs, fun _ => .of_mem (h.same_part .mem (by simpa [Part.bits] using mem))⟩

theorem State.swap_withdraws (s : State) (p : Entry → Bool) : Withdraws n s (s.swap p) :=
  ⟨State.swap_touch.sound, fun sound => (sound.swap p).regs.mono fun _ h => .inr (.inr h), fun sound => (sound.swap p).mem⟩

theorem State.sysHold_withdraws (s : State) {k : Nat} (hk : k < 4) (cause : Nat) : Withdraws n s (s.sysHold n k cause) :=
  .of_regs State.sysHold_touch ((s.sysHold_regsIn n k cause).mono fun _ h => .inr (.inl ⟨k, hk, .inr (.inr h)⟩))

theorem State.unitOrphaned_unitRegs (s : State) (m k : Nat) (hold copy : Bool) :
    RegsIn (unitReg n k) s (s.unitOrphaned n m k hold copy) := by
  have words : RegsIn (unitReg n k) s (s.widthsDropped (s.tu n k).pendBy n m k) :=
    RegsIn.foldl _ s fun w _ t => .ite (State.setReg_regsIn t (.inl rfl) _) (.refl _ t)
  have marked (t : State) : RegsIn (unitReg n k) t (t.setRb (R.TU_STATE n k) 7 true) := State.setReg_regsIn t (.inr (.inl rfl)) _
  have moved (t : State) : RegsIn (unitReg n k) t (t.orphanMarked n m k copy) := .of_regs rfl _
  have held (t : State) : RegsIn (unitReg n k) t (t.sysHold n k 17) := (t.sysHold_regsIn n k 17).mono fun _ h => .inr (.inr h)
  rw [State.unitOrphaned_eq]
  exact (words.trans (marked _)).trans (.ite ((moved _).trans (held _)) (moved _))

theorem State.unitOrphaned_withdraws (s : State) (m : Nat) {k : Nat} (hk : k < 4) (hold copy : Bool) :
    Withdraws n s (s.unitOrphaned n m k hold copy) :=
  .of_regs State.unitOrphaned_touch ((s.unitOrphaned_unitRegs m k hold copy).mono fun _ h => .inr (.inl ⟨k, hk, h⟩))

theorem State.leStopped_withdraws (s : State) {e : Nat} (he : e < 6) :
    Withdraws n s ((s.setReg (R.LE_RUN n e) 0#32).flag (R.LE_STATUS n e) 4) :=
  .of_regs (w := 0x6) (Touch.of State.setReg_touch |>.then State.flag_touch)
    ((State.setReg_regsIn _ (.inl ⟨e, he, .inr rfl⟩) _).trans (State.flag_regsIn _ (.inl ⟨e, he, .inl rfl⟩) 4))

theorem State.copyAbandoned_withdraws (s : State) {e : Nat} (he : e < 6) (rep : Nat) : Withdraws n s (s.copyAbandoned n e rep) := by
  have ended : Withdraws n s (s.setLe n e { s.le n e with copying := false }) :=
    .of_regs (State.setLe_touch_ctxs (k := n) (j := e) rfl) (.of_regs rfl _)
  unfold State.copyAbandoned
  dsimp only
  generalize s.setLe n e { s.le n e with copying := false } = u at *
  refine ended.trans (Withdraws.trans ?_ (State.swap_withdraws _ _))
  have units : Withdraws n u ((u.leUnits n e).foldl (fun t k =>
      (t.setTu n k { t.tu n k with causes := (t.tu n k).causes.filter (fun c => c != e) }).sysHold n k 17) u) :=
    .foldl _ u fun k hk t => Withdraws.trans (.of_regs State.setTu_touch (.of_regs rfl _))
      (State.sysHold_withdraws _ (State.lt_of_mem_leUnits hk) 17)
  exact (units.trans (State.leStopped_withdraws _ he)).trans (.of_regs State.report_touch (.of_regs rfl _))

end

/-- The copies to engine `p`, the substitute, are lost with it. -/
def State.copiesLost (s : State) (n p rep : Nat) : State :=
  if s.leSubst n = some p then
    ((List.range 6).filter (fun e => (s.le n e).copying)).foldl (fun t e => t.copyAbandoned n e rep) s
  else s

/-- Engine `p` retires, and the contexts of engine `m` are hosted nowhere. -/
def State.retiredBits (s : State) (n m p : Nat) : State :=
  if p = m then s.setRb (R.IC_LE_RETIRED n) p true
  else (s.setRb (R.IC_LE_RETIRED n) p true).setRb (R.IC_LE_RETIRED n) (8 + m) false

theorem State.leRetire_eq {s : State} {n m : Nat} (works : s.leRetired n (s.lePhysical n m) = false) : ∃ safe free,
    s.leRetire n m false = ((s.copiesLost n (s.lePhysical n m) (6 * n + s.lePhysical n m)).retiredBits n m (s.lePhysical n m)).leWithdrawn
      n m (6 * n + s.lePhysical n m) (6 * n + s.lePhysical n m)
      ((s.copiesLost n (s.lePhysical n m) (6 * n + s.lePhysical n m)).leUnits n m) safe free := by
  unfold State.leRetire
  simp only [works, Bool.false_eq_true, if_false]
  exact ⟨_, _, rfl⟩

theorem State.copiesLost_withdraws (s : State) (n p rep : Nat) : Withdraws n s (s.copiesLost n p rep) :=
  .ite (.foldl _ s fun _ he t => t.copyAbandoned_withdraws (List.mem_range.mp (List.mem_filter.mp he).1) rep) (.refl s)

theorem State.lePhysical_lt (s : State) (n : Nat) (m : Fin 6) : s.lePhysical n m < 8 := by
  unfold State.lePhysical State.leSubst
  split
  · split
    · exact fld_lt _ _ _
    · exact m.isLt.trans (by decide)
  · exact m.isLt.trans (by decide)

theorem State.retiredBits_retired (s : State) (n m : Nat) {p : Nat} (hp : p < 8) : (s.retiredBits n m p).leRetired n p = true := by
  have marked : (s.setRb (R.IC_LE_RETIRED n) p true).rb (R.IC_LE_RETIRED n) p = true := State.rb_setRb_self _ (by omega) true
  unfold State.retiredBits State.leRetired
  split
  · exact marked
  · rw [State.rb_setRb_of_lt _ _ _ _ _ (by omega), if_neg (by omega)]
    exact marked

theorem State.retiredBits_regsSet (s : State) (n m p : Nat) : RegsSet [R.IC_LE_RETIRED n] s (s.retiredBits n m p) :=
  .ite (State.setRb_regsSet _ _ _ _) (RegsIn.trans (State.setRb_regsSet _ _ _ _) (State.setRb_regsSet _ _ _ _))

theorem State.retiredBits_touch (s : State) (n m p : Nat) : Touch 0x2 s (s.retiredBits n m p) :=
  .ite (.of State.setRb_touch) (Touch.of State.setRb_touch |>.then State.setRb_touch)

/-! ### An engine that is withdrawn -/

/-- A unit's registers lie apart from those of engines. -/
theorem not_unitReg {n : Fin 16} {k a : Nat} (_ : k < 4) (unit : unitReg n k a) (m : Fin 6) :
    a ≠ R.LE_FAULT_INFO n m ∧ a ≠ R.IC_LE_RETIRED n ∧ a ≠ R.LE_STATUS n m := by
  obtain h | h | h | h | ⟨j, q, hj, hq, h⟩ := unit <;>
  · simp only [R.TU_DLR_PEND, R.TU_STATE, R.TU_STATUS, R.TU_TRIP_STATE, R.EQ_STATUS] at h
    unfold R.LE_FAULT_INFO R.IC_LE_RETIRED R.LE_STATUS
    omega

theorem LE_STATUS_not_epochReg (n : Fin 16) (m : Fin 6) : ¬ epochReg (R.LE_STATUS n m) :=
  not_epochReg_of_island (engineReg_plain n m).2.2.1 (by unfold R.LE_STATUS; omega)

/-- The registers beside those of the engines that are withdrawn. -/
theorem not_stopReg (n : Fin 16) (m : Fin 6) : ¬ stopReg n (R.LE_FAULT_INFO n m) ∧ ¬ stopReg n (R.IC_LE_RETIRED n) := by
  obtain ⟨-, -, -, info, retired⟩ := engineReg_plain n m
  constructor
  · rintro (⟨e, he, h | h⟩ | ⟨k, hk, unit⟩ | epoch)
    · simp only [R.LE_FAULT_INFO, R.LE_STATUS] at h
      omega
    · simp only [R.LE_FAULT_INFO, R.LE_RUN] at h
      omega
    · exact (not_unitReg hk unit m).1 rfl
    · exact not_epochReg_of_island info (by unfold R.LE_FAULT_INFO; omega) epoch
  · rintro (⟨e, he, h | h⟩ | ⟨k, hk, unit⟩ | epoch)
    · simp only [R.IC_LE_RETIRED, R.LE_STATUS] at h
      omega
    · simp only [R.IC_LE_RETIRED, R.LE_RUN] at h
      omega
    · exact (not_unitReg hk unit m).2.1 rfl
    · exact not_epochReg_of_island retired (by unfold R.IC_LE_RETIRED; omega) epoch

/-- The record of an engine whose contexts are lost, or copied. -/
def LeRec.emptied (r : LeRec) (free : Bool) : LeRec :=
  { r with copying := free, enabling := 0, ctxs := r.ctxs.map (fun x => { x with phase := .idle, outs := [], items := [], lastOut := none }) }

theorem State.emptied_touch (s : State) (n m : Nat) (free : Bool) : Touch 0x800000 s (s.setLe n m ((s.le n m).emptied free)) :=
  State.setLe_touch fun h => by simp [LeRec.emptied, h.ctxs_length]

/-- An engine before it stops: retired in LE_STATUS, its contexts emptied, its units left. -/
def State.leEmptied (s : State) (n m : Nat) (units : List Nat) (safe free : Bool) : State :=
  units.foldl (fun t k => t.unitOrphaned n m k safe free)
    ((s.flag (R.LE_STATUS n m) 2).setLe n m (((s.flag (R.LE_STATUS n m) 2).le n m).emptied free))

theorem State.leWithdrawn_eq (s : State) (n m src rep : Nat) (units : List Nat) (safe free : Bool) :
    s.leWithdrawn n m src rep units safe free =
      if free then (s.leEmptied n m units safe free).report src rep (if free then 2 else 3) ((s.leEmptied n m units safe free).reg (R.LE_FAULT_INFO n m))
      else ((((s.leEmptied n m units safe free).report src rep (if free then 2 else 3)
        ((s.leEmptied n m units safe free).reg (R.LE_FAULT_INFO n m))).setReg (R.LE_RUN n m) 0#32).flag (R.LE_STATUS n m) 4).swap (entryOf n m) := rfl

/-- What an engine that stops leaves: retired in LE_STATUS, its record copying where it is free to. -/
theorem State.leEmptied_effect (s : State) (n : Fin 16) (m : Fin 6) {units : List Nat} (known : ∀ k ∈ units, k < 4) (safe free : Bool) :
    Withdraws n s (s.leEmptied n m units safe free) ∧ (s.leEmptied n m units safe free).rb (R.LE_STATUS n m) 2 = true
      ∧ ((s.leEmptied n m units safe free).le n m).copying = free := by
  have flagged : Withdraws n s (s.flag (R.LE_STATUS n m) 2) :=
    .of_regs State.flag_touch (State.flag_regsIn _ (.inl ⟨m, m.isLt, .inl rfl⟩) 2)
  have shown := State.rb_flag_self s (R.LE_STATUS n m) 2 (by decide)
  unfold State.leEmptied
  generalize s.flag (R.LE_STATUS n m) 2 = u at *
  have emptied : Withdraws n u (u.setLe n m ((u.le n m).emptied free)) := .of_regs (u.emptied_touch n m free) (.of_regs rfl _)
  have kept : (u.setLe n m ((u.le n m).emptied free)).rb (R.LE_STATUS n m) 2 = true := shown
  have record : ((u.setLe n m ((u.le n m).emptied free)).le n m).copying = free := by
    rw [State.le_setLe_self]
    rfl
  generalize u.setLe n m ((u.le n m).emptied free) = v at *
  have left : RegsIn (· ≠ R.LE_STATUS n m) v (units.foldl (fun t k => t.unitOrphaned n m k safe free) v) :=
    RegsIn.foldl units v fun k hk t => (t.unitOrphaned_unitRegs m k safe free).mono fun a h => (not_unitReg (known k hk) h m).2.2
  have parts : Touch 0x100000090107 v (units.foldl (fun t k => t.unitOrphaned n m k safe free) v) :=
    Touch.foldl fun _ _ => State.unitOrphaned_touch
  have records := State.le_congr (parts.same_part .les) n m
  refine ⟨(flagged.trans emptied).trans (.foldl units v fun k hk t => t.unitOrphaned_withdraws m (known k hk) safe free), ?_, ?_⟩
  · rw [left.rb_eq (by simp)]
    exact kept
  · rw [records, record]

/-- An engine that is withdrawn: its record copies to the substitute, or it has stopped. -/
theorem State.leWithdrawn_effect (s : State) (n : Fin 16) (m : Fin 6) (src rep : Nat) {units : List Nat}
    (known : ∀ k ∈ units, k < 4) (safe free : Bool) :
    Withdraws n s (s.leWithdrawn n m src rep units safe free)
      ∧ (s.Sound → (s.leWithdrawn n m src rep units safe free).rb (R.LE_STATUS n m) 2 = true
        ∧ (((s.leWithdrawn n m src rep units safe free).le n m).copying = true
          ∨ (s.leWithdrawn n m src rep units safe free).reg (R.LE_RUN n m) = 0#32
            ∧ (s.leWithdrawn n m src rep units safe free).rb (R.LE_STATUS n m) 4 = true)) := by
  obtain ⟨emptied, shown, copying⟩ := s.leEmptied_effect n m known safe free
  rw [State.leWithdrawn_eq]
  generalize s.leEmptied n m units safe free = u at *
  have reported : Withdraws n u (u.report src rep (if free then 2 else 3) (u.reg (R.LE_FAULT_INFO n m))) :=
    .of_regs State.report_touch (.of_regs rfl _)
  have regs : (u.report src rep (if free then 2 else 3) (u.reg (R.LE_FAULT_INFO n m))).regs = u.regs := rfl
  have les : (u.report src rep (if free then 2 else 3) (u.reg (R.LE_FAULT_INFO n m))).les = u.les := rfl
  generalize u.report src rep (if free then 2 else 3) (u.reg (R.LE_FAULT_INFO n m)) = v at *
  have stays : RegsSet [] u v := .of_regs regs _
  cases free with
  | true =>
    simp only [if_true]
    refine ⟨emptied.trans reported, fun _ => ⟨?_, .inl ?_⟩⟩
    · rw [RegsIn.rb_eq stays (by simp), shown]
    · rw [State.le_congr les, copying]
  | false =>
    simp only [Bool.false_eq_true, if_false]
    have stopped := v.leStopped_withdraws (n := n) m.isLt
    have apart : R.LE_RUN n m ≠ R.LE_STATUS n m := by
      unfold R.LE_RUN R.LE_STATUS
      omega
    have run : ((v.setReg (R.LE_RUN n m) 0#32).flag (R.LE_STATUS n m) 4).reg (R.LE_RUN n m) = 0#32 := by
      rw [RegsIn.reg_eq (State.flag_regsSet _ _ _) (by simpa using apart), State.reg_setReg, if_pos rfl]
    have lost := State.rb_flag_self (v.setReg (R.LE_RUN n m) 0#32) (R.LE_STATUS n m) 4 (by decide)
    have retired : ((v.setReg (R.LE_RUN n m) 0#32).flag (R.LE_STATUS n m) 4).rb (R.LE_STATUS n m) 2 = true := by
      rw [State.rb_flag_other _ _ _ _ (by decide) (by decide) (by decide), State.rb_setReg, if_neg apart.symm, RegsIn.rb_eq stays (by simp), shown]
    generalize (v.setReg (R.LE_RUN n m) 0#32).flag (R.LE_STATUS n m) 4 = w at *
    have before := (emptied.trans reported).trans stopped
    refine ⟨before.trans (w.swap_withdraws _), fun sound => ?_⟩
    have swap := ((before.sound sound).swap (entryOf n m)).regs
    refine ⟨?_, .inr ⟨?_, ?_⟩⟩
    · rw [swap.rb_eq (LE_STATUS_not_epochReg n m), retired]
    · rw [swap.reg_eq (LE_RUN_not_epochReg n m), run]
    · rw [swap.rb_eq (LE_STATUS_not_epochReg n m), lost]

/-! ### Permanent residue faults (R107) -/

/-- A permanent fault commits nothing, is recorded, and withdraws the engine. -/
theorem State.lePermanent_effect {s : State} (sound : s.Sound) (n : Fin 16) (m : Fin 6) (c i typ pass : Nat) :
    (∀ a < 8192, (s.lePermanent n m c i typ pass).stateMem n m a = s.stateMem n m a)
      ∧ (s.lePermanent n m c i typ pass).reg (R.LE_FAULT_INFO n m) = faultInfo typ i c pass true
      ∧ (s.leRetired n (s.lePhysical n m) = false → (s.lePermanent n m c i typ pass).leRetired n (s.lePhysical n m) = true
        ∧ (s.lePermanent n m c i typ pass).rb (R.LE_STATUS n m) 2 = true
        ∧ (((s.lePermanent n m c i typ pass).le n m).copying = true
          ∨ (s.lePermanent n m c i typ pass).reg (R.LE_RUN n m) = 0#32 ∧ (s.lePermanent n m c i typ pass).rb (R.LE_STATUS n m) 4 = true)) := by
  have marked : Touch 0x2 s (s.setReg (R.LE_FAULT_INFO n m) (faultInfo typ i c pass true)) := .of State.setReg_touch
  have info : (s.setReg (R.LE_FAULT_INFO n m) (faultInfo typ i c pass true)).reg (R.LE_FAULT_INFO n m) = faultInfo typ i c pass true := by
    rw [State.reg_setReg, if_pos rfl]
  have regs : RegsSet [R.LE_FAULT_INFO n m] s (s.setReg (R.LE_FAULT_INFO n m) (faultInfo typ i c pass true)) :=
    State.setReg_regsSet _ _ _
  have apart : R.IC_LE_RETIRED n ≠ R.LE_FAULT_INFO n m ∧ R.IC_LE_SUBST n ≠ R.LE_FAULT_INFO n m := by
    unfold R.IC_LE_RETIRED R.IC_LE_SUBST R.LE_FAULT_INFO
    omega
  rw [State.lePermanent]
  generalize s.setReg (R.LE_FAULT_INFO n m) (faultInfo typ i c pass true) = u at *
  have retiredIs (p : Nat) : u.leRetired n p = s.leRetired n p := RegsIn.rb_eq regs (by simpa using apart.1) p
  have physical : u.lePhysical n m = s.lePhysical n m := by
    have hosted : u.leHosted n m = s.leHosted n m := RegsIn.rb_eq regs (by simpa using apart.1) (8 + m)
    have subst : u.leSubst n = s.leSubst n := by
      rw [State.leSubst, State.leSubst, RegsIn.rb_eq regs (by simpa using apart.2), RegsIn.rf_eq regs (by simpa using apart.2)]
    rw [State.lePhysical, State.lePhysical, hosted, subst]
  have words (a : Nat) : u.stateMem n m a = s.stateMem n m a := State.mword_congr (marked.same_part .mem) _
  have sound1 := marked.sound sound
  rw [← physical, ← retiredIs]
  cases works : u.leRetired n (u.lePhysical n m) with
  | true =>
    have none : u.leRetire n m false = u := by
      rw [State.leRetire]
      simp only [works, if_true]
    rw [none]
    exact ⟨fun a _ => words a, info, fun no => absurd no (by decide)⟩
  | false =>
    obtain ⟨safe, free, retire⟩ := State.leRetire_eq works
    have small := u.lePhysical_lt n m
    rw [retire]
    generalize u.lePhysical n m = p at *
    have lost := u.copiesLost_withdraws n p (6 * n + p)
    have units : ∀ k ∈ (u.copiesLost n p (6 * n + p)).leUnits n m, k < 4 := fun k => State.lt_of_mem_leUnits
    generalize (u.copiesLost n p (6 * n + p)).leUnits n m = l at *
    generalize u.copiesLost n p (6 * n + p) = v at *
    have bits := v.retiredBits_regsSet n m p
    have bitsTouch := v.retiredBits_touch n m p
    have retired := v.retiredBits_retired n m small
    generalize v.retiredBits n m p = w at *
    obtain ⟨withdrawn, shows⟩ := w.leWithdrawn_effect n m (6 * n + p) (6 * n + p) units safe free
    have sound2 := lost.sound sound1
    have sound3 := bitsTouch.sound sound2
    obtain ⟨shown, stopped⟩ := shows sound3
    obtain ⟨notInfo, notRetired⟩ := not_stopReg n m
    refine ⟨fun a ha => ?_, ?_, fun _ => ⟨?_, shown, stopped⟩⟩
    · have desc := ((lost.mem sound1).trans (.of_mem (bitsTouch.same_part .mem))).trans (withdrawn.mem sound3)
      rw [State.stateMem, desc.mword_eq (descWord_stateAddr n.isLt m.isLt ha)]
      exact words a
    · rw [(withdrawn.regs sound3).reg_eq notInfo, RegsIn.reg_eq bits (by simpa using apart.1.symm), (lost.regs sound1).reg_eq notInfo, info]
    · exact ((withdrawn.regs sound3).rb_eq notRetired p).trans retired

/-! ### The outcomes of stage commands -/

theorem State.lePhysical_congr {s t : State} (regs : t.regs = s.regs) (n m : Nat) : t.lePhysical n m = s.lePhysical n m := by
  simp only [State.lePhysical, State.leHosted, State.leSubst, State.rb, State.rf, State.reg, regs]
  rfl

theorem State.leRetired_congr {s t : State} (regs : t.regs = s.regs) (n p : Nat) : t.leRetired n p = s.leRetired n p := by
  simp only [State.leRetired, State.rb, State.reg, regs]

theorem RunsStage.next {k : Instr} {typ pass : Nat} {n : Fin 16} {m : Fin 6} {c : Fin 8} {res : Residue}
    (runs : RunsStage k typ n m c res pass) (s : State) : exec k s = .next
      (if (typ == 0xA0 && s.fcsPass n m c != pass) = true then s else s.stageCmd typ n m c res pass (stageRun typ n m c pass)) := by
  obtain ⟨n', m', c', hn, hm, hc, run⟩ := runs
  obtain rfl := Fin.ext hn
  obtain rfl := Fin.ext hm
  obtain rfl := Fin.ext hc
  exact run s

/-- A stage command of the next pass. -/
theorem RunsStage.next_of_turn {k : Instr} {typ pass : Nat} {n : Fin 16} {m : Fin 6} {c : Fin 8} {res : Residue}
    (runs : RunsStage k typ n m c res pass) {s : State} (turn : typ = 0xA0 → s.fcsPass n m c = pass) :
    exec k s = .next (s.stageCmd typ n m c res pass (stageRun typ n m c pass)) := by
  rw [runs.next s, if_neg]
  simp only [Bool.and_eq_true, beq_iff_eq, bne_iff_ne, not_and_or, not_not]
  exact Classical.or_iff_not_imp_left.mpr fun h => turn (not_not.mp h)

theorem RunsStage.idle {k : Instr} {typ pass : Nat} {n : Fin 16} {m : Fin 6} {c : Fin 8} {res : Residue}
    (runs : RunsStage k typ n m c res pass) {s : State}
    (h : s.leWorks n m = false ∨ s.leChoice n m ≠ some c.val ∨ typ = 0xA0 ∧ s.fcsPass n m c ≠ pass) : exec k s = .next s := by
  rw [runs.next s]
  refine congrArg Host.Outcome.next ?_
  split
  · rfl
  next turn =>
    have out : (!s.leWorks n m || s.leChoice n m != some c.val) = true := by
      obtain stands | other | ⟨fcs, pass⟩ := h
      · simp [stands]
      · simp [other]
      · exact absurd (by simp [fcs, pass]) turn
    rw [State.stageCmd, if_pos out]

/-- A transient after a stage: the count that stood before it goes up by one, and memory is as the stage leaves it. -/
theorem transient_effect {n : Fin 16} {m : Fin 6} {c : Fin 8} {typ pass i : Nat} {h : Hdr} {f : Form} {s : State}
    (d : s.Dispatches n m c typ i h f) (few : (recent s.clk.beat (s.le n m).window).length < 16) {t : State}
    (run : t = s.stageCmd typ n m c .transient pass (stageRun typ n m c pass)) :
    t.reg (R.LE_FAULT_INFO n m) = faultInfo typ i c pass false
      ∧ t.rb (R.LE_CTXc_STATUS n m c) 4 = true ∧ t.rb (R.LE_STATUS n m) 1 = true
      ∧ t.reg (R.LE_CTXc_FIXED n m c) = 0x80000010#32
      ∧ t.rf (R.LE_TRANSIENTS n m) 31 16 = min 0xFFFF (s.rf (R.LE_TRANSIENTS n m) 31 16 + 1)
      ∧ t.mem = (s.stageCmd typ n m c .clean pass (stageRun typ n m c pass)).mem := by
  rw [run, State.stageCmd_dispatched d, State.stageCmd_dispatched d]
  dsimp only
  have begun : TransientsKept n m s (s.ctxBegin n m c) := .ite (s.setCtx_transientsKept c _) (.refl s)
  have beat : (s.ctxBegin n m c).clk = s.clk := (State.ctxBegin_touch : Touch _ s (s.ctxBegin n m c)).same_part .clk
  have kept := begun.trans (stageRun_transientsKept typ n m c pass (s.ctxBegin n m c) i h)
  have clk : (stageRun typ n m c pass (s.ctxBegin n m c) i h).clk = s.clk :=
    ((stageRun_touch typ n m c pass (s.ctxBegin n m c) i h).same_part .clk).trans beat
  generalize stageRun typ n m c pass (s.ctxBegin n m c) i h = u at *
  have count : u.rf (R.LE_TRANSIENTS n m) 31 16 = s.rf (R.LE_TRANSIENTS n m) 31 16 := congrArg (fld · 31 16) (kept.regs d.sound)
  have effect := State.leTransient_few (u := u) (n := n) (m := m) (c := c) (by rw [clk, kept.window]; exact few) i typ pass
  rw [count] at effect
  exact effect

/-- Settles O42: out of turn a stage command changes nothing; a chain error ends the execution; a permanent fault withdraws the
engine before anything commits; a transient counts after the stage. -/
theorem stageOutcomes : Obligations.StageOutcomes := by
  unfold Obligations.StageOutcomes
  rintro k ⟨typ, n', m', c', res, pass⟩ s row
  have runs := runsStage row
  obtain ⟨n, m, c, rfl, rfl, rfl, -⟩ := id runs
  refine ⟨fun out => runs.idle out, fun sound works turn fault next => ?_, fun i h f d permanent next => ?_,
    fun i h f d transient next few => ?_⟩
  · have begun := (State.ctxBegin_touch : Touch _ s (s.ctxBegin n m c)).sound sound
    refine ⟨_, runs.next_of_turn next, ?_⟩
    rw [State.stageCmd_fault works turn fault]
    exact begun.chainFault
  · obtain rfl : res = .permanent := permanent
    have begun := (State.ctxBegin_touch : Touch _ s (s.ctxBegin n m c))
    have regs : (s.ctxBegin n m c).regs = s.regs := begun.same_part .regs
    have stands (a : Nat) : (s.ctxBegin n m c).stateMem n m a = s.stateMem n m a := State.mword_congr (begun.same_part .mem) _
    obtain ⟨words, info, retires⟩ := State.lePermanent_effect (begun.sound d.sound) n m c i typ pass
    rw [State.lePhysical_congr regs, State.leRetired_congr regs] at retires
    refine ⟨_, runs.next_of_turn next, ?_⟩
    rw [State.stageCmd_dispatched d]
    exact ⟨fun a ha => (words a ha).trans (stands a), info, fun works => ⟨(retires works).1, (retires works).2.1⟩,
      fun works => (retires works).2.2⟩
  · obtain rfl : res = .transient := transient
    obtain ⟨info, flag, engine, fixed, count, mem⟩ := transient_effect (pass := pass) d few rfl
    refine ⟨_, runs.next_of_turn next, info, flag, engine, fixed, count, fun j u clean run => mem.trans (congrArg State.mem ?_)⟩
    rw [(runsStage clean).next_of_turn next] at run
    exact Host.Outcome.next.inj run

end Sys2Proof.Machine
end

section
/-!
Accesses of a core to RAM (R28, R338).
-/
set_option Elab.async false
namespace Sys2Proof.Machine
open Sys2Proof

/-! ### Accesses of a core to RAM (R28, R338) -/

section
variable {s : State} {n : Fin 8} {a g : Nat}

theorem State.ramOf_iff : s.ramOf n a = some g ↔ s.place (.core n) a = some (.ram g) ∧ s.pathTo a = .good := by
  unfold State.ramOf
  split
  next x e =>
    rw [e]
    by_cases path : s.pathTo a = .good <;> simp [path]
  next no => simp [show s.place (.core n) a ≠ some (.ram g) from no g]

/-- An aligned read of a good word in RAM, with nothing stale in the data cache. -/
theorem State.coreRead_good {k : Nat} (ram : s.ramOf n a = some g) (size : k = 1 ∨ k = 2 ∨ k = 4) (aligned : a % k = 0)
    (good : s.eccMark g = .good) (fresh : (s.coreRec n).stale = []) : s.coreRead n a k = (.data (w32 (s.loadN g k)), s) := by
  obtain ⟨place, path⟩ := State.ramOf_iff.mp ram
  have bad : s.eccBad g = false := by simp [State.eccBad, good]
  have clean : ∀ i : Nat, ((s.coreRec n).stale.get (fun _ => none) (a + i)).isSome = false := by
    intro i
    rw [fresh]
    rfl
  have ok : sizeOk (.ram g) a k = true := by
    obtain rfl | rfl | rfl := size <;> simp [sizeOk, aligned]
  have master : (Fin.ofNat 8 n.val) = n := by simp
  simp only [State.coreRead, clean, master]
  rw [if_neg (by simp)]
  simp only [State.busRead, State.readAs, State.overPath, path, place, ok, if_true, State.readPlace, State.ramRead, bad,
    Bool.false_eq_true, if_false, State.eccRead_of_good good]

end

/-! ### What a store leaves -/

/-- The part of core `n` that an instruction goes by: its context, its pair and its access under way. -/
def State.coreNow (s : State) (n : Nat) : CoreCtx × Option PairRec := (s.core n, (s.coreRec n).pair)

theorem State.coreNow_setCoreRec {s : State} {n k : Nat} {r : CoreRec} (slots : r.slots = (s.coreRec k).slots)
    (pair : r.pair = (s.coreRec k).pair) : (s.setCoreRec k r).coreNow n = s.coreNow n := by
  by_cases same : n = k
  · subst same
    rw [State.coreNow, State.core_setCoreRec_slots _ _ slots, State.coreRec_setCoreRec, if_pos rfl, pair, State.coreNow]
  · have core : (s.setCoreRec k r).core n = s.core n := by
      simp [State.core, State.slotCtx, same]
    rw [State.coreNow, core, State.coreRec_setCoreRec, if_neg same, State.coreNow]

theorem State.cachesMiss_coreNow (s : State) (w : Option Nat) (l : List Nat) (n : Nat) : (s.cachesMiss w l).coreNow n = s.coreNow n := by
  have unstale (k : Nat) (t : State) (a : Nat) : (t.unstale k (fun x => x == a)).coreNow n = t.coreNow n :=
    State.coreNow_setCoreRec rfl rfl
  have mark (k : Nat) (t : State) (a : Nat) : (t.markStale k a).coreNow n = t.coreNow n := by
    have noted (u : State) (v : Store (Option Byte)) : (u.setCoreRec k { u.coreRec k with stale := v }).coreNow n = u.coreNow n :=
      State.coreNow_setCoreRec rfl rfl
    unfold State.markStale
    dsimp only
    split
    · exact noted t _
    · split
      · rfl
      · exact noted t.freeBit.2 _
  refine foldl_keeps (fun t => t.coreNow n) _ (fun t k => ?_) _ s
  split
  · rfl
  · split
    · exact foldl_keeps (fun t => t.coreNow n) _ (unstale k) _ t
    · exact foldl_keeps (fun t => t.coreNow n) _ (mark k) _ t

theorem State.cachesMiss_deferred (s : State) (w : Option Nat) (l : List Nat) (n : Nat) :
    ((s.cachesMiss w l).coreRec n).deferred = (s.coreRec n).deferred := by
  have stored (t : State) (k : Nat) (v : Store (Option Byte)) :
      ((t.setCoreRec k { t.coreRec k with stale := v }).coreRec n).deferred = (t.coreRec n).deferred := by
    rw [State.coreRec_setCoreRec]
    split
    next same => rw [same]
    next => rfl
  have mark (k : Nat) (t : State) (a : Nat) : ((t.markStale k a).coreRec n).deferred = (t.coreRec n).deferred := by
    unfold State.markStale
    dsimp only
    split
    · exact stored t k _
    · split
      · rfl
      · exact stored t.freeBit.2 k _
  refine foldl_keeps (fun t => (t.coreRec n).deferred) _ (fun t k => ?_) _ s
  split
  · rfl
  · split
    · exact foldl_keeps (fun t => (t.coreRec n).deferred) _ (fun u a => stored u k _) _ t
    · exact foldl_keeps (fun t => (t.coreRec n).deferred) _ (mark k) _ t

/-- A core's own store makes nothing stale in its own cache. -/
theorem State.cachesMiss_fresh {s : State} {n : Nat} (fresh : (s.coreRec n).stale = []) (l : List Nat) :
    ((s.cachesMiss (some n) l).coreRec n).stale = [] := by
  have other {k : Nat} (apart : n ≠ k) (t : State) (v : Store (Option Byte)) :
      ((t.setCoreRec k { t.coreRec k with stale := v }).coreRec n).stale = (t.coreRec n).stale := by
    rw [State.coreRec_setCoreRec, if_neg apart]
  have mark {k : Nat} (apart : n ≠ k) (t : State) (a : Nat) : ((t.markStale k a).coreRec n).stale = (t.coreRec n).stale := by
    unfold State.markStale
    dsimp only
    split
    · exact other apart t _
    · split
      · rfl
      · exact other apart t.freeBit.2 _
  have own : ∀ (l : List Nat) (t : State), (t.coreRec n).stale = [] →
      ((l.foldl (fun u a => u.unstale n (fun x => x == a)) t).coreRec n).stale = [] := by
    intro l
    induction l with
    | nil => exact fun _ h => h
    | cons a l ih =>
      intro t clean
      refine ih _ ?_
      have cleared : (t.unstale n (fun x => x == a)).coreRec n = { t.coreRec n with stale := (t.coreRec n).stale.clear (fun x => x == a) } :=
        (State.coreRec_setCoreRec _ _ _ _).trans (if_pos rfl)
      rw [cleared, clean]
      rfl
  have kept : ∀ (ks : List Nat) (t : State), (t.coreRec n).stale = [] →
      ((ks.foldl (fun t k => if t.coreRun k == 0 || t.upperLocked k then t
        else if some n == some k then l.foldl (fun u a => u.unstale k (fun x => x == a)) t
        else l.foldl (fun u a => u.markStale k a) t) t).coreRec n).stale = [] := by
    intro ks
    induction ks with
    | nil => exact fun _ h => h
    | cons k ks ih =>
      intro t clean
      refine ih _ ?_
      beta_reduce
      split
      · exact clean
      · split
        next same =>
          obtain rfl : n = k := by simpa using same
          exact own l t clean
        next apart => exact (foldl_keeps (fun t => (t.coreRec n).stale) _ (mark (by simpa using apart)) _ t).trans clean
  exact kept (List.range 8) s fresh

/-- A store of the low `k` bytes of `v` to the memory at `g` leaves those bytes alone, and core `n` as it was. -/
structure Holds (n g k : Nat) (v : Word) (s t : State) : Prop where
  core : t.coreNow n = s.coreNow n
  value : t.loadN g k = v.toNat % 2 ^ (8 * k)
  bytes : BytesBut g k s t
  rest : SameBut [.cores, .mem, .ecc, .freeCtr] s t
  marks : ∀ b, b / 4 * 4 ≠ g → t.eccMark b = s.eccMark b
  deferred : (t.coreRec n).deferred = (s.coreRec n).deferred
  fresh : s.leadCore n = n → (s.coreRec n).stale = [] → (t.coreRec n).stale = []

theorem State.coreNow_congr {s t : State} (cores : t.cores = s.cores) (regs : t.regs = s.regs) (n : Nat) : t.coreNow n = s.coreNow n := by
  have slot : t.runSlot n = s.runSlot n := by
    simp only [State.runSlot, State.rf, State.reg, regs]
  simp only [State.coreNow, State.core, State.slotCtx, State.coreRec, cores, slot]

/-- The low bytes of a word, stored and read again. -/
theorem State.loadN_storeBytes (s : State) (g : Nat) (v : Word) {k : Nat} (hk : k = 1 ∨ k = 2) :
    (s.storeBytes g ((bytesOfWord v).take k)).loadN g k = v.toNat % 2 ^ (8 * k) := by
  obtain rfl | rfl := hk
  · simp [State.loadN, State.byte_storeBytes, bytesOfWord, leNat, List.range_succ]
  · simp [State.loadN, State.byte_storeBytes, bytesOfWord, leNat, List.range_succ]
    omega

theorem State.loadN_setMword (s : State) (g : Nat) (v : Word) : (s.setMword g v).loadN g 4 = v.toNat % 2 ^ 32 := by
  simp [State.loadN, State.byte_setMword, bytesOfWord, leNat, List.range_succ]
  omega

theorem State.coreRec_congr {s t : State} (cores : t.cores = s.cores) (n : Nat) : t.coreRec n = s.coreRec n := by
  rw [State.coreRec, State.coreRec, cores]

theorem State.eccMark_setMword (s : State) {a b : Nat} (v : Word) (apart : b / 4 * 4 ≠ a) : (s.setMword a v).eccMark b = s.eccMark b := by
  have same : (s.storeBytes a (bytesOfWord v)).ecc = s.ecc := State.storeBytes_sameBut _ a s .ecc (by decide)
  have marks : (s.setMword a v).ecc = Store.set (fun _ => .good) a .good (s.storeBytes a (bytesOfWord v)).ecc := rfl
  rw [State.eccMark, marks, Store.get_set, if_neg apart, same, State.eccMark]

theorem State.ramWrite_good {s : State} (n : Nat) {g k : Nat} (v : Word) (size : k = 1 ∨ k = 2 ∨ k = 4) (good : k = 4 ∨ s.eccMark g = .good) :
    ∃ t, s.ramWrite g k v = (.done, t) ∧ Holds n g k v s t := by
  by_cases word : k = 4
  · subst word
    have same := s.setMword_sameBut g v
    exact ⟨_, rfl, State.coreNow_congr (same .cores (by decide)) (same .regs (by decide)) n, s.loadN_setMword g v, s.setMword_bytesBut g v,
      same.mono (by decide), fun _ apart => s.eccMark_setMword v apart, congrArg CoreRec.deferred (State.coreRec_congr (same .cores (by decide)) n),
      fun _ fresh => (congrArg CoreRec.stale (State.coreRec_congr (same .cores (by decide)) n)).trans fresh⟩
  · have marked := good.resolve_left word
    have small : k = 1 ∨ k = 2 := by omega
    have bad : s.eccBad g = false := by simp [State.eccBad, marked]
    have run : s.ramWrite g k v = (.done, s.storeBytes g ((bytesOfWord v).take k)) := by
      simp only [State.ramWrite, if_neg word, bad, Bool.false_eq_true, if_false, State.eccRead_of_good marked]
    have same := State.storeBytes_sameBut ((bytesOfWord v).take k) g s
    refine ⟨_, run, State.coreNow_congr (same .cores (by decide)) (same .regs (by decide)) n, s.loadN_storeBytes g v small, fun b hb => ?_,
      same.mono (by decide), fun b _ => eccMark_congr (same .ecc (by decide)) b,
      congrArg CoreRec.deferred (State.coreRec_congr (same .cores (by decide)) n),
      fun _ fresh => (congrArg CoreRec.stale (State.coreRec_congr (same .cores (by decide)) n)).trans fresh⟩
    rw [State.byte_storeBytes, if_neg]
    have length : ((bytesOfWord v).take k).length = k := by
      obtain rfl | rfl := small <;> rfl
    rw [length]
    omega

theorem Holds.after_miss {s : State} {n g k : Nat} {v : Word} {w : Option Nat} {l : List Nat} {t : State}
    (h : Holds n g k v (s.cachesMiss w l) t) (writer : s.leadCore n = n → w = some n) : Holds n g k v s t := by
  have same := s.cachesMiss_sameBut w l
  have reg (a : Nat) : (s.cachesMiss w l).reg a = s.reg a := State.reg_congr (same .regs (by decide)) a
  have locked : (s.cachesMiss w l).locked n = s.locked n := congrArg (bit · 30) (reg _)
  have lead : (s.cachesMiss w l).leadCore n = s.leadCore n := by rw [State.leadCore, State.leadCore, locked]
  refine ⟨h.core.trans (s.cachesMiss_coreNow w l n), h.value, (same.bytesBut (by decide) _ _).trans h.bytes, (same.mono (by decide)).trans h.rest,
    fun b apart => (h.marks b apart).trans (State.eccMark_congr (same .ecc (by decide)) b), h.deferred.trans (s.cachesMiss_deferred w l n),
    fun own fresh => h.fresh (lead.trans own) ?_⟩
  rw [writer own]
  exact State.cachesMiss_fresh fresh l

theorem State.busWrite_good {s : State} {n : Fin 8} {a g k : Nat} (v : Word) (ram : s.ramOf n a = some g)
    (size : k = 1 ∨ k = 2 ∨ k = 4) (aligned : a % k = 0) (good : k = 4 ∨ s.eccMark g = .good) :
    ∃ t, s.busWrite (.core (Fin.ofNat 8 n)) a k v = (.done, t) ∧ Holds n g k v s t := by
  obtain ⟨place, path⟩ := State.ramOf_iff.mp ram
  have ok : sizeOk (.ram g) a k = true := by
    obtain rfl | rfl | rfl := size <;> simp [sizeOk, aligned]
  have master : (Fin.ofNat 8 n.val) = n := by simp
  have written : ∃ t, s.sramWrite (.core n) g k v = (.done, t) ∧ Holds n g k v s t := by
    unfold State.sramWrite
    split
    · have mark : (s.cachesMiss (s.writer (.core n)) ((List.range k).map (fun i => g + i))).eccMark g = s.eccMark g :=
        eccMark_congr ((s.cachesMiss_sameBut _ _) .ecc (by decide)) g
      obtain ⟨t, run, holds⟩ := State.ramWrite_good (s := s.cachesMiss (s.writer (.core n)) ((List.range k).map (fun i => g + i))) n v size
        (good.imp id mark.trans)
      exact ⟨t, run, holds.after_miss fun own => congrArg some own⟩
    · exact State.ramWrite_good n v size good
  obtain ⟨t, run, holds⟩ := written
  refine ⟨t, ?_, holds⟩
  rw [master, State.busWrite_of_place path place ok]
  exact run

theorem State.masterWrite_good {s : State} {n : Fin 8} {a g k : Nat} (v : Word) (ram : s.ramOf n a = some g)
    (size : k = 1 ∨ k = 2 ∨ k = 4) (aligned : a % k = 0) (good : k = 4 ∨ s.eccMark g = .good) :
    ∃ t, s.masterWrite (.core (Fin.ofNat 8 n)) a k v = (.done, t) ∧ Holds n g k v s t := by
  obtain ⟨t, run, holds⟩ := State.busWrite_good v ram size aligned good
  refine ⟨t, ?_, holds⟩
  have own : ownCheck (.core (Fin.ofNat 8 n)) a k = true := by simp [ownCheck, aligned]
  unfold State.masterWrite
  rw [run, own]
  rfl

end Sys2Proof.Machine
end

section
/-!
Loads and stores of a core (R283 to R287).
-/
set_option Elab.async false
namespace Sys2Proof.Machine
open Sys2Proof

/-! ### Instructions with an access -/

/-- In COMPAT nothing that is over waits: the results of a context without a long operation land at once. -/
theorem State.settle_effect {v : State} {n : Nat} (alone : (v.coreRec n).pair = none) (div : (v.core n).div = none)
    (fpu : (v.core n).fpu = none) (blk : (v.core n).blk = none) :
    (v.settlePair n).core n = (if (v.core n).compat then (v.core n).landAll else v.core n) ∧ SameBut [.cores] v (v.settlePair n) := by
  have longs : v.longAll n = (none, v) := by
    rw [State.longAll, State.unitDone_div_idle alone div, State.unitDone_fpu_idle alone (by decide) fpu, State.blockDone_idle alone blk]
  cases compat : (v.core n).compat
  · simp [State.settlePair, compat, SameBut.refl]
  · have run : v.settlePair n = v.setCore n (v.core n).landAll := by
      simp only [State.settlePair, compat, longs, Bool.not_true, Bool.false_eq_true, if_false]
    rw [run, State.core_setCore]
    exact ⟨rfl, v.setCore_sameBut n _⟩

theorem State.performOpt_none (s : State) (n : Nat) : s.performOpt n none = (none, s) := rfl

/-- A context whose instruction has updated its base register and passed. -/
def CoreCtx.addressed (c : CoreCtx) (ra : Nat) (u : Option Word) : CoreCtx := { c.updated ra u with pc := c.pc + 4#32 }

theorem CoreCtx.addressed_alike (c : CoreCtx) (ra : Nat) (u : Option Word) : c.Alike (c.addressed ra u) := by
  refine CoreCtx.Alike.trans (d := c.updated ra u) ?_ (CoreCtx.withPc_alike _ _)
  cases u with
  | none => exact .refl c
  | some v => exact c.send_alike _ _ _

section
variable {s : State} {n : Nat} (h : s.Issues n)
include h

/-- An instruction with an access that nothing freezes and that breaks no limit commits it. -/
theorem State.Issues.issue_acc {o : CoreOp} {run : CoreCtx → Except CoreFault CoreOut} {out : CoreOut} (plain : s.Plain n o)
    (runs : run (s.now n) = .ok out) (within : out.breaks (s.now n) = none)
    (thawed : (s.setCore n (out.applyTo (s.now n))).accessFrozen n out.acc = false) :
    s.issue n (fun _ => o) run = s.commitIssue n o false (out.applyTo (s.now n)) out.acc := by
  have preview : s.preview n false = s.now n := rfl
  simp only [State.issue, h.ready, Bool.not_true, Bool.false_eq_true, if_false, h.joins_eq, h.approach_go plain, preview, runs, thawed]
  rw [show List.find? _ _ = none from within]

/-- An instruction that waits for no partner performs its access at once. -/
theorem State.Issues.commit_acc {o : CoreOp} {x : CoreCtx} {acc : Option CoreAccess} {v : State}
    (alone : (o.p && x.native && !o.ctl && !o.sys) = false) (performs : (s.setCore n x).performOpt n acc = (none, v))
    (pair : (v.coreRec n).pair = none) : s.commitIssue n o false x acc = v.settlePair n := by
  have mine : ((s.setCore n x).coreRec n).pair = none := by rw [State.pair_setCore, h.alone]
  have first : (!false && o.p && x.native && !o.ctl && !o.sys) = false := by simpa using alone
  unfold State.commitIssue
  simp only [first, Bool.false_eq_true, if_false, State.heldAccess_of_alone mine, State.performOpt_none, performs,
    State.clearPair_of_alone pair]

section
variable {o : CoreOp} {ra am size : Nat} {f : BitVec 11} {acc : CoreCtx → Word → CoreAccess} {a : Word} {u : Option Word}
  (plain : s.Plain n o) (addr : (a, u) = (s.now n).address ra am size f) (aligned : a.toNat % mSize size = 0)
  (limit : u.isSome = true → s.KeepsLimit n (.g ra) (u.getD 0))
  (thawed : (s.setCore n ((s.now n).addressed ra u)).accessFrozen n (some (acc (s.now n) a)) = false)
include plain addr aligned limit thawed

/-- A load or store at an aligned address, whose base update breaks no limit, commits its access. -/
theorem State.Issues.mem_commits : s.issue n (fun _ => o) (memRun ra am size f acc)
    = s.commitIssue n o false ((s.now n).addressed ra u) (some (acc (s.now n) a)) := by
  have runs : memRun ra am size f acc (s.now n) = .ok { (s.now n).out with
      results := u.toList.map (fun v => ⟨.g ra, v, 1⟩), acc := some (acc (s.now n) a) } := by
    rw [memRun, ← addr]
    simp only [aligned, ne_eq, not_true_eq_false, if_false]
  have applied : CoreOut.applyTo { (s.now n).out with results := u.toList.map (fun v => ⟨.g ra, v, 1⟩), acc := some (acc (s.now n) a) }
      (s.now n) = (s.now n).addressed ra u := by
    cases u <;> rfl
  have within : CoreOut.breaks { (s.now n).out with results := u.toList.map (fun v => ⟨.g ra, v, 1⟩), acc := some (acc (s.now n) a) }
      (s.now n) = none := by
    cases u with
    | none => rfl
    | some v =>
      refine List.find?_eq_none.mpr fun x hx => ?_
      obtain rfl : x = (.g ra, v) := by simpa [CoreCtx.out] using hx
      by_cases g30 : CReg.g ra = .g 30
      · have kept : (s.now n).violates v = false := limit rfl g30
        simp [kept]
      · simp [g30]
  rw [h.issue_acc plain runs within (by rw [applied]; exact thawed), applied]

end

/-- No long operation is under way in `d`, which follows from `c` in the same mode. -/
structure CoreCtx.Idles (c d : CoreCtx) : Prop where
  div : d.div = none
  fpu : d.fpu = none
  blk : d.blk = none
  compat : d.compat = c.compat

theorem State.Issues.idles {y : CoreCtx} (alike : (s.now n).Alike y) : (s.now n).Idles y :=
  ⟨alike.div.trans h.now_div, alike.fpu.trans h.now_fpu, alike.blk.trans h.now_blk, alike.compat⟩

/-- What an access leaves of the machine and of the core, where nothing else is under way: results land in COMPAT. -/
theorem State.Issues.mem_issued {o : CoreOp} {x y : CoreCtx} {acc : CoreAccess} {v : State}
    (alone : (o.p && x.native && !o.ctl && !o.sys) = false) (performs : (s.setCore n x).perform n acc = (none, v))
    (core : v.coreNow n = (y, none)) (idles : (s.now n).Idles y) :
    (s.commitIssue n o false x (some acc)).core n = (if (s.now n).compat then y.landAll else y)
      ∧ SameBut [.cores] v (s.commitIssue n o false x (some acc)) := by
  obtain ⟨ctx, pair⟩ := Prod.mk.inj core
  obtain ⟨settled, kept⟩ := State.settle_effect pair (by rw [ctx, idles.div]) (by rw [ctx, idles.fpu]) (by rw [ctx, idles.blk])
  have run := h.commit_acc (acc := some acc) alone performs pair
  rw [run]
  refine ⟨?_, kept⟩
  rw [settled, ctx, idles.compat]

end

/-! ### Loads and stores (R283 to R287) -/

theorem CoreCtx.Alike.native {c d : CoreCtx} (h : c.Alike d) : d.native = c.native := by
  rw [CoreCtx.native, CoreCtx.native, CoreCtx.det, CoreCtx.det, CoreCtx.compat, CoreCtx.compat, h.cr 1 (by decide)]

theorem CoreCtx.Alike.violates {c d : CoreCtx} (h : c.Alike d) (v : Word) : d.violates v = c.violates v := by
  rw [CoreCtx.violates, CoreCtx.violates, CoreCtx.dspLimit, CoreCtx.dspLimit, h.cr 6 (by decide)]

theorem State.ramOf_setCore (s : State) (k : Nat) (x : CoreCtx) (m : Fin 8) (a : Nat) : (s.setCore k x).ramOf m a = s.ramOf m a := rfl

theorem State.coreNow_setCore (s : State) (n : Nat) (x : CoreCtx) : (s.setCore n x).coreNow n = (x, (s.coreRec n).pair) := by
  rw [State.coreNow, State.core_setCore, State.pair_setCore]

theorem CoreCtx.send_withPc (c : CoreCtx) (d : CReg) (v pc : Word) (k : Nat) :
    CoreCtx.send { c with pc := pc } d v k = { c.send d v k with pc := pc } := by
  unfold CoreCtx.send
  split <;> rfl

section
variable {s : State} {n : Fin 8} {ra am size : Nat} {sign : Bool} {f : BitVec 11} {a : Word} {u : Option Word} {ad : Nat}

theorem mSize_cases (legal : size ≠ 3) (small : size < 4) : mSize size = 1 ∨ mSize size = 2 ∨ mSize size = 4 := by
  unfold mSize
  interval_cases size <;> simp at legal ⊢

/-- A load of a good word performs at once. -/
theorem State.loads {x : CoreCtx} {k : Nat} {d : CReg} {w : Word} (ram : s.ramOf n a.toNat = some ad)
    (size : k = 1 ∨ k = 2 ∨ k = 4) (aligned : a.toNat % k = 0) (good : s.eccMark ad = .good) (fresh : (s.coreRec n).stale = [])
    (value : w = loadValue k sign (w32 (s.loadN ad k))) (limit : d = .g 30 → x.violates w = false) :
    (s.setCore n x).perform n (.load d a k sign)
      = (none, (s.setCore n x).setCore n (x.send d w (if d = .g 30 then 1 else 3))) := by
  have read : (s.setCore n x).coreRead n a.toNat k = (.data (w32 (s.loadN ad k)), s.setCore n x) :=
    State.coreRead_good (s := s.setCore n x) ram size aligned good (by rw [State.stale_setCore, fresh])
  have run : (s.setCore n x).perform n (.load d a k sign) = (s.setCore n x).loadTo n d a k sign := rfl
  rw [run, State.loadTo]
  simp only [read, ← value, State.core_setCore]
  by_cases g30 : d = .g 30
  · simp only [g30, if_true, limit g30, Bool.false_eq_true, if_false]
  · simp only [g30, if_false]

end

theorem State.loadN_congr {s t : State} (mem : t.mem = s.mem) (g k : Nat) : t.loadN g k = s.loadN g k := by
  simp only [State.loadN, State.byte, mem]

/-- A store commits its bytes, and the context as it stands with it. -/
theorem State.Issues.stores {s : State} {n : Fin 8} (h : s.Issues n) {o : CoreOp} {x : CoreCtx} {a v : Word} {k g : Nat}
    (alone : (o.p && x.native && !o.ctl && !o.sys) = false) (ram : s.ramOf n a.toNat = some g) (size : k = 1 ∨ k = 2 ∨ k = 4)
    (aligned : a.toNat % k = 0) (good : k = 4 ∨ s.eccMark g = .good) (idles : (s.now n).Idles x) :
    s.Stored n x g k v (s.commitIssue n o false x (some (.store a k v))) := by
  obtain ⟨t, run, core, value, bytes, rest, -⟩ := State.masterWrite_good (s := s.setCore n x) v ram size aligned good
  have performs : (s.setCore n x).perform n (.store a k v) = (none, t) := congrArg (fun q => (none, q.2)) run
  obtain ⟨ctx, kept⟩ := h.mem_issued alone performs (by rw [core, State.coreNow_setCore, h.alone]) idles
  have moved := s.setCore_sameBut n x
  refine ⟨ctx, ?_, ((moved.bytesBut (by decide) _ _).trans bytes).trans (kept.bytesBut (by decide) _ _),
    ((moved.mono (by decide)).trans rest).trans (kept.mono (by decide))⟩
  rw [State.loadN_congr (kept .mem (by decide)), value]

theorem memOp_plain {s : State} {n rd ra am size : Nat} {word : Word} {p load fp sign : Bool}
    (legal : memIllegal load fp rd ra am size sign = false) (filled : fp = true → s.FpFilled n) :
    s.Plain n (memOp word p load fp rd ra am size sign) := by
  refine ⟨legal, nofun, fun names => filled ?_⟩
  cases fp with
  | true => rfl
  | false =>
    cases load
    · by_cases still : am = 0 <;> simp [memOp, pipeOp, still] at names
    · by_cases still : am = 0 <;> simp [memOp, pipeOp, still] at names

theorem size_ne_three {load fp : Bool} {rd ra am size : Nat} {sign : Bool} (legal : memIllegal load fp rd ra am size sign = false) :
    size ≠ 3 := by
  rintro rfl
  simp [memIllegal] at legal

/-- RAM is not flash: no access to it waits for an operation of a bank. -/
theorem State.not_frozen_of_ram {s : State} {n : Fin 8} {a ad : Nat} (ram : s.ramOf n a = some ad) : s.frozenRead n a = false := by
  obtain ⟨place, -⟩ := State.ramOf_iff.mp ram
  have notFlash : ¬ (0x10000000 ≤ a ∧ a < 0x12000000) := by
    rintro ⟨low, high⟩
    unfold State.place at place
    split at place
    · simp at place
    · split at place
      · omega
      · simp at place
  have holds : s.flashHolds a = false := by
    simp only [State.flashHolds, Bool.and_eq_false_iff, decide_eq_false_iff_not]
    omega
  rw [State.frozenRead, holds, Bool.false_and]

section
variable {s : State} {n : Fin 8} (h : s.Issues n) {p fp sign : Bool} {rd ra : Nat} {am size : Nat} {f : BitVec 11} {a : Word}
  {u : Option Word} {ad : Nat} {word : Word} (filled : fp = true → s.FpFilled n) (single : p = false ∨ (s.now n).native = false)
  (addr : (a, u) = (s.now n).address ra am size f) (aligned : a.toNat % mSize size = 0)
  (ram : s.ramOf n a.toNat = some ad) (small : size < 4) (limit : u.isSome = true → s.KeepsLimit n (.g ra) (u.getD 0))
include h filled single addr aligned ram small limit

/-- A load that issues puts what it reads in flight beside the updated base. -/
theorem State.Issues.load_issued (legal : memIllegal true fp rd ra am size sign = false) (good : s.eccMark ad = .good)
    (fresh : (s.coreRec n).stale = []) {d : CReg} {w : Word} (value : w = loadValue (mSize size) sign (w32 (s.loadN ad (mSize size))))
    (within : s.KeepsLimit n d w) :
    s.IssuedAs n { ((s.now n).updated ra u).send d w (if d = .g 30 then 1 else 3) with pc := (s.now n).pc + 4#32 }
      (s.issue n (fun _ => memOp word p true fp rd ra am size sign) (memRun ra am size f (fun _ a => .load d a (mSize size) sign))) := by
  have alike := (s.now n).addressed_alike ra u
  have plain := memOp_plain (s := s) (n := n) (word := word) (p := p) legal filled
  have performs := State.loads (x := (s.now n).addressed ra u) ram (mSize_cases (size_ne_three legal) small) aligned good fresh value
    (fun g30 => (alike.violates w).trans (within g30))
  have thawed : (s.setCore n ((s.now n).addressed ra u)).accessFrozen n (some (.load d a (mSize size) sign)) = false :=
    State.not_frozen_of_ram (s := s.setCore n ((s.now n).addressed ra u)) ram
  rw [h.mem_commits plain addr aligned limit thawed]
  have result : ((s.now n).addressed ra u).send d w (if d = .g 30 then 1 else 3)
      = { ((s.now n).updated ra u).send d w (if d = .g 30 then 1 else 3) with pc := (s.now n).pc + 4#32 } :=
    CoreCtx.send_withPc _ _ _ _ _
  rw [result] at performs
  have alone : (p && ((s.now n).addressed ra u).native && !false && !false) = false := by
    obtain one | other := single
    · simp [one]
    · simp [alike.native, other]
  have all : (s.now n).Alike { ((s.now n).updated ra u).send d w (if d = .g 30 then 1 else 3) with pc := (s.now n).pc + 4#32 } :=
    result ▸ alike.trans (CoreCtx.send_alike _ _ _ _)
  obtain ⟨core, rest⟩ := h.mem_issued (o := memOp word p true fp rd ra am size sign) alone performs
    (by rw [State.coreNow_setCore, State.pair_setCore, h.alone]) (h.idles all)
  exact ⟨core, ((s.setCore_sameBut n _).trans (State.setCore_sameBut _ n _)).trans rest⟩

/-- A store that issues writes its bytes. -/
theorem State.Issues.store_issued (legal : memIllegal false fp rd ra am size sign = false) (good : size = 2 ∨ s.eccMark ad = .good)
    (v : CoreCtx → Word) :
    s.Stored n { (s.now n).updated ra u with pc := (s.now n).pc + 4#32 } ad (mSize size) (v (s.now n))
      (s.issue n (fun _ => memOp word p false fp rd ra am size sign)
        (memRun ra am size f (fun c a => .store a (mSize size) (v c)))) := by
  have alike := (s.now n).addressed_alike ra u
  have plain := memOp_plain (s := s) (n := n) (word := word) (p := p) legal filled
  have thawed : (s.setCore n ((s.now n).addressed ra u)).accessFrozen n (some (.store a (mSize size) (v (s.now n)))) = false := rfl
  rw [h.mem_commits (acc := fun c a => .store a (mSize size) (v c)) plain addr aligned limit thawed]
  have alone : (p && ((s.now n).addressed ra u).native && !false && !false) = false := by
    obtain one | other := single
    · simp [one]
    · simp [alike.native, other]
  exact h.stores (o := memOp word p false fp rd ra am size sign) alone ram (mSize_cases (size_ne_three legal) small) aligned
    (good.imp (fun two => by rw [two]; rfl) id) (h.idles alike)

end

end Sys2Proof.Machine
end

section
/-!
Loads that wait, block transfers that start, branches and calls (R291, R293, R302, R283).
-/
set_option Elab.async false
namespace Sys2Proof.Machine
open Sys2Proof

/-! ### A load that waits for its partner (R291) -/

theorem State.coreNow_eq {s : State} {n : Nat} {c : CoreCtx} {q : Option PairRec} (h : s.coreNow n = (c, q)) :
    s.core n = c ∧ (s.coreRec n).pair = q := Prod.mk.inj h

section
variable {s : State} {n : Fin 8}

/-- An instruction with P in NATIVE holds its access until its partner has issued. -/
theorem State.commitIssue_held {o : CoreOp} {x : CoreCtx} {acc : CoreAccess} (first : (o.p && x.native && !o.ctl && !o.sys) = true) :
    (s.commitIssue n o false x (some acc)).core n = x
      ∧ ((s.commitIssue n o false x (some acc)).coreRec n).pair.map (fun q => q.held) = some (some acc)
      ∧ SameBut [.cores] s (s.commitIssue n o false x (some acc)) := by
  have waits : (!false && o.p && x.native && !o.ctl && !o.sys) = true := by simpa using first
  unfold State.commitIssue
  rw [if_pos waits]
  refine ⟨?_, ?_, (s.setCore_sameBut n x).trans (State.setCoreRec_sameBut _ _ _)⟩
  · exact (State.core_setCoreRec_slots _ _ (by rfl)).trans (State.core_setCore s n x)
  · rw [State.coreRec_setCoreRec, if_pos rfl]
    rfl

theorem State.Issues.load_held (h : s.Issues n) {rd ra am size : Nat} {sign : Bool} {f : BitVec 11} {a : Word} {u : Option Word} {word : Word}
    (native : (s.now n).native = true) (legal : memIllegal true false rd ra am size sign = false)
    (addr : (a, u) = (s.now n).address ra am size f) (aligned : a.toNat % mSize size = 0)
    (limit : u.isSome = true → s.KeepsLimit n (.g ra) (u.getD 0)) (thawed : s.frozenRead n a.toNat = false) :
    ∀ t, t = s.issue n (fun _ => memOp word true true false rd ra am size sign)
        (memRun ra am size f (fun _ a => .load (.g rd) a (mSize size) sign)) →
      t.core n = { (s.now n).updated ra u with pc := (s.now n).pc + 4#32 }
      ∧ (t.coreRec n).pair.map (fun q => q.held) = some (some (.load (.g rd) a (mSize size) sign)) ∧ SameBut [.cores] s t := by
  rintro t rfl
  have alike := (s.now n).addressed_alike ra u
  have frozen : (s.setCore n ((s.now n).addressed ra u)).accessFrozen n (some (.load (.g rd) a (mSize size) sign)) = false := by
    have cached : (s.setCore n ((s.now n).addressed ra u)).dcOn n a.toNat = s.dcOn n a.toNat := by
      have all := (s.core n).nextCycle_alike.trans alike
      simp only [State.dcOn, State.core_setCore, CoreCtx.det, all.cr 1 (by decide), all.cr 3 (by decide)]
    have held : (s.setCore n ((s.now n).addressed ra u)).flashHolds a.toNat = s.flashHolds a.toNat := rfl
    simpa only [State.accessFrozen, State.frozenRead, cached, held] using thawed
  rw [h.mem_commits (memOp_plain legal nofun) addr aligned limit frozen]
  refine State.commitIssue_held ?_
  rw [alike.native, native]
  rfl

end

/-! ### Block transfers start (R293) -/

section
variable {s : State} {n : Nat} (h : s.Issues n)
include h

/-- What an instruction is may depend on the context that it meets. -/
theorem State.Issues.issue_known {op : CoreCtx → CoreOp} (plain : s.Plain n (op (s.now n)))
    (run : CoreCtx → Except CoreFault CoreOut) : s.issue n op run = s.issue n (fun _ => op (s.now n)) run := by
  have flush : s.flushPair n = (none, s) := by
    simp only [State.flushPair, State.heldAccess_of_alone h.alone, State.performOpt, State.clearPair_of_alone h.alone]
  have preview : s.preview n false = s.now n := rfl
  have met : s.approach n op false = .go s := by
    rw [← h.approach_go plain, h.approach_eq]
    simp only [State.approach, h.thawed, State.heldAccess_of_alone h.alone, State.accessFrozen, Bool.or_self, if_false,
      Bool.false_eq_true, flush, h.fetch, h.interlock_go, preview]
  simp only [State.issue, h.ready, Bool.not_true, Bool.false_eq_true, if_false, h.joins_eq, met, h.approach_go plain, preview]

/-- A block transfer that issues outside COMPAT starts the block engine. -/
theorem State.Issues.block_starts {word : Word} {p load dir wb fp : Bool} {ra rm : Nat} (filled : fp = true → s.FpFilled n)
    (native : (s.now n).compat = false)
    (legal : fp = true ∨ bit ((s.now n).gr rm) 0 = false ∧ (wb = true → bit ((s.now n).gr rm) ra = false))
    (aligned : blockRegs ((s.now n).gr rm) dir fp = [] ∨ (blockAddr ((s.now n).gr ra) dir 0).toNat % 4 = 0)
    (limit : wb = true → s.KeepsLimit n (.g ra) (blockEnd ((s.now n).gr ra) ((s.now n).gr rm) dir))
    (quiet : (load && !fp && bit ((s.now n).gr rm) 30) = false) :
    ∀ t, t = s.issue n (fun c => blockOpOf word p load ra rm dir wb fp (c.gr rm)) (blockStart word load ra rm dir wb fp) →
      t.core n = { s.now n with
        pc := (s.now n).pc + 4#32
        blk := some ⟨word, (s.now n).gr ra, (s.now n).gr rm, 0,
          if load then [] else (s.now n).blockData (blockRegs ((s.now n).gr rm) dir fp)⟩ } ∧ SameBut [.cores] s t := by
  rintro t rfl
  have plain : s.Plain n (blockOpOf word p load ra rm dir wb fp ((s.now n).gr rm)) := by
    refine ⟨?_, nofun, filled⟩
    obtain rfl | ⟨g0, base⟩ := legal
    · rfl
    · cases wb <;> simp_all [blockOpOf]
  have runs : blockStart word load ra rm dir wb fp (s.now n) = .ok { (s.now n).out with
      blk := some ⟨word, (s.now n).gr ra, (s.now n).gr rm, 0,
        if load then [] else (s.now n).blockData (blockRegs ((s.now n).gr rm) dir fp)⟩ } := by
    have within : ¬ (wb = true ∧ ra = 30 ∧ (s.now n).violates (blockEnd ((s.now n).gr ra) ((s.now n).gr rm) dir) = true) := by
      rintro ⟨back, rfl, breaks⟩
      rw [limit back rfl] at breaks
      exact absurd breaks (by decide)
    unfold blockStart
    dsimp only
    rw [if_neg (by rintro ⟨some, off⟩; exact aligned.elim some off), if_neg within, quiet]
    rfl
  rw [h.issue_known plain, h.issue_eq plain runs rfl rfl]
  obtain ⟨core, rest⟩ := h.commit_eq (blockOpOf word p load ra rm dir wb fp ((s.now n).gr rm)) (CoreOut.applyTo { (s.now n).out with
      blk := some ⟨word, (s.now n).gr ra, (s.now n).gr rm, 0,
        if load then [] else (s.now n).blockData (blockRegs ((s.now n).gr rm) dir fp)⟩ } (s.now n))
  have compat : (CoreOut.applyTo { (s.now n).out with
      blk := some ⟨word, (s.now n).gr ra, (s.now n).gr rm, 0,
        if load then [] else (s.now n).blockData (blockRegs ((s.now n).gr rm) dir fp)⟩ } (s.now n)).compat = false := native
  refine ⟨?_, rest fun other => absurd other (by rw [compat]; decide)⟩
  rw [core, compat]
  rfl

/-! ### Branches and calls (R302, R283) -/

/-- A branch continues at its next PC. -/
theorem State.Issues.branch {word : Word} {p access : Bool} {reads : List CReg} {run : CoreCtx → Except CoreFault CoreOut} {pc : Word}
    (plain : s.Plain n (ctlOp word p reads access)) (runs : run (s.now n) = .ok { (s.now n).out with pc := pc }) :
    s.IssuedAs n { s.now n with pc := pc } (s.issue n (fun _ => ctlOp word p reads access) run) := by
  rw [h.issue_eq plain runs rfl rfl]
  exact h.issuedAs (CoreCtx.withPc_alike _ _) _

end

theorem CoreCtx.jump_aligned (c : CoreCtx) {a : Word} (aligned : a.toNat % 4 = 0) : c.jump a = .ok { c.out with pc := a } := by
  rw [CoreCtx.jump, if_neg (by simpa using aligned)]

/-- A call pushes its return address and continues at its target. -/
theorem State.Issues.calls {s : State} {n : Fin 8} (h : s.Issues n) {word : Word} {p : Bool} {reads : List CReg} {a : Word} {ad : Nat}
    {run : CoreCtx → Except CoreFault CoreOut} (plain : s.Plain n (ctlOp word p reads true)) (runs : run (s.now n) = (s.now n).callTo a)
    (target : a.toNat % 4 = 0)
    (limit : (s.now n).crv 5 = 0#32 ∨ ((s.now n).crv 5).toNat ≤ ((s.now n).crv 4 - 4#32).toNat)
    (aligned : ((s.now n).crv 4 - 4#32).toNat % 4 = 0) (ram : s.ramOf n ((s.now n).crv 4 - 4#32).toNat = some ad) :
    s.Stored n { (s.now n).setCr 4 ((s.now n).crv 4 - 4#32) with pc := a } ad 4 ((s.now n).pc + 4#32)
      (s.issue n (fun _ => ctlOp word p reads true) run) := by
  have out : run (s.now n) = .ok { (s.now n).out with
      pc := a, rsp := some ((s.now n).crv 4 - 4#32), acc := some (.store ((s.now n).crv 4 - 4#32) 4 ((s.now n).pc + 4#32)) } := by
    have within : ¬ ((s.now n).crv 5 ≠ 0#32 ∧ ((s.now n).crv 4 - 4#32).toNat < ((s.now n).crv 5).toNat) := by
      rintro ⟨limited, below⟩
      exact absurd (limit.resolve_left limited) (by omega)
    rw [runs, CoreCtx.callTo]
    dsimp only
    rw [if_neg within, if_neg (by simpa using aligned), if_neg (by simpa using target)]
  have thawed (c : CoreCtx) : (s.setCore n c).accessFrozen n (some (.store ((s.now n).crv 4 - 4#32) 4 ((s.now n).pc + 4#32))) = false := rfl
  have idles : (s.now n).Idles { (s.now n).setCr 4 ((s.now n).crv 4 - 4#32) with pc := a } :=
    ⟨h.now_div, h.now_fpu, h.now_blk, by
      simp [CoreCtx.compat, CoreCtx.setCr, CoreCtx.crv, Store.get_set]⟩
  rw [h.issue_acc plain out rfl (thawed _)]
  exact h.stores (o := ctlOp word p reads true) (by simp [ctlOp]) ram (by decide) aligned (.inl rfl) idles

end Sys2Proof.Machine
end

section
/-!
Returns (R283).
-/
set_option Elab.async false
namespace Sys2Proof.Machine
open Sys2Proof

/-! ### Returns (R283, R323) -/

section
variable {s : State} {n : Fin 8} {a : Nat}

theorem State.goodWord_iff : s.goodWord n a = true ↔ a % 4 = 0 ∧ ∃ g, s.ramOf n a = some g ∧ s.eccMark g = .good := by
  simp only [State.goodWord, Bool.and_eq_true, beq_iff_eq, Option.any_eq_true_iff_get]
  cases s.ramOf n a <;> simp

/-- A core reads a good word as it stands. -/
theorem State.coreRead_word (good : s.goodWord n a = true) (fresh : (s.coreRec n).stale = []) :
    s.coreRead n a 4 = (.data (s.wordAt n a), s) := by
  obtain ⟨aligned, g, ram, mark⟩ := State.goodWord_iff.mp good
  rw [State.coreRead_good ram (.inr (.inr rfl)) aligned mark fresh, State.wordAt, ram]
  rfl

theorem State.frozenRead_of_goodWord (good : s.goodWord n a = true) : s.frozenRead n a = false := by
  obtain ⟨-, g, ram, -⟩ := State.goodWord_iff.mp good
  exact State.not_frozen_of_ram ram

end

/-- What an access leaves that changes the context of its own core alone. -/
theorem State.Issues.access_steps {s : State} {n : Nat} (h : s.Issues n) {o : CoreOp} {x y : CoreCtx} {acc : CoreAccess}
    (alone : (o.p && x.native && !o.ctl && !o.sys) = false)
    (performs : (s.setCore n x).perform n acc = (none, (s.setCore n x).setCore n y)) (div : y.div = none) (fpu : y.fpu = none)
    (blk : y.blk = none) : State.Steps n y s (s.commitIssue n o false x (some acc)) := by
  have pair : (((s.setCore n x).setCore n y).coreRec n).pair = none := by rw [State.pair_setCore, State.pair_setCore, h.alone]
  have moved : SameBut [.cores] s ((s.setCore n x).setCore n y) := (State.setCore_sameBut _ _ _).trans (State.setCore_sameBut _ _ _)
  have others {i : Nat} (hi : i ≠ s.runSlot n) : ((s.setCore n x).setCore n y).slotCtx n i = s.slotCtx n i :=
    (State.slotCtx_setCore_ne (s.setCore n x) n _ hi).trans (State.slotCtx_setCore_ne _ _ _ hi)
  rw [h.commit_acc (acc := some acc) alone performs pair, State.settlePair_eq pair (State.core_setCore _ _ _) div fpu blk]
  split
  next compat =>
    refine ⟨by rw [State.core_setCore, if_pos compat], by simp, by simp, by simp, by simp [State.pair_setCore], fun i hi => ?_,
      moved.trans (State.setCore_sameBut _ _ _)⟩
    exact (State.slotCtx_setCore_ne ((s.setCore n x).setCore n y) n _ hi).trans (others hi)
  next compat =>
    exact ⟨by rw [State.core_setCore, if_neg compat], by simp, by simp, by simp, by simp [State.pair_setCore], fun i hi => others hi, moved⟩

/-- An instruction that does no more than its access. -/
def CoreCtx.accessing (c : CoreCtx) (acc : CoreAccess) : CoreOut := { c.out with acc := some acc }

/-- A context that has popped its next PC from the call stack. -/
def CoreCtx.popped (c : CoreCtx) (w : Word) : CoreCtx := { c.setCr 4 (c.crv 4 + 4#32) with pc := w }

theorem CoreCtx.popped_compat (c : CoreCtx) (w : Word) : (c.popped w).compat = c.compat := by
  simp [CoreCtx.compat, CoreCtx.popped, CoreCtx.setCr, CoreCtx.crv, Store.get_set]

/-- An instruction that does no more than its access, which leaves `y`. -/
theorem State.Issues.accesses {s : State} {n : Nat} (h : s.Issues n) {o : CoreOp} {run : CoreCtx → Except CoreFault CoreOut}
    {y : CoreCtx} {acc : CoreAccess} (plain : s.Plain n o) (runs : run (s.now n) = .ok ((s.now n).accessing acc))
    (alone : (o.p && (s.now n).native && !o.ctl && !o.sys) = false)
    (thawed : (s.setCore n (s.now n).stepped).accessFrozen n (some acc) = false)
    (performs : (s.setCore n (s.now n).stepped).perform n acc = (none, (s.setCore n (s.now n).stepped).setCore n y))
    (div : y.div = none) (fpu : y.fpu = none) (blk : y.blk = none) : State.Steps n y s (s.issue n (fun _ => o) run) := by
  have applied : ((s.now n).accessing acc).applyTo (s.now n) = (s.now n).stepped := rfl
  rw [h.issue_acc plain runs rfl thawed, applied]
  exact h.access_steps alone performs div fpu blk

/-- What RET does: the word at the stack pointer is its next PC. -/
def CoreCtx.returning (c : CoreCtx) : Except CoreFault CoreOut :=
  if (c.crv 4).toNat % 4 ≠ 0 then .error ⟨2, c.crv 4, false⟩ else .ok (c.accessing (.pop (c.crv 4)))

/-- A return takes its next PC from the stack. -/
theorem State.Issues.return {s : State} {n : Fin 8} (h : s.Issues n) {word : Word} {p : Bool}
    (good : s.goodWord n ((s.now n).crv 4).toNat = true) (fresh : (s.coreRec n).stale = [])
    (aligned : (s.wordAt n ((s.now n).crv 4).toNat).toNat % 4 = 0) :
    s.IssuedAs n ((s.now n).popped (s.wordAt n ((s.now n).crv 4).toNat))
      (s.issue n (fun _ => ctlOp word p [] true) CoreCtx.returning) := by
  have stack : ((s.now n).crv 4).toNat % 4 = 0 := (State.goodWord_iff.mp good).1
  have runs : (s.now n).returning = .ok ((s.now n).accessing (.pop ((s.now n).crv 4))) :=
    if_neg (by simpa using stack)
  have thawed : (s.setCore n (s.now n).stepped).accessFrozen n (some (.pop ((s.now n).crv 4))) = false :=
    State.frozenRead_of_goodWord (s := s.setCore n (s.now n).stepped) good
  have performs : (s.setCore n (s.now n).stepped).perform n (.pop ((s.now n).crv 4)) = (none, (s.setCore n (s.now n).stepped).setCore n
      ((s.now n).popped (s.wordAt n ((s.now n).crv 4).toNat))) := by
    have read : (s.setCore n (s.now n).stepped).coreRead n ((s.now n).crv 4).toNat 4
        = (.data (s.wordAt n ((s.now n).crv 4).toNat), s.setCore n (s.now n).stepped) :=
      State.coreRead_word (s := s.setCore n (s.now n).stepped) good (by rw [State.stale_setCore, fresh])
    have run : (s.setCore n (s.now n).stepped).perform n (.pop ((s.now n).crv 4))
        = (s.setCore n (s.now n).stepped).popReturn n ((s.now n).crv 4) := rfl
    rw [run, State.popReturn]
    simp only [read, State.core_setCore]
    exact if_neg (by simpa using aligned)
  have steps := h.accesses (o := ctlOp word p [] true) (s.plain_of_g n rfl rfl rfl) runs (by simp [ctlOp]) thawed performs
    h.now_div h.now_fpu h.now_blk
  refine ⟨steps.core.trans ?_, steps.rest⟩
  rw [CoreCtx.popped_compat]

end Sys2Proof.Machine
end

section
/-!
The context that a frame gives back (R323).
-/
set_option Elab.async false
namespace Sys2Proof.Machine
open Sys2Proof

/-! ### The context that a frame gives back (R323) -/

@[simp] theorem CoreCtx.crv_put (c : CoreCtx) (d : CReg) (v : Word) (k : Nat) : (c.put d v).crv k = c.crv k := by
  cases d with
  | g r => unfold CoreCtx.put; dsimp only; split <;> rfl
  | f r => rfl

@[simp] theorem CoreCtx.fr_put_g (c : CoreCtx) (r k : Nat) (v : Word) : (c.put (.g r) v).fr k = c.fr k := by
  unfold CoreCtx.put
  dsimp only
  split <;> rfl

@[simp] theorem CoreCtx.gr_put_f (c : CoreCtx) (r k : Nat) (v : Word) : (c.put (.f r) v).gr k = c.gr k := rfl

theorem CoreCtx.fr_put_f (c : CoreCtx) (r k : Nat) (v : Word) : (c.put (.f r) v).fr k = if k = r then v else c.fr k := by
  simp [CoreCtx.put, CoreCtx.fr, Store.get_set]

theorem CoreCtx.gr_put_g (c : CoreCtx) {r : Nat} (k : Nat) (v : Word) (real : r ≠ 0) :
    (c.put (.g r) v).gr k = if k = r then v else c.gr k := by
  unfold CoreCtx.put
  dsimp only
  rw [if_neg real]
  by_cases same : k = r
  · subst same
    simp [CoreCtx.gr, Store.get_set, real]
  · simp [CoreCtx.gr, Store.get_set, same]

@[simp] theorem CoreCtx.frames_put (c : CoreCtx) (d : CReg) (v : Word) : (c.put d v).frames = c.frames := by
  cases d with
  | g r => unfold CoreCtx.put; dsimp only; split <;> rfl
  | f r => rfl

@[simp] theorem CoreCtx.gr_writeCr (c : CoreCtx) (k r : Nat) (v : Word) : (c.writeCr k v).gr r = c.gr r := rfl
@[simp] theorem CoreCtx.fr_writeCr (c : CoreCtx) (k r : Nat) (v : Word) : (c.writeCr k v).fr r = c.fr r := rfl
@[simp] theorem CoreCtx.frames_writeCr (c : CoreCtx) (k : Nat) (v : Word) : (c.writeCr k v).frames = c.frames := rfl

theorem CoreCtx.crv_setCr (c : CoreCtx) (k i : Nat) (v : Word) : (c.setCr k v).crv i = if i = k then v else c.crv i := by
  simp [CoreCtx.setCr, CoreCtx.crv, Store.get_set]

theorem CoreCtx.crv_writeCr (c : CoreCtx) (k i : Nat) (v : Word) :
    (c.writeCr k v).crv i = if i = k then (c.crv k &&& ~~~ crMask k) ||| (v &&& crMask k) else c.crv i := by
  rw [CoreCtx.writeCr, CoreCtx.crv_setCr]

/-- What no step of a fold over a context changes. -/
theorem foldl_keeps_ctx {α β : Type} (p : CoreCtx → β) (f : CoreCtx → α → CoreCtx) (h : ∀ c a, p (f c a) = p c) :
    ∀ (l : List α) (c : CoreCtx), p (l.foldl f c) = p c
  | [], _ => rfl
  | a :: l, c => (foldl_keeps_ctx p f h l (f c a)).trans (h c a)

/-- The f registers and FPCR as a frame gives them back. -/
def CoreCtx.withFp (c : CoreCtx) (f : Option (List Word)) : CoreCtx :=
  match f with
  | some l => (List.range 32).foldl (fun c i => c.put (.f i) (l.getD (i + 1) 0#32)) (c.writeCr 2 (l.getD 0 0#32))
  | none => c

/-- The control registers as a frame gives them back. -/
def CoreCtx.withHead (c : CoreCtx) (h : List Word) : CoreCtx :=
  ((((c.writeCr 0 (h.getD 0 0#32)).writeCr 0x21 (h.getD 2 0#32)).writeCr 0x22 (h.getD 3 0#32)).writeCr 6 (h.getD 4 0#32)).writeCr 5
    (h.getD 5 0#32)

/-- The g registers as a frame gives them back. -/
def CoreCtx.withGs (c : CoreCtx) (h : List Word) : CoreCtx :=
  (List.range 7).foldl (fun c i => c.put (.g (i + 1)) (h.getD (i + 6) 0#32)) c

/-- The registers as a frame gives them back, at the level below. -/
def CoreCtx.unframed (c : CoreCtx) (h : List Word) (f : Option (List Word)) : CoreCtx :=
  let d := (((c.withFp f).withHead h).withGs h).put (.g 30) ((c.withFp f).gr 30 + 272#32)
  d.setCr 0x24 (w32 ((d.crv 0x24).toNat - 1))

theorem foldl_put_fr (g : Nat → Word) (k : Nat) : ∀ (l : List Nat) (c : CoreCtx),
    (l.foldl (fun c i => c.put (.f i) (g i)) c).fr k = if k ∈ l then g k else c.fr k
  | [], c => by simp
  | i :: l, c => by
    rw [List.foldl_cons, foldl_put_fr g k l, CoreCtx.fr_put_f]
    by_cases same : k = i <;> simp [same]

theorem CoreCtx.withFp_fr (c : CoreCtx) (l : List Word) {k : Nat} (h : k < 32) : (c.withFp (some l)).fr k = l.getD (k + 1) 0#32 := by
  unfold CoreCtx.withFp
  dsimp only
  rw [foldl_put_fr (fun i => l.getD (i + 1) 0#32), if_pos (List.mem_range.mpr h)]

theorem CoreCtx.withFp_gr (c : CoreCtx) (f : Option (List Word)) (k : Nat) : (c.withFp f).gr k = c.gr k := by
  cases f with
  | none => rfl
  | some l => exact foldl_keeps_ctx (fun c => c.gr k) _ (fun _ _ => CoreCtx.gr_put_f _ _ _ _) _ _

theorem CoreCtx.withFp_crv (c : CoreCtx) (f : Option (List Word)) {k : Nat} (h : k ≠ 2) : (c.withFp f).crv k = c.crv k := by
  cases f with
  | none => rfl
  | some l =>
    refine (foldl_keeps_ctx (fun c => c.crv k) _ (fun c i => CoreCtx.crv_put _ _ _ _) _ _).trans ?_
    rw [CoreCtx.crv_writeCr, if_neg h]

theorem CoreCtx.withFp_frames (c : CoreCtx) (f : Option (List Word)) : (c.withFp f).frames = c.frames := by
  cases f with
  | none => rfl
  | some l => exact foldl_keeps_ctx (fun c => c.frames) _ (fun c i => CoreCtx.frames_put _ _ _) _ _

theorem CoreCtx.withGs_crv (c : CoreCtx) (h : List Word) (k : Nat) : (c.withGs h).crv k = c.crv k :=
  foldl_keeps_ctx (fun c => c.crv k) _ (fun _ _ => CoreCtx.crv_put _ _ _ _) _ _

theorem CoreCtx.withGs_fr (c : CoreCtx) (h : List Word) (k : Nat) : (c.withGs h).fr k = c.fr k :=
  foldl_keeps_ctx (fun c => c.fr k) _ (fun _ _ => CoreCtx.fr_put_g _ _ _ _) _ _

theorem CoreCtx.withGs_frames (c : CoreCtx) (h : List Word) : (c.withGs h).frames = c.frames :=
  foldl_keeps_ctx (fun c => c.frames) _ (fun _ _ => CoreCtx.frames_put _ _ _) _ _

theorem CoreCtx.withGs_gr (c : CoreCtx) (h : List Word) (i : Fin 7) : (c.withGs h).gr (i.val + 1) = h.getD (i.val + 6) 0#32 := by
  simp only [CoreCtx.withGs, List.range_succ, List.range_zero, List.nil_append, List.foldl_cons, List.foldl_nil,
    List.cons_append, CoreCtx.gr_put_g _ _ _ (Nat.succ_ne_zero _)]
  fin_cases i <;> rfl

/-- The context behind a frame that records no result in flight and no long operation. -/
structure CoreCtx.Unframed (c : CoreCtx) (h : List Word) (y : CoreCtx) : Prop where
  pc : y.pc = h.getD 1 0#32
  flight : y.flight = []
  div : y.div = none
  fpu : y.fpu = none
  blk : y.blk = none
  frames : y.frames = c.frames.tail
  status : y.crv 0 = (c.crv 0 &&& ~~~ 0xE0003F00#32) ||| (h.getD 0 0#32 &&& 0xE0003F00#32)
  mode : y.crv 1 = c.crv 1
  limits : y.crv 6 = h.getD 4 0#32 ∧ y.crv 5 = h.getD 5 0#32
  level : y.crv 0x24 = w32 ((c.crv 0x24).toNat - 1)
  gs : ∀ i : Fin 7, y.gr (i.val + 1) = h.getD (i.val + 6) 0#32
  base : y.gr 30 = c.gr 30 + 272#32

theorem CoreCtx.unframed_crv (c : CoreCtx) (h : List Word) (f : Option (List Word)) {k : Nat} (other : k ≠ 0x24) :
    (c.unframed h f).crv k = ((c.withFp f).withHead h).crv k := by
  unfold CoreCtx.unframed
  rw [CoreCtx.crv_setCr, if_neg other, CoreCtx.crv_put, CoreCtx.withGs_crv]

theorem CoreCtx.unframed_gr (c : CoreCtx) (h : List Word) (f : Option (List Word)) (k : Nat) :
    (c.unframed h f).gr k = if k = 30 then c.gr 30 + 272#32 else (((c.withFp f).withHead h).withGs h).gr k := by
  have set (d : CoreCtx) (i : Nat) (v : Word) : (d.setCr i v).gr k = d.gr k := rfl
  unfold CoreCtx.unframed
  rw [set, CoreCtx.gr_put_g _ _ _ (by decide), CoreCtx.withFp_gr]

/-- `returned` for such a frame. -/
theorem CoreCtx.returned_quiet (c : CoreCtx) {h e : List Word} (f : Option (List Word)) (idle : fld (h.getD 13 0#32) 10 8 = 0) :
    c.Unframed h (c.returned h [] e f) ∧ ∀ l, f = some l → ∀ k < 32, (c.returned h [] e f).fr k = l.getD (k + 1) 0#32 := by
  have off (i : Nat) (hi : 8 ≤ i ∧ i ≤ 10) : bit (h.getD 13 0#32) i = false := by
    have value : (h.getD 13 0#32).toNat >>> 8 % 2 ^ 3 = 0 := idle
    have low : ((h.getD 13 0#32).toNat >>> 8 % 2 ^ 3).testBit (i - 8) = false := by rw [value]; exact Nat.zero_testBit _
    rw [Nat.testBit_mod_two_pow, Nat.testBit_shiftRight] at low
    simpa [bit, BitVec.getLsbD, show i - 8 < 3 by omega, show 8 + (i - 8) = i by omega] using low
  have same : c.returned h [] e f = { c.unframed h f with
      pc := h.getD 1 0#32, frames := (c.unframed h f).frames.tail, advanced := true, flight := []
      div := none, fpu := none, blk := none } := by
    unfold CoreCtx.returned
    simp only [off 8 (by decide), off 9 (by decide), off 10 (by decide), Bool.false_eq_true, if_false]
    rfl
  have crv (k : Nat) : (c.returned h [] e f).crv k = (c.unframed h f).crv k := by rw [same]; rfl
  have gr (k : Nat) : (c.returned h [] e f).gr k = (c.unframed h f).gr k := by rw [same]; rfl
  have ones (w : Word) : w &&& 4294967295#32 = w := BitVec.and_allOnes
  have fr (k : Nat) : (c.returned h [] e f).fr k = (c.unframed h f).fr k := by rw [same]; rfl
  have head (k : Nat) (hk : k ≠ 2) : (c.withFp f).crv k = c.crv k := c.withFp_crv f hk
  refine ⟨⟨by rw [same], by rw [same], by rw [same], by rw [same], by rw [same], ?_, ?_, ?_, ⟨?_, ?_⟩, ?_, fun i => ?_, ?_⟩, ?_⟩
  · have frames : (c.unframed h f).frames = c.frames := by
      have set (d : CoreCtx) (i : Nat) (v : Word) : (d.setCr i v).frames = d.frames := rfl
      unfold CoreCtx.unframed CoreCtx.withHead
      rw [set, CoreCtx.frames_put, CoreCtx.withGs_frames]
      simp [CoreCtx.withFp_frames]
    rw [same]
    exact congrArg List.tail frames
  · rw [crv, CoreCtx.unframed_crv _ _ _ (by decide)]
    simp [CoreCtx.withHead, CoreCtx.crv_writeCr, head, crMask]
  · rw [crv, CoreCtx.unframed_crv _ _ _ (by decide)]
    simp [CoreCtx.withHead, CoreCtx.crv_writeCr, head]
  · rw [crv, CoreCtx.unframed_crv _ _ _ (by decide)]
    simp [CoreCtx.withHead, CoreCtx.crv_writeCr, head, crMask, ones]
  · rw [crv, CoreCtx.unframed_crv _ _ _ (by decide)]
    simp [CoreCtx.withHead, CoreCtx.crv_writeCr, head, crMask, ones]
  · rw [crv]
    unfold CoreCtx.unframed
    rw [CoreCtx.crv_setCr, if_pos rfl, CoreCtx.crv_put, CoreCtx.withGs_crv]
    simp [CoreCtx.withHead, CoreCtx.crv_writeCr, head]
  · rw [gr, CoreCtx.unframed_gr, if_neg (by omega), CoreCtx.withGs_gr]
  · rw [gr, CoreCtx.unframed_gr, if_pos rfl]
  · intro l given k hk
    have set (d : CoreCtx) (i : Nat) (v : Word) : (d.setCr i v).fr k = d.fr k := rfl
    have same : (c.unframed h f).fr k = (c.withFp f).fr k := by
      unfold CoreCtx.unframed CoreCtx.withHead
      rw [set, CoreCtx.fr_put_g, CoreCtx.withGs_fr]
      simp only [CoreCtx.fr_writeCr]
    rw [fr, same, given, c.withFp_fr l hk]

end Sys2Proof.Machine
end

section
/-!
RETX (R323).
-/
set_option Elab.async false
namespace Sys2Proof.Machine
open Sys2Proof

/-! ### RETX (R323) -/

/-- A core reads good words as they stand. -/
theorem State.pullWords_good {s : State} {n : Fin 8} {base : Word} (fresh : (s.coreRec n).stale = []) : ∀ l : List Nat,
    (∀ i ∈ l, s.goodWord n (base + w32 (4 * i)).toNat = true) →
    s.pullWords n base l = (.ok (l.map (fun i => s.wordAt n (base + w32 (4 * i)).toNat)), s)
  | [], _ => rfl
  | i :: l, good => by
    have rest := State.pullWords_good fresh l fun j hj => good j (List.mem_cons_of_mem _ hj)
    have first := State.coreRead_word (good i List.mem_cons_self) fresh
    rw [State.pullWords]
    simp only [first, rest, List.map_cons]

theorem CoreCtx.put_withPc (c : CoreCtx) (d : CReg) (v pc : Word) : CoreCtx.put { c with pc := pc } d v = { c.put d v with pc := pc } := by
  cases d with
  | g r => unfold CoreCtx.put; dsimp only; split <;> rfl
  | f r => rfl

theorem CoreCtx.putAll_withPc (pc : Word) : ∀ (l : List Flight) (c : CoreCtx),
    l.foldl (fun c x => c.put x.reg x.value) { c with pc := pc } = { l.foldl (fun c x => c.put x.reg x.value) c with pc := pc }
  | [], _ => rfl
  | x :: l, c => by
    rw [List.foldl_cons, CoreCtx.put_withPc, CoreCtx.putAll_withPc pc l, List.foldl_cons]

theorem CoreCtx.landOne_withPc (c : CoreCtx) (pc : Word) : CoreCtx.landOne { c with pc := pc } = { c.landOne with pc := pc } := by
  unfold CoreCtx.landOne
  simp only [CoreCtx.putAll_withPc]

theorem CoreCtx.stepped_landAll (c : CoreCtx) : c.stepped.landAll = { c.landAll with pc := c.pc + 4#32 } := by
  simp only [CoreCtx.landAll, CoreCtx.stepped, CoreCtx.landOne_withPc]

theorem CoreCtx.landOne_frames (c : CoreCtx) : c.landOne.frames = c.frames :=
  foldl_keeps_ctx (fun c => c.frames) _ (fun _ _ => CoreCtx.frames_put _ _ _) _ c

theorem CoreCtx.landAll_frames (c : CoreCtx) : c.landAll.frames = c.frames := by
  simp only [CoreCtx.landAll, CoreCtx.landOne_frames]

theorem CoreCtx.landAll_quiet {c : CoreCtx} (quiet : c.flight = []) : c.landAll = c := by
  have one : c.landOne = c := by
    unfold CoreCtx.landOne
    rw [quiet]
    obtain ⟨⟩ := c
    subst quiet
    rfl
  simp only [CoreCtx.landAll, one]

/-- Words `k` and on of the frame at `base`, as core `n` reads them. -/
def State.frameAt (s : State) (n : Fin 8) (base : Word) (k count : Nat) : List Word :=
  (List.range count).map (fun i => s.wordAt n (base + w32 (4 * (k + i))).toNat)

theorem State.frameAt_setCore (s : State) (m : Nat) (x : CoreCtx) (n : Fin 8) (base : Word) (k count : Nat) :
    (s.setCore m x).frameAt n base k count = s.frameAt n base k count := rfl

theorem State.frameAt_getD (s : State) (n : Fin 8) (base : Word) (k : Nat) {count i : Nat} (h : i < count) :
    (s.frameAt n base k count).getD i 0#32 = s.wordAt n (base + w32 (4 * (k + i))).toNat := by
  simp [State.frameAt, h]

theorem State.pullWords_frame {s : State} {n : Fin 8} {base : Word} (fresh : (s.coreRec n).stale = [])
    (good : ∀ i : Fin 68, s.goodWord n (base + w32 (4 * i.val)).toNat = true) {k count : Nat} (within : k + count ≤ 68) :
    s.pullWords n base ((List.range count).map (fun i => k + i)) = (.ok (s.frameAt n base k count), s) := by
  rw [State.pullWords_good fresh _ fun i hi => ?_]
  · simp [State.frameAt, Function.comp_def]
  · obtain ⟨j, hj, rfl⟩ := List.mem_map.mp hi
    have := List.mem_range.mp hj
    exact good ⟨k + j, by omega⟩

/-- RETX at a frame of good words that records no result in flight. -/
theorem State.popFrame_good {s : State} {n : Fin 8} {c : CoreCtx} (landed : (s.core n).landAll = c) (fresh : (s.coreRec n).stale = [])
    (good : ∀ i : Fin 68, s.goodWord n (c.gr 30 + w32 (4 * i.val)).toNat = true)
    (aligned : (s.wordAt n (c.gr 30 + w32 (4 * 1)).toNat).toNat % 4 = 0)
    (quiet : fld (s.wordAt n (c.gr 30 + w32 (4 * 13)).toNat) 2 0 = 0) :
    s.popFrame n = (none, s.setCore n (c.returned (s.frameAt n (c.gr 30) 0 14) [] (s.frameAt n (c.gr 30) 26 9)
      (if c.fps then some (s.frameAt n (c.gr 30) 35 33) else none))) := by
  have base : (c.gr 30).toNat % 4 = 0 := by
    have first := (State.goodWord_iff.mp (good 0)).1
    have zero : c.gr 30 + w32 (4 * (0 : Fin 68).val) = c.gr 30 := by simp [w32]
    rwa [zero] at first
  have head : s.pullWords n (c.gr 30) (List.range 14) = (.ok (s.frameAt n (c.gr 30) 0 14), s) := by
    have pulled := State.pullWords_frame fresh good (k := 0) (count := 14) (by decide)
    simpa using pulled
  have tail := State.pullWords_frame fresh good (k := 26) (count := 9) (by decide)
  have fps := State.pullWords_frame fresh good (k := 35) (count := 33) (by decide)
  have pc : (s.frameAt n (c.gr 30) 0 14).getD 1 0#32 = s.wordAt n (c.gr 30 + w32 (4 * 1)).toNat :=
    State.frameAt_getD _ _ _ _ (by decide)
  have marks : (s.frameAt n (c.gr 30) 0 14).getD 13 0#32 = s.wordAt n (c.gr 30 + w32 (4 * 13)).toNat :=
    State.frameAt_getD _ _ _ _ (by decide)
  have entries : (List.range (2 * min 6 (fld ((s.frameAt n (c.gr 30) 0 14).getD 13 0#32) 2 0))).map (fun i => 14 + i) = [] := by
    rw [marks, quiet]
    rfl
  have none' : s.pullWords n (c.gr 30) [] = (.ok [], s) := rfl
  unfold State.popFrame
  simp only [landed, head, entries, none', tail]
  rw [if_neg (by simpa using base), pc, if_neg (by simpa using aligned)]
  cases c.fps
  · rfl
  · simp only [fps, if_true]

theorem CoreCtx.Unframed.of_withPc {c y : CoreCtx} {l : List Word} {pc : Word} (h : CoreCtx.Unframed { c with pc := pc } l y) :
    c.Unframed l y :=
  ⟨h.pc, h.flight, h.div, h.fpu, h.blk, h.frames, h.status, h.mode, h.limits, h.level, h.gs, h.base⟩

/-- What RETX leaves where the frame records nothing under way and no other slot is about to run. -/
theorem State.Issues.unframes {s : State} {n : Fin 8} (h : s.Issues n) {word : Word} {p : Bool} {b : Word} (sup : (s.core n).sup = true)
    (base : (s.now n).landAll.gr 30 = b) (good : ∀ i : Fin 68, s.goodWord n (b + w32 (4 * i.val)).toNat = true)
    (fresh : (s.coreRec n).stale = []) (aligned : (s.wordAt n (b + w32 (4 * 1)).toNat).toNat % 4 = 0)
    (idle : fld (s.wordAt n (b + w32 (4 * 13)).toNat) 10 8 = 0) (quiet : fld (s.wordAt n (b + w32 (4 * 13)).toNat) 2 0 = 0)
    (stays : s.Stays n) :
    ∀ t, t = (s.issue n (fun _ => { ctlOp word p [] true with sup := true, drain := true })
        (fun c => .ok { c.out with acc := some .frame })).reschedule n →
      (s.now n).landAll.Unframed (s.frameAt n b 0 14) (t.core n)
      ∧ ((s.now n).landAll.fps = true → ∀ i : Fin 32, (t.core n).fr i.val = s.wordAt n (b + w32 (4 * (i.val + 36))).toNat)
      ∧ SameBut [.cores] s t := by
  rintro t rfl
  have landed : ((s.setCore n (s.now n).stepped).core n).landAll = (s.now n).stepped.landAll := by rw [State.core_setCore]
  have stepped := (s.now n).stepped_landAll
  have top : (s.now n).stepped.landAll.gr 30 = b := by rw [stepped]; exact base
  have fps : (s.now n).stepped.landAll.fps = (s.now n).landAll.fps := by rw [stepped]; rfl
  have popped := State.popFrame_good (s := s.setCore n (s.now n).stepped) landed (by rw [State.stale_setCore, fresh])
    (by rw [top]; exact good) (by rw [top]; exact aligned) (by rw [top]; exact quiet)
  rw [top, fps] at popped
  simp only [State.frameAt_setCore] at popped
  have marks : fld ((s.frameAt n b 0 14).getD 13 0#32) 10 8 = 0 := by
    rw [State.frameAt_getD _ _ _ _ (by decide)]
    exact idle
  obtain ⟨left, fregs⟩ := (s.now n).stepped.landAll.returned_quiet (e := s.frameAt n b 26 9)
    (if (s.now n).landAll.fps then some (s.frameAt n b 35 33) else none) marks
  generalize (s.now n).stepped.landAll.returned _ [] _ _ = y at *
  rw [stepped] at left
  have steps := h.accesses (o := { ctlOp word p [] true with sup := true, drain := true }) ⟨rfl, fun _ => sup, nofun⟩
    (run := fun c => .ok { c.out with acc := some .frame }) (acc := .frame) rfl (by simp [ctlOp]) rfl popped
    left.div left.fpu left.blk
  obtain ⟨core, -, rest⟩ := h.rescheduled stays steps
  have same := core.trans (show (if y.compat then y.landAll else y) = y by split <;> [exact CoreCtx.landAll_quiet left.flight; rfl])
  have index (i : Fin 32) : 35 + (i.val + 1) = i.val + 36 := by omega
  have saved : (s.now n).landAll.fps = true → ∀ i : Fin 32, y.fr i.val = s.wordAt n (b + w32 (4 * (i.val + 36))).toNat :=
    fun on i => by rw [fregs _ (if_pos on) i i.isLt, State.frameAt_getD _ _ _ _ (by omega), index]
  rw [← same] at left saved
  exact ⟨left.of_withPc, saved, rest⟩

end Sys2Proof.Machine
end

section
/-!
The words of a block transfer (R293).
-/
set_option Elab.async false
namespace Sys2Proof.Machine
open Sys2Proof

/-! ### The words of a block transfer (R293) -/

/-- What a core's address stands for depends on registers alone. -/
theorem State.place_congr {s t : State} (regs : t.regs = s.regs) (n : Fin 8) (a : Nat) :
    t.place (.core n) a = s.place (.core n) a := by
  have reg (x : Nat) : t.reg x = s.reg x := State.reg_congr regs x
  have rb (x i : Nat) : t.rb x i = s.rb x i := by rw [State.rb, State.rb, reg]
  have locked (k : Nat) : t.locked k = s.locked k := rb _ _
  have upper (k : Nat) : t.upperLocked k = s.upperLocked k := by rw [State.upperLocked, State.upperLocked, locked]
  have lead (k : Nat) : t.leadCore k = s.leadCore k := by rw [State.leadCore, State.leadCore, locked]
  have tcm (k o : Nat) : t.tcmPlace k o = s.tcmPlace k o := by
    rw [State.tcmPlace, State.tcmPlace, upper, State.spillArea, State.spillArea, reg]
  have hosted (k : Nat) : t.leHosted k = s.leHosted k := funext fun m => rb _ _
  have window (k m : Nat) : t.leWindow k m = s.leWindow k m := by
    simp only [State.leWindow, State.leSubst, State.leHostedOne, State.rf, reg, rb, hosted]
    rfl
  have routed (x : Nat) : t.routed x = s.routed x := by
    simp only [State.routed, window]
  have mapped : t.mapped a = s.mapped a := by
    simp only [State.mapped, routed, upper]
  simp only [State.place, lead, tcm, routed, mapped]
  rfl

theorem State.ramOf_congr {s t : State} (regs : t.regs = s.regs) (paths : t.paths = s.paths) (n : Fin 8) (a : Nat) :
    t.ramOf n a = s.ramOf n a := by
  have path : t.pathTo a = s.pathTo a := by rw [State.pathTo, State.pathTo, paths]
  simp only [State.ramOf, State.place_congr regs, path]

/-- No master reaches the addresses between flash and system SRAM. -/
theorem reaches_gap {m : Master} {a : Nat} (low : 0x12000000 ≤ a) (high : a < 0x20000000) : reaches m a = false := by
  have page : 0x12 ≤ a / 0x1000000 ∧ a / 0x1000000 < 0x20 := by omega
  unfold reaches
  dsimp only
  rw [if_neg (by omega), if_neg (by omega), if_neg (by omega), if_neg (by omega), if_neg (by omega), if_neg (by omega), if_neg (by omega),
    if_neg (by omega), if_neg (by omega)]
  generalize a / 0x1000000 = q at page
  obtain ⟨least, most⟩ := page
  interval_cases q <;> rfl

theorem State.mapped_ne_ram (s : State) (a g : Nat) : s.mapped a ≠ some (.ram g) := by
  unfold State.mapped
  dsimp only
  split
  · simp
  · simp
  · split
    next b o _ => cases row : b.row o <;> simp
    · simp

/-- RAM that a core reaches stands at its own address, or is the core's own TCM. -/
theorem State.ramOf_shift {s : State} {n : Fin 8} {a g : Nat} (ram : s.ramOf n a = some g) :
    (a < 0x100000 ∧ g = 0x30000000 + 0x100000 * s.leadCore n + a) ∨ (0x20000000 ≤ a ∧ a < 0x31000000 ∧ g = a) := by
  obtain ⟨place, -⟩ := State.ramOf_iff.mp ram
  have tcm {k o : Nat} (h : s.tcmPlace k o = some (.ram g)) : g = 0x30000000 + 0x100000 * k + o := by
    unfold State.tcmPlace at h
    split at h
    · simp at h
    · simpa using h.symm
  unfold State.place at place
  split at place
  · simp at place
  next reached =>
    split at place
    next low => exact .inl ⟨low, tcm place⟩
    split at place
    · simp at place
    next above =>
    split at place
    next below =>
      have own : g = a := by simpa using place.symm
      have reach : reaches (.core n) a = true := by
        cases r : reaches (.core n) a
        · simp [r] at reached
        · rfl
      refine .inr ⟨?_, by omega, own⟩
      by_contra under
      rw [reaches_gap (by omega) (by omega)] at reach
      exact absurd reach (by decide)
    split at place
    · simp at place
    split at place
    · simp at place
    split at place
    · simp at place
    split at place
    next k o found =>
      have own := tcm place
      unfold tcmOf at found
      split at found
      · simp only [Option.some.injEq, Prod.mk.injEq] at found
        obtain ⟨rfl, rfl⟩ := found
        exact .inr ⟨by omega, by omega, by omega⟩
      · simp at found
    · split at place
      · simp at place
      · split at place
        · simp at place
        · exact absurd place (s.mapped_ne_ram a g)

/-- Two words of one block transfer lie apart in memory. -/
theorem BlockOp.words_apart {s : State} {n : Fin 8} {b : BlockOp} {i j g h : Nat} (hi : i < 32) (hj : j < 32) (ne : i ≠ j)
    (first : s.ramOf n (b.addr i).toNat = some g) (second : s.ramOf n (b.addr j).toNat = some h) : g + 4 ≤ h ∨ h + 4 ≤ g := by
  have shift := State.ramOf_shift first
  have shift' := State.ramOf_shift second
  have top := b.base.isLt
  unfold BlockOp.addr blockAddr w32 at shift shift'
  split at shift <;> simp only [*, if_true, if_false, Bool.false_eq_true, BitVec.toNat_add, BitVec.toNat_sub, BitVec.toNat_ofNat] at shift shift' <;> omega

end Sys2Proof.Machine
end

section
/-!
What a block transfer leaves in the registers (R293).
-/
set_option Elab.async false
namespace Sys2Proof.Machine
open Sys2Proof

/-! ### A block transfer completes (R293) -/

theorem CoreCtx.landLong_gr (c : CoreCtx) (d : CReg) (v : Word) {r : Nat} (real : r ≠ 0) :
    (c.landLong d v).gr r = if d = .g r then v else c.gr r := by
  cases d with
  | f i => rw [if_neg nofun]; exact CoreCtx.gr_put_f _ _ _ _
  | g i =>
    by_cases zero : i = 0
    · subst zero
      have ne : CReg.g 0 ≠ .g r := by simpa using real.symm
      rw [if_neg ne]
      rfl
    · refine (CoreCtx.gr_put_g _ _ _ zero).trans ?_
      by_cases same : r = i
      · subst same; simp
      · rw [if_neg same, if_neg (by simpa using Ne.symm same)]
        rfl

theorem CoreCtx.landLong_fr (c : CoreCtx) (d : CReg) (v : Word) (r : Nat) :
    (c.landLong d v).fr r = if d = .f r then v else c.fr r := by
  cases d with
  | g i => rw [if_neg nofun]; exact CoreCtx.fr_put_g _ _ _ _
  | f i =>
    refine (CoreCtx.fr_put_f _ _ _ _).trans ?_
    by_cases same : r = i
    · subst same; simp
    · rw [if_neg same, if_neg (by simpa using Ne.symm same)]
      rfl

@[simp] theorem CoreCtx.landLong_blk (c : CoreCtx) (d : CReg) (v : Word) : (c.landLong d v).blk = c.blk :=
  (CoreCtx.put_alike _ _ _).blk

/-- The value that register `d` shows. -/
def CoreCtx.shows (c : CoreCtx) : CReg → Word
  | .g r => c.gr r
  | .f r => c.fr r

theorem CoreCtx.landLong_shows (c : CoreCtx) (d e : CReg) (v : Word) (real : e ≠ .g 0) :
    (c.landLong d v).shows e = if d = e then v else c.shows e := by
  cases e with
  | g r => exact c.landLong_gr d v (by rintro rfl; exact real rfl)
  | f r => exact c.landLong_fr d v r

/-- Values that land for different registers are what each register then shows. -/
theorem foldl_landLong_shows {d : CReg} {v : Word} (real : d ≠ .g 0) : ∀ (l : List (CReg × Word)) (c : CoreCtx),
    (l.map Prod.fst).Nodup → (d, v) ∈ l → (l.foldl (fun c x => c.landLong x.1 x.2) c).shows d = v
  | [], _, _, mem => absurd mem (List.not_mem_nil)
  | x :: l, c, nodup, mem => by
    obtain ⟨fresh, rest⟩ := List.nodup_cons.mp nodup
    have kept : ∀ (l : List (CReg × Word)) (c : CoreCtx), d ∉ l.map Prod.fst →
        (l.foldl (fun c x => c.landLong x.1 x.2) c).shows d = c.shows d := by
      intro l
      induction l with
      | nil => exact fun _ _ => rfl
      | cons y l ih =>
        intro c out
        obtain ⟨other, out⟩ := not_or.mp (mt List.mem_cons.mpr out)
        rw [List.foldl_cons, ih _ out, CoreCtx.landLong_shows _ _ _ _ real, if_neg (Ne.symm other)]
    rw [List.foldl_cons]
    obtain rfl | mem := List.mem_cons.mp mem
    · rw [kept l _ fresh, CoreCtx.landLong_shows _ _ _ _ real, if_pos rfl]
    · exact foldl_landLong_shows real l _ rest mem

theorem BlockOp.regs_nodup (b : BlockOp) : b.regs.Nodup := by
  have ascending : ((List.range 32).filter (bit b.mask)).Nodup := List.nodup_range.filter _
  have ordered : (if b.dir then ((List.range 32).filter (bit b.mask)).reverse else (List.range 32).filter (bit b.mask)).Nodup := by
    split
    · exact List.nodup_reverse.mpr ascending
    · exact ascending
  refine ordered.map fun i j same => ?_
  cases fp : b.fp <;> simpa [fp] using same

theorem BlockOp.regs_length (b : BlockOp) : b.regs.length ≤ 32 := by
  have few : ((List.range 32).filter (bit b.mask)).length ≤ 32 := (List.length_filter_le _ _).trans_eq List.length_range
  unfold BlockOp.regs blockRegs
  cases b.dir <;> simpa using few

/-- The registers of the words left, with what memory holds for each. -/
def State.blockWords (s : State) (n : Fin 8) (b : BlockOp) (k : Nat) (l : List CReg) : List (CReg × Word) :=
  (l.zipIdx k).map (fun x => (x.1, s.wordAt n (b.addr x.2).toNat))

theorem State.blockLoad_good {s : State} {n : Fin 8} {b : BlockOp} (fresh : (s.coreRec n).stale = []) : ∀ (l : List CReg) (k : Nat),
    (∀ i, k ≤ i → i < k + l.length → s.goodWord n (b.addr i).toNat = true) →
    s.blockLoad n b k l = (s.blockWords n b k l, none, s)
  | [], _, _ => rfl
  | r :: l, k, good => by
    have rest := State.blockLoad_good fresh l (k + 1) fun i low high => good i (by omega) (by rw [List.length_cons]; omega)
    have first := State.coreRead_word (good k le_rfl (by rw [List.length_cons]; omega)) fresh
    rw [State.blockLoad]
    simp only [first, rest]
    rfl

theorem State.mem_blockWords {s : State} {n : Fin 8} {b : BlockOp} {d : CReg} {v : Word} :
    (d, v) ∈ s.blockWords n b b.next (b.regs.drop b.next)
      ↔ ∃ k, b.next ≤ k ∧ b.regs[k]? = some d ∧ v = s.wordAt n (b.addr k).toNat := by
  simp only [State.blockWords, List.mem_map, Prod.mk.injEq, Prod.exists]
  constructor
  · rintro ⟨e, k, mem, rfl, rfl⟩
    obtain ⟨least, found⟩ := List.mk_mem_zipIdx_iff_le_and_getElem?_sub.mp mem
    rw [List.getElem?_drop, show b.next + (k - b.next) = k by omega] at found
    exact ⟨k, least, found, rfl⟩
  · rintro ⟨k, least, found, rfl⟩
    refine ⟨d, k, List.mk_mem_zipIdx_iff_le_and_getElem?_sub.mpr ⟨least, ?_⟩, rfl, rfl⟩
    rw [List.getElem?_drop, show b.next + (k - b.next) = k by omega, found]

theorem State.blockWords_nodup (s : State) (n : Fin 8) (b : BlockOp) :
    ((s.blockWords n b b.next (b.regs.drop b.next)).map Prod.fst).Nodup := by
  have regs : (s.blockWords n b b.next (b.regs.drop b.next)).map Prod.fst = b.regs.drop b.next := by
    rw [State.blockWords, List.map_map]
    exact List.zipIdx_map_fst _ _
  rw [regs]
  exact b.regs_nodup.sublist (List.drop_sublist _ _)

/-- The context behind a complete transfer. -/
theorem CoreCtx.afterBlock_none (c : CoreCtx) (b : BlockOp) (l : List (CReg × Word)) :
    (c.afterBlock b l none).blk = none
    ∧ (∀ d v, d ≠ .g 0 → (b.wb = false ∨ d ≠ .g b.ra) → (l.map Prod.fst).Nodup → (d, v) ∈ l → (c.afterBlock b l none).shows d = v)
    ∧ (b.wb = true → b.ra ≠ 0 → (c.afterBlock b l none).gr b.ra = blockEnd b.base b.mask b.dir) := by
  have still (c : CoreCtx) (d : CReg) : ({ c with blk := none } : CoreCtx).shows d = c.shows d := by cases d <;> rfl
  unfold CoreCtx.afterBlock
  dsimp only
  cases back : b.wb
  · simp only [Bool.false_eq_true, if_false, true_and, false_implies, and_true]
    intro d v real _ nodup mem
    rw [still]
    exact foldl_landLong_shows real l c nodup mem
  · simp only [if_true, CoreCtx.landLong_blk, true_and]
    refine ⟨fun d v real other nodup mem => ?_, fun _ real => ?_⟩
    · have base : CReg.g b.ra ≠ d := fun e => other.elim (by decide) (· e.symm)
      rw [CoreCtx.landLong_shows _ _ _ _ real, if_neg base, still]
      exact foldl_landLong_shows real l c nodup mem
    · rw [CoreCtx.landLong_gr _ _ _ real, if_pos rfl]

end Sys2Proof.Machine
end

section
/-!
Block transfers that complete, and the loads, stores and control transfers of a core (R283 to R293, R302, R323).
-/
set_option Elab.async false
namespace Sys2Proof.Machine
open Sys2Proof

section
variable {n : Fin 8} {b : BlockOp} {s : State} (ready : s.coreReady n = true) (alone : (s.coreRec n).pair = none)
  (busy : (s.core n).blk = some b)
include ready alone busy

/-- The block engine completes a load. -/
theorem State.longComplete_load (fresh : (s.coreRec n).stale = []) (load : b.load = true)
    (good : ∀ k : Fin 32, b.next ≤ k.val → k.val < b.regs.length → s.goodWord n (b.addr k.val).toNat = true)
    (limit : ∀ k : Fin 32, b.next ≤ k.val → b.regs[k.val]? = some (.g 30) → (s.core n).violates (s.wordAt n (b.addr k.val).toNat) = false) :
    s.longComplete n 2 = s.setCore n ((s.core n).afterBlock b (s.blockWords n b b.next (b.regs.drop b.next)) none) := by
  have size := b.regs_length
  have reads (i : Nat) (least : b.next ≤ i) (most : i < b.regs.length) : s.goodWord n (b.addr i).toNat = true :=
    good ⟨i, by omega⟩ least most
  have thawed : s.blockFrozen n (some b) = false := by
    simp only [State.blockFrozen, load, Bool.true_and, List.any_eq_false, List.mem_range, Bool.and_eq_true, decide_eq_true_eq,
      not_and, Bool.not_eq_true]
    exact fun i most least => State.frozenRead_of_goodWord (reads i least most)
  have run : s.blockRun n b = (s.blockWords n b b.next (b.regs.drop b.next), none, s) := by
    rw [State.blockRun, if_pos load]
    refine State.blockLoad_good fresh _ _ fun i least most => reads i least ?_
    rw [List.length_drop] at most
    omega
  have within : (s.blockWords n b b.next (b.regs.drop b.next)).find? (fun x => x.1 == .g 30 && (s.core n).violates x.2) = none := by
    refine List.find?_eq_none.mpr fun ⟨d, v⟩ mem => ?_
    obtain ⟨k, least, found, rfl⟩ := State.mem_blockWords.mp mem
    have most : k < b.regs.length := (List.getElem?_eq_some_iff.mp found).1
    by_cases g30 : d = .g 30
    · subst g30
      simp [limit ⟨k, by omega⟩ least found]
    · simp [g30]
  have done : s.blockDone n = (none, s.setCore n ((s.core n).afterBlock b (s.blockWords n b b.next (b.regs.drop b.next)) none)) := by
    simp only [State.blockDone, State.pendingOps_of_alone alone, busy, run, within, Option.map_none, State.mapCtx_of_alone alone]
  simp only [State.longComplete, ready, State.pendingOps_of_alone alone, busy, thawed, done, Bool.not_true, Bool.false_eq_true, if_false,
    Nat.lt_irrefl]

end

theorem State.loadN_bytes {s t : State} {g k : Nat} (same : ∀ x, g ≤ x → x < g + k → t.byte x = s.byte x) : t.loadN g k = s.loadN g k := by
  unfold State.loadN
  refine congrArg leNat (List.map_congr_left fun i hi => ?_)
  have := List.mem_range.mp hi
  exact same _ (by omega) (by omega)

/-- Words of a store, each to RAM: they stand there afterwards. -/
theorem State.blockStore_good {n : Fin 8} {b : BlockOp} {g : Nat → Nat} : ∀ (l : List Word) (k : Nat) (s : State), (l ≠ [] → k + l.length ≤ 32) →
    (∀ i, k ≤ i → i < k + l.length → s.ramOf n (b.addr i).toNat = some (g i) ∧ (b.addr i).toNat % 4 = 0) →
    ∃ t, s.blockStore n b k l = (none, t) ∧ t.coreNow n = s.coreNow n ∧ SameBut [.cores, .mem, .ecc, .freeCtr] s t
      ∧ (∀ x, (∀ i, k ≤ i → i < k + l.length → x < g i ∨ g i + 4 ≤ x) → t.byte x = s.byte x)
      ∧ ∀ i, k ≤ i → i < k + l.length → t.wordAt n (b.addr i).toNat = l.getD (i - k) 0#32
  | [], k, s, _, _ => ⟨s, rfl, rfl, .refl _ s, fun _ _ => rfl, fun i least most => by simp at most; omega⟩
  | w :: l, k, s, few, places => by
    have few := few (List.cons_ne_nil _ _)
    rw [List.length_cons] at few places
    obtain ⟨ram, aligned⟩ := places k le_rfl (by omega)
    obtain ⟨u, run, core, value, bytes, rest, -⟩ := State.busWrite_good w ram (by decide) aligned (.inl rfl)
    have ramOf (a : Nat) : u.ramOf n a = s.ramOf n a := State.ramOf_congr (rest .regs (by decide)) (rest .paths (by decide)) n a
    obtain ⟨t, runs, cores, rests, others, words⟩ := State.blockStore_good l (k + 1) u (fun _ => by omega) fun i least most => by
      rw [ramOf]
      exact places i (by omega) (by omega)
    have next : s.blockStore n b k (w :: l) = (none, t) := by
      rw [State.blockStore]
      simp only [run, runs]
    have ramOf' (a : Nat) : t.ramOf n a = u.ramOf n a := State.ramOf_congr (rests .regs (by decide)) (rests .paths (by decide)) n a
    refine ⟨t, next, cores.trans core, rest.trans rests, fun x outside => ?_, fun i least most => ?_⟩
    · rw [others x fun i low high => outside i (by omega) (by rw [List.length_cons]; omega)]
      exact bytes x (outside k le_rfl (by rw [List.length_cons]; omega))
    · rw [List.length_cons] at most
      by_cases first : i = k
      · subst first
        have apart (j : Nat) (low : i + 1 ≤ j) (high : j < i + 1 + l.length) : g i + 4 ≤ g j ∨ g j + 4 ≤ g i :=
          BlockOp.words_apart (by omega) (by omega) (by omega) ram (places j (by omega) (by omega)).1
        have kept : t.loadN (g i) 4 = u.loadN (g i) 4 := by
          refine State.loadN_bytes fun x low high => others x fun j least most => ?_
          have sides := apart j least most
          omega
        rw [State.wordAt, ramOf', ramOf, ram, Nat.sub_self]
        have word : t.mword (g i) = w := by
          rw [State.mword, kept, value]
          exact BitVec.eq_of_toNat_eq (by simpa [w32] using w.isLt)
        exact word
      · rw [words i (by omega) (by omega), show i - k = i - (k + 1) + 1 by omega]
        rfl

/-- The block engine completes a store. -/
theorem State.longComplete_store {n : Fin 8} {b : BlockOp} {s : State} (ready : s.coreReady n = true) (alone : (s.coreRec n).pair = none)
    (busy : (s.core n).blk = some b) (store : b.load = false) (all : b.data.length = b.regs.length)
    (good : ∀ k : Fin 32, b.next ≤ k.val → k.val < b.regs.length → s.goodWord n (b.addr k.val).toNat = true) :
    ∃ t, s.longComplete n 2 = t.setCore n ((s.core n).afterBlock b [] none) ∧ SameBut [.cores, .mem, .ecc, .freeCtr] s t
      ∧ ∀ k : Fin 32, b.next ≤ k.val → k.val < b.data.length → t.wordAt n (b.addr k.val).toNat = b.data.getD k.val 0#32 := by
  have size := b.regs_length
  have places (i : Nat) (least : b.next ≤ i) (most : i < b.next + (b.data.drop b.next).length) :
      s.ramOf n (b.addr i).toNat = some ((s.ramOf n (b.addr i).toNat).getD 0) ∧ (b.addr i).toNat % 4 = 0 := by
    rw [List.length_drop] at most
    obtain ⟨aligned, g, ram, -⟩ := State.goodWord_iff.mp (good ⟨i, by omega⟩ least (by show i < _; omega))
    exact ⟨by rw [ram]; rfl, aligned⟩
  obtain ⟨t, run, core, rest, -, words⟩ := State.blockStore_good (b.data.drop b.next) b.next s
    (fun left => by
      have some : 0 < (b.data.drop b.next).length := List.length_pos_of_ne_nil left
      rw [List.length_drop] at some ⊢
      omega) places
  obtain ⟨ctx, pair⟩ := State.coreNow_eq (core.trans (show s.coreNow n = (s.core n, none) by rw [State.coreNow, alone]))
  have runs : s.blockRun n b = ([], none, t) := by
    simp only [State.blockRun, store, Bool.false_eq_true, if_false, run]
  have done : s.blockDone n = (none, t.setCore n ((s.core n).afterBlock b [] none)) := by
    simp only [State.blockDone, State.pendingOps_of_alone alone, busy, runs, List.find?_nil, Option.map_none, State.mapCtx_of_alone pair, ctx]
  have thawed : s.blockFrozen n (some b) = false := by simp [State.blockFrozen, store]
  refine ⟨t, ?_, rest, fun k least most => ?_⟩
  · simp only [State.longComplete, ready, State.pendingOps_of_alone alone, busy, thawed, done, Bool.not_true, Bool.false_eq_true, if_false,
      Nat.lt_irrefl]
  · rw [words k least (by rw [List.length_drop]; omega)]
    simp only [List.getD_eq_getElem?_getD, List.getElem?_drop, show b.next + (k.val - b.next) = k.val by omega]

theorem longOperationComplete_load {n : Fin 8} {b : BlockOp} {s : State} (ready : s.coreReady n.val = true)
    (alone : (s.coreRec n.val).pair = none) (fresh : (s.coreRec n.val).stale = []) (busy : (s.core n.val).blk = some b)
    (load : b.load = true)
    (good : ∀ k : Fin 32, b.next ≤ k.val → k.val < b.regs.length → s.goodWord n (b.addr k.val).toNat = true)
    (limit : ∀ k : Fin 32, b.next ≤ k.val → b.regs[k.val]? = some (.g 30) →
      (s.core n.val).violates (s.wordAt n (b.addr k.val).toNat) = false) :
    ∃ t, exec (.longOperationComplete n 2) s = .next t
      ∧ (t.core n.val).blk = none
      ∧ (∀ (k : Fin 32) (r : Fin 32), b.next ≤ k.val → b.regs[k.val]? = some (.g r.val) → r.val ≠ 0 →
          (b.wb = false ∨ r.val ≠ b.ra) → (t.core n.val).gr r.val = s.wordAt n (b.addr k.val).toNat)
      ∧ (∀ (k : Fin 32) (r : Fin 32), b.next ≤ k.val → b.regs[k.val]? = some (.f r.val) →
          (t.core n.val).fr r.val = s.wordAt n (b.addr k.val).toNat)
      ∧ (b.wb = true → b.ra ≠ 0 → (t.core n.val).gr b.ra = blockEnd b.base b.mask b.dir)
      ∧ SameBut [.cores] s t := by
  refine ⟨_, congrArg Host.Outcome.next (State.longComplete_load ready alone busy fresh load good limit), ?_⟩
  rw [State.core_setCore]
  obtain ⟨free, shows, base⟩ := (s.core n).afterBlock_none b (s.blockWords n b b.next (b.regs.drop b.next))
  have distinct := s.blockWords_nodup n b
  refine ⟨free, fun k r least found real other => ?_, fun k r least found => ?_, base, State.setCore_sameBut _ _ _⟩
  · exact shows (.g r) _ (by simpa using real) (other.imp id (by simp)) distinct (State.mem_blockWords.mpr ⟨k, least, found, rfl⟩)
  · exact shows (.f r) _ nofun (.inr nofun) distinct (State.mem_blockWords.mpr ⟨k, least, found, rfl⟩)

theorem longOperationComplete_store {n : Fin 8} {b : BlockOp} {s : State} (ready : s.coreReady n.val = true)
    (alone : (s.coreRec n.val).pair = none) (busy : (s.core n.val).blk = some b) (store : b.load = false)
    (all : b.data.length = b.regs.length)
    (good : ∀ k : Fin 32, b.next ≤ k.val → k.val < b.regs.length → s.goodWord n (b.addr k.val).toNat = true) :
    ∃ t, exec (.longOperationComplete n 2) s = .next t
      ∧ (t.core n.val).blk = none
      ∧ (∀ k : Fin 32, b.next ≤ k.val → k.val < b.data.length → t.wordAt n (b.addr k.val).toNat = b.data.getD k.val 0)
      ∧ (b.wb = true → b.ra ≠ 0 → (t.core n.val).gr b.ra = blockEnd b.base b.mask b.dir)
      ∧ SameBut [.cores, .mem, .ecc, .freeCtr] s t := by
  obtain ⟨t, run, rest, words⟩ := State.longComplete_store ready alone busy store all good
  obtain ⟨free, -, base⟩ := (s.core n).afterBlock_none b []
  refine ⟨_, congrArg Host.Outcome.next run, ?_⟩
  rw [State.core_setCore]
  exact ⟨free, words, base, rest.trans ((State.setCore_sameBut _ _ _).mono (by decide))⟩

/-- Settles O46: loads and stores by what their access leaves, block transfers word by word, control transfers by their
next PC. -/
theorem loadStoreBlockAndControl : Obligations.LoadStoreBlockAndControl := by
  refine ⟨?_, ?_, ?_, ?_, ?_, ?_, ?_, fun n b s => longOperationComplete_load, fun n b s => longOperationComplete_store, ?_, ?_, ?_, ?_, ?_,
    ?_, ?_, ?_⟩
  · intro n p rd ra am size sign f a u ad w s h single legal addr aligned ram good fresh value within limit
    have issued := h.load_issued (word := encM p 0xC rd.val ra.val am.val size.val sign f.toNat) (fp := false) nofun single addr aligned ram
      size.isLt limit legal good fresh (d := .g rd) value within
    rw [show (if CReg.g rd.val = .g 30 then 1 else 3) = if rd.val = 30 then 1 else 3 by simp only [CReg.g.injEq]] at issued
    exact ⟨_, rfl, issued⟩
  · intro n p rd ra am size sign f a u ad w s h filled single legal addr aligned ram good fresh value limit
    have issued := h.load_issued (word := encM p 0xE rd.val ra.val am.val size.val sign f.toNat) (fp := true) (fun _ => filled) single addr aligned
      ram size.isLt limit legal good fresh (d := .f rd) value (s.keepsLimit_f _ _ _)
    exact ⟨_, rfl, issued⟩
  · intro n p rd ra am size sign f a u ad s h single legal addr aligned ram good limit
    have issued := h.store_issued (word := encM p 0xD rd.val ra.val am.val size.val sign f.toNat) (fp := false) nofun single addr aligned ram
      size.isLt limit legal good (fun c => c.gr rd.val)
    exact ⟨_, rfl, issued⟩
  · intro n p rd ra am size sign f a u ad s h filled single legal addr aligned ram good limit
    have issued := h.store_issued (word := encM p 0xF rd.val ra.val am.val size.val sign f.toNat) (fp := true) (fun _ => filled) single addr
      aligned ram size.isLt limit legal good (fun c => c.fr rd.val)
    exact ⟨_, rfl, issued⟩
  · intro n rd ra am size sign f a u s h native legal addr aligned limit thawed
    exact ⟨_, rfl, h.load_held native legal addr aligned limit thawed _ rfl⟩
  · intro n p ra rm dir wb fp s h filled native legal aligned limit other
    have quiet : (true && !fp && bit ((s.now n.val).gr rm.val) 30) = false := by
      obtain rfl | clear := other
      · rfl
      · simp [clear]
    exact ⟨_, rfl, h.block_starts filled native legal aligned limit quiet _ rfl⟩
  · intro n p ra rm dir wb fp s h filled native legal aligned limit
    exact ⟨_, rfl, h.block_starts filled native legal aligned limit rfl _ rfl⟩
  · intro n p ra off s h aligned
    refine ⟨_, rfl, h.branch (s.plain_of_g n rfl rfl rfl) ?_⟩
    split
    · exact CoreCtx.jump_aligned _ aligned
    · rfl
  · intro n p ra off s h aligned
    refine ⟨_, rfl, h.branch (s.plain_of_g n rfl rfl rfl) ?_⟩
    split
    · rfl
    · exact CoreCtx.jump_aligned _ aligned
  · intro n p off s h aligned
    exact ⟨_, rfl, h.branch (s.plain_of_g n rfl rfl rfl) (CoreCtx.jump_aligned _ aligned)⟩
  · intro n p ra s h aligned
    exact ⟨_, rfl, h.branch (s.plain_of_g n rfl rfl rfl) (CoreCtx.jump_aligned _ aligned)⟩
  · intro n p off ad s h target limit aligned ram
    exact ⟨_, rfl, h.calls (s.plain_of_g n rfl rfl rfl) rfl target limit aligned ram⟩
  · intro n p ra ad s h target limit aligned ram
    exact ⟨_, rfl, h.calls (s.plain_of_g n rfl rfl rfl) rfl target limit aligned ram⟩
  · intro n p s h good fresh aligned
    exact ⟨_, rfl, h.return good fresh aligned⟩
  · intro n p s h sup good fresh aligned idle enabled settled
    obtain ⟨left, fregs, rest⟩ := h.unframes (word := encR p 0x16 0 0 0 0 3) (p := p) sup rfl good fresh aligned idle.1 idle.2
      ⟨enabled, settled⟩ _ rfl
    have word (i : Nat) (hi : i < 14) : (s.frameAt n ((s.now n.val).landAll.gr 30) 0 14).getD i 0#32
        = s.wordAt n ((s.now n.val).landAll.gr 30 + w32 (4 * i)).toNat := by
      rw [State.frameAt_getD _ _ _ _ hi, Nat.zero_add]
    have alike := (s.now n.val).landAll_alike
    refine ⟨_, rfl, left.pc.trans (word 1 (by decide)), ?_, fun i => (left.gs i).trans (word _ (by omega)), left.base,
      left.limits.1.trans (word 4 (by decide)), left.limits.2.trans (word 5 (by decide)), ?_, ?_, fregs, rest⟩
    · rw [left.status, word 0 (by decide), alike.cr 0 (by decide)]
    · rw [left.level, alike.cr 0x24 (by decide)]
    · rw [left.frames, CoreCtx.landAll_frames]

end Sys2Proof.Machine
end

section
/-!
The turn of a mailbox command (R380, R384, R385).
-/
set_option Elab.async false
namespace Sys2Proof.Machine
open Sys2Proof

/-! ### The turn of a mailbox command (R380, R384, R385) -/

/-- Every mailbox command does its work where its request has its turn, is in time and has a length that it takes. -/
theorem mailboxCommand_run {c : Instr} {mb : Fin 1024} {code : Nat} {lens : Nat → Bool} (h : mailboxCommand c = some (mb, code, lens)) :
    ∃ act, ∀ s, exec c s = .next (s.mbRun mb.val code lens act) := by
  unfold mailboxCommand at h
  split at h
  case h_53 => simp at h
  all_goals
    obtain ⟨rfl, rfl, rfl⟩ : _ ∧ _ ∧ _ := by simpa only [Option.some.injEq, Prod.mk.injEq] using h
    exact ⟨_, fun s => rfl⟩

section
variable {s : State} {mb : Fin 1024} {code : Nat} {lens : Nat → Bool} {act : MbRequest → State → State} {r : MbRequest}

theorem State.mbRun_idle (h : s.mbServed mb.val = false ∨ ∀ r ∈ s.mp.requests, r.mb = mb.val → r.code = code → s.mbTurn r = false) :
    s.mbRun mb.val code lens act = s := by
  unfold State.mbRun
  by_cases served : s.mbServed mb.val = true
  · have waits := h.resolve_left (by simp [served])
    have absent : s.mp.requests.find? (fun r => r.mb == mb.val && r.code == code && s.mbTurn r) = none := by
      refine List.find?_eq_none.mpr fun r mem turn => ?_
      simp only [Bool.and_eq_true, beq_iff_eq] at turn
      obtain ⟨⟨own, kind⟩, turn⟩ := turn
      exact absurd turn (by simp [waits r mem own kind])
    rw [served, absent]
    rfl
  · rw [if_pos (by simpa using served)]

theorem State.mbRun_expired (turn : s.MbTurn mb code r) (late : s.mbExpired r = true) :
    s.mbRun mb.val code lens act = s.mbFail r stExpired 0 := by
  obtain ⟨served, found⟩ := turn
  simp only [State.mbRun, served, found, late, Bool.not_true, Bool.false_eq_true, if_false, if_true]

theorem State.mbRun_badLength (turn : s.MbTurn mb code r) (inTime : s.mbExpired r = false)
    (length : lens (4 * r.payload.length) = false) : s.mbRun mb.val code lens act = s.mbFail r stBadLength 0 := by
  obtain ⟨served, found⟩ := turn
  simp only [State.mbRun, served, found, inTime, length, Bool.not_true, Bool.not_false, Bool.false_eq_true, if_false, if_true]

/-- A failed request waits with its response, and no other request has come. -/
theorem State.mbFail_answered {status : Nat} (failure : status ≠ stOk) (turn : s.MbTurn mb code r) :
    Answered r status 0#32 [] s (s.mbFail r status 0) ∧ SameBut [.regs, .scCount, .due, .pulses, .mp, .pow] s (s.mbFail r status 0) := by
  have mem := List.mem_of_find?_eq_some turn.2
  refine ⟨⟨State.failed_mem_mbFail failure s 0 mem, fun y hy => ?_⟩, (State.mbFail_sameBut failure s r 0).mono (by decide)⟩
  rw [State.mbFail_eq failure] at hy
  exact eq_or_mem_of_mem_replace (State.mbQuiet_requests_subset _ r.mb 32 hy)

end

/-- Settles O55: every mailbox command asks for the turn of its request, its deadline and its length in one way. -/
theorem mailboxCommandTurns : Obligations.MailboxCommandTurns := by
  refine ⟨?_, ?_, ?_⟩
  · intro c mb code lens s command idle
    obtain ⟨act, run⟩ := mailboxCommand_run command
    rw [run, State.mbRun_idle idle]
  · intro c mb code lens s r command turn late
    obtain ⟨act, run⟩ := mailboxCommand_run command
    obtain ⟨answered, same⟩ := State.mbFail_answered (status := stExpired) (by decide) turn
    exact ⟨_, (run s).trans (congrArg _ (State.mbRun_expired turn late)), answered, same⟩
  · intro c mb code lens s r command turn inTime length
    obtain ⟨act, run⟩ := mailboxCommand_run command
    obtain ⟨answered, same⟩ := State.mbFail_answered (status := stBadLength) (by decide) turn
    exact ⟨_, (run s).trans (congrArg _ (State.mbRun_badLength turn inTime length)), answered, same⟩

end Sys2Proof.Machine
end

section
/-!
The words of an exception frame (R319 to R322).
-/
set_option Elab.async false
namespace Sys2Proof.Machine
open Sys2Proof

/-! ### The words of an exception frame (R319 to R322) -/

theorem State.ramOf_aligned {s : State} {n : Fin 8} {a g : Nat} (ram : s.ramOf n a = some g) (aligned : a % 4 = 0) : g % 4 = 0 := by
  have shift := State.ramOf_shift ram
  omega

/-- Two words of one frame lie apart in memory. -/
theorem State.frame_apart {s : State} {n : Fin 8} {base : Word} {i j g h : Nat} (hi : i < 35) (hj : j < 35) (ne : i ≠ j)
    (first : s.ramOf n (base + w32 (4 * i)).toNat = some g) (second : s.ramOf n (base + w32 (4 * j)).toNat = some h) :
    g + 4 ≤ h ∨ h + 4 ≤ g := by
  have shift := State.ramOf_shift first
  have shift' := State.ramOf_shift second
  have top := base.isLt
  simp only [w32, BitVec.toNat_add, BitVec.toNat_ofNat] at shift shift'
  omega

/-- What the words of a frame, each written to RAM, leave. -/
structure Pushed (n : Fin 8) (base : Word) (l : List (Nat × Word)) (s t : State) : Prop where
  words : ∀ x ∈ l, t.wordAt n (base + w32 (4 * x.1)).toNat = x.2
  core : t.coreNow n = s.coreNow n
  deferred : (t.coreRec n).deferred = (s.coreRec n).deferred
  fresh : s.leadCore n = n → (s.coreRec n).stale = [] → (t.coreRec n).stale = []
  bytes : ∀ a, (∀ x ∈ l, ∀ g, s.ramOf n (base + w32 (4 * x.1)).toNat = some g → a < g ∨ g + 4 ≤ a) → t.byte a = s.byte a
  marks : ∀ a, (∀ x ∈ l, s.ramOf n (base + w32 (4 * x.1)).toNat ≠ some (a / 4 * 4)) → t.eccMark a = s.eccMark a
  rest : SameBut [.cores, .mem, .ecc, .freeCtr] s t

theorem State.leadCore_congr {s t : State} (regs : t.regs = s.regs) (n : Nat) : t.leadCore n = s.leadCore n := by
  have locked : t.locked n = s.locked n := congrArg (bit · 30) (State.reg_congr regs _)
  rw [State.leadCore, State.leadCore, locked]

theorem State.wordAt_of_ramOf {s : State} {n : Fin 8} {a g : Nat} (ram : s.ramOf n a = some g) : s.wordAt n a = s.mword g := by
  rw [State.wordAt, ram]
  rfl

theorem State.pushFrame_good {n : Fin 8} {base : Word} : ∀ (l : List (Nat × Word)) (s : State), (l.map Prod.fst).Nodup →
    (∀ x ∈ l, x.1 < 35 ∧ ∃ g, s.ramOf n (base + w32 (4 * x.1)).toNat = some g ∧ (base + w32 (4 * x.1)).toNat % 4 = 0) →
    ∃ t, s.pushFrame n base l = (none, t) ∧ Pushed n base l s t
  | [], s, _, _ => ⟨s, rfl, by simp, rfl, rfl, fun _ f => f, fun _ _ => rfl, fun _ _ => rfl, .refl _ s⟩
  | (i, w) :: l, s, distinct, places => by
    obtain ⟨fresh, distinct⟩ := List.nodup_cons.mp distinct
    obtain ⟨small, g, ram, aligned⟩ := places (i, w) List.mem_cons_self
    obtain ⟨u, run, held⟩ := State.busWrite_good w ram (by decide) aligned (.inl rfl)
    have regs : u.regs = s.regs := held.rest .regs (by decide)
    have ramOf (a : Nat) : u.ramOf n a = s.ramOf n a := State.ramOf_congr regs (held.rest .paths (by decide)) n a
    obtain ⟨t, runs, pushed⟩ := State.pushFrame_good l u distinct fun x hx => by
      rw [ramOf]
      exact places x (List.mem_cons_of_mem _ hx)
    have ramOf' (a : Nat) : t.ramOf n a = u.ramOf n a :=
      State.ramOf_congr (pushed.rest .regs (by decide)) (pushed.rest .paths (by decide)) n a
    have next : s.pushFrame n base ((i, w) :: l) = (none, t) := by
      rw [State.pushFrame]
      simp only [run, runs]
    have apart (x : Nat × Word) (hx : x ∈ l) (h : Nat) (at' : u.ramOf n (base + w32 (4 * x.1)).toNat = some h) : g + 4 ≤ h ∨ h + 4 ≤ g :=
      State.frame_apart small (places x (List.mem_cons_of_mem _ hx)).1
        (fun same => fresh (List.mem_map.mpr ⟨x, hx, same.symm⟩)) ram (ramOf _ ▸ at')
    refine ⟨t, next, ⟨fun x hx => ?_, pushed.core.trans held.core, pushed.deferred.trans held.deferred, fun own clean => ?_, fun a outside => ?_,
      fun a outside => ?_, held.rest.trans pushed.rest⟩⟩
    · obtain rfl | later := List.mem_cons.mp hx
      · have kept : t.loadN g 4 = u.loadN g 4 := by
          refine State.loadN_bytes fun a low high => pushed.bytes a fun x hx h at' => ?_
          have sides := apart x hx h at'
          omega
        rw [State.wordAt_of_ramOf ((ramOf' _).trans ((ramOf _).trans ram)), State.mword, kept, held.value]
        exact BitVec.eq_of_toNat_eq (by simpa [w32] using w.isLt)
      · exact pushed.words x later
    · exact pushed.fresh ((State.leadCore_congr regs n).trans own) (held.fresh own clean)
    · rw [pushed.bytes a fun x hx h at' => outside x (List.mem_cons_of_mem _ hx) h (ramOf _ ▸ at')]
      exact held.bytes a (outside (i, w) List.mem_cons_self g ram)
    · rw [pushed.marks a fun x hx at' => outside x (List.mem_cons_of_mem _ hx) (ramOf _ ▸ at')]
      exact held.marks a fun same => outside (i, w) List.mem_cons_self (same ▸ ram)

end Sys2Proof.Machine
end

section
/-!
The frame that an exception writes (R321).
-/
set_option Elab.async false
namespace Sys2Proof.Machine
open Sys2Proof

/-! ### An exception is taken (R319 to R322, R324) -/

/-- Words of a frame from word `k` on, with their numbers. -/
def numbered (k : Nat) (x : List Word) : List (Nat × Word) := (List.range x.length).map (fun i => (k + i, x.getD i 0#32))

theorem numbered_mem {k i : Nat} {x : List Word} (h : i < x.length) : (k + i, x.getD i 0#32) ∈ numbered k x :=
  List.mem_map.mpr ⟨i, List.mem_range.mpr h, rfl⟩

theorem numbered_keys (k : Nat) (x : List Word) : (numbered k x).map Prod.fst = (List.range x.length).map (fun i => k + i) := by
  rw [numbered, List.map_map]
  rfl

/-- Words 0 to 13 of a frame. -/
def CoreCtx.frameHead (c : CoreCtx) (pc : Word) : List Word :=
  [c.crv 0, pc, c.crv 0x21, c.crv 0x22, c.crv 6, c.crv 5] ++ (List.range 7).map (fun i => c.gr (i + 1))
    ++ [w32 (at_ (b2n c.div.isSome) 8 + at_ (b2n c.fpu.isSome) 9 + at_ (b2n c.blk.isSome) 10 + (c.flight.take 6).length)]

theorem State.free_sameBut (s : State) : SameBut [.freeCtr] s s.free.2 :=
  Touch.sameBut (w := 0x80) State.free_touch

theorem State.entryWords_three (s : State) {o : Option (List Word)} (three : ∀ l, o = some l → l.length = 3) :
    (s.entryWords o).1.length = 3 ∧ SameBut [.freeCtr] s (s.entryWords o).2 := by
  cases o with
  | none => exact ⟨rfl, (s.free_sameBut.trans (State.free_sameBut _)).trans (State.free_sameBut _)⟩
  | some l => exact ⟨three l rfl, .refl _ s⟩

theorem State.frameWords_shape (s : State) (c : CoreCtx) (pc : Word) : ∃ m e : List Word,
    (s.frameWords c pc).1 = numbered 0 (c.frameHead pc) ++ numbered 14 m ++ numbered 26 e ∧ m.length ≤ 12 ∧ e.length = 9
      ∧ SameBut [.freeCtr] s (s.frameWords c pc).2 := by
  obtain ⟨d, s1, divs⟩ : ∃ d s1, s.entryWords (c.div.map (fun o => [o.word, o.a, o.b])) = (d, s1) := ⟨_, _, rfl⟩
  obtain ⟨x, s2, free⟩ : ∃ x s2, (if c.fpu.any (fun o => fld o.word 5 0 == 5) then s1.free else (0#32, s1)) = (x, s2) := ⟨_, _, rfl⟩
  obtain ⟨f, s3, fpus⟩ : ∃ f s3, s2.entryWords (c.fpu.map (fun o => [o.word, o.a, if fld o.word 5 0 = 5 then x else o.b])) = (f, s3) :=
    ⟨_, _, rfl⟩
  obtain ⟨b, s4, blks⟩ : ∃ b s4, s3.entryWords (c.blk.map (fun o => [o.word, o.base, o.mask])) = (b, s4) := ⟨_, _, rfl⟩
  have words : s.frameWords c pc
      = (numbered 0 (c.frameHead pc) ++ numbered 14 ((c.flight.take 6).map (fun x => [x.descriptor, x.value])).flatten ++ numbered 26 (d ++ f ++ b), s4) := by
    unfold State.frameWords
    simp only [divs, free, fpus, blks]
    rfl
  have three1 := s.entryWords_three (o := c.div.map (fun o => [o.word, o.a, o.b])) (by rintro l h; obtain ⟨o, -, rfl⟩ := Option.map_eq_some_iff.mp h; rfl)
  have three2 := s2.entryWords_three (o := c.fpu.map (fun o => [o.word, o.a, if fld o.word 5 0 = 5 then x else o.b]))
    (by rintro l h; obtain ⟨o, -, rfl⟩ := Option.map_eq_some_iff.mp h; rfl)
  have three3 := s3.entryWords_three (o := c.blk.map (fun o => [o.word, o.base, o.mask]))
    (by rintro l h; obtain ⟨o, -, rfl⟩ := Option.map_eq_some_iff.mp h; rfl)
  have moved : SameBut [.freeCtr] s1 s2 := by
    split at free
    · exact (Prod.mk.inj free).2 ▸ s1.free_sameBut
    · exact (Prod.mk.inj free).2 ▸ .refl _ s1
  rw [divs] at three1
  rw [fpus] at three2
  rw [blks] at three3
  rw [words]
  refine ⟨_, _, rfl, ?_, ?_, ((three1.2.trans moved).trans three2.2).trans three3.2⟩
  · have few : (c.flight.take 6).length ≤ 6 := by simp
    simp only [List.length_flatten, List.map_map, Function.comp_def, List.length_cons, List.length_nil, List.map_const', List.sum_replicate,
      smul_eq_mul]
    omega
  · simp only [List.length_append, three1.1, three2.1, three3.1]

/-- The numbers of the words of a frame: each once, all below 35. -/
theorem frame_keys {h m e : List Word} (hh : h.length = 14) (hm : m.length ≤ 12) (he : e.length = 9) :
    ((numbered 0 h ++ numbered 14 m ++ numbered 26 e).map Prod.fst).Nodup ∧ ∀ x ∈ numbered 0 h ++ numbered 14 m ++ numbered 26 e, x.1 < 35 := by
  have key {k : Nat} {l : List Word} {x : Nat × Word} (hx : x ∈ numbered k l) : k ≤ x.1 ∧ x.1 < k + l.length := by
    obtain ⟨i, hi, rfl⟩ := List.mem_map.mp hx
    have := List.mem_range.mp hi
    dsimp only
    omega
  have once (k : Nat) (l : List Word) : ((numbered k l).map Prod.fst).Nodup := by
    rw [numbered_keys]
    exact List.nodup_range.map fun _ _ same => by simpa using same
  constructor
  · rw [List.map_append, List.map_append]
    refine ((once 0 h).append (once 14 m) ?_).append (once 26 e) ?_
    · intro a ha hb
      obtain ⟨x, hx, rfl⟩ := List.mem_map.mp ha
      obtain ⟨y, hy, same⟩ := List.mem_map.mp hb
      have := key hx
      have := key hy
      omega
    · intro a ha hb
      rw [← List.map_append] at ha
      obtain ⟨x, hx, rfl⟩ := List.mem_map.mp ha
      obtain ⟨y, hy, same⟩ := List.mem_map.mp hb
      have := (List.mem_append.mp hx).imp key key
      have := key hy
      omega
  · intro x hx
    have place := (List.mem_append.mp hx).imp (fun hx => (List.mem_append.mp hx).imp key key) key
    omega

end Sys2Proof.Machine
end

section
/-!
An exception is taken (R319 to R325).
-/
set_option Elab.async false
namespace Sys2Proof.Machine
open Sys2Proof

/-! ### What the handler finds (R319) -/

/-- The context in which the handler starts. -/
structure CoreCtx.Handles (c : CoreCtx) (base v xcause xaddr : Word) (h : CoreCtx) : Prop where
  pc : h.pc = v
  top : h.gr 30 = base
  frames : h.frames = base :: c.frames
  flight : h.flight = []
  idle : h.div = none ∧ h.fpu = none ∧ h.blk = none
  sup : h.sup = true
  fps : h.fps = false
  lockout : h.lockout = c.lockout
  xcause : h.crv 0x21 = xcause
  xaddr : h.crv 0x22 = xaddr
  level : h.crv 0x24 = w32 (satTo 0xFFFF ((c.crv 0x24).toNat + 1))

theorem CoreCtx.entered_handles (c : CoreCtx) (base v xcause xaddr : Word) : c.Handles base v xcause xaddr (c.entered base v xcause xaddr) := by
  have crv (k : Nat) : (c.entered base v xcause xaddr).crv k = if k = 0x24 then w32 (satTo 0xFFFF ((c.crv 0x24).toNat + 1))
      else if k = 0x22 then xaddr else if k = 0x21 then xcause
      else if k = 0 then setFld (setBit (setBit (c.crv 0) 31 true) 29 false) 13 8 0 else c.crv k := by
    unfold CoreCtx.entered
    rw [CoreCtx.crv_put]
    simp only [CoreCtx.crv_setCr]
    rfl
  have status (i : Nat) (h : i < 32) : bit ((c.entered base v xcause xaddr).crv 0) i
      = bit (setFld (setBit (setBit (c.crv 0) 31 true) 29 false) 13 8 0) i := by rw [crv]; rfl
  refine ⟨rfl, ?_, rfl, rfl, ⟨rfl, rfl, rfl⟩, ?_, ?_, ?_, by rw [crv]; rfl, by rw [crv]; rfl, by rw [crv]; rfl⟩
  · exact (CoreCtx.gr_put_g _ _ _ (by decide)).trans (if_pos rfl)
  · refine (status 31 (by decide)).trans ?_
    simp [bit_setFld, bit_setBit]
  · refine (status 29 (by decide)).trans ?_
    simp [bit_setFld]
  · refine (status 30 (by decide)).trans ?_
    simp [bit_setFld, bit_setBit]
    rfl

/-! ### An exception is taken (R319 to R322, R324) -/

theorem State.leadCore_of_ready {s : State} {n : Nat} (ready : s.coreReady n = true) : s.leadCore n = n := by
  have lower : s.upperLocked n = false := by
    have parts := ready
    simp only [State.coreReady, Bool.and_eq_true, Bool.not_eq_true'] at parts
    exact parts.2
  unfold State.upperLocked at lower
  unfold State.leadCore
  split
  next locked =>
    simp only [locked, Bool.and_true, beq_eq_false_iff_ne] at lower
    omega
  next => rfl

section
variable {s : State} {n : Fin 8} {c : CoreCtx} {cause : Nat} {v : Word}

/-- What the words of the frame leave of the vector. -/
theorem State.CanEnter.vector_kept (can : s.CanEnter n c cause v) {l : List (Nat × Word)} {u : State} (small : ∀ x ∈ l, x.1 < 35)
    (pushed : Pushed n (c.gr 30 - 272#32) l s u) (own : s.leadCore n = n) :
    u.coreRead n (c.crv 0x20 + w32 (4 * cause)).toNat 4 = (.data v, u) := by
  obtain ⟨aligned, g, ram, mark⟩ := State.goodWord_iff.mp can.vector
  have divides := State.ramOf_aligned ram aligned
  have regs : u.regs = s.regs := pushed.rest .regs (by decide)
  have ramOf (a : Nat) : u.ramOf n a = s.ramOf n a := State.ramOf_congr regs (pushed.rest .paths (by decide)) n a
  have other (x : Nat × Word) (hx : x ∈ l) : s.ramOf n (c.gr 30 - 272#32 + w32 (4 * x.1)).toNat ≠ some g :=
    fun same => can.apart ⟨x.1, small x hx⟩ (same.trans ram.symm)
  have good : u.goodWord n (c.crv 0x20 + w32 (4 * cause)).toNat = true := by
    refine State.goodWord_iff.mpr ⟨aligned, g, (ramOf _).trans ram, ?_⟩
    rw [pushed.marks g fun x hx => by rw [show g / 4 * 4 = g by omega]; exact other x hx, mark]
  have value : u.wordAt n (c.crv 0x20 + w32 (4 * cause)).toNat = v := by
    have kept : u.loadN g 4 = s.loadN g 4 := by
      refine State.loadN_bytes fun a low high => pushed.bytes a fun x hx h at' => ?_
      have place := can.room ⟨x.1, small x hx⟩
      have even := State.ramOf_aligned at' (State.goodWord_iff.mp place).1
      have ne : h ≠ g := fun same => other x hx (same ▸ at')
      omega
    rw [← can.value, State.wordAt_of_ramOf ram, State.wordAt_of_ramOf ((ramOf _).trans ram), State.mword, State.mword, kept]
  rw [State.coreRead_word good (pushed.fresh own can.fresh), value]

theorem State.goodWord_congr {s t : State} (regs : t.regs = s.regs) (paths : t.paths = s.paths) (ecc : t.ecc = s.ecc) (n : Fin 8) (a : Nat) :
    t.goodWord n a = s.goodWord n a := by
  have marks : t.eccMark = s.eccMark := funext fun b => State.eccMark_congr ecc b
  rw [State.goodWord, State.goodWord, State.ramOf_congr regs paths, marks]

theorem State.CanEnter.congr (can : s.CanEnter n c cause v) {t : State} (regs : t.regs = s.regs) (paths : t.paths = s.paths)
    (ecc : t.ecc = s.ecc) (mem : t.mem = s.mem) (fresh : (t.coreRec n).stale = []) : t.CanEnter n c cause v := by
  have ramOf (a : Nat) := State.ramOf_congr regs paths n a
  have good (a : Nat) := State.goodWord_congr regs paths ecc n a
  refine ⟨can.limit, fun i => (good _).trans (can.room i), (good _).trans can.vector, fun i same => can.apart i ?_, ?_, can.even, fresh⟩
  · rwa [ramOf, ramOf] at same
  · rw [← can.value, State.wordAt, State.wordAt, ramOf, State.mword, State.mword, State.loadN_congr mem]

/-- The frame of an exception is written, and the vector stands. -/
theorem State.CanEnter.frames (can : s.CanEnter n c cause v) (own : s.leadCore n = n) (pc : Word) :
    ∃ u, (s.frameWords c pc).2.pushFrame n (c.gr 30 - 272#32) (s.frameWords c pc).1 = (none, u)
      ∧ (∀ i < 14, u.wordAt n (c.gr 30 - 272#32 + w32 (4 * i)).toNat = (c.frameHead pc).getD i 0#32)
      ∧ u.coreRead n (c.crv 0x20 + w32 (4 * cause)).toNat 4 = (.data v, u)
      ∧ (u.coreRec n).deferred = (s.coreRec n).deferred ∧ SameBut [.cores, .mem, .ecc, .freeCtr] s u := by
  obtain ⟨m, e, words, hm, he, moved⟩ := s.frameWords_shape c pc
  have held := can.congr (t := (s.frameWords c pc).2) (moved .regs (by decide)) (moved .paths (by decide)) (moved .ecc (by decide))
    (moved .mem (by decide)) ((congrArg CoreRec.stale (State.coreRec_congr (moved .cores (by decide)) n)).trans can.fresh)
  have own' : (s.frameWords c pc).2.leadCore n = n := (State.leadCore_congr (moved .regs (by decide)) n).trans own
  have noted : ((s.frameWords c pc).2.coreRec n).deferred = (s.coreRec n).deferred :=
    congrArg CoreRec.deferred (State.coreRec_congr (moved .cores (by decide)) n)
  generalize (s.frameWords c pc).2 = f at *
  obtain ⟨once, small⟩ := frame_keys (h := c.frameHead pc) rfl hm he
  rw [← words] at once small
  obtain ⟨u, run, pushed⟩ := State.pushFrame_good (s.frameWords c pc).1 f once fun x hx => by
    obtain ⟨aligned, g, ram, -⟩ := State.goodWord_iff.mp (held.room ⟨x.1, small x hx⟩)
    exact ⟨small x hx, g, ram, aligned⟩
  refine ⟨u, run, fun i hi => ?_, held.vector_kept small pushed own', pushed.deferred.trans noted, (moved.mono (by decide)).trans pushed.rest⟩
  have mem : (0 + i, (c.frameHead pc).getD i 0#32) ∈ (s.frameWords c pc).1 := by
    rw [words]
    exact List.mem_append_left _ (List.mem_append_left _ (numbered_mem hi))
  simpa using pushed.words _ mem

/-- A core takes an exception. -/
theorem State.CanEnter.enters (can : s.CanEnter n c cause v) (own : s.leadCore n = n) (alone : (s.coreRec n).pair = none)
    (idle : (s.core n).blk = none) (core : (s.core n).betweenCycles = c) (xaddr : Word) (imm : Nat) (deferred : Bool) (ret : Option Word) :
    State.Entered n c cause xaddr imm deferred (ret.getD c.pc) v (s.takeException n cause xaddr imm deferred ret)
      ∧ SameBut [.cores, .mem, .ecc, .freeCtr] s (s.takeException n cause xaddr imm deferred ret)
      ∧ ((s.takeException n cause xaddr imm deferred ret).coreRec n).deferred = (s.coreRec n).deferred := by
  have parked : s.parkCore n = s.setCore n c := by rw [State.parkCore_eq alone idle, core]
  have held : (s.setCore n c).CanEnter n c cause v := can.congr rfl rfl rfl rfl (by rw [State.stale_setCore, can.fresh])
  obtain ⟨u, run, words, vector, noted, rest⟩ := held.frames own (ret.getD c.pc)
  have taken : s.takeException n cause xaddr imm deferred ret
      = u.setCore n (c.entered (c.gr 30 - 272#32) v (w32 (at_ (b2n deferred) 31 + at_ imm 8 + cause)) xaddr) := by
    have even : ¬ (v.toNat % 4 ≠ 0) := by simpa using can.even
    unfold State.takeException
    simp only [parked, State.core_setCore, can.limit, Bool.false_eq_true, if_false, run, vector, if_neg even]
  have handles := c.entered_handles (c.gr 30 - 272#32) v (w32 (at_ (b2n deferred) 31 + at_ imm 8 + cause)) xaddr
  rw [taken]
  refine ⟨?_, ((s.setCore_sameBut n c).mono (by decide)).trans (rest.trans ((u.setCore_sameBut n _).mono (by decide))), ?_⟩
  · have gs (i : Fin 7) : (c.frameHead (ret.getD c.pc)).getD (6 + i.val) 0#32 = c.gr (i.val + 1) := by fin_cases i <;> rfl
    rw [State.Entered]
    dsimp only
    rw [State.core_setCore]
    obtain ⟨pc, base, frames, flight, ⟨div, fpu, blk⟩, sup, fps, lockout, xc, xa, level⟩ := handles
    exact ⟨words 0 (by decide), words 1 (by decide), words 2 (by decide), words 3 (by decide), words 4 (by decide), words 5 (by decide),
      fun i => (words (6 + i) (by omega)).trans (gs i), pc, base, frames, flight, div, fpu, blk, sup, fps, lockout, xc, xa, level⟩
  · rw [State.deferred_setCore, noted, State.deferred_setCore]

end

end Sys2Proof.Machine
end

section
/-!
Faults at issue, safe halt, and exception entry (R315, R317, R325).
-/
set_option Elab.async false
namespace Sys2Proof.Machine
open Sys2Proof

/-! ### Faults at issue (R315, R317) -/

section
variable {s : State} {n : Nat} (h : s.Issues n)
include h

theorem State.Issues.approach_illegal {o : CoreOp} (illegal : o.illegal = true) : s.approach n (fun _ => o) false = .fault ⟨1, o.word, false⟩ s := by
  rw [h.approach_eq, State.check, if_pos illegal]

theorem State.Issues.approach_privileged {o : CoreOp} (legal : o.illegal = false) (sup : o.sup = true) (task : (s.core n).sup = false) :
    s.approach n (fun _ => o) false = .fault ⟨4, o.word, false⟩ s := by
  rw [h.approach_eq, State.check, legal, sup, task]
  rfl

theorem State.Issues.issue_fault {o : CoreOp} {run : CoreCtx → Except CoreFault CoreOut} {f : CoreFault}
    (fault : s.approach n (fun _ => o) false = .fault f s) : s.issue n (fun _ => o) run = s.raiseFault n f := by
  simp only [State.issue, h.ready, Bool.not_true, Bool.false_eq_true, if_false, h.joins_eq, fault]

theorem State.Issues.issue_error {o : CoreOp} {run : CoreCtx → Except CoreFault CoreOut} {f : CoreFault} (plain : s.Plain n o)
    (error : run (s.now n) = .error f) : s.issue n (fun _ => o) run = s.raiseFault n f := by
  have preview : s.preview n false = s.now n := rfl
  simp only [State.issue, h.ready, Bool.not_true, Bool.false_eq_true, if_false, h.joins_eq, h.approach_go plain, preview, error]

end

/-- A fault at issue takes its exception. -/
theorem State.Issues.faults {s : State} {n : Fin 8} (h : s.Issues n) {cause : Nat} {addr v : Word} {c : CoreCtx}
    (core : (s.core n).betweenCycles = c) (can : s.CanEnter n c cause v) :
    State.Entered n c cause addr 0 false c.pc v (s.raiseFault n ⟨cause, addr, false⟩)
      ∧ SameBut [.cores, .mem, .ecc, .freeCtr] s (s.raiseFault n ⟨cause, addr, false⟩) := by
  obtain ⟨entered, rest, -⟩ := can.enters (State.leadCore_of_ready h.ready) h.alone h.blk core addr 0 false none
  exact ⟨entered, rest⟩

theorem exec_trap {s : State} {n : Fin 8} (h : s.Issues n) (p : Bool) (imm : BitVec 8) :
    exec (.trap n p imm) s
      = .next ((s.setCore n (s.now n)).takeException n 7 0#32 imm.toNat false (some ((s.now n).pc + 4#32))) := by
  have run := h.issueSys_eq (o := sysOp (encS p 0 0 imm.toNat 8) [] [] false false false) (s.plain_of_g n rfl rfl rfl)
    (fun t => t.takeException n 7 0#32 imm.toNat false (some ((t.core n).pc + 4#32)))
  rw [State.core_setCore] at run
  exact congrArg Host.Outcome.next run

theorem trap_enters {s : State} {n : Fin 8} (h : s.Issues n) (p : Bool) (imm : BitVec 8) {v : Word}
    (can : s.CanEnter n (s.now n).betweenCycles 7 v) :
    ∃ t, exec (.trap n p imm) s = .next t
      ∧ State.Entered n (s.now n).betweenCycles 7 0#32 imm.toNat false ((s.now n).pc + 4#32) v t
      ∧ SameBut [.cores, .mem, .ecc, .freeCtr] s t := by
  have held : (s.setCore n (s.now n)).CanEnter n (s.now n).betweenCycles 7 v :=
    can.congr rfl rfl rfl rfl (by rw [State.stale_setCore, can.fresh])
  obtain ⟨entered, rest, -⟩ := held.enters (State.leadCore_of_ready h.ready) h.alone_now (by rw [State.core_setCore, h.now_blk])
    (by rw [State.core_setCore]) 0#32 imm.toNat false (some ((s.now n).pc + 4#32))
  exact ⟨_, exec_trap h p imm, entered, ((s.setCore_sameBut n _).mono (by decide)).trans rest⟩

theorem storeFaultDeferred_enters {s : State} {n : Fin 8} {a v : Word} {k : Nat} {l : List (Word × Nat)} (ready : s.coreReady n = true)
    (alone : (s.coreRec n).pair = none) (idle : (s.core n).blk = none) (waits : (s.coreRec n).deferred = (a, k) :: l)
    (can : s.CanEnter n (s.core n).betweenCycles k v) :
    ∃ t, exec (.storeFaultDeferred n) s = .next t
      ∧ State.Entered n (s.core n).betweenCycles k a 0 true (s.core n).betweenCycles.pc v t
      ∧ SameBut [.cores, .mem, .ecc, .freeCtr] s t ∧ (t.coreRec n).deferred = l := by
  have run : exec (.storeFaultDeferred n) s
      = .next ((s.setCoreRec n { s.coreRec n with deferred := l }).takeException n k a 0 true none) := by
    have taken : s.takeDeferred n = (s.setCoreRec n { s.coreRec n with deferred := l }).takeException n k a 0 true none := by
      simp only [State.takeDeferred, waits]
    exact congrArg Host.Outcome.next ((if_pos ready).trans taken)
  have moved := s.setCoreRec_sameBut n { s.coreRec n with deferred := l }
  have core : (s.setCoreRec n { s.coreRec n with deferred := l }).core n = s.core n := State.core_setCoreRec_slots _ _ rfl
  have stored : (s.setCoreRec n { s.coreRec n with deferred := l }).coreRec n = { s.coreRec n with deferred := l } := by
    rw [State.coreRec_setCoreRec, if_pos rfl]
  have held : (s.setCoreRec n { s.coreRec n with deferred := l }).CanEnter n (s.core n).betweenCycles k v :=
    can.congr rfl rfl rfl rfl (by rw [stored]; exact can.fresh)
  obtain ⟨entered, rest, noted⟩ := held.enters (State.leadCore_of_ready ready) (by rw [stored]; exact alone) (by rw [core]; exact idle)
    (by rw [core]) a 0 true none
  exact ⟨_, run, entered, (moved.mono (by decide)).trans rest, noted.trans (by rw [stored])⟩

/-! ### Safe halt (R325) -/

/-- The registers that the hold of a unit writes. -/
def heldUnitReg (a : Nat) : Prop := ∃ n k, n < 16 ∧ k < 4 ∧ holdReg n k a

theorem mem_allUnits_lt {u : Nat × Nat} (h : u ∈ allUnits) : u.1 < 16 ∧ u.2 < 4 := by
  obtain ⟨i, hi, rfl⟩ := List.mem_map.mp h
  have := List.mem_range.mp hi
  constructor <;> dsimp only <;> omega

/-- A core in safe halt, before the units that it owns are held. -/
def State.halted (s : State) (n cause : Nat) (pc : Word) : State :=
  (((s.setCoreRun n 4).flag (R.CC_STATUS n) 0).setReg (R.SCH_HALT_INFO n) (w32 cause)).setReg (R.SCH_HALT_PC n) pc

/-- A unit that core `n` takes down with it. -/
def State.unitHalted (s : State) (n : Nat) (u : Nat × Nat) : State :=
  (s.setTu u.1 u.2 { s.tu u.1 u.2 with causes := (16 + n) :: (s.tu u.1 u.2).causes.filter (fun c => c != 16 + n) }).sysHold u.1 u.2 19

/-- The units that core `n` owns, held where SCH_CTRL asks for it. -/
def State.haltHolds (s : State) (n : Nat) : State :=
  if s.rb (R.SCH_CTRL n) 30 then (s.ownedUnits n).foldl (fun t u => t.unitHalted n u) s else s

theorem State.safeHalt_eq {s : State} {n cause : Nat} (alone : (s.coreRec n).pair = none) (other : cause ≠ 4) :
    s.safeHalt n cause = (((s.halted n cause (s.core n).pc).fireCentral (576 + n)).report (0x100 + n) (0x100 + n) 0x09 (s.core n).pc).haltHolds n := by
  have together : s.unpair n = s := by simp only [State.unpair, alone]
  have marked : (if cause = 4 then ((s.halted n cause (s.core n).pc).fireCentral (576 + n)).report (0x100 + n) (0x100 + n) 0x08 0#32
      else ((s.halted n cause (s.core n).pc).fireCentral (576 + n)).report (0x100 + n) (0x100 + n) 0x09 (s.core n).pc)
      = ((s.halted n cause (s.core n).pc).fireCentral (576 + n)).report (0x100 + n) (0x100 + n) 0x09 (s.core n).pc := if_neg other
  rw [← marked]
  unfold State.safeHalt
  rw [together]
  rfl

theorem State.haltHolds_regsIn (s : State) (n : Nat) : RegsIn heldUnitReg s (s.haltHolds n) := by
  refine .ite (RegsIn.foldl _ s fun u hu t => ?_) (.refl _ s)
  obtain ⟨island, unit⟩ := mem_allUnits_lt (List.mem_filter.mp hu).1
  exact RegsIn.trans (.of_regs rfl _) ((State.sysHold_regsIn _ u.1 u.2 19).mono fun a h => ⟨u.1, u.2, island, unit, h⟩)

theorem State.safeHalt_regs {s : State} {n cause : Nat} (alone : (s.coreRec n).pair = none) (other : cause ≠ 4) :
    RegsIn heldUnitReg (s.halted n cause (s.core n).pc) (s.safeHalt n cause) := by
  have told : Touch 0x100000000001 (s.halted n cause (s.core n).pc)
      (((s.halted n cause (s.core n).pc).fireCentral (576 + n)).report (0x100 + n) (0x100 + n) 0x09 (s.core n).pc) :=
    Touch.of State.fireCentral_touch |>.then State.report_touch
  rw [State.safeHalt_eq alone other]
  exact (told.regsIn _).trans (State.haltHolds_regsIn _ n)

theorem not_heldUnitReg (n : Fin 8) : ¬ heldUnitReg (R.CC_STATE n) ∧ ¬ heldUnitReg (R.CC_STATUS n) ∧ ¬ heldUnitReg (R.SCH_HALT_INFO n)
    ∧ ¬ heldUnitReg (R.SCH_HALT_PC n) := by
  have bound := n.isLt
  refine ⟨?_, ?_, ?_, ?_⟩ <;>
  · rintro ⟨i, k, hi, hk, h | h | ⟨e, q, he, hq, h⟩⟩ <;>
      simp only [R.CC_STATE, R.CC_STATUS, R.SCH_HALT_INFO, R.SCH_HALT_PC, R.TU_STATUS, R.TU_TRIP_STATE, R.EQ_STATUS] at h <;> omega

/-- What a core in safe halt shows. -/
theorem State.halted_shows (s : State) (n : Fin 8) (cause : Nat) (pc : Word) :
    (s.halted n cause pc).coreRun n = 4 ∧ (s.halted n cause pc).reg (R.SCH_HALT_INFO n) = w32 cause
      ∧ (s.halted n cause pc).reg (R.SCH_HALT_PC n) = pc ∧ (s.halted n cause pc).rb (R.CC_STATUS n) 0 = true := by
  have bound := n.isLt
  have run : (s.setCoreRun n 4).coreRun n = 4 := s.rf_setRf_self (by decide) (by decide)
  have status : ((s.setCoreRun n 4).flag (R.CC_STATUS n) 0).rb (R.CC_STATUS n) 0 = true := State.rb_flag_self _ _ _ (by decide)
  have kept : RegsSet [R.CC_STATUS n] (s.setCoreRun n 4) ((s.setCoreRun n 4).flag (R.CC_STATUS n) 0) := State.flag_regsSet _ _ _
  have state : R.CC_STATE n ∉ [R.CC_STATUS n] := by
    simp only [List.mem_singleton, R.CC_STATE, R.CC_STATUS]
    omega
  have flagged := (kept.regsBut _ state)
  unfold State.halted
  generalize (s.setCoreRun n 4).flag (R.CC_STATUS n) 0 = u at *
  have noted : RegsSet [R.SCH_HALT_INFO n, R.SCH_HALT_PC n] u ((u.setReg (R.SCH_HALT_INFO n) (w32 cause)).setReg (R.SCH_HALT_PC n) pc) :=
    RegsSet.trans ((State.setReg_regsSet _ _ _).mono (by simp)) ((State.setReg_regsSet _ _ _).mono (by simp))
  have apart : R.CC_STATE n ∉ [R.SCH_HALT_INFO n, R.SCH_HALT_PC n] ∧ R.CC_STATUS n ∉ [R.SCH_HALT_INFO n, R.SCH_HALT_PC n]
      ∧ R.SCH_HALT_INFO n ≠ R.SCH_HALT_PC n := by
    simp only [List.mem_cons, List.not_mem_nil, or_false, R.CC_STATE, R.CC_STATUS, R.SCH_HALT_INFO, R.SCH_HALT_PC]
    omega
  refine ⟨(congrArg (fld · 31 29) ((noted.regsBut _ apart.1).trans flagged)).trans run, ?_, (State.reg_setReg _ _ _ _).trans (if_pos rfl),
    (congrArg (bit · 0) (noted.regsBut _ apart.2.1)).trans status⟩
  exact (State.reg_setReg _ _ _ _).trans ((if_neg apart.2.2).trans ((State.reg_setReg _ _ _ _).trans (if_pos rfl)))

theorem trap_halts {s : State} {n : Fin 8} (h : s.Issues n) (p : Bool) (imm : BitVec 8)
    (breaks : (s.now n).betweenCycles.violates ((s.now n).betweenCycles.gr 30 - 272#32) = true) :
    ∃ t, exec (.trap n p imm) s = .next t
      ∧ t.coreRun n = 4 ∧ t.reg (R.SCH_HALT_INFO n) = 1#32 ∧ t.reg (R.SCH_HALT_PC n) = (s.now n).betweenCycles.pc
      ∧ t.rb (R.CC_STATUS n) 0 = true ∧ t.mem = s.mem := by
  have parked : (s.setCore n (s.now n)).parkCore n = (s.setCore n (s.now n)).setCore n (s.now n).betweenCycles := by
    rw [State.parkCore_eq h.alone_now (by rw [State.core_setCore, h.now_blk]), State.core_setCore]
  have run : exec (.trap n p imm) s = .next (((s.setCore n (s.now n)).setCore n (s.now n).betweenCycles).safeHalt n 1) := by
    rw [exec_trap h p imm]
    unfold State.takeException
    simp only [parked, State.core_setCore, breaks, if_true]
  have mem : ((s.setCore n (s.now n)).setCore n (s.now n).betweenCycles).mem = s.mem := rfl
  have core : ((s.setCore n (s.now n)).setCore n (s.now n).betweenCycles).core n = (s.now n).betweenCycles := State.core_setCore _ _ _
  have alone : (((s.setCore n (s.now n)).setCore n (s.now n).betweenCycles).coreRec n).pair = none := by
    rw [State.pair_setCore, State.pair_setCore, h.alone]
  generalize (s.setCore n (s.now n)).setCore n (s.now n).betweenCycles = u at *
  have regs := State.safeHalt_regs (cause := 1) alone (by decide)
  rw [core] at regs
  have kept : (u.safeHalt n 1).mem = u.mem := State.safeHalt_touch.same_part .mem
  obtain ⟨state, status, info, pc⟩ := not_heldUnitReg n
  obtain ⟨halts, noted, saved, shown⟩ := u.halted_shows n 1 (s.now n).betweenCycles.pc
  exact ⟨_, run, (regs.rf_eq state 31 29).trans halts, (regs.reg_eq info).trans noted, (regs.reg_eq pc).trans saved,
    (regs.rb_eq status 0).trans shown, kept.trans mem⟩

/-- Settles O48: every clause is an exception that its core can take, or the safe halt of one that it cannot. -/
theorem exceptionEntry : Obligations.ExceptionEntry := by
  refine ⟨fun n p imm v s h can => trap_enters h p imm can,
    fun n a k l v s ready alone idle waits can => storeFaultDeferred_enters ready alone idle waits can, ?_, ?_, ?_, ?_,
    fun n p imm s h breaks => trap_halts h p imm breaks⟩
  · intro n p v s h task can
    have run : exec (.icinvall n p) s = .next (s.raiseFault n ⟨4, encS p 0 0 0 6, false⟩) := by
      have fault := h.approach_privileged (o := sysOp (encS p 0 0 0 6) [] [] false true false) rfl rfl task
      refine congrArg Host.Outcome.next ?_
      simp only [State.issueSys, h.ready, Bool.not_true, Bool.false_eq_true, if_false, fault]
      rfl
    exact ⟨_, run, h.faults rfl can⟩
  · intro n p rd ra am size sign f v s h illegal can
    have run : exec (.ld n p rd ra am size sign f) s
        = .next (s.raiseFault n ⟨1, encM p 0xC rd.val ra.val am.val size.val sign f.toNat, false⟩) :=
      congrArg Host.Outcome.next (h.issue_fault (h.approach_illegal illegal))
    exact ⟨_, run, h.faults rfl can⟩
  · intro n p rd ra am size sign f v s h legal misaligned can
    have error : memRun ra.val am.val size.val f (fun _ a => .load (.g rd.val) a (mSize size.val) sign) (s.now n.val)
        = .error ⟨2, ((s.now n.val).address ra.val am.val size.val f).1, false⟩ := if_pos misaligned
    have run : exec (.ld n p rd ra am size sign f) s
        = .next (s.raiseFault n ⟨2, ((s.now n.val).address ra.val am.val size.val f).1, false⟩) :=
      congrArg Host.Outcome.next (h.issue_error (memOp_plain legal nofun) error)
    exact ⟨_, run, h.faults rfl can⟩
  · intro n p ra v s h misaligned can
    have error : (s.now n.val).jump ((s.now n.val).gr ra.val) = .error ⟨2, (s.now n.val).gr ra.val, false⟩ := if_pos misaligned
    have run : exec (.jr n p ra) s = .next (s.raiseFault n ⟨2, (s.now n.val).gr ra.val, false⟩) :=
      congrArg Host.Outcome.next (h.issue_error (s.plain_of_g n rfl rfl rfl) error)
    exact ⟨_, run, h.faults rfl can⟩

end Sys2Proof.Machine
end

section
/-!
Demodulator registers and sinc3 results (R211).
-/
set_option Elab.async false
namespace Sys2Proof.Machine
open Sys2Proof

/-! ### The registers of a demodulator -/

/-- Only registers of pennants at two places are pennant registers. -/
theorem pennantReg_of_outside {a : Nat} (h : ¬ (0x50010000 ≤ a ∧ a < 0x50014000))
    (k : ¬ (0x251000 ≤ a % 0x1000000 ∧ a % 0x1000000 < 0x251400)) : pennantReg a = false := by
  refine Bool.eq_false_iff.mpr fun mem => ?_
  simp only [pennantReg, Bool.or_eq_true, Bool.and_eq_true, decide_eq_true_eq] at mem
  omega

theorem pennantReg_SD (n d : Nat) (hd : d < 4) : pennantReg (R.SD_DATA n d) = false ∧ pennantReg (R.SD_STATE n d) = false
    ∧ pennantReg (R.SD_STATUS n d) = false := by
  unfold R.SD_DATA R.SD_STATE R.SD_STATUS
  refine ⟨?_, ?_, ?_⟩ <;> exact pennantReg_of_outside (by omega) (by omega)

/-- The sources of a demodulator belong to its owner. -/
theorem sourceOwner_sd {n d e : Nat} (hn : n < 16) (hd : d < 4) (he : e < 4) :
    sourceOwner (256 * n + (0xB0 + 4 * d + e)) = some (R.SD_OWNER n d) := by
  have island : (256 * n + (0xB0 + 4 * d + e)) / 256 = n := by omega
  have place : (256 * n + (0xB0 + 4 * d + e)) % 256 = 0xB0 + 4 * d + e := by omega
  have unit_ : (0xB0 + 4 * d + e - 0xB0) / 4 = d := by omega
  simp only [sourceOwner, island, place, unit_]
  rw [if_pos (by omega), if_neg (by omega), if_neg (by omega), if_neg (by omega), if_pos (by omega)]

/-- An event of a demodulator fires, whatever its result registers show by then. -/
theorem State.fireSd_fires {s u : State} {n d e : Nat} (hn : n < 16) (hd : d < 4) (he : e < 4)
    (regs : RegsSet [R.SD_DATA n d, R.SD_STATE n d, R.SD_STATUS n d] s u) (fab : u.fab = s.fab) (pulses : u.pulses = s.pulses) :
    Fires (256 * n + 0xB0 + 4 * d + e) s (u.fireSd n d e) := by
  have source : 256 * n + 0xB0 + 4 * d + e = 256 * n + (0xB0 + 4 * d + e) := by omega
  rw [source]
  obtain ⟨data, state, status⟩ := pennantReg_SD n d hd
  refine regs.fires (by simp [data, state, status]) (fun a ha => ?_) fab pulses
  rw [sourceOwner_sd hn hd he, Option.some.injEq] at ha
  subst ha
  simp only [R.SD_OWNER, R.SD_DATA, R.SD_STATE, R.SD_STATUS, List.mem_cons, List.not_mem_nil, or_false]
  omega

theorem State.fireSd_regs (s : State) (n d e a : Nat) : (s.fireSd n d e).reg a = s.reg a :=
  RegsSet.regsBut (l := []) (State.fireSd_touch.regsSet _) a List.not_mem_nil

theorem SD_STATE_ne (n d : Nat) : R.SD_STATE n d ≠ R.SD_STATUS n d ∧ R.SD_STATE n d ≠ R.SD_DATA n d
    ∧ R.SD_STATUS n d ≠ R.SD_DATA n d ∧ R.SD_FAST n d ≠ R.SD_STATE n d ∧ R.SD_FAST n d ≠ R.SD_STATUS n d := by
  unfold R.SD_STATE R.SD_STATUS R.SD_DATA R.SD_FAST
  omega

/-! ### A sinc3 result (R211) -/

section
variable (n d : Nat)

/-- The demodulator's registers before its result is shown: flag 1 where the last one was not read and CHECK says. -/
def State.sdOverrun (s : State) : State :=
  if s.rb (R.SD_STATE n d) 31 && s.rb (R.SD_CFG n d) 29 then s.flag (R.SD_STATUS n d) 1 else s

/-- The result as the registers show it. -/
def State.sdShown (s : State) (v : Word) (fresh : Bool) : State :=
  ((s.setReg (R.SD_DATA n d) v).setRf (R.SD_STATE n d) 15 0
    ((s.setReg (R.SD_DATA n d) v).rf (R.SD_STATE n d) 15 0 + 1)).setRb (R.SD_STATE n d) 31 fresh

theorem State.sinc3_eq (s : State) (raw : Word) : s.sinc3 n d raw =
    (((s.sdOverrun n d).latchDemod n d (raw.sshiftRight (s.rf (R.SD_CFG n d) 27 24))).2.sdShown n d
      (raw.sshiftRight (s.rf (R.SD_CFG n d) 27 24))
      (!((s.sdOverrun n d).latchDemod n d (raw.sshiftRight (s.rf (R.SD_CFG n d) 27 24))).1)).fireSd n d 0 := rfl

theorem State.sdOverrun_touch (s : State) : Touch 6 s (s.sdOverrun n d) := .ite (.of State.flag_touch) .refl

theorem State.sdOverrun_regsSet (s : State) : RegsSet [R.SD_STATUS n d] s (s.sdOverrun n d) :=
  .ite (s.flag_regsSet _ _) (.refl _ s)

theorem State.sdShown_touch (s : State) (v : Word) (fresh : Bool) : Touch 2 s (s.sdShown n d v fresh) :=
  Touch.of State.setReg_touch |>.then State.setRf_touch |>.then State.setRb_touch

theorem State.sdShown_regsSet (s : State) (v : Word) (fresh : Bool) :
    RegsSet [R.SD_DATA n d, R.SD_STATE n d] s (s.sdShown n d v fresh) :=
  .trans ((s.setReg_regsSet _ _).mono (by simp)) <|
    .trans ((State.setReg_regsSet _ _ _).mono (by simp)) ((State.setRb_regsSet _ _ _ _).mono (by simp))

theorem State.sdShown_data (s : State) (v : Word) (fresh : Bool) : (s.sdShown n d v fresh).reg (R.SD_DATA n d) = v := by
  have apart : R.SD_DATA n d ∉ [R.SD_STATE n d] := by simpa using (SD_STATE_ne n d).2.1.symm
  rw [State.sdShown, (State.setRb_regsSet _ _ _ _).regsBut _ apart]
  exact ((State.setReg_regsSet _ _ _).regsBut _ apart).trans ((State.reg_setReg _ _ _ _).trans (if_pos rfl))

theorem State.sdShown_count (s : State) (v : Word) (fresh : Bool) :
    (s.sdShown n d v fresh).rf (R.SD_STATE n d) 15 0 = (s.rf (R.SD_STATE n d) 15 0 + 1) % 65536 := by
  have before : (s.setReg (R.SD_DATA n d) v).rf (R.SD_STATE n d) 15 0 = s.rf (R.SD_STATE n d) 15 0 :=
    (s.setReg_regsSet _ _).rf_eq (by simpa using (SD_STATE_ne n d).2.1) _ _
  rw [State.sdShown, State.rf_setRb_of_outside _ (by omega) (by omega), State.rf_setRf, if_pos rfl,
    fld_setFld _ _ _ _ (by omega), before]
  rfl

end

section
variable (n : Fin 16) (d : Fin 4) (s : State)

theorem sinc3_effect (raw : Word) :
    (s.sinc3 n.val d.val raw).reg (R.SD_DATA n.val d.val) = raw.sshiftRight (s.rf (R.SD_CFG n.val d.val) 27 24)
    ∧ (s.sinc3 n.val d.val raw).rf (R.SD_STATE n.val d.val) 15 0 = (s.rf (R.SD_STATE n.val d.val) 15 0 + 1) % 65536
    ∧ (s.rb (R.SD_STATE n.val d.val) 31 = true → s.rb (R.SD_CFG n.val d.val) 29 = true →
        (s.sinc3 n.val d.val raw).rb (R.SD_STATUS n.val d.val) 1 = true)
    ∧ Fires (256 * n.val + 0xB0 + 4 * d.val) s (s.sinc3 n.val d.val raw)
    ∧ RegsBut [R.SD_DATA n.val d.val, R.SD_STATE n.val d.val, R.SD_STATUS n.val d.val] s (s.sinc3 n.val d.val raw)
    ∧ SameBut [.regs, .scCount, .les, .due, .pulses] s (s.sinc3 n.val d.val raw) := by
  obtain ⟨stateStatus, stateData, statusData, -, -⟩ := SD_STATE_ne n.val d.val
  rw [State.sinc3_eq]
  generalize raw.sshiftRight (s.rf (R.SD_CFG n.val d.val) 27 24) = v
  have o := s.sdOverrun_touch n.val d.val
  have oRegs := s.sdOverrun_regsSet n.val d.val
  have flagged (new : s.rb (R.SD_STATE n.val d.val) 31 = true) (check : s.rb (R.SD_CFG n.val d.val) 29 = true) :
      (s.sdOverrun n.val d.val).rb (R.SD_STATUS n.val d.val) 1 = true := by
    rw [State.sdOverrun, if_pos (by simp [new, check])]
    exact State.rb_flag_self _ _ _ (by decide)
  generalize s.sdOverrun n.val d.val = u at *
  have l := State.latchDemod_touch (s := u) (n := n.val) (d := d.val) (v := v)
  generalize u.latchDemod n.val d.val v = p at *
  obtain ⟨copied, w⟩ := p
  have lRegs : RegsSet [] u w := l.regsSet _
  have shown := w.sdShown_touch n.val d.val v (!copied)
  have shownRegs := w.sdShown_regsSet n.val d.val v (!copied)
  have data := w.sdShown_data n.val d.val v (!copied)
  have count := w.sdShown_count n.val d.val v (!copied)
  generalize w.sdShown n.val d.val v (!copied) = x at *
  have all : RegsSet [R.SD_DATA n.val d.val, R.SD_STATE n.val d.val, R.SD_STATUS n.val d.val] s x :=
    .trans (oRegs.mono (by simp)) (.trans (lRegs.mono (by simp)) (shownRegs.mono (by simp)))
  have fired : Touch 0x100000800007 s (x.fireSd n.val d.val 0) :=
    Touch.of o |>.then l |>.then shown |>.then State.fireSd_touch
  have upTo : Touch 0x800007 s x := Touch.of o |>.then l |>.then shown
  have before : w.rf (R.SD_STATE n.val d.val) 15 0 = s.rf (R.SD_STATE n.val d.val) 15 0 :=
    (lRegs.rf_eq (by simp) _ _).trans (oRegs.rf_eq (by simpa using stateStatus) _ _)
  refine ⟨?_, ?_, fun new check => ?_, ?_, ?_, fired.sameBut⟩
  · rw [State.fireSd_regs]
    exact data
  · rw [State.rf, State.fireSd_regs, ← before]
    exact count
  · rw [State.rb, State.fireSd_regs]
    refine (shownRegs.rb_eq (by simpa using ⟨statusData, stateStatus.symm⟩) 1).trans ?_
    exact (lRegs.rb_eq (by simp) 1).trans (flagged new check)
  · exact State.fireSd_fires (e := 0) n.isLt d.isLt (by decide) all
      (upTo.same_part .fab) (upTo.same_part .pulses)
  · exact RegsSet.regsBut (all.trans (State.fireSd_touch.regsSet _))

end

end Sys2Proof.Machine
end

section
/-!
Sinc2 results and reads of SD_DATA (R211, R213).
-/
set_option Elab.async false
namespace Sys2Proof.Machine
open Sys2Proof

/-! ### A sinc2 result (R213) -/

section
variable (n d : Nat)

def sdAbove (oc raw : Word) : Bool := decide (sextN 16 (fld oc 31 16) < sInt raw)

def sdBelow (oc raw : Word) : Bool := decide (sInt raw < sextN 16 (fld oc 15 0))

/-- The result and its comparison as the registers show them. -/
def State.fastShown (s : State) (raw : Word) (hi lo : Bool) : State :=
  ((s.setReg (R.SD_FAST n d) raw).setRb (R.SD_STATE n d) 30 hi).setRb (R.SD_STATE n d) 29 lo

/-- Flag 2 and the events of a result outside its limits. -/
def State.fastTold (s : State) (hi lo : Bool) : State :=
  let t := if hi || lo then s.flag (R.SD_STATUS n d) 2 else s
  let t := if hi then t.fireSd n d 1 else t
  if lo then t.fireSd n d 2 else t

theorem State.sinc2_eq (s : State) (raw : Word) : s.sinc2 n d raw =
    (s.fastShown n d raw (sdAbove (s.reg (R.SD_OC n d)) raw) (sdBelow (s.reg (R.SD_OC n d)) raw)).fastTold n d
      (sdAbove (s.reg (R.SD_OC n d)) raw) (sdBelow (s.reg (R.SD_OC n d)) raw) := rfl

theorem State.fastShown_touch (s : State) (raw : Word) (hi lo : Bool) : Touch 2 s (s.fastShown n d raw hi lo) :=
  Touch.of State.setReg_touch |>.then State.setRb_touch |>.then State.setRb_touch

theorem State.fastShown_regsSet (s : State) (raw : Word) (hi lo : Bool) :
    RegsSet [R.SD_FAST n d, R.SD_STATE n d] s (s.fastShown n d raw hi lo) :=
  .trans ((s.setReg_regsSet _ _).mono (by simp)) <|
    .trans ((State.setRb_regsSet _ _ _ _).mono (by simp)) ((State.setRb_regsSet _ _ _ _).mono (by simp))

theorem State.fastTold_touch (s : State) (hi lo : Bool) : Touch 0x100000000007 s (s.fastTold n d hi lo) :=
  have flagged : Touch 0x100000000007 s (if hi || lo then s.flag (R.SD_STATUS n d) 2 else s) :=
    .ite (.of State.flag_touch) .refl
  have above := flagged.trans (.ite (.of State.fireSd_touch) .refl :
    Touch 0x100000000007 _ (if hi then (if hi || lo then s.flag (R.SD_STATUS n d) 2 else s).fireSd n d 1 else _))
  above.trans (.ite (.of State.fireSd_touch) .refl)

/-- What the events leave of the registers. -/
theorem State.fastTold_reg (s : State) (hi lo : Bool) (a : Nat) : (s.fastTold n d hi lo).reg a =
    (if hi || lo then s.flag (R.SD_STATUS n d) 2 else s).reg a := by
  unfold State.fastTold
  cases hi <;> cases lo <;> simp [State.fireSd_regs]

theorem State.fastTold_regsBut (s : State) (hi lo : Bool) : RegsBut [R.SD_STATUS n d] s (s.fastTold n d hi lo) := by
  intro a ha
  rw [State.fastTold_reg]
  split
  · exact (s.flag_regsSet _ _).regsBut a ha
  · rfl

theorem sinc2_effect (s : State) (raw : Word) :
    (s.sinc2 n d raw).reg (R.SD_FAST n d) = raw
    ∧ (s.sinc2 n d raw).rb (R.SD_STATE n d) 30 = sdAbove (s.reg (R.SD_OC n d)) raw
    ∧ (s.sinc2 n d raw).rb (R.SD_STATE n d) 29 = sdBelow (s.reg (R.SD_OC n d)) raw
    ∧ (((s.sinc2 n d raw).rb (R.SD_STATE n d) 30 || (s.sinc2 n d raw).rb (R.SD_STATE n d) 29) = true →
        (s.sinc2 n d raw).rb (R.SD_STATUS n d) 2 = true)
    ∧ RegsBut [R.SD_FAST n d, R.SD_STATE n d, R.SD_STATUS n d] s (s.sinc2 n d raw)
    ∧ SameBut [.regs, .scCount, .due, .pulses] s (s.sinc2 n d raw) := by
  obtain ⟨stateStatus, -, -, fastState, fastStatus⟩ := SD_STATE_ne n d
  rw [State.sinc2_eq]
  generalize sdAbove (s.reg (R.SD_OC n d)) raw = hi, sdBelow (s.reg (R.SD_OC n d)) raw = lo
  have touch : Touch 0x100000000007 s ((s.fastShown n d raw hi lo).fastTold n d hi lo) :=
    Touch.of (s.fastShown_touch n d raw hi lo) |>.then (State.fastTold_touch n d _ hi lo)
  have above : (s.fastShown n d raw hi lo).rb (R.SD_STATE n d) 30 = hi := by
    rw [State.fastShown, State.rb_setRb_of_lt _ _ _ _ _ (by decide), if_neg (by simp), State.rb_setRb_self _ (by decide)]
  have below : (s.fastShown n d raw hi lo).rb (R.SD_STATE n d) 29 = lo := State.rb_setRb_self _ (by decide) _
  have shown : (s.fastShown n d raw hi lo).reg (R.SD_FAST n d) = raw := by
    have apart : R.SD_FAST n d ∉ [R.SD_STATE n d] := by simpa using fastState
    rw [State.fastShown, (State.setRb_regsSet _ _ _ _).regsBut _ apart, (State.setRb_regsSet _ _ _ _).regsBut _ apart,
      State.reg_setReg, if_pos rfl]
  have regs := s.fastShown_regsSet n d raw hi lo
  generalize s.fastShown n d raw hi lo = u at *
  have told := u.fastTold_regsBut n d hi lo
  have keeps (i : Nat) : (u.fastTold n d hi lo).rb (R.SD_STATE n d) i = u.rb (R.SD_STATE n d) i :=
    congrArg (bit · i) (told _ (by simpa using stateStatus))
  rw [keeps, keeps, above, below]
  refine ⟨(told _ (by simpa using fastStatus)).trans shown, rfl, rfl, fun outside => ?_, fun a ha => ?_, touch.sameBut⟩
  · rw [State.rb, State.fastTold_reg, if_pos outside]
    exact State.rb_flag_self _ _ _ (by decide)
  · simp only [List.mem_cons, List.not_mem_nil, or_false, not_or] at ha
    rw [told a (by simpa using ha.2.2), regs.regsBut a (by simpa using ⟨ha.1, ha.2.1⟩)]

end

/-! ### A read of SD_DATA -/

theorem locate_SD_DATA (n : Fin 16) (d : Fin 4) : locate (R.SD_DATA n.val d.val / 4 * 4) = some (.sd n.val d.val, 0x20) := by
  revert n d
  decide

theorem sdRow_ro (n d : Nat) : ((Blk.sd n d).row 0x20).map (·.access) = some .ro := by
  cases d <;> rfl

theorem exec_sdDataRead {s : State} {m : Master} {n : Fin 16} {d : Fin 4} {r : RegRow}
    (h : s.Reads m (.sd n.val d.val) r (R.SD_DATA n.val d.val)) : exec (.sdDataRead m n d) s =
      .next ((s.sdDataRead n.val d.val).answer m (.data (s.reg (R.SD_DATA n.val d.val)))) := by
  obtain ⟨o, found, row⟩ := State.row_of_place h.place
  have offset : o = 0x20 := by
    rw [locate_SD_DATA] at found
    simpa using found.symm
  have access : r.access = .ro := by
    have known := sdRow_ro n.val d.val
    rw [offset] at row
    simpa [row] using known
  have read : s.readReg (.sd n.val d.val) r (R.SD_DATA n.val d.val) (s.domainOf m) =
      (s.reg (R.SD_DATA n.val d.val), s.sdDataRead n.val d.val) := by
    have other : R.SD_DATA n.val d.val ≠ R.EP_OPEN := by
      simp only [R.SD_DATA, R.EP_OPEN]; omega
    simp [State.readReg, access, other, State.live, State.consume]
  have run : exec (.sdDataRead m n d) s = s.readCmd m (R.SD_DATA n.val d.val) 4 := rfl
  rw [run, State.readCmd_of_reads h (by simp only [R.SD_DATA]; omega) ?_ ?_, read]
  · unfold portOf
    rw [if_neg]
    simp only [R.SD_DATA]; omega
  · simp only [R.SD_DATA, R.CAL_BRAMw]; omega

end Sys2Proof.Machine
end

section
/-!
Comparator outputs and decisions (R215, R217).
-/
set_option Elab.async false
namespace Sys2Proof.Machine
open Sys2Proof

/-! ### Comparators -/

theorem State.cp_setCp (s : State) (n c : Nat) (r : CpRec) : (s.setCp n c r).cp n c = r := by
  simp [State.cp, State.setCp, Store.get_set]

theorem CP_STATE_ne (n c : Nat) : R.CP_STATE n c ≠ R.CP_STATUS n c := by
  unfold R.CP_STATE R.CP_STATUS
  omega

section
variable (n c : Nat)

/-- The registers where a comparator's output changes. -/
def State.cpShown (s : State) (level : Bool) : State :=
  (s.setRb (R.CP_STATE n c) 31 level).flag (R.CP_STATUS n c) (if level then 1 else 2)

/-- What a changed output tells: its event, its line and what takes it directly. -/
def State.cpTold (s : State) (level : Bool) : State :=
  let s := s.fireIsland n (0xC0 + 2 * c + (if level then 0 else 1))
  (s.setLine (256 * n + 0xE8 + c) level).enqueue (s.cpConsumers n c level)

theorem State.cpOutput_eq (s : State) (level : Bool) : s.cpOutput n c level =
    if s.rb (R.CP_STATE n c) 31 = level then s else (s.cpShown n c level).cpTold n c level := rfl

theorem State.cpTold_touch (s : State) (level : Bool) : Touch 0x100000000801 s (s.cpTold n c level) :=
  Touch.of State.fireIsland_touch |>.then State.setLine_touch |>.then State.enqueue_touch

theorem State.cpTold_reg (s : State) (level : Bool) (a : Nat) : (s.cpTold n c level).reg a = s.reg a :=
  RegsSet.regsBut (l := []) ((s.cpTold_touch n c level).regsSet _) a List.not_mem_nil

theorem State.cpShown_regsSet (s : State) (level : Bool) :
    RegsSet [R.CP_STATE n c, R.CP_STATUS n c] s (s.cpShown n c level) :=
  .trans ((s.setRb_regsSet _ _ _).mono (by simp)) ((State.flag_regsSet _ _ _).mono (by simp))

theorem State.cpShown_rb (s : State) (level : Bool) {i : Nat} (h : i < 32) :
    (s.cpShown n c level).rb (R.CP_STATE n c) i = if i = 31 then level else s.rb (R.CP_STATE n c) i := by
  have kept : (s.cpShown n c level).rb (R.CP_STATE n c) i = (s.setRb (R.CP_STATE n c) 31 level).rb (R.CP_STATE n c) i :=
    (State.flag_regsSet _ _ _).rb_eq (by simpa using CP_STATE_ne n c) i
  rw [kept, State.rb_setRb_of_lt _ _ _ _ _ h]
  simp

theorem State.cpOutput_regsSet (s : State) (level : Bool) :
    RegsSet [R.CP_STATE n c, R.CP_STATUS n c] s (s.cpOutput n c level) := by
  rw [State.cpOutput_eq]
  exact .ite (.refl _ s) ((s.cpShown_regsSet n c level).trans ((State.cpTold_touch n c _ level).regsSet _))

/-- The output shows the level; nothing else of CP_STATE changes. -/
theorem State.cpOutput_rb (s : State) (level : Bool) {i : Nat} (h : i < 32) :
    (s.cpOutput n c level).rb (R.CP_STATE n c) i = if i = 31 then level else s.rb (R.CP_STATE n c) i := by
  rw [State.cpOutput_eq]
  split
  case isTrue same =>
    split
    case isTrue e => rw [e, same]
    case isFalse => rfl
  case isFalse =>
    rw [State.rb, State.cpTold_reg]
    exact s.cpShown_rb n c level h

/-- A change of the output sets its flag. -/
theorem State.cpOutput_flag (s : State) (level : Bool) (changes : s.rb (R.CP_STATE n c) 31 ≠ level) :
    (s.cpOutput n c level).rb (R.CP_STATUS n c) (if level then 1 else 2) = true := by
  rw [State.cpOutput_eq, if_neg changes, State.rb, State.cpTold_reg]
  exact State.rb_flag_self _ _ _ (by cases level <;> decide)

theorem State.cpOutput_cp (s : State) (level : Bool) : (s.cpOutput n c level).cp n c = s.cp n c :=
  congrArg (fun x => Store.get (fun _ => CpRec.reset) (8 * n + c) x)
    ((State.cpOutput_touch : Touch _ s (s.cpOutput n c level)).same_part .cps)

/-- Whether blanking or settling holds the output. -/
def State.cpHeld (s : State) : Bool := s.rb (R.CP_STATE n c) 30 || s.rb (R.CP_STATE n c) 29

theorem State.cpDecide_eq (s : State) (d : Bool) : s.cpDecide n c d =
    if s.cpHeld n c then s.setCp n c { s.cp n c with raw := d, filt := none }
    else (s.setCp n c { s.cp n c with raw := d, filt := none }).cpOutput n c d := rfl

theorem State.cpDecide_cp (s : State) (d : Bool) :
    (s.cpDecide n c d).cp n c = { s.cp n c with raw := d, filt := none } := by
  rw [State.cpDecide_eq]
  split
  · exact s.cp_setCp n c _
  · rw [State.cpOutput_cp, State.cp_setCp]

theorem State.cpDecide_of_held (s : State) (d : Bool) (held : s.cpHeld n c = true) :
    (s.cpDecide n c d).regs = s.regs ∧ (s.cpDecide n c d).due = s.due := by
  rw [State.cpDecide_eq, if_pos held]
  exact ⟨rfl, rfl⟩

theorem State.cpDecide_of_free (s : State) (d : Bool) (free : s.cpHeld n c = false) :
    (s.cpDecide n c d).rb (R.CP_STATE n c) 31 = d
    ∧ (s.rb (R.CP_STATE n c) 31 ≠ d → (s.cpDecide n c d).rb (R.CP_STATUS n c) (if d then 1 else 2) = true) := by
  rw [State.cpDecide_eq, if_neg (by simp [free])]
  exact ⟨State.cpOutput_rb n c _ d (by decide), fun changes => State.cpOutput_flag n c _ d changes⟩

theorem State.cpDecide_regsSet (s : State) (d : Bool) :
    RegsSet [R.CP_STATE n c, R.CP_STATUS n c] s (s.cpDecide n c d) := by
  rw [State.cpDecide_eq]
  exact .ite (.of_regs rfl _) (.trans (.of_regs rfl _) (State.cpOutput_regsSet n c _ d))

/-! ### A transition at the selected input (R215 to R217) -/

/-- The decision as the comparator keeps it. -/
def State.cpDecided (s : State) (d : Bool) : State := s.setCp n c { s.cp n c with dec := d }

theorem State.cpDecided_cp (s : State) (d : Bool) : (s.cpDecided n c d).cp n c = { s.cp n c with dec := d } :=
  s.cp_setCp n c _

theorem State.cpTransition_idle (s : State) (ain : Nat) (vin : Int)
    (h : s.rb (R.CP_CFG n c) 31 = false ∨ s.rf (R.CP_CFG n c) 2 0 ≠ ain) : s.cpTransition n c ain vin = s := by
  refine if_pos ?_
  simp only [State.rb, State.rf] at h
  rcases h with h | h <;> simp [h]

section
variable {n c} {s : State} {ain : Nat} (on : s.rb (R.CP_CFG n c) 31 = true) (selected : s.rf (R.CP_CFG n c) 2 0 = ain)
include on selected

theorem State.cpTransition_awake (vin : Int) (awake : s.device ≠ .watch) : s.cpTransition n c ain vin =
    if s.rf (R.CP_CFG n c) 7 4 = 0 then (s.cpDecided n c (s.cpDecision n c vin)).cpDecide n c (s.cpDecision n c vin)
    else if s.cpDecision n c vin = (s.cp n c).raw then
      (s.cpDecided n c (s.cpDecision n c vin)).setCp n c { s.cp n c with dec := s.cpDecision n c vin, filt := none }
    else match (s.cp n c).filt with
      | some _ => s.cpDecided n c (s.cpDecision n c vin)
      | none => (s.cpDecided n c (s.cpDecision n c vin)).setCp n c { s.cp n c with
          dec := s.cpDecision n c vin
          filt := some (s.cpDecision n c vin, s.absTick + s.rf (R.CP_CFG n c) 7 4) } := by
  simp only [State.rb, State.rf] at on selected
  have acts : ¬ (!bit (s.reg (R.CP_CFG n c)) 31 || fld (s.reg (R.CP_CFG n c)) 2 0 != ain ||
      (s.device == .watch && !(bit (s.reg (R.CP_CFG n c)) 29 && decide (c < 2)))) = true := by
    simp [on, selected, awake]
  refine (if_neg acts).trans ((if_neg (by simp [awake])).trans ?_)
  rw [← State.cpDecided, State.cpDecided_cp]
  rfl

theorem State.cpTransition_watch (vin : Int) (asleep : s.device = .watch) (watches : s.rb (R.CP_CFG n c) 29 = true)
    (first : c < 2) : s.cpTransition n c ain vin =
      ((s.cpDecided n c (s.cpDecision n c vin)).setCp n c
        { s.cp n c with dec := s.cpDecision n c vin, raw := s.cpDecision n c vin }).cpOutput n c (s.cpDecision n c vin) := by
  simp only [State.rb, State.rf] at on selected watches
  have acts : ¬ (!bit (s.reg (R.CP_CFG n c)) 31 || fld (s.reg (R.CP_CFG n c)) 2 0 != ain ||
      (s.device == .watch && !(bit (s.reg (R.CP_CFG n c)) 29 && decide (c < 2)))) = true := by
    simp [on, selected, watches, first]
  refine (if_neg acts).trans ((if_pos (by simp [asleep])).trans ?_)
  rw [← State.cpDecided, State.cpDecided_cp]

end

end

end Sys2Proof.Machine
end

section
/-!
The commands of demodulators and comparators (R210 to R217).
-/
set_option Elab.async false
namespace Sys2Proof.Machine
open Sys2Proof

section
variable {n : Fin 16} {c : Fin 8} {x : InputVoltage} {s : State}

theorem exec_comparatorTransition (runs : s.islandRuns n.val = true) :
    exec (.comparatorTransition n c x) s = .next (s.cpTransition n.val c.val x.ain.val (sInt x.vin)) :=
  congrArg Host.Outcome.next (if_pos runs)

theorem State.cpDecided_frame (s : State) (n c : Nat) (d : Bool) :
    RegsSet [R.CP_STATE n c, R.CP_STATUS n c] s (s.cpDecided n c d) ∧ Touch 0x40000 s (s.cpDecided n c d) :=
  ⟨.of_regs rfl _, .of State.setCp_touch⟩

section
variable (on : s.rb (R.CP_CFG n.val c.val) 31 = true) (selected : s.rf (R.CP_CFG n.val c.val) 2 0 = x.ain.val)
include on selected

/-- Without a filter the decision goes to the output, unless blanking or settling holds it. -/
theorem comparatorTransition_unfiltered {d : Bool} (runs : s.islandRuns n.val = true) (awake : s.device ≠ .watch)
    (none_ : s.rf (R.CP_CFG n.val c.val) 7 4 = 0) (decision : d = s.cpDecision n.val c.val (sInt x.vin)) :
    ∃ t, exec (.comparatorTransition n c x) s = .next t
      ∧ (t.cp n.val c.val).dec = d
      ∧ (t.cp n.val c.val).raw = d
      ∧ (s.cpHeld n.val c.val = false → t.rb (R.CP_STATE n.val c.val) 31 = d)
      ∧ (s.cpHeld n.val c.val = false → s.rb (R.CP_STATE n.val c.val) 31 ≠ d →
          t.rb (R.CP_STATUS n.val c.val) (if d then 1 else 2) = true)
      ∧ (s.cpHeld n.val c.val = true → t.regs = s.regs ∧ t.due = s.due)
      ∧ RegsBut [R.CP_STATE n.val c.val, R.CP_STATUS n.val c.val] s t
      ∧ SameBut [.regs, .scCount, .cps, .fab, .due, .pulses] s t := by
  refine ⟨_, exec_comparatorTransition runs, ?_⟩
  rw [State.cpTransition_awake on selected _ awake, if_pos none_, ← decision]
  have touch : Touch 0x100000040807 s ((s.cpDecided n.val c.val d).cpDecide n.val c.val d) :=
    Touch.of (s.cpDecided_frame _ _ _).2 |>.then State.cpDecide_touch
  have rec_ : ((s.cpDecided n.val c.val d).cpDecide n.val c.val d).cp n.val c.val =
      { s.cp n.val c.val with dec := d, raw := d, filt := none } := by
    rw [State.cpDecide_cp, State.cpDecided_cp]
  refine ⟨congrArg CpRec.dec rec_, congrArg CpRec.raw rec_, fun free => ?_, fun free changes => ?_, fun held => ?_, ?_,
    touch.sameBut⟩
  · exact (State.cpDecide_of_free _ _ (s.cpDecided n.val c.val d) d free).1
  · exact (State.cpDecide_of_free _ _ (s.cpDecided n.val c.val d) d free).2 changes
  · exact State.cpDecide_of_held _ _ (s.cpDecided n.val c.val d) d held
  · exact RegsSet.regsBut ((s.cpDecided_frame _ _ _).1.trans (State.cpDecide_regsSet _ _ _ d))

/-- With a filter it waits there. -/
theorem comparatorTransition_filtered {d : Bool} (runs : s.islandRuns n.val = true) (awake : s.device ≠ .watch)
    (some_ : s.rf (R.CP_CFG n.val c.val) 7 4 ≠ 0) (decision : d = s.cpDecision n.val c.val (sInt x.vin)) :
    ∃ t, exec (.comparatorTransition n c x) s = .next t
      ∧ (t.cp n.val c.val).dec = d
      ∧ (d = (s.cp n.val c.val).raw → (t.cp n.val c.val).filt = none)
      ∧ (d ≠ (s.cp n.val c.val).raw → (s.cp n.val c.val).filt = none →
          (t.cp n.val c.val).filt = some (d, s.absTick + s.rf (R.CP_CFG n.val c.val) 7 4))
      ∧ RegsBut [] s t
      ∧ SameBut [.cps] s t := by
  refine ⟨_, exec_comparatorTransition runs, ?_⟩
  rw [State.cpTransition_awake on selected _ awake, if_neg some_, ← decision]
  have decided := (s.cpDecided_frame n.val c.val d).2
  have put (r : CpRec) : Touch 0x40000 s ((s.cpDecided n.val c.val d).setCp n.val c.val r) := decided.then State.setCp_touch
  split
  case isTrue same =>
    exact ⟨congrArg CpRec.dec (State.cp_setCp _ _ _ _), fun _ => congrArg CpRec.filt (State.cp_setCp _ _ _ _),
      fun other => absurd same other, (RegsSet.of_regs rfl _).regsBut, (put _).sameBut⟩
  case isFalse other =>
    split
    case h_1 p waits =>
      refine ⟨congrArg CpRec.dec (s.cpDecided_cp _ _ _), fun same => absurd same other, fun _ empty => ?_,
        (RegsSet.of_regs rfl _).regsBut, decided.sameBut⟩
      rw [waits] at empty
      cases empty
    case h_2 =>
      exact ⟨congrArg CpRec.dec (State.cp_setCp _ _ _ _), fun same => absurd same other,
        fun _ _ => congrArg CpRec.filt (State.cp_setCp _ _ _ _), (RegsSet.of_regs rfl _).regsBut, (put _).sameBut⟩

/-- In WATCH a watch comparator follows at once. -/
theorem comparatorTransition_watches (runs : s.islandRuns n.val = true) (asleep : s.device = .watch)
    (watches : s.rb (R.CP_CFG n.val c.val) 29 = true) (first : c.val < 2) :
    ∃ t, exec (.comparatorTransition n c x) s = .next t
      ∧ t.rb (R.CP_STATE n.val c.val) 31 = s.cpDecision n.val c.val (sInt x.vin)
      ∧ RegsBut [R.CP_STATE n.val c.val, R.CP_STATUS n.val c.val] s t
      ∧ SameBut [.regs, .scCount, .cps, .fab, .due, .pulses] s t := by
  refine ⟨_, exec_comparatorTransition runs, ?_⟩
  rw [State.cpTransition_watch on selected _ asleep watches first]
  generalize s.cpDecision n.val c.val (sInt x.vin) = d
  have decided := (s.cpDecided_frame n.val c.val d).2
  have put (r : CpRec) : Touch 0x100000040807 s (((s.cpDecided n.val c.val d).setCp n.val c.val r).cpOutput n.val c.val d) :=
    Touch.of decided |>.then State.setCp_touch |>.then State.cpOutput_touch
  exact ⟨State.cpOutput_rb _ _ _ d (by decide),
    RegsSet.regsBut (RegsSet.trans (.of_regs rfl _) (State.cpOutput_regsSet _ _ _ d)), (put _).sameBut⟩

end

theorem comparatorTransition_idle
    (h : s.rb (R.CP_CFG n.val c.val) 31 = false ∨ s.rf (R.CP_CFG n.val c.val) 2 0 ≠ x.ain.val) :
    exec (.comparatorTransition n c x) s = .next s :=
  congrArg Host.Outcome.next <| (congrArg (fun u => if s.islandRuns n.val = true then u else s)
    (s.cpTransition_idle _ _ _ _ h)).trans (ite_self s)

end

/-! ### The end of blanking and of settling (R216, R217) -/

section
variable (n : Fin 16) (c : Fin 8) (s : State)

/-- A hold of the output that has ended: bit `i` of CP_STATE clears and the record changes. -/
def State.cpUnheld (s : State) (n c i : Nat) (r : CpRec) : State := (s.setRb (R.CP_STATE n c) i false).setCp n c r

theorem State.cpUnheld_touch (i : Nat) (r : CpRec) : Touch 0x40002 s (s.cpUnheld n.val c.val i r) :=
  Touch.of State.setRb_touch |>.then State.setCp_touch

theorem State.cpUnheld_rb {i j : Nat} (r : CpRec) (h : j < 32) :
    (s.cpUnheld n.val c.val i r).rb (R.CP_STATE n.val c.val) j = if j = i then false else s.rb (R.CP_STATE n.val c.val) j := by
  refine (State.rb_setRb_of_lt s _ _ _ _ h).trans ?_
  simp

/-- The end of a hold: the output follows the decision where nothing else holds it and the comparator is enabled. -/
def State.cpFollows (s : State) (n c i j : Nat) (r : CpRec) (d : Bool) : State :=
  if s.rb (R.CP_STATE n c) j || !s.rb (R.CP_CFG n c) 31 then s.cpUnheld n c i r else (s.cpUnheld n c i r).cpOutput n c d

theorem cpFollows_effect {i : Nat} (hi : i < 31) (j : Nat) (r : CpRec) (d : Bool) :
    (s.cpFollows n.val c.val i j r d).rb (R.CP_STATE n.val c.val) i = false
    ∧ (s.cpFollows n.val c.val i j r d).cp n.val c.val = r
    ∧ (s.rb (R.CP_STATE n.val c.val) j = false → s.rb (R.CP_CFG n.val c.val) 31 = true →
        (s.cpFollows n.val c.val i j r d).rb (R.CP_STATE n.val c.val) 31 = d)
    ∧ (s.rb (R.CP_STATE n.val c.val) j = true →
        (s.cpFollows n.val c.val i j r d).rb (R.CP_STATE n.val c.val) 31 = s.rb (R.CP_STATE n.val c.val) 31
        ∧ (s.cpFollows n.val c.val i j r d).due = s.due)
    ∧ RegsBut [R.CP_STATE n.val c.val, R.CP_STATUS n.val c.val] s (s.cpFollows n.val c.val i j r d)
    ∧ SameBut [.regs, .scCount, .cps, .fab, .due, .pulses] s (s.cpFollows n.val c.val i j r d) := by
  have regs : RegsSet [R.CP_STATE n.val c.val, R.CP_STATUS n.val c.val] s (s.cpUnheld n.val c.val i r) :=
    RegsSet.trans ((s.setRb_regsSet _ _ _).mono (by simp)) (.of_regs rfl _)
  have touch := s.cpUnheld_touch n c i r
  have cleared : (s.cpUnheld n.val c.val i r).rb (R.CP_STATE n.val c.val) i = false := by
    rw [State.cpUnheld_rb _ _ _ _ (by omega), if_pos rfl]
  have shows : (s.cpUnheld n.val c.val i r).rb (R.CP_STATE n.val c.val) 31 = s.rb (R.CP_STATE n.val c.val) 31 := by
    rw [State.cpUnheld_rb _ _ _ _ (by omega), if_neg (by omega)]
  have kept : (s.cpUnheld n.val c.val i r).cp n.val c.val = r := State.cp_setCp _ _ _ _
  unfold State.cpFollows
  generalize s.cpUnheld n.val c.val i r = u at *
  split
  case isTrue stays =>
    refine ⟨cleared, kept, fun free on => ?_, fun _ => ⟨shows, touch.same_part .due⟩, regs.regsBut,
      (Touch.of touch : Touch 0x40002 s u).sameBut⟩
    simp [free, on] at stays
  case isFalse goes =>
    refine ⟨?_, (u.cpOutput_cp _ _ d).trans kept, fun _ _ => State.cpOutput_rb _ _ u d (by decide), fun held => ?_,
      (regs.trans (u.cpOutput_regsSet _ _ d)).regsBut,
      (Touch.of touch |>.then State.cpOutput_touch : Touch 0x100000040807 s _).sameBut⟩
    · rw [State.cpOutput_rb _ _ u d (by omega), if_neg (by omega)]
      exact cleared
    · simp [held] at goes

/-- What still holds the output is read after the other hold has ended. -/
theorem State.cpUnheld_holds {i j : Nat} (r : CpRec) (hj : j < 32) (ne : j ≠ i) :
    (s.cpUnheld n.val c.val i r).rb (R.CP_STATE n.val c.val) j = s.rb (R.CP_STATE n.val c.val) j
    ∧ (s.cpUnheld n.val c.val i r).rb (R.CP_CFG n.val c.val) 31 = s.rb (R.CP_CFG n.val c.val) 31 := by
  have apart : R.CP_CFG n.val c.val ∉ [R.CP_STATE n.val c.val] := by
    simp [R.CP_CFG, R.CP_STATE]
  exact ⟨by rw [State.cpUnheld_rb _ _ _ _ hj, if_neg ne], (State.setRb_regsSet _ _ _ _).rb_eq apart 31⟩

omit s in
/-- The output follows what the filter has passed. -/
theorem outputRaw {d : Bool} (u : State) (h : (u.cp n.val c.val).raw = d) :
    (if u.rb (R.CP_STATE n.val c.val) 29 || !u.rb (R.CP_CFG n.val c.val) 31 then u
      else u.cpOutput n.val c.val (u.cp n.val c.val).raw) =
    if u.rb (R.CP_STATE n.val c.val) 29 || !u.rb (R.CP_CFG n.val c.val) 31 then u else u.cpOutput n.val c.val d := by
  rw [h]

theorem exec_blankingExpiry (held : s.rb (R.CP_STATE n.val c.val) 30 = true) : exec (.blankingExpiry n c) s =
    .next (s.cpFollows n.val c.val 30 29 { s.cp n.val c.val with blankEnd := none } (s.cp n.val c.val).raw) := by
  obtain ⟨holds, on⟩ := s.cpUnheld_holds n c (i := 30) (j := 29) { s.cp n.val c.val with blankEnd := none } (by decide)
    (by decide)
  have passed : ((s.cpUnheld n.val c.val 30 { s.cp n.val c.val with blankEnd := none }).cp n.val c.val).raw =
      (s.cp n.val c.val).raw := by
    rw [State.cpUnheld, State.cp_setCp]
  refine congrArg Host.Outcome.next ((if_neg (by simp [held])).trans ?_)
  rw [State.cpFollows, ← holds, ← on]
  exact outputRaw n c _ passed

theorem exec_settlingEnd (vin : Word) (held : s.rb (R.CP_STATE n.val c.val) 29 = true) : exec (.settlingEnd n c vin) s =
    .next (s.cpFollows n.val c.val 29 30 { s.cp n.val c.val with
      dec := s.cpDecision n.val c.val (sInt vin)
      raw := s.cpDecision n.val c.val (sInt vin)
      filt := none } (s.cpDecision n.val c.val (sInt vin))) := by
  obtain ⟨holds, on⟩ := s.cpUnheld_holds n c (i := 29) (j := 30) { s.cp n.val c.val with
    dec := s.cpDecision n.val c.val (sInt vin)
    raw := s.cpDecision n.val c.val (sInt vin)
    filt := none } (by decide) (by decide)
  refine congrArg Host.Outcome.next ((if_neg (by simp [held])).trans ?_)
  rw [State.cpFollows, ← holds, ← on]
  rfl

end

/-! ### Demodulator commands that change a few registers -/

section
variable (n : Fin 16) (d : Fin 4) {s : State}

/-- The samples enter the filter before its result shows. -/
theorem State.sinc3Done_eq {n d : Nat} {samples : List (Bool × Bool)} {raw : Word}
    (value : raw = wOfInt (sinc3Of (s.osr3 n d) (((s.sdSamples n d samples).reverse ++ (s.sdRec n d).hist3).take 766))) :
    ∃ x, s.sinc3Done n d samples = (s.setSd n d x).sinc3 n d raw := by
  subst value
  exact ⟨_, rfl⟩

theorem State.sinc2Done_eq {n d : Nat} {samples : List (Bool × Bool)} {raw : Word}
    (value : raw = wOfInt (sinc2Of (s.osr2 n d) (((s.sdSamples n d samples).reverse ++ (s.sdRec n d).hist2).take 63))) :
    ∃ x, s.sinc2Done n d samples = (s.setSd n d x).sinc2 n d raw := by
  subst value
  exact ⟨_, rfl⟩

/-- An event of a demodulator under which one flag of SD_STATUS sets. -/
theorem sdFlagged_effect (u : State) (f : Nat) (hf : f < 32) (touch : Touch 2 s u) (regs : RegsSet [R.SD_STATE n.val d.val] s u) :
    ((u.flag (R.SD_STATUS n.val d.val) f).fireSd n.val d.val 3).rb (R.SD_STATUS n.val d.val) f = true
    ∧ ((u.flag (R.SD_STATUS n.val d.val) f).fireSd n.val d.val 3).rb (R.SD_STATE n.val d.val) 28 = u.rb (R.SD_STATE n.val d.val) 28
    ∧ Fires (256 * n.val + 0xB0 + 4 * d.val + 3) s ((u.flag (R.SD_STATUS n.val d.val) f).fireSd n.val d.val 3)
    ∧ SameBut [.regs, .scCount, .due, .pulses] s ((u.flag (R.SD_STATUS n.val d.val) f).fireSd n.val d.val 3) := by
  have flagged : Touch 6 s (u.flag (R.SD_STATUS n.val d.val) f) := Touch.of touch |>.then State.flag_touch
  have told : Touch 0x100000000007 s ((u.flag (R.SD_STATUS n.val d.val) f).fireSd n.val d.val 3) :=
    Touch.of flagged |>.then State.fireSd_touch
  have all : RegsSet [R.SD_DATA n.val d.val, R.SD_STATE n.val d.val, R.SD_STATUS n.val d.val] s
      (u.flag (R.SD_STATUS n.val d.val) f) :=
    .trans (regs.mono (by simp)) ((u.flag_regsSet _ _).mono (by simp))
  refine ⟨?_, ?_, State.fireSd_fires n.isLt d.isLt (by decide) all (flagged.same_part .fab) (flagged.same_part .pulses),
    told.sameBut⟩
  · rw [State.rb, State.fireSd_regs]
    exact State.rb_flag_self _ _ _ hf
  · rw [State.rb, State.fireSd_regs]
    exact (u.flag_regsSet _ _).rb_eq (by simpa using (SD_STATE_ne n.val d.val).1) 28

theorem sdFlagged_regsBut {l : List Nat} (u : State) (f : Nat) (regs : RegsSet l s u) (status : R.SD_STATUS n.val d.val ∈ l) :
    RegsBut l s ((u.flag (R.SD_STATUS n.val d.val) f).fireSd n.val d.val 3) :=
  RegsSet.regsBut (regs.trans (.trans ((u.flag_regsSet _ _).mono (by simpa using status)) (State.fireSd_touch.regsSet _)))

theorem State.setSd_rec (s : State) (n d : Nat) (r : SdRec) : (s.setSd n d r).sdRec n d = r := by
  simp [State.sdRec, State.setSd, Store.get_set]

end

/-- Settles O32: each command through the equation of its case. -/
theorem demodulatorAndComparatorCommands : Obligations.DemodulatorAndComparatorCommands := by
  refine ⟨fun n d samples raw s clocked over_ value => ?_, fun n d samples raw s clocked over_ value => ?_,
    fun n d samples s quiet => ?_, fun n d s on => ?_, fun m n d s r reads => ?_, fun n d s on => ?_, fun n d s clocked => ?_,
    fun n d s clocked => ?_, ?_, ?_, ?_, ?_, ?_, ?_⟩
  case refine_1 =>
    refine ⟨_, congrArg Host.Outcome.next (if_pos (by simp [clocked, over_])), ?_⟩
    obtain ⟨x, done⟩ := s.sinc3Done_eq value
    obtain ⟨data, count, flag, fires, regs, same⟩ := sinc3_effect n d (s.setSd n.val d.val x) raw
    rw [done]
    refine ⟨data, count, flag, fires, regs, ?_⟩
    exact SameBut.andThen (Touch.sameBut (State.setSd_touch : Touch _ s (s.setSd n.val d.val x))) same
  case refine_2 =>
    refine ⟨_, congrArg Host.Outcome.next (if_pos (by simp [clocked, over_])), ?_⟩
    obtain ⟨x, done⟩ := s.sinc2Done_eq value
    obtain ⟨fast, above, below, flag, regs, same⟩ := sinc2_effect n.val d.val (s.setSd n.val d.val x) raw
    rw [done]
    refine ⟨fast, above, below, flag, regs, ?_⟩
    exact SameBut.andThen (Touch.sameBut (State.setSd_touch : Touch _ s (s.setSd n.val d.val x))) same
  case refine_3 =>
    have run3 : exec (.sinc3Result n d samples) s = .next s := by
      refine congrArg Host.Outcome.next (if_neg ?_)
      rcases quiet with quiet | ⟨quiet, -⟩ <;> simp [quiet]
    have run2 : exec (.sinc2Result n d samples) s = .next s := by
      refine congrArg Host.Outcome.next (if_neg ?_)
      rcases quiet with quiet | ⟨-, quiet⟩ <;> simp [quiet]
    exact ⟨run3, run2⟩
  case refine_4 =>
    refine ⟨_, congrArg Host.Outcome.next (if_pos on), ?_, (RegsSet.of_regs rfl _).regsBut, (Touch.sameBut State.setSd_touch)⟩
    exact congrArg SdRec.due (State.setSd_rec _ _ _ _)
  case refine_5 =>
    refine ⟨_, exec_sdDataRead reads, rfl, State.rb_setRb_self _ (by decide) _, ?_, ?_⟩
    · exact RegsBut.answer (s.setRb_regsSet _ 31 false).regsBut m _
    · exact SameBut.answer (Touch.sameBut (State.setRb_touch : Touch _ s (s.sdDataRead n.val d.val))) (by decide) m _
  case refine_6 =>
    have regs := s.setRb_regsSet (R.SD_STATE n.val d.val) 28 false
    obtain ⟨flag, clock, fires, same⟩ := sdFlagged_effect n d _ 3 (by decide) (.of State.setRb_touch) regs
    exact ⟨_, congrArg Host.Outcome.next (if_pos on), clock.trans (State.rb_setRb_self _ (by decide) _), flag, fires,
      sdFlagged_regsBut n d _ 3 (regs.mono (by simp)) (by simp), same⟩
  case refine_7 =>
    exact ⟨_, congrArg Host.Outcome.next (if_pos clocked), State.rb_setRb_self _ (by decide) _,
      (s.setRb_regsSet _ _ _).regsBut, State.setRb_touch.sameBut⟩
  case refine_8 =>
    obtain ⟨flag, -, fires, same⟩ := sdFlagged_effect n d s 4 (by decide) .refl (.refl _ s)
    exact ⟨_, congrArg Host.Outcome.next (if_pos clocked), flag, fires, sdFlagged_regsBut n d _ 4 (.refl _ s) (by simp), same⟩
  case refine_9 =>
    intro n c x thr h v d s runs on awake selected none_ hthr hh hv decision
    subst hthr hh hv
    exact comparatorTransition_unfiltered on selected runs awake none_ decision
  case refine_10 =>
    intro n c x d s runs on awake selected some_ decision
    exact comparatorTransition_filtered on selected runs awake some_ decision
  case refine_11 =>
    intro n c x s runs on asleep selected watches first
    exact comparatorTransition_watches on selected runs asleep watches first
  case refine_12 =>
    intro n c x s idle
    exact comparatorTransition_idle idle
  case refine_13 =>
    intro n c s held
    obtain ⟨cleared, rec_, follows, stays, regs, same⟩ := cpFollows_effect n c s (i := 30) (by decide) 29
      { s.cp n.val c.val with blankEnd := none } (s.cp n.val c.val).raw
    exact ⟨_, exec_blankingExpiry n c s held, cleared, congrArg CpRec.blankEnd rec_, follows, stays, regs, same⟩
  case refine_14 =>
    intro n c vin active s held decision
    subst decision
    obtain ⟨cleared, rec_, follows, stays, regs, same⟩ := cpFollows_effect n c s (i := 29) (by decide) 30
      { s.cp n.val c.val with
        dec := s.cpDecision n.val c.val (sInt vin)
        raw := s.cpDecision n.val c.val (sInt vin)
        filt := none } (s.cpDecision n.val c.val (sInt vin))
    exact ⟨_, exec_settlingEnd n c s vin held, congrArg CpRec.dec rec_, cleared, congrArg CpRec.raw rec_, follows, stays, regs,
      same⟩

end Sys2Proof.Machine
end

section
/-!
What the entry into WATCH leaves of the power registers (R468).
-/
set_option Elab.async false
namespace Sys2Proof.Machine
open Sys2Proof

/-! ### What leaves the device state in the power registers -/

/-- Registers other than PW_STATE and PW_STATUS. -/
def besidePower (a : Nat) : Prop := a ≠ R.PW_STATE ∧ a ≠ R.PW_STATUS

theorem RegsIn.pwState {s t : State} (h : RegsIn besidePower s t) : t.reg R.PW_STATE = s.reg R.PW_STATE :=
  h.reg_eq fun p => p.1 rfl

theorem RegsIn.pwStatus {s t : State} (h : RegsIn besidePower s t) : t.reg R.PW_STATUS = s.reg R.PW_STATUS :=
  h.reg_eq fun p => p.2 rfl

/-- A register below or above the power controller's. -/
theorem besidePower_of {a : Nat} (h : a < 0x59000014 ∨ 0x59000018 < a) : besidePower a := by
  unfold besidePower R.PW_STATE R.PW_STATUS
  omega

theorem State.flagW_regsSet (s : State) (a : Nat) (w : Word) : RegsSet [a] s (s.flagW a w) := by
  unfold State.flagW
  split
  · exact .refl _ s
  · exact s.setReg_regsSet a _

theorem State.dmaHalt_besidePower (s : State) {c : Nat} (hc : c < 64) (flag : Nat) (v : Word) :
    RegsIn besidePower s (s.dmaHalt c flag v) := by
  have below (o : Nat) (ho : o < 0x2000) : besidePower (0x52000000 + o + 0x40 * c) := besidePower_of (by omega)
  have state : RegsIn besidePower s (s.setDmaState c 3) := s.setReg_regsIn (below 0x1024 (by decide)) _
  have err : RegsIn besidePower (s.setDmaState c 3) _ := State.setReg_regsIn _ (below 0x102C (by decide)) v
  exact (state.trans err).trans (.trans (State.flag_regsIn _ (below 0x1028 (by decide)) flag) (.of_regs rfl _))

theorem State.dmaWatch_besidePower (s : State) : RegsIn besidePower s s.dmaWatch :=
  RegsIn.foldl _ s fun _ hc t => t.dmaHalt_besidePower (List.mem_range.mp (List.mem_filter.mp hc).1) _ _

theorem State.linkDown_besidePower (s : State) {p : Nat} (hp : p < 4) : RegsIn besidePower s (s.linkDown p) := by
  have below : besidePower (R.NX_PORTp_STATE p) := besidePower_of (by unfold R.NX_PORTp_STATE; omega)
  have closed : RegsIn besidePower s (s.setRb (R.NX_PORTp_STATE p) 31 false) := s.setReg_regsIn below _
  exact .ite (closed.trans (RegsIn.trans (.of_regs rfl _) (State.fireNet_touch.regsIn _))) (.refl _ s)

/-- A session as it is lost, before its flags and events. -/
def State.sesClosed (s : State) (k : Nat) : State :=
  (s.setSesState k 3).setSession k { s.session k with unacked := [], unsent := [], inPacket := [], resends := 0 }

def State.sesTold (s : State) (k : Nat) : State :=
  (if s.rb (R.NX_Ss_EV k) 30 then s.fireNet (s.sesLine k) else s).sesReport k

theorem State.sesLost_eq (s : State) (k : Nat) (flags : Word) :
    s.sesLost k flags = ((s.sesClosed k).flagW (R.NX_Ss_STATUS k) (flags ||| bitW 0)).sesTold k := rfl

theorem State.sesLost_besidePower (s : State) {k : Nat} (hk : k < 0x1000) (flags : Word) :
    RegsIn besidePower s (s.sesLost k flags) := by
  have state : besidePower (R.NX_Ss_STATE k) := besidePower_of (by unfold R.NX_Ss_STATE; omega)
  have status : besidePower (R.NX_Ss_STATUS k) := besidePower_of (by unfold R.NX_Ss_STATUS; omega)
  have closed : RegsIn besidePower s (s.sesClosed k) := (s.setReg_regsIn state _).trans (.of_regs rfl _)
  have flagged (t : State) (f : Word) : RegsIn besidePower t (t.flagW (R.NX_Ss_STATUS k) f) :=
    (t.flagW_regsSet _ f).regsIn (by simpa using status)
  have told (t : State) : RegsIn besidePower t (t.sesTold k) :=
    RegsIn.trans (.ite (State.fireNet_touch.regsIn _) (.refl _ t)) (State.report_touch.regsIn _)
  rw [State.sesLost_eq]
  exact closed.trans ((flagged _ _).trans (told _))

theorem State.mem_sessionsOn {s : State} {k : Nat} (h : k ∈ s.sessionsOn) : k < 0x1000 := by
  unfold State.sessionsOn at h
  obtain ⟨e, -, found⟩ := List.mem_filterMap.mp h
  split at found
  case isTrue inside =>
    obtain rfl := Option.some.inj found
    omega
  case isFalse => cases found

theorem State.netWatch_besidePower (s : State) : RegsIn besidePower s s.netWatch := by
  refine RegsIn.trans (RegsIn.foldl _ s fun p hp t => t.linkDown_besidePower (List.mem_range.mp hp)) ?_
  exact RegsIn.foldl _ _ fun k hk t =>
    .ite (t.sesLost_besidePower (State.mem_sessionsOn (List.mem_filter.mp hk).1) _) (.refl _ t)

theorem State.hostDown_besidePower (s : State) : RegsIn besidePower s s.hostDown :=
  s.setReg_regsIn (besidePower_of (by decide)) _

/-! ### The entry into WATCH (R468) -/

/-- The island bits of PW_STATE lie below the device state. -/
def DeviceShown (s t : State) : Prop := t.rf R.PW_STATE 31 30 = s.rf R.PW_STATE 31 30

theorem RegsIn.deviceShown {s t : State} (h : RegsIn besidePower s t) : DeviceShown s t := congrArg (fld · 31 30) h.pwState

theorem DeviceShown.trans {s t u : State} (h : DeviceShown s t) (k : DeviceShown t u) : DeviceShown s u := Eq.trans k h

theorem State.setRb_deviceShown (s : State) {n : Nat} (hn : n < 30) (b : Bool) : DeviceShown s (s.setRb R.PW_STATE n b) :=
  State.rf_setRb_of_outside s (by decide) (by omega)

theorem DeviceShown.foldl {α : Type} {f : State → α → State} (l : List α) (hf : ∀ x ∈ l, ∀ t, DeviceShown t (f t x)) :
    ∀ s, DeviceShown s (l.foldl f s) := by
  induction l with
  | nil => exact fun s => rfl
  | cons x xs ih =>
    exact fun s => (hf x (List.mem_cons_self ..) s).trans (ih (fun y hy => hf y (List.mem_cons_of_mem _ hy)) (f s x))

/-- The drain of an island ends where the device enters WATCH. -/
def State.drainEnded (s : State) (n : Nat) : State :=
  (if s.phase n = .draining then ((s.setPhase n .running).setPhaseEnd n 0).setRb R.PW_STATE n false else s).setRb R.PW_ISLANDS
    (16 + n) false

theorem State.drainEnded_deviceShown (s : State) {n : Nat} (hn : n < 16) : DeviceShown s (s.drainEnded n) := by
  unfold State.drainEnded
  have ended : DeviceShown s
      (if s.phase n = .draining then ((s.setPhase n .running).setPhaseEnd n 0).setRb R.PW_STATE n false else s) := by
    split
    · exact State.setRb_deviceShown ((s.setPhase n .running).setPhaseEnd n 0) (by omega) false
    · rfl
  refine ended.trans (RegsIn.deviceShown ?_)
  exact State.setReg_regsIn _ (besidePower_of (by decide)) _

/-- The cores as they stop where the device enters WATCH. -/
def State.coresParked (s : State) : State :=
  (List.range 8).foldl (fun t n => if t.coreRun n = 1 then t.parkCore n else t) s

def State.drainsEnded (s : State) : State := (List.range 16).foldl (fun t n => t.drainEnded n) s

def State.powerUpsDropped (s : State) : State := s.setPow { s.pow with powerUp := [] }

theorem State.watchSteps_eq (s : State) :
    s.watchSteps = s.coresParked.drainsEnded.powerUpsDropped.dmaWatch.netWatch.hostDown := by
  unfold State.watchSteps State.powerUpsDropped State.drainsEnded
  refine congrArg (fun u : State => (u.setPow { u.pow with powerUp := [] }).dmaWatch.netWatch.hostDown) ?_
  exact congrArg (fun f => List.foldl f s.coresParked (List.range 16)) rfl

theorem State.watchSteps_deviceShown (s : State) : DeviceShown s s.watchSteps := by
  have parked : RegsIn besidePower s s.coresParked :=
    RegsIn.foldl _ s fun n _ t => .ite (State.parkCore_touch.regsIn _) (.refl _ t)
  have drained : DeviceShown s.coresParked s.coresParked.drainsEnded :=
    DeviceShown.foldl _ (fun n hn t => t.drainEnded_deviceShown (List.mem_range.mp hn)) _
  rw [State.watchSteps_eq]
  generalize s.coresParked.drainsEnded = u at *
  have dropped : RegsIn besidePower u u.powerUpsDropped := .of_regs rfl _
  have quiet : RegsIn besidePower u u.powerUpsDropped.dmaWatch.netWatch.hostDown :=
    dropped.trans ((State.dmaWatch_besidePower _).trans
      ((State.netWatch_besidePower _).trans (State.hostDown_besidePower _)))
  exact (parked.deviceShown.trans drained).trans quiet.deviceShown

/-- Whether a request of WATCH is refused (R468). -/
def State.watchBarred (s : State) : Bool :=
  !s.wakeEnabled || s.testMode || (List.range 8).any (fun n => s.coreRun n == 3)

theorem State.watchRequest_barred {s : State} (run : s.device = .run) (barred : s.watchBarred = true) :
    s.watchRequest = s.flag R.PW_STATUS 4 :=
  (if_neg (by simp [run])).trans (if_pos barred)

/-- The device as its entry into WATCH begins. -/
def State.entering (s : State) : State := { s.mpWatch with device := .entering }.setRf R.PW_STATE 31 30 1

theorem State.watchRequest_enters {s : State} (run : s.device = .run) (open_ : s.watchBarred = false) :
    s.watchRequest = if s.entering.anyFlashBusy then s.entering else s.entering.watchSteps :=
  (if_neg (by simp [run])).trans (if_neg (ne_true_of_eq_false open_))

theorem State.entering_touch (s : State) : Touch 0x100101004007 s s.entering :=
  Touch.of State.mpWatch_touch |>.then (Touch.part (Keep.upd_device _ _)) |>.then State.setRf_touch

/-- An entry that nothing refuses begins. -/
theorem State.watchRequest_effect {s : State} (run : s.device = .run) (open_ : s.watchBarred = false) :
    s.watchRequest.device = .entering ∧ s.watchRequest.rf R.PW_STATE 31 30 = 1
    ∧ s.watchRequest.clk.beat = s.clk.beat := by
  rw [State.watchRequest_enters run open_]
  have shown : s.entering.rf R.PW_STATE 31 30 = 1 := State.rf_setRf_self _ (by decide) (by decide)
  have device : s.entering.device = .entering := rfl
  have beat : s.entering.clk.beat = s.clk.beat := congrArg (·.beat) (s.entering_touch.same_part .clk)
  generalize s.entering = u at *
  have steps := State.watchSteps_touch (s := u)
  split
  · exact ⟨device, shown, beat⟩
  · exact ⟨(steps.same_part .device).trans device, Eq.trans u.watchSteps_deviceShown shown,
      (congrArg (·.beat) (steps.same_part .clk)).trans beat⟩

theorem any_congr_mem {α : Type} {l : List α} {f g : α → Bool} (h : ∀ x ∈ l, f x = g x) : l.any f = l.any g := by
  refine Bool.eq_iff_iff.mpr ?_
  simp only [List.any_eq_true]
  exact exists_congr fun x => and_congr_right fun hx => by rw [h x hx]

/-- What a request of WATCH rests on is not in PW_CTRL. -/
theorem State.watchBarred_congr {s t : State} (h : RegsSet [R.PW_CTRL] s t) : t.watchBarred = s.watchBarred := by
  have reg (a : Nat) (ne : a ≠ R.PW_CTRL) : t.reg a = s.reg a := h.regsBut a (by simpa using ne)
  have on : t.pennantsOn = s.pennantsOn := RegsIn.pennantsOn_eq h (fun a ha => by rw [List.mem_singleton.mp ha]; decide)
  have alarms (a : Nat) (ha : a ∈ List.range 4) : t.rb (R.CAL_ALARMa_CTRL a) 29 = s.rb (R.CAL_ALARMa_CTRL a) 29 :=
    congrArg (bit · 29) (reg _ (by have := List.mem_range.mp ha; unfold R.CAL_ALARMa_CTRL R.PW_CTRL; omega))
  have cores (n : Nat) (hn : n ∈ List.range 8) : t.coreRun n = s.coreRun n :=
    congrArg (fld · 31 29) (reg _ (by have := List.mem_range.mp hn; unfold R.CC_STATE R.PW_CTRL; omega))
  have pennants (p : Nat) (hp : p ∈ s.pennantsOn) : t.rb (pnCfg p) 24 = s.rb (pnCfg p) 24 := by
    refine congrArg (bit · 24) (reg _ fun e => ?_)
    have outside := pennantReg_pnCfg (State.lt_of_mem_pennantsOn hp)
    rw [e] at outside
    exact absurd outside (by decide)
  have test : t.testMode = s.testMode := congrArg (bit · 29) (reg _ (by decide))
  have wake : t.wakeEnabled = s.wakeEnabled := by
    simp only [State.wakeEnabled, on, State.rf, reg _ (show R.PW_WAKE_CFG ≠ R.PW_CTRL by decide)]
    rw [any_congr_mem alarms,
      any_congr_mem (l := s.pennantsOn) (g := fun p => pnIsGlobal p && s.rb (pnCfg p) 24) fun p hp => by rw [pennants p hp]]
  simp only [State.watchBarred, wake, test]
  rw [any_congr_mem (g := fun n => s.coreRun n == 3) fun n hn => by rw [cores n hn]]

end Sys2Proof.Machine
end

section
/-!
The device enters WATCH (R468).
-/
set_option Elab.async false
namespace Sys2Proof.Machine
open Sys2Proof

section
variable {s : State} {m : Master} {r : RegRow} (h : s.Writes m .pw r R.PW_CTRL) (v : Word)
include h

/-- The request with its mode bit stored. -/
theorem exec_watchRequest : exec (.watchRequest m v) s =
    .next ((s.setRb R.PW_CTRL 30 (bit (setBit v 31 true) 30)).watchRequest.answer m .done) := by
  have asks : s.pwWrite r R.PW_CTRL (setBit v 31 true) =
      (s.setRb R.PW_CTRL 30 (bit (setBit v 31 true) 30)).watchRequest :=
    (if_pos rfl).trans (if_pos (bit_setBit_self _ _ _ (by decide)))
  have run : exec (.watchRequest m v) s = s.writeCmd m R.PW_CTRL 4 (setBit v 31 true) := rfl
  rw [run, State.writeCmd_eq h rfl _ (State.writeReg_pw h.access (by decide)), asks]

theorem watchRequest_enters (run : s.device = .run) (wake : s.wakeEnabled = true) (test : s.testMode = false)
    (cores : (List.range 8).all (fun n => s.coreRun n != 3) = true) :
    ∃ t, exec (.watchRequest m v) s = .next t
      ∧ t.device = .entering
      ∧ t.rf R.PW_STATE 31 30 = 1
      ∧ t.clk.beat = s.clk.beat
      ∧ t.reply = some ⟨m, .done⟩ := by
  have open_ : s.watchBarred = false := by
    have none_ : (List.range 8).any (fun n => s.coreRun n == 3) = false := by simpa using cores
    simp [State.watchBarred, wake, test, none_]
  have stored := s.setRb_regsSet R.PW_CTRL 30 (bit (setBit v 31 true) 30)
  rw [exec_watchRequest h]
  obtain ⟨device, shown, beat⟩ := State.watchRequest_effect
    (s := s.setRb R.PW_CTRL 30 (bit (setBit v 31 true) 30)) run ((State.watchBarred_congr stored).trans open_)
  exact ⟨_, rfl, device, shown, beat, rfl⟩

theorem watchRequest_refused (run : s.device = .run)
    (barred : s.wakeEnabled = false ∨ s.testMode = true ∨ (List.range 8).any (fun n => s.coreRun n == 3) = true) :
    ∃ t, exec (.watchRequest m v) s = .next t
      ∧ t.device = .run
      ∧ t.rb R.PW_STATUS 4 = true
      ∧ RegsBut [R.PW_CTRL, R.PW_STATUS] s t
      ∧ SameBut [.regs, .scCount, .reply] s t
      ∧ t.reply = some ⟨m, .done⟩ := by
  have shut : s.watchBarred = true := by
    rcases barred with b | b | b <;> simp [State.watchBarred, b]
  have stored := s.setRb_regsSet R.PW_CTRL 30 (bit (setBit v 31 true) 30)
  rw [exec_watchRequest h]
  rw [State.watchRequest_barred (s := s.setRb R.PW_CTRL 30 (bit (setBit v 31 true) 30)) run
    ((State.watchBarred_congr stored).trans shut)]
  have touch : Touch 6 s ((s.setRb R.PW_CTRL 30 (bit (setBit v 31 true) 30)).flag R.PW_STATUS 4) :=
    Touch.of State.setRb_touch |>.then State.flag_touch
  have regs : RegsSet [R.PW_CTRL, R.PW_STATUS] s ((s.setRb R.PW_CTRL 30 (bit (setBit v 31 true) 30)).flag R.PW_STATUS 4) :=
    (stored.mono (by simp)).trans ((State.flag_regsSet _ _ _).mono (by simp))
  have flagged : ((s.setRb R.PW_CTRL 30 (bit (setBit v 31 true) 30)).flag R.PW_STATUS 4).rb R.PW_STATUS 4 = true :=
    State.rb_flag_self _ _ _ (by decide)
  have device := touch.same_part .device
  generalize (s.setRb R.PW_CTRL 30 (bit (setBit v 31 true) 30)).flag R.PW_STATUS 4 = u at *
  have same : SameBut [.regs, .scCount, .reply] s u := touch.sameBut
  exact ⟨_, rfl, device.trans run, flagged, regs.regsBut.answer m _, same.answer (by decide) m _, rfl⟩

end

/-! ### The device has entered WATCH (R468) -/

section
variable (s : State)

/-- The device in WATCH, before its units stop. -/
def State.asleep (s : State) : State :=
  { s with device := .watch }.setPow { s.pow with slept := true, coldWake := !s.rb R.PW_CTRL 30 }

def State.servoHeld (s : State) : State := if s.discMode = 2 then s.setRf R.TB_DISC 5 4 3 else s

def State.enginesStopped (s : State) : State := leUnitsAll.foldl (fun t u => t.leWatch u.1 u.2) s

def State.convertersStopped (s : State) : State := acUnits.foldl (fun t u => t.acWatch u.1 u.2) s

def State.descriptorsLost (s : State) : State :=
  s.clearMem (fun a => (descWord (a / 4 * 4)).isSome || (stateWord (a / 4 * 4)).isSome)

def State.commitsDropped (s : State) : State :=
  (List.range 64).foldl (fun t i => t.setMk (i / 4) (i % 4) { t.mark (i / 4) (i % 4) with commits := [] }) s

def State.islandsUnsynced (s : State) : State :=
  (List.range 16).foldl (fun t n => if t.islandRuns n then t.unsync n else t) s

def State.couplingsDropped (s : State) : State := s.setClk { s.clk with couplings := [] }

theorem State.watchEntered_of {s : State} (entering : s.device = .entering) (idle : s.anyFlashBusy = false) :
    s.watchEntered =
      s.asleep.servoHeld.enginesStopped.convertersStopped.descriptorsLost.commitsDropped.couplingsDropped.islandsUnsynced :=
  if_neg (by simp [entering, idle])

theorem State.unsync_synced (i n : Nat) (hn : n < 32) : (s.unsync i).synced n = if n = i then false else s.synced n := by
  have kept : (s.unsync i).reg R.TB_ISLAND_SYNC = (s.setRb R.TB_ISLAND_SYNC i false).reg R.TB_ISLAND_SYNC :=
    State.setReg_regsBut _ _ _ _ (by unfold R.TB_ISLAND_SYNC R.IC_STATE; simp; omega)
  refine (congrArg (bit · n) kept).trans ((s.rb_setRb_of_lt _ _ _ _ hn).trans ?_)
  simp [State.synced]

/-- Every island that runs loses its sync bit. -/
theorem State.unsynced_foldl {n : Nat} (hn : n < 32) : ∀ (l : List Nat) (s : State),
    s.islandRuns n = true → n ∈ l ∨ s.synced n = false →
      (l.foldl (fun t n => if t.islandRuns n then t.unsync n else t) s).synced n = false
  | [], s, _, h => by simpa using h
  | i :: l, s, runs, h => by
    have runs' : (if s.islandRuns i then s.unsync i else s).islandRuns n = true := by
      split
      · exact runs
      · exact runs
    refine State.unsynced_foldl hn l _ runs' ?_
    by_cases later : n ∈ l
    · exact .inl later
    · right
      dsimp only
      by_cases e : n = i
      · rw [← e, if_pos runs, State.unsync_synced _ _ _ hn, if_pos rfl]
      · have before : s.synced n = false := by simpa [e, later] using h
        split
        · rw [State.unsync_synced _ _ _ hn, if_neg e]
          exact before
        · exact before

/-- What stops after the engines leaves their enables. -/
theorem State.islandsUnsynced_leRun (n m : Nat) :
    s.islandsUnsynced.reg (R.LE_RUN n m) = s.reg (R.LE_RUN n m) := by
  refine foldl_keeps (·.reg (R.LE_RUN n m)) _ (fun t i => ?_) _ s
  split
  · refine (t.unsync_regsSet i).regsBut _ ?_
    simp only [List.mem_cons, List.not_mem_nil, or_false, R.LE_RUN, R.TB_ISLAND_SYNC, R.IC_STATE]
    omega
  · rfl

theorem State.leWatch_reg (n m a : Nat) : (s.leWatch n m).reg a = if a = R.LE_RUN n m then 0#32 else s.reg a :=
  State.reg_setReg s _ _ a

theorem State.leWatch_foldl {n m : Nat} : ∀ (l : List (Nat × Nat)) (s : State),
    (n, m) ∈ l ∨ s.reg (R.LE_RUN n m) = 0#32 →
      (l.foldl (fun t u => t.leWatch u.1 u.2) s).reg (R.LE_RUN n m) = 0#32
  | [], s, h => by simpa using h
  | u :: l, s, h => by
    refine State.leWatch_foldl l _ ?_
    by_cases later : (n, m) ∈ l
    · exact .inl later
    · right
      rw [State.leWatch_reg]
      split
      case isTrue => rfl
      case isFalse other =>
        have notHere : (n, m) ≠ u := fun e => other (by rw [← e])
        simpa [later, notHere] using h

theorem mem_leUnitsAll_of_lt {n m : Nat} (hn : n < 16) (hm : m < 6) : (n, m) ∈ leUnitsAll :=
  List.mem_map.mpr ⟨6 * n + m, List.mem_range.mpr (by omega), Prod.ext (by dsimp only; omega) (by dsimp only; omega)⟩

theorem LE_RUN_ne_AC_STATE (n m i c : Nat) : R.LE_RUN n m ≠ R.AC_STATE i c := by
  unfold R.LE_RUN R.AC_STATE
  omega

theorem State.acWatch_regs (n c : Nat) : (s.acWatch n c).regs = (s.setRf (R.AC_STATE n c) 28 26 0).regs := rfl

theorem State.convertersStopped_regsIn :
    RegsIn (fun a => ∃ i c, c < 2 ∧ a = R.AC_STATE i c) s s.convertersStopped := by
  refine RegsIn.foldl _ s fun u hu t => ?_
  obtain ⟨i, -, rfl⟩ := List.mem_map.mp hu
  have shown : RegsIn (fun a => ∃ i c, c < 2 ∧ a = R.AC_STATE i c) t (t.setRf (R.AC_STATE (i / 2) (i % 2)) 28 26 0) :=
    t.setReg_regsIn ⟨i / 2, i % 2, by omega, rfl⟩ _
  exact shown.trans (.of_regs (t.acWatch_regs _ _) _)

theorem State.commitsDropped_touch : Touch 0x100000 s s.commitsDropped := .foldl fun _ _ => .of State.setMk_touch

theorem State.couplingsDropped_touch : Touch 0x100 s s.couplingsDropped := .of State.setClk_touch

/-- What stops before the islands lose their sync. -/
def State.engineUnitsStopped : State :=
  s.enginesStopped.convertersStopped.descriptorsLost.commitsDropped.couplingsDropped

theorem State.engineUnitsStopped_touch : Touch 0x4920112 s s.engineUnitsStopped :=
  (Touch.foldl fun _ _ => .of State.leWatch_touch : Touch 0x4920112 s s.enginesStopped)
    |>.trans (.foldl fun _ _ => .of State.acWatch_touch : Touch 0x4920112 _ s.enginesStopped.convertersStopped)
    |>.then (State.clearMem_touch : Touch _ _ s.enginesStopped.convertersStopped.descriptorsLost)
    |>.then (State.commitsDropped_touch _)
    |>.then (State.couplingsDropped_touch _)

/-- Every loop engine's enables are clear. -/
theorem State.enginesStopped_leRun {n m : Nat} (hn : n < 16) (hm : m < 6) :
    s.engineUnitsStopped.islandsUnsynced.reg (R.LE_RUN n m) = 0#32 := by
  have dropped (t : State) : t.descriptorsLost.commitsDropped.couplingsDropped.regs = t.regs :=
    Touch.same_part ((.of State.clearMem_touch : Touch 0x4100110 t t.descriptorsLost).then t.descriptorsLost.commitsDropped_touch
      |>.then (State.couplingsDropped_touch _)) .regs
  rw [State.islandsUnsynced_leRun, State.engineUnitsStopped, State.reg_congr (dropped _),
    (State.convertersStopped_regsIn _).reg_eq ?_]
  · exact State.leWatch_foldl _ s (.inl (mem_leUnitsAll_of_lt hn hm))
  · rintro ⟨i, c, -, e⟩
    exact LE_RUN_ne_AC_STATE n m i c e

/-- What stops in the device once it sleeps. -/
def State.unitsStopped : State := s.servoHeld.engineUnitsStopped.islandsUnsynced

theorem State.unitsStopped_touch : Touch 0x4920312 s s.unitsStopped :=
  (Touch.ite (.of State.setRf_touch) .refl : Touch 0x4920312 s s.servoHeld)
    |>.then s.servoHeld.engineUnitsStopped_touch
    |>.trans (.foldl fun _ _ => .ite (.of State.unsync_touch) .refl)

theorem Touch.beat {w : Nat} {s t : State} (h : Touch w s t) (quiet : w.testBit 37 = false := by decide) :
    t.clk.beat = s.clk.beat := (h.keep.same 37 quiet).1

theorem State.unitsStopped_synced {n : Nat} (hn : n < 16) (runs : s.islandRuns n = true) : s.unitsStopped.synced n = false := by
  refine State.unsynced_foldl (by omega) _ _ ?_ (.inl (List.mem_range.mpr hn))
  have before : Touch 0x4920112 s s.servoHeld.engineUnitsStopped :=
    (Touch.ite (.of State.setRf_touch) .refl : Touch 0x4920112 s s.servoHeld) |>.then s.servoHeld.engineUnitsStopped_touch
  rw [State.islandRuns, State.phase, before.same_part .islands]
  exact runs

theorem watchEntered_effect {s : State} (entering : s.device = .entering) (idle : s.anyFlashBusy = false) :
    ∃ t, exec .watchEntered s = .next t
      ∧ t.device = .watch
      ∧ t.pow.slept = true
      ∧ t.pow.coldWake = !s.rb R.PW_CTRL 30
      ∧ t.clk.beat = s.clk.beat
      ∧ (∀ (n : Fin 16) (e : Fin 6), t.reg (R.LE_RUN n.val e.val) = 0#32)
      ∧ (∀ n : Fin 16, s.islandRuns n.val = true → t.synced n.val = false) := by
  refine ⟨s.asleep.unitsStopped, congrArg Host.Outcome.next (State.watchEntered_of entering idle), ?_⟩
  have stops := State.unitsStopped_touch s.asleep
  have pow := stops.same_part .pow
  refine ⟨stops.same_part .device, congrArg PowerState.slept pow, congrArg PowerState.coldWake pow, stops.beat, ?_, ?_⟩
  · exact fun n e => State.enginesStopped_leRun s.asleep.servoHeld n.isLt e.isLt
  · exact fun n runs => State.unitsStopped_synced s.asleep n.isLt runs

end

end Sys2Proof.Machine
end

section
/-!
Wake sources (R469).
-/
set_option Elab.async false
namespace Sys2Proof.Machine
open Sys2Proof

/-! ### Wake sources (R469) -/

section
variable (s : State) (w : WakeSource)

theorem State.noteWake_regsSet : RegsSet [R.PW_WAKE_SRC] s (s.noteWake w) := by
  cases w with
  | ball k l => exact s.setRb_regsSet _ _ _
  | alarm a => exact s.setRb_regsSet _ _ _
  | pennant g => exact .ite (.refl _ s) ((State.setReg_regsSet s _ _).trans (State.setRb_regsSet _ _ _ _))

/-- The device as a wake begins. -/
def State.waking : State := ({ s with device := .waking }.setReg R.PW_WAKE_SRC 0#32).setRf R.PW_STATE 31 30 2

theorem State.wakeSource_asleep {s : State} {w : WakeSource} (wakes : s.wakes w = true) (asleep : s.device = .watch) :
    s.wakeSource w = s.waking.noteWake w := by
  unfold State.wakeSource
  rw [if_neg (by simp [wakes]), asleep]
  rfl

theorem State.wakeSource_entering {s : State} {w : WakeSource} (wakes : s.wakes w = true) (entering : s.device = .entering) :
    s.wakeSource w = (s.waking.noteWake w).flag R.PW_STATUS 5 := by
  unfold State.wakeSource
  rw [if_neg (by simp [wakes]), entering]
  rfl

theorem State.wakeSource_waking {s : State} {w : WakeSource} (wakes : s.wakes w = true) (waking : s.device = .waking) :
    s.wakeSource w = s.noteWake w := by
  unfold State.wakeSource
  rw [if_neg (by simp [wakes]), waking]

theorem State.wakeSource_idle {s : State} {w : WakeSource}
    (h : s.wakes w = false ∨ s.device = .run ∨ s.device = .backup) : s.wakeSource w = s := by
  unfold State.wakeSource
  rcases h with h | h | h
  · exact if_pos (by simp [h])
  · rw [h]
    exact ite_self s
  · rw [h]
    exact ite_self s

theorem State.waking_regsSet : RegsSet [R.PW_STATE, R.PW_WAKE_SRC] s s.waking :=
  RegsSet.trans (.of_regs rfl _) (RegsSet.trans ((State.setReg_regsSet { s with device := .waking } _ _).mono (by simp))
    ((State.setReg_regsSet _ _ _).mono (by simp)))

theorem State.waking_touch : Touch 0x4002 s s.waking :=
  Touch.of (.part (Keep.upd_device s .waking)) |>.then State.setReg_touch |>.then State.setRf_touch

theorem State.waking_src : s.waking.reg R.PW_WAKE_SRC = 0#32 :=
  (State.setReg_regsBut _ _ _ _ (by decide)).trans ((State.reg_setReg _ _ _ _).trans (if_pos rfl))

theorem State.waking_state : s.waking.rf R.PW_STATE 31 30 = 2 := State.rf_setRf_self _ (by decide) (by decide)

theorem setBit_zero (i : Fin 32) : setBit 0#32 i.val true = bitW i.val := by
  revert i
  decide

/-- The state in which a wake has recorded its source. -/
theorem State.wakeNoted_effect :
    (s.waking.noteWake w).device = .waking
    ∧ (s.waking.noteWake w).rf R.PW_STATE 31 30 = 2
    ∧ (∀ (k : Fin 4) (l : Bool), w = .ball k l → (s.waking.noteWake w).reg R.PW_WAKE_SRC = bitW k.val)
    ∧ (∀ k : Fin 4, w = .alarm k → (s.waking.noteWake w).reg R.PW_WAKE_SRC = bitW (4 + k.val))
    ∧ RegsSet [R.PW_STATE, R.PW_WAKE_SRC] s (s.waking.noteWake w)
    ∧ Touch 0x4002 s (s.waking.noteWake w) := by
  have src := s.waking_src
  have state := s.waking_state
  have regs := s.waking_regsSet
  have touch := s.waking_touch
  have device : s.waking.device = .waking := rfl
  generalize s.waking = u at *
  have noted := u.noteWake_regsSet w
  have noteTouch := State.noteWake_touch (s := u) (o := w)
  refine ⟨(noteTouch.same_part .device).trans device, (noted.rf_eq (by decide) 31 30).trans state, ?_, ?_,
    regs.trans (noted.mono (by simp)), touch.then noteTouch⟩
  · rintro k l rfl
    exact (State.reg_setReg _ _ _ _).trans ((if_pos rfl).trans (src ▸ setBit_zero ⟨k.val, by omega⟩))
  · rintro k rfl
    exact (State.reg_setReg _ _ _ _).trans ((if_pos rfl).trans (src ▸ setBit_zero ⟨4 + k.val, by omega⟩))

theorem setBit_true (v : Word) (i : Nat) : setBit v i true = v ||| bitW i := by
  refine BitVec.eq_of_getLsbD_eq fun j hj => ?_
  have new : bit (setBit v i true) j = if j = i then true else bit v j := bit_setBit _ _ _ _ hj
  have old : bit (v ||| bitW i) j = (bit v j || decide (j = i)) := by rw [bit_or, bit_bitW _ _ hj]
  refine new.trans (Eq.trans ?_ old.symm)
  by_cases e : j = i <;> simp [e]

end

end Sys2Proof.Machine
end

section
/-!
Registers that an event of a timer unit writes (R176, R186).
-/
set_option Elab.async false
namespace Sys2Proof.Machine
open Sys2Proof

/-! ### Registers that an event of a timer unit writes (R176, R186) -/

/-- The status registers of encoder ports and of timer units. -/
def tuTold (a : Nat) : Prop := eqStatusReg a ∨ ∃ n k, n < 16 ∧ k < 4 ∧ a = R.TU_STATUS n k

theorem State.mem_slavesOf {s : State} {u x v : Nat} (h : v ∈ s.slavesOf u x) : v < 64 := by
  obtain ⟨e, -, he⟩ := List.mem_filterMap.mp h
  split at he
  case h_1 n k found =>
    obtain ⟨hn, hk⟩ : n < 16 ∧ k < 4 := locate_blkOk found
    split at he
    · obtain rfl := Option.some.inj he
      omega
    · cases he
  case h_2 => cases he

theorem State.couple_regsIn (s : State) (u : Nat) (fall : Bool) {v : Nat} (hv : v < 64) :
    RegsIn tuTold s (s.couple u fall v) := by
  unfold State.couple
  dsimp only
  exact .ite (.of_regs rfl _)
    (.ite (s.flag_regsIn (.inr ⟨v / 4, v % 4, by omega, by omega, rfl⟩) 8) (.of_regs rfl _))

theorem State.fireTu_regsIn (s : State) (n k e : Nat) : RegsIn tuTold s (s.fireTu n k e) := by
  unfold State.fireTu
  dsimp only
  have told : RegsIn tuTold s (((s.fireIsland n (0x60 + 16 * k + e)).enqueue (s.directTriggers n k e)).ssiArrivals 2
      (fun n' _ v => n' == n && trigTu v == some (k, e))) :=
    RegsIn.trans (State.fireIsland_touch.regsIn _) (RegsIn.trans (State.enqueue_touch.regsIn _)
      ((State.ssiArrivals_regsIn _ _ _).mono fun _ => .inl))
  split
  · exact told.trans (RegsIn.foldl _ _ fun v hv t => t.couple_regsIn _ _ (State.mem_slavesOf hv))
  · exact told

/-- The registers of a unit that change where its configuration is taken over. -/
def tuTaken (n k a : Nat) : Prop :=
  tuTold a ∨ a = R.TU_STATE n k ∨ a = R.TU_TRIP_STATE n k ∨ a = R.TU_STATUS n k ∨ ∃ j, j < 6 ∧ a = R.TU_CHj_CAP_SUB n k j

section
variable (s : State) (n k : Nat)

/-- Whether input `i` is disabled or has no source. -/
def State.tripIdle (i : Nat) : Bool :=
  !bit (s.reg (R.TU_TRIPi_CFG n k i)) 31 || (s.tripSource n k (fld (s.reg (R.TU_TRIPi_CFG n k i)) 7 0)).isNone

/-- The input as TU_TRIP_STATE shows it. -/
def State.tripShown (i : Nat) : State :=
  if bit (s.reg (R.TU_TRIPi_CFG n k i)) 29 then
    (s.setRb (R.TU_TRIP_STATE n k) (8 + i) true).setRb (R.TU_TRIP_STATE n k) i true
  else s.setRb (R.TU_TRIP_STATE n k) (8 + i) true

/-- What a trip that was not in force does. -/
def State.tripBegun (i : Nat) : State :=
  (((s.setRb (R.TU_STATE n k) (8 + i) true).flag (R.TU_STATUS n k) 3).fireTu n k 4).pullLow n k

theorem State.tripOn_eq (i : Nat) : s.tripOn n k i =
    if s.tripIdle n k i then s
    else if (s.tripShown n k i).rb (R.TU_STATE n k) (8 + i) then s.tripShown n k i
    else (s.tripShown n k i).tripBegun n k i := rfl

theorem State.tripShown_regsSet (i : Nat) : RegsSet [R.TU_TRIP_STATE n k] s (s.tripShown n k i) :=
  .ite ((s.setRb_regsSet _ _ _).trans (State.setRb_regsSet _ _ _ _)) (s.setRb_regsSet _ _ _)

theorem State.tripBegun_regsIn (i : Nat) : RegsIn (tuTaken n k) s (s.tripBegun n k i) := by
  have state : RegsIn (tuTaken n k) s (s.setRb (R.TU_STATE n k) (8 + i) true) := s.setReg_regsIn (.inr (.inl rfl)) _
  have flagged : RegsIn (tuTaken n k) s ((s.setRb (R.TU_STATE n k) (8 + i) true).flag (R.TU_STATUS n k) 3) :=
    state.trans (State.flag_regsIn _ (.inr (.inr (.inr (.inl rfl)))) 3)
  exact flagged.trans (RegsIn.trans ((State.fireTu_regsIn _ _ _ _).mono fun _ => .inl) (State.pullLow_touch.regsIn _))

theorem State.tripOn_regsIn (i : Nat) : RegsIn (tuTaken n k) s (s.tripOn n k i) := by
  have shown : RegsIn (tuTaken n k) s (s.tripShown n k i) :=
    (s.tripShown_regsSet n k i).regsIn (by simp [tuTaken])
  rw [State.tripOn_eq]
  exact .ite (.refl _ s) (.ite shown (shown.trans (State.tripBegun_regsIn _ n k i)))

theorem State.tripChanged_regsIn (i : Nat) (old : Word) : RegsIn (tuTaken n k) s (s.tripChanged n k i old) := by
  have trip : tuTaken n k (R.TU_TRIP_STATE n k) := .inr (.inr (.inl rfl))
  unfold State.tripChanged
  dsimp only
  refine .ite (.refl _ s) ?_
  split
  · exact .ite (s.tripOn_regsIn n k i) (s.setReg_regsIn trip _)
  · exact s.setReg_regsIn trip _

theorem State.tuChanged_regsIn (o : State) : RegsIn (tuTaken n k) s (s.tuChanged n k o) := by
  unfold State.tuChanged
  dsimp only
  refine RegsIn.trans (RegsIn.foldl _ s fun j hj t => ?_) (RegsIn.foldl _ _ fun i _ t => t.tripChanged_regsIn n k i _)
  have captured : tuTaken n k (R.TU_CHj_CAP_SUB n k j) := .inr (.inr (.inr (.inr ⟨j, List.mem_range.mp hj, rfl⟩)))
  exact .ite (RegsIn.trans (.of_regs rfl _) (State.setReg_regsIn _ captured _)) (.refl _ t)

theorem State.chanChanged_regsIn (j t : Nat) (old : Word) : RegsIn (tuTaken n k) s (s.chanChanged n k j t old) := by
  have status : tuTaken n k (R.TU_STATUS n k) := .inr (.inr (.inr (.inl rfl)))
  unfold State.chanChanged
  dsimp only
  refine .ite (.refl _ s) (.ite (.of_regs rfl _) (.ite ?_ (.of_regs rfl _)))
  exact RegsIn.trans (.of_regs rfl _) (State.flag_regsIn _ status 11)

theorem State.chansChanged_regsIn (t : Nat) (o : State) : RegsIn (tuTaken n k) s (s.chansChanged n k t o) := by
  refine .ite (RegsIn.foldl _ s fun j _ u => u.chanChanged_regsIn n k j t _) (.refl _ s)

end

end Sys2Proof.Machine
end

section
/-!
Timer units as they wake (R470).
-/
set_option Elab.async false
namespace Sys2Proof.Machine
open Sys2Proof

/-! ### What a step of a wake leaves: the device state, its flag, and what the collector keeps -/

structure Wakes (s t : State) : Prop where
  shown : DeviceShown s t
  woke : s.rb R.PW_STATUS 6 = true → t.rb R.PW_STATUS 6 = true
  kept : t.faults.kept = s.faults.kept
  device : t.device = s.device
  slept : t.pow.slept = s.pow.slept
  beat : t.clk.beat = s.clk.beat

theorem Wakes.refl (s : State) : Wakes s s := ⟨rfl, id, rfl, rfl, rfl, rfl⟩

theorem Wakes.trans {s t u : State} (h : Wakes s t) (k : Wakes t u) : Wakes s u :=
  ⟨h.shown.trans k.shown, k.woke ∘ h.woke, k.kept.trans h.kept, k.device.trans h.device, k.slept.trans h.slept,
    k.beat.trans h.beat⟩

theorem Wakes.ite {s t u : State} {c : Prop} [Decidable c] (h : Wakes s t) (k : Wakes s u) : Wakes s (if c then t else u) := by
  split
  · exact h
  · exact k

theorem Wakes.foldl {α : Type} {f : State → α → State} :
    ∀ (l : List α) (s : State), (∀ x ∈ l, ∀ t, Wakes t (f t x)) → Wakes s (l.foldl f s)
  | [], s, _ => .refl s
  | x :: l, s, hf => (hf x List.mem_cons_self s).trans
      (Wakes.foldl l (f s x) fun y hy => hf y (List.mem_cons_of_mem x hy))

/-- An operation that touches neither the device state, the collector, the power record nor the beat count. -/
theorem Wakes.of_same {w : Nat} {s t : State} (h : Touch w s t) (state : t.reg R.PW_STATE = s.reg R.PW_STATE)
    (status : t.reg R.PW_STATUS = s.reg R.PW_STATUS) (device : w.testBit 14 = false := by decide) (faults : w.testBit 15 = false := by decide)
    (pow : w.testBit 24 = false := by decide) (beat : w.testBit 37 = false := by decide) : Wakes s t where
  shown := congrArg (fld · 31 30) state
  woke := fun h => (congrArg (bit · 6) status).trans h
  kept := congrArg FaultState.kept (h.keep.same 15 faults)
  device := h.keep.same 14 device
  slept := congrArg PowerState.slept (h.keep.same 24 pow)
  beat := h.beat beat

theorem Wakes.of {w : Nat} {s t : State} (h : Touch w s t) (regs : RegsIn besidePower s t)
    (device : w.testBit 14 = false := by decide) (faults : w.testBit 15 = false := by decide)
    (pow : w.testBit 24 = false := by decide) (beat : w.testBit 37 = false := by decide) : Wakes s t :=
  .of_same h regs.pwState regs.pwStatus device faults pow beat

/-! ### Timer units, converters and islands as they wake -/

theorem besidePower_island {a : Nat} (h : a < 0x50000000) : besidePower a := besidePower_of (by omega)

theorem tuTaken_besidePower {n k a : Nat} (hn : n < 16) (hk : k < 4) (h : tuTaken n k a) : besidePower a := by
  refine besidePower_island ?_
  rcases h with (⟨i, q, hi, hq, rfl⟩ | ⟨i, q, hi, hq, rfl⟩) | rfl | rfl | rfl | ⟨j, hj, rfl⟩
  all_goals
    simp only [R.EQ_STATUS, R.TU_STATUS, R.TU_STATE, R.TU_TRIP_STATE, R.TU_CHj_CAP_SUB]
    omega

theorem locate_PW : locate R.PW_STATE = some (.pw, 0x14) ∧ locate R.PW_STATUS = some (.pw, 0x18) := by decide

/-- Registers of a timer unit are not the power controller's. -/
theorem besidePower_of_tu {n k a : Nat} (h : (locate a).map (·.1) = some (.tu n k)) : besidePower a := by
  constructor
  · rintro rfl
    rw [locate_PW.1] at h
    cases h
  · rintro rfl
    rw [locate_PW.2] at h
    cases h

theorem not_epochReg_PW : ¬ epochReg R.PW_STATE ∧ ¬ epochReg R.PW_STATUS := by
  unfold epochReg
  decide

theorem State.finishEpochs_besidePower (s : State) : RegsIn besidePower s s.finishEpochs :=
  s.finishEpochs_epochRegs.mono fun a h => by
    constructor
    · rintro rfl
      exact absurd h not_epochReg_PW.1
    · rintro rfl
      exact absurd h not_epochReg_PW.2

theorem State.setActive_besidePower (s : State) {n k a : Nat} (h : entryBlk a = some (.tu n k)) (v : Word) :
    RegsIn besidePower s (s.setActive a v) := by
  unfold State.setActive
  split
  case isTrue => exact State.setMword_touch.regsIn _
  case isFalse word =>
    have plain : descWord a = none := by simpa using word
    rw [entryBlk, plain] at h
    exact s.setReg_regsIn (besidePower_of_tu h) v

theorem State.swapBlk_besidePower (s : State) (n k : Nat) : RegsIn besidePower s (s.swapBlk (.tu n k)) := by
  unfold State.swapBlk State.swap
  dsimp only
  refine RegsIn.trans ?_ (State.finishEpochs_besidePower _)
  refine RegsIn.trans (RegsIn.foldl _ s fun e he t => ?_) (.of_regs rfl _)
  have sel := (List.mem_filter.mp he).2
  simp only [Bool.and_eq_true, beq_iff_eq] at sel
  exact t.setActive_besidePower sel.2 e.value

section
variable (s : State) {n k : Nat} (hn : n < 16) (hk : k < 4)
include hn hk

theorem State.tuSwap_besidePower : RegsIn besidePower s (s.tuSwap n k) := by
  have taken (t u : State) (h : RegsIn (tuTaken n k) t u) : RegsIn besidePower t u := h.mono fun _ => tuTaken_besidePower hn hk
  refine .ite ?_ (.refl _ s)
  exact (s.swapBlk_besidePower n k).trans ((taken _ _ (State.tuChanged_regsIn _ n k s)).trans
    (taken _ _ (State.chansChanged_regsIn _ n k _ s)))

/-- A unit as it stops, before its due entries. -/
def State.tuHalted (s : State) (n k : Nat) : State :=
  ((s.setRb (R.TU_STATE n k) 31 false).setRb (R.TU_CTRL n k) 31 false).setTu n k { s.tu n k with
    stopAtBoundary := false
    stopNow := false
    chans := (s.tu n k).chans.map (fun c => { c with ref := false, outA := .reset, outB := .reset }) }

omit hn hk in
theorem State.tuStop_eq (fires : Bool) : s.tuStop n k fires =
    if fires then ((s.tuHalted n k).tuSwap n k).fireTu n k 3 else (s.tuHalted n k).tuSwap n k := rfl

omit hn hk in
theorem State.tuHalted_regsSet : RegsSet [R.TU_STATE n k, R.TU_CTRL n k] s (s.tuHalted n k) :=
  RegsSet.trans ((s.setRb_regsSet (R.TU_STATE n k) 31 false).mono (by simp))
    (RegsSet.trans ((State.setRb_regsSet _ (R.TU_CTRL n k) 31 false).mono (by simp)) (.of_regs rfl _))

theorem State.fireTu_besidePower (e : Nat) : RegsIn besidePower s (s.fireTu n k e) :=
  (s.fireTu_regsIn n k e).mono fun _ h => tuTaken_besidePower hn hk (.inl h)

theorem State.tuStop_besidePower (fires : Bool) : RegsIn besidePower s (s.tuStop n k fires) := by
  have halted : RegsIn besidePower s (s.tuHalted n k) := (s.tuHalted_regsSet).regsIn (by
    simp only [List.mem_cons, List.not_mem_nil, or_false, R.TU_STATE, R.TU_CTRL]
    rintro a (rfl | rfl) <;> exact besidePower_island (by omega))
  have swapped := halted.trans (State.tuSwap_besidePower _ hn hk)
  rw [State.tuStop_eq]
  exact .ite (swapped.trans (State.fireTu_besidePower _ hn hk 3)) swapped

/-- A one-shot unit whose end has passed in the time asleep. -/
def State.shotMissed (s : State) (n k : Nat) : State :=
  (s.setReg (R.TU_MISSED n k) 1#32).setReg (R.TU_PCOUNT n k) (s.reg (R.TU_PCOUNT n k) + 1#32)

/-- The missed counts and the position of a unit that has slept. -/
def State.sleepCounted (s : State) (n k cnt periods : Nat) : State :=
  let s := s.setReg (R.TU_CNT n k) (w32 cnt)
  let s := s.setReg (R.TU_PCOUNT n k) (w32 ((s.reg (R.TU_PCOUNT n k)).toNat + periods))
  s.setReg (R.TU_MISSED n k) (w32 (satTo 0xFFFFFFFF periods))

def State.missTold (s : State) (n k : Nat) : State := (s.flag (R.TU_STATUS n k) 7).fireTu n k 13

/-- Whether an event point has passed in the time asleep. -/
def State.eventsMissed (s : State) (n k e : Nat) : Bool :=
  s.tuMode n k != 3 && (List.range 6).any (fun j =>
    let v := (s.reg (R.TU_CHj_EVT n k j)).toNat
    decide (v < s.tuP n k) && decide (s.tuPos n k < v) && decide (v ≤ s.tuPos n k + e))

def State.wakeHeld (s : State) (n k : Nat) : State := s.setTu n k { s.tu n k with wakeHold := true }

def State.tuAwake (s : State) (n k dB : Nat) : State :=
  if s.tuRunning n k && (s.tu n k).gateOpen && !s.tuFrozen n k then
    if s.tuMode n k = 2 ∧ 0 < (s.tuPos n k + 5 * dB) / s.tuP n k then ((s.shotMissed n k).tuStop n k false).missTold n k
    else
      let t := s.sleepCounted n k ((s.tuPos n k + 5 * dB) % s.tuP n k) ((s.tuPos n k + 5 * dB) / s.tuP n k)
      if 0 < (s.tuPos n k + 5 * dB) / s.tuP n k ∨ s.eventsMissed n k (5 * dB) then t.missTold n k else t
  else s

omit hn hk in
theorem State.tuWake_eq (n k dB : Nat) : s.tuWake n k dB = (s.wakeHeld n k).tuAwake n k dB := rfl

theorem besidePower_counts : besidePower (R.TU_CNT n k) ∧ besidePower (R.TU_PCOUNT n k) ∧ besidePower (R.TU_MISSED n k)
    ∧ besidePower (R.TU_STATUS n k) := by
  unfold R.TU_CNT R.TU_PCOUNT R.TU_MISSED R.TU_STATUS
  refine ⟨?_, ?_, ?_, ?_⟩ <;> exact besidePower_island (by omega)

theorem State.missTold_besidePower : RegsIn besidePower s (s.missTold n k) :=
  RegsIn.trans (s.flag_regsIn (besidePower_counts hn hk).2.2.2 7) (State.fireTu_besidePower _ hn hk 13)

theorem State.tuWake_besidePower (dB : Nat) : RegsIn besidePower s (s.tuWake n k dB) := by
  obtain ⟨count, periods, missed, -⟩ := besidePower_counts hn hk
  rw [State.tuWake_eq]
  have held : RegsIn besidePower s (s.wakeHeld n k) := .of_regs rfl _
  refine held.trans ?_
  generalize s.wakeHeld n k = u
  have shot : RegsIn besidePower u (u.shotMissed n k) := (u.setReg_regsIn missed _).trans (State.setReg_regsIn _ periods _)
  have moved (c p : Nat) : RegsIn besidePower u (u.sleepCounted n k c p) :=
    (u.setReg_regsIn count _).trans ((State.setReg_regsIn _ periods _).trans (State.setReg_regsIn _ missed _))
  refine .ite (.ite ?_ (.ite ?_ ?_)) (.refl _ u)
  · exact shot.trans ((State.tuStop_besidePower _ hn hk false).trans (State.missTold_besidePower _ hn hk))
  · exact (moved _ _).trans (State.missTold_besidePower _ hn hk)
  · exact moved _ _

end

end Sys2Proof.Machine
end

section
/-!
Islands and stores as they wake (R470).
-/
set_option Elab.async false
namespace Sys2Proof.Machine
open Sys2Proof

/-! ### Islands as they wake (R470) -/

theorem State.conditionEnded_kept (s : State) (x : Nat) : (s.conditionEnded x).faults.kept = s.faults.kept := by
  unfold State.conditionEnded
  dsimp only
  split
  · rw [State.setFaultRec_eq, (State.faultN_touch).same_part .faults]
    split
    · exact (congrArg FaultState.kept ((State.flag_touch : Touch _ (s.putFaultRec x _) _).same_part .faults)).trans rfl
    · rfl
  · rfl

theorem State.islandSync_wakes (s : State) {n : Nat} (hn : n < 16) : Wakes s (s.islandSync n) := by
  have loaded : RegsIn besidePower s (s.countLoaded n) := by
    have sync : RegsIn besidePower s (s.setRb R.TB_ISLAND_SYNC n true) :=
      s.setReg_regsIn (besidePower_of (by decide)) _
    have island : RegsIn besidePower s ((s.setRb R.TB_ISLAND_SYNC n true).setRf (R.IC_STATE n) 31 30 3) :=
      sync.trans (State.setReg_regsIn _ (besidePower_island (by unfold R.IC_STATE; omega)) _)
    exact island.trans (.of_regs (s.countLoaded_regs n) _)
  have pw : DeviceShown ((s.countLoaded n).heldScheduled n) (((s.countLoaded n).heldScheduled n).setRb R.PW_STATE n false) :=
    State.setRb_deviceShown _ (by omega) false
  have status : RegsSet [R.PW_STATE, R.FC_STATUS] (s.countLoaded n) (s.islandSync n) := s.islandSync_regsSet n
  have held : RegsIn besidePower (s.countLoaded n) ((s.countLoaded n).heldScheduled n) := .ite (.of_regs rfl _) (.refl _ _)
  have ended (t : State) : RegsIn besidePower t (t.conditionEnded (0xC0 + n)) :=
    (t.conditionEnded_regsSet _).regsIn (by simpa using besidePower_of (show R.FC_STATUS < 0x59000014 ∨ _ by decide))
  have touch : Touch 0x4000008B07 s (s.islandSync n) := State.islandSync_touch
  refine ⟨?_, fun h => ?_, ?_, touch.same_part .device, congrArg PowerState.slept (touch.same_part .pow), touch.beat⟩
  · rw [State.islandSync_eq]
    exact (loaded.deviceShown.trans held.deviceShown).trans (pw.trans (ended _).deviceShown)
  · refine (status.rb_eq (by decide) 6).trans (Eq.trans ?_ h)
    exact congrArg (bit · 6) loaded.pwStatus
  · rw [State.islandSync_eq, State.conditionEnded_kept]
    have counted : (s.countLoaded n).faults = s.faults :=
      (State.changeD_touch : Touch 0x4000000100 _ (s.countLoaded n)).same_part .faults
    have scheduled : ((s.countLoaded n).heldScheduled n).faults = (s.countLoaded n).faults := by
      unfold State.heldScheduled
      split <;> rfl
    exact congrArg FaultState.kept (scheduled.trans counted)

theorem State.driftCheck_besidePower (s : State) {n c : Nat} (hn : n < 16) (hc : c < 2) (temp : Nat) :
    RegsIn besidePower s (s.driftCheck n c temp) := by
  have cal : RegsIn besidePower s (s.setRb (R.AC_CAL n c) 28 true) :=
    s.setReg_regsIn (besidePower_island (by unfold R.AC_CAL; omega)) _
  have told : RegsIn besidePower s ((s.setRb (R.AC_CAL n c) 28 true).flag (R.AC_STATUS n c) 10) :=
    cal.trans (State.flag_regsIn _ (besidePower_island (by unfold R.AC_STATUS; omega)) 10)
  exact .ite (told.trans (State.fireIsland_touch.regsIn _)) (.refl _ s)

/-- The drift checks of an island that shows a temperature. -/
def State.driftsChecked (s : State) (n : Nat) : State :=
  if bit (s.reg (R.IC_TEMP n)) 31 then
    (List.range 2).foldl (fun t c => t.driftCheck n c (fld (s.reg (R.IC_TEMP n)) 15 0)) s
  else s

theorem State.islandWake_wakes (s : State) (dB : Nat) {n : Nat} (hn : n < 16) : Wakes s (s.islandWake dB n) := by
  have timers : Wakes s ((List.range 4).foldl (fun t k => t.tuWake n k dB) s) :=
    Wakes.foldl _ s fun k hk t => .of State.tuWake_touch (t.tuWake_besidePower hn (List.mem_range.mp hk) dB)
  have ports (t : State) : Wakes t ((List.range 2).foldl (fun t q => t.flag (R.EQ_STATUS n q) 7) t) :=
    Wakes.foldl _ t fun q hq t => .of State.flag_touch
      (t.flag_regsIn (besidePower_island (by have := List.mem_range.mp hq; unfold R.EQ_STATUS; omega)) 7)
  have drifts (t : State) : Wakes t (t.driftsChecked n) :=
    .ite (Wakes.foldl _ t fun c hc t => .of State.driftCheck_touch (t.driftCheck_besidePower hn (List.mem_range.mp hc) _))
      (.refl t)
  exact .ite (.refl s) (timers.trans ((ports _).trans ((drifts _).trans (State.islandSync_wakes _ hn))))

/-! ### What else wakes -/

section
variable (s : State)

theorem State.resetRegs_wakes (p : Nat → Bool) (state : p R.PW_STATE = false) (status : p R.PW_STATUS = false) :
    Wakes s (s.resetRegs p) :=
  .of_same (w := 0xE) State.resetRegs_touch ((s.reg_resetRegs p _).trans (if_neg (by simp [state]))) ((s.reg_resetRegs p _).trans (if_neg (by simp [status])))

theorem State.hostReset_wakes : Wakes s s.hostReset := by
  refine (s.resetRegs_wakes (fun a => decide (R.HP_OWNER ≤ a) && decide (a < R.HP_OWNER + 0x1000)) (by decide)
    (by decide)).trans ?_
  have owned (t : State) (v : Word) : Wakes t (t.setReg R.HP_OWNER v) :=
    .of State.setReg_touch (t.setReg_regsIn (besidePower_of (by decide)) v)
  exact (owned _ _).trans (.of State.setHost_touch (.of_regs rfl _))

theorem State.netWake_wakes : Wakes s s.netWake := by
  refine .of State.netWake_touch (RegsIn.trans ?_ (RegsIn.foldl _ _ fun x _ t =>
    t.flag_regsIn (besidePower_of (by decide)) _))
  exact .of_regs rfl _

theorem State.filtersWake_wakes : Wakes s s.filtersWake := .of State.filtersWake_touch (State.filtersWake_touch.regsIn _)

theorem State.directsDue_wakes : Wakes s s.directsDue := .of State.directsDue_touch (State.directsDue_touch.regsIn _)

theorem State.refreshPennants_wakes : Wakes s s.refreshPennants :=
  .of State.refreshPennants_touch (State.refreshPennants_touch.regsIn _)

theorem State.setMp_wakes (x : MpState) : Wakes s (s.setMp x) := ⟨rfl, id, rfl, rfl, rfl, rfl⟩

end

end Sys2Proof.Machine
end

section
/-!
Late actions and lost memories after a sleep (R470).
-/
set_option Elab.async false
namespace Sys2Proof.Machine
open Sys2Proof

/-! ### Late actions and lost memories after a sleep -/

section
variable (s : State)

theorem State.lateActions_besidePower : RegsIn besidePower s s.lateActions := by
  have timebase (t : State) (i : Nat) : RegsIn besidePower t (t.flag R.TB_STATUS i) :=
    t.flag_regsIn (besidePower_of (by decide)) i
  unfold State.lateActions
  extract_lets now clk0 s1 asap1 clk1 s2 s3
  have step : RegsIn besidePower s s1 := by
    unfold s1
    split
    · exact .ite (RegsIn.trans (.of_regs rfl _) (timebase _ 1)) (.refl _ s)
    · exact .refl _ s
  have start : RegsIn besidePower s1 s2 := by
    unfold s2
    unfold clk1
    clear_value asap1 s1
    split
    · exact .ite ((timebase _ _).trans (.of_regs rfl _)) (.refl _ _)
    · exact .refl _ _
  have epochs : RegsIn besidePower s2 s3 := by
    refine RegsIn.foldl _ s2 fun i hi t => ?_
    have hi := List.mem_range.mp hi
    have slot : besidePower (R.EP_SLOTs_RESULT i) ∧ besidePower (R.EP_SLOTs_STATE i) := by
      unfold R.EP_SLOTs_RESULT R.EP_SLOTs_STATE
      exact ⟨besidePower_of (by omega), besidePower_of (by omega)⟩
    have flagged (f : Nat) : RegsIn besidePower t ((t.flag R.EP_STATUS f).resultFlag i f) :=
      (t.flag_regsIn (besidePower_of (by decide)) f).trans (State.setReg_regsIn _ slot.1 _)
    exact .ite (.ite ((flagged 2).trans (.of_regs rfl _)) ((flagged 1).trans (State.setReg_regsIn _ slot.2 _))) (.refl _ t)
  refine (step.trans start).trans (epochs.trans (.ite (RegsIn.trans ?_ (.of_regs rfl _)) (.refl _ s3)))
  exact s3.flag_regsIn (besidePower_of (by decide)) _

theorem State.lateActions_wakes : Wakes s s.lateActions := .of State.lateActions_touch s.lateActions_besidePower

theorem State.unfreezeUnits_besidePower (who : Nat) : RegsIn besidePower s (s.unfreezeUnits who) := by
  refine RegsIn.foldl _ s fun u hu t => .ite ?_ (.refl _ t)
  obtain ⟨hn, hk⟩ := mem_allUnits_lt hu
  have shown : besidePower (R.TU_STATE u.1 u.2) := besidePower_island (by unfold R.TU_STATE; omega)
  have frozen (x : State) (b : Bool) : RegsIn besidePower x (x.setRb (R.TU_STATE u.1 u.2) 30 b) := x.setReg_regsIn shown _
  exact RegsIn.trans (.of_regs rfl _) ((frozen _ _).trans (State.holdOutputs_touch.regsIn _))

/-- The running slot of a core that stops is ready. -/
def State.slotYielded (n : Nat) : State :=
  if s.slotSt n (s.runSlot n) = 3 then s.setSlotSt n (s.runSlot n) 2 else s

/-- The record of a core that has stopped. -/
def State.coreCleared (n : Nat) (r : CoreRec) : State :=
  (s.setCoreRec n { r with pair := none, deferred := [], halted := false, haltedAll := false }).setCoreRun n 0

theorem State.coreStop_eq (n : Nat) : s.coreStop n =
    if ((s.unpair n).coreRec n).halted then
      ((s.unpair n).slotYielded n |>.coreCleared n ((s.unpair n).coreRec n)).unfreezeUnits n
    else (s.unpair n).slotYielded n |>.coreCleared n ((s.unpair n).coreRec n) := rfl

theorem State.coreStop_besidePower (n : Nat) : RegsIn besidePower s (s.coreStop n) := by
  have slot (t : State) (i v : Nat) : RegsIn besidePower t (t.setSlotSt n i v) :=
    t.setReg_regsIn (besidePower_of (by unfold R.SCH_SLOTs_STATE; omega)) _
  have run (t : State) : RegsIn besidePower t (t.setCoreRun n 0) :=
    t.setReg_regsIn (besidePower_of (by unfold R.CC_STATE; omega)) _
  have alone : RegsIn besidePower s (s.unpair n) := State.unpair_touch.regsIn _
  rw [State.coreStop_eq]
  generalize s.unpair n = u at *
  have yielded : RegsIn besidePower u (u.slotYielded n) := .ite (slot u _ 2) (.refl _ u)
  have cleared (t : State) (r : CoreRec) : RegsIn besidePower t (t.coreCleared n r) := RegsIn.trans (.of_regs rfl _) (run _)
  have stopped := alone.trans (yielded.trans (cleared _ (u.coreRec n)))
  exact .ite (stopped.trans (State.unfreezeUnits_besidePower _ n)) stopped

theorem State.queuesLost_besidePower : RegsIn besidePower s s.queuesLost := by
  have reset (l : List Nat) : RegsIn besidePower s (l.foldl (fun t q => t.qReset q) s) :=
    RegsIn.foldl l s fun q _ t => State.qReset_touch.regsIn _
  exact .ite (reset _) ((reset _).trans (State.flag_regsIn _ (besidePower_of (by decide)) 4))

/-- The central memories as a wake finds them lost. -/
def State.memoriesLost : State := { s.clearMem centralRam with stamps := [] }

def State.coresCold : State :=
  (List.range 8).foldl (fun t n => if t.upperLocked n then t else (t.coreStop n).setRb (R.CC_CTRL n) 31 true) s

def State.bootDue : State := s.setPow { s.pow with booting := true }

theorem State.coldWakeUp_eq : ∃ x, s.coldWakeUp =
    (s.memoriesLost.coresCold.queuesLost.flag R.PW_STATUS 7).bootDue.setMp x := ⟨_, rfl⟩

theorem State.coldWakeUp_wakes : Wakes s s.coldWakeUp := by
  have lost : Wakes s s.memoriesLost := ⟨rfl, id, rfl, rfl, rfl, rfl⟩
  have cold (t : State) : Wakes t t.coresCold := Wakes.foldl _ t fun n _ u =>
    .ite (.refl u) (Wakes.trans (.of State.coreStop_touch (u.coreStop_besidePower n))
      (.of State.setRb_touch (State.setReg_regsIn _ (besidePower_of (by unfold R.CC_CTRL; omega)) _)))
  have flagged (t : State) : Wakes t (t.flag R.PW_STATUS 7) := by
    have touch : Touch 6 t (t.flag R.PW_STATUS 7) := State.flag_touch
    refine ⟨(t.flag_regsSet R.PW_STATUS 7).rf_eq (by decide) _ _, fun h => ?_, congrArg FaultState.kept (touch.same_part .faults),
      touch.same_part .device, congrArg PowerState.slept (touch.same_part .pow), touch.beat⟩
    rw [State.rb_flag_other _ _ _ _ (by decide) (by decide) (by decide)]
    exact h
  have booted (t : State) : Wakes t t.bootDue := ⟨rfl, id, rfl, rfl, rfl, rfl⟩
  obtain ⟨x, woken⟩ := s.coldWakeUp_eq
  rw [woken]
  exact lost.trans ((cold _).trans ((Wakes.of State.queuesLost_touch (State.queuesLost_besidePower _)).trans
    ((flagged _).trans ((booted _).trans (State.setMp_wakes _ _)))))

end

end Sys2Proof.Machine
end

section
/-!
A wake completes, and the commands of WATCH (R468 to R470).
-/
set_option Elab.async false
namespace Sys2Proof.Machine
open Sys2Proof

/-! ### A wake completes (R470) -/

section
variable (s : State)

/-- The device in RUN, with what its collector kept reported. -/
def State.wakeBegun : State := ({ s with device := .run }.setRf R.PW_STATE 31 30 0).flag R.PW_STATUS 6

def State.keptReported : State := { s with faults := { s.faults with kept := [] } }.enqueue s.faults.kept

/-- The device whose beat has not stopped. -/
def State.wokenLight : State := (s.setMp { s.mp with serving := s.mp.started }).directsDue.netWake.hostReset

/-- The clock once the beats asleep are added. -/
def State.beatsPassed (beats : BitVec 64) : State :=
  (s.setPow { s.pow with slept := false }).setClk { s.clk with beat := s.clk.beat + beats }

/-- The machine after its islands and its stores have woken. -/
def State.islandsWoken (cold : Bool) (beats : BitVec 64) : State :=
  (List.range 16).foldl (fun t n => t.islandWake beats.toNat n) (s.setRb R.PW_STATE 28 (!cold))

def State.storesWoken : State := { s.resetRegs dmaFlashReg with dmas := [] }.lateActions.filtersWake.netWake.hostReset

def State.servicesWoken (cold : Bool) : State :=
  if cold then s.coldWakeUp else (s.setMp { s.mp with serving := s.mp.started }).directsDue

def State.wokenDeep (beats : BitVec 64) : State :=
  ((((s.beatsPassed beats).islandsWoken s.pow.coldWake beats).storesWoken).servicesWoken s.pow.coldWake).refreshPennants

theorem State.wakeComplete_of {s : State} (waking : s.device = .waking) (beats : BitVec 64) : s.wakeComplete beats =
    if s.wakeBegun.keptReported.pow.slept then s.wakeBegun.keptReported.wokenDeep beats
    else s.wakeBegun.keptReported.wokenLight := by
  refine (if_neg (by simp [waking])).trans ?_
  cases slept : s.wakeBegun.keptReported.pow.slept
  · exact (if_pos (show (!s.wakeBegun.keptReported.pow.slept) = true by simp [slept])).trans rfl
  · exact (if_neg (show ¬ (!s.wakeBegun.keptReported.pow.slept) = true by simp [slept])).trans rfl

theorem State.wokenLight_wakes : Wakes s s.wokenLight :=
  (s.setMp_wakes _).trans ((State.directsDue_wakes _).trans ((State.netWake_wakes _).trans (State.hostReset_wakes _)))

theorem State.islandsWoken_wakes (cold : Bool) (beats : BitVec 64) : Wakes s (s.islandsWoken cold beats) := by
  have mode : Wakes s (s.setRb R.PW_STATE 28 (!cold)) :=
    ⟨s.setRb_deviceShown (by decide) _, fun h => h ▸ (s.setRb_regsSet _ _ _).rb_eq (by decide) 6, rfl, rfl, rfl, rfl⟩
  exact mode.trans (Wakes.foldl _ _ fun n hn t => t.islandWake_wakes _ (List.mem_range.mp hn))

theorem State.storesWoken_wakes : Wakes s s.storesWoken := by
  have reset : Wakes s (s.resetRegs dmaFlashReg) := s.resetRegs_wakes _ (by decide) (by decide)
  have freed : Wakes (s.resetRegs dmaFlashReg) { s.resetRegs dmaFlashReg with dmas := [] } := ⟨rfl, id, rfl, rfl, rfl, rfl⟩
  exact (reset.trans freed).trans ((State.lateActions_wakes _).trans ((State.filtersWake_wakes _).trans
    ((State.netWake_wakes _).trans (State.hostReset_wakes _))))

theorem State.servicesWoken_wakes (cold : Bool) : Wakes s (s.servicesWoken cold) :=
  .ite s.coldWakeUp_wakes ((s.setMp_wakes _).trans (State.directsDue_wakes _))

theorem State.wokenDeep_wakes (beats : BitVec 64) : Wakes (s.beatsPassed beats) (s.wokenDeep beats) :=
  (State.islandsWoken_wakes _ _ _).trans ((State.storesWoken_wakes _).trans
    ((State.servicesWoken_wakes _ _).trans (State.refreshPennants_wakes _)))

end

theorem wakeComplete_effect {s : State} (waking : s.device = .waking) (beats : BitVec 64) :
    ∃ t, exec (.wakeComplete beats) s = .next t
      ∧ t.device = .run
      ∧ t.rf R.PW_STATE 31 30 = 0
      ∧ t.rb R.PW_STATUS 6 = true
      ∧ (t.clk.beat = if s.pow.slept then s.clk.beat + beats else s.clk.beat)
      ∧ t.pow.slept = false
      ∧ t.faults.kept = [] := by
  refine ⟨_, congrArg Host.Outcome.next (State.wakeComplete_of waking beats), ?_⟩
  have begun : Touch 6 { s with device := .run } s.wakeBegun := Touch.of State.setRf_touch |>.then State.flag_touch
  have shown : s.wakeBegun.keptReported.rf R.PW_STATE 31 30 = 0 :=
    ((State.flag_regsSet _ R.PW_STATUS 6).rf_eq (by decide) 31 30).trans (State.rf_setRf_self _ (by decide) (by decide))
  have woke : s.wakeBegun.keptReported.rb R.PW_STATUS 6 = true := State.rb_flag_self _ _ _ (by decide)
  have device : s.wakeBegun.keptReported.device = .run := begun.same_part .device
  have pow : s.wakeBegun.keptReported.pow = s.pow := begun.same_part .pow
  have beat : s.wakeBegun.keptReported.clk.beat = s.clk.beat := begun.beat
  have kept : s.wakeBegun.keptReported.faults.kept = [] := rfl
  generalize s.wakeBegun.keptReported = v at *
  rw [pow]
  cases slept : s.pow.slept
  case false =>
    have w := v.wokenLight_wakes
    exact ⟨w.device.trans device, Eq.trans w.shown shown, w.woke woke, w.beat.trans beat,
      w.slept.trans ((congrArg PowerState.slept pow).trans slept), w.kept.trans kept⟩
  case true =>
    have w := v.wokenDeep_wakes beats
    exact ⟨w.device.trans device, Eq.trans w.shown shown, w.woke woke, w.beat.trans (congrArg (· + beats) beat),
      w.slept, w.kept.trans kept⟩

/-- Settles O26: each command by its case of the device state. -/
theorem watchAndWakeCommands : Obligations.WatchAndWakeCommands := by
  refine ⟨fun m v s r h run wake test cores => watchRequest_enters h v run wake test cores,
    fun m v s r h run barred => watchRequest_refused h v run barred, fun s entering idle => watchEntered_effect entering idle,
    fun s other => ?_, fun w s wakes asleep => ?_, fun w s wakes entering => ?_, fun w s wakes waking => ?_,
    fun w s idle => congrArg Host.Outcome.next (State.wakeSource_idle idle),
    fun beats s waking => wakeComplete_effect waking beats, fun beats s other => ?_⟩
  · refine congrArg Host.Outcome.next (if_pos ?_)
    rcases other with h | h <;> simp [h]
  · obtain ⟨device, shown, ball, alarm, regs, touch⟩ := s.wakeNoted_effect w
    exact ⟨_, congrArg Host.Outcome.next (State.wakeSource_asleep wakes asleep), device, shown, ball, alarm, regs.regsBut,
      touch.sameBut⟩
  · obtain ⟨device, shown, -, -, regs, touch⟩ := s.wakeNoted_effect w
    refine ⟨_, congrArg Host.Outcome.next (State.wakeSource_entering wakes entering), ?_⟩
    generalize s.waking.noteWake w = u at *
    have told : Touch 0x4006 s (u.flag R.PW_STATUS 5) := Touch.of touch |>.then State.flag_touch
    refine ⟨(State.flag_touch.same_part .device).trans device, ((u.flag_regsSet _ 5).rf_eq (by decide) _ _).trans shown,
      State.rb_flag_self _ _ _ (by decide), ?_, told.sameBut⟩
    exact RegsSet.regsBut ((regs.mono (by simp)).trans ((u.flag_regsSet _ 5).mono (by simp)))
  · refine ⟨_, congrArg Host.Outcome.next (State.wakeSource_waking wakes waking), ?_, (s.noteWake_regsSet w).regsBut,
      State.noteWake_touch.sameBut⟩
    rintro k l rfl
    exact (State.reg_setReg _ _ _ _).trans ((if_pos rfl).trans (setBit_true _ _))
  · exact congrArg Host.Outcome.next (if_pos (by simpa using other))

end Sys2Proof.Machine
end

section
/-!
Writes to a timer unit's registers and duty load words (R172, R174).
-/
set_option Elab.async false
namespace Sys2Proof.Machine
open Sys2Proof

/-! ### Writes to a timer unit's registers (R18, R172) -/

theorem State.writeReg_tu {s : State} {d n k : Nat} {r : RegRow} {a : Nat} {v : Word}
    (access : r.access = .ow ∨ r.access = .rw ∨ r.access = .wo) (notOwner : a ≠ R.TU_OWNER n k) :
    s.writeReg d (.tu n k) r a v = (.done, s.tuWrite d n k r a v) := by
  obtain e | e | e := access <;> simp [State.writeReg, e, State.engineDrops, ownerReg, notOwner]

/-- A write that reaches a unit's own register comes from a domain as secure as the unit's owner asks. -/
theorem State.Writes.tu_secure {s : State} {m : Master} {n k a : Nat} {r : RegRow} (h : s.Writes m (.tu n k) r a)
    (island : a < 0x50000000) (notOwner : a ≠ R.TU_OWNER n k) :
    (s.ownerSec (R.TU_OWNER n k) && !s.domSecure (s.domainOf m)) = false := by
  have may := h.may
  have open_ : (r.access == .ro || r.access == .hs || r.access == .ll) = false := by
    obtain e | e | e := h.access <;> rw [e] <;> rfl
  have shared : domain0Only (.tu n k) a = false := by simp [domain0Only, ownerReg, notOwner]
  have n1 : a ≠ R.PW_TEST := by unfold R.PW_TEST; omega
  have n2 : ¬ (a = R.EP_POLICY ∨ a = R.EP_STAGE ∨ a = R.EP_ABANDON ∨ a = R.EP_HAUL_GO ∨ a = R.FB_FIRE) := by
    unfold R.EP_POLICY R.EP_STAGE R.EP_ABANDON R.EP_HAUL_GO R.FB_FIRE; omega
  have n3 : ¬ ((a = R.TB_RATE ∨ a = R.TB_STEP_LO ∨ a = R.TB_STEP_HI) ∧ s.discMode = 2 ∧ s.domainOf m = 0) := by
    rintro ⟨named, -⟩
    unfold R.TB_RATE R.TB_STEP_LO R.TB_STEP_HI at named
    omega
  have port : portOf a = none := if_neg (by omega)
  have frame : frameOf a = none := if_neg (by omega)
  have slot : slotOfAddr a = none := if_neg (by omega)
  have box : mailboxOf a = none := if_neg (by omega)
  have session : sessionAt a = none := if_neg (by omega)
  unfold State.mayWriteReg at may
  rw [open_, shared, if_neg n1, if_neg n2, if_neg n3, port, frame, slot, box, session] at may
  simp only [Bool.false_eq_true, if_false, State.secureReg, box, ownerReg, Bool.and_eq_true] at may
  revert may
  cases s.ownerSec (R.TU_OWNER n k) <;> simp

section
variable (n k : Nat)

/-- A duty load word as it is taken, pending. -/
def State.dlrTaken (s : State) (w : Nat) (v : Word) : State :=
  ((s.setTu n k { s.tu n k with
    pendBy := (s.tu n k).pendBy.set w 0
    pendAt := (s.tu n k).pendAt.set w s.absTick }).setReg (R.TU_DLRw n k w) v).setRb (R.TU_DLR_PEND n k) w true

theorem State.dlrWrite_of_owner {s : State} {d : Nat} (owns : s.owns d (R.TU_OWNER n k) = true)
    (secure : (s.ownerSec (R.TU_OWNER n k) && !s.domSecure d) = false) (w : Nat) (v : Word) :
    s.dlrWrite d 0 n k w v = s.dlrTaken n k w v := by
  refine (if_neg (by simp [owns, secure])).trans (if_neg ?_)
  rintro ⟨engine, -⟩
  exact engine rfl

theorem State.dlrTaken_touch (s : State) (w : Nat) (v : Word) : Touch 0x10002 s (s.dlrTaken n k w v) :=
  Touch.of State.setTu_touch |>.then State.setReg_touch |>.then State.setRb_touch

theorem State.dlrTaken_regsSet (s : State) (w : Nat) (v : Word) :
    RegsSet [R.TU_DLRw n k w, R.TU_DLR_PEND n k] s (s.dlrTaken n k w v) :=
  RegsSet.trans (.of_regs rfl _) (RegsSet.trans ((State.setReg_regsSet _ _ _).mono (by simp))
    ((State.setRb_regsSet _ _ _ _).mono (by simp)))

theorem State.dlrTaken_word (s : State) {w : Nat} (hw : w < 13) (v : Word) :
    (s.dlrTaken n k w v).reg (R.TU_DLRw n k w) = v := by
  have apart : R.TU_DLRw n k w ∉ [R.TU_DLR_PEND n k] := by
    simp [R.TU_DLRw, R.TU_DLR_PEND]
    omega
  exact ((State.setRb_regsSet _ _ _ _).regsBut _ apart).trans ((State.reg_setReg _ _ _ _).trans (if_pos rfl))

theorem find_dlrWord {w : Nat} (hw : w < 13) :
    (List.range 13).find? (fun x => R.TU_DLRw n k w == R.TU_DLRw n k x) = some w := by
  rw [List.find?_range_eq_some]
  refine ⟨by simp, List.mem_range.mpr hw, fun j hj => ?_⟩
  simp [R.TU_DLRw]
  omega

end

section
variable {s : State} {m : Master} {n : Fin 16} {k : Fin 4} {w : Fin 13} {r : RegRow}
  (h : s.Writes m (.tu n.val k.val) r (R.TU_DLRw n.val k.val w.val))
include h

/-- A duty load word is stored and becomes pending (R174). -/
theorem dutyLoadWrite_effect (v : Word) (owns : s.owns (s.domainOf m) (R.TU_OWNER n.val k.val) = true) :
    ∃ t, exec (.dutyLoadWrite m n k w v) s = .next t
      ∧ t.reg (R.TU_DLRw n.val k.val w.val) = v
      ∧ t.rb (R.TU_DLR_PEND n.val k.val) w.val = true
      ∧ RegsBut [R.TU_DLRw n.val k.val w.val, R.TU_DLR_PEND n.val k.val] s t
      ∧ SameBut [.regs, .tus, .reply] s t
      ∧ t.reply = some ⟨m, .done⟩ := by
  have island : R.TU_DLRw n.val k.val w.val < 0x50000000 := by unfold R.TU_DLRw; omega
  have notOwner : R.TU_DLRw n.val k.val w.val ≠ R.TU_OWNER n.val k.val := by unfold R.TU_DLRw R.TU_OWNER; omega
  have notCtrl : R.TU_DLRw n.val k.val w.val ≠ R.TU_CTRL n.val k.val := by unfold R.TU_DLRw R.TU_CTRL; omega
  have notClear : R.TU_DLRw n.val k.val w.val ≠ R.TU_TRIP_CLR n.val k.val := by unfold R.TU_DLRw R.TU_TRIP_CLR; omega
  have taken : s.tuWrite (s.domainOf m) n.val k.val r (R.TU_DLRw n.val k.val w.val) v = s.dlrTaken n.val k.val w.val v := by
    unfold State.tuWrite
    rw [if_neg notCtrl, if_neg notClear, find_dlrWord _ _ w.isLt]
    exact State.dlrWrite_of_owner _ _ owns (h.tu_secure island notOwner) _ v
  have run : exec (.dutyLoadWrite m n k w v) s = s.writeCmd m (R.TU_DLRw n.val k.val w.val) 4 v := rfl
  rw [run, State.writeCmd_eq h (by unfold R.TU_DLRw; omega) v (State.writeReg_tu h.access notOwner), taken]
  exact ⟨_, rfl, s.dlrTaken_word _ _ w.isLt v, State.rb_setRb_self _ (by omega) _,
    (s.dlrTaken_regsSet _ _ _ v).regsBut.answer m _,
    SameBut.answer ((s.dlrTaken_touch _ _ _ v).sameBut) (by decide) m _, rfl⟩

end

end Sys2Proof.Machine
end

section
/-!
Trips (R176 to R178).
-/
set_option Elab.async false
namespace Sys2Proof.Machine
open Sys2Proof

/-! ### Trips (R176 to R178) -/

section
variable (s : State) (n k : Nat)

/-- The registers that a trip writes beside TU_TRIP_STATE. -/
def tripReg (a : Nat) : Prop := a = R.TU_STATE n k ∨ a = R.TU_STATUS n k ∨ eqStatusReg a

theorem not_eqStatus_tu {a : Nat} (h : a % 0x1000000 < 0x240000) : ¬ eqStatusReg a := by
  rintro ⟨i, q, -, hq, rfl⟩
  unfold R.EQ_STATUS at h
  omega

theorem State.tripBegun_regs (i : Nat) : RegsIn (tripReg n k) s (s.tripBegun n k i) := by
  have state : RegsIn (tripReg n k) s (s.setRb (R.TU_STATE n k) (8 + i) true) := s.setReg_regsIn (.inl rfl) _
  have flagged : RegsIn (tripReg n k) s ((s.setRb (R.TU_STATE n k) (8 + i) true).flag (R.TU_STATUS n k) 3) :=
    state.trans (State.flag_regsIn _ (.inr (.inl rfl)) 3)
  exact flagged.trans (RegsIn.trans ((State.fireTu_quiet_regsIn _ n k (e := 4) rfl).mono fun _ h => .inr (.inr h))
    (State.pullLow_touch.regsIn _))

/-- What the event and the forced edges of a trip leave: every register but status registers of encoder ports. -/
theorem State.tripTold_reg {a : Nat} (h : a % 0x1000000 < 0x240000) : ((s.fireTu n k 4).pullLow n k).reg a = s.reg a :=
  (RegsIn.trans (State.fireTu_quiet_regsIn s n k (e := 4) rfl) (State.pullLow_touch.regsIn _)).reg_eq (not_eqStatus_tu h)

theorem State.tripBegun_shown {i : Nat} (hi : i < 8) (hk : k < 4) :
    (s.tripBegun n k i).rb (R.TU_STATE n k) (8 + i) = true ∧ (s.tripBegun n k i).rb (R.TU_STATUS n k) 3 = true := by
  have state : R.TU_STATE n k % 0x1000000 < 0x240000 := by unfold R.TU_STATE; omega
  have status : R.TU_STATUS n k % 0x1000000 < 0x240000 := by unfold R.TU_STATUS; omega
  have apart : R.TU_STATE n k ∉ [R.TU_STATUS n k] := by simp [R.TU_STATE, R.TU_STATUS]
  unfold State.tripBegun State.rb
  rw [State.tripTold_reg _ _ _ state, State.tripTold_reg _ _ _ status]
  exact ⟨((State.flag_regsSet _ _ 3).rb_eq apart _).trans (State.rb_setRb_self _ (by omega) _),
    State.rb_flag_self _ _ _ (by decide)⟩

theorem State.tripShown_trip {i : Nat} (hi : i < 8) :
    (s.tripShown n k i).rb (R.TU_TRIP_STATE n k) (8 + i) = true
    ∧ (s.rb (R.TU_TRIPi_CFG n k i) 29 = true → (s.tripShown n k i).rb (R.TU_TRIP_STATE n k) i = true) := by
  unfold State.tripShown
  constructor
  · split
    · rw [State.rb_setRb_of_lt _ _ _ _ _ (by omega), if_neg (by omega), State.rb_setRb_self _ (by omega)]
    · exact State.rb_setRb_self _ (by omega) _
  · intro latch
    rw [if_pos (show bit (s.reg (R.TU_TRIPi_CFG n k i)) 29 = true from latch)]
    exact State.rb_setRb_self _ (by omega) _

end

section
variable {n : Fin 16} {k : Fin 4} {inp : Fin 8} {s : State}

/-- A trip of an enabled input with a source: the input and its trip show, whatever was in force before. -/
theorem tripOn_effect (on : s.rb (R.TU_TRIPi_CFG n.val k.val inp.val) 31 = true)
    (source : (s.tripSource n.val k.val (s.rf (R.TU_TRIPi_CFG n.val k.val inp.val) 7 0)).isSome = true) :
    (s.tripOn n.val k.val inp.val).rb (R.TU_TRIP_STATE n.val k.val) (8 + inp.val) = true
    ∧ (s.rb (R.TU_TRIPi_CFG n.val k.val inp.val) 29 = true → (s.tripOn n.val k.val inp.val).rb (R.TU_TRIP_STATE n.val k.val) inp.val = true)
    ∧ (s.tripOn n.val k.val inp.val).rb (R.TU_STATE n.val k.val) (8 + inp.val) = true
    ∧ (s.tripOn n.val k.val inp.val).reg (R.TU_TRIPi_CFG n.val k.val inp.val) = s.reg (R.TU_TRIPi_CFG n.val k.val inp.val)
    ∧ (s.rb (R.TU_STATE n.val k.val) (8 + inp.val) = false → (s.tripOn n.val k.val inp.val).rb (R.TU_STATUS n.val k.val) 3 = true) := by
  have acts : ¬ s.tripIdle n.val k.val inp.val = true := by
    simp only [State.rb, State.rf] at on source
    simp [State.tripIdle, on, Option.isSome_iff_ne_none.mp source]
  have regs := s.tripShown_regsSet n.val k.val inp.val
  obtain ⟨trip, latch⟩ := s.tripShown_trip n.val k.val inp.isLt
  have state : (s.tripShown n.val k.val inp.val).rb (R.TU_STATE n.val k.val) (8 + inp.val) =
      s.rb (R.TU_STATE n.val k.val) (8 + inp.val) := regs.rb_eq (by simp [R.TU_STATE, R.TU_TRIP_STATE]) _
  have cfg : (s.tripShown n.val k.val inp.val).reg (R.TU_TRIPi_CFG n.val k.val inp.val) =
      s.reg (R.TU_TRIPi_CFG n.val k.val inp.val) := regs.regsBut _ (by simp [R.TU_TRIPi_CFG, R.TU_TRIP_STATE]; omega)
  rw [State.tripOn_eq, if_neg acts]
  generalize s.tripShown n.val k.val inp.val = u at *
  split
  case isTrue already => exact ⟨trip, latch, already, cfg, fun low => by rw [← state, already] at low; cases low⟩
  case isFalse =>
    have begun := u.tripBegun_regs n.val k.val inp.val
    obtain ⟨shown, flagged⟩ := u.tripBegun_shown n.val k.val inp.isLt k.isLt
    have kept (a : Nat) (ha : ¬ tripReg n.val k.val a) : (u.tripBegun n.val k.val inp.val).reg a = u.reg a := begun.reg_eq ha
    have tripOut : ¬ tripReg n.val k.val (R.TU_TRIP_STATE n.val k.val) := by
      rintro (e | e | e)
      · simp [R.TU_TRIP_STATE, R.TU_STATE] at e
      · simp [R.TU_TRIP_STATE, R.TU_STATUS] at e
      · exact not_eqStatus_tu (by unfold R.TU_TRIP_STATE; omega) e
    have cfgOut : ¬ tripReg n.val k.val (R.TU_TRIPi_CFG n.val k.val inp.val) := by
      rintro (e | e | e)
      · unfold R.TU_TRIPi_CFG R.TU_STATE at e; omega
      · unfold R.TU_TRIPi_CFG R.TU_STATUS at e; omega
      · exact not_eqStatus_tu (by unfold R.TU_TRIPi_CFG; omega) e
    refine ⟨?_, fun l => ?_, shown, (kept _ cfgOut).trans cfg, fun _ => flagged⟩
    · rw [State.rb, kept _ tripOut]
      exact trip
    · rw [State.rb, kept _ tripOut]
      exact latch l

/-- A trip in force holds the outputs that its input names with ACTION SAFE. -/
theorem State.safeHeld_of_trip {t : State} {n k i j : Nat} (hi : i < 8) (trip : t.rb (R.TU_STATE n k) (8 + i) = true)
    (named : t.rb (R.TU_TRIPi_CFG n k i) (22 + j) = true) (safe : t.rb (R.TU_TRIPi_CFG n k i) 28 = false) :
    t.safeHeld n k j = true := by
  have action : t.rf (R.TU_TRIPi_CFG n k i) 28 28 = 0 := by
    refine Nat.eq_of_testBit_eq fun x => ?_
    have low : (t.reg (R.TU_TRIPi_CFG n k i)).getLsbD 28 = false := safe
    rw [State.rf, testBit_fld, Nat.zero_testBit]
    by_cases first : x = 0
    · subst first
      exact (congrArg (decide (0 < 1) && ·) low).trans rfl
    · simp [first]
  have holds : t.tripHolds n k j 0 = true :=
    List.any_eq_true.mpr ⟨i, List.mem_range.mpr hi, by simp [trip, named, action]⟩
  simp [State.safeHeld, holds]

theorem tripActive_effect (on : s.rb (R.TU_TRIPi_CFG n.val k.val inp.val) 31 = true)
    (source : (s.tripSource n.val k.val (s.rf (R.TU_TRIPi_CFG n.val k.val inp.val) 7 0)).isSome = true) :
    ∃ t, exec (.tripActive n k inp) s = .next t
      ∧ t.rb (R.TU_TRIP_STATE n.val k.val) (8 + inp.val) = true
      ∧ (s.rb (R.TU_TRIPi_CFG n.val k.val inp.val) 29 = true → t.rb (R.TU_TRIP_STATE n.val k.val) inp.val = true)
      ∧ t.rb (R.TU_STATE n.val k.val) (8 + inp.val) = true
      ∧ (∀ j : Fin 6, s.rb (R.TU_TRIPi_CFG n.val k.val inp.val) (22 + j.val) = true →
          s.rb (R.TU_TRIPi_CFG n.val k.val inp.val) 28 = false → t.safeHeld n.val k.val j.val = true)
      ∧ (s.rb (R.TU_STATE n.val k.val) (8 + inp.val) = false → t.rb (R.TU_STATUS n.val k.val) 3 = true)
      ∧ t.mem = s.mem := by
  obtain ⟨trip, latch, state, cfg, flag⟩ := tripOn_effect on source
  have mem : (s.tripOn n.val k.val inp.val).mem = s.mem := State.tripOn_touch.same_part .mem
  refine ⟨_, rfl, trip, latch, state, fun j named safe => ?_, flag, mem⟩
  exact State.safeHeld_of_trip inp.isLt state ((congrArg (bit · (22 + j.val)) cfg).trans named)
    ((congrArg (bit · 28) cfg).trans safe)

theorem tripActive_idle (idle : s.rb (R.TU_TRIPi_CFG n.val k.val inp.val) 31 = false
    ∨ s.tripSource n.val k.val (s.rf (R.TU_TRIPi_CFG n.val k.val inp.val) 7 0) = none) :
    exec (.tripActive n k inp) s = .next s := by
  refine congrArg Host.Outcome.next ((State.tripOn_eq s n.val k.val inp.val).trans (if_pos ?_))
  simp only [State.rb, State.rf] at idle
  rcases idle with h | h <;> simp [State.tripIdle, h]

theorem tripInputInactive_effect : ∃ t, exec (.tripInputInactive n k inp) s = .next t
    ∧ t.rb (R.TU_TRIP_STATE n.val k.val) (8 + inp.val) = false
    ∧ t.rb (R.TU_TRIP_STATE n.val k.val) inp.val = s.rb (R.TU_TRIP_STATE n.val k.val) inp.val
    ∧ RegsBut [R.TU_TRIP_STATE n.val k.val] s t
    ∧ SameBut [.regs] s t := by
  refine ⟨_, rfl, State.rb_setRb_self _ (by omega) _, ?_, (s.setRb_regsSet _ _ _).regsBut, State.setRb_touch.sameBut⟩
  rw [State.rb_setRb_of_lt _ _ _ _ _ (by omega), if_neg (by omega)]

end

end Sys2Proof.Machine
end

section
/-!
The release of trip latches (R178).
-/
set_option Elab.async false
namespace Sys2Proof.Machine
open Sys2Proof

/-! ### The release of latches and of the system hold (R178, R179) -/

/-- A word put together from single bits. -/
theorem testBit_bits (p : Nat → Bool) : ∀ N : Nat,
    (List.range N).foldl (fun a i => a + b2n (p i) * 2 ^ i) 0 < 2 ^ N
    ∧ ∀ j, ((List.range N).foldl (fun a i => a + b2n (p i) * 2 ^ i) 0).testBit j = (decide (j < N) && p j)
  | 0 => by simp
  | N + 1 => by
    obtain ⟨lt, bits⟩ := testBit_bits p N
    rw [List.range_succ, List.foldl_append, List.foldl_cons, List.foldl_nil]
    generalize (List.range N).foldl (fun a i => a + b2n (p i) * 2 ^ i) 0 = x at *
    have one : b2n (p N) ≤ 1 := by unfold b2n; split <;> omega
    refine ⟨?_, fun j => ?_⟩
    · have : b2n (p N) * 2 ^ N ≤ 2 ^ N := by simpa using Nat.mul_le_mul_right (2 ^ N) one
      rw [Nat.pow_succ]
      omega
    · rw [Nat.add_comm, Nat.mul_comm, Nat.testBit_two_pow_mul_add _ lt]
      split
      case isTrue below => rw [bits, decide_eq_true below, decide_eq_true (by omega : j < N + 1)]
      case isFalse above =>
        by_cases last : j = N
        · subst last
          cases p j <;> simp [b2n]
        · have high : (b2n (p N)).testBit (j - N) = false :=
            Nat.testBit_lt_two_pow (lt_of_le_of_lt one (Nat.one_lt_two_pow (by omega)))
          rw [high, decide_eq_false (by omega : ¬ j < N + 1)]
          rfl

section
variable (s : State) (n k : Nat) (v : Word)

/-- Whether a latch stays. -/
def latchStays (st v : Word) (i : Nat) : Bool := bit st i && !(bit v i && !bit st (8 + i))

/-- The latches after a write. -/
def State.latchesCleared : State :=
  s.setRf (R.TU_TRIP_STATE n k) 7 0
    ((List.range 8).foldl (fun a i => a + b2n (latchStays (s.reg (R.TU_TRIP_STATE n k)) v i) * 2 ^ i) 0)

theorem State.tripClr_eq : s.tripClr n k v =
    if bit v 8 then (s.latchesCleared n k v).sysRelease n k else s.latchesCleared n k v := rfl

theorem State.latchesCleared_rb {i : Nat} (hi : i < 8) : (s.latchesCleared n k v).rb (R.TU_TRIP_STATE n k) i =
    latchStays (s.reg (R.TU_TRIP_STATE n k)) v i := by
  obtain ⟨-, bits⟩ := testBit_bits (latchStays (s.reg (R.TU_TRIP_STATE n k)) v) 8
  refine (congrArg (bit · i) ((State.reg_setReg _ _ _ _).trans (if_pos rfl))).trans ?_
  rw [bit_setFld _ _ _ _ _ (by omega), if_pos (by omega), Nat.sub_zero, bits, decide_eq_true hi, Bool.true_and]

theorem State.latchesCleared_rf {hi lo : Nat} (h : hi < 32) (above : 7 < lo) :
    (s.latchesCleared n k v).rf (R.TU_TRIP_STATE n k) hi lo = s.rf (R.TU_TRIP_STATE n k) hi lo :=
  State.rf_setRf_disjoint _ h (.inr above)

theorem State.latchesCleared_rb_above {i : Nat} (h : i < 32) (above : 7 < i) :
    (s.latchesCleared n k v).rb (R.TU_TRIP_STATE n k) i = s.rb (R.TU_TRIP_STATE n k) i := by
  refine (congrArg (bit · i) ((State.reg_setReg _ _ _ _).trans (if_pos rfl))).trans ?_
  rw [bit_setFld _ _ _ _ _ h, if_neg (by omega)]
  rfl

theorem State.latchesCleared_regsSet : RegsSet [R.TU_TRIP_STATE n k] s (s.latchesCleared n k v) := s.setReg_regsSet _ _

end

section
variable {s : State} {m : Master} {n : Fin 16} {k : Fin 4} {r : RegRow}
  (h : s.Writes m (.tu n.val k.val) r (R.TU_TRIP_CLR n.val k.val))
include h

theorem State.Writes.tripClr (v : Word) : s.writeCmd m (R.TU_TRIP_CLR n.val k.val) 4 v =
    .next ((s.tripClr n.val k.val v).answer m .done) := by
  have notOwner : R.TU_TRIP_CLR n.val k.val ≠ R.TU_OWNER n.val k.val := by unfold R.TU_TRIP_CLR R.TU_OWNER; omega
  have notCtrl : R.TU_TRIP_CLR n.val k.val ≠ R.TU_CTRL n.val k.val := by unfold R.TU_TRIP_CLR R.TU_CTRL; omega
  have write : s.tuWrite (s.domainOf m) n.val k.val r (R.TU_TRIP_CLR n.val k.val) v = s.tripClr n.val k.val v :=
    (if_neg notCtrl).trans (if_pos rfl)
  rw [State.writeCmd_eq h (by unfold R.TU_TRIP_CLR; omega) v (State.writeReg_tu h.access notOwner), write]

theorem tripLatchClear_effect (v : Word) : ∃ t, exec (.tripLatchClear m n k v) s = .next t
    ∧ (∀ i : Fin 8, t.rb (R.TU_TRIP_STATE n.val k.val) i.val = (s.rb (R.TU_TRIP_STATE n.val k.val) i.val
        && !(bit v i.val && !s.rb (R.TU_TRIP_STATE n.val k.val) (8 + i.val))))
    ∧ t.rf (R.TU_TRIP_STATE n.val k.val) 31 8 = s.rf (R.TU_TRIP_STATE n.val k.val) 31 8
    ∧ RegsBut [R.TU_TRIP_STATE n.val k.val] s t
    ∧ SameBut [.regs, .reply] s t
    ∧ t.reply = some ⟨m, .done⟩ := by
  have cleared : s.tripClr n.val k.val (setBit v 8 false) = s.latchesCleared n.val k.val (setBit v 8 false) :=
    (State.tripClr_eq _ _ _ _).trans (if_neg (by rw [bit_setBit_self _ _ _ (by decide)]; decide))
  refine ⟨_, h.tripClr (setBit v 8 false), ?_⟩
  rw [cleared]
  refine ⟨fun i => ?_, s.latchesCleared_rf _ _ _ (by decide) (by decide), ?_, ?_, rfl⟩
  · have low : bit (setBit v 8 false) i.val = bit v i.val := by
      rw [bit_setBit _ _ _ _ (by omega), if_neg (by omega)]
    exact (s.latchesCleared_rb _ _ _ i.isLt).trans (by rw [latchStays, low]; rfl)
  · exact (s.latchesCleared_regsSet _ _ _).regsBut.answer m _
  · exact SameBut.answer (State.setRf_touch.sameBut) (by decide) m _

end

end Sys2Proof.Machine
end

section
/-!
The release of the system hold (R179).
-/
set_option Elab.async false
namespace Sys2Proof.Machine
open Sys2Proof

section
variable {s u : State} {n k : Nat}

/-- What keeps a system hold in force is not in TU_TRIP_STATE. -/
theorem State.causeInForce_congr (hn : n < 16) (hk : k < 4) (regs : RegsSet [R.TU_TRIP_STATE n k] s u) (tus : u.tus = s.tus) (clk : u.clk = s.clk)
    (faults : u.faults = s.faults) (c : Nat) : u.causeInForce n k c = s.causeInForce n k c := by
  have reg (a : Nat) (ne : a ≠ R.TU_TRIP_STATE n k) : u.reg a = s.reg a := regs.regsBut a (by simpa using ne)
  have rec_ : u.tu n k = s.tu n k := congrArg (Store.get (fun _ => TuRec.reset) (4 * n + k)) tus
  have locked : u.rf (R.TU_RB_STATE n k) 11 0 = s.rf (R.TU_RB_STATE n k) 11 0 :=
    congrArg (fld · 11 0) (reg _ (by simp [R.TU_RB_STATE, R.TU_TRIP_STATE]))
  have sync : u.synced n = s.synced n :=
    congrArg (bit · n) (reg _ (by unfold R.TB_ISLAND_SYNC R.TU_TRIP_STATE; omega))
  have thermal (i : Nat) : u.rb (R.TH_Ss_STATE i) 2 = s.rb (R.TH_Ss_STATE i) 2 :=
    congrArg (bit · 2) (reg _ (by unfold R.TH_Ss_STATE R.TU_TRIP_STATE; omega))
  unfold State.causeInForce
  simp only [rec_, locked, sync, clk, faults, thermal]

end

section
variable (s : State) (n k : Nat)

/-- Whether something keeps the system hold. -/
def State.holdKept : Bool :=
  (List.range 7).any (fun i => bit (s.reg (R.TU_TRIP_STATE n k)) (17 + i) && s.causeInForce n k (17 + i))

/-- The hold as it ends: its outputs stay held to the boundary. -/
def State.holdEnded : State :=
  let t := s.setReg (R.TU_TRIP_STATE n k) (setFld (s.reg (R.TU_TRIP_STATE n k)) 23 16 0)
  t.setTu n k { t.tu n k with
    sysTail := true
    causes := (t.tu n k).causes.filter (fun c => decide (c < 32) || decide (34 ≤ c)) }

theorem State.sysRelease_held (held : s.rb (R.TU_TRIP_STATE n k) 16 = true) : s.sysRelease n k =
    if s.holdKept n k then s.flag (R.TU_STATUS n k) 13
    else if (s.holdEnded n k).rf (R.TU_STATE n k) 15 8 = 0 then (s.holdEnded n k).fireTu n k 5 else s.holdEnded n k := by
  unfold State.rb at held
  exact if_neg (by simp [held])

/-- What the event of the end of a hold leaves. -/
theorem State.sysRelease_free (hk : k < 4) (held : s.rb (R.TU_TRIP_STATE n k) 16 = true) (free : s.holdKept n k = false) :
    (s.sysRelease n k).rf (R.TU_TRIP_STATE n k) 23 16 = 0 ∧ ((s.sysRelease n k).tu n k).sysTail = true := by
  have cleared : (s.holdEnded n k).rf (R.TU_TRIP_STATE n k) 23 16 = 0 := by
    refine (congrArg (fld · 23 16) ((State.reg_setReg _ _ _ _).trans (if_pos rfl))).trans ?_
    exact (fld_setFld _ _ _ _ (by decide)).trans rfl
  have tail : ((s.holdEnded n k).tu n k).sysTail = true := by
    simp [State.holdEnded, State.tu, State.setTu, Store.get_set]
  rw [State.sysRelease_held s n k held, if_neg (by simp [free])]
  generalize s.holdEnded n k = u at *
  split
  · have out := TU_TRIP_STATE_not_eqStatus (n := n) hk
    have touch := State.fireTu_quiet_touch u n k (e := 5) rfl
    refine ⟨((State.fireTu_quiet_regsIn u n k (e := 5) rfl).rf_eq out 23 16).trans cleared, ?_⟩
    exact (congrArg (fun x => (Store.get (fun _ => TuRec.reset) (4 * n + k) x).sysTail) (touch.same_part .tus)).trans tail
  · exact ⟨cleared, tail⟩

end

section
variable {s : State} {m : Master} {n : Fin 16} {k : Fin 4} {r : RegRow}
  (h : s.Writes m (.tu n.val k.val) r (R.TU_TRIP_CLR n.val k.val)) (v : Word)
  (held : s.rb (R.TU_TRIP_STATE n.val k.val) 16 = true)
include h held

omit held in
/-- A release write: the latches clear and the hold is looked at. -/
theorem systemHoldRelease_run : exec (.systemHoldRelease m n k v) s =
    .next (((s.latchesCleared n.val k.val (setBit v 8 true)).sysRelease n.val k.val).answer m .done) := by
  have released : s.tripClr n.val k.val (setBit v 8 true) =
      (s.latchesCleared n.val k.val (setBit v 8 true)).sysRelease n.val k.val :=
    (State.tripClr_eq _ _ _ _).trans (if_pos (bit_setBit_self _ _ _ (by decide)))
  rw [← released]
  exact h.tripClr (setBit v 8 true)

omit h held in
theorem State.latchesCleared_holdKept (w : Word) : (s.latchesCleared n.val k.val w).holdKept n.val k.val = s.holdKept n.val k.val := by
  refine any_congr_mem fun i hi => ?_
  have hi := List.mem_range.mp hi
  have mark := s.latchesCleared_rb_above n.val k.val w (i := 17 + i) (by omega) (by omega)
  have force := State.causeInForce_congr n.isLt k.isLt (s.latchesCleared_regsSet n.val k.val w) rfl rfl rfl (17 + i)
  rw [force]
  exact congrArg (· && s.causeInForce n.val k.val (17 + i)) mark

theorem systemHoldRelease_free
    (free : ∀ i : Fin 7, s.rb (R.TU_TRIP_STATE n.val k.val) (17 + i.val) = true → s.causeInForce n.val k.val (17 + i.val) = false) :
    ∃ t, exec (.systemHoldRelease m n k v) s = .next t
      ∧ t.rf (R.TU_TRIP_STATE n.val k.val) 23 16 = 0
      ∧ (t.tu n.val k.val).sysTail = true
      ∧ t.sysHeld n.val k.val = true
      ∧ t.mem = s.mem
      ∧ t.reply = some ⟨m, .done⟩ := by
  have none_ : s.holdKept n.val k.val = false := by
    refine Bool.eq_false_iff.mpr fun kept => ?_
    obtain ⟨i, hi, both⟩ := List.any_eq_true.mp kept
    obtain ⟨mark, force⟩ := Bool.and_eq_true_iff.mp both
    have := free ⟨i, List.mem_range.mp hi⟩ mark
    simp only at this
    rw [this] at force
    cases force
  have mem : ((s.latchesCleared n.val k.val (setBit v 8 true)).sysRelease n.val k.val).mem = s.mem :=
    (State.sysRelease_touch (s := s.latchesCleared n.val k.val (setBit v 8 true))).same_part .mem
  obtain ⟨cleared, tail⟩ := State.sysRelease_free (s.latchesCleared n.val k.val (setBit v 8 true)) n.val k.val k.isLt
    ((s.latchesCleared_rb_above _ _ _ (by decide) (by decide)).trans held) ((State.latchesCleared_holdKept _).trans none_)
  refine ⟨_, systemHoldRelease_run h v, cleared, tail, ?_, mem, rfl⟩
  exact (congrArg (_ || ·) tail).trans (Bool.or_true _)

theorem systemHoldRelease_kept (i : Fin 7) (mark : s.rb (R.TU_TRIP_STATE n.val k.val) (17 + i.val) = true)
    (force : s.causeInForce n.val k.val (17 + i.val) = true) :
    ∃ t, exec (.systemHoldRelease m n k v) s = .next t
      ∧ t.rf (R.TU_TRIP_STATE n.val k.val) 23 16 = s.rf (R.TU_TRIP_STATE n.val k.val) 23 16
      ∧ t.rb (R.TU_STATUS n.val k.val) 13 = true
      ∧ RegsBut [R.TU_TRIP_STATE n.val k.val, R.TU_STATUS n.val k.val] s t
      ∧ t.reply = some ⟨m, .done⟩ := by
  have kept : s.holdKept n.val k.val = true :=
    List.any_eq_true.mpr ⟨i.val, List.mem_range.mpr i.isLt, Bool.and_eq_true_iff.mpr ⟨mark, force⟩⟩
  have high := s.latchesCleared_rf n.val k.val (setBit v 8 true) (hi := 23) (lo := 16) (by decide) (by decide)
  have regs := s.latchesCleared_regsSet n.val k.val (setBit v 8 true)
  have still : (s.latchesCleared n.val k.val (setBit v 8 true)).sysRelease n.val k.val =
      (s.latchesCleared n.val k.val (setBit v 8 true)).flag (R.TU_STATUS n.val k.val) 13 :=
    (State.sysRelease_held _ _ _ ((s.latchesCleared_rb_above _ _ _ (by decide) (by decide)).trans held)).trans
      (if_pos ((State.latchesCleared_holdKept _).trans kept))
  refine ⟨_, systemHoldRelease_run h v, ?_⟩
  rw [still]
  generalize s.latchesCleared n.val k.val (setBit v 8 true) = u at *
  have flagged := u.flag_regsSet (R.TU_STATUS n.val k.val) 13
  refine ⟨(flagged.rf_eq (by simp [R.TU_TRIP_STATE, R.TU_STATUS]) 23 16).trans high, State.rb_flag_self _ _ _ (by decide), ?_, rfl⟩
  exact ((regs.mono (by simp)).trans (flagged.mono (by simp))).regsBut.answer m _

end

end Sys2Proof.Machine
end

section
/-!
SAFE_N (R181).
-/
set_option Elab.async false
namespace Sys2Proof.Machine
open Sys2Proof

/-! ### SAFE_N (R181) -/

section
variable (s : State)

/-- SAFE_N as one unit takes it. -/
def State.unitSafed (s : State) (u : Nat × Nat) : State := (s.setRb (R.TU_STATE u.1 u.2) 28 true).flag (R.TU_STATUS u.1 u.2) 4

/-- The device as the pin falls, before its units. -/
def State.safeShown : State := ({ s with safeN := true }.flag R.FC_STATUS 2).setLine (4096 + 387) true

theorem State.safeAssert_eq : s.safeAssert =
    (allUnits.filter (fun u => s.safeShown.islandRuns u.1)).foldl State.unitSafed s.safeShown := rfl

/-- The registers that SAFE_N writes in a unit. -/
def safedReg (a : Nat) : Prop := ∃ n k, n < 16 ∧ k < 4 ∧ (a = R.TU_STATE n k ∨ a = R.TU_STATUS n k)

theorem State.unitSafed_regsIn {u : Nat × Nat} (hu : u.1 < 16 ∧ u.2 < 4) : RegsIn safedReg s (s.unitSafed u) :=
  RegsIn.trans (s.setReg_regsIn ⟨u.1, u.2, hu.1, hu.2, .inl rfl⟩ _)
    (State.flag_regsIn _ ⟨u.1, u.2, hu.1, hu.2, .inr rfl⟩ 4)

theorem State.unitSafed_state (u : Nat × Nat) {n k : Nat} (hk : k < 4) (hu : u.2 < 4) :
    (s.unitSafed u).rb (R.TU_STATE n k) 28 = if (n, k) = u then true else s.rb (R.TU_STATE n k) 28 := by
  have status : R.TU_STATE n k ∉ [R.TU_STATUS u.1 u.2] := by
    simp [R.TU_STATE, R.TU_STATUS]
    omega
  refine ((State.flag_regsSet _ _ 4).rb_eq status 28).trans ?_
  rw [State.rb_setRb_of_lt _ _ _ _ _ (by decide)]
  have same : R.TU_STATE n k = R.TU_STATE u.1 u.2 ↔ (n, k) = u := by
    rw [Prod.ext_iff]
    unfold R.TU_STATE
    dsimp only
    omega
  simp [same]

theorem State.unitsSafed_state {n k : Nat} (hk : k < 4) : ∀ (l : List (Nat × Nat)) (s : State),
    (∀ u ∈ l, u.2 < 4) → (n, k) ∈ l ∨ s.rb (R.TU_STATE n k) 28 = true →
      (l.foldl State.unitSafed s).rb (R.TU_STATE n k) 28 = true
  | [], s, _, h => by simpa using h
  | u :: l, s, small, h => by
    refine State.unitsSafed_state hk l _ (fun x hx => small x (List.mem_cons_of_mem _ hx)) ?_
    by_cases later : (n, k) ∈ l
    · exact .inl later
    · right
      rw [State.unitSafed_state _ _ hk (small u List.mem_cons_self)]
      split
      case isTrue => rfl
      case isFalse other => simpa [later, other] using h

theorem safeNAssert_effect : ∃ t, exec .safeNAssert s = .next t
    ∧ t.safeN = true
    ∧ t.rb R.FC_STATUS 2 = true
    ∧ (∀ (n : Fin 16) (k : Fin 4) (j : Fin 6), s.islandRuns n.val = true → t.safeHeld n.val k.val j.val = true)
    ∧ t.mem = s.mem
    ∧ SameBut [.regs, .scCount, .safeN, .fab, .due] s t := by
  have touch : Touch 0x200807 s s.safeAssert := State.safeAssert_touch
  have pin : s.safeShown.safeN = true := by
    have shown : Touch 0x807 { s with safeN := true } s.safeShown := Touch.of State.flag_touch |>.then State.setLine_touch
    exact shown.same_part .safeN
  have fc : s.safeShown.rb R.FC_STATUS 2 = true :=
    ((State.setLine_touch.regsSet []).rb_eq List.not_mem_nil 2).trans (State.rb_flag_self _ _ _ (by decide))
  have islands : s.safeShown.islands = s.islands := by
    have shown : Touch 0x807 { s with safeN := true } s.safeShown := Touch.of State.flag_touch |>.then State.setLine_touch
    exact shown.same_part .islands
  have units (u : Nat × Nat) (hu : u ∈ allUnits.filter (fun u => s.safeShown.islandRuns u.1)) : u.1 < 16 ∧ u.2 < 4 :=
    mem_allUnits_lt (List.mem_filter.mp hu).1
  have regs := RegsIn.foldl _ s.safeShown fun u hu t => t.unitSafed_regsIn (units u hu)
  have folded : Touch 6 s.safeShown (s.safeAssert) :=
    .foldl fun _ _ => Touch.of State.setRb_touch |>.then State.flag_touch
  rw [← State.safeAssert_eq] at regs
  refine ⟨_, rfl, (folded.same_part .safeN).trans pin, ?_, fun n k j runs => ?_, touch.same_part .mem, touch.sameBut⟩
  · refine (regs.rb_eq ?_ 2).trans fc
    rintro ⟨n, k, hn, hk, e | e⟩
    · unfold R.FC_STATUS R.TU_STATE at e; omega
    · unfold R.FC_STATUS R.TU_STATUS at e; omega
  · have here : (n.val, k.val) ∈ allUnits.filter (fun u => s.safeShown.islandRuns u.1) := by
      refine List.mem_filter.mpr ⟨?_, ?_⟩
      · exact List.mem_map.mpr ⟨4 * n.val + k.val, List.mem_range.mpr (by omega),
          Prod.ext (by dsimp only; omega) (by dsimp only; omega)⟩
      · rw [State.islandRuns, State.phase, islands]
        exact runs
    have held := State.unitsSafed_state (n := n.val) k.isLt _ s.safeShown (fun u hu => (units u hu).2) (.inl here)
    rw [← State.safeAssert_eq] at held
    simp [State.safeHeld, held]

theorem safeNDeassert_effect : ∃ t, exec .safeNDeassert s = .next t
    ∧ t.safeN = false
    ∧ RegsBut [] s t
    ∧ SameBut [.safeN, .fab, .due] s t := by
  have touch : Touch 0x200801 s s.safeDeassert := State.safeDeassert_touch
  have line : Touch 0x801 { s with safeN := false } s.safeDeassert := State.setLine_touch
  exact ⟨_, rfl, line.same_part .safeN, (touch.regsSet []).regsBut, touch.sameBut⟩

end

end Sys2Proof.Machine
end

section
/-!
Read-back checks (R182).
-/
set_option Elab.async false
namespace Sys2Proof.Machine
open Sys2Proof

/-! ### Read-back checks (R182) -/

section
variable (s : State) (n k o : Nat)

/-- A read-back that agrees with the output. -/
def State.readbackMatched : State :=
  (s.setTu n k { s.tu n k with
    rbLast := (s.tu n k).rbLast.set o s.absTick
    rbFails := (s.tu n k).rbFails.set o 0 }).setRb (R.TU_RB_STATE n k) (16 + o) false

/-- The count of failures of an output that does not agree. -/
def State.readbackCounted : State :=
  s.setTu n k { s.tu n k with
    rbLast := (s.tu n k).rbLast.set o s.absTick
    rbFails := (s.tu n k).rbFails.set o ((s.tu n k).rbFails.getD o 0 + 1) }

/-- The failure as the unit tells it. -/
def State.readbackTold : State :=
  (((s.setRb (R.TU_RB_STATE n k) (16 + o) true).flag (R.TU_STATUS n k) 5).fireTu n k 12).report (0x60 + 4 * n + k)
    (0x60 + 4 * n + k) 0x0A (bitW o)

/-- The output locked out at the third failure in a row. -/
def State.lockedOut : State :=
  ((s.setRb (R.TU_RB_STATE n k) o true).flag (R.TU_STATUS n k) 6).report (0x60 + 4 * n + k) (0x60 + 4 * n + k) 0x0B (bitW o)

def State.lockoutHeld : State := if s.rb (R.TU_RB_CFG n k) 31 then s.sysHold n k 18 else s

section
variable {s n k o} (checked : s.rb (R.TU_RB_CFG n k) (16 + o) = true) (driven : s.tuOut n k o ≠ .hiz)
  (assigned : s.ballAssigned n k o = true) (unlocked : s.rb (R.TU_RB_STATE n k) o = false)
  (due : s.readbackDue n k o = true)
include checked driven assigned unlocked due

theorem State.readback_eq (level : Bool) : s.readback n k o level =
    if (s.tuOut n k o == .high) = level then s.readbackMatched n k o
    else if (s.tu n k).rbFails.getD o 0 + 1 < 3 then (s.readbackCounted n k o).readbackTold n k o
    else (((s.readbackCounted n k o).readbackTold n k o).lockedOut n k o).lockoutHeld n k := by
  have acts : ¬ (!s.rb (R.TU_RB_CFG n k) (16 + o) || s.tuOut n k o == .hiz || !s.ballAssigned n k o
      || s.rb (R.TU_RB_STATE n k) o || !s.readbackDue n k o) = true := by
    simp [checked, assigned, unlocked, due, driven]
  exact (if_neg acts).trans rfl

end

theorem State.readbackMatched_effect (here : o < (s.tu n k).rbFails.length) (ho : o < 12) :
    ((s.readbackMatched n k o).tu n k).rbFails.getD o 0 = 0
    ∧ (s.readbackMatched n k o).rb (R.TU_RB_STATE n k) (16 + o) = false
    ∧ (s.readbackMatched n k o).rb (R.TU_RB_STATE n k) o = s.rb (R.TU_RB_STATE n k) o := by
  refine ⟨?_, State.rb_setRb_self _ (by omega) _, ?_⟩
  · have stored : (s.readbackMatched n k o).tu n k = { s.tu n k with
        rbLast := (s.tu n k).rbLast.set o s.absTick
        rbFails := (s.tu n k).rbFails.set o 0 } := (Store.get_set _ _).trans (if_pos rfl)
    rw [stored]
    simp [here]
  · rw [State.readbackMatched, State.rb_setRb_of_lt _ _ _ _ _ (by omega), if_neg (by omega)]
    rfl

theorem State.readbackTold_touch : Touch 0x100000080007 s (s.readbackTold n k o) :=
  Touch.of State.setRb_touch |>.then State.flag_touch |>.then (State.fireTu_quiet_touch _ n k (e := 12) rfl)
    |>.then State.report_touch

theorem State.readbackTold_reg {a : Nat} (h : a % 0x1000000 < 0x240000) : (s.readbackTold n k o).reg a =
    ((s.setRb (R.TU_RB_STATE n k) (16 + o) true).flag (R.TU_STATUS n k) 5).reg a :=
  RegsIn.reg_eq ((State.fireTu_quiet_regsIn _ n k (e := 12) rfl).trans (State.report_touch.regsIn _)) (not_eqStatus_tu h)

theorem State.lockedOut_reg (a : Nat) : (s.lockedOut n k o).reg a =
    ((s.setRb (R.TU_RB_STATE n k) o true).flag (R.TU_STATUS n k) 6).reg a :=
  RegsSet.regsBut (l := []) (State.report_touch.regsSet _) a List.not_mem_nil

/-- A hold sets flag 3 alone. -/
theorem State.sysHold_status {c i : Nat} (hk : k < 4) (hi : i < 23) (ne : i ≠ 3) :
    (s.sysHold n k c).rb (R.TU_STATUS n k) i = s.rb (R.TU_STATUS n k) i := by
  have apart : R.TU_STATUS n k ∉ [R.TU_TRIP_STATE n k] := by simpa using (TU_TRIP_STATE_ne_STATUS n k n k).symm
  have out : ¬ eqStatusReg (R.TU_STATUS n k) := not_eqStatus_tu (by unfold R.TU_STATUS; omega)
  rw [State.sysHold_eq, (State.setRb_regsSet _ _ _ _).rb_eq apart]
  unfold State.sysEntered
  split
  · rfl
  · rw [(State.setRb_regsSet _ _ _ _).rb_eq apart, (State.fireTu_quiet_regsIn _ n k (e := 4) rfl).rb_eq out,
      State.rb_flag_other _ _ _ _ (by decide) hi ne]

theorem State.lockoutHeld_rb (hk : k < 4) (i : Nat) :
    (s.lockoutHeld n k).rb (R.TU_RB_STATE n k) i = s.rb (R.TU_RB_STATE n k) i
    ∧ (s.lockoutHeld n k).rb (R.TU_STATUS n k) 5 = s.rb (R.TU_STATUS n k) 5 := by
  have out : ¬ holdReg n k (R.TU_RB_STATE n k) := by
    rintro (e | e | e)
    · simp [R.TU_RB_STATE, R.TU_STATUS] at e
    · simp [R.TU_RB_STATE, R.TU_TRIP_STATE] at e
    · exact not_eqStatus_tu (by unfold R.TU_RB_STATE; omega) e
  unfold State.lockoutHeld
  split
  · exact ⟨(s.sysHold_regsIn n k 18).rb_eq out i, s.sysHold_status n k hk (by decide) (by decide)⟩
  · exact ⟨rfl, rfl⟩

theorem State.lockoutHeld_touch : Touch 0x100000080007 s (s.lockoutHeld n k) := .ite (s.sysHold_touch' n k 18) .refl

/-- A failure that does not lock the output out. -/
theorem State.readbackTold_rb (ho : o < 12) (hk : k < 4) :
    (s.readbackTold n k o).rb (R.TU_RB_STATE n k) (16 + o) = true
    ∧ (s.readbackTold n k o).rb (R.TU_RB_STATE n k) o = s.rb (R.TU_RB_STATE n k) o
    ∧ (s.readbackTold n k o).rb (R.TU_STATUS n k) 5 = true := by
  have state : R.TU_RB_STATE n k % 0x1000000 < 0x240000 := by unfold R.TU_RB_STATE; omega
  have status : R.TU_STATUS n k % 0x1000000 < 0x240000 := by unfold R.TU_STATUS; omega
  have apart : R.TU_RB_STATE n k ∉ [R.TU_STATUS n k] := by simp [R.TU_RB_STATE, R.TU_STATUS]
  have marked (i : Nat) (hi : i < 32) : (s.readbackTold n k o).rb (R.TU_RB_STATE n k) i =
      if i = 16 + o then true else s.rb (R.TU_RB_STATE n k) i := by
    rw [State.rb, State.readbackTold_reg _ _ _ _ state]
    refine ((State.flag_regsSet _ _ 5).rb_eq apart i).trans ((State.rb_setRb_of_lt _ _ _ _ _ hi).trans ?_)
    simp
  refine ⟨(marked _ (by omega)).trans (if_pos rfl), (marked _ (by omega)).trans (if_neg (by omega)), ?_⟩
  rw [State.rb, State.readbackTold_reg _ _ _ _ status]
  exact State.rb_flag_self _ _ _ (by decide)

theorem State.lockedOut_rb (ho : o < 12) :
    (s.lockedOut n k o).rb (R.TU_RB_STATE n k) o = true
    ∧ (s.lockedOut n k o).rb (R.TU_RB_STATE n k) (16 + o) = s.rb (R.TU_RB_STATE n k) (16 + o)
    ∧ (s.lockedOut n k o).rb (R.TU_STATUS n k) 5 = s.rb (R.TU_STATUS n k) 5 := by
  have apart : R.TU_RB_STATE n k ∉ [R.TU_STATUS n k] := by simp [R.TU_RB_STATE, R.TU_STATUS]
  have marked (i : Nat) (hi : i < 32) : (s.lockedOut n k o).rb (R.TU_RB_STATE n k) i =
      if i = o then true else s.rb (R.TU_RB_STATE n k) i := by
    rw [State.rb, State.lockedOut_reg]
    refine ((State.flag_regsSet _ _ 6).rb_eq apart i).trans ((State.rb_setRb_of_lt _ _ _ _ _ hi).trans ?_)
    simp
  refine ⟨(marked _ (by omega)).trans (if_pos rfl), (marked _ (by omega)).trans (if_neg (by omega)), ?_⟩
  rw [State.rb, State.lockedOut_reg]
  refine (State.rb_flag_other _ _ _ _ (by decide) (by decide) (by decide)).trans ?_
  exact (State.setRb_regsSet _ _ _ _).rb_eq (by simp [R.TU_RB_STATE, R.TU_STATUS]) 5

theorem State.lockedOut_touch : Touch 7 s (s.lockedOut n k o) :=
  Touch.of State.setRb_touch |>.then State.flag_touch |>.then State.report_touch

end

section
variable {n : Fin 16} {k : Fin 4} {o : Fin 12} {s : State}

/-- A failure: counted, told, and at the third in a row the output is locked out. -/
theorem State.readbackFailed_effect (unlocked : s.rb (R.TU_RB_STATE n.val k.val) o.val = false)
    (here : o.val < (s.tu n.val k.val).rbFails.length) (t : State)
    (failed : t = if (s.tu n.val k.val).rbFails.getD o.val 0 + 1 < 3 then
        (s.readbackCounted n.val k.val o.val).readbackTold n.val k.val o.val
      else (((s.readbackCounted n.val k.val o.val).readbackTold n.val k.val o.val).lockedOut n.val k.val o.val).lockoutHeld
        n.val k.val) :
    (t.tu n.val k.val).rbFails.getD o.val 0 = (s.tu n.val k.val).rbFails.getD o.val 0 + 1
    ∧ t.rb (R.TU_RB_STATE n.val k.val) (16 + o.val) = true
    ∧ t.rb (R.TU_STATUS n.val k.val) 5 = true
    ∧ t.rb (R.TU_RB_STATE n.val k.val) o.val = decide (2 ≤ (s.tu n.val k.val).rbFails.getD o.val 0)
    ∧ t.mem = s.mem := by
  have counted : (s.readbackCounted n.val k.val o.val).tu n.val k.val = { s.tu n.val k.val with
      rbLast := (s.tu n.val k.val).rbLast.set o.val s.absTick
      rbFails := (s.tu n.val k.val).rbFails.set o.val ((s.tu n.val k.val).rbFails.getD o.val 0 + 1) } :=
    (Store.get_set _ _).trans (if_pos rfl)
  have fails : ((s.readbackCounted n.val k.val o.val).tu n.val k.val).rbFails.getD o.val 0 =
      (s.tu n.val k.val).rbFails.getD o.val 0 + 1 := by
    rw [counted]
    simp [here]
  have low : (s.readbackCounted n.val k.val o.val).rb (R.TU_RB_STATE n.val k.val) o.val = false := unlocked
  have mem : (s.readbackCounted n.val k.val o.val).mem = s.mem := rfl
  generalize s.readbackCounted n.val k.val o.val = u at *
  obtain ⟨mark, stays, flag⟩ := u.readbackTold_rb n.val k.val o.val o.isLt k.isLt
  have toldTouch := u.readbackTold_touch n.val k.val o.val
  generalize u.readbackTold n.val k.val o.val = v at *
  have rec_ (x : State) (e : x.tus = u.tus) : (x.tu n.val k.val).rbFails.getD o.val 0 =
      (s.tu n.val k.val).rbFails.getD o.val 0 + 1 := by
    rw [← fails]
    exact congrArg (fun y => (Store.get (fun _ => TuRec.reset) (4 * n.val + k.val) y).rbFails.getD o.val 0) e
  subst failed
  split
  case isTrue few =>
    refine ⟨rec_ v (toldTouch.same_part .tus), mark, flag, ?_, (toldTouch.same_part .mem).trans mem⟩
    rw [stays, low, decide_eq_false (by omega)]
  case isFalse many =>
    obtain ⟨out, kept, flagKept⟩ := v.lockedOut_rb n.val k.val o.val o.isLt
    have outTouch := v.lockedOut_touch n.val k.val o.val
    generalize v.lockedOut n.val k.val o.val = w at *
    have held := w.lockoutHeld_rb n.val k.val k.isLt
    have all : Touch 0x100000080007 u (w.lockoutHeld n.val k.val) :=
      toldTouch |>.then outTouch |>.trans (w.lockoutHeld_touch n.val k.val)
    refine ⟨rec_ _ (all.same_part .tus), ?_, ?_, ?_, (all.same_part .mem).trans mem⟩
    · exact (held _).1.trans (kept.trans mark)
    · exact (held 0).2.trans (flagKept.trans flag)
    · exact (held _).1.trans (out.trans (decide_eq_true (by omega)).symm)

theorem readbackCheck_effect (level : Bool) (runs : s.islandRuns n.val = true)
    (checked : s.rb (R.TU_RB_CFG n.val k.val) (16 + o.val) = true) (driven : s.tuOut n.val k.val o.val ≠ .hiz)
    (assigned : s.ballAssigned n.val k.val o.val = true) (unlocked : s.rb (R.TU_RB_STATE n.val k.val) o.val = false)
    (due : s.readbackDue n.val k.val o.val = true) (here : o.val < (s.tu n.val k.val).rbFails.length) :
    ∃ t, exec (.readbackCheck n k o level) s = .next t
      ∧ (level = decide (s.tuOut n.val k.val o.val = .high) → (t.tu n.val k.val).rbFails.getD o.val 0 = 0
          ∧ t.rb (R.TU_RB_STATE n.val k.val) (16 + o.val) = false ∧ t.rb (R.TU_RB_STATE n.val k.val) o.val = false
          ∧ t.due = s.due)
      ∧ (level = decide (s.tuOut n.val k.val o.val ≠ .high) →
          (t.tu n.val k.val).rbFails.getD o.val 0 = (s.tu n.val k.val).rbFails.getD o.val 0 + 1
          ∧ t.rb (R.TU_RB_STATE n.val k.val) (16 + o.val) = true ∧ t.rb (R.TU_STATUS n.val k.val) 5 = true
          ∧ t.rb (R.TU_RB_STATE n.val k.val) o.val = decide (2 ≤ (s.tu n.val k.val).rbFails.getD o.val 0))
      ∧ t.mem = s.mem := by
  refine ⟨_, congrArg Host.Outcome.next (if_pos runs), ?_⟩
  rw [State.readback_eq checked driven assigned unlocked due]
  have agrees : (s.tuOut n.val k.val o.val == .high) = decide (s.tuOut n.val k.val o.val = .high) := by
    rw [Bool.eq_iff_iff]
    simp
  by_cases same : (s.tuOut n.val k.val o.val == .high) = level
  · rw [if_pos same]
    obtain ⟨fails, mark, stays⟩ := s.readbackMatched_effect n.val k.val o.val here o.isLt
    refine ⟨fun _ => ⟨fails, mark, stays.trans unlocked, rfl⟩, fun differs => ?_, rfl⟩
    rw [← same, agrees] at differs
    simp at differs
  · rw [if_neg same]
    obtain ⟨fails, mark, flag, lock, mem⟩ := State.readbackFailed_effect unlocked here _ rfl
    exact ⟨fun e => absurd (agrees.trans e.symm) same, fun _ => ⟨fails, mark, flag, lock⟩, mem⟩

theorem readbackCheck_early (level : Bool) (early : s.readbackDue n.val k.val o.val = false) :
    exec (.readbackCheck n k o level) s = .next s := by
  have stays : s.readback n.val k.val o.val level = s := if_pos (by simp [early])
  exact congrArg Host.Outcome.next ((congrArg (fun u => if s.islandRuns n.val = true then u else s) stays).trans (ite_self s))

end

end Sys2Proof.Machine
end

section
/-!
Captures (R183 to R185).
-/
set_option Elab.async false
namespace Sys2Proof.Machine
open Sys2Proof

/-! ### Captures (R183 to R185) -/

section
variable (s : State) (n k j : Nat)

theorem State.tu_setTu (r : TuRec) : (s.setTu n k r).tu n k = r := (Store.get_set _ _).trans (if_pos rfl)

theorem State.chan_setChan (c : ChanRec) (here : j < (s.tu n k).chans.length) : (s.setChan n k j c).chan n k j = c := by
  rw [State.chan, State.setChan, State.tu_setTu]
  simp [here]

theorem State.setChan_length (c : ChanRec) : ((s.setChan n k j c).tu n k).chans.length = (s.tu n k).chans.length := by
  rw [State.setChan, State.tu_setTu]
  simp

/-- The channel as a capture takes it. -/
def State.captureTaken (f : Nat) : State :=
  (if (s.chan n k j).consumed then s else s.flag (R.TU_STATUS n k) 9).setChan n k j { s.chan n k j with
    presc := 0
    lastCap := some f
    consumed := false }

/-- The stamp and the count as the registers show them. -/
def State.captureShown (rise : Bool) (f : Nat) : State :=
  ((s.setReg (R.TU_CHj_CAP_LO n k j) (lo64 (s.stampT n f).toNat)).setReg (R.TU_CHj_CAP_HI n k j)
    (hi64 (s.stampT n f).toNat)).setReg (R.TU_CHj_CAP_SUB n k j)
      (w32 (at_ ((s.rf (R.TU_CHj_CAP_SUB n k j) 31 16 + 1) % 65536) 16 + at_ (b2n rise) 9 + stampTickFine f))

variable {s n k j} in
theorem State.capture_eq {rise : Bool} {ago : Nat}
    (selected : edgeSelected (s.rf (R.TU_CHj_CAP_CFG n k j) 11 10) rise = true)
    (passed : s.rf (R.TU_CHj_CAP_CFG n k j) 29 22 ≤ (s.chan n k j).presc) (first : (s.chan n k j).lastCap = none) :
    s.capture n k j rise ago =
      ((s.captureTaken n k j (captureInstant s.nowFine ago (s.rf (R.TU_CHj_CAP_CFG n k j) 9 0))).captureShown n k j rise
        (captureInstant s.nowFine ago (s.rf (R.TU_CHj_CAP_CFG n k j) 9 0))).fireTu n k (6 + j) := by
  unfold State.rf at selected passed
  unfold State.capture
  simp only [selected, first, Bool.not_true, Bool.false_eq_true, if_false, if_neg (Nat.not_lt.mpr passed)]
  rfl

theorem State.captureTaken_touch (f : Nat) : Touch 0x10006 s (s.captureTaken n k j f) :=
  (Touch.ite .refl (.of State.flag_touch) :
    Touch 0x10006 s (if (s.chan n k j).consumed then s else s.flag (R.TU_STATUS n k) 9)).then State.setChan_touch

theorem State.captureShown_touch (rise : Bool) (f : Nat) : Touch 2 s (s.captureShown n k j rise f) :=
  Touch.of State.setReg_touch |>.then State.setReg_touch |>.then State.setReg_touch

theorem State.stampT_congr {s t : State} (h : t.clk = s.clk) (n f : Nat) : t.stampT n f = s.stampT n f := by
  unfold State.stampT State.dAt State.dOf
  rw [h]

end

theorem stampTickFine_eq (f : Nat) : stampTickFine f = f % 320 := by
  unfold stampTickFine
  omega

/-- The parts of a word of counts and instants. -/
theorem captureWord_parts {c x : Nat} (rise : Bool) (hc : c < 65536) (hx : x < 512) :
    fld (w32 (at_ c 16 + at_ (b2n rise) 9 + x)) 31 16 = c
    ∧ bit (w32 (at_ c 16 + at_ (b2n rise) 9 + x)) 9 = rise
    ∧ fld (w32 (at_ c 16 + at_ (b2n rise) 9 + x)) 8 0 = x := by
  have one : b2n rise ≤ 1 := by unfold b2n; split <;> omega
  have word : (w32 (at_ c 16 + at_ (b2n rise) 9 + x)).toNat = c * 65536 + b2n rise * 512 + x := by
    simp only [w32, at_, BitVec.toNat_ofNat, Nat.shiftLeft_eq]
    omega
  refine ⟨?_, ?_, ?_⟩
  · simp only [fld, word, Nat.shiftRight_eq_div_pow]
    omega
  · have low : (w32 (at_ c 16 + at_ (b2n rise) 9 + x)).getLsbD 9 = (c * 65536 + b2n rise * 512 + x).testBit 9 := by
      rw [BitVec.getLsbD, word]
    rw [bit, low, Nat.testBit_eq_decide_div_mod_eq]
    cases rise <;> simp [b2n] <;> omega
  · simp only [fld, word, Nat.shiftRight_eq_div_pow]
    omega

section
variable {n : Fin 16} {k : Fin 4} {j : Fin 6} (s : State)

theorem TU_CHj_CAP_ne : R.TU_CHj_CAP_LO n.val k.val j.val ≠ R.TU_CHj_CAP_HI n.val k.val j.val
    ∧ R.TU_CHj_CAP_LO n.val k.val j.val ≠ R.TU_CHj_CAP_SUB n.val k.val j.val
    ∧ R.TU_CHj_CAP_HI n.val k.val j.val ≠ R.TU_CHj_CAP_SUB n.val k.val j.val := by
  unfold R.TU_CHj_CAP_LO R.TU_CHj_CAP_HI R.TU_CHj_CAP_SUB
  omega

theorem TU_STATUS_not_capture : R.TU_STATUS n.val k.val ∉
    [R.TU_CHj_CAP_LO n.val k.val j.val, R.TU_CHj_CAP_HI n.val k.val j.val, R.TU_CHj_CAP_SUB n.val k.val j.val] := by
  simp [R.TU_STATUS, R.TU_CHj_CAP_LO, R.TU_CHj_CAP_HI, R.TU_CHj_CAP_SUB]
  omega

theorem State.captureShown_effect (rise : Bool) (f : Nat) :
    (s.captureShown n.val k.val j.val rise f).reg (R.TU_CHj_CAP_LO n.val k.val j.val) = lo64 (s.stampT n.val f).toNat
    ∧ (s.captureShown n.val k.val j.val rise f).reg (R.TU_CHj_CAP_HI n.val k.val j.val) = hi64 (s.stampT n.val f).toNat
    ∧ (s.captureShown n.val k.val j.val rise f).rf (R.TU_CHj_CAP_SUB n.val k.val j.val) 31 16 =
        (s.rf (R.TU_CHj_CAP_SUB n.val k.val j.val) 31 16 + 1) % 65536
    ∧ (s.captureShown n.val k.val j.val rise f).rb (R.TU_CHj_CAP_SUB n.val k.val j.val) 9 = rise
    ∧ (s.captureShown n.val k.val j.val rise f).rf (R.TU_CHj_CAP_SUB n.val k.val j.val) 8 0 = f % 320 := by
  obtain ⟨loHi, loSub, hiSub⟩ := TU_CHj_CAP_ne (n := n) (k := k) (j := j)
  have sub : (s.captureShown n.val k.val j.val rise f).reg (R.TU_CHj_CAP_SUB n.val k.val j.val) =
      w32 (at_ ((s.rf (R.TU_CHj_CAP_SUB n.val k.val j.val) 31 16 + 1) % 65536) 16 + at_ (b2n rise) 9 + stampTickFine f) :=
    (State.reg_setReg _ _ _ _).trans (if_pos rfl)
  obtain ⟨count, edge, fine⟩ := captureWord_parts (c := (s.rf (R.TU_CHj_CAP_SUB n.val k.val j.val) 31 16 + 1) % 65536)
    (x := stampTickFine f) rise (Nat.mod_lt _ (by decide)) (by rw [stampTickFine_eq]; omega)
  refine ⟨?_, ?_, (congrArg (fld · 31 16) sub).trans count, (congrArg (bit · 9) sub).trans edge,
    (congrArg (fld · 8 0) sub).trans (fine.trans (stampTickFine_eq f))⟩
  · rw [State.captureShown, State.setReg_regsBut _ _ _ _ (by simpa using loSub), State.setReg_regsBut _ _ _ _ (by simpa using loHi),
      State.reg_setReg, if_pos rfl]
  · rw [State.captureShown, State.setReg_regsBut _ _ _ _ (by simpa using hiSub), State.reg_setReg, if_pos rfl]

theorem State.captureShown_regsSet (rise : Bool) (f : Nat) :
    RegsSet [R.TU_CHj_CAP_LO n.val k.val j.val, R.TU_CHj_CAP_HI n.val k.val j.val, R.TU_CHj_CAP_SUB n.val k.val j.val] s
      (s.captureShown n.val k.val j.val rise f) :=
  ((s.setReg_regsSet _ _).mono (by simp)).trans (((State.setReg_regsSet _ _ _).mono (by simp)).trans
    ((State.setReg_regsSet _ _ _).mono (by simp)))

/-- A capture from its taking to its event. -/
def State.captureDone (s : State) (n k j : Nat) (rise : Bool) (f : Nat) : State :=
  ((s.captureTaken n k j f).captureShown n k j rise f).fireTu n k (6 + j)

theorem evt_of_capture (j : Fin 6) : evtOfEvent (6 + j.val) = none := by
  revert j
  decide

theorem State.captureDone_effect (rise : Bool) (f : Nat) (here : j.val < (s.tu n.val k.val).chans.length) :
    (s.captureDone n.val k.val j.val rise f).reg (R.TU_CHj_CAP_LO n.val k.val j.val) = lo64 (s.stampT n.val f).toNat
    ∧ (s.captureDone n.val k.val j.val rise f).reg (R.TU_CHj_CAP_HI n.val k.val j.val) = hi64 (s.stampT n.val f).toNat
    ∧ (s.captureDone n.val k.val j.val rise f).rf (R.TU_CHj_CAP_SUB n.val k.val j.val) 31 16 =
        (s.rf (R.TU_CHj_CAP_SUB n.val k.val j.val) 31 16 + 1) % 65536
    ∧ (s.captureDone n.val k.val j.val rise f).rb (R.TU_CHj_CAP_SUB n.val k.val j.val) 9 = rise
    ∧ (s.captureDone n.val k.val j.val rise f).rf (R.TU_CHj_CAP_SUB n.val k.val j.val) 8 0 = f % 320
    ∧ ((s.captureDone n.val k.val j.val rise f).chan n.val k.val j.val).consumed = false
    ∧ ((s.captureDone n.val k.val j.val rise f).chan n.val k.val j.val).lastCap = some f
    ∧ ((s.chan n.val k.val j.val).consumed = false → (s.captureDone n.val k.val j.val rise f).rb (R.TU_STATUS n.val k.val) 9 = true)
    ∧ (s.captureDone n.val k.val j.val rise f).mem = s.mem := by
  have quiet := evt_of_capture j
  have taken := s.captureTaken_touch n.val k.val j.val f
  have flags : RegsSet [R.TU_STATUS n.val k.val] s (s.captureTaken n.val k.val j.val f) :=
    RegsSet.trans (.ite (.refl _ s) (s.flag_regsSet _ 9)) (.of_regs rfl _)
  have chan : (s.captureTaken n.val k.val j.val f).chan n.val k.val j.val =
      { s.chan n.val k.val j.val with presc := 0, lastCap := some f, consumed := false } := by
    refine State.chan_setChan _ _ _ _ _ ?_
    split
    · exact here
    · rw [State.tu, State.flag_tus]
      exact here
  have flag (fresh : (s.chan n.val k.val j.val).consumed = false) :
      (s.captureTaken n.val k.val j.val f).rb (R.TU_STATUS n.val k.val) 9 = true := by
    refine (congrArg (fun u => State.rb u (R.TU_STATUS n.val k.val) 9) (if_neg (by simp [fresh]))).trans ?_
    exact State.rb_flag_self _ _ _ (by decide)
  have stamp : (s.captureTaken n.val k.val j.val f).stampT n.val f = s.stampT n.val f :=
    State.stampT_congr (taken.same_part .clk) _ _
  have count : (s.captureTaken n.val k.val j.val f).rf (R.TU_CHj_CAP_SUB n.val k.val j.val) 31 16 =
      s.rf (R.TU_CHj_CAP_SUB n.val k.val j.val) 31 16 :=
    flags.rf_eq (by simp [R.TU_CHj_CAP_SUB, R.TU_STATUS]; omega) _ _
  unfold State.captureDone
  generalize s.captureTaken n.val k.val j.val f = u at *
  obtain ⟨lo, hi, cnt, edge, fine⟩ := u.captureShown_effect (n := n) (k := k) (j := j) rise f
  have shownTouch := u.captureShown_touch n.val k.val j.val rise f
  have shownRegs := u.captureShown_regsSet (n := n) (k := k) (j := j) rise f
  generalize u.captureShown n.val k.val j.val rise f = v at *
  have told := State.fireTu_quiet_regsIn v n.val k.val quiet
  have toldTouch := State.fireTu_quiet_touch v n.val k.val quiet
  generalize v.fireTu n.val k.val (6 + j.val) = t at *
  have low (a : Nat) (ha : a % 0x1000000 < 0x240000) : t.reg a = v.reg a := told.reg_eq (not_eqStatus_tu ha)
  have lowLo := low (R.TU_CHj_CAP_LO n.val k.val j.val) (by unfold R.TU_CHj_CAP_LO; omega)
  have lowHi := low (R.TU_CHj_CAP_HI n.val k.val j.val) (by unfold R.TU_CHj_CAP_HI; omega)
  have lowSub := low (R.TU_CHj_CAP_SUB n.val k.val j.val) (by unfold R.TU_CHj_CAP_SUB; omega)
  have lowStatus := low (R.TU_STATUS n.val k.val) (by unfold R.TU_STATUS; omega)
  have same : t.chan n.val k.val j.val = u.chan n.val k.val j.val :=
    congrArg (fun x => (Store.get (fun _ => TuRec.reset) (4 * n.val + k.val) x).chans.getD j.val .reset)
      ((toldTouch.same_part .tus).trans (shownTouch.same_part .tus))
  rw [same, chan]
  refine ⟨lowLo.trans (lo.trans (by rw [stamp])), lowHi.trans (hi.trans (by rw [stamp])), ?_, ?_, ?_, rfl, rfl,
    fun fresh => ?_, (toldTouch.same_part .mem).trans ((shownTouch.same_part .mem).trans (taken.same_part .mem))⟩
  · exact (congrArg (fld · 31 16) lowSub).trans (cnt.trans (by rw [count]))
  · exact (congrArg (bit · 9) lowSub).trans edge
  · exact (congrArg (fld · 8 0) lowSub).trans fine
  · exact (congrArg (bit · 9) lowStatus).trans ((shownRegs.rb_eq TU_STATUS_not_capture 9).trans (flag fresh))

end

end Sys2Proof.Machine
end

section
/-!
Capture edges and reads of captures (R183 to R185).
-/
set_option Elab.async false
namespace Sys2Proof.Machine
open Sys2Proof

section
variable {n : Fin 16} {k : Fin 4} {j : Fin 6} {rise : Bool} {ago : Word} {s : State}

section
variable (runs : s.islandRuns n.val = true) (beats : s.beatRuns = true)
  (on : s.rb (R.TU_CHj_CAP_CFG n.val k.val j.val) 31 = true) (mode : s.tuMode n.val k.val = 3)
include runs beats on mode

theorem exec_captureEdge_accepted (accepted : s.capAccepts n.val k.val j.val (s.nowFine - ago.toNat) = true) :
    exec (.captureEdge n k j rise ago) s =
      .next ((s.setChan n.val k.val j.val { s.chan n.val k.val j.val with filt := none }).capture n.val k.val j.val rise
        ago.toNat) := by
  refine congrArg Host.Outcome.next ((if_pos (by simp [runs, beats])).trans ?_)
  exact (if_neg (by simp [on, mode])).trans (if_pos accepted)

theorem exec_captureEdge_waiting (waits : s.capAccepts n.val k.val j.val (s.nowFine - ago.toNat) = false) :
    exec (.captureEdge n k j rise ago) s = .next (match (s.chan n.val k.val j.val).filt with
      | some (l, _) => if l = rise then s else s.setChan n.val k.val j.val { s.chan n.val k.val j.val with filt := none }
      | none => s.setChan n.val k.val j.val { s.chan n.val k.val j.val with filt := some (rise, s.nowFine - ago.toNat) }) := by
  refine congrArg Host.Outcome.next ((if_pos (by simp [runs, beats])).trans ?_)
  exact (if_neg (by simp [on, mode])).trans ((if_neg (by simp [waits])).trans rfl)

/-- An edge that its filter accepts is captured. -/
theorem captureEdge_effect (accepted : s.capAccepts n.val k.val j.val (s.nowFine - ago.toNat) = true)
    (selected : edgeSelected (s.rf (R.TU_CHj_CAP_CFG n.val k.val j.val) 11 10) rise = true)
    (passed : s.rf (R.TU_CHj_CAP_CFG n.val k.val j.val) 29 22 ≤ (s.chan n.val k.val j.val).presc)
    (first : (s.chan n.val k.val j.val).lastCap = none) (here : j.val < (s.tu n.val k.val).chans.length) (f : Nat)
    (instant : f = captureInstant s.nowFine ago.toNat (s.rf (R.TU_CHj_CAP_CFG n.val k.val j.val) 9 0)) :
    ∃ t, exec (.captureEdge n k j rise ago) s = .next t
      ∧ t.reg (R.TU_CHj_CAP_LO n.val k.val j.val) = lo64 (s.stampT n.val f).toNat
      ∧ t.reg (R.TU_CHj_CAP_HI n.val k.val j.val) = hi64 (s.stampT n.val f).toNat
      ∧ t.rf (R.TU_CHj_CAP_SUB n.val k.val j.val) 31 16 = (s.rf (R.TU_CHj_CAP_SUB n.val k.val j.val) 31 16 + 1) % 65536
      ∧ t.rb (R.TU_CHj_CAP_SUB n.val k.val j.val) 9 = rise
      ∧ t.rf (R.TU_CHj_CAP_SUB n.val k.val j.val) 8 0 = f % 320
      ∧ (t.chan n.val k.val j.val).consumed = false
      ∧ (t.chan n.val k.val j.val).lastCap = some f
      ∧ ((s.chan n.val k.val j.val).consumed = false → t.rb (R.TU_STATUS n.val k.val) 9 = true)
      ∧ t.mem = s.mem := by
  have put : (s.setChan n.val k.val j.val { s.chan n.val k.val j.val with filt := none }).chan n.val k.val j.val =
      { s.chan n.val k.val j.val with filt := none } := s.chan_setChan _ _ _ _ here
  have here' := (s.setChan_length n.val k.val j.val { s.chan n.val k.val j.val with filt := none }).symm ▸ here
  rw [exec_captureEdge_accepted runs beats on mode accepted]
  have done := State.capture_eq (s := s.setChan n.val k.val j.val { s.chan n.val k.val j.val with filt := none })
    (rise := rise) (ago := ago.toNat) selected (by rw [put]; exact passed) (by rw [put]; exact first)
  have effect := State.captureDone_effect (n := n) (k := k) (j := j)
    (s.setChan n.val k.val j.val { s.chan n.val k.val j.val with filt := none }) rise f here'
  rw [put] at effect
  subst instant
  exact ⟨_, congrArg Host.Outcome.next done, effect⟩

/-- An edge that its filter has not accepted yet waits; the opposite edge ends the wait. -/
theorem captureEdge_waits (waits : s.capAccepts n.val k.val j.val (s.nowFine - ago.toNat) = false)
    (here : j.val < (s.tu n.val k.val).chans.length) :
    ∃ t, exec (.captureEdge n k j rise ago) s = .next t
      ∧ ((s.chan n.val k.val j.val).filt = none → (t.chan n.val k.val j.val).filt = some (rise, s.nowFine - ago.toNat))
      ∧ (∀ f : Nat, (s.chan n.val k.val j.val).filt = some (!rise, f) → (t.chan n.val k.val j.val).filt = none)
      ∧ RegsBut [] s t
      ∧ SameBut [.tus] s t := by
  refine ⟨_, exec_captureEdge_waiting runs beats on mode waits, ?_⟩
  have put (c : ChanRec) : RegsBut [] s (s.setChan n.val k.val j.val c) ∧ SameBut [.tus] s (s.setChan n.val k.val j.val c) :=
    ⟨(RegsSet.of_regs rfl []).regsBut, State.setChan_touch.sameBut⟩
  cases e : (s.chan n.val k.val j.val).filt with
  | none =>
    exact ⟨fun _ => congrArg ChanRec.filt (s.chan_setChan _ _ _ _ here), fun f h => (nomatch h), (put _).1, (put _).2⟩
  | some p =>
    obtain ⟨l, g⟩ := p
    dsimp only
    split
    case isTrue same =>
      refine ⟨fun h => (nomatch h), fun f h => ?_, (RegsSet.refl [] s).regsBut, .refl _ s⟩
      simp [same] at h
    case isFalse =>
      exact ⟨fun h => (nomatch h), fun f _ => congrArg ChanRec.filt (s.chan_setChan _ _ _ _ here), (put _).1, (put _).2⟩

end

/-! ### A read of a capture -/

/-- Where a timer unit's registers lie. -/
theorem locate_tu {n k o : Nat} (hn : n < 16) (hk : k < 4) (ho : o < 0x1000) :
    locate (0x40200000 + 0x1000000 * n + 0x1000 * k + o) = some (.tu n k, o) := by
  have slot : (0x40200000 + 0x1000000 * n + 0x1000 * k + o) / 0x1000000 = 0x40 + n := by omega
  have inside : (0x40200000 + 0x1000000 * n + 0x1000 * k + o) % 0x1000000 = 0x200000 + 0x1000 * k + o := by omega
  have island : 0x40 + n - 0x40 = n := by omega
  have unit_ : (0x200000 + 0x1000 * k + o - 0x200000) / 0x1000 = k := by omega
  have offset : (0x200000 + 0x1000 * k + o) % 0x1000 = o := by omega
  simp only [locate, slot, inside]
  rw [if_pos (by omega), locateIsland]
  simp only [island, unit_, offset]
  rw [if_neg (by omega), if_neg (by omega), if_pos (by omega)]

theorem locate_TU_CAP (n : Fin 16) (k : Fin 4) (j : Fin 6) :
    locate (R.TU_CHj_CAP_LO n.val k.val j.val / 4 * 4) = some (.tu n.val k.val, 0x21C + 0x40 * j.val)
    ∧ locate (R.TU_CHj_CAP_HI n.val k.val j.val) = some (.tu n.val k.val, 0x220 + 0x40 * j.val) := by
  have low : R.TU_CHj_CAP_LO n.val k.val j.val / 4 * 4 =
      0x40200000 + 0x1000000 * n.val + 0x1000 * k.val + (0x21C + 0x40 * j.val) := by
    unfold R.TU_CHj_CAP_LO; omega
  have high : R.TU_CHj_CAP_HI n.val k.val j.val =
      0x40200000 + 0x1000000 * n.val + 0x1000 * k.val + (0x220 + 0x40 * j.val) := by
    unfold R.TU_CHj_CAP_HI; omega
  rw [low, high]
  exact ⟨locate_tu n.isLt k.isLt (by omega), locate_tu n.isLt k.isLt (by omega)⟩

theorem tuRow_eq (n k o : Nat) : (Blk.tu n k).row o = rows_tu.find? (fun r => r.holds o) := rfl

theorem tuRow_capture (n k : Nat) (j : Fin 6) : ((Blk.tu n k).row (0x21C + 0x40 * j.val)).map (·.access) = some .ll
    ∧ ((Blk.tu n k).row (0x220 + 0x40 * j.val)).map (·.access) = some .hs := by
  rw [tuRow_eq, tuRow_eq]
  revert j
  decide

theorem shadows_capture (n : Fin 16) (k : Fin 4) (j : Fin 6) :
    R.TU_CHj_CAP_HI n.val k.val j.val ∈ shadowsOf (R.TU_CHj_CAP_LO n.val k.val j.val) := by
  have other : R.TU_CHj_CAP_LO n.val k.val j.val ≠ R.FC_REC0 := by unfold R.TU_CHj_CAP_LO R.FC_REC0; omega
  have next : R.TU_CHj_CAP_LO n.val k.val j.val + 4 = R.TU_CHj_CAP_HI n.val k.val j.val := by
    unfold R.TU_CHj_CAP_LO R.TU_CHj_CAP_HI; omega
  obtain ⟨row, found, access⟩ := Option.map_eq_some_iff.mp (tuRow_capture n.val k.val j).2
  have shadow : rowAt (R.TU_CHj_CAP_HI n.val k.val j.val) = some row := by
    rw [rowAt, (locate_TU_CAP n k j).2]
    exact found
  rw [shadowsOf, if_neg other, List.map_cons, next, List.takeWhile_cons_of_pos (by simp [shadow, access])]
  exact List.mem_cons_self

theorem find_capture (n k : Nat) (j : Fin 6) :
    (List.range 6).find? (fun i => R.TU_CHj_CAP_LO n k j.val == R.TU_CHj_CAP_LO n k i) = some j.val := by
  rw [List.find?_range_eq_some]
  refine ⟨by simp, List.mem_range.mpr j.isLt, fun i hi => ?_⟩
  simp [R.TU_CHj_CAP_LO]
  omega

theorem exec_captureRead {m : Master} {r : RegRow} (h : s.Reads m (.tu n.val k.val) r (R.TU_CHj_CAP_LO n.val k.val j.val)) :
    exec (.captureRead m n k j) s =
      .next (((s.latch (.tu n.val k.val) (R.TU_CHj_CAP_LO n.val k.val j.val) (s.domainOf m)).consumeCap n.val k.val j.val).answer m
        (.data (s.reg (R.TU_CHj_CAP_LO n.val k.val j.val)))) := by
  obtain ⟨o, found, row⟩ := State.row_of_place h.place
  have offset : o = 0x21C + 0x40 * j.val := by
    rw [(locate_TU_CAP n k j).1] at found
    simpa using found.symm
  have access : r.access = .ll := by
    have known := (tuRow_capture n.val k.val j).1
    rw [← offset, row] at known
    simpa using known
  have notState : R.TU_CHj_CAP_LO n.val k.val j.val ≠ R.TU_STATE n.val k.val := by
    unfold R.TU_CHj_CAP_LO R.TU_STATE; omega
  have read : s.readReg (.tu n.val k.val) r (R.TU_CHj_CAP_LO n.val k.val j.val) (s.domainOf m) =
      (s.reg (R.TU_CHj_CAP_LO n.val k.val j.val),
        (s.latch (.tu n.val k.val) (R.TU_CHj_CAP_LO n.val k.val j.val) (s.domainOf m)).consumeCap n.val k.val j.val) := by
    simp only [State.readReg, access, State.live, if_neg notState, State.consume, find_capture]
  have run : exec (.captureRead m n k j) s = s.readCmd m (R.TU_CHj_CAP_LO n.val k.val j.val) 4 := rfl
  rw [run, State.readCmd_of_reads h (by unfold R.TU_CHj_CAP_LO; omega) ?_ ?_, read]
  · exact if_neg (by unfold R.TU_CHj_CAP_LO; omega)
  · unfold R.TU_CHj_CAP_LO R.CAL_BRAMw; omega

end

end Sys2Proof.Machine
end

section
/-!
Trips, holds and captures of timer units (R174 to R185).
-/
set_option Elab.async false
namespace Sys2Proof.Machine
open Sys2Proof

theorem captureRead_effect {m : Master} {n : Fin 16} {k : Fin 4} {j : Fin 6} {s : State} {r : RegRow}
    (h : s.Reads m (.tu n.val k.val) r (R.TU_CHj_CAP_LO n.val k.val j.val))
    (here : j.val < (s.tu n.val k.val).chans.length) :
    ∃ t, exec (.captureRead m n k j) s = .next t
      ∧ t.reply = some ⟨m, .data (s.reg (R.TU_CHj_CAP_LO n.val k.val j.val))⟩
      ∧ (t.chan n.val k.val j.val).consumed = true
      ∧ t.domReg (R.TU_CHj_CAP_HI n.val k.val j.val) (s.domainOf m) = s.reg (R.TU_CHj_CAP_HI n.val k.val j.val)
      ∧ RegsBut [] s t
      ∧ SameBut [.domRegs, .tus, .reply] s t := by
  have touch : Touch 0x8 s (s.latch (.tu n.val k.val) (R.TU_CHj_CAP_LO n.val k.val j.val) (s.domainOf m)) := State.latch_touch
  have notState : R.TU_CHj_CAP_HI n.val k.val j.val ≠ R.TU_STATE n.val k.val := by
    unfold R.TU_CHj_CAP_HI R.TU_STATE; omega
  have high := (s.latch_domReg (.tu n.val k.val) (R.TU_CHj_CAP_LO n.val k.val j.val) (s.domainOf m)
    (shadows_capture n k j)).trans (if_neg notState)
  refine ⟨_, exec_captureRead h, rfl, ?_⟩
  generalize s.latch (.tu n.val k.val) (R.TU_CHj_CAP_LO n.val k.val j.val) (s.domainOf m) = u at *
  have here' : j.val < (u.tu n.val k.val).chans.length := by
    rw [State.tu, touch.same_part .tus]
    exact here
  have taken : Touch 0x10008 s (u.consumeCap n.val k.val j.val) := Touch.of touch |>.then State.setChan_touch
  have same : SameBut [.domRegs, .tus, .reply] s (u.consumeCap n.val k.val j.val) := taken.sameBut
  exact ⟨congrArg ChanRec.consumed (u.chan_setChan _ _ _ _ here'), high, (taken.regsSet []).regsBut.answer m _,
    same.answer (by decide) m _⟩

/-- Settles O30: each command by the case of the unit and of its input. -/
theorem timerTripAndCaptureCommands : Obligations.TimerTripAndCaptureCommands :=
  ⟨fun _ _ _ _ v _ _ h owns => dutyLoadWrite_effect h v owns,
    fun _ _ _ _ on source => tripActive_effect on source,
    fun _ _ _ _ idle => tripActive_idle idle,
    fun _ _ _ _ => tripInputInactive_effect,
    fun _ _ _ v _ _ h => tripLatchClear_effect h v,
    fun _ _ _ v _ _ h held free => systemHoldRelease_free h v held free,
    fun _ _ _ v i _ _ h held mark force => systemHoldRelease_kept h v held i mark force,
    safeNAssert_effect,
    safeNDeassert_effect,
    fun _ _ _ level _ runs checked driven assigned unlocked due here =>
      readbackCheck_effect level runs checked driven assigned unlocked due here,
    fun _ _ _ level _ early => readbackCheck_early level early,
    fun _ _ _ _ _ _ runs beats on mode accepted selected passed first here =>
      captureEdge_effect runs beats on mode accepted selected passed first here _ rfl,
    fun _ _ _ _ _ _ runs beats on mode waits here => captureEdge_waits runs beats on mode waits here,
    fun _ _ _ _ _ _ h here => captureRead_effect h here⟩

end Sys2Proof.Machine
end
